-- ==== Sys2Proof/Word.lean ====
section
/-! DEFINITION. The word types of the LVH48 hub: a byte, a 32-bit register word (R31), a tick of the global time
base (R113, a 64-bit counter) and the 512-bit vector of a fabric cell. -/
namespace Sys2Proof

/-- One byte, the addressable unit of device memory. -/
abbrev Byte := BitVec 8
/-- One register word (R31: every register is 32 bits wide). -/
abbrev Word := BitVec 32
/-- A value of the 64-bit global time base (R113). -/
abbrev Tick := BitVec 64
/-- A device virtual address (R263: 48 bits). -/
abbrev Dva := BitVec 48
/-- A device physical address (R264: 52 bits). -/
abbrev Pa := BitVec 52
/-- A 512-bit vector of a cell, a local-store line or a 64 B memory line. -/
abbrev Line := BitVec 512

end Sys2Proof
end

