-- ==== Sys2Proof/Types.lean ====
section
/-! DEFINITION. The names the manual gives to codes and to the records that commands carry: completion status codes,
partition states, proof tokens, packets, messages. They are the operands of the commands and the vocabulary of the
state. -/
namespace Sys2Proof

/-- Completion status codes (R85, R145, R302, R525, R758): one numbering for every chapter. -/
inductive Status where
  | ok | empty | partialDone | faulted | denied | poisoned | aborted | late | sealFail | version
  deriving DecidableEq, Repr

/-- The code of a status. -/
def Status.code : Status → Nat
  | .ok => 0 | .empty => 1 | .partialDone => 2 | .faulted => 3 | .denied => 4 | .poisoned => 5
  | .aborted => 6 | .late => 7 | .sealFail => 8 | .version => 9

/-- Partition states (R110). -/
inductive PState where
  | stopped | running | waiting | held | broken
  deriving DecidableEq, Repr

/-- Hold reasons of `PRF_PART_STATE.HOLD_REASON` (R152). -/
inductive Hold where
  | none | late | endStep | holdAfter | fault | host | image | fence
  deriving DecidableEq, Repr

/-- The 4-bit code of a hold reason (R152). -/
def Hold.code : Hold → Nat
  | .none => 0 | .late => 1 | .endStep => 2 | .holdAfter => 3 | .fault => 4 | .host => 5 | .image => 6 | .fence => 7

/-- The hold reason of a code. -/
def Hold.ofCode : Nat → Hold
  | 1 => .late | 2 => .endStep | 3 => .holdAfter | 4 => .fault | 5 => .host | 6 => .image | 7 => .fence | _ => .none

/-- TYPE of a proof token (R122). -/
inductive TokenType where
  | arrive | release | hold | brk | timeReq | timeResp
  deriving DecidableEq, Repr

/-- The TYPE byte of a token. -/
def TokenType.code : TokenType → Nat
  | .arrive => 1 | .release => 2 | .hold => 3 | .brk => 4 | .timeReq => 5 | .timeResp => 6

/-- A proof token as it stands on the wire (R122), field by field. -/
structure Token where
  type   : TokenType
  domain : Fin 64
  flags  : BitVec 8
  frac   : BitVec 4
  hops   : BitVec 4
  step   : BitVec 32
  tick   : BitVec 48
  crc    : BitVec 16
  deriving DecidableEq, Repr

/-- How a proof token reaches the package (R124): on a proof port or as a mirror copy on a step link. -/
inductive TokenVia where
  | port (p : Fin 8)
  | mirror (link : Fin 8)
  deriving DecidableEq, Repr

/-- Outcome of a check of stored data by its error-correcting code (R339 to R341). -/
inductive Ecc where
  | clean | corrected | uncorrectable
  deriving DecidableEq, Repr

/-- The units that initiate NoC requests (R279). -/
inductive Initiator where
  | cell (n : Nat)
  | xfe (n : Nat)
  | col (n : Nat)
  | site (n : Nat)
  | home
  | fw
  | audit (port : Nat)
  | link (port : Nat)                  -- a step-link port, for the slots whose final step is delivered (R523)
  deriving DecidableEq, Repr

/-- NoC packet opcodes (R369). -/
inductive NocOp where
  | read | write | readData | writeAck | refuse | regRead | regResp | cfgBcast | faultSignal | coh
  deriving DecidableEq, Repr

/-- The ways a register access reaches the hub (R31 to R35, R47): the BAR0 window, the BAR2 window, or firmware's
private path. -/
inductive RegPath where
  | bar0 | bar2 | bar4 | fw
  deriving DecidableEq, Repr

/-- The way of a register read and its width: a 64-bit read is done as two 32-bit reads (R33). -/
structure ReadPath where
  path : RegPath
  wide : Bool
  deriving DecidableEq, Repr

/-- Which of the two copies of the indirect pair and of each mailbox an access uses (R48, R49). -/
inductive Owner2 where
  | host | fw
  deriving DecidableEq, Repr

/-- A Gelja message (R447, R448, R462): the header slot's fields, the byte-enable slot, the further slot of IDENTITY
and the data lines as bytes. -/
structure GMsg where
  len       : BitVec 3 := 0
  poison    : Bool := false
  state     : BitVec 2 := 0
  wbp       : Bool := false
  reserved  : Bool := false            -- some reserved bit of the message is not 0
  tag       : BitVec 12 := 0
  ctx       : BitVec 10 := 0
  stepValid : Bool := false
  status    : BitVec 8 := 0
  addr      : BitVec 48 := 0
  step16    : BitVec 16 := 0
  be        : BitVec 64 := 0
  extra     : BitVec 128 := 0
  data      : List Byte := []
  deriving DecidableEq, Repr

/-- PARAM of a control message (R462): ADDR and STEP16 read as one 64-bit field. -/
def GMsg.param (m : GMsg) : BitVec 64 := m.step16 ++ m.addr

/-- A CXL.cache or CXL.io message from an occupant (R486): its tag, DVA, data and byte enables; `alt` tells
CleanEvictNoData from CleanEvict and WrCur from ItoMWr. -/
structure CxlMsg where
  tag    : BitVec 12 := 0
  addr   : BitVec 48 := 0
  be     : BitVec 64 := 0
  data   : List Byte := []
  poison : Bool := false
  alt    : Bool := false
  deriving DecidableEq, Repr

/-- CXL snoop responses (R486). -/
inductive CxlSnpRsp where
  | iHitI | iHitSE | sHitSE | vHitV | iFwdM | sFwdM | vFwdV
  deriving DecidableEq, Repr

/-- CXL.io requests that enter the crust (R426, R428). -/
inductive CxlIo where
  | memRd | memWr | msi
  deriving DecidableEq, Repr

/-- A step-link slot: its 32 B header (R500) and its payload. -/
structure Slot where
  hdr     : BitVec 256
  payload : List Byte
  deriving DecidableEq, Repr

/-- What a step-link training learns (R492 to R494). -/
structure Training where
  lanes    : BitVec 4
  polarity : BitVec 4
  laneMap  : BitVec 8
  peerId   : BitVec 64
  peerPort : BitVec 3
  latency  : BitVec 16
  deriving DecidableEq, Repr

/-- Completion status of a PCIe request (R277). -/
inductive CplStat where
  | sc | ur | ca
  deriving DecidableEq, Repr

/-- Response codes of a PRG Response (R308). -/
inductive PrgCode where
  | success | invalid | failure
  deriving DecidableEq, Repr

/-- The wide-value mailboxes (R49 and the chapters of their blocks). -/
inductive MbxId where
  | prfStep | prfTime | pwrThrottle | pwrEnergy | vif | xfe (n : Fin 64) | xlt | srm | mem (m : Fin 6) | qos
  | sit (n : Fin 18) | stl | col | sec | dbg | trc | viView (v : Fin 1024) | viTel (v : Fin 1024)
  deriving DecidableEq, Repr

/-- What an uncorrectable cell error struck (R195). -/
inductive CellPart where
  | ls (line : Fin 512)
  | slot (k : Fin 8)
  | vreg (n : Fin 32)
  | accParity (n : Fin 4)
  | residue (n : Fin 32)
  deriving DecidableEq, Repr

/-- A unit that zeroing works on (R350): a granule, an SRAM bank, an HBM channel. -/
inductive ZeroUnit where
  | granule (g : Nat)
  | bank (b : Fin 64)
  | chan (m : Fin 6) (ch : Fin 32)
  deriving DecidableEq, Repr

/-- What an occupant answered in its attestation (R417, R418). -/
structure AttestIn where
  unsupported : Bool                   -- GET_VERSION answered with ERROR UnsupportedRequest
  silent      : Bool                   -- no answer within 100 ms
  algOk       : Bool                   -- an algorithm of R417 was negotiated
  sigsOk      : Bool                   -- every signature verified
  rootDig     : BitVec 384
  chainDig    : BitVec 384
  measDig     : BitVec 384
  deriving DecidableEq, Repr

/-- The path of a life-cycle request or an OTP burn (R633, R634). -/
inductive LcsPath where
  | bar0 | tap
  deriving DecidableEq, Repr

/-- How the burning of a field went (R627, R652): every bit burnt, or the number of bits that took in each copy. -/
inductive Burn where
  | full
  | short (a b c : Nat)
  deriving DecidableEq, Repr

/-- What the sensors and counters show the power controller in one microsecond (R657 to R672). -/
structure PowerIn where
  amps8   : Nat                        -- 0.125 A
  raw     : Nat                        -- E + S, W
  hubRaw  : Nat                        -- the hub blocks' part of E, W
  baseRaw : Nat                        -- the part of E + S that R678 counts as base, W
  groupW  : List Nat                   -- compute, memory, links: their part of E + S, W
  partRaw : List (Nat × Nat)           -- a partition and its units' part of E + S, W
  siteW   : List (Nat × Nat)           -- a site and its SITE_CORE power, W
  tiles   : List (Nat × Nat × Nat × Nat × Nat)   -- a tile, its sense code, input W, output W, temperature
  energy  : List (Nat × Nat)           -- a power domain and the mJ it used
  deriving DecidableEq, Repr

/-- Results of the tests and trainings of one start (R719 to R736). -/
structure StartIn where
  young       : Bool                   -- the last-good test record is younger than 90 days
  flashOk     : Bool                   -- a flash device answers
  sramTest    : Bool                   -- management SRAM self-test passed
  secTest     : Bool                   -- security island self-test passed
  otpOk       : Bool                   -- no uncorrectable OTP error in the life-cycle fields or the configuration word
  synthLock   : Bool                   -- every synthesiser locked
  crossings   : BitVec 3               -- spine-segment crossings trained
  entropyOk   : Bool
  nonce       : BitVec 256             -- the boot nonce drawn
  banksBad    : List Nat               -- SRAM banks that failed their test
  sramRows    : List (Nat × Nat)       -- bank and row found bad
  chansBad    : List Nat               -- HBM channels m × 32 + ch that failed training
  hbmRows     : List (BitVec 32)       -- HBM rows found bad, as DATA of R730
  cellsBad    : List (Nat × Nat)       -- quadrant and physical cell found bad
  switchBad   : List Nat               -- quadrant columns whose switchbox failed
  verifyA     : Bool                   -- the slot's signature verifies (R751)
  verifyB     : Bool
  verifyR     : Bool
  proofPorts  : BitVec 8               -- proof ports trained
  proofPeers  : List (Nat × Nat)       -- a proof port and the peer identity learnt on it
  throtLow    : Bool
  deriving DecidableEq, Repr

/-- What a debugger does to the management core (R648). -/
inductive HaltOp where
  | halt | stepOne | resume
  deriving DecidableEq, Repr

/-- The policy fields a POWER_OVERRIDE sets (R690). -/
structure PowerSet where
  avgLimit  : Option Nat
  avgWindow : Option Nat
  priority  : Option Nat
  caution   : Option (Nat × Nat × Nat)
  fclk      : Option (Nat × Nat)
  noShare   : Option Bool
  deriving DecidableEq, Repr

/-- Where a router's output leads: nowhere, to an input of a router, or to an attachment by port number (R364, R365). -/
inductive NocEnd where
  | none
  | router (r input : Nat)
  | port (p : Nat)
  deriving DecidableEq, Repr

/-- Address type of a PCIe request (R276). -/
inductive AddrType where
  | untranslated | translationRequest | translated
  deriving DecidableEq, Repr

/-- What every TLP carries beside its address and data: the address type, Relaxed Ordering, ID-Based Ordering and No Snoop
(R276, R539). -/
structure Tlp where
  addrType : AddrType := .untranslated
  ro  : Bool := false
  ido : Bool := false
  ns  : Bool := false
  deriving DecidableEq, Repr

/-- The hub's TLPs of an address type: the three attributes are 0 (R539). -/
def hubTlp (a : AddrType) : Tlp := { addrType := a, ro := false, ido := false, ns := false }

/-- The completion TLP that answers a register read: none on firmware's own path. -/
def RegPath.tlp : RegPath → Option Tlp
  | .fw => none
  | _ => some (hubTlp .untranslated)

/-- What the hub sends outward: proof tokens, NoC packets, Gelja and CXL messages, PCIe transactions, step-link units,
wire levels, management answers and the values that register reads return. -/
inductive Emit where
  | token (via : TokenVia) (t : Token)
  | nocReq (tag : Nat) (op : NocOp) (addr : Nat) (ctx : Nat)
  | nocResp (tag : Nat) (op : NocOp) (status : Nat)
  | regResp (port : Nat) (tag : Nat) (val : Word)
  | faultSignal (group bit : Nat)
  | gelja (site : Nat) (op : Nat) (m : GMsg)
  | flit (site : Nat) (payload : List Byte)
  | cxl (site : Nat) (op : String) (tag addr : Nat) (data : List Byte) (poison : Bool)
  | cxlMem (site : Nat) (op : String) (metaField snpType : String) (tag : Nat) (offset : Nat) (data : List Byte)
  | hostRead (tlp : Tlp) (tag : Nat) (iova : Nat) (len : Nat)
  | hostWrite (tlp : Tlp) (iova : Nat) (data : List Byte) (poison : Bool)
  | atsReq (tlp : Tlp) (engine : Nat) (iova : Nat)
  | pageReq (tlp : Tlp) (engine : Nat) (iova : Nat)
  | invDone (tlp : Tlp) (itag : Nat)
  | inta (tlp : Tlp) (assert : Bool)
  | slot (port : Nat) (s : Slot)
  | control (port : Nat) (block : BitVec 128)
  | identity (port : Nat) (serial : BitVec 64) (own : Nat)
  | releaseOut (site : Nat) (level : Bool)
  | arriveOut (site : Nat) (level : Bool)
  | errN (released : Bool)
  | spdm (transport : Nat) (msg : List Byte)
  | pldm (msg : List Byte)
  | tap (bits : BitVec 64)
  | readValue (tlp : Option Tlp) (path : RegPath) (addr : Nat) (val : Word)
  deriving DecidableEq, Repr

end Sys2Proof
end

