-- ==== Sys2Proof/Config.lean ====
section
/-! DEFINITION. What an implementation fixes and the values the manual leaves free: constants with no body, so that
nothing can be proved from a particular value. The cryptographic functions are those of the named standards, which
the manual does not define. -/
namespace Sys2Proof.Config
open Sys2Proof

/-- The `n`-th free value of width `w`: a value that the manual leaves open. [DESIGN CHOICE, log entry 6] -/
opaque freeBits (w : Nat) (n : Nat) : BitVec w
/-- SHA-384 of a byte string. [DESIGN CHOICE, log entry 7] -/
opaque sha384 : List Byte → BitVec 384
/-- CRC and cyphers aside: the ECDSA check on brainpoolP384r1 with SHA-384, of key X, Y, message, r and s.
[DESIGN CHOICE, log entry 7] -/
opaque ecdsaOk : BitVec 384 → BitVec 384 → List Byte → BitVec 384 → BitVec 384 → Bool
/-- The device identity key's ECDSA signature (r then s) of a message (R596, R611). [DESIGN CHOICE, log entry 7] -/
opaque idSign : List Byte → BitVec 768
/-- Whether X then Y is a point of brainpoolP384r1 (R594). [DESIGN CHOICE, log entry 7] -/
opaque onCurve : BitVec 768 → Bool
/-- The ephemeral public key of the `n`-th OPEN (R595). [DESIGN CHOICE, log entry 7] -/
opaque ephPub : Nat → BitVec 768
/-- The nonce NH of the `n`-th OPEN (R595). [DESIGN CHOICE, log entry 7] -/
opaque ephNonce : Nat → BitVec 256
/-- The session key of the `n`-th OPEN: HKDF over the shared secret, from QT, NT, NH, the VI and SERIAL (R595).
[DESIGN CHOICE, log entry 7] -/
opaque sealKey : Nat → BitVec 768 → BitVec 256 → BitVec 256 → Nat → BitVec 64 → BitVec 256
/-- AES-256-GCM encryption (R598): key, IV, authenticated bytes, plaintext; ciphertext and tag. [DESIGN CHOICE, log entry 7] -/
opaque gcmSeal : BitVec 256 → BitVec 96 → List Byte → List Byte → List Byte × BitVec 128
/-- AES-256-GCM decryption: none when the tag fails. [DESIGN CHOICE, log entry 7] -/
opaque gcmOpen : BitVec 256 → BitVec 96 → List Byte → List Byte → BitVec 128 → Option (List Byte)
/-- The maker's firmware key in ROM (R751). [DESIGN CHOICE, log entry 7] -/
opaque makerFwX : BitVec 384
/-- [DESIGN CHOICE, log entry 7] -/
opaque makerFwY : BitVec 384
/-- SHA-384 of ROM (R613). [DESIGN CHOICE, log entry 7] -/
opaque romDigest : BitVec 384
/-- The maker debug-root hash in ROM (R645). [DESIGN CHOICE, log entry 7] -/
opaque makerDbgHash : BitVec 384
/-- A measurement block in the DMTF measurement block format (R613): its index and its value. [DEDUCED, log entry 63] -/
opaque measBlock : Nat → List Byte → List Byte
/-- Whether a stored chain is one that R816 accepts: its leaf carries the identity key and SERIAL and each
certificate verifies under the next. [DESIGN CHOICE, log entry 7] -/
opaque chainOk : List Byte → BitVec 384 → BitVec 384 → BitVec 64 → Bool
/-- The result that the hub's unpublished tables give for a special function (R238, R239): function, format code,
operand bits. [DESIGN CHOICE, log entry 36] -/
opaque sfu : Nat → Nat → Nat → Nat
/-- Soft PPR resources that a stack offers in a bank of a pseudo-channel and SID beyond the one of R819.
[DESIGN CHOICE, log entry 44] -/
opaque pprExtra : Nat → Nat
/-- Hard PPR resources that a stack offers in a bank of a pseudo-channel and SID (R819). [DESIGN CHOICE, log entry 44] -/
opaque hardOffer : Nat → Nat
/-- Which granules firmware chooses for a MAP (R761): a seed for its choice. [DESIGN CHOICE, log entry 26] -/
opaque mapChoice : Nat → Nat
/-- Bytes of a section of a handover record: by TYPE and the next free number (R766). [DEDUCED, log entry 78] -/
opaque recordSection : Nat → Nat → List Byte
/-- Text of a management answer that the manual does not give byte by byte: protocol, code, and what it reports.
[PRESUMED, log entry 61] -/
opaque answer : Nat → Nat → List Byte → List Byte

/-- Where each output of each router leads, by router × 8 + output: the manual gives the numbers of routers, outputs and ports and
not their wiring (R365). [DESIGN CHOICE, log entry 84] -/
opaque nocWires : List (Nat × NocEnd)
/-- The input of a router, as router × 8 + input, into which a port sends. [DESIGN CHOICE, log entry 84] -/
opaque nocAttach : List (Nat × Option Nat)
/-- Protocol payload bytes of a flit beyond the 224 that Gelja uses (R445). [DESIGN CHOICE, log entry 87] -/
opaque flitTail : Nat
/-- The sum of two INT8 or INT4 elements in a collective reduction where it falls outside the format, by format code: the
manual states the wrap of INT32 only (R234). [DESIGN CHOICE, log entry 37] -/
opaque narrowSum : Nat → Nat → Nat → Nat

end Sys2Proof.Config
end

