-- ==== Sys2Proof/Machine/Tab.lean ====
section
/-! DEFINITION. A sparse table over natural keys: a list of key and value pairs with keys strictly rising and no entry
equal to what an unlisted key reads as. It holds every numbered collection of units in the state, and it is the
form in which memory is kept. -/
namespace Sys2Proof

/-- A sparse table: pairs of a key and a value, keys strictly rising. -/
abbrev Tab (α : Type) := List (Nat × α)

/-- The value at key `k`; an unlisted key reads as `d`. -/
def Tab.get {α : Type} (d : α) : Tab α → Nat → α
  | [], _ => d
  | (j, v) :: t, k => if j = k then v else if k < j then d else Tab.get d t k

/-- Insert or replace the entry at `k`, with no look at the default. -/
def Tab.put {α : Type} : Tab α → Nat → α → Tab α
  | [], k, v => [(k, v)]
  | (j, w) :: t, k, v =>
    if j = k then (k, v) :: t
    else if k < j then (k, v) :: (j, w) :: t
    else (j, w) :: Tab.put t k v

/-- Remove the entry at `k`. -/
def Tab.del {α : Type} : Tab α → Nat → Tab α
  | [], _ => []
  | (j, w) :: t, k =>
    if j = k then t
    else if k < j then (j, w) :: t
    else (j, w) :: Tab.del t k

/-- Write `v` at `k`, keeping the canonical form: the default value is never listed. -/
def Tab.set {α : Type} [DecidableEq α] (d : α) (t : Tab α) (k : Nat) (v : α) : Tab α :=
  if v = d then Tab.del t k else Tab.put t k v

/-- Change the value at `k` by a function. -/
def Tab.upd {α : Type} [DecidableEq α] (d : α) (t : Tab α) (k : Nat) (f : α → α) : Tab α :=
  Tab.set d t k (f (Tab.get d t k))

/-- Every key of the table is above `lo`, keys rise strictly and no value is the default. -/
def Tab.wfFrom {α : Type} [DecidableEq α] (d : α) : Nat → Tab α → Bool
  | _, [] => true
  | lo, (j, v) :: t => decide (lo ≤ j) && decide (v ≠ d) && Tab.wfFrom d (j + 1) t

/-- The canonical form of a table. -/
def Tab.wf {α : Type} [DecidableEq α] (d : α) (t : Tab α) : Bool := Tab.wfFrom d 0 t

/-- Keys at or above `lo`, rising strictly, whatever the values. -/
def Tab.risesFrom {α : Type} : Nat → Tab α → Bool
  | _, [] => true
  | lo, (j, _) :: t => decide (lo ≤ j) && Tab.risesFrom (j + 1) t

/-- Keys rise strictly: the form of a table whose default depends on the key. -/
def Tab.rises {α : Type} (t : Tab α) : Bool := Tab.risesFrom 0 t

/-- Change every listed value by a function of its key, dropping values that become the default. -/
def Tab.mapV {α : Type} [DecidableEq α] (d : α) (f : Nat → α → α) : Tab α → Tab α
  | [] => []
  | (j, v) :: t => if f j v = d then Tab.mapV d f t else (j, f j v) :: Tab.mapV d f t

/-- Keep the entries whose key satisfies a test. -/
def Tab.keep {α : Type} (p : Nat → Bool) (t : Tab α) : Tab α := t.filter (fun e => p e.1)

/-- Apply an update at every key of a list, in order. -/
def Tab.updAll {α : Type} [DecidableEq α] (d : α) (f : Nat → α → α) (t : Tab α) (ks : List Nat) : Tab α :=
  ks.foldl (fun acc k => Tab.set d acc k (f k (Tab.get d acc k))) t

end Sys2Proof
end

