-- ==== Sys2Proof/Machine/StateHost.lean ====
section
/-! DEFINITION. The state of the host endpoint, the virtual interfaces, the security island, the life cycle, debug
and the TAP. Every default below is the reset value. -/
namespace Sys2Proof.Machine
open Sys2Proof

/-! ### Host endpoint (R538 to R582) -/

/-- The host endpoint: link, PCI configuration bits, host DMA and the host driver's lease. -/
structure HostEp where
  linkUp      : Bool := false
  rate        : Nat := 0
  width       : Nat := 0
  flit        : Bool := false
  perst       : Bool := false           -- PERST# asserted
  cfgReady    : Bool := false           -- answers configuration requests (R721)
  bme         : Bool := false
  d3hot       : Bool := false
  intDisable  : Bool := false
  inta        : Bool := false           -- Assert_INTA is the last message sent (R551)
  intStatus   : Bool := false
  attached    : Bool := false
  attachStat  : Status := .ok
  dmaStopped  : Bool := true
  stopReason  : Nat := 0
  drvRenew    : Tick := 0               -- tick of the last lease renewal
  hdt         : List Byte := []         -- BAR4; empty = reads return 0 (R545)
  deriving DecidableEq, Repr

/-- States of a virtual interface (R553). -/
inductive VState where
  | detached | attached | quiesced
  deriving DecidableEq, Repr

/-- A change of state that waits for the partition's next proof (R553); a quiesce carries its bit of the virtual
fault group (R571), none for the host driver's command. -/
inductive VPend where
  | none | quiesce (bit : Option Nat) | detach | rejoin
  deriving DecidableEq, Repr

/-- A command delivered and not completed (R567), or a record read and waiting for delivery. -/
structure Cmd where
  opcode  : Nat
  cmdId   : Word
  step    : BitVec 64
  tag     : Nat
  waitFor : Option (BitVec 64) := none   -- WAIT_STEP
  deriving DecidableEq, Repr

/-- A completion entry that the hub holds (R571, R574): the 32 B entry without its PHASE bit. -/
structure CplEntry where
  status : Status
  opcode : Nat
  cmdId  : Word
  step   : BitVec 64
  detail : Word
  deriving DecidableEq, Repr

/-- A ring read in flight: the head it reads from, and its 64 B requests in ring order with what returned (R300, R565). -/
structure RingRead where
  head : Nat
  reqs : List (Nat × Option (BitVec 512))
  bad  : Bool := false                   -- a request came back poisoned
  deriving DecidableEq, Repr

/-- A virtual interface: its window registers (R583), rings, commands and lease. [DESIGN CHOICE, log entry 4] -/
structure Vi where
  state     : VState := .detached
  pend      : VPend := .none
  attachStat : Status := .ok
  features  : BitVec 2 := 0
  period    : Nat := 100                 -- VIF_LEASE_PERIOD, ms
  renewed   : Tick := 0
  warned    : Bool := false
  cmdBase   : Dva := 0
  cmdSize   : Nat := 0
  depth     : Nat := 1
  cmdHead   : Nat := 0
  cmdPhase  : Bool := true
  cplBase   : Dva := 0
  cplSize   : Nat := 0
  cplTail   : Nat := 0
  cplPhase  : Bool := true
  cplHead   : Nat := 0
  intEn     : BitVec 5 := 0
  intPend   : BitVec 5 := 0
  vstatus   : BitVec 7 := 0
  vmask     : BitVec 7 := 0
  read      : List (BitVec 512) := []    -- new records read and not delivered (R566)
  reading   : Option RingRead := none    -- the ring read in flight
  fetchWait : Bool := false              -- a ring read waits for a translation or a host tag (R578)
  cmds      : List Cmd := []
  nextTag   : Nat := 0
  held      : List CplEntry := []
  resume    : Bool := false            -- the held entries wait for the next fetch slot (R577)
  barrier   : Bool := false              -- a BARRIER holds later records (R561)
  deriving DecidableEq, Repr

/-! ### Security island (R585 to R622) -/

/-- State of a VI's seal session (R621). -/
inductive SealState where
  | none | busy | open_
  deriving DecidableEq, Repr

/-- A seal session and its handshake mailbox (R594 to R607, R621): key slot n holds the session of VI n. -/
structure Seal where
  state     : SealState := .none
  changed   : Bool := false
  result    : Status := .ok
  endReason : Nat := 0
  count     : Word := 0
  qt        : BitVec 768 := 0
  nt        : BitVec 256 := 0
  qh        : BitVec 768 := 0
  nh        : BitVec 256 := 0
  meas      : BitVec 384 := 0
  sig       : BitVec 768 := 0
  key       : Option (BitVec 256) := none
  wiping    : Bool := false              -- the session ended; the slot is not yet wiped (R607)
  cmdSeq    : BitVec 64 := 0             -- last accepted SEQ of a sealed command
  inSeq     : BitVec 64 := 0             -- last accepted SEQ, host to hub
  outSeq    : BitVec 64 := 0             -- last SEQ used, hub to host
  deriving DecidableEq, Repr

/-- A measurement block (R613): its index and its value as a byte string. -/
abbrev Meas := Tab (List Byte)

/-- Progress of an SPDM requester on one transport (R612): versions, capabilities, algorithms agreed. -/
structure Spdm where
  version : Bool := false
  caps    : Bool := false
  algs    : Bool := false
  deriving DecidableEq, Repr

/-- The security island. -/
structure Sec where
  seals     : Tab Seal := []
  entropyOk : Bool := false
  epoch     : Word := 0
  meas      : Meas := []
  idX       : BitVec 384 := 0
  idY       : BitVec 384 := 0
  idKey     : Bool := true               -- the identity private key exists (R609)
  spdm      : Tab Spdm := []             -- by transport: 0 DOE, 1 MCTP over PCIe, 2 MCTP out of band
  deriving DecidableEq, Repr

/-! ### Life cycle and OTP (R623 to R656) -/

/-- One-time-programmable memory: the life-cycle fields in three copies of 16 bits (R625), the package configuration
word as burnt (R631), the integrator debug-key hash, USER_SECRET with its CRC (R629), and the maker's fields.
The defaults are a package as it leaves the maker (R5): INTEGRATOR burnt, the word unprogrammed. [DESIGN CHOICE, log entry 5] -/
structure Otp where
  fields    : Tab (BitVec 16) := [(0, 0xFFFF#16), (1, 0xFFFF#16), (2, 0xFFFF#16)]  -- field × 3 + copy
  pcw       : BitVec 520 := 0            -- 65 B
  dbgHash   : BitVec 416 := 0            -- 52 B: hash and CRC-32
  dbgProg   : Bool := false
  secret    : BitVec 288 := 0            -- USER_SECRET and its CRC-32
  serial    : BitVec 64 := 1
  hubRev    : BitVec 16 := 0
  ordering  : Nat := 0                   -- 0 = -6H, 1 = -4H, 2 = -2H, 3 = -0H (R3, R548)
  defects   : List (BitVec 64) := []     -- defect map entries, in order of appending (R727)
  rollback  : Nat := 0                   -- anti-rollback counter (R753)
  wiped     : Bool := false              -- bits outside the life-cycle fields burnt by SCRAP (R636)
  deriving DecidableEq, Repr

/-- The life-cycle block (R653) and the burn in progress. -/
structure Lcs where
  otp       : Otp := {}
  pcw       : BitVec 520 := 0            -- the word as read at stage 1 of the start (R632)
  transition : Bool := false
  status    : Status := .ok
  target    : Nat := 0
  deferred  : Bool := false
  otpLater  : Option (LcsPath × Nat × List Byte × Burn) := none  -- an OTP burn that waits in the same way (R652)
  rollLater : Bool := false               -- an ADVANCE_ROLLBACK that waits for the input voltage (R652)
  deferTo   : Option (Nat × Burn) := none  -- a transition that waits for the input voltage or a peel (R652), and how its burn goes
  finished  : BitVec 5 := 0
  wipeRep   : Bool := false
  deriving DecidableEq, Repr

/-- Debug (R642 to R656) and the TAP. -/
structure Dbg where
  openS     : Bool := false
  mode      : Nat := 0
  signer    : Nat := 0
  rights    : Word := 0
  minutes   : Nat := 0
  opened    : Tick := 0
  nonce     : BitVec 256 := 0
  fails     : Nat := 0
  locked    : Bool := false
  tapIr     : Nat := 0                   -- instruction selected: 0 BYPASS, 1 IDCODE, 2 EXTEST, 3 SAMPLE/PRELOAD
  tapOut    : BitVec 64 := 0             -- data register shifted out
  boundary  : BitVec 64 := 0             -- boundary cells as last preloaded or driven
  deriving DecidableEq, Repr

end Sys2Proof.Machine
end

