-- ==== Sys2Proof/Machine/StateLinks.lean ====
section
/-! DEFINITION. The state of the coherence home, the step links and the collective units. Every default below is
the reset value. -/
namespace Sys2Proof.Machine
open Sys2Proof

/-! ### The coherence home (R470 to R490) -/

/-- The mode of a line in the snoop filter (R473). -/
inductive HMode where
  | i | s | x
  deriving DecidableEq, Repr

/-- A line's mode and presence vector (R472); a double site uses the bit of its even site. -/
structure HLine where
  mode : HMode := .i
  pres : BitVec 18 := 0
  deriving DecidableEq, Repr

/-- The operation a request asks of the home (R476). -/
inductive HOp where
  | rdShared | rdOwn | upgrade | evictClean | wbDirty | rdCur | ncWrite | clflush | rdOwnNoData
  | backInval (why : Nat)            -- a back-invalidation by firmware or for a victim (R332, R359, R481, R482)
  deriving DecidableEq, Repr

/-- Who asked: an occupant's Gelja message, an occupant's CXL message, the NoC request of a non-caching agent, or the
home itself. -/
inductive HFrom where
  | gelja (site tag : Nat)
  | cxl (site tag : Nat) (op : Nat)
  | noc (req : Nat)
  | self
  deriving DecidableEq, Repr

/-- A request at the home. -/
structure HReq where
  op     : HOp
  src    : HFrom
  site   : Option Nat                  -- requester R when it is a caching agent
  line   : Nat                         -- physical address / 64
  ctx    : Nat
  dva    : Nat
  data   : List Byte := []
  be     : BitVec 64 := 0
  poison : Bool := false
  part   : Nat := 0
  deriving DecidableEq, Repr

/-- What an open transaction waits for (R474). -/
inductive HWait where
  | snoops | ack
  deriving DecidableEq, Repr

/-- An open transaction on a BUSY line: the request, the sites whose snoop responses are missing, the sites whose
crossing writeback is missing (R480), and what it waits for. -/
structure HTxn where
  req    : HReq
  wait   : HWait
  snoop  : BitVec 18 := 0
  wbp    : BitVec 18 := 0
  wrote  : BitVec 18 := 0              -- crossing writebacks already written (R479)
  granted : HMode := .i
  deriving DecidableEq, Repr

/-- The coherence home: lines with a holder, sectors in the order of their allocation (oldest first), open
transactions by line, and queued requests in arrival order. -/
structure Home where
  lines : Tab HLine := []
  alloc : List Nat := []
  txns  : Tab (Option HTxn) := []
  queue : List HReq := []
  victims : List (Nat × HReq) := []    -- requests that wait for a victim sector to be freed (R481)
  cohWins : Tab Word := []             -- SRM_COH_WIN in force (R330, R332)
  cohPend : List (Nat × Word) := []    -- windows whose old range is being back-invalidated
  deriving DecidableEq, Repr

/-! ### Step links (R491 to R510) -/

/-- States of a step-link port (R495, R532). -/
inductive PortState where
  | off | training | up | retrain | fenced
  deriving DecidableEq, Repr

/-- A step-link port. -/
structure Port where
  state     : PortState := .off
  peerBad   : Bool := false            -- REASON: 0x1 = PEER
  lanes     : BitVec 4 := 0
  polarity  : BitVec 4 := 0
  laneMap   : BitVec 8 := 0
  peerId    : BitVec 64 := 0
  peerPort  : BitVec 3 := 0
  peerOk    : Bool := false
  peerLanes : BitVec 4 := 0            -- the peer receiver's active-lane mask from its LINK block (R498)
  corrected : Word := 0
  uncorr    : Word := 0
  replays   : Word := 0
  latency   : BitVec 16 := 0
  uncWin    : List Tick := []          -- ticks of uncorrectable codewords of the last 1 ms (R495)
  sent      : BitVec 64 := 0           -- valid slots sent since reset (R533)
  replay    : List Slot := []          -- the last 64 slots sent, newest first (R501)
  resend    : List Slot := []          -- slots to send again, ahead of new data (R501)
  txq       : List Slot := []          -- slots that wait for a credit or for UP
  credits   : Tab Nat := []            -- slot credits held, by partition (R503)
  rx        : List Slot := []          -- received slots that wait for their turn or their unit
  owed      : Tab Nat := []            -- credits to return once the port is UP again, by partition (R496, R503)
  fenceWait : List Nat := []           -- partitions whose proof an armed fence still waits for
  readmWait : List Nat := []           -- partitions whose proof an armed re-admission still waits for
  deriving DecidableEq, Repr

/-! ### Collective units (R511 to R537) -/

/-- States of a collective unit (R535). -/
inductive CRun where
  | idle | wait | exponent | reduce | distribute | ending | fenced
  deriving DecidableEq, Repr

/-- A read of the source buffer of an operation: its place in the buffer, its length, its request (none where its translation
failed), its data and whether it is poisoned. -/
structure CRead where
  at_  : Nat
  len  : Nat
  tag  : Option Nat
  data : Option (List Byte)
  bad  : Bool
  deriving DecidableEq, Repr

/-- A write of an operation that is not acknowledged: its request, the segment and 64 B line of DST it belongs to (none for the
exponent array). -/
structure CWrite where
  tag : Nat
  seg : Option (Nat × Nat)
  deriving DecidableEq, Repr

/-- The operation a unit runs. Elements are numbered in its buffer: from 0 to COUNT − 1, over all members for ALL_GATHER,
and over all pairs of origin and destination for ALL_TO_ALL. -/
structure COp where
  desc    : BitVec 512
  part    : Nat := 0
  pool    : Nat := 0
  index   : Nat := 0
  step    : BitVec 64 := 0
  round   : Nat := 0                   -- round of its schedule that runs
  stage   : Option Nat := none         -- stage of that round
  live    : BitVec 8 := 0              -- ports in use in the stage (R522)
  own     : Tab Nat := []              -- own addends of a grid sum, in the source format
  ownBad  : Tab Bool := []
  work    : Tab Nat := []              -- elements in the destination format: addends, partial sums, results
  bad     : Tab Bool := []             -- poisoned elements
  exps    : Tab Nat := []              -- exponent word of each block (R247)
  lanes   : Tab Nat := []              -- grid value of each element (R259)
  laneBad : Tab Bool := []
  adds    : Tab Nat := []              -- addends in each block's lanes
  plan    : List (Nat × Nat) := []     -- slots still awaited in the round: place in its data, port
  got     : List (Nat × List Byte × Nat × Nat) := []   -- slots received in the round: place, bytes, POISON bits, port
  src     : List CRead := []           -- reads of the source buffer, until every one has returned
  writes  : List CWrite := []          -- writes that are not acknowledged (R526)
  txSeq   : Tab Nat := []              -- next SEQ to send, by port
  rxSeq   : Tab Nat := []              -- next SEQ to take, by port (R502)
  lines   : List Nat := []             -- 64 B lines written to DST, from its first
  failed  : List Nat := []             -- failed segments, rising
  poison  : Bool := false
  denied  : Bool := false
  aborted : Bool := false
  deriving DecidableEq, Repr

/-- A collective unit. -/
structure Col where
  run       : CRun := .idle
  owner     : Option Nat := none
  cur       : Option COp := none
  queue     : List COp := []
  lastStat  : Status := .ok
  lastFlags : BitVec 8 := 0
  lastDesc  : BitVec 16 := 0
  failedN   : Word := 0
  stall     : Word := 0
  lines     : Word := 0
  sentBytes : BitVec 64 := 0
  draw      : Nat := 0                  -- output lines of the step so far (R223)
  fencePend : Bool := false
  readmPend : Bool := false
  deriving DecidableEq, Repr

end Sys2Proof.Machine
end

