-- ==== Sys2Proof/Machine/StateUnits.lean ====
section
/-! DEFINITION. The state of the working units: the time base, the partitions, the fabric, the transfer engines and
translation, device memory, the NoC and the sites. Every default below is the reset value; its source is named. -/
namespace Sys2Proof.Machine
open Sys2Proof

/-! ### The running image (R58 to R98) -/

/-- One record of an image section (R63): section type, owning partition, GLOBAL, SUBJECT, the byte offset of the
record in the file, and the body after the 8 B header. -/
structure Rec where
  sec     : Nat
  part    : Nat
  glob    : Bool
  subject : Nat
  pos     : Nat
  body    : List Byte
  deriving DecidableEq, Repr

/-- A fallback variant (R74): its partition and number, the excluded units as (unit type, unit index), and the
records of its embedded blocks. -/
structure Variant where
  part   : Nat
  number : Nat
  excl   : List (Nat × Nat)
  types  : List Nat := []            -- types of its embedded blocks, empty ones too (R76)
  recs   : List Rec
  deriving DecidableEq, Repr

/-- An image after validation: header fields (R58), the records of sections 0x01 to 0x0A as loaded (`base`), those of
the active schedules (`recs`: a variant's records in place of the base records it replaces, R76), and the variants. -/
structure Image where
  partialKind : Bool := false
  part        : Nat := 0
  variant     : Nat := 0
  fmtMinor    : Nat := 0
  imageId     : BitVec 64 := 0
  baseId      : BitVec 64 := 0
  length      : Nat := 0
  signed      : Bool := false
  digest      : BitVec 384 := 0
  carried     : List Nat := []       -- types of its sections (R65)
  base        : List Rec := []
  recs        : List Rec := []
  variants    : List Variant := []
  deriving DecidableEq, Repr

/-- KIND of a load-report entry (R89). -/
inductive ReportKind where
  | structural | clamped | ignored | fencedUnit
  deriving DecidableEq, Repr

/-- One entry of the load report (R89). -/
structure ReportEntry where
  kind     : ReportKind
  sec      : Nat
  part     : Nat
  position : Nat
  read     : BitVec 32
  used     : BitVec 32
  deriving DecidableEq, Repr

/-- The load report (R89, R90). -/
structure Report where
  status     : Status := .ok
  written    : Nat := 0
  total      : Nat := 0
  imageId    : BitVec 64 := 0
  activeStep : BitVec 64 := 0
  entries    : List ReportEntry := []
  deriving DecidableEq, Repr

/-- Where a validated partial image takes effect (R94): at the proof that ends a step, or at the current hold. -/
inductive ActPoint where
  | atStep (n : BitVec 64)
  | atHold
  deriving DecidableEq, Repr

/-- Stages of a load (R811, R85, R93): the request is fetched, validated, then armed until it takes effect. -/
inductive LoadStage where
  | idle | fetching | fetched | validated
  deriving DecidableEq, Repr

/-- A load request in progress (R811, R94, R758). -/
structure Load where
  stage     : LoadStage := .idle
  toFlash   : Bool := false          -- WRITE_BOOT_IMAGE
  boot      : Bool := false          -- the boot image at a start
  length    : Nat := 0
  srcAddr   : BitVec 64 := 0
  repAddr   : BitVec 64 := 0
  repLen    : Nat := 0
  act       : Option ActPoint := none -- none: at once
  bytes     : List Byte := []         -- what was fetched
  hwtIx     : Option Nat := none     -- host window entry of the fetch (R759)
  result    : Status := .ok          -- what the validation found
  cand      : Image := {}
  imageId   : BitVec 64 := 0          -- IMAGE_ID for the report, once step 1 has passed (R89)
  entries   : List ReportEntry := []  -- what the checks have found so far
  deriving DecidableEq, Repr

/-- A partial image armed for its activation point (R94, R98). -/
structure Armed where
  img     : Image
  act     : ActPoint
  report  : Report := {}
  repAddr : BitVec 64 := 0
  repLen  : Nat := 0
  deriving DecidableEq, Repr

/-- The image state: what runs, what is loading, what is armed per partition, the last report. -/
structure ImageState where
  loaded  : Bool := false
  run     : Image := {}
  load    : Load := {}
  armed   : Tab (Option Armed) := []
  report  : Report := {}
  fullOk  : Bool := false             -- a validated full image waits for its activation (R92, R93)
  deriving DecidableEq, Repr

/-! ### Time base (R113 to R119) -/

/-- The proof island's clock, of which every island's replica has the same value (R20 allows 1 tick of skew): the 64-bit counter, its 1/16-tick phase (R114), and what `PRF_TIME_CTRL` and
`PRF_TIME_STATUS` show (R151). The counter runs from 0 at reset (R113). [DESIGN CHOICE, log entry 88] -/
structure Clock where
  now       : Tick := 0
  frac      : BitVec 4 := 0
  parent    : Fin 8 := 0
  parentOk  : Bool := false
  locked    : Bool := false
  hops      : Nat := 0
  offset    : BitVec 16 := 0
  delay     : BitVec 16 := 0
  slew      : Int := 0                 -- correction still to be slewed, 1/16 tick (R116)
  slewWait  : Nat := 0                 -- ticks until the phase may move again (R116)
  reqTick   : Option (Nat × Nat) := none   -- t1 and its fraction of the open TIME_REQ (R114)
  onRef     : Bool := false            -- runs from the 156.25 MHz reference (R118)
  deriving DecidableEq, Repr

/-! ### Partitions (R68, R99 to R152) -/

/-- The fields of a partition record (R68). [DESIGN CHOICE, log entry 4] -/
structure PartCfg where
  enable      : Bool := false
  viFirst     : Nat := 0
  viCount     : Nat := 0
  cols        : BitVec 128 := 0
  banks       : BitVec 64 := 0
  chans       : BitVec 192 := 0
  sites       : BitVec 18 := 0
  cus         : BitVec 8 := 0
  links       : BitVec 8 := 0
  xfes        : BitVec 64 := 0
  proofChild  : BitVec 8 := 0
  proofParent : Fin 8 := 0
  parentValid : Bool := false
  domainSize  : Nat := 0
  margin      : Nat := 0
  lateLimit   : Nat := 10000
  proofTimeout : Nat := 100000
  faultLimit  : Nat := 1000000
  deriving DecidableEq, Repr

/-- A partition's step program (R99 to R102): the header, the step records and the slot maps, each 64 B. -/
structure Program where
  header   : BitVec 512 := 0
  steps    : List (BitVec 512) := []
  slotMaps : List (BitVec 512) := []
  deriving DecidableEq, Repr

/-- A starter: SEED and STREAM_BASE (R78, R140). -/
structure Starter where
  seed   : BitVec 64
  stream : BitVec 32
  deriving DecidableEq, Repr

/-- What a child port has reported for the current proof (R125, R135). -/
structure ChildArr where
  port  : Nat
  ready : Bool
  step  : BitVec 32
  tick  : BitVec 48
  flags : BitVec 8
  deriving DecidableEq, Repr

/-- The release a partition is armed for (R127, R129, R134). -/
structure ReleaseArm where
  tick        : Tick
  distributed : Bool
  deriving DecidableEq, Repr

/-- A partition: the state machine of R110 and everything its steps and proofs hold. [DESIGN CHOICE, log entry 4] -/
structure Part where
  state      : PState := .stopped
  hold       : Hold := .none
  variant    : Nat := 0
  lastStatus : Status := .ok
  cfg        : PartCfg := {}
  excl       : List (Nat × Nat) := []      -- units the active schedule excludes (R74, R818)
  prog       : Program := {}
  pc         : Nat := 0                     -- index of the step record that runs (R99)
  entry      : Bool := true                 -- the next release starts at the program's ENTRY (R97, R105)
  loop       : Option Nat := none           -- the loop counter, none = idle (R104)
  step       : BitVec 64 := 0               -- the step counter (R105)
  stepNew    : Option (BitVec 64) := none   -- armed by PRF_PART_STEP_HI (R152)
  stepLo     : Word := 0
  started    : Tick := 0                    -- release tick T of the step
  budgetOver : Bool := false                -- the budget end has been reached (R109)
  endLocal   : Option Tick := none          -- tick of local arrival (R108)
  arrival    : Option Tick := none          -- the package's arrival tick (R109)
  arriveSent : Bool := false
  children   : List ChildArr := []
  flags      : BitVec 8 := 0                -- STRETCHED, TAINT, POISON, FENCE gathered for ARRIVE (R122)
  domFlags   : BitVec 8 := 0                -- flags merged over the domain
  lateSent   : Bool := false                -- the root's HOLD LATE for this proof (R131)
  heldDone   : Bool := true                 -- the held proof is complete
  breakDue   : Bool := false                -- BREAK received while RUNNING or after RELEASE (R110, R150)
  hostHold   : Bool := false                -- PRF_PART_CTRL.HOLD (R152)
  holdNext   : Bool := false                -- a hold asked after RELEASE, for the next proof (R150)
  remeasure  : Bool := false                -- PRF_PART_CTRL.REMEASURE (R126)
  treeNew    : Bool := true                 -- the tree changed since D was measured (R126)
  regroup    : Bool := false                -- BROKEN, and the host driver has rewritten the tree since (R110)
  margin     : Nat := 0                     -- M
  latency    : Nat := 0                     -- D
  ready      : Option Tick := none          -- own ready tick of a distributed release (R135)
  readySent  : Bool := false
  armed      : Option ReleaseArm := none
  seen       : List (Nat × Token) := []     -- tokens already acted on, by proof port (R124)
  fresh      : Bool := true                 -- no step has run since a full image load (R105)
  heard      : BitVec 8 := 0                -- ports on which a token arrived in this proof (R133)
  silent     : BitVec 8 := 0                -- PRF_PART_PORTS
  stretchN   : Word := 0                    -- PRF_PART_STRETCH_COUNT
  stretchMax : Word := 0                    -- PRF_PART_STRETCH_MAX
  stretch    : Nat := 0                     -- stretch of the step's proof
  holds      : BitVec 7 := 0                -- every hold reason that applied (R144)
  imgStarter : Option Starter := none
  runStarter : Option Starter := none       -- armed by PRF_PART_STREAM (R142)
  starter    : Option Starter := none       -- in use
  seedLo     : Word := 0
  seedHi     : Word := 0
  auditHead  : Word := 0
  digest     : Option (BitVec 64) := none   -- CRC-64 of the step (R143)
  auditAt    : Nat := 0                     -- bytes of the audited buffer that the CRC holds
  auditCrc   : BitVec 64 := 0               -- the CRC of those bytes
  auditReq   : Option Nat := none           -- the audit's open read
  benchPct   : Nat := 0
  benchFrom  : Option Tick := none          -- the bench load's ramp began here (R137)
  fetches    : Tab Nat := []                -- fetch slots of the step that have ended, by VI (R107, R108)
  fault      : Bool := false                -- a HOLD_PARTITION escalation applies (R110)
  revived    : Bool := false                -- next release follows a STOPPED state (R381)
  deriving DecidableEq, Repr

/-! ### The fabric (R154 to R203) -/

/-- A 512-bit value with its poison mark (R183). -/
structure Vec where
  bits   : Line := 0
  poison : Bool := false
  deriving DecidableEq, Repr

/-- One expected return of a GET or GATHER (R172): its element requests and what has arrived. -/
structure Ret where
  tags : List (Nat × Option Vec)     -- request tag, and its data once it came
  size : Nat                         -- element size in bytes
  poison : Bool := false             -- the addresses came from a poisoned operand (R183)
  deriving DecidableEq, Repr

/-- Architectural state of one logical cell (R154 to R161). A configuration slot is its 2 KiB image (R162).
[DESIGN CHOICE, log entry 4] -/
structure Cell where
  v       : Tab Vec := []              -- V0 to V31
  acc     : Tab Vec := []              -- A0 to A3
  ls      : Tab Vec := []              -- 512 local-store lines
  slots   : Tab (BitVec 16384) := []
  pc      : Nat := 0
  done    : Bool := true               -- END issued, or the last micro-operation issued (R174)
  b       : Tab Dva := []              -- address pointers B0 to B3
  lp      : Tab (BitVec 9) := []       -- line pointers LP0, LP1
  waitThr : Word := 0
  loops   : Tab (Option Nat) := []     -- the two loop counters, none = idle
  draw    : Tab Word := []             -- draw index of each lane (R140)
  inN     : List Vec := []             -- switchbox input FIFOs, oldest first (4 entries)
  inE     : List Vec := []
  inS     : List Vec := []
  inW     : List Vec := []
  rets    : List Ret := []             -- outstanding GET and GATHER, oldest first
  writes  : Nat := 0                   -- write acknowledgements not yet arrived
  sync    : Option Nat := none         -- tag of an issued SYNC that waits
  killed  : Bool := false              -- ended at once by an escalation (R196)
  slotBad : BitVec 8 := 0              -- slots struck by an uncorrectable error since they were written (R195)
  deriving DecidableEq, Repr

/-- What is armed on a column for its partition's next proof (R199). -/
inductive ColArm where
  | none | fence | remap (row : Nat)
  deriving DecidableEq, Repr

/-- A quadrant column (R156, R190, R202). -/
structure Column where
  owner   : Option Nat := none
  slot    : Nat := 0
  fenced  : Bool := false
  spare   : Bool := false               -- the spare holds a logical cell
  spareBad : Bool := false              -- the spare itself is a bad cell
  bypass  : Nat := 0
  arm     : ColArm := .none
  busy    : Word := 0
  waitc   : Word := 0
  deriving DecidableEq, Repr

/-- A fabric quadrant (R201). -/
structure Quadrant where
  powered  : Bool := false
  ce       : Word := 0
  fCell    : Nat := 0
  fSlot    : Nat := 0
  fCount   : BitVec 16 := 0
  deriving DecidableEq, Repr

/-- The arithmetic fabric. One FCLK code serves all four quadrants (R18). -/
structure Fabric where
  cells    : Tab Cell := []
  cols     : Tab Column := []
  quads    : Tab Quadrant := []
  fclk     : Nat := 0
  fclkNext : Option Nat := none          -- a change due at the next proof (R188, R675)
  deriving DecidableEq, Repr

/-! ### Transfer engines and translation (R263 to R323) -/

/-- States of a transfer engine (R301). -/
inductive XRun where
  | idle | wait | run | faultWait | ending | fenced
  deriving DecidableEq, Repr

/-- Where a descriptor came from: a step record's pool entry, or a command record of a VI. -/
inductive XSource where
  | pool (part pool index : Nat)
  | command (vi tag : Nat) (pool index : Nat)
  | fw (what : Nat)
  deriving DecidableEq, Repr

/-- A descriptor passed to an engine: the 64 B base and, with EXT, its extension (R284, R285). -/
structure XDesc where
  src  : XSource
  base : BitVec 512
  ext  : BitVec 512
  seq  : Nat := 0                       -- place in the order of delivery (R604)
  deriving DecidableEq, Repr

/-- An issued write of a transfer: its request tag, the first and last 64 KiB segment in which its bytes lie (R313), and the
element of its first byte. -/
structure XWrite where
  tag  : Nat
  seg  : Nat
  seg2 : Nat
  elem : Nat
  deriving DecidableEq, Repr

/-- A run of elements of a transfer between its reads and its acknowledged writes: its first element in issue order,
how many there are, the requests of its reads in address order with the data returned, and the open writes. -/
structure XUnit where
  start  : Nat
  count  : Nat
  reads  : List (Nat × Option (List Byte))
  poison : Bool := false
  wrote  : Bool := false                -- its writes have been issued
  writes : List XWrite := []
  deriving DecidableEq, Repr

/-- The descriptor an engine is running. Elements are numbered in issue order. -/
structure XCur where
  desc     : XDesc
  next     : Nat := 0                   -- next element to read
  units    : List XUnit := []           -- runs in flight, oldest first
  acked    : Nat := 0                   -- elements before this one are delivered
  rows     : Nat := 0                   -- element rows counted
  poison   : Bool := false
  failed   : List Nat := []             -- failed 64 KiB segments (R313), rising
  firstBad : Option Nat := none         -- first element whose write was refused
  resumed  : Bool := false
  cut      : Option Nat := none         -- nothing from this element on is issued
  endAs    : Option Status := none      -- the status it is ending with
  drawBase : Nat := 0                   -- draw index of its first output line (R223)
  drain    : List Nat := []             -- reads still open whose data is not used
  fetch    : List (Nat × Option (List Byte)) := []  -- reads of the sealed record that is fetched
  fetchBad : Bool := false              -- one of them came poisoned
  buf      : List Byte := []            -- plaintext of the sealed record in hand
  bufAt    : Nat := 0                   -- element of its first byte
  recNo    : Nat := 0                   -- sealed records passed
  compLost : Bool := false              -- its completion record cannot be translated
  deriving DecidableEq, Repr

/-- A transfer engine (R295 to R304, R318, R319). -/
structure Xfe where
  run       : XRun := .idle
  owner     : Option Nat := none
  queue     : List XDesc := []
  cur       : Option XCur := none
  progress  : Word := 0
  lastStat  : Status := .ok
  lastFlags : BitVec 8 := 0
  lastDesc  : BitVec 16 := 0
  cursor    : List Nat := [0, 0, 0, 0, 0, 0]
  failedN   : Word := 0
  taken     : BitVec 16 := 0
  unresolved : BitVec 16 := 0
  faultDva  : BitVec 64 := 0
  faultIova : BitVec 64 := 0
  bytes     : BitVec 64 := 0
  draw      : Nat := 0                  -- output lines of the step so far (R223)
  pageReq   : Bool := false             -- a Page Request of this engine is outstanding (R307)
  pageWait  : Bool := false             -- a page fault waits for room in the allocation (R308)
  ringVi    : Option Nat := none        -- the VI whose ring access waits for the page (R578)
  fencePend : Bool := false
  readmPend : Bool := false
  deriving DecidableEq, Repr

/-- An entry of a translation buffer (R273, R275): one page of a context. A device page maps a DVA, a page that came from ATS
an IOVA. -/
structure XlEntry where
  host : Bool
  ctx  : Nat
  base : Nat
  size : Nat
  goal : Nat
  r    : Bool
  w    : Bool
  deriving DecidableEq, Repr

/-- An ATS invalidation in progress (R309 to R311): the range and the request tags still to complete. -/
structure Inval where
  itag  : Nat
  iova  : Nat
  size  : Nat
  since : Tick
  waits : List Nat
  deriving DecidableEq, Repr

/-- A host window commit that waits for the entry's requests (R312). -/
structure HwtPend where
  index : Nat
  entry : BitVec 256
  waits : List Nat
  deriving DecidableEq, Repr

/-- A page that MAP_DEVICE has mapped (R761): its context and DVA, its PAGE code, where it lies and its permissions. Firmware
keeps the list to rebuild the page tables (R73) and to check an UNMAP. -/
structure DevMap where
  ctx  : Nat
  dva  : Nat
  page : Nat
  pa   : Nat
  r    : Bool
  w    : Bool
  deriving DecidableEq, Repr

/-- Translation state (R266 to R277, R321). `roots` are the device page-table roots of the contexts, on firmware's
private path (R272). -/
structure Xlt where
  hwt        : Tab (BitVec 256) := []
  pend       : Option HwtPend := none
  atsEn      : Bool := false
  priEn      : Bool := false
  priStopped : Bool := false
  priAlloc   : BitVec 16 := 0
  bufs       : Tab (List XlEntry) := []    -- the units' buffers by port (R364), oldest entry first
  l2         : Tab (List XlEntry) := []    -- the second level by set, oldest entry first
  atsWait    : List (Nat × Nat × Nat) := []  -- ATS requests open: engine, context and IOVA page
  invals     : List Inval := []
  invCount   : Word := 0
  invMax     : Word := 0
  l2Hits     : Word := 0
  l2Misses   : Word := 0
  prqCount   : Word := 0
  order      : Nat := 0                    -- descriptors delivered so far (the model's own counter, for R604)
  roots      : Tab (Option Pa) := []
  maps       : List DevMap := []           -- pages mapped, in the order of mapping
  ptGrans    : List (Nat × Nat) := []      -- granules of page tables: partition and granule (R346)
  ptUsed     : List Nat := []              -- addresses of the 4 KiB tables in use
  deriving DecidableEq, Repr

/-! ### Device memory (R324 to R363) -/

/-- An entry of the region-ownership table (R344). [DESIGN CHOICE, log entry 4] -/
structure Granule where
  owner    : Nat := 0
  partWide : Bool := false
  fenced   : Bool := false
  zeroed   : Bool := true
  deriving DecidableEq, Repr

/-- A staging SRAM bank (R327, R360). -/
structure Bank where
  owner     : Option Nat := none
  fenced    : Bool := false
  zeroing   : Bool := false
  test      : Bool := false             -- re-admitted, and its start-up test has not ended (R358)
  spares    : Nat := 16
  ce        : Word := 0
  fencePend : Bool := false
  readmPend : Bool := false
  deriving DecidableEq, Repr

/-- An HBM channel (R362). -/
structure Chan where
  owner     : Option Nat := none
  fenced    : Bool := false
  zeroing   : Bool := false
  trained   : Bool := false
  ce        : BitVec 16 := 0
  ue        : BitVec 16 := 0
  soft      : BitVec 16 := 0
  hard      : BitVec 16 := 0
  fencePend : Bool := false
  readmPend : Bool := false
  deriving DecidableEq, Repr

/-- A stack position (R362). TEMP is in 0.25 °C units; REFI_SCALE 256 is shown as 0 (R352). -/
structure Stack where
  fitted  : Bool := false
  powered : Bool := false
  fenced  : Bool := false
  temp    : Int := 0
  refi    : Nat := 256
  onWait  : List Nat := []               -- partitions whose proof the switch-on of its domains still waits for (R24)
  deriving DecidableEq, Repr

/-- A row whose repair is due at its owner's local arrival (R354): a physical address in the row. -/
structure RowDue where
  pa   : Nat
  part : Option Nat
  deriving DecidableEq, Repr

/-- Device memory: bytes and poison marks by device physical address (poison by 64 B line number), the ownership
table (SRAM granule b × 80 + g, then 5,120 + m × 32,768 + ch × 1,024 + g), banks, channels, stacks, coherent windows.
[DESIGN CHOICE, log entry 5] -/
structure Mem where
  bytes   : Tab Byte := []
  poison  : Tab Bool := []
  own     : Tab Granule := []
  banks   : Tab Bank := []
  chans   : Tab Chan := []
  stackTab : Tab Stack := (List.range 6).map (fun m => (m, { fitted := true }))   -- the -6H ordering code (R3)
  ppr     : Tab Nat := []                -- soft PPR resources used, by bank of a pseudo-channel and SID (R819)
  hppr    : Tab Nat := []                -- hard PPR fuses burnt, by the same
  due     : List RowDue := []            -- rows that failed and wait for repair
  toZero  : List Nat := []               -- granules whose zeroing has not ended (R349, R605)
  leaving : List Nat := []               -- granules whose release waits until no occupant caches them (R359)
  deriving DecidableEq, Repr

/-! ### The NoC and its regulation (R364 to R398) -/

/-- What a request's response is for: a cell's write, a cell's read, a read or write of a unit of a transfer, a ring
read of a virtual interface, an occupant's request by tag and opcode. -/
inductive ReqUse where
  | plain
  | get (cell : Nat)
  | xread (engine unit : Nat)
  | xwrite (engine unit : Nat)
  | posted (engine : Nat)
  | ring (vi : Nat)
  | site (site tag op : Nat)
  | audit (part : Nat)
  | cread (unit : Nat)
  | cwrite (unit : Nat)
  deriving DecidableEq, Repr

/-- A request of an initiator, from its issue to its response (R368, R372). -/
structure Req where
  tag    : Nat
  who    : Initiator
  write  : Bool
  host   : Bool                          -- it leaves through the host endpoint (port 163)
  addr   : Nat                           -- device physical address, or IOVA
  len    : Nat
  ctx    : Nat
  part   : Nat
  sched  : Bool
  step   : Word := 0                     -- step number of scheduled traffic (R368)
  data   : List Byte := []
  poison : Bool := false
  inject : Tick := 0
  use    : ReqUse := .plain
  hwt    : Option Nat := none            -- host window entry used
  iova   : Nat := 0
  dead   : Bool := false                 -- abandoned by an invalidation (R309)
  held   : Bool := false                 -- waits for tokens at its port (R382)
  gone   : Bool := false                 -- reached its target, or was discarded
  be     : Option Nat := none            -- byte enables of a partial write
  lines  : List (Nat × Nat) := []        -- pieces still to serve at the target: address and length
  acc    : List Byte := []               -- data served so far
  accBad : Bool := false
  denied : Bool := false
  resp   : Option (List Byte × Bool × Bool) := none  -- data, poison, refused: arrived, waiting for earlier ones
  deriving DecidableEq, Repr

/-- A response on its way back to its initiator: the request's tag, the data read, POISON, and whether the target
refused the request (R369). -/
structure Resp where
  tag     : Nat
  data    : List Byte
  poison  : Bool
  refused : Bool
  deriving DecidableEq, Repr

/-- A flit in a buffer slice: its packet, the sideband without its code (R367), the payload, and the cycle of its arrival. -/
structure Flit where
  pkt     : Nat
  side    : BitVec 16
  payload : Line
  since   : Nat
  deriving DecidableEq, Repr

/-- A packet between its presentation and its delivery (R368): the request it carries or answers, its virtual network and
channel, its flits' payloads, how many have been sent and have arrived, and the router input that it reached last. -/
structure Packet where
  id     : Nat
  req    : Nat
  resp   : Bool
  vn     : Nat
  vc     : Nat
  part   : Nat
  src    : Nat
  dst    : Nat
  inject : Tick
  lines  : List Line
  poison : Bool := false                 -- its data flits carry POISON
  sent   : Nat := 0
  got    : Nat := 0
  at_    : Nat := 0                      -- router × 8 + input
  deriving DecidableEq, Repr

/-- The network between the ports (R365, R374, R375, R378): wiring, packets, buffers by slice, the flits that a sender counts
in a slice, credits on their way back, the packet that a slice is given to, and the cycle that the wheels count. -/
structure Net where
  wires  : Tab NocEnd := Config.nocWires -- by router × 8 + output
  attach : Tab (Option Nat) := Config.nocAttach  -- router × 8 + input that a port sends into
  pkts   : List Packet := []
  nextId : Nat := 0
  bufs   : Tab (List Flit) := []
  spent  : Tab Nat := []
  back   : List Nat := []
  taken  : Tab (Option Nat) := []
  cycle  : Nat := 0
  deriving DecidableEq, Repr

/-- Per port and partition: regulation values, bucket and counters (R381 to R393). -/
structure QosPort where
  regRate  : Nat := 64
  burst    : Nat := 16
  basePrio : Nat := 3
  target   : Nat := 0
  rsvRate  : Nat := 0
  rqRead   : Nat := 12
  rqWrite  : Nat := 6
  rsvBound : Nat := 0
  rsvDue   : Nat := 0                    -- 1/256 flit: from here on a scheduled flit may enter (R380)
  hasRec   : Bool := false
  tokens   : Nat := 2048                 -- 1/128 flit; a full bucket of BURST 16
  filled   : Tick := 0                   -- tick up to which `tokens` counts
  next     : Option (Nat × Nat × Nat × Nat × Nat × Nat) := none  -- registers written while running (R394)
  rdBytes  : BitVec 64 := 0
  wrBytes  : BitVec 64 := 0
  reqs     : BitVec 64 := 0
  latSum   : BitVec 64 := 0
  latMax   : BitVec 64 := 0
  heldSum  : BitVec 64 := 0
  misses   : BitVec 64 := 0
  missRc   : Word := 0
  deriving DecidableEq, Repr

/-- Per partition: the partition-wide values of R391 and the miss window (R385). -/
structure QosPart where
  isolated : Bool := true
  tagsMin  : Nat := 0
  tagsMax  : Nat := 0
  thresh   : Nat := 0
  window   : Nat := 10
  threshNx : Option (Nat × Nat) := none
  missNow  : Nat := 0
  deriving DecidableEq, Repr

/-- The NoC: requests in flight in issue order, the network, routes, counters of R395, and the QoS state. -/
structure Noc where
  net      : Net := {}
  reqs     : List Req := []
  resps    : List Resp := []
  nextTag  : Nat := 0
  routes   : Tab (Option Rec) := []      -- route record in force per router (R389)
  vroutes  : List Rec := []              -- partition route records of active variants (R390)
  routesOk : Bool := false
  segsUp   : BitVec 3 := 0
  flitCe   : Word := 0
  drops    : Word := 0
  timeouts : Word := 0
  lastDrop : Word := 0
  qports   : Tab QosPort := []           -- port × 64 + partition
  qparts   : Tab QosPart := []
  shown    : Tab Nat := []               -- QOS_PORT_PART
  missPart : BitVec 64 := 0              -- QOS_MISS_PART_LO and _HI
  deriving DecidableEq, Repr

/-! ### Sites (R399 to R444) and what the Gelja and CXL links hold -/

/-- Admission states (R406, R442). -/
inductive SState where
  | off | rails | link | negotiate | attest | config | ready | admitted | retrain | fenced
  deriving DecidableEq, Repr

/-- Fence reasons of a site (R442). -/
inductive SReason where
  | none | host | rail | strap | absent | link | classR | attest | crust | fault
  deriving DecidableEq, Repr

/-- Result of an attestation (R418, R442). -/
inductive AttestRes where
  | none | attested | unattested | failed
  deriving DecidableEq, Repr

/-- A request of the hub into an occupant's memory, waiting for RD_DATA, CMP or a CXL.mem response (R457, R461, R489). -/
structure SiteOut where
  tag  : Nat
  req  : Nat                              -- NoC request tag
  rd   : Bool
  deriving DecidableEq, Repr

/-- A site: admission, link, crust, proof wires, message credits. [DESIGN CHOICE, log entry 4] -/
structure Site where
  state     : SState := .off
  reason    : SReason := .none
  owner     : Option Nat := none
  cls       : Nat := 0                    -- class of the running image's site record
  found     : Nat := 0                    -- CLASS_FOUND
  upper     : Bool := false
  double    : Bool := false
  cfg       : List Byte := []             -- the site record's body (R422)
  modules   : Nat := 0
  repaired  : Nat := 0
  amps      : Nat := 0
  watts     : Nat := 0
  vset      : Nat := 0
  vpend     : Option Nat := none          -- applied at the owner's next proof (R412)
  strapT    : BitVec 6 := 0
  strapC    : BitVec 6 := 0
  strapOk   : Bool := false
  auxOn     : Bool := false
  attestRes : AttestRes := .none
  chainDig  : BitVec 384 := 0
  measDig   : BitVec 384 := 0
  idOk      : Bool := false
  sideband  : Bool := false
  crustN    : Word := 0
  crustLast : Word := 0
  crustDva  : BitVec 64 := 0
  crustWin  : List Tick := []             -- ticks of violations within the last 1 ms (R429)
  retrains  : Word := 0
  energy    : BitVec 64 := 0
  fencePend : Option SReason := none
  offPend   : Bool := false               -- its domains switch off at the owner's next proof (R438, R484)
  readmPend : Bool := false
  paused    : Bool := false               -- admission paused for a peel (R440)
  arrived   : Bool := false               -- ARRIVE_IN toggled for this step (R120)
  arriveOut : Bool := false
  relOut    : Bool := false               -- level of RELEASE_OUT
  relAck    : Bool := true                -- RELEASE_IN answered the last edge
  credits   : Tab Nat := []               -- credits the hub holds towards the occupant, by class
  errTicks  : List Tick := []             -- protocol errors of the last second (R456)
  outs      : List SiteOut := []
  nextOut   : Nat := 0
  tags      : List (Nat × Nat)  := []     -- the occupant's open requests: tag and opcode
  flushing  : Bool := false               -- caching site being flushed (R484)
  goWait    : List (Nat × Nat) := []      -- CXL grants whose GO is not yet acknowledged (R488): tag and line
  configDone : Bool := false              -- CONFIG_DONE sent (R455)
  caching   : Bool := false               -- IDENTITY.CACHING
  offersMem : Bool := false               -- IDENTITY.OFFERS_MEM
  maxTags   : Nat := 0                    -- IDENTITY.MAX_TAGS
  memSize   : Nat := 0                    -- IDENTITY.MEM_SIZE
  snoops    : List (Nat × Nat) := []      -- open snoops: tag and line (R453)
  newOwner  : Bool := false               -- given to another partition by a full image and not yet released (R431)
  snpQ      : List (Nat × Nat) := []      -- snoops that wait for a credit or for the end of a retraining (R490)
  startPend : Bool := false               -- its site domain switches on at the owner's next proof (R24, R406)
  strapIn   : Bool := false               -- its strap lines have been sampled for this admission (R404)
  flushOdd  : Bool := false               -- its flush also holds the site domain of the odd site beside it (R484)
  offAt     : Option Tick := none         -- tick at which its site domain was last switched off (R410)
  owedReq   : Nat := 0                    -- REQ credits whose return is withheld (R382, R437)
  owedDat   : Nat := 0                    -- request-data credits whose return is withheld
  slotsOut  : Nat := 0                    -- slots of the hub's messages that flits have carried (R446)
  deriving DecidableEq, Repr

end Sys2Proof.Machine
end

