-- ==== Sys2Proof/Machine/StateMgmt.lean ====
section
/-! DEFINITION. The state of power and thermal control, the fault groups, firmware and management: mailboxes, flash,
the start, the peel, the log ring and the trace buffer. Every default below is the reset value. -/
namespace Sys2Proof.Machine
open Sys2Proof

/-! ### Power and thermal (R657 to R694) -/

/-- SOURCE of `PWR_STATUS` (R666 to R668). -/
inductive PSource where
  | estimate | larger | guard
  deriving DecidableEq, Repr

/-- State of a power tile (R691). -/
inductive TileState where
  | off | on | fenced
  deriving DecidableEq, Repr

/-- SENSE of a tile's line (R668, R691). -/
inductive Sense where
  | good | opened | shorted
  deriving DecidableEq, Repr

/-- A power tile (R657, R691). -/
structure Tile where
  state : TileState := .on
  sense : Sense := .good
  inW   : Nat := 0
  outW  : Nat := 0
  temp  : Nat := 0
  deriving DecidableEq, Repr

/-- The power controller. Powers are in W; K is in units of 1/1,024 (R691: reset 0x44D); fractions are of 256.
`vin` is in 0.1 V. `fracs` holds, by limit × 4 + group, the fraction that a limit has set (R672, R673).
[DESIGN CHOICE, log entry 5] -/
structure Pwr where
  powered   : Bool := true                -- the tiles feed the bus and the hub runs
  pwrgd     : Bool := true
  latched   : Bool := false               -- the tiles are latched off (R659)
  tripRec   : Bool := false               -- the tiles' latched record of a trip (R660)
  inputLost : Bool := false               -- the tiles' latched record of an input loss (R741)
  overV     : Bool := false               -- the tiles stopped for an overvoltage (R714)
  vin       : Nat := 0                    -- V_in averaged over 1 ms, in 0.1 V; 0 until the first average
  amps8     : Nat := 0                    -- input current in 0.125 A units
  tiles     : Tab Tile := []
  source    : PSource := .estimate
  larger    : Bool := false               -- the pairs have moved the source to LARGER and not back (R666, R667)
  k         : Nat := 0x44D
  kHist     : List (Nat × Nat × Bool) := []  -- ten 1 ms pairs: P_meas, E + S, disagreed (R664)
  disN      : Nat := 0                    -- consecutive disagreeing pairs
  agreeN    : Nat := 0
  meas      : Nat := 0                    -- P_meas
  raw       : Nat := 0                    -- E + S
  ratio     : Nat × Nat := (1, 1)         -- R of R666, numerator and denominator
  used      : Nat := 0                    -- value used
  hubW      : Nat := 0
  hist      : List Nat := []              -- value used, newest first, one per microsecond, up to the longest window
  baseHist  : List Nat := []              -- base power of the last 10 ms, newest first (R678)
  avgActive : Bool := false
  reasons   : BitVec 10 := 0
  seen      : BitVec 10 := 0
  durs      : Tab Nat := []               -- throttle duration by reason, µs
  fracs     : Tab Nat := []
  shareFr   : Tab Nat := []               -- fraction that a partition's share set, by partition × 4 + group
  sitePl    : Tab Nat := []               -- fraction that PLIMIT set at a site (R677)
  budget    : Nat := 0                    -- PWR_RACK.BUDGET
  avail     : Nat := 0                    -- A of R678
  shares    : Tab Nat := []               -- PWR_PART_SHARE
  partW     : Tab Nat := []
  avgLimit  : Nat := 4800
  avgWindow : Nat := 10
  priority  : Nat := 0x24
  peak      : Nat := 104
  fclkMin   : Nat := 0
  fclkMax   : Nat := 48
  pacing    : Nat := 0
  energy    : Tab (BitVec 64) := []       -- energy totals by power domain, mJ
  domains   : BitVec 64 := 0x900F#64     -- bit n = PDn on; PD0 to PD3, PD12 and PD15 are always on (R21)
  stretch   : BitVec 16 := 0              -- islands whose clock is stretched (R670)
  drooped   : Bool := false               -- a stretch began since the last microsecond's tick
  throtN    : Bool := false               -- THROT_N held low, past the filter (R785)
  refW      : Bool := true                -- REFCLK_SD_W present (R795)
  refE      : Bool := true
  noShare   : Bool := false               -- share enforcement suspended (R690)
  hotTick   : Option Tick := none         -- last tick with PEAK_CURRENT or INPUT_VOLTAGE active (R767)
  telSum    : Tab Nat := []               -- a partition's share values summed since the last 100 ms boundary (R616)
  telN      : Nat := 0                    -- how many were summed
  telAt     : Nat := 0                    -- the 100 ms period they fall into
  tel       : Tab Nat := []               -- averages of the last whole 100 ms period
  energyQ   : Tab (BitVec 64) := []       -- energy totals at the last 100 ms boundary
  deriving DecidableEq, Repr

/-- Thermal levels (R682, R693). -/
inductive Level where
  | normal | caution | critical | trip
  deriving DecidableEq, Repr

/-- A thermal region (R682 to R684): which of CAUTION, CRITICAL and TRIP it has entered and not left, since when every
sensor has been 3 °C below each threshold, the thermal fraction and the tick up to which it counts. -/
structure Region where
  c1     : Bool := false
  c2     : Bool := false
  c3     : Bool := false
  b1     : Option Tick := none
  b2     : Option Tick := none
  b3     : Option Tick := none
  frac   : Nat := 0
  fracAt : Tick := 0
  deriving DecidableEq, Repr

/-- A sensor's reading in 0.25 °C units and whether it is out of range (R683). -/
structure Sensor where
  q      : Int := 0
  failed : Bool := false
  deriving DecidableEq, Repr

/-- The thermal block (R682 to R694). -/
structure Thm where
  regions  : Tab Region := []
  sensors  : Tab Sensor := []
  cHub     : Nat := 95
  cSite    : Nat := 95
  cHbm     : Nat := 85
  trips    : List Nat := []                -- regions that tripped and have not yet left CAUTION (R686)
  tripReg  : Nat := 0
  tripSens : Nat := 0
  deriving DecidableEq, Repr

/-! ### Fault groups (R695 to R718, R805 to R807) -/

/-- ACTION of a fault group (R696). -/
inductive FAction where
  | log | fenceUnit | holdPartition | stopPackage
  deriving DecidableEq, Repr

/-- A fault group (R52, R696 to R699). -/
structure FGroup where
  status  : Word := 0
  mask    : Word := 0
  inject  : Word := 0
  grace   : Nat := 0x3E8                  -- µs
  action  : FAction := .log
  unacked : Word := 0                     -- faults detected and not acknowledged
  timer   : Bool := false                 -- the grace timer runs
  started : Tick := 0
  units   : List (Nat × Nat) := []        -- status bit and unit of the faults not acknowledged
  unitReg : BitVec 64 := 0                -- the block's unit register at 0xF018 (R320, R444, R534, R537, R582)
  answer  : Word := 0                     -- status bits set at the stop and not yet answered (R708)
  deriving DecidableEq, Repr

/-- The FLT block, the ERR_N pin and the groups. -/
structure Flt where
  groups    : Tab FGroup := []
  stopped   : Bool := false
  heartbeat : Bool := false               -- FLT_STATUS.MODE
  pin       : Bool := false               -- FLT_STATUS.PIN: true = released; ERR_N is held low at a reset (R786)
  modeRead  : Bool := false
  thresh    : Nat := 4
  cause     : Nat := 0
  causeGrp  : Nat := 0
  causeBit  : Nat := 0
  escal     : Word := 0
  deriving DecidableEq, Repr

/-! ### Registers common to all blocks -/

/-- A wide-value mailbox (R49 to R51, R804). -/
structure Mbx where
  sel   : Word := 0
  busy  : Bool := false                   -- a capture is in progress
  valid : Bool := false
  err   : Bool := false
  seq   : BitVec 8 := 0
  data  : BitVec 128 := 0
  deriving DecidableEq, Repr

/-- An indirect pair's address register (R44). -/
structure Ind where
  autoInc : Bool := false
  err     : Bool := false
  addr    : BitVec 30 := 0
  deriving DecidableEq, Repr

/-! ### Firmware, flash, start and peel (R719 to R781) -/

/-- Stages of the start as `MGT_STATUS.STAGE` shows them (R778). -/
inductive Stage where
  | rom | s1 | s2 | s3 | s4 | s5 | complete | flatbread
  deriving DecidableEq, Repr

/-- Firmware slots: A, B, the recovery slot, a recovery load (R750, R778). -/
inductive FwSlot where
  | a | b | recovery | load
  deriving DecidableEq, Repr

/-- A firmware image: the header fields of R751 and its bytes. -/
structure FwImage where
  version : Word := 0
  svn     : Nat := 0
  recMin  : Nat := 0
  recMax  : Nat := 0
  bytes   : List Byte := []
  deriving DecidableEq, Repr

/-- State of a peel (R762, R778). -/
inductive Peel where
  | none | staged | deferred | handover | jumped
  deriving DecidableEq, Repr

/-- The start record in flash (R740). -/
structure StartRec where
  pending : Bool := false
  failed  : Nat := 0
  last    : Nat := 0
  deriving DecidableEq, Repr

/-- The last-good test record (R722, R726, R735). -/
structure GoodRec where
  serial   : BitVec 64
  stackTab : BitVec 6
  version  : Word
  defects  : Nat
  findings : List (BitVec 32 × Nat)       -- unit as DATA of R730, consecutive finds
  deriving DecidableEq, Repr

/-- Flash contents (R750). [DESIGN CHOICE, log entry 5] -/
structure Flash where
  present  : Bool := true
  active   : Nat := 0                     -- directory: 0 = slot A, 1 = slot B
  trial    : Option Nat := none
  slotA    : Option FwImage := none
  slotB    : Option FwImage := none
  recov    : Option FwImage := none
  chain    : List Byte := []
  start    : StartRec := {}
  good     : Option GoodRec := none
  boot     : List Byte := []
  user     : List Byte := []
  deriving DecidableEq, Repr

/-- What a flash write in progress is for (R755, R811, R636). -/
inductive FlashOp where
  | none | slot (target : Nat) (img : FwImage) (trial mail : Bool) | boot (bytes : List Byte) | erase
  deriving DecidableEq, Repr

/-- A PLDM request: its kind, its number and what it carries. -/
structure PldmReq where
  kind  : Nat
  arg   : Nat := 0
  flag  : Bool := false
  bytes : List Byte := []
  deriving DecidableEq, Repr

/-- An entry of the log ring (R773): TICK, SOURCE, SEVERITY, CODE and the four argument words. -/
structure LogEntry where
  tick  : Tick
  seq   : Word
  src   : Nat
  sev   : Nat
  code  : BitVec 16
  arg0  : Word
  arg1  : Word
  arg2  : Word := 0
  arg3  : Word := 0
  deriving DecidableEq, Repr

/-- An entry of the trace buffer (R774). -/
structure TraceEntry where
  tick  : BitVec 48
  point : Nat
  part  : Option Nat
  data  : BitVec 64
  deriving DecidableEq, Repr

/-- The management island: mailbox, images, start, peel, watchdog, log ring and trace. -/
structure Mgt where
  stage     : Stage := .rom
  running   : FwSlot := .a
  onTrial   : Bool := false                -- this start runs the TRIAL slot (R755)
  fw        : FwImage := {}
  peel      : Peel := .none
  staged    : Option FwImage := none
  commitDue : Bool := false                -- the resumed image has still to be written to flash (R755)
  oldFw     : FwImage := {}
  oldRun    : FwSlot := .a
  unavailAt : Tick := 0
  jumpAt    : Tick := 0
  deferAt   : Option Tick := none
  emergAt   : Option Tick := none          -- last tick at which an emergency was seen
  handRec   : List Byte := []              -- the handover record in the data region (R766)
  wdtPeriod : Nat := 1000
  wdtExp    : BitVec 16 := 0
  halted    : Bool := false
  busy      : Bool := false
  unavail   : Bool := false
  done      : Bool := false
  mbStatus  : Status := .ok
  mbTag     : BitVec 8 := 0
  curTag    : BitVec 8 := 0
  args      : Tab Word := []
  resp      : Tab Word := []
  rcvOn     : Bool := false                -- a recovery load has begun
  rcv       : List Byte := []              -- management SRAM of the recovery load
  coldReq   : Bool := false
  flash     : Flash := {}
  flashOp   : FlashOp := .none
  log       : Tab (Option LogEntry) := []
  logHead   : Nat := 0
  logSeq    : Word := 0
  pldmQ     : List PldmReq := []           -- PLDM requests that wait for the resumed image (R763)
  flatReason : Nat := 0                    -- FLAT_REASON (R744)
  rcvRun    : Bool := false                -- a verified recovery image runs the start that follows (R748)
  stopStart : Bool := false                -- a debug session with HUB_SCAN has stopped the start (R749)
  pldmImg   : Option FwImage := none
  pldmTo    : Nat := 0
  findings  : List (BitVec 32 × Nat) := []
  linkTests : List Nat := []               -- sites whose training has judged their findings in this start (R413, R735)
  deriving DecidableEq, Repr

/-- The trace block (R774, R780). -/
structure Trc where
  run      : Bool := false
  stopFull : Bool := false
  trigger  : Nat := 0
  trigEn   : Bool := false
  head     : Nat := 0
  wrapped  : Bool := false
  enable   : BitVec 256 := 0
  entries  : Tab (Option TraceEntry) := []
  deriving DecidableEq, Repr

end Sys2Proof.Machine
end

