-- ==== Sys2Proof/Syntax.lean ====
section
/-! DEFINITION. The commands of the LVH48 hub, one constructor per row of the table of operations and events. -/
namespace Sys2Proof

/-- A command: an access of a party, a message, token or packet that arrives, a pin or supply event, or the end of a
time that the manual bounds. The operands are what comes from outside the hub. -/
inductive Instr where
  /-- REG_WRITE (R34). -/
  | regWrite (path : RegPath) (addr : Nat) (val : BitVec 64) (be : BitVec 8) (wide : Bool)
  /-- REG_READ_CLEAR (R34). -/
  | regReadClear (path : ReadPath) (addr : Nat)
  /-- IND_DATA_ACCESS (R45). -/
  | indDataAccess (who : Owner2) (write : Bool) (val : Word)
  /-- MBX_SELECT_WRITE (R50). -/
  | mbxSelectWrite (who : Owner2) (mbx : MbxId) (sel : Word)
  /-- MBX_CAPTURE_DONE (R50). -/
  | mbxCaptureDone (who : Owner2) (mbx : MbxId)
  /-- REG_READ_TIMEOUT (R541). -/
  | regReadTimeout (addr : Nat)
  /-- MB_STATUS (R758). -/
  | mbStatus (tag : BitVec 8)
  /-- LOAD_IMAGE (R811). -/
  | loadImage (tag : BitVec 8)
  /-- IMAGE_FETCH_DONE (R85). -/
  | imageFetchDone (bytes : List Byte)
  /-- IMAGE_VALIDATION_DONE (R93). -/
  | imageValidationDone
  /-- FULL_IMAGE_ACTIVATE (R92). -/
  | fullImageActivate
  /-- PARTIAL_IMAGE_ACTIVATE (R96). -/
  | partialImageActivate (p : Fin 64)
  /-- READ_REPORT (R758). -/
  | readReport (tag : BitVec 8)
  /-- WRITE_BOOT_IMAGE (R811). -/
  | writeBootImage (tag : BitVec 8)
  /-- FW_UPDATE (R760). -/
  | fwUpdate (tag : BitVec 8) (bytes : List Byte)
  /-- PEEL_CANCEL (R758). -/
  | peelCancel (tag : BitVec 8)
  /-- ADVANCE_ROLLBACK (R753). -/
  | advanceRollback (tag : BitVec 8)
  /-- MAP_DEVICE (R761). -/
  | mapDevice (tag : BitVec 8)
  /-- UNMAP_DEVICE (R761). -/
  | unmapDevice (tag : BitVec 8)
  /-- RETRY_START (R745). -/
  | retryStart (tag : BitVec 8)
  /-- RECOVERY_LOAD_BEGIN (R746). -/
  | recoveryLoadBegin (tag : BitVec 8)
  /-- RECOVERY_LOAD_RUN (R747). -/
  | recoveryLoadRun (tag : BitVec 8)
  /-- RCV_DATA_WRITE (R758). -/
  | rcvDataWrite (val : Word)
  /-- REQUEST_COLD (R726). -/
  | requestCold (tag : BitVec 8)
  /-- OTP_PROGRAM (R633). -/
  | otpProgram (path : LcsPath) (tag : BitVec 8) (field : Nat) (value : List Byte) (burn : Burn)
  /-- MB_RESERVED_OPCODE (R758). -/
  | mbReservedOpcode (tag : BitVec 8) (opcode : BitVec 8)
  /-- STEP_RELEASE (R106). -/
  | stepRelease (p : Fin 64)
  /-- FETCH_SLOT (R565). -/
  | fetchSlot (v : Fin 1024)
  /-- BUDGET_END (R109). -/
  | budgetEnd (p : Fin 64)
  /-- LOCAL_ARRIVAL (R108). -/
  | localArrival (p : Fin 64)
  /-- LOCAL_RELEASE (R129). -/
  | localRelease (p : Fin 64)
  /-- ARRIVE_TOKEN (R125). -/
  | arriveToken (via : TokenVia) (t : Token)
  /-- RELEASE_TOKEN (R127). -/
  | releaseToken (via : TokenVia) (t : Token)
  /-- HOLD_TOKEN (R110). -/
  | holdToken (via : TokenVia) (t : Token)
  /-- BREAK_TOKEN (R132). -/
  | breakToken (via : TokenVia) (t : Token)
  /-- LATE_LIMIT_EXPIRY (R131). -/
  | lateLimitExpiry (p : Fin 64)
  /-- PROOF_TIMEOUT_EXPIRY (R132). -/
  | proofTimeoutExpiry (p : Fin 64)
  /-- READY_TIMEOUT (R135). -/
  | readyTimeout (p : Fin 64)
  /-- TIME_SYNC_TIMER (R114). -/
  | timeSyncTimer
  /-- TIME_REQ (R114). -/
  | timeReq (via : TokenVia) (t : Token)
  /-- TIME_RESP (R114). -/
  | timeResp (via : TokenVia) (t : Token)
  /-- TIME_PARENT_LOST (R118). -/
  | timeParentLost
  /-- PROOF_PORT_DOWN (R124). -/
  | proofPortDown (port : Fin 8)
  /-- SITE_ARRIVE_IN (R120). -/
  | siteArriveIn (n : Fin 18)
  /-- SITE_RELEASE_IN (R120). -/
  | siteReleaseIn (n : Fin 18)
  /-- SITE_ACK_TIMEOUT (R121). -/
  | siteAckTimeout (n : Fin 18)
  /-- PART_HOLD (R152). -/
  | partHold (p : Fin 64)
  /-- PART_RELEASE (R135). -/
  | partRelease (p : Fin 64)
  /-- PART_REMEASURE (R126). -/
  | partRemeasure (p : Fin 64)
  /-- STARTER_ARM (R142). -/
  | starterArm (p : Fin 64) (stream : Word)
  /-- STEP_COUNTER_ARM (R152). -/
  | stepCounterArm (p : Fin 64) (hi : Word)
  /-- NOP (R169). -/
  | uNop (c : Fin 2048)
  /-- END (R174). -/
  | uEnd (c : Fin 2048)
  /-- LOOP (R169). -/
  | uLoop (c : Fin 2048)
  /-- WAITP (R296). -/
  | uWaitp (c : Fin 2048)
  /-- SYNC (R169). -/
  | uSync (c : Fin 2048)
  /-- LD (R169). -/
  | uLd (c : Fin 2048) (ecc : Ecc)
  /-- ST (R169). -/
  | uSt (c : Fin 2048) (ecc : Ecc)
  /-- GET (R171). -/
  | uGet (c : Fin 2048)
  /-- PUT (R171). -/
  | uPut (c : Fin 2048)
  /-- LDC (R169). -/
  | uLdc (c : Fin 2048) (ecc : Ecc)
  /-- ADD (R233). -/
  | uAdd (c : Fin 2048)
  /-- SUB (R233). -/
  | uSub (c : Fin 2048)
  /-- MUL (R233). -/
  | uMul (c : Fin 2048)
  /-- FMA (R233). -/
  | uFma (c : Fin 2048)
  /-- MAX (R235). -/
  | uMax (c : Fin 2048)
  /-- MIN (R235). -/
  | uMin (c : Fin 2048)
  /-- SEL (R169). -/
  | uSel (c : Fin 2048)
  /-- DOT (R241). -/
  | uDot (c : Fin 2048)
  /-- CVT (R237). -/
  | uCvt (c : Fin 2048)
  /-- MXPACK (R210). -/
  | uMxpack (c : Fin 2048)
  /-- MXUNPACK (R217). -/
  | uMxunpack (c : Fin 2048)
  /-- SFU (R238). -/
  | uSfu (c : Fin 2048)
  /-- LSUM (R245). -/
  | uLsum (c : Fin 2048)
  /-- GMAX (R250). -/
  | uGmax (c : Fin 2048)
  /-- GQ (R252). -/
  | uGq (c : Fin 2048)
  /-- GADD (R253). -/
  | uGadd (c : Fin 2048)
  /-- GRND (R256). -/
  | uGrnd (c : Fin 2048)
  /-- GATHER (R169). -/
  | uGather (c : Fin 2048)
  /-- SCATTER (R169). -/
  | uScatter (c : Fin 2048)
  /-- SHUF (R169). -/
  | uShuf (c : Fin 2048)
  /-- CMUL (R236). -/
  | uCmul (c : Fin 2048)
  /-- RNG (R140). -/
  | uRng (c : Fin 2048)
  /-- CELL_FAULT (R195). -/
  | cellFault (c : Fin 2048) (what : CellPart)
  /-- FAB_COL_FENCE (R199). -/
  | fabColFence (k : Fin 128)
  /-- FAB_COL_REMAP (R199). -/
  | fabColRemap (k : Fin 128) (row : Fin 16)
  /-- CFG_BCAST (R184). -/
  | cfgBcast (q : Fin 4) (cols : BitVec 32) (rows : BitVec 16) (slot : Fin 8) (img : BitVec 16384)
  /-- XFE_DESC_ARRIVE (R301). -/
  | xfeDescArrive (e : Fin 64)
  /-- XFE_WAIT_SATISFIED (R296). -/
  | xfeWaitSatisfied (e : Fin 64)
  /-- XFE_COMPLETE (R304). -/
  | xfeComplete (e : Fin 64)
  /-- XFE_ABORT (R301). -/
  | xfeAbort (e : Fin 64)
  /-- XFE_FENCE (R317). -/
  | xfeFence (e : Fin 64)
  /-- XFE_READMIT (R318). -/
  | xfeReadmit (e : Fin 64)
  /-- ATS_TRANSLATION_COMPLETION (R275). -/
  | atsTranslationCompletion (e : Fin 64) (iova : BitVec 64) (size : Nat) (host : BitVec 64) (r w : Bool) (cpl : CplStat)
  /-- PRG_RESPONSE (R308). -/
  | prgResponse (e : Fin 64) (code : PrgCode)
  /-- FAULT_LIMIT_EXPIRY (R308). -/
  | faultLimitExpiry (e : Fin 64)
  /-- ATS_INVALIDATE (R309). -/
  | atsInvalidate (itag : Fin 32) (iova : BitVec 64) (size : Nat)
  /-- INVALIDATE_COMPLETION (R311). -/
  | invalidateCompletion (itag : Fin 32)
  /-- HOST_READ_COMPLETION (R277). -/
  | hostReadCompletion (tag : Nat) (cpl : CplStat) (data : List Byte) (poison : Bool)
  /-- HWT_COMMIT (R268). -/
  | hwtCommit (who : Owner2)
  /-- HWT_COMMIT_DRAINED (R312). -/
  | hwtCommitDrained
  /-- NOC_READ (R280). The check of the stored data is that of the byte at offset `off` of the request. -/
  | nocRead (tag off : Nat) (head : Ecc) (ecc : Ecc)
  /-- NOC_WRITE (R280). -/
  | nocWrite (tag : Nat) (head : Ecc) (flits : Ecc)
  /-- NOC_READ_DATA (R369). -/
  | nocReadData (tag : Nat) (head : Ecc) (flits : Ecc)
  /-- NOC_WRITE_ACK (R369). -/
  | nocWriteAck (tag : Nat) (head : Ecc)
  /-- NOC_REFUSE (R369). -/
  | nocRefuse (tag : Nat) (head : Ecc)
  /-- REG_READ (R369). -/
  | regRead (port : Nat) (tag : BitVec 12) (addr : Nat)
  /-- REG_RESP (R369). -/
  | regResp (port : Nat) (tag : BitVec 12) (val : Word)
  /-- FAULT_SIGNAL (R703). -/
  | faultSignal (g : Fin 29) (bit : Fin 32)
  /-- RESP_TIMEOUT (R394). -/
  | respTimeout (tag : Nat)
  /-- SLICE_STALL (R394). -/
  | sliceStall (router : Fin 96) (input : Fin 8)
  /-- QOS_MISS_WINDOW_EXPIRY (R385). -/
  | qosMissWindowExpiry (p : Fin 64)
  /-- HBM_SCRUB (R343). -/
  | hbmScrub (m : Fin 6) (found : List (Nat × Ecc))
  /-- SRAM_SCRUB (R343). -/
  | sramScrub (found : List (Nat × Ecc))
  /-- HBM_TEMP_SAMPLE (R352). -/
  | hbmTempSample (m : Fin 6) (quarters : Int)
  /-- HBM_RECALIBRATION (R739). -/
  | hbmRecalibration (m : Fin 6) (ch : Fin 32) (trained : Bool)
  /-- ZEROING_DONE (R349). -/
  | zeroingDone (unit : ZeroUnit) (ok : Bool)
  /-- ROW_REPAIR (R354). -/
  | rowRepair (pa : Nat) (badLines : List Nat)
  /-- SRM_BANK_FENCE (R356). -/
  | srmBankFence (b : Fin 64)
  /-- SRM_BANK_READMIT (R358). -/
  | srmBankReadmit (b : Fin 64)
  /-- MEM_CH_FENCE (R356). -/
  | memChFence (m : Fin 6) (ch : Fin 32)
  /-- MEM_CH_READMIT (R358). -/
  | memChReadmit (m : Fin 6) (ch : Fin 32)
  /-- COH_WIN_WRITE (R332). -/
  | cohWinWrite (w : Fin 16) (val : Word)
  /-- STACK_RAIL_SHORT (R715). -/
  | stackRailShort (m : Fin 6)
  /-- SITE_ADMISSION_START (R406). -/
  | siteAdmissionStart (n : Fin 18) (strapT strapC : BitVec 6)
  /-- SITE_CORE_REGULATED (R406). -/
  | siteCoreRegulated (n : Fin 18)
  /-- SITE_RAILS_TIMEOUT (R406). -/
  | siteRailsTimeout (n : Fin 18)
  /-- SIDEBAND_DETECTED (R406). -/
  | sidebandDetected (n : Fin 18) (cxlCompute : Option Bool)
  /-- SIDEBAND_TIMEOUT (R406). -/
  | sidebandTimeout (n : Fin 18)
  /-- SITE_TRAINING_DONE (R413). -/
  | siteTrainingDone (n : Fin 18) (modules : Nat) (repaired : List (Nat × Nat)) (disabled : List Nat) (bothHalves : Bool)
  /-- NEGOTIATE_TIMEOUT (R406). -/
  | negotiateTimeout (n : Fin 18)
  /-- ATTEST_COMPLETE (R418). -/
  | attestComplete (n : Fin 18) (a : AttestIn)
  /-- ATTEST_TIMEOUT (R406). -/
  | attestTimeout (n : Fin 18)
  /-- CRUST_LOADED (R464). -/
  | crustLoaded (n : Fin 18)
  /-- CONFIG_TIMEOUT (R406). -/
  | configTimeout (n : Fin 18)
  /-- SITE_LINK_ERROR (R437). -/
  | siteLinkError (n : Fin 18)
  /-- SITE_RETRAIN_DONE (R437). -/
  | siteRetrainDone (n : Fin 18) (modules : Nat) (repaired : List (Nat × Nat))
  /-- SITE_RETRAIN_TIMEOUT (R438). -/
  | siteRetrainTimeout (n : Fin 18)
  /-- SITE_RAIL_SHORT (R26). -/
  | siteRailShort (n : Fin 18)
  /-- SIT_FENCE (R406). -/
  | sitFence (n : Fin 18)
  /-- SIT_READMIT (R439). -/
  | sitReadmit (n : Fin 18)
  /-- SIT_RETRAIN (R406). -/
  | sitRetrain (n : Fin 18)
  /-- SIT_VSET_WRITE (R412). -/
  | sitVsetWrite (n : Fin 18) (val : Word)
  /-- RD_NC (R454). -/
  | rdNc (n : Fin 18) (m : GMsg)
  /-- WR (R454). -/
  | wr (n : Fin 18) (m : GMsg)
  /-- RD_DATA (R457). -/
  | rdData (n : Fin 18) (m : GMsg)
  /-- CMP (R457). -/
  | cmp (n : Fin 18) (m : GMsg)
  /-- RD_CUR (R470). -/
  | rdCur (n : Fin 18) (m : GMsg)
  /-- WR_PART (R448). -/
  | wrPart (n : Fin 18) (m : GMsg)
  /-- RD_SHARED (R476). -/
  | rdShared (n : Fin 18) (m : GMsg) (ue : Bool)
  /-- RD_OWN (R476). -/
  | rdOwn (n : Fin 18) (m : GMsg)
  /-- UPGRADE (R476). -/
  | upgrade (n : Fin 18) (m : GMsg)
  /-- EVICT_CLEAN (R476). -/
  | evictClean (n : Fin 18) (m : GMsg)
  /-- WB_DIRTY (R479). -/
  | wbDirty (n : Fin 18) (m : GMsg)
  /-- SNP_RSP (R480). -/
  | snpRsp (n : Fin 18) (m : GMsg)
  /-- SNP_RSP_DATA (R476). -/
  | snpRspData (n : Fin 18) (m : GMsg)
  /-- ACK (R474). -/
  | ack (n : Fin 18) (m : GMsg)
  /-- IDENTITY (R463). -/
  | identity (n : Fin 18) (m : GMsg)
  /-- ARRIVE_INFO (R468). -/
  | arriveInfo (n : Fin 18) (m : GMsg)
  /-- VOLT_REQ (R469). -/
  | voltReq (n : Fin 18) (m : GMsg)
  /-- CREDIT (R450). -/
  | credit (n : Fin 18) (m : GMsg)
  /-- OCCUPANT_RSP_TIMEOUT (R461). -/
  | occupantRspTimeout (n : Fin 18) (tag : BitVec 12)
  /-- SNOOP_TIMEOUT (R483). -/
  | snoopTimeout (n : Fin 18) (line : Nat)
  /-- FLUSH_TIMEOUT (R484). -/
  | flushTimeout (n : Fin 18)
  /-- CACHING_SITE_FLUSH_DONE (R484). -/
  | cachingSiteFlushDone (n : Fin 18)
  /-- CXL_RDCURR (R486). -/
  | cxlRdcurr (n : Fin 18) (m : CxlMsg)
  /-- CXL_RDSHARED (R486). -/
  | cxlRdshared (n : Fin 18) (m : CxlMsg)
  /-- CXL_RDANY (R486). -/
  | cxlRdany (n : Fin 18) (m : CxlMsg)
  /-- CXL_RDOWN (R486). -/
  | cxlRdown (n : Fin 18) (m : CxlMsg)
  /-- CXL_RDOWNNODATA (R486). -/
  | cxlRdownnodata (n : Fin 18) (m : CxlMsg)
  /-- CXL_CLFLUSH (R486). -/
  | cxlClflush (n : Fin 18) (m : CxlMsg)
  /-- CXL_CLEANEVICT (R486). -/
  | cxlCleanevict (n : Fin 18) (m : CxlMsg)
  /-- CXL_DIRTYEVICT (R486). -/
  | cxlDirtyevict (n : Fin 18) (m : CxlMsg)
  /-- CXL_ITOMWR (R486). -/
  | cxlItomwr (n : Fin 18) (m : CxlMsg)
  /-- CXL_CACHEFLUSHED (R486). -/
  | cxlCacheflushed (n : Fin 18) (m : CxlMsg)
  /-- CXL_SNOOP_RESPONSE (R486). -/
  | cxlSnoopResponse (n : Fin 18) (rsp : CxlSnpRsp) (m : CxlMsg)
  /-- CXL_UNLISTED_D2H (R486). -/
  | cxlUnlistedD2h (n : Fin 18) (m : CxlMsg)
  /-- CXL_GO_ACKED (R488). -/
  | cxlGoAcked (n : Fin 18) (tag : BitVec 12)
  /-- CXL_MEM_RESPONSE (R489). -/
  | cxlMemResponse (n : Fin 18) (tag : BitVec 12) (data : List Byte) (poison : Bool)
  /-- STL_TRAINING_DONE (R495). -/
  | stlTrainingDone (p : Fin 8) (tr : Training)
  /-- STL_TRAINING_TIMEOUT (R495). -/
  | stlTrainingTimeout (p : Fin 8)
  /-- STL_LINK_LOSS (R495). -/
  | stlLinkLoss (p : Fin 8)
  /-- STL_RETRAIN_DONE (R496). -/
  | stlRetrainDone (p : Fin 8) (tr : Training)
  /-- STL_RETRAIN_TIMEOUT (R495). -/
  | stlRetrainTimeout (p : Fin 8)
  /-- STL_PORT_FENCE (R495). -/
  | stlPortFence (p : Fin 8)
  /-- STL_PORT_READMIT (R495). -/
  | stlPortReadmit (p : Fin 8)
  /-- STL_PORT_RETRAIN (R495). -/
  | stlPortRetrain (p : Fin 8)
  /-- SLOT_RECEIVE (R501). -/
  | slotReceive (p : Fin 8) (sl : Slot) (codewordOk : Bool)
  /-- NAK_BLOCK (R501). -/
  | nakBlock (p : Fin 8) (blk : BitVec 128)
  /-- ABORT_BLOCK (R529). -/
  | abortBlock (p : Fin 8) (blk : BitVec 128)
  /-- STL_CREDIT (R503). -/
  | stlCredit (p : Fin 8) (blk : BitVec 128)
  /-- LINK_BLOCK (R498). -/
  | linkBlock (p : Fin 8) (blk : BitVec 128)
  /-- SERDES_REFCLK_LOST (R796). -/
  | serdesRefclkLost (east : Bool)
  /-- COL_WAIT_SATISFIED (R296). -/
  | colWaitSatisfied (c : Fin 8)
  /-- COL_OP_COMPLETE (R526). -/
  | colOpComplete (c : Fin 8)
  /-- COL_ABORT (R529). -/
  | colAbort (c : Fin 8)
  /-- COL_FENCE (R535). -/
  | colFence (c : Fin 8)
  /-- COL_READMIT (R535). -/
  | colReadmit (c : Fin 8)
  /-- VIF_ATTACH (R554). -/
  | vifAttach (v : Fin 1024) (val : Word)
  /-- VIF_DETACH (R553). -/
  | vifDetach (v : Fin 1024)
  /-- VIF_LEASE (R570). -/
  | vifLease (v : Fin 1024)
  /-- LEASE_WARN (R570). -/
  | leaseWarn (v : Fin 1024)
  /-- LEASE_EXPIRY (R571). -/
  | leaseExpiry (v : Fin 1024)
  /-- PF_QUIESCE (R553). -/
  | pfQuiesce
  /-- PF_DETACH (R553). -/
  | pfDetach
  /-- RING_READ_COMPLETION (R566). -/
  | ringReadCompletion (v : Fin 1024) (cpl : CplStat) (data : List (BitVec 512))
  /-- CMD_NOP (R561). -/
  | cmdNop (v : Fin 1024)
  /-- CMD_TRANSFER (R562). -/
  | cmdTransfer (v : Fin 1024)
  /-- CMD_BARRIER (R561). -/
  | cmdBarrier (v : Fin 1024)
  /-- CMD_WAIT_STEP (R561). -/
  | cmdWaitStep (v : Fin 1024)
  /-- HST_ATTACH (R556). -/
  | hstAttach (val : Word)
  /-- HST_DRV_LEASE (R573). -/
  | hstDrvLease
  /-- DRV_LEASE_EXPIRY (R573). -/
  | drvLeaseExpiry
  /-- DRV_DETACH (R573). -/
  | drvDetach
  /-- BUS_MASTER_DISABLE (R573). -/
  | busMasterDisable
  /-- FUNCTION_LEVEL_RESET (R576). -/
  | functionLevelReset
  /-- PERST_ASSERT (R576). -/
  | perstAssert
  /-- PERST_RELEASE (R721). -/
  | perstRelease (rate width : Nat) (flit : Bool)
  /-- D3HOT_ENTRY (R573). -/
  | d3hotEntry
  /-- PCIE_LINK_DOWN (R573). -/
  | pcieLinkDown
  /-- INTERRUPT_DISABLE_WRITE (R551). -/
  | interruptDisableWrite (disable : Bool)
  /-- SPDM_GET_VERSION (R612). -/
  | spdmGetVersion (tr : Fin 3) (req : List Byte)
  /-- SPDM_GET_CAPABILITIES (R612). -/
  | spdmGetCapabilities (tr : Fin 3) (req : List Byte)
  /-- SPDM_NEGOTIATE_ALGORITHMS (R612). -/
  | spdmNegotiateAlgorithms (tr : Fin 3) (req : List Byte)
  /-- SPDM_GET_DIGESTS (R612). -/
  | spdmGetDigests (tr : Fin 3) (req : List Byte)
  /-- SPDM_GET_CERTIFICATE (R610). -/
  | spdmGetCertificate (tr : Fin 3) (req : List Byte)
  /-- SPDM_CHALLENGE (R611). -/
  | spdmChallenge (tr : Fin 3) (req : List Byte)
  /-- SPDM_GET_MEASUREMENTS (R613). -/
  | spdmGetMeasurements (tr : Fin 3) (req : List Byte)
  /-- SEAL_OPEN (R594). -/
  | sealOpen (v : Fin 1024)
  /-- SEAL_OPEN_COMPLETE (R595). -/
  | sealOpenComplete (v : Fin 1024)
  /-- SEAL_CLOSE (R605). -/
  | sealClose (v : Fin 1024)
  /-- SEC_SEAL_CLOSE (R605). -/
  | secSealClose (v : Fin 1024)
  /-- KEY_SLOT_WIPE (R607). -/
  | keySlotWipe (v : Fin 1024)
  /-- KEY_SLOT_FAULT (R605). -/
  | keySlotFault (v : Fin 1024)
  /-- ENTROPY_FAIL (R620). -/
  | entropyFail
  /-- LCS_REQUEST (R634). -/
  | lcsRequest (path : LcsPath) (target : BitVec 3) (burn : Burn)
  /-- OPEN_ERASE (R642). -/
  | openErase
  /-- OPEN_CERT (R645). -/
  | openCert (cert : BitVec 2048)
  /-- TAP_CLOSE (R649). -/
  | tapClose
  /-- DBG_CLOSE (R649). -/
  | dbgClose
  /-- DEBUG_DURATION_EXPIRY (R649). -/
  | debugDurationExpiry (nonce : BitVec 256)
  /-- TAP_BYPASS (R650). -/
  | tapBypass (tdi : Bool)
  /-- TAP_IDCODE (R650). -/
  | tapIdcode
  /-- TAP_EXTEST (R650). -/
  | tapExtest (drive : BitVec 64)
  /-- TAP_SAMPLE_PRELOAD (R650). -/
  | tapSamplePreload (pins : BitVec 64) (preload : BitVec 64)
  /-- POWER_CONTROL_TICK (R672). -/
  | powerControlTick (x : PowerIn)
  /-- POWER_SAMPLE_1MS (R666). -/
  | powerSample1ms (est meas vin : Nat)
  /-- CALIBRATION_UPDATE (R664). -/
  | calibrationUpdate
  /-- TILE_FAIL (R30). -/
  | tileFail (t : Fin 8)
  /-- INPUT_CURRENT_TRIP (R659). -/
  | inputCurrentTrip
  /-- SUPPLY_DROOP (R670). -/
  | supplyDroop (island : Fin 16)
  /-- FCLK_ADJUST (R675). -/
  | fclkAdjust (mean100ms : Nat) (below8For1s : Bool)
  /-- THERMAL_SAMPLE (R683). -/
  | thermalSample (sensor : Fin 256) (quarters : Int)
  /-- THROT_N_ASSERT (R785). -/
  | throtNAssert
  /-- RACK_BUDGET_SET (R776). -/
  | rackBudgetSet (watts : Nat)
  /-- POWER_ON (R792). -/
  | powerOn
  /-- INPUT_UNDERVOLTAGE (R792). -/
  | inputUndervoltage
  /-- INPUT_OVERVOLTAGE (R714). -/
  | inputOvervoltage
  /-- FAULT_DETECT (R698). -/
  | faultDetect (g : Fin 29) (bit : Fin 32) (unit : Nat)
  /-- GRACE_EXPIRY (R699). -/
  | graceExpiry (g : Fin 29)
  /-- FAULT_STATUS_CLEAR (R696). -/
  | faultStatusClear (g : Fin 29) (val : Word)
  /-- FAULT_ACK (R696). -/
  | faultAck (g : Fin 29) (val : Word)
  /-- FAULT_MASK_WRITE (R807). -/
  | faultMaskWrite (g : Fin 29) (val : Word)
  /-- FAULT_ACTION_WRITE (R806). -/
  | faultActionWrite (g : Fin 29) (val : Word)
  /-- FAULT_INJECT_ARM (R712). -/
  | faultInjectArm (g : Fin 29) (val : Word)
  /-- ERRN_HEARTBEAT (R711). -/
  | errnHeartbeat
  /-- HUB_RESET (R719). -/
  | hubReset (x : StartIn)
  /-- START_COMPLETE (R722). -/
  | startComplete
  /-- START_WATCHDOG_EXPIRY (R720). -/
  | startWatchdogExpiry (x : StartIn)
  /-- MGT_WATCHDOG_EXPIRY (R772). -/
  | mgtWatchdogExpiry
  /-- HANDOVER_RECORD_WRITE (R772). -/
  | handoverRecordWrite
  /-- PEEL_DEFER_CHECK (R768). -/
  | peelDeferCheck
  /-- PEEL_DEFER_LONG (R769). -/
  | peelDeferLong
  /-- PEEL_FREEZE (R762). -/
  | peelFreeze
  /-- PEEL_JUMP (R762). -/
  | peelJump
  /-- PEEL_RESUME (R764). -/
  | peelResume
  /-- PEEL_RESUME_TIMEOUT (R765). -/
  | peelResumeTimeout (rejected : Bool)
  /-- PEEL_COMMIT (R755). -/
  | peelCommit (flashOk : Bool)
  /-- PLDM_GET_TID (R775). -/
  | pldmGetTid
  /-- PLDM_GET_PLDM_VERSION (R775). -/
  | pldmGetPldmVersion (type : BitVec 8)
  /-- PLDM_GET_PLDM_TYPES (R775). -/
  | pldmGetPldmTypes
  /-- PLDM_GET_PLDM_COMMANDS (R775). -/
  | pldmGetPldmCommands (type : BitVec 8)
  /-- PLDM_SENSOR_READ (R775). -/
  | pldmSensorRead (sensor : Nat)
  /-- PLDM_FW_TRANSFER (R777). -/
  | pldmFwTransfer (recovery : Bool) (bytes : List Byte)
  /-- PLDM_ACTIVATE_FIRMWARE (R777). -/
  | pldmActivateFirmware (selfContained : Bool)
  /-- CXL_IO_REQUEST (R426). -/
  | cxlIoRequest (n : Fin 18) (kind : CxlIo) (m : CxlMsg)
  /-- PROOF_PORT_UP (R739). -/
  | proofPortUp (port : Fin 8) (peer : BitVec 64)
  /-- BUS_MASTER_ENABLE (R556). -/
  | busMasterEnable
  /-- D0_ENTRY (R556). -/
  | d0Entry
  /-- ATS_ENABLE (R277). -/
  | atsEnable (on : Bool)
  /-- PRI_ENABLE (R317). -/
  | priEnable (on : Bool) (alloc : BitVec 16)
  /-- THROT_N_RELEASE (R676). -/
  | throtNRelease
  /-- TILE_RESTART (R714). -/
  | tileRestart (x : StartIn)
  /-- DROOP_STRETCH_END (R670). -/
  | droopStretchEnd (island : Fin 16)
  /-- PCIE_LINK_UP (R575). -/
  | pcieLinkUp (rate width : Nat) (flit : Bool)
  /-- HOST_COMPLETION_TIMEOUT (R580). -/
  | hostCompletionTimeout (tag : Nat)
  /-- FLASH_WRITE_DONE (R755). -/
  | flashWriteDone (ok : Bool)
  /-- MGT_HALT (R648). -/
  | mgtHalt (op : HaltOp)
  /-- POWER_OVERRIDE (R690). -/
  | powerOverride (x : PowerSet)
  /-- HBM_HARD_REPAIR (R353). -/
  | hbmHardRepair (row : BitVec 32)
  deriving DecidableEq, Repr

end Sys2Proof
end

