-- ==== Sys2Proof/Machine/State.lean ====
section
/-! DEFINITION. The state of the hub: every unit's state, the queue of commands that wait, and what the hub has sent
outward. -/
namespace Sys2Proof.Machine
open Sys2Proof

/-- The state of the package. Numbered units stand in sparse tables; an unlisted unit holds its reset value. -/
structure State where
  img     : ImageState := {}
  clk     : Clock := {}
  parts   : Tab Part := []
  fab     : Fabric := {}
  xfes    : Tab Xfe := []
  xlt     : Xlt := {}
  mem     : Mem := {}
  noc     : Noc := {}
  sites   : Tab Site := []
  home    : Home := {}
  ports   : Tab Port := []
  cols    : Tab Col := []
  host    : HostEp := {}
  vis     : Tab Vi := []
  sec     : Sec := {}
  lcs     : Lcs := {}
  dbg     : Dbg := {}
  pwr     : Pwr := {}
  thm     : Thm := {}
  flt     : Flt := {}
  mgt     : Mgt := {}
  trc     : Trc := {}
  /-- Proof ports trained (`PRF_PORT_STATUS.UP`). -/
  prfUp   : BitVec 8 := 0
  /-- Proof ports whose neighbour's tokens arrive only by the mirror. -/
  prfMir  : BitVec 8 := 0
  /-- Peer identity learnt on each proof port (R494). -/
  prfPeer : Tab (BitVec 64) := []
  /-- `PRF_SITE_ACK`. -/
  siteAck : BitVec 18 := 0
  /-- The wide-value mailboxes: the host's copies and firmware's. -/
  mbxH    : List (MbxId × Mbx) := []
  mbxF    : List (MbxId × Mbx) := []
  /-- The two indirect pairs. -/
  indH    : Ind := {}
  indF    : Ind := {}
  /-- What firmware wrote in the indirect space where no other state is kept (R47), by indirect address. -/
  indMem  : Tab (Option Word) := []
  /-- Words of registers that hold what was last written and have no other home, by BAR0 offset. -/
  regs    : Tab Word := []
  /-- The model's own counter of free values drawn so far (no state of the hub). -/
  free    : Nat := 0
  /-- What the hub has sent outward, newest first (the model's own record). -/
  out     : List Emit := []
  /-- The commands that wait, first in, first out. -/
  pending : List Instr := []
  deriving DecidableEq, Repr

/-- Why a run can stop: no command of this hub ends in a fault, since the manual gives each an effect or discards it.
The type has no constructor that a meaning raises; `impossible` is never answered (safe). -/
inductive Fault where
  | impossible
  deriving DecidableEq, Repr

/-- Why a command can be refused. -/
inductive Refusal where
  /-- Raised by an arm of `exec` whose command has no meaning yet. Safe: the run stops. -/
  | notModelled (mnemonic : String)
  deriving DecidableEq, Repr

/-- The hub right after reset: registers at their reset values, memory with nothing listed, no command waiting.
[DESIGN CHOICE, log entry 4; DESIGN CHOICE, log entry 5] -/
def State.reset : State := {}

end Sys2Proof.Machine
end

