-- ==== Sys2Proof/Machine/Ops.lean ====
section
/-! DEFINITION. The shared operations: bit fields and byte order, the accessors of every numbered unit, the log ring,
the trace buffer, free values and the switch of a partition's state. -/
namespace Sys2Proof.Machine
open Sys2Proof

/-! ### Bits and bytes -/

/-- Bits `lo` to `lo + len − 1` of a number. -/
def bits (x lo len : Nat) : Nat := (x >>> lo) % 2 ^ len

/-- The field at byte offset `off`, bit `lo`, of `len` bits, in a little-endian record. -/
def rfld {n : Nat} (r : BitVec n) (off lo len : Nat) : Nat := bits r.toNat (off * 8 + lo) len

/-- One bit of a little-endian record. -/
def rbit {n : Nat} (r : BitVec n) (off lo : Nat) : Bool := rfld r off lo 1 == 1

/-- Replace `len` bits at `lo` of a number below 2^w. -/
def setBits (w x lo len v : Nat) : Nat :=
  let m := (2 ^ len - 1) <<< lo
  ((x &&& (2 ^ w - 1 - m)) ||| ((v % 2 ^ len) <<< lo)) % 2 ^ w

/-- Numbers of the set bits of a mask, rising, among the first `n`. -/
def bitsOf (n : Nat) (x : Nat) : List Nat := (List.range n).filter (fun i => x.testBit i)

/-- Set or clear one bit of a vector. -/
def putBit {n : Nat} (x : BitVec n) (i : Nat) (b : Bool) : BitVec n :=
  if b then x ||| BitVec.ofNat n (2 ^ i) else x &&& ~~~ (BitVec.ofNat n (2 ^ i))

/-- The number a little-endian byte list holds. -/
def leNat : List Byte → Nat
  | [] => 0
  | b :: bs => b.toNat + 256 * leNat bs

/-- The number a big-endian byte list holds. -/
def beNat (bs : List Byte) : Nat := leNat bs.reverse

/-- `n` bytes of a number, least significant first. -/
def leBytes : Nat → Nat → List Byte
  | 0, _ => []
  | n + 1, x => BitVec.ofNat 8 x :: leBytes n (x / 256)

/-- `n` bytes of a number, most significant first. -/
def beBytes (n x : Nat) : List Byte := (leBytes n x).reverse

/-- The field of a byte list read as a little-endian record. -/
def bfld (bs : List Byte) (off lo len : Nat) : Nat :=
  bits (leNat ((bs.drop off).take ((lo + len + 7) / 8))) lo len

/-- Increment of a counter that saturates at its largest value (R34, RC counters). -/
def satInc {n : Nat} (x : BitVec n) : BitVec n := if x = BitVec.allOnes n then x else x + 1

/-- Addition that saturates. -/
def satAdd {n : Nat} (x : BitVec n) (k : Nat) : BitVec n := BitVec.ofNat n (min (x.toNat + k) (2 ^ n - 1))

/-- The nearest value of a legal range (R38). -/
def clampTo (lo hi v : Nat) : Nat := if v < lo then lo else if hi < v then hi else v

/-- A number read as two's complement of `n` bits. -/
def toSigned (n v : Nat) : Int := if v < 2 ^ (n - 1) then (v : Int) else (v : Int) - (2 ^ n : Nat)

/-- One step of a CRC that takes the most significant bit first: width, polynomial, register, byte. -/
def crcMsbByte (w poly : Nat) (reg b : Nat) : Nat :=
  (List.range 8).foldl (fun r _ =>
    let r2 := (r * 2) % 2 ^ w
    if r.testBit (w - 1) then r2 ^^^ poly else r2) (reg ^^^ (b <<< (w - 8)))

/-- CRC-16 of R815: polynomial 0x1021, initial value 0xFFFF, not reflected, no final XOR. -/
def crc16 (bs : List Byte) : Nat := bs.foldl (fun r b => crcMsbByte 16 0x1021 r b.toNat) 0xFFFF

/-- CRC-64 of R143 continued over more bytes: ECMA-182 polynomial, not reflected, no final XOR. -/
def crc64From (crc : Nat) (bs : List Byte) : Nat := bs.foldl (fun r b => crcMsbByte 64 0x42F0E1EBA9EA3693 r b.toNat) crc
/-- CRC-64 of R143: initial value 0. -/
def crc64 (bs : List Byte) : Nat := crc64From 0 bs

/-- One byte of the reflected CRC-32. -/
def crc32Byte (r b : Nat) : Nat :=
  (List.range 8).foldl (fun r _ => if r % 2 = 1 then (r / 2) ^^^ 0xEDB88320 else r / 2) (r ^^^ b)

/-- CRC-32 with the IEEE 802.3 polynomial, as the manual names it (R58, R500). -/
def crc32 (bs : List Byte) : Nat := (bs.foldl (fun r b => crc32Byte r b.toNat) 0xFFFFFFFF) ^^^ 0xFFFFFFFF

/-- Number of ones among the first `n` bits. -/
def popcount (n x : Nat) : Nat := (bitsOf n x).length

/-! ### Free values, output, log and trace -/

/-- Draw a free value of width `w`. [DESIGN CHOICE, log entry 6] -/
def State.drawFree (s : State) (w : Nat) : BitVec w × State :=
  (Config.freeBits w s.free, { s with free := s.free + 1 })

/-- Count a free value as drawn. [DESIGN CHOICE, log entry 6] -/
def State.spend (s : State) : State := { s with free := s.free + 1 }

/-- Send something outward. [DESIGN CHOICE, log entry 9] -/
def State.emit (s : State) (e : Emit) : State := { s with out := e :: s.out }

/-- Send several things outward, in order. -/
def State.emits (s : State) (es : List Emit) : State := es.foldl State.emit s

/-- Write an entry of the log ring (R773): source, severity, class and event, two argument words. [DEDUCED, log entry 81] -/
def writeLog (src sev cls ev : Nat) (a0 a1 : Nat) (s : State) : State :=
  let m := s.mgt
  let e : LogEntry := { tick := s.clk.now, seq := m.logSeq, src := src, sev := sev,
                        code := BitVec.ofNat 16 (cls * 256 + ev), arg0 := BitVec.ofNat 32 a0, arg1 := BitVec.ofNat 32 a1 }
  { s with mgt := { m with log := Tab.set none m.log m.logHead (some e),
                           logHead := (m.logHead + 1) % 32768, logSeq := m.logSeq + 1 } }

/-! ### Accessors of the numbered units -/

/-- The 29 fault groups' reset values: FAB and SIT escalate to FENCE_UNIT, every other group logs (R203, R444). -/
def FGroup.reset (g : Nat) : FGroup :=
  if g = 16 ∨ (24 ≤ g ∧ g ≤ 27) then { action := .fenceUnit } else {}

def State.part (s : State) (p : Nat) : Part := Tab.get {} s.parts p
def State.setPart (s : State) (p : Nat) (x : Part) : State := { s with parts := Tab.set {} s.parts p x }
def State.modPart (s : State) (p : Nat) (f : Part → Part) : State := s.setPart p (f (s.part p))
def State.cell (s : State) (n : Nat) : Cell := Tab.get {} s.fab.cells n
def State.setCell (s : State) (n : Nat) (x : Cell) : State :=
  { s with fab := { s.fab with cells := Tab.set {} s.fab.cells n x } }
def State.col (s : State) (k : Nat) : Column := Tab.get {} s.fab.cols k
def State.setCol (s : State) (k : Nat) (x : Column) : State :=
  { s with fab := { s.fab with cols := Tab.set {} s.fab.cols k x } }
def State.quad (s : State) (q : Nat) : Quadrant := Tab.get {} s.fab.quads q
def State.setQuad (s : State) (q : Nat) (x : Quadrant) : State :=
  { s with fab := { s.fab with quads := Tab.set {} s.fab.quads q x } }
def State.xfe (s : State) (e : Nat) : Xfe := Tab.get {} s.xfes e
def State.setXfe (s : State) (e : Nat) (x : Xfe) : State := { s with xfes := Tab.set {} s.xfes e x }
def State.bank (s : State) (b : Nat) : Bank := Tab.get {} s.mem.banks b
def State.setBank (s : State) (b : Nat) (x : Bank) : State :=
  { s with mem := { s.mem with banks := Tab.set {} s.mem.banks b x } }
def State.chan (s : State) (c : Nat) : Chan := Tab.get {} s.mem.chans c
def State.setChan (s : State) (c : Nat) (x : Chan) : State :=
  { s with mem := { s.mem with chans := Tab.set {} s.mem.chans c x } }
def State.stack (s : State) (m : Nat) : Stack := Tab.get {} s.mem.stackTab m
def State.setStack (s : State) (m : Nat) (x : Stack) : State :=
  { s with mem := { s.mem with stackTab := Tab.set {} s.mem.stackTab m x } }
def State.granule (s : State) (g : Nat) : Granule := Tab.get {} s.mem.own g
def State.setGranule (s : State) (g : Nat) (x : Granule) : State :=
  { s with mem := { s.mem with own := Tab.set {} s.mem.own g x } }
def State.site (s : State) (n : Nat) : Site := Tab.get {} s.sites n
def State.setSite (s : State) (n : Nat) (x : Site) : State := { s with sites := Tab.set {} s.sites n x }
def State.modSite (s : State) (n : Nat) (f : Site → Site) : State := s.setSite n (f (s.site n))
def State.port (s : State) (n : Nat) : Port := Tab.get {} s.ports n
def State.setPort (s : State) (n : Nat) (x : Port) : State := { s with ports := Tab.set {} s.ports n x }
def State.cunit (s : State) (c : Nat) : Col := Tab.get {} s.cols c
def State.setCunit (s : State) (c : Nat) (x : Col) : State := { s with cols := Tab.set {} s.cols c x }
def State.vi (s : State) (v : Nat) : Vi := Tab.get {} s.vis v
def State.setVi (s : State) (v : Nat) (x : Vi) : State := { s with vis := Tab.set {} s.vis v x }
def State.modVi (s : State) (v : Nat) (f : Vi → Vi) : State := s.setVi v (f (s.vi v))
def State.sealOf (s : State) (v : Nat) : Seal := Tab.get {} s.sec.seals v
def State.setSeal (s : State) (v : Nat) (x : Seal) : State :=
  { s with sec := { s.sec with seals := Tab.set {} s.sec.seals v x } }
def State.grp (s : State) (g : Nat) : FGroup := Tab.get (FGroup.reset g) s.flt.groups g
def State.setGrp (s : State) (g : Nat) (x : FGroup) : State :=
  { s with flt := { s.flt with groups := Tab.set (FGroup.reset g) s.flt.groups g x } }
def State.tile (s : State) (t : Nat) : Tile := Tab.get {} s.pwr.tiles t
def State.setTile (s : State) (t : Nat) (x : Tile) : State :=
  { s with pwr := { s.pwr with tiles := Tab.set {} s.pwr.tiles t x } }
def State.region (s : State) (r : Nat) : Region := Tab.get {} s.thm.regions r
def State.setRegion (s : State) (r : Nat) (x : Region) : State :=
  { s with thm := { s.thm with regions := Tab.set {} s.thm.regions r x } }
def State.hline (s : State) (l : Nat) : HLine := Tab.get {} s.home.lines l
def State.qport (s : State) (port part : Nat) : QosPort := Tab.get {} s.noc.qports (port * 64 + part)
def State.setQport (s : State) (port part : Nat) (x : QosPort) : State :=
  { s with noc := { s.noc with qports := Tab.set {} s.noc.qports (port * 64 + part) x } }
def State.qpart (s : State) (p : Nat) : QosPart := Tab.get {} s.noc.qparts p
def State.setQpart (s : State) (p : Nat) (x : QosPart) : State :=
  { s with noc := { s.noc with qparts := Tab.set {} s.noc.qparts p x } }

/-- The stored word of a register with no other home; `d` is its reset value. -/
def State.reg (s : State) (addr : Nat) (d : Word) : Word := Tab.get d s.regs addr
def State.setReg (s : State) (addr : Nat) (d : Word) (v : Word) : State := { s with regs := Tab.set d s.regs addr v }

/-- Partitions of the running image that are enabled, rising. -/
def State.enabledParts (s : State) : List Nat := (List.range 64).filter (fun p => (s.part p).cfg.enable)

/-- The partition whose VI range holds a VI, among enabled partitions (R553). -/
def State.partOfVi (s : State) (v : Nat) : Option Nat :=
  (List.range 64).find? (fun p =>
    let c := (s.part p).cfg
    c.enable && decide (c.viFirst ≤ v) && decide (v < c.viFirst + c.viCount) && decide (v ≠ 0))

/-- VIs of a partition, rising. -/
def State.visOf (s : State) (p : Nat) : List Nat :=
  let c := (s.part p).cfg
  if c.enable then (List.range c.viCount).map (· + c.viFirst) else []

/-- A VI with an open seal session (R605, R621). -/
def State.sealOpen (s : State) (v : Nat) : Bool := (s.sealOf v).state == .open_

/-- A partition with an open seal session (R616). -/
def State.sealedPart (s : State) (p : Nat) : Bool := (s.visOf p).any s.sealOpen

/-- Record a trace point (R774): only while RUN is set and the point enabled, and never for a partition with an open
seal session; recording TRIGGER clears RUN; with STOP_FULL the full buffer stops. The manual does not say what DATA
holds: a free value. [DEDUCED, log entry 81] -/
def traceAt (point : Nat) (part : Option Nat) (s : State) : State :=
  let t := s.trc
  let hidden := match part with
    | some p => s.sealedPart p
    | none => false
  if !t.run || !t.enable.getLsbD point || hidden then s
  else
    let e : TraceEntry := { tick := s.clk.now.truncate 48, point := point, part := part, data := Config.freeBits 64 s.free }
    let last := t.head = 16383
    let stop := (t.trigEn && t.trigger == point) || (t.stopFull && decide last)
    { s with free := s.free + 1,
             trc := { t with entries := Tab.set none t.entries t.head (some e),
                             head := (t.head + 1) % 16384,
                             wrapped := t.wrapped || decide last,
                             run := !stop } }

/-- RUNNING or WAITING: the states in which a partition's units change only at its proofs (R24, R817). -/
def Part.active (x : Part) : Bool := x.state == .running || x.state == .waiting

/-- The partitions that use a step-link port (R495, R818): named in LINK_MASK and not excluded. -/
def State.usesPort (s : State) (p n : Nat) : Bool :=
  let x := s.part p
  x.cfg.enable && x.cfg.links.getLsbD n && !x.excl.contains (8, n)

/-- Sites that take part in a partition's proofs (R109, R432): ADMITTED Gelja sites, and ADMITTED CXL sites of
CXL_PROOF_MASK. -/
def State.proofSites (s : State) (p : Nat) : List Nat :=
  let x := s.part p
  (List.range 18).filter (fun n =>
    let t := s.site n
    t.owner == some p && !t.upper && t.state == .admitted &&
      (t.cls == 1 || t.cls == 3 || (rfld x.prog.header 0x18 0 18).testBit n))

/-- ADMITTED or retraining sites of a partition, whose wires the hub drives (R433). -/
def State.wireSites (s : State) (p : Nat) : List Nat :=
  (List.range 18).filter (fun n =>
    let t := s.site n
    t.owner == some p && !t.upper && (t.state == .admitted || t.state == .retrain))

/-- Keys of a table whose value satisfies a test. -/
def Tab.keysWhere {α : Type} (t : Tab α) (q : α → Bool) : List Nat := (t.filter (fun e => q e.2)).map (·.1)

/-- Gelja message towards a site. -/
def geljaTo (n op : Nat) (m : GMsg) (s : State) : State := s.emit (.gelja n op m)

/-- A control message with a 64-bit PARAM (R462). -/
def ctlMsg (param : Nat) (status : Nat := 0) : GMsg :=
  { addr := BitVec.ofNat 48 param, step16 := BitVec.ofNat 16 (param / 2 ^ 48), status := BitVec.ofNat 8 status }

/-- HOLD to every Gelja site of a partition (R467): the floor and the reason. -/
def sendHold (p floor reason : Nat) (s : State) : State :=
  ((s.wireSites p).filter (fun n => (s.site n).cls == 1 || (s.site n).cls == 3)).foldl
    (fun s n => geljaTo n 0x65 (ctlMsg (floor + reason * 256)) s) s

/-- Set STATE in `VIF_INT_PENDING` of every VI of a partition whose tenant accepted STATE_INT (R583). -/
def stateInts (p : Nat) (s : State) : State :=
  (s.visOf p).foldl (fun s v =>
    if (s.vi v).features.getLsbD 1 then s.modVi v (fun x => { x with intPend := x.intPend ||| 4#5 }) else s) s

/-- Change a partition's state and hold reason (R110): VI state interrupts, and on entry to HELD or BROKEN the
second HOLD message with FLOOR 0 (R467) and the start of the fall to zero of a bench load that runs (R137). -/
def setPState (p : Nat) (st : PState) (h : Hold) (s : State) : State :=
  let old := (s.part p).state
  let s := s.modPart p (fun x => { x with state := st, hold := h })
  if old = st then s
  else
    let s := stateInts p s
    match st with
    | .held => sendHold p 0 h.code (s.modPart p (fun x => { x with benchFrom := x.benchFrom.map (fun _ => s.clk.now) }))
    | .broken => sendHold p 0 8 (s.modPart p (fun x => { x with benchFrom := x.benchFrom.map (fun _ => s.clk.now) }))
    | _ => s

/-- Switch power domains on or off. -/
def setDomain (n : Nat) (on : Bool) (s : State) : State :=
  { s with pwr := { s.pwr with domains := putBit s.pwr.domains n on } }

/-- Mark flags for the partition's next ARRIVE token (R122): bit 1 TAINT, 2 POISON, 3 FENCE. -/
def markFlag (p bit : Nat) (s : State) : State := s.modPart p (fun x => { x with flags := putBit x.flags bit true })

/-! ### Requests of the NoC by tag -/

/-- The request with a tag, a change of it, and its end. -/
def State.reqOf (s : State) (tag : Nat) : Option Req := s.noc.reqs.find? (fun r => r.tag == tag)
def State.modReq (s : State) (tag : Nat) (f : Req → Req) : State :=
  { s with noc := { s.noc with reqs := s.noc.reqs.map (fun r => if r.tag == tag then f r else r) } }
def State.dropReq (s : State) (tag : Nat) : State :=
  { s with noc := { s.noc with reqs := s.noc.reqs.filter (fun r => r.tag != tag) } }

/-! ### Fields of a word -/

/-- A word from its fields: lowest bit, length, value. -/
def pk (l : List (Nat × Nat × Nat)) : Nat := l.foldl (fun a f => a + f.2.2 % 2 ^ f.2.1 * 2 ^ f.1) 0

/-- A flag as a field. -/
def flag (b : Bool) : Nat := if b then 1 else 0

/-! ### The package configuration word (R401, R631, R632) and measurements (R608, R613, R614) -/

/-- Whether the word read at stage 1 of the start is programmed. -/
def pcwOn (s : State) : Bool := rbit s.lcs.pcw 0x40 0

/-- Stack count codes of the package configuration word (R631). -/
def stackCount (code : Nat) : Nat := 2 * code

/-- Fitted positions, and whether the expected count differs from theirs (R337). -/
def fittedStacks (s : State) : List Nat := (List.range 6).filter (fun m => (s.stack m).fitted)
def stackMismatch (s : State) : Bool := pcwOn s && stackCount (rfld s.lcs.pcw 9 0 2) != (fittedStacks s).length

/-- The class code that the word holds for a site, a reserved code taken as 0 (R11). -/
def pcwClass (s : State) (n : Nat) : Nat :=
  let c := rfld s.lcs.pcw 0 (4 * n) 4
  if 5 < c then 0 else c

/-- Expected class of a site: the word's, where a double site that breaks R14 counts as class 0 on both sites, or while
the word is unprogrammed the class of the running image's site record (R11, R14, R401). -/
def expectedClass (s : State) (n record : Nat) : Nat :=
  if pcwOn s then
    let e := pcwClass s (n / 2 * 2)
    let o := pcwClass s (n / 2 * 2 + 1)
    if e = 5 ∨ (o = 5 ∧ e = 0) then 0 else pcwClass s n
  else record

/-- Whether unattested occupants are admitted (R420). -/
def unattestedOk (s : State) : Bool := !pcwOn s || rbit s.lcs.pcw 9 3

/-- Set a measurement block. A change raises the epoch and sets MEAS_CHANGED and SEAL at every VI with an open session
(R608, R614). [DEDUCED, log entry 63] -/
def setMeas (idx : Nat) (v : List Byte) (s : State) : State :=
  if Tab.get [] s.sec.meas idx = v then s
  else
    let open_ := (s.sec.seals.filter (fun e => e.2.state == .open_)).map (·.1)
    let s := { s with sec := { s.sec with meas := Tab.set [] s.sec.meas idx v, epoch := s.sec.epoch + 1 } }
    open_.foldl (fun s v =>
      (s.setSeal v { s.sealOf v with changed := true }).modVi v (fun w => { w with intPend := w.intPend ||| 16#5 })) s

end Sys2Proof.Machine
end

