-- ==== Sys2Proof/Machine/Descr.lean ====
section
/-! DEFINITION. Transfer descriptors as data: fields, element widths, the order of elements, and what a running one reports
(R168, R284 to R287, R302, R304). -/
namespace Sys2Proof.Machine
open Sys2Proof

/-! ### Descriptor fields (R284, R285) -/

def XDesc.kind (d : XDesc) : Nat := rfld d.base 0 0 4
def XDesc.engine (d : XDesc) : Nat := rfld d.base 0 4 6
def XDesc.esize (d : XDesc) : Nat := rfld d.base 0 10 3
def XDesc.convert (d : XDesc) : Bool := rbit d.base 0 13
def XDesc.sealed (d : XDesc) : Bool := rbit d.base 0 14
def XDesc.srcFmt (d : XDesc) : Nat := rfld d.base 0 16 4
def XDesc.dstFmt (d : XDesc) : Nat := rfld d.base 0 20 4
def XDesc.rnd (d : XDesc) : Nat := rfld d.base 0 24 2
def XDesc.sat (d : XDesc) : Bool := rbit d.base 0 26
def XDesc.ftz (d : XDesc) : Bool := rbit d.base 0 27
def XDesc.ctx (d : XDesc) : Nat := rfld d.base 4 0 10
def XDesc.waitEngine (d : XDesc) : Nat := rfld d.base 4 10 6
def XDesc.waitValid (d : XDesc) : Bool := rbit d.base 4 16
def XDesc.hasExt (d : XDesc) : Bool := rbit d.base 4 17
def XDesc.waitThr (d : XDesc) : Nat := rfld d.base 8 0 32
/-- COUNT0 to COUNT5. -/
def XDesc.counts (d : XDesc) : List Nat :=
  [rfld d.base 0xC 0 16, rfld d.base 0xC 16 16, rfld d.base 0x10 48 16, rfld d.base 0x18 48 16, rfld d.base 0x20 0 16,
   rfld d.base 0x20 16 16]
def XDesc.srcDva (d : XDesc) : Nat := rfld d.base 0x10 0 48
def XDesc.dstDva (d : XDesc) : Nat := rfld d.base 0x18 0 48
/-- SRC_STRIDE1 to SRC_STRIDE5, two's complement. -/
def XDesc.srcStrides (d : XDesc) : List Int := (List.range 5).map (fun k => toSigned 32 (rfld d.base (0x24 + 4 * k) 0 32))
def XDesc.comp (d : XDesc) : Nat := rfld d.base 0x38 0 48
def XDesc.compValid (d : XDesc) : Bool := rbit d.base 0x38 63
def XDesc.dstStridesExt (d : XDesc) : List Int := (List.range 5).map (fun k => toSigned 32 (rfld d.ext (8 + 4 * k) 0 32))
def XDesc.srcScale (d : XDesc) : Nat := rfld d.ext 0x20 0 48
def XDesc.dstScale (d : XDesc) : Nat := rfld d.ext 0x28 0 48

/-- Whether a side of the transfer lies in the host window (R263). -/
def XDesc.srcHost (d : XDesc) : Bool := decide (2 ^ 47 ≤ d.srcDva)
def XDesc.dstHost (d : XDesc) : Bool := decide (2 ^ 47 ≤ d.dstDva)
def XDesc.hostSide (d : XDesc) : Bool := d.srcHost || d.dstHost

/-- Bits of an element of a format (R168). -/
def elemBits (fmt : Nat) : Nat :=
  if fmt = 0 then 64 else if fmt = 1 ∨ fmt = 14 then 32 else if fmt = 2 ∨ fmt = 3 then 16
  else if fmt = 8 ∨ fmt = 9 then 6 else if fmt = 10 ∨ fmt = 13 then 4 else 8

/-- MX formats (R168). -/
def isMx (fmt : Nat) : Bool := decide (6 ≤ fmt) && decide (fmt ≤ 11)

/-- Bits of one element on each side. -/
def XDesc.srcBits (d : XDesc) : Nat := if d.convert then elemBits d.srcFmt else 8 * 2 ^ d.esize
def XDesc.dstBits (d : XDesc) : Nat := if d.convert then elemBits d.dstFmt else 8 * 2 ^ d.esize

/-! ### Elements in issue order (R287) -/

/-- Elements of one row, rows of the transfer and elements in all. -/
def XDesc.n0 (d : XDesc) : Nat := d.counts.getD 0 0
def XDesc.rowCount (d : XDesc) : Nat := d.counts.tail.foldl (· * ·) 1
def XDesc.total (d : XDesc) : Nat := d.n0 * d.rowCount

/-- Indices i0 to i5 of the element with a number in issue order; past the last element all are 0. -/
def XDesc.index (d : XDesc) (i : Nat) : List Nat :=
  if d.total ≤ i then [0, 0, 0, 0, 0, 0]
  else
    let c := d.counts
    let r := i / d.n0
    let m := fun (k : Nat) => c.getD k 1
    [i % d.n0, r % m 1, r / m 1 % m 2, r / (m 1 * m 2) % m 3, r / (m 1 * m 2 * m 3) % m 4, r / (m 1 * m 2 * m 3 * m 4) % m 5]

/-! ### A descriptor at work -/

/-- Whether a sealed transfer writes its records to the host. -/
def XDesc.sealedOut (d : XDesc) : Bool := d.sealed && d.dstHost
def XDesc.sealedIn (d : XDesc) : Bool := d.sealed && d.srcHost && !d.dstHost

/-- Open requests of a run: its reads without data. -/
def XUnit.openReads (u : XUnit) : List Nat := (u.reads.filter (fun r => r.2.isNone)).map (·.1)

/-- The first element whose write has not been issued. -/
def XCur.front (c : XCur) : Nat :=
  if c.desc.sealedOut then c.acked
  else match c.units.find? (fun u => !u.wrote) with
    | some u => u.start
    | none => c.next

/-- FLAGS of `XFE_LAST` and of the completion record. -/
def XCur.flags (c : XCur) : Nat :=
  (if c.poison then 1 else 0) + (if c.failed.isEmpty then 0 else 2) + (if c.desc.sealed then 4 else 0) + (if c.resumed then 8 else 0)

/-- The cursor that an ended descriptor reports. -/
def XCur.endCursor (c : XCur) (st : Status) : List Nat :=
  match st with
  | .ok | .poisoned | .empty => [0, 0, 0, 0, 0, 0]
  | .partialDone => c.desc.index (c.firstBad.getD 0)
  | _ => c.desc.index (if c.desc.sealedOut then c.acked else c.cut.getD c.front)

/-- Whether the traffic of a descriptor travels on the regulated VC: a command delivered it, no step record launched it (R377). -/
def XDesc.regulated (d : XDesc) : Bool := match d.src with
  | .pool .. => false
  | _ => true

end Sys2Proof.Machine
end

