-- ==== Sys2Proof/Machine/MemOps.lean ====
section
/-! DEFINITION. The named operations over device memory: bytes and poison markers, the decoding of physical addresses,
the ownership check and the translation of device virtual addresses. -/
namespace Sys2Proof.Machine
open Sys2Proof

/-! ### Bytes and poison markers (R339 to R342) -/

/-- The byte at a physical address; a byte never written reads 0 (a choice of the model: the manual gives no contents
after power-on). [DESIGN CHOICE, log entry 2] -/
def Mem.byte (m : Mem) (a : Nat) : Byte := Tab.get 0#8 m.bytes a

/-- `n` bytes from an address, rising. -/
def Mem.read (m : Mem) : Nat → Nat → List Byte
  | _, 0 => []
  | a, n + 1 => m.byte a :: Mem.read m (a + 1) n

/-- Store one byte. [DESIGN CHOICE, log entry 2] -/
def Mem.put (m : Mem) (a : Nat) (b : Byte) : Mem := { m with bytes := Tab.set 0#8 m.bytes a b }

/-- Store bytes from an address, rising. -/
def Mem.write (m : Mem) : Nat → List Byte → Mem
  | _, [] => m
  | a, b :: bs => Mem.write (m.put a b) (a + 1) bs

/-- Store those bytes whose enable bit is set; bit n enables byte n. -/
def Mem.writeBe (m : Mem) (a : Nat) (bs : List Byte) (be : Nat) : Mem :=
  (bs.zip (List.range bs.length)).foldl (fun m p => if be.testBit p.2 then m.put (a + p.2) p.1 else m) m

/-- The poison marker of a 64 B line. -/
def Mem.bad (m : Mem) (line : Nat) : Bool := Tab.get false m.poison line

/-- Set or clear the poison marker of a line. -/
def Mem.mark (m : Mem) (line : Nat) (p : Bool) : Mem := { m with poison := Tab.set false m.poison line p }

/-- The lines that `n` bytes from `a` touch. -/
def linesOf (a n : Nat) : List Nat :=
  if n = 0 then [] else (List.range ((a + n - 1) / 64 - a / 64 + 1)).map (· + a / 64)

/-- Whether any line of a range is poisoned. -/
def Mem.anyBad (m : Mem) (a n : Nat) : Bool := (linesOf a n).any m.bad

/-- A write of good data clears the marker of each line it covers completely; a write of poisoned data sets the
marker of each line it touches (R342). -/
def Mem.markWrite (m : Mem) (a n : Nat) (poison : Bool) : Mem :=
  (linesOf a n).foldl (fun m l =>
    if poison then m.mark l true
    else if a ≤ l * 64 ∧ l * 64 + 64 ≤ a + n then m.mark l false else m) m

/-- Store data with its poison. -/
def Mem.store (m : Mem) (a : Nat) (bs : List Byte) (poison : Bool) : Mem :=
  (m.write a bs).markWrite a bs.length poison

/-- The canonical form of memory: addresses strictly rising, and no byte, poison marker or unit listed that equals what an
unlisted one reads as. [DESIGN CHOICE, log entry 2] -/
abbrev Mem.wf (m : Mem) : Prop :=
  Tab.wf 0#8 m.bytes = true ∧ Tab.wf false m.poison = true ∧ Tab.wf {} m.own = true ∧ Tab.wf {} m.banks = true ∧
  Tab.wf {} m.chans = true ∧ Tab.wf {} m.stackTab = true

/-- Drop what a range holds: zero bytes, no poison marker (R348, R356). [DEDUCED, log entry 71] -/
def Mem.clear (m : Mem) (lo hi : Nat) : Mem :=
  { m with bytes := m.bytes.keep (fun a => a < lo || hi ≤ a),
           poison := m.poison.keep (fun l => l * 64 + 63 < lo || hi ≤ l * 64) }

/-! ### Physical addresses (R324, R325) -/

/-- What a physical address decodes to. -/
inductive PaSpot where
  | sram (b g : Nat)
  | hbm (m ch g : Nat)
  | site (n off : Nat)
  | srmHole
  | memHole (m : Nat)
  deriving DecidableEq, Repr

/-- First address of a bank, a channel and a site's memory. -/
def bankBase (b : Nat) : Nat := b * 0x800000
def chanBase (m ch : Nat) : Nat := 0x010000000000 + m * 0x1000000000 + ch * 0x80000000
def siteBase (n : Nat) : Nat := 0x100000000000 + n * 0x10000000000

/-- Decode a physical address (R324). [DESIGN CHOICE, log entry 10; DEDUCED, log entry 46] -/
def paSpot (s : State) (pa : Nat) : PaSpot :=
  if pa < 0x20000000 then
    if pa % 0x800000 < 0x500000 then .sram (pa / 0x800000) (pa % 0x800000 / 0x10000) else .srmHole
  else if 0x010000000000 ≤ pa ∧ pa < 0x016000000000 then
    let o := pa - 0x010000000000
    let m := o / 0x1000000000
    if (s.stack m).fitted then .hbm m (o % 0x1000000000 / 0x80000000) (o % 0x80000000 / 0x200000) else .memHole m
  else if 0x100000000000 ≤ pa ∧ pa < 0x220000000000 then
    let o := pa - 0x100000000000
    .site (o / 0x10000000000) (o % 0x10000000000)
  else .srmHole

/-- Number of a granule in the ownership table: SRAM granules first, then those of each channel (R344).
[DESIGN CHOICE, log entry 10] -/
def granOf : PaSpot → Nat
  | .sram b g => b * 80 + g
  | .hbm m ch g => 5120 + m * 32768 + ch * 1024 + g
  | _ => 0

/-- First address of a granule. [DESIGN CHOICE, log entry 10] -/
def granBase (g : Nat) : Nat :=
  if g < 5120 then bankBase (g / 80) + g % 80 * 0x10000
  else chanBase ((g - 5120) / 32768) ((g - 5120) % 32768 / 1024) + (g - 5120) % 1024 * 0x200000

/-- Size of a granule. -/
def granSize (g : Nat) : Nat := if g < 5120 then 0x10000 else 0x200000

/-- The partition that owns the unit of a granule. -/
def granPart (s : State) (g : Nat) : Option Nat :=
  if g < 5120 then (s.bank (g / 80)).owner else (s.chan ((g - 5120) / 1024)).owner

/-- Whether the unit of a granule takes requests: neither fenced nor, for HBM, switched off (R351). -/
def granUp (s : State) (g : Nat) : Bool :=
  if g < 5120 then !(s.bank (g / 80)).fenced
  else
    let m := (g - 5120) / 32768
    !(s.chan ((g - 5120) / 1024)).fenced && !(s.stack m).fenced && s.pwr.domains.getLsbD (16 + m)

/-- The fault group of a granule's unit: SRM or the MEM position. -/
def granGroup (g : Nat) : Nat := if g < 5120 then 23 else 17 + (g - 5120) / 32768

/-- The rule of R280 and R281: the context is the owner, or the granule is open to the whole partition. -/
def ctxPass (s : State) (e : Granule) (part : Option Nat) (ctx : Nat) : Bool :=
  ctx == e.owner || (e.partWide && ctx != 0 &&
    (match part with
     | some p => let c := (s.part p).cfg; decide (c.viFirst ≤ ctx) && decide (ctx < c.viFirst + c.viCount)
     | none => false))

/-- Answer of a memory target to a request: it passes, it lies in a site's range, or it is dropped and sets a fault
bit of a group (R282, R325, R351). -/
inductive MemAns where
  | pass (g : Nat)
  | site (n off : Nat)
  | drop (group bit : Nat)
  deriving DecidableEq, Repr

/-- The ownership check of a request at its memory target (R280 to R282, R325, R351). -/
def memCheck (s : State) (pa ctx : Nat) : MemAns :=
  match paSpot s pa with
  | .site n off => .site n off
  | .srmHole => .drop 23 3
  | .memHole m => .drop (17 + m) 3
  | spot =>
    let g := granOf spot
    let e := s.granule g
    if e.fenced || !granUp s g || !ctxPass s e (granPart s g) ctx then .drop (granGroup g) 2 else .pass g

/-- A passing write: data, poison, and ZEROED cleared at the granule (R342, R349). -/
def memPut (s : State) (g pa : Nat) (bs : List Byte) (poison : Bool) : State :=
  let e := s.granule g
  let s := s.setGranule g { e with zeroed := false }
  { s with mem := s.mem.store pa bs poison }

/-- A passing write under byte enables. A write that leaves bytes of a line unwritten is no complete write of it. -/
def memPutBe (s : State) (g pa : Nat) (bs : List Byte) (be : Nat) (poison : Bool) : State :=
  let e := s.granule g
  let s := s.setGranule g { e with zeroed := false }
  if be % 2 ^ bs.length = 2 ^ bs.length - 1 then { s with mem := s.mem.store pa bs poison }
  else
    let m := s.mem.writeBe pa bs be
    { s with mem := if poison then m.markWrite pa bs.length true else m }

/-- Set the poison marker of each of some lines. -/
def markLines (ls : List Nat) (s : State) : State := { s with mem := ls.foldl (fun (m : Mem) l => m.mark l true) s.mem }

/-- Zero a granule: ZEROED set, every line zero with good ECC (R348, R349). -/
def zeroGranule (g : Nat) (s : State) : State :=
  let e := s.granule g
  let s := s.setGranule g { e with zeroed := true }
  { s with mem := s.mem.clear (granBase g) (granBase g + granSize g) }

/-- The granules of a bank or of a channel. -/
def bankGrans (b : Nat) : List Nat := (List.range 80).map (· + b * 80)
def chanGrans (c : Nat) : List Nat := (List.range 1024).map (· + (5120 + c * 1024))

/-! ### Device page tables (R271, R272, R274) -/

/-- Result of a device translation. -/
inductive Xlat where
  | ok (pa : Nat)
  | noLeaf
  | perm
  | ue
  | host
  deriving DecidableEq, Repr

/-- One 8 B entry of a device page table, read under context 0. -/
def pteAt (s : State) (a : Nat) : Option Nat :=
  match memCheck s a 0 with
  | .pass _ => if s.mem.anyBad a 8 then none else some (leNat (s.mem.read a 8))
  | _ => none

/-- What a walk finds: a leaf as the buffers hold it, none, or an uncorrectable error. -/
inductive Leaf where
  | page (e : XlEntry)
  | none
  | ue
  deriving DecidableEq, Repr

/-- The page of `size` bytes that a leaf entry gives a DVA (R271). -/
def leafPage (ctx dva size e : Nat) : Leaf :=
  .page { host := false, ctx := ctx, base := dva / size * size, size := size, goal := bits e 12 40 * 4096 / size * size,
          r := e.testBit 2, w := e.testBit 3 }

/-- The walk from a table of level `l`: entries and leaves of R271. -/
def walk (s : State) (ctx dva : Nat) : Nat → Nat → Leaf
  | 0, base =>
    match pteAt s (base + bits dva 12 9 * 8) with
    | none => .ue
    | some e => if e.testBit 0 then leafPage ctx dva (if e.testBit 4 then 0x10000 else 0x1000) e else .none
  | l + 1, base =>
    match pteAt s (base + bits dva (12 + 9 * (l + 1)) 9 * 8) with
    | none => .ue
    | some e =>
      if !e.testBit 0 then .none
      else if e.testBit 1 then (if l + 1 = 3 then .none else leafPage ctx dva (2 ^ (12 + 9 * (l + 1))) e)
      else walk s ctx dva l (bits e 12 40 * 4096)

/-! ### Translation buffers (R273, R274) -/

/-- Whether an entry serves an address of a context. -/
def XlEntry.covers (e : XlEntry) (host : Bool) (ctx a : Nat) : Bool :=
  e.host == host && e.ctx == ctx && decide (e.base ≤ a) && decide (a < e.base + e.size)

/-- Page sizes that an entry can hold (R273). -/
def xlSizes : List Nat := [0x1000, 0x10000, 0x200000, 0x40000000]

/-- The set of the second level in which a page lies: its number, modulo the 2,048 sets. [DESIGN CHOICE, log entry 41] -/
def xlSet (base size : Nat) : Nat := base / size % 2048

/-- The entry of a unit's own buffer for an address. -/
def bufFind (s : State) (unit : Nat) (host : Bool) (ctx a : Nat) : Option XlEntry :=
  (Tab.get [] s.xlt.bufs unit).find? (fun e => e.covers host ctx a)

/-- The entry of the second level for an address. -/
def l2Find (s : State) (host : Bool) (ctx a : Nat) : Option XlEntry :=
  xlSizes.findSome? (fun n => (Tab.get [] s.xlt.l2 (xlSet a n)).find? (fun e => e.size == n && e.covers host ctx a))

/-- Enter a page in a list of at most `n`: the oldest entry goes. [DESIGN CHOICE, log entry 41] -/
def xlPut (n : Nat) (e : XlEntry) (es : List XlEntry) : List XlEntry :=
  let es := es.filter (fun f => !(f.host == e.host && f.ctx == e.ctx && decide (f.base < e.base + e.size) && decide (e.base < f.base + f.size)))
  (if n ≤ es.length then es.drop (es.length + 1 - n) else es) ++ [e]

/-- The number of an initiator that has no buffer of its own: it uses the second level alone. -/
def noBuf : Nat := 136

/-- Enter a page in a unit's own buffer: engines, collective units and fabric ring ports have one, of 64 entries. -/
def bufFill (unit : Nat) (e : XlEntry) (s : State) : State :=
  if noBuf ≤ unit then s else { s with xlt := { s.xlt with bufs := Tab.upd [] s.xlt.bufs unit (xlPut 64 e) } }

/-- Enter a page in both levels. -/
def xlFill (unit : Nat) (e : XlEntry) (s : State) : State :=
  let s := bufFill unit e s
  { s with xlt := { s.xlt with l2 := Tab.upd [] s.xlt.l2 (xlSet e.base e.size) (xlPut 8 e) } }

/-- Drop from every buffer the entries that a test names. -/
def xlDrop (f : XlEntry → Bool) (s : State) : State :=
  let keep := fun (_ : Nat) (es : List XlEntry) => es.filter (fun e => !f e)
  { s with xlt := { s.xlt with bufs := Tab.mapV [] keep s.xlt.bufs, l2 := Tab.mapV [] keep s.xlt.l2 } }

/-- Firmware invalidates a context's device pages after its table has changed (R272). -/
def xlForget (ctx : Nat) (s : State) : State := xlDrop (fun e => !e.host && e.ctx == ctx) s

/-- The access that a page gives. -/
def pageAccess (dva : Nat) (write : Bool) (e : XlEntry) : Xlat :=
  if if write then e.w else e.r then .ok (e.goal + (dva - e.base)) else .perm

/-- Walk the device page table of a context. -/
def tableWalk (s : State) (ctx dva : Nat) : Leaf :=
  match Tab.get none s.xlt.roots ctx with
  | none => .none
  | some r => walk s ctx dva 3 r.toNat

/-- Translate a DVA of a context for a unit (R263, R271, R273): by a buffered page, else by a walk. The host window has no
device translation. [DESIGN CHOICE, log entry 41] -/
def translate (s : State) (unit ctx dva : Nat) (write : Bool) : Xlat :=
  if 2 ^ 47 ≤ dva then .host
  else match (bufFind s unit false ctx dva).or (l2Find s false ctx dva) with
    | some e => pageAccess dva write e
    | none => match tableWalk s ctx dva with
      | .page e => pageAccess dva write e
      | .none => .noLeaf
      | .ue => .ue

/-- What a translation leaves in the buffers and counters (R273, R321): a hit of the second level enters the unit's buffer, a
miss of both walks and enters both. -/
def noteXlat (unit ctx dva : Nat) (s : State) : State :=
  if decide (2 ^ 47 ≤ dva) || (bufFind s unit false ctx dva).isSome then s
  else match l2Find s false ctx dva with
    | some e => bufFill unit e { s with xlt := { s.xlt with l2Hits := satInc s.xlt.l2Hits } }
    | none =>
      let s := { s with xlt := { s.xlt with l2Misses := satInc s.xlt.l2Misses } }
      match tableWalk s ctx dva with
      | .page e => xlFill unit e s
      | _ => s

/-- The XLT fault bit of a failed translation (R323). -/
def Xlat.bit : Xlat → Option Nat
  | .ok _ => none
  | .noLeaf => some 1
  | .perm => some 2
  | .host => some 4
  | .ue => some 5

/-! ### The host window (R266 to R269, R283) -/

/-- Whether a host-window entry matches a DVA of a context (R267). -/
def hwtHit (e : BitVec 256) (ctx dva : Nat) : Bool :=
  rbit e 0 63 && rfld e 0 48 10 == ctx && decide (rfld e 0 0 48 ≤ dva) &&
    decide (dva < rfld e 0 0 48 + rfld e 0x10 0 26 * 0x200000)

/-- The host-window match of a DVA: entry index and IOVA (R267). -/
def hwtFind (s : State) (ctx dva : Nat) : Option (Nat × BitVec 256 × Nat) :=
  match s.xlt.hwt.find? (fun p => hwtHit p.2 ctx dva) with
  | some (i, e) => some (i, e, (rfld e 8 0 64 + (dva - rfld e 0 0 48)) % 2 ^ 64)
  | none => none

/-- Whether an entry permits a direction. -/
def hwtPerm (e : BitVec 256) (write : Bool) : Bool := rbit e 0 (if write then 61 else 60)

/-! ### Coherent lines (R330, R331, R470) -/

/-- Whether a physical address lies in a coherent window of staging SRAM. -/
def inCohWin (s : State) (pa : Nat) : Bool :=
  s.home.cohWins.any (fun p =>
    let v := p.2.toNat
    let lo := bankBase (bits v 0 6) + bits v 8 7 * 0x10000
    decide (lo ≤ pa) && decide (pa < lo + bits v 16 7 * 0x10000))

/-- Whether a line is coherent: HBM, or inside a coherent window. -/
def coherent (s : State) (pa : Nat) : Bool :=
  match paSpot s pa with
  | .hbm .. => true
  | .sram .. => inCohWin s pa
  | _ => false

end Sys2Proof.Machine
end

