-- ==== Sys2Proof/Machine/Tokens.lean ====
section
/-! DEFINITION. Proof tokens and step-link control blocks: their bytes, their CRC and the ports they leave on. -/
namespace Sys2Proof.Machine
open Sys2Proof

/-- Bytes 0x00 to 0x0D of a token (R122). -/
def tokenBody (t : Token) : List Byte :=
  BitVec.ofNat 8 t.type.code :: BitVec.ofNat 8 t.domain.val :: t.flags ::
  BitVec.ofNat 8 (t.frac.toNat + 16 * t.hops.toNat) :: (leBytes 4 t.step.toNat ++ leBytes 6 t.tick.toNat)

/-- Whether a token's CRC is right (R123, R815). -/
def tokenOk (t : Token) : Bool := t.crc.toNat == crc16 (tokenBody t)

/-- A token with its CRC. -/
def mkToken (ty : TokenType) (p : Nat) (flags step tick : Nat) (frac : Nat := 0) (hops : Nat := 0) : Token :=
  let t : Token := { type := ty, domain := Fin.ofNat 64 p, flags := BitVec.ofNat 8 flags, frac := BitVec.ofNat 4 frac,
                     hops := BitVec.ofNat 4 hops, step := BitVec.ofNat 32 step, tick := BitVec.ofNat 48 tick, crc := 0 }
  { t with crc := BitVec.ofNat 16 (crc16 (tokenBody t)) }

/-- Whether a token is a copy of another (R124): the same TYPE, DOMAIN and STEP. An ARRIVE that reports READY, a HOLD that
says COMPLETE and a RELEASE for another tick bear the STEP of an earlier token of their TYPE and are no copies of it.
[DEDUCED, log entry 27] -/
def sameToken (a b : Token) : Bool :=
  a.type == b.type && a.domain == b.domain && a.step == b.step &&
  (match a.type with
   | .arrive => a.flags.getLsbD 5 == b.flags.getLsbD 5
   | .hold => a.flags.getLsbD 4 == b.flags.getLsbD 4
   | .release => a.tick == b.tick
   | _ => true)

/-- The step links that lead to the neighbour of a proof port (R494). -/
def mirrorsOf (s : State) (port : Nat) : List Nat :=
  (List.range 8).filter (fun n =>
    let q := s.port n
    q.state == .up && q.peerOk && (Tab.get 0 s.prfPeer port == q.peerId) && q.peerId != 0)

/-- Send a token on a proof port and on every mirror of it (R124). -/
def sendToken (port : Nat) (t : Token) (s : State) : State :=
  let s := traceAt (80 + port) (if t.type == .timeReq || t.type == .timeResp then none else some t.domain.val) s
  let s := if s.prfUp.getLsbD port then s.emit (.token (.port (Fin.ofNat 8 port)) t) else s
  (mirrorsOf s port).foldl (fun s n => s.emit (.token (.mirror (Fin.ofNat 8 n)) t)) s

/-- The proof port a received token belongs to: its own, or the port that its mirror stands for. -/
def tokenPort (s : State) : TokenVia → Option Nat
  | .port p => some p.val
  | .mirror l => (List.range 8).find? (fun p => Tab.get 0 s.prfPeer p == (s.port l.val).peerId && (s.port l.val).peerOk)

/-- Ports of a partition's proof tree. -/
def childPorts (x : Part) : List Nat := bitsOf 8 x.cfg.proofChild.toNat
def treePorts (x : Part) : List Nat :=
  (if x.cfg.parentValid then [x.cfg.proofParent.val] else []) ++ childPorts x

/-- A control block of a step link (R498) from its first fourteen bytes, with its CRC. -/
def mkBlock (body : List Byte) : BitVec 128 :=
  let b := (body ++ List.replicate 14 0#8).take 14
  BitVec.ofNat 128 (leNat b + crc16 b * 2 ^ 112)

/-- Whether a received control block's CRC is right (R499). -/
def blockOk (b : BitVec 128) : Bool := rfld b 0x0E 0 16 == crc16 (leBytes 14 (b.toNat % 2 ^ 112))

/-- Send a CREDIT block: slot credits of a partition returned on a port (R503). They wait while the port retrains, when it sends
nothing (R496). -/
def sendCredit (port part n : Nat) (s : State) : State :=
  let q := s.port port
  if n = 0 then s
  else if q.state == .up then s.emit (.control port (mkBlock [0x12#8, BitVec.ofNat 8 part, BitVec.ofNat 8 n]))
  else if q.state == .retrain then s.setPort port { q with owed := Tab.upd 0 q.owed part (· + n) }
  else s

/-- The ports that the masks of a collective descriptor name (R513). -/
def maskPorts (d : BitVec 512) : List Nat :=
  bitsOf 8 (rfld d 0x20 0 8 ||| rfld d 0x20 8 8 ||| rfld d 0x20 16 8 ||| rfld d 0x20 24 8)

/-- FLAGS of a collective operation's record (R304, R526): RESUMED and SEALED are 0. -/
def COp.flags (o : COp) : Nat := (if o.poison then 1 else 0) + (if o.failed.isEmpty then 0 else 2)

/-- An aborted operation goes from the links: what waits to be sent of it is dropped, and an ABORT block leaves on every UP port
of its masks (R529). -/
def sendAborts (c : Nat) (o : COp) (s : State) : State :=
  (maskPorts o.desc).foldl (fun s n =>
    let q := s.port n
    let mine := fun (sl : Slot) =>
      rfld sl.hdr 0 1 6 == o.part && rfld sl.hdr 0 7 3 == c && rfld sl.hdr 0xC 0 16 == o.step.toNat % 65536
    let s := s.setPort n { q with txq := q.txq.filter (fun sl => !mine sl) }
    if q.state == .up then
      s.emit (.control n (mkBlock ([0x11#8, BitVec.ofNat 8 o.part, BitVec.ofNat 8 c, 0#8] ++ leBytes 4 o.step.toNat)))
    else s) s

end Sys2Proof.Machine
end

