-- ==== Sys2Proof/Machine/Fence.lean ====
section
/-! DEFINITION. Snoops and back-invalidations, and the fencing, remapping and re-admission of units: what each does at
the proof of its owner, or at once where no owner runs (R24, R817). Nothing here raises a fault. -/
namespace Sys2Proof.Machine
open Sys2Proof

/-! ### Windows of a site record (R422 to R424) -/

/-- An outbound window. -/
structure OutWin where
  dva   : Nat
  ctx   : Nat
  phys  : Nat
  size  : Nat
  perms : Nat                      -- bit 0 READ, 1 WRITE, 2 CACHE, 3 CURRENT
  deriving DecidableEq, Repr

/-- An inbound window. -/
structure InWin where
  off      : Nat
  size     : Nat
  owner    : Nat
  partWide : Bool
  r        : Bool
  w        : Bool
  deriving DecidableEq, Repr

/-- The field of a site record at the offset of R422, which counts the 8 B header. -/
def Site.fld (t : Site) (off lo len : Nat) : Nat := bfld t.cfg (off - 8) lo len

/-- The valid outbound windows of a site. -/
def outWins (t : Site) : List OutWin :=
  ((List.range 16).filter (fun w => t.fld (0xF0 + 32 * w) 63 1 == 1)).map (fun w =>
    let b := 0xF0 + 32 * w
    { dva := t.fld b 0 48, ctx := t.fld b 48 10, phys := t.fld (b + 8) 0 52, size := t.fld (b + 0x10) 0 32 * 0x10000,
      perms := t.fld (b + 0x14) 0 4 })

/-- The valid inbound windows of a site. -/
def inWins (t : Site) : List InWin :=
  ((List.range 16).filter (fun w => t.fld (0x2F0 + 16 * w) 79 1 == 1)).map (fun w =>
    let b := 0x2F0 + 16 * w
    { off := t.fld b 0 32 * 0x10000, size := t.fld (b + 4) 0 32 * 0x10000, owner := t.fld (b + 8) 0 10,
      partWide := t.fld (b + 8) 10 1 == 1, r := t.fld (b + 8) 11 1 == 1, w := t.fld (b + 8) 12 1 == 1 })

/-- DVA and context with which the hub addresses a snoop of a line to a site: those of the CACHE window that maps it
(R465). -/
def snoopAddr (t : Site) (line : Nat) : Nat × Nat :=
  match (outWins t).find? (fun w => w.perms.testBit 2 && decide (w.phys ≤ line * 64) && decide (line * 64 < w.phys + w.size)) with
  | some w => (w.dva + (line * 64 - w.phys), w.ctx)
  | none => (0, 0)

/-- A caching agent: a Gelja compute occupant that reports CACHING, or a CXL compute occupant (R403). -/
def isCaching (t : Site) : Bool := (t.cls == 1 && t.caching) || t.cls == 2

/-- Whether a site's class speaks Gelja (R400). -/
def isGelja (t : Site) : Bool := t.cls == 1 || t.cls == 3

/-! ### Snoops -/

/-- Send a snoop for a line to a site, or hold it while the site retrains, no tag is free or no SNP credit is held
(R450, R453, R490). -/
def sendSnoop (op line n : Nat) (s : State) : State :=
  let t := s.site n
  let free := ((List.range 256).map (· + 3840)).find? (fun k => !(t.snoops.any (fun q => q.1 == k)))
  match free with
  | none => s.setSite n { t with snpQ := t.snpQ ++ [(op, line)] }
  | some k =>
    if t.state == .retrain || (isGelja t && Tab.get 0 t.credits 1 == 0) then
      s.setSite n { t with snpQ := t.snpQ ++ [(op, line)] }
    else
      let a := snoopAddr t line
      let s := s.setSite n { t with snoops := t.snoops ++ [(k, line)],
                                    credits := if isGelja t then Tab.upd 0 t.credits 1 (· - 1) else t.credits }
      if isGelja t then
        geljaTo n op { tag := BitVec.ofNat 12 k, ctx := BitVec.ofNat 10 a.2, addr := BitVec.ofNat 48 a.1 } s
      else
        s.emit (.cxl n (if op = 0x18 then "SnpInv" else if op = 0x19 then "SnpData" else "SnpCur") k a.1 [] false)

/-- Send the snoops that waited at a site. -/
def drainSnoops (n : Nat) (s : State) : State :=
  let q := (s.site n).snpQ
  q.foldl (fun s e => sendSnoop e.1 e.2 n s) (s.modSite n (fun t => { t with snpQ := [] }))

/-- The sites of a presence mask. -/
def sitesOf (m : BitVec 18) : List Nat := bitsOf 18 m.toNat

/-- A back-invalidation of a line: `why` 0 asks every holder, 1 + n only site n, 19 every caching site (R332, R481,
R482, R484). On a BUSY line it waits its turn (R474). -/
def backInval (why line : Nat) (s : State) : State :=
  let r : HReq := { op := .backInval why, src := .self, site := none, line := line, ctx := 0, dva := 0 }
  match Tab.get none s.home.txns line with
  | some _ => { s with home := { s.home with queue := s.home.queue ++ [r] } }
  | none =>
    let h := s.hline line
    let targets : List Nat :=
      if why = 0 then sitesOf h.pres
      else if why = 19 then (List.range 18).filter (fun n => let t := s.site n; isCaching t && !t.upper && t.state == .admitted)
      else if h.pres.getLsbD (why - 1) then [why - 1] else []
    if targets.isEmpty then s
    else
      let mask := targets.foldl (fun (m : BitVec 18) n => putBit m n true) 0
      let s := { s with home := { s.home with txns := Tab.set none s.home.txns line (some { req := r, wait := .snoops, snoop := mask }) } }
      targets.foldl (fun s n => sendSnoop 0x18 line n s) s

/-- Back-invalidate every cached line of a physical range (R332, R359). -/
def backInvalRange (lo hi : Nat) (s : State) : State :=
  (s.home.lines.filter (fun e => decide (lo ≤ e.1 * 64) && decide (e.1 * 64 < hi))).foldl (fun s e => backInval 0 e.1 s) s

/-- Start the flush of a fenced caching site (R484). -/
def flushSite (n : Nat) (s : State) : State :=
  (s.home.lines.filter (fun e => e.2.pres.getLsbD n)).foldl (fun s e => backInval (n + 1) e.1 s)
    (s.modSite n (fun t => { t with flushing := true }))

/-- Remove a site from a line; a line in X at it becomes poisoned in memory (R483 to R485). -/
def dropHolder (n line : Nat) (s : State) : State :=
  let h := s.hline line
  if h.pres.getLsbD n then
    let p := putBit h.pres n false
    let s := { s with home := { s.home with lines := Tab.set {} s.home.lines line { mode := if p = 0 then .i else h.mode, pres := p } } }
    if h.mode == .x then { s with mem := s.mem.mark line true } else s
  else s

/-- Physical range of a coherent window's setting (R360). -/
def winRange (v : Word) : Nat × Nat :=
  let lo := bankBase (bits v.toNat 0 6) + bits v.toNat 8 7 * 0x10000
  (lo, lo + bits v.toNat 16 7 * 0x10000)

/-- Window settings whose old range no occupant caches any more take effect (R332). [DEDUCED, log entry 45] -/
def settleWins (s : State) : State :=
  s.home.cohPend.foldl (fun s p =>
    let r := winRange (Tab.get 0 s.home.cohWins p.1)
    let inR := fun (l : Nat) => decide (r.1 ≤ l * 64) && decide (l * 64 < r.2)
    if s.home.lines.any (fun e => inR e.1) || s.home.txns.any (fun e => inR e.1) then s
    else { s with home := { s.home with cohWins := Tab.set 0 s.home.cohWins p.1 p.2, cohPend := s.home.cohPend.filter (fun q => q.1 != p.1) } }) s

/-- The range of a granule. -/
def granRange (g : Nat) : Nat × Nat := (granBase g, granBase g + granSize g)

/-- Whether an occupant still caches a line of a range, or a transaction on one is open. -/
def rangeHeld (s : State) (r : Nat × Nat) : Bool :=
  let inR := fun (l : Nat) => decide (r.1 ≤ l * 64) && decide (l * 64 < r.2)
  s.home.lines.any (fun e => inR e.1) || s.home.txns.any (fun e => inR e.1)

/-- Zero a granule, then leave it unassigned (R345, R348). -/
def freeGranule (g : Nat) (s : State) : State :=
  let s := zeroGranule g s
  s.setGranule g { s.granule g with owner := 0, partWide := false }

/-- Granules that leave their owner and that no occupant caches any more are zeroed and unassigned (R359). -/
def settleGrans (s : State) : State :=
  s.mem.leaving.foldl (fun s g =>
    if rangeHeld s (granRange g) then s
    else freeGranule g { s with mem := { s.mem with leaving := s.mem.leaving.filter (· != g) } }) s

/-- What waited until the home holds no line of a range: window settings and granules. -/
def settleHome (s : State) : State := settleGrans (settleWins s)

/-- Release a granule: firmware back-invalidates its lines, then it is zeroed and unassigned (R348, R359). -/
def releaseGran (g : Nat) (s : State) : State :=
  if rangeHeld s (granRange g) then
    let s := { s with mem := { s.mem with leaving := s.mem.leaving.filter (· != g) ++ [g] } }
    settleHome (backInvalRange (granRange g).1 (granRange g).2 s)
  else freeGranule g s

/-- Remove a site from every line (R485). -/
def dropSite (n : Nat) (s : State) : State :=
  settleHome (s.home.lines.foldl (fun s e => dropHolder n e.1 s) s)

/-! ### Fabric -/

/-- Zero what R160 names: vector registers, accumulators and local store. -/
def zeroCell (n : Nat) (s : State) : State := s.setCell n { s.cell n with v := [], acc := [], ls := [] }

/-- First logical cell of a quadrant column. [DESIGN CHOICE, log entry 10] -/
def cellBase (k : Nat) : Nat := k / 32 * 512 + k % 32 * 16

/-- Fence a quadrant column: it leaves service (R191). -/
def fenceCol (k : Nat) (s : State) : State :=
  traceAt (176 + k / 32) (s.col k).owner (s.setCol k { s.col k with fenced := true, arm := .none })

/-- The slot images that the resident image's active schedules give a logical cell (R63, R184, R198). -/
def residentSlots (s : State) (n : Nat) : Tab (BitVec 16384) :=
  (s.img.run.recs.filter (fun r => r.sec == 4 && decide (bits r.subject 0 11 ≤ n) &&
      decide (n < bits r.subject 0 11 + bits r.subject 11 11))).foldl
    (fun t r => Tab.set 0 t (bits r.subject 22 3) (BitVec.ofNat 16384 (leNat r.body))) []

/-- A logical cell that moves to another physical cell: zeroed, its slots written from the resident image (R160, R198). -/
def moveCell (n : Nat) (s : State) : State :=
  let t := residentSlots s n
  s.setCell n { s.cell n with v := [], acc := [], ls := [], slots := t, slotBad := 0 }

/-- Remap a physical row to the spare, or fence the column where the spare is in use or bad. Every logical cell that moves to
another physical cell starts zeroed; its slots are written again from the resident image (R160, R190, R198).
[DEDUCED, log entry 34] -/
def remapCol (k row : Nat) (s : State) : State :=
  let c := s.col k
  if c.spare || c.spareBad then fenceCol k s
  else
    let s := s.setCol k { c with spare := true, bypass := row, arm := .none }
    traceAt (176 + k / 32) c.owner ((List.range (16 - row)).foldl (fun s i => moveCell (cellBase k + row + i) s) s)

/-- The logical row that a physical row of a column holds: 16 stands for the spare (R190). -/
def logicalRow (c : Column) (phys : Nat) : Option Nat :=
  if !c.spare then (if phys < 16 then some phys else none)
  else if phys < c.bypass then some phys
  else if phys = c.bypass then none
  else some (phys - 1)

/-- The physical row of a logical row. -/
def physRow (c : Column) (row : Nat) : Nat := if c.spare && decide (c.bypass ≤ row) then row + 1 else row

/-- Column index and physical row of a physical cell number of a quadrant (R155). -/
def cellSpot (q cell : Nat) : Nat × Nat :=
  if cell < 512 then (q * 32 + cell / 16, cell % 16) else (q * 32 + (cell - 512) % 32, 16)

/-- Physical cell number within its quadrant of a logical cell. -/
def physCell (s : State) (n : Nat) : Nat :=
  let k := n / 512 * 32 + n % 512 / 16
  let r := physRow (s.col k) (n % 16)
  if r = 16 then 512 + k % 32 else k % 32 * 16 + r

/-! ### Owners -/

/-- Whether a unit's owner is RUNNING or WAITING, so that a change waits for its proof (R24, R817). -/
def ownerActive (s : State) : Option Nat → Bool
  | some p => (s.part p).active
  | none => false

/-- Whether a partition's active schedule uses a unit of a type and index (R818). -/
def schedUses (s : State) (p ty ix : Nat) : Bool := !(s.part p).excl.contains (ty, ix)

/-- FENCE in the next ARRIVE of each partition of a list that runs. -/
def markFence (ps : List Nat) (s : State) : State :=
  ps.foldl (fun s p => if (s.part p).active then markFlag p 3 s else s) s

/-! ### Memory units (R356 to R358) -/

def fenceBank (b : Nat) (s : State) : State :=
  let s := s.setBank b { s.bank b with fenced := true, zeroing := false, test := false, fencePend := false }
  { s with mem := s.mem.clear (bankBase b) (bankBase b + 0x500000) }

/-- A re-admitted bank is in service again once it has passed its start-up test and is zeroed (R358): until then nothing of it
is assigned. [DESIGN CHOICE, log entry 100] -/
def readmitBank (b : Nat) (s : State) : State :=
  s.setBank b { s.bank b with fenced := false, readmPend := false, zeroing := true, test := true }

def fenceChan (c : Nat) (s : State) : State :=
  let s := s.setChan c { s.chan c with fenced := true, zeroing := false, fencePend := false }
  { s with mem := s.mem.clear (chanBase (c / 32) (c % 32)) (chanBase (c / 32) (c % 32) + 0x80000000) }

/-- Whether a stack position may be powered at all: it is fitted, and the expected stack count agrees (R4, R336, R337). -/
def stackAllowed (s : State) (m : Nat) : Bool := (s.stack m).fitted && !stackMismatch s

/-- A re-admitted channel trains first; the position's domains switch on where they are off, the controller before the rail
(R23). `readmPend` stays set until the training ends. At a position that the hub never powers the training does not take
place and the channel stays fenced (R4, R336, R337). [DEDUCED, log entry 46] -/
def readmitChan (c : Nat) (s : State) : State :=
  let m := c / 32
  if !stackAllowed s m then s.setChan c { s.chan c with readmPend := false }
  else
    let s := s.setStack m { s.stack m with fenced := false, powered := true, onWait := [] }
    setDomain (58 + m) true (setDomain (16 + m) true (s.setChan c { s.chan c with readmPend := true }))

/-- Fence a stack position: the rail off before the controller domain, every channel fenced (R23, R356, R715). -/
def fenceStack (m : Nat) (s : State) : State :=
  let s := setDomain (16 + m) false (setDomain (58 + m) false s)
  let s := s.setStack m { s.stack m with fenced := true, powered := false, onWait := [] }
  (List.range 32).foldl (fun s ch => fenceChan (m * 32 + ch) s) s

/-! ### Transfer engines, collective units and step-link ports -/

def fenceXfe (e : Nat) (s : State) : State := s.setXfe e { s.xfe e with run := .fenced, fencePend := false }
def readmitXfe (e : Nat) (s : State) : State := s.setXfe e { s.xfe e with run := .idle, readmPend := false }
def fenceCunit (c : Nat) (s : State) : State := s.setCunit c { s.cunit c with run := .fenced, fencePend := false }
def readmitCunit (c : Nat) (s : State) : State := s.setCunit c { s.cunit c with run := .idle, readmPend := false }

/-- Partitions that use a step-link port and are RUNNING or WAITING. -/
def portUsers (s : State) (n : Nat) : List Nat :=
  s.enabledParts.filter (fun p => s.usesPort p n && (s.part p).active)

def fencePort (n : Nat) (peer : Bool) (s : State) : State :=
  traceAt (72 + n) none (s.setPort n { s.port n with state := .fenced, peerBad := peer, fenceWait := [] })
def readmitPort (n : Nat) (s : State) : State :=
  traceAt (72 + n) none (s.setPort n { s.port n with state := .training, peerBad := false, readmWait := [] })

/-! ### Sites (R406, R436) -/

/-- The halves of a site: a double site is one unit (R16). -/
def halves (s : State) (n : Nat) : List Nat :=
  let e := n / 2 * 2
  if (s.site e).double then [e, e + 1] else [n]

/-- Switch off a site's domain: the tick is kept, since the domain stays off for 10 ms (R410). -/
def coreOff (k : Nat) (s : State) : State :=
  let was := s.pwr.domains.getLsbD (40 + k)
  let now := s.clk.now
  setDomain (40 + k) false (s.modSite k (fun t =>
    { t with auxOn := false, amps := 0, watts := 0, offAt := if was then some now else t.offAt }))

/-- Switch a site off: SITE_CORE's domain before the PHY's (R22). -/
def offSite (n : Nat) (s : State) : State :=
  (halves s n).foldl (fun s k => setDomain (22 + k) false (coreOff k (s.modSite k (fun t => { t with offPend := false })))) s

/-- Complete the requests that the hub has sent an occupant: poison for reads, refusal for writes (R436, R461). -/
def failOuts (n : Nat) (s : State) : State :=
  let outs := (s.site n).outs
  let done : List Resp := outs.map (fun o => { tag := o.req, data := [], poison := true, refused := true })
  let s := s.modSite n (fun t => { t with outs := [] })
  { s with noc := { s.noc with resps := s.noc.resps ++ done } }

/-- Fence a site with a reason (R436): its crust refuses, its requests end, and its domains switch off, except at a
caching site that was admitted, which is flushed first (R484). A site that was never admitted holds no line.
[DEDUCED, log entry 50] -/
def fenceSite (n : Nat) (why : SReason) (flush : Bool) (s : State) : State :=
  let e := (halves s n).headD n
  let was := (s.site e).state
  let s := (halves s n).foldl (fun s k =>
    s.modSite k (fun t => { t with state := .fenced, reason := why, fencePend := none, readmPend := false, paused := false,
                                   startPend := false, arriveOut := false, configDone := false, tags := [] })) s
  let s := traceAt (88 + e) (s.site e).owner (failOuts e s)
  let s := { s with noc := { s.noc with reqs := s.noc.reqs.filter (fun r => !(r.held && r.who == .site e)) } }
  if flush && isCaching (s.site e) && (was == .admitted || was == .retrain) then flushSite e s
  else if flush then offSite e s
  else s.modSite e (fun t => { t with offPend := true })

/-! ### Requests that wait for a proof, or act at once (R24, R817) -/

/-- [DEDUCED, log entry 28] -/
def requestXfeFence (e : Nat) (s : State) : State :=
  let x := s.xfe e
  if x.run == .fenced then s
  else if ownerActive s x.owner || x.run != .idle then s.setXfe e { x with fencePend := true }
  else fenceXfe e s

def requestXfeReadmit (e : Nat) (s : State) : State :=
  let x := s.xfe e
  if ownerActive s x.owner then s.setXfe e { x with readmPend := true } else readmitXfe e s

def requestCunitFence (c : Nat) (s : State) : State :=
  let x := s.cunit c
  if x.run == .fenced then s
  else if ownerActive s x.owner || x.run != .idle then s.setCunit c { x with fencePend := true }
  else fenceCunit c s

def requestCunitReadmit (c : Nat) (s : State) : State :=
  let x := s.cunit c
  if ownerActive s x.owner then s.setCunit c { x with readmPend := true } else readmitCunit c s

def requestBankFence (b : Nat) (s : State) : State :=
  let x := s.bank b
  if x.fenced then s
  else if ownerActive s x.owner then s.setBank b { x with fencePend := true } else fenceBank b s

def requestBankReadmit (b : Nat) (s : State) : State :=
  let x := s.bank b
  if ownerActive s x.owner then s.setBank b { x with readmPend := true } else readmitBank b s

def requestChanFence (c : Nat) (s : State) : State :=
  let x := s.chan c
  if x.fenced then s
  else if ownerActive s x.owner then s.setChan c { x with fencePend := true } else fenceChan c s

/-- The partitions that use a stack position and are RUNNING or WAITING: they own a channel of it that their schedule does
not exclude (R24, R818). -/
def stackUsers (s : State) (m : Nat) : List Nat :=
  s.enabledParts.filter (fun p => (s.part p).active && schedUses s p 4 m &&
    (List.range 32).any (fun ch => (s.chan (m * 32 + ch)).owner == some p && schedUses s p 3 (m * 32 + ch)))

/-- A channel's re-admission waits for its owner's proof; where the position's domains have to switch on, it waits for the
proof of every running partition that uses the position as well (R24, R358). -/
def requestChanReadmit (c : Nat) (s : State) : State :=
  let m := c / 32
  let own := ownerActive s (s.chan c).owner
  let users := stackUsers s m ++ (if own then (s.chan c).owner.toList.filter (fun p => !(stackUsers s m).contains p) else [])
  if s.pwr.domains.getLsbD (16 + m) then
    if own then s.setChan c { s.chan c with readmPend := true } else readmitChan c s
  else if users.isEmpty then readmitChan c s
  else (s.setChan c { s.chan c with readmPend := true }).setStack m { s.stack m with onWait := users }

/-- A request or an escalation fences an UP port; in another state nothing in R495 answers it. [DEDUCED, log entry 55] -/
def requestPortFence (n : Nat) (s : State) : State :=
  let us := portUsers s n
  if (s.port n).state != .up then s
  else if us.isEmpty then fencePort n false s else s.setPort n { s.port n with fenceWait := us }

def requestPortReadmit (n : Nat) (s : State) : State :=
  let us := portUsers s n
  if us.isEmpty then readmitPort n s else s.setPort n { s.port n with readmWait := us }

def requestSiteFence (n : Nat) (why : SReason) (s : State) : State :=
  let e := (halves s n).headD n
  let t := s.site e
  if t.state == .fenced || (t.state == .off && !t.startPend) then s
  else if ownerActive s t.owner then s.setSite e { t with fencePend := some why } else fenceSite e why true s

def requestColFence (k : Nat) (s : State) : State :=
  let c := s.col k
  if c.fenced then s
  else if ownerActive s c.owner then s.setCol k { c with arm := .fence } else fenceCol k s

/-- A remap to the spare; a second row of the column that is to be replaced leaves no spare for it, so the column is fenced
(R193). -/
def requestColRemap (k row : Nat) (s : State) : State :=
  let c := s.col k
  if c.fenced then s
  else if ownerActive s c.owner then s.setCol k { c with arm := match c.arm with
    | .none => .remap row
    | .remap r => if r = row then .remap row else .fence
    | .fence => .fence }
  else remapCol k row s

/-! ### What a partition's proof applies (R24, R194, R357, R436) -/

/-- Apply what is armed on a partition's columns. -/
def proofCols (p : Nat) (s : State) : State :=
  (Tab.keysWhere s.fab.cols (fun c => c.owner == some p && c.arm != .none)).foldl (fun s k =>
    let c := s.col k
    let s := match c.arm with
      | .remap row => remapCol k row s
      | _ => fenceCol k s
    markFlag p 3 s) s

/-- Apply the fences and re-admissions armed on engines, collective units, banks and channels. -/
def proofUnits (p : Nat) (s : State) : State :=
  let s := (Tab.keysWhere s.xfes (fun x => x.owner == some p && x.fencePend && x.run == .idle)).foldl
    (fun s e => markFlag p 3 (fenceXfe e s)) s
  let s := (Tab.keysWhere s.xfes (fun x => x.owner == some p && x.readmPend)).foldl (fun s e => readmitXfe e s) s
  let s := (Tab.keysWhere s.cols (fun x => x.owner == some p && x.fencePend && x.run == .idle)).foldl
    (fun s c => markFlag p 3 (fenceCunit c s)) s
  let s := (Tab.keysWhere s.cols (fun x => x.owner == some p && x.readmPend)).foldl (fun s c => readmitCunit c s) s
  let s := (Tab.keysWhere s.mem.banks (fun x => x.owner == some p && x.fencePend)).foldl
    (fun s b => let s := fenceBank b s; if schedUses s p 2 b then markFlag p 3 s else s) s
  let s := (Tab.keysWhere s.mem.banks (fun x => x.owner == some p && x.readmPend)).foldl (fun s b => readmitBank b s) s
  let s := (Tab.keysWhere s.mem.chans (fun x => x.owner == some p && x.fencePend)).foldl
    (fun s c => let s := fenceChan c s; if schedUses s p 3 c then markFlag p 3 s else s) s
  let ready := fun (s : State) (c : Nat) => (s.stack (c / 32)).onWait.all (· == p)
  let mine := Tab.keysWhere s.mem.chans (fun x => x.readmPend && x.fenced)
  let go := mine.filter (fun c => ready s c && ((s.chan c).owner == some p || (s.stack (c / 32)).onWait.contains p))
  let s := go.foldl (fun s c => readmitChan c s) s
  (List.range 6).foldl (fun s m =>
    if (s.stack m).onWait.contains p then s.setStack m { s.stack m with onWait := (s.stack m).onWait.filter (· != p) } else s) s

/-- Apply the fences and re-admissions of step-link ports that waited for this partition last. -/
def proofPorts (p : Nat) (s : State) : State :=
  (List.range 8).foldl (fun s n =>
    let q := s.port n
    let fw := q.fenceWait.filter (· != p)
    let rw := q.readmWait.filter (· != p)
    let fire := !q.fenceWait.isEmpty && fw.isEmpty
    let back := !q.readmWait.isEmpty && rw.isEmpty
    if q.fenceWait.isEmpty && q.readmWait.isEmpty then s
    else
      let s := s.setPort n { q with fenceWait := fw, readmWait := rw }
      let s := if fire then markFence (portUsers s n) (fencePort n false s) else s
      if back then readmitPort n s else s) s

/-- Apply what is armed on a partition's sites: switch-offs that were due, then fences, then the PHY domain of a
re-admission; the site domain of an admission that started has its own proof (R24, R436, R438, R439, R484). -/
def proofSitesApply (p : Nat) (s : State) : State :=
  let due := Tab.keysWhere s.sites (fun t => t.owner == some p && !t.upper && t.offPend)
  let s := due.foldl (fun s n => offSite n s) s
  let fs := Tab.keysWhere s.sites (fun t => t.owner == some p && !t.upper && t.fencePend.isSome)
  let s := fs.foldl (fun s n => markFlag p 3 (fenceSite n ((s.site n).fencePend.getD .host) true s)) s
  (Tab.keysWhere s.sites (fun t => t.owner == some p && !t.upper && t.readmPend)).foldl (fun s n =>
    (halves s n).foldl (fun s k => setDomain (22 + k) true (s.modSite k (fun t => { t with state := .off, reason := .none, readmPend := false }))) s) s

/-- Everything that a partition's proof in this package applies (R436, R24). [DEDUCED, log entry 28] -/
def applyProof (p : Nat) (s : State) : State :=
  proofSitesApply p (proofPorts p (proofUnits p (proofCols p s)))

/-- A partition has left RUNNING and WAITING: what was armed for its next proof applies at once, and sets no FENCE flag
(R817). -/
def settleArmed (p : Nat) (s : State) : State :=
  let f := (s.part p).flags.getLsbD 3
  (applyProof p s).modPart p (fun x => { x with flags := putBit x.flags 3 f })

end Sys2Proof.Machine
end

