-- ==== Sys2Proof/Machine/Flags.lean ====
section
/-! DEFINITION. The fault groups: detection, grace, escalation, the package stop, ERR_N and the interrupt line
(R550, R551, R695 to R718, R805 to R807). -/
namespace Sys2Proof.Machine
open Sys2Proof

/-! ### ERR_N and INTA -/

/-- Groups that have an unmasked status bit set. -/
def pendingGroups (s : State) : List Nat :=
  (List.range 29).filter (fun g => let x := s.grp g; (x.status &&& ~~~ x.mask) != 0)

/-- The interrupt level of R550. -/
def intLevel (s : State) : Bool :=
  !(pendingGroups s).isEmpty || s.vis.any (fun e => (e.2.intPend &&& e.2.intEn) != 0)

/-- ERR_N in level mode follows the unmasked status bits; in heartbeat mode it is held low while any is set and
otherwise toggles on its own (R710, R711). Before ROM has read the mode the pin is held low (R786). -/
def refreshPin (s : State) : State :=
  let any := !(pendingGroups s).isEmpty
  let pin := if !s.flt.modeRead then false
             else if any then false
             else if s.flt.heartbeat then s.flt.pin else true
  if pin = s.flt.pin then s else { s with flt := { s.flt with pin := pin } }.emit (.errN pin)

/-- INTA follows the level while the link is up and Interrupt Disable is clear; Interrupt Status follows the level
always (R551). -/
def refreshInt (s : State) : State :=
  let l := intLevel s
  let s := { s with host := { s.host with intStatus := l } }
  let want := l && !s.host.intDisable
  if s.host.linkUp && want != s.host.inta then { s with host := { s.host with inta := want } }.emit (.inta (hubTlp .untranslated) want) else s

/-- Both lines. -/
def refresh (s : State) : State := refreshInt (refreshPin s)

/-! ### Stopping partitions and the package (R110, R301, R531, R707) -/

/-- Hold a completion entry at a virtual interface until it can be written (R571, R574), and drop the command it ends. -/
def holdEntry (v tag : Nat) (st : Status) (detail : Nat) (s : State) : State :=
  let x := s.vi v
  match x.cmds.find? (fun c => c.tag == tag) with
  | none => s
  | some c =>
    let entry := fun (c : Cmd) (st : Status) (d : Nat) =>
      ({ status := st, opcode := c.opcode, cmdId := c.cmdId, step := c.step, detail := BitVec.ofNat 32 d } : CplEntry)
    let left := x.cmds.filter (fun c => c.tag != tag)
    match x.barrier, left with
    | true, [b] => if b.opcode = 3 then s.setVi v { x with cmds := [], barrier := false, held := x.held ++ [entry c st detail, entry b .ok 0] }
                   else s.setVi v { x with cmds := left, held := x.held ++ [entry c st detail] }
    | _, _ => s.setVi v { x with cmds := left, held := x.held ++ [entry c st detail] }

/-- End the command behind a descriptor. -/
def endSource (src : XSource) (st : Status) (detail : Nat) (s : State) : State :=
  match src with
  | .command v tag _ _ => holdEntry v tag st detail s
  | _ => s

/-- Pool index of a descriptor. -/
def XSource.index : XSource → Nat
  | .pool _ _ i => i
  | .command _ _ _ i => i
  | .fw _ => 0

/-- A transfer engine whose partition enters STOPPED (R301): from any state it is IDLE, and its descriptor ends ABORTED. A Page
Request that the host holds stays outstanding until its response (R308). [DEDUCED, log entry 40] -/
def stopXfe (e : Nat) (s : State) : State :=
  let x := s.xfe e
  let s := match x.cur with
    | some c => endSource c.desc.src .aborted c.rows s
    | none => s
  let s := x.queue.foldl (fun s d => endSource d.src .aborted 0 s) s
  let x := s.xfe e
  let y := match x.cur with
    | some c => { x with lastStat := .aborted, lastFlags := BitVec.ofNat 8 c.flags, lastDesc := BitVec.ofNat 16 c.desc.src.index,
                         cursor := c.endCursor .aborted, failedN := BitVec.ofNat 32 c.failed.length }
    | none => x
  s.setXfe e { y with run := .idle, queue := [], cur := none, pageWait := false, ringVi := none }

/-- A collective unit whose partition enters STOPPED: it goes IDLE, and its operation ends ABORTED with no completion record
(R529, R531). [DEDUCED, log entry 56] -/
def stopCunit (c : Nat) (s : State) : State :=
  let x := s.cunit c
  match x.cur with
  | none => s.setCunit c { x with run := if x.run == .fenced then .fenced else .idle, queue := [] }
  | some o =>
    let s := s.setCunit c { x with run := .idle, cur := none, queue := [], lastStat := .aborted, lastFlags := BitVec.ofNat 8 o.flags,
                                   lastDesc := BitVec.ofNat 16 o.index, failedN := BitVec.ofNat 32 o.failed.length }
    if x.run == .wait || o.aborted then s else sendAborts c o s

/-- Slots held for a partition are discarded and their credits returned (R531). -/
def dropSlots (p : Nat) (s : State) : State :=
  (List.range 8).foldl (fun s n =>
    let q := s.port n
    let mine := q.rx.filter (fun sl => rfld sl.hdr 0 1 6 == p)
    if mine.isEmpty then s
    else sendCredit n p mine.length (s.setPort n { q with rx := q.rx.filter (fun sl => rfld sl.hdr 0 1 6 != p) })) s

/-- Keys of the granules that a context owns. -/
def ctxGrans (s : State) (ctx : Nat) : List Nat := Tab.keysWhere s.mem.own (fun g => g.owner == ctx)

/-- Ask for the zeroing of granules that are not zeroed already. [DEDUCED, log entry 43] -/
def askZero (gs : List Nat) (s : State) : State :=
  let new := gs.filter (fun g => !(s.granule g).zeroed && !s.mem.toZero.contains g)
  { s with mem := { s.mem with toZero := s.mem.toZero ++ new } }

/-- Zero the state of every cell of a partition's columns (R160, R605). -/
def zeroCols (p : Nat) (s : State) : State :=
  (Tab.keysWhere s.fab.cols (fun c => c.owner == some p)).foldl (fun s k =>
    (List.range 16).foldl (fun s r => zeroCell (cellBase k + r) s) s) s

/-- A seal session ends (R605, R622): its reason is recorded, SEAL is set, the handshake values are cleared, the key
slot waits to be wiped, and the zeroing of its reason is asked for. An OPEN that was under way has ended ABORTED.
[DEDUCED, log entry 62] -/
def endSession (v reason : Nat) (s : State) : State :=
  let x := s.sealOf v
  if x.state == .none then s
  else
    let s := s.setSeal v { x with state := .none, result := if x.state == .busy then .aborted else x.result, endReason := reason, qh := 0, nh := 0, meas := 0, sig := 0,
                                  wiping := x.key.isSome }
    let s := s.modVi v (fun w => { w with intPend := w.intPend ||| 16#5 })
    let s := if reason = 1 ∨ reason = 7 then s else askZero (ctxGrans s v) s
    if reason = 4 ∨ reason = 5 then
      (match s.partOfVi v with | some p => zeroCols p s | none => s)
    else s

/-- Packets held at the ports of a partition that stops are discarded; an occupant's request among them ends ABORTED
(R394). -/
def dropHeld (p : Nat) (s : State) : State :=
  let mine := s.noc.reqs.filter (fun r => r.held && r.part == p)
  let s := { s with noc := { s.noc with reqs := s.noc.reqs.filter (fun r => !(r.held && r.part == p)) } }
  mine.foldl (fun s r => match r.use with
    | .site n tg _ => geljaTo n (if r.write then 4 else 3)
        { tag := BitVec.ofNat 12 tg, ctx := BitVec.ofNat 10 r.ctx, status := 6, poison := !r.write,
          len := if r.write then 0 else BitVec.ofNat 3 (r.len / 64) } s
    | _ => s) s

/-- A partition enters STOPPED: its engines and units go idle with their work ABORTED, and a step that ran ends
ABORTED (R110, R145, R301, R531). -/
def stopPartition (p : Nat) (s : State) : State :=
  let x := s.part p
  if x.state == .stopped then s
  else
    let s := (Tab.keysWhere s.xfes (fun e => e.owner == some p)).foldl (fun s e => stopXfe e s) s
    let s := (Tab.keysWhere s.cols (fun c => c.owner == some p)).foldl (fun s c => stopCunit c s) s
    let s := dropHeld p (dropSlots p s)
    let s := (s.visOf p).foldl (fun s v => endSession v 5 s) s
    let s := s.modPart p (fun x => { x with lastStatus := if x.active || (x.state == .held && !x.heldDone) then .aborted else x.lastStatus, armed := none,
                                            ready := none, readySent := false, children := [], endLocal := none,
                                            arrival := none, arriveSent := false, breakDue := false, holdNext := false,
                                            benchFrom := none, revived := true })
    let s := settleArmed p (setPState p .stopped .none s)
    (s.wireSites p).foldl (fun s n =>
      if (s.site n).arriveOut then (s.modSite n (fun t => { t with arriveOut := false })).emit (.arriveOut n false) else s) s

/-- Firmware-switched domains switch off: the domains that R21 keeps on stay on; memory in them is lost, sites and
step links lose their links, and no occupant caches a line any more (R707, R329). -/
def domainsOff (s : State) : State :=
  let on := s.pwr.domains
  let s := { s with pwr := { s.pwr with domains := 0x900F#64 },
                    mem := { s.mem with bytes := [], poison := [],
                                        stackTab := Tab.mapV {} (fun _ x => { x with powered := false }) s.mem.stackTab },
                    fab := { s.fab with quads := Tab.mapV {} (fun _ x => { x with powered := false }) s.fab.quads },
                    ports := Tab.mapV {} (fun _ (x : Port) => if x.state == PortState.fenced then x else { x with state := .off }) s.ports }
  let was := fun (n : Nat) => on.getLsbD (40 + n)
  let wins := s.home.cohPend.foldl (fun t e => Tab.set 0 t e.1 e.2) s.home.cohWins
  { s with home := { cohWins := wins },
           sites := Tab.mapV {} (fun n (t : Site) =>
             let t := { t with auxOn := false, amps := 0, watts := 0, fencePend := none, offPend := false, startPend := false,
                               flushing := false, flushOdd := false, snoops := [], snpQ := [], goWait := [], outs := [], tags := [],
                               configDone := false, offAt := if was n then some s.clk.now else t.offAt }
             if t.state == SState.fenced then t else { t with state := .off }) s.sites }

/-- BREAK for every proof domain on every proof port and mirror (R707). -/
def breakAll (s : State) : State :=
  s.enabledParts.foldl (fun s p =>
    let t := mkToken .brk p 0 ((s.part p).step.toNat % 2 ^ 32) (s.clk.now.toNat % 2 ^ 48)
    (List.range 8).foldl (fun s n => sendToken n t s) s) s

/-- Groups whose grace timer runs under an action other than LOG (R705, R806). -/
def graceGroups (s : State) : List Nat :=
  (List.range 29).filter (fun g => let x := s.grp g; x.timer && x.action != .log)

/-- A peel that has not jumped is abandoned: the running image runs on (R771). -/
def dropPeel (s : State) : State :=
  match s.mgt.peel with
  | .none | .jumped => s
  | .staged | .deferred => { s with mgt := { s.mgt with peel := .none, staged := none, deferAt := none } }
  | .handover => { s with mgt := { s.mgt with peel := .none, staged := none, deferAt := none, unavail := false },
                          sites := Tab.mapV {} (fun _ (t : Site) => { t with paused := false }) s.sites }

/-- STOP_PACKAGE (R707, R708): partitions stop, BREAK goes out, domains switch off, the cause is recorded, and the
status bits that the host driver has to answer are noted. [DEDUCED, log entry 71] -/
def stopPackage (cause group bit : Nat) (s : State) : State :=
  if s.flt.stopped then s
  else
    let names := group :: graceGroups s
    let s := (List.range 64).foldl (fun s p => stopPartition p s) s
    let s := dropPeel (domainsOff (breakAll s))
    let s := names.foldl (fun s g => s.setGrp g { s.grp g with answer := (s.grp g).status }) s
    { s with flt := { s.flt with stopped := true, cause := cause, causeGrp := group, causeBit := bit } }

/-! ### Escalation (R699 to R701) -/

/-- The package-wide groups of R701. -/
def wideGroup (g : Nat) : Bool := decide (g ≤ 11) || g == 15 || g == 28

/-- The unit of a fault that names none. -/
def noUnit : Nat := 2 ^ 60

/-- The partitions that own or use a unit of a group (R700, R701); a fault that names no unit concerns none.
[DEDUCED, log entry 70] -/
def unitParts (s : State) (g unit : Nat) : List Nat :=
  if wideGroup g then s.enabledParts
  else if unit = noUnit then []
  else if g = 12 then (s.xfe unit).owner.toList
  else if g = 13 then (s.cunit unit).owner.toList
  else if g = 14 then s.enabledParts.filter (fun p => s.usesPort p unit)
  else if g = 16 then (s.site unit).owner.toList
  else if g = 23 then (s.bank (unit / 0x800000)).owner.toList
  else if 17 ≤ g ∧ g ≤ 22 then
    (if unit < 32 then (s.chan ((g - 17) * 32 + unit)).owner.toList
     else match paSpot s unit with
       | .hbm m ch _ => (s.chan (m * 32 + ch)).owner.toList
       | _ => [])
  else (s.col (cellSpot (g - 24) unit).1).owner.toList

/-- HOLD_PARTITION for one partition (R110, R111, R716): a HELD partition shows FAULT; a WAITING one with no release
armed holds at once; a RUNNING one, or one whose release stands, holds at its next proof. -/
def holdForFault (p : Nat) (s : State) : State :=
  let x := s.part p
  match x.state with
  | .held => s.modPart p (fun x => { x with hold := .fault, holds := x.holds ||| 8#7 })
  | .waiting => if x.armed.isSome then s.modPart p (fun x => { x with fault := true })
                else settleArmed p (setPState p .held .fault (s.modPart p (fun x => { x with holds := x.holds ||| 8#7 })))
  | .running => s.modPart p (fun x => { x with fault := true })
  | _ => s

/-- Ask for the repair of a row in service (R354): after the owner's next local arrival, or at once where the owner
does not run. -/
def requestRepair (pa : Nat) (s : State) : State :=
  let part : Option Nat := match paSpot s pa with
    | .sram b _ => (s.bank b).owner
    | .hbm m ch _ => (s.chan (m * 32 + ch)).owner
    | _ => none
  let r : RowDue := { pa := pa, part := part }
  if s.mem.due.contains r then s else { s with mem := { s.mem with due := s.mem.due ++ [r] } }

/-- A SYNC is met once every logical cell of the column waits with the same number (R169); a cell that R196 has ended
no longer counts (a reading: the rest of the column has to be able to arrive). -/
def syncColumn (k : Nat) (s : State) : State :=
  let cs := (List.range 16).map (fun r => cellBase k + r)
  let live := cs.filter (fun n => !(s.cell n).killed)
  match live.map (fun n => (s.cell n).sync) with
  | some t :: rest =>
    if rest.all (· == some t) then live.foldl (fun s n => s.setCell n { s.cell n with sync := none }) s else s
  | _ => s

/-- End a failing cell at once: its outstanding writes complete with poison (R196). -/
def killCell (n : Nat) (s : State) : State :=
  let s := { s with noc := { s.noc with reqs := s.noc.reqs.map (fun (r : Req) =>
      if r.who == Initiator.cell n && r.write && !r.gone then { r with poison := true } else r) } }
  syncColumn (n / 512 * 32 + n % 512 / 16)
    (s.setCell n { s.cell n with done := true, killed := true, writes := 0, sync := none, rets := [] })

/-- A unit found bad in service becomes a finding, by DATA of R730: the count in the last-good test record starts at 1
(R735). [DEDUCED, log entry 73] -/
def addFinding (d : BitVec 32) (s : State) : State :=
  let put := fun (l : List (BitVec 32 × Nat)) => if l.any (fun f => f.1 == d) then l else l ++ [(d, 1)]
  { s with mgt := { s.mgt with findings := put s.mgt.findings,
                               flash := { s.mgt.flash with good := s.mgt.flash.good.map (fun (g : GoodRec) => { g with findings := put g.findings }) } } }

/-- FENCE_UNIT for one unit of a group (R193, R196, R354, R363, R444, R534, R700). -/
def fenceUnit (g bit unit : Nat) (s : State) : State :=
  if unit = noUnit then s
  else if g = 12 then requestXfeFence unit s
  else if g = 13 then requestCunitFence unit s
  else if g = 14 then requestPortFence unit s
  else if g = 16 then requestSiteFence unit (if bit = 7 then .crust else .fault) s
  else if g = 23 then (if bit = 1 then requestRepair unit s else s)
  else if 17 ≤ g ∧ g ≤ 22 then
    (if bit = 1 then requestRepair unit s
     else if bit = 4 ∨ bit = 5 then requestChanFence ((g - 17) * 32 + unit) s else s)
  else if 24 ≤ g ∧ g ≤ 27 then
    let sp := cellSpot (g - 24) unit
    let c := s.col sp.1
    let row := logicalRow c sp.2
    let s := addFinding (BitVec.ofNat 32 (0x10000000 + (g - 24) * 1024 + unit)) s
    let s := match row with
      | some r => if (s.cell (cellBase sp.1 + r)).done && (s.cell (cellBase sp.1 + r)).writes == 0 then s else killCell (cellBase sp.1 + r) s
      | none => s
    if sp.2 = 16 && !c.spare && bit ≠ 9 then s.setCol sp.1 { s.col sp.1 with spareBad := true }
    else if bit = 9 || c.spare || c.spareBad then requestColFence sp.1 s else requestColRemap sp.1 sp.2 s
  else s

/-- Perform a group's ACTION for units (R700): none under LOG, and none once the package has stopped (R716). The
package stop is the caller's. [DEDUCED, log entry 70] -/
def performAction (g : Nat) (units : List (Nat × Nat)) (s : State) : State :=
  let x := s.grp g
  if s.flt.stopped then s
  else match x.action with
  | .log => s
  | .fenceUnit => units.foldl (fun s u => fenceUnit g u.1 u.2 s) s
  | .holdPartition => (units.flatMap (fun u => unitParts s g u.2)).foldl (fun s p => holdForFault p s) s
  | .stopPackage => s

/-- Bits of a group that are unacknowledged and unmasked. -/
def FGroup.live (x : FGroup) : Word := x.unacked &&& ~~~ x.mask

/-- The timer stops when no unmasked fault remains unacknowledged (R698); units of acknowledged faults are forgotten. -/
def settleGroup (g : Nat) (s : State) : State :=
  let x := s.grp g
  s.setGrp g { x with timer := x.timer && x.live != 0, units := x.units.filter (fun u => x.unacked.getLsbD u.1) }

/-- Mark a unit in its block's unit register; VIF's names the last VI concerned (R320, R444, R534, R537, R582). -/
def markUnit (g unit : Nat) (x : FGroup) : FGroup :=
  if unit = noUnit then x
  else if g = 2 then { x with unitReg := BitVec.ofNat 64 unit }
  else if g = 12 ∨ g = 13 ∨ g = 14 ∨ g = 16 then { x with unitReg := putBit x.unitReg unit true } else x

/-- The escalation of a group: its ACTION for every unit with an unacknowledged unmasked fault; those faults count as
acknowledged; the timer is idle (R699, R704). The first result says whether the package has to stop. [DEDUCED, log entry 70] -/
def escalateOnce (g : Nat) (s : State) : Bool × State :=
  let x := s.grp g
  let units := x.units.filter (fun u => x.live.getLsbD u.1)
  let stop := x.action == .stopPackage && !s.flt.stopped
  let s := performAction g units s
  let x := s.grp g
  let s := s.setGrp g { x with unacked := x.unacked &&& x.mask, timer := false,
                               units := x.units.filter (fun u => x.mask.getLsbD u.1) }
  (stop, if x.action == .log || s.flt.stopped then s else { s with flt := { s.flt with escal := satInc s.flt.escal } })

/-- Detection of a fault (R697 to R699, R704 to R706). The fuel bounds the faults that detection itself raises in the
FLT group. [DEDUCED, log entry 70] -/
def detectN : Nat → Nat → Nat → Nat → State → State
  | 0, g, bit, _, s => s.setGrp g { s.grp g with status := putBit (s.grp g).status bit true }
  | k + 1, g, bit, unit, s =>
    let x := s.grp g
    let x := markUnit g unit { x with status := putBit x.status bit true, unacked := putBit x.unacked bit true,
                                      units := if x.units.contains (bit, unit) then x.units else x.units ++ [(bit, unit)] }
    let s := (s.setGrp g x).emit (.faultSignal g bit)
    let stopFor := fun (cause : Nat) (s : State) =>
      if s.flt.stopped then s
      else
        let s := stopPackage cause g bit s
        let s := if cause = 2 then detectN k 7 2 0 s else s
        detectN k 7 1 0 s
    if x.mask.getLsbD bit || x.action == .log || s.flt.stopped then s
    else if x.timer then
      -- a second fault within one recovery (R704)
      let r := escalateOnce g s
      let s := if r.1 then stopFor 1 r.2 else r.2
      detectN k 7 3 0 s
    else if x.grace = 0 then
      let r := escalateOnce g s
      if r.1 then stopFor 1 r.2 else r.2
    else
      let s := s.setGrp g { s.grp g with timer := true, started := s.clk.now }
      let th := s.flt.thresh
      if th ≠ 0 ∧ th ≤ (graceGroups s).length then stopFor 2 s else s

/-- A block detects a fault (R698): group, status bit, unit. -/
def raise (g bit unit : Nat) (s : State) : State := refresh (detectN 6 g bit unit s)

/-- Several faults in order. -/
def raiseAll (fs : List (Nat × Nat × Nat)) (s : State) : State := fs.foldl (fun s f => raise f.1 f.2.1 f.2.2 s) s

/-- A refused write (R40): PARAM_REFUSED in the block's group. A register in a unit's own window names that unit, any other
register names none. [DEDUCED, log entry 16] -/
def refuseWrite (g : Nat) (s : State) (unit : Nat := noUnit) : State := raise g 0 unit s

/-- Stop the package by a TRIP of the hub (R684, R717). [DEDUCED, log entry 68] -/
def tripPackage (s : State) : State := if s.flt.stopped then s else refresh (detectN 6 7 1 0 (stopPackage 3 6 0 s))

/-- Acknowledge bits of a group (R696, R698, R708). -/
def ackBits (g : Nat) (v : Word) (s : State) : State :=
  let x := s.grp g
  refresh (settleGroup g (s.setGrp g { x with unacked := x.unacked &&& ~~~ v, answer := x.answer &&& ~~~ v }))

/-- Clear status bits of a group by a W1C write, which also acknowledges them (R696, R708). -/
def clearBits (g : Nat) (v : Word) (s : State) : State :=
  let x := s.grp g
  let s := s.setGrp g { x with status := x.status &&& ~~~ v }
  ackBits g v s

/-- Every group that R708 names has been answered since the stop. -/
def stopAnswered (s : State) : Bool := (List.range 29).all (fun g => (s.grp g).answer == 0)

/-! ### Blocks and their groups (R52 to R54, R695) -/

/-- The fault group of the block at a BAR0 offset. -/
def groupAt (a : Nat) : Option Nat :=
  if a < 0x100000 then some (a / 0x10000)
  else if a < 0x112000 then some 16
  else if 0x200000 ≤ a ∧ a < 0x260000 then some (17 + (a - 0x200000) / 0x10000)
  else if 0x300000 ≤ a ∧ a < 0x400000 then some 23
  else if 0x400000 ≤ a ∧ a < 0x500000 then some (24 + (a - 0x400000) / 0x40000)
  else if 0x800000 ≤ a ∧ a < 0x900000 then some 28
  else none

/-- BAR0 offset of a group's registers (R52, R53). -/
def groupBase (g : Nat) : Nat :=
  if g < 16 then g * 0x10000 + 0xF000
  else if g = 16 then 0x10F000
  else if g < 23 then 0x200000 + (g - 17) * 0x10000 + 0xF000
  else if g = 23 then 0x30F000
  else if g < 28 then 0x400000 + (g - 24) * 0x40000 + 0xF000
  else 0x80F000

/-- Status bits whose checker injection reaches (R805). -/
def injectable (g : Nat) : Nat :=
  if g = 0 then 0x20 else if g = 4 then 0x4 else if g = 8 then 0x10 else if g = 10 then 0x42
  else if g = 12 then 0xC0 else if g = 13 then 0x40 else if g = 14 then 0x8 else if g = 15 then 0x2
  else if 17 ≤ g ∧ g ≤ 22 then 0x22 else if g = 23 then 0x2 else if 24 ≤ g ∧ g ≤ 27 then 0x3E else 0

/-- Fire an armed injection (R712): the checker behind a status bit finds a corrected error with one inverted bit and
an uncorrectable one with two, where its code corrects (R713); the ARM bit clears. None: nothing armed. [DEDUCED, log entry 20] -/
def fireInject (g bit : Nat) (corrects : Bool) (s : State) : Option Ecc × State :=
  let x := s.grp g
  if x.inject.getLsbD bit then
    let e : Ecc := if corrects && !x.inject.getLsbD 31 then .corrected else .uncorrectable
    (some e, s.setGrp g { x with inject := putBit x.inject bit false })
  else (none, s)

/-- The outcome of a check: what an armed injection makes of it, else what came. [DEDUCED, log entry 20] -/
def checkEcc (g bit : Nat) (corrects : Bool) (e : Ecc) (s : State) : Ecc × State :=
  match fireInject g bit corrects s with
  | (some f, s) => (if e == .uncorrectable then e else f, s)
  | (none, s) => (e, s)

end Sys2Proof.Machine
end

