-- ==== Sys2Proof/Machine/MgtOps.lean ====
section
/-! DEFINITION. What firmware's commands share: the life-cycle state as OTP gives it, the management mailbox, and the fetch
of an argument from host memory (R620 to R628, R757 to R759). -/
namespace Sys2Proof.Machine
open Sys2Proof

/-! ### Life-cycle fields (R625 to R628) -/

/-- The three copies of a field. -/
def copies (o : Otp) (f : Nat) : List (BitVec 16) := (List.range 3).map (fun c => Tab.get 0 o.fields (f * 3 + c))

/-- A field reads as burnt with at least 12 of 16 bits in at least 2 of 3 copies (R626). -/
def burnt (o : Otp) (f : Nat) : Bool := decide (2 ≤ ((copies o f).filter (fun c => decide (12 ≤ popcount 16 c.toNat))).length)

/-- A field is partly burnt (R626). -/
def partlyBurnt (o : Otp) (f : Nat) : Bool :=
  (copies o f).any (fun c => decide (5 ≤ popcount 16 c.toNat)) && (!burnt o f || (copies o f).any (fun c => c != 0xFFFF#16))

/-- The life-cycle state by code: 0 MAKER, 1 INTEGRATOR, 2 FIELDED, 3 RETURNED, 4 SCRAPPED (R623, R628). -/
def lifeCycle (s : State) : Nat :=
  let o := s.lcs.otp
  if burnt o 3 then 4 else if burnt o 2 then 3 else if burnt o 1 then 2 else if burnt o 0 then 1 else 0

/-! ### The mailbox (R757, R758) -/

/-- Argument words and 64-bit arguments. [DESIGN CHOICE, log entry 79] -/
def mbArg (s : State) (n : Nat) : Nat := (Tab.get 0 s.mgt.args n).toNat
def mbArg64 (s : State) (n : Nat) : Nat := mbArg s n + mbArg s (n + 1) * 2 ^ 32

/-- Completion of a command: response words, STATUS and TAG are written, BUSY clears and DONE is set.
[DESIGN CHOICE, log entry 79] -/
def mbEnd (st : Status) (resp : List Nat) (s : State) : State :=
  { s with mgt := { s.mgt with busy := false, done := true, mbStatus := st, mbTag := s.mgt.curTag,
                               resp := (List.range resp.length).foldl (fun t i => Tab.set 0 t i (BitVec.ofNat 32 (resp.getD i 0))) s.mgt.resp } }

/-- A GO: refused while BUSY or UNAVAILABLE (R757). In flatbread mode ROM serves 0x01, 0x30 and 0x31 only, and in SCRAPPED
nothing (R624, R758). [DEDUCED, log entry 76; DESIGN CHOICE, log entry 79] -/
def mbCommand (op : Nat) (tag : BitVec 8) (run : State → State) (s : State) : State :=
  if s.mgt.busy || s.mgt.unavail then refuseWrite 0 s
  else
    let s := { s with mgt := { s.mgt with busy := true, done := false, curTag := tag } }
    if lifeCycle s = 4 then mbEnd .denied [] s
    else if s.mgt.stage == .flatbread && !(op == 1 || op == 0x30 || op == 0x31) then mbEnd .denied [] s
    else run s

/-! ### Fetching an argument (R759) -/

/-- The host window entry that firmware uses: the highest index that is not valid. -/
def freeWindow (s : State) : Option Nat :=
  ((List.range 4096).reverse).find? (fun i => !rbit (Tab.get 0 s.xlt.hwt i) 0 63)

/-- A window entry of context 0 over an IOVA range. The manual gives no DVA for it: DVA_BASE is a free value in the host
window, 2 MiB aligned. -/
def fetchWindow (iova len : Nat) (s : State) : Option (Nat × State) :=
  match freeWindow s with
  | none => none
  | some i =>
    let lo := iova / 4096 * 4096
    let size := (iova + len - lo + 0x1FFFFF) / 0x200000
    let r := s.drawFree 26
    let e : Nat := 2 ^ 47 + r.1.toNat * 0x200000 + 2 ^ 60 + 2 ^ 63 + lo * 2 ^ 64 + size % 2 ^ 26 * 2 ^ 128
    some (i, { r.2 with xlt := { r.2.xlt with hwt := Tab.set 0 r.2.xlt.hwt i (BitVec.ofNat 256 e) } })

/-- The entry is removed when the fetch ends. -/
def dropWindow (i : Option Nat) (s : State) : State :=
  match i with
  | none => s
  | some i => { s with xlt := { s.xlt with hwt := Tab.set 0 s.xlt.hwt i 0 } }

/-- One fetch that a command needs in full: firmware opens the window, reads, and removes it. None: host DMA is stopped or
no entry is free, and the command ends ABORTED with no fetch. -/
def fetchArg (iova len : Nat) (s : State) : Option State :=
  if s.host.dmaStopped then none
  else match fetchWindow iova len s with
    | none => none
    | some (i, s) => some (dropWindow (some i) (s.emit (.hostRead (hubTlp .untranslated) i iova len)))

end Sys2Proof.Machine
end

