-- ==== Sys2Proof/Machine/QosOps.lean ====
section
/-! DEFINITION. Regulation at the initiator ports: token buckets, held packets, latencies and misses (R364, R381 to
R386, R393, R394). -/
namespace Sys2Proof.Machine
open Sys2Proof

/-- The port of an initiator (R364). -/
def portOf : Initiator → Nat
  | .xfe e => e
  | .col c => 64 + c
  | .cell n => 72 + n / 512 * 16 + n % 512 / 32
  | .site n => 136 + n
  | .home => 165
  | .fw => 162
  | .audit n => n
  | .link n => 154 + n

/-- Tokens of a bucket now, in 1/128 flit: REG_RATE / 256 flits per NCLK cycle are REG_RATE of these per tick.
[DEDUCED, log entry 48] -/
def tokensNow (q : QosPort) (now : Tick) : Nat := min (q.burst * 128) (q.tokens + q.regRate * (now.toNat - q.filled.toNat))

/-- Flits of a request packet (R368). -/
def reqFlits (write : Bool) (len : Nat) : Nat := if write then 1 + (len + 63) / 64 else 1

/-- Take the tokens of a packet, none where the bucket holds too few (R381). [DEDUCED, log entry 48] -/
def takeTokens (port part n : Nat) (s : State) : Option State :=
  let q := s.qport port part
  let have_ := tokensNow q s.clk.now
  if n * 128 ≤ have_ then some (s.setQport port part { q with tokens := have_ - n * 128, filled := s.clk.now }) else none

/-- Packets held at a port for a partition. -/
def heldAt (s : State) (port part : Nat) : List Req :=
  s.noc.reqs.filter (fun r => r.held && r.part == part && portOf r.who == port)

/-- Present a request at its port (R377, R381, R382): scheduled packets pass; a regulated one takes its tokens or is
held. The 64th packet held fills the queue, which is when the port presses back. The first result is its tag.
[DEDUCED, log entry 48] -/
def issueReq (r : Req) (s : State) : Nat × State :=
  let tag := s.noc.nextTag
  let port := portOf r.who
  let r := { r with tag := tag, inject := s.clk.now, step := if r.sched then (s.part r.part).step.setWidth 32 else 0 }
  let put := fun (r : Req) (s : State) => { s with noc := { s.noc with nextTag := tag + 1, reqs := s.noc.reqs ++ [r] } }
  if r.sched then (tag, put r s)
  else
    let waiting := heldAt s port r.part
    let got := if waiting.isEmpty then takeTokens port r.part (reqFlits r.write r.len) s else none
    match got with
    | some s => (tag, put r s)
    | none =>
      let s := put { r with held := true } s
      (tag, if waiting.length = 63 then raise 9 3 port s else s)

/-- A held packet leaves its port: it is the oldest held there and the bucket has its tokens (R381, R382). -/
def leavePort (r : Req) (s : State) : Option State :=
  if !r.held then some s
  else
    let port := portOf r.who
    if (heldAt s port r.part).head?.map (·.tag) != some r.tag then none
    else match takeTokens port r.part (reqFlits r.write r.len) s with
      | none => none
      | some s =>
        let q := s.qport port r.part
        let s := s.setQport port r.part { q with heldSum := satAdd q.heldSum (s.clk.now.toNat - r.inject.toNat) }
        some { s with noc := { s.noc with reqs := s.noc.reqs.map (fun x => if x.tag == r.tag then { x with held := false } else x) } }

/-- Whether a port's hold queue for a partition has no room for more packets: the initiator stalls at issue (R382). A run of more
than the queue's 64 packets enters an empty queue. [DEDUCED, log entry 48] -/
def holdFull (s : State) (port part n : Nat) : Bool :=
  let k := (heldAt s port part).length
  decide (0 < k) && decide (64 < k + n)

/-- A host write leaves a port at once: it is scheduled, or nothing is held there and its tokens are there. -/
def hostWriteNow (port part : Nat) (sched : Bool) (len : Nat) (s : State) : Option State :=
  if sched then some s
  else if !(heldAt s port part).isEmpty then none
  else takeTokens port part (reqFlits true len) s

/-- A miss of a partition is counted; at the threshold MISSED is set and the count restarts (R385). -/
def countMiss (p : Nat) (s : State) : State :=
  let w := s.qpart p
  let n := w.missNow + 1
  if w.thresh ≠ 0 ∧ w.thresh ≤ n then
    let s := s.setQpart p { w with missNow := 0 }
    raise 9 1 p { s with noc := { s.noc with missPart := putBit s.noc.missPart p true } }
  else s.setQpart p { w with missNow := n }

/-- The response of a request is at its port: the counters of R393, and the checks of R384 and R386. -/
def completeStats (r : Req) (s : State) : State :=
  let port := portOf r.who
  let q := s.qport port r.part
  let lat := s.clk.now.toNat - r.inject.toNat
  let miss := !r.sched && q.target != 0 && decide (q.target < lat)
  let late := r.sched && q.rsvBound != 0 && decide (q.rsvBound < lat)
  let s := s.setQport port r.part { q with
    rdBytes := if r.write then q.rdBytes else satAdd q.rdBytes r.len,
    wrBytes := if r.write then satAdd q.wrBytes r.len else q.wrBytes,
    reqs := satInc q.reqs, latSum := satAdd q.latSum lat, latMax := BitVec.ofNat 64 (max q.latMax.toNat lat),
    misses := if miss then satInc q.misses else q.misses, missRc := if miss then satInc q.missRc else q.missRc }
  let s := if miss then countMiss r.part s else s
  if late then raise 9 2 port s else s

/-- The initiator that a translation buffer's unit stands for, and its partition: firmware's own accesses have none. -/
def unitWho (s : State) (unit : Nat) : Option (Initiator × Nat) :=
  if unit < 64 then (s.xfe unit).owner.map (fun p => (Initiator.xfe unit, p))
  else if unit < 72 then (s.cunit (unit - 64)).owner.map (fun p => (Initiator.col (unit - 64), p)) else none

/-- An access that an engine or a collective unit makes and completes within one command, as its port's counters take it (R393).
[DEDUCED, log entry 56] -/
def countAccess (unit len : Nat) (write : Bool) (s : State) : State :=
  match unitWho s unit with
  | none => s
  | some (i, p) => completeStats { tag := 0, who := i, write := write, host := false, addr := 0, len := len, ctx := 0, part := p, sched := true,
                                   inject := s.clk.now } s

/-- Port of a key of the port table. -/
def qosPart (key : Nat) : Nat := key % 64

/-- REG_RATE, BURST, BASE_PRIO, TARGET, RQ_READ and RQ_WRITE as last written. -/
def qosValues (q : QosPort) : Nat × Nat × Nat × Nat × Nat × Nat :=
  q.next.getD (q.regRate, q.burst, q.basePrio, q.target, q.rqRead, q.rqWrite)

/-- Write a port's values for a partition: at once, or at the partition's next release while it runs (R394). -/
def putQosValues (n p : Nat) (v : Nat × Nat × Nat × Nat × Nat × Nat) (s : State) : State :=
  let q := s.qport n p
  if (s.part p).active then s.setQport n p { q with next := some v }
  else
    s.setQport n p { q with regRate := v.1, burst := v.2.1, basePrio := v.2.2.1, target := v.2.2.2.1, rqRead := v.2.2.2.2.1, rqWrite := v.2.2.2.2.2,
                            tokens := min (v.2.1 * 128) (tokensNow q s.clk.now), filled := s.clk.now, next := none }

/-- Write a partition's miss threshold and window: at once, or at its next release while it runs (R394). -/
def putMiss (p thresh window : Nat) (s : State) : State :=
  let w := s.qpart p
  if (s.part p).active then s.setQpart p { w with threshNx := some (thresh, window) }
  else s.setQpart p { w with thresh := thresh, window := window, threshNx := none }

/-- At a release: register values written while the partition ran take effect; out of STOPPED every bucket is full
(R381, R394). [DEDUCED, log entry 48] -/
def qosRelease (p : Nat) (fromStopped : Bool) (s : State) : State :=
  let s := { s with noc := { s.noc with qports := Tab.mapV {} (fun k (q : QosPort) =>
    if qosPart k != p then q
    else
      let q := match q.next with
        | some (a, b, c, d, e, f) =>
          { q with regRate := a, burst := b, basePrio := c, target := d, rqRead := e, rqWrite := f, next := none,
                   tokens := min (b * 128) (tokensNow q s.clk.now), filled := s.clk.now }
        | none => q
      if fromStopped then { q with tokens := q.burst * 128, filled := s.clk.now } else q) s.noc.qports } }
  let w := s.qpart p
  match w.threshNx with
  | some (a, b) => s.setQpart p { w with thresh := a, window := b, threshNx := none }
  | none => s

end Sys2Proof.Machine
end

