-- ==== Sys2Proof/Machine/Access.lean ====
section
/-! DEFINITION. Accesses as their targets perform them: the error-correcting check of a read, the inbound windows of a
site, and reads and writes of a run of device virtual addresses that one command performs whole. -/
namespace Sys2Proof.Machine
open Sys2Proof

/-- A corrected error counts at its unit (R341, R360, R362). -/
def countCe (g : Nat) (s : State) : State :=
  if g < 5120 then let b := s.bank (g / 80); s.setBank (g / 80) { b with ce := satInc b.ce }
  else let c := s.chan ((g - 5120) / 1024); s.setChan ((g - 5120) / 1024) { c with ce := satInc c.ce }

/-- An uncorrectable error: the line is marked poisoned, the unit counts it and the block's UE bit sets (R341). -/
def strikeUe (g pa : Nat) (s : State) : State :=
  let s := { s with mem := s.mem.mark (pa / 64) true }
  let s := if g < 5120 then s
           else let c := s.chan ((g - 5120) / 1024); s.setChan ((g - 5120) / 1024) { c with ue := satInc c.ue }
  raise (granGroup g) 1 pa s

/-- A read at its memory target: what its check finds, its data and whether it is poisoned (R339 to R341, R712). -/
def targetRead (g pa len : Nat) (e : Ecc) (s : State) : List Byte × Bool × State :=
  let r := checkEcc (granGroup g) 1 true e s
  let s := match r.1 with
    | .clean => r.2
    | .corrected => countCe g r.2
    | .uncorrectable => strikeUe g pa r.2
  (s.mem.read pa len, s.mem.anyBad pa len, s)

/-- The inbound window that admits a request for a site's memory (R424, R430). A retraining site keeps its windows (R437). -/
def inboundOk (s : State) (n off len ctx : Nat) (write : Bool) : Bool :=
  let t := s.site n
  (t.state == .admitted || t.state == .retrain) && (inWins t).any (fun w =>
    decide (w.off ≤ off) && decide (off + len ≤ w.off + w.size) && (if write then w.w else w.r) &&
      ctxPass s { owner := w.owner, partWide := w.partWide } t.owner ctx)

/-- A list of bytes of a free value: data that the manual leaves open. -/
def freeBytes (n : Nat) (s : State) : List Byte × State :=
  let r := s.drawFree (8 * n)
  (leBytes n r.1.toNat, r.2)

/-- Split a run of bytes at 64 B lines: address and length of each piece, rising. -/
def pieces (a n : Nat) : List (Nat × Nat) :=
  (linesOf a n).map (fun l =>
    let lo := max a (l * 64)
    (lo, min (a + n) (l * 64 + 64) - lo))

/-- One piece of a write under a context: whether it was refused. A write of a coherent line goes to the line's home as a posted
write (R470); any other is done at once. [DESIGN CHOICE, log entry 80] -/
def writePiece (unit ctx dva : Nat) (bs : List Byte) (poison : Bool) (s : State) : Bool × State :=
  let x := translate s unit ctx dva true
  let s := noteXlat unit ctx dva s
  let who := (unitWho s unit).getD (.fw, 0)
  match x with
  | .ok pa =>
    if coherent s pa then
      (false, (issueReq { tag := 0, who := who.1, write := true, host := false, addr := pa, len := bs.length, ctx := ctx, part := who.2,
                          sched := true, data := bs, poison := poison } s).2)
    else
    let s := countAccess unit bs.length true s
    match memCheck s pa ctx with
    | .pass g => (false, memPut s g pa bs poison)
    | .site n off =>
      if inboundOk s n off bs.length ctx true then (false, s.emit (.cxlMem n "write" "No-Op" "No-Op" 0 off bs))
      else (true, raise 16 8 n s)
    | .drop g b => (true, raise g b (if g = 23 ∨ (17 ≤ g ∧ g ≤ 22) then pa else 0) s)
  | x => (true, match x.bit with | some b => raise 11 b 0 s | none => s)

/-- Write a run of bytes: the addresses of the pieces that were refused. -/
def dvaWrite (unit ctx dva : Nat) (bs : List Byte) (poison : Bool) (s : State) : List Nat × State :=
  (pieces dva bs.length).foldl (fun acc p =>
    let r := writePiece unit ctx p.1 ((bs.drop (p.1 - dva)).take p.2) poison acc.2
    (if r.1 then acc.1 ++ [p.1] else acc.1, r.2)) ([], s)

end Sys2Proof.Machine
end

