-- ==== Sys2Proof/Machine/Framing.lean ====
section
/-! DEFINITION. How Gelja messages travel on a site's link: messages as slots of 16 B, slots in 256B flits, and the way
back (R445 to R448). -/
namespace Sys2Proof.Machine
open Sys2Proof

/-- Whether data lines follow the header of a message: its class is DAT (R449, R454). -/
def carriesData (op : Nat) : Bool := [0x02, 0x03, 0x07, 0x14, 0x21, 0x22].contains op

/-- Slots that follow a header slot: the byte enables of WR_PART or the further slot of IDENTITY, then four for each data line
(R448, R462). -/
def furtherSlots (op len : Nat) : Nat := (if op = 0x07 ∨ op = 0x60 then 1 else 0) + (if carriesData op then 4 * len else 0)

/-- The header slot of a message (R447). Bit 15 stands for whatever reserved field is not 0. -/
def headSlot (op : Nat) (m : GMsg) : BitVec 128 :=
  m.step16 ++ m.addr ++ 0#8 ++ m.status ++ 0#5 ++ BitVec.ofBool m.stepValid ++ m.ctx ++ 0#4 ++ m.tag ++ BitVec.ofBool m.reserved ++
    BitVec.ofBool m.wbp ++ m.state ++ BitVec.ofBool m.poison ++ m.len ++ BitVec.ofNat 8 op

/-- The data lines of a message as slots, byte 0 first (R448). -/
def dataSlots (m : GMsg) : List (BitVec 128) :=
  (List.range (4 * m.len.toNat)).map (fun k => BitVec.ofNat 128 (leNat ((m.data.drop (16 * k)).take 16)))

/-- A message in slots: its header slot and its further slots, in order (R446). -/
def msgSlots (op : Nat) (m : GMsg) : List (BitVec 128) :=
  headSlot op m :: ((if op = 0x07 then [m.be.setWidth 128] else if op = 0x60 then [m.extra] else []) ++
    (if carriesData op then dataSlots m else []))

/-- The opcode of a header slot; 0x00 is a NULL slot (R446). -/
def gslotOp (h : BitVec 128) : Nat := (h.extractLsb' 0 8).toNat

/-- The message of a header slot and the slots that follow it. -/
def slotMsg (h : BitVec 128) (more : List (BitVec 128)) : GMsg :=
  let op := gslotOp h
  let part := op == 0x07
  let x := more.headD 0
  let lines := if part || op == 0x60 then more.drop 1 else more
  { len := h.extractLsb' 8 3, poison := h.getLsbD 11, state := h.extractLsb' 12 2, wbp := h.getLsbD 14,
    reserved := h.getLsbD 15 || h.extractLsb' 28 4 != 0 || h.extractLsb' 43 5 != 0 || h.extractLsb' 56 8 != 0 ||
      (part && x.extractLsb' 64 64 != 0),
    tag := h.extractLsb' 16 12, ctx := h.extractLsb' 32 10, stepValid := h.getLsbD 42, status := h.extractLsb' 48 8,
    addr := h.extractLsb' 64 48, step16 := h.extractLsb' 112 16, be := if part then x.extractLsb' 0 64 else 0,
    extra := if op == 0x60 then x else 0, data := if carriesData op then lines.flatMap (fun b => leBytes 16 b.toNat) else [] }

/-- The messages that slots carry, NULL slots passed over, and the slots of a message that goes on in the next flit (R446). The fuel is
the number of slots. -/
def readSlots : Nat → List (BitVec 128) → List (Nat × GMsg) × List (BitVec 128)
  | 0, ss => ([], ss)
  | _, [] => ([], [])
  | k + 1, h :: rest =>
    if gslotOp h = 0 then readSlots k rest
    else
      let n := furtherSlots (gslotOp h) (h.extractLsb' 8 3).toNat
      if rest.length < n then ([], h :: rest)
      else
        let x := readSlots k (rest.drop n)
        ((gslotOp h, slotMsg h (rest.take n)) :: x.1, x.2)

/-- The protocol payload of a flit that carries up to 14 slots: NULL slots fill it up, and the bytes beyond the first 224 are zero
(R445, R446). -/
def flitBytes (ss : List (BitVec 128)) : List Byte :=
  (ss.take 14 ++ List.replicate (14 - ss.length) (0 : BitVec 128)).flatMap (fun b => leBytes 16 b.toNat) ++ List.replicate Config.flitTail 0

/-- The 14 slots of a flit; further bytes are ignored (R445). -/
def flitSlots (bs : List Byte) : List (BitVec 128) :=
  (List.range 14).map (fun k => BitVec.ofNat 128 (leNat ((bs.drop (16 * k)).take 16)))

/-- The flits of a list of slots. -/
def flitsOf (ss : List (BitVec 128)) : List (List Byte) :=
  (List.range ((ss.length + 13) / 14)).map (fun k => flitBytes ((ss.drop (14 * k)).take 14))

/-- A message as the receiver reads it from the flits that carry it. -/
def received (op : Nat) (m : GMsg) : GMsg :=
  let ss := (flitsOf (msgSlots op m)).flatMap flitSlots
  match (readSlots ss.length ss).1 with
  | x :: _ => x.2
  | [] => m

/-- The slots of every message that the hub has given to a site's link, oldest first. [DESIGN CHOICE, log entry 9] -/
def sentSlots (s : State) (n : Nat) : List (BitVec 128) :=
  s.out.reverse.flatMap (fun e => match e with
    | .gelja k op m => if k = n then msgSlots op m else []
    | _ => [])

/-- Whether the link of a site carries messages. [DEDUCED, log entry 51] -/
def linkUp (t : Site) : Bool :=
  t.state == .negotiate || t.state == .attest || t.state == .config || t.state == .ready || t.state == .admitted

/-- A site's link sends its next flit where it has slots to send (R445, R446). In RETRAIN they wait (R437); a link that is down has
lost them. A flit leaves in each tick: the manual gives no rate. [DESIGN CHOICE, log entry 87] -/
def sendFlit (n : Nat) (s : State) : State :=
  let t := s.site n
  let ss := sentSlots s n
  if t.state == .retrain || t.slotsOut = ss.length then s
  else if linkUp t || t.flushing then
    (s.modSite n (fun t => { t with slotsOut := min (t.slotsOut + 14) ss.length })).emit (.flit n (flitBytes ((ss.drop t.slotsOut).take 14)))
  else s.modSite n (fun t => { t with slotsOut := ss.length })

/-- Every Gelja site's link sends. -/
def sendFlits (s : State) : State :=
  (Tab.keysWhere s.sites (fun t => t.cls == 1 || t.cls == 3)).foldl (fun s n => sendFlit n s) s

end Sys2Proof.Machine
end

