-- ==== Sys2Proof/Machine/SiteOps.lean ====
section
/-! DEFINITION. Operations at a site that several commands share: reasons of an immediate fence, retraining, protocol
errors, the crust's checks, credits, and the answers to an occupant (R406, R426 to R430, R436 to R440, R450 to R458). -/
namespace Sys2Proof.Machine
open Sys2Proof

/-- The even half that stands for a site. -/
def evenOf (s : State) (n : Nat) : Nat := (halves s n).headD n

/-- Fence a site in its admission with a reason and its fault bit (R406): its domains switch off at the owner's next
proof, or at once where no owner runs (R24). [DEDUCED, log entry 50] -/
def failSite (n : Nat) (why : SReason) (bit : Nat) (s : State) : State :=
  let e := evenOf s n
  let wait := ownerActive s (s.site e).owner
  let s := dropSite e (fenceSite e why false s)
  raise 16 bit e (if wait then s else offSite e s)

/-! ### The switch of the site domain (R22, R24, R404, R406, R410) -/

/-- The strap check of R404: complementary pairs, the site's own number, odd parity. -/
def strapsOk (n : Nat) (t c : BitVec 6) : Bool :=
  t ^^^ c == 0x3F#6 && t.toNat % 32 == n && popcount 6 t.toNat % 2 == 1

/-- What a site remembers of an earlier admission is cleared. -/
def Site.fresh (t : Site) : Site :=
  { t with reason := .none, found := 0, modules := 0, repaired := 0, attestRes := .none, chainDig := 0, measDig := 0, idOk := false,
           sideband := false, strapOk := false, configDone := false, caching := false, offersMem := false, maxTags := 0,
           memSize := 0, credits := [], tags := [], errTicks := [], outs := [], snoops := [], snpQ := [], goWait := [],
           arrived := false, arriveOut := false, relAck := true, startPend := false, owedReq := 0, owedDat := 0 }

/-- Move a site to an admission state, with its trace point (R774). -/
def siteState (n : Nat) (st : SState) (s : State) : State :=
  let e := evenOf s n
  traceAt (88 + e) (s.site e).owner (s.modSite e (fun t => { t with state := st }))

/-- Whether a unit's site domains have been off for 10 ms (R410). -/
def coreRested (s : State) (n : Nat) : Bool :=
  (halves s n).all (fun k => match (s.site k).offAt with
    | some t => decide (12000000 ≤ s.clk.now.toNat - t.toNat)
    | none => true)

/-- The straps of a half are read: with SITE_AUX in regulation, before SITE_CORE ramps (R404). -/
def readStraps (k : Nat) (s : State) : State :=
  let t := s.site k
  let ok := strapsOk k t.strapT t.strapC
  let s := s.setSite k { t with strapOk := ok }
  if ok then s else failSite k .strap 2 s

/-- The site domain of a unit switches on after its PHY domain, both halves together, and the unit enters RAILS (R15, R16,
R22); a unit whose domain has not been off for 10 ms waits (R410). -/
def enterRails (e : Nat) (s : State) : State :=
  if !coreRested s e then s
  else
    let s := (halves s e).foldl (fun s k =>
      setDomain (40 + k) true (setDomain (22 + k) true (s.modSite k (fun t => { t.fresh with auxOn := true })))) s
    let s := siteState e .rails (s.modSite e (fun t => { t with vset := t.fld 0x0C 0 11 }))
    (halves s e).foldl (fun s k => if (s.site k).strapIn then readStraps k s else s) s

/-- The admissions that started at a partition's sites go on at its proof: the site domain switches on (R24). -/
def startSites (p : Nat) (s : State) : State :=
  (Tab.keysWhere s.sites (fun t => t.owner == some p && !t.upper && t.startPend && t.state == .off)).foldl
    (fun s n => enterRails n s) s

/-- A shorted rail (R26): the site is fenced and its domains are off at once; a site that was in use makes the owner's
ARRIVE carry FENCE. [DEDUCED, log entry 50] -/
def shortSite (n : Nat) (s : State) : State :=
  let e := evenOf s n
  let t := s.site e
  let used := t.state == .admitted || t.state == .retrain
  let s := offSite e (dropSite e (fenceSite e .rail false s))
  let s := match used && ownerActive s t.owner, t.owner with
    | true, some p => markFlag p 3 s
    | _, _ => s
  raise 16 1 e s

/-- A site whose retraining fails (R438, R440, R485): traffic stops at once, no flush, the owner's ARRIVE carries
FENCE, the domains switch off at the owner's next proof, or at once where no owner runs. -/
def failRetrain (n : Nat) (s : State) : State :=
  let e := evenOf s n
  let owner := (s.site e).owner
  let s := dropSite e (fenceSite e .link false s)
  let s := if ownerActive s owner then
      (match owner with | some p => markFlag p 3 s | none => s)
    else offSite e s
  raise 16 4 e s

/-- Retrain an ADMITTED site (R437). -/
def retrainSite (n : Nat) (s : State) : State :=
  let e := evenOf s n
  let t := s.site e
  if t.state == .admitted then
    traceAt (88 + e) t.owner (s.setSite e { t with state := .retrain, retrains := satInc t.retrains })
  else s

/-- Whether the admission of a site goes on: it is not paused for a peel, and no fence request has ended it (R440).
[DEDUCED, log entry 49] -/
def admits (t : Site) : Bool := !t.paused && t.fencePend.isNone

/-- Whether an opcode is a request of an occupant that carries a tag (R454). -/
def tagged (op : Nat) : Bool := [1, 2, 6, 7, 0x10, 0x11, 0x12, 0x13, 0x14].contains op

/-- The opcode of the answer to a request (R454, R457). -/
def answerOp (op : Nat) : Nat :=
  if op = 1 ∨ op = 6 then 3 else if op = 0x10 ∨ op = 0x11 then 0x22 else if op = 0x12 then 0x23 else 4

/-- Answer a request with a status that refuses it: data opcodes carry poisoned lines, whose bytes are open
(R282, R457). -/
def refuseGelja (n op : Nat) (m : GMsg) (status : Nat) (s : State) : State :=
  let a := answerOp op
  let dat := a == 3 || a == 0x22
  let len : BitVec 3 := if dat then (if m.len.toNat = 0 then 1 else m.len) else 0
  let f := if dat then freeBytes (64 * len.toNat) s else ([], s)
  geljaTo n a { tag := m.tag, ctx := m.ctx, status := BitVec.ofNat 8 status, poison := dat, len := len, data := f.1 } f.2

/-- A protocol error (R456): the message is discarded, a tagged request answered ABORTED, the site retrained; the
fourth within 1 s fences it with reason LINK. Firmware logs opcode and site. -/
def protocolError (n op : Nat) (m : GMsg) (s : State) : State :=
  let e := evenOf s n
  let s := if tagged op then refuseGelja e op m 6 s else s
  let t := s.site e
  let now := s.clk.now
  let recent := t.errTicks.filter (fun k => decide (now.toNat - k.toNat < 1200000000)) ++ [now]
  let s := writeLog 16 2 1 op e 0 (s.setSite e { t with errTicks := recent })
  if 4 ≤ recent.length then failRetrain e s else retrainSite e s

/-! ### The crust (R426 to R430) -/

/-- Request classes of the crust as `SIT_CRUST_LAST.CLASS` codes them. -/
inductive CrustClass where
  | read | write | cache | current | msi
  deriving DecidableEq, Repr

def CrustClass.code : CrustClass → Nat
  | .read => 0 | .write => 1 | .cache => 2 | .current => 3 | .msi => 4

/-- Valid grants of a Gelja site (R422). -/
def ctxGrants (t : Site) : List Nat :=
  ((List.range 8).filter (fun g => t.fld (0x18 + 2 * g) 15 1 == 1)).map (fun g => t.fld (0x18 + 2 * g) 0 10)

/-- The crust's decision on a request: the physical address, or the reason of the violation (R426). [DEDUCED, log entry 51] -/
def crustCheck (t : Site) (k : CrustClass) (ctx dva : Nat) : Except Nat Nat :=
  let forbidden := k == .msi || (k == .cache && (t.cls == 3 || t.cls == 4))
  let ctxOk := if isGelja t then (ctxGrants t).contains ctx else t.fld 0x14 10 1 == 1
  if forbidden then .error 1
  else if !ctxOk then .error 2
  else match (outWins t).find? (fun w => w.ctx == ctx && decide (w.dva ≤ dva) && decide (dva < w.dva + w.size)) with
    | none => .error 3
    | some w => if w.perms.testBit k.code then .ok (w.phys + (dva - w.dva)) else .error 4

/-- The context of a CXL site's requests (R422). -/
def defaultCtx (t : Site) : Nat := t.fld 0x14 0 10

/-- Record a violation (R429): the count, what and where, and CRUST when the violations within 1 ms reach the limit. -/
def crustViolation (n reason : Nat) (k : CrustClass) (ctx dva : Nat) (s : State) : State :=
  let t := s.site n
  let now := s.clk.now
  let win := t.crustWin.filter (fun x => decide (now.toNat - x.toNat < 1200000)) ++ [now]
  let lim := bits (s.reg (0x100000 + n * 0x1000 + 0x58) 0x40#32).toNat 0 16
  let s := s.setSite n { t with crustN := satInc t.crustN, crustWin := win, crustDva := BitVec.ofNat 64 dva,
                                crustLast := BitVec.ofNat 32 (reason + k.code * 16 + ctx * 65536) }
  let s := traceAt (88 + n) t.owner s
  if lim ≤ win.length then raise 16 7 n s else s

/-- Whether a site's crust takes requests at all (R408, R436): ADMITTED, owned, and its site admitted. -/
def crustOpen (t : Site) : Bool := t.state == .admitted && t.owner.isSome

/-! ### Credits and tags (R450, R453) -/

/-- Credits that a request of an occupant uses: REQ messages and data lines. -/
def reqCost (op len : Nat) : Nat × Nat :=
  if op = 2 ∨ op = 7 ∨ op = 0x14 then (0, len) else if tagged op then (1, 0) else (0, 0)

/-- Whether the occupant holds the credits for a message. -/
def hasCredit (t : Site) (op len : Nat) : Bool :=
  let c := reqCost op len
  decide (c.1 ≤ Tab.get 0 t.credits 10) && decide (c.2 ≤ Tab.get 0 t.credits 11)

/-- Take the credits of a message that arrives and note its tag as open: opcode + 256 × LEN. -/
def openTag (n op : Nat) (m : GMsg) (s : State) : State :=
  let c := reqCost op m.len.toNat
  s.modSite n (fun t => { t with credits := Tab.upd 0 (Tab.upd 0 t.credits 10 (· - c.1)) 11 (· - c.2),
                                 tags := t.tags ++ [(m.tag.toNat, op + 256 * m.len.toNat)] })

/-- Send the credits that a site is owed (R450), unless it retrains (R437) or the hold queue of its port is full (R382).
[DESIGN CHOICE, log entry 52] -/
def payCredits (n : Nat) (s : State) : State :=
  let t := s.site n
  if (t.owedReq = 0 ∧ t.owedDat = 0) ∨ t.state == .retrain ∨ 64 ≤ (heldAt s (136 + n) (t.owner.getD 0)).length then s
  else
    geljaTo n 0x69 (ctlMsg (t.owedReq + t.owedDat * 65536)) (s.setSite n { t with
      credits := Tab.upd 0 (Tab.upd 0 t.credits 10 (· + t.owedReq)) 11 (· + t.owedDat), owedReq := 0, owedDat := 0 })

/-- The buffer of a request is free: its credits go back (R450). -/
def giveBack (n op len : Nat) (s : State) : State :=
  let c := reqCost op len
  payCredits n (s.modSite n (fun t => { t with owedReq := t.owedReq + c.1, owedDat := t.owedDat + c.2 }))

/-- The request a tag of an occupant stands for: opcode and LEN. -/
def tagOf (t : Site) (tag : Nat) : Option (Nat × Nat) :=
  (t.tags.find? (fun x => x.1 == tag)).map (fun x => (x.2 % 256, x.2 / 256))

/-- Close a tag. -/
def closeTag (n tag : Nat) (s : State) : State :=
  s.modSite n (fun t => { t with tags := t.tags.filter (fun x => x.1 != tag) })

/-- Answer an occupant's request and free its buffer and tag; nothing is answered for a tag that is not open any more
(its site was fenced). A grant keeps its tag open until the ACK. -/
def answerGelja (n op : Nat) (m : GMsg) (keep : Bool) (s : State) : State :=
  match tagOf (s.site n) m.tag.toNat with
  | none => s
  | some r =>
    let s := geljaTo n op m s
    let s := giveBack n r.1 r.2 s
    if keep then s else closeTag n m.tag.toNat s

/-- Whether a message may come now: the step tag names the running step of the owner (R458). -/
def stepTagOk (s : State) (t : Site) (m : GMsg) : Bool :=
  !m.stepValid || (match t.owner with
    | some p => (s.part p).state == .running && m.step16.toNat == (s.part p).step.toNat % 65536
    | none => false)

end Sys2Proof.Machine
end

