-- ==== Sys2Proof/Machine/HomeOps.lean ====
section
/-! DEFINITION. The coherence home: the service of requests by the state of their line, snoops and their answers, the
snoop filter's capacity, and NoC requests at coherent lines (R470 to R490). -/
namespace Sys2Proof.Machine
open Sys2Proof

/-- Put a response on its way. -/
def pushResp (p : Resp) (s : State) : State := { s with noc := { s.noc with resps := s.noc.resps ++ [p] } }

/-- Every piece of a request is served: the response leaves, or a current read of an occupant is answered at once
(R457, R476). -/
def finishNoc (tag : Nat) (s : State) : State :=
  match s.reqOf tag with
  | none => s
  | some r =>
    match r.use with
    | .site n t 6 =>
      let st := if r.denied then 4 else if r.accBad then 5 else 0
      answerGelja n 3 { tag := BitVec.ofNat 12 t, ctx := BitVec.ofNat 10 r.ctx, len := BitVec.ofNat 3 (r.len / 64),
                        status := BitVec.ofNat 8 st, poison := r.accBad || r.denied, data := r.acc } false (s.dropReq tag)
    | _ => pushResp { tag := tag, data := r.acc, poison := r.accBad || r.denied, refused := r.denied } s

/-! ### Memory at the home -/

/-- A read of a line for a context: data, poison, refused (R280, R282, R471). -/
def homeRead (ctx line : Nat) (s : State) : List Byte × Bool × Bool × State :=
  match memCheck s (line * 64) ctx with
  | .pass g => let r := targetRead g (line * 64) 64 .clean s; (r.1, r.2.1, false, r.2.2)
  | .drop g b => let r := freeBytes 64 (raise g b (line * 64) s); (r.1, true, true, r.2)
  | .site _ _ => let r := freeBytes 64 s; (r.1, true, true, r.2)

/-- A write of a line for a context under byte enables: refused or not. -/
def homeWrite (ctx line : Nat) (bs : List Byte) (be : Nat) (poison : Bool) (s : State) : Bool × State :=
  match memCheck s (line * 64) ctx with
  | .pass g => (false, memPutBe s g (line * 64) bs be poison)
  | .drop g b => (true, raise g b (line * 64) s)
  | .site _ _ => (true, s)

/-- Every byte of a line. -/
def allBe : Nat := 2 ^ 64 - 1

/-! ### The snoop filter (R472, R481) -/

/-- Work that a served request leaves behind. -/
inductive Work where
  | req (r : HReq)
  | noc (tag : Nat)
  | drain (line : Nat)
  deriving DecidableEq, Repr

def sectorOf (line : Nat) : Nat := line / 4
def sectorHeld (s : State) (sec : Nat) : Bool := (List.range 4).any (fun k => (s.hline (sec * 4 + k)).pres != 0)
def setHLine (line : Nat) (h : HLine) (s : State) : State :=
  { s with home := { s.home with lines := Tab.set {} s.home.lines line h } }

/-- An entry with no holder is free: requests that waited for it go on (R481). -/
def tidySector (line : Nat) (s : State) : List Work × State :=
  let sec := sectorOf line
  if sectorHeld s sec then ([], s)
  else
    let go := s.home.victims.filter (fun v => v.1 == sec)
    (go.map (fun v => .req v.2),
     { s with home := { s.home with alloc := s.home.alloc.filter (· != sec),
                                    victims := s.home.victims.filter (fun v => v.1 != sec) } })

/-- The entry a caching request has to free first, none where its sector has one or its set a free way. -/
def victimOf (s : State) (line : Nat) : Option Nat :=
  let sec := sectorOf line
  let peers := s.home.alloc.filter (fun x => x % 262144 == sec % 262144)
  if s.home.alloc.contains sec || decide (peers.length < 16) then none else peers.head?

/-- Allocate the entry of a sector. -/
def allocSector (line : Nat) (s : State) : State :=
  let sec := sectorOf line
  if s.home.alloc.contains sec then s else { s with home := { s.home with alloc := s.home.alloc ++ [sec] } }

/-! ### Answers of the home -/

/-- Close the open transaction of a line. -/
def closeTxn (line : Nat) (s : State) : State :=
  { s with home := { s.home with txns := Tab.set none s.home.txns line none } }
def openTxn (line : Nat) (x : HTxn) (s : State) : State :=
  { s with home := { s.home with txns := Tab.set none s.home.txns line (some x) } }

/-- Grant a line (R476): the state at once, BUSY until the ACK (R474). A poisoned line is granted with POISON (R490). -/
def grantLine (r : HReq) (excl withData : Bool) (s : State) : State :=
  match r.site with
  | none => s
  | some n =>
    let h := s.hline r.line
    let rd := if withData then homeRead r.ctx r.line s else ([], false, false, s)
    let s := rd.2.2.2
    let s := setHLine r.line (if excl then { mode := .x, pres := putBit 0 n true }
                              else { mode := .s, pres := putBit h.pres n true }) (allocSector r.line s)
    let s := openTxn r.line { req := r, wait := .ack, granted := if excl then .x else .s } s
    let status := if rd.2.2.1 then 4 else if rd.2.1 then 5 else 0
    match r.src with
    | .gelja n t =>
      answerGelja n (if withData then 0x22 else 0x23)
        { tag := BitVec.ofNat 12 t, ctx := BitVec.ofNat 10 r.ctx, state := if excl then 2 else 1,
          len := if withData then 1 else 0, status := BitVec.ofNat 8 status, poison := rd.2.1, data := rd.1 } true s
    | .cxl n t _ =>
      (s.modSite n (fun x => { x with goWait := x.goWait ++ [(t, r.line)] })).emit
        (.cxl n (if excl then "GO-E" else "GO-S") t r.dva rd.1 rd.2.1)
    | _ => s

/-- The answer without data of a request that leaves the line to nobody. -/
def doneAnswer (r : HReq) (refused : Bool) (s : State) : State :=
  match r.src with
  | .gelja n t => answerGelja n 4 { tag := BitVec.ofNat 12 t, ctx := BitVec.ofNat 10 r.ctx,
                                    status := if refused then 4 else 0 } false s
  | .cxl n t o =>
    let e := fun (op : String) (s : State) => s.emit (.cxl n op t r.dva [] false)
    (match r.op with
     | .evictClean => e (if o = 1 then "GO-I" else "GO_WritePull_Drop") s
     | .wbDirty => e "CMP" (e "GO_WritePull" s)
     | .ncWrite => e "ExtCmp" (e "GO_WritePull" s)
     | _ => e "GO-I" s)
  | _ => s

/-- A request that breaks the protocol at the home (R456, R476, R486). [DEDUCED, log entry 53] -/
def homeError (r : HReq) (s : State) : State :=
  match r.src with
  | .gelja n t =>
    let op := ((tagOf (s.site n) t).getD (0x14, 0)).1
    let s := giveBack n op ((tagOf (s.site n) t).getD (0, 1)).2 s
    closeTag n t (protocolError n op { tag := BitVec.ofNat 12 t } s)
  | .cxl n t _ => protocolError n 0 {} (s.emit (.cxl n (if r.op == .wbDirty then "GO_ERR_WritePull" else "GO-Err") t r.dva [] false))
  | _ => s

/-- One piece of a NoC request at the head of its list is served. -/
def pieceDone (tag : Nat) (bs : List Byte) (bad denied : Bool) (s : State) : State :=
  s.modReq tag (fun r => { r with lines := r.lines.tail, acc := r.acc ++ bs, accBad := r.accBad || bad,
                                  denied := r.denied || denied })

/-- The bytes of a NoC write that fall into its head piece, as the whole line and its byte enables. -/
def pieceData (r : Req) : List Byte × Nat :=
  match r.lines with
  | [] => ([], 0)
  | (a, n) :: _ =>
    let off := a - r.addr
    let bs := (r.data.drop off).take n
    let o := a % 64
    let be := ((r.be.getD (2 ^ r.len - 1)) >>> off) % 2 ^ n
    (List.replicate o 0#8 ++ bs ++ List.replicate (64 - o - n) 0#8, be <<< o)

/-- Serve a current read or a non-caching write whose snoops are done. -/
def serveNc (r : HReq) (s : State) : List Work × State :=
  match r.src with
  | .noc tag =>
    match s.reqOf tag with
    | none => ([], s)
    | some q =>
      if r.op == .rdCur then
        let rd := homeRead q.ctx r.line s
        let p := q.lines.headD (r.line * 64, 64)
        let t := tidySector r.line rd.2.2.2
        (t.1 ++ [.noc tag], pieceDone tag ((rd.1.drop (p.1 % 64)).take p.2) rd.2.1 rd.2.2.1 t.2)
      else
        let d := pieceData q
        let w := homeWrite q.ctx r.line d.1 d.2 q.poison s
        let t := tidySector r.line (setHLine r.line {} w.2)
        (t.1 ++ [.noc tag], pieceDone tag [] false w.1 t.2)
  | .cxl n t _ =>
    if r.op == .rdCur then
      let rd := homeRead r.ctx r.line s
      let x := tidySector r.line rd.2.2.2
      (x.1, x.2.emit (.cxl n "Data" t r.dva rd.1 rd.2.1))
    else
      let w := homeWrite r.ctx r.line r.data r.be.toNat r.poison s
      let x := tidySector r.line (setHLine r.line {} w.2)
      (x.1, doneAnswer r w.1 x.2)
  | _ => ([], s)

/-! ### Serving a request by the state of its line (R476) -/

/-- Open a transaction that waits for the answers of sites to a snoop. -/
def snoopAll (r : HReq) (op : Nat) (targets : List Nat) (s : State) : State :=
  let mask := targets.foldl (fun (m : BitVec 18) n => putBit m n true) 0
  targets.foldl (fun s n => sendSnoop op r.line n s) (openTxn r.line { req := r, wait := .snoops, snoop := mask } s)

/-- Whether a request asks for a copy. -/
def HOp.caches : HOp → Bool
  | .rdShared | .rdOwn | .upgrade | .rdOwnNoData => true
  | _ => false

/-- What follows once no snoop answer is missing any more. -/
def afterSnoops (r : HReq) (s : State) : List Work × State :=
  let h := s.hline r.line
  match r.op with
  | .rdShared => ([], grantLine r (h.pres == 0) true (setHLine r.line { h with mode := if h.pres == 0 then .i else .s } s))
  | .rdOwn => ([], grantLine r true true s)
  | .upgrade => ([], grantLine r true (match r.site with | some n => !h.pres.getLsbD n | none => true) s)
  | .rdOwnNoData => ([], grantLine r true false s)
  | .rdCur | .ncWrite => serveNc r s
  | .clflush => let x := tidySector r.line s; (x.1, doneAnswer r false x.2)
  | .backInval _ => tidySector r.line s
  | .evictClean | .wbDirty => ([], s)

/-- Serve a request on a line that is not BUSY (R476, R481). -/
def serveIdle (r : HReq) (s : State) : List Work × State :=
  let h := s.hline r.line
  let mine := match r.site with
    | some n => h.pres.getLsbD n
    | none => false
  let others := (sitesOf h.pres).filter (fun n => some n != r.site)
  match (if r.op.caches then victimOf s r.line else none) with
  | some sec =>
    let s := { s with home := { s.home with victims := s.home.victims ++ [(sec, r)] } }
    ([], ((List.range 4).map (· + sec * 4)).foldl (fun s l => if (s.hline l).pres == 0 then s else backInval 0 l s) s)
  | none =>
    match r.op with
    | .rdShared =>
      (match h.mode with
       | .i => ([], grantLine r true true s)
       | .s => ([], grantLine r false true s)
       | .x => if mine then ([], grantLine r true true s) else ([], snoopAll r 0x19 others s))
    | .rdOwn =>
      if others.isEmpty then ([], grantLine r true true s) else ([], snoopAll r 0x18 others s)
    | .upgrade =>
      if others.isEmpty then ([], grantLine r true (!mine) s) else ([], snoopAll r 0x18 others s)
    | .rdOwnNoData =>
      if others.isEmpty then ([], grantLine r true false s) else ([], snoopAll r 0x18 others s)
    | .evictClean =>
      if h.mode == .x && !mine then ([], homeError r s)
      else
        let p := match r.site with
          | some n => putBit h.pres n false
          | none => h.pres
        let x := tidySector r.line (setHLine r.line { mode := if p = 0 then .i else h.mode, pres := p } s)
        (x.1, doneAnswer r false x.2)
    | .wbDirty =>
      if h.mode == .x && mine then
        let w := homeWrite r.ctx r.line r.data allBe r.poison s
        let x := tidySector r.line (setHLine r.line {} w.2)
        (x.1, doneAnswer r w.1 x.2)
      else ([], homeError r s)
    | .rdCur =>
      if h.mode == .x then ([], snoopAll r 0x1A (sitesOf h.pres) s) else serveNc r s
    | .ncWrite =>
      if h.mode == .i then serveNc r s else ([], snoopAll r 0x18 (sitesOf h.pres) s)
    | .clflush =>
      if h.mode == .i then ([], doneAnswer r false s) else ([], snoopAll r 0x18 (sitesOf h.pres) s)
    | .backInval why => ([], backInval why r.line s)

/-- Whether a site already has a caching transaction open or queued on a line (R490). -/
def hasOpen (s : State) (line : Nat) (site : Option Nat) : Bool :=
  site.isSome &&
  ((match Tab.get none s.home.txns line with
    | some t => t.req.site == site && t.req.op.caches
    | none => false) ||
   s.home.queue.any (fun q => q.line == line && q.site == site && q.op.caches))

/-- A request arrives at its line (R474, R479, R490). -/
def arriveHome (r : HReq) (s : State) : List Work × State :=
  match Tab.get none s.home.txns r.line with
  | none => serveIdle r s
  | some t =>
    let crossing := r.op == .wbDirty && t.wait == .snoops &&
      (match r.site with | some n => t.snoop.getLsbD n || t.wbp.getLsbD n | none => false)
    if crossing then
      let n := r.site.getD 0
      let w := homeWrite r.ctx r.line r.data allBe r.poison s
      let s := doneAnswer r w.1 w.2
      let t := { t with wbp := putBit t.wbp n false, wrote := putBit t.wrote n true }
      if t.snoop = 0 ∧ t.wbp = 0 then
        let a := afterSnoops t.req (closeTxn r.line s)
        (a.1 ++ [.drain r.line], a.2)
      else ([], openTxn r.line t s)
    else if r.op.caches && hasOpen s r.line r.site then ([], homeError r s)
    else ([], { s with home := { s.home with queue := s.home.queue ++ [r] } })

/-- One piece of a NoC request at its memory target: at the home where the line is coherent, else at the memory. -/
def nocPiece (tag : Nat) (s : State) : List Work × State :=
  match s.reqOf tag with
  | none => ([], s)
  | some r =>
    match r.lines with
    | [] => ([], finishNoc tag s)
    | (a, n) :: _ =>
      if coherent s a then
        ([.req { op := if r.write then .ncWrite else .rdCur, src := .noc tag, site := none, line := a / 64, ctx := r.ctx,
                 dva := a, part := r.part }], s)
      else
        match memCheck s a r.ctx with
        | .pass g =>
          if r.write then
            let d := pieceData r
            ([.noc tag], pieceDone tag [] false false (memPutBe s g (a / 64 * 64) d.1 d.2 r.poison))
          else
            let rd := targetRead g a n .clean s
            ([.noc tag], pieceDone tag rd.1 rd.2.1 false rd.2.2)
        | .drop g b =>
          let s := raise g b a s
          if r.write then ([.noc tag], pieceDone tag [] false true s)
          else let f := freeBytes n s; ([.noc tag], pieceDone tag f.1 true true f.2)
        | .site _ _ => ([.noc tag], pieceDone tag [] true true s)

/-- Do one piece of work. [DESIGN CHOICE, log entry 80] -/
def doWork (w : Work) (s : State) : List Work × State :=
  match w with
  | .req r => let a := arriveHome r s
              if (Tab.get none a.2.home.txns r.line).isNone then (a.1 ++ [.drain r.line], a.2) else a
  | .noc tag => nocPiece tag s
  | .drain line =>
    if (Tab.get none s.home.txns line).isSome then ([], s)
    else match s.home.queue.find? (fun q => q.line == line) with
      | none => ([], s)
      | some q => ([.req q], { s with home := { s.home with queue := s.home.queue.erase q } })

/-- Do work until none is left; the fuel bounds it. [DESIGN CHOICE, log entry 80] -/
def runWork : Nat → List Work → State → State
  | 0, _, s => s
  | _, [], s => s
  | k + 1, w :: ws, s => let r := doWork w s; runWork k (ws ++ r.1) r.2

/-- Enough fuel for every request that the home holds, each with a piece of work before and after it. -/
def homeFuel (s : State) : Nat := 64 + 16 * (s.home.queue.length + s.home.victims.length + s.noc.reqs.length)

/-- Bring work to the home. -/
def atHome (ws : List Work) (s : State) : State := settleHome (runWork (homeFuel s) ws s)

/-- A caching request for staging SRAM outside every coherent window sets COH_REFUSED (R331). [DEDUCED, log entry 53] -/
def cohRefused (pa : Nat) (s : State) : State :=
  match paSpot s pa with
  | .sram .. => raise 23 4 pa s
  | _ => s

/-! ### Snoop answers, acknowledgements and timeouts (R474, R480, R483) -/

/-- A writeback of a site that already waits at the line is written now: it is the crossing one that the site's answer
speaks of (R479, R480). The first result says whether there was one. [DEDUCED, log entry 53] -/
def takeQueuedWb (n line : Nat) (s : State) : Bool × State :=
  match s.home.queue.find? (fun q => q.line == line && q.op == .wbDirty && q.site == some n) with
  | none => (false, s)
  | some q =>
    let w := homeWrite q.ctx line q.data allBe q.poison { s with home := { s.home with queue := s.home.queue.erase q } }
    (true, doneAnswer q w.1 w.2)

/-- A transaction's answer of a site is complete; the last one lets the request go on. [DEDUCED, log entry 53] -/
def answerSnoop (n line : Nat) (wbp : Bool) (s : State) : State :=
  match Tab.get none s.home.txns line with
  | none => s
  | some t =>
    if t.wait != .snoops || !(t.snoop.getLsbD n) then s
    else
      let k := if wbp && !t.wrote.getLsbD n then takeQueuedWb n line s else (true, s)
      let s := k.2
      let open_ := wbp && !t.wrote.getLsbD n && !k.1
      let t := { t with snoop := putBit t.snoop n false, wbp := putBit t.wbp n open_ }
      if t.snoop = 0 ∧ t.wbp = 0 then
        let a := afterSnoops t.req (closeTxn line s)
        atHome (a.1 ++ [.drain line]) a.2
      else openTxn line t s

/-- The state a snoop answer leaves at the responder (R476): none = unchanged. After SNP_INV no copy is left. -/
def snoopState (n line : Nat) (st : Option Nat) (s : State) : State :=
  let h := s.hline line
  let inv := match Tab.get none s.home.txns line with
    | some t => (match t.req.op with | .rdShared | .rdCur => false | _ => true)
    | none => false
  let gone := inv || st == some 0
  if !h.pres.getLsbD n then s
  else if gone then
    let p := putBit h.pres n false
    setHLine line { mode := if p = 0 then .i else h.mode, pres := p } s
  else if st == some 1 then setHLine line { h with mode := .s } s
  else s

/-- A snoop answer arrives: its tag is free for a snoop that waited, and data goes to memory first (R453, R471, R476). -/
def snoopAnswered (n tag : Nat) (st : Option Nat) (wbp : Bool) (data : Option (List Byte × Bool)) (s : State) : State :=
  match (s.site n).snoops.find? (fun x => x.1 == tag) with
  | none => s
  | some (_, line) =>
    let s := s.modSite n (fun t => { t with snoops := t.snoops.filter (fun x => x.1 != tag) })
    let s := if (s.site n).snpQ.isEmpty then s else drainSnoops n s
    let s := match data with
      | some (bs, bad) => (homeWrite (snoopAddr (s.site n) line).2 line bs allBe bad s).2
      | none => s
    answerSnoop n line wbp (snoopState n line st s)

/-- A grant is acknowledged: the line leaves BUSY (R474). -/
def grantAcked (n line : Nat) (s : State) : State :=
  match Tab.get none s.home.txns line with
  | some t => if t.wait == .ack && t.req.site == some n then atHome [.drain line] (closeTxn line s) else s
  | none => s

/-- A snoop answer or an ACK is missing after 12,000 ticks (R483). -/
def snoopLate (n line : Nat) (s : State) : State :=
  match Tab.get none s.home.txns line with
  | none => s
  | some t =>
    let waits := match t.wait with
      | .snoops => t.snoop.getLsbD n || t.wbp.getLsbD n
      | .ack => t.req.site == some n
    if !waits || (s.site n).state == .retrain then s
    else
      let s := dropHolder n line s
      let s := s.modSite n (fun x => { x with snoops := x.snoops.filter (fun q => q.2 != line),
                                              snpQ := x.snpQ.filter (fun q => q.2 != line),
                                              goWait := x.goWait.filter (fun q => q.2 != line) })
      let s := match t.wait with
        | .ack =>
          let s := match t.req.src with | .gelja k tg => closeTag k tg s | _ => s
          let x := tidySector line (closeTxn line s)
          atHome (x.1 ++ [.drain line]) x.2
        | .snoops =>
          let t := { t with snoop := putBit t.snoop n false, wbp := putBit t.wbp n false }
          if t.snoop = 0 ∧ t.wbp = 0 then
            let a := afterSnoops t.req (closeTxn line s)
            atHome (a.1 ++ [.drain line]) a.2
          else openTxn line t s
      raise 16 3 n s

end Sys2Proof.Machine
end

