-- ==== Sys2Proof/Machine/Operands.lean ====
section
/-! DEFINITION. Number formats and arithmetic rules (R204 to R261): every operand form, decoded to an exact value,
computed exactly and rounded once. -/
namespace Sys2Proof.Machine
open Sys2Proof

/-! ### Formats (R168, R205) -/

/-- The kinds of element encodings. -/
inductive FKind where
  | ieee            -- infinity and NaN at the all-ones exponent
  | e4m3            -- NaN at S.1111.111 only
  | plain           -- neither infinity nor NaN
  | int             -- two's complement
  | fixed           -- two's complement × 2^−6 (MXINT8)
  deriving DecidableEq, Repr

/-- An element format: width, exponent and fraction bits, bias. -/
structure Fmt where
  kind  : FKind
  width : Nat
  eb    : Nat := 0
  mb    : Nat := 0
  bias  : Nat := 0
  deriving DecidableEq, Repr

/-- The format of an FMT code; an MX code stands for its element format. -/
def fmtOf (code : Nat) : Fmt :=
  match code with
  | 0 => ⟨.ieee, 64, 11, 52, 1023⟩
  | 1 => ⟨.ieee, 32, 8, 23, 127⟩
  | 2 => ⟨.ieee, 16, 5, 10, 15⟩
  | 3 => ⟨.ieee, 16, 8, 7, 127⟩
  | 4 => ⟨.e4m3, 8, 4, 3, 7⟩
  | 5 => ⟨.ieee, 8, 5, 2, 15⟩
  | 6 => ⟨.e4m3, 8, 4, 3, 7⟩
  | 7 => ⟨.ieee, 8, 5, 2, 15⟩
  | 8 => ⟨.plain, 6, 3, 2, 3⟩
  | 9 => ⟨.plain, 6, 2, 3, 1⟩
  | 10 => ⟨.plain, 4, 2, 1, 1⟩
  | 11 => ⟨.fixed, 8, 0, 6, 0⟩
  | 12 => ⟨.int, 8, 0, 0, 0⟩
  | 13 => ⟨.int, 4, 0, 0, 0⟩
  | _ => ⟨.int, 32, 0, 0, 0⟩

/-- Elements of a 64 B line (R206, R207). -/
def perLine (code : Nat) : Nat := if (fmtOf code).width = 6 then 64 else 512 / (fmtOf code).width

/-- Formats on which FTZ acts (R225, R226). -/
def ftzActs (code : Nat) : Bool := decide (code ≤ 5)

/-- Formats on which SAT acts (R162, R230). -/
def satActs (code : Nat) : Bool := decide (4 ≤ code) && decide (code ≤ 7)

/-- Element `i` of a register (R206). -/
def lane (w r i : Nat) : Nat := bits r (i * w) w

/-- The first `n` elements of a register. -/
def lanes (w n r : Nat) : List Nat := (List.range n).map (lane w r)

/-- All elements of a register in a format. -/
def lanesOf (code r : Nat) : List Nat := lanes (fmtOf code).width (perLine code) r

/-- A register from its elements, element 0 lowest. -/
def joinW (w : Nat) : List Nat → Nat
  | [] => 0
  | x :: xs => x % 2 ^ w + 2 ^ w * joinW w xs

/-- A register of elements of a format. -/
def join (code : Nat) (xs : List Nat) : Nat := joinW (fmtOf code).width xs

/-- Replace the element `i` of a list. -/
def setAt (xs : List Nat) (i v : Nat) : List Nat := xs.set i v

/-! ### Exact values -/

/-- An exact value: NaN, an infinity, or ±m × 2^e. -/
inductive Num where
  | nan
  | inf (neg : Bool)
  | fin (neg : Bool) (m : Nat) (e : Int)
  deriving DecidableEq, Repr

/-- The zero of a sign. -/
def zeroNum (neg : Bool) : Num := .fin neg 0 0

/-- The exact value of an element, subnormal inputs flushed under FTZ (R205, R209, R224, R225). -/
def decodeNum (code : Nat) (ftz : Bool) (x : Nat) : Num :=
  let f := fmtOf code
  let x := x % 2 ^ f.width
  match f.kind with
  | .int => let v := toSigned f.width x; .fin (decide (v < 0)) v.natAbs 0
  | .fixed => let v := toSigned 8 x; .fin (decide (v < 0)) v.natAbs (-6)
  | k =>
    let neg := x.testBit (f.width - 1)
    let e := bits x f.mb f.eb
    let m := bits x 0 f.mb
    let ones := 2 ^ f.eb - 1
    if k = .ieee ∧ e = ones then (if m = 0 then .inf neg else .nan)
    else if k = .e4m3 ∧ e = ones ∧ m = 2 ^ f.mb - 1 then .nan
    else if e = 0 then
      if ftz && ftzActs code then zeroNum neg else .fin neg m (1 - (f.bias : Int) - f.mb)
    else .fin neg (2 ^ f.mb + m) ((e : Int) - f.bias - f.mb)

/-- Negation. -/
def negNum : Num → Num
  | .nan => .nan
  | .inf s => .inf (!s)
  | .fin s m e => .fin (!s) m e

/-- Signed mantissa of ±m. -/
def sInt (neg : Bool) (m : Nat) : Int := if neg then -(m : Int) else (m : Int)

/-- Exact sum (R228, R229): an exact zero from operands of opposite sign is +0. -/
def addNum : Num → Num → Num
  | .nan, _ => .nan
  | _, .nan => .nan
  | .inf a, .inf b => if a = b then .inf a else .nan
  | .inf a, _ => .inf a
  | _, .inf b => .inf b
  | .fin a m e, .fin b n f =>
    let lo := min e f
    let v := sInt a m * (2 ^ (e - lo).toNat : Nat) + sInt b n * (2 ^ (f - lo).toNat : Nat)
    if v = 0 then .fin (a && b) 0 0 else .fin (decide (v < 0)) v.natAbs lo

/-- Exact product (R228). -/
def mulNum : Num → Num → Num
  | .nan, _ => .nan
  | _, .nan => .nan
  | .inf a, .inf b => .inf (a != b)
  | .inf a, .fin b n _ => if n = 0 then .nan else .inf (a != b)
  | .fin a m _, .inf b => if m = 0 then .nan else .inf (a != b)
  | .fin a m e, .fin b n f => .fin (a != b) (m * n) (e + f)

/-- Whether a value is zero. -/
def isZeroNum : Num → Bool
  | .fin _ m _ => m == 0
  | _ => false

/-- floor(log2) of a finite magnitude that is not zero. -/
def log2Mag (m : Nat) (e : Int) : Int := (Nat.log2 m : Int) + e

/-! ### Rounding (R218, R219) -/

/-- The three rounding modes. -/
inductive Rnd where
  | near | zero | stoch
  deriving DecidableEq, Repr

/-- The mode of a 2-bit code. -/
def rndOf (c : Nat) : Rnd := if c = 1 then .zero else if c = 2 then .stoch else .near

/-- The mode of an operation that never rounds stochastically (R220). [DEDUCED, log entry 38] -/
def plainRnd (r : Rnd) : Rnd := if r = .zero then .zero else .near

/-- Number of quanta 2^q of m × 2^e after rounding, and whether it was exact; D is the draw word. -/
def roundQ (r : Rnd) (draw m : Nat) (e q : Int) : Nat × Bool :=
  if q ≤ e then (m * 2 ^ (e - q).toNat, true)
  else
    let d := (q - e).toNat
    let t := m >>> d
    let rest := m % 2 ^ d
    if rest = 0 then (t, true)
    else
      let up := match r with
        | .zero => false
        | .near => decide (2 ^ d < 2 * rest) || (decide (2 * rest = 2 ^ d) && t % 2 == 1)
        | .stoch => decide (draw % 2 ^ 32 < (rest * 2 ^ 32) >>> d)
      (if up then t + 1 else t, false)

/-- The magnitude code of the largest finite value. -/
def topCode (f : Fmt) : Nat :=
  match f.kind with
  | .ieee => (2 ^ f.eb - 1) * 2 ^ f.mb - 1
  | .e4m3 => 2 ^ (f.eb + f.mb) - 2
  | _ => 2 ^ (f.eb + f.mb) - 1

/-- The canonical NaN (R227); an element format without NaN takes +0 (R808). -/
def nanCode (f : Fmt) : Nat :=
  match f.kind with
  | .ieee => (2 ^ f.eb - 1) * 2 ^ f.mb + 2 ^ (f.mb - 1)
  | .e4m3 => 2 ^ (f.eb + f.mb) - 1
  | _ => 0

/-- Code of an infinite value, or of a finite one that overflows to nearest (R228, R230, R808). -/
def beyond (f : Fmt) (sat isInf neg : Bool) : Nat :=
  let sign := if neg then 2 ^ (f.width - 1) else 0
  match f.kind with
  | .ieee => if sat && !isInf then sign + topCode f else sign + (2 ^ f.eb - 1) * 2 ^ f.mb
  | .e4m3 => if sat then sign + topCode f else nanCode f
  | _ => sign + topCode f

/-- Magnitude code of m × 2^e rounded by a mode; codes above `topCode` overflow. -/
def magCode (f : Fmt) (r : Rnd) (draw m : Nat) (e : Int) : Nat × Bool :=
  let emin : Int := 1 - (f.bias : Int)
  let q := max (log2Mag m e) emin - f.mb
  let n := roundQ r draw m e q
  ((q + f.mb + f.bias - 1).toNat * 2 ^ f.mb + n.1, n.2)

/-- Round a value once into a format (R219, R225, R227, R228, R230, R231, R232, R808). -/
def encodeNum (code : Nat) (r : Rnd) (ftz sat : Bool) (draw : Nat) (x : Num) : Nat :=
  let f := fmtOf code
  match f.kind with
  | .int | .fixed =>
    let hi : Nat := 2 ^ (f.width - 1) - 1
    let lo : Nat := if f.kind = .int then hi + 1 else hi
    let v : Int := match x with
      | .nan => 0
      | .inf neg => if neg then -(lo : Int) else hi
      | .fin neg m e =>
        let q : Int := if f.kind = .int then 0 else -6
        let z := roundQ .zero 0 m e q
        let past := decide (hi < z.1) || (z.1 == hi && !z.2)
        let n := (roundQ (if past && r == .stoch then .near else r) draw m e q).1
        if neg then -(min n lo : Nat) else (min n hi : Nat)
    (v % (2 ^ f.width : Nat)).toNat
  | _ =>
    let sat := sat && satActs code
    match x with
    | .nan => nanCode f
    | .inf neg => beyond f sat true neg
    | .fin neg m e =>
      let sign := if neg then 2 ^ (f.width - 1) else 0
      if m = 0 then sign
      else if ftz && ftzActs code && decide (log2Mag m e < 1 - (f.bias : Int)) then sign
      else
        let top := topCode f
        let z := magCode f .zero 0 m e
        let past := decide (top < z.1) || (z.1 == top && !z.2)
        let c := magCode f (if past && r == .stoch then .near else r) draw m e
        if c.1 ≤ top then sign + c.1
        else if r = .zero then sign + top
        else beyond f sat false neg

/-! ### Elementwise operations (R233 to R237) -/

/-- Sum, difference, product of one element pair in a format (R233, R234). -/
def arithAdd (code : Nat) (r : Rnd) (ftz : Bool) (draw a b : Nat) : Nat :=
  if code = 14 then (a + b) % 2 ^ 32
  else encodeNum code r ftz false draw (addNum (decodeNum code ftz a) (decodeNum code ftz b))
def arithSub (code : Nat) (r : Rnd) (ftz : Bool) (draw a b : Nat) : Nat :=
  if code = 14 then (a % 2 ^ 32 + 2 ^ 32 - b % 2 ^ 32) % 2 ^ 32
  else encodeNum code r ftz false draw (addNum (decodeNum code ftz a) (negNum (decodeNum code ftz b)))
def arithMul (code : Nat) (r : Rnd) (ftz : Bool) (draw a b : Nat) : Nat :=
  if code = 14 then (a * b) % 2 ^ 32
  else encodeNum code r ftz false draw (mulNum (decodeNum code ftz a) (decodeNum code ftz b))
/-- Fused multiply-add: one rounding (R233). -/
def arithFma (code : Nat) (r : Rnd) (ftz : Bool) (draw a b c : Nat) : Nat :=
  encodeNum code r ftz false draw
    (addNum (mulNum (decodeNum code ftz a) (decodeNum code ftz b)) (decodeNum code ftz c))

/-- Order of two values that are no NaN: −0 below +0, infinities as values (R235). -/
def lessNum : Num → Num → Bool
  | .nan, _ => false
  | _, .nan => false
  | .inf a, .inf b => a && !b
  | .inf a, .fin .. => a
  | .fin .., .inf b => !b
  | .fin a m e, .fin b n f =>
    let lo := min e f
    let x := sInt a m * (2 ^ (e - lo).toNat : Nat)
    let y := sInt b n * (2 ^ (f - lo).toNat : Nat)
    decide (x < y) || (decide (x = y) && m == 0 && a && !b)

/-- Maximum or minimum of one element pair (R235). -/
def arithPick (code : Nat) (ftz wantMax : Bool) (a b : Nat) : Nat :=
  if code = 14 then
    let x := toSigned 32 (a % 2 ^ 32)
    let y := toSigned 32 (b % 2 ^ 32)
    if decide (x < y) = wantMax then b % 2 ^ 32 else a % 2 ^ 32
  else
    let x := decodeNum code ftz a
    let y := decodeNum code ftz b
    if x = .nan ∨ y = .nan then nanCode (fmtOf code)
    else if lessNum x y = wantMax then encodeNum code .near ftz false 0 y else encodeNum code .near ftz false 0 x

/-- One element converted from a format to another (R230 to R232, R237, R808). -/
def convertElem (src dst : Nat) (r : Rnd) (ftz sat : Bool) (draw x : Nat) : Nat :=
  encodeNum dst r ftz sat draw (decodeNum src ftz x)

/-- The complex product of interleaved pairs: each part exact from its two products, then rounded once (R236). -/
def cmulPart (code : Nat) (r : Rnd) (ftz : Bool) (draw a b c d : Nat) (imag : Bool) : Nat :=
  let n := decodeNum code ftz
  let v := if imag then addNum (mulNum (n a) (n d)) (mulNum (n b) (n c))
           else addNum (mulNum (n a) (n c)) (negNum (mulNum (n b) (n d)))
  encodeNum code r ftz false draw v

/-! ### Microscaling (R209 to R217) -/

/-- Scale a value by 2^k. -/
def scaleNum (k : Int) : Num → Num
  | .fin s m e => .fin s m (e + k)
  | x => x

/-- Value of an MX element under its scale byte (R209). -/
def mxNum (code scale x : Nat) : Num :=
  if scale % 256 = 255 then .nan else scaleNum ((scale % 256 : Nat) - 127) (decodeNum code false x)

/-- emax of an MX format (R210). -/
def emaxOf (code : Nat) : Nat :=
  match code with
  | 6 => 8
  | 7 => 15
  | 8 => 4
  | 9 => 2
  | 10 => 2
  | _ => 0

/-- floor(log2) of the largest magnitude of a list of values, none for all zero. -/
def topLog (xs : List Num) : Option Int :=
  xs.foldl (fun acc x => match x with
    | .fin _ m e => if m = 0 then acc else
        (match acc with
         | none => some (log2Mag m e)
         | some a => some (max a (log2Mag m e)))
    | _ => acc) none

/-- MX encoding of a block: scale byte and elements (R210 to R213). -/
def mxPack (code : Nat) (r : Rnd) (draws : List Nat) (xs : List Num) : Nat × List Nat :=
  let bad := xs.any (fun x => match x with | .fin .. => false | _ => true)
  if bad then (255, xs.map (fun _ => 0))
  else match topLog xs with
    | none => (0, xs.map (fun _ => 0))
    | some l =>
      let s : Int := min 254 (max 0 (l - (emaxOf code : Int) + 127))
      let f := fmtOf code
      let elem := fun (p : Num × Nat) =>
        let y := scaleNum (127 - s) p.1
        match f.kind, y with
        | .fixed, _ => encodeNum code r false true p.2 y
        | .plain, _ => encodeNum code r false true p.2 y
        | _, .fin neg m e =>
          if m = 0 then encodeNum code r false true p.2 y
          else
            let top := topCode f
            let z := magCode f .zero 0 m e
            let past := decide (top < z.1) || (z.1 == top && !z.2)
            let c := magCode f (if past && r == .stoch then .near else r) p.2 m e
            (if neg then 2 ^ (f.width - 1) else 0) + min c.1 top
        | _, _ => 0
      (s.toNat, (xs.zip draws).map elem)

/-- MXUNPACK of one element into binary32 or BF16 (R217, R226, R228). -/
def mxUnpackElem (code scale dst : Nat) (r : Rnd) (draw x : Nat) : Nat :=
  encodeNum dst r false false draw (mxNum code scale x)

/-! ### Dot products (R241 to R244) -/

/-- Values whose sum a DOT group rounds: the products and the accumulator lane. -/
def sumNums (xs : List Num) : Num := xs.foldl addNum (zeroNum true)

/-- One group of a DOT in a floating-point or MX format into a binary32 lane (R241, R243, R244). -/
def dotGroup (code : Nat) (r : Rnd) (ftz : Bool) (sa sb c : Nat) (as bs : List Nat) : Nat :=
  let val := fun s x => if isMxCode code then mxNum code s x else decodeNum code ftz x
  let ps := (as.zip bs).map (fun p => mulNum (val sa p.1) (val sb p.2))
  let scaleBad := isMxCode code && (sa % 256 == 255 || sb % 256 == 255)
  let acc := decodeNum 1 ftz c
  encodeNum 1 (plainRnd r) ftz false 0 (if scaleBad then .nan else addNum acc (sumNums ps))
where
  /-- MX codes. -/
  isMxCode (code : Nat) : Bool := decide (6 ≤ code) && decide (code ≤ 11)

/-- One group of an integer DOT into an INT32 lane (R242). -/
def dotInt (code c : Nat) (as bs : List Nat) : Nat :=
  let w := (fmtOf code).width
  let v := (as.zip bs).foldl (fun (a : Int) p => a + toSigned w p.1 * toSigned w p.2) (c : Int)
  (v % (2 ^ 32 : Nat)).toNat

/-! ### Lane sums (R245) -/

/-- One stage of the pairwise tree. -/
def treeStage (f : Nat → Nat → Nat) : List Nat → List Nat
  | a :: b :: xs => f a b :: treeStage f xs
  | xs => xs

/-- The tree of a lane sum: at most 5 stages. -/
def treeSum (f : Nat → Nat → Nat) (xs : List Nat) : Nat :=
  ((List.range 5).foldl (fun l _ => treeStage f l) xs).headD 0

/-- Lane sum of a register (R245). -/
def laneSum (code : Nat) (r : Rnd) (ftz : Bool) (xs : List Nat) : Nat := treeSum (arithAdd code (plainRnd r) ftz 0) xs

/-! ### Grid sums (R247 to R256) -/

/-- The exponent word of one addend (R247, R248, R251). -/
def expWord (code : Nat) (ftz : Bool) (x : Nat) : Nat :=
  match decodeNum code ftz x with
  | .nan => 0x1800
  | .inf false => 0x2800
  | .inf true => 0x4800
  | .fin _ m e => if m = 0 then 0x800 else (log2Mag m e % 4096).toNat

/-- Combine two exponent words: the larger E and the union of the flags (R249). -/
def expJoin (a b : Nat) : Nat :=
  let ea := toSigned 12 (bits a 0 12)
  let eb := toSigned 12 (bits b 0 12)
  (if ea < eb then bits b 0 12 else bits a 0 12) + 4096 * (bits a 12 3 ||| bits b 12 3)

/-- Grid value of an addend under an exponent word, modulo 2^128 (R252). -/
def gridQ (code : Nat) (ftz : Bool) (w x : Nat) : Nat :=
  let E := toSigned 12 (bits w 0 12)
  match decodeNum code ftz x with
  | .fin neg m e =>
    if m = 0 ∨ E = -2048 then 0
    else
      let k := e + 100 - E
      let q : Nat := if 0 ≤ k then m * 2 ^ k.toNat % 2 ^ 128 else m >>> (-k).toNat
      (sInt neg q % (2 ^ 128 : Nat)).toNat
  | _ => 0

/-- Sum of grid values (R253). -/
def gridAdd (a b : Nat) : Nat := (a + b) % 2 ^ 128

/-- A grid sum rounded once into a format (R256). -/
def gridRound (code : Nat) (r : Rnd) (ftz : Bool) (w q : Nat) : Nat :=
  let E := toSigned 12 (bits w 0 12)
  let v : Num :=
    if w.testBit 12 || (w.testBit 13 && w.testBit 14) then .nan
    else if w.testBit 13 then .inf false
    else if w.testBit 14 then .inf true
    else
      let k := toSigned 128 (q % 2 ^ 128)
      if k = 0 then zeroNum false else .fin (decide (k < 0)) k.natAbs (E - 100)
  encodeNum code (plainRnd r) ftz false 0 v

/-! ### The generator (R140, R221) -/

/-- One round of Philox4x32 on a counter of four words under a key of two. -/
def philoxRound (c : Nat × Nat × Nat × Nat) (k : Nat × Nat) : Nat × Nat × Nat × Nat :=
  let p0 := 0xD2511F53 * c.1
  let p1 := 0xCD9E8D57 * c.2.2.1
  ((p1 / 2 ^ 32) ^^^ c.2.1 ^^^ k.1, p1 % 2 ^ 32, (p0 / 2 ^ 32) ^^^ c.2.2.2 ^^^ k.2, p0 % 2 ^ 32)

/-- `n` rounds, the key bumped after each. -/
def philoxN : Nat → Nat × Nat × Nat × Nat → Nat × Nat → Nat × Nat × Nat × Nat
  | 0, c, _ => c
  | n + 1, c, k => philoxN n (philoxRound c k) ((k.1 + 0x9E3779B9) % 2 ^ 32, (k.2 + 0xBB67AE85) % 2 ^ 32)

/-- The output block of a counter: four words. -/
def philox (c0 c1 c2 c3 k0 k1 : Nat) : List Nat :=
  let r := philoxN 10 (c0, c1, c2, c3) (k0, k1)
  [r.1, r.2.1, r.2.2.1, r.2.2.2]

/-- The block of a lane of a drawing unit (R140): starter, context, step, draw index, unit, source. -/
def drawBlock (st : Starter) (ctx step idx lane unit source : Nat) : List Nat :=
  philox (idx % 2 ^ 32) (lane % 32 + unit % 2048 * 32 + source % 16 * 2 ^ 16) (step % 2 ^ 32) (step / 2 ^ 32 % 2 ^ 32)
    ((st.seed.toNat % 2 ^ 32) ^^^ st.stream.toNat) ((st.seed.toNat / 2 ^ 32) ^^^ ctx)

/-- The draw words of elements 0 to n − 1 of a result: element e takes lane e mod 32 and word floor(e / 32) (R221). -/
def drawWords (st : Starter) (ctx step unit source n : Nat) (idx : Nat → Nat) : List Nat :=
  let blocks := (List.range (min n 32)).map (fun l => drawBlock st ctx step (idx l) l unit source)
  (List.range n).map (fun e => (blocks.getD (e % 32) []).getD (e / 32) 0)

end Sys2Proof.Machine
end

