-- ==== Sys2Proof/Machine/Faults.lean ====
section
/-! DEFINITION. The commands of the fault groups: detection, the end of a grace period, the writes of a group's
registers, firmware's reception of a fault and the heartbeat of ERR_N (R695 to R718, R805 to R807). -/
namespace Sys2Proof.Machine
open Sys2Proof

/-- Largest defined status bit of a group (R718 and the chapters of the blocks). -/
def topBit (g : Nat) : Nat :=
  [7, 5, 3, 3, 4, 5, 7, 3, 6, 3, 6, 7, 7, 8, 6, 1, 9, 8, 7, 7, 7, 7, 7, 6, 9, 9, 9, 9, 4].getD g 0

/-- Record a failing cell in `FAB_Q_FAULT_CELL` (R195, R201). -/
def recordCell (q phys : Nat) (s : State) : State :=
  let x := s.quad q
  let sp := cellSpot q phys
  s.setQuad q { x with fCell := phys, fSlot := (s.col sp.1).slot, fCount := satInc x.fCount }

/-- Poison what a cell's error struck (R195); a struck slot poisons what is read from it until it is written again. -/
def strikeCell (n : Nat) (w : CellPart) (s : State) : State :=
  let c := s.cell n
  let bad := fun (t : Tab Vec) (i : Nat) => Tab.upd {} t i (fun v => { v with poison := true })
  match w with
  | .ls l => s.setCell n { c with ls := bad c.ls l.val }
  | .slot k => s.setCell n { c with slotBad := putBit c.slotBad k.val true }
  | .vreg r => s.setCell n { c with v := bad c.v r.val }
  | .accParity a => s.setCell n { c with acc := bad c.acc a.val }
  | .residue r => s.setCell n { c with v := bad c.v r.val }

/-- Record an uncorrectable error of a cell and raise its bit (R195, R203); where the column's spare is in use, or is bad,
SPARE_EXHAUSTED sets too. -/
def cellFails (q bit phys : Nat) (s : State) : State :=
  let c := s.col (cellSpot q phys).1
  let s := raise (24 + q) bit phys (recordCell q phys s)
  if decide (bit ≤ 4) && (c.spare || c.spareBad) then
    refresh (s.setGrp (24 + q) { s.grp (24 + q) with status := putBit (s.grp (24 + q)).status 8 true })
  else s

/-! ### Checks of a cell (R161, R195, R197) -/

/-- A check in a cell finds something: a corrected error counts, an uncorrectable one is recorded and raises its bit.
The first result says whether the value is poisoned. [DEDUCED, log entry 34] -/
def cellCheck (n bit : Nat) (corrects : Bool) (e : Ecc) (s : State) : Bool × State :=
  let q := n / 512
  let r := checkEcc (24 + q) bit corrects e s
  match r.1 with
  | .clean => (false, r.2)
  | .corrected => let x := r.2.quad q; (false, r.2.setQuad q { x with ce := satInc x.ce })
  | .uncorrectable => (true, cellFails q bit (physCell r.2 n) r.2)

/-- The words of a slot are read: its code is checked, and a slot that an error has struck poisons what comes of them (R161,
R195). -/
def slotRead (n slot : Nat) (s : State) : Bool × State :=
  let r := cellCheck n 2 true .clean s
  let s := if r.1 then strikeCell n (.slot (Fin.ofNat 8 slot)) r.2 else r.2
  ((s.cell n).slotBad.getLsbD (slot % 8), s)

/-- The part of a cell that a status bit of the fabric speaks of (R203). Which line or register it is a free value says.
[DESIGN CHOICE, log entry 99] -/
def struckPart (s : State) (n bit : Nat) : CellPart :=
  let f := (s.drawFree 9).1.toNat
  match bit with
  | 1 => .ls (Fin.ofNat 512 f)
  | 2 => .slot (Fin.ofNat 8 (s.col (n / 16)).slot)
  | 3 => .vreg (Fin.ofNat 32 f)
  | _ => .residue (Fin.ofNat 32 f)

/-- A quadrant's power domain has failed: every owned column of the quadrant is fenced, and its partition's next proof holds
with reason FENCE (R199). -/
def quadLost (q : Nat) (s : State) : State :=
  let s := setDomain (8 + q) false (s.setQuad q { s.quad q with powered := false })
  ((List.range 32).map (· + q * 32)).foldl (fun s k =>
    match (s.col k).owner with
    | some p => if (s.col k).fenced then s else fenceCol k (markFence [p] s)
    | none => s) s

/-- FAULT_DETECT: a reserved bit has no checker behind it. A cell error is recorded first, and poisons what it struck (R195,
R199). A switchbox failure fences its column (R191, R203). In a quadrant's group the unit 0x3FF, the number of no cell, stands
for the quadrant's power domain (R199). [DESIGN CHOICE, log entry 99] -/
def faultDetect (g : Fin 29) (bit : Fin 32) (unit : Nat) (s : State) : State :=
  if topBit g < bit.val then s
  else
    let fab := decide (24 ≤ g.val) && decide (g.val ≤ 27)
    if fab && unit == 0x3FF then quadLost (g.val - 24) (raise g.val bit.val noUnit s) else
    let cell := fab && decide (1 ≤ bit.val) && decide (bit.val ≤ 4)
    let sp := cellSpot (g.val - 24) (unit % 544)
    let s := match cell, logicalRow (s.col sp.1) sp.2 with
      | true, some r => strikeCell (cellBase sp.1 + r) (struckPart s (cellBase sp.1 + r) bit.val) s.spend
      | _, _ => s
    let s := if cell then cellFails (g.val - 24) bit.val (unit % 544) s else raise g.val bit.val unit s
    if fab && bit.val == 9 then requestColFence (cellSpot (g.val - 24) (unit % 544)).1 s else s

/-- FAULT_DETECT (R698). -/
def execFaultDetect (g : Fin 29) (bit : Fin 32) (unit : Nat) (s : State) : Host.Outcome State Fault Refusal :=
  .next (faultDetect g bit unit s)

/-- The lowest status bit that an expiring group escalates for, as `FLT_STOP_CAUSE.BIT` shows it. -/
def firstLive (x : FGroup) : Nat := ((List.range 32).find? (fun b => x.live.getLsbD b)).getD 0

/-- GRACE_EXPIRY: the group's ACTION for every unit with an unacknowledged unmasked fault (R699). With its timer idle
the group has nothing to expire. [DESIGN CHOICE, log entry 8] -/
def graceExpiry (g : Nat) (s : State) : State :=
  let x := s.grp g
  if !x.timer then s
  else
    let bit := firstLive x
    let r := escalateOnce g s
    refresh (if r.1 then detectN 5 7 1 0 (stopPackage 1 g bit r.2) else r.2)

/-- GRACE_EXPIRY (R699). -/
def execGraceExpiry (g : Fin 29) (s : State) : Host.Outcome State Fault Refusal := .next (graceExpiry g s)

/-- PWR, THM and QOS targets are frozen from Freeze to Resume of a peel: the host driver's writes to RW fields of those blocks are
refused (R763). [DEDUCED, log entry 16] -/
def frozen (g : Nat) (s : State) : Bool := (g == 5 || g == 6 || g == 9) && (s.mgt.peel == .handover || s.mgt.peel == .jumped)

/-- FAULT_STATUS_CLEAR: each 1 clears its bit and acknowledges the fault (R696). -/
def execFaultStatusClear (g : Fin 29) (val : Word) (s : State) : Host.Outcome State Fault Refusal :=
  .next (clearBits g val s)

/-- FAULT_ACK: acknowledge without clearing (R696). -/
def execFaultAck (g : Fin 29) (val : Word) (s : State) : Host.Outcome State Fault Refusal := .next (ackBits g val s)

/-- The package stops where as many groups are in grace as the threshold asks for; a group and its status bit are shown as the
cause (R705). -/
def reachThreshold (g bit : Nat) (s : State) : State :=
  if s.flt.thresh ≠ 0 ∧ s.flt.thresh ≤ (graceGroups s).length ∧ s.flt.stopped = false then
    detectN 5 7 1 0 (detectN 5 7 2 0 (stopPackage 2 g bit s))
  else s

/-- A new threshold: one that the groups in grace have already reached stops the package, with the group whose timer started
last as the cause. [DEDUCED, log entry 70] -/
def setThreshold (t : Nat) (s : State) : State :=
  let s := { s with flt := { s.flt with thresh := t } }
  match graceGroups s with
  | [] => s
  | g :: gs =>
    let last := gs.foldl (fun a b => if (s.grp a).started.toNat < (s.grp b).started.toNat then b else a) g
    refresh (reachThreshold last (firstLive (s.grp last)) s)

/-- Faults of a group that begin to count (R806, R807): the timer starts where it is idle and the action is not LOG;
with no grace the group escalates at once; the threshold is checked. -/
def startTimer (g : Nat) (s : State) : State :=
  let x := s.grp g
  if x.live = 0 || x.action == .log || x.timer || s.flt.stopped then s
  else if x.grace = 0 then
    let bit := firstLive x
    let r := escalateOnce g s
    if r.1 then detectN 5 7 1 0 (stopPackage 1 g bit r.2) else r.2
  else
    reachThreshold g (firstLive x) (s.setGrp g { x with timer := true, started := s.clk.now })

/-- FAULT_MASK_WRITE (R697, R716, R807). [DEDUCED, log entry 16] -/
def faultMaskWrite (g : Nat) (val : Word) (s : State) : State :=
  refresh (startTimer g (settleGroup g (s.setGrp g { s.grp g with mask := val })))

/-- FAULT_MASK_WRITE (R807). -/
def execFaultMaskWrite (g : Fin 29) (val : Word) (s : State) : Host.Outcome State Fault Refusal :=
  .next (if frozen g s then refuseWrite g s else faultMaskWrite g val s)

/-- The action of a code. -/
def FAction.ofCode (c : Nat) : FAction :=
  if c = 0 then .log else if c = 1 then .fenceUnit else if c = 2 then .holdPartition else .stopPackage

/-- FAULT_ACTION_WRITE: FENCE_UNIT is refused in the package-wide groups (R701). A group whose action becomes LOG runs
no timer; one whose action ceases to be LOG starts it at the write (R806). [DEDUCED, log entry 70] -/
def faultActionWrite (g : Nat) (val : Word) (s : State) : State :=
  let a := FAction.ofCode (bits val.toNat 0 2)
  if a == .fenceUnit && wideGroup g then refuseWrite g s
  else
    let x := s.grp g
    refresh (startTimer g (s.setGrp g { x with action := a, timer := x.timer && a != .log }))

/-- FAULT_ACTION_WRITE (R806). -/
def execFaultActionWrite (g : Fin 29) (val : Word) (s : State) : Host.Outcome State Fault Refusal :=
  .next (if frozen g s then refuseWrite g s else faultActionWrite g val s)

/-- FAULT_INJECT_ARM: only the bits of R805 are stored, with DOUBLE. The management core reads its SRAM at all times, so an
injection into it fires at once while the core runs (R696, R712, R713). [DEDUCED, log entry 20] -/
def faultInjectArm (g : Nat) (val : Word) (s : State) : State :=
  let s := s.setGrp g { s.grp g with inject := val &&& BitVec.ofNat 32 (injectable g + 0x80000000) }
  if g = 0 ∧ s.mgt.halted = false then
    let c := checkEcc 0 5 true .clean s
    if c.1 == .uncorrectable then raise 0 5 0 c.2 else c.2
  else s
/-- FAULT_INJECT_ARM (R712). -/
def execFaultInjectArm (g : Fin 29) (val : Word) (s : State) : Host.Outcome State Fault Refusal := .next (if frozen g s then refuseWrite g s else faultInjectArm g val s)

/-- FAULT_SIGNAL: firmware writes a log entry and acknowledges the fault of a group whose action is LOG (R703). -/
def faultSignal (g bit : Nat) (s : State) : State :=
  let s := writeLog g 2 0 bit 0 0 s
  if (s.grp g).action == .log then ackBits g (BitVec.ofNat 32 (2 ^ bit)) s else s

/-- FAULT_SIGNAL (R703). While the management core is halted or out of service nothing is received. -/
def execFaultSignal (g : Fin 29) (bit : Fin 32) (s : State) : Host.Outcome State Fault Refusal :=
  .next (if s.mgt.halted || s.mgt.unavail then s else faultSignal g bit s)

/-- ERRN_HEARTBEAT: 500 µs have passed in heartbeat mode; the pin toggles while no unmasked status bit is set (R711). -/
def errnHeartbeat (s : State) : State :=
  if s.flt.modeRead && s.flt.heartbeat && (pendingGroups s).isEmpty then
    { s with flt := { s.flt with pin := !s.flt.pin } }.emit (.errN (!s.flt.pin))
  else refreshPin s

/-- ERRN_HEARTBEAT (R711). -/
def execErrnHeartbeat (s : State) : Host.Outcome State Fault Refusal := .next (errnHeartbeat s)

end Sys2Proof.Machine
end

