-- ==== Sys2Proof/Machine/ViOps.lean ====
section
/-! DEFINITION. Virtual interfaces and descriptors: virtual faults, completion entries, quiescing and detaching at a
proof, the passing of a descriptor to its engine and its early end (R294, R301, R553, R566 to R572). -/
namespace Sys2Proof.Machine
open Sys2Proof

/-! ### Ring engine and completion entries (R542, R544, R568, R569) -/

/-- The ring engine of a schedule: the highest engine of XFE_MASK that it does not exclude, for a partition with VIs
(R542). -/
def ringOf (cfg : PartCfg) (excl : List (Nat × Nat)) : Option Nat :=
  if cfg.viCount = 0 then none
  else ((List.range 64).reverse).find? (fun e => cfg.xfes.getLsbD e && !excl.contains (6, e))

/-- The ring engine of a partition's active schedule. -/
def ringEngine (s : State) (p : Nat) : Option Nat := ringOf (s.part p).cfg (s.part p).excl

/-- A virtual fault of a VI, with its FAULT interrupt unless masked (R583). [DEDUCED, log entry 63] -/
def viFault (v bit : Nat) (s : State) : State :=
  refresh (s.modVi v (fun x =>
    { x with vstatus := putBit x.vstatus bit true,
             intPend := if x.vmask.getLsbD bit then x.intPend else x.intPend ||| 8#5 }))

/-- Bytes of a completion entry (R568). -/
def entryBytes (e : CplEntry) (phase : Bool) : List Byte :=
  leBytes 4 (e.status.code + (if phase then 256 else 0) + e.opcode * 65536) ++ leBytes 4 e.cmdId.toNat ++
  leBytes 8 e.step.toNat ++ leBytes 4 e.detail.toNat ++ List.replicate 12 0#8

/-- Where a host access by an engine goes: the host address after ATS, or an ATS request that has to come first (R275). -/
inductive HostSpot where
  | go (addr : Nat)
  | ask
  deriving DecidableEq, Repr

/-- The buffered page that gives a host access of a unit its address (R273, R275). -/
def hostFind (s : State) (unit ctx iova : Nat) (write : Bool) : Option XlEntry :=
  let ok := fun (e : XlEntry) => if write then e.w else e.r
  ((bufFind s unit true ctx iova).filter ok).or ((l2Find s true ctx iova).filter ok)

/-- The host address of an IOVA: the IOVA itself with ATS off, the translation held with ATS on. -/
def hostSpot (s : State) (unit ctx iova : Nat) (write : Bool) : HostSpot :=
  if !s.xlt.atsEn then .go iova
  else match hostFind s unit ctx iova write with
    | some e => .go (e.goal + (iova - e.base))
    | none => .ask

/-- What a host access leaves in the buffers: a hit of the second level enters the unit's own buffer (R273, R321). -/
def noteHost (unit ctx iova : Nat) (write : Bool) (s : State) : State :=
  if !s.xlt.atsEn || ((bufFind s unit true ctx iova).filter (fun e => if write then e.w else e.r)).isSome then s
  else match l2Find s true ctx iova with
    | some e => bufFill unit e { s with xlt := { s.xlt with l2Hits := satInc s.xlt.l2Hits } }
    | none => s

/-- The TLP of a host access: translated with ATS on (R276, R277). -/
def hostTlp (s : State) : Tlp := hubTlp (if s.xlt.atsEn then .translated else .untranslated)

/-- A host read leaves its port: the request goes to the host, where its response is awaited. [DESIGN CHOICE, log entry 101] -/
def hostReadGo (r : Req) (s : State) : State :=
  (s.modReq r.tag (fun r => { r with gone := true })).emit (.hostRead (hostTlp s) r.tag r.addr r.len)

/-- Present a host read at its port: it goes to the host at once, or is held for tokens (R381, R382). -/
def issueHostRead (r : Req) (s : State) : Nat × State :=
  let i := issueReq { r with host := true, write := false } s
  match i.2.reqOf i.1 with
  | some q => if q.held then i else (i.1, hostReadGo q i.2)
  | none => i

/-- Ask the host for a translation, once per engine, context and page (R275): both levels of the buffers have missed.
[DESIGN CHOICE, log entry 41] -/
def askAts (e ctx iova : Nat) (s : State) : State :=
  let pg := iova / 4096 * 4096
  if s.xlt.atsWait.contains (e, ctx, pg) then s
  else { s with xlt := { s.xlt with atsWait := s.xlt.atsWait ++ [(e, ctx, pg)], l2Misses := satInc s.xlt.l2Misses } }.emit
    (.atsReq (hubTlp .translationRequest) e pg)

/-- Free entries of a completion ring: those below the tenant's head in ring order; one stays free so that a full and
an empty ring differ (R569). -/
def cplFree (x : Vi) : Nat := if x.cplSize = 0 then 0 else x.cplSize - 1 - (x.cplTail + x.cplSize - x.cplHead) % x.cplSize

/-- Stop issuing at an element (R301, R307): runs from it on whose writes have not been issued are given up, what they
still read is left to complete. [DEDUCED, log entry 39] -/
def cutAt (k : Nat) (c : XCur) : XCur :=
  let gone := c.units.filter (fun u => decide (k ≤ u.start) && !u.wrote)
  { c with units := c.units.filter (fun u => !(decide (k ≤ u.start) && !u.wrote)), next := min k c.next, cut := some (min k (c.cut.getD k)),
           drain := c.drain ++ gone.flatMap XUnit.openReads ++ (c.fetch.filter (fun r => r.2.isNone)).map (·.1),
           fetch := [], buf := if c.desc.sealedOut && decide (k ≤ c.bufAt) then [] else c.buf }

/-- Place of a status in the order of R302. -/
def statusRank : Status → Nat
  | .empty => 1
  | .aborted => 2
  | .sealFail => 3
  | .faulted => 4
  | .denied => 5
  | .poisoned => 6
  | .partialDone => 7
  | _ => 8

/-- A transfer engine ends its current descriptor at an element with a status (R301): it stops issuing there; what is
outstanding completes. Where it is ending already, the status that comes first in R302 stands; a transfer that has delivered
every element keeps its own. -/
def endAtElem (e k : Nat) (st : Status) (s : State) : State :=
  let x := s.xfe e
  match x.cur with
  | none => s
  | some c =>
    if x.run == .wait || x.run == .run || x.run == .faultWait then
      s.setXfe e { x with run := .ending, pageWait := false, cur := some { cutAt k c with endAs := some st } }
    else if x.run == .ending && decide (c.acked < c.desc.total) then
      let was := c.endAs.getD st
      s.setXfe e { x with cur := some { cutAt k c with endAs := some (if statusRank st < statusRank was then st else was) } }
    else s

/-- A transfer engine ends its current descriptor early, before its first unwritten element. [DEDUCED, log entry 39] -/
def endEarly (e : Nat) (st : Status) (s : State) : State :=
  match (s.xfe e).cur with
  | none => s
  | some c => endAtElem e c.front st s

/-- End the descriptors of a VI that have a host-window side, running and queued, ABORTED (R571). -/
def endHostDescs (v : Nat) (s : State) : State :=
  let mine := fun (d : XDesc) => d.hostSide && (match d.src with | .command w _ _ _ => w == v | _ => false)
  (s.xfes.map (·.1)).foldl (fun s e =>
    let x := s.xfe e
    let gone := x.queue.filter mine
    let s := s.setXfe e { x with queue := x.queue.filter (fun d => !mine d) }
    let s := gone.foldl (fun s d => endSource d.src .aborted 0 s) s
    match x.cur with
    | some c => if mine c.desc then endEarly e .aborted s else s
    | none => s) s

/-- A VI becomes QUIESCED (R571): fetching stops, its host-side descriptors end ABORTED, entries are held, and the
reason bit of the virtual fault group is set. -/
def quiesceVi (v : Nat) (bit : Option Nat) (s : State) : State :=
  let s := s.modVi v (fun x => { x with state := .quiesced, pend := .none, read := [], reading := none, fetchWait := false })
  let s := endHostDescs v s
  match bit with
  | some b => viFault v b s
  | none => s

/-- Ask for a quiesce: at the partition's next proof, or at once where the partition does not run (R553). [DEDUCED, log entry 58] -/
def requestQuiesce (v : Nat) (bit : Option Nat) (s : State) : State :=
  let run := match s.partOfVi v with | some p => (s.part p).active | none => false
  if (s.vi v).state != .attached then s
  else if run then s.modVi v (fun x => { x with pend := .quiesce bit }) else quiesceVi v bit s

/-- A ring access that the host window table refuses (R323, R553, R578, R582): the XLT fault bit, RING, and QUIESCED. -/
def ringDenied (v bit : Nat) (s : State) : State := requestQuiesce v (some 2) (raise 2 2 v (raise 11 bit 0 s))

/-- Write the held entries of an ATTACHED VI as far as host DMA, the ring engine and the ring allow (R544, R569, R572,
R577). The fuel is the number of entries held. -/
def deliverHeldN : Nat → Nat → State → State
  | 0, _, s => s
  | k + 1, v, s =>
    let x := s.vi v
    match x.held, (s.partOfVi v).bind (fun p => ringEngine s p) with
    | e :: rest, some eng =>
      if x.state != .attached || s.host.dmaStopped || x.resume || (s.xfe eng).run == .fenced || cplFree x = 0 then s
      else
        let dva := x.cplBase.toNat + x.cplTail * 32
        match hwtFind s v dva with
        | none => ringDenied v 3 s
        | some (_, h, iova) =>
          if !hwtPerm h true then ringDenied v 2 s
          else match hostSpot s eng v iova true, hostWriteNow eng ((s.xfe eng).owner.getD 0) false 32 s with
            | .ask, _ => askAts eng v iova s
            | .go _, none => s
            | .go a, some s =>
              let s := (noteHost eng v iova true s).emit (.hostWrite (hostTlp s) a (entryBytes e x.cplPhase) false)
              let t := (x.cplTail + 1) % x.cplSize
              let s := s.setVi v { x with held := rest, cplTail := t, cplPhase := if t = 0 then !x.cplPhase else x.cplPhase,
                                          intPend := x.intPend ||| 1#5 }
              deliverHeldN k v s
    | _, _ => s

/-- Write what can be written of a VI's held entries. -/
def deliverHeld (v : Nat) (s : State) : State := refresh (deliverHeldN (s.vi v).held.length v s)

/-- A VI becomes DETACHED (R553, R605). -/
def detachVi (v : Nat) (s : State) : State :=
  let s := s.modVi v (fun x => { x with state := .detached, pend := .none, read := [], reading := none, fetchWait := false, barrier := false })
  endSession v 3 s

/-- What waited for the partition's proof at its VIs (R553, R571, R572). -/
def viAtProof (p : Nat) (s : State) : State :=
  (s.visOf p).foldl (fun s v =>
    match (s.vi v).pend with
    | .none => s
    | .quiesce b => quiesceVi v b s
    | .detach => if (s.vi v).cmds.isEmpty then detachVi v s else s
    | .rejoin => deliverHeld v (s.modVi v (fun x => { x with state := .attached, pend := .none, resume := false }))) s

/-- End a command (R568): its entry is held, then written where the ring allows. -/
def endCommand (v tag : Nat) (st : Status) (detail : Nat) (s : State) : State :=
  deliverHeld v (holdEntry v tag st detail s)

/-- The partition's step counter has moved: a WAIT_STEP whose STEP it has reached ends (R561, R568). [DEDUCED, log entry 60] -/
def waitSteps (p : Nat) (s : State) : State :=
  let n := (s.part p).step
  (s.visOf p).foldl (fun s v =>
    ((s.vi v).cmds.filter (fun c => match c.waitFor with | some k => decide (k ≤ n) | none => false)).foldl
      (fun s c => endCommand v c.tag .ok (n.toNat % 2 ^ 32) s) s) s

/-! ### Key slots (R595 to R607) -/

/-- Engines whose running transfer uses the key slot of a VI. -/
def slotUsers (s : State) (v : Nat) : List Nat :=
  Tab.keysWhere s.xfes (fun x => (x.run == .run || x.run == .faultWait || x.run == .ending) &&
    (match x.cur with | some c => c.desc.sealed && c.desc.ctx == v | none => false))

/-- Transfers that still use a key slot end ABORTED (R607, R617). -/
def abortSlot (v : Nat) (s : State) : State := (slotUsers s v).foldl (fun s e => endEarly e .aborted s) s

/-- An uncorrectable error in a key slot: SLOT_UE, its transfers end ABORTED, its session ends with KEY_FAULT (R605, R617,
R620). -/
def keyFault (v : Nat) (s : State) : State := refresh (endSession v 6 (abortSlot v (raise 4 2 v s)))

/-- The checker of a key slot as the slot is read (R712, R805): an injected uncorrectable error is a key fault. -/
def slotCheck (v : Nat) (s : State) : Bool × State :=
  let r := checkEcc 4 2 true .clean s
  if r.1 == .uncorrectable then (false, keyFault v r.2) else (true, r.2)

/-! ### Passing a descriptor to its engine (R295, R301) -/

/-- Bytes that `n` elements of a width in bits take in a row: a 6-bit row takes one 64 B line per 64 elements (R207). -/
def rowBytes (eb n : Nat) : Nat := if eb = 6 then (n + 63) / 64 * 64 else (n * eb + 7) / 8

/-- Destination strides (R288). -/
def XDesc.dstStrides (d : XDesc) : List Int :=
  if d.hasExt then d.dstStridesExt
  else
    let c := d.counts
    let s1 : Int := (rowBytes d.dstBits (c.getD 0 0) : Nat)
    let s2 := s1 * (c.getD 1 0 : Nat)
    let s3 := s2 * (c.getD 2 0 : Nat)
    let s4 := s3 * (c.getD 3 0 : Nat)
    [s1, s2, s3, s4, s4 * (c.getD 4 0 : Nat)]

/-- Alignment of an address on one side: the element width, and the 64 B line on which a row of 6-bit elements starts (R289). -/
def baseUnit (eb : Nat) : Nat := if eb = 6 then 64 else max 1 (eb / 8)
/-- Alignment of a stride on one side: that of an address, and the span of an MX format (R289, R291). -/
def strideUnit (mx : Bool) (fmt eb : Nat) : Nat := if mx && eb != 6 then (if fmt = 10 then 16 else 32) else baseUnit eb
/-- Whether an address or stride is a multiple of a unit. -/
def multOf (u : Nat) (a : Int) : Bool := decide (a % (u : Int) = 0)

/-- The rules of R293 for one descriptor of a partition, given the VIs, the engines and the ring engine. [DEDUCED, log entry 42] -/
def descOk (cfg : PartCfg) (ring : Option Nat) (checkCtx : Bool) (d : XDesc) : Bool :=
  let c := d.counts
  let mxS := d.convert && isMx d.srcFmt
  let mxD := d.convert && isMx d.dstFmt
  let mx := mxS || mxD
  let row := fun (eb fmt : Nat) (m : Bool) => (eb != 4 || c.getD 0 0 % 2 == 0) && (eb != 6 || c.getD 0 0 % 64 == 0) &&
    (!m || c.getD 0 0 % (if fmt = 8 ∨ fmt = 9 then 64 else 32) == 0)
  let rows := c.getD 1 0 * c.getD 2 0 * c.getD 3 0 * c.getD 4 0 * c.getD 5 0
  d.kind == 1 && cfg.xfes.getLsbD d.engine && cfg.xfes.getLsbD d.waitEngine &&
  ring != some d.engine && ring != some d.waitEngine &&
  (d.convert || d.esize != 7) && (!d.convert || (d.srcFmt != 15 && d.dstFmt != 15)) && d.rnd != 3 &&
  (!checkCtx || (decide (cfg.viFirst ≤ d.ctx) && decide (d.ctx < cfg.viFirst + cfg.viCount))) &&
  (!d.sealed || (d.srcHost != d.dstHost)) && (!mx || d.hasExt) &&
  row d.srcBits d.srcFmt mxS && row d.dstBits d.dstFmt mxD &&
  multOf (baseUnit d.srcBits) (d.srcDva : Nat) && multOf (baseUnit d.dstBits) (d.dstDva : Nat) &&
  d.srcStrides.all (multOf (strideUnit mxS d.srcFmt d.srcBits)) &&
  (!d.hasExt || d.dstStridesExt.all (multOf (strideUnit mxD d.dstFmt d.dstBits))) &&
  decide (rows ≤ 2 ^ 32 - 1)

/-- A descriptor ends without having run: `XFE_LAST` shows it, its command ends, and with TAINT the partition's ARRIVE
carries the taint (R301, R315, R574). -/
def endUnrun (e : Nat) (d : XDesc) (st : Status) (taint : Bool) (s : State) : State :=
  let x := s.xfe e
  let s := s.setXfe e { x with lastStat := st, lastFlags := 0, lastDesc := BitVec.ofNat 16 d.src.index,
                               cursor := [0, 0, 0, 0, 0, 0], failedN := 0 }
  let s := match x.owner with
    | some p => if taint then markFlag p 1 s else s
    | none => s
  match d.src with
  | .command v tag _ _ => endCommand v tag st 0 s
  | _ => s

/-- A descriptor is passed to its engine: it joins the engine's queue (R295). [DEDUCED, log entry 42] -/
def passDesc (d : XDesc) (s : State) : State :=
  let x := s.xfe d.engine
  let s := s.setXfe d.engine { x with queue := x.queue ++ [{ d with seq := s.xlt.order }] }
  { s with xlt := { s.xlt with order := s.xlt.order + 1 } }

/-- Pool entries of a partition: the type 0x06 records with a pool number, in file order, 64 B each. -/
def poolEntries (s : State) (p pool : Nat) : List Byte :=
  (s.img.run.recs.filter (fun r => r.sec == 6 && r.part == p && r.subject == pool)).flatMap (·.body)

/-- Entry `i` of a pool. -/
def poolEntry (s : State) (p pool i : Nat) : Option (BitVec 512) :=
  let b := ((poolEntries s p pool).drop (i * 64)).take 64
  if b.length = 64 then some (BitVec.ofNat 512 (leNat b)) else none

end Sys2Proof.Machine
end

