-- ==== Sys2Proof/Machine/Steps.lean ====
section
/-! DEFINITION. Steps and proofs: what a release launches, local arrival, the collection of arrivals, holds, breaks,
distributed releases and the time base (R99 to R152). -/
namespace Sys2Proof.Machine
open Sys2Proof

/-! ### Step records (R100, R101) -/

/-- The step record that runs. -/
def Part.rec_ (x : Part) : BitVec 512 := x.prog.steps.getD x.pc 0
def recLength (r : BitVec 512) : Nat := rfld r 0 0 24
def recProof (r : BitVec 512) : Bool := rbit r 0 24
def recAudit (r : BitVec 512) : Bool := rbit r 0 25
def recLoop (r : BitVec 512) : Bool := rbit r 0 26
def recEnd (r : BitVec 512) : Bool := rbit r 0 27
def recHoldAfter (r : BitVec 512) : Bool := rbit r 0 28
def recPower (r : BitVec 512) : Nat := rfld r 8 16 16
def recFetchCount (r : BitVec 512) : Nat := rfld r 0x14 16 10
def recFetchOffset (r : BitVec 512) : Nat := rfld r 0x18 0 24
def recFetchPeriod (r : BitVec 512) : Nat := rfld r 0x1C 0 24
def recAuditBase (r : BitVec 512) : Nat := rfld r 0x20 0 48
def recAuditSize (r : BitVec 512) : Nat := rfld r 0x28 0 32

/-- Fetch slots of one VI in a step: the first at FETCH_OFFSET, then every FETCH_PERIOD before the budget end (R106). -/
def slotsPerVi (r : BitVec 512) : Nat :=
  let left := recLength r - recFetchOffset r
  if recFetchPeriod r = 0 ∨ left = 0 then 1 else (left + recFetchPeriod r - 1) / recFetchPeriod r

/-- The VIs of a step's FETCH range (R101, R106). -/
def fetchVis (x : Part) : List Nat :=
  (List.range (recFetchCount x.rec_)).map (· + (x.cfg.viFirst + rfld x.rec_ 0x14 0 10))

/-- Budget end of the step that runs. -/
def Part.budget (x : Part) : Tick := x.started + BitVec.ofNat 64 (recLength x.rec_)

/-- The low 32 bits of the step number, as tokens carry it. -/
def Part.step32 (x : Part) : Nat := x.step.toNat % 2 ^ 32

/-- The record after the one that runs, and the loop counter (R104): a LOOP record loads an idle counter, jumps and
decrements while it is non-zero, and falls through and idles it at zero; 0xFFFF has no limit. [DEDUCED, log entry 28] -/
def nextRecord (x : Part) : Nat × Option Nat :=
  let r := x.rec_
  if recLoop r then
    let n := x.loop.getD (rfld r 4 16 16)
    if n = 0 then (x.pc + 1, none)
    else (rfld r 4 0 16, some (if rfld r 4 16 16 = 0xFFFF then n else n - 1))
  else (x.pc + 1, x.loop)

/-- The step number of the next release (R105, R152): a new value armed out of STOPPED or HELD, 0 for the first step
after a full image load, else one more. -/
def upcoming (x : Part) : BitVec 64 :=
  match x.stepNew, x.state with
  | some n, .stopped => n
  | some n, .held => n
  | _, .stopped => if x.fresh then x.step else x.step + 1
  | _, _ => x.step + 1

/-- Starter policy of the package configuration word: 0 while it is unprogrammed, 0x3 taken as 0x1 (R141, R632). -/
def starterPolicy (s : State) : Nat :=
  if !pcwOn s then 0 else let v := rfld s.lcs.pcw 0x0A 0 2; if v = 3 then 1 else v

/-- The starter a partition can use (R141). Under the policies that take the image's, an image that names none gives
SEED 0 and STREAM_BASE 0. [DEDUCED, log entry 29] -/
def starterOf (s : State) (p : Nat) : Option Starter :=
  let x := s.part p
  match starterPolicy s with
  | 2 => x.runStarter
  | 1 => some (x.imgStarter.getD { seed := 0, stream := 0 })
  | _ => some (x.runStarter.getD (x.imgStarter.getD { seed := 0, stream := 0 }))

/-! ### Cells at a release (R159, R187) -/

/-- A field of a slot image. -/
def sfld (sl : BitVec 16384) (off lo len : Nat) : Nat := rfld sl off lo len

/-- Micro-operations of a slot, at most 64. -/
def opCount (sl : BitVec 16384) : Nat := min (sfld sl 4 0 7) 64

/-- A cell starts at micro-operation 0 of a slot: pointers, line pointers and threshold from the header, both loop
counters idle, draw indices 0 (R140, R159). A slot with no micro-operation has ended at once (R189). -/
def startCell (slot : Nat) (c : Cell) : Cell :=
  let sl : BitVec 16384 := Tab.get 0 c.slots slot
  { c with
    pc := 0, done := opCount sl == 0, killed := false, loops := [], draw := [], sync := none, rets := [], writes := 0,
    b := (List.range 4).foldl (fun t i => Tab.set 0 t i (BitVec.ofNat 48 (sfld sl (8 + 8 * i) 0 48))) [],
    lp := (List.range 2).foldl (fun t i => Tab.set 0 t i (BitVec.ofNat 9 (sfld sl 0x30 (16 * i) 9))) [],
    waitThr := BitVec.ofNat 32 (sfld sl 0x38 0 32) }

/-- Every owned column in service switches to the slot of the step's slot map and its cells start, each reading its slot's
header (R102, R161, R187). -/
def switchSlots (p : Nat) (s : State) : State :=
  let x := s.part p
  let m := rfld x.rec_ 8 0 16
  (Tab.keysWhere s.fab.cols (fun c => c.owner == some p && !c.fenced)).foldl (fun s k =>
    let c := s.col k
    let slot := if m = 0xFFFF then c.slot else bits (x.prog.slotMaps.getD m 0).toNat (3 * k) 3
    let s := s.setCol k { c with slot := slot }
    let s := (List.range 16).foldl (fun s r =>
      let n := cellBase k + r
      (slotRead n slot (s.setCell n (startCell slot (s.cell n)))).2) s
    traceAt (176 + k / 32) (some p) s) s

/-- Whether a partition owns a column. -/
def ownsColumn (s : State) (p : Nat) : Bool := s.fab.cols.any (fun e => e.2.owner == some p)

/-- The partition at whose release FCLK changes: the pacing partition, or where it owns no column the lowest-numbered
one that does (R674). -/
def pacer (s : State) : Nat :=
  if ownsColumn s s.pwr.pacing then s.pwr.pacing else ((List.range 64).find? (ownsColumn s)).getD s.pwr.pacing

/-- Some region is at CAUTION or above. [DEDUCED, log entry 30; DEDUCED, log entry 69] -/
def anyCaution (s : State) : Bool := s.thm.regions.any (fun e => e.2.c1 || e.2.c2 || e.2.c3)

/-- A hub region is at CRITICAL or above. -/
def hubCritical (s : State) : Bool := (List.range 9).any (fun r => (s.region r).c2 || (s.region r).c3)

/-- Firmware may change a power target: not from Freeze to Resume, and not while it is halted (R763). -/
def mayTarget (s : State) : Bool := !s.mgt.unavail && !s.mgt.halted

/-- Firmware that runs sets FCLK_MIN while a hub region is at CRITICAL; the change waits for its release tick (R674, R684). -/
def fclkToMin (s : State) : State :=
  if mayTarget s && hubCritical s then { s with fab := { s.fab with fclkNext := some s.pwr.fclkMin } } else s

/-- Firmware keeps FCLK, and a change that is due, within FCLK_MIN to FCLK_MAX (R675). -/
def holdFclk (s : State) : State :=
  let d := clampTo s.pwr.fclkMin s.pwr.fclkMax (s.fab.fclkNext.getD s.fab.fclk)
  if mayTarget s then { s with fab := { s.fab with fclkNext := if d = s.fab.fclk then none else some d } } else s

/-- A due FCLK change is applied at the release tick of the pacing partition (R188, R674, R675); a raise is not applied
while a region is at CAUTION (R690). -/
def applyFclk (p : Nat) (s : State) : State :=
  match s.fab.fclkNext with
  | some c =>
    if pacer s = p then { s with fab := { s.fab with fclk := if s.fab.fclk < c && anyCaution s then s.fab.fclk else c, fclkNext := none } }
    else s
  | none => s

/-- Descriptors of the launch range pass to their engines in pool order; an extension launches nothing (R106, R286,
R295). Progress counters of the partition's engines reset to 0 (R297). -/
def launchDescs (p : Nat) (s : State) : State :=
  let r := (s.part p).rec_
  let pool := rfld r 0xC 0 8
  let n := rfld r 0xC 8 8
  let first := rfld r 0xC 16 16
  let s := { s with xfes := Tab.mapV {} (fun _ (x : Xfe) => if x.owner == some p then { x with progress := 0, draw := 0 } else x) s.xfes }
  (List.range n).foldl (fun s i =>
    match poolEntry s p pool (first + i) with
    | some e =>
      if rfld e 0 0 4 = 1 then
        passDesc { src := .pool p pool (first + i), base := e,
                   ext := if rbit e 4 17 then (poolEntry s p pool (first + i + 1)).getD 0 else 0 } s
      else s
    | none => s) s

/-- Each unit of COLL_MASK takes its descriptor (R106, R511). A fenced unit takes none. -/
def launchColls (p : Nat) (s : State) : State :=
  let x := s.part p
  let r := x.rec_
  let pool := rfld r 0xC 0 8
  let first := rfld r 0x10 16 16
  let units := bitsOf 8 (rfld r 0x10 0 8)
  let s := { s with cols := Tab.mapV {} (fun _ (c : Col) => if c.owner == some p then { c with draw := 0 } else c) s.cols }
  (units.zip (List.range units.length)).foldl (fun s u =>
    match poolEntry s p pool (first + u.2) with
    | some e =>
      let c := s.cunit u.1
      let o : COp := { desc := e, part := p, pool := pool, index := first + u.2, step := x.step }
      if c.run == .fenced then s
      else if c.cur.isNone then s.setCunit u.1 { c with run := .wait, cur := some o, lines := 0 }
      else s.setCunit u.1 { c with queue := c.queue ++ [o] }
    | none => s) s

/-! ### Sites at a release (R120, R406, R412, R433, R466) -/

/-- READY sites of the partition that its active schedule uses become ADMITTED (R406, R439, R818). -/
def admitSites (p : Nat) (s : State) : State :=
  let s := (Tab.keysWhere s.sites (fun t => t.owner == some p && t.newOwner)).foldl (fun s n => s.modSite n (fun t => { t with newOwner := false })) s
  (Tab.keysWhere s.sites (fun t => t.owner == some p && t.state == .ready)).foldl (fun s n =>
    if schedUses s p 5 n then traceAt (88 + n) (some p) (s.modSite n (fun t => { t with state := .admitted })) else s) s

/-- A pending voltage setting is applied at the owner's proof (R412). -/
def applyVset (p : Nat) (s : State) : State :=
  (Tab.keysWhere s.sites (fun t => t.owner == some p && t.vpend.isSome)).foldl (fun s n =>
    s.modSite n (fun t => { t with vset := t.vpend.getD t.vset, vpend := none })) s

/-- STEP_INFO to every Gelja site, with the release tick and the step number (R466). -/
def sendStepInfo (p : Nat) (tick : Tick) (s : State) : State :=
  let n := (upcoming (s.part p)).toNat % 65536
  ((s.wireSites p).filter (fun k => isGelja (s.site k))).foldl
    (fun s k => geljaTo k 0x64 (ctlMsg (tick.toNat % 2 ^ 48 + n * 2 ^ 48)) s) s

/-- The release tick at the sites: RELEASE_OUT toggles, ARRIVE_OUT goes low, an edge of RELEASE_IN is awaited (R120). -/
def releaseWires (p : Nat) (s : State) : State :=
  (s.wireSites p).foldl (fun s n =>
    let t := s.site n
    let s := s.setSite n { t with relOut := !t.relOut, arriveOut := false, relAck := false, arrived := false }
    (s.emit (.releaseOut n (!t.relOut))).emit (.arriveOut n false)) s

/-! ### The end of a step (R110, R111, R143 to R145) -/

/-- Status of the step that ends (R145). -/
def stepStatus (x : Part) (broken : Bool) : Status :=
  if broken then .aborted
  else if x.lateSent || x.holds.getLsbD 0 then .late
  else if x.domFlags.getLsbD 2 then .poisoned
  else if x.domFlags.getLsbD 1 then .partialDone
  else .ok

/-- The context under which a partition's audit reads and writes travel: that of its first VI, 0 with none. The manual
names none (a choice of the model). [DEDUCED, log entry 29] -/
def auditCtx (x : Part) : Nat := if x.cfg.viCount = 0 then 0 else x.cfg.viFirst

/-- Bytes of an audit entry (R144). -/
def auditEntry (s : State) (x : Part) (st : Status) : List Byte :=
  let size := recAuditSize x.rec_
  let fl := (if x.stretch > 0 then 1 else 0) + (if x.domFlags.getLsbD 1 then 2 else 0) + (if x.domFlags.getLsbD 3 then 4 else 0)
    + (if x.variant ≠ 0 then 8 else 0) + (if x.domFlags.getLsbD 2 then 16 else 0)
    + (if (s.grp 8).status.getLsbD 5 then 32 else 0)
  leBytes 8 x.step.toNat ++ leBytes 8 (if size = 0 then 0 else (x.digest.getD 0).toNat) ++ leBytes 4 size ++
  leBytes 4 (st.code + fl * 256 + x.variant * 65536) ++ leBytes 4 (min x.stretch 0xFFFFFFFF) ++
  leBytes 4 (x.pc + x.holds.toNat * 65536)

/-- Write the audit entry of an audited step, over the oldest when the ring is full (R144).
[DEDUCED, log entry 29; DESIGN CHOICE, log entry 80] -/
def writeAudit (p : Nat) (st : Status) (s : State) : State :=
  let x := s.part p
  let n := rfld x.prog.header 0x10 0 32
  if !recAudit x.rec_ || n = 0 then s
  else
    let dva := rfld x.prog.header 8 0 48 + x.auditHead.toNat % n * 32
    let s := (dvaWrite noBuf (auditCtx x) (dva % 2 ^ 48) (auditEntry s x st) false s).2
    s.modPart p (fun x => { x with auditHead := x.auditHead + 1 })

/-- The step ends: status, audit entry, what waited at the VIs. [DEDUCED, log entry 28] -/
def endStep (p : Nat) (s : State) : State :=
  let st := stepStatus (s.part p) false
  let s := writeAudit p st s
  let s := s.modPart p (fun x => { x with lastStatus := st, heldDone := true })
  viAtProof p s

/-- The bit of `holds` for a hold reason (R144). -/
def holdBit (h : Hold) : BitVec 7 := if h == .none then 0 else BitVec.ofNat 7 (2 ^ (h.code - 1))

/-- The first reason in the order of R111. -/
def firstHold (m : BitVec 7) : Hold :=
  if m.getLsbD 3 then .fault else if m.getLsbD 6 then .fence else if m.getLsbD 0 then .late else if m.getLsbD 5 then .image
  else if m.getLsbD 4 then .host else if m.getLsbD 2 then .holdAfter else if m.getLsbD 1 then .endStep else .none

/-- Whether a partial image is armed for the proof that ends the running step (R94, R110). -/
def imageDue (s : State) (p : Nat) : Bool :=
  match Tab.get none s.img.armed p with
  | some a => (match a.act with
    | .atStep n => n == (s.part p).step && recProof (s.part p).rec_
    | .atHold => false)
  | none => false

/-- The hold reasons that apply when the release tick is reached (R110, R150): those of the record at every end of a
step; a host request, a fence and an image only at a proof. -/
def holdsDue (s : State) (p : Nat) : BitVec 7 :=
  let x := s.part p
  let r := x.rec_
  let pr := recProof r
  let last := decide (x.prog.steps.length ≤ (nextRecord x).1)
  (if recEnd r || last then 2#7 else 0) ||| (if recHoldAfter r then 4#7 else 0) ||| (if x.fault && pr then 8#7 else 0) |||
  (if x.hostHold && pr then 16#7 else 0) ||| (if imageDue s p then 32#7 else 0) |||
  (if x.flags.getLsbD 3 && pr then 64#7 else 0)

/-- Enter HELD, or complete the proof of a partition that is HELD: at a complete proof every reason that applies is recorded
beside those given (R111). -/
def enterHeld (p : Nat) (m : BitVec 7) (complete : Bool) (s : State) : State :=
  let m := if complete then m ||| holdsDue s p else m
  let s := s.modPart p (fun x => { x with holds := x.holds ||| m, armed := none, hostHold := x.hostHold && !m.getLsbD 4,
                                          fault := x.fault && !m.getLsbD 3, heldDone := complete })
  let s := settleArmed p (setPState p .held (firstHold (s.part p).holds) s)
  if complete then endStep p s else s

/-! ### Starting a step (R105, R106) -/

/-- The next step starts at the release tick `T` (R106). `entry` starts the program at its ENTRY, and so does a program
that has run past its last record (the manual says nothing of that). TAINT, POISON and FENCE that no ARRIVE has carried stay
for the next one (R315, R355). [DEDUCED, log entry 29] -/
def startStep (p : Nat) (T : Tick) (entry : Bool) (s : State) : State :=
  let x := s.part p
  let from_ := x.state
  let nx := nextRecord x
  let entry := entry || decide (x.prog.steps.length ≤ nx.1)
  let pc := if entry then rfld x.prog.header 4 0 16 else nx.1
  let st : Option Starter :=
    if from_ == .stopped then starterOf s p
    else if from_ == .held && x.runStarter.isSome && starterPolicy s != 1 then x.runStarter
    else if x.starter.isSome then x.starter else starterOf s p
  let y : Part := { x with
    pc := pc, entry := false, loop := if entry then none else nx.2, step := upcoming x, fresh := false, revived := false,
    stepNew := if from_ == .stopped || from_ == .held then none else x.stepNew,
    starter := st, started := T, budgetOver := false, endLocal := none, arrival := none, arriveSent := false,
    children := x.children.filter (fun c => !c.ready && c.step.toNat == (upcoming x).toNat % 2 ^ 32),
    flags := if x.arriveSent || from_ == .stopped then 0 else x.flags &&& 0xE, domFlags := 0, lateSent := false, heldDone := false, heard := 0, ready := none,
    readySent := false, armed := none, stretch := 0, holds := 0, digest := none, auditAt := 0, auditCrc := 0, auditReq := none, fetches := [], regroup := false, benchFrom := none,
    hostHold := x.hostHold || x.holdNext, holdNext := false,
    seen := x.seen.filter (fun e => e.2.step.toNat == x.step32 || e.2.step.toNat == (upcoming x).toNat % 2 ^ 32) }
  let s := qosRelease p (from_ == .stopped) (s.setPart p y)
  let s := setPState p .running .none s
  let s := applyVset p (admitSites p s)
  let s := switchSlots p (applyFclk p s)
  let s := releaseWires p s
  let s := waitSteps p (launchColls p (launchDescs p s))
  traceAt (112 + p) (some p) s

/-- What a partition's release still waits for: zeroing (R349, R359, R606), and the admission of an occupant at a site
that a full image has given to it (R431). -/
def zeroPending (s : State) (p : Nat) : Bool :=
  s.sites.any (fun e => e.2.owner == some p && e.2.newOwner && !e.2.upper && e.2.cls != 0 &&
    e.2.state != .ready && e.2.state != .admitted && e.2.state != .fenced) ||
  s.mem.toZero.any (fun g => granPart s g == some p) || s.mem.leaving.any (fun g => granPart s g == some p) ||
  s.mem.banks.any (fun e => e.2.owner == some p && e.2.zeroing) || s.mem.chans.any (fun e => e.2.owner == some p && e.2.zeroing)

/-- Whether a partition's active schedule uses a fenced bank, channel or stack: it resumes only under a variant that excludes
the unit (R357). -/
def memFenced (s : State) (p : Nat) : Bool :=
  let c := (s.part p).cfg
  (bitsOf 64 c.banks.toNat).any (fun b => (s.bank b).fenced && schedUses s p 2 b) ||
  (bitsOf 192 c.chans.toNat).any (fun k => ((s.chan k).fenced || (s.stack (k / 32)).fenced) && schedUses s p 3 k)

/-- The release tick of an armed release is reached (R106, R110): a WAITING partition starts its next step or holds; a
partition released out of STOPPED, HELD or BROKEN starts. The release is applied at the tick that it names (R127); while a
granule is still zeroing it waits. [DEDUCED, log entry 30] -/
def releaseNow (p : Nat) (s : State) : State :=
  let x := s.part p
  match x.armed with
  | none => s
  | some a =>
    if s.clk.now.toNat < a.tick.toNat then s
    else if x.state == .waiting then
      let m := holdsDue s p
      if m ≠ 0 then enterHeld p m true s
      else if zeroPending s p then s
      else
        let s := endStep p s
        startStep p a.tick false s
    else if x.state == .running then s
    else if zeroPending s p then s
    else if memFenced s p then s.modPart p (fun x => { x with armed := none, ready := none, readySent := false })
    else
      startStep p a.tick x.entry s

/-! ### Sending arrivals and computing the release (R125 to R127) -/

/-- The tick whose low 48 bits a token carries: the one nearest to the package's own counter (R122). -/
def expand48 (now t : Nat) : Nat :=
  let v := now / 2 ^ 48 * 2 ^ 48 + t
  if v + 2 ^ 47 < now then v + 2 ^ 48 else if now + 2 ^ 47 < v then v - 2 ^ 48 else v

/-- Latest tick that the children of a kind reported, and the package's own. -/
def latest (now own : Nat) (cs : List ChildArr) : Nat := cs.foldl (fun m c => max m (expand48 now c.tick.toNat)) own

/-- The stretch of a proof, from the last arrival that the package knows to the budget end, is recorded (R130).
[DEDUCED, log entry 29] -/
def recordStretch (p A : Nat) (s : State) : State :=
  let x := s.part p
  let st := A - x.budget.toNat
  if st = 0 then s
  else s.setPart p { x with stretch := st, stretchN := satInc x.stretchN,
                            stretchMax := if x.stretchMax.toNat < st then satAdd 0#32 st else x.stretchMax }

/-- Flags of an ARRIVE token: the subtree's TAINT, POISON and FENCE, with STRETCHED when the own arrival is later than
the budget end (R122, R130). -/
def arriveFlags (x : Part) : Nat :=
  let kids := (x.children.filter (fun c => !c.ready)).foldl (fun (m : Nat) c => m ||| (c.flags.toNat &&& 0xE)) 0
  (x.flags.toNat &&& 0xE) ||| kids ||| (if x.budget.toNat < (x.arrival.getD 0).toNat then 1 else 0)

/-- Forward a token of the partition to every child. -/
def toChildren (p : Nat) (t : Token) (s : State) : State :=
  (childPorts (s.part p)).foldl (fun s n => sendToken n t s) s

/-- Arm a release: STEP_INFO goes to the sites (R127, R466). -/
def armRelease (p : Nat) (tick : Tick) (dist : Bool) (s : State) : State :=
  sendStepInfo p tick (s.modPart p (fun x => { x with armed := some { tick := tick, distributed := dist } }))

/-- D is measured after a change of tree or on request (R125, R126). The latency of the cables is outside the hub: D is a free
value; a one-package domain has D 0 (R129). [DEDUCED, log entry 27] -/
def measureD (p : Nat) (s : State) : State :=
  let x := s.part p
  if x.remeasure || x.treeNew then
    let r := if (treePorts x).isEmpty then (0#16, s) else s.drawFree 16
    r.2.setPart p { x with latency := r.1.toNat, margin := x.cfg.margin + 2 * r.1.toNat, remeasure := false, treeNew := false }
  else s

/-! ### Distributed releases (R134, R135) -/

/-- Whether every child has sent ARRIVE with READY. -/
def allReady (x : Part) : Bool := (childPorts x).all (fun n => x.children.any (fun c => c.port == n && c.ready))

/-- Latest ready tick of the subtree. -/
def readyTick (now : Nat) (x : Part) : Nat := latest now (x.ready.getD 0).toNat (x.children.filter (·.ready))

/-- Run the distributed release as far as it goes: a member reports READY upward; the root measures D where it has to,
compares the step numbers and sends RELEASE (R126, R135). After a TRIP nothing restarts until the region has left
CAUTION (R686). -/
def tryReady (p : Nat) (s : State) : State :=
  let x := s.part p
  if x.ready.isNone || x.readySent || x.armed.isSome || !allReady x || x.active || (x.state == .held && !x.heldDone) || !s.thm.trips.isEmpty then s
  else if x.cfg.parentValid then
    let s := s.modPart p (fun x => { x with readySent := true })
    sendToken x.cfg.proofParent.val (mkToken .arrive p 32 ((upcoming x).toNat % 2 ^ 32) (readyTick s.clk.now.toNat x)) s
  else if (x.children.filter (·.ready)).any (fun c => c.step.toNat != (upcoming x).toNat % 2 ^ 32) then
    raise 8 1 p (s.modPart p (fun x => { x with readySent := true }))
  else
    let s := measureD p s
    let x := s.part p
    let base := if (childPorts x).isEmpty then (x.ready.getD 0).toNat else s.clk.now.toNat
    let T := base + 2400 + x.margin
    let s := s.modPart p (fun x => { x with readySent := true })
    let s := toChildren p (mkToken .release p 0 ((upcoming x).toNat % 2 ^ 32) (T % 2 ^ 48)) s
    armRelease p (BitVec.ofNat 64 T) true s

/-- A member's own release condition has been met (R135). -/
def becomeReady (p : Nat) (s : State) : State :=
  let x := s.part p
  if x.ready.isSome || x.active then s
  else tryReady p (s.modPart p (fun x => { x with ready := some s.clk.now }))

/-! ### The end of a proof (R125, R131, R150) -/

/-- The latest arrival that a package knows: its own and those of its subtree (R125). -/
def subtreeArrival (s : State) (p : Nat) : Nat :=
  let x := s.part p
  latest s.clk.now.toNat (x.arrival.getD 0).toNat (x.children.filter (fun c => !c.ready))

/-- The root has every arrival: a fence, or a late hold, holds the domain; otherwise the release tick is A + M (R125, R131,
R150). A root that is HELD for a fault releases its members and stays held, its proof complete (R110). [DEDUCED, log entry 27] -/
def rootDecide (p : Nat) (s : State) : State :=
  let x := s.part p
  let A := subtreeArrival s p
  let fl := arriveFlags x
  let s := recordStretch p A (s.modPart p (fun x => { x with domFlags := BitVec.ofNat 8 fl, arriveSent := true }))
  if fl.testBit 3 then
    let s := toChildren p (mkToken .hold p ((fl &&& 0xF) + 16 + 6 * 32) x.step32 (s.clk.now.toNat % 2 ^ 48)) s
    tryReady p (enterHeld p (64#7 ||| (if x.lateSent then 1#7 else 0)) true s)
  else if x.lateSent then
    let s := toChildren p (mkToken .hold p ((fl &&& 0xF) + 16) x.step32 (s.clk.now.toNat % 2 ^ 48)) s
    tryReady p (enterHeld p 1#7 true s)
  else
    let T := A + x.margin
    let s := toChildren p (mkToken .release p (fl &&& 0xF) x.step32 (T % 2 ^ 48)) s
    if x.state == .held then tryReady p (enterHeld p 0#7 true s) else armRelease p (BitVec.ofNat 64 T) false s

/-- Whether every child has reported for the running step. -/
def allArrived (x : Part) : Bool := (childPorts x).all (fun n => x.children.any (fun c => c.port == n && !c.ready && c.step.toNat == x.step32))

/-- Once the package and every child have arrived, the root decides and any other member sends ARRIVE (R125). -/
def tryForward (p : Nat) (s : State) : State :=
  let x := s.part p
  if x.arrival.isNone then s
  else
    if x.arriveSent || !allArrived x || x.state == .broken || x.state == .stopped then s
    else if x.cfg.parentValid then
      sendToken x.cfg.proofParent.val (mkToken .arrive p (arriveFlags x) x.step32 (subtreeArrival s p))
        (s.modPart p (fun x => { x with arriveSent := true }))
    else rootDecide p s

/-- What still keeps a partition's ARRIVE back after local arrival: a row repair that is due, zeroing of a session's
end, or the budget end (R109, R354, R606). -/
def arriveBlocked (s : State) (p : Nat) : Bool :=
  let x := s.part p
  x.endLocal.isNone || !x.budgetOver || s.mem.due.any (fun d => d.part == some p) ||
    s.mem.toZero.any (fun g => granPart s g == some p) || s.mem.leaving.any (fun g => granPart s g == some p)

/-- The arrival tick is fixed once nothing keeps it back: the later of the budget end and local arrival (R109). A
local step arms its release 8 ticks later with no token (R129). [DESIGN CHOICE, log entry 97] -/
def tryArrive (p : Nat) (s : State) : State :=
  let x := s.part p
  if x.arrival.isSome || arriveBlocked s p then s
  else
    let E := x.budget
    let a : Tick := if (x.endLocal.getD 0).toNat < E.toNat then E else x.endLocal.getD 0
    let s := s.modPart p (fun x => { x with arrival := some a })
    if recProof x.rec_ then tryForward p s
    else
      let s := recordStretch p a.toNat (s.modPart p (fun x => { x with domFlags := x.flags }))
      if x.state == .waiting then armRelease p (a + 8) false s else if x.state == .held then tryReady p (enterHeld p 0#7 true s) else s

/-! ### Local arrival (R108, R136, R143, R436, R467) -/

/-- Whether everything that R108 lists has occurred. -/
def workEnded (s : State) (p : Nat) : Bool :=
  let x := s.part p
  let cells := (Tab.keysWhere s.fab.cols (fun c => c.owner == some p && !c.fenced)).all (fun k =>
    (List.range 16).all (fun r => let c := s.cell (cellBase k + r); c.done && c.writes == 0))
  let engines := (Tab.keysWhere s.xfes (fun e => e.owner == some p)).all (fun e =>
    let q := s.xfe e; q.cur.isNone && q.queue.isEmpty)
  let colls := (Tab.keysWhere s.cols (fun c => c.owner == some p)).all (fun c =>
    let q := s.cunit c; q.cur.isNone && q.queue.isEmpty)
  let sites := (s.proofSites p).all (fun n => (s.site n).arrived)
  cells && engines && colls && sites && (fetchVis x).all (fun v => decide (slotsPerVi x.rec_ ≤ Tab.get 0 x.fetches v))

/-- Whether the digest of a step with AUDIT set is still to come. AUDIT is ignored where the program has no audit ring (R100). -/
def auditDue (x : Part) : Bool :=
  recAudit x.rec_ && rfld x.prog.header 0x10 0 32 != 0 && recAuditSize x.rec_ != 0 && x.digest.isNone

/-- The port through which the hub reads a partition's audited buffer: the first that the partition has, of its engines, collective
units, columns and sites. The manual says only that the ports are the partition's own. [DESIGN CHOICE, log entry 85] -/
def auditPort (s : State) (p : Nat) : Nat :=
  match Tab.keysWhere s.xfes (fun e => e.owner == some p), Tab.keysWhere s.cols (fun c => c.owner == some p),
      Tab.keysWhere s.fab.cols (fun c => c.owner == some p), Tab.keysWhere s.sites (fun t => t.owner == some p && !t.upper) with
  | e :: _, _, _, _ => e
  | [], c :: _, _, _ => 64 + c
  | [], [], k :: _, _ => 72 + k / 32 * 16 + k % 32 / 2
  | [], [], [], n :: _ => 136 + n
  | [], [], [], [] => 162

/-- Bytes of the audited buffer have been read: the CRC takes them, and the last of them completes the digest (R143). -/
def auditTake (p : Nat) (bs : List Byte) (s : State) : State :=
  s.modPart p (fun x =>
    let crc := BitVec.ofNat 64 (crc64From x.auditCrc.toNat bs)
    let n := x.auditAt + bs.length
    { x with auditCrc := crc, auditAt := n, auditReq := none, digest := if recAuditSize x.rec_ ≤ n then some crc else x.digest })

/-- The next read of the audited buffer, once all other work of the step has ended: one line or part of one at a time, in rising
order, on the regulated VC (R377). A read that fails its translation returns open data (R282). [DESIGN CHOICE, log entry 85] -/
def auditStep (p : Nat) (s : State) : State :=
  let x := s.part p
  let runs := x.state == .running || (x.state == .held && !x.heldDone)
  if !runs || !auditDue x || x.endLocal.isSome || x.auditReq.isSome || !workEnded s p then s
  else
    let dva := recAuditBase x.rec_ + x.auditAt
    let n := min (64 - dva % 64) (recAuditSize x.rec_ - x.auditAt)
    let t := translate s noBuf (auditCtx x) dva false
    let s := noteXlat noBuf (auditCtx x) dva s
    match t with
    | .ok pa =>
      let port := auditPort s p
      let i := issueReq { tag := 0, who := .audit port, write := false, host := false, addr := pa, len := n, ctx := auditCtx x, part := p,
                          sched := false, use := .audit p } s
      i.2.modPart p (fun x => { x with auditReq := some i.1 })
    | t =>
      let f := freeBytes n (match t.bit with | some b => raise 11 b 0 s | none => s)
      auditTake p f.1 f.2

/-- A read of the audited buffer is answered; one that the step no longer waits for is discarded. -/
def auditRead (p tag : Nat) (bs : List Byte) (s : State) : State :=
  if (s.part p).auditReq == some tag then auditTake p bs s else s

/-- Enter BROKEN (R132, R133): BREAK on every port of the domain, the silent ports noted, DOMAIN_BROKEN set. -/
def enterBroken (p : Nat) (tell : Bool) (s : State) : State :=
  let x := s.part p
  let quiet := (treePorts x).foldl (fun (m : BitVec 8) n => if x.heard.getLsbD n then m else putBit m n true) 0
  let s := s.modPart p (fun x => { x with silent := quiet, lastStatus := .aborted, armed := none, breakDue := false, regroup := false })
  let s := settleArmed p (setPState p .broken .none s)
  let s := if tell then
      (treePorts x).foldl (fun s n => sendToken n (mkToken .brk p 0 x.step32 (s.clk.now.toNat % 2 ^ 48)) s) s
    else s
  raise 8 1 p s

/-- Whether a cell of a partition has failed in this very tick under FENCE_UNIT, its grace begun with it (R199). -/
def cellFailsNow (s : State) (p : Nat) : Bool :=
  (List.range 4).any (fun q =>
    let g := s.grp (24 + q)
    g.timer && g.started == s.clk.now && g.action == .fenceUnit && g.units.any (fun u =>
      decide (1 ≤ u.1) && decide (u.1 ≤ 4) && !g.mask.getLsbD u.1 && (s.col (cellSpot q u.2).1).owner == some p))

/-- LOCAL_ARRIVAL: everything of the step has ended, the audit's reads among it. The fences armed for the proof are applied; a pending break takes
the partition out; otherwise it waits. A step with STEP_POWER 0, or a floor of 0, has no bench load (R100, R101).
[DEDUCED, log entry 28] -/
def localArrival (p : Nat) (s : State) : State :=
  let x := s.part p
  let runs := x.state == .running || (x.state == .held && !x.heldDone)
  if !runs || x.endLocal.isSome || !workEnded s p || auditDue x then s
  else
    let s := if recProof x.rec_ then
        let s := startSites p (applyProof p s)
        if cellFailsNow s p then markFlag p 3 s else s
      else s
    let bench := recPower x.rec_ != 0 && x.benchPct != 0
    let s := s.modPart p (fun x => { x with endLocal := some s.clk.now, benchFrom := if bench then some s.clk.now else none })
    let s := traceAt (112 + p) (some p) s
    let s := if x.state == .running && !x.breakDue then setPState p .waiting .none s else s
    let s := (s.wireSites p).foldl (fun s n =>
      (s.modSite n (fun t => { t with arriveOut := true })).emit (.arriveOut n true)) s
    let s := sendHold p x.benchPct 0 s
    if x.breakDue then enterBroken p false s else tryArrive p s

/-- BUDGET_END: the step's budget has ended (R106, R109). -/
def budgetEnd (p : Nat) (s : State) : State :=
  let x := s.part p
  if (x.state == .running || x.state == .waiting || (x.state == .held && !x.heldDone)) && !x.budgetOver then
    tryArrive p (s.modPart p (fun x => { x with budgetOver := true }))
  else s

/-- Bring a partition out of its wait for a proof after something that kept its ARRIVE back has ended. -/
def resumeArrival (p : Nat) (s : State) : State := tryArrive p s

/-! ### The commands -/

/-- STEP_RELEASE: the release tick is reached. [DEDUCED, log entry 30] -/
def execStepRelease (p : Fin 64) (s : State) : Host.Outcome State Fault Refusal := .next (refresh (releaseNow p.val s))

/-- LOCAL_RELEASE: 8 ticks after the arrival of a step with PROOF 0b0 (R129). -/
def localRelease (p : Nat) (s : State) : State :=
  let x := s.part p
  if x.state == .waiting && !recProof x.rec_ then refresh (releaseNow p s) else s
def execLocalRelease (p : Fin 64) (s : State) : Host.Outcome State Fault Refusal := .next (localRelease p.val s)

def execBudgetEnd (p : Fin 64) (s : State) : Host.Outcome State Fault Refusal := .next (budgetEnd p.val s)
def execLocalArrival (p : Fin 64) (s : State) : Host.Outcome State Fault Refusal := .next (refresh (localArrival p.val s))

end Sys2Proof.Machine
end

