-- ==== Sys2Proof/Machine/XfeOps.lean ====
section
/-! DEFINITION. The transfer engines at work: element addresses, conversions, sealed records, the issue of reads and
writes, page faults, the counting of rows and the end of a descriptor (R263 to R317, R585 to R607). -/
namespace Sys2Proof.Machine
open Sys2Proof

/-! ### Elements in issue order (R287 to R291) -/

/-- Byte offset of element i0 in a row: a 6-bit row takes one 64 B line per 64 elements (R207, R289). -/
def rowOff (eb i0 : Nat) : Nat := if eb = 6 then i0 / 64 * 64 else i0 * eb / 8

/-- Address of an element on one side (R287). -/
def elemAddr (base eb : Nat) (strides : List Int) (ix : List Nat) : Nat :=
  let off : Int := (ix.tail.zip strides).foldl (fun (a : Int) (p : Nat × Int) => a + (p.1 : Int) * p.2)
    ((rowOff eb (ix.getD 0 0) : Nat) : Int)
  (((base : Nat) : Int) + off).emod (2 ^ 48) |>.toNat

def XDesc.srcAt (d : XDesc) (i : Nat) : Nat := elemAddr d.srcDva d.srcBits d.srcStrides (d.index i)
def XDesc.dstAt (d : XDesc) (i : Nat) : Nat := elemAddr d.dstDva d.dstBits d.dstStrides (d.index i)

/-- Whether a side holds MX elements. -/
def XDesc.mxSrc (d : XDesc) : Bool := d.convert && isMx d.srcFmt
def XDesc.mxDst (d : XDesc) : Bool := d.convert && isMx d.dstFmt

/-- Address of the scale byte of the block at a data address (R291). -/
def scaleAt (scale base fmt a : Nat) : Nat :=
  let span : Int := if fmt = 10 then 16 else 32
  ((scale : Int) + toSigned 48 ((a + 2 ^ 48 - base) % 2 ^ 48) / span).emod (2 ^ 48) |>.toNat

/-- Byte offset of an element in a side's bytes taken in issue order. -/
def streamOff (eb i : Nat) : Nat := if eb = 6 then i / 64 * 64 else i * eb / 8

/-- Elements that fit from an address to the end of its 64 B line. -/
def roomFrom (a eb : Nat) : Nat := max 1 ((64 - a % 64) * 8 / eb)

/-- Elements that the engine handles together from element `i` on: those of one row in one 64 B line on each side, a
whole block of an MX format, an even number of 4-bit elements. The data of a sealed side lies in records, so its place
in the stream of element bytes counts. [DEDUCED, log entry 39] -/
def XDesc.runLen (d : XDesc) (i : Nat) : Nat :=
  let left := d.n0 - i % d.n0
  if d.mxSrc || d.mxDst then min left (if d.srcBits = 6 ∨ d.dstBits = 6 then 64 else 32)
  else
    let rs := roomFrom (if d.sealedIn then streamOff d.srcBits i else d.srcAt i) d.srcBits
    let rd := roomFrom (if d.sealedOut then streamOff d.dstBits i else d.dstAt i) d.dstBits
    let g := min rs rd
    min left (if d.srcBits = 4 ∨ d.dstBits = 4 then max 2 (g / 2 * 2) else g)

/-- Elements of a run of bytes, and the bytes of a run of elements. -/
def elemsOf (eb n : Nat) (bs : List Byte) : List Nat :=
  if eb = 6 then (List.range n).map (fun j => bits (leNat ((bs.drop (j / 64 * 64)).take 64)) (j % 64 * 6) 6)
  else let v := leNat bs; (List.range n).map (fun j => bits v (j * eb) eb)
def bytesOf (eb : Nat) (xs : List Nat) : List Byte :=
  if eb = 6 then (List.range ((xs.length + 63) / 64)).flatMap (fun k => leBytes 64 (joinW 6 ((xs.drop (64 * k)).take 64)))
  else leBytes ((xs.length * eb + 7) / 8) (joinW eb xs)

/-! ### Conversion (R220, R223, R290, R808) -/

/-- Output lines of one element row, and the output line of an element counted from the transfer's first: each row's
lines are numbered from its start. -/
def XDesc.outLines (d : XDesc) : Nat := (d.n0 + perLine d.dstFmt - 1) / perLine d.dstFmt
/-- [DEDUCED, log entry 39] -/
def XDesc.outLine (d : XDesc) (i : Nat) : Nat := i / d.n0 * d.outLines + i % d.n0 / perLine d.dstFmt

/-- Whether a transfer draws. -/
def XDesc.stoch (d : XDesc) : Bool := d.convert && d.rnd == 2

/-- The draw of an element: numbered within its output line as a cell numbers the elements of a register (R221, R223). -/
def elemDraw (s : State) (e base : Nat) (d : XDesc) (i : Nat) : Nat :=
  if !d.stoch then 0
  else
    let x := s.part (((s.xfe e).owner).getD 0)
    let k := i % d.n0 % perLine d.dstFmt
    (drawBlock (x.starter.getD { seed := 0, stream := 0 }) d.ctx x.step.toNat (base + d.outLine i) (k % 32) e 1).getD (k / 32) 0

/-- The destination bytes and scale bytes of a run of elements from its source bytes and scale bytes. -/
def convertRun (s : State) (e base : Nat) (d : XDesc) (i n : Nat) (bs scales : List Byte) : List Byte × List Byte :=
  if !d.convert then (bs, [])
  else
    let r := rndOf d.rnd
    let xs := elemsOf d.srcBits n bs
    let dr := (List.range n).map (fun j => elemDraw s e base d (i + j))
    let num := fun (p : Nat × Nat) =>
      if d.mxSrc then mxNum d.srcFmt (scales.getD (p.2 / 32) 0).toNat p.1 else decodeNum d.srcFmt d.ftz p.1
    let nums := (xs.zip (List.range n)).map num
    if d.mxDst then
      let bl := (List.range ((n + 31) / 32)).map (fun k => mxPack d.dstFmt r ((dr.drop (32 * k)).take 32) ((nums.drop (32 * k)).take 32))
      (bytesOf d.dstBits (bl.flatMap (·.2)), bl.map (fun b => BitVec.ofNat 8 b.1))
    else if d.mxSrc then
      (bytesOf d.dstBits ((nums.zip dr).map (fun p => encodeNum d.dstFmt r false d.sat p.2 p.1)), [])
    else (bytesOf d.dstBits ((xs.zip dr).map (fun p => convertElem d.srcFmt d.dstFmt r d.ftz d.sat p.2 p.1)), [])

/-! ### Accesses of an engine (R263, R267, R271, R275, R300) -/

/-- Where an access goes: device memory, or the host by a window entry. -/
inductive XSpot where
  | dev (pa : Nat)
  | host (hwt iova addr : Nat)
  deriving DecidableEq, Repr

/-- Outcome of the translation of a list of accesses. -/
inductive XPlan where
  | go (ps : List (Nat × Nat × XSpot))
  | deny (bit dva : Nat)
  | ask (dva iova : Nat)
  deriving DecidableEq, Repr

/-- Translate one access of an engine: the XLT fault bit where it is refused (R323). -/
def xSpot (s : State) (e ctx dva : Nat) (write : Bool) : XPlan :=
  if 2 ^ 47 ≤ dva then
    match hwtFind s ctx dva with
    | none => .deny 3 dva
    | some (i, h, iova) =>
      if !hwtPerm h write then .deny 2 dva
      else match hostSpot s e ctx iova write with
        | .go a => .go [(dva, 0, .host i iova a)]
        | .ask => .ask dva iova
  else match translate s e ctx dva write with
    | .ok pa => .go [(dva, 0, .dev pa)]
    | x => .deny (x.bit.getD 1) dva

/-- Translate pieces in order; the first that cannot go decides. -/
def xPlan (s : State) (e ctx : Nat) (write : Bool) : List (Nat × Nat) → XPlan
  | [] => .go []
  | (a, n) :: ps =>
    match xSpot s e ctx a write with
    | .go ((_, _, sp) :: _) =>
      (match xPlan s e ctx write ps with
       | .go rest => .go ((a, n, sp) :: rest)
       | x => x)
    | x => x

/-- Open requests of an engine. -/
def XCur.open (c : XCur) : Nat :=
  (c.units.map (fun u => u.openReads.length + u.writes.length)).foldl (· + ·) 0 + c.drain.length +
    (c.fetch.filter (fun r => r.2.isNone)).length

/-- Host tags that a partition's outstanding host reads hold. -/
def hostTags (s : State) (p : Nat) : Nat := (s.noc.reqs.filter (fun r => r.host && !r.write && r.part == p)).length

/-- Whether `n` host tags are free for a partition (R388): an ISOLATED partition holds exactly HOST_TAGS_MIN; another at
most HOST_TAGS_MAX, and never the tags that others are always left. -/
def hostTagsFree (s : State) (p n : Nat) : Bool :=
  let q := s.qpart p
  let mine := hostTags s p + n
  if q.isolated then decide (mine ≤ q.tagsMin)
  else
    let others := ((s.enabledParts.filter (· != p)).map (fun k => max (hostTags s k) (s.qpart k).tagsMin)).foldl (· + ·) 0
    decide (mine ≤ q.tagsMax) && decide (max mine q.tagsMin + others ≤ 512)

/-- What the translation of a piece leaves in the buffers. -/
def noteSpot (e ctx : Nat) (write : Bool) (p : Nat × Nat × XSpot) (s : State) : State :=
  match p.2.2 with
  | .dev _ => noteXlat e ctx p.1 s
  | .host _ iova _ => noteHost e ctx iova write s

/-- A request of an engine at one piece (R277). -/
def xRequest (e : Nat) (d : XDesc) (write : Bool) (use : ReqUse) (p : Nat × Nat × XSpot) (data : List Byte) (poison : Bool)
    (s : State) : Nat × State :=
  let part := ((s.xfe e).owner).getD 0
  let r : Req := { tag := 0, who := .xfe e, write := write, host := false, addr := 0, len := p.2.1, ctx := d.ctx, part := part,
                   sched := !d.regulated, data := data, poison := poison, use := use }
  let s := noteSpot e d.ctx write p s
  match p.2.2 with
  | .dev pa => issueReq { r with addr := pa } s
  | .host h iova a =>
    issueHostRead { r with addr := a, iova := iova, hwt := some h } s

/-- A host write of an engine at one piece: posted at once, or held at the port for tokens, when its tag is given (R381, R382). -/
def xPost (e : Nat) (d : XDesc) (p : Nat × Nat × XSpot) (data : List Byte) (poison : Bool) (s : State) : Option Nat × State :=
  let part := ((s.xfe e).owner).getD 0
  let s := noteSpot e d.ctx true p s
  match p.2.2 with
  | .dev _ => (none, s)
  | .host h iova a =>
    match hostWriteNow e part (!d.regulated) p.2.1 s with
    | some s => (none, s.emit (.hostWrite (hostTlp s) a data poison))
    | none =>
      let i := issueReq { tag := 0, who := .xfe e, write := true, host := true, addr := a, len := p.2.1, ctx := d.ctx, part := part,
                          sched := false, data := data, poison := poison, use := .posted e, iova := iova, hwt := some h } s
      (some i.1, i.2)

/-- Issue the reads of a list of pieces. -/
def xReads (e : Nat) (d : XDesc) (i : Nat) (ps : List (Nat × Nat × XSpot)) (s : State) : List (Nat × Option (List Byte)) × State :=
  ps.foldl (fun acc p =>
    let r := xRequest e d false (.xread e i) p [] false acc.2
    (acc.1 ++ [(r.1, none)], r.2)) ([], s)

/-! ### Page faults (R307, R308) -/

/-- Whether PRI can be used. -/
def priUsable (s : State) : Bool := s.xlt.atsEn && s.xlt.priEn && !s.xlt.priStopped

/-- Whether an engine's Page Request can be sent: its earlier one has been answered, and every request that it has issued is
complete (R307). A ring's fault waits for no transfer. -/
def Xfe.pageDue (x : Xfe) (asks : Bool) : Bool :=
  x.pageWait && !x.pageReq && (x.ringVi.isSome || (match x.cur with
    | some c => decide (c.open = 0) && !asks
    | none => true))

/-- Send the page requests that are due, as far as the allocation permits, while PRI can be used (R277, R307, R308). -/
def sendPageReqs (s : State) : State :=
  if !priUsable s then s
  else (Tab.keysWhere s.xfes (fun x => x.pageWait)).foldl (fun s e =>
    let n := (Tab.keysWhere s.xfes (fun x => x.pageReq)).length
    let x := s.xfe e
    if decide (s.xlt.priAlloc.toNat ≤ n) || !x.pageDue (s.xlt.atsWait.any (fun w => w.1 == e)) then s
    else
      let s := s.setXfe e { x with pageWait := false, pageReq := true }
      { s with xlt := { s.xlt with prqCount := satInc s.xlt.prqCount } }.emit
        (.pageReq (hubTlp .untranslated) e (x.faultIova.toNat / 4096 * 4096))) s

/-- The translation of a host page failed at an element (R301, R307). In FAULT_WAIT, before the Page Request, an earlier
element that fails takes the fault over; an engine that is ending ends FAULTED. [DEDUCED, log entry 39] -/
def pageFault (e k dva iova : Nat) (s : State) : State :=
  let x := s.xfe e
  match x.cur with
  | none => s
  | some c =>
    let y := { x with faultDva := BitVec.ofNat 64 dva, faultIova := BitVec.ofNat 64 iova }
    if priUsable s && (x.run == .run || (x.run == .faultWait && x.pageWait)) then
      s.setXfe e { y with run := .faultWait, pageWait := true, taken := if x.run == .run then satInc x.taken else x.taken,
                          cursor := c.desc.index k, cur := some { cutAt k c with cut := none } }
    else if x.run == .faultWait then s
    else endAtElem e k .faulted (s.setXfe e y)

/-- What follows where accesses cannot go: the transfer ends DENIED, faults, or asks for a translation and waits. -/
def xBlocked (e k : Nat) (fail : Option Nat) (p : XPlan) (s : State) : Bool × State :=
  match p with
  | .deny b dva =>
    let ctx := match (s.xfe e).cur with | some c => c.desc.ctx | none => 0
    (true, endAtElem e k .denied (raise 11 b 0 (noteXlat e ctx dva s)))
  | .ask dva iova =>
    if fail == some (iova / 4096 * 4096) then (decide ((s.xfe e).run ≠ .faultWait), pageFault e k dva iova s)
    else (false, askAts e (match (s.xfe e).cur with | some c => c.desc.ctx | none => 0) iova s)
  | .go _ => (false, s)

/-! ### Counting (R297, R302) -/

/-- The status of a transfer that has delivered every element (R302). [DEDUCED, log entry 40] -/
def XCur.finalStatus (c : XCur) : Status := if c.poison then .poisoned else if !c.failed.isEmpty then .partialDone else .ok

/-- Elements up to `k` are delivered: rows and bytes are counted; after the last the transfer is ending. -/
def delivered (e k : Nat) (s : State) : State :=
  let x := s.xfe e
  match x.cur with
  | none => s
  | some c =>
    let rows := k / max 1 c.desc.n0
    let c2 := { c with acked := k, rows := rows }
    let done := decide (c.desc.total ≤ k) && x.run == .run
    s.setXfe e { x with progress := satAdd x.progress (rows - c.rows),
                        bytes := x.bytes + BitVec.ofNat 64 (streamOff c.desc.dstBits k - streamOff c.desc.dstBits c.acked),
                        run := if done then .ending else x.run,
                        cur := some (if done then { c2 with endAs := some c2.finalStatus } else c2) }

/-- Runs whose writes are all acknowledged leave, oldest first. The fuel is their number. -/
def popUnits : Nat → Nat → State → State
  | 0, _, s => s
  | n + 1, e, s =>
    let x := s.xfe e
    match x.cur with
    | none => s
    | some c =>
      match c.units with
      | u :: us =>
        if u.wrote && u.writes.isEmpty then
          let s := s.setXfe e { x with cur := some { c with units := us } }
          popUnits n e (if c.desc.sealedOut then s else delivered e (u.start + u.count) s)
        else s
      | [] => s

def settle (e : Nat) (s : State) : State :=
  match (s.xfe e).cur with
  | some c => popUnits c.units.length e s
  | none => s

/-! ### Sealed records (R598 to R603) -/

/-- The IV of a record (R598). -/
def sealIv (dir vi seq : Nat) : BitVec 96 := BitVec.ofNat 96 (dir * 2 ^ 88 + vi * 2 ^ 64 + seq)

/-- Plaintext bytes of record `k` of a transfer, its bytes on the host side, and where it starts there (R601, R602). -/
def recLen (d : XDesc) (eb k : Nat) : Nat := min 4096 (streamOff eb d.total - 4096 * k)
def recSpan (len : Nat) : Nat := 128 + (len + 63) / 64 * 64
def recAt (base k : Nat) : Nat := (base + k * 4224) % 2 ^ 48

/-- The first 64 bytes of a data record. -/
def recHeader (len seq : Nat) : List Byte := leBytes 8 len ++ leBytes 8 seq ++ List.replicate 48 0#8

/-- A whole record: header, ciphertext, padding, tag, reserved bytes. -/
def recBytes (key : BitVec 256) (vi seq : Nat) (pt : List Byte) : List Byte :=
  let h := recHeader pt.length seq
  let c := Config.gcmSeal key (sealIv 3 vi seq) h pt
  h ++ c.1 ++ List.replicate ((64 - pt.length % 64) % 64) 0#8 ++ leBytes 16 c.2.toNat ++ List.replicate 48 0#8

/-- A sealed record fails (R302, R303, R320, R620): none of its bytes is written. [DEDUCED, log entry 40] -/
def sealFail (e k vi : Nat) (s : State) : State :=
  let s := endAtElem e k .sealFail s
  viFault vi 5 (raise 4 4 0 (raise 12 5 e s))

/-- The record that was fetched is complete: it is accepted, or the transfer ends SEAL_FAIL (R603). -/
def openFetched (e : Nat) (s : State) : State :=
  let x := s.xfe e
  match x.cur with
  | none => s
  | some c =>
    if c.fetch.isEmpty || c.fetch.any (fun r => r.2.isNone) then s
    else
      let bs := c.fetch.flatMap (fun r => r.2.getD [])
      let len := recLen c.desc c.desc.srcBits c.recNo
      let seq := leNat ((bs.drop 8).take 8)
      let k := s.sealOf c.desc.ctx
      let pt := match k.key with
        | some key =>
          if leNat (bs.take 2) % 8192 = len ∧ k.inSeq.toNat < seq then
            Config.gcmOpen key (sealIv 2 c.desc.ctx seq) (bs.take 64) ((bs.drop 64).take len)
              (BitVec.ofNat 128 (leNat ((bs.drop (64 + (len + 63) / 64 * 64)).take 16)))
          else none
        | none => none
      match pt with
      | none => sealFail e c.next c.desc.ctx (s.setXfe e { x with cur := some { c with fetch := [] } })
      | some p =>
        let s := s.setSeal c.desc.ctx { k with inSeq := BitVec.ofNat 64 seq }
        s.setXfe e { x with cur := some { c with fetch := [], buf := p, bufAt := c.next, recNo := c.recNo + 1 } }

/-- A complete record is opened under the key slot, which is checked as it is read. -/
def openRecord (e : Nat) (s : State) : State :=
  match (s.xfe e).cur with
  | none => s
  | some c =>
    if c.fetch.isEmpty || c.fetch.any (fun r => r.2.isNone) then s
    else
      let r := slotCheck c.desc.ctx s
      if r.1 then openFetched e r.2 else r.2

/-- Elements that a number of stream bytes holds. -/
def elemsIn (eb n : Nat) : Nat := if eb = 6 then n / 64 * 64 else n * 8 / eb

/-- Send the record in hand once it is full or the transfer's last (R602). -/
def sendRecord (e : Nat) (fail : Option Nat) (s : State) : Bool × State :=
  let x := s.xfe e
  match x.cur with
  | none => (false, s)
  | some c =>
    let d := c.desc
    let fin := c.bufAt + elemsIn d.dstBits c.buf.length
    if !d.sealedOut || c.buf.isEmpty || holdFull s e (x.owner.getD 0) 67 || (decide (c.buf.length < 4096) && decide (fin < d.total)) then (false, s)
    else
      let a := recAt d.dstDva c.recNo
      match xPlan s e d.ctx true (pieces a (recSpan c.buf.length)) with
      | .go ps =>
        let r := slotCheck d.ctx s
        let s := r.2
        let k := s.sealOf d.ctx
        match (if r.1 then k.key else none) with
        | none => (true, endAtElem e c.bufAt .aborted s)
        | some key =>
          let bs := recBytes key d.ctx (k.outSeq.toNat + 1) c.buf
          let s := s.setSeal d.ctx { k with outSeq := k.outSeq + 1 }
          let r := ps.foldl (fun (acc : List Nat × State) p =>
            let r := xPost e d p ((bs.drop ((p.1 + 2 ^ 48 - a) % 2 ^ 48)).take p.2.1) c.fetchBad acc.2
            (acc.1 ++ r.1.toList, r.2)) ([], s)
          let s := r.2.setXfe e { x with cur := some { c with buf := [], bufAt := fin, recNo := c.recNo + 1, fetchBad := false,
                                                              drain := c.drain ++ r.1 } }
          (true, delivered e fin s)
      | p => xBlocked e c.bufAt fail p s

/-! ### The issue of writes and reads (R298 to R301) -/

/-- Data of a run: what its reads returned, element bytes first, scale bytes after them. -/
def XUnit.data (u : XUnit) : List Byte := u.reads.flatMap (fun r => r.2.getD [])

/-- Write pieces: the 64 KiB segments of each count from the element bytes in issue order; a scale byte counts with the first
element of its block (R313). [DEDUCED, log entry 39] -/
def xWrites (e : Nat) (d : XDesc) (u : XUnit) (base : Nat) (bs : List Byte) (scale poison : Bool)
    (ps : List (Nat × Nat × XSpot)) (s : State) : List XWrite × State :=
  ps.foldl (fun acc p =>
    let o := (p.1 + 2 ^ 48 - base) % 2 ^ 48
    let dat := (bs.drop o).take p.2.1
    let r : Option Nat × State := match p.2.2 with
      | .host .. => xPost e d p dat poison acc.2
      | .dev _ => let r := xRequest e d true (.xwrite e u.start) p dat poison acc.2; (some r.1, r.2)
    match r.1 with
    | none => (acc.1, r.2)
    | some tag =>
      let k := u.start + (if scale then 32 * o else elemsIn d.dstBits o)
      let lo := if scale then streamOff d.dstBits k else streamOff d.dstBits u.start + o
      (acc.1 ++ [{ tag := tag, seg := lo / 65536, seg2 := if scale then lo / 65536 else (lo + p.2.1 - 1) / 65536, elem := k }], r.2)) ([], s)

/-- Issue the writes of the oldest run that has not written, once its reads have returned (R298). [DEDUCED, log entry 39] -/
def tryWrite (e : Nat) (fail : Option Nat) (s : State) : Bool × State :=
  let x := s.xfe e
  match x.cur with
  | none => (false, s)
  | some c =>
    let d := c.desc
    match c.units.find? (fun u => !u.wrote) with
    | none => (false, s)
    | some u =>
      if u.reads.any (fun r => r.2.isNone) || (d.sealedOut && decide (4096 ≤ c.buf.length)) then (false, s)
      else
        let nb := rowBytes d.srcBits u.count
        let src := u.data
        let r := convertRun s e c.drawBase d u.start u.count (src.take nb) (src.drop nb)
        let a := d.dstAt u.start
        let sa := scaleAt d.dstScale d.dstDva d.dstFmt a
        let main := if d.sealedOut then [] else pieces a r.1.length
        match xPlan s e d.ctx true (main ++ pieces sa r.2.length) with
        | .go ps =>
          if decide (128 < c.open + ps.length) || holdFull s e (x.owner.getD 0) ps.length then (false, s)
          else
          let w := xWrites e d u a r.1 false u.poison (ps.take main.length) s
          let z := xWrites e d u sa r.2 true u.poison (ps.drop main.length) w.2
          let u2 := { u with wrote := true, writes := w.1 ++ z.1 }
          let c2 := { c with units := c.units.map (fun v => if v.start == u.start then u2 else v),
                             buf := if d.sealedOut then c.buf ++ r.1 else c.buf,
                             bufAt := if d.sealedOut && c.buf.isEmpty then u.start else c.bufAt,
                             fetchBad := c.fetchBad || (d.sealedOut && u.poison) }
          let x := z.2.xfe e
          let s := z.2.setXfe e { x with cur := some c2,
                                         draw := if d.stoch then max x.draw (c.drawBase + d.outLine (u.start + u.count - 1) + 1) else x.draw }
          (true, settle e s)
        | p => xBlocked e u.start fail p s

/-- Fetch the next sealed record from the host (R602). -/
def tryFetch (e : Nat) (fail : Option Nat) (s : State) : Bool × State :=
  let x := s.xfe e
  match x.cur with
  | none => (false, s)
  | some c =>
    let d := c.desc
    let part := x.owner.getD 0
    if !c.fetch.isEmpty then (false, s)
    else
      let len := recLen d d.srcBits c.recNo
      match xPlan s e d.ctx false (pieces (recAt d.srcDva c.recNo) (recSpan len)) with
      | .go ps =>
        if decide (128 < c.open + ps.length) || !hostTagsFree s part ps.length then (false, s)
        else
          let r := xReads e d c.next ps s
          (true, r.2.setXfe e { r.2.xfe e with cur := some { c with fetch := r.1, fetchBad := false } })
      | p => xBlocked e c.next fail p s

/-- Whether the next element of a sealed input lies in the record in hand. -/
def XCur.inBuf (c : XCur) : Bool :=
  decide (c.bufAt ≤ c.next) && decide (c.next < c.bufAt + elemsIn c.desc.srcBits c.buf.length)

/-- Issue the reads of the next run (R298, R300). An engine stalls while its port's hold queue is full (R382).
[DEDUCED, log entry 39] -/
def tryRead (e : Nat) (fail : Option Nat) (s : State) : Bool × State :=
  let x := s.xfe e
  match x.cur with
  | none => (false, s)
  | some c =>
    let d := c.desc
    let part := x.owner.getD 0
    if x.run != .run || decide (d.total ≤ c.next) || decide (128 ≤ c.units.length)
        || holdFull s e part 1 then (false, s)
    else if d.sealedIn && !c.inBuf then tryFetch e fail s
    else
      let i := c.next
      let n := d.runLen i
      let nb := rowBytes d.srcBits n
      let a := d.srcAt i
      let sc := if d.mxSrc then pieces (scaleAt d.srcScale d.srcDva d.srcFmt a) (n / 32) else []
      match xPlan s e d.ctx false ((if d.sealedIn then [] else pieces a nb) ++ sc) with
      | .go ps =>
        let nh := (ps.filter (fun p => match p.2.2 with | .host .. => true | .dev _ => false)).length
        if 128 < c.open + ps.length ∨ (nh ≠ 0 ∧ !hostTagsFree s part nh) then (false, s)
        else
          let have_ : List (Nat × Option (List Byte)) :=
            if d.sealedIn then [(0, some ((c.buf.drop (streamOff d.srcBits i - streamOff d.srcBits c.bufAt)).take nb))] else []
          let r := xReads e d i ps s
          let u : XUnit := { start := i, count := n, reads := have_ ++ r.1, poison := d.sealedIn && c.fetchBad }
          (true, r.2.setXfe e { r.2.xfe e with cur := some { c with units := c.units ++ [u], next := i + n } })
      | p => xBlocked e i fail p s

/-- An engine issues what it can: records first, then writes, then reads. The fuel bounds the runs in one go. -/
def pumpN : Nat → Nat → Option Nat → State → State
  | 0, _, _, s => s
  | n + 1, e, fail, s =>
    let a := sendRecord e fail s
    if a.1 then pumpN n e fail a.2
    else
      let b := tryWrite e fail a.2
      if b.1 then pumpN n e fail b.2
      else
        let c := tryRead e fail b.2
        if c.1 then pumpN n e fail c.2 else c.2

/-- Let an engine issue, then send its Page Request where it is due. Host accesses are not issued while host DMA is stopped:
such descriptors have ended (R574). -/
def pumpXfe (e : Nat) (fail : Option Nat) (s : State) : State :=
  let x := s.xfe e
  if x.run == .run || x.run == .ending || x.run == .faultWait then
    let s := pumpN 1024 e fail s
    if (s.xfe e).pageWait then sendPageReqs s else s
  else s

/-- Let every engine with a descriptor issue. -/
def pumpAll (s : State) : State :=
  (Tab.keysWhere s.xfes (fun x => x.cur.isSome)).foldl (fun s e => pumpXfe e none s) s

/-! ### Responses -/

/-- Put the data of a read into its place. -/
def putRead (tag : Nat) (bs : List Byte) (rs : List (Nat × Option (List Byte))) : List (Nat × Option (List Byte)) :=
  rs.map (fun r => if r.1 == tag && r.2.isNone then (tag, some bs) else r)

/-- A read of an engine returns data (R302, R316, R320). An error in the data buffer poisons the elements it strikes
(R317). -/
def xfeRead (e tag : Nat) (bs : List Byte) (poison : Bool) (s : State) : State :=
  let x := s.xfe e
  match x.cur with
  | none => s
  | some c =>
    let mine := fun (rs : List (Nat × Option (List Byte))) => rs.any (fun r => r.1 == tag && r.2.isNone)
    if c.drain.contains tag then pumpXfe e none (s.setXfe e { x with cur := some { c with drain := c.drain.filter (· != tag) } })
    else if !(mine c.fetch || c.units.any (fun u => mine u.reads)) then s
    else
      let k := checkEcc 12 6 true .clean s
      let ue := k.1 == .uncorrectable
      let s := if ue then raise 12 6 e k.2 else k.2
      let s := if poison then raise 12 4 e s else s
      let bad := poison || ue
      let s := match bad, x.owner with
        | true, some p => markFlag p 2 s
        | _, _ => s
      let c2 := { c with fetch := putRead tag bs c.fetch, fetchBad := c.fetchBad || (bad && mine c.fetch),
                         poison := c.poison || bad,
                         units := c.units.map (fun u => if mine u.reads then { u with reads := putRead tag bs u.reads, poison := u.poison || bad } else u) }
      let s := s.setXfe e { s.xfe e with cur := some c2 }
      pumpXfe e none (openRecord e s)

/-- Enter a segment in a rising list of failed ones. -/
def addSeg (k : Nat) (l : List Nat) : List Nat := if l.contains k then l else l.filter (· < k) ++ [k] ++ l.filter (k < ·)

/-- A write of an engine is acknowledged or refused (R297, R313). -/
def xfeWrote (e tag : Nat) (refused : Bool) (s : State) : State :=
  let x := s.xfe e
  match x.cur with
  | none => s
  | some c =>
    match (c.units.flatMap (·.writes)).find? (fun w => w.tag == tag) with
    | none => s
    | some w =>
      let c2 := { c with units := c.units.map (fun v => { v with writes := v.writes.filter (fun w => w.tag != tag) }),
                         failed := if refused then addSeg w.seg (addSeg w.seg2 c.failed) else c.failed,
                         firstBad := if refused then some (min w.elem (c.firstBad.getD w.elem)) else c.firstBad }
      pumpXfe e none (settle e (s.setXfe e { x with cur := some c2 }))

/-- A host write of an engine that was held at the port has left it. -/
def xfePosted (e tag : Nat) (s : State) : State :=
  let x := s.xfe e
  match x.cur with
  | none => s
  | some c =>
    if c.drain.contains tag then pumpXfe e none (s.setXfe e { x with cur := some { c with drain := c.drain.filter (· != tag) } })
    else xfeWrote e tag false s

/-- A host read of an engine fails (R277): the transfer ends FAULTED at its element. [DEDUCED, log entry 40] -/
def xfeReadFailed (e tag : Nat) (s : State) : State :=
  let x := s.xfe e
  match x.cur with
  | none => s
  | some c =>
    if c.drain.contains tag then pumpXfe e none (s.setXfe e { x with cur := some { c with drain := c.drain.filter (· != tag) } })
    else
      let mine := fun (rs : List (Nat × Option (List Byte))) => rs.any (fun r => r.1 == tag && r.2.isNone)
      let k : Option Nat := if mine c.fetch then some c.next
                            else (c.units.find? (fun u => mine u.reads)).map (·.start)
      match k with
      | none => s
      | some k =>
        let s := endAtElem e k .faulted s
        let x := s.xfe e
        match x.cur with
        | some c => pumpXfe e none (s.setXfe e { x with cur := some { c with drain := c.drain.filter (· != tag) } })
        | none => s

/-! ### The end of a descriptor (R302, R304, R315) -/

/-- Bytes of a completion record (R304). [DEDUCED, log entry 40] -/
def compRecord (e step : Nat) (c : XCur) (st : Status) : List Byte :=
  let first := c.failed.headD 0
  let map := c.failed.foldl (fun (m : Nat) k => if k - first < 192 then m ||| 2 ^ (k - first) else m) 0
  leBytes 4 (st.code + c.flags * 256 + e * 65536) ++ leBytes 4 c.rows ++ leBytes 8 step ++
  (c.endCursor st).flatMap (leBytes 2) ++ leBytes 4 c.failed.length ++
  leBytes 4 (if c.failed.isEmpty then 0xFFFFFFFF else first) ++ leBytes 4 0 ++ leBytes 24 map

/-- The next queued descriptor waits, or the engine is idle. A fence that waited only for the engine to end applies where
no partition runs. -/
def nextDesc (e : Nat) (s : State) : State :=
  let x := s.xfe e
  match x.queue with
  | d :: rest => s.setXfe e { x with run := .wait, cur := some { desc := d }, queue := rest }
  | [] =>
    let s := s.setXfe e { x with run := .idle, cur := none }
    if x.fencePend && !ownerActive s x.owner then fenceXfe e s else s

/-- A descriptor ends: `XFE_LAST`, the cursor, the faults, the taint, its command's entry; the next one follows. -/
def finishDesc (e : Nat) (c : XCur) (st : Status) (s : State) : State :=
  let x := s.xfe e
  let s := s.setXfe e { x with lastStat := st, lastFlags := BitVec.ofNat 8 c.flags, lastDesc := BitVec.ofNat 16 c.desc.src.index,
                               cursor := c.endCursor st, failedN := BitVec.ofNat 32 c.failed.length,
                               unresolved := if st == .faulted then satInc x.unresolved else x.unresolved }
  let s := if st == .faulted then raise 12 2 e s else s
  let s := if c.failed.isEmpty then s
           else
             let s := raise 12 3 e s
             match x.owner with
             | some p => markFlag p 1 s
             | none => s
  let s := traceAt e x.owner (nextDesc e s)
  match c.desc.src with
  | .command v tag _ _ => endCommand v tag st c.rows s
  | _ => s

end Sys2Proof.Machine
end

