-- ==== Sys2Proof/Machine/HostOps.lean ====
section
/-! DEFINITION. Operations of the host endpoint: ring reads and the delivery of command records, page faults of ring
accesses, and the stop of host DMA (R538 to R584, R598 to R600). -/
namespace Sys2Proof.Machine
open Sys2Proof

/-! ### Command records (R560 to R563, R599, R600) -/

def cmdOpcode (r : BitVec 512) : Nat := rfld r 0 0 8
def cmdPhase (r : BitVec 512) : Bool := rbit r 0 8
def cmdSealed (r : BitVec 512) : Bool := rbit r 0 9

/-- The unsealed form of a sealed record: its header and CMD_ID, then the plaintext of bytes 0x08 to 0x27. [DEDUCED, log entry 60] -/
def unsealed (r : BitVec 512) (pt : List Byte) : BitVec 512 :=
  BitVec.ofNat 512 (r.toNat % 2 ^ 64 + leNat (pt.take 32) * 2 ^ 64)

/-- Open a sealed record: the next sequence number and a good tag (R598 to R600). -/
def openCommand (k : Seal) (v : Nat) (r : BitVec 512) : Option (BitVec 512) :=
  let b := leBytes 64 r.toNat
  let seq := rfld r 8 0 64
  if seq = k.cmdSeq.toNat + 1 then
    match k.key with
    | some key => (Config.gcmOpen key (sealIv 1 v seq) (b.take 16) ((b.drop 0x10).take 32) (BitVec.ofNat 128 (rfld r 0x30 0 128))).map (unsealed r)
    | none => none
  else none

/-- Whether the opcode is defined and every reserved field of an unsealed record is 0 (R560, R561). [DEDUCED, log entry 60] -/
def recordOk (r : BitVec 512) : Bool :=
  rfld r 0 10 22 == 0 &&
  (match cmdOpcode r with
   | 1 | 3 => rfld r 8 0 448 == 0
   | 2 => rfld r 8 8 8 == 0 && rfld r 0xC 2 30 == 0 && rfld r 0x10 48 16 == 0 && rfld r 0x18 48 16 == 0 && rfld r 0x20 0 256 == 0
   | 4 => rfld r 0x10 0 384 == 0
   | _ => false)

/-- The descriptor that a TRANSFER names, with its overrides and the VI's context (R562). -/
def commandDesc (s : State) (p v tag : Nat) (r : BitVec 512) : Option XDesc :=
  let pool := rfld r 8 0 8
  let ix := rfld r 8 16 16
  match poolEntry s p pool ix with
  | none => none
  | some e =>
    let n := e.toNat
    let n := setBits 512 n 32 10 v
    let n := if rbit r 0xC 0 then setBits 512 n 0x80 48 (rfld r 0x10 0 48) else n
    let n := if rbit r 0xC 1 then setBits 512 n 0xC0 48 (rfld r 0x18 0 48) else n
    some { src := .command v tag pool ix, base := BitVec.ofNat 512 n,
           ext := if rbit e 4 17 then (poolEntry s p pool (ix + 1)).getD 0 else 0 }

/-- The effect of a record at its delivery, its command noted under `tag`. DESC_ERROR names no engine where the descriptor names
one that the partition does not have or its ring engine (R320). [DEDUCED, log entry 42] -/
def runCommand (p v tag : Nat) (r : BitVec 512) (s : State) : State :=
  match cmdOpcode r with
  | 1 => endCommand v tag .ok 0 s
  | 2 =>
    (match commandDesc s p v tag r with
     | none => endCommand v tag .aborted 0 s
     | some d =>
       let cfg := (s.part p).cfg
       if descOk cfg (ringEngine s p) false d then passDesc d s
       else if cfg.xfes.getLsbD d.engine && ringEngine s p != some d.engine then endUnrun d.engine d .aborted false (raise 12 1 d.engine s)
       else endCommand v tag .aborted 0 (if descOk cfg none false d then s else raise 12 1 noUnit s))
  | 3 => if (s.vi v).cmds.length = 1 then endCommand v tag .ok 0 s else s.modVi v (fun x => { x with barrier := true })
  | _ =>
    let n : BitVec 64 := BitVec.ofNat 64 (rfld r 8 0 64)
    if n ≤ (s.part p).step then endCommand v tag .ok ((s.part p).step.toNat % 2 ^ 32) s
    else s.modVi v (fun x => { x with cmds := x.cmds.map (fun c => if c.tag == tag then { c with waitFor := some n } else c) })

/-- Whether a VI's records can be delivered now (R544, R561, R565, R575): ATTACHED and not to be detached, its ring
engine in service, host DMA running, no earlier entry held, no BARRIER or WAIT_STEP open, fewer than 64 commands open. -/
def canDeliver (s : State) (p v : Nat) : Bool :=
  let x := s.vi v
  x.state == .attached && x.pend != .detach && !s.host.dmaStopped && x.held.isEmpty && !x.barrier &&
  !x.cmds.any (fun c => c.waitFor.isSome) && decide (x.cmds.length < 64) &&
  (match ringEngine s p with | some e => (s.xfe e).run != .fenced | none => false)

/-- Deliver the front record of a VI: the head advances and inverts the phase at the wrap; the record takes effect with
the running step's number (R563 to R566). [DEDUCED, log entry 57] -/
def deliverRecord (p v : Nat) (s : State) : State :=
  let x := s.vi v
  match x.read with
  | [] => s
  | r :: rest =>
    let h := if x.cmdHead + 1 = x.cmdSize then 0 else x.cmdHead + 1
    let tag := x.nextTag
    let c : Cmd := { opcode := cmdOpcode r, cmdId := BitVec.ofNat 32 (rfld r 4 0 32), step := (s.part p).step, tag := tag }
    let s := s.setVi v { x with read := rest, cmdHead := h, cmdPhase := if h = 0 then !x.cmdPhase else x.cmdPhase,
                                cmds := x.cmds ++ [c], nextTag := tag + 1 }
    let ck := if cmdSealed r then slotCheck v s else (true, s)
    let s := ck.2
    if cmdSealed r != s.sealOpen v then endCommand v tag .denied 0 s
    else
      let k := s.sealOf v
      let r2 := if cmdSealed r then openCommand k v r else some r
      match r2 with
      | none => endCommand v tag .sealFail 0 (viFault v 5 (raise 4 4 0 s))
      | some r2 =>
        let s := if cmdSealed r then s.setSeal v { k with cmdSeq := k.cmdSeq + 1 } else s
        if recordOk r2 then runCommand p v tag r2 s
        else endCommand v tag .aborted 0 (viFault v 4 s)

/-- Deliver records while they can be. The fuel is the number of records read. -/
def deliverN : Nat → Nat → Nat → State → State
  | 0, _, _, s => s
  | n + 1, p, v, s => if canDeliver s p v && !(s.vi v).read.isEmpty then deliverN n p v (deliverRecord p v s) else s

/-! ### Ring reads (R565 to R567, R578) -/

/-- Records that the next ring read may bring: DEPTH, the end of the ring, the limit of 64 commands, and the free entries
of the completion ring that no command needs yet. -/
def readCount (x : Vi) : Nat :=
  let open_ := x.cmds.length
  min (min x.depth (x.cmdSize - x.cmdHead)) (min (64 - open_) (cplFree x - (x.held.length + open_)))

/-- A ring access whose page the host does not map (R307, R578): a page request where PRI can be used and none of the
engine waits; otherwise RING_FAULT and QUIESCED. [DEDUCED, log entry 57] -/
def ringFault (e v dva iova : Nat) (s : State) : State :=
  if priUsable s then
    let x := s.xfe e
    if x.ringVi.isSome then s
    else
      let s := sendPageReqs (s.setXfe e { x with ringVi := some v, pageWait := true, taken := satInc x.taken,
                                                 faultDva := BitVec.ofNat 64 dva, faultIova := BitVec.ofNat 64 iova })
      s
  else requestQuiesce v (some 3) (raise 2 2 v s)

/-- Issue a ring read of a VI, a 64 B request for each record (R300, R565). `fail` is a page whose translation has just failed. -/
def ringRead (p v : Nat) (fail : Option Nat) (s : State) : State :=
  let x := s.vi v
  let n := readCount x
  match ringEngine s p with
  | none => s
  | some e =>
    if x.state != .attached || s.host.dmaStopped || (s.xfe e).run == .fenced || x.reading.isSome || n = 0 then s
    else
      let dva := (x.cmdBase.toNat + x.cmdHead * 64) % 2 ^ 48
      match xPlan s e v false ((List.range n).map (fun i => (dva + i * 64, 64))) with
      | .deny b _ => ringDenied v b s
      | .ask d iova =>
        let s := s.modVi v (fun x => { x with fetchWait := true })
        if fail == some (iova / 4096 * 4096) then ringFault e v d iova s else askAts e v iova s
      | .go ps =>
        if !hostTagsFree s p n || decide (128 < (s.noc.reqs.filter (fun r => r.host && r.who == .xfe e)).length + n) || holdFull s e p n then
          s.modVi v (fun x => { x with fetchWait := true })
        else
          let r := ps.foldl (fun (acc : List (Nat × Option (BitVec 512)) × State) q => match q.2.2 with
            | .host h iova a =>
              let t := noteHost e v iova false acc.2
              let i := issueHostRead { tag := 0, who := .xfe e, write := false, host := true, addr := a, len := 64, ctx := v, part := p,
                                       sched := false, use := .ring v, iova := iova, hwt := some h } t
              (acc.1 ++ [(i.1, none)], i.2)
            | .dev _ => acc) ([], s)
          r.2.modVi v (fun x => { x with reading := some { head := x.cmdHead, reqs := r.1 }, fetchWait := false })

/-- Records of a ring read that returns: those before the first that is not new are held for the next fetch slot (R566). -/
def newRecords (phase : Bool) : List (BitVec 512) → List (BitVec 512)
  | [] => []
  | r :: rs => if cmdPhase r == phase then r :: newRecords phase rs else []

/-- Take a request of the host from the open ones, with its counters. -/
def closeReq (tag : Nat) (s : State) : State :=
  match s.noc.reqs.find? (fun r => r.tag == tag) with
  | some r => completeStats r { s with noc := { s.noc with reqs := s.noc.reqs.filter (fun q => q.tag != tag) } }
  | none => s

/-- A whole ring read has returned: its new records wait for the next fetch slot. Poisoned records are not new: the read is
discarded with the head unchanged. [DEDUCED, log entry 57] -/
def ringWhole (v : Nat) (r : RingRead) (s : State) : State :=
  let x := s.vi v
  let fenced := match (s.partOfVi v).bind (fun p => ringEngine s p) with
    | some e => (s.xfe e).run == .fenced
    | none => true
  let ok := !r.bad && !fenced && x.state == .attached && r.head == x.cmdHead
  s.setVi v { x with reading := none,
                     read := if ok then newRecords x.cmdPhase ((r.reqs.filterMap (·.2)).take (readCount x)) else x.read }

/-- A request of a ring read returns. UR or CA leaves the access unresolved: RING_FAULT. [DEDUCED, log entry 57] -/
def ringReturned (v tag : Nat) (ok poison : Bool) (word : BitVec 512) (s : State) : State :=
  let s := closeReq tag s
  let x := s.vi v
  match x.reading with
  | none => s
  | some r =>
    if !r.reqs.any (fun q => q.1 == tag && q.2.isNone) then s
    else if !ok then requestQuiesce v (some 3) (raise 2 2 v (s.setVi v { x with reading := none }))
    else
      let r := { r with reqs := r.reqs.map (fun q => if q.1 == tag then (tag, some word) else q), bad := r.bad || poison }
      if r.reqs.any (fun q => q.2.isNone) then s.setVi v { x with reading := some r } else ringWhole v r s

/-- Let the rings of an engine's partition go on: held entries, then ring reads that waited. -/
def ringRetry (e : Nat) (fail : Option (Nat × Nat)) (s : State) : State :=
  match (s.xfe e).owner with
  | none => s
  | some p =>
    if ringEngine s p != some e then s
    else
      (s.visOf p).foldl (fun s v =>
        let x := s.vi v
        let dva := (x.cplBase.toNat + x.cplTail * 32) % 2 ^ 48
        let fail := match fail with | some (c, pg) => if c = v then some pg else none | none => none
        let stuck := !x.held.isEmpty && x.state == .attached && !s.host.dmaStopped && decide (cplFree x ≠ 0) &&
          (match hwtFind s v dva with
           | some (_, h, iova) => hwtPerm h true && fail == some (iova / 4096 * 4096) && hostSpot s e v iova true == .ask
           | none => false)
        let s := if stuck then ringFault e v dva (match hwtFind s v dva with | some q => q.2.2 | none => 0) s else deliverHeld v s
        if (s.vi v).fetchWait then ringRead p v fail s else s) s

/-- Rings that wait for a host tag try again. -/
def ringRetryAll (s : State) : State :=
  s.enabledParts.foldl (fun s p =>
    (s.visOf p).foldl (fun s v => if (s.vi v).fetchWait then ringRead p v none s else s) s) s

/-! ### The stop of host DMA (R573, R574) -/

/-- Host reads in flight and page requests are given up by their engine. -/
def dropHostReads (tags : List Nat) (x : Xfe) : Xfe :=
  let x := { x with pageReq := false, pageWait := false, ringVi := none }
  match x.cur with
  | none => x
  | some c =>
    let us := c.units.map (fun u => { u with writes := u.writes.filter (fun w => !tags.contains w.tag) })
    { x with cur := some { c with drain := c.drain.filter (fun t => !tags.contains t), fetch := [], units := us } }

/-- Whether a descriptor with a host-window side ends as host DMA stops (R301, R574): it waits, runs or waits for a page, or it
is ending with elements whose writes have not been issued. -/
def Xfe.hostBound (x : Xfe) : Bool :=
  match x.cur with
  | some c => c.desc.hostSide && (x.run == .wait || x.run == .run || x.run == .faultWait ||
      (x.run == .ending && (c.units.any (fun u => !u.wrote) || (c.desc.sealedOut && !c.buf.isEmpty))))
  | none => false

/-- An image fetch that has not completed ends ABORTED, with nothing written to host memory (R98). -/
def abortFetch (s : State) : State :=
  if s.img.load.stage == .fetching then
    let s := dropWindow s.img.load.hwtIx s
    mbEnd .aborted [] { s with img := { s.img with load := {}, report := { status := .aborted } } }
  else s

/-- Host DMA stops with a reason of R573; nothing happens where it stands stopped already. [DEDUCED, log entry 58] -/
def stopDma (reason : Nat) (s : State) : State :=
  if s.host.dmaStopped then s
  else
    let s := { s with host := { s.host with dmaStopped := true, stopReason := reason, attached := false } }
    let tags := (s.noc.reqs.filter (fun r => r.host)).map (·.tag)
    let s := (s.xfes.map (·.1)).foldl (fun (s : State) (e : Nat) =>
      let x := s.xfe e
      let s := if x.hostBound then
          let s := endEarly e .aborted s
          (match x.owner with | some p => markFlag p 1 s | none => s)
        else s
      settle e (s.setXfe e (dropHostReads tags (s.xfe e)))) s
    let s := { s with noc := { s.noc with reqs := s.noc.reqs.filter (fun r => !r.host) }, xlt := { s.xlt with atsWait := [] } }
    let s := { s with vis := Tab.mapV {} (fun _ (x : Vi) => { x with reading := none, fetchWait := false }) s.vis }
    raise 1 2 0 (abortFetch s)

/-- The host island resets (R576): window entries and translations are void, a pending commit is lost, attached VIs are
QUIESCED at once, held entries are discarded. Its configuration bits return to their reset values. [DEDUCED, log entry 59] -/
def resetHostIsland (s : State) : State :=
  let s := xlDrop (·.host) s
  let s := { s with xlt := { s.xlt with hwt := [], atsWait := [], pend := none, atsEn := false, priEn := false,
                                        priStopped := false, priAlloc := 0 },
                    regs := s.regs.keep (fun a => !(decide (0x10000 ≤ a) && decide (a < 0x1F000))),
                    host := { s.host with bme := false, d3hot := false, intDisable := false, attached := false, attachStat := .ok } }
  let s := ((s.vis.filter (fun e => e.2.state == .attached)).map (·.1)).foldl (fun s v => quiesceVi v none s) s
  { s with vis := Tab.mapV {} (fun _ (x : Vi) => { x with held := [] }) s.vis }

end Sys2Proof.Machine
end

