-- ==== Sys2Proof/Machine/LinkOps.lean ====
section
/-! DEFINITION. Operations of the step-link ports: slots and their headers, credits, replays, ownership of slots
(R491 to R508). -/
namespace Sys2Proof.Machine
open Sys2Proof

/-! ### Collective descriptors (R512, R513) -/

def cKind (d : BitVec 512) : Nat := rfld d 0 0 4
def cOp (d : BitVec 512) : Nat := rfld d 0 4 3
def cAlg (d : BitVec 512) : Nat := rfld d 0 7 2
def cGrid (d : BitVec 512) : Bool := rbit d 0 9
def cRedop (d : BitVec 512) : Nat := rfld d 0 10 2
def cSrcFmt (d : BitVec 512) : Nat := rfld d 0 12 4
def cDstFmt (d : BitVec 512) : Nat := rfld d 0 16 4
def cRnd (d : BitVec 512) : Nat := rfld d 0 20 2
def cSat (d : BitVec 512) : Bool := rbit d 0 22
def cFtz (d : BitVec 512) : Bool := rbit d 0 23
def cWaitValid (d : BitVec 512) : Bool := rbit d 0 24
def cWaitEngine (d : BitVec 512) : Nat := rfld d 0 25 6
def cCtx (d : BitVec 512) : Nat := rfld d 4 0 10
def cRank (d : BitVec 512) : Nat := rfld d 4 10 10
def cMembers (d : BitVec 512) : Nat := rfld d 4 20 11
def cWaitThr (d : BitVec 512) : Nat := rfld d 8 0 32
def cCount (d : BitVec 512) : Nat := rfld d 0xC 0 32
def cSrc (d : BitVec 512) : Nat := rfld d 0x10 0 48
def cRoot (d : BitVec 512) : Nat := rfld d 0x10 48 10
def cDst (d : BitVec 512) : Nat := rfld d 0x18 0 48
def cMask (d : BitVec 512) (k : Nat) : Nat := rfld d 0x20 (8 * k) 8
def cMasks (d : BitVec 512) : Nat := cMask d 0 ||| cMask d 1 ||| cMask d 2 ||| cMask d 3
def cSlotFirst (d : BitVec 512) : Nat := rfld d 0x24 0 5
def cSlotCount (d : BitVec 512) : Nat := rfld d 0x24 5 6
def cDimX (d : BitVec 512) : Nat := rfld d 0x24 16 11
def cComp (d : BitVec 512) : Nat := rfld d 0x28 0 48
def cCompValid (d : BitVec 512) : Bool := rbit d 0x28 63
def cScratch (d : BitVec 512) : Nat := rfld d 0x30 0 48

/-- The collective descriptors of a partition's pools. -/
def collDescs (s : State) (p : Nat) : List (BitVec 512) :=
  (s.img.run.recs.filter (fun r => r.sec == 6 && r.part == p)).flatMap (fun r =>
    (List.range (r.body.length / 64)).filterMap (fun i =>
      let e : BitVec 512 := BitVec.ofNat 512 (leNat ((r.body.drop (64 * i)).take 64))
      if cKind e = 3 then some e else none))

/-- Slots of a port that a partition owns (R504): those that its descriptors name there. -/
def ownedSlots (s : State) (p port : Nat) : List Nat :=
  let ds := (collDescs s p).filter (fun d => (cMasks d).testBit port)
  (List.range 32).filter (fun k => ds.any (fun d => decide (cSlotFirst d ≤ k) && decide (k < cSlotFirst d + cSlotCount d)))

/-- The credits of a fresh training: the 64 slots of the buffer, divided in proportion to the slots owned (R503). -/
def fullCredits (s : State) (port : Nat) : Tab Nat :=
  let own := s.enabledParts.map (fun p => (p, (ownedSlots s p port).length))
  let all := (own.map (·.2)).foldl (· + ·) 0
  own.foldl (fun t e => Tab.set 0 t e.1 (if all = 0 then 0 else 64 * e.2 / all)) []

/-! ### Slots (R497, R500) -/

def slotValid (h : BitVec 256) : Bool := rbit h 0 0
def slotPart (h : BitVec 256) : Nat := rfld h 0 1 6
def slotUnit (h : BitVec 256) : Nat := rfld h 0 7 3
def slotNo (h : BitVec 256) : Nat := rfld h 0 10 5
def slotFrame (h : BitVec 256) : Nat := rfld h 0 16 16
def slotRank (h : BitVec 256) : Nat := rfld h 4 0 10
def slotPhase (h : BitVec 256) : Nat := rfld h 4 10 4
def slotSeq (h : BitVec 256) : Nat := rfld h 8 0 32
def slotStep (h : BitVec 256) : Nat := rfld h 0xC 0 16
def slotLen (h : BitVec 256) : Nat := rfld h 0xC 16 13
def slotPoison (h : BitVec 256) : Nat := rfld h 0x10 0 64
def slotCrc (h : BitVec 256) : Nat := rfld h 0x18 0 32

/-- A slot's payload on the wire: 4,096 bytes, zero past those in use. -/
def wirePayload (bs : List Byte) : List Byte := (bs ++ List.replicate (4096 - bs.length) 0#8).take 4096

/-- CRC-32 over bytes 0x00 to 0x17 and the payload (R500). -/
def slotSum (h : BitVec 256) (bs : List Byte) : Nat := crc32 (leBytes 24 (h.toNat % 2 ^ 192) ++ wirePayload bs)
def slotOk (sl : Slot) : Bool := slotSum sl.hdr sl.payload == slotCrc sl.hdr

/-- A header without FRAME and CRC. -/
def mkHeader (part unit no rank phase seq step len poison : Nat) : BitVec 256 :=
  BitVec.ofNat 256 (1 + part % 64 * 2 + unit % 8 * 128 + no % 32 * 1024 + (rank % 1024 + phase % 16 * 1024) * 2 ^ 32 +
    seq % 2 ^ 32 * 2 ^ 64 + (step % 65536 + len % 8192 * 65536) * 2 ^ 96 + poison % 2 ^ 64 * 2 ^ 128)

/-- A header with its frame number and CRC. -/
def stampHeader (h : BitVec 256) (frame : Nat) (bs : List Byte) : BitVec 256 :=
  let n := setBits 256 (h.toNat % 2 ^ 192) 16 16 frame
  BitVec.ofNat 256 (n + slotSum (BitVec.ofNat 256 n) bs * 2 ^ 192)

/-- A slot leaves its port. The frame that runs depends on the link's own clock, so its number is a free value, and so is which of its
partition's slots comes next for a slot that is sent again (R501). [DEDUCED, log entry 55] -/
def transmit (n : Nat) (again : Bool) (sl : Slot) (s : State) : State :=
  let f := s.drawFree 32
  let own := ownedSlots s (slotPart sl.hdr) n
  let no := if again then own.getD (f.1.toNat / 65536 % max 1 own.length) (slotNo sl.hdr) else slotNo sl.hdr
  let sl : Slot := { sl with hdr := stampHeader (BitVec.ofNat 256 (setBits 256 sl.hdr.toNat 10 5 no)) f.1.toNat sl.payload }
  let s := if again then traceAt (72 + n) none f.2
           else
             let c := slotUnit sl.hdr
             f.2.setCunit c { f.2.cunit c with sentBytes := (f.2.cunit c).sentBytes + BitVec.ofNat 64 (slotLen sl.hdr) }
  let q := s.port n
  (s.setPort n { q with replay := (sl :: q.replay).take 64, sent := if again then q.sent else q.sent + 1,
                          replays := if again then satInc q.replays else q.replays }).emit (.slot n sl)

/-- Send what waits at a port: slots to repeat first, then new ones for which their partition holds a credit (R501, R503).
The fuel is the number of slots that wait. -/
def drainTxN : Nat → Nat → State → State
  | 0, _, s => s
  | k + 1, n, s =>
    let q := s.port n
    if q.state != .up then s
    else match q.resend with
      | sl :: rest => drainTxN k n (transmit n true sl (s.setPort n { q with resend := rest }))
      | [] =>
        match q.txq.find? (fun sl => Tab.get 0 q.credits (slotPart sl.hdr) != 0) with
        | none => s
        | some sl =>
          let p := slotPart sl.hdr
          drainTxN k n (transmit n false sl (s.setPort n { q with txq := q.txq.erase sl, credits := Tab.upd 0 q.credits p (· - 1) }))
/-- [DESIGN CHOICE, log entry 80] -/
def drainTx (n : Nat) (s : State) : State := drainTxN ((s.port n).resend.length + (s.port n).txq.length) n s

/-- Hand a slot to a port. -/
def sendSlot (n : Nat) (sl : Slot) (s : State) : State :=
  let q := s.port n
  drainTx n (s.setPort n { q with txq := q.txq ++ [sl] })

/-- Mirrors of proof ports that are down (R124, R153). -/
def refreshMirrors (s : State) : State :=
  { s with prfMir := (List.range 8).foldl (fun (m : BitVec 8) n => putBit m n (!s.prfUp.getLsbD n && !(mirrorsOf s n).isEmpty)) 0 }

/-- A port changes its state. -/
def setLink (n : Nat) (st : PortState) (s : State) : State :=
  refreshMirrors (traceAt (72 + n) none (s.setPort n { s.port n with state := st }))

end Sys2Proof.Machine
end

