-- ==== Sys2Proof/Machine/ColOps.lean ====
section
/-! DEFINITION. The collective units at work: the rounds of each operation, what a round carries over the step links, the
arithmetic of ordered and grid-sum reductions, and the end of an operation (R511 to R530). -/
namespace Sys2Proof.Machine
open Sys2Proof

/-! ### Shards (R516) -/

/-- A range of elements: first, and one past the last. -/
abbrev Rng := Nat × Nat

/-- Shard `k` of a range divided among `n` members. -/
def shardOf (n : Nat) (r : Rng) (k : Nat) : Rng :=
  let size := (r.2 - r.1 + 32 * n - 1) / (32 * n) * 32
  (min r.2 (r.1 + k * size), min r.2 (r.1 + (k + 1) * size))

/-- Drop the empty ranges of a list. -/
def liveRngs (rs : List Rng) : List Rng := rs.filter (fun r => decide (r.1 < r.2))

/-- The elements of a list of ranges, in order. -/
def rngElems (rs : List Rng) : List Nat := rs.flatMap (fun r => (List.range (r.2 - r.1)).map (· + r.1))

/-- The 32-element blocks of a list of ranges, by their first element. -/
def rngBlocks (rs : List Rng) : List Nat := rs.flatMap (fun r => (List.range ((r.2 - r.1 + 31) / 32)).map (fun k => r.1 + 32 * k))

/-! ### Rounds -/

/-- What a round carries: exponent words (R260), grid blocks (R259) or elements. -/
inductive CLayer where
  | exps | grid | vals
  deriving DecidableEq, Repr

/-- Work of a round that has no part on the links. -/
inductive CAct where
  | none | quantise | round
  deriving DecidableEq, Repr

/-- One round of an operation: its stage, its phase number, what it carries, the port masks and element ranges of each
direction, whether received data is combined, the rank it must come from, its own work, and the ranges whose results
are then written to DST. -/
structure CRound where
  stage  : Nat
  phase  : Nat
  layer  : CLayer := .vals
  out    : Nat := 0
  inn    : Nat := 0
  send   : List Rng := []
  recv   : List Rng := []
  reduce : Bool := false
  peer   : Option Nat := none
  act    : CAct := .none
  fin    : List Rng := []
  deriving DecidableEq, Repr

/-- A ring that an operation runs along: its size, this member's place, the masks to and from its neighbours and the
predecessor's rank. -/
structure Ring where
  size : Nat
  at_  : Nat
  out  : Nat
  inn  : Nat
  prev : Nat
  deriving DecidableEq, Repr

/-- The place `k` steps before a place of a ring. -/
def Ring.back (g : Ring) (k : Nat) : Nat := (g.at_ + g.size * (k + 1) - k) % g.size

/-- Width and height of a torus; a ring is one row. -/
def cDx (d : BitVec 512) : Nat := if cAlg d = 1 then max 1 (cDimX d) else cMembers d
def cDy (d : BitVec 512) : Nat := if cAlg d = 1 then cMembers d / max 1 (cDimX d) else 1
def cX (d : BitVec 512) (r : Nat) : Nat := r % cDx d
def cY (d : BitVec 512) (r : Nat) : Nat := r / cDx d

/-- The X ring and the Y ring of this member (R513). -/
def xRing (d : BitVec 512) : Ring :=
  let x := cX d (cRank d)
  { size := cDx d, at_ := x, out := cMask d 0, inn := cMask d 1, prev := cY d (cRank d) * cDx d + (x + cDx d - 1) % cDx d }
def yRing (d : BitVec 512) : Ring :=
  let y := cY d (cRank d)
  { size := cDy d, at_ := y, out := cMask d 2, inn := cMask d 3, prev := (y + cDy d - 1) % cDy d * cDx d + cX d (cRank d) }

/-- The rounds of a ring: `k` from 1, each with the data of its place `k` before or after. [DEDUCED, log entry 56] -/
def ringRounds (g : Ring) (f : Nat → CRound) : List CRound :=
  (List.range (g.size - 1)).map (fun t =>
    let r := f (t + 1)
    { r with out := g.out, inn := g.inn, peer := some g.prev })

/-- Reduce-scatter of a range along a ring (R517): the partial sum of a shard ends at the shard's member. -/
def ringReduce (stage : Nat) (layer : CLayer) (g : Ring) (r : Rng) : List CRound :=
  ringRounds g (fun t =>
    { stage := stage, phase := if layer = .exps then 0 else 1, layer := layer, reduce := true,
      send := liveRngs [shardOf g.size r (g.back t)], recv := liveRngs [shardOf g.size r (g.back (t + 1))] })

/-- All-gather along a ring of what each place `k` holds. -/
def ringGather (stage : Nat) (layer : CLayer) (g : Ring) (has : Nat → List Rng) : List CRound :=
  ringRounds g (fun t =>
    { stage := stage, phase := if layer = .exps then 0 else 2, layer := layer,
      send := liveRngs (has (g.back (t - 1))), recv := liveRngs (has (g.back t)),
      fin := if layer = .exps then [] else liveRngs (has (g.back t)) })

/-- A round that only finishes ranges. -/
def finRound (stage phase : Nat) (act : CAct) (rs : List Rng) : CRound :=
  { stage := stage, phase := phase, act := act, fin := liveRngs rs }

/-- The X shard and the shard of this member (R516). -/
def xShard (d : BitVec 512) : Rng := shardOf (cDx d) (0, cCount d) (cX d (cRank d))
def ownShard (d : BitVec 512) : Rng := shardOf (cDy d) (xShard d) (cY d (cRank d))

/-- Reduce-scatter over X then Y, and all-gather over Y then X (R518). [DEDUCED, log entry 56] -/
def meshReduce (d : BitVec 512) (layer : CLayer) : List CRound :=
  ringReduce 1 layer (xRing d) (0, cCount d) ++ ringReduce 2 layer (yRing d) (xShard d)
def meshGather (d : BitVec 512) (layer : CLayer) : List CRound :=
  ringGather 3 layer (yRing d) (fun k => [shardOf (cDy d) (xShard d) k]) ++
  ringGather 4 layer (xRing d) (fun k => [shardOf (cDx d) (0, cCount d) k])

/-- The ports of a mask, each as a mask. -/
def onePorts (m : Nat) : List Nat := (bitsOf 8 m).map (fun n => 2 ^ n)

/-- A tree: partials up, children in ascending port order, then the result down (R519). [DEDUCED, log entry 56] -/
def treeUp (d : BitVec 512) (layer : CLayer) : List CRound :=
  let all : List Rng := [(0, cCount d)]
  let ph := if layer = .exps then 0 else 1
  (onePorts (cMask d 1)).map (fun m => { stage := 1, phase := ph, layer := layer, inn := m, recv := all, reduce := true }) ++
  (if cMask d 0 = 0 then [] else [{ stage := 2, phase := ph, layer := layer, out := cMask d 0, send := all }])
def treeDown (d : BitVec 512) (layer : CLayer) : List CRound :=
  let all : List Rng := [(0, cCount d)]
  let ph := if layer = .exps then 0 else 2
  (if cMask d 0 = 0 then []
   else [{ stage := 3, phase := ph, layer := layer, inn := cMask d 0, recv := all, fin := if layer = .exps then [] else all }]) ++
  (onePorts (cMask d 1)).map (fun m => { stage := 4, phase := ph, layer := layer, out := m, send := all })

/-- Blocks of ALL_TO_ALL: from an origin to a destination. -/
def pairRng (d : BitVec 512) (o t : Nat) : Rng :=
  let k := (o * cMembers d + t) * cCount d
  (k, k + cCount d)

/-- ALL_TO_ALL along X then Y: blocks move on around the ring until their column, then their row, is reached. -/
def exchange (d : BitVec 512) : List CRound :=
  let r := cRank d
  let dx := cDx d
  let dy := cDy d
  let x := xRing d
  let y := yRing d
  let xb := fun (o : Nat) (t : List Nat) => t.flatMap (fun xd => (List.range dy).map (fun yd => pairRng d (cY d r * dx + o) (yd * dx + xd)))
  let yb := fun (o : Nat) (t : List Nat) => t.flatMap (fun yd => (List.range dx).map (fun xo => pairRng d (o * dx + xo) (yd * dx + cX d r)))
  let fin := fun (rs : List Rng) => rs.filter (fun (q : Rng) => cCount d != 0 && q.1 / cCount d % cMembers d == r)
  let go := fun (g : Ring) (first n : Nat) => (List.range n).map (fun j => (g.at_ + first + j) % g.size)
  finRound 1 2 .none [pairRng d r r] ::
  (ringRounds x (fun t =>
    let rs := xb (x.back t) (go x 0 (dx - t))
    { stage := 1, phase := 2, send := liveRngs (xb (x.back (t - 1)) (go x 1 (dx - t))), recv := liveRngs rs, fin := liveRngs (fin rs) }) ++
   ringRounds y (fun t =>
    let rs := yb (y.back t) (go y 0 (dy - t))
    { stage := 2, phase := 2, send := liveRngs (yb (y.back (t - 1)) (go y 1 (dy - t))), recv := liveRngs rs, fin := liveRngs (fin rs) }))

/-- A broadcast along a ring from a place: receive unless it starts here, forward unless it ends here. -/
def ringCast (stage : Nat) (g : Ring) (root : Nat) (all : List Rng) : List CRound :=
  let k := (g.at_ + g.size - root % g.size) % g.size
  (if k = 0 then [] else [{ stage := stage, phase := 2, inn := g.inn, recv := all, peer := some g.prev, fin := all }]) ++
  (if k + 1 < g.size then [{ stage := stage, phase := 2, out := g.out, send := all }] else [])

/-- Whether this member is the origin of a BROADCAST. -/
def isOrigin (d : BitVec 512) : Bool := if cAlg d = 2 then cMask d 0 == 0 else cRank d == cRoot d

/-- The rounds of a BROADCAST: along the root's row, then along every column. -/
def broadcast (d : BitVec 512) : List CRound :=
  let all := liveRngs [(0, cCount d)]
  (if isOrigin d then [finRound 1 2 .none all] else []) ++
  (if cAlg d = 2 then treeDown d .vals
   else
    (if cY d (cRank d) = cY d (cRoot d) then ringCast 1 (xRing d) (cX d (cRoot d)) all else []) ++
    ringCast 2 (yRing d) (cY d (cRoot d)) all)

/-- The rounds of an operation. -/
def rounds (d : BitVec 512) : List CRound :=
  let tree := cAlg d = 2
  let whole : Rng := (0, cCount d)
  match cOp d with
  | 2 =>
    let blk := fun (k : Nat) => ((k * cCount d, (k + 1) * cCount d) : Rng)
    let x := cX d (cRank d)
    finRound 3 2 .none [blk (cRank d)] ::
    (ringGather 3 .vals (yRing d) (fun k => [blk (k * cDx d + x)]) ++
     ringGather 4 .vals (xRing d) (fun k => (List.range (cDy d)).map (fun y => blk (y * cDx d + k))))
  | 3 => exchange d
  | 4 => broadcast d
  | op =>
    let up := fun (l : CLayer) => if tree then treeUp d l else meshReduce d l
    let down := fun (l : CLayer) => if tree then treeDown d l else meshGather d l
    let mine : List Rng := if tree then (if cMask d 0 = 0 then [whole] else []) else [ownShard d]
    (if cGrid d then
       up .exps ++ down .exps ++ [finRound 0 1 .quantise []] ++ up .grid ++ [finRound 0 1 .round mine]
     else up .vals ++ [finRound 0 1 .none mine]) ++
    (if op = 0 then down .vals else [])

/-! ### What a round carries (R259, R260, R500) -/

/-- Width of an element on the links and in DST. -/
def cBits (d : BitVec 512) : Nat := (fmtOf (cDstFmt d)).width

/-- Header of a grid block: exponent word, addends, block number. -/
def blockHead (o : COp) (adds b : Nat) : List Byte := leBytes 4 (Tab.get 0 o.exps b) ++ leBytes 4 adds ++ leBytes 8 b

/-- Bytes of a list of ranges, and for each byte span whether it is poisoned. -/
def roundBytes (o : COp) (l : CLayer) (rs : List Rng) : List Byte :=
  match l with
  | .exps => (rngBlocks rs).flatMap (fun e => blockHead o 0 (e / 32))
  | .grid => (rngBlocks rs).flatMap (fun e =>
      blockHead o (Tab.get 0 o.adds (e / 32)) (e / 32) ++ (List.range 32).flatMap (fun i => leBytes 16 (Tab.get 0 o.lanes (e + i))))
  | .vals => bytesOf (cBits o.desc) ((rngElems rs).map (Tab.get 0 o.work))

/-- Length of a round's data in bytes. -/
def roundLen (d : BitVec 512) (l : CLayer) (rs : List Rng) : Nat :=
  match l with
  | .exps => 16 * (rngBlocks rs).length
  | .grid => 528 * (rngBlocks rs).length
  | .vals => ((rngElems rs).length * cBits d + 7) / 8

/-- Whether any lane of a block is poisoned. -/
def blockBad (o : COp) (e : Nat) : Bool := (List.range 32).any (fun i => Tab.get false o.laneBad (e + i))

/-- Whether byte `k` of a round's data is poisoned. -/
def byteBad (o : COp) (l : CLayer) (rs : List Rng) (k : Nat) : Bool :=
  match l with
  | .exps => blockBad o ((rngBlocks rs).getD (k / 16) 0)
  | .grid =>
    let e := (rngBlocks rs).getD (k / 528) 0
    if k % 528 < 16 then false else Tab.get false o.laneBad (e + (k % 528 - 16) / 16)
  | .vals =>
    let es := rngElems rs
    let w := cBits o.desc
    (List.range (8 / w + 1)).any (fun j =>
      let i := k * 8 / w + j
      decide (i < es.length) && decide (i * w < k * 8 + 8) && Tab.get false o.bad (es.getD i 0))

/-- POISON bits of `n` bytes of a round's data from byte `at_` on. -/
def poisonMask (o : COp) (l : CLayer) (rs : List Rng) (at_ n : Nat) : Nat :=
  (List.range ((n + 63) / 64)).foldl (fun (m : Nat) c =>
    if (List.range (min 64 (n - 64 * c))).any (fun j => byteBad o l rs (at_ + 64 * c + j)) then m ||| 2 ^ c else m) 0

/-! ### Elements received (R517, R519, R249, R253) -/

/-- The ordered operation of two elements in the destination format (R233 to R235).
[DESIGN CHOICE, log entry 37; DEDUCED, log entry 38] -/
def combine (d : BitVec 512) (a b : Nat) : Nat :=
  let f := cDstFmt d
  match cRedop d with
  | 1 => arithPick f (cFtz d) true a b
  | 2 => arithPick f (cFtz d) false a b
  | _ =>
    if f = 14 then arithAdd 14 .near (cFtz d) 0 a b
    else if f = 12 ∨ f = 13 then
      let w := (fmtOf f).width
      let v := toSigned w (a % 2 ^ w) + toSigned w (b % 2 ^ w)
      if -(2 ^ (w - 1) : Nat) ≤ v ∧ v < (2 ^ (w - 1) : Nat) then (v % (2 ^ w : Nat)).toNat else Config.narrowSum f a b % 2 ^ w
    else encodeNum f (plainRnd (rndOf (cRnd d))) (cFtz d) (cSat d) 0 (addNum (decodeNum f (cFtz d) a) (decodeNum f (cFtz d) b))

/-- Take received elements: partial sums are combined with the own addend, other data replaces it. -/
def takeVals (o : COp) (r : CRound) (bs : List Byte) (isBad : Nat → Bool) : COp :=
  let w := cBits o.desc
  let es := rngElems r.recv
  let xs := elemsOf w es.length bs
  (es.zip (xs.zip (List.range es.length))).foldl (fun (o : COp) p =>
    let b := (List.range (w / 8 + 1)).any (fun j => decide ((p.2.2 * w / 8 + j) * 8 < p.2.2 * w + w) && isBad (p.2.2 * w / 8 + j))
    let old := Tab.get 0 o.work p.1
    { o with work := Tab.set 0 o.work p.1 (if r.reduce then combine o.desc p.2.1 old else p.2.1),
             bad := Tab.set false o.bad p.1 (b || (r.reduce && Tab.get false o.bad p.1)) }) o

/-- Take received exponent words (R249). -/
def takeExps (o : COp) (r : CRound) (bs : List Byte) (isBad : Nat → Bool) : COp :=
  let es := rngBlocks r.recv
  (es.zip (List.range es.length)).foldl (fun (o : COp) p =>
    let w := bfld (bs.drop (16 * p.2)) 0 0 16
    let old := Tab.get 0 o.exps (p.1 / 32)
    let o := { o with exps := Tab.set 0 o.exps (p.1 / 32) (if r.reduce then expJoin w old else w) }
    if isBad (16 * p.2) then
      { o with laneBad := (List.range 32).foldl (fun t i => Tab.set false t (p.1 + i) true) o.laneBad }
    else o) o

/-- Take received grid blocks (R253, R254). -/
def takeGrid (o : COp) (r : CRound) (bs : List Byte) (isBad : Nat → Bool) : COp :=
  let es := rngBlocks r.recv
  (es.zip (List.range es.length)).foldl (fun (o : COp) p =>
    let b := (bs.drop (528 * p.2)).take 528
    let o := { o with adds := Tab.upd 0 o.adds (p.1 / 32) (· + bfld b 4 0 32) }
    let head := isBad (528 * p.2)
    (List.range 32).foldl (fun (o : COp) i =>
      let at_ := 16 + 16 * i
      { o with lanes := Tab.upd 0 o.lanes (p.1 + i) (fun q => gridAdd (bfld b at_ 0 128) q),
               laneBad := if head || isBad (528 * p.2 + at_) then Tab.set false o.laneBad (p.1 + i) true else o.laneBad }) o) o

/-- Take the data of a round. -/
def takeRound (o : COp) (r : CRound) (bs : List Byte) (isBad : Nat → Bool) : COp :=
  match r.layer with
  | .exps => takeExps o r bs isBad
  | .grid => takeGrid o r bs isBad
  | .vals => takeVals o r bs isBad

/-- Truncate the own addends onto the grid: one addend in every block (R252). -/
def quantise (o : COp) : COp :=
  let d := o.desc
  let es := List.range (cCount d)
  { o with
    lanes := es.foldl (fun t i => Tab.set 0 t i (gridQ (cSrcFmt d) (cFtz d) (Tab.get 0 o.exps (i / 32)) (Tab.get 0 o.own i))) [],
    laneBad := es.foldl (fun t i => if Tab.get false o.ownBad i then Tab.set false t i true else t) o.laneBad,
    adds := (List.range ((cCount d + 31) / 32)).map (fun b => (b, 1)) }

/-- Round finished blocks into the destination format (R256, R520); a block with any poisoned lane is poisoned (R527). -/
def roundBlocks (o : COp) (rs : List Rng) : COp :=
  let d := o.desc
  (rngElems rs).foldl (fun (o : COp) i =>
    { o with work := Tab.set 0 o.work i (gridRound (cDstFmt d) (rndOf (cRnd d)) (cFtz d) (Tab.get 0 o.exps (i / 32)) (Tab.get 0 o.lanes i)),
             bad := Tab.set false o.bad i (blockBad o (i / 32 * 32)) }) o

/-! ### Destination writes (R515, R523) -/

/-- Element of DST that an element of the buffer goes to. -/
def dstElem (d : BitVec 512) (i : Nat) : Nat :=
  match cOp d with
  | 1 => i - (ownShard d).1
  | 3 => i / (cMembers d * cCount d) * cCount d + i % cCount d
  | _ => i

/-- Change the operation a unit runs. -/
def modOp (c : Nat) (f : COp → COp) (s : State) : State :=
  let u := s.cunit c
  match u.cur with
  | some o => s.setCunit c { u with cur := some (f o) }
  | none => s

/-- A request of a collective unit for a run of bytes within one 64 B line, scheduled as all traffic of a step (R377, R523). The
first result is its tag, none where its translation fails. -/
def collRequest (c : Nat) (who : Initiator) (o : COp) (write : Bool) (dva len : Nat) (data : List Byte) (poison : Bool)
    (s : State) : Option Nat × State :=
  let ctx := cCtx o.desc
  let t := translate s (64 + c) ctx dva write
  let s := noteXlat (64 + c) ctx dva s
  match t with
  | .ok pa =>
    let i := issueReq { tag := 0, who := who, write := write, host := false, addr := pa, len := len, ctx := ctx, part := o.part,
                        sched := true, data := data, poison := poison, use := if write then .cwrite c else .cread c } s
    (some i.1, i.2)
  | t => (none, match t.bit with | some b => raise 11 b 0 s | none => s)

/-- A write of an operation, at a segment and line of DST or in the exponent array: a failed translation ends it DENIED (R523,
R525). -/
def collWrite (c : Nat) (who : Initiator) (dva : Nat) (bs : List Byte) (poison : Bool) (seg : Option (Nat × Nat)) (s : State) : State :=
  match (s.cunit c).cur with
  | none => s
  | some o =>
    let i := collRequest c who o true dva bs.length bs poison s
    match i.1 with
    | some t => modOp c (fun o => { o with writes := o.writes ++ [{ tag := t, seg := seg }], poison := o.poison || (poison && seg.isSome) }) i.2
    | none => modOp c (fun o => { o with denied := true, poison := o.poison || (poison && seg.isSome) }) i.2

/-- Place of an element in the data of a round. -/
def rngPos : List Rng → Nat → Nat
  | [], _ => 0
  | r :: rs, i => if decide (r.1 ≤ i) && decide (i < r.2) then i - r.1 else r.2 - r.1 + rngPos rs i

/-- The initiator that writes a finished element: the port that received it where the round delivers what it received, else the
unit (R523). -/
def finWho (c : Nat) (o : COp) (q : CRound) (i : Nat) : Initiator :=
  if q.reduce || q.recv.isEmpty then .col c
  else
    let k := rngPos q.recv i * cBits o.desc / 8 / 4096
    match o.got.find? (fun g => g.1 == k) with
    | some g => .link g.2.2.2
    | none => .col c

/-- Write finished ranges to DST. A range of 4-bit elements is widened to whole bytes. -/
def writeFin (c : Nat) (q : CRound) (got : COp) (s : State) : State :=
  q.fin.foldl (fun s r =>
    match (s.cunit c).cur with
    | none => s
    | some o =>
      let d := o.desc
      let w := cBits d
      let k := dstElem d r.1
      let lead := if w = 4 then k % 2 else 0
      let a := cDst d + (k - lead) * w / 8
      let n := r.2 - r.1 + lead
      let xs := (List.range (if w = 4 then (n + 1) / 2 * 2 else n)).map (fun j => Tab.get 0 o.work (r.1 - lead + j))
      let bs := bytesOf w xs
      let isBad := fun (k : Nat) => (rngElems [r]).any (fun i =>
        Tab.get false o.bad i && decide ((i - r.1 + lead) * w < k * 8 + 8) && decide (k * 8 < (i - r.1 + lead) * w + w))
      (pieces a bs.length).foldl (fun s p =>
        let off := p.1 - a
        let bad := (List.range p.2).any (fun j => isBad (off + j))
        let who := finWho c got q (r.1 + (off * 8 / w - lead))
        collWrite c who p.1 ((bs.drop off).take p.2) bad (some ((p.1 - cDst d) / 65536, p.1 / 64 - cDst d / 64)) s) s) s

/-! ### Slots of a round (R522, R500) -/

/-- Slots that a length of data takes. -/
def slotsIn (n : Nat) : Nat := (n + 4095) / 4096

/-- Slots of a phase sent on, or received from, a mask before a round. -/
def slotsBefore (d : BitVec 512) (k : Nat) (q : CRound) (out : Bool) : Nat :=
  (((rounds d).take k).filter (fun r => r.stage == q.stage && r.phase == q.phase && (if out then r.out == q.out else r.inn == q.inn))).foldl
    (fun (a : Nat) r => a + slotsIn (roundLen d r.layer (if out then r.send else r.recv))) 0

/-- Ports of a mask in use: the sender's order, and the order in which the peer's ports send. -/
def outPorts (o : COp) (mask : Nat) : List Nat := (bitsOf 8 mask).filter (fun n => o.live.getLsbD n)
def innPorts (s : State) (o : COp) (mask : Nat) : List Nat :=
  let ps := outPorts o mask
  (List.range 8).flatMap (fun k => ps.filter (fun n => (s.port n).peerPort.toNat == k))

/-- The port of slot `k` of a phase. -/
def portAt (ps : List Nat) (k : Nat) : Nat := ps.getD (k % max 1 ps.length) 0

/-- Give a slot of an operation the next number of its port and hand it over. -/
def queueSlot (c n phase : Nat) (bs : List Byte) (poison : Nat) (s : State) : State :=
  let u := s.cunit c
  match u.cur with
  | none => s
  | some o =>
    let d := o.desc
    let seq := Tab.get 0 o.txSeq n
    let h := mkHeader o.part c (cSlotFirst d + seq % max 1 (cSlotCount d)) (cRank d) phase seq o.step.toNat bs.length poison
    let u := { u with cur := some { o with txSeq := Tab.set 0 o.txSeq n (seq + 1) } }
    sendSlot n { hdr := h, payload := wirePayload bs } (s.setCunit c u)

/-- Send the data of a round. [DEDUCED, log entry 56; DEDUCED, log entry 81] -/
def sendRound (c : Nat) (r : CRound) (s : State) : State :=
  match (s.cunit c).cur with
  | none => s
  | some o =>
    let bs := roundBytes o r.layer r.send
    let first := slotsBefore o.desc o.round r true
    let ps := outPorts o r.out
    (List.range (slotsIn bs.length)).foldl (fun s k =>
      let part := (bs.drop (4096 * k)).take 4096
      queueSlot c (portAt ps (first + k)) r.phase part (poisonMask o r.layer r.send (4096 * k) part.length) s) s

/-! ### The end of an operation (R525 to R529) -/

/-- Received slots of an operation are discarded; their credits return. -/
def dropOpSlots (c part step : Nat) (s : State) : State :=
  (List.range 8).foldl (fun s n =>
    let q := s.port n
    let mine := fun (sl : Slot) => slotPart sl.hdr == part && slotUnit sl.hdr == c && slotStep sl.hdr == step % 65536
    let k := (q.rx.filter mine).length
    if k = 0 then s else sendCredit n part k (s.setPort n { q with rx := q.rx.filter (fun sl => !mine sl) })) s

/-- An operation ends ABORTED, its last slots at hand or not: no further write, its slots are dropped, and ABORT goes out on every
UP port of its masks (R529, R531). [DEDUCED, log entry 56] -/
def abortOp (c : Nat) (s : State) : State :=
  let u := s.cunit c
  match u.cur with
  | none => s
  | some o =>
    if o.aborted then s
    else
      let s := traceAt (64 + c) u.owner (s.setCunit c { u with run := .ending, cur := some { o with aborted := true, plan := [], got := [], src := [] } })
      dropOpSlots c o.part o.step.toNat (sendAborts c o s)

/-- The status of an operation that has ended (R525). -/
def COp.finalStatus (o : COp) : Status :=
  if o.aborted then .aborted else if o.denied then .denied else if o.poison then .poisoned else if !o.failed.isEmpty then .partialDone else .ok

/-- Every round has run: the operation is ending. -/
def endOp (c : Nat) (s : State) : State :=
  let u := s.cunit c
  match u.cur with
  | none => s
  | some _ => traceAt (64 + c) u.owner (s.setCunit c { u with run := .ending })

/-! ### Rounds in turn -/

/-- A unit changes its run state; a change of phase is a trace point (R774). -/
def setRun (c : Nat) (r : CRun) (s : State) : State :=
  let u := s.cunit c
  if u.run == r then s else traceAt (64 + c) u.owner (s.setCunit c { u with run := r })

/-- The run state of a phase (R535). -/
def phaseRun (phase : Nat) : CRun := if phase = 0 then .exponent else if phase = 1 then .reduce else .distribute

/-- Whether the ports in use of a mask lead to different packages (R522). A tree's child ports lead to one child each. -/
def mixedPeers (s : State) (ps : List Nat) : Bool := decide (1 < ((ps.map (fun n => (s.port n).peerId)).eraseDups).length)

/-- Enter the round that an operation stands at: the ports are chosen anew at the start of a phase, its own work is
done, its slots are sent and those it awaits are listed (R520, R522, R524). -/
def enterRound (c : Nat) (r : CRound) (s : State) : State :=
  let u := s.cunit c
  match u.cur with
  | none => s
  | some o =>
    let fresh := o.stage != some r.stage
    let up := (maskPorts o.desc).foldl (fun (m : BitVec 8) n => putBit m n ((s.port n).state == .up)) 0
    let o := if fresh then { o with stage := some r.stage, live := up } else o
    let o := match r.act with
      | .none => o
      | .quantise => quantise o
      | .round => roundBlocks o r.fin
    let s := setRun c (phaseRun r.phase) (s.setCunit c { u with cur := some o })
    let needOut := !r.send.isEmpty
    let needIn := !r.recv.isEmpty
    if (needOut && (outPorts o r.out).isEmpty) || (needIn && (outPorts o r.inn).isEmpty) then abortOp c s
    else if fresh && cAlg o.desc != 2 && (mixedPeers s (outPorts o r.out) || mixedPeers s (outPorts o r.inn)) then
      raise 13 8 c (abortOp c s)
    else
      let first := slotsBefore o.desc o.round r false
      let ps := innPorts s o r.inn
      let n := slotsIn (roundLen o.desc r.layer r.recv)
      let s := modOp c (fun o => { o with plan := (List.range n).map (fun k => (k, portAt ps (first + k))), got := [] }) s
      sendRound c r s

/-- Slots that a unit awaits on a port and that stand next in order there are consumed (R502, R524). The fuel is their
number. -/
def takePortN : Nat → Nat → CRound → Nat → State → State
  | 0, _, _, _, s => s
  | k + 1, c, r, n, s =>
    let u := s.cunit c
    match u.cur with
    | none => s
    | some o =>
      let seq := Tab.get 0 o.rxSeq n
      let q := s.port n
      let mine := fun (sl : Slot) => slotPart sl.hdr == o.part && slotUnit sl.hdr == c && slotStep sl.hdr == o.step.toNat % 65536 &&
        slotSeq sl.hdr == seq % 2 ^ 32
      match o.plan.find? (fun p => p.2 == n), q.rx.find? mine with
      | some p, some sl =>
        let s := sendCredit n o.part 1 (s.setPort n { q with rx := q.rx.erase sl })
        if slotPhase sl.hdr != r.phase || (match r.peer with | some x => slotRank sl.hdr != x | none => false) then
          raise 13 7 c (abortOp c s)
        else
          let e := checkEcc 13 6 true .clean s
          let ue := e.1 == .uncorrectable
          let s := if ue then raise 13 6 c e.2 else e.2
          let ps := slotPoison sl.hdr
          let s := if ps = 0 then s else raise 13 4 c s
          let bs := sl.payload.take (slotLen sl.hdr)
          let s := modOp c (fun o => { o with plan := o.plan.erase p, got := o.got ++ [(p.1, bs, if ue then ps ||| 1 else ps, n)],
                                              rxSeq := Tab.set 0 o.rxSeq n (seq + 1) }) s
          takePortN k c r n s
      | _, _ => s

/-- Consume what has arrived for the running round. -/
def takeSlots (c : Nat) (r : CRound) (s : State) : State :=
  (List.range 8).foldl (fun s n => takePortN ((s.port n).rx.length) c r n s) s

/-- Every slot of the round is here: its data is taken, and finished ranges go to DST. -/
def finishRound (c : Nat) (r : CRound) (s : State) : State :=
  match (s.cunit c).cur with
  | none => s
  | some o =>
    let n := slotsIn (roundLen o.desc r.layer r.recv)
    let piece := fun (k : Nat) => (o.got.find? (fun g => g.1 == k)).getD (k, [], 0, 0)
    let bs := (List.range n).flatMap (fun k => let g := piece k; (g.2.1 ++ List.replicate (4096 - g.2.1.length) 0#8).take 4096)
    let isBad := fun (k : Nat) => (piece (k / 4096)).2.2.1.testBit (k % 4096 / 64)
    let o := if r.recv.isEmpty then o else takeRound o r bs isBad
    let past := r.layer == .grid && o.adds.any (fun e => decide (2 ^ 20 < e.2))
    let s := modOp c (fun _ => { o with got := [] }) s
    if past then raise 13 5 c (abortOp c s)
    else modOp c (fun o => { o with round := o.round + 1 }) (writeFin c r o s)

/-- A unit goes through its rounds as far as slots permit. The fuel is the number of rounds that are left. -/
def runOpN : Nat → Nat → State → State
  | 0, c, s => endOp c s
  | k + 1, c, s =>
    match (s.cunit c).cur with
    | none => s
    | some o =>
      match (rounds o.desc)[o.round]? with
      | none => endOp c s
      | some r =>
        let s := takeSlots c r s
        let u := s.cunit c
        match u.cur with
        | none => s
        | some o =>
          if u.run == .ending then s
          else if !o.plan.isEmpty then s
          else
            let s := finishRound c r s
            let u := s.cunit c
            match u.cur with
            | none => s
            | some o =>
              if u.run == .ending then s
              else match (rounds o.desc)[o.round]? with
                | none => endOp c s
                | some r2 =>
                  let s := enterRound c r2 s
                  if (s.cunit c).run == .ending then s else runOpN k c s

/-- Whether a unit's operation has its addends or data and goes through its rounds. -/
def Col.atWork (u : Col) : Bool :=
  (u.run == .exponent || u.run == .reduce || u.run == .distribute) && (match u.cur with | some o => o.src.isEmpty | none => false)

/-- Let a unit that waits for slots go on. [DESIGN CHOICE, log entry 80] -/
def pumpCol (c : Nat) (s : State) : State :=
  let u := s.cunit c
  match u.cur with
  | some o => if u.atWork then runOpN ((rounds o.desc).length - o.round) c s else s
  | none => s

/-! ### The start (R247, R515, R517, R520) -/

/-- Source elements an operation reads here, and the element of its buffer that the first of them is. -/
def srcCount (d : BitVec 512) : Nat :=
  match cOp d with
  | 3 => cMembers d * cCount d
  | 4 => if isOrigin d then cCount d else 0
  | _ => cCount d
def srcFirst (d : BitVec 512) : Nat :=
  match cOp d with
  | 2 => cRank d * cCount d
  | 3 => cRank d * cMembers d * cCount d
  | _ => 0

/-- Read the source buffer of a unit's operation, line by line. A read whose translation fails ends the operation DENIED; its data
is open and poisoned (R282, R525). -/
def readSource (c : Nat) (o : COp) (s : State) : List CRead × Bool × State :=
  let d := o.desc
  let n := (srcCount d * (fmtOf (cSrcFmt d)).width + 7) / 8
  (pieces (cSrc d) n).foldl (fun (a : List CRead × Bool × State) p =>
    let i := collRequest c (.col c) o false p.1 p.2 [] false a.2.2
    match i.1 with
    | some t => (a.1 ++ [{ at_ := p.1 - cSrc d, len := p.2, tag := some t, data := none, bad := false }], a.2.1, i.2)
    | none =>
      let f := freeBytes p.2 i.2
      (a.1 ++ [{ at_ := p.1 - cSrc d, len := p.2, tag := none, data := some f.1, bad := true }], true, f.2)) ([], false, s)

/-- The draw of a converted element (R140, R220, R223). [DEDUCED, log entry 38] -/
def convDraw (s : State) (c : Nat) (o : COp) (base i : Nat) : Nat :=
  let d := o.desc
  if cRnd d != 2 then 0
  else
    let n := perLine (cDstFmt d)
    let k := i % n
    (drawBlock ((s.part o.part).starter.getD { seed := 0, stream := 0 }) (cCtx d) o.step.toNat (base + i / n) (k % 32) c 2).getD (k / 32) 0

/-- The exponent array of a grid sum, as the unit writes it to SCRATCH: 16 B for each block (R512, R520). -/
def writeExps (c : Nat) (s : State) : State :=
  match (s.cunit c).cur with
  | none => s
  | some o =>
    let d := o.desc
    let bs := (List.range ((cCount d + 31) / 32)).flatMap (fun b => leBytes 16 (Tab.get 0 o.exps b))
    (pieces (cScratch d) bs.length).foldl (fun s p =>
      collWrite c (.col c) p.1 ((bs.drop (p.1 - cScratch d)).take p.2) false none s) s

/-- The addends or data of an operation are all here: its elements are converted, its exponent words formed, and it goes through its
rounds. [DEDUCED, log entry 56] -/
def loadOp (c : Nat) (s : State) : State :=
  let u := s.cunit c
  match u.cur with
  | none => s
  | some o =>
    let d := o.desc
    let w := (fmtOf (cSrcFmt d)).width
    let n := srcCount d
    let xs := elemsOf w n (o.src.flatMap (fun r => r.data.getD []))
    let struck := o.src.filter (·.bad)
    let isBad := fun (i : Nat) => struck.any (fun r => decide (r.at_ * 8 < i * w + w) && decide (i * w < (r.at_ + r.len) * 8))
    let reduces := decide (cOp d ≤ 1)
    let base := u.draw
    let conv := fun (p : Nat × Nat) =>
      if reduces then convertElem (cSrcFmt d) (cDstFmt d) (rndOf (cRnd d)) (cFtz d) (cSat d) (convDraw s c o base p.2) p.1 else p.1
    let ix := List.range n
    let o2 : COp :=
      if cGrid d then
        { o with own := (xs.zip ix).foldl (fun t p => Tab.set 0 t p.2 p.1) [],
                 ownBad := ix.foldl (fun t i => Tab.set false t i (isBad i)) [],
                 laneBad := ix.foldl (fun t i => Tab.set false t i (isBad i)) [],
                 exps := (List.range ((n + 31) / 32)).foldl (fun t b =>
                   Tab.set 0 t b ((((xs.drop (32 * b)).take 32).map (expWord (cSrcFmt d) (cFtz d))).foldl expJoin 0x800)) [] }
      else
        { o with work := (xs.zip ix).foldl (fun t p => Tab.set 0 t (srcFirst d + p.2) (conv p)) [],
                 bad := ix.foldl (fun t i => Tab.set false t (srcFirst d + i) (isBad i)) [] }
    let lines := if reduces && !cGrid d && cRnd d == 2 then (n + perLine (cDstFmt d) - 1) / perLine (cDstFmt d) else 0
    let s := s.setCunit c { u with draw := u.draw + lines, cur := some { o2 with src := [], round := 0, stage := none } }
    let s := if cGrid d then writeExps c s else s
    match (rounds d)[0]? with
    | none => endOp c s
    | some r =>
      let s := enterRound c r s
      if (s.cunit c).run == .ending then s else runOpN (rounds d).length c s

/-- Once every read of the source buffer has returned, the operation goes on. -/
def loadIfReady (c : Nat) (s : State) : State :=
  match (s.cunit c).cur with
  | none => s
  | some o => if o.src.any (fun r => r.data.isNone) then s else loadOp c s

/-- An operation starts: it reads its addends or data in the run state of its first phase. [DEDUCED, log entry 56] -/
def startOp (c : Nat) (s : State) : State :=
  match (s.cunit c).cur with
  | none => s
  | some o =>
    let z := readSource c o s
    let s := modOp c (fun o => { o with src := z.1, denied := z.2.1 }) z.2.2
    loadIfReady c (setRun c (phaseRun (((rounds o.desc)[0]?.map (·.phase)).getD 2)) s)

/-! ### Responses (R523, R526, R527) -/

/-- A read of the source buffer returns (R525, R537). -/
def collRead (c tag : Nat) (bs : List Byte) (poison refused : Bool) (s : State) : State :=
  match (s.cunit c).cur with
  | none => s
  | some o =>
    if !(o.src.any (fun r => r.tag == some tag && r.data.isNone)) then s
    else
      let e := checkEcc 13 6 true .clean s
      let ue := e.1 == .uncorrectable
      let s := if ue then raise 13 6 c e.2 else e.2
      let s := if poison then raise 13 4 c s else s
      let got := fun (r : CRead) => if r.tag == some tag && r.data.isNone then { r with data := some bs, bad := poison || ue } else r
      loadIfReady c (modOp c (fun o => { o with denied := o.denied || refused, src := o.src.map got }) s)

/-- A write of an operation is acknowledged, and its line counts; or it is refused, and its segment has failed, or with the exponent
array the operation ends DENIED (R313, R523, R525). -/
def collWrote (c tag : Nat) (refused : Bool) (s : State) : State :=
  let u := s.cunit c
  match u.cur with
  | none => s
  | some o =>
    match o.writes.find? (fun w => w.tag == tag) with
    | none => s
    | some w =>
      let o := { o with writes := o.writes.filter (fun w => w.tag != tag) }
      let o2 := match w.seg with
        | none => { o with denied := o.denied || refused }
        | some (k, ln) =>
          if refused then { o with failed := addSeg k o.failed }
          else if o.lines.contains ln then o else { o with lines := o.lines ++ [ln] }
      s.setCunit c { u with cur := some o2, lines := BitVec.ofNat 32 o2.lines.length }

/-! ### Time spent waiting (R535) -/

/-- Whether a unit waits for slots, or has slots that wait for a credit. -/
def collWaits (s : State) (c : Nat) : Bool :=
  match (s.cunit c).cur with
  | none => false
  | some o => (s.cunit c).atWork && (!o.plan.isEmpty || (maskPorts o.desc).any (fun n =>
      let q := s.port n
      q.txq.any (fun sl => slotPart sl.hdr == o.part && slotUnit sl.hdr == c && Tab.get 0 q.credits o.part == 0)))

/-- A tick passes: `COL_STALL` counts at every unit that waits. -/
def stallTick (s : State) : State :=
  (Tab.keysWhere s.cols (fun u => u.cur.isSome)).foldl (fun s c =>
    if collWaits s c then s.setCunit c { s.cunit c with stall := satInc (s.cunit c).stall } else s) s

/-! ### A port is lost while an operation uses it (R530) -/

/-- A list of things dealt in turn over ports. -/
def deal {α : Type} (ps : List Nat) (xs : List α) : List (Nat × α) :=
  (xs.zip (List.range xs.length)).map (fun p => (portAt ps p.2, p.1))

/-- The operation of a unit goes on without a port: slots of its own that the peer has not consumed are sent again
over the other ports of the mask, and the slots still awaited are expected there; none left of a needed mask ends it
ABORTED. `lost` is what stood unacknowledged at the port. [DEDUCED, log entry 55] -/
def rerouteOp (c n : Nat) (lost : List Slot) (s : State) : State :=
  let u := s.cunit c
  match u.cur with
  | none => s
  | some o =>
    if !u.atWork || !(cMasks o.desc).testBit n then s
    else
      let o := { o with live := putBit o.live n false }
      let s := s.setCunit c { u with cur := some o }
      let left := (rounds o.desc).drop o.round
      let used := left.filter (fun r => (!r.send.isEmpty && r.out.testBit n) || (!r.recv.isEmpty && r.inn.testBit n))
      let mine := lost.filter (fun sl => slotPart sl.hdr == o.part && slotUnit sl.hdr == c && slotStep sl.hdr == o.step.toNat % 65536)
      let mask := ((List.range 4).map (cMask o.desc)).find? (fun m => m.testBit n)
      let ports := outPorts o (mask.getD 0)
      let bare := used.any (fun r => (r.out.testBit n && !r.send.isEmpty && (outPorts o r.out).isEmpty) ||
                                     (r.inn.testBit n && !r.recv.isEmpty && (outPorts o r.inn).isEmpty))
      if bare || (!mine.isEmpty && ports.isEmpty) then abortOp c s
      else
        let s := (deal ports mine).foldl (fun s p =>
          queueSlot c p.1 (slotPhase p.2.hdr) (p.2.payload.take (slotLen p.2.hdr)) (slotPoison p.2.hdr) s) s
        let ins := innPorts s o (mask.getD 0)
        let moved := o.plan.filter (fun p => p.2 == n)
        let s := modOp c (fun o => { o with plan := o.plan.filter (fun p => p.2 != n) ++ (deal ins moved).map (fun p => (p.2.1, p.1)) }) s
        pumpCol c s

/-- A port fails while in use: it is fenced at once, its partitions arrive with FENCE, and operations go on over the
other ports of their masks (R495, R530). [DEDUCED, log entry 55] -/
def failPort (n : Nat) (peer : Bool) (s : State) : State :=
  let q := s.port n
  let us := portUsers s n
  let sent := fun (p : Nat) =>
    let out := Tab.get 0 (fullCredits s n) p - Tab.get 0 q.credits p
    ((q.replay.filter (fun sl => slotPart sl.hdr == p)).take out).reverse
  let lost := us.flatMap (fun p => sent p ++ q.txq.filter (fun sl => slotPart sl.hdr == p))
  let s := s.setPort n { q with txq := [], resend := [], rx := [], replay := [], credits := [], owed := [] }
  let s := markFence us (fencePort n peer s)
  let s := raise 14 (if peer then 4 else 1) n s
  (List.range 8).foldl (fun s c => rerouteOp c n lost s) (refreshMirrors s)

end Sys2Proof.Machine
end

