-- ==== Sys2Proof/Machine/Xfe.lean ====
section
/-! DEFINITION. The commands of the transfer engines and of the host window: a descriptor's arrival, start and end,
abort, fences, window commits, ATS invalidations and the enables of ATS and PRI (R263 to R323). -/
namespace Sys2Proof.Machine
open Sys2Proof

/-! ### Arrival, start and end (R295 to R306) -/

/-- XFE_DESC_ARRIVE: the oldest descriptor passed to an idle engine moves it to WAIT; at a FENCED engine it ends ABORTED
with no access and no completion record (R301). [DEDUCED, log entry 42] -/
def xfeDescArrive (e : Nat) (s : State) : State :=
  let x := s.xfe e
  match x.queue with
  | [] => s
  | d :: rest =>
    match x.run with
    | .fenced => endUnrun e d .aborted false (s.setXfe e { x with queue := rest })
    | .idle => nextDesc e s
    | _ => s
def execXfeDescArrive (e : Fin 64) (s : State) : Host.Outcome State Fault Refusal := .next (xfeDescArrive e.val s)

/-- Whether the progress that a descriptor waits for has been reached (R296). -/
def waitMet (s : State) (d : XDesc) : Bool :=
  !d.waitValid || decide (d.waitThr ≤ (s.xfe d.waitEngine).progress.toNat)

/-- Every descriptor that engines run or hold. -/
def allDescs (s : State) : List XDesc :=
  s.xfes.flatMap (fun e => (match e.2.cur with | some c => [c.desc] | none => []) ++ e.2.queue)

/-- Whether every sealed descriptor of the same VI and direction that was delivered before has ended (R604). -/
def sealTurn (s : State) (d : XDesc) : Bool :=
  !d.sealed || (allDescs s).all (fun f => !(f.sealed && f.ctx == d.ctx && f.dstHost == d.dstHost && decide (f.seq < d.seq)))

/-- XFE_WAIT_SATISFIED: the descriptor ends EMPTY, ends with no access, or runs (R301, R305, R317, R574, R589). -/
def xfeWaitSatisfied (e : Nat) (s : State) : State :=
  let x := s.xfe e
  match x.cur with
  | none => s
  | some c =>
    let d := c.desc
    if x.run != .wait || !waitMet s d || !sealTurn s d then s
    else if d.counts.any (· == 0) then finishDesc e c .empty s
    else
      let k := checkEcc 12 7 true .clean s
      let s := k.2
      let opened := (s.sealOf d.ctx).state == .open_
      if k.1 == .uncorrectable then endAtElem e 0 .aborted (raise 12 7 e s)
      else if d.hostSide && s.host.dmaStopped then
        let s := endAtElem e 0 .aborted s
        (match x.owner with
         | some p => markFlag p 1 s
         | none => s)
      else if d.sealed != opened && d.hostSide then endAtElem e 0 .denied s
      else
        let x := s.xfe e
        pumpXfe e none (traceAt e x.owner (s.setXfe e { x with run := .run, cur := some { c with drawBase := x.draw } }))
def execXfeWaitSatisfied (e : Fin 64) (s : State) : Host.Outcome State Fault Refusal := .next (xfeWaitSatisfied e.val s)

/-- Write a completion record under the descriptor's context (R304): none means that a host translation or tokens at the port have
to come first. A record that finds no way is lost. [DEDUCED, log entry 40] -/
def writeComp (e : Nat) (c : XCur) (st : Status) (s : State) : Option State :=
  let d := c.desc
  if !d.compValid || st == .empty then some s
  else
    let step := match (s.xfe e).owner with
      | some p => (s.part p).step.toNat
      | none => 0
    let bs := compRecord e step c st
    if d.comp < 2 ^ 47 then some (dvaWrite e d.ctx d.comp bs false s).2
    else if s.host.dmaStopped then some s
    else match xPlan s e d.ctx true [(d.comp, 64)] with
      | .go ps => if d.regulated && (hostWriteNow e ((s.xfe e).owner.getD 0) false 64 s).isNone then none else some (ps.foldl (fun s p => match p.2.2 with
          | .host .. => (xPost e d p bs false s).2
          | .dev _ => s) s)
      | .deny b _ => some (raise 11 b 0 s)
      | .ask .. => if c.compLost then some s else none

/-- XFE_COMPLETE: every outstanding request of an ending descriptor is complete; the record is written and the next
descriptor waits. -/
def xfeComplete (e : Nat) (s : State) : State :=
  let x := s.xfe e
  match x.cur with
  | none => s
  | some c =>
    if x.run != .ending || !c.units.isEmpty || !c.drain.isEmpty then s
    else
      let st := c.endAs.getD .aborted
      match writeComp e c st s with
      | some s => finishDesc e c st s
      | none =>
        (match xPlan s e c.desc.ctx true [(c.desc.comp, 64)] with
         | .ask _ iova => askAts e c.desc.ctx iova s
         | _ => s)
def execXfeComplete (e : Fin 64) (s : State) : Host.Outcome State Fault Refusal := .next (refresh (xfeComplete e.val s))

/-- XFE_ABORT: the current descriptor ends ABORTED before its first unwritten element (R301, R317). -/
def xfeAbort (e : Nat) (s : State) : State := if (s.xfe e).run == .ending then s else endEarly e .aborted s
def execXfeAbort (e : Fin 64) (s : State) : Host.Outcome State Fault Refusal := .next (xfeAbort e.val s)

/-- XFE_FENCE: at the owning partition's next proof (R318). -/
def execXfeFence (e : Fin 64) (s : State) : Host.Outcome State Fault Refusal := .next (requestXfeFence e.val s)

/-- XFE_READMIT: refused unless the engine is FENCED (R318). -/
def xfeReadmit (e : Nat) (s : State) : State :=
  if (s.xfe e).run == .fenced then requestXfeReadmit e s else refuseWrite 12 s e
def execXfeReadmit (e : Fin 64) (s : State) : Host.Outcome State Fault Refusal := .next (xfeReadmit e.val s)

/-! ### The host window table (R266 to R269, R312) -/

/-- The staged entry: the words of XLT_HWT_W0 to XLT_HWT_W7. -/
def hwtStaged (s : State) : BitVec 256 :=
  BitVec.ofNat 256 (leNat ((List.range 8).flatMap (fun i => leBytes 4 (s.reg (0xB0104 + 4 * i) 0).toNat)))

/-- Index and fields of an entry. -/
def hwtIndex (s : State) : Nat := bits (s.reg 0xB0100 0).toNat 0 12
def hwtBase (e : BitVec 256) : Nat := rfld e 0 0 48
def hwtCtx (e : BitVec 256) : Nat := rfld e 0 48 10
def hwtValid (e : BitVec 256) : Bool := rbit e 0 63
def hwtBytes (e : BitVec 256) : Nat := rfld e 0x10 0 26 * 0x200000
def hwtIova (e : BitVec 256) : Nat := rfld e 8 0 64

/-- Whether two entries' windows overlap: an empty window holds no address (R41, R266). -/
def hwtOverlap (a b : BitVec 256) : Bool :=
  decide (hwtBytes a ≠ 0) && decide (hwtBytes b ≠ 0) && decide (hwtBase a < hwtBase b + hwtBytes b) && decide (hwtBase b < hwtBase a + hwtBytes a)

/-- Whether a commit is refused (R39, R266, R268, R312): DVA_BASE lies in the host window, 2 MiB aligned.
[DESIGN CHOICE, log entry 41] -/
def hwtRefused (who : Owner2) (s : State) : Bool :=
  let e := hwtStaged s
  let i := hwtIndex s
  let cur := Tab.get 0 s.xlt.hwt i
  s.xlt.pend.isSome ||
  (hwtValid e && (hwtBase e % 0x200000 != 0 || decide (hwtBase e < 2 ^ 47) || decide (2 ^ 48 < hwtBase e + hwtBytes e) || hwtIova e % 4096 != 0 ||
    decide (2 ^ 64 < hwtIova e + hwtBytes e) ||
    s.xlt.hwt.any (fun q => q.1 != i && hwtValid q.2 && hwtCtx q.2 == hwtCtx e && hwtOverlap q.2 e))) ||
  (who == .host && ((hwtValid e && hwtCtx e == 0) || (hwtValid cur && hwtCtx cur == 0)))

/-- Host reads outstanding through an entry. -/
def hwtUsers (s : State) (i : Nat) : List Nat := (s.noc.reqs.filter (fun r => r.hwt == some i)).map (·.tag)

/-- Set an entry of the table. -/
def hwtSet (i : Nat) (e : BitVec 256) (s : State) : State := { s with xlt := { s.xlt with hwt := Tab.set 0 s.xlt.hwt i e } }

/-- HWT_COMMIT: the checked entry is written at once, or pends while requests through the old one are outstanding. -/
def hwtCommit (who : Owner2) (s : State) : State :=
  if hwtRefused who s then refuseWrite 11 s
  else
    let i := hwtIndex s
    let us := hwtUsers s i
    if us.isEmpty then hwtSet i (hwtStaged s) s
    else { s with xlt := { s.xlt with pend := some { index := i, entry := hwtStaged s, waits := us } } }
def execHwtCommit (who : Owner2) (s : State) : Host.Outcome State Fault Refusal := .next (hwtCommit who s)

/-- HWT_COMMIT_DRAINED: every request through the old entry has completed (R312). -/
def hwtCommitDrained (s : State) : State :=
  match s.xlt.pend with
  | none => s
  | some p =>
    if s.noc.reqs.any (fun r => p.waits.contains r.tag) then s
    else hwtSet p.index p.entry { s with xlt := { s.xlt with pend := none } }
def execHwtCommitDrained (s : State) : Host.Outcome State Fault Refusal := .next (hwtCommitDrained s)

/-! ### ATS and PRI (R275 to R277, R309 to R311, R317) -/

/-- Whether a range of IOVAs overlaps another. -/
def overlaps (a n b m : Nat) : Bool := decide (a < b + m) && decide (b < a + n)

/-- An engine abandons its reads through an invalidated range and rewinds to the first abandoned element (R309): in FAULT_WAIT
the cursor that it shows moves too, and an engine that is ending ends there. -/
def abandonReads (e : Nat) (tags : List Nat) (s : State) : State :=
  let x := s.xfe e
  match x.cur with
  | none => s
  | some c =>
    let hit := fun (u : XUnit) => u.openReads.any (tags.contains ·)
    let first := (c.units.find? hit).map (·.start)
    let k := if c.fetch.any (fun r => r.2.isNone && tags.contains r.1) then some (first.getD c.next) else first
    let c2 := match k with
      | some k => if x.run == XRun.ending then cutAt k c else { cutAt k c with cut := c.cut }
      | none => c
    s.setXfe e { x with cursor := match k with | some k => if x.run == XRun.faultWait then c.desc.index k else x.cursor | none => x.cursor,
                        cur := some { c2 with drain := c2.drain.filter (fun t => !tags.contains t) } }

/-- ATS_INVALIDATE: no new use of the translations, abandoned reads, and what the completion still waits for. -/
def atsInvalidate (itag iova size : Nat) (s : State) : State :=
  let hit := s.noc.reqs.filter (fun r => r.host && !r.dead && s.xlt.atsEn && overlaps r.iova r.len iova size)
  let mine := fun (r : Req) => match r.use with | .xread .. => true | _ => false
  let s := { s with noc := { s.noc with reqs := s.noc.reqs.filter (fun r => !(r.held && mine r && hit.contains r)) } }
  let tags := (hit.filter mine).map (·.tag)
  let v : Inval := { itag := itag, iova := iova, size := size, since := s.clk.now,
                     waits := (hit.filter (fun r => !mine r)).map (·.tag) }
  let s := xlDrop (fun a => a.host && overlaps a.base a.size iova size) { s with xlt := { s.xlt with invals := s.xlt.invals ++ [v] } }
  let s := { s with noc := { s.noc with reqs := s.noc.reqs.map (fun (r : Req) => if tags.contains r.tag then { r with dead := true } else r) } }
  let s := (Tab.keysWhere s.xfes (fun x => x.cur.isSome)).foldl (fun s e => abandonReads e tags s) s
  pumpAll s
def execAtsInvalidate (itag : Fin 32) (iova : BitVec 64) (size : Nat) (s : State) : Host.Outcome State Fault Refusal :=
  .next (atsInvalidate itag.val iova.toNat size s)

/-- INVALIDATE_COMPLETION: every other transaction through the translations has completed (R309 to R311). -/
def invalidateCompletion (itag : Nat) (s : State) : State :=
  match s.xlt.invals.find? (fun v => v.itag == itag) with
  | none => s
  | some v =>
    if s.noc.reqs.any (fun r => v.waits.contains r.tag) then s
    else
      let t := s.clk.now.toNat - v.since.toNat
      let x : Xlt := { s.xlt with invals := s.xlt.invals.erase v, invCount := satInc s.xlt.invCount,
                                  invMax := if s.xlt.invMax.toNat < t then satAdd 0#32 t else s.xlt.invMax }
      { s with xlt := x }.emit (.invDone (hubTlp .untranslated) itag)
def execInvalidateCompletion (itag : Fin 32) (s : State) : Host.Outcome State Fault Refusal := .next (invalidateCompletion itag.val s)

/-- ATS_ENABLE: the mirror of ATS Enable chooses translated or untranslated host requests (R275, R277). -/
def atsEnable (on : Bool) (s : State) : State :=
  let t := { s with xlt := { s.xlt with atsEn := on, atsWait := if on then s.xlt.atsWait else [] } }
  pumpAll (if on then t else xlDrop (·.host) t)
def execAtsEnable (on : Bool) (s : State) : Host.Outcome State Fault Refusal := .next (atsEnable on s)

/-- PRI_ENABLE: the host enables or resets PRI with its allocation; PRI_STOPPED clears (R317, R321). -/
def priEnable (on : Bool) (alloc : BitVec 16) (s : State) : State :=
  sendPageReqs { s with xlt := { s.xlt with priEn := on, priStopped := false, priAlloc := alloc } }
def execPriEnable (on : Bool) (alloc : BitVec 16) (s : State) : Host.Outcome State Fault Refusal := .next (priEnable on alloc s)

end Sys2Proof.Machine
end

