-- ==== Sys2Proof/Machine/Col.lean ====
section
/-! DEFINITION. The commands of the collective units: the start of an operation whose wait is met, its end, abort, fences
(R511 to R531, R535). -/
namespace Sys2Proof.Machine
open Sys2Proof

/-- The next queued operation waits, or the unit is idle. A fence that waited only for the unit to end applies where no
partition runs. -/
def nextOp (c : Nat) (s : State) : State :=
  let u := s.cunit c
  match u.queue with
  | o :: rest => setRun c .wait (s.setCunit c { u with cur := some o, queue := rest, lines := 0 })
  | [] =>
    let s := setRun c .idle (s.setCunit c { u with cur := none })
    if u.fencePend && !ownerActive s u.owner then fenceCunit c s else s

/-- The completion record of a collective operation (R526). -/
def collRecord (c : Nat) (o : COp) (st : Status) : List Byte :=
  let first := o.failed.headD 0
  let map := o.failed.foldl (fun (m : Nat) k => if k - first < 192 then m ||| 2 ^ (k - first) else m) 0
  leBytes 4 (st.code + o.flags * 256 + c * 65536) ++ leBytes 4 o.lines.length ++ leBytes 8 o.step.toNat ++
  leBytes 12 0 ++ leBytes 4 o.failed.length ++ leBytes 4 (if o.failed.isEmpty then 0xFFFFFFFF else first) ++ leBytes 4 0 ++
  leBytes 24 map

/-- An operation is over: `COL_LAST`, the faults, the taint of its status and of a failed segment (R315, R525, R528, R535). -/
def finishOp (c : Nat) (o : COp) (st : Status) (s : State) : State :=
  let u := s.cunit c
  let s := s.setCunit c { u with lastStat := st, lastFlags := BitVec.ofNat 8 o.flags, lastDesc := BitVec.ofNat 16 o.index,
                                 failedN := BitVec.ofNat 32 o.failed.length }
  let s := if st == .aborted then raise 13 2 c s else s
  let s := if o.failed.isEmpty then s else markFlag o.part 1 (raise 13 3 c s)
  let s := match st with
    | .aborted => markFlag o.part 1 s
    | .denied => markFlag o.part 1 s
    | .partialDone => markFlag o.part 1 s
    | .poisoned => markFlag o.part 2 s
    | _ => s
  nextOp c s

/-- Whether the progress that an operation waits for has been reached (R296). -/
def collWaitMet (s : State) (d : BitVec 512) : Bool :=
  !cWaitValid d || decide (cWaitThr d ≤ (s.xfe (cWaitEngine d)).progress.toNat)

/-- COL_WAIT_SATISFIED: an operation of no element ends EMPTY with no record; any other starts (R296, R520, R526). -/
def colWaitSatisfied (c : Nat) (s : State) : State :=
  let u := s.cunit c
  match u.cur with
  | none => s
  | some o =>
    if u.run != .wait || !collWaitMet s o.desc then s
    else if cCount o.desc = 0 then finishOp c o .empty s
    else startOp c s
def execColWaitSatisfied (c : Fin 8) (s : State) : Host.Outcome State Fault Refusal := .next (refresh (colWaitSatisfied c.val s))

/-- COL_OP_COMPLETE: once the last write is acknowledged, the record is written and the next operation waits (R525, R526). -/
def colOpComplete (c : Nat) (s : State) : State :=
  let u := s.cunit c
  match u.cur with
  | none => s
  | some o =>
    if u.run != .ending || !o.writes.isEmpty then s
    else
      let st := o.finalStatus
      finishOp c o st (if cCompValid o.desc then (dvaWrite (64 + c) (cCtx o.desc) (cComp o.desc) (collRecord c o st) false s).2 else s)
def execColOpComplete (c : Fin 8) (s : State) : Host.Outcome State Fault Refusal := .next (refresh (colOpComplete c.val s))

/-- COL_ABORT (R529, R535). -/
def execColAbort (c : Fin 8) (s : State) : Host.Outcome State Fault Refusal := .next (abortOp c.val s)

/-- COL_FENCE: at the owning partition's next proof (R535). -/
def execColFence (c : Fin 8) (s : State) : Host.Outcome State Fault Refusal := .next (requestCunitFence c.val s)

/-- COL_READMIT: refused unless the unit is FENCED (R535). -/
def colReadmit (c : Nat) (s : State) : State :=
  if (s.cunit c).run == .fenced then requestCunitReadmit c s else refuseWrite 13 s c
def execColReadmit (c : Fin 8) (s : State) : Host.Outcome State Fault Refusal := .next (colReadmit c.val s)

end Sys2Proof.Machine
end

