-- ==== Sys2Proof/Machine/Sfu.lean ====
section
/-! DEFINITION. The special functions (R238 to R240). The hub's tables are not published: the result is a free value
held to the bound of R238, checked against a fixed-point value of the exact result whose own error is below 2^−40 ulp. -/
namespace Sys2Proof.Machine
open Sys2Proof

/-- m × 2^k as a natural number, rounded down. -/
def shiftMag (m : Nat) (k : Int) : Nat := if 0 ≤ k then m * 2 ^ k.toNat else m >>> (-k).toNat

/-- ln 2 and log2 e in units of 2^−128. -/
def ln2Fix : Nat := 0xB17217F7D1CF79ABC9E3B39803F2F6AF
def log2eFix : Nat := 0x171547652B82FE1777D0FFDA0D23A7D11

/-- 2^(f / 2^128) for f below 2^128, in units of 2^−128. -/
def expFix (f : Nat) : Nat :=
  let t := (f * ln2Fix) >>> 128
  ((List.range 40).foldl (fun (a : Nat × Nat) k => let term := ((a.2 * t) >>> 128) / (k + 1); (a.1 + term, term)) (2 ^ 128, 2 ^ 128)).1

/-- 2^x of ±m × 2^e. -/
def exp2Val (neg : Bool) (m : Nat) (e : Int) : Num :=
  let v := sInt neg m
  if 0 ≤ e then .fin false 1 (v * (2 ^ e.toNat : Nat))
  else
    let d := (-e).toNat
    .fin false (expFix (shiftMag (v % (2 ^ d : Nat)).toNat (128 + e))) (v / (2 ^ d : Nat) - 128)

/-- log2 of m × 2^e by repeated squaring, 100 fraction bits. -/
def log2Val (m : Nat) (e : Int) : Num :=
  let l := Nat.log2 m
  let z := shiftMag m (200 - (l : Int))
  let r := (List.range 100).foldl (fun (a : Nat × Nat) _ =>
    let q := (a.2 * a.2) >>> 200
    if 2 ^ 201 ≤ q then (2 * a.1 + 1, q / 2) else (2 * a.1, q)) (0, z)
  let v := ((l : Int) + e) * (2 ^ 100 : Nat) + (r.1 : Int)
  .fin (decide (v < 0)) v.natAbs (-100)

/-- Integer square root, bit by bit, of a number below 2^240. -/
def isqrt (n : Nat) : Nat :=
  (List.range 120).foldl (fun r i => let c := r + 2 ^ (119 - i); if c * c ≤ n then c else r) 0

/-- 1 / sqrt of m × 2^e. -/
def rsqrtVal (m : Nat) (e : Int) : Num :=
  let p := if e % 2 = 0 then (m, e) else (2 * m, e - 1)
  .fin false (isqrt (2 ^ 200 / p.1)) (-100 - p.2 / 2)

/-- 1 / (m × 2^e). -/
def recipVal (neg : Bool) (m : Nat) (e : Int) : Num := .fin neg (2 ^ 200 / m) (-200 - e)

/-- e^|x| in units of 2^−128, for |x| = m × 2^e times a factor. -/
def expE (factor m : Nat) (e : Int) : Nat :=
  let y := shiftMag (factor * m * log2eFix) e
  expFix (y % 2 ^ 128) * 2 ^ (y / 2 ^ 128)

/-- tanh of ±m × 2^e, |x| below 10. -/
def tanhVal (neg : Bool) (m : Nat) (e : Int) : Num :=
  if log2Mag m e < -12 then
    let x2 := shiftMag (m * m) (2 * e + 128)
    .fin neg (m * (2 ^ 128 + 2 * ((x2 * x2) >>> 128) / 15 - x2 / 3)) (e - 128)
  else
    let E := expE 2 m e
    .fin neg ((E - 2 ^ 128) * 2 ^ 128 / (E + 2 ^ 128)) (-128)

/-- 1 / (1 + e^−x) of ±m × 2^e. -/
def sigmoidVal (neg : Bool) (m : Nat) (e : Int) : Num :=
  if 8 ≤ log2Mag m e then .fin false 1 (if neg then -300 else 0)
  else
    let E := expE 1 m e
    if neg then .fin false (2 ^ 700 / (E + 2 ^ 128)) (128 - 700)
    else .fin false (E * 2 ^ 128 / (E + 2 ^ 128)) (-128)

/-- Code of 2^n in binary32, n from −149 to 127. -/
def pow2Code (n : Int) : Nat := encodeNum 1 .near false false 0 (.fin false 1 n)

/-- Whether a value is ±2^n: its exponent n. -/
def powOf (m : Nat) (e : Int) : Option Int := if m = 2 ^ Nat.log2 m then some ((Nat.log2 m : Int) + e) else none

/-- Code of an exact value that binary32 represents. -/
def exactCode (x : Num) : Nat := encodeNum 1 .near false false 0 x

/-- The special results of R238, for a binary32 operand that is no NaN. -/
def sfuSpecial (fn : Nat) (x : Num) : Option Nat :=
  let pinf := 0x7F800000
  match fn, x with
  | _, .nan => some (nanCode (fmtOf 1))
  | 0, .inf neg => some (if neg then 0 else pinf)
  | 0, .fin neg m e =>
    if m = 0 then some 0x3F800000
    else if !neg && decide (7 ≤ log2Mag m e) then some pinf
    else if neg && lessNum x (.fin true 149 0) then some 0
    else if 0 ≤ e ∨ m % 2 ^ (-e).toNat = 0 then some (pow2Code (sInt neg (shiftMag m e)))
    else none
  | 1, .inf neg => some (if neg then nanCode (fmtOf 1) else pinf)
  | 1, .fin neg m e =>
    if m = 0 then some 0xFF800000
    else if neg then some (nanCode (fmtOf 1))
    else (powOf m e).map (fun n => exactCode (.fin (decide (n < 0)) n.natAbs 0))
  | 2, .inf neg => some (if neg then nanCode (fmtOf 1) else 0)
  | 2, .fin neg m e =>
    if m = 0 then some (if neg then 0xFF800000 else pinf)
    else if neg then some (nanCode (fmtOf 1))
    else match powOf m e with
      | some n => if n % 2 = 0 then some (exactCode (.fin false 1 (-(n / 2)))) else none
      | none => none
  | 3, .inf neg => some (if neg then 0x80000000 else 0)
  | 3, .fin neg m e =>
    if m = 0 then some (if neg then 0xFF800000 else pinf)
    else (powOf m e).map (fun n => exactCode (.fin neg 1 (-n)))
  | 4, .inf neg => some (if neg then 0xBF800000 else 0x3F800000)
  | 4, .fin neg m e =>
    if m = 0 then some (if neg then 0x80000000 else 0)
    else if lessNum (.fin false m e) (.fin false 10 0) then none else some (if neg then 0xBF800000 else 0x3F800000)
  | 5, .inf neg => some (if neg then 0 else 0x3F800000)
  | 5, .fin neg m e =>
    if m = 0 then some 0x3F000000
    else if !neg && !lessNum (.fin false m e) (.fin false 18 0) then some 0x3F800000 else none
  | _, _ => some (nanCode (fmtOf 1))

/-- The exact result of a function, in fixed point. -/
def sfuExact (fn : Nat) (neg : Bool) (m : Nat) (e : Int) : Num :=
  match fn with
  | 0 => exp2Val neg m e
  | 1 => log2Val m e
  | 2 => rsqrtVal m e
  | 3 => recipVal neg m e
  | 4 => tanhVal neg m e
  | _ => sigmoidVal neg m e

/-- Whether |y − a| is at most k × 2^q, with the slack of 2^(q − 40) that the fixed-point value needs. -/
def nearBy (y a : Num) (k : Nat) (q : Int) : Bool :=
  match addNum y (negNum a) with
  | .fin _ m e => !lessNum (.fin false (k * 2 ^ 40 + 1) (q - 40)) (.fin false m e)
  | _ => false

/-- The bound of R238 on a binary32 code. [DESIGN CHOICE, log entry 36] -/
def sfuWithin (fn code : Nat) (a : Num) : Bool :=
  match a, decodeNum 1 false code with
  | .fin _ m e, .fin s n f =>
    let lg := if m = 0 then (-126 : Int) else log2Mag m e
    let k := if fn = 0 ∨ fn = 2 ∨ fn = 3 then 1 else 2
    nearBy (.fin s n f) a k (max lg (-126) - 23) ||
      (fn == 1 && decide (lg < 0) && nearBy (.fin s n f) a 1 (-22))
  | _, _ => false

/-- A function of a binary32 operand: its special result, or the hub's own result where that lies within the bound,
else the nearest value. [DESIGN CHOICE, log entry 36] -/
def sfu32 (fn : Nat) (x : Num) : Nat :=
  match sfuSpecial fn x, x with
  | some c, _ => c
  | none, .fin neg m e =>
    let a := sfuExact fn neg m e
    let c := Config.sfu fn 1 (exactCode x) % 2 ^ 32
    if sfuWithin fn c a then c else exactCode a
  | none, _ => nanCode (fmtOf 1)

/-- Whether a code of binary16 or BF16 lies within 1 ulp of that format of an exact result (R240). -/
def narrowWithin (fmt code : Nat) (a : Num) : Bool :=
  let emin : Int := if fmt = 2 then -14 else -126
  let frac : Int := if fmt = 2 then 10 else 7
  match a, decodeNum fmt false code with
  | .fin _ m e, .fin s n f => nearBy (.fin s n f) a 1 (max (if m = 0 then emin else log2Mag m e) emin - frac)
  | _, _ => false

/-- One lane of SFU in a format: widened, computed, rounded to the format (R239, R240), under FTZ (R225). Where the rounding of
the hub's own binary32 result would leave the bound of R240, the lane takes the rounding of the exact result.
[DESIGN CHOICE, log entry 36] -/
def sfuLane (fn fmt : Nat) (r : Rnd) (ftz : Bool) (x : Nat) : Nat :=
  let v := decodeNum fmt ftz x
  let round := encodeNum fmt (plainRnd r) ftz false 0
  let c := round (decodeNum 1 false (sfu32 fn v))
  match sfuSpecial fn v, v with
  | none, .fin neg m e =>
    let a := sfuExact fn neg m e
    if fmt = 1 ∨ narrowWithin fmt c a = true then c else round a
  | _, _ => c

end Sys2Proof.Machine
end

