-- ==== Sys2Proof/Machine/Fabric.lean ====
section
/-! DEFINITION. The issue of a micro-operation: operands, switchboxes, checks, results, the program counter of a cell
(R157 to R183, R195, R221, R222). -/
namespace Sys2Proof.Machine
open Sys2Proof

/-! ### Micro-operations (R162, R166) -/

/-- A micro-operation's fields. -/
structure Uop where
  op    : Nat
  fmt   : Nat
  rnd   : Nat
  route : Nat
  dst   : Nat
  a     : Nat
  b     : Nat
  c     : Nat
  imm   : Nat
  deriving DecidableEq, Repr

/-- The fields of a 64-bit micro-operation (R166). -/
def uopOf (w : Nat) : Uop :=
  { op := bits w 58 6, fmt := bits w 54 4, rnd := bits w 52 2, route := bits w 49 3, dst := bits w 43 6, a := bits w 37 6,
    b := bits w 31 6, c := bits w 25 6, imm := bits w 0 25 }

/-- Micro-operation `i` of a slot. -/
def slotOp (sl : BitVec 16384) (i : Nat) : Uop := uopOf (sfld sl (0x40 + 8 * i) 0 64)

/-- What a micro-operation works on: cell, quadrant, column, owner, slot image and fields. -/
structure UCtx where
  n  : Nat
  q  : Nat
  k  : Nat
  p  : Nat
  sl : BitVec 16384
  u  : Uop
  deriving DecidableEq, Repr

/-- Slot fields of a cell. -/
def UCtx.ctx (x : UCtx) : Nat := sfld x.sl 0 0 10
def UCtx.ftz (x : UCtx) : Bool := sfld x.sl 0 16 1 == 1
def UCtx.sat (x : UCtx) : Bool := sfld x.sl 0 17 1 == 1
/-- The rounding mode: RND, or the slot's default for 0b11 (R166). -/
def UCtx.rnd (x : UCtx) : Rnd := rndOf (if x.u.rnd = 3 then sfld x.sl 0 18 2 else x.u.rnd)
def UCtx.route (x : UCtx) : Nat := sfld x.sl (0x240 + 4 * x.u.route) 0 12

/-- Column of a cell. -/
def colOf (n : Nat) : Nat := n / 512 * 32 + n % 512 / 16

/-- The micro-operation that a cell is about to issue, where the cell runs: its column is owned and in service, its
partition's step still has work, the cell has not ended and waits in no SYNC. [DESIGN CHOICE, log entry 31] -/
def nextUop (s : State) (n : Nat) : Option UCtx :=
  let k := colOf n
  let col := s.col k
  match col.owner with
  | none => none
  | some p =>
    let x := s.part p
    let c := s.cell n
    let sl : BitVec 16384 := Tab.get 0 c.slots col.slot
    let runs := x.state == .running || (x.state == .held && !x.heldDone)
    if runs && !col.fenced && !c.done && c.sync.isNone && decide (c.pc < opCount sl) then
      some { n := n, q := n / 512, k := k, p := p, sl := sl, u := slotOp sl c.pc }
    else none

/-! ### Switchboxes (R176 to R180): directions 0 north, 1 east, 2 south, 3 west -/

/-- The cell that an output of a cell leads to, by position: quadrants 0 and 1 lie north of the spine with row 0 at
their south edge, quadrants 2 and 3 south of it with row 0 at their north edge. [DEDUCED, log entry 32] -/
def neighbour (n dir : Nat) : Option Nat :=
  let q := n / 512
  let c := n % 512 / 16
  let r := n % 16
  let away := if q < 2 then dir = 0 else dir = 2
  if dir = 0 ∨ dir = 2 then
    if away then (if r < 15 then some (n + 1) else none)
    else if 0 < r then some (n - 1)
    else some ((if q < 2 then q + 2 else q - 2) * 512 + c * 16)
  else if dir = 1 then
    if c < 31 then some (n + 16) else if q % 2 = 0 then some ((q + 1) * 512 + r) else none
  else
    if 0 < c then some (n - 16) else if q % 2 = 1 then some ((q - 1) * 512 + 31 * 16 + r) else none

/-- The input at which a vector sent in a direction arrives. -/
def arrivesAt (dir : Nat) : Nat := (dir + 2) % 4

/-- The cell that an output leads to; an output into a column of another owner or out of service is held idle (R179).
[DEDUCED, log entry 32] -/
def outputTo (s : State) (n dir : Nat) : Option Nat :=
  match neighbour n dir with
  | none => none
  | some m =>
    let a := s.col (colOf n)
    let b := s.col (colOf m)
    if a.owner.isSome && a.owner == b.owner && !b.fenced then some m else none

def Cell.fifo (c : Cell) : Nat → List Vec
  | 0 => c.inN
  | 1 => c.inE
  | 2 => c.inS
  | _ => c.inW
def Cell.setFifo (c : Cell) (d : Nat) (v : List Vec) : Cell :=
  match d with
  | 0 => { c with inN := v }
  | 1 => { c with inE := v }
  | 2 => { c with inS := v }
  | _ => { c with inW := v }

/-- Targets of a selector under a route set: the output directions it drives and the cells they lead to. -/
def routeTargets (s : State) (n route sel : Nat) : List (Nat × Nat) :=
  ((List.range 4).filter (fun d => bits route (3 * d) 3 == sel)).filterMap (fun d => (outputTo s n d).map (fun m => (d, m)))

/-- Whether every target FIFO has room: 4 entries each. -/
def hasRoom (s : State) (ts : List (Nat × Nat)) : Bool :=
  ts.all (fun t => decide (((s.cell t.2).fifo (arrivesAt t.1)).length < 4))

/-- Put a vector into every target FIFO. -/
def pushVec (v : Vec) (ts : List (Nat × Nat)) (s : State) : State :=
  ts.foldl (fun s t => let c := s.cell t.2; let d := arrivesAt t.1; s.setCell t.2 (c.setFifo d (c.fifo d ++ [v]))) s

/-- The switchbox moves one vector from each selected input to its outputs while a micro-operation issues; the FIFO's parity is
checked as the vector leaves it (R161). [DEDUCED, log entry 32] -/
def forwardVecs (n route : Nat) (s : State) : State :=
  (List.range 4).foldl (fun s d =>
    let ts := routeTargets s n route (d + 1)
    match (s.cell n).fifo d with
    | v :: rest =>
      if ts.isEmpty || !hasRoom s ts then s
      else
        let r := cellCheck n 5 false .clean (s.setCell n ((s.cell n).setFifo d rest))
        pushVec { v with poison := v.poison || r.1 } ts r.2
    | [] => s) s

/-! ### Operands (R167) -/

/-- Number of operands in a list that name an input. -/
def countOp (xs : List Nat) (v : Nat) : Nat := (xs.filter (· == v)).length

/-- Whether every source operand is available (R157, R172). [DESIGN CHOICE, log entry 31] -/
def srcsReady (s : State) (n : Nat) (srcs : List Nat) : Bool :=
  let c := s.cell n
  (List.range 4).all (fun d => decide (countOp srcs (0x24 + d) ≤ (c.fifo d).length)) &&
  decide (countOp srcs 0x29 ≤ c.rets.length) &&
  (c.rets.take (countOp srcs 0x29)).all (fun r => r.tags.all (fun t => t.2.isSome))

/-- The value of a return: its elements one after the other (R172). -/
def retVec (r : Ret) : Vec :=
  let parts := r.tags.map (fun t => t.2.getD {})
  { bits := BitVec.ofNat 512 (joinW (8 * r.size) (parts.map (fun v => v.bits.toNat))), poison := r.poison || parts.any (·.poison) }

/-- Read one source operand. -/
def readSrc (n v : Nat) (s : State) : Vec × State :=
  let c := s.cell n
  if v < 0x20 then
    let r := cellCheck n 3 true .clean s
    let x : Vec := Tab.get {} c.v v
    ({ x with poison := x.poison || r.1 }, r.2)
  else if v < 0x24 then
    let r := cellCheck n 3 false .clean s
    let x : Vec := Tab.get {} c.acc (v - 0x20)
    ({ x with poison := x.poison || r.1 }, r.2)
  else if v < 0x28 then
    let d := v - 0x24
    match c.fifo d with
    | x :: rest =>
      let r := cellCheck n 5 false .clean (s.setCell n (c.setFifo d rest))
      ({ x with poison := x.poison || r.1 }, r.2)
    | [] => ({}, s)
  else if v = 0x29 then
    match c.rets with
    | r :: rest => (retVec r, s.setCell n { c with rets := rest })
    | [] => ({}, s)
  else ({}, s)

/-- Read source operands in order. [DEDUCED, log entry 32] -/
def readSrcs (n : Nat) : List Nat → State → List Vec × State
  | [], s => ([], s)
  | v :: vs, s =>
    let r := readSrc n v s
    let t := readSrcs n vs r.2
    (r.1 :: t.1, t.2)

/-- Write a result to a destination operand. -/
def writeDst (n route d : Nat) (x : Vec) (s : State) : State :=
  let c := s.cell n
  if d < 0x20 then s.setCell n { c with v := Tab.set {} c.v d x }
  else if d < 0x24 then s.setCell n { c with acc := Tab.set {} c.acc (d - 0x20) x }
  else if d = 0x28 then pushVec x (routeTargets s n route 5) s
  else s

/-! ### Issue -/

/-- What a micro-operation did: results as destination and value, a jump, an end, whether its results are poisoned by
something else than a source, and the new state. -/
structure UOut where
  outs : List (Nat × Nat) := []
  jump : Option Nat := none
  fin  : Bool := false
  bad  : Bool := false
  st   : State

/-- Advance the draw index of all 32 lanes (R222). -/
def bumpDraws (n : Nat) (s : State) : State :=
  let c := s.cell n
  s.setCell n { c with draw := (List.range 32).foldl (fun t l => Tab.upd 0 t l (· + 1)) c.draw }

/-- After a micro-operation has issued: the next one, or the end of the cell (R174). -/
def advance (x : UCtx) (o : UOut) (s : State) : State :=
  let c := s.cell x.n
  let pc := o.jump.getD (c.pc + 1)
  s.setCell x.n { c with pc := pc, done := o.fin || (o.jump.isNone && decide (opCount x.sl ≤ c.pc + 1)) }

/-- Cycle counters of a column change as its cells issue: the manual's counts are of cycles, which the model does not
follow, so each takes a free value (R202). -/
def touchColumn (k : Nat) (s : State) : State :=
  let a := s.drawFree 32
  let b := a.2.drawFree 32
  b.2.setCol k { b.2.col k with busy := a.1, waitc := b.1 }

/-- Issue a micro-operation of an opcode: `srcs` are its source operands, `dests` says that it writes DST, `arith` that
a datapath result is checked, `draws` that it rounds stochastically under that mode. Poison comes from the sources and from a
struck slot. Where the cell does not stand at
such a micro-operation, or an operand is missing, nothing happens. [DESIGN CHOICE, log entry 31] -/
def issue (n op : Nat) (srcs : Uop → List Nat) (dests arith draws : Bool) (ready : UCtx → State → Bool)
    (body : UCtx → List Nat → Bool → State → UOut) (s : State) : State :=
  match nextUop s n with
  | none => s
  | some x =>
    let ss := srcs x.u
    let room := !(dests && x.u.dst == 0x28) || hasRoom s (routeTargets s n x.route 5)
    if x.u.op != op || !srcsReady s n ss || !room || !ready x s then s
    else
      let w := slotRead n (s.col x.k).slot s
      let r := readSrcs n ss w.2
      let poison := w.1 || r.1.any (·.poison)
      let s := if poison then markFlag x.p 2 r.2 else r.2
      let o := body x (r.1.map (fun v => v.bits.toNat)) poison s
      let chk := if arith then cellCheck n 4 false .clean o.st else (false, o.st)
      let bad := poison || o.bad || chk.1
      let s := o.outs.foldl (fun s d => writeDst n x.route d.1 { bits := BitVec.ofNat 512 d.2, poison := bad } s) chk.2
      let s := forwardVecs n x.route s
      let s := if draws && x.rnd == .stoch then bumpDraws n s else s
      refresh (touchColumn x.k (advance x o s))

/-- The draw words of a cell's result of `m` elements (R221). -/
def cellDraws (x : UCtx) (m : Nat) (s : State) : List Nat :=
  if x.rnd = .stoch then
    let y := s.part x.p
    let c := s.cell x.n
    drawWords (y.starter.getD { seed := 0, stream := 0 }) x.ctx y.step.toNat x.n 0 m (fun l => (Tab.get 0#32 c.draw l).toNat)
  else List.replicate m 0

/-! ### Requests of a cell (R164, R171 to R173, R182) -/

/-- Read elements: requests that return poison at once where they are refused before they leave. -/
def cellRead (x : UCtx) (dvas : List Nat) (size : Nat) (s : State) : List (Nat × Option Vec) × State :=
  dvas.foldl (fun acc dva =>
    let s := acc.2
    let bad := fun (s : State) => (acc.1 ++ [(s.noc.nextTag, some ({ poison := true } : Vec))],
      { s with noc := { s.noc with nextTag := s.noc.nextTag + 1 } })
    if 2 ^ 47 ≤ dva then bad (raise 11 4 0 (raise (24 + x.q) 6 (physCell s x.n) s))
    else
      let y := translate s (portOf (.cell x.n)) x.ctx dva false
      let s := noteXlat (portOf (.cell x.n)) x.ctx dva s
      match y with
      | .ok pa =>
        let r : Req := { tag := 0, who := .cell x.n, write := false, host := false, addr := pa, len := size, ctx := x.ctx,
                         part := x.p, sched := true, use := .get x.n }
        let i := issueReq r s
        (acc.1 ++ [(i.1, none)], i.2)
      | e => bad (match e.bit with | some b => raise 11 b 0 s | none => s)) ([], s)

/-- Write one element; a request refused before it leaves writes nothing. -/
def cellWrite (x : UCtx) (dva size data : Nat) (poison : Bool) (s : State) : State :=
  if 2 ^ 47 ≤ dva then raise 11 4 0 (raise (24 + x.q) 6 (physCell s x.n) s)
  else
    let y := translate s (portOf (.cell x.n)) x.ctx dva true
    let s := noteXlat (portOf (.cell x.n)) x.ctx dva s
    match y with
    | .ok pa =>
      let r : Req := { tag := 0, who := .cell x.n, write := true, host := false, addr := pa, len := size, ctx := x.ctx,
                       part := x.p, sched := true, data := leBytes size data, poison := poison, use := .plain }
      let s := (issueReq r s).2
      let c := s.cell x.n
      s.setCell x.n { c with writes := c.writes + 1 }
    | e => (match e.bit with | some b => raise 11 b 0 s | none => s)

/-- Fewer than 8 GET or GATHER micro-operations are outstanding (R172). -/
def mayRead (s : State) (n : Nat) : Bool :=
  decide ((((s.cell n).rets.filter (fun r => r.tags.any (fun t => t.2.isNone))).length) < 8)

/-- Address pointer named by IMM[24:23], and its post-increment. -/
def bPtr (s : State) (x : UCtx) : Nat := (Tab.get 0#48 (s.cell x.n).b (bits x.u.imm 23 2)).toNat
def bumpB (x : UCtx) (s : State) : State :=
  let j := bits x.u.imm 23 2
  if x.u.imm.testBit 21 then
    let c := s.cell x.n
    s.setCell x.n { c with b := Tab.upd 0#48 c.b j (fun v => BitVec.ofInt 48 ((v.toNat : Int) + toSigned 16 (sfld x.sl (0x28 + 2 * j) 0 16) * 64)) }
  else s

/-- Line pointer named by IMM[10], its line, and its post-increment (R164). -/
def lpLine (s : State) (x : UCtx) : Nat := ((Tab.get 0#9 (s.cell x.n).lp (bits x.u.imm 10 1)).toNat + bits x.u.imm 0 9) % 512
def bumpLp (x : UCtx) (s : State) : State :=
  let j := bits x.u.imm 10 1
  if x.u.imm.testBit 9 then
    let c := s.cell x.n
    s.setCell x.n { c with lp := Tab.upd 0#9 c.lp j (fun v => v + BitVec.ofInt 9 (toSigned 10 (sfld x.sl 0x34 (16 * j) 10))) }
  else s

/-- A read return reaches its cell (R172, R183): poison from the NoC sets POISON_RX. -/
def cellReturn (n tag : Nat) (data : List Byte) (poison : Bool) (s : State) : State :=
  let c := s.cell n
  let v : Vec := { bits := BitVec.ofNat 512 (leNat data), poison := poison }
  let s := s.setCell n { c with rets := c.rets.map (fun r =>
    { r with tags := r.tags.map (fun t => if t.1 == tag && t.2.isNone then (t.1, some v) else t) }) }
  if poison then raise (24 + n / 512) 7 (physCell s n) s else s

/-- A write acknowledgement reaches its cell (R174). -/
def cellAck (n : Nat) (s : State) : State :=
  let c := s.cell n
  s.setCell n { c with writes := c.writes - 1 }

end Sys2Proof.Machine
end

