-- ==== Sys2Proof/Machine/Net.lean ====
section
/-! DEFINITION. The on-chip network: packets and flits, buffer slices and credits, the wheels of the router outputs, rising
priority, and the shares of the HBM reorder queues (R364 to R383, R387, R389, R390). -/
namespace Sys2Proof.Machine
open Sys2Proof

/-! ### Routes and slices (R376, R389, R390) -/

/-- The destination port of a physical address (R364). -/
def dstPort (s : State) (pa : Nat) : Nat :=
  match paSpot s pa with
  | .sram b _ => 166 + b
  | .hbm m ch _ => 230 + m * 32 + ch
  | .site n _ => 136 + n
  | .memHole m => 230 + m * 32
  | .srmHole => 166 + pa / 0x800000 % 64

/-- Whether a partition owns the unit of a port exclusively, so that its route records may move it (R390). -/
def ownsPort (s : State) (p d : Nat) : Bool :=
  if d < 64 then (s.xfe d).owner == some p
  else if d < 72 then (s.cunit (d - 64)).owner == some p
  else if d < 136 then
    let k := (d - 72) / 16 * 32 + (d - 72) % 16 * 2
    (s.col k).owner == some p && (s.col (k + 1)).owner == some p
  else if d < 154 then (s.site (d - 136)).owner == some p
  else if 166 ≤ d ∧ d < 230 then (s.bank (d - 166)).owner == some p
  else if 230 ≤ d ∧ d < 422 then (s.chan (d - 230)).owner == some p
  else false

/-- The partition route record of a router that is in force for a partition. -/
def varRoute (s : State) (router p : Nat) : Option Rec :=
  s.noc.vroutes.find? (fun r => r.subject == router && r.part == p)

/-- Output of a router for a destination, 0xF = unrouted. -/
def routeTo (s : State) (router p d : Nat) : Nat :=
  let nib := fun (r : Rec) => bits (r.body.getD (d / 2) 0xFF).toNat (4 * (d % 2)) 4
  match Tab.get none s.noc.routes router with
  | none => 0xF
  | some r =>
    match varRoute s router p with
    | some v => if ownsPort s p d then nib v else nib r
    | none => nib r

/-- A SLICE or WHEEL entry in force at an offset of a router's record body: a partition route record takes the place of the
base entry that names its partition (R390). -/
def routeEntry (s : State) (router o : Nat) : Nat :=
  match Tab.get none s.noc.routes router with
  | none => 0
  | some r =>
    let b := (r.body.getD o 0).toNat
    if !b.testBit 7 then b
    else match varRoute s router (b % 64) with
      | some v => (v.body.getD o 0).toNat
      | none => b

/-- The partition to which a slice of VN0 to VN3 belongs. -/
def sliceOwner (s : State) (router input vn vc k : Nat) : Option Nat :=
  let b := routeEntry s router (0x100 + input * 64 + vn * 16 + vc * 8 + k)
  if b.testBit 7 then some (b % 64) else none

/-- The wheel entry of an output: partition and class, 0 reserved and 1 regulated (R378). -/
def wheelAt (s : State) (router out e : Nat) : Option (Nat × Nat) :=
  let b := routeEntry s router (0x300 + out * 64 + e % 64)
  if b.testBit 7 then some (b % 64, bits b 6 1) else none

/-! ### Buffers (R374, R375) -/

/-- Slices of a VC and flits of a slice: 8 of 2 on VN0 to VN3; VN4 is not divided and holds 8. [DEDUCED, log entry 86] -/
def sliceCount (vn : Nat) : Nat := if vn = 4 then 1 else 8
def sliceDepth (vn : Nat) : Nat := if vn = 4 then 8 else 2

/-- Number of a slice, and the parts of the number. -/
def sliceKey (router input vn vc k : Nat) : Nat := (((router * 8 + input) * 5 + vn) * 2 + vc) * 8 + k
def keyRouter (key : Nat) : Nat := key / 640
def keyInput (key : Nat) : Nat := key / 80 % 8
def keyVn (key : Nat) : Nat := key / 16 % 5
def keyVc (key : Nat) : Nat := key / 8 % 2

/-- Change the network. -/
def modNet (f : Net → Net) (s : State) : State := { s with noc := { s.noc with net := f s.noc.net } }

/-- Whether a sender holds a credit for a slice. -/
def sliceCredit (s : State) (key : Nat) : Bool := decide (Tab.get 0 s.noc.net.spent key < sliceDepth (keyVn key))

/-- The slices of an input that a partition's packets of a virtual network and channel may use. -/
def ownSlices (s : State) (router input vn vc p : Nat) : List Nat :=
  ((List.range (sliceCount vn)).filter (fun k => vn == 4 || sliceOwner s router input vn vc k == some p)).map (sliceKey router input vn vc)

/-- The slice that the next flit of a packet goes into at an input: for a head one that no packet holds, for a later flit the
one that the head took; none while the sender holds no credit for it (R375). -/
def nextSlice (s : State) (p : Packet) (head : Bool) (router input : Nat) : Option Nat :=
  (ownSlices s router input p.vn p.vc p.part).find? (fun k =>
    Tab.get none s.noc.net.taken k == (if head then none else some p.id) && sliceCredit s k)

/-! ### Packets and flits (R367 to R369) -/

/-- Lines that a request touches. -/
def reqLines (r : Req) : Nat := (linesOf r.addr r.len).length

/-- The data of a request in whole lines. -/
def dataLines (r : Req) (bs : List Byte) : List Line :=
  let o := r.addr % 64
  let all := List.replicate o 0#8 ++ bs
  (List.range (reqLines r)).map (fun k => BitVec.ofNat 512 (leNat ((all.drop (64 * k)).take 64)))

/-- PRIO of a packet: 0 where scheduled; else BASE_PRIO of the initiator's port, at least 6 from an age of TARGET / 2 and 7
from TARGET (R383). -/
def packetPrio (s : State) (p : Packet) : Nat :=
  if p.vc = 0 then 0
  else
    let q := s.qport (if p.resp then p.dst else p.src) p.part
    let age := s.clk.now.toNat - p.inject.toNat
    if q.target = 0 then q.basePrio
    else if q.target ≤ age then 7
    else if q.target ≤ 2 * age then max q.basePrio 6
    else q.basePrio

/-- A head flit's payload (R368): opcode, LEN, PRIO, ports, tag, context, partition, STATUS, INJECT, address, byte enables and
step number. -/
def headLine (s : State) (p : Packet) (op len status ctx addr be : Nat) (step : Word) : Line :=
  BitVec.ofNat 512 (pk [(0, 8, op), (8, 3, len), (11, 3, packetPrio s p), (14, 1, 1 - p.vc), (16, 9, p.dst), (32, 9, p.src), (41, 12, p.req),
    (53, 10, ctx), (64, 6, p.part), (72, 8, status), (96, 32, p.inject.toNat), (128, 64, addr), (192, 64, be),
    (256, 32, step.toNat)])

/-- The packet of a request at its port. -/
def reqPacket (s : State) (r : Req) : Packet :=
  let p : Packet := { id := s.noc.net.nextId, req := r.tag, resp := false, vn := if r.write then 3 else 0, vc := if r.sched then 0 else 1,
                      part := r.part, src := portOf r.who, dst := dstPort s r.addr, inject := r.inject, lines := [], poison := r.poison }
  let n := reqLines r
  let be := if r.write && n == 1 then (r.be.getD (2 ^ r.len - 1) % 2 ^ r.len) <<< (r.addr % 64) else 0
  { p with lines := headLine s p (if r.write then 2 else 1) n 0 r.ctx r.addr be r.step :: (if r.write then dataLines r r.data else []) }

/-- The packet of a response at its target's port. -/
def respPacket (s : State) (r : Req) (a : Resp) : Packet :=
  let p : Packet := { id := s.noc.net.nextId, req := r.tag, resp := true, vn := if r.write then 2 else 3, vc := if r.sched then 0 else 1,
                      part := r.part, src := dstPort s r.addr, dst := portOf r.who, inject := s.clk.now, lines := [], poison := a.poison }
  let op := if !r.write then 3 else if a.refused then 5 else 4
  let st := if a.refused then 4 else if a.poison then 5 else 0
  { p with lines := headLine s p op (if r.write then 0 else reqLines r) st r.ctx r.addr 0 r.step :: (if r.write then [] else dataLines r a.data) }

/-- Whether a packet of a request, or of its response, is in the network. -/
def hasPacket (s : State) (tag : Nat) (resp : Bool) : Bool := s.noc.net.pkts.any (fun p => p.req == tag && p.resp == resp)

/-- Whether a packet has arrived whole. -/
def Packet.arrived (p : Packet) : Bool := decide (p.got = p.lines.length)

/-- A packet stands at its port. -/
def presentPacket (p : Packet) (s : State) : State := modNet (fun n => { n with pkts := n.pkts ++ [p], nextId := n.nextId + 1 }) s

/-- Requests that have passed their port's bucket and responses that their target has given become packets (R381, R382); what
arrived for a request that has ended is gone. -/
def presentAll (s : State) : State :=
  let s := modNet (fun n => { n with pkts := n.pkts.filter (fun p => !p.arrived || (s.reqOf p.req).isSome) }) s
  let s := s.noc.reqs.foldl (fun s r => (leavePort r s).getD s) s
  let s := s.noc.reqs.foldl (fun s r =>
    if r.held || r.host || r.gone || r.resp.isSome || hasPacket s r.tag false then s else presentPacket (reqPacket s r) s) s
  s.noc.resps.foldl (fun s a =>
    match s.reqOf a.tag with
    | some r => if r.host || hasPacket s a.tag true then s else presentPacket (respPacket s r a) s
    | none => s) s

/-- The packet of a request or a response that stands at its destination's port. -/
def arrivedPacket (s : State) (tag : Nat) (resp : Bool) : Option Packet :=
  s.noc.net.pkts.find? (fun p => p.req == tag && p.resp == resp && p.arrived)

/-- Take a packet off the network. -/
def takePacket (id : Nat) (s : State) : State := modNet (fun n => { n with pkts := n.pkts.filter (fun p => p.id != id) }) s

/-- Flit `i` of a packet on its way into a slice (R367): VN, VC, KIND, SLICE and POISON. -/
def Packet.flit (p : Packet) (i slice cycle : Nat) : Flit :=
  let kind := if p.lines.length = 1 then 3 else if i = 0 then 0 else if i + 1 = p.lines.length then 2 else 1
  { pkt := p.id, payload := p.lines.getD i 0, since := cycle,
    side := BitVec.ofNat 16 (pk [(0, 3, p.vn), (3, 1, p.vc), (4, 2, kind), (6, 3, slice), (9, 1, flag (p.poison && decide (i ≠ 0)))]) }

/-- A flit that begins a packet, and one that ends it. -/
def Flit.head (f : Flit) : Bool := bits f.side.toNat 4 2 == 0 || bits f.side.toNat 4 2 == 3
def Flit.tail (f : Flit) : Bool := bits f.side.toNat 4 2 == 2 || bits f.side.toNat 4 2 == 3

/-! ### Discards (R376, R395) -/

/-- A packet is discarded: the counter and `NOC_LAST_DROP` (R395), with the router input that it reached. -/
def recordDrop (at_ vn vc d : Nat) (s : State) : State :=
  { s with noc := { s.noc with drops := satInc s.noc.drops,
                               lastDrop := BitVec.ofNat 32 (pk [(0, 7, at_ / 8), (8, 3, at_ % 8), (12, 3, vn), (15, 1, vc), (16, 9, d)]) } }

/-- A packet leaves the network undelivered: its flits leave their slices, whose credits return. Its request stays open, to end by
RESP_TIMEOUT. [DEDUCED, log entry 47] -/
def losePacket (p : Packet) (s : State) : State :=
  let hits := s.noc.net.bufs.flatMap (fun b => (b.2.filter (fun f => f.pkt == p.id)).map (fun _ => b.1))
  let s := modNet (fun n => { n with pkts := n.pkts.filter (fun q => q.id != p.id), back := n.back ++ hits,
                                     bufs := Tab.mapV [] (fun _ fs => fs.filter (fun f => f.pkt != p.id)) n.bufs,
                                     taken := Tab.mapV none (fun _ o => if o == some p.id then none else o) n.taken }) s
  if p.resp then { s with noc := { s.noc with resps := s.noc.resps.filter (fun a => a.tag != p.req) } }
  else s.modReq p.req (fun r => { r with gone := true })

/-- A packet that reaches an input with no slice for its partition, or a destination that is not routed, is discarded. -/
def dropPacket (p : Packet) (at_ : Nat) (s : State) : State :=
  raise 10 2 (at_ / 8) (recordDrop at_ p.vn p.vc p.dst (losePacket p s))

/-! ### Shares of the reorder queues (R335, R387) -/

/-- The pseudo-channel of an address, none outside HBM. -/
def pseudoOf (s : State) (pa : Nat) : Option Nat :=
  match paSpot s pa with
  | .hbm m ch _ => some ((m * 32 + ch) * 2 + bits pa 6 1)
  | _ => none

/-- Whether a request stands in the reorder queue of its pseudo-channel: it has begun to arrive there, or is being served. -/
def inQueue (s : State) (r : Req) : Bool :=
  s.noc.net.pkts.any (fun p => p.req == r.tag && !p.resp && decide (0 < p.got)) || (r.gone && !r.lines.isEmpty)

/-- Whether a request may enter its reorder queue: within its port's and partition's share, and within the queue's 48 reads and 24
writes. [DEDUCED, log entry 86] -/
def queueRoom (s : State) (r : Req) : Bool :=
  match pseudoOf s r.addr with
  | none => true
  | some c =>
    let there := s.noc.reqs.filter (fun q => q.write == r.write && pseudoOf s q.addr == some c && inQueue s q)
    let mine := there.filter (fun q => q.part == r.part && portOf q.who == portOf r.who)
    let w := s.qport (portOf r.who) r.part
    decide (mine.length < (if r.write then w.rqWrite else w.rqRead)) && decide (there.length < (if r.write then 24 else 48))

/-- Whether the home of a coherent line takes a further request: it holds up to 512 (R475). [DEDUCED, log entry 86] -/
def homeRoom (s : State) (r : Req) : Bool :=
  !coherent s r.addr || decide ((s.home.queue.filter (fun q => dstPort s (q.line * 64) == dstPort s r.addr)).length < 512)

/-! ### One cycle (R366, R370, R375, R378, R379) -/

/-- A flit that an output could send: its slice, packet, output, and where it goes. -/
structure Move where
  key  : Nat
  flit : Flit
  pkt  : Packet
  out  : Nat
  next : Option Nat                      -- the slice of the next input; none = the port
  deriving DecidableEq, Repr

/-- Whether an older packet from the same port to the same port on the same VN and VC is still in a router, or behind it: packets
of one flow keep their order (R370). -/
def overtakes (s : State) (p : Packet) (router : Option Nat) : Bool :=
  s.noc.net.pkts.any (fun q => decide (q.id < p.id) && q.src == p.src && q.dst == p.dst && q.vn == p.vn && q.vc == p.vc &&
    (decide (q.sent < q.lines.length) || (match router with
      | some r => s.noc.net.bufs.any (fun b => keyRouter b.1 == r && b.2.any (fun f => f.pkt == q.id))
      | none => false)))

/-- What a flit at the front of a slice does next: nothing yet, a discard at a router input, or a move. -/
inductive Step1 where
  | wait
  | drop (p : Packet) (at_ : Nat)
  | move (m : Move)
  deriving DecidableEq, Repr

/-- The next step of the flit at the front of a slice; a flit takes 3 cycles in a router (R366). -/
def flitStep (s : State) (key : Nat) (f : Flit) : Step1 :=
  match s.noc.net.pkts.find? (fun p => p.id == f.pkt) with
  | none => .wait
  | some p =>
    let r := keyRouter key
    let out := routeTo s r p.part p.dst
    if s.noc.net.cycle < f.since + 3 || (f.head && overtakes s p (some r)) then .wait
    else match (if out = 0xF then NocEnd.none else Tab.get NocEnd.none s.noc.net.wires (r * 8 + out)) with
      | .none => .drop p (r * 8 + keyInput key)
      | .router r2 i2 =>
        if (ownSlices s r2 i2 p.vn p.vc p.part).isEmpty then .drop p (r2 * 8 + i2)
        else match nextSlice s p f.head r2 i2 with
          | some k => .move { key := key, flit := f, pkt := p, out := r * 8 + out, next := some k }
          | none => .wait
      | .port d =>
        if d != p.dst then .drop p (r * 8 + keyInput key)
        else if f.head && !p.resp && !(match s.reqOf p.req with | some q => queueRoom s q && homeRoom s q | none => true) then .wait
        else .move { key := key, flit := f, pkt := p, out := r * 8 + out, next := none }

/-- Whether one flit goes before another: the higher PRIO, the older INJECT, the lower input number (R378). -/
def goesBefore (s : State) (a b : Move) : Bool :=
  let pa := packetPrio s a.pkt
  let pb := packetPrio s b.pkt
  decide (pb < pa) || (pa == pb && (decide (a.pkt.inject.toNat < b.pkt.inject.toNat) ||
    (a.pkt.inject == b.pkt.inject && decide (keyInput a.key < keyInput b.key))))

/-- The first of some flits. -/
def firstMove (s : State) : List Move → Option Move
  | [] => none
  | m :: ms => match firstMove s ms with
    | some n => some (if goesBefore s n m then n else m)
    | none => some m

/-- The flit that an output sends in this cycle (R378, R379): of the named partition and class; where it has none and is ISOLATED,
nothing; else, and in an unassigned entry, of the first partition in wheel order that is not ISOLATED, reserved class before
regulated. A flit that lacks a credit is not waiting here. [DEDUCED, log entry 86] -/
def chooseMove (s : State) (out : Nat) (ms : List Move) : Option Move :=
  let e := s.noc.net.cycle % 64
  let at_ := wheelAt s (out / 8) (out % 8)
  let of_ := fun (p c : Nat) => firstMove s (ms.filter (fun m => m.pkt.part == p && m.pkt.vc == c))
  let lend := (List.range 64).findSome? (fun j => match at_ (e + 1 + j) with
    | some (p, _) => if (s.qpart p).isolated then none else (of_ p 0).or (of_ p 1)
    | none => none)
  match at_ e with
  | some (p, c) => (match of_ p c with
    | some m => some m
    | none => if (s.qpart p).isolated then none else lend)
  | none => lend

/-- A flit leaves its slice, whose credit goes back, and enters the next one or arrives at the port. -/
def doMove (m : Move) (s : State) : State :=
  let n := s.noc.net
  let n := { n with bufs := Tab.upd [] n.bufs m.key List.tail, back := n.back ++ [m.key] }
  let n := match m.next with
    | some k =>
      { n with bufs := Tab.upd [] n.bufs k (· ++ [{ m.flit with since := n.cycle, side := BitVec.ofNat 16 (setBits 16 m.flit.side.toNat 6 3 (k % 8)) }]),
               spent := Tab.upd 0 n.spent k (· + 1), taken := Tab.set none n.taken k (if m.flit.tail then none else some m.pkt.id),
               pkts := n.pkts.map (fun p => if p.id == m.pkt.id then { p with at_ := k / 80 } else p) }
    | none => { n with pkts := n.pkts.map (fun p => if p.id == m.pkt.id then { p with got := p.got + 1 } else p) }
  modNet (fun _ => n) s

/-- Spine segments of a router, none outside the spine (R365). -/
def segOf (r : Nat) : Option Nat := if r < 64 then some (r / 16) else none

/-- An armed injection at a spine-segment crossing fires on the next flit that crosses (R712, R805). -/
def crossCheck (m : Move) (s : State) : State :=
  match m.next with
  | some k =>
    (match segOf (keyRouter m.key), segOf (keyRouter k) with
     | some a, some b =>
       if a = b then s
       else
         let f := fireInject 10 6 false s
         if f.1.isSome then raise 10 6 0 f.2 else f.2
     | _, _ => s)
  | none => s

/-- Whether a port may send a scheduled flit of a partition in this cycle (R380). Responses are no initiator's injection. -/
def rsvOpen (s : State) (p : Packet) : Bool :=
  let q := s.qport p.src p.part
  p.vc == 1 || p.resp || (q.rsvRate != 0 && decide (q.rsvDue ≤ s.noc.net.cycle * q.rsvRate))

/-- Count a scheduled flit against RSV_RATE. -/
def rsvTake (p : Packet) (s : State) : State :=
  if p.vc == 1 || p.resp then s
  else
    let q := s.qport p.src p.part
    s.setQport p.src p.part { q with rsvDue := max q.rsvDue (s.noc.net.cycle * q.rsvRate) + 256 }

/-- A port sends the next flit of one packet into its router: of the packets that may go, the reserved class first, then as at an
output. The manual does not order a port's own packets. [DESIGN CHOICE, log entry 84] -/
def injectAt (port : Nat) (s : State) : State :=
  let ps := s.noc.net.pkts.filter (fun p => p.src == port && decide (p.sent < p.lines.length) && rsvOpen s p && !overtakes s p none)
  match Tab.get none s.noc.net.attach port with
  | none => s
  | some ri =>
    match ps.find? (fun p => (ownSlices s (ri / 8) (ri % 8) p.vn p.vc p.part).isEmpty) with
    | some p => dropPacket p ri s
    | none =>
      let ms := ps.filterMap (fun p => (nextSlice s p (decide (p.sent = 0)) (ri / 8) (ri % 8)).map (fun k =>
        ({ key := k, flit := p.flit p.sent (k % 8) s.noc.net.cycle, pkt := p, out := 0, next := some k } : Move)))
      match (firstMove s (ms.filter (fun m => m.pkt.vc == 0))).or (firstMove s ms) with
      | none => s
      | some m =>
        let s := rsvTake m.pkt s
        modNet (fun n => { n with
          bufs := Tab.upd [] n.bufs m.key (· ++ [m.flit]), spent := Tab.upd 0 n.spent m.key (· + 1),
          taken := Tab.set none n.taken m.key (if m.flit.tail then none else some m.pkt.id),
          pkts := n.pkts.map (fun p => if p.id == m.pkt.id then { p with sent := p.sent + 1, at_ := ri } else p) }) s

/-- Credits that were on their way back are the senders' again (R375). -/
def returnCredits (s : State) : State :=
  modNet (fun n => { n with back := [], spent := n.back.foldl (fun t k => Tab.upd 0 t k (· - 1)) n.spent }) s

/-- One NCLK cycle: credits return; every output of every router sends at most one flit; every port sends at most one; the wheels
advance by one entry. -/
def nocCycle (s : State) : State :=
  let s := returnCredits s
  let steps := s.noc.net.bufs.filterMap (fun b => b.2.head?.map (flitStep s b.1))
  let moves := steps.filterMap (fun x => match x with | .move m => some m | _ => none)
  let go := ((moves.map (·.out)).eraseDups).filterMap (fun o => chooseMove s o (moves.filter (fun m => m.out == o)))
  let s := go.foldl (fun s m => crossCheck m (doMove m s)) s
  let s := steps.foldl (fun s x => match x with
    | .drop p a => dropPacket p a s
    | _ => s) s
  let s := ((s.noc.net.pkts.filter (fun p => decide (p.sent < p.lines.length))).map (·.src)).eraseDups.foldl (fun s p => injectAt p s) s
  modNet (fun n => { n with cycle := n.cycle + 1 }) s

/-- Two NCLK cycles: one tick of the network (R114, R381). -/
def nocTick (s : State) : State := nocCycle (nocCycle (presentAll s))

end Sys2Proof.Machine
end

