-- ==== Sys2Proof/Machine/Proofs.lean ====
section
/-! DEFINITION. The commands of the proof network and of the time base: tokens, expiries, wires at the sites, the
partition control registers (R110 to R152). -/
namespace Sys2Proof.Machine
open Sys2Proof

/-! ### Receiving a token (R122 to R124) -/

/-- A token is taken: one with a bad CRC sets TOKEN_CRC, a copy of one already acted on is discarded (R123, R124). The
first result is the proof port that it counts for. [DEDUCED, log entry 27] -/
def takeToken (ty : TokenType) (via : TokenVia) (t : Token) (s : State) : Option Nat × State :=
  if t.type != ty then (none, s)
  else
    let r := fireInject 8 4 false s
    if r.1.isSome || !tokenOk t then (none, raise 8 4 t.domain.val r.2)
    else match tokenPort r.2 via with
    | none => (none, r.2)
    | some port =>
      let p := t.domain.val
      let x := r.2.part p
      let timing := ty == .timeReq || ty == .timeResp
      let s := traceAt (80 + port) (if timing then none else some p) r.2
      if timing then (some port, s)
      else if x.seen.any (fun e => e.1 == port && sameToken e.2 t) then (none, s)
      else (some port, s.setPart p { x with seen := x.seen ++ [(port, t)], heard := putBit x.heard port true })

/-- ARRIVE_TOKEN: a child's arrival, or its report of READY (R125, R135). -/
def arriveToken (via : TokenVia) (t : Token) (s : State) : State :=
  let r := takeToken .arrive via t s
  match r.1 with
  | none => r.2
  | some port =>
    let p := t.domain.val
    let s := r.2
    let x := s.part p
    if !(childPorts x).contains port || !x.cfg.enable then s
    else
      let rdy := t.flags.getLsbD 5
      let c : ChildArr := { port := port, ready := rdy, step := t.step, tick := t.tick, flags := t.flags }
      let s := s.setPart p { x with children := x.children.filter (fun d => !(d.port == port && d.ready == rdy)) ++ [c] }
      if rdy then tryReady p s else tryForward p s
def execArriveToken (via : TokenVia) (t : Token) (s : State) : Host.Outcome State Fault Refusal :=
  .next (refresh (arriveToken via t s))

/-- Whether a token of the parent's came on the parent's port. -/
def fromParent (x : Part) (port : Nat) : Bool := x.cfg.enable && x.cfg.parentValid && x.cfg.proofParent.val == port

/-- RELEASE_TOKEN: forwarded to the children and armed for the named tick (R127). One that ends a held proof completes
it (R132). The proof's last arrival A is the release tick less M, and the stretch A − E is recorded (R125, R130).
[DEDUCED, log entry 29] -/
def releaseToken (via : TokenVia) (t : Token) (s : State) : State :=
  let r := takeToken .release via t s
  match r.1 with
  | none => r.2
  | some port =>
    let p := t.domain.val
    let s := r.2
    let x := s.part p
    let T := BitVec.ofNat 64 (expand48 s.clk.now.toNat t.tick.toNat)
    if !fromParent x port then s
    else if x.readySent && !x.active && t.step.toNat == (upcoming x).toNat % 2 ^ 32 then
      armRelease p T true (toChildren p t (measureD p s))
    else if t.step.toNat != x.step32 || x.armed.isSome || !(x.state == .waiting || (x.state == .held && !x.heldDone)) then s
    else
      let s := recordStretch p (max (T.toNat - x.margin) (subtreeArrival s p)) (s.modPart p (fun x => { x with domFlags := t.flags &&& 15#8 }))
      if x.state == .waiting then armRelease p T false (toChildren p t s)
      else tryReady p (enterHeld p 0#7 true (toChildren p t s))
def execReleaseToken (via : TokenVia) (t : Token) (s : State) : Host.Outcome State Fault Refusal :=
  .next (refresh (releaseToken via t s))

/-- HOLD_TOKEN: forwarded; a RUNNING partition told LATE is HELD while its work completes; a WAITING one holds with the
token's reason; COMPLETE ends a held proof (R110, R111, R131, R150). [DEDUCED, log entry 27] -/
def holdToken (via : TokenVia) (t : Token) (s : State) : State :=
  let r := takeToken .hold via t s
  match r.1 with
  | none => r.2
  | some port =>
    let p := t.domain.val
    let s := r.2
    let x := s.part p
    let reason := Hold.ofCode (t.flags.toNat / 32 + 1)
    let complete := t.flags.getLsbD 4
    if !fromParent x port || t.step.toNat != x.step32 then s
    else
      let s := toChildren p t s
      let s := if complete && x.arrival.isSome && !(x.state == .held && x.heldDone) then
          recordStretch p (subtreeArrival s p) (s.modPart p (fun x => { x with domFlags := t.flags &&& 15#8 }))
        else s
      let late := fun (s : State) => if reason == .late && !x.lateSent then
        raise 8 2 p (s.modPart p (fun x => { x with lateSent := true })) else s
      if x.state == .running && reason == .late then
        late (enterHeld p 1#7 false s)
      else if x.state == .waiting then tryReady p (enterHeld p (holdBit reason) complete (late s))
      else if x.state == .held && !x.heldDone && complete then tryReady p (enterHeld p (holdBit reason) true (late s))
      else s
def execHoldToken (via : TokenVia) (t : Token) (s : State) : Host.Outcome State Fault Refusal :=
  .next (refresh (holdToken via t s))

/-- BREAK_TOKEN: a RUNNING partition, or one whose release stands, breaks at its next local arrival; a WAITING one at
once (R110, R150). [DEDUCED, log entry 27] -/
def breakToken (via : TokenVia) (t : Token) (s : State) : State :=
  let r := takeToken .brk via t s
  match r.1 with
  | none => r.2
  | some port =>
    let p := t.domain.val
    let s := r.2
    let x := s.part p
    if !x.cfg.enable || !(treePorts x).contains port then s
    else match x.state with
      | .running => s.modPart p (fun x => { x with breakDue := true })
      | .waiting => if x.armed.isSome then s.modPart p (fun x => { x with breakDue := true }) else enterBroken p false s
      | _ => s
def execBreakToken (via : TokenVia) (t : Token) (s : State) : Host.Outcome State Fault Refusal :=
  .next (refresh (breakToken via t s))

/-- LATE_LIMIT_EXPIRY: the root's counter has passed the budget end plus LATE_LIMIT before the last arrival; the root
sends HOLD with reason LATE and holds (R131). [DESIGN CHOICE, log entry 8] -/
def lateLimitExpiry (p : Nat) (s : State) : State :=
  let x := s.part p
  if x.cfg.parentValid || !(x.active || (x.state == .held && !x.heldDone)) || !recProof x.rec_ || !x.budgetOver || x.lateSent || x.arriveSent then s
  else
    let s := toChildren p (mkToken .hold p 0 x.step32 (s.clk.now.toNat % 2 ^ 48)) s
    let s := s.modPart p (fun x => { x with lateSent := true, holds := x.holds ||| 1#7, heldDone := false })
    raise 8 2 p (enterHeld p 0#7 false s)
def execLateLimitExpiry (p : Fin 64) (s : State) : Host.Outcome State Fault Refusal := .next (lateLimitExpiry p.val s)

/-- PROOF_TIMEOUT_EXPIRY: no RELEASE and no HOLD with COMPLETE came in time; the partition breaks and says so on every
port of the domain (R110, R132). [DESIGN CHOICE, log entry 8] -/
def proofTimeoutExpiry (p : Nat) (s : State) : State :=
  let x := s.part p
  if x.arrival.isSome && recProof x.rec_ &&
      ((x.state == .waiting && x.armed.isNone) || (x.state == .held && !x.heldDone)) then enterBroken p true s
  else s
def execProofTimeoutExpiry (p : Fin 64) (s : State) : Host.Outcome State Fault Refusal :=
  .next (refresh (proofTimeoutExpiry p.val s))

/-- READY_TIMEOUT: a distributed release has not completed in time; a HELD member breaks, another stays in its state
(R135). -/
def readyTimeout (p : Nat) (s : State) : State :=
  let x := s.part p
  if x.ready.isNone || x.armed.isSome then s
  else
    let s := s.modPart p (fun x => { x with ready := none, readySent := false })
    if x.state == .held then enterBroken p false s else raise 8 1 p s
def execReadyTimeout (p : Fin 64) (s : State) : Host.Outcome State Fault Refusal := .next (readyTimeout p.val s)

/-! ### The time base (R113 to R119) -/

/-- One tick passes: the counter advances by 1; at most once in any 256 ticks a pending correction moves the phase by 1/16
tick, and the tick value changes as the phase carries; a counter brought within 1/8 tick of its parent's is locked (R115, R116).
[DESIGN CHOICE, log entry 3; DEDUCED, log entry 83] -/
def tickClock (c : Clock) : Clock :=
  if c.slew = 0 || c.slewWait != 0 then { c with now := c.now + 1, slewWait := c.slewWait - 1 }
  else
    let up := decide (0 < c.slew)
    let left := if up then c.slew - 1 else c.slew + 1
    { c with now := if up && c.frac = 15 then c.now + 2 else if !up && c.frac = 0 then c.now else c.now + 1,
             frac := if up then c.frac + 1 else c.frac - 1, slew := left, slewWait := 255,
             locked := c.locked || (c.parentOk && !c.onRef && decide (left.natAbs ≤ 2)) }

/-- TIME_SYNC_TIMER: every 1 ms a package with a time parent sends TIME_REQ to it (R114). -/
def timeSyncTimer (s : State) : State :=
  let c := s.clk
  if !c.parentOk then s
  else
    let s := { s with clk := { c with reqTick := some (c.now.toNat, c.frac.toNat) } }
    sendToken c.parent.val (mkToken .timeReq 0 0 0 (c.now.toNat % 2 ^ 48) c.frac.toNat) s
def execTimeSyncTimer (s : State) : Host.Outcome State Fault Refusal := .next (timeSyncTimer s)

/-- TIME_REQ: the parent answers with its send tick, the time it took and its hop count; a grand master sends HOPS 0
(R114, R119, R122). [DESIGN CHOICE, log entry 98] -/
def timeReq (via : TokenVia) (t : Token) (s : State) : State :=
  let r := takeToken .timeReq via t s
  match r.1 with
  | none => r.2
  | some port =>
    let c := r.2.clk
    sendToken port (mkToken .timeResp t.domain.val 0 0 (c.now.toNat % 2 ^ 48) c.frac.toNat
      (if c.parentOk then c.hops else 0)) r.2
def execTimeReq (via : TokenVia) (t : Token) (s : State) : Host.Outcome State Fault Refusal := .next (refresh (timeReq via t s))

/-- Whether any partition of a domain of more than one package is RUNNING, WAITING or HELD: stepping is barred (R117).
[DEDUCED, log entry 83] -/
def stepBarred (s : State) : Bool :=
  s.parts.any (fun e => (e.2.active || e.2.state == .held) && decide (1 < e.2.cfg.domainSize))

/-- TIME_RESP: path delay and offset, in 1/16 tick; the counter is stepped, or slewed where stepping is barred; more
than 8 hops do not lock (R114 to R119). [DEDUCED, log entry 83] -/
def timeResp (via : TokenVia) (t : Token) (s : State) : State :=
  let r := takeToken .timeResp via t s
  match r.1, r.2.clk.reqTick with
  | some port, some (t1, f1) =>
    let s := r.2
    let c := s.clk
    if !c.parentOk || c.parent.val != port then s
    else
      let hops := t.hops.toNat + 1
      let t4 : Int := (c.now.toNat * 16 + c.frac.toNat : Nat)
      let sent : Int := (t1 * 16 + f1 : Nat)
      let delay := (t4 - sent - (t.step.toNat : Int)) / 2
      let t3 : Int := (expand48 c.now.toNat t.tick.toNat * 16 + t.frac.toNat : Nat)
      let off := t3 + delay - t4
      let sat : Int := if off > 32767 then 32767 else if off < -32768 then -32768 else off
      let c := { c with reqTick := none, hops := hops, offset := BitVec.ofInt 16 sat,
                        delay := BitVec.ofNat 16 (min 65535 (delay / 16).toNat) }
      if hops > 8 then raise 8 5 0 { s with clk := { c with locked := false, onRef := true, slew := 0 } }
      else if !stepBarred s then
        let v := (t3 + delay).toNat
        { s with clk := { c with now := BitVec.ofNat 64 (v / 16), frac := BitVec.ofNat 4 v, slew := 0, locked := true,
                                 onRef := false } }
      else
        let s := { s with clk := { c with slew := off, locked := decide (off.natAbs ≤ 2), onRef := false } }
        if off.natAbs > 64 * 16 then raise 8 5 0 s else s
  | _, _ => r.2
def execTimeResp (via : TokenVia) (t : Token) (s : State) : Host.Outcome State Fault Refusal := .next (refresh (timeResp via t s))

/-- TIME_PARENT_LOST: the counter runs from the reference, TIME_LOST sets, releases go on (R118). -/
def execTimeParentLost (s : State) : Host.Outcome State Fault Refusal :=
  .next (if s.clk.parentOk then raise 8 5 0 { s with clk := { s.clk with locked := false, onRef := true, reqTick := none, slew := 0 } }
         else s)

/-! ### Proof ports and wires -/

/-- Whether a proof port is in use: in an enabled partition's tree, or towards the time parent. -/
def portInUse (s : State) (port : Nat) : Bool :=
  s.enabledParts.any (fun p => (treePorts (s.part p)).contains port) || (s.clk.parentOk && s.clk.parent.val == port)

/-- PROOF_PORT_DOWN: tokens travel on the mirrors (R124, R153, R739). -/
def proofPortDown (port : Nat) (s : State) : State :=
  let mir := !(mirrorsOf s port).isEmpty
  let s := { s with prfUp := putBit s.prfUp port false, prfMir := putBit s.prfMir port mir }
  if portInUse s port then raise 8 6 port s else s
def execProofPortDown (port : Fin 8) (s : State) : Host.Outcome State Fault Refusal := .next (proofPortDown port.val s)

/-- PROOF_PORT_UP: the port has trained and learnt its peer's identity (R494, R739). A partition whose tree uses the
port measures D at its next release (R126). -/
def proofPortUp (port : Nat) (peer : BitVec 64) (s : State) : State :=
  let s := { s with prfUp := putBit s.prfUp port true, prfMir := putBit s.prfMir port false,
                    prfPeer := Tab.set 0 s.prfPeer port peer }
  s.enabledParts.foldl (fun s p =>
    if (treePorts (s.part p)).contains port then s.modPart p (fun x => { x with treeNew := true }) else s) s
def execProofPortUp (port : Fin 8) (peer : BitVec 64) (s : State) : Host.Outcome State Fault Refusal :=
  .next (proofPortUp port.val peer s)

/-- SITE_ARRIVE_IN: the occupant's work for the step has ended (R120, R468). -/
def execSiteArriveIn (n : Fin 18) (s : State) : Host.Outcome State Fault Refusal :=
  .next (s.modSite n.val (fun t => { t with arrived := true }))

/-- SITE_RELEASE_IN: the occupant answers the RELEASE_OUT edge (R120). -/
def execSiteReleaseIn (n : Fin 18) (s : State) : Host.Outcome State Fault Refusal :=
  .next (s.modSite n.val (fun t => { t with relAck := true }))

/-- SITE_ACK_TIMEOUT: 64 ticks passed with no RELEASE_IN edge (R121). -/
def siteAckTimeout (n : Nat) (s : State) : State :=
  let t := s.site n
  if t.relAck || !(t.state == .admitted || t.state == .retrain) then s
  else raise 8 3 n { (s.setSite n { t with relAck := true }) with siteAck := putBit s.siteAck n true }
def execSiteAckTimeout (n : Fin 18) (s : State) : Host.Outcome State Fault Refusal := .next (siteAckTimeout n.val s)

/-! ### Partition control (R152) -/

/-- PART_HOLD: the hold applies at the next proof, or at the one after where RELEASE has gone out (R150). -/
def partHold (p : Nat) (s : State) : State :=
  let x := s.part p
  if x.armed.isSome && x.state == .waiting then s.setPart p { x with holdNext := true }
  else s.setPart p { x with hostHold := true }
def execPartHold (p : Fin 64) (s : State) : Host.Outcome State Fault Refusal := .next (partHold p.val s)

/-- Whether RELEASE is accepted: from HELD, or from STOPPED where the image enables the partition, a starter is available and
the package is not stopped (R110, R152); not while the schedule uses a fenced bank, channel or stack (R357).
[DEDUCED, log entry 30] -/
def canRelease (s : State) (p : Nat) : Bool :=
  let x := s.part p
  !memFenced s p && match x.state with
  | .held => true
  | .stopped => x.cfg.enable && (starterOf s p).isSome && !s.flt.stopped
  | _ => false

/-- PART_RELEASE: the member becomes ready for a distributed release (R135); refused in any other state. -/
def partRelease (p : Nat) (s : State) : State :=
  if canRelease s p then refresh (becomeReady p s) else refuseWrite 8 s
def execPartRelease (p : Fin 64) (s : State) : Host.Outcome State Fault Refusal := .next (partRelease p.val s)

/-- PART_REMEASURE: D is measured at the next release from HELD (R126, R152). -/
def execPartRemeasure (p : Fin 64) (s : State) : Host.Outcome State Fault Refusal :=
  .next (s.modPart p.val (fun x => { x with remeasure := true }))

/-- Whether a run-time starter can be written: in STOPPED and HELD, unless the policy takes the image's starter only (R141,
R142). -/
def starterOpen (s : State) (p : Nat) : Bool :=
  ((s.part p).state == .stopped || (s.part p).state == .held) && starterPolicy s != 1

/-- STARTER_ARM: the write of STREAM arms the run-time starter (R142). -/
def starterArm (p : Nat) (stream : Word) (s : State) : State :=
  let x := s.part p
  if starterOpen s p then
    s.setPart p { x with runStarter := some { seed := x.seedHi ++ x.seedLo, stream := stream } }
  else refuseWrite 8 s
def execStarterArm (p : Fin 64) (stream : Word) (s : State) : Host.Outcome State Fault Refusal := .next (starterArm p.val stream s)

/-- STEP_COUNTER_ARM: the write of STEP_HI arms the new step counter; refused while RUNNING or WAITING (R150, R152). -/
def stepCounterArm (p : Nat) (hi : Word) (s : State) : State :=
  let x := s.part p
  if x.active then refuseWrite 8 s else s.setPart p { x with stepNew := some (hi ++ x.stepLo) }
def execStepCounterArm (p : Fin 64) (hi : Word) (s : State) : Host.Outcome State Fault Refusal := .next (stepCounterArm p.val hi s)

end Sys2Proof.Machine
end

