-- ==== Sys2Proof/Machine/Noc.lean ====
section
/-! DEFINITION. The commands of the on-chip network: requests at their targets, responses at their initiators,
timeouts and the miss windows (R280 to R282, R325, R364 to R398, R430, R460). -/
namespace Sys2Proof.Machine
open Sys2Proof

/-- The check of a packet's head flit (R394): whether the packet is discarded, at the router input that it reached last.
[DEDUCED, log entry 47] -/
def headCheck (head : Ecc) (p : Packet) (s : State) : Bool × State :=
  let k := checkEcc 10 1 true head s
  match k.1 with
  | .clean => (false, k.2)
  | .corrected => (false, { k.2 with noc := { k.2.noc with flitCe := satInc k.2.noc.flitCe } })
  | .uncorrectable => (true, raise 10 1 0 (recordDrop p.at_ p.vn p.vc p.dst (losePacket p k.2)))

/-! ### Requests for an occupant's memory (R430, R460, R489) -/

/-- Refuse a request at its target (R282): a read returns poison, whose data is open. -/
def refuseReq (r : Req) (s : State) : State :=
  let s := s.modReq r.tag (fun r => { r with gone := true, held := false })
  if r.write then pushResp { tag := r.tag, data := [], poison := false, refused := true } s
  else let f := freeBytes r.len s; pushResp { tag := r.tag, data := f.1, poison := true, refused := true } f.2

/-- A request that passed its inbound window goes to the occupant; it waits while no tag or credit is free.
[DEDUCED, log entry 47] -/
def toOccupant (n off : Nat) (r : Req) (s : State) : State :=
  let t := s.site n
  let k := reqLines r
  let o := off % 64
  let limit := if isGelja t then t.maxTags else 3840
  match (List.range limit).find? (fun g => !(t.outs.any (fun x => x.tag == g))) with
  | none => s
  | some tag =>
    let credit := if r.write then Tab.get 0 t.credits 2 else Tab.get 0 t.credits 0
    let cost := if r.write then k else 1
    if isGelja t && decide (credit < cost) then s
    else
      let be : Nat := (r.be.getD (2 ^ r.len - 1) % 2 ^ r.len) <<< o
      let lineData := List.replicate o 0#8 ++ r.data ++ List.replicate (64 * k - o - r.len) 0#8
      let t2 := { t with outs := t.outs ++ [{ tag := tag, req := r.tag, rd := !r.write }],
                         credits := if isGelja t then Tab.upd 0 t.credits (if r.write then 2 else 0) (· - cost) else t.credits }
      let s := (s.setSite n t2).modReq r.tag (fun r => { r with gone := true })
      let whole := decide (2 ≤ k) || decide (be = 2 ^ 64 - 1)
      if isGelja t then
        geljaTo n (if !r.write then 1 else if whole then 2 else 7)
          { len := BitVec.ofNat 3 k, tag := BitVec.ofNat 12 tag, ctx := BitVec.ofNat 10 r.ctx, stepValid := r.sched,
            step16 := r.step.setWidth 16, addr := BitVec.ofNat 48 (off / 64 * 64),
            be := if !r.write || whole then 0 else BitVec.ofNat 64 be, poison := r.write && r.poison,
            data := if r.write then lineData else [] } s
      else s.emit (.cxlMem n (if !r.write then "MemRd" else if whole then "MemWr" else "MemWrPtl") "No-Op" "No-Op" tag (off / 64 * 64)
                     (if r.write then lineData else []))

/-! ### NOC_READ and NOC_WRITE -/

/-- The site whose memory a request names. -/
def siteOf (s : State) (r : Req) : Option Nat := match paSpot s r.addr with
  | .site n _ => some n
  | _ => none

/-- A request for an occupant waits while the site retrains (R437), and while an older one of the same initiator for the site is on
its way (R459). -/
def waitsForSite (s : State) (r : Req) : Bool :=
  match siteOf s r with
  | none => false
  | some n => (s.site n).state == .retrain ||
      s.noc.reqs.any (fun q => q.who == r.who && decide (q.tag < r.tag) && !q.gone && !q.host && siteOf s q == some n)

/-- Whether two requests touch a common byte. -/
def sameByte (a b : Req) : Bool := decide (a.addr < b.addr + b.len) && decide (b.addr < a.addr + a.len)

/-- A cell's GET waits while an older PUT of the same cell to the same line is not acknowledged (R173); a write of an engine
waits while an older write of the engine to a common byte is open, so that they take effect in issue order (R298). -/
def waitsForPut (s : State) (r : Req) : Bool :=
  match r.who with
  | .cell _ => !r.write && s.noc.reqs.any (fun q => q.who == r.who && q.write && decide (q.tag < r.tag) &&
      (linesOf q.addr q.len).any ((linesOf r.addr r.len).contains ·))
  | .xfe _ => r.write && s.noc.reqs.any (fun q => q.who == r.who && q.write && !q.host && decide (q.tag < r.tag) && sameByte q r)
  | _ => false

/-- A request is served at the memory or the occupant that its packet has reached. A read's check of the stored data (R341) is that of
the line that holds its byte `off`. -/
def serveReq (r : Req) (off : Nat) (ecc : Ecc) (s : State) : State :=
  match paSpot s r.addr with
  | .site n off =>
    if inboundOk s n off r.len r.ctx r.write then toOccupant n off r s
    else refuseReq r (raise 16 8 n s)
  | _ =>
    let s := s.modReq r.tag (fun r => { r with gone := true, lines := pieces r.addr r.len })
    let s := match r.write, memCheck s r.addr r.ctx, ecc with
      | false, .pass g, .corrected => countCe g s
      | false, .pass g, .uncorrectable => strikeUe g (r.addr + min off (r.len - 1)) s
      | _, _, _ => s
    atHome [.noc r.tag] s

/-- The check of a write's data flits (R394): an uncorrectable one is forwarded with POISON set. -/
def flitCheck (tag : Nat) (flits : Ecc) (s : State) : State :=
  match flits with
  | .clean => s
  | .corrected => { s with noc := { s.noc with flitCe := satInc s.noc.flitCe } }
  | .uncorrectable => s.modReq tag (fun r => { r with poison := true })

/-- A request that has crossed the network is served at its target; its packet leaves the network unless the target cannot take
it yet. -/
def nocRequest (write : Bool) (tag off : Nat) (head ecc : Ecc) (s : State) : State :=
  match s.reqOf tag, arrivedPacket s tag false with
  | some r, some p =>
    if r.gone || r.host || r.write != write || r.resp.isSome || waitsForPut s r || waitsForSite s r then s
    else
      let c := headCheck head p s
      let s := if c.1 then c.2
               else if write then
                 let s := flitCheck tag ecc c.2
                 serveReq { r with poison := r.poison || ecc == .uncorrectable } 0 .clean s
               else serveReq r off ecc c.2
      let s := match s.reqOf tag with
        | some q => if q.gone then takePacket p.id s else s
        | none => takePacket p.id s
      match r.who with
      | .xfe e => pumpXfe e none s
      | _ => s
  | _, _ => s

/-- NOC_READ (R280). -/
def execNocRead (tag off : Nat) (head ecc : Ecc) (s : State) : Host.Outcome State Fault Refusal :=
  .next (nocRequest false tag off head ecc s)

/-- NOC_WRITE (R280). -/
def execNocWrite (tag : Nat) (head flits : Ecc) (s : State) : Host.Outcome State Fault Refusal :=
  .next (nocRequest true tag 0 head flits s)

/-! ### Responses at the initiators (R369, R370, R457, R461) -/

/-- An occupant's request is answered. Opcodes from 0x80 stand for CXL requests that travel the NoC: 0x80 CXL.io read,
0x81 CXL.io write, 0x82 RdCurr, 0x83 a CXL.cache write. -/
def answerSite (n t op : Nat) (r : Req) (bs : List Byte) (poison refused : Bool) (s : State) : State :=
  let st := if refused then 4 else if poison then 5 else 0
  let up := let x := s.site n; x.state == .admitted || x.state == .retrain
  if op < 0x80 then
    answerGelja n (answerOp op)
      { tag := BitVec.ofNat 12 t, ctx := BitVec.ofNat 10 r.ctx, status := BitVec.ofNat 8 (if r.write && !refused then 0 else st),
        len := if r.write then 0 else BitVec.ofNat 3 (r.len / 64), poison := !r.write && (poison || refused),
        data := if r.write then [] else bs } false s
  else if !up then s
  else if op = 0x80 then s.emit (.cxl n "CplD" t r.iova bs (poison || refused))
  else if op = 0x82 then s.emit (.cxl n "Data" t r.iova bs (poison || refused))
  else if op = 0x83 then (s.emit (.cxl n "GO_WritePull" t r.iova [] false)).emit (.cxl n "ExtCmp" t r.iova [] false)
  else s

/-- A response reaches what its request was for. -/
def deliver (r : Req) (bs : List Byte) (poison refused : Bool) (s : State) : State :=
  let s := completeStats r (s.dropReq r.tag)
  match r.use with
  | .plain => (match r.who with | .cell n => cellAck n s | _ => s)
  | .get n => cellReturn n r.tag bs poison s
  | .xread e _ => xfeRead e r.tag bs poison s
  | .xwrite e _ => xfeWrote e r.tag refused s
  | .site n t op => answerSite n t op r bs poison refused s
  | .ring _ => s
  | .posted _ => s
  | .audit p => auditRead p r.tag bs s
  | .cread c => collRead c r.tag bs poison refused s
  | .cwrite c => collWrote c r.tag refused s

/-- Read responses of an initiator leave its port in the order of issue (R370). The fuel is the number of requests. -/
def drainReads : Nat → Initiator → State → State
  | 0, _, s => s
  | k + 1, who, s =>
    match s.noc.reqs.find? (fun r => r.who == who && !r.write && !r.host) with
    | some r =>
      (match r.resp with
       | some (bs, poison, refused) => drainReads k who (deliver r bs poison refused s)
       | none => s)
    | none => s

/-- A response is at its port: writes complete at once, reads in their turn. -/
def arriveResp (r : Req) (bs : List Byte) (poison refused : Bool) (s : State) : State :=
  if r.write then deliver r bs poison refused s
  else drainReads s.noc.reqs.length r.who (s.modReq r.tag (fun r => { r with resp := some (bs, poison, refused), gone := true }))

/-- Take a response of a kind off the network. -/
def takeResp (tag : Nat) (s : State) : Option Resp × State :=
  match s.noc.resps.find? (fun p => p.tag == tag) with
  | none => (none, s)
  | some p => (some p, { s with noc := { s.noc with resps := s.noc.resps.erase p } })

/-- A response packet has reached its port, with the outcome of the checks of its head and data flits. -/
def nocResponse (want : Resp → Req → Bool) (tag : Nat) (head flits : Ecc) (s : State) : State :=
  match s.reqOf tag, s.noc.resps.find? (fun p => p.tag == tag), arrivedPacket s tag true with
  | some r, some a, some p =>
    if !want a r || r.resp.isSome then s
    else
      let s := takePacket p.id (takeResp tag s).2
      let c := headCheck head p s
      if c.1 then c.2
      else
        let s := match flits with
          | .corrected => { c.2 with noc := { c.2.noc with flitCe := satInc c.2.noc.flitCe } }
          | _ => c.2
        arriveResp r a.data (a.poison || flits == .uncorrectable) a.refused s
  | none, some _, _ => (takeResp tag s).2
  | _, _, _ => s

/-- NOC_READ_DATA (R369): an uncorrectable data flit arrives as poison (R394). -/
def execNocReadData (tag : Nat) (head flits : Ecc) (s : State) : Host.Outcome State Fault Refusal :=
  .next (nocResponse (fun _ r => !r.write) tag head flits s)

/-- NOC_WRITE_ACK (R369). -/
def execNocWriteAck (tag : Nat) (head : Ecc) (s : State) : Host.Outcome State Fault Refusal :=
  .next (nocResponse (fun p r => r.write && !p.refused) tag head .clean s)

/-- NOC_REFUSE (R369). -/
def execNocRefuse (tag : Nat) (head : Ecc) (s : State) : Host.Outcome State Fault Refusal :=
  .next (nocResponse (fun p r => r.write && p.refused) tag head .clean s)

/-- RESP_TIMEOUT: after 24,000 ticks the initiator completes the request itself, as poison or refusal (R394).
[DESIGN CHOICE, log entry 8] -/
def respTimeout (tag : Nat) (s : State) : State :=
  match s.reqOf tag with
  | none => s
  | some r =>
    if r.host || r.resp.isSome then s
    else
      let s := raise 10 4 (portOf r.who) { s with noc := { s.noc with timeouts := satInc s.noc.timeouts,
                                                                      resps := s.noc.resps.filter (fun p => p.tag != tag) } }
      let f := if r.write then ([], s) else freeBytes r.len s
      arriveResp { r with held := false } f.1 (!r.write) r.write f.2
def execRespTimeout (tag : Nat) (s : State) : Host.Outcome State Fault Refusal := .next (respTimeout tag s)

/-- Whether the head of a slice of a router input has not advanced for 12,000 ticks. -/
def sliceStalled (router input : Nat) (s : State) : Bool :=
  s.noc.net.bufs.any (fun b => keyRouter b.1 == router && keyInput b.1 == input && (match b.2 with
    | f :: _ => decide (f.since + 24000 ≤ s.noc.net.cycle)
    | [] => false))

/-- SLICE_STALL (R394): STALL sets where the head of a slice has stood still for 12,000 ticks. -/
def sliceStall (router input : Nat) (s : State) : State := if sliceStalled router input s then raise 10 5 router s else s
def execSliceStall (router : Fin 96) (input : Fin 8) (s : State) : Host.Outcome State Fault Refusal :=
  .next (sliceStall router.val input.val s)

/-- QOS_MISS_WINDOW_EXPIRY: the partition's miss count restarts (R385). -/
def execQosMissWindowExpiry (p : Fin 64) (s : State) : Host.Outcome State Fault Refusal :=
  .next (s.setQpart p.val { s.qpart p.val with missNow := 0 })

/-- The audits of the partitions go on (R143). -/
def auditAll (s : State) : State := (Tab.keysWhere s.parts (fun x => auditDue x)).foldl (fun s p => auditStep p s) s

/-- Host packets that have passed their bucket go to the host endpoint: a read waits there for its completion, a posted write is done.
[DESIGN CHOICE, log entry 101] -/
def hostLeave (s : State) : State :=
  (s.noc.reqs.filter (fun r => r.host && !r.held && !r.gone)).foldl (fun s r =>
    if !r.write then hostReadGo r s
    else
      let s := completeStats r ((s.dropReq r.tag).emit (.hostWrite (hostTlp s) r.addr r.data r.poison))
      match r.who with
      | .xfe e => xfePosted e r.tag s
      | _ => s) s

/-- What waited for tokens at a port goes on: host packets, engines, entries of completion rings,
and credits that a site was not given back; the sites' links send (R382, R445). -/
def portsMove (s : State) : State :=
  let held := (s.noc.reqs.filter (fun r => r.held)).map (·.tag)
  let s := hostLeave (nocTick s)
  let left := held.filter (fun t => match s.reqOf t with | some r => !r.held | none => true)
  let s := if left.isEmpty then s else pumpAll s
  let s := (Tab.keysWhere s.vis (fun x => !x.held.isEmpty && x.state == .attached)).foldl (fun s v => deliverHeld v s) s
  sendFlits ((Tab.keysWhere s.sites (fun t => t.owedReq != 0 || t.owedDat != 0)).foldl (fun s n => payCredits n s) s)

/-- One tick passes with no command: the time base counts, the network runs two cycles and audits go on (R113, R116, R143, R366).
[DESIGN CHOICE, log entry 3] -/
def idleTick (s : State) : State := auditAll (portsMove (stallTick { s with clk := tickClock s.clk }))

end Sys2Proof.Machine
end

