-- ==== Sys2Proof/Machine/Defects.lean ====
section
/-! DEFINITION. The defect map of OTP: its entries, their check code, the rows they name, and appending (R730 to R733, R820). -/
namespace Sys2Proof.Machine
open Sys2Proof

/-- Code positions of DATA bits 0 to 31: the integers from 3 upward that are no power of two (R820). -/
def checkPositions : List Nat := (List.range 39).filter (fun n => decide (3 ≤ n) && !([4, 8, 16, 32].contains n))

/-- CHECK of a DATA word: six position parities, then the parity that makes the number of ones even (R820). -/
def checkOf (d : Nat) : Nat :=
  let on := (checkPositions.zip (List.range 32)).filter (fun e => d.testBit e.2)
  let low := (List.range 6).foldl (fun a j => a + (on.filter (fun e => e.1.testBit j)).length % 2 * 2 ^ j) 0
  low + 64 * ((popcount 32 d + popcount 6 low) % 2)

/-- Fields of an entry: DATA in the low word, CHECK and COMMIT in the high word (R730). -/
def entryData (e : BitVec 64) : Nat := bits e.toNat 0 32
def entryCheck (e : BitVec 64) : Nat := bits e.toNat 32 7
def entryCommit (e : BitVec 64) : Bool := e.toNat.testBit 39

/-- Whether an entry counts (R731). -/
def entryCounts (e : BitVec 64) : Bool :=
  entryCommit e && entryCheck e == checkOf (entryData e) && decide (1 ≤ entryData e / 0x10000000) && decide (entryData e / 0x10000000 ≤ 6)

/-- DATA words of the entries that count. -/
def mapUnitsOf (s : State) : List Nat := (s.lcs.otp.defects.filter entryCounts).map entryData

/-- A committed entry of a DATA word. -/
def newEntry (d : Nat) : BitVec 64 := BitVec.ofNat 64 (d % 2 ^ 32 + (checkOf (d % 2 ^ 32) + 128) * 2 ^ 32)

/-- Append a unit (R732, R733): an entry whose COMMIT is clear but which is not empty becomes void; the new entry goes into the
first empty slot of 2,048. None: the map is full, or the state does not permit firmware to append. [DEDUCED, log entry 73] -/
def appendDefect (d : Nat) (s : State) : Option State :=
  let o := s.lcs.otp
  let l := o.defects.map (fun e => if entryCommit e || e == 0 then e else BitVec.allOnes 40 |>.setWidth 64)
  let lc := lifeCycle s
  let i := l.findIdx (· == 0)
  if lc = 0 ∨ lc = 4 ∨ 2048 ≤ i then none
  else some { s with lcs := { s.lcs with otp := { o with defects := l.take i ++ newEntry d :: l.drop (i + 1) } } }

/-- Units at their third consecutive find enter the map; a full map leaves a MAP_FULL log entry (R736). [DEDUCED, log entry 73] -/
def appendFindings (s : State) : State :=
  s.mgt.findings.foldl (fun s f =>
    if f.2 < 3 then s
    else match appendDefect f.1.toNat s with
      | some s => writeLog 0x40 1 4 (f.1.toNat / 0x10000000) f.1.toNat 0 { s with mgt := { s.mgt with findings := s.mgt.findings.filter (fun g => g.1 != f.1) } }
      | none => writeLog 0x40 1 4 0xFF f.1.toNat 0 s) s

/-! ### Lanes and modules of the sites and ports (R413, R734 to R736) -/

/-- A finding on a lane, a module or a SerDes lane. -/
def linkUnit (d : Nat) : Bool := decide (4 ≤ d / 0x10000000) && decide (d / 0x10000000 ≤ 6)

/-- DATA of a UCIe lane and of a UCIe module: modules of a unit are numbered from its even half on. -/
def laneData (e : Nat) (x : Nat × Nat) : Nat := 0x40000000 + (e + x.1 / 4) * 512 + x.1 % 4 * 128 + x.2 % 128
def moduleData (e m : Nat) : Nat := 0x50000000 + (e + m / 4) * 512 + m % 4 * 128

/-- Whether a unit of the map is a lane, or a module, of one of some sites. -/
def ofSites (ty : Nat) (ks : List Nat) (d : Nat) : Bool := decide (d / 0x10000000 = ty) && ks.contains (bits d 9 5)

/-- Findings after a change; in service the last-good record takes them too, with the number of entries of the map. -/
def putFindings (l : List (BitVec 32 × Nat)) (s : State) : State :=
  let n := (mapUnitsOf s).length
  let fl := s.mgt.flash
  let fl := if s.mgt.stage == .complete then { fl with good := fl.good.map (fun (g : GoodRec) => { g with findings := l, defects := n }) } else fl
  { s with mgt := { s.mgt with findings := l, flash := fl } }

/-- What the training of a unit of the sites found: its first training in a start counts the findings of its lanes and modules
as a test of them does; a later one makes new findings (R413, R735, R736). [DEDUCED, log entry 73] -/
def judgeLinks (e : Nat) (ks found : List Nat) (s : State) : State :=
  let listed := mapUnitsOf s
  let found := (found.filter (fun d => !listed.contains d)).eraseDups
  if s.mgt.linkTests.contains e then found.foldl (fun s d => addFinding (BitVec.ofNat 32 d) s) s
  else
    let old := s.mgt.findings
    let mine := fun (d : Nat) => ofSites 4 ks d || ofSites 5 ks d
    let kept := old.filterMap (fun f =>
      if !mine f.1.toNat || decide (3 ≤ f.2) then some f else if found.contains f.1.toNat then some (f.1, f.2 + 1) else none)
    let new := (found.filter (fun d => !old.any (fun f => f.1.toNat == d))).map (fun d => (BitVec.ofNat 32 d, 1))
    let s := appendFindings { s with mgt := { s.mgt with linkTests := e :: s.mgt.linkTests, findings := kept ++ new } }
    putFindings s.mgt.findings s

/-- Lanes of a step-link port that the map lists (R734). -/
def mapLanes (s : State) (n : Nat) : BitVec 4 :=
  (mapUnitsOf s).foldl (fun m d => if d / 0x10000000 = 6 ∧ d.testBit 6 = false ∧ bits d 3 3 = n then putBit m (bits d 1 2) true else m) 0#4

/-- The physical address of the first byte of an SRAM or HBM row that a DATA word names (R324, R326, R327): a spare SRAM
row has none. -/
def rowPa (d : Nat) : Option Nat :=
  if d / 0x10000000 = 2 then
    if bits d 0 13 < 5120 then some (bankBase (bits d 13 6) + bits d 0 13 * 1024) else none
  else if d / 0x10000000 = 3 then
    some (chanBase (bits d 25 3) (bits d 20 5) + bits d 0 13 * 0x40000 + bits d 17 2 * 0x10000 + bits d 13 2 * 0x200 +
          bits d 15 2 * 0x80 + bits d 19 1 * 0x40)
  else none

/-- The DATA word of the row that holds a physical address. -/
def rowData (s : State) (pa : Nat) : Nat :=
  match paSpot s pa with
  | .sram b _ => 0x20000000 + b * 8192 + pa % 0x800000 / 1024
  | .hbm m ch _ =>
    let o := pa % 0x80000000
    0x30000000 + m * 2 ^ 25 + ch * 2 ^ 20 + bits o 6 1 * 2 ^ 19 + bits o 16 2 * 2 ^ 17 + bits o 7 2 * 2 ^ 15 + bits o 9 2 * 2 ^ 13 + bits o 18 13
  | _ => 0

/-- The bank of a pseudo-channel and SID that holds an address: the unit of PPR resources (R819). -/
def pprKey (m ch pa : Nat) : Nat :=
  let o := pa % 0x80000000
  (m * 32 + ch) * 128 + bits o 16 2 * 32 + bits o 6 5

/-- Whether firmware may burn a hard PPR fuse for a row (R353). -/
def hardPermitted (s : State) (d : Nat) : Bool := lifeCycle s == 0 || (lifeCycle s == 1 && (mapUnitsOf s).contains d)

/-- Burn a hard PPR fuse for a row, if the stack still offers one. [DESIGN CHOICE, log entry 44] -/
def hardRepair (m ch pa : Nat) (s : State) : Option State :=
  let k := pprKey m ch pa
  let used := Tab.get 0 s.mem.hppr k
  if Config.hardOffer k ≤ used then none
  else
    let c := m * 32 + ch
    let s := s.setChan c { s.chan c with hard := satInc (s.chan c).hard }
    some { s with mem := { s.mem with hppr := Tab.set 0 s.mem.hppr k (used + 1) } }

/-- Replace a row: by a spare row, by soft PPR, or by hard PPR where R353 permits it (R354, R819); in SCRAPPED nothing is used (R353). None: nothing is left.
[DESIGN CHOICE, log entry 44] -/
def replaceRow (pa : Nat) (s : State) : Option State :=
  if lifeCycle s = 4 then none
  else match paSpot s pa with
  | .sram b _ =>
    let x := s.bank b
    if x.spares = 0 then none else some (s.setBank b { x with spares := x.spares - 1 })
  | .hbm m ch _ =>
    let k := pprKey m ch pa
    let used := Tab.get 0 s.mem.ppr k
    if used < 1 + Config.pprExtra k then
      let c := m * 32 + ch
      let s := s.setChan c { s.chan c with soft := satInc (s.chan c).soft }
      some { s with mem := { s.mem with ppr := Tab.set 0 s.mem.ppr k (used + 1) } }
    else if hardPermitted s (rowData s pa) then hardRepair m ch pa s else none
  | _ => some s

end Sys2Proof.Machine
end

