-- ==== Sys2Proof/Machine/Site.lean ====
section
/-! DEFINITION. The commands of a site's admission, its retraining, its fences and its voltage (R399 to R444). A double
site is one unit under its even half (R16, R434, R435). -/
namespace Sys2Proof.Machine
open Sys2Proof

/-- Change the even half's record. -/
def modEven (n : Nat) (f : Site → Site) (s : State) : State := s.modSite (evenOf s n) f
def evenSite (s : State) (n : Nat) : Site := s.site (evenOf s n)

/-! ### Rails and straps (R404, R406) -/

/-- Whether an admission can start at a unit: it is OFF with an expected class and a record, no flush holds its domains, and
its domains have rested (R406, R410, R484). -/
def startOk (s : State) (e : Nat) : Bool :=
  let h := s.site e
  h.state == .off && !h.startPend && h.cls != 0 && decide (h.cls ≤ 4) && !h.cfg.isEmpty && coreRested s e &&
    (halves s e).all (fun k => !(s.site k).flushing) && !(e % 2 == 1 && (s.site (e - 1)).flushOdd)

/-- SITE_ADMISSION_START: an OFF site with an expected class and a record powers up, and its straps are read. The site
domain switches at the owner's next proof where the owner is RUNNING or WAITING, and at once otherwise (R22, R24). The odd
half of a double site follows its even half: its straps are read too. [DEDUCED, log entry 49] -/
def siteAdmissionStart (n : Nat) (st sc : BitVec 6) (s : State) : State :=
  let e := evenOf s n
  let h := s.site e
  let sample := fun (s : State) => s.modSite n (fun t => { t with strapT := st, strapC := sc, strapIn := true })
  if s.flt.stopped || h.paused then s
  else if n ≠ e then
    if h.state == .rails && !(s.site n).strapIn then readStraps n (sample s) else if h.startPend then sample s else s
  else if !startOk s e then s
  else
    let s := sample ((halves s e).foldl (fun s k => s.modSite k (fun t => { t with strapIn := false })) s)
    if ownerActive s h.owner then s.modSite e (fun t => { t with startPend := true }) else enterRails e s
def execSiteAdmissionStart (n : Fin 18) (strapT strapC : BitVec 6) (s : State) : Host.Outcome State Fault Refusal :=
  .next (siteAdmissionStart n.val strapT strapC s)

/-- SITE_CORE_REGULATED: with every half's straps passed the site enters LINK. -/
def siteCoreRegulated (n : Nat) (s : State) : State :=
  if (evenSite s n).state == .rails && admits (evenSite s n) && (halves s n).all (fun k => (s.site k).strapOk) then siteState n .link s else s
def execSiteCoreRegulated (n : Fin 18) (s : State) : Host.Outcome State Fault Refusal := .next (siteCoreRegulated n.val s)

/-- SITE_RAILS_TIMEOUT. -/
def siteRailsTimeout (n : Nat) (s : State) : State :=
  if (evenSite s n).state == .rails && admits (evenSite s n) then failSite n .rail 1 s else s
def execSiteRailsTimeout (n : Fin 18) (s : State) : Host.Outcome State Fault Refusal := .next (siteRailsTimeout n.val s)

/-! ### Link, protocol and identity (R413 to R416, R462, R463) -/

/-- SIDEBAND_DETECTED: the class that the DVSEC of a CXL occupant gives is noted (R415): 2 compute, 4 I/O, none where the
occupant does not agree to CXL. -/
def sidebandDetected (n : Nat) (cxl : Option Bool) (s : State) : State :=
  let t := evenSite s n
  if t.state != .link || t.sideband || !admits t then s
  else modEven n (fun t => { t with sideband := true, found := if isGelja t then 0 else match cxl with
    | some true => 2
    | some false => 4
    | none => 0 }) s
def execSidebandDetected (n : Fin 18) (cxlCompute : Option Bool) (s : State) : Host.Outcome State Fault Refusal :=
  .next (sidebandDetected n.val cxlCompute s)

/-- SIDEBAND_TIMEOUT. -/
def sidebandTimeout (n : Nat) (s : State) : State :=
  let t := evenSite s n
  if t.state == .link && !t.sideband && admits t then failSite n .absent 3 s else s
def execSidebandTimeout (n : Fin 18) (s : State) : Host.Outcome State Fault Refusal := .next (sidebandTimeout n.val s)

/-- MIN_MODULES of the site's record. -/
def minModules (t : Site) : Nat := t.fld 8 6 4

/-- What a training leaves at a unit: lanes repaired and modules disabled are noted for the defect map; those that the map lists
are repaired and disabled whatever the training found (R413, R734). -/
def noteTraining (e modules : Nat) (repaired : List (Nat × Nat)) (disabled : List Nat) (s : State) : State :=
  let ks := halves s e
  let lanes := repaired.map (laneData e)
  let off := disabled.map (moduleData e)
  let lanesAll := (lanes ++ (mapUnitsOf s).filter (ofSites 4 ks)).eraseDups.length
  let offAll := (off ++ (mapUnitsOf s).filter (ofSites 5 ks)).eraseDups.length
  judgeLinks e ks (lanes ++ off) (s.modSite e (fun t => { t with modules := min modules (4 * ks.length - offAll), repaired := lanesAll }))

/-- SITE_TRAINING_DONE: a disabled module is reported; a half that does not respond fences the site ABSENT; too few
modules fence it LINK; a CXL occupant's class is compared at once (R413, R415, R416). -/
def siteTrainingDone (n modules : Nat) (repaired : List (Nat × Nat)) (disabled : List Nat) (both : Bool) (s : State) : State :=
  let t := evenSite s n
  let e := evenOf s n
  if t.state != .link || !t.sideband || !admits t then s
  else
    let s := noteTraining e modules repaired disabled s
    let s := if disabled.isEmpty then s else raise 16 9 e s
    if t.double && !both then failSite n .absent 3 s
    else if (s.site e).modules < minModules t then failSite n .link 4 s
    else
      let s := siteState n .negotiate s
      if isGelja t then s
      else if t.found = t.cls then siteState n .attest s
      else failSite n .classR 5 s
def execSiteTrainingDone (n : Fin 18) (modules : Nat) (repaired : List (Nat × Nat)) (disabled : List Nat) (bothHalves : Bool) (s : State) :
    Host.Outcome State Fault Refusal := .next (siteTrainingDone n.val modules repaired disabled bothHalves s)

/-- NEGOTIATE_TIMEOUT. -/
def negotiateTimeout (n : Nat) (s : State) : State :=
  if (evenSite s n).state == .negotiate && admits (evenSite s n) then failSite n .classR 5 s else s
def execNegotiateTimeout (n : Fin 18) (s : State) : Host.Outcome State Fault Refusal := .next (negotiateTimeout n.val s)

/-! ### Attestation (R417 to R421) -/

/-- The result of an attestation (R418). -/
def attestResult (t : Site) (a : AttestIn) : AttestRes :=
  let roots := min 4 (t.fld 0x14 11 3)
  if a.unsupported || a.silent then .unattested
  else if !a.algOk || !a.sigsOk then .failed
  else if roots = 0 then .unattested
  else if (List.range roots).any (fun k => BitVec.ofNat 384 (t.fld (0x30 + 48 * k) 0 384) == a.rootDig) then .attested
  else .failed

/-- Code of a result (R442). -/
def AttestRes.code : AttestRes → Nat
  | .none => 0 | .attested => 1 | .unattested => 2 | .failed => 3

/-- The measurement of a site (R421, R613): result, chain digest, measurement digest. The manual fixes no byte form.
[DEDUCED, log entry 49] -/
def siteMeas (t : Site) : List Byte :=
  BitVec.ofNat 8 t.attestRes.code :: (leBytes 48 t.chainDig.toNat ++ leBytes 48 t.measDig.toNat)

/-- ATTEST_COMPLETE: the result and the digests of an occupant that answered are kept; CONFIG and the measurement follow, or
the site is fenced (R418 to R421). -/
def attestComplete (n : Nat) (a : AttestIn) (s : State) : State :=
  let e := evenOf s n
  let t := s.site e
  if t.state != .attest || !admits t then s
  else
    let r := attestResult t a
    let heard := !a.unsupported && !a.silent
    let s := s.modSite e (fun t => { t with attestRes := r, chainDig := if heard then a.chainDig else 0,
                                            measDig := if heard then a.measDig else 0 })
    if r == .attested || (r == .unattested && unattestedOk s) then
      setMeas (96 + e) (siteMeas (s.site e)) (siteState n .config s)
    else failSite n .attest 6 s
def execAttestComplete (n : Fin 18) (a : AttestIn) (s : State) : Host.Outcome State Fault Refusal := .next (refresh (attestComplete n.val a s))

/-- ATTEST_TIMEOUT. -/
def attestTimeout (n : Nat) (s : State) : State :=
  if (evenSite s n).state == .attest && admits (evenSite s n) then failSite n .attest 6 s else s
def execAttestTimeout (n : Fin 18) (s : State) : Host.Outcome State Fault Refusal := .next (attestTimeout n.val s)

/-! ### Configuration (R450, R464) -/

/-- PARAM of WINDOW_INFO for an outbound window (R464). -/
def windowParam (w : OutWin) : Nat := w.dva + w.perms * 2 ^ 48 + min 1023 (w.size / 0x10000) * 2 ^ 52

/-- What the hub sends a Gelja occupant in CONFIG, in order. The layout of CREDIT's PARAM is the model's: bits 15:0 REQ
messages, 31:16 data lines, 47:32 SNP messages. [DESIGN CHOICE, log entry 52] -/
def sendConfig (e : Nat) (s : State) : State :=
  let t := s.site e
  let s := geljaTo e 0x61 (ctlMsg (t.fld 0x18 0 64)) s
  let s := geljaTo e 0x61 (ctlMsg (t.fld 0x20 0 64)) s
  let s := (outWins t).foldl (fun s w => geljaTo e 0x62 (ctlMsg (windowParam w)) s) s
  let s := geljaTo e 0x69 (ctlMsg (256 + 512 * 65536)) s
  let s := s.modSite e (fun t => { t with credits := Tab.set 0 (Tab.set 0 t.credits 10 256) 11 512 })
  geljaTo e 0x63 (ctlMsg (t.owner.getD 0)) s

/-- CRUST_LOADED: the site becomes READY. -/
def crustLoaded (n : Nat) (s : State) : State :=
  let e := evenOf s n
  let t := s.site e
  if t.state != .config || !admits t then s
  else
    let s := if isGelja t then sendConfig e s else s
    siteState n .ready (s.modSite e (fun t => { t with configDone := true }))
def execCrustLoaded (n : Fin 18) (s : State) : Host.Outcome State Fault Refusal := .next (crustLoaded n.val s)

/-- CONFIG_TIMEOUT: CONFIG did not end within 30 ms. The manual bounds CONFIG and gives no transition for the end of the
bound; the model fences the site with reason LINK. [DEDUCED, log entry 49] -/
def configTimeout (n : Nat) (s : State) : State :=
  if (evenSite s n).state == .config && admits (evenSite s n) then failSite n .link 4 s else s
def execConfigTimeout (n : Fin 18) (s : State) : Host.Outcome State Fault Refusal := .next (configTimeout n.val s)

/-! ### Retraining (R437, R438) -/

def execSiteLinkError (n : Fin 18) (s : State) : Host.Outcome State Fault Refusal := .next (retrainSite n.val s)

/-- SITE_RETRAIN_DONE: traffic resumes with nothing lost; held snoops and credits go out (R437, R490). -/
def siteRetrainDone (n modules : Nat) (repaired : List (Nat × Nat)) (s : State) : State :=
  let e := evenOf s n
  let t := s.site e
  if t.state != .retrain then s
  else
    let s := noteTraining e modules repaired [] s
    if (s.site e).modules < minModules t then failRetrain n s
    else drainSnoops e (payCredits e (siteState n .admitted s))
def execSiteRetrainDone (n : Fin 18) (modules : Nat) (repaired : List (Nat × Nat)) (s : State) : Host.Outcome State Fault Refusal :=
  .next (siteRetrainDone n.val modules repaired s)

/-- SITE_RETRAIN_TIMEOUT. -/
def siteRetrainTimeout (n : Nat) (s : State) : State :=
  if (evenSite s n).state == .retrain then failRetrain n s else s
def execSiteRetrainTimeout (n : Fin 18) (s : State) : Host.Outcome State Fault Refusal := .next (siteRetrainTimeout n.val s)

/-- SITE_RAIL_SHORT: at once, whatever the site does, as long as a SITE_CORE rail of the unit is on (R26, R406). -/
def siteRailShort (n : Nat) (s : State) : State :=
  if (halves s n).any (fun k => s.pwr.domains.getLsbD (40 + k)) then shortSite n s else s
def execSiteRailShort (n : Fin 18) (s : State) : Host.Outcome State Fault Refusal := .next (siteRailShort n.val s)

/-! ### SIT_CTRL and SIT_VSET (R406, R412, R435, R439, R440) -/

/-- SIT_FENCE: refused at the odd half of a double site. -/
def sitFence (n : Nat) (s : State) : State :=
  if (s.site n).upper then refuseWrite 16 s n else requestSiteFence n .host s
def execSitFence (n : Fin 18) (s : State) : Host.Outcome State Fault Refusal := .next (sitFence n.val s)

/-- SIT_READMIT: refused unless the site is FENCED (R440); the PHY domain switches on at the owner's next proof, or at
once. [DEDUCED, log entry 49] -/
def sitReadmit (n : Nat) (s : State) : State :=
  let t := s.site n
  if t.upper || t.state != .fenced then refuseWrite 16 s n
  else if ownerActive s t.owner then s.setSite n { t with readmPend := true }
  else (halves s n).foldl (fun s k =>
    setDomain (22 + k) true (s.modSite k (fun t => { t with state := .off, reason := .none, flushing := false, offPend := false }))) s
def execSitReadmit (n : Fin 18) (s : State) : Host.Outcome State Fault Refusal := .next (sitReadmit n.val s)

/-- SIT_RETRAIN: an ADMITTED site retrains. -/
def sitRetrain (n : Nat) (s : State) : State :=
  if (s.site n).upper then refuseWrite 16 s n else retrainSite n s
def execSitRetrain (n : Fin 18) (s : State) : Host.Outcome State Fault Refusal := .next (sitRetrain n.val s)

/-- A voltage setting in 5 mV steps within VMIN to VMAX (R412): the step at or below the value, or the first one above
VMIN. [DEDUCED, log entry 50] -/
def clampVolt (t : Site) (v : Nat) : Nat :=
  let lo := t.fld 0x10 0 11
  let w := clampTo lo (t.fld 0x0C 16 11) v
  let f := w / 5 * 5
  if f < lo then f + 5 else f

/-- Apply a voltage setting at the owner's next proof, during a hold at its release, and now where the owner is STOPPED or there is
none (R412, R490). [DEDUCED, log entry 50] -/
def setVolt (e v : Nat) (s : State) : State :=
  let t := s.site e
  let waits : Bool := match t.owner with | some p => (s.part p).state != .stopped | none => false
  if waits then s.setSite e { t with vpend := some v } else s.setSite e { t with vset := v }

/-- Whether a voltage request is taken (R440). -/
def voltOpen (t : Site) : Bool := t.state == .admitted || t.state == .retrain

/-- SIT_VSET_WRITE. -/
def sitVsetWrite (n : Nat) (val : Word) (s : State) : State :=
  let t := s.site n
  if t.upper || !voltOpen t then refuseWrite 16 s n else setVolt n (clampVolt t (bits val.toNat 0 11)) s
def execSitVsetWrite (n : Fin 18) (val : Word) (s : State) : Host.Outcome State Fault Refusal := .next (sitVsetWrite n.val val s)

/-! ### The end of a fenced caching site's flush (R484) -/

/-- The site whose flush a command means: the site itself, or the even half that stands for it. -/
def flushLead (s : State) (n : Nat) : Nat := if (s.site n).flushing then n else evenOf s n

/-- The domains of a unit whose flush has ended: the site domain switches off, then the PHY domain of a half that does not
start its admission again (R22, R484). -/
def flushOff (ks : List Nat) (s : State) : State :=
  ks.foldl (fun s k =>
    let s := coreOff k s
    let t := s.site k
    let again := t.state == .off && (t.cls != 0 || t.upper)
    if again then s else setDomain (22 + k) false s) s

/-- FLUSH_TIMEOUT: the lines still present are removed, those in X are poisoned in memory, and what waited for the site
goes on. -/
def flushTimeout (n : Nat) (s : State) : State :=
  let e := flushLead s n
  if !(s.site e).flushing then s
  else
    let lines := (s.home.lines.filter (fun l => l.2.pres.getLsbD e)).map (·.1)
    let s := dropSite e s
    let s := lines.foldl (fun s l => let x := tidySector l s; atHome x.1 x.2) s
    let waits := (s.home.txns.filter (fun t => match t.2 with
      | some x => x.wait == .snoops && x.snoop.getLsbD e
      | none => false)).map (·.1)
    waits.foldl (fun s l => answerSnoop e l false s) s
def execFlushTimeout (n : Fin 18) (s : State) : Host.Outcome State Fault Refusal := .next (refresh (flushTimeout n.val s))

/-- CACHING_SITE_FLUSH_DONE: no line is present any more; the domains switch off at the owner's first proof, or at
once. -/
def cachingSiteFlushDone (n : Nat) (s : State) : State :=
  let e := flushLead s n
  let t := s.site e
  if !t.flushing || s.home.lines.any (fun l => l.2.pres.getLsbD e) then s
  else
    let ks := if t.flushOdd then [e, e + 1] else halves s e
    let s := s.modSite e (fun t => { t with flushing := false, flushOdd := false, snoops := [], snpQ := [] })
    if t.state == .fenced && ownerActive s t.owner then s.modSite e (fun t => { t with offPend := true }) else flushOff ks s
def execCachingSiteFlushDone (n : Fin 18) (s : State) : Host.Outcome State Fault Refusal := .next (cachingSiteFlushDone n.val s)

end Sys2Proof.Machine
end

