-- ==== Sys2Proof/Machine/Gelja.lean ====
section
/-! DEFINITION. The messages of a Gelja occupant: requests through the crust, caching requests and snoop answers, responses
to the hub's own requests, control messages and timeouts (R445 to R490). -/
namespace Sys2Proof.Machine
open Sys2Proof

/-! ### What every message has to meet (R447, R455 to R458) -/

/-- Whether a message's fields are legal: LEN in its opcode's range, the reserved fields 0, STATE only where it means
something and not 0b11, WBP only in SNP_RSP, no STATUS in a request, a step number only with STEP_VALID. -/
def fieldsOk (op lo hi : Nat) (m : GMsg) : Bool :=
  let snp := op == 0x20 || op == 0x21
  let ctl := decide (0x60 ≤ op)
  decide (lo ≤ m.len.toNat) && decide (m.len.toNat ≤ hi) && !m.reserved &&
  (if snp then m.state != 3 else m.state == 0) && (op == 0x20 || !m.wbp) && (!tagged op || m.status == 0) &&
  (ctl || m.stepValid || m.step16 == 0)

/-- A request of an occupant enters the crust (R426 to R430, R455 to R458): `go` receives the physical address. A fenced
site that is being flushed, and a READY site, is refused everything (R408, R436). [DEDUCED, log entry 51] -/
def geljaRequest (n op lo hi : Nat) (k : CrustClass) (caching : Bool) (m : GMsg) (go : Nat → Nat → State → State) (s : State) : State :=
  let e := evenOf s n
  let t := s.site e
  if !isGelja t then s
  else if t.state == .fenced then (if t.flushing then refuseGelja e op m 4 s else s)
  else if !linkUp t then s
  else if !fieldsOk op lo hi m || !t.configDone || !hasCredit t op m.len.toNat || (caching && !t.caching) then protocolError e op m s
  else if t.state == .ready || t.owner.isNone then refuseGelja e op m 4 s
  else if !stepTagOk s t m then protocolError e op m s
  else match crustCheck t k m.ctx.toNat m.addr.toNat with
    | .error r => refuseGelja e op m 4 (crustViolation e r k m.ctx.toNat m.addr.toNat s)
    | .ok pa => go e (pa / 64 * 64) s

/-- The NoC request of an occupant's message. -/
def siteReq (e op pa : Nat) (write : Bool) (m : GMsg) (s : State) : Req :=
  let p := ((s.site e).owner).getD 0
  { tag := 0, who := .site e, write := write, host := false, addr := pa, len := 64 * m.len.toNat, ctx := m.ctx.toNat, part := p,
    sched := m.stepValid, data := if write then m.data else [], poison := write && m.poison,
    use := .site e m.tag.toNat op }

/-- RD_NC. -/
def rdNc (n : Nat) (m : GMsg) (s : State) : State :=
  geljaRequest n 1 1 4 .read false m (fun e pa s => (issueReq (siteReq e 1 pa false m s) (openTag e 1 m s)).2) s
def execRdNc (n : Fin 18) (m : GMsg) (s : State) : Host.Outcome State Fault Refusal := .next (rdNc n.val (received 0x01 m) s)

/-- WR: whole lines. -/
def wr (n : Nat) (m : GMsg) (s : State) : State :=
  geljaRequest n 2 1 4 .write false m (fun e pa s => (issueReq (siteReq e 2 pa true m s) (openTag e 2 m s)).2) s
def execWr (n : Fin 18) (m : GMsg) (s : State) : Host.Outcome State Fault Refusal := .next (wr n.val (received 0x02 m) s)

/-- WR_PART: one line under byte enables. -/
def wrPart (n : Nat) (m : GMsg) (s : State) : State :=
  geljaRequest n 7 1 1 .write false m
    (fun e pa s => (issueReq { siteReq e 7 pa true m s with be := some m.be.toNat } (openTag e 7 m s)).2) s
def execWrPart (n : Fin 18) (m : GMsg) (s : State) : Host.Outcome State Fault Refusal := .next (wrPart n.val (received 0x07 m) s)

/-- RD_CUR: a current read, served at the home (R470, R476); in another site's memory it travels as a read. -/
def rdCur (n : Nat) (m : GMsg) (s : State) : State :=
  geljaRequest n 6 1 4 .current false m (fun e pa s =>
    let s := openTag e 6 m s
    match paSpot s pa with
    | .site .. => (issueReq { siteReq e 1 pa false m s with use := .site e m.tag.toNat 1 } s).2
    | _ =>
      let tag := s.noc.nextTag
      let r := { siteReq e 6 pa false m s with tag := tag, gone := true, lines := pieces pa (64 * m.len.toNat), inject := s.clk.now }
      atHome [.noc tag] { s with noc := { s.noc with nextTag := tag + 1, reqs := s.noc.reqs ++ [r] } }) s
def execRdCur (n : Fin 18) (m : GMsg) (s : State) : Host.Outcome State Fault Refusal := .next (refresh (rdCur n.val (received 0x06 m) s))

/-! ### Caching requests (R476, R479) -/

/-- A caching request reaches the home of its line. The home keeps no line outside HBM and the coherent windows: there the
request is refused. [DEDUCED, log entry 53] -/
def cacheReq (op : HOp) (code : Nat) (m : GMsg) (e pa : Nat) (s : State) : State :=
  if !coherent s pa then refuseGelja e code m 4 (cohRefused pa s)
  else
    let r : HReq := { op := op, src := .gelja e m.tag.toNat, site := some e, line := pa / 64, ctx := m.ctx.toNat,
                      dva := m.addr.toNat, data := m.data, poison := m.poison, part := ((s.site e).owner).getD 0 }
    atHome [.req r] (openTag e code m s)

/-- An uncorrectable snoop-filter entry (R482): all four lines of the sector are invalidated at every caching site, and
firmware logs the entry. -/
def filterUe (line : Nat) (s : State) : State :=
  let s := writeLog 16 2 2 0 line 0 s
  ((List.range 4).map (· + sectorOf line * 4)).foldl (fun s l => backInval 19 l s) s

/-- RD_SHARED. `ue`: the snoop-filter entry read for it is uncorrectable. -/
def rdShared (n : Nat) (m : GMsg) (ue : Bool) (s : State) : State :=
  geljaRequest n 0x10 1 1 .cache true m (fun e pa s =>
    cacheReq .rdShared 0x10 m e pa (if ue && coherent s pa then filterUe (pa / 64) s else s)) s
def execRdShared (n : Fin 18) (m : GMsg) (ue : Bool) (s : State) : Host.Outcome State Fault Refusal := .next (refresh (rdShared n.val (received 0x10 m) ue s))

/-- RD_OWN. -/
def rdOwn (n : Nat) (m : GMsg) (s : State) : State := geljaRequest n 0x11 1 1 .cache true m (cacheReq .rdOwn 0x11 m) s
def execRdOwn (n : Fin 18) (m : GMsg) (s : State) : Host.Outcome State Fault Refusal := .next (refresh (rdOwn n.val (received 0x11 m) s))

/-- UPGRADE. -/
def upgrade (n : Nat) (m : GMsg) (s : State) : State := geljaRequest n 0x12 0 0 .cache true m (cacheReq .upgrade 0x12 m) s
def execUpgrade (n : Fin 18) (m : GMsg) (s : State) : Host.Outcome State Fault Refusal := .next (refresh (upgrade n.val (received 0x12 m) s))

/-- EVICT_CLEAN. -/
def evictClean (n : Nat) (m : GMsg) (s : State) : State := geljaRequest n 0x13 0 0 .cache true m (cacheReq .evictClean 0x13 m) s
def execEvictClean (n : Fin 18) (m : GMsg) (s : State) : Host.Outcome State Fault Refusal := .next (refresh (evictClean n.val (received 0x13 m) s))

/-- WB_DIRTY. -/
def wbDirty (n : Nat) (m : GMsg) (s : State) : State := geljaRequest n 0x14 1 1 .cache true m (cacheReq .wbDirty 0x14 m) s
def execWbDirty (n : Fin 18) (m : GMsg) (s : State) : Host.Outcome State Fault Refusal := .next (refresh (wbDirty n.val (received 0x14 m) s))

/-! ### Answers of the occupant (R453, R457, R474, R476, R480) -/

/-- A response of an occupant: `known` tells whether its tag names an open transaction. A fenced site in its flush still
answers snoops. -/
def geljaAnswer (n op lo hi : Nat) (m : GMsg) (known : Site → Bool) (go : Nat → State → State) (s : State) : State :=
  let e := evenOf s n
  let t := s.site e
  if !isGelja t || !(linkUp t || t.flushing) then s
  else if !fieldsOk op lo hi m || !known t then protocolError e op m s
  else go e s

/-- SNP_RSP. -/
def snpRsp (n : Nat) (m : GMsg) (s : State) : State :=
  geljaAnswer n 0x20 0 0 m (fun t => t.snoops.any (fun x => x.1 == m.tag.toNat))
    (fun e s => snoopAnswered e m.tag.toNat (some m.state.toNat) m.wbp none s) s
def execSnpRsp (n : Fin 18) (m : GMsg) (s : State) : Host.Outcome State Fault Refusal := .next (refresh (snpRsp n.val (received 0x20 m) s))

/-- SNP_RSP_DATA: the data is written to memory first (R471). -/
def snpRspData (n : Nat) (m : GMsg) (s : State) : State :=
  geljaAnswer n 0x21 1 1 m (fun t => t.snoops.any (fun x => x.1 == m.tag.toNat))
    (fun e s => snoopAnswered e m.tag.toNat (some m.state.toNat) false (some (m.data, m.poison)) s) s
def execSnpRspData (n : Fin 18) (m : GMsg) (s : State) : Host.Outcome State Fault Refusal := .next (refresh (snpRspData n.val (received 0x21 m) s))

/-- The line whose grant an occupant's tag acknowledges. -/
def ackLine (s : State) (e tag : Nat) : Option Nat :=
  (s.home.txns.find? (fun x => match x.2 with
    | some t => t.wait == .ack && t.req.src == .gelja e tag
    | none => false)).map (·.1)

/-- ACK: the granted line is installed; the line leaves BUSY and the tag is free (R453, R474). -/
def ack (n : Nat) (m : GMsg) (s : State) : State :=
  geljaAnswer n 0x24 0 0 m (fun _ => (ackLine s (evenOf s n) m.tag.toNat).isSome)
    (fun e s => match ackLine s e m.tag.toNat with
      | some l => grantAcked e l (closeTag e m.tag.toNat s)
      | none => s) s
def execAck (n : Fin 18) (m : GMsg) (s : State) : Host.Outcome State Fault Refusal := .next (refresh (ack n.val (received 0x24 m) s))

/-- An open request of the hub at a site. -/
def outOf (t : Site) (tag : Nat) (rd : Bool) : Option SiteOut := t.outs.find? (fun o => o.tag == tag && o.rd == rd)

/-- An answer of an occupant to a request of the hub becomes the NoC response. -/
def occupantAnswer (e tag : Nat) (rd : Bool) (bs : List Byte) (poison refused : Bool) (s : State) : State :=
  match outOf (s.site e) tag rd with
  | none => s
  | some o =>
    let s := s.modSite e (fun t => { t with outs := t.outs.erase o })
    match s.reqOf o.req with
    | none => s
    | some r => pushResp { tag := o.req, data := (bs.drop (r.addr % 64)).take r.len, poison := poison || (rd && refused), refused := refused } s

/-- RD_DATA. -/
def rdData (n : Nat) (m : GMsg) (s : State) : State :=
  geljaAnswer n 3 1 4 m (fun t => (outOf t m.tag.toNat true).isSome)
    (fun e s => occupantAnswer e m.tag.toNat true m.data (m.poison || m.status != 0) (m.status == 4) s) s
def execRdData (n : Fin 18) (m : GMsg) (s : State) : Host.Outcome State Fault Refusal := .next (rdData n.val (received 0x03 m) s)

/-- CMP. -/
def cmp (n : Nat) (m : GMsg) (s : State) : State :=
  geljaAnswer n 4 0 0 m (fun t => (outOf t m.tag.toNat false).isSome)
    (fun e s => occupantAnswer e m.tag.toNat false [] false (m.status == 4 || m.status == 6) s) s
def execCmp (n : Fin 18) (m : GMsg) (s : State) : Host.Outcome State Fault Refusal := .next (cmp n.val (received 0x04 m) s)

/-- OCCUPANT_RSP_TIMEOUT: the hub completes the request as poison or refusal and ABSENT is set (R461). -/
def occupantRspTimeout (n tag : Nat) (s : State) : State :=
  let e := evenOf s n
  match (s.site e).outs.find? (fun o => o.tag == tag) with
  | none => s
  | some o =>
    let len := match s.reqOf o.req with
      | some r => r.len
      | none => 0
    let f := if o.rd then freeBytes len s else ([], s)
    let s := f.2.modSite e (fun t => { t with outs := t.outs.erase o })
    raise 16 3 e (pushResp { tag := o.req, data := f.1, poison := o.rd, refused := true } s)
def execOccupantRspTimeout (n : Fin 18) (tag : BitVec 12) (s : State) : Host.Outcome State Fault Refusal :=
  .next (occupantRspTimeout n.val tag.toNat s)

/-- SNOOP_TIMEOUT (R483). -/
def execSnoopTimeout (n : Fin 18) (line : Nat) (s : State) : Host.Outcome State Fault Refusal := .next (refresh (snoopLate n.val line s))

/-! ### Control messages (R462, R463, R468, R469, R450) -/

/-- IDENTITY: the mismatches of R416 and R463 fence the site CLASS; an identity that agrees leads to ATTEST. -/
def identity (n : Nat) (m : GMsg) (s : State) : State :=
  let e := evenOf s n
  let t := s.site e
  let x := m.extra
  if !isGelja t || t.state != .negotiate || !admits t then s
  else if !fieldsOk 0x60 0 0 m || m.param != 0 || rfld x 0 13 3 != 0 || rfld x 8 14 18 != 0 then protocolError e 0x60 m s
  else
    let cls := rfld x 0 0 4
    let tags := rfld x 8 0 12
    let caching := rbit x 8 12
    let offers := rbit x 8 13
    let size := rfld x 0xC 0 32
    let s := s.modSite e (fun t => { t with found := cls })
    let bad := rfld x 0 24 8 != 1 || cls != t.cls || rfld x 0 8 5 != e || rfld x 0 4 4 != (if t.double then 8 else 4) ||
      (caching && t.cls == 3) || (offers && (size == 0 || tags == 0))
    if bad then failSite e .classR 5 s
    else siteState e .attest (s.modSite e (fun t => { t with idOk := true, caching := caching, offersMem := offers,
                                                             maxTags := min 3840 tags, memSize := min 16777216 size }))
def execIdentity (n : Fin 18) (m : GMsg) (s : State) : Host.Outcome State Fault Refusal := .next (identity n.val (received 0x60 m) s)

/-- ARRIVE_INFO: POISON and TAINT join the partition's ARRIVE (R468). [DEDUCED, log entry 51] -/
def arriveInfo (n : Nat) (m : GMsg) (s : State) : State :=
  let e := evenOf s n
  let t := s.site e
  if !isGelja t || !linkUp t then s
  else if !fieldsOk 0x66 0 0 m || !t.configDone then protocolError e 0x66 m s
  else match t.state, t.owner with
    | .admitted, some p =>
      if (s.part p).step.toNat % 2 ^ 32 != m.param.toNat % 2 ^ 32 then s
      else
        let s := if m.param.getLsbD 32 then markFlag p 2 s else s
        if m.param.getLsbD 33 then markFlag p 1 s else s
    | _, _ => s
def execArriveInfo (n : Fin 18) (m : GMsg) (s : State) : Host.Outcome State Fault Refusal := .next (arriveInfo n.val (received 0x66 m) s)

/-- VOLT_REQ: the clamped setting applies at the owner's next proof; DENIED unless the site is admitted (R440, R469). -/
def voltReq (n : Nat) (m : GMsg) (s : State) : State :=
  let e := evenOf s n
  let t := s.site e
  if !isGelja t || !linkUp t then s
  else if !fieldsOk 0x67 0 0 m || !t.configDone then protocolError e 0x67 m s
  else if t.state != .admitted then geljaTo e 0x68 (ctlMsg 0 4) s
  else
    let v := clampVolt t (bits m.param.toNat 0 11)
    geljaTo e 0x68 (ctlMsg v) (setVolt e v s)
def execVoltReq (n : Fin 18) (m : GMsg) (s : State) : Host.Outcome State Fault Refusal := .next (voltReq n.val (received 0x67 m) s)

/-- CREDIT: credits come back to the hub; snoops that waited go out (R450). [DESIGN CHOICE, log entry 52] -/
def credit (n : Nat) (m : GMsg) (s : State) : State :=
  let e := evenOf s n
  let t := s.site e
  if !isGelja t || !(linkUp t || t.flushing) then s
  else if !fieldsOk 0x69 0 0 m then protocolError e 0x69 m s
  else
    let p := m.param.toNat
    let add := fun (k v : Nat) (c : Tab Nat) => Tab.upd 0 c k (· + v)
    drainSnoops e (s.setSite e { t with credits := add 1 (bits p 32 16) (add 2 (bits p 16 16) (add 0 (bits p 0 16) t.credits)) })
def execCredit (n : Fin 18) (m : GMsg) (s : State) : Host.Outcome State Fault Refusal := .next (credit n.val (received 0x69 m) s)

end Sys2Proof.Machine
end

