-- ==== Sys2Proof/Machine/Cxl.lean ====
section
/-! DEFINITION. The messages of a CXL occupant: CXL.cache requests and snoop answers, CXL.io requests, CXL.mem responses
(R403, R426, R428, R486 to R489). -/
namespace Sys2Proof.Machine
open Sys2Proof

/-- Whether a site's class speaks CXL (R400). -/
def isCxl (t : Site) : Bool := t.cls == 2 || t.cls == 4

/-- The answers of the hub to a CXL message, in order. -/
def cxlSay (n : Nat) (m : CxlMsg) (ops : List String) (s : State) : State :=
  ops.foldl (fun s o => s.emit (.cxl n o m.tag.toNat m.addr.toNat [] false)) s

/-- Poisoned data for a refused read; its bytes are open (R428). -/
def cxlPoison (n : Nat) (m : CxlMsg) (s : State) : State :=
  let f := freeBytes 64 s
  f.2.emit (.cxl n "Data" m.tag.toNat m.addr.toNat f.1 true)

/-- A CXL.cache request enters the crust with DEFAULT_CTX (R426, R428); `no` answers a refusal, `go` receives the physical
line address. At a class other than 0x2 CXL.cache is forbidden (R403). [DEDUCED, log entry 54] -/
def cxlRequest (n : Nat) (k : CrustClass) (m : CxlMsg) (no : Nat → State → State) (go : Nat → Nat → State → State) (s : State) : State :=
  let e := evenOf s n
  let t := s.site e
  if !isCxl t then s
  else if t.state == .fenced then (if t.flushing then no e s else s)
  else if t.state == .ready then no e s
  else if t.state != .admitted || t.owner.isNone then s
  else
    let k := if t.cls = 4 then .cache else k
    match crustCheck t k (defaultCtx t) m.addr.toNat with
    | .error r => no e (crustViolation e r k (defaultCtx t) m.addr.toNat s)
    | .ok pa => go e (pa / 64 * 64) s

/-- The home request of a CXL message. [DEDUCED, log entry 54] -/
def cxlHome (op : HOp) (o : Nat) (m : CxlMsg) (e pa : Nat) (s : State) : HReq :=
  let t := s.site e
  { op := op, src := .cxl e m.tag.toNat o, site := some e, line := pa / 64, ctx := defaultCtx t, dva := m.addr.toNat,
    data := m.data, be := m.be, poison := m.poison, part := t.owner.getD 0 }

/-- A caching request at the home of its line; outside HBM and the coherent windows there is none, and it is refused. -/
def cxlCache (op : HOp) (o : Nat) (m : CxlMsg) (no : Nat → State → State) (e pa : Nat) (s : State) : State :=
  if coherent s pa then atHome [.req (cxlHome op o m e pa s)] s else no e (cohRefused pa s)

/-- The NoC request of a CXL message for a line without a home. [DEDUCED, log entry 54] -/
def cxlNoc (e pa len op : Nat) (write : Bool) (m : CxlMsg) (s : State) : State :=
  let t := s.site e
  (issueReq { tag := 0, who := .site e, write := write, host := false, addr := pa, len := len, ctx := defaultCtx t,
              part := t.owner.getD 0, sched := false, data := if write then m.data else [], poison := write && m.poison,
              iova := m.addr.toNat, be := if write then some m.be.toNat else none, use := .site e m.tag.toNat op } s).2

/-! ### CXL.cache requests (R486) -/

/-- CXL_RDCURR: a current read; data with no GO state. -/
def cxlRdcurr (n : Nat) (m : CxlMsg) (s : State) : State :=
  cxlRequest n .current m (fun e => cxlPoison e m)
    (fun e pa s => if coherent s pa then atHome [.req { cxlHome .rdCur 0 m e pa s with site := none }] s
                   else cxlNoc e pa 64 0x82 false m s) s
def execCxlRdcurr (n : Fin 18) (m : CxlMsg) (s : State) : Host.Outcome State Fault Refusal := .next (refresh (cxlRdcurr n.val m s))

/-- CXL_RDSHARED. -/
def execCxlRdshared (n : Fin 18) (m : CxlMsg) (s : State) : Host.Outcome State Fault Refusal :=
  .next (refresh (cxlRequest n.val .cache m (fun e => cxlPoison e m) (cxlCache .rdShared 0 m (fun e => cxlPoison e m)) s))

/-- CXL_RDANY: as RD_SHARED. -/
def execCxlRdany (n : Fin 18) (m : CxlMsg) (s : State) : Host.Outcome State Fault Refusal :=
  .next (refresh (cxlRequest n.val .cache m (fun e => cxlPoison e m) (cxlCache .rdShared 1 m (fun e => cxlPoison e m)) s))

/-- CXL_RDOWN. -/
def execCxlRdown (n : Fin 18) (m : CxlMsg) (s : State) : Host.Outcome State Fault Refusal :=
  .next (refresh (cxlRequest n.val .cache m (fun e => cxlPoison e m) (cxlCache .rdOwn 0 m (fun e => cxlPoison e m)) s))

/-- CXL_RDOWNNODATA: ownership with no data in any state. -/
def execCxlRdownnodata (n : Fin 18) (m : CxlMsg) (s : State) : Host.Outcome State Fault Refusal :=
  .next (refresh (cxlRequest n.val .cache m (fun e => cxlSay e m ["GO-I"]) (cxlCache .rdOwnNoData 0 m (fun e => cxlSay e m ["GO-I"])) s))

/-- CXL_CLFLUSH: SNP_INV to every holder, the requester included. -/
def execCxlClflush (n : Fin 18) (m : CxlMsg) (s : State) : Host.Outcome State Fault Refusal :=
  .next (refresh (cxlRequest n.val .cache m (fun e => cxlSay e m ["GO-I"])
    (fun e pa s => if coherent s pa then atHome [.req (cxlHome .clflush 0 m e pa s)] s else cxlSay e m ["GO-I"] s) s))

/-- CXL_CLEANEVICT: CleanEvict, or CleanEvictNoData. -/
def cxlCleanevict (n : Nat) (m : CxlMsg) (s : State) : State :=
  let say := fun (e : Nat) => cxlSay e m [if m.alt then "GO-I" else "GO_WritePull_Drop"]
  cxlRequest n .cache m say (cxlCache .evictClean (if m.alt then 1 else 0) m say) s
def execCxlCleanevict (n : Fin 18) (m : CxlMsg) (s : State) : Host.Outcome State Fault Refusal := .next (refresh (cxlCleanevict n.val m s))

/-- CXL_DIRTYEVICT: GO_WritePull, then CMP after the write. -/
def cxlDirtyevict (n : Nat) (m : CxlMsg) (s : State) : State :=
  let say := fun (e : Nat) => cxlSay e m ["GO_WritePull", "CMP"]
  cxlRequest n .cache m say (cxlCache .wbDirty 0 m say) s
def execCxlDirtyevict (n : Fin 18) (m : CxlMsg) (s : State) : Host.Outcome State Fault Refusal := .next (refresh (cxlDirtyevict n.val m s))

/-- CXL_ITOMWR: ItoMWr or WrCur, a non-caching write; GO_WritePull, then ExtCmp after the write. -/
def cxlItomwr (n : Nat) (m : CxlMsg) (s : State) : State :=
  cxlRequest n .write m (fun e => cxlSay e m ["GO_WritePull", "ExtCmp"])
    (fun e pa s => if coherent s pa then atHome [.req { cxlHome .ncWrite 0 m e pa s with site := none }] s
                   else cxlNoc e pa 64 0x83 true m s) s
def execCxlItomwr (n : Fin 18) (m : CxlMsg) (s : State) : Host.Outcome State Fault Refusal := .next (refresh (cxlItomwr n.val m s))

/-- Whether a CXL compute site's cache channel runs. -/
def cxlCacheUp (t : Site) : Bool := t.cls == 2 && (t.state == .admitted || t.flushing)

/-- CXL_CACHEFLUSHED: GO-I; the filter stays as it is. -/
def execCxlCacheflushed (n : Fin 18) (m : CxlMsg) (s : State) : Host.Outcome State Fault Refusal :=
  .next (let e := evenOf s n.val
         if cxlCacheUp (s.site e) then cxlSay e m ["GO-I"] s else s)

/-- CXL_UNLISTED_D2H: an error GO, and a protocol error. -/
def execCxlUnlistedD2h (n : Fin 18) (m : CxlMsg) (s : State) : Host.Outcome State Fault Refusal :=
  .next (let e := evenOf s n.val
         if cxlCacheUp (s.site e) then
           refresh (protocolError e 0 {} (cxlSay e m [if m.data.isEmpty then "GO-Err" else "GO_ERR_WritePull"] s))
         else s)

/-! ### Snoop answers, acknowledgements (R486 to R488) -/

/-- State and data of a snoop answer: I, S or unchanged. -/
def snpState : CxlSnpRsp → Option Nat
  | .iHitI | .iHitSE | .iFwdM => some 0
  | .sHitSE | .sFwdM => some 1
  | .vHitV | .vFwdV => none
def snpData : CxlSnpRsp → Bool
  | .iFwdM | .sFwdM | .vFwdV => true
  | _ => false

/-- CXL_SNOOP_RESPONSE: RspIHitI to a line whose DirtyEvict has not completed counts as WBP 1 (R487). -/
def cxlSnoopResponse (n : Nat) (rsp : CxlSnpRsp) (m : CxlMsg) (s : State) : State :=
  let e := evenOf s n
  let t := s.site e
  if !cxlCacheUp t then s
  else match t.snoops.find? (fun x => x.1 == m.tag.toNat) with
    | none => protocolError e 0 {} s
    | some (_, line) =>
      let wb := s.home.queue.any (fun q => q.line == line && q.op == .wbDirty && q.site == some e)
      snoopAnswered e m.tag.toNat (snpState rsp) (rsp == .iHitI && wb) (if snpData rsp then some (m.data, m.poison) else none) s
def execCxlSnoopResponse (n : Fin 18) (rsp : CxlSnpRsp) (m : CxlMsg) (s : State) : Host.Outcome State Fault Refusal :=
  .next (refresh (cxlSnoopResponse n.val rsp m s))

/-- CXL_GO_ACKED: the hub itself produces the ACK of a grant (R488). -/
def cxlGoAcked (n tag : Nat) (s : State) : State :=
  let e := evenOf s n
  match (s.site e).goWait.find? (fun x => x.1 == tag) with
  | none => s
  | some (_, line) => grantAcked e line (s.modSite e (fun t => { t with goWait := t.goWait.filter (fun x => x.1 != tag) }))
def execCxlGoAcked (n : Fin 18) (tag : BitVec 12) (s : State) : Host.Outcome State Fault Refusal := .next (refresh (cxlGoAcked n.val tag.toNat s))

/-! ### CXL.mem and CXL.io (R426, R428, R489) -/

/-- CXL_MEM_RESPONSE: the hub's own MemRd, MemWr or MemWrPtl completes. -/
def cxlMemResponse (n tag : Nat) (data : List Byte) (poison : Bool) (s : State) : State :=
  let e := evenOf s n
  match (s.site e).outs.find? (fun o => o.tag == tag) with
  | none => s
  | some o => if isCxl (s.site e) then occupantAnswer e tag o.rd data (o.rd && poison) false s else s
def execCxlMemResponse (n : Fin 18) (tag : BitVec 12) (data : List Byte) (poison : Bool) (s : State) : Host.Outcome State Fault Refusal :=
  .next (cxlMemResponse n.val tag.toNat data poison s)

/-- CXL_IO_REQUEST: a memory read or write enters the crust; a refused one receives Unsupported Request, an MSI is
discarded as CLASS_FORBIDDEN. A read asks for the bytes from its address to the end of the 64 B line. [DEDUCED, log entry 54] -/
def cxlIoRequest (n : Nat) (kind : CxlIo) (m : CxlMsg) (s : State) : State :=
  let e := evenOf s n
  let t := s.site e
  let k : CrustClass := match kind with
    | .memRd => .read
    | .memWr => .write
    | .msi => .msi
  let ur := fun (s : State) => if kind == .msi then s else cxlSay e m ["UR"] s
  if !isCxl t then s
  else if t.state == .ready || t.flushing then ur s
  else if t.state != .admitted || t.owner.isNone then s
  else match crustCheck t k (defaultCtx t) m.addr.toNat with
    | .error r => ur (crustViolation e r k (defaultCtx t) m.addr.toNat s)
    | .ok pa => if kind == .memRd then cxlNoc e pa (64 - pa % 64) 0x80 false m s else cxlNoc e pa m.data.length 0x81 true m s
def execCxlIoRequest (n : Fin 18) (kind : CxlIo) (m : CxlMsg) (s : State) : Host.Outcome State Fault Refusal :=
  .next (refresh (cxlIoRequest n.val kind m s))

end Sys2Proof.Machine
end

