-- ==== Sys2Proof/Machine/HostIo.lean ====
section
/-! DEFINITION. What comes back from the host: translation completions, page-request responses, read completions and
their timeouts (R275 to R277, R307, R308, R317, R580). -/
namespace Sys2Proof.Machine
open Sys2Proof

/-- Whether a page of an engine's completion record is what it still waits for. -/
def compStuck (s : State) (e pg : Nat) : Bool :=
  let x := s.xfe e
  match x.cur with
  | some c => x.run == .ending && c.units.isEmpty && c.desc.compValid && decide (2 ^ 47 ≤ c.desc.comp) &&
    (match xPlan s e c.desc.ctx true [(c.desc.comp, 64)] with
     | .ask _ i => i / 4096 * 4096 == pg
     | _ => false)
  | none => false

/-- The page that the buffers take from a translation completion: the largest of their sizes within the translated range that
holds the page asked for (R273, R275). -/
def atsPage (ctx pg size host : Nat) (r w : Bool) : XlEntry :=
  let big := max 4096 size
  let n := (xlSizes.filter (· ≤ big)).getLastD 4096
  let base := pg / n * n
  { host := true, ctx := ctx, base := base, size := n, goal := host / big * big + (base - pg / big * big), r := r, w := w }

/-- ATS_TRANSLATION_COMPLETION: the engine's buffer and the second level take the translation; a page that stays untranslated
stops the engine at its cursor (R275, R307). UR and CA set ATS_ERROR. -/
def atsTranslationCompletion (e iova size host : Nat) (r w : Bool) (cpl : CplStat) (s : State) : State :=
  let pg := iova / 4096 * 4096
  match s.xlt.atsWait.find? (fun q => q.1 == e && q.2.2 == pg) with
  | none => s
  | some (_, ctx, _) =>
    let s := { s with xlt := { s.xlt with atsWait := s.xlt.atsWait.erase (e, ctx, pg) } }
    let s := if cpl != .sc then raise 11 6 0 s
             else if r || w then xlFill e (atsPage ctx pg size host r w) s
             else s
    let mine := match (s.xfe e).cur with | some c => c.desc.ctx == ctx | none => false
    let s := pumpXfe e (if mine then some pg else none) s
    let x := s.xfe e
    let s := if mine && compStuck s e pg then
        (match x.cur with | some c => s.setXfe e { x with cur := some { c with compLost := true } } | none => s)
      else s
    ringRetry e (some (ctx, pg)) s
/-- ATS_TRANSLATION_COMPLETION (R275). -/
def execAtsTranslationCompletion (e : Fin 64) (iova : BitVec 64) (size : Nat) (host : BitVec 64) (r w : Bool) (cpl : CplStat)
    (s : State) : Host.Outcome State Fault Refusal :=
  .next (refresh (atsTranslationCompletion e.val iova.toNat size host.toNat r w cpl s))

/-- An engine's page stays unresolved: its transfer ends FAULTED at its cursor, or its ring's VI is QUIESCED (R308, R578). Its Page
Request stays outstanding until the host answers it. -/
def pageLost (e : Nat) (s : State) : State :=
  let x := s.xfe e
  match x.ringVi with
  | some v =>
    let s := s.setXfe e { x with ringVi := none, pageWait := false }
    requestQuiesce v (some 3) (raise 2 2 v (s.modVi v (fun w => { w with fetchWait := false })))
  | none =>
    match x.cur with
    | some c => if x.run == .faultWait then endAtElem e c.next .faulted s else s
    | none => s

/-- Whether an engine waits for a page. -/
def Xfe.faulting (x : Xfe) : Bool := x.run == .faultWait || x.ringVi.isSome

/-- PRG_RESPONSE: Success resumes the engine at its cursor with a new translation request; Invalid ends what waits;
Failure ends everything that waits for a page and stops PRI (R308, R317). A response to a fault that has ended is discarded,
and the engine's next request can follow. [DEDUCED, log entry 39] -/
def prgResponse (e : Nat) (code : PrgCode) (s : State) : State :=
  let x := s.xfe e
  if !x.pageReq then s
  else
    let stale := !x.faulting || x.pageWait
    let s := s.setXfe e { x with pageReq := false }
    match code with
    | .success =>
      if stale then sendPageReqs s
      else (match x.ringVi with
       | some _ => sendPageReqs (ringRetry e none (s.setXfe e { x with ringVi := none, pageReq := false }))
       | none =>
         let s := s.setXfe e { x with run := .run, pageReq := false,
                                      cur := x.cur.map (fun c => { c with resumed := true }) }
         sendPageReqs (pumpXfe e none s))
    | .invalid => sendPageReqs (if stale then s else pageLost e s)
    | .failure =>
      let s := (Tab.keysWhere s.xfes Xfe.faulting).foldl (fun s k => pageLost k s) s
      let s := (Tab.keysWhere s.xfes (fun x => x.pageReq)).foldl (fun s k => s.setXfe k { s.xfe k with pageReq := false }) s
      raise 11 7 0 { s with xlt := { s.xlt with priStopped := true } }
/-- PRG_RESPONSE (R308). -/
def execPrgResponse (e : Fin 64) (code : PrgCode) (s : State) : Host.Outcome State Fault Refusal :=
  .next (refresh (prgResponse e.val code s))

/-- FAULT_LIMIT_EXPIRY: the fault was not resolved within FAULT_LIMIT (R308). -/
def execFaultLimitExpiry (e : Fin 64) (s : State) : Host.Outcome State Fault Refusal :=
  .next (refresh (if (s.xfe e.val).faulting then sendPageReqs (pageLost e.val s) else s))

/-- A host read ends: `ok` with its data, else it failed. What waited for a free host tag goes on (R388). -/
def hostReadEnds (tag : Nat) (ok poison : Bool) (data : List Byte) (s : State) : State :=
  match s.noc.reqs.find? (fun r => r.tag == tag && r.host && r.gone && !r.write) with
  | none => s
  | some r =>
    let drop := fun (s : State) => { s with noc := { s.noc with reqs := s.noc.reqs.filter (fun q => q.tag != tag) } }
    let s := if ok && poison then raise 1 4 0 s else s
    let s :=
      if r.dead then drop s
      else match r.use with
        | .ring v => ringReturned v tag ok poison (BitVec.ofNat 512 (leNat (data.take 64))) s
        | .xread e _ =>
          let s := completeStats r (drop s)
          if ok then xfeRead e tag (data.take r.len) poison s else xfeReadFailed e tag s
        | _ => completeStats r (drop s)
    ringRetryAll (pumpAll s)

/-- HOST_READ_COMPLETION: data for the reader, or UR or CA, which ends a transfer FAULTED (R277). -/
def execHostReadCompletion (tag : Nat) (cpl : CplStat) (data : List Byte) (poison : Bool) (s : State) : Host.Outcome State Fault Refusal :=
  .next (refresh (hostReadEnds tag (cpl == .sc) poison data s))

/-- HOST_COMPLETION_TIMEOUT: CPL_TIMEOUT sets and the waiting request ends as failed (R580). -/
def hostCompletionTimeout (tag : Nat) (s : State) : State :=
  if s.noc.reqs.any (fun r => r.tag == tag && r.host && r.gone && !r.write) then hostReadEnds tag false false [] (raise 1 3 0 s) else s
def execHostCompletionTimeout (tag : Nat) (s : State) : Host.Outcome State Fault Refusal :=
  .next (refresh (hostCompletionTimeout tag s))

end Sys2Proof.Machine
end

