-- ==== Sys2Proof/Machine/Host.lean ====
section
/-! DEFINITION. The commands of the host endpoint and of the virtual interfaces: attach, leases, fetch slots and command
records, the host driver, and the events of the PCIe link (R538 to R584). -/
namespace Sys2Proof.Machine
open Sys2Proof

/-! ### Virtual interfaces (R553 to R555, R570 to R572) -/

/-- The status of an attach (R554). -/
def attachStatus (s : State) (v : Nat) (val : Word) : Status :=
  let x := s.vi v
  if bits val.toNat 16 16 != 1 then .version
  else if (s.partOfVi v).isNone || (x.cmdSize != 0 && x.cplSize == 0) || x.state == .attached then .denied
  else .ok

/-- VIF_ATTACH: refused with its status, or accepted. Out of DETACHED the VI attaches at once with its rings at their
start; out of QUIESCED it rejoins at the partition's next proof, or at once where the partition does not run.
[DESIGN CHOICE, log entry 15; DEDUCED, log entry 58] -/
def vifAttach (v : Nat) (val : Word) (s : State) : State :=
  let st := attachStatus s v val
  let s := s.modVi v (fun x => { x with attachStat := st })
  if st != .ok then
    let s := raise 2 3 v s
    if st == .version then viFault v 6 s else s
  else
    let run := match s.partOfVi v with | some p => (s.part p).active | none => false
    let x := s.vi v
    if x.state == .quiesced then
      let s := s.modVi v (fun x => { x with renewed := s.clk.now, warned := false })
      if run then s.modVi v (fun x => { x with pend := .rejoin })
      else deliverHeld v (s.modVi v (fun x => { x with state := .attached, pend := .none, resume := false }))
    else s.modVi v (fun x => { x with state := .attached, pend := .none, resume := false, renewed := s.clk.now, warned := false, cmdHead := 0, cmdPhase := true,
                                      cplTail := 0, cplPhase := true, cplHead := 0, read := [], reading := none, fetchWait := false })
/-- VIF_ATTACH (R554). -/
def execVifAttach (v : Fin 1024) (val : Word) (s : State) : Host.Outcome State Fault Refusal := .next (refresh (vifAttach v.val val s))

/-- Detach a VI (R553): an ATTACHED one at the next proof after every delivered command has completed; a QUIESCED one,
and one whose partition does not run and which has no open command, at once. -/
def vifDetach (v : Nat) (s : State) : State :=
  let x := s.vi v
  let run := match s.partOfVi v with | some p => (s.part p).active | none => false
  match x.state with
  | .detached => s
  | .quiesced => detachVi v s
  | .attached => if run || !x.cmds.isEmpty then s.setVi v { x with pend := .detach } else detachVi v s
/-- VIF_DETACH (R553). -/
def execVifDetach (v : Fin 1024) (s : State) : Host.Outcome State Fault Refusal := .next (refresh (vifDetach v.val s))

/-- VIF_LEASE: the lease period starts again (R570). -/
def vifLease (v : Nat) (s : State) : State :=
  if (s.vi v).state == .attached then s.modVi v (fun x => { x with renewed := s.clk.now, warned := false }) else s
def execVifLease (v : Fin 1024) (s : State) : Host.Outcome State Fault Refusal := .next (vifLease v.val s)

/-- LEASE_WARN: three quarters of the period passed without a renewal (R570). -/
def leaseWarn (v : Nat) (s : State) : State :=
  let x := s.vi v
  if x.state == .attached && !x.warned && x.renewed != s.clk.now then
    refresh (s.setVi v { x with warned := true, intPend := x.intPend ||| 2#5 })
  else s
def execLeaseWarn (v : Fin 1024) (s : State) : Host.Outcome State Fault Refusal := .next (leaseWarn v.val s)

/-- LEASE_EXPIRY: the VI is QUIESCED at the next proof, or at once where its partition does not run; a renewal in the same
tick is honoured (R553, R571, R578). [DESIGN CHOICE, log entry 8; DEDUCED, log entry 58] -/
def leaseExpiry (v : Nat) (s : State) : State :=
  let x := s.vi v
  if x.state == .attached && x.renewed != s.clk.now then requestQuiesce v (some 1) (raise 2 1 v s) else s
def execLeaseExpiry (v : Fin 1024) (s : State) : Host.Outcome State Fault Refusal := .next (refresh (leaseExpiry v.val s))

/-- The VI that `VIF_PF_SEL` selects (R581). -/
def pfSel (s : State) : Nat := bits (s.reg 0x20000 1#32).toNat 0 10

/-- PF_QUIESCE (R553). -/
def execPfQuiesce (s : State) : Host.Outcome State Fault Refusal := .next (refresh (requestQuiesce (pfSel s) none s))

/-- PF_DETACH (R553). -/
def execPfDetach (s : State) : Host.Outcome State Fault Refusal := .next (refresh (vifDetach (pfSel s) s))

/-! ### Fetching and commands (R561 to R567) -/

/-- Whether a fetch slot of the partition's running step is due for a VI (R106). -/
def slotDue (s : State) (p v : Nat) : Bool :=
  let x := s.part p
  let r := x.rec_
  let first := x.cfg.viFirst + rfld r 0x14 0 10
  (x.state == .running || (x.state == .held && !x.heldDone)) && decide (Tab.get 0 x.fetches v < slotsPerVi r) &&
    decide (first ≤ v) && decide (v < first + recFetchCount r)

/-- FETCH_SLOT: at a scheduled slot the VI's held entries are written, its new records delivered in ring order, then the
ring is read. Outside a scheduled slot the ring is only read (R107, R565). [DEDUCED, log entry 57] -/
def fetchSlot (v : Nat) (s : State) : State :=
  match s.partOfVi v with
  | none => s
  | some p =>
    let due := slotDue s p v
    let s := s.modVi v (fun x => { x with resume := false })
    let s := if due then s.modPart p (fun x => { x with fetches := Tab.set 0 x.fetches v (Tab.get 0 x.fetches v + 1) }) else s
    if (s.vi v).state != .attached || s.host.dmaStopped then s
    else
      let s := if due then deliverN (s.vi v).read.length p v (deliverHeld v s) else s
      ringRead p v none s
/-- FETCH_SLOT (R565). -/
def execFetchSlot (v : Fin 1024) (s : State) : Host.Outcome State Fault Refusal := .next (refresh (fetchSlot v.val s))

/-- RING_READ_COMPLETION (R566): every open request of the read returns, in ring order. A record that the completion does not
bring has the old phase. -/
def ringReadCompletion (v : Nat) (cpl : CplStat) (data : List (BitVec 512)) (s : State) : State :=
  let x := s.vi v
  match x.reading with
  | none => s
  | some r =>
    let old : BitVec 512 := if x.cmdPhase then 0 else 256
    let s := (r.reqs.zip (List.range r.reqs.length)).foldl (fun s q =>
      if q.1.2.isSome then s else ringReturned v q.1.1 (cpl == .sc) false (data.getD q.2 old) s) s
    ringRetryAll (pumpAll s)
def execRingReadCompletion (v : Fin 1024) (cpl : CplStat) (data : List (BitVec 512)) (s : State) : Host.Outcome State Fault Refusal :=
  .next (refresh (ringReadCompletion v.val cpl data s))

/-- A fetch slot delivers the VI's front record where it has the given opcode: the single delivery of which FETCH_SLOT
performs as many as there are records. -/
def cmdDeliver (op v : Nat) (s : State) : State :=
  match s.partOfVi v, (s.vi v).read with
  | some p, r :: _ => if cmdOpcode r = op ∧ canDeliver s p v = true then refresh (deliverRecord p v s) else s
  | _, _ => s

/-- CMD_NOP (R561). -/
def execCmdNop (v : Fin 1024) (s : State) : Host.Outcome State Fault Refusal := .next (cmdDeliver 1 v.val s)
/-- CMD_TRANSFER (R562). -/
def execCmdTransfer (v : Fin 1024) (s : State) : Host.Outcome State Fault Refusal := .next (cmdDeliver 2 v.val s)
/-- CMD_BARRIER (R561). -/
def execCmdBarrier (v : Fin 1024) (s : State) : Host.Outcome State Fault Refusal := .next (cmdDeliver 3 v.val s)
/-- CMD_WAIT_STEP (R561). -/
def execCmdWaitStep (v : Fin 1024) (s : State) : Host.Outcome State Fault Refusal := .next (cmdDeliver 4 v.val s)

/-! ### The host driver (R556, R573, R577) -/

/-- HST_ATTACH: VERSION for another major version; DENIED before the start has completed, without Bus Master Enable or in
D3hot; accepted, host DMA runs, and each attached VI's held entries are written at its next fetch slot (R556, R577, R721).
[DEDUCED, log entry 58] -/
def hstAttach (val : Word) (s : State) : State :=
  let st : Status := if bits val.toNat 16 16 != 1 then .version
                     else if s.mgt.stage != .complete || !s.host.bme || s.host.d3hot then .denied else .ok
  if st != .ok then { s with host := { s.host with attachStat := st } }
  else
    { s with host := { s.host with attachStat := st, attached := true, dmaStopped := false, stopReason := 0, drvRenew := s.clk.now },
             vis := Tab.mapV {} (fun _ (x : Vi) => if x.state == .attached && !x.held.isEmpty then { x with resume := true } else x) s.vis }
/-- HST_ATTACH (R556). -/
def execHstAttach (val : Word) (s : State) : Host.Outcome State Fault Refusal := .next (refresh (hstAttach val s))

/-- HST_DRV_LEASE (R573). -/
def execHstDrvLease (s : State) : Host.Outcome State Fault Refusal :=
  .next { s with host := { s.host with drvRenew := s.clk.now } }

/-- DRV_LEASE_EXPIRY: host DMA stops with reason 0x2 where the driver is attached and has not renewed in this tick. -/
def drvLeaseExpiry (s : State) : State :=
  if s.host.attached && s.host.drvRenew != s.clk.now then stopDma 2 s else s
def execDrvLeaseExpiry (s : State) : Host.Outcome State Fault Refusal := .next (refresh (drvLeaseExpiry s))

/-- DRV_DETACH (R573). -/
def execDrvDetach (s : State) : Host.Outcome State Fault Refusal := .next (refresh (stopDma 1 s))

/-- BUS_MASTER_DISABLE (R573). -/
def execBusMasterDisable (s : State) : Host.Outcome State Fault Refusal :=
  .next (refresh (stopDma 3 { s with host := { s.host with bme := false } }))

/-- BUS_MASTER_ENABLE (R556). -/
def execBusMasterEnable (s : State) : Host.Outcome State Fault Refusal := .next { s with host := { s.host with bme := true } }

/-- FUNCTION_LEVEL_RESET (R573, R574, R576). [DEDUCED, log entry 59] -/
def execFunctionLevelReset (s : State) : Host.Outcome State Fault Refusal := .next (refresh (resetHostIsland (stopDma 4 s)))

/-- PERST_ASSERT: the island resets and its link is down. [DEDUCED, log entry 59] -/
def perstAssert (s : State) : State :=
  let s := resetHostIsland (stopDma 5 s)
  { s with host := { s.host with perst := true, cfgReady := false, linkUp := false, rate := 0, width := 0, flit := false, inta := false } }
def execPerstAssert (s : State) : Host.Outcome State Fault Refusal := .next (refresh (perstAssert s))

/-- The link is up. -/
def linkCame (rate width : Nat) (flit : Bool) (s : State) : State :=
  refresh { s with host := { s.host with linkUp := true, cfgReady := true, rate := rate, width := width, flit := flit } }

/-- PERST_RELEASE: the host island trains its link and answers configuration requests, whatever stage the start has
reached (R721). -/
def execPerstRelease (rate width : Nat) (flit : Bool) (s : State) : Host.Outcome State Fault Refusal :=
  .next (linkCame rate width flit { s with host := { s.host with perst := false } })

/-- PCIE_LINK_UP: the link comes back; host DMA stays stopped until an attach (R575, R577). -/
def execPcieLinkUp (rate width : Nat) (flit : Bool) (s : State) : Host.Outcome State Fault Refusal :=
  .next (if s.host.perst then s else linkCame rate width flit s)

/-- PCIE_LINK_DOWN: host DMA stops and LINK_DOWN sets (R573, R580). -/
def pcieLinkDown (s : State) : State :=
  let s := stopDma 7 s
  raise 1 5 0 { s with host := { s.host with linkUp := false, rate := 0, width := 0, flit := false, inta := false } }
def execPcieLinkDown (s : State) : Host.Outcome State Fault Refusal := .next (refresh (pcieLinkDown s))

/-- D3HOT_ENTRY (R573). -/
def execD3hotEntry (s : State) : Host.Outcome State Fault Refusal :=
  .next (refresh (stopDma 6 { s with host := { s.host with d3hot := true } }))

/-- D0_ENTRY (R556). -/
def execD0Entry (s : State) : Host.Outcome State Fault Refusal := .next { s with host := { s.host with d3hot := false } }

/-- INTERRUPT_DISABLE_WRITE: with the bit set an asserted INTA is deasserted; cleared, INTA follows the level again
(R551). -/
def execInterruptDisableWrite (disable : Bool) (s : State) : Host.Outcome State Fault Refusal :=
  .next (refreshInt { s with host := { s.host with intDisable := disable } })

end Sys2Proof.Machine
end

