-- ==== Sys2Proof/Machine/ImgForm.lean ====
section
/-! DEFINITION. The Tilgaost image: report entries, records, reserved bits, clamping, and the checks of header, signature
and section table (R58 to R64, R79 to R87, R809 to R811). -/
namespace Sys2Proof.Machine
open Sys2Proof

/-! ### Report entries (R89) -/

/-- A report entry. -/
def entry (k : ReportKind) (sec part pos read : Nat) (used : Nat := 0) : ReportEntry :=
  { kind := k, sec := sec, part := part, position := pos, read := BitVec.ofNat 32 read, used := BitVec.ofNat 32 used }

/-- A structural entry where a check of the container fails. -/
def stru (sec pos read : Nat) : List ReportEntry := [entry .structural sec 0xFFFF pos read]

/-- The partition that an entry about a record names. -/
def Rec.owner (r : Rec) : Nat := if r.glob then 0xFFFF else r.part

/-- A field of a record, at its offset from the record's start; the header is not reached this way. -/
def rf (r : Rec) (off lo len : Nat) : Nat := bfld r.body (off - 8) lo len

/-- Length of a record with its header. -/
def recSize (r : Rec) : Nat := r.body.length + 8

/-- A check of a field of a record: where it fails, a structural entry shows the field. -/
def need (r : Rec) (ok : Bool) (off lo len : Nat) : List ReportEntry :=
  if ok then [] else [entry .structural r.sec r.owner (r.pos + off) (rf r off lo len)]

/-- A check of SUBJECT. -/
def needSubject (r : Rec) (ok : Bool) : List ReportEntry :=
  if ok then [] else [entry .structural r.sec r.owner (r.pos + 4) r.subject]

/-- A check of the first header word: REC_LEN, PARTITION or GLOBAL. -/
def needHead (r : Rec) (ok : Bool) : List ReportEntry :=
  if ok then [] else [entry .structural r.sec r.owner r.pos (recSize r + r.part * 65536 + (if r.glob then 2 ^ 22 else 0))]

/-- A check of a place in a record that shows a value of its own. -/
def needAt (r : Rec) (ok : Bool) (off read : Nat) : List ReportEntry :=
  if ok then [] else [entry .structural r.sec r.owner (r.pos + off) read]

/-! ### Reserved bits (R809) and clamping (R87) -/

/-- Ranges of bits: byte offset, first bit there, number of bits. -/
abbrev Ranges := List (Nat × Nat × Nat)

/-- The mask of ranges in a little-endian layout. -/
def maskOf (l : Ranges) : Nat := l.foldl (fun m f => m ||| ((2 ^ f.2.2 - 1) <<< (f.1 * 8 + f.2.1))) 0

/-- Entries for the 32-bit words that hold a reserved bit set: structural under FMT_MINOR 0, else IGNORED. -/
def rsvHits (minor sec part pos : Nat) (bs : List Byte) (mask : Nat) : List ReportEntry :=
  let x := leNat bs
  if x &&& mask = 0 then []
  else (List.range ((bs.length + 3) / 4)).flatMap (fun i =>
    if bits (x &&& mask) (32 * i) 32 = 0 then []
    else [entry (if minor = 0 then .structural else .ignored) sec part (pos + 4 * i) (bits x (32 * i) 32)])

/-- The bytes with the masked bits read as 0. -/
def rsvClear (bs : List Byte) (mask : Nat) : List Byte :=
  let n := 2 ^ (8 * bs.length)
  leBytes bs.length (leNat bs &&& ((n - 1) ^^^ (mask % n)))

/-- A clamp: offset of the field from the start of its record or unit, first bit, length, least and largest legal
value. -/
structure ClampRule where
  off : Nat
  lo  : Nat
  len : Nat
  min : Nat
  max : Nat
  deriving DecidableEq, Repr

/-- Replace a field of a byte string. -/
def putFld (bs : List Byte) (off lo len v : Nat) : List Byte :=
  leBytes bs.length (setBits (8 * bs.length) (leNat bs) (off * 8 + lo) len v)

/-- Apply one clamp to a byte string that starts at file position `pos`. -/
def clamp1 (sec part pos : Nat) (c : ClampRule) (a : List ReportEntry × List Byte) : List ReportEntry × List Byte :=
  let v := bfld a.2 c.off c.lo c.len
  let u := clampTo c.min c.max v
  if v = u then a
  else (a.1 ++ [entry .clamped sec part (pos + (c.off * 8 + c.lo) / 32 * 4) v u], putFld a.2 c.off c.lo c.len u)

/-- Apply clamps in order. -/
def clampAll (sec part pos : Nat) (cs : List ClampRule) (bs : List Byte) : List ReportEntry × List Byte :=
  cs.foldl (fun a c => clamp1 sec part pos c a) ([], bs)

/-! ### Records (R63) -/

/-- The records of a section or block of a given type that starts at file position `pos`, with the entries found: reserved
bits of the headers, and one structural entry where a record does not fit, at which the reading ends. -/
def splitRecs (minor sec : Nat) : Nat → Nat → List Byte → List Rec × List ReportEntry
  | 0, _, _ => ([], [])
  | k + 1, pos, bs =>
    if bs.isEmpty then ([], [])
    else
      let w := bfld bs 0 0 32
      let n := bits w 0 16
      if bs.length < 8 ∨ n < 8 ∨ n % 8 ≠ 0 ∨ bs.length < n then ([], stru sec pos w)
      else
        let r : Rec := { sec := sec, part := bits w 16 6, glob := w.testBit 22, subject := bfld bs 4 0 32, pos := pos,
                         body := (bs.take n).drop 8 }
        let rest := splitRecs minor sec k (pos + n) (bs.drop n)
        (r :: rest.1, rsvHits minor sec r.owner pos (bs.take 4) (maskOf [(0, 23, 9)]) ++ rest.2)

/-! ### The container: steps 1 to 3 of the validation order -/

/-- A section table entry (R59). -/
structure Sect where
  type : Nat
  off  : Nat
  size : Nat
  crc  : Nat
  pos  : Nat
  deriving DecidableEq, Repr

/-- The section table as the header gives it. -/
def sections (f : List Byte) : List Sect :=
  (List.range (bfld f 0x10 0 8)).map (fun i =>
    let at_ := bfld f 0x14 0 32 + 16 * i
    { type := bfld f at_ 0 8, off := bfld f (at_ + 4) 0 32, size := bfld f (at_ + 8) 0 32, crc := bfld f (at_ + 12) 0 32, pos := at_ })

/-- Outcome of a group of checks: a status that ends the load with the entries of its report, or the entries found and
the load goes on. -/
structure Check where
  ends    : Option Status := none
  entries : List ReportEntry := []
  deriving DecidableEq, Repr

/-- A load that ends ABORTED at the first structural entry; entries found before it stay in the report. -/
def Check.of (es : List ReportEntry) : Check :=
  if es.any (fun e => e.kind == .structural) then
    { ends := some .aborted,
      entries := es.takeWhile (fun e => e.kind != .structural) ++ (es.find? (fun e => e.kind == .structural)).toList }
  else { entries := es }

/-- Two groups in the order of R85. [DEDUCED, log entry 21] -/
def Check.then (a : Check) (b : Check) : Check :=
  match a.ends with
  | some _ => a
  | none => { ends := b.ends, entries := a.entries ++ b.entries }

/-- Step 1: MAGIC, HEADER_CRC, LENGTH, FMT_MAJOR (R85, R810, R811). `req` is the request's length; none is the boot image,
whose LENGTH 0 ends EMPTY. -/
def headerCheck (f : List Byte) (req : Option Nat) : Check :=
  let len := bfld f 8 0 32
  let bad := fun (pos : Nat) => ({ ends := some .aborted, entries := stru 0 pos (bfld f pos 0 32) } : Check)
  if bfld f 0 0 32 ≠ 0x4D494754 then bad 0
  else if crc32 ((f ++ List.replicate (44 - f.length) 0#8).take 44) ≠ bfld f 0x2C 0 32 then bad 0x2C
  else if req = none ∧ len = 0 then { ends := some .empty }
  else if len < 64 ∨ 0x01800000 < len ∨ req.getD len ≠ len ∨ f.length < len then bad 8
  else if bfld f 4 16 16 ≠ 1 then { ends := some .version }
  else {}

/-- The signature's table entry, where one is present. -/
def sigSect (f : List Byte) : Option Sect := (sections f).find? (fun e => e.type == 0x0F && e.size != 0)

/-- Whether a signature section's content is accepted (R79 to R83). -/
def sigOk (s : State) (f : List Byte) (e : Sect) : Bool :=
  let b := (f.drop e.off).take 200
  let w := fun (o : Nat) => BitVec.ofNat 384 (beNat ((b.drop o).take 48))
  bfld b 0 0 32 == 1 &&
  (!pcwOn s || BitVec.ofNat 384 (beNat ((leBytes 65 s.lcs.pcw.toNat).drop 16 |>.take 48)) == Config.sha384 ((b.drop 8).take 96)) &&
  Config.ecdsaOk (w 0x08) (w 0x38) (f.take e.off) (w 0x68) (w 0x98)

/-- Step 2: the signature. Of the section table only what locates the signature is used (a reading of R85's order). -/
def signatureCheck (s : State) (f : List Byte) : Check :=
  match sigSect f with
  | none => if pcwOn s && !rbit s.lcs.pcw 9 2 then { ends := some .denied } else {}
  | some e =>
    if e.size ≠ 200 then { ends := some .aborted, entries := stru 0x0F (e.pos + 8) e.size }
    else if e.off + 200 ≠ f.length then { ends := some .aborted, entries := stru 0x0F (e.pos + 4) e.off }
    else if sigOk s f e then {} else { ends := some .denied }

/-- The section types of a kind of image (R62). -/
def mandatoryTypes : List Nat := [1, 2, 3, 4, 5]
def forbiddenTypes : List Nat := [1, 2, 3, 7]
def knownType (t : Nat) : Bool := (decide (1 ≤ t) && decide (t ≤ 10)) || t == 0x0F

/-- Step 3: the header's other fields, the section table and the section CRCs (R58 to R62, R86, R809).
[DESIGN CHOICE, log entry 90] -/
def tableCheck (f : List Byte) : Check :=
  let minor := bfld f 4 0 16
  let full := bfld f 0xC 0 1 == 0
  let n := bfld f 0x10 0 8
  let tab := bfld f 0x14 0 32
  let se := sections f
  let live := se.filter (fun e => e.size != 0)
  let c (ok : Bool) (sec pos read : Nat) : List ReportEntry := if ok then [] else stru sec pos read
  let head := rsvHits minor 0 0xFFFF 0 (f.take 64)
      (maskOf [(0xC, 1, 7), (0xC, 14, 2), (0xC, 19, 13), (0x10, 8, 24), (0x28, 0, 32), (0x30, 0, 128)]) ++
    c (!full || bfld f 0xC 8 6 == 0) 0 0xC (bfld f 0xC 0 32) ++ c (!full || bfld f 0xC 16 3 == 0) 0 0xC (bfld f 0xC 0 32) ++
    c (!full || bfld f 0x20 0 64 == 0) 0 0x20 (bfld f 0x20 0 32) ++ c (bfld f 0xC 16 3 ≤ 4) 0 0xC (bfld f 0xC 0 32) ++
    c (n ≤ 16) 0 0x10 n ++ c (tab % 64 == 0 && decide (64 ≤ tab || n = 0) && decide (tab + 16 * n ≤ f.length)) 0 0x14 tab
  let rows := (List.range n).flatMap (fun i =>
    let e := se.getD i { type := 0, off := 0, size := 0, crc := 0, pos := 0 }
    let before := (se.take i).map (fun (x : Sect) => x.type)
    rsvHits minor e.type 0xFFFF e.pos ((f.drop e.pos).take 4) (maskOf [(0, 8, 24)]) ++
    c (before.all (fun t => decide (t < e.type))) e.type e.pos e.type ++
    (if e.size = 0 then []
     else
       (if knownType e.type then []
        else [entry (if minor = 0 then .structural else .ignored) e.type 0xFFFF e.pos e.type]) ++
       c (e.off % 64 == 0 && decide (64 ≤ e.off)) e.type (e.pos + 4) e.off ++
       c (decide (e.off + e.size ≤ f.length)) e.type (e.pos + 8) e.size ++
       c (live.all (fun (x : Sect) => x.pos == e.pos || decide (e.off + e.size ≤ x.off) || decide (x.off + x.size ≤ e.off)))
         e.type (e.pos + 4) e.off ++
       c (live.all (fun (x : Sect) => e.type != 0x0F || decide (x.off ≤ e.off))) e.type (e.pos + 4) e.off ++
       c (crc32 ((f.drop e.off).take e.size) == e.crc) e.type (e.pos + 12) e.crc ++
       c (full || !forbiddenTypes.contains e.type) e.type e.pos e.type))
  let missing := if full then (mandatoryTypes.filter (fun t => !live.any (fun (x : Sect) => x.type == t))).flatMap
    (fun t => stru t 0x10 n) else []
  let sig := match sigSect f with
    | some e => rsvHits minor 0x0F 0xFFFF (e.off + 4) ((f.drop (e.off + 4)).take 4) (maskOf [(0, 0, 32)])
    | none => []
  if n ≤ 16 then Check.of (head ++ rows ++ missing ++ sig) else Check.of head

/-- The records of the sections 0x01 to 0x0A, in file order of the table, with the entries of their headers. -/
def readRecs (f : List Byte) : List Rec × List ReportEntry :=
  ((sections f).filter (fun e => decide (1 ≤ e.type) && decide (e.type ≤ 10) && e.size != 0)).foldl
    (fun a e =>
      let b := splitRecs (bfld f 4 0 16) e.type (e.size / 8 + 1) e.off ((f.drop e.off).take e.size)
      (a.1 ++ b.1, a.2 ++ b.2)) ([], [])

end Sys2Proof.Machine
end

