-- ==== Sys2Proof/Machine/ImgRules.lean ====
section
/-! DEFINITION. Step 4 of the validation of an image: the rules of records and the rules across records (R64 to R77, R99 to
R104, R163, R175, R179, R214 to R216, R237, R286 to R293, R388 to R391, R422 to R425, R465, R504, R514, R543, R689, R809,
R812 to R814). -/
namespace Sys2Proof.Machine
open Sys2Proof

/-! ### Reserved bits of the layouts (R809), at offsets from the start of the record or unit -/

/-- Reserved bits of a record of a section, where they do not depend on a program or a variant. -/
def recRsv (r : Rec) : Ranges :=
  match r.sec with
  | 1 =>
    if 18 ≤ r.subject then []
    else (8, 10, 22) :: (if recSize r ≤ 16 then [] else
      (0x28, 0, 64) ::
      ((List.range 16).flatMap (fun w => [(0xF0 + 32 * w, 58, 5), (0xF8 + 32 * w, 52, 12), (0x104 + 32 * w, 4, 28), (0x108 + 32 * w, 0, 64)]) ++
       (List.range 16).flatMap (fun w => [(0x2F8 + 16 * w, 13, 2), (0x2F8 + 16 * w, 16, 16), (0x2FC + 16 * w, 0, 32)])))
  | 2 => (List.range 512).map (fun i => (0x108 + i, 6, 1))
  | 3 => [(8, 1, 31), (0x60, 0, 256)]
  | 4 => [(0x8, 10, 6), (0x8, 20, 12), (0xC, 7, 25), (0x268, 0, 256)] ++ (List.range 4).map (fun i => (0x10 + 8 * i, 48, 16)) ++
      (List.range 8).map (fun i => (0x248 + 4 * i, 12, 20))
  | 7 => [(8, 13, 3), (8, 24, 8), (0xC, 6, 2), (0xC, 15, 17), (0x10, 6, 2), (0x10, 14, 2), (0x10, 22, 10), (0x14, 24, 8), (0x18, 0, 64)]
  | 8 =>
    if r.subject = 0xFFFF then [(8, 1, 31), (0xC, 10, 6), (0xC, 26, 6), (0x10, 16, 16), (0x14, 10, 22)]
    else [(8, 9, 7), (8, 23, 1), (8, 27, 5), (0xC, 24, 8), (0x10, 9, 7), (0x10, 22, 2), (0x10, 29, 3), (0x14, 24, 8)]
  | 10 => [(0x14, 0, 32)]
  | _ => []

/-- The mask of a record's reserved bits over its body. -/
def recMask (r : Rec) : Nat := maskOf ((recRsv r).map (fun f => (f.1 - 8, f.2)))

/-- Reserved bits of the units of a program: header, step record, slot map. -/
def headRsv : Ranges := [(8, 48, 16), (0x14, 8, 24), (0x18, 18, 14), (0x1C, 0, 288)]
def stepRsv : Ranges := [(0, 29, 3), (0x10, 8, 8), (0x14, 10, 6), (0x14, 26, 6), (0x18, 24, 8), (0x1C, 24, 8), (0x2C, 0, 160)]

/-- Reserved bits of an entry of a descriptor pool by its KIND. -/
def descRsv (kind : Nat) : Ranges :=
  if kind = 1 then [(0, 15, 1), (0, 28, 4), (4, 18, 14), (0x38, 48, 15)]
  else if kind = 2 then [(0, 4, 28), (4, 0, 32), (0x1C, 0, 32), (0x30, 0, 128)]
  else if kind = 3 then [(0, 31, 1), (4, 31, 1), (0x10, 58, 6), (0x18, 48, 16), (0x24, 11, 5), (0x24, 27, 5), (0x28, 48, 15),
                         (0x30, 48, 16), (0x38, 0, 64)]
  else []

/-- A 64 B unit of a record's body, its file position and its record. -/
structure Unit64 where
  src  : Rec
  pos  : Nat
  body : List Byte
  deriving DecidableEq, Repr

/-- The 64 B units of records in file order. -/
def units64 (rs : List Rec) : List Unit64 :=
  rs.flatMap (fun r => (List.range (r.body.length / 64)).map (fun i =>
    { src := r, pos := r.pos + 8 + 64 * i, body := (r.body.drop (64 * i)).take 64 }))

/-- A check of a field of a unit. -/
def needU (u : Unit64) (ok : Bool) (off lo len : Nat) : List ReportEntry :=
  if ok then [] else [entry .structural u.src.sec u.src.owner (u.pos + off) (bfld u.body off lo len)]

/-- Reserved bits of the place that a unit has in a program of `n` step records. [DESIGN CHOICE, log entry 91] -/
def progRsv (n i : Nat) : Nat := if i = 0 then maskOf headRsv else if i ≤ n then maskOf stepRsv else 0

/-- Change the units of a list of records by their place among all of them. -/
def mapUnits (f : Nat → List Byte → List Byte) : Nat → List Rec → List Rec
  | _, [] => []
  | i, r :: rs =>
    let n := r.body.length / 64
    let b := (List.range n).flatMap (fun k => f (i + k) ((r.body.drop (64 * k)).take 64))
    { r with body := b ++ r.body.drop (64 * n) } :: mapUnits f (i + n) rs

/-! ### What the checks look at -/

/-- An image as the cross-record rules see it: the records in force as base records, the variants, the site classes in
the records and those expected, and the stack positions that the package has. -/
structure View where
  minor   : Nat
  recs    : List Rec
  vars    : List Variant
  classes : List Nat
  expect  : List Nat
  fitted  : List Nat
  badStacks : Bool
  deriving DecidableEq, Repr

def View.sec (v : View) (t : Nat) : List Rec := v.recs.filter (fun r => r.sec == t)
def View.own (v : View) (p t : Nat) : List Rec := v.recs.filter (fun r => r.sec == t && r.part == p)

/-- The fields of a partition record (R68). -/
def parsePart (r : Rec) : PartCfg :=
  { enable := rf r 8 0 1 == 1, viFirst := rf r 0xC 0 10, viCount := rf r 0xC 16 10, cols := BitVec.ofNat 128 (rf r 0x10 0 128),
    banks := BitVec.ofNat 64 (rf r 0x20 0 64), chans := BitVec.ofNat 192 (rf r 0x28 0 192), sites := BitVec.ofNat 18 (rf r 0x40 0 18),
    cus := BitVec.ofNat 8 (rf r 0x44 0 8), links := BitVec.ofNat 8 (rf r 0x44 8 8), xfes := BitVec.ofNat 64 (rf r 0x48 0 64),
    proofChild := BitVec.ofNat 8 (rf r 0x44 16 8), proofParent := Fin.ofNat 8 (rf r 0x44 24 3), parentValid := rf r 0x44 27 1 == 1,
    domainSize := rf r 0x50 0 11, margin := rf r 0x50 16 16, lateLimit := rf r 0x54 0 32, proofTimeout := rf r 0x58 0 32,
    faultLimit := rf r 0x5C 0 32 }

/-- The configuration that an image gives a partition. -/
def View.cfg (v : View) (p : Nat) : PartCfg :=
  match (v.sec 3).find? (fun r => r.subject == p) with
  | some r => parsePart r
  | none => {}

/-- Enabled partitions of an image, rising. -/
def View.enabled (v : View) : List Nat := (List.range 64).filter (fun p => (v.cfg p).enable)

/-- The enabled partition that owns a site, a double site being one unit named by its even site (R70, R814). -/
def View.siteOwner (v : View) (n : Nat) : Option Nat := v.enabled.find? (fun p => (v.cfg p).sites.getLsbD n)

/-- The view of records and variants in a package. -/
def mkView (s : State) (minor : Nat) (recs : List Rec) (vars : List Variant) : View :=
  let cls := (List.range 18).map (fun n =>
    match recs.find? (fun r => r.sec == 1 && r.subject == n) with
    | some r => rf r 8 0 4
    | none => 0)
  { minor := minor, recs := recs, vars := vars, classes := cls, expect := (List.range 18).map (fun n => expectedClass s n (cls.getD n 0)),
    fitted := fittedStacks s, badStacks := stackMismatch s }

/-- A partition's configuration with the units of an exclusion list taken out of its masks (R74, R818). -/
def exclude (c : PartCfg) (ex : List (Nat × Nat)) : PartCfg :=
  ex.foldl (fun c e =>
    let i := e.2
    if e.1 = 1 then { c with cols := putBit c.cols i false }
    else if e.1 = 2 then { c with banks := putBit c.banks i false }
    else if e.1 = 3 then { c with chans := putBit c.chans i false }
    else if e.1 = 4 then { c with chans := (List.range 32).foldl (fun m k => putBit m (i * 32 + k) false) c.chans }
    else if e.1 = 5 then { c with sites := putBit c.sites i false }
    else if e.1 = 6 then { c with xfes := putBit c.xfes i false }
    else if e.1 = 7 then { c with cus := putBit c.cus i false }
    else if e.1 = 8 then { c with links := putBit c.links i false }
    else if e.1 = 9 then { c with proofChild := putBit c.proofChild i false, parentValid := c.parentValid && c.proofParent.val != i }
    else c) c

/-- Whether a partition owns or names a unit (R71, R818). -/
def namesUnit (c : PartCfg) (ty ix : Nat) : Bool :=
  match ty with
  | 1 => c.cols.getLsbD ix
  | 2 => c.banks.getLsbD ix
  | 3 => c.chans.getLsbD ix
  | 4 => (List.range 32).any (fun k => c.chans.getLsbD (ix * 32 + k))
  | 5 => c.sites.getLsbD ix
  | 6 => c.xfes.getLsbD ix
  | 7 => c.cus.getLsbD ix
  | 8 => c.links.getLsbD ix
  | 9 => c.proofChild.getLsbD ix || (c.parentValid && c.proofParent.val == ix)
  | _ => false

/-- Whether a context is one of a partition's VIs (R163, R293, R425). -/
def ctxOf (c : PartCfg) (x : Nat) : Bool := decide (c.viFirst ≤ x) && decide (x < c.viFirst + c.viCount)

/-- No two ranges of a list overlap. -/
def apart (l : List (Nat × Nat)) : Bool :=
  (List.range l.length).all (fun i => (List.range i).all (fun j =>
    let a := l.getD i (0, 0)
    let b := l.getD j (0, 0)
    decide (a.2 ≤ b.1) || decide (b.2 ≤ a.1) || decide (a.2 ≤ a.1) || decide (b.2 ≤ b.1)))

/-- Records after the first with the same subject, in one section. [DEDUCED, log entry 22] -/
def dupSubjects (rs : List Rec) : List ReportEntry :=
  (List.range rs.length).flatMap (fun i =>
    match rs[i]? with
    | some r => needSubject r (!(rs.take i).any (fun x => x.subject == r.subject))
    | none => [])

/-! ### Package layout and sites (R66, R72, R337, R422 to R425, R465, R812, R813) -/

/-- Ranges of the valid outbound windows of a site record by a test: index, DVA range, physical range. -/
def recOuts (r : Rec) : List (Nat × Nat × Nat × Nat × Nat) :=
  ((List.range 16).filter (fun w => rf r (0xF0 + 32 * w) 63 1 == 1)).map (fun w =>
    let o := 0xF0 + 32 * w
    (w, rf r o 0 48, rf r o 48 10, rf r (o + 8) 0 52, rf r (o + 0x10) 0 32 * 0x10000))

/-- The unit of device memory or of a site in which a whole physical range lies (R324): type and index. -/
def physUnit (pa size : Nat) : Option (Nat × Nat) :=
  let last := pa + size - 1
  if last < 0x20000000 then
    (if pa / 0x800000 = last / 0x800000 ∧ last % 0x800000 < 0x500000 then some (2, pa / 0x800000) else none)
  else if 0x010000000000 ≤ pa ∧ last < 0x016000000000 then
    (if pa / 0x80000000 = last / 0x80000000 then some (3, (pa - 0x010000000000) / 0x80000000) else none)
  else if 0x100000000000 ≤ pa ∧ last < 0x100000000000 + 18 * 0x10000000000 then
    (if pa / 0x10000000000 = last / 0x10000000000 then some (5, (pa - 0x100000000000) / 0x10000000000) else none)
  else none

/-- The rules of R425 and R465 for a site record of 1,008 B. -/
def siteRules (v : View) (r : Rec) : List ReportEntry :=
  let n := r.subject
  let c := rf r 8 0 4
  let owner := v.siteOwner n
  let cfg := match owner with | some p => v.cfg p | none => {}
  let outs := recOuts r
  let ins := (List.range 16).filter (fun w => rf r (0x2F8 + 16 * w) 15 1 == 1)
  let grants := (List.range 8).filter (fun g => rf r (0x18 + 2 * g) 15 1 == 1)
  let dflt := rf r 0x14 10 1 == 1
  need r (rf r 8 4 2 != 3) 8 4 2 ++
  need r (owner.isSome || (grants.isEmpty && !dflt && outs.isEmpty && ins.isEmpty)) 0x14 0 32 ++
  need r (!dflt || (c != 1 && c != 3)) 0x14 10 1 ++
  need r (!dflt || owner.isNone || ctxOf cfg (rf r 0x14 0 10)) 0x14 0 10 ++
  grants.flatMap (fun g => need r (owner.isNone || ctxOf cfg (rf r (0x18 + 2 * g) 0 10)) (0x18 + 2 * g) 0 16) ++
  outs.flatMap (fun w =>
    let o := 0xF0 + 32 * w.1
    let size := w.2.2.2.2
    need r (owner.isNone || ctxOf cfg w.2.2.1) o 48 10 ++
    need r (w.2.1 % 0x10000 == 0 && decide (w.2.1 + size ≤ 2 ^ 47)) o 0 48 ++
    need r (w.2.2.2.1 % 0x10000 == 0 && (owner.isNone || size == 0 ||
      (match physUnit w.2.2.2.1 size with
       | some (5, m) =>
         let e := if v.expect.getD m 0 = 5 then m - 1 else m
         e != n && cfg.sites.getLsbD e
       | some (ty, ix) => namesUnit cfg ty ix
       | none => false))) (o + 8) 0 52 ++
    need r (rf r (o + 0x14) 2 1 == 0 || (c != 3 && c != 4)) (o + 0x14) 0 32) ++
  ins.flatMap (fun w => need r (owner.isNone || ctxOf cfg (rf r (0x2F8 + 16 * w) 0 10)) (0x2F8 + 16 * w) 0 10) ++
  need r ((outs.map (fun w => w.2.2.1)).eraseDups.all (fun x =>
    apart ((outs.filter (fun w => w.2.2.1 == x)).map (fun w => (w.2.1, w.2.1 + w.2.2.2.2))))) 0xF0 0 32 ++
  need r (apart (ins.map (fun w => (rf r (0x2F0 + 16 * w) 0 32, rf r (0x2F0 + 16 * w) 0 32 + rf r (0x2F4 + 16 * w) 0 32)))) 0x2F0 0 32 ++
  need r (apart ((outs.filter (fun w => rf r (0x104 + 32 * w.1) 2 1 == 1)).map (fun w => (w.2.2.2.1, w.2.2.2.1 + w.2.2.2.2)))) 0xF0 0 32

/-- Whether a record of the package layout is package-wide or describes a unit of its partition (R71): a site, an upper half
standing for its unit, or a stack position of which the partition has a channel. [DEDUCED, log entry 22] -/
def layoutOwned (v : View) (r : Rec) : Bool :=
  let c := v.cfg r.part
  let n := r.subject
  r.glob || (if n < 18 then c.sites.getLsbD (if rf r 8 0 4 = 5 then n - 1 else n) else if 32 ≤ n ∧ n ≤ 37 then namesUnit c 4 (n - 32) else true)

/-- The package layout section. A record that describes nothing of the list of SUBJECTs, and a second record for one
subject, are errors; a stack or global record has at least its one word (readings). -/
def layoutRules (v : View) : List ReportEntry :=
  let rs := v.sec 1
  dupSubjects rs ++
  (if rs.any (fun r => r.subject == 0xFFFFFFFF) then [] else stru 1 ((rs.head?.map (·.pos)).getD 0) 0) ++
  rs.flatMap (fun r =>
    let n := r.subject
    needHead r (layoutOwned v r) ++
    if n < 18 then
      let c := rf r 8 0 4
      needHead r (recSize r == (if c = 0 ∨ c = 5 then 16 else 1008)) ++ need r (decide (c ≤ 5)) 8 0 4 ++
      need r (c == 0 || c == v.expect.getD n 0) 8 0 4 ++
      need r (c != 5 || (n % 2 == 1 && decide (1 ≤ v.classes.getD (n - 1) 0) && decide (v.classes.getD (n - 1) 0 ≤ 4))) 8 0 4 ++
      (if c = 0 ∨ c = 5 then [] else siteRules v r)
    else if 32 ≤ n ∧ n ≤ 37 then
      needHead r (decide (16 ≤ recSize r)) ++ need r (rf r 8 0 1 == 0 || (v.fitted.contains (n - 32) && !v.badStacks)) 8 0 1
    else if n = 0xFFFFFFFF then needHead r (decide (16 ≤ recSize r))
    else needSubject r false)

/-! ### The partition map (R68 to R72, R163, R543, R814) -/

/-- Units that two enabled partitions both own: a bit of the mask at an offset. -/
def sharedMask (v : View) (p : Nat) (f : PartCfg → Nat) : Bool :=
  (v.enabled.filter (fun q => decide (q < p))).all (fun q => f (v.cfg q) &&& f (v.cfg p) == 0)

/-- The rules of partition records. [DESIGN CHOICE, log entry 92] -/
def partRules (v : View) : List ReportEntry :=
  let rs := v.sec 3
  dupSubjects rs ++ rs.flatMap (fun r =>
    let c := parsePart r
    let p := r.subject
    let vi (q : Nat) := let d := v.cfg q; (d.viFirst, d.viFirst + d.viCount)
    needSubject r (decide (p < 64)) ++ needHead r (recSize r == 128) ++
    need r (c.viCount == 0 || (decide (1 ≤ c.viFirst) && decide (c.viFirst + c.viCount ≤ 1024))) 0xC 0 10 ++
    need r ((bitsOf 192 c.chans.toNat).all (fun k => v.fitted.contains (k / 32) && !v.badStacks)) 0x28 0 32 ++
    need r ((bitsOf 18 c.sites.toNat).all (fun n => v.classes.getD n 0 != 0 && v.expect.getD n 0 != 5)) 0x40 0 18 ++
    (if c.enable then
      need r (c.domainSize != 0) 0x50 0 11 ++ need r (c.cols == 0 || c.viCount != 0) 0xC 16 10 ++
      need r (c.viCount == 0 || c.xfes != 0) 0x48 0 32 ++
      need r (sharedMask v p (fun d => d.cols.toNat)) 0x10 0 32 ++ need r (sharedMask v p (fun d => d.banks.toNat)) 0x20 0 32 ++
      need r (sharedMask v p (fun d => d.chans.toNat)) 0x28 0 32 ++ need r (sharedMask v p (fun d => d.sites.toNat)) 0x40 0 18 ++
      need r (sharedMask v p (fun d => d.cus.toNat)) 0x44 0 8 ++ need r (sharedMask v p (fun d => d.xfes.toNat)) 0x48 0 32 ++
      need r ((v.enabled.filter (fun q => decide (q < p))).all (fun q => apart [vi q, vi p])) 0xC 0 10
     else []))

/-! ### Micro-operations and slot images (R163, R167 to R169, R175, R179, R214 to R216, R237, R238) -/

/-- Formats that an opcode's row lists (R169); none: the row lists no format. Not in the list: a reserved opcode. -/
def opFormats (op : Nat) : Option (Option (List Nat)) :=
  let arith := [0, 1, 2, 3, 14]
  if op ≤ 4 ∨ (8 ≤ op ∧ op ≤ 0xC) ∨ op = 0x33 ∨ op = 0x38 ∨ op = 0x39 ∨ op = 0x3C then some none
  else if op = 0x13 ∨ op = 0x34 ∨ op = 0x3A then some (some [0, 1, 2, 3])
  else if (0x10 ≤ op ∧ op ≤ 0x16) ∨ op = 0x30 then some (some arith)
  else if op = 0x18 then some (some (List.range' 2 12))
  else if op = 0x20 then some (some (List.range 15))
  else if op = 0x21 ∨ op = 0x22 then some (some (List.range' 6 6))
  else if op = 0x28 then some (some [1, 2, 3])
  else if op = 0x31 ∨ op = 0x32 ∨ op = 0x3B then some (some [0, 1])
  else none

/-- Operands that an opcode uses: destination, then sources A, B and C. -/
def opUses (op fmt : Nat) : Bool × Bool × Bool × Bool :=
  if op ≤ 4 ∨ op = 0xA then (false, false, false, false)
  else if op = 8 ∨ op = 0xC ∨ op = 0x3C then (true, false, false, false)
  else if op = 9 ∨ op = 0xB ∨ op = 0x38 then (false, true, false, false)
  else if op = 0x39 then (false, true, true, false)
  else if op = 0x13 ∨ op = 0x16 then (true, true, true, true)
  else if op = 0x18 then (true, true, true, isMx fmt)
  else if op = 0x20 ∨ op = 0x28 ∨ op = 0x30 ∨ op = 0x31 ∨ op = 0x3A then (true, true, false, false)
  else if op = 0x21 ∨ op = 0x22 then (true, true, false, true)
  else (true, true, true, false)

/-- Operand numbers that can be a source, a destination (R167). -/
def isSource (n : Nat) : Bool := decide (n ≤ 0x27) || n == 0x29 || n == 0x3F
def isDest (n : Nat) : Bool := decide (n ≤ 0x23) || n == 0x28 || n == 0x3F

/-- Elements of a format in a 512-bit register (R207). -/
def perReg (fmt : Nat) : Nat := if elemBits fmt = 6 then 64 else 512 / elemBits fmt

/-- Whether a micro-operation of a slot with `n` operations keeps the rules of R175. -/
def uopOk (xfes : BitVec 64) (n : Nat) (u : Uop) : Bool :=
  match opFormats u.op with
  | none => false
  | some f =>
    let use := opUses u.op u.fmt
    let groups := if u.fmt = 2 ∨ u.fmt = 3 then 1 else if u.fmt = 10 ∨ u.fmt = 13 then 4 else 2
    let a := perReg u.fmt
    let b := perReg (bits u.imm 0 4)
    let blk := bits u.imm 1 2
    (match f with | some l => l.contains u.fmt | none => true) &&
    (!use.1 || isDest u.dst) && (!use.2.1 || isSource u.a) && (!use.2.2.1 || isSource u.b) && (!use.2.2.2 || isSource u.c) &&
    (u.op != 2 || decide (bits u.imm 0 6 < n)) && (u.op != 3 || xfes.getLsbD (bits u.imm 0 6)) &&
    (u.op != 0xC || decide (bits u.imm 0 5 ≤ 21)) &&
    (u.op != 0x18 || ((u.dst == 0x3F || (decide (0x20 ≤ u.dst) && decide (u.dst ≤ 0x23))) && decide (bits u.imm 0 4 + groups ≤ 16))) &&
    (u.op != 0x20 || (bits u.imm 0 4 != 15 && decide (bits u.imm 4 3 < max a b / min a b))) &&
    (!(u.op == 0x21 || u.op == 0x22) || (decide (u.c < 32) && decide (blk < (if u.fmt = 10 then 4 else 2)) &&
      (bits u.imm 0 1 == 1 || (let r := if u.op = 0x21 then u.a else u.dst; decide (r < 32) && r % 2 == 0)))) &&
    (u.op != 0x28 || decide (bits u.imm 0 4 ≤ 5)) && (!(u.op == 0x38 || u.op == 0x39) || bits u.imm 0 3 != 7) &&
    (u.op != 0x3A || decide (bits u.imm 0 8 < 0x50))

/-- Whether a route set selects no reserved code and no output that R179 holds idle, for the cells of a run. -/
def routeSetOk (cols : BitVec 128) (cells : List Nat) (w : Nat) : Bool :=
  (List.range 4).all (fun d =>
    let sel := bits w (3 * d) 3
    decide (sel ≤ 5) && (sel == 0 || cells.all (fun n =>
      match neighbour n d with
      | some m => cols.getLsbD (m / 512 * 32 + m % 512 / 16)
      | none => false)))

/-- The rules of a cell configuration record for a partition as a schedule uses it. A run of 0 cells writes nothing (R41), and
its slot image is not looked at: the section is mandatory even where no partition has a column or a VI (a reading). -/
def cellRules (cfg : PartCfg) (r : Rec) : List ReportEntry :=
  let first := bits r.subject 0 11
  let count := bits r.subject 11 11
  let cells := (List.range count).map (· + first)
  let n := min (rf r 0xC 0 7) 64
  if recSize r ≠ 2056 then needHead r false
  else if count = 0 then needHead r (!r.glob)
  else
    needHead r (!r.glob) ++ needSubject r (decide (first + count ≤ 2048) && cells.all (fun c => cfg.cols.getLsbD (c / 512 * 32 + c % 512 / 16))) ++
    need r (rf r 8 18 2 != 3) 8 18 2 ++ need r (ctxOf cfg (rf r 8 0 10)) 8 0 10 ++
    (List.range 4).flatMap (fun i => need r (rf r (0x10 + 8 * i) 0 48 % 64 == 0) (0x10 + 8 * i) 0 48) ++
    (List.range n).flatMap (fun i =>
      let w := rf r (0x48 + 8 * i) 0 64
      let u := uopOf w
      need r (uopOk cfg.xfes n u) (0x48 + 8 * i) 0 32) ++
    (List.range 8).flatMap (fun i => need r (routeSetOk cfg.cols cells (rf r (0x248 + 4 * i) 0 12)) (0x248 + 4 * i) 0 32)

/-! ### Descriptor pools (R284 to R293, R504, R514, R543) -/

/-- The word of a unit as a 512-bit entry. -/
def unitVal (u : Unit64) : BitVec 512 := BitVec.ofNat 512 (leNat u.body)

/-- Whether a collective descriptor keeps the rules of R514 that look at one descriptor. [DEDUCED, log entry 22] -/
def collOk (cfg : PartCfg) (ring : Option Nat) (d : BitVec 512) : Bool :=
  let op := cOp d
  let alg := cAlg d
  let src := cSrcFmt d
  let dst := cDstFmt d
  let m := (List.range 4).map (cMask d)
  let unused := if alg = 1 then [] else [cMask d 2, cMask d 3]
  decide (op ≤ 4) && alg != 3 && cRedop d != 3 && src != 15 && dst != 15 && cRnd d != 3 && !isMx src && !isMx dst &&
  (!cGrid d || (decide (op ≤ 1) && cRedop d == 0 && decide (src ≤ 3) && decide (dst ≤ 3))) &&
  (!(decide (2 ≤ op)) || src == dst) && (alg != 2 || ((op == 0 || op == 4) && decide (popcount 8 (cMask d 0) ≤ 1))) &&
  (alg != 1 || cMembers d % cDimX d == 0) &&
  decide (1 ≤ cMembers d) && decide (cMembers d ≤ cfg.domainSize) && decide (cRank d < cMembers d) &&
  decide (cRoot d < cMembers d) && unused.all (· == 0) &&
  m.all (fun x => x &&& (255 - cfg.links.toNat) == 0) &&
  (List.range 8).all (fun n => decide (((m.filter (fun x => x.testBit n)).length) ≤ 1)) &&
  decide (cSlotFirst d + cSlotCount d ≤ 32) && ctxOf cfg (cCtx d) &&
  (!cWaitValid d || (cfg.xfes.getLsbD (cWaitEngine d) && ring != some (cWaitEngine d))) && (!cCompValid d || cComp d % 64 == 0)

/-- Whether two collective descriptors name one slot of one port (R504). -/
def slotClash (a b : BitVec 512) : Bool :=
  cMasks a &&& cMasks b != 0 && decide (cSlotFirst a < cSlotFirst b + cSlotCount b) && decide (cSlotFirst b < cSlotFirst a + cSlotCount a)

/-- The entries of one pool of a schedule. -/
def poolUnits (rs : List Rec) (pool : Nat) : List Unit64 := units64 (rs.filter (fun r => r.subject == pool))

/-- The entry at a place of a pool. -/
def entryAt (us : List Unit64) (i : Nat) : Option (BitVec 512) := (us[i]?).map unitVal

/-- KIND of an entry. -/
def kindOf (e : BitVec 512) : Nat := rfld e 0 0 4
def extOf (e : BitVec 512) : Bool := kindOf e == 1 && rbit e 4 17

/-- The rules of the pools of a schedule: the masks of `cfg`, the ring engine, and what no partition record can excuse. An
EXT base is followed by its extension, and an extension follows such a base (readings of R284 and R285). [DEDUCED, log entry 22] -/
def poolRules (cfg : PartCfg) (ring : Option Nat) (rs : List Rec) : List ReportEntry :=
  rs.flatMap (fun r => needHead r (!r.glob && r.body.length % 64 == 0) ++ needSubject r (decide (r.subject < 256))) ++
  (rs.map (·.subject)).eraseDups.flatMap (fun pool =>
    let us := poolUnits rs pool
    (List.range us.length).flatMap (fun i =>
      match us[i]? with
      | none => []
      | some u =>
        let e := unitVal u
        let k := kindOf e
        let next := entryAt us (i + 1)
        let prev : Option (BitVec 512) := if i = 0 then none else entryAt us (i - 1)
        let d : XDesc := { src := .pool u.src.part pool i, base := e, ext := next.getD 0 }
        needU u (k == 1 || k == 2 || k == 3) 0 0 4 ++
        (if k = 1 then
          needU u (!extOf e || (match next with | some x => kindOf x == 2 | none => false)) 4 0 32 ++
          needU u (descOk cfg ring true d) 0 0 32 ++ needU u (!d.compValid || d.comp % 64 == 0) 0x38 0 48
         else if k = 2 then needU u (match prev with | some x => extOf x | none => false) 0 0 4
         else if k = 3 then needU u (collOk cfg ring e) 0 0 32 else [])))

/-! ### Step programs (R99 to R104, R286, R504) -/

/-- RECORD_COUNT and SLOT_MAP_COUNT of a schedule's program. -/
def recordCount (us : List Unit64) : Nat := match us[0]? with | some u => bfld u.body 0 0 32 | none => 0
def mapCount (us : List Unit64) : Nat := match us[0]? with | some u => bfld u.body 4 16 16 | none => 0

/-- The rules of one step record. FETCH_OFFSET is an offset, which R87 never clamps. [DEDUCED, log entry 22] -/
def stepRules (cfg : PartCfg) (ring : Option Nat) (us : List Unit64) (pools : List Rec) (i : Nat) (u : Unit64) : List ReportEntry :=
  let f := bfld u.body
  let n := f 0xC 8 8
  let first := f 0xC 16 16
  let pu := poolUnits pools (f 0xC 0 8)
  let run := (List.range n).filterMap (fun k => entryAt pu (first + k))
  let cm := f 0x10 0 8
  let colls := (List.range (popcount 8 cm)).filterMap (fun k => entryAt pu (f 0x10 16 16 + k))
  let tgt := f 4 0 16
  let eng := fun (e : BitVec 512) =>
    kindOf e != 1 || ((cfg.xfes.getLsbD (rfld e 0 4 6) && ring != some (rfld e 0 4 6)) &&
      (!rbit e 4 16 || (cfg.xfes.getLsbD (rfld e 4 10 6) && ring != some (rfld e 4 10 6))))
  needU u (decide (64 ≤ f 0 0 24)) 0 0 24 ++ needU u (decide (f 0x18 0 24 < f 0 0 24)) 0x18 0 24 ++ needU u (f 8 0 16 == 0xFFFF || decide (f 8 0 16 < mapCount us)) 8 0 16 ++
  needU u (decide (tgt < recordCount us)) 4 0 16 ++ needU u (cm &&& (255 - cfg.cus.toNat) == 0) 0x10 0 8 ++
  needU u (n == 0 || (decide (first + n ≤ pu.length) && run.all (fun e => kindOf e != 3) && run.all eng &&
    (match run.head?, run.getLast? with
     | some a, some b => kindOf a != 2 && !extOf b
     | _, _ => true))) 0xC 0 32 ++
  needU u (cm == 0 || (decide (colls.length = popcount 8 cm) && colls.all (fun e => kindOf e == 3) &&
    (List.range colls.length).all (fun a => (List.range a).all (fun b => !slotClash (colls.getD a 0) (colls.getD b 0))))) 0x10 0 32 ++
  needU u (f 0x14 16 10 == 0 || decide (f 0x14 0 10 + f 0x14 16 10 ≤ cfg.viCount)) 0x14 0 32 ++
  -- nested loops (R104)
  (if f 0 26 1 = 1 ∧ f 4 16 16 ≠ 0 ∧ tgt ≤ i then
    (List.range' tgt (i - tgt)).flatMap (fun j =>
      match us[j + 1]? with
      | some w => needU w (!(bfld w.body 0 26 1 == 1 && bfld w.body 4 16 16 != 0)) 4 0 32
      | none => [])
   else [])

/-- The rules of a schedule's program. -/
def programRules (v : View) (cfg : PartCfg) (ring : Option Nat) (rs pools : List Rec) : List ReportEntry :=
  let us := units64 rs
  let n := recordCount us
  rs.flatMap (fun r => needSubject r (r.subject == 0) ++ needHead r (!r.glob && r.body.length % 64 == 0)) ++
  (match us[0]? with
   | none => (rs.head?.map (fun r => needHead r false)).getD []
   | some h =>
     let cxl := bfld h.body 0x18 0 18
     needU h ((decide (1 ≤ n) || !cfg.enable) && decide (n ≤ 65536)) 0 0 32 ++ needU h (decide (us.length = 1 + n + mapCount us)) 4 0 32 ++
     needU h (decide (bfld h.body 4 0 16 < n) || n == 0) 4 0 16 ++ needU h (bfld h.body 8 0 48 % 32 == 0) 8 0 48 ++
     needU h ((bitsOf 18 cxl).all (fun s => cfg.sites.getLsbD s && v.expect.getD s 0 != 5)) 0x18 0 18) ++
  (List.range us.length).flatMap (fun i =>
    match us[i]? with
    | some u => if 1 ≤ i ∧ i ≤ n then stepRules cfg ring us pools (i - 1) u else []
    | none => [])

/-! ### QoS, starters, power (R78, R391, R689) -/

/-- Whether the unit of an initiator port belongs to a partition (R71, R391). -/
def portOwned (c : PartCfg) (n : Nat) : Bool :=
  if n < 64 then c.xfes.getLsbD n
  else if n < 72 then c.cus.getLsbD (n - 64)
  else if n < 136 then
    let k := (n - 72) / 16 * 32 + (n - 72) % 16 * 2
    c.cols.getLsbD k || c.cols.getLsbD (k + 1)
  else if n < 154 then c.sites.getLsbD (n - 136)
  else n < 162 && c.links.getLsbD (n - 154)

/-- The rules of QoS records. -/
def qosRules (cfg : PartCfg) (rs : List Rec) : List ReportEntry :=
  dupSubjects rs ++ rs.flatMap (fun r =>
    needHead r (recSize r == 24 && !r.glob) ++ needSubject r (r.subject == 0xFFFF || portOwned cfg r.subject))

def starterRules (rs : List Rec) : List ReportEntry :=
  dupSubjects rs ++ rs.flatMap (fun r => needHead r (recSize r == 24 && !r.glob) ++ needSubject r (r.subject == 0))

def powerRules (v : View) : List ReportEntry :=
  let rs := v.sec 7
  dupSubjects rs ++ rs.flatMap (fun r =>
    let g := (List.range 3).map (fun i => rf r 0xC (2 * i) 2)
    needHead r (recSize r == 32 && r.glob) ++ needSubject r (r.subject == 0) ++
    need r (g.all (· != 3) && g.eraseDups.length == 3) 0xC 0 6)

/-! ### Routes (R373, R380, R389, R390) -/

/-- The rules that look at one route record. [DEDUCED, log entry 22] -/
def routeForm (glob : Bool) (r : Rec) : List ReportEntry :=
  needHead r (recSize r == 1288 && r.glob == glob) ++ needSubject r (decide (r.subject < 96)) ++
  (List.range 512).flatMap (fun d =>
    let o := bits (rf r (8 + d / 2) 0 8) (4 * (d % 2)) 4
    need r (decide (o ≤ 7) || o == 15) (8 + d / 2) 0 8)

/-- Whether a destination port is a unit that a partition owns exclusively, whose route a partition route record may
change (R390). -/
def movable (c : PartCfg) (d : Nat) : Bool :=
  if d < 72 then portOwned c d
  else if d < 136 then
    let k := (d - 72) / 16 * 32 + (d - 72) % 16 * 2
    c.cols.getLsbD k && c.cols.getLsbD (k + 1)
  else if d < 154 then c.sites.getLsbD (d - 136)
  else if 166 ≤ d ∧ d < 230 then c.banks.getLsbD (d - 166)
  else if 230 ≤ d ∧ d < 422 then c.chans.getLsbD (d - 230)
  else false

/-- The base record of a router. -/
def baseRoute (v : View) (router : Nat) : List Byte :=
  match (v.sec 2).find? (fun r => r.subject == router) with
  | some r => r.body
  | none => List.replicate 256 0xFF#8 ++ List.replicate 1024 0#8

/-- A nibble of a routing table. -/
def routeNib (b : List Byte) (d : Nat) : Nat := bits (b.getD (d / 2) 0xFF).toNat (4 * (d % 2)) 4

/-- The rules of a partition route record against the base record (R390). An entry that repeats the base record's is no
change (a reading). -/
def partRouteRules (v : View) (p : Nat) (r : Rec) : List ReportEntry :=
  let b := baseRoute v r.subject
  let c := v.cfg p
  routeForm false r ++
  (List.range 512).flatMap (fun d =>
    need r (movable c d || routeNib r.body d == routeNib b d) (8 + d / 2) 0 8) ++
  (List.range 1024).flatMap (fun i =>
    let x := (b.getD (256 + i) 0).toNat
    let y := (r.body.getD (256 + i) 0).toNat
    let mine := fun (z : Nat) => z.testBit 7 && z % 64 == p
    need r (x == y || !y.testBit 7 || (mine y && mine x)) (0x108 + i) 0 8)

/-- A base record with what a partition route record gives (R390). -/
def mergeRoute (c : PartCfg) (p : Nat) (b r : List Byte) : List Byte :=
  (List.range 256).map (fun k =>
    let nib := fun (d : Nat) => if movable c d then routeNib r d else routeNib b d
    BitVec.ofNat 8 (nib (2 * k) + 16 * nib (2 * k + 1))) ++
  (List.range 1024).map (fun i =>
    let x := b.getD (256 + i) 0
    if x.toNat.testBit 7 && x.toNat % 64 == p then r.getD (256 + i) 0 else x)

/-- Bodies of route records by router. -/
abbrev RouteSet := List (Nat × List Byte)

/-- The output of a router for a destination, none where it is unrouted. -/
def RouteSet.out (rs : RouteSet) (router d : Nat) : Option Nat :=
  (rs.find? (fun r => r.1 == router)).bind (fun r => let o := routeNib r.2 d; if o ≤ 7 then some (router * 8 + o) else none)

/-- The link that traffic for a destination takes after the link of an output. -/
def RouteSet.after (rs : RouteSet) (d link : Nat) : Option Nat :=
  match Tab.get NocEnd.none Config.nocWires link with
  | .router r _ => rs.out r d
  | _ => none

/-- Dependencies between links: a packet for some destination holds the first and waits for the second (R373). Routes are the same on
every VN and VC. -/
def RouteSet.edges (rs : RouteSet) : List (Nat × Nat) :=
  ((List.range 512).flatMap (fun d => rs.filterMap (fun r => (rs.out r.1 d).bind (fun l => (rs.after d l).map (fun m => (l, m)))))).eraseDups

/-- Take away, round by round, the edges that lead nowhere; what stays lies on or leads into a cycle. -/
def pruneEdges : Nat → List (Nat × Nat) → List (Nat × Nat)
  | 0, es => es
  | n + 1, es => pruneEdges n (es.filter (fun e => es.any (fun f => f.1 == e.2)))

/-- Whether a partition has a slice of a router input's reserved VC for requests. -/
def RouteSet.hasSlice (rs : RouteSet) (p router input : Nat) : Bool :=
  match rs.find? (fun r => r.1 == router) with
  | none => false
  | some r => [0, 3].any (fun vn => (List.range 8).any (fun k =>
      let b := (r.2.getD (0x100 + input * 64 + vn * 16 + k) 0).toNat
      b.testBit 7 && b % 64 == p))

/-- The outputs through which a partition's packets for a destination go on from a router input; none where a slice or a route is
missing. The fuel is the number of routers. -/
def RouteSet.path (rs : RouteSet) (p d : Nat) : Nat → Nat → Nat → Option (List Nat)
  | 0, _, _ => none
  | n + 1, router, input =>
    if !rs.hasSlice p router input then none
    else match rs.out router d with
      | none => none
      | some l => match Tab.get NocEnd.none Config.nocWires l with
        | .router r i => (rs.path p d n r i).map (l :: ·)
        | .port q => if q = d then some [l] else none
        | .none => none

/-- The outputs that a port's scheduled packets of a partition use. -/
def RouteSet.portOuts (rs : RouteSet) (p port : Nat) : List Nat :=
  match Tab.get none Config.nocAttach port with
  | none => []
  | some ri => ((List.range 512).flatMap (fun d => (rs.path p d 96 (ri / 8) (ri % 8)).getD [])).eraseDups

/-- Entries of an output's wheel that a partition holds in the reserved class. -/
def RouteSet.reserved (rs : RouteSet) (p l : Nat) : Nat :=
  match rs.find? (fun r => r.1 == l / 8) with
  | none => 0
  | some r => ((List.range 64).filter (fun e => let b := (r.2.getD (0x300 + l % 8 * 64 + e) 0).toNat; b.testBit 7 && !b.testBit 6 && b % 64 == p)).length

/-- Whether the reserved entries of every output carry the RSV_RATE of the partition's ports routed through it (R380). -/
def RouteSet.ratesOk (rs : RouteSet) (p : Nat) (qos : List Rec) : Bool :=
  let ports := (qos.filter (fun r => r.part == p && decide (r.subject < 162))).map (fun r => (min 256 (rf r 0x10 0 9), rs.portOuts p r.subject))
  ((ports.flatMap (·.2)).eraseDups).all (fun l =>
    decide (((ports.filter (fun x => x.2.contains l)).map (·.1)).foldl (· + ·) 0 ≤ 4 * rs.reserved p l))

/-- Whether an image, with one partition's variant in force, meets R373 and R380. How routers and ports are wired is not in the
manual. [DESIGN CHOICE, log entry 23] -/
def routesFree (v : View) (p : Nat) (routes qos : List Rec) : Bool :=
  let rs : RouteSet := (v.sec 2).map (fun r =>
      (r.subject, match routes.find? (fun x => x.subject == r.subject) with
        | some x => mergeRoute (v.cfg p) p r.body x.body
        | none => r.body))
  let qs := v.recs.filter (fun r => r.sec == 8 && (qos.isEmpty || r.part != p)) ++ qos
  (pruneEdges rs.edges.length rs.edges).isEmpty && v.enabled.all (fun k => rs.ratesOk k qs)

/-! ### Schedules and variants (R67, R74 to R76, R388, R504) -/

/-- Records of a type in a schedule: the variant's where it carries a block of the type, else the base records (R76). -/
def schedRecs (v : View) (p : Nat) (x : Option Variant) (t : Nat) : List Rec :=
  match x with
  | some y => if y.types.contains t then y.recs.filter (fun r => r.sec == t) else v.own p t
  | none => v.own p t

/-- The rules of one schedule of a partition. What a variant carries names no unit that it excludes; base records that stay in
force under it are held to the partition's own masks (R75, R76). -/
def scheduleRules (v : View) (p : Nat) (x : Option Variant) : List ReportEntry :=
  let ex := match x with | some y => y.excl | none => []
  let full := v.cfg p
  let cfg := exclude full ex
  let ring := ringOf full ex
  let carries := fun (t : Nat) => match x with | some y => y.types.contains t | none => true
  let pools := schedRecs v p x 6
  (if carries 4 then (schedRecs v p x 4).flatMap (cellRules cfg) else []) ++
  poolRules (if carries 6 then cfg else full) ring pools ++
  programRules v (if carries 5 then cfg else full) ring (schedRecs v p x 5) pools ++
  (if carries 8 then qosRules cfg (schedRecs v p x 8) else []) ++
  (match x with
   | some y => (y.recs.filter (fun r => r.sec == 2)).flatMap (partRouteRules v p)
   | none => []) ++
  (if routesFree v p (match x with | some y => y.recs.filter (fun r => r.sec == 2) | none => [])
      (match x with | some y => y.recs.filter (fun r => r.sec == 8) | none => []) then []
   else stru 2 (((v.sec 2).head?.map (·.pos)).getD 0) 0)

/-- Step records and descriptors of an image (R67). -/
def stepTotal (v : View) : Nat :=
  ((List.range 64).map (fun p => recordCount (units64 (v.own p 5)))).foldl (· + ·) 0 +
  (v.vars.map (fun x => recordCount (units64 (x.recs.filter (fun r => r.sec == 5))))).foldl (· + ·) 0
def descTotal (v : View) : Nat :=
  (units64 (v.recs.filter (fun r => r.sec == 6))).length +
  (v.vars.map (fun x => (units64 (x.recs.filter (fun r => r.sec == 6))).length)).foldl (· + ·) 0

/-- HOST_TAGS_MIN of a partition in an image: its record's, or the default of R392. -/
def tagsMin (v : View) (p : Nat) : Nat :=
  match (v.own p 8).find? (fun r => r.subject == 0xFFFF) with
  | some r => min 512 (rf r 0xC 0 10)
  | none => 512 / v.enabled.length

/-- The collective descriptors of an image with their partitions (R504). -/
def allColls (v : View) : List (Nat × Unit64) :=
  let of := fun (rs : List Rec) => ((units64 (rs.filter (fun r => r.sec == 6))).filter (fun u => kindOf (unitVal u) == 3)).map
    (fun u => (u.src.part, u))
  of v.recs ++ v.vars.flatMap (fun x => of x.recs)

/-- The rules of a variant record: number, exclusions, a partition with VIs keeps an engine (R74, R543, R814). -/
def variantRules (v : View) (r : Rec) (x : Variant) : List ReportEntry :=
  let c := v.cfg x.part
  let limit := fun (ty : Nat) => ([0, 128, 64, 192, 6, 18, 64, 8, 8, 8] : List Nat).getD ty 0
  needHead r (!r.glob) ++ needSubject r (decide (1 ≤ r.subject) && decide (r.subject ≤ 4)) ++
  (List.range x.excl.length).flatMap (fun k =>
    let e := x.excl.getD k (0, 0)
    need r (decide (e.2 < limit e.1) && namesUnit c e.1 e.2 && (e.1 != 5 || v.expect.getD e.2 0 != 5)) (0xC + 4 * k) 0 32) ++
  need r (c.xfes == 0 || (exclude c x.excl).xfes != 0) 8 0 8

/-- Every rule of step 4 that looks across records (R64 to R77 and the chapters they name), over the base records and the
variants of an image. -/
def crossRules (v : View) (pairs : List (Rec × Variant)) : List ReportEntry :=
  let starters := (List.range 64).flatMap (fun p => starterRules (v.own p 10))
  layoutRules v ++ dupSubjects (v.sec 2) ++ (v.sec 2).flatMap (routeForm true) ++ partRules v ++ powerRules v ++
  (v.recs.filter (fun r => [4, 5, 6, 8, 9, 10].contains r.sec)).flatMap (fun r => needHead r (!r.glob)) ++
  ((List.range 64).filter (fun p => (v.cfg p).enable || v.recs.any (fun r => r.part == p && [4, 5, 6, 8].contains r.sec))).flatMap (fun p =>
    (if (v.cfg p).enable && (v.own p 5).isEmpty then
      (match (v.sec 3).find? (fun r => r.subject == p) with | some r => needSubject r false | none => [])
     else []) ++ scheduleRules v p none) ++ starters ++
  (List.range 64).flatMap (fun p => dupSubjects ((pairs.map (·.1)).filter (fun (r : Rec) => r.part == p))) ++
  pairs.flatMap (fun e => variantRules v e.1 e.2) ++
  v.vars.flatMap (fun x => scheduleRules v x.part (some x)) ++
  (if stepTotal v ≤ 65536 then [] else stru 5 0 (stepTotal v)) ++ (if descTotal v ≤ 16384 then [] else stru 6 0 (descTotal v)) ++
  (let t := (v.enabled.map (tagsMin v)).foldl (· + ·) 0
   if t ≤ 512 then [] else stru 8 0 t) ++
  (let cs := allColls v
   (List.range cs.length).flatMap (fun i =>
     match cs[i]? with
     | some a => needU a.2 (!(cs.take i).any (fun b => b.1 != a.1 && slotClash (unitVal b.2) (unitVal a.2))) 0x20 0 32
     | none => []))

/-! ### Variants (R74, R75) -/

/-- The embedded blocks of a variant record from an offset of its body on: their types, their records, the entries found. -/
def blocksOf (minor : Nat) (r : Rec) : Nat → Nat → List Nat × List Rec × List ReportEntry
  | 0, _ => ([], [], [])
  | k + 1, at_ =>
    if r.body.length ≤ at_ then ([], [], [])
    else
      let b := r.body.drop at_
      let t := bfld b 0 0 8
      let n := bfld b 4 0 32
      if b.length < 8 ∨ n < 8 ∨ n % 8 ≠ 0 ∨ b.length < n then ([], [], [entry .structural 9 r.owner (r.pos + 8 + at_ + 4) n])
      else
        let here := splitRecs minor t (n / 8 + 1) (r.pos + 8 + at_ + 8) ((b.take n).drop 8)
        let rest := blocksOf minor r k (at_ + n)
        (t :: rest.1, here.1 ++ rest.2.1,
         (if [2, 4, 5, 6, 8].contains t then [] else [entry .structural 9 r.owner (r.pos + 8 + at_) t]) ++
         rsvHits minor 9 r.owner (r.pos + 8 + at_) (b.take 4) (maskOf [(0, 8, 24)]) ++ here.2 ++
         here.1.flatMap (fun x => needHead x (!x.glob && x.part == r.part)) ++ rest.2.2)

/-- A variant record read (R74): its exclusions, its records, and the entries found. -/
def readVariant (minor : Nat) (r : Rec) : Variant × List ReportEntry :=
  let n := rf r 8 0 8
  let e := 4 + 4 * n
  let first := (e + 8 + 7) / 8 * 8 - 8
  let bl := blocksOf minor r (r.body.length / 8 + 1) first
  let words := (List.range n).map (fun k => rf r (0xC + 4 * k) 0 32)
  ({ part := r.part, number := r.subject, excl := words.map (fun w => (bits w 16 8, bits w 0 16)), types := bl.1, recs := bl.2.1 },
   need r (decide (n ≤ 64)) 8 0 8 ++ needHead r (decide (first ≤ r.body.length)) ++
   rsvHits minor 9 r.owner (r.pos + 8) (r.body.take first)
     (maskOf ([(0, 8, 24)] ++ (List.range n).map (fun k => (4 + 4 * k, 24, 8)) ++ (if n % 2 = 0 then [(e, 0, 32)] else []))) ++ bl.2.2)

/-! ### Step 4 as a whole -/

/-- Reserved bits of a slot image's micro-operations: IMM[24:9] of MXPACK and MXUNPACK (R214). -/
def opMask (body : List Byte) : Nat :=
  (List.range (min (bfld body 4 0 7) 64)).foldl (fun m i =>
    let op := bfld body (0x40 + 8 * i) 58 6
    if op = 0x21 ∨ op = 0x22 then m ||| maskOf [(0x40 + 8 * i, 9, 16)] else m) 0

/-- The whole mask of a record that is no program or pool. -/
def fullMask (r : Rec) : Nat := if r.sec = 4 then recMask r ||| opMask r.body else recMask r

/-- Reserved bits set in records, programs and pools as the file holds them. -/
def plainRsv (minor : Nat) (rs : List Rec) : List ReportEntry :=
  rs.flatMap (fun r =>
    if r.sec = 6 then (units64 [r]).flatMap (fun u => rsvHits minor 6 r.owner u.pos u.body (maskOf (descRsv (bfld u.body 0 0 4))))
    else if r.sec = 5 then []
    else rsvHits minor r.sec r.owner (r.pos + 8) r.body (fullMask r)) ++
  (List.range 64).flatMap (fun p =>
    let us := units64 (rs.filter (fun r => r.sec == 5 && r.part == p))
    (List.range us.length).flatMap (fun i => match us[i]? with
      | some u => rsvHits minor 5 u.src.owner u.pos u.body (progRsv (recordCount us) i)
      | none => []))

/-- A record with its reserved bits read as 0 (R809). Programs and pools are cleared unit by unit. -/
def clearRec (r : Rec) : Rec :=
  if r.sec = 6 then
    { r with body := ((List.range (r.body.length / 64)).flatMap (fun i =>
        let u := (r.body.drop (64 * i)).take 64
        rsvClear u (maskOf (descRsv (bfld u 0 0 4))))) ++ r.body.drop (r.body.length / 64 * 64) }
  else if r.sec = 5 then r
  else { r with body := rsvClear r.body (fullMask r) }

/-- The records of one schedule's program with reserved bits read as 0. -/
def clearProgram (rs : List Rec) : List Rec :=
  let n := recordCount (units64 rs)
  mapUnits (fun i u => rsvClear u (progRsv n i)) 0 rs

/-- Replace the programs of a list of records, partition by partition. -/
def overPrograms (f : List Rec → List Rec) (rs : List Rec) : List Rec :=
  rs.filter (fun r => r.sec != 5) ++ (List.range 64).flatMap (fun p => f (rs.filter (fun r => r.sec == 5 && r.part == p)))

/-- All reserved bits read as 0. -/
def clearAll (rs : List Rec) : List Rec := overPrograms clearProgram (rs.map clearRec)

/-- Step 4 for a full image's file, or a partial image's against the running image: the outcome and the candidate.
[DEDUCED, log entry 22] -/
def recordCheck (s : State) (f : List Byte) : Check × Image :=
  let minor := bfld f 4 0 16
  let kind := bfld f 0xC 0 1 == 1
  let p := bfld f 0xC 8 6
  let vnum := bfld f 0xC 16 3
  let run := s.img.run
  let rd := readRecs f
  let plain := rd.1.filter (fun r => r.sec != 9)
  let vr := rd.1.filter (fun r => r.sec == 9)
  let rv := vr.map (readVariant minor)
  let base0 := clearAll plain
  let vars0 := rv.map (fun x => { x.1 with recs := clearAll x.1.recs })
  let carried := ((sections f).filter (fun e => e.size != 0)).map (fun (e : Sect) => e.type)
  let base := if kind then run.base.filter (fun r => r.glob || r.part != p || !carried.contains r.sec) ++ base0 else base0
  let vars := if kind then run.variants.filter (fun x => x.part != p || !carried.contains 9) ++ vars0 else vars0
  let view := mkView s minor base vars
  let head := if kind then
      (if s.img.loaded && (s.part p).cfg.enable then [] else stru 0 0xC (bfld f 0xC 0 32)) ++
      (if bfld f 0x20 0 64 = run.imageId.toNat then [] else stru 0 0x20 (bfld f 0x20 0 32)) ++
      rd.1.flatMap (fun r => needHead r (!r.glob && r.part == p)) ++
      (if vnum = 0 || vars.any (fun x => x.part == p && x.number == vnum) then [] else stru 0 0xC (bfld f 0xC 0 32))
    else []
  let es := rd.2 ++ head ++ plainRsv minor plain ++ rv.flatMap (fun x => x.2 ++ plainRsv minor x.1.recs) ++ crossRules view (vr.zip vars0)
  let img : Image := { partialKind := kind, part := p, variant := vnum, fmtMinor := minor, imageId := BitVec.ofNat 64 (bfld f 0x18 0 64),
                       baseId := BitVec.ofNat 64 (bfld f 0x20 0 64), length := f.length, signed := (sigSect f).isSome,
                       digest := Config.sha384 f, carried := carried, base := base, recs := base, variants := vars }
  (Check.of es, img)

end Sys2Proof.Machine
end

