-- ==== Sys2Proof/Machine/MapOps.lean ====
section
/-! DEFINITION. Device mappings: firmware's choice of granules, the page tables in memory, MAP_DEVICE and UNMAP_DEVICE
(R271, R272, R345 to R349, R761). Which units, granules and table places firmware takes is its own free choice. -/
namespace Sys2Proof.Machine
open Sys2Proof

/-- Bytes of a page by its PAGE code: 4 KiB, 64 KiB, 2 MiB, 1 GiB. -/
def pageBytes (code : Nat) : Nat := if code = 0 then 0x1000 else if code = 1 then 0x10000 else if code = 2 then 0x200000 else 0x40000000

/-- Whether the unit of a granule is being tested, trained or zeroed (R358). -/
def unitZeroing (s : State) (g : Nat) : Bool :=
  if g < 5120 then (s.bank (g / 80)).zeroing || (s.bank (g / 80)).test else (s.chan ((g - 5120) / 1024)).zeroing

/-- A granule of a partition that can be assigned: unassigned, in a unit in service that is not being zeroed, not a granule
of page tables, not due for a repair and itself not due for zeroing (R351, R358). -/
def freeGran (s : State) (p g : Nat) : Bool :=
  let e := s.granule g
  granPart s g == some p && e.owner == 0 && !e.fenced && granUp s g && !unitZeroing s g && !s.mem.toZero.contains g && !s.xlt.ptGrans.any (fun x => x.2 == g) &&
  !s.mem.due.any (fun d => granOf (paSpot s d.pa) == g)

/-- Granules of the banks (`hbm` false) or channels of a partition, unit by unit. -/
def unitGrans (s : State) (p : Nat) (hbm : Bool) : List (List Nat) :=
  if hbm then (Tab.keysWhere s.mem.chans (fun c => c.owner == some p)).map chanGrans
  else (Tab.keysWhere s.mem.banks (fun b => b.owner == some p)).map bankGrans

/-- First granules of the free runs of `k` granules, aligned to `k`, within one bank or channel. -/
def freeRuns (s : State) (p : Nat) (hbm : Bool) (k : Nat) : List Nat :=
  (unitGrans s p hbm).flatMap (fun u =>
    (List.range (u.length / k)).filterMap (fun i =>
      let r := (u.drop (i * k)).take k
      if r.all (freeGran s p) then r.head? else none))

/-- Firmware's choice of one run. [DESIGN CHOICE, log entry 26] -/
def chooseRun (p : Nat) (hbm : Bool) (k : Nat) (s : State) : Option (Nat × State) :=
  let c := freeRuns s p hbm k
  if c.isEmpty then none
  else (c.drop (Config.mapChoice s.free % c.length)).head?.map (fun g => (g, { s with free := s.free + 1 }))

/-- Take a run for a context: each granule is zeroed, then assigned (R348, R761). -/
def assignRun (ctx : Nat) (wide : Bool) (k g : Nat) (s : State) : State :=
  (List.range k).foldl (fun s i =>
    let s := zeroGranule (g + i) s
    s.setGranule (g + i) { s.granule (g + i) with owner := ctx, partWide := wide }) s

/-! ### Page tables (R271, R346) -/

/-- A free 4 KiB table of a partition: in one of its table granules, or in a granule newly taken for tables. -/
def newTable (p : Nat) (hbm : Bool) (s : State) : Option (Nat × State) :=
  let spots := (s.xlt.ptGrans.filter (fun x => x.1 == p)).flatMap (fun x =>
    (List.range (granSize x.2 / 4096)).map (fun i => granBase x.2 + i * 4096))
  match spots.find? (fun a => !s.xlt.ptUsed.contains a) with
  | some a => some (a, { s with xlt := { s.xlt with ptUsed := a :: s.xlt.ptUsed } })
  | none =>
    match chooseRun p hbm 1 s with
    | none => none
    | some (g, s) =>
      let s := zeroGranule g s
      some (granBase g, { s with xlt := { s.xlt with ptGrans := s.xlt.ptGrans ++ [(p, g)], ptUsed := granBase g :: s.xlt.ptUsed } })

/-- Write an entry of a page table. -/
def writePte (a v : Nat) (s : State) : State :=
  match memCheck s a 0 with
  | .pass g => memPut s g a (leBytes 8 v) false
  | _ => s

/-- The leaf entries of a page: sixteen with CONTIG for 64 KiB, one otherwise. -/
def leaves (m : DevMap) (table : Nat) : List (Nat × Nat) :=
  let f := 1 + (if m.r then 4 else 0) + (if m.w then 8 else 0)
  if m.page = 1 then
    (List.range 16).map (fun i => (table + (bits m.dva 12 9 + i) * 8, m.pa + i * 0x1000 + f + 16))
  else
    let lv := if m.page = 0 then 0 else m.page - 1
    [(table + bits m.dva (12 + 9 * lv) 9 * 8, m.pa + f + (if lv = 0 then 0 else 2))]

/-- Enter a page below a table of level `lv`. -/
def enterPage (p : Nat) (m : DevMap) (hbm : Bool) : Nat → Nat → State → Option State
  | 0, table, s => some ((leaves m table).foldl (fun s e => writePte e.1 e.2 s) s)
  | lv + 1, table, s =>
    if lv + 1 = (if m.page ≤ 1 then 0 else m.page - 1) then some ((leaves m table).foldl (fun s e => writePte e.1 e.2 s) s)
    else
      let a := table + bits m.dva (12 + 9 * (lv + 1)) 9 * 8
      let e := leNat (s.mem.read a 8)
      if e.testBit 0 then enterPage p m hbm lv (bits e 12 40 * 4096) s
      else match newTable p hbm s with
        | none => none
        | some (t, s) => enterPage p m hbm lv t (writePte a (t + 1) s)

/-- Enter a page of a context; the root is made where there is none. -/
def mapPage (p : Nat) (m : DevMap) (s : State) : Option State :=
  let hbm := decide (0x010000000000 ≤ m.pa)
  let rooted : Option (Nat × State) := match Tab.get none s.xlt.roots m.ctx with
    | some r => some (r.toNat, s)
    | none => (newTable p hbm s).map (fun x =>
        (x.1, { x.2 with xlt := { x.2.xlt with roots := Tab.set none x.2.xlt.roots m.ctx (some (BitVec.ofNat 52 x.1)) } }))
  match rooted with
  | none => none
  | some (r, s) => (enterPage p m hbm 3 r s).map (fun s => xlForget m.ctx { s with xlt := { s.xlt with maps := s.xlt.maps ++ [m] } })

/-- Enter pages until one finds no room. -/
def mapPages (p : Nat) : List DevMap → State → Option State
  | [], s => some s
  | m :: ms, s => match mapPage p m s with
    | none => none
    | some s => mapPages p ms s

/-- Build a partition's tables anew from the list of its pages: the old tables' granules are zeroed and unassigned. A page
that finds no room for its tables loses its mapping. [DESIGN CHOICE, log entry 26] -/
def rebuildTables (p : Nat) (s : State) : State :=
  let old := s.xlt.ptGrans.filter (fun x => x.1 == p)
  let cfg := (s.part p).cfg
  let mine := fun (c : Nat) => decide (cfg.viFirst ≤ c) && decide (c < cfg.viFirst + cfg.viCount)
  let ms := s.xlt.maps.filter (fun m => mine m.ctx)
  let s := xlDrop (fun e => !e.host && mine e.ctx) (old.foldl (fun s x => releaseGran x.2 s) s)
  let inOld := fun (a : Nat) => old.any (fun x => decide (granBase x.2 ≤ a) && decide (a < granBase x.2 + granSize x.2))
  let s := { s with xlt := { s.xlt with ptGrans := s.xlt.ptGrans.filter (fun x => x.1 != p), ptUsed := s.xlt.ptUsed.filter (fun a => !inOld a),
                                        maps := s.xlt.maps.filter (fun m => !mine m.ctx),
                                        roots := s.xlt.roots.keep (fun c => !mine c) } }
  ms.foldl (fun s m => (mapPage p m s).getD s) s

/-! ### MAP_DEVICE and UNMAP_DEVICE (R761) -/

/-- Whether a page table of a partition may change: STOPPED or HELD (R272, R347). -/
def tableOpen (s : State) (p : Nat) : Bool := (s.part p).state == .stopped || (s.part p).state == .held

/-- Arguments that both commands share: context, PAGE, DVA, LENGTH, and the partition where the range is one that they
accept. [DESIGN CHOICE, log entry 26] -/
def mapRange (s : State) : Nat × Nat × Nat × Nat × Option Nat :=
  let a := mbArg s 0
  let ctx := bits a 0 10
  let pg := bits a 20 2
  let dva := mbArg64 s 1
  let len := mbArg64 s 3
  let b := pageBytes pg
  let p := s.partOfVi ctx
  (ctx, pg, dva, len, match p with
    | some p => if tableOpen s p && dva % b == 0 && len % b == 0 && decide (dva + len ≤ 2 ^ 47) then some p else none
    | none => none)

/-- Take, zero and assign runs of `k` granules, one after the other; none where one is not to be had. -/
def takeRuns (p : Nat) (hbm : Bool) (k ctx : Nat) (wide : Bool) (runs : Nat) (s : State) : Option (List Nat × State) :=
  (List.range runs).foldl (fun acc _ =>
    match acc with
    | none => none
    | some (rs, s) => (chooseRun p hbm k s).map (fun x => (rs ++ [x.1], assignRun ctx wide k x.1 x.2))) (some ([], s))

/-- Size of a granule of a kind of memory (R344). -/
def kindSize (hbm : Bool) : Nat := if hbm then 0x200000 else 0x10000

/-- The pages of a MAP, `per` to each run. -/
def mapPagesOf (ctx dva pg n per w : Nat) (rs : List Nat) : List DevMap :=
  (List.range n).map (fun i =>
    ({ ctx := ctx, dva := dva + i * pageBytes pg, page := pg, pa := granBase (rs.getD (i / per) 0) + i % per * pageBytes pg,
       r := w.testBit 17, w := w.testBit 18 } : DevMap))

/-- The end of a MAP, from the runs that it took: the pages enter the tables, or the whole MAP is refused. -/
def mapEnds (p ctx dva pg n per w total : Nat) (s : State) (o : Option (List Nat × State)) : State :=
  match o with
  | none => mbEnd .denied [] s
  | some (rs, t) =>
    match mapPages p (mapPagesOf ctx dva pg n per w rs) t with
    | none => mbEnd .denied [] s
    | some t => mbEnd .ok [total] t

/-- MAP_DEVICE: runs are taken, zeroed and assigned, then the pages enter the tables; a MAP that is refused maps nothing.
Pages of one command fill the granules it takes, one after the other. -/
def mapDevice (s : State) : State :=
  let a := mapRange s
  let w := mbArg s 0
  let mem := bits w 24 2
  let b := pageBytes a.2.1
  let dva := a.2.2.1
  let len := a.2.2.2.1
  if len = 0 then mbEnd .empty [] s
  else match a.2.2.2.2 with
  | none => mbEnd .denied [] s
  | some p =>
    let clash := s.xlt.maps.any (fun m => m.ctx == a.1 && decide (m.dva < dva + len) && decide (dva < m.dva + pageBytes m.page))
    if 2 ≤ mem || (a.2.1 == 3 && mem == 0) || clash then mbEnd .denied [] s
    else
      let hbm := mem == 1
      let k := max 1 (b / kindSize hbm)
      let per := max 1 (kindSize hbm / b)
      let n := len / b
      let runs := (n + per - 1) / per
      mapEnds p a.1 dva a.2.1 n per w (runs * k) s (takeRuns p hbm k a.1 (w.testBit 16) runs s)
def execMapDevice (tag : BitVec 8) (s : State) : Host.Outcome State Fault Refusal := .next (mbCommand 0x20 tag mapDevice s)

/-- Granules in which a page of a context lies. -/
def pageGrans (s : State) (m : DevMap) : List Nat :=
  let g := granOf (paSpot s m.pa)
  (List.range (max 1 (pageBytes m.page / granSize g))).map (· + g)

/-- UNMAP_DEVICE: the range has to cover mappings exactly; granules that no page uses any more are zeroed and released.
[DESIGN CHOICE, log entry 26] -/
def unmapDevice (s : State) : State :=
  let a := mapRange s
  let dva := a.2.2.1
  let len := a.2.2.2.1
  if len = 0 then mbEnd .empty [] s
  else match a.2.2.2.2 with
  | none => mbEnd .denied [] s
  | some p =>
    let hit := s.xlt.maps.filter (fun m => m.ctx == a.1 && decide (m.dva < dva + len) && decide (dva < m.dva + pageBytes m.page))
    let inside := hit.all (fun m => decide (dva ≤ m.dva) && decide (m.dva + pageBytes m.page ≤ dva + len))
    let size := (hit.map (fun m => pageBytes m.page)).foldl (· + ·) 0
    if !inside || size != len then mbEnd .denied [] s
    else
      let rest := s.xlt.maps.filter (fun m => !hit.contains m)
      let used := rest.flatMap (pageGrans s)
      let gone := ((hit.flatMap (pageGrans s)).eraseDups).filter (fun g => !used.contains g)
      let s := rebuildTables p { s with xlt := { s.xlt with maps := rest } }
      mbEnd .ok [gone.length] (gone.foldl (fun s g => releaseGran g s) s)
def execUnmapDevice (tag : BitVec 8) (s : State) : Host.Outcome State Fault Refusal := .next (mbCommand 0x21 tag unmapDevice s)

end Sys2Proof.Machine
end

