-- ==== Sys2Proof/Machine/Uops.lean ====
section
/-! DEFINITION. The meanings of the micro-operations (R169) and of the commands that reach the fabric from outside. -/
namespace Sys2Proof.Machine
open Sys2Proof

/-! ### Sources of the micro-operations -/

def noSrc (_ : Uop) : List Nat := []
def srcA (u : Uop) : List Nat := [u.a]
def srcAB (u : Uop) : List Nat := [u.a, u.b]
def srcABC (u : Uop) : List Nat := [u.a, u.b, u.c]
/-- A, B and the old value of DST. -/
def srcABD (u : Uop) : List Nat := [u.a, u.b, u.dst]
def srcAD (u : Uop) : List Nat := [u.a, u.dst]
def always (_ : UCtx) (_ : State) : Bool := true

/-- Element `i` of a list of values. -/
def nth (xs : List Nat) (i : Nat) : Nat := xs.getD i 0

/-! ### Control -/

/-- NOP (R169). -/
def uNop (n : Nat) (s : State) : State := issue n 0x00 noSrc false false false always (fun _ _ _ s => { st := s }) s
def execUNop (c : Fin 2048) (s : State) : Host.Outcome State Fault Refusal := .next (uNop c.val s)

/-- END: the cell has ended for this step (R169, R174). -/
def uEnd (n : Nat) (s : State) : State := issue n 0x01 noSrc false false false always (fun _ _ _ s => { st := s, fin := true }) s
def execUEnd (c : Fin 2048) (s : State) : Host.Outcome State Fault Refusal := .next (uEnd c.val s)

/-- LOOP: an idle counter loads the count; while non-zero it jumps and decrements; at zero it falls through and idles
(R169, read as R104 gives for a partition's counter). [DEDUCED, log entry 33] -/
def loopBody (x : UCtx) (s : State) : UOut :=
  let k := bits x.u.imm 22 1
  let c := s.cell x.n
  let v := (Tab.get none c.loops k).getD (bits x.u.imm 6 16)
  if v = 0 then { st := s.setCell x.n { c with loops := Tab.set none c.loops k none } }
  else { st := s.setCell x.n { c with loops := Tab.set none c.loops k (some (v - 1)) }, jump := some (bits x.u.imm 0 6) }
def uLoop (n : Nat) (s : State) : State := issue n 0x02 noSrc false false false always (fun x _ _ s => loopBody x s) s
def execULoop (c : Fin 2048) (s : State) : Host.Outcome State Fault Refusal := .next (uLoop c.val s)

/-- WAITP: issues once the progress counter of the named engine has reached the threshold (R169, R296). -/
def uWaitp (n : Nat) (s : State) : State :=
  issue n 0x03 noSrc false false false
    (fun x s => decide ((s.cell x.n).waitThr.toNat ≤ (s.xfe (bits x.u.imm 0 6)).progress.toNat))
    (fun x _ _ s => let c := s.cell x.n
                    { st := s.setCell x.n { c with waitThr := c.waitThr + BitVec.ofNat 32 (sfld x.sl 0x3C 0 32) } }) s
def execUWaitp (c : Fin 2048) (s : State) : Host.Outcome State Fault Refusal := .next (uWaitp c.val s)

/-- SYNC: the cell waits until every logical cell of its column has issued its SYNC with the same number (R169).
[DEDUCED, log entry 33] -/
def uSync (n : Nat) (s : State) : State :=
  syncColumn (colOf n)
    (issue n 0x04 noSrc false false false always
      (fun x _ _ s => { st := s.setCell x.n { s.cell x.n with sync := some (bits x.u.imm 0 8) } }) s)
def execUSync (c : Fin 2048) (s : State) : Host.Outcome State Fault Refusal := .next (uSync c.val s)

/-! ### Local store, constants and memory -/

/-- LD (R164, R169, R183, R195, R197). -/
def uLd (n : Nat) (e : Ecc) (s : State) : State :=
  issue n 0x08 noSrc true false false always
    (fun x _ _ s =>
      let v : Vec := Tab.get {} (s.cell x.n).ls (lpLine s x)
      let r := cellCheck x.n 1 true e s
      let t := if v.poison then markFlag x.p 2 r.2 else r.2
      { outs := [(x.u.dst, v.bits.toNat)], bad := v.poison || r.1, st := bumpLp x t }) s
def execULd (c : Fin 2048) (ecc : Ecc) (s : State) : Host.Outcome State Fault Refusal := .next (uLd c.val ecc s)

/-- ST (R164, R169, R183). -/
def uSt (n : Nat) (e : Ecc) (s : State) : State :=
  issue n 0x09 srcA false false false always
    (fun x vs poison s =>
      let r := cellCheck x.n 3 true e s
      let c := r.2.cell x.n
      let l := lpLine r.2 x
      { st := bumpLp x (r.2.setCell x.n { c with ls := Tab.set {} c.ls l { bits := BitVec.ofNat 512 (nth vs 0), poison := poison || r.1 } }) }) s
def execUSt (c : Fin 2048) (ecc : Ecc) (s : State) : Host.Outcome State Fault Refusal := .next (uSt c.val ecc s)

/-- GET (R164, R171, R172). -/
def uGet (n : Nat) (s : State) : State :=
  issue n 0x0A noSrc false false false (fun x s => mayRead s x.n)
    (fun x _ _ s =>
      let r := cellRead x [(bPtr s x + bits x.u.imm 0 21 * 64) % 2 ^ 48] 64 s
      let c := r.2.cell x.n
      { st := bumpB x (r.2.setCell x.n { c with rets := c.rets ++ [{ tags := r.1, size := 64 }] }) }) s
def execUGet (c : Fin 2048) (s : State) : Host.Outcome State Fault Refusal := .next (uGet c.val s)

/-- PUT (R164, R171, R183). -/
def uPut (n : Nat) (s : State) : State :=
  issue n 0x0B srcA false false false always
    (fun x vs poison s =>
      { st := bumpB x (cellWrite x ((bPtr s x + bits x.u.imm 0 21 * 64) % 2 ^ 48) 64 (nth vs 0) poison s) }) s
def execUPut (c : Fin 2048) (s : State) : Host.Outcome State Fault Refusal := .next (uPut c.val s)

/-- LDC (R169): a constant line of the slot image. -/
def uLdc (n : Nat) (e : Ecc) (s : State) : State :=
  issue n 0x0C noSrc true false false always
    (fun x _ _ s =>
      let r := cellCheck x.n 2 true e s
      { outs := [(x.u.dst, sfld x.sl (0x280 + 64 * bits x.u.imm 0 5) 0 512)], bad := r.1, st := r.2 }) s
def execULdc (c : Fin 2048) (ecc : Ecc) (s : State) : Host.Outcome State Fault Refusal := .next (uLdc c.val ecc s)

/-- The indices of a GATHER or SCATTER: the 32-bit lanes of A, as many as fit a register of elements of the size (the
manual gives neither the lanes' width nor what happens past the register: a choice of the model). [DEDUCED, log entry 33] -/
def gatherAddrs (x : UCtx) (base a : Nat) : List Nat × Nat :=
  let size := 2 ^ bits x.u.imm 0 3
  let cnt := min 16 (64 / size)
  (((lanes 32 16 a).take cnt).map (fun i => (base + i * size) % 2 ^ 48), size)

/-- GATHER (R169, R171, R172). [DEDUCED, log entry 33] -/
def uGather (n : Nat) (s : State) : State :=
  issue n 0x38 srcA false false false (fun x s => mayRead s x.n)
    (fun x vs poison s =>
      let g := gatherAddrs x (bPtr s x) (nth vs 0)
      let r := cellRead x g.1 g.2 s
      let c := r.2.cell x.n
      { st := r.2.setCell x.n { c with rets := c.rets ++ [{ tags := r.1, size := g.2, poison := poison }] } }) s
def execUGather (c : Fin 2048) (s : State) : Host.Outcome State Fault Refusal := .next (uGather c.val s)

/-- SCATTER (R169, R171, R183). -/
def uScatter (n : Nat) (s : State) : State :=
  issue n 0x39 srcAB false false false always
    (fun x vs poison s =>
      let g := gatherAddrs x (bPtr s x) (nth vs 0)
      { st := (g.1.zip (List.range g.1.length)).foldl (fun s p =>
          cellWrite x p.1 g.2 (bits (nth vs 1) (8 * g.2 * p.2) (8 * g.2)) poison s) s }) s
def execUScatter (c : Fin 2048) (s : State) : Host.Outcome State Fault Refusal := .next (uScatter c.val s)

/-! ### Elementwise arithmetic -/

/-- Whether a format's results are rounded. -/
def roundsFmt (x : UCtx) : Bool := x.u.fmt != 14

/-- An elementwise result of two or three registers: `f` takes the draw word and the three elements. -/
def elemwise (x : UCtx) (s : State) (vs : List Nat) (f : Nat → Nat → Nat → Nat → Nat) : Nat :=
  let m := perLine x.u.fmt
  let w := (fmtOf x.u.fmt).width
  let ds := cellDraws x m s
  join x.u.fmt ((List.range m).map (fun i => f (nth ds i) (lane w (nth vs 0) i) (lane w (nth vs 1) i) (lane w (nth vs 2) i)))

/-- Issue of an elementwise operation. INT32 does not round and draws nothing (R222). -/
def elemOp (n op : Nat) (srcs : Uop → List Nat) (draws : Bool) (f : UCtx → Nat → Nat → Nat → Nat → Nat) (s : State) : State :=
  let rounds := match nextUop s n with
    | some x => draws && roundsFmt x
    | none => false
  issue n op srcs true true rounds always (fun x vs _ s => { outs := [(x.u.dst, elemwise x s vs (f x))], st := s }) s

/-- ADD, SUB, MUL, FMA (R233, R234). -/
def uAdd (n : Nat) (s : State) : State := elemOp n 0x10 srcAB true (fun x d a b _ => arithAdd x.u.fmt x.rnd x.ftz d a b) s
def execUAdd (c : Fin 2048) (s : State) : Host.Outcome State Fault Refusal := .next (uAdd c.val s)
def uSub (n : Nat) (s : State) : State := elemOp n 0x11 srcAB true (fun x d a b _ => arithSub x.u.fmt x.rnd x.ftz d a b) s
def execUSub (c : Fin 2048) (s : State) : Host.Outcome State Fault Refusal := .next (uSub c.val s)
def uMul (n : Nat) (s : State) : State := elemOp n 0x12 srcAB true (fun x d a b _ => arithMul x.u.fmt x.rnd x.ftz d a b) s
def execUMul (c : Fin 2048) (s : State) : Host.Outcome State Fault Refusal := .next (uMul c.val s)
def uFma (n : Nat) (s : State) : State := elemOp n 0x13 srcABC true (fun x d a b c => arithFma x.u.fmt x.rnd x.ftz d a b c) s
def execUFma (c : Fin 2048) (s : State) : Host.Outcome State Fault Refusal := .next (uFma c.val s)

/-- MAX, MIN (R235). -/
def uMax (n : Nat) (s : State) : State := elemOp n 0x14 srcAB false (fun x _ a b _ => arithPick x.u.fmt x.ftz true a b) s
def execUMax (c : Fin 2048) (s : State) : Host.Outcome State Fault Refusal := .next (uMax c.val s)
def uMin (n : Nat) (s : State) : State := elemOp n 0x15 srcAB false (fun x _ a b _ => arithPick x.u.fmt x.ftz false a b) s
def execUMin (c : Fin 2048) (s : State) : Host.Outcome State Fault Refusal := .next (uMin c.val s)

/-- SEL: lanewise C ≠ 0 ? A : B, bits copied unchanged (R169, R235); a lane of C counts as 0 when no bit is set. -/
def uSel (n : Nat) (s : State) : State := elemOp n 0x16 srcABC false (fun _ _ a b c => if c = 0 then b else a) s
def execUSel (c : Fin 2048) (s : State) : Host.Outcome State Fault Refusal := .next (uSel c.val s)

/-- CMUL: even lanes real, odd lanes imaginary (R236). -/
def cmulBody (x : UCtx) (vs : List Nat) (s : State) : Nat :=
  let m := perLine x.u.fmt
  let w := (fmtOf x.u.fmt).width
  let ds := cellDraws x m s
  join x.u.fmt ((List.range m).map (fun i =>
    let e := i / 2 * 2
    cmulPart x.u.fmt x.rnd x.ftz (nth ds i) (lane w (nth vs 0) e) (lane w (nth vs 0) (e + 1)) (lane w (nth vs 1) e)
      (lane w (nth vs 1) (e + 1)) (i % 2 == 1)))
def uCmul (n : Nat) (s : State) : State :=
  issue n 0x3B srcAB true true true always (fun x vs _ s => { outs := [(x.u.dst, cmulBody x vs s)], st := s }) s
def execUCmul (c : Fin 2048) (s : State) : Host.Outcome State Fault Refusal := .next (uCmul c.val s)

/-- SFU (R238 to R240). -/
def uSfu (n : Nat) (s : State) : State :=
  elemOp n 0x28 srcA false (fun x _ a _ _ => sfuLane (bits x.u.imm 0 4) x.u.fmt x.rnd x.ftz a) s
def execUSfu (c : Fin 2048) (s : State) : Host.Outcome State Fault Refusal := .next (uSfu c.val s)

/-! ### Conversions (R210 to R217, R237) -/

/-- CVT: the whole of DST at a widening, part p of it at a narrowing. -/
def cvtBody (x : UCtx) (vs : List Nat) (s : State) : Nat :=
  let src := x.u.fmt
  let dst := bits x.u.imm 0 4
  let p := bits x.u.imm 4 3
  let n := perLine src
  let m := perLine dst
  let ds := cellDraws x m s
  let el := fun (i e : Nat) => convertElem src dst x.rnd x.ftz x.sat (nth ds e) (lane (fmtOf src).width (nth vs 0) i)
  if m < n then join dst ((List.range m).map (fun e => el (p * m + e) e))
  else if n < m then
    join dst ((List.range m).map (fun e => if p * n ≤ e ∧ e < p * n + n then el (e - p * n) e
                                           else lane (fmtOf dst).width (nth vs 1) e))
  else join dst ((List.range m).map (fun e => el e e))
def uCvt (n : Nat) (s : State) : State :=
  issue n 0x20 (fun u => if perLine u.fmt < perLine (bits u.imm 0 4) then srcAD u else srcA u) true true true always
    (fun x vs _ s => { outs := [(x.u.dst, cvtBody x vs s)], st := s }) s
def execUCvt (c : Fin 2048) (s : State) : Host.Outcome State Fault Refusal := .next (uCvt c.val s)

/-- MXPACK: block b of DST and byte k of the register of SRC_C (R210 to R215). -/
def mxpackBody (x : UCtx) (vs : List Nat) (s : State) : Nat × Nat :=
  let bf := x.u.imm.testBit 0
  let b := bits x.u.imm 1 2
  let k := bits x.u.imm 3 6
  let xs := if bf then (lanes 16 32 (nth vs 0)).map (decodeNum 3 x.ftz)
            else (lanes 32 16 (nth vs 0) ++ lanes 32 16 (nth vs 1)).map (decodeNum 1 x.ftz)
  let w := (fmtOf x.u.fmt).width
  let ds := ((cellDraws x (perLine x.u.fmt) s).drop (32 * b)).take 32
  let r := mxPack x.u.fmt x.rnd ds xs
  let d := setBits 512 (nth vs 2) (32 * b * w) (32 * w) (joinW w r.2)
  (d, setBits 512 (if x.u.c = x.u.dst then d else nth vs 3) (8 * k) 8 r.1)
def uMxpack (n : Nat) (s : State) : State :=
  issue n 0x21 (fun u => [u.a, if u.imm.testBit 0 then 0x3F else u.a + 1, u.dst, u.c]) true true true always
    (fun x vs _ s => let r := mxpackBody x vs s
                     { outs := [(x.u.dst, r.1), (x.u.c, r.2)], st := s }) s
def execUMxpack (c : Fin 2048) (s : State) : Host.Outcome State Fault Refusal := .next (uMxpack c.val s)

/-- MXUNPACK: block b of A under the scale in byte k of the register of SRC_C (R214, R217). -/
def mxunpackBody (x : UCtx) (vs : List Nat) (s : State) : List Nat :=
  let dst := if x.u.imm.testBit 0 then 3 else 1
  let b := bits x.u.imm 1 2
  let sc := bits (nth vs 1) (8 * bits x.u.imm 3 6) 8
  let w := (fmtOf x.u.fmt).width
  let ds := cellDraws x 32 s
  (List.range 32).map (fun i => mxUnpackElem x.u.fmt sc dst x.rnd (nth ds i) (lane w (nth vs 0) (32 * b + i)))
def uMxunpack (n : Nat) (s : State) : State :=
  issue n 0x22 (fun u => [u.a, u.c]) true true true always
    (fun x vs _ s =>
      let r := mxunpackBody x vs s
      { outs := if x.u.imm.testBit 0 then [(x.u.dst, joinW 16 r)]
                else [(x.u.dst, joinW 32 (r.take 16)), (x.u.dst + 1, joinW 32 (r.drop 16))], st := s }) s
def execUMxunpack (c : Fin 2048) (s : State) : Host.Outcome State Fault Refusal := .next (uMxunpack c.val s)

/-! ### Dot products and reductions (R170, R241 to R256) -/

/-- DOT: group sums into consecutive accumulator lanes. -/
def dotBody (x : UCtx) (vs : List Nat) : Nat :=
  let w := (fmtOf x.u.fmt).width
  let groups := perLine x.u.fmt / 32
  let acc := lanes 32 16 (nth vs 3)
  joinW 32 ((List.range groups).foldl (fun acc g =>
    let i := bits x.u.imm 0 4 + g
    let as := (List.range 32).map (fun e => lane w (nth vs 0) (32 * g + e))
    let bs := (List.range 32).map (fun e => lane w (nth vs 1) (32 * g + e))
    let v := if x.u.fmt = 12 ∨ x.u.fmt = 13 then dotInt x.u.fmt (nth acc i) as bs
             else dotGroup x.u.fmt x.rnd x.ftz (bits (nth vs 2) (8 * g) 8) (bits (nth vs 2) (32 + 8 * g) 8) (nth acc i) as bs
    setAt acc i v) acc)
def uDot (n : Nat) (s : State) : State :=
  issue n 0x18 (fun u => [u.a, u.b, if 6 ≤ u.fmt ∧ u.fmt ≤ 11 then u.c else 0x3F, u.dst]) true true false always
    (fun x vs _ s => { outs := [(x.u.dst, dotBody x vs)], st := s }) s
def execUDot (c : Fin 2048) (s : State) : Host.Outcome State Fault Refusal := .next (uDot c.val s)

/-- LSUM: the tree sum in lane 0 of DST, the other lanes unchanged (R245). -/
def uLsum (n : Nat) (s : State) : State :=
  issue n 0x30 srcAD true true false always
    (fun x vs _ s =>
      let w := (fmtOf x.u.fmt).width
      { outs := [(x.u.dst, setBits 512 (nth vs 1) 0 w (laneSum x.u.fmt x.rnd x.ftz (lanesOf x.u.fmt (nth vs 0))))], st := s }) s
def execULsum (c : Fin 2048) (s : State) : Host.Outcome State Fault Refusal := .next (uLsum c.val s)

/-- GMAX: the exponent word of DST lane 0 joined with those of A's lanes (R248 to R251). -/
def uGmax (n : Nat) (s : State) : State :=
  issue n 0x31 srcAD true true false always
    (fun x vs _ s =>
      let e := (lanesOf x.u.fmt (nth vs 0)).foldl (fun w v => expJoin w (expWord x.u.fmt x.ftz v)) (bits (nth vs 1) 0 16)
      { outs := [(x.u.dst, setBits 512 (nth vs 1) 0 16 e)], st := s }) s
def execUGmax (c : Fin 2048) (s : State) : Host.Outcome State Fault Refusal := .next (uGmax c.val s)

/-- GQ: four lanes of A onto the grid of B's exponent word (R250 to R252); lanes past the register give 0. -/
def uGq (n : Nat) (s : State) : State :=
  issue n 0x32 srcAB true true false always
    (fun x vs _ s =>
      let w := (fmtOf x.u.fmt).width
      let l0 := 4 * bits x.u.imm 0 2
      { outs := [(x.u.dst, joinW 128 ((List.range 4).map (fun k =>
          gridQ x.u.fmt x.ftz (bits (nth vs 1) 0 16) (lane w (nth vs 0) (l0 + k)))))], st := s }) s
def execUGq (c : Fin 2048) (s : State) : Host.Outcome State Fault Refusal := .next (uGq c.val s)

/-- GADD: four 128-bit sums (R253). -/
def uGadd (n : Nat) (s : State) : State :=
  issue n 0x33 srcAB true true false always
    (fun x vs _ s =>
      { outs := [(x.u.dst, joinW 128 ((List.range 4).map (fun k => gridAdd (lane 128 (nth vs 0) k) (lane 128 (nth vs 1) k))))],
        st := s }) s
def execUGadd (c : Fin 2048) (s : State) : Host.Outcome State Fault Refusal := .next (uGadd c.val s)

/-- GRND: four grid lanes rounded into lanes of DST (R250, R256); lanes past the register are not written. -/
def uGrnd (n : Nat) (s : State) : State :=
  issue n 0x34 srcABD true true false always
    (fun x vs _ s =>
      let l0 := 4 * bits x.u.imm 0 2
      let d := lanesOf x.u.fmt (nth vs 2)
      { outs := [(x.u.dst, join x.u.fmt ((List.range 4).foldl (fun d k =>
          setAt d (l0 + k) (gridRound x.u.fmt x.rnd x.ftz (bits (nth vs 1) 0 16) (lane 128 (nth vs 0) k))) d))], st := s }) s
def execUGrnd (c : Fin 2048) (s : State) : Host.Outcome State Fault Refusal := .next (uGrnd c.val s)

/-! ### Permutations and draws -/

/-- SHUF: butterfly, reverse or rotation of lanes (R169). A butterfly partner past the register keeps its lane, and
result lane i of a rotation by k is lane i + k (readings). [DEDUCED, log entry 33] -/
def shufBody (x : UCtx) (v : Nat) : Nat :=
  let m := perLine x.u.fmt
  let xs := lanesOf x.u.fmt v
  let c := bits x.u.imm 0 8
  if c < 0x40 then
    let sp := 2 ^ (bits x.u.imm 0 6 % 6)
    join x.u.fmt ((List.range m).map (fun i => if i ^^^ sp < m then nth xs (i ^^^ sp) else nth xs i))
  else if c = 0x40 then join x.u.fmt xs.reverse
  else join x.u.fmt ((List.range m).map (fun i => nth xs ((i + bits x.u.imm 0 4) % m)))
def uShuf (n : Nat) (s : State) : State :=
  issue n 0x3A srcA true false false always (fun x vs _ s => { outs := [(x.u.dst, shufBody x (nth vs 0))], st := s }) s
def execUShuf (c : Fin 2048) (s : State) : Host.Outcome State Fault Refusal := .next (uShuf c.val s)

/-- RNG: four Philox blocks, one of each of four lanes, whose draw indices advance (R140, R169). -/
def rngBody (x : UCtx) (s : State) : UOut :=
  let y := s.part x.p
  let c := s.cell x.n
  let ls := (List.range 4).map (· + 4 * bits x.u.imm 0 3)
  let blocks := ls.flatMap (fun l =>
    drawBlock (y.starter.getD { seed := 0, stream := 0 }) x.ctx y.step.toNat (Tab.get 0#32 c.draw l).toNat l x.n 0)
  { outs := [(x.u.dst, joinW 32 blocks)], st := s.setCell x.n { c with draw := ls.foldl (fun t l => Tab.upd 0 t l (· + 1)) c.draw } }
def uRng (n : Nat) (s : State) : State := issue n 0x3C noSrc true true false always (fun x _ _ s => rngBody x s) s
def execURng (c : Fin 2048) (s : State) : Host.Outcome State Fault Refusal := .next (uRng c.val s)

/-! ### Commands from outside the cells -/

/-- Status bit of a cell error (R203). -/
def strikeBit : CellPart → Nat
  | .ls _ => 1
  | .slot _ => 2
  | .vreg _ => 3
  | .accParity _ => 3
  | .residue _ => 4

/-- CELL_FAULT: an uncorrectable error of a cell (R195, R203): the value is poisoned, the bit set, the physical cell
recorded; where the column's spare is in use SPARE_EXHAUSTED sets too. -/
def cellFault (n : Nat) (w : CellPart) (s : State) : State :=
  cellFails (n / 512) (strikeBit w) (physCell s n) (strikeCell n w s)
def execCellFault (c : Fin 2048) (what : CellPart) (s : State) : Host.Outcome State Fault Refusal := .next (cellFault c.val what s)

/-- FAB_COL_FENCE: at the owner's next proof, or at once (R199). -/
def execFabColFence (k : Fin 128) (s : State) : Host.Outcome State Fault Refusal := .next (requestColFence k.val s)

/-- FAB_COL_REMAP: refused where the spare is in use (R199). [DEDUCED, log entry 34] -/
def fabColRemap (k row : Nat) (s : State) : State :=
  if (s.col k).spare then refuseWrite (24 + k / 32) s else requestColRemap k row s
def execFabColRemap (k : Fin 128) (row : Fin 16) (s : State) : Host.Outcome State Fault Refusal := .next (fabColRemap k.val row.val s)

/-- The records of the loaded image: those of the running image, of an armed one, of a candidate and of the variants.
[DEDUCED, log entry 35] -/
def loadedRecs (s : State) : List Rec :=
  s.img.run.recs ++ s.img.load.cand.recs ++ s.img.run.variants.flatMap (·.recs) ++
    s.img.armed.flatMap (fun e => match e.2 with | some a => a.img.recs | none => [])

/-- Whether a slot image is one of the loaded image's type 0x04 records (R165). [DEDUCED, log entry 35] -/
def slotOfImage (s : State) (img : BitVec 16384) : Bool :=
  (loadedRecs s).any (fun r => r.sec == 4 && BitVec.ofNat 16384 (leNat (r.body.drop (r.body.length - 2048))) == img)

/-- Whether a column takes configuration writes now (R186). [DEDUCED, log entry 35] -/
def cfgOpen (s : State) (k : Nat) : Bool :=
  match (s.col k).owner with
  | none => true
  | some p => let st := (s.part p).state; st == .stopped || st == .held

/-- Write a slot of a logical cell. -/
def writeSlot (n slot : Nat) (img : BitVec 16384) (s : State) : State :=
  let c := s.cell n
  s.setCell n { c with slots := Tab.set 0 c.slots slot img, slotBad := putBit c.slotBad slot false }

/-- CFG_BCAST: one write reaches every addressed cell (R184 to R186). Rows are logical rows (a reading: the hub finds the
cells that hold them). A column whose partition runs refuses its part, and an image that is not the loaded image's is
never written (R165). [DEDUCED, log entry 35] -/
def cfgBcast (q : Nat) (cols : BitVec 32) (rows : BitVec 16) (slot : Nat) (img : BitVec 16384) (s : State) : State :=
  let ks := (bitsOf 32 cols.toNat).map (· + q * 32)
  if !slotOfImage s img then s
  else (ks.filter (cfgOpen s)).foldl (fun s k => (bitsOf 16 rows.toNat).foldl (fun s r => writeSlot (cellBase k + r) slot img s) s) s
def execCfgBcast (q : Fin 4) (cols : BitVec 32) (rows : BitVec 16) (slot : Fin 8) (img : BitVec 16384) (s : State) :
    Host.Outcome State Fault Refusal := .next (cfgBcast q.val cols rows slot.val img s)

end Sys2Proof.Machine
end

