-- ==== Sys2Proof/Machine/ImgSet.lean ====
section
/-! DEFINITION. Steps 5 and 6 of the validation of an image, and what an activation sets (R65, R73 to R77, R87, R88, R96, R97,
R329, R390 to R392, R431, R495, R542 to R544, R553, R605, R613, R689). -/
namespace Sys2Proof.Machine
open Sys2Proof

/-! ### Step 5: clamping (R87) -/

/-- The clamps of a record, in groups: a group's limits may rest on fields that an earlier group has clamped. -/
def recClamps (double : Bool) (r : Rec) : List (List Byte → List ClampRule) :=
  let f := fun (b : List Byte) (o lo len : Nat) => bfld b o lo len
  match r.sec with
  | 1 =>
    if r.subject = 0xFFFFFFFF then [fun _ => [⟨0, 0, 6, 0, 48⟩]]
    else if 18 ≤ r.subject ∨ recSize r ≤ 16 then []
    else [fun _ => [⟨0, 6, 4, 1, if double then 8 else 4⟩, ⟨4, 16, 11, 600, 1100⟩, ⟨8, 16, 11, 1, if double then 360 else 180⟩, ⟨0xC, 11, 3, 0, 4⟩],
          fun b => [⟨8, 0, 11, 600, f b 4 16 11⟩],
          fun b => [⟨4, 0, 11, f b 8 0 11, f b 4 16 11⟩]]
  | 3 => [fun _ => [⟨0x48, 0, 11, 1, 1024⟩, ⟨0x48, 16, 16, 8, 4096⟩, ⟨0x4C, 0, 32, 100, 1000000⟩, ⟨0x54, 0, 32, 1000, 60000000⟩],
          fun b => [⟨0x50, 0, 32, max 1000 (f b 0x4C 0 32), 10000000⟩]]
  | 4 => [fun _ => [⟨4, 0, 7, 0, 64⟩]]
  | 7 => [fun _ => [⟨0, 0, 13, 500, 4800⟩, ⟨0, 16, 8, 1, 60⟩, ⟨4, 8, 7, 50, 108⟩, ⟨8, 0, 6, 0, 48⟩, ⟨0xC, 0, 8, 60, 95⟩, ⟨0xC, 8, 8, 60, 95⟩,
                    ⟨0xC, 16, 8, 60, 85⟩],
          fun b => [⟨8, 8, 6, f b 8 0 6, 48⟩]]
  | 8 =>
    if r.subject = 0xFFFF then [fun _ => [⟨4, 0, 10, 0, 512⟩, ⟨0xC, 0, 10, 1, 1000⟩], fun b => [⟨4, 16, 10, f b 4 0 10, 512⟩]]
    else [fun b => [⟨0, 0, 9, 1, 256⟩, ⟨0, 16, 7, 1, 64⟩, ⟨0, 24, 3, 0, 5⟩, ⟨4, 0, 24, if f b 4 0 24 = 0 then 0 else 64, 16777215⟩,
                    ⟨8, 0, 9, 0, 256⟩, ⟨8, 16, 6, 1, 48⟩, ⟨8, 24, 5, 1, 24⟩]]
  | _ => []

/-- A record with its numeric fields clamped, and the entries. -/
def clampRec (double : Bool) (r : Rec) : List ReportEntry × Rec :=
  let x := (recClamps double r).foldl (fun (a : List ReportEntry × List Byte) g =>
    let b := clampAll r.sec r.owner (r.pos + 8) (g a.2) a.2
    (a.1 ++ b.1, b.2)) ([], r.body)
  (x.1, { r with body := x.2 })

/-- The clamps of a unit of a program: BENCH_PCT of the header. -/
def unitClamps (i : Nat) : List ClampRule := if i = 0 then [⟨0x14, 0, 8, 0, 90⟩] else []

/-- Clamp a schedule's program. -/
def clampProgram (rs : List Rec) : List ReportEntry × List Rec :=
  let us := units64 rs
  ((List.range us.length).flatMap (fun i => match us[i]? with
      | some u => (clampAll 5 u.src.owner u.pos (unitClamps i) u.body).1
      | none => []),
   mapUnits (fun i u => (clampAll 5 0 0 (unitClamps i) u).2) 0 rs)

/-- Clamp MEMBERS, SLOT_COUNT and a torus's DIM_X in the collective descriptors of a pool record (R512). -/
def clampPool (r : Rec) : List ReportEntry × Rec :=
  let cl := fun (u : List Byte) => if bfld u 0 0 4 = 3 then
      [(⟨4, 20, 11, 1, 1024⟩ : ClampRule), ⟨0x24, 5, 6, if bfld u 4 20 11 = 1 then 0 else 1, 32⟩] ++
        (if bfld u 0 7 2 = 1 then [⟨0x24, 16, 11, 2, 512⟩] else [])
    else []
  ((units64 [r]).flatMap (fun u => (clampAll 6 u.src.owner u.pos (cl u.body) u.body).1),
   (mapUnits (fun _ u => (clampAll 6 0 0 (cl u) u).2) 0 [r]).headD r)

/-- Clamp a list of records; programs partition by partition. -/
def clampRecs (double : Nat → Bool) (rs : List Rec) : List ReportEntry × List Rec :=
  let plain := (rs.filter (fun r => r.sec != 5)).map (fun r => if r.sec = 6 then clampPool r else clampRec (double r.subject) r)
  let progs := (List.range 64).map (fun p => clampProgram (rs.filter (fun r => r.sec == 5 && r.part == p)))
  (plain.flatMap (·.1) ++ progs.flatMap (·.1), plain.map (·.2) ++ progs.flatMap (·.2))

/-- A site that the records make a double one. -/
def doubleIn (rs : List Rec) (n : Nat) : Bool :=
  n % 2 == 0 && rs.any (fun r => r.sec == 1 && r.subject == n + 1 && rf r 8 0 4 == 5)

/-- Step 5 of an image. -/
def clampImage (img : Image) : List ReportEntry × Image :=
  let b := clampRecs (doubleIn img.base) img.base
  let vs := img.variants.map (fun v => (clampRecs (fun _ => false) v.recs, v))
  (b.1 ++ vs.flatMap (fun x => x.1.1),
   { img with base := b.2, recs := b.2, variants := vs.map (fun x => { x.2 with recs := x.1.2 }) })

/-! ### Step 6: units in service (R88, R818) -/

/-- The fenced units that a configuration uses, as (unit type, unit index, offset of the field that names it). -/
def fencedUnits (s : State) (c : PartCfg) : List (Nat × Nat × Nat) :=
  ((bitsOf 128 c.cols.toNat).filter (fun k => (s.col k).fenced)).map (fun k => (1, k, 0x10)) ++
  ((bitsOf 64 c.banks.toNat).filter (fun b => (s.bank b).fenced)).map (fun b => (2, b, 0x20)) ++
  ((bitsOf 192 c.chans.toNat).filter (fun k => (s.chan k).fenced)).map (fun k => (3, k, 0x28)) ++
  ((List.range 6).filter (fun m => namesUnit c 4 m && (s.stack m).fenced)).map (fun m => (4, m, 0x28)) ++
  ((bitsOf 18 c.sites.toNat).filter (fun n => (s.site n).state == .fenced)).map (fun n => (5, n, 0x40)) ++
  ((bitsOf 64 c.xfes.toNat).filter (fun e => (s.xfe e).run == .fenced)).map (fun e => (6, e, 0x48)) ++
  ((bitsOf 8 c.cus.toNat).filter (fun u => (s.cunit u).run == .fenced)).map (fun u => (7, u, 0x44)) ++
  ((bitsOf 8 c.links.toNat).filter (fun n => (s.port n).state == .fenced)).map (fun n => (8, n, 0x44))

/-- FENCED_UNIT entries of a partition; without a partition record in the file POSITION is 0. -/
def fencedEntries (s : State) (c : PartCfg) (p : Nat) (at_ : Option Nat) : List ReportEntry :=
  (fencedUnits s c).map (fun u =>
    entry .fencedUnit (if at_.isSome then 3 else 0) p (match at_ with | some o => o + u.2.2 | none => 0) (u.1 * 65536 + u.2.1))

/-! ### Schedules in force (R65, R76) -/

/-- The records of a partition's active schedule: a variant's blocks in place of the base records of their types. -/
def activeRecs (img : Image) (p num : Nat) : List Rec :=
  let base := img.base.filter (fun r => !r.glob && r.part == p && r.sec != 3 && r.sec != 1)
  match img.variants.find? (fun v => v.part == p && v.number == num) with
  | none => base
  | some v => base.filter (fun r => !v.types.contains r.sec) ++ v.recs.filter (fun r => r.sec != 2)

/-- A program from its records. -/
def programOf (rs : List Rec) : Program :=
  let us := (units64 (rs.filter (fun r => r.sec == 5))).map unitVal
  let h := us.headD 0
  let n := rfld h 0 0 32
  { header := h, steps := (us.drop 1).take n, slotMaps := (us.drop (1 + n)).take (rfld h 4 16 16) }

/-- The starter of a partition's records (R78). -/
def starterIn (rs : List Rec) : Option Starter :=
  (rs.find? (fun r => r.sec == 10)).map (fun r => { seed := BitVec.ofNat 64 (rf r 8 0 64), stream := BitVec.ofNat 32 (rf r 0x10 0 32) })

/-- Write the slot images of a partition's records to the cells that hold the runs (R184). -/
def writeSlots (rs : List Rec) (s : State) : State :=
  (rs.filter (fun r => r.sec == 4)).foldl (fun s r =>
    let img : BitVec 16384 := BitVec.ofNat 16384 (leNat r.body)
    (List.range (bits r.subject 11 11)).foldl (fun s i => writeSlot (bits r.subject 0 11 + i) (bits r.subject 22 3) img s) s) s

/-- The QoS values of a partition: its records, the defaults of R392 elsewhere. Counters stay. -/
def setQos (p enabled : Nat) (rs : List Rec) (s : State) : State :=
  let q := rs.filter (fun r => r.sec == 8)
  let tags := 512 / max 1 enabled
  let fresh : Nat → QosPort → QosPort := fun k x =>
    if k % 64 = p then
      ({ rdBytes := x.rdBytes, wrBytes := x.wrBytes, reqs := x.reqs, latSum := x.latSum, latMax := x.latMax, heldSum := x.heldSum,
         misses := x.misses, missRc := x.missRc } : QosPort)
    else x
  let s := { s with noc := { s.noc with qports := Tab.mapV {} fresh s.noc.qports } }
  let s := s.setQpart p { tagsMin := tags, tagsMax := tags }
  q.foldl (fun s r =>
    if r.subject = 0xFFFF then
      s.setQpart p { isolated := rf r 8 0 1 == 1, tagsMin := rf r 0xC 0 10, tagsMax := rf r 0xC 16 10, thresh := rf r 0x10 0 16,
                     window := rf r 0x14 0 10 }
    else
      s.setQport r.subject p { s.qport r.subject p with
        regRate := rf r 8 0 9, burst := rf r 8 16 7, basePrio := rf r 8 24 3, target := rf r 0xC 0 24, rsvRate := rf r 0x10 0 9,
        rqRead := rf r 0x10 16 6, rqWrite := rf r 0x10 24 5, rsvBound := rf r 0x14 0 24, hasRec := true, next := none,
        tokens := rf r 8 16 7 * 128, filled := s.clk.now }) s

/-- Step-link ports after an activation (R495): a port that a partition uses leaves OFF; after a full image a port that none
uses goes OFF. The cluster domains follow (R21). -/
def settlePorts (full : Bool) (s : State) : State :=
  let used := fun (s : State) (n : Nat) => s.enabledParts.any (fun p => s.usesPort p n)
  let s := setDomain 13 ((List.range 4).any (used s)) s
  let s := setDomain 14 ((List.range 4).any (fun n => used s (n + 4))) s
  (List.range 8).foldl (fun s n =>
    let x := s.port n
    if used s n then (if x.state == .off then setLink n .training s else s)
    else if full && x.state != .off then setLink n .off s else s) s

/-! ### Full image (R73, R88, R92) -/

/-- Owners of the units that partitions hold exclusively (R70), from the configurations already set. -/
def ownerBy (s : State) (f : PartCfg → Bool) : Option Nat := s.enabledParts.find? (fun p => f (s.part p).cfg)

/-- Columns, banks, channels, engines and collective units take their owners; a column's cells are zeroed for a new owner
(R160). [DEDUCED, log entry 25] -/
def setOwners (s : State) : State :=
  let s := (List.range 128).foldl (fun s k =>
    let o := ownerBy s (fun c => c.cols.getLsbD k)
    let c := s.col k
    let s := if o.isSome && o != c.owner then (List.range 16).foldl (fun s r => zeroCell (cellBase k + r) s) s else s
    s.setCol k { s.col k with owner := o }) s
  let s := (List.range 64).foldl (fun s b => s.setBank b { s.bank b with owner := ownerBy s (fun c => c.banks.getLsbD b) }) s
  let s := (List.range 192).foldl (fun s k => s.setChan k { s.chan k with owner := ownerBy s (fun c => c.chans.getLsbD k) }) s
  let s := (List.range 64).foldl (fun s e => s.setXfe e { s.xfe e with owner := ownerBy s (fun c => c.xfes.getLsbD e) }) s
  (List.range 8).foldl (fun s u => s.setCunit u { s.cunit u with owner := ownerBy s (fun c => c.cus.getLsbD u) }) s

/-- Power domains that follow the image (R21, R25, R329): SRAM groups, quadrants, HBM positions. A group or position that
switches off loses its contents. -/
def setDomains (s : State) : State :=
  let s := (List.range 4).foldl (fun s g =>
    let on := (List.range 16).any (fun b => (s.bank (g * 16 + b)).owner.isSome)
    let was := s.pwr.domains.getLsbD (4 + g)
    let s := setDomain (4 + g) on s
    if was && !on then { s with mem := s.mem.clear (bankBase (g * 16)) (bankBase (g * 16 + 16)) } else s) s
  let s := (List.range 4).foldl (fun s q =>
    let on := (List.range 32).any (fun c => (s.col (q * 32 + c)).owner.isSome)
    (setDomain (8 + q) on s).setQuad q { s.quad q with powered := on }) s
  (List.range 6).foldl (fun s m =>
    let x := s.stack m
    let on := x.fitted && !x.fenced && !stackMismatch s
    (setDomain (58 + m) on (setDomain (16 + m) on s)).setStack m { x with powered := on }) s

/-- Granules of a full image load (R73): a granule stays with its context where the partition that now owns the unit holds
the context; any other of a context loses its mappings, is zeroed and left unassigned. The page tables are rebuilt. -/
def resetGranules (s : State) : State :=
  let keeps := fun (s : State) (g : Nat) (e : Granule) => match granPart s g with
    | some p => decide (e.owner ≠ 0) && s.partOfVi e.owner == some p
    | none => false
  let gone := (s.mem.own.filter (fun e => e.2.owner != 0 && !keeps s e.1 e.2)).map (·.1)
  let pt := s.xlt.ptGrans.map (·.2)
  let s := { s with xlt := { s.xlt with maps := s.xlt.maps.filter (fun m => !(pageGrans s m).any (fun g => gone.contains g)),
                                        ptGrans := [], ptUsed := [], roots := [] } }
  let s := xlDrop (fun e => !e.host) ((gone ++ pt).foldl (fun s g => releaseGran g s) s)
  s.enabledParts.foldl (fun s p => rebuildTables p s) s

/-- What a new image records at a site, beside its state (R16, R422, R431). -/
def newRecord (rs : List Rec) (n : Nat) (s : State) : Site :=
  let t := s.site n
  let r := rs.find? (fun r => r.sec == 1 && r.subject == n)
  let cls := match r with | some r => rf r 8 0 4 | none => 0
  let owner := ownerBy s (fun c => c.sites.getLsbD (if cls == 5 then n - 1 else n))
  { t with vset := match r with | some r => rf r 0x0C 0 11 | none => 0, cls := cls, upper := cls == 5, double := doubleIn rs n, owner := owner, cfg := match r with | some r => r.body | none => [],
           fencePend := none, readmPend := false, offPend := false, startPend := false, vpend := none, paused := false,
           newOwner := owner.isSome && owner != t.owner }

/-- A unit leaves service under a new image: what the hub asked of its occupant ends, a caching occupant is flushed first
(R484), and otherwise its site domain switches off. -/
def leaveSite (n : Nat) (s : State) : State :=
  let t := s.site n
  let s := if t.state == .off then s else failOuts n s
  if t.flushing then s
  else if (t.state == .admitted || t.state == .retrain) && isCaching t then flushSite n s
  else (halves s n).foldl (fun s k => coreOff k s) s

/-- Enter a site's new record in the state it now has; its PHY domain follows, unless a flush still holds the domains (R21,
R22, R25). -/
def putRecord (n : Nat) (u : Site) (st : SState) (held : Bool) (s : State) : State :=
  let s := s.modSite n (fun t =>
    { u with state := st, flushing := t.flushing, snoops := t.snoops, snpQ := t.snpQ, outs := t.outs, flushOdd := t.flushOdd || u.flushOdd,
             auxOn := t.auxOn, amps := t.amps, watts := t.watts, offAt := t.offAt, arriveOut := false, configDone := false, tags := [] })
  if held || (s.site n).flushing then s else setDomain (22 + n) (u.cls != 0 && st == .off) s

/-- A pair of sites under a new image (R16, R406, R431, R440): a unit of class 0 goes OFF; a fenced unit stays fenced, and a
double site is fenced where either of its sites was; a unit with another owner, class or form, or with an admission under
way, starts its admission again, and any other stays as it is. [DEDUCED, log entry 25] -/
def setSitePair (rs : List Rec) (e : Nat) (s : State) : State :=
  let a := s.site e
  let b := s.site (e + 1)
  let u := newRecord rs e s
  let v := newRecord rs (e + 1) s
  let inUse := fun (t : Site) => t.state == .admitted || t.state == .retrain || t.state == .ready
  let same := fun (t w : Site) => inUse t && w.cls != 0 && w.owner == t.owner && w.cls == t.cls && w.double == t.double
  let keep := fun (t w : Site) => { w with vset := clampTo (w.fld 0x10 0 11) (w.fld 0x0C 16 11) t.vset }
  let after := fun (t w : Site) => if t.state == .fenced && w.cls != 0 then SState.fenced else .off
  if a.double then
    if u.double && same a u then (s.setSite e (keep a u)).setSite (e + 1) v
    else
      let s := leaveSite e s
      let held := (s.site e).flushing
      let s := s.modSite e (fun t => { t with flushOdd := t.flushing })
      putRecord (e + 1) v (after b v) held (putRecord e u (after a u) held s)
  else if u.double then
    let st := if a.state == .fenced || b.state == .fenced then SState.fenced else .off
    let why := if a.state == .fenced then a.reason else if b.state == .fenced then b.reason else .none
    let s := leaveSite (e + 1) (leaveSite e s)
    putRecord (e + 1) { v with reason := why } st false (putRecord e { u with reason := why } st false s)
  else
    let one := fun (n : Nat) (t w : Site) (s : State) =>
      if same t w then s.setSite n (keep t w) else putRecord n w (after t w) false (leaveSite n s)
    one (e + 1) b v (one e a u s)

/-- The power policy of an image, or the defaults all together (R689). -/
def setPolicy (rs : List Rec) (s : State) : State :=
  holdFclk (match rs.find? (fun r => r.sec == 7) with
  | some r =>
    { s with pwr := { s.pwr with avgLimit := rf r 8 0 13, avgWindow := rf r 8 16 8, priority := rf r 0xC 0 6, peak := rf r 0xC 8 7,
                                 fclkMin := rf r 0x10 0 6, fclkMax := rf r 0x10 8 6, pacing := rf r 0x10 16 6 },
             thm := { s.thm with cHub := rf r 0x14 0 8, cSite := rf r 0x14 8 8, cHbm := rf r 0x14 16 8 } }
  | none =>
    { s with pwr := { s.pwr with avgLimit := 4800, avgWindow := 10, priority := 0x24, peak := 104, fclkMin := 0, fclkMax := 48, pacing := 0 },
             thm := { s.thm with cHub := 95, cSite := 95, cHbm := 85 } })

/-- The QoS values of a partition's ports and its miss window, as the schedule's records or the defaults of R392 give them, put
into the registers as a write of them would be (R394). -/
def rewriteQos (p : Nat) (rs : List Rec) (s : State) : State :=
  let q := rs.filter (fun r => r.sec == 8)
  let d : QosPort := {}
  let s := ((Tab.keysWhere s.noc.qports (fun _ => true)).filter (fun k => k % 64 == p)).foldl (fun s k =>
    if q.any (fun r => r.subject == k / 64) then s else putQosValues (k / 64) p (qosValues d) s) s
  let s := if q.any (fun r => r.subject == 0xFFFF) then s else putMiss p 0 10 s
  q.foldl (fun s r =>
    if r.subject = 0xFFFF then putMiss p (rf r 0x10 0 16) (rf r 0x14 0 10) s
    else putQosValues r.subject p (rf r 8 0 9, rf r 8 16 7, rf r 8 24 3, rf r 0xC 0 24, rf r 0x10 16 6, rf r 0x10 24 5) s) s

/-- After every image load and every peel firmware rewrites the policy and threshold registers from the loaded image (the text
after R37): the power policy, each partition's limits and bench-load floor, and the QoS values at each port.
[DEDUCED, log entry 78] -/
def rewritePolicy (s : State) : State :=
  if !s.img.loaded then s
  else
    let s := setPolicy s.img.run.base s
    s.enabledParts.foldl (fun s p =>
      let s := match s.img.run.base.find? (fun r => r.sec == 3 && r.subject == p) with
        | some r =>
          let c := parsePart r
          s.modPart p (fun x => { x with cfg := { x.cfg with lateLimit := c.lateLimit, proofTimeout := c.proofTimeout },
                                         benchPct := rfld x.prog.header 0x14 0 8 })
        | none => s
      rewriteQos p (activeRecs s.img.run p (s.part p).variant) s) s

/-- A partition under a new full image: STOPPED, its configuration, program, starter; a step counter and a run-time starter
that the host driver has written stand (R105, R142). -/
def installPart (img : Image) (p : Nat) (s : State) : State :=
  let x := s.part p
  let cfg := match img.base.find? (fun r => r.sec == 3 && r.subject == p) with | some r => parsePart r | none => {}
  let rs := activeRecs img p 0
  let pr := programOf rs
  let y : Part := {
    cfg := cfg, prog := pr, imgStarter := starterIn rs, runStarter := x.runStarter, seedLo := x.seedLo,
    seedHi := x.seedHi, stepNew := x.stepNew, stepLo := x.stepLo, margin := cfg.margin, benchPct := rfld pr.header 0x14 0 8,
    stretchN := x.stretchN, stretchMax := x.stretchMax, lastStatus := x.lastStatus, revived := true }
  s.setPart p y

/-- The value of a measurement block of a partition (R613). [DEDUCED, log entry 25] -/
def partMeas (digest : BitVec 384) (variant : Nat) : List Byte := beBytes 48 digest.toNat ++ [BitVec.ofNat 8 variant]

/-- Everything that a full image sets. The second argument lists the partitions that stay not started (R88).
[DEDUCED, log entry 25] -/
def installFull (img : Image) (s : State) : State :=
  let old := s.enabledParts
  let s := old.foldl (fun s p => (s.visOf p).foldl (fun s v => endSession v 4 s) s) s
  let s := (List.range 64).foldl (fun s p => stopPartition p s) s
  let s := { s with img := { s.img with loaded := true, run := img, armed := [] }, flt := { s.flt with stopped := false } }
  let s := (List.range 64).foldl (fun s p => installPart img p s) s
  let s := (List.range 9).foldl (fun s k => setSitePair img.base (2 * k) s) s
  let s := resetGranules (setDomains (setOwners s))
  let s := s.enabledParts.foldl (fun s p => writeSlots (activeRecs img p 0) s) s
  let routes : Tab (Option Rec) := (img.base.filter (fun r => r.sec == 2)).foldl (fun t r => Tab.set none t r.subject (some r)) []
  let s := { s with noc := { s.noc with routes := routes, vroutes := [], routesOk := true, qports := s.noc.qports, qparts := [] } }
  let n := s.enabledParts.length
  let s := (List.range 64).foldl (fun s p => if (s.part p).cfg.enable then setQos p n (activeRecs img p 0) s else s) s
  let s := setPolicy img.base s
  let code := match img.base.find? (fun r => r.sec == 1 && r.subject == 0xFFFFFFFF) with | some r => rf r 8 0 6 | none => 0
  let s := holdFclk { s with fab := { s.fab with fclk := code, fclkNext := none }, pwr := { s.pwr with shares := [], shareFr := [] } }
  let s := settlePorts true s
  let s := ((s.vis.map (·.1)).filter (fun v => (s.partOfVi v).isNone)).foldl (fun s v =>
    (detachVi v s).modVi v (fun x => { x with held := [] })) s
  let s := setMeas 3 (beBytes 48 img.digest.toNat ++ leBytes 8 img.imageId.toNat) s
  (List.range 64).foldl (fun s p => setMeas (16 + p) (if (s.part p).cfg.enable then partMeas 0 0 else []) s) s

/-- Enabled partitions of an image with the fenced units that their base schedules use. -/
def fencedParts (img : Image) (s : State) : List (Nat × List ReportEntry) :=
  (img.base.filter (fun r => r.sec == 3)).filterMap (fun r =>
    let c := parsePart r
    let es := fencedEntries s c r.subject (some r.pos)
    if c.enable && !es.isEmpty then some (r.subject, es) else none)

/-! ### Partial image (R65, R76, R96, R97) -/

/-- The running image with a partition's records and variants replaced by an armed image's. -/
def mergeImage (run a : Image) (p : Nat) : Image :=
  let mine := fun (r : Rec) => !r.glob && r.part == p
  { run with base := run.base.filter (fun r => !mine r) ++ a.base.filter mine,
             variants := run.variants.filter (fun v => v.part != p) ++ a.variants.filter (fun v => v.part == p) }

/-- The exclusions of a variant. -/
def exclOf (img : Image) (p num : Nat) : List (Nat × Nat) :=
  match img.variants.find? (fun v => v.part == p && v.number == num) with
  | some v => v.excl
  | none => []

/-- Everything that a partial image sets (R96, R97): the step counter and the starter in use continue, and a program that
the image or its variant carries starts at its ENTRY (R105). [DEDUCED, log entry 25] -/
def installPartial (a : Image) (p : Nat) (s : State) : State :=
  let x := s.part p
  let s := (s.visOf p).foldl (fun s v => endSession v 4 s) s
  let img := mergeImage s.img.run a p
  let rs := activeRecs img p a.variant
  let ex := exclOf img p a.variant
  let pr := programOf rs
  let new := pr != x.prog || a.carried.contains 5 ||
    img.variants.any (fun v => v.part == p && v.number == a.variant && v.types.contains 5)
  let all := img.recs.filter (fun r => r.glob || r.part != p || r.sec == 3 || r.sec == 1) ++ rs
  let s := { s with img := { s.img with run := { img with recs := all }, armed := Tab.set none s.img.armed p none } }
  let s := s.modPart p (fun y => { y with
    variant := a.variant, excl := ex, prog := pr, entry := y.entry || new, loop := if new then none else y.loop,
    imgStarter := starterIn rs, benchPct := rfld pr.header 0x14 0 8, treeNew := y.treeNew || ex != x.excl })
  let s := { s with noc := { s.noc with vroutes := s.noc.vroutes.filter (fun r => r.part != p) ++
    (match img.variants.find? (fun v => v.part == p && v.number == a.variant) with
     | some v => v.recs.filter (fun r => r.sec == 2)
     | none => []) } }
  let s := setQos p s.enabledParts.length rs (writeSlots rs s)
  let s := rewritePolicy (settlePorts false s)
  let s := (s.visOf p).foldl (fun s v => deliverHeld v s) s
  setMeas (16 + p) (partMeas a.digest a.variant) s

end Sys2Proof.Machine
end

