-- ==== Sys2Proof/Machine/Image.lean ====
section
/-! DEFINITION. The commands of the Tilgaost image: load requests, fetch, validation, activation and the load report (R85, R88
to R98, R708, R758, R810, R811). -/
namespace Sys2Proof.Machine
open Sys2Proof

/-! ### The load report (R89, R90) -/

/-- Codes of an entry's KIND. -/
def ReportKind.num : ReportKind → Nat
  | .structural => 1
  | .clamped => 2
  | .ignored => 3
  | .fencedUnit => 4

/-- Bytes of an entry. [DEDUCED, log entry 21] -/
def entryRow (e : ReportEntry) : List Byte :=
  leBytes 4 (e.kind.num + e.sec % 256 * 256 + e.part % 65536 * 65536) ++ leBytes 4 e.position ++ leBytes 4 e.read.toNat ++
  leBytes 4 e.used.toNat

/-- Bytes of a report. -/
def reportBytes (r : Report) : List Byte :=
  leBytes 4 (r.status.code + r.written % 65536 * 65536) ++ leBytes 4 r.total ++ leBytes 8 r.imageId.toNat ++
  leBytes 8 r.activeStep.toNat ++ List.replicate 8 0#8 ++ r.entries.flatMap entryRow

/-- Keep a report, and write it to the request's buffer unless host DMA is stopped (R90, R98). [DEDUCED, log entry 21] -/
def putReport (addr len : Nat) (r : Report) (s : State) : State :=
  let toHost := decide (0 < len) && !s.host.dmaStopped
  let r := { r with total := r.entries.length, written := if toHost then min r.entries.length ((len - 32) / 16) else 0 }
  let s := { s with img := { s.img with report := r } }
  if toHost then
    let bs := (reportBytes r).take (min len (32 + 16 * r.written))
    (pieces addr bs.length).foldl (fun s p => s.emit (.hostWrite (hostTlp s) p.1 ((bs.drop (p.1 - addr)).take p.2) false)) s
  else s

/-- A load ends: report, the mailbox command's completion (none at a start), and no load is in progress. -/
def endLoad (st : Status) (es : List ReportEntry) (s : State) : State :=
  let l := s.img.load
  let s := putReport l.repAddr.toNat l.repLen { status := st, imageId := l.imageId, entries := es } (dropWindow l.hwtIx s)
  let s := { s with img := { s.img with load := {}, fullOk := false } }
  if l.boot then s else mbEnd st [] s

/-! ### Requests (R758, R811) -/

/-- A load request: a bad length ends it with no fetch, and no header word is read, so READ of its entry is a free value.
The fetch needs host DMA and a free window entry. -/
def startLoad (l : Load) (s : State) : State :=
  let s := { s with img := { s.img with load := { l with stage := .fetching }, report := {} } }
  if l.length = 0 then endLoad .empty [] s
  else if l.length < 64 ∨ 0x01800000 < l.length then
    let r := s.drawFree 32
    endLoad .aborted (stru 0 8 r.1.toNat) r.2
  else if s.host.dmaStopped then endLoad .aborted [] s
  else match fetchWindow l.srcAddr.toNat l.length s with
    | none => endLoad .aborted [] s
    | some (i, s) => ({ s with img := { s.img with load := { s.img.load with hwtIx := some i } } }).emit (.hostRead (hubTlp .untranslated) i l.srcAddr.toNat l.length)

/-- LOAD_IMAGE: WHEN 0x3 is no activation point and ends ABORTED. [DEDUCED, log entry 24] -/
def loadImage (s : State) : State :=
  let w := mbArg s 6 % 4
  let act : Option ActPoint := if w = 1 then some (.atStep (BitVec.ofNat 64 (mbArg64 s 7))) else if w = 2 then some .atHold else none
  let l : Load := { length := mbArg s 2, srcAddr := BitVec.ofNat 64 (mbArg64 s 0), repAddr := BitVec.ofNat 64 (mbArg64 s 3), repLen := mbArg s 5,
                    act := act }
  if s.img.load.stage != .idle ∨ w = 3 then mbEnd .aborted [] s else startLoad l s
def execLoadImage (tag : BitVec 8) (s : State) : Host.Outcome State Fault Refusal := .next (mbCommand 2 tag loadImage s)

/-- WRITE_BOOT_IMAGE: fetched and validated as an image, then written to flash. -/
def writeBootImage (s : State) : State :=
  let l : Load := { toFlash := true, length := mbArg s 2, srcAddr := BitVec.ofNat 64 (mbArg64 s 0) }
  if s.img.load.stage != .idle then mbEnd .aborted [] s else startLoad l s
def execWriteBootImage (tag : BitVec 8) (s : State) : Host.Outcome State Fault Refusal := .next (mbCommand 4 tag writeBootImage s)

/-! ### Steps 1 to 4 (R85) -/

/-- Steps 1 to 4 on a file in their order. -/
def checkFile (s : State) (f : List Byte) (req : Option Nat) : Check × Image :=
  let a := ((headerCheck f req).then (signatureCheck s f)).then (tableCheck f)
  match a.ends with
  | some _ => (a, {})
  | none =>
    let r := recordCheck s f
    (a.then r.1, r.2)

/-- IMAGE_ID of the report: the header's once step 1 has passed. -/
def reportId (f : List Byte) (req : Option Nat) : BitVec 64 :=
  match (headerCheck f req).ends with
  | some _ => 0
  | none => BitVec.ofNat 64 (bfld f 0x18 0 64)

/-- The file is at hand: steps 1 to 4, then what the request itself forbids: a partial image at once or for flash, a full
image while a partial image is armed (R98), or in a stopped package whose stop is not answered (R708). -/
def fileReady (f : List Byte) (req : Option Nat) (s : State) : State :=
  let c := checkFile s f req
  let l := s.img.load
  let l := { l with imageId := reportId f req }
  let s := { s with img := { s.img with load := l } }
  match c.1.ends with
  | some st => endLoad st c.1.entries s
  | none =>
    let part := c.2.partialKind
    if part && (l.act.isNone || l.toFlash) then endLoad .aborted c.1.entries s
    else if !part && !l.toFlash && s.img.armed.any (fun e => e.2.isSome) then endLoad .aborted c.1.entries s
    else if !part && !l.toFlash && s.flt.stopped && !stopAnswered s then endLoad .aborted c.1.entries s
    else
      { s with img := { s.img with load := { l with stage := .fetched, cand := c.2, bytes := if l.toFlash then f else [],
                                                    entries := c.1.entries } } }

/-- IMAGE_FETCH_DONE: the bytes that the fetch returned, as many as the request names. -/
def imageFetchDone (bytes : List Byte) (s : State) : State :=
  let l := s.img.load
  if l.stage != .fetching then s
  else
    let f := (bytes ++ List.replicate (l.length - bytes.length) 0#8).take l.length
    let s := { s with img := { s.img with load := { l with hwtIx := none } } }
    fileReady f (some l.length) (dropWindow l.hwtIx s)
def execImageFetchDone (bytes : List Byte) (s : State) : Host.Outcome State Fault Refusal := .next (imageFetchDone bytes s)

/-- The boot image at a start (R723, R811): its header, then LENGTH bytes from flash; an absent image ends EMPTY.
[DEDUCED, log entry 24] -/
def bootLoad (s : State) : State :=
  let b := s.mgt.flash.boot
  let s := { s with img := { s.img with load := { boot := true, stage := .fetching }, report := {} } }
  let n := bfld b 8 0 32
  if b.isEmpty then endLoad .empty [] s else fileReady (if n < 64 then b else b.take n) none s

/-! ### Validation ends (R87, R92 to R95, R98) -/

/-- Whether the running image's enabled partitions are all HELD, BROKEN or STOPPED (R92). -/
def fullOpen (s : State) : Bool := s.enabledParts.all (fun p => !(s.part p).active)

/-- Whether a partition stands at a hold at which a partial image can take effect: HELD, or BROKEN once the host driver has
rewritten the tree since (R94, R110). [DEDUCED, log entry 24] -/
def atHold (s : State) (p : Nat) : Bool :=
  let x := s.part p
  x.state == .held || (x.state == .broken && x.regroup)

/-- Whether a partition's step of a number has ended (R98): it lies behind, or it is the last one, whose proof is complete or
given up. [DEDUCED, log entry 24] -/
def stepEnded (x : Part) (n : BitVec 64) : Bool :=
  decide (n < x.step) || (n == x.step && !x.fresh && !x.active && (x.state != .held || x.heldDone))

/-- IMAGE_VALIDATION_DONE: the fields are clamped; a partial image is armed, a full image waits for its activation, an image
for flash is written over the erased region.
[DEDUCED, log entry 24; DESIGN CHOICE, log entry 94; DESIGN CHOICE, log entry 95; DESIGN CHOICE, log entry 102] -/
def imageValidationDone (s : State) : State :=
  let l := s.img.load
  if l.stage != .fetched then s
  else
    let c := clampImage l.cand
    let es := l.entries ++ c.1
    if l.toFlash then
      if !s.mgt.flash.present then endLoad .aborted es s
      else
        let s := { s with img := { s.img with load := { l with stage := .validated, entries := es } } }
        { s with mgt := { s.mgt with flash := { s.mgt.flash with boot := [] }, flashOp := .boot l.bytes } }
    else if l.cand.partialKind then
      let p := l.cand.part
      match l.act with
      | none => endLoad .aborted es s
      | some act =>
        let late := match act with
          | .atStep n => stepEnded (s.part p) n
          | .atHold => false
        let off := act == .atHold && !atHold s p
        if late then endLoad .late es s
        else if off || (Tab.get none s.img.armed p).isSome then endLoad .aborted es s
        else
          let a : Armed := { img := c.2, act := act, report := { imageId := l.imageId, entries := es }, repAddr := l.repAddr,
                             repLen := l.repLen }
          let s := { s with img := { s.img with armed := Tab.set none s.img.armed p (some a), load := {},
                                                report := { a.report with total := es.length } } }
          mbEnd .ok [] s
    else if !fullOpen s then endLoad .aborted es s
    else
      { s with img := { s.img with load := { l with stage := .validated, cand := c.2, entries := es }, fullOk := true } }
def execImageValidationDone (s : State) : Host.Outcome State Fault Refusal := .next (imageValidationDone s)

/-! ### Activation (R88, R92, R96 to R98) -/

/-- FULL_IMAGE_ACTIVATE: partitions whose base schedule uses a fenced unit stay not started; every other enabled partition
becomes ready where it has a starter (R88, R110, R135). -/
def fullImageActivate (s : State) : State :=
  let l := s.img.load
  if !s.img.fullOk then s
  else if !fullOpen s then endLoad .aborted l.entries s
  else
    let bad := fencedParts l.cand s
    let es := l.entries ++ bad.flatMap (·.2)
    let s := installFull l.cand s
    let go := s.enabledParts.filter (fun p => !bad.any (fun b => b.1 == p) && (starterOf s p).isSome)
    let st : Status := if bad.isEmpty then .ok else if go.isEmpty then .aborted else .partialDone
    let s := go.foldl (fun s p => becomeReady p s) s
    refresh (endLoad st es s)
def execFullImageActivate (s : State) : Host.Outcome State Fault Refusal := .next (fullImageActivate s)

/-- Whether an armed image's activation point has come: the proof that ended its step, or the hold (R94, R96).
[DESIGN CHOICE, log entry 96] -/
def actNow (s : State) (p : Nat) (a : Armed) : Bool :=
  let x := s.part p
  match a.act with
  | .atStep n => x.state == .held && x.heldDone && n == x.step
  | .atHold => atHold s p && (x.state != .held || x.heldDone)

/-- PARTIAL_IMAGE_ACTIVATE: a fenced unit that the activating schedule uses abandons it, and the partition stays held;
otherwise the image takes effect and the member becomes ready (R96, R98). [DEDUCED, log entry 24; DESIGN CHOICE, log entry 93] -/
def partialImageActivate (p : Nat) (s : State) : State :=
  match Tab.get none s.img.armed p with
  | none => s
  | some a =>
    if !actNow s p a then s
    else
      let x := s.part p
      let cfg := exclude x.cfg (exclOf (mergeImage s.img.run a.img p) p a.img.variant)
      let bad := fencedEntries s cfg p none
      if !bad.isEmpty then
        let s := { s with img := { s.img with armed := Tab.set none s.img.armed p none } }
        putReport a.repAddr.toNat a.repLen { a.report with status := .aborted, entries := a.report.entries ++ bad } s
      else
        let s := installPartial a.img p s
        let s := putReport a.repAddr.toNat a.repLen { a.report with activeStep := x.step } s
        refresh (becomeReady p s)
def execPartialImageActivate (p : Fin 64) (s : State) : Host.Outcome State Fault Refusal := .next (partialImageActivate p.val s)

/-! ### READ_REPORT (R758) -/

/-- READ_REPORT: 64 B of the kept report; EMPTY beyond its end. An offset that is no multiple of 64 is taken down to one (the
manual names only multiples). [DEDUCED, log entry 21] -/
def readReport (s : State) : State :=
  let o := mbArg s 0 / 64 * 64
  let b := reportBytes s.img.report
  if b.length ≤ o then mbEnd .empty [] s
  else mbEnd .ok ((List.range 16).map (fun i => bfld b (o + 4 * i) 0 32)) s
def execReadReport (tag : BitVec 8) (s : State) : Host.Outcome State Fault Refusal := .next (mbCommand 3 tag readReport s)

end Sys2Proof.Machine
end

