-- ==== Sys2Proof/Machine/Memory.lean ====
section
/-! DEFINITION. The commands of staging SRAM and of the HBM stacks: scrub, recalibration, zeroing, row repair, fences and
re-admissions, coherent windows, and a shorted stack rail (R324 to R363, R715, R739). -/
namespace Sys2Proof.Machine
open Sys2Proof

/-! ### Scrub (R341, R343) -/

/-- What a scrub read finds at a line: a corrected line is written back and counted; an uncorrectable one is marked
poisoned. Scrub bypasses the ownership check and returns no data. -/
def scrubLine (g pa : Nat) (e : Ecc) (s : State) : State :=
  let r := checkEcc (granGroup g) 1 true e s
  match r.1 with
  | .clean => r.2
  | .corrected => countCe g r.2
  | .uncorrectable => strikeUe g pa r.2

/-- HBM_SCRUB: the lines that position m's scrub found; HOURS 0 disables it. [DEDUCED, log entry 43] -/
def hbmScrub (m : Nat) (found : List (Nat × Ecc)) (s : State) : State :=
  if bits (s.reg (0x200004 + m * 0x10000) 0x18#32).toNat 0 8 = 0 then s
  else found.foldl (fun s f =>
    match paSpot s f.1 with
    | .hbm k ch g => if k = m ∧ granUp s (granOf (.hbm k ch g)) = true then scrubLine (granOf (.hbm k ch g)) f.1 f.2 s else s
    | _ => s) s
/-- HBM_SCRUB (R343). -/
def execHbmScrub (m : Fin 6) (found : List (Nat × Ecc)) (s : State) : Host.Outcome State Fault Refusal := .next (hbmScrub m.val found s)

/-- SRAM_SCRUB. [DEDUCED, log entry 43] -/
def sramScrub (found : List (Nat × Ecc)) (s : State) : State :=
  found.foldl (fun s f =>
    match paSpot s f.1 with
    | .sram b g => if (s.bank b).fenced then s else scrubLine (granOf (.sram b g)) f.1 f.2 s
    | _ => s) s
/-- SRAM_SCRUB (R343). -/
def execSramScrub (found : List (Nat × Ecc)) (s : State) : Host.Outcome State Fault Refusal := .next (sramScrub found s)

/-! ### Recalibration, zeroing and repair (R348 to R355, R359, R739) -/

/-- HBM_RECALIBRATION: a channel that is being re-admitted comes back into service and is zeroed; one that fails its
training sets TRAIN and is fenced, at its owner's next proof where the owner runs (R334, R358, R739). [DEDUCED, log entry 46] -/
def hbmRecalibration (m ch : Nat) (trained : Bool) (s : State) : State :=
  let c := m * 32 + ch
  let x := s.chan c
  if (x.fenced && !x.readmPend) || !(s.stack m).powered then s
  else if !trained then
    let s := s.setChan c { x with readmPend := false, trained := false }
    raise (17 + m) 4 ch (if x.fenced then s else requestChanFence c s)
  else if x.readmPend then s.setChan c { x with fenced := false, readmPend := false, trained := true, zeroing := true }
  else s.setChan c { x with trained := true }
/-- HBM_RECALIBRATION (R739). -/
def execHbmRecalibration (m : Fin 6) (ch : Fin 32) (trained : Bool) (s : State) : Host.Outcome State Fault Refusal :=
  .next (refresh (hbmRecalibration m.val ch.val trained s))

/-- Row of a physical address: a bank's 1 KiB row, or the bits of R326 that name an HBM row. -/
def rowKey (s : State) (pa : Nat) : Nat × Nat :=
  match paSpot s pa with
  | .sram .. => (0, pa / 1024)
  | .hbm m ch _ => let o := pa % 0x80000000; (1 + m * 32 + ch, o / 65536 * 32 + o / 64 % 32)
  | _ => (0, 0)

/-- Granule of a physical address. -/
def granAt (s : State) (pa : Nat) : Nat := granOf (paSpot s pa)

/-- Zeroing of a list of granules ends: each is zeroed, and what waited for it goes on. -/
def zeroed (gs : List Nat) (s : State) : State :=
  let s := gs.foldl (fun s g => zeroGranule g s) s
  let s := { s with mem := { s.mem with toZero := s.mem.toZero.filter (fun g => !gs.contains g) } }
  match gs.head?.bind (granPart s) with
  | some p => resumeArrival p s
  | none => s

/-- ZEROING_DONE: a granule, bank or channel is zeroed. A row of it that failed is repaired first; a fenced unit's zeroing
has been abandoned; a unit that failed to complete sets ZERO_FAIL and stays unzeroed; a re-admitted bank that does not pass is fenced again (R358).
[DEDUCED, log entry 43] -/
def zeroingDone (u : ZeroUnit) (ok : Bool) (s : State) : State :=
  let fail := fun (g : Nat) (s : State) => raise (granGroup g) (if g < 5120 then 6 else 7) (granBase g) s
  let wait := fun (gs : Nat → Bool) => s.mem.due.any (fun d => gs (granAt s d.pa))
  match u with
  | .granule g =>
    if !s.mem.toZero.contains g || wait (· == g) then s
    else if ok then zeroed [g] s else fail g s
  | .bank b =>
    let x := s.bank b.val
    let g := b.val * 80
    if !x.zeroing || x.fenced || wait (fun k => k / 80 == b.val && decide (k < 5120)) then s
    else if !ok then fail g (if x.test then requestBankFence b.val s else s)
    else zeroed (bankGrans b.val) (s.setBank b.val { x with zeroing := false, test := false })
  | .chan m ch =>
    let c := m.val * 32 + ch.val
    let x := s.chan c
    if !x.zeroing || x.fenced || wait (fun k => decide (5120 ≤ k) && (k - 5120) / 1024 == c) then s
    else if !ok then fail (5120 + c * 1024) s
    else zeroed (chanGrans c) (s.setChan c { x with zeroing := false })
/-- ZEROING_DONE (R349). -/
def execZeroingDone (u : ZeroUnit) (ok : Bool) (s : State) : Host.Outcome State Fault Refusal := .next (refresh (zeroingDone u ok s))

/-- A row that finds no spare: its granule is fenced, and the owner's ARRIVE carries FENCE (R355). -/
def fenceGranule (pa : Nat) (s : State) : State :=
  let g := granAt s pa
  let s := s.setGranule g { s.granule g with fenced := true }
  let s := match granPart s g with
    | some p => markFence [p] s
    | none => s
  raise (granGroup g) (if g < 5120 then 5 else 6) pa s

/-- ROW_REPAIR: a row that failed is replaced after its owner's local arrival, or at once where the owner does not run; the
lines that cannot be corrected are marked poisoned (R354, R355, R359, R819). [DEDUCED, log entry 43] -/
def rowRepair (pa : Nat) (badLines : List Nat) (s : State) : State :=
  let k := rowKey s pa
  match s.mem.due.find? (fun d => rowKey s d.pa == k) with
  | none => s
  | some d =>
    let busy := match d.part with
      | some p => (s.part p).active && (s.part p).endLocal.isNone
      | none => false
    if busy then s
    else
      let s := { s with mem := { s.mem with due := s.mem.due.filter (fun q => !(rowKey s q.pa == k)) } }
      let bad := badLines.filter (fun l => rowKey s (l * 64) == k)
      let s := addFinding (BitVec.ofNat 32 (rowData s pa)) s
      let s := match replaceRow pa s with
        | some s => markLines bad (match paSpot s pa with | .hbm m _ _ => traceAt (106 + m) d.part s | _ => s)
        | none => fenceGranule pa s
      match d.part with
      | some p => resumeArrival p s
      | none => s
/-- ROW_REPAIR (R354). -/
def execRowRepair (pa : Nat) (badLines : List Nat) (s : State) : Host.Outcome State Fault Refusal := .next (refresh (rowRepair pa badLines s))

/-! ### Fences, re-admissions, windows (R332, R356 to R360, R715) -/

/-- SRM_BANK_FENCE (R356). -/
def execSrmBankFence (b : Fin 64) (s : State) : Host.Outcome State Fault Refusal := .next (requestBankFence b.val s)

/-- SRM_BANK_READMIT: refused unless the bank is fenced (R358, R360). -/
def srmBankReadmit (b : Nat) (s : State) : State := if (s.bank b).fenced then requestBankReadmit b s else refuseWrite 23 s
def execSrmBankReadmit (b : Fin 64) (s : State) : Host.Outcome State Fault Refusal := .next (srmBankReadmit b.val s)

/-- MEM_CH_FENCE (R356). -/
def execMemChFence (m : Fin 6) (ch : Fin 32) (s : State) : Host.Outcome State Fault Refusal :=
  .next (requestChanFence (m.val * 32 + ch.val) s)

/-- MEM_CH_READMIT: refused unless the channel is fenced (R358, R362). [DEDUCED, log entry 46] -/
def memChReadmit (m ch : Nat) (s : State) : State :=
  if (s.chan (m * 32 + ch)).fenced then requestChanReadmit (m * 32 + ch) s
  else refuseWrite (17 + m) s
def execMemChReadmit (m : Fin 6) (ch : Fin 32) (s : State) : Host.Outcome State Fault Refusal := .next (memChReadmit m.val ch.val s)

/-- Whether the owner of a bank permits a change of a coherent window: it is STOPPED or HELD, or there is none (R332).
[DEDUCED, log entry 45] -/
def winFree (s : State) (b : Nat) : Bool :=
  match (s.bank b).owner with
  | some p => (s.part p).state == .stopped || (s.part p).state == .held
  | none => true

/-- COH_WIN_WRITE: the new setting takes effect once the old range is cached nowhere; a run past granule 79, an overlap with
another window, or a running owner refuses the write. [DEDUCED, log entry 45] -/
def cohWinWrite (w : Nat) (val : Word) (s : State) : State :=
  let first := min 79 (bits val.toNat 8 7)
  let count := bits val.toNat 16 7
  let v := BitVec.ofNat 32 (bits val.toNat 0 6 + first * 256 + count * 65536)
  let old := Tab.get 0 s.home.cohWins w
  let r := winRange v
  let others := (s.home.cohWins ++ s.home.cohPend).filter (fun e => e.1 != w && bits e.2.toNat 16 7 != 0)
  let clash := count != 0 && others.any (fun e => let q := winRange e.2; decide (r.1 < q.2) && decide (q.1 < r.2))
  if (count ≠ 0 ∧ 80 < bits val.toNat 8 7 + count) || clash || !winFree s (bits v.toNat 0 6) || !winFree s (bits old.toNat 0 6) then refuseWrite 23 s
  else
    let q := winRange old
    let s := { s with home := { s.home with cohPend := s.home.cohPend.filter (fun e => e.1 != w) ++ [(w, v)] } }
    settleHome (backInvalRange q.1 q.2 s)
/-- COH_WIN_WRITE (R332). -/
def execCohWinWrite (w : Fin 16) (val : Word) (s : State) : Host.Outcome State Fault Refusal := .next (cohWinWrite w.val val s)

/-- STACK_RAIL_SHORT: rail, controller domain and position are off and fenced at once; TRAIN sets; each owner of a channel
holds with FENCE at its next proof (R715). [DEDUCED, log entry 46] -/
def stackRailShort (m : Nat) (s : State) : State :=
  if !(s.stack m).fitted then s
  else
    let owners := (List.range 32).filterMap (fun ch => (s.chan (m * 32 + ch)).owner)
    let s := fenceStack m s
    raise (17 + m) 4 0 (markFence owners.eraseDups s)
/-- STACK_RAIL_SHORT (R715). -/
def execStackRailShort (m : Fin 6) (s : State) : Host.Outcome State Fault Refusal := .next (refresh (stackRailShort m.val s))

end Sys2Proof.Machine
end

