-- ==== Sys2Proof/Machine/Start.lean ====
section
/-! DEFINITION. The start: what a hub reset leaves, ROM, the five stages, flatbread mode, the HDT and the end of a start
(R545 to R549, R624, R632, R639, R640, R719 to R744, R749, R752). -/
namespace Sys2Proof.Machine
open Sys2Proof

/-! ### OTP (R625 to R632) -/

/-- Set a life-cycle field's copies to what they hold and the lowest bits of each count. -/
def burnBits (f a b c : Nat) (o : Otp) : Otp :=
  let put := fun (t : Tab (BitVec 16)) (k n : Nat) =>
    let i := f * 3 + k
    Tab.set 0 t i (Tab.get 0 t i ||| BitVec.ofNat 16 (2 ^ min n 16 - 1))
  { o with fields := put (put (put o.fields 0 a) 1 b) 2 c }

/-- Finish a field: every bit of all three copies. -/
def finishField (f : Nat) (o : Otp) : Otp := burnBits f 16 16 16 o

/-- The whole OTP wipe (R636): every bit outside the life-cycle fields is burnt. An all-ones entry of the defect map is void.
[DEDUCED, log entry 64] -/
def wipeOtp (o : Otp) : Otp :=
  { o with pcw := BitVec.allOnes 520, dbgHash := BitVec.allOnes 416, dbgProg := true, secret := BitVec.allOnes 288,
           serial := BitVec.allOnes 64, defects := [], rollback := max o.rollback 128, wiped := true }

/-- `LCS_STATE.USER_SECRET` (R630): 0 unprogrammed, 1 present, 2 wiped, 3 damaged. -/
def secretState (o : Otp) : Nat :=
  let b := leBytes 36 o.secret.toNat
  if o.secret = 0 then 0 else if o.secret = BitVec.allOnes 288 then 2
  else if crc32 (b.take 32) = leNat (b.drop 32) then 1 else 3

/-- The CRC of a package configuration word (R631). -/
def pcwCrcOk (w : BitVec 520) : Bool :=
  let b := leBytes 65 w.toNat
  crc32 (b.take 12 ++ (b.drop 16).take 48) == leNat ((b.drop 12).take 4)

/-- Debug policy of the word in force (R642); an unprogrammed word holds NONE. -/
def debugPolicy (s : State) : Nat := if pcwOn s then rfld s.lcs.pcw 9 6 2 else 0

/-- Measurement block 5 (R613): life-cycle state, debug policy, open flag and rights. -/
def measureDebug (s : State) : State :=
  setMeas 5 ([BitVec.ofNat 8 (lifeCycle s), BitVec.ofNat 8 (debugPolicy s), BitVec.ofNat 8 (if s.dbg.openS then 1 else 0)] ++
             leBytes 4 s.dbg.rights.toNat) s

/-- Measurement block 2 (R613): the running firmware and the anti-rollback counter. [DEDUCED, log entry 63] -/
def measureFw (s : State) : State :=
  setMeas 2 (beBytes 48 (Config.sha384 s.mgt.fw.bytes).toNat ++ leBytes 4 s.lcs.otp.rollback) s

/-! ### What survives -/

/-- Fitted positions of an ordering code (R3). -/
def fittedBy (ordering : Nat) : List Nat :=
  if ordering = 0 then [0, 1, 2, 3, 4, 5] else if ordering = 1 then [0, 2, 3, 5] else if ordering = 2 then [0, 3] else []

/-- The hub right after a hub reset: every register and memory of the hub at its reset value. OTP, flash, the fuses of the
stacks, the tiles and the levels of the pins stay; so do the commands that wait. [DEDUCED, log entry 66] -/
def hubBase (s : State) : State :=
  let hard : Tab Chan := Tab.mapV {} (fun _ (c : Chan) => { hard := c.hard }) s.mem.chans
  { State.reset with
    lcs := { otp := s.lcs.otp }
    sec := { idX := s.sec.idX, idY := s.sec.idY, idKey := s.sec.idKey }
    mgt := { flash := s.mgt.flash, coldReq := s.mgt.coldReq, rcvRun := s.mgt.rcvRun }
    pwr := { powered := s.pwr.powered, pwrgd := s.pwr.pwrgd, latched := s.pwr.latched, tripRec := s.pwr.tripRec,
             inputLost := s.pwr.inputLost, overV := s.pwr.overV, tiles := s.pwr.tiles, throtN := s.pwr.throtN, refW := s.pwr.refW,
             refE := s.pwr.refE }
    mem := { stackTab := (fittedBy s.lcs.otp.ordering).foldl (fun t m => Tab.set {} t m { fitted := true }) [], chans := hard,
             hppr := s.mem.hppr }
    dbg := { tapIr := s.dbg.tapIr, tapOut := s.dbg.tapOut, boundary := s.dbg.boundary }
    host := { perst := s.host.perst }
    free := s.free, out := s.out, pending := s.pending }

/-- The hub enters reset: ERR_N goes low with it (R638, R786). [DEDUCED, log entry 66] -/
def enterReset (s : State) : State :=
  let b := hubBase s
  if s.flt.pin then b.emit (.errN false) else b

/-- Change the start record (R740), where a flash device answers. -/
def setStart (f : StartRec → StartRec) (s : State) : State :=
  if s.mgt.flash.present then { s with mgt := { s.mgt with flash := { s.mgt.flash with start := f s.mgt.flash.start } } } else s

/-! ### The HDT (R545 to R549) -/

/-- Codes of `SIT_STATE.STATE`. -/
def SState.num : SState → Nat
  | .off => 0 | .rails => 1 | .link => 2 | .negotiate => 3 | .attest => 4 | .config => 5 | .ready => 6 | .admitted => 7
  | .retrain => 8 | .fenced => 9

/-- An entry: TYPE, LEN, and the body from offset 4, padded to a multiple of 8. -/
def hdtEntry (ty : Nat) (body : List Byte) : List Byte :=
  let n := (4 + body.length + 7) / 8 * 8
  leBytes 4 (ty + n * 65536) ++ body ++ List.replicate (n - 4 - body.length) 0#8

/-- The package entry. -/
def hdtPackage (s : State) : List Byte :=
  let o := s.lcs.otp
  hdtEntry 1 (leBytes 4 0 ++ leBytes 8 o.serial.toNat ++
    leBytes 8 (o.hubRev.toNat + o.ordering % 4 * 2 ^ 16 + lifeCycle s * 2 ^ 24) ++
    leBytes 8 (if s.img.loaded then s.img.run.imageId.toNat else 0) ++ leBytes 4 s.mgt.fw.version.toNat)

/-- A site entry. -/
def hdtSite (s : State) (n : Nat) : List Byte :=
  let t := s.site n
  hdtEntry 2 (leBytes 4 (n + expectedClass s n t.cls % 16 * 2 ^ 8 + t.found % 16 * 2 ^ 12 + t.state.num * 2 ^ 16 + t.fld 8 4 2 * 2 ^ 20 +
    t.modules % 16 * 2 ^ 22 + t.owner.getD 0 % 64 * 2 ^ 26))

/-- Stacks and channels in service. -/
def stackUp (s : State) (m : Nat) : Bool := let x := s.stack m; x.fitted && !x.fenced && x.powered
def bitMask (l : List Nat) : Nat := l.foldl (fun a i => a + 2 ^ i) 0

/-- The memory entry; on a stack mismatch it reports no stack (R337). -/
def hdtMemory (s : State) : List Byte :=
  let ms := if stackMismatch s then [] else fittedStacks s
  let up := ms.filter (stackUp s)
  let chans := up.foldl (fun a m => a + ((List.range 32).filter (fun ch => !(s.chan (m * 32 + ch)).fenced)).length) 0
  hdtEntry 3 (leBytes 4 (bitMask ms + bitMask up * 256) ++ leBytes 8 (chans * 2 ^ 31) ++
    leBytes 8 (bitMask ((List.range 64).filter (fun b => !(s.bank b).fenced))))

/-- A partition entry. -/
def hdtPart (s : State) (p : Nat) : List Byte :=
  let c := (s.part p).cfg
  hdtEntry 4 (leBytes 4 (p + c.viCount * 2 ^ 16) ++ leBytes 4 (c.viFirst + c.domainSize * 2 ^ 16) ++
    leBytes 4 ((ringEngine s p).getD 0))

/-- The features entry: the hub has ATS, PRI, SEAL and SPDM over DOE. -/
def hdtFeatures (s : State) : List Byte :=
  let unsigned := !pcwOn s || rbit s.lcs.pcw 9 2
  hdtEntry 6 (leBytes 4 0 ++ leBytes 8 (15 + (if unsigned then 16 else 0) + (if unattestedOk s then 32 else 0)))

/-- The table of a list of entries: header with LENGTH and CRC, then the entries. -/
def hdtOf (flat : Bool) (reason : Nat) (es : List (List Byte)) : List Byte :=
  let n := 64 + es.flatten.length
  let build := fun (crc : Nat) => leBytes 4 0x5444484C ++ leBytes 4 0x10000 ++ leBytes 4 n ++ leBytes 4 es.length ++ leBytes 4 crc ++
    leBytes 4 ((if flat then 1 else 0) + reason * 256) ++ List.replicate 40 0#8 ++ es.flatten
  build (crc32 (build 0))

/-- The full HDT. -/
def fullHdt (s : State) : List Byte :=
  hdtOf false 0 ([hdtPackage s] ++ (List.range 18).map (hdtSite s) ++ [hdtMemory s] ++ s.enabledParts.map (hdtPart s) ++
    [hdtEntry 5 (leBytes 4 (1023 + 64 * 65536)), hdtFeatures s])

/-! ### Findings (R727, R734 to R736) -/

/-- DATA words of what the tests found bad. -/
def foundUnits (x : StartIn) : List Nat :=
  x.cellsBad.map (fun c => 0x10000000 + c.1 % 4 * 1024 + c.2 % 1024) ++ x.sramRows.map (fun r => 0x20000000 + r.1 % 64 * 8192 + r.2 % 8192) ++
  x.hbmRows.map (·.toNat)

/-- The last-good record permits a warm start (R726). [DEDUCED, log entry 73] -/
def warmOk (x : StartIn) (prevDone : Bool) (s : State) : Bool :=
  match s.mgt.flash.good with
  | none => false
  | some g => s.mgt.flash.present && g.serial == s.lcs.otp.serial && g.stackTab.toNat == bitMask (fittedStacks s) && g.version == s.mgt.fw.version &&
      x.young && g.defects == (mapUnitsOf s).length && prevDone && !s.mgt.coldReq

/-- The counts after this start's tests, and the units bad in it: a unit that the map lists is not tested; a tested unit found
good loses its count; a unit whose append found the map full stays bad (R735, R736). Lanes and modules wait for the training of
their site. [DEDUCED, log entry 73] -/
def countFindings (warm : Bool) (found : List Nat) (s : State) : List (BitVec 32 × Nat) × List Nat :=
  let old := match s.mgt.flash.good with | some g => g.findings | none => []
  let listed := mapUnitsOf s
  let old := old.filter (fun f => !listed.contains f.1.toNat)
  let tested := (found.filter (fun d => !listed.contains d && (!warm || old.any (fun f => f.1.toNat == d)))).eraseDups
  let kept := old.filterMap (fun f =>
    if linkUnit f.1.toNat || decide (3 ≤ f.2) then some f else if tested.contains f.1.toNat then some (f.1, f.2 + 1) else none)
  let new := (tested.filter (fun d => !old.any (fun f => f.1.toNat == d))).map (fun d => (BitVec.ofNat 32 d, 1))
  (kept ++ new, (kept ++ new).map (fun f => f.1.toNat))

/-! ### Stage 3: memory -/

/-- Repair a row of the map or of a finding, or fence its granule; a spare row is out of use; a unit absent from the package
is ignored and logged (R731, R734). -/
def startRow (d : Nat) (s : State) : State :=
  let ty := d / 0x10000000
  let absent := writeLog 0x40 1 4 1 d 0 s
  if ty = 2 then
    let b := bits d 13 6
    if 5136 ≤ bits d 0 13 then absent
    else match rowPa d with
      | some pa => (match replaceRow pa s with | some s => s | none => fenceGranule pa s)
      | none => s.setBank b { s.bank b with spares := (s.bank b).spares - 1 }
  else if ty = 3 then
    if !(s.stack (bits d 25 3)).fitted then absent
    else if !(s.stack (bits d 25 3)).powered then s
    else match rowPa d with
      | some pa => (match replaceRow pa s with | some s => s | none => fenceGranule pa s)
      | none => s
  else s

/-- Stack positions are powered, their channels train, and units that failed are fenced (R334, R336 to R338). -/
def startStacks (bad : List Nat) (s : State) : State :=
  let mm := stackMismatch s
  let s := if mm then raise 17 8 0 s else s
  (List.range 6).foldl (fun s m =>
    if !(s.stack m).fitted || mm then s
    else
      let s := setDomain (58 + m) true (setDomain (16 + m) true s)
      let s := s.setStack m { s.stack m with powered := true }
      let s := (List.range 32).foldl (fun s ch =>
        let c := m * 32 + ch
        if bad.contains c then raise (17 + m) 4 ch (fenceChan c s) else s.setChan c { s.chan c with trained := true }) s
      if (List.range 32).all (fun ch => bad.contains (m * 32 + ch)) then fenceStack m s else s) s

/-- Stage 3. -/
def startMemory (x : StartIn) (units : List Nat) (s : State) : State :=
  let s := startStacks x.chansBad s
  let s := (x.banksBad.filter (fun b => decide (b < 64))).foldl (fun s b => fenceBank b s) s
  units.foldl (fun s d => startRow d s) s

/-! ### Stage 4: lanes and ports -/

/-- A lane, module or SerDes lane of the map that the package has not is ignored and logged (R731); the others act where their
site or port trains. -/
def startLink (d : Nat) (s : State) : State :=
  let ty := d / 0x10000000
  let absent := (ty = 4 ∨ ty = 5) ∧ 18 ≤ bits d 9 5 ∨ ty = 6 ∧ d.testBit 6 = true ∧ bits d 1 2 ≠ 0
  if absent then writeLog 0x40 1 4 1 d 0 s else s

/-- Proof ports whose lane the map lists are disabled (R734). -/
def mapProofPorts (s : State) : BitVec 8 :=
  (List.range 8).foldl (fun m n => if (mapUnitsOf s).any (fun d => decide (d / 0x10000000 = 6) && d.testBit 6 && bits d 1 2 == 0 && bits d 3 3 == n)
    then putBit m n true else m) 0#8

/-! ### Stage 5: cells -/

/-- A bad physical cell: its column takes the spare, or is fenced where two cells are bad (R190, R191, R734). -/
def startCellBad (d : Nat) (s : State) : State :=
  if d / 0x10000000 ≠ 1 then s
  else if 544 ≤ bits d 0 10 then writeLog 0x40 1 4 1 d 0 s
  else
    let sp := cellSpot (bits d 10 2) (bits d 0 10)
    let c := s.col sp.1
    if c.fenced then s
    else if c.spare || c.spareBad then fenceCol sp.1 s
    else if sp.2 = 16 then s.setCol sp.1 { c with spareBad := true }
    else s.setCol sp.1 { c with spare := true, bypass := sp.2 }

/-- Stage 5 up to the boot image's activation. -/
def startCells (x : StartIn) (units : List Nat) (s : State) : State :=
  let s := units.foldl (fun s d => startCellBad d s) s
  (x.switchBad.filter (fun k => decide (k < 128))).foldl (fun s k => if (s.col k).fenced then s else fenceCol k s) s

/-! ### Flatbread mode (R742 to R744) -/

/-- ROM enters flatbread mode with a reason; the HDT is the reduced one. -/
def flatbread (reason : Nat) (s : State) : State :=
  let s := { s with mgt := { s.mgt with stage := .flatbread, flatReason := reason, fw := {} } }
  writeLog 0x41 3 1 7 reason 0 { s with host := { s.host with hdt := hdtOf true reason [hdtPackage s] } }

/-! ### The firmware part of a start -/

/-- Entry to a stage: LAST_STAGE is written. -/
def enterStage (n : Nat) (st : Stage) (s : State) : State :=
  writeLog 0x40 0 1 n 0 0 (setStart (fun r => { r with last := n }) { s with mgt := { s.mgt with stage := st } })

/-- A fatal condition: the start ends here, and the hub reset that follows counts it (R719, R742). [DEDUCED, log entry 72] -/
def fatalStart (n : Nat) (s : State) : State := writeLog 0x40 3 1 n 0 1 { s with mgt := { s.mgt with stopStart := true } }

/-- The boot image is loaded, validated and activated; without one, or with one that fails, no partition is enabled (R723). -/
def startBoot (s : State) : State := fullImageActivate (imageValidationDone (bootLoad s))

/-- Stages 1 to 5 as firmware runs them. `prevDone`: the previous start completed. [DEDUCED, log entry 72] -/
def firmwareStart (x : StartIn) (prevDone : Bool) (s : State) : State :=
  let s := enterStage 1 .s1 s
  let s := setMeas 1 (beBytes 48 Config.romDigest.toNat) s
  let s := measureDebug (setMeas 4 (leBytes 65 s.lcs.pcw.toNat) (measureFw s))
  let s := if rfld s.lcs.pcw 0xA 0 2 = 3 && pcwOn s then writeLog 0x40 1 6 3 0 0 s else s
  let s := ((List.range 18).filter (fun n => pcwOn s && decide (5 < rfld s.lcs.pcw 0 (4 * n) 4))).foldl (fun s n => writeLog 0x40 1 6 11 n 0 s) s
  let s := ((List.range 18).filter (fun n => pcwOn s && expectedClass s n 0 != pcwClass s n)).foldl (fun s n => writeLog 0x40 1 6 14 n 0 s) s
  let warm := warmOk x prevDone s
  let f := countFindings warm (foundUnits x) s
  let units := mapUnitsOf s ++ f.2
  let s := { s with mgt := { s.mgt with findings := f.1, coldReq := false } }
  let s := enterStage 2 .s2 { s with noc := { s.noc with segsUp := x.crossings } }
  if !x.synthLock || x.crossings != 7#3 then fatalStart 2 s
  else
    let s := startMemory x units (enterStage 3 .s3 s)
    if (List.range 64).all (fun b => (s.bank b).fenced) then fatalStart 3 s
    else
      let s := enterStage 4 .s4 s
      let s := (mapUnitsOf s).foldl (fun s d => startLink d s) s
      let s := { s with prfUp := x.proofPorts &&& ~~~ mapProofPorts s, prfPeer := x.proofPeers.foldl (fun t e => Tab.set 0 t e.1 (BitVec.ofNat 64 e.2)) [] }
      let s := appendFindings (startCells x units (enterStage 5 .s5 s))
      startBoot s

/-! ### ROM -/

/-- A firmware slot's image. -/
def slotImage (f : Flash) (t : Nat) : Option FwImage := if t = 0 then f.slotA else if t = 1 then f.slotB else f.recov
def FwSlot.of : Nat → FwSlot
  | 0 => .a | 1 => .b | _ => .recovery

/-- Whether a slot's image verifies, and whether its SVN passes the counter (R751, R752). -/
def slotVerifies (x : StartIn) (f : Flash) (t : Nat) : Bool :=
  (slotImage f t).isSome && (if t = 0 then x.verifyA else if t = 1 then x.verifyB else x.verifyR)
def slotPasses (s : State) (t : Nat) : Bool :=
  match slotImage s.mgt.flash t with | some i => decide (s.lcs.otp.rollback ≤ i.svn) | none => false

/-- Slots in the order in which ROM takes them (R752). [DEDUCED, log entry 72] -/
def slotOrder (f : Flash) : List Nat := f.trial.toList ++ [f.active % 2, 1 - f.active % 2, 2]

/-- The ERR_N mode (R709): by population, the sites whose expected class is not 0 decide. -/
def errHeartbeat (s : State) : Bool :=
  let m := if pcwOn s then rfld s.lcs.pcw 9 4 2 else 1
  let n := ((List.range 18).filter (fun k => expectedClass s k 0 != 0)).length
  m == 2 || (m == 0 && decide (8 < n))

/-- Fields that ROM finds partly burnt and finishes (R639). -/
def partFields (o : Otp) : List Nat := (List.range 5).filter (partlyBurnt o)
def finishFields (o : Otp) : Otp := (partFields o).foldl (fun o f => finishField f o) o

/-- Whether ROM repeats an interrupted wipe: SCRAP is burnt and WIPED is not (R640). -/
def wipeDue (o : Otp) : Bool := burnt o 3 && !burnt o 4

/-- OTP after ROM's burns (R639, R640). -/
def romOtp (o : Otp) : Otp := if wipeDue (finishFields o) then finishField 4 (wipeOtp (finishFields o)) else finishFields o

/-- ROM's burns, the erase of a repeated wipe, and what ROM samples: the flash device, the nonce, THROT_N. -/
def romBurn (x : StartIn) (s : State) : State :=
  let rep := wipeDue (finishFields s.lcs.otp)
  let fl := s.mgt.flash
  { s with
    lcs := { s.lcs with otp := romOtp s.lcs.otp, finished := BitVec.ofNat 5 (bitMask (partFields s.lcs.otp)), wipeRep := rep },
    sec := { s.sec with idKey := s.sec.idKey && !rep },
    mgt := { s.mgt with flash := { fl with present := x.flashOk, slotA := if rep then none else fl.slotA,
                                           slotB := if rep then none else fl.slotB, recov := if rep then none else fl.recov } },
    dbg := { s.dbg with nonce := x.nonce },
    pwr := { s.pwr with throtN := x.throtLow, tripRec := false } }

/-- What ROM does before any stage: it finishes partly burnt fields, repeats an interrupted wipe, reads the word, takes the
ERR_N mode, and draws the boot nonce (R639, R640, R646, R654, R660, R709). [DEDUCED, log entry 72] -/
def romFirst (x : StartIn) (s : State) : State :=
  let part := partFields s.lcs.otp
  let s := romBurn x s
  let s := { s with lcs := { s.lcs with pcw := s.lcs.otp.pcw } }
  let s := { s with flt := { s.flt with modeRead := true, heartbeat := errHeartbeat s } }
  let s := if part.isEmpty then s else raise 3 1 0 s
  let s := if secretState s.lcs.otp = 3 then raise 3 3 0 s else s
  refresh (if x.throtLow then raise 6 7 0 s else s)

/-- Slot selection and what follows: flatbread mode where none qualifies (R742, R752). [DEDUCED, log entry 72] -/
def romSelect (x : StartIn) (prevDone : Bool) (s : State) : State :=
  let f := s.mgt.flash
  let good := (slotOrder f).filter (slotVerifies x f)
  match good.find? (slotPasses s) with
  | none => flatbread (if good.isEmpty then 2 else 3) s
  | some t =>
    let s := { s with mgt := { s.mgt with running := FwSlot.of t, onTrial := f.trial == some t, fw := (slotImage f t).getD {}, flash := { f with trial := none } } }
    firmwareStart x prevDone s

/-- A hub reset (R719 to R742): what survives, ROM, then the stages or flatbread mode. A start that a recovery image runs has no
ROM part (R748). [DEDUCED, log entry 66; DESIGN CHOICE, log entry 74] -/
def hubReset (x : StartIn) (s : State) : State :=
  if !s.pwr.powered then s
  else if s.mgt.rcvRun then
    let s := { s with mgt := { s.mgt with rcvRun := false }, sec := { s.sec with entropyOk := x.entropyOk } }
    refresh (firmwareStart x false (if x.entropyOk then s else raise 4 1 0 s))
  else
    let trip := s.pwr.tripRec
    let lost := s.pwr.inputLost
    let s := romFirst x (enterReset s)
    let s := if trip then raise 5 4 0 s else s
    let s := { s with pwr := { s.pwr with inputLost := false } }
    if lifeCycle s = 4 then refresh (flatbread 0x20 s)
    else if !s.mgt.flash.present then refresh (flatbread 1 s)
    else
      let r := s.mgt.flash.start
      let failed := if r.pending && !lost then r.failed + 1 else r.failed
      let s := setStart (fun r => { r with failed := failed, pending := true }) s
      if 3 ≤ failed then refresh (flatbread (0x10 + min 5 (max 1 r.last)) s)
      else
        let s := { s with sec := { s.sec with entropyOk := x.entropyOk } }
        let s := if x.entropyOk then s else raise 4 1 0 s
        if !x.sramTest || !x.secTest || !x.otpOk || (pcwOn s && !pcwCrcOk s.lcs.pcw) then
          refresh (fatalStart 1 { s with mgt := { s.mgt with stage := .s1 } })
        else refresh (romSelect x (!r.pending) s)
/-- HUB_RESET (R719). -/
def execHubReset (x : StartIn) (s : State) : Host.Outcome State Fault Refusal := .next (hubReset x s)

/-! ### The end of a start (R720, R722, R755) -/

/-- A start is under way. -/
def starting (s : State) : Bool :=
  match s.mgt.stage with
  | .complete | .flatbread => false
  | _ => true

/-- A partition of the boot image has reached its first release, or is left not started. -/
def launched (x : Part) : Bool := !x.fresh || (x.ready.isNone && x.armed.isNone)

/-- START_COMPLETE: the last-good record, the start record, the HDT; a slot on trial becomes ACTIVE. -/
def startComplete (s : State) : State :=
  if s.mgt.stage != .s5 || s.mgt.stopStart || !(s.enabledParts.all (fun p => launched (s.part p))) then s
  else
    let f := s.mgt.flash
    let act := if s.mgt.onTrial then (match s.mgt.running with | .a => 0 | .b => 1 | _ => f.active) else f.active
    let g : GoodRec := { serial := s.lcs.otp.serial, stackTab := BitVec.ofNat 6 (bitMask (fittedStacks s)), version := s.mgt.fw.version,
                         defects := (mapUnitsOf s).length, findings := s.mgt.findings }
    let f := if f.present then { f with good := some g, start := {}, active := act } else f
    let s := writeLog 0x40 0 1 6 0 0 { s with mgt := { s.mgt with flash := f, stage := .complete } }
    { s with host := { s.host with hdt := fullHdt s } }
/-- START_COMPLETE (R722). -/
def execStartComplete (s : State) : Host.Outcome State Fault Refusal := .next (startComplete s)

/-- START_WATCHDOG_EXPIRY: fatal during a start, so the hub resets (R720). -/
def execStartWatchdogExpiry (x : StartIn) (s : State) : Host.Outcome State Fault Refusal :=
  .next (if starting s then hubReset x s else s)

end Sys2Proof.Machine
end

