-- ==== Sys2Proof/Machine/Lcs.lean ====
section
/-! DEFINITION. Life-cycle transitions, OTP burns, debug sessions, the TAP and the rights that a session grants (R587, R592,
R623 to R656, R816). -/
namespace Sys2Proof.Machine
open Sys2Proof

/-! ### Wipes (R592, R629, R630, R636) -/

/-- Every seal session ends with reason WIPE, then every partition enters STOPPED (R605, R636, R652). -/
def stopAll (s : State) : State :=
  let s := (s.sec.seals.map (·.1)).foldl (fun s v => endSession v 7 s) s
  (List.range 64).foldl (fun s p => stopPartition p s) s

/-- User secrets are wiped or zeroed: USER_SECRET, key slots, staging SRAM, HBM, cell state with its configuration slots, the
log ring and the trace buffer. -/
def wipeSecrets (s : State) : State :=
  { s with
    lcs := { s.lcs with otp := { s.lcs.otp with secret := BitVec.allOnes 288 } }
    sec := { s.sec with seals := Tab.mapV {} (fun _ (k : Seal) => { k with key := none, wiping := false }) s.sec.seals }
    mem := { s.mem with bytes := [], poison := [], own := Tab.mapV {} (fun _ (g : Granule) => { g with zeroed := true }) s.mem.own,
                        toZero := [] }
    fab := { s.fab with cells := [] }
    mgt := { s.mgt with log := [] }
    trc := { s.trc with entries := [] } }

/-! ### Debug sessions (R646, R649) -/

/-- A debug session ends: its rights end, a new boot nonce is generated, block 5 changes. -/
def endDebug (nonce : BitVec 256) (s : State) : State :=
  if s.dbg.openS then
    fclkToMin (measureDebug { s with dbg := { s.dbg with openS := false, mode := 0, signer := 0, rights := 0, minutes := 0, nonce := nonce },
                                     mgt := { s.mgt with halted := false } })
  else s

/-- The same where the nonce is a free value. [DEDUCED, log entry 65] -/
def closeDebug (s : State) : State :=
  if s.dbg.openS then let r := s.drawFree 256; endDebug r.1 r.2 else s

/-- A session opens: during a start, one with HUB_SCAN stops the start (R642, R749). -/
def openDebug (mode signer minutes : Nat) (rights : Word) (s : State) : State :=
  let s := { s with dbg := { s.dbg with openS := true, mode := mode, signer := signer, rights := rights, minutes := minutes, opened := s.clk.now },
                    mgt := { s.mgt with stopStart := s.mgt.stopStart || (starting s && rights.getLsbD 0) } }
  raise 28 3 0 (measureDebug s)

/-- Whether a right is granted: in MAKER every one, in INTEGRATOR every one but HBM_HARD_REPAIR, else by the open session
(R623, R648). -/
def hasRight (s : State) (n : Nat) : Bool :=
  match lifeCycle s with
  | 0 => true
  | 1 => n != 8
  | 4 => false
  | _ => s.dbg.openS && s.dbg.rights.getLsbD n

/-! ### Transitions (R634 to R641, R652) -/

/-- How a burn leaves a field. [DEDUCED, log entry 64] -/
def burnField (f : Nat) (b : Burn) (o : Otp) : Otp :=
  match b with
  | .full => finishField f o
  | .short x y z => burnBits f x y z o

/-- Burn a life-cycle field. -/
def burnLc (f : Nat) (b : Burn) (s : State) : State := { s with lcs := { s.lcs with otp := burnField f b s.lcs.otp } }

/-- The wipe of OTP outside the life-cycle fields, with the identity key (R636). [DEDUCED, log entry 64] -/
def wipeAllOtp (s : State) : State :=
  { s with lcs := { s.lcs with otp := wipeOtp s.lcs.otp }, sec := { s.sec with idKey := false } }

/-- The paths of R634. -/
def pathOk (lc target : Nat) (path : LcsPath) (open_ : Bool) : Bool :=
  let tap := path == .tap
  match lc, target with
  | 0, 1 => tap
  | 1, 2 => true
  | 1, 3 => true
  | 2, 3 => !tap || open_
  | 0, 4 => true
  | 1, 4 => true
  | 2, 4 => !tap || open_
  | 3, 4 => !tap || open_
  | _, _ => false

/-- The preconditions of R634 and R816. [DEDUCED, log entry 64] -/
def transitionReady (s : State) (lc target : Nat) : Bool :=
  let o := s.lcs.otp
  if lc = 0 ∧ target = 1 then
    s.sec.idKey && s.mgt.flash.present && Config.chainOk s.mgt.flash.chain s.sec.idX s.sec.idY o.serial
  else if target = 2 then rbit o.pcw 0x40 0 && (rfld o.pcw 9 6 2 < 2 || o.dbgProg)
  else true

/-- The end of a transition that stays in service: its status; a burn that fell short sets BURN_FAIL (R652). -/
def transitionEnds (ok : Bool) (s : State) : State :=
  let s := { s with lcs := { s.lcs with transition := false, status := if ok then .ok else .aborted } }
  let s := measureDebug (closeDebug s)
  if ok then s else raise 3 2 0 s

/-- The last work of a scrapping: WIPED is burnt and firmware resets the hub. -/
def scrapEnds (erased : Bool) (s : State) : State :=
  enterReset (if erased then burnLc 4 .full s else s)

/-- A transition is performed: the work of R636 in its order. [DEDUCED, log entry 64] -/
def performTransition (target : Nat) (b : Burn) (s : State) : State :=
  let s := writeLog 0x40 0 5 target (lifeCycle s) 0 { s with lcs := { s.lcs with deferred := false, deferTo := none } }
  let f := target - 1
  let took := fun (s : State) => burnt s.lcs.otp f
  if target = 3 then
    let s := burnLc f b (wipeSecrets (stopAll s))
    if took s then enterReset s else transitionEnds false s
  else if target = 4 then
    let s := burnLc f b (stopAll s)
    if took s then
      let s := closeDebug (wipeSecrets (wipeAllOtp s))
      if s.mgt.flash.present then { s with mgt := { s.mgt with flashOp := .erase } } else scrapEnds true s
    else transitionEnds false s
  else
    let s := burnLc f b s
    transitionEnds (took s) s

/-- INPUT_VOLTAGE is active. -/
def inputLow (s : State) : Bool := s.pwr.reasons.getLsbD 7

/-- LCS_REQUEST: refused under R635, carried in a handover record, deferred for the input voltage, or performed. -/
def lcsRequest (path : LcsPath) (target : Nat) (b : Burn) (s : State) : State :=
  let lc := lifeCycle s
  let ok := !s.lcs.transition && s.mgt.stage == .complete && pathOk lc target path s.dbg.openS && transitionReady s lc target
  let s := { s with lcs := { s.lcs with target := target } }
  if !ok then refuseWrite 3 { s with lcs := { s.lcs with status := .denied } }
  else
    let s := { s with lcs := { s.lcs with transition := true } }
    if s.mgt.unavail then { s with lcs := { s.lcs with deferTo := some (target, b) } }
    else if inputLow s then { s with lcs := { s.lcs with deferTo := some (target, b), deferred := true } }
    else refresh (performTransition target b s)
/-- LCS_REQUEST (R634). -/
def execLcsRequest (path : LcsPath) (target : BitVec 3) (burn : Burn) (s : State) : Host.Outcome State Fault Refusal :=
  .next (lcsRequest path target.toNat burn s)

/-! ### OTP_PROGRAM (R633) -/

/-- Bytes of a field's value. -/
def otpSize (f : Nat) : Option Nat := if f = 1 then some 64 else if f = 2 then some 52 else if f = 3 then some 36 else none

/-- What a field holds, as a number. -/
def otpValue (o : Otp) (f : Nat) : Nat :=
  if f = 1 then o.pcw.toNat % 2 ^ 512 else if f = 2 then o.dbgHash.toNat else o.secret.toNat

/-- A field is programmed. -/
def otpProgrammed (o : Otp) (f : Nat) : Bool :=
  if f = 1 then rbit o.pcw 0x40 0 else if f = 2 then o.dbgProg else secretState o == 1 || secretState o == 2

/-- The CRC of a value. -/
def otpCrcOk (f : Nat) (v : List Byte) : Bool :=
  if f = 1 then crc32 (v.take 12 ++ (v.drop 16).take 48) == leNat ((v.drop 12).take 4)
  else crc32 (v.take (v.length - 4)) == leNat (v.drop (v.length - 4))

/-- Whether the request is refused (R633 step 1). -/
def otpDenied (s : State) (f : Nat) (v : List Byte) : Bool :=
  lifeCycle s != 1 || otpSize f != some v.length || otpProgrammed s.lcs.otp f || !otpCrcOk f v ||
  (otpValue s.lcs.otp f &&& leNat v) != otpValue s.lcs.otp f

/-- Burn a value: bits already set stay; `short n` takes the lowest bits of the value only. PROGRAMMED follows a read-back that
agrees. -/
def otpBurn (f : Nat) (v : Nat) (b : Burn) (o : Otp) : Bool × Otp :=
  let n := otpValue o f ||| (match b with | .full => v | .short k _ _ => v % 2 ^ k)
  let ok := n == v
  (ok, if f = 1 then { o with pcw := o.pcw ||| BitVec.ofNat 520 (n + (if ok then 2 ^ 512 else 0)) }
       else if f = 2 then { o with dbgHash := o.dbgHash ||| BitVec.ofNat 416 n, dbgProg := o.dbgProg || ok }
       else { o with secret := o.secret ||| BitVec.ofNat 288 n })

/-- Burn a value into a field. -/
def burnValue (f : Nat) (v : List Byte) (b : Burn) (s : State) : State :=
  { s with lcs := { s.lcs with otp := (otpBurn f (leNat v) b s.lcs.otp).2 } }

/-- A burn of OTP ends with a status: the mailbox's, where the request came over it. -/
def otpEnds (path : LcsPath) (st : Status) (s : State) : State := if path == .bar0 then mbEnd st [] s else s

/-- The burn of a value that was not refused: the statuses of R633. -/
def otpPerform (path : LcsPath) (f : Nat) (v : List Byte) (b : Burn) (s : State) : State :=
  let ok := (otpBurn f (leNat v) b s.lcs.otp).1
  let s := burnValue f v b s
  if ok then otpEnds path .ok s else otpEnds path .aborted (raise 3 2 0 s)

/-- A request to burn OTP: refused, deferred while the input voltage is low or a peel runs, or performed (R633, R652). A deferred
command keeps the mailbox. -/
def otpProgram (path : LcsPath) (f : Nat) (v : List Byte) (b : Burn) (s : State) : State :=
  if otpDenied s f v then otpEnds path .denied s
  else if s.mgt.unavail || inputLow s then
    { s with lcs := { s.lcs with otpLater := some (path, f, v, b), deferred := s.lcs.deferred || inputLow s } }
  else otpPerform path f v b s

/-- A burn that waited is performed once the mailbox is available and the input is in range (R652). -/
def runOtp (s : State) : State :=
  match s.lcs.otpLater with
  | none => s
  | some (path, f, v, b) =>
    if s.mgt.unavail || inputLow s then { s with lcs := { s.lcs with deferred := s.lcs.deferred || inputLow s } }
    else otpPerform path f v b { s with lcs := { s.lcs with otpLater := none, deferred := false } }

/-- OTP_PROGRAM over BAR0: FIELD is ARG0 bits 1:0, and the value is fetched (R633, R758). -/
def otpProgramBar0 (value : List Byte) (b : Burn) (s : State) : State :=
  match fetchArg (mbArg64 s 1) (mbArg s 3) s with
  | none => mbEnd .aborted [] s
  | some s => otpProgram .bar0 (mbArg s 0 % 4) (value.take (mbArg s 3)) b s
/-- OTP_PROGRAM (R633): over the TAP the life-cycle instrument takes FIELD and the value. -/
def execOtpProgram (path : LcsPath) (tag : BitVec 8) (field : Nat) (value : List Byte) (burn : Burn) (s : State) :
    Host.Outcome State Fault Refusal :=
  .next (match path with
    | .bar0 => mbCommand 0x40 tag (otpProgramBar0 value burn) s
    | .tap => otpProgram .tap field value burn s)

/-- ADVANCE_ROLLBACK's burn: the counter rises to the running image's SVN, and the command ends (R753). -/
def burnRollback (s : State) : State :=
  mbEnd .ok [] (measureFw { s with lcs := { s.lcs with rollLater := false, otp := { s.lcs.otp with rollback := max s.lcs.otp.rollback s.mgt.fw.svn } } })

/-- ADVANCE_ROLLBACK's burn is performed, or deferred while the input voltage is low (R652); deferred, it keeps the mailbox. -/
def tryRollback (s : State) : State :=
  if inputLow s then { s with lcs := { s.lcs with rollLater := true, deferred := true } } else burnRollback s

/-- A transition that waited is performed once the mailbox is available and the input is in range (R652). -/
def runDeferred (s : State) : State :=
  let s := runOtp s
  let s := if s.lcs.rollLater && !s.mgt.unavail && !inputLow s then burnRollback { s with lcs := { s.lcs with deferred := false } } else s
  match s.lcs.deferTo with
  | none => s
  | some (t, b) =>
    if s.mgt.unavail then s
    else if inputLow s then { s with lcs := { s.lcs with deferred := true } }
    else performTransition t b s

/-! ### Reopening debug (R642 to R649) -/

/-- OPEN_ERASE: in FIELDED under the policy ERASE, while no transition runs and no session is open. [DEDUCED, log entry 65] -/
def openErase (s : State) : State :=
  if lifeCycle s != 2 || debugPolicy s != 1 || s.lcs.transition || s.dbg.openS then s
  else raise 28 4 0 (openDebug 1 0 0 0x1FF#32 (wipeSecrets (stopAll s)))
/-- OPEN_ERASE (R642). -/
def execOpenErase (s : State) : Host.Outcome State Fault Refusal := .next (refresh (openErase s))

/-- Fields of a debug certificate (R644). -/
def certFld (c : BitVec 2048) (off lo len : Nat) : Nat := rfld c off lo len

/-- The checks of R645. -/
def certOk (c : BitVec 2048) (s : State) : Bool :=
  let b := leBytes 256 c.toNat
  let signer := certFld c 4 16 8
  let x := (b.drop 0x40).take 48
  let y := (b.drop 0x70).take 48
  let hash := Config.sha384 (x ++ y)
  certFld c 0 0 32 == 0x4742444C && certFld c 4 0 16 == 1 && certFld c 8 0 64 == s.lcs.otp.serial.toNat &&
  certFld c 0x10 0 256 == s.dbg.nonce.toNat && certFld c 4 24 8 == 0 && certFld c 0x34 16 16 == 0 && certFld c 0x38 0 64 == 0 &&
  certFld c 0x30 9 23 == 0 && certFld c 0x34 0 16 != 0 &&
  (if signer = 1 then s.lcs.otp.dbgProg && hash == BitVec.ofNat 384 (beNat ((leBytes 52 s.lcs.otp.dbgHash.toNat).take 48))
   else signer == 2 && hash == Config.makerDbgHash) &&
  Config.ecdsaOk (BitVec.ofNat 384 (beNat x)) (BitVec.ofNat 384 (beNat y)) (b.take 0xA0)
    (BitVec.ofNat 384 (beNat ((b.drop 0xA0).take 48))) (BitVec.ofNat 384 (beNat ((b.drop 0xD0).take 48)))

/-- OPEN_CERT: in FIELDED under CERT or BOTH, and in RETURNED with a maker's certificate. A refused certificate counts; the
eighth locks OPEN_CERT until the next hub reset. Under BOTH an accepted one wipes as ERASE does. [DEDUCED, log entry 65] -/
def openCert (c : BitVec 2048) (s : State) : State :=
  let lc := lifeCycle s
  let pol := debugPolicy s
  let may := (lc == 2 && (pol == 2 || pol == 3)) || lc == 3
  if !may || s.lcs.transition || s.dbg.locked || s.dbg.openS then s
  else if certOk c s && (lc == 2 || certFld c 4 16 8 == 2) then
    let both := lc == 2 && pol == 3
    let s := if both then wipeSecrets (stopAll s) else s
    let s := openDebug (if both then 3 else 2) (if certFld c 4 16 8 = 2 then 1 else 0) (min 1440 (certFld c 0x34 0 16))
      (BitVec.ofNat 32 (certFld c 0x30 0 32)) s
    if both then raise 28 4 0 s else s
  else
    let n := s.dbg.fails + 1
    let s := { s with dbg := { s.dbg with fails := n, locked := decide (8 ≤ n) } }
    let s := raise 28 1 0 s
    if 8 ≤ n then raise 28 2 0 s else s
/-- OPEN_CERT (R645). -/
def execOpenCert (cert : BitVec 2048) (s : State) : Host.Outcome State Fault Refusal := .next (refresh (openCert cert s))

/-- TAP_CLOSE (R649). -/
def execTapClose (s : State) : Host.Outcome State Fault Refusal := .next (refresh (closeDebug s))

/-- DBG_CLOSE (R649). -/
def execDbgClose (s : State) : Host.Outcome State Fault Refusal := .next (refresh (closeDebug s))

/-- DEBUG_DURATION_EXPIRY: DURATION has passed. A session of ERASE mode has none (R649). -/
def execDebugDurationExpiry (nonce : BitVec 256) (s : State) : Host.Outcome State Fault Refusal :=
  .next (refresh (if s.dbg.minutes = 0 then s else endDebug nonce s))

/-! ### The TAP (R650, R651) -/

/-- Shift bits out of the TAP. -/
def tapShift (ir : Nat) (v : BitVec 64) (s : State) : State :=
  { s with dbg := { s.dbg with tapIr := ir, tapOut := v } }.emit (.tap v)

/-- TAP_BYPASS: one bit from TDI to TDO, in every state. -/
def execTapBypass (tdi : Bool) (s : State) : Host.Outcome State Fault Refusal :=
  .next (tapShift 0 (if tdi then 1 else 0) s)

/-- IDCODE: revision, part number 0x4C48, manufacturer 0x5B7, and 1 (R651). -/
def idcode (s : State) : BitVec 32 := BitVec.ofNat 32 (s.lcs.otp.hubRev.toNat % 16 * 2 ^ 28 + 0x4C48B6F)
/-- TAP_IDCODE: in every state. -/
def execTapIdcode (s : State) : Host.Outcome State Fault Refusal := .next (tapShift 1 ((idcode s).setWidth 64) s)

/-- EXTEST and SAMPLE/PRELOAD work in MAKER and INTEGRATOR and under HUB_SCAN, not while a seal session is open (R592, R650).
[DEDUCED, log entry 65] -/
def scanOk (s : State) : Bool := hasRight s 0 && !(s.sec.seals.any (fun e => e.2.state == .open_))

/-- TAP_EXTEST: the boundary cells drive the pins. -/
def execTapExtest (drive : BitVec 64) (s : State) : Host.Outcome State Fault Refusal :=
  .next (if scanOk s then { s with dbg := { s.dbg with tapIr := 2, boundary := drive } } else s)

/-- TAP_SAMPLE_PRELOAD: the pins' levels shift out, and the boundary cells take what shifts in. -/
def execTapSamplePreload (pins : BitVec 64) (preload : BitVec 64) (s : State) : Host.Outcome State Fault Refusal :=
  .next (if scanOk s then tapShift 3 pins { s with dbg := { s.dbg with boundary := preload } } else s)

/-! ### Other rights (R353, R648) -/

/-- MGT_HALT: the debugger halts, steps or resumes the management core. A step executes one instruction of firmware, whose
effect the manual does not give; the core stays halted. [DEDUCED, log entry 65] -/
def execMgtHalt (op : HaltOp) (s : State) : Host.Outcome State Fault Refusal :=
  .next (if hasRight s 1 then fclkToMin { s with mgt := { s.mgt with halted := op != .resume } } else s)

/-- HBM_HARD_REPAIR: a hard PPR fuse for a row, in FIELDED under the right and in RETURNED under a maker's certificate with it. -/
def hbmHardRepair (d : Nat) (s : State) : State :=
  let may := hasRight s 8 && (lifeCycle s == 2 || (lifeCycle s == 3 && s.dbg.signer == 1))
  if !may || d / 0x10000000 ≠ 3 || !(s.stack (bits d 25 3)).fitted then s
  else match rowPa d with
    | none => s
    | some pa => (hardRepair (bits d 25 3) (bits d 20 5) pa s).getD s
/-- HBM_HARD_REPAIR (R353). -/
def execHbmHardRepair (row : BitVec 32) (s : State) : Host.Outcome State Fault Refusal := .next (hbmHardRepair row.toNat s)

end Sys2Proof.Machine
end

