-- ==== Sys2Proof/Machine/Links.lean ====
section
/-! DEFINITION. The commands of the step-link ports: training, loss and retraining, fences, slots and control blocks that
arrive, and the loss of a SerDes reference (R491 to R510, R529, R530, R796). -/
namespace Sys2Proof.Machine
open Sys2Proof

/-! ### Training (R492 to R496) -/

/-- `STL_PORT_MIN.MIN_LANES` of a port. -/
def minLanes (s : State) (n : Nat) : Nat := bits (s.reg (0xE0118 + n * 0x20) 1).toNat 0 3

/-- A training without the lanes that the defect map lists (R734). -/
def unlisted (s : State) (n : Nat) (tr : Training) : Training := { tr with lanes := tr.lanes &&& ~~~ mapLanes s n }

/-- What a training learnt stands at the port, and the package's own identity goes to the peer (R492 to R494). -/
def learn (n : Nat) (tr : Training) (s : State) : State :=
  let q := s.port n
  (s.setPort n { q with lanes := tr.lanes, polarity := tr.polarity, laneMap := tr.laneMap, peerId := tr.peerId,
                        peerPort := tr.peerPort, peerOk := true, latency := tr.latency }).emit (.identity n s.lcs.otp.serial n)

/-- A port enters UP: owed credits and the receiver's lanes go out in CREDIT and LINK blocks, and waiting slots move (R496, R499). -/
def portUp (n : Nat) (s : State) : State :=
  let owed := (s.port n).owed
  let s := setLink n .up (s.setPort n { s.port n with owed := [] })
  let s := owed.foldl (fun s e => sendCredit n e.1 e.2 s) s
  drainTx n (s.emit (.control n (mkBlock [0x13#8, (s.port n).lanes.zeroExtend 8])))

/-- STL_TRAINING_DONE: enough lanes bring the port to UP, fewer fence it with reason LINK; credits are full, and
nothing of an earlier link is kept (R495, R503). -/
def stlTrainingDone (n : Nat) (tr : Training) (s : State) : State :=
  let tr := unlisted s n tr
  if (s.port n).state != .training then s
  else if popcount 4 tr.lanes.toNat < minLanes s n then failPort n false s
  else
    let s := learn n tr s
    portUp n (s.setPort n { s.port n with credits := fullCredits s n, replay := [], resend := [], txq := [], rx := [], owed := [] })
def execStlTrainingDone (p : Fin 8) (tr : Training) (s : State) : Host.Outcome State Fault Refusal := .next (stlTrainingDone p.val tr s)

/-- STL_TRAINING_TIMEOUT: 100 ms of training, or too few lanes. -/
def stlTrainingTimeout (n : Nat) (s : State) : State := if (s.port n).state == .training then failPort n false s else s
def execStlTrainingTimeout (p : Fin 8) (s : State) : Host.Outcome State Fault Refusal := .next (stlTrainingTimeout p.val s)

/-- A port that is UP goes to RETRAIN. -/
def retrain (n : Nat) (s : State) : State := if (s.port n).state == .up then setLink n .retrain s else s

/-- STL_LINK_LOSS: loss of signal on a lane, or too many uncorrectable codewords. -/
def execStlLinkLoss (p : Fin 8) (s : State) : Host.Outcome State Fault Refusal := .next (retrain p.val s)

/-- STL_RETRAIN_DONE: another peer fences with reason PEER, too few lanes with reason LINK; else traffic goes on (R495,
R496). -/
def stlRetrainDone (n : Nat) (tr : Training) (s : State) : State :=
  let tr := unlisted s n tr
  let q := s.port n
  if q.state != .retrain then s
  else if tr.peerId != q.peerId then failPort n true s
  else if popcount 4 tr.lanes.toNat < minLanes s n then failPort n false s
  else
    let fewer := decide (popcount 4 tr.lanes.toNat < popcount 4 q.lanes.toNat)
    let s := learn n tr s
    portUp n (if fewer then raise 14 2 n s else s)
def execStlRetrainDone (p : Fin 8) (tr : Training) (s : State) : Host.Outcome State Fault Refusal := .next (stlRetrainDone p.val tr s)

/-- STL_RETRAIN_TIMEOUT: 5 ms of retraining, or too few lanes. -/
def stlRetrainTimeout (n : Nat) (s : State) : State := if (s.port n).state == .retrain then failPort n false s else s
def execStlRetrainTimeout (p : Fin 8) (s : State) : Host.Outcome State Fault Refusal := .next (stlRetrainTimeout p.val s)

/-! ### STL_PORT_CTRL (R495, R532) -/

/-- STL_PORT_FENCE: only an UP port leaves its state by a request (R495). -/
def stlPortFence (n : Nat) (s : State) : State := refreshMirrors (requestPortFence n s)
def execStlPortFence (p : Fin 8) (s : State) : Host.Outcome State Fault Refusal := .next (stlPortFence p.val s)

/-- STL_PORT_READMIT: refused unless the port is FENCED. -/
def stlPortReadmit (n : Nat) (s : State) : State :=
  if (s.port n).state == .fenced then requestPortReadmit n s else refuseWrite 14 s n
def execStlPortReadmit (p : Fin 8) (s : State) : Host.Outcome State Fault Refusal := .next (stlPortReadmit p.val s)

/-- STL_PORT_RETRAIN: an UP port retrains. -/
def execStlPortRetrain (p : Fin 8) (s : State) : Host.Outcome State Fault Refusal := .next (retrain p.val s)

/-! ### Slots that arrive (R497 to R505) -/

/-- NAK of a slot on its port (R498). -/
def sendNak (n : Nat) (h : BitVec 256) (s : State) : State :=
  s.emit (.control n (mkBlock ([0x10#8, BitVec.ofNat 8 (slotNo h)] ++ leBytes 2 (slotFrame h))))

/-- An uncorrectable codeword of a port: counted, and more than 16 within 1 ms start RETRAIN (R495). -/
def codewordLost (n : Nat) (h : BitVec 256) (s : State) : State :=
  let q := s.port n
  let now := s.clk.now
  let win := q.uncWin.filter (fun x => decide (now.toNat - x.toNat < 1200000)) ++ [now]
  let s := s.setPort n { q with uncorr := satInc q.uncorr, uncWin := win }
  let s := sendNak n h (raise 14 3 n s)
  if 16 < win.length then retrain n s else s

/-- SLOT_RECEIVE: a bad slot is discarded with a NAK; an idle one is ignored; one whose DOMAIN does not own its number is
discarded with no credit; any other waits for its turn at its unit. [DEDUCED, log entry 55] -/
def slotReceive (n : Nat) (sl : Slot) (codewordOk : Bool) (s : State) : State :=
  if (s.port n).state != .up then s
  else
    let e := checkEcc 14 3 true (if codewordOk then .clean else .uncorrectable) s
    let s := e.2
    if e.1 == .uncorrectable then codewordLost n sl.hdr s
    else if !slotOk sl then sendNak n sl.hdr s
    else if !slotValid sl.hdr then s
    else if !(ownedSlots s (slotPart sl.hdr) n).contains (slotNo sl.hdr) then raise 14 5 n s
    else
      let q := s.port n
      let c := slotUnit sl.hdr
      pumpCol c (s.setPort n { q with rx := q.rx ++ [sl], corrected := if e.1 == .corrected then satInc q.corrected else q.corrected })
def execSlotReceive (p : Fin 8) (sl : Slot) (codewordOk : Bool) (s : State) : Host.Outcome State Fault Refusal :=
  .next (slotReceive p.val sl codewordOk s)

/-- What a received control block does: one whose CRC fails is discarded and sets UNCORR; one of another TYPE is not this
block (R498, R499). -/
def onBlock (n ty : Nat) (blk : BitVec 128) (f : State → State) (s : State) : State :=
  if (s.port n).state != .up then s
  else if !blockOk blk then raise 14 3 n s
  else if rfld blk 0 0 8 = ty then f s else s

/-- NAK_BLOCK: the named slot is sent again ahead of new data; one no longer held starts RETRAIN (R501). [DEDUCED, log entry 55] -/
def nakBlock (n : Nat) (blk : BitVec 128) (s : State) : State :=
  onBlock n 0x10 blk (fun s =>
    let q := s.port n
    match q.replay.find? (fun sl => slotNo sl.hdr == rfld blk 1 0 5 && slotFrame sl.hdr == rfld blk 2 0 16) with
    | some sl => drainTx n (s.setPort n { q with resend := q.resend ++ [sl] })
    | none => retrain n (raise 14 6 n s)) s
def execNakBlock (p : Fin 8) (blk : BitVec 128) (s : State) : Host.Outcome State Fault Refusal := .next (nakBlock p.val blk s)

/-- ABORT_BLOCK: the unit that runs the operation of the named partition and step ends it and forwards the block (R529).
[DEDUCED, log entry 56] -/
def abortBlock (n : Nat) (blk : BitVec 128) (s : State) : State :=
  onBlock n 0x11 blk (fun s =>
    let c := rfld blk 2 0 3
    match (s.cunit c).cur with
    | some o => if o.part = rfld blk 1 0 6 ∧ o.step.toNat % 2 ^ 32 = rfld blk 4 0 32 then abortOp c s else s
    | none => s) s
def execAbortBlock (p : Fin 8) (blk : BitVec 128) (s : State) : Host.Outcome State Fault Refusal := .next (abortBlock p.val blk s)

/-- STL_CREDIT: 1 to 64 slot credits of a partition return (R503). -/
def stlCredit (n : Nat) (blk : BitVec 128) (s : State) : State :=
  onBlock n 0x12 blk (fun s =>
    let k := rfld blk 2 0 8
    let q := s.port n
    if k = 0 ∨ 64 < k then s
    else drainTx n (s.setPort n { q with credits := Tab.upd 0 q.credits (rfld blk 1 0 6) (· + k) })) s
def execStlCredit (p : Fin 8) (blk : BitVec 128) (s : State) : Host.Outcome State Fault Refusal := .next (stlCredit p.val blk s)

/-- LINK_BLOCK: the active lanes of the peer's receiver (R498). -/
def linkBlock (n : Nat) (blk : BitVec 128) (s : State) : State :=
  onBlock n 0x13 blk (fun s => s.setPort n { s.port n with peerLanes := BitVec.ofNat 4 (rfld blk 1 0 4) }) s
def execLinkBlock (p : Fin 8) (blk : BitVec 128) (s : State) : Host.Outcome State Fault Refusal := .next (linkBlock p.val blk s)

/-! ### References (R795, R796) -/

/-- SERDES_REFCLK_LOST: the ports of the cluster are fenced with reason LINK; the loss of the west reference also makes the
proof island take its tick from the east and sets TIME_LOST. [DEDUCED, log entry 55] -/
def serdesRefclkLost (east : Bool) (s : State) : State :=
  let s := { s with pwr := if east then { s.pwr with refE := false } else { s.pwr with refW := false } }
  let s := if east then s else raise 8 5 0 s
  ((List.range 4).map (fun k => if east then k + 4 else k)).foldl (fun s n =>
    let st := (s.port n).state
    if st == .off || st == .fenced then s else failPort n false s) s
def execSerdesRefclkLost (east : Bool) (s : State) : Host.Outcome State Fault Refusal := .next (serdesRefclkLost east s)

end Sys2Proof.Machine
end

