-- ==== Sys2Proof/Machine/Power.lean ====
section
/-! DEFINITION. The power and thermal controllers, the supply and the clocks' policy (R657 to R694, R714, R741, R767, R776, R785,
R792). Powers are whole watts, fractions are of 256. -/
namespace Sys2Proof.Machine
open Sys2Proof

/-! ### Limits (R658) -/

/-- Tiles not fenced. -/
def tilesUp (s : State) : Nat := 8 - ((List.range 8).filter (fun t => (s.tile t).state == .fenced)).length

/-- P_IN = min(4,800 W, 96 A × V_in) × (8 − F) / 8; before the first average of V_in the 4,800 W alone. [DEDUCED, log entry 67] -/
def pIn (s : State) : Nat := (if s.pwr.vin = 0 then 4800 else min 4800 (96 * s.pwr.vin / 10)) * tilesUp s / 8

/-- The input voltage in 0.1 V, 50 V before its first average. [DEDUCED, log entry 67] -/
def volts (s : State) : Nat := if s.pwr.vin = 0 then 500 else s.pwr.vin

/-- The limit of INPUT_VOLTAGE, 96 A × V_in × (8 − F) / 8 (R676). -/
def vLimit (s : State) : Nat := 96 * s.pwr.vin * tilesUp s / 80

/-- PKG_AVG and rack limits in force. -/
def avgLimitNow (s : State) : Nat := min s.pwr.avgLimit (pIn s)
/-- [DEDUCED, log entry 67] -/
def rackNow (s : State) : Nat := min s.pwr.budget (pIn s)

/-! ### The value used (R662, R666, R668) -/

/-- A raw power calibrated and scaled as SOURCE requires. [DEDUCED, log entry 67] -/
def scaled (x : Pwr) (raw : Nat) : Nat :=
  let e := x.k * raw
  match x.source with
  | .estimate => e / 1024
  | .larger => e * x.ratio.1 / (1024 * max 1 x.ratio.2)
  | .guard => e * 115 / 102400

/-- A sense line is marked. -/
def senseMarked (s : State) : Bool := (List.range 8).any (fun t => let x := s.tile t; x.sense != .good && x.state != .fenced)

/-- SOURCE: GUARD while a sense line is marked, else LARGER or ESTIMATE as the pairs decide (R666 to R668). -/
def sourceNow (s : State) : PSource := if senseMarked s then .guard else if s.pwr.larger then .larger else .estimate

/-! ### Bubble fractions (R671 to R673) -/

/-- Mean of the newest `n` values. [DEDUCED, log entry 67] -/
def meanOf (n : Nat) (l : List Nat) : Nat :=
  let t := l.take n
  if t.isEmpty then 0 else t.foldl (· + ·) 0 / t.length

/-- Groups in the PRIORITY order. -/
def groupOrder (prio : Nat) : List Nat := [bits prio 0 2, bits prio 2 2, bits prio 4 2]

/-- The fraction applied to a group: the largest that any limit set, at least 128 under THROT_N for compute and memory. -/
def groupFrac (x : Pwr) (g : Nat) : Nat :=
  let own := (List.range 11).foldl (fun m l => max m (Tab.get 0 x.fracs (l * 4 + g))) 0
  if x.throtN && decide (g < 2) then max 128 own else own

/-- Rise of a fraction: ceil(256 × X / P_g), at most to 240. -/
def raiseBy (b x pg : Nat) : Nat := min 240 (b + (if pg = 0 then 240 else (256 * x + pg - 1) / pg))

/-- One limit in one microsecond: over it, the first group of the order below 240 takes more bubbles; more than 1 % below it,
each fraction that it set falls by one. The scope lists the groups that serve the limit. [DEDUCED, log entry 67] -/
def stepLimit (l value limit : Nat) (pg : Nat → Nat) (scope : List Nat) (x : Pwr) : Pwr :=
  if limit < value then
    match (groupOrder x.priority).find? (fun g => scope.contains g && decide (groupFrac x g < 240)) with
    | some g => { x with fracs := Tab.set 0 x.fracs (l * 4 + g) (raiseBy (Tab.get 0 x.fracs (l * 4 + g)) (value - limit) (pg g)) }
    | none => x
  else if value * 100 < limit * 99 then
    { x with fracs := (List.range 3).foldl (fun t g => Tab.set 0 t (l * 4 + g) (Tab.get 0 t (l * 4 + g) - 1)) x.fracs }
  else x

/-- A limit that does not act lets its fractions go. -/
def dropLimit (l : Nat) (x : Pwr) : Pwr :=
  { x with fracs := (List.range 3).foldl (fun t g => Tab.set 0 t (l * 4 + g) 0) x.fracs }

/-- Whether a limit holds a fraction. [DEDUCED, log entry 68] -/
def holdsFrac (x : Pwr) (l : Nat) : Bool := (List.range 3).any (fun g => Tab.get 0 x.fracs (l * 4 + g) != 0)

/-- The thermal fraction: 1/256 up per 100 µs at CAUTION or above, down once the region has left it; at least 192 at CRITICAL. -/
def fracStep (now : Tick) (x : Region) : Region :=
  let n := (now.toNat - x.fracAt.toNat) / 120000
  let at_ := x.c1 || x.c2 || x.c3
  let f := if at_ then min 240 (x.frac + n) else x.frac - n
  { x with frac := if x.c2 || x.c3 then max 192 f else f, fracAt := x.fracAt + BitVec.ofNat 64 (n * 120000) }

/-- The thermal fraction of a region at this tick. -/
def thermalFrac (s : State) (r : Nat) : Nat := (fracStep s.clk.now (s.region r)).frac

/-- Regions that hold units of a group: the quadrants and the sites compute, the spine segments hold the banks, the engines and
the collective units, and the stacks their pseudo-channels (R17, R671). -/
def regionHas (g r : Nat) : Bool :=
  if g = 0 then decide (r < 4) || (decide (9 ≤ r) && decide (r < 27))
  else (decide (4 ≤ r) && decide (r < 8)) || (g == 1 && decide (27 ≤ r))

/-- Largest fraction of a power group: what the limits, the shares, PLIMIT and the thermal levels demand (R673). -/
def bubble (s : State) (g : Nat) : Nat :=
  let m := (s.pwr.shareFr.filter (fun e => e.1 % 4 == g)).foldl (fun m e => max m e.2) (groupFrac s.pwr g)
  let m := ((List.range 33).filter (regionHas g)).foldl (fun m r => max m (thermalFrac s r)) m
  if g = 0 then s.pwr.sitePl.foldl (fun m e => max m e.2) m else m

/-- Groups in which a partition has units. -/
def partGroups (c : PartCfg) : List Nat :=
  (if c.cols != 0 || c.sites != 0 then [0] else []) ++ (if c.banks != 0 || c.chans != 0 || c.xfes != 0 then [1] else []) ++
  (if c.cus != 0 then [2] else [])

/-! ### Shares (R678 to R681) -/

/-- The share of a partition: the written one, else an equal part of what the written shares leave. [DEDUCED, log entry 67] -/
def shareOf (s : State) (p : Nat) : Nat :=
  let w := Tab.get 0 s.pwr.shares p
  if w ≠ 0 then w
  else
    let ps := s.enabledParts
    let open_ := ps.filter (fun q => Tab.get 0 s.pwr.shares q == 0)
    let sum := (s.pwr.shares.map (·.2)).foldl (· + ·) 0
    if open_.isEmpty then 0 else (s.pwr.avail - sum) / open_.length

/-- Written shares whose sum exceeds A are scaled down in proportion (R680). -/
def scaleShares (s : State) : State :=
  let sum := (s.pwr.shares.map (·.2)).foldl (· + ·) 0
  if sum ≤ s.pwr.avail || s.pwr.budget = 0 then s
  else { s with pwr := { s.pwr with shares := Tab.mapV 0 (fun _ w => w * s.pwr.avail / sum) s.pwr.shares } }

/-- A: the budget less the base power, averaged over 10 ms (R678). -/
def setAvail (s : State) : State :=
  let base := meanOf s.pwr.baseHist.length s.pwr.baseHist
  scaleShares { s with pwr := { s.pwr with avail := if s.pwr.budget = 0 then 0 else rackNow s - base } }

/-- One partition's share in one microsecond. -/
def stepShare (p value : Nat) (pg : Nat → Nat) (s : State) : State :=
  let limit := shareOf s p
  let key := fun (g : Nat) => p * 4 + g
  let t := s.pwr.shareFr
  let t :=
    if limit < value then
      match (groupOrder s.pwr.priority).find? (fun g => (partGroups (s.part p).cfg).contains g && decide (max (groupFrac s.pwr g) (Tab.get 0 t (key g)) < 240)) with
      | some g => Tab.set 0 t (key g) (raiseBy (Tab.get 0 t (key g)) (value - limit) (pg g))
      | none => t
    else if value * 100 < limit * 99 then (List.range 3).foldl (fun t g => Tab.set 0 t (key g) (Tab.get 0 t (key g) - 1)) t
    else t
  { s with pwr := { s.pwr with shareFr := t } }

/-! ### Emergencies (R767) -/

/-- A region is at CRITICAL or TRIP. -/
def anyCritical (s : State) : Bool := s.thm.regions.any (fun e => e.2.c2 || e.2.c3)

/-- An emergency exists. -/
def emergency (s : State) : Bool :=
  anyCritical s || (match s.pwr.hotTick with | some t => decide (s.clk.now.toNat - t.toNat < 1200000) | none => false)

/-- An emergency is noted for a deferred peel (R768). -/
def noteEmergency (s : State) : State := if emergency s then { s with mgt := { s.mgt with emergAt := some s.clk.now } } else s

/-! ### POWER_CONTROL_TICK -/

/-- Tiles report (R657, R668). -/
def tileReport (x : PowerIn) (s : State) : State :=
  x.tiles.foldl (fun s r =>
    let t := r.1 % 8
    let o := s.tile t
    let se : Sense := if r.2.1 = 1 then .opened else if r.2.1 = 2 then .shorted else .good
    let n : Tile := { o with sense := se, inW := r.2.2.1, outW := r.2.2.2.1, temp := r.2.2.2.2 }
    let s := s.setTile t n
    if se != .good && o.sense == .good && o.state != .fenced then raise 5 1 t s else s) s

/-- The power of a unit against its record's PLIMIT, both rails of a double site together (R15, R442, R677). -/
def sitePlimit (e : Nat) (s : State) : State :=
  let t := s.site e
  let w := (halves s e).foldl (fun a k => a + (s.site k).watts) 0
  let lim := t.fld 0x10 16 11
  let b := Tab.get 0 s.pwr.sitePl e
  if t.cls = 0 ∨ t.cfg.isEmpty then s
  else if lim < w then
    let s := { s with pwr := { s.pwr with sitePl := Tab.set 0 s.pwr.sitePl e (raiseBy b (w - lim) w) } }
    if b = 0 then raise 5 5 e s else s
  else if w * 100 < lim * 99 then { s with pwr := { s.pwr with sitePl := Tab.set 0 s.pwr.sitePl e (b - 1) } }
  else s

/-- Sites report; PLIMIT throttles the site alone (R442, R677). -/
def siteReport (x : PowerIn) (s : State) : State :=
  let s := x.siteW.foldl (fun s r => s.modSite (r.1 % 18) (fun t => { t with watts := r.2 })) s
  ((x.siteW.map (fun r => evenOf s (r.1 % 18))).eraseDups).foldl (fun s e => sitePlimit e s) s

/-- Energy totals (R691). -/
def energyReport (x : PowerIn) (s : State) : State :=
  { s with pwr := { s.pwr with energy := x.energy.foldl (fun t e => Tab.upd 0 t (e.1 % 64) (· + BitVec.ofNat 64 e.2)) s.pwr.energy } }

/-- At a 100 ms boundary the readings for sealed tenants are taken anew (R616). -/
def telemetry (s : State) : State :=
  let q := s.clk.now.toNat / 120000000
  let x := s.pwr
  let sum := x.partW.foldl (fun t e => Tab.upd 0 t e.1 (· + e.2)) x.telSum
  if q = x.telAt then { s with pwr := { x with telSum := sum, telN := x.telN + 1 } }
  else
    let avg : Tab Nat := Tab.mapV 0 (fun _ v => v / max 1 x.telN) x.telSum
    let en : Tab (BitVec 64) := Tab.mapV 0 (fun _ v => v / 100 * 100) x.energy
    { s with pwr := { x with tel := avg, telSum := x.partW, telN := 1, telAt := q, energyQ := en } }

/-- The limits of one microsecond (R672, R676). -/
def stepLimits (x : PowerIn) (used : Nat) (s : State) : State :=
  let w := s.pwr
  let pg := fun (g : Nat) => scaled w (x.groupW.getD g 0)
  let all := [0, 1, 2]
  let al := avgLimitNow s
  let avg := meanOf (w.avgWindow * 1000000) w.hist
  let act := if w.avgActive then !decide (avg * 100 ≤ al * 99) else decide (al < avg)
  let w := { w with avgActive := act }
  let w := if act || decide (used * 100 < al * 99) then stepLimit 0 used al pg all w else w
  let rack := meanOf 1000 w.hist
  let w := if w.budget = 0 then dropLimit 1 w else stepLimit 1 rack (rackNow s) pg all w
  let peak := w.peak * tilesUp s           -- amperes × 8
  let w := stepLimit 2 (x.amps8 * volts s / 80) (peak * volts s / 80) pg all w
  let w := stepLimit 10 w.hubW 650 pg all w
  let vl := vLimit s
  let low := decide (s.pwr.vin ≠ 0) && decide (vl < w.avgLimit) && (w.budget == 0 || decide (vl < w.budget))
  let w := if low then stepLimit 7 used vl pg all w else dropLimit 7 w
  let bubbling := (List.range 3).any (fun g => bubble { s with pwr := w } g != 0)
  let level := fun (lo hi : Nat) => s.thm.regions.any (fun e =>
    decide (lo ≤ e.1) && decide (e.1 < hi) && (e.2.c1 || e.2.c2 || e.2.c3 || thermalFrac s e.1 != 0))
  let shares := !w.noShare && w.budget != 0
  let past := shares && s.enabledParts.any (fun p => decide (shareOf s p < Tab.get 0 w.partW p) || (List.range 3).any (fun g => Tab.get 0 w.shareFr (p * 4 + g) != 0))
  let r : List Bool := [
    (act && decide (al < used)) || holdsFrac w 0,
    (w.budget != 0 && (decide (rackNow s < rack) || holdsFrac w 1)) || past,
    decide (peak < x.amps8) || holdsFrac w 2 || decide (650 < w.hubW) || holdsFrac w 10,
    w.drooped || w.stretch != 0, level 0 9, level 27 33, level 9 27,
    low && (decide (vl < used) || holdsFrac w 7),
    w.source != .estimate && bubbling, w.throtN]
  let rs : BitVec 10 := BitVec.ofNat 10 (bitMask ((List.range 10).filter (fun i => r.getD i false)))
  let durs := (bitsOf 10 rs.toNat).foldl (fun t i => Tab.upd 0 t i (· + 1)) w.durs
  let hot := rs.getLsbD 2 || rs.getLsbD 7
  { s with pwr := { w with reasons := rs, seen := w.seen ||| rs, durs := durs, drooped := w.stretch != 0, hotTick := if hot then some s.clk.now else w.hotTick } }

/-- POWER_CONTROL_TICK: reports, the value used, every limit and share, telemetry; a deferred burn goes on once the input is in
range (R652, R657 to R681). -/
def powerControlTick (x : PowerIn) (s : State) : State :=
  let src := sourceNow s
  let s := { s with pwr := { s.pwr with source := src, amps8 := x.amps8 } }
  let s := energyReport x (siteReport x (tileReport x s))
  let w := s.pwr
  let used := scaled w x.raw
  let w := { w with raw := x.raw, used := used, hubW := scaled w x.hubRaw,
                    hist := (used :: w.hist).take 60000000, baseHist := (scaled w x.baseRaw :: w.baseHist).take 10000,
                    partW := x.partRaw.foldl (fun t e => Tab.set 0 t (e.1 % 64) (scaled w e.2)) [] }
  let s := { s with pwr := w }
  let pg := fun (g : Nat) => scaled w (x.groupW.getD g 0)
  let s := if w.budget ≠ 0 ∧ w.noShare = false then s.enabledParts.foldl (fun s p => stepShare p (Tab.get 0 w.partW p) pg s) s
           else { s with pwr := { s.pwr with shareFr := [] } }
  let s := stepLimits x used s
  noteEmergency (runDeferred (telemetry s))
/-- POWER_CONTROL_TICK (R672). -/
def execPowerControlTick (x : PowerIn) (s : State) : Host.Outcome State Fault Refusal := .next (refresh (powerControlTick x s))

/-! ### POWER_SAMPLE_1MS and CALIBRATION_UPDATE (R663 to R667) -/

/-- |P_est − P_meas| above `num`/`den` of the larger. -/
def differ (a b num den : Nat) : Bool := decide (max a b * num < (max a b - min a b) * den)

/-- A pair of 1 ms: P_est from the mean of E + S, P_meas and V_in. -/
def powerSample (est meas vin : Nat) (s : State) : State :=
  let w := s.pwr
  let pe := w.k * est / 1024
  let dis := differ pe meas 25 100
  let disN := if dis then w.disN + 1 else 0
  let agreeN := if differ pe meas 10 100 then 0 else w.agreeN + 1
  let go := !w.larger && decide (10 < disN)
  let back := w.larger && decide (100 ≤ agreeN)
  let s := { s with pwr := { w with
    meas := meas, vin := vin, disN := if back then 0 else disN, agreeN := if go || back then 0 else agreeN,
    ratio := if pe = 0 then (1, 1) else (max pe meas, pe),
    kHist := (w.kHist ++ [(meas, est, dis)]).drop (w.kHist.length + 1 - 10),
    larger := go || (w.larger && !back) } }
  let s := { s with pwr := { s.pwr with source := if s.pwr.source == .guard then .guard else sourceNow s } }
  if go then raise 5 3 0 s else s
/-- POWER_SAMPLE_1MS (R666). -/
def execPowerSample1ms (est meas vin : Nat) (s : State) : Host.Outcome State Fault Refusal := .next (powerSample est meas vin s)

/-- CALIBRATION_UPDATE: K moves an eighth of the way to K_obs unless frozen or a pair of the ten disagreed; A is taken anew
(R664, R678, R680). -/
def calibrationUpdate (s : State) : State :=
  let w := s.pwr
  let m := w.kHist.foldl (fun a h => a + h.1) 0
  let r := w.kHist.foldl (fun a h => a + h.2.1) 0
  let skip := w.source != .estimate || w.kHist.any (fun h => h.2.2) || decide (w.kHist.length < 10) || r == 0
  let k := if skip then w.k else clampTo 1024 1433 ((7 * w.k * r + 1024 * m) / (8 * r))
  setAvail { s with pwr := { w with k := k, kHist := [] } }
/-- CALIBRATION_UPDATE (R664). -/
def execCalibrationUpdate (s : State) : Host.Outcome State Fault Refusal := .next (calibrationUpdate s)

/-! ### The supply (R659, R714, R741, R792) -/

/-- TILE_FAIL: the tile is fenced, and the limits fall with it (R30, R658). -/
def tileFail (t : Nat) (s : State) : State :=
  if (s.tile t).state == .fenced then s else raise 5 2 t (s.setTile t { s.tile t with state := .fenced, inW := 0, outW := 0 })
/-- TILE_FAIL (R30). -/
def execTileFail (t : Fin 8) (s : State) : Host.Outcome State Fault Refusal := .next (tileFail t.val s)

/-- The tiles stop feeding the bus: the hub is unpowered, PWRGD goes low, and the tiles keep a record of the loss.
[DEDUCED, log entry 68; DESIGN CHOICE, log entry 74] -/
def unpower (s : State) : State :=
  let b := hubBase s
  { b with pwr := { b.pwr with powered := false, pwrgd := false, inputLost := true, domains := 0,
                               tiles := (List.range 8).foldl (fun t i => Tab.set {} t i { state := .off }) [] } }

/-- The tiles feed the bus again: PWRGD is released, and ERR_N is held low until ROM has read its mode (R786).
[DEDUCED, log entry 68; DESIGN CHOICE, log entry 74] -/
def repower (s : State) : State :=
  let b := hubBase s
  ({ b with pwr := { b.pwr with powered := true, pwrgd := true, latched := false, overV := false, tiles := [] } }).emit (.errN false)

/-- INPUT_CURRENT_TRIP: every tile latches off and records the trip (R659, R660). -/
def execInputCurrentTrip (s : State) : Host.Outcome State Fault Refusal :=
  .next (if s.pwr.powered then let u := unpower s; { u with pwr := { u.pwr with latched := true, tripRec := true } } else s)

/-- INPUT_UNDERVOLTAGE (R792). -/
def execInputUndervoltage (s : State) : Host.Outcome State Fault Refusal := .next (if s.pwr.powered then unpower s else s)

/-- INPUT_OVERVOLTAGE (R714). -/
def execInputOvervoltage (s : State) : Host.Outcome State Fault Refusal :=
  .next (if s.pwr.powered then let u := unpower s; { u with pwr := { u.pwr with overV := true } } else s)

/-- POWER_ON: the input rises through 40 V, which also ends a latch (R659, R792). -/
def execPowerOn (s : State) : Host.Outcome State Fault Refusal := .next (if s.pwr.powered then s else repower s)

/-- TILE_RESTART: after an overvoltage the tiles restart, and the hub starts as from power-on (R714). -/
def execTileRestart (x : StartIn) (s : State) : Host.Outcome State Fault Refusal :=
  .next (if s.pwr.overV && !s.pwr.powered && !s.pwr.latched then hubReset x (repower s) else s)

/-! ### Droop, FCLK, THROT_N, the rack budget (R670, R674 to R676, R776, R785) -/

/-- SUPPLY_DROOP: an island's clock is stretched. -/
def execSupplyDroop (island : Fin 16) (s : State) : Host.Outcome State Fault Refusal :=
  .next { s with pwr := { s.pwr with stretch := putBit s.pwr.stretch island.val true, drooped := true } }

/-- DROOP_STRETCH_END. -/
def execDroopStretchEnd (island : Fin 16) (s : State) : Host.Outcome State Fault Refusal :=
  .next { s with pwr := { s.pwr with stretch := putBit s.pwr.stretch island.val false } }

/-- FCLK_ADJUST: one code down above 64/256, one up after 1 s below 8/256 with no region at CAUTION, within FCLK_MIN to
FCLK_MAX. A change that is already due is lowered, and never raised. [DEDUCED, log entry 68] -/
def fclkAdjust (mean : Nat) (below : Bool) (s : State) : State :=
  let c := s.fab.fclk
  let due := s.fab.fclkNext
  if !mayTarget s then s
  else if 64 < mean then holdFclk { s with fab := { s.fab with fclkNext := some (min (due.getD c) (c - 1)) } }
  else if below ∧ due = none ∧ anyCaution s = false then holdFclk { s with fab := { s.fab with fclkNext := some (c + 1) } }
  else holdFclk s
/-- FCLK_ADJUST (R675). -/
def execFclkAdjust (mean100ms : Nat) (below8For1s : Bool) (s : State) : Host.Outcome State Fault Refusal := .next (fclkAdjust mean100ms below8For1s s)

/-- THROT_N_ASSERT: a low level passes the filter; EXTERNAL applies (R676, R785). -/
def execThrotNAssert (s : State) : Host.Outcome State Fault Refusal :=
  .next (if s.pwr.throtN then s else raise 6 7 0 { s with pwr := { s.pwr with throtN := true } })

/-- THROT_N_RELEASE. -/
def execThrotNRelease (s : State) : Host.Outcome State Fault Refusal := .next { s with pwr := { s.pwr with throtN := false } }

/-- The rack budget: `PWR_RACK.BUDGET`, 0 withdraws it; A and the written shares follow (R680, R681, R776). -/
def setRack (w : Nat) (s : State) : State := setAvail { s with pwr := { s.pwr with budget := min w 8191 } }

/-- RACK_BUDGET_SET: a PLDM write; during a peel's handover it waits for the resumed image (R763). -/
def execRackBudgetSet (watts : Nat) (s : State) : Host.Outcome State Fault Refusal :=
  .next (if s.mgt.unavail then { s with mgt := { s.mgt with pldmQ := s.mgt.pldmQ ++ [{ kind := 6, arg := watts }] } } else setRack watts s)

/-- POWER_OVERRIDE: the policy fields that the debugger may set, AVG_LIMIT up to P_IN (R690). -/
def powerOverride (x : PowerSet) (s : State) : State :=
  let w := s.pwr
  let prio := fun (p : Nat) => let l := groupOrder p; l.all (fun g => decide (g < 3)) && l.eraseDups.length == 3
  let w := match x.avgLimit with | some v => { w with avgLimit := clampTo 500 (max 500 (pIn s)) v } | none => w
  let w := match x.avgWindow with | some v => { w with avgWindow := clampTo 1 60 v } | none => w
  let w := match x.priority with | some v => if prio v then { w with priority := v % 64 } else w | none => w
  let w := match x.fclk with | some (a, b) => let lo := min 48 a; { w with fclkMin := lo, fclkMax := clampTo lo 48 b } | none => w
  let w := match x.noShare with | some v => { w with noShare := v } | none => w
  let h := match x.caution with
    | some (a, b, c) => { s.thm with cHub := clampTo 60 95 a, cSite := clampTo 60 95 b, cHbm := clampTo 60 85 c }
    | none => s.thm
  holdFclk { s with pwr := w, thm := h }
/-- POWER_OVERRIDE (R690). -/
def execPowerOverride (x : PowerSet) (s : State) : Host.Outcome State Fault Refusal := .next (if hasRight s 7 then powerOverride x s else s)

/-! ### Thermal levels (R352, R682 to R686) -/

/-- Region of a sensor: quadrants 32 each, spine segments 12 each, 8 of the management region, 4 per site. [DEDUCED, log entry 69] -/
def regionOf (n : Nat) : Nat := if n < 128 then n / 32 else if n < 176 then 4 + (n - 128) / 12 else if n < 184 then 8 else 9 + (n - 184) / 4

/-- Sensors of a region of the hub or of a site. [DEDUCED, log entry 69] -/
def sensorsOf (r : Nat) : List Nat := (List.range 256).filter (fun n => regionOf n == r)

/-- Thresholds of a region in 0.25 °C units: CAUTION, CRITICAL, TRIP. -/
def thresholds (s : State) (r : Nat) : Nat × Nat × Nat :=
  if r < 9 then (s.thm.cHub * 4, 420, 460) else if r < 27 then (s.thm.cSite * 4, 420, 460) else (s.thm.cHbm * 4, 380, 420)

/-- One level of a region: entered at its threshold; left once every sensor has been 3 °C below it for 10 ms. -/
def levelStep (now : Tick) (thr : Nat) (hot : Int) (on : Bool) (since : Option Tick) : Bool × Option Tick :=
  if (thr : Int) ≤ hot then (true, none)
  else if !on then (false, none)
  else if hot ≤ (thr : Int) - 12 then
    let t := since.getD now
    if 12000000 ≤ now.toNat - t.toNat then (false, none) else (true, some t)
  else (true, none)

/-- A TRIP is logged and bars restarts until the region has left CAUTION (R686, R693). [DEDUCED, log entry 69] -/
def noteTrip (r sensor : Nat) (s : State) : State :=
  { s with thm := { s.thm with tripReg := r, tripSens := sensor, trips := (s.thm.trips.filter (· != r)) ++ [r] } }

/-- A region takes the level of its hottest sensor; what entering a level does comes with it (R683, R684). `trip` is what the
region's TRIP does. -/
def regionSample (r sensor : Nat) (hot : Int) (trip : State → State) (s : State) : State :=
  let x := fracStep s.clk.now (s.region r)
  let t := thresholds s r
  let l1 := levelStep s.clk.now t.1 hot x.c1 x.b1
  let l2 := levelStep s.clk.now t.2.1 hot x.c2 x.b2
  let l3 := levelStep s.clk.now t.2.2 hot x.c3 x.b3
  let n : Region := { x with c1 := l1.1, b1 := l1.2, c2 := l2.1, b2 := l2.2, c3 := l3.1, b3 := l3.2,
                             frac := if l2.1 || l3.1 then max 192 x.frac else x.frac,
                             fracAt := if l1.1 && !x.c1 then s.clk.now else x.fracAt }
  let s := s.setRegion r n
  let s := if l1.1 && !x.c1 then raise 6 1 r s else s
  let s := if l2.1 && !x.c2 then
      let s := raise 6 2 r s
      if r < 9 then fclkToMin s else s
    else s
  let s := if l3.1 && !x.c3 then trip (noteTrip r sensor s) else s
  let s := noteEmergency s
  if s.thm.trips.contains r && !n.c1 && !n.c2 && !n.c3 then
    let s := { s with thm := { s.thm with trips := s.thm.trips.filter (· != r) } }
    s.enabledParts.foldl (fun s p => tryReady p s) s
  else s

/-- A reading outside −40 °C to 150 °C counts as TRIP less 1 °C and sets SENSOR (R683). -/
def reading (trip : Nat) (q : Int) : Int × Bool := if q < -160 || 600 < q then ((trip : Int) - 4, true) else (q, false)

/-- The hub's TRIP: the package stops (R685). -/
def tripHub (s : State) : State := tripPackage (raise 6 5 0 s)

/-- A site's TRIP: SITE_CORE off at once, and the site fenced with reason FAULT (R684). -/
def tripSite (n : Nat) (s : State) : State :=
  let e := evenOf s n
  let t := s.site e
  let used := t.state == .admitted || t.state == .retrain
  if t.state == .fenced then raise 6 3 e s
  else
    let s := offSite e (dropSite e (fenceSite e .fault false s))
    let s := match used && ownerActive s t.owner, t.owner with
      | true, some p => markFlag p 3 s
      | _, _ => s
    raise 6 3 e s

/-- THERMAL_SAMPLE: a sensor is read; a hub sensor at 125 °C makes the tiles latch off (R685). -/
def thermalSample (n : Nat) (q : Int) (s : State) : State :=
  let r := regionOf n
  let rd := reading (thresholds s r).2.2 q
  let fresh := rd.2 && !(Tab.get {} s.thm.sensors n).failed
  let s := { s with thm := { s.thm with sensors := Tab.set {} s.thm.sensors n { q := rd.1, failed := rd.2 } } }
  let s := if fresh then raise 6 6 n s else s
  let hot := (sensorsOf r).foldl (fun m k => max m (Tab.get {} s.thm.sensors k).q) rd.1
  if r < 9 && decide (500 ≤ rd.1) then
    let u := unpower s
    { u with pwr := { u.pwr with latched := true, inputLost := s.pwr.inputLost } }
  else regionSample r n hot (if r < 9 then tripHub else tripSite (r - 9)) s
/-- THERMAL_SAMPLE (R683). -/
def execThermalSample (sensor : Fin 256) (quarters : Int) (s : State) : Host.Outcome State Fault Refusal :=
  .next (refresh (thermalSample sensor.val quarters s))

/-- REFI_SCALE at a temperature in 0.25 °C units: 256 below 85 °C, floor(128 × 2^(−(T − 85) / 10)) below 95 °C, 64 from
there on (R352). With q quarters above 85 °C the floor is the largest k with k^40 × 2^q at most 128^40. -/
def refiScale (q : Int) : Nat :=
  if q < 340 then 256 else if 380 ≤ q then 64
  else
    let d := (q - 340).toNat
    ((List.range 129).reverse.find? (fun k => decide (k ^ 40 * 2 ^ d ≤ 128 ^ 40))).getD 64

/-- A stack's TRIP: its rail goes off at once and the position is fenced; owners hold at their next proof (R684, R715). -/
def tripStack (m : Nat) (s : State) : State :=
  let owners := (List.range 32).filterMap (fun ch => (s.chan (m * 32 + ch)).owner)
  raise 6 4 m (markFence owners.eraseDups (fenceStack m s))

/-- HBM_TEMP_SAMPLE: the hottest sensor of a stack sets REFI_SCALE and the stack's level (R352, R682). -/
def hbmTempSample (m : Nat) (q : Int) (s : State) : State :=
  let x := s.stack m
  if !x.fitted then s
  else
    let r := 27 + m
    let rd := reading (thresholds s r).2.2 q
    let k := refiScale rd.1
    let s := s.setStack m { x with temp := rd.1, refi := k }
    let s := if rd.2 then raise 6 6 r s else s
    let s := if k ≠ x.refi then traceAt (106 + m) none s else s
    regionSample r 0 rd.1 (tripStack m) s
/-- HBM_TEMP_SAMPLE (R352). -/
def execHbmTempSample (m : Fin 6) (quarters : Int) (s : State) : Host.Outcome State Fault Refusal :=
  .next (refresh (hbmTempSample m.val quarters s))

end Sys2Proof.Machine
end

