-- ==== Sys2Proof/Machine/Mgt.lean ====
section
/-! DEFINITION. Firmware's own commands: the mailbox rows that concern firmware, flash writes, recovery, the peel, the watchdog
and the PLDM transports (R745 to R748, R750 to R777). -/
namespace Sys2Proof.Machine
open Sys2Proof

/-! ### Firmware images (R751, R753, R755, R760) -/

/-- The header fields of an image's bytes. -/
def parseFw (bytes : List Byte) : FwImage :=
  { version := BitVec.ofNat 32 (bfld bytes 4 0 32), svn := bfld bytes 8 0 8, recMin := bfld bytes 8 8 8, recMax := bfld bytes 8 16 8,
    bytes := bytes }

/-- An image verifies: its magic, its SVN of at most 128, its LENGTH, and the maker's signature after it; `room` is the most it
may take with its signature. -/
def fwOk (bytes : List Byte) (room : Nat) : Bool :=
  let n := bfld bytes 0xC 0 32
  bfld bytes 0 0 32 == 0x4B49414A && decide (bfld bytes 8 0 8 ≤ 128) && decide (64 ≤ n) && decide (n + 96 ≤ bytes.length) &&
  decide (n + 96 ≤ room) &&
  Config.ecdsaOk Config.makerFwX Config.makerFwY (bytes.take n)
    (BitVec.ofNat 384 (beNat ((bytes.drop n).take 48))) (BitVec.ofNat 384 (beNat ((bytes.drop (n + 48)).take 48)))

/-- The room of an update and of a recovery load, in bytes (R746, R754). -/
def updateRoom : Nat := 1536 * 1024
def recoveryRoom : Nat := 3 * 1024 * 1024

/-- An update waits: a staged or deferred peel, or a slot's write in progress (R760). -/
def updateWaits (s : State) : Bool :=
  s.mgt.staged.isSome || (match s.mgt.flashOp with | .slot .. => true | _ => false)

/-- What the state refuses of R760, before any fetch. [DEDUCED, log entry 75] -/
def updateDenied (recovery : Bool) (s : State) : Bool :=
  s.mgt.stage != .complete || updateWaits s || (recovery && decide (1 < lifeCycle s))

/-- What the image refuses of R760. [DEDUCED, log entry 75] -/
def imageDenied (bytes : List Byte) (s : State) : Bool := !fwOk bytes updateRoom || decide (bfld bytes 8 0 8 < s.lcs.otp.rollback)

/-- The current handover record version lies outside the image's range (R760): the running image writes its REC_MAX.
[DEDUCED, log entry 75] -/
def recordOutside (i : FwImage) (s : State) : Bool := decide (s.mgt.fw.recMax < i.recMin) || decide (i.recMax < s.mgt.fw.recMax)

/-- The firmware slot that is not ACTIVE (R755). -/
def inactiveSlot (s : State) : Nat := 1 - s.mgt.flash.active % 2

/-- Write a slot. -/
def putSlot (t : Nat) (i : FwImage) (f : Flash) : Flash :=
  if t = 0 then { f with slotA := some i } else if t = 1 then { f with slotB := some i } else { f with recov := some i }

/-- A flash slot is erased before it is written: until its write has ended and its read-back agreed it holds no image.
[DESIGN CHOICE, log entry 102] -/
def emptySlot (t : Nat) (f : Flash) : Flash :=
  if t = 0 then { f with slotA := none } else if t = 1 then { f with slotB := none } else { f with recov := none }

/-- Begin to write a slot. -/
def beginSlot (t : Nat) (i : FwImage) (trial mail : Bool) (s : State) : State :=
  { s with mgt := { s.mgt with flash := emptySlot t s.mgt.flash, flashOp := .slot t i trial mail } }

/-- Stage an image for a peel; in an emergency the peel is deferred (R762, R768). -/
def stagePeel (i : FwImage) (s : State) : State :=
  if emergency s then
    { s with mgt := { s.mgt with staged := some i, peel := .deferred, deferAt := some s.clk.now, emergAt := some s.clk.now } }
  else { s with mgt := { s.mgt with staged := some i, peel := .staged } }

/-- FW_UPDATE once the state allows it: fetch, verify, and stage or write. ACTIVATE 0x3 is no activation. [DEDUCED, log entry 75] -/
def fwUpdate (bytes : List Byte) (s : State) : State :=
  let recovery := mbArg s 3 % 2 == 1
  let act := mbArg s 3 / 16 % 4
  let n := mbArg s 2
  if act = 3 then mbEnd .aborted [] s
  else if updateDenied recovery s then mbEnd .denied [] s
  else match fetchArg (mbArg64 s 0) n s with
    | none => mbEnd .aborted [] s
    | some s =>
      let b := (bytes ++ List.replicate (min n (updateRoom + 1) - bytes.length) 0#8).take n
      let i := parseFw b
      if imageDenied b s then mbEnd .denied [] s
      else if act = 2 && !recovery then
        if recordOutside i s then mbEnd .version [] s else mbEnd .ok [i.version.toNat] (stagePeel i s)
      else if !s.mgt.flash.present then mbEnd .aborted [] (raise 0 4 0 s)
      else beginSlot (if recovery then 2 else inactiveSlot s) i (act == 1 && !recovery) true s
/-- FW_UPDATE (R760). -/
def execFwUpdate (tag : BitVec 8) (bytes : List Byte) (s : State) : Host.Outcome State Fault Refusal :=
  .next (mbCommand 0x10 tag (fwUpdate bytes) s)

/-- FLASH_WRITE_DONE: the write in progress ended, and its read-back agreed or not. A verified slot enters the directory as TRIAL
where it was to activate at the next start; a failure leaves the directory as it was (R755, R779, R811). [DEDUCED, log entry 75] -/
def flashWriteDone (ok : Bool) (s : State) : State :=
  match s.mgt.flashOp with
  | .none => s
  | .slot t i trial mail =>
    let s := { s with mgt := { s.mgt with flashOp := .none } }
    if ok then
      let f := putSlot t i s.mgt.flash
      let s := { s with mgt := { s.mgt with flash := if trial then { f with trial := some t } else f } }
      if mail then mbEnd .ok [i.version.toNat] s else s
    else
      let s := raise 0 4 0 s
      if mail then mbEnd .aborted [] s else s
  | .boot b =>
    let s := { s with mgt := { s.mgt with flashOp := .none } }
    if ok then endLoad .ok s.img.load.entries { s with mgt := { s.mgt with flash := { s.mgt.flash with boot := b } } }
    else endLoad .aborted s.img.load.entries (raise 0 4 0 s)
  | .erase =>
    let s := { s with mgt := { s.mgt with flashOp := .none } }
    if ok then scrapEnds true { s with mgt := { s.mgt with flash := { s.mgt.flash with slotA := none, slotB := none, recov := none } } }
    else scrapEnds false (raise 0 4 0 s)
/-- FLASH_WRITE_DONE (R755). -/
def execFlashWriteDone (ok : Bool) (s : State) : Host.Outcome State Fault Refusal := .next (refresh (flashWriteDone ok s))

/-! ### Further mailbox rows (R745 to R748, R753, R758) -/

/-- Codes of STAGE, RUNNING and PEEL in `MGT_STATUS` (R778). -/
def Stage.num : Stage → Nat
  | .rom => 0 | .s1 => 1 | .s2 => 2 | .s3 => 3 | .s4 => 4 | .s5 => 5 | .complete => 6 | .flatbread => 7
def FwSlot.num : FwSlot → Nat
  | .a => 0 | .b => 1 | .recovery => 2 | .load => 3
def Peel.num : Peel → Nat
  | .none => 0 | .staged => 1 | .deferred => 2 | .handover => 3 | .jumped => 3

/-- `MGT_STATUS`. -/
def mgtStatus (s : State) : Nat := s.mgt.stage.num + s.mgt.running.num * 16 + s.mgt.peel.num * 64

/-- VERSION of a slot, 0 where it is empty. -/
def slotVersion (f : Flash) (t : Nat) : Nat :=
  if f.present then (match slotImage f t with | some i => i.version.toNat | none => 0) else 0

/-- STATUS: `MGT_STATUS` and the versions of the three slots. -/
def execMbStatus (tag : BitVec 8) (s : State) : Host.Outcome State Fault Refusal :=
  .next (mbCommand 1 tag (fun s => mbEnd .ok ([mgtStatus s] ++ (List.range 3).map (slotVersion s.mgt.flash)) s) s)

/-- PEEL_CANCEL: DENIED when no peel is staged or deferred. -/
def peelCancel (s : State) : State :=
  if s.mgt.peel == .staged || s.mgt.peel == .deferred then mbEnd .ok [] (dropPeel s) else mbEnd .denied [] s
def execPeelCancel (tag : BitVec 8) (s : State) : Host.Outcome State Fault Refusal := .next (mbCommand 0x11 tag peelCancel s)

/-- ADVANCE_ROLLBACK: the counter rises to the running image's SVN, which ARG0 names (R753). -/
def advanceRollback (s : State) : State :=
  if mbArg s 0 ≠ s.mgt.fw.svn then mbEnd .denied [] s
  else tryRollback s
def execAdvanceRollback (tag : BitVec 8) (s : State) : Host.Outcome State Fault Refusal := .next (mbCommand 0x12 tag advanceRollback s)

/-- RETRY_START: the start record is cleared and the hub resets into a cold start (R745). -/
def retryStart (s : State) : State :=
  let s := setStart (fun _ => {}) (mbEnd .ok [] s)
  enterReset { s with mgt := { s.mgt with coldReq := true } }
def execRetryStart (tag : BitVec 8) (s : State) : Host.Outcome State Fault Refusal := .next (mbCommand 0x30 tag retryStart s)

/-- RECOVERY_LOAD begin: served by ROM in flatbread mode (R743, R746). [DEDUCED, log entry 76] -/
def recoveryBegin (s : State) : State :=
  if s.mgt.stage != .flatbread then mbEnd .denied [] s else mbEnd .ok [] { s with mgt := { s.mgt with rcvOn := true, rcv := [] } }
def execRecoveryLoadBegin (tag : BitVec 8) (s : State) : Host.Outcome State Fault Refusal := .next (mbCommand 0x31 tag recoveryBegin s)

/-- RECOVERY_LOAD run: an image that verifies and whose SVN is not below the counter runs from management SRAM; it clears the start
record and begins a cold start (R747, R748). [DEDUCED, log entry 76] -/
def recoveryRun (s : State) : State :=
  let b := s.mgt.rcv.take (mbArg s 1)
  if s.mgt.stage != .flatbread || !s.mgt.rcvOn || !fwOk b recoveryRoom || decide (bfld b 8 0 8 < s.lcs.otp.rollback) then mbEnd .denied [] s
  else
    let s := setStart (fun _ => {}) (mbEnd .ok [] s)
    { s with mgt := { s.mgt with rcvOn := false, coldReq := true, rcvRun := true, running := .load, fw := parseFw b, stage := .s1 } }
def execRecoveryLoadRun (tag : BitVec 8) (s : State) : Host.Outcome State Fault Refusal := .next (mbCommand 0x31 tag recoveryRun s)

/-- RCV_DATA_WRITE: one word at the next offset of management SRAM, after a begin (R758); what lies above 3 MiB is discarded.
[DEDUCED, log entry 76] -/
def rcvDataWrite (val : Word) (s : State) : State :=
  if s.mgt.rcvOn ∧ s.mgt.rcv.length + 4 ≤ recoveryRoom then
    { s with mgt := { s.mgt with rcv := s.mgt.rcv ++ leBytes 4 val.toNat } }
  else s
def execRcvDataWrite (val : Word) (s : State) : Host.Outcome State Fault Refusal := .next (rcvDataWrite val s)

/-- REQUEST_COLD: the next start is cold (R726). -/
def execRequestCold (tag : BitVec 8) (s : State) : Host.Outcome State Fault Refusal :=
  .next (mbCommand 0x32 tag (fun s => mbEnd .ok [] { s with mgt := { s.mgt with coldReq := true } }) s)

/-- Opcodes of R758. -/
def mbOpcodes : List Nat := [0x01, 0x02, 0x03, 0x04, 0x10, 0x11, 0x12, 0x20, 0x21, 0x30, 0x31, 0x32, 0x40]

/-- MB_RESERVED_OPCODE: every other opcode ends ABORTED. An opcode of R758 has a command of its own and is not this row's.
[DEDUCED, log entry 76] -/
def execMbReservedOpcode (tag opcode : BitVec 8) (s : State) : Host.Outcome State Fault Refusal :=
  .next (if mbOpcodes.contains opcode.toNat then s else mbCommand opcode.toNat tag (mbEnd .aborted []) s)

/-! ### PLDM (R775 to R777) -/

/-- A transferred image is kept for its activation; a recovery image is written to its slot (R775, R777).
[DESIGN CHOICE, log entry 77] -/
def pldmTransfer (recovery : Bool) (bytes : List Byte) (s : State) : Bool × State :=
  if updateDenied recovery s || imageDenied bytes s then (false, s)
  else if recovery then
    if s.mgt.flash.present then (true, beginSlot 2 (parseFw bytes) false false s) else (false, raise 0 4 0 s)
  else (true, { s with mgt := { s.mgt with pldmImg := some (parseFw bytes), pldmTo := inactiveSlot s } })

/-- ActivateFirmware: by a peel, or at the next start (R777). [DESIGN CHOICE, log entry 77] -/
def pldmActivate (self : Bool) (s : State) : Bool × State :=
  match s.mgt.pldmImg with
  | none => (false, s)
  | some i =>
    let done := fun (s : State) => { s with mgt := { s.mgt with pldmImg := none } }
    if updateDenied false s || decide (i.svn < s.lcs.otp.rollback) then (false, s)
    else if self then (if recordOutside i s then (false, s) else (true, stagePeel i (done s)))
    else if !s.mgt.flash.present then (false, raise 0 4 0 s)
    else (true, done (beginSlot s.mgt.pldmTo i true false s))

/-- The hottest reading among regions `lo` to `hi`, in 0.25 °C, as the sensors last gave it. -/
def hottest (s : State) (lo hi : Nat) : Int :=
  ((List.range 256).filter (fun n => decide (lo ≤ regionOf n ∧ regionOf n ≤ hi))).foldl (fun m n => max m (Tab.get {} s.thm.sensors n).q) (-160)

/-- The worst level among regions `lo` to `hi`: 0 normal to 3 TRIP. -/
def worstLevel (s : State) (lo hi : Nat) : Nat :=
  (List.range (hi + 1 - lo)).foldl (fun m k =>
    let r := s.region (lo + k)
    max m (if r.c3 then 3 else if r.c2 then 2 else if r.c1 then 1 else 0)) 0

/-- The hottest HBM stack's reading, in 0.25 °C. -/
def hottestHbm (s : State) : Int := (fittedStacks s).foldl (fun m k => max m (s.stack k).temp) (-160)

/-- The reading of a sensor of R775, by the model's numbering: P_meas, V_in, hub power, hottest hub, site and HBM readings, the
worst levels of the three, `PWR_THR_REASONS`, and the flatbread reason. [DESIGN CHOICE, log entry 77] -/
def sensorValue (s : State) (n : Nat) : Option Int :=
  match n with
  | 0 => some s.pwr.meas
  | 1 => some s.pwr.vin
  | 2 => some s.pwr.hubW
  | 3 => some (hottest s 0 8)
  | 4 => some (hottest s 9 26)
  | 5 => some (hottestHbm s)
  | 6 => some (worstLevel s 0 8 + worstLevel s 9 26 * 4 + worstLevel s 27 32 * 16 : Nat)
  | 7 => some s.pwr.reasons.toNat
  | 8 => some s.mgt.flatReason
  | _ => none

/-- Emit an answer whose bytes the DMTF documents give: the request's kind and what it reports. [DESIGN CHOICE, log entry 77] -/
def answerPldm (kind : Nat) (what : List Byte) (s : State) : State := s.emit (.pldm (Config.answer 2 kind what))

/-- Serve a PLDM request. [DESIGN CHOICE, log entry 77] -/
def pldmServe (r : PldmReq) (s : State) : State :=
  match r.kind with
  | 4 => answerPldm 4 (leBytes 2 r.arg ++ (match sensorValue s r.arg with | some v => 1#8 :: leBytes 4 (v % 2 ^ 32).toNat | none => [0#8])) s
  | 5 => let t := pldmTransfer r.flag r.bytes s; answerPldm 5 [if t.1 then 1#8 else 0#8] t.2
  | 6 => setRack r.arg s
  | 7 => let t := pldmActivate r.flag s; answerPldm 7 [if t.1 then 1#8 else 0#8] t.2
  | k => answerPldm k (leBytes 1 r.arg) s

/-- The requests that waited are served in their order. -/
def pldmFlush (s : State) : State := s.mgt.pldmQ.foldl (fun s r => pldmServe r s) { s with mgt := { s.mgt with pldmQ := [] } }

/-- Requests that wait are served once firmware is in service again (R763). -/
def servePldm (s : State) : State := if s.mgt.unavail || s.mgt.pldmQ.isEmpty then s else pldmFlush s

/-- A request arrives: firmware serves it, or ROM in flatbread mode; from Freeze to Resume it waits for the resumed image (R763).
While ROM selects an image, and in SCRAPPED, nothing answers. -/
def pldmRequest (r : PldmReq) (s : State) : State :=
  if s.mgt.stage == .rom || lifeCycle s == 4 then s
  else if s.mgt.unavail then { s with mgt := { s.mgt with pldmQ := s.mgt.pldmQ ++ [r] } }
  else pldmServe r (servePldm s)

def execPldmGetTid (s : State) : Host.Outcome State Fault Refusal := .next (pldmRequest { kind := 0 } s)
def execPldmGetPldmVersion (type : BitVec 8) (s : State) : Host.Outcome State Fault Refusal :=
  .next (pldmRequest { kind := 1, arg := type.toNat } s)
def execPldmGetPldmTypes (s : State) : Host.Outcome State Fault Refusal := .next (pldmRequest { kind := 2 } s)
def execPldmGetPldmCommands (type : BitVec 8) (s : State) : Host.Outcome State Fault Refusal :=
  .next (pldmRequest { kind := 3, arg := type.toNat } s)
def execPldmSensorRead (sensor : Nat) (s : State) : Host.Outcome State Fault Refusal := .next (pldmRequest { kind := 4, arg := sensor } s)
def execPldmFwTransfer (recovery : Bool) (bytes : List Byte) (s : State) : Host.Outcome State Fault Refusal :=
  .next (refresh (pldmRequest { kind := 5, flag := recovery, bytes := bytes } s))
def execPldmActivateFirmware (selfContained : Bool) (s : State) : Host.Outcome State Fault Refusal :=
  .next (refresh (pldmRequest { kind := 7, flag := selfContained } s))

/-! ### The peel (R762 to R771) -/

/-- Whether a site is between OFF and READY. -/
def admitting (t : Site) : Bool := decide (1 ≤ t.state.num ∧ t.state.num ≤ 5)

/-- Admissions pause and resume (R440, R771). -/
def pauseSites (on : Bool) (s : State) : State :=
  { s with sites := Tab.mapV {} (fun _ (t : Site) => { t with paused := on && admitting t }) s.sites }

/-- What every resumed image does: admissions go on, requests that waited are served, a carried transition is performed. -/
def resumeWork (s : State) : State := runDeferred (pldmFlush (pauseSites false { s with mgt := { s.mgt with unavail := false } }))

/-- The peel returns to Wait, deferred by an emergency: the old image unfreezes (R768, R770). -/
def backToWait (s : State) : State :=
  writeLog 0x40 0 2 1 0 0 (fclkToMin (resumeWork
    { s with mgt := { s.mgt with peel := .deferred, deferAt := some s.clk.now, emergAt := some s.clk.now } }))

/-- The sections of a handover record, in the order of R766. -/
def recordSections : List Nat := [0x01, 0x02, 0x03, 0x04, 0x85, 0x86, 0x07, 0x08]

/-- A handover record as the running image writes it into the data region (R751, R766). The manual gives what each section holds
and not its layout, so a section's bytes are free. [DEDUCED, log entry 78] -/
def writeRecord (s : State) : State :=
  let body := recordSections.flatMap (fun ty =>
    let b := Config.recordSection ty s.free
    leBytes 4 ty ++ leBytes 4 b.length ++ b)
  let build := fun (crc : Nat) => leBytes 4 0x4C454550 ++ leBytes 4 s.mgt.fw.recMax ++ leBytes 4 (32 + body.length) ++ leBytes 4 crc ++
    leBytes 4 s.mgt.fw.version.toNat ++ leBytes 4 recordSections.length ++ leBytes 8 s.clk.now.toNat ++ body
  { s with mgt := { s.mgt with handRec := build (crc32 (build 0)) }, free := s.free + 1 }

/-- PEEL_DEFER_CHECK: a deferred peel proceeds once no emergency has existed for 100 ms (R768). -/
def peelDeferCheck (s : State) : State :=
  if s.mgt.peel != .deferred || s.mgt.halted then s
  else if emergency s then { s with mgt := { s.mgt with emergAt := some s.clk.now } }
  else
    let since := match s.mgt.emergAt with | some t => s.clk.now.toNat - t.toNat | none => 120000000
    if 120000000 ≤ since then { s with mgt := { s.mgt with peel := .staged, deferAt := none, emergAt := none } } else s
def execPeelDeferCheck (s : State) : Host.Outcome State Fault Refusal := .next (peelDeferCheck s)

/-- PEEL_DEFER_LONG: a deferral has lasted longer than 10 minutes; the peel stays deferred (R769). -/
def execPeelDeferLong (s : State) : Host.Outcome State Fault Refusal :=
  .next (if s.mgt.peel == .deferred then writeLog 0x40 1 2 3 0 0 (raise 0 3 0 s) else s)

/-- The conditions of Wait other than an emergency: no command BUSY, the image's validation ended, the start complete. -/
def waitOver (s : State) : Bool :=
  s.mgt.peel == .staged && !s.mgt.busy && !s.mgt.unavail && !s.mgt.halted && s.mgt.stage == .complete && s.img.load.stage == .idle

/-- PEEL_FREEZE: UNAVAILABLE is set, targets freeze, admissions pause and the handover record is written; in an emergency the peel
is deferred (R762, R768, R770, R771). [DEDUCED, log entry 78] -/
def peelFreeze (s : State) : State :=
  if !waitOver s then s
  else if emergency s then backToWait s
  else
    writeRecord (pauseSites true { s with mgt := { s.mgt with peel := .handover, unavail := true, unavailAt := s.clk.now } })
def execPeelFreeze (s : State) : Host.Outcome State Fault Refusal := .next (peelFreeze s)

/-- PEEL_JUMP: block 2 takes the new image's measurement and control passes to it. An emergency before the jump abandons the
Freeze (R613, R762, R770). [DEDUCED, log entry 78] -/
def peelJump (s : State) : State :=
  if s.mgt.peel != .handover || s.mgt.halted then s
  else if emergency s then backToWait s
  else match s.mgt.staged with
    | none => s
    | some i =>
      measureFw { s with mgt := { s.mgt with oldFw := s.mgt.fw, oldRun := s.mgt.running, fw := i, jumpAt := s.clk.now, peel := .jumped } }
def execPeelJump (s : State) : Host.Outcome State Fault Refusal := .next (refresh (peelJump s))

/-- PEEL_RESUME: the new image takes over. Later than 50 ms from the setting of UNAVAILABLE it sets PEEL_SLOW; it applies the FCLK
change of a region at CRITICAL (R762, R764, R770). After a watchdog restart the resident image resumes (R772).
[DEDUCED, log entry 78] -/
def peelResume (s : State) : State :=
  if s.mgt.halted || !s.mgt.unavail then s
  else if s.mgt.peel == .jumped then
    let slow := decide (60000000 < s.clk.now.toNat - s.mgt.unavailAt.toNat)
    let s := { s with mgt := { s.mgt with peel := .none, staged := none, commitDue := true, emergAt := none } }
    let s := if slow then raise 0 7 0 s else s
    writeLog 0x40 0 2 4 s.mgt.fw.version.toNat 0 (fclkToMin (resumeWork (rewritePolicy s)))
  else if s.mgt.peel == .none then fclkToMin (resumeWork s)
  else s
def execPeelResume (s : State) : Host.Outcome State Fault Refusal := .next (refresh (peelResume s))

/-- PEEL_RESUME_TIMEOUT: the old image resumes from its own record, block 2 is restored, and the staged image is discarded; the
bound counts only running time (R765, R771). -/
def peelResumeTimeout (rejected : Bool) (s : State) : State :=
  if s.mgt.peel != .jumped || s.mgt.halted then s
  else
    let s := measureFw { s with mgt := { s.mgt with fw := s.mgt.oldFw, running := s.mgt.oldRun, peel := .none, staged := none, emergAt := none } }
    fclkToMin (resumeWork (rewritePolicy (raise 0 (if rejected then 6 else 2) 0 s)))
def execPeelResumeTimeout (rejected : Bool) (s : State) : Host.Outcome State Fault Refusal := .next (refresh (peelResumeTimeout rejected s))

/-- PEEL_COMMIT: the resumed image is written to the slot that is not ACTIVE and read back, and the directory makes it ACTIVE; a
failed write leaves the directory unchanged (R755, R762). -/
def peelCommit (ok : Bool) (s : State) : State :=
  if !s.mgt.commitDue then s
  else
    let s := { s with mgt := { s.mgt with commitDue := false } }
    if ok && s.mgt.flash.present then
      let t := inactiveSlot s
      { s with mgt := { s.mgt with flash := { putSlot t s.mgt.fw s.mgt.flash with active := t }, running := FwSlot.of t } }
    else raise 0 4 0 { s with mgt := { s.mgt with flash := emptySlot (inactiveSlot s) s.mgt.flash } }
def execPeelCommit (flashOk : Bool) (s : State) : Host.Outcome State Fault Refusal := .next (refresh (peelCommit flashOk s))

/-! ### The watchdog (R772) -/

/-- A command that the management core ran when it was reset ends ABORTED; a deferred burn is carried in the record (R766). -/
def cutCommand (s : State) : State :=
  let s := match s.mgt.flashOp with
    | .erase | .none => s
    | _ => { s with mgt := { s.mgt with flashOp := .none } }
  if s.img.load.stage != .idle then endLoad .aborted s.img.load.entries s
  else if s.mgt.busy && s.lcs.otpLater.isNone && !s.lcs.rollLater then mbEnd .aborted [] s else s

/-- MGT_WATCHDOG_EXPIRY in service: the management core alone is reset, and the mailbox is UNAVAILABLE until the image resumes from
the last handover record. A staged image is lost with the core's work on it. [DEDUCED, log entry 78] -/
def mgtWatchdog (s : State) : State :=
  if s.mgt.stage != .complete || s.mgt.halted || s.mgt.peel == .jumped then s
  else
    let s := cutCommand (dropPeel (raise 0 1 0 s))
    { s with mgt := { s.mgt with wdtExp := satInc s.mgt.wdtExp, unavail := true, unavailAt := s.clk.now } }
def execMgtWatchdogExpiry (s : State) : Host.Outcome State Fault Refusal := .next (refresh (mgtWatchdog s))

/-- HANDOVER_RECORD_WRITE: every 1 s (R772). -/
def execHandoverRecordWrite (s : State) : Host.Outcome State Fault Refusal :=
  .next (if s.mgt.stage == .complete && !s.mgt.halted && !s.mgt.unavail then writeRecord s else s)

end Sys2Proof.Machine
end

