-- ==== Sys2Proof/Machine/RegView.lean ====
section
/-! DEFINITION. What a read of each register of the BAR0 blocks and of the VI windows returns (R31 to R57 and the register
tables of every chapter). A reserved field and an unmapped offset read 0 (R35); a field whose value the manual leaves open
reads the next free value. -/
namespace Sys2Proof.Machine
open Sys2Proof

/-- How many numbers below `n` satisfy a test. -/
def countOf (n : Nat) (f : Nat → Bool) : Nat := ((List.range n).filter f).length

/-- An owner as a field, and whether there is one. -/
def ownerField (o : Option Nat) : Nat := o.getD 0
def owned (o : Option Nat) : Nat := flag o.isSome

/-! ### PRF (R151, R152) -/

def pstateNum : PState → Nat
  | .stopped => 0 | .running => 1 | .waiting => 2 | .held => 3 | .broken => 4

/-- `PRF_PART_STATE`. -/
def partStateWord (x : Part) : Nat := pk [(0, 3, pstateNum x.state), (8, 4, x.hold.code), (16, 3, x.variant), (24, 8, x.lastStatus.code)]

/-- Registers of a partition, by offset in its window. -/
def readPart (x : Part) (o : Nat) : Nat :=
  match o with
  | 0x00 => partStateWord x
  | 0x08 => x.cfg.lateLimit
  | 0x0C => x.cfg.proofTimeout
  | 0x10 => pk [(0, 16, x.margin), (16, 16, x.latency)]
  | 0x14 => pk [(0, 8, x.cfg.proofChild.toNat), (8, 3, x.cfg.proofParent.val), (11, 1, flag x.cfg.parentValid), (16, 11, x.cfg.domainSize)]
  | 0x18 => x.stretchN.toNat
  | 0x1C => x.stretchMax.toNat
  | 0x34 => x.auditHead.toNat
  | 0x38 => pk [(0, 8, x.benchPct)]
  | 0x3C => pk [(0, 8, x.silent.toNat)]
  | _ => 0

def readPrf (s : State) (o : Nat) : Nat :=
  let c := s.clk
  if 0x1000 ≤ o ∧ o < 0x2000 then readPart (s.part ((o - 0x1000) / 0x40)) (o % 0x40)
  else match o with
    | 0x0 => pk [(0, 3, c.parent.val), (3, 1, flag c.parentOk), (4, 1, flag c.locked), (5, 4, min 15 c.hops)]
    | 0x4 => pk [(0, 16, c.offset.toNat), (16, 16, c.delay.toNat)]
    | 0x10 => pk [(0, 8, s.prfUp.toNat), (8, 8, s.prfMir.toNat)]
    | 0x14 => s.siteAck.toNat
    | _ => 0

/-! ### FAB (R201, R202) -/

/-- RUN of a column. -/
def colRun (s : State) (k : Nat) : Nat :=
  let c := s.col k
  if c.fenced then 4
  else match c.owner with
    | none => 0
    | some p =>
      let x := s.part p
      if !x.active then 5
      else if (List.range 16).all (fun r => (s.cell (k * 16 + r)).done && (s.cell (k * 16 + r)).writes == 0) then (if x.benchFrom.isSome then 3 else 2)
      else 1

def readFab (s : State) (q o : Nat) : Nat :=
  let x := s.quad q
  if 0x100 ≤ o ∧ o < 0x300 then
    let k := q * 32 + (o - 0x100) / 0x10
    let c := s.col k
    match o % 0x10 with
    | 0x0 => pk [(0, 6, ownerField c.owner), (6, 1, owned c.owner), (7, 3, c.slot), (12, 3, colRun s k), (16, 1, flag c.spare),
                 (17, 4, if c.spare then c.bypass else 0), (21, 1, flag (c.arm != ColArm.none))]
    | 0x8 => c.busy.toNat
    | 0xC => c.waitc.toNat
    | _ => 0
  else match o with
    | 0x0 => pk [(0, 1, flag x.powered), (8, 6, s.fab.fclk), (16, 6, if x.powered then countOf 32 (fun c => !(s.col (q * 32 + c)).spare && !(s.col (q * 32 + c)).spareBad) else 0),
                 (24, 6, countOf 32 (fun c => (s.col (q * 32 + c)).fenced))]
    | 0x4 => x.ce.toNat
    | 0x8 => pk [(0, 10, x.fCell), (10, 3, x.fSlot), (16, 16, x.fCount.toNat)]
    | _ => 0

/-! ### XFE and XLT (R318, R321) -/

def XRun.num : XRun → Nat
  | .idle => 0 | .wait => 1 | .run => 2 | .faultWait => 3 | .ending => 4 | .fenced => 5

/-- `XFE_CURRENT`. -/
def currentWord (x : Xfe) : Nat :=
  match x.cur with
  | none => 0
  | some c =>
    match c.desc.src with
    | .pool _ pool index => pk [(0, 16, index), (16, 8, pool)]
    | .command _ _ pool index => pk [(0, 16, index), (16, 8, pool), (24, 1, 1)]
    | .fw _ => 0

def readXfe (x : Xfe) (o : Nat) : Nat :=
  let cur := fun (i : Nat) => pk [(0, 16, x.cursor.getD i 0), (16, 16, x.cursor.getD (i + 1) 0)]
  match o with
  | 0x40 => pk [(0, 3, x.run.num), (8, 1, owned x.owner), (9, 6, ownerField x.owner)]
  | 0x44 => x.progress.toNat
  | 0x48 => currentWord x
  | 0x4C => pk [(0, 8, x.lastStat.code), (8, 8, x.lastFlags.toNat), (16, 16, x.lastDesc.toNat)]
  | 0x50 => cur 0
  | 0x54 => cur 2
  | 0x58 => cur 4
  | 0x5C => x.failedN.toNat
  | 0x64 => pk [(0, 16, x.taken.toNat), (16, 16, x.unresolved.toNat)]
  | _ => 0

def readXlt (s : State) (o : Nat) : Nat :=
  let x := s.xlt
  match o with
  | 0x0 => pk [(0, 1, flag x.atsEn), (1, 1, flag x.priEn), (2, 1, flag x.priStopped), (16, 16, x.priAlloc.toNat)]
  | 0x4 => x.invCount.toNat
  | 0x8 => x.invMax.toNat
  | 0xC => x.l2Hits.toNat
  | 0x10 => x.l2Misses.toNat
  | 0x14 => x.prqCount.toNat
  | 0x100 => hwtIndex s
  | 0x124 => pk [(1, 1, flag x.pend.isSome)]
  | _ => if 0x104 ≤ o ∧ o ≤ 0x120 then (s.reg (0xB0000 + o) 0).toNat else 0

/-! ### SRM and MEM (R360, R362) -/

/-- Fenced granules among `n` from `g`. -/
def fencedFrom (s : State) (g n : Nat) : Nat := (s.mem.own.filter (fun e => decide (g ≤ e.1) && decide (e.1 < g + n) && e.2.fenced)).length

/-- `SRM_COH_WIN` reads the last value written, in force or not yet (R34, R332). -/
def winShown (s : State) (w : Nat) : Word :=
  match s.home.cohPend.find? (fun e => e.1 == w) with
  | some e => e.2
  | none => Tab.get 0 s.home.cohWins w

def readSrm (s : State) (o : Nat) : Nat :=
  if 0x100 ≤ o ∧ o < 0x500 then
    let b := (o - 0x100) / 0x10
    let x := s.bank b
    match o % 0x10 with
    | 0x0 => pk [(0, 6, ownerField x.owner), (6, 1, owned x.owner), (7, 1, flag x.fenced), (8, 1, flag x.zeroing), (13, 5, x.spares),
                 (18, 7, fencedFrom s (b * 80) 80)]
    | 0x4 => x.ce.toNat
    | _ => 0
  else if 0x800 ≤ o ∧ o < 0x900 then (if o % 0x10 = 0 then (winShown s ((o - 0x800) / 0x10)).toNat else 0)
  else if o = 0 then (s.pwr.domains.toNat / 16) % 16 else 0

/-- `MEM_STATUS.TEMP`: a temperature below 0 °C has no code in the field, and reads the next free value. -/
def readMem (s : State) (m o : Nat) : Nat :=
  let x := s.stack m
  if 0x100 ≤ o ∧ o < 0x300 then
    let ch := (o - 0x100) / 0x10
    let c := s.chan (m * 32 + ch)
    match o % 0x10 with
    | 0x0 => pk [(0, 6, ownerField c.owner), (6, 1, owned c.owner), (7, 1, flag c.fenced), (8, 1, flag c.zeroing), (9, 1, flag c.trained),
                 (16, 11, fencedFrom s (5120 + m * 32768 + ch * 1024) 1024)]
    | 0x4 => pk [(0, 16, c.ce.toNat), (16, 16, c.ue.toNat)]
    | 0x8 => pk [(0, 16, c.soft.toNat), (16, 16, c.hard.toNat)]
    | _ => 0
  else match o with
    | 0x0 => pk [(0, 1, flag x.fitted), (1, 1, flag x.powered), (2, 1, flag x.fenced),
                 (8, 10, if x.temp < 0 then (Config.freeBits 10 s.free).toNat else x.temp.toNat), (24, 8, x.refi % 256)]
    | 0x4 => bits (s.reg (0x200004 + m * 0x10000) 0x18).toNat 0 8
    | _ => 0

/-! ### NOC and QOS (R395, R397) -/

def readNoc (s : State) (o : Nat) : Nat :=
  let x := s.noc
  match o with
  | 0x0 => pk [(0, 1, flag x.routesOk), (1, 3, x.segsUp.toNat)]
  | 0x4 => x.flitCe.toNat
  | 0x8 => x.drops.toNat
  | 0xC => x.timeouts.toNat
  | 0x10 => x.lastDrop.toNat
  | _ => 0

/-- The partition that `QOS_PORT_PART` selects at a port. -/
def shownPart (s : State) (n : Nat) : Nat := Tab.get 0 s.noc.shown n

def readQosPort (s : State) (n o : Nat) : Nat :=
  let p := shownPart s n
  let q := s.qport n p
  let v := qosValues q
  match o with
  | 0x00 => p
  | 0x04 => pk [(0, 9, v.1), (16, 7, v.2.1), (24, 3, v.2.2.1)]
  | 0x08 => pk [(0, 24, v.2.2.2.1)]
  | 0x0C => pk [(0, 6, v.2.2.2.2.1), (8, 5, v.2.2.2.2.2)]
  | 0x10 => pk [(0, 9, q.rsvRate)]
  | 0x14 => pk [(0, 24, q.rsvBound)]
  | 0x18 => pk [(0, 7, min 64 (heldAt s n p).length), (8, 7, tokensNow q s.clk.now / 128)]
  | 0x1C => q.missRc.toNat
  | _ => 0

def readQos (s : State) (o : Nat) : Nat :=
  if 0x1000 ≤ o ∧ o < 0x1000 + 166 * 0x20 then readQosPort s ((o - 0x1000) / 0x20) (o % 0x20)
  else if 0x100 ≤ o ∧ o < 0x300 then
    let w := s.qpart ((o - 0x100) / 8)
    let t := w.threshNx.getD (w.thresh, w.window)
    if o % 8 = 0 then pk [(0, 10, w.tagsMin), (16, 10, w.tagsMax)] else pk [(0, 16, t.1), (16, 10, t.2)]
  else match o with
    | 0x0 => s.noc.missPart.toNat % 2 ^ 32
    | 0x4 => s.noc.missPart.toNat / 2 ^ 32
    | _ => 0

/-! ### SIT (R442) -/

def SReason.num : SReason → Nat
  | .none => 0 | .host => 1 | .rail => 2 | .strap => 3 | .absent => 4 | .link => 5 | .classR => 6 | .attest => 7 | .crust => 8 | .fault => 9
def AttestRes.num : AttestRes → Nat
  | .none => 0 | .attested => 1 | .unattested => 2 | .failed => 3

def readSit (s : State) (n o : Nat) : Nat :=
  let t := s.site n
  match o with
  | 0x40 =>
    let u := if t.upper then s.site (n - 1) else t
    pk [(0, 4, u.state.num), (4, 4, expectedClass s (if t.upper then n - 1 else n) u.cls), (8, 4, u.found), (12, 2, u.attestRes.num), (16, 4, u.reason.num),
                (20, 6, ownerField t.owner), (26, 1, owned t.owner), (27, 1, flag t.upper)]
  | 0x44 => pk [(0, 2, t.fld 8 4 2), (2, 4, t.modules), (6, 8, t.repaired)]
  | 0x48 => pk [(0, 9, t.amps), (16, 10, t.watts)]
  | 0x4C => pk [(0, 6, t.strapT.toNat), (8, 6, t.strapC.toNat), (16, 1, flag t.strapOk)]
  | 0x50 => t.crustN.toNat
  | 0x54 => t.crustLast.toNat
  | 0x58 => bits (s.reg (0x100058 + n * 0x1000) 0x40).toNat 0 16
  | 0x5C => t.retrains.toNat
  | 0x64 => pk [(0, 11, t.vpend.getD t.vset)]
  | _ => 0

/-! ### STL and COL (R532, R535) -/

def PortState.num : PortState → Nat
  | .off => 0 | .training => 1 | .up => 2 | .retrain => 3 | .fenced => 4

def readStl (s : State) (o : Nat) : Nat :=
  if 0x100 ≤ o ∧ o < 0x200 then
    let n := (o - 0x100) / 0x20
    let q := s.port n
    match o % 0x20 with
    | 0x00 => pk [(0, 3, q.state.num), (3, 1, flag q.peerBad), (4, 4, q.lanes.toNat), (8, 4, q.polarity.toNat), (12, 8, q.laneMap.toNat),
                  (20, 3, q.peerPort.toNat), (23, 1, flag q.peerOk)]
    | 0x04 => q.peerId.toNat % 2 ^ 32
    | 0x08 => q.corrected.toNat
    | 0x0C => q.uncorr.toNat
    | 0x10 => q.replays.toNat
    | 0x18 => bits (s.reg (0xE0118 + n * 0x20) 1).toNat 0 3
    | 0x1C => q.latency.toNat
    | _ => 0
  else if o = 0 then
    let up := fun (n : Nat) => (s.port n).state == .up
    pk [(0, 8, bitMask ((List.range 8).filter up)),
        (8, 8, bitMask ((List.range 8).filter (fun n => up n && decide (popcount 4 (s.port n).lanes.toNat < 4))))]
  else 0

def CRun.num : CRun → Nat
  | .idle => 0 | .wait => 1 | .exponent => 2 | .reduce => 3 | .distribute => 4 | .ending => 5 | .fenced => 6

/-- [DESIGN CHOICE, log entry 19] -/
def readCol (s : State) (o : Nat) : Nat :=
  if 0x100 ≤ o ∧ o < 0x200 then
    let x := s.cunit ((o - 0x100) / 0x20)
    match o % 0x20 with
    | 0x00 => pk [(0, 3, x.run.num), (8, 6, ownerField x.owner), (14, 1, owned x.owner), (16, 4, match x.cur with | some c => c.round | none => 0)]
    | 0x04 => pk [(0, 8, x.lastStat.code), (8, 8, x.lastFlags.toNat), (16, 16, x.lastDesc.toNat)]
    | 0x08 => x.failedN.toNat
    | 0x10 => x.stall.toNat
    | 0x14 => x.lines.toNat
    | _ => 0
  else if o = 0 then bitMask ((List.range 8).filter (fun c => (s.cunit c).owner.isSome)) else 0

/-! ### HST and VIF in BAR0 (R579, R581) -/

/-- Groups of the n-th block of R54. -/
def blockGroups (n : Nat) : List Nat :=
  if n < 17 then [n] else if n = 17 then [17, 18, 19, 20, 21, 22] else if n = 18 then [23] else if n = 19 then [24, 25, 26, 27] else [28]

/-- A VI has an enabled pending bit. -/
def viPending (s : State) (v : Nat) : Bool := (s.vi v).intPend &&& (s.vi v).intEn != 0

def readHst (s : State) (o : Nat) : Nat :=
  let h := s.host
  match o with
  | 0x0 => pk [(0, 3, h.rate), (3, 5, h.width), (8, 1, flag h.flit), (9, 1, flag h.linkUp)]
  | 0x4 => pk [(0, 1, flag h.bme), (1, 1, flag h.d3hot), (2, 1, flag h.attached), (3, 1, flag h.dmaStopped), (8, 3, h.stopReason)]
  | 0xC => pk [(0, 8, h.attachStat.code)]
  | 0x14 => bits (s.reg 0x10014 0x3E8).toNat 0 16
  | 0x1C => pk [(0, 21, bitMask ((List.range 21).filter (fun n => (blockGroups n).any (fun g => (pendingGroups s).contains g)))),
                (21, 1, flag (s.vis.any (fun e => viPending s e.1)))]
  | _ => 0

def VState.num : VState → Nat
  | .detached => 0 | .attached => 1 | .quiesced => 2

def readVif (s : State) (o : Nat) : Nat :=
  let v := pfSel s
  match o with
  | 0x0 => v
  | 0x4 => pk [(0, 2, (s.vi v).state.num), (2, 6, (s.partOfVi v).getD 0), (8, 7, (s.vi v).held.length)]
  | _ => 0

/-! ### SEC, LCS, DBG (R618, R653, R655) -/

def readSec (s : State) (o : Nat) : Nat :=
  let open_ := s.sec.seals.filter (fun e => e.2.state == .open_)
  let parts := bitMask ((List.range 64).filter (fun p => s.sealedPart p))
  match o with
  | 0x0 => pk [(0, 11, open_.length), (11, 1, flag s.sec.entropyOk), (12, 1, flag s.dbg.openS)]
  | 0x4 => s.sec.epoch.toNat
  | 0x8 => parts % 2 ^ 32
  | 0xC => parts / 2 ^ 32
  | 0x14 => if s.dbg.openS then s.dbg.rights.toNat else 0
  | _ => 0

def readLcs (s : State) (o : Nat) : Nat :=
  let x := s.lcs
  match o with
  | 0x0 => pk [(0, 3, lifeCycle s), (3, 1, flag x.transition), (8, 5, bitMask ((List.range 5).filter (burnt x.otp))), (16, 2, secretState x.otp)]
  | 0x8 => pk [(0, 8, x.status.code), (8, 3, x.target), (11, 1, flag x.deferred)]
  | 0xC => pk [(0, 5, x.finished.toNat), (5, 1, flag x.wipeRep)]
  | _ => 0

/-- Minutes that remain of a debug session, a begun minute counted whole. [DESIGN CHOICE, log entry 19] -/
def minutesLeft (s : State) : Nat :=
  let gone := (s.clk.now.toNat - s.dbg.opened.toNat) / 72000000000
  if s.dbg.openS then s.dbg.minutes - gone else 0

def readDbg (s : State) (o : Nat) : Nat :=
  let d := s.dbg
  match o with
  | 0x0 => pk [(0, 1, flag d.openS), (1, 2, d.mode), (3, 1, d.signer), (4, 2, debugPolicy s), (16, 16, minutesLeft s)]
  | 0x4 => pk [(0, 4, d.fails), (4, 1, flag d.locked)]
  | 0xC => (idcode s).toNat
  | _ => 0

/-! ### PWR and THM (R691, R693) -/

def PSource.num : PSource → Nat
  | .estimate => 0 | .larger => 1 | .guard => 2
def TileState.num : TileState → Nat
  | .off => 0 | .on => 1 | .fenced => 2
def Sense.num : Sense → Nat
  | .good => 0 | .opened => 1 | .shorted => 2

/-- Fraction that a partition's share has set. -/
def shareBubble (s : State) (p : Nat) : Nat := (List.range 3).foldl (fun m g => max m (Tab.get 0 s.pwr.shareFr (p * 4 + g))) 0

/-- A partition's power reading: quantised and averaged while it has an open seal session (R616). -/
def partPower (s : State) (p : Nat) : Nat := if s.sealedPart p then Tab.get 0 s.pwr.tel p else Tab.get 0 s.pwr.partW p

def readPwr (s : State) (o : Nat) : Nat :=
  let x := s.pwr
  if 0x100 ≤ o ∧ o < 0x300 then
    let p := (o - 0x100) / 8
    if o % 8 = 0 then pk [(0, 13, Tab.get 0 x.shares p)] else pk [(0, 13, partPower s p), (16, 8, shareBubble s p)]
  else if 0x400 ≤ o ∧ o < 0x440 then
    let t := s.tile ((o - 0x400) / 8)
    if o % 8 = 0 then pk [(0, 2, t.state.num), (2, 2, t.sense.num), (16, 10, t.inW)] else pk [(0, 10, t.outW), (16, 10, t.temp)]
  else match o with
    | 0x00 => pk [(0, 2, x.source.num), (8, 8, bitMask ((List.range 8).filter (fun t => (s.tile t).state == .fenced)))]
    | 0x04 => x.reasons.toNat
    | 0x08 => x.seen.toNat
    | 0x0C => pk [(0, 10, x.vin), (16, 10, x.amps8)]
    | 0x10 => pk [(0, 13, x.meas), (16, 13, x.used)]
    | 0x14 => pk [(0, 10, x.hubW), (16, 12, x.k)]
    | 0x18 => pk [(0, 13, avgLimitNow s), (16, 8, x.avgWindow)]
    | 0x1C => pk [(0, 13, x.budget), (16, 13, x.avail)]
    | 0x20 => pk [(0, 6, x.priority)]
    | 0x24 => pk [(0, 7, x.peak)]
    | 0x28 => pk [(0, 6, s.fab.fclk), (8, 6, x.fclkMin), (16, 6, x.fclkMax), (24, 6, x.pacing)]
    | 0x2C => pk [(0, 8, bubble s 0), (8, 8, bubble s 1), (16, 8, bubble s 2)]
    | _ => 0

/-- A reading in a 10-bit field: below 0 °C it has no code, and reads the next free value. -/
def tempField (s : State) (q : Int) : Nat := if q < 0 then (Config.freeBits 10 s.free).toNat else q.toNat

/-- The hottest hub or site sensor and its reading. -/
def hottestSensor (s : State) : Nat × Int :=
  (List.range 256).foldl (fun (b : Nat × Int) n => let q := (Tab.get {} s.thm.sensors n).q; if b.2 < q then (n, q) else b)
    (0, (Tab.get {} s.thm.sensors 0).q)

/-- Hottest reading and level of a region. -/
def regionTemp (s : State) (r : Nat) : Int := if 27 ≤ r then (s.stack (r - 27)).temp else hottest s r r

def readThm (s : State) (o : Nat) : Nat :=
  if 0x100 ≤ o ∧ o < 0x100 + 33 * 4 then
    let r := (o - 0x100) / 4
    pk [(0, 10, tempField s (regionTemp s r)), (12, 2, worstLevel s r r), (16, 8, thermalFrac s r)]
  else if 0x400 ≤ o ∧ o < 0x800 then
    let x := Tab.get {} s.thm.sensors ((o - 0x400) / 4)
    pk [(0, 10, tempField s x.q), (10, 1, flag x.failed)]
  else match o with
    | 0x0 => pk [(0, 2, worstLevel s 0 8), (2, 2, worstLevel s 9 26), (4, 2, worstLevel s 27 32), (8, 8, (hottestSensor s).1),
                 (16, 10, tempField s (hottestSensor s).2)]
    | 0x4 => pk [(0, 8, s.thm.cHub), (8, 8, s.thm.cSite), (16, 8, s.thm.cHbm)]
    | 0x8 => pk [(0, 6, s.thm.tripReg), (8, 8, s.thm.tripSens)]
    | _ => 0

/-! ### FLT and the fault groups (R52, R696, R717) -/

def readFlt (s : State) (o : Nat) : Nat :=
  let f := s.flt
  match o with
  | 0x00 => pk [(0, 1, flag f.stopped), (1, 1, flag f.heartbeat), (2, 1, flag f.pin), (8, 5, (graceGroups s).length)]
  | 0x04 => bitMask ((List.range 29).filter (fun g => (s.grp g).timer))
  | 0x08 => bitMask (pendingGroups s)
  | 0x0C => pk [(0, 5, f.thresh)]
  | 0x10 => pk [(0, 2, f.cause), (8, 5, f.causeGrp), (16, 5, f.causeBit)]
  | 0x14 => f.escal.toNat
  | _ => 0

def FAction.num : FAction → Nat
  | .log => 0 | .fenceUnit => 1 | .holdPartition => 2 | .stopPackage => 3

/-- Blocks whose group has a unit register at 0xF018 (R320, R444, R534, R537, R582). -/
def hasUnits (g : Nat) : Bool := g == 2 || g == 12 || g == 13 || g == 14 || g == 16

/-- Registers of a fault group, by offset from 0xF000. -/
def readGroup (s : State) (g o : Nat) : Nat :=
  let x := s.grp g
  match o with
  | 0x00 => x.status.toNat
  | 0x04 => x.mask.toNat
  | 0x08 => x.inject.toNat
  | 0x0C => x.grace
  | 0x10 => x.action.num
  | 0x18 => if hasUnits g then x.unitReg.toNat % 2 ^ 32 else 0
  | 0x1C => if g = 12 then x.unitReg.toNat / 2 ^ 32 else 0
  | _ => 0

/-! ### MGT and TRC (R44, R778, R780) -/

/-- The indirect pair of an owner. -/
def indOf (who : Owner2) (s : State) : Ind := match who with | .host => s.indH | .fw => s.indF

/-- `MGT_DEFER.MS`. -/
def deferMs (s : State) : Nat := match s.mgt.deferAt with | some t => (s.clk.now.toNat - t.toNat) / 1200000 | none => 0

def readMgt (who : Owner2) (s : State) (o : Nat) : Nat :=
  let m := s.mgt
  if 0x140 ≤ o ∧ o < 0x180 then (Tab.get 0 m.args ((o - 0x140) / 4)).toNat
  else if 0x180 ≤ o ∧ o < 0x1C0 then (Tab.get 0 m.resp ((o - 0x180) / 4)).toNat
  else match o with
    | 0x00 => mgtStatus s
    | 0x04 => m.fw.version.toNat
    | 0x08 => pk [(0, 8, s.lcs.otp.rollback), (8, 8, m.fw.svn), (16, 8, match m.staged with | some i => i.svn | none => 0)]
    | 0x0C => pk [(0, 16, m.wdtPeriod), (16, 16, m.wdtExp.toNat)]
    | 0x10 => m.logHead
    | 0x14 => deferMs s
    | 0x40 => let i := indOf who s; pk [(2, 28, i.addr.toNat / 4), (30, 1, flag i.err), (31, 1, flag i.autoInc)]
    | 0x104 => pk [(0, 1, flag m.busy), (1, 1, flag m.unavail), (2, 1, flag m.done), (8, 8, m.mbStatus.code), (16, 8, m.mbTag.toNat)]
    | _ => 0

def readTrc (s : State) (o : Nat) : Nat :=
  let t := s.trc
  if 0x10 ≤ o ∧ o < 0x30 then t.enable.toNat / 2 ^ (32 * ((o - 0x10) / 4)) % 2 ^ 32
  else match o with
    | 0x0 => pk [(0, 1, flag t.run), (1, 1, flag t.stopFull), (8, 8, t.trigger), (16, 1, flag t.trigEn)]
    | 0x4 => pk [(0, 14, t.head), (14, 1, flag t.wrapped)]
    | _ => 0

/-! ### Mailboxes (R49) -/

/-- Where the mailboxes of BAR0 lie: base and mailbox. -/
def mbxBases : List (Nat × MbxId) :=
  [(0x80040, .prfStep), (0x80060, .prfTime), (0x50040, .pwrThrottle), (0x50060, .pwrEnergy), (0x20040, .vif), (0xB0140, .xlt),
   (0x300040, .srm), (0x90040, .qos), (0xE0040, .stl), (0xD0040, .col), (0x40040, .sec), (0x800040, .dbg), (0xF0040, .trc)] ++
  (List.finRange 64).map (fun n => (0xC0080 + n.val * 0x400, MbxId.xfe n)) ++
  (List.finRange 6).map (fun m => (0x200040 + m.val * 0x10000, MbxId.mem m)) ++
  (List.finRange 18).map (fun n => (0x100080 + n.val * 0x1000, MbxId.sit n))

/-- The mailbox that an offset of BAR0 belongs to, and the register's offset in it. -/
def mbxAt (a : Nat) : Option (MbxId × Nat) :=
  (mbxBases.find? (fun e => decide (e.1 ≤ a) && decide (a < e.1 + 0x18))).map (fun e => (e.2, a - e.1))

/-- An owner's copy of a mailbox. -/
def mbxOf (who : Owner2) (id : MbxId) (s : State) : Mbx :=
  let l := match who with | .host => s.mbxH | .fw => s.mbxF
  match l.find? (fun e => e.1 == id) with | some e => e.2 | none => {}

/-- Registers of a mailbox. -/
def readMbx (x : Mbx) (o : Nat) : Nat :=
  match o with
  | 0x0 => x.sel.toNat
  | 0x4 => pk [(0, 1, flag x.valid), (1, 1, flag x.err), (8, 8, x.seq.toNat)]
  | 0x8 => bits x.data.toNat 0 32
  | 0xC => bits x.data.toNat 32 32
  | 0x10 => bits x.data.toNat 64 32
  | 0x14 => bits x.data.toNat 96 32
  | _ => 0

/-! ### BAR0, BAR2, BAR4 -/

/-- A read of a BAR0 register, `MGT_IND_DATA` apart. -/
def readBar0 (who : Owner2) (s : State) (a : Nat) : Nat :=
  match mbxAt a with
  | some (id, o) => readMbx (mbxOf who id s) o
  | none =>
    match groupAt a with
    | none => 0
    | some g =>
      if groupBase g ≤ a ∧ a < groupBase g + 0x40 then readGroup s g (a - groupBase g)
      else
        let o := a % 0x10000
        match g with
        | 0 => readMgt who s o
        | 1 => readHst s o
        | 2 => readVif s o
        | 3 => readLcs s o
        | 4 => readSec s o
        | 5 => readPwr s o
        | 6 => readThm s o
        | 7 => readFlt s o
        | 8 => readPrf s o
        | 9 => readQos s o
        | 10 => readNoc s o
        | 11 => readXlt s o
        | 12 => readXfe (s.xfe (o / 0x400)) (o % 0x400)
        | 13 => readCol s o
        | 14 => readStl s o
        | 15 => readTrc s o
        | 16 => readSit s ((a - 0x100000) / 0x1000) (a % 0x1000)
        | 23 => if a < 0x310000 then readSrm s o else 0
        | 28 => if a < 0x810000 then readDbg s o else 0
        | g => if g < 23 then readMem s (g - 17) o else if (a - 0x400000) % 0x40000 < 0x10000 then readFab s (g - 24) o else 0

/-- A byte string register of the seal handshake: byte k at its base + k (R621). -/
def byteWord (len v o : Nat) : Nat := leNat (((beBytes len v).drop o).take 4)

/-- The seal handshake mailbox of a VI (R621). -/
def readSeal (s : State) (v o : Nat) : Nat :=
  let x := s.sealOf v
  let st := match x.state with | .none => 0 | .busy => 1 | .open_ => 2
  if 0x840 ≤ o ∧ o < 0x8A0 then byteWord 96 x.qt.toNat (o - 0x840)
  else if 0x8A0 ≤ o ∧ o < 0x8C0 then byteWord 32 x.nt.toNat (o - 0x8A0)
  else if 0x900 ≤ o ∧ o < 0x960 then byteWord 96 x.qh.toNat (o - 0x900)
  else if 0x960 ≤ o ∧ o < 0x980 then byteWord 32 x.nh.toNat (o - 0x960)
  else if 0x980 ≤ o ∧ o < 0x9B0 then byteWord 48 x.meas.toNat (o - 0x980)
  else if 0xA00 ≤ o ∧ o < 0xA60 then byteWord 96 x.sig.toNat (o - 0xA00)
  else match o with
    | 0x804 => pk [(0, 2, st), (2, 1, flag x.changed), (8, 8, x.result.code), (16, 8, x.endReason)]
    | 0x808 => x.count.toNat
    | _ => 0

/-- A register of a VI window (R583); a VI in no enabled partition reads 0 but for `VIF_ID`. [DESIGN CHOICE, log entry 15] -/
def readBar2 (s : State) (v o : Nat) : Nat :=
  let x := s.vi v
  match s.partOfVi v with
  | none => if o = 0 then v else 0
  | some p =>
    let c := (s.part p).cfg
    if 0x800 ≤ o ∧ o < 0x1000 then readSeal s v o
    else if 0x1040 ≤ o ∧ o < 0x1058 then readMbx (mbxOf .host (.viView (Fin.ofNat 1024 v)) s) (o - 0x1040)
    else if 0x2040 ≤ o ∧ o < 0x2058 then readMbx (mbxOf .host (.viTel (Fin.ofNat 1024 v)) s) (o - 0x2040)
    else match o with
      | 0x0000 => pk [(0, 10, v), (16, 6, p), (22, 1, 1)]
      | 0x0004 => 0x10000
      | 0x0104 => pk [(0, 8, x.attachStat.code), (8, 2, x.state.num)]
      | 0x0108 => x.features.toNat
      | 0x0110 => pk [(0, 14, x.period)]
      | 0x0200 => x.cmdBase.toNat % 2 ^ 32
      | 0x0204 => x.cmdBase.toNat / 2 ^ 32
      | 0x0208 => pk [(0, 17, x.cmdSize), (24, 3, x.depth)]
      | 0x020C => pk [(0, 16, x.cmdHead), (16, 1, flag x.cmdPhase)]
      | 0x0300 => x.cplBase.toNat % 2 ^ 32
      | 0x0304 => x.cplBase.toNat / 2 ^ 32
      | 0x0308 => pk [(0, 17, x.cplSize)]
      | 0x030C => pk [(0, 16, x.cplTail), (16, 1, flag x.cplPhase)]
      | 0x0310 => pk [(0, 16, x.cplHead)]
      | 0x0400 => x.intEn.toNat
      | 0x0404 => x.intPend.toNat
      | 0x1000 => partStateWord (s.part p)
      | 0x1004 => pk [(0, 8, popcount 128 c.cols.toNat), (8, 7, popcount 64 c.banks.toNat), (15, 8, popcount 192 c.chans.toNat),
                      (23, 5, popcount 18 c.sites.toNat)]
      | 0x2000 => pk [(0, 16, Tab.get 0 s.pwr.tel p)]
      | 0x3000 => x.vstatus.toNat
      | 0x3004 => x.vmask.toNat
      | _ => 0

/-- A word of the HDT: 0 until assembly and beyond its end (R545). -/
def readBar4 (s : State) (a : Nat) : Nat := leNat ((s.host.hdt.drop a).take 4)

end Sys2Proof.Machine
end

