-- ==== Sys2Proof/Machine/Sec.lean ====
section
/-! DEFINITION. The security island's commands: seal sessions, the entropy source and the SPDM responder (R585 to R622). -/
namespace Sys2Proof.Machine
open Sys2Proof

/-! ### Seal sessions -/

/-- A debug session holds the hub scan right (R593). -/
def scanHeld (s : State) : Bool := s.dbg.openS && s.dbg.rights.getLsbD 0

/-- The result of an OPEN that does not open: RESULT and SEAL in `VIF_INT_PENDING`; a session that stands is unchanged
(R594, R617). -/
def openEnds (v : Nat) (st : Status) (s : State) : State :=
  let x := s.sealOf v
  refresh ((s.setSeal v { x with result := st, state := if x.state == .busy then .none else x.state }).modVi v
    (fun w => { w with intPend := w.intPend ||| 16#5 }))

/-- SEAL_OPEN: refused DENIED or ABORTED, else the handshake starts (R593, R594). [DEDUCED, log entry 62] -/
def sealOpenStart (v : Nat) (s : State) : State :=
  let x := s.sealOf v
  let w := s.vi v
  if x.state != .none then
    refresh ((s.setSeal v { x with result := .denied }).modVi v (fun w => { w with intPend := w.intPend ||| 16#5 }))
  else if w.state != .attached || !w.features.getLsbD 0 || !Config.onCurve x.qt || scanHeld s then openEnds v .denied s
  else if !s.sec.entropyOk then openEnds v .aborted s
  else s.setSeal v { x with state := .busy }
/-- SEAL_OPEN (R594). -/
def execSealOpen (v : Fin 1024) (s : State) : Host.Outcome State Fault Refusal := .next (sealOpenStart v.val s)

/-- MEAS: SHA-384 of all measurement blocks in ascending index order (R614). [DEDUCED, log entry 63] -/
def measDigest (s : State) : BitVec 384 := Config.sha384 (s.sec.meas.flatMap (fun b => Config.measBlock b.1 b.2))

/-- The transcript that the hub signs at an OPEN (R596). -/
def transcript (x : Seal) (v : Nat) (serial : BitVec 64) : List Byte :=
  beBytes 96 x.qt.toNat ++ beBytes 32 x.nt.toNat ++ beBytes 96 x.qh.toNat ++ beBytes 32 x.nh.toNat ++
  beBytes 2 v ++ beBytes 8 serial.toNat ++ beBytes 48 x.meas.toNat

/-- A key slot is wiped: transfers that still use it end ABORTED (R607). [DEDUCED, log entry 62] -/
def wipeSlot (v : Nat) (s : State) : State :=
  if (s.sealOf v).wiping then
    let s := abortSlot v s
    s.setSeal v { s.sealOf v with wiping := false, key := none }
  else s

/-- SEAL_OPEN_COMPLETE: key agreement, the session key into key slot v, the signed transcript, and STATE OPEN with every
sequence number of the session at its start (R595 to R597, R600, R603). [DEDUCED, log entry 62] -/
def sealOpenComplete (v : Nat) (s : State) : State :=
  if (s.sealOf v).state != .busy then s
  else if !s.sec.entropyOk then openEnds v .aborted s
  else
    let s := wipeSlot v s
    let x := s.sealOf v
    let n := s.free
    let serial := s.lcs.otp.serial
    let x := { x with qh := Config.ephPub n, nh := Config.ephNonce n, meas := measDigest s }
    let x := { x with sig := Config.idSign (transcript x v serial), key := some (Config.sealKey n x.qt x.nt x.nh v serial),
                      state := .open_, result := .ok, count := x.count + 1, cmdSeq := 0, inSeq := 0, outSeq := 0 }
    let s := { s with free := n + 1 }
    refresh ((s.setSeal v x).modVi v (fun w => { w with intPend := w.intPend ||| 16#5 }))
/-- SEAL_OPEN_COMPLETE (R595). -/
def execSealOpenComplete (v : Fin 1024) (s : State) : Host.Outcome State Fault Refusal := .next (sealOpenComplete v.val s)

/-- SEAL_CLOSE: the session ends with reason CLOSE (R605). -/
def execSealClose (v : Fin 1024) (s : State) : Host.Outcome State Fault Refusal := .next (refresh (endSession v.val 1 s))

/-- SEC_SEAL_CLOSE: the session ends with reason HOST; VI 0 is refused (R605, R618). -/
def execSecSealClose (v : Fin 1024) (s : State) : Host.Outcome State Fault Refusal :=
  .next (if v.val = 0 then refuseWrite 4 s else refresh (endSession v.val 2 s))

/-- KEY_SLOT_WIPE (R607). [DEDUCED, log entry 62] -/
def execKeySlotWipe (v : Fin 1024) (s : State) : Host.Outcome State Fault Refusal := .next (refresh (wipeSlot v.val s))

/-- KEY_SLOT_FAULT (R605, R617, R620). -/
def execKeySlotFault (v : Fin 1024) (s : State) : Host.Outcome State Fault Refusal := .next (keyFault v.val s)

/-- ENTROPY_FAIL: ENTROPY sets and ENTROPY_OK reads 0 (R618, R620). [DEDUCED, log entry 62] -/
def execEntropyFail (s : State) : Host.Outcome State Fault Refusal :=
  .next (raise 4 1 0 { s with sec := { s.sec with entropyOk := false } })

/-! ### The SPDM responder (R610 to R612)

A request is an SPDM message: its code at byte 1 and its two parameters at bytes 2 and 3. The responder runs with
firmware: not before ROM has loaded it, not in flatbread mode and not in SCRAPPED (R624, R743). A response consists of
the header fields, which DMTF SPDM defines and the manual does not give, and the content that the manual gives. -/

/-- The responder runs. -/
def spdmUp (s : State) : Bool := !(s.mgt.stage == .rom) && !(s.mgt.stage == .flatbread) && lifeCycle s != 4

/-- Send a response: its header, then its content. -/
def spdmSend (tr code : Nat) (req content : List Byte) (s : State) : State :=
  s.emit (.spdm tr (Config.answer 1 code (req ++ content) ++ content))

/-- Send a response that the security island signs with the device identity key (R611). [PRESUMED, log entry 61] -/
def spdmSigned (tr code : Nat) (req content : List Byte) (s : State) : State :=
  let body := Config.answer 1 code (req ++ content) ++ content
  s.emit (.spdm tr (body ++ beBytes 96 (Config.idSign (req ++ body)).toNat))

/-- An ERROR response (code 0x7F). -/
def spdmError (tr : Nat) (req : List Byte) (s : State) : State := spdmSend tr 0x7F req [] s

/-- Progress of the requester on a transport. -/
def State.spdm (s : State) (tr : Nat) : Spdm := Tab.get {} s.sec.spdm tr
def State.setSpdm (s : State) (tr : Nat) (x : Spdm) : State := { s with sec := { s.sec with spdm := Tab.set {} s.sec.spdm tr x } }

/-- GET_VERSION opens a new exchange on its transport. -/
def spdmGetVersion (tr : Nat) (req : List Byte) (s : State) : State :=
  if spdmUp s then spdmSend tr 4 req [] (s.setSpdm tr { version := true }) else s
/-- SPDM_GET_VERSION (R612). -/
def execSpdmGetVersion (tr : Fin 3) (req : List Byte) (s : State) : Host.Outcome State Fault Refusal :=
  .next (spdmGetVersion tr.val req s)

/-- GET_CAPABILITIES follows GET_VERSION. -/
def spdmGetCapabilities (tr : Nat) (req : List Byte) (s : State) : State :=
  if !spdmUp s then s
  else if (s.spdm tr).version then spdmSend tr 0x61 req [] (s.setSpdm tr { version := true, caps := true })
  else spdmError tr req s
/-- SPDM_GET_CAPABILITIES (R612). -/
def execSpdmGetCapabilities (tr : Fin 3) (req : List Byte) (s : State) : Host.Outcome State Fault Refusal :=
  .next (spdmGetCapabilities tr.val req s)

/-- NEGOTIATE_ALGORITHMS follows GET_CAPABILITIES. -/
def spdmNegotiate (tr : Nat) (req : List Byte) (s : State) : State :=
  if !spdmUp s then s
  else if (s.spdm tr).caps then spdmSend tr 0x63 req [] (s.setSpdm tr { version := true, caps := true, algs := true })
  else spdmError tr req s
/-- SPDM_NEGOTIATE_ALGORITHMS (R612). -/
def execSpdmNegotiateAlgorithms (tr : Fin 3) (req : List Byte) (s : State) : Host.Outcome State Fault Refusal :=
  .next (spdmNegotiate tr.val req s)

/-- Requests after the negotiation: each runs `f` on its transport, or gets an ERROR. [PRESUMED, log entry 61] -/
def spdmAfter (tr : Nat) (req : List Byte) (f : State → State) (s : State) : State :=
  if !spdmUp s then s else if (s.spdm tr).algs then f s else spdmError tr req s

/-- Parameters of a request. [PRESUMED, log entry 61] -/
def spdmParam (req : List Byte) (i : Nat) : Nat := (req.getD (1 + i) 0).toNat

/-- SPDM_GET_DIGESTS: the digest of certificate slot 0, the only slot (R612). -/
def execSpdmGetDigests (tr : Fin 3) (req : List Byte) (s : State) : Host.Outcome State Fault Refusal :=
  .next (spdmAfter tr.val req (fun s => spdmSend tr.val 1 req (beBytes 48 (Config.sha384 s.mgt.flash.chain).toNat) s) s)

/-- GET_CERTIFICATE serves the part of the chain that the request asks for (R610): OFFSET and LENGTH at bytes 4 and 6. -/
def spdmCertificate (tr : Nat) (req : List Byte) (s : State) : State :=
  if spdmParam req 1 % 16 ≠ 0 then spdmError tr req s
  else spdmSend tr 2 req ((s.mgt.flash.chain.drop (bfld req 4 0 16)).take (bfld req 6 0 16)) s
/-- SPDM_GET_CERTIFICATE (R610). -/
def execSpdmGetCertificate (tr : Fin 3) (req : List Byte) (s : State) : Host.Outcome State Fault Refusal :=
  .next (spdmAfter tr.val req (spdmCertificate tr.val req) s)

/-- CHALLENGE: CHALLENGE_AUTH with the chain's digest and the digest of the measurements, signed (R611). -/
def spdmChallenge (tr : Nat) (req : List Byte) (s : State) : State :=
  if spdmParam req 1 % 16 ≠ 0 then spdmError tr req s
  else spdmSigned tr 3 req (beBytes 48 (Config.sha384 s.mgt.flash.chain).toNat ++ beBytes 48 (measDigest s).toNat) s
/-- SPDM_CHALLENGE (R611). -/
def execSpdmChallenge (tr : Fin 3) (req : List Byte) (s : State) : Host.Outcome State Fault Refusal :=
  .next (spdmAfter tr.val req (spdmChallenge tr.val req) s)

/-- GET_MEASUREMENTS: parameter 2 names a block, 0xFF every block, 0 their number; bit 0 of parameter 1 asks for a
signature (R611 to R613). -/
def spdmMeasurements (tr : Nat) (req : List Byte) (s : State) : State :=
  let op := spdmParam req 2
  let all := s.sec.meas.map (fun b => Config.measBlock b.1 b.2)
  let content : Option (List Byte) :=
    if op = 0 then some [BitVec.ofNat 8 all.length]
    else if op = 255 then some all.flatten
    else (s.sec.meas.find? (fun b => b.1 == op)).map (fun b => Config.measBlock b.1 b.2)
  match content with
  | none => spdmError tr req s
  | some c => if spdmParam req 1 % 2 = 1 then spdmSigned tr 0x60 req c s else spdmSend tr 0x60 req c s
/-- SPDM_GET_MEASUREMENTS (R613). -/
def execSpdmGetMeasurements (tr : Fin 3) (req : List Byte) (s : State) : Host.Outcome State Fault Refusal :=
  .next (spdmAfter tr.val req (spdmMeasurements tr.val req) s)

end Sys2Proof.Machine
end

