-- ==== Sys2Proof/Machine/Mbx.lean ====
section
/-! DEFINITION. The wide-value mailboxes: what each captures, the SELECT write and the end of a capture (R49 to R51, R804 and the
mailbox rules of every chapter). -/
namespace Sys2Proof.Machine
open Sys2Proof

/-- The partitions whose units a power domain serves (R21). -/
def domainParts (s : State) (n : Nat) : List Nat :=
  s.enabledParts.filter (fun p =>
    let c := (s.part p).cfg
    let some_ := fun (x lo len : Nat) => bits x lo len != 0
    if 4 ≤ n ∧ n ≤ 7 then some_ c.banks.toNat (16 * (n - 4)) 16
    else if 8 ≤ n ∧ n ≤ 11 then some_ c.cols.toNat (32 * (n - 8)) 32
    else if n = 12 then c.xfes != 0 || c.cus != 0
    else if n = 13 then some_ c.links.toNat 0 4
    else if n = 14 then some_ c.links.toNat 4 4
    else if 16 ≤ n ∧ n ≤ 21 then some_ c.chans.toNat (32 * (n - 16)) 32
    else if 58 ≤ n ∧ n ≤ 63 then some_ c.chans.toNat (32 * (n - 58)) 32
    else if 22 ≤ n ∧ n ≤ 39 then c.sites.getLsbD (n - 22)
    else if 40 ≤ n ∧ n ≤ 57 then c.sites.getLsbD (n - 40)
    else false)

/-- An energy total: of a sealed partition's units it advances in 100 mJ steps once every 100 ms (R616).
[DESIGN CHOICE, log entry 19] -/
def energyShown (s : State) (n : Nat) : Nat :=
  if (domainParts s n).any s.sealedPart then (Tab.get 0 s.pwr.energyQ n).toNat / 100 * 100 else (Tab.get 0 s.pwr.energy n).toNat

/-- The entry of R344 of a granule. -/
def granuleWord (g : Granule) : Nat := pk [(0, 10, g.owner), (10, 1, flag g.partWide), (11, 1, flag g.fenced), (12, 1, flag g.zeroed)]

/-- A counter of R393 by kind. -/
def qosCounter (q : QosPort) (kind : Nat) : Nat :=
  match kind with
  | 0 => q.rdBytes.toNat | 1 => q.wrBytes.toNat | 2 => q.reqs.toNat | 3 => q.latSum.toNat | 4 => q.latMax.toNat | 5 => q.heldSum.toNat
  | _ => q.misses.toNat

/-- The counters of one kind summed over a partition's ports. -/
def partCounter (s : State) (p kind : Nat) : Nat :=
  min (2 ^ 64 - 1) ((s.noc.qports.filter (fun e => e.1 % 64 == p)).foldl (fun a e => a + qosCounter e.2 kind) 0)

/-- A trace entry as its 16 B (R774). -/
def traceWord (e : Option TraceEntry) : Nat :=
  match e with
  | none => 0
  | some t => pk [(0, 48, t.tick.toNat), (48, 8, t.point), (56, 6, t.part.getD 0), (62, 1, flag t.part.isSome), (64, 64, t.data.toNat)]

/-- 16 B of a byte string, its first byte least significant. -/
def sixteen (b : List Byte) (k : Nat) : Nat := leNat ((b.drop (16 * k)).take 16)

/-- The value that SEL names, or none where SEL is out of range. A partition's energy (`VIF_TEL_MBX` SEL 7) is formed by no rule of
the manual: it is the next free value. [DESIGN CHOICE, log entry 19] -/
def mbxValue (id : MbxId) (sel : Nat) (s : State) : Option Nat :=
  match id with
  | .prfStep => if sel < 64 then some (s.part sel).step.toNat else none
  | .prfTime => if sel = 0 then some s.clk.now.toNat else none
  | .pwrThrottle => if sel < 10 then some (Tab.get 0 s.pwr.durs sel) else none
  | .pwrEnergy => if sel < 64 then some (energyShown s sel) else none
  | .vif =>
    if sel < 8 then some (bitMask ((List.range 128).filter (fun n => viPending s (sel * 128 + n) || (sel * 128 + n == 0 && !(pendingGroups s).isEmpty))))
    else none
  | .xfe n =>
    let x := s.xfe n.val
    if sel = 0 then some (x.faultDva.toNat + x.faultIova.toNat * 2 ^ 64) else if sel = 1 then some x.bytes.toNat else none
  | .xlt =>
    if sel < 0x1000 then some ((Tab.get 0 s.xlt.hwt sel).toNat % 2 ^ 128)
    else if sel < 0x2000 then some ((Tab.get 0 s.xlt.hwt (sel - 0x1000)).toNat / 2 ^ 128) else none
  | .srm => if sel < 5120 then some (granuleWord (s.granule sel)) else none
  | .mem m => if sel < 32768 then some (granuleWord (s.granule (5120 + m.val * 32768 + sel))) else none
  | .qos =>
    let n := sel / 8
    if n ≤ 165 ∧ sel % 8 ≠ 7 then some (qosCounter (s.qport n (shownPart s n)) (sel % 8)) else none
  | .sit n =>
    let t := s.site n.val
    let hidden := match t.owner with | some p => s.sealedPart p | none => false
    if sel = 0 then some t.crustDva.toNat
    else if sel = 1 then some (if hidden then t.energy.toNat / 100 * 100 else t.energy.toNat)
    else if sel ≤ 4 then some (bits t.chainDig.toNat (128 * (sel - 2)) 128)
    else if sel ≤ 7 then some (bits t.measDig.toNat (128 * (sel - 5)) 128) else none
  | .stl => if sel < 8 then some (s.port sel).peerId.toNat else if sel < 16 then some (s.port (sel - 8)).sent.toNat else none
  | .col => if sel < 8 then some (s.cunit sel).sentBytes.toNat else none
  | .sec =>
    if sel < 3 then some (sixteen (beBytes 48 s.sec.idX.toNat) sel)
    else if sel < 6 then some (sixteen (beBytes 48 s.sec.idY.toNat) (sel - 3))
    else if sel < 9 then some (sixteen (beBytes 48 (measDigest s).toNat) (sel - 6)) else none
  | .dbg =>
    if sel < 2 then some (sixteen (leBytes 32 s.dbg.nonce.toNat) sel) else if sel = 2 then some s.lcs.otp.serial.toNat else none
  | .trc => if sel < 16384 then some (traceWord (Tab.get none s.trc.entries sel)) else none
  | .viView v =>
    match s.partOfVi v.val with
    | none => none
    | some p => if sel = 0 then some (s.part p).step.toNat else if sel = 1 then some s.clk.now.toNat else none
  | .viTel v =>
    match s.partOfVi v.val with
    | none => none
    | some p => if sel < 7 then some (partCounter s p sel) else if sel = 7 then some (Config.freeBits 64 s.free).toNat else none

/-- The group whose PARAM_REFUSED a refused SELECT sets; a VI's own virtual group otherwise. -/
def mbxGroup : MbxId → Option Nat
  | .prfStep | .prfTime => some 8
  | .pwrThrottle | .pwrEnergy => some 5
  | .vif => some 2
  | .xfe _ => some 12
  | .xlt => some 11
  | .srm => some 23
  | .mem m => some (17 + m.val)
  | .qos => some 9
  | .sit _ => some 16
  | .stl => some 14
  | .col => some 13
  | .sec => some 4
  | .dbg => some 28
  | .trc => some 15
  | .viView _ | .viTel _ => none

/-- The VI of a window's mailbox. -/
def mbxVi : MbxId → Nat
  | .viView v => v.val
  | .viTel v => v.val
  | _ => 0

/-- The unit in whose window a mailbox lies. -/
def mbxUnit : MbxId → Nat
  | .xfe n => n.val
  | .sit n => n.val
  | _ => noUnit

/-- Refuse a write at a mailbox. [DEDUCED, log entry 16] -/
def mbxRefuse (id : MbxId) (s : State) : State :=
  match mbxGroup id with
  | some g => refuseWrite g s (mbxUnit id)
  | none => viFault (mbxVi id) 0 s

/-- Store an owner's copy of a mailbox. -/
def setMbx (who : Owner2) (id : MbxId) (x : Mbx) (s : State) : State :=
  let put := fun (l : List (MbxId × Mbx)) => (id, x) :: l.filter (fun e => e.1 != id)
  match who with
  | .host => { s with mbxH := put s.mbxH }
  | .fw => { s with mbxF := put s.mbxF }

/-- MBX_SELECT_WRITE: an accepted SEL clears VALID and ERR and starts a capture, abandoning one in progress; an SEL out of range
abandons it, clears VALID and sets ERR (R50, R51, R804). -/
def mbxSelectWrite (who : Owner2) (id : MbxId) (sel : Word) (s : State) : State :=
  let x := mbxOf who id s
  if who == .host && (match mbxGroup id with | some g => frozen g s | none => false) then mbxRefuse id s
  else match mbxValue id sel.toNat s with
    | some _ => setMbx who id { x with sel := sel, busy := true, valid := false, err := false } s
    | none => mbxRefuse id (setMbx who id { x with busy := false, valid := false, err := true } s)
/-- MBX_SELECT_WRITE (R50). -/
def execMbxSelectWrite (who : Owner2) (mbx : MbxId) (sel : Word) (s : State) : Host.Outcome State Fault Refusal :=
  .next (mbxSelectWrite who mbx sel s)

/-- MBX_CAPTURE_DONE: the value as it stands at the capture tick; an entry of the trace buffer passes its check (R50, R781).
[DEDUCED, log entry 20; DESIGN CHOICE, log entry 89] -/
def mbxCaptureDone (who : Owner2) (id : MbxId) (s : State) : State :=
  let x := mbxOf who id s
  if !x.busy then s
  else
    let v := (mbxValue id x.sel.toNat s).getD 0
    let s := setMbx who id { x with busy := false, valid := true, seq := x.seq + 1, data := BitVec.ofNat 128 v } { s with free := s.free + 1 }
    if id == .trc then
      let c := checkEcc 15 1 true .clean s
      if c.1 == .uncorrectable then raise 15 1 0 c.2 else c.2
    else s
/-- MBX_CAPTURE_DONE (R50). -/
def execMbxCaptureDone (who : Owner2) (mbx : MbxId) (s : State) : Host.Outcome State Fault Refusal := .next (mbxCaptureDone who mbx s)

end Sys2Proof.Machine
end

