-- ==== Sys2Proof/Machine/RegWrite.lean ====
section
/-! DEFINITION. What a write of each register of the BAR0 blocks and of the VI windows does (R34 to R42 and the register tables of
every chapter). A register whose write is a command of its own performs that command's operation; FW_UPDATE, OTP_PROGRAM and
LCS_REQUEST, which take more than the written word, are their own rows. -/
namespace Sys2Proof.Machine
open Sys2Proof

/-- A field of a written word. -/
def wfld (v : Word) (lo len : Nat) : Nat := bits v.toNat lo len
def wbit (v : Word) (n : Nat) : Bool := v.getLsbD n

/-- A control register's commands in the order of their bits, unless one of them is refused: then the whole write is (R40).
[DESIGN CHOICE, log entry 13] -/
def ctrlWrite (g unit : Nat) (refused : Bool) (cmds : List (Bool × (State → State))) (s : State) : State :=
  if refused then refuseWrite g s unit else cmds.foldl (fun s c => if c.1 then c.2 s else s) s

/-! ### PRF (R113, R150 to R152) -/

/-- `PRF_TIME_CTRL`: a change of the time parent ends the lock; a grand master has HOPS 0. [DEDUCED, log entry 14] -/
def writeTimeCtrl (v : Word) (s : State) : State :=
  let c := s.clk
  let p : Fin 8 := Fin.ofNat 8 (wfld v 0 3)
  let ok := wbit v 3
  if p = c.parent ∧ ok = c.parentOk then s
  else { s with clk := { c with parent := p, parentOk := ok, locked := false, hops := if ok then c.hops else 0, slew := 0, reqTick := none,
                                onRef := false } }

/-- `PRF_PART_TREE`: written only in STOPPED, HELD or BROKEN, DOMAIN_SIZE 1 to 1,024, 0 refused; D is measured anew (R126, R150). -/
def writeTree (p : Nat) (v : Word) (s : State) : State :=
  let x := s.part p
  let n := wfld v 16 11
  if x.active || n = 0 then refuseWrite 8 s
  else
    s.setPart p { x with treeNew := true, regroup := x.regroup || x.state == .broken,
                         cfg := { x.cfg with proofChild := BitVec.ofNat 8 (wfld v 0 8), proofParent := Fin.ofNat 8 (wfld v 8 3), parentValid := wbit v 11,
                                             domainSize := min 1024 n } }

/-- [DESIGN CHOICE, log entry 13; DEDUCED, log entry 14] -/
def writePart (p o : Nat) (v : Word) (s : State) : State :=
  let x := s.part p
  match o with
  | 0x04 =>
    ctrlWrite 8 noUnit (wbit v 1 && !canRelease s p)
      [(wbit v 0, partHold p), (wbit v 2, fun s => s.modPart p (fun x => { x with remeasure := true })), (wbit v 1, partRelease p)] s
  | 0x08 =>
    let n := clampTo 100 1000000 v.toNat
    s.setPart p { x with cfg := { x.cfg with lateLimit := n, proofTimeout := max n x.cfg.proofTimeout } }
  | 0x0C => s.setPart p { x with cfg := { x.cfg with proofTimeout := clampTo (max 1000 x.cfg.lateLimit) 10000000 v.toNat } }
  | 0x14 => writeTree p v s
  | 0x20 => if starterOpen s p then s.setPart p { x with seedLo := v } else refuseWrite 8 s
  | 0x24 => if starterOpen s p then s.setPart p { x with seedHi := v } else refuseWrite 8 s
  | 0x28 => starterArm p v s
  | 0x2C => if x.active then refuseWrite 8 s else s.setPart p { x with stepLo := v }
  | 0x30 => stepCounterArm p v s
  | 0x38 => s.setPart p { x with benchPct := min 90 (wfld v 0 8) }
  | _ => s

def writePrf (o : Nat) (v : Word) (s : State) : State :=
  if 0x1000 ≤ o ∧ o < 0x2000 then writePart ((o - 0x1000) / 0x40) (o % 0x40) v s
  else match o with
    | 0x0 => writeTimeCtrl v s
    | 0x14 => { s with siteAck := s.siteAck &&& ~~~ (v.setWidth 18) }
    | _ => s

/-! ### FAB, XFE, XLT (R202, R318, R321) -/

def writeFab (q o : Nat) (v : Word) (s : State) : State :=
  if 0x100 ≤ o ∧ o < 0x300 ∧ o % 0x10 = 4 then
    let k := q * 32 + (o - 0x100) / 0x10
    ctrlWrite (24 + q) noUnit (wbit v 1 && (s.col k).spare) [(wbit v 0, requestColFence k), (wbit v 1, requestColRemap k (wfld v 2 4))] s
  else s

/-- [DESIGN CHOICE, log entry 13] -/
def writeXfe (e o : Nat) (v : Word) (s : State) : State :=
  if o = 0x60 then
    ctrlWrite 12 e (wbit v 2 && (s.xfe e).run != .fenced) [(wbit v 0, xfeAbort e), (wbit v 1, requestXfeFence e), (wbit v 2, requestXfeReadmit e)] s
  else s

def writeXlt (who : Owner2) (o : Nat) (v : Word) (s : State) : State :=
  if o = 0x100 then s.setReg 0xB0100 0 (BitVec.ofNat 32 (wfld v 0 12))
  else if 0x104 ≤ o ∧ o ≤ 0x120 then s.setReg (0xB0000 + o) 0 v
  else if o = 0x124 then (if wbit v 0 then hwtCommit who s else s)
  else s

/-! ### SRM, MEM (R360, R362) -/

def writeSrm (o : Nat) (v : Word) (s : State) : State :=
  if 0x100 ≤ o ∧ o < 0x500 ∧ o % 0x10 = 8 then
    let b := (o - 0x100) / 0x10
    ctrlWrite 23 noUnit (wbit v 1 && !(s.bank b).fenced) [(wbit v 0, requestBankFence b), (wbit v 1, requestBankReadmit b)] s
  else if 0x800 ≤ o ∧ o < 0x900 ∧ o % 0x10 = 0 then cohWinWrite ((o - 0x800) / 0x10) v s
  else s

def writeMem (m o : Nat) (v : Word) (s : State) : State :=
  if 0x100 ≤ o ∧ o < 0x300 ∧ o % 0x10 = 0xC then
    let ch := (o - 0x100) / 0x10
    let c := m * 32 + ch
    ctrlWrite (17 + m) noUnit (wbit v 1 && !(s.chan c).fenced)
      [(wbit v 0, requestChanFence c), (wbit v 1, memChReadmit m ch)] s
  else if o = 4 then
    let h := wfld v 0 8
    s.setReg (0x200004 + m * 0x10000) 0x18 (BitVec.ofNat 32 (if h = 0 then 0 else min 168 h))
  else s

/-! ### QOS (R394, R397) -/

/-- Change a port's register values for the partition shown: at once, or at the partition's next release while it runs (R394). -/
def putQos (n : Nat) (f : Nat × Nat × Nat × Nat × Nat × Nat → Nat × Nat × Nat × Nat × Nat × Nat) (s : State) : State :=
  let p := shownPart s n
  putQosValues n p (f (qosValues (s.qport n p))) s

def writeQosPort (n o : Nat) (v : Word) (s : State) : State :=
  match o with
  | 0x00 => if (s.qport n (wfld v 0 6)).hasRec then { s with noc := { s.noc with shown := Tab.set 0 s.noc.shown n (wfld v 0 6) } } else refuseWrite 9 s
  | 0x04 => putQos n (fun q => (clampTo 1 256 (wfld v 0 9), clampTo 1 64 (wfld v 16 7), min 5 (wfld v 24 3), q.2.2.2)) s
  | 0x08 =>
    let t := wfld v 0 24
    putQos n (fun q => (q.1, q.2.1, q.2.2.1, if t = 0 then 0 else max 64 t, q.2.2.2.2)) s
  | 0x0C => putQos n (fun q => (q.1, q.2.1, q.2.2.1, q.2.2.2.1, clampTo 1 48 (wfld v 0 6), clampTo 1 24 (wfld v 8 5))) s
  | _ => s

def writeQos (o : Nat) (v : Word) (s : State) : State :=
  if 0x1000 ≤ o ∧ o < 0x1000 + 166 * 0x20 then writeQosPort ((o - 0x1000) / 0x20) (o % 0x20) v s
  else if 0x100 ≤ o ∧ o < 0x300 then
    if o % 8 = 0 then s else putMiss ((o - 0x100) / 8) (wfld v 0 16) (clampTo 1 1000 (wfld v 16 10)) s
  else match o with
    | 0x0 => { s with noc := { s.noc with missPart := s.noc.missPart &&& ~~~ (v.setWidth 64) } }
    | 0x4 => { s with noc := { s.noc with missPart := s.noc.missPart &&& ~~~ ((v.setWidth 64) <<< 32) } }
    | _ => s

/-! ### SIT, STL, COL (R442, R532, R535) -/

/-- [DESIGN CHOICE, log entry 13] -/
def writeSit (n o : Nat) (v : Word) (s : State) : State :=
  let t := s.site n
  match o with
  | 0x58 => s.setReg (0x100058 + n * 0x1000) 0x40 (BitVec.ofNat 32 (max 1 (wfld v 0 16)))
  | 0x60 =>
    let any := wbit v 0 || wbit v 1 || wbit v 2
    ctrlWrite 16 n ((any && t.upper) || (wbit v 1 && t.state != .fenced))
      [(wbit v 0, sitFence n), (wbit v 1, sitReadmit n), (wbit v 2, sitRetrain n)] s
  | 0x64 => sitVsetWrite n v s
  | _ => s

def writeStl (o : Nat) (v : Word) (s : State) : State :=
  if 0x100 ≤ o ∧ o < 0x200 then
    let n := (o - 0x100) / 0x20
    match o % 0x20 with
    | 0x14 =>
      ctrlWrite 14 n (wbit v 1 && (s.port n).state != .fenced)
        [(wbit v 0, stlPortFence n), (wbit v 1, stlPortReadmit n), (wbit v 2, retrain n)] s
    | 0x18 => s.setReg (0xE0118 + n * 0x20) 1 (BitVec.ofNat 32 (clampTo 1 4 (wfld v 0 3)))
    | _ => s
  else s

def writeCol (o : Nat) (v : Word) (s : State) : State :=
  if 0x100 ≤ o ∧ o < 0x200 ∧ o % 0x20 = 0xC then
    let c := (o - 0x100) / 0x20
    ctrlWrite 13 c (wbit v 2 && (s.cunit c).run != .fenced) [(wbit v 0, abortOp c), (wbit v 1, requestCunitFence c), (wbit v 2, colReadmit c)] s
  else s

/-! ### HST, VIF, SEC, DBG (R579, R581, R618, R655) -/

def writeHst (o : Nat) (v : Word) (s : State) : State :=
  match o with
  | 0x08 => hstAttach v s
  | 0x10 => { s with host := { s.host with drvRenew := s.clk.now } }
  | 0x14 => s.setReg 0x10014 0x3E8 (BitVec.ofNat 32 (clampTo 100 60000 (wfld v 0 16)))
  | 0x18 => if wbit v 0 then stopDma 1 s else s
  | _ => s

def writeVif (o : Nat) (v : Word) (s : State) : State :=
  match o with
  | 0x0 => if wfld v 0 10 = 0 then refuseWrite 2 s else s.setReg 0x20000 1 (BitVec.ofNat 32 (wfld v 0 10))
  | 0x8 => ctrlWrite 2 noUnit false [(wbit v 0, requestQuiesce (pfSel s) none), (wbit v 1, vifDetach (pfSel s))] s
  | _ => s

def writeSec (o : Nat) (v : Word) (s : State) : State :=
  if o = 0x10 ∧ wbit v 31 then (if wfld v 0 10 = 0 then refuseWrite 4 s else endSession (wfld v 0 10) 2 s) else s

def writeDbg (o : Nat) (v : Word) (s : State) : State := if o = 0x8 ∧ wbit v 0 then closeDebug s else s

/-! ### PWR, THM, FLT (R680, R689 to R693, R717) -/

/-- A written share is clamped so that the written shares together stay at or below A (R680). -/
def writeShare (p : Nat) (v : Word) (s : State) : State :=
  let others := (s.pwr.shares.filter (fun e => e.1 != p)).foldl (fun a e => a + e.2) 0
  { s with pwr := { s.pwr with shares := Tab.set 0 s.pwr.shares p (min (wfld v 0 13) (s.pwr.avail - others)) } }

/-- A PRIORITY names each of the three groups once (R689). -/
def priorityOk (v : Nat) : Bool :=
  let l := groupOrder v
  l.all (fun g => decide (g < 3)) && l.eraseDups.length == 3

def writePwr (o : Nat) (v : Word) (s : State) : State :=
  let x := s.pwr
  if 0x100 ≤ o ∧ o < 0x300 then (if o % 8 = 0 then writeShare ((o - 0x100) / 8) v s else s)
  else match o with
    | 0x08 => { s with pwr := { x with seen := x.seen &&& ~~~ (v.setWidth 10) } }
    | 0x18 => { s with pwr := { x with avgLimit := clampTo 500 (max 500 (pIn s)) (wfld v 0 13), avgWindow := clampTo 1 60 (wfld v 16 8) } }
    | 0x20 => if priorityOk (wfld v 0 6) then { s with pwr := { x with priority := wfld v 0 6 } } else refuseWrite 5 s
    | 0x24 => { s with pwr := { x with peak := clampTo 50 108 (wfld v 0 7) } }
    | 0x28 =>
      let lo := min 48 (wfld v 8 6)
      holdFclk { s with pwr := { x with fclkMin := lo, fclkMax := clampTo lo 48 (wfld v 16 6), pacing := wfld v 24 6 } }
    | _ => s

def writeThm (o : Nat) (v : Word) (s : State) : State :=
  if o = 4 then { s with thm := { s.thm with cHub := clampTo 60 95 (wfld v 0 8), cSite := clampTo 60 95 (wfld v 8 8), cHbm := clampTo 60 85 (wfld v 16 8) } }
  else s

def writeFlt (o : Nat) (v : Word) (s : State) : State :=
  if o = 0xC then
    let t := wfld v 0 5
    setThreshold (if t = 0 then 0 else clampTo 2 29 t) s
  else s

/-- A fault group's registers (R52, R696): each write of a row of its own performs that row's operation. -/
def writeGroup (g o : Nat) (v : Word) (s : State) : State :=
  match o with
  | 0x00 => clearBits g v s
  | 0x04 => faultMaskWrite g v s
  | 0x08 => faultInjectArm g v s
  | 0x0C => s.setGrp g { s.grp g with grace := min 60000000 (wfld v 0 26) }
  | 0x10 => faultActionWrite g v s
  | 0x14 => ackBits g v s
  | 0x18 => if hasUnits g && g != 2 then s.setGrp g { s.grp g with unitReg := (s.grp g).unitReg &&& ~~~ (v.setWidth 64) } else s
  | 0x1C => if g = 12 then s.setGrp g { s.grp g with unitReg := (s.grp g).unitReg &&& ~~~ ((v.setWidth 64) <<< 32) } else s
  | _ => s

/-! ### MGT, TRC (R44, R757, R778, R780) -/

/-- An owner's indirect pair after a change. -/
def setInd (who : Owner2) (i : Ind) (s : State) : State := match who with | .host => { s with indH := i } | .fw => { s with indF := i }

/-- `MGT_IND_ADDR`. -/
def writeIndAddr (who : Owner2) (v : Word) (s : State) : State :=
  let i := indOf who s
  setInd who { i with autoInc := wbit v 31, err := i.err && !wbit v 30, addr := BitVec.ofNat 30 (wfld v 2 28 * 4) } s

/-- A GO with an opcode: the commands that need nothing beyond the mailbox's words (R757, R758). [DESIGN CHOICE, log entry 12] -/
def mailboxGo (op : Nat) (tag : BitVec 8) (s : State) : State :=
  let run := fun (f : State → State) => mbCommand op tag f s
  match op with
  | 0x01 => run (fun s => mbEnd .ok ([mgtStatus s] ++ (List.range 3).map (slotVersion s.mgt.flash)) s)
  | 0x02 => run loadImage
  | 0x03 => run readReport
  | 0x04 => run writeBootImage
  | 0x10 => s
  | 0x11 => run peelCancel
  | 0x12 => run advanceRollback
  | 0x20 => run mapDevice
  | 0x21 => run unmapDevice
  | 0x30 => run retryStart
  | 0x31 => run (fun s => if mbArg s 0 % 2 = 0 then recoveryBegin s else recoveryRun s)
  | 0x32 => run (fun s => mbEnd .ok [] { s with mgt := { s.mgt with coldReq := true } })
  | 0x40 => s
  | _ => run (mbEnd .aborted [])

def writeMgt (who : Owner2) (o : Nat) (v : Word) (s : State) : State :=
  let m := s.mgt
  if 0x140 ≤ o ∧ o < 0x180 then { s with mgt := { m with args := Tab.set 0 m.args ((o - 0x140) / 4) v } }
  else match o with
    | 0x0C => { s with mgt := { m with wdtPeriod := clampTo 100 10000 (wfld v 0 16) } }
    | 0x40 => writeIndAddr who v s
    | 0x100 => if wbit v 31 then mailboxGo (wfld v 0 8) (BitVec.ofNat 8 (wfld v 8 8)) s else s
    | 0x104 => { s with mgt := { m with done := m.done && !wbit v 2 } }
    | 0x200 => rcvDataWrite v s
    | _ => s

def writeTrc (o : Nat) (v : Word) (s : State) : State :=
  let t := s.trc
  if 0x10 ≤ o ∧ o < 0x30 then
    { s with trc := { t with enable := BitVec.ofNat 256 (setBits 256 t.enable.toNat (32 * ((o - 0x10) / 4)) 32 v.toNat) } }
  else if o = 0 then { s with trc := { t with run := wbit v 0, stopFull := wbit v 1, trigger := wfld v 8 8, trigEn := wbit v 16 } }
  else s

/-! ### BAR0 -/

/-- RW registers of the blocks of R763, by offset in the block. [DEDUCED, log entry 16] -/
def rwPolicy (g o : Nat) : Bool :=
  decide (0xF004 ≤ o ∧ o ≤ 0xF010) ||
  (if g = 5 then decide (0x100 ≤ o ∧ o < 0x300 ∧ o % 8 = 0) || [0x18, 0x20, 0x24, 0x28].contains o
   else if g = 6 then o == 4
   else decide (0x100 ≤ o ∧ o < 0x300 ∧ o % 8 = 4) || (decide (0x1000 ≤ o ∧ o < 0x1000 + 166 * 0x20) && decide (o % 0x20 ≤ 0xC)))

/-- A write of a BAR0 register. [DESIGN CHOICE, log entry 12] -/
def writeBar0 (who : Owner2) (a : Nat) (v : Word) (s : State) : State :=
  match mbxAt a with
  | some (id, o) => if o = 0 then mbxSelectWrite who id v s else s
  | none =>
    match groupAt a with
    | none => s
    | some g =>
      if who == .host && frozen g s && rwPolicy g (a % 0x10000) then refuseWrite g s
      else if groupBase g ≤ a ∧ a < groupBase g + 0x40 then writeGroup g (a - groupBase g) v s
      else
        let o := a % 0x10000
        match g with
        | 0 => writeMgt who o v s
        | 1 => writeHst o v s
        | 2 => writeVif o v s
        | 3 => s
        | 4 => writeSec o v s
        | 5 => writePwr o v s
        | 6 => writeThm o v s
        | 7 => writeFlt o v s
        | 8 => writePrf o v s
        | 9 => writeQos o v s
        | 10 => s
        | 11 => writeXlt who o v s
        | 12 => writeXfe (o / 0x400) (o % 0x400) v s
        | 13 => writeCol o v s
        | 14 => writeStl o v s
        | 15 => writeTrc o v s
        | 16 => writeSit ((a - 0x100000) / 0x1000) (a % 0x1000) v s
        | 23 => if a < 0x310000 then writeSrm o v s else s
        | 28 => if a < 0x810000 then writeDbg o v s else s
        | g => if g < 23 then writeMem (g - 17) o v s else if (a - 0x400000) % 0x40000 < 0x10000 then writeFab (g - 24) o v s else s

/-! ### VI windows (R554 to R559, R583, R621) -/

/-- A ring size: 0, or a power of two from 16 to 65,536 at or below the value (R558). [DESIGN CHOICE, log entry 15] -/
def ringSize (n : Nat) : Nat := if n = 0 then 0 else 2 ^ Nat.log2 (clampTo 16 65536 n)

/-- A write to the key and nonce words of the handshake: refused while STATE is BUSY (R622). -/
def putSealBytes (v o : Nat) (val : Word) (s : State) : State :=
  let x := s.sealOf v
  let put := fun (len base old : Nat) =>
    let k := o - base
    let b := beBytes len old
    beNat (b.take k ++ leBytes 4 val.toNat ++ b.drop (k + 4))
  if x.state == .busy then viFault v 0 s
  else if o < 0x8A0 then s.setSeal v { x with qt := BitVec.ofNat 768 (put 96 0x840 x.qt.toNat) }
  else s.setSeal v { x with nt := BitVec.ofNat 256 (put 32 0x8A0 x.nt.toNat) }

/-- A base register's new value: 48 bits with the low half or the high half replaced. -/
def baseLo (b : Dva) (v : Word) : Dva := BitVec.ofNat 48 (b.toNat / 2 ^ 32 * 2 ^ 32 + v.toNat)
def baseHi (b : Dva) (v : Word) : Dva := BitVec.ofNat 48 (wfld v 0 16 * 2 ^ 32 + b.toNat % 2 ^ 32)

/-- Ring registers: refused while the VI is ATTACHED, on a broken alignment, and on a base below the host window (R557 to R559).
[DESIGN CHOICE, log entry 15] -/
def writeRing (v o : Nat) (val : Word) (s : State) : State :=
  let x := s.vi v
  if x.state == .attached then viFault v 0 s
  else match o with
    | 0x200 => if wfld val 0 6 ≠ 0 then viFault v 0 s else s.setVi v { x with cmdBase := baseLo x.cmdBase val }
    | 0x204 => if wbit val 15 then s.setVi v { x with cmdBase := baseHi x.cmdBase val } else viFault v 0 s
    | 0x208 => s.setVi v { x with cmdSize := ringSize (wfld val 0 17), depth := clampTo 1 4 (wfld val 24 3) }
    | 0x300 => if wfld val 0 5 ≠ 0 then viFault v 0 s else s.setVi v { x with cplBase := baseLo x.cplBase val }
    | 0x304 => if wbit val 15 then s.setVi v { x with cplBase := baseHi x.cplBase val } else viFault v 0 s
    | 0x308 => s.setVi v { x with cplSize := ringSize (wfld val 0 17) }
    | _ => s

/-- A head of the completion ring that the tenant may write: an index of the ring from the present head on and not beyond the
tail (R578). -/
def headOk (x : Vi) (n : Nat) : Bool :=
  if x.cplSize = 0 then n == 0
  else decide (n < x.cplSize) &&
    decide ((n + x.cplSize - x.cplHead % x.cplSize) % x.cplSize ≤ (x.cplTail + x.cplSize - x.cplHead % x.cplSize) % x.cplSize)

/-- A write of a VI window's register; refused for a VI in no enabled partition (R583). [DESIGN CHOICE, log entry 15] -/
def writeBar2 (v o : Nat) (val : Word) (s : State) : State :=
  let x := s.vi v
  match s.partOfVi v with
  | none => if o = 0x100 then vifAttach v val s else viFault v 0 s
  | some _ =>
    if 0x840 ≤ o ∧ o < 0x8C0 then putSealBytes v o val s
    else if [0x200, 0x204, 0x208, 0x300, 0x304, 0x308].contains o then writeRing v o val s
    else match o with
      | 0x0100 => vifAttach v val s
      | 0x0108 => s.setVi v { x with features := BitVec.ofNat 2 (wfld val 0 2) }
      | 0x010C => vifLease v s
      | 0x0110 => s.setVi v { x with period := clampTo 10 10000 (wfld val 0 14) }
      | 0x0114 => if wbit val 0 then vifDetach v s else s
      | 0x0310 => if headOk x (wfld val 0 16) then deliverHeld v (s.setVi v { x with cplHead := wfld val 0 16 }) else viFault v 0 s
      | 0x0400 => s.setVi v { x with intEn := BitVec.ofNat 5 (wfld val 0 5) }
      | 0x0404 => s.setVi v { x with intPend := x.intPend &&& ~~~ (BitVec.ofNat 5 (wfld val 0 5)) }
      | 0x0800 => if wfld val 0 2 = 1 then sealOpenStart v s else if wfld val 0 2 = 2 then endSession v 1 s else s
      | 0x0804 => s.setSeal v { s.sealOf v with changed := (s.sealOf v).changed && !wbit val 2 }
      | 0x1040 => mbxSelectWrite .host (.viView (Fin.ofNat 1024 v)) val s
      | 0x2040 => mbxSelectWrite .host (.viTel (Fin.ofNat 1024 v)) val s
      | 0x3000 => s.setVi v { x with vstatus := x.vstatus &&& ~~~ (BitVec.ofNat 7 (wfld val 0 7)) }
      | 0x3004 => s.setVi v { x with vmask := BitVec.ofNat 7 (wfld val 0 7) }
      | _ => s

end Sys2Proof.Machine
end

