-- ==== Sys2Proof/Machine/Regs.lean ====
section
/-! DEFINITION. Register accesses as commands: BAR and private-path reads and writes, the indirect pair, register packets on the
NoC (R31 to R48, R369, R540, R541, R743). -/
namespace Sys2Proof.Machine
open Sys2Proof

/-! ### What serves a read -/

/-- Whether a block answers: in flatbread mode only MGT, HST, LCS and FLT run (R743). [DEDUCED, log entry 17] -/
def blockUp (s : State) (a : Nat) : Bool :=
  s.mgt.stage != .flatbread || (match groupAt a with | some g => g == 0 || g == 1 || g == 3 || g == 7 | none => true)

/-- An access path's owner: the host driver's registers or firmware's copies. [DEDUCED, log entry 11] -/
def pathOwner : RegPath → Owner2
  | .fw => .fw
  | _ => .host

/-! ### RC fields (R34) -/

/-- Clear the RC fields of a BAR0 register. -/
def clearRc (a : Nat) (s : State) : State :=
  let o := a % 0x10000
  if (mbxAt a).isSome then s
  else match groupAt a with
    | some 0 => if o = 0x0C then { s with mgt := { s.mgt with wdtExp := 0 } } else s
    | some 7 => if o = 0x14 then { s with flt := { s.flt with escal := 0 } } else s
    | some 8 =>
      if 0x1000 ≤ o ∧ o < 0x2000 then
        let p := (o - 0x1000) / 0x40
        if o % 0x40 = 0x18 then s.modPart p (fun x => { x with stretchN := 0 })
        else if o % 0x40 = 0x1C then s.modPart p (fun x => { x with stretchMax := 0 }) else s
      else s
    | some 9 =>
      if 0x1000 ≤ o ∧ o < 0x1000 + 166 * 0x20 ∧ o % 0x20 = 0x1C then
        let n := (o - 0x1000) / 0x20
        let p := shownPart s n
        s.setQport n p { s.qport n p with missRc := 0 }
      else s
    | some 10 =>
      { s with noc := { s.noc with flitCe := if o = 4 then 0 else s.noc.flitCe, drops := if o = 8 then 0 else s.noc.drops,
                                   timeouts := if o = 0xC then 0 else s.noc.timeouts } }
    | some 11 =>
      { s with xlt := { s.xlt with invCount := if o = 4 then 0 else s.xlt.invCount, invMax := if o = 8 then 0 else s.xlt.invMax,
                                   l2Hits := if o = 0xC then 0 else s.xlt.l2Hits, l2Misses := if o = 0x10 then 0 else s.xlt.l2Misses,
                                   prqCount := if o = 0x14 then 0 else s.xlt.prqCount } }
    | some 12 =>
      let e := o / 0x400
      if o % 0x400 = 0x64 then s.setXfe e { s.xfe e with taken := 0, unresolved := 0 } else s
    | some 13 =>
      if 0x100 ≤ o ∧ o < 0x200 ∧ o % 0x20 = 0x10 then
        let c := (o - 0x100) / 0x20
        s.setCunit c { s.cunit c with stall := 0 }
      else s
    | some 14 =>
      if 0x100 ≤ o ∧ o < 0x200 then
        let n := (o - 0x100) / 0x20
        let q := s.port n
        let r := o % 0x20
        s.setPort n { q with corrected := if r = 8 then 0 else q.corrected, uncorr := if r = 0xC then 0 else q.uncorr,
                             replays := if r = 0x10 then 0 else q.replays }
      else s
    | some 16 =>
      let n := (a - 0x100000) / 0x1000
      let r := a % 0x1000
      s.modSite n (fun t => { t with crustN := if r = 0x50 then 0 else t.crustN, retrains := if r = 0x5C then 0 else t.retrains })
    | some 23 =>
      if a < 0x310000 ∧ 0x100 ≤ o ∧ o < 0x500 ∧ o % 0x10 = 4 then
        let b := (o - 0x100) / 0x10
        s.setBank b { s.bank b with ce := 0 }
      else s
    | some g =>
      if 17 ≤ g ∧ g ≤ 22 then
        (if 0x100 ≤ o ∧ o < 0x300 ∧ o % 0x10 = 4 then
          let c := (g - 17) * 32 + (o - 0x100) / 0x10
          s.setChan c { s.chan c with ce := 0, ue := 0 }
        else s)
      else if 24 ≤ g ∧ g ≤ 27 ∧ (a - 0x400000) % 0x40000 < 0x10000 then
        let q := g - 24
        if 0x100 ≤ o ∧ o < 0x300 then
          let k := q * 32 + (o - 0x100) / 0x10
          s.setCol k { s.col k with busy := if o % 0x10 = 8 then 0 else (s.col k).busy, waitc := if o % 0x10 = 0xC then 0 else (s.col k).waitc }
        else s.setQuad q { s.quad q with ce := if o = 4 then 0 else (s.quad q).ce, fCount := if o = 8 then 0 else (s.quad q).fCount }
      else s
    | none => s

/-! ### The indirect pair (R44 to R48) -/

/-- Regions of the indirect space (R47). -/
inductive IndRegion where
  | phy | otp | cells | log | reserved
  deriving DecidableEq, Repr

def indRegion (a : Nat) : IndRegion :=
  if a < 0x06000000 then .phy
  else if 0x10000000 ≤ a ∧ a < 0x14800000 then .phy
  else if 0x20000000 ≤ a ∧ a < 0x21000000 then .phy
  else if 0x28000000 ≤ a ∧ a < 0x28010000 then .otp
  else if 0x30000000 ≤ a ∧ a < 0x32200000 then .cells
  else if 0x38000000 ≤ a ∧ a < 0x38100000 then .log
  else .reserved

/-- The logical cell that a physical cell holds, if it holds one (R155, R190). -/
def cellAt (s : State) (q phys : Nat) : Option Nat :=
  let sp := cellSpot q phys
  let c := s.col sp.1
  let row : Option Nat :=
    if !c.spare then (if sp.2 < 16 then some sp.2 else none)
    else if sp.2 = c.bypass then none else some (if sp.2 < c.bypass then sp.2 else sp.2 - 1)
  row.map (fun r => sp.1 * 16 + r)

/-- Where an address of the readback region lies: quadrant, physical cell, slot, word (R48). -/
def cellPlace (a : Nat) : Nat × Nat × Nat × Nat :=
  let i := (a - 0x30000000) / 0x4000
  (i / 544, i % 544, a % 0x4000 / 0x800, a % 0x800 / 4)

/-- An entry of the log ring as its 32 B (R773). [DESIGN CHOICE, log entry 18] -/
def logBytes (e : Option LogEntry) : Nat :=
  match e with
  | none => 0
  | some x => pk [(0, 64, x.tick.toNat), (64, 32, x.seq.toNat), (96, 8, x.src), (104, 2, x.sev), (112, 16, x.code.toNat),
                  (128, 32, x.arg0.toNat), (160, 32, x.arg1.toNat), (192, 32, x.arg2.toNat), (224, 32, x.arg3.toNat)]

/-- What firmware last wrote at an indirect address with no other state, or the next free value where it wrote nothing.
[DESIGN CHOICE, log entry 18] -/
def indStored (s : State) (a : Nat) : Nat :=
  match Tab.get none s.indMem (a / 4) with
  | some w => w.toNat
  | none => (Config.freeBits 32 s.free).toNat

/-- The word at an indirect address: the contents of PHY registers, of the OTP shadow beyond the defect map, and of a physical cell that
holds no logical cell are not given: they read what firmware wrote there, else the next free value. [DESIGN CHOICE, log entry 18] -/
def indRead (s : State) (a : Nat) : Nat :=
  match indRegion a with
  | .phy => indStored s a
  | .otp =>
    if 0x28004000 ≤ a ∧ a < 0x28008000 ∧ (Tab.get none s.indMem (a / 4)).isNone then
      let i := (a - 0x28004000) / 8
      let e := (s.lcs.otp.defects.getD i 0).toNat
      if a % 8 < 4 then e % 2 ^ 32 else e / 2 ^ 32
    else indStored s a
  | .cells =>
    let p := cellPlace a
    match cellAt s p.1 p.2.1 with
    | some n => bits (Tab.get 0 (s.cell n).slots p.2.2.1).toNat (32 * p.2.2.2) 32
    | none => indStored s a
  | .log => bits (logBytes (Tab.get none s.mgt.log ((a - 0x38000000) / 32))) (a % 32 / 4 * 32) 32
  | .reserved => 0

/-- Whether a word is word `i` of a slot image of the loaded image (R165). -/
def slotWordOfImage (s : State) (i : Nat) (v : Word) : Bool :=
  (loadedRecs s).any (fun r => r.sec == 4 && bfld (r.body.drop (r.body.length - 2048)) (4 * i) 0 32 == v.toNat)

/-- Keep what firmware wrote at an indirect address. -/
def indStore (a : Nat) (v : Word) (s : State) : State := { s with indMem := Tab.set none s.indMem (a / 4) (some v) }

/-- Firmware's write at an indirect address: a slot's word, only while the column takes configuration and only with a word of a slot
image of the loaded image (R165, R186); a log entry; elsewhere the word is kept for later reads. [DESIGN CHOICE, log entry 18] -/
def indWrite (a : Nat) (v : Word) (s : State) : State :=
  match indRegion a with
  | .cells =>
    let p := cellPlace a
    if !cfgOpen s (cellSpot p.1 p.2.1).1 || !slotWordOfImage s p.2.2.2 v then s
    else
    (match cellAt s p.1 p.2.1 with
     | some n =>
       let c := s.cell n
       let w := BitVec.ofNat 16384 (setBits 16384 (Tab.get 0 c.slots p.2.2.1).toNat (32 * p.2.2.2) 32 v.toNat)
       s.setCell n { c with slots := Tab.set 0 c.slots p.2.2.1 w }
     | none => indStore a v s)
  | .log =>
    let i := (a - 0x38000000) / 32
    let w := setBits 256 (logBytes (Tab.get none s.mgt.log i)) (a % 32 / 4 * 32) 32 v.toNat
    let e : LogEntry := { tick := BitVec.ofNat 64 (bits w 0 64), seq := BitVec.ofNat 32 (bits w 64 32), src := bits w 96 8, sev := bits w 104 2,
                          code := BitVec.ofNat 16 (bits w 112 16), arg0 := BitVec.ofNat 32 (bits w 128 32), arg1 := BitVec.ofNat 32 (bits w 160 32),
                          arg2 := BitVec.ofNat 32 (bits w 192 32), arg3 := BitVec.ofNat 32 (bits w 224 32) }
    { s with mgt := { s.mgt with log := Tab.set none s.mgt.log i (some e) } }
  | .reserved => s
  | _ => indStore a v s

/-- Whether a pair's access is forbidden: a reserved address, the host driver's write, or the repair state of a stack in SCRAPPED
(R44, R47, R353). -/
def indForbidden (s : State) (who : Owner2) (write : Bool) (a : Nat) : Bool :=
  indRegion a == .reserved || (who == .host && write) || (decide (a < 0x06000000) && lifeCycle s == 4)

/-- The value an access of `MGT_IND_DATA` returns. -/
def indValue (who : Owner2) (s : State) : Nat :=
  let a := (indOf who s).addr.toNat
  if indForbidden s who false a then 0 else indRead s a

/-- An access of `MGT_IND_DATA`: one word at ADDR; a forbidden one sets ERR and has no effect; ADDR advances by 4 under AUTO_INC
(R44 to R46). -/
def indAccess (who : Owner2) (write : Bool) (v : Word) (s : State) : State :=
  let i := indOf who s
  let a := i.addr.toNat
  let bad := indForbidden s who write a
  let s := if write && !bad then indWrite a v s else s
  setInd who { i with err := i.err || bad, addr := if i.autoInc then BitVec.ofNat 30 (a + 4) else i.addr } s

/-- The path that an owner's reads take. -/
def ownerPath : Owner2 → RegPath
  | .host => .bar0
  | .fw => .fw

/-- IND_DATA_ACCESS (R45). -/
def indDataAccess (who : Owner2) (write : Bool) (v : Word) (s : State) : State :=
  let t := indAccess who write v s
  if write then t else (t.emit (.readValue (ownerPath who).tlp (ownerPath who) 0x44 (BitVec.ofNat 32 (indValue who s)))).spend
def execIndDataAccess (who : Owner2) (write : Bool) (val : Word) (s : State) : Host.Outcome State Fault Refusal :=
  .next (indDataAccess who write val s)

/-! ### Reads (R32 to R34, R541) -/

/-- The value of a register on a path. [DESIGN CHOICE, log entry 18] -/
def regValue (path : RegPath) (a : Nat) (s : State) : Nat :=
  match path with
  | .bar2 => if a / 0x10000 = 0 ∨ 1024 ≤ a / 0x10000 then 0 else readBar2 s (a / 0x10000) (a % 0x10000)
  | .bar4 => readBar4 s a
  | _ => if a = 0x44 then indValue (pathOwner path) s else readBar0 (pathOwner path) s a

/-- A read of an aligned word: its value goes out, then its RC fields clear; a read of `MGT_IND_DATA` advances its pair.
[DEDUCED, log entry 11] -/
def readReg (path : RegPath) (a : Nat) (s : State) : State :=
  let v := regValue path a s
  let t := match path with
    | .bar2 | .bar4 => s
    | _ => if a = 0x44 then indAccess (pathOwner path) false 0 s else clearRc a s
  (t.emit (.readValue path.tlp path a (BitVec.ofNat 32 v))).spend

/-- REG_READ_TIMEOUT: all ones and REG_TIMEOUT (R541). [DEDUCED, log entry 17] -/
def readTimeout (path : RegPath) (a : Nat) (s : State) : State := raise 1 1 0 (s.emit (.readValue path.tlp path a 0xFFFFFFFF#32))
def execRegReadTimeout (addr : Nat) (s : State) : Host.Outcome State Fault Refusal := .next (readTimeout .bar0 (addr / 4 * 4) s)

/-- A block that does not run in flatbread mode cannot answer a read. [DEDUCED, log entry 17] -/
def servedPath (path : RegPath) (a : Nat) (s : State) : Bool :=
  match path with
  | .bar0 => blockUp s a
  | .bar2 => s.mgt.stage != .flatbread
  | _ => true

/-- A read of an aligned word, or its timeout where the block does not run. -/
def readWord (path : RegPath) (a : Nat) (s : State) : State :=
  if servedPath path a s then readReg path a s else readTimeout path a s

/-- REG_READ_CLEAR: a read of a register, which clears its RC fields; a 64-bit access is two 32-bit accesses, the lower address first
(R33, R34). -/
def execRegReadClear (path : ReadPath) (addr : Nat) (s : State) : Host.Outcome State Fault Refusal :=
  let a := addr / 4 * 4
  let s := readWord path.path a s
  .next (if path.wide then readWord path.path (a + 4) s else s)

/-! ### Writes (R32 to R35, R57) -/

/-- A 32-bit write with its byte enables: one that does not cover the register is discarded. [DEDUCED, log entry 11] -/
def writeReg (path : RegPath) (a : Nat) (v : Word) (be : Nat) (s : State) : State :=
  if be ≠ 15 || !servedPath path a s then s
  else match path with
    | .bar4 => s
    | .bar2 => if a / 0x10000 = 0 ∨ 1024 ≤ a / 0x10000 then s else writeBar2 (a / 0x10000) (a % 0x10000) v s
    | p => if a = 0x44 then indAccess (pathOwner p) true v s else writeBar0 (pathOwner p) a v s

/-- REG_WRITE: a 64-bit access is two 32-bit accesses, the lower address first (R33). -/
def regWrite (path : RegPath) (addr : Nat) (val : BitVec 64) (be : BitVec 8) (wide : Bool) (s : State) : State :=
  let a := addr / 4 * 4
  let s := writeReg path a (val.setWidth 32) (be.toNat % 16) s
  if wide then writeReg path (a + 4) ((val >>> 32).setWidth 32) (be.toNat / 16) s else s
/-- REG_WRITE (R34). -/
def execRegWrite (path : RegPath) (addr : Nat) (val : BitVec 64) (be : BitVec 8) (wide : Bool) (s : State) :
    Host.Outcome State Fault Refusal := .next (refresh (regWrite path addr val be wide s))

/-! ### Register packets on VN4 (R369) -/

/-- REG_READ: the register is read and a REG_RESP carries its value to the requester's port. [DEDUCED, log entry 11] -/
def execRegRead (port : Nat) (tag : BitVec 12) (addr : Nat) (s : State) : Host.Outcome State Fault Refusal :=
  let a := addr / 4 * 4
  let v := BitVec.ofNat 32 (regValue .fw a s)
  let t := if a = 0x44 then indAccess .fw false 0 s else clearRc a s
  .next (t.emit (.regResp port tag.toNat v)).spend

/-- REG_RESP: the result reaches its requester. [DEDUCED, log entry 11] -/
def execRegResp (port : Nat) (tag : BitVec 12) (val : Word) (s : State) : Host.Outcome State Fault Refusal :=
  .next (s.emit (.regResp port tag.toNat val))

end Sys2Proof.Machine
end

