-- ==== Sys2Proof/Machine/Dispatch.lean ====
section
/-! DEFINITION. The dispatch: one arm per command, each one call of that command's meaning. -/
namespace Sys2Proof.Machine
open Sys2Proof

/-- The effect of a command on everything but the queue. -/
def exec (i : Instr) (s : State) : Host.Outcome State Fault Refusal :=
  match i with
  | .regWrite path addr val be wide => Sys2Proof.Machine.execRegWrite path addr val be wide s
  | .regReadClear path addr => Sys2Proof.Machine.execRegReadClear path addr s
  | .indDataAccess who write val => Sys2Proof.Machine.execIndDataAccess who write val s
  | .mbxSelectWrite who mbx sel => Sys2Proof.Machine.execMbxSelectWrite who mbx sel s
  | .mbxCaptureDone who mbx => Sys2Proof.Machine.execMbxCaptureDone who mbx s
  | .regReadTimeout addr => Sys2Proof.Machine.execRegReadTimeout addr s
  | .mbStatus tag => Sys2Proof.Machine.execMbStatus tag s
  | .loadImage tag => Sys2Proof.Machine.execLoadImage tag s
  | .imageFetchDone bytes => Sys2Proof.Machine.execImageFetchDone bytes s
  | .imageValidationDone => Sys2Proof.Machine.execImageValidationDone s
  | .fullImageActivate => Sys2Proof.Machine.execFullImageActivate s
  | .partialImageActivate p => Sys2Proof.Machine.execPartialImageActivate p s
  | .readReport tag => Sys2Proof.Machine.execReadReport tag s
  | .writeBootImage tag => Sys2Proof.Machine.execWriteBootImage tag s
  | .fwUpdate tag bytes => Sys2Proof.Machine.execFwUpdate tag bytes s
  | .peelCancel tag => Sys2Proof.Machine.execPeelCancel tag s
  | .advanceRollback tag => Sys2Proof.Machine.execAdvanceRollback tag s
  | .mapDevice tag => Sys2Proof.Machine.execMapDevice tag s
  | .unmapDevice tag => Sys2Proof.Machine.execUnmapDevice tag s
  | .retryStart tag => Sys2Proof.Machine.execRetryStart tag s
  | .recoveryLoadBegin tag => Sys2Proof.Machine.execRecoveryLoadBegin tag s
  | .recoveryLoadRun tag => Sys2Proof.Machine.execRecoveryLoadRun tag s
  | .rcvDataWrite val => Sys2Proof.Machine.execRcvDataWrite val s
  | .requestCold tag => Sys2Proof.Machine.execRequestCold tag s
  | .otpProgram path tag field value burn => Sys2Proof.Machine.execOtpProgram path tag field value burn s
  | .mbReservedOpcode tag opcode => Sys2Proof.Machine.execMbReservedOpcode tag opcode s
  | .stepRelease p => Sys2Proof.Machine.execStepRelease p s
  | .fetchSlot v => Sys2Proof.Machine.execFetchSlot v s
  | .budgetEnd p => Sys2Proof.Machine.execBudgetEnd p s
  | .localArrival p => Sys2Proof.Machine.execLocalArrival p s
  | .localRelease p => Sys2Proof.Machine.execLocalRelease p s
  | .arriveToken via t => Sys2Proof.Machine.execArriveToken via t s
  | .releaseToken via t => Sys2Proof.Machine.execReleaseToken via t s
  | .holdToken via t => Sys2Proof.Machine.execHoldToken via t s
  | .breakToken via t => Sys2Proof.Machine.execBreakToken via t s
  | .lateLimitExpiry p => Sys2Proof.Machine.execLateLimitExpiry p s
  | .proofTimeoutExpiry p => Sys2Proof.Machine.execProofTimeoutExpiry p s
  | .readyTimeout p => Sys2Proof.Machine.execReadyTimeout p s
  | .timeSyncTimer => Sys2Proof.Machine.execTimeSyncTimer s
  | .timeReq via t => Sys2Proof.Machine.execTimeReq via t s
  | .timeResp via t => Sys2Proof.Machine.execTimeResp via t s
  | .timeParentLost => Sys2Proof.Machine.execTimeParentLost s
  | .proofPortDown port => Sys2Proof.Machine.execProofPortDown port s
  | .siteArriveIn n => Sys2Proof.Machine.execSiteArriveIn n s
  | .siteReleaseIn n => Sys2Proof.Machine.execSiteReleaseIn n s
  | .siteAckTimeout n => Sys2Proof.Machine.execSiteAckTimeout n s
  | .partHold p => Sys2Proof.Machine.execPartHold p s
  | .partRelease p => Sys2Proof.Machine.execPartRelease p s
  | .partRemeasure p => Sys2Proof.Machine.execPartRemeasure p s
  | .starterArm p stream => Sys2Proof.Machine.execStarterArm p stream s
  | .stepCounterArm p hi => Sys2Proof.Machine.execStepCounterArm p hi s
  | .uNop c => Sys2Proof.Machine.execUNop c s
  | .uEnd c => Sys2Proof.Machine.execUEnd c s
  | .uLoop c => Sys2Proof.Machine.execULoop c s
  | .uWaitp c => Sys2Proof.Machine.execUWaitp c s
  | .uSync c => Sys2Proof.Machine.execUSync c s
  | .uLd c ecc => Sys2Proof.Machine.execULd c ecc s
  | .uSt c ecc => Sys2Proof.Machine.execUSt c ecc s
  | .uGet c => Sys2Proof.Machine.execUGet c s
  | .uPut c => Sys2Proof.Machine.execUPut c s
  | .uLdc c ecc => Sys2Proof.Machine.execULdc c ecc s
  | .uAdd c => Sys2Proof.Machine.execUAdd c s
  | .uSub c => Sys2Proof.Machine.execUSub c s
  | .uMul c => Sys2Proof.Machine.execUMul c s
  | .uFma c => Sys2Proof.Machine.execUFma c s
  | .uMax c => Sys2Proof.Machine.execUMax c s
  | .uMin c => Sys2Proof.Machine.execUMin c s
  | .uSel c => Sys2Proof.Machine.execUSel c s
  | .uDot c => Sys2Proof.Machine.execUDot c s
  | .uCvt c => Sys2Proof.Machine.execUCvt c s
  | .uMxpack c => Sys2Proof.Machine.execUMxpack c s
  | .uMxunpack c => Sys2Proof.Machine.execUMxunpack c s
  | .uSfu c => Sys2Proof.Machine.execUSfu c s
  | .uLsum c => Sys2Proof.Machine.execULsum c s
  | .uGmax c => Sys2Proof.Machine.execUGmax c s
  | .uGq c => Sys2Proof.Machine.execUGq c s
  | .uGadd c => Sys2Proof.Machine.execUGadd c s
  | .uGrnd c => Sys2Proof.Machine.execUGrnd c s
  | .uGather c => Sys2Proof.Machine.execUGather c s
  | .uScatter c => Sys2Proof.Machine.execUScatter c s
  | .uShuf c => Sys2Proof.Machine.execUShuf c s
  | .uCmul c => Sys2Proof.Machine.execUCmul c s
  | .uRng c => Sys2Proof.Machine.execURng c s
  | .cellFault c what => Sys2Proof.Machine.execCellFault c what s
  | .fabColFence k => Sys2Proof.Machine.execFabColFence k s
  | .fabColRemap k row => Sys2Proof.Machine.execFabColRemap k row s
  | .cfgBcast q cols rows slot img => Sys2Proof.Machine.execCfgBcast q cols rows slot img s
  | .xfeDescArrive e => Sys2Proof.Machine.execXfeDescArrive e s
  | .xfeWaitSatisfied e => Sys2Proof.Machine.execXfeWaitSatisfied e s
  | .xfeComplete e => Sys2Proof.Machine.execXfeComplete e s
  | .xfeAbort e => Sys2Proof.Machine.execXfeAbort e s
  | .xfeFence e => Sys2Proof.Machine.execXfeFence e s
  | .xfeReadmit e => Sys2Proof.Machine.execXfeReadmit e s
  | .atsTranslationCompletion e iova size host r w cpl => Sys2Proof.Machine.execAtsTranslationCompletion e iova size host r w cpl s
  | .prgResponse e code => Sys2Proof.Machine.execPrgResponse e code s
  | .faultLimitExpiry e => Sys2Proof.Machine.execFaultLimitExpiry e s
  | .atsInvalidate itag iova size => Sys2Proof.Machine.execAtsInvalidate itag iova size s
  | .invalidateCompletion itag => Sys2Proof.Machine.execInvalidateCompletion itag s
  | .hostReadCompletion tag cpl data poison => Sys2Proof.Machine.execHostReadCompletion tag cpl data poison s
  | .hwtCommit who => Sys2Proof.Machine.execHwtCommit who s
  | .hwtCommitDrained => Sys2Proof.Machine.execHwtCommitDrained s
  | .nocRead tag off head ecc => Sys2Proof.Machine.execNocRead tag off head ecc s
  | .nocWrite tag head flits => Sys2Proof.Machine.execNocWrite tag head flits s
  | .nocReadData tag head flits => Sys2Proof.Machine.execNocReadData tag head flits s
  | .nocWriteAck tag head => Sys2Proof.Machine.execNocWriteAck tag head s
  | .nocRefuse tag head => Sys2Proof.Machine.execNocRefuse tag head s
  | .regRead port tag addr => Sys2Proof.Machine.execRegRead port tag addr s
  | .regResp port tag val => Sys2Proof.Machine.execRegResp port tag val s
  | .faultSignal g bit => Sys2Proof.Machine.execFaultSignal g bit s
  | .respTimeout tag => Sys2Proof.Machine.execRespTimeout tag s
  | .sliceStall router input => Sys2Proof.Machine.execSliceStall router input s
  | .qosMissWindowExpiry p => Sys2Proof.Machine.execQosMissWindowExpiry p s
  | .hbmScrub m found => Sys2Proof.Machine.execHbmScrub m found s
  | .sramScrub found => Sys2Proof.Machine.execSramScrub found s
  | .hbmTempSample m quarters => Sys2Proof.Machine.execHbmTempSample m quarters s
  | .hbmRecalibration m ch trained => Sys2Proof.Machine.execHbmRecalibration m ch trained s
  | .zeroingDone unit ok => Sys2Proof.Machine.execZeroingDone unit ok s
  | .rowRepair pa badLines => Sys2Proof.Machine.execRowRepair pa badLines s
  | .srmBankFence b => Sys2Proof.Machine.execSrmBankFence b s
  | .srmBankReadmit b => Sys2Proof.Machine.execSrmBankReadmit b s
  | .memChFence m ch => Sys2Proof.Machine.execMemChFence m ch s
  | .memChReadmit m ch => Sys2Proof.Machine.execMemChReadmit m ch s
  | .cohWinWrite w val => Sys2Proof.Machine.execCohWinWrite w val s
  | .stackRailShort m => Sys2Proof.Machine.execStackRailShort m s
  | .siteAdmissionStart n strapT strapC => Sys2Proof.Machine.execSiteAdmissionStart n strapT strapC s
  | .siteCoreRegulated n => Sys2Proof.Machine.execSiteCoreRegulated n s
  | .siteRailsTimeout n => Sys2Proof.Machine.execSiteRailsTimeout n s
  | .sidebandDetected n cxlCompute => Sys2Proof.Machine.execSidebandDetected n cxlCompute s
  | .sidebandTimeout n => Sys2Proof.Machine.execSidebandTimeout n s
  | .siteTrainingDone n modules repaired disabled bothHalves => Sys2Proof.Machine.execSiteTrainingDone n modules repaired disabled bothHalves s
  | .negotiateTimeout n => Sys2Proof.Machine.execNegotiateTimeout n s
  | .attestComplete n a => Sys2Proof.Machine.execAttestComplete n a s
  | .attestTimeout n => Sys2Proof.Machine.execAttestTimeout n s
  | .crustLoaded n => Sys2Proof.Machine.execCrustLoaded n s
  | .configTimeout n => Sys2Proof.Machine.execConfigTimeout n s
  | .siteLinkError n => Sys2Proof.Machine.execSiteLinkError n s
  | .siteRetrainDone n modules repaired => Sys2Proof.Machine.execSiteRetrainDone n modules repaired s
  | .siteRetrainTimeout n => Sys2Proof.Machine.execSiteRetrainTimeout n s
  | .siteRailShort n => Sys2Proof.Machine.execSiteRailShort n s
  | .sitFence n => Sys2Proof.Machine.execSitFence n s
  | .sitReadmit n => Sys2Proof.Machine.execSitReadmit n s
  | .sitRetrain n => Sys2Proof.Machine.execSitRetrain n s
  | .sitVsetWrite n val => Sys2Proof.Machine.execSitVsetWrite n val s
  | .rdNc n m => Sys2Proof.Machine.execRdNc n m s
  | .wr n m => Sys2Proof.Machine.execWr n m s
  | .rdData n m => Sys2Proof.Machine.execRdData n m s
  | .cmp n m => Sys2Proof.Machine.execCmp n m s
  | .rdCur n m => Sys2Proof.Machine.execRdCur n m s
  | .wrPart n m => Sys2Proof.Machine.execWrPart n m s
  | .rdShared n m ue => Sys2Proof.Machine.execRdShared n m ue s
  | .rdOwn n m => Sys2Proof.Machine.execRdOwn n m s
  | .upgrade n m => Sys2Proof.Machine.execUpgrade n m s
  | .evictClean n m => Sys2Proof.Machine.execEvictClean n m s
  | .wbDirty n m => Sys2Proof.Machine.execWbDirty n m s
  | .snpRsp n m => Sys2Proof.Machine.execSnpRsp n m s
  | .snpRspData n m => Sys2Proof.Machine.execSnpRspData n m s
  | .ack n m => Sys2Proof.Machine.execAck n m s
  | .identity n m => Sys2Proof.Machine.execIdentity n m s
  | .arriveInfo n m => Sys2Proof.Machine.execArriveInfo n m s
  | .voltReq n m => Sys2Proof.Machine.execVoltReq n m s
  | .credit n m => Sys2Proof.Machine.execCredit n m s
  | .occupantRspTimeout n tag => Sys2Proof.Machine.execOccupantRspTimeout n tag s
  | .snoopTimeout n line => Sys2Proof.Machine.execSnoopTimeout n line s
  | .flushTimeout n => Sys2Proof.Machine.execFlushTimeout n s
  | .cachingSiteFlushDone n => Sys2Proof.Machine.execCachingSiteFlushDone n s
  | .cxlRdcurr n m => Sys2Proof.Machine.execCxlRdcurr n m s
  | .cxlRdshared n m => Sys2Proof.Machine.execCxlRdshared n m s
  | .cxlRdany n m => Sys2Proof.Machine.execCxlRdany n m s
  | .cxlRdown n m => Sys2Proof.Machine.execCxlRdown n m s
  | .cxlRdownnodata n m => Sys2Proof.Machine.execCxlRdownnodata n m s
  | .cxlClflush n m => Sys2Proof.Machine.execCxlClflush n m s
  | .cxlCleanevict n m => Sys2Proof.Machine.execCxlCleanevict n m s
  | .cxlDirtyevict n m => Sys2Proof.Machine.execCxlDirtyevict n m s
  | .cxlItomwr n m => Sys2Proof.Machine.execCxlItomwr n m s
  | .cxlCacheflushed n m => Sys2Proof.Machine.execCxlCacheflushed n m s
  | .cxlSnoopResponse n rsp m => Sys2Proof.Machine.execCxlSnoopResponse n rsp m s
  | .cxlUnlistedD2h n m => Sys2Proof.Machine.execCxlUnlistedD2h n m s
  | .cxlGoAcked n tag => Sys2Proof.Machine.execCxlGoAcked n tag s
  | .cxlMemResponse n tag data poison => Sys2Proof.Machine.execCxlMemResponse n tag data poison s
  | .stlTrainingDone p tr => Sys2Proof.Machine.execStlTrainingDone p tr s
  | .stlTrainingTimeout p => Sys2Proof.Machine.execStlTrainingTimeout p s
  | .stlLinkLoss p => Sys2Proof.Machine.execStlLinkLoss p s
  | .stlRetrainDone p tr => Sys2Proof.Machine.execStlRetrainDone p tr s
  | .stlRetrainTimeout p => Sys2Proof.Machine.execStlRetrainTimeout p s
  | .stlPortFence p => Sys2Proof.Machine.execStlPortFence p s
  | .stlPortReadmit p => Sys2Proof.Machine.execStlPortReadmit p s
  | .stlPortRetrain p => Sys2Proof.Machine.execStlPortRetrain p s
  | .slotReceive p sl codewordOk => Sys2Proof.Machine.execSlotReceive p sl codewordOk s
  | .nakBlock p blk => Sys2Proof.Machine.execNakBlock p blk s
  | .abortBlock p blk => Sys2Proof.Machine.execAbortBlock p blk s
  | .stlCredit p blk => Sys2Proof.Machine.execStlCredit p blk s
  | .linkBlock p blk => Sys2Proof.Machine.execLinkBlock p blk s
  | .serdesRefclkLost east => Sys2Proof.Machine.execSerdesRefclkLost east s
  | .colWaitSatisfied c => Sys2Proof.Machine.execColWaitSatisfied c s
  | .colOpComplete c => Sys2Proof.Machine.execColOpComplete c s
  | .colAbort c => Sys2Proof.Machine.execColAbort c s
  | .colFence c => Sys2Proof.Machine.execColFence c s
  | .colReadmit c => Sys2Proof.Machine.execColReadmit c s
  | .vifAttach v val => Sys2Proof.Machine.execVifAttach v val s
  | .vifDetach v => Sys2Proof.Machine.execVifDetach v s
  | .vifLease v => Sys2Proof.Machine.execVifLease v s
  | .leaseWarn v => Sys2Proof.Machine.execLeaseWarn v s
  | .leaseExpiry v => Sys2Proof.Machine.execLeaseExpiry v s
  | .pfQuiesce => Sys2Proof.Machine.execPfQuiesce s
  | .pfDetach => Sys2Proof.Machine.execPfDetach s
  | .ringReadCompletion v cpl data => Sys2Proof.Machine.execRingReadCompletion v cpl data s
  | .cmdNop v => Sys2Proof.Machine.execCmdNop v s
  | .cmdTransfer v => Sys2Proof.Machine.execCmdTransfer v s
  | .cmdBarrier v => Sys2Proof.Machine.execCmdBarrier v s
  | .cmdWaitStep v => Sys2Proof.Machine.execCmdWaitStep v s
  | .hstAttach val => Sys2Proof.Machine.execHstAttach val s
  | .hstDrvLease => Sys2Proof.Machine.execHstDrvLease s
  | .drvLeaseExpiry => Sys2Proof.Machine.execDrvLeaseExpiry s
  | .drvDetach => Sys2Proof.Machine.execDrvDetach s
  | .busMasterDisable => Sys2Proof.Machine.execBusMasterDisable s
  | .functionLevelReset => Sys2Proof.Machine.execFunctionLevelReset s
  | .perstAssert => Sys2Proof.Machine.execPerstAssert s
  | .perstRelease rate width flit => Sys2Proof.Machine.execPerstRelease rate width flit s
  | .d3hotEntry => Sys2Proof.Machine.execD3hotEntry s
  | .pcieLinkDown => Sys2Proof.Machine.execPcieLinkDown s
  | .interruptDisableWrite disable => Sys2Proof.Machine.execInterruptDisableWrite disable s
  | .spdmGetVersion tr req => Sys2Proof.Machine.execSpdmGetVersion tr req s
  | .spdmGetCapabilities tr req => Sys2Proof.Machine.execSpdmGetCapabilities tr req s
  | .spdmNegotiateAlgorithms tr req => Sys2Proof.Machine.execSpdmNegotiateAlgorithms tr req s
  | .spdmGetDigests tr req => Sys2Proof.Machine.execSpdmGetDigests tr req s
  | .spdmGetCertificate tr req => Sys2Proof.Machine.execSpdmGetCertificate tr req s
  | .spdmChallenge tr req => Sys2Proof.Machine.execSpdmChallenge tr req s
  | .spdmGetMeasurements tr req => Sys2Proof.Machine.execSpdmGetMeasurements tr req s
  | .sealOpen v => Sys2Proof.Machine.execSealOpen v s
  | .sealOpenComplete v => Sys2Proof.Machine.execSealOpenComplete v s
  | .sealClose v => Sys2Proof.Machine.execSealClose v s
  | .secSealClose v => Sys2Proof.Machine.execSecSealClose v s
  | .keySlotWipe v => Sys2Proof.Machine.execKeySlotWipe v s
  | .keySlotFault v => Sys2Proof.Machine.execKeySlotFault v s
  | .entropyFail => Sys2Proof.Machine.execEntropyFail s
  | .lcsRequest path target burn => Sys2Proof.Machine.execLcsRequest path target burn s
  | .openErase => Sys2Proof.Machine.execOpenErase s
  | .openCert cert => Sys2Proof.Machine.execOpenCert cert s
  | .tapClose => Sys2Proof.Machine.execTapClose s
  | .dbgClose => Sys2Proof.Machine.execDbgClose s
  | .debugDurationExpiry nonce => Sys2Proof.Machine.execDebugDurationExpiry nonce s
  | .tapBypass tdi => Sys2Proof.Machine.execTapBypass tdi s
  | .tapIdcode => Sys2Proof.Machine.execTapIdcode s
  | .tapExtest drive => Sys2Proof.Machine.execTapExtest drive s
  | .tapSamplePreload pins preload => Sys2Proof.Machine.execTapSamplePreload pins preload s
  | .powerControlTick x => Sys2Proof.Machine.execPowerControlTick x s
  | .powerSample1ms est meas vin => Sys2Proof.Machine.execPowerSample1ms est meas vin s
  | .calibrationUpdate => Sys2Proof.Machine.execCalibrationUpdate s
  | .tileFail t => Sys2Proof.Machine.execTileFail t s
  | .inputCurrentTrip => Sys2Proof.Machine.execInputCurrentTrip s
  | .supplyDroop island => Sys2Proof.Machine.execSupplyDroop island s
  | .fclkAdjust mean100ms below8For1s => Sys2Proof.Machine.execFclkAdjust mean100ms below8For1s s
  | .thermalSample sensor quarters => Sys2Proof.Machine.execThermalSample sensor quarters s
  | .throtNAssert => Sys2Proof.Machine.execThrotNAssert s
  | .rackBudgetSet watts => Sys2Proof.Machine.execRackBudgetSet watts s
  | .powerOn => Sys2Proof.Machine.execPowerOn s
  | .inputUndervoltage => Sys2Proof.Machine.execInputUndervoltage s
  | .inputOvervoltage => Sys2Proof.Machine.execInputOvervoltage s
  | .faultDetect g bit unit => Sys2Proof.Machine.execFaultDetect g bit unit s
  | .graceExpiry g => Sys2Proof.Machine.execGraceExpiry g s
  | .faultStatusClear g val => Sys2Proof.Machine.execFaultStatusClear g val s
  | .faultAck g val => Sys2Proof.Machine.execFaultAck g val s
  | .faultMaskWrite g val => Sys2Proof.Machine.execFaultMaskWrite g val s
  | .faultActionWrite g val => Sys2Proof.Machine.execFaultActionWrite g val s
  | .faultInjectArm g val => Sys2Proof.Machine.execFaultInjectArm g val s
  | .errnHeartbeat => Sys2Proof.Machine.execErrnHeartbeat s
  | .hubReset x => Sys2Proof.Machine.execHubReset x s
  | .startComplete => Sys2Proof.Machine.execStartComplete s
  | .startWatchdogExpiry x => Sys2Proof.Machine.execStartWatchdogExpiry x s
  | .mgtWatchdogExpiry => Sys2Proof.Machine.execMgtWatchdogExpiry s
  | .handoverRecordWrite => Sys2Proof.Machine.execHandoverRecordWrite s
  | .peelDeferCheck => Sys2Proof.Machine.execPeelDeferCheck s
  | .peelDeferLong => Sys2Proof.Machine.execPeelDeferLong s
  | .peelFreeze => Sys2Proof.Machine.execPeelFreeze s
  | .peelJump => Sys2Proof.Machine.execPeelJump s
  | .peelResume => Sys2Proof.Machine.execPeelResume s
  | .peelResumeTimeout rejected => Sys2Proof.Machine.execPeelResumeTimeout rejected s
  | .peelCommit flashOk => Sys2Proof.Machine.execPeelCommit flashOk s
  | .pldmGetTid => Sys2Proof.Machine.execPldmGetTid s
  | .pldmGetPldmVersion type => Sys2Proof.Machine.execPldmGetPldmVersion type s
  | .pldmGetPldmTypes => Sys2Proof.Machine.execPldmGetPldmTypes s
  | .pldmGetPldmCommands type => Sys2Proof.Machine.execPldmGetPldmCommands type s
  | .pldmSensorRead sensor => Sys2Proof.Machine.execPldmSensorRead sensor s
  | .pldmFwTransfer recovery bytes => Sys2Proof.Machine.execPldmFwTransfer recovery bytes s
  | .pldmActivateFirmware selfContained => Sys2Proof.Machine.execPldmActivateFirmware selfContained s
  | .cxlIoRequest n kind m => Sys2Proof.Machine.execCxlIoRequest n kind m s
  | .proofPortUp port peer => Sys2Proof.Machine.execProofPortUp port peer s
  | .busMasterEnable => Sys2Proof.Machine.execBusMasterEnable s
  | .d0Entry => Sys2Proof.Machine.execD0Entry s
  | .atsEnable on => Sys2Proof.Machine.execAtsEnable on s
  | .priEnable on alloc => Sys2Proof.Machine.execPriEnable on alloc s
  | .throtNRelease => Sys2Proof.Machine.execThrotNRelease s
  | .tileRestart x => Sys2Proof.Machine.execTileRestart x s
  | .droopStretchEnd island => Sys2Proof.Machine.execDroopStretchEnd island s
  | .pcieLinkUp rate width flit => Sys2Proof.Machine.execPcieLinkUp rate width flit s
  | .hostCompletionTimeout tag => Sys2Proof.Machine.execHostCompletionTimeout tag s
  | .flashWriteDone ok => Sys2Proof.Machine.execFlashWriteDone ok s
  | .mgtHalt op => Sys2Proof.Machine.execMgtHalt op s
  | .powerOverride x => Sys2Proof.Machine.execPowerOverride x s
  | .hbmHardRepair row => Sys2Proof.Machine.execHbmHardRepair row s

end Sys2Proof.Machine
end

