-- ==== Sys2Proof/Machine/Step.lean ====
section
/-! DEFINITION. One step of the hub: the command at the front of the queue is taken and executed. -/
namespace Sys2Proof.Machine
open Sys2Proof

/-- One step: the command at the front of the queue, executed on the state with the rest of the queue. On an empty
queue one tick of the time base passes. [DESIGN CHOICE, log entry 1; DESIGN CHOICE, log entry 3] -/
def step (s : State) : Host.Outcome State Fault Refusal :=
  match s.pending with
  | [] => .next (servePldm (idleTick s))
  | c :: rest => exec c { s with pending := rest }

/-- The state with the command that a table word spells at the front of its queue; the table gives no row any bits,
so no word spells a command and the state is unchanged. [DESIGN CHOICE, log entry 1] -/
def State.withFetchWord (s : State) (_nbits _w : Nat) : State := s

end Sys2Proof.Machine
end

