-- ==== Sys2Proof/Safety.lean ====
section
/-! DEFINITION. What the statements speak of: a step that goes on, the canonical form of the state's tables, and what never
goes back. -/
namespace Sys2Proof.Safety
open Sys2Proof Sys2Proof.Machine

/-- The step went on: it stopped with neither a fault nor a refusal. -/
def Continues (o : Host.Outcome State Fault Refusal) : Prop := ∃ t, o = .next t

/-- The canonical form of the state: memory and every table of numbered units list keys strictly rising and no entry equal
to what an unlisted key reads as, so that equal contents are equal data. -/
def Canon (s : State) : Prop :=
  s.mem.wf ∧ Tab.wf {} s.parts = true ∧ Tab.wf {} s.xfes = true ∧ Tab.wf {} s.sites = true ∧ Tab.wf {} s.ports = true ∧
  Tab.wf {} s.cols = true ∧ Tab.wf {} s.vis = true ∧ Tab.wf {} s.fab.cells = true ∧ Tab.wf {} s.fab.cols = true ∧
  Tab.wf {} s.fab.quads = true ∧ Tab.wf {} s.sec.seals = true ∧ Tab.wf 0 s.lcs.otp.fields = true ∧
  Tab.rises s.flt.groups = true

/-- Burning only sets bits: what a one-time-programmable memory holds after is what it held before and more. -/
def OtpLe (a b : Otp) : Prop :=
  (∀ k i, ((Tab.get 0 a.fields k).getLsbD i = true → (Tab.get 0 b.fields k).getLsbD i = true)) ∧
  (∀ i, a.pcw.getLsbD i = true → b.pcw.getLsbD i = true) ∧
  (∀ i, a.secret.getLsbD i = true → b.secret.getLsbD i = true) ∧
  (a.dbgProg = true → b.dbgProg = true) ∧ (a.wiped = true → b.wiped = true) ∧ a.rollback ≤ b.rollback

/-! ### What few commands change -/

/-- Commands that may put the hub through a reset or end in the loss of its supply; a register write may start any
mailbox command or life-cycle transition. -/
def mayReset : Instr → Bool
  | .regWrite .. | .retryStart .. | .lcsRequest .. | .powerControlTick .. | .inputCurrentTrip | .thermalSample .. | .powerOn
    | .inputUndervoltage | .inputOvervoltage | .hubReset .. | .startWatchdogExpiry .. | .peelFreeze | .peelJump |
    .peelResume | .peelResumeTimeout .. | .tileRestart .. | .flashWriteDone .. => true
  | _ => false

/-- Commands that may store data into device memory: writes that reach their target, evictions and snoop answers at a home, steps
that end with an audit entry, completion records, page tables, zeroing before a release. -/
def storesData : Instr → Bool
  | .regWrite .. | .fullImageActivate | .mapDevice .. | .unmapDevice .. | .stepRelease .. | .budgetEnd .. | .localArrival ..
    | .localRelease .. | .arriveToken .. | .releaseToken .. | .holdToken .. | .lateLimitExpiry .. | .xfeComplete .. |
    .nocRead .. | .nocWrite .. | .zeroingDone .. | .rowRepair .. | .rdCur .. | .rdShared .. | .rdOwn .. | .upgrade .. |
    .evictClean .. | .wbDirty .. | .snpRsp .. | .snpRspData .. | .ack .. | .snoopTimeout .. | .flushTimeout .. | .cxlRdcurr
    .. | .cxlRdshared .. | .cxlRdany .. | .cxlRdown .. | .cxlRdownnodata .. | .cxlClflush .. | .cxlCleanevict .. |
    .cxlDirtyevict .. | .cxlItomwr .. | .cxlSnoopResponse .. | .cxlGoAcked .. | .colOpComplete .. | .hubReset .. |
    .startWatchdogExpiry .. | .tileRestart .. => true
  | _ => false

/-- Commands that may change the host window table: the commit of an entry, firmware's entry for a fetch and its removal, the reset of
the host island. -/
def setsWindows : Instr → Bool
  | .loadImage .. | .imageFetchDone .. | .imageValidationDone | .fullImageActivate | .writeBootImage .. | .fwUpdate .. |
    .otpProgram .. | .hwtCommit .. | .hwtCommitDrained | .drvLeaseExpiry | .drvDetach | .busMasterDisable | .functionLevelReset |
    .perstAssert | .d3hotEntry | .pcieLinkDown | .mgtWatchdogExpiry => true
  | _ => false

/-- Commands that may change the device page mappings. -/
def setsMappings : Instr → Bool
  | .fullImageActivate | .mapDevice .. | .unmapDevice .. => true
  | _ => false

/-- Commands that may change the running image. -/
def setsImage : Instr → Bool
  | .fullImageActivate | .partialImageActivate .. => true
  | _ => false

/-- Commands that may burn OTP. -/
def burnsOtp : Instr → Bool
  | .regWrite .. | .advanceRollback .. | .otpProgram .. | .siteTrainingDone .. | .siteRetrainDone .. | .lcsRequest .. |
    .openErase | .openCert .. | .powerControlTick .. | .hubReset .. | .startWatchdogExpiry .. | .peelFreeze | .peelJump |
    .peelResume | .peelResumeTimeout .. | .tileRestart .. | .flashWriteDone .. => true
  | _ => false

/-- Commands that may change the debug block. -/
def touchesDebug : Instr → Bool
  | .openErase | .openCert .. | .tapClose | .dbgClose | .debugDurationExpiry .. | .tapBypass .. | .tapIdcode | .tapExtest .. |
    .tapSamplePreload .. => true
  | _ => false

/-- Commands that may change the thermal block. -/
def setsThermal : Instr → Bool
  | .fullImageActivate | .partialImageActivate .. | .hbmTempSample .. | .powerOverride .. => true
  | _ => false

/-- Commands that may change which proof ports are up and their neighbours. -/
def setsProofPorts : Instr → Bool
  | .proofPortDown .. | .proofPortUp .. => true
  | _ => false

end Sys2Proof.Safety
end

