-- ==== Sys2Proof/Safety/Terms.lean ====
section
/-! DEFINITION. Terms of the statements: what has to hold for a command to take its own effect, and what its end looks like. -/
namespace Sys2Proof.Safety
open Sys2Proof Sys2Proof.Machine

/-- The keys of the fault groups rise, as in every canonical state. -/
abbrev Groups (s : State) : Prop := Tab.rises s.flt.groups = true

/-- Nothing in the hub waits for time to pass: no request, response, packet, flit or credit in the network, no stalled unit, no audit under
way, no link of a Gelja site with messages to send, no entry of a completion ring that is held and no PLDM request that waits. -/
def Quiet (s : State) : Prop :=
  s.noc.reqs = [] ∧ s.noc.resps = [] ∧ s.noc.net.pkts = [] ∧ s.noc.net.bufs = [] ∧ s.noc.net.back = [] ∧ s.cols = [] ∧ s.vis = [] ∧
  s.sites = [] ∧ Tab.keysWhere s.parts (fun x => auditDue x) = [] ∧ s.mgt.pldmQ = []

/-- A status bit of a fault group is set. -/
abbrev FaultSet (g bit : Nat) (t : State) : Prop := (t.grp g).status.getLsbD bit = true

/-- A fault of a group is noted and no more: the group logs, or the package has stopped, or the fault starts the group's grace timer and
does not bring the number of groups in grace to the threshold. Where a fault escalates at once the statements on escalation apply. -/
def Calm (g : Nat) (s : State) : Prop :=
  (s.grp g).action = .log ∨ s.flt.stopped = true ∨
  ((s.grp g).grace ≠ 0 ∧ (s.grp g).timer = false ∧ (s.flt.thresh = 0 ∨ (graceGroups s).length + 1 < s.flt.thresh))

/-- The mailbox takes a command and firmware runs it: no command is busy, the mailbox is available, the hub is not SCRAPPED and does not
stand in flatbread mode. -/
def MailboxFree (s : State) : Prop :=
  s.mgt.busy = false ∧ s.mgt.unavail = false ∧ lifeCycle s ≠ 4 ∧ s.mgt.stage ≠ .flatbread

/-- The state in which a mailbox command runs: BUSY, with its tag. -/
def running (tag : BitVec 8) (s : State) : State := { s with mgt := { s.mgt with busy := true, done := false, curTag := tag } }

/-- A mailbox command has completed with a status and its tag. -/
def Ended (tag : BitVec 8) (st : Status) (t : State) : Prop :=
  t.mgt.busy = false ∧ t.mgt.done = true ∧ t.mgt.mbStatus = st ∧ t.mgt.mbTag = tag

/-- No virtual interface of a partition has anything to do at the end of a step or at a release: no change of state is pending and no
command waits for a step number. -/
def NoWaiters (p : Nat) (s : State) : Prop :=
  ∀ v ∈ s.visOf p, (s.vi v).pend = .none ∧ (s.vi v).cmds.all (fun c => c.waitFor.isNone) = true

/-- A token of a type whose CRC is right (no injected error waits), from a known neighbour, and not seen before. -/
def GoodToken (ty : TokenType) (via : TokenVia) (k : Token) (port : Nat) (s : State) : Prop :=
  k.type = ty ∧ tokenOk k = true ∧ (s.grp 8).inject.getLsbD 4 = false ∧ tokenPort s via = some port ∧
  (s.part k.domain.val).seen.any (fun e => e.1 == port && sameToken e.2 k) = false

/-- A token of the time base whose CRC is right, from a known neighbour. -/
def GoodTime (ty : TokenType) (via : TokenVia) (k : Token) (port : Nat) (s : State) : Prop :=
  k.type = ty ∧ tokenOk k = true ∧ (s.grp 8).inject.getLsbD 4 = false ∧ tokenPort s via = some port

/-- The values that the sources of a cell's micro-operation read, and whether one of them is poisoned. -/
def srcVals (n : Nat) (srcs : Uop → List Nat) (x : UCtx) (s : State) : List Nat := (readSrcs n (srcs x.u) s).1.map (fun v => v.bits.toNat)
def srcBad (n : Nat) (srcs : Uop → List Nat) (x : UCtx) (s : State) : Bool := (readSrcs n (srcs x.u) s).1.any (·.poison)

/-- A running cell stands at a micro-operation of an opcode, its operands are there, and a result that leaves it finds room. -/
def Issues (n op : Nat) (srcs : Uop → List Nat) (x : UCtx) (s : State) : Prop :=
  nextUop s n = some x ∧ x.u.op = op ∧ srcsReady s n (srcs x.u) = true ∧ hasRoom s (routeTargets s n x.route 5) = true

/-- A cell has gone to its next micro-operation, or has ended after the last one; memory and every other cell's registers, accumulators
and local store are as before. -/
def Advanced (n : Nat) (x : UCtx) (s t : State) : Prop :=
  (t.cell n).pc = (s.cell n).pc + 1 ∧ (t.cell n).done = decide (opCount x.sl ≤ (s.cell n).pc + 1) ∧ t.mem = s.mem ∧
  ∀ m, m ≠ n → (t.cell m).v = (s.cell m).v ∧ (t.cell m).acc = (s.cell m).acc ∧ (t.cell m).ls = (s.cell m).ls

/-- A cell has written a result to the destination of its micro-operation, a vector register or an accumulator, and gone on. -/
def Written (n : Nat) (x : UCtx) (val : Nat) (poison : Bool) (s t : State) : Prop :=
  Advanced n x s t ∧
  (x.u.dst < 0x20 → (t.cell n).v = Tab.set {} (s.cell n).v x.u.dst { bits := BitVec.ofNat 512 val, poison := poison }) ∧
  (0x20 ≤ x.u.dst → x.u.dst < 0x24 →
    (t.cell n).acc = Tab.set {} (s.cell n).acc (x.u.dst - 0x20) { bits := BitVec.ofNat 512 val, poison := poison })

/-- No injected error waits in a cell's quadrant, and no error has struck the words of a slot of the cell. -/
def CleanCell (n : Nat) (s : State) : Prop := (s.grp (24 + n / 512)).inject = 0 ∧ (s.cell n).slotBad = 0

/-- Each of a run of device addresses translates for a unit in its turn, after what the translations before it leave in the buffers. -/
def TranslateAll (unit ctx : Nat) (write : Bool) : List Nat → State → Prop
  | [], _ => True
  | d :: ds, s => d < 2 ^ 47 ∧ (∃ pa, translate s unit ctx d write = .ok pa) ∧ TranslateAll unit ctx write ds (noteXlat unit ctx d s)

/-- The scheduled request that a cell sends for one element: a read of `len` bytes, or a write of data. -/
def cellReq (x : UCtx) (write : Bool) (pa len : Nat) (data : List Byte) (poison : Bool) (s : State) : Req :=
  { tag := s.noc.nextTag, who := .cell x.n, write := write, host := false, addr := pa, len := len, ctx := x.ctx, part := x.p, sched := true,
    step := (s.part x.p).step.setWidth 32, data := data, poison := poison, inject := s.clk.now, use := if write then .plain else .get x.n }

/-- A descriptor came from a step's pool, not from a command of a virtual interface. -/
def FromPool (d : XDesc) : Prop := ∃ p k i, d.src = .pool p k i

/-- No transfer engine holds a descriptor that it works on. -/
def EnginesIdle (s : State) : Prop := Tab.keysWhere s.xfes (fun x => x.cur.isSome) = []

/-- No ring of a virtual interface waits for a translation or a host tag. -/
def RingsIdle (s : State) : Prop := ∀ v, (s.vi v).fetchWait = false

/-- A request's port has neither a latency target nor a reservation bound, so that its response is no miss. -/
def NoTargets (r : Req) (s : State) : Prop := (s.qport (portOf r.who) r.part).target = 0 ∧ (s.qport (portOf r.who) r.part).rsvBound = 0

/-- Nothing that a partition waits for with its ARRIVE can let it go on: its work has not ended, or it has arrived already. -/
def NoResume (p : Nat) (s : State) : Prop := (s.part p).endLocal = none ∨ (s.part p).arrival.isSome = true

/-- A site is fenced with a reason, and the fault bit of the SIT group that goes with it is set. -/
def FencedAs (e : Nat) (why : SReason) (bit : Nat) (t : State) : Prop :=
  (t.site e).state = .fenced ∧ (t.site e).reason = why ∧ FaultSet 16 bit t

/-- Tags of the network's open requests are below the next one. -/
def FreshTags (s : State) : Prop := ∀ r ∈ s.noc.reqs, r.tag < s.noc.nextTag

/-- A voltage setting of a site waits: its owner is not STOPPED. -/
def voltWaits (x : Site) (s : State) : Bool := match x.owner with | some p => (s.part p).state != .stopped | none => false

/-- A Gelja message as flits bring it, with legal fields: nothing of it is lost on the link. -/
def Travels (op lo hi : Nat) (m : GMsg) : Prop := received op m = m ∧ fieldsOk op lo hi m = true

/-- A message whose parts are those that its slots carry: data lines where its opcode has some, byte enables in WR_PART alone, a further
slot in IDENTITY alone. -/
def WholeMsg (op : Nat) (m : GMsg) : Prop :=
  0 < op ∧ op < 256 ∧ m.data.length = (if carriesData op then 64 * m.len.toNat else 0) ∧ (op ≠ 0x07 → m.be = 0) ∧ (op ≠ 0x60 → m.extra = 0)

/-- A request as its port takes it: with its tag, its time, the step of a scheduled one, and held where it lacks tokens. -/
def sentReq (r : Req) (held : Bool) (s : State) : Req :=
  { r with tag := s.noc.nextTag, inject := s.clk.now, held := held, step := if r.sched then (s.part r.part).step.setWidth 32 else 0 }

/-- A Gelja message passes every check of an ADMITTED site and of its crust, with a physical address. -/
def Entered (n op lo hi : Nat) (k : CrustClass) (m : GMsg) (pa : Nat) (s : State) : Prop :=
  let t := s.site (evenOf s n)
  isGelja t = true ∧ t.state = .admitted ∧ t.owner.isSome = true ∧ Travels op lo hi m ∧ t.configDone = true ∧
  hasCredit t op m.len.toNat = true ∧ (k = .cache → t.caching = true) ∧ stepTagOk s t m = true ∧
  crustCheck t k m.ctx.toNat m.addr.toNat = .ok pa

/-- A CXL message passes the crust of an ADMITTED site, with a physical address. -/
def CxlEntered (n : Nat) (k : CrustClass) (m : CxlMsg) (pa : Nat) (s : State) : Prop :=
  let t := s.site (evenOf s n)
  isCxl t = true ∧ t.state = .admitted ∧ t.owner.isSome = true ∧
  crustCheck t (if t.cls = 4 then .cache else k) (defaultCtx t) m.addr.toNat = .ok pa

/-- A line whose memory passes the check of a context, with no injected error waiting in its group. -/
def LineOpen (line ctx : Nat) (s : State) : Prop :=
  ∃ g, memCheck s (line * 64) ctx = .pass g ∧ (s.grp (granGroup g)).inject = 0

/-- No window setting and no granule waits until occupants cache none of its lines. -/
def Settled (s : State) : Prop := s.home.cohPend = [] ∧ s.mem.leaving = []

/-- Nothing waits at the home, and a line is not BUSY. -/
def HomeQuiet (line : Nat) (s : State) : Prop :=
  coherent s (line * 64) = true ∧ Tab.get none s.home.txns line = none ∧ s.home.queue = [] ∧ s.home.victims = [] ∧ Settled s

/-- A request of the network that nobody has served yet. -/
def Unserved (r : Req) : Prop :=
  r.gone = false ∧ r.host = false ∧ r.held = false ∧ r.resp = none ∧ r.acc = [] ∧ r.accBad = false ∧ r.denied = false

/-- A line has been granted to a site: its new state at the home, and a transaction that waits for the acknowledgement. -/
def Granted (line e : Nat) (h : HLine) (s t : State) : Prop :=
  t.home.lines = Tab.set {} s.home.lines line h ∧
  ∃ x, t.home.txns = Tab.set none s.home.txns line (some x) ∧ x.wait = .ack ∧ x.granted = h.mode ∧ x.req.site = some e

/-- What an agreeing IDENTITY leaves at a site. -/
def identified (m : GMsg) (x : Site) : Site :=
  { x with state := .attest, found := rfld m.extra 0 0 4, idOk := true, caching := rbit m.extra 8 12, offersMem := rbit m.extra 8 13,
           maxTags := min 3840 (rfld m.extra 8 0 12), memSize := min 16777216 (rfld m.extra 0xC 0 32) }

/-- A fault of a group is logged and does no more. -/
abbrev Logs (g : Nat) (s : State) : Prop := (s.grp g).action = .log

/-- No collective unit has an operation at hand. -/
def NoOps (s : State) : Prop := ∀ c, (s.cunit c).cur = none

/-- Nothing waits to be sent at a port. -/
def PortEmpty (q : Port) : Prop := q.resend = [] ∧ q.txq = []

/-- A port is fenced, with its reason and the status bit of the STL group that goes with it. -/
def PortFenced (n : Nat) (peer : Bool) (t : State) : Prop :=
  (t.port n).state = .fenced ∧ (t.port n).peerBad = peer ∧ FaultSet 14 (if peer then 4 else 1) t

/-- An operation of a collective unit is being ended as ABORTED. -/
def OpAborted (c : Nat) (t : State) : Prop :=
  (t.cunit c).run = .ending ∧ ∃ o, (t.cunit c).cur = some o ∧ o.aborted = true ∧ o.plan = []

/-- A virtual interface just attached from DETACHED. -/
def attachedVi (now : Tick) (x : Vi) : Vi :=
  { x with attachStat := .ok, state := .attached, pend := .none, resume := false, renewed := now, warned := false, cmdHead := 0, cmdPhase := true,
           cplTail := 0, cplPhase := true, cplHead := 0, read := [], reading := none, fetchWait := false }

/-- Whether the partition of a virtual interface runs. -/
def viRuns (v : Nat) (s : State) : Bool := match s.partOfVi v with | some p => (s.part p).active | none => false

/-- The records of a ring read whose every request returns: one that the completion does not bring has the old phase. -/
def ringWords (x : Vi) (n : Nat) (data : List (BitVec 512)) : List (BitVec 512) :=
  (List.range n).map (fun i => data.getD i (if x.cmdPhase then 0 else 256))

/-- The next entry of a virtual interface's completion ring can be written, at a host address: the ring has room, the ring engine of
the partition is not fenced and its port has tokens, and the window entry gives the page. -/
def EntryOpen (v p a : Nat) (s : State) : Prop :=
  let x := s.vi v
  cplFree x ≠ 0 ∧ x.resume = false ∧ ∃ e, ringEngine s p = some e ∧ (s.xfe e).run ≠ .fenced ∧
    (hostWriteNow e ((s.xfe e).owner.getD 0) false 32 s).isSome = true ∧
    ∃ q h iova, hwtFind s v (x.cplBase.toNat + x.cplTail * 32) = some (q, h, iova) ∧ hwtPerm h true = true ∧ hostSpot s e v iova true = .go a

/-- The front record of a virtual interface is to be delivered: it is unsealed, well formed and of an opcode, no seal session is open, the
tags of open commands are below the next one, and its entry could be written at a host address. -/
def Deliverable (op v p a : Nat) (r : BitVec 512) (rest : List (BitVec 512)) (s : State) : Prop :=
  s.partOfVi v = some p ∧ (s.vi v).read = r :: rest ∧ cmdOpcode r = op ∧ cmdSealed r = false ∧ s.sealOpen v = false ∧ recordOk r = true ∧
  canDeliver s p v = true ∧ EntryOpen v p a s ∧ ∀ c ∈ (s.vi v).cmds, c.tag ≠ (s.vi v).nextTag

/-- The completion entry of a record. -/
def entryOf (r : BitVec 512) (st : Status) (step : BitVec 64) (detail : Nat) : CplEntry :=
  { status := st, opcode := cmdOpcode r, cmdId := BitVec.ofNat 32 (rfld r 4 0 32), step := step, detail := BitVec.ofNat 32 detail }

/-- A command of a virtual interface has ended: its entry is written to the host at an address, and it is open no more. -/
def CommandEnded (v p a : Nat) (r : BitVec 512) (st : Status) (detail : Nat) (s t : State) : Prop :=
  (t.vi v).cmds = (s.vi v).cmds ∧
  Emit.hostWrite (hostTlp s) a (entryBytes (entryOf r st (s.part p).step detail) (s.vi v).cplPhase) false ∈ t.out

/-- Host DMA has stopped for a reason: no host request is open any more, and the fault bit is set. -/
def DmaStop (reason : Nat) (t : State) : Prop :=
  t.host.dmaStopped = true ∧ t.host.stopReason = reason ∧ t.host.attached = false ∧ FaultSet 1 2 t ∧ ∀ r ∈ t.noc.reqs, r.host = false

/-- The host island has been reset. -/
def IslandReset (t : State) : Prop :=
  t.xlt.hwt = [] ∧ t.xlt.bufs.all (fun b => b.2.all (fun e => !e.host)) = true ∧ t.xlt.l2.all (fun b => b.2.all (fun e => !e.host)) = true ∧
  t.xlt.atsWait = [] ∧ t.xlt.pend = none ∧ t.xlt.atsEn = false ∧ t.xlt.priEn = false ∧ t.host.bme = false ∧
  t.host.d3hot = false ∧ t.host.intDisable = false ∧ ∀ v, (t.vi v).state ≠ .attached ∧ (t.vi v).held = []

/-- A seal session has ended with a reason: it is closed, its key slot waits to be wiped where it holds a key. -/
def SealEnded (v reason : Nat) (s t : State) : Prop :=
  (t.sealOf v).state = .none ∧ (t.sealOf v).endReason = reason ∧ (t.sealOf v).wiping = (s.sealOf v).key.isSome ∧
  (t.sealOf v).key = (s.sealOf v).key

/-- A debug session is open with rights. -/
def DebugOpen (mode minutes : Nat) (rights : Word) (t : State) : Prop :=
  t.dbg.openS = true ∧ t.dbg.mode = mode ∧ t.dbg.minutes = minutes ∧ t.dbg.rights = rights

/-- No debug session is open, the nonce is another, and the management core runs. -/
def DebugClosed (nonce : BitVec 256) (t : State) : Prop :=
  t.dbg.openS = false ∧ t.dbg.rights = 0 ∧ t.dbg.nonce = nonce ∧ t.mgt.halted = false

/-- User secrets are gone: memory, the cells, the log, the trace entries and the user secret in OTP. -/
def SecretsWiped (t : State) : Prop :=
  t.mem.bytes = [] ∧ t.fab.cells = [] ∧ t.trc.entries = [] ∧ t.lcs.otp.secret = BitVec.allOnes 288 ∧ ∀ v, (t.sealOf v).key = none

/-- The tiles feed no more: the hub is unpowered, and everything volatile is at its reset value. -/
def HubOff (s t : State) : Prop :=
  t.pwr.powered = false ∧ t.pwr.pwrgd = false ∧ t.pwr.domains = 0 ∧ t.mem.bytes = [] ∧ t.fab.cells = [] ∧ t.lcs.otp = s.lcs.otp ∧
  t.mgt.flash = s.mgt.flash

/-- The same by a loss of the input, of which the tiles keep a record. -/
def Unpowered (s t : State) : Prop := HubOff s t ∧ t.pwr.inputLost = true

/-- No burn, transition or PLDM request waits for the resumed image or for the input voltage. -/
def NothingDeferred (s : State) : Prop :=
  s.lcs.deferTo = none ∧ s.lcs.otpLater = none ∧ s.lcs.rollLater = false ∧ s.mgt.pldmQ = []

/-- A handover record stands: its magic number and the version that the running image writes come first (R766). -/
def RecordWritten (i : FwImage) (t : State) : Prop := t.mgt.handRec.take 8 = leBytes 4 0x4C454550 ++ leBytes 4 i.recMax

/-- Nothing of the credits of the network is lost or made: what a sender counts as spent in a slice is the flits in it and the credits
on their way back. -/
def CreditsKept (n : Net) : Prop :=
  Tab.wf [] n.bufs = true ∧ Tab.wf 0 n.spent = true ∧ ∀ k, Tab.get 0 n.spent k = (Tab.get [] n.bufs k).length + n.back.count k

/-- A line after a site has left it. -/
def HLine.without (h : HLine) (e : Nat) : HLine :=
  { mode := if putBit h.pres e false = 0 then .i else h.mode, pres := putBit h.pres e false }

end Sys2Proof.Safety
end

