-- ==== Sys2Proof/Certificates/Slice0/Obligations.lean ====
section
/-! DEFINITION. The statements for the provers. -/
section
open Sys2Proof Sys2Proof.Machine Sys2Proof.Safety

/-! ### The step, reset, and what every command keeps -/

/-- A step takes the command at the front of the queue and executes it on the state with the rest of the queue. -/
def Obligations.StepRunsFrontCommand : Prop :=
  ∀ (c : Instr) (rest : List Instr) (s : State),
    step { s with pending := c :: rest } = exec c { s with pending := rest }

/-- With no command waiting a step is one tick (the model's choice, log entry 3): the time base counts, by 1 modulo 2^64 plus the
increment of a slew, the network and the links move on, and PLDM requests that waited are served. Where nothing waits for time to
pass, nothing but the time base and the network's count of cycles changes. -/
def Obligations.IdleStepIsOneTick : Prop :=
  ∀ s : State, s.pending = [] → step s = .next (servePldm (idleTick s)) ∧ (idleTick s).clk = tickClock s.clk ∧
    (s.clk.slew = 0 → (tickClock s.clk).now = s.clk.now + 1) ∧
    (Quiet s → step s = .next { s with clk := tickClock s.clk, noc := { s.noc with net := { s.noc.net with cycle := s.noc.net.cycle + 2 } } })

/-- No command touches the queue of the commands that wait. Nothing that the hub has sent is unsent, and no free value is drawn twice. -/
def Obligations.QueueAndOutputKept : Prop :=
  (∀ (c : Instr) (s t : State), exec c s = .next t → t.pending = s.pending) ∧
  (∀ s t : State, step s = .next t → (∃ new, t.out = new ++ s.out) ∧ s.free ≤ t.free)

/-- Every step keeps the canonical form of memory and of the tables of units: equal contents are equal data. -/
def Obligations.StepKeepsCanonicalForm : Prop :=
  ∀ s t : State, Safety.Canon s → step s = .next t → Safety.Canon t

/-- The reset state is canonical, and its network's credits are complete. -/
def Obligations.ResetIsCanonical : Prop := Safety.Canon State.reset ∧ Safety.CreditsKept State.reset.noc.net

/-- Every step keeps the credits of the network: for each slice of each router's input, what its sender counts as spent is the flits
that stand in it and the credits on their way back. Flits and credits move with the ticks of an idle step, and a reset drops them
all. -/
def Obligations.NetworkCreditsAreConserved : Prop :=
  (∀ s t : State, Safety.CreditsKept s.noc.net → step s = .next t → Safety.CreditsKept t.noc.net) ∧
  (∀ (c : Instr) (s t : State), exec c s = .next t → Safety.mayReset c = false →
    t.noc.net.bufs = s.noc.net.bufs ∧ t.noc.net.spent = s.noc.net.spent ∧ t.noc.net.back = s.noc.net.back ∧ t.noc.net.taken = s.noc.net.taken ∧
    t.noc.net.wires = s.noc.net.wires ∧ t.noc.net.attach = s.noc.net.attach ∧ t.noc.net.cycle = s.noc.net.cycle)

/-- Framing of Gelja messages: whatever messages a link has to send, with the data lines, byte enables and further slots that their
opcodes give them, the flits that carry them hold 14 slots each, and the receiver reads from the slots of these flits the same
messages in the same order, with nothing left over. (The bytes of a flit beyond the first 224 are as many as the model's
configuration says, log entry 87.) -/
def Obligations.GeljaFramingRoundTrip : Prop :=
  (∀ ms : List (Nat × GMsg), (∀ x ∈ ms, Safety.WholeMsg x.1 x.2) →
    let flits := flitsOf (ms.flatMap (fun x => msgSlots x.1 x.2))
    let slots := flits.flatMap flitSlots
    (∀ b ∈ flits, b.length = 224 + Config.flitTail) ∧ (∀ b ∈ flits, (flitSlots b).length = 14) ∧ readSlots slots.length slots = (ms, [])) ∧
  (∀ (op : Nat) (m : GMsg), Safety.WholeMsg op m → received op m = m)

/-- Reset values that the manual gives. No status bit of a fault group is set, nothing is masked, no grace runs, and the groups of the
fabric's quadrants and of the sites act by FENCE_UNIT, all others by LOG. Registers with a reset value other than 0 read it: scrub
and lease periods, the crust limit, MIN_LANES, DMA_STOPPED, the first VI shown, K of the estimator, the stop threshold, the
watchdog's period, and the ring fields of a virtual interface. Nothing is attached, no debug session is open, and no command waits.
(Rests on log entry 5.) -/
def Obligations.ResetValues : Prop :=
  (∀ g : Fin 29, (State.reset.grp g.val).status = 0 ∧ (State.reset.grp g.val).mask = 0 ∧ (State.reset.grp g.val).timer = false ∧
    (State.reset.grp g.val).action = (if g.val = 16 ∨ 24 ≤ g.val ∧ g.val ≤ 27 then .fenceUnit else .log)) ∧
  (∀ m : Fin 6, readBar0 .host State.reset (0x200004 + m.val * 0x10000) = 0x18) ∧
  (∀ n : Fin 18, readBar0 .host State.reset (0x100058 + n.val * 0x1000) = 0x40) ∧
  (∀ p : Fin 8, readBar0 .host State.reset (0xE0118 + p.val * 0x20) = 1) ∧
  readBar0 .host State.reset 0x10014 = 0x3E8 ∧ readBar0 .host State.reset 0x20000 = 1 ∧ readBar0 .host State.reset 0x7000C = 4 ∧
  readBar0 .host State.reset 0xC = 0x3E8 ∧
  State.reset.host.dmaStopped = true ∧ State.reset.host.attached = false ∧ State.reset.dbg.openS = false ∧ State.reset.pending = [] ∧
  readBar0 .host State.reset 0x50014 / 0x10000 = 0x44D ∧
  ∀ v : Fin 1024, let x := State.reset.vi v.val
    x.state = .detached ∧ x.period = 100 ∧ x.depth = 1 ∧ x.cmdPhase = true ∧ x.cplPhase = true ∧ x.intPend = 0 ∧ x.vstatus = 0

/-- OTP bits can only be set: whatever command a step runs, every bit of the life-cycle fields, of the configuration word and of
USER_SECRET that is set before it is set after it, and the anti-rollback counter never falls. (Rests on log entry 64.) -/
def Obligations.OtpBitsAreOnlySet : Prop :=
  ∀ s t : State, Safety.Canon s → step s = .next t → Safety.OtpLe s.lcs.otp t.lcs.otp

/-- The life cycle: SCRAPPED (4) where the field SCRAP reads as burnt, otherwise RETURNED (3), FIELDED (2) and INTEGRATOR (1) where the
field of that name does, and MAKER (0) otherwise. It never goes back: no step lowers its code. -/
def Obligations.LifeCycleNeverGoesBack : Prop :=
  (∀ s : State, let o := s.lcs.otp
    (burnt o 3 = true → lifeCycle s = 4) ∧ (burnt o 3 = false → burnt o 2 = true → lifeCycle s = 3) ∧
    (burnt o 3 = false → burnt o 2 = false → burnt o 1 = true → lifeCycle s = 2) ∧
    (burnt o 3 = false → burnt o 2 = false → burnt o 1 = false → burnt o 0 = true → lifeCycle s = 1) ∧
    (burnt o 3 = false → burnt o 2 = false → burnt o 1 = false → burnt o 0 = false → lifeCycle s = 0)) ∧
  ∀ s t : State, Safety.Canon s → step s = .next t → lifeCycle s ≤ lifeCycle t

/-! ### Frames over all commands -/

/-- A byte of memory written by a passing write reads as written, and every byte outside the write reads as before. Only the named
commands store data into device memory; after any other every byte reads as before, or reads 0 because its contents were lost (a
fence, a stop of the package or a reset; an unlisted byte reads 0 by the model's choice, log entry 2). -/
def Obligations.MemoryAndWhatStoresInIt : Prop :=
  (∀ (s : State) (g pa : Nat) (bs : List Byte) (poison : Bool), s.mem.wf →
    (∀ i, i < bs.length → (memPut s g pa bs poison).mem.byte (pa + i) = bs.getD i 0) ∧
    (∀ a, a < pa ∨ pa + bs.length ≤ a → (memPut s g pa bs poison).mem.byte a = s.mem.byte a) ∧
    (memPut s g pa bs poison).mem.wf) ∧
  (∀ (c : Instr) (s t : State), Safety.Canon s → exec c s = .next t → Safety.storesData c = false →
    ∀ a, t.mem.byte a = s.mem.byte a ∨ t.mem.byte a = 0#8)

/-- Address translation changes only by commits, firmware's fetches, mapping commands, image activation, the host island's resets and
hub resets: every other command leaves the host window table, the device page mappings and the page-table roots as they were. The
running image changes only at the activation of an image and at a hub reset. OTP is written only by the commands that burn it, and
the result of a life-cycle request changes only with them. A debug session opens, changes or ends only by the debug port's commands,
the end of its duration and a hub reset; the thermal block changes only by samples, overrides, an image and a hub reset; a proof
port comes up or goes down only by its two events and a reset. Register state that only accesses change: the wide-value mailboxes
change only at a write of SELECT or the end of a capture, the indirect pairs only at an access, a site's missing acknowledgement is
noted only at its timeout, and the words of registers with no other home stay but for the resets of the host island. -/
def Obligations.WhatOnlyTheseCommandsChange : Prop :=
  (∀ (c : Instr) (s t : State), exec c s = .next t → Safety.mayReset c = false →
    (Safety.setsWindows c = false → t.xlt.hwt = s.xlt.hwt) ∧
    (Safety.setsMappings c = false → t.xlt.maps = s.xlt.maps ∧ t.xlt.roots = s.xlt.roots)) ∧
  (∀ (c : Instr) (s t : State), exec c s = .next t → Safety.mayReset c = false → Safety.setsImage c = false →
    t.img.run = s.img.run ∧ t.img.loaded = s.img.loaded) ∧
  (∀ (c : Instr) (s t : State), exec c s = .next t →
    (Safety.burnsOtp c = false → t.lcs.otp = s.lcs.otp) ∧
    (Safety.mayReset c = false → t.lcs.status = s.lcs.status ∧ t.lcs.transition = s.lcs.transition ∧ t.lcs.target = s.lcs.target)) ∧
  (∀ (c : Instr) (s t : State), exec c s = .next t → Safety.mayReset c = false →
    (Safety.touchesDebug c = false → t.dbg = s.dbg) ∧ (Safety.setsThermal c = false → t.thm = s.thm) ∧
    (Safety.setsProofPorts c = false → t.prfUp = s.prfUp ∧ t.prfPeer = s.prfPeer)) ∧
  (∀ (c : Instr) (s t : State), exec c s = .next t → Safety.mayReset c = false →
    ((∀ who m v, c ≠ .mbxSelectWrite who m v) → (∀ who m, c ≠ .mbxCaptureDone who m) → t.mbxH = s.mbxH ∧ t.mbxF = s.mbxF) ∧
    ((∀ p a, c ≠ .regReadClear p a) → (∀ who w v, c ≠ .indDataAccess who w v) → (∀ n g a, c ≠ .regRead n g a) →
      t.indH = s.indH ∧ t.indF = s.indF ∧ t.indMem = s.indMem) ∧
    ((∀ n, c ≠ .siteAckTimeout n) → t.siteAck = s.siteAck) ∧
    (c ≠ .functionLevelReset → c ≠ .perstAssert → t.regs = s.regs))

/-! ### Register accesses -/

/-- A write whose byte enables do not cover the register, and every write to BAR4, leaves the registers as they are: the interrupt and
error lines are all that the access lets follow. A write of a mailbox argument word writes that word and nothing else. -/
def Obligations.WritesCoverWholeRegisters : Prop :=
  (∀ (path : RegPath) (addr : Nat) (val : BitVec 64) (be : BitVec 8) (s : State), be.toNat % 16 ≠ 15 →
    exec (.regWrite path addr val be false) s = .next (refresh s)) ∧
  (∀ (addr : Nat) (val : BitVec 64) (be : BitVec 8) (wide : Bool) (s : State),
    exec (.regWrite .bar4 addr val be wide) s = .next (refresh s)) ∧
  (∀ (n : Fin 16) (val : BitVec 64) (be : BitVec 8) (s : State), be.toNat % 16 = 15 →
    exec (.regWrite .bar0 (0x140 + 4 * n.val) val be false) s =
      .next (refresh { s with mgt := { s.mgt with args := Tab.set 0 s.mgt.args n.val (val.setWidth 32) } }))

/-- A read returns the value and then clears an RC field: the counter of corrected flits at 0xA0004 goes out and reads 0 after, and
nothing else changes but the count of free values; a 64-bit read is two of 32 bits, the lower address first. A BAR read that its
block does not answer completes with all ones and sets HST_FAULT_STATUS.REG_TIMEOUT; a register packet is answered at the
requester's port with the register's value, and a packet that answers reaches its requester. (Rests on log entries 6, 11.) -/
def Obligations.RegisterReads : Prop :=
  (∀ (path : RegPath) (s : State), path = .bar0 ∨ path = .fw → s.mgt.stage ≠ .flatbread →
    exec (.regReadClear ⟨path, false⟩ 0xA0004) s =
      .next { s with noc := { s.noc with flitCe := 0 }, out := .readValue path.tlp path 0xA0004 s.noc.flitCe :: s.out, free := s.free + 1 } ∧
    exec (.regReadClear ⟨path, true⟩ 0xA0004) s =
      .next { s with noc := { s.noc with flitCe := 0, drops := 0 }, free := s.free + 2,
                     out := .readValue path.tlp path 0xA0008 s.noc.drops :: .readValue path.tlp path 0xA0004 s.noc.flitCe :: s.out }) ∧
  ((∀ (addr : Nat) (s : State), Tab.rises s.flt.groups = true →
    ∃ t, exec (.regReadTimeout addr) s = .next t ∧ (t.grp 1).status.getLsbD 1 = true ∧
      Emit.readValue RegPath.bar0.tlp .bar0 (addr / 4 * 4) 0xFFFFFFFF#32 ∈ t.out) ∧
  (∀ (port : Nat) (tag : BitVec 12) (addr : Nat) (s : State), ∃ t, exec (.regRead port tag addr) s = .next t ∧
    t.out = .regResp port tag.toNat (BitVec.ofNat 32 (regValue .fw (addr / 4 * 4) s)) :: s.out) ∧
  (∀ (port : Nat) (tag : BitVec 12) (val : Word) (s : State),
    exec (.regResp port tag val) s = .next { s with out := .regResp port tag.toNat val :: s.out }))

/-- An access of MGT_IND_DATA that is forbidden (a reserved address, or any write of the host driver's pair) sets ERR and has no other
effect on a write, and returns 0 on a read; AUTO_INC advances ADDR by 4 after every access, modulo the 30 bits of the address. A
SELECT that names a value clears VALID and ERR and starts a capture of it; the capture's end stores the value as it stands, sets
VALID and raises SEQ by 1. A SELECT leaves the other owner's copy of the mailbox alone. -/
def Obligations.IndirectAndWideValues : Prop :=
  (∀ (who : Owner2) (write : Bool) (val : Word) (s : State),
    let i := indOf who s
    let bad := indForbidden s who write i.addr.toNat
    let j := fun (e : Bool) => { i with err := i.err || e, addr := if i.autoInc then i.addr + 4 else i.addr }
    (bad = true → write = true → exec (.indDataAccess who write val) s = .next (setInd who (j true) s)) ∧
    (bad = true → write = false → exec (.indDataAccess who write val) s =
      .next { setInd who (j true) s with out := .readValue (ownerPath who).tlp (ownerPath who) 0x44 0 :: s.out, free := s.free + 1 }) ∧
    (bad = false → write = false → exec (.indDataAccess who write val) s =
      .next { setInd who (j false) s with out := .readValue (ownerPath who).tlp (ownerPath who) 0x44 (BitVec.ofNat 32 (indRead s i.addr.toNat)) :: s.out, free := s.free + 1 }) ∧
    (bad = false → write = true → ∃ t, exec (.indDataAccess who write val) s = .next t ∧ indOf who t = j false ∧ t.out = s.out ∧
      ∀ w, w ≠ who → indOf w t = indOf w s)) ∧
  ((∀ (who : Owner2) (m : MbxId) (sel : Word) (s : State) (v : Nat),
    (∀ g, mbxGroup m = some g → frozen g s = false) → mbxValue m sel.toNat s = some v →
    ∃ t, exec (.mbxSelectWrite who m sel) s = .next t ∧
      mbxOf who m t = { mbxOf who m s with sel := sel, busy := true, valid := false, err := false } ∧
      (∀ w, w ≠ who → mbxOf w m t = mbxOf w m s)) ∧
  (∀ (who : Owner2) (m : MbxId) (s : State) (v : Nat), m ≠ .trc → (mbxOf who m s).busy = true →
    mbxValue m (mbxOf who m s).sel.toNat s = some v →
    ∃ t, exec (.mbxCaptureDone who m) s = .next t ∧
      mbxOf who m t = { mbxOf who m s with busy := false, valid := true, seq := (mbxOf who m s).seq + 1, data := BitVec.ofNat 128 v }))

/-! ### The mailbox -/

/-- A GO of STATUS is refused while a command is BUSY or the mailbox is UNAVAILABLE, and sets MGT_FAULT_STATUS.PARAM_REFUSED; in
SCRAPPED and in flatbread mode MAP_DEVICE and REQUEST_COLD end DENIED. The mailbox commands of firmware's own state: STATUS answers
MGT_STATUS and the versions of the three slots; REQUEST_COLD makes the next start cold; READ_REPORT ends OK where the kept report
still holds bytes at the offset, and EMPTY beyond its end; an unknown opcode ends ABORTED; PEEL_CANCEL drops a staged or deferred
peel; ADVANCE_ROLLBACK raises the counter to the running image's SVN, which ARG0 names, and waits BUSY while the input voltage is
low. None of them touches memory. (Rests on log entries 76, 79.) -/
def Obligations.MailboxCommands : Prop :=
  ((∀ (tag : BitVec 8) (s : State), Groups s → Calm 0 s → s.mgt.busy = true ∨ s.mgt.unavail = true →
    ∃ t, exec (.mbStatus tag) s = .next t ∧ FaultSet 0 0 t ∧ t.mgt = s.mgt ∧ t.mem = s.mem) ∧
  (∀ (tag : BitVec 8) (s : State), s.mgt.busy = false → s.mgt.unavail = false → lifeCycle s = 4 ∨ s.mgt.stage = .flatbread →
    (∃ t, exec (.mapDevice tag) s = .next t ∧ Ended tag .denied t ∧ t.xlt = s.xlt ∧ t.mem = s.mem) ∧
    (∃ t, exec (.requestCold tag) s = .next t ∧ Ended tag .denied t ∧ t.mgt.coldReq = s.mgt.coldReq))) ∧
  (∀ (tag : BitVec 8) (s : State), MailboxFree s →
    (∃ t, exec (.mbStatus tag) s = .next t ∧ Ended tag .ok t ∧ t.mem = s.mem ∧
      t.mgt.resp = ([mgtStatus s] ++ (List.range 3).map (slotVersion s.mgt.flash)).zipIdx.foldl
        (fun r e => Tab.set 0 r e.2 (BitVec.ofNat 32 e.1)) s.mgt.resp) ∧
    (∃ t, exec (.requestCold tag) s = .next t ∧ Ended tag .ok t ∧ t.mgt.coldReq = true ∧ t.mem = s.mem ∧ t.mgt.flash = s.mgt.flash) ∧
    (∃ t, exec (.readReport tag) s = .next t ∧ t.mem = s.mem ∧ t.img = s.img ∧
      Ended tag (if (reportBytes s.img.report).length ≤ mbArg s 0 / 64 * 64 then .empty else .ok) t) ∧
    (∀ opcode : BitVec 8, mbOpcodes.contains opcode.toNat = false →
      ∃ t, exec (.mbReservedOpcode tag opcode) s = .next t ∧ Ended tag .aborted t ∧ t.mem = s.mem ∧ t.img = s.img) ∧
    (s.mgt.peel = .staged ∨ s.mgt.peel = .deferred →
      ∃ t, exec (.peelCancel tag) s = .next t ∧ Ended tag .ok t ∧ t.mgt.peel = .none ∧ t.mgt.staged = none ∧ t.mem = s.mem) ∧
    (mbArg s 0 = s.mgt.fw.svn → inputLow s = false → ∃ t, exec (.advanceRollback tag) s = .next t ∧ Ended tag .ok t ∧
      t.lcs.otp.rollback = max s.lcs.otp.rollback s.mgt.fw.svn ∧ t.mem = s.mem) ∧
    (mbArg s 0 = s.mgt.fw.svn → inputLow s = true → ∃ t, exec (.advanceRollback tag) s = .next t ∧ t.mgt.busy = true ∧ t.lcs.rollLater = true ∧
      t.lcs.deferred = true ∧ t.lcs.otp = s.lcs.otp ∧ t.mem = s.mem))

/-- FW_UPDATE with ACTIVATE 0x2: an image that the checks of R760 pass is staged for a peel; one that fails verification or whose SVN
lies below the anti-rollback counter is DENIED, and one whose handover records do not fit is refused with VERSION. With ACTIVATE 0x1
the image is written to the slot that is not ACTIVE, and the end of the write, read back, makes it the TRIAL slot. (Rests on log
entry 75.) -/
def Obligations.FirmwareUpdate : Prop :=
  (∀ (tag : BitVec 8) (bytes : List Byte) (s : State), MailboxFree s → updateDenied false s = false →
    mbArg s 3 = 0x20 → mbArg s 2 = bytes.length → s.host.dmaStopped = false → (freeWindow s).isSome = true →
    ∃ t, exec (.fwUpdate tag bytes) s = .next t ∧
      (if imageDenied bytes s then Ended tag .denied t ∧ t.mgt.staged = s.mgt.staged
       else if recordOutside (parseFw bytes) s then Ended tag .version t ∧ t.mgt.staged = s.mgt.staged
       else Ended tag .ok t ∧ t.mgt.staged = some (parseFw bytes) ∧ t.mgt.peel = (if emergency s then .deferred else .staged))) ∧
  (∀ (tag : BitVec 8) (bytes : List Byte) (s : State), MailboxFree s → updateDenied false s = false → s.mgt.flash.present = true →
    mbArg s 3 = 0x10 → mbArg s 2 = bytes.length → s.host.dmaStopped = false → (freeWindow s).isSome = true →
    ∃ t, exec (.fwUpdate tag bytes) s = .next t ∧
      (if imageDenied bytes s then Ended tag .denied t ∧ t.mgt.flashOp = s.mgt.flashOp
       else t.mgt.busy = true ∧ t.mgt.flashOp = .slot (inactiveSlot s) (parseFw bytes) true true ∧
         t.mgt.flash = emptySlot (inactiveSlot s) s.mgt.flash)) ∧
  (∀ (slot : Nat) (i : FwImage) (s : State), s.mgt.flashOp = .slot slot i true true →
    ∃ t, exec (.flashWriteDone true) s = .next t ∧ Ended s.mgt.curTag .ok t ∧ t.mgt.flashOp = .none ∧
      t.mgt.flash = { putSlot slot i s.mgt.flash with trial := some slot }) ∧
  (∀ (slot : Nat) (i : FwImage) (s : State), Groups s → Calm 0 s → s.mgt.flashOp = .slot slot i true true →
    ∃ t, exec (.flashWriteDone false) s = .next t ∧ Ended s.mgt.curTag .aborted t ∧ t.mgt.flash = s.mgt.flash ∧ FaultSet 0 4 t)

/-- Recovery: in flatbread mode RECOVERY_LOAD begins a load at offset 0 of management SRAM, each MGT_RCV_DATA write adds a word, and the
run verifies the image: one that verifies and whose SVN is not below the counter runs, and another is DENIED. RETRY_START clears the
start record and resets the hub into a cold start. (Rests on log entry 76.) -/
def Obligations.RecoveryLoad : Prop :=
  (∀ (tag : BitVec 8) (s : State), s.mgt.busy = false → s.mgt.unavail = false → lifeCycle s ≠ 4 → s.mgt.stage = .flatbread →
    (∃ t, exec (.recoveryLoadBegin tag) s = .next t ∧ Ended tag .ok t ∧ t.mgt.rcvOn = true ∧ t.mgt.rcv = []) ∧
    (s.mgt.rcvOn = true → ∃ t, exec (.recoveryLoadRun tag) s = .next t ∧
      let b := s.mgt.rcv.take (mbArg s 1)
      if fwOk b recoveryRoom && decide (s.lcs.otp.rollback ≤ bfld b 8 0 8) then
        Ended tag .ok t ∧ t.mgt.running = .load ∧ t.mgt.fw = parseFw b ∧ t.mgt.stage = .s1
      else Ended tag .denied t ∧ t.mgt.stage = .flatbread ∧ t.mgt.fw = s.mgt.fw)) ∧
  (∀ (val : Word) (s : State), s.mgt.rcvOn = true → s.mgt.rcv.length + 4 ≤ recoveryRoom →
    exec (.rcvDataWrite val) s = .next { s with mgt := { s.mgt with rcv := s.mgt.rcv ++ leBytes 4 val.toNat } }) ∧
  (∀ (tag : BitVec 8) (s : State), MailboxFree s →
    ∃ t, exec (.retryStart tag) s = .next t ∧ t.mgt.stage = .rom ∧ t.mgt.coldReq = true ∧ t.lcs.otp = s.lcs.otp ∧ t.img.loaded = false ∧
      t.mem.bytes = [] ∧ (s.mgt.flash.present = true → t.mgt.flash.start = {}) ∧ t.pending = s.pending)

/-! ### Images and device mappings -/

/-- LOAD_IMAGE and WRITE_BOOT_IMAGE start the fetch of an image of 64 B to 24 MiB while none is in progress, host DMA runs and a window
entry is free: a read of the whole length goes to the host. A LOAD_IMAGE of length 0 ends EMPTY and a WRITE_BOOT_IMAGE of another
illegal length ABORTED, both with no access. The end of a fetch: steps 1 to 4 of R85 run on the fetched bytes, and the first failing
one ends the load with its status; a full image that passes them waits for its validation (unless the request forbids it). In no
case does the running image change. (Rests on log entry 24.) -/
def Obligations.ImageFetch : Prop :=
  (∀ (tag : BitVec 8) (s : State), MailboxFree s → s.img.load.stage = .idle →
    (64 ≤ mbArg s 2 → mbArg s 2 ≤ 0x01800000 → s.host.dmaStopped = false → (freeWindow s).isSome = true →
      (mbArg s 6 % 4 ≠ 3 → ∃ t i, exec (.loadImage tag) s = .next t ∧ freeWindow s = some i ∧ t.img.load.stage = .fetching ∧
        t.img.load.length = mbArg s 2 ∧ t.img.load.toFlash = false ∧ t.img.run = s.img.run ∧ t.mem = s.mem ∧
        t.out = .hostRead (hubTlp .untranslated) i (mbArg64 s 0) (mbArg s 2) :: s.out) ∧
      (∃ t i, exec (.writeBootImage tag) s = .next t ∧ freeWindow s = some i ∧ t.img.load.stage = .fetching ∧
        t.img.load.length = mbArg s 2 ∧ t.img.load.toFlash = true ∧ t.img.run = s.img.run ∧ t.mem = s.mem ∧
        t.out = .hostRead (hubTlp .untranslated) i (mbArg64 s 0) (mbArg s 2) :: s.out)) ∧
    (mbArg s 2 = 0 → mbArg s 6 % 4 ≠ 3 → ∃ t, exec (.loadImage tag) s = .next t ∧ Ended tag .empty t ∧ t.xlt = s.xlt ∧ t.mem = s.mem ∧
      t.img.load = {}) ∧
    (0 < mbArg s 2 → mbArg s 2 < 64 ∨ 0x01800000 < mbArg s 2 → ∃ t, exec (.writeBootImage tag) s = .next t ∧ Ended tag .aborted t ∧
      t.xlt = s.xlt ∧ t.mem = s.mem ∧ t.img.load = {})) ∧
  (∀ (bytes : List Byte) (s : State), s.img.load.stage = .fetching → s.img.load.boot = false → bytes.length = s.img.load.length →
    let u := dropWindow s.img.load.hwtIx { s with img := { s.img with load := { s.img.load with hwtIx := none } } }
    let c := checkFile u bytes (some bytes.length)
    ∃ t, exec (.imageFetchDone bytes) s = .next t ∧ t.img.run = s.img.run ∧ t.mem = s.mem ∧
      (∀ st, c.1.ends = some st → Ended s.mgt.curTag st t ∧ t.img.load = {} ∧ t.img.report.status = st) ∧
      (c.1.ends = none → c.2.partialKind = false → s.img.load.toFlash = false → s.img.armed.any (fun e => e.2.isSome) = false →
        s.flt.stopped = false → t.img.load.stage = .fetched ∧ t.img.load.cand = c.2 ∧ t.mgt.busy = s.mgt.busy))

/-- The end of validation: a full image for which every enabled partition is HELD, BROKEN or STOPPED waits for its activation, clamped;
where one runs the load ends ABORTED. A partial image for a hold at which its partition stands is armed. (Rests on log entry 24.) -/
def Obligations.ImageValidationEnds : Prop :=
  ∀ s : State, s.img.load.stage = .fetched → s.img.load.boot = false → s.img.load.toFlash = false →
    (s.img.load.cand.partialKind = false → fullOpen s = true → ∃ t, exec .imageValidationDone s = .next t ∧ t.img.fullOk = true ∧
      t.img.load.cand = (clampImage s.img.load.cand).2 ∧ t.img.run = s.img.run ∧ t.mem = s.mem) ∧
    (s.img.load.cand.partialKind = false → fullOpen s = false → ∃ t, exec .imageValidationDone s = .next t ∧
      Ended s.mgt.curTag .aborted t ∧ t.img.fullOk = false ∧ t.img.run = s.img.run) ∧
    (s.img.load.cand.partialKind = true → s.img.load.act = some .atHold → atHold s s.img.load.cand.part = true →
      Tab.get none s.img.armed s.img.load.cand.part = none → ∃ t a, exec .imageValidationDone s = .next t ∧ Ended s.mgt.curTag .ok t ∧
      t.img.armed = Tab.set none s.img.armed s.img.load.cand.part (some a) ∧ a.img = (clampImage s.img.load.cand).2 ∧ a.act = .atHold ∧
      t.img.run = s.img.run ∧ t.mem = s.mem)

/-- Activation of a full image replaces the running image by the validated one, ends the load, and drops every armed partial image;
while a partition is active it ends ABORTED and the running image stays. A partial image whose activation point has not come stays
armed; one that activates leaves no armed image of its partition and merges into the running image. (Rests on log entry 25.) -/
def Obligations.ImageActivation : Prop :=
  (∀ s : State, s.img.fullOk = true → fullOpen s = true →
    ∃ t, exec .fullImageActivate s = .next t ∧ t.img.loaded = true ∧ t.img.run = s.img.load.cand ∧ t.img.fullOk = false ∧
      t.img.load = {} ∧ t.img.armed = []) ∧
  (∀ s : State, s.img.fullOk = true → fullOpen s = false →
    ∃ t, exec .fullImageActivate s = .next t ∧ t.img.run = s.img.run ∧ t.img.fullOk = false ∧ t.mem = s.mem) ∧
  (∀ (p : Fin 64) (s : State) (a : Armed), Tab.get none s.img.armed p.val = some a → actNow s p.val a = true →
    fencedEntries s (exclude (s.part p.val).cfg (exclOf (mergeImage s.img.run a.img p.val) p.val a.img.variant)) p.val none = [] →
    ∃ t, exec (.partialImageActivate p) s = .next t ∧ t.img.armed = Tab.set none s.img.armed p.val none ∧
      t.img.run.base = (mergeImage s.img.run a.img p.val).base ∧ t.img.run.variants = (mergeImage s.img.run a.img p.val).variants) ∧
  (∀ (p : Fin 64) (s : State) (a : Armed), Tab.get none s.img.armed p.val = some a → actNow s p.val a = false →
    exec (.partialImageActivate p) s = .next s)

/-- MAP_DEVICE of length 0 ends EMPTY with no effect; a range that is legal for its partition, free of older mappings and for which
granules and tables are to be had is mapped page by page. UNMAP_DEVICE of a range that mapped pages fill removes every mapping of
it. (Rests on log entry 26.) -/
def Obligations.DeviceMapping : Prop :=
  (∀ (tag : BitVec 8) (s : State), MailboxFree s → mbArg64 s 3 = 0 →
    ∃ t, exec (.mapDevice tag) s = .next t ∧ Ended tag .empty t ∧ t.xlt = s.xlt ∧ t.mem = s.mem) ∧
  (∀ (tag : BitVec 8) (s u v : State) (p : Nat) (rs : List Nat), MailboxFree s →
    let a := mapRange s
    let w := mbArg s 0
    let hbm := bits w 24 2 == 1
    let per := max 1 (kindSize hbm / pageBytes a.2.1)
    let n := a.2.2.2.1 / pageBytes a.2.1
    let runs := (n + per - 1) / per
    a.2.2.2.1 ≠ 0 → a.2.2.2.2 = some p → bits w 24 2 < 2 → (a.2.1 = 3 → bits w 24 2 = 1) →
    s.xlt.maps.any (fun m => m.ctx == a.1 && decide (m.dva < a.2.2.1 + a.2.2.2.1) && decide (a.2.2.1 < m.dva + pageBytes m.page)) = false →
    takeRuns p hbm (max 1 (pageBytes a.2.1 / kindSize hbm)) a.1 (w.testBit 16) runs (running tag s) = some (rs, u) →
    mapPages p (mapPagesOf a.1 a.2.2.1 a.2.1 n per w rs) u = some v →
    ∃ t, exec (.mapDevice tag) s = .next t ∧ Ended tag .ok t ∧ t.xlt.maps = s.xlt.maps ++ mapPagesOf a.1 a.2.2.1 a.2.1 n per w rs) ∧
  (∀ (tag : BitVec 8) (s : State) (p : Nat), MailboxFree s →
    let a := mapRange s
    let hit := s.xlt.maps.filter (fun m => m.ctx == a.1 && decide (m.dva < a.2.2.1 + a.2.2.2.1) && decide (a.2.2.1 < m.dva + pageBytes m.page))
    a.2.2.2.1 ≠ 0 → a.2.2.2.2 = some p →
    hit.all (fun m => decide (a.2.2.1 ≤ m.dva) && decide (m.dva + pageBytes m.page ≤ a.2.2.1 + a.2.2.2.1)) = true →
    (hit.map (fun m => pageBytes m.page)).foldl (· + ·) 0 = a.2.2.2.1 →
    ∃ t, exec (.unmapDevice tag) s = .next t ∧ Ended tag .ok t ∧
      ∀ m ∈ t.xlt.maps, ¬ (m.ctx = a.1 ∧ m.dva < a.2.2.1 + a.2.2.2.1 ∧ a.2.2.1 < m.dva + pageBytes m.page))

/-! ### Steps and proofs -/

/-- The steps of a partition. A release has no effect before its tick. One that is armed for a STOPPED or HELD partition, none of whose
memory is fenced or still being zeroed, starts its next step then: RUNNING, the step counter at its next value, the budget not
ended. At its release tick, 8 ticks after the arrival of a local step, a WAITING partition starts its next step the same way, or is
HELD with END among its reasons where the record ends the program. The budget end is noted; for a local step whose work has ended it
fixes the arrival at the later of the two and arms the release 8 ticks later. Local arrival, reached once all of the step's work has
ended, applies what is armed for the proof, lets the partition wait and raises ARRIVE_OUT at its sites. (Rests on log entries 28,
30.) -/
def Obligations.StepsStartAndEnd : Prop :=
  ∀ (p : Fin 64) (s : State), Canon s →
    (∀ a : ReleaseArm, (s.part p.val).armed = some a → s.clk.now.toNat < a.tick.toNat → exec (.stepRelease p) s = .next (refresh s)) ∧
    (∀ a : ReleaseArm, (s.part p.val).armed = some a → a.tick.toNat ≤ s.clk.now.toNat →
      (s.part p.val).state = .held ∨ (s.part p.val).state = .stopped → zeroPending s p.val = false → memFenced s p.val = false →
      NoWaiters p.val s → ∃ t, exec (.stepRelease p) s = .next t ∧ (t.part p.val).state = .running ∧ (t.part p.val).step = upcoming (s.part p.val) ∧
        (t.part p.val).started = a.tick ∧ (t.part p.val).budgetOver = false ∧ (t.part p.val).armed = none) ∧
    (∀ a : ReleaseArm, (s.part p.val).armed = some a → a.tick.toNat ≤ s.clk.now.toNat → (s.part p.val).state = .waiting →
      recProof (s.part p.val).rec_ = false → recAudit (s.part p.val).rec_ = false → NoWaiters p.val s →
      (holdsDue s p.val = 0 → zeroPending s p.val = false →
        ∃ t, exec (.localRelease p) s = .next t ∧ (t.part p.val).state = .running ∧ (t.part p.val).step = (s.part p.val).step + 1 ∧
          (t.part p.val).started = a.tick) ∧
      (holdsDue s p.val = 2#7 →
        ∃ t, exec (.localRelease p) s = .next t ∧ (t.part p.val).state = .held ∧ (t.part p.val).holds = (s.part p.val).holds ||| 2#7 ∧
          (t.part p.val).hold = firstHold ((s.part p.val).holds ||| 2#7) ∧
          (t.part p.val).step = (s.part p.val).step ∧ (t.part p.val).armed = none)) ∧
    ((s.part p.val).active = true → (s.part p.val).budgetOver = false →
      ((s.part p.val).endLocal = none ∨ (s.part p.val).arrival.isSome = true →
        exec (.budgetEnd p) s = .next (s.modPart p.val (fun x => { x with budgetOver := true }))) ∧
      (∀ e, (s.part p.val).endLocal = some e → (s.part p.val).arrival = none → (s.part p.val).state = .waiting →
        recProof (s.part p.val).rec_ = false → s.mem.due.any (fun d => d.part == some p.val) = false →
        s.mem.toZero.any (fun g => granPart s g == some p.val) = false →
        ∃ t, exec (.budgetEnd p) s = .next t ∧
          let a := if e.toNat < (s.part p.val).budget.toNat then (s.part p.val).budget else e
          (t.part p.val).arrival = some a ∧ (t.part p.val).armed = some { tick := a + 8, distributed := false } ∧ t.mem = s.mem)) ∧
    ((s.part p.val).state = .running → (s.part p.val).endLocal = none → workEnded s p.val = true → recAudit (s.part p.val).rec_ = false →
      (s.part p.val).breakDue = false →
      let u := if recProof (s.part p.val).rec_ then applyProof p.val s else s
      (u.part p.val).budgetOver = false →
      ∃ t, exec (.localArrival p) s = .next t ∧ (t.part p.val).state = .waiting ∧ (t.part p.val).endLocal = some u.clk.now ∧
        ∀ n ∈ u.wireSites p.val, Emit.arriveOut n true ∈ t.out)

/-- What tokens do. An ARRIVE of a child is noted with its step, tick and flags; the last one makes a member send its own ARRIVE to its
parent. A RELEASE of the parent for the running step goes to the children and arms the release for its tick. A HOLD with reason LATE
holds a RUNNING partition, LATE among its reasons, and sets LATE. A BREAK takes a WAITING partition out at once and waits for the
end of the work of a RUNNING one. A token with a wrong CRC sets TOKEN_CRC and has no other effect. The expiries of a proof.
LATE_LIMIT past the budget end without the last arrival: the root holds, LATE among its reasons. PROOF_TIMEOUT without a RELEASE or
a complete HOLD: the partition breaks, and the ports on which nothing was heard are shown. A distributed release that does not
complete: a HELD member breaks, a STOPPED one stays; DOMAIN_BROKEN is set in both. (Rests on log entries 8, 27.) -/
def Obligations.ProofTokensAndExpiries : Prop :=
  (∀ (via : TokenVia) (k : Token) (s : State), Canon s →
    let p := k.domain.val
    let x := s.part p
    (tokenOk k = false → Calm 8 s →
      (k.type = .arrive → ∃ t, exec (.arriveToken via k) s = .next t ∧ FaultSet 8 4 t ∧ t.parts = s.parts) ∧
      (k.type = .release → ∃ t, exec (.releaseToken via k) s = .next t ∧ FaultSet 8 4 t ∧ t.parts = s.parts) ∧
      (k.type = .hold → ∃ t, exec (.holdToken via k) s = .next t ∧ FaultSet 8 4 t ∧ t.parts = s.parts) ∧
      (k.type = .brk → ∃ t, exec (.breakToken via k) s = .next t ∧ FaultSet 8 4 t ∧ t.parts = s.parts)) ∧
    (∀ port, GoodToken .arrive via k port s → x.cfg.enable = true → port ∈ childPorts x →
      (x.arrival = none → x.ready = none → ∃ t, exec (.arriveToken via k) s = .next t ∧ t.mem = s.mem ∧
        { port := port, ready := k.flags.getLsbD 5, step := k.step, tick := k.tick, flags := k.flags } ∈ (t.part p).children ∧
        (port < 8 → (t.part p).heard.getLsbD port = true)) ∧
      (∀ own, x.arrival = some own → x.arriveSent = false → x.state = .waiting → x.cfg.parentValid = true → k.flags.getLsbD 5 = false →
        s.prfUp.getLsbD x.cfg.proofParent.val = true →
        (let c : ChildArr := { port := port, ready := false, step := k.step, tick := k.tick, flags := k.flags }
         let y : Part := { x with children := x.children.filter (fun d => !(d.port == port && d.ready == false)) ++ [c] }
         allArrived y = true → ∃ t, exec (.arriveToken via k) s = .next t ∧ (t.part p).arriveSent = true ∧
           Emit.token (.port x.cfg.proofParent) (mkToken .arrive p (arriveFlags y) y.step32
             (latest s.clk.now.toNat own.toNat (y.children.filter (fun c => !c.ready)))) ∈ t.out))) ∧
    (∀ port, GoodToken .release via k port s → fromParent x port = true → x.state = .waiting → x.armed = none → x.readySent = false →
      k.step.toNat = x.step32 →
      ∃ t, exec (.releaseToken via k) s = .next t ∧ (t.part p).domFlags = k.flags &&& 15#8 ∧ t.mem = s.mem ∧
        (t.part p).armed = some { tick := BitVec.ofNat 64 (expand48 s.clk.now.toNat k.tick.toNat), distributed := false } ∧
        ∀ n ∈ childPorts x, s.prfUp.getLsbD n = true → Emit.token (.port (Fin.ofNat 8 n)) k ∈ t.out) ∧
    (∀ port, GoodToken .hold via k port s → fromParent x port = true → k.step.toNat = x.step32 → k.flags.toNat / 32 = 0 →
      k.flags.getLsbD 4 = false → x.state = .running → x.lateSent = false → Calm 8 s →
      ∃ t, exec (.holdToken via k) s = .next t ∧ (t.part p).state = .held ∧ (t.part p).holds = x.holds ||| 1#7 ∧
        (t.part p).hold = firstHold (x.holds ||| 1#7) ∧ (t.part p).heldDone = false ∧ FaultSet 8 2 t) ∧
    (∀ port, GoodToken .brk via k port s → x.cfg.enable = true → port ∈ treePorts x →
      (x.state = .running → ∃ t, exec (.breakToken via k) s = .next t ∧ (t.part p).breakDue = true ∧ (t.part p).state = .running) ∧
      (x.state = .waiting → x.armed = none → Calm 8 s →
        ∃ t, exec (.breakToken via k) s = .next t ∧ (t.part p).state = .broken ∧ (t.part p).lastStatus = .aborted ∧ FaultSet 8 1 t))) ∧
  (∀ (p : Fin 64) (s : State), Canon s → Calm 8 s →
    let x := s.part p.val
    (x.cfg.parentValid = false → x.active = true → recProof x.rec_ = true → x.budgetOver = true → x.lateSent = false → x.arriveSent = false →
      ∃ t, exec (.lateLimitExpiry p) s = .next t ∧ (t.part p.val).state = .held ∧ (t.part p.val).holds = x.holds ||| 1#7 ∧
        (t.part p.val).hold = firstHold (x.holds ||| 1#7) ∧ (t.part p.val).lateSent = true ∧ (t.part p.val).heldDone = false ∧ FaultSet 8 2 t) ∧
    (x.arrival.isSome = true → recProof x.rec_ = true → x.state = .waiting → x.armed = none →
      ∃ t, exec (.proofTimeoutExpiry p) s = .next t ∧ (t.part p.val).state = .broken ∧ (t.part p.val).lastStatus = .aborted ∧
        (t.part p.val).silent = (treePorts x).foldl (fun (m : BitVec 8) n => if x.heard.getLsbD n then m else putBit m n true) 0 ∧
        FaultSet 8 1 t) ∧
    (x.ready.isSome = true → x.armed = none →
      ∃ t, exec (.readyTimeout p) s = .next t ∧ FaultSet 8 1 t ∧ (t.part p.val).ready = none ∧
        (t.part p.val).state = (if x.state = .held then .broken else x.state)))

/-- The time base. A package with a time parent sends TIME_REQ with its tick and notes it; a parent answers with its own tick; the
answer of the parent at no more than 8 hops steps the counter to the parent's time where no partition of a larger domain would see
it. Losing the parent unlocks the counter, which runs from the reference, and sets TIME_LOST. Proof ports and site wires. A port
that goes down is no longer up, and sets PORT_DOWN where a tree uses it; one that comes up learns its peer and makes the partitions
whose tree uses it measure D. The edges of ARRIVE_IN and RELEASE_IN are noted; an edge of RELEASE_IN that is missing after 64 ticks
sets SITE_ACK and its bit in PRF_SITE_ACK. (Rests on log entry 83.) -/
def Obligations.TimeBaseAndPorts : Prop :=
  (∀ s : State, Canon s →
    (s.clk.parentOk = true → s.prfUp.getLsbD s.clk.parent.val = true →
      ∃ t, exec .timeSyncTimer s = .next t ∧ t.clk = { s.clk with reqTick := some (s.clk.now.toNat, s.clk.frac.toNat) } ∧
        Emit.token (.port s.clk.parent) (mkToken .timeReq 0 0 0 (s.clk.now.toNat % 2 ^ 48) s.clk.frac.toNat) ∈ t.out) ∧
    (∀ (port : Fin 8) (via : TokenVia) (k : Token), GoodTime .timeReq via k port.val s → s.prfUp.getLsbD port.val = true →
      ∃ t, exec (.timeReq via k) s = .next t ∧ t.clk = s.clk ∧
        Emit.token (.port port) (mkToken .timeResp k.domain.val 0 0 (s.clk.now.toNat % 2 ^ 48) s.clk.frac.toNat
          (if s.clk.parentOk then s.clk.hops else 0)) ∈ t.out) ∧
    (∀ (via : TokenVia) (k : Token) (t1 f1 : Nat), GoodTime .timeResp via k s.clk.parent.val s → s.clk.reqTick = some (t1, f1) →
      s.clk.parentOk = true → k.hops.toNat < 8 → stepBarred s = false →
      let t4 : Int := (s.clk.now.toNat * 16 + s.clk.frac.toNat : Nat)
      let delay := (t4 - (t1 * 16 + f1 : Nat) - (k.step.toNat : Int)) / 2
      let v := (((expand48 s.clk.now.toNat k.tick.toNat * 16 + k.frac.toNat : Nat) : Int) + delay).toNat
      ∃ t, exec (.timeResp via k) s = .next t ∧ t.clk.now = BitVec.ofNat 64 (v / 16) ∧ t.clk.frac = BitVec.ofNat 4 v ∧
        t.clk.locked = true ∧ t.clk.hops = k.hops.toNat + 1 ∧ t.clk.reqTick = none) ∧
    (s.clk.parentOk = true → Calm 8 s → ∃ t, exec .timeParentLost s = .next t ∧ FaultSet 8 5 t ∧ t.parts = s.parts ∧
      t.clk = { s.clk with locked := false, onRef := true, reqTick := none, slew := 0 })) ∧
  ((∀ (port : Fin 8) (s : State), Canon s → Calm 8 s →
    (∃ t, exec (.proofPortDown port) s = .next t ∧ t.prfUp.getLsbD port.val = false ∧ t.parts = s.parts ∧
      (portInUse s port.val = true → FaultSet 8 6 t)) ∧
    (∀ peer, ∃ t, exec (.proofPortUp port peer) s = .next t ∧ t.prfUp.getLsbD port.val = true ∧ t.prfPeer = Tab.set 0 s.prfPeer port.val peer ∧
      t.mem = s.mem)) ∧
  (∀ (n : Fin 18) (s : State), exec (.siteArriveIn n) s = .next (s.setSite n.val { s.site n.val with arrived := true }) ∧
    exec (.siteReleaseIn n) s = .next (s.setSite n.val { s.site n.val with relAck := true })) ∧
  (∀ (n : Fin 18) (s : State), Canon s → Calm 8 s → (s.site n.val).relAck = false →
    (s.site n.val).state = .admitted ∨ (s.site n.val).state = .retrain →
    ∃ t, exec (.siteAckTimeout n) s = .next t ∧ FaultSet 8 3 t ∧ t.siteAck.getLsbD n.val = true ∧ t.mem = s.mem))

/-- The control registers of a partition. HOLD is kept for the next proof, or for the one after it where the release stands. A release
out of HELD or STOPPED makes the member ready; in a domain of one package it arms the release 2,400 ticks and the margin later. A
starter is armed in STOPPED and HELD unless the policy takes the image's; the step counter while the partition does not run. A
refused write sets PARAM_REFUSED and changes nothing of the partition. (Rests on log entry 13.) -/
def Obligations.PartitionControl : Prop :=
  ∀ (p : Fin 64) (s : State), Canon s →
    let x := s.part p.val
    (exec (.partHold p) s = .next (s.setPart p.val
      (if x.armed.isSome && x.state == .waiting then { x with holdNext := true } else { x with hostHold := true }))) ∧
    (exec (.partRemeasure p) s = .next (s.setPart p.val { x with remeasure := true })) ∧
    (∀ stream, (x.state = .stopped ∨ x.state = .held) → starterPolicy s ≠ 1 → exec (.starterArm p stream) s =
      .next (s.setPart p.val { x with runStarter := some { seed := x.seedHi ++ x.seedLo, stream := stream } })) ∧
    (∀ hi, x.active = false → exec (.stepCounterArm p hi) s = .next (s.setPart p.val { x with stepNew := some (hi ++ x.stepLo) })) ∧
    (canRelease s p.val = true → x.ready = none → x.readySent = false → x.armed = none → x.cfg.parentValid = false → childPorts x = [] →
      x.children = [] → (x.state = .held → x.heldDone = true) → s.thm.trips = [] →
      ∃ t, exec (.partRelease p) s = .next t ∧ (t.part p.val).ready = some s.clk.now ∧ (t.part p.val).armed = some { distributed := true, tick := BitVec.ofNat 64 (s.clk.now.toNat + 2400 + (if x.remeasure || x.treeNew then x.cfg.margin else x.margin)) }) ∧
    (Calm 8 s → (canRelease s p.val = false → ∃ t, exec (.partRelease p) s = .next t ∧ FaultSet 8 0 t ∧ t.parts = s.parts) ∧
      (∀ stream, x.active = true ∨ x.state = .broken ∨ starterPolicy s = 1 →
        ∃ t, exec (.starterArm p stream) s = .next t ∧ FaultSet 8 0 t ∧ t.parts = s.parts) ∧
      (∀ hi, x.active = true → ∃ t, exec (.stepCounterArm p hi) s = .next t ∧ FaultSet 8 0 t ∧ t.parts = s.parts))

/-! ### The fabric -/

/-- The control micro-operations, where a running cell stands at one and no error is injected into it. NOP goes to the next; END ends
the cell; LOOP at zero falls through and idles its counter, and otherwise counts down and jumps, an idle counter loading its count;
WAITP issues once its engine's progress has reached the threshold and raises the threshold; SYNC waits, unless every other cell of
the column already waits with the same number, which frees them all. The commands of the fabric's columns and cells. An
uncorrectable error poisons what it struck, sets its bit and records the physical cell. A fence or remap of a column whose owner
runs is armed for its proof, and otherwise done at once, the moved cells zeroed with the slots of the resident image; with the spare
in use a remap is refused, and a second row to be replaced before the proof leaves a fence. One configuration write reaches every
addressed cell of the columns that take it. (Rests on log entries 33, 34, 35.) -/
def Obligations.CellControlAndColumns : Prop :=
  (∀ (n : Fin 2048) (x : UCtx) (s : State), Canon s → CleanCell n.val s → nextUop s n.val = some x →
    (x.u.op = 0x00 → ∃ t, exec (.uNop n) s = .next t ∧ Advanced n.val x s t) ∧
    (x.u.op = 0x01 → ∃ t, exec (.uEnd n) s = .next t ∧ (t.cell n.val).done = true ∧ t.mem = s.mem) ∧
    (x.u.op = 0x02 →
      let k := bits x.u.imm 22 1
      let v := (Tab.get none (s.cell n.val).loops k).getD (bits x.u.imm 6 16)
      ∃ t, exec (.uLoop n) s = .next t ∧ t.mem = s.mem ∧
        (t.cell n.val).loops = Tab.set none (s.cell n.val).loops k (if v = 0 then none else some (v - 1)) ∧
        (t.cell n.val).pc = (if v = 0 then (s.cell n.val).pc + 1 else bits x.u.imm 0 6)) ∧
    (x.u.op = 0x03 → (s.cell n.val).waitThr.toNat ≤ (s.xfe (bits x.u.imm 0 6)).progress.toNat →
      ∃ t, exec (.uWaitp n) s = .next t ∧ Advanced n.val x s t ∧
        (t.cell n.val).waitThr = (s.cell n.val).waitThr + BitVec.ofNat 32 (sfld x.sl 0x3C 0 32)) ∧
    (x.u.op = 0x03 → (s.xfe (bits x.u.imm 0 6)).progress.toNat < (s.cell n.val).waitThr.toNat → exec (.uWaitp n) s = .next s) ∧
    (x.u.op = 0x04 → (s.cell n.val).killed = false →
      let others := ((List.range 16).map (fun r => cellBase (colOf n.val) + r)).filter (fun m => m != n.val && !(s.cell m).killed)
      ∃ t, exec (.uSync n) s = .next t ∧ Advanced n.val x s t ∧
        (t.cell n.val).sync = (if others.all (fun m => (s.cell m).sync == some (bits x.u.imm 0 8)) then none else some (bits x.u.imm 0 8)))) ∧
  ((∀ (n : Fin 2048) (w : CellPart) (s : State), Canon s → Calm (24 + n.val / 512) s →
    ∃ t, exec (.cellFault n w) s = .next t ∧ FaultSet (24 + n.val / 512) (strikeBit w) t ∧ t.mem = s.mem ∧
      (t.quad (n.val / 512)).fCell = physCell s n.val ∧ ((s.col (colOf n.val)).spare = true → FaultSet (24 + n.val / 512) 8 t) ∧
      (∀ r : Fin 32, w = .vreg r ∨ w = .residue r → (Tab.get {} (t.cell n.val).v r.val).poison = true) ∧
      (∀ l, w = .ls l → (Tab.get {} (t.cell n.val).ls l.val).poison = true) ∧ (∀ k, w = .slot k → (t.cell n.val).slotBad.getLsbD k.val = true) ∧
      (∀ a, w = .accParity a → (Tab.get {} (t.cell n.val).acc a.val).poison = true)) ∧
  (∀ (k : Fin 128) (s : State), Canon s → (s.col k.val).fenced = false →
    ∃ t, exec (.fabColFence k) s = .next t ∧
      (if ownerActive s (s.col k.val).owner then t = s.setCol k.val { s.col k.val with arm := .fence }
       else t.col k.val = { s.col k.val with fenced := true, arm := .none })) ∧
  (∀ (k : Fin 128) (row : Fin 16) (s : State), Canon s →
    ((s.col k.val).fenced = false → (s.col k.val).spare = false → (s.col k.val).spareBad = false → ∃ t, exec (.fabColRemap k row) s = .next t ∧
      (if ownerActive s (s.col k.val).owner then
         t = s.setCol k.val { s.col k.val with arm := (if (s.col k.val).arm == .none || (s.col k.val).arm == .remap row.val then .remap row.val else .fence) }
       else t.col k.val = { s.col k.val with spare := true, bypass := row.val, arm := .none } ∧
         ∀ r : Fin 16, row.val ≤ r.val → (t.cell (cellBase k.val + r.val)).v = [] ∧ (t.cell (cellBase k.val + r.val)).ls = [] ∧
           (t.cell (cellBase k.val + r.val)).slots = residentSlots s (cellBase k.val + r.val))) ∧
    ((s.col k.val).spare = true → Calm (24 + k.val / 32) s →
      ∃ t, exec (.fabColRemap k row) s = .next t ∧ FaultSet (24 + k.val / 32) 0 t ∧ t.fab = s.fab)) ∧
  (∀ (q : Fin 4) (cols : BitVec 32) (rows : BitVec 16) (slot : Fin 8) (img : BitVec 16384) (s : State), Canon s →
    (slotOfImage s img = true → ∃ t, exec (.cfgBcast q cols rows slot img) s = .next t ∧ t.mem = s.mem ∧
      ∀ (k : Fin 32) (r : Fin 16), (t.cell (cellBase (q.val * 32 + k.val) + r.val)).slots =
        (let old := (s.cell (cellBase (q.val * 32 + k.val) + r.val)).slots
         if cols.getLsbD k.val && rows.getLsbD r.val && cfgOpen s (q.val * 32 + k.val) then Tab.set 0 old slot.val img else old)) ∧
    (slotOfImage s img = false → exec (.cfgBcast q cols rows slot img) s = .next s)))

/-- The elementwise micro-operations, where a running cell stands at one, its operands are there and no error is injected into it: each
element of the destination is what the rules of arithmetic give for the elements of the sources, the rounding mode, FTZ and the
lane's draw; a poisoned source poisons the result; the cell goes to the next micro-operation, and no other cell's registers change.
(Rests on log entries 31, 36.) -/
def Obligations.ElementwiseMicroOps : Prop :=
  ∀ (n : Fin 2048) (x : UCtx) (s : State), Canon s → CleanCell n.val s →
    (Issues n.val 0x10 srcAB x s → ∃ t, exec (.uAdd n) s = .next t ∧
      Written n.val x (elemwise x s (srcVals n.val srcAB x s) (fun d a b _ => arithAdd x.u.fmt x.rnd x.ftz d a b)) (srcBad n.val srcAB x s) s t) ∧
    (Issues n.val 0x11 srcAB x s → ∃ t, exec (.uSub n) s = .next t ∧
      Written n.val x (elemwise x s (srcVals n.val srcAB x s) (fun d a b _ => arithSub x.u.fmt x.rnd x.ftz d a b)) (srcBad n.val srcAB x s) s t) ∧
    (Issues n.val 0x12 srcAB x s → ∃ t, exec (.uMul n) s = .next t ∧
      Written n.val x (elemwise x s (srcVals n.val srcAB x s) (fun d a b _ => arithMul x.u.fmt x.rnd x.ftz d a b)) (srcBad n.val srcAB x s) s t) ∧
    (Issues n.val 0x13 srcABC x s → ∃ t, exec (.uFma n) s = .next t ∧
      Written n.val x (elemwise x s (srcVals n.val srcABC x s) (fun d a b c => arithFma x.u.fmt x.rnd x.ftz d a b c))
        (srcBad n.val srcABC x s) s t) ∧
    (Issues n.val 0x14 srcAB x s → ∃ t, exec (.uMax n) s = .next t ∧
      Written n.val x (elemwise x s (srcVals n.val srcAB x s) (fun _ a b _ => arithPick x.u.fmt x.ftz true a b)) (srcBad n.val srcAB x s) s t) ∧
    (Issues n.val 0x15 srcAB x s → ∃ t, exec (.uMin n) s = .next t ∧
      Written n.val x (elemwise x s (srcVals n.val srcAB x s) (fun _ a b _ => arithPick x.u.fmt x.ftz false a b)) (srcBad n.val srcAB x s) s t) ∧
    (Issues n.val 0x16 srcABC x s → ∃ t, exec (.uSel n) s = .next t ∧
      Written n.val x (elemwise x s (srcVals n.val srcABC x s) (fun _ a b c => if c = 0 then b else a)) (srcBad n.val srcABC x s) s t) ∧
    (Issues n.val 0x28 srcA x s → ∃ t, exec (.uSfu n) s = .next t ∧
      Written n.val x (elemwise x s (srcVals n.val srcA x s) (fun _ a _ _ => sfuLane (bits x.u.imm 0 4) x.u.fmt x.rnd x.ftz a))
        (srcBad n.val srcA x s) s t) ∧
    (Issues n.val 0x3B srcAB x s → ∃ t, exec (.uCmul n) s = .next t ∧
      Written n.val x (cmulBody x (srcVals n.val srcAB x s) s) (srcBad n.val srcAB x s) s t) ∧
    (Issues n.val 0x20 (fun u => if perLine u.fmt < perLine (bits u.imm 0 4) then srcAD u else srcA u) x s →
      let src := fun (u : Uop) => if perLine u.fmt < perLine (bits u.imm 0 4) then srcAD u else srcA u
      ∃ t, exec (.uCvt n) s = .next t ∧ Written n.val x (cvtBody x (srcVals n.val src x s) s) (srcBad n.val src x s) s t)

/-- The micro-operations over a whole register, under the same conditions: dot products into an accumulator, MX packing (elements into
one register, the shared scale into a byte of another) and unpacking (into one register of BF16 or two of FP32), the tree sum, the
grid's exponent, quantisation, sum and rounding, permutations, and four Philox blocks that advance the draw index of their lanes.
(Rests on log entry 31.) -/
def Obligations.RegisterMicroOps : Prop :=
  ∀ (n : Fin 2048) (x : UCtx) (s : State), Canon s → CleanCell n.val s →
    (let src := fun (u : Uop) => [u.a, u.b, if 6 ≤ u.fmt ∧ u.fmt ≤ 11 then u.c else 0x3F, u.dst]
     Issues n.val 0x18 src x s → ∃ t, exec (.uDot n) s = .next t ∧
       Written n.val x (dotBody x (srcVals n.val src x s)) (srcBad n.val src x s) s t) ∧
    (let src := fun (u : Uop) => [u.a, if u.imm.testBit 0 then 0x3F else u.a + 1, u.dst, u.c]
     Issues n.val 0x21 src x s → x.u.dst < 0x20 → x.u.c < 0x20 → ∃ t, exec (.uMxpack n) s = .next t ∧ Advanced n.val x s t ∧
       (let r := mxpackBody x (srcVals n.val src x s) s
        let v := fun (k : Nat) => (⟨BitVec.ofNat 512 k, srcBad n.val src x s⟩ : Vec)
        (t.cell n.val).v = Tab.set {} (Tab.set {} (s.cell n.val).v x.u.dst (v r.1)) x.u.c (v r.2))) ∧
    (let src := fun (u : Uop) => [u.a, u.c]
     Issues n.val 0x22 src x s → x.u.dst + (if x.u.imm.testBit 0 then 0 else 1) < 0x20 → ∃ t, exec (.uMxunpack n) s = .next t ∧ Advanced n.val x s t ∧
       (let r := mxunpackBody x (srcVals n.val src x s) s
        let v := fun (k : Nat) => (⟨BitVec.ofNat 512 k, srcBad n.val src x s⟩ : Vec)
        (t.cell n.val).v = (if x.u.imm.testBit 0 then Tab.set {} (s.cell n.val).v x.u.dst (v (joinW 16 r))
          else Tab.set {} (Tab.set {} (s.cell n.val).v x.u.dst (v (joinW 32 (r.take 16)))) (x.u.dst + 1) (v (joinW 32 (r.drop 16)))))) ∧
    (Issues n.val 0x30 srcAD x s → ∃ t, exec (.uLsum n) s = .next t ∧
      Written n.val x (setBits 512 (nth (srcVals n.val srcAD x s) 1) 0 (fmtOf x.u.fmt).width
        (laneSum x.u.fmt x.rnd x.ftz (lanesOf x.u.fmt (nth (srcVals n.val srcAD x s) 0)))) (srcBad n.val srcAD x s) s t) ∧
    (Issues n.val 0x31 srcAD x s → ∃ t, exec (.uGmax n) s = .next t ∧
      Written n.val x (setBits 512 (nth (srcVals n.val srcAD x s) 1) 0 16
        ((lanesOf x.u.fmt (nth (srcVals n.val srcAD x s) 0)).foldl (fun w v => expJoin w (expWord x.u.fmt x.ftz v))
          (bits (nth (srcVals n.val srcAD x s) 1) 0 16))) (srcBad n.val srcAD x s) s t) ∧
    (Issues n.val 0x32 srcAB x s → ∃ t, exec (.uGq n) s = .next t ∧
      Written n.val x (joinW 128 ((List.range 4).map (fun k => gridQ x.u.fmt x.ftz (bits (nth (srcVals n.val srcAB x s) 1) 0 16)
        (lane (fmtOf x.u.fmt).width (nth (srcVals n.val srcAB x s) 0) (4 * bits x.u.imm 0 2 + k))))) (srcBad n.val srcAB x s) s t) ∧
    (Issues n.val 0x33 srcAB x s → ∃ t, exec (.uGadd n) s = .next t ∧
      Written n.val x (joinW 128 ((List.range 4).map (fun k => (lane 128 (nth (srcVals n.val srcAB x s) 0) k +
        lane 128 (nth (srcVals n.val srcAB x s) 1) k) % 2 ^ 128))) (srcBad n.val srcAB x s) s t) ∧
    (Issues n.val 0x34 srcABD x s → ∃ t, exec (.uGrnd n) s = .next t ∧
      Written n.val x (join x.u.fmt ((List.range 4).foldl (fun d k => setAt d (4 * bits x.u.imm 0 2 + k)
        (gridRound x.u.fmt x.rnd x.ftz (bits (nth (srcVals n.val srcABD x s) 1) 0 16) (lane 128 (nth (srcVals n.val srcABD x s) 0) k)))
        (lanesOf x.u.fmt (nth (srcVals n.val srcABD x s) 2)))) (srcBad n.val srcABD x s) s t) ∧
    (Issues n.val 0x3A srcA x s → ∃ t, exec (.uShuf n) s = .next t ∧
      Written n.val x (shufBody x (nth (srcVals n.val srcA x s) 0)) (srcBad n.val srcA x s) s t) ∧
    (Issues n.val 0x3C noSrc x s →
      let ls := (List.range 4).map (· + 4 * bits x.u.imm 0 3)
      ∃ t, exec (.uRng n) s = .next t ∧
        Written n.val x (joinW 32 (ls.flatMap (fun l => drawBlock ((s.part x.p).starter.getD { seed := 0, stream := 0 }) x.ctx
          (s.part x.p).step.toNat (Tab.get 0#32 (s.cell n.val).draw l).toNat l n.val 0))) false s t ∧
        (t.cell n.val).draw = ls.foldl (fun t l => Tab.upd 0 t l (· + 1)) (s.cell n.val).draw)

/-- The micro-operations that load, store and send requests. LD and LDC load a line of the local store or of the slot; an uncorrectable
error poisons the result and sets LS_UE. ST stores a line. GET and GATHER send one scheduled read per element and wait for its data;
PUT and SCATTER send one scheduled write per element, and the cell counts the acknowledgements it waits for. (Rests on log entry
31.) -/
def Obligations.MemoryMicroOps : Prop :=
  ∀ (n : Fin 2048) (x : UCtx) (s : State), Canon s → CleanCell n.val s →
    (∀ e, Issues n.val 0x08 noSrc x s →
      let v : Vec := Tab.get {} (s.cell n.val).ls (lpLine s x)
      (e ≠ .uncorrectable → ∃ t, exec (.uLd n e) s = .next t ∧ Written n.val x v.bits.toNat v.poison s t) ∧
      (e = .uncorrectable → Calm (24 + n.val / 512) s → ∃ t, exec (.uLd n e) s = .next t ∧ Written n.val x v.bits.toNat true s t ∧
        FaultSet (24 + n.val / 512) 1 t)) ∧
    (∀ e, e ≠ .uncorrectable → Issues n.val 0x0C noSrc x s → ∃ t, exec (.uLdc n e) s = .next t ∧
      Written n.val x (sfld x.sl (0x280 + 64 * bits x.u.imm 0 5) 0 512) false s t) ∧
    (∀ e, e ≠ .uncorrectable → Issues n.val 0x09 srcA x s → ∃ t, exec (.uSt n e) s = .next t ∧ Advanced n.val x s t ∧
      (t.cell n.val).ls = Tab.set {} (s.cell n.val).ls (lpLine s x)
        { bits := BitVec.ofNat 512 (nth (srcVals n.val srcA x s) 0), poison := srcBad n.val srcA x s }) ∧
    (∀ pa, Issues n.val 0x0A noSrc x s → mayRead s n.val = true →
      let dva := (bPtr s x + bits x.u.imm 0 21 * 64) % 2 ^ 48
      dva < 2 ^ 47 → translate s (portOf (.cell n.val)) x.ctx dva false = .ok pa → ∃ t, exec (.uGet n) s = .next t ∧ Advanced n.val x s t ∧
        (t.cell n.val).rets = (s.cell n.val).rets ++ [{ tags := [(s.noc.nextTag, none)], size := 64 }] ∧
        t.noc.reqs = s.noc.reqs ++ [cellReq x false pa 64 [] false s]) ∧
    (∀ pa, Issues n.val 0x0B srcA x s →
      let dva := (bPtr s x + bits x.u.imm 0 21 * 64) % 2 ^ 48
      dva < 2 ^ 47 → translate s (portOf (.cell n.val)) x.ctx dva true = .ok pa → ∃ t, exec (.uPut n) s = .next t ∧ Advanced n.val x s t ∧
        (t.cell n.val).writes = (s.cell n.val).writes + 1 ∧
        t.noc.reqs = s.noc.reqs ++ [cellReq x true pa 64 (leBytes 64 (nth (srcVals n.val srcA x s) 0)) (srcBad n.val srcA x s) s]) ∧
    (Issues n.val 0x38 srcA x s → mayRead s n.val = true →
      let g := gatherAddrs x (bPtr s x) (nth (srcVals n.val srcA x s) 0)
      TranslateAll (portOf (.cell n.val)) x.ctx false g.1 s → ∃ t, exec (.uGather n) s = .next t ∧ Advanced n.val x s t ∧
        t.noc.nextTag = s.noc.nextTag + g.1.length ∧
        ∃ rs, (t.cell n.val).rets = rs ++ [({ tags := (List.range g.1.length).map (fun i => (s.noc.nextTag + i, none)), size := g.2, poison := srcBad n.val srcA x s } : Ret)]) ∧
    (Issues n.val 0x39 srcAB x s →
      let g := gatherAddrs x (bPtr s x) (nth (srcVals n.val srcAB x s) 0)
      TranslateAll (portOf (.cell n.val)) x.ctx true g.1 s → ∃ t, exec (.uScatter n) s = .next t ∧ Advanced n.val x s t ∧
        t.noc.nextTag = s.noc.nextTag + g.1.length ∧ (t.cell n.val).writes = (s.cell n.val).writes + g.1.length)

/-! ### Transfer engines and translation -/

/-- The life of a descriptor at an engine. An idle engine's oldest descriptor waits; at a fenced engine it ends ABORTED. Once its wait
is satisfied it ends EMPTY with a count of 0, ends ABORTED with a host side while host DMA is stopped, and otherwise, with no host
side, runs. When everything outstanding is complete the ending descriptor's status, flags and index are shown, a FAULTED one counts
and sets UNRESOLVED, failed segments set WRITE_REFUSED, its completion record stands in memory, or goes to the home of a coherent
line as a posted write, and the engine goes idle. An abort stops it before its first unwritten element. A fence waits for the
owner's proof and for the engine; a re-admission is refused unless the engine is fenced. (Rests on log entries 28, 40.) -/
def Obligations.TransferEngines : Prop :=
  ∀ (e : Fin 64) (s : State), Canon s →
    let x := s.xfe e.val
    (∀ d rest, x.queue = d :: rest → x.run = .idle →
      exec (.xfeDescArrive e) s = .next (s.setXfe e.val { x with run := .wait, cur := some { desc := d }, queue := rest })) ∧
    (∀ d rest, x.queue = d :: rest → x.run = .fenced → FromPool d → ∃ t, exec (.xfeDescArrive e) s = .next t ∧
      (t.xfe e.val).queue = rest ∧ (t.xfe e.val).lastStat = .aborted ∧ (t.xfe e.val).run = .fenced ∧ t.mem = s.mem) ∧
    (∀ c, x.cur = some c → x.run = .wait → waitMet s c.desc = true → sealTurn s c.desc = true → (s.grp 12).inject = 0 →
      (c.desc.counts.any (· == 0) = true → FromPool c.desc → c.failed = [] → x.queue = [] → x.fencePend = false →
        ∃ t, exec (.xfeWaitSatisfied e) s = .next t ∧ (t.xfe e.val).lastStat = .empty ∧ (t.xfe e.val).run = .idle ∧
          (t.xfe e.val).cur = none ∧ t.mem = s.mem ∧ t.noc = s.noc) ∧
      (c.desc.counts.any (· == 0) = false → c.desc.hostSide = true → s.host.dmaStopped = true →
        ∃ t c2, exec (.xfeWaitSatisfied e) s = .next t ∧ (t.xfe e.val).run = .ending ∧ (t.xfe e.val).cur = some c2 ∧
          c2.endAs = some .aborted ∧ t.mem = s.mem ∧ t.noc = s.noc) ∧
      (c.desc.counts.any (· == 0) = false → c.desc.hostSide = false →
        exec (.xfeWaitSatisfied e) s = .next (pumpXfe e.val none (traceAt e.val x.owner
          (s.setXfe e.val { x with run := .run, cur := some { c with drawBase := x.draw } }))))) ∧
    (∀ c st, x.cur = some c → x.run = .ending → c.units = [] → c.drain = [] → c.endAs = some st → FromPool c.desc → x.queue = [] →
      x.fencePend = false →
      (st ≠ .faulted → c.failed = [] → c.desc.compValid = false → ∃ t, exec (.xfeComplete e) s = .next t ∧ (t.xfe e.val).lastStat = st ∧
        (t.xfe e.val).lastFlags = BitVec.ofNat 8 c.flags ∧ (t.xfe e.val).lastDesc = BitVec.ofNat 16 c.desc.src.index ∧
        (t.xfe e.val).run = .idle ∧ (t.xfe e.val).cur = none ∧ t.mem = s.mem) ∧
      (st = .faulted → c.failed = [] → c.desc.compValid = false → Calm 12 s → ∃ t, exec (.xfeComplete e) s = .next t ∧
        (t.xfe e.val).lastStat = .faulted ∧ (t.xfe e.val).unresolved = satInc x.unresolved ∧ FaultSet 12 2 t) ∧
      (st ≠ .faulted → c.failed ≠ [] → c.desc.compValid = false → Calm 12 s → ∃ t, exec (.xfeComplete e) s = .next t ∧
        (t.xfe e.val).lastStat = st ∧ (t.xfe e.val).failedN = BitVec.ofNat 32 c.failed.length ∧ FaultSet 12 3 t ∧
        ∀ p, x.owner = some p → (t.part p).flags.getLsbD 1 = true) ∧
      (∀ pa, st = .ok → c.failed = [] → c.desc.compValid = true → c.desc.comp < 2 ^ 47 → c.desc.comp % 64 = 0 →
        translate s e.val c.desc.ctx c.desc.comp true = .ok pa →
        let bs := compRecord e.val (match x.owner with | some p => (s.part p).step.toNat | none => 0) c .ok
        (∀ g, memCheck s pa c.desc.ctx = .pass g → coherent s pa = false →
          ∃ t, exec (.xfeComplete e) s = .next t ∧ (t.xfe e.val).lastStat = .ok ∧
            (∀ i < 64, t.mem.byte (pa + i) = bs.getD i 0) ∧ (∀ a, a < pa ∨ pa + 64 ≤ a → t.mem.byte a = s.mem.byte a)) ∧
        (coherent s pa = true → ∃ t q, exec (.xfeComplete e) s = .next t ∧ (t.xfe e.val).lastStat = .ok ∧ t.mem = s.mem ∧
          t.noc.reqs = s.noc.reqs ++ [q] ∧ q.write = true ∧ q.addr = pa ∧ q.ctx = c.desc.ctx ∧ q.data = bs))) ∧
    (∀ c, x.cur = some c → x.run = .wait ∨ x.run = .run ∨ x.run = .faultWait → ∃ t c2, exec (.xfeAbort e) s = .next t ∧
      (t.xfe e.val).run = .ending ∧ (t.xfe e.val).cur = some c2 ∧ c2.endAs = some .aborted ∧ c2.cut = some (min c.front (c.cut.getD c.front)) ∧ t.mem = s.mem) ∧
    (x.run ≠ .fenced → exec (.xfeFence e) s =
      .next (s.setXfe e.val (if ownerActive s x.owner || x.run != .idle then { x with fencePend := true } else { x with run := .fenced, fencePend := false }))) ∧
    (x.run = .fenced → exec (.xfeReadmit e) s =
      .next (s.setXfe e.val (if ownerActive s x.owner then { x with readmPend := true } else { x with run := .idle, readmPend := false }))) ∧
    (x.run ≠ .fenced → Calm 12 s → ∃ t, exec (.xfeReadmit e) s = .next t ∧ FaultSet 12 0 t ∧ t.xfes = s.xfes)

/-- Page faults and the translations of the host. A completed translation is held in the engine's buffer and in the second level, where
it serves every address of its page, and is no longer waited for; one that fails sets ATS_ERROR. A page that comes resumes its
engine, one that the host calls invalid or that does not come within FAULT_LIMIT ends the transfer FAULTED, and a failed page
request interface stops, with PRI_FAILED. An invalidation drops the translations of its range and is completed and counted once what
it waits for has ended. ATS and PRI follow their enables. The host window table. A commit that breaks no rule writes its entry at
once where no host read runs through the old one, and otherwise pends until those have ended; a refused commit sets PARAM_REFUSED
and leaves the table. (Rests on log entry 41.) -/
def Obligations.HostTranslationAndWindows : Prop :=
  (∀ (e : Fin 64) (s : State), Canon s →
    let x := s.xfe e.val
    (∀ (iova host : BitVec 64) (size ctx : Nat) (r w : Bool),
      let pg := iova.toNat / 4096 * 4096
      let p := atsPage ctx pg size host.toNat r w
      s.xlt.atsWait.find? (fun q => q.1 == e.val && q.2.2 == pg) = some (e.val, ctx, pg) → x.cur = none → x.owner = none →
      ((r || w) = true → ∃ t, exec (.atsTranslationCompletion e iova size host r w .sc) s = .next t ∧ t.mem = s.mem ∧
        t.xlt.atsWait = s.xlt.atsWait.erase (e.val, ctx, pg) ∧ p ∈ Tab.get [] t.xlt.bufs e.val ∧
        p ∈ Tab.get [] t.xlt.l2 (xlSet p.base p.size) ∧ p.covers true ctx pg = true ∧
        ∀ k i, size = 2 ^ k → i < 4096 → p.goal + (pg + i - p.base) = host.toNat / max 4096 size * max 4096 size + (pg + i) % max 4096 size) ∧
      (∀ cpl, cpl ≠ .sc → Calm 11 s → ∃ t, exec (.atsTranslationCompletion e iova size host r w cpl) s = .next t ∧ FaultSet 11 6 t ∧
        t.xlt.bufs = s.xlt.bufs ∧ t.xlt.l2 = s.xlt.l2)) ∧
    (∀ c, x.cur = some c → x.run = .faultWait → x.ringVi = none → x.pageReq = true → x.pageWait = false →
      (exec (.prgResponse e .success) s = .next (refresh (sendPageReqs (pumpXfe e.val none
        (s.setXfe e.val { x with run := .run, pageReq := false, cur := some { c with resumed := true } }))))) ∧
      (∃ t c2, exec (.prgResponse e .invalid) s = .next t ∧ (t.xfe e.val).run = .ending ∧ (t.xfe e.val).cur = some c2 ∧
        c2.endAs = some .faulted ∧ t.mem = s.mem) ∧
      ((∀ k, (s.xfe k).ringVi = none) → Calm 11 s → ∃ t, exec (.prgResponse e .failure) s = .next t ∧ t.xlt.priStopped = true ∧
        FaultSet 11 7 t ∧ (t.xfe e.val).run = .ending)) ∧
    (∀ c, x.cur = some c → x.run = .faultWait → x.ringVi = none → ∃ t c2, exec (.faultLimitExpiry e) s = .next t ∧
      (t.xfe e.val).run = .ending ∧ (t.xfe e.val).cur = some c2 ∧ c2.endAs = some .faulted ∧
      c2.cut = some (min c.next (c.cut.getD c.next)) ∧ t.mem = s.mem ∧ (t.xfe e.val).pageReq = x.pageReq) ∧
    (∀ (itag : Fin 32) (iova : BitVec 64) (size : Nat), EnginesIdle s → ∃ t, exec (.atsInvalidate itag iova size) s = .next t ∧
      t.mem = s.mem ∧ (∀ u a, (a ∈ Tab.get [] t.xlt.bufs u ↔ a ∈ Tab.get [] s.xlt.bufs u ∧ (a.host && overlaps a.base a.size iova.toNat size) = false) ∧
        (a ∈ Tab.get [] t.xlt.l2 u ↔ a ∈ Tab.get [] s.xlt.l2 u ∧ (a.host && overlaps a.base a.size iova.toNat size) = false)) ∧
      ∃ v, t.xlt.invals = s.xlt.invals ++ [v] ∧ v.itag = itag.val ∧ v.since = s.clk.now) ∧
    (∀ (itag : Fin 32) (v : Inval), s.xlt.invals.find? (fun v => v.itag == itag.val) = some v →
      s.noc.reqs.any (fun r => v.waits.contains r.tag) = false → ∃ t, exec (.invalidateCompletion itag) s = .next t ∧
      t.out = .invDone (hubTlp .untranslated) itag.val :: s.out ∧ t.xlt.invCount = satInc s.xlt.invCount ∧ t.xlt.invals = s.xlt.invals.erase v) ∧
    (∀ on, EnginesIdle s → ∃ t, exec (.atsEnable on) s = .next t ∧ t.xlt.atsEn = on ∧ t.mem = s.mem ∧
      t.xlt.atsWait = (if on then s.xlt.atsWait else []) ∧
      (on = true → t.xlt.bufs = s.xlt.bufs ∧ t.xlt.l2 = s.xlt.l2) ∧
      (on = false → ∀ u a, (a ∈ Tab.get [] t.xlt.bufs u ↔ a ∈ Tab.get [] s.xlt.bufs u ∧ a.host = false) ∧
        (a ∈ Tab.get [] t.xlt.l2 u ↔ a ∈ Tab.get [] s.xlt.l2 u ∧ a.host = false))) ∧
    (∀ on alloc, ∃ t, exec (.priEnable on alloc) s = .next t ∧ t.xlt.priEn = on ∧ t.xlt.priStopped = false ∧ t.xlt.priAlloc = alloc ∧
      t.mem = s.mem)) ∧
  (∀ (who : Owner2) (s : State), Canon s →
    (hwtRefused who s = false →
      (hwtUsers s (hwtIndex s) = [] → exec (.hwtCommit who) s =
        .next { s with xlt := { s.xlt with hwt := Tab.set 0 s.xlt.hwt (hwtIndex s) (hwtStaged s) } }) ∧
      (hwtUsers s (hwtIndex s) ≠ [] → ∃ t p, exec (.hwtCommit who) s = .next t ∧ t.xlt.hwt = s.xlt.hwt ∧ t.xlt.pend = some p ∧
        p.index = hwtIndex s ∧ p.entry = hwtStaged s ∧ p.waits = hwtUsers s (hwtIndex s))) ∧
    (hwtRefused who s = true → Calm 11 s → ∃ t, exec (.hwtCommit who) s = .next t ∧ FaultSet 11 0 t ∧ t.xlt = s.xlt) ∧
    (∀ p, s.xlt.pend = some p → s.noc.reqs.any (fun r => p.waits.contains r.tag) = false → exec .hwtCommitDrained s =
      .next { s with xlt := { s.xlt with hwt := Tab.set 0 s.xlt.hwt p.index p.entry, pend := none } }))

/-! ### The network -/

/-- A request whose packet stands at its target, within one line of memory that no occupant caches, and whose context passes the
ownership check: a read answers with the bytes as they stand and whether the line is poisoned; a write stores its bytes and no
other, and is acknowledged; the packet leaves the network. A packet whose head has an uncorrectable error is discarded and counted,
and sets the fault bit of the network's flits; memory is as before. (Rests on log entry 80.) -/
def Obligations.NetworkRequests : Prop :=
  ∀ (tag : Nat) (s : State) (r : Req) (p : Packet), Canon s → s.reqOf tag = some r → arrivedPacket s tag false = some p →
    Unserved r → (∀ e, r.who ≠ .xfe e) → (s.grp 10).inject = 0 →
    (∀ g, r.use = .plain → (s.grp (granGroup g)).inject = 0 → memCheck s r.addr r.ctx = .pass g → Settled s →
      (coherent s r.addr = false ∨ ((s.hline (r.addr / 64)).mode = .i ∧ HomeQuiet (r.addr / 64) s)) → 0 < r.len → r.addr % 64 + r.len ≤ 64 →
      (r.write = false → waitsForPut s r = false → ∀ off, ∃ t, exec (.nocRead tag off .clean .clean) s = .next t ∧ t.mem = s.mem ∧
        t.noc.net.pkts = s.noc.net.pkts.filter (fun q => q.id != p.id) ∧
        t.noc.resps = s.noc.resps ++ [{ tag := tag, data := s.mem.read r.addr r.len, poison := s.mem.anyBad r.addr r.len, refused := false }]) ∧
      (r.write = true → r.be = none → r.data.length = r.len → ∃ t, exec (.nocWrite tag .clean .clean) s = .next t ∧
        t.noc.net.pkts = s.noc.net.pkts.filter (fun q => q.id != p.id) ∧
        (∀ i < r.len, t.mem.byte (r.addr + i) = r.data.getD i 0) ∧ (∀ a, a < r.addr ∨ r.addr + r.len ≤ a → t.mem.byte a = s.mem.byte a) ∧
        t.noc.resps = s.noc.resps ++ [{ tag := tag, data := [], poison := false, refused := false }])) ∧
    (∀ off ecc, waitsForPut s r = false → waitsForSite s r = false → Calm 10 s →
      ∃ t, exec (if r.write then .nocWrite tag .uncorrectable ecc else .nocRead tag off .uncorrectable ecc) s = .next t ∧ FaultSet 10 1 t ∧
        t.noc.drops = satInc s.noc.drops ∧ t.mem = s.mem ∧ t.noc.resps = s.noc.resps ∧ ∀ q ∈ t.noc.net.pkts, q.id ≠ p.id)

/-- Responses whose packet stands at a cell, the only open read of which is the one answered: read data takes its place in the return
that waits for it; an acknowledged and a refused write are counted off; a response that does not come within 24,000 ticks is
completed by the initiator, a read with poison, and sets RESP_TIMEOUT. The request is gone in every case. A slice whose head has
stood still for 12,000 ticks sets SLICE_STALL; the end of a miss window restarts the count of misses; a fault that reaches firmware
is logged, and is acknowledged where its group's action is LOG. (Rests on log entry 8.) -/
def Obligations.NetworkResponsesAndEvents : Prop :=
  (∀ (tag n : Nat) (s : State) (r : Req), Canon s → s.reqOf tag = some r → r.who = .cell n → NoTargets r s → r.resp = none → r.host = false →
    (∀ a p, s.noc.resps.find? (fun a => a.tag == tag) = some a → arrivedPacket s tag true = some p → (s.grp 10).inject = 0 →
      (r.write = false → r.use = .get n → s.noc.reqs.filter (fun q => q.who == r.who && !q.write && !q.host) = [r] → a.poison = false →
        ∃ t, exec (.nocReadData tag .clean .clean) s = .next t ∧ t.noc.reqs = s.noc.reqs.filter (fun q => q.tag != tag) ∧
          t.noc.net.pkts = s.noc.net.pkts.filter (fun q => q.id != p.id) ∧
          (t.cell n).rets = (s.cell n).rets.map (fun k => { k with tags := k.tags.map (fun u =>
            if u.1 == tag && u.2.isNone then (u.1, some { bits := BitVec.ofNat 512 (leNat a.data), poison := false }) else u) })) ∧
      (r.write = true → r.use = .plain → a.refused = false → ∃ t, exec (.nocWriteAck tag .clean) s = .next t ∧
        t.noc.reqs = s.noc.reqs.filter (fun q => q.tag != tag) ∧ (t.cell n).writes = (s.cell n).writes - 1) ∧
      (r.write = true → r.use = .plain → a.refused = true → ∃ t, exec (.nocRefuse tag .clean) s = .next t ∧
        t.noc.reqs = s.noc.reqs.filter (fun q => q.tag != tag) ∧ (t.cell n).writes = (s.cell n).writes - 1)) ∧
    (r.write = true → r.use = .plain → Calm 10 s → ∃ t, exec (.respTimeout tag) s = .next t ∧ FaultSet 10 4 t ∧
      t.noc.reqs = s.noc.reqs.filter (fun q => q.tag != tag) ∧ (t.cell n).writes = (s.cell n).writes - 1 ∧
      t.noc.timeouts = satInc s.noc.timeouts) ∧
    (r.write = false → r.use = .get n → s.noc.reqs.filter (fun q => q.who == r.who && !q.write && !q.host) = [r] → Calm 10 s → Logs (24 + n / 512) s →
      ∃ t, exec (.respTimeout tag) s = .next t ∧ FaultSet 10 4 t ∧ t.noc.reqs = s.noc.reqs.filter (fun q => q.tag != tag) ∧
        ∃ b, (t.cell n).rets = (s.cell n).rets.map (fun k => { k with tags := k.tags.map (fun u =>
          if u.1 == tag && u.2.isNone then (u.1, some { bits := b, poison := true }) else u) }))) ∧
  ((∀ (router : Fin 96) (input : Fin 8) (s : State), Groups s →
    (sliceStalled router.val input.val s = true → Calm 10 s →
      ∃ t, exec (.sliceStall router input) s = .next t ∧ FaultSet 10 5 t ∧ t.noc = s.noc) ∧
    (sliceStalled router.val input.val s = false → exec (.sliceStall router input) s = .next s)) ∧
  (∀ (p : Fin 64) (s : State), exec (.qosMissWindowExpiry p) s = .next (s.setQpart p.val { s.qpart p.val with missNow := 0 })) ∧
  (∀ (g : Fin 29) (bit : Fin 32) (s : State), Groups s → s.mgt.halted = false → s.mgt.unavail = false →
    ∃ t, exec (.faultSignal g bit) s = .next t ∧ t.mgt.logSeq = s.mgt.logSeq + 1 ∧
      (∃ l, Tab.get none t.mgt.log s.mgt.logHead = some l ∧ l.src = g.val ∧ l.code = BitVec.ofNat 16 bit.val) ∧
      ((s.grp g.val).action = .log → (t.grp g.val).unacked.getLsbD bit.val = false ∧ (t.grp g.val).status = (s.grp g.val).status)))

/-! ### Device memory -/

/-- Scrub leaves every byte as it is; a line with an uncorrectable error is marked poisoned and sets UE. A recalibrated channel is
trained, one that is being re-admitted returns to service and is zeroed, one that fails sets TRAIN and is fenced, at its owner's
next proof where the owner runs. When zeroing of a granule ends, its bytes read 0 and it is ZEROED; when that of a bank or a channel
ends, its granules are ZEROED and the unit is no longer zeroing; a failure sets ZERO_FAIL, and fences a bank that is being re-
admitted. A failing SRAM row takes a spare row, and an HBM row a soft repair, and is no longer due; with no spare row left, or in
SCRAPPED, the granule is fenced. (Rests on log entries 43, 44.) -/
def Obligations.MemoryUpkeep : Prop :=
  (∀ (m : Fin 6) (found : List (Nat × Ecc)) (s : State), Canon s → (s.grp (17 + m.val)).inject = 0 →
    ((∀ f ∈ found, f.2 ≠ .uncorrectable) → ∃ t, exec (.hbmScrub m found) s = .next t ∧ t.mem.bytes = s.mem.bytes ∧ t.mem.poison = s.mem.poison) ∧
    (Logs (17 + m.val) s → ∃ t, exec (.hbmScrub m found) s = .next t ∧ t.mem.bytes = s.mem.bytes ∧
      (bits (s.reg (0x200004 + m.val * 0x10000) 0x18#32).toNat 0 8 ≠ 0 → ∀ pa ch g, (pa, Ecc.uncorrectable) ∈ found → paSpot s pa = .hbm m.val ch g →
        granUp s (granOf (.hbm m.val ch g)) = true → t.mem.bad (pa / 64) = true)) ∧
    (∀ pa ch g, found = [(pa, .uncorrectable)] → bits (s.reg (0x200004 + m.val * 0x10000) 0x18#32).toNat 0 8 ≠ 0 →
      paSpot s pa = .hbm m.val ch g → granUp s (granOf (.hbm m.val ch g)) = true → Calm (granGroup (granOf (.hbm m.val ch g))) s →
      ∃ t, exec (.hbmScrub m found) s = .next t ∧ t.mem.bad (pa / 64) = true ∧ t.mem.bytes = s.mem.bytes ∧
        FaultSet (granGroup (granOf (.hbm m.val ch g))) 1 t)) ∧
  (∀ (found : List (Nat × Ecc)) (s : State), Canon s → (s.grp 23).inject = 0 →
    ((∀ f ∈ found, f.2 ≠ .uncorrectable) → ∃ t, exec (.sramScrub found) s = .next t ∧ t.mem.bytes = s.mem.bytes ∧ t.mem.poison = s.mem.poison) ∧
    (Logs 23 s → ∃ t, exec (.sramScrub found) s = .next t ∧ t.mem.bytes = s.mem.bytes ∧
      ∀ pa b g, (pa, Ecc.uncorrectable) ∈ found → paSpot s pa = .sram b g → (s.bank b).fenced = false → t.mem.bad (pa / 64) = true) ∧
    (∀ pa b g, found = [(pa, .uncorrectable)] → paSpot s pa = .sram b g → (s.bank b).fenced = false → Calm (granGroup (granOf (.sram b g))) s →
      ∃ t, exec (.sramScrub found) s = .next t ∧ t.mem.bad (pa / 64) = true ∧ t.mem.bytes = s.mem.bytes ∧
        FaultSet (granGroup (granOf (.sram b g))) 1 t)) ∧
  (∀ (m : Fin 6) (ch : Fin 32) (s : State), Canon s →
    let c := m.val * 32 + ch.val
    (s.stack m.val).powered = true →
    ((s.chan c).readmPend = true → ∃ t, exec (.hbmRecalibration m ch true) s = .next t ∧ t.mem.bytes = s.mem.bytes ∧
      t.chan c = { s.chan c with fenced := false, readmPend := false, trained := true, zeroing := true }) ∧
    ((s.chan c).fenced = false → (s.chan c).readmPend = false → ∃ t, exec (.hbmRecalibration m ch true) s = .next t ∧
      t.mem.bytes = s.mem.bytes ∧ t.chan c = { s.chan c with trained := true }) ∧
    ((s.chan c).fenced = false ∨ (s.chan c).readmPend = true → Calm (17 + m.val) s →
      ∃ t, exec (.hbmRecalibration m ch false) s = .next t ∧ FaultSet (17 + m.val) 4 t ∧ (t.chan c).trained = false ∧ (t.chan c).readmPend = false ∧
        ((s.chan c).fenced = false → if ownerActive s (s.chan c).owner then (t.chan c).fencePend = true else (t.chan c).fenced = true))) ∧
  (∀ (g : Nat) (s : State), Canon s → s.mem.toZero.contains g = true → s.mem.due = [] →
    ((∀ p, granPart s g = some p → NoResume p s) → ∃ t, exec (.zeroingDone (.granule g) true) s = .next t ∧ (t.granule g).zeroed = true ∧
      t.mem.toZero.contains g = false ∧ (∀ a, granBase g ≤ a → a < granBase g + granSize g → t.mem.byte a = 0#8) ∧
      (∀ a, a < granBase g ∨ granBase g + granSize g ≤ a → t.mem.byte a = s.mem.byte a)) ∧
    (Calm (granGroup g) s → ∃ t, exec (.zeroingDone (.granule g) false) s = .next t ∧ FaultSet (granGroup g) (if g < 5120 then 6 else 7) t ∧
      t.mem = s.mem)) ∧
  (∀ (b : Fin 64) (s : State), Canon s → (s.bank b.val).zeroing = true → (s.bank b.val).fenced = false → s.mem.due = [] →
    (∀ p, (s.bank b.val).owner = some p → NoResume p s) →
    ∃ t, exec (.zeroingDone (.bank b) true) s = .next t ∧ (t.bank b.val).zeroing = false ∧
      ∀ k < 80, (t.granule (b.val * 80 + k)).zeroed = true ∧ t.mem.toZero.contains (b.val * 80 + k) = false) ∧
  (∀ (b : Fin 64) (s : State), Canon s → (s.bank b.val).zeroing = true → (s.bank b.val).fenced = false → s.mem.due = [] → Calm 23 s →
    ∃ t, exec (.zeroingDone (.bank b) false) s = .next t ∧ FaultSet 23 6 t ∧
      ((s.bank b.val).test = true → ownerActive s (s.bank b.val).owner = false → (t.bank b.val).fenced = true)) ∧
  (∀ (m : Fin 6) (ch : Fin 32) (s : State), Canon s → (s.chan (m.val * 32 + ch.val)).zeroing = true →
    (s.chan (m.val * 32 + ch.val)).fenced = false → s.mem.due = [] → (∀ p, (s.chan (m.val * 32 + ch.val)).owner = some p → NoResume p s) →
    ∃ t, exec (.zeroingDone (.chan m ch) true) s = .next t ∧ (t.chan (m.val * 32 + ch.val)).zeroing = false ∧
      ∀ k < 1024, (t.granule (5120 + (m.val * 32 + ch.val) * 1024 + k)).zeroed = true) ∧
  (∀ (pa : Nat) (bad : List Nat) (s : State) (d : RowDue), Canon s → s.mem.due.find? (fun d => rowKey s d.pa == rowKey s pa) = some d →
    (∀ p, d.part = some p → (s.part p).active = false ∧ NoResume p s) →
    (∀ b g, paSpot s pa = .sram b g → (s.bank b).spares ≠ 0 → lifeCycle s ≠ 4 → ∃ t, exec (.rowRepair pa bad) s = .next t ∧
      (t.bank b).spares = (s.bank b).spares - 1 ∧ (∀ q ∈ t.mem.due, rowKey s q.pa ≠ rowKey s pa) ∧ t.mem.bytes = s.mem.bytes ∧
      (∀ l ∈ bad, rowKey s (l * 64) = rowKey s pa → t.mem.bad l = true)) ∧
    (∀ m ch g, paSpot s pa = .hbm m ch g → Tab.get 0 s.mem.ppr (pprKey m ch pa) < 1 + Config.pprExtra (pprKey m ch pa) → lifeCycle s ≠ 4 →
      ∃ t, exec (.rowRepair pa bad) s = .next t ∧ (t.chan (m * 32 + ch)).soft = satInc (s.chan (m * 32 + ch)).soft ∧
        Tab.get 0 t.mem.ppr (pprKey m ch pa) = Tab.get 0 s.mem.ppr (pprKey m ch pa) + 1 ∧
        (∀ q ∈ t.mem.due, rowKey s q.pa ≠ rowKey s pa) ∧ t.mem.bytes = s.mem.bytes ∧
        (∀ l ∈ bad, rowKey s (l * 64) = rowKey s pa → t.mem.bad l = true)) ∧
    (∀ b g, paSpot s pa = .sram b g → (s.bank b).spares = 0 ∨ lifeCycle s = 4 → Calm (granGroup (granOf (.sram b g))) s →
      ∃ t, exec (.rowRepair pa bad) s = .next t ∧ (t.granule (granOf (.sram b g))).fenced = true ∧
        FaultSet (granGroup (granOf (.sram b g))) 5 t ∧ (∀ q ∈ t.mem.due, rowKey s q.pa ≠ rowKey s pa)))

/-- Fences and re-admissions of banks and channels wait for the proof of a running owner; otherwise a fenced unit loses its contents,
and a re-admitted bank is zeroed while a re-admitted channel waits for its training, at a position that the hub may power. A re-
admission of a unit that is not fenced is refused. A shorted stack rail switches the rail and the controller off, fences the
position and every channel, marks the running owners' next ARRIVE with FENCE and sets TRAIN. A hard repair burns a fuse of the row's
bank where the stack still offers one. A coherent window: a setting that runs past the bank, overlaps another window in use or
touches a bank whose owner runs is refused; one that is accepted while no line is cached takes effect at once, FIRST limited to 79.
(Rests on log entries 45, 46.) -/
def Obligations.MemoryFencesAndWindows : Prop :=
  ((∀ (b : Fin 64) (s : State), Canon s →
    ((s.bank b.val).fenced = false → ∃ t, exec (.srmBankFence b) s = .next t ∧
      (if ownerActive s (s.bank b.val).owner then t = s.setBank b.val { s.bank b.val with fencePend := true }
       else (t.bank b.val).fenced = true ∧ (∀ a, bankBase b.val ≤ a → a < bankBase b.val + 0x500000 → t.mem.byte a = 0#8) ∧
         (∀ a, a < bankBase b.val ∨ bankBase b.val + 0x500000 ≤ a → t.mem.byte a = s.mem.byte a))) ∧
    ((s.bank b.val).fenced = true → exec (.srmBankReadmit b) s = .next (s.setBank b.val
      (if ownerActive s (s.bank b.val).owner then { s.bank b.val with readmPend := true }
       else { s.bank b.val with fenced := false, readmPend := false, zeroing := true, test := true }))) ∧
    ((s.bank b.val).fenced = false → Calm 23 s → ∃ t, exec (.srmBankReadmit b) s = .next t ∧ FaultSet 23 0 t ∧ t.mem = s.mem)) ∧
  (∀ (m : Fin 6) (ch : Fin 32) (s : State), Canon s →
    let c := m.val * 32 + ch.val
    ((s.chan c).fenced = false → ∃ t, exec (.memChFence m ch) s = .next t ∧
      (if ownerActive s (s.chan c).owner then (t.chan c) = { s.chan c with fencePend := true } ∧ t.mem.bytes = s.mem.bytes
       else (t.chan c).fenced = true ∧ (∀ a, chanBase m.val ch.val ≤ a → a < chanBase m.val ch.val + 0x80000000 → t.mem.byte a = 0#8))) ∧
    ((s.chan c).fenced = true → stackAllowed s m.val = true → ∃ t, exec (.memChReadmit m ch) s = .next t ∧
      (t.chan c) = { s.chan c with readmPend := true } ∧
      (ownerActive s (s.chan c).owner = false → s.pwr.domains.getLsbD (16 + m.val) = true ∨ stackUsers s m.val = [] →
        (t.stack m.val).fenced = false ∧ (t.stack m.val).powered = true ∧
        t.pwr.domains.getLsbD (16 + m.val) = true ∧ t.pwr.domains.getLsbD (58 + m.val) = true)) ∧
    ((s.chan c).fenced = true → stackAllowed s m.val = false → ownerActive s (s.chan c).owner = false →
      s.pwr.domains.getLsbD (16 + m.val) = true ∨ stackUsers s m.val = [] →
      exec (.memChReadmit m ch) s = .next (s.setChan c { s.chan c with readmPend := false })) ∧
    ((s.chan c).fenced = false → Calm (17 + m.val) s → ∃ t, exec (.memChReadmit m ch) s = .next t ∧ FaultSet (17 + m.val) 0 t ∧
      t.mem = s.mem)) ∧
  (∀ (m : Fin 6) (s : State), Canon s → (s.stack m.val).fitted = true → Calm (17 + m.val) s →
    ∃ t, exec (.stackRailShort m) s = .next t ∧ FaultSet (17 + m.val) 4 t ∧ (t.stack m.val).fenced = true ∧ (t.stack m.val).powered = false ∧
      t.pwr.domains.getLsbD (16 + m.val) = false ∧ t.pwr.domains.getLsbD (58 + m.val) = false ∧
      ∀ ch : Fin 32, (t.chan (m.val * 32 + ch.val)).fenced = true ∧
        ∀ p, (s.chan (m.val * 32 + ch.val)).owner = some p → (s.part p).active = true → (t.part p).flags.getLsbD 3 = true) ∧
  (∀ (row : BitVec 32) (pa : Nat) (s : State), Canon s →
    let m := bits row.toNat 25 3
    let ch := bits row.toNat 20 5
    hasRight s 8 = true → lifeCycle s = 2 → row.toNat / 0x10000000 = 3 → (s.stack m).fitted = true → rowPa row.toNat = some pa →
    ∃ t, exec (.hbmHardRepair row) s = .next t ∧
      (if Config.hardOffer (pprKey m ch pa) ≤ Tab.get 0 s.mem.hppr (pprKey m ch pa) then t = s
       else (t.chan (m * 32 + ch)).hard = satInc (s.chan (m * 32 + ch)).hard ∧
         t.mem.hppr = Tab.set 0 s.mem.hppr (pprKey m ch pa) (Tab.get 0 s.mem.hppr (pprKey m ch pa) + 1)))) ∧
  (∀ (w : Fin 16) (val : Word) (s : State), Groups s →
    let first := min 79 (bits val.toNat 8 7)
    let v := BitVec.ofNat 32 (bits val.toNat 0 6 + first * 256 + bits val.toNat 16 7 * 65536)
    let old := Tab.get 0 s.home.cohWins w.val
    let clash := bits val.toNat 16 7 != 0 && ((s.home.cohWins ++ s.home.cohPend).filter (fun e => e.1 != w.val && bits e.2.toNat 16 7 != 0)).any (fun e =>
      decide ((winRange v).1 < (winRange e.2).2) && decide ((winRange e.2).1 < (winRange v).2))
    let bad := (bits val.toNat 16 7 ≠ 0 ∧ 80 < bits val.toNat 8 7 + bits val.toNat 16 7) ∨ clash = true ∨
      winFree s (bits v.toNat 0 6) = false ∨ winFree s (bits old.toNat 0 6) = false
    (¬ bad → s.home.lines = [] → s.home.txns = [] → Settled s → exec (.cohWinWrite w val) s =
      .next { s with home := { s.home with cohWins := Tab.set 0 s.home.cohWins w.val v } }) ∧
    (bad → Calm 23 s → ∃ t, exec (.cohWinWrite w val) s = .next t ∧ FaultSet 23 0 t ∧ t.home = s.home))

/-! ### Sites -/

/-- Admission. An OFF site with a class and a record, whose domains have rested, powers up at once or, while its owner runs, at the
owner's next proof; its straps are read and it stands in RAILS, or is fenced with reason STRAP; the straps of the odd half are read
in their turn. With the core regulated it goes to LINK; the sideband notes what answers there; training leads to NEGOTIATE, or at a
CXL site of the expected class to ATTEST, and another class, too few modules or a half that does not answer to FENCED; an attested
occupant, or an unattested one where the package permits it, goes to CONFIG with its digests measured, another is fenced; the loaded
crust makes the site READY. The bounds of admission: each stage that does not end in its time fences the site with its reason and
its fault bit, and a shorted rail does so at once, whatever the site's state, while one of its core rails is on. (Rests on log entry
49.) -/
def Obligations.SiteAdmissionAndTimeouts : Prop :=
  (∀ (n : Fin 18) (s : State), Canon s →
    let e := evenOf s n.val
    let x := s.site e
    (∀ st sc, s.flt.stopped = false → x.paused = false →
      (n.val = e → startOk s e = true → ownerActive s x.owner = false →
        (strapsOk n.val st sc = true → ∃ t, exec (.siteAdmissionStart n st sc) s = .next t ∧ (t.site e).state = .rails ∧
          (t.site n.val).strapT = st ∧ (t.site n.val).strapC = sc ∧ (t.site n.val).strapOk = true ∧ t.pwr.domains.getLsbD (22 + e) = true ∧
          t.pwr.domains.getLsbD (40 + e) = true ∧ t.mem = s.mem) ∧
        (strapsOk n.val st sc = false → Calm 16 s → ∃ t, exec (.siteAdmissionStart n st sc) s = .next t ∧ FencedAs e .strap 2 t)) ∧
      (n.val = e → startOk s e = true → ownerActive s x.owner = true → ∃ t, exec (.siteAdmissionStart n st sc) s = .next t ∧
        (t.site e).startPend = true ∧ (t.site e).state = .off ∧ t.pwr = s.pwr ∧ t.mem = s.mem) ∧
      (n.val ≠ e → x.state = .rails → (s.site n.val).strapIn = false → strapsOk n.val st sc = true → exec (.siteAdmissionStart n st sc) s =
        .next (s.setSite n.val { s.site n.val with strapT := st, strapC := sc, strapIn := true, strapOk := true }))) ∧
    (admits x = true →
      (x.state = .rails → (halves s n.val).all (fun k => (s.site k).strapOk) = true →
        ∃ t, exec (.siteCoreRegulated n) s = .next t ∧ (t.site e).state = .link ∧ t.mem = s.mem) ∧
      (∀ c, x.state = .link → x.sideband = false → exec (.sidebandDetected n c) s = .next (s.setSite e { x with sideband := true, found := (if isGelja x then 0 else match c with | some true => 2 | some false => 4 | none => 0) })) ∧
      (∀ (k : Nat) (r : List (Nat × Nat)) (d : List Nat) (b : Bool), x.state = .link → x.sideband = true → d = [] ∨ Calm 16 s →
        let off := ((d.map (moduleData e) ++ (mapUnitsOf s).filter (ofSites 5 (halves s e))).eraseDups).length
        let left := min k (4 * (halves s e).length - off)
        (minModules x ≤ left → (x.double = true → b = true) → isGelja x = true ∨ x.found = x.cls →
          ∃ t, exec (.siteTrainingDone n k r d b) s = .next t ∧ (t.site e).state = (if isGelja x then .negotiate else .attest) ∧
            (t.site e).modules = left ∧ (d ≠ [] → FaultSet 16 9 t) ∧ t.mem = s.mem) ∧
        (minModules x ≤ left → (x.double = true → b = true) → isGelja x = false → x.found ≠ x.cls → Logs 16 s →
          ∃ t, exec (.siteTrainingDone n k r d b) s = .next t ∧ FencedAs e .classR 5 t) ∧
        (left < minModules x → (x.double = true → b = true) → Logs 16 s → ∃ t, exec (.siteTrainingDone n k r d b) s = .next t ∧ FencedAs e .link 4 t) ∧
        (x.double = true → b = false → Logs 16 s → ∃ t, exec (.siteTrainingDone n k r d b) s = .next t ∧ FencedAs e .absent 3 t)) ∧
      (∀ a : AttestIn, x.state = .attest →
        let r := attestResult x a
        (r = .attested ∨ (r = .unattested ∧ unattestedOk s = true) → ∃ t, exec (.attestComplete n a) s = .next t ∧
          (t.site e).state = .config ∧ (t.site e).attestRes = r ∧ Tab.get [] t.sec.meas (96 + e) = siteMeas (t.site e) ∧ t.mem = s.mem) ∧
        (r = .failed ∨ (r = .unattested ∧ unattestedOk s = false) → Calm 16 s → ∃ t, exec (.attestComplete n a) s = .next t ∧
          FencedAs e .attest 6 t)) ∧
      (x.state = .config → ∃ t, exec (.crustLoaded n) s = .next t ∧ (t.site e).state = .ready ∧ (t.site e).configDone = true ∧ t.mem = s.mem ∧
        (isGelja x = true → Emit.gelja e 0x63 (ctlMsg (x.owner.getD 0)) ∈ t.out ∧ Tab.get 0 (t.site e).credits 10 = 256)))) ∧
  (∀ (n : Fin 18) (s : State), Canon s → Calm 16 s →
    let e := evenOf s n.val
    let x := s.site e
    (admits x = true →
      (x.state = .rails → ∃ t, exec (.siteRailsTimeout n) s = .next t ∧ FencedAs e .rail 1 t) ∧
      (x.state = .link → x.sideband = false → ∃ t, exec (.sidebandTimeout n) s = .next t ∧ FencedAs e .absent 3 t) ∧
      (x.state = .negotiate → ∃ t, exec (.negotiateTimeout n) s = .next t ∧ FencedAs e .classR 5 t) ∧
      (x.state = .attest → ∃ t, exec (.attestTimeout n) s = .next t ∧ FencedAs e .attest 6 t) ∧
      (x.state = .config → ∃ t, exec (.configTimeout n) s = .next t ∧ FencedAs e .link 4 t)) ∧
    (x.state = .retrain → ∃ t, exec (.siteRetrainTimeout n) s = .next t ∧ FencedAs e .link 4 t) ∧
    ((∃ k ∈ halves s n.val, s.pwr.domains.getLsbD (40 + k) = true) → ∃ t, exec (.siteRailShort n) s = .next t ∧ FencedAs e .rail 1 t ∧
      t.pwr.domains.getLsbD (22 + e) = false ∧ t.pwr.domains.getLsbD (40 + e) = false))

/-- A site in use. A link error or the register's request makes an ADMITTED site retrain; a retraining that ends with enough modules
admits it again, one with too few fences it. A fence waits for the owner's proof while it runs; a re-admission needs a fenced site
and switches the PHY on; a voltage is limited and waits while its owner runs or holds; at the odd half of a double site the
registers refuse. A flush that ends switches the domains off; one that runs out of time removes the site from every line. (Rests on
log entry 50.) -/
def Obligations.SiteCommands : Prop :=
  ∀ (n : Fin 18) (s : State), Canon s →
    let e := evenOf s n.val
    let x := s.site e
    let y := s.site n.val
    (x.state = .admitted →
      (∃ t, exec (.siteLinkError n) s = .next t ∧ t.site e = { x with state := .retrain, retrains := satInc x.retrains } ∧ t.mem = s.mem) ∧
      (y.upper = false → ∃ t, exec (.sitRetrain n) s = .next t ∧ t.site e = { x with state := .retrain, retrains := satInc x.retrains } ∧
        t.mem = s.mem)) ∧
    (∀ k r, x.state = .retrain →
      let left := min k (4 * (halves s e).length - (((mapUnitsOf s).filter (ofSites 5 (halves s e))).eraseDups).length)
      (minModules x ≤ left → ∃ t, exec (.siteRetrainDone n k r) s = .next t ∧ (t.site e).state = .admitted ∧ (t.site e).modules = left ∧
        t.mem = s.mem) ∧
      (left < minModules x → Calm 16 s → ∃ t, exec (.siteRetrainDone n k r) s = .next t ∧ FencedAs e .link 4 t)) ∧
    (y.upper = false → x.state ≠ .fenced → x.state ≠ .off → ∃ t, exec (.sitFence n) s = .next t ∧
      (if ownerActive s x.owner then t = s.setSite e { x with fencePend := some .host }
       else (t.site e).state = .fenced ∧ (t.site e).reason = .host)) ∧
    (y.upper = false → y.state = .fenced → ∃ t, exec (.sitReadmit n) s = .next t ∧
      (if ownerActive s y.owner then t = s.setSite n.val { y with readmPend := true }
       else ∀ k ∈ halves s n.val, (t.site k).state = .off ∧ (t.site k).reason = .none ∧ t.pwr.domains.getLsbD (22 + k) = true)) ∧
    (∀ val, y.upper = false → voltOpen y = true → exec (.sitVsetWrite n val) s = .next (s.setSite n.val
      (if voltWaits y s then { y with vpend := some (clampVolt y (bits val.toNat 0 11)) }
       else { y with vset := clampVolt y (bits val.toNat 0 11) }))) ∧
    (Calm 16 s → y.upper = true → (∃ t, exec (.sitFence n) s = .next t ∧ FaultSet 16 0 t ∧ t.sites = s.sites) ∧
      (∃ t, exec (.sitReadmit n) s = .next t ∧ FaultSet 16 0 t ∧ t.sites = s.sites) ∧
      (∃ t, exec (.sitRetrain n) s = .next t ∧ FaultSet 16 0 t ∧ t.sites = s.sites) ∧
      ∀ val, ∃ t, exec (.sitVsetWrite n val) s = .next t ∧ FaultSet 16 0 t ∧ t.sites = s.sites) ∧
    (∀ k, flushLead s n.val = k → (s.site k).flushing = true →
      (s.home.lines.any (fun l => l.2.pres.getLsbD k) = false → (s.site k).state = .fenced → ∃ t,
        exec (.cachingSiteFlushDone n) s = .next t ∧ (t.site k).flushing = false ∧ (t.site k).snoops = [] ∧
        (if ownerActive s (s.site k).owner then (t.site k).offPend = true
         else t.pwr.domains.getLsbD (22 + k) = false ∧ t.pwr.domains.getLsbD (40 + k) = false)) ∧
      (s.home.txns = [] → s.home.queue = [] → s.home.victims = [] → Settled s → ∃ t, exec (.flushTimeout n) s = .next t ∧
        t.home.lines = (dropSite k s).home.lines ∧ t.mem = (dropSite k s).mem))

/-! ### Messages of a Gelja occupant -/

/-- Requests of an occupant that pass the crust of its ADMITTED site. RD_NC, WR and WR_PART enter the network with the physical address,
hold their credits and keep their tags open; a scheduled one is not regulated. RD_CUR of one line is answered with the line's bytes
as they stand. A request that no outbound window maps, or whose window forbids it, is answered DENIED and counted as a violation.
(Rests on log entries 51, 80.) -/
def Obligations.GeljaRequests : Prop :=
  ∀ (n : Fin 18) (m : GMsg) (s : State), Canon s →
    let e := evenOf s n.val
    let x := s.site e
    (∀ pa, Entered n.val 1 1 4 .read m pa s → Calm 9 s → ∃ t h, exec (.rdNc n m) s = .next t ∧ (m.stepValid = true → h = false) ∧
      t.noc.reqs = s.noc.reqs ++ [sentReq (siteReq e 1 (pa / 64 * 64) false m s) h s] ∧
      (t.site e).tags = x.tags ++ [(m.tag.toNat, 1 + 256 * m.len.toNat)] ∧ t.mem = s.mem ∧
      (t.site e).credits = Tab.upd 0 (Tab.upd 0 x.credits 10 (· - 1)) 11 (· - 0)) ∧
    (∀ pa, Entered n.val 2 1 4 .write m pa s → Calm 9 s → ∃ t h, exec (.wr n m) s = .next t ∧ (m.stepValid = true → h = false) ∧
      t.noc.reqs = s.noc.reqs ++ [sentReq (siteReq e 2 (pa / 64 * 64) true m s) h s] ∧
      (t.site e).tags = x.tags ++ [(m.tag.toNat, 2 + 256 * m.len.toNat)] ∧ t.mem = s.mem ∧
      (t.site e).credits = Tab.upd 0 (Tab.upd 0 x.credits 10 (· - 0)) 11 (· - m.len.toNat)) ∧
    (∀ pa, Entered n.val 7 1 1 .write m pa s → Calm 9 s → ∃ t h, exec (.wrPart n m) s = .next t ∧ (m.stepValid = true → h = false) ∧
      t.noc.reqs = s.noc.reqs ++ [sentReq { siteReq e 7 (pa / 64 * 64) true m s with be := some m.be.toNat } h s] ∧
      (t.site e).tags = x.tags ++ [(m.tag.toNat, 7 + 256 * m.len.toNat)] ∧ t.mem = s.mem) ∧
    (∀ pa, Entered n.val 6 1 4 .current m pa s → m.len = 1 → FreshTags s → Settled s → LineOpen (pa / 64) m.ctx.toNat s →
      (coherent s (pa / 64 * 64) = true → HomeQuiet (pa / 64) s ∧ (s.hline (pa / 64)).mode ≠ .x) →
      let bad := s.mem.anyBad (pa / 64 * 64) 64
      ∃ t, exec (.rdCur n m) s = .next t ∧ t.mem = s.mem ∧ t.home.lines = s.home.lines ∧
        Emit.gelja e 3 { tag := m.tag, ctx := m.ctx, len := 1, status := (if bad then 5 else 0), poison := bad, data := s.mem.read (pa / 64 * 64) 64 } ∈ t.out) ∧
    (∀ r, isGelja x = true → x.state = .admitted → x.owner.isSome = true → Travels 1 1 4 m → x.configDone = true →
      hasCredit x 1 m.len.toNat = true → stepTagOk s x m = true → crustCheck x .read m.ctx.toNat m.addr.toNat = .error r → Calm 16 s →
      ∃ t, exec (.rdNc n m) s = .next t ∧ (t.site e).crustN = satInc x.crustN ∧ (t.site e).crustDva.toNat = m.addr.toNat ∧
        t.noc.reqs = s.noc.reqs ∧ t.mem = s.mem ∧
        ∃ d, Emit.gelja e 3 { tag := m.tag, ctx := m.ctx, status := 4, poison := true, len := m.len, data := d } ∈ t.out)

/-- Answers and control messages of an occupant. RD_DATA and CMP end the hub's own request with the named tag; one that does not come in
time is ended as refused and sets ABSENT. An IDENTITY that agrees with the site leads to ATTEST, another fences the site with reason
CLASS. ARRIVE_INFO of the running step marks the partition's ARRIVE with TAINT or POISON. VOLT_REQ is answered with the limited
setting. CREDIT returns credits. (Rests on log entries 51, 52.) -/
def Obligations.GeljaAnswers : Prop :=
  ∀ (n : Fin 18) (m : GMsg) (s : State), Canon s →
    let e := evenOf s n.val
    let x := s.site e
    (∀ o r, isGelja x = true → linkUp x = true → s.reqOf o.req = some r →
      (Travels 3 1 4 m → outOf x m.tag.toNat true = some o → ∃ t, exec (.rdData n m) s = .next t ∧ (t.site e).outs = x.outs.erase o ∧
        t.noc.resps = s.noc.resps ++ [{ tag := o.req, data := (m.data.drop (r.addr % 64)).take r.len, poison := m.poison || m.status != 0, refused := m.status == 4 }] ∧
        t.mem = s.mem) ∧
      (Travels 4 0 0 m → outOf x m.tag.toNat false = some o → ∃ t, exec (.cmp n m) s = .next t ∧ (t.site e).outs = x.outs.erase o ∧
        t.noc.resps = s.noc.resps ++ [{ tag := o.req, data := [], poison := false, refused := m.status == 4 || m.status == 6 }] ∧
        t.mem = s.mem)) ∧
    (∀ (tag : BitVec 12) o, x.outs.find? (fun o => o.tag == tag.toNat) = some o → Calm 16 s → ∃ t p, exec (.occupantRspTimeout n tag) s = .next t ∧
      FaultSet 16 3 t ∧ (t.site e).outs = x.outs.erase o ∧ t.noc.resps = s.noc.resps ++ [p] ∧ p.tag = o.req ∧ p.refused = true ∧
      p.poison = o.rd ∧ t.mem = s.mem) ∧
    (isGelja x = true → x.state = .negotiate → admits x = true → Travels 0x60 0 0 m → m.param = 0 → rfld m.extra 0 13 3 = 0 → rfld m.extra 8 14 18 = 0 →
      let cls := rfld m.extra 0 0 4
      let agrees := rfld m.extra 0 24 8 = 1 ∧ cls = x.cls ∧ rfld m.extra 0 8 5 = e ∧ rfld m.extra 0 4 4 = (if x.double then 8 else 4) ∧
        (rbit m.extra 8 12 = true → x.cls ≠ 3) ∧ (rbit m.extra 8 13 = true → rfld m.extra 0xC 0 32 ≠ 0 ∧ rfld m.extra 8 0 12 ≠ 0)
      (agrees → ∃ t, exec (.identity n m) s = .next t ∧ t.site e = identified m x ∧ t.mem = s.mem) ∧
      (¬ agrees → Calm 16 s → ∃ t, exec (.identity n m) s = .next t ∧ FencedAs e .classR 5 t)) ∧
    (∀ p, isGelja x = true → x.state = .admitted → x.owner = some p → Travels 0x66 0 0 m → x.configDone = true →
      m.param.toNat % 2 ^ 32 = (s.part p).step.toNat % 2 ^ 32 → ∃ t, exec (.arriveInfo n m) s = .next t ∧ t.mem = s.mem ∧
        ((t.part p).flags.getLsbD 2 = ((s.part p).flags.getLsbD 2 || m.param.getLsbD 32)) ∧
        ((t.part p).flags.getLsbD 1 = ((s.part p).flags.getLsbD 1 || m.param.getLsbD 33))) ∧
    (isGelja x = true → x.state = .admitted → Travels 0x67 0 0 m → x.configDone = true →
      let v := clampVolt x (bits m.param.toNat 0 11)
      ∃ t, exec (.voltReq n m) s = .next t ∧ Emit.gelja e 0x68 (ctlMsg v) ∈ t.out ∧
        t.site e = (if voltWaits x s then { x with vpend := some v } else { x with vset := v })) ∧
    (isGelja x = true → linkUp x = true → Travels 0x69 0 0 m → x.snpQ = [] → ∃ t, exec (.credit n m) s = .next t ∧ t.mem = s.mem ∧
      (t.site e).credits = Tab.upd 0 (Tab.upd 0 (Tab.upd 0 x.credits 0 (· + bits m.param.toNat 0 16)) 2 (· + bits m.param.toNat 16 16)) 1
        (· + bits m.param.toNat 32 16))

/-! ### Coherence -/

/-- Caching requests of an occupant at a line that nothing waits for. A line that no other site holds is granted EXCLUSIVE to RD_SHARED
and RD_OWN, with its bytes; a shared line is granted SHARED to RD_SHARED; where other sites have to give it up, or hold it in X,
they are snooped and the request waits for their answers; an UPGRADE of the only holder grants without data; EVICT_CLEAN takes the
requester off the line; WB_DIRTY of the holder in X writes its data to memory, and no other byte, and leaves the line to nobody.
Each grant waits for its ACK, which ends the transaction. (Rests on log entry 53.) -/
def Obligations.CachingRequests : Prop :=
  ∀ (n : Fin 18) (m : GMsg) (s : State), Canon s →
    let e := evenOf s n.val
    let x := s.site e
    (∀ pa, let line := pa / 64
      let h := s.hline line
      let bad := s.mem.anyBad (line * 64) 64
      let dat := fun (st : Nat) => Emit.gelja e 0x22 { tag := m.tag, ctx := m.ctx, state := BitVec.ofNat 2 st, len := 1, status := (if bad then 5 else 0), poison := bad, data := s.mem.read (line * 64) 64 }
      HomeQuiet line s →
      (LineOpen line m.ctx.toNat s → victimOf s line = none →
        (Entered n.val 0x10 1 1 .cache m pa s →
          (h.mode = .i → ∃ t, exec (.rdShared n m false) s = .next t ∧ Granted line e { mode := .x, pres := putBit 0 e true } s t ∧
            t.mem = s.mem ∧ dat 2 ∈ t.out) ∧
          (h.mode = .s → ∃ t, exec (.rdShared n m false) s = .next t ∧ Granted line e { mode := .s, pres := putBit h.pres e true } s t ∧
            t.mem = s.mem ∧ dat 1 ∈ t.out)) ∧
        (Entered n.val 0x11 1 1 .cache m pa s → (∀ k, h.pres.getLsbD k = true → k = e) → ∃ t, exec (.rdOwn n m) s = .next t ∧
          Granted line e { mode := .x, pres := putBit 0 e true } s t ∧ t.mem = s.mem ∧ dat 2 ∈ t.out) ∧
        (Entered n.val 0x11 1 1 .cache m pa s → (∃ k < 18, h.pres.getLsbD k = true ∧ k ≠ e) → ∃ t q, exec (.rdOwn n m) s = .next t ∧
          t.home.txns = Tab.set none s.home.txns line (some q) ∧ q.wait = .snoops ∧ q.snoop = putBit h.pres e false ∧
          t.home.lines = s.home.lines ∧ t.mem = s.mem) ∧
        (Entered n.val 0x10 1 1 .cache m pa s → h.mode = .x → h.pres.getLsbD e = false → ∃ t q, exec (.rdShared n m false) s = .next t ∧
          t.home.txns = Tab.set none s.home.txns line (some q) ∧ q.wait = .snoops ∧ q.snoop = h.pres ∧
          t.home.lines = s.home.lines ∧ t.mem = s.mem) ∧
        (Entered n.val 0x12 0 0 .cache m pa s → h.pres.getLsbD e = true → (∀ k, h.pres.getLsbD k = true → k = e) →
          ∃ t, exec (.upgrade n m) s = .next t ∧ Granted line e { mode := .x, pres := putBit 0 e true } s t ∧ t.mem = s.mem ∧
            Emit.gelja e 0x23 { tag := m.tag, ctx := m.ctx, state := 2 } ∈ t.out)) ∧
      (Entered n.val 0x13 0 0 .cache m pa s → (h.mode = .x → h.pres.getLsbD e = true) → ∃ t, exec (.evictClean n m) s = .next t ∧
        t.home.lines = Tab.set {} s.home.lines line (HLine.without h e) ∧ t.mem = s.mem ∧
        Emit.gelja e 4 { tag := m.tag, ctx := m.ctx } ∈ t.out) ∧
      (Entered n.val 0x14 1 1 .cache m pa s → LineOpen line m.ctx.toNat s → h.mode = .x → h.pres.getLsbD e = true → m.data.length = 64 →
        ∃ t, exec (.wbDirty n m) s = .next t ∧ t.home.lines = Tab.set {} s.home.lines line {} ∧
          (∀ i < 64, t.mem.byte (line * 64 + i) = m.data.getD i 0) ∧ (∀ a, a / 64 ≠ line → t.mem.byte a = s.mem.byte a) ∧
          Emit.gelja e 4 { tag := m.tag, ctx := m.ctx } ∈ t.out)) ∧
    (∀ line, isGelja x = true → linkUp x = true → Travels 0x24 0 0 m → ackLine s e m.tag.toNat = some line →
      (∀ q, Tab.get none s.home.txns line = some q → q.wait = .ack ∧ q.req.site = some e) → s.home.queue = [] → Settled s →
      ∃ t, exec (.ack n m) s = .next t ∧ (Tab.get none s.home.txns line ≠ none → t.home.txns = Tab.set none s.home.txns line none) ∧
        t.home.lines = s.home.lines ∧ t.mem = s.mem ∧ (t.site e).tags = x.tags.filter (fun u => u.1 != m.tag.toNat))

/-- Snoop answers. While other sites' answers to the same snoop are missing, the answer is counted off, data that comes with it is
written to the line first, and the site keeps the state that it names, or none after SNP_INV. The last answer to a back-invalidation
ends it. An acknowledgement of a grant that is missing for 12,000 ticks removes the site from the line and sets ABSENT. (Rests on
log entry 53.) -/
def Obligations.SnoopAnswers : Prop :=
  ∀ (n : Fin 18) (m : GMsg) (s : State) (line : Nat) (q : HTxn), Canon s → Settled s → Tab.get none s.home.txns line = some q →
    let e := evenOf s n.val
    let x := s.site e
    (isGelja x = true → linkUp x = true → x.snoops.find? (fun k => k.1 == m.tag.toNat) = some (m.tag.toNat, line) → q.wait = .snoops →
      q.snoop.getLsbD e = true → (s.hline line).pres.getLsbD e = true → x.snpQ = [] →
      let inv := q.req.op ≠ .rdShared ∧ q.req.op ≠ .rdCur
      (putBit q.snoop e false ≠ 0 → Travels 0x20 0 0 m → m.wbp = false → ∃ t, exec (.snpRsp n m) s = .next t ∧
        (t.site e).snoops = x.snoops.filter (fun k => k.1 != m.tag.toNat) ∧ t.mem = s.mem ∧
        t.home.txns = Tab.set none s.home.txns line (some { q with snoop := putBit q.snoop e false, wbp := putBit q.wbp e false }) ∧
        (inv ∨ m.state = 0 → t.home.lines = Tab.set {} s.home.lines line (HLine.without (s.hline line) e)) ∧
        (¬ inv → m.state = 1 → t.home.lines = Tab.set {} s.home.lines line { s.hline line with mode := .s }) ∧
        (¬ inv → m.state = 2 → t.home.lines = s.home.lines)) ∧
      (putBit q.snoop e false ≠ 0 → Travels 0x21 1 1 m → LineOpen line (snoopAddr x line).2 s → m.data.length = 64 →
        ∃ t, exec (.snpRspData n m) s = .next t ∧ (t.site e).snoops = x.snoops.filter (fun k => k.1 != m.tag.toNat) ∧
          (∀ i < 64, t.mem.byte (line * 64 + i) = m.data.getD i 0) ∧ (∀ a, a / 64 ≠ line → t.mem.byte a = s.mem.byte a)) ∧
      (putBit q.snoop e false = 0 → putBit q.wbp e false = 0 → q.req.line = line → s.home.queue = [] → s.home.victims = [] →
        (∃ why, q.req.op = .backInval why) → Travels 0x20 0 0 m → m.wbp = false → ∃ t, exec (.snpRsp n m) s = .next t ∧
          t.home.txns = Tab.set none s.home.txns line none ∧ t.mem = s.mem ∧
          t.home.lines = Tab.set {} s.home.lines line (HLine.without (s.hline line) e))) ∧
    (q.wait = .ack → q.req.site = some n.val → (s.site n.val).state ≠ .retrain → s.home.queue = [] → s.home.victims = [] → Calm 16 s →
      ∃ t, exec (.snoopTimeout n line) s = .next t ∧ FaultSet 16 3 t ∧ t.home.txns = Tab.set none s.home.txns line none ∧
        t.home.lines = (dropHolder n.val line s).home.lines ∧ t.mem = (dropHolder n.val line s).mem)

/-! ### Messages of a CXL occupant -/

/-- CXL.cache requests that pass the crust, at a line of memory with a home that nothing waits for. RdShared, RdAny and RdOwn of a line
that no other site holds are granted Exclusive with the line's bytes, RdOwnNoData without; RdCurr reads and keeps no copy; CLFlush
of a line that nobody holds ends at once; the evicts take the requester off the line, DirtyEvict after its data has reached memory;
a non-caching write stores the enabled bytes and no other. A grant waits until the occupant has taken it. (Rests on log entry 54.) -/
def Obligations.CxlCacheRequests : Prop :=
  ∀ (n : Fin 18) (m : CxlMsg) (s : State) (pa : Nat), Canon s →
    let e := evenOf s n.val
    let x := s.site e
    let line := pa / 64
    let h := s.hline line
    let bad := s.mem.anyBad (line * 64) 64
    let say := fun (op : String) (t : State) => Emit.cxl e op m.tag.toNat m.addr.toNat [] false ∈ t.out
    let dat := fun (op : String) (t : State) => Emit.cxl e op m.tag.toNat m.addr.toNat (s.mem.read (line * 64) 64) bad ∈ t.out
    let mine := ∀ k, h.pres.getLsbD k = true → k = e
    x.cls = 2 → HomeQuiet line s → LineOpen line (defaultCtx x) s →
    (CxlEntered n.val .cache m pa s →
      (victimOf s line = none →
        (h.mode = .i → ∃ t, exec (.cxlRdshared n m) s = .next t ∧ Granted line e { mode := .x, pres := putBit 0 e true } s t ∧ dat "GO-E" t ∧
          (t.site e).goWait = x.goWait ++ [(m.tag.toNat, line)] ∧ t.mem = s.mem) ∧
        (h.mode = .i → ∃ t, exec (.cxlRdany n m) s = .next t ∧ Granted line e { mode := .x, pres := putBit 0 e true } s t ∧ dat "GO-E" t ∧
          (t.site e).goWait = x.goWait ++ [(m.tag.toNat, line)] ∧ t.mem = s.mem) ∧
        (mine → ∃ t, exec (.cxlRdown n m) s = .next t ∧ Granted line e { mode := .x, pres := putBit 0 e true } s t ∧ dat "GO-E" t ∧
          (t.site e).goWait = x.goWait ++ [(m.tag.toNat, line)] ∧ t.mem = s.mem) ∧
        (mine → ∃ t, exec (.cxlRdownnodata n m) s = .next t ∧ Granted line e { mode := .x, pres := putBit 0 e true } s t ∧ say "GO-E" t ∧
          (t.site e).goWait = x.goWait ++ [(m.tag.toNat, line)] ∧ t.mem = s.mem)) ∧
      (h.mode = .i → ∃ t, exec (.cxlClflush n m) s = .next t ∧ say "GO-I" t ∧ t.home.lines = s.home.lines ∧ t.mem = s.mem) ∧
      ((h.mode = .x → h.pres.getLsbD e = true) → ∃ t, exec (.cxlCleanevict n m) s = .next t ∧
        t.home.lines = Tab.set {} s.home.lines line (HLine.without h e) ∧ say (if m.alt then "GO-I" else "GO_WritePull_Drop") t ∧ t.mem = s.mem) ∧
      (h.mode = .x → h.pres.getLsbD e = true → m.data.length = 64 → ∃ t, exec (.cxlDirtyevict n m) s = .next t ∧
        t.home.lines = Tab.set {} s.home.lines line {} ∧ say "GO_WritePull" t ∧ say "CMP" t ∧
        (∀ i < 64, t.mem.byte (line * 64 + i) = m.data.getD i 0) ∧ ∀ a, a / 64 ≠ line → t.mem.byte a = s.mem.byte a)) ∧
    (CxlEntered n.val .current m pa s → h.mode ≠ .x → ∃ t, exec (.cxlRdcurr n m) s = .next t ∧ dat "Data" t ∧
      t.home.lines = s.home.lines ∧ t.mem = s.mem) ∧
    (CxlEntered n.val .write m pa s → h.mode = .i → m.data.length = 64 → ∃ t, exec (.cxlItomwr n m) s = .next t ∧ say "ExtCmp" t ∧
      t.home.lines = Tab.set {} s.home.lines line {} ∧
      (∀ i < 64, t.mem.byte (line * 64 + i) = (if m.be.getLsbD i then m.data.getD i 0 else s.mem.byte (line * 64 + i))) ∧
      ∀ a, a / 64 ≠ line → t.mem.byte a = s.mem.byte a)

/-- The other messages of a CXL occupant. CacheFlushed is answered GO-I; an unlisted request is answered with an error and makes the
site retrain; a snoop response is counted off as at a Gelja site; an observed grant ends its transaction; a CXL.mem response ends
the hub's own request; CXL.io reads and writes that pass the crust enter the network, and an MSI is discarded and counted as a
violation. (Rests on log entry 54.) -/
def Obligations.CxlMessages : Prop :=
  ∀ (n : Fin 18) (m : CxlMsg) (s : State), Canon s → Settled s →
    let e := evenOf s n.val
    let x := s.site e
    let say := fun (op : String) (t : State) => Emit.cxl e op m.tag.toNat m.addr.toNat [] false ∈ t.out
    (x.cls = 2 → x.state = .admitted →
      (exec (.cxlCacheflushed n m) s = .next (s.emit (.cxl e "GO-I" m.tag.toNat m.addr.toNat [] false))) ∧
      (x.errTicks = [] → ∃ t, exec (.cxlUnlistedD2h n m) s = .next t ∧ say (if m.data.isEmpty then "GO-Err" else "GO_ERR_WritePull") t ∧
        (t.site e).state = .retrain ∧ t.mem = s.mem) ∧
      (∀ (rsp : CxlSnpRsp) line q, x.snoops.find? (fun k => k.1 == m.tag.toNat) = some (m.tag.toNat, line) →
        Tab.get none s.home.txns line = some q → q.wait = .snoops → q.snoop.getLsbD e = true → putBit q.snoop e false ≠ 0 → x.snpQ = [] →
        (s.hline line).pres.getLsbD e = true → s.home.queue = [] → snpData rsp = false → q.req.op ≠ .rdShared → q.req.op ≠ .rdCur →
        ∃ t, exec (.cxlSnoopResponse n rsp m) s = .next t ∧ (t.site e).snoops = x.snoops.filter (fun k => k.1 != m.tag.toNat) ∧
          t.home.lines = Tab.set {} s.home.lines line (HLine.without (s.hline line) e) ∧
          t.home.txns = Tab.set none s.home.txns line (some { q with snoop := putBit q.snoop e false, wbp := putBit q.wbp e false }) ∧
          t.mem = s.mem) ∧
      (∀ (rsp : CxlSnpRsp) line q, x.snoops.find? (fun k => k.1 == m.tag.toNat) = some (m.tag.toNat, line) →
        Tab.get none s.home.txns line = some q → q.wait = .snoops → q.snoop.getLsbD e = true → putBit q.snoop e false ≠ 0 → x.snpQ = [] →
        s.home.queue = [] → snpData rsp = true → LineOpen line (snoopAddr x line).2 s → m.data.length = 64 →
        ∃ t, exec (.cxlSnoopResponse n rsp m) s = .next t ∧ (t.site e).snoops = x.snoops.filter (fun k => k.1 != m.tag.toNat) ∧
          (∀ i < 64, t.mem.byte (line * 64 + i) = m.data.getD i 0) ∧ ∀ a, a / 64 ≠ line → t.mem.byte a = s.mem.byte a)) ∧
    (∀ (tag : BitVec 12) line q, x.goWait.find? (fun k => k.1 == tag.toNat) = some (tag.toNat, line) →
      Tab.get none s.home.txns line = some q → q.wait = .ack → q.req.site = some e → s.home.queue = [] →
      ∃ t, exec (.cxlGoAcked n tag) s = .next t ∧ (t.site e).goWait = x.goWait.filter (fun k => k.1 != tag.toNat) ∧
        t.home.txns = Tab.set none s.home.txns line none ∧ t.home.lines = s.home.lines ∧ t.mem = s.mem) ∧
    (∀ (tag : BitVec 12) (data : List Byte) (poison : Bool) o r, isCxl x = true → x.outs.find? (fun o => o.tag == tag.toNat) = some o →
      s.reqOf o.req = some r → ∃ t, exec (.cxlMemResponse n tag data poison) s = .next t ∧ (t.site e).outs = x.outs.erase o ∧ t.mem = s.mem ∧
        t.noc.resps = s.noc.resps ++ [{ tag := o.req, data := (data.drop (r.addr % 64)).take r.len, poison := o.rd && poison, refused := false }]) ∧
    (isCxl x = true → x.state = .admitted → x.flushing = false → x.owner.isSome = true →
      (∀ pa, crustCheck x .read (defaultCtx x) m.addr.toNat = .ok pa → Calm 9 s → ∃ t r, exec (.cxlIoRequest n .memRd m) s = .next t ∧
        t.noc.reqs = s.noc.reqs ++ [r] ∧ r.who = .site e ∧ r.write = false ∧ r.addr = pa ∧ r.len = 64 - pa % 64 ∧
        r.use = .site e m.tag.toNat 0x80 ∧ r.tag = s.noc.nextTag ∧ t.mem = s.mem) ∧
      (∀ pa, crustCheck x .write (defaultCtx x) m.addr.toNat = .ok pa → Calm 9 s → ∃ t r, exec (.cxlIoRequest n .memWr m) s = .next t ∧
        t.noc.reqs = s.noc.reqs ++ [r] ∧ r.who = .site e ∧ r.write = true ∧ r.addr = pa ∧ r.data = m.data ∧ r.len = m.data.length ∧
        r.use = .site e m.tag.toNat 0x81 ∧ r.tag = s.noc.nextTag ∧ t.mem = s.mem) ∧
      (Calm 16 s → ∃ t, exec (.cxlIoRequest n .msi m) s = .next t ∧ (t.site e).crustN = satInc x.crustN ∧ t.noc.reqs = s.noc.reqs ∧
        t.mem = s.mem))

/-! ### Step links and collectives -/

/-- Training, retraining and fences of a step-link port. Enough lanes, those of the defect map left out, bring a training port UP with
full credits and nothing of an earlier link, and a retrained one UP with what it held; fewer lanes than before set DEGRADED; too few
lanes, or no end in time, fence the port with reason LINK; another peer fences it with reason PEER. The package's own identity goes
to the peer. A loss of signal or the register's request retrains an UP port. A fence of an UP port and re-admissions wait for the
proofs of the running partitions that use the port; in another state a fence does nothing. A lost SerDes reference fences the ports
of its cluster that are in use. (Rests on log entry 55.) -/
def Obligations.LinkTraining : Prop :=
  ∀ (p : Fin 8) (s : State), Canon s →
    let q := s.port p.val
    (∀ tr0 : Training, minLanes s p.val ≤ popcount 4 (unlisted s p.val tr0).lanes.toNat →
      let tr := unlisted s p.val tr0
      let up := { q with state := .up, lanes := tr.lanes, polarity := tr.polarity, laneMap := tr.laneMap, peerId := tr.peerId, peerPort := tr.peerPort, peerOk := true, latency := tr.latency, owed := [] }
      (q.state = .training → ∃ t, exec (.stlTrainingDone p tr0) s = .next t ∧ t.port p.val = { up with credits := fullCredits s p.val, replay := [], resend := [], txq := [], rx := [] } ∧
        Emit.control p.val (mkBlock [0x13#8, tr.lanes.zeroExtend 8]) ∈ t.out ∧ Emit.identity p.val s.lcs.otp.serial p.val ∈ t.out ∧ t.mem = s.mem) ∧
      (q.state = .retrain → PortEmpty q → tr.peerId = q.peerId → Calm 14 s → ∃ t, exec (.stlRetrainDone p tr0) s = .next t ∧ t.port p.val = up ∧
        Emit.identity p.val s.lcs.otp.serial p.val ∈ t.out ∧ t.mem = s.mem ∧
        (popcount 4 tr.lanes.toNat < popcount 4 q.lanes.toNat → FaultSet 14 2 t))) ∧
    (∀ tr0 : Training, NoOps s → Calm 14 s →
      let tr := unlisted s p.val tr0
      (q.state = .training → popcount 4 tr.lanes.toNat < minLanes s p.val → ∃ t, exec (.stlTrainingDone p tr0) s = .next t ∧ PortFenced p.val false t) ∧
      (q.state = .retrain → tr.peerId ≠ q.peerId → ∃ t, exec (.stlRetrainDone p tr0) s = .next t ∧ PortFenced p.val true t) ∧
      (q.state = .retrain → tr.peerId = q.peerId → popcount 4 tr.lanes.toNat < minLanes s p.val →
        ∃ t, exec (.stlRetrainDone p tr0) s = .next t ∧ PortFenced p.val false t)) ∧
    (NoOps s → Calm 14 s →
      (q.state = .training → ∃ t, exec (.stlTrainingTimeout p) s = .next t ∧ PortFenced p.val false t ∧ t.mem = s.mem) ∧
      (q.state = .retrain → ∃ t, exec (.stlRetrainTimeout p) s = .next t ∧ PortFenced p.val false t ∧ t.mem = s.mem)) ∧
    (q.state = .up →
      (∃ t, exec (.stlLinkLoss p) s = .next t ∧ t.port p.val = { q with state := .retrain } ∧ t.mem = s.mem) ∧
      (∃ t, exec (.stlPortRetrain p) s = .next t ∧ t.port p.val = { q with state := .retrain } ∧ t.mem = s.mem) ∧
      (∃ t, exec (.stlPortFence p) s = .next t ∧ t.mem = s.mem ∧
        (if portUsers s p.val = [] then t.port p.val = { q with state := .fenced, peerBad := false, fenceWait := [] }
         else t.port p.val = { q with fenceWait := portUsers s p.val }))) ∧
    (q.state ≠ .up → ∃ t, exec (.stlPortFence p) s = .next t ∧ t.ports = s.ports ∧ t.mem = s.mem) ∧
    (q.state = .fenced → ∃ t, exec (.stlPortReadmit p) s = .next t ∧ t.mem = s.mem ∧
      (if portUsers s p.val = [] then t.port p.val = { q with state := .training, peerBad := false, readmWait := [] }
       else t.port p.val = { q with readmWait := portUsers s p.val })) ∧
    (q.state ≠ .fenced → Calm 14 s → ∃ t, exec (.stlPortReadmit p) s = .next t ∧ FaultSet 14 0 t ∧ t.ports = s.ports) ∧
    (∀ east, p.val / 4 = (if east then 1 else 0) → NoOps s → Logs 8 s → Logs 14 s → ∃ t, exec (.serdesRefclkLost east) s = .next t ∧
      (if east then t.pwr.refE = false else t.pwr.refW = false ∧ FaultSet 8 5 t) ∧
      (q.state ≠ .off → q.state ≠ .fenced → PortFenced p.val false t))

/-- Slots and control blocks. A good slot whose number its partition owns waits for its unit; one whose CRC is wrong is dropped with a
NAK; a lost codeword is counted, sets UNCORR and is NAKed; a slot number that is not owned sets SLOT_DENIED. A NAK of a slot that is
still held sends it again; of one that is not, it sets REPLAY_LOST and retrains. ABORT ends the operation it names; CREDIT returns
credits; LINK tells the peer's lanes; a block with a wrong CRC sets UNCORR. (Rests on log entry 55.) -/
def Obligations.LinkTraffic : Prop :=
  ∀ (p : Fin 8) (s : State), Canon s → (s.port p.val).state = .up →
    let q := s.port p.val
    (∀ sl : Slot, (s.grp 14).inject = 0 →
      let nak := Emit.control p.val (mkBlock ([0x10#8, BitVec.ofNat 8 (slotNo sl.hdr)] ++ leBytes 2 (slotFrame sl.hdr)))
      (slotOk sl = true → slotValid sl.hdr = true → (ownedSlots s (slotPart sl.hdr) p.val).contains (slotNo sl.hdr) = true →
        (s.cunit (slotUnit sl.hdr)).cur = none → ∃ t, exec (.slotReceive p sl true) s = .next t ∧ t.port p.val = { q with rx := q.rx ++ [sl] } ∧
        t.mem = s.mem) ∧
      (slotOk sl = true → slotValid sl.hdr = true → (ownedSlots s (slotPart sl.hdr) p.val).contains (slotNo sl.hdr) = false → Calm 14 s →
        ∃ t, exec (.slotReceive p sl true) s = .next t ∧ FaultSet 14 5 t ∧ t.ports = s.ports) ∧
      (slotOk sl = false → ∃ t, exec (.slotReceive p sl true) s = .next t ∧ nak ∈ t.out ∧ t.ports = s.ports) ∧
      (q.uncWin = [] → Calm 14 s → ∃ t, exec (.slotReceive p sl false) s = .next t ∧ nak ∈ t.out ∧ FaultSet 14 3 t ∧
        t.port p.val = { q with uncorr := satInc q.uncorr, uncWin := [s.clk.now] })) ∧
    (∀ blk : BitVec 128, blockOk blk = true →
      (∀ sl, rfld blk 0 0 8 = 0x10 → PortEmpty q →
        q.replay.find? (fun sl => slotNo sl.hdr == rfld blk 1 0 5 && slotFrame sl.hdr == rfld blk 2 0 16) = some sl →
        ∃ t again, exec (.nakBlock p blk) s = .next t ∧ Emit.slot p.val again ∈ t.out ∧ again.payload = sl.payload ∧
          (t.port p.val).replays = satInc q.replays ∧ (t.port p.val).resend = [] ∧ (t.port p.val).state = .up) ∧
      (rfld blk 0 0 8 = 0x10 → Calm 14 s →
        q.replay.find? (fun sl => slotNo sl.hdr == rfld blk 1 0 5 && slotFrame sl.hdr == rfld blk 2 0 16) = none →
        ∃ t, exec (.nakBlock p blk) s = .next t ∧ FaultSet 14 6 t ∧ (t.port p.val).state = .retrain) ∧
      (∀ o, rfld blk 0 0 8 = 0x11 → (s.cunit (rfld blk 2 0 3)).cur = some o → o.aborted = false →
        o.part = rfld blk 1 0 6 → o.step.toNat % 2 ^ 32 = rfld blk 4 0 32 → ∃ t, exec (.abortBlock p blk) s = .next t ∧
          OpAborted (rfld blk 2 0 3) t ∧ t.mem = s.mem) ∧
      (rfld blk 0 0 8 = 0x12 → 0 < rfld blk 2 0 8 → rfld blk 2 0 8 ≤ 64 → PortEmpty q → exec (.stlCredit p blk) s =
        .next (s.setPort p.val { q with credits := Tab.upd 0 q.credits (rfld blk 1 0 6) (· + rfld blk 2 0 8) })) ∧
      (rfld blk 0 0 8 = 0x13 → exec (.linkBlock p blk) s = .next (s.setPort p.val { q with peerLanes := BitVec.ofNat 4 (rfld blk 1 0 4) }))) ∧
    (∀ blk : BitVec 128, blockOk blk = false → Calm 14 s →
      (∃ t, exec (.nakBlock p blk) s = .next t ∧ FaultSet 14 3 t ∧ t.ports = s.ports) ∧
      (∃ t, exec (.abortBlock p blk) s = .next t ∧ FaultSet 14 3 t ∧ t.cols = s.cols) ∧
      (∃ t, exec (.stlCredit p blk) s = .next t ∧ FaultSet 14 3 t ∧ t.ports = s.ports) ∧
      (∃ t, exec (.linkBlock p blk) s = .next t ∧ FaultSet 14 3 t ∧ t.ports = s.ports))

/-- Collective units. An operation whose wait is met starts; one of no element ends EMPTY at once. An operation that has ended, every
write acknowledged, leaves its status, and ABORTED sets its fault bit; its record is written where its descriptor asks for one. An
abort ends the operation at hand. Fences and re-admissions wait for the proof of a running owner and for the unit to be idle; a re-
admission of a unit that is not fenced is refused. (Rests on log entry 56.) -/
def Obligations.CollectiveUnits : Prop :=
  ∀ (c : Fin 8) (s : State), Canon s →
    let u := s.cunit c.val
    (∀ o, u.cur = some o → u.run = .wait → collWaitMet s o.desc = true →
      (cCount o.desc ≠ 0 → exec (.colWaitSatisfied c) s = .next (refresh (startOp c.val s))) ∧
      (cCount o.desc = 0 → o.failed = [] → u.queue = [] → u.fencePend = false → ∃ t, exec (.colWaitSatisfied c) s = .next t ∧
        (t.cunit c.val).lastStat = .empty ∧ (t.cunit c.val).run = .idle ∧ (t.cunit c.val).cur = none ∧ t.mem = s.mem)) ∧
    (∀ o, u.cur = some o → u.run = .ending → o.writes = [] → Logs 13 s →
      let st := o.finalStatus
      (cCompValid o.desc = false → u.queue = [] → u.fencePend = false → ∃ t, exec (.colOpComplete c) s = .next t ∧
        (t.cunit c.val).lastStat = st ∧ (t.cunit c.val).run = .idle ∧ (t.cunit c.val).cur = none ∧ t.mem = s.mem ∧
        (st = .aborted → FaultSet 13 2 t) ∧ (o.failed ≠ [] → FaultSet 13 3 t)) ∧
      (cCompValid o.desc = true → ∃ t, exec (.colOpComplete c) s = .next t ∧ (t.cunit c.val).lastStat = st ∧
        t.mem = (dvaWrite (64 + c.val) (cCtx o.desc) (cComp o.desc) (collRecord c.val o st) false s).2.mem)) ∧
    (∀ o, u.cur = some o → o.aborted = false → ∃ t, exec (.colAbort c) s = .next t ∧ OpAborted c.val t ∧ t.mem = s.mem) ∧
    (u.run ≠ .fenced → exec (.colFence c) s = .next (s.setCunit c.val
      (if ownerActive s u.owner || u.run != .idle then { u with fencePend := true } else { u with run := .fenced, fencePend := false }))) ∧
    (u.run = .fenced → exec (.colReadmit c) s = .next (s.setCunit c.val
      (if ownerActive s u.owner then { u with readmPend := true } else { u with run := .idle, readmPend := false }))) ∧
    (u.run ≠ .fenced → Calm 13 s → ∃ t, exec (.colReadmit c) s = .next t ∧ FaultSet 13 0 t ∧ t.cols = s.cols)

/-! ### Virtual interfaces and their commands -/

/-- Attach, detach and leases. An attach out of DETACHED starts both rings again; out of QUIESCED it rejoins, at the next proof where
the partition runs; another version, a VI of no partition or one attached already is refused. A detach or a quiesce of an attached
VI waits for the proof while the partition runs or commands are open. A renewal restarts the period; three quarters of it warn; its
end quiesces. (Rests on log entry 58.) -/
def Obligations.ViAttachment : Prop :=
  ∀ (v : Fin 1024) (s : State), Canon s →
    let x := s.vi v.val
    (∀ val : Word, attachStatus s v.val val = .ok →
      (x.state = .detached → ∃ t, exec (.vifAttach v val) s = .next t ∧ t.vi v.val = attachedVi s.clk.now x ∧ t.mem = s.mem) ∧
      (x.state = .quiesced → viRuns v.val s = true → ∃ t, exec (.vifAttach v val) s = .next t ∧
        t.vi v.val = { x with attachStat := .ok, renewed := s.clk.now, warned := false, pend := .rejoin }) ∧
      (x.state = .quiesced → viRuns v.val s = false → x.held = [] → ∃ t, exec (.vifAttach v val) s = .next t ∧
        t.vi v.val = { x with attachStat := .ok, state := .attached, pend := .none, resume := false, renewed := s.clk.now, warned := false })) ∧
    (∀ val : Word, attachStatus s v.val val ≠ .ok → Calm 2 s → ∃ t, exec (.vifAttach v val) s = .next t ∧ FaultSet 2 3 t ∧
      (t.vi v.val).attachStat = attachStatus s v.val val ∧ (t.vi v.val).state = x.state) ∧
    (x.state = .quiesced → ∃ t, exec (.vifDetach v) s = .next t ∧ (t.vi v.val).state = .detached ∧ (t.vi v.val).read = [] ∧ t.mem.bytes = s.mem.bytes) ∧
    (x.state = .attached → ∃ t, exec (.vifDetach v) s = .next t ∧
      (if viRuns v.val s || !x.cmds.isEmpty then t.vi v.val = { x with pend := .detach } else (t.vi v.val).state = .detached)) ∧
    (x.state = .attached → exec (.vifLease v) s = .next (s.setVi v.val { x with renewed := s.clk.now, warned := false })) ∧
    (x.state = .attached → x.warned = false → x.renewed ≠ s.clk.now → ∃ t, exec (.leaseWarn v) s = .next t ∧
      t.vi v.val = { x with warned := true, intPend := x.intPend ||| 2#5 } ∧ t.mem = s.mem) ∧
    (x.state = .attached → x.renewed ≠ s.clk.now → Calm 2 s → ∃ t, exec (.leaseExpiry v) s = .next t ∧ FaultSet 2 1 t ∧
      (if viRuns v.val s then t.vi v.val = { x with pend := .quiesce (some 1) }
       else (t.vi v.val).state = .quiesced ∧ (t.vi v.val).vstatus.getLsbD 1 = true)) ∧
    (pfSel s = v.val → x.state = .attached →
      (∃ t, exec .pfQuiesce s = .next t ∧ (if viRuns v.val s then t.vi v.val = { x with pend := .quiesce none } else (t.vi v.val).state = .quiesced)) ∧
      (∃ t, exec .pfDetach s = .next t ∧
        (if viRuns v.val s || !x.cmds.isEmpty then t.vi v.val = { x with pend := .detach } else (t.vi v.val).state = .detached)))

/-- Fetching. A fetch slot with nothing to deliver counts as used where it is a scheduled one, and reads the ring; a ring read that can
go out asks the host for as many records as may be read, a request of 64 B for each. Its data brings the records that are new, up to
that number; a failed read quiesces the VI. The four commands of a ring, each at the front of its VI's records. NOP ends OK; a
BARRIER ends OK where no command is open and else holds later records back; a WAIT_STEP ends OK where its step is reached and else
waits for it; a TRANSFER passes its descriptor to the engine, or ends ABORTED where no pool holds it. A sealed record without a
session ends DENIED. (Rests on log entries 57, 60.) -/
def Obligations.RingReadsAndCommands : Prop :=
  (∀ (v : Fin 1024) (p : Nat) (s : State), Canon s → s.partOfVi v.val = some p →
    let x := s.vi v.val
    (x.state = .attached → s.host.dmaStopped = false →
      (slotDue s p v.val = true → x.read = [] → x.held = [] → readCount x = 0 → ∃ t, exec (.fetchSlot v) s = .next t ∧
        Tab.get 0 (t.part p).fetches v.val = Tab.get 0 (s.part p).fetches v.val + 1 ∧ t.vi v.val = { x with resume := false } ∧ t.mem = s.mem) ∧
      (∀ e ps, slotDue s p v.val = false → ringEngine s p = some e → (s.xfe e).run ≠ .fenced → x.reading = none → readCount x ≠ 0 →
        let n := readCount x
        xPlan s e v.val false ((List.range n).map (fun i => ((x.cmdBase.toNat + x.cmdHead * 64) % 2 ^ 48 + i * 64, 64))) = .go ps →
        (∀ q ∈ ps, ∃ h iova a, q.2.2 = .host h iova a) → hostTagsFree s p n = true → holdFull s e p n = false → FreshTags s → Calm 9 s →
        (s.noc.reqs.filter (fun r => r.host && r.who == .xfe e)).length + n ≤ 128 → ∃ t, exec (.fetchSlot v) s = .next t ∧
          t.vi v.val = { x with resume := false, reading := some { head := x.cmdHead, reqs := (List.range n).map (fun i => (s.noc.nextTag + i, none)) }, fetchWait := false } ∧
          (∀ i h iova a b c, ps[i]? = some (b, c, .host h iova a) → ∃ r ∈ t.noc.reqs, r.tag = s.noc.nextTag + i ∧ r.host = true ∧ r.write = false ∧
            r.addr = a ∧ r.len = 64 ∧ r.use = .ring v.val) ∧ t.parts = s.parts ∧ t.mem = s.mem)) ∧
    (∀ (tags : List Nat) (data : List (BitVec 512)), x.reading = some { head := x.cmdHead, reqs := tags.map (fun k => (k, none)) } → tags ≠ [] →
      tags.Nodup → EnginesIdle s → RingsIdle s → (∀ r ∈ s.noc.reqs, r.tag ∈ tags → NoTargets r s) → x.state = .attached →
      ((∃ e, ringEngine s p = some e ∧ (s.xfe e).run ≠ .fenced) →
        let got := { x with reading := none, read := newRecords x.cmdPhase ((ringWords x tags.length data).take (readCount x)) }
        (∃ t, exec (.ringReadCompletion v .sc data) s = .next t ∧ t.vi v.val = got ∧ t.mem = s.mem) ∧
        (∀ k w r, tags = [k] → data = [w] → s.noc.reqs.find? (fun r => r.tag == k && r.host && r.gone && !r.write) = some r → r.dead = false →
          r.use = .ring v.val → ∃ t, exec (.hostReadCompletion k .sc (leBytes 64 w.toNat) false) s = .next t ∧ t.vi v.val = got ∧ t.mem = s.mem)) ∧
      (viRuns v.val s = true → Calm 2 s → ∃ t, exec (.ringReadCompletion v .ur data) s = .next t ∧ FaultSet 2 2 t ∧
        t.vi v.val = { x with reading := none, pend := .quiesce (some 3) }))) ∧
  (∀ (v : Fin 1024) (p a : Nat) (r : BitVec 512) (rest : List (BitVec 512)) (s : State), Canon s →
    let x := s.vi v.val
    (Deliverable 1 v.val p a r rest s → ∃ t, exec (.cmdNop v) s = .next t ∧ (t.vi v.val).read = rest ∧ CommandEnded v.val p a r .ok 0 s t) ∧
    (Deliverable 3 v.val p a r rest s →
      (x.cmds = [] → ∃ t, exec (.cmdBarrier v) s = .next t ∧ (t.vi v.val).read = rest ∧ CommandEnded v.val p a r .ok 0 s t) ∧
      (x.cmds ≠ [] → ∃ t, exec (.cmdBarrier v) s = .next t ∧ (t.vi v.val).read = rest ∧ (t.vi v.val).barrier = true ∧
        (t.vi v.val).cmds.length = x.cmds.length + 1 ∧ t.mem = s.mem)) ∧
    (Deliverable 4 v.val p a r rest s →
      (BitVec.ofNat 64 (rfld r 8 0 64) ≤ (s.part p).step → ∃ t, exec (.cmdWaitStep v) s = .next t ∧ (t.vi v.val).read = rest ∧
        CommandEnded v.val p a r .ok ((s.part p).step.toNat % 2 ^ 32) s t) ∧
      ((s.part p).step < BitVec.ofNat 64 (rfld r 8 0 64) → ∃ t, exec (.cmdWaitStep v) s = .next t ∧ (t.vi v.val).read = rest ∧
        (t.vi v.val).cmds = x.cmds ++ [{ opcode := 4, cmdId := BitVec.ofNat 32 (rfld r 4 0 32), step := (s.part p).step, tag := x.nextTag, waitFor := some (BitVec.ofNat 64 (rfld r 8 0 64)) }] ∧
        t.mem = s.mem)) ∧
    (Deliverable 2 v.val p a r rest s →
      (∀ d, commandDesc s p v.val x.nextTag r = some d → descOk (s.part p).cfg (ringEngine s p) false d = true →
        ∃ t, exec (.cmdTransfer v) s = .next t ∧ (t.vi v.val).read = rest ∧ (t.vi v.val).cmds.length = x.cmds.length + 1 ∧
          (t.xfe d.engine).queue = (s.xfe d.engine).queue ++ [{ d with seq := s.xlt.order }] ∧ t.mem = s.mem) ∧
      (commandDesc s p v.val x.nextTag r = none → ∃ t, exec (.cmdTransfer v) s = .next t ∧ (t.vi v.val).read = rest ∧
        CommandEnded v.val p a r .aborted 0 s t)) ∧
    (s.partOfVi v.val = some p → x.read = r :: rest → cmdOpcode r = 1 → cmdSealed r = true → s.sealOpen v.val = false → canDeliver s p v.val = true →
      EntryOpen v.val p a s → (∀ c ∈ x.cmds, c.tag ≠ x.nextTag) → (s.grp 4).inject = 0 → ∃ t, exec (.cmdNop v) s = .next t ∧
        (t.vi v.val).read = rest ∧ CommandEnded v.val p a r .denied 0 s t))

/-! ### The host endpoint -/

/-- The host driver and the events of its link. An attach is refused before the start is complete, without Bus Master Enable or in
D3hot, and for another version; one with no completion entry held back is accepted and lets host DMA run. The end of the lease, a
detach, Bus Master Enable cleared, a function-level reset, PERST#, D3hot and a lost link each stop host DMA with their reason; the
two resets also reset the host island. The link that comes back leaves host DMA stopped. Answers of the host to the reads of
transfer engines. A completion hands its data to the engine, and a poisoned one sets its fault bit; UR, and a completion that does
not come in time, end the request, and the timeout sets CPL_TIMEOUT; a completion of a read that was given up is discarded. (Rests
on log entries 58, 59.) -/
def Obligations.HostDriverAndReads : Prop :=
  (∀ s : State, Canon s →
    (∀ val : Word, bits val.toNat 16 16 = 1 → s.mgt.stage = .complete → s.host.bme = true → s.host.d3hot = false → (∀ v, (s.vi v).held = []) →
      ∃ t, exec (.hstAttach val) s = .next t ∧ t.host.attached = true ∧ t.host.attachStat = .ok ∧ t.host.dmaStopped = false ∧
        t.host.stopReason = 0 ∧ t.host.drvRenew = s.clk.now ∧ t.vis = s.vis ∧ t.mem = s.mem) ∧
    (∀ val : Word, bits val.toNat 16 16 ≠ 1 ∨ s.mgt.stage ≠ .complete ∨ s.host.bme = false ∨ s.host.d3hot = true →
      ∃ t, exec (.hstAttach val) s = .next t ∧ t.host.attachStat = (if bits val.toNat 16 16 = 1 then .denied else .version) ∧
        t.host.attached = s.host.attached ∧ t.host.dmaStopped = s.host.dmaStopped ∧ t.vis = s.vis) ∧
    exec .hstDrvLease s = .next { s with host := { s.host with drvRenew := s.clk.now } } ∧
    exec .busMasterEnable s = .next { s with host := { s.host with bme := true } } ∧
    exec .d0Entry s = .next { s with host := { s.host with d3hot := false } } ∧
    (s.host.dmaStopped = false → Calm 1 s →
      (s.host.attached = true → s.host.drvRenew ≠ s.clk.now → ∃ t, exec .drvLeaseExpiry s = .next t ∧ DmaStop 2 t) ∧
      (∃ t, exec .drvDetach s = .next t ∧ DmaStop 1 t) ∧
      (∃ t, exec .busMasterDisable s = .next t ∧ DmaStop 3 t ∧ t.host.bme = false) ∧
      (∃ t, exec .functionLevelReset s = .next t ∧ DmaStop 4 t ∧ IslandReset t) ∧
      (∃ t, exec .perstAssert s = .next t ∧ DmaStop 5 t ∧ IslandReset t ∧ t.host.perst = true ∧ t.host.linkUp = false ∧ t.host.inta = false) ∧
      (∃ t, exec .d3hotEntry s = .next t ∧ DmaStop 6 t ∧ t.host.d3hot = true) ∧
      (Logs 1 s → ∃ t, exec .pcieLinkDown s = .next t ∧ DmaStop 7 t ∧ t.host.linkUp = false ∧ t.host.inta = false ∧ FaultSet 1 5 t)) ∧
    (s.host.dmaStopped = true → (∃ t, exec .functionLevelReset s = .next t ∧ IslandReset t ∧ t.host.stopReason = s.host.stopReason) ∧
      (∃ t, exec .perstAssert s = .next t ∧ IslandReset t ∧ t.host.perst = true ∧ t.host.linkUp = false)) ∧
    (∀ (rate width : Nat) (flit : Bool),
      (∃ t, exec (.perstRelease rate width flit) s = .next t ∧ t.host.perst = false ∧ t.host.linkUp = true ∧ t.host.cfgReady = true ∧
        t.host.rate = rate ∧ t.host.width = width ∧ t.host.flit = flit ∧ t.host.dmaStopped = s.host.dmaStopped) ∧
      (s.host.perst = false → ∃ t, exec (.pcieLinkUp rate width flit) s = .next t ∧ t.host.linkUp = true ∧ t.host.rate = rate ∧
        t.host.width = width ∧ t.host.flit = flit ∧ t.host.dmaStopped = s.host.dmaStopped)) ∧
    (∀ b, ∃ t, exec (.interruptDisableWrite b) s = .next t ∧ t.host.intDisable = b ∧ t.host.intStatus = intLevel s ∧
      (s.host.linkUp = true → t.host.inta = (intLevel s && !b)) ∧ t.mem = s.mem)) ∧
  (∀ (tag : Nat) (s : State) (r : Req), Canon s → s.noc.reqs.find? (fun r => r.tag == tag && r.host && r.gone && !r.write) = some r → NoTargets r s →
    (∀ e k, r.dead = false → r.use = .xread e k →
      (∀ data, exec (.hostReadCompletion tag .sc data false) s = .next (refresh (ringRetryAll (pumpAll
        (xfeRead e tag (data.take r.len) false (completeStats r (s.dropReq tag))))))) ∧
      (EnginesIdle s → RingsIdle s →
        (∀ cpl data poison, poison = false ∨ Calm 1 s → ∃ t, exec (.hostReadCompletion tag cpl data poison) s = .next t ∧ (∀ q ∈ t.noc.reqs, q.tag ≠ tag) ∧
          t.mem = s.mem ∧ t.xfes = s.xfes ∧ (cpl = .sc → poison = true → FaultSet 1 4 t)) ∧
        (Calm 1 s → ∃ t, exec (.hostCompletionTimeout tag) s = .next t ∧ FaultSet 1 3 t ∧ (∀ q ∈ t.noc.reqs, q.tag ≠ tag) ∧ t.mem = s.mem ∧
          t.xfes = s.xfes))) ∧
    (r.dead = true → EnginesIdle s → RingsIdle s → ∀ cpl data, exec (.hostReadCompletion tag cpl data false) s = .next (refresh (s.dropReq tag))))

/-! ### The security island -/

/-- The SPDM responder. GET_VERSION opens an exchange, GET_CAPABILITIES follows it, NEGOTIATE_ALGORITHMS follows that; then digests, the
certificate chain of slot 0, CHALLENGE and measurements are served, the last two signed with the device identity key as asked. A
request out of order, and a certificate or challenge request for another slot, gets an ERROR; where the responder does not run
GET_VERSION and GET_MEASUREMENTS are not answered (the message layout is the model's own, log entry 61). Seal sessions. An OPEN by
an attached VI that accepted the feature starts where the tenant's point lies on the curve, and is DENIED where it does not or where
the debugger may scan the hub. Its completion puts a key into the VI's key slot and starts every sequence number at 0. A close by
the tenant or the host and a fault of the key slot each end the session with their reason; a wipe empties the slot. A failing
entropy source sets its fault bit. (Rests on log entries 7, 61, 62.) -/
def Obligations.SpdmAndSeals : Prop :=
  (∀ (tr : Fin 3) (req : List Byte) (s : State),
    let x := s.spdm tr.val
    let chain := beBytes 48 (Config.sha384 s.mgt.flash.chain).toNat
    (spdmUp s = true →
      exec (.spdmGetVersion tr req) s = .next (spdmSend tr.val 4 req [] (s.setSpdm tr.val { version := true })) ∧
      (x.version = true → exec (.spdmGetCapabilities tr req) s =
        .next (spdmSend tr.val 0x61 req [] (s.setSpdm tr.val { version := true, caps := true }))) ∧
      (x.version = false → exec (.spdmGetCapabilities tr req) s = .next (spdmError tr.val req s)) ∧
      (x.caps = true → exec (.spdmNegotiateAlgorithms tr req) s =
        .next (spdmSend tr.val 0x63 req [] (s.setSpdm tr.val { version := true, caps := true, algs := true }))) ∧
      (x.caps = false → exec (.spdmNegotiateAlgorithms tr req) s = .next (spdmError tr.val req s)) ∧
      (x.algs = true →
        exec (.spdmGetDigests tr req) s = .next (spdmSend tr.val 1 req chain s) ∧
        (spdmParam req 1 % 16 = 0 → exec (.spdmGetCertificate tr req) s =
          .next (spdmSend tr.val 2 req ((s.mgt.flash.chain.drop (bfld req 4 0 16)).take (bfld req 6 0 16)) s)) ∧
        (spdmParam req 1 % 16 = 0 → exec (.spdmChallenge tr req) s =
          .next (spdmSigned tr.val 3 req (chain ++ beBytes 48 (measDigest s).toNat) s)) ∧
        (spdmParam req 1 % 16 ≠ 0 → exec (.spdmGetCertificate tr req) s = .next (spdmError tr.val req s) ∧
          exec (.spdmChallenge tr req) s = .next (spdmError tr.val req s)) ∧
        (spdmParam req 2 = 0 → spdmParam req 1 % 2 = 0 → exec (.spdmGetMeasurements tr req) s =
          .next (spdmSend tr.val 0x60 req [BitVec.ofNat 8 s.sec.meas.length] s)) ∧
        (spdmParam req 2 = 255 → spdmParam req 1 % 2 = 1 → exec (.spdmGetMeasurements tr req) s =
          .next (spdmSigned tr.val 0x60 req (s.sec.meas.map (fun b => Config.measBlock b.1 b.2)).flatten s)) ∧
        (∀ b, spdmParam req 2 ≠ 0 → spdmParam req 2 ≠ 255 → s.sec.meas.find? (fun b => b.1 == spdmParam req 2) = some b →
          spdmParam req 1 % 2 = 1 → exec (.spdmGetMeasurements tr req) s =
          .next (spdmSigned tr.val 0x60 req (Config.measBlock b.1 b.2) s))) ∧
      (x.algs = false →
        exec (.spdmGetDigests tr req) s = .next (spdmError tr.val req s) ∧ exec (.spdmGetCertificate tr req) s = .next (spdmError tr.val req s) ∧
        exec (.spdmChallenge tr req) s = .next (spdmError tr.val req s) ∧ exec (.spdmGetMeasurements tr req) s = .next (spdmError tr.val req s))) ∧
    (spdmUp s = false → exec (.spdmGetVersion tr req) s = .next s ∧ exec (.spdmGetMeasurements tr req) s = .next s)) ∧
  (∀ (v : Fin 1024) (s : State), Canon s →
    let x := s.sealOf v.val
    (x.state = .none → (s.vi v.val).state = .attached → (s.vi v.val).features.getLsbD 0 = true → s.sec.entropyOk = true → ∃ t,
      exec (.sealOpen v) s = .next t ∧ (if Config.onCurve x.qt && !scanHeld s then t.sealOf v.val = { x with state := .busy }
        else (t.sealOf v.val).state = .none ∧ (t.sealOf v.val).result = .denied ∧ (t.vi v.val).intPend.getLsbD 4 = true)) ∧
    (x.state = .none → (s.vi v.val).state ≠ .attached ∨ (s.vi v.val).features.getLsbD 0 = false → ∃ t, exec (.sealOpen v) s = .next t ∧
      (t.sealOf v.val).state = .none ∧ (t.sealOf v.val).result = .denied) ∧
    (x.state = .busy → s.sec.entropyOk = true → x.wiping = false → ∃ t k, exec (.sealOpenComplete v) s = .next t ∧
      (t.sealOf v.val).state = .open_ ∧ (t.sealOf v.val).key = some k ∧ (t.sealOf v.val).result = .ok ∧ (t.sealOf v.val).count = x.count + 1 ∧
      (t.sealOf v.val).cmdSeq = 0 ∧ (t.sealOf v.val).inSeq = 0 ∧ (t.sealOf v.val).outSeq = 0 ∧ (t.vi v.val).intPend.getLsbD 4 = true) ∧
    (x.state = .open_ →
      (∃ t, exec (.sealClose v) s = .next t ∧ SealEnded v.val 1 s t) ∧
      (v.val ≠ 0 → ∃ t, exec (.secSealClose v) s = .next t ∧ SealEnded v.val 2 s t) ∧
      (Calm 4 s → ∃ t, exec (.keySlotFault v) s = .next t ∧ SealEnded v.val 6 s t ∧ FaultSet 4 2 t)) ∧
    (v.val = 0 → Calm 4 s → ∃ t, exec (.secSealClose v) s = .next t ∧ FaultSet 4 0 t ∧ t.sec = s.sec) ∧
    (x.wiping = true → ∃ t, exec (.keySlotWipe v) s = .next t ∧ (t.sealOf v.val).key = none ∧ (t.sealOf v.val).wiping = false) ∧
    (Calm 4 s → ∃ t, exec .entropyFail s = .next t ∧ FaultSet 4 1 t ∧ t.sec.entropyOk = false ∧ t.mem = s.mem))

/-! ### Life cycle, OTP and debug -/

/-- Transitions of the life cycle. A request on a path of R634 whose preconditions hold is performed at once: the field is burnt, and
the state is the target; towards RETURNED and SCRAPPED memory and cells are empty after it. While the mailbox is UNAVAILABLE, or the
input voltage is low, it waits. Another is refused. OTP_PROGRAM of an allowed field burns its value, over the TAP and over BAR0, and
a burn that falls short sets BURN_FAIL; it waits as a transition does, over BAR0 with the command BUSY. (Rests on log entry 64.) -/
def Obligations.LifeCycleRequests : Prop :=
  (∀ (path : LcsPath) (target : BitVec 3) (b : Burn) (s : State), Canon s → s.lcs.transition = false → s.mgt.stage = .complete →
    pathOk (lifeCycle s) target.toNat path s.dbg.openS = true → transitionReady s (lifeCycle s) target.toNat = true →
    (s.mgt.unavail = false → inputLow s = false → ∃ t, exec (.lcsRequest path target .full) s = .next t ∧ lifeCycle t = target.toNat ∧
      (3 ≤ target.toNat → t.mem.bytes = [] ∧ t.fab.cells = [])) ∧
    (s.mgt.unavail = true → ∃ t, exec (.lcsRequest path target b) s = .next t ∧ t.lcs.deferTo = some (target.toNat, b) ∧
      t.lcs.transition = true ∧ t.lcs.otp = s.lcs.otp ∧ t.mem = s.mem) ∧
    (s.mgt.unavail = false → inputLow s = true → ∃ t, exec (.lcsRequest path target b) s = .next t ∧ t.lcs.deferTo = some (target.toNat, b) ∧
      t.lcs.deferred = true ∧ t.lcs.transition = true ∧ t.lcs.otp = s.lcs.otp ∧ t.mem = s.mem)) ∧
  (∀ (path : LcsPath) (target : BitVec 3) (b : Burn) (s : State), Canon s → Calm 3 s →
    s.lcs.transition = true ∨ s.mgt.stage ≠ .complete ∨ pathOk (lifeCycle s) target.toNat path s.dbg.openS = false ∨
      transitionReady s (lifeCycle s) target.toNat = false →
    ∃ t, exec (.lcsRequest path target b) s = .next t ∧ FaultSet 3 0 t ∧ t.lcs.status = .denied ∧ t.lcs.otp = s.lcs.otp ∧ t.mem = s.mem) ∧
  (∀ (tag : BitVec 8) (f : Nat) (v : List Byte) (b : Burn) (s : State), Canon s →
    let r := otpBurn f (leNat v) b s.lcs.otp
    (otpDenied s f v = true → exec (.otpProgram .tap tag f v b) s = .next s) ∧
    (otpDenied s f v = false → s.mgt.unavail = false → inputLow s = false → Calm 3 s → ∃ t, exec (.otpProgram .tap tag f v b) s = .next t ∧
      t.lcs.otp = r.2 ∧ (r.1 = false → FaultSet 3 2 t) ∧ t.mem = s.mem) ∧
    (otpDenied s f v = false → s.mgt.unavail = true ∨ inputLow s = true → exec (.otpProgram .tap tag f v b) s =
      .next { s with lcs := { s.lcs with otpLater := some (.tap, f, v, b), deferred := s.lcs.deferred || inputLow s } })) ∧
  (∀ (tag : BitVec 8) (f : Nat) (v : List Byte) (b : Burn) (s : State), Canon s → MailboxFree s → s.host.dmaStopped = false →
    (freeWindow s).isSome = true →
    let w := v.take (mbArg s 3)
    let r := otpBurn (mbArg s 0 % 4) (leNat w) b s.lcs.otp
    (otpDenied s (mbArg s 0 % 4) w = true → ∃ t, exec (.otpProgram .bar0 tag f v b) s = .next t ∧ Ended tag .denied t ∧ t.lcs.otp = s.lcs.otp) ∧
    (otpDenied s (mbArg s 0 % 4) w = false → inputLow s = false → Calm 3 s → ∃ t, exec (.otpProgram .bar0 tag f v b) s = .next t ∧
      Ended tag (if r.1 then .ok else .aborted) t ∧ t.lcs.otp = r.2 ∧ (r.1 = false → FaultSet 3 2 t)) ∧
    (otpDenied s (mbArg s 0 % 4) w = false → inputLow s = true → ∃ t, exec (.otpProgram .bar0 tag f v b) s = .next t ∧ t.mgt.busy = true ∧
      t.lcs.otpLater = some (.bar0, mbArg s 0 % 4, w, b) ∧ t.lcs.deferred = true ∧ t.lcs.otp = s.lcs.otp))

/-- Debug sessions and the TAP. OPEN_ERASE in FIELDED under its policy wipes every secret and opens a session with every right;
OPEN_CERT opens one with the certificate's rights where the certificate passes R645, and else counts the failure, the eighth of
which locks it: a locked one refuses every certificate, and only a hub reset unlocks it. A session that ends takes its rights with
it, and a new boot nonce stands. BYPASS and IDCODE work in every state; the boundary scan and the halt of the management core need
their right. (Rests on log entry 65.) -/
def Obligations.DebugAndTap : Prop :=
  (∀ s : State, Canon s → lifeCycle s = 2 → debugPolicy s = 1 → s.lcs.transition = false → s.dbg.openS = false → Logs 28 s →
    ∃ t, exec .openErase s = .next t ∧ DebugOpen 1 0 0x1FF#32 t ∧ SecretsWiped t ∧ FaultSet 28 3 t ∧ FaultSet 28 4 t) ∧
  (∀ (c : BitVec 2048) (s : State), Canon s → s.lcs.transition = false → s.dbg.openS = false → s.dbg.locked = false → Logs 28 s →
    lifeCycle s = 2 ∧ (debugPolicy s = 2 ∨ debugPolicy s = 3) ∨ lifeCycle s = 3 →
    let both := lifeCycle s == 2 && debugPolicy s == 3
    ∃ t, exec (.openCert c) s = .next t ∧
      (if certOk c s && (lifeCycle s == 2 || certFld c 4 16 8 == 2) then
        DebugOpen (if both then 3 else 2) (min 1440 (certFld c 0x34 0 16)) (BitVec.ofNat 32 (certFld c 0x30 0 32)) t ∧ FaultSet 28 3 t ∧
          (both = true → SecretsWiped t ∧ FaultSet 28 4 t)
       else t.dbg.openS = false ∧ t.dbg.fails = s.dbg.fails + 1 ∧ t.dbg.locked = decide (8 ≤ s.dbg.fails + 1) ∧ FaultSet 28 1 t ∧
          (8 ≤ s.dbg.fails + 1 → FaultSet 28 2 t) ∧ t.mem = s.mem)) ∧
  (∀ (c : BitVec 2048) (s : State), Canon s → s.dbg.locked = true → ∃ t, exec (.openCert c) s = .next t ∧ t.dbg = s.dbg ∧ t.mem = s.mem) ∧
  (∀ (c : Instr) (s t : State), exec c s = .next t → mayReset c = false → s.dbg.locked = true → t.dbg.locked = true) ∧
  (∀ (x : StartIn) (s : State), s.pwr.powered = true → s.mgt.rcvRun = false → ∃ t, exec (.hubReset x) s = .next t ∧ t.dbg.locked = false) ∧
  (∀ s : State, Canon s → s.dbg.openS = true →
    (∃ t, exec .tapClose s = .next t ∧ DebugClosed (Config.freeBits 256 s.free) t ∧ t.mem = s.mem) ∧
    (∃ t, exec .dbgClose s = .next t ∧ DebugClosed (Config.freeBits 256 s.free) t ∧ t.mem = s.mem) ∧
    (∀ nonce, s.dbg.minutes ≠ 0 → ∃ t, exec (.debugDurationExpiry nonce) s = .next t ∧ DebugClosed nonce t ∧ t.mem = s.mem)) ∧
  (∀ (b : Bool) (s : State), exec (.tapBypass b) s =
    .next ({ s with dbg := { s.dbg with tapIr := 0, tapOut := if b then 1 else 0 } }.emit (.tap (if b then 1 else 0)))) ∧
  (∀ s : State, exec .tapIdcode s = .next ({ s with dbg := { s.dbg with tapIr := 1, tapOut := (idcode s).setWidth 64 } }.emit (.tap ((idcode s).setWidth 64)))) ∧
  (∀ (x y : BitVec 64) (s : State),
    (scanOk s = true → exec (.tapExtest x) s = .next { s with dbg := { s.dbg with tapIr := 2, boundary := x } } ∧
      exec (.tapSamplePreload x y) s = .next ({ s with dbg := { s.dbg with tapIr := 3, tapOut := x, boundary := y } }.emit (.tap x))) ∧
    (scanOk s = false → exec (.tapExtest x) s = .next s ∧ exec (.tapSamplePreload x y) s = .next s)) ∧
  (∀ (op : HaltOp) (s : State), (hasRight s 1 = true → exec (.mgtHalt op) s = .next (fclkToMin { s with mgt := { s.mgt with halted := op != .resume } })) ∧
    (hasRight s 1 = false → exec (.mgtHalt op) s = .next s))

/-! ### Power and thermal -/

/-- The supply. An over-current, a low or a high input, make the hub unpowered and leave their record in the tiles; OTP and flash stay.
The input rising again powers the hub and ends a latch; after an overvoltage the tiles restart and the hub starts as from power-on.
A failed tile is fenced and sets its fault bit. (Rests on log entries 68, 74.) -/
def Obligations.SupplyEvents : Prop :=
  ∀ s : State, Canon s →
    (s.pwr.powered = true →
      (∃ t, exec .inputCurrentTrip s = .next t ∧ Unpowered s t ∧ t.pwr.latched = true ∧ t.pwr.tripRec = true) ∧
      (∃ t, exec .inputUndervoltage s = .next t ∧ Unpowered s t ∧ t.pwr.latched = s.pwr.latched) ∧
      (∃ t, exec .inputOvervoltage s = .next t ∧ Unpowered s t ∧ t.pwr.overV = true)) ∧
    (s.pwr.powered = false → ∃ t, exec .powerOn s = .next t ∧ t.pwr.powered = true ∧ t.pwr.pwrgd = true ∧ t.pwr.latched = false ∧
      t.flt.pin = false ∧ t.lcs.otp = s.lcs.otp ∧ t.mgt.stage = .rom) ∧
    (∀ x : StartIn, s.pwr.powered = false → s.pwr.overV = true → s.pwr.latched = false →
      exec (.tileRestart x) s = .next (hubReset x (repower s))) ∧
    (∀ k : Fin 8, (s.tile k.val).state ≠ .fenced → Calm 5 s → ∃ t, exec (.tileFail k) s = .next t ∧ FaultSet 5 2 t ∧
      (t.tile k.val).state = .fenced ∧ t.mem = s.mem) ∧
    (∀ i : Fin 16, exec (.supplyDroop i) s = .next { s with pwr := { s.pwr with stretch := putBit s.pwr.stretch i.val true, drooped := true } } ∧
      exec (.droopStretchEnd i) s = .next { s with pwr := { s.pwr with stretch := putBit s.pwr.stretch i.val false } }) ∧
    (s.pwr.throtN = false → Calm 6 s → ∃ t, exec .throtNAssert s = .next t ∧ FaultSet 6 7 t ∧ t.pwr = { s.pwr with throtN := true }) ∧
    exec .throtNRelease s = .next { s with pwr := { s.pwr with throtN := false } }

/-- The power controller. Each microsecond it records the raw estimate, the value used, and its history; a pair of 1 ms records the
measurement, the eleventh disagreeing pair in a row makes the larger value the one used, with ESTIMATE_OFF, and the hundredth
agreeing one ends that. A calibration moves K an eighth of the way to the observed ratio within its bounds. FCLK goes one code down
above 64/256 bubbles, and one up where the command says that bubbles stayed below 8/256 for a second; a change that is due already
stays. The rack budget and the debugger's policy fields are limited to their ranges; a budget written while firmware is away waits
for it. (Rests on log entries 67, 68.) -/
def Obligations.PowerControl : Prop :=
  ∀ s : State, Canon s →
    (∀ x : PowerIn, NothingDeferred s → Logs 5 s → ∃ t, exec (.powerControlTick x) s = .next t ∧ t.pwr.raw = x.raw ∧
      t.pwr.used = scaled { s.pwr with source := sourceNow s } x.raw ∧ t.pwr.hist = (t.pwr.used :: s.pwr.hist).take 60000000 ∧
      t.pwr.amps8 = x.amps8 ∧ t.mem = s.mem ∧ ∀ g < 2, s.pwr.throtN = true → 128 ≤ groupFrac t.pwr g) ∧
    (∀ est meas vin, Calm 5 s → ∃ t, exec (.powerSample1ms est meas vin) s = .next t ∧ t.pwr.meas = meas ∧ t.pwr.vin = vin ∧
      (s.pwr.larger = false → differ (s.pwr.k * est / 1024) meas 25 100 = true → s.pwr.disN = 10 →
        t.pwr.larger = true ∧ FaultSet 5 3 t ∧ (s.pwr.source = .estimate → senseMarked s = false → t.pwr.source = .larger)) ∧
      (s.pwr.larger = true → differ (s.pwr.k * est / 1024) meas 10 100 = false → s.pwr.agreeN = 99 →
        t.pwr.larger = false ∧ (s.pwr.source = .larger → senseMarked s = false → t.pwr.source = .estimate))) ∧
    (∃ t, exec .calibrationUpdate s = .next t ∧ t.pwr.kHist = [] ∧ t.pwr.baseHist = s.pwr.baseHist ∧
      (s.pwr.source = .estimate → s.pwr.kHist.length = 10 → (∀ h ∈ s.pwr.kHist, h.2.2 = false) →
        let m := (s.pwr.kHist.map (·.1)).foldl (· + ·) 0
        let r := (s.pwr.kHist.map (·.2.1)).foldl (· + ·) 0
        r ≠ 0 → t.pwr.k = clampTo 1024 1433 ((7 * s.pwr.k * r + 1024 * m) / (8 * r))) ∧
      (s.pwr.source ≠ .estimate ∨ (∃ h ∈ s.pwr.kHist, h.2.2 = true) → t.pwr.k = s.pwr.k)) ∧
    (∀ (mean : Nat) (low : Bool), s.mgt.unavail = false → s.mgt.halted = false →
      (64 < mean → s.pwr.fclkMin < s.fab.fclk → s.fab.fclk ≤ s.pwr.fclkMax → s.fab.fclkNext = none →
        exec (.fclkAdjust mean low) s = .next { s with fab := { s.fab with fclkNext := some (s.fab.fclk - 1) } }) ∧
      (∀ k, 64 < mean → s.pwr.fclkMin ≤ k → k < s.fab.fclk → s.fab.fclk ≤ s.pwr.fclkMax → s.fab.fclkNext = some k →
        exec (.fclkAdjust mean low) s = .next s) ∧
      (mean ≤ 64 → low = true → s.pwr.fclkMin ≤ s.fab.fclk → s.fab.fclk < s.pwr.fclkMax → s.fab.fclkNext = none → anyCaution s = false →
        exec (.fclkAdjust mean low) s = .next { s with fab := { s.fab with fclkNext := some (s.fab.fclk + 1) } }) ∧
      (mean ≤ 64 → low = false → s.pwr.fclkMin ≤ s.fab.fclk → s.fab.fclk ≤ s.pwr.fclkMax → s.fab.fclkNext = none →
        exec (.fclkAdjust mean low) s = .next s)) ∧
    (∀ w : Nat, (s.mgt.unavail = false → ∃ t, exec (.rackBudgetSet w) s = .next t ∧ t.pwr.budget = min w 8191 ∧
        t.pwr.avail = (if w = 0 then 0 else min (min w 8191) (pIn s) - meanOf s.pwr.baseHist.length s.pwr.baseHist) ∧ t.mem = s.mem) ∧
      (s.mgt.unavail = true → exec (.rackBudgetSet w) s = .next { s with mgt := { s.mgt with pldmQ := s.mgt.pldmQ ++ [{ kind := 6, arg := w }] } })) ∧
    (∀ x : PowerSet, (hasRight s 7 = true → ∃ t, exec (.powerOverride x) s = .next t ∧ t.mem = s.mem ∧
        t.pwr.avgLimit = (match x.avgLimit with | some v => clampTo 500 (max 500 (pIn s)) v | none => s.pwr.avgLimit) ∧
        t.pwr.avgWindow = (match x.avgWindow with | some v => clampTo 1 60 v | none => s.pwr.avgWindow) ∧
        t.pwr.noShare = (match x.noShare with | some v => v | none => s.pwr.noShare) ∧
        (∀ a b, x.fclk = some (a, b) → t.pwr.fclkMin = min 48 a ∧ t.pwr.fclkMax = clampTo (min 48 a) 48 b) ∧
        (∀ a b c, x.caution = some (a, b, c) → t.thm.cHub = clampTo 60 95 a ∧ t.thm.cSite = clampTo 60 95 b ∧ t.thm.cHbm = clampTo 60 85 c)) ∧
      (hasRight s 7 = false → exec (.powerOverride x) s = .next s))

/-- Temperatures. A reading that is the hottest of its region takes the region to CAUTION, CRITICAL or TRIP at the region's thresholds,
each with its fault bit; the hub's CRITICAL lowers FCLK to its least value, its TRIP stops the package, and 125 °C latches the tiles
off; a site's TRIP fences the site, a stack's TRIP its position. A reading outside the sensors' range sets SENSOR. A stack's reading
sets its refresh scale. (Rests on log entry 69.) -/
def Obligations.ThermalLevels : Prop :=
  (∀ (n : Fin 256) (q : Int) (s : State), Canon s → Logs 6 s → Tab.wf {} s.thm.sensors = true →
    let r := regionOf n.val
    let x := s.region r
    let th := thresholds s r
    let e := evenOf s (r - 9)
    (q < -160 ∨ 600 < q → (Tab.get {} s.thm.sensors n.val).failed = false → s.thm.trips = [] →
      (∀ k, k ≠ n.val → regionOf k = r → (Tab.get {} s.thm.sensors k).q < th.2.2) → ∃ t, exec (.thermalSample n q) s = .next t ∧
        FaultSet 6 6 t ∧ Tab.get {} t.thm.sensors n.val = { q := th.2.2 - 4, failed := true } ∧ t.mem = s.mem) ∧
    (-160 ≤ q → q ≤ 600 → (∀ k, k ≠ n.val → regionOf k = r → (Tab.get {} s.thm.sensors k).q ≤ q) → x.c1 = false → x.c2 = false → x.c3 = false →
      (q < th.1 → q < th.2.1 → s.thm.trips = [] → ∃ t, exec (.thermalSample n q) s = .next t ∧ (t.region r).c1 = false ∧ t.mem = s.mem ∧
        Tab.get {} t.thm.sensors n.val = { q := q, failed := false }) ∧
      ((th.1 : Int) ≤ q → q < th.2.1 → ∃ t, exec (.thermalSample n q) s = .next t ∧ FaultSet 6 1 t ∧ (t.region r).c1 = true ∧
        (t.region r).c2 = false ∧ t.mem = s.mem) ∧
      ((th.2.1 : Int) ≤ q → q < th.2.2 → (th.1 ≤ th.2.1) → ∃ t, exec (.thermalSample n q) s = .next t ∧ FaultSet 6 2 t ∧ (t.region r).c2 = true ∧
        (t.region r).c3 = false ∧ 192 ≤ (t.region r).frac ∧ t.mem = s.mem ∧
        (r < 9 → s.mgt.unavail = false → s.mgt.halted = false → t.fab.fclkNext = some s.pwr.fclkMin)) ∧
      ((th.2.2 : Int) ≤ q → r < 9 → q < 500 → ∃ t, exec (.thermalSample n q) s = .next t ∧ FaultSet 6 5 t ∧ t.flt.stopped = true ∧
        t.thm.tripReg = r ∧ t.thm.tripSens = n.val) ∧
      (r < 9 → 500 ≤ q → ∃ t, exec (.thermalSample n q) s = .next t ∧ HubOff s t ∧ t.pwr.latched = true ∧ t.pwr.inputLost = s.pwr.inputLost) ∧
      ((th.2.2 : Int) ≤ q → 9 ≤ r → (s.site e).state ≠ .fenced → ∃ t, exec (.thermalSample n q) s = .next t ∧ FaultSet 6 3 t ∧
        (t.site e).state = .fenced ∧ (t.site e).reason = .fault ∧ t.pwr.domains.getLsbD (40 + e) = false ∧ t.thm.tripReg = r))) ∧
  (∀ (m : Fin 6) (q : Int) (s : State), Canon s → Logs 6 s → (s.stack m.val).fitted = true → -160 ≤ q → q ≤ 600 →
    let x := s.region (27 + m.val)
    (q < 420 → s.thm.trips = [] → ∃ t, exec (.hbmTempSample m q) s = .next t ∧ (t.stack m.val).temp = q ∧ (t.stack m.val).refi = refiScale q ∧ t.mem.bytes = s.mem.bytes) ∧
    (420 ≤ q → x.c3 = false → ∃ t, exec (.hbmTempSample m q) s = .next t ∧ FaultSet 6 4 t ∧ (t.stack m.val).fenced = true ∧
      t.pwr.domains.getLsbD (58 + m.val) = false ∧ t.thm.tripReg = 27 + m.val))

/-! ### Fault groups -/

/-- The fault groups. A defined bit that a block detects is set in its group's status, and a reserved one has no effect; a grace period
that ends with no grace running does nothing, and under LOG clears the timer. Writing 1s clears status bits and acknowledges their
faults; an acknowledgement alone leaves the status. MASK takes its value under LOG, at a stopped package or while the grace timer
runs; ACTION takes LOG at once, and another action while no unmasked fault is live; FENCE_UNIT is refused in a package-wide group,
and a write of MASK in a frozen group is refused during a peel's handover. An injection keeps only the bits that can be injected. In
heartbeat mode ERR_N toggles while no unmasked status bit is set. (Rests on log entry 70.) -/
def Obligations.FaultGroups : Prop :=
  ∀ (g : Fin 29) (s : State), Canon s →
    let x := s.grp g.val
    (∀ (bit : Fin 32) (unit : Nat),
      (bit.val ≤ topBit g.val → Calm g.val s → ∃ t, exec (.faultDetect g bit unit) s = .next t ∧ FaultSet g.val bit.val t ∧
        (t.grp g.val).unacked.getLsbD bit.val = true ∧ t.mem.bytes = s.mem.bytes) ∧
      (topBit g.val < bit.val → exec (.faultDetect g bit unit) s = .next s)) ∧
    (x.timer = false → exec (.graceExpiry g) s = .next s) ∧
    (x.timer = true → x.action = .log ∨ s.flt.stopped = true → ∃ t, exec (.graceExpiry g) s = .next t ∧ (t.grp g.val).timer = false ∧
      (t.grp g.val).unacked = x.unacked &&& x.mask ∧ (t.grp g.val).status = x.status ∧ t.mem = s.mem) ∧
    (x.timer = true → x.action = .stopPackage → s.flt.stopped = false → ∃ t, exec (.graceExpiry g) s = .next t ∧ t.flt.stopped = true) ∧
    (∀ val : Word, ∃ t, exec (.faultStatusClear g val) s = .next t ∧ (t.grp g.val).status = x.status &&& ~~~ val ∧
      (t.grp g.val).unacked = x.unacked &&& ~~~ val ∧ (t.grp g.val).mask = x.mask ∧ t.mem = s.mem) ∧
    (∀ val : Word, ∃ t, exec (.faultAck g val) s = .next t ∧ (t.grp g.val).status = x.status ∧
      (t.grp g.val).unacked = x.unacked &&& ~~~ val ∧ t.mem = s.mem) ∧
    (∀ val : Word, frozen g.val s = false →
      (x.action = .log ∨ s.flt.stopped = true ∨ x.timer = true → ∃ t, exec (.faultMaskWrite g val) s = .next t ∧ (t.grp g.val).mask = val ∧
        (t.grp g.val).status = x.status ∧ t.mem = s.mem) ∧
      (bits val.toNat 0 2 = 0 → ∃ t, exec (.faultActionWrite g val) s = .next t ∧ (t.grp g.val).action = .log ∧ (t.grp g.val).timer = false ∧ t.mem = s.mem) ∧
      (bits val.toNat 0 2 = 1 → wideGroup g.val = true → Calm g.val s → ∃ t, exec (.faultActionWrite g val) s = .next t ∧ FaultSet g.val 0 t ∧
        (t.grp g.val).action = x.action) ∧
      (FAction.ofCode (bits val.toNat 0 2) = .fenceUnit → wideGroup g.val = false → FGroup.live x = 0 →
        ∃ t, exec (.faultActionWrite g val) s = .next t ∧ (t.grp g.val).action = .fenceUnit) ∧
      (2 ≤ bits val.toNat 0 2 → FGroup.live x = 0 → ∃ t, exec (.faultActionWrite g val) s = .next t ∧
        (t.grp g.val).action = FAction.ofCode (bits val.toNat 0 2)) ∧
      (g.val ≠ 0 ∨ s.mgt.halted = true → exec (.faultInjectArm g val) s =
        .next (s.setGrp g.val { x with inject := val &&& BitVec.ofNat 32 (injectable g.val + 0x80000000) })) ∧
      (g.val = 0 → s.mgt.halted = false → val.getLsbD 5 = true → val.getLsbD 31 = true → Calm 0 s → ∃ t, exec (.faultInjectArm g val) s = .next t ∧
        FaultSet 0 5 t ∧ t.mem = s.mem)) ∧
    (∀ val : Word, frozen g.val s = true → Calm g.val s → ∃ t, exec (.faultMaskWrite g val) s = .next t ∧ FaultSet g.val 0 t ∧
      (t.grp g.val).mask = x.mask) ∧
    (s.flt.modeRead = true → s.flt.heartbeat = true → pendingGroups s = [] → exec .errnHeartbeat s =
      .next ({ s with flt := { s.flt with pin := !s.flt.pin } }.emit (.errN (!s.flt.pin))))

/-! ### The start, firmware and PLDM -/

/-- The start. A start whose tests pass, with at least one good bank, runs the image of the active slot up to stage 5, with or without a
boot image. A hub reset of a SCRAPPED hub, one with no flash device, and the third start in a row that did not complete end in
flatbread mode with their reason; a failed self-test of the first stage stops the start; else ROM selects a slot, and with none that
verifies it stands in flatbread mode as well. A hub that is not powered stays as it is. The start watchdog resets the hub while a
start is under way. A start whose partitions have all been released completes: the record is cleared, the last-good record stands, a
slot on trial becomes ACTIVE. (Rests on log entries 72, 73.) -/
def Obligations.StartStages : Prop :=
  (∀ (x : StartIn) (s : State), Canon s → s.pwr.powered = true → s.mgt.rcvRun = false → s.pwr.tripRec = false →
    let r := s.mgt.flash.start
    let failed := if r.pending && !s.pwr.inputLost then r.failed + 1 else r.failed
    (burnt (romOtp s.lcs.otp) 3 = true → ∃ t, exec (.hubReset x) s = .next t ∧ t.mgt.stage = .flatbread ∧ t.mgt.flatReason = 0x20 ∧
      t.mem.bytes = [] ∧ t.pending = s.pending) ∧
    (burnt (romOtp s.lcs.otp) 3 = false → x.flashOk = false → ∃ t, exec (.hubReset x) s = .next t ∧ t.mgt.stage = .flatbread ∧
      t.mgt.flatReason = 1 ∧ t.mem.bytes = []) ∧
    (burnt (romOtp s.lcs.otp) 3 = false → x.flashOk = true → 3 ≤ failed → ∃ t, exec (.hubReset x) s = .next t ∧ t.mgt.stage = .flatbread ∧
      t.mgt.flatReason = 0x10 + min 5 (max 1 r.last) ∧ t.mgt.flash.start.failed = failed) ∧
    (burnt (romOtp s.lcs.otp) 3 = false → x.flashOk = true → failed < 3 →
      (x.sramTest = false ∨ x.secTest = false ∨ x.otpOk = false → ∃ t, exec (.hubReset x) s = .next t ∧ t.mgt.stage = .s1 ∧
        t.mgt.stopStart = true ∧ t.mgt.flash.start.pending = true) ∧
      (x.sramTest = true → x.secTest = true → x.otpOk = true → rbit (romOtp s.lcs.otp).pcw 0x40 0 = false →
        x.verifyA = false → x.verifyB = false → x.verifyR = false → ∃ t, exec (.hubReset x) s = .next t ∧ t.mgt.stage = .flatbread ∧
          t.mgt.flatReason = 2) ∧
      (∀ i, x.sramTest = true → x.secTest = true → x.otpOk = true → rbit (romOtp s.lcs.otp).pcw 0x40 0 = false →
        s.mgt.flash.trial = none → s.mgt.flash.active = 0 → s.mgt.flash.slotA = some i → x.verifyA = true → s.lcs.otp.rollback ≤ i.svn →
        x.synthLock = true → x.crossings = 7#3 → (∃ b < 64, x.banksBad.contains b = false) →
        ∃ t, exec (.hubReset x) s = .next t ∧ t.mgt.stage = .s5 ∧ t.mgt.stopStart = false ∧ t.mgt.fw = i ∧ t.mgt.running = .a ∧
          t.mgt.flash.start.pending = true ∧ t.mgt.flash.start.last = 5 ∧ t.pending = s.pending))) ∧
  (∀ (x : StartIn) (s : State), s.pwr.powered = false → exec (.hubReset x) s = .next s) ∧
  (∀ (x : StartIn) (s : State), starting s = true → exec (.startWatchdogExpiry x) s = .next (hubReset x s)) ∧
  (∀ (x : StartIn) (s : State), starting s = false → exec (.startWatchdogExpiry x) s = .next s) ∧
  (∀ s : State, s.mgt.stage = .s5 → s.mgt.stopStart = false → (∀ p ∈ s.enabledParts, launched (s.part p) = true) →
    ∃ t, exec .startComplete s = .next t ∧ t.mgt.stage = .complete ∧ t.mem = s.mem ∧
      (s.mgt.flash.present = true → t.mgt.flash.start = {} ∧ (∃ g, t.mgt.flash.good = some g ∧ g.serial = s.lcs.otp.serial ∧ g.version = s.mgt.fw.version) ∧
        (s.mgt.onTrial = true → s.mgt.running = .b → t.mgt.flash.active = 1) ∧ (s.mgt.onTrial = false → t.mgt.flash.active = s.mgt.flash.active)))

/-- A peel. A deferred one is staged again once no emergency has existed for 100 ms, and sets PEEL_LONG while it lasts too long; Freeze
makes the mailbox UNAVAILABLE and pauses admissions; the jump gives control to the staged image; the resumed image ends the peel,
and a late one sets PEEL_SLOW; where it does not resume, the old image stands again; the commit makes the new slot ACTIVE, and a
failed write leaves the directory. A watchdog in service counts, makes the mailbox UNAVAILABLE and drops a staged peel. (Rests on
log entry 78.) -/
def Obligations.Peels : Prop :=
  ∀ s : State, Canon s →
    let m := s.mgt
    (m.peel = .deferred → m.halted = false → emergency s = false → (∀ k, m.emergAt = some k → 120000000 ≤ s.clk.now.toNat - k.toNat) →
      exec .peelDeferCheck s = .next { s with mgt := { m with peel := .staged, deferAt := none, emergAt := none } }) ∧
    (m.peel = .deferred → m.halted = false → emergency s = true → exec .peelDeferCheck s = .next { s with mgt := { m with emergAt := some s.clk.now } }) ∧
    (m.peel = .deferred → Calm 0 s → ∃ t, exec .peelDeferLong s = .next t ∧ FaultSet 0 3 t ∧ t.mgt.peel = .deferred ∧ t.mgt.logSeq = m.logSeq + 1) ∧
    (waitOver s = true →
      (emergency s = false → ∃ t, exec .peelFreeze s = .next t ∧ t.mgt.peel = .handover ∧ t.mgt.unavail = true ∧ t.mgt.unavailAt = s.clk.now ∧
        RecordWritten m.fw t ∧ ∀ n, (t.site n).paused = admitting (s.site n)) ∧
      (emergency s = true → NothingDeferred s → ∃ t, exec .peelFreeze s = .next t ∧ t.mgt.peel = .deferred ∧ t.mgt.unavail = false)) ∧
    (∀ i, m.peel = .handover → m.halted = false → m.staged = some i →
      (emergency s = false → ∃ t, exec .peelJump s = .next t ∧ t.mgt.peel = .jumped ∧ t.mgt.fw = i ∧ t.mgt.oldFw = m.fw ∧ t.mgt.unavail = m.unavail) ∧
      (emergency s = true → NothingDeferred s → ∃ t, exec .peelJump s = .next t ∧ t.mgt.peel = .deferred ∧ t.mgt.fw = m.fw ∧ t.mgt.unavail = false)) ∧
    (m.halted = false → m.unavail = true → NothingDeferred s →
      (m.peel = .jumped → Calm 0 s → ∃ t, exec .peelResume s = .next t ∧ t.mgt.peel = .none ∧ t.mgt.staged = none ∧ t.mgt.commitDue = true ∧
        t.mgt.unavail = false ∧ t.mgt.fw = m.fw ∧ (60000000 < s.clk.now.toNat - m.unavailAt.toNat → FaultSet 0 7 t)) ∧
      (m.peel = .none → ∃ t, exec .peelResume s = .next t ∧ t.mgt.unavail = false ∧ t.mgt.fw = m.fw) ∧
      (∀ rejected, m.peel = .jumped → Calm 0 s → ∃ t, exec (.peelResumeTimeout rejected) s = .next t ∧ FaultSet 0 (if rejected then 6 else 2) t ∧
        t.mgt.fw = m.oldFw ∧ t.mgt.running = m.oldRun ∧ t.mgt.peel = .none ∧ t.mgt.staged = none ∧ t.mgt.unavail = false)) ∧
    (m.commitDue = true →
      (m.flash.present = true → ∃ t, exec (.peelCommit true) s = .next t ∧ t.mgt.commitDue = false ∧ t.mgt.flash.active = 1 - m.flash.active % 2 ∧
        slotImage t.mgt.flash (1 - m.flash.active % 2) = some m.fw ∧ t.mgt.running = FwSlot.of (1 - m.flash.active % 2)) ∧
      (Calm 0 s → ∃ t, exec (.peelCommit false) s = .next t ∧ FaultSet 0 4 t ∧ t.mgt.commitDue = false ∧
        t.mgt.flash = emptySlot (1 - m.flash.active % 2) m.flash)) ∧
    (m.stage = .complete → m.halted = false → m.peel ≠ .jumped → m.busy = false → s.img.load.stage = .idle → Calm 0 s → ∃ t,
      exec .mgtWatchdogExpiry s = .next t ∧ FaultSet 0 1 t ∧ t.mgt.wdtExp = satInc m.wdtExp ∧ t.mgt.unavail = true ∧ t.mgt.peel = .none) ∧
    (m.stage = .complete → m.halted = false → m.unavail = false →
      ∃ t, exec .handoverRecordWrite s = .next t ∧ RecordWritten m.fw t ∧ t.mem = s.mem)

/-- PLDM. While firmware or ROM answers, a request is served at once: the discovery requests and a sensor's reading are answered and
change nothing else; a transferred image that passes its checks is kept for its activation, and another is not; an activation stages
a peel or writes the slot. From Freeze to Resume GetTID and a sensor's reading wait; while ROM selects an image, and in SCRAPPED,
nothing answers them (the answers' bytes are the model's own, log entry 77). (Rests on log entry 77.) -/
def Obligations.PldmRequests : Prop :=
  ∀ s : State,
    (s.mgt.stage ≠ .rom → lifeCycle s ≠ 4 → s.mgt.unavail = false → s.mgt.pldmQ = [] →
      exec .pldmGetTid s = .next (answerPldm 0 (leBytes 1 0) s) ∧
      (∀ ty : BitVec 8, exec (.pldmGetPldmVersion ty) s = .next (answerPldm 1 (leBytes 1 ty.toNat) s)) ∧
      exec .pldmGetPldmTypes s = .next (answerPldm 2 (leBytes 1 0) s) ∧
      (∀ ty : BitVec 8, exec (.pldmGetPldmCommands ty) s = .next (answerPldm 3 (leBytes 1 ty.toNat) s)) ∧
      (∀ n v, sensorValue s n = some v → exec (.pldmSensorRead n) s =
        .next (answerPldm 4 (leBytes 2 n ++ 1#8 :: leBytes 4 (v % 2 ^ 32).toNat) s)) ∧
      (∀ n, sensorValue s n = none → exec (.pldmSensorRead n) s = .next (answerPldm 4 (leBytes 2 n ++ [0#8]) s)) ∧
      (∀ bytes, ∃ t, exec (.pldmFwTransfer false bytes) s = .next t ∧
        t.mgt.pldmImg = (if updateDenied false s || imageDenied bytes s then s.mgt.pldmImg else some (parseFw bytes)) ∧
        t.mgt.flash = s.mgt.flash ∧ t.mgt.fw = s.mgt.fw) ∧
      (∀ bytes, s.mgt.flash.present = true → ∃ t, exec (.pldmFwTransfer true bytes) s = .next t ∧
        t.mgt.flashOp = (if updateDenied true s || imageDenied bytes s then s.mgt.flashOp else .slot 2 (parseFw bytes) false false) ∧
        t.mgt.flash = (if updateDenied true s || imageDenied bytes s then s.mgt.flash else emptySlot 2 s.mgt.flash) ∧ t.mgt.fw = s.mgt.fw) ∧
      (∀ i, s.mgt.pldmImg = some i → updateDenied false s = false → s.lcs.otp.rollback ≤ i.svn →
        (recordOutside i s = false → emergency s = false → ∃ t, exec (.pldmActivateFirmware true) s = .next t ∧ t.mgt.peel = .staged ∧
          t.mgt.staged = some i ∧ t.mgt.pldmImg = none) ∧
        (s.mgt.flash.present = true → ∃ t, exec (.pldmActivateFirmware false) s = .next t ∧ t.mgt.pldmImg = none ∧
          t.mgt.flashOp = .slot s.mgt.pldmTo i true false ∧ t.mgt.flash = emptySlot s.mgt.pldmTo s.mgt.flash))) ∧
    (s.mgt.stage ≠ .rom → lifeCycle s ≠ 4 → s.mgt.unavail = true →
      exec .pldmGetTid s = .next { s with mgt := { s.mgt with pldmQ := s.mgt.pldmQ ++ [{ kind := 0 }] } } ∧
      ∀ n, exec (.pldmSensorRead n) s = .next { s with mgt := { s.mgt with pldmQ := s.mgt.pldmQ ++ [{ kind := 4, arg := n }] } }) ∧
    (s.mgt.stage = .rom ∨ lifeCycle s = 4 → exec .pldmGetTid s = .next s ∧ ∀ n, exec (.pldmSensorRead n) s = .next s)

end
end

