-- ==== Sys2Proof/Decode.lean ====
section
/-! DEFINITION. Reading a command from a word: the table of operations and events gives no row any bits. -/
namespace Sys2Proof

/-- The command that a word spells by the table's bits. No row of the table has bits, so no word spells one.
[DESIGN CHOICE, log entry 1] -/
def decodeTableWord (_nbits _w : Nat) : Option Instr := none

end Sys2Proof
end

