-- ==== Sys2Proof/Laws/Tab.lean ====
section
/-! SUPPORT. Laws of sparse tables: what a table reads after a write, and that every operation keeps the canonical form. -/
namespace Sys2Proof

theorem Tab.wfFrom_mono {α : Type} [DecidableEq α] {d : α} {lo hi : Nat} (h : lo ≤ hi) :
    ∀ {t : Tab α}, Tab.wfFrom d hi t = true → Tab.wfFrom d lo t = true
  | [], _ => rfl
  | (j, v) :: t, w => by
    simp only [Tab.wfFrom, Bool.and_eq_true, decide_eq_true_eq] at w ⊢
    exact ⟨⟨by omega, w.1.2⟩, w.2⟩

theorem Tab.wfFrom_rises {α : Type} [DecidableEq α] {d : α} : ∀ {t : Tab α} {lo : Nat}, Tab.wfFrom d lo t = true →
    Tab.risesFrom lo t = true
  | [], _, _ => rfl
  | (j, v) :: t, lo, w => by
    simp only [Tab.wfFrom, Tab.risesFrom, Bool.and_eq_true, decide_eq_true_eq] at w ⊢
    exact ⟨w.1.1, Tab.wfFrom_rises w.2⟩

/-- A canonical table's keys rise. -/
theorem Tab.wf_rises {α : Type} [DecidableEq α] {d : α} {t : Tab α} (w : Tab.wf d t = true) : Tab.rises t = true := Tab.wfFrom_rises w

theorem Tab.rises_mono {α : Type} {lo hi : Nat} (h : lo ≤ hi) : ∀ {t : Tab α}, Tab.risesFrom hi t = true → Tab.risesFrom lo t = true
  | [], _ => rfl
  | (j, v) :: t, w => by
    simp only [Tab.risesFrom, Bool.and_eq_true, decide_eq_true_eq] at w ⊢
    exact ⟨by omega, w.2⟩

theorem Tab.get_below {α : Type} {d : α} {lo k : Nat} (h : k < lo) :
    ∀ {t : Tab α}, Tab.risesFrom lo t = true → Tab.get d t k = d
  | [], _ => rfl
  | (j, v) :: t, w => by
    simp only [Tab.risesFrom, Bool.and_eq_true, decide_eq_true_eq] at w
    have h1 : j ≠ k := by omega
    have h2 : k < j := by omega
    simp [Tab.get, h1, h2]

theorem Tab.get_put_same {α : Type} (d : α) (k : Nat) (v : α) : ∀ t : Tab α, Tab.get d (Tab.put t k v) k = v
  | [] => by simp [Tab.put, Tab.get]
  | (j, w) :: t => by
    by_cases h1 : j = k
    · simp [Tab.put, Tab.get, h1]
    · by_cases h2 : k < j
      · simp [Tab.put, Tab.get, h1, h2]
      · simp [Tab.put, Tab.get, h1, h2, Tab.get_put_same d k v t]

theorem Tab.get_put_other {α : Type} (d : α) {k n : Nat} (h : n ≠ k) (v : α) :
    ∀ t : Tab α, Tab.get d (Tab.put t k v) n = Tab.get d t n
  | [] => by
    have h' : k ≠ n := fun e => h e.symm
    by_cases h2 : n < k <;> simp [Tab.put, Tab.get, h', h2]
  | (j, w) :: t => by
    have h' : k ≠ n := fun e => h e.symm
    by_cases h1 : j = k
    · subst h1; simp [Tab.put, Tab.get, h']
    · by_cases h2 : k < j
      · by_cases h3 : n < k
        · have h4 : j ≠ n := by omega
          have h5 : n < j := by omega
          simp [Tab.put, Tab.get, h1, h2, h', h3, h4, h5]
        · simp [Tab.put, Tab.get, h1, h2, h', h3]
      · simp [Tab.put, Tab.get, h1, h2, Tab.get_put_other d h v t]

theorem Tab.get_del_same {α : Type} {d : α} {k : Nat} :
    ∀ {t : Tab α} {lo : Nat}, Tab.risesFrom lo t = true → Tab.get d (Tab.del t k) k = d
  | [], _, _ => rfl
  | (j, v) :: t, lo, w => by
    simp only [Tab.risesFrom, Bool.and_eq_true, decide_eq_true_eq] at w
    by_cases h1 : j = k
    · subst h1; simpa [Tab.del] using Tab.get_below (Nat.lt_succ_self j) w.2
    · by_cases h2 : k < j
      · simp [Tab.del, Tab.get, h1, h2]
      · simpa [Tab.del, Tab.get, h1, h2] using Tab.get_del_same w.2

theorem Tab.get_del_other {α : Type} {d : α} {k n : Nat} (h : n ≠ k) :
    ∀ {t : Tab α} {lo : Nat}, Tab.risesFrom lo t = true → Tab.get d (Tab.del t k) n = Tab.get d t n
  | [], _, _ => rfl
  | (j, v) :: t, lo, w => by
    simp only [Tab.risesFrom, Bool.and_eq_true, decide_eq_true_eq] at w
    have h' : k ≠ n := fun e => h e.symm
    by_cases h1 : j = k
    · subst h1
      by_cases h2 : n < j
      · simpa [Tab.del, Tab.get, h', h2] using Tab.get_below (Nat.lt_succ_of_lt h2) w.2
      · simp [Tab.del, Tab.get, h', h2]
    · by_cases h2 : k < j
      · simp [Tab.del, h1, h2]
      · by_cases h3 : j = n
        · subst h3; simp [Tab.del, Tab.get, h1, h2]
        · by_cases h4 : n < j
          · simp [Tab.del, Tab.get, h1, h2, h3, h4]
          · simpa [Tab.del, Tab.get, h1, h2, h3, h4] using Tab.get_del_other h w.2

/-- A table reads what was written to it. -/
theorem Tab.get_set_rises {α : Type} [DecidableEq α] {d : α} {t : Tab α} (w : Tab.rises t = true) (k : Nat) (v : α) :
    Tab.get d (Tab.set d t k v) k = v := by
  by_cases h : v = d
  · simpa [Tab.set, h] using Tab.get_del_same w
  · simp [Tab.set, h, Tab.get_put_same]

/-- A write changes no other key, whatever the default of either key. -/
theorem Tab.get_set_rises_other {α : Type} [DecidableEq α] {d e : α} {t : Tab α} (w : Tab.rises t = true) {k n : Nat} (h : n ≠ k)
    (v : α) : Tab.get e (Tab.set d t k v) n = Tab.get e t n := by
  by_cases hv : v = d
  · simpa [Tab.set, hv] using Tab.get_del_other h w
  · simp [Tab.set, hv, Tab.get_put_other e h]

theorem Tab.get_set_same {α : Type} [DecidableEq α] {d : α} {t : Tab α} (w : Tab.wf d t = true) (k : Nat) (v : α) :
    Tab.get d (Tab.set d t k v) k = v := Tab.get_set_rises (Tab.wf_rises w) k v

theorem Tab.get_set_other {α : Type} [DecidableEq α] {d : α} {t : Tab α} (w : Tab.wf d t = true) {k n : Nat} (h : n ≠ k)
    (v : α) : Tab.get d (Tab.set d t k v) n = Tab.get d t n := Tab.get_set_rises_other (Tab.wf_rises w) h v

theorem Tab.rises_put {α : Type} {k : Nat} {v : α} :
    ∀ {t : Tab α} {lo : Nat}, lo ≤ k → Tab.risesFrom lo t = true → Tab.risesFrom lo (Tab.put t k v) = true
  | [], lo, h, _ => by simp [Tab.put, Tab.risesFrom, h]
  | (j, w) :: t, lo, h, hw => by
    simp only [Tab.risesFrom, Bool.and_eq_true, decide_eq_true_eq] at hw
    by_cases h1 : j = k
    · subst h1; simp [Tab.put, Tab.risesFrom, h, hw.2]
    · by_cases h2 : k < j
      · have : k + 1 ≤ j := h2
        simp [Tab.put, Tab.risesFrom, h1, h2, h, hw.2, this]
      · have : j + 1 ≤ k := by omega
        simp [Tab.put, Tab.risesFrom, h1, h2, hw.1, Tab.rises_put this hw.2]

theorem Tab.rises_del {α : Type} {k : Nat} : ∀ {t : Tab α} {lo : Nat}, Tab.risesFrom lo t = true → Tab.risesFrom lo (Tab.del t k) = true
  | [], _, _ => rfl
  | (j, w) :: t, lo, hw => by
    have hw' := hw
    simp only [Tab.risesFrom, Bool.and_eq_true, decide_eq_true_eq] at hw
    by_cases h1 : j = k
    · subst h1; simpa [Tab.del] using Tab.rises_mono (Nat.le_succ_of_le hw.1) hw.2
    · by_cases h2 : k < j
      · simpa [Tab.del, h1, h2] using hw'
      · simp [Tab.del, Tab.risesFrom, h1, h2, hw.1, Tab.rises_del hw.2]

/-- A write keeps the keys rising. -/
theorem Tab.rises_set {α : Type} [DecidableEq α] {d : α} {t : Tab α} (w : Tab.rises t = true) (k : Nat) (v : α) :
    Tab.rises (Tab.set d t k v) = true := by
  by_cases h : v = d
  · simpa [Tab.set, h, Tab.rises] using Tab.rises_del w
  · simpa [Tab.set, h, Tab.rises] using Tab.rises_put (Nat.zero_le k) w

theorem Tab.wfFrom_put {α : Type} [DecidableEq α] {d v : α} (hv : v ≠ d) {k : Nat} :
    ∀ {t : Tab α} {lo : Nat}, lo ≤ k → Tab.wfFrom d lo t = true → Tab.wfFrom d lo (Tab.put t k v) = true
  | [], lo, h, _ => by simp [Tab.put, Tab.wfFrom, h, hv]
  | (j, w) :: t, lo, h, hw => by
    simp only [Tab.wfFrom, Bool.and_eq_true, decide_eq_true_eq] at hw
    by_cases h1 : j = k
    · subst h1; simp [Tab.put, Tab.wfFrom, h, hv, hw.2]
    · by_cases h2 : k < j
      · have : k + 1 ≤ j := h2
        simp [Tab.put, Tab.wfFrom, h1, h2, h, hv, hw.1.2, hw.2, this]
      · have : j + 1 ≤ k := by omega
        simp [Tab.put, Tab.wfFrom, h1, h2, hw.1.1, hw.1.2, Tab.wfFrom_put hv this hw.2]

theorem Tab.wfFrom_del {α : Type} [DecidableEq α] {d : α} {k : Nat} :
    ∀ {t : Tab α} {lo : Nat}, Tab.wfFrom d lo t = true → Tab.wfFrom d lo (Tab.del t k) = true
  | [], _, _ => rfl
  | (j, w) :: t, lo, hw => by
    have hw' := hw
    simp only [Tab.wfFrom, Bool.and_eq_true, decide_eq_true_eq] at hw
    by_cases h1 : j = k
    · subst h1; simpa [Tab.del] using Tab.wfFrom_mono (Nat.le_succ_of_le hw.1.1) hw.2
    · by_cases h2 : k < j
      · simpa [Tab.del, h1, h2] using hw'
      · simp [Tab.del, Tab.wfFrom, h1, h2, hw.1.1, hw.1.2, Tab.wfFrom_del hw.2]

/-- A write keeps the canonical form. -/
theorem Tab.wf_set {α : Type} [DecidableEq α] {d : α} {t : Tab α} (w : Tab.wf d t = true) (k : Nat) (v : α) :
    Tab.wf d (Tab.set d t k v) = true := by
  by_cases h : v = d
  · simpa [Tab.set, h, Tab.wf] using Tab.wfFrom_del w
  · simpa [Tab.set, h, Tab.wf] using Tab.wfFrom_put h (Nat.zero_le k) w

theorem Tab.wf_upd {α : Type} [DecidableEq α] {d : α} {t : Tab α} (w : Tab.wf d t = true) (k : Nat) (f : α → α) :
    Tab.wf d (Tab.upd d t k f) = true := Tab.wf_set w k _

theorem Tab.wfFrom_mapV {α : Type} [DecidableEq α] {d : α} {f : Nat → α → α} :
    ∀ {t : Tab α} {lo : Nat}, Tab.wfFrom d lo t = true → Tab.wfFrom d lo (Tab.mapV d f t) = true
  | [], _, _ => rfl
  | (j, v) :: t, lo, w => by
    simp only [Tab.wfFrom, Bool.and_eq_true, decide_eq_true_eq] at w
    have h := Tab.wfFrom_mapV (f := f) w.2
    by_cases hd : f j v = d
    · simpa [Tab.mapV, hd] using Tab.wfFrom_mono (Nat.le_succ_of_le w.1.1) h
    · simp [Tab.mapV, hd, Tab.wfFrom, w.1.1, h]

/-- Changing every value keeps the canonical form. -/
theorem Tab.wf_mapV {α : Type} [DecidableEq α] {d : α} {t : Tab α} (w : Tab.wf d t = true) (f : Nat → α → α) :
    Tab.wf d (Tab.mapV d f t) = true := Tab.wfFrom_mapV w

theorem Tab.wfFrom_keep {α : Type} [DecidableEq α] {d : α} {p : Nat → Bool} :
    ∀ {t : Tab α} {lo : Nat}, Tab.wfFrom d lo t = true → Tab.wfFrom d lo (Tab.keep p t) = true
  | [], _, _ => rfl
  | (j, v) :: t, lo, w => by
    simp only [Tab.wfFrom, Bool.and_eq_true, decide_eq_true_eq] at w
    have h := Tab.wfFrom_keep (p := p) w.2
    by_cases hp : p j = true
    · simpa [Tab.keep, hp, Tab.wfFrom, w.1.1, w.1.2] using h
    · simpa [Tab.keep, hp] using Tab.wfFrom_mono (Nat.le_succ_of_le w.1.1) h

/-- Dropping entries keeps the canonical form. -/
theorem Tab.wf_keep {α : Type} [DecidableEq α] {d : α} {t : Tab α} (w : Tab.wf d t = true) (p : Nat → Bool) :
    Tab.wf d (Tab.keep p t) = true := Tab.wfFrom_keep w

theorem Tab.wf_nil {α : Type} [DecidableEq α] (d : α) : Tab.wf d ([] : Tab α) = true := rfl

/-- Writing a list of entries keeps the canonical form. -/
theorem Tab.wf_foldl {α β : Type} [DecidableEq α] {d : α} {f : Tab α → β → Tab α}
    (hf : ∀ t b, Tab.wf d t = true → Tab.wf d (f t b) = true) :
    ∀ (l : List β) {t : Tab α}, Tab.wf d t = true → Tab.wf d (l.foldl f t) = true
  | [], _, w => w
  | b :: l, t, w => Tab.wf_foldl hf l (hf t b w)

end Sys2Proof
end

