-- ==== Sys2Proof/Laws/Kept.lean ====
section
/-! SUPPORT. What every operation of the hub keeps, as one relation between the state before and after: the canonical form of
the tables, the burnt bits of OTP, the queue, what has been sent, and the count of free values drawn. The relation composes,
so that an operation's lemma follows from those of the operations it calls. -/
namespace Sys2Proof.Laws
open Sys2Proof Sys2Proof.Machine Sys2Proof.Safety

/-- What an operation keeps. -/
structure Kept (s t : State) : Prop where
  canon : Canon s → Canon t ∧ OtpLe s.lcs.otp t.lcs.otp
  queue : t.pending = s.pending
  sent  : s.out <:+ t.out
  drawn : s.free ≤ t.free

theorem OtpLe.refl (o : Otp) : OtpLe o o :=
  ⟨fun _ _ h => h, fun _ h => h, fun _ h => h, id, id, Nat.le_refl _⟩

theorem OtpLe.trans {a b c : Otp} (h : OtpLe a b) (k : OtpLe b c) : OtpLe a c :=
  ⟨fun i j x => k.1 i j (h.1 i j x), fun i x => k.2.1 i (h.2.1 i x), fun i x => k.2.2.1 i (h.2.2.1 i x),
   fun x => k.2.2.2.1 (h.2.2.2.1 x), fun x => k.2.2.2.2.1 (h.2.2.2.2.1 x), Nat.le_trans h.2.2.2.2.2 k.2.2.2.2.2⟩

theorem Kept.refl (s : State) : Kept s s := ⟨fun h => ⟨h, OtpLe.refl _⟩, rfl, List.suffix_refl _, Nat.le_refl _⟩

theorem Kept.trans {a b c : State} (h : Kept a b) (k : Kept b c) : Kept a c :=
  ⟨fun x => ⟨(k.canon (h.canon x).1).1, OtpLe.trans (h.canon x).2 (k.canon (h.canon x).1).2⟩, k.queue.trans h.queue,
   h.sent.trans k.sent, Nat.le_trans h.drawn k.drawn⟩

/-- A state built from another with the same queue: what has to be shown of it. -/
theorem Kept.mk' {r x : State} (h : Kept r x)
    {img clk parts fab xfes xlt mem noc sites home ports cols host vis sec lcs dbg pwr thm flt mgt trc prfUp prfMir prfPeer siteAck
      mbxH mbxF indH indF indMem regs free out}
    (c : Canon x → Canon ⟨img, clk, parts, fab, xfes, xlt, mem, noc, sites, home, ports, cols, host, vis, sec, lcs, dbg, pwr, thm, flt,
      mgt, trc, prfUp, prfMir, prfPeer, siteAck, mbxH, mbxF, indH, indF, indMem, regs, free, out, x.pending⟩ ∧ OtpLe x.lcs.otp lcs.otp)
    (o : x.out <:+ out) (f : x.free ≤ free) :
    Kept r ⟨img, clk, parts, fab, xfes, xlt, mem, noc, sites, home, ports, cols, host, vis, sec, lcs, dbg, pwr, thm, flt,
      mgt, trc, prfUp, prfMir, prfPeer, siteAck, mbxH, mbxF, indH, indF, indMem, regs, free, out, x.pending⟩ :=
  h.trans ⟨c, rfl, o, f⟩

/-- A state that differs in fields that the relation does not speak of. -/
theorem Kept.rest {r x : State} (h : Kept r x)
    {img clk xlt noc home host dbg pwr thm mgt trc prfUp prfMir prfPeer siteAck mbxH mbxF indH indF indMem regs
      fclk fclkNext ppr hppr due toZero leaving entropyOk epoch meas idX idY idKey spdm
      pcw transition status target deferred otpLater rollLater deferTo finished wipeRep
      stopped heartbeat pin modeRead thresh cause causeGrp causeBit escal} :
    Kept r ⟨img, clk, x.parts, ⟨x.fab.cells, x.fab.cols, x.fab.quads, fclk, fclkNext⟩, x.xfes, xlt,
      ⟨x.mem.bytes, x.mem.poison, x.mem.own, x.mem.banks, x.mem.chans, x.mem.stackTab, ppr, hppr, due, toZero, leaving⟩, noc, x.sites, home, x.ports,
      x.cols, host, x.vis, ⟨x.sec.seals, entropyOk, epoch, meas, idX, idY, idKey, spdm⟩,
      ⟨x.lcs.otp, pcw, transition, status, target, deferred, otpLater, rollLater, deferTo, finished, wipeRep⟩, dbg, pwr, thm,
      ⟨x.flt.groups, stopped, heartbeat, pin, modeRead, thresh, cause, causeGrp, causeBit, escal⟩, mgt, trc, prfUp, prfMir, prfPeer, siteAck, mbxH, mbxF, indH, indF, indMem, regs, x.free, x.out, x.pending⟩ :=
  h.trans ⟨fun c => ⟨c, OtpLe.refl _⟩, rfl, List.suffix_refl _, Nat.le_refl _⟩

/-- A change of memory that keeps its canonical form. -/
theorem Kept.mem {r x : State} (h : Kept r x)
    {img clk xlt noc home host dbg pwr thm mgt trc prfUp prfMir prfPeer siteAck mbxH mbxF indH indF indMem regs mem}
    (c : x.mem.wf → mem.wf) :
    Kept r ⟨img, clk, x.parts, x.fab, x.xfes, xlt, mem, noc, x.sites, home, x.ports, x.cols, host, x.vis, x.sec, x.lcs, dbg, pwr, thm, x.flt, mgt, trc, prfUp, prfMir, prfPeer, siteAck, mbxH, mbxF, indH, indF, indMem, regs, x.free, x.out, x.pending⟩ :=
  h.trans ⟨fun ⟨m, p, x1, si, po, co, v, ce, fc, q, se, o, gr⟩ => ⟨⟨c m, p, x1, si, po, co, v, ce, fc, q, se, o, gr⟩, OtpLe.refl _⟩, rfl, List.suffix_refl _, Nat.le_refl _⟩

/-- A change of the table `parts` that keeps its canonical form. -/
theorem Kept.parts {r x : State} (h : Kept r x)
    {img clk xlt noc home host dbg pwr thm mgt trc prfUp prfMir prfPeer siteAck mbxH mbxF indH indF indMem regs parts}
    (c : Tab.wf {} x.parts = true → Tab.wf {} parts = true) :
    Kept r ⟨img, clk, parts, x.fab, x.xfes, xlt, x.mem, noc, x.sites, home, x.ports, x.cols, host, x.vis, x.sec, x.lcs, dbg, pwr, thm, x.flt, mgt, trc, prfUp, prfMir, prfPeer, siteAck, mbxH, mbxF, indH, indF, indMem, regs, x.free, x.out, x.pending⟩ :=
  h.trans ⟨fun ⟨m, p, x1, si, po, co, v, ce, fc, q, se, o, gr⟩ => ⟨⟨m, c p, x1, si, po, co, v, ce, fc, q, se, o, gr⟩, OtpLe.refl _⟩, rfl, List.suffix_refl _, Nat.le_refl _⟩

/-- A change of the table `xfes` that keeps its canonical form. -/
theorem Kept.xfes {r x : State} (h : Kept r x)
    {img clk xlt noc home host dbg pwr thm mgt trc prfUp prfMir prfPeer siteAck mbxH mbxF indH indF indMem regs xfes}
    (c : Tab.wf {} x.xfes = true → Tab.wf {} xfes = true) :
    Kept r ⟨img, clk, x.parts, x.fab, xfes, xlt, x.mem, noc, x.sites, home, x.ports, x.cols, host, x.vis, x.sec, x.lcs, dbg, pwr, thm, x.flt, mgt, trc, prfUp, prfMir, prfPeer, siteAck, mbxH, mbxF, indH, indF, indMem, regs, x.free, x.out, x.pending⟩ :=
  h.trans ⟨fun ⟨m, p, x1, si, po, co, v, ce, fc, q, se, o, gr⟩ => ⟨⟨m, p, c x1, si, po, co, v, ce, fc, q, se, o, gr⟩, OtpLe.refl _⟩, rfl, List.suffix_refl _, Nat.le_refl _⟩

/-- A change of the table `sites` that keeps its canonical form. -/
theorem Kept.sites {r x : State} (h : Kept r x)
    {img clk xlt noc home host dbg pwr thm mgt trc prfUp prfMir prfPeer siteAck mbxH mbxF indH indF indMem regs sites}
    (c : Tab.wf {} x.sites = true → Tab.wf {} sites = true) :
    Kept r ⟨img, clk, x.parts, x.fab, x.xfes, xlt, x.mem, noc, sites, home, x.ports, x.cols, host, x.vis, x.sec, x.lcs, dbg, pwr, thm, x.flt, mgt, trc, prfUp, prfMir, prfPeer, siteAck, mbxH, mbxF, indH, indF, indMem, regs, x.free, x.out, x.pending⟩ :=
  h.trans ⟨fun ⟨m, p, x1, si, po, co, v, ce, fc, q, se, o, gr⟩ => ⟨⟨m, p, x1, c si, po, co, v, ce, fc, q, se, o, gr⟩, OtpLe.refl _⟩, rfl, List.suffix_refl _, Nat.le_refl _⟩

/-- A change of the table `ports` that keeps its canonical form. -/
theorem Kept.ports {r x : State} (h : Kept r x)
    {img clk xlt noc home host dbg pwr thm mgt trc prfUp prfMir prfPeer siteAck mbxH mbxF indH indF indMem regs ports}
    (c : Tab.wf {} x.ports = true → Tab.wf {} ports = true) :
    Kept r ⟨img, clk, x.parts, x.fab, x.xfes, xlt, x.mem, noc, x.sites, home, ports, x.cols, host, x.vis, x.sec, x.lcs, dbg, pwr, thm, x.flt, mgt, trc, prfUp, prfMir, prfPeer, siteAck, mbxH, mbxF, indH, indF, indMem, regs, x.free, x.out, x.pending⟩ :=
  h.trans ⟨fun ⟨m, p, x1, si, po, co, v, ce, fc, q, se, o, gr⟩ => ⟨⟨m, p, x1, si, c po, co, v, ce, fc, q, se, o, gr⟩, OtpLe.refl _⟩, rfl, List.suffix_refl _, Nat.le_refl _⟩

/-- A change of the table `cols` that keeps its canonical form. -/
theorem Kept.cols {r x : State} (h : Kept r x)
    {img clk xlt noc home host dbg pwr thm mgt trc prfUp prfMir prfPeer siteAck mbxH mbxF indH indF indMem regs cols}
    (c : Tab.wf {} x.cols = true → Tab.wf {} cols = true) :
    Kept r ⟨img, clk, x.parts, x.fab, x.xfes, xlt, x.mem, noc, x.sites, home, x.ports, cols, host, x.vis, x.sec, x.lcs, dbg, pwr, thm, x.flt, mgt, trc, prfUp, prfMir, prfPeer, siteAck, mbxH, mbxF, indH, indF, indMem, regs, x.free, x.out, x.pending⟩ :=
  h.trans ⟨fun ⟨m, p, x1, si, po, co, v, ce, fc, q, se, o, gr⟩ => ⟨⟨m, p, x1, si, po, c co, v, ce, fc, q, se, o, gr⟩, OtpLe.refl _⟩, rfl, List.suffix_refl _, Nat.le_refl _⟩

/-- A change of the table `vis` that keeps its canonical form. -/
theorem Kept.vis {r x : State} (h : Kept r x)
    {img clk xlt noc home host dbg pwr thm mgt trc prfUp prfMir prfPeer siteAck mbxH mbxF indH indF indMem regs vis}
    (c : Tab.wf {} x.vis = true → Tab.wf {} vis = true) :
    Kept r ⟨img, clk, x.parts, x.fab, x.xfes, xlt, x.mem, noc, x.sites, home, x.ports, x.cols, host, vis, x.sec, x.lcs, dbg, pwr, thm, x.flt, mgt, trc, prfUp, prfMir, prfPeer, siteAck, mbxH, mbxF, indH, indF, indMem, regs, x.free, x.out, x.pending⟩ :=
  h.trans ⟨fun ⟨m, p, x1, si, po, co, v, ce, fc, q, se, o, gr⟩ => ⟨⟨m, p, x1, si, po, co, c v, ce, fc, q, se, o, gr⟩, OtpLe.refl _⟩, rfl, List.suffix_refl _, Nat.le_refl _⟩

/-- A change of the fabric that keeps the canonical form of its tables. -/
theorem Kept.fab {r x : State} (h : Kept r x)
    {img clk xlt noc home host dbg pwr thm mgt trc prfUp prfMir prfPeer siteAck mbxH mbxF indH indF indMem regs fab}
    (c : Tab.wf {} x.fab.cells = true → Tab.wf {} fab.cells = true) (d : Tab.wf {} x.fab.cols = true → Tab.wf {} fab.cols = true)
    (e : Tab.wf {} x.fab.quads = true → Tab.wf {} fab.quads = true) :
    Kept r ⟨img, clk, x.parts, fab, x.xfes, xlt, x.mem, noc, x.sites, home, x.ports, x.cols, host, x.vis, x.sec, x.lcs, dbg, pwr, thm, x.flt, mgt, trc, prfUp, prfMir, prfPeer, siteAck, mbxH, mbxF, indH, indF, indMem, regs, x.free, x.out, x.pending⟩ :=
  h.trans ⟨fun ⟨m, p, x1, si, po, co, v, ce, fc, q, se, o, gr⟩ => ⟨⟨m, p, x1, si, po, co, v, c ce, d fc, e q, se, o, gr⟩, OtpLe.refl _⟩, rfl, List.suffix_refl _, Nat.le_refl _⟩

/-- A change of the security island that keeps the canonical form of its key slots. -/
theorem Kept.sec {r x : State} (h : Kept r x)
    {img clk xlt noc home host dbg pwr thm mgt trc prfUp prfMir prfPeer siteAck mbxH mbxF indH indF indMem regs sec}
    (c : Tab.wf {} x.sec.seals = true → Tab.wf {} sec.seals = true) :
    Kept r ⟨img, clk, x.parts, x.fab, x.xfes, xlt, x.mem, noc, x.sites, home, x.ports, x.cols, host, x.vis, sec, x.lcs, dbg, pwr, thm, x.flt, mgt, trc, prfUp, prfMir, prfPeer, siteAck, mbxH, mbxF, indH, indF, indMem, regs, x.free, x.out, x.pending⟩ :=
  h.trans ⟨fun ⟨m, p, x1, si, po, co, v, ce, fc, q, se, o, gr⟩ => ⟨⟨m, p, x1, si, po, co, v, ce, fc, q, c se, o, gr⟩, OtpLe.refl _⟩, rfl, List.suffix_refl _, Nat.le_refl _⟩

/-- A change of the life-cycle block that leaves OTP as it is. -/
theorem Kept.lcs {r x : State} (h : Kept r x)
    {img clk xlt noc home host dbg pwr thm mgt trc prfUp prfMir prfPeer siteAck mbxH mbxF indH indF indMem regs lcs}
    (e : lcs.otp = x.lcs.otp) :
    Kept r ⟨img, clk, x.parts, x.fab, x.xfes, xlt, x.mem, noc, x.sites, home, x.ports, x.cols, host, x.vis, x.sec, lcs, dbg, pwr, thm, x.flt, mgt, trc, prfUp, prfMir, prfPeer, siteAck, mbxH, mbxF, indH, indF, indMem, regs, x.free, x.out, x.pending⟩ :=
  h.trans ⟨fun ⟨m, p, x1, si, po, co, v, ce, fc, q, se, o, gr⟩ => ⟨⟨m, p, x1, si, po, co, v, ce, fc, q, se, e ▸ o, gr⟩, e ▸ OtpLe.refl _⟩, rfl,
    List.suffix_refl _, Nat.le_refl _⟩

/-- A burn of OTP. -/
theorem Kept.burn {r x : State} (h : Kept r x)
    {img clk xlt noc home host dbg pwr thm mgt trc prfUp prfMir prfPeer siteAck mbxH mbxF indH indF indMem regs lcs
      entropyOk epoch meas idX idY idKey spdm}
    (c : Tab.wf 0 x.lcs.otp.fields = true → Tab.wf 0 lcs.otp.fields = true ∧ OtpLe x.lcs.otp lcs.otp) :
    Kept r ⟨img, clk, x.parts, x.fab, x.xfes, xlt, x.mem, noc, x.sites, home, x.ports, x.cols, host, x.vis,
      ⟨x.sec.seals, entropyOk, epoch, meas, idX, idY, idKey, spdm⟩, lcs, dbg, pwr, thm, x.flt,
      mgt, trc, prfUp, prfMir, prfPeer, siteAck, mbxH, mbxF, indH, indF, indMem, regs, x.free, x.out, x.pending⟩ :=
  h.trans ⟨fun ⟨m, p, x1, si, po, co, v, ce, fc, q, se, o, gr⟩ => ⟨⟨m, p, x1, si, po, co, v, ce, fc, q, se, (c o).1, gr⟩, (c o).2⟩, rfl,
    List.suffix_refl _, Nat.le_refl _⟩

/-- A free value is drawn. -/
theorem Kept.free_ {r x : State} (h : Kept r x)
    {img clk xlt noc home host dbg pwr thm mgt trc prfUp prfMir prfPeer siteAck mbxH mbxF indH indF indMem regs free}
    (c : x.free ≤ free) :
    Kept r ⟨img, clk, x.parts, x.fab, x.xfes, xlt, x.mem, noc, x.sites, home, x.ports, x.cols, host, x.vis, x.sec, x.lcs, dbg, pwr, thm, x.flt, mgt, trc, prfUp, prfMir, prfPeer, siteAck, mbxH, mbxF, indH, indF, indMem, regs, free, x.out, x.pending⟩ :=
  h.trans ⟨fun c => ⟨c, OtpLe.refl _⟩, rfl, List.suffix_refl _, c⟩

/-- Something is sent. -/
theorem Kept.out_ {r x : State} (h : Kept r x)
    {img clk xlt noc home host dbg pwr thm mgt trc prfUp prfMir prfPeer siteAck mbxH mbxF indH indF indMem regs out}
    (c : x.out <:+ out) :
    Kept r ⟨img, clk, x.parts, x.fab, x.xfes, xlt, x.mem, noc, x.sites, home, x.ports, x.cols, host, x.vis, x.sec, x.lcs, dbg, pwr, thm, x.flt, mgt, trc, prfUp, prfMir, prfPeer, siteAck, mbxH, mbxF, indH, indF, indMem, regs, x.free, out, x.pending⟩ :=
  h.trans ⟨fun c => ⟨c, OtpLe.refl _⟩, rfl, c, Nat.le_refl _⟩

theorem Kept.parts_map {r x : State} (h : Kept r x) {g}
    {img clk xlt noc home host dbg pwr thm mgt trc prfUp prfMir prfPeer siteAck mbxH mbxF indH indF indMem regs} :
    Kept r ⟨img, clk, Tab.mapV {} g x.parts, x.fab, x.xfes, xlt, x.mem, noc, x.sites, home, x.ports, x.cols, host, x.vis, x.sec, x.lcs, dbg, pwr, thm, x.flt, mgt, trc, prfUp, prfMir, prfPeer, siteAck, mbxH, mbxF, indH, indF, indMem, regs, x.free, x.out, x.pending⟩ :=
  h.parts fun w => Tab.wf_mapV w _

theorem Kept.xfes_map {r x : State} (h : Kept r x) {g}
    {img clk xlt noc home host dbg pwr thm mgt trc prfUp prfMir prfPeer siteAck mbxH mbxF indH indF indMem regs} :
    Kept r ⟨img, clk, x.parts, x.fab, Tab.mapV {} g x.xfes, xlt, x.mem, noc, x.sites, home, x.ports, x.cols, host, x.vis, x.sec, x.lcs, dbg, pwr, thm, x.flt, mgt, trc, prfUp, prfMir, prfPeer, siteAck, mbxH, mbxF, indH, indF, indMem, regs, x.free, x.out, x.pending⟩ :=
  h.xfes fun w => Tab.wf_mapV w _

theorem Kept.sites_map {r x : State} (h : Kept r x) {g}
    {img clk xlt noc home host dbg pwr thm mgt trc prfUp prfMir prfPeer siteAck mbxH mbxF indH indF indMem regs} :
    Kept r ⟨img, clk, x.parts, x.fab, x.xfes, xlt, x.mem, noc, Tab.mapV {} g x.sites, home, x.ports, x.cols, host, x.vis, x.sec, x.lcs, dbg, pwr, thm, x.flt, mgt, trc, prfUp, prfMir, prfPeer, siteAck, mbxH, mbxF, indH, indF, indMem, regs, x.free, x.out, x.pending⟩ :=
  h.sites fun w => Tab.wf_mapV w _

theorem Kept.ports_map {r x : State} (h : Kept r x) {g}
    {img clk xlt noc home host dbg pwr thm mgt trc prfUp prfMir prfPeer siteAck mbxH mbxF indH indF indMem regs} :
    Kept r ⟨img, clk, x.parts, x.fab, x.xfes, xlt, x.mem, noc, x.sites, home, Tab.mapV {} g x.ports, x.cols, host, x.vis, x.sec, x.lcs, dbg, pwr, thm, x.flt, mgt, trc, prfUp, prfMir, prfPeer, siteAck, mbxH, mbxF, indH, indF, indMem, regs, x.free, x.out, x.pending⟩ :=
  h.ports fun w => Tab.wf_mapV w _

theorem Kept.cols_map {r x : State} (h : Kept r x) {g}
    {img clk xlt noc home host dbg pwr thm mgt trc prfUp prfMir prfPeer siteAck mbxH mbxF indH indF indMem regs} :
    Kept r ⟨img, clk, x.parts, x.fab, x.xfes, xlt, x.mem, noc, x.sites, home, x.ports, Tab.mapV {} g x.cols, host, x.vis, x.sec, x.lcs, dbg, pwr, thm, x.flt, mgt, trc, prfUp, prfMir, prfPeer, siteAck, mbxH, mbxF, indH, indF, indMem, regs, x.free, x.out, x.pending⟩ :=
  h.cols fun w => Tab.wf_mapV w _

theorem Kept.vis_map {r x : State} (h : Kept r x) {g}
    {img clk xlt noc home host dbg pwr thm mgt trc prfUp prfMir prfPeer siteAck mbxH mbxF indH indF indMem regs} :
    Kept r ⟨img, clk, x.parts, x.fab, x.xfes, xlt, x.mem, noc, x.sites, home, x.ports, x.cols, host, Tab.mapV {} g x.vis, x.sec, x.lcs, dbg, pwr, thm, x.flt, mgt, trc, prfUp, prfMir, prfPeer, siteAck, mbxH, mbxF, indH, indF, indMem, regs, x.free, x.out, x.pending⟩ :=
  h.vis fun w => Tab.wf_mapV w _

/-- A change of the fault block that keeps the groups' keys rising. -/
theorem Kept.groups {r x : State} (h : Kept r x)
    {img clk xlt noc home host dbg pwr thm mgt trc prfUp prfMir prfPeer siteAck mbxH mbxF indH indF indMem regs flt}
    (c : Tab.rises x.flt.groups = true → Tab.rises flt.groups = true) :
    Kept r ⟨img, clk, x.parts, x.fab, x.xfes, xlt, x.mem, noc, x.sites, home, x.ports, x.cols, host, x.vis, x.sec, x.lcs, dbg, pwr, thm, flt,
      mgt, trc, prfUp, prfMir, prfPeer, siteAck, mbxH, mbxF, indH, indF, indMem, regs, x.free, x.out, x.pending⟩ :=
  h.trans ⟨fun ⟨m, p, x1, si, po, co, v, ce, fc, q, se, o, gr⟩ => ⟨⟨m, p, x1, si, po, co, v, ce, fc, q, se, o, c gr⟩, OtpLe.refl _⟩, rfl,
    List.suffix_refl _, Nat.le_refl _⟩

theorem Kept.ite {r a b : State} {p : Prop} [Decidable p] (ha : Kept r a) (hb : Kept r b) : Kept r (if p then a else b) := by
  split <;> assumption

theorem Kept.foldl {α : Type} {f : State → α → State} {r : State} (hf : ∀ x a, Kept r x → Kept r (f x a)) :
    ∀ {l : List α} {s : State}, Kept r s → Kept r (l.foldl f s)
  | [], _, h => h
  | a :: l, _, h => Kept.foldl hf (l := l) (hf _ a h)

theorem Kept.foldl2 {α β : Type} {f : β × State → α → β × State} {r : State} (hf : ∀ x a, Kept r x.2 → Kept r (f x a).2) :
    ∀ {l : List α} {x : β × State}, Kept r x.2 → Kept r (l.foldl f x).2
  | [], _, h => h
  | a :: l, _, h => Kept.foldl2 hf (l := l) (hf _ a h)

theorem Kept.foldl3 {α β γ : Type} {f : β × γ × State → α → β × γ × State} {r : State}
    (hf : ∀ x a, Kept r x.2.2 → Kept r (f x a).2.2) :
    ∀ {l : List α} {x : β × γ × State}, Kept r x.2.2 → Kept r (l.foldl f x).2.2
  | [], _, h => h
  | a :: l, _, h => Kept.foldl3 hf (l := l) (hf _ a h)

theorem Kept.foldl4 {α β γ δ : Type} {f : β × γ × δ × State → α → β × γ × δ × State} {r : State}
    (hf : ∀ x a, Kept r x.2.2.2 → Kept r (f x a).2.2.2) :
    ∀ {l : List α} {x : β × γ × δ × State}, Kept r x.2.2.2 → Kept r (l.foldl f x).2.2.2
  | [], _, h => h
  | a :: l, _, h => Kept.foldl4 hf (l := l) (hf _ a h)

theorem Kept.snd {α : Type} {r t : State} {p : α × State} {a : α} (e : p = (a, t)) (h : Kept r p.2) : Kept r t := by
  subst e; exact h

/-- The relation for an operation that may find nothing to do. -/
structure KeptO (r : State) (o : Option State) : Prop where
  out : ∀ t, o = Option.some t → Kept r t

theorem KeptO.none {r : State} : KeptO r Option.none := ⟨fun _ e => by cases e⟩
theorem KeptO.some {r t : State} (h : Kept r t) : KeptO r (Option.some t) := ⟨fun _ e => by cases e; exact h⟩
theorem KeptO.ite {r : State} {a b : Option State} {p : Prop} [Decidable p] (ha : KeptO r a) (hb : KeptO r b) :
    KeptO r (if p then a else b) := by
  split <;> assumption
theorem Kept.opt {r t : State} {o : Option State} (e : o = Option.some t) (h : KeptO r o) : Kept r t := h.out t e
theorem Kept.getD {r t : State} {o : Option State} (h : KeptO r o) (k : Kept r t) : Kept r (o.getD t) := by
  cases o with
  | none => exact k
  | some x => exact h.out x rfl

/-- The relation for an operation that answers something beside the state, or nothing. -/
structure KeptP {α : Type} (r : State) (o : Option (α × State)) : Prop where
  out : ∀ a t, o = Option.some (a, t) → Kept r t

theorem KeptP.none {α : Type} {r : State} : KeptP (α := α) r Option.none := ⟨fun _ _ e => by cases e⟩
theorem KeptP.some {α : Type} {r t : State} {a : α} (h : Kept r t) : KeptP r (Option.some (a, t)) := ⟨fun _ _ e => by cases e; exact h⟩
theorem KeptP.ite {α : Type} {r : State} {a b : Option (α × State)} {p : Prop} [Decidable p] (ha : KeptP r a) (hb : KeptP r b) :
    KeptP r (if p then a else b) := by
  split <;> assumption
theorem Kept.optP {α : Type} {r t : State} {a : α} {o : Option (α × State)} (e : o = Option.some (a, t)) (h : KeptP r o) : Kept r t :=
  h.out a t e

theorem KeptO.map {r : State} {o : Option State} {f : State → State} (h : KeptO r o) (hf : ∀ x, Kept r x → Kept r (f x)) :
    KeptO r (o.map f) := by
  cases o with
  | none => exact KeptO.none
  | some x => exact KeptO.some (hf x (h.out x rfl))

theorem KeptP.map {α β : Type} {r : State} {o : Option (α × State)} {f : α × State → β × State} (h : KeptP r o)
    (hf : ∀ x, Kept r x.2 → Kept r (f x).2) : KeptP r (o.map f) := by
  cases o with
  | none => exact KeptP.none
  | some x => exact KeptP.some (hf x (h.out x.1 x.2 rfl))

theorem KeptP.mapV {α β : Type} {r : State} {o : Option α} {f : α → β × State} (hf : ∀ x, Kept r (f x).2) : KeptP r (o.map f) := by
  cases o with
  | none => exact KeptP.none
  | some x => exact KeptP.some (hf x)

theorem KeptP.foldl {α β : Type} {r : State} {f : Option (β × State) → α → Option (β × State)}
    (hf : ∀ o a, KeptP r o → KeptP r (f o a)) : ∀ {l : List α} {o : Option (β × State)}, KeptP r o → KeptP r (l.foldl f o)
  | [], _, h => h
  | a :: l, _, h => KeptP.foldl hf (l := l) (hf _ a h)

theorem Kept.ofP {α : Type} {r t : State} {a : α} (h : KeptP r (Option.some (a, t))) : Kept r t := h.out a t rfl
theorem Kept.ofO {r t : State} (h : KeptO r (Option.some t)) : Kept r t := h.out t rfl

/-- The relation for a list of conditional operations. -/
structure KeptL (r : State) (l : List (Bool × (State → State))) : Prop where
  out : ∀ c ∈ l, ∀ x, Kept r x → Kept r (c.2 x)

theorem KeptL.nil {r : State} : KeptL r [] := ⟨fun _ h => by cases h⟩
theorem KeptL.cons {r : State} {b : Bool} {f : State → State} {l : List (Bool × (State → State))} (h : ∀ x, Kept r x → Kept r (f x))
    (k : KeptL r l) : KeptL r ((b, f) :: l) := ⟨fun c m => by
  cases m with
  | head => exact h
  | tail _ m => exact k.out c m⟩

theorem KeptL.run {r : State} : ∀ {l : List (Bool × (State → State))} {s : State}, KeptL r l → Kept r s →
    Kept r (l.foldl (fun s c => if c.1 then c.2 s else s) s)
  | [], _, _, h => h
  | c :: l, s, k, h => KeptL.run (l := l) ⟨fun d m => k.out d (List.mem_cons_of_mem _ m)⟩
      (Kept.ite (k.out c List.mem_cons_self s h) h)

end Sys2Proof.Laws
end

