-- ==== Sys2Proof/Laws/KeptOps.lean ====
section
/-! SUPPORT. What the operations of `Machine/Ops.lean` keep: one lemma each. -/
namespace Sys2Proof.Laws
open Sys2Proof Sys2Proof.Machine Sys2Proof.Safety
set_option linter.unreachableTactic false
set_option linter.unusedTactic false

theorem kept_drawFree {r0 : State} {w : Nat} {s : State} (hk : Kept r0 s) :
    Kept r0 (State.drawFree s w).2 := by
  exact hk.free_ (Nat.le_succ _)

theorem kept_spend {r0 : State} {s : State} (hk : Kept r0 s) :
    Kept r0 (State.spend s) := by
  exact hk.free_ (Nat.le_succ _)

theorem kept_emit {r0 : State} {e : Emit} {s : State} (hk : Kept r0 s) :
    Kept r0 (State.emit s e) := by
  exact hk.out_ (List.suffix_cons _ _)

theorem kept_emits {r0 : State} {es : List Emit} {s : State} (hk : Kept r0 s) :
    Kept r0 (State.emits s es) := by
  exact Kept.foldl (fun _ _ k => kept_emit k) hk

theorem kept_writeLog {r0 : State} {src sev cls ev a0 a1 : Nat} {s : State} (hk : Kept r0 s) :
    Kept r0 (writeLog src sev cls ev a0 a1 s) := by
  unfold writeLog
  repeat' first | intro _ | (with_reducible first | assumption | apply Kept.ite | fail_if_no_progress apply Kept.rest) | dsimp only | split

theorem kept_setPart {r0 : State} {p : Nat} {x : Part} {s : State} (hk : Kept r0 s) :
    Kept r0 (State.setPart s p x) := by
  exact hk.parts fun w => Tab.wf_set w _ _

theorem kept_modPart {r0 : State} {p : Nat} {f : Part → Part} {s : State} (hk : Kept r0 s) :
    Kept r0 (State.modPart s p f) := by
  unfold State.modPart
  repeat' first | intro _ | (with_reducible first | assumption | apply kept_setPart | apply Kept.ite | fail_if_no_progress apply Kept.rest) | dsimp only | split

theorem kept_setCell {r0 : State} {n : Nat} {x : Cell} {s : State} (hk : Kept r0 s) :
    Kept r0 (State.setCell s n x) := by
  exact hk.fab (fun w => Tab.wf_set w _ _) (fun w => w) (fun w => w)

theorem kept_setCol {r0 : State} {k : Nat} {x : Column} {s : State} (hk : Kept r0 s) :
    Kept r0 (State.setCol s k x) := by
  exact hk.fab (fun w => w) (fun w => Tab.wf_set w _ _) (fun w => w)

theorem kept_setQuad {r0 : State} {q : Nat} {x : Quadrant} {s : State} (hk : Kept r0 s) :
    Kept r0 (State.setQuad s q x) := by
  exact hk.fab (fun w => w) (fun w => w) (fun w => Tab.wf_set w _ _)

theorem kept_setXfe {r0 : State} {e : Nat} {x : Xfe} {s : State} (hk : Kept r0 s) :
    Kept r0 (State.setXfe s e x) := by
  exact hk.xfes fun w => Tab.wf_set w _ _

theorem kept_setBank {r0 : State} {b : Nat} {x : Bank} {s : State} (hk : Kept r0 s) :
    Kept r0 (State.setBank s b x) := by
  exact hk.mem fun ⟨a, b, c, d, e, f⟩ => ⟨a, b, c, Tab.wf_set d _ _, e, f⟩

theorem kept_setChan {r0 : State} {c : Nat} {x : Chan} {s : State} (hk : Kept r0 s) :
    Kept r0 (State.setChan s c x) := by
  exact hk.mem fun ⟨a, b, c, d, e, f⟩ => ⟨a, b, c, d, Tab.wf_set e _ _, f⟩

theorem kept_setStack {r0 : State} {m : Nat} {x : Stack} {s : State} (hk : Kept r0 s) :
    Kept r0 (State.setStack s m x) := by
  exact hk.mem fun ⟨a, b, c, d, e, f⟩ => ⟨a, b, c, d, e, Tab.wf_set f _ _⟩

theorem kept_setGranule {r0 : State} {g : Nat} {x : Granule} {s : State} (hk : Kept r0 s) :
    Kept r0 (State.setGranule s g x) := by
  exact hk.mem fun ⟨a, b, c, d, e, f⟩ => ⟨a, b, Tab.wf_set c _ _, d, e, f⟩

theorem kept_setSite {r0 : State} {n : Nat} {x : Site} {s : State} (hk : Kept r0 s) :
    Kept r0 (State.setSite s n x) := by
  exact hk.sites fun w => Tab.wf_set w _ _

theorem kept_modSite {r0 : State} {n : Nat} {f : Site → Site} {s : State} (hk : Kept r0 s) :
    Kept r0 (State.modSite s n f) := by
  unfold State.modSite
  repeat' first | intro _ | (with_reducible first | assumption | apply kept_setSite | apply Kept.ite | fail_if_no_progress apply Kept.rest) | dsimp only | split

theorem kept_setPort {r0 : State} {n : Nat} {x : Port} {s : State} (hk : Kept r0 s) :
    Kept r0 (State.setPort s n x) := by
  exact hk.ports fun w => Tab.wf_set w _ _

theorem kept_setCunit {r0 : State} {c : Nat} {x : Col} {s : State} (hk : Kept r0 s) :
    Kept r0 (State.setCunit s c x) := by
  exact hk.cols fun w => Tab.wf_set w _ _

theorem kept_setVi {r0 : State} {v : Nat} {x : Vi} {s : State} (hk : Kept r0 s) :
    Kept r0 (State.setVi s v x) := by
  exact hk.vis fun w => Tab.wf_set w _ _

theorem kept_modVi {r0 : State} {v : Nat} {f : Vi → Vi} {s : State} (hk : Kept r0 s) :
    Kept r0 (State.modVi s v f) := by
  unfold State.modVi
  repeat' first | intro _ | (with_reducible first | assumption | apply kept_setVi | apply Kept.ite | fail_if_no_progress apply Kept.rest) | dsimp only | split

theorem kept_setSeal {r0 : State} {v : Nat} {x : Seal} {s : State} (hk : Kept r0 s) :
    Kept r0 (State.setSeal s v x) := by
  exact hk.sec fun w => Tab.wf_set w _ _

theorem kept_setGrp {r0 : State} {g : Nat} {x : FGroup} {s : State} (hk : Kept r0 s) :
    Kept r0 (State.setGrp s g x) := by
  exact hk.groups fun w => Tab.rises_set w _ _

theorem kept_setTile {r0 : State} {t : Nat} {x : Tile} {s : State} (hk : Kept r0 s) :
    Kept r0 (State.setTile s t x) := by
  unfold State.setTile
  repeat' first | intro _ | (with_reducible first | assumption | apply Kept.ite | fail_if_no_progress apply Kept.rest) | dsimp only | split

theorem kept_setRegion {r0 : State} {r : Nat} {x : Region} {s : State} (hk : Kept r0 s) :
    Kept r0 (State.setRegion s r x) := by
  unfold State.setRegion
  repeat' first | intro _ | (with_reducible first | assumption | apply Kept.ite | fail_if_no_progress apply Kept.rest) | dsimp only | split

theorem kept_setQport {r0 : State} {port part : Nat} {x : QosPort} {s : State} (hk : Kept r0 s) :
    Kept r0 (State.setQport s port part x) := by
  unfold State.setQport
  repeat' first | intro _ | (with_reducible first | assumption | apply Kept.ite | fail_if_no_progress apply Kept.rest) | dsimp only | split

theorem kept_setQpart {r0 : State} {p : Nat} {x : QosPart} {s : State} (hk : Kept r0 s) :
    Kept r0 (State.setQpart s p x) := by
  unfold State.setQpart
  repeat' first | intro _ | (with_reducible first | assumption | apply Kept.ite | fail_if_no_progress apply Kept.rest) | dsimp only | split

theorem kept_setReg {r0 : State} {addr : Nat} {d v : Word} {s : State} (hk : Kept r0 s) :
    Kept r0 (State.setReg s addr d v) := by
  unfold State.setReg
  repeat' first | intro _ | (with_reducible first | assumption | apply Kept.ite | fail_if_no_progress apply Kept.rest) | dsimp only | split

theorem kept_traceAt {r0 : State} {point : Nat} {part : Option Nat} {s : State} (hk : Kept r0 s) :
    Kept r0 (traceAt point part s) := by
  unfold traceAt
  repeat' first | intro _ | (with_reducible first | assumption | apply Kept.ite | apply Kept.free_ (c := Nat.le_succ _) | fail_if_no_progress apply Kept.rest) | dsimp only | split

theorem kept_geljaTo {r0 : State} {n op : Nat} {m : GMsg} {s : State} (hk : Kept r0 s) :
    Kept r0 (geljaTo n op m s) := by
  unfold geljaTo
  repeat' first | intro _ | (with_reducible first | assumption | apply kept_emit | apply Kept.ite | fail_if_no_progress apply Kept.rest) | dsimp only | split

theorem kept_sendHold {r0 : State} {p floor reason : Nat} {s : State} (hk : Kept r0 s) :
    Kept r0 (sendHold p floor reason s) := by
  unfold sendHold
  repeat' first | intro _ | (with_reducible first | assumption | apply kept_geljaTo | apply Kept.ite | apply Kept.foldl | apply Kept.foldl2 | apply Kept.foldl3 | fail_if_no_progress apply Kept.rest) | dsimp only | split

theorem kept_stateInts {r0 : State} {p : Nat} {s : State} (hk : Kept r0 s) :
    Kept r0 (stateInts p s) := by
  unfold stateInts
  repeat' first | intro _ | (with_reducible first | assumption | apply kept_modVi | apply Kept.ite | apply Kept.foldl | apply Kept.foldl2 | apply Kept.foldl3 | fail_if_no_progress apply Kept.rest) | dsimp only | split

theorem kept_setPState {r0 : State} {p : Nat} {st : PState} {h : Hold} {s : State} (hk : Kept r0 s) :
    Kept r0 (setPState p st h s) := by
  unfold setPState
  repeat' first | intro _ | (with_reducible first | assumption | apply kept_modPart | apply kept_sendHold | apply kept_stateInts | apply Kept.ite | fail_if_no_progress apply Kept.rest) | dsimp only | split

theorem kept_setDomain {r0 : State} {n : Nat} {on : Bool} {s : State} (hk : Kept r0 s) :
    Kept r0 (setDomain n on s) := by
  unfold setDomain
  repeat' first | intro _ | (with_reducible first | assumption | apply Kept.ite | fail_if_no_progress apply Kept.rest) | dsimp only | split

theorem kept_markFlag {r0 : State} {p bit : Nat} {s : State} (hk : Kept r0 s) :
    Kept r0 (markFlag p bit s) := by
  unfold markFlag
  repeat' first | intro _ | (with_reducible first | assumption | apply kept_modPart | apply Kept.ite | fail_if_no_progress apply Kept.rest) | dsimp only | split

theorem kept_modReq {r0 : State} {tag : Nat} {f : Req → Req} {s : State} (hk : Kept r0 s) :
    Kept r0 (State.modReq s tag f) := by
  unfold State.modReq
  repeat' first | intro _ | (with_reducible first | assumption | apply Kept.ite | fail_if_no_progress apply Kept.rest) | dsimp only | split

theorem kept_dropReq {r0 : State} {tag : Nat} {s : State} (hk : Kept r0 s) :
    Kept r0 (State.dropReq s tag) := by
  unfold State.dropReq
  repeat' first | intro _ | (with_reducible first | assumption | apply Kept.ite | fail_if_no_progress apply Kept.rest) | dsimp only | split

theorem kept_setMeas {r0 : State} {idx : Nat} {v : List Byte} {s : State} (hk : Kept r0 s) :
    Kept r0 (setMeas idx v s) := by
  unfold setMeas
  repeat' first | intro _ | (with_reducible first | assumption | apply kept_modVi | apply kept_setSeal | apply Kept.ite | apply Kept.foldl | apply Kept.foldl2 | apply Kept.foldl3 | fail_if_no_progress apply Kept.rest) | dsimp only | split

end Sys2Proof.Laws
end

