-- ==== Sys2Proof/Laws/Mem.lean ====
section
/-! SUPPORT. Laws of device memory: every operation keeps the canonical form, a byte reads what was last written to it, and a
write leaves every other byte alone. -/
namespace Sys2Proof.Machine
open Sys2Proof

theorem Mem.wf_put {m : Mem} (w : m.wf) (a : Nat) (b : Byte) : (m.put a b).wf :=
  ⟨Tab.wf_set w.1 a b, w.2⟩

theorem Mem.wf_mark {m : Mem} (w : m.wf) (l : Nat) (p : Bool) : (m.mark l p).wf :=
  ⟨w.1, Tab.wf_set w.2.1 l p, w.2.2⟩

theorem Mem.wf_write : ∀ {m : Mem} (_ : m.wf) (a : Nat) (bs : List Byte), (m.write a bs).wf
  | _, w, _, [] => w
  | _, w, a, b :: bs => Mem.wf_write (Mem.wf_put w a b) (a + 1) bs

theorem Mem.wf_foldl {β : Type} {f : Mem → β → Mem} (hf : ∀ m b, m.wf → (f m b).wf) :
    ∀ {l : List β} {m : Mem}, m.wf → (l.foldl f m).wf
  | [], _, w => w
  | b :: l, m, w => Mem.wf_foldl hf (l := l) (hf m b w)

theorem Mem.wf_writeBe {m : Mem} (w : m.wf) (a : Nat) (bs : List Byte) (be : Nat) : (m.writeBe a bs be).wf :=
  Mem.wf_foldl (fun m p k => by
    show (if _ then _ else _ : Mem).wf
    split
    · exact Mem.wf_put k _ _
    · exact k) w

theorem Mem.wf_markWrite {m : Mem} (w : m.wf) (a n : Nat) (p : Bool) : (m.markWrite a n p).wf :=
  Mem.wf_foldl (fun m l k => by
    show (if _ then _ else _ : Mem).wf
    split
    · exact Mem.wf_mark k _ _
    · split
      · exact Mem.wf_mark k _ _
      · exact k) w

theorem Mem.wf_store {m : Mem} (w : m.wf) (a : Nat) (bs : List Byte) (p : Bool) : (m.store a bs p).wf :=
  Mem.wf_markWrite (Mem.wf_write w a bs) _ _ p

theorem Mem.wf_clear {m : Mem} (w : m.wf) (lo hi : Nat) : (m.clear lo hi).wf :=
  ⟨Tab.wf_keep w.1 (fun a => a < lo || hi ≤ a), Tab.wf_keep w.2.1 (fun l => l * 64 + 63 < lo || hi ≤ l * 64), w.2.2⟩

/-! ### Reads after writes -/

theorem Mem.byte_put_same {m : Mem} (w : m.wf) (a : Nat) (b : Byte) : (m.put a b).byte a = b :=
  Tab.get_set_same w.1 a b

theorem Mem.byte_put_other {m : Mem} (w : m.wf) {a x : Nat} (h : x ≠ a) (b : Byte) : (m.put a b).byte x = m.byte x :=
  Tab.get_set_other w.1 h b

/-- A write leaves every byte outside it alone. -/
theorem Mem.byte_write_outside : ∀ {m : Mem} (_ : m.wf) (a : Nat) (bs : List Byte) {x : Nat} (_ : x < a ∨ a + bs.length ≤ x),
    (m.write a bs).byte x = m.byte x
  | _, _, _, [], _, _ => rfl
  | m, w, a, b :: bs, x, h => by
    have h1 : x ≠ a := by simp only [List.length_cons] at h; omega
    have h2 : x < a + 1 ∨ a + 1 + bs.length ≤ x := by simp only [List.length_cons] at h; omega
    exact (Mem.byte_write_outside (Mem.wf_put w a b) (a + 1) bs h2).trans (Mem.byte_put_other w h1 b)

/-- A byte inside a write reads what was written. -/
theorem Mem.byte_write_inside : ∀ {m : Mem} (_ : m.wf) (a : Nat) (bs : List Byte) (i : Nat) (_ : i < bs.length),
    (m.write a bs).byte (a + i) = bs.getD i 0#8
  | _, _, _, [], _, h => by simp at h
  | m, w, a, b :: bs, 0, _ => by
    have := Mem.byte_write_outside (Mem.wf_put w a b) (a + 1) bs (x := a) (by omega)
    show (Mem.write (m.put a b) (a + 1) bs).byte (a + 0) = b
    exact this.trans (Mem.byte_put_same w a b)
  | m, w, a, b :: bs, i + 1, h => by
    have := Mem.byte_write_inside (Mem.wf_put w a b) (a + 1) bs i (by simpa using h)
    show (Mem.write (m.put a b) (a + 1) bs).byte (a + (i + 1)) = (b :: bs).getD (i + 1) 0#8
    rw [show a + (i + 1) = a + 1 + i by omega, this]
    simp

theorem Mem.bytes_mark (m : Mem) (l : Nat) (p : Bool) : (m.mark l p).bytes = m.bytes := rfl

theorem Mem.bytes_foldl {β : Type} {f : Mem → β → Mem} (hf : ∀ m b, (f m b).bytes = m.bytes) :
    ∀ (l : List β) (m : Mem), (l.foldl f m).bytes = m.bytes
  | [], _ => rfl
  | b :: l, m => (Mem.bytes_foldl hf l (f m b)).trans (hf m b)

/-- Poison markers are apart from the bytes. -/
theorem Mem.bytes_store (m : Mem) (a : Nat) (bs : List Byte) (p : Bool) : (m.store a bs p).bytes = (m.write a bs).bytes :=
  Mem.bytes_foldl (fun m l => by
    show (if _ then _ else _ : Mem).bytes = _
    split
    · rfl
    · split <;> rfl) _ _

end Sys2Proof.Machine
end

