-- ==== Sys2Proof/Laws/KeptMemOps.lean ====
section
/-! SUPPORT. What the operations of `Machine/MemOps.lean` keep: one lemma each. -/
namespace Sys2Proof.Laws
open Sys2Proof Sys2Proof.Machine Sys2Proof.Safety
set_option linter.unreachableTactic false
set_option linter.unusedTactic false

theorem kept_memPut {r0 : State} {g pa : Nat} {bs : List Byte} {poison : Bool} {s : State} (hk : Kept r0 s) :
    Kept r0 (memPut s g pa bs poison) := by
  unfold memPut
  repeat' first | intro _ | (with_reducible first | assumption | apply kept_setGranule | apply Kept.ite | apply Kept.mem (c := fun w => Mem.wf_store w _ _ _) | fail_if_no_progress apply Kept.rest) | dsimp only | split

theorem kept_memPutBe {r0 : State} {g pa : Nat} {bs : List Byte} {be : Nat} {poison : Bool} {s : State} (hk : Kept r0 s) :
    Kept r0 (memPutBe s g pa bs be poison) := by
  unfold memPutBe
  repeat' first | intro _ | (with_reducible first | assumption | apply kept_setGranule | apply Kept.ite | apply Kept.mem (c := fun w => Mem.wf_store w _ _ _) | apply Kept.mem (c := fun w => Mem.wf_writeBe w _ _ _) | apply Kept.mem (c := fun w => Mem.wf_markWrite w _ _ _) | apply Kept.mem (c := fun w => Mem.wf_markWrite (Mem.wf_writeBe w _ _ _) _ _ _) | apply Kept.mem (c := fun w => Mem.wf_writeBe w _ _ _) | fail_if_no_progress apply Kept.rest) | dsimp only | split

theorem kept_markLines {r0 : State} {ls : List Nat} {s : State} (hk : Kept r0 s) :
    Kept r0 (markLines ls s) := by
  exact hk.mem fun w => Mem.wf_foldl (fun _ _ k => Mem.wf_mark k _ _) w

theorem kept_zeroGranule {r0 : State} {g : Nat} {s : State} (hk : Kept r0 s) :
    Kept r0 (zeroGranule g s) := by
  unfold zeroGranule
  repeat' first | intro _ | (with_reducible first | assumption | apply kept_setGranule | apply Kept.ite | apply Kept.mem (c := fun w => Mem.wf_clear w _ _) | fail_if_no_progress apply Kept.rest) | dsimp only | split

theorem kept_bufFill {r0 : State} {unit : Nat} {e : XlEntry} {s : State} (hk : Kept r0 s) :
    Kept r0 (bufFill unit e s) := by
  unfold bufFill
  repeat' first | intro _ | (with_reducible first | assumption | apply Kept.ite | fail_if_no_progress apply Kept.rest) | dsimp only | split

theorem kept_xlFill {r0 : State} {unit : Nat} {e : XlEntry} {s : State} (hk : Kept r0 s) :
    Kept r0 (xlFill unit e s) := by
  unfold xlFill
  repeat' first | intro _ | (with_reducible first | assumption | apply kept_bufFill | apply Kept.ite | fail_if_no_progress apply Kept.rest) | dsimp only | split

theorem kept_xlDrop {r0 : State} {f : XlEntry → Bool} {s : State} (hk : Kept r0 s) :
    Kept r0 (xlDrop f s) := by
  unfold xlDrop
  repeat' first | intro _ | (with_reducible first | assumption | apply Kept.ite | fail_if_no_progress apply Kept.rest) | dsimp only | split

theorem kept_xlForget {r0 : State} {ctx : Nat} {s : State} (hk : Kept r0 s) :
    Kept r0 (xlForget ctx s) := by
  unfold xlForget
  repeat' first | intro _ | (with_reducible first | assumption | apply kept_xlDrop | apply Kept.ite | fail_if_no_progress apply Kept.rest) | dsimp only | split

theorem kept_noteXlat {r0 : State} {unit ctx dva : Nat} {s : State} (hk : Kept r0 s) :
    Kept r0 (noteXlat unit ctx dva s) := by
  unfold noteXlat
  repeat' first | intro _ | (with_reducible first | assumption | apply kept_bufFill | apply kept_xlFill | apply Kept.ite | fail_if_no_progress apply Kept.rest) | dsimp only | split

end Sys2Proof.Laws
end

