-- ==== Sys2Proof/Laws/KeptTokens.lean ====
section
/-! SUPPORT. What the operations of `Machine/Tokens.lean` keep: one lemma each. -/
namespace Sys2Proof.Laws
open Sys2Proof Sys2Proof.Machine Sys2Proof.Safety
set_option linter.unreachableTactic false
set_option linter.unusedTactic false

theorem kept_sendToken {r0 : State} {port : Nat} {t : Token} {s : State} (hk : Kept r0 s) :
    Kept r0 (sendToken port t s) := by
  unfold sendToken
  repeat' first | intro _ | (with_reducible first | assumption | apply kept_emit | apply kept_traceAt | apply Kept.ite | apply Kept.foldl | apply Kept.foldl2 | apply Kept.foldl3 | fail_if_no_progress apply Kept.rest) | dsimp only | split

theorem kept_sendCredit {r0 : State} {port part n : Nat} {s : State} (hk : Kept r0 s) :
    Kept r0 (sendCredit port part n s) := by
  unfold sendCredit
  repeat' first | intro _ | (with_reducible first | assumption | apply kept_emit | apply kept_setPort | apply Kept.ite | fail_if_no_progress apply Kept.rest) | dsimp only | split

theorem kept_sendAborts {r0 : State} {c : Nat} {o : COp} {s : State} (hk : Kept r0 s) :
    Kept r0 (sendAborts c o s) := by
  unfold sendAborts
  repeat' first | intro _ | (with_reducible first | assumption | apply kept_emit | apply kept_setPort | apply Kept.ite | apply Kept.foldl | apply Kept.foldl2 | apply Kept.foldl3 | fail_if_no_progress apply Kept.rest) | dsimp only | split

end Sys2Proof.Laws
end

