-- ==== Sys2Proof/Laws/KeptFence.lean ====
section
/-! SUPPORT. What the operations of `Machine/Fence.lean` keep: one lemma each. -/
namespace Sys2Proof.Laws
open Sys2Proof Sys2Proof.Machine Sys2Proof.Safety
set_option linter.unreachableTactic false
set_option linter.unusedTactic false

theorem kept_sendSnoop {r0 : State} {op line n : Nat} {s : State} (hk : Kept r0 s) :
    Kept r0 (sendSnoop op line n s) := by
  unfold sendSnoop
  repeat' first | intro _ | (with_reducible first | assumption | apply kept_emit | apply kept_setSite | apply kept_geljaTo | apply Kept.ite | apply Kept.free_ (c := Nat.le_succ _) | fail_if_no_progress apply Kept.rest) | dsimp only | split

theorem kept_drainSnoops {r0 : State} {n : Nat} {s : State} (hk : Kept r0 s) :
    Kept r0 (drainSnoops n s) := by
  unfold drainSnoops
  repeat' first | intro _ | (with_reducible first | assumption | apply kept_modSite | apply kept_sendSnoop | apply Kept.ite | apply Kept.foldl | apply Kept.foldl2 | apply Kept.foldl3 | fail_if_no_progress apply Kept.rest) | dsimp only | split

theorem kept_backInval {r0 : State} {why line : Nat} {s : State} (hk : Kept r0 s) :
    Kept r0 (backInval why line s) := by
  unfold backInval
  repeat' first | intro _ | (with_reducible first | assumption | apply kept_sendSnoop | apply Kept.ite | apply Kept.foldl | apply Kept.foldl2 | apply Kept.foldl3 | fail_if_no_progress apply Kept.rest) | dsimp only | split

theorem kept_backInvalRange {r0 : State} {lo hi : Nat} {s : State} (hk : Kept r0 s) :
    Kept r0 (backInvalRange lo hi s) := by
  unfold backInvalRange
  repeat' first | intro _ | (with_reducible first | assumption | apply kept_backInval | apply Kept.ite | apply Kept.foldl | apply Kept.foldl2 | apply Kept.foldl3 | fail_if_no_progress apply Kept.rest) | dsimp only | split

theorem kept_flushSite {r0 : State} {n : Nat} {s : State} (hk : Kept r0 s) :
    Kept r0 (flushSite n s) := by
  unfold flushSite
  repeat' first | intro _ | (with_reducible first | assumption | apply kept_modSite | apply kept_backInval | apply Kept.ite | apply Kept.foldl | apply Kept.foldl2 | apply Kept.foldl3 | fail_if_no_progress apply Kept.rest) | dsimp only | split

theorem kept_dropHolder {r0 : State} {n line : Nat} {s : State} (hk : Kept r0 s) :
    Kept r0 (dropHolder n line s) := by
  unfold dropHolder
  repeat' first | intro _ | (with_reducible first | assumption | apply Kept.ite | apply Kept.mem (c := fun w => Mem.wf_mark w _ _) | fail_if_no_progress apply Kept.rest) | dsimp only | split

theorem kept_settleWins {r0 : State} {s : State} (hk : Kept r0 s) :
    Kept r0 (settleWins s) := by
  unfold settleWins
  repeat' first | intro _ | (with_reducible first | assumption | apply Kept.ite | apply Kept.foldl | apply Kept.foldl2 | apply Kept.foldl3 | fail_if_no_progress apply Kept.rest) | dsimp only | split

theorem kept_freeGranule {r0 : State} {g : Nat} {s : State} (hk : Kept r0 s) :
    Kept r0 (freeGranule g s) := by
  unfold freeGranule
  repeat' first | intro _ | (with_reducible first | assumption | apply kept_setGranule | apply kept_zeroGranule | apply Kept.ite | fail_if_no_progress apply Kept.rest) | dsimp only | split

theorem kept_settleGrans {r0 : State} {s : State} (hk : Kept r0 s) :
    Kept r0 (settleGrans s) := by
  unfold settleGrans
  repeat' first | intro _ | (with_reducible first | assumption | apply kept_freeGranule | apply Kept.ite | apply Kept.foldl | apply Kept.foldl2 | apply Kept.foldl3 | fail_if_no_progress apply Kept.rest) | dsimp only | split

theorem kept_settleHome {r0 : State} {s : State} (hk : Kept r0 s) :
    Kept r0 (settleHome s) := by
  unfold settleHome
  repeat' first | intro _ | (with_reducible first | assumption | apply kept_settleWins | apply kept_settleGrans | apply Kept.ite | fail_if_no_progress apply Kept.rest) | dsimp only | split

theorem kept_releaseGran {r0 : State} {g : Nat} {s : State} (hk : Kept r0 s) :
    Kept r0 (releaseGran g s) := by
  unfold releaseGran
  repeat' first | intro _ | (with_reducible first | assumption | apply kept_backInvalRange | apply kept_freeGranule | apply kept_settleHome | apply Kept.ite | fail_if_no_progress apply Kept.rest) | dsimp only | split

theorem kept_dropSite {r0 : State} {n : Nat} {s : State} (hk : Kept r0 s) :
    Kept r0 (dropSite n s) := by
  unfold dropSite
  repeat' first | intro _ | (with_reducible first | assumption | apply kept_dropHolder | apply kept_settleHome | apply Kept.ite | apply Kept.foldl | apply Kept.foldl2 | apply Kept.foldl3 | fail_if_no_progress apply Kept.rest) | dsimp only | split

theorem kept_zeroCell {r0 : State} {n : Nat} {s : State} (hk : Kept r0 s) :
    Kept r0 (zeroCell n s) := by
  unfold zeroCell
  repeat' first | intro _ | (with_reducible first | assumption | apply kept_setCell | apply Kept.ite | fail_if_no_progress apply Kept.rest) | dsimp only | split

theorem kept_fenceCol {r0 : State} {k : Nat} {s : State} (hk : Kept r0 s) :
    Kept r0 (fenceCol k s) := by
  unfold fenceCol
  repeat' first | intro _ | (with_reducible first | assumption | apply kept_setCol | apply kept_traceAt | apply Kept.ite | fail_if_no_progress apply Kept.rest) | dsimp only | split

theorem kept_moveCell {r0 : State} {n : Nat} {s : State} (hk : Kept r0 s) :
    Kept r0 (moveCell n s) := by
  unfold moveCell
  repeat' first | intro _ | (with_reducible first | assumption | apply kept_setCell | apply Kept.ite | fail_if_no_progress apply Kept.rest) | dsimp only | split

theorem kept_remapCol {r0 : State} {k row : Nat} {s : State} (hk : Kept r0 s) :
    Kept r0 (remapCol k row s) := by
  unfold remapCol
  repeat' first | intro _ | (with_reducible first | assumption | apply kept_setCol | apply kept_traceAt | apply kept_fenceCol | apply kept_moveCell | apply Kept.ite | apply Kept.foldl | apply Kept.foldl2 | apply Kept.foldl3 | fail_if_no_progress apply Kept.rest) | dsimp only | split

theorem kept_markFence {r0 : State} {ps : List Nat} {s : State} (hk : Kept r0 s) :
    Kept r0 (markFence ps s) := by
  unfold markFence
  repeat' first | intro _ | (with_reducible first | assumption | apply kept_markFlag | apply Kept.ite | apply Kept.foldl | apply Kept.foldl2 | apply Kept.foldl3 | fail_if_no_progress apply Kept.rest) | dsimp only | split

theorem kept_fenceBank {r0 : State} {b : Nat} {s : State} (hk : Kept r0 s) :
    Kept r0 (fenceBank b s) := by
  unfold fenceBank
  repeat' first | intro _ | (with_reducible first | assumption | apply kept_setBank | apply Kept.ite | apply Kept.mem (c := fun w => Mem.wf_clear w _ _) | fail_if_no_progress apply Kept.rest) | dsimp only | split

theorem kept_readmitBank {r0 : State} {b : Nat} {s : State} (hk : Kept r0 s) :
    Kept r0 (readmitBank b s) := by
  unfold readmitBank
  repeat' first | intro _ | (with_reducible first | assumption | apply kept_setBank | apply Kept.ite | fail_if_no_progress apply Kept.rest) | dsimp only | split

theorem kept_fenceChan {r0 : State} {c : Nat} {s : State} (hk : Kept r0 s) :
    Kept r0 (fenceChan c s) := by
  unfold fenceChan
  repeat' first | intro _ | (with_reducible first | assumption | apply kept_setChan | apply Kept.ite | apply Kept.mem (c := fun w => Mem.wf_clear w _ _) | fail_if_no_progress apply Kept.rest) | dsimp only | split

theorem kept_readmitChan {r0 : State} {c : Nat} {s : State} (hk : Kept r0 s) :
    Kept r0 (readmitChan c s) := by
  unfold readmitChan
  repeat' first | intro _ | (with_reducible first | assumption | apply kept_setChan | apply kept_setStack | apply kept_setDomain | apply Kept.ite | fail_if_no_progress apply Kept.rest) | dsimp only | split

theorem kept_fenceStack {r0 : State} {m : Nat} {s : State} (hk : Kept r0 s) :
    Kept r0 (fenceStack m s) := by
  unfold fenceStack
  repeat' first | intro _ | (with_reducible first | assumption | apply kept_setStack | apply kept_setDomain | apply kept_fenceChan | apply Kept.ite | apply Kept.foldl | apply Kept.foldl2 | apply Kept.foldl3 | fail_if_no_progress apply Kept.rest) | dsimp only | split

theorem kept_fenceXfe {r0 : State} {e : Nat} {s : State} (hk : Kept r0 s) :
    Kept r0 (fenceXfe e s) := by
  unfold fenceXfe
  repeat' first | intro _ | (with_reducible first | assumption | apply kept_setXfe | apply Kept.ite | fail_if_no_progress apply Kept.rest) | dsimp only | split

theorem kept_readmitXfe {r0 : State} {e : Nat} {s : State} (hk : Kept r0 s) :
    Kept r0 (readmitXfe e s) := by
  unfold readmitXfe
  repeat' first | intro _ | (with_reducible first | assumption | apply kept_setXfe | apply Kept.ite | fail_if_no_progress apply Kept.rest) | dsimp only | split

theorem kept_fenceCunit {r0 : State} {c : Nat} {s : State} (hk : Kept r0 s) :
    Kept r0 (fenceCunit c s) := by
  unfold fenceCunit
  repeat' first | intro _ | (with_reducible first | assumption | apply kept_setCunit | apply Kept.ite | fail_if_no_progress apply Kept.rest) | dsimp only | split

theorem kept_readmitCunit {r0 : State} {c : Nat} {s : State} (hk : Kept r0 s) :
    Kept r0 (readmitCunit c s) := by
  unfold readmitCunit
  repeat' first | intro _ | (with_reducible first | assumption | apply kept_setCunit | apply Kept.ite | fail_if_no_progress apply Kept.rest) | dsimp only | split

theorem kept_fencePort {r0 : State} {n : Nat} {peer : Bool} {s : State} (hk : Kept r0 s) :
    Kept r0 (fencePort n peer s) := by
  unfold fencePort
  repeat' first | intro _ | (with_reducible first | assumption | apply kept_setPort | apply kept_traceAt | apply Kept.ite | fail_if_no_progress apply Kept.rest) | dsimp only | split

theorem kept_readmitPort {r0 : State} {n : Nat} {s : State} (hk : Kept r0 s) :
    Kept r0 (readmitPort n s) := by
  unfold readmitPort
  repeat' first | intro _ | (with_reducible first | assumption | apply kept_setPort | apply kept_traceAt | apply Kept.ite | fail_if_no_progress apply Kept.rest) | dsimp only | split

theorem kept_coreOff {r0 : State} {k : Nat} {s : State} (hk : Kept r0 s) :
    Kept r0 (coreOff k s) := by
  unfold coreOff
  repeat' first | intro _ | (with_reducible first | assumption | apply kept_modSite | apply kept_setDomain | apply Kept.ite | fail_if_no_progress apply Kept.rest) | dsimp only | split

theorem kept_offSite {r0 : State} {n : Nat} {s : State} (hk : Kept r0 s) :
    Kept r0 (offSite n s) := by
  unfold offSite
  repeat' first | intro _ | (with_reducible first | assumption | apply kept_modSite | apply kept_setDomain | apply kept_coreOff | apply Kept.ite | apply Kept.foldl | apply Kept.foldl2 | apply Kept.foldl3 | fail_if_no_progress apply Kept.rest) | dsimp only | split

theorem kept_failOuts {r0 : State} {n : Nat} {s : State} (hk : Kept r0 s) :
    Kept r0 (failOuts n s) := by
  unfold failOuts
  repeat' first | intro _ | (with_reducible first | assumption | apply kept_modSite | apply Kept.ite | fail_if_no_progress apply Kept.rest) | dsimp only | split

theorem kept_fenceSite {r0 : State} {n : Nat} {why : SReason} {flush : Bool} {s : State} (hk : Kept r0 s) :
    Kept r0 (fenceSite n why flush s) := by
  unfold fenceSite
  repeat' first | intro _ | (with_reducible first | assumption | apply kept_modSite | apply kept_traceAt | apply kept_flushSite | apply kept_offSite | apply kept_failOuts | apply Kept.ite | apply Kept.foldl | apply Kept.foldl2 | apply Kept.foldl3 | fail_if_no_progress apply Kept.rest) | dsimp only | split

theorem kept_requestXfeFence {r0 : State} {e : Nat} {s : State} (hk : Kept r0 s) :
    Kept r0 (requestXfeFence e s) := by
  unfold requestXfeFence
  repeat' first | intro _ | (with_reducible first | assumption | apply kept_setXfe | apply kept_fenceXfe | apply Kept.ite | fail_if_no_progress apply Kept.rest) | dsimp only | split

theorem kept_requestXfeReadmit {r0 : State} {e : Nat} {s : State} (hk : Kept r0 s) :
    Kept r0 (requestXfeReadmit e s) := by
  unfold requestXfeReadmit
  repeat' first | intro _ | (with_reducible first | assumption | apply kept_setXfe | apply kept_readmitXfe | apply Kept.ite | fail_if_no_progress apply Kept.rest) | dsimp only | split

theorem kept_requestCunitFence {r0 : State} {c : Nat} {s : State} (hk : Kept r0 s) :
    Kept r0 (requestCunitFence c s) := by
  unfold requestCunitFence
  repeat' first | intro _ | (with_reducible first | assumption | apply kept_setCunit | apply kept_fenceCunit | apply Kept.ite | fail_if_no_progress apply Kept.rest) | dsimp only | split

theorem kept_requestCunitReadmit {r0 : State} {c : Nat} {s : State} (hk : Kept r0 s) :
    Kept r0 (requestCunitReadmit c s) := by
  unfold requestCunitReadmit
  repeat' first | intro _ | (with_reducible first | assumption | apply kept_setCunit | apply kept_readmitCunit | apply Kept.ite | fail_if_no_progress apply Kept.rest) | dsimp only | split

theorem kept_requestBankFence {r0 : State} {b : Nat} {s : State} (hk : Kept r0 s) :
    Kept r0 (requestBankFence b s) := by
  unfold requestBankFence
  repeat' first | intro _ | (with_reducible first | assumption | apply kept_setBank | apply kept_fenceBank | apply Kept.ite | fail_if_no_progress apply Kept.rest) | dsimp only | split

theorem kept_requestBankReadmit {r0 : State} {b : Nat} {s : State} (hk : Kept r0 s) :
    Kept r0 (requestBankReadmit b s) := by
  unfold requestBankReadmit
  repeat' first | intro _ | (with_reducible first | assumption | apply kept_setBank | apply kept_readmitBank | apply Kept.ite | fail_if_no_progress apply Kept.rest) | dsimp only | split

theorem kept_requestChanFence {r0 : State} {c : Nat} {s : State} (hk : Kept r0 s) :
    Kept r0 (requestChanFence c s) := by
  unfold requestChanFence
  repeat' first | intro _ | (with_reducible first | assumption | apply kept_setChan | apply kept_fenceChan | apply Kept.ite | fail_if_no_progress apply Kept.rest) | dsimp only | split

theorem kept_requestChanReadmit {r0 : State} {c : Nat} {s : State} (hk : Kept r0 s) :
    Kept r0 (requestChanReadmit c s) := by
  unfold requestChanReadmit
  repeat' first | intro _ | (with_reducible first | assumption | apply kept_setChan | apply kept_setStack | apply kept_readmitChan | apply Kept.ite | fail_if_no_progress apply Kept.rest) | dsimp only | split

theorem kept_requestPortFence {r0 : State} {n : Nat} {s : State} (hk : Kept r0 s) :
    Kept r0 (requestPortFence n s) := by
  unfold requestPortFence
  repeat' first | intro _ | (with_reducible first | assumption | apply kept_setPort | apply kept_fencePort | apply Kept.ite | fail_if_no_progress apply Kept.rest) | dsimp only | split

theorem kept_requestPortReadmit {r0 : State} {n : Nat} {s : State} (hk : Kept r0 s) :
    Kept r0 (requestPortReadmit n s) := by
  unfold requestPortReadmit
  repeat' first | intro _ | (with_reducible first | assumption | apply kept_setPort | apply kept_readmitPort | apply Kept.ite | fail_if_no_progress apply Kept.rest) | dsimp only | split

theorem kept_requestSiteFence {r0 : State} {n : Nat} {why : SReason} {s : State} (hk : Kept r0 s) :
    Kept r0 (requestSiteFence n why s) := by
  unfold requestSiteFence
  repeat' first | intro _ | (with_reducible first | assumption | apply kept_setSite | apply kept_fenceSite | apply Kept.ite | fail_if_no_progress apply Kept.rest) | dsimp only | split

theorem kept_requestColFence {r0 : State} {k : Nat} {s : State} (hk : Kept r0 s) :
    Kept r0 (requestColFence k s) := by
  unfold requestColFence
  repeat' first | intro _ | (with_reducible first | assumption | apply kept_setCol | apply kept_fenceCol | apply Kept.ite | fail_if_no_progress apply Kept.rest) | dsimp only | split

theorem kept_requestColRemap {r0 : State} {k row : Nat} {s : State} (hk : Kept r0 s) :
    Kept r0 (requestColRemap k row s) := by
  unfold requestColRemap
  repeat' first | intro _ | (with_reducible first | assumption | apply kept_setCol | apply kept_remapCol | apply Kept.ite | fail_if_no_progress apply Kept.rest) | dsimp only | split

theorem kept_proofCols {r0 : State} {p : Nat} {s : State} (hk : Kept r0 s) :
    Kept r0 (proofCols p s) := by
  unfold proofCols
  repeat' first | intro _ | (with_reducible first | assumption | apply kept_markFlag | apply kept_fenceCol | apply kept_remapCol | apply Kept.ite | apply Kept.foldl | apply Kept.foldl2 | apply Kept.foldl3 | fail_if_no_progress apply Kept.rest) | dsimp only | split

theorem kept_proofUnits {r0 : State} {p : Nat} {s : State} (hk : Kept r0 s) :
    Kept r0 (proofUnits p s) := by
  unfold proofUnits
  repeat' first | intro _ | (with_reducible first | assumption | apply kept_setStack | apply kept_markFlag | apply kept_fenceBank | apply kept_readmitBank | apply kept_fenceChan | apply kept_readmitChan | apply kept_fenceXfe | apply kept_readmitXfe | apply kept_fenceCunit | apply kept_readmitCunit | apply Kept.ite | apply Kept.foldl | apply Kept.foldl2 | apply Kept.foldl3 | fail_if_no_progress apply Kept.rest) | dsimp only | split

theorem kept_proofPorts {r0 : State} {p : Nat} {s : State} (hk : Kept r0 s) :
    Kept r0 (proofPorts p s) := by
  unfold proofPorts
  repeat' first | intro _ | (with_reducible first | assumption | apply kept_setPort | apply kept_markFence | apply kept_fencePort | apply kept_readmitPort | apply Kept.ite | apply Kept.foldl | apply Kept.foldl2 | apply Kept.foldl3 | fail_if_no_progress apply Kept.rest) | dsimp only | split

theorem kept_proofSitesApply {r0 : State} {p : Nat} {s : State} (hk : Kept r0 s) :
    Kept r0 (proofSitesApply p s) := by
  unfold proofSitesApply
  repeat' first | intro _ | (with_reducible first | assumption | apply kept_modSite | apply kept_setDomain | apply kept_markFlag | apply kept_offSite | apply kept_fenceSite | apply Kept.ite | apply Kept.foldl | apply Kept.foldl2 | apply Kept.foldl3 | fail_if_no_progress apply Kept.rest) | dsimp only | split

theorem kept_applyProof {r0 : State} {p : Nat} {s : State} (hk : Kept r0 s) :
    Kept r0 (applyProof p s) := by
  unfold applyProof
  repeat' first | intro _ | (with_reducible first | assumption | apply kept_proofCols | apply kept_proofUnits | apply kept_proofPorts | apply kept_proofSitesApply | apply Kept.ite | fail_if_no_progress apply Kept.rest) | dsimp only | split

theorem kept_settleArmed {r0 : State} {p : Nat} {s : State} (hk : Kept r0 s) :
    Kept r0 (settleArmed p s) := by
  unfold settleArmed
  repeat' first | intro _ | (with_reducible first | assumption | apply kept_modPart | apply kept_applyProof | apply Kept.ite | fail_if_no_progress apply Kept.rest) | dsimp only | split

end Sys2Proof.Laws
end

