-- ==== Sys2Proof/Laws/KeptFlags.lean ====
section
/-! SUPPORT. What the operations of `Machine/Flags.lean` keep: one lemma each. -/
namespace Sys2Proof.Laws
open Sys2Proof Sys2Proof.Machine Sys2Proof.Safety
set_option linter.unreachableTactic false
set_option linter.unusedTactic false

theorem kept_refreshPin {r0 : State} {s : State} (hk : Kept r0 s) :
    Kept r0 (refreshPin s) := by
  unfold refreshPin
  repeat' first | intro _ | (with_reducible first | assumption | apply kept_emit | apply Kept.ite | fail_if_no_progress apply Kept.rest) | dsimp only | split

theorem kept_refreshInt {r0 : State} {s : State} (hk : Kept r0 s) :
    Kept r0 (refreshInt s) := by
  unfold refreshInt
  repeat' first | intro _ | (with_reducible first | assumption | apply kept_emit | apply Kept.ite | fail_if_no_progress apply Kept.rest) | dsimp only | split

theorem kept_refresh {r0 : State} {s : State} (hk : Kept r0 s) :
    Kept r0 (refresh s) := by
  unfold refresh
  repeat' first | intro _ | (with_reducible first | assumption | apply kept_refreshPin | apply kept_refreshInt | apply Kept.ite | fail_if_no_progress apply Kept.rest) | dsimp only | split

theorem kept_holdEntry {r0 : State} {v tag : Nat} {st : Status} {detail : Nat} {s : State} (hk : Kept r0 s) :
    Kept r0 (holdEntry v tag st detail s) := by
  unfold holdEntry
  repeat' first | intro _ | (with_reducible first | assumption | apply kept_setVi | apply Kept.ite | fail_if_no_progress apply Kept.rest) | dsimp only | split

theorem kept_endSource {r0 : State} {src : XSource} {st : Status} {detail : Nat} {s : State} (hk : Kept r0 s) :
    Kept r0 (endSource src st detail s) := by
  unfold endSource
  repeat' first | intro _ | (with_reducible first | assumption | apply kept_holdEntry | apply Kept.ite | fail_if_no_progress apply Kept.rest) | dsimp only | split

theorem kept_stopXfe {r0 : State} {e : Nat} {s : State} (hk : Kept r0 s) :
    Kept r0 (stopXfe e s) := by
  unfold stopXfe
  repeat' first | intro _ | (with_reducible first | assumption | apply kept_setXfe | apply kept_endSource | apply Kept.ite | apply Kept.foldl | apply Kept.foldl2 | apply Kept.foldl3 | fail_if_no_progress apply Kept.rest) | dsimp only | split

theorem kept_stopCunit {r0 : State} {c : Nat} {s : State} (hk : Kept r0 s) :
    Kept r0 (stopCunit c s) := by
  unfold stopCunit
  repeat' first | intro _ | (with_reducible first | assumption | apply kept_setCunit | apply kept_sendAborts | apply Kept.ite | fail_if_no_progress apply Kept.rest) | dsimp only | split

theorem kept_dropSlots {r0 : State} {p : Nat} {s : State} (hk : Kept r0 s) :
    Kept r0 (dropSlots p s) := by
  unfold dropSlots
  repeat' first | intro _ | (with_reducible first | assumption | apply kept_setPort | apply kept_sendCredit | apply Kept.ite | apply Kept.foldl | apply Kept.foldl2 | apply Kept.foldl3 | fail_if_no_progress apply Kept.rest) | dsimp only | split

theorem kept_askZero {r0 : State} {gs : List Nat} {s : State} (hk : Kept r0 s) :
    Kept r0 (askZero gs s) := by
  unfold askZero
  repeat' first | intro _ | (with_reducible first | assumption | apply Kept.ite | fail_if_no_progress apply Kept.rest) | dsimp only | split

theorem kept_zeroCols {r0 : State} {p : Nat} {s : State} (hk : Kept r0 s) :
    Kept r0 (zeroCols p s) := by
  unfold zeroCols
  repeat' first | intro _ | (with_reducible first | assumption | apply kept_zeroCell | apply Kept.ite | apply Kept.foldl | apply Kept.foldl2 | apply Kept.foldl3 | fail_if_no_progress apply Kept.rest) | dsimp only | split

theorem kept_endSession {r0 : State} {v reason : Nat} {s : State} (hk : Kept r0 s) :
    Kept r0 (endSession v reason s) := by
  unfold endSession
  repeat' first | intro _ | (with_reducible first | assumption | apply kept_modVi | apply kept_setSeal | apply kept_askZero | apply kept_zeroCols | apply Kept.ite | fail_if_no_progress apply Kept.rest) | dsimp only | split

theorem kept_dropHeld {r0 : State} {p : Nat} {s : State} (hk : Kept r0 s) :
    Kept r0 (dropHeld p s) := by
  unfold dropHeld
  repeat' first | intro _ | (with_reducible first | assumption | apply kept_geljaTo | apply Kept.ite | apply Kept.foldl | apply Kept.foldl2 | apply Kept.foldl3 | fail_if_no_progress apply Kept.rest) | dsimp only | split

theorem kept_stopPartition {r0 : State} {p : Nat} {s : State} (hk : Kept r0 s) :
    Kept r0 (stopPartition p s) := by
  unfold stopPartition
  repeat' first | intro _ | (with_reducible first | assumption | apply kept_emit | apply kept_modPart | apply kept_modSite | apply kept_setPState | apply kept_settleArmed | apply kept_stopXfe | apply kept_stopCunit | apply kept_dropSlots | apply kept_endSession | apply kept_dropHeld | apply Kept.ite | apply Kept.foldl | apply Kept.foldl2 | apply Kept.foldl3 | fail_if_no_progress apply Kept.rest) | dsimp only | split

theorem kept_domainsOff {r0 : State} {s : State} (hk : Kept r0 s) :
    Kept r0 (domainsOff s) := by
  exact hk.trans ⟨fun ⟨m, p, x, si, po, co, v, ce, fc, q, se, o, gr⟩ =>
    ⟨⟨⟨rfl, rfl, m.2.2.1, m.2.2.2.1, m.2.2.2.2.1, Tab.wf_mapV m.2.2.2.2.2 _⟩, p, x, Tab.wf_mapV si _, Tab.wf_mapV po _, co, v, ce, fc,
      Tab.wf_mapV q _, se, o, gr⟩, OtpLe.refl _⟩, rfl, List.suffix_refl _, Nat.le_refl _⟩

theorem kept_breakAll {r0 : State} {s : State} (hk : Kept r0 s) :
    Kept r0 (breakAll s) := by
  unfold breakAll
  repeat' first | intro _ | (with_reducible first | assumption | apply kept_sendToken | apply Kept.ite | apply Kept.foldl | apply Kept.foldl2 | apply Kept.foldl3 | fail_if_no_progress apply Kept.rest) | dsimp only | split

theorem kept_dropPeel {r0 : State} {s : State} (hk : Kept r0 s) :
    Kept r0 (dropPeel s) := by
  unfold dropPeel
  repeat' first | intro _ | (with_reducible first | assumption | apply Kept.ite | apply Kept.sites_map | fail_if_no_progress apply Kept.rest) | dsimp only | split

theorem kept_stopPackage {r0 : State} {cause group bit : Nat} {s : State} (hk : Kept r0 s) :
    Kept r0 (stopPackage cause group bit s) := by
  unfold stopPackage
  repeat' first | intro _ | (with_reducible first | assumption | apply kept_setGrp | apply kept_stopPartition | apply kept_domainsOff | apply kept_breakAll | apply kept_dropPeel | apply Kept.ite | apply Kept.foldl | apply Kept.foldl2 | apply Kept.foldl3 | fail_if_no_progress apply Kept.rest) | dsimp only | split

theorem kept_holdForFault {r0 : State} {p : Nat} {s : State} (hk : Kept r0 s) :
    Kept r0 (holdForFault p s) := by
  unfold holdForFault
  repeat' first | intro _ | (with_reducible first | assumption | apply kept_modPart | apply kept_setPState | apply kept_settleArmed | apply Kept.ite | fail_if_no_progress apply Kept.rest) | dsimp only | split

theorem kept_requestRepair {r0 : State} {pa : Nat} {s : State} (hk : Kept r0 s) :
    Kept r0 (requestRepair pa s) := by
  unfold requestRepair
  repeat' first | intro _ | (with_reducible first | assumption | apply Kept.ite | fail_if_no_progress apply Kept.rest) | dsimp only | split

theorem kept_syncColumn {r0 : State} {k : Nat} {s : State} (hk : Kept r0 s) :
    Kept r0 (syncColumn k s) := by
  unfold syncColumn
  repeat' first | intro _ | (with_reducible first | assumption | apply kept_setCell | apply Kept.ite | apply Kept.foldl | apply Kept.foldl2 | apply Kept.foldl3 | fail_if_no_progress apply Kept.rest) | dsimp only | split

theorem kept_killCell {r0 : State} {n : Nat} {s : State} (hk : Kept r0 s) :
    Kept r0 (killCell n s) := by
  unfold killCell
  repeat' first | intro _ | (with_reducible first | assumption | apply kept_setCell | apply kept_syncColumn | apply Kept.ite | fail_if_no_progress apply Kept.rest) | dsimp only | split

theorem kept_addFinding {r0 : State} {d : BitVec 32} {s : State} (hk : Kept r0 s) :
    Kept r0 (addFinding d s) := by
  unfold addFinding
  repeat' first | intro _ | (with_reducible first | assumption | apply Kept.ite | fail_if_no_progress apply Kept.rest) | dsimp only | split

theorem kept_fenceUnit {r0 : State} {g bit unit : Nat} {s : State} (hk : Kept r0 s) :
    Kept r0 (fenceUnit g bit unit s) := by
  unfold fenceUnit
  repeat' first | intro _ | (with_reducible first | assumption | apply kept_setCol | apply kept_requestXfeFence | apply kept_requestCunitFence | apply kept_requestChanFence | apply kept_requestPortFence | apply kept_requestSiteFence | apply kept_requestColFence | apply kept_requestColRemap | apply kept_requestRepair | apply kept_killCell | apply kept_addFinding | apply Kept.ite | fail_if_no_progress apply Kept.rest) | dsimp only | split

theorem kept_performAction {r0 : State} {g : Nat} {units : List (Nat × Nat)} {s : State} (hk : Kept r0 s) :
    Kept r0 (performAction g units s) := by
  unfold performAction
  repeat' first | intro _ | (with_reducible first | assumption | apply kept_holdForFault | apply kept_fenceUnit | apply Kept.ite | apply Kept.foldl | apply Kept.foldl2 | apply Kept.foldl3 | fail_if_no_progress apply Kept.rest) | dsimp only | split

theorem kept_settleGroup {r0 : State} {g : Nat} {s : State} (hk : Kept r0 s) :
    Kept r0 (settleGroup g s) := by
  unfold settleGroup
  repeat' first | intro _ | (with_reducible first | assumption | apply kept_setGrp | apply Kept.ite | fail_if_no_progress apply Kept.rest) | dsimp only | split

theorem kept_escalateOnce {r0 : State} {g : Nat} {s : State} (hk : Kept r0 s) :
    Kept r0 (escalateOnce g s).2 := by
  unfold escalateOnce
  repeat' first | intro _ | (with_reducible first | assumption | apply kept_setGrp | apply kept_performAction | apply Kept.ite | fail_if_no_progress apply Kept.rest) | dsimp only | split

theorem kept_detectN {r0 : State} : ∀ (a0 : Nat) {a1 : Nat} {a2 : Nat} {a3 : Nat} {a4 : State}, Kept r0 a4 → Kept r0 (detectN a0 a1 a2 a3 a4) := by
  intro a0
  induction a0 with
  | zero =>
    intros
    unfold detectN
    repeat' first | intro _ | (with_reducible first | assumption | apply kept_emit | apply kept_setGrp | apply kept_stopPackage | apply kept_escalateOnce | apply Kept.ite | fail_if_no_progress apply Kept.rest) | dsimp only | split
  | succ _ ih =>
    intros
    unfold detectN
    repeat' first | intro _ | (with_reducible first | assumption | apply ih | apply kept_emit | apply kept_setGrp | apply kept_stopPackage | apply kept_escalateOnce | apply Kept.ite | fail_if_no_progress apply Kept.rest) | dsimp only | split

theorem kept_raise {r0 : State} {g bit unit : Nat} {s : State} (hk : Kept r0 s) :
    Kept r0 (raise g bit unit s) := by
  unfold raise
  repeat' first | intro _ | (with_reducible first | assumption | apply kept_refresh | apply kept_detectN | apply Kept.ite | fail_if_no_progress apply Kept.rest) | dsimp only | split

theorem kept_raiseAll {r0 : State} {fs : List (Nat × Nat × Nat)} {s : State} (hk : Kept r0 s) :
    Kept r0 (raiseAll fs s) := by
  unfold raiseAll
  repeat' first | intro _ | (with_reducible first | assumption | apply kept_raise | apply Kept.ite | apply Kept.foldl | apply Kept.foldl2 | apply Kept.foldl3 | fail_if_no_progress apply Kept.rest) | dsimp only | split

theorem kept_refuseWrite {r0 : State} {g unit : Nat} {s : State} (hk : Kept r0 s) :
    Kept r0 (refuseWrite g s unit) := by
  unfold refuseWrite
  repeat' first | intro _ | (with_reducible first | assumption | apply kept_raise | apply Kept.ite | fail_if_no_progress apply Kept.rest) | dsimp only | split

theorem kept_tripPackage {r0 : State} {s : State} (hk : Kept r0 s) :
    Kept r0 (tripPackage s) := by
  unfold tripPackage
  repeat' first | intro _ | (with_reducible first | assumption | apply kept_refresh | apply kept_stopPackage | apply kept_detectN | apply Kept.ite | fail_if_no_progress apply Kept.rest) | dsimp only | split

theorem kept_ackBits {r0 : State} {g : Nat} {v : Word} {s : State} (hk : Kept r0 s) :
    Kept r0 (ackBits g v s) := by
  unfold ackBits
  repeat' first | intro _ | (with_reducible first | assumption | apply kept_setGrp | apply kept_refresh | apply kept_settleGroup | apply Kept.ite | fail_if_no_progress apply Kept.rest) | dsimp only | split

theorem kept_clearBits {r0 : State} {g : Nat} {v : Word} {s : State} (hk : Kept r0 s) :
    Kept r0 (clearBits g v s) := by
  unfold clearBits
  repeat' first | intro _ | (with_reducible first | assumption | apply kept_setGrp | apply kept_ackBits | apply Kept.ite | fail_if_no_progress apply Kept.rest) | dsimp only | split

theorem kept_fireInject {r0 : State} {g bit : Nat} {corrects : Bool} {s : State} (hk : Kept r0 s) :
    Kept r0 (fireInject g bit corrects s).2 := by
  unfold fireInject
  repeat' first | intro _ | (with_reducible first | assumption | apply kept_setGrp | apply Kept.ite | fail_if_no_progress apply Kept.rest) | dsimp only | split

theorem kept_checkEcc {r0 : State} {g bit : Nat} {corrects : Bool} {e : Ecc} {s : State} (hk : Kept r0 s) :
    Kept r0 (checkEcc g bit corrects e s).2 := by
  unfold checkEcc
  repeat' first | intro _ | (with_reducible first | assumption | apply kept_fireInject | apply Kept.ite | apply Kept.snd (by assumption) | fail_if_no_progress apply Kept.rest) | dsimp only | split

end Sys2Proof.Laws
end

