-- ==== Sys2Proof/Laws/Stat.lean ====
section
/-! SUPPORT. The statuses of the fault groups: what happens at an escalation, a fence or a package stop changes no status bit
(R696: a status bit is set by its detection and cleared by software only). -/
namespace Sys2Proof.Laws
open Sys2Proof Sys2Proof.Machine Sys2Proof.Safety

/-- The groups' status bits are the same in both states. -/
structure Stat (s t : State) : Prop where
  out : Tab.rises s.flt.groups = true → Tab.rises t.flt.groups = true ∧ ∀ g, (t.grp g).status = (s.grp g).status

theorem Stat.refl (s : State) : Stat s s := ⟨fun w => ⟨w, fun _ => rfl⟩⟩

theorem Stat.trans {a b c : State} (h : Stat a b) (k : Stat b c) : Stat a c :=
  ⟨fun w => ⟨(k.out (h.out w).1).1, fun g => ((k.out (h.out w).1).2 g).trans ((h.out w).2 g)⟩⟩

/-- A state with the same groups. -/
theorem Stat.rest {r x : State} (h : Stat r x)
    {img clk parts fab xfes xlt mem noc sites home ports cols host vis sec lcs dbg pwr thm mgt trc prfUp prfMir prfPeer siteAck mbxH mbxF indH
      indF indMem regs free out pending stopped heartbeat pin modeRead thresh cause causeGrp causeBit escal} :
    Stat r ⟨img, clk, parts, fab, xfes, xlt, mem, noc, sites, home, ports, cols, host, vis, sec, lcs, dbg, pwr, thm,
      ⟨x.flt.groups, stopped, heartbeat, pin, modeRead, thresh, cause, causeGrp, causeBit, escal⟩, mgt, trc, prfUp, prfMir, prfPeer, siteAck,
      mbxH, mbxF, indH, indF, indMem, regs, free, out, pending⟩ :=
  h.trans ⟨fun w => ⟨w, fun _ => rfl⟩⟩

/-- A group changes in other registers. -/
theorem Stat.setGrp {r s : State} {g : Nat} {x : FGroup} (h : Stat r s) (e : x.status = (s.grp g).status) : Stat r (s.setGrp g x) :=
  h.trans ⟨fun w => ⟨Tab.rises_set w _ _, fun k => by
    by_cases hk : k = g
    · subst hk
      exact (congrArg FGroup.status (Tab.get_set_rises w k x)).trans e
    · exact congrArg FGroup.status (Tab.get_set_rises_other w hk x)⟩⟩

theorem Stat.ite {r a b : State} {p : Prop} [Decidable p] (ha : Stat r a) (hb : Stat r b) : Stat r (if p then a else b) := by
  split <;> assumption

theorem Stat.foldl {α : Type} {f : State → α → State} {r : State} (hf : ∀ x a, Stat r x → Stat r (f x a)) :
    ∀ {l : List α} {s : State}, Stat r s → Stat r (l.foldl f s)
  | [], _, h => h
  | a :: l, _, h => Stat.foldl hf (l := l) (hf _ a h)

theorem Stat.foldl2 {α β : Type} {f : β × State → α → β × State} {r : State} (hf : ∀ x a, Stat r x.2 → Stat r (f x a).2) :
    ∀ {l : List α} {x : β × State}, Stat r x.2 → Stat r (l.foldl f x).2
  | [], _, h => h
  | a :: l, _, h => Stat.foldl2 hf (l := l) (hf _ a h)

theorem Stat.snd {α : Type} {r t : State} {p : α × State} {a : α} (e : p = (a, t)) (h : Stat r p.2) : Stat r t := by
  subst e; exact h

end Sys2Proof.Laws
end

