-- ==== Sys2Proof/Laws/StatOps.lean ====
section
/-! SUPPORT. What the operations of `Machine/Ops.lean` leave: one lemma each. -/
namespace Sys2Proof.Laws
open Sys2Proof Sys2Proof.Machine Sys2Proof.Safety
set_option linter.unreachableTactic false
set_option linter.unusedTactic false

theorem stat_drawFree {r0 : State} {w : Nat} {s : State} (hk : Stat r0 s) :
    Stat r0 (State.drawFree s w).2 := by
  unfold State.drawFree
  repeat' first | intro _ | exact rfl | (with_reducible first | assumption | apply Stat.ite | fail_if_no_progress apply Stat.rest) | dsimp only | split

theorem stat_spend {r0 : State} {s : State} (hk : Stat r0 s) :
    Stat r0 (State.spend s) := by
  unfold State.spend
  repeat' first | intro _ | exact rfl | (with_reducible first | assumption | apply Stat.ite | fail_if_no_progress apply Stat.rest) | dsimp only | split

theorem stat_emit {r0 : State} {e : Emit} {s : State} (hk : Stat r0 s) :
    Stat r0 (State.emit s e) := by
  unfold State.emit
  repeat' first | intro _ | exact rfl | (with_reducible first | assumption | apply Stat.ite | fail_if_no_progress apply Stat.rest) | dsimp only | split

theorem stat_emits {r0 : State} {es : List Emit} {s : State} (hk : Stat r0 s) :
    Stat r0 (State.emits s es) := by
  unfold State.emits
  repeat' first | intro _ | exact rfl | (with_reducible first | assumption | apply stat_emit | apply Stat.ite | apply Stat.foldl | apply Stat.foldl2 | fail_if_no_progress apply Stat.rest) | dsimp only | split

theorem stat_writeLog {r0 : State} {src sev cls ev a0 a1 : Nat} {s : State} (hk : Stat r0 s) :
    Stat r0 (writeLog src sev cls ev a0 a1 s) := by
  unfold writeLog
  repeat' first | intro _ | exact rfl | (with_reducible first | assumption | apply Stat.ite | fail_if_no_progress apply Stat.rest) | dsimp only | split

theorem stat_setPart {r0 : State} {p : Nat} {x : Part} {s : State} (hk : Stat r0 s) :
    Stat r0 (State.setPart s p x) := by
  unfold State.setPart
  repeat' first | intro _ | exact rfl | (with_reducible first | assumption | apply Stat.ite | fail_if_no_progress apply Stat.rest) | dsimp only | split

theorem stat_modPart {r0 : State} {p : Nat} {f : Part → Part} {s : State} (hk : Stat r0 s) :
    Stat r0 (State.modPart s p f) := by
  unfold State.modPart
  repeat' first | intro _ | exact rfl | (with_reducible first | assumption | apply stat_setPart | apply Stat.ite | fail_if_no_progress apply Stat.rest) | dsimp only | split

theorem stat_setCell {r0 : State} {n : Nat} {x : Cell} {s : State} (hk : Stat r0 s) :
    Stat r0 (State.setCell s n x) := by
  unfold State.setCell
  repeat' first | intro _ | exact rfl | (with_reducible first | assumption | apply Stat.ite | fail_if_no_progress apply Stat.rest) | dsimp only | split

theorem stat_setCol {r0 : State} {k : Nat} {x : Column} {s : State} (hk : Stat r0 s) :
    Stat r0 (State.setCol s k x) := by
  unfold State.setCol
  repeat' first | intro _ | exact rfl | (with_reducible first | assumption | apply Stat.ite | fail_if_no_progress apply Stat.rest) | dsimp only | split

theorem stat_setQuad {r0 : State} {q : Nat} {x : Quadrant} {s : State} (hk : Stat r0 s) :
    Stat r0 (State.setQuad s q x) := by
  unfold State.setQuad
  repeat' first | intro _ | exact rfl | (with_reducible first | assumption | apply Stat.ite | fail_if_no_progress apply Stat.rest) | dsimp only | split

theorem stat_setXfe {r0 : State} {e : Nat} {x : Xfe} {s : State} (hk : Stat r0 s) :
    Stat r0 (State.setXfe s e x) := by
  unfold State.setXfe
  repeat' first | intro _ | exact rfl | (with_reducible first | assumption | apply Stat.ite | fail_if_no_progress apply Stat.rest) | dsimp only | split

theorem stat_setBank {r0 : State} {b : Nat} {x : Bank} {s : State} (hk : Stat r0 s) :
    Stat r0 (State.setBank s b x) := by
  unfold State.setBank
  repeat' first | intro _ | exact rfl | (with_reducible first | assumption | apply Stat.ite | fail_if_no_progress apply Stat.rest) | dsimp only | split

theorem stat_setChan {r0 : State} {c : Nat} {x : Chan} {s : State} (hk : Stat r0 s) :
    Stat r0 (State.setChan s c x) := by
  unfold State.setChan
  repeat' first | intro _ | exact rfl | (with_reducible first | assumption | apply Stat.ite | fail_if_no_progress apply Stat.rest) | dsimp only | split

theorem stat_setStack {r0 : State} {m : Nat} {x : Stack} {s : State} (hk : Stat r0 s) :
    Stat r0 (State.setStack s m x) := by
  unfold State.setStack
  repeat' first | intro _ | exact rfl | (with_reducible first | assumption | apply Stat.ite | fail_if_no_progress apply Stat.rest) | dsimp only | split

theorem stat_setGranule {r0 : State} {g : Nat} {x : Granule} {s : State} (hk : Stat r0 s) :
    Stat r0 (State.setGranule s g x) := by
  unfold State.setGranule
  repeat' first | intro _ | exact rfl | (with_reducible first | assumption | apply Stat.ite | fail_if_no_progress apply Stat.rest) | dsimp only | split

theorem stat_setSite {r0 : State} {n : Nat} {x : Site} {s : State} (hk : Stat r0 s) :
    Stat r0 (State.setSite s n x) := by
  unfold State.setSite
  repeat' first | intro _ | exact rfl | (with_reducible first | assumption | apply Stat.ite | fail_if_no_progress apply Stat.rest) | dsimp only | split

theorem stat_modSite {r0 : State} {n : Nat} {f : Site → Site} {s : State} (hk : Stat r0 s) :
    Stat r0 (State.modSite s n f) := by
  unfold State.modSite
  repeat' first | intro _ | exact rfl | (with_reducible first | assumption | apply stat_setSite | apply Stat.ite | fail_if_no_progress apply Stat.rest) | dsimp only | split

theorem stat_setPort {r0 : State} {n : Nat} {x : Port} {s : State} (hk : Stat r0 s) :
    Stat r0 (State.setPort s n x) := by
  unfold State.setPort
  repeat' first | intro _ | exact rfl | (with_reducible first | assumption | apply Stat.ite | fail_if_no_progress apply Stat.rest) | dsimp only | split

theorem stat_setCunit {r0 : State} {c : Nat} {x : Col} {s : State} (hk : Stat r0 s) :
    Stat r0 (State.setCunit s c x) := by
  unfold State.setCunit
  repeat' first | intro _ | exact rfl | (with_reducible first | assumption | apply Stat.ite | fail_if_no_progress apply Stat.rest) | dsimp only | split

theorem stat_setVi {r0 : State} {v : Nat} {x : Vi} {s : State} (hk : Stat r0 s) :
    Stat r0 (State.setVi s v x) := by
  unfold State.setVi
  repeat' first | intro _ | exact rfl | (with_reducible first | assumption | apply Stat.ite | fail_if_no_progress apply Stat.rest) | dsimp only | split

theorem stat_modVi {r0 : State} {v : Nat} {f : Vi → Vi} {s : State} (hk : Stat r0 s) :
    Stat r0 (State.modVi s v f) := by
  unfold State.modVi
  repeat' first | intro _ | exact rfl | (with_reducible first | assumption | apply stat_setVi | apply Stat.ite | fail_if_no_progress apply Stat.rest) | dsimp only | split

theorem stat_setSeal {r0 : State} {v : Nat} {x : Seal} {s : State} (hk : Stat r0 s) :
    Stat r0 (State.setSeal s v x) := by
  unfold State.setSeal
  repeat' first | intro _ | exact rfl | (with_reducible first | assumption | apply Stat.ite | fail_if_no_progress apply Stat.rest) | dsimp only | split

theorem stat_setGrp {r0 : State} {g : Nat} {x : FGroup} {s : State} (hk : Stat r0 s) (e : x.status = (s.grp g).status) :
    Stat r0 (s.setGrp g x) := Stat.setGrp hk e

theorem stat_setTile {r0 : State} {t : Nat} {x : Tile} {s : State} (hk : Stat r0 s) :
    Stat r0 (State.setTile s t x) := by
  unfold State.setTile
  repeat' first | intro _ | exact rfl | (with_reducible first | assumption | apply Stat.ite | fail_if_no_progress apply Stat.rest) | dsimp only | split

theorem stat_setRegion {r0 : State} {r : Nat} {x : Region} {s : State} (hk : Stat r0 s) :
    Stat r0 (State.setRegion s r x) := by
  unfold State.setRegion
  repeat' first | intro _ | exact rfl | (with_reducible first | assumption | apply Stat.ite | fail_if_no_progress apply Stat.rest) | dsimp only | split

theorem stat_setQport {r0 : State} {port part : Nat} {x : QosPort} {s : State} (hk : Stat r0 s) :
    Stat r0 (State.setQport s port part x) := by
  unfold State.setQport
  repeat' first | intro _ | exact rfl | (with_reducible first | assumption | apply Stat.ite | fail_if_no_progress apply Stat.rest) | dsimp only | split

theorem stat_setQpart {r0 : State} {p : Nat} {x : QosPart} {s : State} (hk : Stat r0 s) :
    Stat r0 (State.setQpart s p x) := by
  unfold State.setQpart
  repeat' first | intro _ | exact rfl | (with_reducible first | assumption | apply Stat.ite | fail_if_no_progress apply Stat.rest) | dsimp only | split

theorem stat_setReg {r0 : State} {addr : Nat} {d v : Word} {s : State} (hk : Stat r0 s) :
    Stat r0 (State.setReg s addr d v) := by
  unfold State.setReg
  repeat' first | intro _ | exact rfl | (with_reducible first | assumption | apply Stat.ite | fail_if_no_progress apply Stat.rest) | dsimp only | split

theorem stat_traceAt {r0 : State} {point : Nat} {part : Option Nat} {s : State} (hk : Stat r0 s) :
    Stat r0 (traceAt point part s) := by
  unfold traceAt
  repeat' first | intro _ | exact rfl | (with_reducible first | assumption | apply Stat.ite | fail_if_no_progress apply Stat.rest) | dsimp only | split

theorem stat_geljaTo {r0 : State} {n op : Nat} {m : GMsg} {s : State} (hk : Stat r0 s) :
    Stat r0 (geljaTo n op m s) := by
  unfold geljaTo
  repeat' first | intro _ | exact rfl | (with_reducible first | assumption | apply stat_emit | apply Stat.ite | fail_if_no_progress apply Stat.rest) | dsimp only | split

theorem stat_sendHold {r0 : State} {p floor reason : Nat} {s : State} (hk : Stat r0 s) :
    Stat r0 (sendHold p floor reason s) := by
  unfold sendHold
  repeat' first | intro _ | exact rfl | (with_reducible first | assumption | apply stat_geljaTo | apply Stat.ite | apply Stat.foldl | apply Stat.foldl2 | fail_if_no_progress apply Stat.rest) | dsimp only | split

theorem stat_stateInts {r0 : State} {p : Nat} {s : State} (hk : Stat r0 s) :
    Stat r0 (stateInts p s) := by
  unfold stateInts
  repeat' first | intro _ | exact rfl | (with_reducible first | assumption | apply stat_modVi | apply Stat.ite | apply Stat.foldl | apply Stat.foldl2 | fail_if_no_progress apply Stat.rest) | dsimp only | split

theorem stat_setPState {r0 : State} {p : Nat} {st : PState} {h : Hold} {s : State} (hk : Stat r0 s) :
    Stat r0 (setPState p st h s) := by
  unfold setPState
  repeat' first | intro _ | exact rfl | (with_reducible first | assumption | apply stat_modPart | apply stat_sendHold | apply stat_stateInts | apply Stat.ite | fail_if_no_progress apply Stat.rest) | dsimp only | split

theorem stat_setDomain {r0 : State} {n : Nat} {on : Bool} {s : State} (hk : Stat r0 s) :
    Stat r0 (setDomain n on s) := by
  unfold setDomain
  repeat' first | intro _ | exact rfl | (with_reducible first | assumption | apply Stat.ite | fail_if_no_progress apply Stat.rest) | dsimp only | split

theorem stat_markFlag {r0 : State} {p bit : Nat} {s : State} (hk : Stat r0 s) :
    Stat r0 (markFlag p bit s) := by
  unfold markFlag
  repeat' first | intro _ | exact rfl | (with_reducible first | assumption | apply stat_modPart | apply Stat.ite | fail_if_no_progress apply Stat.rest) | dsimp only | split

theorem stat_modReq {r0 : State} {tag : Nat} {f : Req → Req} {s : State} (hk : Stat r0 s) :
    Stat r0 (State.modReq s tag f) := by
  unfold State.modReq
  repeat' first | intro _ | exact rfl | (with_reducible first | assumption | apply Stat.ite | fail_if_no_progress apply Stat.rest) | dsimp only | split

theorem stat_dropReq {r0 : State} {tag : Nat} {s : State} (hk : Stat r0 s) :
    Stat r0 (State.dropReq s tag) := by
  unfold State.dropReq
  repeat' first | intro _ | exact rfl | (with_reducible first | assumption | apply Stat.ite | fail_if_no_progress apply Stat.rest) | dsimp only | split

theorem stat_setMeas {r0 : State} {idx : Nat} {v : List Byte} {s : State} (hk : Stat r0 s) :
    Stat r0 (setMeas idx v s) := by
  unfold setMeas
  repeat' first | intro _ | exact rfl | (with_reducible first | assumption | apply stat_modVi | apply stat_setSeal | apply Stat.ite | apply Stat.foldl | apply Stat.foldl2 | fail_if_no_progress apply Stat.rest) | dsimp only | split

end Sys2Proof.Laws
end

