-- ==== Sys2Proof/Laws/StatMemOps.lean ====
section
/-! SUPPORT. What the operations of `Machine/MemOps.lean` leave: one lemma each. -/
namespace Sys2Proof.Laws
open Sys2Proof Sys2Proof.Machine Sys2Proof.Safety
set_option linter.unreachableTactic false
set_option linter.unusedTactic false

theorem stat_memPut {r0 : State} {g pa : Nat} {bs : List Byte} {poison : Bool} {s : State} (hk : Stat r0 s) :
    Stat r0 (memPut s g pa bs poison) := by
  unfold memPut
  repeat' first | intro _ | exact rfl | (with_reducible first | assumption | apply stat_setGranule | apply Stat.ite | fail_if_no_progress apply Stat.rest) | dsimp only | split

theorem stat_memPutBe {r0 : State} {g pa : Nat} {bs : List Byte} {be : Nat} {poison : Bool} {s : State} (hk : Stat r0 s) :
    Stat r0 (memPutBe s g pa bs be poison) := by
  unfold memPutBe
  repeat' first | intro _ | exact rfl | (with_reducible first | assumption | apply stat_setGranule | apply Stat.ite | fail_if_no_progress apply Stat.rest) | dsimp only | split

theorem stat_markLines {r0 : State} {ls : List Nat} {s : State} (hk : Stat r0 s) :
    Stat r0 (markLines ls s) := by
  unfold markLines
  repeat' first | intro _ | exact rfl | (with_reducible first | assumption | apply Stat.ite | apply Stat.foldl | apply Stat.foldl2 | fail_if_no_progress apply Stat.rest) | dsimp only | split

theorem stat_zeroGranule {r0 : State} {g : Nat} {s : State} (hk : Stat r0 s) :
    Stat r0 (zeroGranule g s) := by
  unfold zeroGranule
  repeat' first | intro _ | exact rfl | (with_reducible first | assumption | apply stat_setGranule | apply Stat.ite | fail_if_no_progress apply Stat.rest) | dsimp only | split

theorem stat_bufFill {r0 : State} {unit : Nat} {e : XlEntry} {s : State} (hk : Stat r0 s) :
    Stat r0 (bufFill unit e s) := by
  unfold bufFill
  repeat' first | intro _ | exact rfl | (with_reducible first | assumption | apply Stat.ite | fail_if_no_progress apply Stat.rest) | dsimp only | split

theorem stat_xlFill {r0 : State} {unit : Nat} {e : XlEntry} {s : State} (hk : Stat r0 s) :
    Stat r0 (xlFill unit e s) := by
  unfold xlFill
  repeat' first | intro _ | exact rfl | (with_reducible first | assumption | apply stat_bufFill | apply Stat.ite | fail_if_no_progress apply Stat.rest) | dsimp only | split

theorem stat_xlDrop {r0 : State} {f : XlEntry → Bool} {s : State} (hk : Stat r0 s) :
    Stat r0 (xlDrop f s) := by
  unfold xlDrop
  repeat' first | intro _ | exact rfl | (with_reducible first | assumption | apply Stat.ite | fail_if_no_progress apply Stat.rest) | dsimp only | split

theorem stat_xlForget {r0 : State} {ctx : Nat} {s : State} (hk : Stat r0 s) :
    Stat r0 (xlForget ctx s) := by
  unfold xlForget
  repeat' first | intro _ | exact rfl | (with_reducible first | assumption | apply stat_xlDrop | apply Stat.ite | fail_if_no_progress apply Stat.rest) | dsimp only | split

theorem stat_noteXlat {r0 : State} {unit ctx dva : Nat} {s : State} (hk : Stat r0 s) :
    Stat r0 (noteXlat unit ctx dva s) := by
  unfold noteXlat
  repeat' first | intro _ | exact rfl | (with_reducible first | assumption | apply stat_bufFill | apply stat_xlFill | apply Stat.ite | fail_if_no_progress apply Stat.rest) | dsimp only | split

end Sys2Proof.Laws
end

