-- ==== Sys2Proof/Laws/StatTokens.lean ====
section
/-! SUPPORT. What the operations of `Machine/Tokens.lean` leave: one lemma each. -/
namespace Sys2Proof.Laws
open Sys2Proof Sys2Proof.Machine Sys2Proof.Safety
set_option linter.unreachableTactic false
set_option linter.unusedTactic false

theorem stat_sendToken {r0 : State} {port : Nat} {t : Token} {s : State} (hk : Stat r0 s) :
    Stat r0 (sendToken port t s) := by
  unfold sendToken
  repeat' first | intro _ | exact rfl | (with_reducible first | assumption | apply stat_emit | apply stat_traceAt | apply Stat.ite | apply Stat.foldl | apply Stat.foldl2 | fail_if_no_progress apply Stat.rest) | dsimp only | split

theorem stat_sendCredit {r0 : State} {port part n : Nat} {s : State} (hk : Stat r0 s) :
    Stat r0 (sendCredit port part n s) := by
  unfold sendCredit
  repeat' first | intro _ | exact rfl | (with_reducible first | assumption | apply stat_emit | apply stat_setPort | apply Stat.ite | fail_if_no_progress apply Stat.rest) | dsimp only | split

theorem stat_sendAborts {r0 : State} {c : Nat} {o : COp} {s : State} (hk : Stat r0 s) :
    Stat r0 (sendAborts c o s) := by
  unfold sendAborts
  repeat' first | intro _ | exact rfl | (with_reducible first | assumption | apply stat_emit | apply stat_setPort | apply Stat.ite | apply Stat.foldl | apply Stat.foldl2 | fail_if_no_progress apply Stat.rest) | dsimp only | split

end Sys2Proof.Laws
end

