-- ==== Sys2Proof/Laws/StatFence.lean ====
section
/-! SUPPORT. What the operations of `Machine/Fence.lean` leave: one lemma each. -/
namespace Sys2Proof.Laws
open Sys2Proof Sys2Proof.Machine Sys2Proof.Safety
set_option linter.unreachableTactic false
set_option linter.unusedTactic false

theorem stat_sendSnoop {r0 : State} {op line n : Nat} {s : State} (hk : Stat r0 s) :
    Stat r0 (sendSnoop op line n s) := by
  unfold sendSnoop
  repeat' first | intro _ | exact rfl | (with_reducible first | assumption | apply stat_emit | apply stat_setSite | apply stat_geljaTo | apply Stat.ite | fail_if_no_progress apply Stat.rest) | dsimp only | split

theorem stat_drainSnoops {r0 : State} {n : Nat} {s : State} (hk : Stat r0 s) :
    Stat r0 (drainSnoops n s) := by
  unfold drainSnoops
  repeat' first | intro _ | exact rfl | (with_reducible first | assumption | apply stat_modSite | apply stat_sendSnoop | apply Stat.ite | apply Stat.foldl | apply Stat.foldl2 | fail_if_no_progress apply Stat.rest) | dsimp only | split

theorem stat_backInval {r0 : State} {why line : Nat} {s : State} (hk : Stat r0 s) :
    Stat r0 (backInval why line s) := by
  unfold backInval
  repeat' first | intro _ | exact rfl | (with_reducible first | assumption | apply stat_sendSnoop | apply Stat.ite | apply Stat.foldl | apply Stat.foldl2 | fail_if_no_progress apply Stat.rest) | dsimp only | split

theorem stat_backInvalRange {r0 : State} {lo hi : Nat} {s : State} (hk : Stat r0 s) :
    Stat r0 (backInvalRange lo hi s) := by
  unfold backInvalRange
  repeat' first | intro _ | exact rfl | (with_reducible first | assumption | apply stat_backInval | apply Stat.ite | apply Stat.foldl | apply Stat.foldl2 | fail_if_no_progress apply Stat.rest) | dsimp only | split

theorem stat_flushSite {r0 : State} {n : Nat} {s : State} (hk : Stat r0 s) :
    Stat r0 (flushSite n s) := by
  unfold flushSite
  repeat' first | intro _ | exact rfl | (with_reducible first | assumption | apply stat_modSite | apply stat_backInval | apply Stat.ite | apply Stat.foldl | apply Stat.foldl2 | fail_if_no_progress apply Stat.rest) | dsimp only | split

theorem stat_dropHolder {r0 : State} {n line : Nat} {s : State} (hk : Stat r0 s) :
    Stat r0 (dropHolder n line s) := by
  unfold dropHolder
  repeat' first | intro _ | exact rfl | (with_reducible first | assumption | apply Stat.ite | fail_if_no_progress apply Stat.rest) | dsimp only | split

theorem stat_settleWins {r0 : State} {s : State} (hk : Stat r0 s) :
    Stat r0 (settleWins s) := by
  unfold settleWins
  repeat' first | intro _ | exact rfl | (with_reducible first | assumption | apply Stat.ite | apply Stat.foldl | apply Stat.foldl2 | fail_if_no_progress apply Stat.rest) | dsimp only | split

theorem stat_freeGranule {r0 : State} {g : Nat} {s : State} (hk : Stat r0 s) :
    Stat r0 (freeGranule g s) := by
  unfold freeGranule
  repeat' first | intro _ | exact rfl | (with_reducible first | assumption | apply stat_setGranule | apply stat_zeroGranule | apply Stat.ite | fail_if_no_progress apply Stat.rest) | dsimp only | split

theorem stat_settleGrans {r0 : State} {s : State} (hk : Stat r0 s) :
    Stat r0 (settleGrans s) := by
  unfold settleGrans
  repeat' first | intro _ | exact rfl | (with_reducible first | assumption | apply stat_freeGranule | apply Stat.ite | apply Stat.foldl | apply Stat.foldl2 | fail_if_no_progress apply Stat.rest) | dsimp only | split

theorem stat_settleHome {r0 : State} {s : State} (hk : Stat r0 s) :
    Stat r0 (settleHome s) := by
  unfold settleHome
  repeat' first | intro _ | exact rfl | (with_reducible first | assumption | apply stat_settleWins | apply stat_settleGrans | apply Stat.ite | fail_if_no_progress apply Stat.rest) | dsimp only | split

theorem stat_releaseGran {r0 : State} {g : Nat} {s : State} (hk : Stat r0 s) :
    Stat r0 (releaseGran g s) := by
  unfold releaseGran
  repeat' first | intro _ | exact rfl | (with_reducible first | assumption | apply stat_backInvalRange | apply stat_freeGranule | apply stat_settleHome | apply Stat.ite | fail_if_no_progress apply Stat.rest) | dsimp only | split

theorem stat_dropSite {r0 : State} {n : Nat} {s : State} (hk : Stat r0 s) :
    Stat r0 (dropSite n s) := by
  unfold dropSite
  repeat' first | intro _ | exact rfl | (with_reducible first | assumption | apply stat_dropHolder | apply stat_settleHome | apply Stat.ite | apply Stat.foldl | apply Stat.foldl2 | fail_if_no_progress apply Stat.rest) | dsimp only | split

theorem stat_zeroCell {r0 : State} {n : Nat} {s : State} (hk : Stat r0 s) :
    Stat r0 (zeroCell n s) := by
  unfold zeroCell
  repeat' first | intro _ | exact rfl | (with_reducible first | assumption | apply stat_setCell | apply Stat.ite | fail_if_no_progress apply Stat.rest) | dsimp only | split

theorem stat_fenceCol {r0 : State} {k : Nat} {s : State} (hk : Stat r0 s) :
    Stat r0 (fenceCol k s) := by
  unfold fenceCol
  repeat' first | intro _ | exact rfl | (with_reducible first | assumption | apply stat_setCol | apply stat_traceAt | apply Stat.ite | fail_if_no_progress apply Stat.rest) | dsimp only | split

theorem stat_moveCell {r0 : State} {n : Nat} {s : State} (hk : Stat r0 s) :
    Stat r0 (moveCell n s) := by
  unfold moveCell
  repeat' first | intro _ | exact rfl | (with_reducible first | assumption | apply stat_setCell | apply Stat.ite | fail_if_no_progress apply Stat.rest) | dsimp only | split

theorem stat_remapCol {r0 : State} {k row : Nat} {s : State} (hk : Stat r0 s) :
    Stat r0 (remapCol k row s) := by
  unfold remapCol
  repeat' first | intro _ | exact rfl | (with_reducible first | assumption | apply stat_setCol | apply stat_traceAt | apply stat_fenceCol | apply stat_moveCell | apply Stat.ite | apply Stat.foldl | apply Stat.foldl2 | fail_if_no_progress apply Stat.rest) | dsimp only | split

theorem stat_markFence {r0 : State} {ps : List Nat} {s : State} (hk : Stat r0 s) :
    Stat r0 (markFence ps s) := by
  unfold markFence
  repeat' first | intro _ | exact rfl | (with_reducible first | assumption | apply stat_markFlag | apply Stat.ite | apply Stat.foldl | apply Stat.foldl2 | fail_if_no_progress apply Stat.rest) | dsimp only | split

theorem stat_fenceBank {r0 : State} {b : Nat} {s : State} (hk : Stat r0 s) :
    Stat r0 (fenceBank b s) := by
  unfold fenceBank
  repeat' first | intro _ | exact rfl | (with_reducible first | assumption | apply stat_setBank | apply Stat.ite | fail_if_no_progress apply Stat.rest) | dsimp only | split

theorem stat_readmitBank {r0 : State} {b : Nat} {s : State} (hk : Stat r0 s) :
    Stat r0 (readmitBank b s) := by
  unfold readmitBank
  repeat' first | intro _ | exact rfl | (with_reducible first | assumption | apply stat_setBank | apply Stat.ite | fail_if_no_progress apply Stat.rest) | dsimp only | split

theorem stat_fenceChan {r0 : State} {c : Nat} {s : State} (hk : Stat r0 s) :
    Stat r0 (fenceChan c s) := by
  unfold fenceChan
  repeat' first | intro _ | exact rfl | (with_reducible first | assumption | apply stat_setChan | apply Stat.ite | fail_if_no_progress apply Stat.rest) | dsimp only | split

theorem stat_readmitChan {r0 : State} {c : Nat} {s : State} (hk : Stat r0 s) :
    Stat r0 (readmitChan c s) := by
  unfold readmitChan
  repeat' first | intro _ | exact rfl | (with_reducible first | assumption | apply stat_setChan | apply stat_setStack | apply stat_setDomain | apply Stat.ite | fail_if_no_progress apply Stat.rest) | dsimp only | split

theorem stat_fenceStack {r0 : State} {m : Nat} {s : State} (hk : Stat r0 s) :
    Stat r0 (fenceStack m s) := by
  unfold fenceStack
  repeat' first | intro _ | exact rfl | (with_reducible first | assumption | apply stat_setStack | apply stat_setDomain | apply stat_fenceChan | apply Stat.ite | apply Stat.foldl | apply Stat.foldl2 | fail_if_no_progress apply Stat.rest) | dsimp only | split

theorem stat_fenceXfe {r0 : State} {e : Nat} {s : State} (hk : Stat r0 s) :
    Stat r0 (fenceXfe e s) := by
  unfold fenceXfe
  repeat' first | intro _ | exact rfl | (with_reducible first | assumption | apply stat_setXfe | apply Stat.ite | fail_if_no_progress apply Stat.rest) | dsimp only | split

theorem stat_readmitXfe {r0 : State} {e : Nat} {s : State} (hk : Stat r0 s) :
    Stat r0 (readmitXfe e s) := by
  unfold readmitXfe
  repeat' first | intro _ | exact rfl | (with_reducible first | assumption | apply stat_setXfe | apply Stat.ite | fail_if_no_progress apply Stat.rest) | dsimp only | split

theorem stat_fenceCunit {r0 : State} {c : Nat} {s : State} (hk : Stat r0 s) :
    Stat r0 (fenceCunit c s) := by
  unfold fenceCunit
  repeat' first | intro _ | exact rfl | (with_reducible first | assumption | apply stat_setCunit | apply Stat.ite | fail_if_no_progress apply Stat.rest) | dsimp only | split

theorem stat_readmitCunit {r0 : State} {c : Nat} {s : State} (hk : Stat r0 s) :
    Stat r0 (readmitCunit c s) := by
  unfold readmitCunit
  repeat' first | intro _ | exact rfl | (with_reducible first | assumption | apply stat_setCunit | apply Stat.ite | fail_if_no_progress apply Stat.rest) | dsimp only | split

theorem stat_fencePort {r0 : State} {n : Nat} {peer : Bool} {s : State} (hk : Stat r0 s) :
    Stat r0 (fencePort n peer s) := by
  unfold fencePort
  repeat' first | intro _ | exact rfl | (with_reducible first | assumption | apply stat_setPort | apply stat_traceAt | apply Stat.ite | fail_if_no_progress apply Stat.rest) | dsimp only | split

theorem stat_readmitPort {r0 : State} {n : Nat} {s : State} (hk : Stat r0 s) :
    Stat r0 (readmitPort n s) := by
  unfold readmitPort
  repeat' first | intro _ | exact rfl | (with_reducible first | assumption | apply stat_setPort | apply stat_traceAt | apply Stat.ite | fail_if_no_progress apply Stat.rest) | dsimp only | split

theorem stat_coreOff {r0 : State} {k : Nat} {s : State} (hk : Stat r0 s) :
    Stat r0 (coreOff k s) := by
  unfold coreOff
  repeat' first | intro _ | exact rfl | (with_reducible first | assumption | apply stat_modSite | apply stat_setDomain | apply Stat.ite | fail_if_no_progress apply Stat.rest) | dsimp only | split

theorem stat_offSite {r0 : State} {n : Nat} {s : State} (hk : Stat r0 s) :
    Stat r0 (offSite n s) := by
  unfold offSite
  repeat' first | intro _ | exact rfl | (with_reducible first | assumption | apply stat_modSite | apply stat_setDomain | apply stat_coreOff | apply Stat.ite | apply Stat.foldl | apply Stat.foldl2 | fail_if_no_progress apply Stat.rest) | dsimp only | split

theorem stat_failOuts {r0 : State} {n : Nat} {s : State} (hk : Stat r0 s) :
    Stat r0 (failOuts n s) := by
  unfold failOuts
  repeat' first | intro _ | exact rfl | (with_reducible first | assumption | apply stat_modSite | apply Stat.ite | fail_if_no_progress apply Stat.rest) | dsimp only | split

theorem stat_fenceSite {r0 : State} {n : Nat} {why : SReason} {flush : Bool} {s : State} (hk : Stat r0 s) :
    Stat r0 (fenceSite n why flush s) := by
  unfold fenceSite
  repeat' first | intro _ | exact rfl | (with_reducible first | assumption | apply stat_modSite | apply stat_traceAt | apply stat_flushSite | apply stat_offSite | apply stat_failOuts | apply Stat.ite | apply Stat.foldl | apply Stat.foldl2 | fail_if_no_progress apply Stat.rest) | dsimp only | split

theorem stat_requestXfeFence {r0 : State} {e : Nat} {s : State} (hk : Stat r0 s) :
    Stat r0 (requestXfeFence e s) := by
  unfold requestXfeFence
  repeat' first | intro _ | exact rfl | (with_reducible first | assumption | apply stat_setXfe | apply stat_fenceXfe | apply Stat.ite | fail_if_no_progress apply Stat.rest) | dsimp only | split

theorem stat_requestXfeReadmit {r0 : State} {e : Nat} {s : State} (hk : Stat r0 s) :
    Stat r0 (requestXfeReadmit e s) := by
  unfold requestXfeReadmit
  repeat' first | intro _ | exact rfl | (with_reducible first | assumption | apply stat_setXfe | apply stat_readmitXfe | apply Stat.ite | fail_if_no_progress apply Stat.rest) | dsimp only | split

theorem stat_requestCunitFence {r0 : State} {c : Nat} {s : State} (hk : Stat r0 s) :
    Stat r0 (requestCunitFence c s) := by
  unfold requestCunitFence
  repeat' first | intro _ | exact rfl | (with_reducible first | assumption | apply stat_setCunit | apply stat_fenceCunit | apply Stat.ite | fail_if_no_progress apply Stat.rest) | dsimp only | split

theorem stat_requestCunitReadmit {r0 : State} {c : Nat} {s : State} (hk : Stat r0 s) :
    Stat r0 (requestCunitReadmit c s) := by
  unfold requestCunitReadmit
  repeat' first | intro _ | exact rfl | (with_reducible first | assumption | apply stat_setCunit | apply stat_readmitCunit | apply Stat.ite | fail_if_no_progress apply Stat.rest) | dsimp only | split

theorem stat_requestBankFence {r0 : State} {b : Nat} {s : State} (hk : Stat r0 s) :
    Stat r0 (requestBankFence b s) := by
  unfold requestBankFence
  repeat' first | intro _ | exact rfl | (with_reducible first | assumption | apply stat_setBank | apply stat_fenceBank | apply Stat.ite | fail_if_no_progress apply Stat.rest) | dsimp only | split

theorem stat_requestBankReadmit {r0 : State} {b : Nat} {s : State} (hk : Stat r0 s) :
    Stat r0 (requestBankReadmit b s) := by
  unfold requestBankReadmit
  repeat' first | intro _ | exact rfl | (with_reducible first | assumption | apply stat_setBank | apply stat_readmitBank | apply Stat.ite | fail_if_no_progress apply Stat.rest) | dsimp only | split

theorem stat_requestChanFence {r0 : State} {c : Nat} {s : State} (hk : Stat r0 s) :
    Stat r0 (requestChanFence c s) := by
  unfold requestChanFence
  repeat' first | intro _ | exact rfl | (with_reducible first | assumption | apply stat_setChan | apply stat_fenceChan | apply Stat.ite | fail_if_no_progress apply Stat.rest) | dsimp only | split

theorem stat_requestChanReadmit {r0 : State} {c : Nat} {s : State} (hk : Stat r0 s) :
    Stat r0 (requestChanReadmit c s) := by
  unfold requestChanReadmit
  repeat' first | intro _ | exact rfl | (with_reducible first | assumption | apply stat_setChan | apply stat_setStack | apply stat_readmitChan | apply Stat.ite | fail_if_no_progress apply Stat.rest) | dsimp only | split

theorem stat_requestPortFence {r0 : State} {n : Nat} {s : State} (hk : Stat r0 s) :
    Stat r0 (requestPortFence n s) := by
  unfold requestPortFence
  repeat' first | intro _ | exact rfl | (with_reducible first | assumption | apply stat_setPort | apply stat_fencePort | apply Stat.ite | fail_if_no_progress apply Stat.rest) | dsimp only | split

theorem stat_requestPortReadmit {r0 : State} {n : Nat} {s : State} (hk : Stat r0 s) :
    Stat r0 (requestPortReadmit n s) := by
  unfold requestPortReadmit
  repeat' first | intro _ | exact rfl | (with_reducible first | assumption | apply stat_setPort | apply stat_readmitPort | apply Stat.ite | fail_if_no_progress apply Stat.rest) | dsimp only | split

theorem stat_requestSiteFence {r0 : State} {n : Nat} {why : SReason} {s : State} (hk : Stat r0 s) :
    Stat r0 (requestSiteFence n why s) := by
  unfold requestSiteFence
  repeat' first | intro _ | exact rfl | (with_reducible first | assumption | apply stat_setSite | apply stat_fenceSite | apply Stat.ite | fail_if_no_progress apply Stat.rest) | dsimp only | split

theorem stat_requestColFence {r0 : State} {k : Nat} {s : State} (hk : Stat r0 s) :
    Stat r0 (requestColFence k s) := by
  unfold requestColFence
  repeat' first | intro _ | exact rfl | (with_reducible first | assumption | apply stat_setCol | apply stat_fenceCol | apply Stat.ite | fail_if_no_progress apply Stat.rest) | dsimp only | split

theorem stat_requestColRemap {r0 : State} {k row : Nat} {s : State} (hk : Stat r0 s) :
    Stat r0 (requestColRemap k row s) := by
  unfold requestColRemap
  repeat' first | intro _ | exact rfl | (with_reducible first | assumption | apply stat_setCol | apply stat_remapCol | apply Stat.ite | fail_if_no_progress apply Stat.rest) | dsimp only | split

theorem stat_proofCols {r0 : State} {p : Nat} {s : State} (hk : Stat r0 s) :
    Stat r0 (proofCols p s) := by
  unfold proofCols
  repeat' first | intro _ | exact rfl | (with_reducible first | assumption | apply stat_markFlag | apply stat_fenceCol | apply stat_remapCol | apply Stat.ite | apply Stat.foldl | apply Stat.foldl2 | fail_if_no_progress apply Stat.rest) | dsimp only | split

theorem stat_proofUnits {r0 : State} {p : Nat} {s : State} (hk : Stat r0 s) :
    Stat r0 (proofUnits p s) := by
  unfold proofUnits
  repeat' first | intro _ | exact rfl | (with_reducible first | assumption | apply stat_setStack | apply stat_markFlag | apply stat_fenceBank | apply stat_readmitBank | apply stat_fenceChan | apply stat_readmitChan | apply stat_fenceXfe | apply stat_readmitXfe | apply stat_fenceCunit | apply stat_readmitCunit | apply Stat.ite | apply Stat.foldl | apply Stat.foldl2 | fail_if_no_progress apply Stat.rest) | dsimp only | split

theorem stat_proofPorts {r0 : State} {p : Nat} {s : State} (hk : Stat r0 s) :
    Stat r0 (proofPorts p s) := by
  unfold proofPorts
  repeat' first | intro _ | exact rfl | (with_reducible first | assumption | apply stat_setPort | apply stat_markFence | apply stat_fencePort | apply stat_readmitPort | apply Stat.ite | apply Stat.foldl | apply Stat.foldl2 | fail_if_no_progress apply Stat.rest) | dsimp only | split

theorem stat_proofSitesApply {r0 : State} {p : Nat} {s : State} (hk : Stat r0 s) :
    Stat r0 (proofSitesApply p s) := by
  unfold proofSitesApply
  repeat' first | intro _ | exact rfl | (with_reducible first | assumption | apply stat_modSite | apply stat_setDomain | apply stat_markFlag | apply stat_offSite | apply stat_fenceSite | apply Stat.ite | apply Stat.foldl | apply Stat.foldl2 | fail_if_no_progress apply Stat.rest) | dsimp only | split

theorem stat_applyProof {r0 : State} {p : Nat} {s : State} (hk : Stat r0 s) :
    Stat r0 (applyProof p s) := by
  unfold applyProof
  repeat' first | intro _ | exact rfl | (with_reducible first | assumption | apply stat_proofCols | apply stat_proofUnits | apply stat_proofPorts | apply stat_proofSitesApply | apply Stat.ite | fail_if_no_progress apply Stat.rest) | dsimp only | split

theorem stat_settleArmed {r0 : State} {p : Nat} {s : State} (hk : Stat r0 s) :
    Stat r0 (settleArmed p s) := by
  unfold settleArmed
  repeat' first | intro _ | exact rfl | (with_reducible first | assumption | apply stat_modPart | apply stat_applyProof | apply Stat.ite | fail_if_no_progress apply Stat.rest) | dsimp only | split

end Sys2Proof.Laws
end

