-- ==== Sys2Proof/Laws/StatFlags.lean ====
section
/-! SUPPORT. What the operations of `Machine/Flags.lean` leave: one lemma each. -/
namespace Sys2Proof.Laws
open Sys2Proof Sys2Proof.Machine Sys2Proof.Safety
set_option linter.unreachableTactic false
set_option linter.unusedTactic false

theorem stat_refreshPin {r0 : State} {s : State} (hk : Stat r0 s) :
    Stat r0 (refreshPin s) := by
  unfold refreshPin
  repeat' first | intro _ | exact rfl | (with_reducible first | assumption | apply stat_emit | apply Stat.ite | fail_if_no_progress apply Stat.rest) | dsimp only | split

theorem stat_refreshInt {r0 : State} {s : State} (hk : Stat r0 s) :
    Stat r0 (refreshInt s) := by
  unfold refreshInt
  repeat' first | intro _ | exact rfl | (with_reducible first | assumption | apply stat_emit | apply Stat.ite | fail_if_no_progress apply Stat.rest) | dsimp only | split

theorem stat_refresh {r0 : State} {s : State} (hk : Stat r0 s) :
    Stat r0 (refresh s) := by
  unfold refresh
  repeat' first | intro _ | exact rfl | (with_reducible first | assumption | apply stat_refreshPin | apply stat_refreshInt | apply Stat.ite | fail_if_no_progress apply Stat.rest) | dsimp only | split

theorem stat_holdEntry {r0 : State} {v tag : Nat} {st : Status} {detail : Nat} {s : State} (hk : Stat r0 s) :
    Stat r0 (holdEntry v tag st detail s) := by
  unfold holdEntry
  repeat' first | intro _ | exact rfl | (with_reducible first | assumption | apply stat_setVi | apply Stat.ite | fail_if_no_progress apply Stat.rest) | dsimp only | split

theorem stat_endSource {r0 : State} {src : XSource} {st : Status} {detail : Nat} {s : State} (hk : Stat r0 s) :
    Stat r0 (endSource src st detail s) := by
  unfold endSource
  repeat' first | intro _ | exact rfl | (with_reducible first | assumption | apply stat_holdEntry | apply Stat.ite | fail_if_no_progress apply Stat.rest) | dsimp only | split

theorem stat_stopXfe {r0 : State} {e : Nat} {s : State} (hk : Stat r0 s) :
    Stat r0 (stopXfe e s) := by
  unfold stopXfe
  repeat' first | intro _ | exact rfl | (with_reducible first | assumption | apply stat_setXfe | apply stat_endSource | apply Stat.ite | apply Stat.foldl | apply Stat.foldl2 | fail_if_no_progress apply Stat.rest) | dsimp only | split

theorem stat_stopCunit {r0 : State} {c : Nat} {s : State} (hk : Stat r0 s) :
    Stat r0 (stopCunit c s) := by
  unfold stopCunit
  repeat' first | intro _ | exact rfl | (with_reducible first | assumption | apply stat_setCunit | apply stat_sendAborts | apply Stat.ite | fail_if_no_progress apply Stat.rest) | dsimp only | split

theorem stat_dropSlots {r0 : State} {p : Nat} {s : State} (hk : Stat r0 s) :
    Stat r0 (dropSlots p s) := by
  unfold dropSlots
  repeat' first | intro _ | exact rfl | (with_reducible first | assumption | apply stat_setPort | apply stat_sendCredit | apply Stat.ite | apply Stat.foldl | apply Stat.foldl2 | fail_if_no_progress apply Stat.rest) | dsimp only | split

theorem stat_askZero {r0 : State} {gs : List Nat} {s : State} (hk : Stat r0 s) :
    Stat r0 (askZero gs s) := by
  unfold askZero
  repeat' first | intro _ | exact rfl | (with_reducible first | assumption | apply Stat.ite | fail_if_no_progress apply Stat.rest) | dsimp only | split

theorem stat_zeroCols {r0 : State} {p : Nat} {s : State} (hk : Stat r0 s) :
    Stat r0 (zeroCols p s) := by
  unfold zeroCols
  repeat' first | intro _ | exact rfl | (with_reducible first | assumption | apply stat_zeroCell | apply Stat.ite | apply Stat.foldl | apply Stat.foldl2 | fail_if_no_progress apply Stat.rest) | dsimp only | split

theorem stat_endSession {r0 : State} {v reason : Nat} {s : State} (hk : Stat r0 s) :
    Stat r0 (endSession v reason s) := by
  unfold endSession
  repeat' first | intro _ | exact rfl | (with_reducible first | assumption | apply stat_modVi | apply stat_setSeal | apply stat_askZero | apply stat_zeroCols | apply Stat.ite | fail_if_no_progress apply Stat.rest) | dsimp only | split

theorem stat_dropHeld {r0 : State} {p : Nat} {s : State} (hk : Stat r0 s) :
    Stat r0 (dropHeld p s) := by
  unfold dropHeld
  repeat' first | intro _ | exact rfl | (with_reducible first | assumption | apply stat_geljaTo | apply Stat.ite | apply Stat.foldl | apply Stat.foldl2 | fail_if_no_progress apply Stat.rest) | dsimp only | split

theorem stat_stopPartition {r0 : State} {p : Nat} {s : State} (hk : Stat r0 s) :
    Stat r0 (stopPartition p s) := by
  unfold stopPartition
  repeat' first | intro _ | exact rfl | (with_reducible first | assumption | apply stat_emit | apply stat_modPart | apply stat_modSite | apply stat_setPState | apply stat_settleArmed | apply stat_stopXfe | apply stat_stopCunit | apply stat_dropSlots | apply stat_endSession | apply stat_dropHeld | apply Stat.ite | apply Stat.foldl | apply Stat.foldl2 | fail_if_no_progress apply Stat.rest) | dsimp only | split

theorem stat_domainsOff {r0 : State} {s : State} (hk : Stat r0 s) :
    Stat r0 (domainsOff s) := by
  unfold domainsOff
  repeat' first | intro _ | exact rfl | (with_reducible first | assumption | apply Stat.ite | apply Stat.foldl | apply Stat.foldl2 | fail_if_no_progress apply Stat.rest) | dsimp only | split

theorem stat_breakAll {r0 : State} {s : State} (hk : Stat r0 s) :
    Stat r0 (breakAll s) := by
  unfold breakAll
  repeat' first | intro _ | exact rfl | (with_reducible first | assumption | apply stat_sendToken | apply Stat.ite | apply Stat.foldl | apply Stat.foldl2 | fail_if_no_progress apply Stat.rest) | dsimp only | split

theorem stat_dropPeel {r0 : State} {s : State} (hk : Stat r0 s) :
    Stat r0 (dropPeel s) := by
  unfold dropPeel
  repeat' first | intro _ | exact rfl | (with_reducible first | assumption | apply Stat.ite | fail_if_no_progress apply Stat.rest) | dsimp only | split

theorem stat_stopPackage {r0 : State} {cause group bit : Nat} {s : State} (hk : Stat r0 s) :
    Stat r0 (stopPackage cause group bit s) := by
  unfold stopPackage
  repeat' first | intro _ | exact rfl | (with_reducible first | assumption | apply stat_setGrp | apply stat_stopPartition | apply stat_domainsOff | apply stat_breakAll | apply stat_dropPeel | apply Stat.ite | apply Stat.foldl | apply Stat.foldl2 | fail_if_no_progress apply Stat.rest) | dsimp only | split

theorem stat_holdForFault {r0 : State} {p : Nat} {s : State} (hk : Stat r0 s) :
    Stat r0 (holdForFault p s) := by
  unfold holdForFault
  repeat' first | intro _ | exact rfl | (with_reducible first | assumption | apply stat_modPart | apply stat_setPState | apply stat_settleArmed | apply Stat.ite | fail_if_no_progress apply Stat.rest) | dsimp only | split

theorem stat_requestRepair {r0 : State} {pa : Nat} {s : State} (hk : Stat r0 s) :
    Stat r0 (requestRepair pa s) := by
  unfold requestRepair
  repeat' first | intro _ | exact rfl | (with_reducible first | assumption | apply Stat.ite | fail_if_no_progress apply Stat.rest) | dsimp only | split

theorem stat_syncColumn {r0 : State} {k : Nat} {s : State} (hk : Stat r0 s) :
    Stat r0 (syncColumn k s) := by
  unfold syncColumn
  repeat' first | intro _ | exact rfl | (with_reducible first | assumption | apply stat_setCell | apply Stat.ite | apply Stat.foldl | apply Stat.foldl2 | fail_if_no_progress apply Stat.rest) | dsimp only | split

theorem stat_killCell {r0 : State} {n : Nat} {s : State} (hk : Stat r0 s) :
    Stat r0 (killCell n s) := by
  unfold killCell
  repeat' first | intro _ | exact rfl | (with_reducible first | assumption | apply stat_setCell | apply stat_syncColumn | apply Stat.ite | fail_if_no_progress apply Stat.rest) | dsimp only | split

theorem stat_addFinding {r0 : State} {d : BitVec 32} {s : State} (hk : Stat r0 s) :
    Stat r0 (addFinding d s) := by
  unfold addFinding
  repeat' first | intro _ | exact rfl | (with_reducible first | assumption | apply Stat.ite | fail_if_no_progress apply Stat.rest) | dsimp only | split

theorem stat_fenceUnit {r0 : State} {g bit unit : Nat} {s : State} (hk : Stat r0 s) :
    Stat r0 (fenceUnit g bit unit s) := by
  unfold fenceUnit
  repeat' first | intro _ | exact rfl | (with_reducible first | assumption | apply stat_setCol | apply stat_requestXfeFence | apply stat_requestCunitFence | apply stat_requestChanFence | apply stat_requestPortFence | apply stat_requestSiteFence | apply stat_requestColFence | apply stat_requestColRemap | apply stat_requestRepair | apply stat_killCell | apply stat_addFinding | apply Stat.ite | fail_if_no_progress apply Stat.rest) | dsimp only | split

theorem stat_performAction {r0 : State} {g : Nat} {units : List (Nat × Nat)} {s : State} (hk : Stat r0 s) :
    Stat r0 (performAction g units s) := by
  unfold performAction
  repeat' first | intro _ | exact rfl | (with_reducible first | assumption | apply stat_holdForFault | apply stat_fenceUnit | apply Stat.ite | apply Stat.foldl | apply Stat.foldl2 | fail_if_no_progress apply Stat.rest) | dsimp only | split

theorem stat_settleGroup {r0 : State} {g : Nat} {s : State} (hk : Stat r0 s) :
    Stat r0 (settleGroup g s) := by
  unfold settleGroup
  repeat' first | intro _ | exact rfl | (with_reducible first | assumption | apply stat_setGrp | apply Stat.ite | fail_if_no_progress apply Stat.rest) | dsimp only | split

theorem stat_escalateOnce {r0 : State} {g : Nat} {s : State} (hk : Stat r0 s) :
    Stat r0 (escalateOnce g s).2 := by
  unfold escalateOnce
  repeat' first | intro _ | exact rfl | (with_reducible first | assumption | apply stat_setGrp | apply stat_performAction | apply Stat.ite | fail_if_no_progress apply Stat.rest) | dsimp only | split

end Sys2Proof.Laws
end

