-- ==== Sys2Proof/Laws/State.lean ====
section
/-! SUPPORT. What each update of the state leaves alone: one lemma per field per update, and what the refresh of the pins leaves. -/
namespace Sys2Proof.Machine
open Sys2Proof

@[simp] theorem State.setPart_img (s : State) (p : Nat) (x : Part) : (s.setPart p x).img = s.img := rfl
@[simp] theorem State.setPart_clk (s : State) (p : Nat) (x : Part) : (s.setPart p x).clk = s.clk := rfl
@[simp] theorem State.setPart_fab (s : State) (p : Nat) (x : Part) : (s.setPart p x).fab = s.fab := rfl
@[simp] theorem State.setPart_xfes (s : State) (p : Nat) (x : Part) : (s.setPart p x).xfes = s.xfes := rfl
@[simp] theorem State.setPart_xlt (s : State) (p : Nat) (x : Part) : (s.setPart p x).xlt = s.xlt := rfl
@[simp] theorem State.setPart_mem (s : State) (p : Nat) (x : Part) : (s.setPart p x).mem = s.mem := rfl
@[simp] theorem State.setPart_noc (s : State) (p : Nat) (x : Part) : (s.setPart p x).noc = s.noc := rfl
@[simp] theorem State.setPart_sites (s : State) (p : Nat) (x : Part) : (s.setPart p x).sites = s.sites := rfl
@[simp] theorem State.setPart_home (s : State) (p : Nat) (x : Part) : (s.setPart p x).home = s.home := rfl
@[simp] theorem State.setPart_ports (s : State) (p : Nat) (x : Part) : (s.setPart p x).ports = s.ports := rfl
@[simp] theorem State.setPart_cols (s : State) (p : Nat) (x : Part) : (s.setPart p x).cols = s.cols := rfl
@[simp] theorem State.setPart_host (s : State) (p : Nat) (x : Part) : (s.setPart p x).host = s.host := rfl
@[simp] theorem State.setPart_vis (s : State) (p : Nat) (x : Part) : (s.setPart p x).vis = s.vis := rfl
@[simp] theorem State.setPart_sec (s : State) (p : Nat) (x : Part) : (s.setPart p x).sec = s.sec := rfl
@[simp] theorem State.setPart_lcs (s : State) (p : Nat) (x : Part) : (s.setPart p x).lcs = s.lcs := rfl
@[simp] theorem State.setPart_dbg (s : State) (p : Nat) (x : Part) : (s.setPart p x).dbg = s.dbg := rfl
@[simp] theorem State.setPart_pwr (s : State) (p : Nat) (x : Part) : (s.setPart p x).pwr = s.pwr := rfl
@[simp] theorem State.setPart_thm (s : State) (p : Nat) (x : Part) : (s.setPart p x).thm = s.thm := rfl
@[simp] theorem State.setPart_flt (s : State) (p : Nat) (x : Part) : (s.setPart p x).flt = s.flt := rfl
@[simp] theorem State.setPart_mgt (s : State) (p : Nat) (x : Part) : (s.setPart p x).mgt = s.mgt := rfl
@[simp] theorem State.setPart_trc (s : State) (p : Nat) (x : Part) : (s.setPart p x).trc = s.trc := rfl
@[simp] theorem State.setPart_prfUp (s : State) (p : Nat) (x : Part) : (s.setPart p x).prfUp = s.prfUp := rfl
@[simp] theorem State.setPart_prfMir (s : State) (p : Nat) (x : Part) : (s.setPart p x).prfMir = s.prfMir := rfl
@[simp] theorem State.setPart_prfPeer (s : State) (p : Nat) (x : Part) : (s.setPart p x).prfPeer = s.prfPeer := rfl
@[simp] theorem State.setPart_siteAck (s : State) (p : Nat) (x : Part) : (s.setPart p x).siteAck = s.siteAck := rfl
@[simp] theorem State.setPart_mbxH (s : State) (p : Nat) (x : Part) : (s.setPart p x).mbxH = s.mbxH := rfl
@[simp] theorem State.setPart_mbxF (s : State) (p : Nat) (x : Part) : (s.setPart p x).mbxF = s.mbxF := rfl
@[simp] theorem State.setPart_indH (s : State) (p : Nat) (x : Part) : (s.setPart p x).indH = s.indH := rfl
@[simp] theorem State.setPart_indF (s : State) (p : Nat) (x : Part) : (s.setPart p x).indF = s.indF := rfl
@[simp] theorem State.setPart_indMem (s : State) (p : Nat) (x : Part) : (s.setPart p x).indMem = s.indMem := rfl
@[simp] theorem State.setPart_regs (s : State) (p : Nat) (x : Part) : (s.setPart p x).regs = s.regs := rfl
@[simp] theorem State.setPart_free (s : State) (p : Nat) (x : Part) : (s.setPart p x).free = s.free := rfl
@[simp] theorem State.setPart_out (s : State) (p : Nat) (x : Part) : (s.setPart p x).out = s.out := rfl
@[simp] theorem State.setPart_pending (s : State) (p : Nat) (x : Part) : (s.setPart p x).pending = s.pending := rfl

@[simp] theorem State.setXfe_img (s : State) (e : Nat) (x : Xfe) : (s.setXfe e x).img = s.img := rfl
@[simp] theorem State.setXfe_clk (s : State) (e : Nat) (x : Xfe) : (s.setXfe e x).clk = s.clk := rfl
@[simp] theorem State.setXfe_parts (s : State) (e : Nat) (x : Xfe) : (s.setXfe e x).parts = s.parts := rfl
@[simp] theorem State.setXfe_fab (s : State) (e : Nat) (x : Xfe) : (s.setXfe e x).fab = s.fab := rfl
@[simp] theorem State.setXfe_xlt (s : State) (e : Nat) (x : Xfe) : (s.setXfe e x).xlt = s.xlt := rfl
@[simp] theorem State.setXfe_mem (s : State) (e : Nat) (x : Xfe) : (s.setXfe e x).mem = s.mem := rfl
@[simp] theorem State.setXfe_noc (s : State) (e : Nat) (x : Xfe) : (s.setXfe e x).noc = s.noc := rfl
@[simp] theorem State.setXfe_sites (s : State) (e : Nat) (x : Xfe) : (s.setXfe e x).sites = s.sites := rfl
@[simp] theorem State.setXfe_home (s : State) (e : Nat) (x : Xfe) : (s.setXfe e x).home = s.home := rfl
@[simp] theorem State.setXfe_ports (s : State) (e : Nat) (x : Xfe) : (s.setXfe e x).ports = s.ports := rfl
@[simp] theorem State.setXfe_cols (s : State) (e : Nat) (x : Xfe) : (s.setXfe e x).cols = s.cols := rfl
@[simp] theorem State.setXfe_host (s : State) (e : Nat) (x : Xfe) : (s.setXfe e x).host = s.host := rfl
@[simp] theorem State.setXfe_vis (s : State) (e : Nat) (x : Xfe) : (s.setXfe e x).vis = s.vis := rfl
@[simp] theorem State.setXfe_sec (s : State) (e : Nat) (x : Xfe) : (s.setXfe e x).sec = s.sec := rfl
@[simp] theorem State.setXfe_lcs (s : State) (e : Nat) (x : Xfe) : (s.setXfe e x).lcs = s.lcs := rfl
@[simp] theorem State.setXfe_dbg (s : State) (e : Nat) (x : Xfe) : (s.setXfe e x).dbg = s.dbg := rfl
@[simp] theorem State.setXfe_pwr (s : State) (e : Nat) (x : Xfe) : (s.setXfe e x).pwr = s.pwr := rfl
@[simp] theorem State.setXfe_thm (s : State) (e : Nat) (x : Xfe) : (s.setXfe e x).thm = s.thm := rfl
@[simp] theorem State.setXfe_flt (s : State) (e : Nat) (x : Xfe) : (s.setXfe e x).flt = s.flt := rfl
@[simp] theorem State.setXfe_mgt (s : State) (e : Nat) (x : Xfe) : (s.setXfe e x).mgt = s.mgt := rfl
@[simp] theorem State.setXfe_trc (s : State) (e : Nat) (x : Xfe) : (s.setXfe e x).trc = s.trc := rfl
@[simp] theorem State.setXfe_prfUp (s : State) (e : Nat) (x : Xfe) : (s.setXfe e x).prfUp = s.prfUp := rfl
@[simp] theorem State.setXfe_prfMir (s : State) (e : Nat) (x : Xfe) : (s.setXfe e x).prfMir = s.prfMir := rfl
@[simp] theorem State.setXfe_prfPeer (s : State) (e : Nat) (x : Xfe) : (s.setXfe e x).prfPeer = s.prfPeer := rfl
@[simp] theorem State.setXfe_siteAck (s : State) (e : Nat) (x : Xfe) : (s.setXfe e x).siteAck = s.siteAck := rfl
@[simp] theorem State.setXfe_mbxH (s : State) (e : Nat) (x : Xfe) : (s.setXfe e x).mbxH = s.mbxH := rfl
@[simp] theorem State.setXfe_mbxF (s : State) (e : Nat) (x : Xfe) : (s.setXfe e x).mbxF = s.mbxF := rfl
@[simp] theorem State.setXfe_indH (s : State) (e : Nat) (x : Xfe) : (s.setXfe e x).indH = s.indH := rfl
@[simp] theorem State.setXfe_indF (s : State) (e : Nat) (x : Xfe) : (s.setXfe e x).indF = s.indF := rfl
@[simp] theorem State.setXfe_indMem (s : State) (e : Nat) (x : Xfe) : (s.setXfe e x).indMem = s.indMem := rfl
@[simp] theorem State.setXfe_regs (s : State) (e : Nat) (x : Xfe) : (s.setXfe e x).regs = s.regs := rfl
@[simp] theorem State.setXfe_free (s : State) (e : Nat) (x : Xfe) : (s.setXfe e x).free = s.free := rfl
@[simp] theorem State.setXfe_out (s : State) (e : Nat) (x : Xfe) : (s.setXfe e x).out = s.out := rfl
@[simp] theorem State.setXfe_pending (s : State) (e : Nat) (x : Xfe) : (s.setXfe e x).pending = s.pending := rfl

@[simp] theorem State.setSite_img (s : State) (n : Nat) (x : Site) : (s.setSite n x).img = s.img := rfl
@[simp] theorem State.setSite_clk (s : State) (n : Nat) (x : Site) : (s.setSite n x).clk = s.clk := rfl
@[simp] theorem State.setSite_parts (s : State) (n : Nat) (x : Site) : (s.setSite n x).parts = s.parts := rfl
@[simp] theorem State.setSite_fab (s : State) (n : Nat) (x : Site) : (s.setSite n x).fab = s.fab := rfl
@[simp] theorem State.setSite_xfes (s : State) (n : Nat) (x : Site) : (s.setSite n x).xfes = s.xfes := rfl
@[simp] theorem State.setSite_xlt (s : State) (n : Nat) (x : Site) : (s.setSite n x).xlt = s.xlt := rfl
@[simp] theorem State.setSite_mem (s : State) (n : Nat) (x : Site) : (s.setSite n x).mem = s.mem := rfl
@[simp] theorem State.setSite_noc (s : State) (n : Nat) (x : Site) : (s.setSite n x).noc = s.noc := rfl
@[simp] theorem State.setSite_home (s : State) (n : Nat) (x : Site) : (s.setSite n x).home = s.home := rfl
@[simp] theorem State.setSite_ports (s : State) (n : Nat) (x : Site) : (s.setSite n x).ports = s.ports := rfl
@[simp] theorem State.setSite_cols (s : State) (n : Nat) (x : Site) : (s.setSite n x).cols = s.cols := rfl
@[simp] theorem State.setSite_host (s : State) (n : Nat) (x : Site) : (s.setSite n x).host = s.host := rfl
@[simp] theorem State.setSite_vis (s : State) (n : Nat) (x : Site) : (s.setSite n x).vis = s.vis := rfl
@[simp] theorem State.setSite_sec (s : State) (n : Nat) (x : Site) : (s.setSite n x).sec = s.sec := rfl
@[simp] theorem State.setSite_lcs (s : State) (n : Nat) (x : Site) : (s.setSite n x).lcs = s.lcs := rfl
@[simp] theorem State.setSite_dbg (s : State) (n : Nat) (x : Site) : (s.setSite n x).dbg = s.dbg := rfl
@[simp] theorem State.setSite_pwr (s : State) (n : Nat) (x : Site) : (s.setSite n x).pwr = s.pwr := rfl
@[simp] theorem State.setSite_thm (s : State) (n : Nat) (x : Site) : (s.setSite n x).thm = s.thm := rfl
@[simp] theorem State.setSite_flt (s : State) (n : Nat) (x : Site) : (s.setSite n x).flt = s.flt := rfl
@[simp] theorem State.setSite_mgt (s : State) (n : Nat) (x : Site) : (s.setSite n x).mgt = s.mgt := rfl
@[simp] theorem State.setSite_trc (s : State) (n : Nat) (x : Site) : (s.setSite n x).trc = s.trc := rfl
@[simp] theorem State.setSite_prfUp (s : State) (n : Nat) (x : Site) : (s.setSite n x).prfUp = s.prfUp := rfl
@[simp] theorem State.setSite_prfMir (s : State) (n : Nat) (x : Site) : (s.setSite n x).prfMir = s.prfMir := rfl
@[simp] theorem State.setSite_prfPeer (s : State) (n : Nat) (x : Site) : (s.setSite n x).prfPeer = s.prfPeer := rfl
@[simp] theorem State.setSite_siteAck (s : State) (n : Nat) (x : Site) : (s.setSite n x).siteAck = s.siteAck := rfl
@[simp] theorem State.setSite_mbxH (s : State) (n : Nat) (x : Site) : (s.setSite n x).mbxH = s.mbxH := rfl
@[simp] theorem State.setSite_mbxF (s : State) (n : Nat) (x : Site) : (s.setSite n x).mbxF = s.mbxF := rfl
@[simp] theorem State.setSite_indH (s : State) (n : Nat) (x : Site) : (s.setSite n x).indH = s.indH := rfl
@[simp] theorem State.setSite_indF (s : State) (n : Nat) (x : Site) : (s.setSite n x).indF = s.indF := rfl
@[simp] theorem State.setSite_indMem (s : State) (n : Nat) (x : Site) : (s.setSite n x).indMem = s.indMem := rfl
@[simp] theorem State.setSite_regs (s : State) (n : Nat) (x : Site) : (s.setSite n x).regs = s.regs := rfl
@[simp] theorem State.setSite_free (s : State) (n : Nat) (x : Site) : (s.setSite n x).free = s.free := rfl
@[simp] theorem State.setSite_out (s : State) (n : Nat) (x : Site) : (s.setSite n x).out = s.out := rfl
@[simp] theorem State.setSite_pending (s : State) (n : Nat) (x : Site) : (s.setSite n x).pending = s.pending := rfl

@[simp] theorem State.setPort_img (s : State) (n : Nat) (x : Port) : (s.setPort n x).img = s.img := rfl
@[simp] theorem State.setPort_clk (s : State) (n : Nat) (x : Port) : (s.setPort n x).clk = s.clk := rfl
@[simp] theorem State.setPort_parts (s : State) (n : Nat) (x : Port) : (s.setPort n x).parts = s.parts := rfl
@[simp] theorem State.setPort_fab (s : State) (n : Nat) (x : Port) : (s.setPort n x).fab = s.fab := rfl
@[simp] theorem State.setPort_xfes (s : State) (n : Nat) (x : Port) : (s.setPort n x).xfes = s.xfes := rfl
@[simp] theorem State.setPort_xlt (s : State) (n : Nat) (x : Port) : (s.setPort n x).xlt = s.xlt := rfl
@[simp] theorem State.setPort_mem (s : State) (n : Nat) (x : Port) : (s.setPort n x).mem = s.mem := rfl
@[simp] theorem State.setPort_noc (s : State) (n : Nat) (x : Port) : (s.setPort n x).noc = s.noc := rfl
@[simp] theorem State.setPort_sites (s : State) (n : Nat) (x : Port) : (s.setPort n x).sites = s.sites := rfl
@[simp] theorem State.setPort_home (s : State) (n : Nat) (x : Port) : (s.setPort n x).home = s.home := rfl
@[simp] theorem State.setPort_cols (s : State) (n : Nat) (x : Port) : (s.setPort n x).cols = s.cols := rfl
@[simp] theorem State.setPort_host (s : State) (n : Nat) (x : Port) : (s.setPort n x).host = s.host := rfl
@[simp] theorem State.setPort_vis (s : State) (n : Nat) (x : Port) : (s.setPort n x).vis = s.vis := rfl
@[simp] theorem State.setPort_sec (s : State) (n : Nat) (x : Port) : (s.setPort n x).sec = s.sec := rfl
@[simp] theorem State.setPort_lcs (s : State) (n : Nat) (x : Port) : (s.setPort n x).lcs = s.lcs := rfl
@[simp] theorem State.setPort_dbg (s : State) (n : Nat) (x : Port) : (s.setPort n x).dbg = s.dbg := rfl
@[simp] theorem State.setPort_pwr (s : State) (n : Nat) (x : Port) : (s.setPort n x).pwr = s.pwr := rfl
@[simp] theorem State.setPort_thm (s : State) (n : Nat) (x : Port) : (s.setPort n x).thm = s.thm := rfl
@[simp] theorem State.setPort_flt (s : State) (n : Nat) (x : Port) : (s.setPort n x).flt = s.flt := rfl
@[simp] theorem State.setPort_mgt (s : State) (n : Nat) (x : Port) : (s.setPort n x).mgt = s.mgt := rfl
@[simp] theorem State.setPort_trc (s : State) (n : Nat) (x : Port) : (s.setPort n x).trc = s.trc := rfl
@[simp] theorem State.setPort_prfUp (s : State) (n : Nat) (x : Port) : (s.setPort n x).prfUp = s.prfUp := rfl
@[simp] theorem State.setPort_prfMir (s : State) (n : Nat) (x : Port) : (s.setPort n x).prfMir = s.prfMir := rfl
@[simp] theorem State.setPort_prfPeer (s : State) (n : Nat) (x : Port) : (s.setPort n x).prfPeer = s.prfPeer := rfl
@[simp] theorem State.setPort_siteAck (s : State) (n : Nat) (x : Port) : (s.setPort n x).siteAck = s.siteAck := rfl
@[simp] theorem State.setPort_mbxH (s : State) (n : Nat) (x : Port) : (s.setPort n x).mbxH = s.mbxH := rfl
@[simp] theorem State.setPort_mbxF (s : State) (n : Nat) (x : Port) : (s.setPort n x).mbxF = s.mbxF := rfl
@[simp] theorem State.setPort_indH (s : State) (n : Nat) (x : Port) : (s.setPort n x).indH = s.indH := rfl
@[simp] theorem State.setPort_indF (s : State) (n : Nat) (x : Port) : (s.setPort n x).indF = s.indF := rfl
@[simp] theorem State.setPort_indMem (s : State) (n : Nat) (x : Port) : (s.setPort n x).indMem = s.indMem := rfl
@[simp] theorem State.setPort_regs (s : State) (n : Nat) (x : Port) : (s.setPort n x).regs = s.regs := rfl
@[simp] theorem State.setPort_free (s : State) (n : Nat) (x : Port) : (s.setPort n x).free = s.free := rfl
@[simp] theorem State.setPort_out (s : State) (n : Nat) (x : Port) : (s.setPort n x).out = s.out := rfl
@[simp] theorem State.setPort_pending (s : State) (n : Nat) (x : Port) : (s.setPort n x).pending = s.pending := rfl

@[simp] theorem State.setCunit_img (s : State) (c : Nat) (x : Col) : (s.setCunit c x).img = s.img := rfl
@[simp] theorem State.setCunit_clk (s : State) (c : Nat) (x : Col) : (s.setCunit c x).clk = s.clk := rfl
@[simp] theorem State.setCunit_parts (s : State) (c : Nat) (x : Col) : (s.setCunit c x).parts = s.parts := rfl
@[simp] theorem State.setCunit_fab (s : State) (c : Nat) (x : Col) : (s.setCunit c x).fab = s.fab := rfl
@[simp] theorem State.setCunit_xfes (s : State) (c : Nat) (x : Col) : (s.setCunit c x).xfes = s.xfes := rfl
@[simp] theorem State.setCunit_xlt (s : State) (c : Nat) (x : Col) : (s.setCunit c x).xlt = s.xlt := rfl
@[simp] theorem State.setCunit_mem (s : State) (c : Nat) (x : Col) : (s.setCunit c x).mem = s.mem := rfl
@[simp] theorem State.setCunit_noc (s : State) (c : Nat) (x : Col) : (s.setCunit c x).noc = s.noc := rfl
@[simp] theorem State.setCunit_sites (s : State) (c : Nat) (x : Col) : (s.setCunit c x).sites = s.sites := rfl
@[simp] theorem State.setCunit_home (s : State) (c : Nat) (x : Col) : (s.setCunit c x).home = s.home := rfl
@[simp] theorem State.setCunit_ports (s : State) (c : Nat) (x : Col) : (s.setCunit c x).ports = s.ports := rfl
@[simp] theorem State.setCunit_host (s : State) (c : Nat) (x : Col) : (s.setCunit c x).host = s.host := rfl
@[simp] theorem State.setCunit_vis (s : State) (c : Nat) (x : Col) : (s.setCunit c x).vis = s.vis := rfl
@[simp] theorem State.setCunit_sec (s : State) (c : Nat) (x : Col) : (s.setCunit c x).sec = s.sec := rfl
@[simp] theorem State.setCunit_lcs (s : State) (c : Nat) (x : Col) : (s.setCunit c x).lcs = s.lcs := rfl
@[simp] theorem State.setCunit_dbg (s : State) (c : Nat) (x : Col) : (s.setCunit c x).dbg = s.dbg := rfl
@[simp] theorem State.setCunit_pwr (s : State) (c : Nat) (x : Col) : (s.setCunit c x).pwr = s.pwr := rfl
@[simp] theorem State.setCunit_thm (s : State) (c : Nat) (x : Col) : (s.setCunit c x).thm = s.thm := rfl
@[simp] theorem State.setCunit_flt (s : State) (c : Nat) (x : Col) : (s.setCunit c x).flt = s.flt := rfl
@[simp] theorem State.setCunit_mgt (s : State) (c : Nat) (x : Col) : (s.setCunit c x).mgt = s.mgt := rfl
@[simp] theorem State.setCunit_trc (s : State) (c : Nat) (x : Col) : (s.setCunit c x).trc = s.trc := rfl
@[simp] theorem State.setCunit_prfUp (s : State) (c : Nat) (x : Col) : (s.setCunit c x).prfUp = s.prfUp := rfl
@[simp] theorem State.setCunit_prfMir (s : State) (c : Nat) (x : Col) : (s.setCunit c x).prfMir = s.prfMir := rfl
@[simp] theorem State.setCunit_prfPeer (s : State) (c : Nat) (x : Col) : (s.setCunit c x).prfPeer = s.prfPeer := rfl
@[simp] theorem State.setCunit_siteAck (s : State) (c : Nat) (x : Col) : (s.setCunit c x).siteAck = s.siteAck := rfl
@[simp] theorem State.setCunit_mbxH (s : State) (c : Nat) (x : Col) : (s.setCunit c x).mbxH = s.mbxH := rfl
@[simp] theorem State.setCunit_mbxF (s : State) (c : Nat) (x : Col) : (s.setCunit c x).mbxF = s.mbxF := rfl
@[simp] theorem State.setCunit_indH (s : State) (c : Nat) (x : Col) : (s.setCunit c x).indH = s.indH := rfl
@[simp] theorem State.setCunit_indF (s : State) (c : Nat) (x : Col) : (s.setCunit c x).indF = s.indF := rfl
@[simp] theorem State.setCunit_indMem (s : State) (c : Nat) (x : Col) : (s.setCunit c x).indMem = s.indMem := rfl
@[simp] theorem State.setCunit_regs (s : State) (c : Nat) (x : Col) : (s.setCunit c x).regs = s.regs := rfl
@[simp] theorem State.setCunit_free (s : State) (c : Nat) (x : Col) : (s.setCunit c x).free = s.free := rfl
@[simp] theorem State.setCunit_out (s : State) (c : Nat) (x : Col) : (s.setCunit c x).out = s.out := rfl
@[simp] theorem State.setCunit_pending (s : State) (c : Nat) (x : Col) : (s.setCunit c x).pending = s.pending := rfl

@[simp] theorem State.setVi_img (s : State) (v : Nat) (x : Vi) : (s.setVi v x).img = s.img := rfl
@[simp] theorem State.setVi_clk (s : State) (v : Nat) (x : Vi) : (s.setVi v x).clk = s.clk := rfl
@[simp] theorem State.setVi_parts (s : State) (v : Nat) (x : Vi) : (s.setVi v x).parts = s.parts := rfl
@[simp] theorem State.setVi_fab (s : State) (v : Nat) (x : Vi) : (s.setVi v x).fab = s.fab := rfl
@[simp] theorem State.setVi_xfes (s : State) (v : Nat) (x : Vi) : (s.setVi v x).xfes = s.xfes := rfl
@[simp] theorem State.setVi_xlt (s : State) (v : Nat) (x : Vi) : (s.setVi v x).xlt = s.xlt := rfl
@[simp] theorem State.setVi_mem (s : State) (v : Nat) (x : Vi) : (s.setVi v x).mem = s.mem := rfl
@[simp] theorem State.setVi_noc (s : State) (v : Nat) (x : Vi) : (s.setVi v x).noc = s.noc := rfl
@[simp] theorem State.setVi_sites (s : State) (v : Nat) (x : Vi) : (s.setVi v x).sites = s.sites := rfl
@[simp] theorem State.setVi_home (s : State) (v : Nat) (x : Vi) : (s.setVi v x).home = s.home := rfl
@[simp] theorem State.setVi_ports (s : State) (v : Nat) (x : Vi) : (s.setVi v x).ports = s.ports := rfl
@[simp] theorem State.setVi_cols (s : State) (v : Nat) (x : Vi) : (s.setVi v x).cols = s.cols := rfl
@[simp] theorem State.setVi_host (s : State) (v : Nat) (x : Vi) : (s.setVi v x).host = s.host := rfl
@[simp] theorem State.setVi_sec (s : State) (v : Nat) (x : Vi) : (s.setVi v x).sec = s.sec := rfl
@[simp] theorem State.setVi_lcs (s : State) (v : Nat) (x : Vi) : (s.setVi v x).lcs = s.lcs := rfl
@[simp] theorem State.setVi_dbg (s : State) (v : Nat) (x : Vi) : (s.setVi v x).dbg = s.dbg := rfl
@[simp] theorem State.setVi_pwr (s : State) (v : Nat) (x : Vi) : (s.setVi v x).pwr = s.pwr := rfl
@[simp] theorem State.setVi_thm (s : State) (v : Nat) (x : Vi) : (s.setVi v x).thm = s.thm := rfl
@[simp] theorem State.setVi_flt (s : State) (v : Nat) (x : Vi) : (s.setVi v x).flt = s.flt := rfl
@[simp] theorem State.setVi_mgt (s : State) (v : Nat) (x : Vi) : (s.setVi v x).mgt = s.mgt := rfl
@[simp] theorem State.setVi_trc (s : State) (v : Nat) (x : Vi) : (s.setVi v x).trc = s.trc := rfl
@[simp] theorem State.setVi_prfUp (s : State) (v : Nat) (x : Vi) : (s.setVi v x).prfUp = s.prfUp := rfl
@[simp] theorem State.setVi_prfMir (s : State) (v : Nat) (x : Vi) : (s.setVi v x).prfMir = s.prfMir := rfl
@[simp] theorem State.setVi_prfPeer (s : State) (v : Nat) (x : Vi) : (s.setVi v x).prfPeer = s.prfPeer := rfl
@[simp] theorem State.setVi_siteAck (s : State) (v : Nat) (x : Vi) : (s.setVi v x).siteAck = s.siteAck := rfl
@[simp] theorem State.setVi_mbxH (s : State) (v : Nat) (x : Vi) : (s.setVi v x).mbxH = s.mbxH := rfl
@[simp] theorem State.setVi_mbxF (s : State) (v : Nat) (x : Vi) : (s.setVi v x).mbxF = s.mbxF := rfl
@[simp] theorem State.setVi_indH (s : State) (v : Nat) (x : Vi) : (s.setVi v x).indH = s.indH := rfl
@[simp] theorem State.setVi_indF (s : State) (v : Nat) (x : Vi) : (s.setVi v x).indF = s.indF := rfl
@[simp] theorem State.setVi_indMem (s : State) (v : Nat) (x : Vi) : (s.setVi v x).indMem = s.indMem := rfl
@[simp] theorem State.setVi_regs (s : State) (v : Nat) (x : Vi) : (s.setVi v x).regs = s.regs := rfl
@[simp] theorem State.setVi_free (s : State) (v : Nat) (x : Vi) : (s.setVi v x).free = s.free := rfl
@[simp] theorem State.setVi_out (s : State) (v : Nat) (x : Vi) : (s.setVi v x).out = s.out := rfl
@[simp] theorem State.setVi_pending (s : State) (v : Nat) (x : Vi) : (s.setVi v x).pending = s.pending := rfl

@[simp] theorem State.setCell_img (s : State) (n : Nat) (x : Cell) : (s.setCell n x).img = s.img := rfl
@[simp] theorem State.setCell_clk (s : State) (n : Nat) (x : Cell) : (s.setCell n x).clk = s.clk := rfl
@[simp] theorem State.setCell_parts (s : State) (n : Nat) (x : Cell) : (s.setCell n x).parts = s.parts := rfl
@[simp] theorem State.setCell_xfes (s : State) (n : Nat) (x : Cell) : (s.setCell n x).xfes = s.xfes := rfl
@[simp] theorem State.setCell_xlt (s : State) (n : Nat) (x : Cell) : (s.setCell n x).xlt = s.xlt := rfl
@[simp] theorem State.setCell_mem (s : State) (n : Nat) (x : Cell) : (s.setCell n x).mem = s.mem := rfl
@[simp] theorem State.setCell_noc (s : State) (n : Nat) (x : Cell) : (s.setCell n x).noc = s.noc := rfl
@[simp] theorem State.setCell_sites (s : State) (n : Nat) (x : Cell) : (s.setCell n x).sites = s.sites := rfl
@[simp] theorem State.setCell_home (s : State) (n : Nat) (x : Cell) : (s.setCell n x).home = s.home := rfl
@[simp] theorem State.setCell_ports (s : State) (n : Nat) (x : Cell) : (s.setCell n x).ports = s.ports := rfl
@[simp] theorem State.setCell_cols (s : State) (n : Nat) (x : Cell) : (s.setCell n x).cols = s.cols := rfl
@[simp] theorem State.setCell_host (s : State) (n : Nat) (x : Cell) : (s.setCell n x).host = s.host := rfl
@[simp] theorem State.setCell_vis (s : State) (n : Nat) (x : Cell) : (s.setCell n x).vis = s.vis := rfl
@[simp] theorem State.setCell_sec (s : State) (n : Nat) (x : Cell) : (s.setCell n x).sec = s.sec := rfl
@[simp] theorem State.setCell_lcs (s : State) (n : Nat) (x : Cell) : (s.setCell n x).lcs = s.lcs := rfl
@[simp] theorem State.setCell_dbg (s : State) (n : Nat) (x : Cell) : (s.setCell n x).dbg = s.dbg := rfl
@[simp] theorem State.setCell_pwr (s : State) (n : Nat) (x : Cell) : (s.setCell n x).pwr = s.pwr := rfl
@[simp] theorem State.setCell_thm (s : State) (n : Nat) (x : Cell) : (s.setCell n x).thm = s.thm := rfl
@[simp] theorem State.setCell_flt (s : State) (n : Nat) (x : Cell) : (s.setCell n x).flt = s.flt := rfl
@[simp] theorem State.setCell_mgt (s : State) (n : Nat) (x : Cell) : (s.setCell n x).mgt = s.mgt := rfl
@[simp] theorem State.setCell_trc (s : State) (n : Nat) (x : Cell) : (s.setCell n x).trc = s.trc := rfl
@[simp] theorem State.setCell_prfUp (s : State) (n : Nat) (x : Cell) : (s.setCell n x).prfUp = s.prfUp := rfl
@[simp] theorem State.setCell_prfMir (s : State) (n : Nat) (x : Cell) : (s.setCell n x).prfMir = s.prfMir := rfl
@[simp] theorem State.setCell_prfPeer (s : State) (n : Nat) (x : Cell) : (s.setCell n x).prfPeer = s.prfPeer := rfl
@[simp] theorem State.setCell_siteAck (s : State) (n : Nat) (x : Cell) : (s.setCell n x).siteAck = s.siteAck := rfl
@[simp] theorem State.setCell_mbxH (s : State) (n : Nat) (x : Cell) : (s.setCell n x).mbxH = s.mbxH := rfl
@[simp] theorem State.setCell_mbxF (s : State) (n : Nat) (x : Cell) : (s.setCell n x).mbxF = s.mbxF := rfl
@[simp] theorem State.setCell_indH (s : State) (n : Nat) (x : Cell) : (s.setCell n x).indH = s.indH := rfl
@[simp] theorem State.setCell_indF (s : State) (n : Nat) (x : Cell) : (s.setCell n x).indF = s.indF := rfl
@[simp] theorem State.setCell_indMem (s : State) (n : Nat) (x : Cell) : (s.setCell n x).indMem = s.indMem := rfl
@[simp] theorem State.setCell_regs (s : State) (n : Nat) (x : Cell) : (s.setCell n x).regs = s.regs := rfl
@[simp] theorem State.setCell_free (s : State) (n : Nat) (x : Cell) : (s.setCell n x).free = s.free := rfl
@[simp] theorem State.setCell_out (s : State) (n : Nat) (x : Cell) : (s.setCell n x).out = s.out := rfl
@[simp] theorem State.setCell_pending (s : State) (n : Nat) (x : Cell) : (s.setCell n x).pending = s.pending := rfl

@[simp] theorem State.setCol_img (s : State) (k : Nat) (x : Column) : (s.setCol k x).img = s.img := rfl
@[simp] theorem State.setCol_clk (s : State) (k : Nat) (x : Column) : (s.setCol k x).clk = s.clk := rfl
@[simp] theorem State.setCol_parts (s : State) (k : Nat) (x : Column) : (s.setCol k x).parts = s.parts := rfl
@[simp] theorem State.setCol_xfes (s : State) (k : Nat) (x : Column) : (s.setCol k x).xfes = s.xfes := rfl
@[simp] theorem State.setCol_xlt (s : State) (k : Nat) (x : Column) : (s.setCol k x).xlt = s.xlt := rfl
@[simp] theorem State.setCol_mem (s : State) (k : Nat) (x : Column) : (s.setCol k x).mem = s.mem := rfl
@[simp] theorem State.setCol_noc (s : State) (k : Nat) (x : Column) : (s.setCol k x).noc = s.noc := rfl
@[simp] theorem State.setCol_sites (s : State) (k : Nat) (x : Column) : (s.setCol k x).sites = s.sites := rfl
@[simp] theorem State.setCol_home (s : State) (k : Nat) (x : Column) : (s.setCol k x).home = s.home := rfl
@[simp] theorem State.setCol_ports (s : State) (k : Nat) (x : Column) : (s.setCol k x).ports = s.ports := rfl
@[simp] theorem State.setCol_cols (s : State) (k : Nat) (x : Column) : (s.setCol k x).cols = s.cols := rfl
@[simp] theorem State.setCol_host (s : State) (k : Nat) (x : Column) : (s.setCol k x).host = s.host := rfl
@[simp] theorem State.setCol_vis (s : State) (k : Nat) (x : Column) : (s.setCol k x).vis = s.vis := rfl
@[simp] theorem State.setCol_sec (s : State) (k : Nat) (x : Column) : (s.setCol k x).sec = s.sec := rfl
@[simp] theorem State.setCol_lcs (s : State) (k : Nat) (x : Column) : (s.setCol k x).lcs = s.lcs := rfl
@[simp] theorem State.setCol_dbg (s : State) (k : Nat) (x : Column) : (s.setCol k x).dbg = s.dbg := rfl
@[simp] theorem State.setCol_pwr (s : State) (k : Nat) (x : Column) : (s.setCol k x).pwr = s.pwr := rfl
@[simp] theorem State.setCol_thm (s : State) (k : Nat) (x : Column) : (s.setCol k x).thm = s.thm := rfl
@[simp] theorem State.setCol_flt (s : State) (k : Nat) (x : Column) : (s.setCol k x).flt = s.flt := rfl
@[simp] theorem State.setCol_mgt (s : State) (k : Nat) (x : Column) : (s.setCol k x).mgt = s.mgt := rfl
@[simp] theorem State.setCol_trc (s : State) (k : Nat) (x : Column) : (s.setCol k x).trc = s.trc := rfl
@[simp] theorem State.setCol_prfUp (s : State) (k : Nat) (x : Column) : (s.setCol k x).prfUp = s.prfUp := rfl
@[simp] theorem State.setCol_prfMir (s : State) (k : Nat) (x : Column) : (s.setCol k x).prfMir = s.prfMir := rfl
@[simp] theorem State.setCol_prfPeer (s : State) (k : Nat) (x : Column) : (s.setCol k x).prfPeer = s.prfPeer := rfl
@[simp] theorem State.setCol_siteAck (s : State) (k : Nat) (x : Column) : (s.setCol k x).siteAck = s.siteAck := rfl
@[simp] theorem State.setCol_mbxH (s : State) (k : Nat) (x : Column) : (s.setCol k x).mbxH = s.mbxH := rfl
@[simp] theorem State.setCol_mbxF (s : State) (k : Nat) (x : Column) : (s.setCol k x).mbxF = s.mbxF := rfl
@[simp] theorem State.setCol_indH (s : State) (k : Nat) (x : Column) : (s.setCol k x).indH = s.indH := rfl
@[simp] theorem State.setCol_indF (s : State) (k : Nat) (x : Column) : (s.setCol k x).indF = s.indF := rfl
@[simp] theorem State.setCol_indMem (s : State) (k : Nat) (x : Column) : (s.setCol k x).indMem = s.indMem := rfl
@[simp] theorem State.setCol_regs (s : State) (k : Nat) (x : Column) : (s.setCol k x).regs = s.regs := rfl
@[simp] theorem State.setCol_free (s : State) (k : Nat) (x : Column) : (s.setCol k x).free = s.free := rfl
@[simp] theorem State.setCol_out (s : State) (k : Nat) (x : Column) : (s.setCol k x).out = s.out := rfl
@[simp] theorem State.setCol_pending (s : State) (k : Nat) (x : Column) : (s.setCol k x).pending = s.pending := rfl

@[simp] theorem State.setQuad_img (s : State) (q : Nat) (x : Quadrant) : (s.setQuad q x).img = s.img := rfl
@[simp] theorem State.setQuad_clk (s : State) (q : Nat) (x : Quadrant) : (s.setQuad q x).clk = s.clk := rfl
@[simp] theorem State.setQuad_parts (s : State) (q : Nat) (x : Quadrant) : (s.setQuad q x).parts = s.parts := rfl
@[simp] theorem State.setQuad_xfes (s : State) (q : Nat) (x : Quadrant) : (s.setQuad q x).xfes = s.xfes := rfl
@[simp] theorem State.setQuad_xlt (s : State) (q : Nat) (x : Quadrant) : (s.setQuad q x).xlt = s.xlt := rfl
@[simp] theorem State.setQuad_mem (s : State) (q : Nat) (x : Quadrant) : (s.setQuad q x).mem = s.mem := rfl
@[simp] theorem State.setQuad_noc (s : State) (q : Nat) (x : Quadrant) : (s.setQuad q x).noc = s.noc := rfl
@[simp] theorem State.setQuad_sites (s : State) (q : Nat) (x : Quadrant) : (s.setQuad q x).sites = s.sites := rfl
@[simp] theorem State.setQuad_home (s : State) (q : Nat) (x : Quadrant) : (s.setQuad q x).home = s.home := rfl
@[simp] theorem State.setQuad_ports (s : State) (q : Nat) (x : Quadrant) : (s.setQuad q x).ports = s.ports := rfl
@[simp] theorem State.setQuad_cols (s : State) (q : Nat) (x : Quadrant) : (s.setQuad q x).cols = s.cols := rfl
@[simp] theorem State.setQuad_host (s : State) (q : Nat) (x : Quadrant) : (s.setQuad q x).host = s.host := rfl
@[simp] theorem State.setQuad_vis (s : State) (q : Nat) (x : Quadrant) : (s.setQuad q x).vis = s.vis := rfl
@[simp] theorem State.setQuad_sec (s : State) (q : Nat) (x : Quadrant) : (s.setQuad q x).sec = s.sec := rfl
@[simp] theorem State.setQuad_lcs (s : State) (q : Nat) (x : Quadrant) : (s.setQuad q x).lcs = s.lcs := rfl
@[simp] theorem State.setQuad_dbg (s : State) (q : Nat) (x : Quadrant) : (s.setQuad q x).dbg = s.dbg := rfl
@[simp] theorem State.setQuad_pwr (s : State) (q : Nat) (x : Quadrant) : (s.setQuad q x).pwr = s.pwr := rfl
@[simp] theorem State.setQuad_thm (s : State) (q : Nat) (x : Quadrant) : (s.setQuad q x).thm = s.thm := rfl
@[simp] theorem State.setQuad_flt (s : State) (q : Nat) (x : Quadrant) : (s.setQuad q x).flt = s.flt := rfl
@[simp] theorem State.setQuad_mgt (s : State) (q : Nat) (x : Quadrant) : (s.setQuad q x).mgt = s.mgt := rfl
@[simp] theorem State.setQuad_trc (s : State) (q : Nat) (x : Quadrant) : (s.setQuad q x).trc = s.trc := rfl
@[simp] theorem State.setQuad_prfUp (s : State) (q : Nat) (x : Quadrant) : (s.setQuad q x).prfUp = s.prfUp := rfl
@[simp] theorem State.setQuad_prfMir (s : State) (q : Nat) (x : Quadrant) : (s.setQuad q x).prfMir = s.prfMir := rfl
@[simp] theorem State.setQuad_prfPeer (s : State) (q : Nat) (x : Quadrant) : (s.setQuad q x).prfPeer = s.prfPeer := rfl
@[simp] theorem State.setQuad_siteAck (s : State) (q : Nat) (x : Quadrant) : (s.setQuad q x).siteAck = s.siteAck := rfl
@[simp] theorem State.setQuad_mbxH (s : State) (q : Nat) (x : Quadrant) : (s.setQuad q x).mbxH = s.mbxH := rfl
@[simp] theorem State.setQuad_mbxF (s : State) (q : Nat) (x : Quadrant) : (s.setQuad q x).mbxF = s.mbxF := rfl
@[simp] theorem State.setQuad_indH (s : State) (q : Nat) (x : Quadrant) : (s.setQuad q x).indH = s.indH := rfl
@[simp] theorem State.setQuad_indF (s : State) (q : Nat) (x : Quadrant) : (s.setQuad q x).indF = s.indF := rfl
@[simp] theorem State.setQuad_indMem (s : State) (q : Nat) (x : Quadrant) : (s.setQuad q x).indMem = s.indMem := rfl
@[simp] theorem State.setQuad_regs (s : State) (q : Nat) (x : Quadrant) : (s.setQuad q x).regs = s.regs := rfl
@[simp] theorem State.setQuad_free (s : State) (q : Nat) (x : Quadrant) : (s.setQuad q x).free = s.free := rfl
@[simp] theorem State.setQuad_out (s : State) (q : Nat) (x : Quadrant) : (s.setQuad q x).out = s.out := rfl
@[simp] theorem State.setQuad_pending (s : State) (q : Nat) (x : Quadrant) : (s.setQuad q x).pending = s.pending := rfl

@[simp] theorem State.setBank_img (s : State) (b : Nat) (x : Bank) : (s.setBank b x).img = s.img := rfl
@[simp] theorem State.setBank_clk (s : State) (b : Nat) (x : Bank) : (s.setBank b x).clk = s.clk := rfl
@[simp] theorem State.setBank_parts (s : State) (b : Nat) (x : Bank) : (s.setBank b x).parts = s.parts := rfl
@[simp] theorem State.setBank_fab (s : State) (b : Nat) (x : Bank) : (s.setBank b x).fab = s.fab := rfl
@[simp] theorem State.setBank_xfes (s : State) (b : Nat) (x : Bank) : (s.setBank b x).xfes = s.xfes := rfl
@[simp] theorem State.setBank_xlt (s : State) (b : Nat) (x : Bank) : (s.setBank b x).xlt = s.xlt := rfl
@[simp] theorem State.setBank_noc (s : State) (b : Nat) (x : Bank) : (s.setBank b x).noc = s.noc := rfl
@[simp] theorem State.setBank_sites (s : State) (b : Nat) (x : Bank) : (s.setBank b x).sites = s.sites := rfl
@[simp] theorem State.setBank_home (s : State) (b : Nat) (x : Bank) : (s.setBank b x).home = s.home := rfl
@[simp] theorem State.setBank_ports (s : State) (b : Nat) (x : Bank) : (s.setBank b x).ports = s.ports := rfl
@[simp] theorem State.setBank_cols (s : State) (b : Nat) (x : Bank) : (s.setBank b x).cols = s.cols := rfl
@[simp] theorem State.setBank_host (s : State) (b : Nat) (x : Bank) : (s.setBank b x).host = s.host := rfl
@[simp] theorem State.setBank_vis (s : State) (b : Nat) (x : Bank) : (s.setBank b x).vis = s.vis := rfl
@[simp] theorem State.setBank_sec (s : State) (b : Nat) (x : Bank) : (s.setBank b x).sec = s.sec := rfl
@[simp] theorem State.setBank_lcs (s : State) (b : Nat) (x : Bank) : (s.setBank b x).lcs = s.lcs := rfl
@[simp] theorem State.setBank_dbg (s : State) (b : Nat) (x : Bank) : (s.setBank b x).dbg = s.dbg := rfl
@[simp] theorem State.setBank_pwr (s : State) (b : Nat) (x : Bank) : (s.setBank b x).pwr = s.pwr := rfl
@[simp] theorem State.setBank_thm (s : State) (b : Nat) (x : Bank) : (s.setBank b x).thm = s.thm := rfl
@[simp] theorem State.setBank_flt (s : State) (b : Nat) (x : Bank) : (s.setBank b x).flt = s.flt := rfl
@[simp] theorem State.setBank_mgt (s : State) (b : Nat) (x : Bank) : (s.setBank b x).mgt = s.mgt := rfl
@[simp] theorem State.setBank_trc (s : State) (b : Nat) (x : Bank) : (s.setBank b x).trc = s.trc := rfl
@[simp] theorem State.setBank_prfUp (s : State) (b : Nat) (x : Bank) : (s.setBank b x).prfUp = s.prfUp := rfl
@[simp] theorem State.setBank_prfMir (s : State) (b : Nat) (x : Bank) : (s.setBank b x).prfMir = s.prfMir := rfl
@[simp] theorem State.setBank_prfPeer (s : State) (b : Nat) (x : Bank) : (s.setBank b x).prfPeer = s.prfPeer := rfl
@[simp] theorem State.setBank_siteAck (s : State) (b : Nat) (x : Bank) : (s.setBank b x).siteAck = s.siteAck := rfl
@[simp] theorem State.setBank_mbxH (s : State) (b : Nat) (x : Bank) : (s.setBank b x).mbxH = s.mbxH := rfl
@[simp] theorem State.setBank_mbxF (s : State) (b : Nat) (x : Bank) : (s.setBank b x).mbxF = s.mbxF := rfl
@[simp] theorem State.setBank_indH (s : State) (b : Nat) (x : Bank) : (s.setBank b x).indH = s.indH := rfl
@[simp] theorem State.setBank_indF (s : State) (b : Nat) (x : Bank) : (s.setBank b x).indF = s.indF := rfl
@[simp] theorem State.setBank_indMem (s : State) (b : Nat) (x : Bank) : (s.setBank b x).indMem = s.indMem := rfl
@[simp] theorem State.setBank_regs (s : State) (b : Nat) (x : Bank) : (s.setBank b x).regs = s.regs := rfl
@[simp] theorem State.setBank_free (s : State) (b : Nat) (x : Bank) : (s.setBank b x).free = s.free := rfl
@[simp] theorem State.setBank_out (s : State) (b : Nat) (x : Bank) : (s.setBank b x).out = s.out := rfl
@[simp] theorem State.setBank_pending (s : State) (b : Nat) (x : Bank) : (s.setBank b x).pending = s.pending := rfl

@[simp] theorem State.setChan_img (s : State) (c : Nat) (x : Chan) : (s.setChan c x).img = s.img := rfl
@[simp] theorem State.setChan_clk (s : State) (c : Nat) (x : Chan) : (s.setChan c x).clk = s.clk := rfl
@[simp] theorem State.setChan_parts (s : State) (c : Nat) (x : Chan) : (s.setChan c x).parts = s.parts := rfl
@[simp] theorem State.setChan_fab (s : State) (c : Nat) (x : Chan) : (s.setChan c x).fab = s.fab := rfl
@[simp] theorem State.setChan_xfes (s : State) (c : Nat) (x : Chan) : (s.setChan c x).xfes = s.xfes := rfl
@[simp] theorem State.setChan_xlt (s : State) (c : Nat) (x : Chan) : (s.setChan c x).xlt = s.xlt := rfl
@[simp] theorem State.setChan_noc (s : State) (c : Nat) (x : Chan) : (s.setChan c x).noc = s.noc := rfl
@[simp] theorem State.setChan_sites (s : State) (c : Nat) (x : Chan) : (s.setChan c x).sites = s.sites := rfl
@[simp] theorem State.setChan_home (s : State) (c : Nat) (x : Chan) : (s.setChan c x).home = s.home := rfl
@[simp] theorem State.setChan_ports (s : State) (c : Nat) (x : Chan) : (s.setChan c x).ports = s.ports := rfl
@[simp] theorem State.setChan_cols (s : State) (c : Nat) (x : Chan) : (s.setChan c x).cols = s.cols := rfl
@[simp] theorem State.setChan_host (s : State) (c : Nat) (x : Chan) : (s.setChan c x).host = s.host := rfl
@[simp] theorem State.setChan_vis (s : State) (c : Nat) (x : Chan) : (s.setChan c x).vis = s.vis := rfl
@[simp] theorem State.setChan_sec (s : State) (c : Nat) (x : Chan) : (s.setChan c x).sec = s.sec := rfl
@[simp] theorem State.setChan_lcs (s : State) (c : Nat) (x : Chan) : (s.setChan c x).lcs = s.lcs := rfl
@[simp] theorem State.setChan_dbg (s : State) (c : Nat) (x : Chan) : (s.setChan c x).dbg = s.dbg := rfl
@[simp] theorem State.setChan_pwr (s : State) (c : Nat) (x : Chan) : (s.setChan c x).pwr = s.pwr := rfl
@[simp] theorem State.setChan_thm (s : State) (c : Nat) (x : Chan) : (s.setChan c x).thm = s.thm := rfl
@[simp] theorem State.setChan_flt (s : State) (c : Nat) (x : Chan) : (s.setChan c x).flt = s.flt := rfl
@[simp] theorem State.setChan_mgt (s : State) (c : Nat) (x : Chan) : (s.setChan c x).mgt = s.mgt := rfl
@[simp] theorem State.setChan_trc (s : State) (c : Nat) (x : Chan) : (s.setChan c x).trc = s.trc := rfl
@[simp] theorem State.setChan_prfUp (s : State) (c : Nat) (x : Chan) : (s.setChan c x).prfUp = s.prfUp := rfl
@[simp] theorem State.setChan_prfMir (s : State) (c : Nat) (x : Chan) : (s.setChan c x).prfMir = s.prfMir := rfl
@[simp] theorem State.setChan_prfPeer (s : State) (c : Nat) (x : Chan) : (s.setChan c x).prfPeer = s.prfPeer := rfl
@[simp] theorem State.setChan_siteAck (s : State) (c : Nat) (x : Chan) : (s.setChan c x).siteAck = s.siteAck := rfl
@[simp] theorem State.setChan_mbxH (s : State) (c : Nat) (x : Chan) : (s.setChan c x).mbxH = s.mbxH := rfl
@[simp] theorem State.setChan_mbxF (s : State) (c : Nat) (x : Chan) : (s.setChan c x).mbxF = s.mbxF := rfl
@[simp] theorem State.setChan_indH (s : State) (c : Nat) (x : Chan) : (s.setChan c x).indH = s.indH := rfl
@[simp] theorem State.setChan_indF (s : State) (c : Nat) (x : Chan) : (s.setChan c x).indF = s.indF := rfl
@[simp] theorem State.setChan_indMem (s : State) (c : Nat) (x : Chan) : (s.setChan c x).indMem = s.indMem := rfl
@[simp] theorem State.setChan_regs (s : State) (c : Nat) (x : Chan) : (s.setChan c x).regs = s.regs := rfl
@[simp] theorem State.setChan_free (s : State) (c : Nat) (x : Chan) : (s.setChan c x).free = s.free := rfl
@[simp] theorem State.setChan_out (s : State) (c : Nat) (x : Chan) : (s.setChan c x).out = s.out := rfl
@[simp] theorem State.setChan_pending (s : State) (c : Nat) (x : Chan) : (s.setChan c x).pending = s.pending := rfl

@[simp] theorem State.setStack_img (s : State) (m : Nat) (x : Stack) : (s.setStack m x).img = s.img := rfl
@[simp] theorem State.setStack_clk (s : State) (m : Nat) (x : Stack) : (s.setStack m x).clk = s.clk := rfl
@[simp] theorem State.setStack_parts (s : State) (m : Nat) (x : Stack) : (s.setStack m x).parts = s.parts := rfl
@[simp] theorem State.setStack_fab (s : State) (m : Nat) (x : Stack) : (s.setStack m x).fab = s.fab := rfl
@[simp] theorem State.setStack_xfes (s : State) (m : Nat) (x : Stack) : (s.setStack m x).xfes = s.xfes := rfl
@[simp] theorem State.setStack_xlt (s : State) (m : Nat) (x : Stack) : (s.setStack m x).xlt = s.xlt := rfl
@[simp] theorem State.setStack_noc (s : State) (m : Nat) (x : Stack) : (s.setStack m x).noc = s.noc := rfl
@[simp] theorem State.setStack_sites (s : State) (m : Nat) (x : Stack) : (s.setStack m x).sites = s.sites := rfl
@[simp] theorem State.setStack_home (s : State) (m : Nat) (x : Stack) : (s.setStack m x).home = s.home := rfl
@[simp] theorem State.setStack_ports (s : State) (m : Nat) (x : Stack) : (s.setStack m x).ports = s.ports := rfl
@[simp] theorem State.setStack_cols (s : State) (m : Nat) (x : Stack) : (s.setStack m x).cols = s.cols := rfl
@[simp] theorem State.setStack_host (s : State) (m : Nat) (x : Stack) : (s.setStack m x).host = s.host := rfl
@[simp] theorem State.setStack_vis (s : State) (m : Nat) (x : Stack) : (s.setStack m x).vis = s.vis := rfl
@[simp] theorem State.setStack_sec (s : State) (m : Nat) (x : Stack) : (s.setStack m x).sec = s.sec := rfl
@[simp] theorem State.setStack_lcs (s : State) (m : Nat) (x : Stack) : (s.setStack m x).lcs = s.lcs := rfl
@[simp] theorem State.setStack_dbg (s : State) (m : Nat) (x : Stack) : (s.setStack m x).dbg = s.dbg := rfl
@[simp] theorem State.setStack_pwr (s : State) (m : Nat) (x : Stack) : (s.setStack m x).pwr = s.pwr := rfl
@[simp] theorem State.setStack_thm (s : State) (m : Nat) (x : Stack) : (s.setStack m x).thm = s.thm := rfl
@[simp] theorem State.setStack_flt (s : State) (m : Nat) (x : Stack) : (s.setStack m x).flt = s.flt := rfl
@[simp] theorem State.setStack_mgt (s : State) (m : Nat) (x : Stack) : (s.setStack m x).mgt = s.mgt := rfl
@[simp] theorem State.setStack_trc (s : State) (m : Nat) (x : Stack) : (s.setStack m x).trc = s.trc := rfl
@[simp] theorem State.setStack_prfUp (s : State) (m : Nat) (x : Stack) : (s.setStack m x).prfUp = s.prfUp := rfl
@[simp] theorem State.setStack_prfMir (s : State) (m : Nat) (x : Stack) : (s.setStack m x).prfMir = s.prfMir := rfl
@[simp] theorem State.setStack_prfPeer (s : State) (m : Nat) (x : Stack) : (s.setStack m x).prfPeer = s.prfPeer := rfl
@[simp] theorem State.setStack_siteAck (s : State) (m : Nat) (x : Stack) : (s.setStack m x).siteAck = s.siteAck := rfl
@[simp] theorem State.setStack_mbxH (s : State) (m : Nat) (x : Stack) : (s.setStack m x).mbxH = s.mbxH := rfl
@[simp] theorem State.setStack_mbxF (s : State) (m : Nat) (x : Stack) : (s.setStack m x).mbxF = s.mbxF := rfl
@[simp] theorem State.setStack_indH (s : State) (m : Nat) (x : Stack) : (s.setStack m x).indH = s.indH := rfl
@[simp] theorem State.setStack_indF (s : State) (m : Nat) (x : Stack) : (s.setStack m x).indF = s.indF := rfl
@[simp] theorem State.setStack_indMem (s : State) (m : Nat) (x : Stack) : (s.setStack m x).indMem = s.indMem := rfl
@[simp] theorem State.setStack_regs (s : State) (m : Nat) (x : Stack) : (s.setStack m x).regs = s.regs := rfl
@[simp] theorem State.setStack_free (s : State) (m : Nat) (x : Stack) : (s.setStack m x).free = s.free := rfl
@[simp] theorem State.setStack_out (s : State) (m : Nat) (x : Stack) : (s.setStack m x).out = s.out := rfl
@[simp] theorem State.setStack_pending (s : State) (m : Nat) (x : Stack) : (s.setStack m x).pending = s.pending := rfl

@[simp] theorem State.setGranule_img (s : State) (g : Nat) (x : Granule) : (s.setGranule g x).img = s.img := rfl
@[simp] theorem State.setGranule_clk (s : State) (g : Nat) (x : Granule) : (s.setGranule g x).clk = s.clk := rfl
@[simp] theorem State.setGranule_parts (s : State) (g : Nat) (x : Granule) : (s.setGranule g x).parts = s.parts := rfl
@[simp] theorem State.setGranule_fab (s : State) (g : Nat) (x : Granule) : (s.setGranule g x).fab = s.fab := rfl
@[simp] theorem State.setGranule_xfes (s : State) (g : Nat) (x : Granule) : (s.setGranule g x).xfes = s.xfes := rfl
@[simp] theorem State.setGranule_xlt (s : State) (g : Nat) (x : Granule) : (s.setGranule g x).xlt = s.xlt := rfl
@[simp] theorem State.setGranule_noc (s : State) (g : Nat) (x : Granule) : (s.setGranule g x).noc = s.noc := rfl
@[simp] theorem State.setGranule_sites (s : State) (g : Nat) (x : Granule) : (s.setGranule g x).sites = s.sites := rfl
@[simp] theorem State.setGranule_home (s : State) (g : Nat) (x : Granule) : (s.setGranule g x).home = s.home := rfl
@[simp] theorem State.setGranule_ports (s : State) (g : Nat) (x : Granule) : (s.setGranule g x).ports = s.ports := rfl
@[simp] theorem State.setGranule_cols (s : State) (g : Nat) (x : Granule) : (s.setGranule g x).cols = s.cols := rfl
@[simp] theorem State.setGranule_host (s : State) (g : Nat) (x : Granule) : (s.setGranule g x).host = s.host := rfl
@[simp] theorem State.setGranule_vis (s : State) (g : Nat) (x : Granule) : (s.setGranule g x).vis = s.vis := rfl
@[simp] theorem State.setGranule_sec (s : State) (g : Nat) (x : Granule) : (s.setGranule g x).sec = s.sec := rfl
@[simp] theorem State.setGranule_lcs (s : State) (g : Nat) (x : Granule) : (s.setGranule g x).lcs = s.lcs := rfl
@[simp] theorem State.setGranule_dbg (s : State) (g : Nat) (x : Granule) : (s.setGranule g x).dbg = s.dbg := rfl
@[simp] theorem State.setGranule_pwr (s : State) (g : Nat) (x : Granule) : (s.setGranule g x).pwr = s.pwr := rfl
@[simp] theorem State.setGranule_thm (s : State) (g : Nat) (x : Granule) : (s.setGranule g x).thm = s.thm := rfl
@[simp] theorem State.setGranule_flt (s : State) (g : Nat) (x : Granule) : (s.setGranule g x).flt = s.flt := rfl
@[simp] theorem State.setGranule_mgt (s : State) (g : Nat) (x : Granule) : (s.setGranule g x).mgt = s.mgt := rfl
@[simp] theorem State.setGranule_trc (s : State) (g : Nat) (x : Granule) : (s.setGranule g x).trc = s.trc := rfl
@[simp] theorem State.setGranule_prfUp (s : State) (g : Nat) (x : Granule) : (s.setGranule g x).prfUp = s.prfUp := rfl
@[simp] theorem State.setGranule_prfMir (s : State) (g : Nat) (x : Granule) : (s.setGranule g x).prfMir = s.prfMir := rfl
@[simp] theorem State.setGranule_prfPeer (s : State) (g : Nat) (x : Granule) : (s.setGranule g x).prfPeer = s.prfPeer := rfl
@[simp] theorem State.setGranule_siteAck (s : State) (g : Nat) (x : Granule) : (s.setGranule g x).siteAck = s.siteAck := rfl
@[simp] theorem State.setGranule_mbxH (s : State) (g : Nat) (x : Granule) : (s.setGranule g x).mbxH = s.mbxH := rfl
@[simp] theorem State.setGranule_mbxF (s : State) (g : Nat) (x : Granule) : (s.setGranule g x).mbxF = s.mbxF := rfl
@[simp] theorem State.setGranule_indH (s : State) (g : Nat) (x : Granule) : (s.setGranule g x).indH = s.indH := rfl
@[simp] theorem State.setGranule_indF (s : State) (g : Nat) (x : Granule) : (s.setGranule g x).indF = s.indF := rfl
@[simp] theorem State.setGranule_indMem (s : State) (g : Nat) (x : Granule) : (s.setGranule g x).indMem = s.indMem := rfl
@[simp] theorem State.setGranule_regs (s : State) (g : Nat) (x : Granule) : (s.setGranule g x).regs = s.regs := rfl
@[simp] theorem State.setGranule_free (s : State) (g : Nat) (x : Granule) : (s.setGranule g x).free = s.free := rfl
@[simp] theorem State.setGranule_out (s : State) (g : Nat) (x : Granule) : (s.setGranule g x).out = s.out := rfl
@[simp] theorem State.setGranule_pending (s : State) (g : Nat) (x : Granule) : (s.setGranule g x).pending = s.pending := rfl

@[simp] theorem State.setSeal_img (s : State) (v : Nat) (x : Seal) : (s.setSeal v x).img = s.img := rfl
@[simp] theorem State.setSeal_clk (s : State) (v : Nat) (x : Seal) : (s.setSeal v x).clk = s.clk := rfl
@[simp] theorem State.setSeal_parts (s : State) (v : Nat) (x : Seal) : (s.setSeal v x).parts = s.parts := rfl
@[simp] theorem State.setSeal_fab (s : State) (v : Nat) (x : Seal) : (s.setSeal v x).fab = s.fab := rfl
@[simp] theorem State.setSeal_xfes (s : State) (v : Nat) (x : Seal) : (s.setSeal v x).xfes = s.xfes := rfl
@[simp] theorem State.setSeal_xlt (s : State) (v : Nat) (x : Seal) : (s.setSeal v x).xlt = s.xlt := rfl
@[simp] theorem State.setSeal_mem (s : State) (v : Nat) (x : Seal) : (s.setSeal v x).mem = s.mem := rfl
@[simp] theorem State.setSeal_noc (s : State) (v : Nat) (x : Seal) : (s.setSeal v x).noc = s.noc := rfl
@[simp] theorem State.setSeal_sites (s : State) (v : Nat) (x : Seal) : (s.setSeal v x).sites = s.sites := rfl
@[simp] theorem State.setSeal_home (s : State) (v : Nat) (x : Seal) : (s.setSeal v x).home = s.home := rfl
@[simp] theorem State.setSeal_ports (s : State) (v : Nat) (x : Seal) : (s.setSeal v x).ports = s.ports := rfl
@[simp] theorem State.setSeal_cols (s : State) (v : Nat) (x : Seal) : (s.setSeal v x).cols = s.cols := rfl
@[simp] theorem State.setSeal_host (s : State) (v : Nat) (x : Seal) : (s.setSeal v x).host = s.host := rfl
@[simp] theorem State.setSeal_vis (s : State) (v : Nat) (x : Seal) : (s.setSeal v x).vis = s.vis := rfl
@[simp] theorem State.setSeal_lcs (s : State) (v : Nat) (x : Seal) : (s.setSeal v x).lcs = s.lcs := rfl
@[simp] theorem State.setSeal_dbg (s : State) (v : Nat) (x : Seal) : (s.setSeal v x).dbg = s.dbg := rfl
@[simp] theorem State.setSeal_pwr (s : State) (v : Nat) (x : Seal) : (s.setSeal v x).pwr = s.pwr := rfl
@[simp] theorem State.setSeal_thm (s : State) (v : Nat) (x : Seal) : (s.setSeal v x).thm = s.thm := rfl
@[simp] theorem State.setSeal_flt (s : State) (v : Nat) (x : Seal) : (s.setSeal v x).flt = s.flt := rfl
@[simp] theorem State.setSeal_mgt (s : State) (v : Nat) (x : Seal) : (s.setSeal v x).mgt = s.mgt := rfl
@[simp] theorem State.setSeal_trc (s : State) (v : Nat) (x : Seal) : (s.setSeal v x).trc = s.trc := rfl
@[simp] theorem State.setSeal_prfUp (s : State) (v : Nat) (x : Seal) : (s.setSeal v x).prfUp = s.prfUp := rfl
@[simp] theorem State.setSeal_prfMir (s : State) (v : Nat) (x : Seal) : (s.setSeal v x).prfMir = s.prfMir := rfl
@[simp] theorem State.setSeal_prfPeer (s : State) (v : Nat) (x : Seal) : (s.setSeal v x).prfPeer = s.prfPeer := rfl
@[simp] theorem State.setSeal_siteAck (s : State) (v : Nat) (x : Seal) : (s.setSeal v x).siteAck = s.siteAck := rfl
@[simp] theorem State.setSeal_mbxH (s : State) (v : Nat) (x : Seal) : (s.setSeal v x).mbxH = s.mbxH := rfl
@[simp] theorem State.setSeal_mbxF (s : State) (v : Nat) (x : Seal) : (s.setSeal v x).mbxF = s.mbxF := rfl
@[simp] theorem State.setSeal_indH (s : State) (v : Nat) (x : Seal) : (s.setSeal v x).indH = s.indH := rfl
@[simp] theorem State.setSeal_indF (s : State) (v : Nat) (x : Seal) : (s.setSeal v x).indF = s.indF := rfl
@[simp] theorem State.setSeal_indMem (s : State) (v : Nat) (x : Seal) : (s.setSeal v x).indMem = s.indMem := rfl
@[simp] theorem State.setSeal_regs (s : State) (v : Nat) (x : Seal) : (s.setSeal v x).regs = s.regs := rfl
@[simp] theorem State.setSeal_free (s : State) (v : Nat) (x : Seal) : (s.setSeal v x).free = s.free := rfl
@[simp] theorem State.setSeal_out (s : State) (v : Nat) (x : Seal) : (s.setSeal v x).out = s.out := rfl
@[simp] theorem State.setSeal_pending (s : State) (v : Nat) (x : Seal) : (s.setSeal v x).pending = s.pending := rfl

@[simp] theorem State.setGrp_img (s : State) (g : Nat) (x : FGroup) : (s.setGrp g x).img = s.img := rfl
@[simp] theorem State.setGrp_clk (s : State) (g : Nat) (x : FGroup) : (s.setGrp g x).clk = s.clk := rfl
@[simp] theorem State.setGrp_parts (s : State) (g : Nat) (x : FGroup) : (s.setGrp g x).parts = s.parts := rfl
@[simp] theorem State.setGrp_fab (s : State) (g : Nat) (x : FGroup) : (s.setGrp g x).fab = s.fab := rfl
@[simp] theorem State.setGrp_xfes (s : State) (g : Nat) (x : FGroup) : (s.setGrp g x).xfes = s.xfes := rfl
@[simp] theorem State.setGrp_xlt (s : State) (g : Nat) (x : FGroup) : (s.setGrp g x).xlt = s.xlt := rfl
@[simp] theorem State.setGrp_mem (s : State) (g : Nat) (x : FGroup) : (s.setGrp g x).mem = s.mem := rfl
@[simp] theorem State.setGrp_noc (s : State) (g : Nat) (x : FGroup) : (s.setGrp g x).noc = s.noc := rfl
@[simp] theorem State.setGrp_sites (s : State) (g : Nat) (x : FGroup) : (s.setGrp g x).sites = s.sites := rfl
@[simp] theorem State.setGrp_home (s : State) (g : Nat) (x : FGroup) : (s.setGrp g x).home = s.home := rfl
@[simp] theorem State.setGrp_ports (s : State) (g : Nat) (x : FGroup) : (s.setGrp g x).ports = s.ports := rfl
@[simp] theorem State.setGrp_cols (s : State) (g : Nat) (x : FGroup) : (s.setGrp g x).cols = s.cols := rfl
@[simp] theorem State.setGrp_host (s : State) (g : Nat) (x : FGroup) : (s.setGrp g x).host = s.host := rfl
@[simp] theorem State.setGrp_vis (s : State) (g : Nat) (x : FGroup) : (s.setGrp g x).vis = s.vis := rfl
@[simp] theorem State.setGrp_sec (s : State) (g : Nat) (x : FGroup) : (s.setGrp g x).sec = s.sec := rfl
@[simp] theorem State.setGrp_lcs (s : State) (g : Nat) (x : FGroup) : (s.setGrp g x).lcs = s.lcs := rfl
@[simp] theorem State.setGrp_dbg (s : State) (g : Nat) (x : FGroup) : (s.setGrp g x).dbg = s.dbg := rfl
@[simp] theorem State.setGrp_pwr (s : State) (g : Nat) (x : FGroup) : (s.setGrp g x).pwr = s.pwr := rfl
@[simp] theorem State.setGrp_thm (s : State) (g : Nat) (x : FGroup) : (s.setGrp g x).thm = s.thm := rfl
@[simp] theorem State.setGrp_mgt (s : State) (g : Nat) (x : FGroup) : (s.setGrp g x).mgt = s.mgt := rfl
@[simp] theorem State.setGrp_trc (s : State) (g : Nat) (x : FGroup) : (s.setGrp g x).trc = s.trc := rfl
@[simp] theorem State.setGrp_prfUp (s : State) (g : Nat) (x : FGroup) : (s.setGrp g x).prfUp = s.prfUp := rfl
@[simp] theorem State.setGrp_prfMir (s : State) (g : Nat) (x : FGroup) : (s.setGrp g x).prfMir = s.prfMir := rfl
@[simp] theorem State.setGrp_prfPeer (s : State) (g : Nat) (x : FGroup) : (s.setGrp g x).prfPeer = s.prfPeer := rfl
@[simp] theorem State.setGrp_siteAck (s : State) (g : Nat) (x : FGroup) : (s.setGrp g x).siteAck = s.siteAck := rfl
@[simp] theorem State.setGrp_mbxH (s : State) (g : Nat) (x : FGroup) : (s.setGrp g x).mbxH = s.mbxH := rfl
@[simp] theorem State.setGrp_mbxF (s : State) (g : Nat) (x : FGroup) : (s.setGrp g x).mbxF = s.mbxF := rfl
@[simp] theorem State.setGrp_indH (s : State) (g : Nat) (x : FGroup) : (s.setGrp g x).indH = s.indH := rfl
@[simp] theorem State.setGrp_indF (s : State) (g : Nat) (x : FGroup) : (s.setGrp g x).indF = s.indF := rfl
@[simp] theorem State.setGrp_indMem (s : State) (g : Nat) (x : FGroup) : (s.setGrp g x).indMem = s.indMem := rfl
@[simp] theorem State.setGrp_regs (s : State) (g : Nat) (x : FGroup) : (s.setGrp g x).regs = s.regs := rfl
@[simp] theorem State.setGrp_free (s : State) (g : Nat) (x : FGroup) : (s.setGrp g x).free = s.free := rfl
@[simp] theorem State.setGrp_out (s : State) (g : Nat) (x : FGroup) : (s.setGrp g x).out = s.out := rfl
@[simp] theorem State.setGrp_pending (s : State) (g : Nat) (x : FGroup) : (s.setGrp g x).pending = s.pending := rfl

@[simp] theorem State.setTile_img (s : State) (t : Nat) (x : Tile) : (s.setTile t x).img = s.img := rfl
@[simp] theorem State.setTile_clk (s : State) (t : Nat) (x : Tile) : (s.setTile t x).clk = s.clk := rfl
@[simp] theorem State.setTile_parts (s : State) (t : Nat) (x : Tile) : (s.setTile t x).parts = s.parts := rfl
@[simp] theorem State.setTile_fab (s : State) (t : Nat) (x : Tile) : (s.setTile t x).fab = s.fab := rfl
@[simp] theorem State.setTile_xfes (s : State) (t : Nat) (x : Tile) : (s.setTile t x).xfes = s.xfes := rfl
@[simp] theorem State.setTile_xlt (s : State) (t : Nat) (x : Tile) : (s.setTile t x).xlt = s.xlt := rfl
@[simp] theorem State.setTile_mem (s : State) (t : Nat) (x : Tile) : (s.setTile t x).mem = s.mem := rfl
@[simp] theorem State.setTile_noc (s : State) (t : Nat) (x : Tile) : (s.setTile t x).noc = s.noc := rfl
@[simp] theorem State.setTile_sites (s : State) (t : Nat) (x : Tile) : (s.setTile t x).sites = s.sites := rfl
@[simp] theorem State.setTile_home (s : State) (t : Nat) (x : Tile) : (s.setTile t x).home = s.home := rfl
@[simp] theorem State.setTile_ports (s : State) (t : Nat) (x : Tile) : (s.setTile t x).ports = s.ports := rfl
@[simp] theorem State.setTile_cols (s : State) (t : Nat) (x : Tile) : (s.setTile t x).cols = s.cols := rfl
@[simp] theorem State.setTile_host (s : State) (t : Nat) (x : Tile) : (s.setTile t x).host = s.host := rfl
@[simp] theorem State.setTile_vis (s : State) (t : Nat) (x : Tile) : (s.setTile t x).vis = s.vis := rfl
@[simp] theorem State.setTile_sec (s : State) (t : Nat) (x : Tile) : (s.setTile t x).sec = s.sec := rfl
@[simp] theorem State.setTile_lcs (s : State) (t : Nat) (x : Tile) : (s.setTile t x).lcs = s.lcs := rfl
@[simp] theorem State.setTile_dbg (s : State) (t : Nat) (x : Tile) : (s.setTile t x).dbg = s.dbg := rfl
@[simp] theorem State.setTile_thm (s : State) (t : Nat) (x : Tile) : (s.setTile t x).thm = s.thm := rfl
@[simp] theorem State.setTile_flt (s : State) (t : Nat) (x : Tile) : (s.setTile t x).flt = s.flt := rfl
@[simp] theorem State.setTile_mgt (s : State) (t : Nat) (x : Tile) : (s.setTile t x).mgt = s.mgt := rfl
@[simp] theorem State.setTile_trc (s : State) (t : Nat) (x : Tile) : (s.setTile t x).trc = s.trc := rfl
@[simp] theorem State.setTile_prfUp (s : State) (t : Nat) (x : Tile) : (s.setTile t x).prfUp = s.prfUp := rfl
@[simp] theorem State.setTile_prfMir (s : State) (t : Nat) (x : Tile) : (s.setTile t x).prfMir = s.prfMir := rfl
@[simp] theorem State.setTile_prfPeer (s : State) (t : Nat) (x : Tile) : (s.setTile t x).prfPeer = s.prfPeer := rfl
@[simp] theorem State.setTile_siteAck (s : State) (t : Nat) (x : Tile) : (s.setTile t x).siteAck = s.siteAck := rfl
@[simp] theorem State.setTile_mbxH (s : State) (t : Nat) (x : Tile) : (s.setTile t x).mbxH = s.mbxH := rfl
@[simp] theorem State.setTile_mbxF (s : State) (t : Nat) (x : Tile) : (s.setTile t x).mbxF = s.mbxF := rfl
@[simp] theorem State.setTile_indH (s : State) (t : Nat) (x : Tile) : (s.setTile t x).indH = s.indH := rfl
@[simp] theorem State.setTile_indF (s : State) (t : Nat) (x : Tile) : (s.setTile t x).indF = s.indF := rfl
@[simp] theorem State.setTile_indMem (s : State) (t : Nat) (x : Tile) : (s.setTile t x).indMem = s.indMem := rfl
@[simp] theorem State.setTile_regs (s : State) (t : Nat) (x : Tile) : (s.setTile t x).regs = s.regs := rfl
@[simp] theorem State.setTile_free (s : State) (t : Nat) (x : Tile) : (s.setTile t x).free = s.free := rfl
@[simp] theorem State.setTile_out (s : State) (t : Nat) (x : Tile) : (s.setTile t x).out = s.out := rfl
@[simp] theorem State.setTile_pending (s : State) (t : Nat) (x : Tile) : (s.setTile t x).pending = s.pending := rfl

@[simp] theorem State.setRegion_img (s : State) (r : Nat) (x : Region) : (s.setRegion r x).img = s.img := rfl
@[simp] theorem State.setRegion_clk (s : State) (r : Nat) (x : Region) : (s.setRegion r x).clk = s.clk := rfl
@[simp] theorem State.setRegion_parts (s : State) (r : Nat) (x : Region) : (s.setRegion r x).parts = s.parts := rfl
@[simp] theorem State.setRegion_fab (s : State) (r : Nat) (x : Region) : (s.setRegion r x).fab = s.fab := rfl
@[simp] theorem State.setRegion_xfes (s : State) (r : Nat) (x : Region) : (s.setRegion r x).xfes = s.xfes := rfl
@[simp] theorem State.setRegion_xlt (s : State) (r : Nat) (x : Region) : (s.setRegion r x).xlt = s.xlt := rfl
@[simp] theorem State.setRegion_mem (s : State) (r : Nat) (x : Region) : (s.setRegion r x).mem = s.mem := rfl
@[simp] theorem State.setRegion_noc (s : State) (r : Nat) (x : Region) : (s.setRegion r x).noc = s.noc := rfl
@[simp] theorem State.setRegion_sites (s : State) (r : Nat) (x : Region) : (s.setRegion r x).sites = s.sites := rfl
@[simp] theorem State.setRegion_home (s : State) (r : Nat) (x : Region) : (s.setRegion r x).home = s.home := rfl
@[simp] theorem State.setRegion_ports (s : State) (r : Nat) (x : Region) : (s.setRegion r x).ports = s.ports := rfl
@[simp] theorem State.setRegion_cols (s : State) (r : Nat) (x : Region) : (s.setRegion r x).cols = s.cols := rfl
@[simp] theorem State.setRegion_host (s : State) (r : Nat) (x : Region) : (s.setRegion r x).host = s.host := rfl
@[simp] theorem State.setRegion_vis (s : State) (r : Nat) (x : Region) : (s.setRegion r x).vis = s.vis := rfl
@[simp] theorem State.setRegion_sec (s : State) (r : Nat) (x : Region) : (s.setRegion r x).sec = s.sec := rfl
@[simp] theorem State.setRegion_lcs (s : State) (r : Nat) (x : Region) : (s.setRegion r x).lcs = s.lcs := rfl
@[simp] theorem State.setRegion_dbg (s : State) (r : Nat) (x : Region) : (s.setRegion r x).dbg = s.dbg := rfl
@[simp] theorem State.setRegion_pwr (s : State) (r : Nat) (x : Region) : (s.setRegion r x).pwr = s.pwr := rfl
@[simp] theorem State.setRegion_flt (s : State) (r : Nat) (x : Region) : (s.setRegion r x).flt = s.flt := rfl
@[simp] theorem State.setRegion_mgt (s : State) (r : Nat) (x : Region) : (s.setRegion r x).mgt = s.mgt := rfl
@[simp] theorem State.setRegion_trc (s : State) (r : Nat) (x : Region) : (s.setRegion r x).trc = s.trc := rfl
@[simp] theorem State.setRegion_prfUp (s : State) (r : Nat) (x : Region) : (s.setRegion r x).prfUp = s.prfUp := rfl
@[simp] theorem State.setRegion_prfMir (s : State) (r : Nat) (x : Region) : (s.setRegion r x).prfMir = s.prfMir := rfl
@[simp] theorem State.setRegion_prfPeer (s : State) (r : Nat) (x : Region) : (s.setRegion r x).prfPeer = s.prfPeer := rfl
@[simp] theorem State.setRegion_siteAck (s : State) (r : Nat) (x : Region) : (s.setRegion r x).siteAck = s.siteAck := rfl
@[simp] theorem State.setRegion_mbxH (s : State) (r : Nat) (x : Region) : (s.setRegion r x).mbxH = s.mbxH := rfl
@[simp] theorem State.setRegion_mbxF (s : State) (r : Nat) (x : Region) : (s.setRegion r x).mbxF = s.mbxF := rfl
@[simp] theorem State.setRegion_indH (s : State) (r : Nat) (x : Region) : (s.setRegion r x).indH = s.indH := rfl
@[simp] theorem State.setRegion_indF (s : State) (r : Nat) (x : Region) : (s.setRegion r x).indF = s.indF := rfl
@[simp] theorem State.setRegion_indMem (s : State) (r : Nat) (x : Region) : (s.setRegion r x).indMem = s.indMem := rfl
@[simp] theorem State.setRegion_regs (s : State) (r : Nat) (x : Region) : (s.setRegion r x).regs = s.regs := rfl
@[simp] theorem State.setRegion_free (s : State) (r : Nat) (x : Region) : (s.setRegion r x).free = s.free := rfl
@[simp] theorem State.setRegion_out (s : State) (r : Nat) (x : Region) : (s.setRegion r x).out = s.out := rfl
@[simp] theorem State.setRegion_pending (s : State) (r : Nat) (x : Region) : (s.setRegion r x).pending = s.pending := rfl

@[simp] theorem State.setQport_img (s : State) (a b : Nat) (x : QosPort) : (s.setQport a b x).img = s.img := rfl
@[simp] theorem State.setQport_clk (s : State) (a b : Nat) (x : QosPort) : (s.setQport a b x).clk = s.clk := rfl
@[simp] theorem State.setQport_parts (s : State) (a b : Nat) (x : QosPort) : (s.setQport a b x).parts = s.parts := rfl
@[simp] theorem State.setQport_fab (s : State) (a b : Nat) (x : QosPort) : (s.setQport a b x).fab = s.fab := rfl
@[simp] theorem State.setQport_xfes (s : State) (a b : Nat) (x : QosPort) : (s.setQport a b x).xfes = s.xfes := rfl
@[simp] theorem State.setQport_xlt (s : State) (a b : Nat) (x : QosPort) : (s.setQport a b x).xlt = s.xlt := rfl
@[simp] theorem State.setQport_mem (s : State) (a b : Nat) (x : QosPort) : (s.setQport a b x).mem = s.mem := rfl
@[simp] theorem State.setQport_sites (s : State) (a b : Nat) (x : QosPort) : (s.setQport a b x).sites = s.sites := rfl
@[simp] theorem State.setQport_home (s : State) (a b : Nat) (x : QosPort) : (s.setQport a b x).home = s.home := rfl
@[simp] theorem State.setQport_ports (s : State) (a b : Nat) (x : QosPort) : (s.setQport a b x).ports = s.ports := rfl
@[simp] theorem State.setQport_cols (s : State) (a b : Nat) (x : QosPort) : (s.setQport a b x).cols = s.cols := rfl
@[simp] theorem State.setQport_host (s : State) (a b : Nat) (x : QosPort) : (s.setQport a b x).host = s.host := rfl
@[simp] theorem State.setQport_vis (s : State) (a b : Nat) (x : QosPort) : (s.setQport a b x).vis = s.vis := rfl
@[simp] theorem State.setQport_sec (s : State) (a b : Nat) (x : QosPort) : (s.setQport a b x).sec = s.sec := rfl
@[simp] theorem State.setQport_lcs (s : State) (a b : Nat) (x : QosPort) : (s.setQport a b x).lcs = s.lcs := rfl
@[simp] theorem State.setQport_dbg (s : State) (a b : Nat) (x : QosPort) : (s.setQport a b x).dbg = s.dbg := rfl
@[simp] theorem State.setQport_pwr (s : State) (a b : Nat) (x : QosPort) : (s.setQport a b x).pwr = s.pwr := rfl
@[simp] theorem State.setQport_thm (s : State) (a b : Nat) (x : QosPort) : (s.setQport a b x).thm = s.thm := rfl
@[simp] theorem State.setQport_flt (s : State) (a b : Nat) (x : QosPort) : (s.setQport a b x).flt = s.flt := rfl
@[simp] theorem State.setQport_mgt (s : State) (a b : Nat) (x : QosPort) : (s.setQport a b x).mgt = s.mgt := rfl
@[simp] theorem State.setQport_trc (s : State) (a b : Nat) (x : QosPort) : (s.setQport a b x).trc = s.trc := rfl
@[simp] theorem State.setQport_prfUp (s : State) (a b : Nat) (x : QosPort) : (s.setQport a b x).prfUp = s.prfUp := rfl
@[simp] theorem State.setQport_prfMir (s : State) (a b : Nat) (x : QosPort) : (s.setQport a b x).prfMir = s.prfMir := rfl
@[simp] theorem State.setQport_prfPeer (s : State) (a b : Nat) (x : QosPort) : (s.setQport a b x).prfPeer = s.prfPeer := rfl
@[simp] theorem State.setQport_siteAck (s : State) (a b : Nat) (x : QosPort) : (s.setQport a b x).siteAck = s.siteAck := rfl
@[simp] theorem State.setQport_mbxH (s : State) (a b : Nat) (x : QosPort) : (s.setQport a b x).mbxH = s.mbxH := rfl
@[simp] theorem State.setQport_mbxF (s : State) (a b : Nat) (x : QosPort) : (s.setQport a b x).mbxF = s.mbxF := rfl
@[simp] theorem State.setQport_indH (s : State) (a b : Nat) (x : QosPort) : (s.setQport a b x).indH = s.indH := rfl
@[simp] theorem State.setQport_indF (s : State) (a b : Nat) (x : QosPort) : (s.setQport a b x).indF = s.indF := rfl
@[simp] theorem State.setQport_indMem (s : State) (a b : Nat) (x : QosPort) : (s.setQport a b x).indMem = s.indMem := rfl
@[simp] theorem State.setQport_regs (s : State) (a b : Nat) (x : QosPort) : (s.setQport a b x).regs = s.regs := rfl
@[simp] theorem State.setQport_free (s : State) (a b : Nat) (x : QosPort) : (s.setQport a b x).free = s.free := rfl
@[simp] theorem State.setQport_out (s : State) (a b : Nat) (x : QosPort) : (s.setQport a b x).out = s.out := rfl
@[simp] theorem State.setQport_pending (s : State) (a b : Nat) (x : QosPort) : (s.setQport a b x).pending = s.pending := rfl

@[simp] theorem State.setQpart_img (s : State) (p : Nat) (x : QosPart) : (s.setQpart p x).img = s.img := rfl
@[simp] theorem State.setQpart_clk (s : State) (p : Nat) (x : QosPart) : (s.setQpart p x).clk = s.clk := rfl
@[simp] theorem State.setQpart_parts (s : State) (p : Nat) (x : QosPart) : (s.setQpart p x).parts = s.parts := rfl
@[simp] theorem State.setQpart_fab (s : State) (p : Nat) (x : QosPart) : (s.setQpart p x).fab = s.fab := rfl
@[simp] theorem State.setQpart_xfes (s : State) (p : Nat) (x : QosPart) : (s.setQpart p x).xfes = s.xfes := rfl
@[simp] theorem State.setQpart_xlt (s : State) (p : Nat) (x : QosPart) : (s.setQpart p x).xlt = s.xlt := rfl
@[simp] theorem State.setQpart_mem (s : State) (p : Nat) (x : QosPart) : (s.setQpart p x).mem = s.mem := rfl
@[simp] theorem State.setQpart_sites (s : State) (p : Nat) (x : QosPart) : (s.setQpart p x).sites = s.sites := rfl
@[simp] theorem State.setQpart_home (s : State) (p : Nat) (x : QosPart) : (s.setQpart p x).home = s.home := rfl
@[simp] theorem State.setQpart_ports (s : State) (p : Nat) (x : QosPart) : (s.setQpart p x).ports = s.ports := rfl
@[simp] theorem State.setQpart_cols (s : State) (p : Nat) (x : QosPart) : (s.setQpart p x).cols = s.cols := rfl
@[simp] theorem State.setQpart_host (s : State) (p : Nat) (x : QosPart) : (s.setQpart p x).host = s.host := rfl
@[simp] theorem State.setQpart_vis (s : State) (p : Nat) (x : QosPart) : (s.setQpart p x).vis = s.vis := rfl
@[simp] theorem State.setQpart_sec (s : State) (p : Nat) (x : QosPart) : (s.setQpart p x).sec = s.sec := rfl
@[simp] theorem State.setQpart_lcs (s : State) (p : Nat) (x : QosPart) : (s.setQpart p x).lcs = s.lcs := rfl
@[simp] theorem State.setQpart_dbg (s : State) (p : Nat) (x : QosPart) : (s.setQpart p x).dbg = s.dbg := rfl
@[simp] theorem State.setQpart_pwr (s : State) (p : Nat) (x : QosPart) : (s.setQpart p x).pwr = s.pwr := rfl
@[simp] theorem State.setQpart_thm (s : State) (p : Nat) (x : QosPart) : (s.setQpart p x).thm = s.thm := rfl
@[simp] theorem State.setQpart_flt (s : State) (p : Nat) (x : QosPart) : (s.setQpart p x).flt = s.flt := rfl
@[simp] theorem State.setQpart_mgt (s : State) (p : Nat) (x : QosPart) : (s.setQpart p x).mgt = s.mgt := rfl
@[simp] theorem State.setQpart_trc (s : State) (p : Nat) (x : QosPart) : (s.setQpart p x).trc = s.trc := rfl
@[simp] theorem State.setQpart_prfUp (s : State) (p : Nat) (x : QosPart) : (s.setQpart p x).prfUp = s.prfUp := rfl
@[simp] theorem State.setQpart_prfMir (s : State) (p : Nat) (x : QosPart) : (s.setQpart p x).prfMir = s.prfMir := rfl
@[simp] theorem State.setQpart_prfPeer (s : State) (p : Nat) (x : QosPart) : (s.setQpart p x).prfPeer = s.prfPeer := rfl
@[simp] theorem State.setQpart_siteAck (s : State) (p : Nat) (x : QosPart) : (s.setQpart p x).siteAck = s.siteAck := rfl
@[simp] theorem State.setQpart_mbxH (s : State) (p : Nat) (x : QosPart) : (s.setQpart p x).mbxH = s.mbxH := rfl
@[simp] theorem State.setQpart_mbxF (s : State) (p : Nat) (x : QosPart) : (s.setQpart p x).mbxF = s.mbxF := rfl
@[simp] theorem State.setQpart_indH (s : State) (p : Nat) (x : QosPart) : (s.setQpart p x).indH = s.indH := rfl
@[simp] theorem State.setQpart_indF (s : State) (p : Nat) (x : QosPart) : (s.setQpart p x).indF = s.indF := rfl
@[simp] theorem State.setQpart_indMem (s : State) (p : Nat) (x : QosPart) : (s.setQpart p x).indMem = s.indMem := rfl
@[simp] theorem State.setQpart_regs (s : State) (p : Nat) (x : QosPart) : (s.setQpart p x).regs = s.regs := rfl
@[simp] theorem State.setQpart_free (s : State) (p : Nat) (x : QosPart) : (s.setQpart p x).free = s.free := rfl
@[simp] theorem State.setQpart_out (s : State) (p : Nat) (x : QosPart) : (s.setQpart p x).out = s.out := rfl
@[simp] theorem State.setQpart_pending (s : State) (p : Nat) (x : QosPart) : (s.setQpart p x).pending = s.pending := rfl

@[simp] theorem State.setReg_img (s : State) (a : Nat) (d v : Word) : (s.setReg a d v).img = s.img := rfl
@[simp] theorem State.setReg_clk (s : State) (a : Nat) (d v : Word) : (s.setReg a d v).clk = s.clk := rfl
@[simp] theorem State.setReg_parts (s : State) (a : Nat) (d v : Word) : (s.setReg a d v).parts = s.parts := rfl
@[simp] theorem State.setReg_fab (s : State) (a : Nat) (d v : Word) : (s.setReg a d v).fab = s.fab := rfl
@[simp] theorem State.setReg_xfes (s : State) (a : Nat) (d v : Word) : (s.setReg a d v).xfes = s.xfes := rfl
@[simp] theorem State.setReg_xlt (s : State) (a : Nat) (d v : Word) : (s.setReg a d v).xlt = s.xlt := rfl
@[simp] theorem State.setReg_mem (s : State) (a : Nat) (d v : Word) : (s.setReg a d v).mem = s.mem := rfl
@[simp] theorem State.setReg_noc (s : State) (a : Nat) (d v : Word) : (s.setReg a d v).noc = s.noc := rfl
@[simp] theorem State.setReg_sites (s : State) (a : Nat) (d v : Word) : (s.setReg a d v).sites = s.sites := rfl
@[simp] theorem State.setReg_home (s : State) (a : Nat) (d v : Word) : (s.setReg a d v).home = s.home := rfl
@[simp] theorem State.setReg_ports (s : State) (a : Nat) (d v : Word) : (s.setReg a d v).ports = s.ports := rfl
@[simp] theorem State.setReg_cols (s : State) (a : Nat) (d v : Word) : (s.setReg a d v).cols = s.cols := rfl
@[simp] theorem State.setReg_host (s : State) (a : Nat) (d v : Word) : (s.setReg a d v).host = s.host := rfl
@[simp] theorem State.setReg_vis (s : State) (a : Nat) (d v : Word) : (s.setReg a d v).vis = s.vis := rfl
@[simp] theorem State.setReg_sec (s : State) (a : Nat) (d v : Word) : (s.setReg a d v).sec = s.sec := rfl
@[simp] theorem State.setReg_lcs (s : State) (a : Nat) (d v : Word) : (s.setReg a d v).lcs = s.lcs := rfl
@[simp] theorem State.setReg_dbg (s : State) (a : Nat) (d v : Word) : (s.setReg a d v).dbg = s.dbg := rfl
@[simp] theorem State.setReg_pwr (s : State) (a : Nat) (d v : Word) : (s.setReg a d v).pwr = s.pwr := rfl
@[simp] theorem State.setReg_thm (s : State) (a : Nat) (d v : Word) : (s.setReg a d v).thm = s.thm := rfl
@[simp] theorem State.setReg_flt (s : State) (a : Nat) (d v : Word) : (s.setReg a d v).flt = s.flt := rfl
@[simp] theorem State.setReg_mgt (s : State) (a : Nat) (d v : Word) : (s.setReg a d v).mgt = s.mgt := rfl
@[simp] theorem State.setReg_trc (s : State) (a : Nat) (d v : Word) : (s.setReg a d v).trc = s.trc := rfl
@[simp] theorem State.setReg_prfUp (s : State) (a : Nat) (d v : Word) : (s.setReg a d v).prfUp = s.prfUp := rfl
@[simp] theorem State.setReg_prfMir (s : State) (a : Nat) (d v : Word) : (s.setReg a d v).prfMir = s.prfMir := rfl
@[simp] theorem State.setReg_prfPeer (s : State) (a : Nat) (d v : Word) : (s.setReg a d v).prfPeer = s.prfPeer := rfl
@[simp] theorem State.setReg_siteAck (s : State) (a : Nat) (d v : Word) : (s.setReg a d v).siteAck = s.siteAck := rfl
@[simp] theorem State.setReg_mbxH (s : State) (a : Nat) (d v : Word) : (s.setReg a d v).mbxH = s.mbxH := rfl
@[simp] theorem State.setReg_mbxF (s : State) (a : Nat) (d v : Word) : (s.setReg a d v).mbxF = s.mbxF := rfl
@[simp] theorem State.setReg_indH (s : State) (a : Nat) (d v : Word) : (s.setReg a d v).indH = s.indH := rfl
@[simp] theorem State.setReg_indF (s : State) (a : Nat) (d v : Word) : (s.setReg a d v).indF = s.indF := rfl
@[simp] theorem State.setReg_indMem (s : State) (a : Nat) (d v : Word) : (s.setReg a d v).indMem = s.indMem := rfl
@[simp] theorem State.setReg_free (s : State) (a : Nat) (d v : Word) : (s.setReg a d v).free = s.free := rfl
@[simp] theorem State.setReg_out (s : State) (a : Nat) (d v : Word) : (s.setReg a d v).out = s.out := rfl
@[simp] theorem State.setReg_pending (s : State) (a : Nat) (d v : Word) : (s.setReg a d v).pending = s.pending := rfl

@[simp] theorem State.emit_img (s : State) (e : Emit) : (s.emit e).img = s.img := rfl
@[simp] theorem State.emit_clk (s : State) (e : Emit) : (s.emit e).clk = s.clk := rfl
@[simp] theorem State.emit_parts (s : State) (e : Emit) : (s.emit e).parts = s.parts := rfl
@[simp] theorem State.emit_fab (s : State) (e : Emit) : (s.emit e).fab = s.fab := rfl
@[simp] theorem State.emit_xfes (s : State) (e : Emit) : (s.emit e).xfes = s.xfes := rfl
@[simp] theorem State.emit_xlt (s : State) (e : Emit) : (s.emit e).xlt = s.xlt := rfl
@[simp] theorem State.emit_mem (s : State) (e : Emit) : (s.emit e).mem = s.mem := rfl
@[simp] theorem State.emit_noc (s : State) (e : Emit) : (s.emit e).noc = s.noc := rfl
@[simp] theorem State.emit_sites (s : State) (e : Emit) : (s.emit e).sites = s.sites := rfl
@[simp] theorem State.emit_home (s : State) (e : Emit) : (s.emit e).home = s.home := rfl
@[simp] theorem State.emit_ports (s : State) (e : Emit) : (s.emit e).ports = s.ports := rfl
@[simp] theorem State.emit_cols (s : State) (e : Emit) : (s.emit e).cols = s.cols := rfl
@[simp] theorem State.emit_host (s : State) (e : Emit) : (s.emit e).host = s.host := rfl
@[simp] theorem State.emit_vis (s : State) (e : Emit) : (s.emit e).vis = s.vis := rfl
@[simp] theorem State.emit_sec (s : State) (e : Emit) : (s.emit e).sec = s.sec := rfl
@[simp] theorem State.emit_lcs (s : State) (e : Emit) : (s.emit e).lcs = s.lcs := rfl
@[simp] theorem State.emit_dbg (s : State) (e : Emit) : (s.emit e).dbg = s.dbg := rfl
@[simp] theorem State.emit_pwr (s : State) (e : Emit) : (s.emit e).pwr = s.pwr := rfl
@[simp] theorem State.emit_thm (s : State) (e : Emit) : (s.emit e).thm = s.thm := rfl
@[simp] theorem State.emit_flt (s : State) (e : Emit) : (s.emit e).flt = s.flt := rfl
@[simp] theorem State.emit_mgt (s : State) (e : Emit) : (s.emit e).mgt = s.mgt := rfl
@[simp] theorem State.emit_trc (s : State) (e : Emit) : (s.emit e).trc = s.trc := rfl
@[simp] theorem State.emit_prfUp (s : State) (e : Emit) : (s.emit e).prfUp = s.prfUp := rfl
@[simp] theorem State.emit_prfMir (s : State) (e : Emit) : (s.emit e).prfMir = s.prfMir := rfl
@[simp] theorem State.emit_prfPeer (s : State) (e : Emit) : (s.emit e).prfPeer = s.prfPeer := rfl
@[simp] theorem State.emit_siteAck (s : State) (e : Emit) : (s.emit e).siteAck = s.siteAck := rfl
@[simp] theorem State.emit_mbxH (s : State) (e : Emit) : (s.emit e).mbxH = s.mbxH := rfl
@[simp] theorem State.emit_mbxF (s : State) (e : Emit) : (s.emit e).mbxF = s.mbxF := rfl
@[simp] theorem State.emit_indH (s : State) (e : Emit) : (s.emit e).indH = s.indH := rfl
@[simp] theorem State.emit_indF (s : State) (e : Emit) : (s.emit e).indF = s.indF := rfl
@[simp] theorem State.emit_indMem (s : State) (e : Emit) : (s.emit e).indMem = s.indMem := rfl
@[simp] theorem State.emit_regs (s : State) (e : Emit) : (s.emit e).regs = s.regs := rfl
@[simp] theorem State.emit_free (s : State) (e : Emit) : (s.emit e).free = s.free := rfl
@[simp] theorem State.emit_pending (s : State) (e : Emit) : (s.emit e).pending = s.pending := rfl

@[simp] theorem State.spend_img (s : State) : (s.spend).img = s.img := rfl
@[simp] theorem State.spend_clk (s : State) : (s.spend).clk = s.clk := rfl
@[simp] theorem State.spend_parts (s : State) : (s.spend).parts = s.parts := rfl
@[simp] theorem State.spend_fab (s : State) : (s.spend).fab = s.fab := rfl
@[simp] theorem State.spend_xfes (s : State) : (s.spend).xfes = s.xfes := rfl
@[simp] theorem State.spend_xlt (s : State) : (s.spend).xlt = s.xlt := rfl
@[simp] theorem State.spend_mem (s : State) : (s.spend).mem = s.mem := rfl
@[simp] theorem State.spend_noc (s : State) : (s.spend).noc = s.noc := rfl
@[simp] theorem State.spend_sites (s : State) : (s.spend).sites = s.sites := rfl
@[simp] theorem State.spend_home (s : State) : (s.spend).home = s.home := rfl
@[simp] theorem State.spend_ports (s : State) : (s.spend).ports = s.ports := rfl
@[simp] theorem State.spend_cols (s : State) : (s.spend).cols = s.cols := rfl
@[simp] theorem State.spend_host (s : State) : (s.spend).host = s.host := rfl
@[simp] theorem State.spend_vis (s : State) : (s.spend).vis = s.vis := rfl
@[simp] theorem State.spend_sec (s : State) : (s.spend).sec = s.sec := rfl
@[simp] theorem State.spend_lcs (s : State) : (s.spend).lcs = s.lcs := rfl
@[simp] theorem State.spend_dbg (s : State) : (s.spend).dbg = s.dbg := rfl
@[simp] theorem State.spend_pwr (s : State) : (s.spend).pwr = s.pwr := rfl
@[simp] theorem State.spend_thm (s : State) : (s.spend).thm = s.thm := rfl
@[simp] theorem State.spend_flt (s : State) : (s.spend).flt = s.flt := rfl
@[simp] theorem State.spend_mgt (s : State) : (s.spend).mgt = s.mgt := rfl
@[simp] theorem State.spend_trc (s : State) : (s.spend).trc = s.trc := rfl
@[simp] theorem State.spend_prfUp (s : State) : (s.spend).prfUp = s.prfUp := rfl
@[simp] theorem State.spend_prfMir (s : State) : (s.spend).prfMir = s.prfMir := rfl
@[simp] theorem State.spend_prfPeer (s : State) : (s.spend).prfPeer = s.prfPeer := rfl
@[simp] theorem State.spend_siteAck (s : State) : (s.spend).siteAck = s.siteAck := rfl
@[simp] theorem State.spend_mbxH (s : State) : (s.spend).mbxH = s.mbxH := rfl
@[simp] theorem State.spend_mbxF (s : State) : (s.spend).mbxF = s.mbxF := rfl
@[simp] theorem State.spend_indH (s : State) : (s.spend).indH = s.indH := rfl
@[simp] theorem State.spend_indF (s : State) : (s.spend).indF = s.indF := rfl
@[simp] theorem State.spend_indMem (s : State) : (s.spend).indMem = s.indMem := rfl
@[simp] theorem State.spend_regs (s : State) : (s.spend).regs = s.regs := rfl
@[simp] theorem State.spend_out (s : State) : (s.spend).out = s.out := rfl
@[simp] theorem State.spend_pending (s : State) : (s.spend).pending = s.pending := rfl

@[simp] theorem State.modPart_img (s : State) (p : Nat) (f : Part → Part) : (s.modPart p f).img = s.img := rfl
@[simp] theorem State.modPart_clk (s : State) (p : Nat) (f : Part → Part) : (s.modPart p f).clk = s.clk := rfl
@[simp] theorem State.modPart_fab (s : State) (p : Nat) (f : Part → Part) : (s.modPart p f).fab = s.fab := rfl
@[simp] theorem State.modPart_xfes (s : State) (p : Nat) (f : Part → Part) : (s.modPart p f).xfes = s.xfes := rfl
@[simp] theorem State.modPart_xlt (s : State) (p : Nat) (f : Part → Part) : (s.modPart p f).xlt = s.xlt := rfl
@[simp] theorem State.modPart_mem (s : State) (p : Nat) (f : Part → Part) : (s.modPart p f).mem = s.mem := rfl
@[simp] theorem State.modPart_noc (s : State) (p : Nat) (f : Part → Part) : (s.modPart p f).noc = s.noc := rfl
@[simp] theorem State.modPart_sites (s : State) (p : Nat) (f : Part → Part) : (s.modPart p f).sites = s.sites := rfl
@[simp] theorem State.modPart_home (s : State) (p : Nat) (f : Part → Part) : (s.modPart p f).home = s.home := rfl
@[simp] theorem State.modPart_ports (s : State) (p : Nat) (f : Part → Part) : (s.modPart p f).ports = s.ports := rfl
@[simp] theorem State.modPart_cols (s : State) (p : Nat) (f : Part → Part) : (s.modPart p f).cols = s.cols := rfl
@[simp] theorem State.modPart_host (s : State) (p : Nat) (f : Part → Part) : (s.modPart p f).host = s.host := rfl
@[simp] theorem State.modPart_vis (s : State) (p : Nat) (f : Part → Part) : (s.modPart p f).vis = s.vis := rfl
@[simp] theorem State.modPart_sec (s : State) (p : Nat) (f : Part → Part) : (s.modPart p f).sec = s.sec := rfl
@[simp] theorem State.modPart_lcs (s : State) (p : Nat) (f : Part → Part) : (s.modPart p f).lcs = s.lcs := rfl
@[simp] theorem State.modPart_dbg (s : State) (p : Nat) (f : Part → Part) : (s.modPart p f).dbg = s.dbg := rfl
@[simp] theorem State.modPart_pwr (s : State) (p : Nat) (f : Part → Part) : (s.modPart p f).pwr = s.pwr := rfl
@[simp] theorem State.modPart_thm (s : State) (p : Nat) (f : Part → Part) : (s.modPart p f).thm = s.thm := rfl
@[simp] theorem State.modPart_flt (s : State) (p : Nat) (f : Part → Part) : (s.modPart p f).flt = s.flt := rfl
@[simp] theorem State.modPart_mgt (s : State) (p : Nat) (f : Part → Part) : (s.modPart p f).mgt = s.mgt := rfl
@[simp] theorem State.modPart_trc (s : State) (p : Nat) (f : Part → Part) : (s.modPart p f).trc = s.trc := rfl
@[simp] theorem State.modPart_prfUp (s : State) (p : Nat) (f : Part → Part) : (s.modPart p f).prfUp = s.prfUp := rfl
@[simp] theorem State.modPart_prfMir (s : State) (p : Nat) (f : Part → Part) : (s.modPart p f).prfMir = s.prfMir := rfl
@[simp] theorem State.modPart_prfPeer (s : State) (p : Nat) (f : Part → Part) : (s.modPart p f).prfPeer = s.prfPeer := rfl
@[simp] theorem State.modPart_siteAck (s : State) (p : Nat) (f : Part → Part) : (s.modPart p f).siteAck = s.siteAck := rfl
@[simp] theorem State.modPart_mbxH (s : State) (p : Nat) (f : Part → Part) : (s.modPart p f).mbxH = s.mbxH := rfl
@[simp] theorem State.modPart_mbxF (s : State) (p : Nat) (f : Part → Part) : (s.modPart p f).mbxF = s.mbxF := rfl
@[simp] theorem State.modPart_indH (s : State) (p : Nat) (f : Part → Part) : (s.modPart p f).indH = s.indH := rfl
@[simp] theorem State.modPart_indF (s : State) (p : Nat) (f : Part → Part) : (s.modPart p f).indF = s.indF := rfl
@[simp] theorem State.modPart_indMem (s : State) (p : Nat) (f : Part → Part) : (s.modPart p f).indMem = s.indMem := rfl
@[simp] theorem State.modPart_regs (s : State) (p : Nat) (f : Part → Part) : (s.modPart p f).regs = s.regs := rfl
@[simp] theorem State.modPart_free (s : State) (p : Nat) (f : Part → Part) : (s.modPart p f).free = s.free := rfl
@[simp] theorem State.modPart_out (s : State) (p : Nat) (f : Part → Part) : (s.modPart p f).out = s.out := rfl
@[simp] theorem State.modPart_pending (s : State) (p : Nat) (f : Part → Part) : (s.modPart p f).pending = s.pending := rfl

@[simp] theorem State.modSite_img (s : State) (n : Nat) (f : Site → Site) : (s.modSite n f).img = s.img := rfl
@[simp] theorem State.modSite_clk (s : State) (n : Nat) (f : Site → Site) : (s.modSite n f).clk = s.clk := rfl
@[simp] theorem State.modSite_parts (s : State) (n : Nat) (f : Site → Site) : (s.modSite n f).parts = s.parts := rfl
@[simp] theorem State.modSite_fab (s : State) (n : Nat) (f : Site → Site) : (s.modSite n f).fab = s.fab := rfl
@[simp] theorem State.modSite_xfes (s : State) (n : Nat) (f : Site → Site) : (s.modSite n f).xfes = s.xfes := rfl
@[simp] theorem State.modSite_xlt (s : State) (n : Nat) (f : Site → Site) : (s.modSite n f).xlt = s.xlt := rfl
@[simp] theorem State.modSite_mem (s : State) (n : Nat) (f : Site → Site) : (s.modSite n f).mem = s.mem := rfl
@[simp] theorem State.modSite_noc (s : State) (n : Nat) (f : Site → Site) : (s.modSite n f).noc = s.noc := rfl
@[simp] theorem State.modSite_home (s : State) (n : Nat) (f : Site → Site) : (s.modSite n f).home = s.home := rfl
@[simp] theorem State.modSite_ports (s : State) (n : Nat) (f : Site → Site) : (s.modSite n f).ports = s.ports := rfl
@[simp] theorem State.modSite_cols (s : State) (n : Nat) (f : Site → Site) : (s.modSite n f).cols = s.cols := rfl
@[simp] theorem State.modSite_host (s : State) (n : Nat) (f : Site → Site) : (s.modSite n f).host = s.host := rfl
@[simp] theorem State.modSite_vis (s : State) (n : Nat) (f : Site → Site) : (s.modSite n f).vis = s.vis := rfl
@[simp] theorem State.modSite_sec (s : State) (n : Nat) (f : Site → Site) : (s.modSite n f).sec = s.sec := rfl
@[simp] theorem State.modSite_lcs (s : State) (n : Nat) (f : Site → Site) : (s.modSite n f).lcs = s.lcs := rfl
@[simp] theorem State.modSite_dbg (s : State) (n : Nat) (f : Site → Site) : (s.modSite n f).dbg = s.dbg := rfl
@[simp] theorem State.modSite_pwr (s : State) (n : Nat) (f : Site → Site) : (s.modSite n f).pwr = s.pwr := rfl
@[simp] theorem State.modSite_thm (s : State) (n : Nat) (f : Site → Site) : (s.modSite n f).thm = s.thm := rfl
@[simp] theorem State.modSite_flt (s : State) (n : Nat) (f : Site → Site) : (s.modSite n f).flt = s.flt := rfl
@[simp] theorem State.modSite_mgt (s : State) (n : Nat) (f : Site → Site) : (s.modSite n f).mgt = s.mgt := rfl
@[simp] theorem State.modSite_trc (s : State) (n : Nat) (f : Site → Site) : (s.modSite n f).trc = s.trc := rfl
@[simp] theorem State.modSite_prfUp (s : State) (n : Nat) (f : Site → Site) : (s.modSite n f).prfUp = s.prfUp := rfl
@[simp] theorem State.modSite_prfMir (s : State) (n : Nat) (f : Site → Site) : (s.modSite n f).prfMir = s.prfMir := rfl
@[simp] theorem State.modSite_prfPeer (s : State) (n : Nat) (f : Site → Site) : (s.modSite n f).prfPeer = s.prfPeer := rfl
@[simp] theorem State.modSite_siteAck (s : State) (n : Nat) (f : Site → Site) : (s.modSite n f).siteAck = s.siteAck := rfl
@[simp] theorem State.modSite_mbxH (s : State) (n : Nat) (f : Site → Site) : (s.modSite n f).mbxH = s.mbxH := rfl
@[simp] theorem State.modSite_mbxF (s : State) (n : Nat) (f : Site → Site) : (s.modSite n f).mbxF = s.mbxF := rfl
@[simp] theorem State.modSite_indH (s : State) (n : Nat) (f : Site → Site) : (s.modSite n f).indH = s.indH := rfl
@[simp] theorem State.modSite_indF (s : State) (n : Nat) (f : Site → Site) : (s.modSite n f).indF = s.indF := rfl
@[simp] theorem State.modSite_indMem (s : State) (n : Nat) (f : Site → Site) : (s.modSite n f).indMem = s.indMem := rfl
@[simp] theorem State.modSite_regs (s : State) (n : Nat) (f : Site → Site) : (s.modSite n f).regs = s.regs := rfl
@[simp] theorem State.modSite_free (s : State) (n : Nat) (f : Site → Site) : (s.modSite n f).free = s.free := rfl
@[simp] theorem State.modSite_out (s : State) (n : Nat) (f : Site → Site) : (s.modSite n f).out = s.out := rfl
@[simp] theorem State.modSite_pending (s : State) (n : Nat) (f : Site → Site) : (s.modSite n f).pending = s.pending := rfl

@[simp] theorem State.modVi_img (s : State) (v : Nat) (f : Vi → Vi) : (s.modVi v f).img = s.img := rfl
@[simp] theorem State.modVi_clk (s : State) (v : Nat) (f : Vi → Vi) : (s.modVi v f).clk = s.clk := rfl
@[simp] theorem State.modVi_parts (s : State) (v : Nat) (f : Vi → Vi) : (s.modVi v f).parts = s.parts := rfl
@[simp] theorem State.modVi_fab (s : State) (v : Nat) (f : Vi → Vi) : (s.modVi v f).fab = s.fab := rfl
@[simp] theorem State.modVi_xfes (s : State) (v : Nat) (f : Vi → Vi) : (s.modVi v f).xfes = s.xfes := rfl
@[simp] theorem State.modVi_xlt (s : State) (v : Nat) (f : Vi → Vi) : (s.modVi v f).xlt = s.xlt := rfl
@[simp] theorem State.modVi_mem (s : State) (v : Nat) (f : Vi → Vi) : (s.modVi v f).mem = s.mem := rfl
@[simp] theorem State.modVi_noc (s : State) (v : Nat) (f : Vi → Vi) : (s.modVi v f).noc = s.noc := rfl
@[simp] theorem State.modVi_sites (s : State) (v : Nat) (f : Vi → Vi) : (s.modVi v f).sites = s.sites := rfl
@[simp] theorem State.modVi_home (s : State) (v : Nat) (f : Vi → Vi) : (s.modVi v f).home = s.home := rfl
@[simp] theorem State.modVi_ports (s : State) (v : Nat) (f : Vi → Vi) : (s.modVi v f).ports = s.ports := rfl
@[simp] theorem State.modVi_cols (s : State) (v : Nat) (f : Vi → Vi) : (s.modVi v f).cols = s.cols := rfl
@[simp] theorem State.modVi_host (s : State) (v : Nat) (f : Vi → Vi) : (s.modVi v f).host = s.host := rfl
@[simp] theorem State.modVi_sec (s : State) (v : Nat) (f : Vi → Vi) : (s.modVi v f).sec = s.sec := rfl
@[simp] theorem State.modVi_lcs (s : State) (v : Nat) (f : Vi → Vi) : (s.modVi v f).lcs = s.lcs := rfl
@[simp] theorem State.modVi_dbg (s : State) (v : Nat) (f : Vi → Vi) : (s.modVi v f).dbg = s.dbg := rfl
@[simp] theorem State.modVi_pwr (s : State) (v : Nat) (f : Vi → Vi) : (s.modVi v f).pwr = s.pwr := rfl
@[simp] theorem State.modVi_thm (s : State) (v : Nat) (f : Vi → Vi) : (s.modVi v f).thm = s.thm := rfl
@[simp] theorem State.modVi_flt (s : State) (v : Nat) (f : Vi → Vi) : (s.modVi v f).flt = s.flt := rfl
@[simp] theorem State.modVi_mgt (s : State) (v : Nat) (f : Vi → Vi) : (s.modVi v f).mgt = s.mgt := rfl
@[simp] theorem State.modVi_trc (s : State) (v : Nat) (f : Vi → Vi) : (s.modVi v f).trc = s.trc := rfl
@[simp] theorem State.modVi_prfUp (s : State) (v : Nat) (f : Vi → Vi) : (s.modVi v f).prfUp = s.prfUp := rfl
@[simp] theorem State.modVi_prfMir (s : State) (v : Nat) (f : Vi → Vi) : (s.modVi v f).prfMir = s.prfMir := rfl
@[simp] theorem State.modVi_prfPeer (s : State) (v : Nat) (f : Vi → Vi) : (s.modVi v f).prfPeer = s.prfPeer := rfl
@[simp] theorem State.modVi_siteAck (s : State) (v : Nat) (f : Vi → Vi) : (s.modVi v f).siteAck = s.siteAck := rfl
@[simp] theorem State.modVi_mbxH (s : State) (v : Nat) (f : Vi → Vi) : (s.modVi v f).mbxH = s.mbxH := rfl
@[simp] theorem State.modVi_mbxF (s : State) (v : Nat) (f : Vi → Vi) : (s.modVi v f).mbxF = s.mbxF := rfl
@[simp] theorem State.modVi_indH (s : State) (v : Nat) (f : Vi → Vi) : (s.modVi v f).indH = s.indH := rfl
@[simp] theorem State.modVi_indF (s : State) (v : Nat) (f : Vi → Vi) : (s.modVi v f).indF = s.indF := rfl
@[simp] theorem State.modVi_indMem (s : State) (v : Nat) (f : Vi → Vi) : (s.modVi v f).indMem = s.indMem := rfl
@[simp] theorem State.modVi_regs (s : State) (v : Nat) (f : Vi → Vi) : (s.modVi v f).regs = s.regs := rfl
@[simp] theorem State.modVi_free (s : State) (v : Nat) (f : Vi → Vi) : (s.modVi v f).free = s.free := rfl
@[simp] theorem State.modVi_out (s : State) (v : Nat) (f : Vi → Vi) : (s.modVi v f).out = s.out := rfl
@[simp] theorem State.modVi_pending (s : State) (v : Nat) (f : Vi → Vi) : (s.modVi v f).pending = s.pending := rfl

@[simp] theorem State.modReq_img (s : State) (n : Nat) (f : Req → Req) : (s.modReq n f).img = s.img := rfl
@[simp] theorem State.modReq_clk (s : State) (n : Nat) (f : Req → Req) : (s.modReq n f).clk = s.clk := rfl
@[simp] theorem State.modReq_parts (s : State) (n : Nat) (f : Req → Req) : (s.modReq n f).parts = s.parts := rfl
@[simp] theorem State.modReq_fab (s : State) (n : Nat) (f : Req → Req) : (s.modReq n f).fab = s.fab := rfl
@[simp] theorem State.modReq_xfes (s : State) (n : Nat) (f : Req → Req) : (s.modReq n f).xfes = s.xfes := rfl
@[simp] theorem State.modReq_xlt (s : State) (n : Nat) (f : Req → Req) : (s.modReq n f).xlt = s.xlt := rfl
@[simp] theorem State.modReq_mem (s : State) (n : Nat) (f : Req → Req) : (s.modReq n f).mem = s.mem := rfl
@[simp] theorem State.modReq_sites (s : State) (n : Nat) (f : Req → Req) : (s.modReq n f).sites = s.sites := rfl
@[simp] theorem State.modReq_home (s : State) (n : Nat) (f : Req → Req) : (s.modReq n f).home = s.home := rfl
@[simp] theorem State.modReq_ports (s : State) (n : Nat) (f : Req → Req) : (s.modReq n f).ports = s.ports := rfl
@[simp] theorem State.modReq_cols (s : State) (n : Nat) (f : Req → Req) : (s.modReq n f).cols = s.cols := rfl
@[simp] theorem State.modReq_host (s : State) (n : Nat) (f : Req → Req) : (s.modReq n f).host = s.host := rfl
@[simp] theorem State.modReq_vis (s : State) (n : Nat) (f : Req → Req) : (s.modReq n f).vis = s.vis := rfl
@[simp] theorem State.modReq_sec (s : State) (n : Nat) (f : Req → Req) : (s.modReq n f).sec = s.sec := rfl
@[simp] theorem State.modReq_lcs (s : State) (n : Nat) (f : Req → Req) : (s.modReq n f).lcs = s.lcs := rfl
@[simp] theorem State.modReq_dbg (s : State) (n : Nat) (f : Req → Req) : (s.modReq n f).dbg = s.dbg := rfl
@[simp] theorem State.modReq_pwr (s : State) (n : Nat) (f : Req → Req) : (s.modReq n f).pwr = s.pwr := rfl
@[simp] theorem State.modReq_thm (s : State) (n : Nat) (f : Req → Req) : (s.modReq n f).thm = s.thm := rfl
@[simp] theorem State.modReq_flt (s : State) (n : Nat) (f : Req → Req) : (s.modReq n f).flt = s.flt := rfl
@[simp] theorem State.modReq_mgt (s : State) (n : Nat) (f : Req → Req) : (s.modReq n f).mgt = s.mgt := rfl
@[simp] theorem State.modReq_trc (s : State) (n : Nat) (f : Req → Req) : (s.modReq n f).trc = s.trc := rfl
@[simp] theorem State.modReq_prfUp (s : State) (n : Nat) (f : Req → Req) : (s.modReq n f).prfUp = s.prfUp := rfl
@[simp] theorem State.modReq_prfMir (s : State) (n : Nat) (f : Req → Req) : (s.modReq n f).prfMir = s.prfMir := rfl
@[simp] theorem State.modReq_prfPeer (s : State) (n : Nat) (f : Req → Req) : (s.modReq n f).prfPeer = s.prfPeer := rfl
@[simp] theorem State.modReq_siteAck (s : State) (n : Nat) (f : Req → Req) : (s.modReq n f).siteAck = s.siteAck := rfl
@[simp] theorem State.modReq_mbxH (s : State) (n : Nat) (f : Req → Req) : (s.modReq n f).mbxH = s.mbxH := rfl
@[simp] theorem State.modReq_mbxF (s : State) (n : Nat) (f : Req → Req) : (s.modReq n f).mbxF = s.mbxF := rfl
@[simp] theorem State.modReq_indH (s : State) (n : Nat) (f : Req → Req) : (s.modReq n f).indH = s.indH := rfl
@[simp] theorem State.modReq_indF (s : State) (n : Nat) (f : Req → Req) : (s.modReq n f).indF = s.indF := rfl
@[simp] theorem State.modReq_indMem (s : State) (n : Nat) (f : Req → Req) : (s.modReq n f).indMem = s.indMem := rfl
@[simp] theorem State.modReq_regs (s : State) (n : Nat) (f : Req → Req) : (s.modReq n f).regs = s.regs := rfl
@[simp] theorem State.modReq_free (s : State) (n : Nat) (f : Req → Req) : (s.modReq n f).free = s.free := rfl
@[simp] theorem State.modReq_out (s : State) (n : Nat) (f : Req → Req) : (s.modReq n f).out = s.out := rfl
@[simp] theorem State.modReq_pending (s : State) (n : Nat) (f : Req → Req) : (s.modReq n f).pending = s.pending := rfl

@[simp] theorem State.dropReq_img (s : State) (n : Nat) : (s.dropReq n).img = s.img := rfl
@[simp] theorem State.dropReq_clk (s : State) (n : Nat) : (s.dropReq n).clk = s.clk := rfl
@[simp] theorem State.dropReq_parts (s : State) (n : Nat) : (s.dropReq n).parts = s.parts := rfl
@[simp] theorem State.dropReq_fab (s : State) (n : Nat) : (s.dropReq n).fab = s.fab := rfl
@[simp] theorem State.dropReq_xfes (s : State) (n : Nat) : (s.dropReq n).xfes = s.xfes := rfl
@[simp] theorem State.dropReq_xlt (s : State) (n : Nat) : (s.dropReq n).xlt = s.xlt := rfl
@[simp] theorem State.dropReq_mem (s : State) (n : Nat) : (s.dropReq n).mem = s.mem := rfl
@[simp] theorem State.dropReq_sites (s : State) (n : Nat) : (s.dropReq n).sites = s.sites := rfl
@[simp] theorem State.dropReq_home (s : State) (n : Nat) : (s.dropReq n).home = s.home := rfl
@[simp] theorem State.dropReq_ports (s : State) (n : Nat) : (s.dropReq n).ports = s.ports := rfl
@[simp] theorem State.dropReq_cols (s : State) (n : Nat) : (s.dropReq n).cols = s.cols := rfl
@[simp] theorem State.dropReq_host (s : State) (n : Nat) : (s.dropReq n).host = s.host := rfl
@[simp] theorem State.dropReq_vis (s : State) (n : Nat) : (s.dropReq n).vis = s.vis := rfl
@[simp] theorem State.dropReq_sec (s : State) (n : Nat) : (s.dropReq n).sec = s.sec := rfl
@[simp] theorem State.dropReq_lcs (s : State) (n : Nat) : (s.dropReq n).lcs = s.lcs := rfl
@[simp] theorem State.dropReq_dbg (s : State) (n : Nat) : (s.dropReq n).dbg = s.dbg := rfl
@[simp] theorem State.dropReq_pwr (s : State) (n : Nat) : (s.dropReq n).pwr = s.pwr := rfl
@[simp] theorem State.dropReq_thm (s : State) (n : Nat) : (s.dropReq n).thm = s.thm := rfl
@[simp] theorem State.dropReq_flt (s : State) (n : Nat) : (s.dropReq n).flt = s.flt := rfl
@[simp] theorem State.dropReq_mgt (s : State) (n : Nat) : (s.dropReq n).mgt = s.mgt := rfl
@[simp] theorem State.dropReq_trc (s : State) (n : Nat) : (s.dropReq n).trc = s.trc := rfl
@[simp] theorem State.dropReq_prfUp (s : State) (n : Nat) : (s.dropReq n).prfUp = s.prfUp := rfl
@[simp] theorem State.dropReq_prfMir (s : State) (n : Nat) : (s.dropReq n).prfMir = s.prfMir := rfl
@[simp] theorem State.dropReq_prfPeer (s : State) (n : Nat) : (s.dropReq n).prfPeer = s.prfPeer := rfl
@[simp] theorem State.dropReq_siteAck (s : State) (n : Nat) : (s.dropReq n).siteAck = s.siteAck := rfl
@[simp] theorem State.dropReq_mbxH (s : State) (n : Nat) : (s.dropReq n).mbxH = s.mbxH := rfl
@[simp] theorem State.dropReq_mbxF (s : State) (n : Nat) : (s.dropReq n).mbxF = s.mbxF := rfl
@[simp] theorem State.dropReq_indH (s : State) (n : Nat) : (s.dropReq n).indH = s.indH := rfl
@[simp] theorem State.dropReq_indF (s : State) (n : Nat) : (s.dropReq n).indF = s.indF := rfl
@[simp] theorem State.dropReq_indMem (s : State) (n : Nat) : (s.dropReq n).indMem = s.indMem := rfl
@[simp] theorem State.dropReq_regs (s : State) (n : Nat) : (s.dropReq n).regs = s.regs := rfl
@[simp] theorem State.dropReq_free (s : State) (n : Nat) : (s.dropReq n).free = s.free := rfl
@[simp] theorem State.dropReq_out (s : State) (n : Nat) : (s.dropReq n).out = s.out := rfl
@[simp] theorem State.dropReq_pending (s : State) (n : Nat) : (s.dropReq n).pending = s.pending := rfl

@[simp] theorem State.setSpdm_img (s : State) (n : Nat) (x : Spdm) : (s.setSpdm n x).img = s.img := rfl
@[simp] theorem State.setSpdm_clk (s : State) (n : Nat) (x : Spdm) : (s.setSpdm n x).clk = s.clk := rfl
@[simp] theorem State.setSpdm_parts (s : State) (n : Nat) (x : Spdm) : (s.setSpdm n x).parts = s.parts := rfl
@[simp] theorem State.setSpdm_fab (s : State) (n : Nat) (x : Spdm) : (s.setSpdm n x).fab = s.fab := rfl
@[simp] theorem State.setSpdm_xfes (s : State) (n : Nat) (x : Spdm) : (s.setSpdm n x).xfes = s.xfes := rfl
@[simp] theorem State.setSpdm_xlt (s : State) (n : Nat) (x : Spdm) : (s.setSpdm n x).xlt = s.xlt := rfl
@[simp] theorem State.setSpdm_mem (s : State) (n : Nat) (x : Spdm) : (s.setSpdm n x).mem = s.mem := rfl
@[simp] theorem State.setSpdm_noc (s : State) (n : Nat) (x : Spdm) : (s.setSpdm n x).noc = s.noc := rfl
@[simp] theorem State.setSpdm_sites (s : State) (n : Nat) (x : Spdm) : (s.setSpdm n x).sites = s.sites := rfl
@[simp] theorem State.setSpdm_home (s : State) (n : Nat) (x : Spdm) : (s.setSpdm n x).home = s.home := rfl
@[simp] theorem State.setSpdm_ports (s : State) (n : Nat) (x : Spdm) : (s.setSpdm n x).ports = s.ports := rfl
@[simp] theorem State.setSpdm_cols (s : State) (n : Nat) (x : Spdm) : (s.setSpdm n x).cols = s.cols := rfl
@[simp] theorem State.setSpdm_host (s : State) (n : Nat) (x : Spdm) : (s.setSpdm n x).host = s.host := rfl
@[simp] theorem State.setSpdm_vis (s : State) (n : Nat) (x : Spdm) : (s.setSpdm n x).vis = s.vis := rfl
@[simp] theorem State.setSpdm_lcs (s : State) (n : Nat) (x : Spdm) : (s.setSpdm n x).lcs = s.lcs := rfl
@[simp] theorem State.setSpdm_dbg (s : State) (n : Nat) (x : Spdm) : (s.setSpdm n x).dbg = s.dbg := rfl
@[simp] theorem State.setSpdm_pwr (s : State) (n : Nat) (x : Spdm) : (s.setSpdm n x).pwr = s.pwr := rfl
@[simp] theorem State.setSpdm_thm (s : State) (n : Nat) (x : Spdm) : (s.setSpdm n x).thm = s.thm := rfl
@[simp] theorem State.setSpdm_flt (s : State) (n : Nat) (x : Spdm) : (s.setSpdm n x).flt = s.flt := rfl
@[simp] theorem State.setSpdm_mgt (s : State) (n : Nat) (x : Spdm) : (s.setSpdm n x).mgt = s.mgt := rfl
@[simp] theorem State.setSpdm_trc (s : State) (n : Nat) (x : Spdm) : (s.setSpdm n x).trc = s.trc := rfl
@[simp] theorem State.setSpdm_prfUp (s : State) (n : Nat) (x : Spdm) : (s.setSpdm n x).prfUp = s.prfUp := rfl
@[simp] theorem State.setSpdm_prfMir (s : State) (n : Nat) (x : Spdm) : (s.setSpdm n x).prfMir = s.prfMir := rfl
@[simp] theorem State.setSpdm_prfPeer (s : State) (n : Nat) (x : Spdm) : (s.setSpdm n x).prfPeer = s.prfPeer := rfl
@[simp] theorem State.setSpdm_siteAck (s : State) (n : Nat) (x : Spdm) : (s.setSpdm n x).siteAck = s.siteAck := rfl
@[simp] theorem State.setSpdm_mbxH (s : State) (n : Nat) (x : Spdm) : (s.setSpdm n x).mbxH = s.mbxH := rfl
@[simp] theorem State.setSpdm_mbxF (s : State) (n : Nat) (x : Spdm) : (s.setSpdm n x).mbxF = s.mbxF := rfl
@[simp] theorem State.setSpdm_indH (s : State) (n : Nat) (x : Spdm) : (s.setSpdm n x).indH = s.indH := rfl
@[simp] theorem State.setSpdm_indF (s : State) (n : Nat) (x : Spdm) : (s.setSpdm n x).indF = s.indF := rfl
@[simp] theorem State.setSpdm_indMem (s : State) (n : Nat) (x : Spdm) : (s.setSpdm n x).indMem = s.indMem := rfl
@[simp] theorem State.setSpdm_regs (s : State) (n : Nat) (x : Spdm) : (s.setSpdm n x).regs = s.regs := rfl
@[simp] theorem State.setSpdm_free (s : State) (n : Nat) (x : Spdm) : (s.setSpdm n x).free = s.free := rfl
@[simp] theorem State.setSpdm_out (s : State) (n : Nat) (x : Spdm) : (s.setSpdm n x).out = s.out := rfl
@[simp] theorem State.setSpdm_pending (s : State) (n : Nat) (x : Spdm) : (s.setSpdm n x).pending = s.pending := rfl

/-! ### The interrupt line and ERR_N change the pins' levels and what has been sent, nothing else -/

theorem refreshPin_shape (s : State) : ∃ pin out, refreshPin s = { s with flt := { s.flt with pin := pin }, out := out } := by
  unfold refreshPin
  dsimp only
  repeat' split
  all_goals first | exact ⟨s.flt.pin, s.out, rfl⟩ | exact ⟨_, _, rfl⟩

theorem refreshInt_shape (s : State) :
    ∃ st line out, refreshInt s = { s with host := { s.host with intStatus := st, inta := line }, out := out } := by
  unfold refreshInt
  dsimp only
  split
  · exact ⟨_, _, _, rfl⟩
  · exact ⟨_, s.host.inta, s.out, rfl⟩

/-- Everything that a refresh can do: the level of ERR_N, Interrupt Status, the INTA level, and what went out. -/
theorem refresh_shape (s : State) : ∃ pin st line out, refresh s =
    { s with flt := { s.flt with pin := pin }, host := { s.host with intStatus := st, inta := line }, out := out } := by
  obtain ⟨pin, out, h⟩ := refreshPin_shape s
  obtain ⟨st, line, out2, k⟩ := refreshInt_shape (refreshPin s)
  refine ⟨pin, st, line, out2, ?_⟩
  unfold refresh
  rw [k, h]

@[simp] theorem refresh_img (s : State) : (refresh s).img = s.img := by obtain ⟨_, _, _, _, h⟩ := refresh_shape s; rw [h]
@[simp] theorem refresh_clk (s : State) : (refresh s).clk = s.clk := by obtain ⟨_, _, _, _, h⟩ := refresh_shape s; rw [h]
@[simp] theorem refresh_parts (s : State) : (refresh s).parts = s.parts := by obtain ⟨_, _, _, _, h⟩ := refresh_shape s; rw [h]
@[simp] theorem refresh_fab (s : State) : (refresh s).fab = s.fab := by obtain ⟨_, _, _, _, h⟩ := refresh_shape s; rw [h]
@[simp] theorem refresh_xfes (s : State) : (refresh s).xfes = s.xfes := by obtain ⟨_, _, _, _, h⟩ := refresh_shape s; rw [h]
@[simp] theorem refresh_xlt (s : State) : (refresh s).xlt = s.xlt := by obtain ⟨_, _, _, _, h⟩ := refresh_shape s; rw [h]
@[simp] theorem refresh_mem (s : State) : (refresh s).mem = s.mem := by obtain ⟨_, _, _, _, h⟩ := refresh_shape s; rw [h]
@[simp] theorem refresh_noc (s : State) : (refresh s).noc = s.noc := by obtain ⟨_, _, _, _, h⟩ := refresh_shape s; rw [h]
@[simp] theorem refresh_sites (s : State) : (refresh s).sites = s.sites := by obtain ⟨_, _, _, _, h⟩ := refresh_shape s; rw [h]
@[simp] theorem refresh_home (s : State) : (refresh s).home = s.home := by obtain ⟨_, _, _, _, h⟩ := refresh_shape s; rw [h]
@[simp] theorem refresh_ports (s : State) : (refresh s).ports = s.ports := by obtain ⟨_, _, _, _, h⟩ := refresh_shape s; rw [h]
@[simp] theorem refresh_cols (s : State) : (refresh s).cols = s.cols := by obtain ⟨_, _, _, _, h⟩ := refresh_shape s; rw [h]
@[simp] theorem refresh_vis (s : State) : (refresh s).vis = s.vis := by obtain ⟨_, _, _, _, h⟩ := refresh_shape s; rw [h]
@[simp] theorem refresh_sec (s : State) : (refresh s).sec = s.sec := by obtain ⟨_, _, _, _, h⟩ := refresh_shape s; rw [h]
@[simp] theorem refresh_lcs (s : State) : (refresh s).lcs = s.lcs := by obtain ⟨_, _, _, _, h⟩ := refresh_shape s; rw [h]
@[simp] theorem refresh_dbg (s : State) : (refresh s).dbg = s.dbg := by obtain ⟨_, _, _, _, h⟩ := refresh_shape s; rw [h]
@[simp] theorem refresh_pwr (s : State) : (refresh s).pwr = s.pwr := by obtain ⟨_, _, _, _, h⟩ := refresh_shape s; rw [h]
@[simp] theorem refresh_thm (s : State) : (refresh s).thm = s.thm := by obtain ⟨_, _, _, _, h⟩ := refresh_shape s; rw [h]
@[simp] theorem refresh_mgt (s : State) : (refresh s).mgt = s.mgt := by obtain ⟨_, _, _, _, h⟩ := refresh_shape s; rw [h]
@[simp] theorem refresh_trc (s : State) : (refresh s).trc = s.trc := by obtain ⟨_, _, _, _, h⟩ := refresh_shape s; rw [h]
@[simp] theorem refresh_prfUp (s : State) : (refresh s).prfUp = s.prfUp := by obtain ⟨_, _, _, _, h⟩ := refresh_shape s; rw [h]
@[simp] theorem refresh_prfMir (s : State) : (refresh s).prfMir = s.prfMir := by obtain ⟨_, _, _, _, h⟩ := refresh_shape s; rw [h]
@[simp] theorem refresh_prfPeer (s : State) : (refresh s).prfPeer = s.prfPeer := by obtain ⟨_, _, _, _, h⟩ := refresh_shape s; rw [h]
@[simp] theorem refresh_siteAck (s : State) : (refresh s).siteAck = s.siteAck := by obtain ⟨_, _, _, _, h⟩ := refresh_shape s; rw [h]
@[simp] theorem refresh_mbxH (s : State) : (refresh s).mbxH = s.mbxH := by obtain ⟨_, _, _, _, h⟩ := refresh_shape s; rw [h]
@[simp] theorem refresh_mbxF (s : State) : (refresh s).mbxF = s.mbxF := by obtain ⟨_, _, _, _, h⟩ := refresh_shape s; rw [h]
@[simp] theorem refresh_indH (s : State) : (refresh s).indH = s.indH := by obtain ⟨_, _, _, _, h⟩ := refresh_shape s; rw [h]
@[simp] theorem refresh_indF (s : State) : (refresh s).indF = s.indF := by obtain ⟨_, _, _, _, h⟩ := refresh_shape s; rw [h]
@[simp] theorem refresh_indMem (s : State) : (refresh s).indMem = s.indMem := by obtain ⟨_, _, _, _, h⟩ := refresh_shape s; rw [h]
@[simp] theorem refresh_regs (s : State) : (refresh s).regs = s.regs := by obtain ⟨_, _, _, _, h⟩ := refresh_shape s; rw [h]
@[simp] theorem refresh_free (s : State) : (refresh s).free = s.free := by obtain ⟨_, _, _, _, h⟩ := refresh_shape s; rw [h]
@[simp] theorem refresh_pending (s : State) : (refresh s).pending = s.pending := by obtain ⟨_, _, _, _, h⟩ := refresh_shape s; rw [h]
@[simp] theorem refresh_groups (s : State) : (refresh s).flt.groups = s.flt.groups := by obtain ⟨_, _, _, _, h⟩ := refresh_shape s; rw [h]
@[simp] theorem refresh_attached (s : State) : (refresh s).host.attached = s.host.attached := by obtain ⟨_, _, _, _, h⟩ := refresh_shape s; rw [h]
@[simp] theorem refresh_part (s : State) (n : Nat) : (refresh s).part n = s.part n := by unfold State.part; rw [refresh_parts]
@[simp] theorem refresh_xfe (s : State) (n : Nat) : (refresh s).xfe n = s.xfe n := by unfold State.xfe; rw [refresh_xfes]
@[simp] theorem refresh_site (s : State) (n : Nat) : (refresh s).site n = s.site n := by unfold State.site; rw [refresh_sites]
@[simp] theorem refresh_port (s : State) (n : Nat) : (refresh s).port n = s.port n := by unfold State.port; rw [refresh_ports]
@[simp] theorem refresh_cunit (s : State) (n : Nat) : (refresh s).cunit n = s.cunit n := by unfold State.cunit; rw [refresh_cols]
@[simp] theorem refresh_vi (s : State) (n : Nat) : (refresh s).vi n = s.vi n := by unfold State.vi; rw [refresh_vis]
@[simp] theorem refresh_cell (s : State) (n : Nat) : (refresh s).cell n = s.cell n := by unfold State.cell; rw [refresh_fab]
@[simp] theorem refresh_col (s : State) (n : Nat) : (refresh s).col n = s.col n := by unfold State.col; rw [refresh_fab]
@[simp] theorem refresh_quad (s : State) (n : Nat) : (refresh s).quad n = s.quad n := by unfold State.quad; rw [refresh_fab]
@[simp] theorem refresh_bank (s : State) (n : Nat) : (refresh s).bank n = s.bank n := by unfold State.bank; rw [refresh_mem]
@[simp] theorem refresh_chan (s : State) (n : Nat) : (refresh s).chan n = s.chan n := by unfold State.chan; rw [refresh_mem]
@[simp] theorem refresh_stack (s : State) (n : Nat) : (refresh s).stack n = s.stack n := by unfold State.stack; rw [refresh_mem]
@[simp] theorem refresh_granule (s : State) (n : Nat) : (refresh s).granule n = s.granule n := by unfold State.granule; rw [refresh_mem]
@[simp] theorem refresh_sealOf (s : State) (n : Nat) : (refresh s).sealOf n = s.sealOf n := by unfold State.sealOf; rw [refresh_sec]
@[simp] theorem refresh_tile (s : State) (n : Nat) : (refresh s).tile n = s.tile n := by unfold State.tile; rw [refresh_pwr]
@[simp] theorem refresh_region (s : State) (n : Nat) : (refresh s).region n = s.region n := by unfold State.region; rw [refresh_thm]
@[simp] theorem refresh_grp (s : State) (n : Nat) : (refresh s).grp n = s.grp n := by unfold State.grp; rw [refresh_groups]

/-! ### What an accessor reads after an update (canonical tables) -/

theorem State.part_setPart {s : State} (w : Tab.wf {} s.parts = true) (i : Nat) (x) : (s.setPart i x).part i = x := Tab.get_set_same w i x
theorem State.part_setPart_other {s : State} (w : Tab.wf {} s.parts = true) {i j : Nat} (h : j ≠ i) (x) : (s.setPart i x).part j = s.part j :=
  Tab.get_set_other w h x
theorem State.xfe_setXfe {s : State} (w : Tab.wf {} s.xfes = true) (i : Nat) (x) : (s.setXfe i x).xfe i = x := Tab.get_set_same w i x
theorem State.xfe_setXfe_other {s : State} (w : Tab.wf {} s.xfes = true) {i j : Nat} (h : j ≠ i) (x) : (s.setXfe i x).xfe j = s.xfe j :=
  Tab.get_set_other w h x
theorem State.site_setSite {s : State} (w : Tab.wf {} s.sites = true) (i : Nat) (x) : (s.setSite i x).site i = x := Tab.get_set_same w i x
theorem State.site_setSite_other {s : State} (w : Tab.wf {} s.sites = true) {i j : Nat} (h : j ≠ i) (x) : (s.setSite i x).site j = s.site j :=
  Tab.get_set_other w h x
theorem State.port_setPort {s : State} (w : Tab.wf {} s.ports = true) (i : Nat) (x) : (s.setPort i x).port i = x := Tab.get_set_same w i x
theorem State.port_setPort_other {s : State} (w : Tab.wf {} s.ports = true) {i j : Nat} (h : j ≠ i) (x) : (s.setPort i x).port j = s.port j :=
  Tab.get_set_other w h x
theorem State.cunit_setCunit {s : State} (w : Tab.wf {} s.cols = true) (i : Nat) (x) : (s.setCunit i x).cunit i = x := Tab.get_set_same w i x
theorem State.cunit_setCunit_other {s : State} (w : Tab.wf {} s.cols = true) {i j : Nat} (h : j ≠ i) (x) : (s.setCunit i x).cunit j = s.cunit j :=
  Tab.get_set_other w h x
theorem State.vi_setVi {s : State} (w : Tab.wf {} s.vis = true) (i : Nat) (x) : (s.setVi i x).vi i = x := Tab.get_set_same w i x
theorem State.vi_setVi_other {s : State} (w : Tab.wf {} s.vis = true) {i j : Nat} (h : j ≠ i) (x) : (s.setVi i x).vi j = s.vi j :=
  Tab.get_set_other w h x
theorem State.cell_setCell {s : State} (w : Tab.wf {} s.fab.cells = true) (i : Nat) (x) : (s.setCell i x).cell i = x := Tab.get_set_same w i x
theorem State.cell_setCell_other {s : State} (w : Tab.wf {} s.fab.cells = true) {i j : Nat} (h : j ≠ i) (x) : (s.setCell i x).cell j = s.cell j :=
  Tab.get_set_other w h x
theorem State.col_setCol {s : State} (w : Tab.wf {} s.fab.cols = true) (i : Nat) (x) : (s.setCol i x).col i = x := Tab.get_set_same w i x
theorem State.col_setCol_other {s : State} (w : Tab.wf {} s.fab.cols = true) {i j : Nat} (h : j ≠ i) (x) : (s.setCol i x).col j = s.col j :=
  Tab.get_set_other w h x
theorem State.quad_setQuad {s : State} (w : Tab.wf {} s.fab.quads = true) (i : Nat) (x) : (s.setQuad i x).quad i = x := Tab.get_set_same w i x
theorem State.quad_setQuad_other {s : State} (w : Tab.wf {} s.fab.quads = true) {i j : Nat} (h : j ≠ i) (x) : (s.setQuad i x).quad j = s.quad j :=
  Tab.get_set_other w h x
theorem State.bank_setBank {s : State} (w : Tab.wf {} s.mem.banks = true) (i : Nat) (x) : (s.setBank i x).bank i = x := Tab.get_set_same w i x
theorem State.bank_setBank_other {s : State} (w : Tab.wf {} s.mem.banks = true) {i j : Nat} (h : j ≠ i) (x) : (s.setBank i x).bank j = s.bank j :=
  Tab.get_set_other w h x
theorem State.chan_setChan {s : State} (w : Tab.wf {} s.mem.chans = true) (i : Nat) (x) : (s.setChan i x).chan i = x := Tab.get_set_same w i x
theorem State.chan_setChan_other {s : State} (w : Tab.wf {} s.mem.chans = true) {i j : Nat} (h : j ≠ i) (x) : (s.setChan i x).chan j = s.chan j :=
  Tab.get_set_other w h x
theorem State.stack_setStack {s : State} (w : Tab.wf {} s.mem.stackTab = true) (i : Nat) (x) : (s.setStack i x).stack i = x := Tab.get_set_same w i x
theorem State.stack_setStack_other {s : State} (w : Tab.wf {} s.mem.stackTab = true) {i j : Nat} (h : j ≠ i) (x) : (s.setStack i x).stack j = s.stack j :=
  Tab.get_set_other w h x
theorem State.granule_setGranule {s : State} (w : Tab.wf {} s.mem.own = true) (i : Nat) (x) : (s.setGranule i x).granule i = x := Tab.get_set_same w i x
theorem State.granule_setGranule_other {s : State} (w : Tab.wf {} s.mem.own = true) {i j : Nat} (h : j ≠ i) (x) : (s.setGranule i x).granule j = s.granule j :=
  Tab.get_set_other w h x
theorem State.sealOf_setSeal {s : State} (w : Tab.wf {} s.sec.seals = true) (i : Nat) (x) : (s.setSeal i x).sealOf i = x := Tab.get_set_same w i x
theorem State.sealOf_setSeal_other {s : State} (w : Tab.wf {} s.sec.seals = true) {i j : Nat} (h : j ≠ i) (x) : (s.setSeal i x).sealOf j = s.sealOf j :=
  Tab.get_set_other w h x
theorem State.tile_setTile {s : State} (w : Tab.wf {} s.pwr.tiles = true) (i : Nat) (x) : (s.setTile i x).tile i = x := Tab.get_set_same w i x
theorem State.tile_setTile_other {s : State} (w : Tab.wf {} s.pwr.tiles = true) {i j : Nat} (h : j ≠ i) (x) : (s.setTile i x).tile j = s.tile j :=
  Tab.get_set_other w h x
theorem State.region_setRegion {s : State} (w : Tab.wf {} s.thm.regions = true) (i : Nat) (x) : (s.setRegion i x).region i = x := Tab.get_set_same w i x
theorem State.region_setRegion_other {s : State} (w : Tab.wf {} s.thm.regions = true) {i j : Nat} (h : j ≠ i) (x) : (s.setRegion i x).region j = s.region j :=
  Tab.get_set_other w h x
theorem State.grp_setGrp {s : State} (w : Tab.rises s.flt.groups = true) (i : Nat) (x) : (s.setGrp i x).grp i = x := Tab.get_set_rises w i x
theorem State.grp_setGrp_other {s : State} (w : Tab.rises s.flt.groups = true) {i j : Nat} (h : j ≠ i) (x) : (s.setGrp i x).grp j = s.grp j :=
  Tab.get_set_rises_other w h x

end Sys2Proof.Machine
end

