-- ==== Sys2Proof/Laws/Detect.lean ====
section
/-! SUPPORT. What the detection of a fault does to the status bits: its own bit is set, and no bit is cleared, whatever follows by
way of grace, escalation or package stop (R696 to R707). -/
namespace Sys2Proof.Laws
open Sys2Proof Sys2Proof.Machine Sys2Proof.Safety

/-- Every status bit set before is set after. -/
structure StatLe (s t : State) : Prop where
  out : Tab.rises s.flt.groups = true → Tab.rises t.flt.groups = true ∧
    ∀ g i, (s.grp g).status.getLsbD i = true → (t.grp g).status.getLsbD i = true

theorem StatLe.refl (s : State) : StatLe s s := ⟨fun w => ⟨w, fun _ _ h => h⟩⟩

theorem StatLe.trans {a b c : State} (h : StatLe a b) (k : StatLe b c) : StatLe a c :=
  ⟨fun w => ⟨(k.out (h.out w).1).1, fun g i x => (k.out (h.out w).1).2 g i ((h.out w).2 g i x)⟩⟩

theorem Stat.le {a b : State} (h : Stat a b) : StatLe a b :=
  ⟨fun w => ⟨(h.out w).1, fun g i x => by rw [(h.out w).2 g]; exact x⟩⟩

theorem StatLe.ite {r a b : State} {p : Prop} [Decidable p] (ha : StatLe r a) (hb : StatLe r b) : StatLe r (if p then a else b) := by
  split <;> assumption

theorem putBit_same {n : Nat} (x : BitVec n) {i : Nat} (h : i < n) : (putBit x i true).getLsbD i = true := by
  have e : putBit x i true = x ||| BitVec.ofNat n (2 ^ i) := rfl
  rw [e, BitVec.getLsbD_or, BitVec.getLsbD_ofNat]
  simp [h, Nat.testBit_two_pow_self]

theorem putBit_keeps {n : Nat} (x : BitVec n) (i : Nat) {j : Nat} (h : x.getLsbD j = true) : (putBit x i true).getLsbD j = true := by
  have e : putBit x i true = x ||| BitVec.ofNat n (2 ^ i) := rfl
  rw [e, BitVec.getLsbD_or, h, Bool.true_or]

theorem markUnit_status (g u : Nat) (x : FGroup) : (markUnit g u x).status = x.status := by
  unfold markUnit
  repeat' split
  all_goals rfl

/-- Setting a status bit of a group. -/
theorem setBit_le {s : State} {g bit : Nat} {x : FGroup} (e : x.status = putBit (s.grp g).status bit true) :
    StatLe s (s.setGrp g x) :=
  ⟨fun w => ⟨Tab.rises_set w _ _, fun k i h => by
    by_cases hk : k = g
    · subst hk
      have e1 : ((s.setGrp k x).grp k).status = x.status := congrArg FGroup.status (Tab.get_set_rises w k x)
      rw [e1, e]
      exact putBit_keeps _ _ h
    · have e1 : ((s.setGrp g x).grp k).status = (s.grp k).status := congrArg FGroup.status (Tab.get_set_rises_other w hk x)
      rw [e1]
      exact h⟩⟩

/-- Detection clears no status bit and sets its own. -/
theorem detectN_status : ∀ (n g bit unit : Nat) (s : State), StatLe s (detectN n g bit unit s) ∧
    (Tab.rises s.flt.groups = true → bit < 32 → ((detectN n g bit unit s).grp g).status.getLsbD bit = true)
  | 0, g, bit, unit, s => by
    refine ⟨setBit_le rfl, fun w hb => ?_⟩
    have e1 : ((detectN 0 g bit unit s).grp g).status = putBit (s.grp g).status bit true :=
      congrArg FGroup.status (Tab.get_set_rises w g _)
    rw [e1]
    exact putBit_same _ hb
  | k + 1, g, bit, unit, s => by
    have step : ∀ (x : FGroup), x.status = putBit (s.grp g).status bit true → ∀ t, StatLe ((s.setGrp g x).emit (.faultSignal g bit)) t →
        StatLe s t ∧ (Tab.rises s.flt.groups = true → bit < 32 → (t.grp g).status.getLsbD bit = true) := by
      intro x ex t ht
      have h1 : StatLe s ((s.setGrp g x).emit (.faultSignal g bit)) := StatLe.trans (setBit_le ex) (Stat.le (stat_emit (Stat.refl _)))
      refine ⟨StatLe.trans h1 ht, fun w hb => ?_⟩
      apply (ht.out (h1.out w).1).2 g bit
      have e1 : (((s.setGrp g x).emit (.faultSignal g bit)).grp g).status = x.status :=
        congrArg FGroup.status (Tab.get_set_rises w g x)
      rw [e1, ex]
      exact putBit_same _ hb
    have stop : ∀ (c : Nat) (r t : State), StatLe r t → StatLe r (if t.flt.stopped then t else
        detectN k 7 1 0 (if c = 2 then detectN k 7 2 0 (stopPackage c g bit t) else stopPackage c g bit t)) := by
      intro c r t h
      have h2 : StatLe r (stopPackage c g bit t) := StatLe.trans h (Stat.le (stat_stopPackage (Stat.refl _)))
      exact StatLe.ite h (StatLe.trans (StatLe.ite (StatLe.trans h2 (detectN_status k 7 2 0 _).1) h2) (detectN_status k 7 1 0 _).1)
    have esc : ∀ r t : State, StatLe r t → StatLe r (escalateOnce g t).2 := fun r t h =>
      StatLe.trans h (Stat.le (stat_escalateOnce (Stat.refl _)))
    unfold detectN
    refine step
      (markUnit g unit
        { s.grp g with
          status := putBit (s.grp g).status bit true
          unacked := putBit (s.grp g).unacked bit true
          units := if (s.grp g).units.contains (bit, unit) then (s.grp g).units else (s.grp g).units ++ [(bit, unit)] })
      (markUnit_status _ _ _) _ ?_
    dsimp only
    generalize (s.setGrp g _).emit _ = y
    apply StatLe.ite (StatLe.refl _)
    have h3 := esc y y (StatLe.refl y)
    have h4 := StatLe.ite (p := (escalateOnce g y).1 = true) (stop 1 _ _ h3) h3
    apply StatLe.ite
    · exact StatLe.trans h4 (detectN_status k 7 3 0 _).1
    · apply StatLe.ite
      · exact h4
      · have h5 : ∀ z : FGroup, z.status = (y.grp g).status → StatLe y (y.setGrp g z) :=
          fun z e => Stat.le (stat_setGrp (Stat.refl _) e)
        exact StatLe.ite (stop 2 _ _ (h5 _ rfl)) (h5 _ rfl)

/-- A fault sets its status bit. -/
theorem raise_sets {g bit unit : Nat} {s : State} (w : Tab.rises s.flt.groups = true) (hb : bit < 32) :
    ((raise g bit unit s).grp g).status.getLsbD bit = true := by
  have h := (detectN_status 6 g bit unit s)
  have k : Stat (detectN 6 g bit unit s) (refresh (detectN 6 g bit unit s)) := stat_refresh (Stat.refl _)
  exact ((Stat.le k).out (h.1.out w).1).2 g bit (h.2 w hb)

/-- A fault clears no status bit. -/
theorem raise_le {g bit unit : Nat} {s : State} : StatLe s (raise g bit unit s) :=
  StatLe.trans (detectN_status 6 g bit unit s).1 (Stat.le (stat_refresh (Stat.refl _)))

/-! ### A fault that is only noted -/

theorem ite_cases {P : State → Prop} {c : Prop} [Decidable c] {a b : State} (ha : c → P a) (hb : ¬c → P b) : P (if c then a else b) := by
  by_cases h : c
  · rw [if_pos h]; exact ha h
  · rw [if_neg h]; exact hb h

theorem filter_one {p q : Nat → Bool} {g : Nat} (h : ∀ k, k ≠ g → p k = q k) :
    ∀ l : List Nat, l.Nodup → (l.filter p).length ≤ (l.filter q).length + 1
  | [], _ => Nat.zero_le _
  | a :: l, nd => by
    rw [List.nodup_cons] at nd
    by_cases e : a = g
    · have c : l.filter p = l.filter q := List.filter_congr (fun k hk => h k (fun hkg => nd.1 (by rw [e, ← hkg]; exact hk)))
      rw [List.filter_cons, List.filter_cons, c]
      split <;> split <;> first | omega | (simp only [List.length_cons]; omega)
    · have k := filter_one h l nd.2
      rw [List.filter_cons, List.filter_cons, h a e]
      split <;> first | omega | (simp only [List.length_cons]; omega)

/-- Changing one group lets at most one more group be in grace. -/
theorem graceGroups_step {s t : State} {g : Nat} (h : ∀ k, k ≠ g → t.grp k = s.grp k) :
    (graceGroups t).length ≤ (graceGroups s).length + 1 :=
  filter_one (g := g) (fun k hk => by dsimp only; rw [h k hk]) _ List.nodup_range

theorem markUnit_action (g u : Nat) (x : FGroup) : (markUnit g u x).action = x.action := by
  unfold markUnit
  repeat' split
  all_goals rfl
theorem markUnit_timer (g u : Nat) (x : FGroup) : (markUnit g u x).timer = x.timer := by
  unfold markUnit
  repeat' split
  all_goals rfl
theorem markUnit_grace (g u : Nat) (x : FGroup) : (markUnit g u x).grace = x.grace := by
  unfold markUnit
  repeat' split
  all_goals rfl

/-- A fault of a calm group changes the fault block, the interrupt line and what has been sent, and nothing else. -/
theorem raise_calm {g bit unit : Nat} {s : State} (w : Tab.rises s.flt.groups = true) (h : Calm g s) :
    ∃ groups pin line st out, raise g bit unit s =
      { s with flt := { s.flt with groups := groups, pin := pin }, host := { s.host with inta := line, intStatus := st }, out := out } := by
  have d : ∃ groups out, detectN 6 g bit unit s = { s with flt := { s.flt with groups := groups }, out := out } := by
    unfold detectN
    dsimp only
    have w1 : ∀ x, Tab.rises ((s.setGrp g x).emit (.faultSignal g bit)).flt.groups = true := fun x => Tab.rises_set w _ _
    have e1 : ∀ x, (((s.setGrp g x).emit (.faultSignal g bit)).grp g) = x := fun x => Tab.get_set_rises w g x
    have e2 : ∀ x k, k ≠ g → (((s.setGrp g x).emit (.faultSignal g bit)).grp k) = s.grp k := fun x k hk => Tab.get_set_rises_other w hk x
    rcases h with h | h | ⟨hg, ht, hth⟩
    · rw [if_pos]
      · exact ⟨_, _, rfl⟩
      · refine (Bool.or_eq_true _ _).mpr (.inl ((Bool.or_eq_true _ _).mpr (.inr ?_)))
        rw [markUnit_action]
        exact beq_iff_eq.mpr h
    · rw [if_pos]
      · exact ⟨_, _, rfl⟩
      · exact (Bool.or_eq_true _ _).mpr (.inr h)
    · refine ite_cases (P := fun t => ∃ groups out, t = { s with flt := { s.flt with groups := groups }, out := out }) (fun _ => ⟨_, _, rfl⟩) (fun _ => ?_)
      rw [markUnit_timer, markUnit_grace, if_neg (by rw [ht]; exact Bool.false_ne_true), if_neg hg]
      refine ite_cases (P := fun t => ∃ groups out, t = { s with flt := { s.flt with groups := groups }, out := out }) (fun c => ?_) (fun _ => ⟨_, _, rfl⟩)
      exfalso
      rcases hth with d | d
      · exact c.1 d
      · refine absurd (Nat.le_trans c.2 (graceGroups_step (g := g) (s := s) ?_)) (Nat.not_le.mpr d)
        intro k hk
        exact (Tab.get_set_rises_other (w1 _) hk _).trans (e2 _ k hk)
  obtain ⟨gr, o, e⟩ := d
  obtain ⟨pin, st, line, out, r⟩ := refresh_shape (detectN 6 g bit unit s)
  unfold raise
  rw [r, e]
  exact ⟨gr, pin, line, st, out, rfl⟩

theorem raise_calm_img {g bit unit : Nat} {s : State} (w : Tab.rises s.flt.groups = true) (h : Calm g s) :
    (raise g bit unit s).img = s.img := by obtain ⟨_, _, _, _, _, e⟩ := raise_calm (bit := bit) (unit := unit) w h; rw [e]
theorem raise_calm_clk {g bit unit : Nat} {s : State} (w : Tab.rises s.flt.groups = true) (h : Calm g s) :
    (raise g bit unit s).clk = s.clk := by obtain ⟨_, _, _, _, _, e⟩ := raise_calm (bit := bit) (unit := unit) w h; rw [e]
theorem raise_calm_parts {g bit unit : Nat} {s : State} (w : Tab.rises s.flt.groups = true) (h : Calm g s) :
    (raise g bit unit s).parts = s.parts := by obtain ⟨_, _, _, _, _, e⟩ := raise_calm (bit := bit) (unit := unit) w h; rw [e]
theorem raise_calm_fab {g bit unit : Nat} {s : State} (w : Tab.rises s.flt.groups = true) (h : Calm g s) :
    (raise g bit unit s).fab = s.fab := by obtain ⟨_, _, _, _, _, e⟩ := raise_calm (bit := bit) (unit := unit) w h; rw [e]
theorem raise_calm_xfes {g bit unit : Nat} {s : State} (w : Tab.rises s.flt.groups = true) (h : Calm g s) :
    (raise g bit unit s).xfes = s.xfes := by obtain ⟨_, _, _, _, _, e⟩ := raise_calm (bit := bit) (unit := unit) w h; rw [e]
theorem raise_calm_xlt {g bit unit : Nat} {s : State} (w : Tab.rises s.flt.groups = true) (h : Calm g s) :
    (raise g bit unit s).xlt = s.xlt := by obtain ⟨_, _, _, _, _, e⟩ := raise_calm (bit := bit) (unit := unit) w h; rw [e]
theorem raise_calm_mem {g bit unit : Nat} {s : State} (w : Tab.rises s.flt.groups = true) (h : Calm g s) :
    (raise g bit unit s).mem = s.mem := by obtain ⟨_, _, _, _, _, e⟩ := raise_calm (bit := bit) (unit := unit) w h; rw [e]
theorem raise_calm_noc {g bit unit : Nat} {s : State} (w : Tab.rises s.flt.groups = true) (h : Calm g s) :
    (raise g bit unit s).noc = s.noc := by obtain ⟨_, _, _, _, _, e⟩ := raise_calm (bit := bit) (unit := unit) w h; rw [e]
theorem raise_calm_sites {g bit unit : Nat} {s : State} (w : Tab.rises s.flt.groups = true) (h : Calm g s) :
    (raise g bit unit s).sites = s.sites := by obtain ⟨_, _, _, _, _, e⟩ := raise_calm (bit := bit) (unit := unit) w h; rw [e]
theorem raise_calm_home {g bit unit : Nat} {s : State} (w : Tab.rises s.flt.groups = true) (h : Calm g s) :
    (raise g bit unit s).home = s.home := by obtain ⟨_, _, _, _, _, e⟩ := raise_calm (bit := bit) (unit := unit) w h; rw [e]
theorem raise_calm_ports {g bit unit : Nat} {s : State} (w : Tab.rises s.flt.groups = true) (h : Calm g s) :
    (raise g bit unit s).ports = s.ports := by obtain ⟨_, _, _, _, _, e⟩ := raise_calm (bit := bit) (unit := unit) w h; rw [e]
theorem raise_calm_cols {g bit unit : Nat} {s : State} (w : Tab.rises s.flt.groups = true) (h : Calm g s) :
    (raise g bit unit s).cols = s.cols := by obtain ⟨_, _, _, _, _, e⟩ := raise_calm (bit := bit) (unit := unit) w h; rw [e]
theorem raise_calm_vis {g bit unit : Nat} {s : State} (w : Tab.rises s.flt.groups = true) (h : Calm g s) :
    (raise g bit unit s).vis = s.vis := by obtain ⟨_, _, _, _, _, e⟩ := raise_calm (bit := bit) (unit := unit) w h; rw [e]
theorem raise_calm_sec {g bit unit : Nat} {s : State} (w : Tab.rises s.flt.groups = true) (h : Calm g s) :
    (raise g bit unit s).sec = s.sec := by obtain ⟨_, _, _, _, _, e⟩ := raise_calm (bit := bit) (unit := unit) w h; rw [e]
theorem raise_calm_lcs {g bit unit : Nat} {s : State} (w : Tab.rises s.flt.groups = true) (h : Calm g s) :
    (raise g bit unit s).lcs = s.lcs := by obtain ⟨_, _, _, _, _, e⟩ := raise_calm (bit := bit) (unit := unit) w h; rw [e]
theorem raise_calm_dbg {g bit unit : Nat} {s : State} (w : Tab.rises s.flt.groups = true) (h : Calm g s) :
    (raise g bit unit s).dbg = s.dbg := by obtain ⟨_, _, _, _, _, e⟩ := raise_calm (bit := bit) (unit := unit) w h; rw [e]
theorem raise_calm_pwr {g bit unit : Nat} {s : State} (w : Tab.rises s.flt.groups = true) (h : Calm g s) :
    (raise g bit unit s).pwr = s.pwr := by obtain ⟨_, _, _, _, _, e⟩ := raise_calm (bit := bit) (unit := unit) w h; rw [e]
theorem raise_calm_thm {g bit unit : Nat} {s : State} (w : Tab.rises s.flt.groups = true) (h : Calm g s) :
    (raise g bit unit s).thm = s.thm := by obtain ⟨_, _, _, _, _, e⟩ := raise_calm (bit := bit) (unit := unit) w h; rw [e]
theorem raise_calm_mgt {g bit unit : Nat} {s : State} (w : Tab.rises s.flt.groups = true) (h : Calm g s) :
    (raise g bit unit s).mgt = s.mgt := by obtain ⟨_, _, _, _, _, e⟩ := raise_calm (bit := bit) (unit := unit) w h; rw [e]
theorem raise_calm_trc {g bit unit : Nat} {s : State} (w : Tab.rises s.flt.groups = true) (h : Calm g s) :
    (raise g bit unit s).trc = s.trc := by obtain ⟨_, _, _, _, _, e⟩ := raise_calm (bit := bit) (unit := unit) w h; rw [e]
theorem raise_calm_prfUp {g bit unit : Nat} {s : State} (w : Tab.rises s.flt.groups = true) (h : Calm g s) :
    (raise g bit unit s).prfUp = s.prfUp := by obtain ⟨_, _, _, _, _, e⟩ := raise_calm (bit := bit) (unit := unit) w h; rw [e]
theorem raise_calm_prfMir {g bit unit : Nat} {s : State} (w : Tab.rises s.flt.groups = true) (h : Calm g s) :
    (raise g bit unit s).prfMir = s.prfMir := by obtain ⟨_, _, _, _, _, e⟩ := raise_calm (bit := bit) (unit := unit) w h; rw [e]
theorem raise_calm_prfPeer {g bit unit : Nat} {s : State} (w : Tab.rises s.flt.groups = true) (h : Calm g s) :
    (raise g bit unit s).prfPeer = s.prfPeer := by obtain ⟨_, _, _, _, _, e⟩ := raise_calm (bit := bit) (unit := unit) w h; rw [e]
theorem raise_calm_siteAck {g bit unit : Nat} {s : State} (w : Tab.rises s.flt.groups = true) (h : Calm g s) :
    (raise g bit unit s).siteAck = s.siteAck := by obtain ⟨_, _, _, _, _, e⟩ := raise_calm (bit := bit) (unit := unit) w h; rw [e]
theorem raise_calm_mbxH {g bit unit : Nat} {s : State} (w : Tab.rises s.flt.groups = true) (h : Calm g s) :
    (raise g bit unit s).mbxH = s.mbxH := by obtain ⟨_, _, _, _, _, e⟩ := raise_calm (bit := bit) (unit := unit) w h; rw [e]
theorem raise_calm_mbxF {g bit unit : Nat} {s : State} (w : Tab.rises s.flt.groups = true) (h : Calm g s) :
    (raise g bit unit s).mbxF = s.mbxF := by obtain ⟨_, _, _, _, _, e⟩ := raise_calm (bit := bit) (unit := unit) w h; rw [e]
theorem raise_calm_indH {g bit unit : Nat} {s : State} (w : Tab.rises s.flt.groups = true) (h : Calm g s) :
    (raise g bit unit s).indH = s.indH := by obtain ⟨_, _, _, _, _, e⟩ := raise_calm (bit := bit) (unit := unit) w h; rw [e]
theorem raise_calm_indF {g bit unit : Nat} {s : State} (w : Tab.rises s.flt.groups = true) (h : Calm g s) :
    (raise g bit unit s).indF = s.indF := by obtain ⟨_, _, _, _, _, e⟩ := raise_calm (bit := bit) (unit := unit) w h; rw [e]
theorem raise_calm_indMem {g bit unit : Nat} {s : State} (w : Tab.rises s.flt.groups = true) (h : Calm g s) :
    (raise g bit unit s).indMem = s.indMem := by obtain ⟨_, _, _, _, _, e⟩ := raise_calm (bit := bit) (unit := unit) w h; rw [e]
theorem raise_calm_regs {g bit unit : Nat} {s : State} (w : Tab.rises s.flt.groups = true) (h : Calm g s) :
    (raise g bit unit s).regs = s.regs := by obtain ⟨_, _, _, _, _, e⟩ := raise_calm (bit := bit) (unit := unit) w h; rw [e]
theorem raise_calm_free {g bit unit : Nat} {s : State} (w : Tab.rises s.flt.groups = true) (h : Calm g s) :
    (raise g bit unit s).free = s.free := by obtain ⟨_, _, _, _, _, e⟩ := raise_calm (bit := bit) (unit := unit) w h; rw [e]
theorem raise_calm_pending {g bit unit : Nat} {s : State} (w : Tab.rises s.flt.groups = true) (h : Calm g s) :
    (raise g bit unit s).pending = s.pending := by obtain ⟨_, _, _, _, _, e⟩ := raise_calm (bit := bit) (unit := unit) w h; rw [e]

end Sys2Proof.Laws
end

