-- ==== Sys2Proof/Laws/Frame.lean ====
section
/-! SUPPORT. What every operation of the hub leaves alone, as one relation between the state before and after: an operation changes
an area of the state only where its mask names the area. The relation composes, so that an operation's lemma follows from those of
the operations it calls. -/
namespace Sys2Proof.Laws
open Sys2Proof Sys2Proof.Machine Sys2Proof.Safety

/-- Every area of one mask is an area of another. -/
abbrev Sub (a b : Nat) : Prop := a &&& b = a

theorem Sub.trans {a b c : Nat} (h : Sub a b) (k : Sub b c) : Sub a c := by
  unfold Sub at *
  rw [← h, Nat.land_assoc, k]

/-- What is the same before and after where the mask does not name the area: 0 no byte of memory gains a value, 1 the host window table, 2 the device mappings, 3 the running image, 4 OTP, 5 the life-cycle block, 6 the debug block, 7 the thermal block, 8 the proof ports, 9 `PRF_SITE_ACK`, 10 the mailboxes of wide values, 11 the indirect pairs, 12 the stored registers, 13 the image being loaded and the armed images, 14 the management mailbox, 15 the time base, 16 what firmware runs and holds, 17 the packets, flits and credits of the on-chip network. -/
structure Frm (w : Nat) (s t : State) : Prop where
  memory : w.testBit 0 = false → List.Sublist t.mem.bytes s.mem.bytes
  windows : w.testBit 1 = false → t.xlt.hwt = s.xlt.hwt
  mappings : w.testBit 2 = false → t.xlt.maps = s.xlt.maps ∧ t.xlt.roots = s.xlt.roots
  image : w.testBit 3 = false → t.img.run = s.img.run ∧ t.img.loaded = s.img.loaded
  otp : w.testBit 4 = false → t.lcs.otp = s.lcs.otp
  life : w.testBit 5 = false → t.lcs.status = s.lcs.status ∧ t.lcs.transition = s.lcs.transition ∧ t.lcs.target = s.lcs.target
  debug : w.testBit 6 = false → t.dbg = s.dbg
  thermal : w.testBit 7 = false → t.thm = s.thm
  ports : w.testBit 8 = false → t.prfUp = s.prfUp ∧ t.prfPeer = s.prfPeer
  acks : w.testBit 9 = false → t.siteAck = s.siteAck
  captures : w.testBit 10 = false → t.mbxH = s.mbxH ∧ t.mbxF = s.mbxF
  pairs : w.testBit 11 = false → t.indH = s.indH ∧ t.indF = s.indF ∧ t.indMem = s.indMem
  regs : w.testBit 12 = false → t.regs = s.regs
  load : w.testBit 13 = false → t.img.load = s.img.load ∧ t.img.armed = s.img.armed ∧ t.img.fullOk = s.img.fullOk ∧ t.img.report = s.img.report
  mailbox : w.testBit 14 = false → t.mgt.busy = s.mgt.busy ∧ t.mgt.done = s.mgt.done ∧ t.mgt.mbStatus = s.mgt.mbStatus ∧ t.mgt.mbTag = s.mgt.mbTag ∧ t.mgt.curTag = s.mgt.curTag ∧ t.mgt.args = s.mgt.args ∧ t.mgt.resp = s.mgt.resp
  clock : w.testBit 15 = false → t.clk = s.clk
  firmware : w.testBit 16 = false → t.mgt.stage = s.mgt.stage ∧ t.mgt.running = s.mgt.running ∧ t.mgt.fw = s.mgt.fw ∧ t.mgt.rcvOn = s.mgt.rcvOn ∧ t.mgt.rcv = s.mgt.rcv ∧ t.mgt.coldReq = s.mgt.coldReq ∧ t.mgt.flashOp = s.mgt.flashOp
  network : w.testBit 17 = false → t.noc.net = s.noc.net

theorem Frm.refl (w : Nat) (s : State) : Frm w s s := by
  constructor <;> intro _ <;> first | exact List.Sublist.refl _ | exact ⟨rfl, rfl, rfl, rfl, rfl, rfl, rfl⟩ | exact ⟨rfl, rfl, rfl, rfl⟩ | exact ⟨rfl, rfl, rfl⟩ | exact ⟨rfl, rfl⟩ | rfl

theorem Frm.trans {w : Nat} {a b c : State} (h : Frm w a b) (k : Frm w b c) : Frm w a c where
  memory x := (k.memory x).trans (h.memory x)
  windows x := ((k.windows x)).trans (h.windows x)
  mappings x := ⟨((k.mappings x).1).trans (h.mappings x).1, ((k.mappings x).2).trans (h.mappings x).2⟩
  image x := ⟨((k.image x).1).trans (h.image x).1, ((k.image x).2).trans (h.image x).2⟩
  otp x := ((k.otp x)).trans (h.otp x)
  life x := ⟨((k.life x).1).trans (h.life x).1, ((k.life x).2.1).trans (h.life x).2.1, ((k.life x).2.2).trans (h.life x).2.2⟩
  debug x := ((k.debug x)).trans (h.debug x)
  thermal x := ((k.thermal x)).trans (h.thermal x)
  ports x := ⟨((k.ports x).1).trans (h.ports x).1, ((k.ports x).2).trans (h.ports x).2⟩
  acks x := ((k.acks x)).trans (h.acks x)
  captures x := ⟨((k.captures x).1).trans (h.captures x).1, ((k.captures x).2).trans (h.captures x).2⟩
  pairs x := ⟨((k.pairs x).1).trans (h.pairs x).1, ((k.pairs x).2.1).trans (h.pairs x).2.1, ((k.pairs x).2.2).trans (h.pairs x).2.2⟩
  regs x := ((k.regs x)).trans (h.regs x)
  load x := ⟨((k.load x).1).trans (h.load x).1, ((k.load x).2.1).trans (h.load x).2.1, ((k.load x).2.2.1).trans (h.load x).2.2.1, ((k.load x).2.2.2).trans (h.load x).2.2.2⟩
  mailbox x := ⟨((k.mailbox x).1).trans (h.mailbox x).1, ((k.mailbox x).2.1).trans (h.mailbox x).2.1, ((k.mailbox x).2.2.1).trans (h.mailbox x).2.2.1, ((k.mailbox x).2.2.2.1).trans (h.mailbox x).2.2.2.1, ((k.mailbox x).2.2.2.2.1).trans (h.mailbox x).2.2.2.2.1, ((k.mailbox x).2.2.2.2.2.1).trans (h.mailbox x).2.2.2.2.2.1, ((k.mailbox x).2.2.2.2.2.2).trans (h.mailbox x).2.2.2.2.2.2⟩
  clock x := ((k.clock x)).trans (h.clock x)
  firmware x := ⟨((k.firmware x).1).trans (h.firmware x).1, ((k.firmware x).2.1).trans (h.firmware x).2.1, ((k.firmware x).2.2.1).trans (h.firmware x).2.2.1, ((k.firmware x).2.2.2.1).trans (h.firmware x).2.2.2.1, ((k.firmware x).2.2.2.2.1).trans (h.firmware x).2.2.2.2.1, ((k.firmware x).2.2.2.2.2.1).trans (h.firmware x).2.2.2.2.2.1, ((k.firmware x).2.2.2.2.2.2).trans (h.firmware x).2.2.2.2.2.2⟩
  network x := ((k.network x)).trans (h.network x)

theorem Sub.bit {a b : Nat} (h : Sub a b) {i : Nat} (k : a.testBit i = true) : b.testBit i = true := by
  have e := congrArg (fun n => n.testBit i) h
  simp only [Nat.testBit_land] at e
  rw [k, Bool.true_and] at e
  exact e

theorem off {b : Bool} {p : Prop} (h : b = true ∨ p) (e : b = false) : p := by
  rcases h with h | h
  · rw [e] at h; cases h
  · exact h

/-- A state that differs outside the areas, or inside those that the mask names. -/
theorem Frm.step {w : Nat} {r x t : State} (h : Frm w r x)
    (memory : w.testBit 0 = true ∨ List.Sublist t.mem.bytes x.mem.bytes)
    (windows : w.testBit 1 = true ∨ t.xlt.hwt = x.xlt.hwt)
    (mappings : w.testBit 2 = true ∨ t.xlt.maps = x.xlt.maps ∧ t.xlt.roots = x.xlt.roots)
    (image : w.testBit 3 = true ∨ t.img.run = x.img.run ∧ t.img.loaded = x.img.loaded)
    (otp : w.testBit 4 = true ∨ t.lcs.otp = x.lcs.otp)
    (life : w.testBit 5 = true ∨ t.lcs.status = x.lcs.status ∧ t.lcs.transition = x.lcs.transition ∧ t.lcs.target = x.lcs.target)
    (debug : w.testBit 6 = true ∨ t.dbg = x.dbg)
    (thermal : w.testBit 7 = true ∨ t.thm = x.thm)
    (ports : w.testBit 8 = true ∨ t.prfUp = x.prfUp ∧ t.prfPeer = x.prfPeer)
    (acks : w.testBit 9 = true ∨ t.siteAck = x.siteAck)
    (captures : w.testBit 10 = true ∨ t.mbxH = x.mbxH ∧ t.mbxF = x.mbxF)
    (pairs : w.testBit 11 = true ∨ t.indH = x.indH ∧ t.indF = x.indF ∧ t.indMem = x.indMem)
    (regs : w.testBit 12 = true ∨ t.regs = x.regs)
    (load : w.testBit 13 = true ∨ t.img.load = x.img.load ∧ t.img.armed = x.img.armed ∧ t.img.fullOk = x.img.fullOk ∧ t.img.report = x.img.report)
    (mailbox : w.testBit 14 = true ∨ t.mgt.busy = x.mgt.busy ∧ t.mgt.done = x.mgt.done ∧ t.mgt.mbStatus = x.mgt.mbStatus ∧ t.mgt.mbTag = x.mgt.mbTag ∧ t.mgt.curTag = x.mgt.curTag ∧ t.mgt.args = x.mgt.args ∧ t.mgt.resp = x.mgt.resp)
    (clock : w.testBit 15 = true ∨ t.clk = x.clk)
    (firmware : w.testBit 16 = true ∨ t.mgt.stage = x.mgt.stage ∧ t.mgt.running = x.mgt.running ∧ t.mgt.fw = x.mgt.fw ∧ t.mgt.rcvOn = x.mgt.rcvOn ∧ t.mgt.rcv = x.mgt.rcv ∧ t.mgt.coldReq = x.mgt.coldReq ∧ t.mgt.flashOp = x.mgt.flashOp)
    (network : w.testBit 17 = true ∨ t.noc.net = x.noc.net) : Frm w r t := by
  exact h.trans ⟨off memory, off windows, off mappings, off image, off otp, off life, off debug, off thermal, off ports, off acks, off captures, off pairs, off regs, off load, off mailbox, off clock, off firmware, off network⟩

/-- A state that differs in fields that the relation does not speak of. -/
theorem Frm.rest {w : Nat} {r x : State} (h : Frm w r x)
    {parts fab xfes xltPend xltAtsEn xltPriEn xltPriStopped xltPriAlloc xltBufs xltL2 xltAtsWait xltInvals xltInvCount xltInvMax xltL2Hits xltL2Misses xltPrqCount xltOrder xltPtGrans xltPtUsed memPoison memOwn memBanks memChans memStackTab memPpr memHppr memDue memToZero memLeaving nocReqs nocResps nocNextTag nocRoutes nocVroutes nocRoutesOk nocSegsUp nocFlitCe nocDrops nocTimeouts nocLastDrop nocQports nocQparts nocShown nocMissPart sites home ports cols host vis sec lcsPcw lcsDeferred lcsOtpLater lcsRollLater lcsDeferTo lcsFinished lcsWipeRep pwr flt mgtOnTrial mgtPeel mgtStaged mgtCommitDue mgtOldFw mgtOldRun mgtUnavailAt mgtJumpAt mgtDeferAt mgtEmergAt mgtHandRec mgtWdtPeriod mgtWdtExp mgtHalted mgtUnavail mgtFlash mgtLog mgtLogHead mgtLogSeq mgtPldmQ mgtFlatReason mgtRcvRun mgtStopStart mgtPldmImg mgtPldmTo mgtFindings mgtLinkTests trc prfMir free out pending} :
    Frm w r ⟨⟨x.img.loaded, x.img.run, x.img.load, x.img.armed, x.img.report, x.img.fullOk⟩, x.clk, parts, fab, xfes, ⟨x.xlt.hwt, xltPend, xltAtsEn, xltPriEn, xltPriStopped, xltPriAlloc, xltBufs, xltL2, xltAtsWait, xltInvals, xltInvCount, xltInvMax, xltL2Hits, xltL2Misses, xltPrqCount, xltOrder, x.xlt.roots, x.xlt.maps, xltPtGrans, xltPtUsed⟩, ⟨x.mem.bytes, memPoison, memOwn, memBanks, memChans, memStackTab, memPpr, memHppr, memDue, memToZero, memLeaving⟩, ⟨x.noc.net, nocReqs, nocResps, nocNextTag, nocRoutes, nocVroutes, nocRoutesOk, nocSegsUp, nocFlitCe, nocDrops, nocTimeouts, nocLastDrop, nocQports, nocQparts, nocShown, nocMissPart⟩, sites, home, ports, cols, host, vis, sec, ⟨x.lcs.otp, lcsPcw, x.lcs.transition, x.lcs.status, x.lcs.target, lcsDeferred, lcsOtpLater, lcsRollLater, lcsDeferTo, lcsFinished, lcsWipeRep⟩, x.dbg, pwr, x.thm, flt, ⟨x.mgt.stage, x.mgt.running, mgtOnTrial, x.mgt.fw, mgtPeel, mgtStaged, mgtCommitDue, mgtOldFw, mgtOldRun, mgtUnavailAt, mgtJumpAt, mgtDeferAt, mgtEmergAt, mgtHandRec, mgtWdtPeriod, mgtWdtExp, mgtHalted, x.mgt.busy, mgtUnavail, x.mgt.done, x.mgt.mbStatus, x.mgt.mbTag, x.mgt.curTag, x.mgt.args, x.mgt.resp, x.mgt.rcvOn, x.mgt.rcv, x.mgt.coldReq, mgtFlash, x.mgt.flashOp, mgtLog, mgtLogHead, mgtLogSeq, mgtPldmQ, mgtFlatReason, mgtRcvRun, mgtStopStart, mgtPldmImg, mgtPldmTo, mgtFindings, mgtLinkTests⟩, trc, x.prfUp, prfMir, x.prfPeer, x.siteAck, x.mbxH, x.mbxF, x.indH, x.indF, x.indMem, x.regs, free, out, pending⟩ := by
  apply h.step <;> first | exact .inr (List.Sublist.refl _) | exact .inr ⟨rfl, rfl, rfl, rfl, rfl, rfl, rfl⟩ | exact .inr ⟨rfl, rfl, rfl, rfl⟩ | exact .inr ⟨rfl, rfl, rfl⟩ | exact .inr ⟨rfl, rfl⟩ | exact .inr rfl

/-- A change of memory. -/
theorem Frm.ch0 {w : Nat} {r x : State} (c : Sub 1 w) (h : Frm w r x)
    {parts fab xfes xltPend xltAtsEn xltPriEn xltPriStopped xltPriAlloc xltBufs xltL2 xltAtsWait xltInvals xltInvCount xltInvMax xltL2Hits xltL2Misses xltPrqCount xltOrder xltPtGrans xltPtUsed memBytes memPoison memOwn memBanks memChans memStackTab memPpr memHppr memDue memToZero memLeaving nocReqs nocResps nocNextTag nocRoutes nocVroutes nocRoutesOk nocSegsUp nocFlitCe nocDrops nocTimeouts nocLastDrop nocQports nocQparts nocShown nocMissPart sites home ports cols host vis sec lcsPcw lcsDeferred lcsOtpLater lcsRollLater lcsDeferTo lcsFinished lcsWipeRep pwr flt mgtOnTrial mgtPeel mgtStaged mgtCommitDue mgtOldFw mgtOldRun mgtUnavailAt mgtJumpAt mgtDeferAt mgtEmergAt mgtHandRec mgtWdtPeriod mgtWdtExp mgtHalted mgtUnavail mgtFlash mgtLog mgtLogHead mgtLogSeq mgtPldmQ mgtFlatReason mgtRcvRun mgtStopStart mgtPldmImg mgtPldmTo mgtFindings mgtLinkTests trc prfMir free out pending} :
    Frm w r ⟨⟨x.img.loaded, x.img.run, x.img.load, x.img.armed, x.img.report, x.img.fullOk⟩, x.clk, parts, fab, xfes, ⟨x.xlt.hwt, xltPend, xltAtsEn, xltPriEn, xltPriStopped, xltPriAlloc, xltBufs, xltL2, xltAtsWait, xltInvals, xltInvCount, xltInvMax, xltL2Hits, xltL2Misses, xltPrqCount, xltOrder, x.xlt.roots, x.xlt.maps, xltPtGrans, xltPtUsed⟩, ⟨memBytes, memPoison, memOwn, memBanks, memChans, memStackTab, memPpr, memHppr, memDue, memToZero, memLeaving⟩, ⟨x.noc.net, nocReqs, nocResps, nocNextTag, nocRoutes, nocVroutes, nocRoutesOk, nocSegsUp, nocFlitCe, nocDrops, nocTimeouts, nocLastDrop, nocQports, nocQparts, nocShown, nocMissPart⟩, sites, home, ports, cols, host, vis, sec, ⟨x.lcs.otp, lcsPcw, x.lcs.transition, x.lcs.status, x.lcs.target, lcsDeferred, lcsOtpLater, lcsRollLater, lcsDeferTo, lcsFinished, lcsWipeRep⟩, x.dbg, pwr, x.thm, flt, ⟨x.mgt.stage, x.mgt.running, mgtOnTrial, x.mgt.fw, mgtPeel, mgtStaged, mgtCommitDue, mgtOldFw, mgtOldRun, mgtUnavailAt, mgtJumpAt, mgtDeferAt, mgtEmergAt, mgtHandRec, mgtWdtPeriod, mgtWdtExp, mgtHalted, x.mgt.busy, mgtUnavail, x.mgt.done, x.mgt.mbStatus, x.mgt.mbTag, x.mgt.curTag, x.mgt.args, x.mgt.resp, x.mgt.rcvOn, x.mgt.rcv, x.mgt.coldReq, mgtFlash, x.mgt.flashOp, mgtLog, mgtLogHead, mgtLogSeq, mgtPldmQ, mgtFlatReason, mgtRcvRun, mgtStopStart, mgtPldmImg, mgtPldmTo, mgtFindings, mgtLinkTests⟩, trc, x.prfUp, prfMir, x.prfPeer, x.siteAck, x.mbxH, x.mbxF, x.indH, x.indF, x.indMem, x.regs, free, out, pending⟩ := by
  apply h.step <;> first | exact .inl (c.bit rfl) | exact .inr (List.Sublist.refl _) | exact .inr ⟨rfl, rfl, rfl, rfl, rfl, rfl, rfl⟩ | exact .inr ⟨rfl, rfl, rfl, rfl⟩ | exact .inr ⟨rfl, rfl, rfl⟩ | exact .inr ⟨rfl, rfl⟩ | exact .inr rfl

/-- A change of the host window table. -/
theorem Frm.ch1 {w : Nat} {r x : State} (c : Sub 2 w) (h : Frm w r x)
    {parts fab xfes xltHwt xltPend xltAtsEn xltPriEn xltPriStopped xltPriAlloc xltBufs xltL2 xltAtsWait xltInvals xltInvCount xltInvMax xltL2Hits xltL2Misses xltPrqCount xltOrder xltPtGrans xltPtUsed memPoison memOwn memBanks memChans memStackTab memPpr memHppr memDue memToZero memLeaving nocReqs nocResps nocNextTag nocRoutes nocVroutes nocRoutesOk nocSegsUp nocFlitCe nocDrops nocTimeouts nocLastDrop nocQports nocQparts nocShown nocMissPart sites home ports cols host vis sec lcsPcw lcsDeferred lcsOtpLater lcsRollLater lcsDeferTo lcsFinished lcsWipeRep pwr flt mgtOnTrial mgtPeel mgtStaged mgtCommitDue mgtOldFw mgtOldRun mgtUnavailAt mgtJumpAt mgtDeferAt mgtEmergAt mgtHandRec mgtWdtPeriod mgtWdtExp mgtHalted mgtUnavail mgtFlash mgtLog mgtLogHead mgtLogSeq mgtPldmQ mgtFlatReason mgtRcvRun mgtStopStart mgtPldmImg mgtPldmTo mgtFindings mgtLinkTests trc prfMir free out pending} :
    Frm w r ⟨⟨x.img.loaded, x.img.run, x.img.load, x.img.armed, x.img.report, x.img.fullOk⟩, x.clk, parts, fab, xfes, ⟨xltHwt, xltPend, xltAtsEn, xltPriEn, xltPriStopped, xltPriAlloc, xltBufs, xltL2, xltAtsWait, xltInvals, xltInvCount, xltInvMax, xltL2Hits, xltL2Misses, xltPrqCount, xltOrder, x.xlt.roots, x.xlt.maps, xltPtGrans, xltPtUsed⟩, ⟨x.mem.bytes, memPoison, memOwn, memBanks, memChans, memStackTab, memPpr, memHppr, memDue, memToZero, memLeaving⟩, ⟨x.noc.net, nocReqs, nocResps, nocNextTag, nocRoutes, nocVroutes, nocRoutesOk, nocSegsUp, nocFlitCe, nocDrops, nocTimeouts, nocLastDrop, nocQports, nocQparts, nocShown, nocMissPart⟩, sites, home, ports, cols, host, vis, sec, ⟨x.lcs.otp, lcsPcw, x.lcs.transition, x.lcs.status, x.lcs.target, lcsDeferred, lcsOtpLater, lcsRollLater, lcsDeferTo, lcsFinished, lcsWipeRep⟩, x.dbg, pwr, x.thm, flt, ⟨x.mgt.stage, x.mgt.running, mgtOnTrial, x.mgt.fw, mgtPeel, mgtStaged, mgtCommitDue, mgtOldFw, mgtOldRun, mgtUnavailAt, mgtJumpAt, mgtDeferAt, mgtEmergAt, mgtHandRec, mgtWdtPeriod, mgtWdtExp, mgtHalted, x.mgt.busy, mgtUnavail, x.mgt.done, x.mgt.mbStatus, x.mgt.mbTag, x.mgt.curTag, x.mgt.args, x.mgt.resp, x.mgt.rcvOn, x.mgt.rcv, x.mgt.coldReq, mgtFlash, x.mgt.flashOp, mgtLog, mgtLogHead, mgtLogSeq, mgtPldmQ, mgtFlatReason, mgtRcvRun, mgtStopStart, mgtPldmImg, mgtPldmTo, mgtFindings, mgtLinkTests⟩, trc, x.prfUp, prfMir, x.prfPeer, x.siteAck, x.mbxH, x.mbxF, x.indH, x.indF, x.indMem, x.regs, free, out, pending⟩ := by
  apply h.step <;> first | exact .inl (c.bit rfl) | exact .inr (List.Sublist.refl _) | exact .inr ⟨rfl, rfl, rfl, rfl, rfl, rfl, rfl⟩ | exact .inr ⟨rfl, rfl, rfl, rfl⟩ | exact .inr ⟨rfl, rfl, rfl⟩ | exact .inr ⟨rfl, rfl⟩ | exact .inr rfl

/-- A change of the device mappings. -/
theorem Frm.ch2 {w : Nat} {r x : State} (c : Sub 4 w) (h : Frm w r x)
    {parts fab xfes xltPend xltAtsEn xltPriEn xltPriStopped xltPriAlloc xltBufs xltL2 xltAtsWait xltInvals xltInvCount xltInvMax xltL2Hits xltL2Misses xltPrqCount xltOrder xltRoots xltMaps xltPtGrans xltPtUsed memPoison memOwn memBanks memChans memStackTab memPpr memHppr memDue memToZero memLeaving nocReqs nocResps nocNextTag nocRoutes nocVroutes nocRoutesOk nocSegsUp nocFlitCe nocDrops nocTimeouts nocLastDrop nocQports nocQparts nocShown nocMissPart sites home ports cols host vis sec lcsPcw lcsDeferred lcsOtpLater lcsRollLater lcsDeferTo lcsFinished lcsWipeRep pwr flt mgtOnTrial mgtPeel mgtStaged mgtCommitDue mgtOldFw mgtOldRun mgtUnavailAt mgtJumpAt mgtDeferAt mgtEmergAt mgtHandRec mgtWdtPeriod mgtWdtExp mgtHalted mgtUnavail mgtFlash mgtLog mgtLogHead mgtLogSeq mgtPldmQ mgtFlatReason mgtRcvRun mgtStopStart mgtPldmImg mgtPldmTo mgtFindings mgtLinkTests trc prfMir free out pending} :
    Frm w r ⟨⟨x.img.loaded, x.img.run, x.img.load, x.img.armed, x.img.report, x.img.fullOk⟩, x.clk, parts, fab, xfes, ⟨x.xlt.hwt, xltPend, xltAtsEn, xltPriEn, xltPriStopped, xltPriAlloc, xltBufs, xltL2, xltAtsWait, xltInvals, xltInvCount, xltInvMax, xltL2Hits, xltL2Misses, xltPrqCount, xltOrder, xltRoots, xltMaps, xltPtGrans, xltPtUsed⟩, ⟨x.mem.bytes, memPoison, memOwn, memBanks, memChans, memStackTab, memPpr, memHppr, memDue, memToZero, memLeaving⟩, ⟨x.noc.net, nocReqs, nocResps, nocNextTag, nocRoutes, nocVroutes, nocRoutesOk, nocSegsUp, nocFlitCe, nocDrops, nocTimeouts, nocLastDrop, nocQports, nocQparts, nocShown, nocMissPart⟩, sites, home, ports, cols, host, vis, sec, ⟨x.lcs.otp, lcsPcw, x.lcs.transition, x.lcs.status, x.lcs.target, lcsDeferred, lcsOtpLater, lcsRollLater, lcsDeferTo, lcsFinished, lcsWipeRep⟩, x.dbg, pwr, x.thm, flt, ⟨x.mgt.stage, x.mgt.running, mgtOnTrial, x.mgt.fw, mgtPeel, mgtStaged, mgtCommitDue, mgtOldFw, mgtOldRun, mgtUnavailAt, mgtJumpAt, mgtDeferAt, mgtEmergAt, mgtHandRec, mgtWdtPeriod, mgtWdtExp, mgtHalted, x.mgt.busy, mgtUnavail, x.mgt.done, x.mgt.mbStatus, x.mgt.mbTag, x.mgt.curTag, x.mgt.args, x.mgt.resp, x.mgt.rcvOn, x.mgt.rcv, x.mgt.coldReq, mgtFlash, x.mgt.flashOp, mgtLog, mgtLogHead, mgtLogSeq, mgtPldmQ, mgtFlatReason, mgtRcvRun, mgtStopStart, mgtPldmImg, mgtPldmTo, mgtFindings, mgtLinkTests⟩, trc, x.prfUp, prfMir, x.prfPeer, x.siteAck, x.mbxH, x.mbxF, x.indH, x.indF, x.indMem, x.regs, free, out, pending⟩ := by
  apply h.step <;> first | exact .inl (c.bit rfl) | exact .inr (List.Sublist.refl _) | exact .inr ⟨rfl, rfl, rfl, rfl, rfl, rfl, rfl⟩ | exact .inr ⟨rfl, rfl, rfl, rfl⟩ | exact .inr ⟨rfl, rfl, rfl⟩ | exact .inr ⟨rfl, rfl⟩ | exact .inr rfl

/-- A change of the running image. -/
theorem Frm.ch3 {w : Nat} {r x : State} (c : Sub 8 w) (h : Frm w r x)
    {imgLoaded imgRun parts fab xfes xltPend xltAtsEn xltPriEn xltPriStopped xltPriAlloc xltBufs xltL2 xltAtsWait xltInvals xltInvCount xltInvMax xltL2Hits xltL2Misses xltPrqCount xltOrder xltPtGrans xltPtUsed memPoison memOwn memBanks memChans memStackTab memPpr memHppr memDue memToZero memLeaving nocReqs nocResps nocNextTag nocRoutes nocVroutes nocRoutesOk nocSegsUp nocFlitCe nocDrops nocTimeouts nocLastDrop nocQports nocQparts nocShown nocMissPart sites home ports cols host vis sec lcsPcw lcsDeferred lcsOtpLater lcsRollLater lcsDeferTo lcsFinished lcsWipeRep pwr flt mgtOnTrial mgtPeel mgtStaged mgtCommitDue mgtOldFw mgtOldRun mgtUnavailAt mgtJumpAt mgtDeferAt mgtEmergAt mgtHandRec mgtWdtPeriod mgtWdtExp mgtHalted mgtUnavail mgtFlash mgtLog mgtLogHead mgtLogSeq mgtPldmQ mgtFlatReason mgtRcvRun mgtStopStart mgtPldmImg mgtPldmTo mgtFindings mgtLinkTests trc prfMir free out pending} :
    Frm w r ⟨⟨imgLoaded, imgRun, x.img.load, x.img.armed, x.img.report, x.img.fullOk⟩, x.clk, parts, fab, xfes, ⟨x.xlt.hwt, xltPend, xltAtsEn, xltPriEn, xltPriStopped, xltPriAlloc, xltBufs, xltL2, xltAtsWait, xltInvals, xltInvCount, xltInvMax, xltL2Hits, xltL2Misses, xltPrqCount, xltOrder, x.xlt.roots, x.xlt.maps, xltPtGrans, xltPtUsed⟩, ⟨x.mem.bytes, memPoison, memOwn, memBanks, memChans, memStackTab, memPpr, memHppr, memDue, memToZero, memLeaving⟩, ⟨x.noc.net, nocReqs, nocResps, nocNextTag, nocRoutes, nocVroutes, nocRoutesOk, nocSegsUp, nocFlitCe, nocDrops, nocTimeouts, nocLastDrop, nocQports, nocQparts, nocShown, nocMissPart⟩, sites, home, ports, cols, host, vis, sec, ⟨x.lcs.otp, lcsPcw, x.lcs.transition, x.lcs.status, x.lcs.target, lcsDeferred, lcsOtpLater, lcsRollLater, lcsDeferTo, lcsFinished, lcsWipeRep⟩, x.dbg, pwr, x.thm, flt, ⟨x.mgt.stage, x.mgt.running, mgtOnTrial, x.mgt.fw, mgtPeel, mgtStaged, mgtCommitDue, mgtOldFw, mgtOldRun, mgtUnavailAt, mgtJumpAt, mgtDeferAt, mgtEmergAt, mgtHandRec, mgtWdtPeriod, mgtWdtExp, mgtHalted, x.mgt.busy, mgtUnavail, x.mgt.done, x.mgt.mbStatus, x.mgt.mbTag, x.mgt.curTag, x.mgt.args, x.mgt.resp, x.mgt.rcvOn, x.mgt.rcv, x.mgt.coldReq, mgtFlash, x.mgt.flashOp, mgtLog, mgtLogHead, mgtLogSeq, mgtPldmQ, mgtFlatReason, mgtRcvRun, mgtStopStart, mgtPldmImg, mgtPldmTo, mgtFindings, mgtLinkTests⟩, trc, x.prfUp, prfMir, x.prfPeer, x.siteAck, x.mbxH, x.mbxF, x.indH, x.indF, x.indMem, x.regs, free, out, pending⟩ := by
  apply h.step <;> first | exact .inl (c.bit rfl) | exact .inr (List.Sublist.refl _) | exact .inr ⟨rfl, rfl, rfl, rfl, rfl, rfl, rfl⟩ | exact .inr ⟨rfl, rfl, rfl, rfl⟩ | exact .inr ⟨rfl, rfl, rfl⟩ | exact .inr ⟨rfl, rfl⟩ | exact .inr rfl

/-- A change of OTP. -/
theorem Frm.ch4 {w : Nat} {r x : State} (c : Sub 16 w) (h : Frm w r x)
    {parts fab xfes xltPend xltAtsEn xltPriEn xltPriStopped xltPriAlloc xltBufs xltL2 xltAtsWait xltInvals xltInvCount xltInvMax xltL2Hits xltL2Misses xltPrqCount xltOrder xltPtGrans xltPtUsed memPoison memOwn memBanks memChans memStackTab memPpr memHppr memDue memToZero memLeaving nocReqs nocResps nocNextTag nocRoutes nocVroutes nocRoutesOk nocSegsUp nocFlitCe nocDrops nocTimeouts nocLastDrop nocQports nocQparts nocShown nocMissPart sites home ports cols host vis sec lcsOtp lcsPcw lcsDeferred lcsOtpLater lcsRollLater lcsDeferTo lcsFinished lcsWipeRep pwr flt mgtOnTrial mgtPeel mgtStaged mgtCommitDue mgtOldFw mgtOldRun mgtUnavailAt mgtJumpAt mgtDeferAt mgtEmergAt mgtHandRec mgtWdtPeriod mgtWdtExp mgtHalted mgtUnavail mgtFlash mgtLog mgtLogHead mgtLogSeq mgtPldmQ mgtFlatReason mgtRcvRun mgtStopStart mgtPldmImg mgtPldmTo mgtFindings mgtLinkTests trc prfMir free out pending} :
    Frm w r ⟨⟨x.img.loaded, x.img.run, x.img.load, x.img.armed, x.img.report, x.img.fullOk⟩, x.clk, parts, fab, xfes, ⟨x.xlt.hwt, xltPend, xltAtsEn, xltPriEn, xltPriStopped, xltPriAlloc, xltBufs, xltL2, xltAtsWait, xltInvals, xltInvCount, xltInvMax, xltL2Hits, xltL2Misses, xltPrqCount, xltOrder, x.xlt.roots, x.xlt.maps, xltPtGrans, xltPtUsed⟩, ⟨x.mem.bytes, memPoison, memOwn, memBanks, memChans, memStackTab, memPpr, memHppr, memDue, memToZero, memLeaving⟩, ⟨x.noc.net, nocReqs, nocResps, nocNextTag, nocRoutes, nocVroutes, nocRoutesOk, nocSegsUp, nocFlitCe, nocDrops, nocTimeouts, nocLastDrop, nocQports, nocQparts, nocShown, nocMissPart⟩, sites, home, ports, cols, host, vis, sec, ⟨lcsOtp, lcsPcw, x.lcs.transition, x.lcs.status, x.lcs.target, lcsDeferred, lcsOtpLater, lcsRollLater, lcsDeferTo, lcsFinished, lcsWipeRep⟩, x.dbg, pwr, x.thm, flt, ⟨x.mgt.stage, x.mgt.running, mgtOnTrial, x.mgt.fw, mgtPeel, mgtStaged, mgtCommitDue, mgtOldFw, mgtOldRun, mgtUnavailAt, mgtJumpAt, mgtDeferAt, mgtEmergAt, mgtHandRec, mgtWdtPeriod, mgtWdtExp, mgtHalted, x.mgt.busy, mgtUnavail, x.mgt.done, x.mgt.mbStatus, x.mgt.mbTag, x.mgt.curTag, x.mgt.args, x.mgt.resp, x.mgt.rcvOn, x.mgt.rcv, x.mgt.coldReq, mgtFlash, x.mgt.flashOp, mgtLog, mgtLogHead, mgtLogSeq, mgtPldmQ, mgtFlatReason, mgtRcvRun, mgtStopStart, mgtPldmImg, mgtPldmTo, mgtFindings, mgtLinkTests⟩, trc, x.prfUp, prfMir, x.prfPeer, x.siteAck, x.mbxH, x.mbxF, x.indH, x.indF, x.indMem, x.regs, free, out, pending⟩ := by
  apply h.step <;> first | exact .inl (c.bit rfl) | exact .inr (List.Sublist.refl _) | exact .inr ⟨rfl, rfl, rfl, rfl, rfl, rfl, rfl⟩ | exact .inr ⟨rfl, rfl, rfl, rfl⟩ | exact .inr ⟨rfl, rfl, rfl⟩ | exact .inr ⟨rfl, rfl⟩ | exact .inr rfl

/-- A change of the life-cycle block. -/
theorem Frm.ch5 {w : Nat} {r x : State} (c : Sub 32 w) (h : Frm w r x)
    {parts fab xfes xltPend xltAtsEn xltPriEn xltPriStopped xltPriAlloc xltBufs xltL2 xltAtsWait xltInvals xltInvCount xltInvMax xltL2Hits xltL2Misses xltPrqCount xltOrder xltPtGrans xltPtUsed memPoison memOwn memBanks memChans memStackTab memPpr memHppr memDue memToZero memLeaving nocReqs nocResps nocNextTag nocRoutes nocVroutes nocRoutesOk nocSegsUp nocFlitCe nocDrops nocTimeouts nocLastDrop nocQports nocQparts nocShown nocMissPart sites home ports cols host vis sec lcsPcw lcsTransition lcsStatus lcsTarget lcsDeferred lcsOtpLater lcsRollLater lcsDeferTo lcsFinished lcsWipeRep pwr flt mgtOnTrial mgtPeel mgtStaged mgtCommitDue mgtOldFw mgtOldRun mgtUnavailAt mgtJumpAt mgtDeferAt mgtEmergAt mgtHandRec mgtWdtPeriod mgtWdtExp mgtHalted mgtUnavail mgtFlash mgtLog mgtLogHead mgtLogSeq mgtPldmQ mgtFlatReason mgtRcvRun mgtStopStart mgtPldmImg mgtPldmTo mgtFindings mgtLinkTests trc prfMir free out pending} :
    Frm w r ⟨⟨x.img.loaded, x.img.run, x.img.load, x.img.armed, x.img.report, x.img.fullOk⟩, x.clk, parts, fab, xfes, ⟨x.xlt.hwt, xltPend, xltAtsEn, xltPriEn, xltPriStopped, xltPriAlloc, xltBufs, xltL2, xltAtsWait, xltInvals, xltInvCount, xltInvMax, xltL2Hits, xltL2Misses, xltPrqCount, xltOrder, x.xlt.roots, x.xlt.maps, xltPtGrans, xltPtUsed⟩, ⟨x.mem.bytes, memPoison, memOwn, memBanks, memChans, memStackTab, memPpr, memHppr, memDue, memToZero, memLeaving⟩, ⟨x.noc.net, nocReqs, nocResps, nocNextTag, nocRoutes, nocVroutes, nocRoutesOk, nocSegsUp, nocFlitCe, nocDrops, nocTimeouts, nocLastDrop, nocQports, nocQparts, nocShown, nocMissPart⟩, sites, home, ports, cols, host, vis, sec, ⟨x.lcs.otp, lcsPcw, lcsTransition, lcsStatus, lcsTarget, lcsDeferred, lcsOtpLater, lcsRollLater, lcsDeferTo, lcsFinished, lcsWipeRep⟩, x.dbg, pwr, x.thm, flt, ⟨x.mgt.stage, x.mgt.running, mgtOnTrial, x.mgt.fw, mgtPeel, mgtStaged, mgtCommitDue, mgtOldFw, mgtOldRun, mgtUnavailAt, mgtJumpAt, mgtDeferAt, mgtEmergAt, mgtHandRec, mgtWdtPeriod, mgtWdtExp, mgtHalted, x.mgt.busy, mgtUnavail, x.mgt.done, x.mgt.mbStatus, x.mgt.mbTag, x.mgt.curTag, x.mgt.args, x.mgt.resp, x.mgt.rcvOn, x.mgt.rcv, x.mgt.coldReq, mgtFlash, x.mgt.flashOp, mgtLog, mgtLogHead, mgtLogSeq, mgtPldmQ, mgtFlatReason, mgtRcvRun, mgtStopStart, mgtPldmImg, mgtPldmTo, mgtFindings, mgtLinkTests⟩, trc, x.prfUp, prfMir, x.prfPeer, x.siteAck, x.mbxH, x.mbxF, x.indH, x.indF, x.indMem, x.regs, free, out, pending⟩ := by
  apply h.step <;> first | exact .inl (c.bit rfl) | exact .inr (List.Sublist.refl _) | exact .inr ⟨rfl, rfl, rfl, rfl, rfl, rfl, rfl⟩ | exact .inr ⟨rfl, rfl, rfl, rfl⟩ | exact .inr ⟨rfl, rfl, rfl⟩ | exact .inr ⟨rfl, rfl⟩ | exact .inr rfl

/-- A change of the debug block. -/
theorem Frm.ch6 {w : Nat} {r x : State} (c : Sub 64 w) (h : Frm w r x)
    {parts fab xfes xltPend xltAtsEn xltPriEn xltPriStopped xltPriAlloc xltBufs xltL2 xltAtsWait xltInvals xltInvCount xltInvMax xltL2Hits xltL2Misses xltPrqCount xltOrder xltPtGrans xltPtUsed memPoison memOwn memBanks memChans memStackTab memPpr memHppr memDue memToZero memLeaving nocReqs nocResps nocNextTag nocRoutes nocVroutes nocRoutesOk nocSegsUp nocFlitCe nocDrops nocTimeouts nocLastDrop nocQports nocQparts nocShown nocMissPart sites home ports cols host vis sec lcsPcw lcsDeferred lcsOtpLater lcsRollLater lcsDeferTo lcsFinished lcsWipeRep dbg pwr flt mgtOnTrial mgtPeel mgtStaged mgtCommitDue mgtOldFw mgtOldRun mgtUnavailAt mgtJumpAt mgtDeferAt mgtEmergAt mgtHandRec mgtWdtPeriod mgtWdtExp mgtHalted mgtUnavail mgtFlash mgtLog mgtLogHead mgtLogSeq mgtPldmQ mgtFlatReason mgtRcvRun mgtStopStart mgtPldmImg mgtPldmTo mgtFindings mgtLinkTests trc prfMir free out pending} :
    Frm w r ⟨⟨x.img.loaded, x.img.run, x.img.load, x.img.armed, x.img.report, x.img.fullOk⟩, x.clk, parts, fab, xfes, ⟨x.xlt.hwt, xltPend, xltAtsEn, xltPriEn, xltPriStopped, xltPriAlloc, xltBufs, xltL2, xltAtsWait, xltInvals, xltInvCount, xltInvMax, xltL2Hits, xltL2Misses, xltPrqCount, xltOrder, x.xlt.roots, x.xlt.maps, xltPtGrans, xltPtUsed⟩, ⟨x.mem.bytes, memPoison, memOwn, memBanks, memChans, memStackTab, memPpr, memHppr, memDue, memToZero, memLeaving⟩, ⟨x.noc.net, nocReqs, nocResps, nocNextTag, nocRoutes, nocVroutes, nocRoutesOk, nocSegsUp, nocFlitCe, nocDrops, nocTimeouts, nocLastDrop, nocQports, nocQparts, nocShown, nocMissPart⟩, sites, home, ports, cols, host, vis, sec, ⟨x.lcs.otp, lcsPcw, x.lcs.transition, x.lcs.status, x.lcs.target, lcsDeferred, lcsOtpLater, lcsRollLater, lcsDeferTo, lcsFinished, lcsWipeRep⟩, dbg, pwr, x.thm, flt, ⟨x.mgt.stage, x.mgt.running, mgtOnTrial, x.mgt.fw, mgtPeel, mgtStaged, mgtCommitDue, mgtOldFw, mgtOldRun, mgtUnavailAt, mgtJumpAt, mgtDeferAt, mgtEmergAt, mgtHandRec, mgtWdtPeriod, mgtWdtExp, mgtHalted, x.mgt.busy, mgtUnavail, x.mgt.done, x.mgt.mbStatus, x.mgt.mbTag, x.mgt.curTag, x.mgt.args, x.mgt.resp, x.mgt.rcvOn, x.mgt.rcv, x.mgt.coldReq, mgtFlash, x.mgt.flashOp, mgtLog, mgtLogHead, mgtLogSeq, mgtPldmQ, mgtFlatReason, mgtRcvRun, mgtStopStart, mgtPldmImg, mgtPldmTo, mgtFindings, mgtLinkTests⟩, trc, x.prfUp, prfMir, x.prfPeer, x.siteAck, x.mbxH, x.mbxF, x.indH, x.indF, x.indMem, x.regs, free, out, pending⟩ := by
  apply h.step <;> first | exact .inl (c.bit rfl) | exact .inr (List.Sublist.refl _) | exact .inr ⟨rfl, rfl, rfl, rfl, rfl, rfl, rfl⟩ | exact .inr ⟨rfl, rfl, rfl, rfl⟩ | exact .inr ⟨rfl, rfl, rfl⟩ | exact .inr ⟨rfl, rfl⟩ | exact .inr rfl

/-- A change of the thermal block. -/
theorem Frm.ch7 {w : Nat} {r x : State} (c : Sub 128 w) (h : Frm w r x)
    {parts fab xfes xltPend xltAtsEn xltPriEn xltPriStopped xltPriAlloc xltBufs xltL2 xltAtsWait xltInvals xltInvCount xltInvMax xltL2Hits xltL2Misses xltPrqCount xltOrder xltPtGrans xltPtUsed memPoison memOwn memBanks memChans memStackTab memPpr memHppr memDue memToZero memLeaving nocReqs nocResps nocNextTag nocRoutes nocVroutes nocRoutesOk nocSegsUp nocFlitCe nocDrops nocTimeouts nocLastDrop nocQports nocQparts nocShown nocMissPart sites home ports cols host vis sec lcsPcw lcsDeferred lcsOtpLater lcsRollLater lcsDeferTo lcsFinished lcsWipeRep pwr thm flt mgtOnTrial mgtPeel mgtStaged mgtCommitDue mgtOldFw mgtOldRun mgtUnavailAt mgtJumpAt mgtDeferAt mgtEmergAt mgtHandRec mgtWdtPeriod mgtWdtExp mgtHalted mgtUnavail mgtFlash mgtLog mgtLogHead mgtLogSeq mgtPldmQ mgtFlatReason mgtRcvRun mgtStopStart mgtPldmImg mgtPldmTo mgtFindings mgtLinkTests trc prfMir free out pending} :
    Frm w r ⟨⟨x.img.loaded, x.img.run, x.img.load, x.img.armed, x.img.report, x.img.fullOk⟩, x.clk, parts, fab, xfes, ⟨x.xlt.hwt, xltPend, xltAtsEn, xltPriEn, xltPriStopped, xltPriAlloc, xltBufs, xltL2, xltAtsWait, xltInvals, xltInvCount, xltInvMax, xltL2Hits, xltL2Misses, xltPrqCount, xltOrder, x.xlt.roots, x.xlt.maps, xltPtGrans, xltPtUsed⟩, ⟨x.mem.bytes, memPoison, memOwn, memBanks, memChans, memStackTab, memPpr, memHppr, memDue, memToZero, memLeaving⟩, ⟨x.noc.net, nocReqs, nocResps, nocNextTag, nocRoutes, nocVroutes, nocRoutesOk, nocSegsUp, nocFlitCe, nocDrops, nocTimeouts, nocLastDrop, nocQports, nocQparts, nocShown, nocMissPart⟩, sites, home, ports, cols, host, vis, sec, ⟨x.lcs.otp, lcsPcw, x.lcs.transition, x.lcs.status, x.lcs.target, lcsDeferred, lcsOtpLater, lcsRollLater, lcsDeferTo, lcsFinished, lcsWipeRep⟩, x.dbg, pwr, thm, flt, ⟨x.mgt.stage, x.mgt.running, mgtOnTrial, x.mgt.fw, mgtPeel, mgtStaged, mgtCommitDue, mgtOldFw, mgtOldRun, mgtUnavailAt, mgtJumpAt, mgtDeferAt, mgtEmergAt, mgtHandRec, mgtWdtPeriod, mgtWdtExp, mgtHalted, x.mgt.busy, mgtUnavail, x.mgt.done, x.mgt.mbStatus, x.mgt.mbTag, x.mgt.curTag, x.mgt.args, x.mgt.resp, x.mgt.rcvOn, x.mgt.rcv, x.mgt.coldReq, mgtFlash, x.mgt.flashOp, mgtLog, mgtLogHead, mgtLogSeq, mgtPldmQ, mgtFlatReason, mgtRcvRun, mgtStopStart, mgtPldmImg, mgtPldmTo, mgtFindings, mgtLinkTests⟩, trc, x.prfUp, prfMir, x.prfPeer, x.siteAck, x.mbxH, x.mbxF, x.indH, x.indF, x.indMem, x.regs, free, out, pending⟩ := by
  apply h.step <;> first | exact .inl (c.bit rfl) | exact .inr (List.Sublist.refl _) | exact .inr ⟨rfl, rfl, rfl, rfl, rfl, rfl, rfl⟩ | exact .inr ⟨rfl, rfl, rfl, rfl⟩ | exact .inr ⟨rfl, rfl, rfl⟩ | exact .inr ⟨rfl, rfl⟩ | exact .inr rfl

/-- A change of the proof ports. -/
theorem Frm.ch8 {w : Nat} {r x : State} (c : Sub 256 w) (h : Frm w r x)
    {parts fab xfes xltPend xltAtsEn xltPriEn xltPriStopped xltPriAlloc xltBufs xltL2 xltAtsWait xltInvals xltInvCount xltInvMax xltL2Hits xltL2Misses xltPrqCount xltOrder xltPtGrans xltPtUsed memPoison memOwn memBanks memChans memStackTab memPpr memHppr memDue memToZero memLeaving nocReqs nocResps nocNextTag nocRoutes nocVroutes nocRoutesOk nocSegsUp nocFlitCe nocDrops nocTimeouts nocLastDrop nocQports nocQparts nocShown nocMissPart sites home ports cols host vis sec lcsPcw lcsDeferred lcsOtpLater lcsRollLater lcsDeferTo lcsFinished lcsWipeRep pwr flt mgtOnTrial mgtPeel mgtStaged mgtCommitDue mgtOldFw mgtOldRun mgtUnavailAt mgtJumpAt mgtDeferAt mgtEmergAt mgtHandRec mgtWdtPeriod mgtWdtExp mgtHalted mgtUnavail mgtFlash mgtLog mgtLogHead mgtLogSeq mgtPldmQ mgtFlatReason mgtRcvRun mgtStopStart mgtPldmImg mgtPldmTo mgtFindings mgtLinkTests trc prfUp prfMir prfPeer free out pending} :
    Frm w r ⟨⟨x.img.loaded, x.img.run, x.img.load, x.img.armed, x.img.report, x.img.fullOk⟩, x.clk, parts, fab, xfes, ⟨x.xlt.hwt, xltPend, xltAtsEn, xltPriEn, xltPriStopped, xltPriAlloc, xltBufs, xltL2, xltAtsWait, xltInvals, xltInvCount, xltInvMax, xltL2Hits, xltL2Misses, xltPrqCount, xltOrder, x.xlt.roots, x.xlt.maps, xltPtGrans, xltPtUsed⟩, ⟨x.mem.bytes, memPoison, memOwn, memBanks, memChans, memStackTab, memPpr, memHppr, memDue, memToZero, memLeaving⟩, ⟨x.noc.net, nocReqs, nocResps, nocNextTag, nocRoutes, nocVroutes, nocRoutesOk, nocSegsUp, nocFlitCe, nocDrops, nocTimeouts, nocLastDrop, nocQports, nocQparts, nocShown, nocMissPart⟩, sites, home, ports, cols, host, vis, sec, ⟨x.lcs.otp, lcsPcw, x.lcs.transition, x.lcs.status, x.lcs.target, lcsDeferred, lcsOtpLater, lcsRollLater, lcsDeferTo, lcsFinished, lcsWipeRep⟩, x.dbg, pwr, x.thm, flt, ⟨x.mgt.stage, x.mgt.running, mgtOnTrial, x.mgt.fw, mgtPeel, mgtStaged, mgtCommitDue, mgtOldFw, mgtOldRun, mgtUnavailAt, mgtJumpAt, mgtDeferAt, mgtEmergAt, mgtHandRec, mgtWdtPeriod, mgtWdtExp, mgtHalted, x.mgt.busy, mgtUnavail, x.mgt.done, x.mgt.mbStatus, x.mgt.mbTag, x.mgt.curTag, x.mgt.args, x.mgt.resp, x.mgt.rcvOn, x.mgt.rcv, x.mgt.coldReq, mgtFlash, x.mgt.flashOp, mgtLog, mgtLogHead, mgtLogSeq, mgtPldmQ, mgtFlatReason, mgtRcvRun, mgtStopStart, mgtPldmImg, mgtPldmTo, mgtFindings, mgtLinkTests⟩, trc, prfUp, prfMir, prfPeer, x.siteAck, x.mbxH, x.mbxF, x.indH, x.indF, x.indMem, x.regs, free, out, pending⟩ := by
  apply h.step <;> first | exact .inl (c.bit rfl) | exact .inr (List.Sublist.refl _) | exact .inr ⟨rfl, rfl, rfl, rfl, rfl, rfl, rfl⟩ | exact .inr ⟨rfl, rfl, rfl, rfl⟩ | exact .inr ⟨rfl, rfl, rfl⟩ | exact .inr ⟨rfl, rfl⟩ | exact .inr rfl

/-- A change of `PRF_SITE_ACK`. -/
theorem Frm.ch9 {w : Nat} {r x : State} (c : Sub 512 w) (h : Frm w r x)
    {parts fab xfes xltPend xltAtsEn xltPriEn xltPriStopped xltPriAlloc xltBufs xltL2 xltAtsWait xltInvals xltInvCount xltInvMax xltL2Hits xltL2Misses xltPrqCount xltOrder xltPtGrans xltPtUsed memPoison memOwn memBanks memChans memStackTab memPpr memHppr memDue memToZero memLeaving nocReqs nocResps nocNextTag nocRoutes nocVroutes nocRoutesOk nocSegsUp nocFlitCe nocDrops nocTimeouts nocLastDrop nocQports nocQparts nocShown nocMissPart sites home ports cols host vis sec lcsPcw lcsDeferred lcsOtpLater lcsRollLater lcsDeferTo lcsFinished lcsWipeRep pwr flt mgtOnTrial mgtPeel mgtStaged mgtCommitDue mgtOldFw mgtOldRun mgtUnavailAt mgtJumpAt mgtDeferAt mgtEmergAt mgtHandRec mgtWdtPeriod mgtWdtExp mgtHalted mgtUnavail mgtFlash mgtLog mgtLogHead mgtLogSeq mgtPldmQ mgtFlatReason mgtRcvRun mgtStopStart mgtPldmImg mgtPldmTo mgtFindings mgtLinkTests trc prfMir siteAck free out pending} :
    Frm w r ⟨⟨x.img.loaded, x.img.run, x.img.load, x.img.armed, x.img.report, x.img.fullOk⟩, x.clk, parts, fab, xfes, ⟨x.xlt.hwt, xltPend, xltAtsEn, xltPriEn, xltPriStopped, xltPriAlloc, xltBufs, xltL2, xltAtsWait, xltInvals, xltInvCount, xltInvMax, xltL2Hits, xltL2Misses, xltPrqCount, xltOrder, x.xlt.roots, x.xlt.maps, xltPtGrans, xltPtUsed⟩, ⟨x.mem.bytes, memPoison, memOwn, memBanks, memChans, memStackTab, memPpr, memHppr, memDue, memToZero, memLeaving⟩, ⟨x.noc.net, nocReqs, nocResps, nocNextTag, nocRoutes, nocVroutes, nocRoutesOk, nocSegsUp, nocFlitCe, nocDrops, nocTimeouts, nocLastDrop, nocQports, nocQparts, nocShown, nocMissPart⟩, sites, home, ports, cols, host, vis, sec, ⟨x.lcs.otp, lcsPcw, x.lcs.transition, x.lcs.status, x.lcs.target, lcsDeferred, lcsOtpLater, lcsRollLater, lcsDeferTo, lcsFinished, lcsWipeRep⟩, x.dbg, pwr, x.thm, flt, ⟨x.mgt.stage, x.mgt.running, mgtOnTrial, x.mgt.fw, mgtPeel, mgtStaged, mgtCommitDue, mgtOldFw, mgtOldRun, mgtUnavailAt, mgtJumpAt, mgtDeferAt, mgtEmergAt, mgtHandRec, mgtWdtPeriod, mgtWdtExp, mgtHalted, x.mgt.busy, mgtUnavail, x.mgt.done, x.mgt.mbStatus, x.mgt.mbTag, x.mgt.curTag, x.mgt.args, x.mgt.resp, x.mgt.rcvOn, x.mgt.rcv, x.mgt.coldReq, mgtFlash, x.mgt.flashOp, mgtLog, mgtLogHead, mgtLogSeq, mgtPldmQ, mgtFlatReason, mgtRcvRun, mgtStopStart, mgtPldmImg, mgtPldmTo, mgtFindings, mgtLinkTests⟩, trc, x.prfUp, prfMir, x.prfPeer, siteAck, x.mbxH, x.mbxF, x.indH, x.indF, x.indMem, x.regs, free, out, pending⟩ := by
  apply h.step <;> first | exact .inl (c.bit rfl) | exact .inr (List.Sublist.refl _) | exact .inr ⟨rfl, rfl, rfl, rfl, rfl, rfl, rfl⟩ | exact .inr ⟨rfl, rfl, rfl, rfl⟩ | exact .inr ⟨rfl, rfl, rfl⟩ | exact .inr ⟨rfl, rfl⟩ | exact .inr rfl

/-- A change of the mailboxes of wide values. -/
theorem Frm.ch10 {w : Nat} {r x : State} (c : Sub 1024 w) (h : Frm w r x)
    {parts fab xfes xltPend xltAtsEn xltPriEn xltPriStopped xltPriAlloc xltBufs xltL2 xltAtsWait xltInvals xltInvCount xltInvMax xltL2Hits xltL2Misses xltPrqCount xltOrder xltPtGrans xltPtUsed memPoison memOwn memBanks memChans memStackTab memPpr memHppr memDue memToZero memLeaving nocReqs nocResps nocNextTag nocRoutes nocVroutes nocRoutesOk nocSegsUp nocFlitCe nocDrops nocTimeouts nocLastDrop nocQports nocQparts nocShown nocMissPart sites home ports cols host vis sec lcsPcw lcsDeferred lcsOtpLater lcsRollLater lcsDeferTo lcsFinished lcsWipeRep pwr flt mgtOnTrial mgtPeel mgtStaged mgtCommitDue mgtOldFw mgtOldRun mgtUnavailAt mgtJumpAt mgtDeferAt mgtEmergAt mgtHandRec mgtWdtPeriod mgtWdtExp mgtHalted mgtUnavail mgtFlash mgtLog mgtLogHead mgtLogSeq mgtPldmQ mgtFlatReason mgtRcvRun mgtStopStart mgtPldmImg mgtPldmTo mgtFindings mgtLinkTests trc prfMir mbxH mbxF free out pending} :
    Frm w r ⟨⟨x.img.loaded, x.img.run, x.img.load, x.img.armed, x.img.report, x.img.fullOk⟩, x.clk, parts, fab, xfes, ⟨x.xlt.hwt, xltPend, xltAtsEn, xltPriEn, xltPriStopped, xltPriAlloc, xltBufs, xltL2, xltAtsWait, xltInvals, xltInvCount, xltInvMax, xltL2Hits, xltL2Misses, xltPrqCount, xltOrder, x.xlt.roots, x.xlt.maps, xltPtGrans, xltPtUsed⟩, ⟨x.mem.bytes, memPoison, memOwn, memBanks, memChans, memStackTab, memPpr, memHppr, memDue, memToZero, memLeaving⟩, ⟨x.noc.net, nocReqs, nocResps, nocNextTag, nocRoutes, nocVroutes, nocRoutesOk, nocSegsUp, nocFlitCe, nocDrops, nocTimeouts, nocLastDrop, nocQports, nocQparts, nocShown, nocMissPart⟩, sites, home, ports, cols, host, vis, sec, ⟨x.lcs.otp, lcsPcw, x.lcs.transition, x.lcs.status, x.lcs.target, lcsDeferred, lcsOtpLater, lcsRollLater, lcsDeferTo, lcsFinished, lcsWipeRep⟩, x.dbg, pwr, x.thm, flt, ⟨x.mgt.stage, x.mgt.running, mgtOnTrial, x.mgt.fw, mgtPeel, mgtStaged, mgtCommitDue, mgtOldFw, mgtOldRun, mgtUnavailAt, mgtJumpAt, mgtDeferAt, mgtEmergAt, mgtHandRec, mgtWdtPeriod, mgtWdtExp, mgtHalted, x.mgt.busy, mgtUnavail, x.mgt.done, x.mgt.mbStatus, x.mgt.mbTag, x.mgt.curTag, x.mgt.args, x.mgt.resp, x.mgt.rcvOn, x.mgt.rcv, x.mgt.coldReq, mgtFlash, x.mgt.flashOp, mgtLog, mgtLogHead, mgtLogSeq, mgtPldmQ, mgtFlatReason, mgtRcvRun, mgtStopStart, mgtPldmImg, mgtPldmTo, mgtFindings, mgtLinkTests⟩, trc, x.prfUp, prfMir, x.prfPeer, x.siteAck, mbxH, mbxF, x.indH, x.indF, x.indMem, x.regs, free, out, pending⟩ := by
  apply h.step <;> first | exact .inl (c.bit rfl) | exact .inr (List.Sublist.refl _) | exact .inr ⟨rfl, rfl, rfl, rfl, rfl, rfl, rfl⟩ | exact .inr ⟨rfl, rfl, rfl, rfl⟩ | exact .inr ⟨rfl, rfl, rfl⟩ | exact .inr ⟨rfl, rfl⟩ | exact .inr rfl

/-- A change of the indirect pairs. -/
theorem Frm.ch11 {w : Nat} {r x : State} (c : Sub 2048 w) (h : Frm w r x)
    {parts fab xfes xltPend xltAtsEn xltPriEn xltPriStopped xltPriAlloc xltBufs xltL2 xltAtsWait xltInvals xltInvCount xltInvMax xltL2Hits xltL2Misses xltPrqCount xltOrder xltPtGrans xltPtUsed memPoison memOwn memBanks memChans memStackTab memPpr memHppr memDue memToZero memLeaving nocReqs nocResps nocNextTag nocRoutes nocVroutes nocRoutesOk nocSegsUp nocFlitCe nocDrops nocTimeouts nocLastDrop nocQports nocQparts nocShown nocMissPart sites home ports cols host vis sec lcsPcw lcsDeferred lcsOtpLater lcsRollLater lcsDeferTo lcsFinished lcsWipeRep pwr flt mgtOnTrial mgtPeel mgtStaged mgtCommitDue mgtOldFw mgtOldRun mgtUnavailAt mgtJumpAt mgtDeferAt mgtEmergAt mgtHandRec mgtWdtPeriod mgtWdtExp mgtHalted mgtUnavail mgtFlash mgtLog mgtLogHead mgtLogSeq mgtPldmQ mgtFlatReason mgtRcvRun mgtStopStart mgtPldmImg mgtPldmTo mgtFindings mgtLinkTests trc prfMir indH indF indMem free out pending} :
    Frm w r ⟨⟨x.img.loaded, x.img.run, x.img.load, x.img.armed, x.img.report, x.img.fullOk⟩, x.clk, parts, fab, xfes, ⟨x.xlt.hwt, xltPend, xltAtsEn, xltPriEn, xltPriStopped, xltPriAlloc, xltBufs, xltL2, xltAtsWait, xltInvals, xltInvCount, xltInvMax, xltL2Hits, xltL2Misses, xltPrqCount, xltOrder, x.xlt.roots, x.xlt.maps, xltPtGrans, xltPtUsed⟩, ⟨x.mem.bytes, memPoison, memOwn, memBanks, memChans, memStackTab, memPpr, memHppr, memDue, memToZero, memLeaving⟩, ⟨x.noc.net, nocReqs, nocResps, nocNextTag, nocRoutes, nocVroutes, nocRoutesOk, nocSegsUp, nocFlitCe, nocDrops, nocTimeouts, nocLastDrop, nocQports, nocQparts, nocShown, nocMissPart⟩, sites, home, ports, cols, host, vis, sec, ⟨x.lcs.otp, lcsPcw, x.lcs.transition, x.lcs.status, x.lcs.target, lcsDeferred, lcsOtpLater, lcsRollLater, lcsDeferTo, lcsFinished, lcsWipeRep⟩, x.dbg, pwr, x.thm, flt, ⟨x.mgt.stage, x.mgt.running, mgtOnTrial, x.mgt.fw, mgtPeel, mgtStaged, mgtCommitDue, mgtOldFw, mgtOldRun, mgtUnavailAt, mgtJumpAt, mgtDeferAt, mgtEmergAt, mgtHandRec, mgtWdtPeriod, mgtWdtExp, mgtHalted, x.mgt.busy, mgtUnavail, x.mgt.done, x.mgt.mbStatus, x.mgt.mbTag, x.mgt.curTag, x.mgt.args, x.mgt.resp, x.mgt.rcvOn, x.mgt.rcv, x.mgt.coldReq, mgtFlash, x.mgt.flashOp, mgtLog, mgtLogHead, mgtLogSeq, mgtPldmQ, mgtFlatReason, mgtRcvRun, mgtStopStart, mgtPldmImg, mgtPldmTo, mgtFindings, mgtLinkTests⟩, trc, x.prfUp, prfMir, x.prfPeer, x.siteAck, x.mbxH, x.mbxF, indH, indF, indMem, x.regs, free, out, pending⟩ := by
  apply h.step <;> first | exact .inl (c.bit rfl) | exact .inr (List.Sublist.refl _) | exact .inr ⟨rfl, rfl, rfl, rfl, rfl, rfl, rfl⟩ | exact .inr ⟨rfl, rfl, rfl, rfl⟩ | exact .inr ⟨rfl, rfl, rfl⟩ | exact .inr ⟨rfl, rfl⟩ | exact .inr rfl

/-- A change of the stored registers. -/
theorem Frm.ch12 {w : Nat} {r x : State} (c : Sub 4096 w) (h : Frm w r x)
    {parts fab xfes xltPend xltAtsEn xltPriEn xltPriStopped xltPriAlloc xltBufs xltL2 xltAtsWait xltInvals xltInvCount xltInvMax xltL2Hits xltL2Misses xltPrqCount xltOrder xltPtGrans xltPtUsed memPoison memOwn memBanks memChans memStackTab memPpr memHppr memDue memToZero memLeaving nocReqs nocResps nocNextTag nocRoutes nocVroutes nocRoutesOk nocSegsUp nocFlitCe nocDrops nocTimeouts nocLastDrop nocQports nocQparts nocShown nocMissPart sites home ports cols host vis sec lcsPcw lcsDeferred lcsOtpLater lcsRollLater lcsDeferTo lcsFinished lcsWipeRep pwr flt mgtOnTrial mgtPeel mgtStaged mgtCommitDue mgtOldFw mgtOldRun mgtUnavailAt mgtJumpAt mgtDeferAt mgtEmergAt mgtHandRec mgtWdtPeriod mgtWdtExp mgtHalted mgtUnavail mgtFlash mgtLog mgtLogHead mgtLogSeq mgtPldmQ mgtFlatReason mgtRcvRun mgtStopStart mgtPldmImg mgtPldmTo mgtFindings mgtLinkTests trc prfMir regs free out pending} :
    Frm w r ⟨⟨x.img.loaded, x.img.run, x.img.load, x.img.armed, x.img.report, x.img.fullOk⟩, x.clk, parts, fab, xfes, ⟨x.xlt.hwt, xltPend, xltAtsEn, xltPriEn, xltPriStopped, xltPriAlloc, xltBufs, xltL2, xltAtsWait, xltInvals, xltInvCount, xltInvMax, xltL2Hits, xltL2Misses, xltPrqCount, xltOrder, x.xlt.roots, x.xlt.maps, xltPtGrans, xltPtUsed⟩, ⟨x.mem.bytes, memPoison, memOwn, memBanks, memChans, memStackTab, memPpr, memHppr, memDue, memToZero, memLeaving⟩, ⟨x.noc.net, nocReqs, nocResps, nocNextTag, nocRoutes, nocVroutes, nocRoutesOk, nocSegsUp, nocFlitCe, nocDrops, nocTimeouts, nocLastDrop, nocQports, nocQparts, nocShown, nocMissPart⟩, sites, home, ports, cols, host, vis, sec, ⟨x.lcs.otp, lcsPcw, x.lcs.transition, x.lcs.status, x.lcs.target, lcsDeferred, lcsOtpLater, lcsRollLater, lcsDeferTo, lcsFinished, lcsWipeRep⟩, x.dbg, pwr, x.thm, flt, ⟨x.mgt.stage, x.mgt.running, mgtOnTrial, x.mgt.fw, mgtPeel, mgtStaged, mgtCommitDue, mgtOldFw, mgtOldRun, mgtUnavailAt, mgtJumpAt, mgtDeferAt, mgtEmergAt, mgtHandRec, mgtWdtPeriod, mgtWdtExp, mgtHalted, x.mgt.busy, mgtUnavail, x.mgt.done, x.mgt.mbStatus, x.mgt.mbTag, x.mgt.curTag, x.mgt.args, x.mgt.resp, x.mgt.rcvOn, x.mgt.rcv, x.mgt.coldReq, mgtFlash, x.mgt.flashOp, mgtLog, mgtLogHead, mgtLogSeq, mgtPldmQ, mgtFlatReason, mgtRcvRun, mgtStopStart, mgtPldmImg, mgtPldmTo, mgtFindings, mgtLinkTests⟩, trc, x.prfUp, prfMir, x.prfPeer, x.siteAck, x.mbxH, x.mbxF, x.indH, x.indF, x.indMem, regs, free, out, pending⟩ := by
  apply h.step <;> first | exact .inl (c.bit rfl) | exact .inr (List.Sublist.refl _) | exact .inr ⟨rfl, rfl, rfl, rfl, rfl, rfl, rfl⟩ | exact .inr ⟨rfl, rfl, rfl, rfl⟩ | exact .inr ⟨rfl, rfl, rfl⟩ | exact .inr ⟨rfl, rfl⟩ | exact .inr rfl

/-- A change of the image being loaded and the armed images. -/
theorem Frm.ch13 {w : Nat} {r x : State} (c : Sub 8192 w) (h : Frm w r x)
    {imgLoad imgArmed imgReport imgFullOk parts fab xfes xltPend xltAtsEn xltPriEn xltPriStopped xltPriAlloc xltBufs xltL2 xltAtsWait xltInvals xltInvCount xltInvMax xltL2Hits xltL2Misses xltPrqCount xltOrder xltPtGrans xltPtUsed memPoison memOwn memBanks memChans memStackTab memPpr memHppr memDue memToZero memLeaving nocReqs nocResps nocNextTag nocRoutes nocVroutes nocRoutesOk nocSegsUp nocFlitCe nocDrops nocTimeouts nocLastDrop nocQports nocQparts nocShown nocMissPart sites home ports cols host vis sec lcsPcw lcsDeferred lcsOtpLater lcsRollLater lcsDeferTo lcsFinished lcsWipeRep pwr flt mgtOnTrial mgtPeel mgtStaged mgtCommitDue mgtOldFw mgtOldRun mgtUnavailAt mgtJumpAt mgtDeferAt mgtEmergAt mgtHandRec mgtWdtPeriod mgtWdtExp mgtHalted mgtUnavail mgtFlash mgtLog mgtLogHead mgtLogSeq mgtPldmQ mgtFlatReason mgtRcvRun mgtStopStart mgtPldmImg mgtPldmTo mgtFindings mgtLinkTests trc prfMir free out pending} :
    Frm w r ⟨⟨x.img.loaded, x.img.run, imgLoad, imgArmed, imgReport, imgFullOk⟩, x.clk, parts, fab, xfes, ⟨x.xlt.hwt, xltPend, xltAtsEn, xltPriEn, xltPriStopped, xltPriAlloc, xltBufs, xltL2, xltAtsWait, xltInvals, xltInvCount, xltInvMax, xltL2Hits, xltL2Misses, xltPrqCount, xltOrder, x.xlt.roots, x.xlt.maps, xltPtGrans, xltPtUsed⟩, ⟨x.mem.bytes, memPoison, memOwn, memBanks, memChans, memStackTab, memPpr, memHppr, memDue, memToZero, memLeaving⟩, ⟨x.noc.net, nocReqs, nocResps, nocNextTag, nocRoutes, nocVroutes, nocRoutesOk, nocSegsUp, nocFlitCe, nocDrops, nocTimeouts, nocLastDrop, nocQports, nocQparts, nocShown, nocMissPart⟩, sites, home, ports, cols, host, vis, sec, ⟨x.lcs.otp, lcsPcw, x.lcs.transition, x.lcs.status, x.lcs.target, lcsDeferred, lcsOtpLater, lcsRollLater, lcsDeferTo, lcsFinished, lcsWipeRep⟩, x.dbg, pwr, x.thm, flt, ⟨x.mgt.stage, x.mgt.running, mgtOnTrial, x.mgt.fw, mgtPeel, mgtStaged, mgtCommitDue, mgtOldFw, mgtOldRun, mgtUnavailAt, mgtJumpAt, mgtDeferAt, mgtEmergAt, mgtHandRec, mgtWdtPeriod, mgtWdtExp, mgtHalted, x.mgt.busy, mgtUnavail, x.mgt.done, x.mgt.mbStatus, x.mgt.mbTag, x.mgt.curTag, x.mgt.args, x.mgt.resp, x.mgt.rcvOn, x.mgt.rcv, x.mgt.coldReq, mgtFlash, x.mgt.flashOp, mgtLog, mgtLogHead, mgtLogSeq, mgtPldmQ, mgtFlatReason, mgtRcvRun, mgtStopStart, mgtPldmImg, mgtPldmTo, mgtFindings, mgtLinkTests⟩, trc, x.prfUp, prfMir, x.prfPeer, x.siteAck, x.mbxH, x.mbxF, x.indH, x.indF, x.indMem, x.regs, free, out, pending⟩ := by
  apply h.step <;> first | exact .inl (c.bit rfl) | exact .inr (List.Sublist.refl _) | exact .inr ⟨rfl, rfl, rfl, rfl, rfl, rfl, rfl⟩ | exact .inr ⟨rfl, rfl, rfl, rfl⟩ | exact .inr ⟨rfl, rfl, rfl⟩ | exact .inr ⟨rfl, rfl⟩ | exact .inr rfl

/-- A change of the management mailbox. -/
theorem Frm.ch14 {w : Nat} {r x : State} (c : Sub 16384 w) (h : Frm w r x)
    {parts fab xfes xltPend xltAtsEn xltPriEn xltPriStopped xltPriAlloc xltBufs xltL2 xltAtsWait xltInvals xltInvCount xltInvMax xltL2Hits xltL2Misses xltPrqCount xltOrder xltPtGrans xltPtUsed memPoison memOwn memBanks memChans memStackTab memPpr memHppr memDue memToZero memLeaving nocReqs nocResps nocNextTag nocRoutes nocVroutes nocRoutesOk nocSegsUp nocFlitCe nocDrops nocTimeouts nocLastDrop nocQports nocQparts nocShown nocMissPart sites home ports cols host vis sec lcsPcw lcsDeferred lcsOtpLater lcsRollLater lcsDeferTo lcsFinished lcsWipeRep pwr flt mgtOnTrial mgtPeel mgtStaged mgtCommitDue mgtOldFw mgtOldRun mgtUnavailAt mgtJumpAt mgtDeferAt mgtEmergAt mgtHandRec mgtWdtPeriod mgtWdtExp mgtHalted mgtBusy mgtUnavail mgtDone mgtMbStatus mgtMbTag mgtCurTag mgtArgs mgtResp mgtFlash mgtLog mgtLogHead mgtLogSeq mgtPldmQ mgtFlatReason mgtRcvRun mgtStopStart mgtPldmImg mgtPldmTo mgtFindings mgtLinkTests trc prfMir free out pending} :
    Frm w r ⟨⟨x.img.loaded, x.img.run, x.img.load, x.img.armed, x.img.report, x.img.fullOk⟩, x.clk, parts, fab, xfes, ⟨x.xlt.hwt, xltPend, xltAtsEn, xltPriEn, xltPriStopped, xltPriAlloc, xltBufs, xltL2, xltAtsWait, xltInvals, xltInvCount, xltInvMax, xltL2Hits, xltL2Misses, xltPrqCount, xltOrder, x.xlt.roots, x.xlt.maps, xltPtGrans, xltPtUsed⟩, ⟨x.mem.bytes, memPoison, memOwn, memBanks, memChans, memStackTab, memPpr, memHppr, memDue, memToZero, memLeaving⟩, ⟨x.noc.net, nocReqs, nocResps, nocNextTag, nocRoutes, nocVroutes, nocRoutesOk, nocSegsUp, nocFlitCe, nocDrops, nocTimeouts, nocLastDrop, nocQports, nocQparts, nocShown, nocMissPart⟩, sites, home, ports, cols, host, vis, sec, ⟨x.lcs.otp, lcsPcw, x.lcs.transition, x.lcs.status, x.lcs.target, lcsDeferred, lcsOtpLater, lcsRollLater, lcsDeferTo, lcsFinished, lcsWipeRep⟩, x.dbg, pwr, x.thm, flt, ⟨x.mgt.stage, x.mgt.running, mgtOnTrial, x.mgt.fw, mgtPeel, mgtStaged, mgtCommitDue, mgtOldFw, mgtOldRun, mgtUnavailAt, mgtJumpAt, mgtDeferAt, mgtEmergAt, mgtHandRec, mgtWdtPeriod, mgtWdtExp, mgtHalted, mgtBusy, mgtUnavail, mgtDone, mgtMbStatus, mgtMbTag, mgtCurTag, mgtArgs, mgtResp, x.mgt.rcvOn, x.mgt.rcv, x.mgt.coldReq, mgtFlash, x.mgt.flashOp, mgtLog, mgtLogHead, mgtLogSeq, mgtPldmQ, mgtFlatReason, mgtRcvRun, mgtStopStart, mgtPldmImg, mgtPldmTo, mgtFindings, mgtLinkTests⟩, trc, x.prfUp, prfMir, x.prfPeer, x.siteAck, x.mbxH, x.mbxF, x.indH, x.indF, x.indMem, x.regs, free, out, pending⟩ := by
  apply h.step <;> first | exact .inl (c.bit rfl) | exact .inr (List.Sublist.refl _) | exact .inr ⟨rfl, rfl, rfl, rfl, rfl, rfl, rfl⟩ | exact .inr ⟨rfl, rfl, rfl, rfl⟩ | exact .inr ⟨rfl, rfl, rfl⟩ | exact .inr ⟨rfl, rfl⟩ | exact .inr rfl

/-- A change of the time base. -/
theorem Frm.ch15 {w : Nat} {r x : State} (c : Sub 32768 w) (h : Frm w r x)
    {clk parts fab xfes xltPend xltAtsEn xltPriEn xltPriStopped xltPriAlloc xltBufs xltL2 xltAtsWait xltInvals xltInvCount xltInvMax xltL2Hits xltL2Misses xltPrqCount xltOrder xltPtGrans xltPtUsed memPoison memOwn memBanks memChans memStackTab memPpr memHppr memDue memToZero memLeaving nocReqs nocResps nocNextTag nocRoutes nocVroutes nocRoutesOk nocSegsUp nocFlitCe nocDrops nocTimeouts nocLastDrop nocQports nocQparts nocShown nocMissPart sites home ports cols host vis sec lcsPcw lcsDeferred lcsOtpLater lcsRollLater lcsDeferTo lcsFinished lcsWipeRep pwr flt mgtOnTrial mgtPeel mgtStaged mgtCommitDue mgtOldFw mgtOldRun mgtUnavailAt mgtJumpAt mgtDeferAt mgtEmergAt mgtHandRec mgtWdtPeriod mgtWdtExp mgtHalted mgtUnavail mgtFlash mgtLog mgtLogHead mgtLogSeq mgtPldmQ mgtFlatReason mgtRcvRun mgtStopStart mgtPldmImg mgtPldmTo mgtFindings mgtLinkTests trc prfMir free out pending} :
    Frm w r ⟨⟨x.img.loaded, x.img.run, x.img.load, x.img.armed, x.img.report, x.img.fullOk⟩, clk, parts, fab, xfes, ⟨x.xlt.hwt, xltPend, xltAtsEn, xltPriEn, xltPriStopped, xltPriAlloc, xltBufs, xltL2, xltAtsWait, xltInvals, xltInvCount, xltInvMax, xltL2Hits, xltL2Misses, xltPrqCount, xltOrder, x.xlt.roots, x.xlt.maps, xltPtGrans, xltPtUsed⟩, ⟨x.mem.bytes, memPoison, memOwn, memBanks, memChans, memStackTab, memPpr, memHppr, memDue, memToZero, memLeaving⟩, ⟨x.noc.net, nocReqs, nocResps, nocNextTag, nocRoutes, nocVroutes, nocRoutesOk, nocSegsUp, nocFlitCe, nocDrops, nocTimeouts, nocLastDrop, nocQports, nocQparts, nocShown, nocMissPart⟩, sites, home, ports, cols, host, vis, sec, ⟨x.lcs.otp, lcsPcw, x.lcs.transition, x.lcs.status, x.lcs.target, lcsDeferred, lcsOtpLater, lcsRollLater, lcsDeferTo, lcsFinished, lcsWipeRep⟩, x.dbg, pwr, x.thm, flt, ⟨x.mgt.stage, x.mgt.running, mgtOnTrial, x.mgt.fw, mgtPeel, mgtStaged, mgtCommitDue, mgtOldFw, mgtOldRun, mgtUnavailAt, mgtJumpAt, mgtDeferAt, mgtEmergAt, mgtHandRec, mgtWdtPeriod, mgtWdtExp, mgtHalted, x.mgt.busy, mgtUnavail, x.mgt.done, x.mgt.mbStatus, x.mgt.mbTag, x.mgt.curTag, x.mgt.args, x.mgt.resp, x.mgt.rcvOn, x.mgt.rcv, x.mgt.coldReq, mgtFlash, x.mgt.flashOp, mgtLog, mgtLogHead, mgtLogSeq, mgtPldmQ, mgtFlatReason, mgtRcvRun, mgtStopStart, mgtPldmImg, mgtPldmTo, mgtFindings, mgtLinkTests⟩, trc, x.prfUp, prfMir, x.prfPeer, x.siteAck, x.mbxH, x.mbxF, x.indH, x.indF, x.indMem, x.regs, free, out, pending⟩ := by
  apply h.step <;> first | exact .inl (c.bit rfl) | exact .inr (List.Sublist.refl _) | exact .inr ⟨rfl, rfl, rfl, rfl, rfl, rfl, rfl⟩ | exact .inr ⟨rfl, rfl, rfl, rfl⟩ | exact .inr ⟨rfl, rfl, rfl⟩ | exact .inr ⟨rfl, rfl⟩ | exact .inr rfl

/-- A change of what firmware runs and holds. -/
theorem Frm.ch16 {w : Nat} {r x : State} (c : Sub 65536 w) (h : Frm w r x)
    {parts fab xfes xltPend xltAtsEn xltPriEn xltPriStopped xltPriAlloc xltBufs xltL2 xltAtsWait xltInvals xltInvCount xltInvMax xltL2Hits xltL2Misses xltPrqCount xltOrder xltPtGrans xltPtUsed memPoison memOwn memBanks memChans memStackTab memPpr memHppr memDue memToZero memLeaving nocReqs nocResps nocNextTag nocRoutes nocVroutes nocRoutesOk nocSegsUp nocFlitCe nocDrops nocTimeouts nocLastDrop nocQports nocQparts nocShown nocMissPart sites home ports cols host vis sec lcsPcw lcsDeferred lcsOtpLater lcsRollLater lcsDeferTo lcsFinished lcsWipeRep pwr flt mgtStage mgtRunning mgtOnTrial mgtFw mgtPeel mgtStaged mgtCommitDue mgtOldFw mgtOldRun mgtUnavailAt mgtJumpAt mgtDeferAt mgtEmergAt mgtHandRec mgtWdtPeriod mgtWdtExp mgtHalted mgtUnavail mgtRcvOn mgtRcv mgtColdReq mgtFlash mgtFlashOp mgtLog mgtLogHead mgtLogSeq mgtPldmQ mgtFlatReason mgtRcvRun mgtStopStart mgtPldmImg mgtPldmTo mgtFindings mgtLinkTests trc prfMir free out pending} :
    Frm w r ⟨⟨x.img.loaded, x.img.run, x.img.load, x.img.armed, x.img.report, x.img.fullOk⟩, x.clk, parts, fab, xfes, ⟨x.xlt.hwt, xltPend, xltAtsEn, xltPriEn, xltPriStopped, xltPriAlloc, xltBufs, xltL2, xltAtsWait, xltInvals, xltInvCount, xltInvMax, xltL2Hits, xltL2Misses, xltPrqCount, xltOrder, x.xlt.roots, x.xlt.maps, xltPtGrans, xltPtUsed⟩, ⟨x.mem.bytes, memPoison, memOwn, memBanks, memChans, memStackTab, memPpr, memHppr, memDue, memToZero, memLeaving⟩, ⟨x.noc.net, nocReqs, nocResps, nocNextTag, nocRoutes, nocVroutes, nocRoutesOk, nocSegsUp, nocFlitCe, nocDrops, nocTimeouts, nocLastDrop, nocQports, nocQparts, nocShown, nocMissPart⟩, sites, home, ports, cols, host, vis, sec, ⟨x.lcs.otp, lcsPcw, x.lcs.transition, x.lcs.status, x.lcs.target, lcsDeferred, lcsOtpLater, lcsRollLater, lcsDeferTo, lcsFinished, lcsWipeRep⟩, x.dbg, pwr, x.thm, flt, ⟨mgtStage, mgtRunning, mgtOnTrial, mgtFw, mgtPeel, mgtStaged, mgtCommitDue, mgtOldFw, mgtOldRun, mgtUnavailAt, mgtJumpAt, mgtDeferAt, mgtEmergAt, mgtHandRec, mgtWdtPeriod, mgtWdtExp, mgtHalted, x.mgt.busy, mgtUnavail, x.mgt.done, x.mgt.mbStatus, x.mgt.mbTag, x.mgt.curTag, x.mgt.args, x.mgt.resp, mgtRcvOn, mgtRcv, mgtColdReq, mgtFlash, mgtFlashOp, mgtLog, mgtLogHead, mgtLogSeq, mgtPldmQ, mgtFlatReason, mgtRcvRun, mgtStopStart, mgtPldmImg, mgtPldmTo, mgtFindings, mgtLinkTests⟩, trc, x.prfUp, prfMir, x.prfPeer, x.siteAck, x.mbxH, x.mbxF, x.indH, x.indF, x.indMem, x.regs, free, out, pending⟩ := by
  apply h.step <;> first | exact .inl (c.bit rfl) | exact .inr (List.Sublist.refl _) | exact .inr ⟨rfl, rfl, rfl, rfl, rfl, rfl, rfl⟩ | exact .inr ⟨rfl, rfl, rfl, rfl⟩ | exact .inr ⟨rfl, rfl, rfl⟩ | exact .inr ⟨rfl, rfl⟩ | exact .inr rfl

/-- A change of the packets, flits and credits of the on-chip network. -/
theorem Frm.ch17 {w : Nat} {r x : State} (c : Sub 131072 w) (h : Frm w r x)
    {parts fab xfes xltPend xltAtsEn xltPriEn xltPriStopped xltPriAlloc xltBufs xltL2 xltAtsWait xltInvals xltInvCount xltInvMax xltL2Hits xltL2Misses xltPrqCount xltOrder xltPtGrans xltPtUsed memPoison memOwn memBanks memChans memStackTab memPpr memHppr memDue memToZero memLeaving nocNet nocReqs nocResps nocNextTag nocRoutes nocVroutes nocRoutesOk nocSegsUp nocFlitCe nocDrops nocTimeouts nocLastDrop nocQports nocQparts nocShown nocMissPart sites home ports cols host vis sec lcsPcw lcsDeferred lcsOtpLater lcsRollLater lcsDeferTo lcsFinished lcsWipeRep pwr flt mgtOnTrial mgtPeel mgtStaged mgtCommitDue mgtOldFw mgtOldRun mgtUnavailAt mgtJumpAt mgtDeferAt mgtEmergAt mgtHandRec mgtWdtPeriod mgtWdtExp mgtHalted mgtUnavail mgtFlash mgtLog mgtLogHead mgtLogSeq mgtPldmQ mgtFlatReason mgtRcvRun mgtStopStart mgtPldmImg mgtPldmTo mgtFindings mgtLinkTests trc prfMir free out pending} :
    Frm w r ⟨⟨x.img.loaded, x.img.run, x.img.load, x.img.armed, x.img.report, x.img.fullOk⟩, x.clk, parts, fab, xfes, ⟨x.xlt.hwt, xltPend, xltAtsEn, xltPriEn, xltPriStopped, xltPriAlloc, xltBufs, xltL2, xltAtsWait, xltInvals, xltInvCount, xltInvMax, xltL2Hits, xltL2Misses, xltPrqCount, xltOrder, x.xlt.roots, x.xlt.maps, xltPtGrans, xltPtUsed⟩, ⟨x.mem.bytes, memPoison, memOwn, memBanks, memChans, memStackTab, memPpr, memHppr, memDue, memToZero, memLeaving⟩, ⟨nocNet, nocReqs, nocResps, nocNextTag, nocRoutes, nocVroutes, nocRoutesOk, nocSegsUp, nocFlitCe, nocDrops, nocTimeouts, nocLastDrop, nocQports, nocQparts, nocShown, nocMissPart⟩, sites, home, ports, cols, host, vis, sec, ⟨x.lcs.otp, lcsPcw, x.lcs.transition, x.lcs.status, x.lcs.target, lcsDeferred, lcsOtpLater, lcsRollLater, lcsDeferTo, lcsFinished, lcsWipeRep⟩, x.dbg, pwr, x.thm, flt, ⟨x.mgt.stage, x.mgt.running, mgtOnTrial, x.mgt.fw, mgtPeel, mgtStaged, mgtCommitDue, mgtOldFw, mgtOldRun, mgtUnavailAt, mgtJumpAt, mgtDeferAt, mgtEmergAt, mgtHandRec, mgtWdtPeriod, mgtWdtExp, mgtHalted, x.mgt.busy, mgtUnavail, x.mgt.done, x.mgt.mbStatus, x.mgt.mbTag, x.mgt.curTag, x.mgt.args, x.mgt.resp, x.mgt.rcvOn, x.mgt.rcv, x.mgt.coldReq, mgtFlash, x.mgt.flashOp, mgtLog, mgtLogHead, mgtLogSeq, mgtPldmQ, mgtFlatReason, mgtRcvRun, mgtStopStart, mgtPldmImg, mgtPldmTo, mgtFindings, mgtLinkTests⟩, trc, x.prfUp, prfMir, x.prfPeer, x.siteAck, x.mbxH, x.mbxF, x.indH, x.indF, x.indMem, x.regs, free, out, pending⟩ := by
  apply h.step <;> first | exact .inl (c.bit rfl) | exact .inr (List.Sublist.refl _) | exact .inr ⟨rfl, rfl, rfl, rfl, rfl, rfl, rfl⟩ | exact .inr ⟨rfl, rfl, rfl, rfl⟩ | exact .inr ⟨rfl, rfl, rfl⟩ | exact .inr ⟨rfl, rfl⟩ | exact .inr rfl

/-- A change of the running image and of the image being loaded. -/
theorem Frm.chImg {w : Nat} {r x : State} (c : Sub 8200 w) (h : Frm w r x)
    {imgLoaded imgRun imgLoad imgArmed imgReport imgFullOk parts fab xfes xltPend xltAtsEn xltPriEn xltPriStopped xltPriAlloc xltBufs xltL2 xltAtsWait xltInvals xltInvCount xltInvMax xltL2Hits xltL2Misses xltPrqCount xltOrder xltPtGrans xltPtUsed memPoison memOwn memBanks memChans memStackTab memPpr memHppr memDue memToZero memLeaving nocReqs nocResps nocNextTag nocRoutes nocVroutes nocRoutesOk nocSegsUp nocFlitCe nocDrops nocTimeouts nocLastDrop nocQports nocQparts nocShown nocMissPart sites home ports cols host vis sec lcsPcw lcsDeferred lcsOtpLater lcsRollLater lcsDeferTo lcsFinished lcsWipeRep pwr flt mgtOnTrial mgtPeel mgtStaged mgtCommitDue mgtOldFw mgtOldRun mgtUnavailAt mgtJumpAt mgtDeferAt mgtEmergAt mgtHandRec mgtWdtPeriod mgtWdtExp mgtHalted mgtUnavail mgtFlash mgtLog mgtLogHead mgtLogSeq mgtPldmQ mgtFlatReason mgtRcvRun mgtStopStart mgtPldmImg mgtPldmTo mgtFindings mgtLinkTests trc prfMir free out pending} :
    Frm w r ⟨⟨imgLoaded, imgRun, imgLoad, imgArmed, imgReport, imgFullOk⟩, x.clk, parts, fab, xfes, ⟨x.xlt.hwt, xltPend, xltAtsEn, xltPriEn, xltPriStopped, xltPriAlloc, xltBufs, xltL2, xltAtsWait, xltInvals, xltInvCount, xltInvMax, xltL2Hits, xltL2Misses, xltPrqCount, xltOrder, x.xlt.roots, x.xlt.maps, xltPtGrans, xltPtUsed⟩, ⟨x.mem.bytes, memPoison, memOwn, memBanks, memChans, memStackTab, memPpr, memHppr, memDue, memToZero, memLeaving⟩, ⟨x.noc.net, nocReqs, nocResps, nocNextTag, nocRoutes, nocVroutes, nocRoutesOk, nocSegsUp, nocFlitCe, nocDrops, nocTimeouts, nocLastDrop, nocQports, nocQparts, nocShown, nocMissPart⟩, sites, home, ports, cols, host, vis, sec, ⟨x.lcs.otp, lcsPcw, x.lcs.transition, x.lcs.status, x.lcs.target, lcsDeferred, lcsOtpLater, lcsRollLater, lcsDeferTo, lcsFinished, lcsWipeRep⟩, x.dbg, pwr, x.thm, flt, ⟨x.mgt.stage, x.mgt.running, mgtOnTrial, x.mgt.fw, mgtPeel, mgtStaged, mgtCommitDue, mgtOldFw, mgtOldRun, mgtUnavailAt, mgtJumpAt, mgtDeferAt, mgtEmergAt, mgtHandRec, mgtWdtPeriod, mgtWdtExp, mgtHalted, x.mgt.busy, mgtUnavail, x.mgt.done, x.mgt.mbStatus, x.mgt.mbTag, x.mgt.curTag, x.mgt.args, x.mgt.resp, x.mgt.rcvOn, x.mgt.rcv, x.mgt.coldReq, mgtFlash, x.mgt.flashOp, mgtLog, mgtLogHead, mgtLogSeq, mgtPldmQ, mgtFlatReason, mgtRcvRun, mgtStopStart, mgtPldmImg, mgtPldmTo, mgtFindings, mgtLinkTests⟩, trc, x.prfUp, prfMir, x.prfPeer, x.siteAck, x.mbxH, x.mbxF, x.indH, x.indF, x.indMem, x.regs, free, out, pending⟩ := by
  apply h.step <;> first | exact .inl (c.bit rfl) | exact .inr (List.Sublist.refl _) | exact .inr ⟨rfl, rfl, rfl, rfl, rfl, rfl, rfl⟩ | exact .inr ⟨rfl, rfl, rfl, rfl⟩ | exact .inr ⟨rfl, rfl, rfl⟩ | exact .inr ⟨rfl, rfl⟩ | exact .inr rfl

/-- A change of the image being loaded and of the firmware. -/
theorem Frm.chLoadFw {w : Nat} {r x : State} (c : Sub 73728 w) (h : Frm w r x)
    {imgLoad imgArmed imgReport imgFullOk parts fab xfes xltPend xltAtsEn xltPriEn xltPriStopped xltPriAlloc xltBufs xltL2 xltAtsWait xltInvals xltInvCount xltInvMax xltL2Hits xltL2Misses xltPrqCount xltOrder xltPtGrans xltPtUsed memPoison memOwn memBanks memChans memStackTab memPpr memHppr memDue memToZero memLeaving nocReqs nocResps nocNextTag nocRoutes nocVroutes nocRoutesOk nocSegsUp nocFlitCe nocDrops nocTimeouts nocLastDrop nocQports nocQparts nocShown nocMissPart sites home ports cols host vis sec lcsPcw lcsDeferred lcsOtpLater lcsRollLater lcsDeferTo lcsFinished lcsWipeRep pwr flt mgtStage mgtRunning mgtOnTrial mgtFw mgtPeel mgtStaged mgtCommitDue mgtOldFw mgtOldRun mgtUnavailAt mgtJumpAt mgtDeferAt mgtEmergAt mgtHandRec mgtWdtPeriod mgtWdtExp mgtHalted mgtUnavail mgtRcvOn mgtRcv mgtColdReq mgtFlash mgtFlashOp mgtLog mgtLogHead mgtLogSeq mgtPldmQ mgtFlatReason mgtRcvRun mgtStopStart mgtPldmImg mgtPldmTo mgtFindings mgtLinkTests trc prfMir free out pending} :
    Frm w r ⟨⟨x.img.loaded, x.img.run, imgLoad, imgArmed, imgReport, imgFullOk⟩, x.clk, parts, fab, xfes, ⟨x.xlt.hwt, xltPend, xltAtsEn, xltPriEn, xltPriStopped, xltPriAlloc, xltBufs, xltL2, xltAtsWait, xltInvals, xltInvCount, xltInvMax, xltL2Hits, xltL2Misses, xltPrqCount, xltOrder, x.xlt.roots, x.xlt.maps, xltPtGrans, xltPtUsed⟩, ⟨x.mem.bytes, memPoison, memOwn, memBanks, memChans, memStackTab, memPpr, memHppr, memDue, memToZero, memLeaving⟩, ⟨x.noc.net, nocReqs, nocResps, nocNextTag, nocRoutes, nocVroutes, nocRoutesOk, nocSegsUp, nocFlitCe, nocDrops, nocTimeouts, nocLastDrop, nocQports, nocQparts, nocShown, nocMissPart⟩, sites, home, ports, cols, host, vis, sec, ⟨x.lcs.otp, lcsPcw, x.lcs.transition, x.lcs.status, x.lcs.target, lcsDeferred, lcsOtpLater, lcsRollLater, lcsDeferTo, lcsFinished, lcsWipeRep⟩, x.dbg, pwr, x.thm, flt, ⟨mgtStage, mgtRunning, mgtOnTrial, mgtFw, mgtPeel, mgtStaged, mgtCommitDue, mgtOldFw, mgtOldRun, mgtUnavailAt, mgtJumpAt, mgtDeferAt, mgtEmergAt, mgtHandRec, mgtWdtPeriod, mgtWdtExp, mgtHalted, x.mgt.busy, mgtUnavail, x.mgt.done, x.mgt.mbStatus, x.mgt.mbTag, x.mgt.curTag, x.mgt.args, x.mgt.resp, mgtRcvOn, mgtRcv, mgtColdReq, mgtFlash, mgtFlashOp, mgtLog, mgtLogHead, mgtLogSeq, mgtPldmQ, mgtFlatReason, mgtRcvRun, mgtStopStart, mgtPldmImg, mgtPldmTo, mgtFindings, mgtLinkTests⟩, trc, x.prfUp, prfMir, x.prfPeer, x.siteAck, x.mbxH, x.mbxF, x.indH, x.indF, x.indMem, x.regs, free, out, pending⟩ := by
  apply h.step <;> first | exact .inl (c.bit rfl) | exact .inr (List.Sublist.refl _) | exact .inr ⟨rfl, rfl, rfl, rfl, rfl, rfl, rfl⟩ | exact .inr ⟨rfl, rfl, rfl, rfl⟩ | exact .inr ⟨rfl, rfl, rfl⟩ | exact .inr ⟨rfl, rfl⟩ | exact .inr rfl

/-- A change of memory that gives no byte a value. -/
theorem Frm.memLost {w : Nat} {r x : State} {mem : Mem} (c : List.Sublist mem.bytes x.mem.bytes) (h : Frm w r x)
    {parts fab xfes xltPend xltAtsEn xltPriEn xltPriStopped xltPriAlloc xltBufs xltL2 xltAtsWait xltInvals xltInvCount xltInvMax xltL2Hits xltL2Misses xltPrqCount xltOrder xltPtGrans xltPtUsed nocReqs nocResps nocNextTag nocRoutes nocVroutes nocRoutesOk nocSegsUp nocFlitCe nocDrops nocTimeouts nocLastDrop nocQports nocQparts nocShown nocMissPart sites home ports cols host vis sec lcsPcw lcsDeferred lcsOtpLater lcsRollLater lcsDeferTo lcsFinished lcsWipeRep pwr flt mgtOnTrial mgtPeel mgtStaged mgtCommitDue mgtOldFw mgtOldRun mgtUnavailAt mgtJumpAt mgtDeferAt mgtEmergAt mgtHandRec mgtWdtPeriod mgtWdtExp mgtHalted mgtUnavail mgtFlash mgtLog mgtLogHead mgtLogSeq mgtPldmQ mgtFlatReason mgtRcvRun mgtStopStart mgtPldmImg mgtPldmTo mgtFindings mgtLinkTests trc prfMir free out pending} :
    Frm w r ⟨⟨x.img.loaded, x.img.run, x.img.load, x.img.armed, x.img.report, x.img.fullOk⟩, x.clk, parts, fab, xfes, ⟨x.xlt.hwt, xltPend, xltAtsEn, xltPriEn, xltPriStopped, xltPriAlloc, xltBufs, xltL2, xltAtsWait, xltInvals, xltInvCount, xltInvMax, xltL2Hits, xltL2Misses, xltPrqCount, xltOrder, x.xlt.roots, x.xlt.maps, xltPtGrans, xltPtUsed⟩, mem, ⟨x.noc.net, nocReqs, nocResps, nocNextTag, nocRoutes, nocVroutes, nocRoutesOk, nocSegsUp, nocFlitCe, nocDrops, nocTimeouts, nocLastDrop, nocQports, nocQparts, nocShown, nocMissPart⟩, sites, home, ports, cols, host, vis, sec, ⟨x.lcs.otp, lcsPcw, x.lcs.transition, x.lcs.status, x.lcs.target, lcsDeferred, lcsOtpLater, lcsRollLater, lcsDeferTo, lcsFinished, lcsWipeRep⟩, x.dbg, pwr, x.thm, flt, ⟨x.mgt.stage, x.mgt.running, mgtOnTrial, x.mgt.fw, mgtPeel, mgtStaged, mgtCommitDue, mgtOldFw, mgtOldRun, mgtUnavailAt, mgtJumpAt, mgtDeferAt, mgtEmergAt, mgtHandRec, mgtWdtPeriod, mgtWdtExp, mgtHalted, x.mgt.busy, mgtUnavail, x.mgt.done, x.mgt.mbStatus, x.mgt.mbTag, x.mgt.curTag, x.mgt.args, x.mgt.resp, x.mgt.rcvOn, x.mgt.rcv, x.mgt.coldReq, mgtFlash, x.mgt.flashOp, mgtLog, mgtLogHead, mgtLogSeq, mgtPldmQ, mgtFlatReason, mgtRcvRun, mgtStopStart, mgtPldmImg, mgtPldmTo, mgtFindings, mgtLinkTests⟩, trc, x.prfUp, prfMir, x.prfPeer, x.siteAck, x.mbxH, x.mbxF, x.indH, x.indF, x.indMem, x.regs, free, out, pending⟩ := by
  apply h.step <;> first | exact .inr c | exact .inr ⟨rfl, rfl, rfl, rfl, rfl, rfl, rfl⟩ | exact .inr ⟨rfl, rfl, rfl, rfl⟩ | exact .inr ⟨rfl, rfl, rfl⟩ | exact .inr ⟨rfl, rfl⟩ | exact .inr rfl

theorem Mem.clear_bytes (m : Mem) (lo hi : Nat) : List.Sublist (m.clear lo hi).bytes m.bytes := List.filter_sublist
theorem Mem.mark_bytes (m : Mem) (l : Nat) (p : Bool) : List.Sublist (m.mark l p).bytes m.bytes := List.Sublist.refl _

theorem Frm.ite {w : Nat} {r a b : State} {p : Prop} [Decidable p] (ha : Frm w r a) (hb : Frm w r b) : Frm w r (if p then a else b) := by
  split <;> assumption

theorem Frm.foldl {w : Nat} {α : Type} {f : State → α → State} {r : State} (hf : ∀ x a, Frm w r x → Frm w r (f x a)) :
    ∀ {l : List α} {s : State}, Frm w r s → Frm w r (l.foldl f s)
  | [], _, h => h
  | a :: l, _, h => Frm.foldl hf (l := l) (hf _ a h)

theorem Frm.foldl2 {w : Nat} {α β : Type} {f : β × State → α → β × State} {r : State} (hf : ∀ x a, Frm w r x.2 → Frm w r (f x a).2) :
    ∀ {l : List α} {x : β × State}, Frm w r x.2 → Frm w r (l.foldl f x).2
  | [], _, h => h
  | a :: l, _, h => Frm.foldl2 hf (l := l) (hf _ a h)

theorem Frm.foldl3 {w : Nat} {α β γ : Type} {f : β × γ × State → α → β × γ × State} {r : State}
    (hf : ∀ x a, Frm w r x.2.2 → Frm w r (f x a).2.2) :
    ∀ {l : List α} {x : β × γ × State}, Frm w r x.2.2 → Frm w r (l.foldl f x).2.2
  | [], _, h => h
  | a :: l, _, h => Frm.foldl3 hf (l := l) (hf _ a h)

theorem Frm.foldl4 {w : Nat} {α β γ δ : Type} {f : β × γ × δ × State → α → β × γ × δ × State} {r : State}
    (hf : ∀ x a, Frm w r x.2.2.2 → Frm w r (f x a).2.2.2) :
    ∀ {l : List α} {x : β × γ × δ × State}, Frm w r x.2.2.2 → Frm w r (l.foldl f x).2.2.2
  | [], _, h => h
  | a :: l, _, h => Frm.foldl4 hf (l := l) (hf _ a h)

theorem Frm.snd {w : Nat} {α : Type} {r t : State} {p : α × State} {a : α} (e : p = (a, t)) (h : Frm w r p.2) : Frm w r t := by
  subst e; exact h

/-- The relation for an operation that may find nothing to do. -/
structure FrmO (w : Nat) (r : State) (o : Option State) : Prop where
  out : ∀ t, o = Option.some t → Frm w r t

theorem FrmO.none {w : Nat} {r : State} : FrmO w r Option.none := ⟨fun _ e => by cases e⟩
theorem FrmO.some {w : Nat} {r t : State} (h : Frm w r t) : FrmO w r (Option.some t) := ⟨fun _ e => by cases e; exact h⟩
theorem FrmO.ite {w : Nat} {r : State} {a b : Option State} {p : Prop} [Decidable p] (ha : FrmO w r a) (hb : FrmO w r b) :
    FrmO w r (if p then a else b) := by
  split <;> assumption
theorem Frm.opt {w : Nat} {r t : State} {o : Option State} (e : o = Option.some t) (h : FrmO w r o) : Frm w r t := h.out t e
theorem Frm.getD {w : Nat} {r t : State} {o : Option State} (h : FrmO w r o) (k : Frm w r t) : Frm w r (o.getD t) := by
  cases o with
  | none => exact k
  | some x => exact h.out x rfl

/-- The relation for an operation that answers something beside the state, or nothing. -/
structure FrmP {α : Type} (w : Nat) (r : State) (o : Option (α × State)) : Prop where
  out : ∀ a t, o = Option.some (a, t) → Frm w r t

theorem FrmP.none {w : Nat} {α : Type} {r : State} : FrmP (α := α) w r Option.none := ⟨fun _ _ e => by cases e⟩
theorem FrmP.some {w : Nat} {α : Type} {r t : State} {a : α} (h : Frm w r t) : FrmP w r (Option.some (a, t)) := ⟨fun _ _ e => by cases e; exact h⟩
theorem FrmP.ite {w : Nat} {α : Type} {r : State} {a b : Option (α × State)} {p : Prop} [Decidable p] (ha : FrmP w r a) (hb : FrmP w r b) :
    FrmP w r (if p then a else b) := by
  split <;> assumption
theorem Frm.optP {w : Nat} {α : Type} {r t : State} {a : α} {o : Option (α × State)} (e : o = Option.some (a, t)) (h : FrmP w r o) : Frm w r t :=
  h.out a t e

theorem FrmO.map {w : Nat} {r : State} {o : Option State} {f : State → State} (h : FrmO w r o) (hf : ∀ x, Frm w r x → Frm w r (f x)) :
    FrmO w r (o.map f) := by
  cases o with
  | none => exact FrmO.none
  | some x => exact FrmO.some (hf x (h.out x rfl))

theorem FrmP.map {w : Nat} {α β : Type} {r : State} {o : Option (α × State)} {f : α × State → β × State} (h : FrmP w r o)
    (hf : ∀ x, Frm w r x.2 → Frm w r (f x).2) : FrmP w r (o.map f) := by
  cases o with
  | none => exact FrmP.none
  | some x => exact FrmP.some (hf x (h.out x.1 x.2 rfl))

theorem FrmP.mapV {w : Nat} {α β : Type} {r : State} {o : Option α} {f : α → β × State} (hf : ∀ x, Frm w r (f x).2) : FrmP w r (o.map f) := by
  cases o with
  | none => exact FrmP.none
  | some x => exact FrmP.some (hf x)

theorem FrmP.foldl {w : Nat} {α β : Type} {r : State} {f : Option (β × State) → α → Option (β × State)}
    (hf : ∀ o a, FrmP w r o → FrmP w r (f o a)) : ∀ {l : List α} {o : Option (β × State)}, FrmP w r o → FrmP w r (l.foldl f o)
  | [], _, h => h
  | a :: l, _, h => FrmP.foldl hf (l := l) (hf _ a h)

theorem Frm.ofP {w : Nat} {α : Type} {r t : State} {a : α} (h : FrmP w r (Option.some (a, t))) : Frm w r t := h.out a t rfl
theorem Frm.ofO {w : Nat} {r t : State} (h : FrmO w r (Option.some t)) : Frm w r t := h.out t rfl

/-- The relation for a list of conditional operations. -/
structure FrmL (w : Nat) (r : State) (l : List (Bool × (State → State))) : Prop where
  out : ∀ c ∈ l, ∀ x, Frm w r x → Frm w r (c.2 x)

theorem FrmL.nil {w : Nat} {r : State} : FrmL w r [] := ⟨fun _ h => by cases h⟩
theorem FrmL.cons {w : Nat} {r : State} {b : Bool} {f : State → State} {l : List (Bool × (State → State))} (h : ∀ x, Frm w r x → Frm w r (f x))
    (k : FrmL w r l) : FrmL w r ((b, f) :: l) := ⟨fun c m => by
  cases m with
  | head => exact h
  | tail _ m => exact k.out c m⟩

theorem FrmL.run {w : Nat} {r : State} : ∀ {l : List (Bool × (State → State))} {s : State}, FrmL w r l → Frm w r s →
    Frm w r (l.foldl (fun s c => if c.1 then c.2 s else s) s)
  | [], _, _, h => h
  | c :: l, s, k, h => FrmL.run (l := l) ⟨fun d m => k.out d (List.mem_cons_of_mem _ m)⟩
      (Frm.ite (k.out c List.mem_cons_self s h) h)

end Sys2Proof.Laws
end

