-- ==== Sys2Proof/Laws/FrameOps.lean ====
section
/-! SUPPORT. What the operations of `Machine/Ops.lean` leave alone: one lemma each. -/
namespace Sys2Proof.Laws
open Sys2Proof Sys2Proof.Machine Sys2Proof.Safety
set_option linter.unreachableTactic false
set_option linter.unusedTactic false

theorem frm_drawFree {fm : Nat} {r0 : State} {w : Nat} {s : State} (hk : Frm fm r0 s) :
    Frm fm r0 (State.drawFree s w).2 := by
  unfold State.drawFree
  repeat' first | intro _ | (with_reducible first | assumption | apply Frm.ite | fail_if_no_progress apply Frm.rest) | dsimp only | split

theorem frm_spend {fm : Nat} {r0 : State} {s : State} (hk : Frm fm r0 s) :
    Frm fm r0 (State.spend s) := by
  unfold State.spend
  repeat' first | intro _ | (with_reducible first | assumption | apply Frm.ite | fail_if_no_progress apply Frm.rest) | dsimp only | split

theorem frm_emit {fm : Nat} {r0 : State} {e : Emit} {s : State} (hk : Frm fm r0 s) :
    Frm fm r0 (State.emit s e) := by
  unfold State.emit
  repeat' first | intro _ | (with_reducible first | assumption | apply Frm.ite | fail_if_no_progress apply Frm.rest) | dsimp only | split

theorem frm_emits {fm : Nat} {r0 : State} {es : List Emit} {s : State} (hk : Frm fm r0 s) :
    Frm fm r0 (State.emits s es) := by
  exact Frm.foldl (fun _ _ k => frm_emit k) hk

theorem frm_writeLog {fm : Nat} {r0 : State} {src sev cls ev a0 a1 : Nat} {s : State} (hk : Frm fm r0 s) :
    Frm fm r0 (writeLog src sev cls ev a0 a1 s) := by
  unfold writeLog
  repeat' first | intro _ | (with_reducible first | assumption | apply Frm.ite | fail_if_no_progress apply Frm.rest) | dsimp only | split

theorem frm_setPart {fm : Nat} {r0 : State} {p : Nat} {x : Part} {s : State} (hk : Frm fm r0 s) :
    Frm fm r0 (State.setPart s p x) := by
  unfold State.setPart
  repeat' first | intro _ | (with_reducible first | assumption | apply Frm.ite | fail_if_no_progress apply Frm.rest) | dsimp only | split

theorem frm_modPart {fm : Nat} {r0 : State} {p : Nat} {f : Part → Part} {s : State} (hk : Frm fm r0 s) :
    Frm fm r0 (State.modPart s p f) := by
  unfold State.modPart
  repeat' first | intro _ | (with_reducible first | assumption | apply frm_setPart | apply Frm.ite | fail_if_no_progress apply Frm.rest) | dsimp only | split

theorem frm_setCell {fm : Nat} {r0 : State} {n : Nat} {x : Cell} {s : State} (hk : Frm fm r0 s) :
    Frm fm r0 (State.setCell s n x) := by
  unfold State.setCell
  repeat' first | intro _ | (with_reducible first | assumption | apply Frm.ite | fail_if_no_progress apply Frm.rest) | dsimp only | split

theorem frm_setCol {fm : Nat} {r0 : State} {k : Nat} {x : Column} {s : State} (hk : Frm fm r0 s) :
    Frm fm r0 (State.setCol s k x) := by
  unfold State.setCol
  repeat' first | intro _ | (with_reducible first | assumption | apply Frm.ite | fail_if_no_progress apply Frm.rest) | dsimp only | split

theorem frm_setQuad {fm : Nat} {r0 : State} {q : Nat} {x : Quadrant} {s : State} (hk : Frm fm r0 s) :
    Frm fm r0 (State.setQuad s q x) := by
  unfold State.setQuad
  repeat' first | intro _ | (with_reducible first | assumption | apply Frm.ite | fail_if_no_progress apply Frm.rest) | dsimp only | split

theorem frm_setXfe {fm : Nat} {r0 : State} {e : Nat} {x : Xfe} {s : State} (hk : Frm fm r0 s) :
    Frm fm r0 (State.setXfe s e x) := by
  unfold State.setXfe
  repeat' first | intro _ | (with_reducible first | assumption | apply Frm.ite | fail_if_no_progress apply Frm.rest) | dsimp only | split

theorem frm_setBank {fm : Nat} {r0 : State} {b : Nat} {x : Bank} {s : State} (hk : Frm fm r0 s) :
    Frm fm r0 (State.setBank s b x) := by
  unfold State.setBank
  repeat' first | intro _ | (with_reducible first | assumption | apply Frm.ite | fail_if_no_progress apply Frm.rest) | dsimp only | split

theorem frm_setChan {fm : Nat} {r0 : State} {c : Nat} {x : Chan} {s : State} (hk : Frm fm r0 s) :
    Frm fm r0 (State.setChan s c x) := by
  unfold State.setChan
  repeat' first | intro _ | (with_reducible first | assumption | apply Frm.ite | fail_if_no_progress apply Frm.rest) | dsimp only | split

theorem frm_setStack {fm : Nat} {r0 : State} {m : Nat} {x : Stack} {s : State} (hk : Frm fm r0 s) :
    Frm fm r0 (State.setStack s m x) := by
  unfold State.setStack
  repeat' first | intro _ | (with_reducible first | assumption | apply Frm.ite | fail_if_no_progress apply Frm.rest) | dsimp only | split

theorem frm_setGranule {fm : Nat} {r0 : State} {g : Nat} {x : Granule} {s : State} (hk : Frm fm r0 s) :
    Frm fm r0 (State.setGranule s g x) := by
  unfold State.setGranule
  repeat' first | intro _ | (with_reducible first | assumption | apply Frm.ite | fail_if_no_progress apply Frm.rest) | dsimp only | split

theorem frm_setSite {fm : Nat} {r0 : State} {n : Nat} {x : Site} {s : State} (hk : Frm fm r0 s) :
    Frm fm r0 (State.setSite s n x) := by
  unfold State.setSite
  repeat' first | intro _ | (with_reducible first | assumption | apply Frm.ite | fail_if_no_progress apply Frm.rest) | dsimp only | split

theorem frm_modSite {fm : Nat} {r0 : State} {n : Nat} {f : Site → Site} {s : State} (hk : Frm fm r0 s) :
    Frm fm r0 (State.modSite s n f) := by
  unfold State.modSite
  repeat' first | intro _ | (with_reducible first | assumption | apply frm_setSite | apply Frm.ite | fail_if_no_progress apply Frm.rest) | dsimp only | split

theorem frm_setPort {fm : Nat} {r0 : State} {n : Nat} {x : Port} {s : State} (hk : Frm fm r0 s) :
    Frm fm r0 (State.setPort s n x) := by
  unfold State.setPort
  repeat' first | intro _ | (with_reducible first | assumption | apply Frm.ite | fail_if_no_progress apply Frm.rest) | dsimp only | split

theorem frm_setCunit {fm : Nat} {r0 : State} {c : Nat} {x : Col} {s : State} (hk : Frm fm r0 s) :
    Frm fm r0 (State.setCunit s c x) := by
  unfold State.setCunit
  repeat' first | intro _ | (with_reducible first | assumption | apply Frm.ite | fail_if_no_progress apply Frm.rest) | dsimp only | split

theorem frm_setVi {fm : Nat} {r0 : State} {v : Nat} {x : Vi} {s : State} (hk : Frm fm r0 s) :
    Frm fm r0 (State.setVi s v x) := by
  unfold State.setVi
  repeat' first | intro _ | (with_reducible first | assumption | apply Frm.ite | fail_if_no_progress apply Frm.rest) | dsimp only | split

theorem frm_modVi {fm : Nat} {r0 : State} {v : Nat} {f : Vi → Vi} {s : State} (hk : Frm fm r0 s) :
    Frm fm r0 (State.modVi s v f) := by
  unfold State.modVi
  repeat' first | intro _ | (with_reducible first | assumption | apply frm_setVi | apply Frm.ite | fail_if_no_progress apply Frm.rest) | dsimp only | split

theorem frm_setSeal {fm : Nat} {r0 : State} {v : Nat} {x : Seal} {s : State} (hk : Frm fm r0 s) :
    Frm fm r0 (State.setSeal s v x) := by
  unfold State.setSeal
  repeat' first | intro _ | (with_reducible first | assumption | apply Frm.ite | fail_if_no_progress apply Frm.rest) | dsimp only | split

theorem frm_setGrp {fm : Nat} {r0 : State} {g : Nat} {x : FGroup} {s : State} (hk : Frm fm r0 s) :
    Frm fm r0 (State.setGrp s g x) := by
  unfold State.setGrp
  repeat' first | intro _ | (with_reducible first | assumption | apply Frm.ite | fail_if_no_progress apply Frm.rest) | dsimp only | split

theorem frm_setTile {fm : Nat} {r0 : State} {t : Nat} {x : Tile} {s : State} (hk : Frm fm r0 s) :
    Frm fm r0 (State.setTile s t x) := by
  unfold State.setTile
  repeat' first | intro _ | (with_reducible first | assumption | apply Frm.ite | fail_if_no_progress apply Frm.rest) | dsimp only | split

theorem frm_setRegion {fm : Nat} {r0 : State} {r : Nat} {x : Region} {s : State} (hm : Sub 128 fm) (hk : Frm fm r0 s) :
    Frm fm r0 (State.setRegion s r x) := by
  unfold State.setRegion
  repeat' first | intro _ | (with_reducible first | assumption | apply Frm.ite | fail_if_no_progress apply Frm.rest | exact Sub.trans (b := 128) rfl hm) | dsimp only | split | (with_reducible first | apply Frm.ch7)

theorem frm_setQport {fm : Nat} {r0 : State} {port part : Nat} {x : QosPort} {s : State} (hk : Frm fm r0 s) :
    Frm fm r0 (State.setQport s port part x) := by
  unfold State.setQport
  repeat' first | intro _ | (with_reducible first | assumption | apply Frm.ite | fail_if_no_progress apply Frm.rest) | dsimp only | split

theorem frm_setQpart {fm : Nat} {r0 : State} {p : Nat} {x : QosPart} {s : State} (hk : Frm fm r0 s) :
    Frm fm r0 (State.setQpart s p x) := by
  unfold State.setQpart
  repeat' first | intro _ | (with_reducible first | assumption | apply Frm.ite | fail_if_no_progress apply Frm.rest) | dsimp only | split

theorem frm_setReg {fm : Nat} {r0 : State} {addr : Nat} {d v : Word} {s : State} (hm : Sub 4096 fm) (hk : Frm fm r0 s) :
    Frm fm r0 (State.setReg s addr d v) := by
  unfold State.setReg
  repeat' first | intro _ | (with_reducible first | assumption | apply Frm.ite | fail_if_no_progress apply Frm.rest | exact Sub.trans (b := 4096) rfl hm) | dsimp only | split | (with_reducible first | apply Frm.ch12)

theorem frm_traceAt {fm : Nat} {r0 : State} {point : Nat} {part : Option Nat} {s : State} (hk : Frm fm r0 s) :
    Frm fm r0 (traceAt point part s) := by
  unfold traceAt
  repeat' first | intro _ | (with_reducible first | assumption | apply Frm.ite | fail_if_no_progress apply Frm.rest) | dsimp only | split

theorem frm_geljaTo {fm : Nat} {r0 : State} {n op : Nat} {m : GMsg} {s : State} (hk : Frm fm r0 s) :
    Frm fm r0 (geljaTo n op m s) := by
  unfold geljaTo
  repeat' first | intro _ | (with_reducible first | assumption | apply frm_emit | apply Frm.ite | fail_if_no_progress apply Frm.rest) | dsimp only | split

theorem frm_sendHold {fm : Nat} {r0 : State} {p floor reason : Nat} {s : State} (hk : Frm fm r0 s) :
    Frm fm r0 (sendHold p floor reason s) := by
  unfold sendHold
  repeat' first | intro _ | (with_reducible first | assumption | apply frm_geljaTo | apply Frm.ite | apply Frm.foldl | apply Frm.foldl2 | apply Frm.foldl3 | fail_if_no_progress apply Frm.rest) | dsimp only | split

theorem frm_stateInts {fm : Nat} {r0 : State} {p : Nat} {s : State} (hk : Frm fm r0 s) :
    Frm fm r0 (stateInts p s) := by
  unfold stateInts
  repeat' first | intro _ | (with_reducible first | assumption | apply frm_modVi | apply Frm.ite | apply Frm.foldl | apply Frm.foldl2 | apply Frm.foldl3 | fail_if_no_progress apply Frm.rest) | dsimp only | split

theorem frm_setPState {fm : Nat} {r0 : State} {p : Nat} {st : PState} {h : Hold} {s : State} (hk : Frm fm r0 s) :
    Frm fm r0 (setPState p st h s) := by
  unfold setPState
  repeat' first | intro _ | (with_reducible first | assumption | apply frm_modPart | apply frm_sendHold | apply frm_stateInts | apply Frm.ite | fail_if_no_progress apply Frm.rest) | dsimp only | split

theorem frm_setDomain {fm : Nat} {r0 : State} {n : Nat} {on : Bool} {s : State} (hk : Frm fm r0 s) :
    Frm fm r0 (setDomain n on s) := by
  unfold setDomain
  repeat' first | intro _ | (with_reducible first | assumption | apply Frm.ite | fail_if_no_progress apply Frm.rest) | dsimp only | split

theorem frm_markFlag {fm : Nat} {r0 : State} {p bit : Nat} {s : State} (hk : Frm fm r0 s) :
    Frm fm r0 (markFlag p bit s) := by
  unfold markFlag
  repeat' first | intro _ | (with_reducible first | assumption | apply frm_modPart | apply Frm.ite | fail_if_no_progress apply Frm.rest) | dsimp only | split

theorem frm_modReq {fm : Nat} {r0 : State} {tag : Nat} {f : Req → Req} {s : State} (hk : Frm fm r0 s) :
    Frm fm r0 (State.modReq s tag f) := by
  unfold State.modReq
  repeat' first | intro _ | (with_reducible first | assumption | apply Frm.ite | fail_if_no_progress apply Frm.rest) | dsimp only | split

theorem frm_dropReq {fm : Nat} {r0 : State} {tag : Nat} {s : State} (hk : Frm fm r0 s) :
    Frm fm r0 (State.dropReq s tag) := by
  unfold State.dropReq
  repeat' first | intro _ | (with_reducible first | assumption | apply Frm.ite | fail_if_no_progress apply Frm.rest) | dsimp only | split

theorem frm_setMeas {fm : Nat} {r0 : State} {idx : Nat} {v : List Byte} {s : State} (hk : Frm fm r0 s) :
    Frm fm r0 (setMeas idx v s) := by
  unfold setMeas
  repeat' first | intro _ | (with_reducible first | assumption | apply frm_modVi | apply frm_setSeal | apply Frm.ite | apply Frm.foldl | apply Frm.foldl2 | apply Frm.foldl3 | fail_if_no_progress apply Frm.rest) | dsimp only | split

end Sys2Proof.Laws
end

