-- ==== Sys2Proof/Laws/FrameMemOps.lean ====
section
/-! SUPPORT. What the operations of `Machine/MemOps.lean` leave alone: one lemma each. -/
namespace Sys2Proof.Laws
open Sys2Proof Sys2Proof.Machine Sys2Proof.Safety
set_option linter.unreachableTactic false
set_option linter.unusedTactic false

theorem frm_memPut {fm : Nat} {r0 : State} {g pa : Nat} {bs : List Byte} {poison : Bool} {s : State} (hm : Sub 1 fm) (hk : Frm fm r0 s) :
    Frm fm r0 (memPut s g pa bs poison) := by
  apply hk.step <;> first | exact .inl (hm.bit rfl) | exact .inr (List.Sublist.refl _) | exact .inr (List.nil_sublist _) | exact .inr rfl | exact .inr ⟨rfl, rfl⟩ | exact .inr ⟨rfl, rfl, rfl⟩ | exact .inr ⟨rfl, rfl, rfl, rfl⟩ | exact .inr ⟨rfl, rfl, rfl, rfl, rfl, rfl, rfl⟩

theorem frm_memPutBe {fm : Nat} {r0 : State} {g pa : Nat} {bs : List Byte} {be : Nat} {poison : Bool} {s : State} (hm : Sub 1 fm) (hk : Frm fm r0 s) :
    Frm fm r0 (memPutBe s g pa bs be poison) := by
  unfold memPutBe
  repeat' first | intro _ | (with_reducible first | assumption | apply frm_setGranule | apply Frm.ite | fail_if_no_progress apply Frm.rest | exact Sub.trans (b := 1) rfl hm) | dsimp only | split | (with_reducible first | apply Frm.ch0)

theorem frm_markLines {fm : Nat} {r0 : State} {ls : List Nat} {s : State} (hk : Frm fm r0 s) :
    Frm fm r0 (markLines ls s) := by
  unfold markLines
  refine hk.memLost ?_
  show List.Sublist (Mem.bytes (ls.foldl (fun m l => m.mark l true) s.mem)) _
  rw [Mem.bytes_foldl (f := fun (m : Mem) l => m.mark l true) (fun m l => Mem.bytes_mark m l true)]

theorem frm_zeroGranule {fm : Nat} {r0 : State} {g : Nat} {s : State} (hk : Frm fm r0 s) :
    Frm fm r0 (zeroGranule g s) := by
  unfold zeroGranule
  repeat' first | intro _ | (with_reducible first | assumption | apply frm_setGranule | apply Frm.ite | fail_if_no_progress apply Frm.rest | apply Frm.memLost (c := Mem.clear_bytes _ _ _)) | dsimp only | split

theorem frm_bufFill {fm : Nat} {r0 : State} {unit : Nat} {e : XlEntry} {s : State} (hk : Frm fm r0 s) :
    Frm fm r0 (bufFill unit e s) := by
  unfold bufFill
  repeat' first | intro _ | (with_reducible first | assumption | apply Frm.ite | fail_if_no_progress apply Frm.rest) | dsimp only | split

theorem frm_xlFill {fm : Nat} {r0 : State} {unit : Nat} {e : XlEntry} {s : State} (hk : Frm fm r0 s) :
    Frm fm r0 (xlFill unit e s) := by
  unfold xlFill
  repeat' first | intro _ | (with_reducible first | assumption | apply frm_bufFill | apply Frm.ite | fail_if_no_progress apply Frm.rest) | dsimp only | split

theorem frm_xlDrop {fm : Nat} {r0 : State} {f : XlEntry → Bool} {s : State} (hk : Frm fm r0 s) :
    Frm fm r0 (xlDrop f s) := by
  unfold xlDrop
  repeat' first | intro _ | (with_reducible first | assumption | apply Frm.ite | fail_if_no_progress apply Frm.rest) | dsimp only | split

theorem frm_xlForget {fm : Nat} {r0 : State} {ctx : Nat} {s : State} (hk : Frm fm r0 s) :
    Frm fm r0 (xlForget ctx s) := by
  unfold xlForget
  repeat' first | intro _ | (with_reducible first | assumption | apply frm_xlDrop | apply Frm.ite | fail_if_no_progress apply Frm.rest) | dsimp only | split

theorem frm_noteXlat {fm : Nat} {r0 : State} {unit ctx dva : Nat} {s : State} (hk : Frm fm r0 s) :
    Frm fm r0 (noteXlat unit ctx dva s) := by
  unfold noteXlat
  repeat' first | intro _ | (with_reducible first | assumption | apply frm_bufFill | apply frm_xlFill | apply Frm.ite | fail_if_no_progress apply Frm.rest) | dsimp only | split

end Sys2Proof.Laws
end

