-- ==== Sys2Proof/Laws/FrameTokens.lean ====
section
/-! SUPPORT. What the operations of `Machine/Tokens.lean` leave alone: one lemma each. -/
namespace Sys2Proof.Laws
open Sys2Proof Sys2Proof.Machine Sys2Proof.Safety
set_option linter.unreachableTactic false
set_option linter.unusedTactic false

theorem frm_sendToken {fm : Nat} {r0 : State} {port : Nat} {t : Token} {s : State} (hk : Frm fm r0 s) :
    Frm fm r0 (sendToken port t s) := by
  unfold sendToken
  repeat' first | intro _ | (with_reducible first | assumption | apply frm_emit | apply frm_traceAt | apply Frm.ite | apply Frm.foldl | apply Frm.foldl2 | apply Frm.foldl3 | fail_if_no_progress apply Frm.rest) | dsimp only | split

theorem frm_sendCredit {fm : Nat} {r0 : State} {port part n : Nat} {s : State} (hk : Frm fm r0 s) :
    Frm fm r0 (sendCredit port part n s) := by
  unfold sendCredit
  repeat' first | intro _ | (with_reducible first | assumption | apply frm_emit | apply frm_setPort | apply Frm.ite | fail_if_no_progress apply Frm.rest) | dsimp only | split

theorem frm_sendAborts {fm : Nat} {r0 : State} {c : Nat} {o : COp} {s : State} (hk : Frm fm r0 s) :
    Frm fm r0 (sendAborts c o s) := by
  unfold sendAborts
  repeat' first | intro _ | (with_reducible first | assumption | apply frm_emit | apply frm_setPort | apply Frm.ite | apply Frm.foldl | apply Frm.foldl2 | apply Frm.foldl3 | fail_if_no_progress apply Frm.rest) | dsimp only | split

end Sys2Proof.Laws
end

