-- ==== Sys2Proof/Laws/FrameFence.lean ====
section
/-! SUPPORT. What the operations of `Machine/Fence.lean` leave alone: one lemma each. -/
namespace Sys2Proof.Laws
open Sys2Proof Sys2Proof.Machine Sys2Proof.Safety
set_option linter.unreachableTactic false
set_option linter.unusedTactic false

theorem frm_sendSnoop {fm : Nat} {r0 : State} {op line n : Nat} {s : State} (hk : Frm fm r0 s) :
    Frm fm r0 (sendSnoop op line n s) := by
  unfold sendSnoop
  repeat' first | intro _ | (with_reducible first | assumption | apply frm_emit | apply frm_setSite | apply frm_geljaTo | apply Frm.ite | fail_if_no_progress apply Frm.rest) | dsimp only | split

theorem frm_drainSnoops {fm : Nat} {r0 : State} {n : Nat} {s : State} (hk : Frm fm r0 s) :
    Frm fm r0 (drainSnoops n s) := by
  unfold drainSnoops
  repeat' first | intro _ | (with_reducible first | assumption | apply frm_modSite | apply frm_sendSnoop | apply Frm.ite | apply Frm.foldl | apply Frm.foldl2 | apply Frm.foldl3 | fail_if_no_progress apply Frm.rest) | dsimp only | split

theorem frm_backInval {fm : Nat} {r0 : State} {why line : Nat} {s : State} (hk : Frm fm r0 s) :
    Frm fm r0 (backInval why line s) := by
  unfold backInval
  repeat' first | intro _ | (with_reducible first | assumption | apply frm_sendSnoop | apply Frm.ite | apply Frm.foldl | apply Frm.foldl2 | apply Frm.foldl3 | fail_if_no_progress apply Frm.rest) | dsimp only | split

theorem frm_backInvalRange {fm : Nat} {r0 : State} {lo hi : Nat} {s : State} (hk : Frm fm r0 s) :
    Frm fm r0 (backInvalRange lo hi s) := by
  unfold backInvalRange
  repeat' first | intro _ | (with_reducible first | assumption | apply frm_backInval | apply Frm.ite | apply Frm.foldl | apply Frm.foldl2 | apply Frm.foldl3 | fail_if_no_progress apply Frm.rest) | dsimp only | split

theorem frm_flushSite {fm : Nat} {r0 : State} {n : Nat} {s : State} (hk : Frm fm r0 s) :
    Frm fm r0 (flushSite n s) := by
  unfold flushSite
  repeat' first | intro _ | (with_reducible first | assumption | apply frm_modSite | apply frm_backInval | apply Frm.ite | apply Frm.foldl | apply Frm.foldl2 | apply Frm.foldl3 | fail_if_no_progress apply Frm.rest) | dsimp only | split

theorem frm_dropHolder {fm : Nat} {r0 : State} {n line : Nat} {s : State} (hk : Frm fm r0 s) :
    Frm fm r0 (dropHolder n line s) := by
  unfold dropHolder
  repeat' first | intro _ | (with_reducible first | assumption | apply Frm.ite | fail_if_no_progress apply Frm.rest | apply Frm.memLost (c := Mem.mark_bytes _ _ _)) | dsimp only | split

theorem frm_settleWins {fm : Nat} {r0 : State} {s : State} (hk : Frm fm r0 s) :
    Frm fm r0 (settleWins s) := by
  unfold settleWins
  repeat' first | intro _ | (with_reducible first | assumption | apply Frm.ite | apply Frm.foldl | apply Frm.foldl2 | apply Frm.foldl3 | fail_if_no_progress apply Frm.rest) | dsimp only | split

theorem frm_freeGranule {fm : Nat} {r0 : State} {g : Nat} {s : State} (hk : Frm fm r0 s) :
    Frm fm r0 (freeGranule g s) := by
  unfold freeGranule
  repeat' first | intro _ | (with_reducible first | assumption | apply frm_setGranule | apply frm_zeroGranule | apply Frm.ite | fail_if_no_progress apply Frm.rest) | dsimp only | split

theorem frm_settleGrans {fm : Nat} {r0 : State} {s : State} (hk : Frm fm r0 s) :
    Frm fm r0 (settleGrans s) := by
  unfold settleGrans
  repeat' first | intro _ | (with_reducible first | assumption | apply frm_freeGranule | apply Frm.ite | apply Frm.foldl | apply Frm.foldl2 | apply Frm.foldl3 | fail_if_no_progress apply Frm.rest) | dsimp only | split

theorem frm_settleHome {fm : Nat} {r0 : State} {s : State} (hk : Frm fm r0 s) :
    Frm fm r0 (settleHome s) := by
  unfold settleHome
  repeat' first | intro _ | (with_reducible first | assumption | apply frm_settleWins | apply frm_settleGrans | apply Frm.ite | fail_if_no_progress apply Frm.rest) | dsimp only | split

theorem frm_releaseGran {fm : Nat} {r0 : State} {g : Nat} {s : State} (hk : Frm fm r0 s) :
    Frm fm r0 (releaseGran g s) := by
  unfold releaseGran
  repeat' first | intro _ | (with_reducible first | assumption | apply frm_backInvalRange | apply frm_freeGranule | apply frm_settleHome | apply Frm.ite | fail_if_no_progress apply Frm.rest) | dsimp only | split

theorem frm_dropSite {fm : Nat} {r0 : State} {n : Nat} {s : State} (hk : Frm fm r0 s) :
    Frm fm r0 (dropSite n s) := by
  unfold dropSite
  repeat' first | intro _ | (with_reducible first | assumption | apply frm_dropHolder | apply frm_settleHome | apply Frm.ite | apply Frm.foldl | apply Frm.foldl2 | apply Frm.foldl3 | fail_if_no_progress apply Frm.rest) | dsimp only | split

theorem frm_zeroCell {fm : Nat} {r0 : State} {n : Nat} {s : State} (hk : Frm fm r0 s) :
    Frm fm r0 (zeroCell n s) := by
  unfold zeroCell
  repeat' first | intro _ | (with_reducible first | assumption | apply frm_setCell | apply Frm.ite | fail_if_no_progress apply Frm.rest) | dsimp only | split

theorem frm_fenceCol {fm : Nat} {r0 : State} {k : Nat} {s : State} (hk : Frm fm r0 s) :
    Frm fm r0 (fenceCol k s) := by
  unfold fenceCol
  repeat' first | intro _ | (with_reducible first | assumption | apply frm_setCol | apply frm_traceAt | apply Frm.ite | fail_if_no_progress apply Frm.rest) | dsimp only | split

theorem frm_moveCell {fm : Nat} {r0 : State} {n : Nat} {s : State} (hk : Frm fm r0 s) :
    Frm fm r0 (moveCell n s) := by
  unfold moveCell
  repeat' first | intro _ | (with_reducible first | assumption | apply frm_setCell | apply Frm.ite | fail_if_no_progress apply Frm.rest) | dsimp only | split

theorem frm_remapCol {fm : Nat} {r0 : State} {k row : Nat} {s : State} (hk : Frm fm r0 s) :
    Frm fm r0 (remapCol k row s) := by
  unfold remapCol
  repeat' first | intro _ | (with_reducible first | assumption | apply frm_setCol | apply frm_traceAt | apply frm_fenceCol | apply frm_moveCell | apply Frm.ite | apply Frm.foldl | apply Frm.foldl2 | apply Frm.foldl3 | fail_if_no_progress apply Frm.rest) | dsimp only | split

theorem frm_markFence {fm : Nat} {r0 : State} {ps : List Nat} {s : State} (hk : Frm fm r0 s) :
    Frm fm r0 (markFence ps s) := by
  unfold markFence
  repeat' first | intro _ | (with_reducible first | assumption | apply frm_markFlag | apply Frm.ite | apply Frm.foldl | apply Frm.foldl2 | apply Frm.foldl3 | fail_if_no_progress apply Frm.rest) | dsimp only | split

theorem frm_fenceBank {fm : Nat} {r0 : State} {b : Nat} {s : State} (hk : Frm fm r0 s) :
    Frm fm r0 (fenceBank b s) := by
  unfold fenceBank
  repeat' first | intro _ | (with_reducible first | assumption | apply frm_setBank | apply Frm.ite | fail_if_no_progress apply Frm.rest | apply Frm.memLost (c := Mem.clear_bytes _ _ _)) | dsimp only | split

theorem frm_readmitBank {fm : Nat} {r0 : State} {b : Nat} {s : State} (hk : Frm fm r0 s) :
    Frm fm r0 (readmitBank b s) := by
  unfold readmitBank
  repeat' first | intro _ | (with_reducible first | assumption | apply frm_setBank | apply Frm.ite | fail_if_no_progress apply Frm.rest) | dsimp only | split

theorem frm_fenceChan {fm : Nat} {r0 : State} {c : Nat} {s : State} (hk : Frm fm r0 s) :
    Frm fm r0 (fenceChan c s) := by
  unfold fenceChan
  repeat' first | intro _ | (with_reducible first | assumption | apply frm_setChan | apply Frm.ite | fail_if_no_progress apply Frm.rest | apply Frm.memLost (c := Mem.clear_bytes _ _ _)) | dsimp only | split

theorem frm_readmitChan {fm : Nat} {r0 : State} {c : Nat} {s : State} (hk : Frm fm r0 s) :
    Frm fm r0 (readmitChan c s) := by
  unfold readmitChan
  repeat' first | intro _ | (with_reducible first | assumption | apply frm_setChan | apply frm_setStack | apply frm_setDomain | apply Frm.ite | fail_if_no_progress apply Frm.rest) | dsimp only | split

theorem frm_fenceStack {fm : Nat} {r0 : State} {m : Nat} {s : State} (hk : Frm fm r0 s) :
    Frm fm r0 (fenceStack m s) := by
  unfold fenceStack
  repeat' first | intro _ | (with_reducible first | assumption | apply frm_setStack | apply frm_setDomain | apply frm_fenceChan | apply Frm.ite | apply Frm.foldl | apply Frm.foldl2 | apply Frm.foldl3 | fail_if_no_progress apply Frm.rest) | dsimp only | split

theorem frm_fenceXfe {fm : Nat} {r0 : State} {e : Nat} {s : State} (hk : Frm fm r0 s) :
    Frm fm r0 (fenceXfe e s) := by
  unfold fenceXfe
  repeat' first | intro _ | (with_reducible first | assumption | apply frm_setXfe | apply Frm.ite | fail_if_no_progress apply Frm.rest) | dsimp only | split

theorem frm_readmitXfe {fm : Nat} {r0 : State} {e : Nat} {s : State} (hk : Frm fm r0 s) :
    Frm fm r0 (readmitXfe e s) := by
  unfold readmitXfe
  repeat' first | intro _ | (with_reducible first | assumption | apply frm_setXfe | apply Frm.ite | fail_if_no_progress apply Frm.rest) | dsimp only | split

theorem frm_fenceCunit {fm : Nat} {r0 : State} {c : Nat} {s : State} (hk : Frm fm r0 s) :
    Frm fm r0 (fenceCunit c s) := by
  unfold fenceCunit
  repeat' first | intro _ | (with_reducible first | assumption | apply frm_setCunit | apply Frm.ite | fail_if_no_progress apply Frm.rest) | dsimp only | split

theorem frm_readmitCunit {fm : Nat} {r0 : State} {c : Nat} {s : State} (hk : Frm fm r0 s) :
    Frm fm r0 (readmitCunit c s) := by
  unfold readmitCunit
  repeat' first | intro _ | (with_reducible first | assumption | apply frm_setCunit | apply Frm.ite | fail_if_no_progress apply Frm.rest) | dsimp only | split

theorem frm_fencePort {fm : Nat} {r0 : State} {n : Nat} {peer : Bool} {s : State} (hk : Frm fm r0 s) :
    Frm fm r0 (fencePort n peer s) := by
  unfold fencePort
  repeat' first | intro _ | (with_reducible first | assumption | apply frm_setPort | apply frm_traceAt | apply Frm.ite | fail_if_no_progress apply Frm.rest) | dsimp only | split

theorem frm_readmitPort {fm : Nat} {r0 : State} {n : Nat} {s : State} (hk : Frm fm r0 s) :
    Frm fm r0 (readmitPort n s) := by
  unfold readmitPort
  repeat' first | intro _ | (with_reducible first | assumption | apply frm_setPort | apply frm_traceAt | apply Frm.ite | fail_if_no_progress apply Frm.rest) | dsimp only | split

theorem frm_coreOff {fm : Nat} {r0 : State} {k : Nat} {s : State} (hk : Frm fm r0 s) :
    Frm fm r0 (coreOff k s) := by
  unfold coreOff
  repeat' first | intro _ | (with_reducible first | assumption | apply frm_modSite | apply frm_setDomain | apply Frm.ite | fail_if_no_progress apply Frm.rest) | dsimp only | split

theorem frm_offSite {fm : Nat} {r0 : State} {n : Nat} {s : State} (hk : Frm fm r0 s) :
    Frm fm r0 (offSite n s) := by
  unfold offSite
  repeat' first | intro _ | (with_reducible first | assumption | apply frm_modSite | apply frm_setDomain | apply frm_coreOff | apply Frm.ite | apply Frm.foldl | apply Frm.foldl2 | apply Frm.foldl3 | fail_if_no_progress apply Frm.rest) | dsimp only | split

theorem frm_failOuts {fm : Nat} {r0 : State} {n : Nat} {s : State} (hk : Frm fm r0 s) :
    Frm fm r0 (failOuts n s) := by
  unfold failOuts
  repeat' first | intro _ | (with_reducible first | assumption | apply frm_modSite | apply Frm.ite | fail_if_no_progress apply Frm.rest) | dsimp only | split

theorem frm_fenceSite {fm : Nat} {r0 : State} {n : Nat} {why : SReason} {flush : Bool} {s : State} (hk : Frm fm r0 s) :
    Frm fm r0 (fenceSite n why flush s) := by
  unfold fenceSite
  repeat' first | intro _ | (with_reducible first | assumption | apply frm_modSite | apply frm_traceAt | apply frm_flushSite | apply frm_offSite | apply frm_failOuts | apply Frm.ite | apply Frm.foldl | apply Frm.foldl2 | apply Frm.foldl3 | fail_if_no_progress apply Frm.rest) | dsimp only | split

theorem frm_requestXfeFence {fm : Nat} {r0 : State} {e : Nat} {s : State} (hk : Frm fm r0 s) :
    Frm fm r0 (requestXfeFence e s) := by
  unfold requestXfeFence
  repeat' first | intro _ | (with_reducible first | assumption | apply frm_setXfe | apply frm_fenceXfe | apply Frm.ite | fail_if_no_progress apply Frm.rest) | dsimp only | split

theorem frm_requestXfeReadmit {fm : Nat} {r0 : State} {e : Nat} {s : State} (hk : Frm fm r0 s) :
    Frm fm r0 (requestXfeReadmit e s) := by
  unfold requestXfeReadmit
  repeat' first | intro _ | (with_reducible first | assumption | apply frm_setXfe | apply frm_readmitXfe | apply Frm.ite | fail_if_no_progress apply Frm.rest) | dsimp only | split

theorem frm_requestCunitFence {fm : Nat} {r0 : State} {c : Nat} {s : State} (hk : Frm fm r0 s) :
    Frm fm r0 (requestCunitFence c s) := by
  unfold requestCunitFence
  repeat' first | intro _ | (with_reducible first | assumption | apply frm_setCunit | apply frm_fenceCunit | apply Frm.ite | fail_if_no_progress apply Frm.rest) | dsimp only | split

theorem frm_requestCunitReadmit {fm : Nat} {r0 : State} {c : Nat} {s : State} (hk : Frm fm r0 s) :
    Frm fm r0 (requestCunitReadmit c s) := by
  unfold requestCunitReadmit
  repeat' first | intro _ | (with_reducible first | assumption | apply frm_setCunit | apply frm_readmitCunit | apply Frm.ite | fail_if_no_progress apply Frm.rest) | dsimp only | split

theorem frm_requestBankFence {fm : Nat} {r0 : State} {b : Nat} {s : State} (hk : Frm fm r0 s) :
    Frm fm r0 (requestBankFence b s) := by
  unfold requestBankFence
  repeat' first | intro _ | (with_reducible first | assumption | apply frm_setBank | apply frm_fenceBank | apply Frm.ite | fail_if_no_progress apply Frm.rest) | dsimp only | split

theorem frm_requestBankReadmit {fm : Nat} {r0 : State} {b : Nat} {s : State} (hk : Frm fm r0 s) :
    Frm fm r0 (requestBankReadmit b s) := by
  unfold requestBankReadmit
  repeat' first | intro _ | (with_reducible first | assumption | apply frm_setBank | apply frm_readmitBank | apply Frm.ite | fail_if_no_progress apply Frm.rest) | dsimp only | split

theorem frm_requestChanFence {fm : Nat} {r0 : State} {c : Nat} {s : State} (hk : Frm fm r0 s) :
    Frm fm r0 (requestChanFence c s) := by
  unfold requestChanFence
  repeat' first | intro _ | (with_reducible first | assumption | apply frm_setChan | apply frm_fenceChan | apply Frm.ite | fail_if_no_progress apply Frm.rest) | dsimp only | split

theorem frm_requestChanReadmit {fm : Nat} {r0 : State} {c : Nat} {s : State} (hk : Frm fm r0 s) :
    Frm fm r0 (requestChanReadmit c s) := by
  unfold requestChanReadmit
  repeat' first | intro _ | (with_reducible first | assumption | apply frm_setChan | apply frm_setStack | apply frm_readmitChan | apply Frm.ite | fail_if_no_progress apply Frm.rest) | dsimp only | split

theorem frm_requestPortFence {fm : Nat} {r0 : State} {n : Nat} {s : State} (hk : Frm fm r0 s) :
    Frm fm r0 (requestPortFence n s) := by
  unfold requestPortFence
  repeat' first | intro _ | (with_reducible first | assumption | apply frm_setPort | apply frm_fencePort | apply Frm.ite | fail_if_no_progress apply Frm.rest) | dsimp only | split

theorem frm_requestPortReadmit {fm : Nat} {r0 : State} {n : Nat} {s : State} (hk : Frm fm r0 s) :
    Frm fm r0 (requestPortReadmit n s) := by
  unfold requestPortReadmit
  repeat' first | intro _ | (with_reducible first | assumption | apply frm_setPort | apply frm_readmitPort | apply Frm.ite | fail_if_no_progress apply Frm.rest) | dsimp only | split

theorem frm_requestSiteFence {fm : Nat} {r0 : State} {n : Nat} {why : SReason} {s : State} (hk : Frm fm r0 s) :
    Frm fm r0 (requestSiteFence n why s) := by
  unfold requestSiteFence
  repeat' first | intro _ | (with_reducible first | assumption | apply frm_setSite | apply frm_fenceSite | apply Frm.ite | fail_if_no_progress apply Frm.rest) | dsimp only | split

theorem frm_requestColFence {fm : Nat} {r0 : State} {k : Nat} {s : State} (hk : Frm fm r0 s) :
    Frm fm r0 (requestColFence k s) := by
  unfold requestColFence
  repeat' first | intro _ | (with_reducible first | assumption | apply frm_setCol | apply frm_fenceCol | apply Frm.ite | fail_if_no_progress apply Frm.rest) | dsimp only | split

theorem frm_requestColRemap {fm : Nat} {r0 : State} {k row : Nat} {s : State} (hk : Frm fm r0 s) :
    Frm fm r0 (requestColRemap k row s) := by
  unfold requestColRemap
  repeat' first | intro _ | (with_reducible first | assumption | apply frm_setCol | apply frm_remapCol | apply Frm.ite | fail_if_no_progress apply Frm.rest) | dsimp only | split

theorem frm_proofCols {fm : Nat} {r0 : State} {p : Nat} {s : State} (hk : Frm fm r0 s) :
    Frm fm r0 (proofCols p s) := by
  unfold proofCols
  repeat' first | intro _ | (with_reducible first | assumption | apply frm_markFlag | apply frm_fenceCol | apply frm_remapCol | apply Frm.ite | apply Frm.foldl | apply Frm.foldl2 | apply Frm.foldl3 | fail_if_no_progress apply Frm.rest) | dsimp only | split

theorem frm_proofUnits {fm : Nat} {r0 : State} {p : Nat} {s : State} (hk : Frm fm r0 s) :
    Frm fm r0 (proofUnits p s) := by
  unfold proofUnits
  repeat' first | intro _ | (with_reducible first | assumption | apply frm_setStack | apply frm_markFlag | apply frm_fenceBank | apply frm_readmitBank | apply frm_fenceChan | apply frm_readmitChan | apply frm_fenceXfe | apply frm_readmitXfe | apply frm_fenceCunit | apply frm_readmitCunit | apply Frm.ite | apply Frm.foldl | apply Frm.foldl2 | apply Frm.foldl3 | fail_if_no_progress apply Frm.rest) | dsimp only | split

theorem frm_proofPorts {fm : Nat} {r0 : State} {p : Nat} {s : State} (hk : Frm fm r0 s) :
    Frm fm r0 (proofPorts p s) := by
  unfold proofPorts
  repeat' first | intro _ | (with_reducible first | assumption | apply frm_setPort | apply frm_markFence | apply frm_fencePort | apply frm_readmitPort | apply Frm.ite | apply Frm.foldl | apply Frm.foldl2 | apply Frm.foldl3 | fail_if_no_progress apply Frm.rest) | dsimp only | split

theorem frm_proofSitesApply {fm : Nat} {r0 : State} {p : Nat} {s : State} (hk : Frm fm r0 s) :
    Frm fm r0 (proofSitesApply p s) := by
  unfold proofSitesApply
  repeat' first | intro _ | (with_reducible first | assumption | apply frm_modSite | apply frm_setDomain | apply frm_markFlag | apply frm_offSite | apply frm_fenceSite | apply Frm.ite | apply Frm.foldl | apply Frm.foldl2 | apply Frm.foldl3 | fail_if_no_progress apply Frm.rest) | dsimp only | split

theorem frm_applyProof {fm : Nat} {r0 : State} {p : Nat} {s : State} (hk : Frm fm r0 s) :
    Frm fm r0 (applyProof p s) := by
  unfold applyProof
  repeat' first | intro _ | (with_reducible first | assumption | apply frm_proofCols | apply frm_proofUnits | apply frm_proofPorts | apply frm_proofSitesApply | apply Frm.ite | fail_if_no_progress apply Frm.rest) | dsimp only | split

theorem frm_settleArmed {fm : Nat} {r0 : State} {p : Nat} {s : State} (hk : Frm fm r0 s) :
    Frm fm r0 (settleArmed p s) := by
  unfold settleArmed
  repeat' first | intro _ | (with_reducible first | assumption | apply frm_modPart | apply frm_applyProof | apply Frm.ite | fail_if_no_progress apply Frm.rest) | dsimp only | split

end Sys2Proof.Laws
end

