-- ==== Sys2Proof/Laws/FrameFlags.lean ====
section
/-! SUPPORT. What the operations of `Machine/Flags.lean` leave alone: one lemma each. -/
namespace Sys2Proof.Laws
open Sys2Proof Sys2Proof.Machine Sys2Proof.Safety
set_option linter.unreachableTactic false
set_option linter.unusedTactic false

theorem frm_refreshPin {fm : Nat} {r0 : State} {s : State} (hk : Frm fm r0 s) :
    Frm fm r0 (refreshPin s) := by
  unfold refreshPin
  repeat' first | intro _ | (with_reducible first | assumption | apply frm_emit | apply Frm.ite | fail_if_no_progress apply Frm.rest) | dsimp only | split

theorem frm_refreshInt {fm : Nat} {r0 : State} {s : State} (hk : Frm fm r0 s) :
    Frm fm r0 (refreshInt s) := by
  unfold refreshInt
  repeat' first | intro _ | (with_reducible first | assumption | apply frm_emit | apply Frm.ite | fail_if_no_progress apply Frm.rest) | dsimp only | split

theorem frm_refresh {fm : Nat} {r0 : State} {s : State} (hk : Frm fm r0 s) :
    Frm fm r0 (refresh s) := by
  unfold refresh
  repeat' first | intro _ | (with_reducible first | assumption | apply frm_refreshPin | apply frm_refreshInt | apply Frm.ite | fail_if_no_progress apply Frm.rest) | dsimp only | split

theorem frm_holdEntry {fm : Nat} {r0 : State} {v tag : Nat} {st : Status} {detail : Nat} {s : State} (hk : Frm fm r0 s) :
    Frm fm r0 (holdEntry v tag st detail s) := by
  unfold holdEntry
  repeat' first | intro _ | (with_reducible first | assumption | apply frm_setVi | apply Frm.ite | fail_if_no_progress apply Frm.rest) | dsimp only | split

theorem frm_endSource {fm : Nat} {r0 : State} {src : XSource} {st : Status} {detail : Nat} {s : State} (hk : Frm fm r0 s) :
    Frm fm r0 (endSource src st detail s) := by
  unfold endSource
  repeat' first | intro _ | (with_reducible first | assumption | apply frm_holdEntry | apply Frm.ite | fail_if_no_progress apply Frm.rest) | dsimp only | split

theorem frm_stopXfe {fm : Nat} {r0 : State} {e : Nat} {s : State} (hk : Frm fm r0 s) :
    Frm fm r0 (stopXfe e s) := by
  unfold stopXfe
  repeat' first | intro _ | (with_reducible first | assumption | apply frm_setXfe | apply frm_endSource | apply Frm.ite | apply Frm.foldl | apply Frm.foldl2 | apply Frm.foldl3 | fail_if_no_progress apply Frm.rest) | dsimp only | split

theorem frm_stopCunit {fm : Nat} {r0 : State} {c : Nat} {s : State} (hk : Frm fm r0 s) :
    Frm fm r0 (stopCunit c s) := by
  unfold stopCunit
  repeat' first | intro _ | (with_reducible first | assumption | apply frm_setCunit | apply frm_sendAborts | apply Frm.ite | fail_if_no_progress apply Frm.rest) | dsimp only | split

theorem frm_dropSlots {fm : Nat} {r0 : State} {p : Nat} {s : State} (hk : Frm fm r0 s) :
    Frm fm r0 (dropSlots p s) := by
  unfold dropSlots
  repeat' first | intro _ | (with_reducible first | assumption | apply frm_setPort | apply frm_sendCredit | apply Frm.ite | apply Frm.foldl | apply Frm.foldl2 | apply Frm.foldl3 | fail_if_no_progress apply Frm.rest) | dsimp only | split

theorem frm_askZero {fm : Nat} {r0 : State} {gs : List Nat} {s : State} (hk : Frm fm r0 s) :
    Frm fm r0 (askZero gs s) := by
  unfold askZero
  repeat' first | intro _ | (with_reducible first | assumption | apply Frm.ite | fail_if_no_progress apply Frm.rest) | dsimp only | split

theorem frm_zeroCols {fm : Nat} {r0 : State} {p : Nat} {s : State} (hk : Frm fm r0 s) :
    Frm fm r0 (zeroCols p s) := by
  unfold zeroCols
  repeat' first | intro _ | (with_reducible first | assumption | apply frm_zeroCell | apply Frm.ite | apply Frm.foldl | apply Frm.foldl2 | apply Frm.foldl3 | fail_if_no_progress apply Frm.rest) | dsimp only | split

theorem frm_endSession {fm : Nat} {r0 : State} {v reason : Nat} {s : State} (hk : Frm fm r0 s) :
    Frm fm r0 (endSession v reason s) := by
  unfold endSession
  repeat' first | intro _ | (with_reducible first | assumption | apply frm_modVi | apply frm_setSeal | apply frm_askZero | apply frm_zeroCols | apply Frm.ite | fail_if_no_progress apply Frm.rest) | dsimp only | split

theorem frm_dropHeld {fm : Nat} {r0 : State} {p : Nat} {s : State} (hk : Frm fm r0 s) :
    Frm fm r0 (dropHeld p s) := by
  unfold dropHeld
  repeat' first | intro _ | (with_reducible first | assumption | apply frm_geljaTo | apply Frm.ite | apply Frm.foldl | apply Frm.foldl2 | apply Frm.foldl3 | fail_if_no_progress apply Frm.rest) | dsimp only | split

theorem frm_stopPartition {fm : Nat} {r0 : State} {p : Nat} {s : State} (hk : Frm fm r0 s) :
    Frm fm r0 (stopPartition p s) := by
  unfold stopPartition
  repeat' first | intro _ | (with_reducible first | assumption | apply frm_emit | apply frm_modPart | apply frm_modSite | apply frm_setPState | apply frm_settleArmed | apply frm_stopXfe | apply frm_stopCunit | apply frm_dropSlots | apply frm_endSession | apply frm_dropHeld | apply Frm.ite | apply Frm.foldl | apply Frm.foldl2 | apply Frm.foldl3 | fail_if_no_progress apply Frm.rest) | dsimp only | split

theorem frm_domainsOff {fm : Nat} {r0 : State} {s : State} (hk : Frm fm r0 s) :
    Frm fm r0 (domainsOff s) := by
  unfold domainsOff
  exact hk.memLost (List.nil_sublist _)

theorem frm_breakAll {fm : Nat} {r0 : State} {s : State} (hk : Frm fm r0 s) :
    Frm fm r0 (breakAll s) := by
  unfold breakAll
  repeat' first | intro _ | (with_reducible first | assumption | apply frm_sendToken | apply Frm.ite | apply Frm.foldl | apply Frm.foldl2 | apply Frm.foldl3 | fail_if_no_progress apply Frm.rest) | dsimp only | split

theorem frm_dropPeel {fm : Nat} {r0 : State} {s : State} (hk : Frm fm r0 s) :
    Frm fm r0 (dropPeel s) := by
  unfold dropPeel
  repeat' first | intro _ | (with_reducible first | assumption | apply Frm.ite | fail_if_no_progress apply Frm.rest) | dsimp only | split

theorem frm_stopPackage {fm : Nat} {r0 : State} {cause group bit : Nat} {s : State} (hk : Frm fm r0 s) :
    Frm fm r0 (stopPackage cause group bit s) := by
  unfold stopPackage
  repeat' first | intro _ | (with_reducible first | assumption | apply frm_setGrp | apply frm_stopPartition | apply frm_domainsOff | apply frm_breakAll | apply frm_dropPeel | apply Frm.ite | apply Frm.foldl | apply Frm.foldl2 | apply Frm.foldl3 | fail_if_no_progress apply Frm.rest) | dsimp only | split

theorem frm_holdForFault {fm : Nat} {r0 : State} {p : Nat} {s : State} (hk : Frm fm r0 s) :
    Frm fm r0 (holdForFault p s) := by
  unfold holdForFault
  repeat' first | intro _ | (with_reducible first | assumption | apply frm_modPart | apply frm_setPState | apply frm_settleArmed | apply Frm.ite | fail_if_no_progress apply Frm.rest) | dsimp only | split

theorem frm_requestRepair {fm : Nat} {r0 : State} {pa : Nat} {s : State} (hk : Frm fm r0 s) :
    Frm fm r0 (requestRepair pa s) := by
  unfold requestRepair
  repeat' first | intro _ | (with_reducible first | assumption | apply Frm.ite | fail_if_no_progress apply Frm.rest) | dsimp only | split

theorem frm_syncColumn {fm : Nat} {r0 : State} {k : Nat} {s : State} (hk : Frm fm r0 s) :
    Frm fm r0 (syncColumn k s) := by
  unfold syncColumn
  repeat' first | intro _ | (with_reducible first | assumption | apply frm_setCell | apply Frm.ite | apply Frm.foldl | apply Frm.foldl2 | apply Frm.foldl3 | fail_if_no_progress apply Frm.rest) | dsimp only | split

theorem frm_killCell {fm : Nat} {r0 : State} {n : Nat} {s : State} (hk : Frm fm r0 s) :
    Frm fm r0 (killCell n s) := by
  unfold killCell
  repeat' first | intro _ | (with_reducible first | assumption | apply frm_setCell | apply frm_syncColumn | apply Frm.ite | fail_if_no_progress apply Frm.rest) | dsimp only | split

theorem frm_addFinding {fm : Nat} {r0 : State} {d : BitVec 32} {s : State} (hk : Frm fm r0 s) :
    Frm fm r0 (addFinding d s) := by
  unfold addFinding
  repeat' first | intro _ | (with_reducible first | assumption | apply Frm.ite | fail_if_no_progress apply Frm.rest) | dsimp only | split

theorem frm_fenceUnit {fm : Nat} {r0 : State} {g bit unit : Nat} {s : State} (hk : Frm fm r0 s) :
    Frm fm r0 (fenceUnit g bit unit s) := by
  unfold fenceUnit
  repeat' first | intro _ | (with_reducible first | assumption | apply frm_setCol | apply frm_requestXfeFence | apply frm_requestCunitFence | apply frm_requestChanFence | apply frm_requestPortFence | apply frm_requestSiteFence | apply frm_requestColFence | apply frm_requestColRemap | apply frm_requestRepair | apply frm_killCell | apply frm_addFinding | apply Frm.ite | fail_if_no_progress apply Frm.rest) | dsimp only | split

theorem frm_performAction {fm : Nat} {r0 : State} {g : Nat} {units : List (Nat × Nat)} {s : State} (hk : Frm fm r0 s) :
    Frm fm r0 (performAction g units s) := by
  unfold performAction
  repeat' first | intro _ | (with_reducible first | assumption | apply frm_holdForFault | apply frm_fenceUnit | apply Frm.ite | apply Frm.foldl | apply Frm.foldl2 | apply Frm.foldl3 | fail_if_no_progress apply Frm.rest) | dsimp only | split

theorem frm_settleGroup {fm : Nat} {r0 : State} {g : Nat} {s : State} (hk : Frm fm r0 s) :
    Frm fm r0 (settleGroup g s) := by
  unfold settleGroup
  repeat' first | intro _ | (with_reducible first | assumption | apply frm_setGrp | apply Frm.ite | fail_if_no_progress apply Frm.rest) | dsimp only | split

theorem frm_escalateOnce {fm : Nat} {r0 : State} {g : Nat} {s : State} (hk : Frm fm r0 s) :
    Frm fm r0 (escalateOnce g s).2 := by
  unfold escalateOnce
  repeat' first | intro _ | (with_reducible first | assumption | apply frm_setGrp | apply frm_performAction | apply Frm.ite | fail_if_no_progress apply Frm.rest) | dsimp only | split

theorem frm_detectN {fm : Nat} {r0 : State} : ∀ (a0 : Nat) {a1 : Nat} {a2 : Nat} {a3 : Nat} {a4 : State}, Frm fm r0 a4 → Frm fm r0 (detectN a0 a1 a2 a3 a4) := by
  intro a0
  induction a0 with
  | zero =>
    intros
    unfold detectN
    repeat' first | intro _ | (with_reducible first | assumption | apply frm_emit | apply frm_setGrp | apply frm_stopPackage | apply frm_escalateOnce | apply Frm.ite | fail_if_no_progress apply Frm.rest) | dsimp only | split
  | succ _ ih =>
    intros
    unfold detectN
    repeat' first | intro _ | (with_reducible first | assumption | apply ih | apply frm_emit | apply frm_setGrp | apply frm_stopPackage | apply frm_escalateOnce | apply Frm.ite | fail_if_no_progress apply Frm.rest) | dsimp only | split

theorem frm_raise {fm : Nat} {r0 : State} {g bit unit : Nat} {s : State} (hk : Frm fm r0 s) :
    Frm fm r0 (raise g bit unit s) := by
  unfold raise
  repeat' first | intro _ | (with_reducible first | assumption | apply frm_refresh | apply frm_detectN | apply Frm.ite | fail_if_no_progress apply Frm.rest) | dsimp only | split

theorem frm_raiseAll {fm : Nat} {r0 : State} {fs : List (Nat × Nat × Nat)} {s : State} (hk : Frm fm r0 s) :
    Frm fm r0 (raiseAll fs s) := by
  unfold raiseAll
  repeat' first | intro _ | (with_reducible first | assumption | apply frm_raise | apply Frm.ite | apply Frm.foldl | apply Frm.foldl2 | apply Frm.foldl3 | fail_if_no_progress apply Frm.rest) | dsimp only | split

theorem frm_refuseWrite {fm : Nat} {r0 : State} {g unit : Nat} {s : State} (hk : Frm fm r0 s) :
    Frm fm r0 (refuseWrite g s unit) := by
  unfold refuseWrite
  repeat' first | intro _ | (with_reducible first | assumption | apply frm_raise | apply Frm.ite | fail_if_no_progress apply Frm.rest) | dsimp only | split

theorem frm_tripPackage {fm : Nat} {r0 : State} {s : State} (hk : Frm fm r0 s) :
    Frm fm r0 (tripPackage s) := by
  unfold tripPackage
  repeat' first | intro _ | (with_reducible first | assumption | apply frm_refresh | apply frm_stopPackage | apply frm_detectN | apply Frm.ite | fail_if_no_progress apply Frm.rest) | dsimp only | split

theorem frm_ackBits {fm : Nat} {r0 : State} {g : Nat} {v : Word} {s : State} (hk : Frm fm r0 s) :
    Frm fm r0 (ackBits g v s) := by
  unfold ackBits
  repeat' first | intro _ | (with_reducible first | assumption | apply frm_setGrp | apply frm_refresh | apply frm_settleGroup | apply Frm.ite | fail_if_no_progress apply Frm.rest) | dsimp only | split

theorem frm_clearBits {fm : Nat} {r0 : State} {g : Nat} {v : Word} {s : State} (hk : Frm fm r0 s) :
    Frm fm r0 (clearBits g v s) := by
  unfold clearBits
  repeat' first | intro _ | (with_reducible first | assumption | apply frm_setGrp | apply frm_ackBits | apply Frm.ite | fail_if_no_progress apply Frm.rest) | dsimp only | split

theorem frm_fireInject {fm : Nat} {r0 : State} {g bit : Nat} {corrects : Bool} {s : State} (hk : Frm fm r0 s) :
    Frm fm r0 (fireInject g bit corrects s).2 := by
  unfold fireInject
  repeat' first | intro _ | (with_reducible first | assumption | apply frm_setGrp | apply Frm.ite | fail_if_no_progress apply Frm.rest) | dsimp only | split

theorem frm_checkEcc {fm : Nat} {r0 : State} {g bit : Nat} {corrects : Bool} {e : Ecc} {s : State} (hk : Frm fm r0 s) :
    Frm fm r0 (checkEcc g bit corrects e s).2 := by
  unfold checkEcc
  repeat' first | intro _ | (with_reducible first | assumption | apply frm_fireInject | apply Frm.ite | apply Frm.snd (by assumption) | fail_if_no_progress apply Frm.rest) | dsimp only | split

end Sys2Proof.Laws
end

