-- ==== Sys2Proof/Laws/FrameQosOps.lean ====
section
/-! SUPPORT. What the operations of `Machine/QosOps.lean` leave alone: one lemma each. -/
namespace Sys2Proof.Laws
open Sys2Proof Sys2Proof.Machine Sys2Proof.Safety
set_option linter.unreachableTactic false
set_option linter.unusedTactic false

theorem frm_takeTokens {fm : Nat} {r0 : State} {port part n : Nat} {s : State} (hk : Frm fm r0 s) :
    FrmO fm r0 (takeTokens port part n s) := by
  unfold takeTokens
  repeat' first | intro _ | (with_reducible first | assumption | apply frm_setQport | apply Frm.ite | apply FrmO.none | apply FrmO.some | apply FrmO.ite | fail_if_no_progress apply Frm.rest) | dsimp only | split

theorem frm_issueReq {fm : Nat} {r0 : State} {r : Req} {s : State} (hk : Frm fm r0 s) :
    Frm fm r0 (issueReq r s).2 := by
  unfold issueReq
  repeat' first | intro _ | (with_reducible first | assumption | apply frm_raise | apply frm_takeTokens | apply Frm.ite | apply Frm.opt (by assumption) | apply FrmO.none | apply FrmO.some | apply FrmO.ite | fail_if_no_progress apply Frm.rest) | dsimp only | split

theorem frm_leavePort {fm : Nat} {r0 : State} {r : Req} {s : State} (hk : Frm fm r0 s) :
    FrmO fm r0 (leavePort r s) := by
  unfold leavePort
  repeat' first | intro _ | (with_reducible first | assumption | apply frm_setQport | apply frm_takeTokens | apply Frm.ite | apply Frm.opt (by assumption) | apply FrmO.none | apply FrmO.some | apply FrmO.ite | apply FrmO.map | fail_if_no_progress apply Frm.rest) | dsimp only | split

theorem frm_hostWriteNow {fm : Nat} {r0 : State} {port part : Nat} {sched : Bool} {len : Nat} {s : State} (hk : Frm fm r0 s) :
    FrmO fm r0 (hostWriteNow port part sched len s) := by
  unfold hostWriteNow
  repeat' first | intro _ | (with_reducible first | assumption | apply frm_takeTokens | apply Frm.ite | apply Frm.opt (by assumption) | apply FrmO.none | apply FrmO.some | apply FrmO.ite | fail_if_no_progress apply Frm.rest) | dsimp only | split

theorem frm_countMiss {fm : Nat} {r0 : State} {p : Nat} {s : State} (hk : Frm fm r0 s) :
    Frm fm r0 (countMiss p s) := by
  unfold countMiss
  repeat' first | intro _ | (with_reducible first | assumption | apply frm_setQpart | apply frm_raise | apply Frm.ite | fail_if_no_progress apply Frm.rest) | dsimp only | split

theorem frm_completeStats {fm : Nat} {r0 : State} {r : Req} {s : State} (hk : Frm fm r0 s) :
    Frm fm r0 (completeStats r s) := by
  unfold completeStats
  repeat' first | intro _ | (with_reducible first | assumption | apply frm_setQport | apply frm_raise | apply frm_countMiss | apply Frm.ite | fail_if_no_progress apply Frm.rest) | dsimp only | split

theorem frm_countAccess {fm : Nat} {r0 : State} {unit len : Nat} {write : Bool} {s : State} (hk : Frm fm r0 s) :
    Frm fm r0 (countAccess unit len write s) := by
  unfold countAccess
  repeat' first | intro _ | (with_reducible first | assumption | apply frm_completeStats | apply Frm.ite | fail_if_no_progress apply Frm.rest) | dsimp only | split

theorem frm_putQosValues {fm : Nat} {r0 : State} {n p : Nat} {v : Nat × Nat × Nat × Nat × Nat × Nat} {s : State} (hk : Frm fm r0 s) :
    Frm fm r0 (putQosValues n p v s) := by
  unfold putQosValues
  repeat' first | intro _ | (with_reducible first | assumption | apply frm_setQport | apply Frm.ite | fail_if_no_progress apply Frm.rest) | dsimp only | split

theorem frm_putMiss {fm : Nat} {r0 : State} {p thresh window : Nat} {s : State} (hk : Frm fm r0 s) :
    Frm fm r0 (putMiss p thresh window s) := by
  unfold putMiss
  repeat' first | intro _ | (with_reducible first | assumption | apply frm_setQpart | apply Frm.ite | fail_if_no_progress apply Frm.rest) | dsimp only | split

theorem frm_qosRelease {fm : Nat} {r0 : State} {p : Nat} {fromStopped : Bool} {s : State} (hk : Frm fm r0 s) :
    Frm fm r0 (qosRelease p fromStopped s) := by
  unfold qosRelease
  repeat' first | intro _ | (with_reducible first | assumption | apply frm_setQpart | apply Frm.ite | fail_if_no_progress apply Frm.rest) | dsimp only | split

end Sys2Proof.Laws
end

