-- ==== Sys2Proof/Laws/FrameAccess.lean ====
section
/-! SUPPORT. What the operations of `Machine/Access.lean` leave alone: one lemma each. -/
namespace Sys2Proof.Laws
open Sys2Proof Sys2Proof.Machine Sys2Proof.Safety
set_option linter.unreachableTactic false
set_option linter.unusedTactic false

theorem frm_countCe {fm : Nat} {r0 : State} {g : Nat} {s : State} (hk : Frm fm r0 s) :
    Frm fm r0 (countCe g s) := by
  unfold countCe
  repeat' first | intro _ | (with_reducible first | assumption | apply frm_setBank | apply frm_setChan | apply Frm.ite | fail_if_no_progress apply Frm.rest) | dsimp only | split

theorem frm_strikeUe {fm : Nat} {r0 : State} {g pa : Nat} {s : State} (hk : Frm fm r0 s) :
    Frm fm r0 (strikeUe g pa s) := by
  unfold strikeUe
  repeat' first | intro _ | (with_reducible first | assumption | apply frm_setChan | apply frm_raise | apply Frm.ite | fail_if_no_progress apply Frm.rest | apply Frm.memLost (c := Mem.mark_bytes _ _ _)) | dsimp only | split

theorem frm_targetRead {fm : Nat} {r0 : State} {g pa len : Nat} {e : Ecc} {s : State} (hk : Frm fm r0 s) :
    Frm fm r0 (targetRead g pa len e s).2.2 := by
  unfold targetRead
  repeat' first | intro _ | (with_reducible first | assumption | apply frm_checkEcc | apply frm_countCe | apply frm_strikeUe | apply Frm.ite | apply Frm.snd (by assumption) | fail_if_no_progress apply Frm.rest) | dsimp only | split

theorem frm_freeBytes {fm : Nat} {r0 : State} {n : Nat} {s : State} (hk : Frm fm r0 s) :
    Frm fm r0 (freeBytes n s).2 := by
  unfold freeBytes
  repeat' first | intro _ | (with_reducible first | assumption | apply frm_drawFree | apply Frm.ite | fail_if_no_progress apply Frm.rest) | dsimp only | split

theorem frm_writePiece {fm : Nat} {r0 : State} {unit ctx dva : Nat} {bs : List Byte} {poison : Bool} {s : State} (hm : Sub 1 fm) (hk : Frm fm r0 s) :
    Frm fm r0 (writePiece unit ctx dva bs poison s).2 := by
  unfold writePiece
  repeat' first | intro _ | (with_reducible first | assumption | apply frm_emit | apply frm_memPut | apply frm_noteXlat | apply frm_raise | apply frm_issueReq | apply frm_countAccess | apply Frm.ite | apply Frm.snd (by assumption) | fail_if_no_progress apply Frm.rest | exact Sub.trans (b := 1) rfl hm) | dsimp only | split

theorem frm_dvaWrite {fm : Nat} {r0 : State} {unit ctx dva : Nat} {bs : List Byte} {poison : Bool} {s : State} (hm : Sub 1 fm) (hk : Frm fm r0 s) :
    Frm fm r0 (dvaWrite unit ctx dva bs poison s).2 := by
  unfold dvaWrite
  repeat' first | intro _ | (with_reducible first | assumption | apply frm_writePiece | apply Frm.ite | apply Frm.foldl | apply Frm.foldl2 | apply Frm.foldl3 | fail_if_no_progress apply Frm.rest | exact Sub.trans (b := 1) rfl hm) | dsimp only | split

end Sys2Proof.Laws
end

