-- ==== Sys2Proof/Laws/FrameMgtOps.lean ====
section
/-! SUPPORT. What the operations of `Machine/MgtOps.lean` leave alone: one lemma each. -/
namespace Sys2Proof.Laws
open Sys2Proof Sys2Proof.Machine Sys2Proof.Safety
set_option linter.unreachableTactic false
set_option linter.unusedTactic false

theorem frm_mbEnd {fm : Nat} {r0 : State} {st : Status} {resp : List Nat} {s : State} (hm : Sub 16384 fm) (hk : Frm fm r0 s) :
    Frm fm r0 (mbEnd st resp s) := by
  unfold mbEnd
  repeat' first | intro _ | (with_reducible first | assumption | apply Frm.ite | apply Frm.foldl | apply Frm.foldl2 | apply Frm.foldl3 | fail_if_no_progress apply Frm.rest | exact Sub.trans (b := 16384) rfl hm) | dsimp only | split | (with_reducible first | apply Frm.ch14)

theorem frm_mbCommand {fm : Nat} {r0 : State} {op : Nat} {tag : BitVec 8} {run : State → State} {s : State} (hm : Sub 16384 fm) (hk : Frm fm r0 s) (krun : ∀ x, Frm fm r0 x → Frm fm r0 (run x)) :
    Frm fm r0 (mbCommand op tag run s) := by
  unfold mbCommand
  repeat' first | intro _ | (with_reducible first | assumption | apply krun | apply frm_refuseWrite | apply frm_mbEnd | apply Frm.ite | fail_if_no_progress apply Frm.rest | exact Sub.trans (b := 16384) rfl hm) | dsimp only | split | (with_reducible first | apply Frm.ch14)

theorem frm_fetchWindow {fm : Nat} {r0 : State} {iova len : Nat} {s : State} (hm : Sub 2 fm) (hk : Frm fm r0 s) :
    FrmP fm r0 (fetchWindow iova len s) := by
  unfold fetchWindow
  repeat' first | intro _ | (with_reducible first | assumption | apply frm_drawFree | apply Frm.ite | apply Frm.snd (by assumption) | apply FrmP.none | apply FrmP.some | apply FrmP.ite | fail_if_no_progress apply Frm.rest | exact Sub.trans (b := 2) rfl hm) | dsimp only | split | (with_reducible first | apply Frm.ch1)

theorem frm_dropWindow {fm : Nat} {r0 : State} {i : Option Nat} {s : State} (hm : Sub 2 fm) (hk : Frm fm r0 s) :
    Frm fm r0 (dropWindow i s) := by
  unfold dropWindow
  repeat' first | intro _ | (with_reducible first | assumption | apply Frm.ite | fail_if_no_progress apply Frm.rest | exact Sub.trans (b := 2) rfl hm) | dsimp only | split | (with_reducible first | apply Frm.ch1)

theorem frm_fetchArg {fm : Nat} {r0 : State} {iova len : Nat} {s : State} (hm : Sub 2 fm) (hk : Frm fm r0 s) :
    FrmO fm r0 (fetchArg iova len s) := by
  unfold fetchArg
  repeat' first | intro _ | (with_reducible first | assumption | apply frm_emit | apply frm_fetchWindow | apply frm_dropWindow | apply Frm.ite | apply Frm.optP (by assumption) | apply FrmO.none | apply FrmO.some | apply FrmO.ite | apply FrmP.none | apply FrmP.some | apply FrmP.ite | fail_if_no_progress apply Frm.rest | exact Sub.trans (b := 2) rfl hm) | dsimp only | split

end Sys2Proof.Laws
end

