-- ==== Sys2Proof/Laws/FrameFraming.lean ====
section
/-! SUPPORT. What the operations of `Machine/Framing.lean` leave alone: one lemma each. -/
namespace Sys2Proof.Laws
open Sys2Proof Sys2Proof.Machine Sys2Proof.Safety
set_option linter.unreachableTactic false
set_option linter.unusedTactic false

theorem frm_sendFlit {fm : Nat} {r0 : State} {n : Nat} {s : State} (hk : Frm fm r0 s) :
    Frm fm r0 (sendFlit n s) := by
  unfold sendFlit
  repeat' first | intro _ | (with_reducible first | assumption | apply frm_emit | apply frm_modSite | apply Frm.ite | fail_if_no_progress apply Frm.rest) | dsimp only | split

theorem frm_sendFlits {fm : Nat} {r0 : State} {s : State} (hk : Frm fm r0 s) :
    Frm fm r0 (sendFlits s) := by
  unfold sendFlits
  repeat' first | intro _ | (with_reducible first | assumption | apply frm_sendFlit | apply Frm.ite | apply Frm.foldl | apply Frm.foldl2 | apply Frm.foldl3 | fail_if_no_progress apply Frm.rest) | dsimp only | split

end Sys2Proof.Laws
end

