-- ==== Sys2Proof/Laws/FrameSiteOps.lean ====
section
/-! SUPPORT. What the operations of `Machine/SiteOps.lean` leave alone: one lemma each. -/
namespace Sys2Proof.Laws
open Sys2Proof Sys2Proof.Machine Sys2Proof.Safety
set_option linter.unreachableTactic false
set_option linter.unusedTactic false

theorem frm_failSite {fm : Nat} {r0 : State} {n : Nat} {why : SReason} {bit : Nat} {s : State} (hk : Frm fm r0 s) :
    Frm fm r0 (failSite n why bit s) := by
  unfold failSite
  repeat' first | intro _ | (with_reducible first | assumption | apply frm_dropSite | apply frm_offSite | apply frm_fenceSite | apply frm_raise | apply Frm.ite | fail_if_no_progress apply Frm.rest) | dsimp only | split

theorem frm_siteState {fm : Nat} {r0 : State} {n : Nat} {st : SState} {s : State} (hk : Frm fm r0 s) :
    Frm fm r0 (siteState n st s) := by
  unfold siteState
  repeat' first | intro _ | (with_reducible first | assumption | apply frm_modSite | apply frm_traceAt | apply Frm.ite | fail_if_no_progress apply Frm.rest) | dsimp only | split

theorem frm_readStraps {fm : Nat} {r0 : State} {k : Nat} {s : State} (hk : Frm fm r0 s) :
    Frm fm r0 (readStraps k s) := by
  unfold readStraps
  repeat' first | intro _ | (with_reducible first | assumption | apply frm_setSite | apply frm_failSite | apply Frm.ite | fail_if_no_progress apply Frm.rest) | dsimp only | split

theorem frm_enterRails {fm : Nat} {r0 : State} {e : Nat} {s : State} (hk : Frm fm r0 s) :
    Frm fm r0 (enterRails e s) := by
  unfold enterRails
  repeat' first | intro _ | (with_reducible first | assumption | apply frm_modSite | apply frm_setDomain | apply frm_siteState | apply frm_readStraps | apply Frm.ite | apply Frm.foldl | apply Frm.foldl2 | apply Frm.foldl3 | fail_if_no_progress apply Frm.rest) | dsimp only | split

theorem frm_startSites {fm : Nat} {r0 : State} {p : Nat} {s : State} (hk : Frm fm r0 s) :
    Frm fm r0 (startSites p s) := by
  unfold startSites
  repeat' first | intro _ | (with_reducible first | assumption | apply frm_enterRails | apply Frm.ite | apply Frm.foldl | apply Frm.foldl2 | apply Frm.foldl3 | fail_if_no_progress apply Frm.rest) | dsimp only | split

theorem frm_shortSite {fm : Nat} {r0 : State} {n : Nat} {s : State} (hk : Frm fm r0 s) :
    Frm fm r0 (shortSite n s) := by
  unfold shortSite
  repeat' first | intro _ | (with_reducible first | assumption | apply frm_markFlag | apply frm_dropSite | apply frm_offSite | apply frm_fenceSite | apply frm_raise | apply Frm.ite | fail_if_no_progress apply Frm.rest) | dsimp only | split

theorem frm_failRetrain {fm : Nat} {r0 : State} {n : Nat} {s : State} (hk : Frm fm r0 s) :
    Frm fm r0 (failRetrain n s) := by
  unfold failRetrain
  repeat' first | intro _ | (with_reducible first | assumption | apply frm_markFlag | apply frm_dropSite | apply frm_offSite | apply frm_fenceSite | apply frm_raise | apply Frm.ite | fail_if_no_progress apply Frm.rest) | dsimp only | split

theorem frm_retrainSite {fm : Nat} {r0 : State} {n : Nat} {s : State} (hk : Frm fm r0 s) :
    Frm fm r0 (retrainSite n s) := by
  unfold retrainSite
  repeat' first | intro _ | (with_reducible first | assumption | apply frm_setSite | apply frm_traceAt | apply Frm.ite | fail_if_no_progress apply Frm.rest) | dsimp only | split

theorem frm_refuseGelja {fm : Nat} {r0 : State} {n op : Nat} {m : GMsg} {status : Nat} {s : State} (hk : Frm fm r0 s) :
    Frm fm r0 (refuseGelja n op m status s) := by
  unfold refuseGelja
  repeat' first | intro _ | (with_reducible first | assumption | apply frm_geljaTo | apply frm_freeBytes | apply Frm.ite | fail_if_no_progress apply Frm.rest) | dsimp only | split

theorem frm_protocolError {fm : Nat} {r0 : State} {n op : Nat} {m : GMsg} {s : State} (hk : Frm fm r0 s) :
    Frm fm r0 (protocolError n op m s) := by
  unfold protocolError
  repeat' first | intro _ | (with_reducible first | assumption | apply frm_writeLog | apply frm_setSite | apply frm_failRetrain | apply frm_retrainSite | apply frm_refuseGelja | apply Frm.ite | fail_if_no_progress apply Frm.rest) | dsimp only | split

theorem frm_crustViolation {fm : Nat} {r0 : State} {n reason : Nat} {k : CrustClass} {ctx dva : Nat} {s : State} (hk : Frm fm r0 s) :
    Frm fm r0 (crustViolation n reason k ctx dva s) := by
  unfold crustViolation
  repeat' first | intro _ | (with_reducible first | assumption | apply frm_setSite | apply frm_traceAt | apply frm_raise | apply Frm.ite | fail_if_no_progress apply Frm.rest) | dsimp only | split

theorem frm_openTag {fm : Nat} {r0 : State} {n op : Nat} {m : GMsg} {s : State} (hk : Frm fm r0 s) :
    Frm fm r0 (openTag n op m s) := by
  unfold openTag
  repeat' first | intro _ | (with_reducible first | assumption | apply frm_modSite | apply Frm.ite | fail_if_no_progress apply Frm.rest) | dsimp only | split

theorem frm_payCredits {fm : Nat} {r0 : State} {n : Nat} {s : State} (hk : Frm fm r0 s) :
    Frm fm r0 (payCredits n s) := by
  unfold payCredits
  repeat' first | intro _ | (with_reducible first | assumption | apply frm_setSite | apply frm_geljaTo | apply Frm.ite | fail_if_no_progress apply Frm.rest) | dsimp only | split

theorem frm_giveBack {fm : Nat} {r0 : State} {n op len : Nat} {s : State} (hk : Frm fm r0 s) :
    Frm fm r0 (giveBack n op len s) := by
  unfold giveBack
  repeat' first | intro _ | (with_reducible first | assumption | apply frm_modSite | apply frm_payCredits | apply Frm.ite | fail_if_no_progress apply Frm.rest) | dsimp only | split

theorem frm_closeTag {fm : Nat} {r0 : State} {n tag : Nat} {s : State} (hk : Frm fm r0 s) :
    Frm fm r0 (closeTag n tag s) := by
  unfold closeTag
  repeat' first | intro _ | (with_reducible first | assumption | apply frm_modSite | apply Frm.ite | fail_if_no_progress apply Frm.rest) | dsimp only | split

theorem frm_answerGelja {fm : Nat} {r0 : State} {n op : Nat} {m : GMsg} {keep : Bool} {s : State} (hk : Frm fm r0 s) :
    Frm fm r0 (answerGelja n op m keep s) := by
  unfold answerGelja
  repeat' first | intro _ | (with_reducible first | assumption | apply frm_geljaTo | apply frm_giveBack | apply frm_closeTag | apply Frm.ite | fail_if_no_progress apply Frm.rest) | dsimp only | split

end Sys2Proof.Laws
end

