-- ==== Sys2Proof/Laws/FrameHomeOps.lean ====
section
/-! SUPPORT. What the operations of `Machine/HomeOps.lean` leave alone: one lemma each. -/
namespace Sys2Proof.Laws
open Sys2Proof Sys2Proof.Machine Sys2Proof.Safety
set_option linter.unreachableTactic false
set_option linter.unusedTactic false

theorem frm_pushResp {fm : Nat} {r0 : State} {p : Resp} {s : State} (hk : Frm fm r0 s) :
    Frm fm r0 (pushResp p s) := by
  unfold pushResp
  repeat' first | intro _ | (with_reducible first | assumption | apply Frm.ite | fail_if_no_progress apply Frm.rest) | dsimp only | split

theorem frm_finishNoc {fm : Nat} {r0 : State} {tag : Nat} {s : State} (hk : Frm fm r0 s) :
    Frm fm r0 (finishNoc tag s) := by
  unfold finishNoc
  repeat' first | intro _ | (with_reducible first | assumption | apply frm_dropReq | apply frm_answerGelja | apply frm_pushResp | apply Frm.ite | fail_if_no_progress apply Frm.rest) | dsimp only | split

theorem frm_homeRead {fm : Nat} {r0 : State} {ctx line : Nat} {s : State} (hk : Frm fm r0 s) :
    Frm fm r0 (homeRead ctx line s).2.2.2 := by
  unfold homeRead
  repeat' first | intro _ | (with_reducible first | assumption | apply frm_raise | apply frm_targetRead | apply frm_freeBytes | apply Frm.ite | apply Frm.snd (by assumption) | fail_if_no_progress apply Frm.rest) | dsimp only | split

theorem frm_homeWrite {fm : Nat} {r0 : State} {ctx line : Nat} {bs : List Byte} {be : Nat} {poison : Bool} {s : State} (hm : Sub 1 fm) (hk : Frm fm r0 s) :
    Frm fm r0 (homeWrite ctx line bs be poison s).2 := by
  unfold homeWrite
  repeat' first | intro _ | (with_reducible first | assumption | apply frm_memPutBe | apply frm_raise | apply Frm.ite | fail_if_no_progress apply Frm.rest | exact Sub.trans (b := 1) rfl hm) | dsimp only | split

theorem frm_setHLine {fm : Nat} {r0 : State} {line : Nat} {h : HLine} {s : State} (hk : Frm fm r0 s) :
    Frm fm r0 (setHLine line h s) := by
  unfold setHLine
  repeat' first | intro _ | (with_reducible first | assumption | apply Frm.ite | fail_if_no_progress apply Frm.rest) | dsimp only | split

theorem frm_tidySector {fm : Nat} {r0 : State} {line : Nat} {s : State} (hk : Frm fm r0 s) :
    Frm fm r0 (tidySector line s).2 := by
  unfold tidySector
  repeat' first | intro _ | (with_reducible first | assumption | apply Frm.ite | fail_if_no_progress apply Frm.rest) | dsimp only | split

theorem frm_allocSector {fm : Nat} {r0 : State} {line : Nat} {s : State} (hk : Frm fm r0 s) :
    Frm fm r0 (allocSector line s) := by
  unfold allocSector
  repeat' first | intro _ | (with_reducible first | assumption | apply Frm.ite | fail_if_no_progress apply Frm.rest) | dsimp only | split

theorem frm_closeTxn {fm : Nat} {r0 : State} {line : Nat} {s : State} (hk : Frm fm r0 s) :
    Frm fm r0 (closeTxn line s) := by
  unfold closeTxn
  repeat' first | intro _ | (with_reducible first | assumption | apply Frm.ite | fail_if_no_progress apply Frm.rest) | dsimp only | split

theorem frm_openTxn {fm : Nat} {r0 : State} {line : Nat} {x : HTxn} {s : State} (hk : Frm fm r0 s) :
    Frm fm r0 (openTxn line x s) := by
  unfold openTxn
  repeat' first | intro _ | (with_reducible first | assumption | apply Frm.ite | fail_if_no_progress apply Frm.rest) | dsimp only | split

theorem frm_grantLine {fm : Nat} {r0 : State} {r : HReq} {excl withData : Bool} {s : State} (hk : Frm fm r0 s) :
    Frm fm r0 (grantLine r excl withData s) := by
  unfold grantLine
  repeat' first | intro _ | (with_reducible first | assumption | apply frm_emit | apply frm_modSite | apply frm_answerGelja | apply frm_homeRead | apply frm_setHLine | apply frm_allocSector | apply frm_openTxn | apply Frm.ite | apply Frm.snd (by assumption) | fail_if_no_progress apply Frm.rest) | dsimp only | split

theorem frm_doneAnswer {fm : Nat} {r0 : State} {r : HReq} {refused : Bool} {s : State} (hk : Frm fm r0 s) :
    Frm fm r0 (doneAnswer r refused s) := by
  unfold doneAnswer
  repeat' first | intro _ | (with_reducible first | assumption | apply frm_emit | apply frm_answerGelja | apply Frm.ite | fail_if_no_progress apply Frm.rest) | dsimp only | split

theorem frm_homeError {fm : Nat} {r0 : State} {r : HReq} {s : State} (hk : Frm fm r0 s) :
    Frm fm r0 (homeError r s) := by
  unfold homeError
  repeat' first | intro _ | (with_reducible first | assumption | apply frm_emit | apply frm_protocolError | apply frm_giveBack | apply frm_closeTag | apply Frm.ite | fail_if_no_progress apply Frm.rest) | dsimp only | split

theorem frm_pieceDone {fm : Nat} {r0 : State} {tag : Nat} {bs : List Byte} {bad denied : Bool} {s : State} (hk : Frm fm r0 s) :
    Frm fm r0 (pieceDone tag bs bad denied s) := by
  unfold pieceDone
  repeat' first | intro _ | (with_reducible first | assumption | apply frm_modReq | apply Frm.ite | fail_if_no_progress apply Frm.rest) | dsimp only | split

theorem frm_serveNc {fm : Nat} {r0 : State} {r : HReq} {s : State} (hm : Sub 1 fm) (hk : Frm fm r0 s) :
    Frm fm r0 (serveNc r s).2 := by
  unfold serveNc
  repeat' first | intro _ | (with_reducible first | assumption | apply frm_emit | apply frm_homeRead | apply frm_homeWrite | apply frm_setHLine | apply frm_tidySector | apply frm_doneAnswer | apply frm_pieceDone | apply Frm.ite | apply Frm.snd (by assumption) | fail_if_no_progress apply Frm.rest | exact Sub.trans (b := 1) rfl hm) | dsimp only | split

theorem frm_snoopAll {fm : Nat} {r0 : State} {r : HReq} {op : Nat} {targets : List Nat} {s : State} (hk : Frm fm r0 s) :
    Frm fm r0 (snoopAll r op targets s) := by
  unfold snoopAll
  repeat' first | intro _ | (with_reducible first | assumption | apply frm_sendSnoop | apply frm_openTxn | apply Frm.ite | apply Frm.foldl | apply Frm.foldl2 | apply Frm.foldl3 | fail_if_no_progress apply Frm.rest) | dsimp only | split

theorem frm_afterSnoops {fm : Nat} {r0 : State} {r : HReq} {s : State} (hm : Sub 1 fm) (hk : Frm fm r0 s) :
    Frm fm r0 (afterSnoops r s).2 := by
  unfold afterSnoops
  repeat' first | intro _ | (with_reducible first | assumption | apply frm_setHLine | apply frm_tidySector | apply frm_grantLine | apply frm_doneAnswer | apply frm_serveNc | apply Frm.ite | apply Frm.snd (by assumption) | fail_if_no_progress apply Frm.rest | exact Sub.trans (b := 1) rfl hm) | dsimp only | split

theorem frm_serveIdle {fm : Nat} {r0 : State} {r : HReq} {s : State} (hm : Sub 1 fm) (hk : Frm fm r0 s) :
    Frm fm r0 (serveIdle r s).2 := by
  unfold serveIdle
  repeat' first | intro _ | (with_reducible first | assumption | apply frm_backInval | apply frm_homeWrite | apply frm_setHLine | apply frm_tidySector | apply frm_grantLine | apply frm_doneAnswer | apply frm_homeError | apply frm_serveNc | apply frm_snoopAll | apply Frm.ite | apply Frm.foldl | apply Frm.foldl2 | apply Frm.foldl3 | apply Frm.snd (by assumption) | fail_if_no_progress apply Frm.rest | exact Sub.trans (b := 1) rfl hm) | dsimp only | split

theorem frm_arriveHome {fm : Nat} {r0 : State} {r : HReq} {s : State} (hm : Sub 1 fm) (hk : Frm fm r0 s) :
    Frm fm r0 (arriveHome r s).2 := by
  unfold arriveHome
  repeat' first | intro _ | (with_reducible first | assumption | apply frm_homeWrite | apply frm_closeTxn | apply frm_openTxn | apply frm_doneAnswer | apply frm_homeError | apply frm_afterSnoops | apply frm_serveIdle | apply Frm.ite | apply Frm.snd (by assumption) | fail_if_no_progress apply Frm.rest | exact Sub.trans (b := 1) rfl hm) | dsimp only | split

theorem frm_nocPiece {fm : Nat} {r0 : State} {tag : Nat} {s : State} (hm : Sub 1 fm) (hk : Frm fm r0 s) :
    Frm fm r0 (nocPiece tag s).2 := by
  unfold nocPiece
  repeat' first | intro _ | (with_reducible first | assumption | apply frm_memPutBe | apply frm_raise | apply frm_targetRead | apply frm_freeBytes | apply frm_finishNoc | apply frm_pieceDone | apply Frm.ite | apply Frm.snd (by assumption) | fail_if_no_progress apply Frm.rest | exact Sub.trans (b := 1) rfl hm) | dsimp only | split

theorem frm_doWork {fm : Nat} {r0 : State} {w : Work} {s : State} (hm : Sub 1 fm) (hk : Frm fm r0 s) :
    Frm fm r0 (doWork w s).2 := by
  unfold doWork
  repeat' first | intro _ | (with_reducible first | assumption | apply frm_arriveHome | apply frm_nocPiece | apply Frm.ite | apply Frm.snd (by assumption) | fail_if_no_progress apply Frm.rest | exact Sub.trans (b := 1) rfl hm) | dsimp only | split

theorem frm_runWork {fm : Nat} {r0 : State} (hm : Sub 1 fm) : ∀ (n : Nat) {ws : List Work} {s : State}, Frm fm r0 s → Frm fm r0 (runWork n ws s)
  | 0, ws, _, h => by cases ws <;> exact h
  | _ + 1, [], _, h => h
  | k + 1, _ :: _, _, h => frm_runWork hm k (frm_doWork hm h)

theorem frm_atHome {fm : Nat} {r0 : State} {ws : List Work} {s : State} (hm : Sub 1 fm) (hk : Frm fm r0 s) :
    Frm fm r0 (atHome ws s) := by
  unfold atHome
  repeat' first | intro _ | (with_reducible first | assumption | apply frm_settleHome | apply frm_runWork | apply Frm.ite | fail_if_no_progress apply Frm.rest | exact Sub.trans (b := 1) rfl hm) | dsimp only | split

theorem frm_cohRefused {fm : Nat} {r0 : State} {pa : Nat} {s : State} (hk : Frm fm r0 s) :
    Frm fm r0 (cohRefused pa s) := by
  unfold cohRefused
  repeat' first | intro _ | (with_reducible first | assumption | apply frm_raise | apply Frm.ite | fail_if_no_progress apply Frm.rest) | dsimp only | split

theorem frm_takeQueuedWb {fm : Nat} {r0 : State} {n line : Nat} {s : State} (hm : Sub 1 fm) (hk : Frm fm r0 s) :
    Frm fm r0 (takeQueuedWb n line s).2 := by
  unfold takeQueuedWb
  repeat' first | intro _ | (with_reducible first | assumption | apply frm_homeWrite | apply frm_doneAnswer | apply Frm.ite | apply Frm.snd (by assumption) | fail_if_no_progress apply Frm.rest | exact Sub.trans (b := 1) rfl hm) | dsimp only | split

theorem frm_answerSnoop {fm : Nat} {r0 : State} {n line : Nat} {wbp : Bool} {s : State} (hm : Sub 1 fm) (hk : Frm fm r0 s) :
    Frm fm r0 (answerSnoop n line wbp s) := by
  unfold answerSnoop
  repeat' first | intro _ | (with_reducible first | assumption | apply frm_closeTxn | apply frm_openTxn | apply frm_afterSnoops | apply frm_atHome | apply frm_takeQueuedWb | apply Frm.ite | apply Frm.snd (by assumption) | fail_if_no_progress apply Frm.rest | exact Sub.trans (b := 1) rfl hm) | dsimp only | split

theorem frm_snoopState {fm : Nat} {r0 : State} {n line : Nat} {st : Option Nat} {s : State} (hk : Frm fm r0 s) :
    Frm fm r0 (snoopState n line st s) := by
  unfold snoopState
  repeat' first | intro _ | (with_reducible first | assumption | apply frm_setHLine | apply Frm.ite | fail_if_no_progress apply Frm.rest) | dsimp only | split

theorem frm_snoopAnswered {fm : Nat} {r0 : State} {n tag : Nat} {st : Option Nat} {wbp : Bool} {data : Option (List Byte × Bool)} {s : State} (hm : Sub 1 fm) (hk : Frm fm r0 s) :
    Frm fm r0 (snoopAnswered n tag st wbp data s) := by
  unfold snoopAnswered
  repeat' first | intro _ | (with_reducible first | assumption | apply frm_modSite | apply frm_drainSnoops | apply frm_homeWrite | apply frm_answerSnoop | apply frm_snoopState | apply Frm.ite | apply Frm.snd (by assumption) | fail_if_no_progress apply Frm.rest | exact Sub.trans (b := 1) rfl hm) | dsimp only | split

theorem frm_grantAcked {fm : Nat} {r0 : State} {n line : Nat} {s : State} (hm : Sub 1 fm) (hk : Frm fm r0 s) :
    Frm fm r0 (grantAcked n line s) := by
  unfold grantAcked
  repeat' first | intro _ | (with_reducible first | assumption | apply frm_closeTxn | apply frm_atHome | apply Frm.ite | fail_if_no_progress apply Frm.rest | exact Sub.trans (b := 1) rfl hm) | dsimp only | split

theorem frm_snoopLate {fm : Nat} {r0 : State} {n line : Nat} {s : State} (hm : Sub 1 fm) (hk : Frm fm r0 s) :
    Frm fm r0 (snoopLate n line s) := by
  unfold snoopLate
  repeat' first | intro _ | (with_reducible first | assumption | apply frm_modSite | apply frm_dropHolder | apply frm_raise | apply frm_closeTag | apply frm_tidySector | apply frm_closeTxn | apply frm_openTxn | apply frm_afterSnoops | apply frm_atHome | apply Frm.ite | apply Frm.snd (by assumption) | fail_if_no_progress apply Frm.rest | exact Sub.trans (b := 1) rfl hm) | dsimp only | split

end Sys2Proof.Laws
end

