-- ==== Sys2Proof/Laws/FrameFaults.lean ====
section
/-! SUPPORT. What the operations of `Machine/Faults.lean` leave alone: one lemma each. -/
namespace Sys2Proof.Laws
open Sys2Proof Sys2Proof.Machine Sys2Proof.Safety
set_option linter.unreachableTactic false
set_option linter.unusedTactic false

theorem frm_recordCell {fm : Nat} {r0 : State} {q phys : Nat} {s : State} (hk : Frm fm r0 s) :
    Frm fm r0 (recordCell q phys s) := by
  unfold recordCell
  repeat' first | intro _ | (with_reducible first | assumption | apply frm_setQuad | apply Frm.ite | fail_if_no_progress apply Frm.rest) | dsimp only | split

theorem frm_strikeCell {fm : Nat} {r0 : State} {n : Nat} {w : CellPart} {s : State} (hk : Frm fm r0 s) :
    Frm fm r0 (strikeCell n w s) := by
  unfold strikeCell
  repeat' first | intro _ | (with_reducible first | assumption | apply frm_setCell | apply Frm.ite | fail_if_no_progress apply Frm.rest) | dsimp only | split

theorem frm_cellFails {fm : Nat} {r0 : State} {q bit phys : Nat} {s : State} (hk : Frm fm r0 s) :
    Frm fm r0 (cellFails q bit phys s) := by
  unfold cellFails
  repeat' first | intro _ | (with_reducible first | assumption | apply frm_setGrp | apply frm_refresh | apply frm_raise | apply frm_recordCell | apply Frm.ite | fail_if_no_progress apply Frm.rest) | dsimp only | split

theorem frm_cellCheck {fm : Nat} {r0 : State} {n bit : Nat} {corrects : Bool} {e : Ecc} {s : State} (hk : Frm fm r0 s) :
    Frm fm r0 (cellCheck n bit corrects e s).2 := by
  unfold cellCheck
  repeat' first | intro _ | (with_reducible first | assumption | apply frm_setQuad | apply frm_checkEcc | apply frm_cellFails | apply Frm.ite | apply Frm.snd (by assumption) | fail_if_no_progress apply Frm.rest) | dsimp only | split

theorem frm_slotRead {fm : Nat} {r0 : State} {n slot : Nat} {s : State} (hk : Frm fm r0 s) :
    Frm fm r0 (slotRead n slot s).2 := by
  unfold slotRead
  repeat' first | intro _ | (with_reducible first | assumption | apply frm_strikeCell | apply frm_cellCheck | apply Frm.ite | fail_if_no_progress apply Frm.rest) | dsimp only | split

theorem frm_quadLost {fm : Nat} {r0 : State} {q : Nat} {s : State} (hk : Frm fm r0 s) :
    Frm fm r0 (quadLost q s) := by
  unfold quadLost
  repeat' first | intro _ | (with_reducible first | assumption | apply frm_setQuad | apply frm_setDomain | apply frm_fenceCol | apply frm_markFence | apply Frm.ite | apply Frm.foldl | apply Frm.foldl2 | apply Frm.foldl3 | fail_if_no_progress apply Frm.rest) | dsimp only | split

theorem frm_faultDetect {fm : Nat} {r0 : State} {g : Fin 29} {bit : Fin 32} {unit : Nat} {s : State} (hk : Frm fm r0 s) :
    Frm fm r0 (faultDetect g bit unit s) := by
  unfold faultDetect
  repeat' first | intro _ | (with_reducible first | assumption | apply frm_spend | apply frm_requestColFence | apply frm_raise | apply frm_strikeCell | apply frm_cellFails | apply frm_quadLost | apply Frm.ite | fail_if_no_progress apply Frm.rest) | dsimp only | split

theorem frm_graceExpiry {fm : Nat} {r0 : State} {g : Nat} {s : State} (hk : Frm fm r0 s) :
    Frm fm r0 (graceExpiry g s) := by
  unfold graceExpiry
  repeat' first | intro _ | (with_reducible first | assumption | apply frm_refresh | apply frm_stopPackage | apply frm_escalateOnce | apply frm_detectN | apply Frm.ite | fail_if_no_progress apply Frm.rest) | dsimp only | split

theorem frm_reachThreshold {fm : Nat} {r0 : State} {g bit : Nat} {s : State} (hk : Frm fm r0 s) :
    Frm fm r0 (reachThreshold g bit s) := by
  unfold reachThreshold
  repeat' first | intro _ | (with_reducible first | assumption | apply frm_stopPackage | apply frm_detectN | apply Frm.ite | fail_if_no_progress apply Frm.rest) | dsimp only | split

theorem frm_setThreshold {fm : Nat} {r0 : State} {t : Nat} {s : State} (hk : Frm fm r0 s) :
    Frm fm r0 (setThreshold t s) := by
  unfold setThreshold
  repeat' first | intro _ | (with_reducible first | assumption | apply frm_refresh | apply frm_reachThreshold | apply Frm.ite | apply Frm.foldl | apply Frm.foldl2 | apply Frm.foldl3 | fail_if_no_progress apply Frm.rest) | dsimp only | split

theorem frm_startTimer {fm : Nat} {r0 : State} {g : Nat} {s : State} (hk : Frm fm r0 s) :
    Frm fm r0 (startTimer g s) := by
  unfold startTimer
  repeat' first | intro _ | (with_reducible first | assumption | apply frm_setGrp | apply frm_stopPackage | apply frm_escalateOnce | apply frm_detectN | apply frm_reachThreshold | apply Frm.ite | fail_if_no_progress apply Frm.rest) | dsimp only | split

theorem frm_faultMaskWrite {fm : Nat} {r0 : State} {g : Nat} {val : Word} {s : State} (hk : Frm fm r0 s) :
    Frm fm r0 (faultMaskWrite g val s) := by
  unfold faultMaskWrite
  repeat' first | intro _ | (with_reducible first | assumption | apply frm_setGrp | apply frm_refresh | apply frm_settleGroup | apply frm_startTimer | apply Frm.ite | fail_if_no_progress apply Frm.rest) | dsimp only | split

theorem frm_faultActionWrite {fm : Nat} {r0 : State} {g : Nat} {val : Word} {s : State} (hk : Frm fm r0 s) :
    Frm fm r0 (faultActionWrite g val s) := by
  unfold faultActionWrite
  repeat' first | intro _ | (with_reducible first | assumption | apply frm_setGrp | apply frm_refresh | apply frm_refuseWrite | apply frm_startTimer | apply Frm.ite | fail_if_no_progress apply Frm.rest) | dsimp only | split

theorem frm_faultInjectArm {fm : Nat} {r0 : State} {g : Nat} {val : Word} {s : State} (hk : Frm fm r0 s) :
    Frm fm r0 (faultInjectArm g val s) := by
  unfold faultInjectArm
  repeat' first | intro _ | (with_reducible first | assumption | apply frm_setGrp | apply frm_raise | apply frm_checkEcc | apply Frm.ite | fail_if_no_progress apply Frm.rest) | dsimp only | split

theorem frm_faultSignal {fm : Nat} {r0 : State} {g bit : Nat} {s : State} (hk : Frm fm r0 s) :
    Frm fm r0 (faultSignal g bit s) := by
  unfold faultSignal
  repeat' first | intro _ | (with_reducible first | assumption | apply frm_writeLog | apply frm_ackBits | apply Frm.ite | fail_if_no_progress apply Frm.rest) | dsimp only | split

theorem frm_errnHeartbeat {fm : Nat} {r0 : State} {s : State} (hk : Frm fm r0 s) :
    Frm fm r0 (errnHeartbeat s) := by
  unfold errnHeartbeat
  repeat' first | intro _ | (with_reducible first | assumption | apply frm_emit | apply frm_refreshPin | apply Frm.ite | fail_if_no_progress apply Frm.rest) | dsimp only | split

end Sys2Proof.Laws
end

