-- ==== Sys2Proof/Laws/FrameViOps.lean ====
section
/-! SUPPORT. What the operations of `Machine/ViOps.lean` leave alone: one lemma each. -/
namespace Sys2Proof.Laws
open Sys2Proof Sys2Proof.Machine Sys2Proof.Safety
set_option linter.unreachableTactic false
set_option linter.unusedTactic false

theorem frm_viFault {fm : Nat} {r0 : State} {v bit : Nat} {s : State} (hk : Frm fm r0 s) :
    Frm fm r0 (viFault v bit s) := by
  unfold viFault
  repeat' first | intro _ | (with_reducible first | assumption | apply frm_modVi | apply frm_refresh | apply Frm.ite | fail_if_no_progress apply Frm.rest) | dsimp only | split

theorem frm_noteHost {fm : Nat} {r0 : State} {unit ctx iova : Nat} {write : Bool} {s : State} (hk : Frm fm r0 s) :
    Frm fm r0 (noteHost unit ctx iova write s) := by
  unfold noteHost
  repeat' first | intro _ | (with_reducible first | assumption | apply frm_bufFill | apply Frm.ite | fail_if_no_progress apply Frm.rest) | dsimp only | split

theorem frm_hostReadGo {fm : Nat} {r0 : State} {r : Req} {s : State} (hk : Frm fm r0 s) :
    Frm fm r0 (hostReadGo r s) := by
  unfold hostReadGo
  repeat' first | intro _ | (with_reducible first | assumption | apply frm_emit | apply frm_modReq | apply Frm.ite | fail_if_no_progress apply Frm.rest) | dsimp only | split

theorem frm_issueHostRead {fm : Nat} {r0 : State} {r : Req} {s : State} (hk : Frm fm r0 s) :
    Frm fm r0 (issueHostRead r s).2 := by
  unfold issueHostRead
  repeat' first | intro _ | (with_reducible first | assumption | apply frm_issueReq | apply frm_hostReadGo | apply Frm.ite | apply Frm.snd (by assumption) | fail_if_no_progress apply Frm.rest) | dsimp only | split

theorem frm_askAts {fm : Nat} {r0 : State} {e ctx iova : Nat} {s : State} (hk : Frm fm r0 s) :
    Frm fm r0 (askAts e ctx iova s) := by
  unfold askAts
  repeat' first | intro _ | (with_reducible first | assumption | apply frm_emit | apply Frm.ite | fail_if_no_progress apply Frm.rest) | dsimp only | split

theorem frm_endAtElem {fm : Nat} {r0 : State} {e k : Nat} {st : Status} {s : State} (hk : Frm fm r0 s) :
    Frm fm r0 (endAtElem e k st s) := by
  unfold endAtElem
  repeat' first | intro _ | (with_reducible first | assumption | apply frm_setXfe | apply Frm.ite | fail_if_no_progress apply Frm.rest) | dsimp only | split

theorem frm_endEarly {fm : Nat} {r0 : State} {e : Nat} {st : Status} {s : State} (hk : Frm fm r0 s) :
    Frm fm r0 (endEarly e st s) := by
  unfold endEarly
  repeat' first | intro _ | (with_reducible first | assumption | apply frm_endAtElem | apply Frm.ite | fail_if_no_progress apply Frm.rest) | dsimp only | split

theorem frm_endHostDescs {fm : Nat} {r0 : State} {v : Nat} {s : State} (hk : Frm fm r0 s) :
    Frm fm r0 (endHostDescs v s) := by
  unfold endHostDescs
  repeat' first | intro _ | (with_reducible first | assumption | apply frm_setXfe | apply frm_endSource | apply frm_endEarly | apply Frm.ite | apply Frm.foldl | apply Frm.foldl2 | apply Frm.foldl3 | fail_if_no_progress apply Frm.rest) | dsimp only | split

theorem frm_quiesceVi {fm : Nat} {r0 : State} {v : Nat} {bit : Option Nat} {s : State} (hk : Frm fm r0 s) :
    Frm fm r0 (quiesceVi v bit s) := by
  unfold quiesceVi
  repeat' first | intro _ | (with_reducible first | assumption | apply frm_modVi | apply frm_viFault | apply frm_endHostDescs | apply Frm.ite | fail_if_no_progress apply Frm.rest) | dsimp only | split

theorem frm_requestQuiesce {fm : Nat} {r0 : State} {v : Nat} {bit : Option Nat} {s : State} (hk : Frm fm r0 s) :
    Frm fm r0 (requestQuiesce v bit s) := by
  unfold requestQuiesce
  repeat' first | intro _ | (with_reducible first | assumption | apply frm_modVi | apply frm_quiesceVi | apply Frm.ite | fail_if_no_progress apply Frm.rest) | dsimp only | split

theorem frm_ringDenied {fm : Nat} {r0 : State} {v bit : Nat} {s : State} (hk : Frm fm r0 s) :
    Frm fm r0 (ringDenied v bit s) := by
  unfold ringDenied
  repeat' first | intro _ | (with_reducible first | assumption | apply frm_raise | apply frm_requestQuiesce | apply Frm.ite | fail_if_no_progress apply Frm.rest) | dsimp only | split

theorem frm_deliverHeldN {fm : Nat} {r0 : State} : ∀ (a0 : Nat) {a1 : Nat} {a2 : State}, Frm fm r0 a2 → Frm fm r0 (deliverHeldN a0 a1 a2) := by
  intro a0
  induction a0 with
  | zero =>
    intros
    unfold deliverHeldN
    repeat' first | intro _ | (with_reducible first | assumption | apply frm_emit | apply frm_setVi | apply frm_hostWriteNow | apply frm_noteHost | apply frm_askAts | apply frm_ringDenied | apply Frm.ite | apply Frm.opt (by assumption) | apply Frm.getD | apply FrmO.none | apply FrmO.some | apply FrmO.ite | fail_if_no_progress apply Frm.rest) | dsimp only | split
  | succ _ ih =>
    intros
    unfold deliverHeldN
    repeat' first | intro _ | (with_reducible first | assumption | apply ih | apply frm_emit | apply frm_setVi | apply frm_hostWriteNow | apply frm_noteHost | apply frm_askAts | apply frm_ringDenied | apply Frm.ite | apply Frm.opt (by assumption) | apply Frm.getD | apply FrmO.none | apply FrmO.some | apply FrmO.ite | fail_if_no_progress apply Frm.rest) | dsimp only | split

theorem frm_deliverHeld {fm : Nat} {r0 : State} {v : Nat} {s : State} (hk : Frm fm r0 s) :
    Frm fm r0 (deliverHeld v s) := by
  unfold deliverHeld
  repeat' first | intro _ | (with_reducible first | assumption | apply frm_refresh | apply frm_deliverHeldN | apply Frm.ite | fail_if_no_progress apply Frm.rest) | dsimp only | split

theorem frm_detachVi {fm : Nat} {r0 : State} {v : Nat} {s : State} (hk : Frm fm r0 s) :
    Frm fm r0 (detachVi v s) := by
  unfold detachVi
  repeat' first | intro _ | (with_reducible first | assumption | apply frm_modVi | apply frm_endSession | apply Frm.ite | fail_if_no_progress apply Frm.rest) | dsimp only | split

theorem frm_viAtProof {fm : Nat} {r0 : State} {p : Nat} {s : State} (hk : Frm fm r0 s) :
    Frm fm r0 (viAtProof p s) := by
  unfold viAtProof
  repeat' first | intro _ | (with_reducible first | assumption | apply frm_modVi | apply frm_quiesceVi | apply frm_deliverHeld | apply frm_detachVi | apply Frm.ite | apply Frm.foldl | apply Frm.foldl2 | apply Frm.foldl3 | fail_if_no_progress apply Frm.rest) | dsimp only | split

theorem frm_endCommand {fm : Nat} {r0 : State} {v tag : Nat} {st : Status} {detail : Nat} {s : State} (hk : Frm fm r0 s) :
    Frm fm r0 (endCommand v tag st detail s) := by
  unfold endCommand
  repeat' first | intro _ | (with_reducible first | assumption | apply frm_holdEntry | apply frm_deliverHeld | apply Frm.ite | fail_if_no_progress apply Frm.rest) | dsimp only | split

theorem frm_waitSteps {fm : Nat} {r0 : State} {p : Nat} {s : State} (hk : Frm fm r0 s) :
    Frm fm r0 (waitSteps p s) := by
  unfold waitSteps
  repeat' first | intro _ | (with_reducible first | assumption | apply frm_endCommand | apply Frm.ite | apply Frm.foldl | apply Frm.foldl2 | apply Frm.foldl3 | fail_if_no_progress apply Frm.rest) | dsimp only | split

theorem frm_abortSlot {fm : Nat} {r0 : State} {v : Nat} {s : State} (hk : Frm fm r0 s) :
    Frm fm r0 (abortSlot v s) := by
  unfold abortSlot
  repeat' first | intro _ | (with_reducible first | assumption | apply frm_endEarly | apply Frm.ite | apply Frm.foldl | apply Frm.foldl2 | apply Frm.foldl3 | fail_if_no_progress apply Frm.rest) | dsimp only | split

theorem frm_keyFault {fm : Nat} {r0 : State} {v : Nat} {s : State} (hk : Frm fm r0 s) :
    Frm fm r0 (keyFault v s) := by
  unfold keyFault
  repeat' first | intro _ | (with_reducible first | assumption | apply frm_refresh | apply frm_endSession | apply frm_raise | apply frm_abortSlot | apply Frm.ite | fail_if_no_progress apply Frm.rest) | dsimp only | split

theorem frm_slotCheck {fm : Nat} {r0 : State} {v : Nat} {s : State} (hk : Frm fm r0 s) :
    Frm fm r0 (slotCheck v s).2 := by
  unfold slotCheck
  repeat' first | intro _ | (with_reducible first | assumption | apply frm_checkEcc | apply frm_keyFault | apply Frm.ite | fail_if_no_progress apply Frm.rest) | dsimp only | split

theorem frm_endUnrun {fm : Nat} {r0 : State} {e : Nat} {d : XDesc} {st : Status} {taint : Bool} {s : State} (hk : Frm fm r0 s) :
    Frm fm r0 (endUnrun e d st taint s) := by
  unfold endUnrun
  repeat' first | intro _ | (with_reducible first | assumption | apply frm_setXfe | apply frm_markFlag | apply frm_endCommand | apply Frm.ite | fail_if_no_progress apply Frm.rest) | dsimp only | split

theorem frm_passDesc {fm : Nat} {r0 : State} {d : XDesc} {s : State} (hk : Frm fm r0 s) :
    Frm fm r0 (passDesc d s) := by
  unfold passDesc
  repeat' first | intro _ | (with_reducible first | assumption | apply frm_setXfe | apply Frm.ite | fail_if_no_progress apply Frm.rest) | dsimp only | split

end Sys2Proof.Laws
end

