-- ==== Sys2Proof/Laws/FrameSteps.lean ====
section
/-! SUPPORT. What the operations of `Machine/Steps.lean` leave alone: one lemma each. -/
namespace Sys2Proof.Laws
open Sys2Proof Sys2Proof.Machine Sys2Proof.Safety
set_option linter.unreachableTactic false
set_option linter.unusedTactic false

theorem frm_switchSlots {fm : Nat} {r0 : State} {p : Nat} {s : State} (hk : Frm fm r0 s) :
    Frm fm r0 (switchSlots p s) := by
  unfold switchSlots
  repeat' first | intro _ | (with_reducible first | assumption | apply frm_setCell | apply frm_setCol | apply frm_traceAt | apply frm_slotRead | apply Frm.ite | apply Frm.foldl | apply Frm.foldl2 | apply Frm.foldl3 | fail_if_no_progress apply Frm.rest) | dsimp only | split

theorem frm_fclkToMin {fm : Nat} {r0 : State} {s : State} (hk : Frm fm r0 s) :
    Frm fm r0 (fclkToMin s) := by
  unfold fclkToMin
  repeat' first | intro _ | (with_reducible first | assumption | apply Frm.ite | fail_if_no_progress apply Frm.rest) | dsimp only | split

theorem frm_holdFclk {fm : Nat} {r0 : State} {s : State} (hk : Frm fm r0 s) :
    Frm fm r0 (holdFclk s) := by
  unfold holdFclk
  repeat' first | intro _ | (with_reducible first | assumption | apply Frm.ite | fail_if_no_progress apply Frm.rest) | dsimp only | split

theorem frm_applyFclk {fm : Nat} {r0 : State} {p : Nat} {s : State} (hk : Frm fm r0 s) :
    Frm fm r0 (applyFclk p s) := by
  unfold applyFclk
  repeat' first | intro _ | (with_reducible first | assumption | apply Frm.ite | fail_if_no_progress apply Frm.rest) | dsimp only | split

theorem frm_launchDescs {fm : Nat} {r0 : State} {p : Nat} {s : State} (hk : Frm fm r0 s) :
    Frm fm r0 (launchDescs p s) := by
  unfold launchDescs
  repeat' first | intro _ | (with_reducible first | assumption | apply frm_passDesc | apply Frm.ite | apply Frm.foldl | apply Frm.foldl2 | apply Frm.foldl3 | fail_if_no_progress apply Frm.rest) | dsimp only | split

theorem frm_launchColls {fm : Nat} {r0 : State} {p : Nat} {s : State} (hk : Frm fm r0 s) :
    Frm fm r0 (launchColls p s) := by
  unfold launchColls
  repeat' first | intro _ | (with_reducible first | assumption | apply frm_setCunit | apply Frm.ite | apply Frm.foldl | apply Frm.foldl2 | apply Frm.foldl3 | fail_if_no_progress apply Frm.rest) | dsimp only | split

theorem frm_admitSites {fm : Nat} {r0 : State} {p : Nat} {s : State} (hk : Frm fm r0 s) :
    Frm fm r0 (admitSites p s) := by
  unfold admitSites
  repeat' first | intro _ | (with_reducible first | assumption | apply frm_modSite | apply frm_traceAt | apply Frm.ite | apply Frm.foldl | apply Frm.foldl2 | apply Frm.foldl3 | fail_if_no_progress apply Frm.rest) | dsimp only | split

theorem frm_applyVset {fm : Nat} {r0 : State} {p : Nat} {s : State} (hk : Frm fm r0 s) :
    Frm fm r0 (applyVset p s) := by
  unfold applyVset
  repeat' first | intro _ | (with_reducible first | assumption | apply frm_modSite | apply Frm.ite | apply Frm.foldl | apply Frm.foldl2 | apply Frm.foldl3 | fail_if_no_progress apply Frm.rest) | dsimp only | split

theorem frm_sendStepInfo {fm : Nat} {r0 : State} {p : Nat} {tick : Tick} {s : State} (hk : Frm fm r0 s) :
    Frm fm r0 (sendStepInfo p tick s) := by
  unfold sendStepInfo
  repeat' first | intro _ | (with_reducible first | assumption | apply frm_geljaTo | apply Frm.ite | apply Frm.foldl | apply Frm.foldl2 | apply Frm.foldl3 | fail_if_no_progress apply Frm.rest) | dsimp only | split

theorem frm_releaseWires {fm : Nat} {r0 : State} {p : Nat} {s : State} (hk : Frm fm r0 s) :
    Frm fm r0 (releaseWires p s) := by
  unfold releaseWires
  repeat' first | intro _ | (with_reducible first | assumption | apply frm_emit | apply frm_setSite | apply Frm.ite | apply Frm.foldl | apply Frm.foldl2 | apply Frm.foldl3 | fail_if_no_progress apply Frm.rest) | dsimp only | split

theorem frm_writeAudit {fm : Nat} {r0 : State} {p : Nat} {st : Status} {s : State} (hm : Sub 1 fm) (hk : Frm fm r0 s) :
    Frm fm r0 (writeAudit p st s) := by
  unfold writeAudit
  repeat' first | intro _ | (with_reducible first | assumption | apply frm_modPart | apply frm_dvaWrite | apply Frm.ite | fail_if_no_progress apply Frm.rest | exact Sub.trans (b := 1) rfl hm) | dsimp only | split

theorem frm_endStep {fm : Nat} {r0 : State} {p : Nat} {s : State} (hm : Sub 1 fm) (hk : Frm fm r0 s) :
    Frm fm r0 (endStep p s) := by
  unfold endStep
  repeat' first | intro _ | (with_reducible first | assumption | apply frm_modPart | apply frm_viAtProof | apply frm_writeAudit | apply Frm.ite | fail_if_no_progress apply Frm.rest | exact Sub.trans (b := 1) rfl hm) | dsimp only | split

theorem frm_enterHeld {fm : Nat} {r0 : State} {p : Nat} {m : BitVec 7} {complete : Bool} {s : State} (hm : Sub 1 fm) (hk : Frm fm r0 s) :
    Frm fm r0 (enterHeld p m complete s) := by
  unfold enterHeld
  repeat' first | intro _ | (with_reducible first | assumption | apply frm_modPart | apply frm_setPState | apply frm_settleArmed | apply frm_endStep | apply Frm.ite | fail_if_no_progress apply Frm.rest | exact Sub.trans (b := 1) rfl hm) | dsimp only | split

theorem frm_startStep {fm : Nat} {r0 : State} {p : Nat} {T : Tick} {entry : Bool} {s : State} (hk : Frm fm r0 s) :
    Frm fm r0 (startStep p T entry s) := by
  unfold startStep
  repeat' first | intro _ | (with_reducible first | assumption | apply frm_setPart | apply frm_traceAt | apply frm_setPState | apply frm_qosRelease | apply frm_waitSteps | apply frm_switchSlots | apply frm_applyFclk | apply frm_launchDescs | apply frm_launchColls | apply frm_admitSites | apply frm_applyVset | apply frm_releaseWires | apply Frm.ite | fail_if_no_progress apply Frm.rest) | dsimp only | split

theorem frm_releaseNow {fm : Nat} {r0 : State} {p : Nat} {s : State} (hm : Sub 1 fm) (hk : Frm fm r0 s) :
    Frm fm r0 (releaseNow p s) := by
  unfold releaseNow
  repeat' first | intro _ | (with_reducible first | assumption | apply frm_modPart | apply frm_endStep | apply frm_enterHeld | apply frm_startStep | apply Frm.ite | fail_if_no_progress apply Frm.rest | exact Sub.trans (b := 1) rfl hm) | dsimp only | split

theorem frm_recordStretch {fm : Nat} {r0 : State} {p A : Nat} {s : State} (hk : Frm fm r0 s) :
    Frm fm r0 (recordStretch p A s) := by
  unfold recordStretch
  repeat' first | intro _ | (with_reducible first | assumption | apply frm_setPart | apply Frm.ite | fail_if_no_progress apply Frm.rest) | dsimp only | split

theorem frm_toChildren {fm : Nat} {r0 : State} {p : Nat} {t : Token} {s : State} (hk : Frm fm r0 s) :
    Frm fm r0 (toChildren p t s) := by
  unfold toChildren
  repeat' first | intro _ | (with_reducible first | assumption | apply frm_sendToken | apply Frm.ite | apply Frm.foldl | apply Frm.foldl2 | apply Frm.foldl3 | fail_if_no_progress apply Frm.rest) | dsimp only | split

theorem frm_armRelease {fm : Nat} {r0 : State} {p : Nat} {tick : Tick} {dist : Bool} {s : State} (hk : Frm fm r0 s) :
    Frm fm r0 (armRelease p tick dist s) := by
  unfold armRelease
  repeat' first | intro _ | (with_reducible first | assumption | apply frm_modPart | apply frm_sendStepInfo | apply Frm.ite | fail_if_no_progress apply Frm.rest) | dsimp only | split

theorem frm_measureD {fm : Nat} {r0 : State} {p : Nat} {s : State} (hk : Frm fm r0 s) :
    Frm fm r0 (measureD p s) := by
  unfold measureD
  repeat' first | intro _ | (with_reducible first | assumption | apply frm_drawFree | apply frm_setPart | apply Frm.ite | fail_if_no_progress apply Frm.rest) | dsimp only | split

theorem frm_tryReady {fm : Nat} {r0 : State} {p : Nat} {s : State} (hk : Frm fm r0 s) :
    Frm fm r0 (tryReady p s) := by
  unfold tryReady
  repeat' first | intro _ | (with_reducible first | assumption | apply frm_modPart | apply frm_sendToken | apply frm_raise | apply frm_toChildren | apply frm_armRelease | apply frm_measureD | apply Frm.ite | fail_if_no_progress apply Frm.rest) | dsimp only | split

theorem frm_becomeReady {fm : Nat} {r0 : State} {p : Nat} {s : State} (hk : Frm fm r0 s) :
    Frm fm r0 (becomeReady p s) := by
  unfold becomeReady
  repeat' first | intro _ | (with_reducible first | assumption | apply frm_modPart | apply frm_tryReady | apply Frm.ite | fail_if_no_progress apply Frm.rest) | dsimp only | split

theorem frm_rootDecide {fm : Nat} {r0 : State} {p : Nat} {s : State} (hm : Sub 1 fm) (hk : Frm fm r0 s) :
    Frm fm r0 (rootDecide p s) := by
  unfold rootDecide
  repeat' first | intro _ | (with_reducible first | assumption | apply frm_modPart | apply frm_enterHeld | apply frm_recordStretch | apply frm_toChildren | apply frm_armRelease | apply frm_tryReady | apply Frm.ite | fail_if_no_progress apply Frm.rest | exact Sub.trans (b := 1) rfl hm) | dsimp only | split

theorem frm_tryForward {fm : Nat} {r0 : State} {p : Nat} {s : State} (hm : Sub 1 fm) (hk : Frm fm r0 s) :
    Frm fm r0 (tryForward p s) := by
  unfold tryForward
  repeat' first | intro _ | (with_reducible first | assumption | apply frm_modPart | apply frm_sendToken | apply frm_rootDecide | apply Frm.ite | fail_if_no_progress apply Frm.rest | exact Sub.trans (b := 1) rfl hm) | dsimp only | split

theorem frm_tryArrive {fm : Nat} {r0 : State} {p : Nat} {s : State} (hm : Sub 1 fm) (hk : Frm fm r0 s) :
    Frm fm r0 (tryArrive p s) := by
  unfold tryArrive
  repeat' first | intro _ | (with_reducible first | assumption | apply frm_modPart | apply frm_enterHeld | apply frm_recordStretch | apply frm_armRelease | apply frm_tryReady | apply frm_tryForward | apply Frm.ite | fail_if_no_progress apply Frm.rest | exact Sub.trans (b := 1) rfl hm) | dsimp only | split

theorem frm_auditTake {fm : Nat} {r0 : State} {p : Nat} {bs : List Byte} {s : State} (hk : Frm fm r0 s) :
    Frm fm r0 (auditTake p bs s) := by
  unfold auditTake
  repeat' first | intro _ | (with_reducible first | assumption | apply frm_modPart | apply Frm.ite | fail_if_no_progress apply Frm.rest) | dsimp only | split

theorem frm_auditStep {fm : Nat} {r0 : State} {p : Nat} {s : State} (hk : Frm fm r0 s) :
    Frm fm r0 (auditStep p s) := by
  unfold auditStep
  repeat' first | intro _ | (with_reducible first | assumption | apply frm_modPart | apply frm_noteXlat | apply frm_raise | apply frm_issueReq | apply frm_freeBytes | apply frm_auditTake | apply Frm.ite | apply Frm.snd (by assumption) | fail_if_no_progress apply Frm.rest) | dsimp only | split

theorem frm_auditRead {fm : Nat} {r0 : State} {p tag : Nat} {bs : List Byte} {s : State} (hk : Frm fm r0 s) :
    Frm fm r0 (auditRead p tag bs s) := by
  unfold auditRead
  repeat' first | intro _ | (with_reducible first | assumption | apply frm_auditTake | apply Frm.ite | fail_if_no_progress apply Frm.rest) | dsimp only | split

theorem frm_enterBroken {fm : Nat} {r0 : State} {p : Nat} {tell : Bool} {s : State} (hk : Frm fm r0 s) :
    Frm fm r0 (enterBroken p tell s) := by
  unfold enterBroken
  repeat' first | intro _ | (with_reducible first | assumption | apply frm_modPart | apply frm_setPState | apply frm_sendToken | apply frm_settleArmed | apply frm_raise | apply Frm.ite | apply Frm.foldl | apply Frm.foldl2 | apply Frm.foldl3 | fail_if_no_progress apply Frm.rest) | dsimp only | split

theorem frm_localArrival {fm : Nat} {r0 : State} {p : Nat} {s : State} (hm : Sub 1 fm) (hk : Frm fm r0 s) :
    Frm fm r0 (localArrival p s) := by
  unfold localArrival
  repeat' first | intro _ | (with_reducible first | assumption | apply frm_emit | apply frm_modPart | apply frm_modSite | apply frm_traceAt | apply frm_sendHold | apply frm_setPState | apply frm_markFlag | apply frm_applyProof | apply frm_startSites | apply frm_tryArrive | apply frm_enterBroken | apply Frm.ite | apply Frm.foldl | apply Frm.foldl2 | apply Frm.foldl3 | fail_if_no_progress apply Frm.rest | exact Sub.trans (b := 1) rfl hm) | dsimp only | split

theorem frm_budgetEnd {fm : Nat} {r0 : State} {p : Nat} {s : State} (hm : Sub 1 fm) (hk : Frm fm r0 s) :
    Frm fm r0 (budgetEnd p s) := by
  unfold budgetEnd
  repeat' first | intro _ | (with_reducible first | assumption | apply frm_modPart | apply frm_tryArrive | apply Frm.ite | fail_if_no_progress apply Frm.rest | exact Sub.trans (b := 1) rfl hm) | dsimp only | split

theorem frm_resumeArrival {fm : Nat} {r0 : State} {p : Nat} {s : State} (hm : Sub 1 fm) (hk : Frm fm r0 s) :
    Frm fm r0 (resumeArrival p s) := by
  unfold resumeArrival
  repeat' first | intro _ | (with_reducible first | assumption | apply frm_tryArrive | apply Frm.ite | fail_if_no_progress apply Frm.rest | exact Sub.trans (b := 1) rfl hm) | dsimp only | split

theorem frm_localRelease {fm : Nat} {r0 : State} {p : Nat} {s : State} (hm : Sub 1 fm) (hk : Frm fm r0 s) :
    Frm fm r0 (localRelease p s) := by
  unfold localRelease
  repeat' first | intro _ | (with_reducible first | assumption | apply frm_refresh | apply frm_releaseNow | apply Frm.ite | fail_if_no_progress apply Frm.rest | exact Sub.trans (b := 1) rfl hm) | dsimp only | split

end Sys2Proof.Laws
end

