-- ==== Sys2Proof/Laws/FrameXfeOps.lean ====
section
/-! SUPPORT. What the operations of `Machine/XfeOps.lean` leave alone: one lemma each. -/
namespace Sys2Proof.Laws
open Sys2Proof Sys2Proof.Machine Sys2Proof.Safety
set_option linter.unreachableTactic false
set_option linter.unusedTactic false

theorem frm_noteSpot {fm : Nat} {r0 : State} {e ctx : Nat} {write : Bool} {p : Nat × Nat × XSpot} {s : State} (hk : Frm fm r0 s) :
    Frm fm r0 (noteSpot e ctx write p s) := by
  unfold noteSpot
  repeat' first | intro _ | (with_reducible first | assumption | apply frm_noteXlat | apply frm_noteHost | apply Frm.ite | fail_if_no_progress apply Frm.rest) | dsimp only | split

theorem frm_xRequest {fm : Nat} {r0 : State} {e : Nat} {d : XDesc} {write : Bool} {use : ReqUse} {p : Nat × Nat × XSpot} {data : List Byte} {poison : Bool} {s : State} (hk : Frm fm r0 s) :
    Frm fm r0 (xRequest e d write use p data poison s).2 := by
  unfold xRequest
  repeat' first | intro _ | (with_reducible first | assumption | apply frm_issueReq | apply frm_issueHostRead | apply frm_noteSpot | apply Frm.ite | apply Frm.snd (by assumption) | fail_if_no_progress apply Frm.rest) | dsimp only | split

theorem frm_xPost {fm : Nat} {r0 : State} {e : Nat} {d : XDesc} {p : Nat × Nat × XSpot} {data : List Byte} {poison : Bool} {s : State} (hk : Frm fm r0 s) :
    Frm fm r0 (xPost e d p data poison s).2 := by
  unfold xPost
  repeat' first | intro _ | (with_reducible first | assumption | apply frm_emit | apply frm_issueReq | apply frm_hostWriteNow | apply frm_noteSpot | apply Frm.ite | apply Frm.snd (by assumption) | apply Frm.opt (by assumption) | apply Frm.getD | apply FrmO.none | apply FrmO.some | apply FrmO.ite | fail_if_no_progress apply Frm.rest) | dsimp only | split

theorem frm_xReads {fm : Nat} {r0 : State} {e : Nat} {d : XDesc} {i : Nat} {ps : List (Nat × Nat × XSpot)} {s : State} (hk : Frm fm r0 s) :
    Frm fm r0 (xReads e d i ps s).2 := by
  unfold xReads
  repeat' first | intro _ | (with_reducible first | assumption | apply frm_xRequest | apply Frm.ite | apply Frm.foldl | apply Frm.foldl2 | apply Frm.foldl3 | fail_if_no_progress apply Frm.rest) | dsimp only | split

theorem frm_sendPageReqs {fm : Nat} {r0 : State} {s : State} (hk : Frm fm r0 s) :
    Frm fm r0 (sendPageReqs s) := by
  unfold sendPageReqs
  repeat' first | intro _ | (with_reducible first | assumption | apply frm_emit | apply frm_setXfe | apply Frm.ite | apply Frm.foldl | apply Frm.foldl2 | apply Frm.foldl3 | fail_if_no_progress apply Frm.rest) | dsimp only | split

theorem frm_pageFault {fm : Nat} {r0 : State} {e k dva iova : Nat} {s : State} (hk : Frm fm r0 s) :
    Frm fm r0 (pageFault e k dva iova s) := by
  unfold pageFault
  repeat' first | intro _ | (with_reducible first | assumption | apply frm_setXfe | apply frm_endAtElem | apply Frm.ite | fail_if_no_progress apply Frm.rest) | dsimp only | split

theorem frm_xBlocked {fm : Nat} {r0 : State} {e k : Nat} {fail : Option Nat} {p : XPlan} {s : State} (hk : Frm fm r0 s) :
    Frm fm r0 (xBlocked e k fail p s).2 := by
  unfold xBlocked
  repeat' first | intro _ | (with_reducible first | assumption | apply frm_noteXlat | apply frm_raise | apply frm_askAts | apply frm_endAtElem | apply frm_pageFault | apply Frm.ite | fail_if_no_progress apply Frm.rest) | dsimp only | split

theorem frm_delivered {fm : Nat} {r0 : State} {e k : Nat} {s : State} (hk : Frm fm r0 s) :
    Frm fm r0 (delivered e k s) := by
  unfold delivered
  repeat' first | intro _ | (with_reducible first | assumption | apply frm_setXfe | apply Frm.ite | fail_if_no_progress apply Frm.rest) | dsimp only | split

theorem frm_popUnits {fm : Nat} {r0 : State} : ∀ (a0 : Nat) {a1 : Nat} {a2 : State}, Frm fm r0 a2 → Frm fm r0 (popUnits a0 a1 a2) := by
  intro a0
  induction a0 with
  | zero =>
    intros
    unfold popUnits
    repeat' first | intro _ | (with_reducible first | assumption | apply frm_setXfe | apply frm_delivered | apply Frm.ite | fail_if_no_progress apply Frm.rest) | dsimp only | split
  | succ _ ih =>
    intros
    unfold popUnits
    repeat' first | intro _ | (with_reducible first | assumption | apply ih | apply frm_setXfe | apply frm_delivered | apply Frm.ite | fail_if_no_progress apply Frm.rest) | dsimp only | split

theorem frm_settle {fm : Nat} {r0 : State} {e : Nat} {s : State} (hk : Frm fm r0 s) :
    Frm fm r0 (settle e s) := by
  unfold settle
  repeat' first | intro _ | (with_reducible first | assumption | apply frm_popUnits | apply Frm.ite | fail_if_no_progress apply Frm.rest) | dsimp only | split

theorem frm_sealFail {fm : Nat} {r0 : State} {e k vi : Nat} {s : State} (hk : Frm fm r0 s) :
    Frm fm r0 (sealFail e k vi s) := by
  unfold sealFail
  repeat' first | intro _ | (with_reducible first | assumption | apply frm_raise | apply frm_viFault | apply frm_endAtElem | apply Frm.ite | fail_if_no_progress apply Frm.rest) | dsimp only | split

theorem frm_openFetched {fm : Nat} {r0 : State} {e : Nat} {s : State} (hk : Frm fm r0 s) :
    Frm fm r0 (openFetched e s) := by
  unfold openFetched
  repeat' first | intro _ | (with_reducible first | assumption | apply frm_setXfe | apply frm_setSeal | apply frm_sealFail | apply Frm.ite | fail_if_no_progress apply Frm.rest) | dsimp only | split

theorem frm_openRecord {fm : Nat} {r0 : State} {e : Nat} {s : State} (hk : Frm fm r0 s) :
    Frm fm r0 (openRecord e s) := by
  unfold openRecord
  repeat' first | intro _ | (with_reducible first | assumption | apply frm_slotCheck | apply frm_openFetched | apply Frm.ite | apply Frm.snd (by assumption) | fail_if_no_progress apply Frm.rest) | dsimp only | split

theorem frm_sendRecord {fm : Nat} {r0 : State} {e : Nat} {fail : Option Nat} {s : State} (hk : Frm fm r0 s) :
    Frm fm r0 (sendRecord e fail s).2 := by
  unfold sendRecord
  repeat' first | intro _ | (with_reducible first | assumption | apply frm_setXfe | apply frm_setSeal | apply frm_endAtElem | apply frm_slotCheck | apply frm_xPost | apply frm_xBlocked | apply frm_delivered | apply Frm.ite | apply Frm.foldl | apply Frm.foldl2 | apply Frm.foldl3 | apply Frm.snd (by assumption) | fail_if_no_progress apply Frm.rest) | dsimp only | split

theorem frm_xWrites {fm : Nat} {r0 : State} {e : Nat} {d : XDesc} {u : XUnit} {base : Nat} {bs : List Byte} {scale poison : Bool} {ps : List (Nat × Nat × XSpot)} {s : State} (hk : Frm fm r0 s) :
    Frm fm r0 (xWrites e d u base bs scale poison ps s).2 := by
  unfold xWrites
  repeat' first | intro _ | (with_reducible first | assumption | apply frm_xRequest | apply frm_xPost | apply Frm.ite | apply Frm.foldl | apply Frm.foldl2 | apply Frm.foldl3 | apply Frm.snd (by assumption) | fail_if_no_progress apply Frm.rest) | dsimp only | split

theorem frm_tryWrite {fm : Nat} {r0 : State} {e : Nat} {fail : Option Nat} {s : State} (hk : Frm fm r0 s) :
    Frm fm r0 (tryWrite e fail s).2 := by
  unfold tryWrite
  repeat' first | intro _ | (with_reducible first | assumption | apply frm_setXfe | apply frm_xBlocked | apply frm_settle | apply frm_xWrites | apply Frm.ite | apply Frm.snd (by assumption) | fail_if_no_progress apply Frm.rest) | dsimp only | split

theorem frm_tryFetch {fm : Nat} {r0 : State} {e : Nat} {fail : Option Nat} {s : State} (hk : Frm fm r0 s) :
    Frm fm r0 (tryFetch e fail s).2 := by
  unfold tryFetch
  repeat' first | intro _ | (with_reducible first | assumption | apply frm_setXfe | apply frm_xReads | apply frm_xBlocked | apply Frm.ite | apply Frm.snd (by assumption) | fail_if_no_progress apply Frm.rest) | dsimp only | split

theorem frm_tryRead {fm : Nat} {r0 : State} {e : Nat} {fail : Option Nat} {s : State} (hk : Frm fm r0 s) :
    Frm fm r0 (tryRead e fail s).2 := by
  unfold tryRead
  repeat' first | intro _ | (with_reducible first | assumption | apply frm_setXfe | apply frm_xReads | apply frm_xBlocked | apply frm_tryFetch | apply Frm.ite | apply Frm.snd (by assumption) | fail_if_no_progress apply Frm.rest) | dsimp only | split

theorem frm_pumpN {fm : Nat} {r0 : State} : ∀ (a0 : Nat) {a1 : Nat} {a2 : Option Nat} {a3 : State}, Frm fm r0 a3 → Frm fm r0 (pumpN a0 a1 a2 a3) := by
  intro a0
  induction a0 with
  | zero =>
    intros
    unfold pumpN
    repeat' first | intro _ | (with_reducible first | assumption | apply frm_sendRecord | apply frm_tryWrite | apply frm_tryRead | apply Frm.ite | fail_if_no_progress apply Frm.rest) | dsimp only | split
  | succ _ ih =>
    intros
    unfold pumpN
    repeat' first | intro _ | (with_reducible first | assumption | apply ih | apply frm_sendRecord | apply frm_tryWrite | apply frm_tryRead | apply Frm.ite | fail_if_no_progress apply Frm.rest) | dsimp only | split

theorem frm_pumpXfe {fm : Nat} {r0 : State} {e : Nat} {fail : Option Nat} {s : State} (hk : Frm fm r0 s) :
    Frm fm r0 (pumpXfe e fail s) := by
  unfold pumpXfe
  repeat' first | intro _ | (with_reducible first | assumption | apply frm_sendPageReqs | apply frm_pumpN | apply Frm.ite | fail_if_no_progress apply Frm.rest) | dsimp only | split

theorem frm_pumpAll {fm : Nat} {r0 : State} {s : State} (hk : Frm fm r0 s) :
    Frm fm r0 (pumpAll s) := by
  unfold pumpAll
  repeat' first | intro _ | (with_reducible first | assumption | apply frm_pumpXfe | apply Frm.ite | apply Frm.foldl | apply Frm.foldl2 | apply Frm.foldl3 | fail_if_no_progress apply Frm.rest) | dsimp only | split

theorem frm_xfeRead {fm : Nat} {r0 : State} {e tag : Nat} {bs : List Byte} {poison : Bool} {s : State} (hk : Frm fm r0 s) :
    Frm fm r0 (xfeRead e tag bs poison s) := by
  unfold xfeRead
  repeat' first | intro _ | (with_reducible first | assumption | apply frm_setXfe | apply frm_markFlag | apply frm_raise | apply frm_checkEcc | apply frm_openRecord | apply frm_pumpXfe | apply Frm.ite | apply Frm.snd (by assumption) | fail_if_no_progress apply Frm.rest) | dsimp only | split

theorem frm_xfeWrote {fm : Nat} {r0 : State} {e tag : Nat} {refused : Bool} {s : State} (hk : Frm fm r0 s) :
    Frm fm r0 (xfeWrote e tag refused s) := by
  unfold xfeWrote
  repeat' first | intro _ | (with_reducible first | assumption | apply frm_setXfe | apply frm_settle | apply frm_pumpXfe | apply Frm.ite | fail_if_no_progress apply Frm.rest) | dsimp only | split

theorem frm_xfePosted {fm : Nat} {r0 : State} {e tag : Nat} {s : State} (hk : Frm fm r0 s) :
    Frm fm r0 (xfePosted e tag s) := by
  unfold xfePosted
  repeat' first | intro _ | (with_reducible first | assumption | apply frm_setXfe | apply frm_pumpXfe | apply frm_xfeWrote | apply Frm.ite | fail_if_no_progress apply Frm.rest) | dsimp only | split

theorem frm_xfeReadFailed {fm : Nat} {r0 : State} {e tag : Nat} {s : State} (hk : Frm fm r0 s) :
    Frm fm r0 (xfeReadFailed e tag s) := by
  unfold xfeReadFailed
  repeat' first | intro _ | (with_reducible first | assumption | apply frm_setXfe | apply frm_endAtElem | apply frm_pumpXfe | apply Frm.ite | fail_if_no_progress apply Frm.rest) | dsimp only | split

theorem frm_nextDesc {fm : Nat} {r0 : State} {e : Nat} {s : State} (hk : Frm fm r0 s) :
    Frm fm r0 (nextDesc e s) := by
  unfold nextDesc
  repeat' first | intro _ | (with_reducible first | assumption | apply frm_setXfe | apply frm_fenceXfe | apply Frm.ite | fail_if_no_progress apply Frm.rest) | dsimp only | split

theorem frm_finishDesc {fm : Nat} {r0 : State} {e : Nat} {c : XCur} {st : Status} {s : State} (hk : Frm fm r0 s) :
    Frm fm r0 (finishDesc e c st s) := by
  unfold finishDesc
  repeat' first | intro _ | (with_reducible first | assumption | apply frm_setXfe | apply frm_traceAt | apply frm_markFlag | apply frm_raise | apply frm_endCommand | apply frm_nextDesc | apply Frm.ite | fail_if_no_progress apply Frm.rest) | dsimp only | split

end Sys2Proof.Laws
end

