-- ==== Sys2Proof/Laws/FrameHostOps.lean ====
section
/-! SUPPORT. What the operations of `Machine/HostOps.lean` leave alone: one lemma each. -/
namespace Sys2Proof.Laws
open Sys2Proof Sys2Proof.Machine Sys2Proof.Safety
set_option linter.unreachableTactic false
set_option linter.unusedTactic false

theorem frm_runCommand {fm : Nat} {r0 : State} {p v tag : Nat} {r : BitVec 512} {s : State} (hk : Frm fm r0 s) :
    Frm fm r0 (runCommand p v tag r s) := by
  unfold runCommand
  repeat' first | intro _ | (with_reducible first | assumption | apply frm_modVi | apply frm_raise | apply frm_endCommand | apply frm_endUnrun | apply frm_passDesc | apply Frm.ite | fail_if_no_progress apply Frm.rest) | dsimp only | split

theorem frm_deliverRecord {fm : Nat} {r0 : State} {p v : Nat} {s : State} (hk : Frm fm r0 s) :
    Frm fm r0 (deliverRecord p v s) := by
  unfold deliverRecord
  repeat' first | intro _ | (with_reducible first | assumption | apply frm_setVi | apply frm_setSeal | apply frm_raise | apply frm_viFault | apply frm_endCommand | apply frm_slotCheck | apply frm_runCommand | apply Frm.ite | apply Frm.snd (by assumption) | fail_if_no_progress apply Frm.rest) | dsimp only | split

theorem frm_deliverN {fm : Nat} {r0 : State} : ∀ (a0 : Nat) {a1 : Nat} {a2 : Nat} {a3 : State}, Frm fm r0 a3 → Frm fm r0 (deliverN a0 a1 a2 a3) := by
  intro a0
  induction a0 with
  | zero =>
    intros
    unfold deliverN
    repeat' first | intro _ | (with_reducible first | assumption | apply frm_deliverRecord | apply Frm.ite | fail_if_no_progress apply Frm.rest) | dsimp only | split
  | succ _ ih =>
    intros
    unfold deliverN
    repeat' first | intro _ | (with_reducible first | assumption | apply ih | apply frm_deliverRecord | apply Frm.ite | fail_if_no_progress apply Frm.rest) | dsimp only | split

theorem frm_ringFault {fm : Nat} {r0 : State} {e v dva iova : Nat} {s : State} (hk : Frm fm r0 s) :
    Frm fm r0 (ringFault e v dva iova s) := by
  unfold ringFault
  repeat' first | intro _ | (with_reducible first | assumption | apply frm_setXfe | apply frm_raise | apply frm_requestQuiesce | apply frm_sendPageReqs | apply Frm.ite | fail_if_no_progress apply Frm.rest) | dsimp only | split

theorem frm_ringRead {fm : Nat} {r0 : State} {p v : Nat} {fail : Option Nat} {s : State} (hk : Frm fm r0 s) :
    Frm fm r0 (ringRead p v fail s) := by
  unfold ringRead
  repeat' first | intro _ | (with_reducible first | assumption | apply frm_modVi | apply frm_noteHost | apply frm_issueHostRead | apply frm_askAts | apply frm_ringDenied | apply frm_ringFault | apply Frm.ite | apply Frm.foldl | apply Frm.foldl2 | apply Frm.foldl3 | apply Frm.snd (by assumption) | fail_if_no_progress apply Frm.rest) | dsimp only | split

theorem frm_closeReq {fm : Nat} {r0 : State} {tag : Nat} {s : State} (hk : Frm fm r0 s) :
    Frm fm r0 (closeReq tag s) := by
  unfold closeReq
  repeat' first | intro _ | (with_reducible first | assumption | apply frm_completeStats | apply Frm.ite | fail_if_no_progress apply Frm.rest) | dsimp only | split

theorem frm_ringWhole {fm : Nat} {r0 : State} {v : Nat} {r : RingRead} {s : State} (hk : Frm fm r0 s) :
    Frm fm r0 (ringWhole v r s) := by
  unfold ringWhole
  repeat' first | intro _ | (with_reducible first | assumption | apply frm_setVi | apply Frm.ite | fail_if_no_progress apply Frm.rest) | dsimp only | split

theorem frm_ringReturned {fm : Nat} {r0 : State} {v tag : Nat} {ok poison : Bool} {word : BitVec 512} {s : State} (hk : Frm fm r0 s) :
    Frm fm r0 (ringReturned v tag ok poison word s) := by
  unfold ringReturned
  repeat' first | intro _ | (with_reducible first | assumption | apply frm_setVi | apply frm_raise | apply frm_requestQuiesce | apply frm_closeReq | apply frm_ringWhole | apply Frm.ite | fail_if_no_progress apply Frm.rest) | dsimp only | split

theorem frm_ringRetry {fm : Nat} {r0 : State} {e : Nat} {fail : Option (Nat × Nat)} {s : State} (hk : Frm fm r0 s) :
    Frm fm r0 (ringRetry e fail s) := by
  unfold ringRetry
  repeat' first | intro _ | (with_reducible first | assumption | apply frm_deliverHeld | apply frm_ringFault | apply frm_ringRead | apply Frm.ite | apply Frm.foldl | apply Frm.foldl2 | apply Frm.foldl3 | fail_if_no_progress apply Frm.rest) | dsimp only | split

theorem frm_ringRetryAll {fm : Nat} {r0 : State} {s : State} (hk : Frm fm r0 s) :
    Frm fm r0 (ringRetryAll s) := by
  unfold ringRetryAll
  repeat' first | intro _ | (with_reducible first | assumption | apply frm_ringRead | apply Frm.ite | apply Frm.foldl | apply Frm.foldl2 | apply Frm.foldl3 | fail_if_no_progress apply Frm.rest) | dsimp only | split

theorem frm_abortFetch {fm : Nat} {r0 : State} {s : State} (hm : Sub 24578 fm) (hk : Frm fm r0 s) :
    Frm fm r0 (abortFetch s) := by
  unfold abortFetch
  repeat' first | intro _ | (with_reducible first | assumption | apply frm_mbEnd | apply frm_dropWindow | apply Frm.ite | fail_if_no_progress apply Frm.rest | exact Sub.trans (b := 24578) rfl hm) | dsimp only | split | (with_reducible first | apply Frm.ch13)

theorem frm_stopDma {fm : Nat} {r0 : State} {reason : Nat} {s : State} (hm : Sub 24578 fm) (hk : Frm fm r0 s) :
    Frm fm r0 (stopDma reason s) := by
  unfold stopDma
  repeat' first | intro _ | (with_reducible first | assumption | apply frm_setXfe | apply frm_markFlag | apply frm_raise | apply frm_endEarly | apply frm_settle | apply frm_abortFetch | apply Frm.ite | apply Frm.foldl | apply Frm.foldl2 | apply Frm.foldl3 | fail_if_no_progress apply Frm.rest | exact Sub.trans (b := 24578) rfl hm) | dsimp only | split

theorem frm_resetHostIsland {fm : Nat} {r0 : State} {s : State} (hm : Sub 4098 fm) (hk : Frm fm r0 s) :
    Frm fm r0 (resetHostIsland s) := by
  unfold resetHostIsland
  repeat' first | intro _ | (with_reducible first | assumption | apply frm_xlDrop | apply frm_quiesceVi | apply Frm.ite | apply Frm.foldl | apply Frm.foldl2 | apply Frm.foldl3 | fail_if_no_progress apply Frm.rest | exact Sub.trans (b := 4098) rfl hm) | dsimp only | split | (with_reducible first | apply Frm.ch1 | apply Frm.ch12)
  apply hk.step <;> first | exact .inl (hm.bit rfl) | exact .inr (List.Sublist.refl _) | exact .inr (List.nil_sublist _) | exact .inr rfl | exact .inr ⟨rfl, rfl⟩ | exact .inr ⟨rfl, rfl, rfl⟩ | exact .inr ⟨rfl, rfl, rfl, rfl⟩ | exact .inr ⟨rfl, rfl, rfl, rfl, rfl, rfl, rfl⟩

end Sys2Proof.Laws
end

