-- ==== Sys2Proof/Laws/FrameLinkOps.lean ====
section
/-! SUPPORT. What the operations of `Machine/LinkOps.lean` leave alone: one lemma each. -/
namespace Sys2Proof.Laws
open Sys2Proof Sys2Proof.Machine Sys2Proof.Safety
set_option linter.unreachableTactic false
set_option linter.unusedTactic false

theorem frm_transmit {fm : Nat} {r0 : State} {n : Nat} {again : Bool} {sl : Slot} {s : State} (hk : Frm fm r0 s) :
    Frm fm r0 (transmit n again sl s) := by
  unfold transmit
  repeat' first | intro _ | (with_reducible first | assumption | apply frm_drawFree | apply frm_emit | apply frm_setPort | apply frm_setCunit | apply frm_traceAt | apply Frm.ite | fail_if_no_progress apply Frm.rest) | dsimp only | split

theorem frm_drainTxN {fm : Nat} {r0 : State} : ∀ (a0 : Nat) {a1 : Nat} {a2 : State}, Frm fm r0 a2 → Frm fm r0 (drainTxN a0 a1 a2) := by
  intro a0
  induction a0 with
  | zero =>
    intros
    unfold drainTxN
    repeat' first | intro _ | (with_reducible first | assumption | apply frm_setPort | apply frm_transmit | apply Frm.ite | fail_if_no_progress apply Frm.rest) | dsimp only | split
  | succ _ ih =>
    intros
    unfold drainTxN
    repeat' first | intro _ | (with_reducible first | assumption | apply ih | apply frm_setPort | apply frm_transmit | apply Frm.ite | fail_if_no_progress apply Frm.rest) | dsimp only | split

theorem frm_drainTx {fm : Nat} {r0 : State} {n : Nat} {s : State} (hk : Frm fm r0 s) :
    Frm fm r0 (drainTx n s) := by
  unfold drainTx
  repeat' first | intro _ | (with_reducible first | assumption | apply frm_drainTxN | apply Frm.ite | fail_if_no_progress apply Frm.rest) | dsimp only | split

theorem frm_sendSlot {fm : Nat} {r0 : State} {n : Nat} {sl : Slot} {s : State} (hk : Frm fm r0 s) :
    Frm fm r0 (sendSlot n sl s) := by
  unfold sendSlot
  repeat' first | intro _ | (with_reducible first | assumption | apply frm_setPort | apply frm_drainTx | apply Frm.ite | fail_if_no_progress apply Frm.rest) | dsimp only | split

theorem frm_refreshMirrors {fm : Nat} {r0 : State} {s : State} (hk : Frm fm r0 s) :
    Frm fm r0 (refreshMirrors s) := by
  unfold refreshMirrors
  repeat' first | intro _ | (with_reducible first | assumption | apply Frm.ite | apply Frm.foldl | apply Frm.foldl2 | apply Frm.foldl3 | fail_if_no_progress apply Frm.rest) | dsimp only | split

theorem frm_setLink {fm : Nat} {r0 : State} {n : Nat} {st : PortState} {s : State} (hk : Frm fm r0 s) :
    Frm fm r0 (setLink n st s) := by
  unfold setLink
  repeat' first | intro _ | (with_reducible first | assumption | apply frm_setPort | apply frm_traceAt | apply frm_refreshMirrors | apply Frm.ite | fail_if_no_progress apply Frm.rest) | dsimp only | split

end Sys2Proof.Laws
end

