-- ==== Sys2Proof/Laws/FrameColOps.lean ====
section
/-! SUPPORT. What the operations of `Machine/ColOps.lean` leave alone: one lemma each. -/
namespace Sys2Proof.Laws
open Sys2Proof Sys2Proof.Machine Sys2Proof.Safety
set_option linter.unreachableTactic false
set_option linter.unusedTactic false

theorem frm_modOp {fm : Nat} {r0 : State} {c : Nat} {f : COp → COp} {s : State} (hk : Frm fm r0 s) :
    Frm fm r0 (modOp c f s) := by
  unfold modOp
  repeat' first | intro _ | (with_reducible first | assumption | apply frm_setCunit | apply Frm.ite | fail_if_no_progress apply Frm.rest) | dsimp only | split

theorem frm_collRequest {fm : Nat} {r0 : State} {c : Nat} {who : Initiator} {o : COp} {write : Bool} {dva len : Nat} {data : List Byte} {poison : Bool} {s : State} (hk : Frm fm r0 s) :
    Frm fm r0 (collRequest c who o write dva len data poison s).2 := by
  unfold collRequest
  repeat' first | intro _ | (with_reducible first | assumption | apply frm_noteXlat | apply frm_raise | apply frm_issueReq | apply Frm.ite | apply Frm.snd (by assumption) | fail_if_no_progress apply Frm.rest) | dsimp only | split

theorem frm_collWrite {fm : Nat} {r0 : State} {c : Nat} {who : Initiator} {dva : Nat} {bs : List Byte} {poison : Bool} {seg : Option (Nat × Nat)} {s : State} (hk : Frm fm r0 s) :
    Frm fm r0 (collWrite c who dva bs poison seg s) := by
  unfold collWrite
  repeat' first | intro _ | (with_reducible first | assumption | apply frm_modOp | apply frm_collRequest | apply Frm.ite | apply Frm.snd (by assumption) | fail_if_no_progress apply Frm.rest) | dsimp only | split

theorem frm_writeFin {fm : Nat} {r0 : State} {c : Nat} {q : CRound} {got : COp} {s : State} (hk : Frm fm r0 s) :
    Frm fm r0 (writeFin c q got s) := by
  unfold writeFin
  repeat' first | intro _ | (with_reducible first | assumption | apply frm_collWrite | apply Frm.ite | apply Frm.foldl | apply Frm.foldl2 | apply Frm.foldl3 | fail_if_no_progress apply Frm.rest) | dsimp only | split

theorem frm_queueSlot {fm : Nat} {r0 : State} {c n phase : Nat} {bs : List Byte} {poison : Nat} {s : State} (hk : Frm fm r0 s) :
    Frm fm r0 (queueSlot c n phase bs poison s) := by
  unfold queueSlot
  repeat' first | intro _ | (with_reducible first | assumption | apply frm_setCunit | apply frm_sendSlot | apply Frm.ite | fail_if_no_progress apply Frm.rest) | dsimp only | split

theorem frm_sendRound {fm : Nat} {r0 : State} {c : Nat} {r : CRound} {s : State} (hk : Frm fm r0 s) :
    Frm fm r0 (sendRound c r s) := by
  unfold sendRound
  repeat' first | intro _ | (with_reducible first | assumption | apply frm_queueSlot | apply Frm.ite | apply Frm.foldl | apply Frm.foldl2 | apply Frm.foldl3 | fail_if_no_progress apply Frm.rest) | dsimp only | split

theorem frm_dropOpSlots {fm : Nat} {r0 : State} {c part step : Nat} {s : State} (hk : Frm fm r0 s) :
    Frm fm r0 (dropOpSlots c part step s) := by
  unfold dropOpSlots
  repeat' first | intro _ | (with_reducible first | assumption | apply frm_setPort | apply frm_sendCredit | apply Frm.ite | apply Frm.foldl | apply Frm.foldl2 | apply Frm.foldl3 | fail_if_no_progress apply Frm.rest) | dsimp only | split

theorem frm_abortOp {fm : Nat} {r0 : State} {c : Nat} {s : State} (hk : Frm fm r0 s) :
    Frm fm r0 (abortOp c s) := by
  unfold abortOp
  repeat' first | intro _ | (with_reducible first | assumption | apply frm_setCunit | apply frm_traceAt | apply frm_sendAborts | apply frm_dropOpSlots | apply Frm.ite | fail_if_no_progress apply Frm.rest) | dsimp only | split

theorem frm_endOp {fm : Nat} {r0 : State} {c : Nat} {s : State} (hk : Frm fm r0 s) :
    Frm fm r0 (endOp c s) := by
  unfold endOp
  repeat' first | intro _ | (with_reducible first | assumption | apply frm_setCunit | apply frm_traceAt | apply Frm.ite | fail_if_no_progress apply Frm.rest) | dsimp only | split

theorem frm_setRun {fm : Nat} {r0 : State} {c : Nat} {r : CRun} {s : State} (hk : Frm fm r0 s) :
    Frm fm r0 (setRun c r s) := by
  unfold setRun
  repeat' first | intro _ | (with_reducible first | assumption | apply frm_setCunit | apply frm_traceAt | apply Frm.ite | fail_if_no_progress apply Frm.rest) | dsimp only | split

theorem frm_enterRound {fm : Nat} {r0 : State} {c : Nat} {r : CRound} {s : State} (hk : Frm fm r0 s) :
    Frm fm r0 (enterRound c r s) := by
  unfold enterRound
  repeat' first | intro _ | (with_reducible first | assumption | apply frm_setCunit | apply frm_raise | apply frm_modOp | apply frm_sendRound | apply frm_abortOp | apply frm_setRun | apply Frm.ite | apply Frm.foldl | apply Frm.foldl2 | apply Frm.foldl3 | fail_if_no_progress apply Frm.rest) | dsimp only | split

theorem frm_takePortN {fm : Nat} {r0 : State} : ∀ (a0 : Nat) {a1 : Nat} {a2 : CRound} {a3 : Nat} {a4 : State}, Frm fm r0 a4 → Frm fm r0 (takePortN a0 a1 a2 a3 a4) := by
  intro a0
  induction a0 with
  | zero =>
    intros
    unfold takePortN
    repeat' first | intro _ | (with_reducible first | assumption | apply frm_setPort | apply frm_sendCredit | apply frm_raise | apply frm_checkEcc | apply frm_modOp | apply frm_abortOp | apply Frm.ite | apply Frm.snd (by assumption) | fail_if_no_progress apply Frm.rest) | dsimp only | split
  | succ _ ih =>
    intros
    unfold takePortN
    repeat' first | intro _ | (with_reducible first | assumption | apply ih | apply frm_setPort | apply frm_sendCredit | apply frm_raise | apply frm_checkEcc | apply frm_modOp | apply frm_abortOp | apply Frm.ite | apply Frm.snd (by assumption) | fail_if_no_progress apply Frm.rest) | dsimp only | split

theorem frm_takeSlots {fm : Nat} {r0 : State} {c : Nat} {r : CRound} {s : State} (hk : Frm fm r0 s) :
    Frm fm r0 (takeSlots c r s) := by
  unfold takeSlots
  repeat' first | intro _ | (with_reducible first | assumption | apply frm_takePortN | apply Frm.ite | apply Frm.foldl | apply Frm.foldl2 | apply Frm.foldl3 | fail_if_no_progress apply Frm.rest) | dsimp only | split

theorem frm_finishRound {fm : Nat} {r0 : State} {c : Nat} {r : CRound} {s : State} (hk : Frm fm r0 s) :
    Frm fm r0 (finishRound c r s) := by
  unfold finishRound
  repeat' first | intro _ | (with_reducible first | assumption | apply frm_raise | apply frm_modOp | apply frm_writeFin | apply frm_abortOp | apply Frm.ite | fail_if_no_progress apply Frm.rest) | dsimp only | split

theorem frm_runOpN {fm : Nat} {r0 : State} : ∀ (a0 : Nat) {a1 : Nat} {a2 : State}, Frm fm r0 a2 → Frm fm r0 (runOpN a0 a1 a2) := by
  intro a0
  induction a0 with
  | zero =>
    intros
    unfold runOpN
    repeat' first | intro _ | (with_reducible first | assumption | apply frm_endOp | apply frm_enterRound | apply frm_takeSlots | apply frm_finishRound | apply Frm.ite | fail_if_no_progress apply Frm.rest) | dsimp only | split
  | succ _ ih =>
    intros
    unfold runOpN
    repeat' first | intro _ | (with_reducible first | assumption | apply ih | apply frm_endOp | apply frm_enterRound | apply frm_takeSlots | apply frm_finishRound | apply Frm.ite | fail_if_no_progress apply Frm.rest) | dsimp only | split

theorem frm_pumpCol {fm : Nat} {r0 : State} {c : Nat} {s : State} (hk : Frm fm r0 s) :
    Frm fm r0 (pumpCol c s) := by
  unfold pumpCol
  repeat' first | intro _ | (with_reducible first | assumption | apply frm_runOpN | apply Frm.ite | fail_if_no_progress apply Frm.rest) | dsimp only | split

theorem frm_readSource {fm : Nat} {r0 : State} {c : Nat} {o : COp} {s : State} (hk : Frm fm r0 s) :
    Frm fm r0 (readSource c o s).2.2 := by
  unfold readSource
  repeat' first | intro _ | (with_reducible first | assumption | apply frm_freeBytes | apply frm_collRequest | apply Frm.ite | apply Frm.foldl | apply Frm.foldl2 | apply Frm.foldl3 | apply Frm.snd (by assumption) | fail_if_no_progress apply Frm.rest) | dsimp only | split

theorem frm_writeExps {fm : Nat} {r0 : State} {c : Nat} {s : State} (hk : Frm fm r0 s) :
    Frm fm r0 (writeExps c s) := by
  unfold writeExps
  repeat' first | intro _ | (with_reducible first | assumption | apply frm_collWrite | apply Frm.ite | apply Frm.foldl | apply Frm.foldl2 | apply Frm.foldl3 | fail_if_no_progress apply Frm.rest) | dsimp only | split

theorem frm_loadOp {fm : Nat} {r0 : State} {c : Nat} {s : State} (hk : Frm fm r0 s) :
    Frm fm r0 (loadOp c s) := by
  unfold loadOp
  repeat' first | intro _ | (with_reducible first | assumption | apply frm_setCunit | apply frm_endOp | apply frm_enterRound | apply frm_runOpN | apply frm_writeExps | apply Frm.ite | apply Frm.foldl | apply Frm.foldl2 | apply Frm.foldl3 | fail_if_no_progress apply Frm.rest) | dsimp only | split

theorem frm_loadIfReady {fm : Nat} {r0 : State} {c : Nat} {s : State} (hk : Frm fm r0 s) :
    Frm fm r0 (loadIfReady c s) := by
  unfold loadIfReady
  repeat' first | intro _ | (with_reducible first | assumption | apply frm_loadOp | apply Frm.ite | fail_if_no_progress apply Frm.rest) | dsimp only | split

theorem frm_startOp {fm : Nat} {r0 : State} {c : Nat} {s : State} (hk : Frm fm r0 s) :
    Frm fm r0 (startOp c s) := by
  unfold startOp
  repeat' first | intro _ | (with_reducible first | assumption | apply frm_modOp | apply frm_setRun | apply frm_readSource | apply frm_loadIfReady | apply Frm.ite | apply Frm.snd (by assumption) | fail_if_no_progress apply Frm.rest) | dsimp only | split

theorem frm_collRead {fm : Nat} {r0 : State} {c tag : Nat} {bs : List Byte} {poison refused : Bool} {s : State} (hk : Frm fm r0 s) :
    Frm fm r0 (collRead c tag bs poison refused s) := by
  unfold collRead
  repeat' first | intro _ | (with_reducible first | assumption | apply frm_raise | apply frm_checkEcc | apply frm_modOp | apply frm_loadIfReady | apply Frm.ite | apply Frm.snd (by assumption) | fail_if_no_progress apply Frm.rest) | dsimp only | split

theorem frm_collWrote {fm : Nat} {r0 : State} {c tag : Nat} {refused : Bool} {s : State} (hk : Frm fm r0 s) :
    Frm fm r0 (collWrote c tag refused s) := by
  unfold collWrote
  repeat' first | intro _ | (with_reducible first | assumption | apply frm_setCunit | apply Frm.ite | fail_if_no_progress apply Frm.rest) | dsimp only | split

theorem frm_stallTick {fm : Nat} {r0 : State} {s : State} (hk : Frm fm r0 s) :
    Frm fm r0 (stallTick s) := by
  unfold stallTick
  repeat' first | intro _ | (with_reducible first | assumption | apply frm_setCunit | apply Frm.ite | apply Frm.foldl | apply Frm.foldl2 | apply Frm.foldl3 | fail_if_no_progress apply Frm.rest) | dsimp only | split

theorem frm_rerouteOp {fm : Nat} {r0 : State} {c n : Nat} {lost : List Slot} {s : State} (hk : Frm fm r0 s) :
    Frm fm r0 (rerouteOp c n lost s) := by
  unfold rerouteOp
  repeat' first | intro _ | (with_reducible first | assumption | apply frm_setCunit | apply frm_modOp | apply frm_queueSlot | apply frm_abortOp | apply frm_pumpCol | apply Frm.ite | apply Frm.foldl | apply Frm.foldl2 | apply Frm.foldl3 | fail_if_no_progress apply Frm.rest) | dsimp only | split

theorem frm_failPort {fm : Nat} {r0 : State} {n : Nat} {peer : Bool} {s : State} (hk : Frm fm r0 s) :
    Frm fm r0 (failPort n peer s) := by
  unfold failPort
  repeat' first | intro _ | (with_reducible first | assumption | apply frm_setPort | apply frm_markFence | apply frm_fencePort | apply frm_raise | apply frm_refreshMirrors | apply frm_rerouteOp | apply Frm.ite | apply Frm.foldl | apply Frm.foldl2 | apply Frm.foldl3 | fail_if_no_progress apply Frm.rest) | dsimp only | split

end Sys2Proof.Laws
end

