-- ==== Sys2Proof/Laws/FrameXfe.lean ====
section
/-! SUPPORT. What the operations of `Machine/Xfe.lean` leave alone: one lemma each. -/
namespace Sys2Proof.Laws
open Sys2Proof Sys2Proof.Machine Sys2Proof.Safety
set_option linter.unreachableTactic false
set_option linter.unusedTactic false

theorem frm_xfeDescArrive {fm : Nat} {r0 : State} {e : Nat} {s : State} (hk : Frm fm r0 s) :
    Frm fm r0 (xfeDescArrive e s) := by
  unfold xfeDescArrive
  repeat' first | intro _ | (with_reducible first | assumption | apply frm_setXfe | apply frm_endUnrun | apply frm_nextDesc | apply Frm.ite | fail_if_no_progress apply Frm.rest) | dsimp only | split

theorem frm_xfeWaitSatisfied {fm : Nat} {r0 : State} {e : Nat} {s : State} (hk : Frm fm r0 s) :
    Frm fm r0 (xfeWaitSatisfied e s) := by
  unfold xfeWaitSatisfied
  repeat' first | intro _ | (with_reducible first | assumption | apply frm_setXfe | apply frm_traceAt | apply frm_markFlag | apply frm_raise | apply frm_checkEcc | apply frm_endAtElem | apply frm_pumpXfe | apply frm_finishDesc | apply Frm.ite | apply Frm.snd (by assumption) | fail_if_no_progress apply Frm.rest) | dsimp only | split

theorem frm_writeComp {fm : Nat} {r0 : State} {e : Nat} {c : XCur} {st : Status} {s : State} (hm : Sub 1 fm) (hk : Frm fm r0 s) :
    FrmO fm r0 (writeComp e c st s) := by
  unfold writeComp
  repeat' first | intro _ | (with_reducible first | assumption | apply frm_raise | apply frm_hostWriteNow | apply frm_dvaWrite | apply frm_xPost | apply Frm.ite | apply Frm.foldl | apply Frm.foldl2 | apply Frm.foldl3 | apply Frm.snd (by assumption) | apply Frm.opt (by assumption) | apply Frm.getD | apply FrmO.none | apply FrmO.some | apply FrmO.ite | exact Frm.ofO (by assumption) | fail_if_no_progress apply Frm.rest | exact Sub.trans (b := 1) rfl hm) | dsimp only | split

theorem frm_xfeComplete {fm : Nat} {r0 : State} {e : Nat} {s : State} (hm : Sub 1 fm) (hk : Frm fm r0 s) :
    Frm fm r0 (xfeComplete e s) := by
  unfold xfeComplete
  repeat' first | intro _ | (with_reducible first | assumption | apply frm_askAts | apply frm_finishDesc | apply frm_writeComp | apply Frm.ite | apply Frm.opt (by assumption) | apply Frm.getD | apply FrmO.none | apply FrmO.some | apply FrmO.ite | fail_if_no_progress apply Frm.rest | exact Sub.trans (b := 1) rfl hm) | dsimp only | split

theorem frm_xfeAbort {fm : Nat} {r0 : State} {e : Nat} {s : State} (hk : Frm fm r0 s) :
    Frm fm r0 (xfeAbort e s) := by
  unfold xfeAbort
  repeat' first | intro _ | (with_reducible first | assumption | apply frm_endEarly | apply Frm.ite | fail_if_no_progress apply Frm.rest) | dsimp only | split

theorem frm_xfeReadmit {fm : Nat} {r0 : State} {e : Nat} {s : State} (hk : Frm fm r0 s) :
    Frm fm r0 (xfeReadmit e s) := by
  unfold xfeReadmit
  repeat' first | intro _ | (with_reducible first | assumption | apply frm_requestXfeReadmit | apply frm_refuseWrite | apply Frm.ite | fail_if_no_progress apply Frm.rest) | dsimp only | split

theorem frm_hwtSet {fm : Nat} {r0 : State} {i : Nat} {e : BitVec 256} {s : State} (hm : Sub 2 fm) (hk : Frm fm r0 s) :
    Frm fm r0 (hwtSet i e s) := by
  unfold hwtSet
  repeat' first | intro _ | (with_reducible first | assumption | apply Frm.ite | fail_if_no_progress apply Frm.rest | exact Sub.trans (b := 2) rfl hm) | dsimp only | split | (with_reducible first | apply Frm.ch1)

theorem frm_hwtCommit {fm : Nat} {r0 : State} {who : Owner2} {s : State} (hm : Sub 2 fm) (hk : Frm fm r0 s) :
    Frm fm r0 (hwtCommit who s) := by
  unfold hwtCommit
  repeat' first | intro _ | (with_reducible first | assumption | apply frm_refuseWrite | apply frm_hwtSet | apply Frm.ite | fail_if_no_progress apply Frm.rest | exact Sub.trans (b := 2) rfl hm) | dsimp only | split

theorem frm_hwtCommitDrained {fm : Nat} {r0 : State} {s : State} (hm : Sub 2 fm) (hk : Frm fm r0 s) :
    Frm fm r0 (hwtCommitDrained s) := by
  unfold hwtCommitDrained
  repeat' first | intro _ | (with_reducible first | assumption | apply frm_hwtSet | apply Frm.ite | fail_if_no_progress apply Frm.rest | exact Sub.trans (b := 2) rfl hm) | dsimp only | split

theorem frm_abandonReads {fm : Nat} {r0 : State} {e : Nat} {tags : List Nat} {s : State} (hk : Frm fm r0 s) :
    Frm fm r0 (abandonReads e tags s) := by
  unfold abandonReads
  repeat' first | intro _ | (with_reducible first | assumption | apply frm_setXfe | apply Frm.ite | fail_if_no_progress apply Frm.rest) | dsimp only | split

theorem frm_atsInvalidate {fm : Nat} {r0 : State} {itag iova size : Nat} {s : State} (hk : Frm fm r0 s) :
    Frm fm r0 (atsInvalidate itag iova size s) := by
  unfold atsInvalidate
  repeat' first | intro _ | (with_reducible first | assumption | apply frm_xlDrop | apply frm_pumpAll | apply frm_abandonReads | apply Frm.ite | apply Frm.foldl | apply Frm.foldl2 | apply Frm.foldl3 | fail_if_no_progress apply Frm.rest) | dsimp only | split

theorem frm_invalidateCompletion {fm : Nat} {r0 : State} {itag : Nat} {s : State} (hk : Frm fm r0 s) :
    Frm fm r0 (invalidateCompletion itag s) := by
  unfold invalidateCompletion
  repeat' first | intro _ | (with_reducible first | assumption | apply frm_emit | apply Frm.ite | fail_if_no_progress apply Frm.rest) | dsimp only | split

theorem frm_atsEnable {fm : Nat} {r0 : State} {on : Bool} {s : State} (hk : Frm fm r0 s) :
    Frm fm r0 (atsEnable on s) := by
  unfold atsEnable
  repeat' first | intro _ | (with_reducible first | assumption | apply frm_xlDrop | apply frm_pumpAll | apply Frm.ite | fail_if_no_progress apply Frm.rest) | dsimp only | split

theorem frm_priEnable {fm : Nat} {r0 : State} {on : Bool} {alloc : BitVec 16} {s : State} (hk : Frm fm r0 s) :
    Frm fm r0 (priEnable on alloc s) := by
  unfold priEnable
  repeat' first | intro _ | (with_reducible first | assumption | apply frm_sendPageReqs | apply Frm.ite | fail_if_no_progress apply Frm.rest) | dsimp only | split

end Sys2Proof.Laws
end

