-- ==== Sys2Proof/Laws/FrameCol.lean ====
section
/-! SUPPORT. What the operations of `Machine/Col.lean` leave alone: one lemma each. -/
namespace Sys2Proof.Laws
open Sys2Proof Sys2Proof.Machine Sys2Proof.Safety
set_option linter.unreachableTactic false
set_option linter.unusedTactic false

theorem frm_nextOp {fm : Nat} {r0 : State} {c : Nat} {s : State} (hk : Frm fm r0 s) :
    Frm fm r0 (nextOp c s) := by
  unfold nextOp
  repeat' first | intro _ | (with_reducible first | assumption | apply frm_setCunit | apply frm_fenceCunit | apply frm_setRun | apply Frm.ite | fail_if_no_progress apply Frm.rest) | dsimp only | split

theorem frm_finishOp {fm : Nat} {r0 : State} {c : Nat} {o : COp} {st : Status} {s : State} (hk : Frm fm r0 s) :
    Frm fm r0 (finishOp c o st s) := by
  unfold finishOp
  repeat' first | intro _ | (with_reducible first | assumption | apply frm_setCunit | apply frm_markFlag | apply frm_raise | apply frm_nextOp | apply Frm.ite | fail_if_no_progress apply Frm.rest) | dsimp only | split

theorem frm_colWaitSatisfied {fm : Nat} {r0 : State} {c : Nat} {s : State} (hk : Frm fm r0 s) :
    Frm fm r0 (colWaitSatisfied c s) := by
  unfold colWaitSatisfied
  repeat' first | intro _ | (with_reducible first | assumption | apply frm_startOp | apply frm_finishOp | apply Frm.ite | fail_if_no_progress apply Frm.rest) | dsimp only | split

theorem frm_colOpComplete {fm : Nat} {r0 : State} {c : Nat} {s : State} (hm : Sub 1 fm) (hk : Frm fm r0 s) :
    Frm fm r0 (colOpComplete c s) := by
  unfold colOpComplete
  repeat' first | intro _ | (with_reducible first | assumption | apply frm_dvaWrite | apply frm_finishOp | apply Frm.ite | apply Frm.snd (by assumption) | fail_if_no_progress apply Frm.rest | exact Sub.trans (b := 1) rfl hm) | dsimp only | split

theorem frm_colReadmit {fm : Nat} {r0 : State} {c : Nat} {s : State} (hk : Frm fm r0 s) :
    Frm fm r0 (colReadmit c s) := by
  unfold colReadmit
  repeat' first | intro _ | (with_reducible first | assumption | apply frm_requestCunitReadmit | apply frm_refuseWrite | apply Frm.ite | fail_if_no_progress apply Frm.rest) | dsimp only | split

end Sys2Proof.Laws
end

