-- ==== Sys2Proof/Laws/FrameFabric.lean ====
section
/-! SUPPORT. What the operations of `Machine/Fabric.lean` leave alone: one lemma each. -/
namespace Sys2Proof.Laws
open Sys2Proof Sys2Proof.Machine Sys2Proof.Safety
set_option linter.unreachableTactic false
set_option linter.unusedTactic false

theorem frm_pushVec {fm : Nat} {r0 : State} {v : Vec} {ts : List (Nat × Nat)} {s : State} (hk : Frm fm r0 s) :
    Frm fm r0 (pushVec v ts s) := by
  unfold pushVec
  repeat' first | intro _ | (with_reducible first | assumption | apply frm_setCell | apply Frm.ite | apply Frm.foldl | apply Frm.foldl2 | apply Frm.foldl3 | fail_if_no_progress apply Frm.rest) | dsimp only | split

theorem frm_forwardVecs {fm : Nat} {r0 : State} {n route : Nat} {s : State} (hk : Frm fm r0 s) :
    Frm fm r0 (forwardVecs n route s) := by
  unfold forwardVecs
  repeat' first | intro _ | (with_reducible first | assumption | apply frm_setCell | apply frm_cellCheck | apply frm_pushVec | apply Frm.ite | apply Frm.foldl | apply Frm.foldl2 | apply Frm.foldl3 | apply Frm.snd (by assumption) | fail_if_no_progress apply Frm.rest) | dsimp only | split

theorem frm_readSrc {fm : Nat} {r0 : State} {n v : Nat} {s : State} (hk : Frm fm r0 s) :
    Frm fm r0 (readSrc n v s).2 := by
  unfold readSrc
  repeat' first | intro _ | (with_reducible first | assumption | apply frm_setCell | apply frm_cellCheck | apply Frm.ite | apply Frm.snd (by assumption) | fail_if_no_progress apply Frm.rest) | dsimp only | split

theorem frm_readSrcs {fm : Nat} {r0 : State} {n : Nat} : ∀ {vs : List Nat} {s : State}, Frm fm r0 s → Frm fm r0 (readSrcs n vs s).2
  | [], _, h => h
  | _ :: vs, _, h => frm_readSrcs (vs := vs) (frm_readSrc h)

theorem frm_writeDst {fm : Nat} {r0 : State} {n route d : Nat} {x : Vec} {s : State} (hk : Frm fm r0 s) :
    Frm fm r0 (writeDst n route d x s) := by
  unfold writeDst
  repeat' first | intro _ | (with_reducible first | assumption | apply frm_setCell | apply frm_pushVec | apply Frm.ite | fail_if_no_progress apply Frm.rest) | dsimp only | split

theorem frm_bumpDraws {fm : Nat} {r0 : State} {n : Nat} {s : State} (hk : Frm fm r0 s) :
    Frm fm r0 (bumpDraws n s) := by
  unfold bumpDraws
  repeat' first | intro _ | (with_reducible first | assumption | apply frm_setCell | apply Frm.ite | apply Frm.foldl | apply Frm.foldl2 | apply Frm.foldl3 | fail_if_no_progress apply Frm.rest) | dsimp only | split

theorem frm_advance {fm : Nat} {r0 : State} {x : UCtx} {o : UOut} {s : State} (hk : Frm fm r0 s) :
    Frm fm r0 (advance x o s) := by
  unfold advance
  repeat' first | intro _ | (with_reducible first | assumption | apply frm_setCell | apply Frm.ite | fail_if_no_progress apply Frm.rest) | dsimp only | split

theorem frm_touchColumn {fm : Nat} {r0 : State} {k : Nat} {s : State} (hk : Frm fm r0 s) :
    Frm fm r0 (touchColumn k s) := by
  unfold touchColumn
  repeat' first | intro _ | (with_reducible first | assumption | apply frm_drawFree | apply frm_setCol | apply Frm.ite | fail_if_no_progress apply Frm.rest) | dsimp only | split

theorem frm_issue {fm : Nat} {r0 : State} {n op : Nat} {srcs : Uop → List Nat} {dests arith draws : Bool} {ready : UCtx → State → Bool} {body : UCtx → List Nat → Bool → State → UOut} {s : State} (hk : Frm fm r0 s) (kbody : ∀ a b c x, Frm fm r0 x → Frm fm r0 (body a b c x).st) :
    Frm fm r0 (issue n op srcs dests arith draws ready body s) := by
  unfold issue
  repeat' first | intro _ | (with_reducible first | assumption | apply kbody | apply frm_markFlag | apply frm_refresh | apply frm_cellCheck | apply frm_slotRead | apply frm_forwardVecs | apply frm_readSrcs | apply frm_writeDst | apply frm_bumpDraws | apply frm_advance | apply frm_touchColumn | apply Frm.ite | apply Frm.foldl | apply Frm.foldl2 | apply Frm.foldl3 | apply Frm.snd (by assumption) | fail_if_no_progress apply Frm.rest) | dsimp only | split

theorem frm_cellRead {fm : Nat} {r0 : State} {x : UCtx} {dvas : List Nat} {size : Nat} {s : State} (hk : Frm fm r0 s) :
    Frm fm r0 (cellRead x dvas size s).2 := by
  unfold cellRead
  repeat' first | intro _ | (with_reducible first | assumption | apply frm_noteXlat | apply frm_raise | apply frm_issueReq | apply Frm.ite | apply Frm.foldl | apply Frm.foldl2 | apply Frm.foldl3 | apply Frm.snd (by assumption) | fail_if_no_progress apply Frm.rest) | dsimp only | split

theorem frm_cellWrite {fm : Nat} {r0 : State} {x : UCtx} {dva size data : Nat} {poison : Bool} {s : State} (hk : Frm fm r0 s) :
    Frm fm r0 (cellWrite x dva size data poison s) := by
  unfold cellWrite
  repeat' first | intro _ | (with_reducible first | assumption | apply frm_setCell | apply frm_noteXlat | apply frm_raise | apply frm_issueReq | apply Frm.ite | apply Frm.snd (by assumption) | fail_if_no_progress apply Frm.rest) | dsimp only | split

theorem frm_bumpB {fm : Nat} {r0 : State} {x : UCtx} {s : State} (hk : Frm fm r0 s) :
    Frm fm r0 (bumpB x s) := by
  unfold bumpB
  repeat' first | intro _ | (with_reducible first | assumption | apply frm_setCell | apply Frm.ite | fail_if_no_progress apply Frm.rest) | dsimp only | split

theorem frm_bumpLp {fm : Nat} {r0 : State} {x : UCtx} {s : State} (hk : Frm fm r0 s) :
    Frm fm r0 (bumpLp x s) := by
  unfold bumpLp
  repeat' first | intro _ | (with_reducible first | assumption | apply frm_setCell | apply Frm.ite | fail_if_no_progress apply Frm.rest) | dsimp only | split

theorem frm_cellReturn {fm : Nat} {r0 : State} {n tag : Nat} {data : List Byte} {poison : Bool} {s : State} (hk : Frm fm r0 s) :
    Frm fm r0 (cellReturn n tag data poison s) := by
  unfold cellReturn
  repeat' first | intro _ | (with_reducible first | assumption | apply frm_setCell | apply frm_raise | apply Frm.ite | fail_if_no_progress apply Frm.rest) | dsimp only | split

theorem frm_cellAck {fm : Nat} {r0 : State} {n : Nat} {s : State} (hk : Frm fm r0 s) :
    Frm fm r0 (cellAck n s) := by
  unfold cellAck
  repeat' first | intro _ | (with_reducible first | assumption | apply frm_setCell | apply Frm.ite | fail_if_no_progress apply Frm.rest) | dsimp only | split

end Sys2Proof.Laws
end

