-- ==== Sys2Proof/Laws/FrameNet.lean ====
section
/-! SUPPORT. What the operations of `Machine/Net.lean` leave alone: one lemma each. -/
namespace Sys2Proof.Laws
open Sys2Proof Sys2Proof.Machine Sys2Proof.Safety
set_option linter.unreachableTactic false
set_option linter.unusedTactic false

theorem frm_modNet {fm : Nat} {r0 : State} {f : Net → Net} {s : State} (hm : Sub 131072 fm) (hk : Frm fm r0 s) :
    Frm fm r0 (modNet f s) := by
  unfold modNet
  repeat' first | intro _ | (with_reducible first | assumption | apply Frm.ite | fail_if_no_progress apply Frm.rest | exact Sub.trans (b := 131072) rfl hm) | dsimp only | split | (with_reducible first | apply Frm.ch17)

theorem frm_presentPacket {fm : Nat} {r0 : State} {p : Packet} {s : State} (hm : Sub 131072 fm) (hk : Frm fm r0 s) :
    Frm fm r0 (presentPacket p s) := by
  unfold presentPacket
  repeat' first | intro _ | (with_reducible first | assumption | apply frm_modNet | apply Frm.ite | fail_if_no_progress apply Frm.rest | exact Sub.trans (b := 131072) rfl hm) | dsimp only | split

theorem frm_presentAll {fm : Nat} {r0 : State} {s : State} (hm : Sub 131072 fm) (hk : Frm fm r0 s) :
    Frm fm r0 (presentAll s) := by
  unfold presentAll
  repeat' first | intro _ | (with_reducible first | assumption | apply frm_leavePort | apply frm_modNet | apply frm_presentPacket | apply Frm.ite | apply Frm.foldl | apply Frm.foldl2 | apply Frm.foldl3 | apply Frm.opt (by assumption) | apply Frm.getD | apply FrmO.none | apply FrmO.some | apply FrmO.ite | exact Frm.ofO (by assumption) | fail_if_no_progress apply Frm.rest | exact Sub.trans (b := 131072) rfl hm) | dsimp only | split

theorem frm_takePacket {fm : Nat} {r0 : State} {id : Nat} {s : State} (hm : Sub 131072 fm) (hk : Frm fm r0 s) :
    Frm fm r0 (takePacket id s) := by
  unfold takePacket
  repeat' first | intro _ | (with_reducible first | assumption | apply frm_modNet | apply Frm.ite | fail_if_no_progress apply Frm.rest | exact Sub.trans (b := 131072) rfl hm) | dsimp only | split

theorem frm_recordDrop {fm : Nat} {r0 : State} {at_ vn vc d : Nat} {s : State} (hk : Frm fm r0 s) :
    Frm fm r0 (recordDrop at_ vn vc d s) := by
  unfold recordDrop
  repeat' first | intro _ | (with_reducible first | assumption | apply Frm.ite | fail_if_no_progress apply Frm.rest) | dsimp only | split

theorem frm_losePacket {fm : Nat} {r0 : State} {p : Packet} {s : State} (hm : Sub 131072 fm) (hk : Frm fm r0 s) :
    Frm fm r0 (losePacket p s) := by
  unfold losePacket
  repeat' first | intro _ | (with_reducible first | assumption | apply frm_modReq | apply frm_modNet | apply Frm.ite | fail_if_no_progress apply Frm.rest | exact Sub.trans (b := 131072) rfl hm) | dsimp only | split

theorem frm_dropPacket {fm : Nat} {r0 : State} {p : Packet} {at_ : Nat} {s : State} (hm : Sub 131072 fm) (hk : Frm fm r0 s) :
    Frm fm r0 (dropPacket p at_ s) := by
  unfold dropPacket
  repeat' first | intro _ | (with_reducible first | assumption | apply frm_raise | apply frm_recordDrop | apply frm_losePacket | apply Frm.ite | fail_if_no_progress apply Frm.rest | exact Sub.trans (b := 131072) rfl hm) | dsimp only | split

theorem frm_doMove {fm : Nat} {r0 : State} {m : Move} {s : State} (hm : Sub 131072 fm) (hk : Frm fm r0 s) :
    Frm fm r0 (doMove m s) := by
  unfold doMove
  repeat' first | intro _ | (with_reducible first | assumption | apply frm_modNet | apply Frm.ite | fail_if_no_progress apply Frm.rest | exact Sub.trans (b := 131072) rfl hm) | dsimp only | split

theorem frm_crossCheck {fm : Nat} {r0 : State} {m : Move} {s : State} (hk : Frm fm r0 s) :
    Frm fm r0 (crossCheck m s) := by
  unfold crossCheck
  repeat' first | intro _ | (with_reducible first | assumption | apply frm_raise | apply frm_fireInject | apply Frm.ite | apply Frm.snd (by assumption) | fail_if_no_progress apply Frm.rest) | dsimp only | split

theorem frm_rsvTake {fm : Nat} {r0 : State} {p : Packet} {s : State} (hk : Frm fm r0 s) :
    Frm fm r0 (rsvTake p s) := by
  unfold rsvTake
  repeat' first | intro _ | (with_reducible first | assumption | apply frm_setQport | apply Frm.ite | fail_if_no_progress apply Frm.rest) | dsimp only | split

theorem frm_injectAt {fm : Nat} {r0 : State} {port : Nat} {s : State} (hm : Sub 131072 fm) (hk : Frm fm r0 s) :
    Frm fm r0 (injectAt port s) := by
  unfold injectAt
  repeat' first | intro _ | (with_reducible first | assumption | apply frm_modNet | apply frm_dropPacket | apply frm_rsvTake | apply Frm.ite | fail_if_no_progress apply Frm.rest | exact Sub.trans (b := 131072) rfl hm) | dsimp only | split

theorem frm_returnCredits {fm : Nat} {r0 : State} {s : State} (hm : Sub 131072 fm) (hk : Frm fm r0 s) :
    Frm fm r0 (returnCredits s) := by
  unfold returnCredits
  repeat' first | intro _ | (with_reducible first | assumption | apply frm_modNet | apply Frm.ite | apply Frm.foldl | apply Frm.foldl2 | apply Frm.foldl3 | fail_if_no_progress apply Frm.rest | exact Sub.trans (b := 131072) rfl hm) | dsimp only | split

theorem frm_nocCycle {fm : Nat} {r0 : State} {s : State} (hm : Sub 131072 fm) (hk : Frm fm r0 s) :
    Frm fm r0 (nocCycle s) := by
  unfold nocCycle
  repeat' first | intro _ | (with_reducible first | assumption | apply frm_modNet | apply frm_dropPacket | apply frm_doMove | apply frm_crossCheck | apply frm_injectAt | apply frm_returnCredits | apply Frm.ite | apply Frm.foldl | apply Frm.foldl2 | apply Frm.foldl3 | fail_if_no_progress apply Frm.rest | exact Sub.trans (b := 131072) rfl hm) | dsimp only | split

theorem frm_nocTick {fm : Nat} {r0 : State} {s : State} (hm : Sub 131072 fm) (hk : Frm fm r0 s) :
    Frm fm r0 (nocTick s) := by
  unfold nocTick
  repeat' first | intro _ | (with_reducible first | assumption | apply frm_presentAll | apply frm_nocCycle | apply Frm.ite | fail_if_no_progress apply Frm.rest | exact Sub.trans (b := 131072) rfl hm) | dsimp only | split

end Sys2Proof.Laws
end

