-- ==== Sys2Proof/Laws/FrameProofs.lean ====
section
/-! SUPPORT. What the operations of `Machine/Proofs.lean` leave alone: one lemma each. -/
namespace Sys2Proof.Laws
open Sys2Proof Sys2Proof.Machine Sys2Proof.Safety
set_option linter.unreachableTactic false
set_option linter.unusedTactic false

theorem frm_takeToken {fm : Nat} {r0 : State} {ty : TokenType} {via : TokenVia} {t : Token} {s : State} (hk : Frm fm r0 s) :
    Frm fm r0 (takeToken ty via t s).2 := by
  unfold takeToken
  repeat' first | intro _ | (with_reducible first | assumption | apply frm_setPart | apply frm_traceAt | apply frm_raise | apply frm_fireInject | apply Frm.ite | apply Frm.snd (by assumption) | fail_if_no_progress apply Frm.rest) | dsimp only | split

theorem frm_arriveToken {fm : Nat} {r0 : State} {via : TokenVia} {t : Token} {s : State} (hm : Sub 1 fm) (hk : Frm fm r0 s) :
    Frm fm r0 (arriveToken via t s) := by
  unfold arriveToken
  repeat' first | intro _ | (with_reducible first | assumption | apply frm_setPart | apply frm_tryReady | apply frm_tryForward | apply frm_takeToken | apply Frm.ite | apply Frm.snd (by assumption) | fail_if_no_progress apply Frm.rest | exact Sub.trans (b := 1) rfl hm) | dsimp only | split

theorem frm_releaseToken {fm : Nat} {r0 : State} {via : TokenVia} {t : Token} {s : State} (hm : Sub 1 fm) (hk : Frm fm r0 s) :
    Frm fm r0 (releaseToken via t s) := by
  unfold releaseToken
  repeat' first | intro _ | (with_reducible first | assumption | apply frm_modPart | apply frm_enterHeld | apply frm_recordStretch | apply frm_toChildren | apply frm_armRelease | apply frm_measureD | apply frm_tryReady | apply frm_takeToken | apply Frm.ite | apply Frm.snd (by assumption) | fail_if_no_progress apply Frm.rest | exact Sub.trans (b := 1) rfl hm) | dsimp only | split

theorem frm_holdToken {fm : Nat} {r0 : State} {via : TokenVia} {t : Token} {s : State} (hm : Sub 1 fm) (hk : Frm fm r0 s) :
    Frm fm r0 (holdToken via t s) := by
  unfold holdToken
  repeat' first | intro _ | (with_reducible first | assumption | apply frm_modPart | apply frm_raise | apply frm_enterHeld | apply frm_recordStretch | apply frm_toChildren | apply frm_tryReady | apply frm_takeToken | apply Frm.ite | apply Frm.snd (by assumption) | fail_if_no_progress apply Frm.rest | exact Sub.trans (b := 1) rfl hm) | dsimp only | split

theorem frm_breakToken {fm : Nat} {r0 : State} {via : TokenVia} {t : Token} {s : State} (hk : Frm fm r0 s) :
    Frm fm r0 (breakToken via t s) := by
  unfold breakToken
  repeat' first | intro _ | (with_reducible first | assumption | apply frm_modPart | apply frm_enterBroken | apply frm_takeToken | apply Frm.ite | apply Frm.snd (by assumption) | fail_if_no_progress apply Frm.rest) | dsimp only | split

theorem frm_lateLimitExpiry {fm : Nat} {r0 : State} {p : Nat} {s : State} (hm : Sub 1 fm) (hk : Frm fm r0 s) :
    Frm fm r0 (lateLimitExpiry p s) := by
  unfold lateLimitExpiry
  repeat' first | intro _ | (with_reducible first | assumption | apply frm_modPart | apply frm_raise | apply frm_enterHeld | apply frm_toChildren | apply Frm.ite | fail_if_no_progress apply Frm.rest | exact Sub.trans (b := 1) rfl hm) | dsimp only | split

theorem frm_proofTimeoutExpiry {fm : Nat} {r0 : State} {p : Nat} {s : State} (hk : Frm fm r0 s) :
    Frm fm r0 (proofTimeoutExpiry p s) := by
  unfold proofTimeoutExpiry
  repeat' first | intro _ | (with_reducible first | assumption | apply frm_enterBroken | apply Frm.ite | fail_if_no_progress apply Frm.rest) | dsimp only | split

theorem frm_readyTimeout {fm : Nat} {r0 : State} {p : Nat} {s : State} (hk : Frm fm r0 s) :
    Frm fm r0 (readyTimeout p s) := by
  unfold readyTimeout
  repeat' first | intro _ | (with_reducible first | assumption | apply frm_modPart | apply frm_raise | apply frm_enterBroken | apply Frm.ite | fail_if_no_progress apply Frm.rest) | dsimp only | split

theorem frm_timeSyncTimer {fm : Nat} {r0 : State} {s : State} (hm : Sub 32768 fm) (hk : Frm fm r0 s) :
    Frm fm r0 (timeSyncTimer s) := by
  unfold timeSyncTimer
  repeat' first | intro _ | (with_reducible first | assumption | apply frm_sendToken | apply Frm.ite | fail_if_no_progress apply Frm.rest | exact Sub.trans (b := 32768) rfl hm) | dsimp only | split | (with_reducible first | apply Frm.ch15)

theorem frm_timeReq {fm : Nat} {r0 : State} {via : TokenVia} {t : Token} {s : State} (hk : Frm fm r0 s) :
    Frm fm r0 (timeReq via t s) := by
  unfold timeReq
  repeat' first | intro _ | (with_reducible first | assumption | apply frm_sendToken | apply frm_takeToken | apply Frm.ite | apply Frm.snd (by assumption) | fail_if_no_progress apply Frm.rest) | dsimp only | split

theorem frm_timeResp {fm : Nat} {r0 : State} {via : TokenVia} {t : Token} {s : State} (hm : Sub 32768 fm) (hk : Frm fm r0 s) :
    Frm fm r0 (timeResp via t s) := by
  unfold timeResp
  repeat' first | intro _ | (with_reducible first | assumption | apply frm_raise | apply frm_takeToken | apply Frm.ite | apply Frm.snd (by assumption) | fail_if_no_progress apply Frm.rest | exact Sub.trans (b := 32768) rfl hm) | dsimp only | split | (with_reducible first | apply Frm.ch15)

theorem frm_proofPortDown {fm : Nat} {r0 : State} {port : Nat} {s : State} (hm : Sub 256 fm) (hk : Frm fm r0 s) :
    Frm fm r0 (proofPortDown port s) := by
  unfold proofPortDown
  repeat' first | intro _ | (with_reducible first | assumption | apply frm_raise | apply Frm.ite | fail_if_no_progress apply Frm.rest | exact Sub.trans (b := 256) rfl hm) | dsimp only | split | (with_reducible first | apply Frm.ch8)

theorem frm_proofPortUp {fm : Nat} {r0 : State} {port : Nat} {peer : BitVec 64} {s : State} (hm : Sub 256 fm) (hk : Frm fm r0 s) :
    Frm fm r0 (proofPortUp port peer s) := by
  unfold proofPortUp
  repeat' first | intro _ | (with_reducible first | assumption | apply frm_modPart | apply Frm.ite | apply Frm.foldl | apply Frm.foldl2 | apply Frm.foldl3 | fail_if_no_progress apply Frm.rest | exact Sub.trans (b := 256) rfl hm) | dsimp only | split | (with_reducible first | apply Frm.ch8)

theorem frm_siteAckTimeout {fm : Nat} {r0 : State} {n : Nat} {s : State} (hm : Sub 512 fm) (hk : Frm fm r0 s) :
    Frm fm r0 (siteAckTimeout n s) := by
  unfold siteAckTimeout
  repeat' first | intro _ | (with_reducible first | assumption | apply frm_setSite | apply frm_raise | apply Frm.ite | fail_if_no_progress apply Frm.rest | exact Sub.trans (b := 512) rfl hm) | dsimp only | split | (with_reducible first | apply Frm.ch9)

theorem frm_partHold {fm : Nat} {r0 : State} {p : Nat} {s : State} (hk : Frm fm r0 s) :
    Frm fm r0 (partHold p s) := by
  unfold partHold
  repeat' first | intro _ | (with_reducible first | assumption | apply frm_setPart | apply Frm.ite | fail_if_no_progress apply Frm.rest) | dsimp only | split

theorem frm_partRelease {fm : Nat} {r0 : State} {p : Nat} {s : State} (hk : Frm fm r0 s) :
    Frm fm r0 (partRelease p s) := by
  unfold partRelease
  repeat' first | intro _ | (with_reducible first | assumption | apply frm_refresh | apply frm_refuseWrite | apply frm_becomeReady | apply Frm.ite | fail_if_no_progress apply Frm.rest) | dsimp only | split

theorem frm_starterArm {fm : Nat} {r0 : State} {p : Nat} {stream : Word} {s : State} (hk : Frm fm r0 s) :
    Frm fm r0 (starterArm p stream s) := by
  unfold starterArm
  repeat' first | intro _ | (with_reducible first | assumption | apply frm_setPart | apply frm_refuseWrite | apply Frm.ite | fail_if_no_progress apply Frm.rest) | dsimp only | split

theorem frm_stepCounterArm {fm : Nat} {r0 : State} {p : Nat} {hi : Word} {s : State} (hk : Frm fm r0 s) :
    Frm fm r0 (stepCounterArm p hi s) := by
  unfold stepCounterArm
  repeat' first | intro _ | (with_reducible first | assumption | apply frm_setPart | apply frm_refuseWrite | apply Frm.ite | fail_if_no_progress apply Frm.rest) | dsimp only | split

end Sys2Proof.Laws
end

