-- ==== Sys2Proof/Laws/FrameNoc.lean ====
section
/-! SUPPORT. What the operations of `Machine/Noc.lean` leave alone: one lemma each. -/
namespace Sys2Proof.Laws
open Sys2Proof Sys2Proof.Machine Sys2Proof.Safety
set_option linter.unreachableTactic false
set_option linter.unusedTactic false

theorem frm_headCheck {fm : Nat} {r0 : State} {head : Ecc} {p : Packet} {s : State} (hm : Sub 131072 fm) (hk : Frm fm r0 s) :
    Frm fm r0 (headCheck head p s).2 := by
  unfold headCheck
  repeat' first | intro _ | (with_reducible first | assumption | apply frm_raise | apply frm_checkEcc | apply frm_recordDrop | apply frm_losePacket | apply Frm.ite | apply Frm.snd (by assumption) | fail_if_no_progress apply Frm.rest | exact Sub.trans (b := 131072) rfl hm) | dsimp only | split

theorem frm_refuseReq {fm : Nat} {r0 : State} {r : Req} {s : State} (hk : Frm fm r0 s) :
    Frm fm r0 (refuseReq r s) := by
  unfold refuseReq
  repeat' first | intro _ | (with_reducible first | assumption | apply frm_modReq | apply frm_freeBytes | apply frm_pushResp | apply Frm.ite | fail_if_no_progress apply Frm.rest) | dsimp only | split

theorem frm_toOccupant {fm : Nat} {r0 : State} {n off : Nat} {r : Req} {s : State} (hk : Frm fm r0 s) :
    Frm fm r0 (toOccupant n off r s) := by
  unfold toOccupant
  repeat' first | intro _ | (with_reducible first | assumption | apply frm_emit | apply frm_setSite | apply frm_geljaTo | apply frm_modReq | apply Frm.ite | fail_if_no_progress apply Frm.rest) | dsimp only | split

theorem frm_serveReq {fm : Nat} {r0 : State} {r : Req} {off : Nat} {ecc : Ecc} {s : State} (hm : Sub 1 fm) (hk : Frm fm r0 s) :
    Frm fm r0 (serveReq r off ecc s) := by
  unfold serveReq
  repeat' first | intro _ | (with_reducible first | assumption | apply frm_modReq | apply frm_raise | apply frm_countCe | apply frm_strikeUe | apply frm_atHome | apply frm_refuseReq | apply frm_toOccupant | apply Frm.ite | fail_if_no_progress apply Frm.rest | exact Sub.trans (b := 1) rfl hm) | dsimp only | split

theorem frm_flitCheck {fm : Nat} {r0 : State} {tag : Nat} {flits : Ecc} {s : State} (hk : Frm fm r0 s) :
    Frm fm r0 (flitCheck tag flits s) := by
  unfold flitCheck
  repeat' first | intro _ | (with_reducible first | assumption | apply frm_modReq | apply Frm.ite | fail_if_no_progress apply Frm.rest) | dsimp only | split

theorem frm_nocRequest {fm : Nat} {r0 : State} {write : Bool} {tag off : Nat} {head ecc : Ecc} {s : State} (hm : Sub 131073 fm) (hk : Frm fm r0 s) :
    Frm fm r0 (nocRequest write tag off head ecc s) := by
  unfold nocRequest
  repeat' first | intro _ | (with_reducible first | assumption | apply frm_pumpXfe | apply frm_takePacket | apply frm_headCheck | apply frm_serveReq | apply frm_flitCheck | apply Frm.ite | apply Frm.snd (by assumption) | fail_if_no_progress apply Frm.rest | exact Sub.trans (b := 131073) rfl hm) | dsimp only | split

theorem frm_answerSite {fm : Nat} {r0 : State} {n t op : Nat} {r : Req} {bs : List Byte} {poison refused : Bool} {s : State} (hk : Frm fm r0 s) :
    Frm fm r0 (answerSite n t op r bs poison refused s) := by
  unfold answerSite
  repeat' first | intro _ | (with_reducible first | assumption | apply frm_emit | apply frm_answerGelja | apply Frm.ite | fail_if_no_progress apply Frm.rest) | dsimp only | split

theorem frm_deliver {fm : Nat} {r0 : State} {r : Req} {bs : List Byte} {poison refused : Bool} {s : State} (hk : Frm fm r0 s) :
    Frm fm r0 (deliver r bs poison refused s) := by
  unfold deliver
  repeat' first | intro _ | (with_reducible first | assumption | apply frm_dropReq | apply frm_completeStats | apply frm_auditRead | apply frm_xfeRead | apply frm_xfeWrote | apply frm_collRead | apply frm_collWrote | apply frm_cellReturn | apply frm_cellAck | apply frm_answerSite | apply Frm.ite | fail_if_no_progress apply Frm.rest) | dsimp only | split

theorem frm_drainReads {fm : Nat} {r0 : State} : ∀ (a0 : Nat) {a1 : Initiator} {a2 : State}, Frm fm r0 a2 → Frm fm r0 (drainReads a0 a1 a2) := by
  intro a0
  induction a0 with
  | zero =>
    intros
    unfold drainReads
    repeat' first | intro _ | (with_reducible first | assumption | apply frm_deliver | apply Frm.ite | fail_if_no_progress apply Frm.rest) | dsimp only | split
  | succ _ ih =>
    intros
    unfold drainReads
    repeat' first | intro _ | (with_reducible first | assumption | apply ih | apply frm_deliver | apply Frm.ite | fail_if_no_progress apply Frm.rest) | dsimp only | split

theorem frm_arriveResp {fm : Nat} {r0 : State} {r : Req} {bs : List Byte} {poison refused : Bool} {s : State} (hk : Frm fm r0 s) :
    Frm fm r0 (arriveResp r bs poison refused s) := by
  unfold arriveResp
  repeat' first | intro _ | (with_reducible first | assumption | apply frm_modReq | apply frm_deliver | apply frm_drainReads | apply Frm.ite | fail_if_no_progress apply Frm.rest) | dsimp only | split

theorem frm_takeResp {fm : Nat} {r0 : State} {tag : Nat} {s : State} (hk : Frm fm r0 s) :
    Frm fm r0 (takeResp tag s).2 := by
  unfold takeResp
  repeat' first | intro _ | (with_reducible first | assumption | apply Frm.ite | fail_if_no_progress apply Frm.rest) | dsimp only | split

theorem frm_nocResponse {fm : Nat} {r0 : State} {want : Resp → Req → Bool} {tag : Nat} {head flits : Ecc} {s : State} (hm : Sub 131072 fm) (hk : Frm fm r0 s) :
    Frm fm r0 (nocResponse want tag head flits s) := by
  unfold nocResponse
  repeat' first | intro _ | (with_reducible first | assumption | apply frm_takePacket | apply frm_headCheck | apply frm_arriveResp | apply frm_takeResp | apply Frm.ite | apply Frm.snd (by assumption) | fail_if_no_progress apply Frm.rest | exact Sub.trans (b := 131072) rfl hm) | dsimp only | split

theorem frm_respTimeout {fm : Nat} {r0 : State} {tag : Nat} {s : State} (hk : Frm fm r0 s) :
    Frm fm r0 (respTimeout tag s) := by
  unfold respTimeout
  repeat' first | intro _ | (with_reducible first | assumption | apply frm_raise | apply frm_freeBytes | apply frm_arriveResp | apply Frm.ite | apply Frm.snd (by assumption) | fail_if_no_progress apply Frm.rest) | dsimp only | split

theorem frm_sliceStall {fm : Nat} {r0 : State} {router input : Nat} {s : State} (hk : Frm fm r0 s) :
    Frm fm r0 (sliceStall router input s) := by
  unfold sliceStall
  repeat' first | intro _ | (with_reducible first | assumption | apply frm_raise | apply Frm.ite | fail_if_no_progress apply Frm.rest) | dsimp only | split

theorem frm_auditAll {fm : Nat} {r0 : State} {s : State} (hk : Frm fm r0 s) :
    Frm fm r0 (auditAll s) := by
  unfold auditAll
  repeat' first | intro _ | (with_reducible first | assumption | apply frm_auditStep | apply Frm.ite | apply Frm.foldl | apply Frm.foldl2 | apply Frm.foldl3 | fail_if_no_progress apply Frm.rest) | dsimp only | split

theorem frm_hostLeave {fm : Nat} {r0 : State} {s : State} (hk : Frm fm r0 s) :
    Frm fm r0 (hostLeave s) := by
  unfold hostLeave
  repeat' first | intro _ | (with_reducible first | assumption | apply frm_emit | apply frm_dropReq | apply frm_completeStats | apply frm_hostReadGo | apply frm_xfePosted | apply Frm.ite | apply Frm.foldl | apply Frm.foldl2 | apply Frm.foldl3 | fail_if_no_progress apply Frm.rest) | dsimp only | split

theorem frm_portsMove {fm : Nat} {r0 : State} {s : State} (hm : Sub 131072 fm) (hk : Frm fm r0 s) :
    Frm fm r0 (portsMove s) := by
  unfold portsMove
  repeat' first | intro _ | (with_reducible first | assumption | apply frm_sendFlits | apply frm_payCredits | apply frm_deliverHeld | apply frm_pumpAll | apply frm_nocTick | apply frm_hostLeave | apply Frm.ite | apply Frm.foldl | apply Frm.foldl2 | apply Frm.foldl3 | fail_if_no_progress apply Frm.rest | exact Sub.trans (b := 131072) rfl hm) | dsimp only | split

theorem frm_idleTick {fm : Nat} {r0 : State} {s : State} (hm : Sub 163840 fm) (hk : Frm fm r0 s) :
    Frm fm r0 (idleTick s) := by
  unfold idleTick
  repeat' first | intro _ | (with_reducible first | assumption | apply frm_stallTick | apply frm_auditAll | apply frm_portsMove | apply Frm.ite | fail_if_no_progress apply Frm.rest | exact Sub.trans (b := 163840) rfl hm) | dsimp only | split | (with_reducible first | apply Frm.ch15)

end Sys2Proof.Laws
end

