-- ==== Sys2Proof/Laws/FrameDefects.lean ====
section
/-! SUPPORT. What the operations of `Machine/Defects.lean` leave alone: one lemma each. -/
namespace Sys2Proof.Laws
open Sys2Proof Sys2Proof.Machine Sys2Proof.Safety
set_option linter.unreachableTactic false
set_option linter.unusedTactic false

theorem frm_appendDefect {fm : Nat} {r0 : State} {d : Nat} {s : State} (hm : Sub 16 fm) (hk : Frm fm r0 s) :
    FrmO fm r0 (appendDefect d s) := by
  unfold appendDefect
  repeat' first | intro _ | (with_reducible first | assumption | apply Frm.ite | apply FrmO.none | apply FrmO.some | apply FrmO.ite | apply FrmO.map | fail_if_no_progress apply Frm.rest | exact Sub.trans (b := 16) rfl hm) | dsimp only | split | (with_reducible first | apply Frm.ch4)

theorem frm_appendFindings {fm : Nat} {r0 : State} {s : State} (hm : Sub 16 fm) (hk : Frm fm r0 s) :
    Frm fm r0 (appendFindings s) := by
  unfold appendFindings
  repeat' first | intro _ | (with_reducible first | assumption | apply frm_writeLog | apply frm_appendDefect | apply Frm.ite | apply Frm.foldl | apply Frm.foldl2 | apply Frm.foldl3 | apply Frm.opt (by assumption) | apply FrmO.none | apply FrmO.some | apply FrmO.ite | exact Frm.ofO (by assumption) | fail_if_no_progress apply Frm.rest | exact Sub.trans (b := 16) rfl hm) | dsimp only | split

theorem frm_putFindings {fm : Nat} {r0 : State} {l : List (BitVec 32 × Nat)} {s : State} (hk : Frm fm r0 s) :
    Frm fm r0 (putFindings l s) := by
  unfold putFindings
  repeat' first | intro _ | (with_reducible first | assumption | apply Frm.ite | fail_if_no_progress apply Frm.rest) | dsimp only | split

theorem frm_judgeLinks {fm : Nat} {r0 : State} {e : Nat} {ks found : List Nat} {s : State} (hm : Sub 16 fm) (hk : Frm fm r0 s) :
    Frm fm r0 (judgeLinks e ks found s) := by
  unfold judgeLinks
  repeat' first | intro _ | (with_reducible first | assumption | apply frm_addFinding | apply frm_appendFindings | apply frm_putFindings | apply Frm.ite | apply Frm.foldl | apply Frm.foldl2 | apply Frm.foldl3 | fail_if_no_progress apply Frm.rest | exact Sub.trans (b := 16) rfl hm) | dsimp only | split

theorem frm_hardRepair {fm : Nat} {r0 : State} {m ch pa : Nat} {s : State} (hk : Frm fm r0 s) :
    FrmO fm r0 (hardRepair m ch pa s) := by
  unfold hardRepair
  repeat' first | intro _ | (with_reducible first | assumption | apply frm_setChan | apply Frm.ite | apply FrmO.none | apply FrmO.some | apply FrmO.ite | fail_if_no_progress apply Frm.rest) | dsimp only | split

theorem frm_replaceRow {fm : Nat} {r0 : State} {pa : Nat} {s : State} (hk : Frm fm r0 s) :
    FrmO fm r0 (replaceRow pa s) := by
  unfold replaceRow
  repeat' first | intro _ | (with_reducible first | assumption | apply frm_setBank | apply frm_setChan | apply frm_hardRepair | apply Frm.ite | apply Frm.opt (by assumption) | apply FrmO.none | apply FrmO.some | apply FrmO.ite | fail_if_no_progress apply Frm.rest) | dsimp only | split

end Sys2Proof.Laws
end

