-- ==== Sys2Proof/Laws/FrameSite.lean ====
section
/-! SUPPORT. What the operations of `Machine/Site.lean` leave alone: one lemma each. -/
namespace Sys2Proof.Laws
open Sys2Proof Sys2Proof.Machine Sys2Proof.Safety
set_option linter.unreachableTactic false
set_option linter.unusedTactic false

theorem frm_modEven {fm : Nat} {r0 : State} {n : Nat} {f : Site → Site} {s : State} (hk : Frm fm r0 s) :
    Frm fm r0 (modEven n f s) := by
  unfold modEven
  repeat' first | intro _ | (with_reducible first | assumption | apply frm_modSite | apply Frm.ite | fail_if_no_progress apply Frm.rest) | dsimp only | split

theorem frm_siteAdmissionStart {fm : Nat} {r0 : State} {n : Nat} {st sc : BitVec 6} {s : State} (hk : Frm fm r0 s) :
    Frm fm r0 (siteAdmissionStart n st sc s) := by
  unfold siteAdmissionStart
  repeat' first | intro _ | (with_reducible first | assumption | apply frm_modSite | apply frm_readStraps | apply frm_enterRails | apply Frm.ite | apply Frm.foldl | apply Frm.foldl2 | apply Frm.foldl3 | fail_if_no_progress apply Frm.rest) | dsimp only | split

theorem frm_siteCoreRegulated {fm : Nat} {r0 : State} {n : Nat} {s : State} (hk : Frm fm r0 s) :
    Frm fm r0 (siteCoreRegulated n s) := by
  unfold siteCoreRegulated
  repeat' first | intro _ | (with_reducible first | assumption | apply frm_siteState | apply Frm.ite | fail_if_no_progress apply Frm.rest) | dsimp only | split

theorem frm_siteRailsTimeout {fm : Nat} {r0 : State} {n : Nat} {s : State} (hk : Frm fm r0 s) :
    Frm fm r0 (siteRailsTimeout n s) := by
  unfold siteRailsTimeout
  repeat' first | intro _ | (with_reducible first | assumption | apply frm_failSite | apply Frm.ite | fail_if_no_progress apply Frm.rest) | dsimp only | split

theorem frm_sidebandDetected {fm : Nat} {r0 : State} {n : Nat} {cxl : Option Bool} {s : State} (hk : Frm fm r0 s) :
    Frm fm r0 (sidebandDetected n cxl s) := by
  unfold sidebandDetected
  repeat' first | intro _ | (with_reducible first | assumption | apply frm_modEven | apply Frm.ite | fail_if_no_progress apply Frm.rest) | dsimp only | split

theorem frm_sidebandTimeout {fm : Nat} {r0 : State} {n : Nat} {s : State} (hk : Frm fm r0 s) :
    Frm fm r0 (sidebandTimeout n s) := by
  unfold sidebandTimeout
  repeat' first | intro _ | (with_reducible first | assumption | apply frm_failSite | apply Frm.ite | fail_if_no_progress apply Frm.rest) | dsimp only | split

theorem frm_noteTraining {fm : Nat} {r0 : State} {e modules : Nat} {repaired : List (Nat × Nat)} {disabled : List Nat} {s : State} (hm : Sub 16 fm) (hk : Frm fm r0 s) :
    Frm fm r0 (noteTraining e modules repaired disabled s) := by
  unfold noteTraining
  repeat' first | intro _ | (with_reducible first | assumption | apply frm_modSite | apply frm_judgeLinks | apply Frm.ite | fail_if_no_progress apply Frm.rest | exact Sub.trans (b := 16) rfl hm) | dsimp only | split

theorem frm_siteTrainingDone {fm : Nat} {r0 : State} {n modules : Nat} {repaired : List (Nat × Nat)} {disabled : List Nat} {both : Bool} {s : State} (hm : Sub 16 fm) (hk : Frm fm r0 s) :
    Frm fm r0 (siteTrainingDone n modules repaired disabled both s) := by
  unfold siteTrainingDone
  repeat' first | intro _ | (with_reducible first | assumption | apply frm_raise | apply frm_failSite | apply frm_siteState | apply frm_noteTraining | apply Frm.ite | fail_if_no_progress apply Frm.rest | exact Sub.trans (b := 16) rfl hm) | dsimp only | split

theorem frm_negotiateTimeout {fm : Nat} {r0 : State} {n : Nat} {s : State} (hk : Frm fm r0 s) :
    Frm fm r0 (negotiateTimeout n s) := by
  unfold negotiateTimeout
  repeat' first | intro _ | (with_reducible first | assumption | apply frm_failSite | apply Frm.ite | fail_if_no_progress apply Frm.rest) | dsimp only | split

theorem frm_attestComplete {fm : Nat} {r0 : State} {n : Nat} {a : AttestIn} {s : State} (hk : Frm fm r0 s) :
    Frm fm r0 (attestComplete n a s) := by
  unfold attestComplete
  repeat' first | intro _ | (with_reducible first | assumption | apply frm_modSite | apply frm_setMeas | apply frm_failSite | apply frm_siteState | apply Frm.ite | fail_if_no_progress apply Frm.rest) | dsimp only | split

theorem frm_attestTimeout {fm : Nat} {r0 : State} {n : Nat} {s : State} (hk : Frm fm r0 s) :
    Frm fm r0 (attestTimeout n s) := by
  unfold attestTimeout
  repeat' first | intro _ | (with_reducible first | assumption | apply frm_failSite | apply Frm.ite | fail_if_no_progress apply Frm.rest) | dsimp only | split

theorem frm_sendConfig {fm : Nat} {r0 : State} {e : Nat} {s : State} (hk : Frm fm r0 s) :
    Frm fm r0 (sendConfig e s) := by
  unfold sendConfig
  repeat' first | intro _ | (with_reducible first | assumption | apply frm_modSite | apply frm_geljaTo | apply Frm.ite | apply Frm.foldl | apply Frm.foldl2 | apply Frm.foldl3 | fail_if_no_progress apply Frm.rest) | dsimp only | split

theorem frm_crustLoaded {fm : Nat} {r0 : State} {n : Nat} {s : State} (hk : Frm fm r0 s) :
    Frm fm r0 (crustLoaded n s) := by
  unfold crustLoaded
  repeat' first | intro _ | (with_reducible first | assumption | apply frm_modSite | apply frm_siteState | apply frm_sendConfig | apply Frm.ite | fail_if_no_progress apply Frm.rest) | dsimp only | split

theorem frm_configTimeout {fm : Nat} {r0 : State} {n : Nat} {s : State} (hk : Frm fm r0 s) :
    Frm fm r0 (configTimeout n s) := by
  unfold configTimeout
  repeat' first | intro _ | (with_reducible first | assumption | apply frm_failSite | apply Frm.ite | fail_if_no_progress apply Frm.rest) | dsimp only | split

theorem frm_siteRetrainDone {fm : Nat} {r0 : State} {n modules : Nat} {repaired : List (Nat × Nat)} {s : State} (hm : Sub 16 fm) (hk : Frm fm r0 s) :
    Frm fm r0 (siteRetrainDone n modules repaired s) := by
  unfold siteRetrainDone
  repeat' first | intro _ | (with_reducible first | assumption | apply frm_drainSnoops | apply frm_siteState | apply frm_failRetrain | apply frm_payCredits | apply frm_noteTraining | apply Frm.ite | fail_if_no_progress apply Frm.rest | exact Sub.trans (b := 16) rfl hm) | dsimp only | split

theorem frm_siteRetrainTimeout {fm : Nat} {r0 : State} {n : Nat} {s : State} (hk : Frm fm r0 s) :
    Frm fm r0 (siteRetrainTimeout n s) := by
  unfold siteRetrainTimeout
  repeat' first | intro _ | (with_reducible first | assumption | apply frm_failRetrain | apply Frm.ite | fail_if_no_progress apply Frm.rest) | dsimp only | split

theorem frm_siteRailShort {fm : Nat} {r0 : State} {n : Nat} {s : State} (hk : Frm fm r0 s) :
    Frm fm r0 (siteRailShort n s) := by
  unfold siteRailShort
  repeat' first | intro _ | (with_reducible first | assumption | apply frm_shortSite | apply Frm.ite | fail_if_no_progress apply Frm.rest) | dsimp only | split

theorem frm_sitFence {fm : Nat} {r0 : State} {n : Nat} {s : State} (hk : Frm fm r0 s) :
    Frm fm r0 (sitFence n s) := by
  unfold sitFence
  repeat' first | intro _ | (with_reducible first | assumption | apply frm_requestSiteFence | apply frm_refuseWrite | apply Frm.ite | fail_if_no_progress apply Frm.rest) | dsimp only | split

theorem frm_sitReadmit {fm : Nat} {r0 : State} {n : Nat} {s : State} (hk : Frm fm r0 s) :
    Frm fm r0 (sitReadmit n s) := by
  unfold sitReadmit
  repeat' first | intro _ | (with_reducible first | assumption | apply frm_setSite | apply frm_modSite | apply frm_setDomain | apply frm_refuseWrite | apply Frm.ite | apply Frm.foldl | apply Frm.foldl2 | apply Frm.foldl3 | fail_if_no_progress apply Frm.rest) | dsimp only | split

theorem frm_sitRetrain {fm : Nat} {r0 : State} {n : Nat} {s : State} (hk : Frm fm r0 s) :
    Frm fm r0 (sitRetrain n s) := by
  unfold sitRetrain
  repeat' first | intro _ | (with_reducible first | assumption | apply frm_refuseWrite | apply frm_retrainSite | apply Frm.ite | fail_if_no_progress apply Frm.rest) | dsimp only | split

theorem frm_setVolt {fm : Nat} {r0 : State} {e v : Nat} {s : State} (hk : Frm fm r0 s) :
    Frm fm r0 (setVolt e v s) := by
  unfold setVolt
  repeat' first | intro _ | (with_reducible first | assumption | apply frm_setSite | apply Frm.ite | fail_if_no_progress apply Frm.rest) | dsimp only | split

theorem frm_sitVsetWrite {fm : Nat} {r0 : State} {n : Nat} {val : Word} {s : State} (hk : Frm fm r0 s) :
    Frm fm r0 (sitVsetWrite n val s) := by
  unfold sitVsetWrite
  repeat' first | intro _ | (with_reducible first | assumption | apply frm_refuseWrite | apply frm_setVolt | apply Frm.ite | fail_if_no_progress apply Frm.rest) | dsimp only | split

theorem frm_flushOff {fm : Nat} {r0 : State} {ks : List Nat} {s : State} (hk : Frm fm r0 s) :
    Frm fm r0 (flushOff ks s) := by
  unfold flushOff
  repeat' first | intro _ | (with_reducible first | assumption | apply frm_setDomain | apply frm_coreOff | apply Frm.ite | apply Frm.foldl | apply Frm.foldl2 | apply Frm.foldl3 | fail_if_no_progress apply Frm.rest) | dsimp only | split

theorem frm_flushTimeout {fm : Nat} {r0 : State} {n : Nat} {s : State} (hm : Sub 1 fm) (hk : Frm fm r0 s) :
    Frm fm r0 (flushTimeout n s) := by
  unfold flushTimeout
  repeat' first | intro _ | (with_reducible first | assumption | apply frm_dropSite | apply frm_tidySector | apply frm_atHome | apply frm_answerSnoop | apply Frm.ite | apply Frm.foldl | apply Frm.foldl2 | apply Frm.foldl3 | apply Frm.snd (by assumption) | fail_if_no_progress apply Frm.rest | exact Sub.trans (b := 1) rfl hm) | dsimp only | split

theorem frm_cachingSiteFlushDone {fm : Nat} {r0 : State} {n : Nat} {s : State} (hk : Frm fm r0 s) :
    Frm fm r0 (cachingSiteFlushDone n s) := by
  unfold cachingSiteFlushDone
  repeat' first | intro _ | (with_reducible first | assumption | apply frm_modSite | apply frm_flushOff | apply Frm.ite | fail_if_no_progress apply Frm.rest) | dsimp only | split

end Sys2Proof.Laws
end

