-- ==== Sys2Proof/Laws/FrameGelja.lean ====
section
/-! SUPPORT. What the operations of `Machine/Gelja.lean` leave alone: one lemma each. -/
namespace Sys2Proof.Laws
open Sys2Proof Sys2Proof.Machine Sys2Proof.Safety
set_option linter.unreachableTactic false
set_option linter.unusedTactic false

theorem frm_geljaRequest {fm : Nat} {r0 : State} {n op lo hi : Nat} {k : CrustClass} {caching : Bool} {m : GMsg} {go : Nat → Nat → State → State} {s : State} (hk : Frm fm r0 s) (kgo : ∀ a0 a1 x, Frm fm r0 x → Frm fm r0 (go a0 a1 x)) :
    Frm fm r0 (geljaRequest n op lo hi k caching m go s) := by
  unfold geljaRequest
  repeat' first | intro _ | (with_reducible first | assumption | apply kgo | apply frm_refuseGelja | apply frm_protocolError | apply frm_crustViolation | apply Frm.ite | fail_if_no_progress apply Frm.rest) | dsimp only | split

theorem frm_rdNc {fm : Nat} {r0 : State} {n : Nat} {m : GMsg} {s : State} (hk : Frm fm r0 s) :
    Frm fm r0 (rdNc n m s) := by
  unfold rdNc
  repeat' first | intro _ | (with_reducible first | assumption | apply frm_issueReq | apply frm_openTag | apply frm_geljaRequest | apply Frm.ite | fail_if_no_progress apply Frm.rest) | dsimp only | split

theorem frm_wr {fm : Nat} {r0 : State} {n : Nat} {m : GMsg} {s : State} (hk : Frm fm r0 s) :
    Frm fm r0 (wr n m s) := by
  unfold wr
  repeat' first | intro _ | (with_reducible first | assumption | apply frm_issueReq | apply frm_openTag | apply frm_geljaRequest | apply Frm.ite | fail_if_no_progress apply Frm.rest) | dsimp only | split

theorem frm_wrPart {fm : Nat} {r0 : State} {n : Nat} {m : GMsg} {s : State} (hk : Frm fm r0 s) :
    Frm fm r0 (wrPart n m s) := by
  unfold wrPart
  repeat' first | intro _ | (with_reducible first | assumption | apply frm_issueReq | apply frm_openTag | apply frm_geljaRequest | apply Frm.ite | fail_if_no_progress apply Frm.rest) | dsimp only | split

theorem frm_rdCur {fm : Nat} {r0 : State} {n : Nat} {m : GMsg} {s : State} (hm : Sub 1 fm) (hk : Frm fm r0 s) :
    Frm fm r0 (rdCur n m s) := by
  unfold rdCur
  repeat' first | intro _ | (with_reducible first | assumption | apply frm_issueReq | apply frm_openTag | apply frm_atHome | apply frm_geljaRequest | apply Frm.ite | apply Frm.snd (by assumption) | fail_if_no_progress apply Frm.rest | exact Sub.trans (b := 1) rfl hm) | dsimp only | split

theorem frm_cacheReq {fm : Nat} {r0 : State} {op : HOp} {code : Nat} {m : GMsg} {e pa : Nat} {s : State} (hm : Sub 1 fm) (hk : Frm fm r0 s) :
    Frm fm r0 (cacheReq op code m e pa s) := by
  unfold cacheReq
  repeat' first | intro _ | (with_reducible first | assumption | apply frm_refuseGelja | apply frm_openTag | apply frm_atHome | apply frm_cohRefused | apply Frm.ite | fail_if_no_progress apply Frm.rest | exact Sub.trans (b := 1) rfl hm) | dsimp only | split

theorem frm_filterUe {fm : Nat} {r0 : State} {line : Nat} {s : State} (hk : Frm fm r0 s) :
    Frm fm r0 (filterUe line s) := by
  unfold filterUe
  repeat' first | intro _ | (with_reducible first | assumption | apply frm_writeLog | apply frm_backInval | apply Frm.ite | apply Frm.foldl | apply Frm.foldl2 | apply Frm.foldl3 | fail_if_no_progress apply Frm.rest) | dsimp only | split

theorem frm_rdShared {fm : Nat} {r0 : State} {n : Nat} {m : GMsg} {ue : Bool} {s : State} (hm : Sub 1 fm) (hk : Frm fm r0 s) :
    Frm fm r0 (rdShared n m ue s) := by
  unfold rdShared
  repeat' first | intro _ | (with_reducible first | assumption | apply frm_geljaRequest | apply frm_cacheReq | apply frm_filterUe | apply Frm.ite | fail_if_no_progress apply Frm.rest | exact Sub.trans (b := 1) rfl hm) | dsimp only | split

theorem frm_rdOwn {fm : Nat} {r0 : State} {n : Nat} {m : GMsg} {s : State} (hm : Sub 1 fm) (hk : Frm fm r0 s) :
    Frm fm r0 (rdOwn n m s) := by
  unfold rdOwn
  repeat' first | intro _ | (with_reducible first | assumption | apply frm_geljaRequest | apply frm_cacheReq | apply Frm.ite | fail_if_no_progress apply Frm.rest | exact Sub.trans (b := 1) rfl hm) | dsimp only | split

theorem frm_upgrade {fm : Nat} {r0 : State} {n : Nat} {m : GMsg} {s : State} (hm : Sub 1 fm) (hk : Frm fm r0 s) :
    Frm fm r0 (upgrade n m s) := by
  unfold upgrade
  repeat' first | intro _ | (with_reducible first | assumption | apply frm_geljaRequest | apply frm_cacheReq | apply Frm.ite | fail_if_no_progress apply Frm.rest | exact Sub.trans (b := 1) rfl hm) | dsimp only | split

theorem frm_evictClean {fm : Nat} {r0 : State} {n : Nat} {m : GMsg} {s : State} (hm : Sub 1 fm) (hk : Frm fm r0 s) :
    Frm fm r0 (evictClean n m s) := by
  unfold evictClean
  repeat' first | intro _ | (with_reducible first | assumption | apply frm_geljaRequest | apply frm_cacheReq | apply Frm.ite | fail_if_no_progress apply Frm.rest | exact Sub.trans (b := 1) rfl hm) | dsimp only | split

theorem frm_wbDirty {fm : Nat} {r0 : State} {n : Nat} {m : GMsg} {s : State} (hm : Sub 1 fm) (hk : Frm fm r0 s) :
    Frm fm r0 (wbDirty n m s) := by
  unfold wbDirty
  repeat' first | intro _ | (with_reducible first | assumption | apply frm_geljaRequest | apply frm_cacheReq | apply Frm.ite | fail_if_no_progress apply Frm.rest | exact Sub.trans (b := 1) rfl hm) | dsimp only | split

theorem frm_geljaAnswer {fm : Nat} {r0 : State} {n op lo hi : Nat} {m : GMsg} {known : Site → Bool} {go : Nat → State → State} {s : State} (hk : Frm fm r0 s) (kgo : ∀ a0 x, Frm fm r0 x → Frm fm r0 (go a0 x)) :
    Frm fm r0 (geljaAnswer n op lo hi m known go s) := by
  unfold geljaAnswer
  repeat' first | intro _ | (with_reducible first | assumption | apply kgo | apply frm_protocolError | apply Frm.ite | fail_if_no_progress apply Frm.rest) | dsimp only | split

theorem frm_snpRsp {fm : Nat} {r0 : State} {n : Nat} {m : GMsg} {s : State} (hm : Sub 1 fm) (hk : Frm fm r0 s) :
    Frm fm r0 (snpRsp n m s) := by
  unfold snpRsp
  repeat' first | intro _ | (with_reducible first | assumption | apply frm_snoopAnswered | apply frm_geljaAnswer | apply Frm.ite | fail_if_no_progress apply Frm.rest | exact Sub.trans (b := 1) rfl hm) | dsimp only | split

theorem frm_snpRspData {fm : Nat} {r0 : State} {n : Nat} {m : GMsg} {s : State} (hm : Sub 1 fm) (hk : Frm fm r0 s) :
    Frm fm r0 (snpRspData n m s) := by
  unfold snpRspData
  repeat' first | intro _ | (with_reducible first | assumption | apply frm_snoopAnswered | apply frm_geljaAnswer | apply Frm.ite | fail_if_no_progress apply Frm.rest | exact Sub.trans (b := 1) rfl hm) | dsimp only | split

theorem frm_ack {fm : Nat} {r0 : State} {n : Nat} {m : GMsg} {s : State} (hm : Sub 1 fm) (hk : Frm fm r0 s) :
    Frm fm r0 (Machine.ack n m s) := by
  unfold Machine.ack
  repeat' first | intro _ | (with_reducible first | assumption | apply frm_closeTag | apply frm_grantAcked | apply frm_geljaAnswer | apply Frm.ite | fail_if_no_progress apply Frm.rest | exact Sub.trans (b := 1) rfl hm) | dsimp only | split

theorem frm_occupantAnswer {fm : Nat} {r0 : State} {e tag : Nat} {rd : Bool} {bs : List Byte} {poison refused : Bool} {s : State} (hk : Frm fm r0 s) :
    Frm fm r0 (occupantAnswer e tag rd bs poison refused s) := by
  unfold occupantAnswer
  repeat' first | intro _ | (with_reducible first | assumption | apply frm_modSite | apply frm_pushResp | apply Frm.ite | fail_if_no_progress apply Frm.rest) | dsimp only | split

theorem frm_rdData {fm : Nat} {r0 : State} {n : Nat} {m : GMsg} {s : State} (hk : Frm fm r0 s) :
    Frm fm r0 (rdData n m s) := by
  unfold rdData
  repeat' first | intro _ | (with_reducible first | assumption | apply frm_geljaAnswer | apply frm_occupantAnswer | apply Frm.ite | fail_if_no_progress apply Frm.rest) | dsimp only | split

theorem frm_cmp {fm : Nat} {r0 : State} {n : Nat} {m : GMsg} {s : State} (hk : Frm fm r0 s) :
    Frm fm r0 (Machine.cmp n m s) := by
  unfold Machine.cmp
  repeat' first | intro _ | (with_reducible first | assumption | apply frm_geljaAnswer | apply frm_occupantAnswer | apply Frm.ite | fail_if_no_progress apply Frm.rest) | dsimp only | split

theorem frm_occupantRspTimeout {fm : Nat} {r0 : State} {n tag : Nat} {s : State} (hk : Frm fm r0 s) :
    Frm fm r0 (occupantRspTimeout n tag s) := by
  unfold occupantRspTimeout
  repeat' first | intro _ | (with_reducible first | assumption | apply frm_modSite | apply frm_raise | apply frm_freeBytes | apply frm_pushResp | apply Frm.ite | apply Frm.snd (by assumption) | fail_if_no_progress apply Frm.rest) | dsimp only | split

theorem frm_identity {fm : Nat} {r0 : State} {n : Nat} {m : GMsg} {s : State} (hk : Frm fm r0 s) :
    Frm fm r0 (identity n m s) := by
  unfold identity
  repeat' first | intro _ | (with_reducible first | assumption | apply frm_modSite | apply frm_failSite | apply frm_siteState | apply frm_protocolError | apply Frm.ite | fail_if_no_progress apply Frm.rest) | dsimp only | split

theorem frm_arriveInfo {fm : Nat} {r0 : State} {n : Nat} {m : GMsg} {s : State} (hk : Frm fm r0 s) :
    Frm fm r0 (arriveInfo n m s) := by
  unfold arriveInfo
  repeat' first | intro _ | (with_reducible first | assumption | apply frm_markFlag | apply frm_protocolError | apply Frm.ite | fail_if_no_progress apply Frm.rest) | dsimp only | split

theorem frm_voltReq {fm : Nat} {r0 : State} {n : Nat} {m : GMsg} {s : State} (hk : Frm fm r0 s) :
    Frm fm r0 (voltReq n m s) := by
  unfold voltReq
  repeat' first | intro _ | (with_reducible first | assumption | apply frm_geljaTo | apply frm_protocolError | apply frm_setVolt | apply Frm.ite | fail_if_no_progress apply Frm.rest) | dsimp only | split

theorem frm_credit {fm : Nat} {r0 : State} {n : Nat} {m : GMsg} {s : State} (hk : Frm fm r0 s) :
    Frm fm r0 (credit n m s) := by
  unfold credit
  repeat' first | intro _ | (with_reducible first | assumption | apply frm_setSite | apply frm_drainSnoops | apply frm_protocolError | apply Frm.ite | fail_if_no_progress apply Frm.rest) | dsimp only | split

end Sys2Proof.Laws
end

