-- ==== Sys2Proof/Laws/FrameCxl.lean ====
section
/-! SUPPORT. What the operations of `Machine/Cxl.lean` leave alone: one lemma each. -/
namespace Sys2Proof.Laws
open Sys2Proof Sys2Proof.Machine Sys2Proof.Safety
set_option linter.unreachableTactic false
set_option linter.unusedTactic false

theorem frm_cxlSay {fm : Nat} {r0 : State} {n : Nat} {m : CxlMsg} {ops : List String} {s : State} (hk : Frm fm r0 s) :
    Frm fm r0 (cxlSay n m ops s) := by
  unfold cxlSay
  repeat' first | intro _ | (with_reducible first | assumption | apply frm_emit | apply Frm.ite | apply Frm.foldl | apply Frm.foldl2 | apply Frm.foldl3 | fail_if_no_progress apply Frm.rest) | dsimp only | split

theorem frm_cxlPoison {fm : Nat} {r0 : State} {n : Nat} {m : CxlMsg} {s : State} (hk : Frm fm r0 s) :
    Frm fm r0 (cxlPoison n m s) := by
  unfold cxlPoison
  repeat' first | intro _ | (with_reducible first | assumption | apply frm_emit | apply frm_freeBytes | apply Frm.ite | fail_if_no_progress apply Frm.rest) | dsimp only | split

theorem frm_cxlRequest {fm : Nat} {r0 : State} {n : Nat} {k : CrustClass} {m : CxlMsg} {no : Nat → State → State} {go : Nat → Nat → State → State} {s : State} (hk : Frm fm r0 s) (kno : ∀ a0 x, Frm fm r0 x → Frm fm r0 (no a0 x)) (kgo : ∀ a0 a1 x, Frm fm r0 x → Frm fm r0 (go a0 a1 x)) :
    Frm fm r0 (cxlRequest n k m no go s) := by
  unfold cxlRequest
  repeat' first | intro _ | (with_reducible first | assumption | apply kno | apply kgo | apply frm_crustViolation | apply Frm.ite | fail_if_no_progress apply Frm.rest) | dsimp only | split

theorem frm_cxlCache {fm : Nat} {r0 : State} {op : HOp} {o : Nat} {m : CxlMsg} {no : Nat → State → State} {e pa : Nat} {s : State} (hm : Sub 1 fm) (hk : Frm fm r0 s) (kno : ∀ a0 x, Frm fm r0 x → Frm fm r0 (no a0 x)) :
    Frm fm r0 (cxlCache op o m no e pa s) := by
  unfold cxlCache
  repeat' first | intro _ | (with_reducible first | assumption | apply kno | apply frm_atHome | apply frm_cohRefused | apply Frm.ite | fail_if_no_progress apply Frm.rest | exact Sub.trans (b := 1) rfl hm) | dsimp only | split

theorem frm_cxlNoc {fm : Nat} {r0 : State} {e pa len op : Nat} {write : Bool} {m : CxlMsg} {s : State} (hk : Frm fm r0 s) :
    Frm fm r0 (cxlNoc e pa len op write m s) := by
  unfold cxlNoc
  repeat' first | intro _ | (with_reducible first | assumption | apply frm_issueReq | apply Frm.ite | fail_if_no_progress apply Frm.rest) | dsimp only | split

theorem frm_cxlRdcurr {fm : Nat} {r0 : State} {n : Nat} {m : CxlMsg} {s : State} (hm : Sub 1 fm) (hk : Frm fm r0 s) :
    Frm fm r0 (cxlRdcurr n m s) := by
  unfold cxlRdcurr
  repeat' first | intro _ | (with_reducible first | assumption | apply frm_atHome | apply frm_cxlPoison | apply frm_cxlRequest | apply frm_cxlNoc | apply Frm.ite | fail_if_no_progress apply Frm.rest | exact Sub.trans (b := 1) rfl hm) | dsimp only | split

theorem frm_cxlCleanevict {fm : Nat} {r0 : State} {n : Nat} {m : CxlMsg} {s : State} (hm : Sub 1 fm) (hk : Frm fm r0 s) :
    Frm fm r0 (cxlCleanevict n m s) := by
  unfold cxlCleanevict
  repeat' first | intro _ | (with_reducible first | assumption | apply frm_cxlSay | apply frm_cxlRequest | apply frm_cxlCache | apply Frm.ite | fail_if_no_progress apply Frm.rest | exact Sub.trans (b := 1) rfl hm) | dsimp only | split

theorem frm_cxlDirtyevict {fm : Nat} {r0 : State} {n : Nat} {m : CxlMsg} {s : State} (hm : Sub 1 fm) (hk : Frm fm r0 s) :
    Frm fm r0 (cxlDirtyevict n m s) := by
  unfold cxlDirtyevict
  repeat' first | intro _ | (with_reducible first | assumption | apply frm_cxlSay | apply frm_cxlRequest | apply frm_cxlCache | apply Frm.ite | fail_if_no_progress apply Frm.rest | exact Sub.trans (b := 1) rfl hm) | dsimp only | split

theorem frm_cxlItomwr {fm : Nat} {r0 : State} {n : Nat} {m : CxlMsg} {s : State} (hm : Sub 1 fm) (hk : Frm fm r0 s) :
    Frm fm r0 (cxlItomwr n m s) := by
  unfold cxlItomwr
  repeat' first | intro _ | (with_reducible first | assumption | apply frm_atHome | apply frm_cxlSay | apply frm_cxlRequest | apply frm_cxlNoc | apply Frm.ite | fail_if_no_progress apply Frm.rest | exact Sub.trans (b := 1) rfl hm) | dsimp only | split

theorem frm_cxlSnoopResponse {fm : Nat} {r0 : State} {n : Nat} {rsp : CxlSnpRsp} {m : CxlMsg} {s : State} (hm : Sub 1 fm) (hk : Frm fm r0 s) :
    Frm fm r0 (cxlSnoopResponse n rsp m s) := by
  unfold cxlSnoopResponse
  repeat' first | intro _ | (with_reducible first | assumption | apply frm_protocolError | apply frm_snoopAnswered | apply Frm.ite | fail_if_no_progress apply Frm.rest | exact Sub.trans (b := 1) rfl hm) | dsimp only | split

theorem frm_cxlGoAcked {fm : Nat} {r0 : State} {n tag : Nat} {s : State} (hm : Sub 1 fm) (hk : Frm fm r0 s) :
    Frm fm r0 (cxlGoAcked n tag s) := by
  unfold cxlGoAcked
  repeat' first | intro _ | (with_reducible first | assumption | apply frm_modSite | apply frm_grantAcked | apply Frm.ite | fail_if_no_progress apply Frm.rest | exact Sub.trans (b := 1) rfl hm) | dsimp only | split

theorem frm_cxlMemResponse {fm : Nat} {r0 : State} {n tag : Nat} {data : List Byte} {poison : Bool} {s : State} (hk : Frm fm r0 s) :
    Frm fm r0 (cxlMemResponse n tag data poison s) := by
  unfold cxlMemResponse
  repeat' first | intro _ | (with_reducible first | assumption | apply frm_occupantAnswer | apply Frm.ite | fail_if_no_progress apply Frm.rest) | dsimp only | split

theorem frm_cxlIoRequest {fm : Nat} {r0 : State} {n : Nat} {kind : CxlIo} {m : CxlMsg} {s : State} (hk : Frm fm r0 s) :
    Frm fm r0 (cxlIoRequest n kind m s) := by
  unfold cxlIoRequest
  repeat' first | intro _ | (with_reducible first | assumption | apply frm_crustViolation | apply frm_cxlSay | apply frm_cxlNoc | apply Frm.ite | fail_if_no_progress apply Frm.rest) | dsimp only | split

end Sys2Proof.Laws
end

