-- ==== Sys2Proof/Laws/FrameHostIo.lean ====
section
/-! SUPPORT. What the operations of `Machine/HostIo.lean` leave alone: one lemma each. -/
namespace Sys2Proof.Laws
open Sys2Proof Sys2Proof.Machine Sys2Proof.Safety
set_option linter.unreachableTactic false
set_option linter.unusedTactic false

theorem frm_atsTranslationCompletion {fm : Nat} {r0 : State} {e iova size host : Nat} {r w : Bool} {cpl : CplStat} {s : State} (hk : Frm fm r0 s) :
    Frm fm r0 (atsTranslationCompletion e iova size host r w cpl s) := by
  unfold atsTranslationCompletion
  repeat' first | intro _ | (with_reducible first | assumption | apply frm_setXfe | apply frm_xlFill | apply frm_raise | apply frm_pumpXfe | apply frm_ringRetry | apply Frm.ite | fail_if_no_progress apply Frm.rest) | dsimp only | split

theorem frm_pageLost {fm : Nat} {r0 : State} {e : Nat} {s : State} (hk : Frm fm r0 s) :
    Frm fm r0 (pageLost e s) := by
  unfold pageLost
  repeat' first | intro _ | (with_reducible first | assumption | apply frm_setXfe | apply frm_modVi | apply frm_raise | apply frm_endAtElem | apply frm_requestQuiesce | apply Frm.ite | fail_if_no_progress apply Frm.rest) | dsimp only | split

theorem frm_prgResponse {fm : Nat} {r0 : State} {e : Nat} {code : PrgCode} {s : State} (hk : Frm fm r0 s) :
    Frm fm r0 (prgResponse e code s) := by
  unfold prgResponse
  repeat' first | intro _ | (with_reducible first | assumption | apply frm_setXfe | apply frm_raise | apply frm_sendPageReqs | apply frm_pumpXfe | apply frm_ringRetry | apply frm_pageLost | apply Frm.ite | apply Frm.foldl | apply Frm.foldl2 | apply Frm.foldl3 | fail_if_no_progress apply Frm.rest) | dsimp only | split

theorem frm_hostReadEnds {fm : Nat} {r0 : State} {tag : Nat} {ok poison : Bool} {data : List Byte} {s : State} (hk : Frm fm r0 s) :
    Frm fm r0 (hostReadEnds tag ok poison data s) := by
  unfold hostReadEnds
  repeat' first | intro _ | (with_reducible first | assumption | apply frm_raise | apply frm_completeStats | apply frm_pumpAll | apply frm_xfeRead | apply frm_xfeReadFailed | apply frm_ringReturned | apply frm_ringRetryAll | apply Frm.ite | fail_if_no_progress apply Frm.rest) | dsimp only | split

theorem frm_hostCompletionTimeout {fm : Nat} {r0 : State} {tag : Nat} {s : State} (hk : Frm fm r0 s) :
    Frm fm r0 (hostCompletionTimeout tag s) := by
  unfold hostCompletionTimeout
  repeat' first | intro _ | (with_reducible first | assumption | apply frm_raise | apply frm_hostReadEnds | apply Frm.ite | fail_if_no_progress apply Frm.rest) | dsimp only | split

end Sys2Proof.Laws
end

