-- ==== Sys2Proof/Laws/FrameHost.lean ====
section
/-! SUPPORT. What the operations of `Machine/Host.lean` leave alone: one lemma each. -/
namespace Sys2Proof.Laws
open Sys2Proof Sys2Proof.Machine Sys2Proof.Safety
set_option linter.unreachableTactic false
set_option linter.unusedTactic false

theorem frm_vifAttach {fm : Nat} {r0 : State} {v : Nat} {val : Word} {s : State} (hk : Frm fm r0 s) :
    Frm fm r0 (vifAttach v val s) := by
  unfold vifAttach
  repeat' first | intro _ | (with_reducible first | assumption | apply frm_modVi | apply frm_raise | apply frm_viFault | apply frm_deliverHeld | apply Frm.ite | fail_if_no_progress apply Frm.rest) | dsimp only | split

theorem frm_vifDetach {fm : Nat} {r0 : State} {v : Nat} {s : State} (hk : Frm fm r0 s) :
    Frm fm r0 (vifDetach v s) := by
  unfold vifDetach
  repeat' first | intro _ | (with_reducible first | assumption | apply frm_setVi | apply frm_detachVi | apply Frm.ite | fail_if_no_progress apply Frm.rest) | dsimp only | split

theorem frm_vifLease {fm : Nat} {r0 : State} {v : Nat} {s : State} (hk : Frm fm r0 s) :
    Frm fm r0 (vifLease v s) := by
  unfold vifLease
  repeat' first | intro _ | (with_reducible first | assumption | apply frm_modVi | apply Frm.ite | fail_if_no_progress apply Frm.rest) | dsimp only | split

theorem frm_leaseWarn {fm : Nat} {r0 : State} {v : Nat} {s : State} (hk : Frm fm r0 s) :
    Frm fm r0 (leaseWarn v s) := by
  unfold leaseWarn
  repeat' first | intro _ | (with_reducible first | assumption | apply frm_setVi | apply frm_refresh | apply Frm.ite | fail_if_no_progress apply Frm.rest) | dsimp only | split

theorem frm_leaseExpiry {fm : Nat} {r0 : State} {v : Nat} {s : State} (hk : Frm fm r0 s) :
    Frm fm r0 (leaseExpiry v s) := by
  unfold leaseExpiry
  repeat' first | intro _ | (with_reducible first | assumption | apply frm_raise | apply frm_requestQuiesce | apply Frm.ite | fail_if_no_progress apply Frm.rest) | dsimp only | split

theorem frm_fetchSlot {fm : Nat} {r0 : State} {v : Nat} {s : State} (hk : Frm fm r0 s) :
    Frm fm r0 (fetchSlot v s) := by
  unfold fetchSlot
  repeat' first | intro _ | (with_reducible first | assumption | apply frm_modPart | apply frm_modVi | apply frm_deliverHeld | apply frm_deliverN | apply frm_ringRead | apply Frm.ite | fail_if_no_progress apply Frm.rest) | dsimp only | split

theorem frm_ringReadCompletion {fm : Nat} {r0 : State} {v : Nat} {cpl : CplStat} {data : List (BitVec 512)} {s : State} (hk : Frm fm r0 s) :
    Frm fm r0 (ringReadCompletion v cpl data s) := by
  unfold ringReadCompletion
  repeat' first | intro _ | (with_reducible first | assumption | apply frm_pumpAll | apply frm_ringReturned | apply frm_ringRetryAll | apply Frm.ite | apply Frm.foldl | apply Frm.foldl2 | apply Frm.foldl3 | fail_if_no_progress apply Frm.rest) | dsimp only | split

theorem frm_cmdDeliver {fm : Nat} {r0 : State} {op v : Nat} {s : State} (hk : Frm fm r0 s) :
    Frm fm r0 (cmdDeliver op v s) := by
  unfold cmdDeliver
  repeat' first | intro _ | (with_reducible first | assumption | apply frm_refresh | apply frm_deliverRecord | apply Frm.ite | fail_if_no_progress apply Frm.rest) | dsimp only | split

theorem frm_hstAttach {fm : Nat} {r0 : State} {val : Word} {s : State} (hk : Frm fm r0 s) :
    Frm fm r0 (hstAttach val s) := by
  unfold hstAttach
  repeat' first | intro _ | (with_reducible first | assumption | apply Frm.ite | fail_if_no_progress apply Frm.rest) | dsimp only | split

theorem frm_drvLeaseExpiry {fm : Nat} {r0 : State} {s : State} (hm : Sub 24578 fm) (hk : Frm fm r0 s) :
    Frm fm r0 (drvLeaseExpiry s) := by
  unfold drvLeaseExpiry
  repeat' first | intro _ | (with_reducible first | assumption | apply frm_stopDma | apply Frm.ite | fail_if_no_progress apply Frm.rest | exact Sub.trans (b := 24578) rfl hm) | dsimp only | split

theorem frm_perstAssert {fm : Nat} {r0 : State} {s : State} (hm : Sub 28674 fm) (hk : Frm fm r0 s) :
    Frm fm r0 (perstAssert s) := by
  unfold perstAssert
  repeat' first | intro _ | (with_reducible first | assumption | apply frm_stopDma | apply frm_resetHostIsland | apply Frm.ite | fail_if_no_progress apply Frm.rest | exact Sub.trans (b := 28674) rfl hm) | dsimp only | split

theorem frm_linkCame {fm : Nat} {r0 : State} {rate width : Nat} {flit : Bool} {s : State} (hk : Frm fm r0 s) :
    Frm fm r0 (linkCame rate width flit s) := by
  unfold linkCame
  repeat' first | intro _ | (with_reducible first | assumption | apply frm_refresh | apply Frm.ite | fail_if_no_progress apply Frm.rest) | dsimp only | split

theorem frm_pcieLinkDown {fm : Nat} {r0 : State} {s : State} (hm : Sub 24578 fm) (hk : Frm fm r0 s) :
    Frm fm r0 (pcieLinkDown s) := by
  unfold pcieLinkDown
  repeat' first | intro _ | (with_reducible first | assumption | apply frm_raise | apply frm_stopDma | apply Frm.ite | fail_if_no_progress apply Frm.rest | exact Sub.trans (b := 24578) rfl hm) | dsimp only | split

end Sys2Proof.Laws
end

