-- ==== Sys2Proof/Laws/FrameMapOps.lean ====
section
/-! SUPPORT. What the operations of `Machine/MapOps.lean` leave alone: one lemma each. -/
namespace Sys2Proof.Laws
open Sys2Proof Sys2Proof.Machine Sys2Proof.Safety
set_option linter.unreachableTactic false
set_option linter.unusedTactic false

theorem frm_chooseRun {fm : Nat} {r0 : State} {p : Nat} {hbm : Bool} {k : Nat} {s : State} (hk : Frm fm r0 s) :
    FrmP fm r0 (chooseRun p hbm k s) := by
  unfold chooseRun
  repeat' first | intro _ | (with_reducible first | assumption | apply Frm.ite | apply FrmP.none | apply FrmP.some | apply FrmP.ite | apply FrmP.map | apply FrmP.mapV | fail_if_no_progress apply Frm.rest) | dsimp only | split

theorem frm_assignRun {fm : Nat} {r0 : State} {ctx : Nat} {wide : Bool} {k g : Nat} {s : State} (hk : Frm fm r0 s) :
    Frm fm r0 (assignRun ctx wide k g s) := by
  unfold assignRun
  repeat' first | intro _ | (with_reducible first | assumption | apply frm_setGranule | apply frm_zeroGranule | apply Frm.ite | apply Frm.foldl | apply Frm.foldl2 | apply Frm.foldl3 | fail_if_no_progress apply Frm.rest) | dsimp only | split

theorem frm_newTable {fm : Nat} {r0 : State} {p : Nat} {hbm : Bool} {s : State} (hk : Frm fm r0 s) :
    FrmP fm r0 (newTable p hbm s) := by
  unfold newTable
  repeat' first | intro _ | (with_reducible first | assumption | apply frm_zeroGranule | apply frm_chooseRun | apply Frm.ite | apply Frm.optP (by assumption) | apply FrmP.none | apply FrmP.some | apply FrmP.ite | apply FrmP.map | apply FrmP.mapV | fail_if_no_progress apply Frm.rest) | dsimp only | split

theorem frm_writePte {fm : Nat} {r0 : State} {a v : Nat} {s : State} (hm : Sub 1 fm) (hk : Frm fm r0 s) :
    Frm fm r0 (writePte a v s) := by
  unfold writePte
  repeat' first | intro _ | (with_reducible first | assumption | apply frm_memPut | apply Frm.ite | fail_if_no_progress apply Frm.rest | exact Sub.trans (b := 1) rfl hm) | dsimp only | split

theorem frm_enterPage {fm : Nat} {r0 : State} {p : Nat} {m : DevMap} {hbm : Bool} (hm : Sub 1 fm) : ∀ (a0 : Nat) {a1 : Nat} {a2 : State}, Frm fm r0 a2 → FrmO fm r0 (enterPage p m hbm a0 a1 a2) := by
  intro a0
  induction a0 with
  | zero =>
    intros
    unfold enterPage
    repeat' first | intro _ | (with_reducible first | assumption | apply frm_newTable | apply frm_writePte | apply Frm.ite | apply Frm.foldl | apply Frm.foldl2 | apply Frm.foldl3 | apply Frm.optP (by assumption) | apply FrmO.none | apply FrmO.some | apply FrmO.ite | exact Frm.ofO (by assumption) | apply FrmP.none | apply FrmP.some | apply FrmP.ite | apply FrmP.foldl | exact Frm.ofP (by assumption) | fail_if_no_progress apply Frm.rest | exact Sub.trans (b := 1) rfl hm) | dsimp only | split
  | succ _ ih =>
    intros
    unfold enterPage
    repeat' first | intro _ | (with_reducible first | assumption | apply ih | apply frm_newTable | apply frm_writePte | apply Frm.ite | apply Frm.foldl | apply Frm.foldl2 | apply Frm.foldl3 | apply Frm.optP (by assumption) | apply FrmO.none | apply FrmO.some | apply FrmO.ite | exact Frm.ofO (by assumption) | apply FrmP.none | apply FrmP.some | apply FrmP.ite | apply FrmP.foldl | exact Frm.ofP (by assumption) | fail_if_no_progress apply Frm.rest | exact Sub.trans (b := 1) rfl hm) | dsimp only | split

theorem frm_mapPage {fm : Nat} {r0 : State} {p : Nat} {m : DevMap} {s : State} (hm : Sub 5 fm) (hk : Frm fm r0 s) :
    FrmO fm r0 (mapPage p m s) := by
  unfold mapPage
  repeat' first | intro _ | (with_reducible first | assumption | apply frm_xlForget | apply frm_newTable | apply frm_enterPage | apply Frm.ite | apply Frm.opt (by assumption) | apply Frm.optP (by assumption) | apply FrmO.none | apply FrmO.some | apply FrmO.ite | apply FrmO.map | apply FrmP.none | apply FrmP.some | apply FrmP.ite | apply FrmP.map | apply FrmP.mapV | fail_if_no_progress apply Frm.rest | exact Sub.trans (b := 5) rfl hm) | dsimp only | split | (with_reducible first | apply Frm.ch2)

theorem frm_mapPages {fm : Nat} {r0 : State} {p : Nat} (hm : Sub 5 fm) : ∀ (a0 : List DevMap) {a1 : State}, Frm fm r0 a1 → FrmO fm r0 (mapPages p a0 a1) := by
  intro a0
  induction a0 with
  | nil =>
    intros
    unfold mapPages
    repeat' first | intro _ | (with_reducible first | assumption | apply frm_mapPage | apply Frm.ite | apply Frm.opt (by assumption) | apply FrmO.none | apply FrmO.some | apply FrmO.ite | fail_if_no_progress apply Frm.rest | exact Sub.trans (b := 5) rfl hm) | dsimp only | split
  | cons _ _ ih =>
    intros
    unfold mapPages
    repeat' first | intro _ | (with_reducible first | assumption | apply ih | apply frm_mapPage | apply Frm.ite | apply Frm.opt (by assumption) | apply FrmO.none | apply FrmO.some | apply FrmO.ite | fail_if_no_progress apply Frm.rest | exact Sub.trans (b := 5) rfl hm) | dsimp only | split

theorem frm_rebuildTables {fm : Nat} {r0 : State} {p : Nat} {s : State} (hm : Sub 5 fm) (hk : Frm fm r0 s) :
    Frm fm r0 (rebuildTables p s) := by
  unfold rebuildTables
  repeat' first | intro _ | (with_reducible first | assumption | apply frm_xlDrop | apply frm_releaseGran | apply frm_mapPage | apply Frm.ite | apply Frm.foldl | apply Frm.foldl2 | apply Frm.foldl3 | apply Frm.opt (by assumption) | apply Frm.getD | apply FrmO.none | apply FrmO.some | apply FrmO.ite | apply FrmO.map | exact Frm.ofO (by assumption) | fail_if_no_progress apply Frm.rest | exact Sub.trans (b := 5) rfl hm) | dsimp only | split | (with_reducible first | apply Frm.ch2)

theorem frm_takeRuns {fm : Nat} {r0 : State} {p : Nat} {hbm : Bool} {k ctx : Nat} {wide : Bool} {runs : Nat} {s : State} (hk : Frm fm r0 s) :
    FrmP fm r0 (takeRuns p hbm k ctx wide runs s) := by
  unfold takeRuns
  repeat' first | intro _ | (with_reducible first | assumption | apply frm_chooseRun | apply frm_assignRun | apply Frm.ite | apply Frm.foldl | apply Frm.foldl2 | apply Frm.foldl3 | apply Frm.optP (by assumption) | apply FrmP.none | apply FrmP.some | apply FrmP.ite | apply FrmP.map | apply FrmP.mapV | apply FrmP.foldl | exact Frm.ofP (by assumption) | fail_if_no_progress apply Frm.rest) | dsimp only | split

theorem frm_mapEnds {fm : Nat} {r0 : State} {p ctx dva pg n per w total : Nat} {s : State} {o : Option (List Nat × State)} (hm : Sub 16389 fm)
    (hk : Frm fm r0 s) (ho : FrmP fm r0 o) : Frm fm r0 (mapEnds p ctx dva pg n per w total s o) := by
  unfold mapEnds
  split
  · exact frm_mbEnd (Sub.trans (by decide) hm) hk
  · split
    · exact frm_mbEnd (Sub.trans (by decide) hm) hk
    · exact frm_mbEnd (Sub.trans (by decide) hm) (Frm.opt (by assumption) (frm_mapPages (Sub.trans (by decide) hm) _ (Frm.ofP ho)))

theorem frm_mapDevice {fm : Nat} {r0 : State} {s : State} (hm : Sub 16389 fm) (hk : Frm fm r0 s) :
    Frm fm r0 (mapDevice s) := by
  unfold mapDevice
  repeat' first | intro _ | (with_reducible first | assumption | apply frm_mbEnd | apply frm_takeRuns | apply frm_mapEnds | apply frm_takeRuns | apply Frm.ite | apply Frm.optP (by assumption) | apply FrmP.none | apply FrmP.some | apply FrmP.ite | apply FrmP.map | apply FrmP.mapV | fail_if_no_progress apply Frm.rest | exact Sub.trans (b := 16389) rfl hm) | dsimp only | split

theorem frm_unmapDevice {fm : Nat} {r0 : State} {s : State} (hm : Sub 16389 fm) (hk : Frm fm r0 s) :
    Frm fm r0 (unmapDevice s) := by
  unfold unmapDevice
  repeat' first | intro _ | (with_reducible first | assumption | apply frm_releaseGran | apply frm_mbEnd | apply frm_rebuildTables | apply Frm.ite | apply Frm.foldl | apply Frm.foldl2 | apply Frm.foldl3 | apply Frm.foldl4 | fail_if_no_progress apply Frm.rest | exact Sub.trans (b := 16389) rfl hm) | dsimp only | split | (with_reducible first | apply Frm.ch2)

end Sys2Proof.Laws
end

