-- ==== Sys2Proof/Laws/FrameUops.lean ====
section
/-! SUPPORT. What the operations of `Machine/Uops.lean` leave alone: one lemma each. -/
namespace Sys2Proof.Laws
open Sys2Proof Sys2Proof.Machine Sys2Proof.Safety
set_option linter.unreachableTactic false
set_option linter.unusedTactic false

theorem frm_uNop {fm : Nat} {r0 : State} {n : Nat} {s : State} (hk : Frm fm r0 s) :
    Frm fm r0 (uNop n s) := by
  unfold uNop
  repeat' first | intro _ | (with_reducible first | assumption | apply frm_issue | apply Frm.ite | fail_if_no_progress apply Frm.rest) | dsimp only | split

theorem frm_uEnd {fm : Nat} {r0 : State} {n : Nat} {s : State} (hk : Frm fm r0 s) :
    Frm fm r0 (uEnd n s) := by
  unfold uEnd
  repeat' first | intro _ | (with_reducible first | assumption | apply frm_issue | apply Frm.ite | fail_if_no_progress apply Frm.rest) | dsimp only | split

theorem frm_loopBody {fm : Nat} {r0 : State} {x : UCtx} {s : State} (hk : Frm fm r0 s) :
    Frm fm r0 (loopBody x s).st := by
  unfold loopBody
  repeat' first | intro _ | (with_reducible first | assumption | apply frm_setCell | apply Frm.ite | fail_if_no_progress apply Frm.rest) | dsimp only | split

theorem frm_uLoop {fm : Nat} {r0 : State} {n : Nat} {s : State} (hk : Frm fm r0 s) :
    Frm fm r0 (uLoop n s) := by
  unfold uLoop
  repeat' first | intro _ | (with_reducible first | assumption | apply frm_issue | apply frm_loopBody | apply Frm.ite | fail_if_no_progress apply Frm.rest) | dsimp only | split

theorem frm_uWaitp {fm : Nat} {r0 : State} {n : Nat} {s : State} (hk : Frm fm r0 s) :
    Frm fm r0 (uWaitp n s) := by
  unfold uWaitp
  repeat' first | intro _ | (with_reducible first | assumption | apply frm_setCell | apply frm_issue | apply Frm.ite | fail_if_no_progress apply Frm.rest) | dsimp only | split

theorem frm_uSync {fm : Nat} {r0 : State} {n : Nat} {s : State} (hk : Frm fm r0 s) :
    Frm fm r0 (uSync n s) := by
  unfold uSync
  repeat' first | intro _ | (with_reducible first | assumption | apply frm_setCell | apply frm_syncColumn | apply frm_issue | apply Frm.ite | fail_if_no_progress apply Frm.rest) | dsimp only | split

theorem frm_uLd {fm : Nat} {r0 : State} {n : Nat} {e : Ecc} {s : State} (hk : Frm fm r0 s) :
    Frm fm r0 (uLd n e s) := by
  unfold uLd
  repeat' first | intro _ | (with_reducible first | assumption | apply frm_markFlag | apply frm_cellCheck | apply frm_issue | apply frm_bumpLp | apply Frm.ite | fail_if_no_progress apply Frm.rest) | dsimp only | split

theorem frm_uSt {fm : Nat} {r0 : State} {n : Nat} {e : Ecc} {s : State} (hk : Frm fm r0 s) :
    Frm fm r0 (uSt n e s) := by
  unfold uSt
  repeat' first | intro _ | (with_reducible first | assumption | apply frm_setCell | apply frm_cellCheck | apply frm_issue | apply frm_bumpLp | apply Frm.ite | fail_if_no_progress apply Frm.rest) | dsimp only | split

theorem frm_uGet {fm : Nat} {r0 : State} {n : Nat} {s : State} (hk : Frm fm r0 s) :
    Frm fm r0 (uGet n s) := by
  unfold uGet
  repeat' first | intro _ | (with_reducible first | assumption | apply frm_setCell | apply frm_issue | apply frm_cellRead | apply frm_bumpB | apply Frm.ite | fail_if_no_progress apply Frm.rest) | dsimp only | split

theorem frm_uPut {fm : Nat} {r0 : State} {n : Nat} {s : State} (hk : Frm fm r0 s) :
    Frm fm r0 (uPut n s) := by
  unfold uPut
  repeat' first | intro _ | (with_reducible first | assumption | apply frm_issue | apply frm_cellWrite | apply frm_bumpB | apply Frm.ite | fail_if_no_progress apply Frm.rest) | dsimp only | split

theorem frm_uLdc {fm : Nat} {r0 : State} {n : Nat} {e : Ecc} {s : State} (hk : Frm fm r0 s) :
    Frm fm r0 (uLdc n e s) := by
  unfold uLdc
  repeat' first | intro _ | (with_reducible first | assumption | apply frm_cellCheck | apply frm_issue | apply Frm.ite | fail_if_no_progress apply Frm.rest) | dsimp only | split

theorem frm_uGather {fm : Nat} {r0 : State} {n : Nat} {s : State} (hk : Frm fm r0 s) :
    Frm fm r0 (uGather n s) := by
  unfold uGather
  repeat' first | intro _ | (with_reducible first | assumption | apply frm_setCell | apply frm_issue | apply frm_cellRead | apply Frm.ite | fail_if_no_progress apply Frm.rest) | dsimp only | split

theorem frm_uScatter {fm : Nat} {r0 : State} {n : Nat} {s : State} (hk : Frm fm r0 s) :
    Frm fm r0 (uScatter n s) := by
  unfold uScatter
  repeat' first | intro _ | (with_reducible first | assumption | apply frm_issue | apply frm_cellWrite | apply Frm.ite | apply Frm.foldl | apply Frm.foldl2 | apply Frm.foldl3 | fail_if_no_progress apply Frm.rest) | dsimp only | split

theorem frm_elemOp {fm : Nat} {r0 : State} {n op : Nat} {srcs : Uop → List Nat} {draws : Bool} {f : UCtx → Nat → Nat → Nat → Nat → Nat} {s : State} (hk : Frm fm r0 s) :
    Frm fm r0 (elemOp n op srcs draws f s) := by
  unfold elemOp
  repeat' first | intro _ | (with_reducible first | assumption | apply frm_issue | apply Frm.ite | fail_if_no_progress apply Frm.rest) | dsimp only | split

theorem frm_uAdd {fm : Nat} {r0 : State} {n : Nat} {s : State} (hk : Frm fm r0 s) :
    Frm fm r0 (uAdd n s) := by
  unfold uAdd
  repeat' first | intro _ | (with_reducible first | assumption | apply frm_elemOp | apply Frm.ite | fail_if_no_progress apply Frm.rest) | dsimp only | split

theorem frm_uSub {fm : Nat} {r0 : State} {n : Nat} {s : State} (hk : Frm fm r0 s) :
    Frm fm r0 (uSub n s) := by
  unfold uSub
  repeat' first | intro _ | (with_reducible first | assumption | apply frm_elemOp | apply Frm.ite | fail_if_no_progress apply Frm.rest) | dsimp only | split

theorem frm_uMul {fm : Nat} {r0 : State} {n : Nat} {s : State} (hk : Frm fm r0 s) :
    Frm fm r0 (uMul n s) := by
  unfold uMul
  repeat' first | intro _ | (with_reducible first | assumption | apply frm_elemOp | apply Frm.ite | fail_if_no_progress apply Frm.rest) | dsimp only | split

theorem frm_uFma {fm : Nat} {r0 : State} {n : Nat} {s : State} (hk : Frm fm r0 s) :
    Frm fm r0 (uFma n s) := by
  unfold uFma
  repeat' first | intro _ | (with_reducible first | assumption | apply frm_elemOp | apply Frm.ite | fail_if_no_progress apply Frm.rest) | dsimp only | split

theorem frm_uMax {fm : Nat} {r0 : State} {n : Nat} {s : State} (hk : Frm fm r0 s) :
    Frm fm r0 (uMax n s) := by
  unfold uMax
  repeat' first | intro _ | (with_reducible first | assumption | apply frm_elemOp | apply Frm.ite | fail_if_no_progress apply Frm.rest) | dsimp only | split

theorem frm_uMin {fm : Nat} {r0 : State} {n : Nat} {s : State} (hk : Frm fm r0 s) :
    Frm fm r0 (uMin n s) := by
  unfold uMin
  repeat' first | intro _ | (with_reducible first | assumption | apply frm_elemOp | apply Frm.ite | fail_if_no_progress apply Frm.rest) | dsimp only | split

theorem frm_uSel {fm : Nat} {r0 : State} {n : Nat} {s : State} (hk : Frm fm r0 s) :
    Frm fm r0 (uSel n s) := by
  unfold uSel
  repeat' first | intro _ | (with_reducible first | assumption | apply frm_elemOp | apply Frm.ite | fail_if_no_progress apply Frm.rest) | dsimp only | split

theorem frm_uCmul {fm : Nat} {r0 : State} {n : Nat} {s : State} (hk : Frm fm r0 s) :
    Frm fm r0 (uCmul n s) := by
  unfold uCmul
  repeat' first | intro _ | (with_reducible first | assumption | apply frm_issue | apply Frm.ite | fail_if_no_progress apply Frm.rest) | dsimp only | split

theorem frm_uSfu {fm : Nat} {r0 : State} {n : Nat} {s : State} (hk : Frm fm r0 s) :
    Frm fm r0 (uSfu n s) := by
  unfold uSfu
  repeat' first | intro _ | (with_reducible first | assumption | apply frm_elemOp | apply Frm.ite | fail_if_no_progress apply Frm.rest) | dsimp only | split

theorem frm_uCvt {fm : Nat} {r0 : State} {n : Nat} {s : State} (hk : Frm fm r0 s) :
    Frm fm r0 (uCvt n s) := by
  unfold uCvt
  repeat' first | intro _ | (with_reducible first | assumption | apply frm_issue | apply Frm.ite | fail_if_no_progress apply Frm.rest) | dsimp only | split

theorem frm_uMxpack {fm : Nat} {r0 : State} {n : Nat} {s : State} (hk : Frm fm r0 s) :
    Frm fm r0 (uMxpack n s) := by
  unfold uMxpack
  repeat' first | intro _ | (with_reducible first | assumption | apply frm_issue | apply Frm.ite | fail_if_no_progress apply Frm.rest) | dsimp only | split

theorem frm_uMxunpack {fm : Nat} {r0 : State} {n : Nat} {s : State} (hk : Frm fm r0 s) :
    Frm fm r0 (uMxunpack n s) := by
  unfold uMxunpack
  repeat' first | intro _ | (with_reducible first | assumption | apply frm_issue | apply Frm.ite | fail_if_no_progress apply Frm.rest) | dsimp only | split

theorem frm_uDot {fm : Nat} {r0 : State} {n : Nat} {s : State} (hk : Frm fm r0 s) :
    Frm fm r0 (uDot n s) := by
  unfold uDot
  repeat' first | intro _ | (with_reducible first | assumption | apply frm_issue | apply Frm.ite | fail_if_no_progress apply Frm.rest) | dsimp only | split

theorem frm_uLsum {fm : Nat} {r0 : State} {n : Nat} {s : State} (hk : Frm fm r0 s) :
    Frm fm r0 (uLsum n s) := by
  unfold uLsum
  repeat' first | intro _ | (with_reducible first | assumption | apply frm_issue | apply Frm.ite | fail_if_no_progress apply Frm.rest) | dsimp only | split

theorem frm_uGmax {fm : Nat} {r0 : State} {n : Nat} {s : State} (hk : Frm fm r0 s) :
    Frm fm r0 (uGmax n s) := by
  unfold uGmax
  repeat' first | intro _ | (with_reducible first | assumption | apply frm_issue | apply Frm.ite | apply Frm.foldl | apply Frm.foldl2 | apply Frm.foldl3 | fail_if_no_progress apply Frm.rest) | dsimp only | split

theorem frm_uGq {fm : Nat} {r0 : State} {n : Nat} {s : State} (hk : Frm fm r0 s) :
    Frm fm r0 (uGq n s) := by
  unfold uGq
  repeat' first | intro _ | (with_reducible first | assumption | apply frm_issue | apply Frm.ite | fail_if_no_progress apply Frm.rest) | dsimp only | split

theorem frm_uGadd {fm : Nat} {r0 : State} {n : Nat} {s : State} (hk : Frm fm r0 s) :
    Frm fm r0 (uGadd n s) := by
  unfold uGadd
  repeat' first | intro _ | (with_reducible first | assumption | apply frm_issue | apply Frm.ite | fail_if_no_progress apply Frm.rest) | dsimp only | split

theorem frm_uGrnd {fm : Nat} {r0 : State} {n : Nat} {s : State} (hk : Frm fm r0 s) :
    Frm fm r0 (uGrnd n s) := by
  unfold uGrnd
  repeat' first | intro _ | (with_reducible first | assumption | apply frm_issue | apply Frm.ite | apply Frm.foldl | apply Frm.foldl2 | apply Frm.foldl3 | fail_if_no_progress apply Frm.rest) | dsimp only | split

theorem frm_uShuf {fm : Nat} {r0 : State} {n : Nat} {s : State} (hk : Frm fm r0 s) :
    Frm fm r0 (uShuf n s) := by
  unfold uShuf
  repeat' first | intro _ | (with_reducible first | assumption | apply frm_issue | apply Frm.ite | fail_if_no_progress apply Frm.rest) | dsimp only | split

theorem frm_rngBody {fm : Nat} {r0 : State} {x : UCtx} {s : State} (hk : Frm fm r0 s) :
    Frm fm r0 (rngBody x s).st := by
  unfold rngBody
  repeat' first | intro _ | (with_reducible first | assumption | apply frm_setCell | apply Frm.ite | apply Frm.foldl | apply Frm.foldl2 | apply Frm.foldl3 | fail_if_no_progress apply Frm.rest) | dsimp only | split

theorem frm_uRng {fm : Nat} {r0 : State} {n : Nat} {s : State} (hk : Frm fm r0 s) :
    Frm fm r0 (uRng n s) := by
  unfold uRng
  repeat' first | intro _ | (with_reducible first | assumption | apply frm_issue | apply frm_rngBody | apply Frm.ite | fail_if_no_progress apply Frm.rest) | dsimp only | split

theorem frm_cellFault {fm : Nat} {r0 : State} {n : Nat} {w : CellPart} {s : State} (hk : Frm fm r0 s) :
    Frm fm r0 (cellFault n w s) := by
  unfold cellFault
  repeat' first | intro _ | (with_reducible first | assumption | apply frm_strikeCell | apply frm_cellFails | apply Frm.ite | fail_if_no_progress apply Frm.rest) | dsimp only | split

theorem frm_fabColRemap {fm : Nat} {r0 : State} {k row : Nat} {s : State} (hk : Frm fm r0 s) :
    Frm fm r0 (fabColRemap k row s) := by
  unfold fabColRemap
  repeat' first | intro _ | (with_reducible first | assumption | apply frm_requestColRemap | apply frm_refuseWrite | apply Frm.ite | fail_if_no_progress apply Frm.rest) | dsimp only | split

theorem frm_writeSlot {fm : Nat} {r0 : State} {n slot : Nat} {img : BitVec 16384} {s : State} (hk : Frm fm r0 s) :
    Frm fm r0 (writeSlot n slot img s) := by
  unfold writeSlot
  repeat' first | intro _ | (with_reducible first | assumption | apply frm_setCell | apply Frm.ite | fail_if_no_progress apply Frm.rest) | dsimp only | split

theorem frm_cfgBcast {fm : Nat} {r0 : State} {q : Nat} {cols : BitVec 32} {rows : BitVec 16} {slot : Nat} {img : BitVec 16384} {s : State} (hk : Frm fm r0 s) :
    Frm fm r0 (cfgBcast q cols rows slot img s) := by
  unfold cfgBcast
  repeat' first | intro _ | (with_reducible first | assumption | apply frm_writeSlot | apply Frm.ite | apply Frm.foldl | apply Frm.foldl2 | apply Frm.foldl3 | fail_if_no_progress apply Frm.rest) | dsimp only | split

end Sys2Proof.Laws
end

