-- ==== Sys2Proof/Laws/FrameImgSet.lean ====
section
/-! SUPPORT. What the operations of `Machine/ImgSet.lean` leave alone: one lemma each. -/
namespace Sys2Proof.Laws
open Sys2Proof Sys2Proof.Machine Sys2Proof.Safety
set_option linter.unreachableTactic false
set_option linter.unusedTactic false

theorem frm_writeSlots {fm : Nat} {r0 : State} {rs : List Rec} {s : State} (hk : Frm fm r0 s) :
    Frm fm r0 (writeSlots rs s) := by
  unfold writeSlots
  repeat' first | intro _ | (with_reducible first | assumption | apply frm_writeSlot | apply Frm.ite | apply Frm.foldl | apply Frm.foldl2 | apply Frm.foldl3 | fail_if_no_progress apply Frm.rest) | dsimp only | split

theorem frm_setQos {fm : Nat} {r0 : State} {p enabled : Nat} {rs : List Rec} {s : State} (hk : Frm fm r0 s) :
    Frm fm r0 (setQos p enabled rs s) := by
  unfold setQos
  repeat' first | intro _ | (with_reducible first | assumption | apply frm_setQport | apply frm_setQpart | apply Frm.ite | apply Frm.foldl | apply Frm.foldl2 | apply Frm.foldl3 | fail_if_no_progress apply Frm.rest) | dsimp only | split

theorem frm_settlePorts {fm : Nat} {r0 : State} {full : Bool} {s : State} (hk : Frm fm r0 s) :
    Frm fm r0 (settlePorts full s) := by
  unfold settlePorts
  repeat' first | intro _ | (with_reducible first | assumption | apply frm_setDomain | apply frm_setLink | apply Frm.ite | apply Frm.foldl | apply Frm.foldl2 | apply Frm.foldl3 | fail_if_no_progress apply Frm.rest) | dsimp only | split

theorem frm_setOwners {fm : Nat} {r0 : State} {s : State} (hk : Frm fm r0 s) :
    Frm fm r0 (setOwners s) := by
  unfold setOwners
  repeat' first | intro _ | (with_reducible first | assumption | apply frm_setCol | apply frm_setXfe | apply frm_setBank | apply frm_setChan | apply frm_setCunit | apply frm_zeroCell | apply Frm.ite | apply Frm.foldl | apply Frm.foldl2 | apply Frm.foldl3 | fail_if_no_progress apply Frm.rest) | dsimp only | split

theorem frm_setDomains {fm : Nat} {r0 : State} {s : State} (hk : Frm fm r0 s) :
    Frm fm r0 (setDomains s) := by
  unfold setDomains
  repeat' first | intro _ | (with_reducible first | assumption | apply frm_setQuad | apply frm_setStack | apply frm_setDomain | apply Frm.ite | apply Frm.foldl | apply Frm.foldl2 | apply Frm.foldl3 | fail_if_no_progress apply Frm.rest | apply Frm.memLost (c := Mem.clear_bytes _ _ _)) | dsimp only | split

theorem frm_resetGranules {fm : Nat} {r0 : State} {s : State} (hm : Sub 5 fm) (hk : Frm fm r0 s) :
    Frm fm r0 (resetGranules s) := by
  unfold resetGranules
  repeat' first | intro _ | (with_reducible first | assumption | apply frm_xlDrop | apply frm_releaseGran | apply frm_rebuildTables | apply Frm.ite | apply Frm.foldl | apply Frm.foldl2 | apply Frm.foldl3 | fail_if_no_progress apply Frm.rest | exact Sub.trans (b := 5) rfl hm) | dsimp only | split | (with_reducible first | apply Frm.ch2)

theorem frm_leaveSite {fm : Nat} {r0 : State} {n : Nat} {s : State} (hk : Frm fm r0 s) :
    Frm fm r0 (leaveSite n s) := by
  unfold leaveSite
  repeat' first | intro _ | (with_reducible first | assumption | apply frm_flushSite | apply frm_coreOff | apply frm_failOuts | apply Frm.ite | apply Frm.foldl | apply Frm.foldl2 | apply Frm.foldl3 | fail_if_no_progress apply Frm.rest) | dsimp only | split

theorem frm_putRecord {fm : Nat} {r0 : State} {n : Nat} {u : Site} {st : SState} {held : Bool} {s : State} (hk : Frm fm r0 s) :
    Frm fm r0 (putRecord n u st held s) := by
  unfold putRecord
  repeat' first | intro _ | (with_reducible first | assumption | apply frm_modSite | apply frm_setDomain | apply Frm.ite | fail_if_no_progress apply Frm.rest) | dsimp only | split

theorem frm_setSitePair {fm : Nat} {r0 : State} {rs : List Rec} {e : Nat} {s : State} (hk : Frm fm r0 s) :
    Frm fm r0 (setSitePair rs e s) := by
  unfold setSitePair
  repeat' first | intro _ | (with_reducible first | assumption | apply frm_setSite | apply frm_modSite | apply frm_leaveSite | apply frm_putRecord | apply Frm.ite | fail_if_no_progress apply Frm.rest) | dsimp only | split

theorem frm_setPolicy {fm : Nat} {r0 : State} {rs : List Rec} {s : State} (hm : Sub 128 fm) (hk : Frm fm r0 s) :
    Frm fm r0 (setPolicy rs s) := by
  unfold setPolicy
  repeat' first | intro _ | (with_reducible first | assumption | apply frm_holdFclk | apply Frm.ite | fail_if_no_progress apply Frm.rest | exact Sub.trans (b := 128) rfl hm) | dsimp only | split | (with_reducible first | apply Frm.ch7)

theorem frm_rewriteQos {fm : Nat} {r0 : State} {p : Nat} {rs : List Rec} {s : State} (hk : Frm fm r0 s) :
    Frm fm r0 (rewriteQos p rs s) := by
  unfold rewriteQos
  repeat' first | intro _ | (with_reducible first | assumption | apply frm_putQosValues | apply frm_putMiss | apply Frm.ite | apply Frm.foldl | apply Frm.foldl2 | apply Frm.foldl3 | fail_if_no_progress apply Frm.rest) | dsimp only | split

theorem frm_rewritePolicy {fm : Nat} {r0 : State} {s : State} (hm : Sub 128 fm) (hk : Frm fm r0 s) :
    Frm fm r0 (rewritePolicy s) := by
  unfold rewritePolicy
  repeat' first | intro _ | (with_reducible first | assumption | apply frm_modPart | apply frm_setPolicy | apply frm_rewriteQos | apply Frm.ite | apply Frm.foldl | apply Frm.foldl2 | apply Frm.foldl3 | fail_if_no_progress apply Frm.rest | exact Sub.trans (b := 128) rfl hm) | dsimp only | split

theorem frm_installPart {fm : Nat} {r0 : State} {img : Image} {p : Nat} {s : State} (hk : Frm fm r0 s) :
    Frm fm r0 (installPart img p s) := by
  unfold installPart
  repeat' first | intro _ | (with_reducible first | assumption | apply frm_setPart | apply Frm.ite | fail_if_no_progress apply Frm.rest) | dsimp only | split

theorem frm_installFull {fm : Nat} {r0 : State} {img : Image} {s : State} (hm : Sub 8333 fm) (hk : Frm fm r0 s) :
    Frm fm r0 (installFull img s) := by
  unfold installFull
  repeat' first | intro _ | (with_reducible first | assumption | apply frm_modVi | apply frm_setMeas | apply frm_endSession | apply frm_stopPartition | apply frm_detachVi | apply frm_holdFclk | apply frm_writeSlots | apply frm_setQos | apply frm_settlePorts | apply frm_setOwners | apply frm_setDomains | apply frm_resetGranules | apply frm_setSitePair | apply frm_setPolicy | apply frm_installPart | apply Frm.ite | apply Frm.foldl | apply Frm.foldl2 | apply Frm.foldl3 | fail_if_no_progress apply Frm.rest | exact Sub.trans (b := 8333) rfl hm) | dsimp only | split | (with_reducible first | apply Frm.ch3 | apply Frm.ch13 | apply Frm.chImg)

theorem frm_installPartial {fm : Nat} {r0 : State} {a : Image} {p : Nat} {s : State} (hm : Sub 8328 fm) (hk : Frm fm r0 s) :
    Frm fm r0 (installPartial a p s) := by
  unfold installPartial
  repeat' first | intro _ | (with_reducible first | assumption | apply frm_modPart | apply frm_setMeas | apply frm_endSession | apply frm_deliverHeld | apply frm_writeSlots | apply frm_setQos | apply frm_settlePorts | apply frm_rewritePolicy | apply Frm.ite | apply Frm.foldl | apply Frm.foldl2 | apply Frm.foldl3 | fail_if_no_progress apply Frm.rest | exact Sub.trans (b := 8328) rfl hm) | dsimp only | split | (with_reducible first | apply Frm.ch3 | apply Frm.ch13 | apply Frm.chImg)

end Sys2Proof.Laws
end

