-- ==== Sys2Proof/Laws/FrameImage.lean ====
section
/-! SUPPORT. What the operations of `Machine/Image.lean` leave alone: one lemma each. -/
namespace Sys2Proof.Laws
open Sys2Proof Sys2Proof.Machine Sys2Proof.Safety
set_option linter.unreachableTactic false
set_option linter.unusedTactic false

theorem frm_putReport {fm : Nat} {r0 : State} {addr len : Nat} {r : Report} {s : State} (hm : Sub 8192 fm) (hk : Frm fm r0 s) :
    Frm fm r0 (putReport addr len r s) := by
  unfold putReport
  repeat' first | intro _ | (with_reducible first | assumption | apply frm_emit | apply Frm.ite | apply Frm.foldl | apply Frm.foldl2 | apply Frm.foldl3 | fail_if_no_progress apply Frm.rest | exact Sub.trans (b := 8192) rfl hm) | dsimp only | split | (with_reducible first | apply Frm.ch13)

theorem frm_endLoad {fm : Nat} {r0 : State} {st : Status} {es : List ReportEntry} {s : State} (hm : Sub 24578 fm) (hk : Frm fm r0 s) :
    Frm fm r0 (endLoad st es s) := by
  unfold endLoad
  repeat' first | intro _ | (with_reducible first | assumption | apply frm_mbEnd | apply frm_dropWindow | apply frm_putReport | apply Frm.ite | fail_if_no_progress apply Frm.rest | exact Sub.trans (b := 24578) rfl hm) | dsimp only | split | (with_reducible first | apply Frm.ch13)

theorem frm_startLoad {fm : Nat} {r0 : State} {l : Load} {s : State} (hm : Sub 24578 fm) (hk : Frm fm r0 s) :
    Frm fm r0 (startLoad l s) := by
  unfold startLoad
  repeat' first | intro _ | (with_reducible first | assumption | apply frm_drawFree | apply frm_emit | apply frm_fetchWindow | apply frm_endLoad | apply Frm.ite | apply Frm.snd (by assumption) | apply Frm.optP (by assumption) | apply FrmP.none | apply FrmP.some | apply FrmP.ite | fail_if_no_progress apply Frm.rest | exact Sub.trans (b := 24578) rfl hm) | dsimp only | split | (with_reducible first | apply Frm.ch13)

theorem frm_loadImage {fm : Nat} {r0 : State} {s : State} (hm : Sub 24578 fm) (hk : Frm fm r0 s) :
    Frm fm r0 (loadImage s) := by
  unfold loadImage
  repeat' first | intro _ | (with_reducible first | assumption | apply frm_mbEnd | apply frm_startLoad | apply Frm.ite | fail_if_no_progress apply Frm.rest | exact Sub.trans (b := 24578) rfl hm) | dsimp only | split

theorem frm_writeBootImage {fm : Nat} {r0 : State} {s : State} (hm : Sub 24578 fm) (hk : Frm fm r0 s) :
    Frm fm r0 (writeBootImage s) := by
  unfold writeBootImage
  repeat' first | intro _ | (with_reducible first | assumption | apply frm_mbEnd | apply frm_startLoad | apply Frm.ite | fail_if_no_progress apply Frm.rest | exact Sub.trans (b := 24578) rfl hm) | dsimp only | split

theorem frm_fileReady {fm : Nat} {r0 : State} {f : List Byte} {req : Option Nat} {s : State} (hm : Sub 24578 fm) (hk : Frm fm r0 s) :
    Frm fm r0 (fileReady f req s) := by
  unfold fileReady
  repeat' first | intro _ | (with_reducible first | assumption | apply frm_endLoad | apply Frm.ite | fail_if_no_progress apply Frm.rest | exact Sub.trans (b := 24578) rfl hm) | dsimp only | split | (with_reducible first | apply Frm.ch13)

theorem frm_imageFetchDone {fm : Nat} {r0 : State} {bytes : List Byte} {s : State} (hm : Sub 24578 fm) (hk : Frm fm r0 s) :
    Frm fm r0 (imageFetchDone bytes s) := by
  unfold imageFetchDone
  repeat' first | intro _ | (with_reducible first | assumption | apply frm_dropWindow | apply frm_fileReady | apply Frm.ite | fail_if_no_progress apply Frm.rest | exact Sub.trans (b := 24578) rfl hm) | dsimp only | split | (with_reducible first | apply Frm.ch13)

theorem frm_bootLoad {fm : Nat} {r0 : State} {s : State} (hm : Sub 24578 fm) (hk : Frm fm r0 s) :
    Frm fm r0 (bootLoad s) := by
  unfold bootLoad
  repeat' first | intro _ | (with_reducible first | assumption | apply frm_endLoad | apply frm_fileReady | apply Frm.ite | fail_if_no_progress apply Frm.rest | exact Sub.trans (b := 24578) rfl hm) | dsimp only | split | (with_reducible first | apply Frm.ch13)

theorem frm_imageValidationDone {fm : Nat} {r0 : State} {s : State} (hm : Sub 90114 fm) (hk : Frm fm r0 s) :
    Frm fm r0 (imageValidationDone s) := by
  unfold imageValidationDone
  repeat' first | intro _ | (with_reducible first | assumption | apply frm_mbEnd | apply frm_endLoad | apply Frm.ite | fail_if_no_progress apply Frm.rest | exact Sub.trans (b := 90114) rfl hm) | dsimp only | split | (with_reducible first | apply Frm.ch13 | apply Frm.ch16 | apply Frm.chLoadFw)

theorem frm_fullImageActivate {fm : Nat} {r0 : State} {s : State} (hm : Sub 24719 fm) (hk : Frm fm r0 s) :
    Frm fm r0 (fullImageActivate s) := by
  unfold fullImageActivate
  repeat' first | intro _ | (with_reducible first | assumption | apply frm_refresh | apply frm_becomeReady | apply frm_installFull | apply frm_endLoad | apply Frm.ite | apply Frm.foldl | apply Frm.foldl2 | apply Frm.foldl3 | fail_if_no_progress apply Frm.rest | exact Sub.trans (b := 24719) rfl hm) | dsimp only | split

theorem frm_partialImageActivate {fm : Nat} {r0 : State} {p : Nat} {s : State} (hm : Sub 8328 fm) (hk : Frm fm r0 s) :
    Frm fm r0 (partialImageActivate p s) := by
  unfold partialImageActivate
  repeat' first | intro _ | (with_reducible first | assumption | apply frm_refresh | apply frm_becomeReady | apply frm_installPartial | apply frm_putReport | apply Frm.ite | fail_if_no_progress apply Frm.rest | exact Sub.trans (b := 8328) rfl hm) | dsimp only | split | (with_reducible first | apply Frm.ch13)

theorem frm_readReport {fm : Nat} {r0 : State} {s : State} (hm : Sub 16384 fm) (hk : Frm fm r0 s) :
    Frm fm r0 (readReport s) := by
  unfold readReport
  repeat' first | intro _ | (with_reducible first | assumption | apply frm_mbEnd | apply Frm.ite | fail_if_no_progress apply Frm.rest | exact Sub.trans (b := 16384) rfl hm) | dsimp only | split

end Sys2Proof.Laws
end

