-- ==== Sys2Proof/Laws/FrameMemory.lean ====
section
/-! SUPPORT. What the operations of `Machine/Memory.lean` leave alone: one lemma each. -/
namespace Sys2Proof.Laws
open Sys2Proof Sys2Proof.Machine Sys2Proof.Safety
set_option linter.unreachableTactic false
set_option linter.unusedTactic false

theorem frm_scrubLine {fm : Nat} {r0 : State} {g pa : Nat} {e : Ecc} {s : State} (hk : Frm fm r0 s) :
    Frm fm r0 (scrubLine g pa e s) := by
  unfold scrubLine
  repeat' first | intro _ | (with_reducible first | assumption | apply frm_checkEcc | apply frm_countCe | apply frm_strikeUe | apply Frm.ite | apply Frm.snd (by assumption) | fail_if_no_progress apply Frm.rest) | dsimp only | split

theorem frm_hbmScrub {fm : Nat} {r0 : State} {m : Nat} {found : List (Nat × Ecc)} {s : State} (hk : Frm fm r0 s) :
    Frm fm r0 (hbmScrub m found s) := by
  unfold hbmScrub
  repeat' first | intro _ | (with_reducible first | assumption | apply frm_scrubLine | apply Frm.ite | apply Frm.foldl | apply Frm.foldl2 | apply Frm.foldl3 | fail_if_no_progress apply Frm.rest) | dsimp only | split

theorem frm_sramScrub {fm : Nat} {r0 : State} {found : List (Nat × Ecc)} {s : State} (hk : Frm fm r0 s) :
    Frm fm r0 (sramScrub found s) := by
  unfold sramScrub
  repeat' first | intro _ | (with_reducible first | assumption | apply frm_scrubLine | apply Frm.ite | apply Frm.foldl | apply Frm.foldl2 | apply Frm.foldl3 | fail_if_no_progress apply Frm.rest) | dsimp only | split

theorem frm_hbmRecalibration {fm : Nat} {r0 : State} {m ch : Nat} {trained : Bool} {s : State} (hk : Frm fm r0 s) :
    Frm fm r0 (hbmRecalibration m ch trained s) := by
  unfold hbmRecalibration
  repeat' first | intro _ | (with_reducible first | assumption | apply frm_setChan | apply frm_requestChanFence | apply frm_raise | apply Frm.ite | fail_if_no_progress apply Frm.rest) | dsimp only | split

theorem frm_zeroed {fm : Nat} {r0 : State} {gs : List Nat} {s : State} (hm : Sub 1 fm) (hk : Frm fm r0 s) :
    Frm fm r0 (zeroed gs s) := by
  unfold zeroed
  repeat' first | intro _ | (with_reducible first | assumption | apply frm_zeroGranule | apply frm_resumeArrival | apply Frm.ite | apply Frm.foldl | apply Frm.foldl2 | apply Frm.foldl3 | fail_if_no_progress apply Frm.rest | exact Sub.trans (b := 1) rfl hm) | dsimp only | split

theorem frm_zeroingDone {fm : Nat} {r0 : State} {u : ZeroUnit} {ok : Bool} {s : State} (hm : Sub 1 fm) (hk : Frm fm r0 s) :
    Frm fm r0 (zeroingDone u ok s) := by
  unfold zeroingDone
  repeat' first | intro _ | (with_reducible first | assumption | apply frm_setBank | apply frm_setChan | apply frm_requestBankFence | apply frm_raise | apply frm_zeroed | apply Frm.ite | fail_if_no_progress apply Frm.rest | exact Sub.trans (b := 1) rfl hm) | dsimp only | split

theorem frm_fenceGranule {fm : Nat} {r0 : State} {pa : Nat} {s : State} (hk : Frm fm r0 s) :
    Frm fm r0 (fenceGranule pa s) := by
  unfold fenceGranule
  repeat' first | intro _ | (with_reducible first | assumption | apply frm_setGranule | apply frm_markFence | apply frm_raise | apply Frm.ite | fail_if_no_progress apply Frm.rest) | dsimp only | split

theorem frm_rowRepair {fm : Nat} {r0 : State} {pa : Nat} {badLines : List Nat} {s : State} (hm : Sub 1 fm) (hk : Frm fm r0 s) :
    Frm fm r0 (rowRepair pa badLines s) := by
  unfold rowRepair
  repeat' first | intro _ | (with_reducible first | assumption | apply frm_traceAt | apply frm_markLines | apply frm_addFinding | apply frm_resumeArrival | apply frm_replaceRow | apply frm_fenceGranule | apply Frm.ite | apply Frm.opt (by assumption) | apply FrmO.none | apply FrmO.some | apply FrmO.ite | fail_if_no_progress apply Frm.rest | exact Sub.trans (b := 1) rfl hm) | dsimp only | split

theorem frm_srmBankReadmit {fm : Nat} {r0 : State} {b : Nat} {s : State} (hk : Frm fm r0 s) :
    Frm fm r0 (srmBankReadmit b s) := by
  unfold srmBankReadmit
  repeat' first | intro _ | (with_reducible first | assumption | apply frm_requestBankReadmit | apply frm_refuseWrite | apply Frm.ite | fail_if_no_progress apply Frm.rest) | dsimp only | split

theorem frm_memChReadmit {fm : Nat} {r0 : State} {m ch : Nat} {s : State} (hk : Frm fm r0 s) :
    Frm fm r0 (memChReadmit m ch s) := by
  unfold memChReadmit
  repeat' first | intro _ | (with_reducible first | assumption | apply frm_requestChanReadmit | apply frm_refuseWrite | apply Frm.ite | fail_if_no_progress apply Frm.rest) | dsimp only | split

theorem frm_cohWinWrite {fm : Nat} {r0 : State} {w : Nat} {val : Word} {s : State} (hk : Frm fm r0 s) :
    Frm fm r0 (cohWinWrite w val s) := by
  unfold cohWinWrite
  repeat' first | intro _ | (with_reducible first | assumption | apply frm_backInvalRange | apply frm_settleHome | apply frm_refuseWrite | apply Frm.ite | fail_if_no_progress apply Frm.rest) | dsimp only | split

theorem frm_stackRailShort {fm : Nat} {r0 : State} {m : Nat} {s : State} (hk : Frm fm r0 s) :
    Frm fm r0 (stackRailShort m s) := by
  unfold stackRailShort
  repeat' first | intro _ | (with_reducible first | assumption | apply frm_markFence | apply frm_fenceStack | apply frm_raise | apply Frm.ite | fail_if_no_progress apply Frm.rest) | dsimp only | split

end Sys2Proof.Laws
end

