-- ==== Sys2Proof/Laws/FrameStart.lean ====
section
/-! SUPPORT. What the operations of `Machine/Start.lean` leave alone: one lemma each. -/
namespace Sys2Proof.Laws
open Sys2Proof Sys2Proof.Machine Sys2Proof.Safety
set_option linter.unreachableTactic false
set_option linter.unusedTactic false

theorem frm_measureDebug {fm : Nat} {r0 : State} {s : State} (hk : Frm fm r0 s) :
    Frm fm r0 (measureDebug s) := by
  unfold measureDebug
  repeat' first | intro _ | (with_reducible first | assumption | apply frm_setMeas | apply Frm.ite | fail_if_no_progress apply Frm.rest) | dsimp only | split

theorem frm_measureFw {fm : Nat} {r0 : State} {s : State} (hk : Frm fm r0 s) :
    Frm fm r0 (measureFw s) := by
  unfold measureFw
  repeat' first | intro _ | (with_reducible first | assumption | apply frm_setMeas | apply Frm.ite | fail_if_no_progress apply Frm.rest) | dsimp only | split

theorem frm_hubBase {fm : Nat} {r0 : State} {s : State} (hm : Sub 262126 fm) (hk : Frm fm r0 s) :
    Frm fm r0 (hubBase s) := by
  apply hk.step <;> first | exact .inl (hm.bit rfl) | exact .inr (List.Sublist.refl _) | exact .inr (List.nil_sublist _) | exact .inr rfl | exact .inr ⟨rfl, rfl⟩ | exact .inr ⟨rfl, rfl, rfl⟩ | exact .inr ⟨rfl, rfl, rfl, rfl⟩ | exact .inr ⟨rfl, rfl, rfl, rfl, rfl, rfl, rfl⟩

theorem frm_enterReset {fm : Nat} {r0 : State} {s : State} (hm : Sub 262126 fm) (hk : Frm fm r0 s) :
    Frm fm r0 (enterReset s) := by
  unfold enterReset
  repeat' first | intro _ | (with_reducible first | assumption | apply frm_emit | apply frm_hubBase | apply Frm.ite | fail_if_no_progress apply Frm.rest | exact Sub.trans (b := 262126) rfl hm) | dsimp only | split

theorem frm_setStart {fm : Nat} {r0 : State} {f : StartRec → StartRec} {s : State} (hk : Frm fm r0 s) :
    Frm fm r0 (setStart f s) := by
  unfold setStart
  repeat' first | intro _ | (with_reducible first | assumption | apply Frm.ite | fail_if_no_progress apply Frm.rest) | dsimp only | split

theorem frm_startRow {fm : Nat} {r0 : State} {d : Nat} {s : State} (hk : Frm fm r0 s) :
    Frm fm r0 (startRow d s) := by
  unfold startRow
  repeat' first | intro _ | (with_reducible first | assumption | apply frm_writeLog | apply frm_setBank | apply frm_replaceRow | apply frm_fenceGranule | apply Frm.ite | apply Frm.opt (by assumption) | apply FrmO.none | apply FrmO.some | apply FrmO.ite | fail_if_no_progress apply Frm.rest) | dsimp only | split

theorem frm_startStacks {fm : Nat} {r0 : State} {bad : List Nat} {s : State} (hk : Frm fm r0 s) :
    Frm fm r0 (startStacks bad s) := by
  unfold startStacks
  repeat' first | intro _ | (with_reducible first | assumption | apply frm_setChan | apply frm_setStack | apply frm_setDomain | apply frm_fenceChan | apply frm_fenceStack | apply frm_raise | apply Frm.ite | apply Frm.foldl | apply Frm.foldl2 | apply Frm.foldl3 | fail_if_no_progress apply Frm.rest) | dsimp only | split

theorem frm_startMemory {fm : Nat} {r0 : State} {x : StartIn} {units : List Nat} {s : State} (hk : Frm fm r0 s) :
    Frm fm r0 (startMemory x units s) := by
  unfold startMemory
  repeat' first | intro _ | (with_reducible first | assumption | apply frm_fenceBank | apply frm_startRow | apply frm_startStacks | apply Frm.ite | apply Frm.foldl | apply Frm.foldl2 | apply Frm.foldl3 | fail_if_no_progress apply Frm.rest) | dsimp only | split

theorem frm_startLink {fm : Nat} {r0 : State} {d : Nat} {s : State} (hk : Frm fm r0 s) :
    Frm fm r0 (startLink d s) := by
  unfold startLink
  repeat' first | intro _ | (with_reducible first | assumption | apply frm_writeLog | apply Frm.ite | fail_if_no_progress apply Frm.rest) | dsimp only | split

theorem frm_startCellBad {fm : Nat} {r0 : State} {d : Nat} {s : State} (hk : Frm fm r0 s) :
    Frm fm r0 (startCellBad d s) := by
  unfold startCellBad
  repeat' first | intro _ | (with_reducible first | assumption | apply frm_writeLog | apply frm_setCol | apply frm_fenceCol | apply Frm.ite | fail_if_no_progress apply Frm.rest) | dsimp only | split

theorem frm_startCells {fm : Nat} {r0 : State} {x : StartIn} {units : List Nat} {s : State} (hk : Frm fm r0 s) :
    Frm fm r0 (startCells x units s) := by
  unfold startCells
  repeat' first | intro _ | (with_reducible first | assumption | apply frm_fenceCol | apply frm_startCellBad | apply Frm.ite | apply Frm.foldl | apply Frm.foldl2 | apply Frm.foldl3 | fail_if_no_progress apply Frm.rest) | dsimp only | split

theorem frm_flatbread {fm : Nat} {r0 : State} {reason : Nat} {s : State} (hm : Sub 65536 fm) (hk : Frm fm r0 s) :
    Frm fm r0 (flatbread reason s) := by
  unfold flatbread
  repeat' first | intro _ | (with_reducible first | assumption | apply frm_writeLog | apply Frm.ite | fail_if_no_progress apply Frm.rest | exact Sub.trans (b := 65536) rfl hm) | dsimp only | split | (with_reducible first | apply Frm.ch16)

theorem frm_enterStage {fm : Nat} {r0 : State} {n : Nat} {st : Stage} {s : State} (hm : Sub 65536 fm) (hk : Frm fm r0 s) :
    Frm fm r0 (enterStage n st s) := by
  unfold enterStage
  repeat' first | intro _ | (with_reducible first | assumption | apply frm_writeLog | apply frm_setStart | apply Frm.ite | fail_if_no_progress apply Frm.rest | exact Sub.trans (b := 65536) rfl hm) | dsimp only | split | (with_reducible first | apply Frm.ch16)

theorem frm_fatalStart {fm : Nat} {r0 : State} {n : Nat} {s : State} (hk : Frm fm r0 s) :
    Frm fm r0 (fatalStart n s) := by
  unfold fatalStart
  repeat' first | intro _ | (with_reducible first | assumption | apply frm_writeLog | apply Frm.ite | fail_if_no_progress apply Frm.rest) | dsimp only | split

theorem frm_startBoot {fm : Nat} {r0 : State} {s : State} (hm : Sub 90255 fm) (hk : Frm fm r0 s) :
    Frm fm r0 (startBoot s) := by
  unfold startBoot
  repeat' first | intro _ | (with_reducible first | assumption | apply frm_bootLoad | apply frm_imageValidationDone | apply frm_fullImageActivate | apply Frm.ite | fail_if_no_progress apply Frm.rest | exact Sub.trans (b := 90255) rfl hm) | dsimp only | split

theorem frm_firmwareStart {fm : Nat} {r0 : State} {x : StartIn} {prevDone : Bool} {s : State} (hm : Sub 90527 fm) (hk : Frm fm r0 s) :
    Frm fm r0 (firmwareStart x prevDone s) := by
  unfold firmwareStart
  repeat' first | intro _ | (with_reducible first | assumption | apply frm_writeLog | apply frm_setMeas | apply frm_appendFindings | apply frm_measureDebug | apply frm_measureFw | apply frm_startMemory | apply frm_startLink | apply frm_startCells | apply frm_enterStage | apply frm_fatalStart | apply frm_startBoot | apply Frm.ite | apply Frm.foldl | apply Frm.foldl2 | apply Frm.foldl3 | fail_if_no_progress apply Frm.rest | exact Sub.trans (b := 90527) rfl hm) | dsimp only | split | (with_reducible first | apply Frm.ch8 | apply Frm.ch16)

theorem frm_romBurn {fm : Nat} {r0 : State} {x : StartIn} {s : State} (hm : Sub 112 fm) (hk : Frm fm r0 s) :
    Frm fm r0 (romBurn x s) := by
  apply hk.step <;> first | exact .inl (hm.bit rfl) | exact .inr (List.Sublist.refl _) | exact .inr (List.nil_sublist _) | exact .inr rfl | exact .inr ⟨rfl, rfl⟩ | exact .inr ⟨rfl, rfl, rfl⟩ | exact .inr ⟨rfl, rfl, rfl, rfl⟩ | exact .inr ⟨rfl, rfl, rfl, rfl, rfl, rfl, rfl⟩

theorem frm_romFirst {fm : Nat} {r0 : State} {x : StartIn} {s : State} (hm : Sub 112 fm) (hk : Frm fm r0 s) :
    Frm fm r0 (romFirst x s) := by
  unfold romFirst
  repeat' first | intro _ | (with_reducible first | assumption | apply frm_refresh | apply frm_raise | apply frm_romBurn | apply Frm.ite | fail_if_no_progress apply Frm.rest | exact Sub.trans (b := 112) rfl hm) | dsimp only | split

theorem frm_romSelect {fm : Nat} {r0 : State} {x : StartIn} {prevDone : Bool} {s : State} (hm : Sub 90527 fm) (hk : Frm fm r0 s) :
    Frm fm r0 (romSelect x prevDone s) := by
  unfold romSelect
  repeat' first | intro _ | (with_reducible first | assumption | apply frm_flatbread | apply frm_firmwareStart | apply Frm.ite | fail_if_no_progress apply Frm.rest | exact Sub.trans (b := 90527) rfl hm) | dsimp only | split | (with_reducible first | apply Frm.ch16)

theorem frm_hubReset {fm : Nat} {r0 : State} {x : StartIn} {s : State} (hm : Sub 262143 fm) (hk : Frm fm r0 s) :
    Frm fm r0 (hubReset x s) := by
  unfold hubReset
  repeat' first | intro _ | (with_reducible first | assumption | apply frm_refresh | apply frm_raise | apply frm_enterReset | apply frm_setStart | apply frm_flatbread | apply frm_fatalStart | apply frm_firmwareStart | apply frm_romFirst | apply frm_romSelect | apply Frm.ite | fail_if_no_progress apply Frm.rest | exact Sub.trans (b := 262143) rfl hm) | dsimp only | split | (with_reducible first | apply Frm.ch16)

theorem frm_startComplete {fm : Nat} {r0 : State} {s : State} (hm : Sub 65536 fm) (hk : Frm fm r0 s) :
    Frm fm r0 (startComplete s) := by
  unfold startComplete
  repeat' first | intro _ | (with_reducible first | assumption | apply frm_writeLog | apply Frm.ite | fail_if_no_progress apply Frm.rest | exact Sub.trans (b := 65536) rfl hm) | dsimp only | split | (with_reducible first | apply Frm.ch16)

end Sys2Proof.Laws
end

