-- ==== Sys2Proof/Laws/FrameLcs.lean ====
section
/-! SUPPORT. What the operations of `Machine/Lcs.lean` leave alone: one lemma each. -/
namespace Sys2Proof.Laws
open Sys2Proof Sys2Proof.Machine Sys2Proof.Safety
set_option linter.unreachableTactic false
set_option linter.unusedTactic false

theorem frm_stopAll {fm : Nat} {r0 : State} {s : State} (hk : Frm fm r0 s) :
    Frm fm r0 (stopAll s) := by
  unfold stopAll
  repeat' first | intro _ | (with_reducible first | assumption | apply frm_endSession | apply frm_stopPartition | apply Frm.ite | apply Frm.foldl | apply Frm.foldl2 | apply Frm.foldl3 | fail_if_no_progress apply Frm.rest) | dsimp only | split

theorem frm_wipeSecrets {fm : Nat} {r0 : State} {s : State} (hm : Sub 16 fm) (hk : Frm fm r0 s) :
    Frm fm r0 (wipeSecrets s) := by
  apply hk.step <;> first | exact .inl (hm.bit rfl) | exact .inr (List.Sublist.refl _) | exact .inr (List.nil_sublist _) | exact .inr rfl | exact .inr ⟨rfl, rfl⟩ | exact .inr ⟨rfl, rfl, rfl⟩ | exact .inr ⟨rfl, rfl, rfl, rfl⟩ | exact .inr ⟨rfl, rfl, rfl, rfl, rfl, rfl, rfl⟩

theorem frm_endDebug {fm : Nat} {r0 : State} {nonce : BitVec 256} {s : State} (hm : Sub 64 fm) (hk : Frm fm r0 s) :
    Frm fm r0 (endDebug nonce s) := by
  unfold endDebug
  repeat' first | intro _ | (with_reducible first | assumption | apply frm_fclkToMin | apply frm_measureDebug | apply Frm.ite | fail_if_no_progress apply Frm.rest | exact Sub.trans (b := 64) rfl hm) | dsimp only | split | (with_reducible first | apply Frm.ch6)

theorem frm_closeDebug {fm : Nat} {r0 : State} {s : State} (hm : Sub 64 fm) (hk : Frm fm r0 s) :
    Frm fm r0 (closeDebug s) := by
  unfold closeDebug
  repeat' first | intro _ | (with_reducible first | assumption | apply frm_drawFree | apply frm_endDebug | apply Frm.ite | fail_if_no_progress apply Frm.rest | exact Sub.trans (b := 64) rfl hm) | dsimp only | split

theorem frm_openDebug {fm : Nat} {r0 : State} {mode signer minutes : Nat} {rights : Word} {s : State} (hm : Sub 64 fm) (hk : Frm fm r0 s) :
    Frm fm r0 (openDebug mode signer minutes rights s) := by
  unfold openDebug
  repeat' first | intro _ | (with_reducible first | assumption | apply frm_raise | apply frm_measureDebug | apply Frm.ite | fail_if_no_progress apply Frm.rest | exact Sub.trans (b := 64) rfl hm) | dsimp only | split | (with_reducible first | apply Frm.ch6)

theorem frm_burnLc {fm : Nat} {r0 : State} {f : Nat} {b : Burn} {s : State} (hm : Sub 16 fm) (hk : Frm fm r0 s) :
    Frm fm r0 (burnLc f b s) := by
  unfold burnLc
  repeat' first | intro _ | (with_reducible first | assumption | apply Frm.ite | fail_if_no_progress apply Frm.rest | exact Sub.trans (b := 16) rfl hm) | dsimp only | split | (with_reducible first | apply Frm.ch4)

theorem frm_wipeAllOtp {fm : Nat} {r0 : State} {s : State} (hm : Sub 16 fm) (hk : Frm fm r0 s) :
    Frm fm r0 (wipeAllOtp s) := by
  unfold wipeAllOtp
  repeat' first | intro _ | (with_reducible first | assumption | apply Frm.ite | fail_if_no_progress apply Frm.rest | exact Sub.trans (b := 16) rfl hm) | dsimp only | split | (with_reducible first | apply Frm.ch4)

theorem frm_transitionEnds {fm : Nat} {r0 : State} {ok : Bool} {s : State} (hm : Sub 96 fm) (hk : Frm fm r0 s) :
    Frm fm r0 (transitionEnds ok s) := by
  unfold transitionEnds
  repeat' first | intro _ | (with_reducible first | assumption | apply frm_raise | apply frm_measureDebug | apply frm_closeDebug | apply Frm.ite | fail_if_no_progress apply Frm.rest | exact Sub.trans (b := 96) rfl hm) | dsimp only | split | (with_reducible first | apply Frm.ch5)

theorem frm_scrapEnds {fm : Nat} {r0 : State} {erased : Bool} {s : State} (hm : Sub 262142 fm) (hk : Frm fm r0 s) :
    Frm fm r0 (scrapEnds erased s) := by
  unfold scrapEnds
  repeat' first | intro _ | (with_reducible first | assumption | apply frm_enterReset | apply frm_burnLc | apply Frm.ite | fail_if_no_progress apply Frm.rest | exact Sub.trans (b := 262142) rfl hm) | dsimp only | split

theorem frm_performTransition {fm : Nat} {r0 : State} {target : Nat} {b : Burn} {s : State} (hm : Sub 262142 fm) (hk : Frm fm r0 s) :
    Frm fm r0 (performTransition target b s) := by
  unfold performTransition
  repeat' first | intro _ | (with_reducible first | assumption | apply frm_writeLog | apply frm_enterReset | apply frm_stopAll | apply frm_wipeSecrets | apply frm_closeDebug | apply frm_burnLc | apply frm_wipeAllOtp | apply frm_transitionEnds | apply frm_scrapEnds | apply Frm.ite | fail_if_no_progress apply Frm.rest | exact Sub.trans (b := 262142) rfl hm) | dsimp only | split | (with_reducible first | apply Frm.ch5 | apply Frm.ch16)

theorem frm_lcsRequest {fm : Nat} {r0 : State} {path : LcsPath} {target : Nat} {b : Burn} {s : State} (hm : Sub 262142 fm) (hk : Frm fm r0 s) :
    Frm fm r0 (lcsRequest path target b s) := by
  unfold lcsRequest
  repeat' first | intro _ | (with_reducible first | assumption | apply frm_refresh | apply frm_refuseWrite | apply frm_performTransition | apply Frm.ite | fail_if_no_progress apply Frm.rest | exact Sub.trans (b := 262142) rfl hm) | dsimp only | split | (with_reducible first | apply Frm.ch5)

theorem frm_burnValue {fm : Nat} {r0 : State} {f : Nat} {v : List Byte} {b : Burn} {s : State} (hm : Sub 16 fm) (hk : Frm fm r0 s) :
    Frm fm r0 (burnValue f v b s) := by
  unfold burnValue
  repeat' first | intro _ | (with_reducible first | assumption | apply Frm.ite | fail_if_no_progress apply Frm.rest | exact Sub.trans (b := 16) rfl hm) | dsimp only | split | (with_reducible first | apply Frm.ch4)

theorem frm_otpEnds {fm : Nat} {r0 : State} {path : LcsPath} {st : Status} {s : State} (hm : Sub 16384 fm) (hk : Frm fm r0 s) :
    Frm fm r0 (otpEnds path st s) := by
  unfold otpEnds
  repeat' first | intro _ | (with_reducible first | assumption | apply frm_mbEnd | apply Frm.ite | fail_if_no_progress apply Frm.rest | exact Sub.trans (b := 16384) rfl hm) | dsimp only | split

theorem frm_otpPerform {fm : Nat} {r0 : State} {path : LcsPath} {f : Nat} {v : List Byte} {b : Burn} {s : State} (hm : Sub 16400 fm) (hk : Frm fm r0 s) :
    Frm fm r0 (otpPerform path f v b s) := by
  unfold otpPerform
  repeat' first | intro _ | (with_reducible first | assumption | apply frm_raise | apply frm_burnValue | apply frm_otpEnds | apply Frm.ite | fail_if_no_progress apply Frm.rest | exact Sub.trans (b := 16400) rfl hm) | dsimp only | split

theorem frm_otpProgram {fm : Nat} {r0 : State} {path : LcsPath} {f : Nat} {v : List Byte} {b : Burn} {s : State} (hm : Sub 16400 fm) (hk : Frm fm r0 s) :
    Frm fm r0 (otpProgram path f v b s) := by
  unfold otpProgram
  repeat' first | intro _ | (with_reducible first | assumption | apply frm_otpEnds | apply frm_otpPerform | apply Frm.ite | fail_if_no_progress apply Frm.rest | exact Sub.trans (b := 16400) rfl hm) | dsimp only | split

theorem frm_runOtp {fm : Nat} {r0 : State} {s : State} (hm : Sub 16400 fm) (hk : Frm fm r0 s) :
    Frm fm r0 (runOtp s) := by
  unfold runOtp
  repeat' first | intro _ | (with_reducible first | assumption | apply frm_otpPerform | apply Frm.ite | fail_if_no_progress apply Frm.rest | exact Sub.trans (b := 16400) rfl hm) | dsimp only | split

theorem frm_otpProgramBar0 {fm : Nat} {r0 : State} {value : List Byte} {b : Burn} {s : State} (hm : Sub 16402 fm) (hk : Frm fm r0 s) :
    Frm fm r0 (otpProgramBar0 value b s) := by
  unfold otpProgramBar0
  repeat' first | intro _ | (with_reducible first | assumption | apply frm_mbEnd | apply frm_fetchArg | apply frm_otpProgram | apply Frm.ite | apply Frm.opt (by assumption) | apply FrmO.none | apply FrmO.some | apply FrmO.ite | fail_if_no_progress apply Frm.rest | exact Sub.trans (b := 16402) rfl hm) | dsimp only | split

theorem frm_burnRollback {fm : Nat} {r0 : State} {s : State} (hm : Sub 16400 fm) (hk : Frm fm r0 s) :
    Frm fm r0 (burnRollback s) := by
  unfold burnRollback
  repeat' first | intro _ | (with_reducible first | assumption | apply frm_mbEnd | apply frm_measureFw | apply Frm.ite | fail_if_no_progress apply Frm.rest | exact Sub.trans (b := 16400) rfl hm) | dsimp only | split | (with_reducible first | apply Frm.ch4)

theorem frm_tryRollback {fm : Nat} {r0 : State} {s : State} (hm : Sub 16400 fm) (hk : Frm fm r0 s) :
    Frm fm r0 (tryRollback s) := by
  unfold tryRollback
  repeat' first | intro _ | (with_reducible first | assumption | apply frm_burnRollback | apply Frm.ite | fail_if_no_progress apply Frm.rest | exact Sub.trans (b := 16400) rfl hm) | dsimp only | split

theorem frm_runDeferred {fm : Nat} {r0 : State} {s : State} (hm : Sub 262142 fm) (hk : Frm fm r0 s) :
    Frm fm r0 (runDeferred s) := by
  unfold runDeferred
  repeat' first | intro _ | (with_reducible first | assumption | apply frm_performTransition | apply frm_runOtp | apply frm_burnRollback | apply Frm.ite | fail_if_no_progress apply Frm.rest | exact Sub.trans (b := 262142) rfl hm) | dsimp only | split | (with_reducible first | apply Frm.ch5)

theorem frm_openErase {fm : Nat} {r0 : State} {s : State} (hm : Sub 80 fm) (hk : Frm fm r0 s) :
    Frm fm r0 (openErase s) := by
  unfold openErase
  repeat' first | intro _ | (with_reducible first | assumption | apply frm_raise | apply frm_stopAll | apply frm_wipeSecrets | apply frm_openDebug | apply Frm.ite | fail_if_no_progress apply Frm.rest | exact Sub.trans (b := 80) rfl hm) | dsimp only | split

theorem frm_openCert {fm : Nat} {r0 : State} {c : BitVec 2048} {s : State} (hm : Sub 80 fm) (hk : Frm fm r0 s) :
    Frm fm r0 (openCert c s) := by
  unfold openCert
  repeat' first | intro _ | (with_reducible first | assumption | apply frm_raise | apply frm_stopAll | apply frm_wipeSecrets | apply frm_openDebug | apply Frm.ite | fail_if_no_progress apply Frm.rest | exact Sub.trans (b := 80) rfl hm) | dsimp only | split | (with_reducible first | apply Frm.ch6)

theorem frm_tapShift {fm : Nat} {r0 : State} {ir : Nat} {v : BitVec 64} {s : State} (hm : Sub 64 fm) (hk : Frm fm r0 s) :
    Frm fm r0 (tapShift ir v s) := by
  unfold tapShift
  repeat' first | intro _ | (with_reducible first | assumption | apply frm_emit | apply Frm.ite | fail_if_no_progress apply Frm.rest | exact Sub.trans (b := 64) rfl hm) | dsimp only | split | (with_reducible first | apply Frm.ch6)

theorem frm_hbmHardRepair {fm : Nat} {r0 : State} {d : Nat} {s : State} (hk : Frm fm r0 s) :
    Frm fm r0 (hbmHardRepair d s) := by
  unfold hbmHardRepair
  repeat' first | intro _ | (with_reducible first | assumption | apply frm_hardRepair | apply Frm.ite | apply Frm.opt (by assumption) | apply Frm.getD | apply FrmO.none | apply FrmO.some | apply FrmO.ite | fail_if_no_progress apply Frm.rest) | dsimp only | split

end Sys2Proof.Laws
end

