-- ==== Sys2Proof/Laws/FrameLinks.lean ====
section
/-! SUPPORT. What the operations of `Machine/Links.lean` leave alone: one lemma each. -/
namespace Sys2Proof.Laws
open Sys2Proof Sys2Proof.Machine Sys2Proof.Safety
set_option linter.unreachableTactic false
set_option linter.unusedTactic false

theorem frm_learn {fm : Nat} {r0 : State} {n : Nat} {tr : Training} {s : State} (hk : Frm fm r0 s) :
    Frm fm r0 (learn n tr s) := by
  unfold learn
  repeat' first | intro _ | (with_reducible first | assumption | apply frm_emit | apply frm_setPort | apply Frm.ite | fail_if_no_progress apply Frm.rest) | dsimp only | split

theorem frm_portUp {fm : Nat} {r0 : State} {n : Nat} {s : State} (hk : Frm fm r0 s) :
    Frm fm r0 (portUp n s) := by
  unfold portUp
  repeat' first | intro _ | (with_reducible first | assumption | apply frm_emit | apply frm_setPort | apply frm_sendCredit | apply frm_drainTx | apply frm_setLink | apply Frm.ite | apply Frm.foldl | apply Frm.foldl2 | apply Frm.foldl3 | fail_if_no_progress apply Frm.rest) | dsimp only | split

theorem frm_stlTrainingDone {fm : Nat} {r0 : State} {n : Nat} {tr : Training} {s : State} (hk : Frm fm r0 s) :
    Frm fm r0 (stlTrainingDone n tr s) := by
  unfold stlTrainingDone
  repeat' first | intro _ | (with_reducible first | assumption | apply frm_setPort | apply frm_failPort | apply frm_learn | apply frm_portUp | apply Frm.ite | fail_if_no_progress apply Frm.rest) | dsimp only | split

theorem frm_stlTrainingTimeout {fm : Nat} {r0 : State} {n : Nat} {s : State} (hk : Frm fm r0 s) :
    Frm fm r0 (stlTrainingTimeout n s) := by
  unfold stlTrainingTimeout
  repeat' first | intro _ | (with_reducible first | assumption | apply frm_failPort | apply Frm.ite | fail_if_no_progress apply Frm.rest) | dsimp only | split

theorem frm_retrain {fm : Nat} {r0 : State} {n : Nat} {s : State} (hk : Frm fm r0 s) :
    Frm fm r0 (retrain n s) := by
  unfold retrain
  repeat' first | intro _ | (with_reducible first | assumption | apply frm_setLink | apply Frm.ite | fail_if_no_progress apply Frm.rest) | dsimp only | split

theorem frm_stlRetrainDone {fm : Nat} {r0 : State} {n : Nat} {tr : Training} {s : State} (hk : Frm fm r0 s) :
    Frm fm r0 (stlRetrainDone n tr s) := by
  unfold stlRetrainDone
  repeat' first | intro _ | (with_reducible first | assumption | apply frm_raise | apply frm_failPort | apply frm_learn | apply frm_portUp | apply Frm.ite | fail_if_no_progress apply Frm.rest) | dsimp only | split

theorem frm_stlRetrainTimeout {fm : Nat} {r0 : State} {n : Nat} {s : State} (hk : Frm fm r0 s) :
    Frm fm r0 (stlRetrainTimeout n s) := by
  unfold stlRetrainTimeout
  repeat' first | intro _ | (with_reducible first | assumption | apply frm_failPort | apply Frm.ite | fail_if_no_progress apply Frm.rest) | dsimp only | split

theorem frm_stlPortFence {fm : Nat} {r0 : State} {n : Nat} {s : State} (hk : Frm fm r0 s) :
    Frm fm r0 (stlPortFence n s) := by
  unfold stlPortFence
  repeat' first | intro _ | (with_reducible first | assumption | apply frm_requestPortFence | apply frm_refreshMirrors | apply Frm.ite | fail_if_no_progress apply Frm.rest) | dsimp only | split

theorem frm_stlPortReadmit {fm : Nat} {r0 : State} {n : Nat} {s : State} (hk : Frm fm r0 s) :
    Frm fm r0 (stlPortReadmit n s) := by
  unfold stlPortReadmit
  repeat' first | intro _ | (with_reducible first | assumption | apply frm_requestPortReadmit | apply frm_refuseWrite | apply Frm.ite | fail_if_no_progress apply Frm.rest) | dsimp only | split

theorem frm_sendNak {fm : Nat} {r0 : State} {n : Nat} {h : BitVec 256} {s : State} (hk : Frm fm r0 s) :
    Frm fm r0 (sendNak n h s) := by
  unfold sendNak
  repeat' first | intro _ | (with_reducible first | assumption | apply frm_emit | apply Frm.ite | fail_if_no_progress apply Frm.rest) | dsimp only | split

theorem frm_codewordLost {fm : Nat} {r0 : State} {n : Nat} {h : BitVec 256} {s : State} (hk : Frm fm r0 s) :
    Frm fm r0 (codewordLost n h s) := by
  unfold codewordLost
  repeat' first | intro _ | (with_reducible first | assumption | apply frm_setPort | apply frm_raise | apply frm_retrain | apply frm_sendNak | apply Frm.ite | fail_if_no_progress apply Frm.rest) | dsimp only | split

theorem frm_slotReceive {fm : Nat} {r0 : State} {n : Nat} {sl : Slot} {codewordOk : Bool} {s : State} (hk : Frm fm r0 s) :
    Frm fm r0 (slotReceive n sl codewordOk s) := by
  unfold slotReceive
  repeat' first | intro _ | (with_reducible first | assumption | apply frm_setPort | apply frm_raise | apply frm_checkEcc | apply frm_pumpCol | apply frm_sendNak | apply frm_codewordLost | apply Frm.ite | fail_if_no_progress apply Frm.rest) | dsimp only | split

theorem frm_onBlock {fm : Nat} {r0 : State} {n ty : Nat} {blk : BitVec 128} {f : State → State} {s : State} (hk : Frm fm r0 s) (kf : ∀ x, Frm fm r0 x → Frm fm r0 (f x)) :
    Frm fm r0 (onBlock n ty blk f s) := by
  unfold onBlock
  repeat' first | intro _ | (with_reducible first | assumption | apply kf | apply frm_raise | apply Frm.ite | fail_if_no_progress apply Frm.rest) | dsimp only | split

theorem frm_nakBlock {fm : Nat} {r0 : State} {n : Nat} {blk : BitVec 128} {s : State} (hk : Frm fm r0 s) :
    Frm fm r0 (nakBlock n blk s) := by
  unfold nakBlock
  repeat' first | intro _ | (with_reducible first | assumption | apply frm_setPort | apply frm_raise | apply frm_drainTx | apply frm_retrain | apply frm_onBlock | apply Frm.ite | fail_if_no_progress apply Frm.rest) | dsimp only | split

theorem frm_abortBlock {fm : Nat} {r0 : State} {n : Nat} {blk : BitVec 128} {s : State} (hk : Frm fm r0 s) :
    Frm fm r0 (abortBlock n blk s) := by
  unfold abortBlock
  repeat' first | intro _ | (with_reducible first | assumption | apply frm_abortOp | apply frm_onBlock | apply Frm.ite | fail_if_no_progress apply Frm.rest) | dsimp only | split

theorem frm_stlCredit {fm : Nat} {r0 : State} {n : Nat} {blk : BitVec 128} {s : State} (hk : Frm fm r0 s) :
    Frm fm r0 (stlCredit n blk s) := by
  unfold stlCredit
  repeat' first | intro _ | (with_reducible first | assumption | apply frm_setPort | apply frm_drainTx | apply frm_onBlock | apply Frm.ite | fail_if_no_progress apply Frm.rest) | dsimp only | split

theorem frm_linkBlock {fm : Nat} {r0 : State} {n : Nat} {blk : BitVec 128} {s : State} (hk : Frm fm r0 s) :
    Frm fm r0 (linkBlock n blk s) := by
  unfold linkBlock
  repeat' first | intro _ | (with_reducible first | assumption | apply frm_setPort | apply frm_onBlock | apply Frm.ite | fail_if_no_progress apply Frm.rest) | dsimp only | split

theorem frm_serdesRefclkLost {fm : Nat} {r0 : State} {east : Bool} {s : State} (hk : Frm fm r0 s) :
    Frm fm r0 (serdesRefclkLost east s) := by
  unfold serdesRefclkLost
  repeat' first | intro _ | (with_reducible first | assumption | apply frm_raise | apply frm_failPort | apply Frm.ite | apply Frm.foldl | apply Frm.foldl2 | apply Frm.foldl3 | fail_if_no_progress apply Frm.rest) | dsimp only | split

end Sys2Proof.Laws
end

