-- ==== Sys2Proof/Laws/FramePower.lean ====
section
/-! SUPPORT. What the operations of `Machine/Power.lean` leave alone: one lemma each. -/
namespace Sys2Proof.Laws
open Sys2Proof Sys2Proof.Machine Sys2Proof.Safety
set_option linter.unreachableTactic false
set_option linter.unusedTactic false

theorem frm_scaleShares {fm : Nat} {r0 : State} {s : State} (hk : Frm fm r0 s) :
    Frm fm r0 (scaleShares s) := by
  unfold scaleShares
  repeat' first | intro _ | (with_reducible first | assumption | apply Frm.ite | apply Frm.foldl | apply Frm.foldl2 | apply Frm.foldl3 | fail_if_no_progress apply Frm.rest) | dsimp only | split

theorem frm_setAvail {fm : Nat} {r0 : State} {s : State} (hk : Frm fm r0 s) :
    Frm fm r0 (setAvail s) := by
  unfold setAvail
  repeat' first | intro _ | (with_reducible first | assumption | apply frm_scaleShares | apply Frm.ite | fail_if_no_progress apply Frm.rest) | dsimp only | split

theorem frm_stepShare {fm : Nat} {r0 : State} {p value : Nat} {pg : Nat → Nat} {s : State} (hk : Frm fm r0 s) :
    Frm fm r0 (stepShare p value pg s) := by
  unfold stepShare
  repeat' first | intro _ | (with_reducible first | assumption | apply Frm.ite | apply Frm.foldl | apply Frm.foldl2 | apply Frm.foldl3 | fail_if_no_progress apply Frm.rest) | dsimp only | split

theorem frm_noteEmergency {fm : Nat} {r0 : State} {s : State} (hk : Frm fm r0 s) :
    Frm fm r0 (noteEmergency s) := by
  unfold noteEmergency
  repeat' first | intro _ | (with_reducible first | assumption | apply Frm.ite | fail_if_no_progress apply Frm.rest) | dsimp only | split

theorem frm_tileReport {fm : Nat} {r0 : State} {x : PowerIn} {s : State} (hk : Frm fm r0 s) :
    Frm fm r0 (tileReport x s) := by
  unfold tileReport
  repeat' first | intro _ | (with_reducible first | assumption | apply frm_setTile | apply frm_raise | apply Frm.ite | apply Frm.foldl | apply Frm.foldl2 | apply Frm.foldl3 | apply Frm.foldl4 | fail_if_no_progress apply Frm.rest) | dsimp only | split

theorem frm_sitePlimit {fm : Nat} {r0 : State} {e : Nat} {s : State} (hk : Frm fm r0 s) :
    Frm fm r0 (sitePlimit e s) := by
  unfold sitePlimit
  repeat' first | intro _ | (with_reducible first | assumption | apply frm_raise | apply Frm.ite | apply Frm.foldl | apply Frm.foldl2 | apply Frm.foldl3 | fail_if_no_progress apply Frm.rest) | dsimp only | split

theorem frm_siteReport {fm : Nat} {r0 : State} {x : PowerIn} {s : State} (hk : Frm fm r0 s) :
    Frm fm r0 (siteReport x s) := by
  unfold siteReport
  repeat' first | intro _ | (with_reducible first | assumption | apply frm_modSite | apply frm_sitePlimit | apply Frm.ite | apply Frm.foldl | apply Frm.foldl2 | apply Frm.foldl3 | fail_if_no_progress apply Frm.rest) | dsimp only | split

theorem frm_energyReport {fm : Nat} {r0 : State} {x : PowerIn} {s : State} (hk : Frm fm r0 s) :
    Frm fm r0 (energyReport x s) := by
  unfold energyReport
  repeat' first | intro _ | (with_reducible first | assumption | apply Frm.ite | apply Frm.foldl | apply Frm.foldl2 | apply Frm.foldl3 | fail_if_no_progress apply Frm.rest) | dsimp only | split

theorem frm_telemetry {fm : Nat} {r0 : State} {s : State} (hk : Frm fm r0 s) :
    Frm fm r0 (telemetry s) := by
  unfold telemetry
  repeat' first | intro _ | (with_reducible first | assumption | apply Frm.ite | apply Frm.foldl | apply Frm.foldl2 | apply Frm.foldl3 | fail_if_no_progress apply Frm.rest) | dsimp only | split

theorem frm_stepLimits {fm : Nat} {r0 : State} {x : PowerIn} {used : Nat} {s : State} (hk : Frm fm r0 s) :
    Frm fm r0 (stepLimits x used s) := by
  unfold stepLimits
  repeat' first | intro _ | (with_reducible first | assumption | apply Frm.ite | apply Frm.foldl | apply Frm.foldl2 | apply Frm.foldl3 | fail_if_no_progress apply Frm.rest) | dsimp only | split

theorem frm_powerControlTick {fm : Nat} {r0 : State} {x : PowerIn} {s : State} (hm : Sub 262142 fm) (hk : Frm fm r0 s) :
    Frm fm r0 (powerControlTick x s) := by
  unfold powerControlTick
  repeat' first | intro _ | (with_reducible first | assumption | apply frm_runDeferred | apply frm_stepShare | apply frm_noteEmergency | apply frm_tileReport | apply frm_siteReport | apply frm_energyReport | apply frm_telemetry | apply frm_stepLimits | apply Frm.ite | apply Frm.foldl | apply Frm.foldl2 | apply Frm.foldl3 | fail_if_no_progress apply Frm.rest | exact Sub.trans (b := 262142) rfl hm) | dsimp only | split

theorem frm_powerSample {fm : Nat} {r0 : State} {est meas vin : Nat} {s : State} (hk : Frm fm r0 s) :
    Frm fm r0 (powerSample est meas vin s) := by
  unfold powerSample
  repeat' first | intro _ | (with_reducible first | assumption | apply frm_raise | apply Frm.ite | fail_if_no_progress apply Frm.rest) | dsimp only | split

theorem frm_calibrationUpdate {fm : Nat} {r0 : State} {s : State} (hk : Frm fm r0 s) :
    Frm fm r0 (calibrationUpdate s) := by
  unfold calibrationUpdate
  repeat' first | intro _ | (with_reducible first | assumption | apply frm_setAvail | apply Frm.ite | apply Frm.foldl | apply Frm.foldl2 | apply Frm.foldl3 | fail_if_no_progress apply Frm.rest) | dsimp only | split

theorem frm_tileFail {fm : Nat} {r0 : State} {t : Nat} {s : State} (hk : Frm fm r0 s) :
    Frm fm r0 (tileFail t s) := by
  unfold tileFail
  repeat' first | intro _ | (with_reducible first | assumption | apply frm_setTile | apply frm_raise | apply Frm.ite | fail_if_no_progress apply Frm.rest) | dsimp only | split

theorem frm_unpower {fm : Nat} {r0 : State} {s : State} (hm : Sub 262126 fm) (hk : Frm fm r0 s) :
    Frm fm r0 (unpower s) := by
  unfold unpower
  repeat' first | intro _ | (with_reducible first | assumption | apply frm_hubBase | apply Frm.ite | apply Frm.foldl | apply Frm.foldl2 | apply Frm.foldl3 | fail_if_no_progress apply Frm.rest | exact Sub.trans (b := 262126) rfl hm) | dsimp only | split

theorem frm_repower {fm : Nat} {r0 : State} {s : State} (hm : Sub 262126 fm) (hk : Frm fm r0 s) :
    Frm fm r0 (repower s) := by
  unfold repower
  repeat' first | intro _ | (with_reducible first | assumption | apply frm_emit | apply frm_hubBase | apply Frm.ite | fail_if_no_progress apply Frm.rest | exact Sub.trans (b := 262126) rfl hm) | dsimp only | split

theorem frm_fclkAdjust {fm : Nat} {r0 : State} {mean : Nat} {below : Bool} {s : State} (hk : Frm fm r0 s) :
    Frm fm r0 (fclkAdjust mean below s) := by
  unfold fclkAdjust
  repeat' first | intro _ | (with_reducible first | assumption | apply frm_holdFclk | apply Frm.ite | fail_if_no_progress apply Frm.rest) | dsimp only | split

theorem frm_setRack {fm : Nat} {r0 : State} {w : Nat} {s : State} (hk : Frm fm r0 s) :
    Frm fm r0 (setRack w s) := by
  unfold setRack
  repeat' first | intro _ | (with_reducible first | assumption | apply frm_setAvail | apply Frm.ite | fail_if_no_progress apply Frm.rest) | dsimp only | split

theorem frm_powerOverride {fm : Nat} {r0 : State} {x : PowerSet} {s : State} (hm : Sub 128 fm) (hk : Frm fm r0 s) :
    Frm fm r0 (powerOverride x s) := by
  unfold powerOverride
  repeat' first | intro _ | (with_reducible first | assumption | apply frm_holdFclk | apply Frm.ite | fail_if_no_progress apply Frm.rest | exact Sub.trans (b := 128) rfl hm) | dsimp only | split | (with_reducible first | apply Frm.ch7)

theorem frm_noteTrip {fm : Nat} {r0 : State} {r sensor : Nat} {s : State} (hm : Sub 128 fm) (hk : Frm fm r0 s) :
    Frm fm r0 (noteTrip r sensor s) := by
  unfold noteTrip
  repeat' first | intro _ | (with_reducible first | assumption | apply Frm.ite | fail_if_no_progress apply Frm.rest | exact Sub.trans (b := 128) rfl hm) | dsimp only | split | (with_reducible first | apply Frm.ch7)

theorem frm_regionSample {fm : Nat} {r0 : State} {r sensor : Nat} {hot : Int} {trip : State → State} {s : State} (hm : Sub 128 fm) (hk : Frm fm r0 s) (ktrip : ∀ x, Frm fm r0 x → Frm fm r0 (trip x)) :
    Frm fm r0 (regionSample r sensor hot trip s) := by
  unfold regionSample
  repeat' first | intro _ | (with_reducible first | assumption | apply ktrip | apply frm_setRegion | apply frm_raise | apply frm_fclkToMin | apply frm_tryReady | apply frm_noteEmergency | apply frm_noteTrip | apply Frm.ite | apply Frm.foldl | apply Frm.foldl2 | apply Frm.foldl3 | fail_if_no_progress apply Frm.rest | exact Sub.trans (b := 128) rfl hm) | dsimp only | split | (with_reducible first | apply Frm.ch7)

theorem frm_tripHub {fm : Nat} {r0 : State} {s : State} (hk : Frm fm r0 s) :
    Frm fm r0 (tripHub s) := by
  unfold tripHub
  repeat' first | intro _ | (with_reducible first | assumption | apply frm_raise | apply frm_tripPackage | apply Frm.ite | fail_if_no_progress apply Frm.rest) | dsimp only | split

theorem frm_tripSite {fm : Nat} {r0 : State} {n : Nat} {s : State} (hk : Frm fm r0 s) :
    Frm fm r0 (tripSite n s) := by
  unfold tripSite
  repeat' first | intro _ | (with_reducible first | assumption | apply frm_markFlag | apply frm_dropSite | apply frm_offSite | apply frm_fenceSite | apply frm_raise | apply Frm.ite | fail_if_no_progress apply Frm.rest) | dsimp only | split

theorem frm_thermalSample {fm : Nat} {r0 : State} {n : Nat} {q : Int} {s : State} (hm : Sub 262126 fm) (hk : Frm fm r0 s) :
    Frm fm r0 (thermalSample n q s) := by
  unfold thermalSample
  repeat' first | intro _ | (with_reducible first | assumption | apply frm_raise | apply frm_unpower | apply frm_regionSample | apply frm_tripHub | apply frm_tripSite | apply Frm.ite | apply Frm.foldl | apply Frm.foldl2 | apply Frm.foldl3 | fail_if_no_progress apply Frm.rest | exact Sub.trans (b := 262126) rfl hm) | dsimp only | split | (with_reducible first | apply Frm.ch7)

theorem frm_tripStack {fm : Nat} {r0 : State} {m : Nat} {s : State} (hk : Frm fm r0 s) :
    Frm fm r0 (tripStack m s) := by
  unfold tripStack
  repeat' first | intro _ | (with_reducible first | assumption | apply frm_markFence | apply frm_fenceStack | apply frm_raise | apply Frm.ite | fail_if_no_progress apply Frm.rest) | dsimp only | split

theorem frm_hbmTempSample {fm : Nat} {r0 : State} {m : Nat} {q : Int} {s : State} (hm : Sub 128 fm) (hk : Frm fm r0 s) :
    Frm fm r0 (hbmTempSample m q s) := by
  unfold hbmTempSample
  repeat' first | intro _ | (with_reducible first | assumption | apply frm_setStack | apply frm_traceAt | apply frm_raise | apply frm_regionSample | apply frm_tripStack | apply Frm.ite | fail_if_no_progress apply Frm.rest | exact Sub.trans (b := 128) rfl hm) | dsimp only | split

end Sys2Proof.Laws
end

