-- ==== Sys2Proof/Laws/FrameMgt.lean ====
section
/-! SUPPORT. What the operations of `Machine/Mgt.lean` leave alone: one lemma each. -/
namespace Sys2Proof.Laws
open Sys2Proof Sys2Proof.Machine Sys2Proof.Safety
set_option linter.unreachableTactic false
set_option linter.unusedTactic false

theorem frm_beginSlot {fm : Nat} {r0 : State} {t : Nat} {i : FwImage} {trial mail : Bool} {s : State} (hm : Sub 65536 fm) (hk : Frm fm r0 s) :
    Frm fm r0 (beginSlot t i trial mail s) := by
  unfold beginSlot
  repeat' first | intro _ | (with_reducible first | assumption | apply Frm.ite | fail_if_no_progress apply Frm.rest | exact Sub.trans (b := 65536) rfl hm) | dsimp only | split | (with_reducible first | apply Frm.ch16)

theorem frm_stagePeel {fm : Nat} {r0 : State} {i : FwImage} {s : State} (hk : Frm fm r0 s) :
    Frm fm r0 (stagePeel i s) := by
  unfold stagePeel
  repeat' first | intro _ | (with_reducible first | assumption | apply Frm.ite | fail_if_no_progress apply Frm.rest) | dsimp only | split

theorem frm_fwUpdate {fm : Nat} {r0 : State} {bytes : List Byte} {s : State} (hm : Sub 81922 fm) (hk : Frm fm r0 s) :
    Frm fm r0 (fwUpdate bytes s) := by
  unfold fwUpdate
  repeat' first | intro _ | (with_reducible first | assumption | apply frm_raise | apply frm_mbEnd | apply frm_fetchArg | apply frm_beginSlot | apply frm_stagePeel | apply Frm.ite | apply Frm.opt (by assumption) | apply FrmO.none | apply FrmO.some | apply FrmO.ite | fail_if_no_progress apply Frm.rest | exact Sub.trans (b := 81922) rfl hm) | dsimp only | split

theorem frm_flashWriteDone {fm : Nat} {r0 : State} {ok : Bool} {s : State} (hm : Sub 262142 fm) (hk : Frm fm r0 s) :
    Frm fm r0 (flashWriteDone ok s) := by
  unfold flashWriteDone
  repeat' first | intro _ | (with_reducible first | assumption | apply frm_raise | apply frm_mbEnd | apply frm_endLoad | apply frm_scrapEnds | apply Frm.ite | fail_if_no_progress apply Frm.rest | exact Sub.trans (b := 262142) rfl hm) | dsimp only | split | (with_reducible first | apply Frm.ch16)

theorem frm_peelCancel {fm : Nat} {r0 : State} {s : State} (hm : Sub 16384 fm) (hk : Frm fm r0 s) :
    Frm fm r0 (peelCancel s) := by
  unfold peelCancel
  repeat' first | intro _ | (with_reducible first | assumption | apply frm_dropPeel | apply frm_mbEnd | apply Frm.ite | fail_if_no_progress apply Frm.rest | exact Sub.trans (b := 16384) rfl hm) | dsimp only | split

theorem frm_advanceRollback {fm : Nat} {r0 : State} {s : State} (hm : Sub 16400 fm) (hk : Frm fm r0 s) :
    Frm fm r0 (advanceRollback s) := by
  unfold advanceRollback
  repeat' first | intro _ | (with_reducible first | assumption | apply frm_mbEnd | apply frm_tryRollback | apply Frm.ite | fail_if_no_progress apply Frm.rest | exact Sub.trans (b := 16400) rfl hm) | dsimp only | split

theorem frm_retryStart {fm : Nat} {r0 : State} {s : State} (hm : Sub 262126 fm) (hk : Frm fm r0 s) :
    Frm fm r0 (retryStart s) := by
  unfold retryStart
  repeat' first | intro _ | (with_reducible first | assumption | apply frm_mbEnd | apply frm_enterReset | apply frm_setStart | apply Frm.ite | fail_if_no_progress apply Frm.rest | exact Sub.trans (b := 262126) rfl hm) | dsimp only | split | (with_reducible first | apply Frm.ch16)

theorem frm_recoveryBegin {fm : Nat} {r0 : State} {s : State} (hm : Sub 81920 fm) (hk : Frm fm r0 s) :
    Frm fm r0 (recoveryBegin s) := by
  unfold recoveryBegin
  repeat' first | intro _ | (with_reducible first | assumption | apply frm_mbEnd | apply Frm.ite | fail_if_no_progress apply Frm.rest | exact Sub.trans (b := 81920) rfl hm) | dsimp only | split | (with_reducible first | apply Frm.ch16)

theorem frm_recoveryRun {fm : Nat} {r0 : State} {s : State} (hm : Sub 81920 fm) (hk : Frm fm r0 s) :
    Frm fm r0 (recoveryRun s) := by
  unfold recoveryRun
  repeat' first | intro _ | (with_reducible first | assumption | apply frm_mbEnd | apply frm_setStart | apply Frm.ite | fail_if_no_progress apply Frm.rest | exact Sub.trans (b := 81920) rfl hm) | dsimp only | split | (with_reducible first | apply Frm.ch16)

theorem frm_rcvDataWrite {fm : Nat} {r0 : State} {val : Word} {s : State} (hm : Sub 65536 fm) (hk : Frm fm r0 s) :
    Frm fm r0 (rcvDataWrite val s) := by
  unfold rcvDataWrite
  repeat' first | intro _ | (with_reducible first | assumption | apply Frm.ite | fail_if_no_progress apply Frm.rest | exact Sub.trans (b := 65536) rfl hm) | dsimp only | split | (with_reducible first | apply Frm.ch16)

theorem frm_pldmTransfer {fm : Nat} {r0 : State} {recovery : Bool} {bytes : List Byte} {s : State} (hm : Sub 65536 fm) (hk : Frm fm r0 s) :
    Frm fm r0 (pldmTransfer recovery bytes s).2 := by
  unfold pldmTransfer
  repeat' first | intro _ | (with_reducible first | assumption | apply frm_raise | apply frm_beginSlot | apply Frm.ite | fail_if_no_progress apply Frm.rest | exact Sub.trans (b := 65536) rfl hm) | dsimp only | split

theorem frm_pldmActivate {fm : Nat} {r0 : State} {self : Bool} {s : State} (hm : Sub 65536 fm) (hk : Frm fm r0 s) :
    Frm fm r0 (pldmActivate self s).2 := by
  unfold pldmActivate
  repeat' first | intro _ | (with_reducible first | assumption | apply frm_raise | apply frm_beginSlot | apply frm_stagePeel | apply Frm.ite | fail_if_no_progress apply Frm.rest | exact Sub.trans (b := 65536) rfl hm) | dsimp only | split

theorem frm_answerPldm {fm : Nat} {r0 : State} {kind : Nat} {what : List Byte} {s : State} (hk : Frm fm r0 s) :
    Frm fm r0 (answerPldm kind what s) := by
  unfold answerPldm
  repeat' first | intro _ | (with_reducible first | assumption | apply frm_emit | apply Frm.ite | fail_if_no_progress apply Frm.rest) | dsimp only | split

theorem frm_pldmServe {fm : Nat} {r0 : State} {r : PldmReq} {s : State} (hm : Sub 65536 fm) (hk : Frm fm r0 s) :
    Frm fm r0 (pldmServe r s) := by
  unfold pldmServe
  repeat' first | intro _ | (with_reducible first | assumption | apply frm_setRack | apply frm_pldmTransfer | apply frm_pldmActivate | apply frm_answerPldm | apply Frm.ite | apply Frm.snd (by assumption) | fail_if_no_progress apply Frm.rest | exact Sub.trans (b := 65536) rfl hm) | dsimp only | split

theorem frm_pldmFlush {fm : Nat} {r0 : State} {s : State} (hm : Sub 65536 fm) (hk : Frm fm r0 s) :
    Frm fm r0 (pldmFlush s) := by
  unfold pldmFlush
  repeat' first | intro _ | (with_reducible first | assumption | apply frm_pldmServe | apply Frm.ite | apply Frm.foldl | apply Frm.foldl2 | apply Frm.foldl3 | fail_if_no_progress apply Frm.rest | exact Sub.trans (b := 65536) rfl hm) | dsimp only | split

theorem frm_servePldm {fm : Nat} {r0 : State} {s : State} (hm : Sub 65536 fm) (hk : Frm fm r0 s) :
    Frm fm r0 (servePldm s) := by
  unfold servePldm
  repeat' first | intro _ | (with_reducible first | assumption | apply frm_pldmFlush | apply Frm.ite | fail_if_no_progress apply Frm.rest | exact Sub.trans (b := 65536) rfl hm) | dsimp only | split

theorem frm_pldmRequest {fm : Nat} {r0 : State} {r : PldmReq} {s : State} (hm : Sub 65536 fm) (hk : Frm fm r0 s) :
    Frm fm r0 (pldmRequest r s) := by
  unfold pldmRequest
  repeat' first | intro _ | (with_reducible first | assumption | apply frm_pldmServe | apply frm_servePldm | apply Frm.ite | fail_if_no_progress apply Frm.rest | exact Sub.trans (b := 65536) rfl hm) | dsimp only | split

theorem frm_pauseSites {fm : Nat} {r0 : State} {on : Bool} {s : State} (hk : Frm fm r0 s) :
    Frm fm r0 (pauseSites on s) := by
  unfold pauseSites
  repeat' first | intro _ | (with_reducible first | assumption | apply Frm.ite | fail_if_no_progress apply Frm.rest) | dsimp only | split

theorem frm_resumeWork {fm : Nat} {r0 : State} {s : State} (hm : Sub 262142 fm) (hk : Frm fm r0 s) :
    Frm fm r0 (resumeWork s) := by
  unfold resumeWork
  repeat' first | intro _ | (with_reducible first | assumption | apply frm_runDeferred | apply frm_pldmFlush | apply frm_pauseSites | apply Frm.ite | fail_if_no_progress apply Frm.rest | exact Sub.trans (b := 262142) rfl hm) | dsimp only | split

theorem frm_backToWait {fm : Nat} {r0 : State} {s : State} (hm : Sub 262142 fm) (hk : Frm fm r0 s) :
    Frm fm r0 (backToWait s) := by
  unfold backToWait
  repeat' first | intro _ | (with_reducible first | assumption | apply frm_writeLog | apply frm_fclkToMin | apply frm_resumeWork | apply Frm.ite | fail_if_no_progress apply Frm.rest | exact Sub.trans (b := 262142) rfl hm) | dsimp only | split

theorem frm_writeRecord {fm : Nat} {r0 : State} {s : State} (hk : Frm fm r0 s) :
    Frm fm r0 (writeRecord s) := by
  unfold writeRecord
  repeat' first | intro _ | (with_reducible first | assumption | apply Frm.ite | fail_if_no_progress apply Frm.rest) | dsimp only | split

theorem frm_peelDeferCheck {fm : Nat} {r0 : State} {s : State} (hk : Frm fm r0 s) :
    Frm fm r0 (peelDeferCheck s) := by
  unfold peelDeferCheck
  repeat' first | intro _ | (with_reducible first | assumption | apply Frm.ite | fail_if_no_progress apply Frm.rest) | dsimp only | split

theorem frm_peelFreeze {fm : Nat} {r0 : State} {s : State} (hm : Sub 262142 fm) (hk : Frm fm r0 s) :
    Frm fm r0 (peelFreeze s) := by
  unfold peelFreeze
  repeat' first | intro _ | (with_reducible first | assumption | apply frm_pauseSites | apply frm_backToWait | apply frm_writeRecord | apply Frm.ite | fail_if_no_progress apply Frm.rest | exact Sub.trans (b := 262142) rfl hm) | dsimp only | split

theorem frm_peelJump {fm : Nat} {r0 : State} {s : State} (hm : Sub 262142 fm) (hk : Frm fm r0 s) :
    Frm fm r0 (peelJump s) := by
  unfold peelJump
  repeat' first | intro _ | (with_reducible first | assumption | apply frm_measureFw | apply frm_backToWait | apply Frm.ite | fail_if_no_progress apply Frm.rest | exact Sub.trans (b := 262142) rfl hm) | dsimp only | split | (with_reducible first | apply Frm.ch16)

theorem frm_peelResume {fm : Nat} {r0 : State} {s : State} (hm : Sub 262142 fm) (hk : Frm fm r0 s) :
    Frm fm r0 (peelResume s) := by
  unfold peelResume
  repeat' first | intro _ | (with_reducible first | assumption | apply frm_writeLog | apply frm_raise | apply frm_fclkToMin | apply frm_rewritePolicy | apply frm_resumeWork | apply Frm.ite | fail_if_no_progress apply Frm.rest | exact Sub.trans (b := 262142) rfl hm) | dsimp only | split

theorem frm_peelResumeTimeout {fm : Nat} {r0 : State} {rejected : Bool} {s : State} (hm : Sub 262142 fm) (hk : Frm fm r0 s) :
    Frm fm r0 (peelResumeTimeout rejected s) := by
  unfold peelResumeTimeout
  repeat' first | intro _ | (with_reducible first | assumption | apply frm_raise | apply frm_fclkToMin | apply frm_rewritePolicy | apply frm_measureFw | apply frm_resumeWork | apply Frm.ite | fail_if_no_progress apply Frm.rest | exact Sub.trans (b := 262142) rfl hm) | dsimp only | split | (with_reducible first | apply Frm.ch16)

theorem frm_peelCommit {fm : Nat} {r0 : State} {ok : Bool} {s : State} (hm : Sub 65536 fm) (hk : Frm fm r0 s) :
    Frm fm r0 (peelCommit ok s) := by
  unfold peelCommit
  repeat' first | intro _ | (with_reducible first | assumption | apply frm_raise | apply Frm.ite | fail_if_no_progress apply Frm.rest | exact Sub.trans (b := 65536) rfl hm) | dsimp only | split | (with_reducible first | apply Frm.ch16)

theorem frm_cutCommand {fm : Nat} {r0 : State} {s : State} (hm : Sub 90114 fm) (hk : Frm fm r0 s) :
    Frm fm r0 (cutCommand s) := by
  unfold cutCommand
  repeat' first | intro _ | (with_reducible first | assumption | apply frm_mbEnd | apply frm_endLoad | apply Frm.ite | fail_if_no_progress apply Frm.rest | exact Sub.trans (b := 90114) rfl hm) | dsimp only | split | (with_reducible first | apply Frm.ch16)

theorem frm_mgtWatchdog {fm : Nat} {r0 : State} {s : State} (hm : Sub 90114 fm) (hk : Frm fm r0 s) :
    Frm fm r0 (mgtWatchdog s) := by
  unfold mgtWatchdog
  repeat' first | intro _ | (with_reducible first | assumption | apply frm_dropPeel | apply frm_raise | apply frm_cutCommand | apply Frm.ite | fail_if_no_progress apply Frm.rest | exact Sub.trans (b := 90114) rfl hm) | dsimp only | split

end Sys2Proof.Laws
end

