-- ==== Sys2Proof/Laws/FrameSec.lean ====
section
/-! SUPPORT. What the operations of `Machine/Sec.lean` leave alone: one lemma each. -/
namespace Sys2Proof.Laws
open Sys2Proof Sys2Proof.Machine Sys2Proof.Safety
set_option linter.unreachableTactic false
set_option linter.unusedTactic false

theorem frm_openEnds {fm : Nat} {r0 : State} {v : Nat} {st : Status} {s : State} (hk : Frm fm r0 s) :
    Frm fm r0 (openEnds v st s) := by
  unfold openEnds
  repeat' first | intro _ | (with_reducible first | assumption | apply frm_modVi | apply frm_setSeal | apply frm_refresh | apply Frm.ite | fail_if_no_progress apply Frm.rest) | dsimp only | split

theorem frm_sealOpenStart {fm : Nat} {r0 : State} {v : Nat} {s : State} (hk : Frm fm r0 s) :
    Frm fm r0 (sealOpenStart v s) := by
  unfold sealOpenStart
  repeat' first | intro _ | (with_reducible first | assumption | apply frm_modVi | apply frm_setSeal | apply frm_refresh | apply frm_openEnds | apply Frm.ite | fail_if_no_progress apply Frm.rest) | dsimp only | split

theorem frm_wipeSlot {fm : Nat} {r0 : State} {v : Nat} {s : State} (hk : Frm fm r0 s) :
    Frm fm r0 (wipeSlot v s) := by
  unfold wipeSlot
  repeat' first | intro _ | (with_reducible first | assumption | apply frm_setSeal | apply frm_abortSlot | apply Frm.ite | fail_if_no_progress apply Frm.rest) | dsimp only | split

theorem frm_sealOpenComplete {fm : Nat} {r0 : State} {v : Nat} {s : State} (hk : Frm fm r0 s) :
    Frm fm r0 (sealOpenComplete v s) := by
  unfold sealOpenComplete
  repeat' first | intro _ | (with_reducible first | assumption | apply frm_modVi | apply frm_setSeal | apply frm_refresh | apply frm_openEnds | apply frm_wipeSlot | apply Frm.ite | fail_if_no_progress apply Frm.rest) | dsimp only | split

theorem frm_spdmSend {fm : Nat} {r0 : State} {tr code : Nat} {req content : List Byte} {s : State} (hk : Frm fm r0 s) :
    Frm fm r0 (spdmSend tr code req content s) := by
  unfold spdmSend
  repeat' first | intro _ | (with_reducible first | assumption | apply frm_emit | apply Frm.ite | fail_if_no_progress apply Frm.rest) | dsimp only | split

theorem frm_spdmSigned {fm : Nat} {r0 : State} {tr code : Nat} {req content : List Byte} {s : State} (hk : Frm fm r0 s) :
    Frm fm r0 (spdmSigned tr code req content s) := by
  unfold spdmSigned
  repeat' first | intro _ | (with_reducible first | assumption | apply frm_emit | apply Frm.ite | fail_if_no_progress apply Frm.rest) | dsimp only | split

theorem frm_spdmError {fm : Nat} {r0 : State} {tr : Nat} {req : List Byte} {s : State} (hk : Frm fm r0 s) :
    Frm fm r0 (spdmError tr req s) := by
  unfold spdmError
  repeat' first | intro _ | (with_reducible first | assumption | apply frm_spdmSend | apply Frm.ite | fail_if_no_progress apply Frm.rest) | dsimp only | split

theorem frm_setSpdm {fm : Nat} {r0 : State} {tr : Nat} {x : Spdm} {s : State} (hk : Frm fm r0 s) :
    Frm fm r0 (State.setSpdm s tr x) := by
  unfold State.setSpdm
  repeat' first | intro _ | (with_reducible first | assumption | apply Frm.ite | fail_if_no_progress apply Frm.rest) | dsimp only | split

theorem frm_spdmGetVersion {fm : Nat} {r0 : State} {tr : Nat} {req : List Byte} {s : State} (hk : Frm fm r0 s) :
    Frm fm r0 (spdmGetVersion tr req s) := by
  unfold spdmGetVersion
  repeat' first | intro _ | (with_reducible first | assumption | apply frm_spdmSend | apply frm_setSpdm | apply Frm.ite | fail_if_no_progress apply Frm.rest) | dsimp only | split

theorem frm_spdmGetCapabilities {fm : Nat} {r0 : State} {tr : Nat} {req : List Byte} {s : State} (hk : Frm fm r0 s) :
    Frm fm r0 (spdmGetCapabilities tr req s) := by
  unfold spdmGetCapabilities
  repeat' first | intro _ | (with_reducible first | assumption | apply frm_spdmSend | apply frm_spdmError | apply frm_setSpdm | apply Frm.ite | fail_if_no_progress apply Frm.rest) | dsimp only | split

theorem frm_spdmNegotiate {fm : Nat} {r0 : State} {tr : Nat} {req : List Byte} {s : State} (hk : Frm fm r0 s) :
    Frm fm r0 (spdmNegotiate tr req s) := by
  unfold spdmNegotiate
  repeat' first | intro _ | (with_reducible first | assumption | apply frm_spdmSend | apply frm_spdmError | apply frm_setSpdm | apply Frm.ite | fail_if_no_progress apply Frm.rest) | dsimp only | split

theorem frm_spdmAfter {fm : Nat} {r0 : State} {tr : Nat} {req : List Byte} {f : State → State} {s : State} (hk : Frm fm r0 s) (kf : ∀ x, Frm fm r0 x → Frm fm r0 (f x)) :
    Frm fm r0 (spdmAfter tr req f s) := by
  unfold spdmAfter
  repeat' first | intro _ | (with_reducible first | assumption | apply kf | apply frm_spdmError | apply Frm.ite | fail_if_no_progress apply Frm.rest) | dsimp only | split

theorem frm_spdmCertificate {fm : Nat} {r0 : State} {tr : Nat} {req : List Byte} {s : State} (hk : Frm fm r0 s) :
    Frm fm r0 (spdmCertificate tr req s) := by
  unfold spdmCertificate
  repeat' first | intro _ | (with_reducible first | assumption | apply frm_spdmSend | apply frm_spdmError | apply Frm.ite | fail_if_no_progress apply Frm.rest) | dsimp only | split

theorem frm_spdmChallenge {fm : Nat} {r0 : State} {tr : Nat} {req : List Byte} {s : State} (hk : Frm fm r0 s) :
    Frm fm r0 (spdmChallenge tr req s) := by
  unfold spdmChallenge
  repeat' first | intro _ | (with_reducible first | assumption | apply frm_spdmSigned | apply frm_spdmError | apply Frm.ite | fail_if_no_progress apply Frm.rest) | dsimp only | split

theorem frm_spdmMeasurements {fm : Nat} {r0 : State} {tr : Nat} {req : List Byte} {s : State} (hk : Frm fm r0 s) :
    Frm fm r0 (spdmMeasurements tr req s) := by
  unfold spdmMeasurements
  repeat' first | intro _ | (with_reducible first | assumption | apply frm_spdmSend | apply frm_spdmSigned | apply frm_spdmError | apply Frm.ite | fail_if_no_progress apply Frm.rest) | dsimp only | split

end Sys2Proof.Laws
end

