-- ==== Sys2Proof/Laws/FrameMbx.lean ====
section
/-! SUPPORT. What the operations of `Machine/Mbx.lean` leave alone: one lemma each. -/
namespace Sys2Proof.Laws
open Sys2Proof Sys2Proof.Machine Sys2Proof.Safety
set_option linter.unreachableTactic false
set_option linter.unusedTactic false

theorem frm_mbxRefuse {fm : Nat} {r0 : State} {id : MbxId} {s : State} (hk : Frm fm r0 s) :
    Frm fm r0 (mbxRefuse id s) := by
  unfold mbxRefuse
  repeat' first | intro _ | (with_reducible first | assumption | apply frm_refuseWrite | apply frm_viFault | apply Frm.ite | fail_if_no_progress apply Frm.rest) | dsimp only | split

theorem frm_setMbx {fm : Nat} {r0 : State} {who : Owner2} {id : MbxId} {x : Mbx} {s : State} (hm : Sub 1024 fm) (hk : Frm fm r0 s) :
    Frm fm r0 (setMbx who id x s) := by
  unfold setMbx
  repeat' first | intro _ | (with_reducible first | assumption | apply Frm.ite | fail_if_no_progress apply Frm.rest | exact Sub.trans (b := 1024) rfl hm) | dsimp only | split | (with_reducible first | apply Frm.ch10)

theorem frm_mbxSelectWrite {fm : Nat} {r0 : State} {who : Owner2} {id : MbxId} {sel : Word} {s : State} (hm : Sub 1024 fm) (hk : Frm fm r0 s) :
    Frm fm r0 (mbxSelectWrite who id sel s) := by
  unfold mbxSelectWrite
  repeat' first | intro _ | (with_reducible first | assumption | apply frm_mbxRefuse | apply frm_setMbx | apply Frm.ite | fail_if_no_progress apply Frm.rest | exact Sub.trans (b := 1024) rfl hm) | dsimp only | split

theorem frm_mbxCaptureDone {fm : Nat} {r0 : State} {who : Owner2} {id : MbxId} {s : State} (hm : Sub 1024 fm) (hk : Frm fm r0 s) :
    Frm fm r0 (mbxCaptureDone who id s) := by
  unfold mbxCaptureDone
  repeat' first | intro _ | (with_reducible first | assumption | apply frm_raise | apply frm_checkEcc | apply frm_setMbx | apply Frm.ite | fail_if_no_progress apply Frm.rest | exact Sub.trans (b := 1024) rfl hm) | dsimp only | split

end Sys2Proof.Laws
end

