-- ==== Sys2Proof/Laws/FrameRegWrite.lean ====
section
/-! SUPPORT. What the operations of `Machine/RegWrite.lean` leave alone: one lemma each. -/
namespace Sys2Proof.Laws
open Sys2Proof Sys2Proof.Machine Sys2Proof.Safety
set_option linter.unreachableTactic false
set_option linter.unusedTactic false

theorem frm_ctrlWrite {fm : Nat} {r0 : State} {g u : Nat} {refused : Bool} {cmds : List (Bool × (State → State))} {s : State} (hk : Frm fm r0 s)
    (kc : FrmL fm r0 cmds) : Frm fm r0 (ctrlWrite g u refused cmds s) :=
  Frm.ite (frm_refuseWrite hk) (FrmL.run kc hk)

theorem frm_writeTimeCtrl {fm : Nat} {r0 : State} {v : Word} {s : State} (hm : Sub 32768 fm) (hk : Frm fm r0 s) :
    Frm fm r0 (writeTimeCtrl v s) := by
  unfold writeTimeCtrl
  repeat' first | intro _ | (with_reducible first | assumption | apply Frm.ite | fail_if_no_progress apply Frm.rest | exact Sub.trans (b := 32768) rfl hm) | dsimp only | split | (with_reducible first | apply Frm.ch15)

theorem frm_writeTree {fm : Nat} {r0 : State} {p : Nat} {v : Word} {s : State} (hk : Frm fm r0 s) :
    Frm fm r0 (writeTree p v s) := by
  unfold writeTree
  repeat' first | intro _ | (with_reducible first | assumption | apply frm_setPart | apply frm_refuseWrite | apply Frm.ite | fail_if_no_progress apply Frm.rest) | dsimp only | split

theorem frm_writePart {fm : Nat} {r0 : State} {p o : Nat} {v : Word} {s : State} (hk : Frm fm r0 s) :
    Frm fm r0 (writePart p o v s) := by
  unfold writePart
  repeat' first | intro _ | (with_reducible first | assumption | apply frm_setPart | apply frm_modPart | apply frm_refuseWrite | apply frm_partHold | apply frm_partRelease | apply frm_starterArm | apply frm_stepCounterArm | apply frm_ctrlWrite | apply frm_writeTree | apply Frm.ite | apply FrmL.nil | apply FrmL.cons | fail_if_no_progress apply Frm.rest) | dsimp only | split

theorem frm_writePrf {fm : Nat} {r0 : State} {o : Nat} {v : Word} {s : State} (hm : Sub 33280 fm) (hk : Frm fm r0 s) :
    Frm fm r0 (writePrf o v s) := by
  unfold writePrf
  repeat' first | intro _ | (with_reducible first | assumption | apply frm_writeTimeCtrl | apply frm_writePart | apply Frm.ite | fail_if_no_progress apply Frm.rest | exact Sub.trans (b := 33280) rfl hm) | dsimp only | split | (with_reducible first | apply Frm.ch9)

theorem frm_writeFab {fm : Nat} {r0 : State} {q o : Nat} {v : Word} {s : State} (hk : Frm fm r0 s) :
    Frm fm r0 (writeFab q o v s) := by
  unfold writeFab
  repeat' first | intro _ | (with_reducible first | assumption | apply frm_requestColFence | apply frm_requestColRemap | apply frm_ctrlWrite | apply Frm.ite | apply FrmL.nil | apply FrmL.cons | fail_if_no_progress apply Frm.rest) | dsimp only | split

theorem frm_writeXfe {fm : Nat} {r0 : State} {e o : Nat} {v : Word} {s : State} (hk : Frm fm r0 s) :
    Frm fm r0 (writeXfe e o v s) := by
  unfold writeXfe
  repeat' first | intro _ | (with_reducible first | assumption | apply frm_requestXfeFence | apply frm_requestXfeReadmit | apply frm_xfeAbort | apply frm_ctrlWrite | apply Frm.ite | apply FrmL.nil | apply FrmL.cons | fail_if_no_progress apply Frm.rest) | dsimp only | split

theorem frm_writeXlt {fm : Nat} {r0 : State} {who : Owner2} {o : Nat} {v : Word} {s : State} (hm : Sub 4098 fm) (hk : Frm fm r0 s) :
    Frm fm r0 (writeXlt who o v s) := by
  unfold writeXlt
  repeat' first | intro _ | (with_reducible first | assumption | apply frm_setReg | apply frm_hwtCommit | apply Frm.ite | fail_if_no_progress apply Frm.rest | exact Sub.trans (b := 4098) rfl hm) | dsimp only | split

theorem frm_writeSrm {fm : Nat} {r0 : State} {o : Nat} {v : Word} {s : State} (hk : Frm fm r0 s) :
    Frm fm r0 (writeSrm o v s) := by
  unfold writeSrm
  repeat' first | intro _ | (with_reducible first | assumption | apply frm_requestBankFence | apply frm_requestBankReadmit | apply frm_cohWinWrite | apply frm_ctrlWrite | apply Frm.ite | apply FrmL.nil | apply FrmL.cons | fail_if_no_progress apply Frm.rest) | dsimp only | split

theorem frm_writeMem {fm : Nat} {r0 : State} {m o : Nat} {v : Word} {s : State} (hm : Sub 4096 fm) (hk : Frm fm r0 s) :
    Frm fm r0 (writeMem m o v s) := by
  unfold writeMem
  repeat' first | intro _ | (with_reducible first | assumption | apply frm_setReg | apply frm_requestChanFence | apply frm_memChReadmit | apply frm_ctrlWrite | apply Frm.ite | apply FrmL.nil | apply FrmL.cons | fail_if_no_progress apply Frm.rest | exact Sub.trans (b := 4096) rfl hm) | dsimp only | split

theorem frm_putQos {fm : Nat} {r0 : State} {n : Nat} {f : Nat × Nat × Nat × Nat × Nat × Nat → Nat × Nat × Nat × Nat × Nat × Nat} {s : State} (hk : Frm fm r0 s) :
    Frm fm r0 (putQos n f s) := by
  unfold putQos
  repeat' first | intro _ | (with_reducible first | assumption | apply frm_putQosValues | apply Frm.ite | fail_if_no_progress apply Frm.rest) | dsimp only | split

theorem frm_writeQosPort {fm : Nat} {r0 : State} {n o : Nat} {v : Word} {s : State} (hk : Frm fm r0 s) :
    Frm fm r0 (writeQosPort n o v s) := by
  unfold writeQosPort
  repeat' first | intro _ | (with_reducible first | assumption | apply frm_refuseWrite | apply frm_putQos | apply Frm.ite | fail_if_no_progress apply Frm.rest) | dsimp only | split

theorem frm_writeQos {fm : Nat} {r0 : State} {o : Nat} {v : Word} {s : State} (hk : Frm fm r0 s) :
    Frm fm r0 (writeQos o v s) := by
  unfold writeQos
  repeat' first | intro _ | (with_reducible first | assumption | apply frm_putMiss | apply frm_writeQosPort | apply Frm.ite | fail_if_no_progress apply Frm.rest) | dsimp only | split

theorem frm_writeSit {fm : Nat} {r0 : State} {n o : Nat} {v : Word} {s : State} (hm : Sub 4096 fm) (hk : Frm fm r0 s) :
    Frm fm r0 (writeSit n o v s) := by
  unfold writeSit
  repeat' first | intro _ | (with_reducible first | assumption | apply frm_setReg | apply frm_sitFence | apply frm_sitReadmit | apply frm_sitRetrain | apply frm_sitVsetWrite | apply frm_ctrlWrite | apply Frm.ite | apply FrmL.nil | apply FrmL.cons | fail_if_no_progress apply Frm.rest | exact Sub.trans (b := 4096) rfl hm) | dsimp only | split

theorem frm_writeStl {fm : Nat} {r0 : State} {o : Nat} {v : Word} {s : State} (hm : Sub 4096 fm) (hk : Frm fm r0 s) :
    Frm fm r0 (writeStl o v s) := by
  unfold writeStl
  repeat' first | intro _ | (with_reducible first | assumption | apply frm_setReg | apply frm_retrain | apply frm_stlPortFence | apply frm_stlPortReadmit | apply frm_ctrlWrite | apply Frm.ite | apply FrmL.nil | apply FrmL.cons | fail_if_no_progress apply Frm.rest | exact Sub.trans (b := 4096) rfl hm) | dsimp only | split

theorem frm_writeCol {fm : Nat} {r0 : State} {o : Nat} {v : Word} {s : State} (hk : Frm fm r0 s) :
    Frm fm r0 (writeCol o v s) := by
  unfold writeCol
  repeat' first | intro _ | (with_reducible first | assumption | apply frm_requestCunitFence | apply frm_abortOp | apply frm_colReadmit | apply frm_ctrlWrite | apply Frm.ite | apply FrmL.nil | apply FrmL.cons | fail_if_no_progress apply Frm.rest) | dsimp only | split

theorem frm_writeHst {fm : Nat} {r0 : State} {o : Nat} {v : Word} {s : State} (hm : Sub 28674 fm) (hk : Frm fm r0 s) :
    Frm fm r0 (writeHst o v s) := by
  unfold writeHst
  repeat' first | intro _ | (with_reducible first | assumption | apply frm_setReg | apply frm_stopDma | apply frm_hstAttach | apply Frm.ite | fail_if_no_progress apply Frm.rest | exact Sub.trans (b := 28674) rfl hm) | dsimp only | split

theorem frm_writeVif {fm : Nat} {r0 : State} {o : Nat} {v : Word} {s : State} (hm : Sub 4096 fm) (hk : Frm fm r0 s) :
    Frm fm r0 (writeVif o v s) := by
  unfold writeVif
  repeat' first | intro _ | (with_reducible first | assumption | apply frm_setReg | apply frm_refuseWrite | apply frm_requestQuiesce | apply frm_vifDetach | apply frm_ctrlWrite | apply Frm.ite | apply FrmL.nil | apply FrmL.cons | fail_if_no_progress apply Frm.rest | exact Sub.trans (b := 4096) rfl hm) | dsimp only | split

theorem frm_writeSec {fm : Nat} {r0 : State} {o : Nat} {v : Word} {s : State} (hk : Frm fm r0 s) :
    Frm fm r0 (writeSec o v s) := by
  unfold writeSec
  repeat' first | intro _ | (with_reducible first | assumption | apply frm_endSession | apply frm_refuseWrite | apply Frm.ite | fail_if_no_progress apply Frm.rest) | dsimp only | split

theorem frm_writeDbg {fm : Nat} {r0 : State} {o : Nat} {v : Word} {s : State} (hm : Sub 64 fm) (hk : Frm fm r0 s) :
    Frm fm r0 (writeDbg o v s) := by
  unfold writeDbg
  repeat' first | intro _ | (with_reducible first | assumption | apply frm_closeDebug | apply Frm.ite | fail_if_no_progress apply Frm.rest | exact Sub.trans (b := 64) rfl hm) | dsimp only | split

theorem frm_writeShare {fm : Nat} {r0 : State} {p : Nat} {v : Word} {s : State} (hk : Frm fm r0 s) :
    Frm fm r0 (writeShare p v s) := by
  unfold writeShare
  repeat' first | intro _ | (with_reducible first | assumption | apply Frm.ite | apply Frm.foldl | apply Frm.foldl2 | apply Frm.foldl3 | fail_if_no_progress apply Frm.rest) | dsimp only | split

theorem frm_writePwr {fm : Nat} {r0 : State} {o : Nat} {v : Word} {s : State} (hk : Frm fm r0 s) :
    Frm fm r0 (writePwr o v s) := by
  unfold writePwr
  repeat' first | intro _ | (with_reducible first | assumption | apply frm_refuseWrite | apply frm_holdFclk | apply frm_writeShare | apply Frm.ite | fail_if_no_progress apply Frm.rest) | dsimp only | split

theorem frm_writeThm {fm : Nat} {r0 : State} {o : Nat} {v : Word} {s : State} (hm : Sub 128 fm) (hk : Frm fm r0 s) :
    Frm fm r0 (writeThm o v s) := by
  unfold writeThm
  repeat' first | intro _ | (with_reducible first | assumption | apply Frm.ite | fail_if_no_progress apply Frm.rest | exact Sub.trans (b := 128) rfl hm) | dsimp only | split | (with_reducible first | apply Frm.ch7)

theorem frm_writeFlt {fm : Nat} {r0 : State} {o : Nat} {v : Word} {s : State} (hk : Frm fm r0 s) :
    Frm fm r0 (writeFlt o v s) := by
  unfold writeFlt
  repeat' first | intro _ | (with_reducible first | assumption | apply frm_setThreshold | apply Frm.ite | fail_if_no_progress apply Frm.rest) | dsimp only | split

theorem frm_writeGroup {fm : Nat} {r0 : State} {g o : Nat} {v : Word} {s : State} (hk : Frm fm r0 s) :
    Frm fm r0 (writeGroup g o v s) := by
  unfold writeGroup
  repeat' first | intro _ | (with_reducible first | assumption | apply frm_setGrp | apply frm_ackBits | apply frm_clearBits | apply frm_faultMaskWrite | apply frm_faultActionWrite | apply frm_faultInjectArm | apply Frm.ite | fail_if_no_progress apply Frm.rest) | dsimp only | split

theorem frm_setInd {fm : Nat} {r0 : State} {who : Owner2} {i : Ind} {s : State} (hm : Sub 2048 fm) (hk : Frm fm r0 s) :
    Frm fm r0 (setInd who i s) := by
  unfold setInd
  repeat' first | intro _ | (with_reducible first | assumption | apply Frm.ite | fail_if_no_progress apply Frm.rest | exact Sub.trans (b := 2048) rfl hm) | dsimp only | split | (with_reducible first | apply Frm.ch11)

theorem frm_writeIndAddr {fm : Nat} {r0 : State} {who : Owner2} {v : Word} {s : State} (hm : Sub 2048 fm) (hk : Frm fm r0 s) :
    Frm fm r0 (writeIndAddr who v s) := by
  unfold writeIndAddr
  repeat' first | intro _ | (with_reducible first | assumption | apply frm_setInd | apply Frm.ite | fail_if_no_progress apply Frm.rest | exact Sub.trans (b := 2048) rfl hm) | dsimp only | split

theorem frm_mailboxGo {fm : Nat} {r0 : State} {op : Nat} {tag : BitVec 8} {s : State} (hm : Sub 262143 fm) (hk : Frm fm r0 s) :
    Frm fm r0 (mailboxGo op tag s) := by
  unfold mailboxGo
  repeat' first | intro _ | (with_reducible first | assumption | apply frm_mbEnd | apply frm_mbCommand | apply frm_mapDevice | apply frm_unmapDevice | apply frm_loadImage | apply frm_writeBootImage | apply frm_readReport | apply frm_peelCancel | apply frm_advanceRollback | apply frm_retryStart | apply frm_recoveryBegin | apply frm_recoveryRun | apply Frm.ite | fail_if_no_progress apply Frm.rest | exact Sub.trans (b := 262143) rfl hm) | dsimp only | split | (with_reducible first | apply Frm.ch16)

theorem frm_writeMgt {fm : Nat} {r0 : State} {who : Owner2} {o : Nat} {v : Word} {s : State} (hm : Sub 262143 fm) (hk : Frm fm r0 s) :
    Frm fm r0 (writeMgt who o v s) := by
  unfold writeMgt
  repeat' first | intro _ | (with_reducible first | assumption | apply frm_rcvDataWrite | apply frm_writeIndAddr | apply frm_mailboxGo | apply Frm.ite | fail_if_no_progress apply Frm.rest | exact Sub.trans (b := 262143) rfl hm) | dsimp only | split | (with_reducible first | apply Frm.ch14)

theorem frm_writeTrc {fm : Nat} {r0 : State} {o : Nat} {v : Word} {s : State} (hk : Frm fm r0 s) :
    Frm fm r0 (writeTrc o v s) := by
  unfold writeTrc
  repeat' first | intro _ | (with_reducible first | assumption | apply Frm.ite | fail_if_no_progress apply Frm.rest) | dsimp only | split

theorem frm_writeBar0 {fm : Nat} {r0 : State} {who : Owner2} {a : Nat} {v : Word} {s : State} (hm : Sub 262143 fm) (hk : Frm fm r0 s) :
    Frm fm r0 (writeBar0 who a v s) := by
  unfold writeBar0
  repeat' first | intro _ | (with_reducible first | assumption | apply frm_refuseWrite | apply frm_mbxSelectWrite | apply frm_writePrf | apply frm_writeFab | apply frm_writeXfe | apply frm_writeXlt | apply frm_writeSrm | apply frm_writeMem | apply frm_writeQos | apply frm_writeSit | apply frm_writeStl | apply frm_writeCol | apply frm_writeHst | apply frm_writeVif | apply frm_writeSec | apply frm_writeDbg | apply frm_writePwr | apply frm_writeThm | apply frm_writeFlt | apply frm_writeGroup | apply frm_writeMgt | apply frm_writeTrc | apply Frm.ite | fail_if_no_progress apply Frm.rest | exact Sub.trans (b := 262143) rfl hm) | dsimp only | split

theorem frm_putSealBytes {fm : Nat} {r0 : State} {v o : Nat} {val : Word} {s : State} (hk : Frm fm r0 s) :
    Frm fm r0 (putSealBytes v o val s) := by
  unfold putSealBytes
  repeat' first | intro _ | (with_reducible first | assumption | apply frm_setSeal | apply frm_viFault | apply Frm.ite | fail_if_no_progress apply Frm.rest) | dsimp only | split

theorem frm_writeRing {fm : Nat} {r0 : State} {v o : Nat} {val : Word} {s : State} (hk : Frm fm r0 s) :
    Frm fm r0 (writeRing v o val s) := by
  unfold writeRing
  repeat' first | intro _ | (with_reducible first | assumption | apply frm_setVi | apply frm_viFault | apply Frm.ite | fail_if_no_progress apply Frm.rest) | dsimp only | split

theorem frm_writeBar2 {fm : Nat} {r0 : State} {v o : Nat} {val : Word} {s : State} (hm : Sub 1024 fm) (hk : Frm fm r0 s) :
    Frm fm r0 (writeBar2 v o val s) := by
  unfold writeBar2
  repeat' first | intro _ | (with_reducible first | assumption | apply frm_setVi | apply frm_setSeal | apply frm_endSession | apply frm_viFault | apply frm_deliverHeld | apply frm_vifAttach | apply frm_vifDetach | apply frm_vifLease | apply frm_sealOpenStart | apply frm_mbxSelectWrite | apply frm_putSealBytes | apply frm_writeRing | apply Frm.ite | fail_if_no_progress apply Frm.rest | exact Sub.trans (b := 1024) rfl hm) | dsimp only | split

end Sys2Proof.Laws
end

