-- ==== Sys2Proof/Laws/FrameRegs.lean ====
section
/-! SUPPORT. What the operations of `Machine/Regs.lean` leave alone: one lemma each. -/
namespace Sys2Proof.Laws
open Sys2Proof Sys2Proof.Machine Sys2Proof.Safety
set_option linter.unreachableTactic false
set_option linter.unusedTactic false

theorem frm_clearRc {fm : Nat} {r0 : State} {a : Nat} {s : State} (hk : Frm fm r0 s) :
    Frm fm r0 (clearRc a s) := by
  unfold clearRc
  repeat' first | intro _ | (with_reducible first | assumption | apply frm_modPart | apply frm_setCol | apply frm_setQuad | apply frm_setXfe | apply frm_setBank | apply frm_setChan | apply frm_modSite | apply frm_setPort | apply frm_setCunit | apply frm_setQport | apply Frm.ite | fail_if_no_progress apply Frm.rest) | dsimp only | split

theorem frm_indStore {fm : Nat} {r0 : State} {a : Nat} {v : Word} {s : State} (hm : Sub 2048 fm) (hk : Frm fm r0 s) :
    Frm fm r0 (indStore a v s) := by
  unfold indStore
  repeat' first | intro _ | (with_reducible first | assumption | apply Frm.ite | fail_if_no_progress apply Frm.rest | exact Sub.trans (b := 2048) rfl hm) | dsimp only | split | (with_reducible first | apply Frm.ch11)

theorem frm_indWrite {fm : Nat} {r0 : State} {a : Nat} {v : Word} {s : State} (hm : Sub 2048 fm) (hk : Frm fm r0 s) :
    Frm fm r0 (indWrite a v s) := by
  unfold indWrite
  repeat' first | intro _ | (with_reducible first | assumption | apply frm_setCell | apply frm_indStore | apply Frm.ite | fail_if_no_progress apply Frm.rest | exact Sub.trans (b := 2048) rfl hm) | dsimp only | split

theorem frm_indAccess {fm : Nat} {r0 : State} {who : Owner2} {write : Bool} {v : Word} {s : State} (hm : Sub 2048 fm) (hk : Frm fm r0 s) :
    Frm fm r0 (indAccess who write v s) := by
  unfold indAccess
  repeat' first | intro _ | (with_reducible first | assumption | apply frm_setInd | apply frm_indWrite | apply Frm.ite | fail_if_no_progress apply Frm.rest | exact Sub.trans (b := 2048) rfl hm) | dsimp only | split

theorem frm_indDataAccess {fm : Nat} {r0 : State} {who : Owner2} {write : Bool} {v : Word} {s : State} (hm : Sub 2048 fm) (hk : Frm fm r0 s) :
    Frm fm r0 (indDataAccess who write v s) := by
  unfold indDataAccess
  repeat' first | intro _ | (with_reducible first | assumption | apply frm_spend | apply frm_emit | apply frm_indAccess | apply Frm.ite | fail_if_no_progress apply Frm.rest | exact Sub.trans (b := 2048) rfl hm) | dsimp only | split

theorem frm_readReg {fm : Nat} {r0 : State} {path : RegPath} {a : Nat} {s : State} (hm : Sub 2048 fm) (hk : Frm fm r0 s) :
    Frm fm r0 (readReg path a s) := by
  unfold readReg
  repeat' first | intro _ | (with_reducible first | assumption | apply frm_spend | apply frm_emit | apply frm_clearRc | apply frm_indAccess | apply Frm.ite | fail_if_no_progress apply Frm.rest | exact Sub.trans (b := 2048) rfl hm) | dsimp only | split

theorem frm_readTimeout {fm : Nat} {r0 : State} {path : RegPath} {a : Nat} {s : State} (hk : Frm fm r0 s) :
    Frm fm r0 (readTimeout path a s) := by
  unfold readTimeout
  repeat' first | intro _ | (with_reducible first | assumption | apply frm_emit | apply frm_raise | apply Frm.ite | fail_if_no_progress apply Frm.rest) | dsimp only | split

theorem frm_readWord {fm : Nat} {r0 : State} {path : RegPath} {a : Nat} {s : State} (hm : Sub 2048 fm) (hk : Frm fm r0 s) :
    Frm fm r0 (readWord path a s) := by
  unfold readWord
  repeat' first | intro _ | (with_reducible first | assumption | apply frm_readReg | apply frm_readTimeout | apply Frm.ite | fail_if_no_progress apply Frm.rest | exact Sub.trans (b := 2048) rfl hm) | dsimp only | split

theorem frm_writeReg {fm : Nat} {r0 : State} {path : RegPath} {a : Nat} {v : Word} {be : Nat} {s : State} (hm : Sub 262143 fm) (hk : Frm fm r0 s) :
    Frm fm r0 (writeReg path a v be s) := by
  unfold writeReg
  repeat' first | intro _ | (with_reducible first | assumption | apply frm_writeBar0 | apply frm_writeBar2 | apply frm_indAccess | apply Frm.ite | fail_if_no_progress apply Frm.rest | exact Sub.trans (b := 262143) rfl hm) | dsimp only | split

theorem frm_regWrite {fm : Nat} {r0 : State} {path : RegPath} {addr : Nat} {val : BitVec 64} {be : BitVec 8} {wide : Bool} {s : State} (hm : Sub 262143 fm) (hk : Frm fm r0 s) :
    Frm fm r0 (regWrite path addr val be wide s) := by
  unfold regWrite
  repeat' first | intro _ | (with_reducible first | assumption | apply frm_writeReg | apply Frm.ite | fail_if_no_progress apply Frm.rest | exact Sub.trans (b := 262143) rfl hm) | dsimp only | split

end Sys2Proof.Laws
end

