-- ==== Sys2Proof/Laws/FrameCmd.lean ====
section
/-! SUPPORT. What every command leaves alone: one lemma per command, with the mask of the areas it may change. -/
namespace Sys2Proof.Laws
open Sys2Proof Sys2Proof.Machine Sys2Proof.Safety
set_option linter.unreachableTactic false
set_option linter.unusedTactic false

theorem frm_execFaultDetect {g : Fin 29} {bit : Fin 32} {unit : Nat} {s z : State} (h : execFaultDetect g bit unit s = .next z) : Frm 0 s z := by
  unfold execFaultDetect at h
  injection h with h
  subst h
  have hk := Frm.refl 0 s
  repeat' first | intro _ | (with_reducible first | assumption | apply frm_faultDetect | apply Frm.ite | fail_if_no_progress apply Frm.rest) | dsimp only | split

theorem frm_execGraceExpiry {g : Fin 29} {s z : State} (h : execGraceExpiry g s = .next z) : Frm 0 s z := by
  unfold execGraceExpiry at h
  injection h with h
  subst h
  have hk := Frm.refl 0 s
  repeat' first | intro _ | (with_reducible first | assumption | apply frm_graceExpiry | apply Frm.ite | fail_if_no_progress apply Frm.rest) | dsimp only | split

theorem frm_execFaultStatusClear {g : Fin 29} {val : Word} {s z : State} (h : execFaultStatusClear g val s = .next z) : Frm 0 s z := by
  unfold execFaultStatusClear at h
  injection h with h
  subst h
  have hk := Frm.refl 0 s
  repeat' first | intro _ | (with_reducible first | assumption | apply frm_clearBits | apply Frm.ite | fail_if_no_progress apply Frm.rest) | dsimp only | split

theorem frm_execFaultAck {g : Fin 29} {val : Word} {s z : State} (h : execFaultAck g val s = .next z) : Frm 0 s z := by
  unfold execFaultAck at h
  injection h with h
  subst h
  have hk := Frm.refl 0 s
  repeat' first | intro _ | (with_reducible first | assumption | apply frm_ackBits | apply Frm.ite | fail_if_no_progress apply Frm.rest) | dsimp only | split

theorem frm_execFaultMaskWrite {g : Fin 29} {val : Word} {s z : State} (h : execFaultMaskWrite g val s = .next z) : Frm 0 s z := by
  unfold execFaultMaskWrite at h
  injection h with h
  subst h
  have hk := Frm.refl 0 s
  repeat' first | intro _ | (with_reducible first | assumption | apply frm_refuseWrite | apply frm_faultMaskWrite | apply Frm.ite | fail_if_no_progress apply Frm.rest) | dsimp only | split

theorem frm_execFaultActionWrite {g : Fin 29} {val : Word} {s z : State} (h : execFaultActionWrite g val s = .next z) : Frm 0 s z := by
  unfold execFaultActionWrite at h
  injection h with h
  subst h
  have hk := Frm.refl 0 s
  repeat' first | intro _ | (with_reducible first | assumption | apply frm_refuseWrite | apply frm_faultActionWrite | apply Frm.ite | fail_if_no_progress apply Frm.rest) | dsimp only | split

theorem frm_execFaultInjectArm {g : Fin 29} {val : Word} {s z : State} (h : execFaultInjectArm g val s = .next z) : Frm 0 s z := by
  unfold execFaultInjectArm at h
  injection h with h
  subst h
  have hk := Frm.refl 0 s
  repeat' first | intro _ | (with_reducible first | assumption | apply frm_refuseWrite | apply frm_faultInjectArm | apply Frm.ite | fail_if_no_progress apply Frm.rest) | dsimp only | split

theorem frm_execFaultSignal {g : Fin 29} {bit : Fin 32} {s z : State} (h : execFaultSignal g bit s = .next z) : Frm 0 s z := by
  unfold execFaultSignal at h
  injection h with h
  subst h
  have hk := Frm.refl 0 s
  repeat' first | intro _ | (with_reducible first | assumption | apply frm_faultSignal | apply Frm.ite | fail_if_no_progress apply Frm.rest) | dsimp only | split

theorem frm_execErrnHeartbeat {s z : State} (h : execErrnHeartbeat s = .next z) : Frm 0 s z := by
  unfold execErrnHeartbeat at h
  injection h with h
  subst h
  have hk := Frm.refl 0 s
  repeat' first | intro _ | (with_reducible first | assumption | apply frm_errnHeartbeat | apply Frm.ite | fail_if_no_progress apply Frm.rest) | dsimp only | split

theorem frm_execStepRelease {p : Fin 64} {s z : State} (h : execStepRelease p s = .next z) : Frm 1 s z := by
  unfold execStepRelease at h
  injection h with h
  subst h
  have hk := Frm.refl 1 s
  have hm : Sub 1 1 := rfl
  repeat' first | intro _ | (with_reducible first | assumption | apply frm_refresh | apply frm_releaseNow | apply Frm.ite | fail_if_no_progress apply Frm.rest | exact Sub.trans (b := 1) rfl hm) | dsimp only | split

theorem frm_execLocalRelease {p : Fin 64} {s z : State} (h : execLocalRelease p s = .next z) : Frm 1 s z := by
  unfold execLocalRelease at h
  injection h with h
  subst h
  have hk := Frm.refl 1 s
  have hm : Sub 1 1 := rfl
  repeat' first | intro _ | (with_reducible first | assumption | apply frm_localRelease | apply Frm.ite | fail_if_no_progress apply Frm.rest | exact Sub.trans (b := 1) rfl hm) | dsimp only | split

theorem frm_execBudgetEnd {p : Fin 64} {s z : State} (h : execBudgetEnd p s = .next z) : Frm 1 s z := by
  unfold execBudgetEnd at h
  injection h with h
  subst h
  have hk := Frm.refl 1 s
  have hm : Sub 1 1 := rfl
  repeat' first | intro _ | (with_reducible first | assumption | apply frm_budgetEnd | apply Frm.ite | fail_if_no_progress apply Frm.rest | exact Sub.trans (b := 1) rfl hm) | dsimp only | split

theorem frm_execLocalArrival {p : Fin 64} {s z : State} (h : execLocalArrival p s = .next z) : Frm 1 s z := by
  unfold execLocalArrival at h
  injection h with h
  subst h
  have hk := Frm.refl 1 s
  have hm : Sub 1 1 := rfl
  repeat' first | intro _ | (with_reducible first | assumption | apply frm_refresh | apply frm_localArrival | apply Frm.ite | fail_if_no_progress apply Frm.rest | exact Sub.trans (b := 1) rfl hm) | dsimp only | split

theorem frm_execXfeDescArrive {e : Fin 64} {s z : State} (h : execXfeDescArrive e s = .next z) : Frm 0 s z := by
  unfold execXfeDescArrive at h
  injection h with h
  subst h
  have hk := Frm.refl 0 s
  repeat' first | intro _ | (with_reducible first | assumption | apply frm_xfeDescArrive | apply Frm.ite | fail_if_no_progress apply Frm.rest) | dsimp only | split

theorem frm_execXfeWaitSatisfied {e : Fin 64} {s z : State} (h : execXfeWaitSatisfied e s = .next z) : Frm 0 s z := by
  unfold execXfeWaitSatisfied at h
  injection h with h
  subst h
  have hk := Frm.refl 0 s
  repeat' first | intro _ | (with_reducible first | assumption | apply frm_xfeWaitSatisfied | apply Frm.ite | fail_if_no_progress apply Frm.rest) | dsimp only | split

theorem frm_execXfeComplete {e : Fin 64} {s z : State} (h : execXfeComplete e s = .next z) : Frm 1 s z := by
  unfold execXfeComplete at h
  injection h with h
  subst h
  have hk := Frm.refl 1 s
  have hm : Sub 1 1 := rfl
  repeat' first | intro _ | (with_reducible first | assumption | apply frm_refresh | apply frm_xfeComplete | apply Frm.ite | fail_if_no_progress apply Frm.rest | exact Sub.trans (b := 1) rfl hm) | dsimp only | split

theorem frm_execXfeAbort {e : Fin 64} {s z : State} (h : execXfeAbort e s = .next z) : Frm 0 s z := by
  unfold execXfeAbort at h
  injection h with h
  subst h
  have hk := Frm.refl 0 s
  repeat' first | intro _ | (with_reducible first | assumption | apply frm_xfeAbort | apply Frm.ite | fail_if_no_progress apply Frm.rest) | dsimp only | split

theorem frm_execXfeFence {e : Fin 64} {s z : State} (h : execXfeFence e s = .next z) : Frm 0 s z := by
  unfold execXfeFence at h
  injection h with h
  subst h
  have hk := Frm.refl 0 s
  repeat' first | intro _ | (with_reducible first | assumption | apply frm_requestXfeFence | apply Frm.ite | fail_if_no_progress apply Frm.rest) | dsimp only | split

theorem frm_execXfeReadmit {e : Fin 64} {s z : State} (h : execXfeReadmit e s = .next z) : Frm 0 s z := by
  unfold execXfeReadmit at h
  injection h with h
  subst h
  have hk := Frm.refl 0 s
  repeat' first | intro _ | (with_reducible first | assumption | apply frm_xfeReadmit | apply Frm.ite | fail_if_no_progress apply Frm.rest) | dsimp only | split

theorem frm_execHwtCommit {who : Owner2} {s z : State} (h : execHwtCommit who s = .next z) : Frm 2 s z := by
  unfold execHwtCommit at h
  injection h with h
  subst h
  have hk := Frm.refl 2 s
  have hm : Sub 2 2 := rfl
  repeat' first | intro _ | (with_reducible first | assumption | apply frm_hwtCommit | apply Frm.ite | fail_if_no_progress apply Frm.rest | exact Sub.trans (b := 2) rfl hm) | dsimp only | split

theorem frm_execHwtCommitDrained {s z : State} (h : execHwtCommitDrained s = .next z) : Frm 2 s z := by
  unfold execHwtCommitDrained at h
  injection h with h
  subst h
  have hk := Frm.refl 2 s
  have hm : Sub 2 2 := rfl
  repeat' first | intro _ | (with_reducible first | assumption | apply frm_hwtCommitDrained | apply Frm.ite | fail_if_no_progress apply Frm.rest | exact Sub.trans (b := 2) rfl hm) | dsimp only | split

theorem frm_execAtsInvalidate {itag : Fin 32} {iova : BitVec 64} {size : Nat} {s z : State} (h : execAtsInvalidate itag iova size s = .next z) : Frm 0 s z := by
  unfold execAtsInvalidate at h
  injection h with h
  subst h
  have hk := Frm.refl 0 s
  repeat' first | intro _ | (with_reducible first | assumption | apply frm_atsInvalidate | apply Frm.ite | fail_if_no_progress apply Frm.rest) | dsimp only | split

theorem frm_execInvalidateCompletion {itag : Fin 32} {s z : State} (h : execInvalidateCompletion itag s = .next z) : Frm 0 s z := by
  unfold execInvalidateCompletion at h
  injection h with h
  subst h
  have hk := Frm.refl 0 s
  repeat' first | intro _ | (with_reducible first | assumption | apply frm_invalidateCompletion | apply Frm.ite | fail_if_no_progress apply Frm.rest) | dsimp only | split

theorem frm_execAtsEnable {on : Bool} {s z : State} (h : execAtsEnable on s = .next z) : Frm 0 s z := by
  unfold execAtsEnable at h
  injection h with h
  subst h
  have hk := Frm.refl 0 s
  repeat' first | intro _ | (with_reducible first | assumption | apply frm_atsEnable | apply Frm.ite | fail_if_no_progress apply Frm.rest) | dsimp only | split

theorem frm_execPriEnable {on : Bool} {alloc : BitVec 16} {s z : State} (h : execPriEnable on alloc s = .next z) : Frm 0 s z := by
  unfold execPriEnable at h
  injection h with h
  subst h
  have hk := Frm.refl 0 s
  repeat' first | intro _ | (with_reducible first | assumption | apply frm_priEnable | apply Frm.ite | fail_if_no_progress apply Frm.rest) | dsimp only | split

theorem frm_execColWaitSatisfied {c : Fin 8} {s z : State} (h : execColWaitSatisfied c s = .next z) : Frm 0 s z := by
  unfold execColWaitSatisfied at h
  injection h with h
  subst h
  have hk := Frm.refl 0 s
  repeat' first | intro _ | (with_reducible first | assumption | apply frm_refresh | apply frm_colWaitSatisfied | apply Frm.ite | fail_if_no_progress apply Frm.rest) | dsimp only | split

theorem frm_execColOpComplete {c : Fin 8} {s z : State} (h : execColOpComplete c s = .next z) : Frm 1 s z := by
  unfold execColOpComplete at h
  injection h with h
  subst h
  have hk := Frm.refl 1 s
  have hm : Sub 1 1 := rfl
  repeat' first | intro _ | (with_reducible first | assumption | apply frm_refresh | apply frm_colOpComplete | apply Frm.ite | fail_if_no_progress apply Frm.rest | exact Sub.trans (b := 1) rfl hm) | dsimp only | split

theorem frm_execColAbort {c : Fin 8} {s z : State} (h : execColAbort c s = .next z) : Frm 0 s z := by
  unfold execColAbort at h
  injection h with h
  subst h
  have hk := Frm.refl 0 s
  repeat' first | intro _ | (with_reducible first | assumption | apply frm_abortOp | apply Frm.ite | fail_if_no_progress apply Frm.rest) | dsimp only | split

theorem frm_execColFence {c : Fin 8} {s z : State} (h : execColFence c s = .next z) : Frm 0 s z := by
  unfold execColFence at h
  injection h with h
  subst h
  have hk := Frm.refl 0 s
  repeat' first | intro _ | (with_reducible first | assumption | apply frm_requestCunitFence | apply Frm.ite | fail_if_no_progress apply Frm.rest) | dsimp only | split

theorem frm_execColReadmit {c : Fin 8} {s z : State} (h : execColReadmit c s = .next z) : Frm 0 s z := by
  unfold execColReadmit at h
  injection h with h
  subst h
  have hk := Frm.refl 0 s
  repeat' first | intro _ | (with_reducible first | assumption | apply frm_colReadmit | apply Frm.ite | fail_if_no_progress apply Frm.rest) | dsimp only | split

theorem frm_execSiteAdmissionStart {n : Fin 18} {strapT strapC : BitVec 6} {s z : State} (h : execSiteAdmissionStart n strapT strapC s = .next z) : Frm 0 s z := by
  unfold execSiteAdmissionStart at h
  injection h with h
  subst h
  have hk := Frm.refl 0 s
  repeat' first | intro _ | (with_reducible first | assumption | apply frm_siteAdmissionStart | apply Frm.ite | fail_if_no_progress apply Frm.rest) | dsimp only | split

theorem frm_execSiteCoreRegulated {n : Fin 18} {s z : State} (h : execSiteCoreRegulated n s = .next z) : Frm 0 s z := by
  unfold execSiteCoreRegulated at h
  injection h with h
  subst h
  have hk := Frm.refl 0 s
  repeat' first | intro _ | (with_reducible first | assumption | apply frm_siteCoreRegulated | apply Frm.ite | fail_if_no_progress apply Frm.rest) | dsimp only | split

theorem frm_execSiteRailsTimeout {n : Fin 18} {s z : State} (h : execSiteRailsTimeout n s = .next z) : Frm 0 s z := by
  unfold execSiteRailsTimeout at h
  injection h with h
  subst h
  have hk := Frm.refl 0 s
  repeat' first | intro _ | (with_reducible first | assumption | apply frm_siteRailsTimeout | apply Frm.ite | fail_if_no_progress apply Frm.rest) | dsimp only | split

theorem frm_execSidebandDetected {n : Fin 18} {cxlCompute : Option Bool} {s z : State} (h : execSidebandDetected n cxlCompute s = .next z) : Frm 0 s z := by
  unfold execSidebandDetected at h
  injection h with h
  subst h
  have hk := Frm.refl 0 s
  repeat' first | intro _ | (with_reducible first | assumption | apply frm_sidebandDetected | apply Frm.ite | fail_if_no_progress apply Frm.rest) | dsimp only | split

theorem frm_execSidebandTimeout {n : Fin 18} {s z : State} (h : execSidebandTimeout n s = .next z) : Frm 0 s z := by
  unfold execSidebandTimeout at h
  injection h with h
  subst h
  have hk := Frm.refl 0 s
  repeat' first | intro _ | (with_reducible first | assumption | apply frm_sidebandTimeout | apply Frm.ite | fail_if_no_progress apply Frm.rest) | dsimp only | split

theorem frm_execSiteTrainingDone {n : Fin 18} {modules : Nat} {repaired : List (Nat × Nat)} {disabled : List Nat} {bothHalves : Bool} {s z : State} (h : execSiteTrainingDone n modules repaired disabled bothHalves s = .next z) : Frm 16 s z := by
  unfold execSiteTrainingDone at h
  injection h with h
  subst h
  have hk := Frm.refl 16 s
  have hm : Sub 16 16 := rfl
  repeat' first | intro _ | (with_reducible first | assumption | apply frm_siteTrainingDone | apply Frm.ite | fail_if_no_progress apply Frm.rest | exact Sub.trans (b := 16) rfl hm) | dsimp only | split

theorem frm_execNegotiateTimeout {n : Fin 18} {s z : State} (h : execNegotiateTimeout n s = .next z) : Frm 0 s z := by
  unfold execNegotiateTimeout at h
  injection h with h
  subst h
  have hk := Frm.refl 0 s
  repeat' first | intro _ | (with_reducible first | assumption | apply frm_negotiateTimeout | apply Frm.ite | fail_if_no_progress apply Frm.rest) | dsimp only | split

theorem frm_execAttestComplete {n : Fin 18} {a : AttestIn} {s z : State} (h : execAttestComplete n a s = .next z) : Frm 0 s z := by
  unfold execAttestComplete at h
  injection h with h
  subst h
  have hk := Frm.refl 0 s
  repeat' first | intro _ | (with_reducible first | assumption | apply frm_refresh | apply frm_attestComplete | apply Frm.ite | fail_if_no_progress apply Frm.rest) | dsimp only | split

theorem frm_execAttestTimeout {n : Fin 18} {s z : State} (h : execAttestTimeout n s = .next z) : Frm 0 s z := by
  unfold execAttestTimeout at h
  injection h with h
  subst h
  have hk := Frm.refl 0 s
  repeat' first | intro _ | (with_reducible first | assumption | apply frm_attestTimeout | apply Frm.ite | fail_if_no_progress apply Frm.rest) | dsimp only | split

theorem frm_execCrustLoaded {n : Fin 18} {s z : State} (h : execCrustLoaded n s = .next z) : Frm 0 s z := by
  unfold execCrustLoaded at h
  injection h with h
  subst h
  have hk := Frm.refl 0 s
  repeat' first | intro _ | (with_reducible first | assumption | apply frm_crustLoaded | apply Frm.ite | fail_if_no_progress apply Frm.rest) | dsimp only | split

theorem frm_execConfigTimeout {n : Fin 18} {s z : State} (h : execConfigTimeout n s = .next z) : Frm 0 s z := by
  unfold execConfigTimeout at h
  injection h with h
  subst h
  have hk := Frm.refl 0 s
  repeat' first | intro _ | (with_reducible first | assumption | apply frm_configTimeout | apply Frm.ite | fail_if_no_progress apply Frm.rest) | dsimp only | split

theorem frm_execSiteLinkError {n : Fin 18} {s z : State} (h : execSiteLinkError n s = .next z) : Frm 0 s z := by
  unfold execSiteLinkError at h
  injection h with h
  subst h
  have hk := Frm.refl 0 s
  repeat' first | intro _ | (with_reducible first | assumption | apply frm_retrainSite | apply Frm.ite | fail_if_no_progress apply Frm.rest) | dsimp only | split

theorem frm_execSiteRetrainDone {n : Fin 18} {modules : Nat} {repaired : List (Nat × Nat)} {s z : State} (h : execSiteRetrainDone n modules repaired s = .next z) : Frm 16 s z := by
  unfold execSiteRetrainDone at h
  injection h with h
  subst h
  have hk := Frm.refl 16 s
  have hm : Sub 16 16 := rfl
  repeat' first | intro _ | (with_reducible first | assumption | apply frm_siteRetrainDone | apply Frm.ite | fail_if_no_progress apply Frm.rest | exact Sub.trans (b := 16) rfl hm) | dsimp only | split

theorem frm_execSiteRetrainTimeout {n : Fin 18} {s z : State} (h : execSiteRetrainTimeout n s = .next z) : Frm 0 s z := by
  unfold execSiteRetrainTimeout at h
  injection h with h
  subst h
  have hk := Frm.refl 0 s
  repeat' first | intro _ | (with_reducible first | assumption | apply frm_siteRetrainTimeout | apply Frm.ite | fail_if_no_progress apply Frm.rest) | dsimp only | split

theorem frm_execSiteRailShort {n : Fin 18} {s z : State} (h : execSiteRailShort n s = .next z) : Frm 0 s z := by
  unfold execSiteRailShort at h
  injection h with h
  subst h
  have hk := Frm.refl 0 s
  repeat' first | intro _ | (with_reducible first | assumption | apply frm_siteRailShort | apply Frm.ite | fail_if_no_progress apply Frm.rest) | dsimp only | split

theorem frm_execSitFence {n : Fin 18} {s z : State} (h : execSitFence n s = .next z) : Frm 0 s z := by
  unfold execSitFence at h
  injection h with h
  subst h
  have hk := Frm.refl 0 s
  repeat' first | intro _ | (with_reducible first | assumption | apply frm_sitFence | apply Frm.ite | fail_if_no_progress apply Frm.rest) | dsimp only | split

theorem frm_execSitReadmit {n : Fin 18} {s z : State} (h : execSitReadmit n s = .next z) : Frm 0 s z := by
  unfold execSitReadmit at h
  injection h with h
  subst h
  have hk := Frm.refl 0 s
  repeat' first | intro _ | (with_reducible first | assumption | apply frm_sitReadmit | apply Frm.ite | fail_if_no_progress apply Frm.rest) | dsimp only | split

theorem frm_execSitRetrain {n : Fin 18} {s z : State} (h : execSitRetrain n s = .next z) : Frm 0 s z := by
  unfold execSitRetrain at h
  injection h with h
  subst h
  have hk := Frm.refl 0 s
  repeat' first | intro _ | (with_reducible first | assumption | apply frm_sitRetrain | apply Frm.ite | fail_if_no_progress apply Frm.rest) | dsimp only | split

theorem frm_execSitVsetWrite {n : Fin 18} {val : Word} {s z : State} (h : execSitVsetWrite n val s = .next z) : Frm 0 s z := by
  unfold execSitVsetWrite at h
  injection h with h
  subst h
  have hk := Frm.refl 0 s
  repeat' first | intro _ | (with_reducible first | assumption | apply frm_sitVsetWrite | apply Frm.ite | fail_if_no_progress apply Frm.rest) | dsimp only | split

theorem frm_execFlushTimeout {n : Fin 18} {s z : State} (h : execFlushTimeout n s = .next z) : Frm 1 s z := by
  unfold execFlushTimeout at h
  injection h with h
  subst h
  have hk := Frm.refl 1 s
  have hm : Sub 1 1 := rfl
  repeat' first | intro _ | (with_reducible first | assumption | apply frm_refresh | apply frm_flushTimeout | apply Frm.ite | fail_if_no_progress apply Frm.rest | exact Sub.trans (b := 1) rfl hm) | dsimp only | split

theorem frm_execCachingSiteFlushDone {n : Fin 18} {s z : State} (h : execCachingSiteFlushDone n s = .next z) : Frm 0 s z := by
  unfold execCachingSiteFlushDone at h
  injection h with h
  subst h
  have hk := Frm.refl 0 s
  repeat' first | intro _ | (with_reducible first | assumption | apply frm_cachingSiteFlushDone | apply Frm.ite | fail_if_no_progress apply Frm.rest) | dsimp only | split

theorem frm_execArriveToken {via : TokenVia} {t : Token} {s z : State} (h : execArriveToken via t s = .next z) : Frm 1 s z := by
  unfold execArriveToken at h
  injection h with h
  subst h
  have hk := Frm.refl 1 s
  have hm : Sub 1 1 := rfl
  repeat' first | intro _ | (with_reducible first | assumption | apply frm_refresh | apply frm_arriveToken | apply Frm.ite | fail_if_no_progress apply Frm.rest | exact Sub.trans (b := 1) rfl hm) | dsimp only | split

theorem frm_execReleaseToken {via : TokenVia} {t : Token} {s z : State} (h : execReleaseToken via t s = .next z) : Frm 1 s z := by
  unfold execReleaseToken at h
  injection h with h
  subst h
  have hk := Frm.refl 1 s
  have hm : Sub 1 1 := rfl
  repeat' first | intro _ | (with_reducible first | assumption | apply frm_refresh | apply frm_releaseToken | apply Frm.ite | fail_if_no_progress apply Frm.rest | exact Sub.trans (b := 1) rfl hm) | dsimp only | split

theorem frm_execHoldToken {via : TokenVia} {t : Token} {s z : State} (h : execHoldToken via t s = .next z) : Frm 1 s z := by
  unfold execHoldToken at h
  injection h with h
  subst h
  have hk := Frm.refl 1 s
  have hm : Sub 1 1 := rfl
  repeat' first | intro _ | (with_reducible first | assumption | apply frm_refresh | apply frm_holdToken | apply Frm.ite | fail_if_no_progress apply Frm.rest | exact Sub.trans (b := 1) rfl hm) | dsimp only | split

theorem frm_execBreakToken {via : TokenVia} {t : Token} {s z : State} (h : execBreakToken via t s = .next z) : Frm 0 s z := by
  unfold execBreakToken at h
  injection h with h
  subst h
  have hk := Frm.refl 0 s
  repeat' first | intro _ | (with_reducible first | assumption | apply frm_refresh | apply frm_breakToken | apply Frm.ite | fail_if_no_progress apply Frm.rest) | dsimp only | split

theorem frm_execLateLimitExpiry {p : Fin 64} {s z : State} (h : execLateLimitExpiry p s = .next z) : Frm 1 s z := by
  unfold execLateLimitExpiry at h
  injection h with h
  subst h
  have hk := Frm.refl 1 s
  have hm : Sub 1 1 := rfl
  repeat' first | intro _ | (with_reducible first | assumption | apply frm_lateLimitExpiry | apply Frm.ite | fail_if_no_progress apply Frm.rest | exact Sub.trans (b := 1) rfl hm) | dsimp only | split

theorem frm_execProofTimeoutExpiry {p : Fin 64} {s z : State} (h : execProofTimeoutExpiry p s = .next z) : Frm 0 s z := by
  unfold execProofTimeoutExpiry at h
  injection h with h
  subst h
  have hk := Frm.refl 0 s
  repeat' first | intro _ | (with_reducible first | assumption | apply frm_refresh | apply frm_proofTimeoutExpiry | apply Frm.ite | fail_if_no_progress apply Frm.rest) | dsimp only | split

theorem frm_execReadyTimeout {p : Fin 64} {s z : State} (h : execReadyTimeout p s = .next z) : Frm 0 s z := by
  unfold execReadyTimeout at h
  injection h with h
  subst h
  have hk := Frm.refl 0 s
  repeat' first | intro _ | (with_reducible first | assumption | apply frm_readyTimeout | apply Frm.ite | fail_if_no_progress apply Frm.rest) | dsimp only | split

theorem frm_execTimeSyncTimer {s z : State} (h : execTimeSyncTimer s = .next z) : Frm 32768 s z := by
  unfold execTimeSyncTimer at h
  injection h with h
  subst h
  have hk := Frm.refl 32768 s
  have hm : Sub 32768 32768 := rfl
  repeat' first | intro _ | (with_reducible first | assumption | apply frm_timeSyncTimer | apply Frm.ite | fail_if_no_progress apply Frm.rest | exact Sub.trans (b := 32768) rfl hm) | dsimp only | split

theorem frm_execTimeReq {via : TokenVia} {t : Token} {s z : State} (h : execTimeReq via t s = .next z) : Frm 0 s z := by
  unfold execTimeReq at h
  injection h with h
  subst h
  have hk := Frm.refl 0 s
  repeat' first | intro _ | (with_reducible first | assumption | apply frm_refresh | apply frm_timeReq | apply Frm.ite | fail_if_no_progress apply Frm.rest) | dsimp only | split

theorem frm_execTimeResp {via : TokenVia} {t : Token} {s z : State} (h : execTimeResp via t s = .next z) : Frm 32768 s z := by
  unfold execTimeResp at h
  injection h with h
  subst h
  have hk := Frm.refl 32768 s
  have hm : Sub 32768 32768 := rfl
  repeat' first | intro _ | (with_reducible first | assumption | apply frm_refresh | apply frm_timeResp | apply Frm.ite | fail_if_no_progress apply Frm.rest | exact Sub.trans (b := 32768) rfl hm) | dsimp only | split

theorem frm_execTimeParentLost {s z : State} (h : execTimeParentLost s = .next z) : Frm 32768 s z := by
  unfold execTimeParentLost at h
  injection h with h
  subst h
  have hk := Frm.refl 32768 s
  have hm : Sub 32768 32768 := rfl
  repeat' first | intro _ | (with_reducible first | assumption | apply frm_raise | apply Frm.ite | fail_if_no_progress apply Frm.rest | exact Sub.trans (b := 32768) rfl hm) | dsimp only | split | (with_reducible first | apply Frm.ch15)

theorem frm_execProofPortDown {port : Fin 8} {s z : State} (h : execProofPortDown port s = .next z) : Frm 256 s z := by
  unfold execProofPortDown at h
  injection h with h
  subst h
  have hk := Frm.refl 256 s
  have hm : Sub 256 256 := rfl
  repeat' first | intro _ | (with_reducible first | assumption | apply frm_proofPortDown | apply Frm.ite | fail_if_no_progress apply Frm.rest | exact Sub.trans (b := 256) rfl hm) | dsimp only | split

theorem frm_execProofPortUp {port : Fin 8} {peer : BitVec 64} {s z : State} (h : execProofPortUp port peer s = .next z) : Frm 256 s z := by
  unfold execProofPortUp at h
  injection h with h
  subst h
  have hk := Frm.refl 256 s
  have hm : Sub 256 256 := rfl
  repeat' first | intro _ | (with_reducible first | assumption | apply frm_proofPortUp | apply Frm.ite | fail_if_no_progress apply Frm.rest | exact Sub.trans (b := 256) rfl hm) | dsimp only | split

theorem frm_execSiteArriveIn {n : Fin 18} {s z : State} (h : execSiteArriveIn n s = .next z) : Frm 0 s z := by
  unfold execSiteArriveIn at h
  injection h with h
  subst h
  have hk := Frm.refl 0 s
  repeat' first | intro _ | (with_reducible first | assumption | apply frm_modSite | apply Frm.ite | fail_if_no_progress apply Frm.rest) | dsimp only | split

theorem frm_execSiteReleaseIn {n : Fin 18} {s z : State} (h : execSiteReleaseIn n s = .next z) : Frm 0 s z := by
  unfold execSiteReleaseIn at h
  injection h with h
  subst h
  have hk := Frm.refl 0 s
  repeat' first | intro _ | (with_reducible first | assumption | apply frm_modSite | apply Frm.ite | fail_if_no_progress apply Frm.rest) | dsimp only | split

theorem frm_execSiteAckTimeout {n : Fin 18} {s z : State} (h : execSiteAckTimeout n s = .next z) : Frm 512 s z := by
  unfold execSiteAckTimeout at h
  injection h with h
  subst h
  have hk := Frm.refl 512 s
  have hm : Sub 512 512 := rfl
  repeat' first | intro _ | (with_reducible first | assumption | apply frm_siteAckTimeout | apply Frm.ite | fail_if_no_progress apply Frm.rest | exact Sub.trans (b := 512) rfl hm) | dsimp only | split

theorem frm_execPartHold {p : Fin 64} {s z : State} (h : execPartHold p s = .next z) : Frm 0 s z := by
  unfold execPartHold at h
  injection h with h
  subst h
  have hk := Frm.refl 0 s
  repeat' first | intro _ | (with_reducible first | assumption | apply frm_partHold | apply Frm.ite | fail_if_no_progress apply Frm.rest) | dsimp only | split

theorem frm_execPartRelease {p : Fin 64} {s z : State} (h : execPartRelease p s = .next z) : Frm 0 s z := by
  unfold execPartRelease at h
  injection h with h
  subst h
  have hk := Frm.refl 0 s
  repeat' first | intro _ | (with_reducible first | assumption | apply frm_partRelease | apply Frm.ite | fail_if_no_progress apply Frm.rest) | dsimp only | split

theorem frm_execPartRemeasure {p : Fin 64} {s z : State} (h : execPartRemeasure p s = .next z) : Frm 0 s z := by
  unfold execPartRemeasure at h
  injection h with h
  subst h
  have hk := Frm.refl 0 s
  repeat' first | intro _ | (with_reducible first | assumption | apply frm_modPart | apply Frm.ite | fail_if_no_progress apply Frm.rest) | dsimp only | split

theorem frm_execStarterArm {p : Fin 64} {stream : Word} {s z : State} (h : execStarterArm p stream s = .next z) : Frm 0 s z := by
  unfold execStarterArm at h
  injection h with h
  subst h
  have hk := Frm.refl 0 s
  repeat' first | intro _ | (with_reducible first | assumption | apply frm_starterArm | apply Frm.ite | fail_if_no_progress apply Frm.rest) | dsimp only | split

theorem frm_execStepCounterArm {p : Fin 64} {hi : Word} {s z : State} (h : execStepCounterArm p hi s = .next z) : Frm 0 s z := by
  unfold execStepCounterArm at h
  injection h with h
  subst h
  have hk := Frm.refl 0 s
  repeat' first | intro _ | (with_reducible first | assumption | apply frm_stepCounterArm | apply Frm.ite | fail_if_no_progress apply Frm.rest) | dsimp only | split

theorem frm_execNocRead {tag off : Nat} {head ecc : Ecc} {s z : State} (h : execNocRead tag off head ecc s = .next z) : Frm 131073 s z := by
  unfold execNocRead at h
  injection h with h
  subst h
  have hk := Frm.refl 131073 s
  have hm : Sub 131073 131073 := rfl
  repeat' first | intro _ | (with_reducible first | assumption | apply frm_nocRequest | apply Frm.ite | fail_if_no_progress apply Frm.rest | exact Sub.trans (b := 131073) rfl hm) | dsimp only | split

theorem frm_execNocWrite {tag : Nat} {head flits : Ecc} {s z : State} (h : execNocWrite tag head flits s = .next z) : Frm 131073 s z := by
  unfold execNocWrite at h
  injection h with h
  subst h
  have hk := Frm.refl 131073 s
  have hm : Sub 131073 131073 := rfl
  repeat' first | intro _ | (with_reducible first | assumption | apply frm_nocRequest | apply Frm.ite | fail_if_no_progress apply Frm.rest | exact Sub.trans (b := 131073) rfl hm) | dsimp only | split

theorem frm_execNocReadData {tag : Nat} {head flits : Ecc} {s z : State} (h : execNocReadData tag head flits s = .next z) : Frm 131072 s z := by
  unfold execNocReadData at h
  injection h with h
  subst h
  have hk := Frm.refl 131072 s
  have hm : Sub 131072 131072 := rfl
  repeat' first | intro _ | (with_reducible first | assumption | apply frm_nocResponse | apply Frm.ite | fail_if_no_progress apply Frm.rest | exact Sub.trans (b := 131072) rfl hm) | dsimp only | split

theorem frm_execNocWriteAck {tag : Nat} {head : Ecc} {s z : State} (h : execNocWriteAck tag head s = .next z) : Frm 131072 s z := by
  unfold execNocWriteAck at h
  injection h with h
  subst h
  have hk := Frm.refl 131072 s
  have hm : Sub 131072 131072 := rfl
  repeat' first | intro _ | (with_reducible first | assumption | apply frm_nocResponse | apply Frm.ite | fail_if_no_progress apply Frm.rest | exact Sub.trans (b := 131072) rfl hm) | dsimp only | split

theorem frm_execNocRefuse {tag : Nat} {head : Ecc} {s z : State} (h : execNocRefuse tag head s = .next z) : Frm 131072 s z := by
  unfold execNocRefuse at h
  injection h with h
  subst h
  have hk := Frm.refl 131072 s
  have hm : Sub 131072 131072 := rfl
  repeat' first | intro _ | (with_reducible first | assumption | apply frm_nocResponse | apply Frm.ite | fail_if_no_progress apply Frm.rest | exact Sub.trans (b := 131072) rfl hm) | dsimp only | split

theorem frm_execRespTimeout {tag : Nat} {s z : State} (h : execRespTimeout tag s = .next z) : Frm 0 s z := by
  unfold execRespTimeout at h
  injection h with h
  subst h
  have hk := Frm.refl 0 s
  repeat' first | intro _ | (with_reducible first | assumption | apply frm_respTimeout | apply Frm.ite | fail_if_no_progress apply Frm.rest) | dsimp only | split

theorem frm_execSliceStall {router : Fin 96} {input : Fin 8} {s z : State} (h : execSliceStall router input s = .next z) : Frm 0 s z := by
  unfold execSliceStall at h
  injection h with h
  subst h
  have hk := Frm.refl 0 s
  repeat' first | intro _ | (with_reducible first | assumption | apply frm_sliceStall | apply Frm.ite | fail_if_no_progress apply Frm.rest) | dsimp only | split

theorem frm_execQosMissWindowExpiry {p : Fin 64} {s z : State} (h : execQosMissWindowExpiry p s = .next z) : Frm 0 s z := by
  unfold execQosMissWindowExpiry at h
  injection h with h
  subst h
  have hk := Frm.refl 0 s
  repeat' first | intro _ | (with_reducible first | assumption | apply frm_setQpart | apply Frm.ite | fail_if_no_progress apply Frm.rest) | dsimp only | split

theorem frm_execRdNc {n : Fin 18} {m : GMsg} {s z : State} (h : execRdNc n m s = .next z) : Frm 0 s z := by
  unfold execRdNc at h
  injection h with h
  subst h
  have hk := Frm.refl 0 s
  repeat' first | intro _ | (with_reducible first | assumption | apply frm_rdNc | apply Frm.ite | fail_if_no_progress apply Frm.rest) | dsimp only | split

theorem frm_execWr {n : Fin 18} {m : GMsg} {s z : State} (h : execWr n m s = .next z) : Frm 0 s z := by
  unfold execWr at h
  injection h with h
  subst h
  have hk := Frm.refl 0 s
  repeat' first | intro _ | (with_reducible first | assumption | apply frm_wr | apply Frm.ite | fail_if_no_progress apply Frm.rest) | dsimp only | split

theorem frm_execWrPart {n : Fin 18} {m : GMsg} {s z : State} (h : execWrPart n m s = .next z) : Frm 0 s z := by
  unfold execWrPart at h
  injection h with h
  subst h
  have hk := Frm.refl 0 s
  repeat' first | intro _ | (with_reducible first | assumption | apply frm_wrPart | apply Frm.ite | fail_if_no_progress apply Frm.rest) | dsimp only | split

theorem frm_execRdCur {n : Fin 18} {m : GMsg} {s z : State} (h : execRdCur n m s = .next z) : Frm 1 s z := by
  unfold execRdCur at h
  injection h with h
  subst h
  have hk := Frm.refl 1 s
  have hm : Sub 1 1 := rfl
  repeat' first | intro _ | (with_reducible first | assumption | apply frm_refresh | apply frm_rdCur | apply Frm.ite | fail_if_no_progress apply Frm.rest | exact Sub.trans (b := 1) rfl hm) | dsimp only | split

theorem frm_execRdShared {n : Fin 18} {m : GMsg} {ue : Bool} {s z : State} (h : execRdShared n m ue s = .next z) : Frm 1 s z := by
  unfold execRdShared at h
  injection h with h
  subst h
  have hk := Frm.refl 1 s
  have hm : Sub 1 1 := rfl
  repeat' first | intro _ | (with_reducible first | assumption | apply frm_refresh | apply frm_rdShared | apply Frm.ite | fail_if_no_progress apply Frm.rest | exact Sub.trans (b := 1) rfl hm) | dsimp only | split

theorem frm_execRdOwn {n : Fin 18} {m : GMsg} {s z : State} (h : execRdOwn n m s = .next z) : Frm 1 s z := by
  unfold execRdOwn at h
  injection h with h
  subst h
  have hk := Frm.refl 1 s
  have hm : Sub 1 1 := rfl
  repeat' first | intro _ | (with_reducible first | assumption | apply frm_refresh | apply frm_rdOwn | apply Frm.ite | fail_if_no_progress apply Frm.rest | exact Sub.trans (b := 1) rfl hm) | dsimp only | split

theorem frm_execUpgrade {n : Fin 18} {m : GMsg} {s z : State} (h : execUpgrade n m s = .next z) : Frm 1 s z := by
  unfold execUpgrade at h
  injection h with h
  subst h
  have hk := Frm.refl 1 s
  have hm : Sub 1 1 := rfl
  repeat' first | intro _ | (with_reducible first | assumption | apply frm_refresh | apply frm_upgrade | apply Frm.ite | fail_if_no_progress apply Frm.rest | exact Sub.trans (b := 1) rfl hm) | dsimp only | split

theorem frm_execEvictClean {n : Fin 18} {m : GMsg} {s z : State} (h : execEvictClean n m s = .next z) : Frm 1 s z := by
  unfold execEvictClean at h
  injection h with h
  subst h
  have hk := Frm.refl 1 s
  have hm : Sub 1 1 := rfl
  repeat' first | intro _ | (with_reducible first | assumption | apply frm_refresh | apply frm_evictClean | apply Frm.ite | fail_if_no_progress apply Frm.rest | exact Sub.trans (b := 1) rfl hm) | dsimp only | split

theorem frm_execWbDirty {n : Fin 18} {m : GMsg} {s z : State} (h : execWbDirty n m s = .next z) : Frm 1 s z := by
  unfold execWbDirty at h
  injection h with h
  subst h
  have hk := Frm.refl 1 s
  have hm : Sub 1 1 := rfl
  repeat' first | intro _ | (with_reducible first | assumption | apply frm_refresh | apply frm_wbDirty | apply Frm.ite | fail_if_no_progress apply Frm.rest | exact Sub.trans (b := 1) rfl hm) | dsimp only | split

theorem frm_execSnpRsp {n : Fin 18} {m : GMsg} {s z : State} (h : execSnpRsp n m s = .next z) : Frm 1 s z := by
  unfold execSnpRsp at h
  injection h with h
  subst h
  have hk := Frm.refl 1 s
  have hm : Sub 1 1 := rfl
  repeat' first | intro _ | (with_reducible first | assumption | apply frm_refresh | apply frm_snpRsp | apply Frm.ite | fail_if_no_progress apply Frm.rest | exact Sub.trans (b := 1) rfl hm) | dsimp only | split

theorem frm_execSnpRspData {n : Fin 18} {m : GMsg} {s z : State} (h : execSnpRspData n m s = .next z) : Frm 1 s z := by
  unfold execSnpRspData at h
  injection h with h
  subst h
  have hk := Frm.refl 1 s
  have hm : Sub 1 1 := rfl
  repeat' first | intro _ | (with_reducible first | assumption | apply frm_refresh | apply frm_snpRspData | apply Frm.ite | fail_if_no_progress apply Frm.rest | exact Sub.trans (b := 1) rfl hm) | dsimp only | split

theorem frm_execAck {n : Fin 18} {m : GMsg} {s z : State} (h : execAck n m s = .next z) : Frm 1 s z := by
  unfold execAck at h
  injection h with h
  subst h
  have hk := Frm.refl 1 s
  have hm : Sub 1 1 := rfl
  repeat' first | intro _ | (with_reducible first | assumption | apply frm_refresh | apply frm_ack | apply Frm.ite | fail_if_no_progress apply Frm.rest | exact Sub.trans (b := 1) rfl hm) | dsimp only | split

theorem frm_execRdData {n : Fin 18} {m : GMsg} {s z : State} (h : execRdData n m s = .next z) : Frm 0 s z := by
  unfold execRdData at h
  injection h with h
  subst h
  have hk := Frm.refl 0 s
  repeat' first | intro _ | (with_reducible first | assumption | apply frm_rdData | apply Frm.ite | fail_if_no_progress apply Frm.rest) | dsimp only | split

theorem frm_execCmp {n : Fin 18} {m : GMsg} {s z : State} (h : execCmp n m s = .next z) : Frm 0 s z := by
  unfold execCmp at h
  injection h with h
  subst h
  have hk := Frm.refl 0 s
  repeat' first | intro _ | (with_reducible first | assumption | apply frm_cmp | apply Frm.ite | fail_if_no_progress apply Frm.rest) | dsimp only | split

theorem frm_execOccupantRspTimeout {n : Fin 18} {tag : BitVec 12} {s z : State} (h : execOccupantRspTimeout n tag s = .next z) : Frm 0 s z := by
  unfold execOccupantRspTimeout at h
  injection h with h
  subst h
  have hk := Frm.refl 0 s
  repeat' first | intro _ | (with_reducible first | assumption | apply frm_occupantRspTimeout | apply Frm.ite | fail_if_no_progress apply Frm.rest) | dsimp only | split

theorem frm_execSnoopTimeout {n : Fin 18} {line : Nat} {s z : State} (h : execSnoopTimeout n line s = .next z) : Frm 1 s z := by
  unfold execSnoopTimeout at h
  injection h with h
  subst h
  have hk := Frm.refl 1 s
  have hm : Sub 1 1 := rfl
  repeat' first | intro _ | (with_reducible first | assumption | apply frm_refresh | apply frm_snoopLate | apply Frm.ite | fail_if_no_progress apply Frm.rest | exact Sub.trans (b := 1) rfl hm) | dsimp only | split

theorem frm_execIdentity {n : Fin 18} {m : GMsg} {s z : State} (h : execIdentity n m s = .next z) : Frm 0 s z := by
  unfold execIdentity at h
  injection h with h
  subst h
  have hk := Frm.refl 0 s
  repeat' first | intro _ | (with_reducible first | assumption | apply frm_identity | apply Frm.ite | fail_if_no_progress apply Frm.rest) | dsimp only | split

theorem frm_execArriveInfo {n : Fin 18} {m : GMsg} {s z : State} (h : execArriveInfo n m s = .next z) : Frm 0 s z := by
  unfold execArriveInfo at h
  injection h with h
  subst h
  have hk := Frm.refl 0 s
  repeat' first | intro _ | (with_reducible first | assumption | apply frm_arriveInfo | apply Frm.ite | fail_if_no_progress apply Frm.rest) | dsimp only | split

theorem frm_execVoltReq {n : Fin 18} {m : GMsg} {s z : State} (h : execVoltReq n m s = .next z) : Frm 0 s z := by
  unfold execVoltReq at h
  injection h with h
  subst h
  have hk := Frm.refl 0 s
  repeat' first | intro _ | (with_reducible first | assumption | apply frm_voltReq | apply Frm.ite | fail_if_no_progress apply Frm.rest) | dsimp only | split

theorem frm_execCredit {n : Fin 18} {m : GMsg} {s z : State} (h : execCredit n m s = .next z) : Frm 0 s z := by
  unfold execCredit at h
  injection h with h
  subst h
  have hk := Frm.refl 0 s
  repeat' first | intro _ | (with_reducible first | assumption | apply frm_credit | apply Frm.ite | fail_if_no_progress apply Frm.rest) | dsimp only | split

theorem frm_execCxlRdcurr {n : Fin 18} {m : CxlMsg} {s z : State} (h : execCxlRdcurr n m s = .next z) : Frm 1 s z := by
  unfold execCxlRdcurr at h
  injection h with h
  subst h
  have hk := Frm.refl 1 s
  have hm : Sub 1 1 := rfl
  repeat' first | intro _ | (with_reducible first | assumption | apply frm_refresh | apply frm_cxlRdcurr | apply Frm.ite | fail_if_no_progress apply Frm.rest | exact Sub.trans (b := 1) rfl hm) | dsimp only | split

theorem frm_execCxlRdshared {n : Fin 18} {m : CxlMsg} {s z : State} (h : execCxlRdshared n m s = .next z) : Frm 1 s z := by
  unfold execCxlRdshared at h
  injection h with h
  subst h
  have hk := Frm.refl 1 s
  have hm : Sub 1 1 := rfl
  repeat' first | intro _ | (with_reducible first | assumption | apply frm_refresh | apply frm_cxlPoison | apply frm_cxlRequest | apply frm_cxlCache | apply Frm.ite | fail_if_no_progress apply Frm.rest | exact Sub.trans (b := 1) rfl hm) | dsimp only | split

theorem frm_execCxlRdany {n : Fin 18} {m : CxlMsg} {s z : State} (h : execCxlRdany n m s = .next z) : Frm 1 s z := by
  unfold execCxlRdany at h
  injection h with h
  subst h
  have hk := Frm.refl 1 s
  have hm : Sub 1 1 := rfl
  repeat' first | intro _ | (with_reducible first | assumption | apply frm_refresh | apply frm_cxlPoison | apply frm_cxlRequest | apply frm_cxlCache | apply Frm.ite | fail_if_no_progress apply Frm.rest | exact Sub.trans (b := 1) rfl hm) | dsimp only | split

theorem frm_execCxlRdown {n : Fin 18} {m : CxlMsg} {s z : State} (h : execCxlRdown n m s = .next z) : Frm 1 s z := by
  unfold execCxlRdown at h
  injection h with h
  subst h
  have hk := Frm.refl 1 s
  have hm : Sub 1 1 := rfl
  repeat' first | intro _ | (with_reducible first | assumption | apply frm_refresh | apply frm_cxlPoison | apply frm_cxlRequest | apply frm_cxlCache | apply Frm.ite | fail_if_no_progress apply Frm.rest | exact Sub.trans (b := 1) rfl hm) | dsimp only | split

theorem frm_execCxlRdownnodata {n : Fin 18} {m : CxlMsg} {s z : State} (h : execCxlRdownnodata n m s = .next z) : Frm 1 s z := by
  unfold execCxlRdownnodata at h
  injection h with h
  subst h
  have hk := Frm.refl 1 s
  have hm : Sub 1 1 := rfl
  repeat' first | intro _ | (with_reducible first | assumption | apply frm_refresh | apply frm_cxlSay | apply frm_cxlRequest | apply frm_cxlCache | apply Frm.ite | fail_if_no_progress apply Frm.rest | exact Sub.trans (b := 1) rfl hm) | dsimp only | split

theorem frm_execCxlClflush {n : Fin 18} {m : CxlMsg} {s z : State} (h : execCxlClflush n m s = .next z) : Frm 1 s z := by
  unfold execCxlClflush at h
  injection h with h
  subst h
  have hk := Frm.refl 1 s
  have hm : Sub 1 1 := rfl
  repeat' first | intro _ | (with_reducible first | assumption | apply frm_refresh | apply frm_atHome | apply frm_cxlSay | apply frm_cxlRequest | apply Frm.ite | fail_if_no_progress apply Frm.rest | exact Sub.trans (b := 1) rfl hm) | dsimp only | split

theorem frm_execCxlCleanevict {n : Fin 18} {m : CxlMsg} {s z : State} (h : execCxlCleanevict n m s = .next z) : Frm 1 s z := by
  unfold execCxlCleanevict at h
  injection h with h
  subst h
  have hk := Frm.refl 1 s
  have hm : Sub 1 1 := rfl
  repeat' first | intro _ | (with_reducible first | assumption | apply frm_refresh | apply frm_cxlCleanevict | apply Frm.ite | fail_if_no_progress apply Frm.rest | exact Sub.trans (b := 1) rfl hm) | dsimp only | split

theorem frm_execCxlDirtyevict {n : Fin 18} {m : CxlMsg} {s z : State} (h : execCxlDirtyevict n m s = .next z) : Frm 1 s z := by
  unfold execCxlDirtyevict at h
  injection h with h
  subst h
  have hk := Frm.refl 1 s
  have hm : Sub 1 1 := rfl
  repeat' first | intro _ | (with_reducible first | assumption | apply frm_refresh | apply frm_cxlDirtyevict | apply Frm.ite | fail_if_no_progress apply Frm.rest | exact Sub.trans (b := 1) rfl hm) | dsimp only | split

theorem frm_execCxlItomwr {n : Fin 18} {m : CxlMsg} {s z : State} (h : execCxlItomwr n m s = .next z) : Frm 1 s z := by
  unfold execCxlItomwr at h
  injection h with h
  subst h
  have hk := Frm.refl 1 s
  have hm : Sub 1 1 := rfl
  repeat' first | intro _ | (with_reducible first | assumption | apply frm_refresh | apply frm_cxlItomwr | apply Frm.ite | fail_if_no_progress apply Frm.rest | exact Sub.trans (b := 1) rfl hm) | dsimp only | split

theorem frm_execCxlCacheflushed {n : Fin 18} {m : CxlMsg} {s z : State} (h : execCxlCacheflushed n m s = .next z) : Frm 0 s z := by
  unfold execCxlCacheflushed at h
  injection h with h
  subst h
  have hk := Frm.refl 0 s
  repeat' first | intro _ | (with_reducible first | assumption | apply frm_cxlSay | apply Frm.ite | fail_if_no_progress apply Frm.rest) | dsimp only | split

theorem frm_execCxlUnlistedD2h {n : Fin 18} {m : CxlMsg} {s z : State} (h : execCxlUnlistedD2h n m s = .next z) : Frm 0 s z := by
  unfold execCxlUnlistedD2h at h
  injection h with h
  subst h
  have hk := Frm.refl 0 s
  repeat' first | intro _ | (with_reducible first | assumption | apply frm_refresh | apply frm_protocolError | apply frm_cxlSay | apply Frm.ite | fail_if_no_progress apply Frm.rest) | dsimp only | split

theorem frm_execCxlSnoopResponse {n : Fin 18} {rsp : CxlSnpRsp} {m : CxlMsg} {s z : State} (h : execCxlSnoopResponse n rsp m s = .next z) : Frm 1 s z := by
  unfold execCxlSnoopResponse at h
  injection h with h
  subst h
  have hk := Frm.refl 1 s
  have hm : Sub 1 1 := rfl
  repeat' first | intro _ | (with_reducible first | assumption | apply frm_refresh | apply frm_cxlSnoopResponse | apply Frm.ite | fail_if_no_progress apply Frm.rest | exact Sub.trans (b := 1) rfl hm) | dsimp only | split

theorem frm_execCxlGoAcked {n : Fin 18} {tag : BitVec 12} {s z : State} (h : execCxlGoAcked n tag s = .next z) : Frm 1 s z := by
  unfold execCxlGoAcked at h
  injection h with h
  subst h
  have hk := Frm.refl 1 s
  have hm : Sub 1 1 := rfl
  repeat' first | intro _ | (with_reducible first | assumption | apply frm_refresh | apply frm_cxlGoAcked | apply Frm.ite | fail_if_no_progress apply Frm.rest | exact Sub.trans (b := 1) rfl hm) | dsimp only | split

theorem frm_execCxlMemResponse {n : Fin 18} {tag : BitVec 12} {data : List Byte} {poison : Bool} {s z : State} (h : execCxlMemResponse n tag data poison s = .next z) : Frm 0 s z := by
  unfold execCxlMemResponse at h
  injection h with h
  subst h
  have hk := Frm.refl 0 s
  repeat' first | intro _ | (with_reducible first | assumption | apply frm_cxlMemResponse | apply Frm.ite | fail_if_no_progress apply Frm.rest) | dsimp only | split

theorem frm_execCxlIoRequest {n : Fin 18} {kind : CxlIo} {m : CxlMsg} {s z : State} (h : execCxlIoRequest n kind m s = .next z) : Frm 0 s z := by
  unfold execCxlIoRequest at h
  injection h with h
  subst h
  have hk := Frm.refl 0 s
  repeat' first | intro _ | (with_reducible first | assumption | apply frm_refresh | apply frm_cxlIoRequest | apply Frm.ite | fail_if_no_progress apply Frm.rest) | dsimp only | split

theorem frm_execAtsTranslationCompletion {e : Fin 64} {iova : BitVec 64} {size : Nat} {host : BitVec 64} {r w : Bool} {cpl : CplStat} {s z : State} (h : execAtsTranslationCompletion e iova size host r w cpl s = .next z) : Frm 0 s z := by
  unfold execAtsTranslationCompletion at h
  injection h with h
  subst h
  have hk := Frm.refl 0 s
  repeat' first | intro _ | (with_reducible first | assumption | apply frm_refresh | apply frm_atsTranslationCompletion | apply Frm.ite | fail_if_no_progress apply Frm.rest) | dsimp only | split

theorem frm_execPrgResponse {e : Fin 64} {code : PrgCode} {s z : State} (h : execPrgResponse e code s = .next z) : Frm 0 s z := by
  unfold execPrgResponse at h
  injection h with h
  subst h
  have hk := Frm.refl 0 s
  repeat' first | intro _ | (with_reducible first | assumption | apply frm_refresh | apply frm_prgResponse | apply Frm.ite | fail_if_no_progress apply Frm.rest) | dsimp only | split

theorem frm_execFaultLimitExpiry {e : Fin 64} {s z : State} (h : execFaultLimitExpiry e s = .next z) : Frm 0 s z := by
  unfold execFaultLimitExpiry at h
  injection h with h
  subst h
  have hk := Frm.refl 0 s
  repeat' first | intro _ | (with_reducible first | assumption | apply frm_refresh | apply frm_sendPageReqs | apply frm_pageLost | apply Frm.ite | fail_if_no_progress apply Frm.rest) | dsimp only | split

theorem frm_execHostReadCompletion {tag : Nat} {cpl : CplStat} {data : List Byte} {poison : Bool} {s z : State} (h : execHostReadCompletion tag cpl data poison s = .next z) : Frm 0 s z := by
  unfold execHostReadCompletion at h
  injection h with h
  subst h
  have hk := Frm.refl 0 s
  repeat' first | intro _ | (with_reducible first | assumption | apply frm_refresh | apply frm_hostReadEnds | apply Frm.ite | fail_if_no_progress apply Frm.rest) | dsimp only | split

theorem frm_execHostCompletionTimeout {tag : Nat} {s z : State} (h : execHostCompletionTimeout tag s = .next z) : Frm 0 s z := by
  unfold execHostCompletionTimeout at h
  injection h with h
  subst h
  have hk := Frm.refl 0 s
  repeat' first | intro _ | (with_reducible first | assumption | apply frm_refresh | apply frm_hostCompletionTimeout | apply Frm.ite | fail_if_no_progress apply Frm.rest) | dsimp only | split

theorem frm_execVifAttach {v : Fin 1024} {val : Word} {s z : State} (h : execVifAttach v val s = .next z) : Frm 0 s z := by
  unfold execVifAttach at h
  injection h with h
  subst h
  have hk := Frm.refl 0 s
  repeat' first | intro _ | (with_reducible first | assumption | apply frm_refresh | apply frm_vifAttach | apply Frm.ite | fail_if_no_progress apply Frm.rest) | dsimp only | split

theorem frm_execVifDetach {v : Fin 1024} {s z : State} (h : execVifDetach v s = .next z) : Frm 0 s z := by
  unfold execVifDetach at h
  injection h with h
  subst h
  have hk := Frm.refl 0 s
  repeat' first | intro _ | (with_reducible first | assumption | apply frm_refresh | apply frm_vifDetach | apply Frm.ite | fail_if_no_progress apply Frm.rest) | dsimp only | split

theorem frm_execVifLease {v : Fin 1024} {s z : State} (h : execVifLease v s = .next z) : Frm 0 s z := by
  unfold execVifLease at h
  injection h with h
  subst h
  have hk := Frm.refl 0 s
  repeat' first | intro _ | (with_reducible first | assumption | apply frm_vifLease | apply Frm.ite | fail_if_no_progress apply Frm.rest) | dsimp only | split

theorem frm_execLeaseWarn {v : Fin 1024} {s z : State} (h : execLeaseWarn v s = .next z) : Frm 0 s z := by
  unfold execLeaseWarn at h
  injection h with h
  subst h
  have hk := Frm.refl 0 s
  repeat' first | intro _ | (with_reducible first | assumption | apply frm_leaseWarn | apply Frm.ite | fail_if_no_progress apply Frm.rest) | dsimp only | split

theorem frm_execLeaseExpiry {v : Fin 1024} {s z : State} (h : execLeaseExpiry v s = .next z) : Frm 0 s z := by
  unfold execLeaseExpiry at h
  injection h with h
  subst h
  have hk := Frm.refl 0 s
  repeat' first | intro _ | (with_reducible first | assumption | apply frm_refresh | apply frm_leaseExpiry | apply Frm.ite | fail_if_no_progress apply Frm.rest) | dsimp only | split

theorem frm_execPfQuiesce {s z : State} (h : execPfQuiesce s = .next z) : Frm 0 s z := by
  unfold execPfQuiesce at h
  injection h with h
  subst h
  have hk := Frm.refl 0 s
  repeat' first | intro _ | (with_reducible first | assumption | apply frm_refresh | apply frm_requestQuiesce | apply Frm.ite | fail_if_no_progress apply Frm.rest) | dsimp only | split

theorem frm_execPfDetach {s z : State} (h : execPfDetach s = .next z) : Frm 0 s z := by
  unfold execPfDetach at h
  injection h with h
  subst h
  have hk := Frm.refl 0 s
  repeat' first | intro _ | (with_reducible first | assumption | apply frm_refresh | apply frm_vifDetach | apply Frm.ite | fail_if_no_progress apply Frm.rest) | dsimp only | split

theorem frm_execFetchSlot {v : Fin 1024} {s z : State} (h : execFetchSlot v s = .next z) : Frm 0 s z := by
  unfold execFetchSlot at h
  injection h with h
  subst h
  have hk := Frm.refl 0 s
  repeat' first | intro _ | (with_reducible first | assumption | apply frm_refresh | apply frm_fetchSlot | apply Frm.ite | fail_if_no_progress apply Frm.rest) | dsimp only | split

theorem frm_execRingReadCompletion {v : Fin 1024} {cpl : CplStat} {data : List (BitVec 512)} {s z : State} (h : execRingReadCompletion v cpl data s = .next z) : Frm 0 s z := by
  unfold execRingReadCompletion at h
  injection h with h
  subst h
  have hk := Frm.refl 0 s
  repeat' first | intro _ | (with_reducible first | assumption | apply frm_refresh | apply frm_ringReadCompletion | apply Frm.ite | fail_if_no_progress apply Frm.rest) | dsimp only | split

theorem frm_execCmdNop {v : Fin 1024} {s z : State} (h : execCmdNop v s = .next z) : Frm 0 s z := by
  unfold execCmdNop at h
  injection h with h
  subst h
  have hk := Frm.refl 0 s
  repeat' first | intro _ | (with_reducible first | assumption | apply frm_cmdDeliver | apply Frm.ite | fail_if_no_progress apply Frm.rest) | dsimp only | split

theorem frm_execCmdTransfer {v : Fin 1024} {s z : State} (h : execCmdTransfer v s = .next z) : Frm 0 s z := by
  unfold execCmdTransfer at h
  injection h with h
  subst h
  have hk := Frm.refl 0 s
  repeat' first | intro _ | (with_reducible first | assumption | apply frm_cmdDeliver | apply Frm.ite | fail_if_no_progress apply Frm.rest) | dsimp only | split

theorem frm_execCmdBarrier {v : Fin 1024} {s z : State} (h : execCmdBarrier v s = .next z) : Frm 0 s z := by
  unfold execCmdBarrier at h
  injection h with h
  subst h
  have hk := Frm.refl 0 s
  repeat' first | intro _ | (with_reducible first | assumption | apply frm_cmdDeliver | apply Frm.ite | fail_if_no_progress apply Frm.rest) | dsimp only | split

theorem frm_execCmdWaitStep {v : Fin 1024} {s z : State} (h : execCmdWaitStep v s = .next z) : Frm 0 s z := by
  unfold execCmdWaitStep at h
  injection h with h
  subst h
  have hk := Frm.refl 0 s
  repeat' first | intro _ | (with_reducible first | assumption | apply frm_cmdDeliver | apply Frm.ite | fail_if_no_progress apply Frm.rest) | dsimp only | split

theorem frm_execHstAttach {val : Word} {s z : State} (h : execHstAttach val s = .next z) : Frm 0 s z := by
  unfold execHstAttach at h
  injection h with h
  subst h
  have hk := Frm.refl 0 s
  repeat' first | intro _ | (with_reducible first | assumption | apply frm_refresh | apply frm_hstAttach | apply Frm.ite | fail_if_no_progress apply Frm.rest) | dsimp only | split

theorem frm_execHstDrvLease {s z : State} (h : execHstDrvLease s = .next z) : Frm 0 s z := by
  unfold execHstDrvLease at h
  injection h with h
  subst h
  have hk := Frm.refl 0 s
  repeat' first | intro _ | (with_reducible first | assumption | apply Frm.ite | fail_if_no_progress apply Frm.rest) | dsimp only | split

theorem frm_execDrvLeaseExpiry {s z : State} (h : execDrvLeaseExpiry s = .next z) : Frm 24578 s z := by
  unfold execDrvLeaseExpiry at h
  injection h with h
  subst h
  have hk := Frm.refl 24578 s
  have hm : Sub 24578 24578 := rfl
  repeat' first | intro _ | (with_reducible first | assumption | apply frm_refresh | apply frm_drvLeaseExpiry | apply Frm.ite | fail_if_no_progress apply Frm.rest | exact Sub.trans (b := 24578) rfl hm) | dsimp only | split

theorem frm_execDrvDetach {s z : State} (h : execDrvDetach s = .next z) : Frm 24578 s z := by
  unfold execDrvDetach at h
  injection h with h
  subst h
  have hk := Frm.refl 24578 s
  have hm : Sub 24578 24578 := rfl
  repeat' first | intro _ | (with_reducible first | assumption | apply frm_refresh | apply frm_stopDma | apply Frm.ite | fail_if_no_progress apply Frm.rest | exact Sub.trans (b := 24578) rfl hm) | dsimp only | split

theorem frm_execBusMasterDisable {s z : State} (h : execBusMasterDisable s = .next z) : Frm 24578 s z := by
  unfold execBusMasterDisable at h
  injection h with h
  subst h
  have hk := Frm.refl 24578 s
  have hm : Sub 24578 24578 := rfl
  repeat' first | intro _ | (with_reducible first | assumption | apply frm_refresh | apply frm_stopDma | apply Frm.ite | fail_if_no_progress apply Frm.rest | exact Sub.trans (b := 24578) rfl hm) | dsimp only | split

theorem frm_execBusMasterEnable {s z : State} (h : execBusMasterEnable s = .next z) : Frm 0 s z := by
  unfold execBusMasterEnable at h
  injection h with h
  subst h
  have hk := Frm.refl 0 s
  repeat' first | intro _ | (with_reducible first | assumption | apply Frm.ite | fail_if_no_progress apply Frm.rest) | dsimp only | split

theorem frm_execFunctionLevelReset {s z : State} (h : execFunctionLevelReset s = .next z) : Frm 28674 s z := by
  unfold execFunctionLevelReset at h
  injection h with h
  subst h
  have hk := Frm.refl 28674 s
  have hm : Sub 28674 28674 := rfl
  repeat' first | intro _ | (with_reducible first | assumption | apply frm_refresh | apply frm_stopDma | apply frm_resetHostIsland | apply Frm.ite | fail_if_no_progress apply Frm.rest | exact Sub.trans (b := 28674) rfl hm) | dsimp only | split

theorem frm_execPerstAssert {s z : State} (h : execPerstAssert s = .next z) : Frm 28674 s z := by
  unfold execPerstAssert at h
  injection h with h
  subst h
  have hk := Frm.refl 28674 s
  have hm : Sub 28674 28674 := rfl
  repeat' first | intro _ | (with_reducible first | assumption | apply frm_refresh | apply frm_perstAssert | apply Frm.ite | fail_if_no_progress apply Frm.rest | exact Sub.trans (b := 28674) rfl hm) | dsimp only | split

theorem frm_execPerstRelease {rate width : Nat} {flit : Bool} {s z : State} (h : execPerstRelease rate width flit s = .next z) : Frm 0 s z := by
  unfold execPerstRelease at h
  injection h with h
  subst h
  have hk := Frm.refl 0 s
  repeat' first | intro _ | (with_reducible first | assumption | apply frm_linkCame | apply Frm.ite | fail_if_no_progress apply Frm.rest) | dsimp only | split

theorem frm_execPcieLinkUp {rate width : Nat} {flit : Bool} {s z : State} (h : execPcieLinkUp rate width flit s = .next z) : Frm 0 s z := by
  unfold execPcieLinkUp at h
  injection h with h
  subst h
  have hk := Frm.refl 0 s
  repeat' first | intro _ | (with_reducible first | assumption | apply frm_linkCame | apply Frm.ite | fail_if_no_progress apply Frm.rest) | dsimp only | split

theorem frm_execPcieLinkDown {s z : State} (h : execPcieLinkDown s = .next z) : Frm 24578 s z := by
  unfold execPcieLinkDown at h
  injection h with h
  subst h
  have hk := Frm.refl 24578 s
  have hm : Sub 24578 24578 := rfl
  repeat' first | intro _ | (with_reducible first | assumption | apply frm_refresh | apply frm_pcieLinkDown | apply Frm.ite | fail_if_no_progress apply Frm.rest | exact Sub.trans (b := 24578) rfl hm) | dsimp only | split

theorem frm_execD3hotEntry {s z : State} (h : execD3hotEntry s = .next z) : Frm 24578 s z := by
  unfold execD3hotEntry at h
  injection h with h
  subst h
  have hk := Frm.refl 24578 s
  have hm : Sub 24578 24578 := rfl
  repeat' first | intro _ | (with_reducible first | assumption | apply frm_refresh | apply frm_stopDma | apply Frm.ite | fail_if_no_progress apply Frm.rest | exact Sub.trans (b := 24578) rfl hm) | dsimp only | split

theorem frm_execD0Entry {s z : State} (h : execD0Entry s = .next z) : Frm 0 s z := by
  unfold execD0Entry at h
  injection h with h
  subst h
  have hk := Frm.refl 0 s
  repeat' first | intro _ | (with_reducible first | assumption | apply Frm.ite | fail_if_no_progress apply Frm.rest) | dsimp only | split

theorem frm_execInterruptDisableWrite {disable : Bool} {s z : State} (h : execInterruptDisableWrite disable s = .next z) : Frm 0 s z := by
  unfold execInterruptDisableWrite at h
  injection h with h
  subst h
  have hk := Frm.refl 0 s
  repeat' first | intro _ | (with_reducible first | assumption | apply frm_refreshInt | apply Frm.ite | fail_if_no_progress apply Frm.rest) | dsimp only | split

theorem frm_execMapDevice {tag : BitVec 8} {s z : State} (h : execMapDevice tag s = .next z) : Frm 16389 s z := by
  unfold execMapDevice at h
  injection h with h
  subst h
  have hk := Frm.refl 16389 s
  have hm : Sub 16389 16389 := rfl
  repeat' first | intro _ | (with_reducible first | assumption | apply frm_mbCommand | apply frm_mapDevice | apply Frm.ite | fail_if_no_progress apply Frm.rest | exact Sub.trans (b := 16389) rfl hm) | dsimp only | split

theorem frm_execUnmapDevice {tag : BitVec 8} {s z : State} (h : execUnmapDevice tag s = .next z) : Frm 16389 s z := by
  unfold execUnmapDevice at h
  injection h with h
  subst h
  have hk := Frm.refl 16389 s
  have hm : Sub 16389 16389 := rfl
  repeat' first | intro _ | (with_reducible first | assumption | apply frm_mbCommand | apply frm_unmapDevice | apply Frm.ite | fail_if_no_progress apply Frm.rest | exact Sub.trans (b := 16389) rfl hm) | dsimp only | split

theorem frm_execUNop {c : Fin 2048} {s z : State} (h : execUNop c s = .next z) : Frm 0 s z := by
  unfold execUNop at h
  injection h with h
  subst h
  have hk := Frm.refl 0 s
  repeat' first | intro _ | (with_reducible first | assumption | apply frm_uNop | apply Frm.ite | fail_if_no_progress apply Frm.rest) | dsimp only | split

theorem frm_execUEnd {c : Fin 2048} {s z : State} (h : execUEnd c s = .next z) : Frm 0 s z := by
  unfold execUEnd at h
  injection h with h
  subst h
  have hk := Frm.refl 0 s
  repeat' first | intro _ | (with_reducible first | assumption | apply frm_uEnd | apply Frm.ite | fail_if_no_progress apply Frm.rest) | dsimp only | split

theorem frm_execULoop {c : Fin 2048} {s z : State} (h : execULoop c s = .next z) : Frm 0 s z := by
  unfold execULoop at h
  injection h with h
  subst h
  have hk := Frm.refl 0 s
  repeat' first | intro _ | (with_reducible first | assumption | apply frm_uLoop | apply Frm.ite | fail_if_no_progress apply Frm.rest) | dsimp only | split

theorem frm_execUWaitp {c : Fin 2048} {s z : State} (h : execUWaitp c s = .next z) : Frm 0 s z := by
  unfold execUWaitp at h
  injection h with h
  subst h
  have hk := Frm.refl 0 s
  repeat' first | intro _ | (with_reducible first | assumption | apply frm_uWaitp | apply Frm.ite | fail_if_no_progress apply Frm.rest) | dsimp only | split

theorem frm_execUSync {c : Fin 2048} {s z : State} (h : execUSync c s = .next z) : Frm 0 s z := by
  unfold execUSync at h
  injection h with h
  subst h
  have hk := Frm.refl 0 s
  repeat' first | intro _ | (with_reducible first | assumption | apply frm_uSync | apply Frm.ite | fail_if_no_progress apply Frm.rest) | dsimp only | split

theorem frm_execULd {c : Fin 2048} {ecc : Ecc} {s z : State} (h : execULd c ecc s = .next z) : Frm 0 s z := by
  unfold execULd at h
  injection h with h
  subst h
  have hk := Frm.refl 0 s
  repeat' first | intro _ | (with_reducible first | assumption | apply frm_uLd | apply Frm.ite | fail_if_no_progress apply Frm.rest) | dsimp only | split

theorem frm_execUSt {c : Fin 2048} {ecc : Ecc} {s z : State} (h : execUSt c ecc s = .next z) : Frm 0 s z := by
  unfold execUSt at h
  injection h with h
  subst h
  have hk := Frm.refl 0 s
  repeat' first | intro _ | (with_reducible first | assumption | apply frm_uSt | apply Frm.ite | fail_if_no_progress apply Frm.rest) | dsimp only | split

theorem frm_execUGet {c : Fin 2048} {s z : State} (h : execUGet c s = .next z) : Frm 0 s z := by
  unfold execUGet at h
  injection h with h
  subst h
  have hk := Frm.refl 0 s
  repeat' first | intro _ | (with_reducible first | assumption | apply frm_uGet | apply Frm.ite | fail_if_no_progress apply Frm.rest) | dsimp only | split

theorem frm_execUPut {c : Fin 2048} {s z : State} (h : execUPut c s = .next z) : Frm 0 s z := by
  unfold execUPut at h
  injection h with h
  subst h
  have hk := Frm.refl 0 s
  repeat' first | intro _ | (with_reducible first | assumption | apply frm_uPut | apply Frm.ite | fail_if_no_progress apply Frm.rest) | dsimp only | split

theorem frm_execULdc {c : Fin 2048} {ecc : Ecc} {s z : State} (h : execULdc c ecc s = .next z) : Frm 0 s z := by
  unfold execULdc at h
  injection h with h
  subst h
  have hk := Frm.refl 0 s
  repeat' first | intro _ | (with_reducible first | assumption | apply frm_uLdc | apply Frm.ite | fail_if_no_progress apply Frm.rest) | dsimp only | split

theorem frm_execUGather {c : Fin 2048} {s z : State} (h : execUGather c s = .next z) : Frm 0 s z := by
  unfold execUGather at h
  injection h with h
  subst h
  have hk := Frm.refl 0 s
  repeat' first | intro _ | (with_reducible first | assumption | apply frm_uGather | apply Frm.ite | fail_if_no_progress apply Frm.rest) | dsimp only | split

theorem frm_execUScatter {c : Fin 2048} {s z : State} (h : execUScatter c s = .next z) : Frm 0 s z := by
  unfold execUScatter at h
  injection h with h
  subst h
  have hk := Frm.refl 0 s
  repeat' first | intro _ | (with_reducible first | assumption | apply frm_uScatter | apply Frm.ite | fail_if_no_progress apply Frm.rest) | dsimp only | split

theorem frm_execUAdd {c : Fin 2048} {s z : State} (h : execUAdd c s = .next z) : Frm 0 s z := by
  unfold execUAdd at h
  injection h with h
  subst h
  have hk := Frm.refl 0 s
  repeat' first | intro _ | (with_reducible first | assumption | apply frm_uAdd | apply Frm.ite | fail_if_no_progress apply Frm.rest) | dsimp only | split

theorem frm_execUSub {c : Fin 2048} {s z : State} (h : execUSub c s = .next z) : Frm 0 s z := by
  unfold execUSub at h
  injection h with h
  subst h
  have hk := Frm.refl 0 s
  repeat' first | intro _ | (with_reducible first | assumption | apply frm_uSub | apply Frm.ite | fail_if_no_progress apply Frm.rest) | dsimp only | split

theorem frm_execUMul {c : Fin 2048} {s z : State} (h : execUMul c s = .next z) : Frm 0 s z := by
  unfold execUMul at h
  injection h with h
  subst h
  have hk := Frm.refl 0 s
  repeat' first | intro _ | (with_reducible first | assumption | apply frm_uMul | apply Frm.ite | fail_if_no_progress apply Frm.rest) | dsimp only | split

theorem frm_execUFma {c : Fin 2048} {s z : State} (h : execUFma c s = .next z) : Frm 0 s z := by
  unfold execUFma at h
  injection h with h
  subst h
  have hk := Frm.refl 0 s
  repeat' first | intro _ | (with_reducible first | assumption | apply frm_uFma | apply Frm.ite | fail_if_no_progress apply Frm.rest) | dsimp only | split

theorem frm_execUMax {c : Fin 2048} {s z : State} (h : execUMax c s = .next z) : Frm 0 s z := by
  unfold execUMax at h
  injection h with h
  subst h
  have hk := Frm.refl 0 s
  repeat' first | intro _ | (with_reducible first | assumption | apply frm_uMax | apply Frm.ite | fail_if_no_progress apply Frm.rest) | dsimp only | split

theorem frm_execUMin {c : Fin 2048} {s z : State} (h : execUMin c s = .next z) : Frm 0 s z := by
  unfold execUMin at h
  injection h with h
  subst h
  have hk := Frm.refl 0 s
  repeat' first | intro _ | (with_reducible first | assumption | apply frm_uMin | apply Frm.ite | fail_if_no_progress apply Frm.rest) | dsimp only | split

theorem frm_execUSel {c : Fin 2048} {s z : State} (h : execUSel c s = .next z) : Frm 0 s z := by
  unfold execUSel at h
  injection h with h
  subst h
  have hk := Frm.refl 0 s
  repeat' first | intro _ | (with_reducible first | assumption | apply frm_uSel | apply Frm.ite | fail_if_no_progress apply Frm.rest) | dsimp only | split

theorem frm_execUCmul {c : Fin 2048} {s z : State} (h : execUCmul c s = .next z) : Frm 0 s z := by
  unfold execUCmul at h
  injection h with h
  subst h
  have hk := Frm.refl 0 s
  repeat' first | intro _ | (with_reducible first | assumption | apply frm_uCmul | apply Frm.ite | fail_if_no_progress apply Frm.rest) | dsimp only | split

theorem frm_execUSfu {c : Fin 2048} {s z : State} (h : execUSfu c s = .next z) : Frm 0 s z := by
  unfold execUSfu at h
  injection h with h
  subst h
  have hk := Frm.refl 0 s
  repeat' first | intro _ | (with_reducible first | assumption | apply frm_uSfu | apply Frm.ite | fail_if_no_progress apply Frm.rest) | dsimp only | split

theorem frm_execUCvt {c : Fin 2048} {s z : State} (h : execUCvt c s = .next z) : Frm 0 s z := by
  unfold execUCvt at h
  injection h with h
  subst h
  have hk := Frm.refl 0 s
  repeat' first | intro _ | (with_reducible first | assumption | apply frm_uCvt | apply Frm.ite | fail_if_no_progress apply Frm.rest) | dsimp only | split

theorem frm_execUMxpack {c : Fin 2048} {s z : State} (h : execUMxpack c s = .next z) : Frm 0 s z := by
  unfold execUMxpack at h
  injection h with h
  subst h
  have hk := Frm.refl 0 s
  repeat' first | intro _ | (with_reducible first | assumption | apply frm_uMxpack | apply Frm.ite | fail_if_no_progress apply Frm.rest) | dsimp only | split

theorem frm_execUMxunpack {c : Fin 2048} {s z : State} (h : execUMxunpack c s = .next z) : Frm 0 s z := by
  unfold execUMxunpack at h
  injection h with h
  subst h
  have hk := Frm.refl 0 s
  repeat' first | intro _ | (with_reducible first | assumption | apply frm_uMxunpack | apply Frm.ite | fail_if_no_progress apply Frm.rest) | dsimp only | split

theorem frm_execUDot {c : Fin 2048} {s z : State} (h : execUDot c s = .next z) : Frm 0 s z := by
  unfold execUDot at h
  injection h with h
  subst h
  have hk := Frm.refl 0 s
  repeat' first | intro _ | (with_reducible first | assumption | apply frm_uDot | apply Frm.ite | fail_if_no_progress apply Frm.rest) | dsimp only | split

theorem frm_execULsum {c : Fin 2048} {s z : State} (h : execULsum c s = .next z) : Frm 0 s z := by
  unfold execULsum at h
  injection h with h
  subst h
  have hk := Frm.refl 0 s
  repeat' first | intro _ | (with_reducible first | assumption | apply frm_uLsum | apply Frm.ite | fail_if_no_progress apply Frm.rest) | dsimp only | split

theorem frm_execUGmax {c : Fin 2048} {s z : State} (h : execUGmax c s = .next z) : Frm 0 s z := by
  unfold execUGmax at h
  injection h with h
  subst h
  have hk := Frm.refl 0 s
  repeat' first | intro _ | (with_reducible first | assumption | apply frm_uGmax | apply Frm.ite | fail_if_no_progress apply Frm.rest) | dsimp only | split

theorem frm_execUGq {c : Fin 2048} {s z : State} (h : execUGq c s = .next z) : Frm 0 s z := by
  unfold execUGq at h
  injection h with h
  subst h
  have hk := Frm.refl 0 s
  repeat' first | intro _ | (with_reducible first | assumption | apply frm_uGq | apply Frm.ite | fail_if_no_progress apply Frm.rest) | dsimp only | split

theorem frm_execUGadd {c : Fin 2048} {s z : State} (h : execUGadd c s = .next z) : Frm 0 s z := by
  unfold execUGadd at h
  injection h with h
  subst h
  have hk := Frm.refl 0 s
  repeat' first | intro _ | (with_reducible first | assumption | apply frm_uGadd | apply Frm.ite | fail_if_no_progress apply Frm.rest) | dsimp only | split

theorem frm_execUGrnd {c : Fin 2048} {s z : State} (h : execUGrnd c s = .next z) : Frm 0 s z := by
  unfold execUGrnd at h
  injection h with h
  subst h
  have hk := Frm.refl 0 s
  repeat' first | intro _ | (with_reducible first | assumption | apply frm_uGrnd | apply Frm.ite | fail_if_no_progress apply Frm.rest) | dsimp only | split

theorem frm_execUShuf {c : Fin 2048} {s z : State} (h : execUShuf c s = .next z) : Frm 0 s z := by
  unfold execUShuf at h
  injection h with h
  subst h
  have hk := Frm.refl 0 s
  repeat' first | intro _ | (with_reducible first | assumption | apply frm_uShuf | apply Frm.ite | fail_if_no_progress apply Frm.rest) | dsimp only | split

theorem frm_execURng {c : Fin 2048} {s z : State} (h : execURng c s = .next z) : Frm 0 s z := by
  unfold execURng at h
  injection h with h
  subst h
  have hk := Frm.refl 0 s
  repeat' first | intro _ | (with_reducible first | assumption | apply frm_uRng | apply Frm.ite | fail_if_no_progress apply Frm.rest) | dsimp only | split

theorem frm_execCellFault {c : Fin 2048} {what : CellPart} {s z : State} (h : execCellFault c what s = .next z) : Frm 0 s z := by
  unfold execCellFault at h
  injection h with h
  subst h
  have hk := Frm.refl 0 s
  repeat' first | intro _ | (with_reducible first | assumption | apply frm_cellFault | apply Frm.ite | fail_if_no_progress apply Frm.rest) | dsimp only | split

theorem frm_execFabColFence {k : Fin 128} {s z : State} (h : execFabColFence k s = .next z) : Frm 0 s z := by
  unfold execFabColFence at h
  injection h with h
  subst h
  have hk := Frm.refl 0 s
  repeat' first | intro _ | (with_reducible first | assumption | apply frm_requestColFence | apply Frm.ite | fail_if_no_progress apply Frm.rest) | dsimp only | split

theorem frm_execFabColRemap {k : Fin 128} {row : Fin 16} {s z : State} (h : execFabColRemap k row s = .next z) : Frm 0 s z := by
  unfold execFabColRemap at h
  injection h with h
  subst h
  have hk := Frm.refl 0 s
  repeat' first | intro _ | (with_reducible first | assumption | apply frm_fabColRemap | apply Frm.ite | fail_if_no_progress apply Frm.rest) | dsimp only | split

theorem frm_execCfgBcast {q : Fin 4} {cols : BitVec 32} {rows : BitVec 16} {slot : Fin 8} {img : BitVec 16384} {s z : State} (h : execCfgBcast q cols rows slot img s = .next z) : Frm 0 s z := by
  unfold execCfgBcast at h
  injection h with h
  subst h
  have hk := Frm.refl 0 s
  repeat' first | intro _ | (with_reducible first | assumption | apply frm_cfgBcast | apply Frm.ite | fail_if_no_progress apply Frm.rest) | dsimp only | split

theorem frm_execLoadImage {tag : BitVec 8} {s z : State} (h : execLoadImage tag s = .next z) : Frm 24578 s z := by
  unfold execLoadImage at h
  injection h with h
  subst h
  have hk := Frm.refl 24578 s
  have hm : Sub 24578 24578 := rfl
  repeat' first | intro _ | (with_reducible first | assumption | apply frm_mbCommand | apply frm_loadImage | apply Frm.ite | fail_if_no_progress apply Frm.rest | exact Sub.trans (b := 24578) rfl hm) | dsimp only | split

theorem frm_execWriteBootImage {tag : BitVec 8} {s z : State} (h : execWriteBootImage tag s = .next z) : Frm 24578 s z := by
  unfold execWriteBootImage at h
  injection h with h
  subst h
  have hk := Frm.refl 24578 s
  have hm : Sub 24578 24578 := rfl
  repeat' first | intro _ | (with_reducible first | assumption | apply frm_mbCommand | apply frm_writeBootImage | apply Frm.ite | fail_if_no_progress apply Frm.rest | exact Sub.trans (b := 24578) rfl hm) | dsimp only | split

theorem frm_execImageFetchDone {bytes : List Byte} {s z : State} (h : execImageFetchDone bytes s = .next z) : Frm 24578 s z := by
  unfold execImageFetchDone at h
  injection h with h
  subst h
  have hk := Frm.refl 24578 s
  have hm : Sub 24578 24578 := rfl
  repeat' first | intro _ | (with_reducible first | assumption | apply frm_imageFetchDone | apply Frm.ite | fail_if_no_progress apply Frm.rest | exact Sub.trans (b := 24578) rfl hm) | dsimp only | split

theorem frm_execImageValidationDone {s z : State} (h : execImageValidationDone s = .next z) : Frm 90114 s z := by
  unfold execImageValidationDone at h
  injection h with h
  subst h
  have hk := Frm.refl 90114 s
  have hm : Sub 90114 90114 := rfl
  repeat' first | intro _ | (with_reducible first | assumption | apply frm_imageValidationDone | apply Frm.ite | fail_if_no_progress apply Frm.rest | exact Sub.trans (b := 90114) rfl hm) | dsimp only | split

theorem frm_execFullImageActivate {s z : State} (h : execFullImageActivate s = .next z) : Frm 24719 s z := by
  unfold execFullImageActivate at h
  injection h with h
  subst h
  have hk := Frm.refl 24719 s
  have hm : Sub 24719 24719 := rfl
  repeat' first | intro _ | (with_reducible first | assumption | apply frm_fullImageActivate | apply Frm.ite | fail_if_no_progress apply Frm.rest | exact Sub.trans (b := 24719) rfl hm) | dsimp only | split

theorem frm_execPartialImageActivate {p : Fin 64} {s z : State} (h : execPartialImageActivate p s = .next z) : Frm 8328 s z := by
  unfold execPartialImageActivate at h
  injection h with h
  subst h
  have hk := Frm.refl 8328 s
  have hm : Sub 8328 8328 := rfl
  repeat' first | intro _ | (with_reducible first | assumption | apply frm_partialImageActivate | apply Frm.ite | fail_if_no_progress apply Frm.rest | exact Sub.trans (b := 8328) rfl hm) | dsimp only | split

theorem frm_execReadReport {tag : BitVec 8} {s z : State} (h : execReadReport tag s = .next z) : Frm 16384 s z := by
  unfold execReadReport at h
  injection h with h
  subst h
  have hk := Frm.refl 16384 s
  have hm : Sub 16384 16384 := rfl
  repeat' first | intro _ | (with_reducible first | assumption | apply frm_mbCommand | apply frm_readReport | apply Frm.ite | fail_if_no_progress apply Frm.rest | exact Sub.trans (b := 16384) rfl hm) | dsimp only | split

theorem frm_execHbmScrub {m : Fin 6} {found : List (Nat × Ecc)} {s z : State} (h : execHbmScrub m found s = .next z) : Frm 0 s z := by
  unfold execHbmScrub at h
  injection h with h
  subst h
  have hk := Frm.refl 0 s
  repeat' first | intro _ | (with_reducible first | assumption | apply frm_hbmScrub | apply Frm.ite | fail_if_no_progress apply Frm.rest) | dsimp only | split

theorem frm_execSramScrub {found : List (Nat × Ecc)} {s z : State} (h : execSramScrub found s = .next z) : Frm 0 s z := by
  unfold execSramScrub at h
  injection h with h
  subst h
  have hk := Frm.refl 0 s
  repeat' first | intro _ | (with_reducible first | assumption | apply frm_sramScrub | apply Frm.ite | fail_if_no_progress apply Frm.rest) | dsimp only | split

theorem frm_execHbmRecalibration {m : Fin 6} {ch : Fin 32} {trained : Bool} {s z : State} (h : execHbmRecalibration m ch trained s = .next z) : Frm 0 s z := by
  unfold execHbmRecalibration at h
  injection h with h
  subst h
  have hk := Frm.refl 0 s
  repeat' first | intro _ | (with_reducible first | assumption | apply frm_refresh | apply frm_hbmRecalibration | apply Frm.ite | fail_if_no_progress apply Frm.rest) | dsimp only | split

theorem frm_execZeroingDone {u : ZeroUnit} {ok : Bool} {s z : State} (h : execZeroingDone u ok s = .next z) : Frm 1 s z := by
  unfold execZeroingDone at h
  injection h with h
  subst h
  have hk := Frm.refl 1 s
  have hm : Sub 1 1 := rfl
  repeat' first | intro _ | (with_reducible first | assumption | apply frm_refresh | apply frm_zeroingDone | apply Frm.ite | fail_if_no_progress apply Frm.rest | exact Sub.trans (b := 1) rfl hm) | dsimp only | split

theorem frm_execRowRepair {pa : Nat} {badLines : List Nat} {s z : State} (h : execRowRepair pa badLines s = .next z) : Frm 1 s z := by
  unfold execRowRepair at h
  injection h with h
  subst h
  have hk := Frm.refl 1 s
  have hm : Sub 1 1 := rfl
  repeat' first | intro _ | (with_reducible first | assumption | apply frm_refresh | apply frm_rowRepair | apply Frm.ite | fail_if_no_progress apply Frm.rest | exact Sub.trans (b := 1) rfl hm) | dsimp only | split

theorem frm_execSrmBankFence {b : Fin 64} {s z : State} (h : execSrmBankFence b s = .next z) : Frm 0 s z := by
  unfold execSrmBankFence at h
  injection h with h
  subst h
  have hk := Frm.refl 0 s
  repeat' first | intro _ | (with_reducible first | assumption | apply frm_requestBankFence | apply Frm.ite | fail_if_no_progress apply Frm.rest) | dsimp only | split

theorem frm_execSrmBankReadmit {b : Fin 64} {s z : State} (h : execSrmBankReadmit b s = .next z) : Frm 0 s z := by
  unfold execSrmBankReadmit at h
  injection h with h
  subst h
  have hk := Frm.refl 0 s
  repeat' first | intro _ | (with_reducible first | assumption | apply frm_srmBankReadmit | apply Frm.ite | fail_if_no_progress apply Frm.rest) | dsimp only | split

theorem frm_execMemChFence {m : Fin 6} {ch : Fin 32} {s z : State} (h : execMemChFence m ch s = .next z) : Frm 0 s z := by
  unfold execMemChFence at h
  injection h with h
  subst h
  have hk := Frm.refl 0 s
  repeat' first | intro _ | (with_reducible first | assumption | apply frm_requestChanFence | apply Frm.ite | fail_if_no_progress apply Frm.rest) | dsimp only | split

theorem frm_execMemChReadmit {m : Fin 6} {ch : Fin 32} {s z : State} (h : execMemChReadmit m ch s = .next z) : Frm 0 s z := by
  unfold execMemChReadmit at h
  injection h with h
  subst h
  have hk := Frm.refl 0 s
  repeat' first | intro _ | (with_reducible first | assumption | apply frm_memChReadmit | apply Frm.ite | fail_if_no_progress apply Frm.rest) | dsimp only | split

theorem frm_execCohWinWrite {w : Fin 16} {val : Word} {s z : State} (h : execCohWinWrite w val s = .next z) : Frm 0 s z := by
  unfold execCohWinWrite at h
  injection h with h
  subst h
  have hk := Frm.refl 0 s
  repeat' first | intro _ | (with_reducible first | assumption | apply frm_cohWinWrite | apply Frm.ite | fail_if_no_progress apply Frm.rest) | dsimp only | split

theorem frm_execStackRailShort {m : Fin 6} {s z : State} (h : execStackRailShort m s = .next z) : Frm 0 s z := by
  unfold execStackRailShort at h
  injection h with h
  subst h
  have hk := Frm.refl 0 s
  repeat' first | intro _ | (with_reducible first | assumption | apply frm_refresh | apply frm_stackRailShort | apply Frm.ite | fail_if_no_progress apply Frm.rest) | dsimp only | split

theorem frm_execHubReset {x : StartIn} {s z : State} (h : execHubReset x s = .next z) : Frm 262143 s z := by
  unfold execHubReset at h
  injection h with h
  subst h
  have hk := Frm.refl 262143 s
  have hm : Sub 262143 262143 := rfl
  repeat' first | intro _ | (with_reducible first | assumption | apply frm_hubReset | apply Frm.ite | fail_if_no_progress apply Frm.rest | exact Sub.trans (b := 262143) rfl hm) | dsimp only | split

theorem frm_execStartComplete {s z : State} (h : execStartComplete s = .next z) : Frm 65536 s z := by
  unfold execStartComplete at h
  injection h with h
  subst h
  have hk := Frm.refl 65536 s
  have hm : Sub 65536 65536 := rfl
  repeat' first | intro _ | (with_reducible first | assumption | apply frm_startComplete | apply Frm.ite | fail_if_no_progress apply Frm.rest | exact Sub.trans (b := 65536) rfl hm) | dsimp only | split

theorem frm_execStartWatchdogExpiry {x : StartIn} {s z : State} (h : execStartWatchdogExpiry x s = .next z) : Frm 262143 s z := by
  unfold execStartWatchdogExpiry at h
  injection h with h
  subst h
  have hk := Frm.refl 262143 s
  have hm : Sub 262143 262143 := rfl
  repeat' first | intro _ | (with_reducible first | assumption | apply frm_hubReset | apply Frm.ite | fail_if_no_progress apply Frm.rest | exact Sub.trans (b := 262143) rfl hm) | dsimp only | split

theorem frm_execLcsRequest {path : LcsPath} {target : BitVec 3} {burn : Burn} {s z : State} (h : execLcsRequest path target burn s = .next z) : Frm 262142 s z := by
  unfold execLcsRequest at h
  injection h with h
  subst h
  have hk := Frm.refl 262142 s
  have hm : Sub 262142 262142 := rfl
  repeat' first | intro _ | (with_reducible first | assumption | apply frm_lcsRequest | apply Frm.ite | fail_if_no_progress apply Frm.rest | exact Sub.trans (b := 262142) rfl hm) | dsimp only | split

theorem frm_execOtpProgram {path : LcsPath} {tag : BitVec 8} {field : Nat} {value : List Byte} {burn : Burn} {s z : State} (h : execOtpProgram path tag field value burn s = .next z) : Frm 16402 s z := by
  unfold execOtpProgram at h
  injection h with h
  subst h
  have hk := Frm.refl 16402 s
  have hm : Sub 16402 16402 := rfl
  repeat' first | intro _ | (with_reducible first | assumption | apply frm_mbCommand | apply frm_otpProgram | apply frm_otpProgramBar0 | apply Frm.ite | fail_if_no_progress apply Frm.rest | exact Sub.trans (b := 16402) rfl hm) | dsimp only | split

theorem frm_execOpenErase {s z : State} (h : execOpenErase s = .next z) : Frm 80 s z := by
  unfold execOpenErase at h
  injection h with h
  subst h
  have hk := Frm.refl 80 s
  have hm : Sub 80 80 := rfl
  repeat' first | intro _ | (with_reducible first | assumption | apply frm_refresh | apply frm_openErase | apply Frm.ite | fail_if_no_progress apply Frm.rest | exact Sub.trans (b := 80) rfl hm) | dsimp only | split

theorem frm_execOpenCert {cert : BitVec 2048} {s z : State} (h : execOpenCert cert s = .next z) : Frm 80 s z := by
  unfold execOpenCert at h
  injection h with h
  subst h
  have hk := Frm.refl 80 s
  have hm : Sub 80 80 := rfl
  repeat' first | intro _ | (with_reducible first | assumption | apply frm_refresh | apply frm_openCert | apply Frm.ite | fail_if_no_progress apply Frm.rest | exact Sub.trans (b := 80) rfl hm) | dsimp only | split

theorem frm_execTapClose {s z : State} (h : execTapClose s = .next z) : Frm 64 s z := by
  unfold execTapClose at h
  injection h with h
  subst h
  have hk := Frm.refl 64 s
  have hm : Sub 64 64 := rfl
  repeat' first | intro _ | (with_reducible first | assumption | apply frm_refresh | apply frm_closeDebug | apply Frm.ite | fail_if_no_progress apply Frm.rest | exact Sub.trans (b := 64) rfl hm) | dsimp only | split

theorem frm_execDbgClose {s z : State} (h : execDbgClose s = .next z) : Frm 64 s z := by
  unfold execDbgClose at h
  injection h with h
  subst h
  have hk := Frm.refl 64 s
  have hm : Sub 64 64 := rfl
  repeat' first | intro _ | (with_reducible first | assumption | apply frm_refresh | apply frm_closeDebug | apply Frm.ite | fail_if_no_progress apply Frm.rest | exact Sub.trans (b := 64) rfl hm) | dsimp only | split

theorem frm_execDebugDurationExpiry {nonce : BitVec 256} {s z : State} (h : execDebugDurationExpiry nonce s = .next z) : Frm 64 s z := by
  unfold execDebugDurationExpiry at h
  injection h with h
  subst h
  have hk := Frm.refl 64 s
  have hm : Sub 64 64 := rfl
  repeat' first | intro _ | (with_reducible first | assumption | apply frm_refresh | apply frm_endDebug | apply Frm.ite | fail_if_no_progress apply Frm.rest | exact Sub.trans (b := 64) rfl hm) | dsimp only | split

theorem frm_execTapBypass {tdi : Bool} {s z : State} (h : execTapBypass tdi s = .next z) : Frm 64 s z := by
  unfold execTapBypass at h
  injection h with h
  subst h
  have hk := Frm.refl 64 s
  have hm : Sub 64 64 := rfl
  repeat' first | intro _ | (with_reducible first | assumption | apply frm_tapShift | apply Frm.ite | fail_if_no_progress apply Frm.rest | exact Sub.trans (b := 64) rfl hm) | dsimp only | split

theorem frm_execTapIdcode {s z : State} (h : execTapIdcode s = .next z) : Frm 64 s z := by
  unfold execTapIdcode at h
  injection h with h
  subst h
  have hk := Frm.refl 64 s
  have hm : Sub 64 64 := rfl
  repeat' first | intro _ | (with_reducible first | assumption | apply frm_tapShift | apply Frm.ite | fail_if_no_progress apply Frm.rest | exact Sub.trans (b := 64) rfl hm) | dsimp only | split

theorem frm_execTapExtest {drive : BitVec 64} {s z : State} (h : execTapExtest drive s = .next z) : Frm 64 s z := by
  unfold execTapExtest at h
  injection h with h
  subst h
  have hk := Frm.refl 64 s
  have hm : Sub 64 64 := rfl
  repeat' first | intro _ | (with_reducible first | assumption | apply Frm.ite | fail_if_no_progress apply Frm.rest | exact Sub.trans (b := 64) rfl hm) | dsimp only | split | (with_reducible first | apply Frm.ch6)

theorem frm_execTapSamplePreload {pins preload : BitVec 64} {s z : State} (h : execTapSamplePreload pins preload s = .next z) : Frm 64 s z := by
  unfold execTapSamplePreload at h
  injection h with h
  subst h
  have hk := Frm.refl 64 s
  have hm : Sub 64 64 := rfl
  repeat' first | intro _ | (with_reducible first | assumption | apply frm_tapShift | apply Frm.ite | fail_if_no_progress apply Frm.rest | exact Sub.trans (b := 64) rfl hm) | dsimp only | split | (with_reducible first | apply Frm.ch6)

theorem frm_execMgtHalt {op : HaltOp} {s z : State} (h : execMgtHalt op s = .next z) : Frm 0 s z := by
  unfold execMgtHalt at h
  injection h with h
  subst h
  have hk := Frm.refl 0 s
  repeat' first | intro _ | (with_reducible first | assumption | apply frm_fclkToMin | apply Frm.ite | fail_if_no_progress apply Frm.rest) | dsimp only | split

theorem frm_execHbmHardRepair {row : BitVec 32} {s z : State} (h : execHbmHardRepair row s = .next z) : Frm 0 s z := by
  unfold execHbmHardRepair at h
  injection h with h
  subst h
  have hk := Frm.refl 0 s
  repeat' first | intro _ | (with_reducible first | assumption | apply frm_hbmHardRepair | apply Frm.ite | fail_if_no_progress apply Frm.rest) | dsimp only | split

theorem frm_execStlTrainingDone {p : Fin 8} {tr : Training} {s z : State} (h : execStlTrainingDone p tr s = .next z) : Frm 0 s z := by
  unfold execStlTrainingDone at h
  injection h with h
  subst h
  have hk := Frm.refl 0 s
  repeat' first | intro _ | (with_reducible first | assumption | apply frm_stlTrainingDone | apply Frm.ite | fail_if_no_progress apply Frm.rest) | dsimp only | split

theorem frm_execStlTrainingTimeout {p : Fin 8} {s z : State} (h : execStlTrainingTimeout p s = .next z) : Frm 0 s z := by
  unfold execStlTrainingTimeout at h
  injection h with h
  subst h
  have hk := Frm.refl 0 s
  repeat' first | intro _ | (with_reducible first | assumption | apply frm_stlTrainingTimeout | apply Frm.ite | fail_if_no_progress apply Frm.rest) | dsimp only | split

theorem frm_execStlLinkLoss {p : Fin 8} {s z : State} (h : execStlLinkLoss p s = .next z) : Frm 0 s z := by
  unfold execStlLinkLoss at h
  injection h with h
  subst h
  have hk := Frm.refl 0 s
  repeat' first | intro _ | (with_reducible first | assumption | apply frm_retrain | apply Frm.ite | fail_if_no_progress apply Frm.rest) | dsimp only | split

theorem frm_execStlRetrainDone {p : Fin 8} {tr : Training} {s z : State} (h : execStlRetrainDone p tr s = .next z) : Frm 0 s z := by
  unfold execStlRetrainDone at h
  injection h with h
  subst h
  have hk := Frm.refl 0 s
  repeat' first | intro _ | (with_reducible first | assumption | apply frm_stlRetrainDone | apply Frm.ite | fail_if_no_progress apply Frm.rest) | dsimp only | split

theorem frm_execStlRetrainTimeout {p : Fin 8} {s z : State} (h : execStlRetrainTimeout p s = .next z) : Frm 0 s z := by
  unfold execStlRetrainTimeout at h
  injection h with h
  subst h
  have hk := Frm.refl 0 s
  repeat' first | intro _ | (with_reducible first | assumption | apply frm_stlRetrainTimeout | apply Frm.ite | fail_if_no_progress apply Frm.rest) | dsimp only | split

theorem frm_execStlPortFence {p : Fin 8} {s z : State} (h : execStlPortFence p s = .next z) : Frm 0 s z := by
  unfold execStlPortFence at h
  injection h with h
  subst h
  have hk := Frm.refl 0 s
  repeat' first | intro _ | (with_reducible first | assumption | apply frm_stlPortFence | apply Frm.ite | fail_if_no_progress apply Frm.rest) | dsimp only | split

theorem frm_execStlPortReadmit {p : Fin 8} {s z : State} (h : execStlPortReadmit p s = .next z) : Frm 0 s z := by
  unfold execStlPortReadmit at h
  injection h with h
  subst h
  have hk := Frm.refl 0 s
  repeat' first | intro _ | (with_reducible first | assumption | apply frm_stlPortReadmit | apply Frm.ite | fail_if_no_progress apply Frm.rest) | dsimp only | split

theorem frm_execStlPortRetrain {p : Fin 8} {s z : State} (h : execStlPortRetrain p s = .next z) : Frm 0 s z := by
  unfold execStlPortRetrain at h
  injection h with h
  subst h
  have hk := Frm.refl 0 s
  repeat' first | intro _ | (with_reducible first | assumption | apply frm_retrain | apply Frm.ite | fail_if_no_progress apply Frm.rest) | dsimp only | split

theorem frm_execSlotReceive {p : Fin 8} {sl : Slot} {codewordOk : Bool} {s z : State} (h : execSlotReceive p sl codewordOk s = .next z) : Frm 0 s z := by
  unfold execSlotReceive at h
  injection h with h
  subst h
  have hk := Frm.refl 0 s
  repeat' first | intro _ | (with_reducible first | assumption | apply frm_slotReceive | apply Frm.ite | fail_if_no_progress apply Frm.rest) | dsimp only | split

theorem frm_execNakBlock {p : Fin 8} {blk : BitVec 128} {s z : State} (h : execNakBlock p blk s = .next z) : Frm 0 s z := by
  unfold execNakBlock at h
  injection h with h
  subst h
  have hk := Frm.refl 0 s
  repeat' first | intro _ | (with_reducible first | assumption | apply frm_nakBlock | apply Frm.ite | fail_if_no_progress apply Frm.rest) | dsimp only | split

theorem frm_execAbortBlock {p : Fin 8} {blk : BitVec 128} {s z : State} (h : execAbortBlock p blk s = .next z) : Frm 0 s z := by
  unfold execAbortBlock at h
  injection h with h
  subst h
  have hk := Frm.refl 0 s
  repeat' first | intro _ | (with_reducible first | assumption | apply frm_abortBlock | apply Frm.ite | fail_if_no_progress apply Frm.rest) | dsimp only | split

theorem frm_execStlCredit {p : Fin 8} {blk : BitVec 128} {s z : State} (h : execStlCredit p blk s = .next z) : Frm 0 s z := by
  unfold execStlCredit at h
  injection h with h
  subst h
  have hk := Frm.refl 0 s
  repeat' first | intro _ | (with_reducible first | assumption | apply frm_stlCredit | apply Frm.ite | fail_if_no_progress apply Frm.rest) | dsimp only | split

theorem frm_execLinkBlock {p : Fin 8} {blk : BitVec 128} {s z : State} (h : execLinkBlock p blk s = .next z) : Frm 0 s z := by
  unfold execLinkBlock at h
  injection h with h
  subst h
  have hk := Frm.refl 0 s
  repeat' first | intro _ | (with_reducible first | assumption | apply frm_linkBlock | apply Frm.ite | fail_if_no_progress apply Frm.rest) | dsimp only | split

theorem frm_execSerdesRefclkLost {east : Bool} {s z : State} (h : execSerdesRefclkLost east s = .next z) : Frm 0 s z := by
  unfold execSerdesRefclkLost at h
  injection h with h
  subst h
  have hk := Frm.refl 0 s
  repeat' first | intro _ | (with_reducible first | assumption | apply frm_serdesRefclkLost | apply Frm.ite | fail_if_no_progress apply Frm.rest) | dsimp only | split

theorem frm_execPowerControlTick {x : PowerIn} {s z : State} (h : execPowerControlTick x s = .next z) : Frm 262142 s z := by
  unfold execPowerControlTick at h
  injection h with h
  subst h
  have hk := Frm.refl 262142 s
  have hm : Sub 262142 262142 := rfl
  repeat' first | intro _ | (with_reducible first | assumption | apply frm_refresh | apply frm_powerControlTick | apply Frm.ite | fail_if_no_progress apply Frm.rest | exact Sub.trans (b := 262142) rfl hm) | dsimp only | split

theorem frm_execPowerSample1ms {est meas vin : Nat} {s z : State} (h : execPowerSample1ms est meas vin s = .next z) : Frm 0 s z := by
  unfold execPowerSample1ms at h
  injection h with h
  subst h
  have hk := Frm.refl 0 s
  repeat' first | intro _ | (with_reducible first | assumption | apply frm_powerSample | apply Frm.ite | fail_if_no_progress apply Frm.rest) | dsimp only | split

theorem frm_execCalibrationUpdate {s z : State} (h : execCalibrationUpdate s = .next z) : Frm 0 s z := by
  unfold execCalibrationUpdate at h
  injection h with h
  subst h
  have hk := Frm.refl 0 s
  repeat' first | intro _ | (with_reducible first | assumption | apply frm_calibrationUpdate | apply Frm.ite | fail_if_no_progress apply Frm.rest) | dsimp only | split

theorem frm_execTileFail {t : Fin 8} {s z : State} (h : execTileFail t s = .next z) : Frm 0 s z := by
  unfold execTileFail at h
  injection h with h
  subst h
  have hk := Frm.refl 0 s
  repeat' first | intro _ | (with_reducible first | assumption | apply frm_tileFail | apply Frm.ite | fail_if_no_progress apply Frm.rest) | dsimp only | split

theorem frm_execInputCurrentTrip {s z : State} (h : execInputCurrentTrip s = .next z) : Frm 262126 s z := by
  unfold execInputCurrentTrip at h
  injection h with h
  subst h
  have hk := Frm.refl 262126 s
  have hm : Sub 262126 262126 := rfl
  repeat' first | intro _ | (with_reducible first | assumption | apply frm_unpower | apply Frm.ite | fail_if_no_progress apply Frm.rest | exact Sub.trans (b := 262126) rfl hm) | dsimp only | split

theorem frm_execInputUndervoltage {s z : State} (h : execInputUndervoltage s = .next z) : Frm 262126 s z := by
  unfold execInputUndervoltage at h
  injection h with h
  subst h
  have hk := Frm.refl 262126 s
  have hm : Sub 262126 262126 := rfl
  repeat' first | intro _ | (with_reducible first | assumption | apply frm_unpower | apply Frm.ite | fail_if_no_progress apply Frm.rest | exact Sub.trans (b := 262126) rfl hm) | dsimp only | split

theorem frm_execInputOvervoltage {s z : State} (h : execInputOvervoltage s = .next z) : Frm 262126 s z := by
  unfold execInputOvervoltage at h
  injection h with h
  subst h
  have hk := Frm.refl 262126 s
  have hm : Sub 262126 262126 := rfl
  repeat' first | intro _ | (with_reducible first | assumption | apply frm_unpower | apply Frm.ite | fail_if_no_progress apply Frm.rest | exact Sub.trans (b := 262126) rfl hm) | dsimp only | split

theorem frm_execPowerOn {s z : State} (h : execPowerOn s = .next z) : Frm 262126 s z := by
  unfold execPowerOn at h
  injection h with h
  subst h
  have hk := Frm.refl 262126 s
  have hm : Sub 262126 262126 := rfl
  repeat' first | intro _ | (with_reducible first | assumption | apply frm_repower | apply Frm.ite | fail_if_no_progress apply Frm.rest | exact Sub.trans (b := 262126) rfl hm) | dsimp only | split

theorem frm_execTileRestart {x : StartIn} {s z : State} (h : execTileRestart x s = .next z) : Frm 262143 s z := by
  unfold execTileRestart at h
  injection h with h
  subst h
  have hk := Frm.refl 262143 s
  have hm : Sub 262143 262143 := rfl
  repeat' first | intro _ | (with_reducible first | assumption | apply frm_hubReset | apply frm_repower | apply Frm.ite | fail_if_no_progress apply Frm.rest | exact Sub.trans (b := 262143) rfl hm) | dsimp only | split

theorem frm_execSupplyDroop {island : Fin 16} {s z : State} (h : execSupplyDroop island s = .next z) : Frm 0 s z := by
  unfold execSupplyDroop at h
  injection h with h
  subst h
  have hk := Frm.refl 0 s
  repeat' first | intro _ | (with_reducible first | assumption | apply Frm.ite | fail_if_no_progress apply Frm.rest) | dsimp only | split

theorem frm_execDroopStretchEnd {island : Fin 16} {s z : State} (h : execDroopStretchEnd island s = .next z) : Frm 0 s z := by
  unfold execDroopStretchEnd at h
  injection h with h
  subst h
  have hk := Frm.refl 0 s
  repeat' first | intro _ | (with_reducible first | assumption | apply Frm.ite | fail_if_no_progress apply Frm.rest) | dsimp only | split

theorem frm_execFclkAdjust {mean100ms : Nat} {below8For1s : Bool} {s z : State} (h : execFclkAdjust mean100ms below8For1s s = .next z) : Frm 0 s z := by
  unfold execFclkAdjust at h
  injection h with h
  subst h
  have hk := Frm.refl 0 s
  repeat' first | intro _ | (with_reducible first | assumption | apply frm_fclkAdjust | apply Frm.ite | fail_if_no_progress apply Frm.rest) | dsimp only | split

theorem frm_execThrotNAssert {s z : State} (h : execThrotNAssert s = .next z) : Frm 0 s z := by
  unfold execThrotNAssert at h
  injection h with h
  subst h
  have hk := Frm.refl 0 s
  repeat' first | intro _ | (with_reducible first | assumption | apply frm_raise | apply Frm.ite | fail_if_no_progress apply Frm.rest) | dsimp only | split

theorem frm_execThrotNRelease {s z : State} (h : execThrotNRelease s = .next z) : Frm 0 s z := by
  unfold execThrotNRelease at h
  injection h with h
  subst h
  have hk := Frm.refl 0 s
  repeat' first | intro _ | (with_reducible first | assumption | apply Frm.ite | fail_if_no_progress apply Frm.rest) | dsimp only | split

theorem frm_execRackBudgetSet {watts : Nat} {s z : State} (h : execRackBudgetSet watts s = .next z) : Frm 0 s z := by
  unfold execRackBudgetSet at h
  injection h with h
  subst h
  have hk := Frm.refl 0 s
  repeat' first | intro _ | (with_reducible first | assumption | apply frm_setRack | apply Frm.ite | fail_if_no_progress apply Frm.rest) | dsimp only | split

theorem frm_execPowerOverride {x : PowerSet} {s z : State} (h : execPowerOverride x s = .next z) : Frm 128 s z := by
  unfold execPowerOverride at h
  injection h with h
  subst h
  have hk := Frm.refl 128 s
  have hm : Sub 128 128 := rfl
  repeat' first | intro _ | (with_reducible first | assumption | apply frm_powerOverride | apply Frm.ite | fail_if_no_progress apply Frm.rest | exact Sub.trans (b := 128) rfl hm) | dsimp only | split

theorem frm_execThermalSample {sensor : Fin 256} {quarters : Int} {s z : State} (h : execThermalSample sensor quarters s = .next z) : Frm 262126 s z := by
  unfold execThermalSample at h
  injection h with h
  subst h
  have hk := Frm.refl 262126 s
  have hm : Sub 262126 262126 := rfl
  repeat' first | intro _ | (with_reducible first | assumption | apply frm_refresh | apply frm_thermalSample | apply Frm.ite | fail_if_no_progress apply Frm.rest | exact Sub.trans (b := 262126) rfl hm) | dsimp only | split

theorem frm_execHbmTempSample {m : Fin 6} {quarters : Int} {s z : State} (h : execHbmTempSample m quarters s = .next z) : Frm 128 s z := by
  unfold execHbmTempSample at h
  injection h with h
  subst h
  have hk := Frm.refl 128 s
  have hm : Sub 128 128 := rfl
  repeat' first | intro _ | (with_reducible first | assumption | apply frm_refresh | apply frm_hbmTempSample | apply Frm.ite | fail_if_no_progress apply Frm.rest | exact Sub.trans (b := 128) rfl hm) | dsimp only | split

theorem frm_execFwUpdate {tag : BitVec 8} {bytes : List Byte} {s z : State} (h : execFwUpdate tag bytes s = .next z) : Frm 81922 s z := by
  unfold execFwUpdate at h
  injection h with h
  subst h
  have hk := Frm.refl 81922 s
  have hm : Sub 81922 81922 := rfl
  repeat' first | intro _ | (with_reducible first | assumption | apply frm_mbCommand | apply frm_fwUpdate | apply Frm.ite | fail_if_no_progress apply Frm.rest | exact Sub.trans (b := 81922) rfl hm) | dsimp only | split

theorem frm_execFlashWriteDone {ok : Bool} {s z : State} (h : execFlashWriteDone ok s = .next z) : Frm 262142 s z := by
  unfold execFlashWriteDone at h
  injection h with h
  subst h
  have hk := Frm.refl 262142 s
  have hm : Sub 262142 262142 := rfl
  repeat' first | intro _ | (with_reducible first | assumption | apply frm_refresh | apply frm_flashWriteDone | apply Frm.ite | fail_if_no_progress apply Frm.rest | exact Sub.trans (b := 262142) rfl hm) | dsimp only | split

theorem frm_execMbStatus {tag : BitVec 8} {s z : State} (h : execMbStatus tag s = .next z) : Frm 16384 s z := by
  unfold execMbStatus at h
  injection h with h
  subst h
  have hk := Frm.refl 16384 s
  have hm : Sub 16384 16384 := rfl
  repeat' first | intro _ | (with_reducible first | assumption | apply frm_mbEnd | apply frm_mbCommand | apply Frm.ite | fail_if_no_progress apply Frm.rest | exact Sub.trans (b := 16384) rfl hm) | dsimp only | split

theorem frm_execPeelCancel {tag : BitVec 8} {s z : State} (h : execPeelCancel tag s = .next z) : Frm 16384 s z := by
  unfold execPeelCancel at h
  injection h with h
  subst h
  have hk := Frm.refl 16384 s
  have hm : Sub 16384 16384 := rfl
  repeat' first | intro _ | (with_reducible first | assumption | apply frm_mbCommand | apply frm_peelCancel | apply Frm.ite | fail_if_no_progress apply Frm.rest | exact Sub.trans (b := 16384) rfl hm) | dsimp only | split

theorem frm_execAdvanceRollback {tag : BitVec 8} {s z : State} (h : execAdvanceRollback tag s = .next z) : Frm 16400 s z := by
  unfold execAdvanceRollback at h
  injection h with h
  subst h
  have hk := Frm.refl 16400 s
  have hm : Sub 16400 16400 := rfl
  repeat' first | intro _ | (with_reducible first | assumption | apply frm_mbCommand | apply frm_advanceRollback | apply Frm.ite | fail_if_no_progress apply Frm.rest | exact Sub.trans (b := 16400) rfl hm) | dsimp only | split

theorem frm_execRetryStart {tag : BitVec 8} {s z : State} (h : execRetryStart tag s = .next z) : Frm 262126 s z := by
  unfold execRetryStart at h
  injection h with h
  subst h
  have hk := Frm.refl 262126 s
  have hm : Sub 262126 262126 := rfl
  repeat' first | intro _ | (with_reducible first | assumption | apply frm_mbCommand | apply frm_retryStart | apply Frm.ite | fail_if_no_progress apply Frm.rest | exact Sub.trans (b := 262126) rfl hm) | dsimp only | split

theorem frm_execRecoveryLoadBegin {tag : BitVec 8} {s z : State} (h : execRecoveryLoadBegin tag s = .next z) : Frm 81920 s z := by
  unfold execRecoveryLoadBegin at h
  injection h with h
  subst h
  have hk := Frm.refl 81920 s
  have hm : Sub 81920 81920 := rfl
  repeat' first | intro _ | (with_reducible first | assumption | apply frm_mbCommand | apply frm_recoveryBegin | apply Frm.ite | fail_if_no_progress apply Frm.rest | exact Sub.trans (b := 81920) rfl hm) | dsimp only | split

theorem frm_execRecoveryLoadRun {tag : BitVec 8} {s z : State} (h : execRecoveryLoadRun tag s = .next z) : Frm 81920 s z := by
  unfold execRecoveryLoadRun at h
  injection h with h
  subst h
  have hk := Frm.refl 81920 s
  have hm : Sub 81920 81920 := rfl
  repeat' first | intro _ | (with_reducible first | assumption | apply frm_mbCommand | apply frm_recoveryRun | apply Frm.ite | fail_if_no_progress apply Frm.rest | exact Sub.trans (b := 81920) rfl hm) | dsimp only | split

theorem frm_execRcvDataWrite {val : Word} {s z : State} (h : execRcvDataWrite val s = .next z) : Frm 65536 s z := by
  unfold execRcvDataWrite at h
  injection h with h
  subst h
  have hk := Frm.refl 65536 s
  have hm : Sub 65536 65536 := rfl
  repeat' first | intro _ | (with_reducible first | assumption | apply frm_rcvDataWrite | apply Frm.ite | fail_if_no_progress apply Frm.rest | exact Sub.trans (b := 65536) rfl hm) | dsimp only | split

theorem frm_execRequestCold {tag : BitVec 8} {s z : State} (h : execRequestCold tag s = .next z) : Frm 81920 s z := by
  unfold execRequestCold at h
  injection h with h
  subst h
  have hk := Frm.refl 81920 s
  have hm : Sub 81920 81920 := rfl
  repeat' first | intro _ | (with_reducible first | assumption | apply frm_mbEnd | apply frm_mbCommand | apply Frm.ite | fail_if_no_progress apply Frm.rest | exact Sub.trans (b := 81920) rfl hm) | dsimp only | split | (with_reducible first | apply Frm.ch16)

theorem frm_execMbReservedOpcode {tag opcode : BitVec 8} {s z : State} (h : execMbReservedOpcode tag opcode s = .next z) : Frm 16384 s z := by
  unfold execMbReservedOpcode at h
  injection h with h
  subst h
  have hk := Frm.refl 16384 s
  have hm : Sub 16384 16384 := rfl
  repeat' first | intro _ | (with_reducible first | assumption | apply frm_mbEnd | apply frm_mbCommand | apply Frm.ite | fail_if_no_progress apply Frm.rest | exact Sub.trans (b := 16384) rfl hm) | dsimp only | split

theorem frm_execPldmGetTid {s z : State} (h : execPldmGetTid s = .next z) : Frm 65536 s z := by
  unfold execPldmGetTid at h
  injection h with h
  subst h
  have hk := Frm.refl 65536 s
  have hm : Sub 65536 65536 := rfl
  repeat' first | intro _ | (with_reducible first | assumption | apply frm_pldmRequest | apply Frm.ite | fail_if_no_progress apply Frm.rest | exact Sub.trans (b := 65536) rfl hm) | dsimp only | split

theorem frm_execPldmGetPldmVersion {type : BitVec 8} {s z : State} (h : execPldmGetPldmVersion type s = .next z) : Frm 65536 s z := by
  unfold execPldmGetPldmVersion at h
  injection h with h
  subst h
  have hk := Frm.refl 65536 s
  have hm : Sub 65536 65536 := rfl
  repeat' first | intro _ | (with_reducible first | assumption | apply frm_pldmRequest | apply Frm.ite | fail_if_no_progress apply Frm.rest | exact Sub.trans (b := 65536) rfl hm) | dsimp only | split

theorem frm_execPldmGetPldmTypes {s z : State} (h : execPldmGetPldmTypes s = .next z) : Frm 65536 s z := by
  unfold execPldmGetPldmTypes at h
  injection h with h
  subst h
  have hk := Frm.refl 65536 s
  have hm : Sub 65536 65536 := rfl
  repeat' first | intro _ | (with_reducible first | assumption | apply frm_pldmRequest | apply Frm.ite | fail_if_no_progress apply Frm.rest | exact Sub.trans (b := 65536) rfl hm) | dsimp only | split

theorem frm_execPldmGetPldmCommands {type : BitVec 8} {s z : State} (h : execPldmGetPldmCommands type s = .next z) : Frm 65536 s z := by
  unfold execPldmGetPldmCommands at h
  injection h with h
  subst h
  have hk := Frm.refl 65536 s
  have hm : Sub 65536 65536 := rfl
  repeat' first | intro _ | (with_reducible first | assumption | apply frm_pldmRequest | apply Frm.ite | fail_if_no_progress apply Frm.rest | exact Sub.trans (b := 65536) rfl hm) | dsimp only | split

theorem frm_execPldmSensorRead {sensor : Nat} {s z : State} (h : execPldmSensorRead sensor s = .next z) : Frm 65536 s z := by
  unfold execPldmSensorRead at h
  injection h with h
  subst h
  have hk := Frm.refl 65536 s
  have hm : Sub 65536 65536 := rfl
  repeat' first | intro _ | (with_reducible first | assumption | apply frm_pldmRequest | apply Frm.ite | fail_if_no_progress apply Frm.rest | exact Sub.trans (b := 65536) rfl hm) | dsimp only | split

theorem frm_execPldmFwTransfer {recovery : Bool} {bytes : List Byte} {s z : State} (h : execPldmFwTransfer recovery bytes s = .next z) : Frm 65536 s z := by
  unfold execPldmFwTransfer at h
  injection h with h
  subst h
  have hk := Frm.refl 65536 s
  have hm : Sub 65536 65536 := rfl
  repeat' first | intro _ | (with_reducible first | assumption | apply frm_refresh | apply frm_pldmRequest | apply Frm.ite | fail_if_no_progress apply Frm.rest | exact Sub.trans (b := 65536) rfl hm) | dsimp only | split

theorem frm_execPldmActivateFirmware {selfContained : Bool} {s z : State} (h : execPldmActivateFirmware selfContained s = .next z) : Frm 65536 s z := by
  unfold execPldmActivateFirmware at h
  injection h with h
  subst h
  have hk := Frm.refl 65536 s
  have hm : Sub 65536 65536 := rfl
  repeat' first | intro _ | (with_reducible first | assumption | apply frm_refresh | apply frm_pldmRequest | apply Frm.ite | fail_if_no_progress apply Frm.rest | exact Sub.trans (b := 65536) rfl hm) | dsimp only | split

theorem frm_execPeelDeferCheck {s z : State} (h : execPeelDeferCheck s = .next z) : Frm 0 s z := by
  unfold execPeelDeferCheck at h
  injection h with h
  subst h
  have hk := Frm.refl 0 s
  repeat' first | intro _ | (with_reducible first | assumption | apply frm_peelDeferCheck | apply Frm.ite | fail_if_no_progress apply Frm.rest) | dsimp only | split

theorem frm_execPeelDeferLong {s z : State} (h : execPeelDeferLong s = .next z) : Frm 0 s z := by
  unfold execPeelDeferLong at h
  injection h with h
  subst h
  have hk := Frm.refl 0 s
  repeat' first | intro _ | (with_reducible first | assumption | apply frm_writeLog | apply frm_raise | apply Frm.ite | fail_if_no_progress apply Frm.rest) | dsimp only | split

theorem frm_execPeelFreeze {s z : State} (h : execPeelFreeze s = .next z) : Frm 262142 s z := by
  unfold execPeelFreeze at h
  injection h with h
  subst h
  have hk := Frm.refl 262142 s
  have hm : Sub 262142 262142 := rfl
  repeat' first | intro _ | (with_reducible first | assumption | apply frm_peelFreeze | apply Frm.ite | fail_if_no_progress apply Frm.rest | exact Sub.trans (b := 262142) rfl hm) | dsimp only | split

theorem frm_execPeelJump {s z : State} (h : execPeelJump s = .next z) : Frm 262142 s z := by
  unfold execPeelJump at h
  injection h with h
  subst h
  have hk := Frm.refl 262142 s
  have hm : Sub 262142 262142 := rfl
  repeat' first | intro _ | (with_reducible first | assumption | apply frm_refresh | apply frm_peelJump | apply Frm.ite | fail_if_no_progress apply Frm.rest | exact Sub.trans (b := 262142) rfl hm) | dsimp only | split

theorem frm_execPeelResume {s z : State} (h : execPeelResume s = .next z) : Frm 262142 s z := by
  unfold execPeelResume at h
  injection h with h
  subst h
  have hk := Frm.refl 262142 s
  have hm : Sub 262142 262142 := rfl
  repeat' first | intro _ | (with_reducible first | assumption | apply frm_refresh | apply frm_peelResume | apply Frm.ite | fail_if_no_progress apply Frm.rest | exact Sub.trans (b := 262142) rfl hm) | dsimp only | split

theorem frm_execPeelResumeTimeout {rejected : Bool} {s z : State} (h : execPeelResumeTimeout rejected s = .next z) : Frm 262142 s z := by
  unfold execPeelResumeTimeout at h
  injection h with h
  subst h
  have hk := Frm.refl 262142 s
  have hm : Sub 262142 262142 := rfl
  repeat' first | intro _ | (with_reducible first | assumption | apply frm_refresh | apply frm_peelResumeTimeout | apply Frm.ite | fail_if_no_progress apply Frm.rest | exact Sub.trans (b := 262142) rfl hm) | dsimp only | split

theorem frm_execPeelCommit {flashOk : Bool} {s z : State} (h : execPeelCommit flashOk s = .next z) : Frm 65536 s z := by
  unfold execPeelCommit at h
  injection h with h
  subst h
  have hk := Frm.refl 65536 s
  have hm : Sub 65536 65536 := rfl
  repeat' first | intro _ | (with_reducible first | assumption | apply frm_refresh | apply frm_peelCommit | apply Frm.ite | fail_if_no_progress apply Frm.rest | exact Sub.trans (b := 65536) rfl hm) | dsimp only | split

theorem frm_execMgtWatchdogExpiry {s z : State} (h : execMgtWatchdogExpiry s = .next z) : Frm 90114 s z := by
  unfold execMgtWatchdogExpiry at h
  injection h with h
  subst h
  have hk := Frm.refl 90114 s
  have hm : Sub 90114 90114 := rfl
  repeat' first | intro _ | (with_reducible first | assumption | apply frm_refresh | apply frm_mgtWatchdog | apply Frm.ite | fail_if_no_progress apply Frm.rest | exact Sub.trans (b := 90114) rfl hm) | dsimp only | split

theorem frm_execHandoverRecordWrite {s z : State} (h : execHandoverRecordWrite s = .next z) : Frm 0 s z := by
  unfold execHandoverRecordWrite at h
  injection h with h
  subst h
  have hk := Frm.refl 0 s
  repeat' first | intro _ | (with_reducible first | assumption | apply frm_writeRecord | apply Frm.ite | fail_if_no_progress apply Frm.rest) | dsimp only | split

theorem frm_execSealOpen {v : Fin 1024} {s z : State} (h : execSealOpen v s = .next z) : Frm 0 s z := by
  unfold execSealOpen at h
  injection h with h
  subst h
  have hk := Frm.refl 0 s
  repeat' first | intro _ | (with_reducible first | assumption | apply frm_sealOpenStart | apply Frm.ite | fail_if_no_progress apply Frm.rest) | dsimp only | split

theorem frm_execSealOpenComplete {v : Fin 1024} {s z : State} (h : execSealOpenComplete v s = .next z) : Frm 0 s z := by
  unfold execSealOpenComplete at h
  injection h with h
  subst h
  have hk := Frm.refl 0 s
  repeat' first | intro _ | (with_reducible first | assumption | apply frm_sealOpenComplete | apply Frm.ite | fail_if_no_progress apply Frm.rest) | dsimp only | split

theorem frm_execSealClose {v : Fin 1024} {s z : State} (h : execSealClose v s = .next z) : Frm 0 s z := by
  unfold execSealClose at h
  injection h with h
  subst h
  have hk := Frm.refl 0 s
  repeat' first | intro _ | (with_reducible first | assumption | apply frm_refresh | apply frm_endSession | apply Frm.ite | fail_if_no_progress apply Frm.rest) | dsimp only | split

theorem frm_execSecSealClose {v : Fin 1024} {s z : State} (h : execSecSealClose v s = .next z) : Frm 0 s z := by
  unfold execSecSealClose at h
  injection h with h
  subst h
  have hk := Frm.refl 0 s
  repeat' first | intro _ | (with_reducible first | assumption | apply frm_refresh | apply frm_endSession | apply frm_refuseWrite | apply Frm.ite | fail_if_no_progress apply Frm.rest) | dsimp only | split

theorem frm_execKeySlotWipe {v : Fin 1024} {s z : State} (h : execKeySlotWipe v s = .next z) : Frm 0 s z := by
  unfold execKeySlotWipe at h
  injection h with h
  subst h
  have hk := Frm.refl 0 s
  repeat' first | intro _ | (with_reducible first | assumption | apply frm_refresh | apply frm_wipeSlot | apply Frm.ite | fail_if_no_progress apply Frm.rest) | dsimp only | split

theorem frm_execKeySlotFault {v : Fin 1024} {s z : State} (h : execKeySlotFault v s = .next z) : Frm 0 s z := by
  unfold execKeySlotFault at h
  injection h with h
  subst h
  have hk := Frm.refl 0 s
  repeat' first | intro _ | (with_reducible first | assumption | apply frm_keyFault | apply Frm.ite | fail_if_no_progress apply Frm.rest) | dsimp only | split

theorem frm_execEntropyFail {s z : State} (h : execEntropyFail s = .next z) : Frm 0 s z := by
  unfold execEntropyFail at h
  injection h with h
  subst h
  have hk := Frm.refl 0 s
  repeat' first | intro _ | (with_reducible first | assumption | apply frm_raise | apply Frm.ite | fail_if_no_progress apply Frm.rest) | dsimp only | split

theorem frm_execSpdmGetVersion {tr : Fin 3} {req : List Byte} {s z : State} (h : execSpdmGetVersion tr req s = .next z) : Frm 0 s z := by
  unfold execSpdmGetVersion at h
  injection h with h
  subst h
  have hk := Frm.refl 0 s
  repeat' first | intro _ | (with_reducible first | assumption | apply frm_spdmGetVersion | apply Frm.ite | fail_if_no_progress apply Frm.rest) | dsimp only | split

theorem frm_execSpdmGetCapabilities {tr : Fin 3} {req : List Byte} {s z : State} (h : execSpdmGetCapabilities tr req s = .next z) : Frm 0 s z := by
  unfold execSpdmGetCapabilities at h
  injection h with h
  subst h
  have hk := Frm.refl 0 s
  repeat' first | intro _ | (with_reducible first | assumption | apply frm_spdmGetCapabilities | apply Frm.ite | fail_if_no_progress apply Frm.rest) | dsimp only | split

theorem frm_execSpdmNegotiateAlgorithms {tr : Fin 3} {req : List Byte} {s z : State} (h : execSpdmNegotiateAlgorithms tr req s = .next z) : Frm 0 s z := by
  unfold execSpdmNegotiateAlgorithms at h
  injection h with h
  subst h
  have hk := Frm.refl 0 s
  repeat' first | intro _ | (with_reducible first | assumption | apply frm_spdmNegotiate | apply Frm.ite | fail_if_no_progress apply Frm.rest) | dsimp only | split

theorem frm_execSpdmGetDigests {tr : Fin 3} {req : List Byte} {s z : State} (h : execSpdmGetDigests tr req s = .next z) : Frm 0 s z := by
  unfold execSpdmGetDigests at h
  injection h with h
  subst h
  have hk := Frm.refl 0 s
  repeat' first | intro _ | (with_reducible first | assumption | apply frm_spdmSend | apply frm_spdmAfter | apply Frm.ite | fail_if_no_progress apply Frm.rest) | dsimp only | split

theorem frm_execSpdmGetCertificate {tr : Fin 3} {req : List Byte} {s z : State} (h : execSpdmGetCertificate tr req s = .next z) : Frm 0 s z := by
  unfold execSpdmGetCertificate at h
  injection h with h
  subst h
  have hk := Frm.refl 0 s
  repeat' first | intro _ | (with_reducible first | assumption | apply frm_spdmAfter | apply frm_spdmCertificate | apply Frm.ite | fail_if_no_progress apply Frm.rest) | dsimp only | split

theorem frm_execSpdmChallenge {tr : Fin 3} {req : List Byte} {s z : State} (h : execSpdmChallenge tr req s = .next z) : Frm 0 s z := by
  unfold execSpdmChallenge at h
  injection h with h
  subst h
  have hk := Frm.refl 0 s
  repeat' first | intro _ | (with_reducible first | assumption | apply frm_spdmAfter | apply frm_spdmChallenge | apply Frm.ite | fail_if_no_progress apply Frm.rest) | dsimp only | split

theorem frm_execSpdmGetMeasurements {tr : Fin 3} {req : List Byte} {s z : State} (h : execSpdmGetMeasurements tr req s = .next z) : Frm 0 s z := by
  unfold execSpdmGetMeasurements at h
  injection h with h
  subst h
  have hk := Frm.refl 0 s
  repeat' first | intro _ | (with_reducible first | assumption | apply frm_spdmAfter | apply frm_spdmMeasurements | apply Frm.ite | fail_if_no_progress apply Frm.rest) | dsimp only | split

theorem frm_execMbxSelectWrite {who : Owner2} {mbx : MbxId} {sel : Word} {s z : State} (h : execMbxSelectWrite who mbx sel s = .next z) : Frm 1024 s z := by
  unfold execMbxSelectWrite at h
  injection h with h
  subst h
  have hk := Frm.refl 1024 s
  have hm : Sub 1024 1024 := rfl
  repeat' first | intro _ | (with_reducible first | assumption | apply frm_mbxSelectWrite | apply Frm.ite | fail_if_no_progress apply Frm.rest | exact Sub.trans (b := 1024) rfl hm) | dsimp only | split

theorem frm_execMbxCaptureDone {who : Owner2} {mbx : MbxId} {s z : State} (h : execMbxCaptureDone who mbx s = .next z) : Frm 1024 s z := by
  unfold execMbxCaptureDone at h
  injection h with h
  subst h
  have hk := Frm.refl 1024 s
  have hm : Sub 1024 1024 := rfl
  repeat' first | intro _ | (with_reducible first | assumption | apply frm_mbxCaptureDone | apply Frm.ite | fail_if_no_progress apply Frm.rest | exact Sub.trans (b := 1024) rfl hm) | dsimp only | split

theorem frm_execIndDataAccess {who : Owner2} {write : Bool} {val : Word} {s z : State} (h : execIndDataAccess who write val s = .next z) : Frm 2048 s z := by
  unfold execIndDataAccess at h
  injection h with h
  subst h
  have hk := Frm.refl 2048 s
  have hm : Sub 2048 2048 := rfl
  repeat' first | intro _ | (with_reducible first | assumption | apply frm_indDataAccess | apply Frm.ite | fail_if_no_progress apply Frm.rest | exact Sub.trans (b := 2048) rfl hm) | dsimp only | split

theorem frm_execRegReadTimeout {addr : Nat} {s z : State} (h : execRegReadTimeout addr s = .next z) : Frm 0 s z := by
  unfold execRegReadTimeout at h
  injection h with h
  subst h
  have hk := Frm.refl 0 s
  repeat' first | intro _ | (with_reducible first | assumption | apply frm_readTimeout | apply Frm.ite | fail_if_no_progress apply Frm.rest) | dsimp only | split

theorem frm_execRegReadClear {path : ReadPath} {addr : Nat} {s z : State} (h : execRegReadClear path addr s = .next z) : Frm 2048 s z := by
  unfold execRegReadClear at h
  injection h with h
  subst h
  have hk := Frm.refl 2048 s
  have hm : Sub 2048 2048 := rfl
  repeat' first | intro _ | (with_reducible first | assumption | apply frm_readWord | apply Frm.ite | fail_if_no_progress apply Frm.rest | exact Sub.trans (b := 2048) rfl hm) | dsimp only | split

theorem frm_execRegWrite {path : RegPath} {addr : Nat} {val : BitVec 64} {be : BitVec 8} {wide : Bool} {s z : State} (h : execRegWrite path addr val be wide s = .next z) : Frm 262143 s z := by
  unfold execRegWrite at h
  injection h with h
  subst h
  have hk := Frm.refl 262143 s
  have hm : Sub 262143 262143 := rfl
  repeat' first | intro _ | (with_reducible first | assumption | apply frm_refresh | apply frm_regWrite | apply Frm.ite | fail_if_no_progress apply Frm.rest | exact Sub.trans (b := 262143) rfl hm) | dsimp only | split

theorem frm_execRegRead {port : Nat} {tag : BitVec 12} {addr : Nat} {s z : State} (h : execRegRead port tag addr s = .next z) : Frm 2048 s z := by
  unfold execRegRead at h
  injection h with h
  subst h
  have hk := Frm.refl 2048 s
  have hm : Sub 2048 2048 := rfl
  repeat' first | intro _ | (with_reducible first | assumption | apply frm_spend | apply frm_emit | apply frm_clearRc | apply frm_indAccess | apply Frm.ite | fail_if_no_progress apply Frm.rest | exact Sub.trans (b := 2048) rfl hm) | dsimp only | split

theorem frm_execRegResp {port : Nat} {tag : BitVec 12} {val : Word} {s z : State} (h : execRegResp port tag val s = .next z) : Frm 0 s z := by
  unfold execRegResp at h
  injection h with h
  subst h
  have hk := Frm.refl 0 s
  repeat' first | intro _ | (with_reducible first | assumption | apply frm_emit | apply Frm.ite | fail_if_no_progress apply Frm.rest) | dsimp only | split

end Sys2Proof.Laws
end

