-- ==== Sys2Proof/Laws/KeptQosOps.lean ====
section
/-! SUPPORT. What the operations of `Machine/QosOps.lean` keep: one lemma each. -/
namespace Sys2Proof.Laws
open Sys2Proof Sys2Proof.Machine Sys2Proof.Safety
set_option linter.unreachableTactic false
set_option linter.unusedTactic false

theorem kept_takeTokens {r0 : State} {port part n : Nat} {s : State} (hk : Kept r0 s) :
    KeptO r0 (takeTokens port part n s) := by
  unfold takeTokens
  repeat' first | intro _ | (with_reducible first | assumption | apply kept_setQport | apply Kept.ite | apply KeptO.none | apply KeptO.some | apply KeptO.ite | fail_if_no_progress apply Kept.rest) | dsimp only | split

theorem kept_issueReq {r0 : State} {r : Req} {s : State} (hk : Kept r0 s) :
    Kept r0 (issueReq r s).2 := by
  unfold issueReq
  repeat' first | intro _ | (with_reducible first | assumption | apply kept_raise | apply kept_takeTokens | apply Kept.ite | apply Kept.opt (by assumption) | apply KeptO.none | apply KeptO.some | apply KeptO.ite | fail_if_no_progress apply Kept.rest) | dsimp only | split

theorem kept_leavePort {r0 : State} {r : Req} {s : State} (hk : Kept r0 s) :
    KeptO r0 (leavePort r s) := by
  unfold leavePort
  repeat' first | intro _ | (with_reducible first | assumption | apply kept_setQport | apply kept_takeTokens | apply Kept.ite | apply Kept.opt (by assumption) | apply KeptO.none | apply KeptO.some | apply KeptO.ite | apply KeptO.map | fail_if_no_progress apply Kept.rest) | dsimp only | split

theorem kept_hostWriteNow {r0 : State} {port part : Nat} {sched : Bool} {len : Nat} {s : State} (hk : Kept r0 s) :
    KeptO r0 (hostWriteNow port part sched len s) := by
  unfold hostWriteNow
  repeat' first | intro _ | (with_reducible first | assumption | apply kept_takeTokens | apply Kept.ite | apply Kept.opt (by assumption) | apply KeptO.none | apply KeptO.some | apply KeptO.ite | fail_if_no_progress apply Kept.rest) | dsimp only | split

theorem kept_countMiss {r0 : State} {p : Nat} {s : State} (hk : Kept r0 s) :
    Kept r0 (countMiss p s) := by
  unfold countMiss
  repeat' first | intro _ | (with_reducible first | assumption | apply kept_setQpart | apply kept_raise | apply Kept.ite | fail_if_no_progress apply Kept.rest) | dsimp only | split

theorem kept_completeStats {r0 : State} {r : Req} {s : State} (hk : Kept r0 s) :
    Kept r0 (completeStats r s) := by
  unfold completeStats
  repeat' first | intro _ | (with_reducible first | assumption | apply kept_setQport | apply kept_raise | apply kept_countMiss | apply Kept.ite | fail_if_no_progress apply Kept.rest) | dsimp only | split

theorem kept_countAccess {r0 : State} {unit len : Nat} {write : Bool} {s : State} (hk : Kept r0 s) :
    Kept r0 (countAccess unit len write s) := by
  unfold countAccess
  repeat' first | intro _ | (with_reducible first | assumption | apply kept_completeStats | apply Kept.ite | fail_if_no_progress apply Kept.rest) | dsimp only | split

theorem kept_putQosValues {r0 : State} {n p : Nat} {v : Nat × Nat × Nat × Nat × Nat × Nat} {s : State} (hk : Kept r0 s) :
    Kept r0 (putQosValues n p v s) := by
  unfold putQosValues
  repeat' first | intro _ | (with_reducible first | assumption | apply kept_setQport | apply Kept.ite | fail_if_no_progress apply Kept.rest) | dsimp only | split

theorem kept_putMiss {r0 : State} {p thresh window : Nat} {s : State} (hk : Kept r0 s) :
    Kept r0 (putMiss p thresh window s) := by
  unfold putMiss
  repeat' first | intro _ | (with_reducible first | assumption | apply kept_setQpart | apply Kept.ite | fail_if_no_progress apply Kept.rest) | dsimp only | split

theorem kept_qosRelease {r0 : State} {p : Nat} {fromStopped : Bool} {s : State} (hk : Kept r0 s) :
    Kept r0 (qosRelease p fromStopped s) := by
  unfold qosRelease
  repeat' first | intro _ | (with_reducible first | assumption | apply kept_setQpart | apply Kept.ite | fail_if_no_progress apply Kept.rest) | dsimp only | split

end Sys2Proof.Laws
end

