-- ==== Sys2Proof/Laws/KeptAccess.lean ====
section
/-! SUPPORT. What the operations of `Machine/Access.lean` keep: one lemma each. -/
namespace Sys2Proof.Laws
open Sys2Proof Sys2Proof.Machine Sys2Proof.Safety
set_option linter.unreachableTactic false
set_option linter.unusedTactic false

theorem kept_countCe {r0 : State} {g : Nat} {s : State} (hk : Kept r0 s) :
    Kept r0 (countCe g s) := by
  unfold countCe
  repeat' first | intro _ | (with_reducible first | assumption | apply kept_setBank | apply kept_setChan | apply Kept.ite | fail_if_no_progress apply Kept.rest) | dsimp only | split

theorem kept_strikeUe {r0 : State} {g pa : Nat} {s : State} (hk : Kept r0 s) :
    Kept r0 (strikeUe g pa s) := by
  unfold strikeUe
  repeat' first | intro _ | (with_reducible first | assumption | apply kept_setChan | apply kept_raise | apply Kept.ite | apply Kept.mem (c := fun w => Mem.wf_mark w _ _) | fail_if_no_progress apply Kept.rest) | dsimp only | split

theorem kept_targetRead {r0 : State} {g pa len : Nat} {e : Ecc} {s : State} (hk : Kept r0 s) :
    Kept r0 (targetRead g pa len e s).2.2 := by
  unfold targetRead
  repeat' first | intro _ | (with_reducible first | assumption | apply kept_checkEcc | apply kept_countCe | apply kept_strikeUe | apply Kept.ite | apply Kept.snd (by assumption) | fail_if_no_progress apply Kept.rest) | dsimp only | split

theorem kept_freeBytes {r0 : State} {n : Nat} {s : State} (hk : Kept r0 s) :
    Kept r0 (freeBytes n s).2 := by
  unfold freeBytes
  repeat' first | intro _ | (with_reducible first | assumption | apply kept_drawFree | apply Kept.ite | fail_if_no_progress apply Kept.rest) | dsimp only | split

theorem kept_writePiece {r0 : State} {unit ctx dva : Nat} {bs : List Byte} {poison : Bool} {s : State} (hk : Kept r0 s) :
    Kept r0 (writePiece unit ctx dva bs poison s).2 := by
  unfold writePiece
  repeat' first | intro _ | (with_reducible first | assumption | apply kept_emit | apply kept_memPut | apply kept_noteXlat | apply kept_raise | apply kept_issueReq | apply kept_countAccess | apply Kept.ite | apply Kept.snd (by assumption) | fail_if_no_progress apply Kept.rest) | dsimp only | split

theorem kept_dvaWrite {r0 : State} {unit ctx dva : Nat} {bs : List Byte} {poison : Bool} {s : State} (hk : Kept r0 s) :
    Kept r0 (dvaWrite unit ctx dva bs poison s).2 := by
  unfold dvaWrite
  repeat' first | intro _ | (with_reducible first | assumption | apply kept_writePiece | apply Kept.ite | apply Kept.foldl | apply Kept.foldl2 | apply Kept.foldl3 | fail_if_no_progress apply Kept.rest) | dsimp only | split

end Sys2Proof.Laws
end

