-- ==== Sys2Proof/Laws/KeptMgtOps.lean ====
section
/-! SUPPORT. What the operations of `Machine/MgtOps.lean` keep: one lemma each. -/
namespace Sys2Proof.Laws
open Sys2Proof Sys2Proof.Machine Sys2Proof.Safety
set_option linter.unreachableTactic false
set_option linter.unusedTactic false

theorem kept_mbEnd {r0 : State} {st : Status} {resp : List Nat} {s : State} (hk : Kept r0 s) :
    Kept r0 (mbEnd st resp s) := by
  unfold mbEnd
  repeat' first | intro _ | (with_reducible first | assumption | apply Kept.ite | apply Kept.foldl | apply Kept.foldl2 | apply Kept.foldl3 | fail_if_no_progress apply Kept.rest) | dsimp only | split

theorem kept_mbCommand {r0 : State} {op : Nat} {tag : BitVec 8} {run : State → State} {s : State} (hk : Kept r0 s) (krun : ∀ x, Kept r0 x → Kept r0 (run x)) :
    Kept r0 (mbCommand op tag run s) := by
  unfold mbCommand
  repeat' first | intro _ | (with_reducible first | assumption | apply krun | apply kept_refuseWrite | apply kept_mbEnd | apply Kept.ite | fail_if_no_progress apply Kept.rest) | dsimp only | split

theorem kept_fetchWindow {r0 : State} {iova len : Nat} {s : State} (hk : Kept r0 s) :
    KeptP r0 (fetchWindow iova len s) := by
  unfold fetchWindow
  repeat' first | intro _ | (with_reducible first | assumption | apply kept_drawFree | apply Kept.ite | apply Kept.snd (by assumption) | apply KeptP.none | apply KeptP.some | apply KeptP.ite | fail_if_no_progress apply Kept.rest) | dsimp only | split

theorem kept_dropWindow {r0 : State} {i : Option Nat} {s : State} (hk : Kept r0 s) :
    Kept r0 (dropWindow i s) := by
  unfold dropWindow
  repeat' first | intro _ | (with_reducible first | assumption | apply Kept.ite | fail_if_no_progress apply Kept.rest) | dsimp only | split

theorem kept_fetchArg {r0 : State} {iova len : Nat} {s : State} (hk : Kept r0 s) :
    KeptO r0 (fetchArg iova len s) := by
  unfold fetchArg
  repeat' first | intro _ | (with_reducible first | assumption | apply kept_emit | apply kept_fetchWindow | apply kept_dropWindow | apply Kept.ite | apply Kept.optP (by assumption) | apply KeptO.none | apply KeptO.some | apply KeptO.ite | apply KeptP.none | apply KeptP.some | apply KeptP.ite | fail_if_no_progress apply Kept.rest) | dsimp only | split

end Sys2Proof.Laws
end

