-- ==== Sys2Proof/Laws/KeptFraming.lean ====
section
/-! SUPPORT. What the operations of `Machine/Framing.lean` keep: one lemma each. -/
namespace Sys2Proof.Laws
open Sys2Proof Sys2Proof.Machine Sys2Proof.Safety
set_option linter.unreachableTactic false
set_option linter.unusedTactic false

theorem kept_sendFlit {r0 : State} {n : Nat} {s : State} (hk : Kept r0 s) :
    Kept r0 (sendFlit n s) := by
  unfold sendFlit
  repeat' first | intro _ | (with_reducible first | assumption | apply kept_emit | apply kept_modSite | apply Kept.ite | fail_if_no_progress apply Kept.rest) | dsimp only | split

theorem kept_sendFlits {r0 : State} {s : State} (hk : Kept r0 s) :
    Kept r0 (sendFlits s) := by
  unfold sendFlits
  repeat' first | intro _ | (with_reducible first | assumption | apply kept_sendFlit | apply Kept.ite | apply Kept.foldl | apply Kept.foldl2 | apply Kept.foldl3 | fail_if_no_progress apply Kept.rest) | dsimp only | split

end Sys2Proof.Laws
end

