-- ==== Sys2Proof/Laws/KeptSiteOps.lean ====
section
/-! SUPPORT. What the operations of `Machine/SiteOps.lean` keep: one lemma each. -/
namespace Sys2Proof.Laws
open Sys2Proof Sys2Proof.Machine Sys2Proof.Safety
set_option linter.unreachableTactic false
set_option linter.unusedTactic false

theorem kept_failSite {r0 : State} {n : Nat} {why : SReason} {bit : Nat} {s : State} (hk : Kept r0 s) :
    Kept r0 (failSite n why bit s) := by
  unfold failSite
  repeat' first | intro _ | (with_reducible first | assumption | apply kept_dropSite | apply kept_offSite | apply kept_fenceSite | apply kept_raise | apply Kept.ite | fail_if_no_progress apply Kept.rest) | dsimp only | split

theorem kept_siteState {r0 : State} {n : Nat} {st : SState} {s : State} (hk : Kept r0 s) :
    Kept r0 (siteState n st s) := by
  unfold siteState
  repeat' first | intro _ | (with_reducible first | assumption | apply kept_modSite | apply kept_traceAt | apply Kept.ite | fail_if_no_progress apply Kept.rest) | dsimp only | split

theorem kept_readStraps {r0 : State} {k : Nat} {s : State} (hk : Kept r0 s) :
    Kept r0 (readStraps k s) := by
  unfold readStraps
  repeat' first | intro _ | (with_reducible first | assumption | apply kept_setSite | apply kept_failSite | apply Kept.ite | fail_if_no_progress apply Kept.rest) | dsimp only | split

theorem kept_enterRails {r0 : State} {e : Nat} {s : State} (hk : Kept r0 s) :
    Kept r0 (enterRails e s) := by
  unfold enterRails
  repeat' first | intro _ | (with_reducible first | assumption | apply kept_modSite | apply kept_setDomain | apply kept_siteState | apply kept_readStraps | apply Kept.ite | apply Kept.foldl | apply Kept.foldl2 | apply Kept.foldl3 | fail_if_no_progress apply Kept.rest) | dsimp only | split

theorem kept_startSites {r0 : State} {p : Nat} {s : State} (hk : Kept r0 s) :
    Kept r0 (startSites p s) := by
  unfold startSites
  repeat' first | intro _ | (with_reducible first | assumption | apply kept_enterRails | apply Kept.ite | apply Kept.foldl | apply Kept.foldl2 | apply Kept.foldl3 | fail_if_no_progress apply Kept.rest) | dsimp only | split

theorem kept_shortSite {r0 : State} {n : Nat} {s : State} (hk : Kept r0 s) :
    Kept r0 (shortSite n s) := by
  unfold shortSite
  repeat' first | intro _ | (with_reducible first | assumption | apply kept_markFlag | apply kept_dropSite | apply kept_offSite | apply kept_fenceSite | apply kept_raise | apply Kept.ite | fail_if_no_progress apply Kept.rest) | dsimp only | split

theorem kept_failRetrain {r0 : State} {n : Nat} {s : State} (hk : Kept r0 s) :
    Kept r0 (failRetrain n s) := by
  unfold failRetrain
  repeat' first | intro _ | (with_reducible first | assumption | apply kept_markFlag | apply kept_dropSite | apply kept_offSite | apply kept_fenceSite | apply kept_raise | apply Kept.ite | fail_if_no_progress apply Kept.rest) | dsimp only | split

theorem kept_retrainSite {r0 : State} {n : Nat} {s : State} (hk : Kept r0 s) :
    Kept r0 (retrainSite n s) := by
  unfold retrainSite
  repeat' first | intro _ | (with_reducible first | assumption | apply kept_setSite | apply kept_traceAt | apply Kept.ite | fail_if_no_progress apply Kept.rest) | dsimp only | split

theorem kept_refuseGelja {r0 : State} {n op : Nat} {m : GMsg} {status : Nat} {s : State} (hk : Kept r0 s) :
    Kept r0 (refuseGelja n op m status s) := by
  unfold refuseGelja
  repeat' first | intro _ | (with_reducible first | assumption | apply kept_geljaTo | apply kept_freeBytes | apply Kept.ite | fail_if_no_progress apply Kept.rest) | dsimp only | split

theorem kept_protocolError {r0 : State} {n op : Nat} {m : GMsg} {s : State} (hk : Kept r0 s) :
    Kept r0 (protocolError n op m s) := by
  unfold protocolError
  repeat' first | intro _ | (with_reducible first | assumption | apply kept_writeLog | apply kept_setSite | apply kept_failRetrain | apply kept_retrainSite | apply kept_refuseGelja | apply Kept.ite | fail_if_no_progress apply Kept.rest) | dsimp only | split

theorem kept_crustViolation {r0 : State} {n reason : Nat} {k : CrustClass} {ctx dva : Nat} {s : State} (hk : Kept r0 s) :
    Kept r0 (crustViolation n reason k ctx dva s) := by
  unfold crustViolation
  repeat' first | intro _ | (with_reducible first | assumption | apply kept_setSite | apply kept_traceAt | apply kept_raise | apply Kept.ite | fail_if_no_progress apply Kept.rest) | dsimp only | split

theorem kept_openTag {r0 : State} {n op : Nat} {m : GMsg} {s : State} (hk : Kept r0 s) :
    Kept r0 (openTag n op m s) := by
  unfold openTag
  repeat' first | intro _ | (with_reducible first | assumption | apply kept_modSite | apply Kept.ite | fail_if_no_progress apply Kept.rest) | dsimp only | split

theorem kept_payCredits {r0 : State} {n : Nat} {s : State} (hk : Kept r0 s) :
    Kept r0 (payCredits n s) := by
  unfold payCredits
  repeat' first | intro _ | (with_reducible first | assumption | apply kept_setSite | apply kept_geljaTo | apply Kept.ite | fail_if_no_progress apply Kept.rest) | dsimp only | split

theorem kept_giveBack {r0 : State} {n op len : Nat} {s : State} (hk : Kept r0 s) :
    Kept r0 (giveBack n op len s) := by
  unfold giveBack
  repeat' first | intro _ | (with_reducible first | assumption | apply kept_modSite | apply kept_payCredits | apply Kept.ite | fail_if_no_progress apply Kept.rest) | dsimp only | split

theorem kept_closeTag {r0 : State} {n tag : Nat} {s : State} (hk : Kept r0 s) :
    Kept r0 (closeTag n tag s) := by
  unfold closeTag
  repeat' first | intro _ | (with_reducible first | assumption | apply kept_modSite | apply Kept.ite | fail_if_no_progress apply Kept.rest) | dsimp only | split

theorem kept_answerGelja {r0 : State} {n op : Nat} {m : GMsg} {keep : Bool} {s : State} (hk : Kept r0 s) :
    Kept r0 (answerGelja n op m keep s) := by
  unfold answerGelja
  repeat' first | intro _ | (with_reducible first | assumption | apply kept_geljaTo | apply kept_giveBack | apply kept_closeTag | apply Kept.ite | fail_if_no_progress apply Kept.rest) | dsimp only | split

end Sys2Proof.Laws
end

