-- ==== Sys2Proof/Laws/KeptHomeOps.lean ====
section
/-! SUPPORT. What the operations of `Machine/HomeOps.lean` keep: one lemma each. -/
namespace Sys2Proof.Laws
open Sys2Proof Sys2Proof.Machine Sys2Proof.Safety
set_option linter.unreachableTactic false
set_option linter.unusedTactic false

theorem kept_pushResp {r0 : State} {p : Resp} {s : State} (hk : Kept r0 s) :
    Kept r0 (pushResp p s) := by
  unfold pushResp
  repeat' first | intro _ | (with_reducible first | assumption | apply Kept.ite | fail_if_no_progress apply Kept.rest) | dsimp only | split

theorem kept_finishNoc {r0 : State} {tag : Nat} {s : State} (hk : Kept r0 s) :
    Kept r0 (finishNoc tag s) := by
  unfold finishNoc
  repeat' first | intro _ | (with_reducible first | assumption | apply kept_dropReq | apply kept_answerGelja | apply kept_pushResp | apply Kept.ite | fail_if_no_progress apply Kept.rest) | dsimp only | split

theorem kept_homeRead {r0 : State} {ctx line : Nat} {s : State} (hk : Kept r0 s) :
    Kept r0 (homeRead ctx line s).2.2.2 := by
  unfold homeRead
  repeat' first | intro _ | (with_reducible first | assumption | apply kept_raise | apply kept_targetRead | apply kept_freeBytes | apply Kept.ite | apply Kept.snd (by assumption) | fail_if_no_progress apply Kept.rest) | dsimp only | split

theorem kept_homeWrite {r0 : State} {ctx line : Nat} {bs : List Byte} {be : Nat} {poison : Bool} {s : State} (hk : Kept r0 s) :
    Kept r0 (homeWrite ctx line bs be poison s).2 := by
  unfold homeWrite
  repeat' first | intro _ | (with_reducible first | assumption | apply kept_memPutBe | apply kept_raise | apply Kept.ite | fail_if_no_progress apply Kept.rest) | dsimp only | split

theorem kept_setHLine {r0 : State} {line : Nat} {h : HLine} {s : State} (hk : Kept r0 s) :
    Kept r0 (setHLine line h s) := by
  unfold setHLine
  repeat' first | intro _ | (with_reducible first | assumption | apply Kept.ite | fail_if_no_progress apply Kept.rest) | dsimp only | split

theorem kept_tidySector {r0 : State} {line : Nat} {s : State} (hk : Kept r0 s) :
    Kept r0 (tidySector line s).2 := by
  unfold tidySector
  repeat' first | intro _ | (with_reducible first | assumption | apply Kept.ite | fail_if_no_progress apply Kept.rest) | dsimp only | split

theorem kept_allocSector {r0 : State} {line : Nat} {s : State} (hk : Kept r0 s) :
    Kept r0 (allocSector line s) := by
  unfold allocSector
  repeat' first | intro _ | (with_reducible first | assumption | apply Kept.ite | fail_if_no_progress apply Kept.rest) | dsimp only | split

theorem kept_closeTxn {r0 : State} {line : Nat} {s : State} (hk : Kept r0 s) :
    Kept r0 (closeTxn line s) := by
  unfold closeTxn
  repeat' first | intro _ | (with_reducible first | assumption | apply Kept.ite | fail_if_no_progress apply Kept.rest) | dsimp only | split

theorem kept_openTxn {r0 : State} {line : Nat} {x : HTxn} {s : State} (hk : Kept r0 s) :
    Kept r0 (openTxn line x s) := by
  unfold openTxn
  repeat' first | intro _ | (with_reducible first | assumption | apply Kept.ite | fail_if_no_progress apply Kept.rest) | dsimp only | split

theorem kept_grantLine {r0 : State} {r : HReq} {excl withData : Bool} {s : State} (hk : Kept r0 s) :
    Kept r0 (grantLine r excl withData s) := by
  unfold grantLine
  repeat' first | intro _ | (with_reducible first | assumption | apply kept_emit | apply kept_modSite | apply kept_answerGelja | apply kept_homeRead | apply kept_setHLine | apply kept_allocSector | apply kept_openTxn | apply Kept.ite | apply Kept.snd (by assumption) | fail_if_no_progress apply Kept.rest) | dsimp only | split

theorem kept_doneAnswer {r0 : State} {r : HReq} {refused : Bool} {s : State} (hk : Kept r0 s) :
    Kept r0 (doneAnswer r refused s) := by
  unfold doneAnswer
  repeat' first | intro _ | (with_reducible first | assumption | apply kept_emit | apply kept_answerGelja | apply Kept.ite | fail_if_no_progress apply Kept.rest) | dsimp only | split

theorem kept_homeError {r0 : State} {r : HReq} {s : State} (hk : Kept r0 s) :
    Kept r0 (homeError r s) := by
  unfold homeError
  repeat' first | intro _ | (with_reducible first | assumption | apply kept_emit | apply kept_protocolError | apply kept_giveBack | apply kept_closeTag | apply Kept.ite | fail_if_no_progress apply Kept.rest) | dsimp only | split

theorem kept_pieceDone {r0 : State} {tag : Nat} {bs : List Byte} {bad denied : Bool} {s : State} (hk : Kept r0 s) :
    Kept r0 (pieceDone tag bs bad denied s) := by
  unfold pieceDone
  repeat' first | intro _ | (with_reducible first | assumption | apply kept_modReq | apply Kept.ite | fail_if_no_progress apply Kept.rest) | dsimp only | split

theorem kept_serveNc {r0 : State} {r : HReq} {s : State} (hk : Kept r0 s) :
    Kept r0 (serveNc r s).2 := by
  unfold serveNc
  repeat' first | intro _ | (with_reducible first | assumption | apply kept_emit | apply kept_homeRead | apply kept_homeWrite | apply kept_setHLine | apply kept_tidySector | apply kept_doneAnswer | apply kept_pieceDone | apply Kept.ite | apply Kept.snd (by assumption) | fail_if_no_progress apply Kept.rest) | dsimp only | split

theorem kept_snoopAll {r0 : State} {r : HReq} {op : Nat} {targets : List Nat} {s : State} (hk : Kept r0 s) :
    Kept r0 (snoopAll r op targets s) := by
  unfold snoopAll
  repeat' first | intro _ | (with_reducible first | assumption | apply kept_sendSnoop | apply kept_openTxn | apply Kept.ite | apply Kept.foldl | apply Kept.foldl2 | apply Kept.foldl3 | fail_if_no_progress apply Kept.rest) | dsimp only | split

theorem kept_afterSnoops {r0 : State} {r : HReq} {s : State} (hk : Kept r0 s) :
    Kept r0 (afterSnoops r s).2 := by
  unfold afterSnoops
  repeat' first | intro _ | (with_reducible first | assumption | apply kept_setHLine | apply kept_tidySector | apply kept_grantLine | apply kept_doneAnswer | apply kept_serveNc | apply Kept.ite | apply Kept.snd (by assumption) | fail_if_no_progress apply Kept.rest) | dsimp only | split

theorem kept_serveIdle {r0 : State} {r : HReq} {s : State} (hk : Kept r0 s) :
    Kept r0 (serveIdle r s).2 := by
  unfold serveIdle
  repeat' first | intro _ | (with_reducible first | assumption | apply kept_backInval | apply kept_homeWrite | apply kept_setHLine | apply kept_tidySector | apply kept_grantLine | apply kept_doneAnswer | apply kept_homeError | apply kept_serveNc | apply kept_snoopAll | apply Kept.ite | apply Kept.foldl | apply Kept.foldl2 | apply Kept.foldl3 | apply Kept.snd (by assumption) | fail_if_no_progress apply Kept.rest) | dsimp only | split

theorem kept_arriveHome {r0 : State} {r : HReq} {s : State} (hk : Kept r0 s) :
    Kept r0 (arriveHome r s).2 := by
  unfold arriveHome
  repeat' first | intro _ | (with_reducible first | assumption | apply kept_homeWrite | apply kept_closeTxn | apply kept_openTxn | apply kept_doneAnswer | apply kept_homeError | apply kept_afterSnoops | apply kept_serveIdle | apply Kept.ite | apply Kept.snd (by assumption) | fail_if_no_progress apply Kept.rest) | dsimp only | split

theorem kept_nocPiece {r0 : State} {tag : Nat} {s : State} (hk : Kept r0 s) :
    Kept r0 (nocPiece tag s).2 := by
  unfold nocPiece
  repeat' first | intro _ | (with_reducible first | assumption | apply kept_memPutBe | apply kept_raise | apply kept_targetRead | apply kept_freeBytes | apply kept_finishNoc | apply kept_pieceDone | apply Kept.ite | apply Kept.snd (by assumption) | fail_if_no_progress apply Kept.rest) | dsimp only | split

theorem kept_doWork {r0 : State} {w : Work} {s : State} (hk : Kept r0 s) :
    Kept r0 (doWork w s).2 := by
  unfold doWork
  repeat' first | intro _ | (with_reducible first | assumption | apply kept_arriveHome | apply kept_nocPiece | apply Kept.ite | apply Kept.snd (by assumption) | fail_if_no_progress apply Kept.rest) | dsimp only | split

theorem kept_runWork {r0 : State} : ∀ (n : Nat) {ws : List Work} {s : State}, Kept r0 s → Kept r0 (runWork n ws s)
  | 0, ws, _, h => by cases ws <;> exact h
  | _ + 1, [], _, h => h
  | k + 1, _ :: _, _, h => kept_runWork k (kept_doWork h)

theorem kept_atHome {r0 : State} {ws : List Work} {s : State} (hk : Kept r0 s) :
    Kept r0 (atHome ws s) := by
  unfold atHome
  repeat' first | intro _ | (with_reducible first | assumption | apply kept_settleHome | apply kept_runWork | apply Kept.ite | fail_if_no_progress apply Kept.rest) | dsimp only | split

theorem kept_cohRefused {r0 : State} {pa : Nat} {s : State} (hk : Kept r0 s) :
    Kept r0 (cohRefused pa s) := by
  unfold cohRefused
  repeat' first | intro _ | (with_reducible first | assumption | apply kept_raise | apply Kept.ite | fail_if_no_progress apply Kept.rest) | dsimp only | split

theorem kept_takeQueuedWb {r0 : State} {n line : Nat} {s : State} (hk : Kept r0 s) :
    Kept r0 (takeQueuedWb n line s).2 := by
  unfold takeQueuedWb
  repeat' first | intro _ | (with_reducible first | assumption | apply kept_homeWrite | apply kept_doneAnswer | apply Kept.ite | apply Kept.snd (by assumption) | fail_if_no_progress apply Kept.rest) | dsimp only | split

theorem kept_answerSnoop {r0 : State} {n line : Nat} {wbp : Bool} {s : State} (hk : Kept r0 s) :
    Kept r0 (answerSnoop n line wbp s) := by
  unfold answerSnoop
  repeat' first | intro _ | (with_reducible first | assumption | apply kept_closeTxn | apply kept_openTxn | apply kept_afterSnoops | apply kept_atHome | apply kept_takeQueuedWb | apply Kept.ite | apply Kept.snd (by assumption) | fail_if_no_progress apply Kept.rest) | dsimp only | split

theorem kept_snoopState {r0 : State} {n line : Nat} {st : Option Nat} {s : State} (hk : Kept r0 s) :
    Kept r0 (snoopState n line st s) := by
  unfold snoopState
  repeat' first | intro _ | (with_reducible first | assumption | apply kept_setHLine | apply Kept.ite | fail_if_no_progress apply Kept.rest) | dsimp only | split

theorem kept_snoopAnswered {r0 : State} {n tag : Nat} {st : Option Nat} {wbp : Bool} {data : Option (List Byte × Bool)} {s : State} (hk : Kept r0 s) :
    Kept r0 (snoopAnswered n tag st wbp data s) := by
  unfold snoopAnswered
  repeat' first | intro _ | (with_reducible first | assumption | apply kept_modSite | apply kept_drainSnoops | apply kept_homeWrite | apply kept_answerSnoop | apply kept_snoopState | apply Kept.ite | apply Kept.snd (by assumption) | fail_if_no_progress apply Kept.rest) | dsimp only | split

theorem kept_grantAcked {r0 : State} {n line : Nat} {s : State} (hk : Kept r0 s) :
    Kept r0 (grantAcked n line s) := by
  unfold grantAcked
  repeat' first | intro _ | (with_reducible first | assumption | apply kept_closeTxn | apply kept_atHome | apply Kept.ite | fail_if_no_progress apply Kept.rest) | dsimp only | split

theorem kept_snoopLate {r0 : State} {n line : Nat} {s : State} (hk : Kept r0 s) :
    Kept r0 (snoopLate n line s) := by
  unfold snoopLate
  repeat' first | intro _ | (with_reducible first | assumption | apply kept_modSite | apply kept_dropHolder | apply kept_raise | apply kept_closeTag | apply kept_tidySector | apply kept_closeTxn | apply kept_openTxn | apply kept_afterSnoops | apply kept_atHome | apply Kept.ite | apply Kept.snd (by assumption) | fail_if_no_progress apply Kept.rest) | dsimp only | split

end Sys2Proof.Laws
end

