-- ==== Sys2Proof/Laws/KeptFaults.lean ====
section
/-! SUPPORT. What the operations of `Machine/Faults.lean` keep: one lemma each. -/
namespace Sys2Proof.Laws
open Sys2Proof Sys2Proof.Machine Sys2Proof.Safety
set_option linter.unreachableTactic false
set_option linter.unusedTactic false

theorem kept_recordCell {r0 : State} {q phys : Nat} {s : State} (hk : Kept r0 s) :
    Kept r0 (recordCell q phys s) := by
  unfold recordCell
  repeat' first | intro _ | (with_reducible first | assumption | apply kept_setQuad | apply Kept.ite | fail_if_no_progress apply Kept.rest) | dsimp only | split

theorem kept_strikeCell {r0 : State} {n : Nat} {w : CellPart} {s : State} (hk : Kept r0 s) :
    Kept r0 (strikeCell n w s) := by
  unfold strikeCell
  repeat' first | intro _ | (with_reducible first | assumption | apply kept_setCell | apply Kept.ite | fail_if_no_progress apply Kept.rest) | dsimp only | split

theorem kept_cellFails {r0 : State} {q bit phys : Nat} {s : State} (hk : Kept r0 s) :
    Kept r0 (cellFails q bit phys s) := by
  unfold cellFails
  repeat' first | intro _ | (with_reducible first | assumption | apply kept_setGrp | apply kept_refresh | apply kept_raise | apply kept_recordCell | apply Kept.ite | fail_if_no_progress apply Kept.rest) | dsimp only | split

theorem kept_cellCheck {r0 : State} {n bit : Nat} {corrects : Bool} {e : Ecc} {s : State} (hk : Kept r0 s) :
    Kept r0 (cellCheck n bit corrects e s).2 := by
  unfold cellCheck
  repeat' first | intro _ | (with_reducible first | assumption | apply kept_setQuad | apply kept_checkEcc | apply kept_cellFails | apply Kept.ite | apply Kept.snd (by assumption) | fail_if_no_progress apply Kept.rest) | dsimp only | split

theorem kept_slotRead {r0 : State} {n slot : Nat} {s : State} (hk : Kept r0 s) :
    Kept r0 (slotRead n slot s).2 := by
  unfold slotRead
  repeat' first | intro _ | (with_reducible first | assumption | apply kept_strikeCell | apply kept_cellCheck | apply Kept.ite | fail_if_no_progress apply Kept.rest) | dsimp only | split

theorem kept_quadLost {r0 : State} {q : Nat} {s : State} (hk : Kept r0 s) :
    Kept r0 (quadLost q s) := by
  unfold quadLost
  repeat' first | intro _ | (with_reducible first | assumption | apply kept_setQuad | apply kept_setDomain | apply kept_fenceCol | apply kept_markFence | apply Kept.ite | apply Kept.foldl | apply Kept.foldl2 | apply Kept.foldl3 | fail_if_no_progress apply Kept.rest) | dsimp only | split

theorem kept_faultDetect {r0 : State} {g : Fin 29} {bit : Fin 32} {unit : Nat} {s : State} (hk : Kept r0 s) :
    Kept r0 (faultDetect g bit unit s) := by
  unfold faultDetect
  repeat' first | intro _ | (with_reducible first | assumption | apply kept_spend | apply kept_requestColFence | apply kept_raise | apply kept_strikeCell | apply kept_cellFails | apply kept_quadLost | apply Kept.ite | fail_if_no_progress apply Kept.rest) | dsimp only | split

theorem kept_graceExpiry {r0 : State} {g : Nat} {s : State} (hk : Kept r0 s) :
    Kept r0 (graceExpiry g s) := by
  unfold graceExpiry
  repeat' first | intro _ | (with_reducible first | assumption | apply kept_refresh | apply kept_stopPackage | apply kept_escalateOnce | apply kept_detectN | apply Kept.ite | fail_if_no_progress apply Kept.rest) | dsimp only | split

theorem kept_reachThreshold {r0 : State} {g bit : Nat} {s : State} (hk : Kept r0 s) :
    Kept r0 (reachThreshold g bit s) := by
  unfold reachThreshold
  repeat' first | intro _ | (with_reducible first | assumption | apply kept_stopPackage | apply kept_detectN | apply Kept.ite | fail_if_no_progress apply Kept.rest) | dsimp only | split

theorem kept_setThreshold {r0 : State} {t : Nat} {s : State} (hk : Kept r0 s) :
    Kept r0 (setThreshold t s) := by
  unfold setThreshold
  repeat' first | intro _ | (with_reducible first | assumption | apply kept_refresh | apply kept_reachThreshold | apply Kept.ite | apply Kept.foldl | apply Kept.foldl2 | apply Kept.foldl3 | fail_if_no_progress apply Kept.rest) | dsimp only | split

theorem kept_startTimer {r0 : State} {g : Nat} {s : State} (hk : Kept r0 s) :
    Kept r0 (startTimer g s) := by
  unfold startTimer
  repeat' first | intro _ | (with_reducible first | assumption | apply kept_setGrp | apply kept_stopPackage | apply kept_escalateOnce | apply kept_detectN | apply kept_reachThreshold | apply Kept.ite | fail_if_no_progress apply Kept.rest) | dsimp only | split

theorem kept_faultMaskWrite {r0 : State} {g : Nat} {val : Word} {s : State} (hk : Kept r0 s) :
    Kept r0 (faultMaskWrite g val s) := by
  unfold faultMaskWrite
  repeat' first | intro _ | (with_reducible first | assumption | apply kept_setGrp | apply kept_refresh | apply kept_settleGroup | apply kept_startTimer | apply Kept.ite | fail_if_no_progress apply Kept.rest) | dsimp only | split

theorem kept_faultActionWrite {r0 : State} {g : Nat} {val : Word} {s : State} (hk : Kept r0 s) :
    Kept r0 (faultActionWrite g val s) := by
  unfold faultActionWrite
  repeat' first | intro _ | (with_reducible first | assumption | apply kept_setGrp | apply kept_refresh | apply kept_refuseWrite | apply kept_startTimer | apply Kept.ite | fail_if_no_progress apply Kept.rest) | dsimp only | split

theorem kept_faultInjectArm {r0 : State} {g : Nat} {val : Word} {s : State} (hk : Kept r0 s) :
    Kept r0 (faultInjectArm g val s) := by
  unfold faultInjectArm
  repeat' first | intro _ | (with_reducible first | assumption | apply kept_setGrp | apply kept_raise | apply kept_checkEcc | apply Kept.ite | fail_if_no_progress apply Kept.rest) | dsimp only | split

theorem kept_faultSignal {r0 : State} {g bit : Nat} {s : State} (hk : Kept r0 s) :
    Kept r0 (faultSignal g bit s) := by
  unfold faultSignal
  repeat' first | intro _ | (with_reducible first | assumption | apply kept_writeLog | apply kept_ackBits | apply Kept.ite | fail_if_no_progress apply Kept.rest) | dsimp only | split

theorem kept_errnHeartbeat {r0 : State} {s : State} (hk : Kept r0 s) :
    Kept r0 (errnHeartbeat s) := by
  unfold errnHeartbeat
  repeat' first | intro _ | (with_reducible first | assumption | apply kept_emit | apply kept_refreshPin | apply Kept.ite | fail_if_no_progress apply Kept.rest) | dsimp only | split

end Sys2Proof.Laws
end

