-- ==== Sys2Proof/Laws/KeptViOps.lean ====
section
/-! SUPPORT. What the operations of `Machine/ViOps.lean` keep: one lemma each. -/
namespace Sys2Proof.Laws
open Sys2Proof Sys2Proof.Machine Sys2Proof.Safety
set_option linter.unreachableTactic false
set_option linter.unusedTactic false

theorem kept_viFault {r0 : State} {v bit : Nat} {s : State} (hk : Kept r0 s) :
    Kept r0 (viFault v bit s) := by
  unfold viFault
  repeat' first | intro _ | (with_reducible first | assumption | apply kept_modVi | apply kept_refresh | apply Kept.ite | fail_if_no_progress apply Kept.rest) | dsimp only | split

theorem kept_noteHost {r0 : State} {unit ctx iova : Nat} {write : Bool} {s : State} (hk : Kept r0 s) :
    Kept r0 (noteHost unit ctx iova write s) := by
  unfold noteHost
  repeat' first | intro _ | (with_reducible first | assumption | apply kept_bufFill | apply Kept.ite | fail_if_no_progress apply Kept.rest) | dsimp only | split

theorem kept_hostReadGo {r0 : State} {r : Req} {s : State} (hk : Kept r0 s) :
    Kept r0 (hostReadGo r s) := by
  unfold hostReadGo
  repeat' first | intro _ | (with_reducible first | assumption | apply kept_emit | apply kept_modReq | apply Kept.ite | fail_if_no_progress apply Kept.rest) | dsimp only | split

theorem kept_issueHostRead {r0 : State} {r : Req} {s : State} (hk : Kept r0 s) :
    Kept r0 (issueHostRead r s).2 := by
  unfold issueHostRead
  repeat' first | intro _ | (with_reducible first | assumption | apply kept_issueReq | apply kept_hostReadGo | apply Kept.ite | apply Kept.snd (by assumption) | fail_if_no_progress apply Kept.rest) | dsimp only | split

theorem kept_askAts {r0 : State} {e ctx iova : Nat} {s : State} (hk : Kept r0 s) :
    Kept r0 (askAts e ctx iova s) := by
  unfold askAts
  repeat' first | intro _ | (with_reducible first | assumption | apply kept_emit | apply Kept.ite | fail_if_no_progress apply Kept.rest) | dsimp only | split

theorem kept_endAtElem {r0 : State} {e k : Nat} {st : Status} {s : State} (hk : Kept r0 s) :
    Kept r0 (endAtElem e k st s) := by
  unfold endAtElem
  repeat' first | intro _ | (with_reducible first | assumption | apply kept_setXfe | apply Kept.ite | fail_if_no_progress apply Kept.rest) | dsimp only | split

theorem kept_endEarly {r0 : State} {e : Nat} {st : Status} {s : State} (hk : Kept r0 s) :
    Kept r0 (endEarly e st s) := by
  unfold endEarly
  repeat' first | intro _ | (with_reducible first | assumption | apply kept_endAtElem | apply Kept.ite | fail_if_no_progress apply Kept.rest) | dsimp only | split

theorem kept_endHostDescs {r0 : State} {v : Nat} {s : State} (hk : Kept r0 s) :
    Kept r0 (endHostDescs v s) := by
  unfold endHostDescs
  repeat' first | intro _ | (with_reducible first | assumption | apply kept_setXfe | apply kept_endSource | apply kept_endEarly | apply Kept.ite | apply Kept.foldl | apply Kept.foldl2 | apply Kept.foldl3 | fail_if_no_progress apply Kept.rest) | dsimp only | split

theorem kept_quiesceVi {r0 : State} {v : Nat} {bit : Option Nat} {s : State} (hk : Kept r0 s) :
    Kept r0 (quiesceVi v bit s) := by
  unfold quiesceVi
  repeat' first | intro _ | (with_reducible first | assumption | apply kept_modVi | apply kept_viFault | apply kept_endHostDescs | apply Kept.ite | fail_if_no_progress apply Kept.rest) | dsimp only | split

theorem kept_requestQuiesce {r0 : State} {v : Nat} {bit : Option Nat} {s : State} (hk : Kept r0 s) :
    Kept r0 (requestQuiesce v bit s) := by
  unfold requestQuiesce
  repeat' first | intro _ | (with_reducible first | assumption | apply kept_modVi | apply kept_quiesceVi | apply Kept.ite | fail_if_no_progress apply Kept.rest) | dsimp only | split

theorem kept_ringDenied {r0 : State} {v bit : Nat} {s : State} (hk : Kept r0 s) :
    Kept r0 (ringDenied v bit s) := by
  unfold ringDenied
  repeat' first | intro _ | (with_reducible first | assumption | apply kept_raise | apply kept_requestQuiesce | apply Kept.ite | fail_if_no_progress apply Kept.rest) | dsimp only | split

theorem kept_deliverHeldN {r0 : State} : ∀ (a0 : Nat) {a1 : Nat} {a2 : State}, Kept r0 a2 → Kept r0 (deliverHeldN a0 a1 a2) := by
  intro a0
  induction a0 with
  | zero =>
    intros
    unfold deliverHeldN
    repeat' first | intro _ | (with_reducible first | assumption | apply kept_emit | apply kept_setVi | apply kept_hostWriteNow | apply kept_noteHost | apply kept_askAts | apply kept_ringDenied | apply Kept.ite | apply Kept.opt (by assumption) | apply Kept.getD | apply KeptO.none | apply KeptO.some | apply KeptO.ite | fail_if_no_progress apply Kept.rest) | dsimp only | split
  | succ _ ih =>
    intros
    unfold deliverHeldN
    repeat' first | intro _ | (with_reducible first | assumption | apply ih | apply kept_emit | apply kept_setVi | apply kept_hostWriteNow | apply kept_noteHost | apply kept_askAts | apply kept_ringDenied | apply Kept.ite | apply Kept.opt (by assumption) | apply Kept.getD | apply KeptO.none | apply KeptO.some | apply KeptO.ite | fail_if_no_progress apply Kept.rest) | dsimp only | split

theorem kept_deliverHeld {r0 : State} {v : Nat} {s : State} (hk : Kept r0 s) :
    Kept r0 (deliverHeld v s) := by
  unfold deliverHeld
  repeat' first | intro _ | (with_reducible first | assumption | apply kept_refresh | apply kept_deliverHeldN | apply Kept.ite | fail_if_no_progress apply Kept.rest) | dsimp only | split

theorem kept_detachVi {r0 : State} {v : Nat} {s : State} (hk : Kept r0 s) :
    Kept r0 (detachVi v s) := by
  unfold detachVi
  repeat' first | intro _ | (with_reducible first | assumption | apply kept_modVi | apply kept_endSession | apply Kept.ite | fail_if_no_progress apply Kept.rest) | dsimp only | split

theorem kept_viAtProof {r0 : State} {p : Nat} {s : State} (hk : Kept r0 s) :
    Kept r0 (viAtProof p s) := by
  unfold viAtProof
  repeat' first | intro _ | (with_reducible first | assumption | apply kept_modVi | apply kept_quiesceVi | apply kept_deliverHeld | apply kept_detachVi | apply Kept.ite | apply Kept.foldl | apply Kept.foldl2 | apply Kept.foldl3 | fail_if_no_progress apply Kept.rest) | dsimp only | split

theorem kept_endCommand {r0 : State} {v tag : Nat} {st : Status} {detail : Nat} {s : State} (hk : Kept r0 s) :
    Kept r0 (endCommand v tag st detail s) := by
  unfold endCommand
  repeat' first | intro _ | (with_reducible first | assumption | apply kept_holdEntry | apply kept_deliverHeld | apply Kept.ite | fail_if_no_progress apply Kept.rest) | dsimp only | split

theorem kept_waitSteps {r0 : State} {p : Nat} {s : State} (hk : Kept r0 s) :
    Kept r0 (waitSteps p s) := by
  unfold waitSteps
  repeat' first | intro _ | (with_reducible first | assumption | apply kept_endCommand | apply Kept.ite | apply Kept.foldl | apply Kept.foldl2 | apply Kept.foldl3 | fail_if_no_progress apply Kept.rest) | dsimp only | split

theorem kept_abortSlot {r0 : State} {v : Nat} {s : State} (hk : Kept r0 s) :
    Kept r0 (abortSlot v s) := by
  unfold abortSlot
  repeat' first | intro _ | (with_reducible first | assumption | apply kept_endEarly | apply Kept.ite | apply Kept.foldl | apply Kept.foldl2 | apply Kept.foldl3 | fail_if_no_progress apply Kept.rest) | dsimp only | split

theorem kept_keyFault {r0 : State} {v : Nat} {s : State} (hk : Kept r0 s) :
    Kept r0 (keyFault v s) := by
  unfold keyFault
  repeat' first | intro _ | (with_reducible first | assumption | apply kept_refresh | apply kept_endSession | apply kept_raise | apply kept_abortSlot | apply Kept.ite | fail_if_no_progress apply Kept.rest) | dsimp only | split

theorem kept_slotCheck {r0 : State} {v : Nat} {s : State} (hk : Kept r0 s) :
    Kept r0 (slotCheck v s).2 := by
  unfold slotCheck
  repeat' first | intro _ | (with_reducible first | assumption | apply kept_checkEcc | apply kept_keyFault | apply Kept.ite | fail_if_no_progress apply Kept.rest) | dsimp only | split

theorem kept_endUnrun {r0 : State} {e : Nat} {d : XDesc} {st : Status} {taint : Bool} {s : State} (hk : Kept r0 s) :
    Kept r0 (endUnrun e d st taint s) := by
  unfold endUnrun
  repeat' first | intro _ | (with_reducible first | assumption | apply kept_setXfe | apply kept_markFlag | apply kept_endCommand | apply Kept.ite | fail_if_no_progress apply Kept.rest) | dsimp only | split

theorem kept_passDesc {r0 : State} {d : XDesc} {s : State} (hk : Kept r0 s) :
    Kept r0 (passDesc d s) := by
  unfold passDesc
  repeat' first | intro _ | (with_reducible first | assumption | apply kept_setXfe | apply Kept.ite | fail_if_no_progress apply Kept.rest) | dsimp only | split

end Sys2Proof.Laws
end

