-- ==== Sys2Proof/Laws/KeptSteps.lean ====
section
/-! SUPPORT. What the operations of `Machine/Steps.lean` keep: one lemma each. -/
namespace Sys2Proof.Laws
open Sys2Proof Sys2Proof.Machine Sys2Proof.Safety
set_option linter.unreachableTactic false
set_option linter.unusedTactic false

theorem kept_switchSlots {r0 : State} {p : Nat} {s : State} (hk : Kept r0 s) :
    Kept r0 (switchSlots p s) := by
  unfold switchSlots
  repeat' first | intro _ | (with_reducible first | assumption | apply kept_setCell | apply kept_setCol | apply kept_traceAt | apply kept_slotRead | apply Kept.ite | apply Kept.foldl | apply Kept.foldl2 | apply Kept.foldl3 | fail_if_no_progress apply Kept.rest) | dsimp only | split

theorem kept_fclkToMin {r0 : State} {s : State} (hk : Kept r0 s) :
    Kept r0 (fclkToMin s) := by
  unfold fclkToMin
  repeat' first | intro _ | (with_reducible first | assumption | apply Kept.ite | fail_if_no_progress apply Kept.rest) | dsimp only | split

theorem kept_holdFclk {r0 : State} {s : State} (hk : Kept r0 s) :
    Kept r0 (holdFclk s) := by
  unfold holdFclk
  repeat' first | intro _ | (with_reducible first | assumption | apply Kept.ite | fail_if_no_progress apply Kept.rest) | dsimp only | split

theorem kept_applyFclk {r0 : State} {p : Nat} {s : State} (hk : Kept r0 s) :
    Kept r0 (applyFclk p s) := by
  unfold applyFclk
  repeat' first | intro _ | (with_reducible first | assumption | apply Kept.ite | fail_if_no_progress apply Kept.rest) | dsimp only | split

theorem kept_launchDescs {r0 : State} {p : Nat} {s : State} (hk : Kept r0 s) :
    Kept r0 (launchDescs p s) := by
  unfold launchDescs
  repeat' first | intro _ | (with_reducible first | assumption | apply kept_passDesc | apply Kept.ite | apply Kept.foldl | apply Kept.foldl2 | apply Kept.foldl3 | apply Kept.xfes_map | fail_if_no_progress apply Kept.rest) | dsimp only | split

theorem kept_launchColls {r0 : State} {p : Nat} {s : State} (hk : Kept r0 s) :
    Kept r0 (launchColls p s) := by
  unfold launchColls
  repeat' first | intro _ | (with_reducible first | assumption | apply kept_setCunit | apply Kept.ite | apply Kept.foldl | apply Kept.foldl2 | apply Kept.foldl3 | apply Kept.cols_map | fail_if_no_progress apply Kept.rest) | dsimp only | split

theorem kept_admitSites {r0 : State} {p : Nat} {s : State} (hk : Kept r0 s) :
    Kept r0 (admitSites p s) := by
  unfold admitSites
  repeat' first | intro _ | (with_reducible first | assumption | apply kept_modSite | apply kept_traceAt | apply Kept.ite | apply Kept.foldl | apply Kept.foldl2 | apply Kept.foldl3 | fail_if_no_progress apply Kept.rest) | dsimp only | split

theorem kept_applyVset {r0 : State} {p : Nat} {s : State} (hk : Kept r0 s) :
    Kept r0 (applyVset p s) := by
  unfold applyVset
  repeat' first | intro _ | (with_reducible first | assumption | apply kept_modSite | apply Kept.ite | apply Kept.foldl | apply Kept.foldl2 | apply Kept.foldl3 | fail_if_no_progress apply Kept.rest) | dsimp only | split

theorem kept_sendStepInfo {r0 : State} {p : Nat} {tick : Tick} {s : State} (hk : Kept r0 s) :
    Kept r0 (sendStepInfo p tick s) := by
  unfold sendStepInfo
  repeat' first | intro _ | (with_reducible first | assumption | apply kept_geljaTo | apply Kept.ite | apply Kept.foldl | apply Kept.foldl2 | apply Kept.foldl3 | fail_if_no_progress apply Kept.rest) | dsimp only | split

theorem kept_releaseWires {r0 : State} {p : Nat} {s : State} (hk : Kept r0 s) :
    Kept r0 (releaseWires p s) := by
  unfold releaseWires
  repeat' first | intro _ | (with_reducible first | assumption | apply kept_emit | apply kept_setSite | apply Kept.ite | apply Kept.foldl | apply Kept.foldl2 | apply Kept.foldl3 | fail_if_no_progress apply Kept.rest) | dsimp only | split

theorem kept_writeAudit {r0 : State} {p : Nat} {st : Status} {s : State} (hk : Kept r0 s) :
    Kept r0 (writeAudit p st s) := by
  unfold writeAudit
  repeat' first | intro _ | (with_reducible first | assumption | apply kept_modPart | apply kept_dvaWrite | apply Kept.ite | fail_if_no_progress apply Kept.rest) | dsimp only | split

theorem kept_endStep {r0 : State} {p : Nat} {s : State} (hk : Kept r0 s) :
    Kept r0 (endStep p s) := by
  unfold endStep
  repeat' first | intro _ | (with_reducible first | assumption | apply kept_modPart | apply kept_viAtProof | apply kept_writeAudit | apply Kept.ite | fail_if_no_progress apply Kept.rest) | dsimp only | split

theorem kept_enterHeld {r0 : State} {p : Nat} {m : BitVec 7} {complete : Bool} {s : State} (hk : Kept r0 s) :
    Kept r0 (enterHeld p m complete s) := by
  unfold enterHeld
  repeat' first | intro _ | (with_reducible first | assumption | apply kept_modPart | apply kept_setPState | apply kept_settleArmed | apply kept_endStep | apply Kept.ite | fail_if_no_progress apply Kept.rest) | dsimp only | split

theorem kept_startStep {r0 : State} {p : Nat} {T : Tick} {entry : Bool} {s : State} (hk : Kept r0 s) :
    Kept r0 (startStep p T entry s) := by
  unfold startStep
  repeat' first | intro _ | (with_reducible first | assumption | apply kept_setPart | apply kept_traceAt | apply kept_setPState | apply kept_qosRelease | apply kept_waitSteps | apply kept_switchSlots | apply kept_applyFclk | apply kept_launchDescs | apply kept_launchColls | apply kept_admitSites | apply kept_applyVset | apply kept_releaseWires | apply Kept.ite | fail_if_no_progress apply Kept.rest) | dsimp only | split

theorem kept_releaseNow {r0 : State} {p : Nat} {s : State} (hk : Kept r0 s) :
    Kept r0 (releaseNow p s) := by
  unfold releaseNow
  repeat' first | intro _ | (with_reducible first | assumption | apply kept_modPart | apply kept_endStep | apply kept_enterHeld | apply kept_startStep | apply Kept.ite | fail_if_no_progress apply Kept.rest) | dsimp only | split

theorem kept_recordStretch {r0 : State} {p A : Nat} {s : State} (hk : Kept r0 s) :
    Kept r0 (recordStretch p A s) := by
  unfold recordStretch
  repeat' first | intro _ | (with_reducible first | assumption | apply kept_setPart | apply Kept.ite | fail_if_no_progress apply Kept.rest) | dsimp only | split

theorem kept_toChildren {r0 : State} {p : Nat} {t : Token} {s : State} (hk : Kept r0 s) :
    Kept r0 (toChildren p t s) := by
  unfold toChildren
  repeat' first | intro _ | (with_reducible first | assumption | apply kept_sendToken | apply Kept.ite | apply Kept.foldl | apply Kept.foldl2 | apply Kept.foldl3 | fail_if_no_progress apply Kept.rest) | dsimp only | split

theorem kept_armRelease {r0 : State} {p : Nat} {tick : Tick} {dist : Bool} {s : State} (hk : Kept r0 s) :
    Kept r0 (armRelease p tick dist s) := by
  unfold armRelease
  repeat' first | intro _ | (with_reducible first | assumption | apply kept_modPart | apply kept_sendStepInfo | apply Kept.ite | fail_if_no_progress apply Kept.rest) | dsimp only | split

theorem kept_measureD {r0 : State} {p : Nat} {s : State} (hk : Kept r0 s) :
    Kept r0 (measureD p s) := by
  unfold measureD
  repeat' first | intro _ | (with_reducible first | assumption | apply kept_drawFree | apply kept_setPart | apply Kept.ite | fail_if_no_progress apply Kept.rest) | dsimp only | split

theorem kept_tryReady {r0 : State} {p : Nat} {s : State} (hk : Kept r0 s) :
    Kept r0 (tryReady p s) := by
  unfold tryReady
  repeat' first | intro _ | (with_reducible first | assumption | apply kept_modPart | apply kept_sendToken | apply kept_raise | apply kept_toChildren | apply kept_armRelease | apply kept_measureD | apply Kept.ite | fail_if_no_progress apply Kept.rest) | dsimp only | split

theorem kept_becomeReady {r0 : State} {p : Nat} {s : State} (hk : Kept r0 s) :
    Kept r0 (becomeReady p s) := by
  unfold becomeReady
  repeat' first | intro _ | (with_reducible first | assumption | apply kept_modPart | apply kept_tryReady | apply Kept.ite | fail_if_no_progress apply Kept.rest) | dsimp only | split

theorem kept_rootDecide {r0 : State} {p : Nat} {s : State} (hk : Kept r0 s) :
    Kept r0 (rootDecide p s) := by
  unfold rootDecide
  repeat' first | intro _ | (with_reducible first | assumption | apply kept_modPart | apply kept_enterHeld | apply kept_recordStretch | apply kept_toChildren | apply kept_armRelease | apply kept_tryReady | apply Kept.ite | fail_if_no_progress apply Kept.rest) | dsimp only | split

theorem kept_tryForward {r0 : State} {p : Nat} {s : State} (hk : Kept r0 s) :
    Kept r0 (tryForward p s) := by
  unfold tryForward
  repeat' first | intro _ | (with_reducible first | assumption | apply kept_modPart | apply kept_sendToken | apply kept_rootDecide | apply Kept.ite | fail_if_no_progress apply Kept.rest) | dsimp only | split

theorem kept_tryArrive {r0 : State} {p : Nat} {s : State} (hk : Kept r0 s) :
    Kept r0 (tryArrive p s) := by
  unfold tryArrive
  repeat' first | intro _ | (with_reducible first | assumption | apply kept_modPart | apply kept_enterHeld | apply kept_recordStretch | apply kept_armRelease | apply kept_tryReady | apply kept_tryForward | apply Kept.ite | fail_if_no_progress apply Kept.rest) | dsimp only | split

theorem kept_auditTake {r0 : State} {p : Nat} {bs : List Byte} {s : State} (hk : Kept r0 s) :
    Kept r0 (auditTake p bs s) := by
  unfold auditTake
  repeat' first | intro _ | (with_reducible first | assumption | apply kept_modPart | apply Kept.ite | fail_if_no_progress apply Kept.rest) | dsimp only | split

theorem kept_auditStep {r0 : State} {p : Nat} {s : State} (hk : Kept r0 s) :
    Kept r0 (auditStep p s) := by
  unfold auditStep
  repeat' first | intro _ | (with_reducible first | assumption | apply kept_modPart | apply kept_noteXlat | apply kept_raise | apply kept_issueReq | apply kept_freeBytes | apply kept_auditTake | apply Kept.ite | apply Kept.snd (by assumption) | fail_if_no_progress apply Kept.rest) | dsimp only | split

theorem kept_auditRead {r0 : State} {p tag : Nat} {bs : List Byte} {s : State} (hk : Kept r0 s) :
    Kept r0 (auditRead p tag bs s) := by
  unfold auditRead
  repeat' first | intro _ | (with_reducible first | assumption | apply kept_auditTake | apply Kept.ite | fail_if_no_progress apply Kept.rest) | dsimp only | split

theorem kept_enterBroken {r0 : State} {p : Nat} {tell : Bool} {s : State} (hk : Kept r0 s) :
    Kept r0 (enterBroken p tell s) := by
  unfold enterBroken
  repeat' first | intro _ | (with_reducible first | assumption | apply kept_modPart | apply kept_setPState | apply kept_sendToken | apply kept_settleArmed | apply kept_raise | apply Kept.ite | apply Kept.foldl | apply Kept.foldl2 | apply Kept.foldl3 | fail_if_no_progress apply Kept.rest) | dsimp only | split

theorem kept_localArrival {r0 : State} {p : Nat} {s : State} (hk : Kept r0 s) :
    Kept r0 (localArrival p s) := by
  unfold localArrival
  repeat' first | intro _ | (with_reducible first | assumption | apply kept_emit | apply kept_modPart | apply kept_modSite | apply kept_traceAt | apply kept_sendHold | apply kept_setPState | apply kept_markFlag | apply kept_applyProof | apply kept_startSites | apply kept_tryArrive | apply kept_enterBroken | apply Kept.ite | apply Kept.foldl | apply Kept.foldl2 | apply Kept.foldl3 | fail_if_no_progress apply Kept.rest) | dsimp only | split

theorem kept_budgetEnd {r0 : State} {p : Nat} {s : State} (hk : Kept r0 s) :
    Kept r0 (budgetEnd p s) := by
  unfold budgetEnd
  repeat' first | intro _ | (with_reducible first | assumption | apply kept_modPart | apply kept_tryArrive | apply Kept.ite | fail_if_no_progress apply Kept.rest) | dsimp only | split

theorem kept_resumeArrival {r0 : State} {p : Nat} {s : State} (hk : Kept r0 s) :
    Kept r0 (resumeArrival p s) := by
  unfold resumeArrival
  repeat' first | intro _ | (with_reducible first | assumption | apply kept_tryArrive | apply Kept.ite | fail_if_no_progress apply Kept.rest) | dsimp only | split

theorem kept_localRelease {r0 : State} {p : Nat} {s : State} (hk : Kept r0 s) :
    Kept r0 (localRelease p s) := by
  unfold localRelease
  repeat' first | intro _ | (with_reducible first | assumption | apply kept_refresh | apply kept_releaseNow | apply Kept.ite | fail_if_no_progress apply Kept.rest) | dsimp only | split

end Sys2Proof.Laws
end

