-- ==== Sys2Proof/Laws/KeptXfeOps.lean ====
section
/-! SUPPORT. What the operations of `Machine/XfeOps.lean` keep: one lemma each. -/
namespace Sys2Proof.Laws
open Sys2Proof Sys2Proof.Machine Sys2Proof.Safety
set_option linter.unreachableTactic false
set_option linter.unusedTactic false

theorem kept_noteSpot {r0 : State} {e ctx : Nat} {write : Bool} {p : Nat × Nat × XSpot} {s : State} (hk : Kept r0 s) :
    Kept r0 (noteSpot e ctx write p s) := by
  unfold noteSpot
  repeat' first | intro _ | (with_reducible first | assumption | apply kept_noteXlat | apply kept_noteHost | apply Kept.ite | fail_if_no_progress apply Kept.rest) | dsimp only | split

theorem kept_xRequest {r0 : State} {e : Nat} {d : XDesc} {write : Bool} {use : ReqUse} {p : Nat × Nat × XSpot} {data : List Byte} {poison : Bool} {s : State} (hk : Kept r0 s) :
    Kept r0 (xRequest e d write use p data poison s).2 := by
  unfold xRequest
  repeat' first | intro _ | (with_reducible first | assumption | apply kept_issueReq | apply kept_issueHostRead | apply kept_noteSpot | apply Kept.ite | apply Kept.snd (by assumption) | fail_if_no_progress apply Kept.rest) | dsimp only | split

theorem kept_xPost {r0 : State} {e : Nat} {d : XDesc} {p : Nat × Nat × XSpot} {data : List Byte} {poison : Bool} {s : State} (hk : Kept r0 s) :
    Kept r0 (xPost e d p data poison s).2 := by
  unfold xPost
  repeat' first | intro _ | (with_reducible first | assumption | apply kept_emit | apply kept_issueReq | apply kept_hostWriteNow | apply kept_noteSpot | apply Kept.ite | apply Kept.snd (by assumption) | apply Kept.opt (by assumption) | apply Kept.getD | apply KeptO.none | apply KeptO.some | apply KeptO.ite | fail_if_no_progress apply Kept.rest) | dsimp only | split

theorem kept_xReads {r0 : State} {e : Nat} {d : XDesc} {i : Nat} {ps : List (Nat × Nat × XSpot)} {s : State} (hk : Kept r0 s) :
    Kept r0 (xReads e d i ps s).2 := by
  unfold xReads
  repeat' first | intro _ | (with_reducible first | assumption | apply kept_xRequest | apply Kept.ite | apply Kept.foldl | apply Kept.foldl2 | apply Kept.foldl3 | fail_if_no_progress apply Kept.rest) | dsimp only | split

theorem kept_sendPageReqs {r0 : State} {s : State} (hk : Kept r0 s) :
    Kept r0 (sendPageReqs s) := by
  unfold sendPageReqs
  repeat' first | intro _ | (with_reducible first | assumption | apply kept_emit | apply kept_setXfe | apply Kept.ite | apply Kept.foldl | apply Kept.foldl2 | apply Kept.foldl3 | fail_if_no_progress apply Kept.rest) | dsimp only | split

theorem kept_pageFault {r0 : State} {e k dva iova : Nat} {s : State} (hk : Kept r0 s) :
    Kept r0 (pageFault e k dva iova s) := by
  unfold pageFault
  repeat' first | intro _ | (with_reducible first | assumption | apply kept_setXfe | apply kept_endAtElem | apply Kept.ite | fail_if_no_progress apply Kept.rest) | dsimp only | split

theorem kept_xBlocked {r0 : State} {e k : Nat} {fail : Option Nat} {p : XPlan} {s : State} (hk : Kept r0 s) :
    Kept r0 (xBlocked e k fail p s).2 := by
  unfold xBlocked
  repeat' first | intro _ | (with_reducible first | assumption | apply kept_noteXlat | apply kept_raise | apply kept_askAts | apply kept_endAtElem | apply kept_pageFault | apply Kept.ite | fail_if_no_progress apply Kept.rest) | dsimp only | split

theorem kept_delivered {r0 : State} {e k : Nat} {s : State} (hk : Kept r0 s) :
    Kept r0 (delivered e k s) := by
  unfold delivered
  repeat' first | intro _ | (with_reducible first | assumption | apply kept_setXfe | apply Kept.ite | fail_if_no_progress apply Kept.rest) | dsimp only | split

theorem kept_popUnits {r0 : State} : ∀ (a0 : Nat) {a1 : Nat} {a2 : State}, Kept r0 a2 → Kept r0 (popUnits a0 a1 a2) := by
  intro a0
  induction a0 with
  | zero =>
    intros
    unfold popUnits
    repeat' first | intro _ | (with_reducible first | assumption | apply kept_setXfe | apply kept_delivered | apply Kept.ite | fail_if_no_progress apply Kept.rest) | dsimp only | split
  | succ _ ih =>
    intros
    unfold popUnits
    repeat' first | intro _ | (with_reducible first | assumption | apply ih | apply kept_setXfe | apply kept_delivered | apply Kept.ite | fail_if_no_progress apply Kept.rest) | dsimp only | split

theorem kept_settle {r0 : State} {e : Nat} {s : State} (hk : Kept r0 s) :
    Kept r0 (settle e s) := by
  unfold settle
  repeat' first | intro _ | (with_reducible first | assumption | apply kept_popUnits | apply Kept.ite | fail_if_no_progress apply Kept.rest) | dsimp only | split

theorem kept_sealFail {r0 : State} {e k vi : Nat} {s : State} (hk : Kept r0 s) :
    Kept r0 (sealFail e k vi s) := by
  unfold sealFail
  repeat' first | intro _ | (with_reducible first | assumption | apply kept_raise | apply kept_viFault | apply kept_endAtElem | apply Kept.ite | fail_if_no_progress apply Kept.rest) | dsimp only | split

theorem kept_openFetched {r0 : State} {e : Nat} {s : State} (hk : Kept r0 s) :
    Kept r0 (openFetched e s) := by
  unfold openFetched
  repeat' first | intro _ | (with_reducible first | assumption | apply kept_setXfe | apply kept_setSeal | apply kept_sealFail | apply Kept.ite | fail_if_no_progress apply Kept.rest) | dsimp only | split

theorem kept_openRecord {r0 : State} {e : Nat} {s : State} (hk : Kept r0 s) :
    Kept r0 (openRecord e s) := by
  unfold openRecord
  repeat' first | intro _ | (with_reducible first | assumption | apply kept_slotCheck | apply kept_openFetched | apply Kept.ite | apply Kept.snd (by assumption) | fail_if_no_progress apply Kept.rest) | dsimp only | split

theorem kept_sendRecord {r0 : State} {e : Nat} {fail : Option Nat} {s : State} (hk : Kept r0 s) :
    Kept r0 (sendRecord e fail s).2 := by
  unfold sendRecord
  repeat' first | intro _ | (with_reducible first | assumption | apply kept_setXfe | apply kept_setSeal | apply kept_endAtElem | apply kept_slotCheck | apply kept_xPost | apply kept_xBlocked | apply kept_delivered | apply Kept.ite | apply Kept.foldl | apply Kept.foldl2 | apply Kept.foldl3 | apply Kept.snd (by assumption) | fail_if_no_progress apply Kept.rest) | dsimp only | split

theorem kept_xWrites {r0 : State} {e : Nat} {d : XDesc} {u : XUnit} {base : Nat} {bs : List Byte} {scale poison : Bool} {ps : List (Nat × Nat × XSpot)} {s : State} (hk : Kept r0 s) :
    Kept r0 (xWrites e d u base bs scale poison ps s).2 := by
  unfold xWrites
  repeat' first | intro _ | (with_reducible first | assumption | apply kept_xRequest | apply kept_xPost | apply Kept.ite | apply Kept.foldl | apply Kept.foldl2 | apply Kept.foldl3 | apply Kept.snd (by assumption) | fail_if_no_progress apply Kept.rest) | dsimp only | split

theorem kept_tryWrite {r0 : State} {e : Nat} {fail : Option Nat} {s : State} (hk : Kept r0 s) :
    Kept r0 (tryWrite e fail s).2 := by
  unfold tryWrite
  repeat' first | intro _ | (with_reducible first | assumption | apply kept_setXfe | apply kept_xBlocked | apply kept_settle | apply kept_xWrites | apply Kept.ite | apply Kept.snd (by assumption) | fail_if_no_progress apply Kept.rest) | dsimp only | split

theorem kept_tryFetch {r0 : State} {e : Nat} {fail : Option Nat} {s : State} (hk : Kept r0 s) :
    Kept r0 (tryFetch e fail s).2 := by
  unfold tryFetch
  repeat' first | intro _ | (with_reducible first | assumption | apply kept_setXfe | apply kept_xReads | apply kept_xBlocked | apply Kept.ite | apply Kept.snd (by assumption) | fail_if_no_progress apply Kept.rest) | dsimp only | split

theorem kept_tryRead {r0 : State} {e : Nat} {fail : Option Nat} {s : State} (hk : Kept r0 s) :
    Kept r0 (tryRead e fail s).2 := by
  unfold tryRead
  repeat' first | intro _ | (with_reducible first | assumption | apply kept_setXfe | apply kept_xReads | apply kept_xBlocked | apply kept_tryFetch | apply Kept.ite | apply Kept.snd (by assumption) | fail_if_no_progress apply Kept.rest) | dsimp only | split

theorem kept_pumpN {r0 : State} : ∀ (a0 : Nat) {a1 : Nat} {a2 : Option Nat} {a3 : State}, Kept r0 a3 → Kept r0 (pumpN a0 a1 a2 a3) := by
  intro a0
  induction a0 with
  | zero =>
    intros
    unfold pumpN
    repeat' first | intro _ | (with_reducible first | assumption | apply kept_sendRecord | apply kept_tryWrite | apply kept_tryRead | apply Kept.ite | fail_if_no_progress apply Kept.rest) | dsimp only | split
  | succ _ ih =>
    intros
    unfold pumpN
    repeat' first | intro _ | (with_reducible first | assumption | apply ih | apply kept_sendRecord | apply kept_tryWrite | apply kept_tryRead | apply Kept.ite | fail_if_no_progress apply Kept.rest) | dsimp only | split

theorem kept_pumpXfe {r0 : State} {e : Nat} {fail : Option Nat} {s : State} (hk : Kept r0 s) :
    Kept r0 (pumpXfe e fail s) := by
  unfold pumpXfe
  repeat' first | intro _ | (with_reducible first | assumption | apply kept_sendPageReqs | apply kept_pumpN | apply Kept.ite | fail_if_no_progress apply Kept.rest) | dsimp only | split

theorem kept_pumpAll {r0 : State} {s : State} (hk : Kept r0 s) :
    Kept r0 (pumpAll s) := by
  unfold pumpAll
  repeat' first | intro _ | (with_reducible first | assumption | apply kept_pumpXfe | apply Kept.ite | apply Kept.foldl | apply Kept.foldl2 | apply Kept.foldl3 | fail_if_no_progress apply Kept.rest) | dsimp only | split

theorem kept_xfeRead {r0 : State} {e tag : Nat} {bs : List Byte} {poison : Bool} {s : State} (hk : Kept r0 s) :
    Kept r0 (xfeRead e tag bs poison s) := by
  unfold xfeRead
  repeat' first | intro _ | (with_reducible first | assumption | apply kept_setXfe | apply kept_markFlag | apply kept_raise | apply kept_checkEcc | apply kept_openRecord | apply kept_pumpXfe | apply Kept.ite | apply Kept.snd (by assumption) | fail_if_no_progress apply Kept.rest) | dsimp only | split

theorem kept_xfeWrote {r0 : State} {e tag : Nat} {refused : Bool} {s : State} (hk : Kept r0 s) :
    Kept r0 (xfeWrote e tag refused s) := by
  unfold xfeWrote
  repeat' first | intro _ | (with_reducible first | assumption | apply kept_setXfe | apply kept_settle | apply kept_pumpXfe | apply Kept.ite | fail_if_no_progress apply Kept.rest) | dsimp only | split

theorem kept_xfePosted {r0 : State} {e tag : Nat} {s : State} (hk : Kept r0 s) :
    Kept r0 (xfePosted e tag s) := by
  unfold xfePosted
  repeat' first | intro _ | (with_reducible first | assumption | apply kept_setXfe | apply kept_pumpXfe | apply kept_xfeWrote | apply Kept.ite | fail_if_no_progress apply Kept.rest) | dsimp only | split

theorem kept_xfeReadFailed {r0 : State} {e tag : Nat} {s : State} (hk : Kept r0 s) :
    Kept r0 (xfeReadFailed e tag s) := by
  unfold xfeReadFailed
  repeat' first | intro _ | (with_reducible first | assumption | apply kept_setXfe | apply kept_endAtElem | apply kept_pumpXfe | apply Kept.ite | fail_if_no_progress apply Kept.rest) | dsimp only | split

theorem kept_nextDesc {r0 : State} {e : Nat} {s : State} (hk : Kept r0 s) :
    Kept r0 (nextDesc e s) := by
  unfold nextDesc
  repeat' first | intro _ | (with_reducible first | assumption | apply kept_setXfe | apply kept_fenceXfe | apply Kept.ite | fail_if_no_progress apply Kept.rest) | dsimp only | split

theorem kept_finishDesc {r0 : State} {e : Nat} {c : XCur} {st : Status} {s : State} (hk : Kept r0 s) :
    Kept r0 (finishDesc e c st s) := by
  unfold finishDesc
  repeat' first | intro _ | (with_reducible first | assumption | apply kept_setXfe | apply kept_traceAt | apply kept_markFlag | apply kept_raise | apply kept_endCommand | apply kept_nextDesc | apply Kept.ite | fail_if_no_progress apply Kept.rest) | dsimp only | split

end Sys2Proof.Laws
end

