-- ==== Sys2Proof/Laws/KeptHostOps.lean ====
section
/-! SUPPORT. What the operations of `Machine/HostOps.lean` keep: one lemma each. -/
namespace Sys2Proof.Laws
open Sys2Proof Sys2Proof.Machine Sys2Proof.Safety
set_option linter.unreachableTactic false
set_option linter.unusedTactic false

theorem kept_runCommand {r0 : State} {p v tag : Nat} {r : BitVec 512} {s : State} (hk : Kept r0 s) :
    Kept r0 (runCommand p v tag r s) := by
  unfold runCommand
  repeat' first | intro _ | (with_reducible first | assumption | apply kept_modVi | apply kept_raise | apply kept_endCommand | apply kept_endUnrun | apply kept_passDesc | apply Kept.ite | fail_if_no_progress apply Kept.rest) | dsimp only | split

theorem kept_deliverRecord {r0 : State} {p v : Nat} {s : State} (hk : Kept r0 s) :
    Kept r0 (deliverRecord p v s) := by
  unfold deliverRecord
  repeat' first | intro _ | (with_reducible first | assumption | apply kept_setVi | apply kept_setSeal | apply kept_raise | apply kept_viFault | apply kept_endCommand | apply kept_slotCheck | apply kept_runCommand | apply Kept.ite | apply Kept.snd (by assumption) | fail_if_no_progress apply Kept.rest) | dsimp only | split

theorem kept_deliverN {r0 : State} : ∀ (a0 : Nat) {a1 : Nat} {a2 : Nat} {a3 : State}, Kept r0 a3 → Kept r0 (deliverN a0 a1 a2 a3) := by
  intro a0
  induction a0 with
  | zero =>
    intros
    unfold deliverN
    repeat' first | intro _ | (with_reducible first | assumption | apply kept_deliverRecord | apply Kept.ite | fail_if_no_progress apply Kept.rest) | dsimp only | split
  | succ _ ih =>
    intros
    unfold deliverN
    repeat' first | intro _ | (with_reducible first | assumption | apply ih | apply kept_deliverRecord | apply Kept.ite | fail_if_no_progress apply Kept.rest) | dsimp only | split

theorem kept_ringFault {r0 : State} {e v dva iova : Nat} {s : State} (hk : Kept r0 s) :
    Kept r0 (ringFault e v dva iova s) := by
  unfold ringFault
  repeat' first | intro _ | (with_reducible first | assumption | apply kept_setXfe | apply kept_raise | apply kept_requestQuiesce | apply kept_sendPageReqs | apply Kept.ite | fail_if_no_progress apply Kept.rest) | dsimp only | split

theorem kept_ringRead {r0 : State} {p v : Nat} {fail : Option Nat} {s : State} (hk : Kept r0 s) :
    Kept r0 (ringRead p v fail s) := by
  unfold ringRead
  repeat' first | intro _ | (with_reducible first | assumption | apply kept_modVi | apply kept_noteHost | apply kept_issueHostRead | apply kept_askAts | apply kept_ringDenied | apply kept_ringFault | apply Kept.ite | apply Kept.foldl | apply Kept.foldl2 | apply Kept.foldl3 | apply Kept.snd (by assumption) | fail_if_no_progress apply Kept.rest) | dsimp only | split

theorem kept_closeReq {r0 : State} {tag : Nat} {s : State} (hk : Kept r0 s) :
    Kept r0 (closeReq tag s) := by
  unfold closeReq
  repeat' first | intro _ | (with_reducible first | assumption | apply kept_completeStats | apply Kept.ite | fail_if_no_progress apply Kept.rest) | dsimp only | split

theorem kept_ringWhole {r0 : State} {v : Nat} {r : RingRead} {s : State} (hk : Kept r0 s) :
    Kept r0 (ringWhole v r s) := by
  unfold ringWhole
  repeat' first | intro _ | (with_reducible first | assumption | apply kept_setVi | apply Kept.ite | fail_if_no_progress apply Kept.rest) | dsimp only | split

theorem kept_ringReturned {r0 : State} {v tag : Nat} {ok poison : Bool} {word : BitVec 512} {s : State} (hk : Kept r0 s) :
    Kept r0 (ringReturned v tag ok poison word s) := by
  unfold ringReturned
  repeat' first | intro _ | (with_reducible first | assumption | apply kept_setVi | apply kept_raise | apply kept_requestQuiesce | apply kept_closeReq | apply kept_ringWhole | apply Kept.ite | fail_if_no_progress apply Kept.rest) | dsimp only | split

theorem kept_ringRetry {r0 : State} {e : Nat} {fail : Option (Nat × Nat)} {s : State} (hk : Kept r0 s) :
    Kept r0 (ringRetry e fail s) := by
  unfold ringRetry
  repeat' first | intro _ | (with_reducible first | assumption | apply kept_deliverHeld | apply kept_ringFault | apply kept_ringRead | apply Kept.ite | apply Kept.foldl | apply Kept.foldl2 | apply Kept.foldl3 | fail_if_no_progress apply Kept.rest) | dsimp only | split

theorem kept_ringRetryAll {r0 : State} {s : State} (hk : Kept r0 s) :
    Kept r0 (ringRetryAll s) := by
  unfold ringRetryAll
  repeat' first | intro _ | (with_reducible first | assumption | apply kept_ringRead | apply Kept.ite | apply Kept.foldl | apply Kept.foldl2 | apply Kept.foldl3 | fail_if_no_progress apply Kept.rest) | dsimp only | split

theorem kept_abortFetch {r0 : State} {s : State} (hk : Kept r0 s) :
    Kept r0 (abortFetch s) := by
  unfold abortFetch
  repeat' first | intro _ | (with_reducible first | assumption | apply kept_mbEnd | apply kept_dropWindow | apply Kept.ite | fail_if_no_progress apply Kept.rest) | dsimp only | split

theorem kept_stopDma {r0 : State} {reason : Nat} {s : State} (hk : Kept r0 s) :
    Kept r0 (stopDma reason s) := by
  unfold stopDma
  repeat' first | intro _ | (with_reducible first | assumption | apply kept_setXfe | apply kept_markFlag | apply kept_raise | apply kept_endEarly | apply kept_settle | apply kept_abortFetch | apply Kept.ite | apply Kept.foldl | apply Kept.foldl2 | apply Kept.foldl3 | apply Kept.vis_map | fail_if_no_progress apply Kept.rest) | dsimp only | split

theorem kept_resetHostIsland {r0 : State} {s : State} (hk : Kept r0 s) :
    Kept r0 (resetHostIsland s) := by
  unfold resetHostIsland
  repeat' first | intro _ | (with_reducible first | assumption | apply kept_xlDrop | apply kept_quiesceVi | apply Kept.ite | apply Kept.foldl | apply Kept.foldl2 | apply Kept.foldl3 | apply Kept.vis_map | fail_if_no_progress apply Kept.rest) | dsimp only | split

end Sys2Proof.Laws
end

