-- ==== Sys2Proof/Laws/KeptLinkOps.lean ====
section
/-! SUPPORT. What the operations of `Machine/LinkOps.lean` keep: one lemma each. -/
namespace Sys2Proof.Laws
open Sys2Proof Sys2Proof.Machine Sys2Proof.Safety
set_option linter.unreachableTactic false
set_option linter.unusedTactic false

theorem kept_transmit {r0 : State} {n : Nat} {again : Bool} {sl : Slot} {s : State} (hk : Kept r0 s) :
    Kept r0 (transmit n again sl s) := by
  unfold transmit
  repeat' first | intro _ | (with_reducible first | assumption | apply kept_drawFree | apply kept_emit | apply kept_setPort | apply kept_setCunit | apply kept_traceAt | apply Kept.ite | fail_if_no_progress apply Kept.rest) | dsimp only | split

theorem kept_drainTxN {r0 : State} : ∀ (a0 : Nat) {a1 : Nat} {a2 : State}, Kept r0 a2 → Kept r0 (drainTxN a0 a1 a2) := by
  intro a0
  induction a0 with
  | zero =>
    intros
    unfold drainTxN
    repeat' first | intro _ | (with_reducible first | assumption | apply kept_setPort | apply kept_transmit | apply Kept.ite | fail_if_no_progress apply Kept.rest) | dsimp only | split
  | succ _ ih =>
    intros
    unfold drainTxN
    repeat' first | intro _ | (with_reducible first | assumption | apply ih | apply kept_setPort | apply kept_transmit | apply Kept.ite | fail_if_no_progress apply Kept.rest) | dsimp only | split

theorem kept_drainTx {r0 : State} {n : Nat} {s : State} (hk : Kept r0 s) :
    Kept r0 (drainTx n s) := by
  unfold drainTx
  repeat' first | intro _ | (with_reducible first | assumption | apply kept_drainTxN | apply Kept.ite | fail_if_no_progress apply Kept.rest) | dsimp only | split

theorem kept_sendSlot {r0 : State} {n : Nat} {sl : Slot} {s : State} (hk : Kept r0 s) :
    Kept r0 (sendSlot n sl s) := by
  unfold sendSlot
  repeat' first | intro _ | (with_reducible first | assumption | apply kept_setPort | apply kept_drainTx | apply Kept.ite | fail_if_no_progress apply Kept.rest) | dsimp only | split

theorem kept_refreshMirrors {r0 : State} {s : State} (hk : Kept r0 s) :
    Kept r0 (refreshMirrors s) := by
  unfold refreshMirrors
  repeat' first | intro _ | (with_reducible first | assumption | apply Kept.ite | apply Kept.foldl | apply Kept.foldl2 | apply Kept.foldl3 | fail_if_no_progress apply Kept.rest) | dsimp only | split

theorem kept_setLink {r0 : State} {n : Nat} {st : PortState} {s : State} (hk : Kept r0 s) :
    Kept r0 (setLink n st s) := by
  unfold setLink
  repeat' first | intro _ | (with_reducible first | assumption | apply kept_setPort | apply kept_traceAt | apply kept_refreshMirrors | apply Kept.ite | fail_if_no_progress apply Kept.rest) | dsimp only | split

end Sys2Proof.Laws
end

