-- ==== Sys2Proof/Laws/KeptColOps.lean ====
section
/-! SUPPORT. What the operations of `Machine/ColOps.lean` keep: one lemma each. -/
namespace Sys2Proof.Laws
open Sys2Proof Sys2Proof.Machine Sys2Proof.Safety
set_option linter.unreachableTactic false
set_option linter.unusedTactic false

theorem kept_modOp {r0 : State} {c : Nat} {f : COp → COp} {s : State} (hk : Kept r0 s) :
    Kept r0 (modOp c f s) := by
  unfold modOp
  repeat' first | intro _ | (with_reducible first | assumption | apply kept_setCunit | apply Kept.ite | fail_if_no_progress apply Kept.rest) | dsimp only | split

theorem kept_collRequest {r0 : State} {c : Nat} {who : Initiator} {o : COp} {write : Bool} {dva len : Nat} {data : List Byte} {poison : Bool} {s : State} (hk : Kept r0 s) :
    Kept r0 (collRequest c who o write dva len data poison s).2 := by
  unfold collRequest
  repeat' first | intro _ | (with_reducible first | assumption | apply kept_noteXlat | apply kept_raise | apply kept_issueReq | apply Kept.ite | apply Kept.snd (by assumption) | fail_if_no_progress apply Kept.rest) | dsimp only | split

theorem kept_collWrite {r0 : State} {c : Nat} {who : Initiator} {dva : Nat} {bs : List Byte} {poison : Bool} {seg : Option (Nat × Nat)} {s : State} (hk : Kept r0 s) :
    Kept r0 (collWrite c who dva bs poison seg s) := by
  unfold collWrite
  repeat' first | intro _ | (with_reducible first | assumption | apply kept_modOp | apply kept_collRequest | apply Kept.ite | apply Kept.snd (by assumption) | fail_if_no_progress apply Kept.rest) | dsimp only | split

theorem kept_writeFin {r0 : State} {c : Nat} {q : CRound} {got : COp} {s : State} (hk : Kept r0 s) :
    Kept r0 (writeFin c q got s) := by
  unfold writeFin
  repeat' first | intro _ | (with_reducible first | assumption | apply kept_collWrite | apply Kept.ite | apply Kept.foldl | apply Kept.foldl2 | apply Kept.foldl3 | fail_if_no_progress apply Kept.rest) | dsimp only | split

theorem kept_queueSlot {r0 : State} {c n phase : Nat} {bs : List Byte} {poison : Nat} {s : State} (hk : Kept r0 s) :
    Kept r0 (queueSlot c n phase bs poison s) := by
  unfold queueSlot
  repeat' first | intro _ | (with_reducible first | assumption | apply kept_setCunit | apply kept_sendSlot | apply Kept.ite | fail_if_no_progress apply Kept.rest) | dsimp only | split

theorem kept_sendRound {r0 : State} {c : Nat} {r : CRound} {s : State} (hk : Kept r0 s) :
    Kept r0 (sendRound c r s) := by
  unfold sendRound
  repeat' first | intro _ | (with_reducible first | assumption | apply kept_queueSlot | apply Kept.ite | apply Kept.foldl | apply Kept.foldl2 | apply Kept.foldl3 | fail_if_no_progress apply Kept.rest) | dsimp only | split

theorem kept_dropOpSlots {r0 : State} {c part step : Nat} {s : State} (hk : Kept r0 s) :
    Kept r0 (dropOpSlots c part step s) := by
  unfold dropOpSlots
  repeat' first | intro _ | (with_reducible first | assumption | apply kept_setPort | apply kept_sendCredit | apply Kept.ite | apply Kept.foldl | apply Kept.foldl2 | apply Kept.foldl3 | fail_if_no_progress apply Kept.rest) | dsimp only | split

theorem kept_abortOp {r0 : State} {c : Nat} {s : State} (hk : Kept r0 s) :
    Kept r0 (abortOp c s) := by
  unfold abortOp
  repeat' first | intro _ | (with_reducible first | assumption | apply kept_setCunit | apply kept_traceAt | apply kept_sendAborts | apply kept_dropOpSlots | apply Kept.ite | fail_if_no_progress apply Kept.rest) | dsimp only | split

theorem kept_endOp {r0 : State} {c : Nat} {s : State} (hk : Kept r0 s) :
    Kept r0 (endOp c s) := by
  unfold endOp
  repeat' first | intro _ | (with_reducible first | assumption | apply kept_setCunit | apply kept_traceAt | apply Kept.ite | fail_if_no_progress apply Kept.rest) | dsimp only | split

theorem kept_setRun {r0 : State} {c : Nat} {r : CRun} {s : State} (hk : Kept r0 s) :
    Kept r0 (setRun c r s) := by
  unfold setRun
  repeat' first | intro _ | (with_reducible first | assumption | apply kept_setCunit | apply kept_traceAt | apply Kept.ite | fail_if_no_progress apply Kept.rest) | dsimp only | split

theorem kept_enterRound {r0 : State} {c : Nat} {r : CRound} {s : State} (hk : Kept r0 s) :
    Kept r0 (enterRound c r s) := by
  unfold enterRound
  repeat' first | intro _ | (with_reducible first | assumption | apply kept_setCunit | apply kept_raise | apply kept_modOp | apply kept_sendRound | apply kept_abortOp | apply kept_setRun | apply Kept.ite | apply Kept.foldl | apply Kept.foldl2 | apply Kept.foldl3 | fail_if_no_progress apply Kept.rest) | dsimp only | split

theorem kept_takePortN {r0 : State} : ∀ (a0 : Nat) {a1 : Nat} {a2 : CRound} {a3 : Nat} {a4 : State}, Kept r0 a4 → Kept r0 (takePortN a0 a1 a2 a3 a4) := by
  intro a0
  induction a0 with
  | zero =>
    intros
    unfold takePortN
    repeat' first | intro _ | (with_reducible first | assumption | apply kept_setPort | apply kept_sendCredit | apply kept_raise | apply kept_checkEcc | apply kept_modOp | apply kept_abortOp | apply Kept.ite | apply Kept.snd (by assumption) | fail_if_no_progress apply Kept.rest) | dsimp only | split
  | succ _ ih =>
    intros
    unfold takePortN
    repeat' first | intro _ | (with_reducible first | assumption | apply ih | apply kept_setPort | apply kept_sendCredit | apply kept_raise | apply kept_checkEcc | apply kept_modOp | apply kept_abortOp | apply Kept.ite | apply Kept.snd (by assumption) | fail_if_no_progress apply Kept.rest) | dsimp only | split

theorem kept_takeSlots {r0 : State} {c : Nat} {r : CRound} {s : State} (hk : Kept r0 s) :
    Kept r0 (takeSlots c r s) := by
  unfold takeSlots
  repeat' first | intro _ | (with_reducible first | assumption | apply kept_takePortN | apply Kept.ite | apply Kept.foldl | apply Kept.foldl2 | apply Kept.foldl3 | fail_if_no_progress apply Kept.rest) | dsimp only | split

theorem kept_finishRound {r0 : State} {c : Nat} {r : CRound} {s : State} (hk : Kept r0 s) :
    Kept r0 (finishRound c r s) := by
  unfold finishRound
  repeat' first | intro _ | (with_reducible first | assumption | apply kept_raise | apply kept_modOp | apply kept_writeFin | apply kept_abortOp | apply Kept.ite | fail_if_no_progress apply Kept.rest) | dsimp only | split

theorem kept_runOpN {r0 : State} : ∀ (a0 : Nat) {a1 : Nat} {a2 : State}, Kept r0 a2 → Kept r0 (runOpN a0 a1 a2) := by
  intro a0
  induction a0 with
  | zero =>
    intros
    unfold runOpN
    repeat' first | intro _ | (with_reducible first | assumption | apply kept_endOp | apply kept_enterRound | apply kept_takeSlots | apply kept_finishRound | apply Kept.ite | fail_if_no_progress apply Kept.rest) | dsimp only | split
  | succ _ ih =>
    intros
    unfold runOpN
    repeat' first | intro _ | (with_reducible first | assumption | apply ih | apply kept_endOp | apply kept_enterRound | apply kept_takeSlots | apply kept_finishRound | apply Kept.ite | fail_if_no_progress apply Kept.rest) | dsimp only | split

theorem kept_pumpCol {r0 : State} {c : Nat} {s : State} (hk : Kept r0 s) :
    Kept r0 (pumpCol c s) := by
  unfold pumpCol
  repeat' first | intro _ | (with_reducible first | assumption | apply kept_runOpN | apply Kept.ite | fail_if_no_progress apply Kept.rest) | dsimp only | split

theorem kept_readSource {r0 : State} {c : Nat} {o : COp} {s : State} (hk : Kept r0 s) :
    Kept r0 (readSource c o s).2.2 := by
  unfold readSource
  repeat' first | intro _ | (with_reducible first | assumption | apply kept_freeBytes | apply kept_collRequest | apply Kept.ite | apply Kept.foldl | apply Kept.foldl2 | apply Kept.foldl3 | apply Kept.snd (by assumption) | fail_if_no_progress apply Kept.rest) | dsimp only | split

theorem kept_writeExps {r0 : State} {c : Nat} {s : State} (hk : Kept r0 s) :
    Kept r0 (writeExps c s) := by
  unfold writeExps
  repeat' first | intro _ | (with_reducible first | assumption | apply kept_collWrite | apply Kept.ite | apply Kept.foldl | apply Kept.foldl2 | apply Kept.foldl3 | fail_if_no_progress apply Kept.rest) | dsimp only | split

theorem kept_loadOp {r0 : State} {c : Nat} {s : State} (hk : Kept r0 s) :
    Kept r0 (loadOp c s) := by
  unfold loadOp
  repeat' first | intro _ | (with_reducible first | assumption | apply kept_setCunit | apply kept_endOp | apply kept_enterRound | apply kept_runOpN | apply kept_writeExps | apply Kept.ite | apply Kept.foldl | apply Kept.foldl2 | apply Kept.foldl3 | fail_if_no_progress apply Kept.rest) | dsimp only | split

theorem kept_loadIfReady {r0 : State} {c : Nat} {s : State} (hk : Kept r0 s) :
    Kept r0 (loadIfReady c s) := by
  unfold loadIfReady
  repeat' first | intro _ | (with_reducible first | assumption | apply kept_loadOp | apply Kept.ite | fail_if_no_progress apply Kept.rest) | dsimp only | split

theorem kept_startOp {r0 : State} {c : Nat} {s : State} (hk : Kept r0 s) :
    Kept r0 (startOp c s) := by
  unfold startOp
  repeat' first | intro _ | (with_reducible first | assumption | apply kept_modOp | apply kept_setRun | apply kept_readSource | apply kept_loadIfReady | apply Kept.ite | apply Kept.snd (by assumption) | fail_if_no_progress apply Kept.rest) | dsimp only | split

theorem kept_collRead {r0 : State} {c tag : Nat} {bs : List Byte} {poison refused : Bool} {s : State} (hk : Kept r0 s) :
    Kept r0 (collRead c tag bs poison refused s) := by
  unfold collRead
  repeat' first | intro _ | (with_reducible first | assumption | apply kept_raise | apply kept_checkEcc | apply kept_modOp | apply kept_loadIfReady | apply Kept.ite | apply Kept.snd (by assumption) | fail_if_no_progress apply Kept.rest) | dsimp only | split

theorem kept_collWrote {r0 : State} {c tag : Nat} {refused : Bool} {s : State} (hk : Kept r0 s) :
    Kept r0 (collWrote c tag refused s) := by
  unfold collWrote
  repeat' first | intro _ | (with_reducible first | assumption | apply kept_setCunit | apply Kept.ite | fail_if_no_progress apply Kept.rest) | dsimp only | split

theorem kept_stallTick {r0 : State} {s : State} (hk : Kept r0 s) :
    Kept r0 (stallTick s) := by
  unfold stallTick
  repeat' first | intro _ | (with_reducible first | assumption | apply kept_setCunit | apply Kept.ite | apply Kept.foldl | apply Kept.foldl2 | apply Kept.foldl3 | fail_if_no_progress apply Kept.rest) | dsimp only | split

theorem kept_rerouteOp {r0 : State} {c n : Nat} {lost : List Slot} {s : State} (hk : Kept r0 s) :
    Kept r0 (rerouteOp c n lost s) := by
  unfold rerouteOp
  repeat' first | intro _ | (with_reducible first | assumption | apply kept_setCunit | apply kept_modOp | apply kept_queueSlot | apply kept_abortOp | apply kept_pumpCol | apply Kept.ite | apply Kept.foldl | apply Kept.foldl2 | apply Kept.foldl3 | fail_if_no_progress apply Kept.rest) | dsimp only | split

theorem kept_failPort {r0 : State} {n : Nat} {peer : Bool} {s : State} (hk : Kept r0 s) :
    Kept r0 (failPort n peer s) := by
  unfold failPort
  repeat' first | intro _ | (with_reducible first | assumption | apply kept_setPort | apply kept_markFence | apply kept_fencePort | apply kept_raise | apply kept_refreshMirrors | apply kept_rerouteOp | apply Kept.ite | apply Kept.foldl | apply Kept.foldl2 | apply Kept.foldl3 | fail_if_no_progress apply Kept.rest) | dsimp only | split

end Sys2Proof.Laws
end

