-- ==== Sys2Proof/Laws/KeptXfe.lean ====
section
/-! SUPPORT. What the operations of `Machine/Xfe.lean` keep: one lemma each. -/
namespace Sys2Proof.Laws
open Sys2Proof Sys2Proof.Machine Sys2Proof.Safety
set_option linter.unreachableTactic false
set_option linter.unusedTactic false

theorem kept_xfeDescArrive {r0 : State} {e : Nat} {s : State} (hk : Kept r0 s) :
    Kept r0 (xfeDescArrive e s) := by
  unfold xfeDescArrive
  repeat' first | intro _ | (with_reducible first | assumption | apply kept_setXfe | apply kept_endUnrun | apply kept_nextDesc | apply Kept.ite | fail_if_no_progress apply Kept.rest) | dsimp only | split

theorem kept_xfeWaitSatisfied {r0 : State} {e : Nat} {s : State} (hk : Kept r0 s) :
    Kept r0 (xfeWaitSatisfied e s) := by
  unfold xfeWaitSatisfied
  repeat' first | intro _ | (with_reducible first | assumption | apply kept_setXfe | apply kept_traceAt | apply kept_markFlag | apply kept_raise | apply kept_checkEcc | apply kept_endAtElem | apply kept_pumpXfe | apply kept_finishDesc | apply Kept.ite | apply Kept.snd (by assumption) | fail_if_no_progress apply Kept.rest) | dsimp only | split

theorem kept_writeComp {r0 : State} {e : Nat} {c : XCur} {st : Status} {s : State} (hk : Kept r0 s) :
    KeptO r0 (writeComp e c st s) := by
  unfold writeComp
  repeat' first | intro _ | (with_reducible first | assumption | apply kept_raise | apply kept_hostWriteNow | apply kept_dvaWrite | apply kept_xPost | apply Kept.ite | apply Kept.foldl | apply Kept.foldl2 | apply Kept.foldl3 | apply Kept.snd (by assumption) | apply Kept.opt (by assumption) | apply Kept.getD | apply KeptO.none | apply KeptO.some | apply KeptO.ite | exact Kept.ofO (by assumption) | fail_if_no_progress apply Kept.rest) | dsimp only | split

theorem kept_xfeComplete {r0 : State} {e : Nat} {s : State} (hk : Kept r0 s) :
    Kept r0 (xfeComplete e s) := by
  unfold xfeComplete
  repeat' first | intro _ | (with_reducible first | assumption | apply kept_askAts | apply kept_finishDesc | apply kept_writeComp | apply Kept.ite | apply Kept.opt (by assumption) | apply Kept.getD | apply KeptO.none | apply KeptO.some | apply KeptO.ite | fail_if_no_progress apply Kept.rest) | dsimp only | split

theorem kept_xfeAbort {r0 : State} {e : Nat} {s : State} (hk : Kept r0 s) :
    Kept r0 (xfeAbort e s) := by
  unfold xfeAbort
  repeat' first | intro _ | (with_reducible first | assumption | apply kept_endEarly | apply Kept.ite | fail_if_no_progress apply Kept.rest) | dsimp only | split

theorem kept_xfeReadmit {r0 : State} {e : Nat} {s : State} (hk : Kept r0 s) :
    Kept r0 (xfeReadmit e s) := by
  unfold xfeReadmit
  repeat' first | intro _ | (with_reducible first | assumption | apply kept_requestXfeReadmit | apply kept_refuseWrite | apply Kept.ite | fail_if_no_progress apply Kept.rest) | dsimp only | split

theorem kept_hwtSet {r0 : State} {i : Nat} {e : BitVec 256} {s : State} (hk : Kept r0 s) :
    Kept r0 (hwtSet i e s) := by
  unfold hwtSet
  repeat' first | intro _ | (with_reducible first | assumption | apply Kept.ite | fail_if_no_progress apply Kept.rest) | dsimp only | split

theorem kept_hwtCommit {r0 : State} {who : Owner2} {s : State} (hk : Kept r0 s) :
    Kept r0 (hwtCommit who s) := by
  unfold hwtCommit
  repeat' first | intro _ | (with_reducible first | assumption | apply kept_refuseWrite | apply kept_hwtSet | apply Kept.ite | fail_if_no_progress apply Kept.rest) | dsimp only | split

theorem kept_hwtCommitDrained {r0 : State} {s : State} (hk : Kept r0 s) :
    Kept r0 (hwtCommitDrained s) := by
  unfold hwtCommitDrained
  repeat' first | intro _ | (with_reducible first | assumption | apply kept_hwtSet | apply Kept.ite | fail_if_no_progress apply Kept.rest) | dsimp only | split

theorem kept_abandonReads {r0 : State} {e : Nat} {tags : List Nat} {s : State} (hk : Kept r0 s) :
    Kept r0 (abandonReads e tags s) := by
  unfold abandonReads
  repeat' first | intro _ | (with_reducible first | assumption | apply kept_setXfe | apply Kept.ite | fail_if_no_progress apply Kept.rest) | dsimp only | split

theorem kept_atsInvalidate {r0 : State} {itag iova size : Nat} {s : State} (hk : Kept r0 s) :
    Kept r0 (atsInvalidate itag iova size s) := by
  unfold atsInvalidate
  repeat' first | intro _ | (with_reducible first | assumption | apply kept_xlDrop | apply kept_pumpAll | apply kept_abandonReads | apply Kept.ite | apply Kept.foldl | apply Kept.foldl2 | apply Kept.foldl3 | fail_if_no_progress apply Kept.rest) | dsimp only | split

theorem kept_invalidateCompletion {r0 : State} {itag : Nat} {s : State} (hk : Kept r0 s) :
    Kept r0 (invalidateCompletion itag s) := by
  unfold invalidateCompletion
  repeat' first | intro _ | (with_reducible first | assumption | apply kept_emit | apply Kept.ite | fail_if_no_progress apply Kept.rest) | dsimp only | split

theorem kept_atsEnable {r0 : State} {on : Bool} {s : State} (hk : Kept r0 s) :
    Kept r0 (atsEnable on s) := by
  unfold atsEnable
  repeat' first | intro _ | (with_reducible first | assumption | apply kept_xlDrop | apply kept_pumpAll | apply Kept.ite | fail_if_no_progress apply Kept.rest) | dsimp only | split

theorem kept_priEnable {r0 : State} {on : Bool} {alloc : BitVec 16} {s : State} (hk : Kept r0 s) :
    Kept r0 (priEnable on alloc s) := by
  unfold priEnable
  repeat' first | intro _ | (with_reducible first | assumption | apply kept_sendPageReqs | apply Kept.ite | fail_if_no_progress apply Kept.rest) | dsimp only | split

end Sys2Proof.Laws
end

