-- ==== Sys2Proof/Laws/KeptCol.lean ====
section
/-! SUPPORT. What the operations of `Machine/Col.lean` keep: one lemma each. -/
namespace Sys2Proof.Laws
open Sys2Proof Sys2Proof.Machine Sys2Proof.Safety
set_option linter.unreachableTactic false
set_option linter.unusedTactic false

theorem kept_nextOp {r0 : State} {c : Nat} {s : State} (hk : Kept r0 s) :
    Kept r0 (nextOp c s) := by
  unfold nextOp
  repeat' first | intro _ | (with_reducible first | assumption | apply kept_setCunit | apply kept_fenceCunit | apply kept_setRun | apply Kept.ite | fail_if_no_progress apply Kept.rest) | dsimp only | split

theorem kept_finishOp {r0 : State} {c : Nat} {o : COp} {st : Status} {s : State} (hk : Kept r0 s) :
    Kept r0 (finishOp c o st s) := by
  unfold finishOp
  repeat' first | intro _ | (with_reducible first | assumption | apply kept_setCunit | apply kept_markFlag | apply kept_raise | apply kept_nextOp | apply Kept.ite | fail_if_no_progress apply Kept.rest) | dsimp only | split

theorem kept_colWaitSatisfied {r0 : State} {c : Nat} {s : State} (hk : Kept r0 s) :
    Kept r0 (colWaitSatisfied c s) := by
  unfold colWaitSatisfied
  repeat' first | intro _ | (with_reducible first | assumption | apply kept_startOp | apply kept_finishOp | apply Kept.ite | fail_if_no_progress apply Kept.rest) | dsimp only | split

theorem kept_colOpComplete {r0 : State} {c : Nat} {s : State} (hk : Kept r0 s) :
    Kept r0 (colOpComplete c s) := by
  unfold colOpComplete
  repeat' first | intro _ | (with_reducible first | assumption | apply kept_dvaWrite | apply kept_finishOp | apply Kept.ite | apply Kept.snd (by assumption) | fail_if_no_progress apply Kept.rest) | dsimp only | split

theorem kept_colReadmit {r0 : State} {c : Nat} {s : State} (hk : Kept r0 s) :
    Kept r0 (colReadmit c s) := by
  unfold colReadmit
  repeat' first | intro _ | (with_reducible first | assumption | apply kept_requestCunitReadmit | apply kept_refuseWrite | apply Kept.ite | fail_if_no_progress apply Kept.rest) | dsimp only | split

end Sys2Proof.Laws
end

