-- ==== Sys2Proof/Laws/KeptFabric.lean ====
section
/-! SUPPORT. What the operations of `Machine/Fabric.lean` keep: one lemma each. -/
namespace Sys2Proof.Laws
open Sys2Proof Sys2Proof.Machine Sys2Proof.Safety
set_option linter.unreachableTactic false
set_option linter.unusedTactic false

theorem kept_pushVec {r0 : State} {v : Vec} {ts : List (Nat × Nat)} {s : State} (hk : Kept r0 s) :
    Kept r0 (pushVec v ts s) := by
  unfold pushVec
  repeat' first | intro _ | (with_reducible first | assumption | apply kept_setCell | apply Kept.ite | apply Kept.foldl | apply Kept.foldl2 | apply Kept.foldl3 | fail_if_no_progress apply Kept.rest) | dsimp only | split

theorem kept_forwardVecs {r0 : State} {n route : Nat} {s : State} (hk : Kept r0 s) :
    Kept r0 (forwardVecs n route s) := by
  unfold forwardVecs
  repeat' first | intro _ | (with_reducible first | assumption | apply kept_setCell | apply kept_cellCheck | apply kept_pushVec | apply Kept.ite | apply Kept.foldl | apply Kept.foldl2 | apply Kept.foldl3 | apply Kept.snd (by assumption) | fail_if_no_progress apply Kept.rest) | dsimp only | split

theorem kept_readSrc {r0 : State} {n v : Nat} {s : State} (hk : Kept r0 s) :
    Kept r0 (readSrc n v s).2 := by
  unfold readSrc
  repeat' first | intro _ | (with_reducible first | assumption | apply kept_setCell | apply kept_cellCheck | apply Kept.ite | apply Kept.snd (by assumption) | fail_if_no_progress apply Kept.rest) | dsimp only | split

theorem kept_readSrcs {r0 : State} {n : Nat} : ∀ {vs : List Nat} {s : State}, Kept r0 s → Kept r0 (readSrcs n vs s).2
  | [], _, h => h
  | _ :: vs, _, h => kept_readSrcs (vs := vs) (kept_readSrc h)

theorem kept_writeDst {r0 : State} {n route d : Nat} {x : Vec} {s : State} (hk : Kept r0 s) :
    Kept r0 (writeDst n route d x s) := by
  unfold writeDst
  repeat' first | intro _ | (with_reducible first | assumption | apply kept_setCell | apply kept_pushVec | apply Kept.ite | fail_if_no_progress apply Kept.rest) | dsimp only | split

theorem kept_bumpDraws {r0 : State} {n : Nat} {s : State} (hk : Kept r0 s) :
    Kept r0 (bumpDraws n s) := by
  unfold bumpDraws
  repeat' first | intro _ | (with_reducible first | assumption | apply kept_setCell | apply Kept.ite | apply Kept.foldl | apply Kept.foldl2 | apply Kept.foldl3 | fail_if_no_progress apply Kept.rest) | dsimp only | split

theorem kept_advance {r0 : State} {x : UCtx} {o : UOut} {s : State} (hk : Kept r0 s) :
    Kept r0 (advance x o s) := by
  unfold advance
  repeat' first | intro _ | (with_reducible first | assumption | apply kept_setCell | apply Kept.ite | fail_if_no_progress apply Kept.rest) | dsimp only | split

theorem kept_touchColumn {r0 : State} {k : Nat} {s : State} (hk : Kept r0 s) :
    Kept r0 (touchColumn k s) := by
  unfold touchColumn
  repeat' first | intro _ | (with_reducible first | assumption | apply kept_drawFree | apply kept_setCol | apply Kept.ite | fail_if_no_progress apply Kept.rest) | dsimp only | split

theorem kept_issue {r0 : State} {n op : Nat} {srcs : Uop → List Nat} {dests arith draws : Bool} {ready : UCtx → State → Bool} {body : UCtx → List Nat → Bool → State → UOut} {s : State} (hk : Kept r0 s) (kbody : ∀ a b c x, Kept r0 x → Kept r0 (body a b c x).st) :
    Kept r0 (issue n op srcs dests arith draws ready body s) := by
  unfold issue
  repeat' first | intro _ | (with_reducible first | assumption | apply kbody | apply kept_markFlag | apply kept_refresh | apply kept_cellCheck | apply kept_slotRead | apply kept_forwardVecs | apply kept_readSrcs | apply kept_writeDst | apply kept_bumpDraws | apply kept_advance | apply kept_touchColumn | apply Kept.ite | apply Kept.foldl | apply Kept.foldl2 | apply Kept.foldl3 | apply Kept.snd (by assumption) | fail_if_no_progress apply Kept.rest) | dsimp only | split

theorem kept_cellRead {r0 : State} {x : UCtx} {dvas : List Nat} {size : Nat} {s : State} (hk : Kept r0 s) :
    Kept r0 (cellRead x dvas size s).2 := by
  unfold cellRead
  repeat' first | intro _ | (with_reducible first | assumption | apply kept_noteXlat | apply kept_raise | apply kept_issueReq | apply Kept.ite | apply Kept.foldl | apply Kept.foldl2 | apply Kept.foldl3 | apply Kept.snd (by assumption) | fail_if_no_progress apply Kept.rest) | dsimp only | split

theorem kept_cellWrite {r0 : State} {x : UCtx} {dva size data : Nat} {poison : Bool} {s : State} (hk : Kept r0 s) :
    Kept r0 (cellWrite x dva size data poison s) := by
  unfold cellWrite
  repeat' first | intro _ | (with_reducible first | assumption | apply kept_setCell | apply kept_noteXlat | apply kept_raise | apply kept_issueReq | apply Kept.ite | apply Kept.snd (by assumption) | fail_if_no_progress apply Kept.rest) | dsimp only | split

theorem kept_bumpB {r0 : State} {x : UCtx} {s : State} (hk : Kept r0 s) :
    Kept r0 (bumpB x s) := by
  unfold bumpB
  repeat' first | intro _ | (with_reducible first | assumption | apply kept_setCell | apply Kept.ite | fail_if_no_progress apply Kept.rest) | dsimp only | split

theorem kept_bumpLp {r0 : State} {x : UCtx} {s : State} (hk : Kept r0 s) :
    Kept r0 (bumpLp x s) := by
  unfold bumpLp
  repeat' first | intro _ | (with_reducible first | assumption | apply kept_setCell | apply Kept.ite | fail_if_no_progress apply Kept.rest) | dsimp only | split

theorem kept_cellReturn {r0 : State} {n tag : Nat} {data : List Byte} {poison : Bool} {s : State} (hk : Kept r0 s) :
    Kept r0 (cellReturn n tag data poison s) := by
  unfold cellReturn
  repeat' first | intro _ | (with_reducible first | assumption | apply kept_setCell | apply kept_raise | apply Kept.ite | fail_if_no_progress apply Kept.rest) | dsimp only | split

theorem kept_cellAck {r0 : State} {n : Nat} {s : State} (hk : Kept r0 s) :
    Kept r0 (cellAck n s) := by
  unfold cellAck
  repeat' first | intro _ | (with_reducible first | assumption | apply kept_setCell | apply Kept.ite | fail_if_no_progress apply Kept.rest) | dsimp only | split

end Sys2Proof.Laws
end

