-- ==== Sys2Proof/Laws/KeptNet.lean ====
section
/-! SUPPORT. What the operations of `Machine/Net.lean` keep: one lemma each. -/
namespace Sys2Proof.Laws
open Sys2Proof Sys2Proof.Machine Sys2Proof.Safety
set_option linter.unreachableTactic false
set_option linter.unusedTactic false

theorem kept_modNet {r0 : State} {f : Net → Net} {s : State} (hk : Kept r0 s) :
    Kept r0 (modNet f s) := by
  unfold modNet
  repeat' first | intro _ | (with_reducible first | assumption | apply Kept.ite | fail_if_no_progress apply Kept.rest) | dsimp only | split

theorem kept_presentPacket {r0 : State} {p : Packet} {s : State} (hk : Kept r0 s) :
    Kept r0 (presentPacket p s) := by
  unfold presentPacket
  repeat' first | intro _ | (with_reducible first | assumption | apply kept_modNet | apply Kept.ite | fail_if_no_progress apply Kept.rest) | dsimp only | split

theorem kept_presentAll {r0 : State} {s : State} (hk : Kept r0 s) :
    Kept r0 (presentAll s) := by
  unfold presentAll
  repeat' first | intro _ | (with_reducible first | assumption | apply kept_leavePort | apply kept_modNet | apply kept_presentPacket | apply Kept.ite | apply Kept.foldl | apply Kept.foldl2 | apply Kept.foldl3 | apply Kept.opt (by assumption) | apply Kept.getD | apply KeptO.none | apply KeptO.some | apply KeptO.ite | exact Kept.ofO (by assumption) | fail_if_no_progress apply Kept.rest) | dsimp only | split

theorem kept_takePacket {r0 : State} {id : Nat} {s : State} (hk : Kept r0 s) :
    Kept r0 (takePacket id s) := by
  unfold takePacket
  repeat' first | intro _ | (with_reducible first | assumption | apply kept_modNet | apply Kept.ite | fail_if_no_progress apply Kept.rest) | dsimp only | split

theorem kept_recordDrop {r0 : State} {at_ vn vc d : Nat} {s : State} (hk : Kept r0 s) :
    Kept r0 (recordDrop at_ vn vc d s) := by
  unfold recordDrop
  repeat' first | intro _ | (with_reducible first | assumption | apply Kept.ite | fail_if_no_progress apply Kept.rest) | dsimp only | split

theorem kept_losePacket {r0 : State} {p : Packet} {s : State} (hk : Kept r0 s) :
    Kept r0 (losePacket p s) := by
  unfold losePacket
  repeat' first | intro _ | (with_reducible first | assumption | apply kept_modReq | apply kept_modNet | apply Kept.ite | fail_if_no_progress apply Kept.rest) | dsimp only | split

theorem kept_dropPacket {r0 : State} {p : Packet} {at_ : Nat} {s : State} (hk : Kept r0 s) :
    Kept r0 (dropPacket p at_ s) := by
  unfold dropPacket
  repeat' first | intro _ | (with_reducible first | assumption | apply kept_raise | apply kept_recordDrop | apply kept_losePacket | apply Kept.ite | fail_if_no_progress apply Kept.rest) | dsimp only | split

theorem kept_doMove {r0 : State} {m : Move} {s : State} (hk : Kept r0 s) :
    Kept r0 (doMove m s) := by
  unfold doMove
  repeat' first | intro _ | (with_reducible first | assumption | apply kept_modNet | apply Kept.ite | fail_if_no_progress apply Kept.rest) | dsimp only | split

theorem kept_crossCheck {r0 : State} {m : Move} {s : State} (hk : Kept r0 s) :
    Kept r0 (crossCheck m s) := by
  unfold crossCheck
  repeat' first | intro _ | (with_reducible first | assumption | apply kept_raise | apply kept_fireInject | apply Kept.ite | apply Kept.snd (by assumption) | fail_if_no_progress apply Kept.rest) | dsimp only | split

theorem kept_rsvTake {r0 : State} {p : Packet} {s : State} (hk : Kept r0 s) :
    Kept r0 (rsvTake p s) := by
  unfold rsvTake
  repeat' first | intro _ | (with_reducible first | assumption | apply kept_setQport | apply Kept.ite | fail_if_no_progress apply Kept.rest) | dsimp only | split

theorem kept_injectAt {r0 : State} {port : Nat} {s : State} (hk : Kept r0 s) :
    Kept r0 (injectAt port s) := by
  unfold injectAt
  repeat' first | intro _ | (with_reducible first | assumption | apply kept_modNet | apply kept_dropPacket | apply kept_rsvTake | apply Kept.ite | fail_if_no_progress apply Kept.rest) | dsimp only | split

theorem kept_returnCredits {r0 : State} {s : State} (hk : Kept r0 s) :
    Kept r0 (returnCredits s) := by
  unfold returnCredits
  repeat' first | intro _ | (with_reducible first | assumption | apply kept_modNet | apply Kept.ite | apply Kept.foldl | apply Kept.foldl2 | apply Kept.foldl3 | fail_if_no_progress apply Kept.rest) | dsimp only | split

theorem kept_nocCycle {r0 : State} {s : State} (hk : Kept r0 s) :
    Kept r0 (nocCycle s) := by
  unfold nocCycle
  repeat' first | intro _ | (with_reducible first | assumption | apply kept_modNet | apply kept_dropPacket | apply kept_doMove | apply kept_crossCheck | apply kept_injectAt | apply kept_returnCredits | apply Kept.ite | apply Kept.foldl | apply Kept.foldl2 | apply Kept.foldl3 | fail_if_no_progress apply Kept.rest) | dsimp only | split

theorem kept_nocTick {r0 : State} {s : State} (hk : Kept r0 s) :
    Kept r0 (nocTick s) := by
  unfold nocTick
  repeat' first | intro _ | (with_reducible first | assumption | apply kept_presentAll | apply kept_nocCycle | apply Kept.ite | fail_if_no_progress apply Kept.rest) | dsimp only | split

end Sys2Proof.Laws
end

