-- ==== Sys2Proof/Laws/KeptProofs.lean ====
section
/-! SUPPORT. What the operations of `Machine/Proofs.lean` keep: one lemma each. -/
namespace Sys2Proof.Laws
open Sys2Proof Sys2Proof.Machine Sys2Proof.Safety
set_option linter.unreachableTactic false
set_option linter.unusedTactic false

theorem kept_takeToken {r0 : State} {ty : TokenType} {via : TokenVia} {t : Token} {s : State} (hk : Kept r0 s) :
    Kept r0 (takeToken ty via t s).2 := by
  unfold takeToken
  repeat' first | intro _ | (with_reducible first | assumption | apply kept_setPart | apply kept_traceAt | apply kept_raise | apply kept_fireInject | apply Kept.ite | apply Kept.snd (by assumption) | fail_if_no_progress apply Kept.rest) | dsimp only | split

theorem kept_arriveToken {r0 : State} {via : TokenVia} {t : Token} {s : State} (hk : Kept r0 s) :
    Kept r0 (arriveToken via t s) := by
  unfold arriveToken
  repeat' first | intro _ | (with_reducible first | assumption | apply kept_setPart | apply kept_tryReady | apply kept_tryForward | apply kept_takeToken | apply Kept.ite | apply Kept.snd (by assumption) | fail_if_no_progress apply Kept.rest) | dsimp only | split

theorem kept_releaseToken {r0 : State} {via : TokenVia} {t : Token} {s : State} (hk : Kept r0 s) :
    Kept r0 (releaseToken via t s) := by
  unfold releaseToken
  repeat' first | intro _ | (with_reducible first | assumption | apply kept_modPart | apply kept_enterHeld | apply kept_recordStretch | apply kept_toChildren | apply kept_armRelease | apply kept_measureD | apply kept_tryReady | apply kept_takeToken | apply Kept.ite | apply Kept.snd (by assumption) | fail_if_no_progress apply Kept.rest) | dsimp only | split

theorem kept_holdToken {r0 : State} {via : TokenVia} {t : Token} {s : State} (hk : Kept r0 s) :
    Kept r0 (holdToken via t s) := by
  unfold holdToken
  repeat' first | intro _ | (with_reducible first | assumption | apply kept_modPart | apply kept_raise | apply kept_enterHeld | apply kept_recordStretch | apply kept_toChildren | apply kept_tryReady | apply kept_takeToken | apply Kept.ite | apply Kept.snd (by assumption) | fail_if_no_progress apply Kept.rest) | dsimp only | split

theorem kept_breakToken {r0 : State} {via : TokenVia} {t : Token} {s : State} (hk : Kept r0 s) :
    Kept r0 (breakToken via t s) := by
  unfold breakToken
  repeat' first | intro _ | (with_reducible first | assumption | apply kept_modPart | apply kept_enterBroken | apply kept_takeToken | apply Kept.ite | apply Kept.snd (by assumption) | fail_if_no_progress apply Kept.rest) | dsimp only | split

theorem kept_lateLimitExpiry {r0 : State} {p : Nat} {s : State} (hk : Kept r0 s) :
    Kept r0 (lateLimitExpiry p s) := by
  unfold lateLimitExpiry
  repeat' first | intro _ | (with_reducible first | assumption | apply kept_modPart | apply kept_raise | apply kept_enterHeld | apply kept_toChildren | apply Kept.ite | fail_if_no_progress apply Kept.rest) | dsimp only | split

theorem kept_proofTimeoutExpiry {r0 : State} {p : Nat} {s : State} (hk : Kept r0 s) :
    Kept r0 (proofTimeoutExpiry p s) := by
  unfold proofTimeoutExpiry
  repeat' first | intro _ | (with_reducible first | assumption | apply kept_enterBroken | apply Kept.ite | fail_if_no_progress apply Kept.rest) | dsimp only | split

theorem kept_readyTimeout {r0 : State} {p : Nat} {s : State} (hk : Kept r0 s) :
    Kept r0 (readyTimeout p s) := by
  unfold readyTimeout
  repeat' first | intro _ | (with_reducible first | assumption | apply kept_modPart | apply kept_raise | apply kept_enterBroken | apply Kept.ite | fail_if_no_progress apply Kept.rest) | dsimp only | split

theorem kept_timeSyncTimer {r0 : State} {s : State} (hk : Kept r0 s) :
    Kept r0 (timeSyncTimer s) := by
  unfold timeSyncTimer
  repeat' first | intro _ | (with_reducible first | assumption | apply kept_sendToken | apply Kept.ite | fail_if_no_progress apply Kept.rest) | dsimp only | split

theorem kept_timeReq {r0 : State} {via : TokenVia} {t : Token} {s : State} (hk : Kept r0 s) :
    Kept r0 (timeReq via t s) := by
  unfold timeReq
  repeat' first | intro _ | (with_reducible first | assumption | apply kept_sendToken | apply kept_takeToken | apply Kept.ite | apply Kept.snd (by assumption) | fail_if_no_progress apply Kept.rest) | dsimp only | split

theorem kept_timeResp {r0 : State} {via : TokenVia} {t : Token} {s : State} (hk : Kept r0 s) :
    Kept r0 (timeResp via t s) := by
  unfold timeResp
  repeat' first | intro _ | (with_reducible first | assumption | apply kept_raise | apply kept_takeToken | apply Kept.ite | apply Kept.snd (by assumption) | fail_if_no_progress apply Kept.rest) | dsimp only | split

theorem kept_proofPortDown {r0 : State} {port : Nat} {s : State} (hk : Kept r0 s) :
    Kept r0 (proofPortDown port s) := by
  unfold proofPortDown
  repeat' first | intro _ | (with_reducible first | assumption | apply kept_raise | apply Kept.ite | fail_if_no_progress apply Kept.rest) | dsimp only | split

theorem kept_proofPortUp {r0 : State} {port : Nat} {peer : BitVec 64} {s : State} (hk : Kept r0 s) :
    Kept r0 (proofPortUp port peer s) := by
  unfold proofPortUp
  repeat' first | intro _ | (with_reducible first | assumption | apply kept_modPart | apply Kept.ite | apply Kept.foldl | apply Kept.foldl2 | apply Kept.foldl3 | fail_if_no_progress apply Kept.rest) | dsimp only | split

theorem kept_siteAckTimeout {r0 : State} {n : Nat} {s : State} (hk : Kept r0 s) :
    Kept r0 (siteAckTimeout n s) := by
  unfold siteAckTimeout
  repeat' first | intro _ | (with_reducible first | assumption | apply kept_setSite | apply kept_raise | apply Kept.ite | fail_if_no_progress apply Kept.rest) | dsimp only | split

theorem kept_partHold {r0 : State} {p : Nat} {s : State} (hk : Kept r0 s) :
    Kept r0 (partHold p s) := by
  unfold partHold
  repeat' first | intro _ | (with_reducible first | assumption | apply kept_setPart | apply Kept.ite | fail_if_no_progress apply Kept.rest) | dsimp only | split

theorem kept_partRelease {r0 : State} {p : Nat} {s : State} (hk : Kept r0 s) :
    Kept r0 (partRelease p s) := by
  unfold partRelease
  repeat' first | intro _ | (with_reducible first | assumption | apply kept_refresh | apply kept_refuseWrite | apply kept_becomeReady | apply Kept.ite | fail_if_no_progress apply Kept.rest) | dsimp only | split

theorem kept_starterArm {r0 : State} {p : Nat} {stream : Word} {s : State} (hk : Kept r0 s) :
    Kept r0 (starterArm p stream s) := by
  unfold starterArm
  repeat' first | intro _ | (with_reducible first | assumption | apply kept_setPart | apply kept_refuseWrite | apply Kept.ite | fail_if_no_progress apply Kept.rest) | dsimp only | split

theorem kept_stepCounterArm {r0 : State} {p : Nat} {hi : Word} {s : State} (hk : Kept r0 s) :
    Kept r0 (stepCounterArm p hi s) := by
  unfold stepCounterArm
  repeat' first | intro _ | (with_reducible first | assumption | apply kept_setPart | apply kept_refuseWrite | apply Kept.ite | fail_if_no_progress apply Kept.rest) | dsimp only | split

end Sys2Proof.Laws
end

