-- ==== Sys2Proof/Laws/KeptNoc.lean ====
section
/-! SUPPORT. What the operations of `Machine/Noc.lean` keep: one lemma each. -/
namespace Sys2Proof.Laws
open Sys2Proof Sys2Proof.Machine Sys2Proof.Safety
set_option linter.unreachableTactic false
set_option linter.unusedTactic false

theorem kept_headCheck {r0 : State} {head : Ecc} {p : Packet} {s : State} (hk : Kept r0 s) :
    Kept r0 (headCheck head p s).2 := by
  unfold headCheck
  repeat' first | intro _ | (with_reducible first | assumption | apply kept_raise | apply kept_checkEcc | apply kept_recordDrop | apply kept_losePacket | apply Kept.ite | apply Kept.snd (by assumption) | fail_if_no_progress apply Kept.rest) | dsimp only | split

theorem kept_refuseReq {r0 : State} {r : Req} {s : State} (hk : Kept r0 s) :
    Kept r0 (refuseReq r s) := by
  unfold refuseReq
  repeat' first | intro _ | (with_reducible first | assumption | apply kept_modReq | apply kept_freeBytes | apply kept_pushResp | apply Kept.ite | fail_if_no_progress apply Kept.rest) | dsimp only | split

theorem kept_toOccupant {r0 : State} {n off : Nat} {r : Req} {s : State} (hk : Kept r0 s) :
    Kept r0 (toOccupant n off r s) := by
  unfold toOccupant
  repeat' first | intro _ | (with_reducible first | assumption | apply kept_emit | apply kept_setSite | apply kept_geljaTo | apply kept_modReq | apply Kept.ite | fail_if_no_progress apply Kept.rest) | dsimp only | split

theorem kept_serveReq {r0 : State} {r : Req} {off : Nat} {ecc : Ecc} {s : State} (hk : Kept r0 s) :
    Kept r0 (serveReq r off ecc s) := by
  unfold serveReq
  repeat' first | intro _ | (with_reducible first | assumption | apply kept_modReq | apply kept_raise | apply kept_countCe | apply kept_strikeUe | apply kept_atHome | apply kept_refuseReq | apply kept_toOccupant | apply Kept.ite | fail_if_no_progress apply Kept.rest) | dsimp only | split

theorem kept_flitCheck {r0 : State} {tag : Nat} {flits : Ecc} {s : State} (hk : Kept r0 s) :
    Kept r0 (flitCheck tag flits s) := by
  unfold flitCheck
  repeat' first | intro _ | (with_reducible first | assumption | apply kept_modReq | apply Kept.ite | fail_if_no_progress apply Kept.rest) | dsimp only | split

theorem kept_nocRequest {r0 : State} {write : Bool} {tag off : Nat} {head ecc : Ecc} {s : State} (hk : Kept r0 s) :
    Kept r0 (nocRequest write tag off head ecc s) := by
  unfold nocRequest
  repeat' first | intro _ | (with_reducible first | assumption | apply kept_pumpXfe | apply kept_takePacket | apply kept_headCheck | apply kept_serveReq | apply kept_flitCheck | apply Kept.ite | apply Kept.snd (by assumption) | fail_if_no_progress apply Kept.rest) | dsimp only | split

theorem kept_answerSite {r0 : State} {n t op : Nat} {r : Req} {bs : List Byte} {poison refused : Bool} {s : State} (hk : Kept r0 s) :
    Kept r0 (answerSite n t op r bs poison refused s) := by
  unfold answerSite
  repeat' first | intro _ | (with_reducible first | assumption | apply kept_emit | apply kept_answerGelja | apply Kept.ite | fail_if_no_progress apply Kept.rest) | dsimp only | split

theorem kept_deliver {r0 : State} {r : Req} {bs : List Byte} {poison refused : Bool} {s : State} (hk : Kept r0 s) :
    Kept r0 (deliver r bs poison refused s) := by
  unfold deliver
  repeat' first | intro _ | (with_reducible first | assumption | apply kept_dropReq | apply kept_completeStats | apply kept_auditRead | apply kept_xfeRead | apply kept_xfeWrote | apply kept_collRead | apply kept_collWrote | apply kept_cellReturn | apply kept_cellAck | apply kept_answerSite | apply Kept.ite | fail_if_no_progress apply Kept.rest) | dsimp only | split

theorem kept_drainReads {r0 : State} : ∀ (a0 : Nat) {a1 : Initiator} {a2 : State}, Kept r0 a2 → Kept r0 (drainReads a0 a1 a2) := by
  intro a0
  induction a0 with
  | zero =>
    intros
    unfold drainReads
    repeat' first | intro _ | (with_reducible first | assumption | apply kept_deliver | apply Kept.ite | fail_if_no_progress apply Kept.rest) | dsimp only | split
  | succ _ ih =>
    intros
    unfold drainReads
    repeat' first | intro _ | (with_reducible first | assumption | apply ih | apply kept_deliver | apply Kept.ite | fail_if_no_progress apply Kept.rest) | dsimp only | split

theorem kept_arriveResp {r0 : State} {r : Req} {bs : List Byte} {poison refused : Bool} {s : State} (hk : Kept r0 s) :
    Kept r0 (arriveResp r bs poison refused s) := by
  unfold arriveResp
  repeat' first | intro _ | (with_reducible first | assumption | apply kept_modReq | apply kept_deliver | apply kept_drainReads | apply Kept.ite | fail_if_no_progress apply Kept.rest) | dsimp only | split

theorem kept_takeResp {r0 : State} {tag : Nat} {s : State} (hk : Kept r0 s) :
    Kept r0 (takeResp tag s).2 := by
  unfold takeResp
  repeat' first | intro _ | (with_reducible first | assumption | apply Kept.ite | fail_if_no_progress apply Kept.rest) | dsimp only | split

theorem kept_nocResponse {r0 : State} {want : Resp → Req → Bool} {tag : Nat} {head flits : Ecc} {s : State} (hk : Kept r0 s) :
    Kept r0 (nocResponse want tag head flits s) := by
  unfold nocResponse
  repeat' first | intro _ | (with_reducible first | assumption | apply kept_takePacket | apply kept_headCheck | apply kept_arriveResp | apply kept_takeResp | apply Kept.ite | apply Kept.snd (by assumption) | fail_if_no_progress apply Kept.rest) | dsimp only | split

theorem kept_respTimeout {r0 : State} {tag : Nat} {s : State} (hk : Kept r0 s) :
    Kept r0 (respTimeout tag s) := by
  unfold respTimeout
  repeat' first | intro _ | (with_reducible first | assumption | apply kept_raise | apply kept_freeBytes | apply kept_arriveResp | apply Kept.ite | apply Kept.snd (by assumption) | fail_if_no_progress apply Kept.rest) | dsimp only | split

theorem kept_sliceStall {r0 : State} {router input : Nat} {s : State} (hk : Kept r0 s) :
    Kept r0 (sliceStall router input s) := by
  unfold sliceStall
  repeat' first | intro _ | (with_reducible first | assumption | apply kept_raise | apply Kept.ite | fail_if_no_progress apply Kept.rest) | dsimp only | split

theorem kept_auditAll {r0 : State} {s : State} (hk : Kept r0 s) :
    Kept r0 (auditAll s) := by
  unfold auditAll
  repeat' first | intro _ | (with_reducible first | assumption | apply kept_auditStep | apply Kept.ite | apply Kept.foldl | apply Kept.foldl2 | apply Kept.foldl3 | fail_if_no_progress apply Kept.rest) | dsimp only | split

theorem kept_hostLeave {r0 : State} {s : State} (hk : Kept r0 s) :
    Kept r0 (hostLeave s) := by
  unfold hostLeave
  repeat' first | intro _ | (with_reducible first | assumption | apply kept_emit | apply kept_dropReq | apply kept_completeStats | apply kept_hostReadGo | apply kept_xfePosted | apply Kept.ite | apply Kept.foldl | apply Kept.foldl2 | apply Kept.foldl3 | fail_if_no_progress apply Kept.rest) | dsimp only | split

theorem kept_portsMove {r0 : State} {s : State} (hk : Kept r0 s) :
    Kept r0 (portsMove s) := by
  unfold portsMove
  repeat' first | intro _ | (with_reducible first | assumption | apply kept_sendFlits | apply kept_payCredits | apply kept_deliverHeld | apply kept_pumpAll | apply kept_nocTick | apply kept_hostLeave | apply Kept.ite | apply Kept.foldl | apply Kept.foldl2 | apply Kept.foldl3 | fail_if_no_progress apply Kept.rest) | dsimp only | split

theorem kept_idleTick {r0 : State} {s : State} (hk : Kept r0 s) :
    Kept r0 (idleTick s) := by
  unfold idleTick
  repeat' first | intro _ | (with_reducible first | assumption | apply kept_stallTick | apply kept_auditAll | apply kept_portsMove | apply Kept.ite | fail_if_no_progress apply Kept.rest) | dsimp only | split

end Sys2Proof.Laws
end

