-- ==== Sys2Proof/Laws/KeptDefects.lean ====
section
/-! SUPPORT. What the operations of `Machine/Defects.lean` keep: one lemma each. -/
namespace Sys2Proof.Laws
open Sys2Proof Sys2Proof.Machine Sys2Proof.Safety
set_option linter.unreachableTactic false
set_option linter.unusedTactic false

theorem kept_appendDefect {r0 : State} {d : Nat} {s : State} (hk : Kept r0 s) :
    KeptO r0 (appendDefect d s) := by
  unfold appendDefect
  apply KeptO.ite KeptO.none
  exact KeptO.some (hk.burn fun w => ⟨w, fun _ _ h => h, fun _ h => h, fun _ h => h, id, id, Nat.le_refl _⟩)

theorem kept_appendFindings {r0 : State} {s : State} (hk : Kept r0 s) :
    Kept r0 (appendFindings s) := by
  unfold appendFindings
  repeat' first | intro _ | (with_reducible first | assumption | apply kept_writeLog | apply kept_appendDefect | apply Kept.ite | apply Kept.foldl | apply Kept.foldl2 | apply Kept.foldl3 | apply Kept.opt (by assumption) | apply KeptO.none | apply KeptO.some | apply KeptO.ite | exact Kept.ofO (by assumption) | fail_if_no_progress apply Kept.rest) | dsimp only | split

theorem kept_putFindings {r0 : State} {l : List (BitVec 32 × Nat)} {s : State} (hk : Kept r0 s) :
    Kept r0 (putFindings l s) := by
  unfold putFindings
  repeat' first | intro _ | (with_reducible first | assumption | apply Kept.ite | fail_if_no_progress apply Kept.rest) | dsimp only | split

theorem kept_judgeLinks {r0 : State} {e : Nat} {ks found : List Nat} {s : State} (hk : Kept r0 s) :
    Kept r0 (judgeLinks e ks found s) := by
  unfold judgeLinks
  repeat' first | intro _ | (with_reducible first | assumption | apply kept_addFinding | apply kept_appendFindings | apply kept_putFindings | apply Kept.ite | apply Kept.foldl | apply Kept.foldl2 | apply Kept.foldl3 | fail_if_no_progress apply Kept.rest) | dsimp only | split

theorem kept_hardRepair {r0 : State} {m ch pa : Nat} {s : State} (hk : Kept r0 s) :
    KeptO r0 (hardRepair m ch pa s) := by
  unfold hardRepair
  repeat' first | intro _ | (with_reducible first | assumption | apply kept_setChan | apply Kept.ite | apply KeptO.none | apply KeptO.some | apply KeptO.ite | fail_if_no_progress apply Kept.rest) | dsimp only | split

theorem kept_replaceRow {r0 : State} {pa : Nat} {s : State} (hk : Kept r0 s) :
    KeptO r0 (replaceRow pa s) := by
  unfold replaceRow
  repeat' first | intro _ | (with_reducible first | assumption | apply kept_setBank | apply kept_setChan | apply kept_hardRepair | apply Kept.ite | apply Kept.opt (by assumption) | apply KeptO.none | apply KeptO.some | apply KeptO.ite | fail_if_no_progress apply Kept.rest) | dsimp only | split

end Sys2Proof.Laws
end

