-- ==== Sys2Proof/Laws/KeptSite.lean ====
section
/-! SUPPORT. What the operations of `Machine/Site.lean` keep: one lemma each. -/
namespace Sys2Proof.Laws
open Sys2Proof Sys2Proof.Machine Sys2Proof.Safety
set_option linter.unreachableTactic false
set_option linter.unusedTactic false

theorem kept_modEven {r0 : State} {n : Nat} {f : Site → Site} {s : State} (hk : Kept r0 s) :
    Kept r0 (modEven n f s) := by
  unfold modEven
  repeat' first | intro _ | (with_reducible first | assumption | apply kept_modSite | apply Kept.ite | fail_if_no_progress apply Kept.rest) | dsimp only | split

theorem kept_siteAdmissionStart {r0 : State} {n : Nat} {st sc : BitVec 6} {s : State} (hk : Kept r0 s) :
    Kept r0 (siteAdmissionStart n st sc s) := by
  unfold siteAdmissionStart
  repeat' first | intro _ | (with_reducible first | assumption | apply kept_modSite | apply kept_readStraps | apply kept_enterRails | apply Kept.ite | apply Kept.foldl | apply Kept.foldl2 | apply Kept.foldl3 | fail_if_no_progress apply Kept.rest) | dsimp only | split

theorem kept_siteCoreRegulated {r0 : State} {n : Nat} {s : State} (hk : Kept r0 s) :
    Kept r0 (siteCoreRegulated n s) := by
  unfold siteCoreRegulated
  repeat' first | intro _ | (with_reducible first | assumption | apply kept_siteState | apply Kept.ite | fail_if_no_progress apply Kept.rest) | dsimp only | split

theorem kept_siteRailsTimeout {r0 : State} {n : Nat} {s : State} (hk : Kept r0 s) :
    Kept r0 (siteRailsTimeout n s) := by
  unfold siteRailsTimeout
  repeat' first | intro _ | (with_reducible first | assumption | apply kept_failSite | apply Kept.ite | fail_if_no_progress apply Kept.rest) | dsimp only | split

theorem kept_sidebandDetected {r0 : State} {n : Nat} {cxl : Option Bool} {s : State} (hk : Kept r0 s) :
    Kept r0 (sidebandDetected n cxl s) := by
  unfold sidebandDetected
  repeat' first | intro _ | (with_reducible first | assumption | apply kept_modEven | apply Kept.ite | fail_if_no_progress apply Kept.rest) | dsimp only | split

theorem kept_sidebandTimeout {r0 : State} {n : Nat} {s : State} (hk : Kept r0 s) :
    Kept r0 (sidebandTimeout n s) := by
  unfold sidebandTimeout
  repeat' first | intro _ | (with_reducible first | assumption | apply kept_failSite | apply Kept.ite | fail_if_no_progress apply Kept.rest) | dsimp only | split

theorem kept_noteTraining {r0 : State} {e modules : Nat} {repaired : List (Nat × Nat)} {disabled : List Nat} {s : State} (hk : Kept r0 s) :
    Kept r0 (noteTraining e modules repaired disabled s) := by
  unfold noteTraining
  repeat' first | intro _ | (with_reducible first | assumption | apply kept_modSite | apply kept_judgeLinks | apply Kept.ite | fail_if_no_progress apply Kept.rest) | dsimp only | split

theorem kept_siteTrainingDone {r0 : State} {n modules : Nat} {repaired : List (Nat × Nat)} {disabled : List Nat} {both : Bool} {s : State} (hk : Kept r0 s) :
    Kept r0 (siteTrainingDone n modules repaired disabled both s) := by
  unfold siteTrainingDone
  repeat' first | intro _ | (with_reducible first | assumption | apply kept_raise | apply kept_failSite | apply kept_siteState | apply kept_noteTraining | apply Kept.ite | fail_if_no_progress apply Kept.rest) | dsimp only | split

theorem kept_negotiateTimeout {r0 : State} {n : Nat} {s : State} (hk : Kept r0 s) :
    Kept r0 (negotiateTimeout n s) := by
  unfold negotiateTimeout
  repeat' first | intro _ | (with_reducible first | assumption | apply kept_failSite | apply Kept.ite | fail_if_no_progress apply Kept.rest) | dsimp only | split

theorem kept_attestComplete {r0 : State} {n : Nat} {a : AttestIn} {s : State} (hk : Kept r0 s) :
    Kept r0 (attestComplete n a s) := by
  unfold attestComplete
  repeat' first | intro _ | (with_reducible first | assumption | apply kept_modSite | apply kept_setMeas | apply kept_failSite | apply kept_siteState | apply Kept.ite | fail_if_no_progress apply Kept.rest) | dsimp only | split

theorem kept_attestTimeout {r0 : State} {n : Nat} {s : State} (hk : Kept r0 s) :
    Kept r0 (attestTimeout n s) := by
  unfold attestTimeout
  repeat' first | intro _ | (with_reducible first | assumption | apply kept_failSite | apply Kept.ite | fail_if_no_progress apply Kept.rest) | dsimp only | split

theorem kept_sendConfig {r0 : State} {e : Nat} {s : State} (hk : Kept r0 s) :
    Kept r0 (sendConfig e s) := by
  unfold sendConfig
  repeat' first | intro _ | (with_reducible first | assumption | apply kept_modSite | apply kept_geljaTo | apply Kept.ite | apply Kept.foldl | apply Kept.foldl2 | apply Kept.foldl3 | fail_if_no_progress apply Kept.rest) | dsimp only | split

theorem kept_crustLoaded {r0 : State} {n : Nat} {s : State} (hk : Kept r0 s) :
    Kept r0 (crustLoaded n s) := by
  unfold crustLoaded
  repeat' first | intro _ | (with_reducible first | assumption | apply kept_modSite | apply kept_siteState | apply kept_sendConfig | apply Kept.ite | fail_if_no_progress apply Kept.rest) | dsimp only | split

theorem kept_configTimeout {r0 : State} {n : Nat} {s : State} (hk : Kept r0 s) :
    Kept r0 (configTimeout n s) := by
  unfold configTimeout
  repeat' first | intro _ | (with_reducible first | assumption | apply kept_failSite | apply Kept.ite | fail_if_no_progress apply Kept.rest) | dsimp only | split

theorem kept_siteRetrainDone {r0 : State} {n modules : Nat} {repaired : List (Nat × Nat)} {s : State} (hk : Kept r0 s) :
    Kept r0 (siteRetrainDone n modules repaired s) := by
  unfold siteRetrainDone
  repeat' first | intro _ | (with_reducible first | assumption | apply kept_drainSnoops | apply kept_siteState | apply kept_failRetrain | apply kept_payCredits | apply kept_noteTraining | apply Kept.ite | fail_if_no_progress apply Kept.rest) | dsimp only | split

theorem kept_siteRetrainTimeout {r0 : State} {n : Nat} {s : State} (hk : Kept r0 s) :
    Kept r0 (siteRetrainTimeout n s) := by
  unfold siteRetrainTimeout
  repeat' first | intro _ | (with_reducible first | assumption | apply kept_failRetrain | apply Kept.ite | fail_if_no_progress apply Kept.rest) | dsimp only | split

theorem kept_siteRailShort {r0 : State} {n : Nat} {s : State} (hk : Kept r0 s) :
    Kept r0 (siteRailShort n s) := by
  unfold siteRailShort
  repeat' first | intro _ | (with_reducible first | assumption | apply kept_shortSite | apply Kept.ite | fail_if_no_progress apply Kept.rest) | dsimp only | split

theorem kept_sitFence {r0 : State} {n : Nat} {s : State} (hk : Kept r0 s) :
    Kept r0 (sitFence n s) := by
  unfold sitFence
  repeat' first | intro _ | (with_reducible first | assumption | apply kept_requestSiteFence | apply kept_refuseWrite | apply Kept.ite | fail_if_no_progress apply Kept.rest) | dsimp only | split

theorem kept_sitReadmit {r0 : State} {n : Nat} {s : State} (hk : Kept r0 s) :
    Kept r0 (sitReadmit n s) := by
  unfold sitReadmit
  repeat' first | intro _ | (with_reducible first | assumption | apply kept_setSite | apply kept_modSite | apply kept_setDomain | apply kept_refuseWrite | apply Kept.ite | apply Kept.foldl | apply Kept.foldl2 | apply Kept.foldl3 | fail_if_no_progress apply Kept.rest) | dsimp only | split

theorem kept_sitRetrain {r0 : State} {n : Nat} {s : State} (hk : Kept r0 s) :
    Kept r0 (sitRetrain n s) := by
  unfold sitRetrain
  repeat' first | intro _ | (with_reducible first | assumption | apply kept_refuseWrite | apply kept_retrainSite | apply Kept.ite | fail_if_no_progress apply Kept.rest) | dsimp only | split

theorem kept_setVolt {r0 : State} {e v : Nat} {s : State} (hk : Kept r0 s) :
    Kept r0 (setVolt e v s) := by
  unfold setVolt
  repeat' first | intro _ | (with_reducible first | assumption | apply kept_setSite | apply Kept.ite | fail_if_no_progress apply Kept.rest) | dsimp only | split

theorem kept_sitVsetWrite {r0 : State} {n : Nat} {val : Word} {s : State} (hk : Kept r0 s) :
    Kept r0 (sitVsetWrite n val s) := by
  unfold sitVsetWrite
  repeat' first | intro _ | (with_reducible first | assumption | apply kept_refuseWrite | apply kept_setVolt | apply Kept.ite | fail_if_no_progress apply Kept.rest) | dsimp only | split

theorem kept_flushOff {r0 : State} {ks : List Nat} {s : State} (hk : Kept r0 s) :
    Kept r0 (flushOff ks s) := by
  unfold flushOff
  repeat' first | intro _ | (with_reducible first | assumption | apply kept_setDomain | apply kept_coreOff | apply Kept.ite | apply Kept.foldl | apply Kept.foldl2 | apply Kept.foldl3 | fail_if_no_progress apply Kept.rest) | dsimp only | split

theorem kept_flushTimeout {r0 : State} {n : Nat} {s : State} (hk : Kept r0 s) :
    Kept r0 (flushTimeout n s) := by
  unfold flushTimeout
  repeat' first | intro _ | (with_reducible first | assumption | apply kept_dropSite | apply kept_tidySector | apply kept_atHome | apply kept_answerSnoop | apply Kept.ite | apply Kept.foldl | apply Kept.foldl2 | apply Kept.foldl3 | apply Kept.snd (by assumption) | fail_if_no_progress apply Kept.rest) | dsimp only | split

theorem kept_cachingSiteFlushDone {r0 : State} {n : Nat} {s : State} (hk : Kept r0 s) :
    Kept r0 (cachingSiteFlushDone n s) := by
  unfold cachingSiteFlushDone
  repeat' first | intro _ | (with_reducible first | assumption | apply kept_modSite | apply kept_flushOff | apply Kept.ite | fail_if_no_progress apply Kept.rest) | dsimp only | split

end Sys2Proof.Laws
end

