-- ==== Sys2Proof/Laws/KeptGelja.lean ====
section
/-! SUPPORT. What the operations of `Machine/Gelja.lean` keep: one lemma each. -/
namespace Sys2Proof.Laws
open Sys2Proof Sys2Proof.Machine Sys2Proof.Safety
set_option linter.unreachableTactic false
set_option linter.unusedTactic false

theorem kept_geljaRequest {r0 : State} {n op lo hi : Nat} {k : CrustClass} {caching : Bool} {m : GMsg} {go : Nat → Nat → State → State} {s : State} (hk : Kept r0 s) (kgo : ∀ a0 a1 x, Kept r0 x → Kept r0 (go a0 a1 x)) :
    Kept r0 (geljaRequest n op lo hi k caching m go s) := by
  unfold geljaRequest
  repeat' first | intro _ | (with_reducible first | assumption | apply kgo | apply kept_refuseGelja | apply kept_protocolError | apply kept_crustViolation | apply Kept.ite | fail_if_no_progress apply Kept.rest) | dsimp only | split

theorem kept_rdNc {r0 : State} {n : Nat} {m : GMsg} {s : State} (hk : Kept r0 s) :
    Kept r0 (rdNc n m s) := by
  unfold rdNc
  repeat' first | intro _ | (with_reducible first | assumption | apply kept_issueReq | apply kept_openTag | apply kept_geljaRequest | apply Kept.ite | fail_if_no_progress apply Kept.rest) | dsimp only | split

theorem kept_wr {r0 : State} {n : Nat} {m : GMsg} {s : State} (hk : Kept r0 s) :
    Kept r0 (wr n m s) := by
  unfold wr
  repeat' first | intro _ | (with_reducible first | assumption | apply kept_issueReq | apply kept_openTag | apply kept_geljaRequest | apply Kept.ite | fail_if_no_progress apply Kept.rest) | dsimp only | split

theorem kept_wrPart {r0 : State} {n : Nat} {m : GMsg} {s : State} (hk : Kept r0 s) :
    Kept r0 (wrPart n m s) := by
  unfold wrPart
  repeat' first | intro _ | (with_reducible first | assumption | apply kept_issueReq | apply kept_openTag | apply kept_geljaRequest | apply Kept.ite | fail_if_no_progress apply Kept.rest) | dsimp only | split

theorem kept_rdCur {r0 : State} {n : Nat} {m : GMsg} {s : State} (hk : Kept r0 s) :
    Kept r0 (rdCur n m s) := by
  unfold rdCur
  repeat' first | intro _ | (with_reducible first | assumption | apply kept_issueReq | apply kept_openTag | apply kept_atHome | apply kept_geljaRequest | apply Kept.ite | apply Kept.snd (by assumption) | fail_if_no_progress apply Kept.rest) | dsimp only | split

theorem kept_cacheReq {r0 : State} {op : HOp} {code : Nat} {m : GMsg} {e pa : Nat} {s : State} (hk : Kept r0 s) :
    Kept r0 (cacheReq op code m e pa s) := by
  unfold cacheReq
  repeat' first | intro _ | (with_reducible first | assumption | apply kept_refuseGelja | apply kept_openTag | apply kept_atHome | apply kept_cohRefused | apply Kept.ite | fail_if_no_progress apply Kept.rest) | dsimp only | split

theorem kept_filterUe {r0 : State} {line : Nat} {s : State} (hk : Kept r0 s) :
    Kept r0 (filterUe line s) := by
  unfold filterUe
  repeat' first | intro _ | (with_reducible first | assumption | apply kept_writeLog | apply kept_backInval | apply Kept.ite | apply Kept.foldl | apply Kept.foldl2 | apply Kept.foldl3 | fail_if_no_progress apply Kept.rest) | dsimp only | split

theorem kept_rdShared {r0 : State} {n : Nat} {m : GMsg} {ue : Bool} {s : State} (hk : Kept r0 s) :
    Kept r0 (rdShared n m ue s) := by
  unfold rdShared
  repeat' first | intro _ | (with_reducible first | assumption | apply kept_geljaRequest | apply kept_cacheReq | apply kept_filterUe | apply Kept.ite | fail_if_no_progress apply Kept.rest) | dsimp only | split

theorem kept_rdOwn {r0 : State} {n : Nat} {m : GMsg} {s : State} (hk : Kept r0 s) :
    Kept r0 (rdOwn n m s) := by
  unfold rdOwn
  repeat' first | intro _ | (with_reducible first | assumption | apply kept_geljaRequest | apply kept_cacheReq | apply Kept.ite | fail_if_no_progress apply Kept.rest) | dsimp only | split

theorem kept_upgrade {r0 : State} {n : Nat} {m : GMsg} {s : State} (hk : Kept r0 s) :
    Kept r0 (upgrade n m s) := by
  unfold upgrade
  repeat' first | intro _ | (with_reducible first | assumption | apply kept_geljaRequest | apply kept_cacheReq | apply Kept.ite | fail_if_no_progress apply Kept.rest) | dsimp only | split

theorem kept_evictClean {r0 : State} {n : Nat} {m : GMsg} {s : State} (hk : Kept r0 s) :
    Kept r0 (evictClean n m s) := by
  unfold evictClean
  repeat' first | intro _ | (with_reducible first | assumption | apply kept_geljaRequest | apply kept_cacheReq | apply Kept.ite | fail_if_no_progress apply Kept.rest) | dsimp only | split

theorem kept_wbDirty {r0 : State} {n : Nat} {m : GMsg} {s : State} (hk : Kept r0 s) :
    Kept r0 (wbDirty n m s) := by
  unfold wbDirty
  repeat' first | intro _ | (with_reducible first | assumption | apply kept_geljaRequest | apply kept_cacheReq | apply Kept.ite | fail_if_no_progress apply Kept.rest) | dsimp only | split

theorem kept_geljaAnswer {r0 : State} {n op lo hi : Nat} {m : GMsg} {known : Site → Bool} {go : Nat → State → State} {s : State} (hk : Kept r0 s) (kgo : ∀ a0 x, Kept r0 x → Kept r0 (go a0 x)) :
    Kept r0 (geljaAnswer n op lo hi m known go s) := by
  unfold geljaAnswer
  repeat' first | intro _ | (with_reducible first | assumption | apply kgo | apply kept_protocolError | apply Kept.ite | fail_if_no_progress apply Kept.rest) | dsimp only | split

theorem kept_snpRsp {r0 : State} {n : Nat} {m : GMsg} {s : State} (hk : Kept r0 s) :
    Kept r0 (snpRsp n m s) := by
  unfold snpRsp
  repeat' first | intro _ | (with_reducible first | assumption | apply kept_snoopAnswered | apply kept_geljaAnswer | apply Kept.ite | fail_if_no_progress apply Kept.rest) | dsimp only | split

theorem kept_snpRspData {r0 : State} {n : Nat} {m : GMsg} {s : State} (hk : Kept r0 s) :
    Kept r0 (snpRspData n m s) := by
  unfold snpRspData
  repeat' first | intro _ | (with_reducible first | assumption | apply kept_snoopAnswered | apply kept_geljaAnswer | apply Kept.ite | fail_if_no_progress apply Kept.rest) | dsimp only | split

theorem kept_ack {r0 : State} {n : Nat} {m : GMsg} {s : State} (hk : Kept r0 s) :
    Kept r0 (Machine.ack n m s) := by
  unfold Machine.ack
  repeat' first | intro _ | (with_reducible first | assumption | apply kept_closeTag | apply kept_grantAcked | apply kept_geljaAnswer | apply Kept.ite | fail_if_no_progress apply Kept.rest) | dsimp only | split

theorem kept_occupantAnswer {r0 : State} {e tag : Nat} {rd : Bool} {bs : List Byte} {poison refused : Bool} {s : State} (hk : Kept r0 s) :
    Kept r0 (occupantAnswer e tag rd bs poison refused s) := by
  unfold occupantAnswer
  repeat' first | intro _ | (with_reducible first | assumption | apply kept_modSite | apply kept_pushResp | apply Kept.ite | fail_if_no_progress apply Kept.rest) | dsimp only | split

theorem kept_rdData {r0 : State} {n : Nat} {m : GMsg} {s : State} (hk : Kept r0 s) :
    Kept r0 (rdData n m s) := by
  unfold rdData
  repeat' first | intro _ | (with_reducible first | assumption | apply kept_geljaAnswer | apply kept_occupantAnswer | apply Kept.ite | fail_if_no_progress apply Kept.rest) | dsimp only | split

theorem kept_cmp {r0 : State} {n : Nat} {m : GMsg} {s : State} (hk : Kept r0 s) :
    Kept r0 (Machine.cmp n m s) := by
  unfold Machine.cmp
  repeat' first | intro _ | (with_reducible first | assumption | apply kept_geljaAnswer | apply kept_occupantAnswer | apply Kept.ite | fail_if_no_progress apply Kept.rest) | dsimp only | split

theorem kept_occupantRspTimeout {r0 : State} {n tag : Nat} {s : State} (hk : Kept r0 s) :
    Kept r0 (occupantRspTimeout n tag s) := by
  unfold occupantRspTimeout
  repeat' first | intro _ | (with_reducible first | assumption | apply kept_modSite | apply kept_raise | apply kept_freeBytes | apply kept_pushResp | apply Kept.ite | apply Kept.snd (by assumption) | fail_if_no_progress apply Kept.rest) | dsimp only | split

theorem kept_identity {r0 : State} {n : Nat} {m : GMsg} {s : State} (hk : Kept r0 s) :
    Kept r0 (identity n m s) := by
  unfold identity
  repeat' first | intro _ | (with_reducible first | assumption | apply kept_modSite | apply kept_failSite | apply kept_siteState | apply kept_protocolError | apply Kept.ite | fail_if_no_progress apply Kept.rest) | dsimp only | split

theorem kept_arriveInfo {r0 : State} {n : Nat} {m : GMsg} {s : State} (hk : Kept r0 s) :
    Kept r0 (arriveInfo n m s) := by
  unfold arriveInfo
  repeat' first | intro _ | (with_reducible first | assumption | apply kept_markFlag | apply kept_protocolError | apply Kept.ite | fail_if_no_progress apply Kept.rest) | dsimp only | split

theorem kept_voltReq {r0 : State} {n : Nat} {m : GMsg} {s : State} (hk : Kept r0 s) :
    Kept r0 (voltReq n m s) := by
  unfold voltReq
  repeat' first | intro _ | (with_reducible first | assumption | apply kept_geljaTo | apply kept_protocolError | apply kept_setVolt | apply Kept.ite | fail_if_no_progress apply Kept.rest) | dsimp only | split

theorem kept_credit {r0 : State} {n : Nat} {m : GMsg} {s : State} (hk : Kept r0 s) :
    Kept r0 (credit n m s) := by
  unfold credit
  repeat' first | intro _ | (with_reducible first | assumption | apply kept_setSite | apply kept_drainSnoops | apply kept_protocolError | apply Kept.ite | fail_if_no_progress apply Kept.rest) | dsimp only | split

end Sys2Proof.Laws
end

