-- ==== Sys2Proof/Laws/KeptCxl.lean ====
section
/-! SUPPORT. What the operations of `Machine/Cxl.lean` keep: one lemma each. -/
namespace Sys2Proof.Laws
open Sys2Proof Sys2Proof.Machine Sys2Proof.Safety
set_option linter.unreachableTactic false
set_option linter.unusedTactic false

theorem kept_cxlSay {r0 : State} {n : Nat} {m : CxlMsg} {ops : List String} {s : State} (hk : Kept r0 s) :
    Kept r0 (cxlSay n m ops s) := by
  unfold cxlSay
  repeat' first | intro _ | (with_reducible first | assumption | apply kept_emit | apply Kept.ite | apply Kept.foldl | apply Kept.foldl2 | apply Kept.foldl3 | fail_if_no_progress apply Kept.rest) | dsimp only | split

theorem kept_cxlPoison {r0 : State} {n : Nat} {m : CxlMsg} {s : State} (hk : Kept r0 s) :
    Kept r0 (cxlPoison n m s) := by
  unfold cxlPoison
  repeat' first | intro _ | (with_reducible first | assumption | apply kept_emit | apply kept_freeBytes | apply Kept.ite | fail_if_no_progress apply Kept.rest) | dsimp only | split

theorem kept_cxlRequest {r0 : State} {n : Nat} {k : CrustClass} {m : CxlMsg} {no : Nat → State → State} {go : Nat → Nat → State → State} {s : State} (hk : Kept r0 s) (kno : ∀ a0 x, Kept r0 x → Kept r0 (no a0 x)) (kgo : ∀ a0 a1 x, Kept r0 x → Kept r0 (go a0 a1 x)) :
    Kept r0 (cxlRequest n k m no go s) := by
  unfold cxlRequest
  repeat' first | intro _ | (with_reducible first | assumption | apply kno | apply kgo | apply kept_crustViolation | apply Kept.ite | fail_if_no_progress apply Kept.rest) | dsimp only | split

theorem kept_cxlCache {r0 : State} {op : HOp} {o : Nat} {m : CxlMsg} {no : Nat → State → State} {e pa : Nat} {s : State} (hk : Kept r0 s) (kno : ∀ a0 x, Kept r0 x → Kept r0 (no a0 x)) :
    Kept r0 (cxlCache op o m no e pa s) := by
  unfold cxlCache
  repeat' first | intro _ | (with_reducible first | assumption | apply kno | apply kept_atHome | apply kept_cohRefused | apply Kept.ite | fail_if_no_progress apply Kept.rest) | dsimp only | split

theorem kept_cxlNoc {r0 : State} {e pa len op : Nat} {write : Bool} {m : CxlMsg} {s : State} (hk : Kept r0 s) :
    Kept r0 (cxlNoc e pa len op write m s) := by
  unfold cxlNoc
  repeat' first | intro _ | (with_reducible first | assumption | apply kept_issueReq | apply Kept.ite | fail_if_no_progress apply Kept.rest) | dsimp only | split

theorem kept_cxlRdcurr {r0 : State} {n : Nat} {m : CxlMsg} {s : State} (hk : Kept r0 s) :
    Kept r0 (cxlRdcurr n m s) := by
  unfold cxlRdcurr
  repeat' first | intro _ | (with_reducible first | assumption | apply kept_atHome | apply kept_cxlPoison | apply kept_cxlRequest | apply kept_cxlNoc | apply Kept.ite | fail_if_no_progress apply Kept.rest) | dsimp only | split

theorem kept_cxlCleanevict {r0 : State} {n : Nat} {m : CxlMsg} {s : State} (hk : Kept r0 s) :
    Kept r0 (cxlCleanevict n m s) := by
  unfold cxlCleanevict
  repeat' first | intro _ | (with_reducible first | assumption | apply kept_cxlSay | apply kept_cxlRequest | apply kept_cxlCache | apply Kept.ite | fail_if_no_progress apply Kept.rest) | dsimp only | split

theorem kept_cxlDirtyevict {r0 : State} {n : Nat} {m : CxlMsg} {s : State} (hk : Kept r0 s) :
    Kept r0 (cxlDirtyevict n m s) := by
  unfold cxlDirtyevict
  repeat' first | intro _ | (with_reducible first | assumption | apply kept_cxlSay | apply kept_cxlRequest | apply kept_cxlCache | apply Kept.ite | fail_if_no_progress apply Kept.rest) | dsimp only | split

theorem kept_cxlItomwr {r0 : State} {n : Nat} {m : CxlMsg} {s : State} (hk : Kept r0 s) :
    Kept r0 (cxlItomwr n m s) := by
  unfold cxlItomwr
  repeat' first | intro _ | (with_reducible first | assumption | apply kept_atHome | apply kept_cxlSay | apply kept_cxlRequest | apply kept_cxlNoc | apply Kept.ite | fail_if_no_progress apply Kept.rest) | dsimp only | split

theorem kept_cxlSnoopResponse {r0 : State} {n : Nat} {rsp : CxlSnpRsp} {m : CxlMsg} {s : State} (hk : Kept r0 s) :
    Kept r0 (cxlSnoopResponse n rsp m s) := by
  unfold cxlSnoopResponse
  repeat' first | intro _ | (with_reducible first | assumption | apply kept_protocolError | apply kept_snoopAnswered | apply Kept.ite | fail_if_no_progress apply Kept.rest) | dsimp only | split

theorem kept_cxlGoAcked {r0 : State} {n tag : Nat} {s : State} (hk : Kept r0 s) :
    Kept r0 (cxlGoAcked n tag s) := by
  unfold cxlGoAcked
  repeat' first | intro _ | (with_reducible first | assumption | apply kept_modSite | apply kept_grantAcked | apply Kept.ite | fail_if_no_progress apply Kept.rest) | dsimp only | split

theorem kept_cxlMemResponse {r0 : State} {n tag : Nat} {data : List Byte} {poison : Bool} {s : State} (hk : Kept r0 s) :
    Kept r0 (cxlMemResponse n tag data poison s) := by
  unfold cxlMemResponse
  repeat' first | intro _ | (with_reducible first | assumption | apply kept_occupantAnswer | apply Kept.ite | fail_if_no_progress apply Kept.rest) | dsimp only | split

theorem kept_cxlIoRequest {r0 : State} {n : Nat} {kind : CxlIo} {m : CxlMsg} {s : State} (hk : Kept r0 s) :
    Kept r0 (cxlIoRequest n kind m s) := by
  unfold cxlIoRequest
  repeat' first | intro _ | (with_reducible first | assumption | apply kept_crustViolation | apply kept_cxlSay | apply kept_cxlNoc | apply Kept.ite | fail_if_no_progress apply Kept.rest) | dsimp only | split

end Sys2Proof.Laws
end

