-- ==== Sys2Proof/Laws/KeptHostIo.lean ====
section
/-! SUPPORT. What the operations of `Machine/HostIo.lean` keep: one lemma each. -/
namespace Sys2Proof.Laws
open Sys2Proof Sys2Proof.Machine Sys2Proof.Safety
set_option linter.unreachableTactic false
set_option linter.unusedTactic false

theorem kept_atsTranslationCompletion {r0 : State} {e iova size host : Nat} {r w : Bool} {cpl : CplStat} {s : State} (hk : Kept r0 s) :
    Kept r0 (atsTranslationCompletion e iova size host r w cpl s) := by
  unfold atsTranslationCompletion
  repeat' first | intro _ | (with_reducible first | assumption | apply kept_setXfe | apply kept_xlFill | apply kept_raise | apply kept_pumpXfe | apply kept_ringRetry | apply Kept.ite | fail_if_no_progress apply Kept.rest) | dsimp only | split

theorem kept_pageLost {r0 : State} {e : Nat} {s : State} (hk : Kept r0 s) :
    Kept r0 (pageLost e s) := by
  unfold pageLost
  repeat' first | intro _ | (with_reducible first | assumption | apply kept_setXfe | apply kept_modVi | apply kept_raise | apply kept_endAtElem | apply kept_requestQuiesce | apply Kept.ite | fail_if_no_progress apply Kept.rest) | dsimp only | split

theorem kept_prgResponse {r0 : State} {e : Nat} {code : PrgCode} {s : State} (hk : Kept r0 s) :
    Kept r0 (prgResponse e code s) := by
  unfold prgResponse
  repeat' first | intro _ | (with_reducible first | assumption | apply kept_setXfe | apply kept_raise | apply kept_sendPageReqs | apply kept_pumpXfe | apply kept_ringRetry | apply kept_pageLost | apply Kept.ite | apply Kept.foldl | apply Kept.foldl2 | apply Kept.foldl3 | fail_if_no_progress apply Kept.rest) | dsimp only | split

theorem kept_hostReadEnds {r0 : State} {tag : Nat} {ok poison : Bool} {data : List Byte} {s : State} (hk : Kept r0 s) :
    Kept r0 (hostReadEnds tag ok poison data s) := by
  unfold hostReadEnds
  repeat' first | intro _ | (with_reducible first | assumption | apply kept_raise | apply kept_completeStats | apply kept_pumpAll | apply kept_xfeRead | apply kept_xfeReadFailed | apply kept_ringReturned | apply kept_ringRetryAll | apply Kept.ite | fail_if_no_progress apply Kept.rest) | dsimp only | split

theorem kept_hostCompletionTimeout {r0 : State} {tag : Nat} {s : State} (hk : Kept r0 s) :
    Kept r0 (hostCompletionTimeout tag s) := by
  unfold hostCompletionTimeout
  repeat' first | intro _ | (with_reducible first | assumption | apply kept_raise | apply kept_hostReadEnds | apply Kept.ite | fail_if_no_progress apply Kept.rest) | dsimp only | split

end Sys2Proof.Laws
end

