-- ==== Sys2Proof/Laws/KeptHost.lean ====
section
/-! SUPPORT. What the operations of `Machine/Host.lean` keep: one lemma each. -/
namespace Sys2Proof.Laws
open Sys2Proof Sys2Proof.Machine Sys2Proof.Safety
set_option linter.unreachableTactic false
set_option linter.unusedTactic false

theorem kept_vifAttach {r0 : State} {v : Nat} {val : Word} {s : State} (hk : Kept r0 s) :
    Kept r0 (vifAttach v val s) := by
  unfold vifAttach
  repeat' first | intro _ | (with_reducible first | assumption | apply kept_modVi | apply kept_raise | apply kept_viFault | apply kept_deliverHeld | apply Kept.ite | fail_if_no_progress apply Kept.rest) | dsimp only | split

theorem kept_vifDetach {r0 : State} {v : Nat} {s : State} (hk : Kept r0 s) :
    Kept r0 (vifDetach v s) := by
  unfold vifDetach
  repeat' first | intro _ | (with_reducible first | assumption | apply kept_setVi | apply kept_detachVi | apply Kept.ite | fail_if_no_progress apply Kept.rest) | dsimp only | split

theorem kept_vifLease {r0 : State} {v : Nat} {s : State} (hk : Kept r0 s) :
    Kept r0 (vifLease v s) := by
  unfold vifLease
  repeat' first | intro _ | (with_reducible first | assumption | apply kept_modVi | apply Kept.ite | fail_if_no_progress apply Kept.rest) | dsimp only | split

theorem kept_leaseWarn {r0 : State} {v : Nat} {s : State} (hk : Kept r0 s) :
    Kept r0 (leaseWarn v s) := by
  unfold leaseWarn
  repeat' first | intro _ | (with_reducible first | assumption | apply kept_setVi | apply kept_refresh | apply Kept.ite | fail_if_no_progress apply Kept.rest) | dsimp only | split

theorem kept_leaseExpiry {r0 : State} {v : Nat} {s : State} (hk : Kept r0 s) :
    Kept r0 (leaseExpiry v s) := by
  unfold leaseExpiry
  repeat' first | intro _ | (with_reducible first | assumption | apply kept_raise | apply kept_requestQuiesce | apply Kept.ite | fail_if_no_progress apply Kept.rest) | dsimp only | split

theorem kept_fetchSlot {r0 : State} {v : Nat} {s : State} (hk : Kept r0 s) :
    Kept r0 (fetchSlot v s) := by
  unfold fetchSlot
  repeat' first | intro _ | (with_reducible first | assumption | apply kept_modPart | apply kept_modVi | apply kept_deliverHeld | apply kept_deliverN | apply kept_ringRead | apply Kept.ite | fail_if_no_progress apply Kept.rest) | dsimp only | split

theorem kept_ringReadCompletion {r0 : State} {v : Nat} {cpl : CplStat} {data : List (BitVec 512)} {s : State} (hk : Kept r0 s) :
    Kept r0 (ringReadCompletion v cpl data s) := by
  unfold ringReadCompletion
  repeat' first | intro _ | (with_reducible first | assumption | apply kept_pumpAll | apply kept_ringReturned | apply kept_ringRetryAll | apply Kept.ite | apply Kept.foldl | apply Kept.foldl2 | apply Kept.foldl3 | fail_if_no_progress apply Kept.rest) | dsimp only | split

theorem kept_cmdDeliver {r0 : State} {op v : Nat} {s : State} (hk : Kept r0 s) :
    Kept r0 (cmdDeliver op v s) := by
  unfold cmdDeliver
  repeat' first | intro _ | (with_reducible first | assumption | apply kept_refresh | apply kept_deliverRecord | apply Kept.ite | fail_if_no_progress apply Kept.rest) | dsimp only | split

theorem kept_hstAttach {r0 : State} {val : Word} {s : State} (hk : Kept r0 s) :
    Kept r0 (hstAttach val s) := by
  unfold hstAttach
  repeat' first | intro _ | (with_reducible first | assumption | apply Kept.ite | apply Kept.vis_map | fail_if_no_progress apply Kept.rest) | dsimp only | split

theorem kept_drvLeaseExpiry {r0 : State} {s : State} (hk : Kept r0 s) :
    Kept r0 (drvLeaseExpiry s) := by
  unfold drvLeaseExpiry
  repeat' first | intro _ | (with_reducible first | assumption | apply kept_stopDma | apply Kept.ite | fail_if_no_progress apply Kept.rest) | dsimp only | split

theorem kept_perstAssert {r0 : State} {s : State} (hk : Kept r0 s) :
    Kept r0 (perstAssert s) := by
  unfold perstAssert
  repeat' first | intro _ | (with_reducible first | assumption | apply kept_stopDma | apply kept_resetHostIsland | apply Kept.ite | fail_if_no_progress apply Kept.rest) | dsimp only | split

theorem kept_linkCame {r0 : State} {rate width : Nat} {flit : Bool} {s : State} (hk : Kept r0 s) :
    Kept r0 (linkCame rate width flit s) := by
  unfold linkCame
  repeat' first | intro _ | (with_reducible first | assumption | apply kept_refresh | apply Kept.ite | fail_if_no_progress apply Kept.rest) | dsimp only | split

theorem kept_pcieLinkDown {r0 : State} {s : State} (hk : Kept r0 s) :
    Kept r0 (pcieLinkDown s) := by
  unfold pcieLinkDown
  repeat' first | intro _ | (with_reducible first | assumption | apply kept_raise | apply kept_stopDma | apply Kept.ite | fail_if_no_progress apply Kept.rest) | dsimp only | split

end Sys2Proof.Laws
end

