-- ==== Sys2Proof/Laws/KeptMapOps.lean ====
section
/-! SUPPORT. What the operations of `Machine/MapOps.lean` keep: one lemma each. -/
namespace Sys2Proof.Laws
open Sys2Proof Sys2Proof.Machine Sys2Proof.Safety
set_option linter.unreachableTactic false
set_option linter.unusedTactic false

theorem kept_chooseRun {r0 : State} {p : Nat} {hbm : Bool} {k : Nat} {s : State} (hk : Kept r0 s) :
    KeptP r0 (chooseRun p hbm k s) := by
  unfold chooseRun
  repeat' first | intro _ | (with_reducible first | assumption | apply Kept.ite | apply KeptP.none | apply KeptP.some | apply KeptP.ite | apply KeptP.map | apply KeptP.mapV | apply Kept.free_ (c := Nat.le_succ _) | fail_if_no_progress apply Kept.rest) | dsimp only | split

theorem kept_assignRun {r0 : State} {ctx : Nat} {wide : Bool} {k g : Nat} {s : State} (hk : Kept r0 s) :
    Kept r0 (assignRun ctx wide k g s) := by
  unfold assignRun
  repeat' first | intro _ | (with_reducible first | assumption | apply kept_setGranule | apply kept_zeroGranule | apply Kept.ite | apply Kept.foldl | apply Kept.foldl2 | apply Kept.foldl3 | fail_if_no_progress apply Kept.rest) | dsimp only | split

theorem kept_newTable {r0 : State} {p : Nat} {hbm : Bool} {s : State} (hk : Kept r0 s) :
    KeptP r0 (newTable p hbm s) := by
  unfold newTable
  repeat' first | intro _ | (with_reducible first | assumption | apply kept_zeroGranule | apply kept_chooseRun | apply Kept.ite | apply Kept.optP (by assumption) | apply KeptP.none | apply KeptP.some | apply KeptP.ite | apply KeptP.map | apply KeptP.mapV | fail_if_no_progress apply Kept.rest) | dsimp only | split

theorem kept_writePte {r0 : State} {a v : Nat} {s : State} (hk : Kept r0 s) :
    Kept r0 (writePte a v s) := by
  unfold writePte
  repeat' first | intro _ | (with_reducible first | assumption | apply kept_memPut | apply Kept.ite | fail_if_no_progress apply Kept.rest) | dsimp only | split

theorem kept_enterPage {r0 : State} {p : Nat} {m : DevMap} {hbm : Bool} : ∀ (a0 : Nat) {a1 : Nat} {a2 : State}, Kept r0 a2 → KeptO r0 (enterPage p m hbm a0 a1 a2) := by
  intro a0
  induction a0 with
  | zero =>
    intros
    unfold enterPage
    repeat' first | intro _ | (with_reducible first | assumption | apply kept_newTable | apply kept_writePte | apply Kept.ite | apply Kept.foldl | apply Kept.foldl2 | apply Kept.foldl3 | apply Kept.optP (by assumption) | apply KeptO.none | apply KeptO.some | apply KeptO.ite | exact Kept.ofO (by assumption) | apply KeptP.none | apply KeptP.some | apply KeptP.ite | apply KeptP.foldl | exact Kept.ofP (by assumption) | fail_if_no_progress apply Kept.rest) | dsimp only | split
  | succ _ ih =>
    intros
    unfold enterPage
    repeat' first | intro _ | (with_reducible first | assumption | apply ih | apply kept_newTable | apply kept_writePte | apply Kept.ite | apply Kept.foldl | apply Kept.foldl2 | apply Kept.foldl3 | apply Kept.optP (by assumption) | apply KeptO.none | apply KeptO.some | apply KeptO.ite | exact Kept.ofO (by assumption) | apply KeptP.none | apply KeptP.some | apply KeptP.ite | apply KeptP.foldl | exact Kept.ofP (by assumption) | fail_if_no_progress apply Kept.rest) | dsimp only | split

theorem kept_mapPage {r0 : State} {p : Nat} {m : DevMap} {s : State} (hk : Kept r0 s) :
    KeptO r0 (mapPage p m s) := by
  unfold mapPage
  repeat' first | intro _ | (with_reducible first | assumption | apply kept_xlForget | apply kept_newTable | apply kept_enterPage | apply Kept.ite | apply Kept.opt (by assumption) | apply Kept.optP (by assumption) | apply KeptO.none | apply KeptO.some | apply KeptO.ite | apply KeptO.map | apply KeptP.none | apply KeptP.some | apply KeptP.ite | apply KeptP.map | apply KeptP.mapV | fail_if_no_progress apply Kept.rest) | dsimp only | split

theorem kept_mapPages {r0 : State} {p : Nat} : ∀ (a0 : List DevMap) {a1 : State}, Kept r0 a1 → KeptO r0 (mapPages p a0 a1) := by
  intro a0
  induction a0 with
  | nil =>
    intros
    unfold mapPages
    repeat' first | intro _ | (with_reducible first | assumption | apply kept_mapPage | apply Kept.ite | apply Kept.opt (by assumption) | apply KeptO.none | apply KeptO.some | apply KeptO.ite | fail_if_no_progress apply Kept.rest) | dsimp only | split
  | cons _ _ ih =>
    intros
    unfold mapPages
    repeat' first | intro _ | (with_reducible first | assumption | apply ih | apply kept_mapPage | apply Kept.ite | apply Kept.opt (by assumption) | apply KeptO.none | apply KeptO.some | apply KeptO.ite | fail_if_no_progress apply Kept.rest) | dsimp only | split

theorem kept_rebuildTables {r0 : State} {p : Nat} {s : State} (hk : Kept r0 s) :
    Kept r0 (rebuildTables p s) := by
  unfold rebuildTables
  repeat' first | intro _ | (with_reducible first | assumption | apply kept_xlDrop | apply kept_releaseGran | apply kept_mapPage | apply Kept.ite | apply Kept.foldl | apply Kept.foldl2 | apply Kept.foldl3 | apply Kept.opt (by assumption) | apply Kept.getD | apply KeptO.none | apply KeptO.some | apply KeptO.ite | apply KeptO.map | exact Kept.ofO (by assumption) | fail_if_no_progress apply Kept.rest) | dsimp only | split

theorem kept_takeRuns {r0 : State} {p : Nat} {hbm : Bool} {k ctx : Nat} {wide : Bool} {runs : Nat} {s : State} (hk : Kept r0 s) :
    KeptP r0 (takeRuns p hbm k ctx wide runs s) := by
  unfold takeRuns
  repeat' first | intro _ | (with_reducible first | assumption | apply kept_chooseRun | apply kept_assignRun | apply Kept.ite | apply Kept.foldl | apply Kept.foldl2 | apply Kept.foldl3 | apply Kept.optP (by assumption) | apply KeptP.none | apply KeptP.some | apply KeptP.ite | apply KeptP.map | apply KeptP.mapV | apply KeptP.foldl | exact Kept.ofP (by assumption) | fail_if_no_progress apply Kept.rest) | dsimp only | split

theorem kept_mapEnds {r0 : State} {p ctx dva pg n per w total : Nat} {s : State} {o : Option (List Nat × State)} (hk : Kept r0 s)
    (ho : KeptP r0 o) : Kept r0 (mapEnds p ctx dva pg n per w total s o) := by
  unfold mapEnds
  split
  · exact kept_mbEnd hk
  · split
    · exact kept_mbEnd hk
    · exact kept_mbEnd (Kept.opt (by assumption) (kept_mapPages _ (Kept.ofP ho)))

theorem kept_mapDevice {r0 : State} {s : State} (hk : Kept r0 s) :
    Kept r0 (mapDevice s) := by
  unfold mapDevice
  repeat' first | intro _ | (with_reducible first | assumption | apply kept_mbEnd | apply kept_takeRuns | apply kept_mapEnds | apply kept_takeRuns | apply Kept.ite | apply Kept.optP (by assumption) | apply KeptP.none | apply KeptP.some | apply KeptP.ite | apply KeptP.map | apply KeptP.mapV | fail_if_no_progress apply Kept.rest) | dsimp only | split

theorem kept_unmapDevice {r0 : State} {s : State} (hk : Kept r0 s) :
    Kept r0 (unmapDevice s) := by
  unfold unmapDevice
  repeat' first | intro _ | (with_reducible first | assumption | apply kept_releaseGran | apply kept_mbEnd | apply kept_rebuildTables | apply Kept.ite | apply Kept.foldl | apply Kept.foldl2 | apply Kept.foldl3 | apply Kept.foldl4 | fail_if_no_progress apply Kept.rest) | dsimp only | split

end Sys2Proof.Laws
end

