-- ==== Sys2Proof/Laws/KeptUops.lean ====
section
/-! SUPPORT. What the operations of `Machine/Uops.lean` keep: one lemma each. -/
namespace Sys2Proof.Laws
open Sys2Proof Sys2Proof.Machine Sys2Proof.Safety
set_option linter.unreachableTactic false
set_option linter.unusedTactic false

theorem kept_uNop {r0 : State} {n : Nat} {s : State} (hk : Kept r0 s) :
    Kept r0 (uNop n s) := by
  unfold uNop
  repeat' first | intro _ | (with_reducible first | assumption | apply kept_issue | apply Kept.ite | fail_if_no_progress apply Kept.rest) | dsimp only | split

theorem kept_uEnd {r0 : State} {n : Nat} {s : State} (hk : Kept r0 s) :
    Kept r0 (uEnd n s) := by
  unfold uEnd
  repeat' first | intro _ | (with_reducible first | assumption | apply kept_issue | apply Kept.ite | fail_if_no_progress apply Kept.rest) | dsimp only | split

theorem kept_loopBody {r0 : State} {x : UCtx} {s : State} (hk : Kept r0 s) :
    Kept r0 (loopBody x s).st := by
  unfold loopBody
  repeat' first | intro _ | (with_reducible first | assumption | apply kept_setCell | apply Kept.ite | fail_if_no_progress apply Kept.rest) | dsimp only | split

theorem kept_uLoop {r0 : State} {n : Nat} {s : State} (hk : Kept r0 s) :
    Kept r0 (uLoop n s) := by
  unfold uLoop
  repeat' first | intro _ | (with_reducible first | assumption | apply kept_issue | apply kept_loopBody | apply Kept.ite | fail_if_no_progress apply Kept.rest) | dsimp only | split

theorem kept_uWaitp {r0 : State} {n : Nat} {s : State} (hk : Kept r0 s) :
    Kept r0 (uWaitp n s) := by
  unfold uWaitp
  repeat' first | intro _ | (with_reducible first | assumption | apply kept_setCell | apply kept_issue | apply Kept.ite | fail_if_no_progress apply Kept.rest) | dsimp only | split

theorem kept_uSync {r0 : State} {n : Nat} {s : State} (hk : Kept r0 s) :
    Kept r0 (uSync n s) := by
  unfold uSync
  repeat' first | intro _ | (with_reducible first | assumption | apply kept_setCell | apply kept_syncColumn | apply kept_issue | apply Kept.ite | fail_if_no_progress apply Kept.rest) | dsimp only | split

theorem kept_uLd {r0 : State} {n : Nat} {e : Ecc} {s : State} (hk : Kept r0 s) :
    Kept r0 (uLd n e s) := by
  unfold uLd
  repeat' first | intro _ | (with_reducible first | assumption | apply kept_markFlag | apply kept_cellCheck | apply kept_issue | apply kept_bumpLp | apply Kept.ite | fail_if_no_progress apply Kept.rest) | dsimp only | split

theorem kept_uSt {r0 : State} {n : Nat} {e : Ecc} {s : State} (hk : Kept r0 s) :
    Kept r0 (uSt n e s) := by
  unfold uSt
  repeat' first | intro _ | (with_reducible first | assumption | apply kept_setCell | apply kept_cellCheck | apply kept_issue | apply kept_bumpLp | apply Kept.ite | fail_if_no_progress apply Kept.rest) | dsimp only | split

theorem kept_uGet {r0 : State} {n : Nat} {s : State} (hk : Kept r0 s) :
    Kept r0 (uGet n s) := by
  unfold uGet
  repeat' first | intro _ | (with_reducible first | assumption | apply kept_setCell | apply kept_issue | apply kept_cellRead | apply kept_bumpB | apply Kept.ite | fail_if_no_progress apply Kept.rest) | dsimp only | split

theorem kept_uPut {r0 : State} {n : Nat} {s : State} (hk : Kept r0 s) :
    Kept r0 (uPut n s) := by
  unfold uPut
  repeat' first | intro _ | (with_reducible first | assumption | apply kept_issue | apply kept_cellWrite | apply kept_bumpB | apply Kept.ite | fail_if_no_progress apply Kept.rest) | dsimp only | split

theorem kept_uLdc {r0 : State} {n : Nat} {e : Ecc} {s : State} (hk : Kept r0 s) :
    Kept r0 (uLdc n e s) := by
  unfold uLdc
  repeat' first | intro _ | (with_reducible first | assumption | apply kept_cellCheck | apply kept_issue | apply Kept.ite | fail_if_no_progress apply Kept.rest) | dsimp only | split

theorem kept_uGather {r0 : State} {n : Nat} {s : State} (hk : Kept r0 s) :
    Kept r0 (uGather n s) := by
  unfold uGather
  repeat' first | intro _ | (with_reducible first | assumption | apply kept_setCell | apply kept_issue | apply kept_cellRead | apply Kept.ite | fail_if_no_progress apply Kept.rest) | dsimp only | split

theorem kept_uScatter {r0 : State} {n : Nat} {s : State} (hk : Kept r0 s) :
    Kept r0 (uScatter n s) := by
  unfold uScatter
  repeat' first | intro _ | (with_reducible first | assumption | apply kept_issue | apply kept_cellWrite | apply Kept.ite | apply Kept.foldl | apply Kept.foldl2 | apply Kept.foldl3 | fail_if_no_progress apply Kept.rest) | dsimp only | split

theorem kept_elemOp {r0 : State} {n op : Nat} {srcs : Uop → List Nat} {draws : Bool} {f : UCtx → Nat → Nat → Nat → Nat → Nat} {s : State} (hk : Kept r0 s) :
    Kept r0 (elemOp n op srcs draws f s) := by
  unfold elemOp
  repeat' first | intro _ | (with_reducible first | assumption | apply kept_issue | apply Kept.ite | fail_if_no_progress apply Kept.rest) | dsimp only | split

theorem kept_uAdd {r0 : State} {n : Nat} {s : State} (hk : Kept r0 s) :
    Kept r0 (uAdd n s) := by
  unfold uAdd
  repeat' first | intro _ | (with_reducible first | assumption | apply kept_elemOp | apply Kept.ite | fail_if_no_progress apply Kept.rest) | dsimp only | split

theorem kept_uSub {r0 : State} {n : Nat} {s : State} (hk : Kept r0 s) :
    Kept r0 (uSub n s) := by
  unfold uSub
  repeat' first | intro _ | (with_reducible first | assumption | apply kept_elemOp | apply Kept.ite | fail_if_no_progress apply Kept.rest) | dsimp only | split

theorem kept_uMul {r0 : State} {n : Nat} {s : State} (hk : Kept r0 s) :
    Kept r0 (uMul n s) := by
  unfold uMul
  repeat' first | intro _ | (with_reducible first | assumption | apply kept_elemOp | apply Kept.ite | fail_if_no_progress apply Kept.rest) | dsimp only | split

theorem kept_uFma {r0 : State} {n : Nat} {s : State} (hk : Kept r0 s) :
    Kept r0 (uFma n s) := by
  unfold uFma
  repeat' first | intro _ | (with_reducible first | assumption | apply kept_elemOp | apply Kept.ite | fail_if_no_progress apply Kept.rest) | dsimp only | split

theorem kept_uMax {r0 : State} {n : Nat} {s : State} (hk : Kept r0 s) :
    Kept r0 (uMax n s) := by
  unfold uMax
  repeat' first | intro _ | (with_reducible first | assumption | apply kept_elemOp | apply Kept.ite | fail_if_no_progress apply Kept.rest) | dsimp only | split

theorem kept_uMin {r0 : State} {n : Nat} {s : State} (hk : Kept r0 s) :
    Kept r0 (uMin n s) := by
  unfold uMin
  repeat' first | intro _ | (with_reducible first | assumption | apply kept_elemOp | apply Kept.ite | fail_if_no_progress apply Kept.rest) | dsimp only | split

theorem kept_uSel {r0 : State} {n : Nat} {s : State} (hk : Kept r0 s) :
    Kept r0 (uSel n s) := by
  unfold uSel
  repeat' first | intro _ | (with_reducible first | assumption | apply kept_elemOp | apply Kept.ite | fail_if_no_progress apply Kept.rest) | dsimp only | split

theorem kept_uCmul {r0 : State} {n : Nat} {s : State} (hk : Kept r0 s) :
    Kept r0 (uCmul n s) := by
  unfold uCmul
  repeat' first | intro _ | (with_reducible first | assumption | apply kept_issue | apply Kept.ite | fail_if_no_progress apply Kept.rest) | dsimp only | split

theorem kept_uSfu {r0 : State} {n : Nat} {s : State} (hk : Kept r0 s) :
    Kept r0 (uSfu n s) := by
  unfold uSfu
  repeat' first | intro _ | (with_reducible first | assumption | apply kept_elemOp | apply Kept.ite | fail_if_no_progress apply Kept.rest) | dsimp only | split

theorem kept_uCvt {r0 : State} {n : Nat} {s : State} (hk : Kept r0 s) :
    Kept r0 (uCvt n s) := by
  unfold uCvt
  repeat' first | intro _ | (with_reducible first | assumption | apply kept_issue | apply Kept.ite | fail_if_no_progress apply Kept.rest) | dsimp only | split

theorem kept_uMxpack {r0 : State} {n : Nat} {s : State} (hk : Kept r0 s) :
    Kept r0 (uMxpack n s) := by
  unfold uMxpack
  repeat' first | intro _ | (with_reducible first | assumption | apply kept_issue | apply Kept.ite | fail_if_no_progress apply Kept.rest) | dsimp only | split

theorem kept_uMxunpack {r0 : State} {n : Nat} {s : State} (hk : Kept r0 s) :
    Kept r0 (uMxunpack n s) := by
  unfold uMxunpack
  repeat' first | intro _ | (with_reducible first | assumption | apply kept_issue | apply Kept.ite | fail_if_no_progress apply Kept.rest) | dsimp only | split

theorem kept_uDot {r0 : State} {n : Nat} {s : State} (hk : Kept r0 s) :
    Kept r0 (uDot n s) := by
  unfold uDot
  repeat' first | intro _ | (with_reducible first | assumption | apply kept_issue | apply Kept.ite | fail_if_no_progress apply Kept.rest) | dsimp only | split

theorem kept_uLsum {r0 : State} {n : Nat} {s : State} (hk : Kept r0 s) :
    Kept r0 (uLsum n s) := by
  unfold uLsum
  repeat' first | intro _ | (with_reducible first | assumption | apply kept_issue | apply Kept.ite | fail_if_no_progress apply Kept.rest) | dsimp only | split

theorem kept_uGmax {r0 : State} {n : Nat} {s : State} (hk : Kept r0 s) :
    Kept r0 (uGmax n s) := by
  unfold uGmax
  repeat' first | intro _ | (with_reducible first | assumption | apply kept_issue | apply Kept.ite | apply Kept.foldl | apply Kept.foldl2 | apply Kept.foldl3 | fail_if_no_progress apply Kept.rest) | dsimp only | split

theorem kept_uGq {r0 : State} {n : Nat} {s : State} (hk : Kept r0 s) :
    Kept r0 (uGq n s) := by
  unfold uGq
  repeat' first | intro _ | (with_reducible first | assumption | apply kept_issue | apply Kept.ite | fail_if_no_progress apply Kept.rest) | dsimp only | split

theorem kept_uGadd {r0 : State} {n : Nat} {s : State} (hk : Kept r0 s) :
    Kept r0 (uGadd n s) := by
  unfold uGadd
  repeat' first | intro _ | (with_reducible first | assumption | apply kept_issue | apply Kept.ite | fail_if_no_progress apply Kept.rest) | dsimp only | split

theorem kept_uGrnd {r0 : State} {n : Nat} {s : State} (hk : Kept r0 s) :
    Kept r0 (uGrnd n s) := by
  unfold uGrnd
  repeat' first | intro _ | (with_reducible first | assumption | apply kept_issue | apply Kept.ite | apply Kept.foldl | apply Kept.foldl2 | apply Kept.foldl3 | fail_if_no_progress apply Kept.rest) | dsimp only | split

theorem kept_uShuf {r0 : State} {n : Nat} {s : State} (hk : Kept r0 s) :
    Kept r0 (uShuf n s) := by
  unfold uShuf
  repeat' first | intro _ | (with_reducible first | assumption | apply kept_issue | apply Kept.ite | fail_if_no_progress apply Kept.rest) | dsimp only | split

theorem kept_rngBody {r0 : State} {x : UCtx} {s : State} (hk : Kept r0 s) :
    Kept r0 (rngBody x s).st := by
  unfold rngBody
  repeat' first | intro _ | (with_reducible first | assumption | apply kept_setCell | apply Kept.ite | apply Kept.foldl | apply Kept.foldl2 | apply Kept.foldl3 | fail_if_no_progress apply Kept.rest) | dsimp only | split

theorem kept_uRng {r0 : State} {n : Nat} {s : State} (hk : Kept r0 s) :
    Kept r0 (uRng n s) := by
  unfold uRng
  repeat' first | intro _ | (with_reducible first | assumption | apply kept_issue | apply kept_rngBody | apply Kept.ite | fail_if_no_progress apply Kept.rest) | dsimp only | split

theorem kept_cellFault {r0 : State} {n : Nat} {w : CellPart} {s : State} (hk : Kept r0 s) :
    Kept r0 (cellFault n w s) := by
  unfold cellFault
  repeat' first | intro _ | (with_reducible first | assumption | apply kept_strikeCell | apply kept_cellFails | apply Kept.ite | fail_if_no_progress apply Kept.rest) | dsimp only | split

theorem kept_fabColRemap {r0 : State} {k row : Nat} {s : State} (hk : Kept r0 s) :
    Kept r0 (fabColRemap k row s) := by
  unfold fabColRemap
  repeat' first | intro _ | (with_reducible first | assumption | apply kept_requestColRemap | apply kept_refuseWrite | apply Kept.ite | fail_if_no_progress apply Kept.rest) | dsimp only | split

theorem kept_writeSlot {r0 : State} {n slot : Nat} {img : BitVec 16384} {s : State} (hk : Kept r0 s) :
    Kept r0 (writeSlot n slot img s) := by
  unfold writeSlot
  repeat' first | intro _ | (with_reducible first | assumption | apply kept_setCell | apply Kept.ite | fail_if_no_progress apply Kept.rest) | dsimp only | split

theorem kept_cfgBcast {r0 : State} {q : Nat} {cols : BitVec 32} {rows : BitVec 16} {slot : Nat} {img : BitVec 16384} {s : State} (hk : Kept r0 s) :
    Kept r0 (cfgBcast q cols rows slot img s) := by
  unfold cfgBcast
  repeat' first | intro _ | (with_reducible first | assumption | apply kept_writeSlot | apply Kept.ite | apply Kept.foldl | apply Kept.foldl2 | apply Kept.foldl3 | fail_if_no_progress apply Kept.rest) | dsimp only | split

end Sys2Proof.Laws
end

