-- ==== Sys2Proof/Laws/KeptImgSet.lean ====
section
/-! SUPPORT. What the operations of `Machine/ImgSet.lean` keep: one lemma each. -/
namespace Sys2Proof.Laws
open Sys2Proof Sys2Proof.Machine Sys2Proof.Safety
set_option linter.unreachableTactic false
set_option linter.unusedTactic false

theorem kept_writeSlots {r0 : State} {rs : List Rec} {s : State} (hk : Kept r0 s) :
    Kept r0 (writeSlots rs s) := by
  unfold writeSlots
  repeat' first | intro _ | (with_reducible first | assumption | apply kept_writeSlot | apply Kept.ite | apply Kept.foldl | apply Kept.foldl2 | apply Kept.foldl3 | fail_if_no_progress apply Kept.rest) | dsimp only | split

theorem kept_setQos {r0 : State} {p enabled : Nat} {rs : List Rec} {s : State} (hk : Kept r0 s) :
    Kept r0 (setQos p enabled rs s) := by
  unfold setQos
  repeat' first | intro _ | (with_reducible first | assumption | apply kept_setQport | apply kept_setQpart | apply Kept.ite | apply Kept.foldl | apply Kept.foldl2 | apply Kept.foldl3 | fail_if_no_progress apply Kept.rest) | dsimp only | split

theorem kept_settlePorts {r0 : State} {full : Bool} {s : State} (hk : Kept r0 s) :
    Kept r0 (settlePorts full s) := by
  unfold settlePorts
  repeat' first | intro _ | (with_reducible first | assumption | apply kept_setDomain | apply kept_setLink | apply Kept.ite | apply Kept.foldl | apply Kept.foldl2 | apply Kept.foldl3 | fail_if_no_progress apply Kept.rest) | dsimp only | split

theorem kept_setOwners {r0 : State} {s : State} (hk : Kept r0 s) :
    Kept r0 (setOwners s) := by
  unfold setOwners
  repeat' first | intro _ | (with_reducible first | assumption | apply kept_setCol | apply kept_setXfe | apply kept_setBank | apply kept_setChan | apply kept_setCunit | apply kept_zeroCell | apply Kept.ite | apply Kept.foldl | apply Kept.foldl2 | apply Kept.foldl3 | fail_if_no_progress apply Kept.rest) | dsimp only | split

theorem kept_setDomains {r0 : State} {s : State} (hk : Kept r0 s) :
    Kept r0 (setDomains s) := by
  unfold setDomains
  repeat' first | intro _ | (with_reducible first | assumption | apply kept_setQuad | apply kept_setStack | apply kept_setDomain | apply Kept.ite | apply Kept.foldl | apply Kept.foldl2 | apply Kept.foldl3 | apply Kept.mem (c := fun w => Mem.wf_clear w _ _) | fail_if_no_progress apply Kept.rest) | dsimp only | split

theorem kept_resetGranules {r0 : State} {s : State} (hk : Kept r0 s) :
    Kept r0 (resetGranules s) := by
  unfold resetGranules
  repeat' first | intro _ | (with_reducible first | assumption | apply kept_xlDrop | apply kept_releaseGran | apply kept_rebuildTables | apply Kept.ite | apply Kept.foldl | apply Kept.foldl2 | apply Kept.foldl3 | fail_if_no_progress apply Kept.rest) | dsimp only | split

theorem kept_leaveSite {r0 : State} {n : Nat} {s : State} (hk : Kept r0 s) :
    Kept r0 (leaveSite n s) := by
  unfold leaveSite
  repeat' first | intro _ | (with_reducible first | assumption | apply kept_flushSite | apply kept_coreOff | apply kept_failOuts | apply Kept.ite | apply Kept.foldl | apply Kept.foldl2 | apply Kept.foldl3 | fail_if_no_progress apply Kept.rest) | dsimp only | split

theorem kept_putRecord {r0 : State} {n : Nat} {u : Site} {st : SState} {held : Bool} {s : State} (hk : Kept r0 s) :
    Kept r0 (putRecord n u st held s) := by
  unfold putRecord
  repeat' first | intro _ | (with_reducible first | assumption | apply kept_modSite | apply kept_setDomain | apply Kept.ite | fail_if_no_progress apply Kept.rest) | dsimp only | split

theorem kept_setSitePair {r0 : State} {rs : List Rec} {e : Nat} {s : State} (hk : Kept r0 s) :
    Kept r0 (setSitePair rs e s) := by
  unfold setSitePair
  repeat' first | intro _ | (with_reducible first | assumption | apply kept_setSite | apply kept_modSite | apply kept_leaveSite | apply kept_putRecord | apply Kept.ite | fail_if_no_progress apply Kept.rest) | dsimp only | split

theorem kept_setPolicy {r0 : State} {rs : List Rec} {s : State} (hk : Kept r0 s) :
    Kept r0 (setPolicy rs s) := by
  unfold setPolicy
  repeat' first | intro _ | (with_reducible first | assumption | apply kept_holdFclk | apply Kept.ite | fail_if_no_progress apply Kept.rest) | dsimp only | split

theorem kept_rewriteQos {r0 : State} {p : Nat} {rs : List Rec} {s : State} (hk : Kept r0 s) :
    Kept r0 (rewriteQos p rs s) := by
  unfold rewriteQos
  repeat' first | intro _ | (with_reducible first | assumption | apply kept_putQosValues | apply kept_putMiss | apply Kept.ite | apply Kept.foldl | apply Kept.foldl2 | apply Kept.foldl3 | fail_if_no_progress apply Kept.rest) | dsimp only | split

theorem kept_rewritePolicy {r0 : State} {s : State} (hk : Kept r0 s) :
    Kept r0 (rewritePolicy s) := by
  unfold rewritePolicy
  repeat' first | intro _ | (with_reducible first | assumption | apply kept_modPart | apply kept_setPolicy | apply kept_rewriteQos | apply Kept.ite | apply Kept.foldl | apply Kept.foldl2 | apply Kept.foldl3 | fail_if_no_progress apply Kept.rest) | dsimp only | split

theorem kept_installPart {r0 : State} {img : Image} {p : Nat} {s : State} (hk : Kept r0 s) :
    Kept r0 (installPart img p s) := by
  unfold installPart
  repeat' first | intro _ | (with_reducible first | assumption | apply kept_setPart | apply Kept.ite | fail_if_no_progress apply Kept.rest) | dsimp only | split

theorem kept_installFull {r0 : State} {img : Image} {s : State} (hk : Kept r0 s) :
    Kept r0 (installFull img s) := by
  unfold installFull
  repeat' first | intro _ | (with_reducible first | assumption | apply kept_modVi | apply kept_setMeas | apply kept_endSession | apply kept_stopPartition | apply kept_detachVi | apply kept_holdFclk | apply kept_writeSlots | apply kept_setQos | apply kept_settlePorts | apply kept_setOwners | apply kept_setDomains | apply kept_resetGranules | apply kept_setSitePair | apply kept_setPolicy | apply kept_installPart | apply Kept.ite | apply Kept.foldl | apply Kept.foldl2 | apply Kept.foldl3 | fail_if_no_progress apply Kept.rest) | dsimp only | split

theorem kept_installPartial {r0 : State} {a : Image} {p : Nat} {s : State} (hk : Kept r0 s) :
    Kept r0 (installPartial a p s) := by
  unfold installPartial
  repeat' first | intro _ | (with_reducible first | assumption | apply kept_modPart | apply kept_setMeas | apply kept_endSession | apply kept_deliverHeld | apply kept_writeSlots | apply kept_setQos | apply kept_settlePorts | apply kept_rewritePolicy | apply Kept.ite | apply Kept.foldl | apply Kept.foldl2 | apply Kept.foldl3 | fail_if_no_progress apply Kept.rest) | dsimp only | split

end Sys2Proof.Laws
end

