-- ==== Sys2Proof/Laws/KeptImage.lean ====
section
/-! SUPPORT. What the operations of `Machine/Image.lean` keep: one lemma each. -/
namespace Sys2Proof.Laws
open Sys2Proof Sys2Proof.Machine Sys2Proof.Safety
set_option linter.unreachableTactic false
set_option linter.unusedTactic false

theorem kept_putReport {r0 : State} {addr len : Nat} {r : Report} {s : State} (hk : Kept r0 s) :
    Kept r0 (putReport addr len r s) := by
  unfold putReport
  repeat' first | intro _ | (with_reducible first | assumption | apply kept_emit | apply Kept.ite | apply Kept.foldl | apply Kept.foldl2 | apply Kept.foldl3 | fail_if_no_progress apply Kept.rest) | dsimp only | split

theorem kept_endLoad {r0 : State} {st : Status} {es : List ReportEntry} {s : State} (hk : Kept r0 s) :
    Kept r0 (endLoad st es s) := by
  unfold endLoad
  repeat' first | intro _ | (with_reducible first | assumption | apply kept_mbEnd | apply kept_dropWindow | apply kept_putReport | apply Kept.ite | fail_if_no_progress apply Kept.rest) | dsimp only | split

theorem kept_startLoad {r0 : State} {l : Load} {s : State} (hk : Kept r0 s) :
    Kept r0 (startLoad l s) := by
  unfold startLoad
  repeat' first | intro _ | (with_reducible first | assumption | apply kept_drawFree | apply kept_emit | apply kept_fetchWindow | apply kept_endLoad | apply Kept.ite | apply Kept.snd (by assumption) | apply Kept.optP (by assumption) | apply KeptP.none | apply KeptP.some | apply KeptP.ite | fail_if_no_progress apply Kept.rest) | dsimp only | split

theorem kept_loadImage {r0 : State} {s : State} (hk : Kept r0 s) :
    Kept r0 (loadImage s) := by
  unfold loadImage
  repeat' first | intro _ | (with_reducible first | assumption | apply kept_mbEnd | apply kept_startLoad | apply Kept.ite | fail_if_no_progress apply Kept.rest) | dsimp only | split

theorem kept_writeBootImage {r0 : State} {s : State} (hk : Kept r0 s) :
    Kept r0 (writeBootImage s) := by
  unfold writeBootImage
  repeat' first | intro _ | (with_reducible first | assumption | apply kept_mbEnd | apply kept_startLoad | apply Kept.ite | fail_if_no_progress apply Kept.rest) | dsimp only | split

theorem kept_fileReady {r0 : State} {f : List Byte} {req : Option Nat} {s : State} (hk : Kept r0 s) :
    Kept r0 (fileReady f req s) := by
  unfold fileReady
  repeat' first | intro _ | (with_reducible first | assumption | apply kept_endLoad | apply Kept.ite | fail_if_no_progress apply Kept.rest) | dsimp only | split

theorem kept_imageFetchDone {r0 : State} {bytes : List Byte} {s : State} (hk : Kept r0 s) :
    Kept r0 (imageFetchDone bytes s) := by
  unfold imageFetchDone
  repeat' first | intro _ | (with_reducible first | assumption | apply kept_dropWindow | apply kept_fileReady | apply Kept.ite | fail_if_no_progress apply Kept.rest) | dsimp only | split

theorem kept_bootLoad {r0 : State} {s : State} (hk : Kept r0 s) :
    Kept r0 (bootLoad s) := by
  unfold bootLoad
  repeat' first | intro _ | (with_reducible first | assumption | apply kept_endLoad | apply kept_fileReady | apply Kept.ite | fail_if_no_progress apply Kept.rest) | dsimp only | split

theorem kept_imageValidationDone {r0 : State} {s : State} (hk : Kept r0 s) :
    Kept r0 (imageValidationDone s) := by
  unfold imageValidationDone
  repeat' first | intro _ | (with_reducible first | assumption | apply kept_mbEnd | apply kept_endLoad | apply Kept.ite | fail_if_no_progress apply Kept.rest) | dsimp only | split

theorem kept_fullImageActivate {r0 : State} {s : State} (hk : Kept r0 s) :
    Kept r0 (fullImageActivate s) := by
  unfold fullImageActivate
  repeat' first | intro _ | (with_reducible first | assumption | apply kept_refresh | apply kept_becomeReady | apply kept_installFull | apply kept_endLoad | apply Kept.ite | apply Kept.foldl | apply Kept.foldl2 | apply Kept.foldl3 | fail_if_no_progress apply Kept.rest) | dsimp only | split

theorem kept_partialImageActivate {r0 : State} {p : Nat} {s : State} (hk : Kept r0 s) :
    Kept r0 (partialImageActivate p s) := by
  unfold partialImageActivate
  repeat' first | intro _ | (with_reducible first | assumption | apply kept_refresh | apply kept_becomeReady | apply kept_installPartial | apply kept_putReport | apply Kept.ite | fail_if_no_progress apply Kept.rest) | dsimp only | split

theorem kept_readReport {r0 : State} {s : State} (hk : Kept r0 s) :
    Kept r0 (readReport s) := by
  unfold readReport
  repeat' first | intro _ | (with_reducible first | assumption | apply kept_mbEnd | apply Kept.ite | fail_if_no_progress apply Kept.rest) | dsimp only | split

end Sys2Proof.Laws
end

