-- ==== Sys2Proof/Laws/KeptMemory.lean ====
section
/-! SUPPORT. What the operations of `Machine/Memory.lean` keep: one lemma each. -/
namespace Sys2Proof.Laws
open Sys2Proof Sys2Proof.Machine Sys2Proof.Safety
set_option linter.unreachableTactic false
set_option linter.unusedTactic false

theorem kept_scrubLine {r0 : State} {g pa : Nat} {e : Ecc} {s : State} (hk : Kept r0 s) :
    Kept r0 (scrubLine g pa e s) := by
  unfold scrubLine
  repeat' first | intro _ | (with_reducible first | assumption | apply kept_checkEcc | apply kept_countCe | apply kept_strikeUe | apply Kept.ite | apply Kept.snd (by assumption) | fail_if_no_progress apply Kept.rest) | dsimp only | split

theorem kept_hbmScrub {r0 : State} {m : Nat} {found : List (Nat × Ecc)} {s : State} (hk : Kept r0 s) :
    Kept r0 (hbmScrub m found s) := by
  unfold hbmScrub
  repeat' first | intro _ | (with_reducible first | assumption | apply kept_scrubLine | apply Kept.ite | apply Kept.foldl | apply Kept.foldl2 | apply Kept.foldl3 | fail_if_no_progress apply Kept.rest) | dsimp only | split

theorem kept_sramScrub {r0 : State} {found : List (Nat × Ecc)} {s : State} (hk : Kept r0 s) :
    Kept r0 (sramScrub found s) := by
  unfold sramScrub
  repeat' first | intro _ | (with_reducible first | assumption | apply kept_scrubLine | apply Kept.ite | apply Kept.foldl | apply Kept.foldl2 | apply Kept.foldl3 | fail_if_no_progress apply Kept.rest) | dsimp only | split

theorem kept_hbmRecalibration {r0 : State} {m ch : Nat} {trained : Bool} {s : State} (hk : Kept r0 s) :
    Kept r0 (hbmRecalibration m ch trained s) := by
  unfold hbmRecalibration
  repeat' first | intro _ | (with_reducible first | assumption | apply kept_setChan | apply kept_requestChanFence | apply kept_raise | apply Kept.ite | fail_if_no_progress apply Kept.rest) | dsimp only | split

theorem kept_zeroed {r0 : State} {gs : List Nat} {s : State} (hk : Kept r0 s) :
    Kept r0 (zeroed gs s) := by
  unfold zeroed
  repeat' first | intro _ | (with_reducible first | assumption | apply kept_zeroGranule | apply kept_resumeArrival | apply Kept.ite | apply Kept.foldl | apply Kept.foldl2 | apply Kept.foldl3 | fail_if_no_progress apply Kept.rest) | dsimp only | split

theorem kept_zeroingDone {r0 : State} {u : ZeroUnit} {ok : Bool} {s : State} (hk : Kept r0 s) :
    Kept r0 (zeroingDone u ok s) := by
  unfold zeroingDone
  repeat' first | intro _ | (with_reducible first | assumption | apply kept_setBank | apply kept_setChan | apply kept_requestBankFence | apply kept_raise | apply kept_zeroed | apply Kept.ite | fail_if_no_progress apply Kept.rest) | dsimp only | split

theorem kept_fenceGranule {r0 : State} {pa : Nat} {s : State} (hk : Kept r0 s) :
    Kept r0 (fenceGranule pa s) := by
  unfold fenceGranule
  repeat' first | intro _ | (with_reducible first | assumption | apply kept_setGranule | apply kept_markFence | apply kept_raise | apply Kept.ite | fail_if_no_progress apply Kept.rest) | dsimp only | split

theorem kept_rowRepair {r0 : State} {pa : Nat} {badLines : List Nat} {s : State} (hk : Kept r0 s) :
    Kept r0 (rowRepair pa badLines s) := by
  unfold rowRepair
  repeat' first | intro _ | (with_reducible first | assumption | apply kept_traceAt | apply kept_markLines | apply kept_addFinding | apply kept_resumeArrival | apply kept_replaceRow | apply kept_fenceGranule | apply Kept.ite | apply Kept.opt (by assumption) | apply KeptO.none | apply KeptO.some | apply KeptO.ite | fail_if_no_progress apply Kept.rest) | dsimp only | split

theorem kept_srmBankReadmit {r0 : State} {b : Nat} {s : State} (hk : Kept r0 s) :
    Kept r0 (srmBankReadmit b s) := by
  unfold srmBankReadmit
  repeat' first | intro _ | (with_reducible first | assumption | apply kept_requestBankReadmit | apply kept_refuseWrite | apply Kept.ite | fail_if_no_progress apply Kept.rest) | dsimp only | split

theorem kept_memChReadmit {r0 : State} {m ch : Nat} {s : State} (hk : Kept r0 s) :
    Kept r0 (memChReadmit m ch s) := by
  unfold memChReadmit
  repeat' first | intro _ | (with_reducible first | assumption | apply kept_requestChanReadmit | apply kept_refuseWrite | apply Kept.ite | fail_if_no_progress apply Kept.rest) | dsimp only | split

theorem kept_cohWinWrite {r0 : State} {w : Nat} {val : Word} {s : State} (hk : Kept r0 s) :
    Kept r0 (cohWinWrite w val s) := by
  unfold cohWinWrite
  repeat' first | intro _ | (with_reducible first | assumption | apply kept_backInvalRange | apply kept_settleHome | apply kept_refuseWrite | apply Kept.ite | fail_if_no_progress apply Kept.rest) | dsimp only | split

theorem kept_stackRailShort {r0 : State} {m : Nat} {s : State} (hk : Kept r0 s) :
    Kept r0 (stackRailShort m s) := by
  unfold stackRailShort
  repeat' first | intro _ | (with_reducible first | assumption | apply kept_markFence | apply kept_fenceStack | apply kept_raise | apply Kept.ite | fail_if_no_progress apply Kept.rest) | dsimp only | split

end Sys2Proof.Laws
end

