-- ==== Sys2Proof/Laws/Otp.lean ====
section
/-! SUPPORT. What the burns of OTP do: each only sets bits (the text before R625: OTP bits can only be set). -/
namespace Sys2Proof.Laws
open Sys2Proof Sys2Proof.Machine Sys2Proof.Safety

/-- Or-ing bits into one copy of a field. -/
theorem fields_or {t : Tab (BitVec 16)} (w : Tab.wf 0 t = true) (i : Nat) (m : BitVec 16) :
    Tab.wf 0 (Tab.set 0 t i (Tab.get 0 t i ||| m)) = true ∧
    ∀ k j, (Tab.get 0 t k).getLsbD j = true → (Tab.get 0 (Tab.set 0 t i (Tab.get 0 t i ||| m)) k).getLsbD j = true := by
  refine ⟨Tab.wf_set w _ _, fun k j h => ?_⟩
  by_cases e : k = i
  · subst e
    rw [Tab.get_set_same w]
    rw [BitVec.getLsbD_or, Bool.or_eq_true]
    exact Or.inl h
  · rw [Tab.get_set_other w e]
    exact h

theorem otp_burnBits {o : Otp} (w : Tab.wf 0 o.fields = true) (f a b c : Nat) :
    Tab.wf 0 (burnBits f a b c o).fields = true ∧ OtpLe o (burnBits f a b c o) := by
  have h0 := fields_or w (f * 3 + 0) (BitVec.ofNat 16 (2 ^ min a 16 - 1))
  have h1 := fields_or h0.1 (f * 3 + 1) (BitVec.ofNat 16 (2 ^ min b 16 - 1))
  have h2 := fields_or h1.1 (f * 3 + 2) (BitVec.ofNat 16 (2 ^ min c 16 - 1))
  exact ⟨h2.1, fun k j h => h2.2 k j (h1.2 k j (h0.2 k j h)), fun _ h => h, fun _ h => h, id, id, Nat.le_refl _⟩

theorem otp_finishField {o : Otp} (w : Tab.wf 0 o.fields = true) (f : Nat) :
    Tab.wf 0 (finishField f o).fields = true ∧ OtpLe o (finishField f o) := otp_burnBits w f 16 16 16

theorem otp_burnField {o : Otp} (w : Tab.wf 0 o.fields = true) (f : Nat) (b : Burn) :
    Tab.wf 0 (burnField f b o).fields = true ∧ OtpLe o (burnField f b o) := by
  cases b with
  | full => exact otp_finishField w f
  | short x y z => exact otp_burnBits w f x y z

/-- Every bit set covers any bits. -/
theorem allOnes_covers {n : Nat} (x : BitVec n) {i : Nat} (h : x.getLsbD i = true) : (BitVec.allOnes n).getLsbD i = true := by
  rw [BitVec.getLsbD_allOnes, decide_eq_true_eq]
  by_contra hn
  rw [BitVec.getLsbD_of_ge _ _ (by omega)] at h
  cases h

theorem or_covers {n : Nat} (x y : BitVec n) {i : Nat} (h : x.getLsbD i = true) : (x ||| y).getLsbD i = true := by
  rw [BitVec.getLsbD_or, Bool.or_eq_true]
  exact Or.inl h

theorem otp_wipe (o : Otp) : OtpLe o (wipeOtp o) := by
  unfold wipeOtp
  refine ⟨fun _ _ h => h, fun _ h => ?_, fun _ h => ?_, fun _ => rfl, fun _ => rfl, Nat.le_max_left _ _⟩
  · exact allOnes_covers _ h
  · exact allOnes_covers _ h

theorem otp_burn (f v : Nat) (b : Burn) (o : Otp) : (otpBurn f v b o).2.fields = o.fields ∧ OtpLe o (otpBurn f v b o).2 := by
  have or_left : ∀ b c : Bool, b = true → (b || c) = true := fun b c h => by rw [h]; rfl
  unfold otpBurn
  dsimp only
  split
  · exact ⟨rfl, fun _ _ h => h, fun i h => or_covers _ _ h, fun _ h => h, id, id, Nat.le_refl _⟩
  · split
    · exact ⟨rfl, fun _ _ h => h, fun _ h => h, fun _ h => h, or_left _ _, id, Nat.le_refl _⟩
    · exact ⟨rfl, fun _ _ h => h, fun _ h => h, fun i h => or_covers _ _ h, id, id, Nat.le_refl _⟩

theorem otp_secret (o : Otp) : OtpLe o { o with secret := BitVec.allOnes 288 } :=
  ⟨fun _ _ h => h, fun _ h => h, fun _ h => allOnes_covers _ h, id, id, Nat.le_refl _⟩

theorem otp_finishFields {o : Otp} (w : Tab.wf 0 o.fields = true) :
    Tab.wf 0 (finishFields o).fields = true ∧ OtpLe o (finishFields o) := by
  unfold finishFields
  generalize partFields o = l
  induction l generalizing o with
  | nil => exact ⟨w, OtpLe.refl _⟩
  | cons f l ih =>
    have h := otp_finishField w f
    exact ⟨(ih h.1).1, OtpLe.trans h.2 (ih h.1).2⟩

theorem otp_rom {o : Otp} (w : Tab.wf 0 o.fields = true) : Tab.wf 0 (romOtp o).fields = true ∧ OtpLe o (romOtp o) := by
  have h := otp_finishFields w
  unfold romOtp
  split
  · have e : (wipeOtp (finishFields o)).fields = (finishFields o).fields := by unfold wipeOtp; rfl
    have kw := otp_wipe (finishFields o)
    generalize wipeOtp (finishFields o) = q at e kw
    have k := otp_finishField (o := q) (e ▸ h.1) 4
    exact ⟨k.1, OtpLe.trans h.2 (OtpLe.trans kw k.2)⟩
  · exact h

end Sys2Proof.Laws
end

