-- ==== Sys2Proof/Laws/KeptStart.lean ====
section
/-! SUPPORT. What the operations of `Machine/Start.lean` keep: one lemma each. -/
namespace Sys2Proof.Laws
open Sys2Proof Sys2Proof.Machine Sys2Proof.Safety
set_option linter.unreachableTactic false
set_option linter.unusedTactic false

theorem kept_measureDebug {r0 : State} {s : State} (hk : Kept r0 s) :
    Kept r0 (measureDebug s) := by
  unfold measureDebug
  repeat' first | intro _ | (with_reducible first | assumption | apply kept_setMeas | apply Kept.ite | fail_if_no_progress apply Kept.rest) | dsimp only | split

theorem kept_measureFw {r0 : State} {s : State} (hk : Kept r0 s) :
    Kept r0 (measureFw s) := by
  unfold measureFw
  repeat' first | intro _ | (with_reducible first | assumption | apply kept_setMeas | apply Kept.ite | fail_if_no_progress apply Kept.rest) | dsimp only | split

theorem kept_hubBase {r0 : State} {s : State} (hk : Kept r0 s) :
    Kept r0 (hubBase s) := by
  refine hk.trans ⟨fun ⟨m, p, x, si, po, co, v, ce, fc, q, se, o, gr⟩ => ⟨⟨⟨rfl, rfl, rfl, rfl, Tab.wf_mapV m.2.2.2.2.1 _, ?_⟩, rfl, rfl, rfl, rfl, rfl,
    rfl, rfl, rfl, rfl, rfl, o, rfl⟩, OtpLe.refl _⟩, rfl, List.suffix_refl _, Nat.le_refl _⟩
  exact Tab.wf_foldl (fun t m h => Tab.wf_set h _ _) _ rfl

theorem kept_enterReset {r0 : State} {s : State} (hk : Kept r0 s) :
    Kept r0 (enterReset s) := by
  unfold enterReset
  repeat' first | intro _ | (with_reducible first | assumption | apply kept_emit | apply kept_hubBase | apply Kept.ite | fail_if_no_progress apply Kept.rest) | dsimp only | split

theorem kept_setStart {r0 : State} {f : StartRec → StartRec} {s : State} (hk : Kept r0 s) :
    Kept r0 (setStart f s) := by
  unfold setStart
  repeat' first | intro _ | (with_reducible first | assumption | apply Kept.ite | fail_if_no_progress apply Kept.rest) | dsimp only | split

theorem kept_startRow {r0 : State} {d : Nat} {s : State} (hk : Kept r0 s) :
    Kept r0 (startRow d s) := by
  unfold startRow
  repeat' first | intro _ | (with_reducible first | assumption | apply kept_writeLog | apply kept_setBank | apply kept_replaceRow | apply kept_fenceGranule | apply Kept.ite | apply Kept.opt (by assumption) | apply KeptO.none | apply KeptO.some | apply KeptO.ite | fail_if_no_progress apply Kept.rest) | dsimp only | split

theorem kept_startStacks {r0 : State} {bad : List Nat} {s : State} (hk : Kept r0 s) :
    Kept r0 (startStacks bad s) := by
  unfold startStacks
  repeat' first | intro _ | (with_reducible first | assumption | apply kept_setChan | apply kept_setStack | apply kept_setDomain | apply kept_fenceChan | apply kept_fenceStack | apply kept_raise | apply Kept.ite | apply Kept.foldl | apply Kept.foldl2 | apply Kept.foldl3 | fail_if_no_progress apply Kept.rest) | dsimp only | split

theorem kept_startMemory {r0 : State} {x : StartIn} {units : List Nat} {s : State} (hk : Kept r0 s) :
    Kept r0 (startMemory x units s) := by
  unfold startMemory
  repeat' first | intro _ | (with_reducible first | assumption | apply kept_fenceBank | apply kept_startRow | apply kept_startStacks | apply Kept.ite | apply Kept.foldl | apply Kept.foldl2 | apply Kept.foldl3 | fail_if_no_progress apply Kept.rest) | dsimp only | split

theorem kept_startLink {r0 : State} {d : Nat} {s : State} (hk : Kept r0 s) :
    Kept r0 (startLink d s) := by
  unfold startLink
  repeat' first | intro _ | (with_reducible first | assumption | apply kept_writeLog | apply Kept.ite | fail_if_no_progress apply Kept.rest) | dsimp only | split

theorem kept_startCellBad {r0 : State} {d : Nat} {s : State} (hk : Kept r0 s) :
    Kept r0 (startCellBad d s) := by
  unfold startCellBad
  repeat' first | intro _ | (with_reducible first | assumption | apply kept_writeLog | apply kept_setCol | apply kept_fenceCol | apply Kept.ite | fail_if_no_progress apply Kept.rest) | dsimp only | split

theorem kept_startCells {r0 : State} {x : StartIn} {units : List Nat} {s : State} (hk : Kept r0 s) :
    Kept r0 (startCells x units s) := by
  unfold startCells
  repeat' first | intro _ | (with_reducible first | assumption | apply kept_fenceCol | apply kept_startCellBad | apply Kept.ite | apply Kept.foldl | apply Kept.foldl2 | apply Kept.foldl3 | fail_if_no_progress apply Kept.rest) | dsimp only | split

theorem kept_flatbread {r0 : State} {reason : Nat} {s : State} (hk : Kept r0 s) :
    Kept r0 (flatbread reason s) := by
  unfold flatbread
  repeat' first | intro _ | (with_reducible first | assumption | apply kept_writeLog | apply Kept.ite | fail_if_no_progress apply Kept.rest) | dsimp only | split

theorem kept_enterStage {r0 : State} {n : Nat} {st : Stage} {s : State} (hk : Kept r0 s) :
    Kept r0 (enterStage n st s) := by
  unfold enterStage
  repeat' first | intro _ | (with_reducible first | assumption | apply kept_writeLog | apply kept_setStart | apply Kept.ite | fail_if_no_progress apply Kept.rest) | dsimp only | split

theorem kept_fatalStart {r0 : State} {n : Nat} {s : State} (hk : Kept r0 s) :
    Kept r0 (fatalStart n s) := by
  unfold fatalStart
  repeat' first | intro _ | (with_reducible first | assumption | apply kept_writeLog | apply Kept.ite | fail_if_no_progress apply Kept.rest) | dsimp only | split

theorem kept_startBoot {r0 : State} {s : State} (hk : Kept r0 s) :
    Kept r0 (startBoot s) := by
  unfold startBoot
  repeat' first | intro _ | (with_reducible first | assumption | apply kept_bootLoad | apply kept_imageValidationDone | apply kept_fullImageActivate | apply Kept.ite | fail_if_no_progress apply Kept.rest) | dsimp only | split

theorem kept_firmwareStart {r0 : State} {x : StartIn} {prevDone : Bool} {s : State} (hk : Kept r0 s) :
    Kept r0 (firmwareStart x prevDone s) := by
  unfold firmwareStart
  repeat' first | intro _ | (with_reducible first | assumption | apply kept_writeLog | apply kept_setMeas | apply kept_appendFindings | apply kept_measureDebug | apply kept_measureFw | apply kept_startMemory | apply kept_startLink | apply kept_startCells | apply kept_enterStage | apply kept_fatalStart | apply kept_startBoot | apply Kept.ite | apply Kept.foldl | apply Kept.foldl2 | apply Kept.foldl3 | fail_if_no_progress apply Kept.rest) | dsimp only | split

theorem kept_romBurn {r0 : State} {x : StartIn} {s : State} (hk : Kept r0 s) :
    Kept r0 (romBurn x s) := by
  unfold romBurn
  dsimp only
  with_reducible apply Kept.burn hk
  with_reducible exact otp_rom

theorem kept_romFirst {r0 : State} {x : StartIn} {s : State} (hk : Kept r0 s) :
    Kept r0 (romFirst x s) := by
  unfold romFirst
  repeat' first | intro _ | (with_reducible first | assumption | apply kept_refresh | apply kept_raise | apply kept_romBurn | apply Kept.ite | fail_if_no_progress apply Kept.rest) | dsimp only | split

theorem kept_romSelect {r0 : State} {x : StartIn} {prevDone : Bool} {s : State} (hk : Kept r0 s) :
    Kept r0 (romSelect x prevDone s) := by
  unfold romSelect
  repeat' first | intro _ | (with_reducible first | assumption | apply kept_flatbread | apply kept_firmwareStart | apply Kept.ite | fail_if_no_progress apply Kept.rest) | dsimp only | split

theorem kept_hubReset {r0 : State} {x : StartIn} {s : State} (hk : Kept r0 s) :
    Kept r0 (hubReset x s) := by
  unfold hubReset
  repeat' first | intro _ | (with_reducible first | assumption | apply kept_refresh | apply kept_raise | apply kept_enterReset | apply kept_setStart | apply kept_flatbread | apply kept_fatalStart | apply kept_firmwareStart | apply kept_romFirst | apply kept_romSelect | apply Kept.ite | fail_if_no_progress apply Kept.rest) | dsimp only | split

theorem kept_startComplete {r0 : State} {s : State} (hk : Kept r0 s) :
    Kept r0 (startComplete s) := by
  unfold startComplete
  repeat' first | intro _ | (with_reducible first | assumption | apply kept_writeLog | apply Kept.ite | fail_if_no_progress apply Kept.rest) | dsimp only | split

end Sys2Proof.Laws
end

