-- ==== Sys2Proof/Laws/KeptLcs.lean ====
section
/-! SUPPORT. What the operations of `Machine/Lcs.lean` keep: one lemma each. -/
namespace Sys2Proof.Laws
open Sys2Proof Sys2Proof.Machine Sys2Proof.Safety
set_option linter.unreachableTactic false
set_option linter.unusedTactic false

theorem kept_stopAll {r0 : State} {s : State} (hk : Kept r0 s) :
    Kept r0 (stopAll s) := by
  unfold stopAll
  repeat' first | intro _ | (with_reducible first | assumption | apply kept_endSession | apply kept_stopPartition | apply Kept.ite | apply Kept.foldl | apply Kept.foldl2 | apply Kept.foldl3 | fail_if_no_progress apply Kept.rest) | dsimp only | split

theorem kept_wipeSecrets {r0 : State} {s : State} (hk : Kept r0 s) :
    Kept r0 (wipeSecrets s) := by
  unfold wipeSecrets
  refine hk.trans ⟨fun ⟨m, p, x, si, po, co, v, ce, fc, q, se, o, gr⟩ => ⟨⟨⟨rfl, rfl, Tab.wf_mapV m.2.2.1 _, m.2.2.2.1, m.2.2.2.2.1, m.2.2.2.2.2⟩, p, x, si,
    po, co, v, rfl, fc, q, Tab.wf_mapV se _, o, gr⟩, ?_⟩, rfl, List.suffix_refl _, Nat.le_refl _⟩
  exact otp_secret _

theorem kept_endDebug {r0 : State} {nonce : BitVec 256} {s : State} (hk : Kept r0 s) :
    Kept r0 (endDebug nonce s) := by
  unfold endDebug
  repeat' first | intro _ | (with_reducible first | assumption | apply kept_fclkToMin | apply kept_measureDebug | apply Kept.ite | fail_if_no_progress apply Kept.rest) | dsimp only | split

theorem kept_closeDebug {r0 : State} {s : State} (hk : Kept r0 s) :
    Kept r0 (closeDebug s) := by
  unfold closeDebug
  repeat' first | intro _ | (with_reducible first | assumption | apply kept_drawFree | apply kept_endDebug | apply Kept.ite | fail_if_no_progress apply Kept.rest) | dsimp only | split

theorem kept_openDebug {r0 : State} {mode signer minutes : Nat} {rights : Word} {s : State} (hk : Kept r0 s) :
    Kept r0 (openDebug mode signer minutes rights s) := by
  unfold openDebug
  repeat' first | intro _ | (with_reducible first | assumption | apply kept_raise | apply kept_measureDebug | apply Kept.ite | fail_if_no_progress apply Kept.rest) | dsimp only | split

theorem kept_burnLc {r0 : State} {f : Nat} {b : Burn} {s : State} (hk : Kept r0 s) :
    Kept r0 (burnLc f b s) := by
  unfold burnLc
  with_reducible apply Kept.burn hk
  with_reducible exact fun w => otp_burnField w _ _

theorem kept_wipeAllOtp {r0 : State} {s : State} (hk : Kept r0 s) :
    Kept r0 (wipeAllOtp s) := by
  unfold wipeAllOtp
  with_reducible apply Kept.burn hk
  exact fun w => ⟨by unfold wipeOtp; exact w, otp_wipe _⟩

theorem kept_transitionEnds {r0 : State} {ok : Bool} {s : State} (hk : Kept r0 s) :
    Kept r0 (transitionEnds ok s) := by
  unfold transitionEnds
  repeat' first | intro _ | (with_reducible first | assumption | apply kept_raise | apply kept_measureDebug | apply kept_closeDebug | apply Kept.ite | fail_if_no_progress apply Kept.rest) | dsimp only | split

theorem kept_scrapEnds {r0 : State} {erased : Bool} {s : State} (hk : Kept r0 s) :
    Kept r0 (scrapEnds erased s) := by
  unfold scrapEnds
  repeat' first | intro _ | (with_reducible first | assumption | apply kept_enterReset | apply kept_burnLc | apply Kept.ite | fail_if_no_progress apply Kept.rest) | dsimp only | split

theorem kept_performTransition {r0 : State} {target : Nat} {b : Burn} {s : State} (hk : Kept r0 s) :
    Kept r0 (performTransition target b s) := by
  unfold performTransition
  repeat' first | intro _ | (with_reducible first | assumption | apply kept_writeLog | apply kept_enterReset | apply kept_stopAll | apply kept_wipeSecrets | apply kept_closeDebug | apply kept_burnLc | apply kept_wipeAllOtp | apply kept_transitionEnds | apply kept_scrapEnds | apply Kept.ite | fail_if_no_progress apply Kept.rest) | dsimp only | split

theorem kept_lcsRequest {r0 : State} {path : LcsPath} {target : Nat} {b : Burn} {s : State} (hk : Kept r0 s) :
    Kept r0 (lcsRequest path target b s) := by
  unfold lcsRequest
  repeat' first | intro _ | (with_reducible first | assumption | apply kept_refresh | apply kept_refuseWrite | apply kept_performTransition | apply Kept.ite | fail_if_no_progress apply Kept.rest) | dsimp only | split

theorem kept_burnValue {r0 : State} {f : Nat} {v : List Byte} {b : Burn} {s : State} (hk : Kept r0 s) :
    Kept r0 (burnValue f v b s) := by
  unfold burnValue
  with_reducible apply Kept.burn hk
  intro w
  have k := otp_burn f (leNat v) b s.lcs.otp
  exact ⟨by rw [k.1]; exact w, k.2⟩

theorem kept_otpEnds {r0 : State} {path : LcsPath} {st : Status} {s : State} (hk : Kept r0 s) :
    Kept r0 (otpEnds path st s) := by
  unfold otpEnds
  repeat' first | intro _ | (with_reducible first | assumption | apply kept_mbEnd | apply Kept.ite | fail_if_no_progress apply Kept.rest) | dsimp only | split

theorem kept_otpPerform {r0 : State} {path : LcsPath} {f : Nat} {v : List Byte} {b : Burn} {s : State} (hk : Kept r0 s) :
    Kept r0 (otpPerform path f v b s) := by
  unfold otpPerform
  repeat' first | intro _ | (with_reducible first | assumption | apply kept_raise | apply kept_burnValue | apply kept_otpEnds | apply Kept.ite | fail_if_no_progress apply Kept.rest) | dsimp only | split

theorem kept_otpProgram {r0 : State} {path : LcsPath} {f : Nat} {v : List Byte} {b : Burn} {s : State} (hk : Kept r0 s) :
    Kept r0 (otpProgram path f v b s) := by
  unfold otpProgram
  repeat' first | intro _ | (with_reducible first | assumption | apply kept_otpEnds | apply kept_otpPerform | apply Kept.ite | fail_if_no_progress apply Kept.rest) | dsimp only | split

theorem kept_runOtp {r0 : State} {s : State} (hk : Kept r0 s) :
    Kept r0 (runOtp s) := by
  unfold runOtp
  repeat' first | intro _ | (with_reducible first | assumption | apply kept_otpPerform | apply Kept.ite | fail_if_no_progress apply Kept.rest) | dsimp only | split

theorem kept_otpProgramBar0 {r0 : State} {value : List Byte} {b : Burn} {s : State} (hk : Kept r0 s) :
    Kept r0 (otpProgramBar0 value b s) := by
  unfold otpProgramBar0
  repeat' first | intro _ | (with_reducible first | assumption | apply kept_mbEnd | apply kept_fetchArg | apply kept_otpProgram | apply Kept.ite | apply Kept.opt (by assumption) | apply KeptO.none | apply KeptO.some | apply KeptO.ite | fail_if_no_progress apply Kept.rest) | dsimp only | split

theorem kept_burnRollback {r0 : State} {s : State} (hk : Kept r0 s) :
    Kept r0 (burnRollback s) := by
  unfold burnRollback
  apply kept_mbEnd
  apply kept_measureFw
  exact hk.burn fun w => ⟨w, fun _ _ h => h, fun _ h => h, fun _ h => h, id, id, Nat.le_max_left _ _⟩

theorem kept_tryRollback {r0 : State} {s : State} (hk : Kept r0 s) :
    Kept r0 (tryRollback s) := by
  unfold tryRollback
  repeat' first | intro _ | (with_reducible first | assumption | apply kept_burnRollback | apply Kept.ite | fail_if_no_progress apply Kept.rest) | dsimp only | split

theorem kept_runDeferred {r0 : State} {s : State} (hk : Kept r0 s) :
    Kept r0 (runDeferred s) := by
  unfold runDeferred
  repeat' first | intro _ | (with_reducible first | assumption | apply kept_performTransition | apply kept_runOtp | apply kept_burnRollback | apply Kept.ite | fail_if_no_progress apply Kept.rest) | dsimp only | split

theorem kept_openErase {r0 : State} {s : State} (hk : Kept r0 s) :
    Kept r0 (openErase s) := by
  unfold openErase
  repeat' first | intro _ | (with_reducible first | assumption | apply kept_raise | apply kept_stopAll | apply kept_wipeSecrets | apply kept_openDebug | apply Kept.ite | fail_if_no_progress apply Kept.rest) | dsimp only | split

theorem kept_openCert {r0 : State} {c : BitVec 2048} {s : State} (hk : Kept r0 s) :
    Kept r0 (openCert c s) := by
  unfold openCert
  repeat' first | intro _ | (with_reducible first | assumption | apply kept_raise | apply kept_stopAll | apply kept_wipeSecrets | apply kept_openDebug | apply Kept.ite | fail_if_no_progress apply Kept.rest) | dsimp only | split

theorem kept_tapShift {r0 : State} {ir : Nat} {v : BitVec 64} {s : State} (hk : Kept r0 s) :
    Kept r0 (tapShift ir v s) := by
  unfold tapShift
  repeat' first | intro _ | (with_reducible first | assumption | apply kept_emit | apply Kept.ite | fail_if_no_progress apply Kept.rest) | dsimp only | split

theorem kept_hbmHardRepair {r0 : State} {d : Nat} {s : State} (hk : Kept r0 s) :
    Kept r0 (hbmHardRepair d s) := by
  unfold hbmHardRepair
  repeat' first | intro _ | (with_reducible first | assumption | apply kept_hardRepair | apply Kept.ite | apply Kept.opt (by assumption) | apply Kept.getD | apply KeptO.none | apply KeptO.some | apply KeptO.ite | fail_if_no_progress apply Kept.rest) | dsimp only | split

end Sys2Proof.Laws
end

