-- ==== Sys2Proof/Laws/KeptLinks.lean ====
section
/-! SUPPORT. What the operations of `Machine/Links.lean` keep: one lemma each. -/
namespace Sys2Proof.Laws
open Sys2Proof Sys2Proof.Machine Sys2Proof.Safety
set_option linter.unreachableTactic false
set_option linter.unusedTactic false

theorem kept_learn {r0 : State} {n : Nat} {tr : Training} {s : State} (hk : Kept r0 s) :
    Kept r0 (learn n tr s) := by
  unfold learn
  repeat' first | intro _ | (with_reducible first | assumption | apply kept_emit | apply kept_setPort | apply Kept.ite | fail_if_no_progress apply Kept.rest) | dsimp only | split

theorem kept_portUp {r0 : State} {n : Nat} {s : State} (hk : Kept r0 s) :
    Kept r0 (portUp n s) := by
  unfold portUp
  repeat' first | intro _ | (with_reducible first | assumption | apply kept_emit | apply kept_setPort | apply kept_sendCredit | apply kept_drainTx | apply kept_setLink | apply Kept.ite | apply Kept.foldl | apply Kept.foldl2 | apply Kept.foldl3 | fail_if_no_progress apply Kept.rest) | dsimp only | split

theorem kept_stlTrainingDone {r0 : State} {n : Nat} {tr : Training} {s : State} (hk : Kept r0 s) :
    Kept r0 (stlTrainingDone n tr s) := by
  unfold stlTrainingDone
  repeat' first | intro _ | (with_reducible first | assumption | apply kept_setPort | apply kept_failPort | apply kept_learn | apply kept_portUp | apply Kept.ite | fail_if_no_progress apply Kept.rest) | dsimp only | split

theorem kept_stlTrainingTimeout {r0 : State} {n : Nat} {s : State} (hk : Kept r0 s) :
    Kept r0 (stlTrainingTimeout n s) := by
  unfold stlTrainingTimeout
  repeat' first | intro _ | (with_reducible first | assumption | apply kept_failPort | apply Kept.ite | fail_if_no_progress apply Kept.rest) | dsimp only | split

theorem kept_retrain {r0 : State} {n : Nat} {s : State} (hk : Kept r0 s) :
    Kept r0 (retrain n s) := by
  unfold retrain
  repeat' first | intro _ | (with_reducible first | assumption | apply kept_setLink | apply Kept.ite | fail_if_no_progress apply Kept.rest) | dsimp only | split

theorem kept_stlRetrainDone {r0 : State} {n : Nat} {tr : Training} {s : State} (hk : Kept r0 s) :
    Kept r0 (stlRetrainDone n tr s) := by
  unfold stlRetrainDone
  repeat' first | intro _ | (with_reducible first | assumption | apply kept_raise | apply kept_failPort | apply kept_learn | apply kept_portUp | apply Kept.ite | fail_if_no_progress apply Kept.rest) | dsimp only | split

theorem kept_stlRetrainTimeout {r0 : State} {n : Nat} {s : State} (hk : Kept r0 s) :
    Kept r0 (stlRetrainTimeout n s) := by
  unfold stlRetrainTimeout
  repeat' first | intro _ | (with_reducible first | assumption | apply kept_failPort | apply Kept.ite | fail_if_no_progress apply Kept.rest) | dsimp only | split

theorem kept_stlPortFence {r0 : State} {n : Nat} {s : State} (hk : Kept r0 s) :
    Kept r0 (stlPortFence n s) := by
  unfold stlPortFence
  repeat' first | intro _ | (with_reducible first | assumption | apply kept_requestPortFence | apply kept_refreshMirrors | apply Kept.ite | fail_if_no_progress apply Kept.rest) | dsimp only | split

theorem kept_stlPortReadmit {r0 : State} {n : Nat} {s : State} (hk : Kept r0 s) :
    Kept r0 (stlPortReadmit n s) := by
  unfold stlPortReadmit
  repeat' first | intro _ | (with_reducible first | assumption | apply kept_requestPortReadmit | apply kept_refuseWrite | apply Kept.ite | fail_if_no_progress apply Kept.rest) | dsimp only | split

theorem kept_sendNak {r0 : State} {n : Nat} {h : BitVec 256} {s : State} (hk : Kept r0 s) :
    Kept r0 (sendNak n h s) := by
  unfold sendNak
  repeat' first | intro _ | (with_reducible first | assumption | apply kept_emit | apply Kept.ite | fail_if_no_progress apply Kept.rest) | dsimp only | split

theorem kept_codewordLost {r0 : State} {n : Nat} {h : BitVec 256} {s : State} (hk : Kept r0 s) :
    Kept r0 (codewordLost n h s) := by
  unfold codewordLost
  repeat' first | intro _ | (with_reducible first | assumption | apply kept_setPort | apply kept_raise | apply kept_retrain | apply kept_sendNak | apply Kept.ite | fail_if_no_progress apply Kept.rest) | dsimp only | split

theorem kept_slotReceive {r0 : State} {n : Nat} {sl : Slot} {codewordOk : Bool} {s : State} (hk : Kept r0 s) :
    Kept r0 (slotReceive n sl codewordOk s) := by
  unfold slotReceive
  repeat' first | intro _ | (with_reducible first | assumption | apply kept_setPort | apply kept_raise | apply kept_checkEcc | apply kept_pumpCol | apply kept_sendNak | apply kept_codewordLost | apply Kept.ite | fail_if_no_progress apply Kept.rest) | dsimp only | split

theorem kept_onBlock {r0 : State} {n ty : Nat} {blk : BitVec 128} {f : State → State} {s : State} (hk : Kept r0 s) (kf : ∀ x, Kept r0 x → Kept r0 (f x)) :
    Kept r0 (onBlock n ty blk f s) := by
  unfold onBlock
  repeat' first | intro _ | (with_reducible first | assumption | apply kf | apply kept_raise | apply Kept.ite | fail_if_no_progress apply Kept.rest) | dsimp only | split

theorem kept_nakBlock {r0 : State} {n : Nat} {blk : BitVec 128} {s : State} (hk : Kept r0 s) :
    Kept r0 (nakBlock n blk s) := by
  unfold nakBlock
  repeat' first | intro _ | (with_reducible first | assumption | apply kept_setPort | apply kept_raise | apply kept_drainTx | apply kept_retrain | apply kept_onBlock | apply Kept.ite | fail_if_no_progress apply Kept.rest) | dsimp only | split

theorem kept_abortBlock {r0 : State} {n : Nat} {blk : BitVec 128} {s : State} (hk : Kept r0 s) :
    Kept r0 (abortBlock n blk s) := by
  unfold abortBlock
  repeat' first | intro _ | (with_reducible first | assumption | apply kept_abortOp | apply kept_onBlock | apply Kept.ite | fail_if_no_progress apply Kept.rest) | dsimp only | split

theorem kept_stlCredit {r0 : State} {n : Nat} {blk : BitVec 128} {s : State} (hk : Kept r0 s) :
    Kept r0 (stlCredit n blk s) := by
  unfold stlCredit
  repeat' first | intro _ | (with_reducible first | assumption | apply kept_setPort | apply kept_drainTx | apply kept_onBlock | apply Kept.ite | fail_if_no_progress apply Kept.rest) | dsimp only | split

theorem kept_linkBlock {r0 : State} {n : Nat} {blk : BitVec 128} {s : State} (hk : Kept r0 s) :
    Kept r0 (linkBlock n blk s) := by
  unfold linkBlock
  repeat' first | intro _ | (with_reducible first | assumption | apply kept_setPort | apply kept_onBlock | apply Kept.ite | fail_if_no_progress apply Kept.rest) | dsimp only | split

theorem kept_serdesRefclkLost {r0 : State} {east : Bool} {s : State} (hk : Kept r0 s) :
    Kept r0 (serdesRefclkLost east s) := by
  unfold serdesRefclkLost
  repeat' first | intro _ | (with_reducible first | assumption | apply kept_raise | apply kept_failPort | apply Kept.ite | apply Kept.foldl | apply Kept.foldl2 | apply Kept.foldl3 | fail_if_no_progress apply Kept.rest) | dsimp only | split

end Sys2Proof.Laws
end

