-- ==== Sys2Proof/Laws/KeptPower.lean ====
section
/-! SUPPORT. What the operations of `Machine/Power.lean` keep: one lemma each. -/
namespace Sys2Proof.Laws
open Sys2Proof Sys2Proof.Machine Sys2Proof.Safety
set_option linter.unreachableTactic false
set_option linter.unusedTactic false

theorem kept_scaleShares {r0 : State} {s : State} (hk : Kept r0 s) :
    Kept r0 (scaleShares s) := by
  unfold scaleShares
  repeat' first | intro _ | (with_reducible first | assumption | apply Kept.ite | apply Kept.foldl | apply Kept.foldl2 | apply Kept.foldl3 | fail_if_no_progress apply Kept.rest) | dsimp only | split

theorem kept_setAvail {r0 : State} {s : State} (hk : Kept r0 s) :
    Kept r0 (setAvail s) := by
  unfold setAvail
  repeat' first | intro _ | (with_reducible first | assumption | apply kept_scaleShares | apply Kept.ite | fail_if_no_progress apply Kept.rest) | dsimp only | split

theorem kept_stepShare {r0 : State} {p value : Nat} {pg : Nat → Nat} {s : State} (hk : Kept r0 s) :
    Kept r0 (stepShare p value pg s) := by
  unfold stepShare
  repeat' first | intro _ | (with_reducible first | assumption | apply Kept.ite | apply Kept.foldl | apply Kept.foldl2 | apply Kept.foldl3 | fail_if_no_progress apply Kept.rest) | dsimp only | split

theorem kept_noteEmergency {r0 : State} {s : State} (hk : Kept r0 s) :
    Kept r0 (noteEmergency s) := by
  unfold noteEmergency
  repeat' first | intro _ | (with_reducible first | assumption | apply Kept.ite | fail_if_no_progress apply Kept.rest) | dsimp only | split

theorem kept_tileReport {r0 : State} {x : PowerIn} {s : State} (hk : Kept r0 s) :
    Kept r0 (tileReport x s) := by
  unfold tileReport
  repeat' first | intro _ | (with_reducible first | assumption | apply kept_setTile | apply kept_raise | apply Kept.ite | apply Kept.foldl | apply Kept.foldl2 | apply Kept.foldl3 | apply Kept.foldl4 | fail_if_no_progress apply Kept.rest) | dsimp only | split

theorem kept_sitePlimit {r0 : State} {e : Nat} {s : State} (hk : Kept r0 s) :
    Kept r0 (sitePlimit e s) := by
  unfold sitePlimit
  repeat' first | intro _ | (with_reducible first | assumption | apply kept_raise | apply Kept.ite | apply Kept.foldl | apply Kept.foldl2 | apply Kept.foldl3 | fail_if_no_progress apply Kept.rest) | dsimp only | split

theorem kept_siteReport {r0 : State} {x : PowerIn} {s : State} (hk : Kept r0 s) :
    Kept r0 (siteReport x s) := by
  unfold siteReport
  repeat' first | intro _ | (with_reducible first | assumption | apply kept_modSite | apply kept_sitePlimit | apply Kept.ite | apply Kept.foldl | apply Kept.foldl2 | apply Kept.foldl3 | fail_if_no_progress apply Kept.rest) | dsimp only | split

theorem kept_energyReport {r0 : State} {x : PowerIn} {s : State} (hk : Kept r0 s) :
    Kept r0 (energyReport x s) := by
  unfold energyReport
  repeat' first | intro _ | (with_reducible first | assumption | apply Kept.ite | apply Kept.foldl | apply Kept.foldl2 | apply Kept.foldl3 | fail_if_no_progress apply Kept.rest) | dsimp only | split

theorem kept_telemetry {r0 : State} {s : State} (hk : Kept r0 s) :
    Kept r0 (telemetry s) := by
  unfold telemetry
  repeat' first | intro _ | (with_reducible first | assumption | apply Kept.ite | apply Kept.foldl | apply Kept.foldl2 | apply Kept.foldl3 | fail_if_no_progress apply Kept.rest) | dsimp only | split

theorem kept_stepLimits {r0 : State} {x : PowerIn} {used : Nat} {s : State} (hk : Kept r0 s) :
    Kept r0 (stepLimits x used s) := by
  unfold stepLimits
  repeat' first | intro _ | (with_reducible first | assumption | apply Kept.ite | apply Kept.foldl | apply Kept.foldl2 | apply Kept.foldl3 | fail_if_no_progress apply Kept.rest) | dsimp only | split

theorem kept_powerControlTick {r0 : State} {x : PowerIn} {s : State} (hk : Kept r0 s) :
    Kept r0 (powerControlTick x s) := by
  unfold powerControlTick
  repeat' first | intro _ | (with_reducible first | assumption | apply kept_runDeferred | apply kept_stepShare | apply kept_noteEmergency | apply kept_tileReport | apply kept_siteReport | apply kept_energyReport | apply kept_telemetry | apply kept_stepLimits | apply Kept.ite | apply Kept.foldl | apply Kept.foldl2 | apply Kept.foldl3 | fail_if_no_progress apply Kept.rest) | dsimp only | split

theorem kept_powerSample {r0 : State} {est meas vin : Nat} {s : State} (hk : Kept r0 s) :
    Kept r0 (powerSample est meas vin s) := by
  unfold powerSample
  repeat' first | intro _ | (with_reducible first | assumption | apply kept_raise | apply Kept.ite | fail_if_no_progress apply Kept.rest) | dsimp only | split

theorem kept_calibrationUpdate {r0 : State} {s : State} (hk : Kept r0 s) :
    Kept r0 (calibrationUpdate s) := by
  unfold calibrationUpdate
  repeat' first | intro _ | (with_reducible first | assumption | apply kept_setAvail | apply Kept.ite | apply Kept.foldl | apply Kept.foldl2 | apply Kept.foldl3 | fail_if_no_progress apply Kept.rest) | dsimp only | split

theorem kept_tileFail {r0 : State} {t : Nat} {s : State} (hk : Kept r0 s) :
    Kept r0 (tileFail t s) := by
  unfold tileFail
  repeat' first | intro _ | (with_reducible first | assumption | apply kept_setTile | apply kept_raise | apply Kept.ite | fail_if_no_progress apply Kept.rest) | dsimp only | split

theorem kept_unpower {r0 : State} {s : State} (hk : Kept r0 s) :
    Kept r0 (unpower s) := by
  unfold unpower
  repeat' first | intro _ | (with_reducible first | assumption | apply kept_hubBase | apply Kept.ite | apply Kept.foldl | apply Kept.foldl2 | apply Kept.foldl3 | fail_if_no_progress apply Kept.rest) | dsimp only | split

theorem kept_repower {r0 : State} {s : State} (hk : Kept r0 s) :
    Kept r0 (repower s) := by
  unfold repower
  repeat' first | intro _ | (with_reducible first | assumption | apply kept_emit | apply kept_hubBase | apply Kept.ite | fail_if_no_progress apply Kept.rest) | dsimp only | split

theorem kept_fclkAdjust {r0 : State} {mean : Nat} {below : Bool} {s : State} (hk : Kept r0 s) :
    Kept r0 (fclkAdjust mean below s) := by
  unfold fclkAdjust
  repeat' first | intro _ | (with_reducible first | assumption | apply kept_holdFclk | apply Kept.ite | fail_if_no_progress apply Kept.rest) | dsimp only | split

theorem kept_setRack {r0 : State} {w : Nat} {s : State} (hk : Kept r0 s) :
    Kept r0 (setRack w s) := by
  unfold setRack
  repeat' first | intro _ | (with_reducible first | assumption | apply kept_setAvail | apply Kept.ite | fail_if_no_progress apply Kept.rest) | dsimp only | split

theorem kept_powerOverride {r0 : State} {x : PowerSet} {s : State} (hk : Kept r0 s) :
    Kept r0 (powerOverride x s) := by
  unfold powerOverride
  repeat' first | intro _ | (with_reducible first | assumption | apply kept_holdFclk | apply Kept.ite | fail_if_no_progress apply Kept.rest) | dsimp only | split

theorem kept_noteTrip {r0 : State} {r sensor : Nat} {s : State} (hk : Kept r0 s) :
    Kept r0 (noteTrip r sensor s) := by
  unfold noteTrip
  repeat' first | intro _ | (with_reducible first | assumption | apply Kept.ite | fail_if_no_progress apply Kept.rest) | dsimp only | split

theorem kept_regionSample {r0 : State} {r sensor : Nat} {hot : Int} {trip : State → State} {s : State} (hk : Kept r0 s) (ktrip : ∀ x, Kept r0 x → Kept r0 (trip x)) :
    Kept r0 (regionSample r sensor hot trip s) := by
  unfold regionSample
  repeat' first | intro _ | (with_reducible first | assumption | apply ktrip | apply kept_setRegion | apply kept_raise | apply kept_fclkToMin | apply kept_tryReady | apply kept_noteEmergency | apply kept_noteTrip | apply Kept.ite | apply Kept.foldl | apply Kept.foldl2 | apply Kept.foldl3 | fail_if_no_progress apply Kept.rest) | dsimp only | split

theorem kept_tripHub {r0 : State} {s : State} (hk : Kept r0 s) :
    Kept r0 (tripHub s) := by
  unfold tripHub
  repeat' first | intro _ | (with_reducible first | assumption | apply kept_raise | apply kept_tripPackage | apply Kept.ite | fail_if_no_progress apply Kept.rest) | dsimp only | split

theorem kept_tripSite {r0 : State} {n : Nat} {s : State} (hk : Kept r0 s) :
    Kept r0 (tripSite n s) := by
  unfold tripSite
  repeat' first | intro _ | (with_reducible first | assumption | apply kept_markFlag | apply kept_dropSite | apply kept_offSite | apply kept_fenceSite | apply kept_raise | apply Kept.ite | fail_if_no_progress apply Kept.rest) | dsimp only | split

theorem kept_thermalSample {r0 : State} {n : Nat} {q : Int} {s : State} (hk : Kept r0 s) :
    Kept r0 (thermalSample n q s) := by
  unfold thermalSample
  repeat' first | intro _ | (with_reducible first | assumption | apply kept_raise | apply kept_unpower | apply kept_regionSample | apply kept_tripHub | apply kept_tripSite | apply Kept.ite | apply Kept.foldl | apply Kept.foldl2 | apply Kept.foldl3 | fail_if_no_progress apply Kept.rest) | dsimp only | split

theorem kept_tripStack {r0 : State} {m : Nat} {s : State} (hk : Kept r0 s) :
    Kept r0 (tripStack m s) := by
  unfold tripStack
  repeat' first | intro _ | (with_reducible first | assumption | apply kept_markFence | apply kept_fenceStack | apply kept_raise | apply Kept.ite | fail_if_no_progress apply Kept.rest) | dsimp only | split

theorem kept_hbmTempSample {r0 : State} {m : Nat} {q : Int} {s : State} (hk : Kept r0 s) :
    Kept r0 (hbmTempSample m q s) := by
  unfold hbmTempSample
  repeat' first | intro _ | (with_reducible first | assumption | apply kept_setStack | apply kept_traceAt | apply kept_raise | apply kept_regionSample | apply kept_tripStack | apply Kept.ite | fail_if_no_progress apply Kept.rest) | dsimp only | split

end Sys2Proof.Laws
end

