-- ==== Sys2Proof/Laws/KeptMgt.lean ====
section
/-! SUPPORT. What the operations of `Machine/Mgt.lean` keep: one lemma each. -/
namespace Sys2Proof.Laws
open Sys2Proof Sys2Proof.Machine Sys2Proof.Safety
set_option linter.unreachableTactic false
set_option linter.unusedTactic false

theorem kept_beginSlot {r0 : State} {t : Nat} {i : FwImage} {trial mail : Bool} {s : State} (hk : Kept r0 s) :
    Kept r0 (beginSlot t i trial mail s) := by
  unfold beginSlot
  repeat' first | intro _ | (with_reducible first | assumption | apply Kept.ite | fail_if_no_progress apply Kept.rest) | dsimp only | split

theorem kept_stagePeel {r0 : State} {i : FwImage} {s : State} (hk : Kept r0 s) :
    Kept r0 (stagePeel i s) := by
  unfold stagePeel
  repeat' first | intro _ | (with_reducible first | assumption | apply Kept.ite | fail_if_no_progress apply Kept.rest) | dsimp only | split

theorem kept_fwUpdate {r0 : State} {bytes : List Byte} {s : State} (hk : Kept r0 s) :
    Kept r0 (fwUpdate bytes s) := by
  unfold fwUpdate
  repeat' first | intro _ | (with_reducible first | assumption | apply kept_raise | apply kept_mbEnd | apply kept_fetchArg | apply kept_beginSlot | apply kept_stagePeel | apply Kept.ite | apply Kept.opt (by assumption) | apply KeptO.none | apply KeptO.some | apply KeptO.ite | fail_if_no_progress apply Kept.rest) | dsimp only | split

theorem kept_flashWriteDone {r0 : State} {ok : Bool} {s : State} (hk : Kept r0 s) :
    Kept r0 (flashWriteDone ok s) := by
  unfold flashWriteDone
  repeat' first | intro _ | (with_reducible first | assumption | apply kept_raise | apply kept_mbEnd | apply kept_endLoad | apply kept_scrapEnds | apply Kept.ite | fail_if_no_progress apply Kept.rest) | dsimp only | split

theorem kept_peelCancel {r0 : State} {s : State} (hk : Kept r0 s) :
    Kept r0 (peelCancel s) := by
  unfold peelCancel
  repeat' first | intro _ | (with_reducible first | assumption | apply kept_dropPeel | apply kept_mbEnd | apply Kept.ite | fail_if_no_progress apply Kept.rest) | dsimp only | split

theorem kept_advanceRollback {r0 : State} {s : State} (hk : Kept r0 s) :
    Kept r0 (advanceRollback s) := by
  unfold advanceRollback
  repeat' first | intro _ | (with_reducible first | assumption | apply kept_mbEnd | apply kept_tryRollback | apply Kept.ite | fail_if_no_progress apply Kept.rest) | dsimp only | split

theorem kept_retryStart {r0 : State} {s : State} (hk : Kept r0 s) :
    Kept r0 (retryStart s) := by
  unfold retryStart
  repeat' first | intro _ | (with_reducible first | assumption | apply kept_mbEnd | apply kept_enterReset | apply kept_setStart | apply Kept.ite | fail_if_no_progress apply Kept.rest) | dsimp only | split

theorem kept_recoveryBegin {r0 : State} {s : State} (hk : Kept r0 s) :
    Kept r0 (recoveryBegin s) := by
  unfold recoveryBegin
  repeat' first | intro _ | (with_reducible first | assumption | apply kept_mbEnd | apply Kept.ite | fail_if_no_progress apply Kept.rest) | dsimp only | split

theorem kept_recoveryRun {r0 : State} {s : State} (hk : Kept r0 s) :
    Kept r0 (recoveryRun s) := by
  unfold recoveryRun
  repeat' first | intro _ | (with_reducible first | assumption | apply kept_mbEnd | apply kept_setStart | apply Kept.ite | fail_if_no_progress apply Kept.rest) | dsimp only | split

theorem kept_rcvDataWrite {r0 : State} {val : Word} {s : State} (hk : Kept r0 s) :
    Kept r0 (rcvDataWrite val s) := by
  unfold rcvDataWrite
  repeat' first | intro _ | (with_reducible first | assumption | apply Kept.ite | fail_if_no_progress apply Kept.rest) | dsimp only | split

theorem kept_pldmTransfer {r0 : State} {recovery : Bool} {bytes : List Byte} {s : State} (hk : Kept r0 s) :
    Kept r0 (pldmTransfer recovery bytes s).2 := by
  unfold pldmTransfer
  repeat' first | intro _ | (with_reducible first | assumption | apply kept_raise | apply kept_beginSlot | apply Kept.ite | fail_if_no_progress apply Kept.rest) | dsimp only | split

theorem kept_pldmActivate {r0 : State} {self : Bool} {s : State} (hk : Kept r0 s) :
    Kept r0 (pldmActivate self s).2 := by
  unfold pldmActivate
  repeat' first | intro _ | (with_reducible first | assumption | apply kept_raise | apply kept_beginSlot | apply kept_stagePeel | apply Kept.ite | fail_if_no_progress apply Kept.rest) | dsimp only | split

theorem kept_answerPldm {r0 : State} {kind : Nat} {what : List Byte} {s : State} (hk : Kept r0 s) :
    Kept r0 (answerPldm kind what s) := by
  unfold answerPldm
  repeat' first | intro _ | (with_reducible first | assumption | apply kept_emit | apply Kept.ite | fail_if_no_progress apply Kept.rest) | dsimp only | split

theorem kept_pldmServe {r0 : State} {r : PldmReq} {s : State} (hk : Kept r0 s) :
    Kept r0 (pldmServe r s) := by
  unfold pldmServe
  repeat' first | intro _ | (with_reducible first | assumption | apply kept_setRack | apply kept_pldmTransfer | apply kept_pldmActivate | apply kept_answerPldm | apply Kept.ite | apply Kept.snd (by assumption) | fail_if_no_progress apply Kept.rest) | dsimp only | split

theorem kept_pldmFlush {r0 : State} {s : State} (hk : Kept r0 s) :
    Kept r0 (pldmFlush s) := by
  unfold pldmFlush
  repeat' first | intro _ | (with_reducible first | assumption | apply kept_pldmServe | apply Kept.ite | apply Kept.foldl | apply Kept.foldl2 | apply Kept.foldl3 | fail_if_no_progress apply Kept.rest) | dsimp only | split

theorem kept_servePldm {r0 : State} {s : State} (hk : Kept r0 s) :
    Kept r0 (servePldm s) := by
  unfold servePldm
  repeat' first | intro _ | (with_reducible first | assumption | apply kept_pldmFlush | apply Kept.ite | fail_if_no_progress apply Kept.rest) | dsimp only | split

theorem kept_pldmRequest {r0 : State} {r : PldmReq} {s : State} (hk : Kept r0 s) :
    Kept r0 (pldmRequest r s) := by
  unfold pldmRequest
  repeat' first | intro _ | (with_reducible first | assumption | apply kept_pldmServe | apply kept_servePldm | apply Kept.ite | fail_if_no_progress apply Kept.rest) | dsimp only | split

theorem kept_pauseSites {r0 : State} {on : Bool} {s : State} (hk : Kept r0 s) :
    Kept r0 (pauseSites on s) := by
  unfold pauseSites
  repeat' first | intro _ | (with_reducible first | assumption | apply Kept.ite | apply Kept.sites_map | fail_if_no_progress apply Kept.rest) | dsimp only | split

theorem kept_resumeWork {r0 : State} {s : State} (hk : Kept r0 s) :
    Kept r0 (resumeWork s) := by
  unfold resumeWork
  repeat' first | intro _ | (with_reducible first | assumption | apply kept_runDeferred | apply kept_pldmFlush | apply kept_pauseSites | apply Kept.ite | fail_if_no_progress apply Kept.rest) | dsimp only | split

theorem kept_backToWait {r0 : State} {s : State} (hk : Kept r0 s) :
    Kept r0 (backToWait s) := by
  unfold backToWait
  repeat' first | intro _ | (with_reducible first | assumption | apply kept_writeLog | apply kept_fclkToMin | apply kept_resumeWork | apply Kept.ite | fail_if_no_progress apply Kept.rest) | dsimp only | split

theorem kept_writeRecord {r0 : State} {s : State} (hk : Kept r0 s) :
    Kept r0 (writeRecord s) := by
  unfold writeRecord
  repeat' first | intro _ | (with_reducible first | assumption | apply Kept.ite | apply Kept.free_ (c := Nat.le_succ _) | fail_if_no_progress apply Kept.rest) | dsimp only | split

theorem kept_peelDeferCheck {r0 : State} {s : State} (hk : Kept r0 s) :
    Kept r0 (peelDeferCheck s) := by
  unfold peelDeferCheck
  repeat' first | intro _ | (with_reducible first | assumption | apply Kept.ite | fail_if_no_progress apply Kept.rest) | dsimp only | split

theorem kept_peelFreeze {r0 : State} {s : State} (hk : Kept r0 s) :
    Kept r0 (peelFreeze s) := by
  unfold peelFreeze
  repeat' first | intro _ | (with_reducible first | assumption | apply kept_pauseSites | apply kept_backToWait | apply kept_writeRecord | apply Kept.ite | fail_if_no_progress apply Kept.rest) | dsimp only | split

theorem kept_peelJump {r0 : State} {s : State} (hk : Kept r0 s) :
    Kept r0 (peelJump s) := by
  unfold peelJump
  repeat' first | intro _ | (with_reducible first | assumption | apply kept_measureFw | apply kept_backToWait | apply Kept.ite | fail_if_no_progress apply Kept.rest) | dsimp only | split

theorem kept_peelResume {r0 : State} {s : State} (hk : Kept r0 s) :
    Kept r0 (peelResume s) := by
  unfold peelResume
  repeat' first | intro _ | (with_reducible first | assumption | apply kept_writeLog | apply kept_raise | apply kept_fclkToMin | apply kept_rewritePolicy | apply kept_resumeWork | apply Kept.ite | fail_if_no_progress apply Kept.rest) | dsimp only | split

theorem kept_peelResumeTimeout {r0 : State} {rejected : Bool} {s : State} (hk : Kept r0 s) :
    Kept r0 (peelResumeTimeout rejected s) := by
  unfold peelResumeTimeout
  repeat' first | intro _ | (with_reducible first | assumption | apply kept_raise | apply kept_fclkToMin | apply kept_rewritePolicy | apply kept_measureFw | apply kept_resumeWork | apply Kept.ite | fail_if_no_progress apply Kept.rest) | dsimp only | split

theorem kept_peelCommit {r0 : State} {ok : Bool} {s : State} (hk : Kept r0 s) :
    Kept r0 (peelCommit ok s) := by
  unfold peelCommit
  repeat' first | intro _ | (with_reducible first | assumption | apply kept_raise | apply Kept.ite | fail_if_no_progress apply Kept.rest) | dsimp only | split

theorem kept_cutCommand {r0 : State} {s : State} (hk : Kept r0 s) :
    Kept r0 (cutCommand s) := by
  unfold cutCommand
  repeat' first | intro _ | (with_reducible first | assumption | apply kept_mbEnd | apply kept_endLoad | apply Kept.ite | fail_if_no_progress apply Kept.rest) | dsimp only | split

theorem kept_mgtWatchdog {r0 : State} {s : State} (hk : Kept r0 s) :
    Kept r0 (mgtWatchdog s) := by
  unfold mgtWatchdog
  repeat' first | intro _ | (with_reducible first | assumption | apply kept_dropPeel | apply kept_raise | apply kept_cutCommand | apply Kept.ite | fail_if_no_progress apply Kept.rest) | dsimp only | split

end Sys2Proof.Laws
end

