-- ==== Sys2Proof/Laws/KeptSec.lean ====
section
/-! SUPPORT. What the operations of `Machine/Sec.lean` keep: one lemma each. -/
namespace Sys2Proof.Laws
open Sys2Proof Sys2Proof.Machine Sys2Proof.Safety
set_option linter.unreachableTactic false
set_option linter.unusedTactic false

theorem kept_openEnds {r0 : State} {v : Nat} {st : Status} {s : State} (hk : Kept r0 s) :
    Kept r0 (openEnds v st s) := by
  unfold openEnds
  repeat' first | intro _ | (with_reducible first | assumption | apply kept_modVi | apply kept_setSeal | apply kept_refresh | apply Kept.ite | fail_if_no_progress apply Kept.rest) | dsimp only | split

theorem kept_sealOpenStart {r0 : State} {v : Nat} {s : State} (hk : Kept r0 s) :
    Kept r0 (sealOpenStart v s) := by
  unfold sealOpenStart
  repeat' first | intro _ | (with_reducible first | assumption | apply kept_modVi | apply kept_setSeal | apply kept_refresh | apply kept_openEnds | apply Kept.ite | fail_if_no_progress apply Kept.rest) | dsimp only | split

theorem kept_wipeSlot {r0 : State} {v : Nat} {s : State} (hk : Kept r0 s) :
    Kept r0 (wipeSlot v s) := by
  unfold wipeSlot
  repeat' first | intro _ | (with_reducible first | assumption | apply kept_setSeal | apply kept_abortSlot | apply Kept.ite | fail_if_no_progress apply Kept.rest) | dsimp only | split

theorem kept_sealOpenComplete {r0 : State} {v : Nat} {s : State} (hk : Kept r0 s) :
    Kept r0 (sealOpenComplete v s) := by
  unfold sealOpenComplete
  repeat' first | intro _ | (with_reducible first | assumption | apply kept_modVi | apply kept_setSeal | apply kept_refresh | apply kept_openEnds | apply kept_wipeSlot | apply Kept.ite | apply Kept.free_ (c := Nat.le_succ _) | fail_if_no_progress apply Kept.rest) | dsimp only | split

theorem kept_spdmSend {r0 : State} {tr code : Nat} {req content : List Byte} {s : State} (hk : Kept r0 s) :
    Kept r0 (spdmSend tr code req content s) := by
  unfold spdmSend
  repeat' first | intro _ | (with_reducible first | assumption | apply kept_emit | apply Kept.ite | fail_if_no_progress apply Kept.rest) | dsimp only | split

theorem kept_spdmSigned {r0 : State} {tr code : Nat} {req content : List Byte} {s : State} (hk : Kept r0 s) :
    Kept r0 (spdmSigned tr code req content s) := by
  unfold spdmSigned
  repeat' first | intro _ | (with_reducible first | assumption | apply kept_emit | apply Kept.ite | fail_if_no_progress apply Kept.rest) | dsimp only | split

theorem kept_spdmError {r0 : State} {tr : Nat} {req : List Byte} {s : State} (hk : Kept r0 s) :
    Kept r0 (spdmError tr req s) := by
  unfold spdmError
  repeat' first | intro _ | (with_reducible first | assumption | apply kept_spdmSend | apply Kept.ite | fail_if_no_progress apply Kept.rest) | dsimp only | split

theorem kept_setSpdm {r0 : State} {tr : Nat} {x : Spdm} {s : State} (hk : Kept r0 s) :
    Kept r0 (State.setSpdm s tr x) := by
  unfold State.setSpdm
  repeat' first | intro _ | (with_reducible first | assumption | apply Kept.ite | fail_if_no_progress apply Kept.rest) | dsimp only | split

theorem kept_spdmGetVersion {r0 : State} {tr : Nat} {req : List Byte} {s : State} (hk : Kept r0 s) :
    Kept r0 (spdmGetVersion tr req s) := by
  unfold spdmGetVersion
  repeat' first | intro _ | (with_reducible first | assumption | apply kept_spdmSend | apply kept_setSpdm | apply Kept.ite | fail_if_no_progress apply Kept.rest) | dsimp only | split

theorem kept_spdmGetCapabilities {r0 : State} {tr : Nat} {req : List Byte} {s : State} (hk : Kept r0 s) :
    Kept r0 (spdmGetCapabilities tr req s) := by
  unfold spdmGetCapabilities
  repeat' first | intro _ | (with_reducible first | assumption | apply kept_spdmSend | apply kept_spdmError | apply kept_setSpdm | apply Kept.ite | fail_if_no_progress apply Kept.rest) | dsimp only | split

theorem kept_spdmNegotiate {r0 : State} {tr : Nat} {req : List Byte} {s : State} (hk : Kept r0 s) :
    Kept r0 (spdmNegotiate tr req s) := by
  unfold spdmNegotiate
  repeat' first | intro _ | (with_reducible first | assumption | apply kept_spdmSend | apply kept_spdmError | apply kept_setSpdm | apply Kept.ite | fail_if_no_progress apply Kept.rest) | dsimp only | split

theorem kept_spdmAfter {r0 : State} {tr : Nat} {req : List Byte} {f : State → State} {s : State} (hk : Kept r0 s) (kf : ∀ x, Kept r0 x → Kept r0 (f x)) :
    Kept r0 (spdmAfter tr req f s) := by
  unfold spdmAfter
  repeat' first | intro _ | (with_reducible first | assumption | apply kf | apply kept_spdmError | apply Kept.ite | fail_if_no_progress apply Kept.rest) | dsimp only | split

theorem kept_spdmCertificate {r0 : State} {tr : Nat} {req : List Byte} {s : State} (hk : Kept r0 s) :
    Kept r0 (spdmCertificate tr req s) := by
  unfold spdmCertificate
  repeat' first | intro _ | (with_reducible first | assumption | apply kept_spdmSend | apply kept_spdmError | apply Kept.ite | fail_if_no_progress apply Kept.rest) | dsimp only | split

theorem kept_spdmChallenge {r0 : State} {tr : Nat} {req : List Byte} {s : State} (hk : Kept r0 s) :
    Kept r0 (spdmChallenge tr req s) := by
  unfold spdmChallenge
  repeat' first | intro _ | (with_reducible first | assumption | apply kept_spdmSigned | apply kept_spdmError | apply Kept.ite | fail_if_no_progress apply Kept.rest) | dsimp only | split

theorem kept_spdmMeasurements {r0 : State} {tr : Nat} {req : List Byte} {s : State} (hk : Kept r0 s) :
    Kept r0 (spdmMeasurements tr req s) := by
  unfold spdmMeasurements
  repeat' first | intro _ | (with_reducible first | assumption | apply kept_spdmSend | apply kept_spdmSigned | apply kept_spdmError | apply Kept.ite | fail_if_no_progress apply Kept.rest) | dsimp only | split

end Sys2Proof.Laws
end

