-- ==== Sys2Proof/Laws/KeptMbx.lean ====
section
/-! SUPPORT. What the operations of `Machine/Mbx.lean` keep: one lemma each. -/
namespace Sys2Proof.Laws
open Sys2Proof Sys2Proof.Machine Sys2Proof.Safety
set_option linter.unreachableTactic false
set_option linter.unusedTactic false

theorem kept_mbxRefuse {r0 : State} {id : MbxId} {s : State} (hk : Kept r0 s) :
    Kept r0 (mbxRefuse id s) := by
  unfold mbxRefuse
  repeat' first | intro _ | (with_reducible first | assumption | apply kept_refuseWrite | apply kept_viFault | apply Kept.ite | fail_if_no_progress apply Kept.rest) | dsimp only | split

theorem kept_setMbx {r0 : State} {who : Owner2} {id : MbxId} {x : Mbx} {s : State} (hk : Kept r0 s) :
    Kept r0 (setMbx who id x s) := by
  unfold setMbx
  repeat' first | intro _ | (with_reducible first | assumption | apply Kept.ite | fail_if_no_progress apply Kept.rest) | dsimp only | split

theorem kept_mbxSelectWrite {r0 : State} {who : Owner2} {id : MbxId} {sel : Word} {s : State} (hk : Kept r0 s) :
    Kept r0 (mbxSelectWrite who id sel s) := by
  unfold mbxSelectWrite
  repeat' first | intro _ | (with_reducible first | assumption | apply kept_mbxRefuse | apply kept_setMbx | apply Kept.ite | fail_if_no_progress apply Kept.rest) | dsimp only | split

theorem kept_mbxCaptureDone {r0 : State} {who : Owner2} {id : MbxId} {s : State} (hk : Kept r0 s) :
    Kept r0 (mbxCaptureDone who id s) := by
  unfold mbxCaptureDone
  repeat' first | intro _ | (with_reducible first | assumption | apply kept_raise | apply kept_checkEcc | apply kept_setMbx | apply Kept.ite | apply Kept.free_ (c := Nat.le_succ _) | fail_if_no_progress apply Kept.rest) | dsimp only | split

end Sys2Proof.Laws
end

