-- ==== Sys2Proof/Laws/KeptRegWrite.lean ====
section
/-! SUPPORT. What the operations of `Machine/RegWrite.lean` keep: one lemma each. -/
namespace Sys2Proof.Laws
open Sys2Proof Sys2Proof.Machine Sys2Proof.Safety
set_option linter.unreachableTactic false
set_option linter.unusedTactic false

theorem kept_ctrlWrite {r0 : State} {g u : Nat} {refused : Bool} {cmds : List (Bool × (State → State))} {s : State} (hk : Kept r0 s)
    (kc : KeptL r0 cmds) : Kept r0 (ctrlWrite g u refused cmds s) :=
  Kept.ite (kept_refuseWrite hk) (KeptL.run kc hk)

theorem kept_writeTimeCtrl {r0 : State} {v : Word} {s : State} (hk : Kept r0 s) :
    Kept r0 (writeTimeCtrl v s) := by
  unfold writeTimeCtrl
  repeat' first | intro _ | (with_reducible first | assumption | apply Kept.ite | fail_if_no_progress apply Kept.rest) | dsimp only | split

theorem kept_writeTree {r0 : State} {p : Nat} {v : Word} {s : State} (hk : Kept r0 s) :
    Kept r0 (writeTree p v s) := by
  unfold writeTree
  repeat' first | intro _ | (with_reducible first | assumption | apply kept_setPart | apply kept_refuseWrite | apply Kept.ite | fail_if_no_progress apply Kept.rest) | dsimp only | split

theorem kept_writePart {r0 : State} {p o : Nat} {v : Word} {s : State} (hk : Kept r0 s) :
    Kept r0 (writePart p o v s) := by
  unfold writePart
  repeat' first | intro _ | (with_reducible first | assumption | apply kept_setPart | apply kept_modPart | apply kept_refuseWrite | apply kept_partHold | apply kept_partRelease | apply kept_starterArm | apply kept_stepCounterArm | apply kept_ctrlWrite | apply kept_writeTree | apply Kept.ite | apply KeptL.nil | apply KeptL.cons | fail_if_no_progress apply Kept.rest) | dsimp only | split

theorem kept_writePrf {r0 : State} {o : Nat} {v : Word} {s : State} (hk : Kept r0 s) :
    Kept r0 (writePrf o v s) := by
  unfold writePrf
  repeat' first | intro _ | (with_reducible first | assumption | apply kept_writeTimeCtrl | apply kept_writePart | apply Kept.ite | fail_if_no_progress apply Kept.rest) | dsimp only | split

theorem kept_writeFab {r0 : State} {q o : Nat} {v : Word} {s : State} (hk : Kept r0 s) :
    Kept r0 (writeFab q o v s) := by
  unfold writeFab
  repeat' first | intro _ | (with_reducible first | assumption | apply kept_requestColFence | apply kept_requestColRemap | apply kept_ctrlWrite | apply Kept.ite | apply KeptL.nil | apply KeptL.cons | fail_if_no_progress apply Kept.rest) | dsimp only | split

theorem kept_writeXfe {r0 : State} {e o : Nat} {v : Word} {s : State} (hk : Kept r0 s) :
    Kept r0 (writeXfe e o v s) := by
  unfold writeXfe
  repeat' first | intro _ | (with_reducible first | assumption | apply kept_requestXfeFence | apply kept_requestXfeReadmit | apply kept_xfeAbort | apply kept_ctrlWrite | apply Kept.ite | apply KeptL.nil | apply KeptL.cons | fail_if_no_progress apply Kept.rest) | dsimp only | split

theorem kept_writeXlt {r0 : State} {who : Owner2} {o : Nat} {v : Word} {s : State} (hk : Kept r0 s) :
    Kept r0 (writeXlt who o v s) := by
  unfold writeXlt
  repeat' first | intro _ | (with_reducible first | assumption | apply kept_setReg | apply kept_hwtCommit | apply Kept.ite | fail_if_no_progress apply Kept.rest) | dsimp only | split

theorem kept_writeSrm {r0 : State} {o : Nat} {v : Word} {s : State} (hk : Kept r0 s) :
    Kept r0 (writeSrm o v s) := by
  unfold writeSrm
  repeat' first | intro _ | (with_reducible first | assumption | apply kept_requestBankFence | apply kept_requestBankReadmit | apply kept_cohWinWrite | apply kept_ctrlWrite | apply Kept.ite | apply KeptL.nil | apply KeptL.cons | fail_if_no_progress apply Kept.rest) | dsimp only | split

theorem kept_writeMem {r0 : State} {m o : Nat} {v : Word} {s : State} (hk : Kept r0 s) :
    Kept r0 (writeMem m o v s) := by
  unfold writeMem
  repeat' first | intro _ | (with_reducible first | assumption | apply kept_setReg | apply kept_requestChanFence | apply kept_memChReadmit | apply kept_ctrlWrite | apply Kept.ite | apply KeptL.nil | apply KeptL.cons | fail_if_no_progress apply Kept.rest) | dsimp only | split

theorem kept_putQos {r0 : State} {n : Nat} {f : Nat × Nat × Nat × Nat × Nat × Nat → Nat × Nat × Nat × Nat × Nat × Nat} {s : State} (hk : Kept r0 s) :
    Kept r0 (putQos n f s) := by
  unfold putQos
  repeat' first | intro _ | (with_reducible first | assumption | apply kept_putQosValues | apply Kept.ite | fail_if_no_progress apply Kept.rest) | dsimp only | split

theorem kept_writeQosPort {r0 : State} {n o : Nat} {v : Word} {s : State} (hk : Kept r0 s) :
    Kept r0 (writeQosPort n o v s) := by
  unfold writeQosPort
  repeat' first | intro _ | (with_reducible first | assumption | apply kept_refuseWrite | apply kept_putQos | apply Kept.ite | fail_if_no_progress apply Kept.rest) | dsimp only | split

theorem kept_writeQos {r0 : State} {o : Nat} {v : Word} {s : State} (hk : Kept r0 s) :
    Kept r0 (writeQos o v s) := by
  unfold writeQos
  repeat' first | intro _ | (with_reducible first | assumption | apply kept_putMiss | apply kept_writeQosPort | apply Kept.ite | fail_if_no_progress apply Kept.rest) | dsimp only | split

theorem kept_writeSit {r0 : State} {n o : Nat} {v : Word} {s : State} (hk : Kept r0 s) :
    Kept r0 (writeSit n o v s) := by
  unfold writeSit
  repeat' first | intro _ | (with_reducible first | assumption | apply kept_setReg | apply kept_sitFence | apply kept_sitReadmit | apply kept_sitRetrain | apply kept_sitVsetWrite | apply kept_ctrlWrite | apply Kept.ite | apply KeptL.nil | apply KeptL.cons | fail_if_no_progress apply Kept.rest) | dsimp only | split

theorem kept_writeStl {r0 : State} {o : Nat} {v : Word} {s : State} (hk : Kept r0 s) :
    Kept r0 (writeStl o v s) := by
  unfold writeStl
  repeat' first | intro _ | (with_reducible first | assumption | apply kept_setReg | apply kept_retrain | apply kept_stlPortFence | apply kept_stlPortReadmit | apply kept_ctrlWrite | apply Kept.ite | apply KeptL.nil | apply KeptL.cons | fail_if_no_progress apply Kept.rest) | dsimp only | split

theorem kept_writeCol {r0 : State} {o : Nat} {v : Word} {s : State} (hk : Kept r0 s) :
    Kept r0 (writeCol o v s) := by
  unfold writeCol
  repeat' first | intro _ | (with_reducible first | assumption | apply kept_requestCunitFence | apply kept_abortOp | apply kept_colReadmit | apply kept_ctrlWrite | apply Kept.ite | apply KeptL.nil | apply KeptL.cons | fail_if_no_progress apply Kept.rest) | dsimp only | split

theorem kept_writeHst {r0 : State} {o : Nat} {v : Word} {s : State} (hk : Kept r0 s) :
    Kept r0 (writeHst o v s) := by
  unfold writeHst
  repeat' first | intro _ | (with_reducible first | assumption | apply kept_setReg | apply kept_stopDma | apply kept_hstAttach | apply Kept.ite | fail_if_no_progress apply Kept.rest) | dsimp only | split

theorem kept_writeVif {r0 : State} {o : Nat} {v : Word} {s : State} (hk : Kept r0 s) :
    Kept r0 (writeVif o v s) := by
  unfold writeVif
  repeat' first | intro _ | (with_reducible first | assumption | apply kept_setReg | apply kept_refuseWrite | apply kept_requestQuiesce | apply kept_vifDetach | apply kept_ctrlWrite | apply Kept.ite | apply KeptL.nil | apply KeptL.cons | fail_if_no_progress apply Kept.rest) | dsimp only | split

theorem kept_writeSec {r0 : State} {o : Nat} {v : Word} {s : State} (hk : Kept r0 s) :
    Kept r0 (writeSec o v s) := by
  unfold writeSec
  repeat' first | intro _ | (with_reducible first | assumption | apply kept_endSession | apply kept_refuseWrite | apply Kept.ite | fail_if_no_progress apply Kept.rest) | dsimp only | split

theorem kept_writeDbg {r0 : State} {o : Nat} {v : Word} {s : State} (hk : Kept r0 s) :
    Kept r0 (writeDbg o v s) := by
  unfold writeDbg
  repeat' first | intro _ | (with_reducible first | assumption | apply kept_closeDebug | apply Kept.ite | fail_if_no_progress apply Kept.rest) | dsimp only | split

theorem kept_writeShare {r0 : State} {p : Nat} {v : Word} {s : State} (hk : Kept r0 s) :
    Kept r0 (writeShare p v s) := by
  unfold writeShare
  repeat' first | intro _ | (with_reducible first | assumption | apply Kept.ite | apply Kept.foldl | apply Kept.foldl2 | apply Kept.foldl3 | fail_if_no_progress apply Kept.rest) | dsimp only | split

theorem kept_writePwr {r0 : State} {o : Nat} {v : Word} {s : State} (hk : Kept r0 s) :
    Kept r0 (writePwr o v s) := by
  unfold writePwr
  repeat' first | intro _ | (with_reducible first | assumption | apply kept_refuseWrite | apply kept_holdFclk | apply kept_writeShare | apply Kept.ite | fail_if_no_progress apply Kept.rest) | dsimp only | split

theorem kept_writeThm {r0 : State} {o : Nat} {v : Word} {s : State} (hk : Kept r0 s) :
    Kept r0 (writeThm o v s) := by
  unfold writeThm
  repeat' first | intro _ | (with_reducible first | assumption | apply Kept.ite | fail_if_no_progress apply Kept.rest) | dsimp only | split

theorem kept_writeFlt {r0 : State} {o : Nat} {v : Word} {s : State} (hk : Kept r0 s) :
    Kept r0 (writeFlt o v s) := by
  unfold writeFlt
  repeat' first | intro _ | (with_reducible first | assumption | apply kept_setThreshold | apply Kept.ite | fail_if_no_progress apply Kept.rest) | dsimp only | split

theorem kept_writeGroup {r0 : State} {g o : Nat} {v : Word} {s : State} (hk : Kept r0 s) :
    Kept r0 (writeGroup g o v s) := by
  unfold writeGroup
  repeat' first | intro _ | (with_reducible first | assumption | apply kept_setGrp | apply kept_ackBits | apply kept_clearBits | apply kept_faultMaskWrite | apply kept_faultActionWrite | apply kept_faultInjectArm | apply Kept.ite | fail_if_no_progress apply Kept.rest) | dsimp only | split

theorem kept_setInd {r0 : State} {who : Owner2} {i : Ind} {s : State} (hk : Kept r0 s) :
    Kept r0 (setInd who i s) := by
  unfold setInd
  repeat' first | intro _ | (with_reducible first | assumption | apply Kept.ite | fail_if_no_progress apply Kept.rest) | dsimp only | split

theorem kept_writeIndAddr {r0 : State} {who : Owner2} {v : Word} {s : State} (hk : Kept r0 s) :
    Kept r0 (writeIndAddr who v s) := by
  unfold writeIndAddr
  repeat' first | intro _ | (with_reducible first | assumption | apply kept_setInd | apply Kept.ite | fail_if_no_progress apply Kept.rest) | dsimp only | split

theorem kept_mailboxGo {r0 : State} {op : Nat} {tag : BitVec 8} {s : State} (hk : Kept r0 s) :
    Kept r0 (mailboxGo op tag s) := by
  unfold mailboxGo
  repeat' first | intro _ | (with_reducible first | assumption | apply kept_mbEnd | apply kept_mbCommand | apply kept_mapDevice | apply kept_unmapDevice | apply kept_loadImage | apply kept_writeBootImage | apply kept_readReport | apply kept_peelCancel | apply kept_advanceRollback | apply kept_retryStart | apply kept_recoveryBegin | apply kept_recoveryRun | apply Kept.ite | fail_if_no_progress apply Kept.rest) | dsimp only | split

theorem kept_writeMgt {r0 : State} {who : Owner2} {o : Nat} {v : Word} {s : State} (hk : Kept r0 s) :
    Kept r0 (writeMgt who o v s) := by
  unfold writeMgt
  repeat' first | intro _ | (with_reducible first | assumption | apply kept_rcvDataWrite | apply kept_writeIndAddr | apply kept_mailboxGo | apply Kept.ite | fail_if_no_progress apply Kept.rest) | dsimp only | split

theorem kept_writeTrc {r0 : State} {o : Nat} {v : Word} {s : State} (hk : Kept r0 s) :
    Kept r0 (writeTrc o v s) := by
  unfold writeTrc
  repeat' first | intro _ | (with_reducible first | assumption | apply Kept.ite | fail_if_no_progress apply Kept.rest) | dsimp only | split

theorem kept_writeBar0 {r0 : State} {who : Owner2} {a : Nat} {v : Word} {s : State} (hk : Kept r0 s) :
    Kept r0 (writeBar0 who a v s) := by
  unfold writeBar0
  repeat' first | intro _ | (with_reducible first | assumption | apply kept_refuseWrite | apply kept_mbxSelectWrite | apply kept_writePrf | apply kept_writeFab | apply kept_writeXfe | apply kept_writeXlt | apply kept_writeSrm | apply kept_writeMem | apply kept_writeQos | apply kept_writeSit | apply kept_writeStl | apply kept_writeCol | apply kept_writeHst | apply kept_writeVif | apply kept_writeSec | apply kept_writeDbg | apply kept_writePwr | apply kept_writeThm | apply kept_writeFlt | apply kept_writeGroup | apply kept_writeMgt | apply kept_writeTrc | apply Kept.ite | fail_if_no_progress apply Kept.rest) | dsimp only | split

theorem kept_putSealBytes {r0 : State} {v o : Nat} {val : Word} {s : State} (hk : Kept r0 s) :
    Kept r0 (putSealBytes v o val s) := by
  unfold putSealBytes
  repeat' first | intro _ | (with_reducible first | assumption | apply kept_setSeal | apply kept_viFault | apply Kept.ite | fail_if_no_progress apply Kept.rest) | dsimp only | split

theorem kept_writeRing {r0 : State} {v o : Nat} {val : Word} {s : State} (hk : Kept r0 s) :
    Kept r0 (writeRing v o val s) := by
  unfold writeRing
  repeat' first | intro _ | (with_reducible first | assumption | apply kept_setVi | apply kept_viFault | apply Kept.ite | fail_if_no_progress apply Kept.rest) | dsimp only | split

theorem kept_writeBar2 {r0 : State} {v o : Nat} {val : Word} {s : State} (hk : Kept r0 s) :
    Kept r0 (writeBar2 v o val s) := by
  unfold writeBar2
  repeat' first | intro _ | (with_reducible first | assumption | apply kept_setVi | apply kept_setSeal | apply kept_endSession | apply kept_viFault | apply kept_deliverHeld | apply kept_vifAttach | apply kept_vifDetach | apply kept_vifLease | apply kept_sealOpenStart | apply kept_mbxSelectWrite | apply kept_putSealBytes | apply kept_writeRing | apply Kept.ite | fail_if_no_progress apply Kept.rest) | dsimp only | split

end Sys2Proof.Laws
end

