-- ==== Sys2Proof/Laws/KeptRegs.lean ====
section
/-! SUPPORT. What the operations of `Machine/Regs.lean` keep: one lemma each. -/
namespace Sys2Proof.Laws
open Sys2Proof Sys2Proof.Machine Sys2Proof.Safety
set_option linter.unreachableTactic false
set_option linter.unusedTactic false

theorem kept_clearRc {r0 : State} {a : Nat} {s : State} (hk : Kept r0 s) :
    Kept r0 (clearRc a s) := by
  unfold clearRc
  repeat' first | intro _ | (with_reducible first | assumption | apply kept_modPart | apply kept_setCol | apply kept_setQuad | apply kept_setXfe | apply kept_setBank | apply kept_setChan | apply kept_modSite | apply kept_setPort | apply kept_setCunit | apply kept_setQport | apply Kept.ite | fail_if_no_progress apply Kept.rest) | dsimp only | split

theorem kept_indStore {r0 : State} {a : Nat} {v : Word} {s : State} (hk : Kept r0 s) :
    Kept r0 (indStore a v s) := by
  unfold indStore
  repeat' first | intro _ | (with_reducible first | assumption | apply Kept.ite | fail_if_no_progress apply Kept.rest) | dsimp only | split

theorem kept_indWrite {r0 : State} {a : Nat} {v : Word} {s : State} (hk : Kept r0 s) :
    Kept r0 (indWrite a v s) := by
  unfold indWrite
  repeat' first | intro _ | (with_reducible first | assumption | apply kept_setCell | apply kept_indStore | apply Kept.ite | fail_if_no_progress apply Kept.rest) | dsimp only | split

theorem kept_indAccess {r0 : State} {who : Owner2} {write : Bool} {v : Word} {s : State} (hk : Kept r0 s) :
    Kept r0 (indAccess who write v s) := by
  unfold indAccess
  repeat' first | intro _ | (with_reducible first | assumption | apply kept_setInd | apply kept_indWrite | apply Kept.ite | fail_if_no_progress apply Kept.rest) | dsimp only | split

theorem kept_indDataAccess {r0 : State} {who : Owner2} {write : Bool} {v : Word} {s : State} (hk : Kept r0 s) :
    Kept r0 (indDataAccess who write v s) := by
  unfold indDataAccess
  repeat' first | intro _ | (with_reducible first | assumption | apply kept_spend | apply kept_emit | apply kept_indAccess | apply Kept.ite | fail_if_no_progress apply Kept.rest) | dsimp only | split

theorem kept_readReg {r0 : State} {path : RegPath} {a : Nat} {s : State} (hk : Kept r0 s) :
    Kept r0 (readReg path a s) := by
  unfold readReg
  repeat' first | intro _ | (with_reducible first | assumption | apply kept_spend | apply kept_emit | apply kept_clearRc | apply kept_indAccess | apply Kept.ite | fail_if_no_progress apply Kept.rest) | dsimp only | split

theorem kept_readTimeout {r0 : State} {path : RegPath} {a : Nat} {s : State} (hk : Kept r0 s) :
    Kept r0 (readTimeout path a s) := by
  unfold readTimeout
  repeat' first | intro _ | (with_reducible first | assumption | apply kept_emit | apply kept_raise | apply Kept.ite | fail_if_no_progress apply Kept.rest) | dsimp only | split

theorem kept_readWord {r0 : State} {path : RegPath} {a : Nat} {s : State} (hk : Kept r0 s) :
    Kept r0 (readWord path a s) := by
  unfold readWord
  repeat' first | intro _ | (with_reducible first | assumption | apply kept_readReg | apply kept_readTimeout | apply Kept.ite | fail_if_no_progress apply Kept.rest) | dsimp only | split

theorem kept_writeReg {r0 : State} {path : RegPath} {a : Nat} {v : Word} {be : Nat} {s : State} (hk : Kept r0 s) :
    Kept r0 (writeReg path a v be s) := by
  unfold writeReg
  repeat' first | intro _ | (with_reducible first | assumption | apply kept_writeBar0 | apply kept_writeBar2 | apply kept_indAccess | apply Kept.ite | fail_if_no_progress apply Kept.rest) | dsimp only | split

theorem kept_regWrite {r0 : State} {path : RegPath} {addr : Nat} {val : BitVec 64} {be : BitVec 8} {wide : Bool} {s : State} (hk : Kept r0 s) :
    Kept r0 (regWrite path addr val be wide s) := by
  unfold regWrite
  repeat' first | intro _ | (with_reducible first | assumption | apply kept_writeReg | apply Kept.ite | fail_if_no_progress apply Kept.rest) | dsimp only | split

end Sys2Proof.Laws
end

