-- ==== Sys2Proof/Laws/KeptCmd.lean ====
section
/-! SUPPORT. What every command keeps: one lemma per command. -/
namespace Sys2Proof.Laws
open Sys2Proof Sys2Proof.Machine Sys2Proof.Safety
set_option linter.unreachableTactic false
set_option linter.unusedTactic false

theorem kept_execFaultDetect {g : Fin 29} {bit : Fin 32} {unit : Nat} {s z : State} (h : execFaultDetect g bit unit s = .next z) : Kept s z := by
  unfold execFaultDetect at h
  injection h with h
  subst h
  have hk := Kept.refl s
  repeat' first | intro _ | (with_reducible first | assumption | apply kept_faultDetect | apply Kept.ite | fail_if_no_progress apply Kept.rest) | dsimp only | split

theorem kept_execGraceExpiry {g : Fin 29} {s z : State} (h : execGraceExpiry g s = .next z) : Kept s z := by
  unfold execGraceExpiry at h
  injection h with h
  subst h
  have hk := Kept.refl s
  repeat' first | intro _ | (with_reducible first | assumption | apply kept_graceExpiry | apply Kept.ite | fail_if_no_progress apply Kept.rest) | dsimp only | split

theorem kept_execFaultStatusClear {g : Fin 29} {val : Word} {s z : State} (h : execFaultStatusClear g val s = .next z) : Kept s z := by
  unfold execFaultStatusClear at h
  injection h with h
  subst h
  have hk := Kept.refl s
  repeat' first | intro _ | (with_reducible first | assumption | apply kept_clearBits | apply Kept.ite | fail_if_no_progress apply Kept.rest) | dsimp only | split

theorem kept_execFaultAck {g : Fin 29} {val : Word} {s z : State} (h : execFaultAck g val s = .next z) : Kept s z := by
  unfold execFaultAck at h
  injection h with h
  subst h
  have hk := Kept.refl s
  repeat' first | intro _ | (with_reducible first | assumption | apply kept_ackBits | apply Kept.ite | fail_if_no_progress apply Kept.rest) | dsimp only | split

theorem kept_execFaultMaskWrite {g : Fin 29} {val : Word} {s z : State} (h : execFaultMaskWrite g val s = .next z) : Kept s z := by
  unfold execFaultMaskWrite at h
  injection h with h
  subst h
  have hk := Kept.refl s
  repeat' first | intro _ | (with_reducible first | assumption | apply kept_refuseWrite | apply kept_faultMaskWrite | apply Kept.ite | fail_if_no_progress apply Kept.rest) | dsimp only | split

theorem kept_execFaultActionWrite {g : Fin 29} {val : Word} {s z : State} (h : execFaultActionWrite g val s = .next z) : Kept s z := by
  unfold execFaultActionWrite at h
  injection h with h
  subst h
  have hk := Kept.refl s
  repeat' first | intro _ | (with_reducible first | assumption | apply kept_refuseWrite | apply kept_faultActionWrite | apply Kept.ite | fail_if_no_progress apply Kept.rest) | dsimp only | split

theorem kept_execFaultInjectArm {g : Fin 29} {val : Word} {s z : State} (h : execFaultInjectArm g val s = .next z) : Kept s z := by
  unfold execFaultInjectArm at h
  injection h with h
  subst h
  have hk := Kept.refl s
  repeat' first | intro _ | (with_reducible first | assumption | apply kept_refuseWrite | apply kept_faultInjectArm | apply Kept.ite | fail_if_no_progress apply Kept.rest) | dsimp only | split

theorem kept_execFaultSignal {g : Fin 29} {bit : Fin 32} {s z : State} (h : execFaultSignal g bit s = .next z) : Kept s z := by
  unfold execFaultSignal at h
  injection h with h
  subst h
  have hk := Kept.refl s
  repeat' first | intro _ | (with_reducible first | assumption | apply kept_faultSignal | apply Kept.ite | fail_if_no_progress apply Kept.rest) | dsimp only | split

theorem kept_execErrnHeartbeat {s z : State} (h : execErrnHeartbeat s = .next z) : Kept s z := by
  unfold execErrnHeartbeat at h
  injection h with h
  subst h
  have hk := Kept.refl s
  repeat' first | intro _ | (with_reducible first | assumption | apply kept_errnHeartbeat | apply Kept.ite | fail_if_no_progress apply Kept.rest) | dsimp only | split

theorem kept_execStepRelease {p : Fin 64} {s z : State} (h : execStepRelease p s = .next z) : Kept s z := by
  unfold execStepRelease at h
  injection h with h
  subst h
  have hk := Kept.refl s
  repeat' first | intro _ | (with_reducible first | assumption | apply kept_refresh | apply kept_releaseNow | apply Kept.ite | fail_if_no_progress apply Kept.rest) | dsimp only | split

theorem kept_execLocalRelease {p : Fin 64} {s z : State} (h : execLocalRelease p s = .next z) : Kept s z := by
  unfold execLocalRelease at h
  injection h with h
  subst h
  have hk := Kept.refl s
  repeat' first | intro _ | (with_reducible first | assumption | apply kept_localRelease | apply Kept.ite | fail_if_no_progress apply Kept.rest) | dsimp only | split

theorem kept_execBudgetEnd {p : Fin 64} {s z : State} (h : execBudgetEnd p s = .next z) : Kept s z := by
  unfold execBudgetEnd at h
  injection h with h
  subst h
  have hk := Kept.refl s
  repeat' first | intro _ | (with_reducible first | assumption | apply kept_budgetEnd | apply Kept.ite | fail_if_no_progress apply Kept.rest) | dsimp only | split

theorem kept_execLocalArrival {p : Fin 64} {s z : State} (h : execLocalArrival p s = .next z) : Kept s z := by
  unfold execLocalArrival at h
  injection h with h
  subst h
  have hk := Kept.refl s
  repeat' first | intro _ | (with_reducible first | assumption | apply kept_refresh | apply kept_localArrival | apply Kept.ite | fail_if_no_progress apply Kept.rest) | dsimp only | split

theorem kept_execXfeDescArrive {e : Fin 64} {s z : State} (h : execXfeDescArrive e s = .next z) : Kept s z := by
  unfold execXfeDescArrive at h
  injection h with h
  subst h
  have hk := Kept.refl s
  repeat' first | intro _ | (with_reducible first | assumption | apply kept_xfeDescArrive | apply Kept.ite | fail_if_no_progress apply Kept.rest) | dsimp only | split

theorem kept_execXfeWaitSatisfied {e : Fin 64} {s z : State} (h : execXfeWaitSatisfied e s = .next z) : Kept s z := by
  unfold execXfeWaitSatisfied at h
  injection h with h
  subst h
  have hk := Kept.refl s
  repeat' first | intro _ | (with_reducible first | assumption | apply kept_xfeWaitSatisfied | apply Kept.ite | fail_if_no_progress apply Kept.rest) | dsimp only | split

theorem kept_execXfeComplete {e : Fin 64} {s z : State} (h : execXfeComplete e s = .next z) : Kept s z := by
  unfold execXfeComplete at h
  injection h with h
  subst h
  have hk := Kept.refl s
  repeat' first | intro _ | (with_reducible first | assumption | apply kept_refresh | apply kept_xfeComplete | apply Kept.ite | fail_if_no_progress apply Kept.rest) | dsimp only | split

theorem kept_execXfeAbort {e : Fin 64} {s z : State} (h : execXfeAbort e s = .next z) : Kept s z := by
  unfold execXfeAbort at h
  injection h with h
  subst h
  have hk := Kept.refl s
  repeat' first | intro _ | (with_reducible first | assumption | apply kept_xfeAbort | apply Kept.ite | fail_if_no_progress apply Kept.rest) | dsimp only | split

theorem kept_execXfeFence {e : Fin 64} {s z : State} (h : execXfeFence e s = .next z) : Kept s z := by
  unfold execXfeFence at h
  injection h with h
  subst h
  have hk := Kept.refl s
  repeat' first | intro _ | (with_reducible first | assumption | apply kept_requestXfeFence | apply Kept.ite | fail_if_no_progress apply Kept.rest) | dsimp only | split

theorem kept_execXfeReadmit {e : Fin 64} {s z : State} (h : execXfeReadmit e s = .next z) : Kept s z := by
  unfold execXfeReadmit at h
  injection h with h
  subst h
  have hk := Kept.refl s
  repeat' first | intro _ | (with_reducible first | assumption | apply kept_xfeReadmit | apply Kept.ite | fail_if_no_progress apply Kept.rest) | dsimp only | split

theorem kept_execHwtCommit {who : Owner2} {s z : State} (h : execHwtCommit who s = .next z) : Kept s z := by
  unfold execHwtCommit at h
  injection h with h
  subst h
  have hk := Kept.refl s
  repeat' first | intro _ | (with_reducible first | assumption | apply kept_hwtCommit | apply Kept.ite | fail_if_no_progress apply Kept.rest) | dsimp only | split

theorem kept_execHwtCommitDrained {s z : State} (h : execHwtCommitDrained s = .next z) : Kept s z := by
  unfold execHwtCommitDrained at h
  injection h with h
  subst h
  have hk := Kept.refl s
  repeat' first | intro _ | (with_reducible first | assumption | apply kept_hwtCommitDrained | apply Kept.ite | fail_if_no_progress apply Kept.rest) | dsimp only | split

theorem kept_execAtsInvalidate {itag : Fin 32} {iova : BitVec 64} {size : Nat} {s z : State} (h : execAtsInvalidate itag iova size s = .next z) : Kept s z := by
  unfold execAtsInvalidate at h
  injection h with h
  subst h
  have hk := Kept.refl s
  repeat' first | intro _ | (with_reducible first | assumption | apply kept_atsInvalidate | apply Kept.ite | fail_if_no_progress apply Kept.rest) | dsimp only | split

theorem kept_execInvalidateCompletion {itag : Fin 32} {s z : State} (h : execInvalidateCompletion itag s = .next z) : Kept s z := by
  unfold execInvalidateCompletion at h
  injection h with h
  subst h
  have hk := Kept.refl s
  repeat' first | intro _ | (with_reducible first | assumption | apply kept_invalidateCompletion | apply Kept.ite | fail_if_no_progress apply Kept.rest) | dsimp only | split

theorem kept_execAtsEnable {on : Bool} {s z : State} (h : execAtsEnable on s = .next z) : Kept s z := by
  unfold execAtsEnable at h
  injection h with h
  subst h
  have hk := Kept.refl s
  repeat' first | intro _ | (with_reducible first | assumption | apply kept_atsEnable | apply Kept.ite | fail_if_no_progress apply Kept.rest) | dsimp only | split

theorem kept_execPriEnable {on : Bool} {alloc : BitVec 16} {s z : State} (h : execPriEnable on alloc s = .next z) : Kept s z := by
  unfold execPriEnable at h
  injection h with h
  subst h
  have hk := Kept.refl s
  repeat' first | intro _ | (with_reducible first | assumption | apply kept_priEnable | apply Kept.ite | fail_if_no_progress apply Kept.rest) | dsimp only | split

theorem kept_execColWaitSatisfied {c : Fin 8} {s z : State} (h : execColWaitSatisfied c s = .next z) : Kept s z := by
  unfold execColWaitSatisfied at h
  injection h with h
  subst h
  have hk := Kept.refl s
  repeat' first | intro _ | (with_reducible first | assumption | apply kept_refresh | apply kept_colWaitSatisfied | apply Kept.ite | fail_if_no_progress apply Kept.rest) | dsimp only | split

theorem kept_execColOpComplete {c : Fin 8} {s z : State} (h : execColOpComplete c s = .next z) : Kept s z := by
  unfold execColOpComplete at h
  injection h with h
  subst h
  have hk := Kept.refl s
  repeat' first | intro _ | (with_reducible first | assumption | apply kept_refresh | apply kept_colOpComplete | apply Kept.ite | fail_if_no_progress apply Kept.rest) | dsimp only | split

theorem kept_execColAbort {c : Fin 8} {s z : State} (h : execColAbort c s = .next z) : Kept s z := by
  unfold execColAbort at h
  injection h with h
  subst h
  have hk := Kept.refl s
  repeat' first | intro _ | (with_reducible first | assumption | apply kept_abortOp | apply Kept.ite | fail_if_no_progress apply Kept.rest) | dsimp only | split

theorem kept_execColFence {c : Fin 8} {s z : State} (h : execColFence c s = .next z) : Kept s z := by
  unfold execColFence at h
  injection h with h
  subst h
  have hk := Kept.refl s
  repeat' first | intro _ | (with_reducible first | assumption | apply kept_requestCunitFence | apply Kept.ite | fail_if_no_progress apply Kept.rest) | dsimp only | split

theorem kept_execColReadmit {c : Fin 8} {s z : State} (h : execColReadmit c s = .next z) : Kept s z := by
  unfold execColReadmit at h
  injection h with h
  subst h
  have hk := Kept.refl s
  repeat' first | intro _ | (with_reducible first | assumption | apply kept_colReadmit | apply Kept.ite | fail_if_no_progress apply Kept.rest) | dsimp only | split

theorem kept_execSiteAdmissionStart {n : Fin 18} {strapT strapC : BitVec 6} {s z : State} (h : execSiteAdmissionStart n strapT strapC s = .next z) : Kept s z := by
  unfold execSiteAdmissionStart at h
  injection h with h
  subst h
  have hk := Kept.refl s
  repeat' first | intro _ | (with_reducible first | assumption | apply kept_siteAdmissionStart | apply Kept.ite | fail_if_no_progress apply Kept.rest) | dsimp only | split

theorem kept_execSiteCoreRegulated {n : Fin 18} {s z : State} (h : execSiteCoreRegulated n s = .next z) : Kept s z := by
  unfold execSiteCoreRegulated at h
  injection h with h
  subst h
  have hk := Kept.refl s
  repeat' first | intro _ | (with_reducible first | assumption | apply kept_siteCoreRegulated | apply Kept.ite | fail_if_no_progress apply Kept.rest) | dsimp only | split

theorem kept_execSiteRailsTimeout {n : Fin 18} {s z : State} (h : execSiteRailsTimeout n s = .next z) : Kept s z := by
  unfold execSiteRailsTimeout at h
  injection h with h
  subst h
  have hk := Kept.refl s
  repeat' first | intro _ | (with_reducible first | assumption | apply kept_siteRailsTimeout | apply Kept.ite | fail_if_no_progress apply Kept.rest) | dsimp only | split

theorem kept_execSidebandDetected {n : Fin 18} {cxlCompute : Option Bool} {s z : State} (h : execSidebandDetected n cxlCompute s = .next z) : Kept s z := by
  unfold execSidebandDetected at h
  injection h with h
  subst h
  have hk := Kept.refl s
  repeat' first | intro _ | (with_reducible first | assumption | apply kept_sidebandDetected | apply Kept.ite | fail_if_no_progress apply Kept.rest) | dsimp only | split

theorem kept_execSidebandTimeout {n : Fin 18} {s z : State} (h : execSidebandTimeout n s = .next z) : Kept s z := by
  unfold execSidebandTimeout at h
  injection h with h
  subst h
  have hk := Kept.refl s
  repeat' first | intro _ | (with_reducible first | assumption | apply kept_sidebandTimeout | apply Kept.ite | fail_if_no_progress apply Kept.rest) | dsimp only | split

theorem kept_execSiteTrainingDone {n : Fin 18} {modules : Nat} {repaired : List (Nat × Nat)} {disabled : List Nat} {bothHalves : Bool} {s z : State} (h : execSiteTrainingDone n modules repaired disabled bothHalves s = .next z) : Kept s z := by
  unfold execSiteTrainingDone at h
  injection h with h
  subst h
  have hk := Kept.refl s
  repeat' first | intro _ | (with_reducible first | assumption | apply kept_siteTrainingDone | apply Kept.ite | fail_if_no_progress apply Kept.rest) | dsimp only | split

theorem kept_execNegotiateTimeout {n : Fin 18} {s z : State} (h : execNegotiateTimeout n s = .next z) : Kept s z := by
  unfold execNegotiateTimeout at h
  injection h with h
  subst h
  have hk := Kept.refl s
  repeat' first | intro _ | (with_reducible first | assumption | apply kept_negotiateTimeout | apply Kept.ite | fail_if_no_progress apply Kept.rest) | dsimp only | split

theorem kept_execAttestComplete {n : Fin 18} {a : AttestIn} {s z : State} (h : execAttestComplete n a s = .next z) : Kept s z := by
  unfold execAttestComplete at h
  injection h with h
  subst h
  have hk := Kept.refl s
  repeat' first | intro _ | (with_reducible first | assumption | apply kept_refresh | apply kept_attestComplete | apply Kept.ite | fail_if_no_progress apply Kept.rest) | dsimp only | split

theorem kept_execAttestTimeout {n : Fin 18} {s z : State} (h : execAttestTimeout n s = .next z) : Kept s z := by
  unfold execAttestTimeout at h
  injection h with h
  subst h
  have hk := Kept.refl s
  repeat' first | intro _ | (with_reducible first | assumption | apply kept_attestTimeout | apply Kept.ite | fail_if_no_progress apply Kept.rest) | dsimp only | split

theorem kept_execCrustLoaded {n : Fin 18} {s z : State} (h : execCrustLoaded n s = .next z) : Kept s z := by
  unfold execCrustLoaded at h
  injection h with h
  subst h
  have hk := Kept.refl s
  repeat' first | intro _ | (with_reducible first | assumption | apply kept_crustLoaded | apply Kept.ite | fail_if_no_progress apply Kept.rest) | dsimp only | split

theorem kept_execConfigTimeout {n : Fin 18} {s z : State} (h : execConfigTimeout n s = .next z) : Kept s z := by
  unfold execConfigTimeout at h
  injection h with h
  subst h
  have hk := Kept.refl s
  repeat' first | intro _ | (with_reducible first | assumption | apply kept_configTimeout | apply Kept.ite | fail_if_no_progress apply Kept.rest) | dsimp only | split

theorem kept_execSiteLinkError {n : Fin 18} {s z : State} (h : execSiteLinkError n s = .next z) : Kept s z := by
  unfold execSiteLinkError at h
  injection h with h
  subst h
  have hk := Kept.refl s
  repeat' first | intro _ | (with_reducible first | assumption | apply kept_retrainSite | apply Kept.ite | fail_if_no_progress apply Kept.rest) | dsimp only | split

theorem kept_execSiteRetrainDone {n : Fin 18} {modules : Nat} {repaired : List (Nat × Nat)} {s z : State} (h : execSiteRetrainDone n modules repaired s = .next z) : Kept s z := by
  unfold execSiteRetrainDone at h
  injection h with h
  subst h
  have hk := Kept.refl s
  repeat' first | intro _ | (with_reducible first | assumption | apply kept_siteRetrainDone | apply Kept.ite | fail_if_no_progress apply Kept.rest) | dsimp only | split

theorem kept_execSiteRetrainTimeout {n : Fin 18} {s z : State} (h : execSiteRetrainTimeout n s = .next z) : Kept s z := by
  unfold execSiteRetrainTimeout at h
  injection h with h
  subst h
  have hk := Kept.refl s
  repeat' first | intro _ | (with_reducible first | assumption | apply kept_siteRetrainTimeout | apply Kept.ite | fail_if_no_progress apply Kept.rest) | dsimp only | split

theorem kept_execSiteRailShort {n : Fin 18} {s z : State} (h : execSiteRailShort n s = .next z) : Kept s z := by
  unfold execSiteRailShort at h
  injection h with h
  subst h
  have hk := Kept.refl s
  repeat' first | intro _ | (with_reducible first | assumption | apply kept_siteRailShort | apply Kept.ite | fail_if_no_progress apply Kept.rest) | dsimp only | split

theorem kept_execSitFence {n : Fin 18} {s z : State} (h : execSitFence n s = .next z) : Kept s z := by
  unfold execSitFence at h
  injection h with h
  subst h
  have hk := Kept.refl s
  repeat' first | intro _ | (with_reducible first | assumption | apply kept_sitFence | apply Kept.ite | fail_if_no_progress apply Kept.rest) | dsimp only | split

theorem kept_execSitReadmit {n : Fin 18} {s z : State} (h : execSitReadmit n s = .next z) : Kept s z := by
  unfold execSitReadmit at h
  injection h with h
  subst h
  have hk := Kept.refl s
  repeat' first | intro _ | (with_reducible first | assumption | apply kept_sitReadmit | apply Kept.ite | fail_if_no_progress apply Kept.rest) | dsimp only | split

theorem kept_execSitRetrain {n : Fin 18} {s z : State} (h : execSitRetrain n s = .next z) : Kept s z := by
  unfold execSitRetrain at h
  injection h with h
  subst h
  have hk := Kept.refl s
  repeat' first | intro _ | (with_reducible first | assumption | apply kept_sitRetrain | apply Kept.ite | fail_if_no_progress apply Kept.rest) | dsimp only | split

theorem kept_execSitVsetWrite {n : Fin 18} {val : Word} {s z : State} (h : execSitVsetWrite n val s = .next z) : Kept s z := by
  unfold execSitVsetWrite at h
  injection h with h
  subst h
  have hk := Kept.refl s
  repeat' first | intro _ | (with_reducible first | assumption | apply kept_sitVsetWrite | apply Kept.ite | fail_if_no_progress apply Kept.rest) | dsimp only | split

theorem kept_execFlushTimeout {n : Fin 18} {s z : State} (h : execFlushTimeout n s = .next z) : Kept s z := by
  unfold execFlushTimeout at h
  injection h with h
  subst h
  have hk := Kept.refl s
  repeat' first | intro _ | (with_reducible first | assumption | apply kept_refresh | apply kept_flushTimeout | apply Kept.ite | fail_if_no_progress apply Kept.rest) | dsimp only | split

theorem kept_execCachingSiteFlushDone {n : Fin 18} {s z : State} (h : execCachingSiteFlushDone n s = .next z) : Kept s z := by
  unfold execCachingSiteFlushDone at h
  injection h with h
  subst h
  have hk := Kept.refl s
  repeat' first | intro _ | (with_reducible first | assumption | apply kept_cachingSiteFlushDone | apply Kept.ite | fail_if_no_progress apply Kept.rest) | dsimp only | split

theorem kept_execArriveToken {via : TokenVia} {t : Token} {s z : State} (h : execArriveToken via t s = .next z) : Kept s z := by
  unfold execArriveToken at h
  injection h with h
  subst h
  have hk := Kept.refl s
  repeat' first | intro _ | (with_reducible first | assumption | apply kept_refresh | apply kept_arriveToken | apply Kept.ite | fail_if_no_progress apply Kept.rest) | dsimp only | split

theorem kept_execReleaseToken {via : TokenVia} {t : Token} {s z : State} (h : execReleaseToken via t s = .next z) : Kept s z := by
  unfold execReleaseToken at h
  injection h with h
  subst h
  have hk := Kept.refl s
  repeat' first | intro _ | (with_reducible first | assumption | apply kept_refresh | apply kept_releaseToken | apply Kept.ite | fail_if_no_progress apply Kept.rest) | dsimp only | split

theorem kept_execHoldToken {via : TokenVia} {t : Token} {s z : State} (h : execHoldToken via t s = .next z) : Kept s z := by
  unfold execHoldToken at h
  injection h with h
  subst h
  have hk := Kept.refl s
  repeat' first | intro _ | (with_reducible first | assumption | apply kept_refresh | apply kept_holdToken | apply Kept.ite | fail_if_no_progress apply Kept.rest) | dsimp only | split

theorem kept_execBreakToken {via : TokenVia} {t : Token} {s z : State} (h : execBreakToken via t s = .next z) : Kept s z := by
  unfold execBreakToken at h
  injection h with h
  subst h
  have hk := Kept.refl s
  repeat' first | intro _ | (with_reducible first | assumption | apply kept_refresh | apply kept_breakToken | apply Kept.ite | fail_if_no_progress apply Kept.rest) | dsimp only | split

theorem kept_execLateLimitExpiry {p : Fin 64} {s z : State} (h : execLateLimitExpiry p s = .next z) : Kept s z := by
  unfold execLateLimitExpiry at h
  injection h with h
  subst h
  have hk := Kept.refl s
  repeat' first | intro _ | (with_reducible first | assumption | apply kept_lateLimitExpiry | apply Kept.ite | fail_if_no_progress apply Kept.rest) | dsimp only | split

theorem kept_execProofTimeoutExpiry {p : Fin 64} {s z : State} (h : execProofTimeoutExpiry p s = .next z) : Kept s z := by
  unfold execProofTimeoutExpiry at h
  injection h with h
  subst h
  have hk := Kept.refl s
  repeat' first | intro _ | (with_reducible first | assumption | apply kept_refresh | apply kept_proofTimeoutExpiry | apply Kept.ite | fail_if_no_progress apply Kept.rest) | dsimp only | split

theorem kept_execReadyTimeout {p : Fin 64} {s z : State} (h : execReadyTimeout p s = .next z) : Kept s z := by
  unfold execReadyTimeout at h
  injection h with h
  subst h
  have hk := Kept.refl s
  repeat' first | intro _ | (with_reducible first | assumption | apply kept_readyTimeout | apply Kept.ite | fail_if_no_progress apply Kept.rest) | dsimp only | split

theorem kept_execTimeSyncTimer {s z : State} (h : execTimeSyncTimer s = .next z) : Kept s z := by
  unfold execTimeSyncTimer at h
  injection h with h
  subst h
  have hk := Kept.refl s
  repeat' first | intro _ | (with_reducible first | assumption | apply kept_timeSyncTimer | apply Kept.ite | fail_if_no_progress apply Kept.rest) | dsimp only | split

theorem kept_execTimeReq {via : TokenVia} {t : Token} {s z : State} (h : execTimeReq via t s = .next z) : Kept s z := by
  unfold execTimeReq at h
  injection h with h
  subst h
  have hk := Kept.refl s
  repeat' first | intro _ | (with_reducible first | assumption | apply kept_refresh | apply kept_timeReq | apply Kept.ite | fail_if_no_progress apply Kept.rest) | dsimp only | split

theorem kept_execTimeResp {via : TokenVia} {t : Token} {s z : State} (h : execTimeResp via t s = .next z) : Kept s z := by
  unfold execTimeResp at h
  injection h with h
  subst h
  have hk := Kept.refl s
  repeat' first | intro _ | (with_reducible first | assumption | apply kept_refresh | apply kept_timeResp | apply Kept.ite | fail_if_no_progress apply Kept.rest) | dsimp only | split

theorem kept_execTimeParentLost {s z : State} (h : execTimeParentLost s = .next z) : Kept s z := by
  unfold execTimeParentLost at h
  injection h with h
  subst h
  have hk := Kept.refl s
  repeat' first | intro _ | (with_reducible first | assumption | apply kept_raise | apply Kept.ite | fail_if_no_progress apply Kept.rest) | dsimp only | split

theorem kept_execProofPortDown {port : Fin 8} {s z : State} (h : execProofPortDown port s = .next z) : Kept s z := by
  unfold execProofPortDown at h
  injection h with h
  subst h
  have hk := Kept.refl s
  repeat' first | intro _ | (with_reducible first | assumption | apply kept_proofPortDown | apply Kept.ite | fail_if_no_progress apply Kept.rest) | dsimp only | split

theorem kept_execProofPortUp {port : Fin 8} {peer : BitVec 64} {s z : State} (h : execProofPortUp port peer s = .next z) : Kept s z := by
  unfold execProofPortUp at h
  injection h with h
  subst h
  have hk := Kept.refl s
  repeat' first | intro _ | (with_reducible first | assumption | apply kept_proofPortUp | apply Kept.ite | fail_if_no_progress apply Kept.rest) | dsimp only | split

theorem kept_execSiteArriveIn {n : Fin 18} {s z : State} (h : execSiteArriveIn n s = .next z) : Kept s z := by
  unfold execSiteArriveIn at h
  injection h with h
  subst h
  have hk := Kept.refl s
  repeat' first | intro _ | (with_reducible first | assumption | apply kept_modSite | apply Kept.ite | fail_if_no_progress apply Kept.rest) | dsimp only | split

theorem kept_execSiteReleaseIn {n : Fin 18} {s z : State} (h : execSiteReleaseIn n s = .next z) : Kept s z := by
  unfold execSiteReleaseIn at h
  injection h with h
  subst h
  have hk := Kept.refl s
  repeat' first | intro _ | (with_reducible first | assumption | apply kept_modSite | apply Kept.ite | fail_if_no_progress apply Kept.rest) | dsimp only | split

theorem kept_execSiteAckTimeout {n : Fin 18} {s z : State} (h : execSiteAckTimeout n s = .next z) : Kept s z := by
  unfold execSiteAckTimeout at h
  injection h with h
  subst h
  have hk := Kept.refl s
  repeat' first | intro _ | (with_reducible first | assumption | apply kept_siteAckTimeout | apply Kept.ite | fail_if_no_progress apply Kept.rest) | dsimp only | split

theorem kept_execPartHold {p : Fin 64} {s z : State} (h : execPartHold p s = .next z) : Kept s z := by
  unfold execPartHold at h
  injection h with h
  subst h
  have hk := Kept.refl s
  repeat' first | intro _ | (with_reducible first | assumption | apply kept_partHold | apply Kept.ite | fail_if_no_progress apply Kept.rest) | dsimp only | split

theorem kept_execPartRelease {p : Fin 64} {s z : State} (h : execPartRelease p s = .next z) : Kept s z := by
  unfold execPartRelease at h
  injection h with h
  subst h
  have hk := Kept.refl s
  repeat' first | intro _ | (with_reducible first | assumption | apply kept_partRelease | apply Kept.ite | fail_if_no_progress apply Kept.rest) | dsimp only | split

theorem kept_execPartRemeasure {p : Fin 64} {s z : State} (h : execPartRemeasure p s = .next z) : Kept s z := by
  unfold execPartRemeasure at h
  injection h with h
  subst h
  have hk := Kept.refl s
  repeat' first | intro _ | (with_reducible first | assumption | apply kept_modPart | apply Kept.ite | fail_if_no_progress apply Kept.rest) | dsimp only | split

theorem kept_execStarterArm {p : Fin 64} {stream : Word} {s z : State} (h : execStarterArm p stream s = .next z) : Kept s z := by
  unfold execStarterArm at h
  injection h with h
  subst h
  have hk := Kept.refl s
  repeat' first | intro _ | (with_reducible first | assumption | apply kept_starterArm | apply Kept.ite | fail_if_no_progress apply Kept.rest) | dsimp only | split

theorem kept_execStepCounterArm {p : Fin 64} {hi : Word} {s z : State} (h : execStepCounterArm p hi s = .next z) : Kept s z := by
  unfold execStepCounterArm at h
  injection h with h
  subst h
  have hk := Kept.refl s
  repeat' first | intro _ | (with_reducible first | assumption | apply kept_stepCounterArm | apply Kept.ite | fail_if_no_progress apply Kept.rest) | dsimp only | split

theorem kept_execNocRead {tag off : Nat} {head ecc : Ecc} {s z : State} (h : execNocRead tag off head ecc s = .next z) : Kept s z := by
  unfold execNocRead at h
  injection h with h
  subst h
  have hk := Kept.refl s
  repeat' first | intro _ | (with_reducible first | assumption | apply kept_nocRequest | apply Kept.ite | fail_if_no_progress apply Kept.rest) | dsimp only | split

theorem kept_execNocWrite {tag : Nat} {head flits : Ecc} {s z : State} (h : execNocWrite tag head flits s = .next z) : Kept s z := by
  unfold execNocWrite at h
  injection h with h
  subst h
  have hk := Kept.refl s
  repeat' first | intro _ | (with_reducible first | assumption | apply kept_nocRequest | apply Kept.ite | fail_if_no_progress apply Kept.rest) | dsimp only | split

theorem kept_execNocReadData {tag : Nat} {head flits : Ecc} {s z : State} (h : execNocReadData tag head flits s = .next z) : Kept s z := by
  unfold execNocReadData at h
  injection h with h
  subst h
  have hk := Kept.refl s
  repeat' first | intro _ | (with_reducible first | assumption | apply kept_nocResponse | apply Kept.ite | fail_if_no_progress apply Kept.rest) | dsimp only | split

theorem kept_execNocWriteAck {tag : Nat} {head : Ecc} {s z : State} (h : execNocWriteAck tag head s = .next z) : Kept s z := by
  unfold execNocWriteAck at h
  injection h with h
  subst h
  have hk := Kept.refl s
  repeat' first | intro _ | (with_reducible first | assumption | apply kept_nocResponse | apply Kept.ite | fail_if_no_progress apply Kept.rest) | dsimp only | split

theorem kept_execNocRefuse {tag : Nat} {head : Ecc} {s z : State} (h : execNocRefuse tag head s = .next z) : Kept s z := by
  unfold execNocRefuse at h
  injection h with h
  subst h
  have hk := Kept.refl s
  repeat' first | intro _ | (with_reducible first | assumption | apply kept_nocResponse | apply Kept.ite | fail_if_no_progress apply Kept.rest) | dsimp only | split

theorem kept_execRespTimeout {tag : Nat} {s z : State} (h : execRespTimeout tag s = .next z) : Kept s z := by
  unfold execRespTimeout at h
  injection h with h
  subst h
  have hk := Kept.refl s
  repeat' first | intro _ | (with_reducible first | assumption | apply kept_respTimeout | apply Kept.ite | fail_if_no_progress apply Kept.rest) | dsimp only | split

theorem kept_execSliceStall {router : Fin 96} {input : Fin 8} {s z : State} (h : execSliceStall router input s = .next z) : Kept s z := by
  unfold execSliceStall at h
  injection h with h
  subst h
  have hk := Kept.refl s
  repeat' first | intro _ | (with_reducible first | assumption | apply kept_sliceStall | apply Kept.ite | fail_if_no_progress apply Kept.rest) | dsimp only | split

theorem kept_execQosMissWindowExpiry {p : Fin 64} {s z : State} (h : execQosMissWindowExpiry p s = .next z) : Kept s z := by
  unfold execQosMissWindowExpiry at h
  injection h with h
  subst h
  have hk := Kept.refl s
  repeat' first | intro _ | (with_reducible first | assumption | apply kept_setQpart | apply Kept.ite | fail_if_no_progress apply Kept.rest) | dsimp only | split

theorem kept_execRdNc {n : Fin 18} {m : GMsg} {s z : State} (h : execRdNc n m s = .next z) : Kept s z := by
  unfold execRdNc at h
  injection h with h
  subst h
  have hk := Kept.refl s
  repeat' first | intro _ | (with_reducible first | assumption | apply kept_rdNc | apply Kept.ite | fail_if_no_progress apply Kept.rest) | dsimp only | split

theorem kept_execWr {n : Fin 18} {m : GMsg} {s z : State} (h : execWr n m s = .next z) : Kept s z := by
  unfold execWr at h
  injection h with h
  subst h
  have hk := Kept.refl s
  repeat' first | intro _ | (with_reducible first | assumption | apply kept_wr | apply Kept.ite | fail_if_no_progress apply Kept.rest) | dsimp only | split

theorem kept_execWrPart {n : Fin 18} {m : GMsg} {s z : State} (h : execWrPart n m s = .next z) : Kept s z := by
  unfold execWrPart at h
  injection h with h
  subst h
  have hk := Kept.refl s
  repeat' first | intro _ | (with_reducible first | assumption | apply kept_wrPart | apply Kept.ite | fail_if_no_progress apply Kept.rest) | dsimp only | split

theorem kept_execRdCur {n : Fin 18} {m : GMsg} {s z : State} (h : execRdCur n m s = .next z) : Kept s z := by
  unfold execRdCur at h
  injection h with h
  subst h
  have hk := Kept.refl s
  repeat' first | intro _ | (with_reducible first | assumption | apply kept_refresh | apply kept_rdCur | apply Kept.ite | fail_if_no_progress apply Kept.rest) | dsimp only | split

theorem kept_execRdShared {n : Fin 18} {m : GMsg} {ue : Bool} {s z : State} (h : execRdShared n m ue s = .next z) : Kept s z := by
  unfold execRdShared at h
  injection h with h
  subst h
  have hk := Kept.refl s
  repeat' first | intro _ | (with_reducible first | assumption | apply kept_refresh | apply kept_rdShared | apply Kept.ite | fail_if_no_progress apply Kept.rest) | dsimp only | split

theorem kept_execRdOwn {n : Fin 18} {m : GMsg} {s z : State} (h : execRdOwn n m s = .next z) : Kept s z := by
  unfold execRdOwn at h
  injection h with h
  subst h
  have hk := Kept.refl s
  repeat' first | intro _ | (with_reducible first | assumption | apply kept_refresh | apply kept_rdOwn | apply Kept.ite | fail_if_no_progress apply Kept.rest) | dsimp only | split

theorem kept_execUpgrade {n : Fin 18} {m : GMsg} {s z : State} (h : execUpgrade n m s = .next z) : Kept s z := by
  unfold execUpgrade at h
  injection h with h
  subst h
  have hk := Kept.refl s
  repeat' first | intro _ | (with_reducible first | assumption | apply kept_refresh | apply kept_upgrade | apply Kept.ite | fail_if_no_progress apply Kept.rest) | dsimp only | split

theorem kept_execEvictClean {n : Fin 18} {m : GMsg} {s z : State} (h : execEvictClean n m s = .next z) : Kept s z := by
  unfold execEvictClean at h
  injection h with h
  subst h
  have hk := Kept.refl s
  repeat' first | intro _ | (with_reducible first | assumption | apply kept_refresh | apply kept_evictClean | apply Kept.ite | fail_if_no_progress apply Kept.rest) | dsimp only | split

theorem kept_execWbDirty {n : Fin 18} {m : GMsg} {s z : State} (h : execWbDirty n m s = .next z) : Kept s z := by
  unfold execWbDirty at h
  injection h with h
  subst h
  have hk := Kept.refl s
  repeat' first | intro _ | (with_reducible first | assumption | apply kept_refresh | apply kept_wbDirty | apply Kept.ite | fail_if_no_progress apply Kept.rest) | dsimp only | split

theorem kept_execSnpRsp {n : Fin 18} {m : GMsg} {s z : State} (h : execSnpRsp n m s = .next z) : Kept s z := by
  unfold execSnpRsp at h
  injection h with h
  subst h
  have hk := Kept.refl s
  repeat' first | intro _ | (with_reducible first | assumption | apply kept_refresh | apply kept_snpRsp | apply Kept.ite | fail_if_no_progress apply Kept.rest) | dsimp only | split

theorem kept_execSnpRspData {n : Fin 18} {m : GMsg} {s z : State} (h : execSnpRspData n m s = .next z) : Kept s z := by
  unfold execSnpRspData at h
  injection h with h
  subst h
  have hk := Kept.refl s
  repeat' first | intro _ | (with_reducible first | assumption | apply kept_refresh | apply kept_snpRspData | apply Kept.ite | fail_if_no_progress apply Kept.rest) | dsimp only | split

theorem kept_execAck {n : Fin 18} {m : GMsg} {s z : State} (h : execAck n m s = .next z) : Kept s z := by
  unfold execAck at h
  injection h with h
  subst h
  have hk := Kept.refl s
  repeat' first | intro _ | (with_reducible first | assumption | apply kept_refresh | apply kept_ack | apply Kept.ite | fail_if_no_progress apply Kept.rest) | dsimp only | split

theorem kept_execRdData {n : Fin 18} {m : GMsg} {s z : State} (h : execRdData n m s = .next z) : Kept s z := by
  unfold execRdData at h
  injection h with h
  subst h
  have hk := Kept.refl s
  repeat' first | intro _ | (with_reducible first | assumption | apply kept_rdData | apply Kept.ite | fail_if_no_progress apply Kept.rest) | dsimp only | split

theorem kept_execCmp {n : Fin 18} {m : GMsg} {s z : State} (h : execCmp n m s = .next z) : Kept s z := by
  unfold execCmp at h
  injection h with h
  subst h
  have hk := Kept.refl s
  repeat' first | intro _ | (with_reducible first | assumption | apply kept_cmp | apply Kept.ite | fail_if_no_progress apply Kept.rest) | dsimp only | split

theorem kept_execOccupantRspTimeout {n : Fin 18} {tag : BitVec 12} {s z : State} (h : execOccupantRspTimeout n tag s = .next z) : Kept s z := by
  unfold execOccupantRspTimeout at h
  injection h with h
  subst h
  have hk := Kept.refl s
  repeat' first | intro _ | (with_reducible first | assumption | apply kept_occupantRspTimeout | apply Kept.ite | fail_if_no_progress apply Kept.rest) | dsimp only | split

theorem kept_execSnoopTimeout {n : Fin 18} {line : Nat} {s z : State} (h : execSnoopTimeout n line s = .next z) : Kept s z := by
  unfold execSnoopTimeout at h
  injection h with h
  subst h
  have hk := Kept.refl s
  repeat' first | intro _ | (with_reducible first | assumption | apply kept_refresh | apply kept_snoopLate | apply Kept.ite | fail_if_no_progress apply Kept.rest) | dsimp only | split

theorem kept_execIdentity {n : Fin 18} {m : GMsg} {s z : State} (h : execIdentity n m s = .next z) : Kept s z := by
  unfold execIdentity at h
  injection h with h
  subst h
  have hk := Kept.refl s
  repeat' first | intro _ | (with_reducible first | assumption | apply kept_identity | apply Kept.ite | fail_if_no_progress apply Kept.rest) | dsimp only | split

theorem kept_execArriveInfo {n : Fin 18} {m : GMsg} {s z : State} (h : execArriveInfo n m s = .next z) : Kept s z := by
  unfold execArriveInfo at h
  injection h with h
  subst h
  have hk := Kept.refl s
  repeat' first | intro _ | (with_reducible first | assumption | apply kept_arriveInfo | apply Kept.ite | fail_if_no_progress apply Kept.rest) | dsimp only | split

theorem kept_execVoltReq {n : Fin 18} {m : GMsg} {s z : State} (h : execVoltReq n m s = .next z) : Kept s z := by
  unfold execVoltReq at h
  injection h with h
  subst h
  have hk := Kept.refl s
  repeat' first | intro _ | (with_reducible first | assumption | apply kept_voltReq | apply Kept.ite | fail_if_no_progress apply Kept.rest) | dsimp only | split

theorem kept_execCredit {n : Fin 18} {m : GMsg} {s z : State} (h : execCredit n m s = .next z) : Kept s z := by
  unfold execCredit at h
  injection h with h
  subst h
  have hk := Kept.refl s
  repeat' first | intro _ | (with_reducible first | assumption | apply kept_credit | apply Kept.ite | fail_if_no_progress apply Kept.rest) | dsimp only | split

theorem kept_execCxlRdcurr {n : Fin 18} {m : CxlMsg} {s z : State} (h : execCxlRdcurr n m s = .next z) : Kept s z := by
  unfold execCxlRdcurr at h
  injection h with h
  subst h
  have hk := Kept.refl s
  repeat' first | intro _ | (with_reducible first | assumption | apply kept_refresh | apply kept_cxlRdcurr | apply Kept.ite | fail_if_no_progress apply Kept.rest) | dsimp only | split

theorem kept_execCxlRdshared {n : Fin 18} {m : CxlMsg} {s z : State} (h : execCxlRdshared n m s = .next z) : Kept s z := by
  unfold execCxlRdshared at h
  injection h with h
  subst h
  have hk := Kept.refl s
  repeat' first | intro _ | (with_reducible first | assumption | apply kept_refresh | apply kept_cxlPoison | apply kept_cxlRequest | apply kept_cxlCache | apply Kept.ite | fail_if_no_progress apply Kept.rest) | dsimp only | split

theorem kept_execCxlRdany {n : Fin 18} {m : CxlMsg} {s z : State} (h : execCxlRdany n m s = .next z) : Kept s z := by
  unfold execCxlRdany at h
  injection h with h
  subst h
  have hk := Kept.refl s
  repeat' first | intro _ | (with_reducible first | assumption | apply kept_refresh | apply kept_cxlPoison | apply kept_cxlRequest | apply kept_cxlCache | apply Kept.ite | fail_if_no_progress apply Kept.rest) | dsimp only | split

theorem kept_execCxlRdown {n : Fin 18} {m : CxlMsg} {s z : State} (h : execCxlRdown n m s = .next z) : Kept s z := by
  unfold execCxlRdown at h
  injection h with h
  subst h
  have hk := Kept.refl s
  repeat' first | intro _ | (with_reducible first | assumption | apply kept_refresh | apply kept_cxlPoison | apply kept_cxlRequest | apply kept_cxlCache | apply Kept.ite | fail_if_no_progress apply Kept.rest) | dsimp only | split

theorem kept_execCxlRdownnodata {n : Fin 18} {m : CxlMsg} {s z : State} (h : execCxlRdownnodata n m s = .next z) : Kept s z := by
  unfold execCxlRdownnodata at h
  injection h with h
  subst h
  have hk := Kept.refl s
  repeat' first | intro _ | (with_reducible first | assumption | apply kept_refresh | apply kept_cxlSay | apply kept_cxlRequest | apply kept_cxlCache | apply Kept.ite | fail_if_no_progress apply Kept.rest) | dsimp only | split

theorem kept_execCxlClflush {n : Fin 18} {m : CxlMsg} {s z : State} (h : execCxlClflush n m s = .next z) : Kept s z := by
  unfold execCxlClflush at h
  injection h with h
  subst h
  have hk := Kept.refl s
  repeat' first | intro _ | (with_reducible first | assumption | apply kept_refresh | apply kept_atHome | apply kept_cxlSay | apply kept_cxlRequest | apply Kept.ite | fail_if_no_progress apply Kept.rest) | dsimp only | split

theorem kept_execCxlCleanevict {n : Fin 18} {m : CxlMsg} {s z : State} (h : execCxlCleanevict n m s = .next z) : Kept s z := by
  unfold execCxlCleanevict at h
  injection h with h
  subst h
  have hk := Kept.refl s
  repeat' first | intro _ | (with_reducible first | assumption | apply kept_refresh | apply kept_cxlCleanevict | apply Kept.ite | fail_if_no_progress apply Kept.rest) | dsimp only | split

theorem kept_execCxlDirtyevict {n : Fin 18} {m : CxlMsg} {s z : State} (h : execCxlDirtyevict n m s = .next z) : Kept s z := by
  unfold execCxlDirtyevict at h
  injection h with h
  subst h
  have hk := Kept.refl s
  repeat' first | intro _ | (with_reducible first | assumption | apply kept_refresh | apply kept_cxlDirtyevict | apply Kept.ite | fail_if_no_progress apply Kept.rest) | dsimp only | split

theorem kept_execCxlItomwr {n : Fin 18} {m : CxlMsg} {s z : State} (h : execCxlItomwr n m s = .next z) : Kept s z := by
  unfold execCxlItomwr at h
  injection h with h
  subst h
  have hk := Kept.refl s
  repeat' first | intro _ | (with_reducible first | assumption | apply kept_refresh | apply kept_cxlItomwr | apply Kept.ite | fail_if_no_progress apply Kept.rest) | dsimp only | split

theorem kept_execCxlCacheflushed {n : Fin 18} {m : CxlMsg} {s z : State} (h : execCxlCacheflushed n m s = .next z) : Kept s z := by
  unfold execCxlCacheflushed at h
  injection h with h
  subst h
  have hk := Kept.refl s
  repeat' first | intro _ | (with_reducible first | assumption | apply kept_cxlSay | apply Kept.ite | fail_if_no_progress apply Kept.rest) | dsimp only | split

theorem kept_execCxlUnlistedD2h {n : Fin 18} {m : CxlMsg} {s z : State} (h : execCxlUnlistedD2h n m s = .next z) : Kept s z := by
  unfold execCxlUnlistedD2h at h
  injection h with h
  subst h
  have hk := Kept.refl s
  repeat' first | intro _ | (with_reducible first | assumption | apply kept_refresh | apply kept_protocolError | apply kept_cxlSay | apply Kept.ite | fail_if_no_progress apply Kept.rest) | dsimp only | split

theorem kept_execCxlSnoopResponse {n : Fin 18} {rsp : CxlSnpRsp} {m : CxlMsg} {s z : State} (h : execCxlSnoopResponse n rsp m s = .next z) : Kept s z := by
  unfold execCxlSnoopResponse at h
  injection h with h
  subst h
  have hk := Kept.refl s
  repeat' first | intro _ | (with_reducible first | assumption | apply kept_refresh | apply kept_cxlSnoopResponse | apply Kept.ite | fail_if_no_progress apply Kept.rest) | dsimp only | split

theorem kept_execCxlGoAcked {n : Fin 18} {tag : BitVec 12} {s z : State} (h : execCxlGoAcked n tag s = .next z) : Kept s z := by
  unfold execCxlGoAcked at h
  injection h with h
  subst h
  have hk := Kept.refl s
  repeat' first | intro _ | (with_reducible first | assumption | apply kept_refresh | apply kept_cxlGoAcked | apply Kept.ite | fail_if_no_progress apply Kept.rest) | dsimp only | split

theorem kept_execCxlMemResponse {n : Fin 18} {tag : BitVec 12} {data : List Byte} {poison : Bool} {s z : State} (h : execCxlMemResponse n tag data poison s = .next z) : Kept s z := by
  unfold execCxlMemResponse at h
  injection h with h
  subst h
  have hk := Kept.refl s
  repeat' first | intro _ | (with_reducible first | assumption | apply kept_cxlMemResponse | apply Kept.ite | fail_if_no_progress apply Kept.rest) | dsimp only | split

theorem kept_execCxlIoRequest {n : Fin 18} {kind : CxlIo} {m : CxlMsg} {s z : State} (h : execCxlIoRequest n kind m s = .next z) : Kept s z := by
  unfold execCxlIoRequest at h
  injection h with h
  subst h
  have hk := Kept.refl s
  repeat' first | intro _ | (with_reducible first | assumption | apply kept_refresh | apply kept_cxlIoRequest | apply Kept.ite | fail_if_no_progress apply Kept.rest) | dsimp only | split

theorem kept_execAtsTranslationCompletion {e : Fin 64} {iova : BitVec 64} {size : Nat} {host : BitVec 64} {r w : Bool} {cpl : CplStat} {s z : State} (h : execAtsTranslationCompletion e iova size host r w cpl s = .next z) : Kept s z := by
  unfold execAtsTranslationCompletion at h
  injection h with h
  subst h
  have hk := Kept.refl s
  repeat' first | intro _ | (with_reducible first | assumption | apply kept_refresh | apply kept_atsTranslationCompletion | apply Kept.ite | fail_if_no_progress apply Kept.rest) | dsimp only | split

theorem kept_execPrgResponse {e : Fin 64} {code : PrgCode} {s z : State} (h : execPrgResponse e code s = .next z) : Kept s z := by
  unfold execPrgResponse at h
  injection h with h
  subst h
  have hk := Kept.refl s
  repeat' first | intro _ | (with_reducible first | assumption | apply kept_refresh | apply kept_prgResponse | apply Kept.ite | fail_if_no_progress apply Kept.rest) | dsimp only | split

theorem kept_execFaultLimitExpiry {e : Fin 64} {s z : State} (h : execFaultLimitExpiry e s = .next z) : Kept s z := by
  unfold execFaultLimitExpiry at h
  injection h with h
  subst h
  have hk := Kept.refl s
  repeat' first | intro _ | (with_reducible first | assumption | apply kept_refresh | apply kept_sendPageReqs | apply kept_pageLost | apply Kept.ite | fail_if_no_progress apply Kept.rest) | dsimp only | split

theorem kept_execHostReadCompletion {tag : Nat} {cpl : CplStat} {data : List Byte} {poison : Bool} {s z : State} (h : execHostReadCompletion tag cpl data poison s = .next z) : Kept s z := by
  unfold execHostReadCompletion at h
  injection h with h
  subst h
  have hk := Kept.refl s
  repeat' first | intro _ | (with_reducible first | assumption | apply kept_refresh | apply kept_hostReadEnds | apply Kept.ite | fail_if_no_progress apply Kept.rest) | dsimp only | split

theorem kept_execHostCompletionTimeout {tag : Nat} {s z : State} (h : execHostCompletionTimeout tag s = .next z) : Kept s z := by
  unfold execHostCompletionTimeout at h
  injection h with h
  subst h
  have hk := Kept.refl s
  repeat' first | intro _ | (with_reducible first | assumption | apply kept_refresh | apply kept_hostCompletionTimeout | apply Kept.ite | fail_if_no_progress apply Kept.rest) | dsimp only | split

theorem kept_execVifAttach {v : Fin 1024} {val : Word} {s z : State} (h : execVifAttach v val s = .next z) : Kept s z := by
  unfold execVifAttach at h
  injection h with h
  subst h
  have hk := Kept.refl s
  repeat' first | intro _ | (with_reducible first | assumption | apply kept_refresh | apply kept_vifAttach | apply Kept.ite | fail_if_no_progress apply Kept.rest) | dsimp only | split

theorem kept_execVifDetach {v : Fin 1024} {s z : State} (h : execVifDetach v s = .next z) : Kept s z := by
  unfold execVifDetach at h
  injection h with h
  subst h
  have hk := Kept.refl s
  repeat' first | intro _ | (with_reducible first | assumption | apply kept_refresh | apply kept_vifDetach | apply Kept.ite | fail_if_no_progress apply Kept.rest) | dsimp only | split

theorem kept_execVifLease {v : Fin 1024} {s z : State} (h : execVifLease v s = .next z) : Kept s z := by
  unfold execVifLease at h
  injection h with h
  subst h
  have hk := Kept.refl s
  repeat' first | intro _ | (with_reducible first | assumption | apply kept_vifLease | apply Kept.ite | fail_if_no_progress apply Kept.rest) | dsimp only | split

theorem kept_execLeaseWarn {v : Fin 1024} {s z : State} (h : execLeaseWarn v s = .next z) : Kept s z := by
  unfold execLeaseWarn at h
  injection h with h
  subst h
  have hk := Kept.refl s
  repeat' first | intro _ | (with_reducible first | assumption | apply kept_leaseWarn | apply Kept.ite | fail_if_no_progress apply Kept.rest) | dsimp only | split

theorem kept_execLeaseExpiry {v : Fin 1024} {s z : State} (h : execLeaseExpiry v s = .next z) : Kept s z := by
  unfold execLeaseExpiry at h
  injection h with h
  subst h
  have hk := Kept.refl s
  repeat' first | intro _ | (with_reducible first | assumption | apply kept_refresh | apply kept_leaseExpiry | apply Kept.ite | fail_if_no_progress apply Kept.rest) | dsimp only | split

theorem kept_execPfQuiesce {s z : State} (h : execPfQuiesce s = .next z) : Kept s z := by
  unfold execPfQuiesce at h
  injection h with h
  subst h
  have hk := Kept.refl s
  repeat' first | intro _ | (with_reducible first | assumption | apply kept_refresh | apply kept_requestQuiesce | apply Kept.ite | fail_if_no_progress apply Kept.rest) | dsimp only | split

theorem kept_execPfDetach {s z : State} (h : execPfDetach s = .next z) : Kept s z := by
  unfold execPfDetach at h
  injection h with h
  subst h
  have hk := Kept.refl s
  repeat' first | intro _ | (with_reducible first | assumption | apply kept_refresh | apply kept_vifDetach | apply Kept.ite | fail_if_no_progress apply Kept.rest) | dsimp only | split

theorem kept_execFetchSlot {v : Fin 1024} {s z : State} (h : execFetchSlot v s = .next z) : Kept s z := by
  unfold execFetchSlot at h
  injection h with h
  subst h
  have hk := Kept.refl s
  repeat' first | intro _ | (with_reducible first | assumption | apply kept_refresh | apply kept_fetchSlot | apply Kept.ite | fail_if_no_progress apply Kept.rest) | dsimp only | split

theorem kept_execRingReadCompletion {v : Fin 1024} {cpl : CplStat} {data : List (BitVec 512)} {s z : State} (h : execRingReadCompletion v cpl data s = .next z) : Kept s z := by
  unfold execRingReadCompletion at h
  injection h with h
  subst h
  have hk := Kept.refl s
  repeat' first | intro _ | (with_reducible first | assumption | apply kept_refresh | apply kept_ringReadCompletion | apply Kept.ite | fail_if_no_progress apply Kept.rest) | dsimp only | split

theorem kept_execCmdNop {v : Fin 1024} {s z : State} (h : execCmdNop v s = .next z) : Kept s z := by
  unfold execCmdNop at h
  injection h with h
  subst h
  have hk := Kept.refl s
  repeat' first | intro _ | (with_reducible first | assumption | apply kept_cmdDeliver | apply Kept.ite | fail_if_no_progress apply Kept.rest) | dsimp only | split

theorem kept_execCmdTransfer {v : Fin 1024} {s z : State} (h : execCmdTransfer v s = .next z) : Kept s z := by
  unfold execCmdTransfer at h
  injection h with h
  subst h
  have hk := Kept.refl s
  repeat' first | intro _ | (with_reducible first | assumption | apply kept_cmdDeliver | apply Kept.ite | fail_if_no_progress apply Kept.rest) | dsimp only | split

theorem kept_execCmdBarrier {v : Fin 1024} {s z : State} (h : execCmdBarrier v s = .next z) : Kept s z := by
  unfold execCmdBarrier at h
  injection h with h
  subst h
  have hk := Kept.refl s
  repeat' first | intro _ | (with_reducible first | assumption | apply kept_cmdDeliver | apply Kept.ite | fail_if_no_progress apply Kept.rest) | dsimp only | split

theorem kept_execCmdWaitStep {v : Fin 1024} {s z : State} (h : execCmdWaitStep v s = .next z) : Kept s z := by
  unfold execCmdWaitStep at h
  injection h with h
  subst h
  have hk := Kept.refl s
  repeat' first | intro _ | (with_reducible first | assumption | apply kept_cmdDeliver | apply Kept.ite | fail_if_no_progress apply Kept.rest) | dsimp only | split

theorem kept_execHstAttach {val : Word} {s z : State} (h : execHstAttach val s = .next z) : Kept s z := by
  unfold execHstAttach at h
  injection h with h
  subst h
  have hk := Kept.refl s
  repeat' first | intro _ | (with_reducible first | assumption | apply kept_refresh | apply kept_hstAttach | apply Kept.ite | fail_if_no_progress apply Kept.rest) | dsimp only | split

theorem kept_execHstDrvLease {s z : State} (h : execHstDrvLease s = .next z) : Kept s z := by
  unfold execHstDrvLease at h
  injection h with h
  subst h
  have hk := Kept.refl s
  repeat' first | intro _ | (with_reducible first | assumption | apply Kept.ite | fail_if_no_progress apply Kept.rest) | dsimp only | split

theorem kept_execDrvLeaseExpiry {s z : State} (h : execDrvLeaseExpiry s = .next z) : Kept s z := by
  unfold execDrvLeaseExpiry at h
  injection h with h
  subst h
  have hk := Kept.refl s
  repeat' first | intro _ | (with_reducible first | assumption | apply kept_refresh | apply kept_drvLeaseExpiry | apply Kept.ite | fail_if_no_progress apply Kept.rest) | dsimp only | split

theorem kept_execDrvDetach {s z : State} (h : execDrvDetach s = .next z) : Kept s z := by
  unfold execDrvDetach at h
  injection h with h
  subst h
  have hk := Kept.refl s
  repeat' first | intro _ | (with_reducible first | assumption | apply kept_refresh | apply kept_stopDma | apply Kept.ite | fail_if_no_progress apply Kept.rest) | dsimp only | split

theorem kept_execBusMasterDisable {s z : State} (h : execBusMasterDisable s = .next z) : Kept s z := by
  unfold execBusMasterDisable at h
  injection h with h
  subst h
  have hk := Kept.refl s
  repeat' first | intro _ | (with_reducible first | assumption | apply kept_refresh | apply kept_stopDma | apply Kept.ite | fail_if_no_progress apply Kept.rest) | dsimp only | split

theorem kept_execBusMasterEnable {s z : State} (h : execBusMasterEnable s = .next z) : Kept s z := by
  unfold execBusMasterEnable at h
  injection h with h
  subst h
  have hk := Kept.refl s
  repeat' first | intro _ | (with_reducible first | assumption | apply Kept.ite | fail_if_no_progress apply Kept.rest) | dsimp only | split

theorem kept_execFunctionLevelReset {s z : State} (h : execFunctionLevelReset s = .next z) : Kept s z := by
  unfold execFunctionLevelReset at h
  injection h with h
  subst h
  have hk := Kept.refl s
  repeat' first | intro _ | (with_reducible first | assumption | apply kept_refresh | apply kept_stopDma | apply kept_resetHostIsland | apply Kept.ite | fail_if_no_progress apply Kept.rest) | dsimp only | split

theorem kept_execPerstAssert {s z : State} (h : execPerstAssert s = .next z) : Kept s z := by
  unfold execPerstAssert at h
  injection h with h
  subst h
  have hk := Kept.refl s
  repeat' first | intro _ | (with_reducible first | assumption | apply kept_refresh | apply kept_perstAssert | apply Kept.ite | fail_if_no_progress apply Kept.rest) | dsimp only | split

theorem kept_execPerstRelease {rate width : Nat} {flit : Bool} {s z : State} (h : execPerstRelease rate width flit s = .next z) : Kept s z := by
  unfold execPerstRelease at h
  injection h with h
  subst h
  have hk := Kept.refl s
  repeat' first | intro _ | (with_reducible first | assumption | apply kept_linkCame | apply Kept.ite | fail_if_no_progress apply Kept.rest) | dsimp only | split

theorem kept_execPcieLinkUp {rate width : Nat} {flit : Bool} {s z : State} (h : execPcieLinkUp rate width flit s = .next z) : Kept s z := by
  unfold execPcieLinkUp at h
  injection h with h
  subst h
  have hk := Kept.refl s
  repeat' first | intro _ | (with_reducible first | assumption | apply kept_linkCame | apply Kept.ite | fail_if_no_progress apply Kept.rest) | dsimp only | split

theorem kept_execPcieLinkDown {s z : State} (h : execPcieLinkDown s = .next z) : Kept s z := by
  unfold execPcieLinkDown at h
  injection h with h
  subst h
  have hk := Kept.refl s
  repeat' first | intro _ | (with_reducible first | assumption | apply kept_refresh | apply kept_pcieLinkDown | apply Kept.ite | fail_if_no_progress apply Kept.rest) | dsimp only | split

theorem kept_execD3hotEntry {s z : State} (h : execD3hotEntry s = .next z) : Kept s z := by
  unfold execD3hotEntry at h
  injection h with h
  subst h
  have hk := Kept.refl s
  repeat' first | intro _ | (with_reducible first | assumption | apply kept_refresh | apply kept_stopDma | apply Kept.ite | fail_if_no_progress apply Kept.rest) | dsimp only | split

theorem kept_execD0Entry {s z : State} (h : execD0Entry s = .next z) : Kept s z := by
  unfold execD0Entry at h
  injection h with h
  subst h
  have hk := Kept.refl s
  repeat' first | intro _ | (with_reducible first | assumption | apply Kept.ite | fail_if_no_progress apply Kept.rest) | dsimp only | split

theorem kept_execInterruptDisableWrite {disable : Bool} {s z : State} (h : execInterruptDisableWrite disable s = .next z) : Kept s z := by
  unfold execInterruptDisableWrite at h
  injection h with h
  subst h
  have hk := Kept.refl s
  repeat' first | intro _ | (with_reducible first | assumption | apply kept_refreshInt | apply Kept.ite | fail_if_no_progress apply Kept.rest) | dsimp only | split

theorem kept_execMapDevice {tag : BitVec 8} {s z : State} (h : execMapDevice tag s = .next z) : Kept s z := by
  unfold execMapDevice at h
  injection h with h
  subst h
  have hk := Kept.refl s
  repeat' first | intro _ | (with_reducible first | assumption | apply kept_mbCommand | apply kept_mapDevice | apply Kept.ite | fail_if_no_progress apply Kept.rest) | dsimp only | split

theorem kept_execUnmapDevice {tag : BitVec 8} {s z : State} (h : execUnmapDevice tag s = .next z) : Kept s z := by
  unfold execUnmapDevice at h
  injection h with h
  subst h
  have hk := Kept.refl s
  repeat' first | intro _ | (with_reducible first | assumption | apply kept_mbCommand | apply kept_unmapDevice | apply Kept.ite | fail_if_no_progress apply Kept.rest) | dsimp only | split

theorem kept_execUNop {c : Fin 2048} {s z : State} (h : execUNop c s = .next z) : Kept s z := by
  unfold execUNop at h
  injection h with h
  subst h
  have hk := Kept.refl s
  repeat' first | intro _ | (with_reducible first | assumption | apply kept_uNop | apply Kept.ite | fail_if_no_progress apply Kept.rest) | dsimp only | split

theorem kept_execUEnd {c : Fin 2048} {s z : State} (h : execUEnd c s = .next z) : Kept s z := by
  unfold execUEnd at h
  injection h with h
  subst h
  have hk := Kept.refl s
  repeat' first | intro _ | (with_reducible first | assumption | apply kept_uEnd | apply Kept.ite | fail_if_no_progress apply Kept.rest) | dsimp only | split

theorem kept_execULoop {c : Fin 2048} {s z : State} (h : execULoop c s = .next z) : Kept s z := by
  unfold execULoop at h
  injection h with h
  subst h
  have hk := Kept.refl s
  repeat' first | intro _ | (with_reducible first | assumption | apply kept_uLoop | apply Kept.ite | fail_if_no_progress apply Kept.rest) | dsimp only | split

theorem kept_execUWaitp {c : Fin 2048} {s z : State} (h : execUWaitp c s = .next z) : Kept s z := by
  unfold execUWaitp at h
  injection h with h
  subst h
  have hk := Kept.refl s
  repeat' first | intro _ | (with_reducible first | assumption | apply kept_uWaitp | apply Kept.ite | fail_if_no_progress apply Kept.rest) | dsimp only | split

theorem kept_execUSync {c : Fin 2048} {s z : State} (h : execUSync c s = .next z) : Kept s z := by
  unfold execUSync at h
  injection h with h
  subst h
  have hk := Kept.refl s
  repeat' first | intro _ | (with_reducible first | assumption | apply kept_uSync | apply Kept.ite | fail_if_no_progress apply Kept.rest) | dsimp only | split

theorem kept_execULd {c : Fin 2048} {ecc : Ecc} {s z : State} (h : execULd c ecc s = .next z) : Kept s z := by
  unfold execULd at h
  injection h with h
  subst h
  have hk := Kept.refl s
  repeat' first | intro _ | (with_reducible first | assumption | apply kept_uLd | apply Kept.ite | fail_if_no_progress apply Kept.rest) | dsimp only | split

theorem kept_execUSt {c : Fin 2048} {ecc : Ecc} {s z : State} (h : execUSt c ecc s = .next z) : Kept s z := by
  unfold execUSt at h
  injection h with h
  subst h
  have hk := Kept.refl s
  repeat' first | intro _ | (with_reducible first | assumption | apply kept_uSt | apply Kept.ite | fail_if_no_progress apply Kept.rest) | dsimp only | split

theorem kept_execUGet {c : Fin 2048} {s z : State} (h : execUGet c s = .next z) : Kept s z := by
  unfold execUGet at h
  injection h with h
  subst h
  have hk := Kept.refl s
  repeat' first | intro _ | (with_reducible first | assumption | apply kept_uGet | apply Kept.ite | fail_if_no_progress apply Kept.rest) | dsimp only | split

theorem kept_execUPut {c : Fin 2048} {s z : State} (h : execUPut c s = .next z) : Kept s z := by
  unfold execUPut at h
  injection h with h
  subst h
  have hk := Kept.refl s
  repeat' first | intro _ | (with_reducible first | assumption | apply kept_uPut | apply Kept.ite | fail_if_no_progress apply Kept.rest) | dsimp only | split

theorem kept_execULdc {c : Fin 2048} {ecc : Ecc} {s z : State} (h : execULdc c ecc s = .next z) : Kept s z := by
  unfold execULdc at h
  injection h with h
  subst h
  have hk := Kept.refl s
  repeat' first | intro _ | (with_reducible first | assumption | apply kept_uLdc | apply Kept.ite | fail_if_no_progress apply Kept.rest) | dsimp only | split

theorem kept_execUGather {c : Fin 2048} {s z : State} (h : execUGather c s = .next z) : Kept s z := by
  unfold execUGather at h
  injection h with h
  subst h
  have hk := Kept.refl s
  repeat' first | intro _ | (with_reducible first | assumption | apply kept_uGather | apply Kept.ite | fail_if_no_progress apply Kept.rest) | dsimp only | split

theorem kept_execUScatter {c : Fin 2048} {s z : State} (h : execUScatter c s = .next z) : Kept s z := by
  unfold execUScatter at h
  injection h with h
  subst h
  have hk := Kept.refl s
  repeat' first | intro _ | (with_reducible first | assumption | apply kept_uScatter | apply Kept.ite | fail_if_no_progress apply Kept.rest) | dsimp only | split

theorem kept_execUAdd {c : Fin 2048} {s z : State} (h : execUAdd c s = .next z) : Kept s z := by
  unfold execUAdd at h
  injection h with h
  subst h
  have hk := Kept.refl s
  repeat' first | intro _ | (with_reducible first | assumption | apply kept_uAdd | apply Kept.ite | fail_if_no_progress apply Kept.rest) | dsimp only | split

theorem kept_execUSub {c : Fin 2048} {s z : State} (h : execUSub c s = .next z) : Kept s z := by
  unfold execUSub at h
  injection h with h
  subst h
  have hk := Kept.refl s
  repeat' first | intro _ | (with_reducible first | assumption | apply kept_uSub | apply Kept.ite | fail_if_no_progress apply Kept.rest) | dsimp only | split

theorem kept_execUMul {c : Fin 2048} {s z : State} (h : execUMul c s = .next z) : Kept s z := by
  unfold execUMul at h
  injection h with h
  subst h
  have hk := Kept.refl s
  repeat' first | intro _ | (with_reducible first | assumption | apply kept_uMul | apply Kept.ite | fail_if_no_progress apply Kept.rest) | dsimp only | split

theorem kept_execUFma {c : Fin 2048} {s z : State} (h : execUFma c s = .next z) : Kept s z := by
  unfold execUFma at h
  injection h with h
  subst h
  have hk := Kept.refl s
  repeat' first | intro _ | (with_reducible first | assumption | apply kept_uFma | apply Kept.ite | fail_if_no_progress apply Kept.rest) | dsimp only | split

theorem kept_execUMax {c : Fin 2048} {s z : State} (h : execUMax c s = .next z) : Kept s z := by
  unfold execUMax at h
  injection h with h
  subst h
  have hk := Kept.refl s
  repeat' first | intro _ | (with_reducible first | assumption | apply kept_uMax | apply Kept.ite | fail_if_no_progress apply Kept.rest) | dsimp only | split

theorem kept_execUMin {c : Fin 2048} {s z : State} (h : execUMin c s = .next z) : Kept s z := by
  unfold execUMin at h
  injection h with h
  subst h
  have hk := Kept.refl s
  repeat' first | intro _ | (with_reducible first | assumption | apply kept_uMin | apply Kept.ite | fail_if_no_progress apply Kept.rest) | dsimp only | split

theorem kept_execUSel {c : Fin 2048} {s z : State} (h : execUSel c s = .next z) : Kept s z := by
  unfold execUSel at h
  injection h with h
  subst h
  have hk := Kept.refl s
  repeat' first | intro _ | (with_reducible first | assumption | apply kept_uSel | apply Kept.ite | fail_if_no_progress apply Kept.rest) | dsimp only | split

theorem kept_execUCmul {c : Fin 2048} {s z : State} (h : execUCmul c s = .next z) : Kept s z := by
  unfold execUCmul at h
  injection h with h
  subst h
  have hk := Kept.refl s
  repeat' first | intro _ | (with_reducible first | assumption | apply kept_uCmul | apply Kept.ite | fail_if_no_progress apply Kept.rest) | dsimp only | split

theorem kept_execUSfu {c : Fin 2048} {s z : State} (h : execUSfu c s = .next z) : Kept s z := by
  unfold execUSfu at h
  injection h with h
  subst h
  have hk := Kept.refl s
  repeat' first | intro _ | (with_reducible first | assumption | apply kept_uSfu | apply Kept.ite | fail_if_no_progress apply Kept.rest) | dsimp only | split

theorem kept_execUCvt {c : Fin 2048} {s z : State} (h : execUCvt c s = .next z) : Kept s z := by
  unfold execUCvt at h
  injection h with h
  subst h
  have hk := Kept.refl s
  repeat' first | intro _ | (with_reducible first | assumption | apply kept_uCvt | apply Kept.ite | fail_if_no_progress apply Kept.rest) | dsimp only | split

theorem kept_execUMxpack {c : Fin 2048} {s z : State} (h : execUMxpack c s = .next z) : Kept s z := by
  unfold execUMxpack at h
  injection h with h
  subst h
  have hk := Kept.refl s
  repeat' first | intro _ | (with_reducible first | assumption | apply kept_uMxpack | apply Kept.ite | fail_if_no_progress apply Kept.rest) | dsimp only | split

theorem kept_execUMxunpack {c : Fin 2048} {s z : State} (h : execUMxunpack c s = .next z) : Kept s z := by
  unfold execUMxunpack at h
  injection h with h
  subst h
  have hk := Kept.refl s
  repeat' first | intro _ | (with_reducible first | assumption | apply kept_uMxunpack | apply Kept.ite | fail_if_no_progress apply Kept.rest) | dsimp only | split

theorem kept_execUDot {c : Fin 2048} {s z : State} (h : execUDot c s = .next z) : Kept s z := by
  unfold execUDot at h
  injection h with h
  subst h
  have hk := Kept.refl s
  repeat' first | intro _ | (with_reducible first | assumption | apply kept_uDot | apply Kept.ite | fail_if_no_progress apply Kept.rest) | dsimp only | split

theorem kept_execULsum {c : Fin 2048} {s z : State} (h : execULsum c s = .next z) : Kept s z := by
  unfold execULsum at h
  injection h with h
  subst h
  have hk := Kept.refl s
  repeat' first | intro _ | (with_reducible first | assumption | apply kept_uLsum | apply Kept.ite | fail_if_no_progress apply Kept.rest) | dsimp only | split

theorem kept_execUGmax {c : Fin 2048} {s z : State} (h : execUGmax c s = .next z) : Kept s z := by
  unfold execUGmax at h
  injection h with h
  subst h
  have hk := Kept.refl s
  repeat' first | intro _ | (with_reducible first | assumption | apply kept_uGmax | apply Kept.ite | fail_if_no_progress apply Kept.rest) | dsimp only | split

theorem kept_execUGq {c : Fin 2048} {s z : State} (h : execUGq c s = .next z) : Kept s z := by
  unfold execUGq at h
  injection h with h
  subst h
  have hk := Kept.refl s
  repeat' first | intro _ | (with_reducible first | assumption | apply kept_uGq | apply Kept.ite | fail_if_no_progress apply Kept.rest) | dsimp only | split

theorem kept_execUGadd {c : Fin 2048} {s z : State} (h : execUGadd c s = .next z) : Kept s z := by
  unfold execUGadd at h
  injection h with h
  subst h
  have hk := Kept.refl s
  repeat' first | intro _ | (with_reducible first | assumption | apply kept_uGadd | apply Kept.ite | fail_if_no_progress apply Kept.rest) | dsimp only | split

theorem kept_execUGrnd {c : Fin 2048} {s z : State} (h : execUGrnd c s = .next z) : Kept s z := by
  unfold execUGrnd at h
  injection h with h
  subst h
  have hk := Kept.refl s
  repeat' first | intro _ | (with_reducible first | assumption | apply kept_uGrnd | apply Kept.ite | fail_if_no_progress apply Kept.rest) | dsimp only | split

theorem kept_execUShuf {c : Fin 2048} {s z : State} (h : execUShuf c s = .next z) : Kept s z := by
  unfold execUShuf at h
  injection h with h
  subst h
  have hk := Kept.refl s
  repeat' first | intro _ | (with_reducible first | assumption | apply kept_uShuf | apply Kept.ite | fail_if_no_progress apply Kept.rest) | dsimp only | split

theorem kept_execURng {c : Fin 2048} {s z : State} (h : execURng c s = .next z) : Kept s z := by
  unfold execURng at h
  injection h with h
  subst h
  have hk := Kept.refl s
  repeat' first | intro _ | (with_reducible first | assumption | apply kept_uRng | apply Kept.ite | fail_if_no_progress apply Kept.rest) | dsimp only | split

theorem kept_execCellFault {c : Fin 2048} {what : CellPart} {s z : State} (h : execCellFault c what s = .next z) : Kept s z := by
  unfold execCellFault at h
  injection h with h
  subst h
  have hk := Kept.refl s
  repeat' first | intro _ | (with_reducible first | assumption | apply kept_cellFault | apply Kept.ite | fail_if_no_progress apply Kept.rest) | dsimp only | split

theorem kept_execFabColFence {k : Fin 128} {s z : State} (h : execFabColFence k s = .next z) : Kept s z := by
  unfold execFabColFence at h
  injection h with h
  subst h
  have hk := Kept.refl s
  repeat' first | intro _ | (with_reducible first | assumption | apply kept_requestColFence | apply Kept.ite | fail_if_no_progress apply Kept.rest) | dsimp only | split

theorem kept_execFabColRemap {k : Fin 128} {row : Fin 16} {s z : State} (h : execFabColRemap k row s = .next z) : Kept s z := by
  unfold execFabColRemap at h
  injection h with h
  subst h
  have hk := Kept.refl s
  repeat' first | intro _ | (with_reducible first | assumption | apply kept_fabColRemap | apply Kept.ite | fail_if_no_progress apply Kept.rest) | dsimp only | split

theorem kept_execCfgBcast {q : Fin 4} {cols : BitVec 32} {rows : BitVec 16} {slot : Fin 8} {img : BitVec 16384} {s z : State} (h : execCfgBcast q cols rows slot img s = .next z) : Kept s z := by
  unfold execCfgBcast at h
  injection h with h
  subst h
  have hk := Kept.refl s
  repeat' first | intro _ | (with_reducible first | assumption | apply kept_cfgBcast | apply Kept.ite | fail_if_no_progress apply Kept.rest) | dsimp only | split

theorem kept_execLoadImage {tag : BitVec 8} {s z : State} (h : execLoadImage tag s = .next z) : Kept s z := by
  unfold execLoadImage at h
  injection h with h
  subst h
  have hk := Kept.refl s
  repeat' first | intro _ | (with_reducible first | assumption | apply kept_mbCommand | apply kept_loadImage | apply Kept.ite | fail_if_no_progress apply Kept.rest) | dsimp only | split

theorem kept_execWriteBootImage {tag : BitVec 8} {s z : State} (h : execWriteBootImage tag s = .next z) : Kept s z := by
  unfold execWriteBootImage at h
  injection h with h
  subst h
  have hk := Kept.refl s
  repeat' first | intro _ | (with_reducible first | assumption | apply kept_mbCommand | apply kept_writeBootImage | apply Kept.ite | fail_if_no_progress apply Kept.rest) | dsimp only | split

theorem kept_execImageFetchDone {bytes : List Byte} {s z : State} (h : execImageFetchDone bytes s = .next z) : Kept s z := by
  unfold execImageFetchDone at h
  injection h with h
  subst h
  have hk := Kept.refl s
  repeat' first | intro _ | (with_reducible first | assumption | apply kept_imageFetchDone | apply Kept.ite | fail_if_no_progress apply Kept.rest) | dsimp only | split

theorem kept_execImageValidationDone {s z : State} (h : execImageValidationDone s = .next z) : Kept s z := by
  unfold execImageValidationDone at h
  injection h with h
  subst h
  have hk := Kept.refl s
  repeat' first | intro _ | (with_reducible first | assumption | apply kept_imageValidationDone | apply Kept.ite | fail_if_no_progress apply Kept.rest) | dsimp only | split

theorem kept_execFullImageActivate {s z : State} (h : execFullImageActivate s = .next z) : Kept s z := by
  unfold execFullImageActivate at h
  injection h with h
  subst h
  have hk := Kept.refl s
  repeat' first | intro _ | (with_reducible first | assumption | apply kept_fullImageActivate | apply Kept.ite | fail_if_no_progress apply Kept.rest) | dsimp only | split

theorem kept_execPartialImageActivate {p : Fin 64} {s z : State} (h : execPartialImageActivate p s = .next z) : Kept s z := by
  unfold execPartialImageActivate at h
  injection h with h
  subst h
  have hk := Kept.refl s
  repeat' first | intro _ | (with_reducible first | assumption | apply kept_partialImageActivate | apply Kept.ite | fail_if_no_progress apply Kept.rest) | dsimp only | split

theorem kept_execReadReport {tag : BitVec 8} {s z : State} (h : execReadReport tag s = .next z) : Kept s z := by
  unfold execReadReport at h
  injection h with h
  subst h
  have hk := Kept.refl s
  repeat' first | intro _ | (with_reducible first | assumption | apply kept_mbCommand | apply kept_readReport | apply Kept.ite | fail_if_no_progress apply Kept.rest) | dsimp only | split

theorem kept_execHbmScrub {m : Fin 6} {found : List (Nat × Ecc)} {s z : State} (h : execHbmScrub m found s = .next z) : Kept s z := by
  unfold execHbmScrub at h
  injection h with h
  subst h
  have hk := Kept.refl s
  repeat' first | intro _ | (with_reducible first | assumption | apply kept_hbmScrub | apply Kept.ite | fail_if_no_progress apply Kept.rest) | dsimp only | split

theorem kept_execSramScrub {found : List (Nat × Ecc)} {s z : State} (h : execSramScrub found s = .next z) : Kept s z := by
  unfold execSramScrub at h
  injection h with h
  subst h
  have hk := Kept.refl s
  repeat' first | intro _ | (with_reducible first | assumption | apply kept_sramScrub | apply Kept.ite | fail_if_no_progress apply Kept.rest) | dsimp only | split

theorem kept_execHbmRecalibration {m : Fin 6} {ch : Fin 32} {trained : Bool} {s z : State} (h : execHbmRecalibration m ch trained s = .next z) : Kept s z := by
  unfold execHbmRecalibration at h
  injection h with h
  subst h
  have hk := Kept.refl s
  repeat' first | intro _ | (with_reducible first | assumption | apply kept_refresh | apply kept_hbmRecalibration | apply Kept.ite | fail_if_no_progress apply Kept.rest) | dsimp only | split

theorem kept_execZeroingDone {u : ZeroUnit} {ok : Bool} {s z : State} (h : execZeroingDone u ok s = .next z) : Kept s z := by
  unfold execZeroingDone at h
  injection h with h
  subst h
  have hk := Kept.refl s
  repeat' first | intro _ | (with_reducible first | assumption | apply kept_refresh | apply kept_zeroingDone | apply Kept.ite | fail_if_no_progress apply Kept.rest) | dsimp only | split

theorem kept_execRowRepair {pa : Nat} {badLines : List Nat} {s z : State} (h : execRowRepair pa badLines s = .next z) : Kept s z := by
  unfold execRowRepair at h
  injection h with h
  subst h
  have hk := Kept.refl s
  repeat' first | intro _ | (with_reducible first | assumption | apply kept_refresh | apply kept_rowRepair | apply Kept.ite | fail_if_no_progress apply Kept.rest) | dsimp only | split

theorem kept_execSrmBankFence {b : Fin 64} {s z : State} (h : execSrmBankFence b s = .next z) : Kept s z := by
  unfold execSrmBankFence at h
  injection h with h
  subst h
  have hk := Kept.refl s
  repeat' first | intro _ | (with_reducible first | assumption | apply kept_requestBankFence | apply Kept.ite | fail_if_no_progress apply Kept.rest) | dsimp only | split

theorem kept_execSrmBankReadmit {b : Fin 64} {s z : State} (h : execSrmBankReadmit b s = .next z) : Kept s z := by
  unfold execSrmBankReadmit at h
  injection h with h
  subst h
  have hk := Kept.refl s
  repeat' first | intro _ | (with_reducible first | assumption | apply kept_srmBankReadmit | apply Kept.ite | fail_if_no_progress apply Kept.rest) | dsimp only | split

theorem kept_execMemChFence {m : Fin 6} {ch : Fin 32} {s z : State} (h : execMemChFence m ch s = .next z) : Kept s z := by
  unfold execMemChFence at h
  injection h with h
  subst h
  have hk := Kept.refl s
  repeat' first | intro _ | (with_reducible first | assumption | apply kept_requestChanFence | apply Kept.ite | fail_if_no_progress apply Kept.rest) | dsimp only | split

theorem kept_execMemChReadmit {m : Fin 6} {ch : Fin 32} {s z : State} (h : execMemChReadmit m ch s = .next z) : Kept s z := by
  unfold execMemChReadmit at h
  injection h with h
  subst h
  have hk := Kept.refl s
  repeat' first | intro _ | (with_reducible first | assumption | apply kept_memChReadmit | apply Kept.ite | fail_if_no_progress apply Kept.rest) | dsimp only | split

theorem kept_execCohWinWrite {w : Fin 16} {val : Word} {s z : State} (h : execCohWinWrite w val s = .next z) : Kept s z := by
  unfold execCohWinWrite at h
  injection h with h
  subst h
  have hk := Kept.refl s
  repeat' first | intro _ | (with_reducible first | assumption | apply kept_cohWinWrite | apply Kept.ite | fail_if_no_progress apply Kept.rest) | dsimp only | split

theorem kept_execStackRailShort {m : Fin 6} {s z : State} (h : execStackRailShort m s = .next z) : Kept s z := by
  unfold execStackRailShort at h
  injection h with h
  subst h
  have hk := Kept.refl s
  repeat' first | intro _ | (with_reducible first | assumption | apply kept_refresh | apply kept_stackRailShort | apply Kept.ite | fail_if_no_progress apply Kept.rest) | dsimp only | split

theorem kept_execHubReset {x : StartIn} {s z : State} (h : execHubReset x s = .next z) : Kept s z := by
  unfold execHubReset at h
  injection h with h
  subst h
  have hk := Kept.refl s
  repeat' first | intro _ | (with_reducible first | assumption | apply kept_hubReset | apply Kept.ite | fail_if_no_progress apply Kept.rest) | dsimp only | split

theorem kept_execStartComplete {s z : State} (h : execStartComplete s = .next z) : Kept s z := by
  unfold execStartComplete at h
  injection h with h
  subst h
  have hk := Kept.refl s
  repeat' first | intro _ | (with_reducible first | assumption | apply kept_startComplete | apply Kept.ite | fail_if_no_progress apply Kept.rest) | dsimp only | split

theorem kept_execStartWatchdogExpiry {x : StartIn} {s z : State} (h : execStartWatchdogExpiry x s = .next z) : Kept s z := by
  unfold execStartWatchdogExpiry at h
  injection h with h
  subst h
  have hk := Kept.refl s
  repeat' first | intro _ | (with_reducible first | assumption | apply kept_hubReset | apply Kept.ite | fail_if_no_progress apply Kept.rest) | dsimp only | split

theorem kept_execLcsRequest {path : LcsPath} {target : BitVec 3} {burn : Burn} {s z : State} (h : execLcsRequest path target burn s = .next z) : Kept s z := by
  unfold execLcsRequest at h
  injection h with h
  subst h
  have hk := Kept.refl s
  repeat' first | intro _ | (with_reducible first | assumption | apply kept_lcsRequest | apply Kept.ite | fail_if_no_progress apply Kept.rest) | dsimp only | split

theorem kept_execOtpProgram {path : LcsPath} {tag : BitVec 8} {field : Nat} {value : List Byte} {burn : Burn} {s z : State} (h : execOtpProgram path tag field value burn s = .next z) : Kept s z := by
  unfold execOtpProgram at h
  injection h with h
  subst h
  have hk := Kept.refl s
  repeat' first | intro _ | (with_reducible first | assumption | apply kept_mbCommand | apply kept_otpProgram | apply kept_otpProgramBar0 | apply Kept.ite | fail_if_no_progress apply Kept.rest) | dsimp only | split

theorem kept_execOpenErase {s z : State} (h : execOpenErase s = .next z) : Kept s z := by
  unfold execOpenErase at h
  injection h with h
  subst h
  have hk := Kept.refl s
  repeat' first | intro _ | (with_reducible first | assumption | apply kept_refresh | apply kept_openErase | apply Kept.ite | fail_if_no_progress apply Kept.rest) | dsimp only | split

theorem kept_execOpenCert {cert : BitVec 2048} {s z : State} (h : execOpenCert cert s = .next z) : Kept s z := by
  unfold execOpenCert at h
  injection h with h
  subst h
  have hk := Kept.refl s
  repeat' first | intro _ | (with_reducible first | assumption | apply kept_refresh | apply kept_openCert | apply Kept.ite | fail_if_no_progress apply Kept.rest) | dsimp only | split

theorem kept_execTapClose {s z : State} (h : execTapClose s = .next z) : Kept s z := by
  unfold execTapClose at h
  injection h with h
  subst h
  have hk := Kept.refl s
  repeat' first | intro _ | (with_reducible first | assumption | apply kept_refresh | apply kept_closeDebug | apply Kept.ite | fail_if_no_progress apply Kept.rest) | dsimp only | split

theorem kept_execDbgClose {s z : State} (h : execDbgClose s = .next z) : Kept s z := by
  unfold execDbgClose at h
  injection h with h
  subst h
  have hk := Kept.refl s
  repeat' first | intro _ | (with_reducible first | assumption | apply kept_refresh | apply kept_closeDebug | apply Kept.ite | fail_if_no_progress apply Kept.rest) | dsimp only | split

theorem kept_execDebugDurationExpiry {nonce : BitVec 256} {s z : State} (h : execDebugDurationExpiry nonce s = .next z) : Kept s z := by
  unfold execDebugDurationExpiry at h
  injection h with h
  subst h
  have hk := Kept.refl s
  repeat' first | intro _ | (with_reducible first | assumption | apply kept_refresh | apply kept_endDebug | apply Kept.ite | fail_if_no_progress apply Kept.rest) | dsimp only | split

theorem kept_execTapBypass {tdi : Bool} {s z : State} (h : execTapBypass tdi s = .next z) : Kept s z := by
  unfold execTapBypass at h
  injection h with h
  subst h
  have hk := Kept.refl s
  repeat' first | intro _ | (with_reducible first | assumption | apply kept_tapShift | apply Kept.ite | fail_if_no_progress apply Kept.rest) | dsimp only | split

theorem kept_execTapIdcode {s z : State} (h : execTapIdcode s = .next z) : Kept s z := by
  unfold execTapIdcode at h
  injection h with h
  subst h
  have hk := Kept.refl s
  repeat' first | intro _ | (with_reducible first | assumption | apply kept_tapShift | apply Kept.ite | fail_if_no_progress apply Kept.rest) | dsimp only | split

theorem kept_execTapExtest {drive : BitVec 64} {s z : State} (h : execTapExtest drive s = .next z) : Kept s z := by
  unfold execTapExtest at h
  injection h with h
  subst h
  have hk := Kept.refl s
  repeat' first | intro _ | (with_reducible first | assumption | apply Kept.ite | fail_if_no_progress apply Kept.rest) | dsimp only | split

theorem kept_execTapSamplePreload {pins preload : BitVec 64} {s z : State} (h : execTapSamplePreload pins preload s = .next z) : Kept s z := by
  unfold execTapSamplePreload at h
  injection h with h
  subst h
  have hk := Kept.refl s
  repeat' first | intro _ | (with_reducible first | assumption | apply kept_tapShift | apply Kept.ite | fail_if_no_progress apply Kept.rest) | dsimp only | split

theorem kept_execMgtHalt {op : HaltOp} {s z : State} (h : execMgtHalt op s = .next z) : Kept s z := by
  unfold execMgtHalt at h
  injection h with h
  subst h
  have hk := Kept.refl s
  repeat' first | intro _ | (with_reducible first | assumption | apply kept_fclkToMin | apply Kept.ite | fail_if_no_progress apply Kept.rest) | dsimp only | split

theorem kept_execHbmHardRepair {row : BitVec 32} {s z : State} (h : execHbmHardRepair row s = .next z) : Kept s z := by
  unfold execHbmHardRepair at h
  injection h with h
  subst h
  have hk := Kept.refl s
  repeat' first | intro _ | (with_reducible first | assumption | apply kept_hbmHardRepair | apply Kept.ite | fail_if_no_progress apply Kept.rest) | dsimp only | split

theorem kept_execStlTrainingDone {p : Fin 8} {tr : Training} {s z : State} (h : execStlTrainingDone p tr s = .next z) : Kept s z := by
  unfold execStlTrainingDone at h
  injection h with h
  subst h
  have hk := Kept.refl s
  repeat' first | intro _ | (with_reducible first | assumption | apply kept_stlTrainingDone | apply Kept.ite | fail_if_no_progress apply Kept.rest) | dsimp only | split

theorem kept_execStlTrainingTimeout {p : Fin 8} {s z : State} (h : execStlTrainingTimeout p s = .next z) : Kept s z := by
  unfold execStlTrainingTimeout at h
  injection h with h
  subst h
  have hk := Kept.refl s
  repeat' first | intro _ | (with_reducible first | assumption | apply kept_stlTrainingTimeout | apply Kept.ite | fail_if_no_progress apply Kept.rest) | dsimp only | split

theorem kept_execStlLinkLoss {p : Fin 8} {s z : State} (h : execStlLinkLoss p s = .next z) : Kept s z := by
  unfold execStlLinkLoss at h
  injection h with h
  subst h
  have hk := Kept.refl s
  repeat' first | intro _ | (with_reducible first | assumption | apply kept_retrain | apply Kept.ite | fail_if_no_progress apply Kept.rest) | dsimp only | split

theorem kept_execStlRetrainDone {p : Fin 8} {tr : Training} {s z : State} (h : execStlRetrainDone p tr s = .next z) : Kept s z := by
  unfold execStlRetrainDone at h
  injection h with h
  subst h
  have hk := Kept.refl s
  repeat' first | intro _ | (with_reducible first | assumption | apply kept_stlRetrainDone | apply Kept.ite | fail_if_no_progress apply Kept.rest) | dsimp only | split

theorem kept_execStlRetrainTimeout {p : Fin 8} {s z : State} (h : execStlRetrainTimeout p s = .next z) : Kept s z := by
  unfold execStlRetrainTimeout at h
  injection h with h
  subst h
  have hk := Kept.refl s
  repeat' first | intro _ | (with_reducible first | assumption | apply kept_stlRetrainTimeout | apply Kept.ite | fail_if_no_progress apply Kept.rest) | dsimp only | split

theorem kept_execStlPortFence {p : Fin 8} {s z : State} (h : execStlPortFence p s = .next z) : Kept s z := by
  unfold execStlPortFence at h
  injection h with h
  subst h
  have hk := Kept.refl s
  repeat' first | intro _ | (with_reducible first | assumption | apply kept_stlPortFence | apply Kept.ite | fail_if_no_progress apply Kept.rest) | dsimp only | split

theorem kept_execStlPortReadmit {p : Fin 8} {s z : State} (h : execStlPortReadmit p s = .next z) : Kept s z := by
  unfold execStlPortReadmit at h
  injection h with h
  subst h
  have hk := Kept.refl s
  repeat' first | intro _ | (with_reducible first | assumption | apply kept_stlPortReadmit | apply Kept.ite | fail_if_no_progress apply Kept.rest) | dsimp only | split

theorem kept_execStlPortRetrain {p : Fin 8} {s z : State} (h : execStlPortRetrain p s = .next z) : Kept s z := by
  unfold execStlPortRetrain at h
  injection h with h
  subst h
  have hk := Kept.refl s
  repeat' first | intro _ | (with_reducible first | assumption | apply kept_retrain | apply Kept.ite | fail_if_no_progress apply Kept.rest) | dsimp only | split

theorem kept_execSlotReceive {p : Fin 8} {sl : Slot} {codewordOk : Bool} {s z : State} (h : execSlotReceive p sl codewordOk s = .next z) : Kept s z := by
  unfold execSlotReceive at h
  injection h with h
  subst h
  have hk := Kept.refl s
  repeat' first | intro _ | (with_reducible first | assumption | apply kept_slotReceive | apply Kept.ite | fail_if_no_progress apply Kept.rest) | dsimp only | split

theorem kept_execNakBlock {p : Fin 8} {blk : BitVec 128} {s z : State} (h : execNakBlock p blk s = .next z) : Kept s z := by
  unfold execNakBlock at h
  injection h with h
  subst h
  have hk := Kept.refl s
  repeat' first | intro _ | (with_reducible first | assumption | apply kept_nakBlock | apply Kept.ite | fail_if_no_progress apply Kept.rest) | dsimp only | split

theorem kept_execAbortBlock {p : Fin 8} {blk : BitVec 128} {s z : State} (h : execAbortBlock p blk s = .next z) : Kept s z := by
  unfold execAbortBlock at h
  injection h with h
  subst h
  have hk := Kept.refl s
  repeat' first | intro _ | (with_reducible first | assumption | apply kept_abortBlock | apply Kept.ite | fail_if_no_progress apply Kept.rest) | dsimp only | split

theorem kept_execStlCredit {p : Fin 8} {blk : BitVec 128} {s z : State} (h : execStlCredit p blk s = .next z) : Kept s z := by
  unfold execStlCredit at h
  injection h with h
  subst h
  have hk := Kept.refl s
  repeat' first | intro _ | (with_reducible first | assumption | apply kept_stlCredit | apply Kept.ite | fail_if_no_progress apply Kept.rest) | dsimp only | split

theorem kept_execLinkBlock {p : Fin 8} {blk : BitVec 128} {s z : State} (h : execLinkBlock p blk s = .next z) : Kept s z := by
  unfold execLinkBlock at h
  injection h with h
  subst h
  have hk := Kept.refl s
  repeat' first | intro _ | (with_reducible first | assumption | apply kept_linkBlock | apply Kept.ite | fail_if_no_progress apply Kept.rest) | dsimp only | split

theorem kept_execSerdesRefclkLost {east : Bool} {s z : State} (h : execSerdesRefclkLost east s = .next z) : Kept s z := by
  unfold execSerdesRefclkLost at h
  injection h with h
  subst h
  have hk := Kept.refl s
  repeat' first | intro _ | (with_reducible first | assumption | apply kept_serdesRefclkLost | apply Kept.ite | fail_if_no_progress apply Kept.rest) | dsimp only | split

theorem kept_execPowerControlTick {x : PowerIn} {s z : State} (h : execPowerControlTick x s = .next z) : Kept s z := by
  unfold execPowerControlTick at h
  injection h with h
  subst h
  have hk := Kept.refl s
  repeat' first | intro _ | (with_reducible first | assumption | apply kept_refresh | apply kept_powerControlTick | apply Kept.ite | fail_if_no_progress apply Kept.rest) | dsimp only | split

theorem kept_execPowerSample1ms {est meas vin : Nat} {s z : State} (h : execPowerSample1ms est meas vin s = .next z) : Kept s z := by
  unfold execPowerSample1ms at h
  injection h with h
  subst h
  have hk := Kept.refl s
  repeat' first | intro _ | (with_reducible first | assumption | apply kept_powerSample | apply Kept.ite | fail_if_no_progress apply Kept.rest) | dsimp only | split

theorem kept_execCalibrationUpdate {s z : State} (h : execCalibrationUpdate s = .next z) : Kept s z := by
  unfold execCalibrationUpdate at h
  injection h with h
  subst h
  have hk := Kept.refl s
  repeat' first | intro _ | (with_reducible first | assumption | apply kept_calibrationUpdate | apply Kept.ite | fail_if_no_progress apply Kept.rest) | dsimp only | split

theorem kept_execTileFail {t : Fin 8} {s z : State} (h : execTileFail t s = .next z) : Kept s z := by
  unfold execTileFail at h
  injection h with h
  subst h
  have hk := Kept.refl s
  repeat' first | intro _ | (with_reducible first | assumption | apply kept_tileFail | apply Kept.ite | fail_if_no_progress apply Kept.rest) | dsimp only | split

theorem kept_execInputCurrentTrip {s z : State} (h : execInputCurrentTrip s = .next z) : Kept s z := by
  unfold execInputCurrentTrip at h
  injection h with h
  subst h
  have hk := Kept.refl s
  repeat' first | intro _ | (with_reducible first | assumption | apply kept_unpower | apply Kept.ite | fail_if_no_progress apply Kept.rest) | dsimp only | split

theorem kept_execInputUndervoltage {s z : State} (h : execInputUndervoltage s = .next z) : Kept s z := by
  unfold execInputUndervoltage at h
  injection h with h
  subst h
  have hk := Kept.refl s
  repeat' first | intro _ | (with_reducible first | assumption | apply kept_unpower | apply Kept.ite | fail_if_no_progress apply Kept.rest) | dsimp only | split

theorem kept_execInputOvervoltage {s z : State} (h : execInputOvervoltage s = .next z) : Kept s z := by
  unfold execInputOvervoltage at h
  injection h with h
  subst h
  have hk := Kept.refl s
  repeat' first | intro _ | (with_reducible first | assumption | apply kept_unpower | apply Kept.ite | fail_if_no_progress apply Kept.rest) | dsimp only | split

theorem kept_execPowerOn {s z : State} (h : execPowerOn s = .next z) : Kept s z := by
  unfold execPowerOn at h
  injection h with h
  subst h
  have hk := Kept.refl s
  repeat' first | intro _ | (with_reducible first | assumption | apply kept_repower | apply Kept.ite | fail_if_no_progress apply Kept.rest) | dsimp only | split

theorem kept_execTileRestart {x : StartIn} {s z : State} (h : execTileRestart x s = .next z) : Kept s z := by
  unfold execTileRestart at h
  injection h with h
  subst h
  have hk := Kept.refl s
  repeat' first | intro _ | (with_reducible first | assumption | apply kept_hubReset | apply kept_repower | apply Kept.ite | fail_if_no_progress apply Kept.rest) | dsimp only | split

theorem kept_execSupplyDroop {island : Fin 16} {s z : State} (h : execSupplyDroop island s = .next z) : Kept s z := by
  unfold execSupplyDroop at h
  injection h with h
  subst h
  have hk := Kept.refl s
  repeat' first | intro _ | (with_reducible first | assumption | apply Kept.ite | fail_if_no_progress apply Kept.rest) | dsimp only | split

theorem kept_execDroopStretchEnd {island : Fin 16} {s z : State} (h : execDroopStretchEnd island s = .next z) : Kept s z := by
  unfold execDroopStretchEnd at h
  injection h with h
  subst h
  have hk := Kept.refl s
  repeat' first | intro _ | (with_reducible first | assumption | apply Kept.ite | fail_if_no_progress apply Kept.rest) | dsimp only | split

theorem kept_execFclkAdjust {mean100ms : Nat} {below8For1s : Bool} {s z : State} (h : execFclkAdjust mean100ms below8For1s s = .next z) : Kept s z := by
  unfold execFclkAdjust at h
  injection h with h
  subst h
  have hk := Kept.refl s
  repeat' first | intro _ | (with_reducible first | assumption | apply kept_fclkAdjust | apply Kept.ite | fail_if_no_progress apply Kept.rest) | dsimp only | split

theorem kept_execThrotNAssert {s z : State} (h : execThrotNAssert s = .next z) : Kept s z := by
  unfold execThrotNAssert at h
  injection h with h
  subst h
  have hk := Kept.refl s
  repeat' first | intro _ | (with_reducible first | assumption | apply kept_raise | apply Kept.ite | fail_if_no_progress apply Kept.rest) | dsimp only | split

theorem kept_execThrotNRelease {s z : State} (h : execThrotNRelease s = .next z) : Kept s z := by
  unfold execThrotNRelease at h
  injection h with h
  subst h
  have hk := Kept.refl s
  repeat' first | intro _ | (with_reducible first | assumption | apply Kept.ite | fail_if_no_progress apply Kept.rest) | dsimp only | split

theorem kept_execRackBudgetSet {watts : Nat} {s z : State} (h : execRackBudgetSet watts s = .next z) : Kept s z := by
  unfold execRackBudgetSet at h
  injection h with h
  subst h
  have hk := Kept.refl s
  repeat' first | intro _ | (with_reducible first | assumption | apply kept_setRack | apply Kept.ite | fail_if_no_progress apply Kept.rest) | dsimp only | split

theorem kept_execPowerOverride {x : PowerSet} {s z : State} (h : execPowerOverride x s = .next z) : Kept s z := by
  unfold execPowerOverride at h
  injection h with h
  subst h
  have hk := Kept.refl s
  repeat' first | intro _ | (with_reducible first | assumption | apply kept_powerOverride | apply Kept.ite | fail_if_no_progress apply Kept.rest) | dsimp only | split

theorem kept_execThermalSample {sensor : Fin 256} {quarters : Int} {s z : State} (h : execThermalSample sensor quarters s = .next z) : Kept s z := by
  unfold execThermalSample at h
  injection h with h
  subst h
  have hk := Kept.refl s
  repeat' first | intro _ | (with_reducible first | assumption | apply kept_refresh | apply kept_thermalSample | apply Kept.ite | fail_if_no_progress apply Kept.rest) | dsimp only | split

theorem kept_execHbmTempSample {m : Fin 6} {quarters : Int} {s z : State} (h : execHbmTempSample m quarters s = .next z) : Kept s z := by
  unfold execHbmTempSample at h
  injection h with h
  subst h
  have hk := Kept.refl s
  repeat' first | intro _ | (with_reducible first | assumption | apply kept_refresh | apply kept_hbmTempSample | apply Kept.ite | fail_if_no_progress apply Kept.rest) | dsimp only | split

theorem kept_execFwUpdate {tag : BitVec 8} {bytes : List Byte} {s z : State} (h : execFwUpdate tag bytes s = .next z) : Kept s z := by
  unfold execFwUpdate at h
  injection h with h
  subst h
  have hk := Kept.refl s
  repeat' first | intro _ | (with_reducible first | assumption | apply kept_mbCommand | apply kept_fwUpdate | apply Kept.ite | fail_if_no_progress apply Kept.rest) | dsimp only | split

theorem kept_execFlashWriteDone {ok : Bool} {s z : State} (h : execFlashWriteDone ok s = .next z) : Kept s z := by
  unfold execFlashWriteDone at h
  injection h with h
  subst h
  have hk := Kept.refl s
  repeat' first | intro _ | (with_reducible first | assumption | apply kept_refresh | apply kept_flashWriteDone | apply Kept.ite | fail_if_no_progress apply Kept.rest) | dsimp only | split

theorem kept_execMbStatus {tag : BitVec 8} {s z : State} (h : execMbStatus tag s = .next z) : Kept s z := by
  unfold execMbStatus at h
  injection h with h
  subst h
  have hk := Kept.refl s
  repeat' first | intro _ | (with_reducible first | assumption | apply kept_mbEnd | apply kept_mbCommand | apply Kept.ite | fail_if_no_progress apply Kept.rest) | dsimp only | split

theorem kept_execPeelCancel {tag : BitVec 8} {s z : State} (h : execPeelCancel tag s = .next z) : Kept s z := by
  unfold execPeelCancel at h
  injection h with h
  subst h
  have hk := Kept.refl s
  repeat' first | intro _ | (with_reducible first | assumption | apply kept_mbCommand | apply kept_peelCancel | apply Kept.ite | fail_if_no_progress apply Kept.rest) | dsimp only | split

theorem kept_execAdvanceRollback {tag : BitVec 8} {s z : State} (h : execAdvanceRollback tag s = .next z) : Kept s z := by
  unfold execAdvanceRollback at h
  injection h with h
  subst h
  have hk := Kept.refl s
  repeat' first | intro _ | (with_reducible first | assumption | apply kept_mbCommand | apply kept_advanceRollback | apply Kept.ite | fail_if_no_progress apply Kept.rest) | dsimp only | split

theorem kept_execRetryStart {tag : BitVec 8} {s z : State} (h : execRetryStart tag s = .next z) : Kept s z := by
  unfold execRetryStart at h
  injection h with h
  subst h
  have hk := Kept.refl s
  repeat' first | intro _ | (with_reducible first | assumption | apply kept_mbCommand | apply kept_retryStart | apply Kept.ite | fail_if_no_progress apply Kept.rest) | dsimp only | split

theorem kept_execRecoveryLoadBegin {tag : BitVec 8} {s z : State} (h : execRecoveryLoadBegin tag s = .next z) : Kept s z := by
  unfold execRecoveryLoadBegin at h
  injection h with h
  subst h
  have hk := Kept.refl s
  repeat' first | intro _ | (with_reducible first | assumption | apply kept_mbCommand | apply kept_recoveryBegin | apply Kept.ite | fail_if_no_progress apply Kept.rest) | dsimp only | split

theorem kept_execRecoveryLoadRun {tag : BitVec 8} {s z : State} (h : execRecoveryLoadRun tag s = .next z) : Kept s z := by
  unfold execRecoveryLoadRun at h
  injection h with h
  subst h
  have hk := Kept.refl s
  repeat' first | intro _ | (with_reducible first | assumption | apply kept_mbCommand | apply kept_recoveryRun | apply Kept.ite | fail_if_no_progress apply Kept.rest) | dsimp only | split

theorem kept_execRcvDataWrite {val : Word} {s z : State} (h : execRcvDataWrite val s = .next z) : Kept s z := by
  unfold execRcvDataWrite at h
  injection h with h
  subst h
  have hk := Kept.refl s
  repeat' first | intro _ | (with_reducible first | assumption | apply kept_rcvDataWrite | apply Kept.ite | fail_if_no_progress apply Kept.rest) | dsimp only | split

theorem kept_execRequestCold {tag : BitVec 8} {s z : State} (h : execRequestCold tag s = .next z) : Kept s z := by
  unfold execRequestCold at h
  injection h with h
  subst h
  have hk := Kept.refl s
  repeat' first | intro _ | (with_reducible first | assumption | apply kept_mbEnd | apply kept_mbCommand | apply Kept.ite | fail_if_no_progress apply Kept.rest) | dsimp only | split

theorem kept_execMbReservedOpcode {tag opcode : BitVec 8} {s z : State} (h : execMbReservedOpcode tag opcode s = .next z) : Kept s z := by
  unfold execMbReservedOpcode at h
  injection h with h
  subst h
  have hk := Kept.refl s
  repeat' first | intro _ | (with_reducible first | assumption | apply kept_mbEnd | apply kept_mbCommand | apply Kept.ite | fail_if_no_progress apply Kept.rest) | dsimp only | split

theorem kept_execPldmGetTid {s z : State} (h : execPldmGetTid s = .next z) : Kept s z := by
  unfold execPldmGetTid at h
  injection h with h
  subst h
  have hk := Kept.refl s
  repeat' first | intro _ | (with_reducible first | assumption | apply kept_pldmRequest | apply Kept.ite | fail_if_no_progress apply Kept.rest) | dsimp only | split

theorem kept_execPldmGetPldmVersion {type : BitVec 8} {s z : State} (h : execPldmGetPldmVersion type s = .next z) : Kept s z := by
  unfold execPldmGetPldmVersion at h
  injection h with h
  subst h
  have hk := Kept.refl s
  repeat' first | intro _ | (with_reducible first | assumption | apply kept_pldmRequest | apply Kept.ite | fail_if_no_progress apply Kept.rest) | dsimp only | split

theorem kept_execPldmGetPldmTypes {s z : State} (h : execPldmGetPldmTypes s = .next z) : Kept s z := by
  unfold execPldmGetPldmTypes at h
  injection h with h
  subst h
  have hk := Kept.refl s
  repeat' first | intro _ | (with_reducible first | assumption | apply kept_pldmRequest | apply Kept.ite | fail_if_no_progress apply Kept.rest) | dsimp only | split

theorem kept_execPldmGetPldmCommands {type : BitVec 8} {s z : State} (h : execPldmGetPldmCommands type s = .next z) : Kept s z := by
  unfold execPldmGetPldmCommands at h
  injection h with h
  subst h
  have hk := Kept.refl s
  repeat' first | intro _ | (with_reducible first | assumption | apply kept_pldmRequest | apply Kept.ite | fail_if_no_progress apply Kept.rest) | dsimp only | split

theorem kept_execPldmSensorRead {sensor : Nat} {s z : State} (h : execPldmSensorRead sensor s = .next z) : Kept s z := by
  unfold execPldmSensorRead at h
  injection h with h
  subst h
  have hk := Kept.refl s
  repeat' first | intro _ | (with_reducible first | assumption | apply kept_pldmRequest | apply Kept.ite | fail_if_no_progress apply Kept.rest) | dsimp only | split

theorem kept_execPldmFwTransfer {recovery : Bool} {bytes : List Byte} {s z : State} (h : execPldmFwTransfer recovery bytes s = .next z) : Kept s z := by
  unfold execPldmFwTransfer at h
  injection h with h
  subst h
  have hk := Kept.refl s
  repeat' first | intro _ | (with_reducible first | assumption | apply kept_refresh | apply kept_pldmRequest | apply Kept.ite | fail_if_no_progress apply Kept.rest) | dsimp only | split

theorem kept_execPldmActivateFirmware {selfContained : Bool} {s z : State} (h : execPldmActivateFirmware selfContained s = .next z) : Kept s z := by
  unfold execPldmActivateFirmware at h
  injection h with h
  subst h
  have hk := Kept.refl s
  repeat' first | intro _ | (with_reducible first | assumption | apply kept_refresh | apply kept_pldmRequest | apply Kept.ite | fail_if_no_progress apply Kept.rest) | dsimp only | split

theorem kept_execPeelDeferCheck {s z : State} (h : execPeelDeferCheck s = .next z) : Kept s z := by
  unfold execPeelDeferCheck at h
  injection h with h
  subst h
  have hk := Kept.refl s
  repeat' first | intro _ | (with_reducible first | assumption | apply kept_peelDeferCheck | apply Kept.ite | fail_if_no_progress apply Kept.rest) | dsimp only | split

theorem kept_execPeelDeferLong {s z : State} (h : execPeelDeferLong s = .next z) : Kept s z := by
  unfold execPeelDeferLong at h
  injection h with h
  subst h
  have hk := Kept.refl s
  repeat' first | intro _ | (with_reducible first | assumption | apply kept_writeLog | apply kept_raise | apply Kept.ite | fail_if_no_progress apply Kept.rest) | dsimp only | split

theorem kept_execPeelFreeze {s z : State} (h : execPeelFreeze s = .next z) : Kept s z := by
  unfold execPeelFreeze at h
  injection h with h
  subst h
  have hk := Kept.refl s
  repeat' first | intro _ | (with_reducible first | assumption | apply kept_peelFreeze | apply Kept.ite | fail_if_no_progress apply Kept.rest) | dsimp only | split

theorem kept_execPeelJump {s z : State} (h : execPeelJump s = .next z) : Kept s z := by
  unfold execPeelJump at h
  injection h with h
  subst h
  have hk := Kept.refl s
  repeat' first | intro _ | (with_reducible first | assumption | apply kept_refresh | apply kept_peelJump | apply Kept.ite | fail_if_no_progress apply Kept.rest) | dsimp only | split

theorem kept_execPeelResume {s z : State} (h : execPeelResume s = .next z) : Kept s z := by
  unfold execPeelResume at h
  injection h with h
  subst h
  have hk := Kept.refl s
  repeat' first | intro _ | (with_reducible first | assumption | apply kept_refresh | apply kept_peelResume | apply Kept.ite | fail_if_no_progress apply Kept.rest) | dsimp only | split

theorem kept_execPeelResumeTimeout {rejected : Bool} {s z : State} (h : execPeelResumeTimeout rejected s = .next z) : Kept s z := by
  unfold execPeelResumeTimeout at h
  injection h with h
  subst h
  have hk := Kept.refl s
  repeat' first | intro _ | (with_reducible first | assumption | apply kept_refresh | apply kept_peelResumeTimeout | apply Kept.ite | fail_if_no_progress apply Kept.rest) | dsimp only | split

theorem kept_execPeelCommit {flashOk : Bool} {s z : State} (h : execPeelCommit flashOk s = .next z) : Kept s z := by
  unfold execPeelCommit at h
  injection h with h
  subst h
  have hk := Kept.refl s
  repeat' first | intro _ | (with_reducible first | assumption | apply kept_refresh | apply kept_peelCommit | apply Kept.ite | fail_if_no_progress apply Kept.rest) | dsimp only | split

theorem kept_execMgtWatchdogExpiry {s z : State} (h : execMgtWatchdogExpiry s = .next z) : Kept s z := by
  unfold execMgtWatchdogExpiry at h
  injection h with h
  subst h
  have hk := Kept.refl s
  repeat' first | intro _ | (with_reducible first | assumption | apply kept_refresh | apply kept_mgtWatchdog | apply Kept.ite | fail_if_no_progress apply Kept.rest) | dsimp only | split

theorem kept_execHandoverRecordWrite {s z : State} (h : execHandoverRecordWrite s = .next z) : Kept s z := by
  unfold execHandoverRecordWrite at h
  injection h with h
  subst h
  have hk := Kept.refl s
  repeat' first | intro _ | (with_reducible first | assumption | apply kept_writeRecord | apply Kept.ite | fail_if_no_progress apply Kept.rest) | dsimp only | split

theorem kept_execSealOpen {v : Fin 1024} {s z : State} (h : execSealOpen v s = .next z) : Kept s z := by
  unfold execSealOpen at h
  injection h with h
  subst h
  have hk := Kept.refl s
  repeat' first | intro _ | (with_reducible first | assumption | apply kept_sealOpenStart | apply Kept.ite | fail_if_no_progress apply Kept.rest) | dsimp only | split

theorem kept_execSealOpenComplete {v : Fin 1024} {s z : State} (h : execSealOpenComplete v s = .next z) : Kept s z := by
  unfold execSealOpenComplete at h
  injection h with h
  subst h
  have hk := Kept.refl s
  repeat' first | intro _ | (with_reducible first | assumption | apply kept_sealOpenComplete | apply Kept.ite | fail_if_no_progress apply Kept.rest) | dsimp only | split

theorem kept_execSealClose {v : Fin 1024} {s z : State} (h : execSealClose v s = .next z) : Kept s z := by
  unfold execSealClose at h
  injection h with h
  subst h
  have hk := Kept.refl s
  repeat' first | intro _ | (with_reducible first | assumption | apply kept_refresh | apply kept_endSession | apply Kept.ite | fail_if_no_progress apply Kept.rest) | dsimp only | split

theorem kept_execSecSealClose {v : Fin 1024} {s z : State} (h : execSecSealClose v s = .next z) : Kept s z := by
  unfold execSecSealClose at h
  injection h with h
  subst h
  have hk := Kept.refl s
  repeat' first | intro _ | (with_reducible first | assumption | apply kept_refresh | apply kept_endSession | apply kept_refuseWrite | apply Kept.ite | fail_if_no_progress apply Kept.rest) | dsimp only | split

theorem kept_execKeySlotWipe {v : Fin 1024} {s z : State} (h : execKeySlotWipe v s = .next z) : Kept s z := by
  unfold execKeySlotWipe at h
  injection h with h
  subst h
  have hk := Kept.refl s
  repeat' first | intro _ | (with_reducible first | assumption | apply kept_refresh | apply kept_wipeSlot | apply Kept.ite | fail_if_no_progress apply Kept.rest) | dsimp only | split

theorem kept_execKeySlotFault {v : Fin 1024} {s z : State} (h : execKeySlotFault v s = .next z) : Kept s z := by
  unfold execKeySlotFault at h
  injection h with h
  subst h
  have hk := Kept.refl s
  repeat' first | intro _ | (with_reducible first | assumption | apply kept_keyFault | apply Kept.ite | fail_if_no_progress apply Kept.rest) | dsimp only | split

theorem kept_execEntropyFail {s z : State} (h : execEntropyFail s = .next z) : Kept s z := by
  unfold execEntropyFail at h
  injection h with h
  subst h
  have hk := Kept.refl s
  repeat' first | intro _ | (with_reducible first | assumption | apply kept_raise | apply Kept.ite | fail_if_no_progress apply Kept.rest) | dsimp only | split

theorem kept_execSpdmGetVersion {tr : Fin 3} {req : List Byte} {s z : State} (h : execSpdmGetVersion tr req s = .next z) : Kept s z := by
  unfold execSpdmGetVersion at h
  injection h with h
  subst h
  have hk := Kept.refl s
  repeat' first | intro _ | (with_reducible first | assumption | apply kept_spdmGetVersion | apply Kept.ite | fail_if_no_progress apply Kept.rest) | dsimp only | split

theorem kept_execSpdmGetCapabilities {tr : Fin 3} {req : List Byte} {s z : State} (h : execSpdmGetCapabilities tr req s = .next z) : Kept s z := by
  unfold execSpdmGetCapabilities at h
  injection h with h
  subst h
  have hk := Kept.refl s
  repeat' first | intro _ | (with_reducible first | assumption | apply kept_spdmGetCapabilities | apply Kept.ite | fail_if_no_progress apply Kept.rest) | dsimp only | split

theorem kept_execSpdmNegotiateAlgorithms {tr : Fin 3} {req : List Byte} {s z : State} (h : execSpdmNegotiateAlgorithms tr req s = .next z) : Kept s z := by
  unfold execSpdmNegotiateAlgorithms at h
  injection h with h
  subst h
  have hk := Kept.refl s
  repeat' first | intro _ | (with_reducible first | assumption | apply kept_spdmNegotiate | apply Kept.ite | fail_if_no_progress apply Kept.rest) | dsimp only | split

theorem kept_execSpdmGetDigests {tr : Fin 3} {req : List Byte} {s z : State} (h : execSpdmGetDigests tr req s = .next z) : Kept s z := by
  unfold execSpdmGetDigests at h
  injection h with h
  subst h
  have hk := Kept.refl s
  repeat' first | intro _ | (with_reducible first | assumption | apply kept_spdmSend | apply kept_spdmAfter | apply Kept.ite | fail_if_no_progress apply Kept.rest) | dsimp only | split

theorem kept_execSpdmGetCertificate {tr : Fin 3} {req : List Byte} {s z : State} (h : execSpdmGetCertificate tr req s = .next z) : Kept s z := by
  unfold execSpdmGetCertificate at h
  injection h with h
  subst h
  have hk := Kept.refl s
  repeat' first | intro _ | (with_reducible first | assumption | apply kept_spdmAfter | apply kept_spdmCertificate | apply Kept.ite | fail_if_no_progress apply Kept.rest) | dsimp only | split

theorem kept_execSpdmChallenge {tr : Fin 3} {req : List Byte} {s z : State} (h : execSpdmChallenge tr req s = .next z) : Kept s z := by
  unfold execSpdmChallenge at h
  injection h with h
  subst h
  have hk := Kept.refl s
  repeat' first | intro _ | (with_reducible first | assumption | apply kept_spdmAfter | apply kept_spdmChallenge | apply Kept.ite | fail_if_no_progress apply Kept.rest) | dsimp only | split

theorem kept_execSpdmGetMeasurements {tr : Fin 3} {req : List Byte} {s z : State} (h : execSpdmGetMeasurements tr req s = .next z) : Kept s z := by
  unfold execSpdmGetMeasurements at h
  injection h with h
  subst h
  have hk := Kept.refl s
  repeat' first | intro _ | (with_reducible first | assumption | apply kept_spdmAfter | apply kept_spdmMeasurements | apply Kept.ite | fail_if_no_progress apply Kept.rest) | dsimp only | split

theorem kept_execMbxSelectWrite {who : Owner2} {mbx : MbxId} {sel : Word} {s z : State} (h : execMbxSelectWrite who mbx sel s = .next z) : Kept s z := by
  unfold execMbxSelectWrite at h
  injection h with h
  subst h
  have hk := Kept.refl s
  repeat' first | intro _ | (with_reducible first | assumption | apply kept_mbxSelectWrite | apply Kept.ite | fail_if_no_progress apply Kept.rest) | dsimp only | split

theorem kept_execMbxCaptureDone {who : Owner2} {mbx : MbxId} {s z : State} (h : execMbxCaptureDone who mbx s = .next z) : Kept s z := by
  unfold execMbxCaptureDone at h
  injection h with h
  subst h
  have hk := Kept.refl s
  repeat' first | intro _ | (with_reducible first | assumption | apply kept_mbxCaptureDone | apply Kept.ite | fail_if_no_progress apply Kept.rest) | dsimp only | split

theorem kept_execIndDataAccess {who : Owner2} {write : Bool} {val : Word} {s z : State} (h : execIndDataAccess who write val s = .next z) : Kept s z := by
  unfold execIndDataAccess at h
  injection h with h
  subst h
  have hk := Kept.refl s
  repeat' first | intro _ | (with_reducible first | assumption | apply kept_indDataAccess | apply Kept.ite | fail_if_no_progress apply Kept.rest) | dsimp only | split

theorem kept_execRegReadTimeout {addr : Nat} {s z : State} (h : execRegReadTimeout addr s = .next z) : Kept s z := by
  unfold execRegReadTimeout at h
  injection h with h
  subst h
  have hk := Kept.refl s
  repeat' first | intro _ | (with_reducible first | assumption | apply kept_readTimeout | apply Kept.ite | fail_if_no_progress apply Kept.rest) | dsimp only | split

theorem kept_execRegReadClear {path : ReadPath} {addr : Nat} {s z : State} (h : execRegReadClear path addr s = .next z) : Kept s z := by
  unfold execRegReadClear at h
  injection h with h
  subst h
  have hk := Kept.refl s
  repeat' first | intro _ | (with_reducible first | assumption | apply kept_readWord | apply Kept.ite | fail_if_no_progress apply Kept.rest) | dsimp only | split

theorem kept_execRegWrite {path : RegPath} {addr : Nat} {val : BitVec 64} {be : BitVec 8} {wide : Bool} {s z : State} (h : execRegWrite path addr val be wide s = .next z) : Kept s z := by
  unfold execRegWrite at h
  injection h with h
  subst h
  have hk := Kept.refl s
  repeat' first | intro _ | (with_reducible first | assumption | apply kept_refresh | apply kept_regWrite | apply Kept.ite | fail_if_no_progress apply Kept.rest) | dsimp only | split

theorem kept_execRegRead {port : Nat} {tag : BitVec 12} {addr : Nat} {s z : State} (h : execRegRead port tag addr s = .next z) : Kept s z := by
  unfold execRegRead at h
  injection h with h
  subst h
  have hk := Kept.refl s
  repeat' first | intro _ | (with_reducible first | assumption | apply kept_spend | apply kept_emit | apply kept_clearRc | apply kept_indAccess | apply Kept.ite | fail_if_no_progress apply Kept.rest) | dsimp only | split

theorem kept_execRegResp {port : Nat} {tag : BitVec 12} {val : Word} {s z : State} (h : execRegResp port tag val s = .next z) : Kept s z := by
  unfold execRegResp at h
  injection h with h
  subst h
  have hk := Kept.refl s
  repeat' first | intro _ | (with_reducible first | assumption | apply kept_emit | apply Kept.ite | fail_if_no_progress apply Kept.rest) | dsimp only | split

end Sys2Proof.Laws
end

