-- ==== Sys2Proof/Tests/Base.lean ====
section
/-! SUPPORT. Small states for the tests, and Bool forms of the statements' hypotheses, so that a witness is one evaluation. -/
namespace Sys2Proof.Tests
open Sys2Proof Sys2Proof.Machine Sys2Proof.Safety

/-- The conditions at the front of a conjunction, decided together. -/
theorem join3 {a b c r : Prop} (h : a ∧ b ∧ c) (t : r) : a ∧ b ∧ c ∧ r := ⟨h.1, h.2.1, h.2.2, t⟩
theorem join4 {a b c d r : Prop} (h : a ∧ b ∧ c ∧ d) (t : r) : a ∧ b ∧ c ∧ d ∧ r := ⟨h.1, h.2.1, h.2.2.1, h.2.2.2, t⟩

def canonB (s : State) : Bool :=
  decide s.mem.wf && Tab.wf {} s.parts && Tab.wf {} s.xfes && Tab.wf {} s.sites && Tab.wf {} s.ports && Tab.wf {} s.cols &&
  Tab.wf {} s.vis && Tab.wf {} s.fab.cells && Tab.wf {} s.fab.cols && Tab.wf {} s.fab.quads && Tab.wf {} s.sec.seals &&
  Tab.wf 0 s.lcs.otp.fields && Tab.rises s.flt.groups

theorem canon_of {s : State} (h : canonB s = true) : Canon s := by
  simp only [canonB, Bool.and_eq_true, decide_eq_true_eq] at h
  obtain ⟨⟨⟨⟨⟨⟨⟨⟨⟨⟨⟨⟨h1, h2⟩, h3⟩, h4⟩, h5⟩, h6⟩, h7⟩, h8⟩, h9⟩, h10⟩, h11⟩, h12⟩, h13⟩ := h
  exact ⟨h1, h2, h3, h4, h5, h6, h7, h8, h9, h10, h11, h12, h13⟩

theorem calm_of {g : Nat} {s : State} (h : (s.grp g).action = .log) : Calm g s := Or.inl h
theorem free_of {s : State} (h : (!s.mgt.busy && !s.mgt.unavail && lifeCycle s != 4 && s.mgt.stage != .flatbread) = true) : MailboxFree s := by
  simp only [Bool.and_eq_true, Bool.not_eq_true', bne_iff_ne, ne_eq] at h
  exact ⟨h.1.1.1, h.1.1.2, h.1.2, h.2⟩
theorem noWaiters_of {p : Nat} {s : State} (h : s.visOf p = []) : NoWaiters p s := by
  intro v hv
  rw [h] at hv
  cases hv
theorem goodToken_of {ty : TokenType} {via : TokenVia} {k : Token} {port : Nat} {s : State}
    (h : (k.type == ty && tokenOk k && !(s.grp 8).inject.getLsbD 4 && tokenPort s via == some port && !(s.part k.domain.val).seen.any (fun e => e.1 == port && sameToken e.2 k)) = true) :
    GoodToken ty via k port s := by
  simp only [Bool.and_eq_true, beq_iff_eq, Bool.not_eq_true'] at h
  exact ⟨h.1.1.1.1, h.1.1.1.2, h.1.1.2, h.1.2, h.2⟩
theorem goodTime_of {ty : TokenType} {via : TokenVia} {k : Token} {port : Nat} {s : State}
    (h : (k.type == ty && tokenOk k && !(s.grp 8).inject.getLsbD 4 && tokenPort s via == some port) = true) : GoodTime ty via k port s := by
  simp only [Bool.and_eq_true, beq_iff_eq, Bool.not_eq_true'] at h
  exact ⟨h.1.1.1, h.1.1.2, h.1.2, h.2⟩
theorem issues_of {n op : Nat} {srcs : Uop → List Nat} {x : UCtx} {s : State} (h1 : nextUop s n = some x)
    (h2 : (x.u.op == op && srcsReady s n (srcs x.u) && hasRoom s (routeTargets s n x.route 5)) = true) : Issues n op srcs x s := by
  simp only [Bool.and_eq_true, beq_iff_eq] at h2
  exact ⟨h1, h2.1.1, h2.1.2, h2.2⟩

theorem noTargets_of {r : Req} {s : State}
    (h : ((s.qport (portOf r.who) r.part).target == 0 && (s.qport (portOf r.who) r.part).rsvBound == 0) = true) : NoTargets r s := by
  simp only [Bool.and_eq_true, beq_iff_eq] at h
  exact h
theorem noResume_of {p : Nat} {s : State} (h : ((s.part p).endLocal.isNone || (s.part p).arrival.isSome) = true) : NoResume p s := by
  rcases Bool.or_eq_true _ _ ▸ h with h | h
  · exact Or.inl (Option.isNone_iff_eq_none.1 h)
  · exact Or.inr h

/-- The state after a command. -/
def after (c : Instr) (s : State) : State := match exec c s with | .next t => t | _ => s
def afterStep (s : State) : State := match step s with | .next t => t | _ => s

/-- A hub whose start has completed, with its mailbox's argument words. -/
def upArgs (args : Tab Word) : State := { State.reset with mgt := { stage := .complete, args := args } }
def up : State := upArgs []

end Sys2Proof.Tests
end

