-- ==== Sys2Proof/WellFormed.lean ====
section
/-! DEFINITION. Which commands are well formed: the values of operands that can reach the hub at all. A command that is not well formed
still has its meaning; no party can send it. -/
namespace Sys2Proof

/-- Size in bytes of the window that an access path reaches (R54, R55; firmware's private path reaches the registers of BAR0). -/
def windowSize : RegPath → Nat
  | .bar0 => 0x2000000
  | .bar2 => 0x4000000
  | .bar4 => 0x100000
  | .fw => 0x2000000

/-- The address lies in the path's window. -/
def inWindow (p : RegPath) (a : Nat) : Bool := decide (a < windowSize p)

/-- BAR2 offsets of VI 0 are reserved: no virtual interface has number 0 (R55). -/
def viOk (v : Fin 1024) : Bool := v != 0

/-- A mailbox in a VI's own window belongs to a VI other than 0. -/
def mbxOk : MbxId → Bool
  | .viView v | .viTel v => viOk v
  | _ => true

/-- The largest body of data that one command carries. -/
def maxFetch : Nat := 0x4000000

/-- No more bits take in a copy than the widest field has (R627, R633). -/
def burnOk : Burn → Bool
  | .full => true
  | .short a b c => decide (a ≤ 512 ∧ b ≤ 512 ∧ c ≤ 512)

/-- A translation or an invalidation covers a power of two of at least 4 KiB (R273, R309). -/
def pageSizeOk (n : Nat) : Bool := decide (4096 ≤ n) && decide (2 ^ n.log2 = n)

/-- A Gelja message carries no data, or the lines that its length names (R447). -/
def gmsgOk (m : GMsg) : Bool := m.data.isEmpty || decide (m.data.length = 64 * m.len.toNat)

/-- A trained link has a rate of `HST_LINK.RATE` and a width in lanes. -/
def linkOk (rate width : Nat) : Bool := decide (rate ≤ 5) && [1, 2, 4, 8, 16].contains width

/-- The sensors name tiles, sites and partitions that exist (R657 to R672). -/
def powerInOk (x : PowerIn) : Bool :=
  x.partRaw.all (fun (e : Nat × Nat) => decide (e.1 < 64)) && x.siteW.all (fun (e : Nat × Nat) => decide (e.1 < 18)) &&
  x.tiles.all (fun (e : Nat × Nat × Nat × Nat × Nat) => decide (e.1 < 8))

/-- The findings of a start name units that exist (R719 to R736). -/
def startInOk (x : StartIn) : Bool :=
  x.banksBad.all (fun b => decide (b < 64)) && x.chansBad.all (fun c => decide (c < 192)) &&
  x.cellsBad.all (fun (e : Nat × Nat) => decide (e.1 < 4 ∧ e.2 < 544)) && x.switchBad.all (fun k => decide (k < 128)) &&
  x.proofPeers.all (fun (e : Nat × Nat) => decide (e.1 < 8))

/-- Which commands can reach the hub. -/
def wf : Instr → Bool
  | .regWrite path addr _ be _ => inWindow path addr && (be != 0)
  | .regReadClear p addr => inWindow p.path addr && (!p.wide || inWindow p.path (addr / 4 * 4 + 4))
  | .indDataAccess _ _ _ => true
  | .mbxSelectWrite _ mbx _ => mbxOk mbx
  | .mbxCaptureDone _ mbx => mbxOk mbx
  | .regReadTimeout addr => inWindow .bar0 addr
  | .mbStatus _ => true
  | .loadImage _ => true
  | .imageFetchDone bytes => decide (bytes.length ≤ maxFetch)
  | .imageValidationDone => true
  | .fullImageActivate => true
  | .partialImageActivate _ => true
  | .readReport _ => true
  | .writeBootImage _ => true
  | .fwUpdate _ bytes => decide (bytes.length ≤ maxFetch)
  | .peelCancel _ => true
  | .advanceRollback _ => true
  | .mapDevice _ => true
  | .unmapDevice _ => true
  | .retryStart _ => true
  | .recoveryLoadBegin _ => true
  | .recoveryLoadRun _ => true
  | .rcvDataWrite _ => true
  | .requestCold _ => true
  | .otpProgram _ _ field _ burn => decide (field < 2 ^ 32) && burnOk burn
  | .mbReservedOpcode _ opcode => !(Machine.mbOpcodes.contains opcode.toNat)
  | .stepRelease _ => true
  | .fetchSlot v => viOk v
  | .budgetEnd _ => true
  | .localArrival _ => true
  | .localRelease _ => true
  | .arriveToken _ t => decide (t.type = .arrive)
  | .releaseToken _ t => decide (t.type = .release)
  | .holdToken _ t => decide (t.type = .hold)
  | .breakToken _ t => decide (t.type = .brk)
  | .lateLimitExpiry _ => true
  | .proofTimeoutExpiry _ => true
  | .readyTimeout _ => true
  | .timeSyncTimer => true
  | .timeReq _ t => decide (t.type = .timeReq)
  | .timeResp _ t => decide (t.type = .timeResp)
  | .timeParentLost => true
  | .proofPortDown _ => true
  | .siteArriveIn _ => true
  | .siteReleaseIn _ => true
  | .siteAckTimeout _ => true
  | .partHold _ => true
  | .partRelease _ => true
  | .partRemeasure _ => true
  | .starterArm _ _ => true
  | .stepCounterArm _ _ => true
  | .uNop _ => true
  | .uEnd _ => true
  | .uLoop _ => true
  | .uWaitp _ => true
  | .uSync _ => true
  | .uLd _ _ => true
  | .uSt _ _ => true
  | .uGet _ => true
  | .uPut _ => true
  | .uLdc _ _ => true
  | .uAdd _ => true
  | .uSub _ => true
  | .uMul _ => true
  | .uFma _ => true
  | .uMax _ => true
  | .uMin _ => true
  | .uSel _ => true
  | .uDot _ => true
  | .uCvt _ => true
  | .uMxpack _ => true
  | .uMxunpack _ => true
  | .uSfu _ => true
  | .uLsum _ => true
  | .uGmax _ => true
  | .uGq _ => true
  | .uGadd _ => true
  | .uGrnd _ => true
  | .uGather _ => true
  | .uScatter _ => true
  | .uShuf _ => true
  | .uCmul _ => true
  | .uRng _ => true
  | .cellFault _ _ => true
  | .fabColFence _ => true
  | .fabColRemap _ _ => true
  | .cfgBcast _ cols rows _ _ => (cols != 0) && (rows != 0)
  | .xfeDescArrive _ => true
  | .xfeWaitSatisfied _ => true
  | .xfeComplete _ => true
  | .xfeAbort _ => true
  | .xfeFence _ => true
  | .xfeReadmit _ => true
  | .atsTranslationCompletion _ _ size _ _ _ _ => pageSizeOk size
  | .prgResponse _ _ => true
  | .faultLimitExpiry _ => true
  | .atsInvalidate _ _ size => pageSizeOk size
  | .invalidateCompletion _ => true
  | .hostReadCompletion _ _ data _ => decide (data.length ≤ 4096)
  | .hwtCommit _ => true
  | .hwtCommitDrained => true
  | .nocRead _ _ _ _ => true
  | .nocWrite _ _ _ => true
  | .nocReadData _ _ _ => true
  | .nocWriteAck _ _ => true
  | .nocRefuse _ _ => true
  | .regRead _ _ addr => decide (addr < 0x2000000)
  | .regResp _ _ _ => true
  | .faultSignal g bit => decide (bit.val ≤ Machine.topBit g.val)
  | .respTimeout _ => true
  | .sliceStall _ _ => true
  | .qosMissWindowExpiry _ => true
  | .hbmScrub _ found => found.all (fun e => e.2 != .clean)
  | .sramScrub found => found.all (fun e => e.2 != .clean)
  | .hbmTempSample _ _ => true
  | .hbmRecalibration _ _ _ => true
  | .zeroingDone _ _ => true
  | .rowRepair pa _ => decide (pa < 2 ^ 48)
  | .srmBankFence _ => true
  | .srmBankReadmit _ => true
  | .memChFence _ _ => true
  | .memChReadmit _ _ => true
  | .cohWinWrite _ _ => true
  | .stackRailShort _ => true
  | .siteAdmissionStart _ _ _ => true
  | .siteCoreRegulated _ => true
  | .siteRailsTimeout _ => true
  | .sidebandDetected _ _ => true
  | .sidebandTimeout _ => true
  | .siteTrainingDone _ modules repaired disabled _ =>
    decide (modules ≤ 8) && repaired.all (fun l => decide (l.1 < 8) && decide (l.2 < 128)) && disabled.all (fun m => decide (m < 8))
  | .negotiateTimeout _ => true
  | .attestComplete _ _ => true
  | .attestTimeout _ => true
  | .crustLoaded _ => true
  | .configTimeout _ => true
  | .siteLinkError _ => true
  | .siteRetrainDone _ modules repaired => decide (modules ≤ 8) && repaired.all (fun l => decide (l.1 < 8) && decide (l.2 < 128))
  | .siteRetrainTimeout _ => true
  | .siteRailShort _ => true
  | .sitFence _ => true
  | .sitReadmit _ => true
  | .sitRetrain _ => true
  | .sitVsetWrite _ _ => true
  | .rdNc _ m => gmsgOk m
  | .wr _ m => gmsgOk m
  | .rdData _ m => gmsgOk m
  | .cmp _ m => gmsgOk m
  | .rdCur _ m => gmsgOk m
  | .wrPart _ m => gmsgOk m
  | .rdShared _ m _ => gmsgOk m
  | .rdOwn _ m => gmsgOk m
  | .upgrade _ m => gmsgOk m
  | .evictClean _ m => gmsgOk m
  | .wbDirty _ m => gmsgOk m
  | .snpRsp _ m => gmsgOk m
  | .snpRspData _ m => gmsgOk m
  | .ack _ m => gmsgOk m
  | .identity _ m => gmsgOk m
  | .arriveInfo _ m => gmsgOk m
  | .voltReq _ m => gmsgOk m
  | .credit _ m => gmsgOk m
  | .occupantRspTimeout _ _ => true
  | .snoopTimeout _ _ => true
  | .flushTimeout _ => true
  | .cachingSiteFlushDone _ => true
  | .cxlRdcurr _ m => decide (m.data.length ≤ 64)
  | .cxlRdshared _ m => decide (m.data.length ≤ 64)
  | .cxlRdany _ m => decide (m.data.length ≤ 64)
  | .cxlRdown _ m => decide (m.data.length ≤ 64)
  | .cxlRdownnodata _ m => decide (m.data.length ≤ 64)
  | .cxlClflush _ m => decide (m.data.length ≤ 64)
  | .cxlCleanevict _ m => decide (m.data.length ≤ 64)
  | .cxlDirtyevict _ m => decide (m.data.length ≤ 64)
  | .cxlItomwr _ m => decide (m.data.length ≤ 64)
  | .cxlCacheflushed _ m => decide (m.data.length ≤ 64)
  | .cxlSnoopResponse _ _ m => decide (m.data.length ≤ 64)
  | .cxlUnlistedD2h _ m => decide (m.data.length ≤ 64)
  | .cxlGoAcked _ _ => true
  | .cxlMemResponse _ _ data _ => decide (data.length ≤ 256)
  | .stlTrainingDone _ tr => decide (tr.lanes.toNat ≠ 0)
  | .stlTrainingTimeout _ => true
  | .stlLinkLoss _ => true
  | .stlRetrainDone _ tr => decide (tr.lanes.toNat ≠ 0)
  | .stlRetrainTimeout _ => true
  | .stlPortFence _ => true
  | .stlPortReadmit _ => true
  | .stlPortRetrain _ => true
  | .slotReceive _ sl _ => decide (sl.payload.length ≤ 4096)
  | .nakBlock _ _ => true
  | .abortBlock _ _ => true
  | .stlCredit _ _ => true
  | .linkBlock _ _ => true
  | .serdesRefclkLost _ => true
  | .colWaitSatisfied _ => true
  | .colOpComplete _ => true
  | .colAbort _ => true
  | .colFence _ => true
  | .colReadmit _ => true
  | .vifAttach v _ => viOk v
  | .vifDetach v => viOk v
  | .vifLease v => viOk v
  | .leaseWarn v => viOk v
  | .leaseExpiry v => viOk v
  | .pfQuiesce => true
  | .pfDetach => true
  | .ringReadCompletion v _ _ => viOk v
  | .cmdNop v => viOk v
  | .cmdTransfer v => viOk v
  | .cmdBarrier v => viOk v
  | .cmdWaitStep v => viOk v
  | .hstAttach _ => true
  | .hstDrvLease => true
  | .drvLeaseExpiry => true
  | .drvDetach => true
  | .busMasterDisable => true
  | .functionLevelReset => true
  | .perstAssert => true
  | .perstRelease rate width _ => linkOk rate width
  | .d3hotEntry => true
  | .pcieLinkDown => true
  | .interruptDisableWrite _ => true
  | .spdmGetVersion _ req => !req.isEmpty
  | .spdmGetCapabilities _ req => !req.isEmpty
  | .spdmNegotiateAlgorithms _ req => !req.isEmpty
  | .spdmGetDigests _ req => !req.isEmpty
  | .spdmGetCertificate _ req => !req.isEmpty
  | .spdmChallenge _ req => !req.isEmpty
  | .spdmGetMeasurements _ req => !req.isEmpty
  | .sealOpen v => viOk v
  | .sealOpenComplete v => viOk v
  | .sealClose v => viOk v
  | .secSealClose _ => true
  | .keySlotWipe v => viOk v
  | .keySlotFault v => viOk v
  | .entropyFail => true
  | .lcsRequest _ _ burn => burnOk burn
  | .openErase => true
  | .openCert _ => true
  | .tapClose => true
  | .dbgClose => true
  | .debugDurationExpiry _ => true
  | .tapBypass _ => true
  | .tapIdcode => true
  | .tapExtest _ => true
  | .tapSamplePreload _ _ => true
  | .powerControlTick x => powerInOk x
  | .powerSample1ms _ _ _ => true
  | .calibrationUpdate => true
  | .tileFail _ => true
  | .inputCurrentTrip => true
  | .supplyDroop _ => true
  | .fclkAdjust _ _ => true
  | .thermalSample _ _ => true
  | .throtNAssert => true
  | .rackBudgetSet _ => true
  | .powerOn => true
  | .inputUndervoltage => true
  | .inputOvervoltage => true
  | .faultDetect g bit _ => decide (bit.val ≤ Machine.topBit g.val)
  | .graceExpiry _ => true
  | .faultStatusClear _ _ => true
  | .faultAck _ _ => true
  | .faultMaskWrite _ _ => true
  | .faultActionWrite _ _ => true
  | .faultInjectArm _ _ => true
  | .errnHeartbeat => true
  | .hubReset x => startInOk x
  | .startComplete => true
  | .startWatchdogExpiry x => startInOk x
  | .mgtWatchdogExpiry => true
  | .handoverRecordWrite => true
  | .peelDeferCheck => true
  | .peelDeferLong => true
  | .peelFreeze => true
  | .peelJump => true
  | .peelResume => true
  | .peelResumeTimeout _ => true
  | .peelCommit _ => true
  | .pldmGetTid => true
  | .pldmGetPldmVersion _ => true
  | .pldmGetPldmTypes => true
  | .pldmGetPldmCommands _ => true
  | .pldmSensorRead sensor => decide (sensor < 256)
  | .pldmFwTransfer _ bytes => decide (bytes.length ≤ maxFetch)
  | .pldmActivateFirmware _ => true
  | .cxlIoRequest _ _ m => decide (m.data.length ≤ 256)
  | .proofPortUp _ _ => true
  | .busMasterEnable => true
  | .d0Entry => true
  | .atsEnable _ => true
  | .priEnable _ _ => true
  | .throtNRelease => true
  | .tileRestart x => startInOk x
  | .droopStretchEnd _ => true
  | .pcieLinkUp rate width _ => linkOk rate width
  | .hostCompletionTimeout _ => true
  | .flashWriteDone _ => true
  | .mgtHalt _ => true
  | .powerOverride _ => true
  | .hbmHardRepair _ => true

end Sys2Proof
end

