-- ==== Sys2Proof/Tests/Slice0.lean ====
section
/-! SUPPORT. Tests: commands that the check of well-formedness refuses, and the manual's worked examples (each test names its section).
The other files of this folder show, for every clause of every statement, a state and operands that meet its hypotheses. -/
namespace Sys2Proof.Tests
open Sys2Proof Sys2Proof.Machine
set_option Elab.async false

/-! ### Ill-formed commands: one for each check of `wf`, at the first value past its range -/

/-- Addresses past each window, and a write of no byte. -/
theorem test_wf_windows :
    ([.regWrite .bar0 0x2000000 0 0xF false, .regWrite .bar2 0 0 0 false, .regWrite .bar4 0x100000 0 0xF false, .regReadClear ⟨.bar2, false⟩ 0x4000000, .regReadClear ⟨.bar0, true⟩ 0x1FFFFFC,
      .regReadTimeout 0x2000000, .regRead 0 0 0x2000000] : List Instr).all (fun c => !wf c) = true := by decide +kernel
/-- Virtual interface 0 does not exist. -/
theorem test_wf_vi_zero :
    ([.mbxSelectWrite .host (.viView 0) 0, .mbxCaptureDone .host (.viTel 0), .fetchSlot 0, .vifAttach 0 0, .vifDetach 0, .vifLease 0, .leaseWarn 0,
      .leaseExpiry 0, .ringReadCompletion 0 .sc [], .cmdNop 0, .cmdTransfer 0, .cmdBarrier 0, .cmdWaitStep 0, .sealOpen 0, .sealOpenComplete 0,
      .sealClose 0, .keySlotWipe 0, .keySlotFault 0] : List Instr).all (fun c => !wf c) = true := by decide +kernel
/-- A token of another type. -/
theorem test_wf_tokens :
    let k : Token := { type := .arrive, domain := 0, flags := 0, frac := 0, hops := 0, step := 0, tick := 0, crc := 0 };
    ([.arriveToken (.port 0) { k with type := .hold }, .releaseToken (.port 0) k, .holdToken (.port 0) k, .breakToken (.port 0) k, .timeReq (.port 0) k,
      .timeResp (.port 0) k] : List Instr).all (fun c => !wf c) = true := by decide +kernel
/-- Burns of more bits than the widest field has, an opcode of a command that exists, a broadcast to no cell, a page of 3 KiB or no power of two. -/
theorem test_wf_burns_and_pages :
    ([.otpProgram .bar0 0 0x100000000 [] .full, .otpProgram .bar0 0 1 [] (.short 513 0 0), .lcsRequest .bar0 1 (.short 0 513 0), .mbReservedOpcode 0 0x01,
      .cfgBcast 0 0 1 0 0, .cfgBcast 0 1 0 0 0, .atsTranslationCompletion 0 0 3072 0 true true .sc, .atsInvalidate 0 0 12288] :
      List Instr).all (fun c => !wf c) = true := by decide +kernel
/-- A scrub that finds nothing, a bit that a group has not, modules repaired that are not there. -/
theorem test_wf_events :
    ([.hbmScrub 0 [(0, .clean)], .sramScrub [(0, .clean)], .rowRepair 0x1000000000000 [],
      .faultSignal 28 5, .faultDetect 0 8 0, .siteTrainingDone 0 9 [] [] true, .siteTrainingDone 0 8 [(8, 0)] [] true, .siteTrainingDone 0 8 [] [8] true, .siteRetrainDone 0 9 [],
      .siteRetrainDone 0 8 [(0, 128)],
      .stlTrainingDone 0 { lanes := 0, polarity := 0, laneMap := 0, peerId := 0, peerPort := 0, latency := 0 },
      .stlRetrainDone 0 { lanes := 0, polarity := 0, laneMap := 0, peerId := 0, peerPort := 0, latency := 0 },
      .pcieLinkUp 6 16 true, .pcieLinkUp 5 3 true, .perstRelease 5 0 true, .pldmSensorRead 256] : List Instr).all (fun c => !wf c) = true := by decide +kernel
/-- Messages of a chiplet whose data do not agree with their length. -/
theorem test_wf_gelja :
    let m : GMsg := { len := 1, data := [0] };
    ([.rdNc 0 m, .wr 0 m, .rdData 0 m, .cmp 0 m, .rdCur 0 m, .wrPart 0 m, .rdShared 0 m false, .rdOwn 0 m, .upgrade 0 m, .evictClean 0 m, .wbDirty 0 m,
      .snpRsp 0 m, .snpRspData 0 m, .ack 0 m, .identity 0 m, .arriveInfo 0 m, .voltReq 0 m, .credit 0 m] : List Instr).all (fun c => !wf c) = true := by
  decide +kernel
theorem test_wf_cxl :
    let m : CxlMsg := { data := List.replicate 65 0 };
    ([.cxlRdcurr 0 m, .cxlRdshared 0 m, .cxlRdany 0 m, .cxlRdown 0 m, .cxlRdownnodata 0 m, .cxlClflush 0 m, .cxlCleanevict 0 m, .cxlDirtyevict 0 m,
      .cxlItomwr 0 m, .cxlCacheflushed 0 m, .cxlSnoopResponse 0 .iHitI m, .cxlUnlistedD2h 0 m, .cxlMemResponse 0 0 (List.replicate 257 0) false,
      .cxlIoRequest 0 .memWr { data := List.replicate 257 0 }] : List Instr).all (fun c => !wf c) = true := by decide +kernel
/-- Empty SPDM requests. -/
theorem test_wf_spdm :
    ([.spdmGetVersion 0 [], .spdmGetCapabilities 0 [], .spdmNegotiateAlgorithms 0 [], .spdmGetDigests 0 [], .spdmGetCertificate 0 [], .spdmChallenge 0 [],
      .spdmGetMeasurements 0 []] : List Instr).all (fun c => !wf c) = true := by decide +kernel
/-- Bodies of data that are too long. -/
theorem test_wf_bodies (r : Bool) (bs : List Byte) (h : maxFetch < bs.length) :
    wf (.imageFetchDone bs) = false ∧ wf (.fwUpdate 0 bs) = false ∧ wf (.pldmFwTransfer r bs) = false ∧
    wf (.hostReadCompletion 0 .sc (List.replicate 4097 0) false) = false ∧
    wf (.slotReceive 0 { hdr := 0, payload := List.replicate 4097 0 } true) = false := by
  simp only [wf, List.length_replicate]
  simp only [decide_eq_false_iff_not, Nat.not_le]
  exact ⟨h, h, h, by decide, by decide⟩
def badStart : StartIn :=
  { young := false, flashOk := true, sramTest := true, secTest := true, otpOk := true, synthLock := true, crossings := 7, entropyOk := true,
    nonce := 0, banksBad := [64], sramRows := [], chansBad := [], hbmRows := [], cellsBad := [], switchBad := [], verifyA := false, verifyB := false,
    verifyR := false, proofPorts := 0, proofPeers := [], throtLow := false }
/-- Measurements and findings of units that do not exist. -/
theorem test_wf_inputs :
    let p : PowerIn := { amps8 := 0, raw := 0, hubRaw := 0, baseRaw := 0, groupW := [], partRaw := [], siteW := [(18, 0)], tiles := [], energy := [] };
    let x := badStart;
    ([.powerControlTick p, .powerControlTick { p with siteW := [], tiles := [(8, 0, 0, 0, 0)] }, .hubReset x, .startWatchdogExpiry x,
      .tileRestart { x with banksBad := [], chansBad := [192] }] : List Instr).all (fun c => !wf c) = true := by decide +kernel
theorem test_wf_good : wf (.regWrite .bar0 0x1FFFFFC 0 0xF false) = true ∧ wf (.vifDetach 1023) = true ∧ wf (.faultDetect 28 4 0) = true := by
  decide +kernel

/-! ### Worked examples -/

/-- "The cell fabric", micro-operation encoding: DOT of row segment 5, word 0x60C1_0048_0000_0005. -/
theorem test_dot_word : uopOf 0x60C1004800000005 =
    { op := 0x18, fmt := 3, rnd := 0, route := 0, dst := 0x20, a := 2, b := 0x10, c := 0, imm := 5 } := by decide +kernel
/-- "Arithmetic", R208: a block whose largest magnitude is 100.0; the scale is 0x7D, 100.0 becomes 0x7C and 0.01 becomes 0x12. -/
theorem test_mxpack :
    mxPack 6 .near (List.replicate 32 0) ([decodeNum 1 false 0x42C80000, decodeNum 1 false 0x3C23D70A] ++ List.replicate 30 (zeroNum false)) =
      (0x7D, [0x7C, 0x12] ++ List.replicate 30 0) := by decide +kernel
/-- "Arithmetic", the grid sum of four packages: the grid values under the exponent word 0x0018, their sum 2^77, and 2.0. -/
theorem test_grid_values :
    gridQ 1 false 0x18 0x4B800000 = 2 ^ 100 ∧ gridQ 1 false 0x18 0x3F800000 = 2 ^ 76 ∧ gridQ 1 false 0x18 0xCB800000 = 2 ^ 128 - 2 ^ 100 := by
  decide +kernel
theorem test_grid_sum :
    gridAdd (gridAdd (2 ^ 100) (2 ^ 76)) (gridAdd (2 ^ 76) (2 ^ 128 - 2 ^ 100)) = 2 ^ 77 ∧ gridRound 1 .near false 0x18 (2 ^ 77) = 0x40000000 ∧
    gridQ 1 false 0x18 0x17800000 = 0 := by decide +kernel
/-- The same, in binary32: the ring order gives 0.0 and the tree 1.0. -/
theorem test_ordered_sum :
    let add := arithAdd 1 .near false 0;
    add (add (add 0x4B800000 0x3F800000) 0x3F800000) 0xCB800000 = 0 ∧
    add (add 0x4B800000 0x3F800000) (add 0x3F800000 0xCB800000) = 0x3F800000 := by decide +kernel
/-- "Transfers and translation": entry 5 of the host window for context 37. -/
theorem test_host_window :
    hwtFind { up with xlt := { hwt := [(5, BitVec.ofNat 256 (0x800002000000 + 37 * 2 ^ 48 + 2 ^ 60 + 2 ^ 61 + 2 ^ 63 + 0x7F3A40000000 * 2 ^ 64 + 32 * 2 ^ 128))] } }
      37 0x800002123000 = some (5, BitVec.ofNat 256 (0x800002000000 + 37 * 2 ^ 48 + 2 ^ 60 + 2 ^ 61 + 2 ^ 63 + 0x7F3A40000000 * 2 ^ 64 + 32 * 2 ^ 128),
        0x7F3A40123000) := by decide +kernel
/-- "Staging SRAM and HBM4 stacks": 0x0126_9234_5640 lies in position M2, channel 13, granule 145. -/
theorem test_hbm_address : paSpot up 0x012692345640 = .hbm 2 13 145 := by decide +kernel
/-- "Bring-up, repair and degradation": DATA 0x34D8_648D names the row of that address. -/
theorem test_defect_row : (rowPa 0x34D8648D).map (rowKey up) = some (rowKey up 0x012692345640) := by decide +kernel
/-- "Staging SRAM and HBM4 stacks": at 90 °C REFI_SCALE is 90. -/
theorem test_refi_scale : refiScale 360 = 90 ∧ refiScale 339 = 256 ∧ refiScale 380 = 64 := by decide +kernel
/-- "Life cycle and debug": copies of 9, 9 and 8 bits are partly burnt and not burnt; of at most 4 bits, unburnt. -/
theorem test_partly_burnt :
    let o : Otp := { fields := [(9, 0x01FF#16), (10, 0x01FF#16), (11, 0x00FF#16)] };
    burnt o 3 = false ∧ partlyBurnt o 3 = true ∧ burnt (finishFields o) 3 = true ∧
    partlyBurnt { o with fields := [(9, 0x000F#16), (10, 0x000F#16), (11, 0x000F#16)] } 3 = false := by decide +kernel
/-- "Electrical and mechanical": site S12 straps as 0x2C and 0x13. -/
theorem test_straps : strapsOk 12 0x2C 0x13 = true ∧ strapsOk 13 0x2C 0x13 = false ∧ strapsOk 12 0x0C 0x33 = false := by decide +kernel
/-- "Register model": 0xB114_5800 written to the indirect address sets AUTO_INC; a read of its data word moves the address by 4. -/
theorem test_ind_address :
    let s := after (.regWrite .bar0 0x40 0xB1145800 0xF false) up;
    s.indH.autoInc = true ∧ s.indH.addr = 0x31145800 := by decide +kernel

/-! ### The word interface -/

/-- No row of the table has bits, so no word spells a command and the queue stays as it is. -/
theorem test_no_word : decodeTableWord 32 0xFFFFFFFF = none ∧ (State.reset.withFetchWord 32 0).pending = [] := by decide +kernel

end Sys2Proof.Tests
end

