-- ==== Sys2Proof/Tests/Witness1.lean ====
section
/-! SUPPORT. Witnesses: states and operands that meet the hypotheses of the statements on the step, registers, images and proofs. -/
namespace Sys2Proof.Tests
open Sys2Proof Sys2Proof.Machine Sys2Proof.Safety
set_option linter.unusedVariables false
set_option Elab.async false


/-- A fetch of 64 bytes in progress. -/
def fetching (len : Nat) : State := { up with img := { load := { stage := .fetching, length := len } } }
/-- A hub in flatbread mode. -/
def flat : State := { State.reset with mgt := { stage := .flatbread, rcvOn := true } }
/-- A firmware image in hand. -/
def fwim : FwImage := { version := 0x01070000, svn := 3 }
/-- A full image in force that enables partition 0, in a state. -/
def withPart (x : Part) : State := { up with parts := [(0, x)] }
/-- A write of one line and an IDENTITY. -/
def twoMsgs : List (Nat × GMsg) := [(0x02, { tag := 5, len := 1, data := List.replicate 64 7 }), (0x60, { extra := 9 })]
theorem twoMsgs_whole : ∀ x ∈ twoMsgs, WholeMsg x.1 x.2 := by
  intro x hx
  simp only [twoMsgs, List.mem_cons, List.not_mem_nil, or_false] at hx
  rcases hx with rfl | rfl
  · exact ⟨by decide, by decide, by decide, fun _ => rfl, fun _ => rfl⟩
  · exact ⟨by decide, by decide, by decide, fun _ => rfl, fun h => absurd rfl h⟩
def cfg0 : PartCfg := { enable := true, domainSize := 1 }

theorem witness_IdleStepIsOneTick_0 :
    let s : State := State.reset;
        s.pending = [] :=
    by decide +kernel

theorem witness_IdleStepIsOneTick_1 :
    let s : State := State.reset;
        s.pending = [] ∧ s.clk.slew = 0 :=
    ⟨by decide +kernel, by decide +kernel⟩

theorem witness_IdleStepIsOneTick_2 :
    let s : State := State.reset;
        s.pending = [] ∧ Quiet s :=
    ⟨by decide +kernel, ⟨rfl, rfl, rfl, rfl, rfl, rfl, rfl, rfl, rfl, rfl⟩⟩

theorem witness_QueueAndOutputKept_0 :
    let c : Instr := .partHold 3;
    let s : State := State.reset;
    let t : State := after (.partHold 3) (State.reset);
        exec c s = .next t :=
    rfl

theorem witness_QueueAndOutputKept_1 :
    let s : State := State.reset;
    let t : State := afterStep State.reset;
        step s = .next t :=
    rfl

theorem witness_StepKeepsCanonicalForm_0 :
    let s : State := State.reset;
    let t : State := afterStep State.reset;
        Safety.Canon s ∧ step s = .next t :=
    ⟨canon_of (by decide +kernel), rfl⟩

theorem witness_OtpBitsAreOnlySet_0 :
    let s : State := State.reset;
    let t : State := afterStep State.reset;
        Safety.Canon s ∧ step s = .next t :=
    ⟨canon_of (by decide +kernel), rfl⟩

theorem witness_LifeCycleNeverGoesBack_0 :
    let s : State := { State.reset with lcs := { otp := { fields := [(9, 0xFFFF#16), (10, 0xFFFF#16), (11, 0xFFFF#16)] } } };
    let o := s.lcs.otp;
        burnt o 3 = true :=
    by decide +kernel

theorem witness_LifeCycleNeverGoesBack_1 :
    let s : State := { State.reset with lcs := { otp := { fields := [(6, 0xFFFF#16), (7, 0xFFFF#16), (8, 0xFFFF#16)] } } };
    let o := s.lcs.otp;
        burnt o 3 = false ∧ burnt o 2 = true :=
    ⟨by decide +kernel, by decide +kernel⟩

theorem witness_LifeCycleNeverGoesBack_2 :
    let s : State := { State.reset with lcs := { otp := { fields := [(3, 0xFFFF#16), (4, 0xFFFF#16), (5, 0xFFFF#16)] } } };
    let o := s.lcs.otp;
        burnt o 3 = false ∧ burnt o 2 = false ∧ burnt o 1 = true :=
    ⟨by decide +kernel, by decide +kernel⟩

theorem witness_LifeCycleNeverGoesBack_3 :
    let s : State := State.reset;
    let o := s.lcs.otp;
        burnt o 3 = false ∧ burnt o 2 = false ∧ burnt o 1 = false ∧ burnt o 0 = true :=
    ⟨by decide +kernel, by decide +kernel⟩

theorem witness_LifeCycleNeverGoesBack_4 :
    let s : State := { State.reset with lcs := { otp := { fields := [] } } };
    let o := s.lcs.otp;
        burnt o 3 = false ∧ burnt o 2 = false ∧ burnt o 1 = false ∧ burnt o 0 = false :=
    ⟨by decide +kernel, by decide +kernel⟩

theorem witness_LifeCycleNeverGoesBack_5 :
    let s : State := State.reset;
    let t : State := afterStep State.reset;
        Safety.Canon s ∧ step s = .next t :=
    ⟨canon_of (by decide +kernel), rfl⟩

theorem witness_MemoryAndWhatStoresInIt_0 :
    let s : State := State.reset;
    let bs : List Byte := [1, 2];
    let i := 1;
        s.mem.wf ∧ i < bs.length :=
    ⟨by decide +kernel, by decide +kernel⟩

theorem witness_MemoryAndWhatStoresInIt_1 :
    let s : State := State.reset;
    let pa : Nat := 0x40;
    let bs : List Byte := [1, 2];
    let a := 0x42;
        s.mem.wf ∧ (a < pa ∨ pa + bs.length ≤ a) :=
    ⟨by decide +kernel, by decide +kernel⟩

theorem witness_MemoryAndWhatStoresInIt_2 :
    let s : State := State.reset;
        s.mem.wf :=
    by decide +kernel

theorem witness_MemoryAndWhatStoresInIt_3 :
    let c : Instr := .partHold 3;
    let s : State := State.reset;
    let t : State := after (.partHold 3) (State.reset);
        Safety.Canon s ∧ exec c s = .next t ∧ Safety.storesData c = false :=
    ⟨canon_of (by decide +kernel), rfl, by decide +kernel⟩

theorem witness_WhatOnlyTheseCommandsChange_0 :
    let c : Instr := .partHold 3;
    let s : State := State.reset;
    let t : State := after (.partHold 3) (State.reset);
        exec c s = .next t ∧ Safety.mayReset c = false ∧ Safety.setsWindows c = false :=
    ⟨rfl, by decide +kernel⟩

theorem witness_WhatOnlyTheseCommandsChange_1 :
    let c : Instr := .partHold 3;
    let s : State := State.reset;
    let t : State := after (.partHold 3) (State.reset);
        exec c s = .next t ∧ Safety.mayReset c = false ∧ Safety.setsMappings c = false :=
    ⟨rfl, by decide +kernel⟩

theorem witness_WhatOnlyTheseCommandsChange_2 :
    let c : Instr := .partHold 3;
    let s : State := State.reset;
    let t : State := after (.partHold 3) (State.reset);
        exec c s = .next t ∧ Safety.mayReset c = false ∧ Safety.setsImage c = false :=
    ⟨rfl, by decide +kernel⟩

theorem witness_WhatOnlyTheseCommandsChange_3 :
    let c : Instr := .partHold 3;
    let s : State := State.reset;
    let t : State := after (.partHold 3) (State.reset);
        exec c s = .next t ∧ Safety.burnsOtp c = false :=
    ⟨rfl, by decide +kernel⟩

theorem witness_WhatOnlyTheseCommandsChange_4 :
    let c : Instr := .partHold 3;
    let s : State := State.reset;
    let t : State := after (.partHold 3) (State.reset);
        exec c s = .next t ∧ Safety.mayReset c = false :=
    ⟨rfl, by decide +kernel⟩

theorem witness_WhatOnlyTheseCommandsChange_5 :
    let c : Instr := .partHold 3;
    let s : State := State.reset;
    let t : State := after (.partHold 3) (State.reset);
        exec c s = .next t ∧ Safety.mayReset c = false ∧ Safety.touchesDebug c = false :=
    ⟨rfl, by decide +kernel⟩

theorem witness_WhatOnlyTheseCommandsChange_6 :
    let c : Instr := .partHold 3;
    let s : State := State.reset;
    let t : State := after (.partHold 3) (State.reset);
        exec c s = .next t ∧ Safety.mayReset c = false ∧ Safety.setsThermal c = false :=
    ⟨rfl, by decide +kernel⟩

theorem witness_WhatOnlyTheseCommandsChange_7 :
    let c : Instr := .partHold 3;
    let s : State := State.reset;
    let t : State := after (.partHold 3) (State.reset);
        exec c s = .next t ∧ Safety.mayReset c = false ∧ Safety.setsProofPorts c = false :=
    ⟨rfl, by decide +kernel⟩

theorem witness_WhatOnlyTheseCommandsChange_8 :
    let c : Instr := .partHold 3;
    let s : State := State.reset;
    let t : State := after (.partHold 3) (State.reset);
        exec c s = .next t ∧ Safety.mayReset c = false ∧ (∀ who m v, c ≠ .mbxSelectWrite who m v) ∧ (∀ who m, c ≠ .mbxCaptureDone who m) :=
    ⟨rfl, by decide +kernel, (by intros; exact fun h => by cases h), (by intros; exact fun h => by cases h)⟩

theorem witness_WhatOnlyTheseCommandsChange_9 :
    let c : Instr := .partHold 3;
    let s : State := State.reset;
    let t : State := after (.partHold 3) (State.reset);
        exec c s = .next t ∧ Safety.mayReset c = false ∧ (∀ p a, c ≠ .regReadClear p a) ∧ (∀ who w v, c ≠ .indDataAccess who w v) ∧ (∀ n g
      a, c ≠ .regRead n g a) :=
    ⟨rfl, by decide +kernel, (by intros; exact fun h => by cases h), (by intros; exact fun h => by cases h), (by intros; exact fun h => by cases h)⟩

theorem witness_WhatOnlyTheseCommandsChange_10 :
    let c : Instr := .partHold 3;
    let s : State := State.reset;
    let t : State := after (.partHold 3) (State.reset);
        exec c s = .next t ∧ Safety.mayReset c = false ∧ (∀ n, c ≠ .siteAckTimeout n) :=
    ⟨rfl, by decide +kernel, (by intros; exact fun h => by cases h)⟩

theorem witness_WhatOnlyTheseCommandsChange_11 :
    let c : Instr := .partHold 3;
    let s : State := State.reset;
    let t : State := after (.partHold 3) (State.reset);
        exec c s = .next t ∧ Safety.mayReset c = false ∧ c ≠ .functionLevelReset ∧ c ≠ .perstAssert :=
    ⟨rfl, by decide +kernel⟩

theorem witness_NetworkCreditsAreConserved_0 :
    let s : State := State.reset;
    let t : State := afterStep State.reset;
        Safety.CreditsKept s.noc.net ∧ step s = .next t :=
    ⟨⟨rfl, rfl, fun _ => rfl⟩, rfl⟩

theorem witness_NetworkCreditsAreConserved_1 :
    let c : Instr := .partHold 3;
    let s : State := State.reset;
    let t : State := after (.partHold 3) (State.reset);
        exec c s = .next t ∧ Safety.mayReset c = false :=
    ⟨rfl, by decide +kernel⟩

theorem witness_GeljaFramingRoundTrip_0 :
    let ms : List (Nat × GMsg) := twoMsgs;
        (∀ x ∈ ms, Safety.WholeMsg x.1 x.2) :=
    twoMsgs_whole

theorem witness_GeljaFramingRoundTrip_1 :
    let ms : List (Nat × GMsg) := twoMsgs;
        (∀ x ∈ ms, Safety.WholeMsg x.1 x.2) :=
    twoMsgs_whole

theorem witness_GeljaFramingRoundTrip_2 :
    let op : Nat := 2;
    let m : GMsg := { tag := 5, len := 1, data := List.replicate 64 7 };
        Safety.WholeMsg op m :=
    ⟨by decide, by decide, by decide, fun _ => rfl, fun _ => rfl⟩

theorem witness_WritesCoverWholeRegisters_0 :
    let be : BitVec 8 := 0x7;
        be.toNat % 16 ≠ 15 :=
    by decide +kernel

theorem witness_WritesCoverWholeRegisters_1 :
    let be : BitVec 8 := 0xF;
        be.toNat % 16 = 15 :=
    by decide +kernel

theorem witness_RegisterReads_0 :
    let path : RegPath := .bar0;
    let s : State := up;
        (path = .bar0 ∨ path = .fw) ∧ s.mgt.stage ≠ .flatbread :=
    ⟨by decide +kernel, by decide +kernel⟩

theorem witness_RegisterReads_1 :
    let s : State := State.reset;
        Tab.rises s.flt.groups = true :=
    by decide +kernel

theorem witness_IndirectAndWideValues_0 :
    let who : Owner2 := .host;
    let write : Bool := true;
    let s : State := { State.reset with indH := { addr := 0x30000000 }, indF := { addr := 0x30000000 } };
    let i := indOf who s;
    let bad := indForbidden s who write i.addr.toNat;
        bad = true ∧ write = true :=
    ⟨by decide +kernel, by decide +kernel⟩

theorem witness_IndirectAndWideValues_1 :
    let who : Owner2 := .fw;
    let write : Bool := false;
    let s : State := { State.reset with indH := { addr := 0x3FFFFFFC }, indF := { addr := 0x3FFFFFFC } };
    let i := indOf who s;
    let bad := indForbidden s who write i.addr.toNat;
        bad = true ∧ write = false :=
    ⟨by decide +kernel, by decide +kernel⟩

theorem witness_IndirectAndWideValues_2 :
    let who : Owner2 := .host;
    let write : Bool := false;
    let s : State := { State.reset with indH := { addr := 0x30000000 }, indF := { addr := 0x30000000 } };
    let i := indOf who s;
    let bad := indForbidden s who write i.addr.toNat;
        bad = false ∧ write = false :=
    ⟨by decide +kernel, by decide +kernel⟩

theorem witness_IndirectAndWideValues_3 :
    let who : Owner2 := .fw;
    let write : Bool := true;
    let s : State := { State.reset with indH := { addr := 0x30000000 }, indF := { addr := 0x30000000 } };
    let i := indOf who s;
    let bad := indForbidden s who write i.addr.toNat;
        bad = false ∧ write = true :=
    ⟨by decide +kernel, by decide +kernel⟩

theorem witness_IndirectAndWideValues_4 :
    let m : MbxId := .prfTime;
    let sel : Word := 0;
    let s : State := State.reset;
    let v : Nat := 0;
        (∀ g, mbxGroup m = some g → frozen g s = false) ∧ mbxValue m sel.toNat s = some v :=
    ⟨(by intro g hg; cases hg; decide +kernel), by decide +kernel⟩

theorem witness_IndirectAndWideValues_5 :
    let who : Owner2 := .fw;
    let m : MbxId := .prfStep;
    let s : State := { State.reset with mbxF := [(.prfStep, { sel := 63, busy := true })] };
    let v : Nat := 0;
        m ≠ .trc ∧ (mbxOf who m s).busy = true ∧ mbxValue m (mbxOf who m s).sel.toNat s = some v :=
    ⟨by decide +kernel, by decide +kernel⟩

theorem witness_MailboxCommands_0 :
    let s : State := { up with mgt := { up.mgt with busy := true } };
        Groups s ∧ Calm 0 s ∧ (s.mgt.busy = true ∨ s.mgt.unavail = true) :=
    ⟨by decide +kernel, calm_of (by decide +kernel), by decide +kernel⟩

theorem witness_MailboxCommands_1 :
    let s : State := { State.reset with mgt := { stage := .flatbread } };
        s.mgt.busy = false ∧ s.mgt.unavail = false ∧ (lifeCycle s = 4 ∨ s.mgt.stage = .flatbread) :=
    ⟨by decide +kernel, by decide +kernel⟩

theorem witness_MailboxCommands_2 :
    let s : State := up;
        MailboxFree s :=
    free_of (by decide +kernel)

theorem witness_MailboxCommands_3 :
    let s : State := up;
    let opcode : BitVec 8 := 0xFF;
        MailboxFree s ∧ mbOpcodes.contains opcode.toNat = false :=
    ⟨free_of (by decide +kernel), by decide +kernel⟩

theorem witness_MailboxCommands_4 :
    let s : State := { up with mgt := { up.mgt with peel := .staged, staged := some fwim } };
        MailboxFree s ∧ (s.mgt.peel = .staged ∨ s.mgt.peel = .deferred) :=
    ⟨free_of (by decide +kernel), by decide +kernel⟩

theorem witness_MailboxCommands_5 :
    let s : State := { up with mgt := { up.mgt with fw := fwim, args := [(0, 3)] } };
        MailboxFree s ∧ mbArg s 0 = s.mgt.fw.svn ∧ inputLow s = false :=
    ⟨free_of (by decide +kernel), by decide +kernel⟩

theorem witness_MailboxCommands_6 :
    let s : State := { up with mgt := { up.mgt with fw := fwim, args := [(0, 3)] }, pwr := { reasons := 128 } };
        MailboxFree s ∧ mbArg s 0 = s.mgt.fw.svn ∧ inputLow s = true :=
    ⟨free_of (by decide +kernel), by decide +kernel⟩

theorem witness_FirmwareUpdate_0 :
    let bytes : List Byte := List.replicate 96 0;
    let s : State := { upArgs [(2, 96), (3, 0x20)] with host := { dmaStopped := false } };
        MailboxFree s ∧ updateDenied false s = false ∧ mbArg s 3 = 0x20 ∧ mbArg s 2 = bytes.length ∧ s.host.dmaStopped = false ∧ (freeWindow
      s).isSome = true :=
    ⟨free_of (by decide +kernel), by decide +kernel⟩

theorem witness_FirmwareUpdate_1 :
    let bytes : List Byte := List.replicate 96 0;
    let s : State := { upArgs [(2, 96), (3, 0x10)] with host := { dmaStopped := false } };
        MailboxFree s ∧ updateDenied false s = false ∧ s.mgt.flash.present = true ∧ mbArg s 3 = 0x10 ∧ mbArg s 2 = bytes.length ∧
      s.host.dmaStopped = false ∧ (freeWindow s).isSome = true :=
    ⟨free_of (by decide +kernel), by decide +kernel⟩

theorem witness_FirmwareUpdate_2 :
    let slot : Nat := 1;
    let i : FwImage := fwim;
    let s : State := { up with mgt := { up.mgt with flashOp := .slot 1 fwim true true } };
        s.mgt.flashOp = .slot slot i true true :=
    by decide +kernel

theorem witness_FirmwareUpdate_3 :
    let slot : Nat := 1;
    let i : FwImage := fwim;
    let s : State := { up with mgt := { up.mgt with flashOp := .slot 1 fwim true true } };
        Groups s ∧ Calm 0 s ∧ s.mgt.flashOp = .slot slot i true true :=
    ⟨by decide +kernel, calm_of (by decide +kernel), by decide +kernel⟩

theorem witness_RecoveryLoad_0 :
    let s : State := flat;
        s.mgt.busy = false ∧ s.mgt.unavail = false ∧ lifeCycle s ≠ 4 ∧ s.mgt.stage = .flatbread :=
    ⟨by decide +kernel, by decide +kernel⟩

theorem witness_RecoveryLoad_1 :
    let s : State := flat;
        s.mgt.busy = false ∧ s.mgt.unavail = false ∧ lifeCycle s ≠ 4 ∧ s.mgt.stage = .flatbread ∧ s.mgt.rcvOn = true :=
    ⟨by decide +kernel, by decide +kernel⟩

theorem witness_RecoveryLoad_2 :
    let s : State := flat;
        s.mgt.rcvOn = true ∧ s.mgt.rcv.length + 4 ≤ recoveryRoom :=
    ⟨by decide +kernel, by decide +kernel⟩

theorem witness_RecoveryLoad_3 :
    let s : State := up;
        MailboxFree s :=
    free_of (by decide +kernel)

theorem witness_ImageFetch_0 :
    let s : State := { upArgs [(2, 64)] with host := { dmaStopped := false } };
        MailboxFree s ∧ s.img.load.stage = .idle ∧ 64 ≤ mbArg s 2 ∧ mbArg s 2 ≤ 0x01800000 ∧ s.host.dmaStopped = false ∧ (freeWindow
      s).isSome = true ∧ mbArg s 6 % 4 ≠ 3 :=
    ⟨free_of (by decide +kernel), by decide +kernel⟩

theorem witness_ImageFetch_1 :
    let s : State := { upArgs [(2, 0x01800000)] with host := { dmaStopped := false } };
        MailboxFree s ∧ s.img.load.stage = .idle ∧ 64 ≤ mbArg s 2 ∧ mbArg s 2 ≤ 0x01800000 ∧ s.host.dmaStopped = false ∧ (freeWindow
      s).isSome = true :=
    ⟨free_of (by decide +kernel), by decide +kernel⟩

theorem witness_ImageFetch_2 :
    let s : State := up;
        MailboxFree s ∧ s.img.load.stage = .idle ∧ mbArg s 2 = 0 ∧ mbArg s 6 % 4 ≠ 3 :=
    ⟨free_of (by decide +kernel), by decide +kernel⟩

theorem witness_ImageFetch_3 :
    let s : State := upArgs [(2, 63)];
        MailboxFree s ∧ s.img.load.stage = .idle ∧ 0 < mbArg s 2 ∧ (mbArg s 2 < 64 ∨ 0x01800000 < mbArg s 2) :=
    ⟨free_of (by decide +kernel), by decide +kernel⟩

theorem witness_ImageFetch_4 :
    let bytes : List Byte := List.replicate 96 0;
    let s : State := fetching 96;
        s.img.load.stage = .fetching ∧ s.img.load.boot = false ∧ bytes.length = s.img.load.length :=
    ⟨by decide +kernel, by decide +kernel⟩

theorem witness_ImageValidationEnds_0 :
    let s : State := { withPart { cfg := cfg0, state := .held } with img := { load := { stage := .fetched } } };
        s.img.load.stage = .fetched ∧ s.img.load.boot = false ∧ s.img.load.toFlash = false ∧ s.img.load.cand.partialKind = false ∧ fullOpen
      s = true :=
    ⟨by decide +kernel, by decide +kernel⟩

theorem witness_ImageValidationEnds_1 :
    let s : State := { withPart { cfg := cfg0, state := .running } with img := { load := { stage := .fetched } } };
        s.img.load.stage = .fetched ∧ s.img.load.boot = false ∧ s.img.load.toFlash = false ∧ s.img.load.cand.partialKind = false ∧ fullOpen
      s = false :=
    ⟨by decide +kernel, by decide +kernel⟩

theorem witness_ImageValidationEnds_2 :
    let s : State := { withPart { cfg := cfg0, state := .held } with img := { load := { stage := .fetched, act := some .atHold, cand := { partialKind := true, part := 0 } } } };
        s.img.load.stage = .fetched ∧ s.img.load.boot = false ∧ s.img.load.toFlash = false ∧ s.img.load.cand.partialKind = true ∧
      s.img.load.act = some .atHold ∧ atHold s s.img.load.cand.part = true ∧ Tab.get none s.img.armed s.img.load.cand.part = none :=
    ⟨by decide +kernel, by decide +kernel⟩

theorem witness_ImageActivation_0 :
    let s : State := { withPart { cfg := cfg0, state := .broken } with img := { fullOk := true } };
        s.img.fullOk = true ∧ fullOpen s = true :=
    ⟨by decide +kernel, by decide +kernel⟩

theorem witness_ImageActivation_1 :
    let s : State := { withPart { cfg := cfg0, state := .waiting } with img := { fullOk := true } };
        s.img.fullOk = true ∧ fullOpen s = false :=
    ⟨by decide +kernel, by decide +kernel⟩

theorem witness_ImageActivation_2 :
    let p : Fin 64 := 0;
    let s : State := { withPart { cfg := cfg0, state := .held } with img := { loaded := true, armed := [(0, some { img := { partialKind := true }, act := .atHold })] } };
    let a : Armed := { img := { partialKind := true }, act := .atHold };
        Tab.get none s.img.armed p.val = some a ∧ actNow s p.val a = true ∧ fencedEntries s (exclude (s.part p.val).cfg (exclOf (mergeImage
      s.img.run a.img p.val) p.val a.img.variant)) p.val none = [] :=
    ⟨by decide +kernel, by decide +kernel⟩

theorem witness_ImageActivation_3 :
    let p : Fin 64 := 0;
    let s : State := { withPart { cfg := cfg0, state := .running } with img := { loaded := true, armed := [(0, some { img := { partialKind := true }, act := .atHold })] } };
    let a : Armed := { img := { partialKind := true }, act := .atHold };
        Tab.get none s.img.armed p.val = some a ∧ actNow s p.val a = false :=
    ⟨by decide +kernel, by decide +kernel⟩

theorem witness_StepsStartAndEnd_0 :
    let p : Fin 64 := 0;
    let s : State := withPart { cfg := cfg0, armed := some { tick := 90, distributed := true } };
    let a : ReleaseArm := { tick := 90, distributed := true };
        Canon s ∧ (s.part p.val).armed = some a ∧ s.clk.now.toNat < a.tick.toNat :=
    ⟨canon_of (by decide +kernel), by decide +kernel⟩

theorem witness_StepsStartAndEnd_1 :
    let p : Fin 64 := 0;
    let s : State := { withPart { cfg := cfg0, armed := some { tick := 90, distributed := true } } with clk := { now := 90 } };
    let a : ReleaseArm := { tick := 90, distributed := true };
        Canon s ∧ (s.part p.val).armed = some a ∧ a.tick.toNat ≤ s.clk.now.toNat ∧ ((s.part p.val).state = .held ∨ (s.part p.val).state =
      .stopped) ∧ zeroPending s p.val = false ∧ memFenced s p.val = false ∧ NoWaiters p.val s :=
    ⟨canon_of (by decide +kernel), join4 (by decide +kernel) ⟨by decide +kernel, noWaiters_of (by decide +kernel)⟩⟩

theorem witness_StepsStartAndEnd_2 :
    let p : Fin 64 := 0;
    let s : State := { withPart { cfg := cfg0, state := .waiting, armed := some { tick := 90, distributed := false }, prog := { steps := [0, 0] } } with clk := { now := 90 } };
    let a : ReleaseArm := { tick := 90, distributed := false };
        Canon s ∧ (s.part p.val).armed = some a ∧ a.tick.toNat ≤ s.clk.now.toNat ∧ (s.part p.val).state = .waiting ∧ recProof (s.part
      p.val).rec_ = false ∧ recAudit (s.part p.val).rec_ = false ∧ NoWaiters p.val s ∧ holdsDue s p.val = 0 ∧ zeroPending s p.val = false :=
    ⟨canon_of (by decide +kernel), join4 (by decide +kernel) ⟨by decide +kernel, noWaiters_of (by decide +kernel), by decide +kernel⟩⟩

theorem witness_StepsStartAndEnd_3 :
    let p : Fin 64 := 0;
    let s : State := { withPart { cfg := cfg0, state := .waiting, armed := some { tick := 90, distributed := false }, prog := { steps := [0] } } with clk := { now := 90 } };
    let a : ReleaseArm := { tick := 90, distributed := false };
        Canon s ∧ (s.part p.val).armed = some a ∧ a.tick.toNat ≤ s.clk.now.toNat ∧ (s.part p.val).state = .waiting ∧ recProof (s.part
      p.val).rec_ = false ∧ recAudit (s.part p.val).rec_ = false ∧ NoWaiters p.val s ∧ holdsDue s p.val = 2#7 :=
    ⟨canon_of (by decide +kernel), join4 (by decide +kernel) ⟨by decide +kernel, noWaiters_of (by decide +kernel), by decide +kernel⟩⟩

theorem witness_StepsStartAndEnd_4 :
    let p : Fin 64 := 0;
    let s : State := withPart { cfg := cfg0, state := .running };
        Canon s ∧ (s.part p.val).active = true ∧ (s.part p.val).budgetOver = false ∧ ((s.part p.val).endLocal = none ∨ (s.part
      p.val).arrival.isSome = true) :=
    ⟨canon_of (by decide +kernel), by decide +kernel⟩

theorem witness_StepsStartAndEnd_5 :
    let p : Fin 64 := 0;
    let s : State := withPart { cfg := cfg0, state := .waiting, endLocal := some 70 };
    let e := 70;
        Canon s ∧ (s.part p.val).active = true ∧ (s.part p.val).budgetOver = false ∧ (s.part p.val).endLocal = some e ∧ (s.part
      p.val).arrival = none ∧ (s.part p.val).state = .waiting ∧ recProof (s.part p.val).rec_ = false ∧ (s.mem.due.any (fun d => d.part ==
      some p.val) = false) ∧ (s.mem.toZero.any (fun g => granPart s g == some p.val) = false) :=
    ⟨canon_of (by decide +kernel), by decide +kernel⟩

theorem witness_StepsStartAndEnd_6 :
    let p : Fin 64 := 0;
    let s : State := withPart { cfg := cfg0, state := .running };
    let u := if recProof (s.part p.val).rec_ then applyProof p.val s else s;
        Canon s ∧ (s.part p.val).state = .running ∧ (s.part p.val).endLocal = none ∧ workEnded s p.val = true ∧ recAudit (s.part p.val).rec_
      = false ∧ (s.part p.val).breakDue = false ∧ (u.part p.val).budgetOver = false :=
    ⟨canon_of (by decide +kernel), by decide +kernel⟩

theorem witness_ProofTokensAndExpiries_0 :
    let k : Token := { mkToken .arrive 0 0 0 0 with crc := 0 };
    let s : State := State.reset;
        Canon s ∧ tokenOk k = false ∧ Calm 8 s ∧ k.type = .arrive :=
    ⟨canon_of (by decide +kernel), by decide +kernel, calm_of (by decide +kernel), by decide +kernel⟩

theorem witness_ProofTokensAndExpiries_1 :
    let k : Token := { mkToken .release 0 0 0 0 with crc := 0 };
    let s : State := State.reset;
        Canon s ∧ tokenOk k = false ∧ Calm 8 s ∧ k.type = .release :=
    ⟨canon_of (by decide +kernel), by decide +kernel, calm_of (by decide +kernel), by decide +kernel⟩

theorem witness_ProofTokensAndExpiries_2 :
    let k : Token := { mkToken .hold 0 0 0 0 with crc := 0 };
    let s : State := State.reset;
        Canon s ∧ tokenOk k = false ∧ Calm 8 s ∧ k.type = .hold :=
    ⟨canon_of (by decide +kernel), by decide +kernel, calm_of (by decide +kernel), by decide +kernel⟩

theorem witness_ProofTokensAndExpiries_3 :
    let k : Token := { mkToken .brk 0 0 0 0 with crc := 0 };
    let s : State := State.reset;
        Canon s ∧ tokenOk k = false ∧ Calm 8 s ∧ k.type = .brk :=
    ⟨canon_of (by decide +kernel), by decide +kernel, calm_of (by decide +kernel), by decide +kernel⟩

theorem witness_ProofTokensAndExpiries_4 :
    let via : TokenVia := .port 1;
    let k : Token := mkToken .arrive 0 0 0 0;
    let s : State := withPart { cfg := { enable := true, domainSize := 2, proofChild := 2, parentValid := true, proofParent := 0 }, state := .running };
    let p := k.domain.val;
    let x := s.part p;
    let port := 1;
        Canon s ∧ GoodToken .arrive via k port s ∧ x.cfg.enable = true ∧ port ∈ childPorts x ∧ x.arrival = none ∧ x.ready = none :=
    ⟨canon_of (by decide +kernel), goodToken_of (by decide +kernel), by decide +kernel⟩

theorem witness_ProofTokensAndExpiries_5 :
    let via : TokenVia := .port 1;
    let k : Token := mkToken .arrive 0 0 0 0;
    let s : State := { withPart { cfg := { enable := true, domainSize := 2, proofChild := 2, parentValid := true, proofParent := 0 }, state := .waiting, arrival := some 7 } with prfUp := 3 };
    let p := k.domain.val;
    let x := s.part p;
    let port := 1;
    let own := 7;
    let c : ChildArr := { port := port, ready := false, step := k.step, tick := k.tick, flags := k.flags };
    let y : Part := { x with children := x.children.filter (fun d => !(d.port == port && d.ready == false)) ++ [c] };
        Canon s ∧ GoodToken .arrive via k port s ∧ x.cfg.enable = true ∧ port ∈ childPorts x ∧ x.arrival = some own ∧ x.arriveSent = false ∧
      x.state = .waiting ∧ x.cfg.parentValid = true ∧ k.flags.getLsbD 5 = false ∧ s.prfUp.getLsbD x.cfg.proofParent.val = true ∧ allArrived
      y = true :=
    ⟨canon_of (by decide +kernel), goodToken_of (by decide +kernel), by decide +kernel⟩

theorem witness_ProofTokensAndExpiries_6 :
    let via : TokenVia := .port 0;
    let k : Token := mkToken .release 0 0 0 0;
    let s : State := withPart { cfg := { enable := true, domainSize := 2, proofChild := 2, parentValid := true, proofParent := 0 }, state := .waiting };
    let p := k.domain.val;
    let x := s.part p;
    let port := 0;
        Canon s ∧ GoodToken .release via k port s ∧ fromParent x port = true ∧ x.state = .waiting ∧ x.armed = none ∧ x.readySent = false ∧
      k.step.toNat = x.step32 :=
    ⟨canon_of (by decide +kernel), goodToken_of (by decide +kernel), by decide +kernel⟩

theorem witness_ProofTokensAndExpiries_7 :
    let via : TokenVia := .port 0;
    let k : Token := mkToken .hold 0 0 0 0;
    let s : State := withPart { cfg := { enable := true, domainSize := 2, proofChild := 2, parentValid := true, proofParent := 0 }, state := .running };
    let p := k.domain.val;
    let x := s.part p;
    let port := 0;
        Canon s ∧ GoodToken .hold via k port s ∧ fromParent x port = true ∧ k.step.toNat = x.step32 ∧ k.flags.toNat / 32 = 0 ∧
      k.flags.getLsbD 4 = false ∧ x.state = .running ∧ x.lateSent = false ∧ Calm 8 s :=
    ⟨canon_of (by decide +kernel), goodToken_of (by decide +kernel), join4 (by decide +kernel) ⟨by decide +kernel, by decide +kernel, calm_of (by
    decide +kernel)⟩⟩

theorem witness_ProofTokensAndExpiries_8 :
    let via : TokenVia := .port 1;
    let k : Token := mkToken .brk 0 0 0 0;
    let s : State := withPart { cfg := { enable := true, domainSize := 2, proofChild := 2, parentValid := true, proofParent := 0 }, state := .running };
    let p := k.domain.val;
    let x := s.part p;
    let port := 1;
        Canon s ∧ GoodToken .brk via k port s ∧ x.cfg.enable = true ∧ port ∈ treePorts x ∧ x.state = .running :=
    ⟨canon_of (by decide +kernel), goodToken_of (by decide +kernel), by decide +kernel⟩

theorem witness_ProofTokensAndExpiries_9 :
    let via : TokenVia := .port 1;
    let k : Token := mkToken .brk 0 0 0 0;
    let s : State := withPart { cfg := { enable := true, domainSize := 2, proofChild := 2, parentValid := true, proofParent := 0 }, state := .waiting };
    let p := k.domain.val;
    let x := s.part p;
    let port := 1;
        Canon s ∧ GoodToken .brk via k port s ∧ x.cfg.enable = true ∧ port ∈ treePorts x ∧ x.state = .waiting ∧ x.armed = none ∧ Calm 8 s :=
    ⟨canon_of (by decide +kernel), goodToken_of (by decide +kernel), join4 (by decide +kernel) (calm_of (by decide +kernel))⟩

theorem witness_ProofTokensAndExpiries_10 :
    let p : Fin 64 := 0;
    let s : State := withPart { cfg := cfg0, state := .waiting, budgetOver := true, prog := { steps := [0x1000000#512] } };
    let x := s.part p.val;
        Canon s ∧ Calm 8 s ∧ x.cfg.parentValid = false ∧ x.active = true ∧ recProof x.rec_ = true ∧ x.budgetOver = true ∧ x.lateSent = false
      ∧ x.arriveSent = false :=
    ⟨canon_of (by decide +kernel), calm_of (by decide +kernel), by decide +kernel⟩

theorem witness_ProofTokensAndExpiries_11 :
    let p : Fin 64 := 0;
    let s : State := withPart { cfg := cfg0, state := .waiting, arrival := some 1, prog := { steps := [0x1000000#512] } };
    let x := s.part p.val;
        Canon s ∧ Calm 8 s ∧ x.arrival.isSome = true ∧ recProof x.rec_ = true ∧ x.state = .waiting ∧ x.armed = none :=
    ⟨canon_of (by decide +kernel), calm_of (by decide +kernel), by decide +kernel⟩

theorem witness_ProofTokensAndExpiries_12 :
    let p : Fin 64 := 0;
    let s : State := withPart { cfg := cfg0, state := .held, ready := some 1 };
    let x := s.part p.val;
        Canon s ∧ Calm 8 s ∧ x.ready.isSome = true ∧ x.armed = none :=
    ⟨canon_of (by decide +kernel), calm_of (by decide +kernel), by decide +kernel⟩

theorem witness_TimeBaseAndPorts_0 :
    let s : State := { State.reset with clk := { parentOk := true, reqTick := some (5, 0), now := 100 }, prfUp := 3 };
        Canon s ∧ s.clk.parentOk = true ∧ s.prfUp.getLsbD s.clk.parent.val = true :=
    ⟨canon_of (by decide +kernel), by decide +kernel⟩

theorem witness_TimeBaseAndPorts_1 :
    let s : State := { State.reset with clk := { parentOk := true, reqTick := some (5, 0), now := 100 }, prfUp := 3 };
    let port : Fin 8 := 1;
    let via : TokenVia := .port 1;
    let k : Token := mkToken .timeReq 0 0 0 90;
        Canon s ∧ GoodTime .timeReq via k port.val s ∧ s.prfUp.getLsbD port.val = true :=
    ⟨canon_of (by decide +kernel), goodTime_of (by decide +kernel), by decide +kernel⟩

theorem witness_TimeBaseAndPorts_2 :
    let s : State := { State.reset with clk := { parentOk := true, reqTick := some (5, 0), now := 100 }, prfUp := 3 };
    let via : TokenVia := .port 0;
    let k : Token := mkToken .timeResp 0 0 16 60 0 7;
    let t1 : Nat := 5;
    let f1 : Nat := 0;
        Canon s ∧ GoodTime .timeResp via k s.clk.parent.val s ∧ s.clk.reqTick = some (t1, f1) ∧ s.clk.parentOk = true ∧ k.hops.toNat < 8 ∧
      stepBarred s = false :=
    ⟨canon_of (by decide +kernel), goodTime_of (by decide +kernel), by decide +kernel⟩

theorem witness_TimeBaseAndPorts_3 :
    let s : State := { State.reset with clk := { parentOk := true, reqTick := some (5, 0), now := 100 }, prfUp := 3 };
        Canon s ∧ s.clk.parentOk = true ∧ Calm 8 s :=
    ⟨canon_of (by decide +kernel), by decide +kernel, calm_of (by decide +kernel)⟩

theorem witness_TimeBaseAndPorts_4 :
    let s : State := State.reset;
        Canon s ∧ Calm 8 s :=
    ⟨canon_of (by decide +kernel), calm_of (by decide +kernel)⟩

theorem witness_TimeBaseAndPorts_5 :
    let s : State := State.reset;
        Canon s ∧ Calm 8 s :=
    ⟨canon_of (by decide +kernel), calm_of (by decide +kernel)⟩

theorem witness_TimeBaseAndPorts_6 :
    let n : Fin 18 := 17;
    let s : State := { State.reset with sites := [(17, { state := .admitted, relAck := false })] };
        Canon s ∧ Calm 8 s ∧ (s.site n.val).relAck = false ∧ ((s.site n.val).state = .admitted ∨ (s.site n.val).state = .retrain) :=
    ⟨canon_of (by decide +kernel), calm_of (by decide +kernel), by decide +kernel⟩

theorem witness_PartitionControl_0 :
    let s : State := State.reset;
        Canon s :=
    canon_of (by decide +kernel)

theorem witness_PartitionControl_1 :
    let p : Fin 64 := 0;
    let s : State := withPart { cfg := cfg0, state := .held };
    let x := s.part p.val;
        Canon s ∧ (x.state = .stopped ∨ x.state = .held) ∧ starterPolicy s ≠ 1 :=
    ⟨canon_of (by decide +kernel), by decide +kernel⟩

theorem witness_PartitionControl_2 :
    let p : Fin 64 := 0;
    let s : State := withPart { cfg := cfg0, state := .broken };
    let x := s.part p.val;
        Canon s ∧ x.active = false :=
    ⟨canon_of (by decide +kernel), by decide +kernel⟩

theorem witness_PartitionControl_3 :
    let p : Fin 64 := 0;
    let s : State := withPart { cfg := cfg0, state := .stopped };
    let x := s.part p.val;
        Canon s ∧ canRelease s p.val = true ∧ x.ready = none ∧ x.readySent = false ∧ x.armed = none ∧ x.cfg.parentValid = false ∧ childPorts
      x = [] ∧ x.children = [] ∧ (x.state = .held → x.heldDone = true) ∧ s.thm.trips = [] :=
    ⟨canon_of (by decide +kernel), by decide +kernel⟩

theorem witness_PartitionControl_4 :
    let p : Fin 64 := 0;
    let s : State := withPart { cfg := cfg0, state := .running };
        Canon s ∧ Calm 8 s ∧ canRelease s p.val = false :=
    ⟨canon_of (by decide +kernel), calm_of (by decide +kernel), by decide +kernel⟩

theorem witness_PartitionControl_5 :
    let p : Fin 64 := 0;
    let s : State := withPart { cfg := cfg0, state := .waiting };
    let x := s.part p.val;
        Canon s ∧ Calm 8 s ∧ (x.active = true ∨ x.state = .broken ∨ starterPolicy s = 1) :=
    ⟨canon_of (by decide +kernel), calm_of (by decide +kernel), by decide +kernel⟩

theorem witness_PartitionControl_6 :
    let p : Fin 64 := 0;
    let s : State := withPart { cfg := cfg0, state := .running };
    let x := s.part p.val;
        Canon s ∧ Calm 8 s ∧ x.active = true :=
    ⟨canon_of (by decide +kernel), calm_of (by decide +kernel), by decide +kernel⟩

end Sys2Proof.Tests
end

