-- ==== Sys2Proof/Tests/Witness2.lean ====
section
/-! SUPPORT. Witnesses for the statements on the fabric, the transfer engines and translation. -/
namespace Sys2Proof.Tests
open Sys2Proof Sys2Proof.Machine Sys2Proof.Safety
set_option linter.unusedVariables false
set_option Elab.async false


/-- A slot of one micro-operation, of context 1. -/
def slotOf (op : Nat) : BitVec 16384 := BitVec.ofNat 16384 (1 + 1 * 2 ^ 32 + op * 2 ^ (58 + 512))
/-- Memory with the page tables of context 1, whose first 2 MiB lie at 0x200000. -/
def tables : Mem :=
  { bytes := [(0, 0x01#8), (1, 0x10#8), (0x1000, 0x01#8), (0x1001, 0x20#8), (0x2000, 0x0F#8), (0x2002, 0x20#8)],
    own := [(32, { owner := 1 })] }
/-- A hub whose cell 0 stands at a micro-operation. -/
def atUop (op : Nat) : State :=
  { up with
    parts := [(0, { state := .running, cfg := { enable := true, viFirst := 1, viCount := 4, cols := 1 } })],
    fab := { cols := [(0, { owner := some 0 })], cells := [(0, { done := false, slots := [(0, slotOf op)] })] },
    xlt := { roots := [(1, some 0)] }, mem := tables }
def ctxOf (s : State) (n : Nat) : UCtx :=
  match nextUop s n with
  | some x => x
  | none => { n := 0, q := 0, k := 0, p := 0, sl := 0, u := uopOf 0 }
/-- Engine 0 with a descriptor at hand or waiting. -/
def pool : XSource := .pool 0 0 0
def withXfe (x : Xfe) : State := { up with xfes := [(0, x)], xlt := { roots := [(1, some 0)] }, mem := tables }
/-- A descriptor of context 1 with counts of 1. -/
def desc (more : Nat) : XDesc :=
  { src := pool, base := BitVec.ofNat 512 (1 * 2 ^ 32 + 1 * 2 ^ 96 + 1 * 2 ^ 112 + 1 * 2 ^ 176 + 1 * 2 ^ 240 + 1 * 2 ^ 256 + 1 * 2 ^ 272 + more), ext := 0 }
theorem single_run {p : Nat} {hbm : Bool} {k g : Nat} {s : State} (h : freeRuns s p hbm k = [g]) :
    chooseRun p hbm k s = some (g, { s with free := s.free + 1 }) := by
  unfold chooseRun
  rw [h]
  simp [Nat.mod_one]
theorem single_take {p : Nat} {hbm : Bool} {k ctx g : Nat} {wide : Bool} {s : State} (h : freeRuns s p hbm k = [g]) :
    takeRuns p hbm k ctx wide 1 s = some ([g], assignRun ctx wide k g { s with free := s.free + 1 }) := by
  simp [takeRuns, List.range_succ, single_run h]
/-- A hub whose partition 0 owns bank 0 with one granule free, a table granule and the tables of context 1. -/
def oneFree : State :=
  { upArgs [(0, 0x00160001), (1, 0x400000), (3, 0x10000)] with
    parts := [(0, { cfg := { enable := true, viFirst := 1, viCount := 4 } })],
    xlt := { roots := [(1, some 0)], ptGrans := [(0, 0)], ptUsed := [0, 0x1000, 0x2000] },
    mem := { tables with banks := [(0, { owner := some 0 })], own := (List.range 78).map (fun k => (k + 1, { owner := 1 })) } }

def translateAllB (unit ctx : Nat) (w : Bool) : List Nat → State → Bool
  | [], _ => true
  | d :: ds, s => decide (d < 2 ^ 47) && (match translate s unit ctx d w with | .ok _ => true | _ => false) &&
      translateAllB unit ctx w ds (noteXlat unit ctx d s)
theorem gather_ok {unit ctx : Nat} {w : Bool} : ∀ {l : List Nat} {s : State}, translateAllB unit ctx w l s = true → TranslateAll unit ctx w l s
  | [], _, _ => trivial
  | d :: ds, s, h => by
    simp only [translateAllB, Bool.and_eq_true, decide_eq_true_eq] at h
    refine ⟨h.1.1, ?_, gather_ok h.2⟩
    have k := h.1.2
    cases e : translate s unit ctx d w with
    | ok pa => exact ⟨pa, rfl⟩
    | _ => simp [e] at k

theorem witness_CellControlAndColumns_0 :
    let n : Fin 2048 := 0;
    let x : UCtx := ctxOf (atUop 0) 0;
    let s : State := atUop 0;
        Canon s ∧ CleanCell n.val s ∧ nextUop s n.val = some x ∧ x.u.op = 0x00 :=
    ⟨canon_of (by decide +kernel), ⟨by decide +kernel, by decide +kernel⟩, by decide +kernel⟩

theorem witness_CellControlAndColumns_1 :
    let n : Fin 2048 := 0;
    let x : UCtx := ctxOf (atUop 1) 0;
    let s : State := atUop 1;
        Canon s ∧ CleanCell n.val s ∧ nextUop s n.val = some x ∧ x.u.op = 0x01 :=
    ⟨canon_of (by decide +kernel), ⟨by decide +kernel, by decide +kernel⟩, by decide +kernel⟩

theorem witness_CellControlAndColumns_2 :
    let n : Fin 2048 := 0;
    let x : UCtx := ctxOf (atUop 2) 0;
    let s : State := atUop 2;
        Canon s ∧ CleanCell n.val s ∧ nextUop s n.val = some x ∧ x.u.op = 0x02 :=
    ⟨canon_of (by decide +kernel), ⟨by decide +kernel, by decide +kernel⟩, by decide +kernel⟩

theorem witness_CellControlAndColumns_3 :
    let n : Fin 2048 := 0;
    let x : UCtx := ctxOf (atUop 3) 0;
    let s : State := atUop 3;
        Canon s ∧ CleanCell n.val s ∧ nextUop s n.val = some x ∧ x.u.op = 0x03 ∧ (s.cell n.val).waitThr.toNat ≤ (s.xfe (bits x.u.imm 0
      6)).progress.toNat :=
    ⟨canon_of (by decide +kernel), ⟨by decide +kernel, by decide +kernel⟩, by decide +kernel⟩

theorem witness_CellControlAndColumns_4 :
    let n : Fin 2048 := 0;
    let x : UCtx := ctxOf ((atUop 3).setCell 0 { (atUop 3).cell 0 with waitThr := 1 }) 0;
    let s : State := (atUop 3).setCell 0 { (atUop 3).cell 0 with waitThr := 1 };
        Canon s ∧ CleanCell n.val s ∧ nextUop s n.val = some x ∧ x.u.op = 0x03 ∧ (s.xfe (bits x.u.imm 0 6)).progress.toNat < (s.cell
      n.val).waitThr.toNat :=
    ⟨canon_of (by decide +kernel), ⟨by decide +kernel, by decide +kernel⟩, by decide +kernel⟩

theorem witness_CellControlAndColumns_5 :
    let n : Fin 2048 := 0;
    let x : UCtx := ctxOf (atUop 4) 0;
    let s : State := atUop 4;
        Canon s ∧ CleanCell n.val s ∧ nextUop s n.val = some x ∧ x.u.op = 0x04 ∧ (s.cell n.val).killed = false :=
    ⟨canon_of (by decide +kernel), ⟨by decide +kernel, by decide +kernel⟩, by decide +kernel⟩

theorem witness_CellControlAndColumns_6 :
    let n : Fin 2048 := 2047;
    let s : State := (State.reset).setGrp 27 { (State.reset).grp 27 with action := .log };
        Canon s ∧ Calm (24 + n.val / 512) s :=
    ⟨canon_of (by decide +kernel), calm_of (by decide +kernel)⟩

theorem witness_CellControlAndColumns_7 :
    let k : Fin 128 := 127;
    let s : State := State.reset;
        Canon s ∧ (s.col k.val).fenced = false :=
    ⟨canon_of (by decide +kernel), by decide +kernel⟩

theorem witness_CellControlAndColumns_8 :
    let k : Fin 128 := 127;
    let s : State := State.reset;
        Canon s ∧ (s.col k.val).fenced = false ∧ (s.col k.val).spare = false ∧ (s.col k.val).spareBad = false :=
    ⟨canon_of (by decide +kernel), by decide +kernel⟩

theorem witness_CellControlAndColumns_9 :
    let k : Fin 128 := 0;
    let s : State := (({ State.reset with fab := { cols := [(0, { spare := true })] } } : State)).setGrp 24 { State.reset.grp 24 with action := .log };
        Canon s ∧ (s.col k.val).spare = true ∧ Calm (24 + k.val / 32) s :=
    ⟨canon_of (by decide +kernel), by decide +kernel, calm_of (by decide +kernel)⟩

theorem witness_CellControlAndColumns_10 :
    let img : BitVec 16384 := 5;
    let s : State := { State.reset with img := { run := { recs := [{ sec := 4, part := 0, glob := false, subject := 0, pos := 0, body := [5] }] } } };
        Canon s ∧ slotOfImage s img = true :=
    ⟨canon_of (by decide +kernel), by decide +kernel⟩

theorem witness_CellControlAndColumns_11 :
    let img : BitVec 16384 := 5;
    let s : State := State.reset;
        Canon s ∧ slotOfImage s img = false :=
    ⟨canon_of (by decide +kernel), by decide +kernel⟩

theorem witness_ElementwiseMicroOps_0 :
    let n : Fin 2048 := 0;
    let x : UCtx := ctxOf (atUop 0x10) 0;
    let s : State := atUop 0x10;
        Canon s ∧ CleanCell n.val s ∧ Issues n.val 0x10 srcAB x s :=
    ⟨canon_of (by decide +kernel), ⟨by decide +kernel, by decide +kernel⟩, issues_of (by decide +kernel) (by decide +kernel)⟩

theorem witness_ElementwiseMicroOps_1 :
    let n : Fin 2048 := 0;
    let x : UCtx := ctxOf (atUop 0x11) 0;
    let s : State := atUop 0x11;
        Canon s ∧ CleanCell n.val s ∧ Issues n.val 0x11 srcAB x s :=
    ⟨canon_of (by decide +kernel), ⟨by decide +kernel, by decide +kernel⟩, issues_of (by decide +kernel) (by decide +kernel)⟩

theorem witness_ElementwiseMicroOps_2 :
    let n : Fin 2048 := 0;
    let x : UCtx := ctxOf (atUop 0x12) 0;
    let s : State := atUop 0x12;
        Canon s ∧ CleanCell n.val s ∧ Issues n.val 0x12 srcAB x s :=
    ⟨canon_of (by decide +kernel), ⟨by decide +kernel, by decide +kernel⟩, issues_of (by decide +kernel) (by decide +kernel)⟩

theorem witness_ElementwiseMicroOps_3 :
    let n : Fin 2048 := 0;
    let x : UCtx := ctxOf (atUop 0x13) 0;
    let s : State := atUop 0x13;
        Canon s ∧ CleanCell n.val s ∧ Issues n.val 0x13 srcABC x s :=
    ⟨canon_of (by decide +kernel), ⟨by decide +kernel, by decide +kernel⟩, issues_of (by decide +kernel) (by decide +kernel)⟩

theorem witness_ElementwiseMicroOps_4 :
    let n : Fin 2048 := 0;
    let x : UCtx := ctxOf (atUop 0x14) 0;
    let s : State := atUop 0x14;
        Canon s ∧ CleanCell n.val s ∧ Issues n.val 0x14 srcAB x s :=
    ⟨canon_of (by decide +kernel), ⟨by decide +kernel, by decide +kernel⟩, issues_of (by decide +kernel) (by decide +kernel)⟩

theorem witness_ElementwiseMicroOps_5 :
    let n : Fin 2048 := 0;
    let x : UCtx := ctxOf (atUop 0x15) 0;
    let s : State := atUop 0x15;
        Canon s ∧ CleanCell n.val s ∧ Issues n.val 0x15 srcAB x s :=
    ⟨canon_of (by decide +kernel), ⟨by decide +kernel, by decide +kernel⟩, issues_of (by decide +kernel) (by decide +kernel)⟩

theorem witness_ElementwiseMicroOps_6 :
    let n : Fin 2048 := 0;
    let x : UCtx := ctxOf (atUop 0x16) 0;
    let s : State := atUop 0x16;
        Canon s ∧ CleanCell n.val s ∧ Issues n.val 0x16 srcABC x s :=
    ⟨canon_of (by decide +kernel), ⟨by decide +kernel, by decide +kernel⟩, issues_of (by decide +kernel) (by decide +kernel)⟩

theorem witness_ElementwiseMicroOps_7 :
    let n : Fin 2048 := 0;
    let x : UCtx := ctxOf (atUop 0x28) 0;
    let s : State := atUop 0x28;
        Canon s ∧ CleanCell n.val s ∧ Issues n.val 0x28 srcA x s :=
    ⟨canon_of (by decide +kernel), ⟨by decide +kernel, by decide +kernel⟩, issues_of (by decide +kernel) (by decide +kernel)⟩

theorem witness_ElementwiseMicroOps_8 :
    let n : Fin 2048 := 0;
    let x : UCtx := ctxOf (atUop 0x3B) 0;
    let s : State := atUop 0x3B;
        Canon s ∧ CleanCell n.val s ∧ Issues n.val 0x3B srcAB x s :=
    ⟨canon_of (by decide +kernel), ⟨by decide +kernel, by decide +kernel⟩, issues_of (by decide +kernel) (by decide +kernel)⟩

theorem witness_ElementwiseMicroOps_9 :
    let n : Fin 2048 := 0;
    let x : UCtx := ctxOf (atUop 0x20) 0;
    let s : State := atUop 0x20;
        Canon s ∧ CleanCell n.val s ∧ (Issues n.val 0x20 (fun u => if perLine u.fmt < perLine (bits u.imm 0 4) then srcAD u else srcA u) x
      s) :=
    ⟨canon_of (by decide +kernel), ⟨by decide +kernel, by decide +kernel⟩, issues_of (by decide +kernel) (by decide +kernel)⟩

theorem witness_RegisterMicroOps_0 :
    let n : Fin 2048 := 0;
    let x : UCtx := ctxOf (atUop 0x18) 0;
    let s : State := atUop 0x18;
    let src := fun (u : Uop) => [u.a, u.b, if 6 ≤ u.fmt ∧ u.fmt ≤ 11 then u.c else 0x3F, u.dst];
        Canon s ∧ CleanCell n.val s ∧ Issues n.val 0x18 src x s :=
    ⟨canon_of (by decide +kernel), ⟨by decide +kernel, by decide +kernel⟩, issues_of (by decide +kernel) (by decide +kernel)⟩

theorem witness_RegisterMicroOps_1 :
    let n : Fin 2048 := 0;
    let x : UCtx := ctxOf (atUop 0x21) 0;
    let s : State := atUop 0x21;
    let src := fun (u : Uop) => [u.a, if u.imm.testBit 0 then 0x3F else u.a + 1, u.dst, u.c];
        Canon s ∧ CleanCell n.val s ∧ Issues n.val 0x21 src x s ∧ x.u.dst < 0x20 ∧ x.u.c < 0x20 :=
    ⟨canon_of (by decide +kernel), ⟨by decide +kernel, by decide +kernel⟩, issues_of (by decide +kernel) (by decide +kernel), by decide +kernel⟩

theorem witness_RegisterMicroOps_2 :
    let n : Fin 2048 := 0;
    let x : UCtx := ctxOf (atUop 0x22) 0;
    let s : State := atUop 0x22;
    let src := fun (u : Uop) => [u.a, u.c];
        Canon s ∧ CleanCell n.val s ∧ Issues n.val 0x22 src x s ∧ x.u.dst + (if x.u.imm.testBit 0 then 0 else 1) < 0x20 :=
    ⟨canon_of (by decide +kernel), ⟨by decide +kernel, by decide +kernel⟩, issues_of (by decide +kernel) (by decide +kernel), by decide +kernel⟩

theorem witness_RegisterMicroOps_3 :
    let n : Fin 2048 := 0;
    let x : UCtx := ctxOf (atUop 0x30) 0;
    let s : State := atUop 0x30;
        Canon s ∧ CleanCell n.val s ∧ Issues n.val 0x30 srcAD x s :=
    ⟨canon_of (by decide +kernel), ⟨by decide +kernel, by decide +kernel⟩, issues_of (by decide +kernel) (by decide +kernel)⟩

theorem witness_RegisterMicroOps_4 :
    let n : Fin 2048 := 0;
    let x : UCtx := ctxOf (atUop 0x31) 0;
    let s : State := atUop 0x31;
        Canon s ∧ CleanCell n.val s ∧ Issues n.val 0x31 srcAD x s :=
    ⟨canon_of (by decide +kernel), ⟨by decide +kernel, by decide +kernel⟩, issues_of (by decide +kernel) (by decide +kernel)⟩

theorem witness_RegisterMicroOps_5 :
    let n : Fin 2048 := 0;
    let x : UCtx := ctxOf (atUop 0x32) 0;
    let s : State := atUop 0x32;
        Canon s ∧ CleanCell n.val s ∧ Issues n.val 0x32 srcAB x s :=
    ⟨canon_of (by decide +kernel), ⟨by decide +kernel, by decide +kernel⟩, issues_of (by decide +kernel) (by decide +kernel)⟩

theorem witness_RegisterMicroOps_6 :
    let n : Fin 2048 := 0;
    let x : UCtx := ctxOf (atUop 0x33) 0;
    let s : State := atUop 0x33;
        Canon s ∧ CleanCell n.val s ∧ Issues n.val 0x33 srcAB x s :=
    ⟨canon_of (by decide +kernel), ⟨by decide +kernel, by decide +kernel⟩, issues_of (by decide +kernel) (by decide +kernel)⟩

theorem witness_RegisterMicroOps_7 :
    let n : Fin 2048 := 0;
    let x : UCtx := ctxOf (atUop 0x34) 0;
    let s : State := atUop 0x34;
        Canon s ∧ CleanCell n.val s ∧ Issues n.val 0x34 srcABD x s :=
    ⟨canon_of (by decide +kernel), ⟨by decide +kernel, by decide +kernel⟩, issues_of (by decide +kernel) (by decide +kernel)⟩

theorem witness_RegisterMicroOps_8 :
    let n : Fin 2048 := 0;
    let x : UCtx := ctxOf (atUop 0x3A) 0;
    let s : State := atUop 0x3A;
        Canon s ∧ CleanCell n.val s ∧ Issues n.val 0x3A srcA x s :=
    ⟨canon_of (by decide +kernel), ⟨by decide +kernel, by decide +kernel⟩, issues_of (by decide +kernel) (by decide +kernel)⟩

theorem witness_RegisterMicroOps_9 :
    let n : Fin 2048 := 0;
    let x : UCtx := ctxOf (atUop 0x3C) 0;
    let s : State := atUop 0x3C;
        Canon s ∧ CleanCell n.val s ∧ Issues n.val 0x3C noSrc x s :=
    ⟨canon_of (by decide +kernel), ⟨by decide +kernel, by decide +kernel⟩, issues_of (by decide +kernel) (by decide +kernel)⟩

theorem witness_MemoryMicroOps_0 :
    let n : Fin 2048 := 0;
    let x : UCtx := ctxOf (atUop 0x08) 0;
    let s : State := atUop 0x08;
    let e := Ecc.corrected;
        Canon s ∧ CleanCell n.val s ∧ Issues n.val 0x08 noSrc x s ∧ e ≠ .uncorrectable :=
    ⟨canon_of (by decide +kernel), ⟨by decide +kernel, by decide +kernel⟩, issues_of (by decide +kernel) (by decide +kernel), by decide +kernel⟩

theorem witness_MemoryMicroOps_1 :
    let n : Fin 2048 := 0;
    let x : UCtx := ctxOf ((atUop 0x08).setGrp 24 { (atUop 0x08).grp 24 with action := .log }) 0;
    let s : State := (atUop 0x08).setGrp 24 { (atUop 0x08).grp 24 with action := .log };
    let e := Ecc.uncorrectable;
        Canon s ∧ CleanCell n.val s ∧ Issues n.val 0x08 noSrc x s ∧ e = .uncorrectable ∧ Calm (24 + n.val / 512) s :=
    ⟨canon_of (by decide +kernel), ⟨by decide +kernel, by decide +kernel⟩, issues_of (by decide +kernel) (by decide +kernel), by decide +kernel,
    calm_of (by decide +kernel)⟩

theorem witness_MemoryMicroOps_2 :
    let n : Fin 2048 := 0;
    let x : UCtx := ctxOf (atUop 0x0C) 0;
    let s : State := atUop 0x0C;
    let e := Ecc.corrected;
        Canon s ∧ CleanCell n.val s ∧ e ≠ .uncorrectable ∧ Issues n.val 0x0C noSrc x s :=
    ⟨canon_of (by decide +kernel), ⟨by decide +kernel, by decide +kernel⟩, by decide +kernel, issues_of (by decide +kernel) (by decide +kernel)⟩

theorem witness_MemoryMicroOps_3 :
    let n : Fin 2048 := 0;
    let x : UCtx := ctxOf (atUop 0x09) 0;
    let s : State := atUop 0x09;
    let e := Ecc.clean;
        Canon s ∧ CleanCell n.val s ∧ e ≠ .uncorrectable ∧ Issues n.val 0x09 srcA x s :=
    ⟨canon_of (by decide +kernel), ⟨by decide +kernel, by decide +kernel⟩, by decide +kernel, issues_of (by decide +kernel) (by decide +kernel)⟩

theorem witness_MemoryMicroOps_4 :
    let n : Fin 2048 := 0;
    let x : UCtx := ctxOf (atUop 0x0A) 0;
    let s : State := atUop 0x0A;
    let pa := 0x200000;
    let dva := (bPtr s x + bits x.u.imm 0 21 * 64) % 2 ^ 48;
        Canon s ∧ CleanCell n.val s ∧ Issues n.val 0x0A noSrc x s ∧ mayRead s n.val = true ∧ dva < 2 ^ 47 ∧ translate s (portOf (.cell
      n.val)) x.ctx dva false = .ok pa :=
    ⟨canon_of (by decide +kernel), ⟨by decide +kernel, by decide +kernel⟩, issues_of (by decide +kernel) (by decide +kernel), by decide +kernel⟩

theorem witness_MemoryMicroOps_5 :
    let n : Fin 2048 := 0;
    let x : UCtx := ctxOf (atUop 0x0B) 0;
    let s : State := atUop 0x0B;
    let pa := 0x200000;
    let dva := (bPtr s x + bits x.u.imm 0 21 * 64) % 2 ^ 48;
        Canon s ∧ CleanCell n.val s ∧ Issues n.val 0x0B srcA x s ∧ dva < 2 ^ 47 ∧ translate s (portOf (.cell n.val)) x.ctx dva true = .ok pa :=
    ⟨canon_of (by decide +kernel), ⟨by decide +kernel, by decide +kernel⟩, issues_of (by decide +kernel) (by decide +kernel), by decide +kernel⟩

theorem witness_MemoryMicroOps_6 :
    let n : Fin 2048 := 0;
    let x : UCtx := ctxOf (atUop 0x38) 0;
    let s : State := atUop 0x38;
    let g := gatherAddrs x (bPtr s x) (nth (srcVals n.val srcA x s) 0);
        Canon s ∧ CleanCell n.val s ∧ Issues n.val 0x38 srcA x s ∧ mayRead s n.val = true ∧ TranslateAll (portOf (.cell n.val)) x.ctx false
      g.1 s := by
  intro n x s g
  exact ⟨canon_of (by decide +kernel), ⟨by decide +kernel, by decide +kernel⟩, issues_of (by decide +kernel) (by decide +kernel), by decide +kernel,
    @gather_ok (portOf (.cell n.val)) x.ctx false g.1 s (by decide +kernel)⟩

theorem witness_MemoryMicroOps_7 :
    let n : Fin 2048 := 0;
    let x : UCtx := ctxOf (atUop 0x39) 0;
    let s : State := atUop 0x39;
    let g := gatherAddrs x (bPtr s x) (nth (srcVals n.val srcAB x s) 0);
        Canon s ∧ CleanCell n.val s ∧ Issues n.val 0x39 srcAB x s ∧ TranslateAll (portOf (.cell n.val)) x.ctx true g.1 s := by
  intro n x s g
  exact ⟨canon_of (by decide +kernel), ⟨by decide +kernel, by decide +kernel⟩, issues_of (by decide +kernel) (by decide +kernel), @gather_ok (portOf
    (.cell n.val)) x.ctx true g.1 s (by decide +kernel)⟩

theorem witness_TransferEngines_0 :
    let e : Fin 64 := 63;
    let s : State := { up with xfes := [(63, { queue := [desc 0] })] };
    let x := s.xfe e.val;
    let d := desc 0;
    let rest := ([] : List XDesc);
        Canon s ∧ x.queue = d :: rest ∧ x.run = .idle :=
    ⟨canon_of (by decide +kernel), by decide +kernel⟩

theorem witness_TransferEngines_1 :
    let e : Fin 64 := 0;
    let s : State := withXfe { run := .fenced, queue := [desc 0] };
    let x := s.xfe e.val;
    let d := desc 0;
    let rest := ([] : List XDesc);
        Canon s ∧ x.queue = d :: rest ∧ x.run = .fenced ∧ FromPool d :=
    ⟨canon_of (by decide +kernel), by decide +kernel, by decide +kernel, ⟨0, 0, 0, rfl⟩⟩

theorem witness_TransferEngines_2 :
    let e : Fin 64 := 0;
    let s : State := withXfe { run := .wait, cur := some ({ desc := { src := pool, base := 0, ext := 0 } } : XCur) };
    let x := s.xfe e.val;
    let c := ({ desc := { src := pool, base := 0, ext := 0 } } : XCur);
        Canon s ∧ x.cur = some c ∧ x.run = .wait ∧ waitMet s c.desc = true ∧ sealTurn s c.desc = true ∧ (s.grp 12).inject = 0 ∧
      c.desc.counts.any (· == 0) = true ∧ FromPool c.desc ∧ c.failed = [] ∧ x.queue = [] ∧ x.fencePend = false :=
    ⟨canon_of (by decide +kernel), join4 (by decide +kernel) ⟨by decide +kernel, by decide +kernel, ⟨0, 0, 0, rfl⟩, by decide +kernel⟩⟩

theorem witness_TransferEngines_3 :
    let e : Fin 64 := 0;
    let s : State := withXfe { run := .wait, cur := some ({ desc := desc (2 ^ (47 + 128)) } : XCur) };
    let x := s.xfe e.val;
    let c := ({ desc := desc (2 ^ (47 + 128)) } : XCur);
        Canon s ∧ x.cur = some c ∧ x.run = .wait ∧ waitMet s c.desc = true ∧ sealTurn s c.desc = true ∧ (s.grp 12).inject = 0 ∧
      c.desc.counts.any (· == 0) = false ∧ c.desc.hostSide = true ∧ s.host.dmaStopped = true :=
    ⟨canon_of (by decide +kernel), by decide +kernel⟩

theorem witness_TransferEngines_4 :
    let e : Fin 64 := 0;
    let s : State := withXfe { run := .wait, cur := some ({ desc := desc (0) } : XCur) };
    let x := s.xfe e.val;
    let c := ({ desc := desc (0) } : XCur);
        Canon s ∧ x.cur = some c ∧ x.run = .wait ∧ waitMet s c.desc = true ∧ sealTurn s c.desc = true ∧ (s.grp 12).inject = 0 ∧
      c.desc.counts.any (· == 0) = false ∧ c.desc.hostSide = false :=
    ⟨canon_of (by decide +kernel), by decide +kernel⟩

theorem witness_TransferEngines_5 :
    let e : Fin 64 := 0;
    let s : State := withXfe { run := .ending, cur := some ({ desc := desc (0), endAs := some .partialDone } : XCur) };
    let x := s.xfe e.val;
    let c := ({ desc := desc (0), endAs := some .partialDone } : XCur);
    let st := Status.partialDone;
        Canon s ∧ x.cur = some c ∧ x.run = .ending ∧ c.units = [] ∧ c.drain = [] ∧ c.endAs = some st ∧ FromPool c.desc ∧ x.queue = [] ∧
      x.fencePend = false ∧ st ≠ .faulted ∧ c.failed = [] ∧ c.desc.compValid = false :=
    ⟨canon_of (by decide +kernel), join4 (by decide +kernel) ⟨by decide +kernel, ⟨0, 0, 0, rfl⟩, by decide +kernel⟩⟩

theorem witness_TransferEngines_6 :
    let e : Fin 64 := 0;
    let s : State := withXfe { run := .ending, cur := some ({ desc := desc (0), endAs := some .faulted } : XCur) };
    let x := s.xfe e.val;
    let c := ({ desc := desc (0), endAs := some .faulted } : XCur);
    let st := Status.faulted;
        Canon s ∧ x.cur = some c ∧ x.run = .ending ∧ c.units = [] ∧ c.drain = [] ∧ c.endAs = some st ∧ FromPool c.desc ∧ x.queue = [] ∧
      x.fencePend = false ∧ st = .faulted ∧ c.failed = [] ∧ c.desc.compValid = false ∧ Calm 12 s :=
    ⟨canon_of (by decide +kernel), join4 (by decide +kernel) ⟨by decide +kernel, ⟨0, 0, 0, rfl⟩, join4 (by decide +kernel) ⟨by decide +kernel, calm_of
    (by decide +kernel)⟩⟩⟩

theorem witness_TransferEngines_7 :
    let e : Fin 64 := 0;
    let s : State := withXfe { run := .ending, cur := some ({ desc := desc (0), endAs := some .partialDone, failed := [1] } : XCur) };
    let x := s.xfe e.val;
    let c := ({ desc := desc (0), endAs := some .partialDone, failed := [1] } : XCur);
    let st := Status.partialDone;
        Canon s ∧ x.cur = some c ∧ x.run = .ending ∧ c.units = [] ∧ c.drain = [] ∧ c.endAs = some st ∧ FromPool c.desc ∧ x.queue = [] ∧
      x.fencePend = false ∧ st ≠ .faulted ∧ c.failed ≠ [] ∧ c.desc.compValid = false ∧ Calm 12 s :=
    ⟨canon_of (by decide +kernel), join4 (by decide +kernel) ⟨by decide +kernel, ⟨0, 0, 0, rfl⟩, join4 (by decide +kernel) ⟨by decide +kernel, calm_of
    (by decide +kernel)⟩⟩⟩

theorem witness_TransferEngines_8 :
    let e : Fin 64 := 0;
    let s : State := withXfe { run := .ending, cur := some ({ desc := desc (2 ^ 511), endAs := some .ok } : XCur) };
    let x := s.xfe e.val;
    let c := ({ desc := desc (2 ^ 511), endAs := some .ok } : XCur);
    let st := Status.ok;
    let pa := 0x200000;
    let g := 32;
        Canon s ∧ x.cur = some c ∧ x.run = .ending ∧ c.units = [] ∧ c.drain = [] ∧ c.endAs = some st ∧ FromPool c.desc ∧ x.queue = [] ∧
      x.fencePend = false ∧ st = .ok ∧ c.failed = [] ∧ c.desc.compValid = true ∧ c.desc.comp < 2 ^ 47 ∧ c.desc.comp % 64 = 0 ∧ translate s
      e.val c.desc.ctx c.desc.comp true = .ok pa ∧ memCheck s pa c.desc.ctx = .pass g ∧ coherent s pa = false :=
    ⟨canon_of (by decide +kernel), join4 (by decide +kernel) ⟨by decide +kernel, ⟨0, 0, 0, rfl⟩, by decide +kernel⟩⟩

theorem witness_TransferEngines_9 :
    let e : Fin 64 := 0;
    let s : State := { withXfe { run := .ending, cur := some ({ desc := desc (2 ^ 511), endAs := some .ok } : XCur) } with home := { cohWins := [(0, 0x102000)] } };
    let x := s.xfe e.val;
    let c := ({ desc := desc (2 ^ 511), endAs := some .ok } : XCur);
    let st := Status.ok;
    let pa := 0x200000;
        Canon s ∧ x.cur = some c ∧ x.run = .ending ∧ c.units = [] ∧ c.drain = [] ∧ c.endAs = some st ∧ FromPool c.desc ∧ x.queue = [] ∧
      x.fencePend = false ∧ st = .ok ∧ c.failed = [] ∧ c.desc.compValid = true ∧ c.desc.comp < 2 ^ 47 ∧ c.desc.comp % 64 = 0 ∧ translate s
      e.val c.desc.ctx c.desc.comp true = .ok pa ∧ coherent s pa = true :=
    ⟨canon_of (by decide +kernel), join4 (by decide +kernel) ⟨by decide +kernel, ⟨0, 0, 0, rfl⟩, by decide +kernel⟩⟩

theorem witness_TransferEngines_10 :
    let e : Fin 64 := 0;
    let s : State := withXfe { run := .faultWait, cur := some ({ desc := desc (0) } : XCur) };
    let x := s.xfe e.val;
    let c := ({ desc := desc (0) } : XCur);
        Canon s ∧ x.cur = some c ∧ (x.run = .wait ∨ x.run = .run ∨ x.run = .faultWait) :=
    ⟨canon_of (by decide +kernel), by decide +kernel⟩

theorem witness_TransferEngines_11 :
    let e : Fin 64 := 0;
    let s : State := up;
    let x := s.xfe e.val;
        Canon s ∧ x.run ≠ .fenced :=
    ⟨canon_of (by decide +kernel), by decide +kernel⟩

theorem witness_TransferEngines_12 :
    let e : Fin 64 := 0;
    let s : State := withXfe { run := .fenced };
    let x := s.xfe e.val;
        Canon s ∧ x.run = .fenced :=
    ⟨canon_of (by decide +kernel), by decide +kernel⟩

theorem witness_TransferEngines_13 :
    let e : Fin 64 := 0;
    let s : State := up;
    let x := s.xfe e.val;
        Canon s ∧ x.run ≠ .fenced ∧ Calm 12 s :=
    ⟨canon_of (by decide +kernel), by decide +kernel, calm_of (by decide +kernel)⟩

theorem witness_HostTranslationAndWindows_0 :
    let e : Fin 64 := 0;
    let s : State := { up with xlt := { atsWait := [(0, 1, 0x5000)] } };
    let x := s.xfe e.val;
    let iova : BitVec 64 := 0x5FFF;
    let ctx : Nat := 1;
    let r : Bool := false;
    let w : Bool := true;
    let pg := iova.toNat / 4096 * 4096;
        Canon s ∧ (s.xlt.atsWait.find? (fun q => q.1 == e.val && q.2.2 == pg) = some (e.val, ctx, pg)) ∧ x.cur = none ∧ x.owner = none ∧ (r
      || w) = true :=
    ⟨canon_of (by decide +kernel), by decide +kernel⟩

theorem witness_HostTranslationAndWindows_1 :
    let e : Fin 64 := 0;
    let s : State := { up with xlt := { atsWait := [(0, 1, 0x5000)] } };
    let x := s.xfe e.val;
    let iova : BitVec 64 := 0x5000;
    let ctx : Nat := 1;
    let pg := iova.toNat / 4096 * 4096;
    let cpl := CplStat.ca;
        Canon s ∧ (s.xlt.atsWait.find? (fun q => q.1 == e.val && q.2.2 == pg) = some (e.val, ctx, pg)) ∧ x.cur = none ∧ x.owner = none ∧ cpl
      ≠ .sc ∧ Calm 11 s :=
    ⟨canon_of (by decide +kernel), join4 (by decide +kernel) (calm_of (by decide +kernel))⟩

theorem witness_HostTranslationAndWindows_2 :
    let e : Fin 64 := 0;
    let s : State := withXfe { run := .faultWait, pageReq := true, cur := some ({ desc := desc (0) } : XCur) };
    let x := s.xfe e.val;
    let c := ({ desc := desc (0) } : XCur);
        Canon s ∧ x.cur = some c ∧ x.run = .faultWait ∧ x.ringVi = none ∧ x.pageReq = true ∧ x.pageWait = false :=
    ⟨canon_of (by decide +kernel), by decide +kernel⟩

theorem witness_HostTranslationAndWindows_3 :
    let e : Fin 64 := 0;
    let s : State := withXfe { run := .faultWait, pageReq := true, cur := some ({ desc := desc (0) } : XCur) };
    let x := s.xfe e.val;
    let c := ({ desc := desc (0) } : XCur);
        Canon s ∧ x.cur = some c ∧ x.run = .faultWait ∧ x.ringVi = none ∧ x.pageReq = true ∧ x.pageWait = false ∧ (∀ k, (s.xfe k).ringVi =
      none) ∧ Calm 11 s :=
    ⟨canon_of (by decide +kernel), join4 (by decide +kernel) ⟨by decide +kernel, (by intro k; cases k <;> rfl), calm_of (by decide +kernel)⟩⟩

theorem witness_HostTranslationAndWindows_4 :
    let e : Fin 64 := 0;
    let s : State := withXfe { run := .faultWait, pageReq := true, cur := some ({ desc := desc (0) } : XCur) };
    let x := s.xfe e.val;
    let c := ({ desc := desc (0) } : XCur);
        Canon s ∧ x.cur = some c ∧ x.run = .faultWait ∧ x.ringVi = none :=
    ⟨canon_of (by decide +kernel), by decide +kernel⟩

theorem witness_HostTranslationAndWindows_5 :
    let s : State := up;
        Canon s ∧ EnginesIdle s :=
    ⟨canon_of (by decide +kernel), (by decide +kernel : Tab.keysWhere _ _ = [])⟩

theorem witness_HostTranslationAndWindows_6 :
    let s : State := { up with xlt := { invals := [{ itag := 31, iova := 0, size := 4096, since := 0, waits := [3] }] } };
    let itag : Fin 32 := 31;
    let v : Inval := { itag := 31, iova := 0, size := 4096, since := 0, waits := [3] };
        Canon s ∧ (s.xlt.invals.find? (fun v => v.itag == itag.val) = some v) ∧ (s.noc.reqs.any (fun r => v.waits.contains r.tag) = false) :=
    ⟨canon_of (by decide +kernel), by decide +kernel⟩

theorem witness_HostTranslationAndWindows_7 :
    let s : State := up;
        Canon s ∧ EnginesIdle s :=
    ⟨canon_of (by decide +kernel), (by decide +kernel : Tab.keysWhere _ _ = [])⟩

theorem witness_HostTranslationAndWindows_8 :
    let s : State := State.reset;
        Canon s :=
    canon_of (by decide +kernel)

theorem witness_HostTranslationAndWindows_9 :
    let who : Owner2 := .fw;
    let s : State := up;
        Canon s ∧ hwtRefused who s = false ∧ hwtUsers s (hwtIndex s) = [] :=
    ⟨canon_of (by decide +kernel), by decide +kernel⟩

theorem witness_HostTranslationAndWindows_10 :
    let who : Owner2 := .fw;
    let s : State := { up with noc := { reqs := [{ tag := 3, who := .xfe 0, write := false, host := true, addr := 0, len := 64, ctx := 1, part := 0, sched := true, hwt := some 0 }] } };
        Canon s ∧ hwtRefused who s = false ∧ hwtUsers s (hwtIndex s) ≠ [] :=
    ⟨canon_of (by decide +kernel), by decide +kernel⟩

theorem witness_HostTranslationAndWindows_11 :
    let who : Owner2 := .host;
    let s : State := { up with regs := [(0xB0108, 0x80000000)] };
        Canon s ∧ hwtRefused who s = true ∧ Calm 11 s :=
    ⟨canon_of (by decide +kernel), by decide +kernel, calm_of (by decide +kernel)⟩

theorem witness_HostTranslationAndWindows_12 :
    let s : State := { up with xlt := { pend := some { index := 4095, entry := 0, waits := [3] } } };
    let p := ({ index := 4095, entry := 0, waits := [3] } : HwtPend);
        Canon s ∧ s.xlt.pend = some p ∧ (s.noc.reqs.any (fun r => p.waits.contains r.tag) = false) :=
    ⟨canon_of (by decide +kernel), by decide +kernel⟩

theorem witness_DeviceMapping_0 :
    let s : State := up;
        MailboxFree s ∧ mbArg64 s 3 = 0 :=
    ⟨free_of (by decide +kernel), by decide +kernel⟩

/-- One 64 KiB page, for which one granule is free. -/
def taken : State := assignRun 1 false 1 79 { running 5 oneFree with free := (running 5 oneFree).free + 1 }
theorem oneFree_run : freeRuns (running 5 oneFree) 0 false 1 = [79] := by decide +kernel
theorem witness_DeviceMapping_1 :
    MailboxFree oneFree ∧ mapRange oneFree = (1, 1, 0x400000, 0x10000, some 0) ∧ bits (mbArg oneFree 0) 24 2 = 0 ∧
      oneFree.xlt.maps = [] ∧ takeRuns 0 false 1 1 ((mbArg oneFree 0).testBit 16) 1 (running 5 oneFree) = some ([79], taken) ∧
      (mapPages 0 (mapPagesOf 1 0x400000 1 1 1 (mbArg oneFree 0) [79]) taken).isSome = true :=
  ⟨free_of (by decide +kernel), by decide +kernel, by decide +kernel, rfl, single_take oneFree_run, by decide +kernel⟩

theorem witness_DeviceMapping_2 :
    let s : State := { oneFree with xlt := { oneFree.xlt with maps := [{ ctx := 1, dva := 0x400000, page := 1, pa := 0, r := true, w := true }] } };
    let p : Nat := 0;
    let a := mapRange s;
    let hit := s.xlt.maps.filter (fun m => m.ctx == a.1 && decide (m.dva < a.2.2.1 + a.2.2.2.1) && decide (a.2.2.1 < m.dva + pageBytes m.page));
        MailboxFree s ∧ a.2.2.2.1 ≠ 0 ∧ a.2.2.2.2 = some p ∧ (hit.all (fun m => decide (a.2.2.1 ≤ m.dva) && decide (m.dva + pageBytes m.page
      ≤ a.2.2.1 + a.2.2.2.1)) = true) ∧ ((hit.map (fun m => pageBytes m.page)).foldl (· + ·) 0 = a.2.2.2.1) :=
    ⟨free_of (by decide +kernel), by decide +kernel⟩

end Sys2Proof.Tests
end

