-- ==== Sys2Proof/Tests/Witness3.lean ====
section
/-! SUPPORT. Witnesses for the statements on the network and on memory. -/
namespace Sys2Proof.Tests
open Sys2Proof Sys2Proof.Machine Sys2Proof.Safety
set_option linter.unusedVariables false
set_option Elab.async false


/-- Memory whose granule 32, at 0x200000, belongs to context 1. -/
def mem1 : Mem := { own := [(32, { owner := 1 })] }
/-- A request of a cell for 4 bytes at 0x200000. -/
def cellRq (w : Bool) : Req :=
  { tag := 3, who := .cell 0, write := w, host := false, addr := 0x200000, len := 4, ctx := 1, part := 0, sched := true,
    data := if w then [1, 2, 3, 4] else [], use := if w then .plain else .get 0 }
/-- A hub in which one request is open, and its response has come. -/
def route0 : Rec :=
  { sec := 3, part := 0, glob := true, subject := 0, pos := 0, body := (List.range 0x300).map (fun o => if o = 0x100 ∨ o = 0x130 then 0x80#8 else 0) }
/-- A packet of request 3 that stands at its port. -/
def pkt3 (resp : Bool) : Packet :=
  { id := 9, req := 3, resp := resp, vn := 1, vc := 0, part := 0, src := 0, dst := 5, inject := 0, lines := [0], sent := 1, got := 1 }
def netWith (l : List Packet) : Net := { up.noc.net with pkts := l }
def sent (r : Req) : State :=
  { up with noc := { reqs := [r], routes := [(0, some route0)], net := netWith [pkt3 false] }, mem := mem1 }
def answer (bad : Bool) : Resp := { tag := 3, data := [], poison := false, refused := bad }
def answered (r : Req) (bad : Bool) : State :=
  { sent r with noc := { reqs := [r], resps := [answer bad], net := netWith [pkt3 true] } }
/-- A slice whose head has stood still since cycle 0. -/
def stuck (cycle : Nat) : State :=
  { up with noc := { net := { up.noc.net with cycle := cycle, bufs := [(95 * 640 + 7 * 80, [{ pkt := 9, side := 0, payload := 0, since := 0 }])] } } }
def hbmRow : BitVec 32 := 0x30000000
theorem no_part {o : Option Nat} {P : Nat → Prop} (h : o = none) : ∀ p, o = some p → P p := by
  intro p hp
  rw [h] at hp
  cases hp

theorem witness_NetworkRequests_0 :
    let tag : Nat := 3;
    let s : State := sent ({ cellRq false with use := .plain });
    let r : Req := { cellRq false with use := .plain };
    let p : Packet := pkt3 false;
    let g := 32;
        Canon s ∧ s.reqOf tag = some r ∧ arrivedPacket s tag false = some p ∧ Unserved r ∧ (∀ e, r.who ≠ .xfe e) ∧ (s.grp 10).inject = 0 ∧
      r.use = .plain ∧ (s.grp (granGroup g)).inject = 0 ∧ memCheck s r.addr r.ctx = .pass g ∧ Settled s ∧ (coherent s r.addr = false ∨
      ((s.hline (r.addr / 64)).mode = .i ∧ HomeQuiet (r.addr / 64) s)) ∧ 0 < r.len ∧ r.addr % 64 + r.len ≤ 64 ∧ r.write = false ∧
      waitsForPut s r = false :=
    ⟨canon_of (by decide +kernel), by decide +kernel, by decide +kernel, ⟨rfl, rfl, rfl, rfl, rfl, rfl, rfl⟩, (by intro e h; cases h), join4 (by
    decide +kernel) ⟨⟨rfl, rfl⟩, Or.inl (by decide +kernel), by decide +kernel⟩⟩

theorem witness_NetworkRequests_1 :
    let tag : Nat := 3;
    let s : State := sent (cellRq true);
    let r : Req := cellRq true;
    let p : Packet := pkt3 false;
    let g := 32;
        Canon s ∧ s.reqOf tag = some r ∧ arrivedPacket s tag false = some p ∧ Unserved r ∧ (∀ e, r.who ≠ .xfe e) ∧ (s.grp 10).inject = 0 ∧
      r.use = .plain ∧ (s.grp (granGroup g)).inject = 0 ∧ memCheck s r.addr r.ctx = .pass g ∧ Settled s ∧ (coherent s r.addr = false ∨
      ((s.hline (r.addr / 64)).mode = .i ∧ HomeQuiet (r.addr / 64) s)) ∧ 0 < r.len ∧ r.addr % 64 + r.len ≤ 64 ∧ r.write = true ∧ r.be = none
      ∧ r.data.length = r.len :=
    ⟨canon_of (by decide +kernel), by decide +kernel, by decide +kernel, ⟨rfl, rfl, rfl, rfl, rfl, rfl, rfl⟩, (by intro e h; cases h), join4 (by
    decide +kernel) ⟨⟨rfl, rfl⟩, Or.inl (by decide +kernel), by decide +kernel⟩⟩

theorem witness_NetworkRequests_2 :
    let tag : Nat := 3;
    let s : State := sent (cellRq true);
    let r : Req := cellRq true;
    let p : Packet := pkt3 false;
        Canon s ∧ s.reqOf tag = some r ∧ arrivedPacket s tag false = some p ∧ Unserved r ∧ (∀ e, r.who ≠ .xfe e) ∧ (s.grp 10).inject = 0 ∧
      waitsForPut s r = false ∧ waitsForSite s r = false ∧ Calm 10 s :=
    ⟨canon_of (by decide +kernel), by decide +kernel, by decide +kernel, ⟨rfl, rfl, rfl, rfl, rfl, rfl, rfl⟩, (by intro e h; cases h), join3 (by
    decide +kernel) (calm_of (by decide +kernel))⟩

theorem witness_NetworkResponsesAndEvents_0 :
    let tag : Nat := 3;
    let n : Nat := 0;
    let s : State := answered (cellRq false) false;
    let r : Req := cellRq false;
    let a := answer false;
    let p := pkt3 true;
        Canon s ∧ s.reqOf tag = some r ∧ r.who = .cell n ∧ NoTargets r s ∧ r.resp = none ∧ r.host = false ∧ (s.noc.resps.find? (fun a =>
      a.tag == tag) = some a) ∧ arrivedPacket s tag true = some p ∧ (s.grp 10).inject = 0 ∧ r.write = false ∧ r.use = .get n ∧
      (s.noc.reqs.filter (fun q => q.who == r.who && !q.write && !q.host) = [r]) ∧ a.poison = false :=
    ⟨canon_of (by decide +kernel), by decide +kernel, by decide +kernel, noTargets_of (by decide +kernel), by decide +kernel⟩

theorem witness_NetworkResponsesAndEvents_1 :
    let tag : Nat := 3;
    let n : Nat := 0;
    let s : State := answered (cellRq true) false;
    let r : Req := cellRq true;
    let a := answer false;
    let p := pkt3 true;
        Canon s ∧ s.reqOf tag = some r ∧ r.who = .cell n ∧ NoTargets r s ∧ r.resp = none ∧ r.host = false ∧ (s.noc.resps.find? (fun a =>
      a.tag == tag) = some a) ∧ arrivedPacket s tag true = some p ∧ (s.grp 10).inject = 0 ∧ r.write = true ∧ r.use = .plain ∧ a.refused =
      false :=
    ⟨canon_of (by decide +kernel), by decide +kernel, by decide +kernel, noTargets_of (by decide +kernel), by decide +kernel⟩

theorem witness_NetworkResponsesAndEvents_2 :
    let tag : Nat := 3;
    let n : Nat := 0;
    let s : State := answered (cellRq true) true;
    let r : Req := cellRq true;
    let a := answer true;
    let p := pkt3 true;
        Canon s ∧ s.reqOf tag = some r ∧ r.who = .cell n ∧ NoTargets r s ∧ r.resp = none ∧ r.host = false ∧ (s.noc.resps.find? (fun a =>
      a.tag == tag) = some a) ∧ arrivedPacket s tag true = some p ∧ (s.grp 10).inject = 0 ∧ r.write = true ∧ r.use = .plain ∧ a.refused =
      true :=
    ⟨canon_of (by decide +kernel), by decide +kernel, by decide +kernel, noTargets_of (by decide +kernel), by decide +kernel⟩

theorem witness_NetworkResponsesAndEvents_3 :
    let tag : Nat := 3;
    let n : Nat := 0;
    let s : State := (sent (cellRq true)).setGrp 24 { State.reset.grp 24 with action := .log };
    let r : Req := cellRq true;
        Canon s ∧ s.reqOf tag = some r ∧ r.who = .cell n ∧ NoTargets r s ∧ r.resp = none ∧ r.host = false ∧ r.write = true ∧ r.use = .plain
      ∧ Calm 10 s :=
    ⟨canon_of (by decide +kernel), by decide +kernel, by decide +kernel, noTargets_of (by decide +kernel), join4 (by decide +kernel) (calm_of (by
    decide +kernel))⟩

theorem witness_NetworkResponsesAndEvents_4 :
    let tag : Nat := 3;
    let n : Nat := 0;
    let s : State := (sent (cellRq false)).setGrp 24 { State.reset.grp 24 with action := .log };
    let r : Req := cellRq false;
        Canon s ∧ s.reqOf tag = some r ∧ r.who = .cell n ∧ NoTargets r s ∧ r.resp = none ∧ r.host = false ∧ r.write = false ∧ r.use = .get n
      ∧ (s.noc.reqs.filter (fun q => q.who == r.who && !q.write && !q.host) = [r]) ∧ Calm 10 s ∧ Logs (24 + n / 512) s :=
    ⟨canon_of (by decide +kernel), by decide +kernel, by decide +kernel, noTargets_of (by decide +kernel), join4 (by decide +kernel) ⟨by
    decide +kernel, calm_of (by decide +kernel), by decide +kernel⟩⟩

theorem witness_NetworkResponsesAndEvents_5 :
    let router : Fin 96 := 95;
    let input : Fin 8 := 7;
    let s : State := stuck 24000;
        Groups s ∧ sliceStalled router.val input.val s = true ∧ Calm 10 s :=
    ⟨by decide +kernel, by decide +kernel, calm_of (by decide +kernel)⟩

theorem witness_NetworkResponsesAndEvents_6 :
    let router : Fin 96 := 95;
    let input : Fin 8 := 7;
    let s : State := stuck 23999;
        Groups s ∧ sliceStalled router.val input.val s = false :=
    ⟨by decide +kernel, by decide +kernel⟩

theorem witness_NetworkResponsesAndEvents_7 :
    let s : State := State.reset;
        Groups s ∧ s.mgt.halted = false ∧ s.mgt.unavail = false :=
    ⟨by decide +kernel, by decide +kernel⟩

theorem witness_MemoryUpkeep_0 :
    let m : Fin 6 := 5;
    let found : List (Nat × Ecc) := [(0x200000, .corrected)];
    let s : State := up;
        Canon s ∧ (s.grp (17 + m.val)).inject = 0 ∧ (∀ f ∈ found, f.2 ≠ .uncorrectable) :=
    ⟨canon_of (by decide +kernel), by decide +kernel, (by intro f hf; simp only [List.mem_singleton] at hf; subst hf; decide)⟩

theorem witness_MemoryUpkeep_1 :
    let m : Fin 6 := 5;
    let s : State := up.setGrp 22 { State.reset.grp 22 with action := .log };
        Canon s ∧ (s.grp (17 + m.val)).inject = 0 ∧ Logs (17 + m.val) s :=
    ⟨canon_of (by decide +kernel), by decide +kernel⟩

theorem witness_MemoryUpkeep_2 :
    let m : Fin 6 := 0;
    let found : List (Nat × Ecc) := [(0x010000000000, .uncorrectable)];
    let s : State := { up with pwr := { up.pwr with domains := 0x1FFFF } };
    let pa := 0x010000000000;
    let ch := 0;
    let g := 0;
        Canon s ∧ (s.grp (17 + m.val)).inject = 0 ∧ found = [(pa, .uncorrectable)] ∧ bits (s.reg (0x200004 + m.val * 0x10000) 0x18#32).toNat
      0 8 ≠ 0 ∧ paSpot s pa = .hbm m.val ch g ∧ granUp s (granOf (.hbm m.val ch g)) = true ∧ Calm (granGroup (granOf (.hbm m.val ch g))) s :=
    ⟨canon_of (by decide +kernel), join4 (by decide +kernel) ⟨by decide +kernel, calm_of (by decide +kernel)⟩⟩

theorem witness_MemoryUpkeep_3 :
    let found : List (Nat × Ecc) := [(0x200000, .corrected)];
    let s : State := up;
        Canon s ∧ (s.grp 23).inject = 0 ∧ (∀ f ∈ found, f.2 ≠ .uncorrectable) :=
    ⟨canon_of (by decide +kernel), by decide +kernel, (by intro f hf; simp only [List.mem_singleton] at hf; subst hf; decide)⟩

theorem witness_MemoryUpkeep_4 :
    let s : State := up.setGrp 23 { State.reset.grp 23 with action := .log };
        Canon s ∧ (s.grp 23).inject = 0 ∧ Logs 23 s :=
    ⟨canon_of (by decide +kernel), by decide +kernel⟩

theorem witness_MemoryUpkeep_5 :
    let found : List (Nat × Ecc) := [(0x4FFFC0, .uncorrectable)];
    let s : State := up;
    let pa := 0x4FFFC0;
    let b := 0;
    let g := 79;
        Canon s ∧ (s.grp 23).inject = 0 ∧ found = [(pa, .uncorrectable)] ∧ paSpot s pa = .sram b g ∧ (s.bank b).fenced = false ∧ Calm
      (granGroup (granOf (.sram b g))) s :=
    ⟨canon_of (by decide +kernel), join4 (by decide +kernel) (calm_of (by decide +kernel))⟩

theorem witness_MemoryUpkeep_6 :
    let m : Fin 6 := 5;
    let ch : Fin 32 := 31;
    let s : State := { up with mem := { stackTab := [(5, { fitted := true, powered := true })], chans := [(191, { fenced := true, readmPend := true })] } };
    let c := m.val * 32 + ch.val;
        Canon s ∧ (s.stack m.val).powered = true ∧ (s.chan c).readmPend = true :=
    ⟨canon_of (by decide +kernel), by decide +kernel⟩

theorem witness_MemoryUpkeep_7 :
    let m : Fin 6 := 5;
    let ch : Fin 32 := 31;
    let s : State := { up with mem := { stackTab := [(5, { fitted := true, powered := true })] } };
    let c := m.val * 32 + ch.val;
        Canon s ∧ (s.stack m.val).powered = true ∧ (s.chan c).fenced = false ∧ (s.chan c).readmPend = false :=
    ⟨canon_of (by decide +kernel), by decide +kernel⟩

theorem witness_MemoryUpkeep_8 :
    let m : Fin 6 := 5;
    let ch : Fin 32 := 31;
    let s : State := { up with mem := { stackTab := [(5, { fitted := true, powered := true })] } };
    let c := m.val * 32 + ch.val;
        Canon s ∧ (s.stack m.val).powered = true ∧ ((s.chan c).fenced = false ∨ (s.chan c).readmPend = true) ∧ Calm (17 + m.val) s :=
    ⟨canon_of (by decide +kernel), by decide +kernel, by decide +kernel, calm_of (by decide +kernel)⟩

theorem witness_MemoryUpkeep_9 :
    let g : Nat := 32;
    let s : State := { up with mem := { toZero := [32] } };
        Canon s ∧ s.mem.toZero.contains g = true ∧ s.mem.due = [] ∧ (∀ p, granPart s g = some p → NoResume p s) :=
    ⟨canon_of (by decide +kernel), by decide +kernel, by decide +kernel, no_part (by decide +kernel)⟩

theorem witness_MemoryUpkeep_10 :
    let g : Nat := 32;
    let s : State := { up with mem := { toZero := [32] } };
        Canon s ∧ s.mem.toZero.contains g = true ∧ s.mem.due = [] ∧ Calm (granGroup g) s :=
    ⟨canon_of (by decide +kernel), by decide +kernel, by decide +kernel, calm_of (by decide +kernel)⟩

theorem witness_MemoryUpkeep_11 :
    let b : Fin 64 := 63;
    let s : State := { up with mem := { banks := [(63, { zeroing := true })] } };
        Canon s ∧ (s.bank b.val).zeroing = true ∧ (s.bank b.val).fenced = false ∧ s.mem.due = [] ∧ (∀ p, (s.bank b.val).owner = some p →
      NoResume p s) :=
    ⟨canon_of (by decide +kernel), join3 (by decide +kernel) (no_part (by decide +kernel))⟩

theorem witness_MemoryUpkeep_12 :
    let b : Fin 64 := 63;
    let s : State := { up with mem := { banks := [(63, { zeroing := true })] } };
        Canon s ∧ (s.bank b.val).zeroing = true ∧ (s.bank b.val).fenced = false ∧ s.mem.due = [] ∧ Calm 23 s :=
    ⟨canon_of (by decide +kernel), join3 (by decide +kernel) (calm_of (by decide +kernel))⟩

theorem witness_MemoryUpkeep_13 :
    let m : Fin 6 := 5;
    let ch : Fin 32 := 31;
    let s : State := { up with mem := { chans := [(191, { zeroing := true })] } };
        Canon s ∧ (s.chan (m.val * 32 + ch.val)).zeroing = true ∧ (s.chan (m.val * 32 + ch.val)).fenced = false ∧ s.mem.due = [] ∧ (∀ p,
      (s.chan (m.val * 32 + ch.val)).owner = some p → NoResume p s) :=
    ⟨canon_of (by decide +kernel), join3 (by decide +kernel) (no_part (by decide +kernel))⟩

theorem witness_MemoryUpkeep_14 :
    let pa : Nat := 0x200000;
    let s : State := { up with mem := { due := [({ pa := 0x200010, part := none } : RowDue)] } };
    let d : RowDue := ({ pa := 0x200010, part := none } : RowDue);
    let b := 0;
    let g := 32;
        Canon s ∧ (s.mem.due.find? (fun d => rowKey s d.pa == rowKey s pa) = some d) ∧ (∀ p, d.part = some p → (s.part p).active = false ∧
      NoResume p s) ∧ paSpot s pa = .sram b g ∧ (s.bank b).spares ≠ 0 ∧ lifeCycle s ≠ 4 :=
    ⟨canon_of (by decide +kernel), by decide +kernel, no_part rfl, by decide +kernel⟩

theorem witness_MemoryUpkeep_15 :
    let pa : Nat := 0x010000000000;
    let s : State := { up with mem := { due := [{ pa := 0x010000000000, part := none }] } };
    let d : RowDue := ({ pa := 0x010000000000, part := none } : RowDue);
    let m := 0;
    let ch := 0;
    let g := 0;
        Canon s ∧ (s.mem.due.find? (fun d => rowKey s d.pa == rowKey s pa) = some d) ∧ (∀ p, d.part = some p → (s.part p).active = false ∧
      NoResume p s) ∧ paSpot s pa = .hbm m ch g ∧ Tab.get 0 s.mem.ppr (pprKey m ch pa) < 1 + Config.pprExtra (pprKey m ch pa) ∧ lifeCycle s
      ≠ 4 :=
    ⟨canon_of (by decide +kernel), by decide +kernel, no_part rfl, by decide +kernel, Nat.lt_of_lt_of_le (by decide +kernel : 0 < 1) (Nat.le_add_right
    1 _), by decide +kernel⟩

theorem witness_MemoryUpkeep_16 :
    let pa : Nat := 0x200000;
    let s : State := { up with mem := { due := [({ pa := 0x200010, part := none } : RowDue)], banks := [(0, { spares := 0 })] } };
    let d : RowDue := ({ pa := 0x200010, part := none } : RowDue);
    let b := 0;
    let g := 32;
        Canon s ∧ (s.mem.due.find? (fun d => rowKey s d.pa == rowKey s pa) = some d) ∧ (∀ p, d.part = some p → (s.part p).active = false ∧
      NoResume p s) ∧ paSpot s pa = .sram b g ∧ ((s.bank b).spares = 0 ∨ lifeCycle s = 4) ∧ Calm (granGroup (granOf (.sram b g))) s :=
    ⟨canon_of (by decide +kernel), by decide +kernel, no_part rfl, by decide +kernel, by decide +kernel, calm_of (by decide +kernel)⟩

theorem witness_MemoryFencesAndWindows_0 :
    let b : Fin 64 := 63;
    let s : State := up;
        Canon s ∧ (s.bank b.val).fenced = false :=
    ⟨canon_of (by decide +kernel), by decide +kernel⟩

theorem witness_MemoryFencesAndWindows_1 :
    let b : Fin 64 := 63;
    let s : State := { up with mem := { banks := [(63, { fenced := true })] } };
        Canon s ∧ (s.bank b.val).fenced = true :=
    ⟨canon_of (by decide +kernel), by decide +kernel⟩

theorem witness_MemoryFencesAndWindows_2 :
    let b : Fin 64 := 63;
    let s : State := up;
        Canon s ∧ (s.bank b.val).fenced = false ∧ Calm 23 s :=
    ⟨canon_of (by decide +kernel), by decide +kernel, calm_of (by decide +kernel)⟩

theorem witness_MemoryFencesAndWindows_3 :
    let m : Fin 6 := 5;
    let ch : Fin 32 := 31;
    let s : State := up;
    let c := m.val * 32 + ch.val;
        Canon s ∧ (s.chan c).fenced = false :=
    ⟨canon_of (by decide +kernel), by decide +kernel⟩

theorem witness_MemoryFencesAndWindows_4 :
    let m : Fin 6 := 5;
    let ch : Fin 32 := 31;
    let s : State := { up with mem := { stackTab := [(5, { fitted := true })], chans := [(191, { fenced := true })] } };
    let c := m.val * 32 + ch.val;
        Canon s ∧ (s.chan c).fenced = true ∧ stackAllowed s m.val = true :=
    ⟨canon_of (by decide +kernel), by decide +kernel⟩

theorem witness_MemoryFencesAndWindows_5 :
    let m : Fin 6 := 5;
    let ch : Fin 32 := 31;
    let s : State := { up with mem := { stackTab := [], chans := [(191, { fenced := true })] } };
    let c := m.val * 32 + ch.val;
        Canon s ∧ (s.chan c).fenced = true ∧ stackAllowed s m.val = false ∧ ownerActive s (s.chan c).owner = false ∧ (s.pwr.domains.getLsbD
      (16 + m.val) = true ∨ stackUsers s m.val = []) :=
    ⟨canon_of (by decide +kernel), join3 (by decide +kernel) (Or.inr (by decide +kernel))⟩

theorem witness_MemoryFencesAndWindows_6 :
    let m : Fin 6 := 5;
    let ch : Fin 32 := 31;
    let s : State := up;
    let c := m.val * 32 + ch.val;
        Canon s ∧ (s.chan c).fenced = false ∧ Calm (17 + m.val) s :=
    ⟨canon_of (by decide +kernel), by decide +kernel, calm_of (by decide +kernel)⟩

theorem witness_MemoryFencesAndWindows_7 :
    let m : Fin 6 := 5;
    let s : State := up;
        Canon s ∧ (s.stack m.val).fitted = true ∧ Calm (17 + m.val) s :=
    ⟨canon_of (by decide +kernel), by decide +kernel, calm_of (by decide +kernel)⟩

theorem witness_MemoryFencesAndWindows_8 :
    let row : BitVec 32 := hbmRow;
    let pa : Nat := 0x010000000000;
    let s : State := { up with lcs := { up.lcs with otp := { up.lcs.otp with fields := [(0, 0xFFFF#16), (1, 0xFFFF#16), (2, 0xFFFF#16), (3, 0xFFFF#16), (4, 0xFFFF#16), (5, 0xFFFF#16)] } }, dbg := { openS := true, rights := 0x1FF } };
    let m := bits row.toNat 25 3;
        Canon s ∧ hasRight s 8 = true ∧ lifeCycle s = 2 ∧ row.toNat / 0x10000000 = 3 ∧ (s.stack m).fitted = true ∧ rowPa row.toNat = some pa :=
    ⟨canon_of (by decide +kernel), by decide +kernel⟩

theorem witness_MemoryFencesAndWindows_9 :
    let w : Fin 16 := 15;
    let val : Word := 0x00010000;
    let s : State := up;
    let first := min 79 (bits val.toNat 8 7);
    let v := BitVec.ofNat 32 (bits val.toNat 0 6 + first * 256 + bits val.toNat 16 7 * 65536);
    let old := Tab.get 0 s.home.cohWins w.val;
    let clash := bits val.toNat 16 7 != 0 && ((s.home.cohWins ++ s.home.cohPend).filter (fun e => e.1 != w.val && bits e.2.toNat 16 7 != 0)).any (fun e => decide ((winRange v).1 < (winRange e.2).2) && decide ((winRange e.2).1 < (winRange v).2));
    let bad := (bits val.toNat 16 7 ≠ 0 ∧ 80 < bits val.toNat 8 7 + bits val.toNat 16 7) ∨ clash = true ∨ winFree s (bits v.toNat 0 6) = false ∨ winFree s (bits old.toNat 0 6) = false;
        Groups s ∧ (¬ bad) ∧ s.home.lines = [] ∧ s.home.txns = [] ∧ Settled s :=
    ⟨by decide +kernel, join3 (by decide +kernel) (⟨rfl, rfl⟩)⟩

theorem witness_MemoryFencesAndWindows_10 :
    let w : Fin 16 := 15;
    let val : Word := 0x00020000 + 79 * 256;
    let s : State := up;
    let first := min 79 (bits val.toNat 8 7);
    let v := BitVec.ofNat 32 (bits val.toNat 0 6 + first * 256 + bits val.toNat 16 7 * 65536);
    let old := Tab.get 0 s.home.cohWins w.val;
    let clash := bits val.toNat 16 7 != 0 && ((s.home.cohWins ++ s.home.cohPend).filter (fun e => e.1 != w.val && bits e.2.toNat 16 7 != 0)).any (fun e => decide ((winRange v).1 < (winRange e.2).2) && decide ((winRange e.2).1 < (winRange v).2));
    let bad := (bits val.toNat 16 7 ≠ 0 ∧ 80 < bits val.toNat 8 7 + bits val.toNat 16 7) ∨ clash = true ∨ winFree s (bits v.toNat 0 6) = false ∨ winFree s (bits old.toNat 0 6) = false;
        Groups s ∧ bad ∧ Calm 23 s :=
    ⟨by decide +kernel, by decide +kernel, calm_of (by decide +kernel)⟩

end Sys2Proof.Tests
end

