-- ==== Sys2Proof/Tests/Witness4.lean ====
section
/-! SUPPORT. Witnesses for the statements on sites and the Gelja link. -/
namespace Sys2Proof.Tests
open Sys2Proof Sys2Proof.Machine Sys2Proof.Safety
set_option linter.unusedVariables false
set_option Elab.async false


/-- The body of a site record, from some of its bytes by their offsets. -/
def cfgOf (fs : List (Nat × Nat)) : List Byte :=
  (List.range 752).map (fun i => BitVec.ofNat 8 (fs.foldl (fun a f => if f.1 = i + 8 then f.2 else a) 0))
/-- A record with context 1 granted, and its first 64 KiB, all rights, at 0x200000. -/
def openCfg : List Byte :=
  cfgOf [(8, 0x40), (0x14, 1), (0x15, 4), (0x18, 1), (0x19, 0x80), (0xF6, 1), (0xF7, 0x80), (0xFA, 0x20), (0x100, 1), (0x104, 0xF)]
/-- A site whose record is this one. -/
def site0 : Site := { cls := 1, cfg := openCfg, owner := some 0 }
/-- A hub with one site, whose faults are only logged. -/
def sited (x : Site) : State :=
  (({ up with sites := [(17, x)], mem := { own := [(32, { owner := 1 })] } } : State)).setGrp 16 { up.grp 16 with action := .log }
/-- A double site at 16 and 17. -/
def doubled (x y : Site) : State :=
  (({ up with sites := [(16, { x with double := true }), (17, { y with upper := true })] } : State)).setGrp 16 { up.grp 16 with action := .log }
/-- An ADMITTED Gelja site with all credits. -/
def admittedSite : Site := { site0 with state := .admitted, configDone := true, caching := true, credits := [(10, 256), (11, 256)] }
theorem travels_of {op lo hi : Nat} {m : GMsg} (h : (received op m == m && fieldsOk op lo hi m) = true) : Travels op lo hi m := by
  simp only [Bool.and_eq_true, beq_iff_eq] at h
  exact h
theorem crust_ok {r : Except Nat Nat} {a : Nat} (h : (match r with | .ok x => x == a | .error _ => false) = true) : r = .ok a := by
  cases r with
  | ok x => rw [beq_iff_eq.1 h]
  | error x => cases h
theorem crust_bad {r : Except Nat Nat} {a : Nat} (h : (match r with | .error x => x == a | .ok _ => false) = true) : r = .error a := by
  cases r with
  | error x => rw [beq_iff_eq.1 h]
  | ok x => cases h
theorem entered_of {n op lo hi : Nat} {k : CrustClass} {m : GMsg} {pa : Nat} {s : State}
    (h : (isGelja (s.site (evenOf s n)) && (s.site (evenOf s n)).state == .admitted && (s.site (evenOf s n)).owner.isSome &&
      (received op m == m && fieldsOk op lo hi m) && (s.site (evenOf s n)).configDone && hasCredit (s.site (evenOf s n)) op m.len.toNat &&
      (s.site (evenOf s n)).caching && stepTagOk s (s.site (evenOf s n)) m) = true)
    (h2 : crustCheck (s.site (evenOf s n)) k m.ctx.toNat m.addr.toNat = .ok pa) : Entered n op lo hi k m pa s := by
  simp only [Bool.and_eq_true, beq_iff_eq] at h
  exact ⟨h.1.1.1.1.1.1.1, h.1.1.1.1.1.1.2, h.1.1.1.1.1.2, h.1.1.1.1.2, h.1.1.1.2, h.1.1.2, fun _ => h.1.2, h.2, h2⟩
theorem lineOpen_of {line ctx : Nat} {s : State} (g : Nat) (h : memCheck s (line * 64) ctx = .pass g)
    (h2 : (s.grp (granGroup g)).inject = 0) : LineOpen line ctx s := ⟨g, h, h2⟩
theorem nobody {s : State} {P : Req → Prop} (h : s.noc.reqs = []) : ∀ r ∈ s.noc.reqs, P r := by
  intro r hr
  rw [h] at hr
  cases hr

theorem witness_SiteAdmissionAndTimeouts_0 :
    let n : Fin 18 := 17;
    let s : State := sited { site0 with owner := none };
    let e := evenOf s n.val;
    let x := s.site e;
    let st := 0x31#6;
    let sc := 0x0E#6;
        Canon s ∧ s.flt.stopped = false ∧ x.paused = false ∧ n.val = e ∧ startOk s e = true ∧ ownerActive s x.owner = false ∧ strapsOk n.val
      st sc = true :=
    ⟨canon_of (by decide +kernel), by decide +kernel⟩

theorem witness_SiteAdmissionAndTimeouts_1 :
    let n : Fin 18 := 17;
    let s : State := sited { site0 with owner := none };
    let e := evenOf s n.val;
    let x := s.site e;
    let st := 0x31#6;
    let sc := 0x0F#6;
        Canon s ∧ s.flt.stopped = false ∧ x.paused = false ∧ n.val = e ∧ startOk s e = true ∧ ownerActive s x.owner = false ∧ strapsOk n.val
      st sc = false ∧ Calm 16 s :=
    ⟨canon_of (by decide +kernel), join4 (by decide +kernel) ⟨by decide +kernel, by decide +kernel, calm_of (by decide +kernel)⟩⟩

theorem witness_SiteAdmissionAndTimeouts_2 :
    let n : Fin 18 := 17;
    let s : State := { sited site0 with parts := [(0, { state := .running, cfg := { enable := true } })] };
    let e := evenOf s n.val;
    let x := s.site e;
        Canon s ∧ s.flt.stopped = false ∧ x.paused = false ∧ n.val = e ∧ startOk s e = true ∧ ownerActive s x.owner = true :=
    ⟨canon_of (by decide +kernel), by decide +kernel⟩

theorem witness_SiteAdmissionAndTimeouts_3 :
    let n : Fin 18 := 17;
    let s : State := doubled { site0 with state := .rails, strapOk := true } site0;
    let e := evenOf s n.val;
    let x := s.site e;
    let st := 0x31#6;
    let sc := 0x0E#6;
        Canon s ∧ s.flt.stopped = false ∧ x.paused = false ∧ n.val ≠ e ∧ x.state = .rails ∧ (s.site n.val).strapIn = false ∧ strapsOk n.val
      st sc = true :=
    ⟨canon_of (by decide +kernel), by decide +kernel⟩

theorem witness_SiteAdmissionAndTimeouts_4 :
    let n : Fin 18 := 17;
    let s : State := sited { site0 with state := .rails, strapOk := true };
    let e := evenOf s n.val;
    let x := s.site e;
        Canon s ∧ admits x = true ∧ x.state = .rails ∧ ((halves s n.val).all (fun k => (s.site k).strapOk) = true) :=
    ⟨canon_of (by decide +kernel), by decide +kernel⟩

theorem witness_SiteAdmissionAndTimeouts_5 :
    let n : Fin 18 := 17;
    let s : State := sited { site0 with state := .link };
    let e := evenOf s n.val;
    let x := s.site e;
        Canon s ∧ admits x = true ∧ x.state = .link ∧ x.sideband = false :=
    ⟨canon_of (by decide +kernel), by decide +kernel⟩

theorem witness_SiteAdmissionAndTimeouts_6 :
    let n : Fin 18 := 17;
    let s : State := sited { site0 with state := .link, sideband := true };
    let e := evenOf s n.val;
    let x := s.site e;
    let k : Nat := 1;
    let d : List Nat := ([] : List Nat);
    let b : Bool := false;
    let off := ((d.map (moduleData e) ++ (mapUnitsOf s).filter (ofSites 5 (halves s e))).eraseDups).length;
    let left := min k (4 * (halves s e).length - off);
        Canon s ∧ admits x = true ∧ x.state = .link ∧ x.sideband = true ∧ (d = [] ∨ Calm 16 s) ∧ minModules x ≤ left ∧ (x.double = true → b
      = true) ∧ (isGelja x = true ∨ x.found = x.cls) :=
    ⟨canon_of (by decide +kernel), join3 (by decide +kernel) ⟨Or.inl rfl, by decide +kernel, by decide +kernel, Or.inl (by decide +kernel)⟩⟩

theorem witness_SiteAdmissionAndTimeouts_7 :
    let n : Fin 18 := 17;
    let s : State := sited { site0 with state := .link, sideband := true, cls := 2 };
    let e := evenOf s n.val;
    let x := s.site e;
    let k : Nat := 1;
    let d : List Nat := ([] : List Nat);
    let b : Bool := false;
    let off := ((d.map (moduleData e) ++ (mapUnitsOf s).filter (ofSites 5 (halves s e))).eraseDups).length;
    let left := min k (4 * (halves s e).length - off);
        Canon s ∧ admits x = true ∧ x.state = .link ∧ x.sideband = true ∧ (d = [] ∨ Calm 16 s) ∧ minModules x ≤ left ∧ (x.double = true → b
      = true) ∧ isGelja x = false ∧ x.found ≠ x.cls ∧ Logs 16 s :=
    ⟨canon_of (by decide +kernel), join3 (by decide +kernel) ⟨Or.inl rfl, by decide +kernel⟩⟩

theorem witness_SiteAdmissionAndTimeouts_8 :
    let n : Fin 18 := 17;
    let s : State := sited { site0 with state := .link, sideband := true };
    let e := evenOf s n.val;
    let x := s.site e;
    let k : Nat := 0;
    let d : List Nat := ([] : List Nat);
    let b : Bool := false;
    let off := ((d.map (moduleData e) ++ (mapUnitsOf s).filter (ofSites 5 (halves s e))).eraseDups).length;
    let left := min k (4 * (halves s e).length - off);
        Canon s ∧ admits x = true ∧ x.state = .link ∧ x.sideband = true ∧ (d = [] ∨ Calm 16 s) ∧ left < minModules x ∧ (x.double = true → b
      = true) ∧ Logs 16 s :=
    ⟨canon_of (by decide +kernel), join3 (by decide +kernel) ⟨Or.inl rfl, by decide +kernel⟩⟩

theorem witness_SiteAdmissionAndTimeouts_9 :
    let n : Fin 18 := 16;
    let s : State := doubled { site0 with state := .link, sideband := true } site0;
    let e := evenOf s n.val;
    let x := s.site e;
    let d : List Nat := ([] : List Nat);
    let b : Bool := false;
        Canon s ∧ admits x = true ∧ x.state = .link ∧ x.sideband = true ∧ (d = [] ∨ Calm 16 s) ∧ x.double = true ∧ b = false ∧ Logs 16 s :=
    ⟨canon_of (by decide +kernel), join3 (by decide +kernel) ⟨Or.inl rfl, by decide +kernel⟩⟩

theorem witness_SiteAdmissionAndTimeouts_10 :
    let n : Fin 18 := 17;
    let s : State := sited { site0 with state := .attest };
    let e := evenOf s n.val;
    let x := s.site e;
    let a : AttestIn := { unsupported := true, silent := false, algOk := true, sigsOk := true, rootDig := 0, chainDig := 0, measDig := 0 };
    let r := attestResult x a;
        Canon s ∧ admits x = true ∧ x.state = .attest ∧ (r = .attested ∨ (r = .unattested ∧ unattestedOk s = true)) :=
    ⟨canon_of (by decide +kernel), by decide +kernel⟩

theorem witness_SiteAdmissionAndTimeouts_11 :
    let n : Fin 18 := 17;
    let s : State := sited { site0 with state := .attest };
    let e := evenOf s n.val;
    let x := s.site e;
    let a : AttestIn := { unsupported := false, silent := false, algOk := true, sigsOk := false, rootDig := 0, chainDig := 0, measDig := 0 };
    let r := attestResult x a;
        Canon s ∧ admits x = true ∧ x.state = .attest ∧ (r = .failed ∨ (r = .unattested ∧ unattestedOk s = false)) ∧ Calm 16 s :=
    ⟨canon_of (by decide +kernel), join3 (by decide +kernel) (Or.inl (by decide +kernel))⟩

theorem witness_SiteAdmissionAndTimeouts_12 :
    let n : Fin 18 := 17;
    let s : State := sited { site0 with state := .config };
    let e := evenOf s n.val;
    let x := s.site e;
        Canon s ∧ admits x = true ∧ x.state = .config :=
    ⟨canon_of (by decide +kernel), by decide +kernel⟩

theorem witness_SiteAdmissionAndTimeouts_13 :
    let n : Fin 18 := 17;
    let s : State := sited { site0 with state := .rails };
    let e := evenOf s n.val;
    let x := s.site e;
        Canon s ∧ Calm 16 s ∧ admits x = true ∧ x.state = .rails :=
    ⟨canon_of (by decide +kernel), calm_of (by decide +kernel), by decide +kernel⟩

theorem witness_SiteAdmissionAndTimeouts_14 :
    let n : Fin 18 := 17;
    let s : State := sited { site0 with state := .link };
    let e := evenOf s n.val;
    let x := s.site e;
        Canon s ∧ Calm 16 s ∧ admits x = true ∧ x.state = .link ∧ x.sideband = false :=
    ⟨canon_of (by decide +kernel), calm_of (by decide +kernel), by decide +kernel⟩

theorem witness_SiteAdmissionAndTimeouts_15 :
    let n : Fin 18 := 17;
    let s : State := sited { site0 with state := .negotiate };
    let e := evenOf s n.val;
    let x := s.site e;
        Canon s ∧ Calm 16 s ∧ admits x = true ∧ x.state = .negotiate :=
    ⟨canon_of (by decide +kernel), calm_of (by decide +kernel), by decide +kernel⟩

theorem witness_SiteAdmissionAndTimeouts_16 :
    let n : Fin 18 := 17;
    let s : State := sited { site0 with state := .attest };
    let e := evenOf s n.val;
    let x := s.site e;
        Canon s ∧ Calm 16 s ∧ admits x = true ∧ x.state = .attest :=
    ⟨canon_of (by decide +kernel), calm_of (by decide +kernel), by decide +kernel⟩

theorem witness_SiteAdmissionAndTimeouts_17 :
    let n : Fin 18 := 17;
    let s : State := sited { site0 with state := .config };
    let e := evenOf s n.val;
    let x := s.site e;
        Canon s ∧ Calm 16 s ∧ admits x = true ∧ x.state = .config :=
    ⟨canon_of (by decide +kernel), calm_of (by decide +kernel), by decide +kernel⟩

theorem witness_SiteAdmissionAndTimeouts_18 :
    let n : Fin 18 := 17;
    let s : State := sited { site0 with state := .retrain };
    let e := evenOf s n.val;
    let x := s.site e;
        Canon s ∧ Calm 16 s ∧ x.state = .retrain :=
    ⟨canon_of (by decide +kernel), calm_of (by decide +kernel), by decide +kernel⟩

theorem witness_SiteAdmissionAndTimeouts_19 :
    let n : Fin 18 := 17;
    let s : State := { sited { site0 with state := .fenced } with pwr := { domains := 2 ^ 57 } };
        Canon s ∧ Calm 16 s ∧ (∃ k ∈ halves s n.val, s.pwr.domains.getLsbD (40 + k) = true) :=
    ⟨canon_of (by decide +kernel), calm_of (by decide +kernel), by decide +kernel⟩

theorem witness_SiteCommands_0 :
    let n : Fin 18 := 17;
    let s : State := sited { site0 with state := .admitted };
    let e := evenOf s n.val;
    let x := s.site e;
        Canon s ∧ x.state = .admitted :=
    ⟨canon_of (by decide +kernel), by decide +kernel⟩

theorem witness_SiteCommands_1 :
    let n : Fin 18 := 17;
    let s : State := sited { site0 with state := .admitted };
    let e := evenOf s n.val;
    let x := s.site e;
    let y := s.site n.val;
        Canon s ∧ x.state = .admitted ∧ y.upper = false :=
    ⟨canon_of (by decide +kernel), by decide +kernel⟩

theorem witness_SiteCommands_2 :
    let n : Fin 18 := 17;
    let s : State := sited { site0 with state := .retrain };
    let e := evenOf s n.val;
    let x := s.site e;
    let k := 1;
    let left := min k (4 * (halves s e).length - (((mapUnitsOf s).filter (ofSites 5 (halves s e))).eraseDups).length);
        Canon s ∧ x.state = .retrain ∧ minModules x ≤ left :=
    ⟨canon_of (by decide +kernel), by decide +kernel⟩

theorem witness_SiteCommands_3 :
    let n : Fin 18 := 17;
    let s : State := sited { site0 with state := .retrain };
    let e := evenOf s n.val;
    let x := s.site e;
    let k := 0;
    let left := min k (4 * (halves s e).length - (((mapUnitsOf s).filter (ofSites 5 (halves s e))).eraseDups).length);
        Canon s ∧ x.state = .retrain ∧ left < minModules x ∧ Calm 16 s :=
    ⟨canon_of (by decide +kernel), by decide +kernel, by decide +kernel, calm_of (by decide +kernel)⟩

theorem witness_SiteCommands_4 :
    let n : Fin 18 := 17;
    let s : State := sited { site0 with state := .ready };
    let e := evenOf s n.val;
    let x := s.site e;
    let y := s.site n.val;
        Canon s ∧ y.upper = false ∧ x.state ≠ .fenced ∧ x.state ≠ .off :=
    ⟨canon_of (by decide +kernel), by decide +kernel⟩

theorem witness_SiteCommands_5 :
    let n : Fin 18 := 17;
    let s : State := sited { site0 with state := .fenced };
    let y := s.site n.val;
        Canon s ∧ y.upper = false ∧ y.state = .fenced :=
    ⟨canon_of (by decide +kernel), by decide +kernel⟩

theorem witness_SiteCommands_6 :
    let n : Fin 18 := 17;
    let s : State := sited { site0 with state := .admitted };
    let y := s.site n.val;
        Canon s ∧ y.upper = false ∧ voltOpen y = true :=
    ⟨canon_of (by decide +kernel), by decide +kernel⟩

theorem witness_SiteCommands_7 :
    let n : Fin 18 := 17;
    let s : State := doubled site0 { site0 with cls := 1 };
    let y := s.site n.val;
        Canon s ∧ Calm 16 s ∧ y.upper = true :=
    ⟨canon_of (by decide +kernel), calm_of (by decide +kernel), by decide +kernel⟩

theorem witness_SiteCommands_8 :
    let n : Fin 18 := 17;
    let s : State := doubled site0 { site0 with cls := 1 };
    let y := s.site n.val;
        Canon s ∧ Calm 16 s ∧ y.upper = true :=
    ⟨canon_of (by decide +kernel), calm_of (by decide +kernel), by decide +kernel⟩

theorem witness_SiteCommands_9 :
    let n : Fin 18 := 17;
    let s : State := sited { site0 with state := .fenced, flushing := true };
    let k := 17;
        Canon s ∧ flushLead s n.val = k ∧ (s.site k).flushing = true ∧ (s.home.lines.any (fun l => l.2.pres.getLsbD k) = false) ∧ (s.site
      k).state = .fenced :=
    ⟨canon_of (by decide +kernel), by decide +kernel⟩

theorem witness_SiteCommands_10 :
    let n : Fin 18 := 17;
    let s : State := sited { site0 with state := .fenced, flushing := true };
    let k := 17;
        Canon s ∧ flushLead s n.val = k ∧ (s.site k).flushing = true ∧ s.home.txns = [] ∧ s.home.queue = [] ∧ s.home.victims = [] ∧ Settled
      s :=
    ⟨canon_of (by decide +kernel), join4 (by decide +kernel) ⟨by decide +kernel, ⟨rfl, rfl⟩⟩⟩

theorem witness_GeljaRequests_0 :
    let n : Fin 18 := 17;
    let m : GMsg := { len := 4, tag := 5, ctx := 1 };
    let s : State := sited admittedSite;
    let pa := 0x200000;
        Canon s ∧ Entered n.val 1 1 4 .read m pa s ∧ Calm 9 s :=
    ⟨canon_of (by decide +kernel), entered_of (by decide +kernel) (crust_ok (by decide +kernel)), calm_of (by decide +kernel)⟩

theorem witness_GeljaRequests_1 :
    let n : Fin 18 := 17;
    let m : GMsg := { len := 4, tag := 5, ctx := 1, data := List.replicate 256 0 };
    let s : State := sited admittedSite;
    let pa := 0x200000;
        Canon s ∧ Entered n.val 2 1 4 .write m pa s ∧ Calm 9 s :=
    ⟨canon_of (by decide +kernel), entered_of (by decide +kernel) (crust_ok (by decide +kernel)), calm_of (by decide +kernel)⟩

theorem witness_GeljaRequests_2 :
    let n : Fin 18 := 17;
    let m : GMsg := { len := 1, tag := 5, ctx := 1, be := 0xFF, data := List.replicate 64 1 };
    let s : State := sited admittedSite;
    let pa := 0x200000;
        Canon s ∧ Entered n.val 7 1 1 .write m pa s ∧ Calm 9 s :=
    ⟨canon_of (by decide +kernel), entered_of (by decide +kernel) (crust_ok (by decide +kernel)), calm_of (by decide +kernel)⟩

theorem witness_GeljaRequests_3 :
    let n : Fin 18 := 17;
    let m : GMsg := { len := 1, tag := 5, ctx := 1 };
    let s : State := sited admittedSite;
    let e := evenOf s n.val;
    let x := s.site e;
    let pa := 0x200000;
        Canon s ∧ Entered n.val 6 1 4 .current m pa s ∧ m.len = 1 ∧ FreshTags s ∧ Settled s ∧ LineOpen (pa / 64) m.ctx.toNat s ∧ (coherent s
      (pa / 64 * 64) = true → HomeQuiet (pa / 64) s ∧ (s.hline (pa / 64)).mode ≠ .x) :=
    ⟨canon_of (by decide +kernel), entered_of (by decide +kernel) (crust_ok (by decide +kernel)), by decide +kernel, nobody (by decide +kernel), ⟨rfl,
    rfl⟩, lineOpen_of 32 (by decide +kernel) (by decide +kernel), fun h => absurd h (by decide +kernel)⟩

theorem witness_GeljaRequests_4 :
    let n : Fin 18 := 17;
    let m : GMsg := { len := 1, tag := 5, ctx := 1, addr := 0x10000 };
    let s : State := sited admittedSite;
    let e := evenOf s n.val;
    let x := s.site e;
    let r := 3;
        Canon s ∧ isGelja x = true ∧ x.state = .admitted ∧ x.owner.isSome = true ∧ Travels 1 1 4 m ∧ x.configDone = true ∧ hasCredit x 1
      m.len.toNat = true ∧ stepTagOk s x m = true ∧ crustCheck x .read m.ctx.toNat m.addr.toNat = .error r ∧ Calm 16 s :=
    ⟨canon_of (by decide +kernel), join3 (by decide +kernel) ⟨travels_of (by decide +kernel), join3 (by decide +kernel) ⟨crust_bad (by
    decide +kernel), calm_of (by decide +kernel)⟩⟩⟩

theorem witness_GeljaAnswers_0 :
    let n : Fin 18 := 17;
    let m : GMsg := { len := 1, tag := 7, data := List.replicate 64 3 };
    let s : State := { sited { admittedSite with outs := [{ tag := 7, req := 3, rd := true }] } with noc := { reqs := [{ tag := 3, who := .cell 0, write := false, host := false, addr := 0x100000000000, len := 4, ctx := 1, part := 0, sched := true }] } };
    let e := evenOf s n.val;
    let x := s.site e;
    let o := ({ tag := 7, req := 3, rd := true } : SiteOut);
    let r := ({ tag := 3, who := .cell 0, write := false, host := false, addr := 0x100000000000, len := 4, ctx := 1, part := 0, sched := true } : Req);
        Canon s ∧ isGelja x = true ∧ linkUp x = true ∧ s.reqOf o.req = some r ∧ Travels 3 1 4 m ∧ outOf x m.tag.toNat true = some o :=
    ⟨canon_of (by decide +kernel), join3 (by decide +kernel) ⟨travels_of (by decide +kernel), by decide +kernel⟩⟩

theorem witness_GeljaAnswers_1 :
    let n : Fin 18 := 17;
    let m : GMsg := { tag := 7 };
    let s : State := { sited { admittedSite with outs := [{ tag := 7, req := 3, rd := false }] } with noc := { reqs := [{ tag := 3, who := .cell 0, write := true, host := false, addr := 0x100000000000, len := 4, ctx := 1, part := 0, sched := true }] } };
    let e := evenOf s n.val;
    let x := s.site e;
    let o := ({ tag := 7, req := 3, rd := false } : SiteOut);
    let r := ({ tag := 3, who := .cell 0, write := true, host := false, addr := 0x100000000000, len := 4, ctx := 1, part := 0, sched := true } : Req);
        Canon s ∧ isGelja x = true ∧ linkUp x = true ∧ s.reqOf o.req = some r ∧ Travels 4 0 0 m ∧ outOf x m.tag.toNat false = some o :=
    ⟨canon_of (by decide +kernel), join3 (by decide +kernel) ⟨travels_of (by decide +kernel), by decide +kernel⟩⟩

theorem witness_GeljaAnswers_2 :
    let n : Fin 18 := 17;
    let s : State := { sited { admittedSite with outs := [{ tag := 7, req := 3, rd := false }] } with noc := { reqs := [{ tag := 3, who := .cell 0, write := true, host := false, addr := 0x100000000000, len := 4, ctx := 1, part := 0, sched := true }] } };
    let e := evenOf s n.val;
    let x := s.site e;
    let tag : BitVec 12 := 7;
    let o := ({ tag := 7, req := 3, rd := false } : SiteOut);
        Canon s ∧ (x.outs.find? (fun o => o.tag == tag.toNat) = some o) ∧ Calm 16 s :=
    ⟨canon_of (by decide +kernel), by decide +kernel, calm_of (by decide +kernel)⟩

theorem witness_GeljaAnswers_3 :
    let n : Fin 18 := 17;
    let m : GMsg := { extra := 0x01001141 };
    let s : State := sited { site0 with state := .negotiate };
    let e := evenOf s n.val;
    let x := s.site e;
    let cls := rfld m.extra 0 0 4;
    let agrees := rfld m.extra 0 24 8 = 1 ∧ cls = x.cls ∧ rfld m.extra 0 8 5 = e ∧ rfld m.extra 0 4 4 = (if x.double then 8 else 4) ∧ (rbit m.extra 8 12 = true → x.cls ≠ 3) ∧ (rbit m.extra 8 13 = true → rfld m.extra 0xC 0 32 ≠ 0 ∧ rfld m.extra 8 0 12 ≠ 0);
        Canon s ∧ isGelja x = true ∧ x.state = .negotiate ∧ admits x = true ∧ Travels 0x60 0 0 m ∧ m.param = 0 ∧ rfld m.extra 0 13 3 = 0 ∧
      rfld m.extra 8 14 18 = 0 ∧ agrees :=
    ⟨canon_of (by decide +kernel), join3 (by decide +kernel) ⟨travels_of (by decide +kernel), by decide +kernel⟩⟩

theorem witness_GeljaAnswers_4 :
    let n : Fin 18 := 17;
    let m : GMsg := { extra := 0x01001142 };
    let s : State := sited { site0 with state := .negotiate };
    let e := evenOf s n.val;
    let x := s.site e;
    let cls := rfld m.extra 0 0 4;
    let agrees := rfld m.extra 0 24 8 = 1 ∧ cls = x.cls ∧ rfld m.extra 0 8 5 = e ∧ rfld m.extra 0 4 4 = (if x.double then 8 else 4) ∧ (rbit m.extra 8 12 = true → x.cls ≠ 3) ∧ (rbit m.extra 8 13 = true → rfld m.extra 0xC 0 32 ≠ 0 ∧ rfld m.extra 8 0 12 ≠ 0);
        Canon s ∧ isGelja x = true ∧ x.state = .negotiate ∧ admits x = true ∧ Travels 0x60 0 0 m ∧ m.param = 0 ∧ rfld m.extra 0 13 3 = 0 ∧
      rfld m.extra 8 14 18 = 0 ∧ (¬ agrees) ∧ Calm 16 s :=
    ⟨canon_of (by decide +kernel), join3 (by decide +kernel) ⟨travels_of (by decide +kernel), join4 (by decide +kernel) (calm_of (by
    decide +kernel))⟩⟩

theorem witness_GeljaAnswers_5 :
    let n : Fin 18 := 17;
    let m : GMsg := { addr := 0x300000000 };
    let s : State := sited admittedSite;
    let e := evenOf s n.val;
    let x := s.site e;
    let p := 0;
        Canon s ∧ isGelja x = true ∧ x.state = .admitted ∧ x.owner = some p ∧ Travels 0x66 0 0 m ∧ x.configDone = true ∧ m.param.toNat % 2 ^
      32 = (s.part p).step.toNat % 2 ^ 32 :=
    ⟨canon_of (by decide +kernel), join3 (by decide +kernel) ⟨travels_of (by decide +kernel), by decide +kernel⟩⟩

theorem witness_GeljaAnswers_6 :
    let n : Fin 18 := 17;
    let m : GMsg := { addr := 800 };
    let s : State := sited admittedSite;
    let e := evenOf s n.val;
    let x := s.site e;
        Canon s ∧ isGelja x = true ∧ x.state = .admitted ∧ Travels 0x67 0 0 m ∧ x.configDone = true :=
    ⟨canon_of (by decide +kernel), by decide +kernel, by decide +kernel, travels_of (by decide +kernel), by decide +kernel⟩

theorem witness_GeljaAnswers_7 :
    let n : Fin 18 := 17;
    let m : GMsg := { addr := 0x100010 };
    let s : State := sited admittedSite;
    let e := evenOf s n.val;
    let x := s.site e;
        Canon s ∧ isGelja x = true ∧ linkUp x = true ∧ Travels 0x69 0 0 m ∧ x.snpQ = [] :=
    ⟨canon_of (by decide +kernel), by decide +kernel, by decide +kernel, travels_of (by decide +kernel), by decide +kernel⟩

end Sys2Proof.Tests
end

