-- ==== Sys2Proof/Tests/Witness5.lean ====
section
/-! SUPPORT. Witnesses for the statements on coherence. -/
namespace Sys2Proof.Tests
open Sys2Proof Sys2Proof.Machine Sys2Proof.Safety
set_option linter.unusedVariables false
set_option Elab.async false


/-- A record with context 1 granted, and its first 64 KiB, all rights, at the start of stack 0. -/
def hbmCfg : List Byte :=
  cfgOf [(8, 0x40), (0x14, 1), (0x15, 4), (0x18, 1), (0x19, 0x80), (0xF6, 1), (0xF7, 0x80), (0xFD, 1), (0x100, 1), (0x104, 0xF)]
/-- The first line of stack 0. -/
def ln : Nat := 0x400000000
/-- A hub with an ADMITTED caching site and a state of the home. -/
def homed (x : Site) (h : Home) : State :=
  (({ up with sites := [(17, { x with cfg := hbmCfg })], home := h, mem := { own := [(5120, { owner := 1 })] }, pwr := { up.pwr with domains := 0x1900F } } : State)).setGrp 16
    { up.grp 16 with action := .log }
/-- The home with one line held. -/
def held1 (m : HMode) (p : BitVec 18) : Home := { lines := [(ln, { mode := m, pres := p })], alloc := [ln / 16] }
/-- A transaction of site 3 on that line. -/
def txn (op : HOp) (w : HWait) (site : Nat) (snoop : BitVec 18) : HTxn :=
  { req := { op := op, src := .gelja site 9, site := some site, line := ln, ctx := 1, dva := 0 }, wait := w, snoop := snoop }
def busy1 (m : HMode) (p : BitVec 18) (q : HTxn) : Home := { held1 m p with txns := [(ln, some q)] }
def snooped : Site := { admittedSite with snoops := [(7, ln)] }
def cxlSite : Site := { admittedSite with cls := 2, found := 2 }
theorem homeQuiet_of {line : Nat} {s : State}
    (h : (coherent s (line * 64) && (Tab.get none s.home.txns line).isNone && s.home.queue.isEmpty && s.home.victims.isEmpty) = true) (hs : Settled s) :
    HomeQuiet line s := by
  simp only [Bool.and_eq_true, Option.isNone_iff_eq_none, List.isEmpty_iff] at h
  exact ⟨h.1.1.1, h.1.1.2, h.1.2, h.2, hs⟩
theorem cxlEntered_of {n : Nat} {k : CrustClass} {m : CxlMsg} {pa : Nat} {s : State}
    (h : (isCxl (s.site (evenOf s n)) && (s.site (evenOf s n)).state == .admitted && (s.site (evenOf s n)).owner.isSome) = true)
    (h2 : crustCheck (s.site (evenOf s n)) (if (s.site (evenOf s n)).cls = 4 then .cache else k) (defaultCtx (s.site (evenOf s n))) m.addr.toNat = .ok pa) :
    CxlEntered n k m pa s := by
  simp only [Bool.and_eq_true, beq_iff_eq] at h
  exact ⟨h.1.1, h.1.2, h.2, h2⟩
theorem only_of {p : BitVec 18} {e : Nat} (h : (List.range 18).all (fun k => !p.getLsbD k || k == e) = true) :
    ∀ k, p.getLsbD k = true → k = e := by
  intro k hk
  have hlt : k < 18 := by
    rcases Nat.lt_or_ge k 18 with hl | hl
    · exact hl
    · rw [BitVec.getLsbD_of_ge _ _ hl] at hk; cases hk
  have g := List.all_eq_true.1 h k (List.mem_range.2 hlt)
  rw [hk] at g
  simpa using g

theorem txn_only {o : Option HTxn} {w : HWait} {e : Nat}
    (h : (match o with | some q => decide (q.wait = w) && decide (q.req.site = some e) | none => true) = true) :
    ∀ q, o = some q → q.wait = w ∧ q.req.site = some e := by
  intro q hq
  subst hq
  simpa using h

theorem witness_CachingRequests_0 :
    let n : Fin 18 := 17;
    let m : GMsg := { len := 1, tag := 5, ctx := 1 };
    let s : State := homed admittedSite {};
    let pa := 0x010000000000;
    let line := pa / 64;
    let h := s.hline line;
        Canon s ∧ HomeQuiet line s ∧ LineOpen line m.ctx.toNat s ∧ victimOf s line = none ∧ Entered n.val 0x10 1 1 .cache m pa s ∧ h.mode =
      .i :=
    ⟨canon_of (by decide +kernel), homeQuiet_of (by decide +kernel) ⟨rfl, rfl⟩, lineOpen_of 5120 (by decide +kernel) (by decide +kernel), by
    decide +kernel, entered_of (by decide +kernel) (crust_ok (by decide +kernel)), by decide +kernel⟩

theorem witness_CachingRequests_1 :
    let n : Fin 18 := 17;
    let m : GMsg := { len := 1, tag := 5, ctx := 1 };
    let s : State := homed admittedSite (held1 .s 0x00008#18);
    let pa := 0x010000000000;
    let line := pa / 64;
    let h := s.hline line;
        Canon s ∧ HomeQuiet line s ∧ LineOpen line m.ctx.toNat s ∧ victimOf s line = none ∧ Entered n.val 0x10 1 1 .cache m pa s ∧ h.mode =
      .s :=
    ⟨canon_of (by decide +kernel), homeQuiet_of (by decide +kernel) ⟨rfl, rfl⟩, lineOpen_of 5120 (by decide +kernel) (by decide +kernel), by
    decide +kernel, entered_of (by decide +kernel) (crust_ok (by decide +kernel)), by decide +kernel⟩

theorem witness_CachingRequests_2 :
    let n : Fin 18 := 17;
    let m : GMsg := { len := 1, tag := 5, ctx := 1 };
    let s : State := homed admittedSite (held1 .s 0x20000#18);
    let e := evenOf s n.val;
    let pa := 0x010000000000;
    let line := pa / 64;
    let h := s.hline line;
        Canon s ∧ HomeQuiet line s ∧ LineOpen line m.ctx.toNat s ∧ victimOf s line = none ∧ Entered n.val 0x11 1 1 .cache m pa s ∧ (∀ k,
      h.pres.getLsbD k = true → k = e) :=
    ⟨canon_of (by decide +kernel), homeQuiet_of (by decide +kernel) ⟨rfl, rfl⟩, lineOpen_of 5120 (by decide +kernel) (by decide +kernel), by
    decide +kernel, entered_of (by decide +kernel) (crust_ok (by decide +kernel)), only_of (by decide +kernel)⟩

theorem witness_CachingRequests_3 :
    let n : Fin 18 := 17;
    let m : GMsg := { len := 1, tag := 5, ctx := 1 };
    let s : State := homed admittedSite (held1 .s 0x00008#18);
    let e := evenOf s n.val;
    let pa := 0x010000000000;
    let line := pa / 64;
    let h := s.hline line;
        Canon s ∧ HomeQuiet line s ∧ LineOpen line m.ctx.toNat s ∧ victimOf s line = none ∧ Entered n.val 0x11 1 1 .cache m pa s ∧ (∃ k <
      18, h.pres.getLsbD k = true ∧ k ≠ e) :=
    ⟨canon_of (by decide +kernel), homeQuiet_of (by decide +kernel) ⟨rfl, rfl⟩, lineOpen_of 5120 (by decide +kernel) (by decide +kernel), by
    decide +kernel, entered_of (by decide +kernel) (crust_ok (by decide +kernel)), ⟨3, by decide +kernel⟩⟩

theorem witness_CachingRequests_4 :
    let n : Fin 18 := 17;
    let m : GMsg := { len := 1, tag := 5, ctx := 1 };
    let s : State := homed admittedSite (held1 .x 0x00008#18);
    let e := evenOf s n.val;
    let x := s.site e;
    let pa := 0x010000000000;
    let line := pa / 64;
    let h := s.hline line;
        Canon s ∧ HomeQuiet line s ∧ LineOpen line m.ctx.toNat s ∧ victimOf s line = none ∧ Entered n.val 0x10 1 1 .cache m pa s ∧ h.mode =
      .x ∧ h.pres.getLsbD e = false :=
    ⟨canon_of (by decide +kernel), homeQuiet_of (by decide +kernel) ⟨rfl, rfl⟩, lineOpen_of 5120 (by decide +kernel) (by decide +kernel), by
    decide +kernel, entered_of (by decide +kernel) (crust_ok (by decide +kernel)), by decide +kernel⟩

theorem witness_CachingRequests_5 :
    let n : Fin 18 := 17;
    let m : GMsg := { tag := 5, ctx := 1 };
    let s : State := homed admittedSite (held1 .s 0x20000#18);
    let e := evenOf s n.val;
    let pa := 0x010000000000;
    let line := pa / 64;
    let h := s.hline line;
        Canon s ∧ HomeQuiet line s ∧ LineOpen line m.ctx.toNat s ∧ victimOf s line = none ∧ Entered n.val 0x12 0 0 .cache m pa s ∧
      h.pres.getLsbD e = true ∧ (∀ k, h.pres.getLsbD k = true → k = e) :=
    ⟨canon_of (by decide +kernel), homeQuiet_of (by decide +kernel) ⟨rfl, rfl⟩, lineOpen_of 5120 (by decide +kernel) (by decide +kernel), by
    decide +kernel, entered_of (by decide +kernel) (crust_ok (by decide +kernel)), by decide +kernel, only_of (by decide +kernel)⟩

theorem witness_CachingRequests_6 :
    let n : Fin 18 := 17;
    let m : GMsg := { tag := 5, ctx := 1 };
    let s : State := homed admittedSite (held1 .s 0x20000#18);
    let e := evenOf s n.val;
    let x := s.site e;
    let pa := 0x010000000000;
    let line := pa / 64;
    let h := s.hline line;
        Canon s ∧ HomeQuiet line s ∧ Entered n.val 0x13 0 0 .cache m pa s ∧ (h.mode = .x → h.pres.getLsbD e = true) :=
    ⟨canon_of (by decide +kernel), homeQuiet_of (by decide +kernel) ⟨rfl, rfl⟩, entered_of (by decide +kernel) (crust_ok (by decide +kernel)), by
    decide +kernel⟩

theorem witness_CachingRequests_7 :
    let n : Fin 18 := 17;
    let m : GMsg := { len := 1, tag := 5, ctx := 1, data := List.replicate 64 7 };
    let s : State := homed admittedSite (held1 .x 0x20000#18);
    let e := evenOf s n.val;
    let x := s.site e;
    let pa := 0x010000000000;
    let line := pa / 64;
    let h := s.hline line;
        Canon s ∧ HomeQuiet line s ∧ Entered n.val 0x14 1 1 .cache m pa s ∧ LineOpen line m.ctx.toNat s ∧ h.mode = .x ∧ h.pres.getLsbD e =
      true ∧ m.data.length = 64 :=
    ⟨canon_of (by decide +kernel), homeQuiet_of (by decide +kernel) ⟨rfl, rfl⟩, entered_of (by decide +kernel) (crust_ok (by decide +kernel)),
    lineOpen_of 5120 (by decide +kernel) (by decide +kernel), by decide +kernel⟩

theorem witness_CachingRequests_8 :
    let n : Fin 18 := 17;
    let m : GMsg := { tag := 9 };
    let s : State := homed admittedSite (busy1 .s 0x20000#18 (txn .rdShared .ack 17 0));
    let e := evenOf s n.val;
    let x := s.site e;
    let line := ln;
        Canon s ∧ isGelja x = true ∧ linkUp x = true ∧ Travels 0x24 0 0 m ∧ ackLine s e m.tag.toNat = some line ∧ (∀ q, Tab.get none
      s.home.txns line = some q → q.wait = .ack ∧ q.req.site = some e) ∧ s.home.queue = [] ∧ Settled s :=
    ⟨canon_of (by decide +kernel), by decide +kernel, by decide +kernel, travels_of (by decide +kernel), by decide +kernel, txn_only (by
    decide +kernel), by decide +kernel, ⟨rfl, rfl⟩⟩

theorem witness_SnoopAnswers_0 :
    let n : Fin 18 := 17;
    let m : GMsg := { tag := 7 };
    let s : State := homed snooped (busy1 .s 0x20010#18 (txn .rdOwn .snoops 3 0x20010#18));
    let line : Nat := ln;
    let q : HTxn := txn .rdOwn .snoops 3 0x20010#18;
    let e := evenOf s n.val;
    let x := s.site e;
        Canon s ∧ Settled s ∧ Tab.get none s.home.txns line = some q ∧ isGelja x = true ∧ linkUp x = true ∧ (x.snoops.find? (fun k => k.1 ==
      m.tag.toNat) = some (m.tag.toNat, line)) ∧ q.wait = .snoops ∧ q.snoop.getLsbD e = true ∧ (s.hline line).pres.getLsbD e = true ∧ x.snpQ
      = [] ∧ putBit q.snoop e false ≠ 0 ∧ Travels 0x20 0 0 m ∧ m.wbp = false :=
    ⟨canon_of (by decide +kernel), ⟨rfl, rfl⟩, join4 (by decide +kernel) ⟨by decide +kernel, join4 (by decide +kernel) ⟨travels_of (by
    decide +kernel), by decide +kernel⟩⟩⟩

theorem witness_SnoopAnswers_1 :
    let n : Fin 18 := 17;
    let m : GMsg := { len := 1, tag := 7, data := List.replicate 64 7 };
    let s : State := homed snooped (busy1 .s 0x20010#18 (txn .rdOwn .snoops 3 0x20010#18));
    let line : Nat := ln;
    let q : HTxn := txn .rdOwn .snoops 3 0x20010#18;
    let e := evenOf s n.val;
    let x := s.site e;
        Canon s ∧ Settled s ∧ Tab.get none s.home.txns line = some q ∧ isGelja x = true ∧ linkUp x = true ∧ (x.snoops.find? (fun k => k.1 ==
      m.tag.toNat) = some (m.tag.toNat, line)) ∧ q.wait = .snoops ∧ q.snoop.getLsbD e = true ∧ (s.hline line).pres.getLsbD e = true ∧ x.snpQ
      = [] ∧ putBit q.snoop e false ≠ 0 ∧ Travels 0x21 1 1 m ∧ LineOpen line (snoopAddr x line).2 s ∧ m.data.length = 64 :=
    ⟨canon_of (by decide +kernel), ⟨rfl, rfl⟩, join4 (by decide +kernel) ⟨by decide +kernel, join4 (by decide +kernel) ⟨travels_of (by
    decide +kernel), lineOpen_of 5120 (by decide +kernel) (by decide +kernel), by decide +kernel⟩⟩⟩

theorem witness_SnoopAnswers_2 :
    let n : Fin 18 := 17;
    let m : GMsg := { tag := 7 };
    let s : State := homed snooped (busy1 .s 0x20000#18 (txn (.backInval 0) .snoops 3 0x20000#18));
    let line : Nat := ln;
    let q : HTxn := txn (.backInval 0) .snoops 3 0x20000#18;
    let e := evenOf s n.val;
    let x := s.site e;
        Canon s ∧ Settled s ∧ Tab.get none s.home.txns line = some q ∧ isGelja x = true ∧ linkUp x = true ∧ (x.snoops.find? (fun k => k.1 ==
      m.tag.toNat) = some (m.tag.toNat, line)) ∧ q.wait = .snoops ∧ q.snoop.getLsbD e = true ∧ (s.hline line).pres.getLsbD e = true ∧ x.snpQ
      = [] ∧ putBit q.snoop e false = 0 ∧ putBit q.wbp e false = 0 ∧ q.req.line = line ∧ s.home.queue = [] ∧ s.home.victims = [] ∧ (∃ why,
      q.req.op = .backInval why) ∧ Travels 0x20 0 0 m ∧ m.wbp = false :=
    ⟨canon_of (by decide +kernel), ⟨rfl, rfl⟩, join4 (by decide +kernel) ⟨by decide +kernel, join4 (by decide +kernel) ⟨by decide +kernel, join3 (by
    decide +kernel) ⟨⟨0, rfl⟩, travels_of (by decide +kernel), by decide +kernel⟩⟩⟩⟩

theorem witness_SnoopAnswers_3 :
    let n : Fin 18 := 17;
    let s : State := homed snooped (busy1 .s 0x20000#18 (txn .rdShared .ack 17 0));
    let line : Nat := ln;
    let q : HTxn := txn .rdShared .ack 17 0;
        Canon s ∧ Settled s ∧ Tab.get none s.home.txns line = some q ∧ q.wait = .ack ∧ q.req.site = some n.val ∧ (s.site n.val).state ≠
      .retrain ∧ s.home.queue = [] ∧ s.home.victims = [] ∧ Calm 16 s :=
    ⟨canon_of (by decide +kernel), ⟨rfl, rfl⟩, join4 (by decide +kernel) ⟨by decide +kernel, by decide +kernel, calm_of (by decide +kernel)⟩⟩

theorem witness_CxlCacheRequests_0 :
    let n : Fin 18 := 17;
    let m : CxlMsg := { tag := 5, data := List.replicate 64 7 };
    let s : State := homed cxlSite {};
    let pa : Nat := 0x010000000000;
    let e := evenOf s n.val;
    let x := s.site e;
    let line := pa / 64;
    let h := s.hline line;
        Canon s ∧ x.cls = 2 ∧ HomeQuiet line s ∧ LineOpen line (defaultCtx x) s ∧ CxlEntered n.val .cache m pa s ∧ victimOf s line = none ∧
      h.mode = .i :=
    ⟨canon_of (by decide +kernel), by decide +kernel, homeQuiet_of (by decide +kernel) ⟨rfl, rfl⟩, lineOpen_of 5120 (by decide +kernel) (by
    decide +kernel), cxlEntered_of (by decide +kernel) (crust_ok (by decide +kernel)), by decide +kernel⟩

theorem witness_CxlCacheRequests_1 :
    let n : Fin 18 := 17;
    let m : CxlMsg := { tag := 5, data := List.replicate 64 7 };
    let s : State := homed cxlSite (held1 .s 0x20000#18);
    let pa : Nat := 0x010000000000;
    let e := evenOf s n.val;
    let x := s.site e;
    let line := pa / 64;
    let h := s.hline line;
    let mine := ∀ k, h.pres.getLsbD k = true → k = e;
        Canon s ∧ x.cls = 2 ∧ HomeQuiet line s ∧ LineOpen line (defaultCtx x) s ∧ CxlEntered n.val .cache m pa s ∧ victimOf s line = none ∧
      mine :=
    ⟨canon_of (by decide +kernel), by decide +kernel, homeQuiet_of (by decide +kernel) ⟨rfl, rfl⟩, lineOpen_of 5120 (by decide +kernel) (by
    decide +kernel), cxlEntered_of (by decide +kernel) (crust_ok (by decide +kernel)), by decide +kernel, only_of (by decide +kernel)⟩

theorem witness_CxlCacheRequests_2 :
    let n : Fin 18 := 17;
    let m : CxlMsg := { tag := 5, data := List.replicate 64 7 };
    let s : State := homed cxlSite {};
    let pa : Nat := 0x010000000000;
    let e := evenOf s n.val;
    let x := s.site e;
    let line := pa / 64;
    let h := s.hline line;
        Canon s ∧ x.cls = 2 ∧ HomeQuiet line s ∧ LineOpen line (defaultCtx x) s ∧ CxlEntered n.val .cache m pa s ∧ h.mode = .i :=
    ⟨canon_of (by decide +kernel), by decide +kernel, homeQuiet_of (by decide +kernel) ⟨rfl, rfl⟩, lineOpen_of 5120 (by decide +kernel) (by
    decide +kernel), cxlEntered_of (by decide +kernel) (crust_ok (by decide +kernel)), by decide +kernel⟩

theorem witness_CxlCacheRequests_3 :
    let n : Fin 18 := 17;
    let m : CxlMsg := { tag := 5, data := List.replicate 64 7 };
    let s : State := homed cxlSite (held1 .s 0x20000#18);
    let pa : Nat := 0x010000000000;
    let e := evenOf s n.val;
    let x := s.site e;
    let line := pa / 64;
    let h := s.hline line;
        Canon s ∧ x.cls = 2 ∧ HomeQuiet line s ∧ LineOpen line (defaultCtx x) s ∧ CxlEntered n.val .cache m pa s ∧ (h.mode = .x →
      h.pres.getLsbD e = true) :=
    ⟨canon_of (by decide +kernel), by decide +kernel, homeQuiet_of (by decide +kernel) ⟨rfl, rfl⟩, lineOpen_of 5120 (by decide +kernel) (by
    decide +kernel), cxlEntered_of (by decide +kernel) (crust_ok (by decide +kernel)), by decide +kernel⟩

theorem witness_CxlCacheRequests_4 :
    let n : Fin 18 := 17;
    let m : CxlMsg := { tag := 5, data := List.replicate 64 7 };
    let s : State := homed cxlSite (held1 .x 0x20000#18);
    let pa : Nat := 0x010000000000;
    let e := evenOf s n.val;
    let x := s.site e;
    let line := pa / 64;
    let h := s.hline line;
        Canon s ∧ x.cls = 2 ∧ HomeQuiet line s ∧ LineOpen line (defaultCtx x) s ∧ CxlEntered n.val .cache m pa s ∧ h.mode = .x ∧
      h.pres.getLsbD e = true ∧ m.data.length = 64 :=
    ⟨canon_of (by decide +kernel), by decide +kernel, homeQuiet_of (by decide +kernel) ⟨rfl, rfl⟩, lineOpen_of 5120 (by decide +kernel) (by
    decide +kernel), cxlEntered_of (by decide +kernel) (crust_ok (by decide +kernel)), by decide +kernel⟩

theorem witness_CxlCacheRequests_5 :
    let n : Fin 18 := 17;
    let m : CxlMsg := { tag := 5, data := List.replicate 64 7 };
    let s : State := homed cxlSite (held1 .s 0x00008#18);
    let pa : Nat := 0x010000000000;
    let e := evenOf s n.val;
    let x := s.site e;
    let line := pa / 64;
    let h := s.hline line;
        Canon s ∧ x.cls = 2 ∧ HomeQuiet line s ∧ LineOpen line (defaultCtx x) s ∧ CxlEntered n.val .current m pa s ∧ h.mode ≠ .x :=
    ⟨canon_of (by decide +kernel), by decide +kernel, homeQuiet_of (by decide +kernel) ⟨rfl, rfl⟩, lineOpen_of 5120 (by decide +kernel) (by
    decide +kernel), cxlEntered_of (by decide +kernel) (crust_ok (by decide +kernel)), by decide +kernel⟩

theorem witness_CxlCacheRequests_6 :
    let n : Fin 18 := 17;
    let m : CxlMsg := { tag := 5, data := List.replicate 64 7 };
    let s : State := homed cxlSite {};
    let pa : Nat := 0x010000000000;
    let e := evenOf s n.val;
    let x := s.site e;
    let line := pa / 64;
    let h := s.hline line;
        Canon s ∧ x.cls = 2 ∧ HomeQuiet line s ∧ LineOpen line (defaultCtx x) s ∧ CxlEntered n.val .write m pa s ∧ h.mode = .i ∧
      m.data.length = 64 :=
    ⟨canon_of (by decide +kernel), by decide +kernel, homeQuiet_of (by decide +kernel) ⟨rfl, rfl⟩, lineOpen_of 5120 (by decide +kernel) (by
    decide +kernel), cxlEntered_of (by decide +kernel) (crust_ok (by decide +kernel)), by decide +kernel⟩

theorem witness_CxlMessages_0 :
    let n : Fin 18 := 17;
    let s : State := homed cxlSite {};
    let e := evenOf s n.val;
    let x := s.site e;
        Canon s ∧ Settled s ∧ x.cls = 2 ∧ x.state = .admitted :=
    ⟨canon_of (by decide +kernel), ⟨rfl, rfl⟩, by decide +kernel⟩

theorem witness_CxlMessages_1 :
    let n : Fin 18 := 17;
    let s : State := homed cxlSite {};
    let e := evenOf s n.val;
    let x := s.site e;
        Canon s ∧ Settled s ∧ x.cls = 2 ∧ x.state = .admitted ∧ x.errTicks = [] :=
    ⟨canon_of (by decide +kernel), ⟨rfl, rfl⟩, by decide +kernel⟩

theorem witness_CxlMessages_2 :
    let n : Fin 18 := 17;
    let m : CxlMsg := { tag := 7 };
    let s : State := homed { cxlSite with snoops := [(7, ln)] } (busy1 .s 0x20010#18 (txn .rdOwn .snoops 3 0x20010#18));
    let e := evenOf s n.val;
    let x := s.site e;
    let rsp : CxlSnpRsp := .iHitI;
    let line := ln;
    let q := txn .rdOwn .snoops 3 0x20010#18;
        Canon s ∧ Settled s ∧ x.cls = 2 ∧ x.state = .admitted ∧ (x.snoops.find? (fun k => k.1 == m.tag.toNat) = some (m.tag.toNat, line)) ∧
      Tab.get none s.home.txns line = some q ∧ q.wait = .snoops ∧ q.snoop.getLsbD e = true ∧ putBit q.snoop e false ≠ 0 ∧ x.snpQ = [] ∧
      (s.hline line).pres.getLsbD e = true ∧ s.home.queue = [] ∧ snpData rsp = false ∧ q.req.op ≠ .rdShared ∧ q.req.op ≠ .rdCur :=
    ⟨canon_of (by decide +kernel), ⟨rfl, rfl⟩, by decide +kernel⟩

theorem witness_CxlMessages_3 :
    let n : Fin 18 := 17;
    let m : CxlMsg := { tag := 7, data := List.replicate 64 7 };
    let s : State := homed { cxlSite with snoops := [(7, ln)] } (busy1 .s 0x20010#18 (txn .rdOwn .snoops 3 0x20010#18));
    let e := evenOf s n.val;
    let x := s.site e;
    let rsp : CxlSnpRsp := .iFwdM;
    let line := ln;
    let q := txn .rdOwn .snoops 3 0x20010#18;
        Canon s ∧ Settled s ∧ x.cls = 2 ∧ x.state = .admitted ∧ (x.snoops.find? (fun k => k.1 == m.tag.toNat) = some (m.tag.toNat, line)) ∧
      Tab.get none s.home.txns line = some q ∧ q.wait = .snoops ∧ q.snoop.getLsbD e = true ∧ putBit q.snoop e false ≠ 0 ∧ x.snpQ = [] ∧
      s.home.queue = [] ∧ snpData rsp = true ∧ LineOpen line (snoopAddr x line).2 s ∧ m.data.length = 64 :=
    ⟨canon_of (by decide +kernel), ⟨rfl, rfl⟩, join4 (by decide +kernel) ⟨by decide +kernel, join4 (by decide +kernel) ⟨by decide +kernel, lineOpen_of
    5120 (by decide +kernel) (by decide +kernel), by decide +kernel⟩⟩⟩

theorem witness_CxlMessages_4 :
    let n : Fin 18 := 17;
    let s : State := homed { cxlSite with goWait := [(7, ln)] } (busy1 .s 0x20010#18 (txn .rdShared .ack 17 0));
    let e := evenOf s n.val;
    let x := s.site e;
    let tag : BitVec 12 := 7;
    let line := ln;
    let q := txn .rdShared .ack 17 0;
        Canon s ∧ Settled s ∧ (x.goWait.find? (fun k => k.1 == tag.toNat) = some (tag.toNat, line)) ∧ Tab.get none s.home.txns line = some q
      ∧ q.wait = .ack ∧ q.req.site = some e ∧ s.home.queue = [] :=
    ⟨canon_of (by decide +kernel), ⟨rfl, rfl⟩, by decide +kernel⟩

theorem witness_CxlMessages_5 :
    let n : Fin 18 := 17;
    let s : State := { homed { cxlSite with outs := [{ tag := 7, req := 3, rd := true }] } {} with noc := { reqs := [{ tag := 3, who := .cell 0, write := false, host := false, addr := 0x100000000000, len := 4, ctx := 1, part := 0, sched := true }] } };
    let e := evenOf s n.val;
    let x := s.site e;
    let tag : BitVec 12 := 7;
    let o := ({ tag := 7, req := 3, rd := true } : SiteOut);
    let r := ({ tag := 3, who := .cell 0, write := false, host := false, addr := 0x100000000000, len := 4, ctx := 1, part := 0, sched := true } : Req);
        Canon s ∧ Settled s ∧ isCxl x = true ∧ (x.outs.find? (fun o => o.tag == tag.toNat) = some o) ∧ s.reqOf o.req = some r :=
    ⟨canon_of (by decide +kernel), ⟨rfl, rfl⟩, by decide +kernel⟩

theorem witness_CxlMessages_6 :
    let n : Fin 18 := 17;
    let m : CxlMsg := {};
    let s : State := homed cxlSite {};
    let e := evenOf s n.val;
    let x := s.site e;
    let pa := 0x010000000000;
        Canon s ∧ Settled s ∧ isCxl x = true ∧ x.state = .admitted ∧ x.flushing = false ∧ x.owner.isSome = true ∧ crustCheck x .read
      (defaultCtx x) m.addr.toNat = .ok pa ∧ Calm 9 s :=
    ⟨canon_of (by decide +kernel), ⟨rfl, rfl⟩, join4 (by decide +kernel) ⟨crust_ok (by decide +kernel), calm_of (by decide +kernel)⟩⟩

theorem witness_CxlMessages_7 :
    let n : Fin 18 := 17;
    let m : CxlMsg := {};
    let s : State := homed cxlSite {};
    let e := evenOf s n.val;
    let x := s.site e;
    let pa := 0x010000000000;
        Canon s ∧ Settled s ∧ isCxl x = true ∧ x.state = .admitted ∧ x.flushing = false ∧ x.owner.isSome = true ∧ crustCheck x .write
      (defaultCtx x) m.addr.toNat = .ok pa ∧ Calm 9 s :=
    ⟨canon_of (by decide +kernel), ⟨rfl, rfl⟩, join4 (by decide +kernel) ⟨crust_ok (by decide +kernel), calm_of (by decide +kernel)⟩⟩

theorem witness_CxlMessages_8 :
    let n : Fin 18 := 17;
    let s : State := homed cxlSite {};
    let e := evenOf s n.val;
    let x := s.site e;
        Canon s ∧ Settled s ∧ isCxl x = true ∧ x.state = .admitted ∧ x.flushing = false ∧ x.owner.isSome = true ∧ Calm 16 s :=
    ⟨canon_of (by decide +kernel), ⟨rfl, rfl⟩, join4 (by decide +kernel) (calm_of (by decide +kernel))⟩

end Sys2Proof.Tests
end

