-- ==== Sys2Proof/Tests/Witness6.lean ====
section
/-! SUPPORT. Witnesses for the statements on step links and collective units. -/
namespace Sys2Proof.Tests
open Sys2Proof Sys2Proof.Machine Sys2Proof.Safety
set_option linter.unusedVariables false
set_option Elab.async false


/-- A hub with one port, whose link faults are only logged. -/
def linked (q : Port) : State :=
  ((({ up with ports := [(7, q)] } : State)).setGrp 14 { up.grp 14 with action := .log }).setGrp 8 { up.grp 8 with action := .log }
/-- Port 7 needs all four lanes. -/
def wideOnly (s : State) : State := { s with regs := Tab.set 0 s.regs 0xE01F8 4 }
def trained (k : BitVec 4) : Training := { lanes := k, polarity := 0, laneMap := 0xE4, peerId := 7, peerPort := 3, latency := 80 }
theorem crc32Byte_lt {r b : Nat} (h : r < 2 ^ 32) (hb : b < 2 ^ 32) : crc32Byte r b < 2 ^ 32 := by
  unfold crc32Byte
  have key : ∀ (l : List Nat) (x : Nat), x < 2 ^ 32 →
      l.foldl (fun r _ => if r % 2 = 1 then (r / 2) ^^^ 0xEDB88320 else r / 2) x < 2 ^ 32 := by
    intro l
    induction l with
    | nil => intro x hx; exact hx
    | cons a l ih =>
      intro x hx
      refine ih _ ?_
      dsimp only
      split
      · exact Nat.xor_lt_two_pow (by omega) (by omega)
      · omega
  exact key _ _ (Nat.xor_lt_two_pow h hb)
theorem crc32_lt (bs : List Byte) : crc32 bs < 2 ^ 32 := by
  unfold crc32
  refine Nat.xor_lt_two_pow ?_ (by omega)
  have key : ∀ (l : List Byte) (x : Nat), x < 2 ^ 32 → l.foldl (fun r b => crc32Byte r b.toNat) x < 2 ^ 32 := by
    intro l
    induction l with
    | nil => intro x hx; exact hx
    | cons a l ih => intro x hx; exact ih _ (crc32Byte_lt hx (by have := a.isLt; omega))
  exact key _ _ (by omega)
def hdrOf (c : Nat) : BitVec 256 := BitVec.ofNat 256 (1 + c * 2 ^ 192)
theorem hdrOf_fields {c : Nat} (h : c < 2 ^ 32) : slotCrc (hdrOf c) = c ∧ slotValid (hdrOf c) = true ∧ slotPart (hdrOf c) = 0 ∧
    slotUnit (hdrOf c) = 0 ∧ slotNo (hdrOf c) = 0 ∧ (hdrOf c).toNat % 2 ^ 192 = 1 := by
  have e : (hdrOf c).toNat = 1 + c * 2 ^ 192 := by
    simp only [hdrOf, BitVec.toNat_ofNat]
    omega
  simp only [slotCrc, slotValid, slotPart, slotUnit, slotNo, rbit, rfld, bits, e, Nat.shiftRight_eq_div_pow, beq_iff_eq]
  refine ⟨?_, ?_, ?_, ?_, ?_, ?_⟩ <;> omega
def sum0 : Nat := slotSum 1 []
theorem slotSum_hdr {c : Nat} (h : c < 2 ^ 32) : slotSum (hdrOf c) [] = sum0 := by
  unfold sum0 slotSum
  rw [(hdrOf_fields h).2.2.2.2.2]
  rfl
theorem sum0_lt : sum0 < 2 ^ 32 := crc32_lt _
/-- A slot of partition 0, unit 0 and number 0, with its CRC or another. -/
def slot0 : Slot := { hdr := hdrOf sum0, payload := [] }
def slotBad : Slot := { hdr := hdrOf ((sum0 + 1) % 2 ^ 32), payload := [] }
theorem slot0_ok : slotOk slot0 = true := by
  simp only [slotOk, slot0, slotSum_hdr sum0_lt, (hdrOf_fields sum0_lt).1, beq_self_eq_true]
theorem slotBad_bad : slotOk slotBad = false := by
  have h : (sum0 + 1) % 2 ^ 32 < 2 ^ 32 := Nat.mod_lt _ (by omega)
  simp only [slotOk, slotBad, slotSum_hdr h, (hdrOf_fields h).1, beq_eq_false_iff_ne, ne_eq]
  have := sum0_lt
  omega
def owner0 : Rec := { sec := 6, part := 0, glob := false, subject := 0, pos := 0, body := leBytes 64 (3 + 0xFF * 2 ^ 256 + 0x20 * 2 ^ 288) }
/-- An image whose partition 0 has one collective descriptor that owns slot 0 of every port. -/
def owning : State :=
  { linked { state := .up } with img := { run := { recs := [owner0] } } }
theorem owned (c : Nat) (h : c < 2 ^ 32) : (ownedSlots owning (slotPart (hdrOf c)) 7).contains (slotNo (hdrOf c)) = true := by
  rw [(hdrOf_fields h).2.2.1, (hdrOf_fields h).2.2.2.2.1]
  decide +kernel
theorem unowned (c : Nat) (h : c < 2 ^ 32) :
    (ownedSlots (linked { state := .up }) (slotPart (hdrOf c)) 7).contains (slotNo (hdrOf c)) = false := by
  rw [(hdrOf_fields h).2.2.1, (hdrOf_fields h).2.2.2.2.1]
  decide +kernel
def frame (bs : List Byte) : BitVec 128 := mkBlock bs
/-- A hub whose unit 7 has an operation at hand. -/
def colled (run : CRun) (o : COp) : State :=
  (({ linked { state := .up } with cols := [(7, { run := run, cur := some o })] } : State)).setGrp 13 { up.grp 13 with action := .log }
def op0 : COp := { desc := BitVec.ofNat 512 (2 ^ 96) }

theorem witness_LinkTraining_0 :
    let p : Fin 8 := 7;
    let s : State := linked { state := .training };
    let q := s.port p.val;
    let tr0 : Training := trained 0xF;
        Canon s ∧ minLanes s p.val ≤ popcount 4 (unlisted s p.val tr0).lanes.toNat ∧ q.state = .training :=
    ⟨canon_of (by decide +kernel), by decide +kernel⟩

theorem witness_LinkTraining_1 :
    let p : Fin 8 := 7;
    let s : State := linked { state := .retrain, peerId := 7, lanes := 0xF };
    let q := s.port p.val;
    let tr0 : Training := trained 0x3;
    let tr := unlisted s p.val tr0;
        Canon s ∧ minLanes s p.val ≤ popcount 4 (unlisted s p.val tr0).lanes.toNat ∧ q.state = .retrain ∧ PortEmpty q ∧ tr.peerId = q.peerId
      ∧ Calm 14 s :=
    ⟨canon_of (by decide +kernel), by decide +kernel, by decide +kernel, ⟨by decide +kernel, by decide +kernel⟩, by decide +kernel, calm_of (by
    decide +kernel)⟩

theorem witness_LinkTraining_2 :
    let p : Fin 8 := 7;
    let s : State := wideOnly (linked { state := .training });
    let q := s.port p.val;
    let tr0 : Training := trained 1;
    let tr := unlisted s p.val tr0;
        Canon s ∧ NoOps s ∧ Calm 14 s ∧ q.state = .training ∧ popcount 4 tr.lanes.toNat < minLanes s p.val :=
    ⟨canon_of (by decide +kernel), (by intro c; rfl), calm_of (by decide +kernel), by decide +kernel⟩

theorem witness_LinkTraining_3 :
    let p : Fin 8 := 7;
    let s : State := linked { state := .retrain, peerId := 8 };
    let q := s.port p.val;
    let tr0 : Training := trained 1;
    let tr := unlisted s p.val tr0;
        Canon s ∧ NoOps s ∧ Calm 14 s ∧ q.state = .retrain ∧ tr.peerId ≠ q.peerId :=
    ⟨canon_of (by decide +kernel), (by intro c; rfl), calm_of (by decide +kernel), by decide +kernel⟩

theorem witness_LinkTraining_4 :
    let p : Fin 8 := 7;
    let s : State := wideOnly (linked { state := .retrain, peerId := 7 });
    let q := s.port p.val;
    let tr0 : Training := trained 1;
    let tr := unlisted s p.val tr0;
        Canon s ∧ NoOps s ∧ Calm 14 s ∧ q.state = .retrain ∧ tr.peerId = q.peerId ∧ popcount 4 tr.lanes.toNat < minLanes s p.val :=
    ⟨canon_of (by decide +kernel), (by intro c; rfl), calm_of (by decide +kernel), by decide +kernel⟩

theorem witness_LinkTraining_5 :
    let p : Fin 8 := 7;
    let s : State := linked { state := .training };
    let q := s.port p.val;
        Canon s ∧ NoOps s ∧ Calm 14 s ∧ q.state = .training :=
    ⟨canon_of (by decide +kernel), (by intro c; rfl), calm_of (by decide +kernel), by decide +kernel⟩

theorem witness_LinkTraining_6 :
    let p : Fin 8 := 7;
    let s : State := linked { state := .retrain };
    let q := s.port p.val;
        Canon s ∧ NoOps s ∧ Calm 14 s ∧ q.state = .retrain :=
    ⟨canon_of (by decide +kernel), (by intro c; rfl), calm_of (by decide +kernel), by decide +kernel⟩

theorem witness_LinkTraining_7 :
    let p : Fin 8 := 7;
    let s : State := linked { state := .up };
    let q := s.port p.val;
        Canon s ∧ q.state = .up :=
    ⟨canon_of (by decide +kernel), by decide +kernel⟩

theorem witness_LinkTraining_8 :
    let p : Fin 8 := 7;
    let s : State := linked { state := .retrain };
    let q := s.port p.val;
        Canon s ∧ q.state ≠ .up :=
    ⟨canon_of (by decide +kernel), by decide +kernel⟩

theorem witness_LinkTraining_9 :
    let p : Fin 8 := 7;
    let s : State := linked { state := .fenced };
    let q := s.port p.val;
        Canon s ∧ q.state = .fenced :=
    ⟨canon_of (by decide +kernel), by decide +kernel⟩

theorem witness_LinkTraining_10 :
    let p : Fin 8 := 7;
    let s : State := linked { state := .up };
    let q := s.port p.val;
        Canon s ∧ q.state ≠ .fenced ∧ Calm 14 s :=
    ⟨canon_of (by decide +kernel), by decide +kernel, calm_of (by decide +kernel)⟩

theorem witness_LinkTraining_11 :
    let p : Fin 8 := 7;
    let s : State := linked { state := .up };
    let east := true;
        Canon s ∧ p.val / 4 = (if east then 1 else 0) ∧ NoOps s ∧ Logs 8 s ∧ Logs 14 s :=
    ⟨canon_of (by decide +kernel), by decide +kernel, (by intro c; rfl), by decide +kernel⟩

theorem witness_LinkTraffic_0 :
    let p : Fin 8 := 7;
    let s : State := owning;
    let sl : Slot := slot0;
        Canon s ∧ (s.port p.val).state = .up ∧ (s.grp 14).inject = 0 ∧ slotOk sl = true ∧ slotValid sl.hdr = true ∧ (ownedSlots s (slotPart
      sl.hdr) p.val).contains (slotNo sl.hdr) = true ∧ (s.cunit (slotUnit sl.hdr)).cur = none :=
    ⟨canon_of (by decide +kernel), by decide +kernel, by decide +kernel, slot0_ok, (hdrOf_fields sum0_lt).2.1, owned _ sum0_lt, rfl⟩

theorem witness_LinkTraffic_1 :
    let p : Fin 8 := 7;
    let s : State := linked { state := .up };
    let sl : Slot := slot0;
        Canon s ∧ (s.port p.val).state = .up ∧ (s.grp 14).inject = 0 ∧ slotOk sl = true ∧ slotValid sl.hdr = true ∧ (ownedSlots s (slotPart
      sl.hdr) p.val).contains (slotNo sl.hdr) = false ∧ Calm 14 s :=
    ⟨canon_of (by decide +kernel), by decide +kernel, by decide +kernel, slot0_ok, (hdrOf_fields sum0_lt).2.1, unowned _ sum0_lt, calm_of (by
    decide +kernel)⟩

theorem witness_LinkTraffic_2 :
    let p : Fin 8 := 7;
    let s : State := linked { state := .up };
    let sl : Slot := slotBad;
        Canon s ∧ (s.port p.val).state = .up ∧ (s.grp 14).inject = 0 ∧ slotOk sl = false :=
    ⟨canon_of (by decide +kernel), by decide +kernel, by decide +kernel, slotBad_bad⟩

theorem witness_LinkTraffic_3 :
    let p : Fin 8 := 7;
    let s : State := linked { state := .up };
    let q := s.port p.val;
        Canon s ∧ (s.port p.val).state = .up ∧ (s.grp 14).inject = 0 ∧ q.uncWin = [] ∧ Calm 14 s :=
    ⟨canon_of (by decide +kernel), join3 (by decide +kernel) (calm_of (by decide +kernel))⟩

theorem witness_LinkTraffic_4 :
    let p : Fin 8 := 7;
    let s : State := linked { state := .up, replay := [{ hdr := 1, payload := [] }] };
    let q := s.port p.val;
    let blk : BitVec 128 := frame [0x10#8];
    let sl := ({ hdr := 1, payload := [] } : Slot);
        Canon s ∧ (s.port p.val).state = .up ∧ blockOk blk = true ∧ rfld blk 0 0 8 = 0x10 ∧ PortEmpty q ∧ (q.replay.find? (fun sl => slotNo
      sl.hdr == rfld blk 1 0 5 && slotFrame sl.hdr == rfld blk 2 0 16) = some sl) :=
    ⟨canon_of (by decide +kernel), join3 (by decide +kernel) ⟨⟨by decide +kernel, by decide +kernel⟩, by decide +kernel⟩⟩

theorem witness_LinkTraffic_5 :
    let p : Fin 8 := 7;
    let s : State := linked { state := .up };
    let q := s.port p.val;
    let blk : BitVec 128 := frame [0x10#8];
        Canon s ∧ (s.port p.val).state = .up ∧ blockOk blk = true ∧ rfld blk 0 0 8 = 0x10 ∧ Calm 14 s ∧ (q.replay.find? (fun sl => slotNo
      sl.hdr == rfld blk 1 0 5 && slotFrame sl.hdr == rfld blk 2 0 16) = none) :=
    ⟨canon_of (by decide +kernel), join3 (by decide +kernel) ⟨calm_of (by decide +kernel), by decide +kernel⟩⟩

theorem witness_LinkTraffic_6 :
    let p : Fin 8 := 7;
    let s : State := colled .wait op0;
    let blk : BitVec 128 := frame [0x11#8, 0, 7];
    let o := op0;
        Canon s ∧ (s.port p.val).state = .up ∧ blockOk blk = true ∧ rfld blk 0 0 8 = 0x11 ∧ (s.cunit (rfld blk 2 0 3)).cur = some o ∧
      o.aborted = false ∧ o.part = rfld blk 1 0 6 ∧ o.step.toNat % 2 ^ 32 = rfld blk 4 0 32 :=
    ⟨canon_of (by decide +kernel), by decide +kernel⟩

theorem witness_LinkTraffic_7 :
    let p : Fin 8 := 7;
    let s : State := linked { state := .up };
    let q := s.port p.val;
    let blk : BitVec 128 := frame [0x12#8, 0, 64];
        Canon s ∧ (s.port p.val).state = .up ∧ blockOk blk = true ∧ rfld blk 0 0 8 = 0x12 ∧ 0 < rfld blk 2 0 8 ∧ rfld blk 2 0 8 ≤ 64 ∧
      PortEmpty q :=
    ⟨canon_of (by decide +kernel), join4 (by decide +kernel) ⟨by decide +kernel, ⟨by decide +kernel, by decide +kernel⟩⟩⟩

theorem witness_LinkTraffic_8 :
    let p : Fin 8 := 7;
    let s : State := linked { state := .up };
    let blk : BitVec 128 := frame [0x13#8, 0xF];
        Canon s ∧ (s.port p.val).state = .up ∧ blockOk blk = true ∧ rfld blk 0 0 8 = 0x13 :=
    ⟨canon_of (by decide +kernel), by decide +kernel⟩

theorem witness_LinkTraffic_9 :
    let p : Fin 8 := 7;
    let s : State := linked { state := .up };
    let blk : BitVec 128 := (0x10#128);
        Canon s ∧ (s.port p.val).state = .up ∧ blockOk blk = false ∧ Calm 14 s :=
    ⟨canon_of (by decide +kernel), by decide +kernel, by decide +kernel, calm_of (by decide +kernel)⟩

theorem witness_CollectiveUnits_0 :
    let c : Fin 8 := 7;
    let s : State := colled .wait op0;
    let u := s.cunit c.val;
    let o := op0;
        Canon s ∧ u.cur = some o ∧ u.run = .wait ∧ collWaitMet s o.desc = true ∧ cCount o.desc ≠ 0 :=
    ⟨canon_of (by decide +kernel), by decide +kernel⟩

theorem witness_CollectiveUnits_1 :
    let c : Fin 8 := 7;
    let s : State := colled .wait { desc := 0 };
    let u := s.cunit c.val;
    let o := ({ desc := 0 } : COp);
        Canon s ∧ u.cur = some o ∧ u.run = .wait ∧ collWaitMet s o.desc = true ∧ cCount o.desc = 0 ∧ o.failed = [] ∧ u.queue = [] ∧
      u.fencePend = false :=
    ⟨canon_of (by decide +kernel), by decide +kernel⟩

theorem witness_CollectiveUnits_2 :
    let c : Fin 8 := 7;
    let s : State := colled .ending { op0 with aborted := true };
    let u := s.cunit c.val;
    let o := { op0 with aborted := true };
        Canon s ∧ u.cur = some o ∧ u.run = .ending ∧ o.writes = [] ∧ Logs 13 s ∧ cCompValid o.desc = false ∧ u.queue = [] ∧ u.fencePend =
      false :=
    ⟨canon_of (by decide +kernel), by decide +kernel⟩

theorem witness_CollectiveUnits_3 :
    let c : Fin 8 := 7;
    let s : State := colled .ending { desc := BitVec.ofNat 512 (2 ^ 383) };
    let u := s.cunit c.val;
    let o := ({ desc := BitVec.ofNat 512 (2 ^ 383) } : COp);
        Canon s ∧ u.cur = some o ∧ u.run = .ending ∧ o.writes = [] ∧ Logs 13 s ∧ cCompValid o.desc = true :=
    ⟨canon_of (by decide +kernel), by decide +kernel⟩

theorem witness_CollectiveUnits_4 :
    let c : Fin 8 := 7;
    let s : State := colled .wait op0;
    let u := s.cunit c.val;
    let o := op0;
        Canon s ∧ u.cur = some o ∧ o.aborted = false :=
    ⟨canon_of (by decide +kernel), by decide +kernel⟩

theorem witness_CollectiveUnits_5 :
    let c : Fin 8 := 7;
    let s : State := colled .wait op0;
    let u := s.cunit c.val;
        Canon s ∧ u.run ≠ .fenced :=
    ⟨canon_of (by decide +kernel), by decide +kernel⟩

theorem witness_CollectiveUnits_6 :
    let c : Fin 8 := 7;
    let s : State := colled .fenced op0;
    let u := s.cunit c.val;
        Canon s ∧ u.run = .fenced :=
    ⟨canon_of (by decide +kernel), by decide +kernel⟩

theorem witness_CollectiveUnits_7 :
    let c : Fin 8 := 7;
    let s : State := colled .wait op0;
    let u := s.cunit c.val;
        Canon s ∧ u.run ≠ .fenced ∧ Calm 13 s :=
    ⟨canon_of (by decide +kernel), by decide +kernel, calm_of (by decide +kernel)⟩

end Sys2Proof.Tests
end

