-- ==== Sys2Proof/Tests/Witness7.lean ====
section
/-! SUPPORT. Witnesses for the statements on the host, virtual interfaces, security and the life cycle. -/
namespace Sys2Proof.Tests
open Sys2Proof Sys2Proof.Machine Sys2Proof.Safety
set_option linter.unusedVariables false
set_option Elab.async false


/-- A host window entry: 2 MiB at DVA 2^47 of VI 1, all rights, at IOVA 0x40000000. -/
def window : BitVec 256 := BitVec.ofNat 256 (2 ^ 47 + 2 ^ 48 + 2 ^ 60 + 2 ^ 61 + 2 ^ 63 + 0x40000000 * 2 ^ 64 + 2 ^ 128)
def openCmd : Cmd := { opcode := 1, cmdId := 0, step := 0, tag := 0 }
/-- A hub with one virtual interface of partition 0, whose state is given. Faults of the groups at hand are only logged. -/
def ruled (st : PState) (x : Vi) : State :=
  (((({ up with
    parts := [(0, { state := st, cfg := { enable := true, viFirst := 1, viCount := 4, xfes := 0x8000000000000001 } })], vis := [(1, x)],
    host := { dmaStopped := false, bme := true }, xlt := { hwt := [(0, window)] } } : State)).setGrp 1 { up.grp 1 with action := .log }).setGrp 2
    { up.grp 2 with action := .log }).setGrp 4 { up.grp 4 with action := .log }
/-- A virtual interface with rings of 16 entries at the start of the window. -/
def ringVi : Vi :=
  { state := .attached, features := 1, cmdBase := 0x800000000000, cmdSize := 16, depth := 4, cplBase := 0x800000001000, cplSize := 16 }
/-- A hub whose virtual interface has read one record. -/
def holding (r : BitVec 512) : State := ruled .running { ringVi with read := [r] }
def holdingOpen (r : BitVec 512) : State := ruled .running { ringVi with read := [r], cmds := [openCmd], nextTag := 1 }
theorem entryOpen_of {v p a : Nat} {s : State} (e : Nat) (i : Nat) (h : BitVec 256) (iova : Nat)
    (h1 : (cplFree (s.vi v) != 0 && !(s.vi v).resume && (s.xfe e).run != .fenced && (hostWriteNow e ((s.xfe e).owner.getD 0) false 32 s).isSome &&
      hwtPerm h true) = true) (h2 : ringEngine s p = some e)
    (h3 : hwtFind s v ((s.vi v).cplBase.toNat + (s.vi v).cplTail * 32) = some (i, h, iova)) (h4 : hostSpot s e v iova true = .go a) :
    EntryOpen v p a s := by
  simp only [Bool.and_eq_true, bne_iff_ne, ne_eq, Bool.not_eq_true'] at h1
  exact ⟨h1.1.1.1.1, h1.1.1.1.2, e, h2, h1.1.1.2, h1.1.2, i, h, iova, h3, h1.2, h4⟩
theorem deliverable_of {op v p a : Nat} {r : BitVec 512} {rest : List (BitVec 512)} {s : State}
    (h : (s.partOfVi v == some p && (s.vi v).read == r :: rest && cmdOpcode r == op && !cmdSealed r && !s.sealOpen v && recordOk r &&
      canDeliver s p v) = true) (e : EntryOpen v p a s) (k : ∀ c ∈ (s.vi v).cmds, c.tag ≠ (s.vi v).nextTag) : Deliverable op v p a r rest s := by
  simp only [Bool.and_eq_true, beq_iff_eq, Bool.not_eq_true'] at h
  exact ⟨h.1.1.1.1.1.1, h.1.1.1.1.1.2, h.1.1.1.1.2, h.1.1.1.2, h.1.1.2, h.1.2, h.2, e, k⟩
theorem allHost {l : List (Nat × Nat × XSpot)} (h : l.all (fun q => match q.2.2 with | .host _ _ _ => true | _ => false) = true) :
    ∀ q ∈ l, ∃ h iova a, q.2.2 = .host h iova a := by
  intro q hq
  have k := List.all_eq_true.1 h q hq
  split at k
  · rename_i h iova a e
    exact ⟨h, iova, a, e⟩
  · cases k
theorem ringsIdle_of {s : State} (h : s.vis.all (fun e => !e.2.fetchWait) = true) : RingsIdle s := by
  intro v
  show (Tab.get {} s.vis v).fetchWait = false
  generalize s.vis = t at h
  induction t with
  | nil => rfl
  | cons e t ih =>
    obtain ⟨k, x⟩ := e
    simp only [List.all_cons, Bool.and_eq_true, Bool.not_eq_true'] at h
    simp only [Tab.get]
    split
    · exact h.1
    · split
      · rfl
      · exact ih (by simpa using h.2)

def slotPart0 : Part :=
  { state := .running, cfg := { enable := true, viFirst := 1, viCount := 4, xfes := 1 },
    prog := { steps := [BitVec.ofNat 512 (2400 + 2 ^ (0x14 * 8 + 16))] } }
/-- A partition with host tags, whose virtual interface may read its ring. -/
def reader : State := { ruled .running ringVi with noc := { qparts := [(0, { tagsMin := 8 })] } }
def planOf (s : State) (v : Nat) : List (Nat × Nat × XSpot) :=
  match xPlan s 63 v false ((List.range (readCount (s.vi v))).map (fun i => (((s.vi v).cmdBase.toNat + (s.vi v).cmdHead * 64) % 2 ^ 48 + i * 64, 64))) with
  | .go ps => ps
  | _ => []
/-- A read of one record that is open, alone or with another. -/
def ringRq : Req :=
  { tag := 3, who := .xfe 63, write := false, host := true, addr := 0x40000000, len := 64, ctx := 1, part := 0, sched := false, use := .ring 1,
    gone := true }
def readingOf (tags : List Nat) : State :=
  { ruled .running { ringVi with reading := some { head := 0, reqs := tags.map (fun k => (k, none)) } } with noc := { reqs := [ringRq] } }
theorem noAim {l : List Nat} {s : State} (h : s.noc.reqs.all (fun r =>
    !l.contains r.tag || ((s.qport (portOf r.who) r.part).target == 0 && (s.qport (portOf r.who) r.part).rsvBound == 0)) = true) :
    ∀ r ∈ s.noc.reqs, r.tag ∈ l → NoTargets r s := by
  intro r hr hl
  have k := List.all_eq_true.1 h r hr
  simp only [Bool.or_eq_true, Bool.not_eq_true', List.contains_eq_mem, decide_eq_false_iff_not, Bool.and_eq_true, beq_iff_eq] at k
  exact k.resolve_left (fun c => c hl)
def poolRec : Rec :=
  { sec := 6, part := 0, glob := false, subject := 0, pos := 0,
    body := leBytes 64 (1 + 2 ^ 96 + 2 ^ 112 + 2 ^ 176 + 2 ^ 240 + 2 ^ 256 + 2 ^ 272) }
/-- A hub whose partition has one pool entry. -/
def pooled : State := { holding 2 with img := { run := { recs := [poolRec] } } }
def descOf (s : State) (r : BitVec 512) : XDesc :=
  (commandDesc s 0 1 (s.vi 1).nextTag r).getD { src := .pool 0 0 0, base := 0, ext := 0 }
/-- A hub whose host has read requests of engine 0 open. -/
def hostRq : Req :=
  { tag := 3, who := .xfe 0, write := false, host := true, addr := 0x40000000, len := 64, ctx := 1, part := 0, sched := true, use := .xread 0 0,
    gone := true }
def hosted (h : HostEp) : State := (({ up with host := h, noc := { reqs := [hostRq] } } : State)).setGrp 1 { up.grp 1 with action := .log }

def fuse : State := (({ up with lcs := { up.lcs with pcw := 0 } } : State)).setGrp 3 { up.grp 3 with action := .log }
def fuseMb : State := { (({ upArgs [(0, 2), (3, 52)] with host := { dmaStopped := false } } : State)).setGrp 3 { up.grp 3 with action := .log } with
  mgt := { stage := .complete, args := [(0, 2), (3, 52)] } }
/-- A debug-key hash of zeros with its CRC-32. -/
def hashBytes : List Byte := List.replicate 48 0 ++ [0x95, 0xB3, 0x88, 0xF2]

theorem witness_ViAttachment_0 :
    let v : Fin 1024 := 1;
    let s : State := ruled .running { depth := 2 };
    let x := s.vi v.val;
    let val : Word := 0x00010000;
        Canon s ∧ attachStatus s v.val val = .ok ∧ x.state = .detached :=
    ⟨canon_of (by decide +kernel), by decide +kernel⟩

theorem witness_ViAttachment_1 :
    let v : Fin 1024 := 1;
    let s : State := ruled .running { state := .quiesced };
    let x := s.vi v.val;
    let val : Word := 0x00010000;
        Canon s ∧ attachStatus s v.val val = .ok ∧ x.state = .quiesced ∧ viRuns v.val s = true :=
    ⟨canon_of (by decide +kernel), by decide +kernel⟩

theorem witness_ViAttachment_2 :
    let v : Fin 1024 := 1;
    let s : State := ruled .held { state := .quiesced };
    let x := s.vi v.val;
    let val : Word := 0x00010000;
        Canon s ∧ attachStatus s v.val val = .ok ∧ x.state = .quiesced ∧ viRuns v.val s = false ∧ x.held = [] :=
    ⟨canon_of (by decide +kernel), by decide +kernel⟩

theorem witness_ViAttachment_3 :
    let v : Fin 1024 := 1;
    let s : State := ruled .running { depth := 2 };
    let val : Word := 0;
        Canon s ∧ attachStatus s v.val val ≠ .ok ∧ Calm 2 s :=
    ⟨canon_of (by decide +kernel), by decide +kernel, calm_of (by decide +kernel)⟩

theorem witness_ViAttachment_4 :
    let v : Fin 1024 := 1;
    let s : State := ruled .running { state := .quiesced };
    let x := s.vi v.val;
        Canon s ∧ x.state = .quiesced :=
    ⟨canon_of (by decide +kernel), by decide +kernel⟩

theorem witness_ViAttachment_5 :
    let v : Fin 1024 := 1;
    let s : State := ruled .running ringVi;
    let x := s.vi v.val;
        Canon s ∧ x.state = .attached :=
    ⟨canon_of (by decide +kernel), by decide +kernel⟩

theorem witness_ViAttachment_6 :
    let v : Fin 1024 := 1;
    let s : State := ruled .running { ringVi with renewed := 1 };
    let x := s.vi v.val;
        Canon s ∧ x.state = .attached ∧ x.warned = false ∧ x.renewed ≠ s.clk.now :=
    ⟨canon_of (by decide +kernel), by decide +kernel⟩

theorem witness_ViAttachment_7 :
    let v : Fin 1024 := 1;
    let s : State := ruled .running { ringVi with renewed := 1 };
    let x := s.vi v.val;
        Canon s ∧ x.state = .attached ∧ x.renewed ≠ s.clk.now ∧ Calm 2 s :=
    ⟨canon_of (by decide +kernel), by decide +kernel, by decide +kernel, calm_of (by decide +kernel)⟩

theorem witness_ViAttachment_8 :
    let v : Fin 1024 := 1;
    let s : State := ruled .running ringVi;
    let x := s.vi v.val;
        Canon s ∧ pfSel s = v.val ∧ x.state = .attached :=
    ⟨canon_of (by decide +kernel), by decide +kernel⟩

theorem witness_RingReadsAndCommands_0 :
    let v : Fin 1024 := 1;
    let p : Nat := 0;
    let s : State := { ruled .running { state := .attached } with parts := [(0, slotPart0)] };
    let x := s.vi v.val;
        Canon s ∧ s.partOfVi v.val = some p ∧ x.state = .attached ∧ s.host.dmaStopped = false ∧ slotDue s p v.val = true ∧ x.read = [] ∧
      x.held = [] ∧ readCount x = 0 :=
    ⟨canon_of (by decide +kernel), by decide +kernel⟩

theorem witness_RingReadsAndCommands_1 :
    let v : Fin 1024 := 1;
    let p : Nat := 0;
    let s : State := reader;
    let x := s.vi v.val;
    let e := 63;
    let ps := planOf reader 1;
    let n := readCount x;
        Canon s ∧ s.partOfVi v.val = some p ∧ x.state = .attached ∧ s.host.dmaStopped = false ∧ slotDue s p v.val = false ∧ ringEngine s p =
      some e ∧ (s.xfe e).run ≠ .fenced ∧ x.reading = none ∧ readCount x ≠ 0 ∧ (xPlan s e v.val false ((List.range n).map (fun i =>
      ((x.cmdBase.toNat + x.cmdHead * 64) % 2 ^ 48 + i * 64, 64))) = .go ps) ∧ (∀ q ∈ ps, ∃ h iova a, q.2.2 = .host h iova a) ∧ hostTagsFree
      s p n = true ∧ holdFull s e p n = false ∧ FreshTags s ∧ Calm 9 s ∧ ((s.noc.reqs.filter (fun r => r.host && r.who == .xfe e)).length +
      n ≤ 128) :=
    ⟨canon_of (by decide +kernel), join4 (by decide +kernel) ⟨by decide +kernel, join4 (by decide +kernel) ⟨allHost (by decide +kernel), by
    decide +kernel, by decide +kernel, nobody (by decide +kernel), calm_of (by decide +kernel), by decide +kernel⟩⟩⟩

theorem witness_RingReadsAndCommands_2 :
    let v : Fin 1024 := 1;
    let p : Nat := 0;
    let s : State := readingOf [3, 5];
    let x := s.vi v.val;
    let tags : List Nat := ([3, 5] : List Nat);
        Canon s ∧ s.partOfVi v.val = some p ∧ (x.reading = some { head := x.cmdHead, reqs := tags.map (fun k => (k, none)) }) ∧ tags ≠ [] ∧
      tags.Nodup ∧ EnginesIdle s ∧ RingsIdle s ∧ (∀ r ∈ s.noc.reqs, r.tag ∈ tags → NoTargets r s) ∧ x.state = .attached ∧ (∃ e, ringEngine s
      p = some e ∧ (s.xfe e).run ≠ .fenced) :=
    ⟨canon_of (by decide +kernel), join4 (by decide +kernel) ⟨(by decide +kernel : Tab.keysWhere _ _ = []), ringsIdle_of (by decide +kernel), noAim
    (by decide +kernel), by decide +kernel, ⟨63, by decide +kernel⟩⟩⟩

theorem witness_RingReadsAndCommands_3 :
    let v : Fin 1024 := 1;
    let p : Nat := 0;
    let s : State := readingOf [3];
    let x := s.vi v.val;
    let tags : List Nat := ([3] : List Nat);
    let data : List (BitVec 512) := ([7] : List (BitVec 512));
    let k := 3;
    let w := (7 : BitVec 512);
    let r := ringRq;
        Canon s ∧ s.partOfVi v.val = some p ∧ (x.reading = some { head := x.cmdHead, reqs := tags.map (fun k => (k, none)) }) ∧ tags ≠ [] ∧
      tags.Nodup ∧ EnginesIdle s ∧ RingsIdle s ∧ (∀ r ∈ s.noc.reqs, r.tag ∈ tags → NoTargets r s) ∧ x.state = .attached ∧ (∃ e, ringEngine s
      p = some e ∧ (s.xfe e).run ≠ .fenced) ∧ tags = [k] ∧ data = [w] ∧ (s.noc.reqs.find? (fun r => r.tag == k && r.host && r.gone &&
      !r.write) = some r) ∧ r.dead = false ∧ r.use = .ring v.val :=
    ⟨canon_of (by decide +kernel), join4 (by decide +kernel) ⟨(by decide +kernel : Tab.keysWhere _ _ = []), ringsIdle_of (by decide +kernel), noAim
    (by decide +kernel), by decide +kernel, ⟨63, by decide +kernel⟩, by decide +kernel⟩⟩

theorem witness_RingReadsAndCommands_4 :
    let v : Fin 1024 := 1;
    let p : Nat := 0;
    let s : State := readingOf [3];
    let x := s.vi v.val;
    let tags : List Nat := ([3] : List Nat);
        Canon s ∧ s.partOfVi v.val = some p ∧ (x.reading = some { head := x.cmdHead, reqs := tags.map (fun k => (k, none)) }) ∧ tags ≠ [] ∧
      tags.Nodup ∧ EnginesIdle s ∧ RingsIdle s ∧ (∀ r ∈ s.noc.reqs, r.tag ∈ tags → NoTargets r s) ∧ x.state = .attached ∧ viRuns v.val s =
      true ∧ Calm 2 s :=
    ⟨canon_of (by decide +kernel), join4 (by decide +kernel) ⟨(by decide +kernel : Tab.keysWhere _ _ = []), ringsIdle_of (by decide +kernel), noAim
    (by decide +kernel), by decide +kernel, by decide +kernel, calm_of (by decide +kernel)⟩⟩

theorem witness_RingReadsAndCommands_5 :
    let v : Fin 1024 := 1;
    let p : Nat := 0;
    let a : Nat := 0x40001000;
    let r : BitVec 512 := 1;
    let rest : List (BitVec 512) := [];
    let s : State := holding 1;
        Canon s ∧ Deliverable 1 v.val p a r rest s :=
    ⟨canon_of (by decide +kernel), deliverable_of (by decide +kernel) (entryOpen_of 63 0 window 0x40001000 (by decide +kernel) (by decide +kernel) (by
    decide +kernel) (by decide +kernel)) (by decide +kernel)⟩

theorem witness_RingReadsAndCommands_6 :
    let v : Fin 1024 := 1;
    let p : Nat := 0;
    let a : Nat := 0x40001000;
    let r : BitVec 512 := 3;
    let rest : List (BitVec 512) := [];
    let s : State := holding 3;
    let x := s.vi v.val;
        Canon s ∧ Deliverable 3 v.val p a r rest s ∧ x.cmds = [] :=
    ⟨canon_of (by decide +kernel), deliverable_of (by decide +kernel) (entryOpen_of 63 0 window 0x40001000 (by decide +kernel) (by decide +kernel) (by
    decide +kernel) (by decide +kernel)) (by decide +kernel), by decide +kernel⟩

theorem witness_RingReadsAndCommands_7 :
    let v : Fin 1024 := 1;
    let p : Nat := 0;
    let a : Nat := 0x40001000;
    let r : BitVec 512 := 3;
    let rest : List (BitVec 512) := [];
    let s : State := holdingOpen 3;
    let x := s.vi v.val;
        Canon s ∧ Deliverable 3 v.val p a r rest s ∧ x.cmds ≠ [] :=
    ⟨canon_of (by decide +kernel), deliverable_of (by decide +kernel) (entryOpen_of 63 0 window 0x40001000 (by decide +kernel) (by decide +kernel) (by
    decide +kernel) (by decide +kernel)) (by decide +kernel), by decide +kernel⟩

theorem witness_RingReadsAndCommands_8 :
    let v : Fin 1024 := 1;
    let p : Nat := 0;
    let a : Nat := 0x40001000;
    let r : BitVec 512 := 4;
    let rest : List (BitVec 512) := [];
    let s : State := holding 4;
        Canon s ∧ Deliverable 4 v.val p a r rest s ∧ BitVec.ofNat 64 (rfld r 8 0 64) ≤ (s.part p).step :=
    ⟨canon_of (by decide +kernel), deliverable_of (by decide +kernel) (entryOpen_of 63 0 window 0x40001000 (by decide +kernel) (by decide +kernel) (by
    decide +kernel) (by decide +kernel)) (by decide +kernel), by decide +kernel⟩

theorem witness_RingReadsAndCommands_9 :
    let v : Fin 1024 := 1;
    let p : Nat := 0;
    let a : Nat := 0x40001000;
    let r : BitVec 512 := 4 + 5 * 2 ^ 64;
    let rest : List (BitVec 512) := [];
    let s : State := holding (4 + 5 * 2 ^ 64);
        Canon s ∧ Deliverable 4 v.val p a r rest s ∧ (s.part p).step < BitVec.ofNat 64 (rfld r 8 0 64) :=
    ⟨canon_of (by decide +kernel), deliverable_of (by decide +kernel) (entryOpen_of 63 0 window 0x40001000 (by decide +kernel) (by decide +kernel) (by
    decide +kernel) (by decide +kernel)) (by decide +kernel), by decide +kernel⟩

theorem witness_RingReadsAndCommands_10 :
    let v : Fin 1024 := 1;
    let p : Nat := 0;
    let a : Nat := 0x40001000;
    let r : BitVec 512 := 2;
    let rest : List (BitVec 512) := [];
    let s : State := pooled;
    let x := s.vi v.val;
    let d := descOf pooled 2;
        Canon s ∧ Deliverable 2 v.val p a r rest s ∧ commandDesc s p v.val x.nextTag r = some d ∧ descOk (s.part p).cfg (ringEngine s p)
      false d = true :=
    ⟨canon_of (by decide +kernel), deliverable_of (by decide +kernel) (entryOpen_of 63 0 window 0x40001000 (by decide +kernel) (by decide +kernel) (by
    decide +kernel) (by decide +kernel)) (by decide +kernel), by decide +kernel⟩

theorem witness_RingReadsAndCommands_11 :
    let v : Fin 1024 := 1;
    let p : Nat := 0;
    let a : Nat := 0x40001000;
    let r : BitVec 512 := 2;
    let rest : List (BitVec 512) := [];
    let s : State := holding 2;
    let x := s.vi v.val;
        Canon s ∧ Deliverable 2 v.val p a r rest s ∧ commandDesc s p v.val x.nextTag r = none :=
    ⟨canon_of (by decide +kernel), deliverable_of (by decide +kernel) (entryOpen_of 63 0 window 0x40001000 (by decide +kernel) (by decide +kernel) (by
    decide +kernel) (by decide +kernel)) (by decide +kernel), by decide +kernel⟩

theorem witness_RingReadsAndCommands_12 :
    let v : Fin 1024 := 1;
    let p : Nat := 0;
    let a : Nat := 0x40001000;
    let r : BitVec 512 := 0x201;
    let rest : List (BitVec 512) := [];
    let s : State := holding 0x201;
    let x := s.vi v.val;
        Canon s ∧ s.partOfVi v.val = some p ∧ x.read = r :: rest ∧ cmdOpcode r = 1 ∧ cmdSealed r = true ∧ s.sealOpen v.val = false ∧
      canDeliver s p v.val = true ∧ EntryOpen v.val p a s ∧ (∀ c ∈ x.cmds, c.tag ≠ x.nextTag) ∧ (s.grp 4).inject = 0 :=
    ⟨canon_of (by decide +kernel), join4 (by decide +kernel) ⟨by decide +kernel, by decide +kernel, entryOpen_of 63 0 window 0x40001000 (by
    decide +kernel) (by decide +kernel) (by decide +kernel) (by decide +kernel), by decide +kernel⟩⟩

theorem witness_HostDriverAndReads_0 :
    let s : State := hosted { bme := true };
    let val : Word := 0x00010000;
        Canon s ∧ bits val.toNat 16 16 = 1 ∧ s.mgt.stage = .complete ∧ s.host.bme = true ∧ s.host.d3hot = false ∧ (∀ v, (s.vi v).held = []) :=
    ⟨canon_of (by decide +kernel), join4 (by decide +kernel) ((by intro v; rfl))⟩

theorem witness_HostDriverAndReads_1 :
    let s : State := hosted {};
    let val : Word := 0;
        Canon s ∧ (bits val.toNat 16 16 ≠ 1 ∨ s.mgt.stage ≠ .complete ∨ s.host.bme = false ∨ s.host.d3hot = true) :=
    ⟨canon_of (by decide +kernel), by decide +kernel⟩

theorem witness_HostDriverAndReads_2 :
    let s : State := hosted {};
        Canon s :=
    canon_of (by decide +kernel)

theorem witness_HostDriverAndReads_3 :
    let s : State := hosted { dmaStopped := false, attached := true, drvRenew := 1 };
        Canon s ∧ s.host.dmaStopped = false ∧ Calm 1 s ∧ s.host.attached = true ∧ s.host.drvRenew ≠ s.clk.now :=
    ⟨canon_of (by decide +kernel), by decide +kernel, calm_of (by decide +kernel), by decide +kernel⟩

theorem witness_HostDriverAndReads_4 :
    let s : State := hosted { dmaStopped := false };
        Canon s ∧ s.host.dmaStopped = false ∧ Calm 1 s :=
    ⟨canon_of (by decide +kernel), by decide +kernel, calm_of (by decide +kernel)⟩

theorem witness_HostDriverAndReads_5 :
    let s : State := hosted { dmaStopped := false };
        Canon s ∧ s.host.dmaStopped = false ∧ Calm 1 s ∧ Logs 1 s :=
    ⟨canon_of (by decide +kernel), by decide +kernel, calm_of (by decide +kernel), by decide +kernel⟩

theorem witness_HostDriverAndReads_6 :
    let s : State := hosted {};
        Canon s ∧ s.host.dmaStopped = true :=
    ⟨canon_of (by decide +kernel), by decide +kernel⟩

theorem witness_HostDriverAndReads_7 :
    let s : State := hosted { perst := true };
        Canon s :=
    canon_of (by decide +kernel)

theorem witness_HostDriverAndReads_8 :
    let s : State := hosted {};
        Canon s ∧ s.host.perst = false :=
    ⟨canon_of (by decide +kernel), by decide +kernel⟩

theorem witness_HostDriverAndReads_9 :
    let s : State := hosted {};
        Canon s :=
    canon_of (by decide +kernel)

theorem witness_HostDriverAndReads_10 :
    let tag : Nat := 3;
    let s : State := hosted {};
    let r : Req := hostRq;
    let e := 0;
    let k := 0;
        Canon s ∧ (s.noc.reqs.find? (fun r => r.tag == tag && r.host && r.gone && !r.write) = some r) ∧ NoTargets r s ∧ r.dead = false ∧
      r.use = .xread e k :=
    ⟨canon_of (by decide +kernel), by decide +kernel, noTargets_of (by decide +kernel), by decide +kernel⟩

theorem witness_HostDriverAndReads_11 :
    let tag : Nat := 3;
    let s : State := hosted {};
    let r : Req := hostRq;
    let e := 0;
    let k := 0;
    let poison := false;
        Canon s ∧ (s.noc.reqs.find? (fun r => r.tag == tag && r.host && r.gone && !r.write) = some r) ∧ NoTargets r s ∧ r.dead = false ∧
      r.use = .xread e k ∧ EnginesIdle s ∧ RingsIdle s ∧ (poison = false ∨ Calm 1 s) :=
    ⟨canon_of (by decide +kernel), by decide +kernel, noTargets_of (by decide +kernel), by decide +kernel, by decide +kernel, (by decide +kernel :
    Tab.keysWhere _ _ = []), ringsIdle_of (by decide +kernel), Or.inl rfl⟩

theorem witness_HostDriverAndReads_12 :
    let tag : Nat := 3;
    let s : State := hosted {};
    let r : Req := hostRq;
    let e := 0;
    let k := 0;
        Canon s ∧ (s.noc.reqs.find? (fun r => r.tag == tag && r.host && r.gone && !r.write) = some r) ∧ NoTargets r s ∧ r.dead = false ∧
      r.use = .xread e k ∧ EnginesIdle s ∧ RingsIdle s ∧ Calm 1 s :=
    ⟨canon_of (by decide +kernel), by decide +kernel, noTargets_of (by decide +kernel), by decide +kernel, by decide +kernel, (by decide +kernel :
    Tab.keysWhere _ _ = []), ringsIdle_of (by decide +kernel), calm_of (by decide +kernel)⟩

theorem witness_HostDriverAndReads_13 :
    let tag : Nat := 3;
    let s : State := { hosted {} with noc := { reqs := [{ hostRq with dead := true }] } };
    let r : Req := { hostRq with dead := true };
        Canon s ∧ (s.noc.reqs.find? (fun r => r.tag == tag && r.host && r.gone && !r.write) = some r) ∧ NoTargets r s ∧ r.dead = true ∧
      EnginesIdle s ∧ RingsIdle s :=
    ⟨canon_of (by decide +kernel), by decide +kernel, noTargets_of (by decide +kernel), by decide +kernel, (by decide +kernel : Tab.keysWhere _ _ =
    []), ringsIdle_of (by decide +kernel)⟩

theorem witness_SpdmAndSeals_0 :
    let s : State := up;
        spdmUp s = true :=
    by decide +kernel

theorem witness_SpdmAndSeals_1 :
    let tr : Fin 3 := 2;
    let s : State := { up with sec := { spdm := [(2, { version := true })], meas := [(1, [7])] } };
    let x := s.spdm tr.val;
        spdmUp s = true ∧ x.version = true :=
    ⟨by decide +kernel, by decide +kernel⟩

theorem witness_SpdmAndSeals_2 :
    let tr : Fin 3 := 2;
    let s : State := up;
    let x := s.spdm tr.val;
        spdmUp s = true ∧ x.version = false :=
    ⟨by decide +kernel, by decide +kernel⟩

theorem witness_SpdmAndSeals_3 :
    let tr : Fin 3 := 2;
    let s : State := { up with sec := { spdm := [(2, { caps := true })], meas := [(1, [7])] } };
    let x := s.spdm tr.val;
        spdmUp s = true ∧ x.caps = true :=
    ⟨by decide +kernel, by decide +kernel⟩

theorem witness_SpdmAndSeals_4 :
    let tr : Fin 3 := 2;
    let s : State := up;
    let x := s.spdm tr.val;
        spdmUp s = true ∧ x.caps = false :=
    ⟨by decide +kernel, by decide +kernel⟩

theorem witness_SpdmAndSeals_5 :
    let tr : Fin 3 := 2;
    let s : State := { up with sec := { spdm := [(2, { algs := true })], meas := [(1, [7])] } };
    let x := s.spdm tr.val;
        spdmUp s = true ∧ x.algs = true :=
    ⟨by decide +kernel, by decide +kernel⟩

theorem witness_SpdmAndSeals_6 :
    let tr : Fin 3 := 2;
    let req : List Byte := [0x11, 0xE0, 0, 0];
    let s : State := { up with sec := { spdm := [(2, { algs := true })], meas := [(1, [7])] } };
    let x := s.spdm tr.val;
        spdmUp s = true ∧ x.algs = true ∧ spdmParam req 1 % 16 = 0 :=
    ⟨by decide +kernel, by decide +kernel⟩

theorem witness_SpdmAndSeals_7 :
    let tr : Fin 3 := 2;
    let req : List Byte := [0x11, 0xE0, 1, 0];
    let s : State := { up with sec := { spdm := [(2, { algs := true })], meas := [(1, [7])] } };
    let x := s.spdm tr.val;
        spdmUp s = true ∧ x.algs = true ∧ spdmParam req 1 % 16 ≠ 0 :=
    ⟨by decide +kernel, by decide +kernel⟩

theorem witness_SpdmAndSeals_8 :
    let tr : Fin 3 := 2;
    let req : List Byte := [0x11, 0xE0, 0, 0];
    let s : State := { up with sec := { spdm := [(2, { algs := true })], meas := [(1, [7])] } };
    let x := s.spdm tr.val;
        spdmUp s = true ∧ x.algs = true ∧ spdmParam req 2 = 0 ∧ spdmParam req 1 % 2 = 0 :=
    ⟨by decide +kernel, by decide +kernel⟩

theorem witness_SpdmAndSeals_9 :
    let tr : Fin 3 := 2;
    let req : List Byte := [0x11, 0xE0, 1, 255];
    let s : State := { up with sec := { spdm := [(2, { algs := true })], meas := [(1, [7])] } };
    let x := s.spdm tr.val;
        spdmUp s = true ∧ x.algs = true ∧ spdmParam req 2 = 255 ∧ spdmParam req 1 % 2 = 1 :=
    ⟨by decide +kernel, by decide +kernel⟩

theorem witness_SpdmAndSeals_10 :
    let tr : Fin 3 := 2;
    let req : List Byte := [0x11, 0xE0, 1, 1];
    let s : State := { up with sec := { spdm := [(2, { algs := true })], meas := [(1, [7])] } };
    let x := s.spdm tr.val;
    let b := ((1, [7]) : Nat × List Byte);
        spdmUp s = true ∧ x.algs = true ∧ spdmParam req 2 ≠ 0 ∧ spdmParam req 2 ≠ 255 ∧ (s.sec.meas.find? (fun b => b.1 == spdmParam req 2)
      = some b) ∧ spdmParam req 1 % 2 = 1 :=
    ⟨by decide +kernel, by decide +kernel⟩

theorem witness_SpdmAndSeals_11 :
    let tr : Fin 3 := 2;
    let s : State := up;
    let x := s.spdm tr.val;
        spdmUp s = true ∧ x.algs = false :=
    ⟨by decide +kernel, by decide +kernel⟩

theorem witness_SpdmAndSeals_12 :
    let s : State := State.reset;
        spdmUp s = false :=
    by decide +kernel

theorem witness_SpdmAndSeals_13 :
    let v : Fin 1024 := 1;
    let s : State := { ruled .running ringVi with sec := { entropyOk := true } };
    let x := s.sealOf v.val;
        Canon s ∧ x.state = .none ∧ (s.vi v.val).state = .attached ∧ (s.vi v.val).features.getLsbD 0 = true ∧ s.sec.entropyOk = true :=
    ⟨canon_of (by decide +kernel), by decide +kernel⟩

theorem witness_SpdmAndSeals_14 :
    let v : Fin 1024 := 1;
    let s : State := ruled .running { depth := 2 };
    let x := s.sealOf v.val;
        Canon s ∧ x.state = .none ∧ ((s.vi v.val).state ≠ .attached ∨ (s.vi v.val).features.getLsbD 0 = false) :=
    ⟨canon_of (by decide +kernel), by decide +kernel⟩

theorem witness_SpdmAndSeals_15 :
    let v : Fin 1024 := 1;
    let s : State := { ruled .running ringVi with sec := { entropyOk := true, seals := [(1, { state := .busy })] } };
    let x := s.sealOf v.val;
        Canon s ∧ x.state = .busy ∧ s.sec.entropyOk = true ∧ x.wiping = false :=
    ⟨canon_of (by decide +kernel), by decide +kernel⟩

theorem witness_SpdmAndSeals_16 :
    let v : Fin 1024 := 1;
    let s : State := { ruled .running ringVi with sec := { entropyOk := true, seals := [(1, { state := .open_ })] } };
    let x := s.sealOf v.val;
        Canon s ∧ x.state = .open_ :=
    ⟨canon_of (by decide +kernel), by decide +kernel⟩

theorem witness_SpdmAndSeals_17 :
    let v : Fin 1024 := 1;
    let s : State := { ruled .running ringVi with sec := { entropyOk := true, seals := [(1, { state := .open_ })] } };
    let x := s.sealOf v.val;
        Canon s ∧ x.state = .open_ ∧ v.val ≠ 0 :=
    ⟨canon_of (by decide +kernel), by decide +kernel⟩

theorem witness_SpdmAndSeals_18 :
    let v : Fin 1024 := 1;
    let s : State := { ruled .running ringVi with sec := { entropyOk := true, seals := [(1, { state := .open_ })] } };
    let x := s.sealOf v.val;
        Canon s ∧ x.state = .open_ ∧ Calm 4 s :=
    ⟨canon_of (by decide +kernel), by decide +kernel, calm_of (by decide +kernel)⟩

theorem witness_SpdmAndSeals_19 :
    let v : Fin 1024 := 0;
    let s : State := ruled .running { depth := 2 };
        Canon s ∧ v.val = 0 ∧ Calm 4 s :=
    ⟨canon_of (by decide +kernel), by decide +kernel, calm_of (by decide +kernel)⟩

theorem witness_SpdmAndSeals_20 :
    let v : Fin 1024 := 1;
    let s : State := { ruled .running ringVi with sec := { entropyOk := true, seals := [(1, { wiping := true })] } };
    let x := s.sealOf v.val;
        Canon s ∧ x.wiping = true :=
    ⟨canon_of (by decide +kernel), by decide +kernel⟩

theorem witness_SpdmAndSeals_21 :
    let s : State := ruled .running { depth := 2 };
        Canon s ∧ Calm 4 s :=
    ⟨canon_of (by decide +kernel), calm_of (by decide +kernel)⟩

theorem witness_LifeCycleRequests_0 :
    let path : LcsPath := .bar0;
    let target : BitVec 3 := 3;
    let s : State := fuse;
        Canon s ∧ s.lcs.transition = false ∧ s.mgt.stage = .complete ∧ pathOk (lifeCycle s) target.toNat path s.dbg.openS = true ∧
      transitionReady s (lifeCycle s) target.toNat = true ∧ s.mgt.unavail = false ∧ inputLow s = false :=
    ⟨canon_of (by decide +kernel), by decide +kernel⟩

theorem witness_LifeCycleRequests_1 :
    let path : LcsPath := .bar0;
    let target : BitVec 3 := 3;
    let s : State := { fuse with mgt := { fuse.mgt with unavail := true } };
        Canon s ∧ s.lcs.transition = false ∧ s.mgt.stage = .complete ∧ pathOk (lifeCycle s) target.toNat path s.dbg.openS = true ∧
      transitionReady s (lifeCycle s) target.toNat = true ∧ s.mgt.unavail = true :=
    ⟨canon_of (by decide +kernel), by decide +kernel⟩

theorem witness_LifeCycleRequests_2 :
    let path : LcsPath := .bar0;
    let target : BitVec 3 := 3;
    let s : State := { fuse with pwr := { fuse.pwr with reasons := 0x80 } };
        Canon s ∧ s.lcs.transition = false ∧ s.mgt.stage = .complete ∧ pathOk (lifeCycle s) target.toNat path s.dbg.openS = true ∧
      transitionReady s (lifeCycle s) target.toNat = true ∧ s.mgt.unavail = false ∧ inputLow s = true :=
    ⟨canon_of (by decide +kernel), by decide +kernel⟩

theorem witness_LifeCycleRequests_3 :
    let path : LcsPath := .bar0;
    let target : BitVec 3 := 3;
    let s : State := { fuse with lcs := { fuse.lcs with transition := true } };
        Canon s ∧ Calm 3 s ∧ (s.lcs.transition = true ∨ s.mgt.stage ≠ .complete ∨ pathOk (lifeCycle s) target.toNat path s.dbg.openS = false
      ∨ transitionReady s (lifeCycle s) target.toNat = false) :=
    ⟨canon_of (by decide +kernel), calm_of (by decide +kernel), by decide +kernel⟩

theorem witness_LifeCycleRequests_4 :
    let f : Nat := 2;
    let v : List Byte := [];
    let s : State := fuse;
        Canon s ∧ otpDenied s f v = true :=
    ⟨canon_of (by decide +kernel), by decide +kernel⟩

theorem witness_LifeCycleRequests_5 :
    let f : Nat := 2;
    let v : List Byte := hashBytes;
    let s : State := fuse;
        Canon s ∧ otpDenied s f v = false ∧ s.mgt.unavail = false ∧ inputLow s = false ∧ Calm 3 s :=
    ⟨canon_of (by decide +kernel), join3 (by decide +kernel) (calm_of (by decide +kernel))⟩

theorem witness_LifeCycleRequests_6 :
    let f : Nat := 2;
    let v : List Byte := hashBytes;
    let s : State := { fuse with mgt := { fuse.mgt with unavail := true } };
        Canon s ∧ otpDenied s f v = false ∧ (s.mgt.unavail = true ∨ inputLow s = true) :=
    ⟨canon_of (by decide +kernel), by decide +kernel⟩

theorem witness_LifeCycleRequests_7 :
    let v : List Byte := [];
    let s : State := fuseMb;
    let w := v.take (mbArg s 3);
        Canon s ∧ MailboxFree s ∧ s.host.dmaStopped = false ∧ (freeWindow s).isSome = true ∧ otpDenied s (mbArg s 0 % 4) w = true :=
    ⟨canon_of (by decide +kernel), free_of (by decide +kernel), by decide +kernel⟩

theorem witness_LifeCycleRequests_8 :
    let v : List Byte := hashBytes;
    let s : State := fuseMb;
    let w := v.take (mbArg s 3);
        Canon s ∧ MailboxFree s ∧ s.host.dmaStopped = false ∧ (freeWindow s).isSome = true ∧ otpDenied s (mbArg s 0 % 4) w = false ∧
      inputLow s = false ∧ Calm 3 s :=
    ⟨canon_of (by decide +kernel), free_of (by decide +kernel), join4 (by decide +kernel) (calm_of (by decide +kernel))⟩

theorem witness_LifeCycleRequests_9 :
    let v : List Byte := hashBytes;
    let s : State := { fuseMb with pwr := { fuseMb.pwr with reasons := 0x80 } };
    let w := v.take (mbArg s 3);
        Canon s ∧ MailboxFree s ∧ s.host.dmaStopped = false ∧ (freeWindow s).isSome = true ∧ otpDenied s (mbArg s 0 % 4) w = false ∧
      inputLow s = true :=
    ⟨canon_of (by decide +kernel), free_of (by decide +kernel), by decide +kernel⟩

end Sys2Proof.Tests
end

