-- ==== Sys2Proof/Tests/Witness8.lean ====
section
/-! SUPPORT. Witnesses for the statements on debug, power, heat, faults, the start and the peel. -/
namespace Sys2Proof.Tests
open Sys2Proof Sys2Proof.Machine Sys2Proof.Safety
set_option linter.unusedVariables false
set_option Elab.async false


/-- A hub all of whose groups from 0 to 11, and 28, only log. -/
def quiet (s : State) : State :=
  [0, 1, 2, 3, 4, 5, 6, 7, 8, 9, 10, 11, 28].foldl (fun s g => s.setGrp g { s.grp g with action := .log }) s
/-- Life-cycle fields of a package that is OWNED. -/
def ownedOtp : Otp := { fields := [(0, 0xFFFF#16), (1, 0xFFFF#16), (2, 0xFFFF#16), (3, 0xFFFF#16), (4, 0xFFFF#16), (5, 0xFFFF#16)] }
def scrapOtp : Otp := { ownedOtp with fields := ownedOtp.fields ++ [(6, 0xFFFF#16), (7, 0xFFFF#16), (8, 0xFFFF#16), (9, 0xFFFF#16), (10, 0xFFFF#16), (11, 0xFFFF#16)] }
/-- An OWNED package with a debug policy. -/
def debugged (policy : Nat) (d : Dbg) : State :=
  quiet { up with lcs := { otp := ownedOtp, pcw := BitVec.ofNat 520 (2 ^ 512 + policy * 2 ^ 78) }, dbg := d }
/-- The results of a start in which every test passes and no image verifies. -/
def startIn : StartIn :=
  { young := false, flashOk := true, sramTest := true, secTest := true, otpOk := true, synthLock := true, crossings := 7, entropyOk := true, nonce := 0,
    banksBad := [], sramRows := [], chansBad := [], hbmRows := [], cellsBad := [], switchBad := [], verifyA := false, verifyB := false, verifyR := false,
    proofPorts := 0, proofPeers := [], throtLow := false }
def powerIn : PowerIn :=
  { amps8 := 800, raw := 5000, hubRaw := 1000, baseRaw := 900, groupW := [1, 2, 3], partRaw := [], siteW := [], tiles := [], energy := [] }
def powerSet : PowerSet := { avgLimit := none, avgWindow := none, priority := none, caution := none, fclk := none, noShare := none }
def fw1 : FwImage := { version := 0x01070000, svn := 128 }
def peeled (m : Mgt) : State := quiet { up with mgt := m }
theorem all_cold {q : Int} {n r : Nat} (h : 0 ≤ q) : ∀ k, k ≠ n → regionOf k = r → (Tab.get {} (quiet up).thm.sensors k).q ≤ q :=
  fun _ _ _ => h
theorem all_colder {q : Int} {n r : Nat} (h : 0 < q) : ∀ k, k ≠ n → regionOf k = r → (Tab.get {} (quiet up).thm.sensors k).q < q :=
  fun _ _ _ => h

theorem witness_DebugAndTap_0 :
    let s : State := debugged 1 {};
        Canon s ∧ lifeCycle s = 2 ∧ debugPolicy s = 1 ∧ s.lcs.transition = false ∧ s.dbg.openS = false ∧ Logs 28 s :=
    ⟨canon_of (by decide +kernel), by decide +kernel⟩

theorem witness_DebugAndTap_1 :
    let s : State := debugged 3 {};
        Canon s ∧ s.lcs.transition = false ∧ s.dbg.openS = false ∧ s.dbg.locked = false ∧ Logs 28 s ∧ (lifeCycle s = 2 ∧ (debugPolicy s = 2
      ∨ debugPolicy s = 3) ∨ lifeCycle s = 3) :=
    ⟨canon_of (by decide +kernel), by decide +kernel⟩

theorem witness_DebugAndTap_2 :
    let s : State := debugged 3 { locked := true };
        Canon s ∧ s.dbg.locked = true :=
    ⟨canon_of (by decide +kernel), by decide +kernel⟩

theorem witness_DebugAndTap_3 :
    let c : Instr := .partHold 3;
    let s : State := debugged 3 { locked := true };
    let t : State := after (.partHold 3) (debugged 3 { locked := true });
        exec c s = .next t ∧ mayReset c = false ∧ s.dbg.locked = true :=
    ⟨rfl, by decide +kernel⟩

theorem witness_DebugAndTap_4 :
    let s : State := up;
        s.pwr.powered = true ∧ s.mgt.rcvRun = false :=
    ⟨by decide +kernel, by decide +kernel⟩

theorem witness_DebugAndTap_5 :
    let s : State := debugged 3 { openS := true, minutes := 30, rights := 0x1FF };
        Canon s ∧ s.dbg.openS = true :=
    ⟨canon_of (by decide +kernel), by decide +kernel⟩

theorem witness_DebugAndTap_6 :
    let s : State := debugged 3 { openS := true, minutes := 30, rights := 0x1FF };
        Canon s ∧ s.dbg.openS = true ∧ s.dbg.minutes ≠ 0 :=
    ⟨canon_of (by decide +kernel), by decide +kernel⟩

theorem witness_DebugAndTap_7 :
    let s : State := debugged 3 { openS := true, minutes := 30, rights := 0x1FF };
        scanOk s = true :=
    by decide +kernel

theorem witness_DebugAndTap_8 :
    let s : State := debugged 3 {};
        scanOk s = false :=
    by decide +kernel

theorem witness_DebugAndTap_9 :
    let s : State := debugged 3 { openS := true, minutes := 30, rights := 0x1FF };
        hasRight s 1 = true :=
    by decide +kernel

theorem witness_DebugAndTap_10 :
    let s : State := debugged 3 {};
        hasRight s 1 = false :=
    by decide +kernel

theorem witness_SupplyEvents_0 :
    let s : State := up;
        Canon s ∧ s.pwr.powered = true :=
    ⟨canon_of (by decide +kernel), by decide +kernel⟩

theorem witness_SupplyEvents_1 :
    let s : State := { up with pwr := { up.pwr with powered := false, overV := true } };
        Canon s ∧ s.pwr.powered = false :=
    ⟨canon_of (by decide +kernel), by decide +kernel⟩

theorem witness_SupplyEvents_2 :
    let s : State := { up with pwr := { up.pwr with powered := false, overV := true } };
        Canon s ∧ s.pwr.powered = false ∧ s.pwr.overV = true ∧ s.pwr.latched = false :=
    ⟨canon_of (by decide +kernel), by decide +kernel⟩

theorem witness_SupplyEvents_3 :
    let s : State := quiet up;
    let k : Fin 8 := 7;
        Canon s ∧ (s.tile k.val).state ≠ .fenced ∧ Calm 5 s :=
    ⟨canon_of (by decide +kernel), by decide +kernel, calm_of (by decide +kernel)⟩

theorem witness_SupplyEvents_4 :
    let s : State := up;
        Canon s :=
    canon_of (by decide +kernel)

theorem witness_SupplyEvents_5 :
    let s : State := quiet up;
        Canon s ∧ s.pwr.throtN = false ∧ Calm 6 s :=
    ⟨canon_of (by decide +kernel), by decide +kernel, calm_of (by decide +kernel)⟩

theorem witness_SupplyEvents_6 :
    let s : State := up;
        Canon s :=
    canon_of (by decide +kernel)

theorem witness_PowerControl_0 :
    let s : State := quiet up;
        Canon s ∧ NothingDeferred s ∧ Logs 5 s :=
    ⟨canon_of (by decide +kernel), ⟨rfl, rfl, rfl, rfl⟩, by decide +kernel⟩

theorem witness_PowerControl_1 :
    let s : State := quiet up;
        Canon s ∧ Calm 5 s :=
    ⟨canon_of (by decide +kernel), calm_of (by decide +kernel)⟩

theorem witness_PowerControl_2 :
    let s : State := up;
        Canon s :=
    canon_of (by decide +kernel)

theorem witness_PowerControl_3 :
    let s : State := { up with fab := { fclk := 40 } };
    let mean : Nat := 65;
        Canon s ∧ s.mgt.unavail = false ∧ s.mgt.halted = false ∧ 64 < mean ∧ s.pwr.fclkMin < s.fab.fclk ∧ s.fab.fclk ≤ s.pwr.fclkMax ∧
      s.fab.fclkNext = none :=
    ⟨canon_of (by decide +kernel), by decide +kernel⟩

theorem witness_PowerControl_4 :
    let s : State := { up with fab := { fclk := 40, fclkNext := some 38 } };
    let mean : Nat := 65;
    let k := 38;
        Canon s ∧ s.mgt.unavail = false ∧ s.mgt.halted = false ∧ 64 < mean ∧ s.pwr.fclkMin ≤ k ∧ k < s.fab.fclk ∧ s.fab.fclk ≤ s.pwr.fclkMax
      ∧ s.fab.fclkNext = some k :=
    ⟨canon_of (by decide +kernel), by decide +kernel⟩

theorem witness_PowerControl_5 :
    let s : State := up;
    let mean : Nat := 64;
    let low : Bool := true;
        Canon s ∧ s.mgt.unavail = false ∧ s.mgt.halted = false ∧ mean ≤ 64 ∧ low = true ∧ s.pwr.fclkMin ≤ s.fab.fclk ∧ s.fab.fclk <
      s.pwr.fclkMax ∧ s.fab.fclkNext = none ∧ anyCaution s = false :=
    ⟨canon_of (by decide +kernel), by decide +kernel⟩

theorem witness_PowerControl_6 :
    let s : State := up;
    let mean : Nat := 64;
    let low : Bool := false;
        Canon s ∧ s.mgt.unavail = false ∧ s.mgt.halted = false ∧ mean ≤ 64 ∧ low = false ∧ s.pwr.fclkMin ≤ s.fab.fclk ∧ s.fab.fclk ≤
      s.pwr.fclkMax ∧ s.fab.fclkNext = none :=
    ⟨canon_of (by decide +kernel), by decide +kernel⟩

theorem witness_PowerControl_7 :
    let s : State := up;
        Canon s ∧ s.mgt.unavail = false :=
    ⟨canon_of (by decide +kernel), by decide +kernel⟩

theorem witness_PowerControl_8 :
    let s : State := { up with mgt := { up.mgt with unavail := true } };
        Canon s ∧ s.mgt.unavail = true :=
    ⟨canon_of (by decide +kernel), by decide +kernel⟩

theorem witness_PowerControl_9 :
    let s : State := debugged 3 { openS := true, minutes := 30, rights := 0x1FF };
        Canon s ∧ hasRight s 7 = true :=
    ⟨canon_of (by decide +kernel), by decide +kernel⟩

theorem witness_PowerControl_10 :
    let s : State := debugged 3 {};
        Canon s ∧ hasRight s 7 = false :=
    ⟨canon_of (by decide +kernel), by decide +kernel⟩

theorem witness_ThermalLevels_0 :
    let n : Fin 256 := 0;
    let q : Int := 601;
    let s : State := quiet up;
    let r := regionOf n.val;
    let th := thresholds s r;
        Canon s ∧ Logs 6 s ∧ Tab.wf {} s.thm.sensors = true ∧ (q < -160 ∨ 600 < q) ∧ (Tab.get {} s.thm.sensors n.val).failed = false ∧
      s.thm.trips = [] ∧ (∀ k, k ≠ n.val → regionOf k = r → (Tab.get {} s.thm.sensors k).q < th.2.2) :=
    ⟨canon_of (by decide +kernel), join4 (by decide +kernel) ⟨by decide +kernel, all_colder (by decide +kernel : (0 : Int) < 460)⟩⟩

theorem witness_ThermalLevels_1 :
    let n : Fin 256 := 0;
    let q : Int := 300;
    let s : State := quiet up;
    let r := regionOf n.val;
    let x := s.region r;
    let th := thresholds s r;
        Canon s ∧ Logs 6 s ∧ Tab.wf {} s.thm.sensors = true ∧ -160 ≤ q ∧ q ≤ 600 ∧ (∀ k, k ≠ n.val → regionOf k = r → (Tab.get {}
      s.thm.sensors k).q ≤ q) ∧ x.c1 = false ∧ x.c2 = false ∧ x.c3 = false ∧ q < th.1 ∧ q < th.2.1 ∧ s.thm.trips = [] :=
    ⟨canon_of (by decide +kernel), join4 (by decide +kernel) ⟨all_cold (by decide +kernel : (0 : Int) ≤ 300), by decide +kernel⟩⟩

theorem witness_ThermalLevels_2 :
    let n : Fin 256 := 0;
    let q : Int := 400;
    let s : State := quiet up;
    let r := regionOf n.val;
    let x := s.region r;
    let th := thresholds s r;
        Canon s ∧ Logs 6 s ∧ Tab.wf {} s.thm.sensors = true ∧ -160 ≤ q ∧ q ≤ 600 ∧ (∀ k, k ≠ n.val → regionOf k = r → (Tab.get {}
      s.thm.sensors k).q ≤ q) ∧ x.c1 = false ∧ x.c2 = false ∧ x.c3 = false ∧ (th.1 : Int) ≤ q ∧ q < th.2.1 :=
    ⟨canon_of (by decide +kernel), join4 (by decide +kernel) ⟨all_cold (by decide +kernel : (0 : Int) ≤ 400), by decide +kernel⟩⟩

theorem witness_ThermalLevels_3 :
    let n : Fin 256 := 0;
    let q : Int := 459;
    let s : State := quiet up;
    let r := regionOf n.val;
    let x := s.region r;
    let th := thresholds s r;
        Canon s ∧ Logs 6 s ∧ Tab.wf {} s.thm.sensors = true ∧ -160 ≤ q ∧ q ≤ 600 ∧ (∀ k, k ≠ n.val → regionOf k = r → (Tab.get {}
      s.thm.sensors k).q ≤ q) ∧ x.c1 = false ∧ x.c2 = false ∧ x.c3 = false ∧ (th.2.1 : Int) ≤ q ∧ q < th.2.2 ∧ th.1 ≤ th.2.1 :=
    ⟨canon_of (by decide +kernel), join4 (by decide +kernel) ⟨all_cold (by decide +kernel : (0 : Int) ≤ 459), by decide +kernel⟩⟩

theorem witness_ThermalLevels_4 :
    let n : Fin 256 := 127;
    let q : Int := 460;
    let s : State := quiet up;
    let r := regionOf n.val;
    let x := s.region r;
    let th := thresholds s r;
        Canon s ∧ Logs 6 s ∧ Tab.wf {} s.thm.sensors = true ∧ -160 ≤ q ∧ q ≤ 600 ∧ (∀ k, k ≠ n.val → regionOf k = r → (Tab.get {}
      s.thm.sensors k).q ≤ q) ∧ x.c1 = false ∧ x.c2 = false ∧ x.c3 = false ∧ (th.2.2 : Int) ≤ q ∧ r < 9 ∧ q < 500 :=
    ⟨canon_of (by decide +kernel), join4 (by decide +kernel) ⟨all_cold (by decide +kernel : (0 : Int) ≤ 460), by decide +kernel⟩⟩

theorem witness_ThermalLevels_5 :
    let n : Fin 256 := 183;
    let q : Int := 500;
    let s : State := quiet up;
    let r := regionOf n.val;
    let x := s.region r;
        Canon s ∧ Logs 6 s ∧ Tab.wf {} s.thm.sensors = true ∧ -160 ≤ q ∧ q ≤ 600 ∧ (∀ k, k ≠ n.val → regionOf k = r → (Tab.get {}
      s.thm.sensors k).q ≤ q) ∧ x.c1 = false ∧ x.c2 = false ∧ x.c3 = false ∧ r < 9 ∧ 500 ≤ q :=
    ⟨canon_of (by decide +kernel), join4 (by decide +kernel) ⟨all_cold (by decide +kernel : (0 : Int) ≤ 500), by decide +kernel⟩⟩

theorem witness_ThermalLevels_6 :
    let n : Fin 256 := 184;
    let q : Int := 460;
    let s : State := quiet up;
    let r := regionOf n.val;
    let x := s.region r;
    let th := thresholds s r;
    let e := evenOf s (r - 9);
        Canon s ∧ Logs 6 s ∧ Tab.wf {} s.thm.sensors = true ∧ -160 ≤ q ∧ q ≤ 600 ∧ (∀ k, k ≠ n.val → regionOf k = r → (Tab.get {}
      s.thm.sensors k).q ≤ q) ∧ x.c1 = false ∧ x.c2 = false ∧ x.c3 = false ∧ (th.2.2 : Int) ≤ q ∧ 9 ≤ r ∧ (s.site e).state ≠ .fenced :=
    ⟨canon_of (by decide +kernel), join4 (by decide +kernel) ⟨all_cold (by decide +kernel : (0 : Int) ≤ 460), by decide +kernel⟩⟩

theorem witness_ThermalLevels_7 :
    let m : Fin 6 := 5;
    let q : Int := 300;
    let s : State := quiet up;
        Canon s ∧ Logs 6 s ∧ (s.stack m.val).fitted = true ∧ -160 ≤ q ∧ q ≤ 600 ∧ q < 420 ∧ s.thm.trips = [] :=
    ⟨canon_of (by decide +kernel), by decide +kernel⟩

theorem witness_ThermalLevels_8 :
    let m : Fin 6 := 5;
    let q : Int := 420;
    let s : State := quiet up;
    let x := s.region (27 + m.val);
        Canon s ∧ Logs 6 s ∧ (s.stack m.val).fitted = true ∧ -160 ≤ q ∧ q ≤ 600 ∧ 420 ≤ q ∧ x.c3 = false :=
    ⟨canon_of (by decide +kernel), by decide +kernel⟩

theorem witness_FaultGroups_0 :
    let g : Fin 29 := 28;
    let s : State := quiet up;
    let bit : Fin 32 := 4;
        Canon s ∧ bit.val ≤ topBit g.val ∧ Calm g.val s :=
    ⟨canon_of (by decide +kernel), by decide +kernel, calm_of (by decide +kernel)⟩

theorem witness_FaultGroups_1 :
    let g : Fin 29 := 28;
    let s : State := quiet up;
    let bit : Fin 32 := 5;
        Canon s ∧ topBit g.val < bit.val :=
    ⟨canon_of (by decide +kernel), by decide +kernel⟩

theorem witness_FaultGroups_2 :
    let g : Fin 29 := 24;
    let s : State := up;
    let x := s.grp g.val;
        Canon s ∧ x.timer = false :=
    ⟨canon_of (by decide +kernel), by decide +kernel⟩

theorem witness_FaultGroups_3 :
    let g : Fin 29 := 0;
    let s : State := (quiet up).setGrp 0 { up.grp 0 with action := .log, timer := true };
    let x := s.grp g.val;
        Canon s ∧ x.timer = true ∧ (x.action = .log ∨ s.flt.stopped = true) :=
    ⟨canon_of (by decide +kernel), by decide +kernel⟩

theorem witness_FaultGroups_4 :
    let g : Fin 29 := 0;
    let s : State := (quiet up).setGrp 0 { up.grp 0 with action := .stopPackage, timer := true };
    let x := s.grp g.val;
        Canon s ∧ x.timer = true ∧ x.action = .stopPackage ∧ s.flt.stopped = false :=
    ⟨canon_of (by decide +kernel), by decide +kernel⟩

theorem witness_FaultGroups_5 :
    let s : State := up;
        Canon s :=
    canon_of (by decide +kernel)

theorem witness_FaultGroups_6 :
    let g : Fin 29 := 0;
    let s : State := quiet up;
    let x := s.grp g.val;
    let val : Word := 1;
        Canon s ∧ frozen g.val s = false ∧ (x.action = .log ∨ s.flt.stopped = true ∨ x.timer = true) :=
    ⟨canon_of (by decide +kernel), by decide +kernel⟩

theorem witness_FaultGroups_7 :
    let g : Fin 29 := 28;
    let s : State := quiet up;
    let val : Word := 0;
        Canon s ∧ frozen g.val s = false ∧ bits val.toNat 0 2 = 0 :=
    ⟨canon_of (by decide +kernel), by decide +kernel⟩

theorem witness_FaultGroups_8 :
    let g : Fin 29 := 11;
    let s : State := quiet up;
    let val : Word := 1;
        Canon s ∧ frozen g.val s = false ∧ bits val.toNat 0 2 = 1 ∧ wideGroup g.val = true ∧ Calm g.val s :=
    ⟨canon_of (by decide +kernel), join3 (by decide +kernel) (calm_of (by decide +kernel))⟩

theorem witness_FaultGroups_9 :
    let g : Fin 29 := 12;
    let s : State := quiet up;
    let x := s.grp g.val;
    let val : Word := 1;
        Canon s ∧ frozen g.val s = false ∧ FAction.ofCode (bits val.toNat 0 2) = .fenceUnit ∧ wideGroup g.val = false ∧ FGroup.live x = 0 :=
    ⟨canon_of (by decide +kernel), by decide +kernel⟩

theorem witness_FaultGroups_10 :
    let g : Fin 29 := 28;
    let s : State := quiet up;
    let x := s.grp g.val;
    let val : Word := 3;
        Canon s ∧ frozen g.val s = false ∧ 2 ≤ bits val.toNat 0 2 ∧ FGroup.live x = 0 :=
    ⟨canon_of (by decide +kernel), by decide +kernel⟩

theorem witness_FaultGroups_11 :
    let g : Fin 29 := 28;
    let s : State := up;
    let val : Word := 0x80000001;
        Canon s ∧ frozen g.val s = false ∧ (g.val ≠ 0 ∨ s.mgt.halted = true) :=
    ⟨canon_of (by decide +kernel), by decide +kernel⟩

theorem witness_FaultGroups_12 :
    let g : Fin 29 := 0;
    let s : State := quiet up;
    let val : Word := 0x80000020;
        Canon s ∧ frozen g.val s = false ∧ g.val = 0 ∧ s.mgt.halted = false ∧ val.getLsbD 5 = true ∧ val.getLsbD 31 = true ∧ Calm 0 s :=
    ⟨canon_of (by decide +kernel), join4 (by decide +kernel) ⟨by decide +kernel, calm_of (by decide +kernel)⟩⟩

theorem witness_FaultGroups_13 :
    let g : Fin 29 := 5;
    let s : State := peeled { stage := .complete, peel := .handover };
    let val : Word := 1;
        Canon s ∧ frozen g.val s = true ∧ Calm g.val s :=
    ⟨canon_of (by decide +kernel), by decide +kernel, calm_of (by decide +kernel)⟩

theorem witness_FaultGroups_14 :
    let s : State := { up with flt := { modeRead := true, heartbeat := true } };
        Canon s ∧ s.flt.modeRead = true ∧ s.flt.heartbeat = true ∧ pendingGroups s = [] :=
    ⟨canon_of (by decide +kernel), by decide +kernel⟩

theorem witness_StartStages_0 :
    let s : State := { up with lcs := { otp := scrapOtp } };
        Canon s ∧ s.pwr.powered = true ∧ s.mgt.rcvRun = false ∧ s.pwr.tripRec = false ∧ burnt (romOtp s.lcs.otp) 3 = true :=
    ⟨canon_of (by decide +kernel), by decide +kernel⟩

theorem witness_StartStages_1 :
    let x : StartIn := { startIn with flashOk := false };
    let s : State := up;
        Canon s ∧ s.pwr.powered = true ∧ s.mgt.rcvRun = false ∧ s.pwr.tripRec = false ∧ burnt (romOtp s.lcs.otp) 3 = false ∧ x.flashOk =
      false :=
    ⟨canon_of (by decide +kernel), by decide +kernel⟩

theorem witness_StartStages_2 :
    let x : StartIn := startIn;
    let s : State := { up with mgt := { flash := { start := { pending := true, failed := 2 } } } };
    let r := s.mgt.flash.start;
    let failed := if r.pending && !s.pwr.inputLost then r.failed + 1 else r.failed;
        Canon s ∧ s.pwr.powered = true ∧ s.mgt.rcvRun = false ∧ s.pwr.tripRec = false ∧ burnt (romOtp s.lcs.otp) 3 = false ∧ x.flashOk =
      true ∧ 3 ≤ failed :=
    ⟨canon_of (by decide +kernel), by decide +kernel⟩

theorem witness_StartStages_3 :
    let x : StartIn := { startIn with otpOk := false };
    let s : State := { up with mgt := { flash := { start := { pending := true, failed := 1 } } } };
    let r := s.mgt.flash.start;
    let failed := if r.pending && !s.pwr.inputLost then r.failed + 1 else r.failed;
        Canon s ∧ s.pwr.powered = true ∧ s.mgt.rcvRun = false ∧ s.pwr.tripRec = false ∧ burnt (romOtp s.lcs.otp) 3 = false ∧ x.flashOk =
      true ∧ failed < 3 ∧ (x.sramTest = false ∨ x.secTest = false ∨ x.otpOk = false) :=
    ⟨canon_of (by decide +kernel), by decide +kernel⟩

theorem witness_StartStages_4 :
    let x : StartIn := startIn;
    let s : State := up;
    let r := s.mgt.flash.start;
    let failed := if r.pending && !s.pwr.inputLost then r.failed + 1 else r.failed;
        Canon s ∧ s.pwr.powered = true ∧ s.mgt.rcvRun = false ∧ s.pwr.tripRec = false ∧ burnt (romOtp s.lcs.otp) 3 = false ∧ x.flashOk =
      true ∧ failed < 3 ∧ x.sramTest = true ∧ x.secTest = true ∧ x.otpOk = true ∧ rbit (romOtp s.lcs.otp).pcw 0x40 0 = false ∧ x.verifyA =
      false ∧ x.verifyB = false ∧ x.verifyR = false :=
    ⟨canon_of (by decide +kernel), by decide +kernel⟩

theorem witness_StartStages_5 :
    let x : StartIn := { startIn with verifyA := true };
    let s : State := { up with mgt := { flash := { slotA := some fw1 } } };
    let r := s.mgt.flash.start;
    let failed := if r.pending && !s.pwr.inputLost then r.failed + 1 else r.failed;
    let i := fw1;
        Canon s ∧ s.pwr.powered = true ∧ s.mgt.rcvRun = false ∧ s.pwr.tripRec = false ∧ burnt (romOtp s.lcs.otp) 3 = false ∧ x.flashOk =
      true ∧ failed < 3 ∧ x.sramTest = true ∧ x.secTest = true ∧ x.otpOk = true ∧ rbit (romOtp s.lcs.otp).pcw 0x40 0 = false ∧
      s.mgt.flash.trial = none ∧ s.mgt.flash.active = 0 ∧ s.mgt.flash.slotA = some i ∧ x.verifyA = true ∧ s.lcs.otp.rollback ≤ i.svn ∧
      x.synthLock = true ∧ x.crossings = 7#3 ∧ (∃ b < 64, x.banksBad.contains b = false) :=
    ⟨canon_of (by decide +kernel), by decide +kernel⟩

theorem witness_StartStages_6 :
    let s : State := { up with pwr := { up.pwr with powered := false, overV := true } };
        s.pwr.powered = false :=
    by decide +kernel

theorem witness_StartStages_7 :
    let s : State := State.reset;
        starting s = true :=
    by decide +kernel

theorem witness_StartStages_8 :
    let s : State := up;
        starting s = false :=
    by decide +kernel

theorem witness_StartStages_9 :
    let s : State := peeled { stage := .s5 };
        s.mgt.stage = .s5 ∧ s.mgt.stopStart = false ∧ (∀ p ∈ s.enabledParts, launched (s.part p) = true) :=
    ⟨by decide +kernel, by decide +kernel⟩

theorem witness_Peels_0 :
    let s : State := peeled { stage := .complete, peel := .deferred };
    let m := s.mgt;
        Canon s ∧ m.peel = .deferred ∧ m.halted = false ∧ emergency s = false ∧ (∀ k, m.emergAt = some k → 120000000 ≤ s.clk.now.toNat -
      k.toNat) :=
    ⟨canon_of (by decide +kernel), join3 (by decide +kernel) ((by intro k hk; cases hk))⟩

theorem witness_Peels_1 :
    let s : State := { peeled { stage := .complete, peel := .deferred } with pwr := { up.pwr with hotTick := some 0 } };
    let m := s.mgt;
        Canon s ∧ m.peel = .deferred ∧ m.halted = false ∧ emergency s = true :=
    ⟨canon_of (by decide +kernel), by decide +kernel⟩

theorem witness_Peels_2 :
    let s : State := peeled { stage := .complete, peel := .deferred };
    let m := s.mgt;
        Canon s ∧ m.peel = .deferred ∧ Calm 0 s :=
    ⟨canon_of (by decide +kernel), by decide +kernel, calm_of (by decide +kernel)⟩

theorem witness_Peels_3 :
    let s : State := peeled { stage := .complete, peel := .staged };
        Canon s ∧ waitOver s = true ∧ emergency s = false :=
    ⟨canon_of (by decide +kernel), by decide +kernel⟩

theorem witness_Peels_4 :
    let s : State := { peeled { stage := .complete, peel := .staged } with pwr := { up.pwr with hotTick := some 0 } };
        Canon s ∧ waitOver s = true ∧ emergency s = true ∧ NothingDeferred s :=
    ⟨canon_of (by decide +kernel), by decide +kernel, by decide +kernel, ⟨rfl, rfl, rfl, rfl⟩⟩

theorem witness_Peels_5 :
    let s : State := peeled { stage := .complete, peel := .handover, staged := some fw1 };
    let m := s.mgt;
    let i := fw1;
        Canon s ∧ m.peel = .handover ∧ m.halted = false ∧ m.staged = some i ∧ emergency s = false :=
    ⟨canon_of (by decide +kernel), by decide +kernel⟩

theorem witness_Peels_6 :
    let s : State := { peeled { stage := .complete, peel := .handover, staged := some fw1 } with pwr := { up.pwr with hotTick := some 0 } };
    let m := s.mgt;
    let i := fw1;
        Canon s ∧ m.peel = .handover ∧ m.halted = false ∧ m.staged = some i ∧ emergency s = true ∧ NothingDeferred s :=
    ⟨canon_of (by decide +kernel), join4 (by decide +kernel) (⟨rfl, rfl, rfl, rfl⟩)⟩

theorem witness_Peels_7 :
    let s : State := peeled { stage := .complete, peel := .jumped, unavail := true };
    let m := s.mgt;
        Canon s ∧ m.halted = false ∧ m.unavail = true ∧ NothingDeferred s ∧ m.peel = .jumped ∧ Calm 0 s :=
    ⟨canon_of (by decide +kernel), by decide +kernel, by decide +kernel, ⟨rfl, rfl, rfl, rfl⟩, by decide +kernel, calm_of (by decide +kernel)⟩

theorem witness_Peels_8 :
    let s : State := peeled { stage := .complete, unavail := true };
    let m := s.mgt;
        Canon s ∧ m.halted = false ∧ m.unavail = true ∧ NothingDeferred s ∧ m.peel = .none :=
    ⟨canon_of (by decide +kernel), by decide +kernel, by decide +kernel, ⟨rfl, rfl, rfl, rfl⟩, by decide +kernel⟩

theorem witness_Peels_9 :
    let s : State := peeled { stage := .complete, peel := .jumped, unavail := true };
    let m := s.mgt;
        Canon s ∧ m.halted = false ∧ m.unavail = true ∧ NothingDeferred s ∧ m.peel = .jumped ∧ Calm 0 s :=
    ⟨canon_of (by decide +kernel), by decide +kernel, by decide +kernel, ⟨rfl, rfl, rfl, rfl⟩, by decide +kernel, calm_of (by decide +kernel)⟩

theorem witness_Peels_10 :
    let s : State := peeled { stage := .complete, commitDue := true };
    let m := s.mgt;
        Canon s ∧ m.commitDue = true ∧ m.flash.present = true :=
    ⟨canon_of (by decide +kernel), by decide +kernel⟩

theorem witness_Peels_11 :
    let s : State := peeled { stage := .complete, commitDue := true };
    let m := s.mgt;
        Canon s ∧ m.commitDue = true ∧ Calm 0 s :=
    ⟨canon_of (by decide +kernel), by decide +kernel, calm_of (by decide +kernel)⟩

theorem witness_Peels_12 :
    let s : State := peeled { stage := .complete, peel := .staged };
    let m := s.mgt;
        Canon s ∧ m.stage = .complete ∧ m.halted = false ∧ m.peel ≠ .jumped ∧ m.busy = false ∧ s.img.load.stage = .idle ∧ Calm 0 s :=
    ⟨canon_of (by decide +kernel), join4 (by decide +kernel) ⟨by decide +kernel, calm_of (by decide +kernel)⟩⟩

theorem witness_Peels_13 :
    let s : State := peeled { stage := .complete, peel := .none };
    let m := s.mgt;
        Canon s ∧ m.stage = .complete ∧ m.halted = false ∧ m.unavail = false :=
    ⟨canon_of (by decide +kernel), by decide +kernel⟩

theorem witness_PldmRequests_0 :
    let s : State := up;
        s.mgt.stage ≠ .rom ∧ lifeCycle s ≠ 4 ∧ s.mgt.unavail = false ∧ s.mgt.pldmQ = [] :=
    ⟨by decide +kernel, by decide +kernel⟩

theorem witness_PldmRequests_1 :
    let s : State := up;
        s.mgt.stage ≠ .rom ∧ lifeCycle s ≠ 4 ∧ s.mgt.unavail = false ∧ s.mgt.pldmQ = [] :=
    ⟨by decide +kernel, by decide +kernel⟩

theorem witness_PldmRequests_2 :
    let s : State := up;
    let n := 8;
    let v := 0;
        s.mgt.stage ≠ .rom ∧ lifeCycle s ≠ 4 ∧ s.mgt.unavail = false ∧ s.mgt.pldmQ = [] ∧ sensorValue s n = some v :=
    ⟨by decide +kernel, by decide +kernel⟩

theorem witness_PldmRequests_3 :
    let s : State := up;
    let n := 9;
        s.mgt.stage ≠ .rom ∧ lifeCycle s ≠ 4 ∧ s.mgt.unavail = false ∧ s.mgt.pldmQ = [] ∧ sensorValue s n = none :=
    ⟨by decide +kernel, by decide +kernel⟩

theorem witness_PldmRequests_4 :
    let s : State := up;
        s.mgt.stage ≠ .rom ∧ lifeCycle s ≠ 4 ∧ s.mgt.unavail = false ∧ s.mgt.pldmQ = [] :=
    ⟨by decide +kernel, by decide +kernel⟩

theorem witness_PldmRequests_5 :
    let s : State := up;
        s.mgt.stage ≠ .rom ∧ lifeCycle s ≠ 4 ∧ s.mgt.unavail = false ∧ s.mgt.pldmQ = [] ∧ s.mgt.flash.present = true :=
    ⟨by decide +kernel, by decide +kernel⟩

theorem witness_PldmRequests_6 :
    let s : State := peeled { stage := .complete, pldmImg := some fw1 };
    let i := fw1;
        s.mgt.stage ≠ .rom ∧ lifeCycle s ≠ 4 ∧ s.mgt.unavail = false ∧ s.mgt.pldmQ = [] ∧ s.mgt.pldmImg = some i ∧ updateDenied false s =
      false ∧ s.lcs.otp.rollback ≤ i.svn ∧ recordOutside i s = false ∧ emergency s = false :=
    ⟨by decide +kernel, by decide +kernel⟩

theorem witness_PldmRequests_7 :
    let s : State := peeled { stage := .complete, pldmImg := some fw1 };
    let i := fw1;
        s.mgt.stage ≠ .rom ∧ lifeCycle s ≠ 4 ∧ s.mgt.unavail = false ∧ s.mgt.pldmQ = [] ∧ s.mgt.pldmImg = some i ∧ updateDenied false s =
      false ∧ s.lcs.otp.rollback ≤ i.svn ∧ s.mgt.flash.present = true :=
    ⟨by decide +kernel, by decide +kernel⟩

theorem witness_PldmRequests_8 :
    let s : State := peeled { stage := .complete, unavail := true };
        s.mgt.stage ≠ .rom ∧ lifeCycle s ≠ 4 ∧ s.mgt.unavail = true :=
    ⟨by decide +kernel, by decide +kernel⟩

theorem witness_PldmRequests_9 :
    let s : State := peeled { stage := .complete, unavail := true };
        s.mgt.stage ≠ .rom ∧ lifeCycle s ≠ 4 ∧ s.mgt.unavail = true :=
    ⟨by decide +kernel, by decide +kernel⟩

theorem witness_PldmRequests_10 :
    let s : State := State.reset;
        (s.mgt.stage = .rom ∨ lifeCycle s = 4) :=
    by decide +kernel

theorem witness_PldmRequests_11 :
    let s : State := { up with lcs := { otp := scrapOtp } };
        (s.mgt.stage = .rom ∨ lifeCycle s = 4) :=
    by decide +kernel

end Sys2Proof.Tests
end

section
/-! SUPPORT. Rules of the register accesses: which register a write reaches (R32, R57, R757), what an access of the indirect pair
does (R44 to R46), and what a wide-value mailbox holds after a SELECT and after a capture (R49 to R51). -/
namespace Sys2Proof.Machine
open Sys2Proof

/-! ### Writes that are discarded (R32, R57) -/

/-- A write whose byte enables do not cover the register is discarded. -/
theorem writeReg_of_partial {be : Nat} (h : be ≠ 15) (path : RegPath) (a : Nat) (v : Word) (s : State) :
    writeReg path a v be s = s := by
  simp [writeReg, h]

/-- Every write to BAR4 is discarded. -/
theorem writeReg_bar4 (a : Nat) (v : Word) (be : Nat) (s : State) : writeReg .bar4 a v be s = s := by
  simp [writeReg]

/-- A 32-bit write is one access at the aligned address, by the low four byte enables. -/
theorem exec_regWrite_narrow (path : RegPath) (addr : Nat) (val : BitVec 64) (be : BitVec 8) (s : State) :
    exec (.regWrite path addr val be false) s =
      .next (refresh (writeReg path (addr / 4 * 4) (val.setWidth 32) (be.toNat % 16) s)) := rfl

/-- No write to BAR4 has an effect, whatever its width. -/
theorem regWrite_bar4 (addr : Nat) (val : BitVec 64) (be : BitVec 8) (wide : Bool) (s : State) :
    regWrite .bar4 addr val be wide s = s := by
  cases wide <;> simp [regWrite, writeReg_bar4]

/-! ### The block MGT in BAR0 (R757, R778) -/

/-- The lowest mailbox of BAR0 is that of VIF. -/
theorem mbxBases_above_hst : ∀ e ∈ mbxBases, 0x20000 ≤ e.1 := by decide

/-- MGT and HST hold no wide-value mailbox. -/
theorem mbxAt_of_below_vif {a : Nat} (h : a < 0x20000) : mbxAt a = none := by
  have none_covers : ∀ e ∈ mbxBases, ¬ (decide (e.1 ≤ a) && decide (a < e.1 + 0x18)) = true := by
    intro e he
    have := mbxBases_above_hst e he
    simp only [Bool.and_eq_true, decide_eq_true_eq]
    omega
  simp [mbxAt, List.find?_eq_none.mpr none_covers]

/-- Below its group registers a write to MGT is a write of that block alone: a peel freezes none of its registers. -/
theorem writeBar0_of_mgt {a : Nat} (h : a < 0xF000) (who : Owner2) (v : Word) (s : State) :
    writeBar0 who a v s = writeMgt who a v s := by
  have hm : mbxAt a = none := mbxAt_of_below_vif (by omega)
  have hg : groupAt a = some 0 := by
    have hq : a / 0x10000 = 0 := by omega
    simp [groupAt, hq, show a < 0x100000 by omega]
  have ho : a % 0x10000 = a := Nat.mod_eq_of_lt (by omega)
  simp [writeBar0, hm, hg, ho, frozen, groupBase, show ¬ 0xF000 ≤ a by omega]

/-- MGT answers in flatbread mode too. -/
theorem blockUp_of_mgt {a : Nat} (h : a < 0x10000) (s : State) : blockUp s a = true := by
  have hq : a / 0x10000 = 0 := by omega
  simp [blockUp, groupAt, hq, show a < 0x100000 by omega]

/-- A write that covers a register of MGT reaches it, in flatbread mode too; `MGT_IND_DATA` is an access of the pair instead. -/
theorem writeReg_of_mgt {a : Nat} (h : a < 0xF000) (hd : a ≠ 0x44) (v : Word) (s : State) :
    writeReg .bar0 a v 15 s = writeMgt .host a v s := by
  simp [writeReg, servedPath, blockUp_of_mgt (show a < 0x10000 by omega), hd, pathOwner, writeBar0_of_mgt h]

/-- A mailbox argument word takes what is written to it. -/
theorem writeMgt_arg (who : Owner2) (n : Fin 16) (v : Word) (s : State) :
    writeMgt who (0x140 + 4 * n.val) v s = { s with mgt := { s.mgt with args := Tab.set 0 s.mgt.args n.val v } } := by
  have hr : 0x140 ≤ 0x140 + 4 * n.val ∧ 0x140 + 4 * n.val < 0x180 := by omega
  simp [writeMgt, hr]

/-! ### The indirect pair (R44 to R48) -/

@[simp] theorem indOf_setInd (who : Owner2) (i : Ind) (s : State) : indOf who (setInd who i s) = i := by
  cases who <;> rfl

/-- Two owners that differ are the host driver and firmware. -/
theorem Owner2.host_fw_of_ne {w who : Owner2} (h : w ≠ who) : w = .host ∧ who = .fw ∨ w = .fw ∧ who = .host := by
  cases w <;> cases who <;> simp at h ⊢

theorem indOf_setInd_other {w who : Owner2} (h : w ≠ who) (i : Ind) (s : State) : indOf w (setInd who i s) = indOf w s := by
  obtain ⟨rfl, rfl⟩ | ⟨rfl, rfl⟩ := Owner2.host_fw_of_ne h <;> rfl

@[simp] theorem setInd_out (who : Owner2) (i : Ind) (s : State) : (setInd who i s).out = s.out := by cases who <;> rfl
@[simp] theorem setInd_free (who : Owner2) (i : Ind) (s : State) : (setInd who i s).free = s.free := by cases who <;> rfl

/-- Everything that firmware's write at an indirect address can do: a cell's slot, the log ring, the words kept for later reads. -/
theorem indWrite_shape (a : Nat) (v : Word) (s : State) :
    ∃ fab mgt kept, indWrite a v s = { s with fab := fab, mgt := mgt, indMem := kept } := by
  unfold indWrite
  split
  case h_1 =>
    dsimp only
    split
    · exact ⟨s.fab, s.mgt, s.indMem, rfl⟩
    · split <;> exact ⟨_, s.mgt, _, rfl⟩
  all_goals exact ⟨s.fab, _, _, rfl⟩

@[simp] theorem indOf_indWrite (w : Owner2) (a : Nat) (v : Word) (s : State) : indOf w (indWrite a v s) = indOf w s := by
  obtain ⟨_, _, _, h⟩ := indWrite_shape a v s
  rw [h]
  cases w <;> rfl

@[simp] theorem indWrite_out (a : Nat) (v : Word) (s : State) : (indWrite a v s).out = s.out := by
  obtain ⟨_, _, _, h⟩ := indWrite_shape a v s
  rw [h]

/-- An indirect pair after an access: ERR sticks, and ADDR advances by a word under AUTO_INC (R45, R46). -/
def Ind.accessed (i : Ind) (bad : Bool) : Ind :=
  { i with err := i.err || bad, addr := if i.autoInc then i.addr + 4 else i.addr }

/-- An access changes its pair in this way, whatever else it does. -/
theorem indAccess_eq (who : Owner2) (write : Bool) (v : Word) (s : State) :
    indAccess who write v s =
      let bad := indForbidden s who write (indOf who s).addr.toNat
      setInd who ((indOf who s).accessed bad) (if write && !bad then indWrite (indOf who s).addr.toNat v s else s) := by
  simp [indAccess, Ind.accessed, BitVec.ofNat_add]

/-- A forbidden write has no effect beyond its pair. -/
theorem exec_indData_write_forbidden {who : Owner2} {s : State} (bad : indForbidden s who true (indOf who s).addr.toNat = true)
    (v : Word) : exec (.indDataAccess who true v) s = .next (setInd who ((indOf who s).accessed true) s) := by
  change Host.Outcome.next (indAccess who true v s) = _
  simp [indAccess_eq, bad]

/-- A write that is allowed is stored, and its pair moves on. -/
theorem exec_indData_write_allowed {who : Owner2} {s : State} (ok : indForbidden s who true (indOf who s).addr.toNat = false)
    (v : Word) : exec (.indDataAccess who true v) s =
      .next (setInd who ((indOf who s).accessed false) (indWrite (indOf who s).addr.toNat v s)) := by
  change Host.Outcome.next (indAccess who true v s) = _
  simp [indAccess_eq, ok]

/-- A read moves its pair on and answers on its owner's path: with 0 where it is forbidden, else with the word at ADDR. -/
theorem exec_indData_read (who : Owner2) (v : Word) (s : State) :
    let bad := indForbidden s who false (indOf who s).addr.toNat
    exec (.indDataAccess who false v) s =
      .next { setInd who ((indOf who s).accessed bad) s with
        out := .readValue (ownerPath who).tlp (ownerPath who) 0x44
          (BitVec.ofNat 32 (if bad then 0 else indRead s (indOf who s).addr.toNat)) :: s.out
        free := s.free + 1 } := by
  change Host.Outcome.next ((indAccess who false v s).emit _).spend = _
  simp [indAccess_eq, State.emit, State.spend, indValue]

/-! ### Wide-value mailboxes (R49 to R51) -/

@[simp] theorem mbxOf_setMbx (who : Owner2) (m : MbxId) (x : Mbx) (s : State) : mbxOf who m (setMbx who m x s) = x := by
  cases who <;> simp [mbxOf, setMbx]

theorem mbxOf_setMbx_other {w who : Owner2} (h : w ≠ who) (m m' : MbxId) (x : Mbx) (s : State) :
    mbxOf w m (setMbx who m' x s) = mbxOf w m s := by
  obtain ⟨rfl, rfl⟩ | ⟨rfl, rfl⟩ := Owner2.host_fw_of_ne h <;> rfl

/-- A SELECT that names a value starts its capture in the writer's copy of the mailbox, unless a peel has frozen the block. -/
theorem mbxSelectWrite_of_value {m : MbxId} {sel : Word} {s : State} {v : Nat}
    (thawed : ∀ g, mbxGroup m = some g → frozen g s = false) (named : mbxValue m sel.toNat s = some v) (who : Owner2) :
    mbxSelectWrite who m sel s =
      setMbx who m { mbxOf who m s with sel := sel, busy := true, valid := false, err := false } s := by
  cases hg : mbxGroup m with
  | none => simp [mbxSelectWrite, hg, named]
  | some g => simp [mbxSelectWrite, hg, thawed g hg, named]

/-- The end of a capture stores the value as it stands; an entry of the trace buffer passes its check besides. -/
theorem mbxCaptureDone_of_value {who : Owner2} {m : MbxId} {s : State} {v : Nat} (untraced : m ≠ .trc)
    (busy : (mbxOf who m s).busy = true) (named : mbxValue m (mbxOf who m s).sel.toNat s = some v) :
    mbxCaptureDone who m s =
      setMbx who m { mbxOf who m s with busy := false, valid := true, seq := (mbxOf who m s).seq + 1, data := BitVec.ofNat 128 v }
        s.spend := by
  simp [mbxCaptureDone, busy, named, untraced, State.spend]

end Sys2Proof.Machine

namespace Sys2Proof.Proofs
open Sys2Proof Sys2Proof.Machine

/-- Settles O13: the two discarded writes leave the state to the refresh of the lines, and an argument word's write reaches MGT's
register alone. -/
theorem writesCoverWholeRegisters : Obligations.WritesCoverWholeRegisters := by
  unfold Obligations.WritesCoverWholeRegisters
  refine ⟨fun path addr val be s uncovered => ?_, fun addr val be wide s => ?_, fun n val be s covered => ?_⟩
  · rw [exec_regWrite_narrow, writeReg_of_partial uncovered]
  · change Host.Outcome.next (refresh (regWrite .bar4 addr val be wide s)) = _
    rw [regWrite_bar4]
  · have aligned : (0x140 + 4 * n.val) / 4 * 4 = 0x140 + 4 * n.val := by omega
    rw [exec_regWrite_narrow, covered, aligned, writeReg_of_mgt (by omega) (by omega), writeMgt_arg]

/-- Settles O15: an access of the indirect pair by whether it is forbidden and whether it writes, then the start and the end of a
capture. -/
theorem indirectAndWideValues : Obligations.IndirectAndWideValues := by
  unfold Obligations.IndirectAndWideValues
  refine ⟨fun who write val s => ⟨?_, ?_, ?_, ?_⟩, fun who m sel s v thawed named => ?_,
    fun who m s v untraced busy named => ?_⟩
  · rintro bad rfl
    exact exec_indData_write_forbidden bad val
  · rintro bad rfl
    simpa [bad, Ind.accessed] using exec_indData_read who val s
  · rintro ok rfl
    simpa [ok, Ind.accessed] using exec_indData_read who val s
  · rintro ok rfl
    refine ⟨_, exec_indData_write_allowed ok val, indOf_setInd _ _ _, by simp, fun w hw => ?_⟩
    rw [indOf_setInd_other hw, indOf_indWrite]
  · refine ⟨_, congrArg Host.Outcome.next (mbxSelectWrite_of_value thawed named who), mbxOf_setMbx _ _ _ _, fun w hw => ?_⟩
    exact mbxOf_setMbx_other hw _ _ _ _
  · exact ⟨_, congrArg Host.Outcome.next (mbxCaptureDone_of_value untraced busy named), mbxOf_setMbx _ _ _ _⟩

end Sys2Proof.Proofs
end

section
/-! SUPPORT. Rules of the time base, the proof ports and the site wires: what a token of the time base does at its receiver and its
sender (R114, R122 to R124), when the counter steps to the parent's time (R117, R119), what a proof port that goes down or comes up
leaves alone (R126, R739), and what a missing edge of RELEASE_IN sets (R121). -/
namespace Sys2Proof.Machine
open Sys2Proof Sys2Proof.Safety

/-- A canonical state lists its fault groups with rising keys. -/
theorem groups_of_canon {s : State} (canon : Canon s) : Groups s := by
  obtain ⟨-, -, -, -, -, -, -, -, -, -, -, -, groups⟩ := canon
  exact groups

/-! ### A trace point, a token that is sent, a token that is taken -/

/-- Everything that a trace point can do: the trace buffer, and a free value drawn for an entry. -/
theorem traceAt_shape (point : Nat) (part : Option Nat) (s : State) :
    ∃ trc free, traceAt point part s = { s with trc := trc, free := free } := by
  unfold traceAt
  refine Laws.ite_cases (P := fun t => ∃ trc free, t = { s with trc := trc, free := free }) (fun _ => ?_) (fun _ => ?_)
  · exact ⟨s.trc, s.free, rfl⟩
  · exact ⟨_, _, rfl⟩

@[simp] theorem traceAt_clk (point : Nat) (part : Option Nat) (s : State) : (traceAt point part s).clk = s.clk := by
  obtain ⟨_, _, h⟩ := traceAt_shape point part s
  rw [h]

@[simp] theorem traceAt_parts (point : Nat) (part : Option Nat) (s : State) : (traceAt point part s).parts = s.parts := by
  obtain ⟨_, _, h⟩ := traceAt_shape point part s
  rw [h]

@[simp] theorem traceAt_prfUp (point : Nat) (part : Option Nat) (s : State) : (traceAt point part s).prfUp = s.prfUp := by
  obtain ⟨_, _, h⟩ := traceAt_shape point part s
  rw [h]

@[simp] theorem sendToken_clk (port : Nat) (t : Token) (s : State) : (sendToken port t s).clk = s.clk :=
  (Laws.frm_sendToken (Laws.Frm.refl 0 s)).clock rfl

/-- What has been sent stays sent while more is. -/
theorem mem_out_foldl_emit {α : Type} {e : Emit} (f : α → Emit) (l : List α) {s : State} (sent : e ∈ s.out) :
    e ∈ (l.foldl (fun s x => s.emit (f x)) s).out :=
  (Laws.Kept.foldl (f := fun s x => s.emit (f x)) (fun _ _ => Laws.kept_emit) (Laws.Kept.refl s)).sent.mem sent

/-- A token leaves on its own port while that port is up; its mirrors only add to what goes out (R124). -/
theorem token_mem_sendToken {port : Fin 8} {s : State} (up : s.prfUp.getLsbD port.val = true) (t : Token) :
    Emit.token (.port port) t ∈ (sendToken port.val t s).out := by
  have same : Fin.ofNat 8 port.val = port := Fin.ext (Nat.mod_eq_of_lt port.isLt)
  simp only [sendToken, traceAt_prfUp, up, if_true, same]
  exact mem_out_foldl_emit _ _ List.mem_cons_self

theorem fireInject_of_unarmed {g bit : Nat} {s : State} (unarmed : (s.grp g).inject.getLsbD bit = false) (corrects : Bool) :
    fireInject g bit corrects s = (none, s) := by
  simp [fireInject, unarmed]

/-- A good token of the time base is taken at its port and traced there for no partition; it is not held against copies (R124). -/
theorem takeToken_of_time {ty : TokenType} (timing : ty = .timeReq ∨ ty = .timeResp) {via : TokenVia} {k : Token} {port : Nat}
    {s : State} (good : GoodTime ty via k port s) : takeToken ty via k s = (some port, traceAt (80 + port) none s) := by
  obtain ⟨type, ok, unarmed, heard⟩ := good
  rcases timing with rfl | rfl <;> simp [takeToken, type, ok, fireInject_of_unarmed unarmed, heard]

/-! ### The time base (R114 to R119) -/

/-- The state in which the time parent is lost: the counter runs from the reference, unlocked (R118). -/
def parentLost (s : State) : State :=
  { s with clk := { s.clk with locked := false, onRef := true, reqTick := none, slew := 0 } }

theorem exec_timeParentLost_of_parent {s : State} (parent : s.clk.parentOk = true) :
    exec .timeParentLost s = .next (raise 8 5 0 (parentLost s)) :=
  congrArg Host.Outcome.next (if_pos parent)

/-- The state in which a package has noted the tick of its request (R114). -/
def tickNoted (s : State) : State :=
  { s with clk := { s.clk with reqTick := some (s.clk.now.toNat, s.clk.frac.toNat) } }

/-- A package with a time parent notes its tick and sends it in TIME_REQ. -/
theorem timeSyncTimer_of_parent {s : State} (parent : s.clk.parentOk = true) :
    timeSyncTimer s =
      sendToken s.clk.parent.val (mkToken .timeReq 0 0 0 (s.clk.now.toNat % 2 ^ 48) s.clk.frac.toNat) (tickNoted s) := by
  simp [timeSyncTimer, tickNoted, parent]

/-- A TIME_REQ is answered on the port that it counts for, with the tick and the hop count of the receiver. -/
theorem timeReq_of_good {via : TokenVia} {k : Token} {port : Nat} {s : State} (good : GoodTime .timeReq via k port s) :
    timeReq via k s = sendToken port (mkToken .timeResp k.domain.val 0 0 (s.clk.now.toNat % 2 ^ 48) s.clk.frac.toNat
      (if s.clk.parentOk then s.clk.hops else 0)) (traceAt (80 + port) none s) := by
  simp [timeReq, takeToken_of_time (.inl rfl) good]

/-- The path delay in 1/16 tick that a TIME_RESP gives: half of what passed since the request at `t1` and its fraction `f1`, without
the time that the parent took (R114). -/
def pathDelay (c : Clock) (k : Token) (t1 f1 : Nat) : Int :=
  (((c.now.toNat * 16 + c.frac.toNat : Nat) : Int) - (t1 * 16 + f1 : Nat) - (k.step.toNat : Int)) / 2

/-- The parent's time at the arrival of its TIME_RESP, in 1/16 tick (R114). -/
def parentTime (c : Clock) (k : Token) (t1 f1 : Nat) : Nat :=
  (((expand48 c.now.toNat k.tick.toNat * 16 + k.frac.toNat : Nat) : Int) + pathDelay c k t1 f1).toNat

/-- The parent's answer at no more than 8 hops steps the counter to the parent's time where stepping is not barred, and locks it. -/
theorem timeResp_clk_of_step {via : TokenVia} {k : Token} {s : State} {t1 f1 : Nat}
    (good : GoodTime .timeResp via k s.clk.parent.val s) (asked : s.clk.reqTick = some (t1, f1)) (parent : s.clk.parentOk = true)
    (near : k.hops.toNat < 8) (free : stepBarred s = false) :
    ∃ offset delay, (timeResp via k s).clk =
      { s.clk with now := BitVec.ofNat 64 (parentTime s.clk k t1 f1 / 16), frac := BitVec.ofNat 4 (parentTime s.clk k t1 f1),
                   reqTick := none, hops := k.hops.toNat + 1, offset := offset, delay := delay, slew := 0, locked := true,
                   onRef := false } := by
  have taken := takeToken_of_time (.inr rfl) good
  have locks : ¬ 8 < k.hops.toNat + 1 := by omega
  have steps : stepBarred (traceAt (80 + s.clk.parent.val) none s) = false := by simpa [stepBarred] using free
  simp only [timeResp, taken, traceAt_clk, asked, parent, locks, steps, Bool.not_true, Bool.not_false,
    bne_self_eq_false, Bool.or_self, Bool.false_eq_true, reduceIte]
  exact ⟨_, _, rfl⟩

/-! ### Proof ports -/

theorem putBit_clears {n : Nat} (x : BitVec n) (i : Nat) : (putBit x i false).getLsbD i = false := by
  have cleared : putBit x i false = x &&& ~~~ BitVec.ofNat n (2 ^ i) := rfl
  rw [cleared, BitVec.getLsbD_and, BitVec.getLsbD_not, BitVec.getLsbD_ofNat]
  by_cases h : i < n <;> simp [h, Nat.testBit_two_pow_self]

/-- Changes of partitions by turns are a change of the partitions alone. -/
theorem foldl_modPart_shape (q : State → Nat → Bool) (f : Part → Part) (l : List Nat) (s : State) :
    ∃ parts, l.foldl (fun s p => if q s p then s.modPart p f else s) s = { s with parts := parts } := by
  induction l generalizing s with
  | nil => exact ⟨s.parts, rfl⟩
  | cons p l ih =>
    rw [List.foldl_cons]
    split
    · obtain ⟨parts, h⟩ := ih (s.modPart p f)
      exact ⟨parts, h⟩
    · exact ih s

/-- A port that comes up changes the ports' own state and the partitions whose tree uses it, nothing else. -/
theorem proofPortUp_shape (port : Nat) (peer : BitVec 64) (s : State) :
    ∃ parts, proofPortUp port peer s =
      { s with parts := parts, prfUp := putBit s.prfUp port true, prfMir := putBit s.prfMir port false,
               prfPeer := Tab.set 0 s.prfPeer port peer } :=
  foldl_modPart_shape (fun s p => (treePorts (s.part p)).contains port) _ _ _

/-- The state in which a port is down and its tokens travel on its mirrors (R153). -/
def portDropped (port : Nat) (s : State) : State :=
  { s with prfUp := putBit s.prfUp port false, prfMir := putBit s.prfMir port !(mirrorsOf s port).isEmpty }

theorem proofPortDown_of_used {port : Nat} {s : State} (used : portInUse s port = true) :
    proofPortDown port s = raise 8 6 port (portDropped port s) :=
  if_pos used

theorem proofPortDown_of_unused {port : Nat} {s : State} (unused : portInUse s port = false) :
    proofPortDown port s = portDropped port s :=
  if_neg (Bool.eq_false_iff.mp unused)

/-! ### Site wires (R121) -/

/-- The state in which the edge that a site owes is known to be missing: the site owes none, and its bit is set (R121). -/
def ackMissed (n : Nat) (s : State) : State :=
  { s.setSite n { s.site n with relAck := true } with siteAck := putBit s.siteAck n true }

/-- The expiry of an edge that an ADMITTED or retraining site still owes marks the site and raises SITE_ACK. -/
theorem siteAckTimeout_of_missing {n : Nat} {s : State} (missing : (s.site n).relAck = false)
    (wired : (s.site n).state = .admitted ∨ (s.site n).state = .retrain) :
    siteAckTimeout n s = raise 8 3 n (ackMissed n s) := by
  rcases wired with h | h <;> simp [siteAckTimeout, ackMissed, missing, h]

end Sys2Proof.Machine

namespace Sys2Proof.Proofs
open Sys2Proof Sys2Proof.Machine Sys2Proof.Safety

theorem timeSync_sends_tick {s : State} (parent : s.clk.parentOk = true) (up : s.prfUp.getLsbD s.clk.parent.val = true) :
    ∃ t, exec .timeSyncTimer s = .next t ∧ t.clk = { s.clk with reqTick := some (s.clk.now.toNat, s.clk.frac.toNat) } ∧
      Emit.token (.port s.clk.parent) (mkToken .timeReq 0 0 0 (s.clk.now.toNat % 2 ^ 48) s.clk.frac.toNat) ∈ t.out := by
  refine ⟨_, congrArg Host.Outcome.next (timeSyncTimer_of_parent parent), sendToken_clk _ _ _, ?_⟩
  exact token_mem_sendToken (s := tickNoted s) up _

theorem timeReq_answered {port : Fin 8} {via : TokenVia} {k : Token} {s : State} (good : GoodTime .timeReq via k port.val s)
    (up : s.prfUp.getLsbD port.val = true) :
    ∃ t, exec (.timeReq via k) s = .next t ∧ t.clk = s.clk ∧
      Emit.token (.port port) (mkToken .timeResp k.domain.val 0 0 (s.clk.now.toNat % 2 ^ 48) s.clk.frac.toNat
        (if s.clk.parentOk then s.clk.hops else 0)) ∈ t.out := by
  refine ⟨refresh (timeReq via k s), rfl, ?_, ?_⟩
  · simp [timeReq_of_good good]
  · apply (Laws.kept_refresh (Laws.Kept.refl _)).sent.mem
    rw [timeReq_of_good good]
    exact token_mem_sendToken (by simpa using up) _

theorem timeParentLost_unlocks {s : State} (groups : Groups s) (calm : Calm 8 s) (parent : s.clk.parentOk = true) :
    ∃ t, exec .timeParentLost s = .next t ∧ FaultSet 8 5 t ∧ t.parts = s.parts ∧
      t.clk = { s.clk with locked := false, onRef := true, reqTick := none, slew := 0 } := by
  refine ⟨_, exec_timeParentLost_of_parent parent, Laws.raise_sets groups (by decide), ?_, ?_⟩
  · exact Laws.raise_calm_parts (s := parentLost s) groups calm
  · exact Laws.raise_calm_clk (s := parentLost s) groups calm

theorem proofPortDown_effect (port : Fin 8) {s : State} (groups : Groups s) (calm : Calm 8 s) :
    ∃ t, exec (.proofPortDown port) s = .next t ∧ t.prfUp.getLsbD port.val = false ∧ t.parts = s.parts ∧
      (portInUse s port.val = true → FaultSet 8 6 t) := by
  have down : (portDropped port.val s).prfUp.getLsbD port.val = false := putBit_clears _ _
  cases used : portInUse s port.val with
  | false => exact ⟨_, congrArg Host.Outcome.next (proofPortDown_of_unused used), down, rfl, nofun⟩
  | true =>
    refine ⟨_, congrArg Host.Outcome.next (proofPortDown_of_used used), ?_, ?_, fun _ => ?_⟩
    · rw [Laws.raise_calm_prfUp (s := portDropped port.val s) groups calm, down]
    · exact Laws.raise_calm_parts (s := portDropped port.val s) groups calm
    · exact Laws.raise_sets groups (by decide)

theorem proofPortUp_effect (port : Fin 8) (peer : BitVec 64) (s : State) :
    ∃ t, exec (.proofPortUp port peer) s = .next t ∧ t.prfUp.getLsbD port.val = true ∧
      t.prfPeer = Tab.set 0 s.prfPeer port.val peer ∧ t.mem = s.mem := by
  obtain ⟨parts, h⟩ := proofPortUp_shape port.val peer s
  exact ⟨_, congrArg Host.Outcome.next h, Laws.putBit_same _ port.isLt, rfl, rfl⟩

theorem siteAckTimeout_effect {n : Fin 18} {s : State} (groups : Groups s) (calm : Calm 8 s)
    (missing : (s.site n.val).relAck = false) (wired : (s.site n.val).state = .admitted ∨ (s.site n.val).state = .retrain) :
    ∃ t, exec (.siteAckTimeout n) s = .next t ∧ FaultSet 8 3 t ∧ t.siteAck.getLsbD n.val = true ∧ t.mem = s.mem := by
  refine ⟨_, congrArg Host.Outcome.next (siteAckTimeout_of_missing missing wired), Laws.raise_sets groups (by decide), ?_, ?_⟩
  · rw [Laws.raise_calm_siteAck (s := ackMissed n.val s) groups calm]
    exact Laws.putBit_same _ n.isLt
  · exact Laws.raise_calm_mem (s := ackMissed n.val s) groups calm

/-- Settles O25: the four commands of the time base, the two of a proof port, then the edges of the site wires and the expiry of a
missing one. -/
theorem timeBaseAndPorts : Obligations.TimeBaseAndPorts := by
  unfold Obligations.TimeBaseAndPorts
  refine ⟨fun s canon => ?_, fun port s canon calm => ?_, fun n s => ⟨rfl, rfl⟩, fun n s canon calm => ?_⟩
  · refine ⟨timeSync_sends_tick, fun _ _ _ => timeReq_answered, fun via k t1 f1 good asked parent near free => ?_,
      fun parent calm => timeParentLost_unlocks (groups_of_canon canon) calm parent⟩
    obtain ⟨_, _, clk⟩ := timeResp_clk_of_step good asked parent near free
    refine ⟨refresh (timeResp via k s), rfl, ?_⟩
    rw [refresh_clk, clk]
    exact ⟨rfl, rfl, rfl, rfl, rfl⟩
  · exact ⟨proofPortDown_effect port (groups_of_canon canon) calm, fun peer => proofPortUp_effect port peer s⟩
  · exact siteAckTimeout_effect (groups_of_canon canon) calm

end Sys2Proof.Proofs
end

section
/-! SUPPORT. Rules of the issue of a micro-operation (R157, R161, R167, R174): what reading its operands, writing its results, the
switchbox and the step to the next micro-operation do to the cell that issues and leave alone elsewhere, where no injected error
waits in the cell's quadrant. -/
namespace Sys2Proof.Machine
open Sys2Proof Sys2Proof.Safety

/-! ### A cell without its traffic -/

/-- What of a cell the vectors that move through it leave alone: all but its input FIFOs and its outstanding returns. -/
def Cell.core (c : Cell) : Cell := { c with inN := [], inE := [], inS := [], inW := [], rets := [] }

theorem Cell.core_setFifo (c : Cell) (d : Nat) (l : List Vec) : (c.setFifo d l).core = c.core := by
  unfold Cell.setFifo
  split <;> rfl

theorem Cell.fields_of_core_eq {c d : Cell} (same : c.core = d.core) :
    c.v = d.v ∧ c.acc = d.acc ∧ c.ls = d.ls ∧ c.draw = d.draw ∧ c.pc = d.pc ∧ c.done = d.done :=
  ⟨(congrArg Cell.v same :), (congrArg Cell.acc same :), (congrArg Cell.ls same :), (congrArg Cell.draw same :),
   (congrArg Cell.pc same :), (congrArg Cell.done same :)⟩

theorem Cell.core_drawn {c d : Cell} (same : c.core = d.core) (f : Tab Word → Tab Word) :
    ({ c with draw := f c.draw } : Cell).core = ({ d with draw := f d.draw } : Cell).core :=
  congrArg (fun k : Cell => { k with draw := f k.draw }) same

/-- A cell with a result in a vector register or an accumulator; another destination leaves the cell as it is. -/
def Cell.put (c : Cell) (d : Nat) (x : Vec) : Cell :=
  if d < 0x20 then { c with v := Tab.set {} c.v d x }
  else if d < 0x24 then { c with acc := Tab.set {} c.acc (d - 0x20) x }
  else c

theorem Cell.put_register (c : Cell) {d : Nat} (reg : d < 0x20) (x : Vec) : c.put d x = { c with v := Tab.set {} c.v d x } :=
  if_pos reg

theorem Cell.put_accumulator (c : Cell) {d : Nat} (lo : 0x20 ≤ d) (hi : d < 0x24) (x : Vec) :
    c.put d x = { c with acc := Tab.set {} c.acc (d - 0x20) x } := by
  simp [Cell.put, hi, Nat.not_lt.mpr lo]

theorem Cell.put_elsewhere (c : Cell) {d : Nat} (past : 0x24 ≤ d) (x : Vec) : c.put d x = c := by
  have noReg : ¬ d < 0x20 := by omega
  simp [Cell.put, noReg, Nat.not_lt.mpr past]

/-- A result touches nothing but the registers and the accumulators. -/
theorem Cell.put_shape (c : Cell) (d : Nat) (x : Vec) : ∃ v acc, c.put d x = { c with v := v, acc := acc } := by
  unfold Cell.put
  split
  · exact ⟨_, _, rfl⟩
  · split <;> exact ⟨_, _, rfl⟩

/-- A cell with the results of a micro-operation, all poisoned or none. -/
def Cell.results (bad : Bool) (outs : List (Nat × Nat)) (c : Cell) : Cell :=
  outs.foldl (fun c d => c.put d.1 { bits := BitVec.ofNat 512 d.2, poison := bad }) c

theorem Cell.results_shape (bad : Bool) (outs : List (Nat × Nat)) (c : Cell) :
    ∃ v acc, c.results bad outs = { c with v := v, acc := acc } := by
  unfold Cell.results
  induction outs generalizing c with
  | nil => exact ⟨c.v, c.acc, rfl⟩
  | cons d outs ih =>
    obtain ⟨v, acc, now⟩ := c.put_shape d.1 { bits := BitVec.ofNat 512 d.2, poison := bad }
    obtain ⟨v', acc', later⟩ := ih { c with v := v, acc := acc }
    exact ⟨v', acc', by rw [List.foldl_cons, now, later]⟩

@[simp] theorem Cell.results_pc (bad : Bool) (outs : List (Nat × Nat)) (c : Cell) : (c.results bad outs).pc = c.pc := by
  obtain ⟨_, _, h⟩ := c.results_shape bad outs
  rw [h]

@[simp] theorem Cell.results_draw (bad : Bool) (outs : List (Nat × Nat)) (c : Cell) : (c.results bad outs).draw = c.draw := by
  obtain ⟨_, _, h⟩ := c.results_shape bad outs
  rw [h]

/-- Results that all go to vector registers are written there one after the other. -/
theorem Cell.results_v (bad : Bool) {outs : List (Nat × Nat)} (regs : ∀ d ∈ outs, d.1 < 0x20) (c : Cell) :
    (c.results bad outs).v = outs.foldl (fun v d => Tab.set {} v d.1 { bits := BitVec.ofNat 512 d.2, poison := bad }) c.v := by
  induction outs generalizing c with
  | nil => rfl
  | cons d outs ih =>
    have now := c.put_register (regs d List.mem_cons_self) { bits := BitVec.ofNat 512 d.2, poison := bad }
    have later := ih (fun e mem => regs e (List.mem_cons_of_mem d mem)) (c.put d.1 { bits := BitVec.ofNat 512 d.2, poison := bad })
    exact later.trans (by simp only [now, List.foldl_cons])

/-- The draw indices of all lanes, advanced by one (R222). -/
def allDrawn (draw : Tab Word) : Tab Word := (List.range 32).foldl (fun t l => Tab.upd 0 t l (· + 1)) draw

/-- A cell whose micro-operation has issued, drawing or not: the next one, or the end after the last of a slot (R174). -/
def Cell.issued (sl : BitVec 16384) (drawing : Bool) (c : Cell) : Cell :=
  { c with draw := if drawing then allDrawn c.draw else c.draw,
           pc := c.pc + 1, done := decide (opCount sl ≤ c.pc + 1) }

/-! ### What becomes of one cell

`CellBecomes n c s t`: on the way from `s` to `t` cell `n` became `c`, up to traffic; every other cell is as before, up to traffic,
and so are memory and what the draws of the partitions come from. -/

structure CellBecomes (n : Nat) (c : Cell) (s t : State) : Prop where
  mem   : t.mem = s.mem
  cells : Tab.wf {} t.fab.cells = true
  parts : Tab.wf {} t.parts = true
  quiet : (t.grp (24 + n / 512)).inject = 0
  own   : (t.cell n).core = c.core
  other : ∀ m, m ≠ n → (t.cell m).core = (s.cell m).core
  seeds : ∀ p, (t.part p).starter = (s.part p).starter ∧ (t.part p).step = (s.part p).step

/-- A check in a quadrant in which no injected error waits finds nothing. -/
theorem cellCheck_clean {n : Nat} {s : State} (quiet : (s.grp (24 + n / 512)).inject = 0) (bit : Nat) (corrects : Bool) :
    cellCheck n bit corrects .clean s = (false, s) := by
  have unarmed : (s.grp (24 + n / 512)).inject.getLsbD bit = false := by rw [quiet]; exact BitVec.getLsbD_zero
  simp [cellCheck, checkEcc, fireInject_of_unarmed unarmed]

namespace CellBecomes

variable {n : Nat} {c : Cell} {s t : State}

/-- Nothing has happened yet. -/
theorem start (canon : Canon s) (clean : CleanCell n s) : CellBecomes n (s.cell n) s s := by
  obtain ⟨-, parts, -, -, -, -, -, cells, -, -, -, -, -⟩ := canon
  obtain ⟨quiet, -⟩ := clean
  exact ⟨rfl, cells, parts, quiet, rfl, fun _ _ => rfl, fun _ => ⟨rfl, rfl⟩⟩

/-- A change outside memory, cells, partitions and fault groups. -/
theorem rest (h : CellBecomes n c s t) {u : State} (mem : u.mem = t.mem) (cells : u.fab.cells = t.fab.cells)
    (parts : u.parts = t.parts) (groups : u.flt.groups = t.flt.groups) : CellBecomes n c s u where
  mem := mem.trans h.mem
  cells := cells ▸ h.cells
  parts := parts ▸ h.parts
  quiet := by simpa only [State.grp, groups] using h.quiet
  own := by simpa only [State.cell, cells] using h.own
  other := by simpa only [State.cell, cells] using h.other
  seeds := by simpa only [State.part, parts] using h.seeds

/-- The cell itself is written. -/
theorem setOwn (h : CellBecomes n c s t) {d e : Cell} (same : d.core = e.core) : CellBecomes n e s (t.setCell n d) where
  mem := h.mem
  cells := Tab.wf_set h.cells n d
  parts := h.parts
  quiet := h.quiet
  own := by rw [State.cell_setCell h.cells, same]
  other m ne := by rw [State.cell_setCell_other h.cells ne, h.other m ne]
  seeds := h.seeds

/-- A cell's traffic is written, of this cell or of another. -/
theorem setTraffic (h : CellBecomes n c s t) {m : Nat} {d : Cell} (same : d.core = (t.cell m).core) :
    CellBecomes n c s (t.setCell m d) := by
  by_cases own : m = n
  · subst own
    exact h.setOwn (same.trans h.own)
  · exact {
      mem := h.mem
      cells := Tab.wf_set h.cells m d
      parts := h.parts
      quiet := h.quiet
      own := by rw [State.cell_setCell_other h.cells (Ne.symm own), h.own]
      other := fun k ne => by
        by_cases it : k = m
        · subst it
          rw [State.cell_setCell h.cells, same, h.other k ne]
        · rw [State.cell_setCell_other h.cells it, h.other k ne]
      seeds := h.seeds }

theorem foldl {α : Type} {f : State → α → State} (step : ∀ u a, CellBecomes n c s u → CellBecomes n c s (f u a)) (l : List α)
    (h : CellBecomes n c s t) : CellBecomes n c s (l.foldl f t) := by
  induction l generalizing t with
  | nil => exact h
  | cons a l ih => exact ih (step t a h)

/-! #### Vectors that move -/

theorem pushVec (v : Vec) (ts : List (Nat × Nat)) (h : CellBecomes n c s t) : CellBecomes n c s (pushVec v ts t) :=
  h.foldl (fun _ _ hu => hu.setTraffic (Cell.core_setFifo _ _ _)) ts

/-- One input vector leaves its FIFO for its outputs, or waits. -/
theorem forwardVecs (route : Nat) (h : CellBecomes n c s t) : CellBecomes n c s (forwardVecs n route t) := by
  refine h.foldl (fun u d hu => ?_) _
  dsimp only
  split
  · split
    · exact hu
    · have popped := hu.setTraffic (Cell.core_setFifo (u.cell n) d ‹_›)
      rw [cellCheck_clean popped.quiet]
      exact popped.pushVec _ _
  · exact hu

/-- A source operand that names an input or a return takes it away; the others are only read (R167). -/
theorem readSrc (v : Nat) (h : CellBecomes n c s t) : CellBecomes n c s (readSrc n v t).2 := by
  unfold Machine.readSrc
  simp only [cellCheck_clean h.quiet]
  split
  case isTrue register => exact h
  case isFalse =>
    split
    case isTrue accumulator => exact h
    case isFalse =>
      split
      case isTrue input =>
        split
        · have popped := h.setTraffic (Cell.core_setFifo (t.cell n) (v - 0x24) ‹_›)
          rw [cellCheck_clean popped.quiet]
          exact popped
        · exact h
      case isFalse =>
        split
        case isTrue returned =>
          split
          · exact h.setTraffic rfl
          · exact h
        case isFalse => exact h

theorem readSrcs (vs : List Nat) (h : CellBecomes n c s t) : CellBecomes n c s (readSrcs n vs t).2 := by
  induction vs generalizing t with
  | nil => exact h
  | cons v vs ih => exact ih (h.readSrc v)

/-- A flag of a partition is set: its starter and its step stay. -/
theorem markFlag (p bit : Nat) (h : CellBecomes n c s t) : CellBecomes n c s (markFlag p bit t) where
  mem := h.mem
  cells := h.cells
  parts := Tab.wf_set h.parts p _
  quiet := h.quiet
  own := h.own
  other := h.other
  seeds k := by
    unfold Machine.markFlag State.modPart
    by_cases it : k = p
    · subst it
      rw [State.part_setPart h.parts]
      exact h.seeds k
    · rw [State.part_setPart_other h.parts it]
      exact h.seeds k

/-! #### Results -/

theorem writeDst (route d : Nat) (x : Vec) (h : CellBecomes n c s t) : CellBecomes n (c.put d x) s (writeDst n route d x t) := by
  unfold Machine.writeDst
  have own := h.own
  split
  case isTrue reg =>
    rw [c.put_register reg]
    exact h.setOwn (congrArg (fun k : Cell => { k with v := Tab.set {} k.v d x }) own)
  case isFalse noReg =>
    split
    case isTrue acc =>
      rw [c.put_accumulator (Nat.not_lt.mp noReg) acc]
      exact h.setOwn (congrArg (fun k : Cell => { k with acc := Tab.set {} k.acc (d - 0x20) x }) own)
    case isFalse noAcc =>
      rw [c.put_elsewhere (Nat.not_lt.mp noAcc)]
      split
      · exact h.pushVec _ _
      · exact h

theorem results (route : Nat) (bad : Bool) (outs : List (Nat × Nat)) (h : CellBecomes n c s t) :
    CellBecomes n (c.results bad outs) s
      (outs.foldl (fun s d => Machine.writeDst n route d.1 { bits := BitVec.ofNat 512 d.2, poison := bad } s) t) := by
  induction outs generalizing c t with
  | nil => exact h
  | cons d outs ih => exact ih (h.writeDst route d.1 _)

theorem bumpDraws (h : CellBecomes n c s t) : CellBecomes n { c with draw := allDrawn c.draw } s (bumpDraws n t) :=
  h.setOwn (Cell.core_drawn h.own allDrawn)

/-- The draw indices advance where the micro-operation draws, and the cell goes on (R174, R222). -/
theorem advance {x : UCtx} (own : x.n = n) {o : UOut} (straight : o.jump = none) (unended : o.fin = false) (drawing : Bool)
    (h : CellBecomes n c s t) :
    CellBecomes n (c.issued x.sl drawing) s (advance x o (if drawing then Machine.bumpDraws n t else t)) := by
  subst own
  have bumped : CellBecomes x.n { c with draw := (c.issued x.sl drawing).draw } s
      (if drawing then Machine.bumpDraws x.n t else t) := by
    cases drawing
    · exact h
    · simpa only [Cell.issued, if_true] using h.bumpDraws
  simp only [Machine.advance, straight, unended]
  exact bumped.setOwn
    (congrArg (fun k : Cell => { k with pc := k.pc + 1, done := decide (opCount x.sl ≤ k.pc + 1) }) bumped.own)

theorem touchColumn (k : Nat) (h : CellBecomes n c s t) : CellBecomes n c s (touchColumn k t) := h.rest rfl rfl rfl rfl

theorem refresh (h : CellBecomes n c s t) : CellBecomes n c s (refresh t) :=
  h.rest (refresh_mem t) (congrArg Fabric.cells (refresh_fab t)) (refresh_parts t) (refresh_groups t)

/-! #### What the relation says -/

/-- A cell that has become an issued one has gone on, and no other cell's registers, accumulators or local store changed. -/
theorem advanced {x : UCtx} {drawing : Bool} (pc : c.pc = (s.cell n).pc) (h : CellBecomes n (c.issued x.sl drawing) s t) :
    Advanced n x s t := by
  obtain ⟨-, -, -, -, next, done⟩ := Cell.fields_of_core_eq h.own
  refine ⟨pc ▸ next, pc ▸ done, h.mem, fun m ne => ?_⟩
  obtain ⟨v, acc, ls, -⟩ := Cell.fields_of_core_eq (h.other m ne)
  exact ⟨v, acc, ls⟩

/-- A cell that has one result and has been issued has written it to the destination of its micro-operation. -/
theorem written {x : UCtx} {drawing bad : Bool} {val : Nat} (pc : c.pc = (s.cell n).pc) (v : c.v = (s.cell n).v)
    (acc : c.acc = (s.cell n).acc) (h : CellBecomes n ((c.results bad [(x.u.dst, val)]).issued x.sl drawing) s t) :
    Written n x val bad s t := by
  obtain ⟨toV, toAcc, -⟩ := Cell.fields_of_core_eq h.own
  refine ⟨h.advanced ((c.results_pc _ _).trans pc), fun reg => ?_, fun lo hi => ?_⟩
  · rw [toV, ← v]
    exact congrArg Cell.v (c.put_register reg _)
  · rw [toAcc, ← acc]
    exact congrArg Cell.acc (c.put_accumulator lo hi _)

/-- The draw words of a result depend on the state only through what the issue leaves alone until the result is there (R221). -/
theorem cellDraws_eq {x : UCtx} (own : x.n = n) (h : CellBecomes n (s.cell n) s t) (m : Nat) : cellDraws x m t = cellDraws x m s := by
  subst own
  obtain ⟨starter, step⟩ := h.seeds x.p
  obtain ⟨-, -, -, draw, -⟩ := Cell.fields_of_core_eq h.own
  simp only [cellDraws, starter, step, draw]

end CellBecomes

/-! ### The issue -/

theorem nextUop_cell {n : Nat} {s : State} {x : UCtx} (next : nextUop s n = some x) : x.n = n := by
  unfold nextUop at next
  dsimp only at next
  split at next
  · cases next
  · split at next <;> cases next
    rfl

theorem cell_of_issues {n op : Nat} {srcs : Uop → List Nat} {x : UCtx} {s : State} (issues : Issues n op srcs x s) : x.n = n := by
  obtain ⟨next, -, -, -⟩ := issues
  exact nextUop_cell next

/-- A slot that no error has struck reads clean. -/
theorem slotRead_clean {n : Nat} {s : State} (clean : CleanCell n s) (slot : Nat) : slotRead n slot s = (false, s) := by
  obtain ⟨quiet, unstruck⟩ := clean
  simp [slotRead, cellCheck_clean quiet, unstruck]

/-- The state in which a micro-operation's body runs: its operands are read, and poison in one of them is flagged. -/
def operandsRead (n : Nat) (srcs : Uop → List Nat) (x : UCtx) (s : State) : State :=
  if srcBad n srcs x s then markFlag x.p 2 (readSrcs n (srcs x.u) s).2 else (readSrcs n (srcs x.u) s).2

theorem operandsRead_becomes {n : Nat} {srcs : Uop → List Nat} {x : UCtx} {s : State} (canon : Canon s) (clean : CleanCell n s) :
    CellBecomes n (s.cell n) s (operandsRead n srcs x s) := by
  have read := (CellBecomes.start canon clean).readSrcs (srcs x.u)
  unfold operandsRead
  split
  · exact read.markFlag _ _
  · exact read

/-- The end of an issue: the check of the datapath, results, switchbox, draw indices, and the next micro-operation. -/
def retire (n : Nat) (x : UCtx) (arith draws poison : Bool) (o : UOut) : State :=
  let chk := if arith then cellCheck n 4 false .clean o.st else (false, o.st)
  let bad := poison || o.bad || chk.1
  let s := o.outs.foldl (fun s d => writeDst n x.route d.1 { bits := BitVec.ofNat 512 d.2, poison := bad } s) chk.2
  let s := forwardVecs n x.route s
  let s := if draws && x.rnd == .stoch then bumpDraws n s else s
  refresh (touchColumn x.k (advance x o s))

theorem retire_becomes {n : Nat} {x : UCtx} {arith draws poison : Bool} {o : UOut} {c : Cell} {s : State} (own : x.n = n)
    (straight : o.jump = none) (unended : o.fin = false) (good : o.bad = false) (h : CellBecomes n c s o.st) :
    CellBecomes n ((c.results poison o.outs).issued x.sl (draws && x.rnd == .stoch)) s (retire n x arith draws poison o) := by
  have checked : (if arith then cellCheck n 4 false .clean o.st else (false, o.st)) = (false, o.st) := by
    cases arith
    · rfl
    · exact cellCheck_clean h.quiet 4 false
  simp only [retire, checked, good, Bool.or_false]
  exact (((h.results x.route poison o.outs).forwardVecs x.route).advance own straight unended _).touchColumn x.k |>.refresh

section
variable {n op : Nat} {srcs : Uop → List Nat} {dests arith draws : Bool} {ready : UCtx → State → Bool}
  {body : UCtx → List Nat → Bool → State → UOut} {x : UCtx} {s : State}

/-- A micro-operation that issues runs its body on its operands. -/
theorem issue_eq_retire (clean : CleanCell n s) (issues : Issues n op srcs x s) (go : ready x s = true) :
    issue n op srcs dests arith draws ready body s =
      retire n x arith draws (srcBad n srcs x s) (body x (srcVals n srcs x s) (srcBad n srcs x s) (operandsRead n srcs x s)) := by
  obtain ⟨next, opcode, operands, room⟩ := issues
  have free : ¬ (x.u.op != op || !srcsReady s n (srcs x.u) ||
      !(!(dests && x.u.dst == 0x28) || hasRoom s (routeTargets s n x.route 5)) || !ready x s) = true := by
    simp [opcode, operands, room, go]
  unfold issue
  rw [next]
  dsimp only
  rw [if_neg free, slotRead_clean clean]
  rfl

/-- What an issue does to its cell: the body makes it `c`, then the results stand in it and it goes on. -/
theorem issue_becomes (clean : CleanCell n s) (issues : Issues n op srcs x s) (go : ready x s = true) {o : UOut}
    (ran : body x (srcVals n srcs x s) (srcBad n srcs x s) (operandsRead n srcs x s) = o) (straight : o.jump = none)
    (unended : o.fin = false) (good : o.bad = false) {c : Cell} (h : CellBecomes n c s o.st) :
    CellBecomes n ((c.results (srcBad n srcs x s) o.outs).issued x.sl (draws && x.rnd == .stoch)) s
      (issue n op srcs dests arith draws ready body s) := by
  rw [issue_eq_retire clean issues go, ran]
  exact retire_becomes (cell_of_issues issues) straight unended good h

/-- A micro-operation whose one result is all that its body does writes it to its destination. -/
theorem issue_writes (canon : Canon s) (clean : CleanCell n s) (issues : Issues n op srcs x s) (go : ready x s = true) {val : Nat}
    (ran : body x (srcVals n srcs x s) (srcBad n srcs x s) (operandsRead n srcs x s) =
      { outs := [(x.u.dst, val)], st := operandsRead n srcs x s }) :
    Written n x val (srcBad n srcs x s) s (issue n op srcs dests arith draws ready body s) :=
  (issue_becomes clean issues go ran rfl rfl rfl (operandsRead_becomes canon clean)).written rfl rfl rfl

/-- A micro-operation whose results in vector registers are all that its body does writes them in order. -/
theorem issue_writes_registers (canon : Canon s) (clean : CleanCell n s) (issues : Issues n op srcs x s) (go : ready x s = true)
    {outs : List (Nat × Nat)} (regs : ∀ d ∈ outs, d.1 < 0x20)
    (ran : body x (srcVals n srcs x s) (srcBad n srcs x s) (operandsRead n srcs x s) =
      { outs := outs, st := operandsRead n srcs x s }) :
    Advanced n x s (issue n op srcs dests arith draws ready body s) ∧
      ((issue n op srcs dests arith draws ready body s).cell n).v =
        outs.foldl (fun v d => Tab.set {} v d.1 { bits := BitVec.ofNat 512 d.2, poison := srcBad n srcs x s }) (s.cell n).v := by
  have becomes := issue_becomes (dests := dests) (arith := arith) (draws := draws) clean issues go ran rfl rfl rfl
    (operandsRead_becomes canon clean)
  obtain ⟨v, -⟩ := Cell.fields_of_core_eq becomes.own
  exact ⟨becomes.advanced (Cell.results_pc _ _ _), v.trans (Cell.results_v _ regs _)⟩

end

/-! ### Bodies that draw (R140, R221) -/

theorem mxpackBody_operandsRead {n : Nat} {srcs : Uop → List Nat} {x : UCtx} {s : State} (canon : Canon s) (clean : CleanCell n s)
    (own : x.n = n) (vs : List Nat) : mxpackBody x vs (operandsRead n srcs x s) = mxpackBody x vs s := by
  simp only [mxpackBody, (operandsRead_becomes canon clean).cellDraws_eq own]

theorem mxunpackBody_operandsRead {n : Nat} {srcs : Uop → List Nat} {x : UCtx} {s : State} (canon : Canon s) (clean : CleanCell n s)
    (own : x.n = n) (vs : List Nat) : mxunpackBody x vs (operandsRead n srcs x s) = mxunpackBody x vs s := by
  simp only [mxunpackBody, (operandsRead_becomes canon clean).cellDraws_eq own]

/-- The lanes whose blocks an RNG draws (R169). -/
def rngLanes (x : UCtx) : List Nat := (List.range 4).map (· + 4 * bits x.u.imm 0 3)

/-- The blocks that an RNG draws, one of each of its lanes (R140). -/
def rngWords (x : UCtx) (s : State) : List Nat :=
  (rngLanes x).flatMap (fun l => drawBlock ((s.part x.p).starter.getD { seed := 0, stream := 0 }) x.ctx (s.part x.p).step.toNat
    (Tab.get 0#32 (s.cell x.n).draw l).toNat l x.n 0)

/-- The draw indices of a cell whose RNG has drawn (R140). -/
def rngDraw (x : UCtx) (s : State) : Tab Word := (rngLanes x).foldl (fun t l => Tab.upd 0 t l (· + 1)) (s.cell x.n).draw

theorem rngBody_eq (x : UCtx) (s : State) : rngBody x s =
    { outs := [(x.u.dst, joinW 32 (rngWords x s))], st := s.setCell x.n { s.cell x.n with draw := rngDraw x s } } := rfl

end Sys2Proof.Machine

namespace Sys2Proof.Proofs
open Sys2Proof Sys2Proof.Machine Sys2Proof.Safety

/-- Sources of MXPACK: one or two registers of elements, and the old values of both destinations. -/
def mxpackSrcs (u : Uop) : List Nat := [u.a, if u.imm.testBit 0 then 0x3F else u.a + 1, u.dst, u.c]

/-- Sources of MXUNPACK: the elements and the register of the scale. -/
def mxunpackSrcs (u : Uop) : List Nat := [u.a, u.c]

/-- The registers that MXUNPACK writes: one of BF16, or two of FP32. -/
def mxunpackOuts (x : UCtx) (r : List Nat) : List (Nat × Nat) :=
  if x.u.imm.testBit 0 then [(x.u.dst, joinW 16 r)]
  else [(x.u.dst, joinW 32 (r.take 16)), (x.u.dst + 1, joinW 32 (r.drop 16))]

theorem mxunpackOuts_registers {x : UCtx} (fits : x.u.dst + (if x.u.imm.testBit 0 then 0 else 1) < 0x20) (r : List Nat) :
    ∀ d ∈ mxunpackOuts x r, d.1 < 0x20 := by
  cases bf : x.u.imm.testBit 0 with
  | true => simpa [mxunpackOuts, bf] using fits
  | false =>
    simp only [bf, Bool.false_eq_true, if_false] at fits
    have low : x.u.dst < 0x20 := by omega
    simp [mxunpackOuts, bf, low, fits]

section
variable {n : Nat} {x : UCtx} {s : State}

/-- MXPACK writes the elements, then the register that holds the shared scale (R210 to R215). -/
theorem uMxpack_effect (canon : Canon s) (clean : CleanCell n s) (issues : Issues n 0x21 mxpackSrcs x s) (elements : x.u.dst < 0x20)
    (scale : x.u.c < 0x20) :
    let r := mxpackBody x (srcVals n mxpackSrcs x s) s
    let v := fun (k : Nat) => (⟨BitVec.ofNat 512 k, srcBad n mxpackSrcs x s⟩ : Vec)
    Advanced n x s (uMxpack n s) ∧
      ((uMxpack n s).cell n).v = Tab.set {} (Tab.set {} (s.cell n).v x.u.dst (v r.1)) x.u.c (v r.2) := by
  intro r v
  refine issue_writes_registers canon clean issues rfl (outs := [(x.u.dst, r.1), (x.u.c, r.2)]) (by simp [elements, scale]) ?_
  simp only [mxpackBody_operandsRead canon clean (cell_of_issues issues), r]

/-- MXUNPACK writes one register of BF16, or two of FP32 one after the other (R214, R217). -/
theorem uMxunpack_effect (canon : Canon s) (clean : CleanCell n s) (issues : Issues n 0x22 mxunpackSrcs x s)
    (fits : x.u.dst + (if x.u.imm.testBit 0 then 0 else 1) < 0x20) :
    let r := mxunpackBody x (srcVals n mxunpackSrcs x s) s
    let v := fun (k : Nat) => (⟨BitVec.ofNat 512 k, srcBad n mxunpackSrcs x s⟩ : Vec)
    Advanced n x s (uMxunpack n s) ∧
      ((uMxunpack n s).cell n).v = (if x.u.imm.testBit 0 then Tab.set {} (s.cell n).v x.u.dst (v (joinW 16 r))
        else Tab.set {} (Tab.set {} (s.cell n).v x.u.dst (v (joinW 32 (r.take 16)))) (x.u.dst + 1) (v (joinW 32 (r.drop 16)))) := by
  intro r v
  have ran := mxunpackBody_operandsRead (srcs := mxunpackSrcs) canon clean (cell_of_issues issues) (srcVals n mxunpackSrcs x s)
  have regs : ∀ d ∈ mxunpackOuts x r, d.1 < 0x20 := mxunpackOuts_registers fits r
  have effect : Advanced n x s (uMxunpack n s) ∧ ((uMxunpack n s).cell n).v =
      (mxunpackOuts x r).foldl (fun w d => Tab.set {} w d.1 (v d.2)) (s.cell n).v :=
    issue_writes_registers canon clean issues rfl regs (by simp only [ran, mxunpackOuts, r])
  obtain ⟨advanced, written⟩ := effect
  refine ⟨advanced, written.trans ?_⟩
  unfold mxunpackOuts
  split <;> simp only [List.foldl_cons, List.foldl_nil]

/-- RNG writes its blocks, and the draw indices of its lanes alone advance (R140, R169). -/
theorem uRng_effect (canon : Canon s) (clean : CleanCell x.n s) (issues : Issues x.n 0x3C noSrc x s) :
    Written x.n x (joinW 32 (rngWords x s)) false s (uRng x.n s) ∧ ((uRng x.n s).cell x.n).draw = rngDraw x s := by
  have drew : CellBecomes x.n { s.cell x.n with draw := rngDraw x s } s
      (s.setCell x.n { s.cell x.n with draw := rngDraw x s }) := (CellBecomes.start canon clean).setOwn rfl
  have becomes := issue_becomes (dests := true) (arith := true) (draws := false) (ready := always)
    (body := fun x _ _ s => rngBody x s) clean issues rfl (rngBody_eq x s) rfl rfl rfl drew
  obtain ⟨-, -, -, draw, -⟩ := Cell.fields_of_core_eq becomes.own
  refine ⟨becomes.written (c := { s.cell x.n with draw := rngDraw x s }) rfl rfl rfl, draw.trans ?_⟩
  simp [Cell.issued]

end

/-- Settles O29: each micro-operation with one result is an issue that writes what its body computes; MXPACK, MXUNPACK and RNG, which
write more, have a lemma of their own. -/
theorem registerMicroOps : Obligations.RegisterMicroOps := by
  unfold Obligations.RegisterMicroOps
  intro n x s canon clean
  refine ⟨fun dot => ?_, fun pack elements scale => ?_, fun unpack fits => ?_, fun lsum => ?_, fun gmax => ?_, fun gq => ?_,
    fun gadd => ?_, fun grnd => ?_, fun shuf => ?_, fun rng => ?_⟩
  · exact ⟨uDot n.val s, rfl, issue_writes canon clean dot rfl rfl⟩
  · exact ⟨uMxpack n.val s, rfl, uMxpack_effect canon clean pack elements scale⟩
  · exact ⟨uMxunpack n.val s, rfl, uMxunpack_effect canon clean unpack fits⟩
  · exact ⟨uLsum n.val s, rfl, issue_writes canon clean lsum rfl rfl⟩
  · exact ⟨uGmax n.val s, rfl, issue_writes canon clean gmax rfl rfl⟩
  · exact ⟨uGq n.val s, rfl, issue_writes canon clean gq rfl rfl⟩
  · exact ⟨uGadd n.val s, rfl, issue_writes canon clean gadd rfl rfl⟩
  · exact ⟨uGrnd n.val s, rfl, issue_writes canon clean grnd rfl rfl⟩
  · exact ⟨uShuf n.val s, rfl, issue_writes canon clean shuf rfl rfl⟩
  · have own : x.n = n.val := cell_of_issues rng
    rw [← own] at clean rng ⊢
    exact ⟨uRng x.n s, congrArg (fun k => Host.Outcome.next (uRng k s)) own.symm, uRng_effect canon clean rng⟩

end Sys2Proof.Proofs
end

section
/-! SUPPORT. What a whole step keeps: the relation `Kept` of the commands, one case per command, and with the tick of an empty queue
one lemma for every step. -/
namespace Sys2Proof.Laws
open Sys2Proof Sys2Proof.Machine Sys2Proof.Safety

/-- Every command keeps what its own lemma says it keeps. -/
theorem kept_exec {c : Instr} {s t : State} (h : exec c s = .next t) : Kept s t := by
  cases c with
  | regWrite => exact kept_execRegWrite h
  | regReadClear => exact kept_execRegReadClear h
  | indDataAccess => exact kept_execIndDataAccess h
  | mbxSelectWrite => exact kept_execMbxSelectWrite h
  | mbxCaptureDone => exact kept_execMbxCaptureDone h
  | regReadTimeout => exact kept_execRegReadTimeout h
  | mbStatus => exact kept_execMbStatus h
  | loadImage => exact kept_execLoadImage h
  | imageFetchDone => exact kept_execImageFetchDone h
  | imageValidationDone => exact kept_execImageValidationDone h
  | fullImageActivate => exact kept_execFullImageActivate h
  | partialImageActivate => exact kept_execPartialImageActivate h
  | readReport => exact kept_execReadReport h
  | writeBootImage => exact kept_execWriteBootImage h
  | fwUpdate => exact kept_execFwUpdate h
  | peelCancel => exact kept_execPeelCancel h
  | advanceRollback => exact kept_execAdvanceRollback h
  | mapDevice => exact kept_execMapDevice h
  | unmapDevice => exact kept_execUnmapDevice h
  | retryStart => exact kept_execRetryStart h
  | recoveryLoadBegin => exact kept_execRecoveryLoadBegin h
  | recoveryLoadRun => exact kept_execRecoveryLoadRun h
  | rcvDataWrite => exact kept_execRcvDataWrite h
  | requestCold => exact kept_execRequestCold h
  | otpProgram => exact kept_execOtpProgram h
  | mbReservedOpcode => exact kept_execMbReservedOpcode h
  | stepRelease => exact kept_execStepRelease h
  | fetchSlot => exact kept_execFetchSlot h
  | budgetEnd => exact kept_execBudgetEnd h
  | localArrival => exact kept_execLocalArrival h
  | localRelease => exact kept_execLocalRelease h
  | arriveToken => exact kept_execArriveToken h
  | releaseToken => exact kept_execReleaseToken h
  | holdToken => exact kept_execHoldToken h
  | breakToken => exact kept_execBreakToken h
  | lateLimitExpiry => exact kept_execLateLimitExpiry h
  | proofTimeoutExpiry => exact kept_execProofTimeoutExpiry h
  | readyTimeout => exact kept_execReadyTimeout h
  | timeSyncTimer => exact kept_execTimeSyncTimer h
  | timeReq => exact kept_execTimeReq h
  | timeResp => exact kept_execTimeResp h
  | timeParentLost => exact kept_execTimeParentLost h
  | proofPortDown => exact kept_execProofPortDown h
  | siteArriveIn => exact kept_execSiteArriveIn h
  | siteReleaseIn => exact kept_execSiteReleaseIn h
  | siteAckTimeout => exact kept_execSiteAckTimeout h
  | partHold => exact kept_execPartHold h
  | partRelease => exact kept_execPartRelease h
  | partRemeasure => exact kept_execPartRemeasure h
  | starterArm => exact kept_execStarterArm h
  | stepCounterArm => exact kept_execStepCounterArm h
  | uNop => exact kept_execUNop h
  | uEnd => exact kept_execUEnd h
  | uLoop => exact kept_execULoop h
  | uWaitp => exact kept_execUWaitp h
  | uSync => exact kept_execUSync h
  | uLd => exact kept_execULd h
  | uSt => exact kept_execUSt h
  | uGet => exact kept_execUGet h
  | uPut => exact kept_execUPut h
  | uLdc => exact kept_execULdc h
  | uAdd => exact kept_execUAdd h
  | uSub => exact kept_execUSub h
  | uMul => exact kept_execUMul h
  | uFma => exact kept_execUFma h
  | uMax => exact kept_execUMax h
  | uMin => exact kept_execUMin h
  | uSel => exact kept_execUSel h
  | uDot => exact kept_execUDot h
  | uCvt => exact kept_execUCvt h
  | uMxpack => exact kept_execUMxpack h
  | uMxunpack => exact kept_execUMxunpack h
  | uSfu => exact kept_execUSfu h
  | uLsum => exact kept_execULsum h
  | uGmax => exact kept_execUGmax h
  | uGq => exact kept_execUGq h
  | uGadd => exact kept_execUGadd h
  | uGrnd => exact kept_execUGrnd h
  | uGather => exact kept_execUGather h
  | uScatter => exact kept_execUScatter h
  | uShuf => exact kept_execUShuf h
  | uCmul => exact kept_execUCmul h
  | uRng => exact kept_execURng h
  | cellFault => exact kept_execCellFault h
  | fabColFence => exact kept_execFabColFence h
  | fabColRemap => exact kept_execFabColRemap h
  | cfgBcast => exact kept_execCfgBcast h
  | xfeDescArrive => exact kept_execXfeDescArrive h
  | xfeWaitSatisfied => exact kept_execXfeWaitSatisfied h
  | xfeComplete => exact kept_execXfeComplete h
  | xfeAbort => exact kept_execXfeAbort h
  | xfeFence => exact kept_execXfeFence h
  | xfeReadmit => exact kept_execXfeReadmit h
  | atsTranslationCompletion => exact kept_execAtsTranslationCompletion h
  | prgResponse => exact kept_execPrgResponse h
  | faultLimitExpiry => exact kept_execFaultLimitExpiry h
  | atsInvalidate => exact kept_execAtsInvalidate h
  | invalidateCompletion => exact kept_execInvalidateCompletion h
  | hostReadCompletion => exact kept_execHostReadCompletion h
  | hwtCommit => exact kept_execHwtCommit h
  | hwtCommitDrained => exact kept_execHwtCommitDrained h
  | nocRead => exact kept_execNocRead h
  | nocWrite => exact kept_execNocWrite h
  | nocReadData => exact kept_execNocReadData h
  | nocWriteAck => exact kept_execNocWriteAck h
  | nocRefuse => exact kept_execNocRefuse h
  | regRead => exact kept_execRegRead h
  | regResp => exact kept_execRegResp h
  | faultSignal => exact kept_execFaultSignal h
  | respTimeout => exact kept_execRespTimeout h
  | sliceStall => exact kept_execSliceStall h
  | qosMissWindowExpiry => exact kept_execQosMissWindowExpiry h
  | hbmScrub => exact kept_execHbmScrub h
  | sramScrub => exact kept_execSramScrub h
  | hbmTempSample => exact kept_execHbmTempSample h
  | hbmRecalibration => exact kept_execHbmRecalibration h
  | zeroingDone => exact kept_execZeroingDone h
  | rowRepair => exact kept_execRowRepair h
  | srmBankFence => exact kept_execSrmBankFence h
  | srmBankReadmit => exact kept_execSrmBankReadmit h
  | memChFence => exact kept_execMemChFence h
  | memChReadmit => exact kept_execMemChReadmit h
  | cohWinWrite => exact kept_execCohWinWrite h
  | stackRailShort => exact kept_execStackRailShort h
  | siteAdmissionStart => exact kept_execSiteAdmissionStart h
  | siteCoreRegulated => exact kept_execSiteCoreRegulated h
  | siteRailsTimeout => exact kept_execSiteRailsTimeout h
  | sidebandDetected => exact kept_execSidebandDetected h
  | sidebandTimeout => exact kept_execSidebandTimeout h
  | siteTrainingDone => exact kept_execSiteTrainingDone h
  | negotiateTimeout => exact kept_execNegotiateTimeout h
  | attestComplete => exact kept_execAttestComplete h
  | attestTimeout => exact kept_execAttestTimeout h
  | crustLoaded => exact kept_execCrustLoaded h
  | configTimeout => exact kept_execConfigTimeout h
  | siteLinkError => exact kept_execSiteLinkError h
  | siteRetrainDone => exact kept_execSiteRetrainDone h
  | siteRetrainTimeout => exact kept_execSiteRetrainTimeout h
  | siteRailShort => exact kept_execSiteRailShort h
  | sitFence => exact kept_execSitFence h
  | sitReadmit => exact kept_execSitReadmit h
  | sitRetrain => exact kept_execSitRetrain h
  | sitVsetWrite => exact kept_execSitVsetWrite h
  | rdNc => exact kept_execRdNc h
  | wr => exact kept_execWr h
  | rdData => exact kept_execRdData h
  | cmp => exact kept_execCmp h
  | rdCur => exact kept_execRdCur h
  | wrPart => exact kept_execWrPart h
  | rdShared => exact kept_execRdShared h
  | rdOwn => exact kept_execRdOwn h
  | upgrade => exact kept_execUpgrade h
  | evictClean => exact kept_execEvictClean h
  | wbDirty => exact kept_execWbDirty h
  | snpRsp => exact kept_execSnpRsp h
  | snpRspData => exact kept_execSnpRspData h
  | ack => exact kept_execAck h
  | identity => exact kept_execIdentity h
  | arriveInfo => exact kept_execArriveInfo h
  | voltReq => exact kept_execVoltReq h
  | credit => exact kept_execCredit h
  | occupantRspTimeout => exact kept_execOccupantRspTimeout h
  | snoopTimeout => exact kept_execSnoopTimeout h
  | flushTimeout => exact kept_execFlushTimeout h
  | cachingSiteFlushDone => exact kept_execCachingSiteFlushDone h
  | cxlRdcurr => exact kept_execCxlRdcurr h
  | cxlRdshared => exact kept_execCxlRdshared h
  | cxlRdany => exact kept_execCxlRdany h
  | cxlRdown => exact kept_execCxlRdown h
  | cxlRdownnodata => exact kept_execCxlRdownnodata h
  | cxlClflush => exact kept_execCxlClflush h
  | cxlCleanevict => exact kept_execCxlCleanevict h
  | cxlDirtyevict => exact kept_execCxlDirtyevict h
  | cxlItomwr => exact kept_execCxlItomwr h
  | cxlCacheflushed => exact kept_execCxlCacheflushed h
  | cxlSnoopResponse => exact kept_execCxlSnoopResponse h
  | cxlUnlistedD2h => exact kept_execCxlUnlistedD2h h
  | cxlGoAcked => exact kept_execCxlGoAcked h
  | cxlMemResponse => exact kept_execCxlMemResponse h
  | stlTrainingDone => exact kept_execStlTrainingDone h
  | stlTrainingTimeout => exact kept_execStlTrainingTimeout h
  | stlLinkLoss => exact kept_execStlLinkLoss h
  | stlRetrainDone => exact kept_execStlRetrainDone h
  | stlRetrainTimeout => exact kept_execStlRetrainTimeout h
  | stlPortFence => exact kept_execStlPortFence h
  | stlPortReadmit => exact kept_execStlPortReadmit h
  | stlPortRetrain => exact kept_execStlPortRetrain h
  | slotReceive => exact kept_execSlotReceive h
  | nakBlock => exact kept_execNakBlock h
  | abortBlock => exact kept_execAbortBlock h
  | stlCredit => exact kept_execStlCredit h
  | linkBlock => exact kept_execLinkBlock h
  | serdesRefclkLost => exact kept_execSerdesRefclkLost h
  | colWaitSatisfied => exact kept_execColWaitSatisfied h
  | colOpComplete => exact kept_execColOpComplete h
  | colAbort => exact kept_execColAbort h
  | colFence => exact kept_execColFence h
  | colReadmit => exact kept_execColReadmit h
  | vifAttach => exact kept_execVifAttach h
  | vifDetach => exact kept_execVifDetach h
  | vifLease => exact kept_execVifLease h
  | leaseWarn => exact kept_execLeaseWarn h
  | leaseExpiry => exact kept_execLeaseExpiry h
  | pfQuiesce => exact kept_execPfQuiesce h
  | pfDetach => exact kept_execPfDetach h
  | ringReadCompletion => exact kept_execRingReadCompletion h
  | cmdNop => exact kept_execCmdNop h
  | cmdTransfer => exact kept_execCmdTransfer h
  | cmdBarrier => exact kept_execCmdBarrier h
  | cmdWaitStep => exact kept_execCmdWaitStep h
  | hstAttach => exact kept_execHstAttach h
  | hstDrvLease => exact kept_execHstDrvLease h
  | drvLeaseExpiry => exact kept_execDrvLeaseExpiry h
  | drvDetach => exact kept_execDrvDetach h
  | busMasterDisable => exact kept_execBusMasterDisable h
  | functionLevelReset => exact kept_execFunctionLevelReset h
  | perstAssert => exact kept_execPerstAssert h
  | perstRelease => exact kept_execPerstRelease h
  | d3hotEntry => exact kept_execD3hotEntry h
  | pcieLinkDown => exact kept_execPcieLinkDown h
  | interruptDisableWrite => exact kept_execInterruptDisableWrite h
  | spdmGetVersion => exact kept_execSpdmGetVersion h
  | spdmGetCapabilities => exact kept_execSpdmGetCapabilities h
  | spdmNegotiateAlgorithms => exact kept_execSpdmNegotiateAlgorithms h
  | spdmGetDigests => exact kept_execSpdmGetDigests h
  | spdmGetCertificate => exact kept_execSpdmGetCertificate h
  | spdmChallenge => exact kept_execSpdmChallenge h
  | spdmGetMeasurements => exact kept_execSpdmGetMeasurements h
  | sealOpen => exact kept_execSealOpen h
  | sealOpenComplete => exact kept_execSealOpenComplete h
  | sealClose => exact kept_execSealClose h
  | secSealClose => exact kept_execSecSealClose h
  | keySlotWipe => exact kept_execKeySlotWipe h
  | keySlotFault => exact kept_execKeySlotFault h
  | entropyFail => exact kept_execEntropyFail h
  | lcsRequest => exact kept_execLcsRequest h
  | openErase => exact kept_execOpenErase h
  | openCert => exact kept_execOpenCert h
  | tapClose => exact kept_execTapClose h
  | dbgClose => exact kept_execDbgClose h
  | debugDurationExpiry => exact kept_execDebugDurationExpiry h
  | tapBypass => exact kept_execTapBypass h
  | tapIdcode => exact kept_execTapIdcode h
  | tapExtest => exact kept_execTapExtest h
  | tapSamplePreload => exact kept_execTapSamplePreload h
  | powerControlTick => exact kept_execPowerControlTick h
  | powerSample1ms => exact kept_execPowerSample1ms h
  | calibrationUpdate => exact kept_execCalibrationUpdate h
  | tileFail => exact kept_execTileFail h
  | inputCurrentTrip => exact kept_execInputCurrentTrip h
  | supplyDroop => exact kept_execSupplyDroop h
  | fclkAdjust => exact kept_execFclkAdjust h
  | thermalSample => exact kept_execThermalSample h
  | throtNAssert => exact kept_execThrotNAssert h
  | rackBudgetSet => exact kept_execRackBudgetSet h
  | powerOn => exact kept_execPowerOn h
  | inputUndervoltage => exact kept_execInputUndervoltage h
  | inputOvervoltage => exact kept_execInputOvervoltage h
  | faultDetect => exact kept_execFaultDetect h
  | graceExpiry => exact kept_execGraceExpiry h
  | faultStatusClear => exact kept_execFaultStatusClear h
  | faultAck => exact kept_execFaultAck h
  | faultMaskWrite => exact kept_execFaultMaskWrite h
  | faultActionWrite => exact kept_execFaultActionWrite h
  | faultInjectArm => exact kept_execFaultInjectArm h
  | errnHeartbeat => exact kept_execErrnHeartbeat h
  | hubReset => exact kept_execHubReset h
  | startComplete => exact kept_execStartComplete h
  | startWatchdogExpiry => exact kept_execStartWatchdogExpiry h
  | mgtWatchdogExpiry => exact kept_execMgtWatchdogExpiry h
  | handoverRecordWrite => exact kept_execHandoverRecordWrite h
  | peelDeferCheck => exact kept_execPeelDeferCheck h
  | peelDeferLong => exact kept_execPeelDeferLong h
  | peelFreeze => exact kept_execPeelFreeze h
  | peelJump => exact kept_execPeelJump h
  | peelResume => exact kept_execPeelResume h
  | peelResumeTimeout => exact kept_execPeelResumeTimeout h
  | peelCommit => exact kept_execPeelCommit h
  | pldmGetTid => exact kept_execPldmGetTid h
  | pldmGetPldmVersion => exact kept_execPldmGetPldmVersion h
  | pldmGetPldmTypes => exact kept_execPldmGetPldmTypes h
  | pldmGetPldmCommands => exact kept_execPldmGetPldmCommands h
  | pldmSensorRead => exact kept_execPldmSensorRead h
  | pldmFwTransfer => exact kept_execPldmFwTransfer h
  | pldmActivateFirmware => exact kept_execPldmActivateFirmware h
  | cxlIoRequest => exact kept_execCxlIoRequest h
  | proofPortUp => exact kept_execProofPortUp h
  | busMasterEnable => exact kept_execBusMasterEnable h
  | d0Entry => exact kept_execD0Entry h
  | atsEnable => exact kept_execAtsEnable h
  | priEnable => exact kept_execPriEnable h
  | throtNRelease => exact kept_execThrotNRelease h
  | tileRestart => exact kept_execTileRestart h
  | droopStretchEnd => exact kept_execDroopStretchEnd h
  | pcieLinkUp => exact kept_execPcieLinkUp h
  | hostCompletionTimeout => exact kept_execHostCompletionTimeout h
  | flashWriteDone => exact kept_execFlashWriteDone h
  | mgtHalt => exact kept_execMgtHalt h
  | powerOverride => exact kept_execPowerOverride h
  | hbmHardRepair => exact kept_execHbmHardRepair h

/-- A step keeps the canonical form and the burnt bits, whether it is a tick on an empty queue or the command at the queue's front. -/
theorem canon_and_otpLe_step {s t : State} (canon : Canon s) (h : step s = .next t) : Canon t ∧ OtpLe s.lcs.otp t.lcs.otp := by
  unfold step at h
  split at h
  case h_1 =>
    injection h with h
    subst h
    exact (kept_servePldm (kept_idleTick (Kept.refl s))).canon canon
  case h_2 => exact (kept_exec h).canon canon

end Sys2Proof.Laws
end

section
/-! SUPPORT. The life-cycle fields under burning (R625, R626, R628): more burnt bits never make a field read as less burnt, so they
never lower the life-cycle state. -/
namespace Sys2Proof.Machine
open Sys2Proof Sys2Proof.Safety

/-- More set bits, more ones. -/
theorem popcount_mono {x y : Nat} (n : Nat) (covers : ∀ i, x.testBit i = true → y.testBit i = true) : popcount n x ≤ popcount n y :=
  (List.monotone_filter_right (List.range n) covers).length_le

/-- A field reads as burnt when at least two of its three copies hold at least 12 ones. -/
theorem burnt_iff (o : Otp) (f : Nat) :
    burnt o f = true ↔
      2 ≤ ((List.range 3).filter fun c => decide (12 ≤ popcount 16 (Tab.get 0 o.fields (f * 3 + c)).toNat)).length := by
  simp [burnt, copies, List.filter_map, Function.comp_def]

/-- A field that reads as burnt goes on doing so: every copy that counted still counts. -/
theorem burnt_mono {a b : Otp} (le : OtpLe a b) {f : Nat} (h : burnt a f = true) : burnt b f = true := by
  obtain ⟨fields, -⟩ := le
  have copy_mono : ∀ c, decide (12 ≤ popcount 16 (Tab.get 0 a.fields (f * 3 + c)).toNat) = true →
      decide (12 ≤ popcount 16 (Tab.get 0 b.fields (f * 3 + c)).toNat) = true := by
    intro c h12
    have ones := popcount_mono 16 (fields (f * 3 + c))
    simp only [decide_eq_true_eq] at h12 ⊢
    exact h12.trans ones
  rw [burnt_iff] at h ⊢
  exact h.trans (List.monotone_filter_right (List.range 3) copy_mono).length_le

/-- The code of the state is above the number of every field that reads as burnt. -/
theorem lt_lifeCycle_of_burnt {s : State} {f : Nat} (below : f < 4) (burns : burnt s.lcs.otp f = true) : f < lifeCycle s := by
  unfold lifeCycle
  dsimp only
  interval_cases f <;> rw [if_pos burns]
  · split_ifs <;> decide
  · split_ifs <;> decide
  · split_ifs <;> decide
  · decide

/-- A state other than MAKER is that of a field which reads as burnt. -/
theorem lifeCycle_eq_zero_or_burnt (s : State) :
    lifeCycle s = 0 ∨ ∃ f < 4, lifeCycle s = f + 1 ∧ burnt s.lcs.otp f = true := by
  unfold lifeCycle
  dsimp only
  split_ifs with scrap returned fielded integrator
  · exact .inr ⟨3, by decide, rfl, scrap⟩
  · exact .inr ⟨2, by decide, rfl, returned⟩
  · exact .inr ⟨1, by decide, rfl, fielded⟩
  · exact .inr ⟨0, by decide, rfl, integrator⟩
  · exact .inl rfl

/-- Burning never lowers the life-cycle state: the field that gives it still reads as burnt. -/
theorem lifeCycle_mono {s t : State} (le : OtpLe s.lcs.otp t.lcs.otp) : lifeCycle s ≤ lifeCycle t := by
  obtain maker | ⟨f, below, code, burns⟩ := lifeCycle_eq_zero_or_burnt s
  · omega
  · have := lt_lifeCycle_of_burnt below (burnt_mono le burns)
    omega

end Sys2Proof.Machine

namespace Sys2Proof.Proofs
open Sys2Proof Sys2Proof.Machine

/-- Settles O10: the code follows the order in which the four fields are asked, and it cannot fall since a step only burns bits. -/
theorem lifeCycleNeverGoesBack : Obligations.LifeCycleNeverGoesBack := by
  unfold Obligations.LifeCycleNeverGoesBack
  refine ⟨fun s => ⟨?_, ?_, ?_, ?_, ?_⟩, fun s t canon h => lifeCycle_mono (Laws.canon_and_otpLe_step canon h).2⟩
  · intro scrap
    simp [lifeCycle, scrap]
  · intro scrap returned
    simp [lifeCycle, scrap, returned]
  · intro scrap returned fielded
    simp [lifeCycle, scrap, returned, fielded]
  · intro scrap returned fielded integrator
    simp [lifeCycle, scrap, returned, fielded, integrator]
  · intro scrap returned fielded integrator
    simp [lifeCycle, scrap, returned, fielded, integrator]

end Sys2Proof.Proofs
end

section
/-! SUPPORT. The frame of every command by one mask: which areas of the state a command may change, and what that says of memory, of
the areas that only few commands change, and of the network. -/
namespace Sys2Proof
open Sys2Proof

/-! ### Entries of a table -/

/-- A listed entry of a table with rising keys is what the table reads at its key. -/
theorem Tab.get_of_mem {α : Type} {d v : α} {k : Nat} :
    ∀ {t : Tab α} {lo : Nat}, Tab.risesFrom lo t = true → (k, v) ∈ t → Tab.get d t k = v
  | (j, w) :: t, lo, rises, mem => by
    simp only [Tab.risesFrom, Bool.and_eq_true] at rises
    rcases List.mem_cons.mp mem with here | there
    · cases here
      simp [Tab.get]
    · have above : ¬ (k < j + 1) := fun below => by
        have key : ∀ {t : Tab α} {lo : Nat}, Tab.risesFrom lo t = true → (k, v) ∈ t → lo ≤ k := by
          intro t
          induction t with
          | nil => intro _ _ none; cases none
          | cons e t ih =>
            intro lo rises mem
            simp only [Tab.risesFrom, Bool.and_eq_true, decide_eq_true_eq] at rises
            rcases List.mem_cons.mp mem with rfl | there
            · exact rises.1
            · have := ih rises.2 there
              omega
        have := key rises.2 there
        omega
      have ne : j ≠ k := by omega
      have notBelow : ¬ k < j := by omega
      simpa [Tab.get, ne, notBelow] using Tab.get_of_mem rises.2 there

/-- What a table reads is its default or a listed entry. -/
theorem Tab.get_eq_or_mem {α : Type} (d : α) (k : Nat) : ∀ t : Tab α, Tab.get d t k = d ∨ (k, Tab.get d t k) ∈ t
  | [] => .inl rfl
  | (j, w) :: t => by
    unfold Tab.get
    split
    · next h => exact .inr (h ▸ List.mem_cons_self)
    · split
      · exact .inl rfl
      · exact (Tab.get_eq_or_mem d k t).imp_right (List.mem_cons_of_mem _)

/-- A table that only lost entries reads as before, or its default. -/
theorem Tab.get_of_sublist {α : Type} {d : α} {t u : Tab α} (sub : List.Sublist t u) (rises : Tab.rises u = true) (k : Nat) :
    Tab.get d t k = Tab.get d u k ∨ Tab.get d t k = d :=
  (Tab.get_eq_or_mem d k t).symm.imp_left fun mem => (Tab.get_of_mem rises (sub.mem mem)).symm

end Sys2Proof

namespace Sys2Proof.Laws
open Sys2Proof Sys2Proof.Machine Sys2Proof.Safety

/-- The areas of the state that a command may change, as a mask of the relation `Frm`. -/
def changes : Instr → Nat
  | .stepRelease .. | .budgetEnd .. | .localArrival .. | .localRelease .. | .arriveToken .. | .releaseToken .. |
    .holdToken .. | .lateLimitExpiry .. | .xfeComplete .. | .zeroingDone .. | .rowRepair .. | .rdCur .. | .rdShared .. |
    .rdOwn .. | .upgrade .. | .evictClean .. | .wbDirty .. | .snpRsp .. | .snpRspData .. | .ack .. | .snoopTimeout .. |
    .flushTimeout .. | .cxlRdcurr .. | .cxlRdshared .. | .cxlRdany .. | .cxlRdown .. | .cxlRdownnodata .. |
    .cxlClflush .. | .cxlCleanevict .. | .cxlDirtyevict .. | .cxlItomwr .. | .cxlSnoopResponse .. | .cxlGoAcked .. |
    .colOpComplete .. => 1
  | .hwtCommit .. | .hwtCommitDrained .. => 2
  | .siteTrainingDone .. | .siteRetrainDone .. => 16
  | .tapClose .. | .dbgClose .. | .debugDurationExpiry .. | .tapBypass .. | .tapIdcode .. | .tapExtest .. |
    .tapSamplePreload .. => 64
  | .openErase .. | .openCert .. => 80
  | .hbmTempSample .. | .powerOverride .. => 128
  | .proofPortDown .. | .proofPortUp .. => 256
  | .siteAckTimeout .. => 512
  | .mbxSelectWrite .. | .mbxCaptureDone .. => 1024
  | .regReadClear .. | .indDataAccess .. | .regRead .. => 2048
  | .partialImageActivate .. => 8328
  | .mbStatus .. | .readReport .. | .peelCancel .. | .mbReservedOpcode .. => 16384
  | .mapDevice .. | .unmapDevice .. => 16389
  | .advanceRollback .. => 16400
  | .otpProgram .. => 16402
  | .loadImage .. | .imageFetchDone .. | .writeBootImage .. | .drvLeaseExpiry .. | .drvDetach .. |
    .busMasterDisable .. | .d3hotEntry .. | .pcieLinkDown .. => 24578
  | .fullImageActivate .. => 24719
  | .functionLevelReset .. | .perstAssert .. => 28674
  | .timeSyncTimer .. | .timeResp .. | .timeParentLost .. => 32768
  | .rcvDataWrite .. | .startComplete .. | .peelCommit .. | .pldmGetTid .. | .pldmGetPldmVersion .. |
    .pldmGetPldmTypes .. | .pldmGetPldmCommands .. | .pldmSensorRead .. | .pldmFwTransfer .. |
    .pldmActivateFirmware .. => 65536
  | .recoveryLoadBegin .. | .recoveryLoadRun .. | .requestCold .. => 81920
  | .fwUpdate .. => 81922
  | .imageValidationDone .. | .mgtWatchdogExpiry .. => 90114
  | .nocReadData .. | .nocWriteAck .. | .nocRefuse .. => 131072
  | .nocRead .. | .nocWrite .. => 131073
  | .retryStart .. | .inputCurrentTrip .. | .thermalSample .. | .powerOn .. | .inputUndervoltage .. |
    .inputOvervoltage .. => 262126
  | .lcsRequest .. | .powerControlTick .. | .peelFreeze .. | .peelJump .. | .peelResume .. | .peelResumeTimeout .. |
    .flashWriteDone .. => 262142
  | .regWrite .. | .hubReset .. | .startWatchdogExpiry .. | .tileRestart .. => 262143
  | _ => 0

/-- Every command leaves alone what its own lemma says it leaves alone. -/
theorem frm_exec {c : Instr} {s t : State} (h : exec c s = .next t) : Frm (changes c) s t := by
  cases c with
  | regWrite => exact frm_execRegWrite h
  | regReadClear => exact frm_execRegReadClear h
  | indDataAccess => exact frm_execIndDataAccess h
  | mbxSelectWrite => exact frm_execMbxSelectWrite h
  | mbxCaptureDone => exact frm_execMbxCaptureDone h
  | regReadTimeout => exact frm_execRegReadTimeout h
  | mbStatus => exact frm_execMbStatus h
  | loadImage => exact frm_execLoadImage h
  | imageFetchDone => exact frm_execImageFetchDone h
  | imageValidationDone => exact frm_execImageValidationDone h
  | fullImageActivate => exact frm_execFullImageActivate h
  | partialImageActivate => exact frm_execPartialImageActivate h
  | readReport => exact frm_execReadReport h
  | writeBootImage => exact frm_execWriteBootImage h
  | fwUpdate => exact frm_execFwUpdate h
  | peelCancel => exact frm_execPeelCancel h
  | advanceRollback => exact frm_execAdvanceRollback h
  | mapDevice => exact frm_execMapDevice h
  | unmapDevice => exact frm_execUnmapDevice h
  | retryStart => exact frm_execRetryStart h
  | recoveryLoadBegin => exact frm_execRecoveryLoadBegin h
  | recoveryLoadRun => exact frm_execRecoveryLoadRun h
  | rcvDataWrite => exact frm_execRcvDataWrite h
  | requestCold => exact frm_execRequestCold h
  | otpProgram => exact frm_execOtpProgram h
  | mbReservedOpcode => exact frm_execMbReservedOpcode h
  | stepRelease => exact frm_execStepRelease h
  | fetchSlot => exact frm_execFetchSlot h
  | budgetEnd => exact frm_execBudgetEnd h
  | localArrival => exact frm_execLocalArrival h
  | localRelease => exact frm_execLocalRelease h
  | arriveToken => exact frm_execArriveToken h
  | releaseToken => exact frm_execReleaseToken h
  | holdToken => exact frm_execHoldToken h
  | breakToken => exact frm_execBreakToken h
  | lateLimitExpiry => exact frm_execLateLimitExpiry h
  | proofTimeoutExpiry => exact frm_execProofTimeoutExpiry h
  | readyTimeout => exact frm_execReadyTimeout h
  | timeSyncTimer => exact frm_execTimeSyncTimer h
  | timeReq => exact frm_execTimeReq h
  | timeResp => exact frm_execTimeResp h
  | timeParentLost => exact frm_execTimeParentLost h
  | proofPortDown => exact frm_execProofPortDown h
  | siteArriveIn => exact frm_execSiteArriveIn h
  | siteReleaseIn => exact frm_execSiteReleaseIn h
  | siteAckTimeout => exact frm_execSiteAckTimeout h
  | partHold => exact frm_execPartHold h
  | partRelease => exact frm_execPartRelease h
  | partRemeasure => exact frm_execPartRemeasure h
  | starterArm => exact frm_execStarterArm h
  | stepCounterArm => exact frm_execStepCounterArm h
  | uNop => exact frm_execUNop h
  | uEnd => exact frm_execUEnd h
  | uLoop => exact frm_execULoop h
  | uWaitp => exact frm_execUWaitp h
  | uSync => exact frm_execUSync h
  | uLd => exact frm_execULd h
  | uSt => exact frm_execUSt h
  | uGet => exact frm_execUGet h
  | uPut => exact frm_execUPut h
  | uLdc => exact frm_execULdc h
  | uAdd => exact frm_execUAdd h
  | uSub => exact frm_execUSub h
  | uMul => exact frm_execUMul h
  | uFma => exact frm_execUFma h
  | uMax => exact frm_execUMax h
  | uMin => exact frm_execUMin h
  | uSel => exact frm_execUSel h
  | uDot => exact frm_execUDot h
  | uCvt => exact frm_execUCvt h
  | uMxpack => exact frm_execUMxpack h
  | uMxunpack => exact frm_execUMxunpack h
  | uSfu => exact frm_execUSfu h
  | uLsum => exact frm_execULsum h
  | uGmax => exact frm_execUGmax h
  | uGq => exact frm_execUGq h
  | uGadd => exact frm_execUGadd h
  | uGrnd => exact frm_execUGrnd h
  | uGather => exact frm_execUGather h
  | uScatter => exact frm_execUScatter h
  | uShuf => exact frm_execUShuf h
  | uCmul => exact frm_execUCmul h
  | uRng => exact frm_execURng h
  | cellFault => exact frm_execCellFault h
  | fabColFence => exact frm_execFabColFence h
  | fabColRemap => exact frm_execFabColRemap h
  | cfgBcast => exact frm_execCfgBcast h
  | xfeDescArrive => exact frm_execXfeDescArrive h
  | xfeWaitSatisfied => exact frm_execXfeWaitSatisfied h
  | xfeComplete => exact frm_execXfeComplete h
  | xfeAbort => exact frm_execXfeAbort h
  | xfeFence => exact frm_execXfeFence h
  | xfeReadmit => exact frm_execXfeReadmit h
  | atsTranslationCompletion => exact frm_execAtsTranslationCompletion h
  | prgResponse => exact frm_execPrgResponse h
  | faultLimitExpiry => exact frm_execFaultLimitExpiry h
  | atsInvalidate => exact frm_execAtsInvalidate h
  | invalidateCompletion => exact frm_execInvalidateCompletion h
  | hostReadCompletion => exact frm_execHostReadCompletion h
  | hwtCommit => exact frm_execHwtCommit h
  | hwtCommitDrained => exact frm_execHwtCommitDrained h
  | nocRead => exact frm_execNocRead h
  | nocWrite => exact frm_execNocWrite h
  | nocReadData => exact frm_execNocReadData h
  | nocWriteAck => exact frm_execNocWriteAck h
  | nocRefuse => exact frm_execNocRefuse h
  | regRead => exact frm_execRegRead h
  | regResp => exact frm_execRegResp h
  | faultSignal => exact frm_execFaultSignal h
  | respTimeout => exact frm_execRespTimeout h
  | sliceStall => exact frm_execSliceStall h
  | qosMissWindowExpiry => exact frm_execQosMissWindowExpiry h
  | hbmScrub => exact frm_execHbmScrub h
  | sramScrub => exact frm_execSramScrub h
  | hbmTempSample => exact frm_execHbmTempSample h
  | hbmRecalibration => exact frm_execHbmRecalibration h
  | zeroingDone => exact frm_execZeroingDone h
  | rowRepair => exact frm_execRowRepair h
  | srmBankFence => exact frm_execSrmBankFence h
  | srmBankReadmit => exact frm_execSrmBankReadmit h
  | memChFence => exact frm_execMemChFence h
  | memChReadmit => exact frm_execMemChReadmit h
  | cohWinWrite => exact frm_execCohWinWrite h
  | stackRailShort => exact frm_execStackRailShort h
  | siteAdmissionStart => exact frm_execSiteAdmissionStart h
  | siteCoreRegulated => exact frm_execSiteCoreRegulated h
  | siteRailsTimeout => exact frm_execSiteRailsTimeout h
  | sidebandDetected => exact frm_execSidebandDetected h
  | sidebandTimeout => exact frm_execSidebandTimeout h
  | siteTrainingDone => exact frm_execSiteTrainingDone h
  | negotiateTimeout => exact frm_execNegotiateTimeout h
  | attestComplete => exact frm_execAttestComplete h
  | attestTimeout => exact frm_execAttestTimeout h
  | crustLoaded => exact frm_execCrustLoaded h
  | configTimeout => exact frm_execConfigTimeout h
  | siteLinkError => exact frm_execSiteLinkError h
  | siteRetrainDone => exact frm_execSiteRetrainDone h
  | siteRetrainTimeout => exact frm_execSiteRetrainTimeout h
  | siteRailShort => exact frm_execSiteRailShort h
  | sitFence => exact frm_execSitFence h
  | sitReadmit => exact frm_execSitReadmit h
  | sitRetrain => exact frm_execSitRetrain h
  | sitVsetWrite => exact frm_execSitVsetWrite h
  | rdNc => exact frm_execRdNc h
  | wr => exact frm_execWr h
  | rdData => exact frm_execRdData h
  | cmp => exact frm_execCmp h
  | rdCur => exact frm_execRdCur h
  | wrPart => exact frm_execWrPart h
  | rdShared => exact frm_execRdShared h
  | rdOwn => exact frm_execRdOwn h
  | upgrade => exact frm_execUpgrade h
  | evictClean => exact frm_execEvictClean h
  | wbDirty => exact frm_execWbDirty h
  | snpRsp => exact frm_execSnpRsp h
  | snpRspData => exact frm_execSnpRspData h
  | ack => exact frm_execAck h
  | identity => exact frm_execIdentity h
  | arriveInfo => exact frm_execArriveInfo h
  | voltReq => exact frm_execVoltReq h
  | credit => exact frm_execCredit h
  | occupantRspTimeout => exact frm_execOccupantRspTimeout h
  | snoopTimeout => exact frm_execSnoopTimeout h
  | flushTimeout => exact frm_execFlushTimeout h
  | cachingSiteFlushDone => exact frm_execCachingSiteFlushDone h
  | cxlRdcurr => exact frm_execCxlRdcurr h
  | cxlRdshared => exact frm_execCxlRdshared h
  | cxlRdany => exact frm_execCxlRdany h
  | cxlRdown => exact frm_execCxlRdown h
  | cxlRdownnodata => exact frm_execCxlRdownnodata h
  | cxlClflush => exact frm_execCxlClflush h
  | cxlCleanevict => exact frm_execCxlCleanevict h
  | cxlDirtyevict => exact frm_execCxlDirtyevict h
  | cxlItomwr => exact frm_execCxlItomwr h
  | cxlCacheflushed => exact frm_execCxlCacheflushed h
  | cxlSnoopResponse => exact frm_execCxlSnoopResponse h
  | cxlUnlistedD2h => exact frm_execCxlUnlistedD2h h
  | cxlGoAcked => exact frm_execCxlGoAcked h
  | cxlMemResponse => exact frm_execCxlMemResponse h
  | stlTrainingDone => exact frm_execStlTrainingDone h
  | stlTrainingTimeout => exact frm_execStlTrainingTimeout h
  | stlLinkLoss => exact frm_execStlLinkLoss h
  | stlRetrainDone => exact frm_execStlRetrainDone h
  | stlRetrainTimeout => exact frm_execStlRetrainTimeout h
  | stlPortFence => exact frm_execStlPortFence h
  | stlPortReadmit => exact frm_execStlPortReadmit h
  | stlPortRetrain => exact frm_execStlPortRetrain h
  | slotReceive => exact frm_execSlotReceive h
  | nakBlock => exact frm_execNakBlock h
  | abortBlock => exact frm_execAbortBlock h
  | stlCredit => exact frm_execStlCredit h
  | linkBlock => exact frm_execLinkBlock h
  | serdesRefclkLost => exact frm_execSerdesRefclkLost h
  | colWaitSatisfied => exact frm_execColWaitSatisfied h
  | colOpComplete => exact frm_execColOpComplete h
  | colAbort => exact frm_execColAbort h
  | colFence => exact frm_execColFence h
  | colReadmit => exact frm_execColReadmit h
  | vifAttach => exact frm_execVifAttach h
  | vifDetach => exact frm_execVifDetach h
  | vifLease => exact frm_execVifLease h
  | leaseWarn => exact frm_execLeaseWarn h
  | leaseExpiry => exact frm_execLeaseExpiry h
  | pfQuiesce => exact frm_execPfQuiesce h
  | pfDetach => exact frm_execPfDetach h
  | ringReadCompletion => exact frm_execRingReadCompletion h
  | cmdNop => exact frm_execCmdNop h
  | cmdTransfer => exact frm_execCmdTransfer h
  | cmdBarrier => exact frm_execCmdBarrier h
  | cmdWaitStep => exact frm_execCmdWaitStep h
  | hstAttach => exact frm_execHstAttach h
  | hstDrvLease => exact frm_execHstDrvLease h
  | drvLeaseExpiry => exact frm_execDrvLeaseExpiry h
  | drvDetach => exact frm_execDrvDetach h
  | busMasterDisable => exact frm_execBusMasterDisable h
  | functionLevelReset => exact frm_execFunctionLevelReset h
  | perstAssert => exact frm_execPerstAssert h
  | perstRelease => exact frm_execPerstRelease h
  | d3hotEntry => exact frm_execD3hotEntry h
  | pcieLinkDown => exact frm_execPcieLinkDown h
  | interruptDisableWrite => exact frm_execInterruptDisableWrite h
  | spdmGetVersion => exact frm_execSpdmGetVersion h
  | spdmGetCapabilities => exact frm_execSpdmGetCapabilities h
  | spdmNegotiateAlgorithms => exact frm_execSpdmNegotiateAlgorithms h
  | spdmGetDigests => exact frm_execSpdmGetDigests h
  | spdmGetCertificate => exact frm_execSpdmGetCertificate h
  | spdmChallenge => exact frm_execSpdmChallenge h
  | spdmGetMeasurements => exact frm_execSpdmGetMeasurements h
  | sealOpen => exact frm_execSealOpen h
  | sealOpenComplete => exact frm_execSealOpenComplete h
  | sealClose => exact frm_execSealClose h
  | secSealClose => exact frm_execSecSealClose h
  | keySlotWipe => exact frm_execKeySlotWipe h
  | keySlotFault => exact frm_execKeySlotFault h
  | entropyFail => exact frm_execEntropyFail h
  | lcsRequest => exact frm_execLcsRequest h
  | openErase => exact frm_execOpenErase h
  | openCert => exact frm_execOpenCert h
  | tapClose => exact frm_execTapClose h
  | dbgClose => exact frm_execDbgClose h
  | debugDurationExpiry => exact frm_execDebugDurationExpiry h
  | tapBypass => exact frm_execTapBypass h
  | tapIdcode => exact frm_execTapIdcode h
  | tapExtest => exact frm_execTapExtest h
  | tapSamplePreload => exact frm_execTapSamplePreload h
  | powerControlTick => exact frm_execPowerControlTick h
  | powerSample1ms => exact frm_execPowerSample1ms h
  | calibrationUpdate => exact frm_execCalibrationUpdate h
  | tileFail => exact frm_execTileFail h
  | inputCurrentTrip => exact frm_execInputCurrentTrip h
  | supplyDroop => exact frm_execSupplyDroop h
  | fclkAdjust => exact frm_execFclkAdjust h
  | thermalSample => exact frm_execThermalSample h
  | throtNAssert => exact frm_execThrotNAssert h
  | rackBudgetSet => exact frm_execRackBudgetSet h
  | powerOn => exact frm_execPowerOn h
  | inputUndervoltage => exact frm_execInputUndervoltage h
  | inputOvervoltage => exact frm_execInputOvervoltage h
  | faultDetect => exact frm_execFaultDetect h
  | graceExpiry => exact frm_execGraceExpiry h
  | faultStatusClear => exact frm_execFaultStatusClear h
  | faultAck => exact frm_execFaultAck h
  | faultMaskWrite => exact frm_execFaultMaskWrite h
  | faultActionWrite => exact frm_execFaultActionWrite h
  | faultInjectArm => exact frm_execFaultInjectArm h
  | errnHeartbeat => exact frm_execErrnHeartbeat h
  | hubReset => exact frm_execHubReset h
  | startComplete => exact frm_execStartComplete h
  | startWatchdogExpiry => exact frm_execStartWatchdogExpiry h
  | mgtWatchdogExpiry => exact frm_execMgtWatchdogExpiry h
  | handoverRecordWrite => exact frm_execHandoverRecordWrite h
  | peelDeferCheck => exact frm_execPeelDeferCheck h
  | peelDeferLong => exact frm_execPeelDeferLong h
  | peelFreeze => exact frm_execPeelFreeze h
  | peelJump => exact frm_execPeelJump h
  | peelResume => exact frm_execPeelResume h
  | peelResumeTimeout => exact frm_execPeelResumeTimeout h
  | peelCommit => exact frm_execPeelCommit h
  | pldmGetTid => exact frm_execPldmGetTid h
  | pldmGetPldmVersion => exact frm_execPldmGetPldmVersion h
  | pldmGetPldmTypes => exact frm_execPldmGetPldmTypes h
  | pldmGetPldmCommands => exact frm_execPldmGetPldmCommands h
  | pldmSensorRead => exact frm_execPldmSensorRead h
  | pldmFwTransfer => exact frm_execPldmFwTransfer h
  | pldmActivateFirmware => exact frm_execPldmActivateFirmware h
  | cxlIoRequest => exact frm_execCxlIoRequest h
  | proofPortUp => exact frm_execProofPortUp h
  | busMasterEnable => exact frm_execBusMasterEnable h
  | d0Entry => exact frm_execD0Entry h
  | atsEnable => exact frm_execAtsEnable h
  | priEnable => exact frm_execPriEnable h
  | throtNRelease => exact frm_execThrotNRelease h
  | tileRestart => exact frm_execTileRestart h
  | droopStretchEnd => exact frm_execDroopStretchEnd h
  | pcieLinkUp => exact frm_execPcieLinkUp h
  | hostCompletionTimeout => exact frm_execHostCompletionTimeout h
  | flashWriteDone => exact frm_execFlashWriteDone h
  | mgtHalt => exact frm_execMgtHalt h
  | powerOverride => exact frm_execPowerOverride h
  | hbmHardRepair => exact frm_execHbmHardRepair h

/-! ### Which commands may change an area -/

theorem changes_memory (c : Instr) : storesData c = false → (changes c).testBit 0 = false := by
  cases c <;> intro h <;> first | (cases h; done) | (conv => lhs; arg 1; whnf)
  all_goals rfl

theorem changes_windows (c : Instr) : mayReset c = false → setsWindows c = false → (changes c).testBit 1 = false := by
  cases c <;> intro h k <;> first | (cases h; done) | (cases k; done) | (conv => lhs; arg 1; whnf)
  all_goals rfl

theorem changes_mappings (c : Instr) : mayReset c = false → setsMappings c = false → (changes c).testBit 2 = false := by
  cases c <;> intro h k <;> first | (cases h; done) | (cases k; done) | (conv => lhs; arg 1; whnf)
  all_goals rfl

theorem changes_image (c : Instr) : mayReset c = false → setsImage c = false → (changes c).testBit 3 = false := by
  cases c <;> intro h k <;> first | (cases h; done) | (cases k; done) | (conv => lhs; arg 1; whnf)
  all_goals rfl

theorem changes_otp (c : Instr) : burnsOtp c = false → (changes c).testBit 4 = false := by
  cases c <;> intro h <;> first | (cases h; done) | (conv => lhs; arg 1; whnf)
  all_goals rfl

theorem changes_life (c : Instr) : mayReset c = false → (changes c).testBit 5 = false := by
  cases c <;> intro h <;> first | (cases h; done) | (conv => lhs; arg 1; whnf)
  all_goals rfl

theorem changes_debug (c : Instr) : mayReset c = false → touchesDebug c = false → (changes c).testBit 6 = false := by
  cases c <;> intro h k <;> first | (cases h; done) | (cases k; done) | (conv => lhs; arg 1; whnf)
  all_goals rfl

theorem changes_thermal (c : Instr) : mayReset c = false → setsThermal c = false → (changes c).testBit 7 = false := by
  cases c <;> intro h k <;> first | (cases h; done) | (cases k; done) | (conv => lhs; arg 1; whnf)
  all_goals rfl

theorem changes_ports (c : Instr) : mayReset c = false → setsProofPorts c = false → (changes c).testBit 8 = false := by
  cases c <;> intro h k <;> first | (cases h; done) | (cases k; done) | (conv => lhs; arg 1; whnf)
  all_goals rfl

theorem changes_captures (c : Instr) (reset : mayReset c = false) (select : ∀ who m v, c ≠ .mbxSelectWrite who m v)
    (capture : ∀ who m, c ≠ .mbxCaptureDone who m) : (changes c).testBit 10 = false := by
  cases c <;> first | (cases reset; done) | exact absurd rfl (select _ _ _) | exact absurd rfl (capture _ _) | (conv => lhs; arg 1; whnf)
  all_goals rfl

theorem changes_pairs (c : Instr) (reset : mayReset c = false) (read : ∀ p a, c ≠ .regReadClear p a)
    (access : ∀ who w v, c ≠ .indDataAccess who w v) (packet : ∀ n g a, c ≠ .regRead n g a) : (changes c).testBit 11 = false := by
  cases c <;> first | (cases reset; done) | exact absurd rfl (read _ _) | exact absurd rfl (access _ _ _) | exact absurd rfl (packet _ _ _) | (conv => lhs; arg 1; whnf)
  all_goals rfl

theorem changes_acks (c : Instr) (reset : mayReset c = false) (expiry : ∀ n, c ≠ .siteAckTimeout n) : (changes c).testBit 9 = false := by
  cases c <;> first | (cases reset; done) | exact absurd rfl (expiry _) | (conv => lhs; arg 1; whnf)
  all_goals rfl

theorem changes_regs (c : Instr) (reset : mayReset c = false) (flr : c ≠ .functionLevelReset) (perst : c ≠ .perstAssert) :
    (changes c).testBit 12 = false := by
  cases c <;> first | (cases reset; done) | exact absurd rfl flr | exact absurd rfl perst | (conv => lhs; arg 1; whnf)
  all_goals rfl

end Sys2Proof.Laws

namespace Sys2Proof.Proofs
open Sys2Proof Sys2Proof.Machine Sys2Proof.Safety

/-- Settles O4: the canonical form is part of what every step keeps. -/
theorem stepKeepsCanonicalForm : Obligations.StepKeepsCanonicalForm := by
  unfold Obligations.StepKeepsCanonicalForm
  exact fun _ _ canon h => (Laws.canon_and_otpLe_step canon h).1

/-- Settles O9: that burning only sets bits is part of what every step keeps. -/
theorem otpBitsAreOnlySet : Obligations.OtpBitsAreOnlySet := by
  unfold Obligations.OtpBitsAreOnlySet
  exact fun _ _ canon h => (Laws.canon_and_otpLe_step canon h).2

/-- What has been sent and the count of free values drawn, across a step: the tick keeps them, and a command's lemma says so of the
command, whose state has the rest of the queue. -/
theorem step_keeps_output {s t : State} (h : step s = .next t) : s.out <:+ t.out ∧ s.free ≤ t.free := by
  unfold step at h
  split at h
  case h_1 =>
    injection h with h
    subst h
    have kept := Laws.kept_servePldm (Laws.kept_idleTick (Laws.Kept.refl s))
    exact ⟨kept.sent, kept.drawn⟩
  case h_2 c rest _ =>
    have kept := Laws.kept_exec h
    exact ⟨kept.sent, kept.drawn⟩

/-- Settles O3: the queue, the output and the draws are part of what every command keeps. -/
theorem queueAndOutputKept : Obligations.QueueAndOutputKept := by
  unfold Obligations.QueueAndOutputKept
  refine ⟨fun _ _ _ h => (Laws.kept_exec h).queue, fun s t h => ?_⟩
  obtain ⟨⟨new, sent⟩, drawn⟩ := step_keeps_output h
  exact ⟨⟨new, sent.symm⟩, drawn⟩

/-- Settles O11: a passing write is a write of its bytes, and a command that stores no data only drops entries of memory. -/
theorem memoryAndWhatStoresInIt : Obligations.MemoryAndWhatStoresInIt := by
  unfold Obligations.MemoryAndWhatStoresInIt
  refine ⟨fun s g pa bs poison wf => ?_, fun c s t canon h noData a => ?_⟩
  · have owned : (s.setGranule g { s.granule g with zeroed := false }).mem.wf := by
      obtain ⟨bytes, marks, own, rest⟩ := wf
      exact ⟨bytes, marks, Tab.wf_set own _ _, rest⟩
    have byte : ∀ a, (memPut s g pa bs poison).mem.byte a =
        ((s.setGranule g { s.granule g with zeroed := false }).mem.write pa bs).byte a :=
      fun a => congrArg (fun t => Tab.get 0#8 t a) (Mem.bytes_store _ _ _ _)
    refine ⟨fun i inside => ?_, fun a outside => ?_, Mem.wf_store owned _ _ _⟩
    · rw [byte, Mem.byte_write_inside owned _ _ _ inside]
      rfl
    · rw [byte, Mem.byte_write_outside owned _ _ outside]
      rfl
  · obtain ⟨⟨bytes, -⟩, -⟩ := canon
    exact Tab.get_of_sublist ((Laws.frm_exec h).memory (Laws.changes_memory c noData)) (Tab.wf_rises bytes) a

/-- Settles O12: each area is outside the mask of every command that is not named for it. -/
theorem whatOnlyTheseCommandsChange : Obligations.WhatOnlyTheseCommandsChange := by
  unfold Obligations.WhatOnlyTheseCommandsChange
  refine ⟨fun c s t h reset => ⟨fun w => ?_, fun m => ?_⟩, fun c s t h reset i => ?_, fun c s t h => ⟨fun b => ?_, fun reset => ?_⟩,
    fun c s t h reset => ⟨fun d => ?_, fun th => ?_, fun p => ?_⟩,
    fun c s t h reset => ⟨fun select capture => ?_, fun read access packet => ?_, fun expiry => ?_, fun flr perst => ?_⟩⟩
  · exact (Laws.frm_exec h).windows (Laws.changes_windows c reset w)
  · exact (Laws.frm_exec h).mappings (Laws.changes_mappings c reset m)
  · exact (Laws.frm_exec h).image (Laws.changes_image c reset i)
  · exact (Laws.frm_exec h).otp (Laws.changes_otp c b)
  · exact (Laws.frm_exec h).life (Laws.changes_life c reset)
  · exact (Laws.frm_exec h).debug (Laws.changes_debug c reset d)
  · exact (Laws.frm_exec h).thermal (Laws.changes_thermal c reset th)
  · exact (Laws.frm_exec h).ports (Laws.changes_ports c reset p)
  · exact (Laws.frm_exec h).captures (Laws.changes_captures c reset select capture)
  · exact (Laws.frm_exec h).pairs (Laws.changes_pairs c reset read access packet)
  · exact (Laws.frm_exec h).acks (Laws.changes_acks c reset expiry)
  · exact (Laws.frm_exec h).regs (Laws.changes_regs c reset flr perst)

end Sys2Proof.Proofs
end

section
/-! SUPPORT. A step as a tick: what an idle tick does where nothing waits, and what the reset state holds. -/
namespace Sys2Proof.Machine
open Sys2Proof Sys2Proof.Safety

/-- A cycle of an empty network only counts. -/
theorem nocCycle_of_empty {s : State} (pkts : s.noc.net.pkts = []) (bufs : s.noc.net.bufs = []) (back : s.noc.net.back = []) :
    nocCycle s = modNet (fun n => { n with cycle := n.cycle + 1 }) s := by
  have credits : returnCredits s = s := by
    simp only [returnCredits, modNet, back, List.foldl_nil]
    rw [← back]
  simp only [nocCycle, credits, bufs, pkts, List.filterMap_nil, List.map_nil, List.eraseDups_nil, List.foldl_nil, List.filter_nil]

/-- Where no request, response and packet is there, none is presented. -/
theorem presentAll_of_empty {s : State} (reqs : s.noc.reqs = []) (resps : s.noc.resps = []) (pkts : s.noc.net.pkts = []) :
    presentAll s = s := by
  have kept (f : Packet → Bool) : modNet (fun n => { n with pkts := n.pkts.filter f }) s = s := by
    have none_left : s.noc.net.pkts.filter f = s.noc.net.pkts := by rw [pkts, List.filter_nil]
    simp only [modNet, none_left]
  simp only [presentAll, kept, reqs, resps, List.foldl_nil]

/-- A tick of an empty network counts two cycles. -/
theorem nocTick_of_empty {s : State} (reqs : s.noc.reqs = []) (resps : s.noc.resps = []) (pkts : s.noc.net.pkts = [])
    (bufs : s.noc.net.bufs = []) (back : s.noc.net.back = []) :
    nocTick s = modNet (fun n => { n with cycle := n.cycle + 2 }) s := by
  rw [nocTick, presentAll_of_empty reqs resps pkts, nocCycle_of_empty pkts bufs back]
  exact nocCycle_of_empty pkts bufs back

end Sys2Proof.Machine

namespace Sys2Proof.Proofs
open Sys2Proof Sys2Proof.Machine Sys2Proof.Safety

/-- Settles O1: it is how a step is defined. -/
theorem stepRunsFrontCommand : Obligations.StepRunsFrontCommand := by
  unfold Obligations.StepRunsFrontCommand
  intro c rest s
  rfl

/-- Nothing but the network's count of cycles changes at the ports of a hub in which nothing waits. -/
theorem portsMove_of_quiet {s : State} (quiet : Quiet s) :
    portsMove s = modNet (fun n => { n with cycle := n.cycle + 2 }) s := by
  obtain ⟨reqs, resps, pkts, bufs, back, -, vis, sites, -, -⟩ := quiet
  have leave : hostLeave (modNet (fun n => { n with cycle := n.cycle + 2 }) s) = modNet (fun n => { n with cycle := n.cycle + 2 }) s := by
    simp only [hostLeave, modNet, reqs, List.filter_nil, List.foldl_nil]
  simp only [portsMove, nocTick_of_empty reqs resps pkts bufs back, leave]
  simp [modNet, reqs, vis, sites, Tab.keysWhere, sendFlits]

/-- Settles O2: the tick is the definition of a step with no command waiting, and each of its parts does nothing where nothing waits. -/
theorem idleStepIsOneTick : Obligations.IdleStepIsOneTick := by
  unfold Obligations.IdleStepIsOneTick
  intro s idle
  have tick : step s = .next (servePldm (idleTick s)) := by rw [step, idle]
  refine ⟨tick, ?_, fun slew => ?_, fun quiet => ?_⟩
  · have moved : Laws.Frm 131072 { s with clk := tickClock s.clk } (idleTick s) :=
      Laws.frm_auditAll (Laws.frm_portsMove rfl (Laws.frm_stallTick (Laws.Frm.refl _ _)))
    have clock := moved.clock rfl
    exact clock
  · simp [tickClock, slew]
  · have ⟨_, _, _, _, _, cols, _, _, audits, pldm⟩ := quiet
    rw [tick]
    refine congrArg Host.Outcome.next ?_
    have stall : stallTick { s with clk := tickClock s.clk } = { s with clk := tickClock s.clk } := by
      simp [stallTick, cols, Tab.keysWhere]
    have still : Quiet { s with clk := tickClock s.clk } := quiet
    rw [idleTick, stall, portsMove_of_quiet still, auditAll]
    simp only [modNet, audits, List.foldl_nil, servePldm, pldm, List.isEmpty_nil, Bool.or_true, if_true]

/-- Settles O5: nothing is listed in the reset state but the banks and channels, and no credit is spent. -/
theorem resetIsCanonical : Obligations.ResetIsCanonical := by
  unfold Obligations.ResetIsCanonical
  refine ⟨by unfold Canon Mem.wf; decide +kernel, rfl, rfl, fun k => rfl⟩

/-- Settles O8: the values are those that the reset state lists. -/
theorem resetValues : Obligations.ResetValues := by
  unfold Obligations.ResetValues
  exact ⟨by decide +kernel, by decide +kernel, by decide +kernel, by decide +kernel, by decide +kernel, by decide +kernel,
    by decide +kernel, by decide +kernel, rfl, rfl, rfl, rfl, by decide +kernel, fun v => ⟨rfl, rfl, rfl, rfl, rfl, rfl, rfl⟩⟩

end Sys2Proof.Proofs
end

section
/-! SUPPORT. The elementwise micro-operations: their bodies read the state only through the draws of the cell, which reading the
operands leaves as they were. -/
namespace Sys2Proof.Machine
open Sys2Proof Sys2Proof.Safety

variable {n op : Nat} {srcs : Uop → List Nat} {arith : Bool} {x : UCtx} {s : State}

theorem elemwise_operandsRead (canon : Canon s) (clean : CleanCell n s) (own : x.n = n) (vs : List Nat) (f : Nat → Nat → Nat → Nat → Nat) :
    elemwise x (operandsRead n srcs x s) vs f = elemwise x s vs f := by
  simp only [elemwise, (operandsRead_becomes canon clean).cellDraws_eq own]

theorem cmulBody_operandsRead (canon : Canon s) (clean : CleanCell n s) (own : x.n = n) (vs : List Nat) :
    cmulBody x vs (operandsRead n srcs x s) = cmulBody x vs s := by
  simp only [cmulBody, (operandsRead_becomes canon clean).cellDraws_eq own]

theorem cvtBody_operandsRead (canon : Canon s) (clean : CleanCell n s) (own : x.n = n) (vs : List Nat) :
    cvtBody x vs (operandsRead n srcs x s) = cvtBody x vs s := by
  simp only [cvtBody, (operandsRead_becomes canon clean).cellDraws_eq own]

/-- A micro-operation of elements writes what its function gives for each of them. -/
theorem elemOp_writes {f : UCtx → Nat → Nat → Nat → Nat → Nat} (canon : Canon s) (clean : CleanCell n s) (issues : Issues n op srcs x s) :
    Written n x (elemwise x s (srcVals n srcs x s) (f x)) (srcBad n srcs x s) s (elemOp n op srcs arith f s) := by
  unfold elemOp
  refine issue_writes (ready := always) (body := fun x vs _ s => { outs := [(x.u.dst, elemwise x s vs (f x))], st := s })
    canon clean issues rfl ?_
  simp only [elemwise_operandsRead canon clean (cell_of_issues issues)]

end Sys2Proof.Machine

namespace Sys2Proof.Proofs
open Sys2Proof Sys2Proof.Machine Sys2Proof.Safety

theorem uCmul_writes {n : Nat} {x : UCtx} {s : State} (canon : Canon s) (clean : CleanCell n s) (issues : Issues n 0x3B srcAB x s) :
    Written n x (cmulBody x (srcVals n srcAB x s) s) (srcBad n srcAB x s) s (uCmul n s) := by
  refine issue_writes canon clean issues rfl ?_
  simp only [cmulBody_operandsRead canon clean (cell_of_issues issues)]

/-- Sources of CVT: the elements, and the old value of the destination where they fill a part of it. -/
def cvtSrcs (u : Uop) : List Nat := if perLine u.fmt < perLine (bits u.imm 0 4) then srcAD u else srcA u

theorem uCvt_writes {n : Nat} {x : UCtx} {s : State} (canon : Canon s) (clean : CleanCell n s) (issues : Issues n 0x20 cvtSrcs x s) :
    Written n x (cvtBody x (srcVals n cvtSrcs x s) s) (srcBad n cvtSrcs x s) s (uCvt n s) := by
  refine issue_writes canon clean issues rfl ?_
  simp only [cvtBody_operandsRead canon clean (cell_of_issues issues)]

/-- Settles O28: an elementwise micro-operation is an issue that writes what its function gives for each element; CMUL and CVT, whose
elements do not stand at the lane of their result, have a lemma of their own. -/
theorem elementwiseMicroOps : Obligations.ElementwiseMicroOps := by
  unfold Obligations.ElementwiseMicroOps
  intro n x s canon clean
  refine ⟨fun add => ?_, fun sub => ?_, fun mul => ?_, fun fma => ?_, fun max => ?_, fun min => ?_, fun sel => ?_, fun sfu => ?_,
    fun cmul => ?_, fun cvt => ?_⟩
  · exact ⟨uAdd n.val s, rfl, elemOp_writes canon clean add⟩
  · exact ⟨uSub n.val s, rfl, elemOp_writes canon clean sub⟩
  · exact ⟨uMul n.val s, rfl, elemOp_writes canon clean mul⟩
  · exact ⟨uFma n.val s, rfl, elemOp_writes canon clean fma⟩
  · exact ⟨uMax n.val s, rfl, elemOp_writes canon clean max⟩
  · exact ⟨uMin n.val s, rfl, elemOp_writes canon clean min⟩
  · exact ⟨uSel n.val s, rfl, elemOp_writes canon clean sel⟩
  · exact ⟨uSfu n.val s, rfl, elemOp_writes canon clean sfu⟩
  · exact ⟨uCmul n.val s, rfl, uCmul_writes canon clean cmul⟩
  · exact ⟨uCvt n.val s, rfl, uCvt_writes canon clean cvt⟩

end Sys2Proof.Proofs
end

section
/-! SUPPORT. Framing of Gelja messages: the fields of a header slot, blocks of equal length in a list, the slots of a flit, and what the
receiver reads from a message's slots. -/
namespace Sys2Proof
open Sys2Proof

/-! ### Bits of an appended word -/

theorem getLsbD_append_of_le {v w i : Nat} {hi : BitVec v} {lo : BitVec w} (h : w ≤ i) : (hi ++ lo).getLsbD i = hi.getLsbD (i - w) := by
  rw [BitVec.getLsbD_append, if_neg (by omega)]

theorem getLsbD_append_of_lt {v w i : Nat} {hi : BitVec v} {lo : BitVec w} (h : i < w) : (hi ++ lo).getLsbD i = lo.getLsbD i := by
  rw [BitVec.getLsbD_append, if_pos h]

/-! ### Blocks of equal length -/

/-- The blocks of a list of equal-length blocks are found at the multiples of their length. -/
theorem take_drop_flatMap {α β : Type} {n : Nat} (f : α → List β) (size : ∀ a, (f a).length = n) (tail : List β) :
    ∀ (as : List α) (k : Nat) (h : k < as.length), ((as.flatMap f ++ tail).drop (n * k)).take n = f as[k] := by
  intro as
  induction as with
  | nil => intro k h; cases h
  | cons a as ih =>
    intro k h
    cases k with
    | zero => simp [← size a]
    | succ k =>
      have skip : n * (k + 1) = (f a).length + n * k := by rw [size a, Nat.mul_succ, Nat.add_comm]
      rw [List.flatMap_cons, List.append_assoc, skip, ← List.drop_drop, List.drop_left]
      simpa using ih k (by simpa using h)

/-- Blocks of equal length, each read back, are the list that they were made of. -/
theorem map_blocks {α β : Type} {n : Nat} {f : α → List β} {g : List β → α} (size : ∀ a, (f a).length = n) (back : ∀ a, g (f a) = a)
    (tail : List β) (as : List α) (m : Nat) (count : as.length = m) :
    (List.range m).map (fun k => g (((as.flatMap f ++ tail).drop (n * k)).take n)) = as := by
  subst count
  refine List.ext_getElem (by simp) fun k _ h => ?_
  rw [List.getElem_map, List.getElem_range, take_drop_flatMap f size tail as k h, back]

/-- A list is its blocks, one after another. -/
theorem flatMap_take_drop {β : Type} (n : Nat) : ∀ (m : Nat) (l : List β),
    (List.range m).flatMap (fun k => (l.drop (n * k)).take n) = l.take (n * m) := by
  intro m l
  induction m with
  | zero => simp
  | succ m ih => rw [List.range_succ, List.flatMap_append, ih, List.flatMap_singleton, Nat.mul_succ, List.take_add]

end Sys2Proof

namespace Sys2Proof.Machine
open Sys2Proof Sys2Proof.Safety

/-! ### Bytes of a number -/

theorem leBytes_length : ∀ n x : Nat, (leBytes n x).length = n
  | 0, _ => rfl
  | n + 1, x => congrArg (· + 1) (leBytes_length n (x / 256))

theorem leNat_leBytes : ∀ n x : Nat, leNat (leBytes n x) = x % 256 ^ n
  | 0, x => by simp [leBytes, leNat, Nat.mod_one]
  | n + 1, x => by
    rw [leBytes, leNat, leNat_leBytes n, BitVec.toNat_ofNat, Nat.pow_succ' (m := 256), Nat.mod_mul]

theorem leNat_lt : ∀ bs : List Byte, leNat bs < 256 ^ bs.length
  | [] => by simp [leNat]
  | b :: bs => by
    have low := b.isLt
    have rest := leNat_lt bs
    rw [leNat, List.length_cons, Nat.pow_succ]
    omega

theorem leBytes_leNat : ∀ bs : List Byte, leBytes bs.length (leNat bs) = bs
  | [] => rfl
  | b :: bs => by
    have low : b.toNat < 256 := b.isLt
    have first : BitVec.ofNat 8 (b.toNat + 256 * leNat bs) = b := by
      apply BitVec.eq_of_toNat_eq
      rw [BitVec.toNat_ofNat]
      omega
    have further : (b.toNat + 256 * leNat bs) / 256 = leNat bs := by omega
    rw [List.length_cons, leNat, leBytes, first, further, leBytes_leNat bs]

/-- A slot's bytes give the slot again. -/
theorem slot_of_bytes (b : BitVec 128) : BitVec.ofNat 128 (leNat (leBytes 16 b.toNat)) = b := by
  have small : b.toNat < 256 ^ 16 := b.isLt
  rw [leNat_leBytes, Nat.mod_eq_of_lt small, BitVec.ofNat_toNat, BitVec.setWidth_eq]

/-- 16 bytes are those of the slot that they make. -/
theorem bytes_of_slot {bs : List Byte} (size : bs.length = 16) : leBytes 16 (BitVec.ofNat 128 (leNat bs)).toNat = bs := by
  have small : leNat bs < 2 ^ 128 := by
    have h := leNat_lt bs
    rwa [size] at h
  rw [BitVec.toNat_ofNat, Nat.mod_eq_of_lt small, ← size, leBytes_leNat]

/-! ### The header slot (R447) -/

section
variable (op : Nat) (m : GMsg)

theorem headSlot_op : (headSlot op m).extractLsb' 0 8 = BitVec.ofNat 8 op := by
  unfold headSlot
  rw [BitVec.extractLsb'_append_eq_of_add_le (by decide), BitVec.extractLsb'_eq_self]

theorem headSlot_len : (headSlot op m).extractLsb' 8 3 = m.len := by
  unfold headSlot
  repeat rw [BitVec.extractLsb'_append_eq_of_le (by decide)]
  rw [BitVec.extractLsb'_append_eq_of_add_le (by decide)]
  exact BitVec.extractLsb'_eq_self

theorem headSlot_poison : (headSlot op m).getLsbD 11 = m.poison := by
  unfold headSlot
  repeat rw [getLsbD_append_of_le (by decide)]
  rw [getLsbD_append_of_lt (by decide)]
  exact BitVec.getLsbD_ofBool _ 0

theorem headSlot_state : (headSlot op m).extractLsb' 12 2 = m.state := by
  unfold headSlot
  repeat rw [BitVec.extractLsb'_append_eq_of_le (by decide)]
  rw [BitVec.extractLsb'_append_eq_of_add_le (by decide)]
  exact BitVec.extractLsb'_eq_self

theorem headSlot_wbp : (headSlot op m).getLsbD 14 = m.wbp := by
  unfold headSlot
  repeat rw [getLsbD_append_of_le (by decide)]
  rw [getLsbD_append_of_lt (by decide)]
  exact BitVec.getLsbD_ofBool _ 0

theorem headSlot_reserved : (headSlot op m).getLsbD 15 = m.reserved := by
  unfold headSlot
  repeat rw [getLsbD_append_of_le (by decide)]
  rw [getLsbD_append_of_lt (by decide)]
  exact BitVec.getLsbD_ofBool _ 0

theorem headSlot_tag : (headSlot op m).extractLsb' 16 12 = m.tag := by
  unfold headSlot
  repeat rw [BitVec.extractLsb'_append_eq_of_le (by decide)]
  rw [BitVec.extractLsb'_append_eq_of_add_le (by decide)]
  exact BitVec.extractLsb'_eq_self

theorem headSlot_zeros28 : (headSlot op m).extractLsb' 28 4 = 0 := by
  unfold headSlot
  repeat rw [BitVec.extractLsb'_append_eq_of_le (by decide)]
  rw [BitVec.extractLsb'_append_eq_of_add_le (by decide)]
  exact BitVec.extractLsb'_eq_self

theorem headSlot_ctx : (headSlot op m).extractLsb' 32 10 = m.ctx := by
  unfold headSlot
  repeat rw [BitVec.extractLsb'_append_eq_of_le (by decide)]
  rw [BitVec.extractLsb'_append_eq_of_add_le (by decide)]
  exact BitVec.extractLsb'_eq_self

theorem headSlot_stepValid : (headSlot op m).getLsbD 42 = m.stepValid := by
  unfold headSlot
  repeat rw [getLsbD_append_of_le (by decide)]
  rw [getLsbD_append_of_lt (by decide)]
  exact BitVec.getLsbD_ofBool _ 0

theorem headSlot_zeros43 : (headSlot op m).extractLsb' 43 5 = 0 := by
  unfold headSlot
  repeat rw [BitVec.extractLsb'_append_eq_of_le (by decide)]
  rw [BitVec.extractLsb'_append_eq_of_add_le (by decide)]
  exact BitVec.extractLsb'_eq_self

theorem headSlot_status : (headSlot op m).extractLsb' 48 8 = m.status := by
  unfold headSlot
  repeat rw [BitVec.extractLsb'_append_eq_of_le (by decide)]
  rw [BitVec.extractLsb'_append_eq_of_add_le (by decide)]
  exact BitVec.extractLsb'_eq_self

theorem headSlot_zeros56 : (headSlot op m).extractLsb' 56 8 = 0 := by
  unfold headSlot
  repeat rw [BitVec.extractLsb'_append_eq_of_le (by decide)]
  rw [BitVec.extractLsb'_append_eq_of_add_le (by decide)]
  exact BitVec.extractLsb'_eq_self

theorem headSlot_addr : (headSlot op m).extractLsb' 64 48 = m.addr := by
  unfold headSlot
  repeat rw [BitVec.extractLsb'_append_eq_of_le (by decide)]
  rw [BitVec.extractLsb'_append_eq_of_add_le (by decide)]
  exact BitVec.extractLsb'_eq_self

theorem headSlot_step16 : (headSlot op m).extractLsb' 112 16 = m.step16 := by
  unfold headSlot
  repeat rw [BitVec.extractLsb'_append_eq_of_le (by decide)]
  exact BitVec.extractLsb'_eq_self

/-- A header slot names its opcode. -/
theorem gslotOp_headSlot (small : op < 256) : gslotOp (headSlot op m) = op := by
  rw [gslotOp, headSlot_op, BitVec.toNat_ofNat, Nat.mod_eq_of_lt small]

/-! ### The slots of a message (R446, R448) -/

/-- The slots of a message that follow its header slot. -/
def moreSlots : List (BitVec 128) :=
  (if op = 0x07 then [m.be.setWidth 128] else if op = 0x60 then [m.extra] else []) ++ (if carriesData op then dataSlots m else [])

theorem msgSlots_eq : msgSlots op m = headSlot op m :: moreSlots op m := rfl

theorem dataSlots_length : (dataSlots m).length = 4 * m.len.toNat := by
  rw [dataSlots, List.length_map, List.length_range]

theorem moreSlots_length : (moreSlots op m).length = furtherSlots op m.len.toNat := by
  have data : (if carriesData op then dataSlots m else []).length = if carriesData op then 4 * m.len.toNat else 0 := by
    split <;> simp [dataSlots_length]
  rw [moreSlots, List.length_append, data, furtherSlots]
  congr 1
  by_cases part : op = 0x07
  · simp [part]
  · by_cases identity : op = 0x60 <;> simp [part, identity]

/-- The data lines give the data again. -/
theorem dataSlots_bytes (size : m.data.length = 64 * m.len.toNat) :
    (dataSlots m).flatMap (fun b => leBytes 16 b.toNat) = m.data := by
  have blocks : ∀ k ∈ List.range (4 * m.len.toNat),
      leBytes 16 (BitVec.ofNat 128 (leNat ((m.data.drop (16 * k)).take 16))).toNat = (m.data.drop (16 * k)).take 16 := by
    intro k inside
    apply bytes_of_slot
    rw [List.mem_range] at inside
    rw [List.length_take, List.length_drop, size]
    omega
  rw [dataSlots, List.flatMap_map, List.flatMap_congr blocks, flatMap_take_drop, List.take_of_length_le (by omega)]

/-- The receiver reads a message from its slots as it was sent. -/
theorem slotMsg_msgSlots (whole : WholeMsg op m) : slotMsg (headSlot op m) (moreSlots op m) = m := by
  obtain ⟨-, small, size, noBe, noExtra⟩ := whole
  have data (carries : carriesData op = true) : (dataSlots m).flatMap (fun b => leBytes 16 b.toNat) = m.data := by
    rw [if_pos carries] at size
    exact dataSlots_bytes m size
  have none_else (silent : ¬ carriesData op = true) : m.data = [] := by
    rw [if_neg silent] at size
    exact List.length_eq_zero_iff.mp size
  unfold slotMsg moreSlots
  rw [gslotOp_headSlot op m small, headSlot_len, headSlot_poison, headSlot_state, headSlot_wbp, headSlot_reserved, headSlot_tag,
    headSlot_zeros28, headSlot_ctx, headSlot_stepValid, headSlot_zeros43, headSlot_status, headSlot_zeros56, headSlot_addr,
    headSlot_step16]
  by_cases part : op = 0x07
  · subst part
    have lines := data rfl
    have enables : (m.be.setWidth 128).extractLsb' 64 64 = 0 := by
      refine BitVec.eq_of_getLsbD_eq fun i _ => ?_
      rw [BitVec.getLsbD_extractLsb', BitVec.getLsbD_setWidth, BitVec.getLsbD_of_ge m.be (64 + i) (by omega)]
      simp
    have low : (m.be.setWidth 128).extractLsb' 0 64 = m.be := by
      rw [BitVec.extractLsb'_setWidth_of_le (by decide), BitVec.extractLsb'_eq_self]
    have extra : m.extra = 0 := noExtra (by decide)
    simp [carriesData, enables, low, lines, ← extra]
  · have be := noBe part
    by_cases identity : op = 0x60
    · subst identity
      have none_left := none_else (by decide)
      simp [carriesData, ← be, ← none_left]
    · have extra := noExtra identity
      have no_part : (op == 0x07) = false := beq_false_of_ne part
      by_cases carries : carriesData op = true
      · simp [no_part, part, identity, ← be, ← extra, carries, data carries]
      · simp [no_part, part, identity, ← be, ← extra, carries, ← none_else carries]

end

/-! ### What the receiver reads (R446) -/

/-- NULL slots carry no message. -/
theorem readSlots_nulls : ∀ k p : Nat, p ≤ k → readSlots k (List.replicate p 0) = ([], [])
  | 0, p, h => by rw [Nat.le_zero.mp h]; rfl
  | k + 1, 0, _ => rfl
  | k + 1, p + 1, h => by
    rw [List.replicate_succ, readSlots, if_pos (by decide : gslotOp 0 = 0), readSlots_nulls k p (by omega)]

/-- The slots of whole messages, and NULL slots after them, are read as these messages. -/
theorem readSlots_msgs (p : Nat) : ∀ (ms : List (Nat × GMsg)) (k : Nat), (∀ x ∈ ms, WholeMsg x.1 x.2) →
    (ms.flatMap (fun x => msgSlots x.1 x.2)).length + p ≤ k →
    readSlots k (ms.flatMap (fun x => msgSlots x.1 x.2) ++ List.replicate p 0) = (ms, []) := by
  intro ms
  induction ms with
  | nil => intro k _ room; simpa using readSlots_nulls k p (by simpa using room)
  | cons x ms ih =>
    intro k whole room
    obtain ⟨op, m⟩ := x
    have this_one : WholeMsg op m := whole _ (List.mem_cons_self ..)
    have ⟨used, small, _⟩ := this_one
    rw [List.flatMap_cons, List.length_append, msgSlots_eq, List.length_cons] at room
    obtain ⟨k, rfl⟩ : ∃ j, k = j + 1 := ⟨k - 1, by omega⟩
    have named : gslotOp (headSlot op m) ≠ 0 := by rw [gslotOp_headSlot op m small]; omega
    rw [List.flatMap_cons, msgSlots_eq, List.append_assoc, List.cons_append, readSlots, if_neg named]
    simp only [gslotOp_headSlot op m small, headSlot_len, ← moreSlots_length, List.take_left, List.drop_left,
      slotMsg_msgSlots op m this_one]
    rw [if_neg (by simp), ih k (fun y there => whole y (List.mem_cons_of_mem _ there)) (by omega)]

/-! ### Flits (R445, R446) -/

theorem bytes_length (ss : List (BitVec 128)) : (ss.flatMap (fun b => leBytes 16 b.toNat)).length = 16 * ss.length := by
  induction ss with
  | nil => rfl
  | cons b ss ih => rw [List.flatMap_cons, List.length_append, ih, leBytes_length, List.length_cons]; omega

/-- The slots that a flit carries: its messages' and NULL slots. -/
def padded (ss : List (BitVec 128)) : List (BitVec 128) := ss.take 14 ++ List.replicate (14 - ss.length) 0

theorem padded_length (ss : List (BitVec 128)) : (padded ss).length = 14 := by
  rw [padded, List.length_append, List.length_take, List.length_replicate]
  omega

theorem flitBytes_eq (ss : List (BitVec 128)) :
    flitBytes ss = (padded ss).flatMap (fun b => leBytes 16 b.toNat) ++ List.replicate Config.flitTail 0 := rfl

theorem flitBytes_length (ss : List (BitVec 128)) : (flitBytes ss).length = 224 + Config.flitTail := by
  rw [flitBytes_eq, List.length_append, bytes_length, padded_length, List.length_replicate]

theorem flitSlots_length (bs : List Byte) : (flitSlots bs).length = 14 := by rw [flitSlots, List.length_map, List.length_range]

/-- The receiver finds the slots of a flit as they were sent. -/
theorem flitSlots_flitBytes (ss : List (BitVec 128)) : flitSlots (flitBytes ss) = padded ss := by
  rw [flitBytes_eq]
  unfold flitSlots
  exact map_blocks (g := fun bs => BitVec.ofNat 128 (leNat bs)) (fun b => leBytes_length 16 b.toNat) slot_of_bytes _ _ _ (padded_length ss)

/-- The flits of a list of slots carry these slots, and NULL slots after them. -/
theorem flitSlots_flitsOf (ss : List (BitVec 128)) :
    ∃ p, (flitsOf ss).flatMap flitSlots = ss ++ List.replicate p 0 := by
  have slots : ∀ (n : Nat) (ss : List (BitVec 128)), (ss.length + 13) / 14 = n →
      ∃ p, (List.range n).flatMap (fun k => padded ((ss.drop (14 * k)).take 14)) = ss ++ List.replicate p 0 := by
    intro n
    induction n with
    | zero =>
      intro ss none_left
      obtain rfl : ss = [] := List.length_eq_zero_iff.mp (by omega)
      exact ⟨0, rfl⟩
    | succ n ih =>
      intro ss count
      obtain ⟨p, rest⟩ := ih (ss.drop 14) (by rw [List.length_drop]; omega)
      have shift : ∀ k, (ss.drop 14).drop (14 * k) = ss.drop (14 * (k + 1)) := fun k => by rw [List.drop_drop]; congr 1; omega
      simp only [shift] at rest
      rw [List.range_succ_eq_map, List.flatMap_cons, List.flatMap_map, Nat.mul_zero, List.drop_zero]
      by_cases last : ss.length ≤ 14
      · obtain rfl : n = 0 := by omega
        exact ⟨14 - ss.length, by simp [padded, List.take_of_length_le last]⟩
      · have full : padded (ss.take 14) = ss.take 14 := by
          rw [padded, List.take_take, List.length_take, Nat.min_eq_left (by omega : 14 ≤ ss.length)]
          simp
        refine ⟨p, ?_⟩
        rw [full, rest, ← List.append_assoc, List.take_append_drop]
  obtain ⟨p, h⟩ := slots _ ss rfl
  refine ⟨p, ?_⟩
  rw [flitsOf, List.flatMap_map]
  simpa only [flitSlots_flitBytes] using h

end Sys2Proof.Machine

namespace Sys2Proof.Proofs
open Sys2Proof Sys2Proof.Machine Sys2Proof.Safety

/-- The slots of the flits of whole messages are read as these messages. -/
theorem readSlots_flits (ms : List (Nat × GMsg)) (whole : ∀ x ∈ ms, WholeMsg x.1 x.2) :
    readSlots ((flitsOf (ms.flatMap (fun x => msgSlots x.1 x.2))).flatMap flitSlots).length
      ((flitsOf (ms.flatMap (fun x => msgSlots x.1 x.2))).flatMap flitSlots) = (ms, []) := by
  obtain ⟨p, slots⟩ := flitSlots_flitsOf (ms.flatMap (fun x => msgSlots x.1 x.2))
  rw [slots]
  exact readSlots_msgs p ms _ whole (by simp)

/-- Settles O7: a flit's slots are found as they were sent, and from the slots of a message the receiver reads that message. -/
theorem geljaFramingRoundTrip : Obligations.GeljaFramingRoundTrip := by
  unfold Obligations.GeljaFramingRoundTrip
  refine ⟨fun ms whole => ⟨fun b sent => ?_, fun b _ => flitSlots_length b, readSlots_flits ms whole⟩, fun op m whole => ?_⟩
  · simp only [flitsOf, List.mem_map] at sent
    obtain ⟨k, -, rfl⟩ := sent
    exact flitBytes_length _
  · have read := readSlots_flits [(op, m)] (by simpa using whole)
    simp only [List.flatMap_cons, List.flatMap_nil, List.append_nil] at read
    simp only [received, read]

end Sys2Proof.Proofs
end

section
/-! SUPPORT. The network's credits: a state in which a command, not a tick, moves a flit. -/
namespace Sys2Proof.Proofs
open Sys2Proof Sys2Proof.Machine Sys2Proof.Safety

/-- A read whose packet counts as arrived at its target while a flit of it still stands in a slice. -/
def strayRead : Req :=
  { tag := 0, who := .cell 0, write := false, host := false, addr := 0, len := 64, ctx := 0, part := 0, sched := false }

/-- The packet of that read, which counts as arrived. -/
def strayPacket : Packet :=
  { id := 0, req := 0, resp := false, vn := 0, vc := 1, part := 0, src := 72, dst := 166, inject := 0, lines := [0], sent := 1, got := 1 }

/-- A reset hub whose network holds the packet at its target and its flit in slice 0, which the sender counts as spent. -/
def strayState : State :=
  { State.reset with noc := { reqs := [strayRead], net :=
      { pkts := [strayPacket], nextId := 1, bufs := [(0, [{ pkt := 0, side := 0, payload := 0, since := 0 }])], spent := [(0, 1)] } } }

/-- The credits of that state are complete: slice 0 holds the one flit that its sender counts as spent. -/
theorem strayState_credits : CreditsKept strayState.noc.net := by
  refine ⟨by decide, by decide, fun k => ?_⟩
  cases k with
  | zero => rfl
  | succ k => simp [strayState, Tab.get]

/-- The state after the read's head flit was found uncorrectable: the packet is lost, and its flit has left the slice. -/
theorem strayState_loses_flit : ∃ t, exec (.nocRead 0 0 .uncorrectable .clean) strayState = .next t ∧ t.noc.net.bufs = [] := by
  exact ⟨nocRequest false 0 0 .uncorrectable .clean strayState, rfl, by decide +kernel⟩

/-- Refutes O6: that only ticks move flits fails where a packet that counts as arrived still has a flit in a slice. An uncorrectable
error in its head flit discards the packet, and that empties the slice. -/
theorem not_networkCreditsAreConserved : ¬ Obligations.NetworkCreditsAreConserved := by
  unfold Obligations.NetworkCreditsAreConserved
  rintro ⟨-, frame⟩
  obtain ⟨t, ran, empty⟩ := strayState_loses_flit
  obtain ⟨same, -⟩ := frame _ _ _ ran rfl
  rw [empty] at same
  cases same

end Sys2Proof.Proofs
end

section
/-! SUPPORT. Register reads: what a read clears, and what it sends. -/
namespace Sys2Proof.Machine
open Sys2Proof Sys2Proof.Safety

/-- Clearing RC fields sends nothing. -/
theorem clearRc_out (a : Nat) (s : State) : (clearRc a s).out = s.out := by
  unfold clearRc
  dsimp only
  repeat' split
  all_goals rfl

/-- A read through an indirect pair moves the pair alone. -/
theorem indAccess_read_out (who : Owner2) (v : Word) (s : State) : (indAccess who false v s).out = s.out := by
  cases who <;> rfl

/-- A read of a register of BAR0 that its block answers: the value goes out and the RC fields clear. -/
theorem readWord_bar0 {path : RegPath} (bar : path = .bar0 ∨ path = .fw) {a : Nat} {s : State} (up : blockUp s a = true) (notPair : a ≠ 0x44) :
    readWord path a s =
      ((clearRc a s).emit (.readValue path.tlp path a (BitVec.ofNat 32 (readBar0 (pathOwner path) s a)))).spend := by
  have served : servedPath path a s = true := by
    rcases bar with rfl | rfl
    · exact up
    · rfl
  rw [readWord, if_pos served]
  rcases bar with rfl | rfl <;> simp only [readReg, regValue, if_neg notPair]

theorem blockUp_of_stage {s : State} (up : s.mgt.stage ≠ .flatbread) (a : Nat) : blockUp s a = true := by
  simp [blockUp, up]

/-- The counter of corrected flits goes out, and reads 0 after (R34). -/
theorem readWord_flitCe {path : RegPath} (bar : path = .bar0 ∨ path = .fw) {s : State} (up : s.mgt.stage ≠ .flatbread) :
    readWord path 0xA0004 s = { s with noc := { s.noc with flitCe := 0 }, out := .readValue path.tlp path 0xA0004 s.noc.flitCe :: s.out,
                                       free := s.free + 1 } := by
  have value : readBar0 (pathOwner path) s 0xA0004 = s.noc.flitCe.toNat := rfl
  rw [readWord_bar0 bar (blockUp_of_stage up _) (by decide), value, BitVec.ofNat_toNat, BitVec.setWidth_eq]
  rfl

/-- The counter of dropped packets goes out, and reads 0 after (R34). -/
theorem readWord_drops {path : RegPath} (bar : path = .bar0 ∨ path = .fw) {s : State} (up : s.mgt.stage ≠ .flatbread) :
    readWord path 0xA0008 s = { s with noc := { s.noc with drops := 0 }, out := .readValue path.tlp path 0xA0008 s.noc.drops :: s.out,
                                       free := s.free + 1 } := by
  have value : readBar0 (pathOwner path) s 0xA0008 = s.noc.drops.toNat := rfl
  rw [readWord_bar0 bar (blockUp_of_stage up _) (by decide), value, BitVec.ofNat_toNat, BitVec.setWidth_eq]
  rfl

end Sys2Proof.Machine

namespace Sys2Proof.Proofs
open Sys2Proof Sys2Proof.Machine Sys2Proof.Safety

/-- Settles O14: what a read of each kind sends and clears. -/
theorem registerReads : Obligations.RegisterReads := by
  unfold Obligations.RegisterReads
  refine ⟨fun path s bar up => ⟨?_, ?_⟩, fun addr s groups => ?_, fun port tag addr s => ?_, fun port tag val s => rfl⟩
  · exact congrArg Host.Outcome.next (readWord_flitCe bar up)
  · refine congrArg Host.Outcome.next ?_
    show readWord path 0xA0008 (readWord path 0xA0004 s) = _
    rw [readWord_flitCe bar up]
    exact readWord_drops bar up
  · refine ⟨_, rfl, Laws.raise_sets groups (by decide), ?_⟩
    have sent := (Laws.kept_raise (g := 1) (bit := 1) (unit := 0)
      (Laws.Kept.refl (s.emit (.readValue RegPath.bar0.tlp .bar0 (addr / 4 * 4) 0xFFFFFFFF#32)))).sent
    exact sent.subset (List.mem_cons_self ..)
  · refine ⟨_, rfl, ?_⟩
    have read : (if addr / 4 * 4 = 0x44 then indAccess .fw false 0 s else clearRc (addr / 4 * 4) s).out = s.out := by
      split
      · exact indAccess_read_out .fw 0 s
      · exact clearRc_out _ s
    exact congrArg (List.cons _) read

end Sys2Proof.Proofs
end

section
/-! SUPPORT. The mailbox: when it takes a command, how a command ends, and the commands of firmware's own state. -/
namespace Sys2Proof.Machine
open Sys2Proof Sys2Proof.Safety

/-! ### Folds over states -/

/-- A reading that every step of a fold leaves alone is left alone by the fold. -/
theorem foldl_keeps {α β : Type} (g : State → β) {f : State → α → State} (step : ∀ s a, g (f s a) = g s) :
    ∀ (l : List α) (s : State), g (l.foldl f s) = g s
  | [], _ => rfl
  | a :: l, s => (foldl_keeps g step l (f s a)).trans (step s a)

/-! ### Measurements (R620) -/

/-- A measurement changes only the security block and what virtual interfaces have pending. -/
theorem setMeas_shape (idx : Nat) (v : List Byte) (s : State) : ∃ sec vis, setMeas idx v s = { s with sec := sec, vis := vis } := by
  unfold setMeas
  split
  · exact ⟨s.sec, s.vis, rfl⟩
  · dsimp only
    have fold : ∀ (l : List Nat) (s : State), ∃ sec vis, l.foldl (fun s v =>
        (s.setSeal v { s.sealOf v with changed := true }).modVi v (fun w => { w with intPend := w.intPend ||| 16#5 })) s =
          { s with sec := sec, vis := vis } := by
      intro l
      induction l with
      | nil => exact fun s => ⟨s.sec, s.vis, rfl⟩
      | cons v l ih => exact fun s => ih _
    exact fold _ _

theorem measureFw_shape (s : State) : ∃ sec vis, measureFw s = { s with sec := sec, vis := vis } := setMeas_shape _ _ s

/-! ### The mailbox (R756 to R760) -/

variable {op : Nat} {tag : BitVec 8} {run : State → State} {s : State}

/-- A free mailbox runs the command. -/
theorem mbCommand_of_free (free : MailboxFree s) : mbCommand op tag run s = run (running tag s) := by
  obtain ⟨idle, here, alive, awake⟩ := free
  have notScrapped : ¬ lifeCycle { s with mgt := { s.mgt with busy := true, done := false, curTag := tag } } = 4 := alive
  rw [mbCommand, if_neg (by simp [idle, here])]
  dsimp only
  rw [if_neg notScrapped, if_neg (by simp [awake])]
  rfl

/-- In flatbread mode the mailbox runs STATUS, RETRY_START and RECOVERY_LOAD. -/
theorem mbCommand_of_flatbread (idle : s.mgt.busy = false) (here : s.mgt.unavail = false) (alive : lifeCycle s ≠ 4)
    (served : (op == 1 || op == 0x30 || op == 0x31) = true) : mbCommand op tag run s = run (running tag s) := by
  have notScrapped : ¬ lifeCycle { s with mgt := { s.mgt with busy := true, done := false, curTag := tag } } = 4 := alive
  rw [mbCommand, if_neg (by simp [idle, here])]
  dsimp only
  rw [if_neg notScrapped, if_neg (by simp [served])]
  rfl

/-- Elsewhere, in SCRAPPED and in flatbread mode, a command ends DENIED. -/
theorem mbCommand_denied (idle : s.mgt.busy = false) (here : s.mgt.unavail = false) (away : lifeCycle s = 4 ∨ s.mgt.stage = .flatbread)
    (unserved : (op == 1 || op == 0x30 || op == 0x31) = false) : mbCommand op tag run s = mbEnd .denied [] (running tag s) := by
  rw [mbCommand, if_neg (by simp [idle, here])]
  dsimp only
  split
  · rfl
  · next alive =>
    have flat : s.mgt.stage = .flatbread := away.resolve_left alive
    rw [if_pos (by simp [flat, unserved])]
    rfl

/-- A busy or unavailable mailbox refuses the command. -/
theorem mbCommand_refused (away : s.mgt.busy = true ∨ s.mgt.unavail = true) : mbCommand op tag run s = refuseWrite 0 s := by
  rw [mbCommand, if_pos (by simpa using away)]

/-- The end of a command whose tag the mailbox holds. -/
theorem ended_mbEnd {st : Status} {resp : List Nat} (held : s.mgt.curTag = tag) : Ended tag st (mbEnd st resp s) := ⟨rfl, rfl, rfl, held⟩

end Sys2Proof.Machine

namespace Sys2Proof.Proofs
open Sys2Proof Sys2Proof.Machine Sys2Proof.Safety

section
variable {tag : BitVec 8} {s : State}

theorem readReport_ends (s : State) (held : s.mgt.curTag = tag) : (readReport s).mem = s.mem ∧ (readReport s).img = s.img ∧
    Ended tag (if (reportBytes s.img.report).length ≤ mbArg s 0 / 64 * 64 then .empty else .ok) (readReport s) := by
  unfold readReport
  dsimp only
  split
  · exact ⟨rfl, rfl, ended_mbEnd held⟩
  · exact ⟨rfl, rfl, ended_mbEnd held⟩

theorem peelCancel_ends (held : s.mgt.curTag = tag) (waits : s.mgt.peel = .staged ∨ s.mgt.peel = .deferred) :
    Ended tag .ok (peelCancel s) ∧ (peelCancel s).mgt.peel = .none ∧ (peelCancel s).mgt.staged = none ∧ (peelCancel s).mem = s.mem := by
  rcases waits with peel | peel <;> simp only [peelCancel, dropPeel, peel] <;> exact ⟨⟨rfl, rfl, rfl, held⟩, rfl, rfl, rfl⟩

/-- The burn of the counter ends the command and measures the image again. -/
theorem burnRollback_ends (held : s.mgt.curTag = tag) : Ended tag .ok (burnRollback s) ∧
    (burnRollback s).lcs.otp.rollback = max s.lcs.otp.rollback s.mgt.fw.svn ∧ (burnRollback s).mem = s.mem := by
  obtain ⟨sec, vis, measured⟩ := measureFw_shape
    { s with lcs := { s.lcs with rollLater := false, otp := { s.lcs.otp with rollback := max s.lcs.otp.rollback s.mgt.fw.svn } } }
  rw [burnRollback, measured]
  exact ⟨⟨rfl, rfl, rfl, held⟩, rfl, rfl⟩

end

/-- Settles O16: a free mailbox runs the command's own function, each of which says how it ends. -/
theorem mailboxCommands : Obligations.MailboxCommands := by
  unfold Obligations.MailboxCommands
  refine ⟨⟨fun tag s groups calm away => ?_, fun tag s idle here away => ⟨?_, ?_⟩⟩,
    fun tag s free => ⟨?_, ?_, ?_, fun opcode unknown => ?_, fun waits => ?_, fun own high => ?_, fun own low => ?_⟩⟩
  · refine ⟨_, congrArg Host.Outcome.next (mbCommand_refused away), ?_⟩
    exact ⟨Laws.raise_sets groups (by decide), Laws.raise_calm_mgt groups calm, Laws.raise_calm_mem groups calm⟩
  · exact ⟨_, congrArg Host.Outcome.next (mbCommand_denied idle here away rfl), ended_mbEnd rfl, rfl, rfl⟩
  · exact ⟨_, congrArg Host.Outcome.next (mbCommand_denied idle here away rfl), ended_mbEnd rfl, rfl⟩
  · exact ⟨_, congrArg Host.Outcome.next (mbCommand_of_free free), ended_mbEnd rfl, rfl, rfl⟩
  · exact ⟨_, congrArg Host.Outcome.next (mbCommand_of_free free), ended_mbEnd rfl, rfl, rfl, rfl⟩
  · exact ⟨_, congrArg Host.Outcome.next (mbCommand_of_free free), readReport_ends (running tag s) rfl⟩
  · refine ⟨_, congrArg Host.Outcome.next ((if_neg (by rw [unknown]; exact Bool.false_ne_true)).trans (mbCommand_of_free free)), ended_mbEnd rfl, rfl, rfl⟩
  · exact ⟨_, congrArg Host.Outcome.next (mbCommand_of_free free), peelCancel_ends (s := running tag s) rfl waits⟩
  · refine ⟨burnRollback (running tag s), congrArg Host.Outcome.next ((mbCommand_of_free free).trans ?_), burnRollback_ends rfl⟩
    have ask : ¬ mbArg (running tag s) 0 ≠ (running tag s).mgt.fw.svn := fun other => other own
    have input : inputLow (running tag s) = false := high
    rw [advanceRollback, if_neg ask, tryRollback, if_neg (by simp [input])]
  · have ask : ¬ mbArg (running tag s) 0 ≠ (running tag s).mgt.fw.svn := fun other => other own
    have input : inputLow (running tag s) = true := low
    refine ⟨{ running tag s with lcs := { s.lcs with rollLater := true, deferred := true } },
      congrArg Host.Outcome.next ((mbCommand_of_free free).trans ?_), rfl, rfl, rfl, rfl, rfl⟩
    rw [advanceRollback, if_neg ask, tryRollback, if_pos input]
    rfl

end Sys2Proof.Proofs
end

section
/-! SUPPORT. Firmware images over the mailbox: updates, slot writes and recovery loads. -/
namespace Sys2Proof.Machine
open Sys2Proof Sys2Proof.Safety

variable {s : State}

theorem fetchWindow_of_free {i iova n : Nat} (window : freeWindow s = some i) :
    ∃ e, fetchWindow iova n s = some (i, { s with xlt := { s.xlt with hwt := Tab.set 0 s.xlt.hwt i e }, free := s.free + 1 }) := by
  unfold fetchWindow
  rw [window]
  dsimp only
  generalize BitVec.ofNat 256 _ = e
  exact ⟨e, rfl⟩

/-- A state that differs in what fetching an argument changes: a window, what has been sent and the free values. -/
def Fetched (s u : State) : Prop :=
  ∃ hwt out free, u = { s with xlt := { s.xlt with hwt := hwt }, out := out, free := free }

/-- The fetch of an argument through a free window: the window is dropped again, the request is out, and a free value is drawn. -/
theorem fetchArg_of_window {iova n : Nat} (runs : s.host.dmaStopped = false) (room : (freeWindow s).isSome = true) :
    ∃ u, Fetched s u ∧ fetchArg iova n s = some u := by
  obtain ⟨i, window⟩ := Option.isSome_iff_exists.mp room
  obtain ⟨e, fetched⟩ := fetchWindow_of_free (iova := iova) (n := n) window
  unfold fetchArg
  rw [if_neg (by simp [runs]), fetched]
  exact ⟨_, ⟨_, _, _, rfl⟩, rfl⟩

/-- Bytes of the length that the request names are fetched as they are. -/
theorem padded_of_length (bytes : List Byte) (room : Nat) :
    (bytes ++ List.replicate (min bytes.length room - bytes.length) 0#8).take bytes.length = bytes := by
  have none_left : min bytes.length room - bytes.length = 0 := by omega
  rw [none_left]
  simp

/-- FW_UPDATE goes on with the image that it has fetched (R760). -/
theorem fwUpdate_fetched {bytes : List Byte} {act : Nat} (ask : mbArg s 3 = 16 * act) (known : act = 1 ∨ act = 2)
    (allowed : updateDenied false s = false) (size : mbArg s 2 = bytes.length) (runs : s.host.dmaStopped = false)
    (room : (freeWindow s).isSome = true) :
    ∃ u, Fetched s u ∧ fwUpdate bytes s =
      if imageDenied bytes u then mbEnd .denied [] u
      else if act = 2 then
        if recordOutside (parseFw bytes) u then mbEnd .version [] u
        else mbEnd .ok [(parseFw bytes).version.toNat] (stagePeel (parseFw bytes) u)
      else if !u.mgt.flash.present then mbEnd .aborted [] (raise 0 4 0 u)
      else beginSlot (inactiveSlot u) (parseFw bytes) (act == 1) true u := by
  obtain ⟨u, differs, fetched⟩ := fetchArg_of_window (iova := mbArg64 s 0) (n := bytes.length) runs room
  refine ⟨u, differs, ?_⟩
  unfold fwUpdate
  rw [ask, size]
  dsimp only
  rw [fetched]
  dsimp only
  rw [padded_of_length]
  rcases known with rfl | rfl <;> simp [allowed]

end Sys2Proof.Machine

namespace Sys2Proof.Proofs
open Sys2Proof Sys2Proof.Machine Sys2Proof.Safety

section
variable {tag : BitVec 8} {bytes : List Byte} {s u : State}

/-- An image for a peel, once fetched (R760, R763). -/
theorem update_staged (fetched : Fetched (running tag s) u) :
    let t := if imageDenied bytes u then mbEnd .denied [] u
      else if recordOutside (parseFw bytes) u then mbEnd .version [] u
      else mbEnd .ok [(parseFw bytes).version.toNat] (stagePeel (parseFw bytes) u)
    if imageDenied bytes s then Ended tag .denied t ∧ t.mgt.staged = s.mgt.staged
    else if recordOutside (parseFw bytes) s then Ended tag .version t ∧ t.mgt.staged = s.mgt.staged
    else Ended tag .ok t ∧ t.mgt.staged = some (parseFw bytes) ∧ t.mgt.peel = (if emergency s then .deferred else .staged) := by
  obtain ⟨hwt, out, free, rfl⟩ := fetched
  have denied : imageDenied bytes { running tag s with xlt := { (running tag s).xlt with hwt := hwt }, out := out, free := free } =
    imageDenied bytes s := rfl
  have outside : recordOutside (parseFw bytes)
    { running tag s with xlt := { (running tag s).xlt with hwt := hwt }, out := out, free := free } = recordOutside (parseFw bytes) s := rfl
  have same : emergency { running tag s with xlt := { (running tag s).xlt with hwt := hwt }, out := out, free := free } = emergency s := rfl
  intro t
  simp only [t, denied, outside]
  split
  · exact ⟨ended_mbEnd rfl, rfl⟩
  · split
    · exact ⟨ended_mbEnd rfl, rfl⟩
    · simp only [stagePeel, same]
      split <;> exact ⟨ended_mbEnd rfl, rfl, rfl⟩

/-- An image for a slot, once fetched (R755, R760). -/
theorem update_written (fetched : Fetched (running tag s) u) (flash : s.mgt.flash.present = true) :
    let t := if imageDenied bytes u then mbEnd .denied [] u
      else if !u.mgt.flash.present then mbEnd .aborted [] (raise 0 4 0 u)
      else beginSlot (inactiveSlot u) (parseFw bytes) true true u
    if imageDenied bytes s then Ended tag .denied t ∧ t.mgt.flashOp = s.mgt.flashOp
    else t.mgt.busy = true ∧ t.mgt.flashOp = .slot (inactiveSlot s) (parseFw bytes) true true ∧
      t.mgt.flash = emptySlot (inactiveSlot s) s.mgt.flash := by
  obtain ⟨hwt, out, free, rfl⟩ := fetched
  have denied : imageDenied bytes { running tag s with xlt := { (running tag s).xlt with hwt := hwt }, out := out, free := free } =
    imageDenied bytes s := rfl
  have there : (!(running tag s).mgt.flash.present) = false := by simp [running, flash]
  intro t
  simp only [t, denied, there]
  split
  · exact ⟨ended_mbEnd rfl, rfl⟩
  · exact ⟨rfl, rfl, rfl⟩

theorem flashWriteDone_trial {slot : Nat} {i : FwImage} (writes : s.mgt.flashOp = .slot slot i true true) (ok : Bool) :
    flashWriteDone ok s = if ok then
        mbEnd .ok [i.version.toNat] { s with mgt := { s.mgt with flashOp := .none, flash := { putSlot slot i s.mgt.flash with trial := some slot } } }
      else mbEnd .aborted [] (raise 0 4 0 { s with mgt := { s.mgt with flashOp := .none } }) := by
  rw [flashWriteDone, writes]
  rfl

end

/-- Settles O17: an update follows the checks of R760 in their order, and the end of a slot's write says what the slot then holds. -/
theorem firmwareUpdate : Obligations.FirmwareUpdate := by
  unfold Obligations.FirmwareUpdate
  refine ⟨fun tag bytes s free allowed ask size runs room => ?_, fun tag bytes s free allowed flash ask size runs room => ?_,
    fun slot i s writes => ?_, fun slot i s groups calm writes => ?_⟩
  · obtain ⟨u, fetched, updated⟩ := fwUpdate_fetched (s := running tag s) (act := 2) ask (.inr rfl) allowed size runs room
    exact ⟨_, congrArg Host.Outcome.next ((mbCommand_of_free free).trans updated), update_staged fetched⟩
  · obtain ⟨u, fetched, updated⟩ := fwUpdate_fetched (s := running tag s) (act := 1) ask (.inl rfl) allowed size runs room
    exact ⟨_, congrArg Host.Outcome.next ((mbCommand_of_free free).trans updated), update_written fetched flash⟩
  · refine ⟨_, congrArg (fun t => Host.Outcome.next (refresh t)) (flashWriteDone_trial writes true), ?_⟩
    simp only [Ended, if_true, refresh_mgt]
    exact ⟨⟨rfl, rfl, rfl, rfl⟩, rfl, rfl⟩
  · have noted : Calm 0 { s with mgt := { s.mgt with flashOp := .none } } := calm
    have mgt := Laws.raise_calm_mgt (bit := 4) (unit := 0) (s := { s with mgt := { s.mgt with flashOp := .none } }) groups noted
    have set : FaultSet 0 4 (raise 0 4 0 { s with mgt := { s.mgt with flashOp := .none } }) := Laws.raise_sets groups (by decide)
    refine ⟨_, congrArg (fun t => Host.Outcome.next (refresh t)) (flashWriteDone_trial writes false), ?_⟩
    simp only [Ended, Bool.false_eq_true, if_false, refresh_mgt, FaultSet, refresh_grp]
    simp only [mbEnd, mgt]
    exact ⟨⟨trivial, trivial, trivial, trivial⟩, trivial, set⟩

end Sys2Proof.Proofs
end

section
/-! SUPPORT. Recovery loads and the retry of a start. -/
namespace Sys2Proof.Machine
open Sys2Proof Sys2Proof.Safety

variable {s : State}

/-- The start record of a fitted flash changes, and nothing else does. -/
theorem setStart_shape (f : StartRec → StartRec) (s : State) :
    ∃ flash, setStart f s = { s with mgt := { s.mgt with flash := flash } } ∧ (s.mgt.flash.present = true → flash.start = f s.mgt.flash.start) := by
  unfold setStart
  split
  · exact ⟨_, rfl, fun _ => rfl⟩
  · next absent => exact ⟨s.mgt.flash, rfl, fun present => absurd present absent⟩

/-- The base state of a reset, but for what a reset sends. -/
theorem enterReset_shape (s : State) : ∃ out, enterReset s = { hubBase s with out := out } := by
  unfold enterReset
  dsimp only
  split
  · exact ⟨_, rfl⟩
  · exact ⟨_, rfl⟩

end Sys2Proof.Machine

namespace Sys2Proof.Proofs
open Sys2Proof Sys2Proof.Machine Sys2Proof.Safety

section
variable {tag : BitVec 8} {s : State}

theorem recoveryBegin_ends (held : s.mgt.curTag = tag) (flat : s.mgt.stage = .flatbread) :
    Ended tag .ok (recoveryBegin s) ∧ (recoveryBegin s).mgt.rcvOn = true ∧ (recoveryBegin s).mgt.rcv = [] := by
  rw [recoveryBegin, if_neg (by simp [flat])]
  exact ⟨ended_mbEnd held, rfl, rfl⟩

/-- A recovery image runs where it verifies and its SVN is not below the counter; else the load is DENIED (R746 to R748). -/
theorem recoveryRun_ends (held : s.mgt.curTag = tag) (flat : s.mgt.stage = .flatbread) (begun : s.mgt.rcvOn = true) :
    let b := s.mgt.rcv.take (mbArg s 1)
    if fwOk b recoveryRoom && decide (s.lcs.otp.rollback ≤ bfld b 8 0 8) then
      Ended tag .ok (recoveryRun s) ∧ (recoveryRun s).mgt.running = .load ∧ (recoveryRun s).mgt.fw = parseFw b ∧ (recoveryRun s).mgt.stage = .s1
    else Ended tag .denied (recoveryRun s) ∧ (recoveryRun s).mgt.stage = .flatbread ∧ (recoveryRun s).mgt.fw = s.mgt.fw := by
  intro b
  by_cases good : (fwOk b recoveryRoom && decide (s.lcs.otp.rollback ≤ bfld b 8 0 8)) = true
  · rw [if_pos good]
    rw [Bool.and_eq_true, decide_eq_true_eq] at good
    obtain ⟨verified, fresh⟩ := good
    obtain ⟨flash, started, -⟩ := setStart_shape (fun _ => {}) (mbEnd .ok [] s)
    unfold recoveryRun
    dsimp only
    rw [if_neg (by simp [flat, begun, b, verified, fresh]), started]
    exact ⟨⟨rfl, rfl, rfl, held⟩, rfl, rfl, rfl⟩
  · rw [if_neg good]
    have bad : (s.mgt.stage != .flatbread || !s.mgt.rcvOn || !fwOk b recoveryRoom || decide (bfld b 8 0 8 < s.lcs.otp.rollback)) = true := by
      simp only [Bool.and_eq_true, decide_eq_true_eq, not_and, not_le] at good
      cases verified : fwOk b recoveryRoom with
      | false => simp
      | true => simp [good verified]
    unfold recoveryRun
    dsimp only
    rw [if_pos bad]
    exact ⟨ended_mbEnd held, flat, rfl⟩

/-- RETRY_START clears the start record and enters a reset whose start is cold (R758). -/
theorem retryStart_ends (s : State) : (retryStart s).mgt.stage = .rom ∧ (retryStart s).mgt.coldReq = true ∧
    (retryStart s).lcs.otp = s.lcs.otp ∧ (retryStart s).img.loaded = false ∧ (retryStart s).mem.bytes = [] ∧
    (s.mgt.flash.present = true → (retryStart s).mgt.flash.start = {}) ∧ (retryStart s).pending = s.pending := by
  obtain ⟨flash, started, cleared⟩ := setStart_shape (fun _ => {}) (mbEnd .ok [] s)
  obtain ⟨out, entered⟩ := enterReset_shape
    { setStart (fun _ => {}) (mbEnd .ok [] s) with mgt := { (setStart (fun _ => {}) (mbEnd .ok [] s)).mgt with coldReq := true } }
  unfold retryStart
  dsimp only
  rw [entered, started]
  exact ⟨rfl, rfl, rfl, rfl, rfl, cleared, rfl⟩

end

/-- Settles O18: the commands of a recovery load and of a retried start, each with what it leaves. -/
theorem recoveryLoad : Obligations.RecoveryLoad := by
  unfold Obligations.RecoveryLoad
  refine ⟨fun tag s idle here alive flat => ⟨?_, fun begun => ?_⟩, fun val s begun room => ?_, fun tag s free => ?_⟩
  · exact ⟨_, congrArg Host.Outcome.next (mbCommand_of_flatbread idle here alive rfl), recoveryBegin_ends (s := running tag s) rfl flat⟩
  · exact ⟨_, congrArg Host.Outcome.next (mbCommand_of_flatbread idle here alive rfl), recoveryRun_ends (s := running tag s) rfl flat begun⟩
  · exact congrArg Host.Outcome.next (if_pos ⟨begun, room⟩)
  · exact ⟨_, congrArg Host.Outcome.next (mbCommand_of_free free), retryStart_ends (running tag s)⟩

end Sys2Proof.Proofs
end

section
/-! SUPPORT. Image loads: the report, the end of a load, the start and end of a fetch, validation and activation. -/
namespace Sys2Proof.Machine
open Sys2Proof Sys2Proof.Safety

variable {tag : BitVec 8} {s : State}

/-! ### The report and the end of a load (R89, R96) -/

/-- Folding sends adds to what has been sent. -/
theorem foldl_emit_shape {α : Type} (f : State → α → Emit) (l : List α) (s : State) :
    ∃ out, l.foldl (fun s a => s.emit (f s a)) s = { s with out := out } := by
  induction l generalizing s with
  | nil => exact ⟨s.out, rfl⟩
  | cons a l ih =>
    obtain ⟨out, h⟩ := ih (s.emit (f s a))
    exact ⟨out, h⟩

theorem putReport_shape (addr len : Nat) (r : Report) (s : State) : ∃ report out,
    putReport addr len r s = { s with img := { s.img with report := report }, out := out } ∧ report.status = r.status := by
  unfold putReport
  dsimp only
  split
  · obtain ⟨out, sent⟩ := foldl_emit_shape (fun s (p : Nat × Nat) => Emit.hostWrite (hostTlp s) p.1 _ false) _ _
    exact ⟨_, out, sent, rfl⟩
  · exact ⟨_, s.out, rfl, rfl⟩

/-- What the end of a load leaves: no load, no validated image, and a report with its status; the running and the armed images stay. -/
structure LoadEnded (st : Status) (s t : State) : Prop where
  loaded : t.img.loaded = s.img.loaded
  run : t.img.run = s.img.run
  armed : t.img.armed = s.img.armed
  load : t.img.load = {}
  fullOk : t.img.fullOk = false
  status : t.img.report.status = st
  mem : t.mem = s.mem
  windows : s.img.load.hwtIx = none → t.xlt = s.xlt
  mailbox : s.img.load.boot = false → Ended s.mgt.curTag st t

theorem dropWindow_shape (i : Option Nat) (s : State) : ∃ xlt, dropWindow i s = { s with xlt := xlt } ∧ (i = none → xlt = s.xlt) := by
  cases i with
  | none => exact ⟨s.xlt, rfl, fun _ => rfl⟩
  | some i => exact ⟨_, rfl, fun h => by cases h⟩

theorem endLoad_ends (st : Status) (es : List ReportEntry) (s : State) : LoadEnded st s (endLoad st es s) := by
  obtain ⟨xlt, dropped, same⟩ := dropWindow_shape s.img.load.hwtIx s
  obtain ⟨report, out, put, status⟩ := putReport_shape s.img.load.repAddr.toNat s.img.load.repLen
    { status := st, imageId := s.img.load.imageId, entries := es } { s with xlt := xlt }
  unfold endLoad
  dsimp only
  rw [dropped, put]
  split
  · next boot => exact ⟨rfl, rfl, rfl, rfl, rfl, status, rfl, same, fun mail => by simp [boot] at mail⟩
  · exact ⟨rfl, rfl, rfl, rfl, rfl, status, rfl, same, fun _ => ended_mbEnd rfl⟩

/-! ### The start of a fetch (R84) -/

/-- A fetch of a legal length starts with a read of the whole length through a free window. -/
theorem startLoad_starts {l : Load} (least : 64 ≤ l.length) (most : l.length ≤ 0x01800000) (runs : s.host.dmaStopped = false)
    (room : (freeWindow s).isSome = true) : ∃ i, freeWindow s = some i ∧ (startLoad l s).img.load.stage = .fetching ∧
      (startLoad l s).img.load.length = l.length ∧ (startLoad l s).img.load.toFlash = l.toFlash ∧ (startLoad l s).img.run = s.img.run ∧
      (startLoad l s).mem = s.mem ∧
      (startLoad l s).out = .hostRead (hubTlp .untranslated) i l.srcAddr.toNat l.length :: s.out := by
  obtain ⟨i, window⟩ := Option.isSome_iff_exists.mp room
  obtain ⟨e, fetched⟩ := fetchWindow_of_free (iova := l.srcAddr.toNat) (n := l.length)
    (s := { s with img := { s.img with load := { l with stage := .fetching }, report := {} } }) window
  refine ⟨i, window, ?_⟩
  unfold startLoad
  dsimp only
  rw [if_neg (by omega), if_neg (by omega), if_neg (by simp [runs]), fetched]
  exact ⟨rfl, rfl, rfl, rfl, rfl, rfl⟩

/-- An empty load ends EMPTY with no access. -/
theorem startLoad_empty {l : Load} (none_asked : l.length = 0) :
    LoadEnded .empty { s with img := { s.img with load := { l with stage := .fetching }, report := {} } } (startLoad l s) := by
  unfold startLoad
  dsimp only
  rw [if_pos none_asked]
  exact endLoad_ends _ _ _

/-- A load of another illegal length ends ABORTED with no access. -/
theorem startLoad_illegal {l : Load} (some_asked : 0 < l.length) (illegal : l.length < 64 ∨ 0x01800000 < l.length) :
    LoadEnded .aborted { s with img := { s.img with load := { l with stage := .fetching }, report := {} }, free := s.free + 1 }
      (startLoad l s) := by
  unfold startLoad
  dsimp only
  rw [if_neg (by omega), if_pos illegal]
  exact endLoad_ends _ _ _

theorem mbArg64_word (s : State) (n : Nat) : (BitVec.ofNat 64 (mbArg64 s n)).toNat = mbArg64 s n := by
  have low : mbArg s n < 2 ^ 32 := (Tab.get 0#32 s.mgt.args n).isLt
  have high : mbArg s (n + 1) < 2 ^ 32 := (Tab.get 0#32 s.mgt.args (n + 1)).isLt
  rw [BitVec.toNat_ofNat, mbArg64]
  omega

/-! ### The end of a fetch (R85) -/

/-- The state in which a file's checks run. -/
def fetchedState (s : State) : State := dropWindow s.img.load.hwtIx { s with img := { s.img with load := { s.img.load with hwtIx := none } } }

theorem fetchedState_shape (s : State) :
    ∃ xlt, fetchedState s = { s with xlt := xlt, img := { s.img with load := { s.img.load with hwtIx := none } } } := by
  obtain ⟨xlt, dropped, -⟩ := dropWindow_shape s.img.load.hwtIx { s with img := { s.img with load := { s.img.load with hwtIx := none } } }
  exact ⟨xlt, dropped⟩

theorem imageFetchDone_eq {bytes : List Byte} (fetching : s.img.load.stage = .fetching) (size : bytes.length = s.img.load.length) :
    imageFetchDone bytes s = fileReady bytes (some bytes.length) (fetchedState s) := by
  have whole : (bytes ++ List.replicate (s.img.load.length - bytes.length) 0#8).take s.img.load.length = bytes := by simp [size]
  unfold imageFetchDone fetchedState
  dsimp only
  rw [if_neg (by simp [fetching]), whole, size]

/-- Whatever a file's checks find, the running image and memory stay. -/
theorem fileReady_frame (f : List Byte) (req : Option Nat) (s : State) :
    (fileReady f req s).img.run = s.img.run ∧ (fileReady f req s).mem = s.mem := by
  have ends : ∀ st es, (endLoad st es { s with img := { s.img with load := { s.img.load with imageId := reportId f req } } }).img.run = s.img.run ∧
      (endLoad st es { s with img := { s.img with load := { s.img.load with imageId := reportId f req } } }).mem = s.mem :=
    fun st es => ⟨(endLoad_ends st es _).run, (endLoad_ends st es _).mem⟩
  unfold fileReady
  dsimp only
  split
  · exact ends _ _
  · split
    · exact ends _ _
    · split
      · exact ends _ _
      · split
        · exact ends _ _
        · exact ⟨rfl, rfl⟩

/-- The first failing step ends the load with its status. -/
theorem fileReady_fails {f : List Byte} {req : Option Nat} {st : Status} (fails : (checkFile s f req).1.ends = some st)
    (mail : s.img.load.boot = false) : Ended s.mgt.curTag st (fileReady f req s) ∧ (fileReady f req s).img.load = {} ∧
      (fileReady f req s).img.report.status = st := by
  have ended := endLoad_ends st (checkFile s f req).1.entries
    { s with img := { s.img with load := { s.img.load with imageId := reportId f req } } }
  unfold fileReady
  dsimp only
  rw [fails]
  exact ⟨ended.mailbox mail, ended.load, ended.status⟩

/-- A full image that passes waits for its validation. -/
theorem fileReady_waits {f : List Byte} {req : Option Nat} (passes : (checkFile s f req).1.ends = none)
    (full : (checkFile s f req).2.partialKind = false)
    (unarmed : s.img.armed.any (fun e => e.2.isSome) = false) (runs : s.flt.stopped = false) :
    (fileReady f req s).img.load.stage = .fetched ∧ (fileReady f req s).img.load.cand = (checkFile s f req).2 ∧
      (fileReady f req s).mgt.busy = s.mgt.busy := by
  unfold fileReady
  dsimp only
  rw [passes]
  dsimp only
  rw [if_neg (by simp [full]), if_neg (by simp [unarmed]), if_neg (by simp [runs])]
  exact ⟨rfl, rfl, rfl⟩

end Sys2Proof.Machine

namespace Sys2Proof.Proofs
open Sys2Proof Sys2Proof.Machine Sys2Proof.Safety

section
variable {s : State}

theorem loadImage_eq (idle : s.img.load.stage = .idle) (known : mbArg s 6 % 4 ≠ 3) : ∃ l : Load, loadImage s = startLoad l s ∧
    l.length = mbArg s 2 ∧ l.toFlash = false ∧ l.boot = false ∧ l.hwtIx = none ∧ l.srcAddr.toNat = mbArg64 s 0 := by
  unfold loadImage
  dsimp only
  rw [if_neg (by simp [idle, known])]
  exact ⟨_, rfl, rfl, rfl, rfl, rfl, mbArg64_word s 0⟩

theorem writeBootImage_eq (idle : s.img.load.stage = .idle) : ∃ l : Load, writeBootImage s = startLoad l s ∧
    l.length = mbArg s 2 ∧ l.toFlash = true ∧ l.boot = false ∧ l.hwtIx = none ∧ l.srcAddr.toNat = mbArg64 s 0 := by
  unfold writeBootImage
  dsimp only
  rw [if_neg (by simp [idle])]
  exact ⟨_, rfl, rfl, rfl, rfl, rfl, mbArg64_word s 0⟩

end

/-- Settles O19: both commands start the same fetch, and its end follows the checks of the file. -/
theorem imageFetch : Obligations.ImageFetch := by
  unfold Obligations.ImageFetch
  refine ⟨fun tag s free idle => ⟨fun least most runs room => ⟨fun known => ?_, ?_⟩, fun empty known => ?_, fun some_asked illegal => ?_⟩,
    fun bytes s fetching mail size => ?_⟩
  · obtain ⟨l, loads, length, flash, -, -, src⟩ := loadImage_eq (s := running tag s) idle known
    obtain ⟨i, window, starts⟩ := startLoad_starts (s := running tag s) (l := l) (by rw [length]; exact least) (by rw [length]; exact most) runs room
    rw [← loads, length, flash, src] at starts
    exact ⟨_, i, congrArg Host.Outcome.next (mbCommand_of_free free), window, starts⟩
  · obtain ⟨l, loads, length, flash, -, -, src⟩ := writeBootImage_eq (s := running tag s) idle
    obtain ⟨i, window, starts⟩ := startLoad_starts (s := running tag s) (l := l) (by rw [length]; exact least) (by rw [length]; exact most) runs room
    rw [← loads, length, flash, src] at starts
    exact ⟨_, i, congrArg Host.Outcome.next (mbCommand_of_free free), window, starts⟩
  · obtain ⟨l, loads, length, -, boot, window, -⟩ := loadImage_eq (s := running tag s) idle known
    have ended := startLoad_empty (s := running tag s) (l := l) (length.trans empty)
    rw [← loads] at ended
    exact ⟨_, congrArg Host.Outcome.next (mbCommand_of_free free), ended.mailbox boot, ended.windows window, ended.mem, ended.load⟩
  · obtain ⟨l, loads, length, -, boot, window, -⟩ := writeBootImage_eq (s := running tag s) idle
    have ended := startLoad_illegal (s := running tag s) (l := l) (by rw [length]; exact some_asked) (by rw [length]; exact illegal)
    rw [← loads] at ended
    exact ⟨_, congrArg Host.Outcome.next (mbCommand_of_free free), ended.mailbox boot, ended.windows window, ended.mem, ended.load⟩
  · intro u c
    obtain ⟨run, mem⟩ := fileReady_frame bytes (some bytes.length) u
    obtain ⟨xlt, same⟩ : ∃ xlt, u = _ := fetchedState_shape s
    have boot : u.img.load.boot = false := by rw [same]; exact mail
    have tag : u.mgt.curTag = s.mgt.curTag := by rw [same]
    refine ⟨_, congrArg Host.Outcome.next (imageFetchDone_eq fetching size), ?_, ?_, fun st fails => ?_, fun passes full _ unarmed runs => ?_⟩
    · exact run.trans (by rw [same])
    · exact mem.trans (by rw [same])
    · rw [← tag]
      exact fileReady_fails fails boot
    · have busy : u.mgt.busy = s.mgt.busy := by rw [same]
      have noneArmed : u.img.armed.any (fun e => e.2.isSome) = false := by rw [same]; exact unarmed
      have serves : u.flt.stopped = false := by rw [same]; exact runs
      rw [← busy]
      exact fileReady_waits passes full noneArmed serves

/-- Settles O20: the end of validation by the kind of image. -/
theorem imageValidationEnds : Obligations.ImageValidationEnds := by
  unfold Obligations.ImageValidationEnds
  intro s fetched mail here
  refine ⟨fun full isOpen => ?_, fun full closed => ?_, fun part hold there unarmed => ?_⟩
  · refine ⟨imageValidationDone s, rfl, ?_⟩
    unfold imageValidationDone
    dsimp only
    rw [if_neg (by simp [fetched]), if_neg (by simp [here]), if_neg (by simp [full]), if_neg (by simp [isOpen])]
    exact ⟨rfl, rfl, rfl, rfl⟩
  · have ended := endLoad_ends .aborted (s.img.load.entries ++ (clampImage s.img.load.cand).1) s
    have validated : imageValidationDone s = endLoad .aborted (s.img.load.entries ++ (clampImage s.img.load.cand).1) s := by
      unfold imageValidationDone
      dsimp only
      rw [if_neg (by simp [fetched]), if_neg (by simp [here]), if_neg (by simp [full]), if_pos (by simp [closed])]
    exact ⟨_, congrArg Host.Outcome.next validated, ended.mailbox mail, ended.fullOk, ended.run⟩
  · refine ⟨imageValidationDone s,
      { img := (clampImage s.img.load.cand).2, act := .atHold,
        report := { imageId := s.img.load.imageId, entries := s.img.load.entries ++ (clampImage s.img.load.cand).1 },
        repAddr := s.img.load.repAddr, repLen := s.img.load.repLen }, rfl, ?_⟩
    unfold imageValidationDone
    dsimp only
    rw [if_neg (by simp [fetched]), if_neg (by simp [here]), if_pos part, hold]
    dsimp only
    rw [if_neg (by simp), if_neg (by simp [there, unarmed])]
    exact ⟨ended_mbEnd rfl, rfl, rfl, rfl, rfl, rfl⟩

end Sys2Proof.Proofs
end

section
/-! SUPPORT. Activation of images: what installing an image makes the running image, and that nothing after it changes it. -/
namespace Sys2Proof.Laws
open Sys2Proof Sys2Proof.Machine Sys2Proof.Safety

/-- The image state has a running image and a table of armed ones. -/
structure ImageIs (loaded : Bool) (run : Image) (armed : Tab (Option Armed)) (i : ImageState) : Prop where
  loaded : i.loaded = loaded
  run : i.run = run
  armed : i.armed = armed

/-- An operation that touches neither the running image nor the armed ones. -/
theorem ImageIs.frm {loaded : Bool} {run : Image} {armed : Tab (Option Armed)} {s t : State} (moved : Frm 133 s t) (h : ImageIs loaded run armed s.img) :
    ImageIs loaded run armed t.img := by
  obtain ⟨sameRun, sameLoaded⟩ := moved.image rfl
  obtain ⟨-, sameArmed, -⟩ := moved.load rfl
  exact ⟨sameLoaded.trans h.loaded, sameRun.trans h.run, sameArmed.trans h.armed⟩

/-- What holds of the running image and the armed ones holds after such an operation. -/
theorem ImageIs.carry {P : Image → Tab (Option Armed) → Prop} {s t : State} (moved : Frm 133 s t) (h : P s.img.run s.img.armed) :
    P t.img.run t.img.armed := by
  obtain ⟨-, run, armed⟩ := ImageIs.frm moved ⟨rfl, rfl, rfl⟩
  rw [run, armed]
  exact h

/-- Installing a full image makes it the running image and leaves none armed (R92). -/
theorem installFull_image (img : Image) (s : State) : ImageIs true img [] (installFull img s).img := by
  unfold installFull
  dsimp only
  refine ImageIs.frm (Frm.foldl (fun _ _ h => frm_setMeas h) (frm_setMeas (Frm.foldl (fun _ _ h => frm_modVi (frm_detachVi h))
    (frm_settlePorts (frm_holdFclk (Frm.refl _ _)))))) ?_
  dsimp only
  refine ImageIs.frm (frm_setPolicy rfl (Frm.foldl (fun _ _ h => Frm.ite (frm_setQos h) h) (Frm.refl _ _))) ?_
  dsimp only
  refine ImageIs.frm (Frm.foldl (fun _ _ h => frm_writeSlots h) (frm_resetGranules rfl (frm_setDomains (frm_setOwners
    (Frm.foldl (fun _ _ h => frm_setSitePair h) (Frm.foldl (fun _ _ h => frm_installPart h) (Frm.refl _ _))))))) ?_
  exact ⟨rfl, rfl, rfl⟩

/-- Installing a partition's image merges it into the running one and leaves none armed for the partition (R94). -/
theorem installPartial_image (a : Image) (p : Nat) (s : State) :
    (installPartial a p s).img.run.base = (mergeImage s.img.run a p).base ∧
      (installPartial a p s).img.run.variants = (mergeImage s.img.run a p).variants ∧
      (installPartial a p s).img.armed = Tab.set none s.img.armed p none := by
  have ended : ImageIs s.img.loaded s.img.run s.img.armed ((s.visOf p).foldl (fun s v => endSession v 4 s) s).img :=
    ImageIs.frm (Frm.foldl (fun _ _ h => frm_endSession h) (Frm.refl _ _)) ⟨rfl, rfl, rfl⟩
  unfold installPartial
  dsimp only
  generalize (s.visOf p).foldl (fun s v => endSession v 4 s) s = u at ended ⊢
  obtain ⟨-, run, armed⟩ := ended
  rw [← run, ← armed]
  refine ImageIs.carry (P := fun run armed => run.base = (mergeImage u.img.run a p).base ∧
    run.variants = (mergeImage u.img.run a p).variants ∧ armed = Tab.set none u.img.armed p none)
    (frm_setMeas (Frm.foldl (fun _ _ h => frm_deliverHeld h) (frm_rewritePolicy rfl (frm_settlePorts
      (frm_setQos (frm_writeSlots (Frm.refl _ _))))))) ?_
  exact ⟨rfl, rfl, rfl⟩

end Sys2Proof.Laws

namespace Sys2Proof.Proofs
open Sys2Proof Sys2Proof.Machine Sys2Proof.Safety

section
variable {s : State}

/-- The end of a full image's activation: the load ends, and what is in the running image and armed stays. -/
theorem activation_ends {run : Image} (st : Status) (es : List ReportEntry) (go : List Nat) (installed : Laws.ImageIs true run [] s.img) :
    let t := endLoad st es (go.foldl (fun s p => becomeReady p s) s)
    t.img.loaded = true ∧ t.img.run = run ∧ t.img.fullOk = false ∧ t.img.load = {} ∧ t.img.armed = [] := by
  intro t
  have moved : Laws.Frm 133 s (go.foldl (fun s p => becomeReady p s) s) :=
    Laws.Frm.foldl (fun _ _ h => Laws.frm_becomeReady h) (Laws.Frm.refl _ _)
  have ready := installed.frm moved
  have ended := endLoad_ends st es (go.foldl (fun s p => becomeReady p s) s)
  exact ⟨ended.loaded.trans ready.loaded, ended.run.trans ready.run, ended.fullOk, ended.load, ended.armed.trans ready.armed⟩

theorem fullImageActivate_installs (valid : s.img.fullOk = true) (isOpen : fullOpen s = true) :
    (fullImageActivate s).img.loaded = true ∧ (fullImageActivate s).img.run = s.img.load.cand ∧ (fullImageActivate s).img.fullOk = false ∧
      (fullImageActivate s).img.load = {} ∧ (fullImageActivate s).img.armed = [] := by
  have installed := Laws.installFull_image s.img.load.cand s
  unfold fullImageActivate
  dsimp only
  rw [if_neg (by simp [valid]), if_neg (by simp [isOpen])]
  simp only [refresh_img]
  generalize installFull s.img.load.cand s = u at installed ⊢
  exact activation_ends _ _ _ installed

theorem partialImageActivate_installs {p : Nat} {a : Armed} (armed : Tab.get none s.img.armed p = some a) (now : actNow s p a = true)
    (clean : fencedEntries s (exclude (s.part p).cfg (exclOf (mergeImage s.img.run a.img p) p a.img.variant)) p none = []) :
    (partialImageActivate p s).img.armed = Tab.set none s.img.armed p none ∧
      (partialImageActivate p s).img.run.base = (mergeImage s.img.run a.img p).base ∧
      (partialImageActivate p s).img.run.variants = (mergeImage s.img.run a.img p).variants := by
  obtain ⟨base, variants, none_left⟩ := Laws.installPartial_image a.img p s
  unfold partialImageActivate
  rw [armed]
  dsimp only
  rw [if_neg (by simp [now]), if_neg (by simp [clean])]
  simp only [refresh_img]
  generalize installPartial a.img p s = u at base variants none_left ⊢
  obtain ⟨report, out, put, -⟩ := putReport_shape a.repAddr.toNat a.repLen { a.report with activeStep := (s.part p).step } u
  rw [put]
  have ready := Laws.ImageIs.frm (Laws.frm_becomeReady (p := p) (Laws.Frm.refl 133 { u with img := { u.img with report := report }, out := out }))
    ⟨rfl, rfl, rfl⟩
  rw [ready.run, ready.armed]
  exact ⟨none_left, base, variants⟩

end

/-- Settles O21: what installing an image makes the running image stays so to the end of its activation. -/
theorem imageActivation : Obligations.ImageActivation := by
  unfold Obligations.ImageActivation
  refine ⟨fun s valid isOpen => ?_, fun s valid closed => ?_, fun p s a armed now clean => ?_, fun p s a armed later => ?_⟩
  · exact ⟨fullImageActivate s, rfl, fullImageActivate_installs valid isOpen⟩
  · have ended := endLoad_ends .aborted s.img.load.entries s
    refine ⟨fullImageActivate s, rfl, ?_⟩
    unfold fullImageActivate
    dsimp only
    rw [if_neg (by simp [valid]), if_pos (by simp [closed])]
    exact ⟨ended.run, ended.fullOk, ended.mem⟩
  · exact ⟨partialImageActivate p.val s, rfl, partialImageActivate_installs armed now clean⟩
  · refine congrArg Host.Outcome.next ?_
    unfold partialImageActivate
    rw [armed]
    dsimp only
    rw [if_pos (by simp [later])]

end Sys2Proof.Proofs
end

section
/-! SUPPORT. Device mappings: what MAP_DEVICE adds to the mappings and what UNMAP_DEVICE leaves of them. -/
namespace Sys2Proof.Machine
open Sys2Proof Sys2Proof.Safety Sys2Proof.Laws

variable {s t : State}

/-! ### Pages (R271, R761) -/

/-- A page that finds room is the last of the mappings. -/
theorem mapPage_maps {p : Nat} {m : DevMap} (h : mapPage p m s = some t) : t.xlt.maps = s.xlt.maps ++ [m] := by
  unfold mapPage at h
  dsimp only at h
  split at h
  · cases h
  · next r u rooted =>
    have sameMaps : u.xlt.maps = s.xlt.maps := by
      split at rooted
      · cases rooted; rfl
      · cases made : newTable p (decide (0x010000000000 ≤ m.pa)) s with
        | none => rw [made] at rooted; cases rooted
        | some x =>
          obtain ⟨a, y⟩ := x
          rw [made] at rooted
          cases rooted
          exact (((frm_newTable (Frm.refl 0 s)).out a y made).mappings rfl).1
    cases entered : enterPage p m (decide (0x010000000000 ≤ m.pa)) 3 r u with
    | none => rw [entered] at h; cases h
    | some v =>
      rw [entered] at h
      cases h
      have sameEntered := (((frm_enterPage rfl 3 (Frm.refl 1 u)).out v entered).mappings rfl).1
      have forgot := ((frm_xlForget (ctx := m.ctx) (Frm.refl 0 { v with xlt := { v.xlt with maps := v.xlt.maps ++ [m] } })).mappings rfl).1
      exact forgot.trans (by rw [sameEntered, sameMaps])

/-- Pages that all find room are the last of the mappings. -/
theorem mapPages_maps {p : Nat} : ∀ {ms : List DevMap} {s : State}, mapPages p ms s = some t → t.xlt.maps = s.xlt.maps ++ ms
  | [], s, h => by cases h; rw [List.append_nil]
  | m :: ms, s, h => by
    rw [mapPages] at h
    cases first : mapPage p m s with
    | none => rw [first] at h; cases h
    | some u =>
      rw [first] at h
      rw [mapPages_maps h, mapPage_maps first, List.append_assoc]
      rfl

/-- Pages entered where they find room add no other mapping. -/
theorem foldl_mapPage_maps {p : Nat} : ∀ (ms : List DevMap) (s : State),
    ∀ m ∈ (ms.foldl (fun s m => (mapPage p m s).getD s) s).xlt.maps, m ∈ s.xlt.maps ∨ m ∈ ms
  | [], s => fun m h => .inl h
  | x :: ms, s => fun m h => by
    rcases foldl_mapPage_maps ms _ m h with old | new
    · have old : m ∈ ((mapPage p x s).getD s).xlt.maps := old
      cases entered : mapPage p x s with
      | none =>
        rw [entered] at old
        exact .inl old
      | some u =>
        rw [entered] at old
        have here : m ∈ u.xlt.maps := old
        rw [mapPage_maps entered, List.mem_append] at here
        rcases here with old | new
        · exact .inl old
        · exact .inr (by simpa using .inl (List.mem_singleton.mp new))
    · exact .inr (List.mem_cons_of_mem _ new)

/-- Tables made anew hold only the mappings that stood. -/
theorem rebuildTables_maps (p : Nat) (s : State) : ∀ m ∈ (rebuildTables p s).xlt.maps, m ∈ s.xlt.maps := by
  intro m h
  unfold rebuildTables at h
  dsimp only at h
  rcases foldl_mapPage_maps _ _ m h with old | new
  · have dropped : ∀ (f : XlEntry → Bool) (l : List (Nat × Nat)), (xlDrop f (l.foldl (fun s x => releaseGran x.2 s) s)).xlt.maps = s.xlt.maps :=
      fun f l => ((frm_xlDrop (f := f) (Frm.foldl (fun _ _ k => frm_releaseGran k) (Frm.refl 0 s))).mappings rfl).1
    have there := List.mem_of_mem_filter old
    rwa [dropped] at there
  · exact List.mem_of_mem_filter new

/-- Granules given back after the tables are made anew: the mappings are among those that stood, and the mailbox holds its tag. -/
theorem rebuilt_released (p : Nat) (gone : List Nat) (s : State) :
    (gone.foldl (fun s g => releaseGran g s) (rebuildTables p s)).mgt.curTag = s.mgt.curTag ∧
      ∀ m ∈ (gone.foldl (fun s g => releaseGran g s) (rebuildTables p s)).xlt.maps, m ∈ s.xlt.maps := by
  have released : Frm 0 (rebuildTables p s) (gone.foldl (fun s g => releaseGran g s) (rebuildTables p s)) :=
    Frm.foldl (fun _ _ h => frm_releaseGran h) (Frm.refl _ _)
  have rebuilt : Frm 5 s (rebuildTables p s) := frm_rebuildTables rfl (Frm.refl _ _)
  obtain ⟨-, -, -, -, tagReleased, -⟩ := released.mailbox rfl
  obtain ⟨-, -, -, -, tagRebuilt, -⟩ := rebuilt.mailbox rfl
  refine ⟨tagReleased.trans tagRebuilt, fun m h => rebuildTables_maps p s m ?_⟩
  rwa [(released.mappings rfl).1] at h

theorem mapEnds_of_room {p ctx dva pg n per w total : Nat} {rs : List Nat} {u : State}
    (mapped : mapPages p (mapPagesOf ctx dva pg n per w rs) u = some t) :
    mapEnds p ctx dva pg n per w total s (some (rs, u)) = mbEnd .ok [total] t := by
  simp only [mapEnds, mapped]

end Sys2Proof.Machine

namespace Sys2Proof.Proofs
open Sys2Proof Sys2Proof.Machine Sys2Proof.Safety

section
variable {tag : BitVec 8} {s u v : State} {p : Nat} {rs : List Nat}

/-- A legal range for which granules and tables are to be had is mapped page by page. -/
theorem mapDevice_maps (held : s.mgt.curTag = tag) :
    let a := mapRange s
    let w := mbArg s 0
    let hbm := bits w 24 2 == 1
    let per := max 1 (kindSize hbm / pageBytes a.2.1)
    let n := a.2.2.2.1 / pageBytes a.2.1
    let runs := (n + per - 1) / per
    a.2.2.2.1 ≠ 0 → a.2.2.2.2 = some p → bits w 24 2 < 2 → (a.2.1 = 3 → bits w 24 2 = 1) →
    s.xlt.maps.any (fun m => m.ctx == a.1 && decide (m.dva < a.2.2.1 + a.2.2.2.1) && decide (a.2.2.1 < m.dva + pageBytes m.page)) = false →
    takeRuns p hbm (max 1 (pageBytes a.2.1 / kindSize hbm)) a.1 (w.testBit 16) runs s = some (rs, u) →
    mapPages p (mapPagesOf a.1 a.2.2.1 a.2.1 n per w rs) u = some v →
    Ended tag .ok (mapDevice s) ∧ (mapDevice s).xlt.maps = s.xlt.maps ++ mapPagesOf a.1 a.2.2.1 a.2.1 n per w rs := by
  intro a w hbm per n runs some_asked part known fits clash taken mapped
  have took := (Laws.frm_takeRuns (Laws.Frm.refl 0 s)).out rs u taken
  have entered := (Laws.frm_mapPages rfl _ (Laws.Frm.refl 5 u)).out v mapped
  obtain ⟨-, -, -, -, tookTag, -⟩ := took.mailbox rfl
  obtain ⟨-, -, -, -, enteredTag, -⟩ := entered.mailbox rfl
  have legal : (decide (2 ≤ bits w 24 2) || (a.2.1 == 3 && bits w 24 2 == 0)) = false := by
    by_cases large : a.2.1 = 3
    · simp [fits large]
    · simp [large, known]
  unfold mapDevice
  dsimp only
  rw [if_neg some_asked, part]
  dsimp only
  rw [if_neg (by rw [clash, legal]; decide), taken, mapEnds_of_room mapped]
  refine ⟨ended_mbEnd (enteredTag.trans (tookTag.trans held)), ?_⟩
  exact (mapPages_maps mapped).trans (by rw [(took.mappings rfl).1])

/-- A range that mapped pages fill loses every mapping. -/
theorem unmapDevice_unmaps (held : s.mgt.curTag = tag) :
    let a := mapRange s
    let hit := s.xlt.maps.filter (fun m => m.ctx == a.1 && decide (m.dva < a.2.2.1 + a.2.2.2.1) && decide (a.2.2.1 < m.dva + pageBytes m.page))
    a.2.2.2.1 ≠ 0 → a.2.2.2.2 = some p →
    hit.all (fun m => decide (a.2.2.1 ≤ m.dva) && decide (m.dva + pageBytes m.page ≤ a.2.2.1 + a.2.2.2.1)) = true →
    (hit.map (fun m => pageBytes m.page)).foldl (· + ·) 0 = a.2.2.2.1 →
    Ended tag .ok (unmapDevice s) ∧
      ∀ m ∈ (unmapDevice s).xlt.maps, ¬ (m.ctx = a.1 ∧ m.dva < a.2.2.1 + a.2.2.2.1 ∧ a.2.2.1 < m.dva + pageBytes m.page) := by
  intro a hit some_asked part inside size
  have fills : (!hit.all (fun m => decide (a.2.2.1 ≤ m.dva) && decide (m.dva + pageBytes m.page ≤ a.2.2.1 + a.2.2.2.1)) ||
      (hit.map (fun m => pageBytes m.page)).foldl (· + ·) 0 != a.2.2.2.1) = false := by
    rw [inside, size, bne_self_eq_false]
    rfl
  unfold unmapDevice
  dsimp only
  rw [if_neg some_asked, part]
  dsimp only
  rw [if_neg (by rw [fills]; exact Bool.false_ne_true)]
  generalize List.filter (α := Nat) _ (List.eraseDups (α := Nat) _) = gone
  obtain ⟨tagKept, stood⟩ := rebuilt_released p gone { s with xlt := { s.xlt with maps := s.xlt.maps.filter (fun m => !hit.contains m) } }
  refine ⟨ended_mbEnd (tagKept.trans held), fun m there overlaps => ?_⟩
  obtain ⟨ctx, low, high⟩ := overlaps
  obtain ⟨mapped, missed⟩ := List.mem_filter.mp (stood m there)
  have struck : m ∈ hit := List.mem_filter.mpr ⟨mapped, by simp [ctx, low, high]⟩
  simp [struck] at missed

end

/-- Settles O22: mapped pages are appended, and what is rebuilt after an unmap is what was not hit. -/
theorem deviceMapping : Obligations.DeviceMapping := by
  unfold Obligations.DeviceMapping
  refine ⟨fun tag s free empty => ?_, fun tag s u v p rs free some_asked part known fits clash taken mapped => ?_,
    fun tag s p free some_asked part inside size => ?_⟩
  · exact ⟨mbEnd .empty [] (running tag s), congrArg Host.Outcome.next ((mbCommand_of_free free).trans (if_pos empty)), ended_mbEnd rfl, rfl, rfl⟩
  · exact ⟨_, congrArg Host.Outcome.next (mbCommand_of_free free),
      mapDevice_maps (s := running tag s) rfl some_asked part known fits clash taken mapped⟩
  · exact ⟨_, congrArg Host.Outcome.next (mbCommand_of_free free),
      unmapDevice_unmaps (s := running tag s) rfl some_asked part inside size⟩

end Sys2Proof.Proofs
end

section
/-! SUPPORT. The control registers of a partition, and the release of a member that is a domain of its own. -/
namespace Sys2Proof.Machine
open Sys2Proof Sys2Proof.Safety

/-- Partition `p` holds `x`, in a table of partitions in canonical form. -/
structure PartIs (p : Nat) (x : Part) (s : State) : Prop where
  parts : Tab.wf {} s.parts = true
  is : s.part p = x

namespace PartIs
variable {p : Nat} {x : Part} {s t : State}

theorem set (h : PartIs p x s) (y : Part) : PartIs p y (s.setPart p y) :=
  ⟨Tab.wf_set h.parts _ _, State.part_setPart h.parts p y⟩

theorem mod (h : PartIs p x s) (f : Part → Part) : PartIs p (f x) (s.modPart p f) := by
  obtain ⟨parts, is⟩ := h
  unfold State.modPart
  rw [is]
  exact set ⟨parts, is⟩ _

theorem keeps (h : PartIs p x s) (same : t.parts = s.parts) : PartIs p x t := by
  obtain ⟨parts, is⟩ := h
  refine ⟨same ▸ parts, ?_⟩
  unfold State.part at is ⊢
  rw [same, is]

end PartIs

variable {p : Nat} {x : Part} {s : State}

/-- STEP_INFO only sends. -/
theorem sendStepInfo_shape (p : Nat) (tick : Tick) (s : State) : ∃ out, sendStepInfo p tick s = { s with out := out } := by
  unfold sendStepInfo
  exact foldl_emit_shape (fun _ k => Emit.gelja k 0x64 _) _ s

theorem armRelease_part (tick : Tick) (dist : Bool) (h : PartIs p x s) :
    PartIs p { x with armed := some { tick := tick, distributed := dist } } (armRelease p tick dist s) := by
  unfold armRelease
  obtain ⟨out, e⟩ := sendStepInfo_shape p tick (s.modPart p (fun x => { x with armed := some { tick := tick, distributed := dist } }))
  rw [e]
  exact (h.mod (fun x => { x with armed := some { tick := tick, distributed := dist } })).keeps rfl

/-- With no tree to measure the margin is the configured one where a measurement is due (R127). -/
theorem measureD_alone (h : PartIs p x s) (tree : treePorts x = []) :
    PartIs p (if x.remeasure || x.treeNew then { x with latency := 0, margin := x.cfg.margin, remeasure := false, treeNew := false } else x)
      (measureD p s) := by
  unfold measureD
  dsimp only
  rw [h.is, tree]
  by_cases due : (x.remeasure || x.treeNew) = true
  · rw [if_pos due, if_pos due]
    exact h.set _
  · rw [if_neg due, if_neg due]
    exact h

/-- A ready member of a domain of one package arms its release at once (R129, R135). -/
theorem tryReady_alone {now : Tick} (h : PartIs p x s) (ready : x.ready = some now) (unsent : x.readySent = false) (unarmed : x.armed = none)
    (root : x.cfg.parentValid = false) (leaf : childPorts x = []) (alone : x.children = []) (rests : x.active = false)
    (complete : x.state = .held → x.heldDone = true) (cool : s.thm.trips = []) :
    ∃ y, PartIs p y (tryReady p s) ∧ y.ready = some now ∧
      y.armed = some { distributed := true, tick := BitVec.ofNat 64 (now.toNat + 2400 + (if x.remeasure || x.treeNew then x.cfg.margin else x.margin)) } := by
  have heldDone : (x.state == .held && !x.heldDone) = false := by
    by_cases held : x.state = .held
    · simp [complete held]
    · simp [held]
  unfold tryReady
  dsimp only
  rw [h.is, if_neg (by simp [ready, unsent, unarmed, allReady, leaf, rests, heldDone, cool]), if_neg (by simp [root]), if_neg (by simp [alone])]
  have measured := measureD_alone h (by simp [treePorts, root, leaf])
  generalize measureD p s = v at measured ⊢
  have sent := measured.mod (fun x => { x with readySent := true })
  have own : childPorts ((v.modPart p (fun x => { x with readySent := true })).part p) = [] := by
    rw [sent.is]
    split <;> exact leaf
  unfold toChildren
  rw [own, measured.is]
  refine ⟨_, armRelease_part _ true sent, ?_, ?_⟩
  · split <;> exact ready
  · by_cases due : (x.remeasure || x.treeNew) = true
    · have same : childPorts { x with latency := 0, margin := x.cfg.margin, remeasure := false, treeNew := false } = [] := leaf
      rw [if_pos due, if_pos due, same, ready]
      rfl
    · rw [if_neg due, if_neg due, leaf, ready]
      rfl

/-- The member of a domain of one package that becomes ready arms its release at once. -/
theorem becomeReady_alone (h : PartIs p x s) (idle : x.ready = none) (unsent : x.readySent = false) (unarmed : x.armed = none)
    (root : x.cfg.parentValid = false) (leaf : childPorts x = []) (alone : x.children = []) (rests : x.active = false)
    (complete : x.state = .held → x.heldDone = true) (cool : s.thm.trips = []) :
    ∃ y, PartIs p y (becomeReady p s) ∧ y.ready = some s.clk.now ∧ y.armed = some { distributed := true, tick := BitVec.ofNat 64 (
      s.clk.now.toNat + 2400 + (if x.remeasure || x.treeNew then x.cfg.margin else x.margin)) } := by
  unfold becomeReady
  dsimp only
  rw [if_neg (by simp [h.is, idle, rests])]
  have ready := h.mod (fun x => { x with ready := some s.clk.now })
  exact tryReady_alone (x := { x with ready := some s.clk.now }) ready rfl unsent unarmed root leaf alone rests complete cool

/-- A member that a release can start is out of its program. -/
theorem active_of_canRelease (can : canRelease s p = true) : (s.part p).active = false := by
  unfold canRelease at can
  unfold Part.active
  cases state : (s.part p).state <;> simp_all

/-- No starter is taken while the partition runs, when it is broken, and under a policy that takes the image's. -/
theorem starterOpen_of_bars (bars : (s.part p).active = true ∨ (s.part p).state = .broken ∨ starterPolicy s = 1) : starterOpen s p = false := by
  unfold starterOpen
  unfold Part.active at bars
  cases state : (s.part p).state <;> simp_all

/-- A refused write at a calm group sets PARAM_REFUSED and leaves the partitions. -/
theorem refuseWrite_calm {g : Nat} (groups : Groups s) (calm : Calm g s) : FaultSet g 0 (refuseWrite g s) ∧ (refuseWrite g s).parts = s.parts :=
  ⟨Laws.raise_sets groups (by decide), Laws.raise_calm_parts groups calm⟩

end Sys2Proof.Machine

namespace Sys2Proof.Proofs
open Sys2Proof Sys2Proof.Machine Sys2Proof.Safety

/-- Settles O26. -/
theorem partitionControl : Obligations.PartitionControl := by
  unfold Obligations.PartitionControl
  intro p s canon x
  have groups := groups_of_canon canon
  obtain ⟨-, parts, -⟩ := canon
  refine ⟨?_, rfl, fun stream rests policy => ?_, fun hi rests => ?_, fun can idle unsent unarmed root leaf alone complete cool => ?_,
    fun calm => ⟨fun cannot => ?_, fun stream bars => ?_, fun hi runs => ?_⟩⟩
  · refine congrArg Host.Outcome.next ?_
    show partHold p.val s = _
    unfold partHold
    exact (apply_ite (s.setPart p.val) _ _ _).symm
  · refine congrArg Host.Outcome.next ?_
    show starterArm p.val stream s = _
    have isOpen : starterOpen s p.val = true := by simpa [starterOpen, policy] using rests
    unfold starterArm
    exact if_pos isOpen
  · refine congrArg Host.Outcome.next ?_
    show stepCounterArm p.val hi s = _
    unfold stepCounterArm
    exact if_neg (by simp [x, rests])
  · have rests : x.active = false := active_of_canRelease can
    obtain ⟨y, now, ready, armed⟩ := becomeReady_alone ⟨parts, rfl⟩ idle unsent unarmed root leaf alone rests complete cool
    refine ⟨partRelease p.val s, rfl, ?_⟩
    unfold partRelease
    rw [if_pos can, refresh_part, now.is]
    exact ⟨ready, armed⟩
  · refine ⟨partRelease p.val s, rfl, ?_⟩
    unfold partRelease
    rw [if_neg (by simp [cannot])]
    exact refuseWrite_calm groups calm
  · refine ⟨starterArm p.val stream s, rfl, ?_⟩
    have shut : starterOpen s p.val = false := starterOpen_of_bars bars
    unfold starterArm
    dsimp only
    rw [if_neg (by simp [shut])]
    exact refuseWrite_calm groups calm
  · refine ⟨stepCounterArm p.val hi s, rfl, ?_⟩
    unfold stepCounterArm
    dsimp only
    rw [if_pos runs]
    exact refuseWrite_calm groups calm

end Sys2Proof.Proofs
end

section
/-! SUPPORT. The registers of a fault group, and what a step leaves of them. -/
namespace Sys2Proof.Machine
open Sys2Proof Sys2Proof.Safety

/-- Fault group `g` holds `x`, in a table of groups whose keys rise. -/
structure GroupIs (g : Nat) (x : FGroup) (s : State) : Prop where
  rises : Groups s
  is : s.grp g = x

/-- The fault block and memory stay. -/
structure LeavesFaults (s t : State) : Prop where
  flt : t.flt = s.flt
  mem : t.mem = s.mem

namespace LeavesFaults
variable {r s t : State}

theorem refl (s : State) : LeavesFaults s s := ⟨rfl, rfl⟩

theorem trans (h : LeavesFaults r s) (k : LeavesFaults s t) : LeavesFaults r t := ⟨k.flt.trans h.flt, k.mem.trans h.mem⟩

theorem foldl {α : Type} {f : State → α → State} (h : ∀ s a, LeavesFaults s (f s a)) (l : List α) (s : State) : LeavesFaults s (l.foldl f s) := by
  induction l generalizing s with
  | nil => exact refl s
  | cons a l ih => exact (h s a).trans (ih (f s a))

end LeavesFaults

variable {g bit unit : Nat} {x : FGroup} {s t : State}

namespace GroupIs

theorem set (h : GroupIs g x s) (y : FGroup) : GroupIs g y (s.setGrp g y) :=
  ⟨Tab.rises_set h.rises _ _, State.grp_setGrp h.rises g y⟩

theorem keeps (h : GroupIs g x s) (same : t.flt.groups = s.flt.groups) : GroupIs g x t := by
  obtain ⟨rises, is⟩ := h
  refine ⟨?_, ?_⟩
  · unfold Groups
    rw [same]
    exact rises
  · unfold State.grp at is ⊢
    rw [same, is]

theorem refreshed (h : GroupIs g x s) : GroupIs g x (refresh s) := h.keeps (refresh_groups s)

end GroupIs

/-- A fault of the calm group `g` stands in its status and waits for its acknowledgement; its mask and action are as before. -/
structure Noted (g bit : Nat) (s t : State) : Prop where
  rises : Groups t
  status : (t.grp g).status = putBit (s.grp g).status bit true
  unacked : (t.grp g).unacked = putBit (s.grp g).unacked bit true
  mask : (t.grp g).mask = (s.grp g).mask
  action : (t.grp g).action = (s.grp g).action

theorem markUnit_registers (g u : Nat) (x : FGroup) :
    (markUnit g u x).status = x.status ∧ (markUnit g u x).unacked = x.unacked ∧ (markUnit g u x).mask = x.mask := by
  unfold markUnit
  repeat' split
  all_goals exact ⟨rfl, rfl, rfl⟩

/-- A calm group that keeps its action, grace and timer stays calm. -/
theorem calm_setGrp (h : GroupIs g x s) (calm : Calm g s) {y : FGroup} (action : y.action = x.action) (grace : y.grace = x.grace)
    (timer : y.timer = x.timer) : Calm g (s.setGrp g y) := by
  have same : graceGroups (s.setGrp g y) = graceGroups s := by
    refine List.filter_congr fun k _ => ?_
    dsimp only
    by_cases own : k = g
    · rw [own, (h.set y).is, h.is, action, timer]
    · rw [State.grp_setGrp_other h.rises own]
  unfold Calm at calm ⊢
  rw [(h.set y).is, same, action, grace, timer]
  rw [h.is] at calm
  exact calm

theorem groups_of_flt (same : t.flt = s.flt) (groups : Groups s) : Groups t := by
  unfold Groups
  rw [same]
  exact groups

theorem calm_keeps (same : t.flt = s.flt) (calm : Calm g s) : Calm g t := by
  unfold Calm graceGroups State.grp at *
  rw [same]
  exact calm

/-- A fault of a calm group is recorded, and at most starts the group's timer. -/
theorem detectN_calm (h : GroupIs g x s) (calm : Calm g s) (n : Nat) : ∃ y, GroupIs g y (detectN (n + 1) g bit unit s) ∧
    y.status = putBit x.status bit true ∧ y.unacked = putBit x.unacked bit true ∧ y.mask = x.mask ∧ y.action = x.action := by
  unfold detectN
  dsimp only
  rw [h.is]
  generalize em : markUnit g unit _ = y
  obtain ⟨status, unacked, mask⟩ := em ▸ markUnit_registers g unit _
  have action := em ▸ Laws.markUnit_action g unit _
  have timer := em ▸ Laws.markUnit_timer g unit _
  have grace := em ▸ Laws.markUnit_grace g unit _
  have recorded : GroupIs g y ((s.setGrp g y).emit (.faultSignal g bit)) := (h.set y).keeps rfl
  have others : (graceGroups (((s.setGrp g y).emit (.faultSignal g bit)).setGrp g
      { y with timer := true, started := ((s.setGrp g y).emit (.faultSignal g bit)).clk.now })).length ≤ (graceGroups s).length + 1 := by
    refine Laws.graceGroups_step (g := g) fun k other => ?_
    rw [State.grp_setGrp_other recorded.rises other]
    exact State.grp_setGrp_other h.rises other y
  have stopped : ((s.setGrp g y).emit (.faultSignal g bit)).flt.stopped = s.flt.stopped := rfl
  have thresh : ((s.setGrp g y).emit (.faultSignal g bit)).flt.thresh = s.flt.thresh := rfl
  generalize (s.setGrp g y).emit (.faultSignal g bit) = u at recorded others stopped thresh ⊢
  unfold Calm at calm
  rw [h.is] at calm
  refine Laws.ite_cases (P := fun t => ∃ z, GroupIs g z t ∧ z.status = _ ∧ z.unacked = _ ∧ z.mask = _ ∧ z.action = _)
    (fun _ => ⟨y, recorded, status, unacked, mask, action⟩) fun counts => ?_
  rcases calm with log | halt | ⟨graced, idle, few⟩
  · exact absurd (by simp [action, log]) counts
  · exact absurd (by simp [stopped, halt]) counts
  · rw [if_neg (by simp [timer, idle]), if_neg (by rw [grace]; exact graced), recorded.is, if_neg]
    · exact ⟨_, recorded.set _, status, unacked, mask, action⟩
    · show ¬(u.flt.thresh ≠ 0 ∧ u.flt.thresh ≤ _)
      rw [thresh]
      omega

/-- A fault of a calm group, as its group's registers show it. -/
theorem raise_notes (groups : Groups s) (calm : Calm g s) : Noted g bit s (raise g bit unit s) := by
  obtain ⟨y, recorded, status, unacked, mask, action⟩ := detectN_calm (bit := bit) (unit := unit) ⟨groups, rfl⟩ calm 5
  obtain ⟨rises, is⟩ := recorded.refreshed
  unfold raise
  exact ⟨rises, is ▸ status, is ▸ unacked, is ▸ mask, is ▸ action⟩

/-- A group with nothing that counts, or that may not count, starts no timer (R806). -/
theorem startTimer_idle (h : GroupIs g x s) (idle : x.live = 0 ∨ x.action = .log ∨ x.timer = true ∨ s.flt.stopped = true) : startTimer g s = s := by
  unfold startTimer
  dsimp only
  rw [h.is]
  rcases idle with idle | idle | idle | idle <;> exact if_pos (by simp [idle])

theorem settleGroup_group (h : GroupIs g x s) :
    GroupIs g { x with timer := x.timer && x.live != 0, units := x.units.filter (fun u => x.unacked.getLsbD u.1) } (settleGroup g s) := by
  unfold settleGroup
  dsimp only
  rw [h.is]
  exact h.set _

/-- An escalation under LOG, or in a stopped package, acts on no unit (R699). -/
theorem escalateOnce_group (h : GroupIs g x s) (acts : x.action = .log ∨ x.action = .stopPackage ∨ s.flt.stopped = true) :
    ∃ y, GroupIs g y (escalateOnce g s).2 ∧ y.unacked = x.unacked &&& x.mask ∧ y.timer = false ∧ y.status = x.status ∧ (escalateOnce g s).2.mem = s.mem ∧
      (escalateOnce g s).1 = (x.action == .stopPackage && !s.flt.stopped) ∧ (escalateOnce g s).2.flt.stopped = s.flt.stopped := by
  have none (units : List (Nat × Nat)) : performAction g units s = s := by
    unfold performAction
    dsimp only
    rw [h.is]
    rcases acts with acts | acts | acts
    · simp [acts]
    · simp [acts]
    · simp [acts]
  unfold escalateOnce
  dsimp only
  rw [none, h.is]
  refine ⟨{ x with unacked := x.unacked &&& x.mask, timer := false, units := x.units.filter (fun u => x.mask.getLsbD u.1) }, ?_, rfl, rfl, rfl, ?_, rfl, ?_⟩
  · exact Laws.ite_cases (P := GroupIs g _) (fun _ => h.set _) (fun _ => (h.set _).keeps rfl)
  · exact Laws.ite_cases (P := fun t : State => t.mem = s.mem) (fun _ => rfl) (fun _ => rfl)
  · exact Laws.ite_cases (P := fun t : State => t.flt.stopped = s.flt.stopped) (fun _ => rfl) (fun _ => rfl)

/-- A fault does not let a stopped package go on. -/
theorem detectN_stopped {n : Nat} (halted : s.flt.stopped = true) : (detectN (n + 1) g bit unit s).flt.stopped = true := by
  unfold detectN
  dsimp only
  rw [if_pos]
  · exact halted
  · refine (Bool.or_eq_true _ _).mpr (.inr ?_)
    exact halted

theorem stopPackage_stops (cause group bit : Nat) (s : State) : (stopPackage cause group bit s).flt.stopped = true := by
  unfold stopPackage
  exact Laws.ite_cases (P := fun t : State => t.flt.stopped = true) (fun halted => halted) (fun _ => rfl)

theorem refresh_stopped (s : State) : (refresh s).flt.stopped = s.flt.stopped := by
  obtain ⟨_, _, _, _, e⟩ := refresh_shape s
  rw [e]

/-! ### What a detected fault does beside its group -/

theorem traceAt_leavesFaults (point : Nat) (part : Option Nat) (s : State) : LeavesFaults s (traceAt point part s) := by
  obtain ⟨trc, free, e⟩ := traceAt_shape point part s
  rw [e]
  exact ⟨rfl, rfl⟩

theorem fenceCol_leavesFaults (k : Nat) (s : State) : LeavesFaults s (fenceCol k s) :=
  LeavesFaults.trans (s := s.setCol k { s.col k with fenced := true, arm := .none }) ⟨rfl, rfl⟩ (traceAt_leavesFaults _ _ _)

theorem requestColFence_leavesFaults (k : Nat) (s : State) : LeavesFaults s (requestColFence k s) := by
  unfold requestColFence
  dsimp only
  exact Laws.ite_cases (P := LeavesFaults s) (fun _ => .refl s) fun _ =>
    Laws.ite_cases (P := LeavesFaults s) (fun _ => ⟨rfl, rfl⟩) fun _ => fenceCol_leavesFaults k s

theorem markFence_leavesFaults (ps : List Nat) (s : State) : LeavesFaults s (markFence ps s) := by
  unfold markFence
  refine LeavesFaults.foldl (fun s p => ?_) ps s
  exact Laws.ite_cases (P := LeavesFaults s) (fun _ => ⟨rfl, rfl⟩) fun _ => .refl s

theorem quadLost_leavesFaults (q : Nat) (s : State) : LeavesFaults s (quadLost q s) := by
  unfold quadLost
  dsimp only
  refine LeavesFaults.trans (s := setDomain (8 + q) false (s.setQuad q { s.quad q with powered := false })) ⟨rfl, rfl⟩ (LeavesFaults.foldl (fun s k => ?_) _ _)
  split
  · exact Laws.ite_cases (P := LeavesFaults s) (fun _ => .refl s) fun _ => (markFence_leavesFaults _ s).trans (fenceCol_leavesFaults k _)
  · exact .refl s

theorem strikeCell_leavesFaults (n : Nat) (w : CellPart) (s : State) : LeavesFaults s (strikeCell n w s) := by
  cases w <;> exact ⟨rfl, rfl⟩

/-- The fault `bit` of group `g` stands and waits for its acknowledgement, and memory is `m`. -/
structure Stands (g bit : Nat) (m : Mem) (t : State) : Prop where
  status : (t.grp g).status.getLsbD bit = true
  unacked : (t.grp g).unacked.getLsbD bit = true
  mem : t.mem = m

theorem Stands.then {m : Mem} (h : Stands g bit m s) (kept : LeavesFaults s t) : Stands g bit m t := by
  obtain ⟨status, unacked, mem⟩ := h
  refine ⟨?_, ?_, kept.mem.trans mem⟩
  all_goals
    unfold State.grp at *
    rw [kept.flt]
    assumption

theorem raise_stands (groups : Groups s) (calm : Calm g s) (low : bit < 32) : Stands g bit s.mem (raise g bit unit s) := by
  obtain ⟨-, status, unacked, -, -⟩ := raise_notes (bit := bit) (unit := unit) groups calm
  refine ⟨?_, ?_, Laws.raise_calm_mem groups calm⟩
  · rw [status]
    exact Laws.putBit_same _ low
  · rw [unacked]
    exact Laws.putBit_same _ low

/-- An uncorrectable error of a cell stands in its quadrant's group. -/
theorem cellFails_stands {q phys : Nat} (groups : Groups s) (calm : Calm (24 + q) s) (low : bit < 32) :
    Stands (24 + q) bit s.mem (cellFails q bit phys s) := by
  have same : (recordCell q phys s).flt = s.flt := rfl
  have sameMem : (recordCell q phys s).mem = s.mem := rfl
  have quiet : Groups (recordCell q phys s) := groups
  unfold cellFails
  dsimp only
  generalize recordCell q phys s = v at same sameMem quiet ⊢
  generalize 24 + q = g at calm ⊢
  have calm' : Calm g v := calm_keeps same calm
  have raised : Stands g bit s.mem (raise g bit phys v) := sameMem ▸ raise_stands quiet calm' low
  have rises : Groups (raise g bit phys v) := (raise_notes quiet calm').rises
  generalize raise g bit phys v = u at raised rises ⊢
  refine Laws.ite_cases (P := Stands g bit s.mem) (fun _ => ?_) (fun _ => raised)
  obtain ⟨status, unacked, mem⟩ := raised
  have own : GroupIs g (u.grp g) u := ⟨rises, rfl⟩
  obtain ⟨-, is⟩ := (own.set { u.grp g with status := putBit (u.grp g).status 8 true }).refreshed
  refine ⟨?_, ?_, (refresh_mem _).trans mem⟩
  · rw [is]
    exact Laws.putBit_keeps _ 8 status
  · rw [is]
    exact unacked

/-- A fault of a unit or of a cell stands, and the fence of a column that follows it leaves it standing. -/
theorem faultOfUnit_stands {g : Fin 29} {bit : Fin 32} (rises : Groups s) (quiet : Calm g.val s) (phys k : Nat) :
    Stands g.val bit.val s.mem
      (let t := if (decide (24 ≤ g.val) && decide (g.val ≤ 27) && decide (1 ≤ bit.val) && decide (bit.val ≤ 4)) = true then
          cellFails (g.val - 24) bit.val phys s else raise g.val bit.val unit s
       if (decide (24 ≤ g.val) && decide (g.val ≤ 27) && bit.val == 9) = true then requestColFence k t else t) := by
  have raised : Stands g.val bit.val s.mem (if (decide (24 ≤ g.val) && decide (g.val ≤ 27) && decide (1 ≤ bit.val) && decide (bit.val ≤ 4)) = true then
      cellFails (g.val - 24) bit.val phys s else raise g.val bit.val unit s) := by
    refine Laws.ite_cases (P := Stands g.val bit.val s.mem) (fun cell => ?_) (fun _ => raise_stands rises quiet bit.isLt)
    have fab : 24 + (g.val - 24) = g.val := by simp at cell; omega
    rw [← fab] at quiet
    have stands := cellFails_stands (phys := phys) rises quiet bit.isLt
    rw [fab] at stands
    exact stands
  exact Laws.ite_cases (P := Stands g.val bit.val s.mem) (fun _ => raised.then (requestColFence_leavesFaults _ _)) fun _ => raised

/-- FAULT_DETECT of a bit with a checker: the fault stands, and memory is as before. -/
theorem faultDetect_stands {g : Fin 29} {bit : Fin 32} (groups : Groups s) (calm : Calm g.val s) (defined : bit.val ≤ topBit g.val) :
    Stands g.val bit.val s.mem (faultDetect g bit unit s) := by
  have after (u : State) (struck : LeavesFaults s u) (phys k : Nat) : Stands g.val bit.val s.mem _ :=
    struck.mem ▸ faultOfUnit_stands (unit := unit) (groups_of_flt struck.flt groups) (calm_keeps struck.flt calm) phys k
  unfold faultDetect
  rw [if_neg (by omega)]
  dsimp only
  refine Laws.ite_cases (P := Stands g.val bit.val s.mem) (fun _ => (raise_stands groups calm bit.isLt).then (quadLost_leavesFaults _ _)) fun _ => ?_
  refine after _ ?_ _ _
  split
  · exact LeavesFaults.trans (s := s.spend) ⟨rfl, rfl⟩ (strikeCell_leavesFaults _ _ s.spend)
  · exact .refl s

/-- A write of MASK under which the group's timer need not start (R807). -/
theorem faultMaskWrite_group (h : GroupIs g x s) (dull : x.action = .log ∨ s.flt.stopped = true ∨ x.timer = true) (val : Word) :
    ∃ y, GroupIs g y (faultMaskWrite g val s) ∧ y.mask = val ∧ y.status = x.status ∧ (faultMaskWrite g val s).mem = s.mem := by
  have settled := settleGroup_group (h.set { x with mask := val })
  have idle : startTimer g (settleGroup g (s.setGrp g { x with mask := val })) = settleGroup g (s.setGrp g { x with mask := val }) := by
    refine startTimer_idle settled ?_
    rcases dull with dull | dull | dull
    · exact .inr (.inl dull)
    · exact .inr (.inr (.inr dull))
    · by_cases live : FGroup.live { x with mask := val } = 0
      · exact .inl live
      · exact .inr (.inr (.inl ((Bool.and_eq_true _ _).mpr ⟨dull, bne_iff_ne.mpr live⟩)))
  unfold faultMaskWrite
  rw [h.is, idle]
  exact ⟨_, settled.refreshed, rfl, rfl, refresh_mem _⟩

/-- A write of ACTION under which the group's timer need not start (R806). -/
theorem faultActionWrite_group (h : GroupIs g x s) {val : Word} (takes : (FAction.ofCode (bits val.toNat 0 2) == .fenceUnit && wideGroup g) = false)
    (dull : x.live = 0 ∨ FAction.ofCode (bits val.toNat 0 2) = .log) :
    ∃ y, GroupIs g y (faultActionWrite g val s) ∧ y.action = FAction.ofCode (bits val.toNat 0 2) ∧
      y.timer = (x.timer && FAction.ofCode (bits val.toNat 0 2) != .log) ∧ (faultActionWrite g val s).mem = s.mem := by
  unfold faultActionWrite
  dsimp only
  rw [if_neg (by simp [takes]), h.is]
  have written := h.set { x with action := FAction.ofCode (bits val.toNat 0 2), timer := x.timer && FAction.ofCode (bits val.toNat 0 2) != .log }
  rw [startTimer_idle written (dull.imp id .inl)]
  exact ⟨_, written.refreshed, rfl, rfl, refresh_mem _⟩

/-- Clearing status bits acknowledges their faults, and acknowledging leaves the status (R696). -/
theorem ackBits_group (h : GroupIs g x s) (val : Word) :
    ∃ y, GroupIs g y (ackBits g val s) ∧ y.status = x.status ∧ y.unacked = x.unacked &&& ~~~ val ∧ y.mask = x.mask ∧ (ackBits g val s).mem = s.mem := by
  unfold ackBits
  dsimp only
  rw [h.is]
  exact ⟨_, (settleGroup_group (h.set _)).refreshed, rfl, rfl, rfl, refresh_mem _⟩

theorem clearBits_group (h : GroupIs g x s) (val : Word) :
    ∃ y, GroupIs g y (clearBits g val s) ∧ y.status = x.status &&& ~~~ val ∧ y.unacked = x.unacked &&& ~~~ val ∧ y.mask = x.mask ∧
      (clearBits g val s).mem = s.mem := by
  unfold clearBits
  dsimp only
  rw [h.is]
  exact ackBits_group (h.set _) val

theorem ofCode_ne_fenceUnit {c : Nat} (other : 2 ≤ c) : (FAction.ofCode c == .fenceUnit) = false := by
  unfold FAction.ofCode
  rw [if_neg (by omega), if_neg (by omega)]
  split <;> rfl

theorem graceExpiry_eq (runs : (s.grp g).timer = true) : graceExpiry g s = refresh (if (escalateOnce g s).1 then
    detectN 5 7 1 0 (stopPackage 1 g (firstLive (s.grp g)) (escalateOnce g s).2) else (escalateOnce g s).2) :=
  if_neg (by simp [runs])

/-- An injection into the SRAM of the management core that runs fires at once (R712). -/
theorem faultInjectArm_fires {val : Word} (groups : Groups s) (calm : Calm 0 s) (runs : s.mgt.halted = false) (armed : val.getLsbD 5 = true)
    (double : val.getLsbD 31 = true) : Stands 0 5 s.mem (faultInjectArm 0 val s) := by
  have keep : ∀ i, i = 5 ∨ i = 31 → (val &&& BitVec.ofNat 32 (injectable 0 + 0x80000000)).getLsbD i = true := by
    rintro i (rfl | rfl)
    · simp [armed, injectable]
    · simp [double, injectable]
  have own : GroupIs 0 (s.grp 0) s := ⟨groups, rfl⟩
  unfold faultInjectArm
  dsimp only
  generalize val &&& BitVec.ofNat 32 (injectable 0 + 0x80000000) = w at keep ⊢
  have stored := own.set { s.grp 0 with inject := w }
  have quiet : Calm 0 (s.setGrp 0 { s.grp 0 with inject := w }) := calm_setGrp own calm rfl rfl rfl
  have runs' : (s.setGrp 0 { s.grp 0 with inject := w }).mgt.halted = false := runs
  have mem : (s.setGrp 0 { s.grp 0 with inject := w }).mem = s.mem := rfl
  rw [if_pos ⟨rfl, runs'⟩]
  generalize s.setGrp 0 { s.grp 0 with inject := w } = u at stored quiet mem ⊢
  have fired : checkEcc 0 5 true .clean u = (.uncorrectable, u.setGrp 0 { s.grp 0 with inject := putBit w 5 false }) := by
    have five := keep 5 (.inl rfl)
    have top := keep 31 (.inr rfl)
    simp [checkEcc, fireInject, stored.is, five, top]
  rw [fired, ← mem]
  exact raise_stands (s := u.setGrp 0 { s.grp 0 with inject := putBit w 5 false }) (stored.set _).rises (calm_setGrp stored quiet rfl rfl rfl) (by decide)

end Sys2Proof.Machine

namespace Sys2Proof.Proofs
open Sys2Proof Sys2Proof.Machine Sys2Proof.Safety

/-- Settles O57. -/
theorem faultGroups : Obligations.FaultGroups := by
  unfold Obligations.FaultGroups
  intro g s canon x
  have groups := groups_of_canon canon
  have own : GroupIs g.val x s := ⟨groups, rfl⟩
  refine ⟨fun bit unit => ⟨fun defined calm => ?_, fun reserved => ?_⟩, fun idle => ?_, fun runs dull => ?_, fun runs stops goes => ?_, fun val => ?_,
    fun val => ?_, fun val thawed => ?_, fun val fixed calm => ?_, fun mode heartbeat none => ?_⟩
  · obtain ⟨status, unacked, mem⟩ := faultDetect_stands (unit := unit) groups calm defined
    exact ⟨faultDetect g bit unit s, rfl, status, unacked, congrArg Mem.bytes mem⟩
  · exact congrArg Host.Outcome.next (if_pos reserved)
  · refine congrArg Host.Outcome.next ?_
    show graceExpiry g.val s = s
    exact if_pos (by simp [x, idle])
  · obtain ⟨y, after, unacked, timer, status, mem, stop, -⟩ := escalateOnce_group own (dull.imp id .inr)
    have quiet : (escalateOnce g.val s).1 = false := by
      rw [stop]
      rcases dull with log | halted
      · rw [log]
        rfl
      · rw [halted]
        exact Bool.and_false _
    obtain ⟨-, is⟩ := after.refreshed
    refine ⟨graceExpiry g.val s, rfl, ?_⟩
    rw [graceExpiry_eq runs, if_neg (by simp [quiet]), is, refresh_mem]
    exact ⟨timer, unacked, status, mem⟩
  · obtain ⟨y, -, -, -, -, -, stop, -⟩ := escalateOnce_group own (.inr (.inl stops))
    refine ⟨graceExpiry g.val s, rfl, ?_⟩
    have goes' : (escalateOnce g.val s).1 = true := by rw [stop, stops, goes]; rfl
    rw [graceExpiry_eq runs, if_pos goes', refresh_stopped]
    exact detectN_stopped (stopPackage_stops _ _ _ _)
  · obtain ⟨y, after, status, unacked, mask, mem⟩ := clearBits_group own val
    exact ⟨clearBits g.val val s, rfl, after.is ▸ status, after.is ▸ unacked, after.is ▸ mask, mem⟩
  · obtain ⟨y, after, status, unacked, -, mem⟩ := ackBits_group own val
    exact ⟨ackBits g.val val s, rfl, after.is ▸ status, after.is ▸ unacked, mem⟩
  · have writes : exec (.faultActionWrite g val) s = .next (faultActionWrite g.val val s) := congrArg Host.Outcome.next (if_neg (by simp [thawed]))
    have arms : exec (.faultInjectArm g val) s = .next (faultInjectArm g.val val s) := congrArg Host.Outcome.next (if_neg (by simp [thawed]))
    have ofCode : ∀ c, c = bits val.toNat 0 2 → FAction.ofCode (bits val.toNat 0 2) = FAction.ofCode c := fun c e => by rw [e]
    refine ⟨fun dull => ?_, fun log => ?_, fun fence wide calm => ?_, fun fence narrow none => ?_, fun other none => ?_, fun late => ?_,
      fun first runs armed double calm => ?_⟩
    · obtain ⟨y, after, mask, status, mem⟩ := faultMaskWrite_group own dull val
      exact ⟨faultMaskWrite g.val val s, congrArg Host.Outcome.next (if_neg (by simp [thawed])), after.is ▸ mask, after.is ▸ status, mem⟩
    · have code : FAction.ofCode (bits val.toNat 0 2) = .log := ofCode 0 log.symm
      obtain ⟨y, after, action, timer, mem⟩ := faultActionWrite_group own (val := val) (by rw [code]; rfl) (.inr code)
      rw [code] at action timer
      exact ⟨_, writes, after.is ▸ action, by rw [after.is, timer]; exact Bool.and_false _, mem⟩
    · have code : FAction.ofCode (bits val.toNat 0 2) = .fenceUnit := ofCode 1 fence.symm
      refine ⟨_, writes, ?_⟩
      have refused : faultActionWrite g.val val s = raise g.val 0 noUnit s := if_pos (by rw [code, wide]; rfl)
      rw [refused]
      exact ⟨Laws.raise_sets groups (by decide), (raise_notes groups calm).action⟩
    · obtain ⟨y, after, action, -⟩ := faultActionWrite_group own (val := val) (by simp [narrow]) (.inl none)
      exact ⟨_, writes, after.is ▸ action.trans fence⟩
    · have code : (FAction.ofCode (bits val.toNat 0 2) == .fenceUnit) = false := ofCode_ne_fenceUnit other
      obtain ⟨y, after, action, -⟩ := faultActionWrite_group own (val := val) (by rw [code]; rfl) (.inl none)
      exact ⟨_, writes, after.is ▸ action⟩
    · rw [arms]
      exact congrArg Host.Outcome.next (if_neg (by rintro ⟨first, runs⟩; simp_all))
    · obtain ⟨status, -, mem⟩ := faultInjectArm_fires groups calm runs armed double
      exact ⟨_, arms, first ▸ status, first ▸ mem⟩
  · refine ⟨refuseWrite g.val s, congrArg Host.Outcome.next (if_pos fixed), Laws.raise_sets groups (by decide), ?_⟩
    exact (raise_notes groups calm).mask
  · refine congrArg Host.Outcome.next ?_
    show errnHeartbeat s = _
    unfold errnHeartbeat
    exact if_pos (by simp [mode, heartbeat, none])

end Sys2Proof.Proofs
end

section
/-! SUPPORT. PLDM requests that firmware or ROM serves at once. -/
namespace Sys2Proof.Machine
open Sys2Proof Sys2Proof.Safety

variable {s : State} {bytes : List Byte} {i : FwImage} {r : PldmReq}

/-- Something answers PLDM (R763): ROM selects no image, and the hub is not SCRAPPED. -/
structure Answers (s : State) : Prop where
  stage : s.mgt.stage ≠ .rom
  life : lifeCycle s ≠ 4

theorem pldmRequest_served (up : Answers s) (free : s.mgt.unavail = false) (none : s.mgt.pldmQ = []) : pldmRequest r s = pldmServe r s := by
  have idle : servePldm s = s := if_pos (by simp [none])
  unfold pldmRequest
  rw [if_neg (by simp [up.stage, up.life]), if_neg (by simp [free]), idle]

theorem pldmRequest_waits (up : Answers s) (away : s.mgt.unavail = true) :
    pldmRequest r s = { s with mgt := { s.mgt with pldmQ := s.mgt.pldmQ ++ [r] } } := by
  unfold pldmRequest
  rw [if_neg (by simp [up.stage, up.life]), if_pos away]

theorem pldmRequest_unanswered (down : s.mgt.stage = .rom ∨ lifeCycle s = 4) : pldmRequest r s = s :=
  if_pos (by rcases down with h | h <;> simp [h])

/-- A transferred update is kept where the checks of R760 pass. -/
theorem pldmTransfer_update (bytes : List Byte) (s : State) :
    (pldmTransfer false bytes s).2.mgt.pldmImg = (if updateDenied false s || imageDenied bytes s then s.mgt.pldmImg else some (parseFw bytes)) ∧
      (pldmTransfer false bytes s).2.mgt.flash = s.mgt.flash ∧ (pldmTransfer false bytes s).2.mgt.fw = s.mgt.fw := by
  unfold pldmTransfer
  by_cases denied : (updateDenied false s || imageDenied bytes s) = true
  · rw [if_pos denied, if_pos denied]
    exact ⟨rfl, rfl, rfl⟩
  · rw [if_neg denied, if_neg denied, if_neg Bool.false_ne_true]
    exact ⟨rfl, rfl, rfl⟩

/-- A transferred recovery image is written to its region where the checks pass. -/
theorem pldmTransfer_recovery (bytes : List Byte) (flash : s.mgt.flash.present = true) :
    (pldmTransfer true bytes s).2.mgt.flashOp = (if updateDenied true s || imageDenied bytes s then s.mgt.flashOp else .slot 2 (parseFw bytes) false false) ∧
      (pldmTransfer true bytes s).2.mgt.flash = (if updateDenied true s || imageDenied bytes s then s.mgt.flash else emptySlot 2 s.mgt.flash) ∧
      (pldmTransfer true bytes s).2.mgt.fw = s.mgt.fw := by
  unfold pldmTransfer
  by_cases denied : (updateDenied true s || imageDenied bytes s) = true
  · rw [if_pos denied, if_pos denied, if_pos denied]
    exact ⟨rfl, rfl, rfl⟩
  · rw [if_neg denied, if_neg denied, if_neg denied, if_pos rfl, if_pos flash]
    exact ⟨rfl, rfl, rfl⟩

section
variable (ready : s.mgt.pldmImg = some i) (accepted : updateDenied false s = false) (counter : s.lcs.otp.rollback ≤ i.svn)
include ready accepted counter

/-- ActivateFirmware by a peel stages the kept image (R777). -/
theorem pldmActivate_peel (inside : recordOutside i s = false) (calm : emergency s = false) :
    (pldmActivate true s).2.mgt.peel = .staged ∧ (pldmActivate true s).2.mgt.staged = some i ∧ (pldmActivate true s).2.mgt.pldmImg = none := by
  have calm' : emergency { s with mgt := { s.mgt with pldmImg := none } } = false := calm
  unfold pldmActivate
  rw [ready]
  dsimp only
  rw [if_neg (by simp [accepted, counter]), if_pos rfl, if_neg (by simp [inside])]
  unfold stagePeel
  dsimp only
  rw [if_neg (by simp [calm'])]
  exact ⟨rfl, rfl, rfl⟩

/-- ActivateFirmware at the next start writes the kept image to its slot (R777). -/
theorem pldmActivate_slot (flash : s.mgt.flash.present = true) :
    (pldmActivate false s).2.mgt.pldmImg = none ∧ (pldmActivate false s).2.mgt.flashOp = .slot s.mgt.pldmTo i true false ∧
      (pldmActivate false s).2.mgt.flash = emptySlot s.mgt.pldmTo s.mgt.flash := by
  unfold pldmActivate
  rw [ready]
  dsimp only
  rw [if_neg (by simp [accepted, counter]), if_neg Bool.false_ne_true, if_neg (by simp [flash])]
  exact ⟨rfl, rfl, rfl⟩

end

end Sys2Proof.Machine

namespace Sys2Proof.Proofs
open Sys2Proof Sys2Proof.Machine Sys2Proof.Safety

/-- Settles O60: a request is served, waits or finds nobody by the management stage alone; each served kind has its own effect. -/
theorem pldmRequests : Obligations.PldmRequests := by
  unfold Obligations.PldmRequests
  intro s
  refine ⟨fun stage life free none => ?_, fun stage life away => ?_, fun down => ?_⟩
  · have served (r : PldmReq) : pldmRequest r s = pldmServe r s := pldmRequest_served ⟨stage, life⟩ free none
    have transfer (recovery : Bool) (bytes : List Byte) : exec (.pldmFwTransfer recovery bytes) s = .next (refresh (answerPldm 5
        [if (pldmTransfer recovery bytes s).1 then 1#8 else 0#8] (pldmTransfer recovery bytes s).2)) :=
      congrArg Host.Outcome.next (congrArg refresh (served _))
    have activate (self : Bool) : exec (.pldmActivateFirmware self) s = .next (refresh (answerPldm 7
        [if (pldmActivate self s).1 then 1#8 else 0#8] (pldmActivate self s).2)) :=
      congrArg Host.Outcome.next (congrArg refresh (served _))
    refine ⟨congrArg _ (served _), fun ty => congrArg _ (served _), congrArg _ (served _), fun ty => congrArg _ (served _), fun n v reads => ?_,
      fun n unknown => ?_, fun bytes => ⟨_, transfer false bytes, ?_⟩, fun bytes flash => ⟨_, transfer true bytes, ?_⟩, fun i ready accepted counter =>
      ⟨fun inside calm => ⟨_, activate true, ?_⟩, fun flash => ⟨_, activate false, ?_⟩⟩⟩
    · refine congrArg _ ((served _).trans ?_)
      unfold pldmServe
      dsimp only
      rw [reads]
      rfl
    · refine congrArg _ ((served _).trans ?_)
      unfold pldmServe
      dsimp only
      rw [unknown]
      rfl
    · rw [refresh_mgt]
      exact pldmTransfer_update bytes s
    · rw [refresh_mgt]
      exact pldmTransfer_recovery bytes flash
    · rw [refresh_mgt]
      exact pldmActivate_peel ready accepted counter inside calm
    · rw [refresh_mgt]
      exact pldmActivate_slot ready accepted counter flash
  · exact ⟨congrArg _ (pldmRequest_waits ⟨stage, life⟩ away), fun n => congrArg _ (pldmRequest_waits ⟨stage, life⟩ away)⟩
  · exact ⟨congrArg _ (pldmRequest_unanswered down), fun n => congrArg _ (pldmRequest_unanswered down)⟩

end Sys2Proof.Proofs
end

section
/-! SUPPORT. An entry of a table, and what writes to the table make of it. -/
namespace Sys2Proof
open Sys2Proof

/-- A table in canonical form holds `x` at `k`. -/
structure Tab.Holds {α : Type} [DecidableEq α] (d : α) (t : Tab α) (k : Nat) (x : α) : Prop where
  wf : Tab.wf d t = true
  get : Tab.get d t k = x

namespace Tab.Holds
variable {α : Type} [DecidableEq α] {d : α} {t : Tab α} {k : Nat} {x : α}

theorem set (h : Holds d t k x) (y : α) : Holds d (Tab.set d t k y) k y := ⟨Tab.wf_set h.wf k y, Tab.get_set_same h.wf k y⟩

theorem keeps (h : Holds d t k x) {u : Tab α} (same : u = t) : Holds d u k x := same ▸ h

theorem upd (h : Holds d t k x) (f : α → α) : Holds d (Tab.set d t k (f (Tab.get d t k))) k (f x) := by
  obtain ⟨wf, get⟩ := h
  rw [get]
  exact set ⟨wf, get⟩ (f x)

theorem other (h : Holds d t k x) {j : Nat} (apart : j ≠ k) (y : α) : Holds d (Tab.set d t j y) k x :=
  ⟨Tab.wf_set h.wf j y, (Tab.get_set_other h.wf apart.symm y).trans h.get⟩

end Tab.Holds
end Sys2Proof
end

section
/-! SUPPORT. A virtual interface through an attach, a detach, a quiesce and the end of its seal session. -/
namespace Sys2Proof.Machine
open Sys2Proof Sys2Proof.Safety

variable {v : Nat} {x : Vi} {s t : State}

theorem faultSet_keeps {g bit : Nat} (same : t.flt.groups = s.flt.groups) (set : FaultSet g bit s) : FaultSet g bit t := by
  unfold FaultSet State.grp at *
  rw [same]
  exact set

/-- What the end of a VI's descriptors does to the interfaces: entries are held back, and nothing else of them changes. -/
structure HoldsBack (s t : State) : Prop where
  flt : t.flt = s.flt
  mem : t.mem = s.mem
  vi : ∀ v x, Tab.Holds {} s.vis v x → ∃ cmds barrier held, Tab.Holds {} t.vis v { x with cmds := cmds, barrier := barrier, held := held }

namespace HoldsBack
variable {r : State}

theorem refl (s : State) : HoldsBack s s := ⟨rfl, rfl, fun _ x h => ⟨x.cmds, x.barrier, x.held, h⟩⟩

theorem trans (h : HoldsBack r s) (k : HoldsBack s t) : HoldsBack r t := by
  refine ⟨k.flt.trans h.flt, k.mem.trans h.mem, fun v x holds => ?_⟩
  obtain ⟨_, _, _, first⟩ := h.vi v x holds
  obtain ⟨cmds, barrier, held, second⟩ := k.vi v _ first
  exact ⟨cmds, barrier, held, second⟩

theorem foldl {α : Type} {f : State → α → State} (h : ∀ s a, HoldsBack s (f s a)) (l : List α) (s : State) : HoldsBack s (l.foldl f s) := by
  induction l generalizing s with
  | nil => exact refl s
  | cons a l ih => exact (h s a).trans (ih (f s a))

/-- Entries written at one interface. -/
theorem entries (s : State) (w : Nat) (cmds : List Cmd) (barrier : Bool) (held : List CplEntry) :
    HoldsBack s (s.setVi w { s.vi w with cmds := cmds, barrier := barrier, held := held }) := by
  refine ⟨rfl, rfl, fun v x holds => ?_⟩
  by_cases own : v = w
  · subst own
    exact ⟨cmds, barrier, held, holds.upd (fun x => { x with cmds := cmds, barrier := barrier, held := held })⟩
  · exact ⟨x.cmds, x.barrier, x.held, holds.other (Ne.symm own) _⟩

end HoldsBack

theorem holdEntry_holdsBack (v tag : Nat) (st : Status) (detail : Nat) (s : State) : HoldsBack s (holdEntry v tag st detail s) := by
  unfold holdEntry
  dsimp only
  split
  · exact .refl s
  · split
    · split
      · exact .entries s v _ _ _
      · exact .entries s v _ (s.vi v).barrier _
    · exact .entries s v _ (s.vi v).barrier _

theorem endSource_holdsBack (src : XSource) (st : Status) (detail : Nat) (s : State) : HoldsBack s (endSource src st detail s) := by
  cases src with
  | command v tag => exact holdEntry_holdsBack v tag st detail s
  | _ => exact .refl s

theorem setXfe_holdsBack (e : Nat) (x : Xfe) (s : State) : HoldsBack s (s.setXfe e x) := ⟨rfl, rfl, (HoldsBack.refl s).vi⟩

theorem endAtElem_holdsBack (e k : Nat) (st : Status) (s : State) : HoldsBack s (endAtElem e k st s) := by
  unfold endAtElem
  dsimp only
  split
  · exact .refl s
  · exact Laws.ite_cases (P := HoldsBack s) (fun _ => setXfe_holdsBack _ _ s) fun _ =>
      Laws.ite_cases (P := HoldsBack s) (fun _ => setXfe_holdsBack _ _ s) fun _ => .refl s

theorem endEarly_holdsBack (e : Nat) (st : Status) (s : State) : HoldsBack s (endEarly e st s) := by
  unfold endEarly
  split
  · exact .refl s
  · exact endAtElem_holdsBack _ _ _ s

theorem endHostDescs_holdsBack (v : Nat) (s : State) : HoldsBack s (endHostDescs v s) := by
  unfold endHostDescs
  refine HoldsBack.foldl (fun s e => ?_) _ s
  dsimp only
  have swept (x : Xfe) (gone : List XDesc) : HoldsBack s (gone.foldl (fun s d => endSource d.src .aborted 0 s) (s.setXfe e x)) :=
    (setXfe_holdsBack e x s).trans (HoldsBack.foldl (fun s d => endSource_holdsBack d.src .aborted 0 s) gone _)
  split
  · exact Laws.ite_cases (P := HoldsBack s) (fun _ => (swept _ _).trans (endEarly_holdsBack _ _ _)) fun _ => swept _ _
  · exact swept _ _

/-- A quiesced VI drops what it has read; with a fault bit it shows it (R556). -/
theorem quiesceVi_vi (h : Tab.Holds {} s.vis v x) (bit : Option Nat) : ∃ y, Tab.Holds {} (quiesceVi v bit s).vis v y ∧ y.state = .quiesced ∧
    (∀ b, bit = some b → b < 7 → y.vstatus.getLsbD b = true) ∧ (quiesceVi v bit s).flt.groups = s.flt.groups := by
  have stopped := h.upd (fun x => { x with state := .quiesced, pend := .none, read := [], reading := none, fetchWait := false })
  unfold quiesceVi
  dsimp only
  have ends := endHostDescs_holdsBack v (s.modVi v (fun x => { x with state := .quiesced, pend := .none, read := [], reading := none, fetchWait := false }))
  obtain ⟨cmds, barrier, held, holds⟩ := ends.vi v _ stopped
  have flt : (endHostDescs v _).flt.groups = s.flt.groups := congrArg (fun f => f.groups) ends.flt
  generalize endHostDescs v _ = u at holds flt ⊢
  cases bit with
  | none => exact ⟨_, holds, rfl, fun b same => by simp at same, flt⟩
  | some b =>
    unfold viFault
    dsimp only
    rw [refresh_vis, refresh_groups]
    refine ⟨_, holds.upd (fun x => { x with vstatus := putBit x.vstatus b true, intPend := if x.vmask.getLsbD b then x.intPend else x.intPend ||| 8#5 }),
      rfl, fun c same low => ?_, flt⟩
    cases same
    exact Laws.putBit_same _ low

theorem requestQuiesce_eq (v : Nat) (bit : Option Nat) (s : State) : requestQuiesce v bit s =
    if (s.vi v).state != .attached then s else if viRuns v s then s.modVi v (fun x => { x with pend := .quiesce bit }) else quiesceVi v bit s := rfl

/-- Whose interfaces are quiesced at once, and whose at the next proof (R556). -/
theorem requestQuiesce_vi (h : Tab.Holds {} s.vis v x) (attached : x.state = .attached) (bit : Option Nat) :
    (requestQuiesce v bit s).flt.groups = s.flt.groups ∧
      if viRuns v s then (requestQuiesce v bit s).vi v = { x with pend := .quiesce bit }
      else ((requestQuiesce v bit s).vi v).state = .quiesced ∧ ∀ b, bit = some b → b < 7 → ((requestQuiesce v bit s).vi v).vstatus.getLsbD b = true := by
  have is : s.vi v = x := h.get
  rw [requestQuiesce_eq, if_neg (by simp [is, attached])]
  by_cases runs : viRuns v s = true
  · rw [if_pos runs, if_pos runs]
    exact ⟨rfl, (h.upd (fun x => { x with pend := .quiesce bit })).get⟩
  · rw [if_neg runs, if_neg runs]
    obtain ⟨y, holds, state, status, groups⟩ := quiesceVi_vi h bit
    have is' : (quiesceVi v bit s).vi v = y := holds.get
    rw [is']
    exact ⟨groups, state, status⟩

theorem foldl_fab {α : Type} {f : State → α → State} (h : ∀ s a, ∃ fab, f s a = { s with fab := fab }) (l : List α) (s : State) :
    ∃ fab, l.foldl f s = { s with fab := fab } := by
  induction l generalizing s with
  | nil => exact ⟨s.fab, rfl⟩
  | cons a l ih =>
    obtain ⟨fab, e⟩ := h s a
    obtain ⟨fab', e'⟩ := ih (f s a)
    refine ⟨fab', e'.trans ?_⟩
    rw [e]

/-- Zeroing the columns of a partition changes cells alone. -/
theorem zeroCols_shape (p : Nat) (s : State) : ∃ fab, zeroCols p s = { s with fab := fab } := by
  have cell (n : Nat) (s : State) : ∃ fab, zeroCell n s = { s with fab := fab } := ⟨_, rfl⟩
  have rows (k : Nat) (l : List Nat) (s : State) : ∃ fab, l.foldl (fun s r => zeroCell (cellBase k + r) s) s = { s with fab := fab } :=
    foldl_fab (fun s r => cell (cellBase k + r) s) l s
  unfold zeroCols
  exact foldl_fab (fun s k => rows k _ s) _ s

/-- The end of a seal session leaves of the interface all but its interrupts, and every byte of memory. -/
theorem endSession_vi (h : Tab.Holds {} s.vis v x) (reason : Nat) :
    (∃ pend, Tab.Holds {} (endSession v reason s).vis v { x with intPend := pend }) ∧ (endSession v reason s).mem.bytes = s.mem.bytes := by
  unfold endSession
  dsimp only
  by_cases idle : ((s.sealOf v).state == .none) = true
  · rw [if_pos idle]
    exact ⟨⟨x.intPend, h⟩, rfl⟩
  rw [if_neg idle]
  have cleared (u : State) (told : (∃ pend, Tab.Holds {} u.vis v { x with intPend := pend }) ∧ u.mem.bytes = s.mem.bytes) (p : Nat) :
      (∃ pend, Tab.Holds {} (zeroCols p u).vis v { x with intPend := pend }) ∧ (zeroCols p u).mem.bytes = s.mem.bytes := by
    obtain ⟨fab, e⟩ := zeroCols_shape p u
    rw [e]
    exact told
  have told := h.upd (fun w => { w with intPend := w.intPend ||| 16#5 })
  by_cases spare : reason = 1 ∨ reason = 7
  · rw [if_pos spare, if_neg (by omega)]
    exact ⟨⟨_, told⟩, rfl⟩
  · rw [if_neg spare]
    by_cases wiped : reason = 4 ∨ reason = 5
    · rw [if_pos wiped]
      split
      · refine cleared _ ?_ _
        exact ⟨⟨_, told⟩, rfl⟩
      · exact ⟨⟨_, told⟩, rfl⟩
    · rw [if_neg wiped]
      exact ⟨⟨_, told⟩, rfl⟩

theorem detachVi_vi (h : Tab.Holds {} s.vis v x) : ((detachVi v s).vi v).state = .detached ∧ ((detachVi v s).vi v).read = [] ∧
    (detachVi v s).mem.bytes = s.mem.bytes := by
  have gone := h.upd (fun x => { x with state := .detached, pend := .none, read := [], reading := none, fetchWait := false, barrier := false })
  obtain ⟨⟨pend, holds⟩, bytes⟩ := endSession_vi (s := s.modVi v (fun x => { x with state := .detached, pend := .none, read := [], reading := none, fetchWait := false, barrier := false })) gone 3
  unfold detachVi
  have is : (endSession v 3 (s.modVi v (fun x => { x with state := .detached, pend := .none, read := [], reading := none, fetchWait := false, barrier := false }))).vi v = _ := holds.get
  dsimp only
  rw [is]
  exact ⟨rfl, rfl, bytes⟩

/-- Delivering the held entries of a VI that holds none is a refresh. -/
theorem deliverHeld_none (none : (s.vi v).held = []) : deliverHeld v s = refresh s := by
  unfold deliverHeld
  rw [none]
  rfl

theorem vifDetach_quiesced (paused : (s.vi v).state = .quiesced) : vifDetach v s = detachVi v s := by
  unfold vifDetach
  dsimp only
  rw [paused]

/-- A detach of an attached interface waits for the proof, or for its open commands (R553). -/
theorem vifDetach_attached (h : Tab.Holds {} s.vis v x) (attached : x.state = .attached) :
    if viRuns v s || !x.cmds.isEmpty then (vifDetach v s).vi v = { x with pend := .detach } else ((vifDetach v s).vi v).state = .detached := by
  have is : s.vi v = x := h.get
  have splits : vifDetach v s = if viRuns v s || !x.cmds.isEmpty then s.setVi v { x with pend := .detach } else detachVi v s := by
    unfold vifDetach
    dsimp only
    rw [is, attached]
    rfl
  rw [splits]
  by_cases waits : (viRuns v s || !x.cmds.isEmpty) = true
  · rw [if_pos waits, if_pos waits]
    exact (h.set _).get
  · rw [if_neg waits, if_neg waits]
    exact (detachVi_vi h).1

/-- Whether the partition of an interface runs is no matter of the fault block. -/
theorem viRuns_raise {g bit unit : Nat} (groups : Groups s) (calm : Calm g s) : viRuns v (raise g bit unit s) = viRuns v s := by
  unfold viRuns State.partOfVi State.part
  rw [Laws.raise_calm_parts groups calm]

/-- An accepted attach starts a detached interface again, and rejoins a quiesced one at once or at the next proof (R554). -/
theorem vifAttach_accepted {val : Word} (h : Tab.Holds {} s.vis v x) (ok : attachStatus s v val = .ok) : vifAttach v val s =
    let u := s.modVi v (fun x => { x with attachStat := .ok })
    if x.state == .quiesced then
      let w := u.modVi v (fun x => { x with renewed := s.clk.now, warned := false })
      if viRuns v s then w.modVi v (fun x => { x with pend := .rejoin })
      else deliverHeld v (w.modVi v (fun x => { x with state := .attached, pend := .none, resume := false }))
    else u.modVi v (fun x => { x with state := .attached, pend := .none, resume := false, renewed := s.clk.now, warned := false, cmdHead := 0, cmdPhase := true,
                                      cplTail := 0, cplPhase := true, cplHead := 0, read := [], reading := none, fetchWait := false }) := by
  have state : ((s.modVi v (fun x => { x with attachStat := .ok })).vi v).state = x.state :=
    (congrArg Vi.state (h.upd (fun x => { x with attachStat := .ok })).get).trans rfl
  unfold vifAttach
  rw [ok]
  dsimp only
  rw [state]
  rfl

/-- A refused attach notes why, raises its fault, and leaves the state of the interface. -/
theorem vifAttach_refused {val : Word} (h : Tab.Holds {} s.vis v x) (groups : Groups s) (calm : Calm 2 s) (refused : attachStatus s v val ≠ .ok) :
    FaultSet 2 3 (vifAttach v val s) ∧ ((vifAttach v val s).vi v).attachStat = attachStatus s v val ∧ ((vifAttach v val s).vi v).state = x.state := by
  have noted := h.upd (fun x => { x with attachStat := attachStatus s v val })
  have quiet : Calm 2 (s.modVi v (fun x => { x with attachStat := attachStatus s v val })) := calm
  have rises : Groups (s.modVi v (fun x => { x with attachStat := attachStatus s v val })) := groups
  have raised := raise_notes (bit := 3) (unit := v) rises quiet
  have vis := Laws.raise_calm_vis (bit := 3) (unit := v) rises quiet
  have set : FaultSet 2 3 (raise 2 3 v (s.modVi v (fun x => { x with attachStat := attachStatus s v val }))) := Laws.raise_sets rises (by decide)
  unfold vifAttach
  dsimp only
  rw [if_pos (by simpa using refused)]
  generalize raise 2 3 v _ = u at vis set ⊢
  have holds := noted.keeps vis
  by_cases version : (attachStatus s v val == .version) = true
  · rw [if_pos version]
    have shown := holds.upd (fun x => { x with vstatus := putBit x.vstatus 6 true, intPend := if x.vmask.getLsbD 6 then x.intPend else x.intPend ||| 8#5 })
    unfold viFault
    refine ⟨faultSet_keeps (refresh_groups _) set, ?_⟩
    rw [refresh_vi]
    exact ⟨(congrArg Vi.attachStat shown.get).trans rfl, (congrArg Vi.state shown.get).trans rfl⟩
  · rw [if_neg version]
    have is : u.vi v = _ := holds.get
    rw [is]
    exact ⟨set, rfl, rfl⟩

end Sys2Proof.Machine

namespace Sys2Proof.Proofs
open Sys2Proof Sys2Proof.Machine Sys2Proof.Safety

/-- Settles O48. -/
theorem viAttachment : Obligations.ViAttachment := by
  unfold Obligations.ViAttachment
  intro v s canon x
  have groups := groups_of_canon canon
  obtain ⟨-, -, -, -, -, -, vis, -⟩ := canon
  have own : Tab.Holds {} s.vis v.val x := ⟨vis, rfl⟩
  refine ⟨fun val ok => ⟨fun out => ?_, fun paused runs => ?_, fun paused rests none => ?_⟩, fun val refused calm => ?_, fun paused => ?_, fun up => ?_,
    fun up => ?_, fun up unwarned past => ?_, fun up past calm => ?_, fun shown up => ⟨?_, ?_⟩⟩
  · refine ⟨refresh (vifAttach v.val val s), rfl, ?_⟩
    have done := (own.upd (fun x => { x with attachStat := .ok })).upd (fun x => { x with state := .attached, pend := .none, resume := false, renewed := s.clk.now, warned := false, cmdHead := 0, cmdPhase := true, cplTail := 0, cplPhase := true, cplHead := 0, read := [], reading := none, fetchWait := false })
    rw [refresh_vi, refresh_mem, vifAttach_accepted own ok]
    dsimp only
    rw [if_neg (by simp [out])]
    exact ⟨done.get, rfl⟩
  · refine ⟨refresh (vifAttach v.val val s), rfl, ?_⟩
    have done := ((own.upd (fun x => { x with attachStat := .ok })).upd (fun x => { x with renewed := s.clk.now, warned := false })).upd
      (fun x => { x with pend := .rejoin })
    rw [refresh_vi, vifAttach_accepted own ok]
    dsimp only
    rw [if_pos (by simp [paused]), if_pos runs]
    exact done.get
  · refine ⟨refresh (vifAttach v.val val s), rfl, ?_⟩
    have done := ((own.upd (fun x => { x with attachStat := .ok })).upd (fun x => { x with renewed := s.clk.now, warned := false })).upd
      (fun x => { x with state := .attached, pend := .none, resume := false })
    rw [refresh_vi, vifAttach_accepted own ok]
    dsimp only
    rw [if_pos (by simp [paused]), if_neg (by simp [rests]), deliverHeld_none, refresh_vi]
    · exact done.get
    · exact (congrArg Vi.held done.get).trans none
  · obtain ⟨set, stat, state⟩ := vifAttach_refused own groups calm refused
    refine ⟨refresh (vifAttach v.val val s), rfl, ?_⟩
    rw [refresh_vi]
    exact ⟨faultSet_keeps (refresh_groups _) set, stat, state⟩
  · obtain ⟨state, read, bytes⟩ := detachVi_vi own
    have gone : vifDetach v.val s = detachVi v.val s := vifDetach_quiesced paused
    refine ⟨refresh (vifDetach v.val s), rfl, ?_⟩
    rw [refresh_vi, refresh_mem, gone]
    exact ⟨state, read, bytes⟩
  · exact ⟨refresh (vifDetach v.val s), rfl, by rw [refresh_vi]; exact vifDetach_attached own up⟩
  · refine congrArg Host.Outcome.next ?_
    show vifLease v.val s = _
    exact if_pos (by simp [x, up])
  · refine ⟨leaseWarn v.val s, rfl, ?_⟩
    have warns : leaseWarn v.val s = refresh (s.setVi v.val { x with warned := true, intPend := x.intPend ||| 2#5 }) :=
      if_pos (by simp [x, up, unwarned, past])
    rw [warns, refresh_vi, refresh_mem]
    exact ⟨(own.set _).get, rfl⟩
  · refine ⟨refresh (leaseExpiry v.val s), rfl, ?_⟩
    have ends : leaseExpiry v.val s = requestQuiesce v.val (some 1) (raise 2 1 v.val s) := if_pos (by simp [x, up, past])
    obtain ⟨kept, quiesced⟩ := requestQuiesce_vi (own.keeps (Laws.raise_calm_vis (bit := 1) (unit := v.val) groups calm)) up (some 1)
    rw [viRuns_raise groups calm] at quiesced
    rw [ends, refresh_vi]
    refine ⟨faultSet_keeps ((refresh_groups _).trans kept) (Laws.raise_sets groups (by decide)), ?_⟩
    by_cases runs : viRuns v.val s = true
    · rw [if_pos runs] at quiesced ⊢
      exact quiesced
    · rw [if_neg runs] at quiesced ⊢
      obtain ⟨state, status⟩ := quiesced
      exact ⟨state, status 1 rfl (by decide)⟩
  · refine ⟨refresh (requestQuiesce (pfSel s) none s), rfl, ?_⟩
    rw [refresh_vi, shown]
    obtain ⟨-, quiesced⟩ := requestQuiesce_vi own up none
    by_cases runs : viRuns v.val s = true
    · rw [if_pos runs] at quiesced ⊢
      exact quiesced
    · rw [if_neg runs] at quiesced ⊢
      exact quiesced.1
  · refine ⟨refresh (vifDetach (pfSel s) s), rfl, ?_⟩
    rw [refresh_vi, shown]
    exact vifDetach_attached own up

end Sys2Proof.Proofs
end

section
/-! SUPPORT. The supply of the hub. -/
namespace Sys2Proof

/-- A table reads what was written to it where that is not the default, whatever the order of its keys. -/
theorem Tab.get_set_of_ne {α : Type} [DecidableEq α] {d v : α} (other : v ≠ d) (t : Tab α) (k : Nat) : Tab.get d (Tab.set d t k v) k = v := by
  unfold Tab.set
  rw [if_neg other]
  exact Tab.get_put_same d k v t

end Sys2Proof

namespace Sys2Proof.Machine
open Sys2Proof Sys2Proof.Safety

variable {s : State}

/-- The hub that loses its input keeps OTP and flash alone (R659, R692). -/
theorem unpower_off (s : State) : Unpowered s (unpower s) := ⟨⟨rfl, rfl, rfl, rfl, rfl, rfl, rfl⟩, rfl⟩

/-- A failed tile is fenced (R30). -/
theorem tileFail_fences {k : Nat} (groups : Groups s) (calm : Calm 5 s) (works : (s.tile k).state ≠ .fenced) :
    FaultSet 5 2 (tileFail k s) ∧ ((tileFail k s).tile k).state = .fenced ∧ (tileFail k s).mem = s.mem := by
  have fails : tileFail k s = raise 5 2 k (s.setTile k { s.tile k with state := .fenced, inW := 0, outW := 0 }) := if_neg (by simpa using works)
  have quiet : Calm 5 (s.setTile k { s.tile k with state := .fenced, inW := 0, outW := 0 }) := calm
  have rises : Groups (s.setTile k { s.tile k with state := .fenced, inW := 0, outW := 0 }) := groups
  have pwr := Laws.raise_calm_pwr (bit := 2) (unit := k) rises quiet
  refine ⟨fails ▸ Laws.raise_sets rises (by decide), ?_, fails ▸ Laws.raise_calm_mem rises quiet⟩
  have fenced : ({ s.tile k with state := .fenced, inW := 0, outW := 0 } : Tile) ≠ {} := fun e => by cases congrArg Tile.state e
  have tiles := congrArg (fun p => (Tab.get {} p.tiles k).state) pwr
  rw [fails]
  exact tiles.trans (congrArg Tile.state (Tab.get_set_of_ne fenced s.pwr.tiles k))

end Sys2Proof.Machine

namespace Sys2Proof.Proofs
open Sys2Proof Sys2Proof.Machine Sys2Proof.Safety

/-- Settles O54. -/
theorem supplyEvents : Obligations.SupplyEvents := by
  unfold Obligations.SupplyEvents
  intro s canon
  have groups := groups_of_canon canon
  refine ⟨fun on => ⟨⟨_, congrArg Host.Outcome.next (if_pos on), ?_⟩, ⟨_, congrArg Host.Outcome.next (if_pos on), ?_⟩,
    ⟨_, congrArg Host.Outcome.next (if_pos on), ?_⟩⟩, fun off => ⟨_, congrArg Host.Outcome.next (if_neg (by simp [off])), ?_⟩,
    fun x off high free => ?_, fun k works calm => ?_, fun i => ⟨rfl, rfl⟩, fun idle calm => ?_, rfl⟩
  · exact ⟨unpower_off s, rfl, rfl⟩
  · exact ⟨unpower_off s, rfl⟩
  · exact ⟨unpower_off s, rfl⟩
  · exact ⟨rfl, rfl, rfl, rfl, rfl, rfl⟩
  · exact congrArg Host.Outcome.next (if_pos (by simp [off, high, free]))
  · exact ⟨tileFail k.val s, rfl, tileFail_fences groups calm works⟩
  · have quiet : Calm 6 { s with pwr := { s.pwr with throtN := true } } := calm
    have rises : Groups { s with pwr := { s.pwr with throtN := true } } := groups
    exact ⟨_, congrArg Host.Outcome.next (if_neg (by simp [idle])), Laws.raise_sets rises (by decide), Laws.raise_calm_pwr rises quiet⟩

end Sys2Proof.Proofs
end

section
/-! SUPPORT. What the power controller records at each of its events. -/
namespace Sys2Proof.Machine
open Sys2Proof Sys2Proof.Safety

variable {s t : State}

/-- The two blocks agree on what the controller records, and on the throttle pin. -/
structure SameRecord (a b : Pwr) : Prop where
  raw : b.raw = a.raw
  used : b.used = a.used
  hist : b.hist = a.hist
  amps8 : b.amps8 = a.amps8
  throtN : b.throtN = a.throtN

namespace SameRecord
variable {a b c : Pwr}

theorem refl (a : Pwr) : SameRecord a a := ⟨rfl, rfl, rfl, rfl, rfl⟩

theorem trans (h : SameRecord a b) (k : SameRecord b c) : SameRecord a c :=
  ⟨k.raw.trans h.raw, k.used.trans h.used, k.hist.trans h.hist, k.amps8.trans h.amps8, k.throtN.trans h.throtN⟩

theorem ite {p : Prop} [Decidable p] (h : SameRecord a b) (k : SameRecord a c) : SameRecord a (if p then b else c) := by
  split
  · exact h
  · exact k

theorem stepLimit (h : SameRecord a b) (l value limit : Nat) (pg : Nat → Nat) (scope : List Nat) :
    SameRecord a (Machine.stepLimit l value limit pg scope b) := by
  unfold Machine.stepLimit
  refine h.trans (ite ?_ (ite ⟨rfl, rfl, rfl, rfl, rfl⟩ (refl b)))
  split
  · exact ⟨rfl, rfl, rfl, rfl, rfl⟩
  · exact refl b

theorem dropLimit (h : SameRecord a b) (l : Nat) : SameRecord a (Machine.dropLimit l b) := h.trans ⟨rfl, rfl, rfl, rfl, rfl⟩

end SameRecord

/-- The steps of the limits leave the record, and change the power block alone. -/
theorem stepLimits_record (x : PowerIn) (used : Nat) (s : State) :
    ∃ w, stepLimits x used s = { s with pwr := w } ∧ SameRecord s.pwr w := by
  unfold stepLimits
  extract_lets w0 pg all al avg act w1 w2 rack w3 peak w4 w5 vl low w6
  refine ⟨_, rfl, ?_⟩
  have h1 : SameRecord s.pwr w1 := ⟨rfl, rfl, rfl, rfl, rfl⟩
  have h2 : SameRecord s.pwr w2 := .ite (h1.stepLimit _ _ _ _ _) h1
  have h3 : SameRecord s.pwr w3 := .ite (h2.dropLimit _) (h2.stepLimit _ _ _ _ _)
  have h6 : SameRecord s.pwr w6 := by
    have h5 := (h3.stepLimit 2 (x.amps8 * volts s / 80) (peak * volts s / 80) pg all).stepLimit 10 w4.hubW 650 pg all
    exact .ite (h5.stepLimit _ _ _ _ _) (h5.dropLimit _)
  exact h6.trans ⟨rfl, rfl, rfl, rfl, rfl⟩

/-- What the reports of a power tick may do: meters, tiles and limits of sites change, and a fault of the logged group 5 is noted. -/
structure Reported (s t : State) : Prop where
  rises : Groups t
  logs : Logs 5 t
  mem : t.mem = s.mem
  lcs : t.lcs = s.lcs
  mgt : t.mgt.pldmQ = s.mgt.pldmQ
  pwr : ∃ energy tiles sitePl, t.pwr = { s.pwr with energy := energy, tiles := tiles, sitePl := sitePl }

namespace Reported
variable {r : State}

theorem refl (rises : Groups s) (logs : Logs 5 s) : Reported s s := ⟨rises, logs, rfl, rfl, rfl, s.pwr.energy, s.pwr.tiles, s.pwr.sitePl, rfl⟩

theorem trans (h : Reported r s) (k : Reported s t) : Reported r t := by
  obtain ⟨_, _, _, e⟩ := h.pwr
  obtain ⟨energy, tiles, sitePl, e'⟩ := k.pwr
  refine ⟨k.rises, k.logs, k.mem.trans h.mem, k.lcs.trans h.lcs, k.mgt.trans h.mgt, energy, tiles, sitePl, e'.trans ?_⟩
  rw [e]

theorem raise (h : Reported r s) (bit unit : Nat) : Reported r (raise 5 bit unit s) := by
  have calm : Calm 5 s := .inl h.logs
  have noted := raise_notes (bit := bit) (unit := unit) h.rises calm
  exact h.trans ⟨noted.rises, noted.action.trans h.logs, Laws.raise_calm_mem h.rises calm, Laws.raise_calm_lcs h.rises calm,
    congrArg Mgt.pldmQ (Laws.raise_calm_mgt h.rises calm), s.pwr.energy, s.pwr.tiles, s.pwr.sitePl, Laws.raise_calm_pwr h.rises calm⟩

theorem foldl {α : Type} {f : State → α → State} (step : ∀ s a, Reported r s → Reported r (f s a)) (l : List α) (h : Reported r s) :
    Reported r (l.foldl f s) := by
  induction l generalizing s with
  | nil => exact h
  | cons a l ih => exact ih (step s a h)

end Reported

theorem tileReport_reports {r : State} (x : PowerIn) (h : Reported r s) : Reported r (tileReport x s) := by
  unfold tileReport
  refine Reported.foldl (fun s a h => ?_) _ h
  dsimp only
  have noted (y : Tile) : Reported s (s.setTile (a.1 % 8) y) := ⟨h.rises, h.logs, rfl, rfl, rfl, s.pwr.energy, _, s.pwr.sitePl, rfl⟩
  exact Laws.ite_cases (P := Reported r) (fun _ => (h.trans (noted _)).raise 1 _) fun _ => h.trans (noted _)

theorem sitePlimit_reports {r : State} (e : Nat) (h : Reported r s) : Reported r (sitePlimit e s) := by
  have noted (l : Tab Nat) : Reported r { s with pwr := { s.pwr with sitePl := l } } :=
    h.trans ⟨h.rises, h.logs, rfl, rfl, rfl, s.pwr.energy, s.pwr.tiles, l, rfl⟩
  unfold sitePlimit
  dsimp only
  exact Laws.ite_cases (P := Reported r) (fun _ => h) fun _ =>
    Laws.ite_cases (P := Reported r) (fun _ => Laws.ite_cases (P := Reported r) (fun _ => (noted _).raise 5 e) fun _ => noted _) fun _ =>
      Laws.ite_cases (P := Reported r) (fun _ => noted _) fun _ => h

theorem siteReport_reports {r : State} (x : PowerIn) (h : Reported r s) : Reported r (siteReport x s) := by
  unfold siteReport
  dsimp only
  refine Reported.foldl (fun s e h => sitePlimit_reports e h) _ (Reported.foldl (fun s a h => ?_) _ h)
  exact h.trans ⟨h.rises, h.logs, rfl, rfl, rfl, s.pwr.energy, s.pwr.tiles, s.pwr.sitePl, rfl⟩

theorem energyReport_reports {r : State} (x : PowerIn) (h : Reported r s) : Reported r (energyReport x s) :=
  h.trans ⟨h.rises, h.logs, rfl, rfl, rfl, _, s.pwr.tiles, s.pwr.sitePl, rfl⟩

/-- What a step may do to the power block alone, beside its record. -/
structure Steps (s t : State) : Prop where
  mem : t.mem = s.mem
  lcs : t.lcs = s.lcs
  queue : t.mgt.pldmQ = s.mgt.pldmQ
  record : SameRecord s.pwr t.pwr

theorem Steps.trans {r : State} (h : Steps r s) (k : Steps s t) : Steps r t :=
  ⟨k.mem.trans h.mem, k.lcs.trans h.lcs, k.queue.trans h.queue, h.record.trans k.record⟩

theorem stepShare_steps (p value : Nat) (pg : Nat → Nat) (s : State) : Steps s (stepShare p value pg s) :=
  ⟨rfl, rfl, rfl, ⟨rfl, rfl, rfl, rfl, rfl⟩⟩

theorem Steps.foldl {α : Type} {f : State → α → State} (step : ∀ s a, Steps s (f s a)) (l : List α) (s : State) : Steps s (l.foldl f s) := by
  induction l generalizing s with
  | nil => exact ⟨rfl, rfl, rfl, .refl _⟩
  | cons a l ih => exact (step s a).trans (ih (f s a))

theorem stepLimits_steps (x : PowerIn) (used : Nat) (s : State) : Steps s (stepLimits x used s) := by
  obtain ⟨w, e, record⟩ := stepLimits_record x used s
  rw [e]
  exact ⟨rfl, rfl, rfl, record⟩

theorem telemetry_steps (s : State) : Steps s (telemetry s) := by
  unfold telemetry
  dsimp only
  exact Laws.ite_cases (P := Steps s) (fun _ => ⟨rfl, rfl, rfl, ⟨rfl, rfl, rfl, rfl, rfl⟩⟩) fun _ => ⟨rfl, rfl, rfl, ⟨rfl, rfl, rfl, rfl, rfl⟩⟩

theorem noteEmergency_steps (s : State) : Steps s (noteEmergency s) :=
  Laws.ite_cases (P := Steps s) (fun _ => ⟨rfl, rfl, rfl, .refl _⟩) fun _ => ⟨rfl, rfl, rfl, .refl _⟩

/-- With nothing deferred there is nothing to run. -/
theorem runDeferred_none (otp : s.lcs.otpLater = none) (roll : s.lcs.rollLater = false) (life : s.lcs.deferTo = none) : runDeferred s = s := by
  have idle : runOtp s = s := by
    unfold runOtp
    rw [otp]
  unfold runDeferred
  dsimp only
  rw [idle, if_neg (by simp [roll]), life]

/-- A power tick records what it is told, at the scale of the source in use (R665, R672). -/
theorem powerControlTick_records (x : PowerIn) (rises : Groups s) (logs : Logs 5 s) (none : NothingDeferred s) :
    (powerControlTick x s).mem = s.mem ∧ (powerControlTick x s).pwr.throtN = s.pwr.throtN ∧ (powerControlTick x s).pwr.raw = x.raw ∧
      (powerControlTick x s).pwr.amps8 = x.amps8 ∧ (powerControlTick x s).pwr.used = scaled { s.pwr with source := sourceNow s } x.raw ∧
      (powerControlTick x s).pwr.hist = ((powerControlTick x s).pwr.used :: s.pwr.hist).take 60000000 := by
  obtain ⟨deferTo, otpLater, rollLater, -⟩ := none
  unfold powerControlTick
  extract_lets src src0 s1 s2 w used w2 s3 pg src4 s4 s5
  have reported : Reported s1 s2 :=
    energyReport_reports x (siteReport_reports x (tileReport_reports x (.refl rises logs)))
  obtain ⟨energy, tiles, sitePl, pwr⟩ := reported.pwr
  have mem : s3.mem = s.mem := reported.mem
  have lcs : s3.lcs = s.lcs := reported.lcs
  have scale : used = scaled { s.pwr with source := sourceNow s } x.raw := by
    show scaled s2.pwr x.raw = _
    rw [pwr]
    rfl
  have shares : Steps s3 s4 := by
    refine Laws.ite_cases (P := Steps s3) (fun _ => Steps.foldl (fun s p => stepShare_steps _ _ _ s) _ s3) fun _ => ?_
    exact ⟨rfl, rfl, rfl, ⟨rfl, rfl, rfl, rfl, rfl⟩⟩
  have steps : Steps s3 (telemetry s5) := (shares.trans (stepLimits_steps x used s4)).trans (telemetry_steps s5)
  rw [runDeferred_none (by rw [steps.lcs, lcs, otpLater]) (by rw [steps.lcs, lcs, rollLater]) (by rw [steps.lcs, lcs, deferTo])]
  obtain ⟨kept, -, -, record⟩ := steps.trans (noteEmergency_steps (telemetry s5))
  have throt : s3.pwr.throtN = s.pwr.throtN := by
    show s2.pwr.throtN = _
    rw [pwr]
  have amps : s3.pwr.amps8 = x.amps8 := by
    show s2.pwr.amps8 = _
    rw [pwr]
  have hist : s3.pwr.hist = (used :: s.pwr.hist).take 60000000 := by
    show (used :: s2.pwr.hist).take 60000000 = _
    rw [pwr]
  exact ⟨kept.trans mem, record.throtN.trans throt, record.raw, record.amps8.trans amps, record.used.trans scale,
    record.hist.trans (hist.trans (by rw [record.used]))⟩

/-- A pair of the 1 ms sample: what is measured, and when the larger value begins and ends to be the one used (R666). -/
theorem powerSample_records {est meas vin : Nat} (rises : Groups s) (calm : Calm 5 s) :
    let t := powerSample est meas vin s
    t.pwr.meas = meas ∧ t.pwr.vin = vin ∧
    (s.pwr.larger = false → differ (s.pwr.k * est / 1024) meas 25 100 = true → s.pwr.disN = 10 →
      t.pwr.larger = true ∧ FaultSet 5 3 t ∧ (s.pwr.source = .estimate → senseMarked s = false → t.pwr.source = .larger)) ∧
    (s.pwr.larger = true → differ (s.pwr.k * est / 1024) meas 10 100 = false → s.pwr.agreeN = 99 →
      t.pwr.larger = false ∧ (s.pwr.source = .larger → senseMarked s = false → t.pwr.source = .estimate)) := by
  unfold powerSample
  extract_lets w pe dis disN agreeN go back u1 u0 u2 t
  have quiet : Calm 5 u2 := calm
  have rises' : Groups u2 := rises
  have pwr : t.pwr = u2.pwr :=
    Laws.ite_cases (P := fun t : State => t.pwr = u2.pwr) (fun _ => Laws.raise_calm_pwr rises' quiet) (fun _ => rfl)
  have source : u2.pwr.source = if s.pwr.source == .guard then .guard else if senseMarked s then .guard else
      if (go || s.pwr.larger && !back) = true then .larger else .estimate := rfl
  rw [pwr]
  refine ⟨rfl, rfl, fun small far ten => ?_, fun large near many => ?_⟩
  · have goes : go = true := by simp [go, w, small, disN, dis, pe, far, ten]
    refine ⟨?_, ?_, ?_⟩
    · show (go || _) = true
      rw [goes]
      rfl
    · have raised : t = raise 5 3 0 u2 := if_pos goes
      rw [raised]
      exact Laws.raise_sets rises' (by decide)
    · intro estimate clean
      rw [source, estimate, clean, goes]
      rfl
  · have stays : go = false := by simp [go, w, large]
    have backs : back = true := by simp [back, w, large, agreeN, pe, near, many]
    refine ⟨?_, fun larger clean => ?_⟩
    · show (go || w.larger && !back) = false
      rw [stays, backs]
      exact Bool.and_false _
    · rw [source, larger, clean, stays, backs, large]
      rfl

theorem scaleShares_shape (s : State) : ∃ shares, scaleShares s = { s with pwr := { s.pwr with shares := shares } } := by
  unfold scaleShares
  dsimp only
  exact Laws.ite_cases (P := fun t => ∃ shares, t = { s with pwr := { s.pwr with shares := shares } }) (fun _ => ⟨s.pwr.shares, rfl⟩) fun _ => ⟨_, rfl⟩

/-- The power that can be shared is what the rack leaves above the base load. -/
theorem setAvail_shape (s : State) : ∃ shares, setAvail s = { s with pwr := { s.pwr with shares := shares, avail := (
    if s.pwr.budget = 0 then 0 else rackNow s - meanOf s.pwr.baseHist.length s.pwr.baseHist) } } := by
  unfold setAvail
  dsimp only
  exact scaleShares_shape _

/-- A calibration moves K an eighth of the way, where all ten pairs agreed under the estimate (R664). -/
theorem calibrationUpdate_k (s : State) :
    let t := calibrationUpdate s
    t.pwr.kHist = [] ∧ t.pwr.baseHist = s.pwr.baseHist ∧
      (s.pwr.source = .estimate → s.pwr.kHist.length = 10 → (∀ h ∈ s.pwr.kHist, h.2.2 = false) →
        let m := (s.pwr.kHist.map (·.1)).foldl (· + ·) 0
        let r := (s.pwr.kHist.map (·.2.1)).foldl (· + ·) 0
        r ≠ 0 → t.pwr.k = clampTo 1024 1433 ((7 * s.pwr.k * r + 1024 * m) / (8 * r))) ∧
      (s.pwr.source ≠ .estimate ∨ (∃ h ∈ s.pwr.kHist, h.2.2 = true) → t.pwr.k = s.pwr.k) := by
  unfold calibrationUpdate
  extract_lets w m r skip k t m' r'
  obtain ⟨shares, e⟩ := setAvail_shape { s with pwr := { w with k := k, kHist := [] } }
  have shown : t.pwr.kHist = [] ∧ t.pwr.baseHist = s.pwr.baseHist ∧ t.pwr.k = k := by
    show (setAvail _).pwr.kHist = [] ∧ (setAvail _).pwr.baseHist = _ ∧ (setAvail _).pwr.k = k
    rw [e]
    exact ⟨rfl, rfl, rfl⟩
  obtain ⟨hist, base, moved⟩ := shown
  refine ⟨hist, base, fun estimate ten clean some => ?_, fun bars => ?_⟩
  · have sums : m = m' ∧ r = r' := ⟨(List.foldl_map ..).symm, (List.foldl_map ..).symm⟩
    have takes : skip = false := by
      have all : s.pwr.kHist.any (fun h => h.2.2) = false := by simpa using clean
      simp [skip, w, estimate, ten, all, sums.2, some]
    rw [moved]
    show (if skip = true then w.k else _) = _
    rw [takes, sums.1, sums.2]
    rfl
  · have skips : skip = true := by
      rcases bars with other | ⟨h, mem, bad⟩
      · simp [skip, w, other]
      · have any : s.pwr.kHist.any (fun h => h.2.2) = true := List.any_eq_true.mpr ⟨h, mem, bad⟩
        simp [skip, w, any]
    exact moved.trans (if_pos skips)

/-- FCLK goes where it is told within its bounds (R675). -/
theorem holdFclk_within {k : Nat} (here : mayTarget s = true) (due : s.fab.fclkNext.getD s.fab.fclk = k) (low : s.pwr.fclkMin ≤ k)
    (high : k ≤ s.pwr.fclkMax) : holdFclk s = { s with fab := { s.fab with fclkNext := if k = s.fab.fclk then none else some k } } := by
  have within : clampTo s.pwr.fclkMin s.pwr.fclkMax k = k := by
    unfold clampTo
    rw [if_neg (by omega), if_neg (by omega)]
  unfold holdFclk
  dsimp only
  rw [if_pos here, due, within]

section
variable {mean : Nat} {below : Bool} (here : mayTarget s = true)
include here

theorem fclkAdjust_down (many : 64 < mean) (low : s.pwr.fclkMin < s.fab.fclk) (high : s.fab.fclk ≤ s.pwr.fclkMax) (none : s.fab.fclkNext = none) :
    fclkAdjust mean below s = { s with fab := { s.fab with fclkNext := some (s.fab.fclk - 1) } } := by
  unfold fclkAdjust
  dsimp only
  rw [if_neg (by simp [here]), if_pos many, none, Option.getD_none, Nat.min_eq_right (by omega)]
  refine (holdFclk_within (s := { s with fab := { s.fab with fclkNext := some (s.fab.fclk - 1) } }) (k := s.fab.fclk - 1) here rfl (by show s.pwr.fclkMin ≤ _; omega) (by show _ ≤ s.pwr.fclkMax; omega)).trans ?_
  dsimp only
  rw [if_neg (by omega)]

theorem fclkAdjust_due {k : Nat} (many : 64 < mean) (low : s.pwr.fclkMin ≤ k) (under : k < s.fab.fclk) (high : s.fab.fclk ≤ s.pwr.fclkMax)
    (due : s.fab.fclkNext = some k) : fclkAdjust mean below s = s := by
  unfold fclkAdjust
  dsimp only
  rw [if_neg (by simp [here]), if_pos many, due, Option.getD_some, Nat.min_eq_left (by omega)]
  refine (holdFclk_within (s := { s with fab := { s.fab with fclkNext := some k } }) (k := k) here rfl low (by show _ ≤ s.pwr.fclkMax; omega)).trans ?_
  dsimp only
  rw [if_neg (by omega), ← due]

theorem fclkAdjust_up (few : mean ≤ 64) (quiet : below = true) (low : s.pwr.fclkMin ≤ s.fab.fclk) (high : s.fab.fclk < s.pwr.fclkMax)
    (none : s.fab.fclkNext = none) (calm : anyCaution s = false) :
    fclkAdjust mean below s = { s with fab := { s.fab with fclkNext := some (s.fab.fclk + 1) } } := by
  unfold fclkAdjust
  dsimp only
  rw [if_neg (by simp [here]), if_neg (by omega), if_pos ⟨quiet, none, calm⟩]
  refine (holdFclk_within (s := { s with fab := { s.fab with fclkNext := some (s.fab.fclk + 1) } }) (k := s.fab.fclk + 1) here rfl (by show s.pwr.fclkMin ≤ _; omega) high).trans ?_
  dsimp only
  rw [if_neg (by omega)]

theorem fclkAdjust_stays (few : mean ≤ 64) (busy : below = false) (low : s.pwr.fclkMin ≤ s.fab.fclk) (high : s.fab.fclk ≤ s.pwr.fclkMax)
    (none : s.fab.fclkNext = none) : fclkAdjust mean below s = s := by
  unfold fclkAdjust
  dsimp only
  rw [if_neg (by simp [here]), if_neg (by omega), if_neg (by simp [busy])]
  refine (holdFclk_within (k := s.fab.fclk) here (by rw [none]; rfl) low high).trans ?_
  rw [if_pos rfl, ← none]

end

theorem holdFclk_shape (s : State) : ∃ next, holdFclk s = { s with fab := { s.fab with fclkNext := next } } := by
  unfold holdFclk
  dsimp only
  exact Laws.ite_cases (P := fun t => ∃ next, t = { s with fab := { s.fab with fclkNext := next } }) (fun _ => ⟨_, rfl⟩) fun _ => ⟨s.fab.fclkNext, rfl⟩

/-- The debugger's policy, each field within its range (R690). -/
theorem powerOverride_fields (x : PowerSet) (s : State) :
    let t := powerOverride x s
    t.mem = s.mem ∧
      t.pwr.avgLimit = (match x.avgLimit with | some v => clampTo 500 (max 500 (pIn s)) v | none => s.pwr.avgLimit) ∧
      t.pwr.avgWindow = (match x.avgWindow with | some v => clampTo 1 60 v | none => s.pwr.avgWindow) ∧
      t.pwr.noShare = (match x.noShare with | some v => v | none => s.pwr.noShare) ∧
      (∀ a b, x.fclk = some (a, b) → t.pwr.fclkMin = min 48 a ∧ t.pwr.fclkMax = clampTo (min 48 a) 48 b) ∧
      (∀ a b c, x.caution = some (a, b, c) → t.thm.cHub = clampTo 60 95 a ∧ t.thm.cSite = clampTo 60 95 b ∧ t.thm.cHbm = clampTo 60 85 c) := by
  unfold powerOverride
  extract_lets w prio w1 w2 w3 w4 w5 src h t
  obtain ⟨next, e⟩ := holdFclk_shape { s with pwr := w5, thm := h }
  have mem : t.mem = s.mem := by
    show (holdFclk _).mem = _
    rw [e]
  have pwr : t.pwr = w5 := by
    show (holdFclk _).pwr = _
    rw [e]
  have thm : t.thm = h := by
    show (holdFclk _).thm = _
    rw [e]
  have h2 : w2.avgLimit = w1.avgLimit ∧ w2.noShare = w1.noShare := by
    simp only [w2]
    split <;> exact ⟨rfl, rfl⟩
  have h3 : w3.avgLimit = w2.avgLimit ∧ w3.avgWindow = w2.avgWindow ∧ w3.noShare = w2.noShare := by
    simp only [w3]
    split
    · split <;> exact ⟨rfl, rfl, rfl⟩
    · exact ⟨rfl, rfl, rfl⟩
  have h4 : w4.avgLimit = w3.avgLimit ∧ w4.avgWindow = w3.avgWindow ∧ w4.noShare = w3.noShare := by
    simp only [w4]
    split <;> exact ⟨rfl, rfl, rfl⟩
  have h5 : w5.avgLimit = w4.avgLimit ∧ w5.avgWindow = w4.avgWindow ∧ w5.fclkMin = w4.fclkMin ∧ w5.fclkMax = w4.fclkMax := by
    simp only [w5]
    split <;> exact ⟨rfl, rfl, rfl, rfl⟩
  rw [mem, pwr, thm]
  refine ⟨rfl, ?_, ?_, ?_, fun a b told => ?_, fun a b c told => ?_⟩
  · rw [h5.1, h4.1, h3.1, h2.1]
    simp only [w1]
    cases x.avgLimit <;> rfl
  · rw [h5.2.1, h4.2.1, h3.2.1]
    have base : w1.avgWindow = s.pwr.avgWindow := by
      simp only [w1]
      split <;> rfl
    simp only [w2]
    cases x.avgWindow with
    | some _ => rfl
    | none => exact base
  · have base : w1.noShare = s.pwr.noShare := by
      simp only [w1]
      split <;> rfl
    simp only [w5]
    cases x.noShare with
    | some _ => rfl
    | none => exact h4.2.2.trans (h3.2.2.trans (h2.2.trans base))
  · rw [h5.2.2.1, h5.2.2.2]
    simp only [w4]
    rw [told]
    exact ⟨rfl, rfl⟩
  · simp only [h]
    rw [told]
    exact ⟨rfl, rfl, rfl⟩

end Sys2Proof.Machine

namespace Sys2Proof.Proofs
open Sys2Proof Sys2Proof.Machine Sys2Proof.Safety

/-- Settles O55. -/
theorem powerControl : Obligations.PowerControl := by
  unfold Obligations.PowerControl
  intro s canon
  have groups := groups_of_canon canon
  refine ⟨fun x none logs => ?_, fun est meas vin calm => ⟨_, rfl, powerSample_records groups calm⟩, ⟨_, rfl, calibrationUpdate_k s⟩,
    fun mean low there runs => ?_, fun w => ⟨fun there => ?_, fun away => ?_⟩, fun x => ⟨fun may => ?_, fun mayNot => ?_⟩⟩
  · obtain ⟨mem, throt, raw, amps, used, hist⟩ := powerControlTick_records x groups logs none
    refine ⟨refresh (powerControlTick x s), rfl, ?_⟩
    rw [refresh_pwr, refresh_mem]
    refine ⟨raw, used, hist, amps, mem, fun g first low => ?_⟩
    unfold groupFrac
    dsimp only
    rw [if_pos (by simp [throt, low, first])]
    exact le_max_left _ _
  · have here : mayTarget s = true := by simp [mayTarget, there, runs]
    refine ⟨fun many low' high none => ?_, fun k many low' below high due => ?_, fun few quiet low' high none calm => ?_, fun few busy low' high none => ?_⟩
    all_goals refine congrArg Host.Outcome.next ?_
    · exact fclkAdjust_down here many low' high none
    · exact fclkAdjust_due here many low' below high due
    · exact fclkAdjust_up here few quiet low' high none calm
    · exact fclkAdjust_stays here few busy low' high none
  · obtain ⟨shares, e⟩ := setAvail_shape { s with pwr := { s.pwr with budget := min w 8191 } }
    refine ⟨setRack w s, congrArg Host.Outcome.next (if_neg (by simp [there])), ?_⟩
    unfold setRack
    rw [e]
    have zero : (min w 8191 = 0) = (w = 0) := by
      rw [eq_iff_iff]
      omega
    refine ⟨rfl, ?_, rfl⟩
    show (if min w 8191 = 0 then 0 else _) = _
    simp only [zero]
    rfl
  · exact congrArg Host.Outcome.next (if_pos away)
  · exact ⟨powerOverride x s, congrArg Host.Outcome.next (if_pos may), powerOverride_fields x s⟩
  · exact congrArg Host.Outcome.next (if_neg (by simp [mayNot]))

end Sys2Proof.Proofs
end

section
/-! SUPPORT. Thermal levels: a state whose table of regions lists one region twice. -/
namespace Sys2Proof.Proofs
open Sys2Proof Sys2Proof.Machine Sys2Proof.Safety

/-- A reset hub whose table of thermal regions, of which `Canon` says nothing, lists region 0 twice: cool first, at CAUTION behind it. -/
def twiceListedRegion : State :=
  { State.reset with thm := { State.reset.thm with regions := [(0, {}), (0, { c1 := true })] } }

theorem twiceListedRegion_canon : Canon twiceListedRegion := by
  unfold Canon
  decide

/-- A reading of 0 °C makes region 0's first entry the default, which takes it off the table; the second then shows CAUTION. -/
theorem twiceListedRegion_shows_caution : exec (.thermalSample 0 0) twiceListedRegion = .next (refresh (thermalSample 0 0 twiceListedRegion)) ∧
    ((refresh (thermalSample 0 0 twiceListedRegion)).region 0).c1 = true := ⟨rfl, by decide +kernel⟩

/-- Refutes O56: that a sample below CAUTION leaves its region below CAUTION fails in a state whose table of regions lists the region
twice. -/
theorem not_thermalLevels : ¬ Obligations.ThermalLevels := by
  unfold Obligations.ThermalLevels
  rintro ⟨levels, -⟩
  obtain ⟨-, cool⟩ := levels 0 0 twiceListedRegion twiceListedRegion_canon rfl rfl
  obtain ⟨below, -⟩ := cool (by decide) (by decide) (fun _ _ _ => Int.le_refl 0) rfl rfl rfl
  obtain ⟨t, ran, quiet, -⟩ := below (by decide) (by decide) rfl
  obtain ⟨runs, caution⟩ := twiceListedRegion_shows_caution
  obtain rfl : refresh (thermalSample 0 0 twiceListedRegion) = t := Host.Outcome.next.inj (runs.symm.trans ran)
  exact Bool.false_ne_true (quiet.symm.trans caution)

end Sys2Proof.Proofs
end

section
/-! SUPPORT. The stages of a peel. -/
namespace Sys2Proof

/-- An entry of a table after a change of every entry that keeps the default. -/
theorem Tab.get_mapV {α : Type} [DecidableEq α] {d : α} {f : Nat → α → α} (unlisted : ∀ k, f k d = d) (k : Nat) :
    ∀ {t : Tab α} {lo : Nat}, Tab.wfFrom d lo t = true → Tab.get d (Tab.mapV d f t) k = f k (Tab.get d t k)
  | [], _, _ => (unlisted k).symm
  | (j, v) :: t, lo, w => by
    simp only [Tab.wfFrom, Bool.and_eq_true, decide_eq_true_eq] at w
    obtain ⟨⟨-, -⟩, rest⟩ := w
    have ih := Tab.get_mapV (f := f) unlisted k rest
    have below : k ≤ j → Tab.get d t k = d := fun le => Tab.get_below (Nat.lt_succ_of_le le) (Tab.wfFrom_rises rest)
    unfold Tab.mapV
    by_cases dropped : f j v = d
    · rw [if_pos dropped, ih, Tab.get]
      split
      · next same => rw [below (same ▸ le_refl _), unlisted, ← same, dropped]
      · split
        · next less => rw [below (le_of_lt less)]
        · rfl
    · rw [if_neg dropped, Tab.get, Tab.get]
      split
      · next same => rw [same]
      · split
        · exact (unlisted k).symm
        · exact ih

end Sys2Proof

namespace Sys2Proof.Machine
open Sys2Proof Sys2Proof.Safety

variable {s t : State}

/-- The management block, the life cycle and the fault block stay. -/
structure LeavesMgt (s t : State) : Prop where
  mgt : t.mgt = s.mgt
  lcs : t.lcs = s.lcs
  flt : t.flt = s.flt

namespace LeavesMgt
variable {r : State}

theorem refl (s : State) : LeavesMgt s s := ⟨rfl, rfl, rfl⟩

theorem trans (h : LeavesMgt r s) (k : LeavesMgt s t) : LeavesMgt r t := ⟨k.mgt.trans h.mgt, k.lcs.trans h.lcs, k.flt.trans h.flt⟩

theorem after (k : LeavesMgt s t) (h : LeavesMgt r s) : LeavesMgt r t := h.trans k

theorem foldl {α : Type} {f : State → α → State} (step : ∀ s a, LeavesMgt s (f s a)) (l : List α) (s : State) : LeavesMgt s (l.foldl f s) := by
  induction l generalizing s with
  | nil => exact refl s
  | cons a l ih => exact (step s a).trans (ih (f s a))

end LeavesMgt

theorem holdFclk_leavesMgt (s : State) : LeavesMgt s (holdFclk s) := by
  obtain ⟨next, e⟩ := holdFclk_shape s
  rw [e]
  exact ⟨rfl, rfl, rfl⟩

theorem fclkToMin_leavesMgt (s : State) : LeavesMgt s (fclkToMin s) := by
  unfold fclkToMin
  exact Laws.ite_cases (P := LeavesMgt s) (fun _ => ⟨rfl, rfl, rfl⟩) fun _ => .refl s

theorem measureFw_leavesMgt (s : State) : LeavesMgt s (measureFw s) := by
  obtain ⟨sec, vis, e⟩ := measureFw_shape s
  rw [e]
  exact ⟨rfl, rfl, rfl⟩

theorem setPolicy_leavesMgt (rs : List Rec) (s : State) : LeavesMgt s (setPolicy rs s) := by
  unfold setPolicy
  split <;> exact (holdFclk_leavesMgt _).after ⟨rfl, rfl, rfl⟩

theorem rewriteQos_leavesMgt (p : Nat) (rs : List Rec) (s : State) : LeavesMgt s (rewriteQos p rs s) := by
  have values (n : Nat) (v : Nat × Nat × Nat × Nat × Nat × Nat) (s : State) : LeavesMgt s (putQosValues n p v s) :=
    Laws.ite_cases (P := LeavesMgt s) (fun _ => ⟨rfl, rfl, rfl⟩) fun _ => ⟨rfl, rfl, rfl⟩
  have miss (thresh window : Nat) (s : State) : LeavesMgt s (putMiss p thresh window s) :=
    Laws.ite_cases (P := LeavesMgt s) (fun _ => ⟨rfl, rfl, rfl⟩) fun _ => ⟨rfl, rfl, rfl⟩
  unfold rewriteQos
  extract_lets q d s1 s2
  have first : LeavesMgt s s1 := LeavesMgt.foldl (fun s k => Laws.ite_cases (P := LeavesMgt s) (fun _ => .refl s) fun _ => values _ _ s) _ s
  have second : LeavesMgt s1 s2 := Laws.ite_cases (P := LeavesMgt s1) (fun _ => .refl s1) fun _ => miss _ _ s1
  exact (first.trans second).trans
    (LeavesMgt.foldl (fun s r => Laws.ite_cases (P := LeavesMgt s) (fun _ => miss _ _ s) fun _ => values _ _ s) _ s2)

theorem rewritePolicy_leavesMgt (s : State) : LeavesMgt s (rewritePolicy s) := by
  unfold rewritePolicy
  refine Laws.ite_cases (P := LeavesMgt s) (fun _ => .refl s) fun _ => ?_
  refine (setPolicy_leavesMgt _ s).trans (LeavesMgt.foldl (fun s p => ?_) _ _)
  dsimp only
  split
  · exact (rewriteQos_leavesMgt _ _ _).after ⟨rfl, rfl, rfl⟩
  · exact rewriteQos_leavesMgt _ _ _

/-- With nothing deferred, what resumes is the mailbox and the sites' admissions. -/
theorem resumeWork_none (nothing : NothingDeferred s) : resumeWork s =
    pauseSites false { s with mgt := { s.mgt with unavail := false, pldmQ := [] } } := by
  obtain ⟨deferTo, otpLater, rollLater, queue⟩ := nothing
  unfold resumeWork
  have flush : pldmFlush (pauseSites false { s with mgt := { s.mgt with unavail := false } }) =
      pauseSites false { s with mgt := { s.mgt with unavail := false, pldmQ := [] } } := by
    unfold pldmFlush pauseSites
    dsimp only
    rw [queue]
    rfl
  rw [flush]
  exact runDeferred_none (s := pauseSites false _) otpLater rollLater deferTo

theorem record_header (a b : Nat) (rest : List Byte) : (leBytes 4 a ++ leBytes 4 b ++ rest).take 8 = leBytes 4 a ++ leBytes 4 b := by
  have size : (leBytes 4 a ++ leBytes 4 b).length = 8 := rfl
  rw [List.take_append_of_le_length (by omega), List.take_of_length_le (by omega)]

/-- The handover record starts with its magic and the newest format of the firmware that writes it (R763). -/
theorem writeRecord_written (s : State) : RecordWritten s.mgt.fw (writeRecord s) := by
  unfold RecordWritten writeRecord
  extract_lets body build
  show (build _).take 8 = _
  simp only [build, List.append_assoc]
  rw [← List.append_assoc]
  exact record_header _ _ _

/-- Freeze and Jump of a peel that meets an emergency put it off (R762). -/
theorem backToWait_defers (nothing : NothingDeferred s) :
    (backToWait s).mgt.peel = .deferred ∧ (backToWait s).mgt.unavail = false ∧ (backToWait s).mgt.fw = s.mgt.fw := by
  unfold backToWait
  rw [resumeWork_none (s := { s with mgt := { s.mgt with peel := .deferred, deferAt := some s.clk.now, emergAt := some s.clk.now } }) nothing]
  unfold writeLog
  dsimp only
  rw [(fclkToMin_leavesMgt _).mgt]
  exact ⟨rfl, rfl, rfl⟩

/-- What resumed firmware does at last: its policy again, its work again, FCLK under a hub at CRITICAL. -/
theorem resumed_mgt (nothing : NothingDeferred s) :
    (fclkToMin (resumeWork (rewritePolicy s))).mgt = { s.mgt with unavail := false, pldmQ := [] } ∧
      (fclkToMin (resumeWork (rewritePolicy s))).flt = s.flt := by
  have policy := rewritePolicy_leavesMgt s
  have nothing' : NothingDeferred (rewritePolicy s) := by
    unfold NothingDeferred
    rw [policy.lcs, policy.mgt]
    exact nothing
  have toMin := fclkToMin_leavesMgt (resumeWork (rewritePolicy s))
  rw [toMin.mgt, toMin.flt, resumeWork_none nothing']
  exact ⟨congrArg (fun m : Mgt => { m with unavail := false, pldmQ := [] }) policy.mgt, policy.flt⟩

/-- The image that the peel jumped to takes over, and a late one sets PEEL_SLOW (R763). -/
theorem peelResume_jumped (groups : Groups s) (calm : Calm 0 s) (nothing : NothingDeferred s) (runs : s.mgt.halted = false)
    (away : s.mgt.unavail = true) (jumped : s.mgt.peel = .jumped) :
    let t := peelResume s
    t.mgt.peel = .none ∧ t.mgt.staged = none ∧ t.mgt.commitDue = true ∧ t.mgt.unavail = false ∧ t.mgt.fw = s.mgt.fw ∧
      (60000000 < s.clk.now.toNat - s.mgt.unavailAt.toNat → FaultSet 0 7 t) := by
  unfold peelResume
  rw [if_neg (by simp [runs, away]), if_pos (by simp [jumped])]
  extract_lets slow src s1 s2 t
  have quiet : Calm 0 s1 := calm
  have rises : Groups s1 := groups
  have mgt : s2.mgt = s1.mgt := Laws.ite_cases (P := fun t : State => t.mgt = s1.mgt) (fun _ => Laws.raise_calm_mgt rises quiet) fun _ => rfl
  have lcs : s2.lcs = s1.lcs := Laws.ite_cases (P := fun t : State => t.lcs = s1.lcs) (fun _ => Laws.raise_calm_lcs rises quiet) fun _ => rfl
  have nothing' : NothingDeferred s2 := by
    unfold NothingDeferred
    rw [lcs, mgt]
    exact nothing
  obtain ⟨resumed, flt⟩ := resumed_mgt nothing'
  have logged (u : State) (code : Nat) : (writeLog 0x40 0 2 4 code 0 u).mgt.peel = u.mgt.peel ∧ (writeLog 0x40 0 2 4 code 0 u).mgt.staged = u.mgt.staged ∧
      (writeLog 0x40 0 2 4 code 0 u).mgt.commitDue = u.mgt.commitDue ∧ (writeLog 0x40 0 2 4 code 0 u).mgt.unavail = u.mgt.unavail ∧
      (writeLog 0x40 0 2 4 code 0 u).mgt.fw = u.mgt.fw := ⟨rfl, rfl, rfl, rfl, rfl⟩
  obtain ⟨peel, staged, commit, there, fw⟩ := logged (fclkToMin (resumeWork (rewritePolicy s2))) s2.mgt.fw.version.toNat
  rw [resumed, mgt] at peel staged commit there fw
  refine ⟨peel, staged, commit, there, fw, fun late => ?_⟩
  have raised : s2 = raise 0 7 0 s1 := if_pos (decide_eq_true late)
  refine faultSet_keeps (congrArg Flt.groups flt) ?_
  rw [raised]
  exact Laws.raise_sets rises (by decide)

theorem peelResume_idle (nothing : NothingDeferred s) (runs : s.mgt.halted = false) (away : s.mgt.unavail = true) (idle : s.mgt.peel = .none) :
    (peelResume s).mgt.unavail = false ∧ (peelResume s).mgt.fw = s.mgt.fw := by
  unfold peelResume
  rw [if_neg (by simp [runs, away]), if_neg (by simp [idle]), if_pos (by simp [idle]), (fclkToMin_leavesMgt _).mgt, resumeWork_none nothing]
  exact ⟨rfl, rfl⟩

/-- An image that does not resume leaves the old one in control (R765). -/
theorem peelResumeTimeout_restores (rejected : Bool) (groups : Groups s) (calm : Calm 0 s) (nothing : NothingDeferred s) (runs : s.mgt.halted = false)
    (jumped : s.mgt.peel = .jumped) :
    let t := peelResumeTimeout rejected s
    FaultSet 0 (if rejected then 6 else 2) t ∧ t.mgt.fw = s.mgt.oldFw ∧ t.mgt.running = s.mgt.oldRun ∧ t.mgt.peel = .none ∧ t.mgt.staged = none ∧
      t.mgt.unavail = false := by
  unfold peelResumeTimeout
  rw [if_neg (by simp [jumped, runs])]
  extract_lets src s1
  have measured := measureFw_leavesMgt { s with mgt := { s.mgt with fw := s.mgt.oldFw, running := s.mgt.oldRun, peel := .none, staged := none, emergAt := none } }
  have flt : s1.flt = s.flt := measured.flt
  have quiet : Calm 0 s1 := calm_keeps flt calm
  have rises : Groups s1 := groups_of_flt flt groups
  have mgt := Laws.raise_calm_mgt (bit := if rejected then 6 else 2) (unit := 0) rises quiet
  have nothing' : NothingDeferred (raise 0 (if rejected then 6 else 2) 0 s1) := by
    unfold NothingDeferred
    rw [mgt, measured.mgt, Laws.raise_calm_lcs rises quiet, measured.lcs]
    exact nothing
  obtain ⟨resumed, same⟩ := resumed_mgt nothing'
  refine ⟨faultSet_keeps (congrArg Flt.groups same) (Laws.raise_sets rises (by cases rejected <;> decide)), ?_⟩
  rw [resumed, mgt, measured.mgt]
  exact ⟨rfl, rfl, rfl, rfl, rfl⟩

/-- Freeze makes the mailbox UNAVAILABLE, writes the handover record and pauses the sites that are being admitted (R763). -/
theorem peelFreeze_hands (canon : Tab.wf {} s.sites = true) (waited : waitOver s = true) (calm : emergency s = false) :
    let t := peelFreeze s
    t.mgt.peel = .handover ∧ t.mgt.unavail = true ∧ t.mgt.unavailAt = s.clk.now ∧ RecordWritten s.mgt.fw t ∧
      ∀ n, (t.site n).paused = admitting (s.site n) := by
  unfold peelFreeze
  rw [if_neg (by simp [waited]), if_neg (by simp [calm])]
  refine ⟨rfl, rfl, rfl, writeRecord_written (pauseSites true _), fun n => ?_⟩
  have paused := Tab.get_mapV (d := ({} : Site)) (f := fun _ t => { t with paused := true && admitting t }) (fun _ => rfl) n canon
  exact (congrArg Site.paused paused).trans rfl

/-- The commit of a peel makes the new slot ACTIVE (R764). -/
theorem peelCommit_active (due : s.mgt.commitDue = true) (flash : s.mgt.flash.present = true) :
    let t := peelCommit true s
    t.mgt.commitDue = false ∧ t.mgt.flash.active = 1 - s.mgt.flash.active % 2 ∧
      slotImage t.mgt.flash (1 - s.mgt.flash.active % 2) = some s.mgt.fw ∧ t.mgt.running = FwSlot.of (1 - s.mgt.flash.active % 2) := by
  unfold peelCommit
  rw [if_neg (by simp [due]), if_pos (by simp [flash])]
  refine ⟨rfl, rfl, ?_, rfl⟩
  show slotImage { putSlot (1 - s.mgt.flash.active % 2) s.mgt.fw s.mgt.flash with active := _ } (1 - s.mgt.flash.active % 2) = _
  unfold slotImage putSlot
  rcases (by omega : 1 - s.mgt.flash.active % 2 = 0 ∨ 1 - s.mgt.flash.active % 2 = 1) with slot | slot <;> rw [slot] <;> rfl

theorem peelCommit_failed (groups : Groups s) (calm : Calm 0 s) (due : s.mgt.commitDue = true) :
    let t := peelCommit false s
    FaultSet 0 4 t ∧ t.mgt.commitDue = false ∧ t.mgt.flash = emptySlot (1 - s.mgt.flash.active % 2) s.mgt.flash := by
  have fails : peelCommit false s =
      raise 0 4 0 { s with mgt := { s.mgt with commitDue := false, flash := emptySlot (1 - s.mgt.flash.active % 2) s.mgt.flash } } := by
    unfold peelCommit
    rw [if_neg (by simp [due]), if_neg (by simp)]
    rfl
  have quiet : Calm 0 { s with mgt := { s.mgt with commitDue := false, flash := emptySlot (1 - s.mgt.flash.active % 2) s.mgt.flash } } := calm
  have rises : Groups { s with mgt := { s.mgt with commitDue := false, flash := emptySlot (1 - s.mgt.flash.active % 2) s.mgt.flash } } := groups
  have mgt := Laws.raise_calm_mgt (bit := 4) (unit := 0) rises quiet
  have set := Laws.raise_sets (g := 0) (bit := 4) (unit := 0) rises (by decide)
  rw [fails]
  generalize raise 0 4 0 _ = u at mgt set ⊢
  exact ⟨set, by rw [mgt], by rw [mgt]⟩

/-- A peel that has not jumped is dropped: no image is staged any more. -/
structure PeelDropped (s t : State) : Prop where
  peel : t.mgt.peel = .none
  busy : t.mgt.busy = s.mgt.busy
  wdtExp : t.mgt.wdtExp = s.mgt.wdtExp
  img : t.img = s.img
  flt : t.flt = s.flt

theorem dropPeel_drops (still : s.mgt.peel ≠ .jumped) : PeelDropped s (dropPeel s) := by
  unfold dropPeel
  cases peel : s.mgt.peel with
  | none => exact ⟨peel, rfl, rfl, rfl, rfl⟩
  | jumped => exact absurd peel still
  | _ => exact ⟨rfl, rfl, rfl, rfl, rfl⟩

/-- With no command and no load to cut, only a write to flash is. -/
structure NothingCut (s t : State) : Prop where
  peel : t.mgt.peel = s.mgt.peel
  wdtExp : t.mgt.wdtExp = s.mgt.wdtExp
  flt : t.flt = s.flt

theorem cutCommand_idle (free : s.mgt.busy = false) (idle : s.img.load.stage = .idle) : NothingCut s (cutCommand s) := by
  unfold cutCommand
  extract_lets src s1
  have cut : NothingCut s s1 ∧ s1.mgt.busy = s.mgt.busy ∧ s1.img = s.img := by
    simp only [s1]
    split <;> exact ⟨⟨rfl, rfl, rfl⟩, rfl, rfl⟩
  obtain ⟨nothing, busy, img⟩ := cut
  rw [if_neg (by simp [img, idle]), if_neg (by simp [busy, free])]
  exact nothing

/-- The watchdog of firmware in service counts, makes the mailbox UNAVAILABLE and drops a staged peel (R755). -/
theorem mgtWatchdog_expires (groups : Groups s) (calm : Calm 0 s) (stage : s.mgt.stage = .complete) (runs : s.mgt.halted = false)
    (still : s.mgt.peel ≠ .jumped) (free : s.mgt.busy = false) (idle : s.img.load.stage = .idle) :
    let t := mgtWatchdog s
    FaultSet 0 1 t ∧ t.mgt.wdtExp = satInc s.mgt.wdtExp ∧ t.mgt.unavail = true ∧ t.mgt.peel = .none := by
  have mgt := Laws.raise_calm_mgt (bit := 1) (unit := 0) groups calm
  have img := Laws.raise_calm_img (bit := 1) (unit := 0) groups calm
  have set : FaultSet 0 1 (raise 0 1 0 s) := Laws.raise_sets groups (by decide)
  unfold mgtWatchdog
  rw [if_neg (by simp [stage, runs, still])]
  generalize raise 0 1 0 s = u at mgt img set ⊢
  have dropped := dropPeel_drops (s := u) (by rw [mgt]; exact still)
  have cut := cutCommand_idle (s := dropPeel u) (by rw [dropped.busy, mgt, free]) (by rw [dropped.img, img, idle])
  refine ⟨faultSet_keeps (congrArg Flt.groups (cut.flt.trans dropped.flt)) set, ?_, rfl, cut.peel.trans dropped.peel⟩
  show satInc (cutCommand (dropPeel u)).mgt.wdtExp = _
  rw [cut.wdtExp, dropped.wdtExp, mgt]

end Sys2Proof.Machine

namespace Sys2Proof.Proofs
open Sys2Proof Sys2Proof.Machine Sys2Proof.Safety

/-- Settles O59. -/
theorem peels : Obligations.Peels := by
  unfold Obligations.Peels
  intro s canon m
  have groups := groups_of_canon canon
  obtain ⟨-, -, -, sites, -⟩ := canon
  refine ⟨fun deferred runs calm long => ?_, fun deferred runs hot => ?_, fun deferred calm => ?_, fun waited => ⟨fun calm => ?_, fun hot nothing => ?_⟩,
    fun i handover runs staged => ⟨fun calm => ?_, fun hot nothing => ?_⟩, fun runs away nothing => ⟨fun jumped calm => ?_, fun idle => ?_, fun rejected jumped calm => ?_⟩,
    fun due => ⟨fun flash => ?_, fun calm => ?_⟩, fun stage runs still free idle calm => ?_, fun stage runs here => ?_⟩
  · have since : 120000000 ≤ (match m.emergAt with | some t => s.clk.now.toNat - t.toNat | none => 120000000) := by
      cases e : m.emergAt with
      | none => exact le_refl _
      | some k => exact long k e
    refine congrArg Host.Outcome.next ?_
    show peelDeferCheck s = _
    unfold peelDeferCheck
    rw [if_neg (by simp [m, deferred, runs]), if_neg (by simp [calm])]
    exact if_pos since
  · refine congrArg Host.Outcome.next ?_
    show peelDeferCheck s = _
    unfold peelDeferCheck
    rw [if_neg (by simp [m, deferred, runs]), if_pos hot]
  · have mgt := Laws.raise_calm_mgt (bit := 3) (unit := 0) groups calm
    refine ⟨writeLog 0x40 1 2 3 0 0 (raise 0 3 0 s), congrArg Host.Outcome.next (if_pos (by simp [m, deferred])),
      Laws.raise_sets (bit := 3) (unit := 0) groups (by decide), (congrArg Mgt.peel mgt).trans deferred, ?_⟩
    exact congrArg (fun m : Mgt => m.logSeq + 1) mgt
  · exact ⟨peelFreeze s, rfl, peelFreeze_hands sites waited calm⟩
  · have back : peelFreeze s = backToWait s := by
      unfold peelFreeze
      rw [if_neg (by simp [waited]), if_pos hot]
    obtain ⟨peel, there, -⟩ := backToWait_defers nothing
    exact ⟨peelFreeze s, rfl, back ▸ peel, back ▸ there⟩
  · refine ⟨refresh (peelJump s), rfl, ?_⟩
    rw [refresh_mgt]
    unfold peelJump
    rw [if_neg (by simp [m, handover, runs]), if_neg (by simp [calm]), staged]
    dsimp only
    rw [(measureFw_leavesMgt _).mgt]
    exact ⟨rfl, rfl, rfl, rfl⟩
  · have back : peelJump s = backToWait s := by
      unfold peelJump
      rw [if_neg (by simp [m, handover, runs]), if_pos hot]
    obtain ⟨peel, there, fw⟩ := backToWait_defers nothing
    refine ⟨refresh (peelJump s), rfl, ?_⟩
    rw [refresh_mgt, back]
    exact ⟨peel, fw, there⟩
  · obtain ⟨peel, staged, commit, there, fw, slow⟩ := peelResume_jumped groups calm nothing runs away jumped
    refine ⟨refresh (peelResume s), rfl, ?_⟩
    rw [refresh_mgt]
    exact ⟨peel, staged, commit, there, fw, fun late => faultSet_keeps (refresh_groups _) (slow late)⟩
  · refine ⟨refresh (peelResume s), rfl, ?_⟩
    rw [refresh_mgt]
    exact peelResume_idle nothing runs away idle
  · obtain ⟨set, rest⟩ := peelResumeTimeout_restores rejected groups calm nothing runs jumped
    refine ⟨refresh (peelResumeTimeout rejected s), rfl, faultSet_keeps (refresh_groups _) set, ?_⟩
    rw [refresh_mgt]
    exact rest
  · refine ⟨refresh (peelCommit true s), rfl, ?_⟩
    rw [refresh_mgt]
    exact peelCommit_active due flash
  · obtain ⟨set, rest⟩ := peelCommit_failed groups calm due
    refine ⟨refresh (peelCommit false s), rfl, faultSet_keeps (refresh_groups _) set, ?_⟩
    rw [refresh_mgt]
    exact rest
  · obtain ⟨set, rest⟩ := mgtWatchdog_expires groups calm stage runs still free idle
    refine ⟨refresh (mgtWatchdog s), rfl, faultSet_keeps (refresh_groups _) set, ?_⟩
    rw [refresh_mgt]
    exact rest
  · have writes : exec .handoverRecordWrite s = .next (writeRecord s) := congrArg Host.Outcome.next (if_pos (by simp [m, stage, runs, here]))
    exact ⟨writeRecord s, writes, writeRecord_written s, rfl⟩

end Sys2Proof.Proofs
end

section
/-! SUPPORT. Life-cycle transitions and burns of OTP that are performed. -/
namespace Sys2Proof.Machine
open Sys2Proof Sys2Proof.Safety

variable {s t : State}

theorem lifeCycle_of_fields (same : t.lcs.otp.fields = s.lcs.otp.fields) : lifeCycle t = lifeCycle s := by
  unfold lifeCycle burnt copies
  dsimp only
  rw [same]

theorem or_full (x : BitVec 16) : x ||| BitVec.ofNat 16 (2 ^ min 16 16 - 1) = BitVec.allOnes 16 := by
  have full : BitVec.ofNat 16 (2 ^ min 16 16 - 1) = BitVec.allOnes 16 := by decide
  rw [full, BitVec.or_allOnes]

/-- Copies of the burnt field read all ones, and those of every other field as before. -/
theorem finishField_get {o : Otp} (wf : Tab.wf 0 o.fields = true) (f k : Nat) : Tab.get 0 (finishField f o).fields k =
    if f * 3 ≤ k ∧ k < f * 3 + 3 then BitVec.allOnes 16 else Tab.get 0 o.fields k := by
  have wf1 := Tab.wf_set wf (f * 3 + 0) (Tab.get 0 o.fields (f * 3 + 0) ||| BitVec.ofNat 16 (2 ^ min 16 16 - 1))
  have wf2 := Tab.wf_set wf1 (f * 3 + 1) (BitVec.allOnes 16)
  rw [or_full] at wf1 wf2
  unfold finishField burnBits
  dsimp only
  rw [or_full, or_full, or_full]
  by_cases last : k = f * 3 + 2
  · rw [last, Tab.get_set_same wf2, if_pos (by omega)]
  rw [Tab.get_set_other wf2 last]
  by_cases second : k = f * 3 + 1
  · rw [second, Tab.get_set_same wf1, if_pos (by omega)]
  rw [Tab.get_set_other wf1 second]
  by_cases first : k = f * 3 + 0
  · rw [first, Tab.get_set_same wf, if_pos (by omega)]
  rw [Tab.get_set_other wf first, if_neg (by omega)]

/-- A field burnt in full reads as burnt. -/
theorem burnt_finishField {o : Otp} (wf : Tab.wf 0 o.fields = true) (f : Nat) : burnt (finishField f o) f = true := by
  have full : copies (finishField f o) f = (List.range 3).map (fun _ => BitVec.allOnes 16) := by
    unfold copies
    refine List.map_congr_left fun c small => ?_
    rw [List.mem_range] at small
    rw [finishField_get wf, if_pos (by omega)]
  unfold burnt
  rw [full]
  decide

/-- Burning a field leaves the others. -/
theorem burnt_finishField_other {o : Otp} (wf : Tab.wf 0 o.fields = true) {f g : Nat} (other : g ≠ f) : burnt (finishField f o) g = burnt o g := by
  have same : copies (finishField f o) g = copies o g := by
    unfold copies
    refine List.map_congr_left fun c small => ?_
    rw [List.mem_range] at small
    rw [finishField_get wf, if_neg (by omega)]
  unfold burnt
  rw [same]

/-- The state of the life cycle after the field above it was burnt. -/
theorem lifeCycle_of_burn (wf : Tab.wf 0 s.lcs.otp.fields = true) {f : Nat} (field : f < 4) (below : lifeCycle s ≤ f)
    (burns : t.lcs.otp.fields = (finishField f s.lcs.otp).fields) : lifeCycle t = f + 1 := by
  have same (g : Nat) : burnt t.lcs.otp g = burnt (finishField f s.lcs.otp) g := by
    unfold burnt copies
    rw [burns]
  have top : burnt t.lcs.otp f = true := (same f).trans (burnt_finishField wf f)
  have above (g : Nat) (high : f < g) (low : g < 4) : burnt t.lcs.otp g = false := by
    rw [same, burnt_finishField_other wf (by omega)]
    by_contra burnt
    have := lt_lifeCycle_of_burnt low (by simpa using burnt)
    omega
  unfold lifeCycle
  dsimp only
  interval_cases f
  · simp [top, above 1 (by omega) (by omega), above 2 (by omega) (by omega), above 3 (by omega) (by omega)]
  · simp [top, above 2 (by omega) (by omega), above 3 (by omega) (by omega)]
  · simp [top, above 3 (by omega) (by omega)]
  · simp [top]

/-- Every path of R634 goes up. -/
theorem pathOk_rises {lc target : Nat} {path : LcsPath} {session : Bool} (ok : pathOk lc target path session = true) : lc < target ∧ target ≤ 4 := by
  unfold pathOk at ok
  dsimp only at ok
  split at ok <;> first | omega | cases ok

/-! ### A transition that is performed -/

/-- What the end of a transition leaves: the life-cycle fields, and memory and cells. -/
structure LeavesWiped (s t : State) : Prop where
  fields : t.lcs.otp.fields = s.lcs.otp.fields
  bytes : t.mem.bytes = s.mem.bytes
  cells : t.fab.cells = s.fab.cells

namespace LeavesWiped
variable {r : State}

theorem refl (s : State) : LeavesWiped s s := ⟨rfl, rfl, rfl⟩

theorem trans (h : LeavesWiped r s) (k : LeavesWiped s t) : LeavesWiped r t :=
  ⟨k.fields.trans h.fields, k.bytes.trans h.bytes, k.cells.trans h.cells⟩

theorem after (k : LeavesWiped s t) (h : LeavesWiped r s) : LeavesWiped r t := h.trans k

end LeavesWiped

theorem measureDebug_leaves (s : State) : LeavesWiped s (measureDebug s) := by
  unfold measureDebug
  obtain ⟨sec, vis, e⟩ := setMeas_shape 5 _ s
  rw [e]
  exact ⟨rfl, rfl, rfl⟩

theorem fclkToMin_leaves (s : State) : LeavesWiped s (fclkToMin s) := by
  unfold fclkToMin
  exact Laws.ite_cases (P := LeavesWiped s) (fun _ => ⟨rfl, rfl, rfl⟩) fun _ => .refl s

theorem closeDebug_leaves (s : State) : LeavesWiped s (closeDebug s) := by
  have ended (nonce : BitVec 256) (s : State) : LeavesWiped s (endDebug nonce s) := by
    unfold endDebug
    exact Laws.ite_cases (P := LeavesWiped s) (fun _ => ((fclkToMin_leaves _).after (measureDebug_leaves _)).after ⟨rfl, rfl, rfl⟩) fun _ => .refl s
  unfold closeDebug
  exact Laws.ite_cases (P := LeavesWiped s) (fun _ => (ended _ _).after ⟨rfl, rfl, rfl⟩) fun _ => .refl s

theorem transitionEnds_leaves (s : State) : LeavesWiped s (transitionEnds true s) := by
  unfold transitionEnds
  dsimp only
  rw [if_pos rfl]
  exact ((measureDebug_leaves _).after (closeDebug_leaves _)).after ⟨rfl, rfl, rfl⟩

/-- A reset leaves OTP, and neither memory nor cells. -/
theorem enterReset_wiped (s : State) : (enterReset s).lcs.otp = s.lcs.otp ∧ (enterReset s).mem.bytes = [] ∧ (enterReset s).fab.cells = [] := by
  obtain ⟨out, e⟩ := enterReset_shape s
  rw [e]
  exact ⟨rfl, rfl, rfl⟩

/-- The end of a scrapping: the erasure of flash, or the reset that follows it. -/
theorem scrap_wiped {u : State} (wf : Tab.wf 0 u.lcs.otp.fields = true) (erased : u.mem.bytes = []) (cells : u.fab.cells = []) :
    let t := if u.mgt.flash.present then { u with mgt := { u.mgt with flashOp := .erase } } else scrapEnds true u
    lifeCycle t = lifeCycle u ∧ t.mem.bytes = [] ∧ t.fab.cells = [] := by
  dsimp only
  split
  · exact ⟨rfl, erased, cells⟩
  · have wiped := enterReset_wiped (burnLc 4 .full u)
    obtain ⟨otp, bytes, cells⟩ := wiped
    refine ⟨?_, bytes, cells⟩
    have field (f : Nat) (low : f < 4) : burnt (scrapEnds true u).lcs.otp f = burnt u.lcs.otp f := by
      have burns : (scrapEnds true u).lcs.otp = finishField 4 u.lcs.otp := otp
      rw [burns, burnt_finishField_other wf (by omega)]
    unfold lifeCycle
    dsimp only
    rw [field 0 (by omega), field 1 (by omega), field 2 (by omega), field 3 (by omega)]

theorem burnLc_fields (f : Nat) (s : State) : (burnLc f .full s).lcs.otp = finishField f s.lcs.otp := rfl
theorem wipeSecrets_fields (s : State) : (wipeSecrets s).lcs.otp.fields = s.lcs.otp.fields := by rw [wipeSecrets]
theorem wipeAllOtp_fields (s : State) : (wipeAllOtp s).lcs.otp.fields = s.lcs.otp.fields := by rw [wipeAllOtp, wipeOtp]

/-- Burning a field depends on the fields alone. -/
theorem finishField_fields {a b : Otp} (same : a.fields = b.fields) (f : Nat) : (finishField f a).fields = (finishField f b).fields := by
  unfold finishField burnBits
  dsimp only
  rw [same]

theorem stopAll_otp (s : State) : (stopAll s).lcs.otp = s.lcs.otp := by
  have frame : Laws.Frm 5 s (stopAll s) := Laws.frm_stopAll (Laws.Frm.refl 5 s)
  exact frame.otp rfl

/-- A transition whose burn is complete: the field reads burnt, and one towards RETURNED or SCRAPPED leaves memory and cells empty (R636). -/
theorem performTransition_full {target : Nat} (wf : Tab.wf 0 s.lcs.otp.fields = true) (rises : lifeCycle s < target) (top : target ≤ 4) :
    lifeCycle (performTransition target .full s) = target ∧
      (3 ≤ target → (performTransition target .full s).mem.bytes = [] ∧ (performTransition target .full s).fab.cells = []) := by
  obtain ⟨f, rfl⟩ : ∃ f, target = f + 1 := ⟨target - 1, by omega⟩
  unfold performTransition
  extract_lets src s0 f' took u3 u4 w4 src' u2
  have start : s0.lcs.otp = s.lcs.otp := rfl
  clear_value s0
  have stopped : (stopAll s0).lcs.otp = s.lcs.otp := (stopAll_otp s0).trans start
  have wiped : (wipeSecrets (stopAll s0)).lcs.otp.fields = s.lcs.otp.fields := (wipeSecrets_fields _).trans (congrArg Otp.fields stopped)
  have burns (v w : State) (same : w.lcs.otp.fields = s.lcs.otp.fields) (burnt : v.lcs.otp.fields = (burnLc f .full w).lcs.otp.fields) :
      lifeCycle v = f + 1 := by
    rw [burnLc_fields, finishField_fields same] at burnt
    exact lifeCycle_of_burn wf (by omega) (by omega) burnt
  have takes (w : State) (same : w.lcs.otp.fields = s.lcs.otp.fields) : took (burnLc f .full w) = true := by
    show burnt (burnLc f .full w).lcs.otp f = true
    rw [burnLc_fields]
    exact burnt_finishField (by rw [same]; exact wf) f
  have took3 : took u3 = true := takes _ wiped
  have took4 : took u4 = true := takes _ (congrArg Otp.fields stopped)
  have took2 : took u2 = true := takes _ (congrArg Otp.fields start)
  by_cases returned : f + 1 = 3
  · rw [if_pos returned, if_pos took3]
    obtain ⟨otp, bytes, cells⟩ := enterReset_wiped u3
    exact ⟨burns _ _ wiped (congrArg Otp.fields otp), fun _ => ⟨bytes, cells⟩⟩
  · rw [if_neg returned]
    by_cases scrapped : f + 1 = 4
    · rw [if_pos scrapped, if_pos took4]
      have closed : LeavesWiped (wipeSecrets (wipeAllOtp u4)) w4 := closeDebug_leaves _
      have field4 : w4.lcs.otp.fields = u4.lcs.otp.fields := closed.fields.trans ((wipeSecrets_fields _).trans (wipeAllOtp_fields _))
      have wf4 : Tab.wf 0 w4.lcs.otp.fields = true := by
        rw [field4, burnLc_fields, finishField_fields (congrArg Otp.fields stopped)]
        exact (Laws.otp_finishField wf f).1
      have bytes4 : w4.mem.bytes = [] := closed.bytes
      have cells4 : w4.fab.cells = [] := closed.cells
      clear_value w4
      obtain ⟨life, bytes, cells⟩ := scrap_wiped wf4 bytes4 cells4
      exact ⟨life.trans (burns w4 _ (congrArg Otp.fields stopped) field4), fun _ => ⟨bytes, cells⟩⟩
    · rw [if_neg scrapped, took2]
      exact ⟨burns _ _ (congrArg Otp.fields start) (transitionEnds_leaves u2).fields, fun high => by omega⟩

/-- A request on a path of R634 whose preconditions hold: noted, and performed or deferred. -/
theorem lcsRequest_accepted {path : LcsPath} {target : Nat} {b : Burn} (idle : s.lcs.transition = false) (stage : s.mgt.stage = .complete)
    (ok : pathOk (lifeCycle s) target path s.dbg.openS = true) (ready : transitionReady s (lifeCycle s) target = true) :
    lcsRequest path target b s =
      let u := { s with lcs := { s.lcs with target := target, transition := true } }
      if s.mgt.unavail then { u with lcs := { u.lcs with deferTo := some (target, b) } }
      else if inputLow s then { u with lcs := { u.lcs with deferTo := some (target, b), deferred := true } }
      else refresh (performTransition target b u) := by
  unfold lcsRequest
  dsimp only
  rw [if_neg (by simp [idle, stage, ok, ready])]
  rfl

/-- A request off the paths of R634 is refused (R635). -/
theorem lcsRequest_denied {path : LcsPath} {target : Nat} {b : Burn} (bars : s.lcs.transition = true ∨ s.mgt.stage ≠ .complete ∨
    pathOk (lifeCycle s) target path s.dbg.openS = false ∨ transitionReady s (lifeCycle s) target = false) :
    lcsRequest path target b s = refuseWrite 3 { s with lcs := { s.lcs with target := target, status := .denied } } := by
  unfold lcsRequest
  dsimp only
  rw [if_pos (by rcases bars with h | h | h | h <;> simp [h])]

/-- A burn that is performed: what was asked, a fault where it falls short, and the end of a mailbox command (R633). -/
theorem otpPerform_burns {path : LcsPath} {f : Nat} {v : List Byte} {b : Burn} (groups : Groups s) (calm : Calm 3 s) :
    let r := otpBurn f (leNat v) b s.lcs.otp
    let t := otpPerform path f v b s
    t.lcs.otp = r.2 ∧ (r.1 = false → FaultSet 3 2 t) ∧ t.mem = s.mem ∧ (path = .bar0 → Ended s.mgt.curTag (if r.1 then .ok else .aborted) t) := by
  have rises : Groups (burnValue f v b s) := groups
  have quiet : Calm 3 (burnValue f v b s) := calm
  unfold otpPerform
  dsimp only
  by_cases ok : (otpBurn f (leNat v) b s.lcs.otp).1 = true
  · rw [if_pos ok, if_pos ok]
    have ends : (otpEnds path .ok (burnValue f v b s)).lcs = (burnValue f v b s).lcs ∧ (otpEnds path .ok (burnValue f v b s)).mem = s.mem := by
      cases path <;> exact ⟨rfl, rfl⟩
    refine ⟨congrArg Lcs.otp ends.1, fun short => absurd ok (by simp [short]), ends.2, fun bar => ?_⟩
    subst bar
    exact ended_mbEnd rfl
  · rw [if_neg ok, if_neg ok]
    have set : FaultSet 3 2 (raise 3 2 0 (burnValue f v b s)) := Laws.raise_sets rises (by decide)
    have lcs := Laws.raise_calm_lcs (bit := 2) (unit := 0) rises quiet
    have mem := Laws.raise_calm_mem (bit := 2) (unit := 0) rises quiet
    have mgt := Laws.raise_calm_mgt (bit := 2) (unit := 0) rises quiet
    generalize raise 3 2 0 (burnValue f v b s) = u at set lcs mem mgt ⊢
    have ends : (otpEnds path .aborted u).lcs = u.lcs ∧ (otpEnds path .aborted u).mem = u.mem ∧ (otpEnds path .aborted u).flt = u.flt := by
      cases path <;> exact ⟨rfl, rfl, rfl⟩
    refine ⟨congrArg Lcs.otp (ends.1.trans lcs), fun _ => faultSet_keeps (congrArg Flt.groups ends.2.2) set, ends.2.1.trans mem, fun bar => ?_⟩
    subst bar
    exact ended_mbEnd (congrArg Mgt.curTag mgt)

theorem fields_of_canon (canon : Canon s) : Tab.wf 0 s.lcs.otp.fields = true := by
  obtain ⟨-, -, -, -, -, -, -, -, -, -, -, fields, -⟩ := canon
  exact fields

end Sys2Proof.Machine

namespace Sys2Proof.Proofs
open Sys2Proof Sys2Proof.Machine Sys2Proof.Safety

/-- Settles O52. -/
theorem lifeCycleRequests : Obligations.LifeCycleRequests := by
  unfold Obligations.LifeCycleRequests
  refine ⟨fun path target b s canon idle stage ok ready => ⟨fun here high => ?_, fun away => ?_, fun here low => ?_⟩, fun path target b s canon calm bars => ?_,
    fun tag f v b s canon => ⟨fun denied => ?_, fun allowed here high calm => ?_, fun allowed waits => ?_⟩,
    fun tag f v b s canon free runs room => ⟨fun denied => ?_, fun allowed high calm => ?_, fun allowed low => ?_⟩⟩
  · obtain ⟨rises, top⟩ := pathOk_rises ok
    have fields : Tab.wf 0 s.lcs.otp.fields = true := fields_of_canon canon
    have wf : Tab.wf 0 ({ s with lcs := { s.lcs with target := target.toNat, transition := true } } : State).lcs.otp.fields = true := fields
    obtain ⟨life, wiped⟩ := performTransition_full wf rises top
    refine ⟨lcsRequest path target.toNat .full s, rfl, ?_⟩
    rw [lcsRequest_accepted idle stage ok ready]
    dsimp only
    rw [if_neg (by simp [here]), if_neg (by simp [high]), refresh_mem, refresh_fab]
    exact ⟨(lifeCycle_of_fields (congrArg (fun l : Lcs => l.otp.fields) (refresh_lcs _))).trans life, wiped⟩
  · refine ⟨lcsRequest path target.toNat b s, rfl, ?_⟩
    rw [lcsRequest_accepted idle stage ok ready]
    dsimp only
    rw [if_pos away]
    exact ⟨rfl, rfl, rfl, rfl⟩
  · refine ⟨lcsRequest path target.toNat b s, rfl, ?_⟩
    rw [lcsRequest_accepted idle stage ok ready]
    dsimp only
    rw [if_neg (by simp [here]), if_pos low]
    exact ⟨rfl, rfl, rfl, rfl, rfl⟩
  · have groups : Groups { s with lcs := { s.lcs with target := target.toNat, status := .denied } } := groups_of_canon canon
    have quiet : Calm 3 { s with lcs := { s.lcs with target := target.toNat, status := .denied } } := calm
    refine ⟨lcsRequest path target.toNat b s, rfl, ?_⟩
    rw [lcsRequest_denied bars]
    unfold refuseWrite
    have lcs := Laws.raise_calm_lcs (bit := 0) (unit := noUnit) groups quiet
    exact ⟨Laws.raise_sets groups (by decide), (congrArg Lcs.status lcs).trans rfl, (congrArg Lcs.otp lcs).trans rfl, Laws.raise_calm_mem groups quiet⟩
  · refine congrArg Host.Outcome.next ?_
    show otpProgram .tap f v b s = s
    exact if_pos denied
  · refine ⟨otpProgram .tap f v b s, rfl, ?_⟩
    have performs : otpProgram .tap f v b s = otpPerform .tap f v b s := by
      unfold otpProgram
      rw [if_neg (by simp [allowed]), if_neg (by simp [here, high])]
    obtain ⟨otp, short, mem, -⟩ := otpPerform_burns (path := .tap) (f := f) (v := v) (b := b) (groups_of_canon canon) calm
    rw [performs]
    exact ⟨otp, short, mem⟩
  · refine congrArg Host.Outcome.next ?_
    show otpProgram .tap f v b s = _
    unfold otpProgram
    rw [if_neg (by simp [allowed]), if_pos (by rcases waits with h | h <;> simp [h])]
  all_goals
    have runs' : (running tag s).host.dmaStopped = false := runs
    have room' : (freeWindow (running tag s)).isSome = true := room
    obtain ⟨u, ⟨hwt, out, drawn, differs⟩, asks⟩ := fetchArg_of_window (iova := mbArg64 s 1) (n := mbArg s 3) runs' room'
    have asks' : fetchArg (mbArg64 (running tag s) 1) (mbArg (running tag s) 3) (running tag s) = some u := asks
    have args : mbArg u 0 = mbArg s 0 ∧ mbArg u 3 = mbArg s 3 := by
      rw [differs]
      exact ⟨rfl, rfl⟩
    have programs : exec (.otpProgram .bar0 tag f v b) s = .next (otpProgram .bar0 (mbArg s 0 % 4) (v.take (mbArg s 3)) b u) := by
      refine congrArg Host.Outcome.next ((mbCommand_of_free free).trans ?_)
      unfold otpProgramBar0
      rw [asks', ← args.1, ← args.2]
    obtain ⟨-, here, -⟩ := free
    generalize mbArg s 0 % 4 = f at *
    generalize v.take (mbArg s 3) = w at *
    refine ⟨_, programs, ?_⟩
    have lcs : u.lcs = s.lcs := by rw [differs]; rfl
    have tagged : u.mgt.curTag = tag ∧ u.mgt.busy = true := by rw [differs]; exact ⟨rfl, rfl⟩
    have here' : u.mgt.unavail = false := by rw [differs]; exact here
    have low' : inputLow u = inputLow s := by rw [differs]; rfl
    have denies : otpDenied u f w = otpDenied s f w := by rw [differs]; rfl
  · have ends : otpProgram .bar0 f w b u = otpEnds .bar0 .denied u := if_pos (denies.trans denied)
    rw [ends]
    exact ⟨ended_mbEnd tagged.1, congrArg Lcs.otp lcs⟩
  · have performs : otpProgram .bar0 f w b u = otpPerform .bar0 f w b u := by
      unfold otpProgram
      rw [denies, low', here', if_neg (by simp [allowed]), if_neg (by simp [high])]
    have flt : u.flt = s.flt := by rw [differs]; rfl
    obtain ⟨otp, short, -, ended⟩ := otpPerform_burns (path := .bar0) (f := f) (v := w) (b := b) (groups_of_flt flt (groups_of_canon canon)) (calm_keeps flt calm)
    rw [performs]
    rw [lcs] at otp short ended
    rw [tagged.1] at ended
    exact ⟨ended rfl, otp, short⟩
  · have waits : otpProgram .bar0 f w b u = { u with lcs := { u.lcs with otpLater := some (.bar0, f, w, b), deferred := u.lcs.deferred || inputLow u } } := by
      unfold otpProgram
      rw [denies, low', here', if_neg (by simp [allowed]), if_pos (by simp [low])]
    rw [waits]
    exact ⟨tagged.2, rfl, by simp [low', low], (congrArg Lcs.otp lcs :)⟩

end Sys2Proof.Proofs
end

section
/-! SUPPORT. The SPDM responder and seal sessions. -/
namespace Sys2Proof.Machine
open Sys2Proof Sys2Proof.Safety

variable {s : State} {tr v : Nat} {req : List Byte} {x : Seal}

/-! ### The responder (R610 to R612) -/

theorem spdmAfter_negotiated {f : State → State} (up : spdmUp s = true) (algs : (s.spdm tr).algs = true) : spdmAfter tr req f s = f s := by
  unfold spdmAfter
  rw [if_neg (by simp [up]), if_pos algs]

theorem spdmAfter_early {f : State → State} (up : spdmUp s = true) (early : (s.spdm tr).algs = false) : spdmAfter tr req f s = spdmError tr req s := by
  unfold spdmAfter
  rw [if_neg (by simp [up]), if_neg (by simp [early])]

/-- GET_MEASUREMENTS of 0 answers how many blocks there are. -/
theorem spdmMeasurements_count (zero : spdmParam req 2 = 0) (unsigned : spdmParam req 1 % 2 = 0) :
    spdmMeasurements tr req s = spdmSend tr 0x60 req [BitVec.ofNat 8 s.sec.meas.length] s := by
  unfold spdmMeasurements
  dsimp only
  rw [if_pos zero]
  dsimp only
  rw [if_neg (by omega), List.length_map]

theorem spdmMeasurements_all (all : spdmParam req 2 = 255) (signed : spdmParam req 1 % 2 = 1) :
    spdmMeasurements tr req s = spdmSigned tr 0x60 req (s.sec.meas.map (fun b => Config.measBlock b.1 b.2)).flatten s := by
  unfold spdmMeasurements
  dsimp only
  rw [if_neg (by omega), if_pos all]
  dsimp only
  rw [if_pos signed]

theorem spdmMeasurements_one {b : Nat × List Byte} (block : spdmParam req 2 ≠ 0) (one : spdmParam req 2 ≠ 255)
    (found : s.sec.meas.find? (fun b => b.1 == spdmParam req 2) = some b) (signed : spdmParam req 1 % 2 = 1) :
    spdmMeasurements tr req s = spdmSigned tr 0x60 req (Config.measBlock b.1 b.2) s := by
  unfold spdmMeasurements
  dsimp only
  rw [if_neg block, if_neg one, found]
  exact if_pos signed

/-! ### Seal sessions (R593 to R607) -/

theorem endAtElem_shape (e k : Nat) (st : Status) (s : State) : ∃ xfes, endAtElem e k st s = { s with xfes := xfes } := by
  unfold endAtElem
  dsimp only
  split
  · exact ⟨s.xfes, rfl⟩
  · refine Laws.ite_cases (P := fun t => ∃ xfes, t = { s with xfes := xfes }) (fun _ => ⟨_, rfl⟩) fun _ => ?_
    exact Laws.ite_cases (P := fun t => ∃ xfes, t = { s with xfes := xfes }) (fun _ => ⟨_, rfl⟩) fun _ => ⟨s.xfes, rfl⟩

theorem endEarly_shape (e : Nat) (st : Status) (s : State) : ∃ xfes, endEarly e st s = { s with xfes := xfes } := by
  unfold endEarly
  split
  · exact ⟨s.xfes, rfl⟩
  · exact endAtElem_shape _ _ _ s

/-- The transfers that use a key slot are cut: engines change alone. -/
theorem abortSlot_shape (v : Nat) (s : State) : ∃ xfes, abortSlot v s = { s with xfes := xfes } := by
  unfold abortSlot
  generalize slotUsers s v = l
  induction l generalizing s with
  | nil => exact ⟨s.xfes, rfl⟩
  | cons e l ih =>
    obtain ⟨_, first⟩ := endEarly_shape e .aborted s
    obtain ⟨xfes, rest⟩ := ih (endEarly e .aborted s)
    refine ⟨xfes, rest.trans ?_⟩
    rw [first]

/-- A seal session after its end: the key stays in its slot until it is wiped (R605, R607). -/
def endedSeal (reason : Nat) (x : Seal) : Seal :=
  { x with state := .none, result := if x.state == .busy then .aborted else x.result, endReason := reason, qh := 0, nh := 0, meas := 0, sig := 0,
           wiping := x.key.isSome }

theorem endSession_seals (stands : (s.sealOf v).state ≠ .none) (reason : Nat) :
    (endSession v reason s).sec.seals = Tab.set {} s.sec.seals v (endedSeal reason (s.sealOf v)) := by
  unfold endSession
  dsimp only
  rw [if_neg (by simpa using stands)]
  have zeroed (p : Nat) (u : State) : (zeroCols p u).sec = u.sec := by
    obtain ⟨fab, e⟩ := zeroCols_shape p u
    rw [e]
  by_cases spare : reason = 1 ∨ reason = 7
  · rw [if_pos spare, if_neg (by omega)]
    rfl
  · rw [if_neg spare]
    by_cases wiped : reason = 4 ∨ reason = 5
    · rw [if_pos wiped]
      split
      · rw [zeroed]
        rfl
      · rfl
    · rw [if_neg wiped]
      rfl

theorem endSession_flt (v reason : Nat) (s : State) : (endSession v reason s).flt = s.flt := by
  have zeroed (p : Nat) (u : State) : (zeroCols p u).flt = u.flt := by
    obtain ⟨fab, e⟩ := zeroCols_shape p u
    rw [e]
  unfold endSession
  dsimp only
  refine Laws.ite_cases (P := fun t : State => t.flt = s.flt) (fun _ => rfl) fun _ => ?_
  have told (p : Prop) [Decidable p] (a b : State) (first : a.flt = s.flt) (second : b.flt = s.flt) : (if p then a else b).flt = s.flt := by
    split
    · exact first
    · exact second
  refine told _ _ _ ?_ ?_
  · split
    · exact (zeroed _ _).trans (told _ _ _ rfl rfl)
    · exact told _ _ _ rfl rfl
  · exact told _ _ _ rfl rfl

theorem endSession_ends (wf : Tab.wf {} s.sec.seals = true) (stands : (s.sealOf v).state ≠ .none) (reason : Nat) :
    SealEnded v reason s (endSession v reason s) := by
  have is : (endSession v reason s).sealOf v = endedSeal reason (s.sealOf v) := by
    unfold State.sealOf
    rw [endSession_seals stands]
    exact Tab.get_set_same wf v _
  unfold SealEnded
  rw [is]
  exact ⟨rfl, rfl, rfl, rfl⟩

/-- The end of a session that another state shares its key slots with. -/
theorem sealEnded_of_seals {u t : State} {reason : Nat} (same : u.sec.seals = s.sec.seals) (ended : SealEnded v reason u t) : SealEnded v reason s t := by
  unfold SealEnded State.sealOf at *
  rw [same] at ended
  exact ended

theorem sealEnded_keeps {u t : State} {reason : Nat} (same : u.sec.seals = t.sec.seals) (ended : SealEnded v reason s t) : SealEnded v reason s u := by
  unfold SealEnded State.sealOf at *
  rw [same]
  exact ended

/-- An OPEN that does not open leaves no handshake, shows its status, and raises SEAL (R594). -/
theorem openEnds_shows (st : Status) (h : Tab.Holds {} s.sec.seals v x) (vi : Tab.Holds {} s.vis v (s.vi v)) :
    (openEnds v st s).sealOf v = { x with result := st, state := if x.state == .busy then .none else x.state } ∧
      ((openEnds v st s).vi v).intPend.getLsbD 4 = true := by
  have is : s.sealOf v = x := h.get
  have told := (congrArg Vi.intPend (vi.upd (fun w => { w with intPend := w.intPend ||| 16#5 })).get).trans rfl
  unfold openEnds
  dsimp only
  rw [is, refresh_sealOf, refresh_vi]
  refine ⟨(h.set _).get, ?_⟩
  refine (congrArg (fun p : BitVec 5 => p.getLsbD 4) told).trans ?_
  simp

/-- A wipe takes the key out of its slot (R607). -/
theorem wipeSlot_empties (h : Tab.Holds {} s.sec.seals v x) (wiping : x.wiping = true) :
    ((wipeSlot v s).sealOf v).key = none ∧ ((wipeSlot v s).sealOf v).wiping = false := by
  have is : s.sealOf v = x := h.get
  obtain ⟨xfes, e⟩ := abortSlot_shape v s
  have wipes : wipeSlot v s = (abortSlot v s).setSeal v { (abortSlot v s).sealOf v with wiping := false, key := none } := by
    unfold wipeSlot
    rw [is, if_pos wiping]
  have wf : Tab.wf {} (abortSlot v s).sec.seals = true := by
    rw [e]
    exact h.wf
  rw [wipes, State.sealOf_setSeal wf]
  exact ⟨rfl, rfl⟩

/-- A fault of the key slot cuts the transfers that use it and ends the session with reason FAULT (R605, R617). -/
theorem keyFault_ends (groups : Groups s) (calm : Calm 4 s) (wf : Tab.wf {} s.sec.seals = true) (stands : (s.sealOf v).state ≠ .none) :
    SealEnded v 6 s (keyFault v s) ∧ FaultSet 4 2 (keyFault v s) := by
  have raised : (raise 4 2 v s).sec = s.sec := Laws.raise_calm_sec groups calm
  have set : FaultSet 4 2 (raise 4 2 v s) := Laws.raise_sets groups (by decide)
  unfold keyFault
  generalize raise 4 2 v s = u at raised set ⊢
  obtain ⟨xfes, e⟩ := abortSlot_shape v u
  have same : (abortSlot v u).sec.seals = s.sec.seals := by
    rw [e]
    exact congrArg Sec.seals raised
  have flt : (abortSlot v u).flt = u.flt := by rw [e]
  generalize abortSlot v u = w at same flt ⊢
  have stands' : (w.sealOf v).state ≠ .none := by
    unfold State.sealOf at *
    rw [same]
    exact stands
  have ended : SealEnded v 6 s (endSession v 6 w) := sealEnded_of_seals same (endSession_ends (by rw [same]; exact wf) stands' 6)
  exact ⟨sealEnded_keeps (congrArg Sec.seals (refresh_sec _)) ended,
    faultSet_keeps ((refresh_groups _).trans (congrArg Flt.groups ((endSession_flt v 6 w).trans flt))) set⟩

/-- The session that the completion of an OPEN opens (R595 to R603). -/
def openedSeal (v : Nat) (s : State) : Seal :=
  let x := { s.sealOf v with qh := Config.ephPub s.free, nh := Config.ephNonce s.free, meas := measDigest s }
  { x with sig := Config.idSign (transcript x v s.lcs.otp.serial), key := some (Config.sealKey s.free x.qt x.nt x.nh v s.lcs.otp.serial),
           state := .open_, result := .ok, count := x.count + 1, cmdSeq := 0, inSeq := 0, outSeq := 0 }

/-- The completion of an OPEN at an empty slot stores the opened session and tells the VI. -/
theorem sealOpenComplete_eq (busy : (s.sealOf v).state = .busy) (entropy : s.sec.entropyOk = true) (unwiped : (s.sealOf v).wiping = false) :
    sealOpenComplete v s =
      refresh (({ s with free := s.free + 1 }.setSeal v (openedSeal v s)).modVi v (fun w => { w with intPend := w.intPend ||| 16#5 })) := by
  have kept : wipeSlot v s = s := if_neg (by simp [unwiped])
  unfold sealOpenComplete
  rw [if_neg (by simp [busy]), if_neg (by simp [entropy]), kept]
  rfl

/-- It puts a key into the slot and starts every sequence number at 0. -/
theorem sealOpenComplete_opens (h : Tab.Holds {} s.sec.seals v x) (vi : Tab.Holds {} s.vis v (s.vi v)) (busy : x.state = .busy)
    (entropy : s.sec.entropyOk = true) (unwiped : x.wiping = false) :
    ∃ k, let y := (sealOpenComplete v s).sealOf v
      y.state = .open_ ∧ y.key = some k ∧ y.result = .ok ∧ y.count = x.count + 1 ∧ y.cmdSeq = 0 ∧ y.inSeq = 0 ∧ y.outSeq = 0 ∧
        ((sealOpenComplete v s).vi v).intPend.getLsbD 4 = true := by
  have is : s.sealOf v = x := h.get
  have shown : (sealOpenComplete v s).sealOf v = openedSeal v s := by
    rw [sealOpenComplete_eq (by rw [is, busy]) entropy (by rw [is, unwiped]), refresh_sealOf]
    exact (h.set (openedSeal v s)).get
  have told : ((sealOpenComplete v s).vi v).intPend = (s.vi v).intPend ||| 16#5 := by
    rw [sealOpenComplete_eq (by rw [is, busy]) entropy (by rw [is, unwiped]), refresh_vi]
    exact (congrArg Vi.intPend (vi.upd (fun w => { w with intPend := w.intPend ||| 16#5 })).get).trans rfl
  rw [shown, told, ← is]
  exact ⟨_, rfl, rfl, rfl, rfl, rfl, rfl, rfl, by simp⟩

end Sys2Proof.Machine

namespace Sys2Proof.Proofs
open Sys2Proof Sys2Proof.Machine Sys2Proof.Safety

/-- Settles O51: each SPDM request reduces to its guard, and each event of a seal session to the rule of its operation above. -/
theorem spdmAndSeals : Obligations.SpdmAndSeals := by
  unfold Obligations.SpdmAndSeals
  refine ⟨fun tr req s => ⟨fun up => ⟨?_, fun version => ?_, fun early => ?_, fun caps => ?_, fun early => ?_, fun algs => ?_, fun early => ?_⟩, fun down => ?_⟩,
    fun v s canon => ?_⟩
  · exact congrArg Host.Outcome.next (if_pos up)
  · refine congrArg Host.Outcome.next ?_
    show spdmGetCapabilities tr.val req s = _
    unfold spdmGetCapabilities
    rw [if_neg (by simp [up]), if_pos version]
  · refine congrArg Host.Outcome.next ?_
    show spdmGetCapabilities tr.val req s = _
    unfold spdmGetCapabilities
    rw [if_neg (by simp [up]), if_neg (by simp [early])]
  · refine congrArg Host.Outcome.next ?_
    show spdmNegotiate tr.val req s = _
    unfold spdmNegotiate
    rw [if_neg (by simp [up]), if_pos caps]
  · refine congrArg Host.Outcome.next ?_
    show spdmNegotiate tr.val req s = _
    unfold spdmNegotiate
    rw [if_neg (by simp [up]), if_neg (by simp [early])]
  · have runs (f : State → State) : Host.Outcome.next (spdmAfter tr.val req f s) = (.next (f s) : Host.Outcome State Fault Refusal) :=
      congrArg Host.Outcome.next (spdmAfter_negotiated up algs)
    refine ⟨runs _, fun slot => (runs _).trans (congrArg _ (if_neg (by omega))), fun slot => (runs _).trans (congrArg _ (if_neg (by omega))),
      fun other => ⟨(runs _).trans (congrArg _ (if_pos other)), (runs _).trans (congrArg _ (if_pos other))⟩, fun zero unsigned => ?_, fun all signed => ?_,
      fun b some one found signed => ?_⟩
    · exact (runs _).trans (congrArg _ (spdmMeasurements_count zero unsigned))
    · exact (runs _).trans (congrArg _ (spdmMeasurements_all all signed))
    · exact (runs _).trans (congrArg _ (spdmMeasurements_one some one found signed))
  · have fails (f : State → State) : Host.Outcome.next (spdmAfter tr.val req f s) = (.next (spdmError tr.val req s) : Host.Outcome State Fault Refusal) :=
      congrArg Host.Outcome.next (spdmAfter_early up early)
    exact ⟨fails _, fails _, fails _, fails _⟩
  · exact ⟨congrArg Host.Outcome.next (if_neg (by simp [down])), congrArg Host.Outcome.next (if_pos (by simp [down]))⟩
  · have groups := groups_of_canon canon
    obtain ⟨-, -, -, -, -, -, vis, -, -, -, seals, -⟩ := canon
    intro x
    have own : Tab.Holds {} s.sec.seals v.val x := ⟨seals, rfl⟩
    have vi : Tab.Holds {} s.vis v.val (s.vi v.val) := ⟨vis, rfl⟩
    refine ⟨fun none attached sealed entropy => ?_, fun none bars => ?_, fun busy entropy unwiped => ?_, fun stands => ⟨?_, fun other => ?_, fun calm => ?_⟩,
      fun host calm => ?_, fun wiping => ?_, fun calm => ?_⟩
    · refine ⟨sealOpenStart v.val s, rfl, ?_⟩
      by_cases opens : (Config.onCurve x.qt && !scanHeld s) = true
      · obtain ⟨curve, unscanned⟩ := (Bool.and_eq_true _ _).mp opens
        rw [if_pos opens]
        have starts : sealOpenStart v.val s = s.setSeal v.val { x with state := .busy } := by
          unfold sealOpenStart
          dsimp only
          rw [if_neg (by simp [x, none]), if_neg (by simp [x, attached, sealed, curve, by simpa using unscanned]), if_neg (by simp [entropy])]
        rw [starts]
        exact State.sealOf_setSeal seals v.val _
      · rw [if_neg opens]
        obtain ⟨is, told⟩ := openEnds_shows .denied own vi
        have ends : sealOpenStart v.val s = openEnds v.val .denied s := by
          unfold sealOpenStart
          dsimp only
          rw [if_neg (by simp [x, none]), if_pos ?_]
          by_cases curve : Config.onCurve x.qt = true
          · have held : scanHeld s = true := by simpa [curve] using opens
            simp [held]
          · simp [x, curve]
        rw [ends, is]
        exact ⟨by simp [none], rfl, told⟩
    · refine ⟨sealOpenStart v.val s, rfl, ?_⟩
      obtain ⟨is, -⟩ := openEnds_shows .denied own vi
      have ends : sealOpenStart v.val s = openEnds v.val .denied s := by
        unfold sealOpenStart
        dsimp only
        rw [if_neg (by simp [x, none]), if_pos ?_]
        rcases bars with away | plain
        · simp [away]
        · rw [plain]
          simp
      rw [ends, is]
      exact ⟨by simp [none], rfl⟩
    · obtain ⟨k, shown⟩ := sealOpenComplete_opens own vi busy entropy unwiped
      exact ⟨sealOpenComplete v.val s, k, rfl, shown⟩
    · exact ⟨refresh (endSession v.val 1 s), rfl, sealEnded_keeps (congrArg Sec.seals (refresh_sec _)) (endSession_ends seals (by simp [x, stands]) 1)⟩
    · exact ⟨refresh (endSession v.val 2 s), congrArg Host.Outcome.next (if_neg other),
        sealEnded_keeps (congrArg Sec.seals (refresh_sec _)) (endSession_ends seals (by simp [x, stands]) 2)⟩
    · obtain ⟨ended, set⟩ := keyFault_ends (v := v.val) groups calm seals (by simp [x, stands])
      exact ⟨keyFault v.val s, rfl, ended, set⟩
    · refine ⟨refuseWrite 4 s, congrArg Host.Outcome.next (if_pos host), Laws.raise_sets groups (by decide), Laws.raise_calm_sec groups calm⟩
    · refine ⟨refresh (wipeSlot v.val s), rfl, ?_⟩
      rw [refresh_sealOf]
      exact wipeSlot_empties own wiping
    · have rises : Groups { s with sec := { s.sec with entropyOk := false } } := groups
      have quiet : Calm 4 { s with sec := { s.sec with entropyOk := false } } := calm
      have sec := Laws.raise_calm_sec (bit := 1) (unit := 0) rises quiet
      exact ⟨_, rfl, Laws.raise_sets rises (by decide), (congrArg Sec.entropyOk sec).trans rfl, Laws.raise_calm_mem rises quiet⟩

end Sys2Proof.Proofs
end

section
/-! SUPPORT. Writes of the hub's own units through their translations: completion records. -/
namespace Sys2Proof.Machine
open Sys2Proof Sys2Proof.Safety

variable {s : State} {unit ctx dva pa : Nat} {bs : List Byte} {poison : Bool}

theorem bufFill_shape (unit : Nat) (e : XlEntry) (s : State) : ∃ xlt, bufFill unit e s = { s with xlt := xlt } := by
  unfold bufFill
  split
  · exact ⟨s.xlt, rfl⟩
  · exact ⟨_, rfl⟩

/-- Noting a translation changes the translation caches and their counters alone. -/
theorem noteXlat_shape (unit ctx dva : Nat) (s : State) : ∃ xlt, noteXlat unit ctx dva s = { s with xlt := xlt } := by
  unfold noteXlat
  split
  · exact ⟨s.xlt, rfl⟩
  · split
    · next e _ =>
      obtain ⟨xlt, filled⟩ := bufFill_shape unit e { s with xlt := { s.xlt with l2Hits := satInc s.xlt.l2Hits } }
      exact ⟨xlt, filled⟩
    · extract_lets old missed
      split
      · next e _ =>
        obtain ⟨xlt, filled⟩ := bufFill_shape unit e missed
        unfold xlFill
        rw [filled]
        exact ⟨_, rfl⟩
      · exact ⟨_, rfl⟩

/-- Counting a scheduled access of this tick changes its port's counters alone. -/
theorem countAccess_shape (unit len : Nat) (write : Bool) (s : State) :
    ∃ ports, countAccess unit len write s = { s with noc := { s.noc with qports := ports } } := by
  unfold countAccess
  split
  · exact ⟨s.noc.qports, rfl⟩
  · unfold completeStats
    dsimp only
    rw [if_neg (by simp), if_neg (by simp)]
    exact ⟨_, rfl⟩

/-- A write at a granule that lets it pass stores its bytes. -/
theorem writePiece_stores {g : Nat} (at_ : translate s unit ctx dva true = .ok pa) (passes : memCheck s pa ctx = .pass g)
    (plain : coherent s pa = false) :
    ∃ xlt noc, (writePiece unit ctx dva bs poison s).2 = { memPut s g pa bs poison with xlt := xlt, noc := noc } := by
  obtain ⟨xlt, noted⟩ := noteXlat_shape unit ctx dva s
  obtain ⟨ports, counted⟩ := countAccess_shape unit bs.length true { s with xlt := xlt }
  have passes' : memCheck { s with xlt := xlt, noc := { s.noc with qports := ports } } pa ctx = .pass g := passes
  have plain' : coherent { s with xlt := xlt } pa = false := plain
  unfold writePiece
  dsimp only
  rw [at_, noted]
  dsimp only
  rw [if_neg (by simp [plain']), counted]
  dsimp only
  rw [passes']
  exact ⟨xlt, { s.noc with qports := ports }, rfl⟩

/-- A write at a coherent line goes to its home as a posted write. -/
theorem writePiece_posts (at_ : translate s unit ctx dva true = .ok pa) (home : coherent s pa = true) :
    ∃ xlt q, (writePiece unit ctx dva bs poison s).2 = { s with xlt := xlt, noc := { s.noc with nextTag := s.noc.nextTag + 1, reqs := s.noc.reqs ++ [q] } } ∧
      q.write = true ∧ q.addr = pa ∧ q.ctx = ctx ∧ q.data = bs := by
  obtain ⟨xlt, noted⟩ := noteXlat_shape unit ctx dva s
  have home' : coherent { s with xlt := xlt } pa = true := home
  unfold writePiece
  dsimp only
  rw [at_, noted]
  dsimp only
  rw [if_pos home']
  exact ⟨xlt, _, rfl, rfl, rfl, rfl, rfl⟩

/-- One line at its own address is one piece. -/
theorem pieces_line (aligned : dva % 64 = 0) : pieces dva 64 = [(dva, 64)] := by
  have lines : linesOf dva 64 = [dva / 64] := by
    unfold linesOf
    rw [if_neg (by omega), show (dva + 64 - 1) / 64 - dva / 64 + 1 = 1 by omega]
    simp
  unfold pieces
  rw [lines]
  simp only [List.map_cons, List.map_nil, List.cons.injEq, Prod.mk.injEq, and_true]
  omega

/-- A record of one line is written in one piece. -/
theorem dvaWrite_line (aligned : dva % 64 = 0) (line : bs.length = 64) (s : State) :
    (dvaWrite unit ctx dva bs poison s).2 = (writePiece unit ctx dva bs poison s).2 := by
  unfold dvaWrite
  rw [line, pieces_line aligned]
  simp [line, List.take_of_length_le]

end Sys2Proof.Machine
end

section
/-! SUPPORT. The life of a descriptor at a transfer engine. -/
namespace Sys2Proof.Machine
open Sys2Proof Sys2Proof.Safety

variable {s : State} {e : Nat} {x : Xfe} {c : XCur} {st : Status}

/-- After the last queued descriptor the engine is idle. -/
theorem nextDesc_idle (h : Tab.Holds {} s.xfes e x) (last : x.queue = []) (calm : x.fencePend = false) :
    nextDesc e s = s.setXfe e { x with run := .idle, cur := none } := by
  have is : s.xfe e = x := h.get
  unfold nextDesc
  simp only [is, last]
  rw [if_neg (by simp [calm])]

/-- What the engine shows of a descriptor that ended (R302). -/
def shownEnd (c : XCur) (st : Status) (x : Xfe) : Xfe :=
  { x with lastStat := st, lastFlags := BitVec.ofNat 8 c.flags, lastDesc := BitVec.ofNat 16 c.desc.src.index,
           cursor := c.endCursor st, failedN := BitVec.ofNat 32 c.failed.length,
           unresolved := if st == .faulted then satInc x.unresolved else x.unresolved }

/-- The taint of an owner's next ARRIVE. -/
def taintOwner (owner : Option Nat) (s : State) : State :=
  match owner with
  | some p => markFlag p 1 s
  | none => s

theorem taintOwner_shape (owner : Option Nat) (s : State) : ∃ parts, taintOwner owner s = { s with parts := parts } := by
  cases owner with
  | none => exact ⟨s.parts, rfl⟩
  | some p => exact ⟨_, rfl⟩

/-- The faults and the taint of a descriptor that ended (R313, R315). -/
def endFaults (e : Nat) (c : XCur) (st : Status) (owner : Option Nat) (s : State) : State :=
  let s := if st == .faulted then raise 12 2 e s else s
  if c.failed.isEmpty then s else taintOwner owner (raise 12 3 e s)

/-- A descriptor of the pool ends: what it shows, its faults, and the next one. -/
theorem finishDesc_pool (pool : FromPool c.desc) (h : Tab.Holds {} s.xfes e x) :
    finishDesc e c st s = traceAt e x.owner (nextDesc e (endFaults e c st x.owner (s.setXfe e (shownEnd c st x)))) := by
  have is : s.xfe e = x := h.get
  obtain ⟨p, k, i, src⟩ := pool
  unfold finishDesc endFaults shownEnd
  rw [is, src]
  dsimp only
  split <;> rfl

/-- What stands after the last descriptor of an engine ended, whatever faults it raised. -/
theorem finishDesc_last {t : State} (pool : FromPool c.desc) (h : Tab.Holds {} s.xfes e x) (last : x.queue = []) (calm : x.fencePend = false)
    (faults : endFaults e c st x.owner (s.setXfe e (shownEnd c st x)) = t) (kept : t.xfes = (s.setXfe e (shownEnd c st x)).xfes) :
    ∃ xfes trc free, finishDesc e c st s = { t with xfes := xfes, trc := trc, free := free } ∧
      Tab.Holds {} xfes e { shownEnd c st x with run := .idle, cur := none } := by
  have shown : Tab.Holds {} t.xfes e (shownEnd c st x) := (h.set (shownEnd c st x)).keeps kept
  obtain ⟨trc, free, traced⟩ := traceAt_shape e x.owner (t.setXfe e { shownEnd c st x with run := .idle, cur := none })
  rw [finishDesc_pool pool h, faults, nextDesc_idle shown last calm, traced]
  exact ⟨_, trc, free, rfl, shown.set _⟩

/-- A descriptor that ended with neither a page fault nor a failed segment raises nothing. -/
theorem endFaults_none (fine : st ≠ .faulted) (whole : c.failed = []) (owner : Option Nat) (s : State) : endFaults e c st owner s = s := by
  unfold endFaults
  simp [fine, whole]

/-- A descriptor that ended FAULTED raises UNRESOLVED. -/
theorem endFaults_faulted (whole : c.failed = []) (owner : Option Nat) (s : State) : endFaults e c .faulted owner s = raise 12 2 e s := by
  unfold endFaults
  simp [whole]

/-- A descriptor with failed segments raises WRITE_REFUSED and taints the partition's next ARRIVE. -/
theorem endFaults_refused (fine : st ≠ .faulted) (failed : c.failed ≠ []) (owner : Option Nat) (s : State) :
    endFaults e c st owner s = taintOwner owner (raise 12 3 e s) := by
  unfold endFaults
  simp [fine, failed]

/-- What a waiting descriptor's start turns on, once it is its turn and no error is injected (R301). -/
theorem xfeWaitSatisfied_turn (cur : (s.xfe e).cur = some c) (waits : (s.xfe e).run = .wait) (met : waitMet s c.desc = true)
    (turn : sealTurn s c.desc = true) (clean : (s.grp 12).inject = 0) :
    xfeWaitSatisfied e s =
      if c.desc.counts.any (· == 0) then finishDesc e c .empty s
      else if c.desc.hostSide && s.host.dmaStopped then
        taintOwner (s.xfe e).owner (endAtElem e 0 .aborted s)
      else if c.desc.sealed != ((s.sealOf c.desc.ctx).state == .open_) && c.desc.hostSide then endAtElem e 0 .denied s
      else pumpXfe e none (traceAt e (s.xfe e).owner (s.setXfe e { s.xfe e with run := .run, cur := some { c with drawBase := (s.xfe e).draw } })) := by
  have checked : checkEcc 12 7 true .clean s = (.clean, s) := by
    unfold checkEcc fireInject
    simp [clean]
  unfold xfeWaitSatisfied
  dsimp only
  rw [cur]
  dsimp only
  rw [if_neg (by simp [waits, met, turn]), checked]
  rfl

/-- A descriptor that has not begun to end stops at an element. -/
theorem endAtElem_ends (h : Tab.Holds {} s.xfes e x) (cur : x.cur = some c) (under : x.run = .wait ∨ x.run = .run ∨ x.run = .faultWait) (k : Nat) :
    endAtElem e k st s = s.setXfe e { x with run := .ending, pageWait := false, cur := some { cutAt k c with endAs := some st } } := by
  have is : s.xfe e = x := h.get
  unfold endAtElem
  rw [is]
  dsimp only
  rw [cur]
  dsimp only
  rw [if_pos (by rcases under with u | u | u <;> simp [u])]

/-- The end of an ending descriptor with nothing outstanding. -/
theorem xfeComplete_ends (cur : (s.xfe e).cur = some c) (ending : (s.xfe e).run = .ending) (units : c.units = []) (drain : c.drain = [])
    (as : c.endAs = some st) {t : State} (record : writeComp e c st s = some t) : xfeComplete e s = finishDesc e c st t := by
  unfold xfeComplete
  dsimp only
  rw [cur]
  dsimp only
  rw [if_neg (by simp [ending, units, drain]), as, Option.getD_some, record]

/-- The completion record of a descriptor that ended OK is one line. -/
theorem compRecord_line (step : Nat) : (compRecord e step c .ok).length = 64 := by
  have le (n v : Nat) : (leBytes n v).length = n := by
    induction n generalizing v with
    | zero => rfl
    | succ n ih => simp [leBytes, ih]
  unfold compRecord XCur.endCursor
  simp [le]

/-- The end of an engine's last descriptor where neither a fault nor a failed segment raises anything. -/
theorem finishDesc_quiet (pool : FromPool c.desc) (h : Tab.Holds {} s.xfes e x) (last : x.queue = []) (calm : x.fencePend = false)
    (fine : st ≠ .faulted) (whole : c.failed = []) :
    ∃ xfes trc free, finishDesc e c st s = { s with xfes := xfes, trc := trc, free := free } ∧
      Tab.Holds {} xfes e { shownEnd c st x with run := .idle, cur := none } := by
  obtain ⟨xfes, trc, free, ended, shown⟩ := finishDesc_last pool h last calm (endFaults_none fine whole x.owner _) (rfl : (s.setXfe e _).xfes = _)
  exact ⟨xfes, trc, free, ended, shown⟩

/-- A failed segment sets WRITE_REFUSED and taints the owner; the engines stay. -/
theorem endFaults_notes (groups : Groups s) (calm : Calm 12 s) (parts : Tab.wf {} s.parts = true) (fine : st ≠ .faulted) (failed : c.failed ≠ [])
    (owner : Option Nat) : let t := endFaults e c st owner s
    t.xfes = s.xfes ∧ FaultSet 12 3 t ∧ ∀ p, owner = some p → (t.part p).flags.getLsbD 1 = true := by
  rw [endFaults_refused fine failed]
  have set : FaultSet 12 3 (raise 12 3 e s) := Laws.raise_sets groups (by decide)
  have xfes := Laws.raise_calm_xfes (bit := 3) (unit := e) groups calm
  have wf : Tab.wf {} (raise 12 3 e s).parts = true := by rw [Laws.raise_calm_parts groups calm]; exact parts
  cases owner with
  | none => exact ⟨xfes, set, fun _ none => by cases none⟩
  | some p =>
    refine ⟨xfes, set, fun q same => ?_⟩
    cases same
    have flags : ((taintOwner (some p) (raise 12 3 e s)).part p).flags = putBit ((raise 12 3 e s).part p).flags 1 true :=
      congrArg Part.flags (Tab.get_set_same wf p _)
    rw [flags]
    exact Laws.putBit_same _ (by decide)

end Sys2Proof.Machine

namespace Sys2Proof.Proofs
open Sys2Proof Sys2Proof.Machine Sys2Proof.Safety

/-- The completion record of an OK descriptor reaches memory, or goes to the home of a coherent line (R304). -/
theorem xfeComplete_records {s : State} {e pa : Nat} {x : Xfe} {c : XCur} (canon : Canon s) (h : Tab.Holds {} s.xfes e x) (cur : x.cur = some c)
    (ending : x.run = .ending) (units : c.units = []) (drain : c.drain = []) (as : c.endAs = some .ok) (pool : FromPool c.desc)
    (last : x.queue = []) (calm : x.fencePend = false) (whole : c.failed = []) (asked : c.desc.compValid = true) (dev : c.desc.comp < 2 ^ 47)
    (aligned : c.desc.comp % 64 = 0) (at_ : translate s e c.desc.ctx c.desc.comp true = .ok pa) :
    let bs := compRecord e (match x.owner with | some p => (s.part p).step.toNat | none => 0) c .ok
    (∀ g, memCheck s pa c.desc.ctx = .pass g → coherent s pa = false →
      ∃ t, t = refresh (xfeComplete e s) ∧ (t.xfe e).lastStat = .ok ∧
        (∀ i < 64, t.mem.byte (pa + i) = bs.getD i 0) ∧ (∀ a, a < pa ∨ pa + 64 ≤ a → t.mem.byte a = s.mem.byte a)) ∧
    (coherent s pa = true → ∃ t q, t = refresh (xfeComplete e s) ∧ (t.xfe e).lastStat = .ok ∧ t.mem = s.mem ∧
      t.noc.reqs = s.noc.reqs ++ [q] ∧ q.write = true ∧ q.addr = pa ∧ q.ctx = c.desc.ctx ∧ q.data = bs) := by
  intro bs
  have is : s.xfe e = x := h.get
  have line : bs.length = 64 := compRecord_line _
  have record : writeComp e c .ok s = some (writePiece e c.desc.ctx c.desc.comp bs false s).2 := by
    rw [← dvaWrite_line aligned line]
    unfold writeComp
    dsimp only
    rw [if_neg (by simp [asked]), if_pos dev, is] <;> rfl
  have ends := xfeComplete_ends (by rw [is]; exact cur) (by rw [is]; exact ending) units drain as record
  refine ⟨fun g passes plain => ?_, fun home => ?_⟩
  · obtain ⟨xlt, noc, stored⟩ := writePiece_stores (bs := bs) (poison := false) at_ passes plain
    obtain ⟨xfes, trc, free, ended, shown⟩ := finishDesc_quiet (st := .ok) (s := { memPut s g pa bs false with xlt := xlt, noc := noc }) pool h last calm (by decide) whole
    refine ⟨_, rfl, ?_, fun i low => ?_, fun a outside => ?_⟩
    · rw [refresh_xfe, ends, stored, ended]
      exact (congrArg Xfe.lastStat shown.get).trans rfl
    · rw [refresh_mem, ends, stored, ended]
      exact (congrArg (Tab.get 0#8 · (pa + i)) (Mem.bytes_store _ pa bs false)).trans (Mem.byte_write_inside canon.1 pa bs i (by omega))
    · rw [refresh_mem, ends, stored, ended]
      exact (congrArg (Tab.get 0#8 · a) (Mem.bytes_store _ pa bs false)).trans (Mem.byte_write_outside canon.1 pa bs (by omega))
  · obtain ⟨xlt, q, sent, write, addr, ctx, data⟩ := writePiece_posts (bs := bs) (poison := false) at_ home
    obtain ⟨xfes, trc, free, ended, shown⟩ := finishDesc_quiet (st := .ok)
      (s := { s with xlt := xlt, noc := { s.noc with nextTag := s.noc.nextTag + 1, reqs := s.noc.reqs ++ [q] } }) pool h last calm (by decide) whole
    refine ⟨_, q, rfl, ?_, ?_, ?_, write, addr, ctx, data⟩
    · rw [refresh_xfe, ends, sent, ended]
      exact (congrArg Xfe.lastStat shown.get).trans rfl
    · rw [refresh_mem, ends, sent, ended]
    · rw [refresh_noc, ends, sent, ended]

/-- Settles O31: each event of an engine reduces to the rule of its operation above, at the engine that the table holds. -/
theorem transferEngines : Obligations.TransferEngines := by
  unfold Obligations.TransferEngines
  intro e s canon x
  have groups := groups_of_canon canon
  have canon' := canon
  obtain ⟨-, parts, xfes, -⟩ := canon
  have h : Tab.Holds {} s.xfes e.val x := ⟨xfes, rfl⟩
  refine ⟨fun d rest queue idle => ?_, fun d rest queue fenced pool => ?_, fun c cur waits met turn clean => ?_,
    fun c st cur ending units drain as pool last calm => ?_, fun c cur under => ?_, fun other => ?_, fun fenced => ?_, fun other calm => ?_⟩
  · refine congrArg Host.Outcome.next ?_
    show xfeDescArrive e.val s = _
    unfold xfeDescArrive nextDesc
    simp [show s.xfe e.val = x from rfl, queue, idle]
  · obtain ⟨p, k, i, src⟩ := pool
    have ends : xfeDescArrive e.val s = endUnrun e.val d .aborted false (s.setXfe e.val { x with queue := rest }) := by
      unfold xfeDescArrive
      simp [show s.xfe e.val = x from rfl, queue, fenced]
    have kept := h.set { x with queue := rest }
    have unrun : endUnrun e.val d .aborted false (s.setXfe e.val { x with queue := rest }) =
        (s.setXfe e.val { x with queue := rest }).setXfe e.val
          { x with queue := rest, lastStat := .aborted, lastFlags := 0, lastDesc := BitVec.ofNat 16 d.src.index, cursor := [0, 0, 0, 0, 0, 0], failedN := 0 } := by
      have is : (s.setXfe e.val { x with queue := rest }).xfe e.val = { x with queue := rest } := kept.get
      unfold endUnrun
      rw [is, src]
      dsimp only
      split <;> rfl
    refine ⟨_, rfl, ?_⟩
    rw [ends, unrun]
    have shown := (kept.set { x with queue := rest, lastStat := .aborted, lastFlags := 0, lastDesc := BitVec.ofNat 16 d.src.index,
                                     cursor := [0, 0, 0, 0, 0, 0], failedN := 0 }).get
    exact ⟨(congrArg Xfe.queue shown).trans rfl, (congrArg Xfe.lastStat shown).trans rfl, (congrArg Xfe.run shown).trans fenced, rfl⟩
  · have runs := xfeWaitSatisfied_turn cur waits met turn clean
    refine ⟨fun zero pool whole last calm => ?_, fun some_ host stopped => ?_, fun some_ device => ?_⟩
    · obtain ⟨xfes, trc, free, ended, shown⟩ := finishDesc_quiet (st := .empty) pool h last calm (by decide) whole
      refine ⟨_, rfl, ?_⟩
      rw [runs, if_pos zero, ended]
      have got : Tab.get {} xfes e.val = _ := shown.get
      exact ⟨(congrArg Xfe.lastStat got).trans rfl, (congrArg Xfe.run got).trans rfl, (congrArg Xfe.cur got).trans rfl, rfl, rfl⟩
    · have ends := endAtElem_ends (st := .aborted) h cur (.inl waits) 0
      have shown := (h.set { x with run := .ending, pageWait := false, cur := some { cutAt 0 c with endAs := some .aborted } }).get
      refine ⟨_, { cutAt 0 c with endAs := some .aborted }, rfl, ?_⟩
      rw [runs, if_neg (by simp [some_]), if_pos (by simp [host, stopped]), ends]
      obtain ⟨parts, tainted⟩ := taintOwner_shape (s.xfe e.val).owner
        (s.setXfe e.val { x with run := .ending, pageWait := false, cur := some { cutAt 0 c with endAs := some .aborted } })
      rw [tainted]
      exact ⟨(congrArg Xfe.run shown).trans rfl, (congrArg Xfe.cur shown).trans rfl, rfl, rfl, rfl⟩
    · refine congrArg Host.Outcome.next ?_
      exact runs.trans (by rw [if_neg (by simp [some_]), if_neg (by simp [device]), if_neg (by simp [device])])
  · have silent (asked : c.desc.compValid = false) : xfeComplete e.val s = finishDesc e.val c st s := by
      refine xfeComplete_ends cur ending units drain as ?_
      unfold writeComp
      exact if_pos (by simp [asked])
    refine ⟨fun fine whole asked => ?_, fun faulted whole asked quiet => ?_, fun fine failed asked quiet => ?_,
      fun pa ok whole asked dev aligned at_ => ?_⟩
    · obtain ⟨xfes, trc, free, ended, shown⟩ := finishDesc_quiet pool h last calm fine whole
      refine ⟨_, rfl, ?_⟩
      rw [refresh_xfe, refresh_mem, silent asked, ended]
      have got : Tab.get {} xfes e.val = _ := shown.get
      exact ⟨(congrArg Xfe.lastStat got).trans rfl, (congrArg Xfe.lastFlags got).trans rfl, (congrArg Xfe.lastDesc got).trans rfl,
        (congrArg Xfe.run got).trans rfl, (congrArg Xfe.cur got).trans rfl, rfl⟩
    · subst faulted
      obtain ⟨xfes, trc, free, ended, shown⟩ := finishDesc_last (st := .faulted) pool h last calm (endFaults_faulted whole x.owner _)
        (Laws.raise_calm_xfes groups quiet)
      have got : Tab.get {} xfes e.val = _ := shown.get
      refine ⟨_, rfl, ?_⟩
      rw [refresh_xfe, silent asked, ended]
      refine ⟨(congrArg Xfe.lastStat got).trans rfl, (congrArg Xfe.unresolved got).trans rfl, faultSet_keeps (refresh_groups _) ?_⟩
      exact (Laws.raise_sets groups (by decide) : FaultSet 12 2 (raise 12 2 e.val (s.setXfe e.val (shownEnd c .faulted x))))
    · obtain ⟨kept, set, tainted⟩ := endFaults_notes (e := e.val) (c := c) (st := st) (s := s.setXfe e.val (shownEnd c st x)) groups quiet parts fine failed x.owner
      obtain ⟨xfes, trc, free, ended, shown⟩ := finishDesc_last pool h last calm rfl kept
      have got : Tab.get {} xfes e.val = _ := shown.get
      refine ⟨_, rfl, ?_⟩
      rw [refresh_xfe, silent asked, ended]
      refine ⟨(congrArg Xfe.lastStat got).trans rfl, (congrArg Xfe.failedN got).trans rfl, faultSet_keeps (refresh_groups _) set, fun p owns => ?_⟩
      rw [refresh_part]
      exact tainted p owns
    · subst ok
      obtain ⟨stores, posts⟩ := xfeComplete_records canon' h cur ending units drain as pool last calm whole asked dev aligned at_
      refine ⟨fun g passes plain => ?_, fun home => ?_⟩
      · obtain ⟨t, rfl, rest⟩ := stores g passes plain
        exact ⟨_, rfl, rest⟩
      · obtain ⟨t, q, rfl, rest⟩ := posts home
        exact ⟨_, q, rfl, rest⟩
  · have shown := (h.set { x with run := .ending, pageWait := false, cur := some { cutAt c.front c with endAs := some .aborted } }).get
    have ends : xfeAbort e.val s = s.setXfe e.val { x with run := .ending, pageWait := false, cur := some { cutAt c.front c with endAs := some .aborted } } := by
      rw [← endAtElem_ends h cur under]
      unfold xfeAbort endEarly
      rw [show s.xfe e.val = x from rfl, if_neg (by rcases under with u | u | u <;> simp [u]), cur]
    refine ⟨_, { cutAt c.front c with endAs := some .aborted }, rfl, ?_⟩
    rw [ends]
    exact ⟨(congrArg Xfe.run shown).trans rfl, (congrArg Xfe.cur shown).trans rfl, rfl, rfl, rfl⟩
  · refine congrArg Host.Outcome.next ?_
    show requestXfeFence e.val s = _
    unfold requestXfeFence fenceXfe
    dsimp only
    rw [if_neg (by simpa [x] using other)]
    split <;> rfl
  · refine congrArg Host.Outcome.next ((if_pos (by simpa [x] using fenced)).trans ?_)
    unfold requestXfeReadmit readmitXfe
    dsimp only
    split <;> rfl
  · have refused : xfeReadmit e.val s = refuseWrite 12 s e.val := if_neg (by simpa [x] using other)
    refine ⟨_, rfl, ?_⟩
    rw [refused]
    exact ⟨Laws.raise_sets groups (by decide), Laws.raise_calm_xfes groups calm⟩

end Sys2Proof.Proofs
end

section
/-! SUPPORT. A fault of a calm group leaves every other group as it was. -/
namespace Sys2Proof.Machine
open Sys2Proof Sys2Proof.Safety

variable {s : State} {g k bit unit : Nat}

theorem detectN_calm_other (groups : Groups s) (calm : Calm g s) (other : k ≠ g) (n : Nat) : (detectN (n + 1) g bit unit s).grp k = s.grp k := by
  unfold detectN
  dsimp only
  generalize em : markUnit g unit _ = y
  have action := em ▸ Laws.markUnit_action g unit _
  have timer := em ▸ Laws.markUnit_timer g unit _
  have grace := em ▸ Laws.markUnit_grace g unit _
  have rises : Groups ((s.setGrp g y).emit (.faultSignal g bit)) := Tab.rises_set groups g y
  have own : ((s.setGrp g y).emit (.faultSignal g bit)).grp g = y := Tab.get_set_rises groups g y
  have same (j : Nat) (apart : j ≠ g) : ((s.setGrp g y).emit (.faultSignal g bit)).grp j = s.grp j := State.grp_setGrp_other groups apart y
  have timed (j : Nat) (z : FGroup) (apart : j ≠ g) : (((s.setGrp g y).emit (.faultSignal g bit)).setGrp g z).grp j = s.grp j :=
    (State.grp_setGrp_other rises apart z).trans (same j apart)
  have few (z : FGroup) := Laws.graceGroups_step (g := g) (s := s) (fun j apart => timed j z apart)
  have stopped : ((s.setGrp g y).emit (.faultSignal g bit)).flt.stopped = s.flt.stopped := rfl
  have thresh : ((s.setGrp g y).emit (.faultSignal g bit)).flt.thresh = s.flt.thresh := rfl
  generalize (s.setGrp g y).emit (.faultSignal g bit) = u at rises own same timed few stopped thresh ⊢
  refine Laws.ite_cases (P := fun t => t.grp k = s.grp k) (fun _ => same k other) fun counts => ?_
  rcases calm with log | halt | ⟨graced, idle, low⟩
  · exact absurd (by simp [action, log]) counts
  · exact absurd (by simp [stopped, halt]) counts
  · rw [if_neg (by simp [timer, idle]), if_neg (by rw [grace]; exact graced), if_neg]
    · exact timed k _ other
    · rintro ⟨counted, reached⟩
      have some_ : s.flt.thresh ≠ 0 := by rw [← thresh]; exact counted
      have within : s.flt.thresh ≤ (graceGroups s).length + 1 := by rw [← thresh]; exact Nat.le_trans reached (few _)
      omega

/-- A fault of a calm group is told in that group alone. -/
theorem raise_calm_other (groups : Groups s) (calm : Calm g s) (other : k ≠ g) : (raise g bit unit s).grp k = s.grp k := by
  unfold raise
  rw [refresh_grp]
  exact detectN_calm_other groups calm other 5

end Sys2Proof.Machine
end

section
/-! SUPPORT. Responses at a cell's port, and the events of the network. -/
namespace Sys2Proof.Machine
open Sys2Proof Sys2Proof.Safety

variable {s : State} {r : Req} {n tag : Nat}

/-- A request with no latency target is counted at its port alone. -/
theorem completeStats_shape {r : Req} (free : NoTargets r s) : ∃ ports, completeStats r s = { s with noc := { s.noc with qports := ports } } := by
  obtain ⟨target, bound⟩ := free
  unfold completeStats
  dsimp only
  rw [if_neg (by simp [bound]), if_neg (by simp [target])]
  exact ⟨_, rfl⟩

/-- The data of a read takes its place in the return that waits for it. -/
def filledReturns (tag : Nat) (v : Vec) (c : Cell) : List Ret :=
  c.rets.map (fun k => { k with tags := k.tags.map (fun u => if u.1 == tag && u.2.isNone then (u.1, some v) else u) })

/-- The answer of a request whose packet has come out of the network clean. -/
theorem nocResponse_arrives {want : Resp → Req → Bool} {a : Resp} {p : Packet} (req : s.reqOf tag = some r)
    (sent : s.noc.resps.find? (fun a => a.tag == tag) = some a) (arrived : arrivedPacket s tag true = some p) (clean : (s.grp 10).inject = 0)
    (wants : want a r = true) (open_ : r.resp = none) :
    nocResponse want tag .clean .clean s = arriveResp r a.data a.poison a.refused (takePacket p.id (takeResp tag s).2) := by
  unfold nocResponse
  rw [req, sent, arrived]
  dsimp only
  rw [if_neg (by simp [wants, open_])]
  have head (t : State) (same : (t.grp 10).inject = 0) : headCheck .clean p t = (false, t) := by
    unfold headCheck checkEcc fireInject
    simp [same]
  rw [head _ (by unfold takeResp; rw [sent]; exact clean)]
  simp [show (Ecc.clean == Ecc.uncorrectable) = false from rfl]

/-- What the answer of a request leaves of the network: its packet and its response are gone. -/
theorem takeResp_shape (tag : Nat) (s : State) : ∃ resps, (takeResp tag s).2 = { s with noc := { s.noc with resps := resps } } := by
  unfold takeResp
  split
  · exact ⟨s.noc.resps, rfl⟩
  · exact ⟨_, rfl⟩

/-- Whether a read was held at its port makes no difference to its answer. -/
theorem arriveResp_heldRead {bs : List Byte} {poison refused : Bool} (read : r.write = false) :
    arriveResp { r with held := false } bs poison refused s = arriveResp r bs poison refused s := by
  unfold arriveResp
  rw [if_neg (by simp [read]), if_neg (by simp [read])]

/-- The acknowledgement of a cell's write is counted off, and the request is gone. -/
theorem arriveResp_write (bs : List Byte) (poison refused : Bool) (write : r.write = true) (plain : r.use = .plain) (who : r.who = .cell n)
    (free : NoTargets r s) :
    ∃ ports, arriveResp r bs poison refused s =
      cellAck n { s with noc := { s.noc with reqs := s.noc.reqs.filter (fun q => q.tag != r.tag), qports := ports } } := by
  obtain ⟨ports, counted⟩ := completeStats_shape (r := r) (s := s.dropReq r.tag) free
  unfold arriveResp deliver
  rw [if_pos write, counted, plain, who]
  exact ⟨ports, rfl⟩

/-- The test of the open reads of an initiator. -/
def openRead (who : Initiator) (r : Req) : Bool := r.who == who && !r.write && !r.host

/-- A read's arrived data, noted in its request. -/
def answered (tag : Nat) (ans : List Byte × Bool × Bool) (r : Req) : Req := if r.tag == tag then { r with resp := some ans, gone := true } else r

theorem answered_keeps (tag : Nat) (ans : List Byte × Bool × Bool) (r : Req) :
    (answered tag ans r).tag = r.tag ∧ ∀ who, openRead who (answered tag ans r) = openRead who r := by
  unfold answered
  split <;> exact ⟨rfl, fun _ => rfl⟩

/-- The only open read of an initiator is found first, and none is left once it is gone. -/
theorem only_openRead {reqs : List Req} (ans : List Byte × Bool × Bool) (only : reqs.filter (openRead r.who) = [r]) :
    (reqs.map (answered r.tag ans)).find? (openRead r.who) = some (answered r.tag ans r) ∧
      ((reqs.map (answered r.tag ans)).filter (fun q => q.tag != r.tag)).find? (openRead r.who) = none ∧
      (reqs.map (answered r.tag ans)).filter (fun q => q.tag != r.tag) = reqs.filter (fun q => q.tag != r.tag) := by
  have gone : (reqs.map (answered r.tag ans)).filter (fun q => q.tag != r.tag) = reqs.filter (fun q => q.tag != r.tag) := by
    rw [List.filter_map, List.filter_congr (q := fun q => q.tag != r.tag) (fun q _ => by simp [(answered_keeps r.tag ans q).1])]
    refine (List.map_congr_left fun q mem => ?_).trans (List.map_id _)
    have other := (List.mem_filter.mp mem).2
    exact if_neg (by simpa using other)
  refine ⟨?_, ?_, gone⟩
  · rw [List.find?_map, show openRead r.who ∘ answered r.tag ans = openRead r.who from funext fun q => (answered_keeps r.tag ans q).2 _,
      ← List.head?_filter, only]
    rfl
  · rw [gone, List.find?_eq_none]
    intro q mem open_
    obtain ⟨listed, other⟩ := List.mem_filter.mp mem
    have is : q ∈ reqs.filter (openRead r.who) := List.mem_filter.mpr ⟨listed, open_⟩
    rw [only, List.mem_singleton] at is
    rw [is] at other
    simp at other

/-- Data without an error, or with one in a calm quadrant, leaves the network as it is. -/
theorem cellReturn_noc (bs : List Byte) {poison : Bool} (calm : poison = false ∨ (Groups s ∧ Calm (24 + n / 512) s)) :
    (cellReturn n tag bs poison s).noc = s.noc := by
  unfold cellReturn
  dsimp only
  rcases calm with clean | ⟨groups, calm⟩
  · rw [if_neg (by simp [clean])]
    rfl
  · refine Laws.ite_cases (P := fun t => t.noc = s.noc) (fun _ => ?_) (fun _ => rfl)
    exact Laws.raise_calm_noc (s := s.setCell n _) groups calm

/-- The data of a cell's only open read reaches its return, and the request is gone. -/
theorem arriveResp_read (bs : List Byte) {poison : Bool} (refused : Bool) (read : r.write = false) (get : r.use = .get n)
    (free : NoTargets r s) (calm : poison = false ∨ (Groups s ∧ Calm (24 + n / 512) s)) (only : s.noc.reqs.filter (openRead r.who) = [r]) :
    ∃ ports, arriveResp r bs poison refused s =
      cellReturn n r.tag bs poison { s with noc := { s.noc with reqs := s.noc.reqs.filter (fun q => q.tag != r.tag), qports := ports } } := by
  obtain ⟨found, rest, left⟩ := only_openRead (bs, poison, refused) only
  have own : answered r.tag (bs, poison, refused) r = { r with resp := some (bs, poison, refused), gone := true } := if_pos (by simp)
  obtain ⟨k, more⟩ : ∃ k, s.noc.reqs.length = k + 1 := by
    cases listed : s.noc.reqs with
    | nil => simp [listed] at only
    | cons q l => exact ⟨l.length, rfl⟩
  obtain ⟨ports, counted⟩ := completeStats_shape (r := answered r.tag (bs, poison, refused) r)
    (s := { s with noc := { s.noc with reqs := s.noc.reqs.filter (fun q => q.tag != r.tag) } }) (by rw [own]; exact free)
  refine ⟨ports, ?_⟩
  unfold arriveResp
  rw [if_neg (by simp [read]), more]
  have mapped : (s.modReq r.tag (fun q => { q with resp := some (bs, poison, refused), gone := true })).noc.reqs =
      s.noc.reqs.map (answered r.tag (bs, poison, refused)) := rfl
  have delivers : deliver (answered r.tag (bs, poison, refused) r) bs poison refused
      (s.modReq r.tag (fun q => { q with resp := some (bs, poison, refused), gone := true })) =
      cellReturn n r.tag bs poison { s with noc := { s.noc with reqs := s.noc.reqs.filter (fun q => q.tag != r.tag), qports := ports } } := by
    have dropped : (s.modReq r.tag (fun q => { q with resp := some (bs, poison, refused), gone := true })).dropReq (answered r.tag (bs, poison, refused) r).tag =
        { s with noc := { s.noc with reqs := s.noc.reqs.filter (fun q => q.tag != r.tag) } } := by
      rw [(answered_keeps _ _ r).1, ← left]
      rfl
    unfold deliver
    rw [dropped, counted, own, get]
  rw [drainReads, mapped, show (s.noc.reqs.map (answered r.tag (bs, poison, refused))).find? (fun q => q.who == r.who && !q.write && !q.host) = _ from found]
  have had : (answered r.tag (bs, poison, refused) r).resp = some (bs, poison, refused) := by rw [own]
  dsimp only
  rw [had]
  dsimp only
  rw [delivers]
  have empty : ({ s with noc := { s.noc with reqs := s.noc.reqs.filter (fun q => q.tag != r.tag), qports := ports } } : State).noc.reqs.find?
      (openRead r.who) = none := left ▸ rest
  have kept : (cellReturn n r.tag bs poison { s with noc := { s.noc with reqs := s.noc.reqs.filter (fun q => q.tag != r.tag), qports := ports } }).noc = _ :=
    cellReturn_noc bs calm
  generalize cellReturn n r.tag bs poison _ = t at kept ⊢
  cases k with
  | zero => rfl
  | succ k =>
    rw [drainReads, kept]
    dsimp only at empty ⊢
    rw [show (s.noc.reqs.filter (fun q => q.tag != r.tag)).find? (fun q => q.who == r.who && !q.write && !q.host) = none from empty]

/-- What waits at a cell's ports after its data or acknowledgement came. -/
theorem cellAck_writes (cells : Tab.wf {} s.fab.cells = true) : ((cellAck n s).cell n).writes = (s.cell n).writes - 1 :=
  congrArg Cell.writes (Tab.get_set_same cells n _)

theorem cellReturn_clean (bs : List Byte) (cells : Tab.wf {} s.fab.cells = true) :
    ((cellReturn n tag bs false s).cell n).rets = filledReturns tag { bits := BitVec.ofNat 512 (leNat bs), poison := false } (s.cell n) :=
  congrArg Cell.rets (Tab.get_set_same cells n _)

theorem cellReturn_status (bs : List Byte) (poison : Bool) (groups : Groups s) (g bit : Nat) (set : FaultSet g bit s) :
    FaultSet g bit (cellReturn n tag bs poison s) := by
  unfold cellReturn
  exact Laws.ite_cases (P := fun t => FaultSet g bit t) (fun _ => (Laws.raise_le.out (s := s.setCell n _) groups).2 g bit set) (fun _ => set)

theorem cellReturn_poisoned (bs : List Byte) (cells : Tab.wf {} s.fab.cells = true) (groups : Groups s) (calm : Calm (24 + n / 512) s) :
    ((cellReturn n tag bs true s).cell n).rets = filledReturns tag { bits := BitVec.ofNat 512 (leNat bs), poison := true } (s.cell n) := by
  have fab : (cellReturn n tag bs true s).fab = (s.setCell n { s.cell n with rets := filledReturns tag { bits := BitVec.ofNat 512 (leNat bs), poison := true } (s.cell n) }).fab :=
    Laws.raise_calm_fab (s := s.setCell n _) groups calm
  unfold State.cell at *
  rw [fab]
  exact congrArg Cell.rets (Tab.get_set_same cells n _)

/-- The initiator whose response does not come completes the request itself. -/
theorem respTimeout_arrives (req : s.reqOf tag = some r) (dev : r.host = false) (open_ : r.resp = none) :
    respTimeout tag s =
      let u := raise 10 4 (portOf r.who) { s with noc := { s.noc with timeouts := satInc s.noc.timeouts,
                                                                      resps := s.noc.resps.filter (fun p => p.tag != tag) } }
      let f := if r.write then ([], u) else freeBytes r.len u
      arriveResp { r with held := false } f.1 (!r.write) r.write f.2 := by
  unfold respTimeout
  rw [req]
  dsimp only
  rw [if_neg (by simp [dev, open_])]

/-- Noting a response that does not come: its fault, and nothing else but the count and the response itself. -/
theorem timeout_noted (groups : Groups s) (calm : Calm 10 s) (unit : Nat) :
    let t := raise 10 4 unit { s with noc := { s.noc with timeouts := satInc s.noc.timeouts, resps := s.noc.resps.filter (fun p => p.tag != tag) } }
    FaultSet 10 4 t ∧ t.noc = { s.noc with timeouts := satInc s.noc.timeouts, resps := s.noc.resps.filter (fun p => p.tag != tag) } ∧
      t.fab = s.fab ∧ Groups t ∧ ∀ g, 10 < g → (t.grp g).action = (s.grp g).action := by
  generalize counted : { s with noc := { s.noc with timeouts := satInc s.noc.timeouts, resps := s.noc.resps.filter (fun p => p.tag != tag) } } = u
  have rises : Groups u := by rw [← counted]; exact groups
  have quiet : Calm 10 u := by rw [← counted]; exact calm
  have grp (g : Nat) : u.grp g = s.grp g := by rw [← counted]; rfl
  have noc : u.noc = { s.noc with timeouts := satInc s.noc.timeouts, resps := s.noc.resps.filter (fun p => p.tag != tag) } := by rw [← counted]
  have fab : u.fab = s.fab := by rw [← counted]
  intro t
  exact ⟨Laws.raise_sets rises (by decide), (Laws.raise_calm_noc rises quiet).trans noc, (Laws.raise_calm_fab rises quiet).trans fab,
    (raise_notes rises quiet).rises, fun g above => congrArg FGroup.action ((raise_calm_other rises quiet (by omega)).trans (grp g))⟩

end Sys2Proof.Machine

namespace Sys2Proof.Proofs
open Sys2Proof Sys2Proof.Machine Sys2Proof.Safety

/-- A read whose response does not come completes with poison (R394). -/
theorem respTimeout_read {s : State} {r : Req} {tag n : Nat} (groups : Groups s) (cells : Tab.wf {} s.fab.cells = true) (own : r.tag = tag)
    (req : s.reqOf tag = some r) (dev : r.host = false) (open_ : r.resp = none) (read : r.write = false) (get : r.use = .get n)
    (only : s.noc.reqs.filter (openRead r.who) = [r]) (free : NoTargets r s) (calm : Calm 10 s) (logs : Logs (24 + n / 512) s) :
    let t := respTimeout tag s
    FaultSet 10 4 t ∧ t.noc.reqs = s.noc.reqs.filter (fun q => q.tag != tag) ∧
      ∃ b, (t.cell n).rets = filledReturns tag { bits := b, poison := true } (s.cell n) := by
  obtain ⟨set, noc, fab, rises, others⟩ := timeout_noted (tag := tag) groups calm (portOf r.who)
  rw [respTimeout_arrives req dev open_]
  dsimp only at set noc fab rises others ⊢
  generalize raise 10 4 (portOf r.who) _ = u at set noc fab rises others ⊢
  have quiet : Calm (24 + n / 512) u := .inl ((others _ (by omega)).trans logs)
  obtain ⟨ports, answer⟩ := arriveResp_read (s := (freeBytes r.len u).2) (poison := !r.write) (freeBytes r.len u).1 r.write read get
    (by unfold NoTargets State.qport; exact noc ▸ free) (.inr ⟨rises, quiet⟩) (by exact noc ▸ only)
  rw [if_neg (by simp [read]), arriveResp_heldRead read, answer, read, own]
  generalize em : ({ (freeBytes r.len u).2 with noc := _ } : State) = v
  have rises' : Groups v := by rw [← em]; exact rises
  have quiet' : Calm (24 + n / 512) v := by rw [← em]; exact quiet
  have set' : FaultSet 10 4 v := by rw [← em]; exact set
  have fab' : v.fab = s.fab := by rw [← em]; exact fab
  have reqs : v.noc.reqs = s.noc.reqs.filter (fun q => q.tag != tag) := by
    rw [← em]
    exact congrArg (fun m : Noc => m.reqs.filter (fun q => q.tag != tag)) noc
  refine ⟨cellReturn_status _ _ rises' 10 4 set', (congrArg Noc.reqs (cellReturn_noc _ (.inr ⟨rises', quiet'⟩))).trans reqs,
    BitVec.ofNat 512 (leNat (freeBytes r.len u).1), (cellReturn_poisoned _ (by rw [fab']; exact cells) rises' quiet').trans ?_⟩
  unfold State.cell
  rw [fab']

/-- A fault that reaches firmware is logged, and acknowledged where its group only logs (R703). -/
theorem faultSignal_logs {s : State} (groups : Groups s) (g : Fin 29) (bit : Fin 32) :
    let t := faultSignal g.val bit.val s
    t.mgt.logSeq = s.mgt.logSeq + 1 ∧ (∃ l, Tab.get none t.mgt.log s.mgt.logHead = some l ∧ l.src = g.val ∧ l.code = BitVec.ofNat 16 bit.val) ∧
      ((s.grp g.val).action = .log → (t.grp g.val).unacked.getLsbD bit.val = false ∧ (t.grp g.val).status = (s.grp g.val).status) := by
  have logged : Tab.get none (writeLog g.val 2 0 bit.val 0 0 s).mgt.log s.mgt.logHead = some _ := Tab.get_set_of_ne (Option.some_ne_none _) _ _
  unfold faultSignal
  dsimp only
  have rises : Groups (writeLog g.val 2 0 bit.val 0 0 s) := groups
  have same : (writeLog g.val 2 0 bit.val 0 0 s).grp g.val = s.grp g.val := rfl
  have seq : (writeLog g.val 2 0 bit.val 0 0 s).mgt.logSeq = s.mgt.logSeq + 1 := rfl
  generalize writeLog g.val 2 0 bit.val 0 0 s = u at logged rises same seq
  obtain ⟨y, recorded, status, unacked, -, -⟩ := ackBits_group ⟨rises, same⟩ (BitVec.ofNat 32 (2 ^ bit.val))
  have mgt : (ackBits g.val (BitVec.ofNat 32 (2 ^ bit.val)) u).mgt = u.mgt := refresh_mgt _
  split
  · next log =>
    rw [mgt]
    refine ⟨seq, ⟨_, logged, rfl, by simp⟩, fun _ => ?_⟩
    rw [recorded.is, unacked, status]
    refine ⟨?_, rfl⟩
    rw [BitVec.getLsbD_and, BitVec.getLsbD_not, BitVec.getLsbD_ofNat, Nat.testBit_two_pow_self]
    simp [bit.isLt]
  · next other =>
    refine ⟨seq, ⟨_, logged, rfl, by simp⟩, fun log => absurd ?_ other⟩
    rw [same, log]
    rfl

/-- Settles O34: an answer at a cell's port reduces to the delivery of its request, an event to its fault. -/
theorem networkResponsesAndEvents : Obligations.NetworkResponsesAndEvents := by
  unfold Obligations.NetworkResponsesAndEvents
  refine ⟨fun tag n s r canon req who free open_ dev => ?_, fun router input s groups => ⟨fun stalled calm => ?_, fun moves => ?_⟩, fun p s => rfl,
    fun g bit s groups runs here => ?_⟩
  · have own : r.tag = tag := by simpa using List.find?_some req
    have groups := groups_of_canon canon
    obtain ⟨-, -, -, -, -, -, -, cells, -⟩ := canon
    refine ⟨fun a p sent arrived clean => ⟨fun read get only sound => ?_, fun write plain ok => ?_, fun write plain refused => ?_⟩,
      fun write plain calm => ?_, fun read get only calm logs => ?_⟩
    · obtain ⟨resps, taken⟩ := takeResp_shape tag s
      have runs : exec (.nocReadData tag .clean .clean) s = .next _ := congrArg Host.Outcome.next
        (nocResponse_arrives (want := fun _ r => !r.write) req sent arrived clean (by simp [read]) open_)
      rw [taken] at runs
      obtain ⟨ports, answer⟩ := arriveResp_read (s := takePacket p.id { s with noc := { s.noc with resps := resps } }) a.data a.refused read get free
        (.inl sound) only
      refine ⟨_, runs, ?_⟩
      rw [answer, sound, own]
      exact ⟨congrArg Noc.reqs (cellReturn_noc a.data (.inl rfl)), congrArg (fun m : Noc => m.net.pkts) (cellReturn_noc a.data (.inl rfl)),
        cellReturn_clean a.data cells⟩
    · obtain ⟨resps, taken⟩ := takeResp_shape tag s
      have runs : exec (.nocWriteAck tag .clean) s = .next _ := congrArg Host.Outcome.next
        (nocResponse_arrives (want := fun p r => r.write && !p.refused) req sent arrived clean (by simp [write, ok]) open_)
      rw [taken] at runs
      obtain ⟨ports, answer⟩ := arriveResp_write (s := takePacket p.id { s with noc := { s.noc with resps := resps } }) a.data a.poison a.refused write plain who free
      refine ⟨_, runs, ?_⟩
      rw [answer, own]
      exact ⟨rfl, cellAck_writes cells⟩
    · obtain ⟨resps, taken⟩ := takeResp_shape tag s
      have runs : exec (.nocRefuse tag .clean) s = .next _ := congrArg Host.Outcome.next
        (nocResponse_arrives (want := fun p r => r.write && p.refused) req sent arrived clean (by simp [write, refused]) open_)
      rw [taken] at runs
      obtain ⟨ports, answer⟩ := arriveResp_write (s := takePacket p.id { s with noc := { s.noc with resps := resps } }) a.data a.poison a.refused write plain who free
      refine ⟨_, runs, ?_⟩
      rw [answer, own]
      exact ⟨rfl, cellAck_writes cells⟩
    · obtain ⟨set, noc, fab, -⟩ := timeout_noted (tag := tag) groups calm (portOf r.who)
      have late := respTimeout_arrives req dev open_
      refine ⟨_, rfl, ?_⟩
      rw [late]
      dsimp only at set noc fab ⊢
      generalize raise 10 4 (portOf r.who) _ = u at set noc fab ⊢
      rw [if_pos write]
      obtain ⟨ports, answer⟩ := arriveResp_write (r := { r with held := false }) (s := u) [] (!r.write) r.write write plain who
        (by unfold NoTargets State.qport; rw [noc]; exact free)
      rw [answer]
      refine ⟨set, ?_, ?_, congrArg Noc.timeouts noc⟩
      · exact (congrArg (fun m : Noc => m.reqs.filter (fun q => q.tag != r.tag)) noc).trans (by rw [own])
      · refine (cellAck_writes (s := { u with noc := _ }) (by exact fab ▸ cells)).trans ?_
        exact congrArg (fun f : Fabric => (Tab.get {} f.cells n).writes - 1) fab
    · exact ⟨_, rfl, respTimeout_read groups cells own req dev open_ read get only free calm logs⟩
  · refine ⟨sliceStall router.val input.val s, rfl, ?_⟩
    rw [show sliceStall router.val input.val s = raise 10 5 router.val s from if_pos stalled]
    exact ⟨Laws.raise_sets groups (by decide), Laws.raise_calm_noc groups calm⟩
  · exact congrArg Host.Outcome.next (if_neg (by simp [moves]))
  · exact ⟨faultSignal g.val bit.val s, congrArg Host.Outcome.next (if_neg (by simp [runs, here])), faultSignal_logs groups g bit⟩

end Sys2Proof.Proofs
end

section
/-! SUPPORT. Memory written under byte enables, and a line of memory read whole. -/
namespace Sys2Proof.Machine
open Sys2Proof Sys2Proof.Safety

variable {m : Mem} {s : State}

/-- Bytes written one by one under their enables: a byte of the run that is enabled reads as written, any other as before. -/
theorem Mem.byte_enabled (be a : Nat) : ∀ (bs : List Byte) (k : Nat) {m : Mem} (_ : m.wf) (x : Nat),
    ((bs.zip (List.range' k bs.length)).foldl (fun m p => if be.testBit p.2 then m.put (a + p.2) p.1 else m) m).byte x =
      if a + k ≤ x ∧ x < a + k + bs.length ∧ be.testBit (x - a) = true then bs.getD (x - a - k) 0#8 else m.byte x
  | [], k, m, _, x => by simp; omega
  | b :: bs, k, m, w, x => by
    have next (u : Mem) (wu : u.wf) := Mem.byte_enabled be a bs (k + 1) wu x
    simp only [List.length_cons, List.range'_succ, List.zip_cons_cons, List.foldl_cons]
    by_cases on : be.testBit k = true
    · rw [if_pos on, next _ (Mem.wf_put w _ _)]
      by_cases here : x = a + k
      · subst here
        rw [if_neg (by omega), Mem.byte_put_same w, if_pos ⟨by omega, by omega, by rw [Nat.add_sub_cancel_left]; exact on⟩]
        simp
      · rw [Mem.byte_put_other w here]
        by_cases later : a + (k + 1) ≤ x ∧ x < a + (k + 1) + bs.length ∧ be.testBit (x - a) = true
        · obtain ⟨low, high, enabled⟩ := later
          rw [if_pos ⟨low, high, enabled⟩, if_pos ⟨by omega, by omega, enabled⟩, show x - a - k = (x - a - (k + 1)) + 1 by omega]
          simp
        · rw [if_neg later, if_neg fun inside => later ⟨by omega, by omega, inside.2.2⟩]
    · rw [if_neg on, next m w]
      by_cases later : a + (k + 1) ≤ x ∧ x < a + (k + 1) + bs.length ∧ be.testBit (x - a) = true
      · obtain ⟨low, high, enabled⟩ := later
        rw [if_pos ⟨low, high, enabled⟩, if_pos ⟨by omega, by omega, enabled⟩, show x - a - k = (x - a - (k + 1)) + 1 by omega]
        simp
      · rw [if_neg later, if_neg fun inside => later ⟨?_, by omega, inside.2.2⟩]
        have : x ≠ a + k := fun here => on (by rw [here, Nat.add_sub_cancel_left] at inside; exact inside.2.2)
        omega

theorem Mem.byte_writeBe (w : m.wf) (a : Nat) (bs : List Byte) (be x : Nat) :
    (m.writeBe a bs be).byte x = if a ≤ x ∧ x < a + bs.length ∧ be.testBit (x - a) = true then bs.getD (x - a) 0#8 else m.byte x := by
  unfold Mem.writeBe
  rw [List.range_eq_range']
  exact Mem.byte_enabled be a bs 0 w x

theorem Mem.bytes_markWrite (m : Mem) (a n : Nat) (p : Bool) : (m.markWrite a n p).bytes = m.bytes :=
  Mem.bytes_foldl (fun m l => by
    show (if _ then _ else _ : Mem).bytes = _
    split
    · rfl
    · split <;> rfl) _ _

/-- Reading a run of bytes. -/
theorem Mem.read_eq (m : Mem) (a n : Nat) : m.read a n = (List.range n).map (fun i => m.byte (a + i)) := by
  induction n generalizing a with
  | zero => rfl
  | succ n ih =>
    rw [Mem.read, ih, List.range_succ_eq_map, List.map_cons, List.map_map]
    congr 1
    refine List.map_congr_left fun i _ => ?_
    show m.byte (a + 1 + i) = m.byte (a + (i + 1))
    rw [show a + 1 + i = a + (i + 1) by omega]

theorem Mem.length_read (m : Mem) (a n : Nat) : (m.read a n).length = n := by simp [Mem.read_eq]

/-- A part of a run of bytes that was read. -/
theorem Mem.read_part (m : Mem) {a n o l : Nat} (within : o + l ≤ n) : ((m.read a n).drop o).take l = m.read (a + o) l := by
  refine List.ext_getElem (by simp [Mem.length_read]; omega) fun i low _ => ?_
  simp only [Mem.read_eq, List.getElem_take, List.getElem_drop, List.getElem_map, List.getElem_range]
  rw [show a + (o + i) = a + o + i by omega]

/-- The lines of a run within one line. -/
theorem linesOf_within {a n : Nat} (some_ : 0 < n) (within : a % 64 + n ≤ 64) : linesOf a n = [a / 64] := by
  unfold linesOf
  rw [if_neg (by omega), show (a + n - 1) / 64 - a / 64 + 1 = 1 by omega]
  simp

/-- A write under byte enables at memory: it changes memory alone. -/
theorem memPutBe_shape (s : State) (g pa : Nat) (bs : List Byte) (be : Nat) (poison : Bool) :
    ∃ mem, memPutBe s g pa bs be poison = { s with mem := mem } := by
  unfold memPutBe
  dsimp only
  split
  · exact ⟨_, rfl⟩
  · exact ⟨_, rfl⟩

/-- Folds that leave the granules that are being released. -/
theorem Mem.leaving_foldl {β : Type} {f : Mem → β → Mem} (step : ∀ m b, (f m b).leaving = m.leaving) (l : List β) (m : Mem) :
    (l.foldl f m).leaving = m.leaving := by
  induction l generalizing m with
  | nil => rfl
  | cons b l ih => exact (ih _).trans (step m b)

theorem Mem.leaving_markWrite (m : Mem) (a n : Nat) (p : Bool) : (m.markWrite a n p).leaving = m.leaving :=
  Mem.leaving_foldl (fun m l => by
    show (if _ then _ else _ : Mem).leaving = _
    split
    · rfl
    · split <;> rfl) _ _

theorem Mem.leaving_write (m : Mem) (a : Nat) (bs : List Byte) : (m.write a bs).leaving = m.leaving := by
  induction bs generalizing m a with
  | nil => rfl
  | cons b bs ih => exact ih _ _

theorem memPutBe_leaving (s : State) (g pa : Nat) (bs : List Byte) (be : Nat) (poison : Bool) :
    (memPutBe s g pa bs be poison).mem.leaving = s.mem.leaving := by
  unfold memPutBe
  dsimp only
  split
  · exact (Mem.leaving_markWrite _ _ _ _).trans (Mem.leaving_write _ _ _)
  · have bytes : ((s.setGranule g { s.granule g with zeroed := false }).mem.writeBe pa bs be).leaving = s.mem.leaving :=
      Mem.leaving_foldl (fun m p => by
        show (if _ then _ else _ : Mem).leaving = _
        split <;> rfl) _ _
    split
    · exact (Mem.leaving_markWrite _ _ _ _).trans bytes
    · exact bytes

/-- The enabled bytes read as written and every other byte as before (R341). -/
theorem memPutBe_byte (wf : s.mem.wf) (g pa : Nat) (bs : List Byte) (be : Nat) (poison : Bool) (x : Nat) :
    (memPutBe s g pa bs be poison).mem.byte x =
      if pa ≤ x ∧ x < pa + bs.length ∧ be.testBit (x - pa) = true then bs.getD (x - pa) 0#8 else s.mem.byte x := by
  have plain (m : Mem) (same : m.bytes = s.mem.bytes) (y : Nat) : m.byte y = s.mem.byte y := by
    unfold Mem.byte
    rw [same]
  have wf' : (s.setGranule g { s.granule g with zeroed := false }).mem.wf :=
    ⟨wf.1, wf.2.1, Tab.wf_set wf.2.2.1 _ _, wf.2.2.2⟩
  unfold memPutBe
  dsimp only
  split
  · next full =>
    have all (i : Nat) (low : i < bs.length) : be.testBit i = true := by
      have bit : (be % 2 ^ bs.length).testBit i = (2 ^ bs.length - 1).testBit i := by rw [full]
      simpa [Nat.testBit_mod_two_pow, Nat.testBit_two_pow_sub_one, low] using bit
    refine (congrArg (Tab.get 0#8 · x) (Mem.bytes_store _ pa bs poison)).trans ?_
    by_cases inside : pa ≤ x ∧ x < pa + bs.length
    · have written := Mem.byte_write_inside wf' pa bs (x - pa) (by omega)
      rw [if_pos ⟨inside.1, inside.2, all _ (by omega)⟩, ← written, show pa + (x - pa) = x by omega]
      rfl
    · rw [if_neg fun h => inside ⟨h.1, h.2.1⟩]
      exact (Mem.byte_write_outside wf' pa bs (by omega)).trans rfl
  · have marked : (if poison then ((s.setGranule g { s.granule g with zeroed := false }).mem.writeBe pa bs be).markWrite pa bs.length true
        else (s.setGranule g { s.granule g with zeroed := false }).mem.writeBe pa bs be).bytes =
        ((s.setGranule g { s.granule g with zeroed := false }).mem.writeBe pa bs be).bytes := by
      split
      · exact Mem.bytes_markWrite _ _ _ _
      · rfl
    refine (congrArg (Tab.get 0#8 · x) marked).trans ?_
    exact Mem.byte_writeBe wf' pa bs be x

end Sys2Proof.Machine
end

section
/-! SUPPORT. A line of memory at its home: whole reads and writes, and the filter's entry of a line. -/
namespace Sys2Proof.Machine
open Sys2Proof Sys2Proof.Safety

variable {s : State} {line ctx g : Nat}

theorem checkEcc_clean {bit : Nat} {corrects : Bool} (none : (s.grp g).inject = 0) (e : Ecc) : checkEcc g bit corrects e s = (e, s) := by
  unfold checkEcc fireInject
  simp [none]

/-- A read at a unit of memory in which no error waits. -/
theorem targetRead_clean (none : (s.grp (granGroup g)).inject = 0) (pa len : Nat) :
    targetRead g pa len .clean s = (s.mem.read pa len, s.mem.anyBad pa len, s) := by
  unfold targetRead
  rw [checkEcc_clean none]

/-- A line that its context may reach is read whole. -/
theorem homeRead_open (passes : memCheck s (line * 64) ctx = .pass g) (none : (s.grp (granGroup g)).inject = 0) :
    homeRead ctx line s = (s.mem.read (line * 64) 64, s.mem.anyBad (line * 64) 64, false, s) := by
  unfold homeRead
  rw [passes]
  dsimp only
  rw [targetRead_clean none]

/-- A line that its context may reach is written under its enables. -/
theorem homeWrite_open (passes : memCheck s (line * 64) ctx = .pass g) (bs : List Byte) (be : Nat) (poison : Bool) :
    homeWrite ctx line bs be poison s = (false, memPutBe s g (line * 64) bs be poison) := by
  unfold homeWrite
  rw [passes]

/-- The filter's entry of a line for which nothing waits changes alone. -/
theorem tidySector_quiet (free : s.home.victims = []) (line : Nat) :
    ∃ alloc, tidySector line s = ([], { s with home := { s.home with alloc := alloc } }) := by
  unfold tidySector
  dsimp only
  split
  · exact ⟨s.home.alloc, rfl⟩
  · rw [free]
    exact ⟨s.home.alloc.filter (· != sectorOf line), by simp⟩

/-- A home with no window and no granule that waits for its lines. -/
theorem settleHome_settled (settled : Settled s) : settleHome s = s := by
  obtain ⟨wins, leaving⟩ := settled
  unfold settleHome settleWins
  rw [wins]
  unfold settleGrans
  simp only [List.foldl_nil]
  rw [leaving]
  rfl

/-- A line whose transaction is over and for which nothing waits has no more work. -/
theorem drain_quiet (queue : s.home.queue = []) (line : Nat) : doWork (.drain line) s = ([], s) := by
  unfold doWork
  dsimp only
  rw [queue]
  split <;> rfl

/-- A piece of work after which only the line's own wait is looked at. -/
theorem atHome_drain (queue : s.home.queue = []) (settled : Settled s) (line : Nat) : atHome [.drain line] s = s := by
  have fuel : homeFuel s = (homeFuel s - 2) + 1 + 1 := by unfold homeFuel; omega
  unfold atHome
  rw [fuel, runWork, drain_quiet queue line, List.append_nil, runWork]
  · exact settleHome_settled settled
  · omega

end Sys2Proof.Machine
end

section
/-! SUPPORT. Requests of the network at memory. -/
namespace Sys2Proof.Machine
open Sys2Proof Sys2Proof.Safety

variable {s : State} {r : Req} {g tag : Nat}

/-- Memory's spots are of whole lines: an address of a unit of memory lies at the spot of its line. -/
theorem paSpot_line {pa : Nat} (low : pa < 0x016000000000) (mem : paSpot s pa ≠ .srmHole) : paSpot s (pa / 64 * 64) = paSpot s pa := by
  unfold paSpot at mem ⊢
  by_cases sram : pa < 0x20000000
  · have bank : pa / 64 * 64 / 0x800000 = pa / 0x800000 := by omega
    have row : pa / 64 * 64 % 0x800000 / 0x10000 = pa % 0x800000 / 0x10000 := by omega
    have part : (pa / 64 * 64 % 0x800000 < 0x500000) = (pa % 0x800000 < 0x500000) := propext ⟨by omega, by omega⟩
    rw [if_pos sram, if_pos (by omega)]
    simp only [bank, row, part]
  · rw [if_neg sram] at mem ⊢
    by_cases hbm : 0x010000000000 ≤ pa
    · have stack : (pa / 64 * 64 - 0x010000000000) / 0x1000000000 = (pa - 0x010000000000) / 0x1000000000 := by omega
      have chan : (pa / 64 * 64 - 0x010000000000) % 0x1000000000 / 0x80000000 = (pa - 0x010000000000) % 0x1000000000 / 0x80000000 := by omega
      have granule : (pa / 64 * 64 - 0x010000000000) % 0x80000000 / 0x200000 = (pa - 0x010000000000) % 0x80000000 / 0x200000 := by omega
      rw [if_neg (by omega : ¬pa / 64 * 64 < 0x20000000), if_pos (⟨hbm, low⟩ : 0x010000000000 ≤ pa ∧ pa < 0x016000000000),
        if_pos (⟨by omega, by omega⟩ : 0x010000000000 ≤ pa / 64 * 64 ∧ pa / 64 * 64 < 0x016000000000)]
      simp only [stack, chan, granule]
    · rw [if_neg (by omega), if_neg (by omega)] at mem
      exact absurd rfl mem

/-- What lies above HBM is an occupant's or nobody's. -/
theorem paSpot_high {pa : Nat} (high : 0x016000000000 ≤ pa) : (∃ n off, paSpot s pa = .site n off) ∨ paSpot s pa = .srmHole := by
  unfold paSpot
  rw [if_neg (by omega), if_neg (by omega)]
  split
  · exact .inl ⟨_, _, rfl⟩
  · exact .inr rfl

/-- An address that passes is one of memory. -/
theorem spot_of_pass {pa ctx : Nat} (passes : memCheck s pa ctx = .pass g) :
    pa < 0x016000000000 ∧ paSpot s pa ≠ .srmHole ∧ ∀ n off, paSpot s pa ≠ .site n off := by
  unfold memCheck at passes
  have hole : paSpot s pa ≠ .srmHole := fun is => by simp [is] at passes
  have site (n off : Nat) : paSpot s pa ≠ .site n off := fun is => by simp [is] at passes
  refine ⟨?_, hole, site⟩
  by_contra high
  rcases paSpot_high (s := s) (Nat.le_of_not_lt high) with ⟨n, off, is⟩ | is
  · exact site n off is
  · exact hole is

/-- A line passes where one of its bytes does. -/
theorem memCheck_line {pa ctx : Nat} (passes : memCheck s pa ctx = .pass g) : memCheck s (pa / 64 * 64) ctx = .pass g := by
  obtain ⟨low, hole, -⟩ := spot_of_pass passes
  have same := paSpot_line low hole
  unfold memCheck at passes ⊢
  rw [same]
  exact passes

/-- The rest of a request's answer, once its one piece is served. -/
def servedReq (r : Req) (bs : List Byte) (bad : Bool) : Req := { r with gone := true, lines := [], acc := bs, accBad := bad, denied := false }

/-- A request whose pieces are all served is answered. -/
theorem nocPiece_done (req : s.reqOf tag = some r) (served : r.lines = []) (plain : r.use = .plain) :
    nocPiece tag s = ([], pushResp { tag := tag, data := r.acc, poison := r.accBad || r.denied, refused := r.denied } s) := by
  unfold nocPiece finishNoc
  rw [req]
  dsimp only
  rw [served]
  dsimp only
  rw [plain]

/-- A read of one piece at memory that is not coherent. -/
theorem nocPiece_read {a n : Nat} (req : s.reqOf tag = some r) (piece : r.lines = [(a, n)]) (plain : coherent s a = false)
    (passes : memCheck s a r.ctx = .pass g) (none : (s.grp (granGroup g)).inject = 0) (read : r.write = false) :
    nocPiece tag s = ([.noc tag], pieceDone tag (s.mem.read a n) (s.mem.anyBad a n) false s) := by
  unfold nocPiece
  rw [req]
  dsimp only
  rw [piece]
  dsimp only
  rw [if_neg (by simp [plain]), passes]
  dsimp only
  rw [if_neg (by simp [read]), targetRead_clean none]

/-- A write of one piece at memory that is not coherent. -/
theorem nocPiece_write {a n : Nat} (req : s.reqOf tag = some r) (piece : r.lines = [(a, n)]) (plain : coherent s a = false)
    (passes : memCheck s a r.ctx = .pass g) (write : r.write = true) :
    nocPiece tag s = ([.noc tag], pieceDone tag [] false false (memPutBe s g (a / 64 * 64) (pieceData r).1 (pieceData r).2 r.poison)) := by
  unfold nocPiece
  rw [req]
  dsimp only
  rw [piece]
  dsimp only
  rw [if_neg (by simp [plain]), passes]
  dsimp only
  rw [if_pos write]

/-- The request of the home for a piece at a coherent line. -/
def pieceReq (tag : Nat) (r : Req) (a : Nat) : HReq :=
  { op := if r.write then .ncWrite else .rdCur, src := .noc tag, site := none, line := a / 64, ctx := r.ctx, dva := a, part := r.part }

theorem nocPiece_home {a n : Nat} (req : s.reqOf tag = some r) (piece : r.lines = [(a, n)]) (home : coherent s a = true) :
    nocPiece tag s = ([.req (pieceReq tag r a)], s) := by
  unfold nocPiece
  rw [req]
  dsimp only
  rw [piece]
  dsimp only
  rw [if_pos home]
  rfl

/-- A request of the network at an idle line that no site holds is served at once. -/
theorem doWork_piece {a : Nat} (idle : (s.hline (a / 64)).mode = .i) (none : Tab.get none s.home.txns (a / 64) = none) {ws : List Work} {t : State}
    (serves : serveNc (pieceReq tag r a) s = (ws, t)) (still : Tab.get Option.none t.home.txns (a / 64) = Option.none) :
    doWork (.req (pieceReq tag r a)) s = (ws ++ [.drain (a / 64)], t) := by
  have arrives : arriveHome (pieceReq tag r a) s = (ws, t) := by
    rw [← serves]
    unfold arriveHome
    rw [show (pieceReq tag r a).line = a / 64 from rfl, none]
    dsimp only
    unfold serveIdle
    cases write : r.write with
    | true =>
      have op : (pieceReq tag r a).op = .ncWrite := if_pos write
      simp only [op, HOp.caches, Bool.false_eq_true, if_false]
      exact if_pos (by rw [show (pieceReq tag r a).line = a / 64 from rfl, idle]; rfl)
    | false =>
      have op : (pieceReq tag r a).op = .rdCur := if_neg (by simp [write])
      simp only [op, HOp.caches, Bool.false_eq_true, if_false]
      exact if_neg (by rw [show (pieceReq tag r a).line = a / 64 from rfl, idle]; decide)
  unfold doWork
  dsimp only
  rw [arrives]
  dsimp only
  rw [show (pieceReq tag r a).line = a / 64 from rfl, still]
  rfl

/-- A request that is changed in the table is found there as changed. -/
theorem reqOf_modReq {f : Req → Req} (req : s.reqOf tag = some r) (same : ∀ q, (f q).tag = q.tag) : (s.modReq tag f).reqOf tag = some (f r) := by
  have own : r.tag = tag := by simpa using List.find?_some req
  have keeps : (fun q : Req => q.tag == tag) ∘ (fun q => if q.tag == tag then f q else q) = fun q => q.tag == tag := by
    funext q
    simp only [Function.comp]
    split
    · rw [same]
    · rfl
  unfold State.reqOf State.modReq at *
  dsimp only
  rw [List.find?_map, keeps, req]
  simp [own]

/-- The piece of a read at a coherent line takes its bytes of the line. -/
theorem serveNc_read {a n : Nat} (req : s.reqOf tag = some r) (piece : r.lines = [(a, n)]) (within : a % 64 + n ≤ 64) (some_ : 0 < n)
    (passes : memCheck s a r.ctx = .pass g) (none : (s.grp (granGroup g)).inject = 0) (read : r.write = false) (free : s.home.victims = []) :
    ∃ alloc, serveNc (pieceReq tag r a) s =
      ([.noc tag], pieceDone tag (s.mem.read a n) (s.mem.anyBad a n) false { s with home := { s.home with alloc := alloc } }) := by
  obtain ⟨alloc, tidied⟩ := tidySector_quiet free (a / 64)
  have bad : s.mem.anyBad (a / 64 * 64) 64 = s.mem.anyBad a n := by
    unfold Mem.anyBad
    rw [linesOf_within some_ within, linesOf_within (by omega) (by omega), Nat.mul_div_cancel _ (by omega)]
  refine ⟨alloc, ?_⟩
  unfold serveNc
  rw [show (pieceReq tag r a).src = .noc tag from rfl, show (pieceReq tag r a).op = .rdCur from if_neg (by simp [read])]
  dsimp only
  rw [req]
  dsimp only
  rw [if_pos (by rfl : (HOp.rdCur == HOp.rdCur) = true), show (pieceReq tag r a).line = a / 64 from rfl, homeRead_open (memCheck_line passes) none]
  dsimp only
  rw [tidied, piece, List.headD_cons, Mem.read_part _ within, bad, Nat.div_add_mod']
  rfl

/-- The piece of a write at a coherent line that no site holds. -/
theorem serveNc_write {a : Nat} (req : s.reqOf tag = some r) (passes : memCheck s a r.ctx = .pass g) (write : r.write = true)
    (free : s.home.victims = []) :
    ∃ home, home.txns = s.home.txns ∧ home.queue = s.home.queue ∧ home.cohPend = s.home.cohPend ∧ serveNc (pieceReq tag r a) s =
      ([.noc tag], pieceDone tag [] false false
        { memPutBe s g (a / 64 * 64) (pieceData r).1 (pieceData r).2 r.poison with home := home }) := by
  obtain ⟨mem, put⟩ := memPutBe_shape s g (a / 64 * 64) (pieceData r).1 (pieceData r).2 r.poison
  obtain ⟨alloc, tidied⟩ := tidySector_quiet (s := setHLine (a / 64) {} { s with mem := mem }) free (a / 64)
  refine ⟨{ s.home with lines := Tab.set {} s.home.lines (a / 64) {}, alloc := alloc }, rfl, rfl, rfl, ?_⟩
  unfold serveNc
  rw [show (pieceReq tag r a).src = .noc tag from rfl, show (pieceReq tag r a).op = .ncWrite from if_pos write]
  dsimp only
  rw [req]
  dsimp only
  rw [if_neg (by decide), show (pieceReq tag r a).line = a / 64 from rfl, homeWrite_open (memCheck_line passes), put]
  dsimp only
  rw [tidied]
  rfl

theorem runWork_cons (k : Nat) (w : Work) (ws : List Work) (s : State) : runWork (k + 1) (w :: ws) s = runWork k (ws ++ (doWork w s).1) (doWork w s).2 := rfl

theorem runWork_nil (k : Nat) (s : State) : runWork k [] s = s := by cases k <;> rfl

/-- The request of one piece that a packet has brought to memory, and where it may be served. -/
structure AtMemory (tag : Nat) (r : Req) (a n g : Nat) (s : State) : Prop where
  req : s.reqOf tag = some r
  piece : r.lines = [(a, n)]
  passes : memCheck s a r.ctx = .pass g
  plain : r.use = .plain
  fresh : r.acc = [] ∧ r.accBad = false ∧ r.denied = false
  settled : Settled s
  idle : coherent s a = true → (s.hline (a / 64)).mode = .i ∧ Tab.get none s.home.txns (a / 64) = none ∧ s.home.queue = [] ∧ s.home.victims = []

/-- After its one piece the request is answered. -/
theorem piece_answered {u : State} {bs : List Byte} {bad : Bool} (req : u.reqOf tag = some r) (one : r.lines.tail = []) (plain : r.use = .plain)
    (fresh : r.acc = [] ∧ r.accBad = false ∧ r.denied = false) :
    doWork (.noc tag) (pieceDone tag bs bad false u) =
      ([], pushResp { tag := tag, data := bs, poison := bad, refused := false } (pieceDone tag bs bad false u)) := by
  obtain ⟨acc, accBad, denied⟩ := fresh
  have found : (pieceDone tag bs bad false u).reqOf tag = some _ := reqOf_modReq req fun _ => rfl
  have done := nocPiece_done found one plain
  refine done.trans ?_
  simp only [acc, accBad, denied, List.nil_append, Bool.false_or, Bool.or_false]

/-- Work at memory that is over once the request's piece is served. -/
theorem atHome_piece {a n : Nat} {bs : List Byte} {bad : Bool} {u : State} (h : AtMemory tag r a n g s)
    (here : coherent s a = false → nocPiece tag s = ([.noc tag], pieceDone tag bs bad false u))
    (home : coherent s a = true → serveNc (pieceReq tag r a) s = ([.noc tag], pieceDone tag bs bad false u))
    (same : u.noc.reqs = s.noc.reqs) (txns : u.home.txns = s.home.txns) (queue : u.home.queue = s.home.queue) (pend : u.home.cohPend = s.home.cohPend)
    (leaving : u.mem.leaving = s.mem.leaving) :
    atHome [.noc tag] s = pushResp { tag := tag, data := bs, poison := bad, refused := false } (pieceDone tag bs bad false u) := by
  have req : u.reqOf tag = some r := by
    unfold State.reqOf
    rw [same]
    exact h.req
  have answered := piece_answered (bs := bs) (bad := bad) req (by rw [h.piece]; rfl) h.plain h.fresh
  have settled : settleHome (pushResp { tag := tag, data := bs, poison := bad, refused := false } (pieceDone tag bs bad false u)) = _ :=
    settleHome_settled ⟨pend.trans h.settled.1, leaving.trans h.settled.2⟩
  have empty (none_ : s.home.queue = []) :
      (pushResp { tag := tag, data := bs, poison := bad, refused := false } (pieceDone tag bs bad false u)).home.queue = [] := queue.trans none_
  have fuel : homeFuel s = (homeFuel s - 4) + 1 + 1 + 1 + 1 := by unfold homeFuel; omega
  unfold atHome
  rw [fuel]
  by_cases coh : coherent s a = true
  · obtain ⟨mode, free, none_, victims⟩ := h.idle coh
    have first : doWork (.noc tag) s = ([.req (pieceReq tag r a)], s) := nocPiece_home h.req h.piece coh
    have second := doWork_piece (tag := tag) (r := r) mode free (home coh) ((congrArg (Tab.get none · (a / 64)) txns).trans free)
    rw [runWork_cons, first, List.nil_append, runWork_cons, second, List.nil_append, List.singleton_append, runWork_cons, answered, List.append_nil,
      runWork_cons, drain_quiet (empty none_), List.append_nil, runWork_nil, settled]
  · have first : doWork (.noc tag) s = _ := here (by simpa using coh)
    rw [runWork_cons, first, List.nil_append, runWork_cons, answered, List.append_nil, runWork_nil, settled]

/-- A read within a line is answered with the line's bytes. -/
theorem atHome_read {a n : Nat} (h : AtMemory tag r a n g s) (within : a % 64 + n ≤ 64) (some_ : 0 < n) (none : (s.grp (granGroup g)).inject = 0)
    (read : r.write = false) :
    ∃ home, atHome [.noc tag] s = pushResp { tag := tag, data := s.mem.read a n, poison := s.mem.anyBad a n, refused := false }
      (pieceDone tag (s.mem.read a n) (s.mem.anyBad a n) false { s with home := home }) := by
  by_cases coh : coherent s a = true
  · obtain ⟨alloc, served⟩ := serveNc_read h.req h.piece within some_ h.passes none read (h.idle coh).2.2.2
    exact ⟨{ s.home with alloc := alloc }, atHome_piece h (fun plain => absurd plain (by simp [coh])) (fun _ => served) rfl rfl rfl rfl rfl⟩
  · have plain : coherent s a = false := by simpa using coh
    exact ⟨s.home, atHome_piece (u := s) h (fun _ => nocPiece_read h.req h.piece plain h.passes none read) (fun home => absurd home coh) rfl rfl rfl rfl rfl⟩

/-- A write within a line stores its bytes and is acknowledged. -/
theorem atHome_write {a n : Nat} (h : AtMemory tag r a n g s) (write : r.write = true) :
    ∃ home mem, (memPutBe s g (a / 64 * 64) (pieceData r).1 (pieceData r).2 r.poison).mem = mem ∧
      atHome [.noc tag] s = pushResp { tag := tag, data := [], poison := false, refused := false }
        (pieceDone tag [] false false { s with home := home, mem := mem }) := by
  obtain ⟨mem, put⟩ := memPutBe_shape s g (a / 64 * 64) (pieceData r).1 (pieceData r).2 r.poison
  have leaving : mem.leaving = s.mem.leaving := by
    rw [← memPutBe_leaving s g (a / 64 * 64) (pieceData r).1 (pieceData r).2 r.poison, put]
  by_cases coh : coherent s a = true
  · obtain ⟨home, txns, queue, pend, served⟩ := serveNc_write h.req h.passes write (h.idle coh).2.2.2
    rw [put] at served
    exact ⟨home, mem, by rw [put], atHome_piece h (fun plain => absurd plain (by simp [coh])) (fun _ => served) rfl txns queue pend leaving⟩
  · have plain : coherent s a = false := by simpa using coh
    have served := nocPiece_write h.req h.piece plain h.passes write
    rw [put] at served
    exact ⟨s.home, mem, by rw [put], atHome_piece h (fun _ => served) (fun home => absurd home coh) rfl rfl rfl rfl leaving⟩

/-- A request that has reached memory, cut into pieces. -/
def landed (r : Req) : Req := { r with gone := true, lines := pieces r.addr r.len }

/-- A request at memory waits for no occupant. -/
theorem waitsForSite_memory {ctx : Nat} (passes : memCheck s r.addr ctx = .pass g) : waitsForSite s r = false := by
  obtain ⟨-, -, site⟩ := spot_of_pass passes
  have none_ : siteOf s r = none := by
    unfold siteOf
    split
    · next n off is => exact absurd is (site n off)
    · rfl
  unfold waitsForSite
  rw [none_]

/-- A request at memory is brought to the home. -/
theorem serveReq_memory {ctx : Nat} (passes : memCheck s r.addr ctx = .pass g) (off : Nat) :
    serveReq r off .clean s = atHome [.noc r.tag] (s.modReq r.tag landed) := by
  obtain ⟨-, -, site⟩ := spot_of_pass passes
  unfold serveReq
  split
  · next n off is => exact absurd is (site n off)
  · dsimp only
    split
    · next bad => cases bad
    · next bad => cases bad
    · rfl

/-- A request whose packet came out clean is served, and its packet leaves the network. -/
theorem nocRequest_served {p : Packet} {off : Nat} {q : Req} {t : State} (req : s.reqOf tag = some r)
    (arrived : arrivedPacket s tag false = some p) (fresh : Unserved r) (other : ∀ e, r.who ≠ .xfe e) (clean : (s.grp 10).inject = 0)
    (ready : waitsForPut s r = false) (passes : memCheck s r.addr r.ctx = .pass g)
    (served : atHome [.noc r.tag] (s.modReq r.tag landed) = t)
    (found : t.reqOf tag = some q) (gone : q.gone = true) :
    nocRequest r.write tag off .clean .clean s = takePacket p.id t := by
  obtain ⟨stays, host, -, resp, -⟩ := fresh
  have head : headCheck .clean p s = (false, s) := by
    unfold headCheck
    rw [checkEcc_clean clean]
  have serves : (if r.write = true then serveReq { r with poison := r.poison || Ecc.clean == Ecc.uncorrectable } 0 .clean (flitCheck tag .clean s)
      else serveReq r off .clean s) = t := by
    split
    · exact (serveReq_memory (r := { r with poison := r.poison || Ecc.clean == Ecc.uncorrectable }) passes 0).trans served
    · rw [serveReq_memory passes]
      exact served
  unfold nocRequest
  rw [req, arrived]
  dsimp only
  rw [if_neg (by simp [stays, host, resp, ready, waitsForSite_memory passes]), head]
  dsimp only
  rw [if_neg (by decide : ¬false = true), serves, found]
  dsimp only
  rw [if_pos gone]
  split
  · next e is => exact absurd is (other e)
  · rfl

theorem pieces_within {a n : Nat} (some_ : 0 < n) (within : a % 64 + n ≤ 64) : pieces a n = [(a, n)] := by
  unfold pieces
  rw [linesOf_within some_ within]
  simp only [List.map_cons, List.map_nil, List.cons.injEq, Prod.mk.injEq, and_true]
  omega

theorem landed_atMemory (req : s.reqOf tag = some r) (fresh : Unserved r) (plain : r.use = .plain) (passes : memCheck s r.addr r.ctx = .pass g)
    (settled : Settled s) (idle : coherent s r.addr = false ∨ ((s.hline (r.addr / 64)).mode = .i ∧ HomeQuiet (r.addr / 64) s))
    (some_ : 0 < r.len) (within : r.addr % 64 + r.len ≤ 64) : AtMemory tag (landed r) r.addr r.len g (s.modReq tag landed) := by
  obtain ⟨-, -, -, -, acc, accBad, denied⟩ := fresh
  refine ⟨reqOf_modReq req fun _ => rfl, pieces_within some_ within, passes, plain, ⟨acc, accBad, denied⟩, settled, fun coh => ?_⟩
  rcases idle with out | ⟨mode, -, none_, queue, victims, -⟩
  · have coh : coherent s r.addr = true := coh
    rw [out] at coh
    cases coh
  · exact ⟨mode, none_, queue, victims⟩

/-- A request's one piece is its data under its line's enables. -/
theorem pieceData_byte {m : Mem} (some_ : 0 < r.len) (within : r.addr % 64 + r.len ≤ 64) (all : r.be = none) (whole : r.data.length = r.len) (x : Nat) :
    (if r.addr / 64 * 64 ≤ x ∧ x < r.addr / 64 * 64 + (pieceData (landed r)).1.length ∧ (pieceData (landed r)).2.testBit (x - r.addr / 64 * 64) = true
      then (pieceData (landed r)).1.getD (x - r.addr / 64 * 64) 0#8 else m.byte x) =
      if r.addr ≤ x ∧ x < r.addr + r.len then r.data.getD (x - r.addr) 0#8 else m.byte x := by
  have line : r.addr / 64 * 64 + r.addr % 64 = r.addr := Nat.div_add_mod' _ _
  have piece : pieceData (landed r) = (List.replicate (r.addr % 64) 0#8 ++ r.data ++ List.replicate (64 - r.addr % 64 - r.len) 0#8,
      (2 ^ r.len - 1) <<< (r.addr % 64)) := by
    unfold pieceData
    rw [show (landed r).lines = [(r.addr, r.len)] from pieces_within some_ within]
    dsimp only
    rw [show (landed r).be = none from all, show (landed r).addr = r.addr from rfl, show (landed r).data = r.data from rfl,
      show (landed r).len = r.len from rfl, Nat.sub_self, List.drop_zero, List.take_of_length_le (by omega), Option.getD_none, Nat.shiftRight_zero,
      Nat.mod_eq_of_lt (Nat.sub_lt (Nat.two_pow_pos r.len) Nat.zero_lt_one)]
  have bit : ((2 ^ r.len - 1) <<< (r.addr % 64)).testBit (x - r.addr / 64 * 64) = true ↔
      r.addr % 64 ≤ x - r.addr / 64 * 64 ∧ x - r.addr / 64 * 64 - r.addr % 64 < r.len := by
    rw [Nat.testBit_shiftLeft, Nat.testBit_two_pow_sub_one]
    simp
  rw [piece]
  dsimp only
  by_cases inside : r.addr ≤ x ∧ x < r.addr + r.len
  · rw [if_pos inside, if_pos ⟨by omega, by simp; omega, bit.mpr ⟨by omega, by omega⟩⟩, List.append_assoc, List.getD_append_right _ _ _ _ (by simp; omega),
      List.getD_append _ _ _ _ (by simp; omega), List.length_replicate, show x - r.addr / 64 * 64 - r.addr % 64 = x - r.addr by omega]
  · rw [if_neg inside, if_neg]
    rintro ⟨low, -, enabled⟩
    obtain ⟨above, below⟩ := bit.mp enabled
    exact inside ⟨by omega, by omega⟩

/-- A packet whose head is damaged is discarded (R394). -/
theorem nocRequest_dropped {p : Packet} {off : Nat} {ecc : Ecc} (req : s.reqOf tag = some r) (arrived : arrivedPacket s tag false = some p)
    (fresh : Unserved r) (other : ∀ e, r.who ≠ .xfe e) (clean : (s.grp 10).inject = 0) (ready : waitsForPut s r = false) (site : waitsForSite s r = false)
    (groups : Groups s) (calm : Calm 10 s) :
    let t := nocRequest r.write tag off .uncorrectable ecc s
    FaultSet 10 1 t ∧ t.noc.drops = satInc s.noc.drops ∧ t.mem = s.mem ∧ t.noc.resps = s.noc.resps ∧ ∀ q ∈ t.noc.net.pkts, q.id ≠ p.id := by
  obtain ⟨stays, host, -, resp, -⟩ := fresh
  have away : p.resp = false := by
    have := List.find?_some arrived
    simp only [Bool.and_eq_true, beq_iff_eq] at this
    exact this.1.2
  have carries : p.req = tag := by
    have := List.find?_some arrived
    simp only [Bool.and_eq_true, beq_iff_eq] at this
    exact this.1.1
  have head : headCheck .uncorrectable p s = (true, raise 10 1 0 (recordDrop p.at_ p.vn p.vc p.dst (losePacket p s))) := by
    unfold headCheck
    rw [checkEcc_clean clean]
  have lost : ∃ net, losePacket p s = ({ s with noc := { s.noc with net := net } } : State).modReq tag (fun r => { r with gone := true }) := by
    unfold losePacket
    dsimp only
    rw [if_neg (by simp [away]), carries]
    exact ⟨_, rfl⟩
  obtain ⟨net, lost⟩ := lost
  have discarded := reqOf_modReq (s := { s with noc := { s.noc with net := net } }) (f := fun r => { r with gone := true }) req fun _ => rfl
  generalize dropped : recordDrop p.at_ p.vn p.vc p.dst (losePacket p s) = u at head
  rw [lost] at dropped
  have rises : Groups u := by rw [← dropped]; exact groups
  have quiet : Calm 10 u := by rw [← dropped]; exact calm
  have noc : (raise 10 1 0 u).noc = u.noc := Laws.raise_calm_noc rises quiet
  have found : (raise 10 1 0 u).reqOf tag = some { r with gone := true } := by
    unfold State.reqOf
    rw [noc, ← dropped]
    exact discarded
  have runs : nocRequest r.write tag off .uncorrectable ecc s = takePacket p.id (raise 10 1 0 u) := by
    unfold nocRequest
    rw [req, arrived]
    dsimp only
    rw [if_neg (by simp [stays, host, resp, ready, site]), head]
    dsimp only
    rw [if_pos rfl, found]
    dsimp only
    rw [if_pos rfl]
    split
    · next e is => exact absurd is (other e)
    · rfl
  intro t
  rw [show t = takePacket p.id (raise 10 1 0 u) from runs]
  refine ⟨Laws.raise_sets rises (by decide), (congrArg Noc.drops noc).trans ?_, (Laws.raise_calm_mem rises quiet).trans ?_, (congrArg Noc.resps noc).trans ?_,
    fun q mem => by simpa using (List.mem_filter.mp mem).2⟩
  · rw [← dropped]; rfl
  · rw [← dropped]; rfl
  · rw [← dropped]; rfl

end Sys2Proof.Machine

namespace Sys2Proof.Proofs
open Sys2Proof Sys2Proof.Machine Sys2Proof.Safety

/-- Settles O33: the one piece of a request within a line is served at memory or at its idle home, and answered. -/
theorem networkRequests : Obligations.NetworkRequests := by
  unfold Obligations.NetworkRequests
  intro tag s r p canon req arrived fresh other clean
  have groups := groups_of_canon canon
  obtain rfl : r.tag = tag := by simpa using List.find?_some req
  obtain ⟨wf, -⟩ := canon
  refine ⟨fun g plain none_ passes settled idle some_ within => ⟨fun read ready off => ?_, fun write all whole => ?_⟩,
    fun off ecc ready site calm => ?_⟩
  · have here := landed_atMemory req fresh plain passes settled idle some_ within
    obtain ⟨home, served⟩ := atHome_read here within some_ none_ read
    have found : (pieceDone r.tag (s.mem.read r.addr r.len) (s.mem.anyBad r.addr r.len) false { s.modReq r.tag landed with home := home }).reqOf r.tag =
        some _ :=
      reqOf_modReq (s := { s.modReq r.tag landed with home := home }) here.req fun _ => rfl
    have runs := nocRequest_served (off := off) req arrived fresh other clean ready passes served found rfl
    rw [read] at runs
    refine ⟨_, congrArg Host.Outcome.next runs, rfl, rfl, rfl⟩
  · have here := landed_atMemory req fresh plain passes settled idle some_ within
    obtain ⟨home, mem, put, served⟩ := atHome_write here write
    have ready : waitsForPut s r = false := by
      unfold waitsForPut
      split
      · simp [write]
      · next e is => exact absurd is (other e)
      · rfl
    have found : (pieceDone r.tag [] false false { s.modReq r.tag landed with home := home, mem := mem }).reqOf r.tag = some _ :=
      reqOf_modReq (s := { s.modReq r.tag landed with home := home, mem := mem }) here.req fun _ => rfl
    have runs := nocRequest_served (off := 0) req arrived fresh other clean ready passes served found rfl
    rw [write] at runs
    have byte (x : Nat) : mem.byte x = if r.addr ≤ x ∧ x < r.addr + r.len then r.data.getD (x - r.addr) 0#8 else s.mem.byte x := by
      rw [← put, memPutBe_byte (s := s.modReq r.tag landed) wf]
      exact pieceData_byte some_ within all whole x
    refine ⟨_, congrArg Host.Outcome.next runs, rfl, fun i low => ?_, fun a outside => ?_, rfl⟩
    · exact (byte (r.addr + i)).trans ((if_pos ⟨by omega, by omega⟩).trans (by rw [Nat.add_sub_cancel_left]; rfl))
    · exact (byte a).trans (if_neg (by omega))
  · have command : exec (if r.write then .nocWrite r.tag .uncorrectable ecc else .nocRead r.tag off .uncorrectable ecc) s =
        .next (nocRequest r.write r.tag (if r.write then 0 else off) .uncorrectable ecc s) := by
      cases r.write <;> rfl
    exact ⟨_, command, nocRequest_dropped req arrived fresh other clean ready site groups calm⟩

end Sys2Proof.Proofs
end

section
/-! SUPPORT. What the hub says to an occupant: the sites' tables and what is sent change, nothing else. -/
namespace Sys2Proof.Machine
open Sys2Proof Sys2Proof.Safety

/-- Only the sites and what is sent may differ, and nothing is unsent. -/
structure Says (s t : State) : Prop where
  shape : ∃ sites out, t = { s with sites := sites, out := out }
  wf : Tab.wf {} s.sites = true → Tab.wf {} t.sites = true
  sent : ∀ e ∈ s.out, e ∈ t.out

namespace Says
variable {r s t : State}

theorem refl (s : State) : Says s s := ⟨⟨s.sites, s.out, rfl⟩, id, fun _ => id⟩

theorem trans (h : Says r s) (k : Says s t) : Says r t := by
  obtain ⟨sites, out, e⟩ := h.shape
  obtain ⟨sites', out', e'⟩ := k.shape
  exact ⟨⟨sites', out', by rw [e', e]⟩, k.wf ∘ h.wf, fun x mem => k.sent x (h.sent x mem)⟩

theorem ite {p : Prop} [Decidable p] {a b : State} (ha : Says s a) (hb : Says s b) : Says s (if p then a else b) := by
  split <;> assumption

theorem foldl {α : Type} {f : State → α → State} (step : ∀ s a, Says s (f s a)) (l : List α) (s : State) : Says s (l.foldl f s) := by
  induction l generalizing s with
  | nil => exact refl s
  | cons a l ih => exact (step s a).trans (ih _)

theorem emit (s : State) (e : Emit) : Says s (s.emit e) := ⟨⟨s.sites, e :: s.out, rfl⟩, id, fun _ mem => List.mem_cons_of_mem e mem⟩

theorem setSite (s : State) (n : Nat) (x : Site) : Says s (s.setSite n x) :=
  ⟨⟨Tab.set {} s.sites n x, s.out, rfl⟩, fun wf => Tab.wf_set wf n x, fun _ => id⟩

/-- What is said reads of nothing but the sites. -/
theorem home (h : Says s t) : t.home = s.home := by obtain ⟨_, _, e⟩ := h.shape; rw [e]
theorem mem (h : Says s t) : t.mem = s.mem := by obtain ⟨_, _, e⟩ := h.shape; rw [e]
theorem noc (h : Says s t) : t.noc = s.noc := by obtain ⟨_, _, e⟩ := h.shape; rw [e]
theorem flt (h : Says s t) : t.flt = s.flt := by obtain ⟨_, _, e⟩ := h.shape; rw [e]

end Says

variable {s : State}

theorem payCredits_says (n : Nat) (s : State) : Says s (payCredits n s) := by
  unfold payCredits
  dsimp only
  split
  · exact Says.refl s
  · exact (Says.setSite s n _).trans (Says.emit _ _)

theorem giveBack_says (n op len : Nat) (s : State) : Says s (giveBack n op len s) := (Says.setSite s n _).trans (payCredits_says n _)

theorem closeTag_says (n tag : Nat) (s : State) : Says s (closeTag n tag s) := Says.setSite s n _

theorem openTag_says (n op : Nat) (m : GMsg) (s : State) : Says s (openTag n op m s) := Says.setSite s n _

theorem answerGelja_says (n op : Nat) (m : GMsg) (keep : Bool) (s : State) : Says s (answerGelja n op m keep s) := by
  unfold answerGelja
  split
  · exact Says.refl s
  · next q _ =>
    refine ((Says.emit s (.gelja n op m)).trans (giveBack_says n q.1 q.2 _)).trans ?_
    exact Says.ite (Says.refl _) (closeTag_says n _ _)

/-- The answer of an open tag is sent. -/
theorem answerGelja_sent {n op : Nat} {m : GMsg} {keep : Bool} (isOpen : (tagOf (s.site n) m.tag.toNat).isSome = true) :
    Emit.gelja n op m ∈ (answerGelja n op m keep s).out := by
  obtain ⟨r, found⟩ := Option.isSome_iff_exists.mp isOpen
  have said : Emit.gelja n op m ∈ (giveBack n r.1 r.2 (geljaTo n op m s)).out := (giveBack_says n r.1 r.2 _).sent _ List.mem_cons_self
  unfold answerGelja
  rw [found]
  dsimp only
  split
  · exact said
  · exact (closeTag_says n _ _).sent _ said

/-- A tag that a request opens is open. -/
theorem openTag_open (wf : Tab.wf {} s.sites = true) (n op : Nat) (m : GMsg) : (tagOf ((openTag n op m s).site n) m.tag.toNat).isSome = true := by
  have tags : ((openTag n op m s).site n).tags = (s.site n).tags ++ [(m.tag.toNat, op + 256 * m.len.toNat)] :=
    congrArg Site.tags (Tab.get_set_same wf n _)
  unfold tagOf
  rw [tags, Option.isSome_map, List.find?_append]
  simp

theorem sendSnoop_says (op line n : Nat) (s : State) : Says s (sendSnoop op line n s) := by
  unfold sendSnoop
  dsimp only
  split
  · exact Says.setSite s n _
  · refine Says.ite (Says.setSite s n _) ?_
    exact Says.ite ((Says.setSite s n _).trans (Says.emit _ _)) ((Says.setSite s n _).trans (Says.emit _ _))

theorem doneAnswer_says (r : HReq) (refused : Bool) (s : State) : Says s (doneAnswer r refused s) := by
  have say (n : Nat) (op : String) (t : Nat) (s : State) : Says s (s.emit (.cxl n op t r.dva [] false)) := Says.emit s _
  unfold doneAnswer
  split
  · exact answerGelja_says _ _ _ _ _
  · dsimp only
    split
    · exact say _ _ _ _
    · exact (say _ _ _ _).trans (say _ _ _ _)
    · exact (say _ _ _ _).trans (say _ _ _ _)
    · exact say _ _ _ _
  · exact Says.refl s

theorem refresh_sent {e : Emit} (mem : e ∈ s.out) : e ∈ (refresh s).out := (Laws.kept_refresh (Laws.Kept.refl s)).sent.subset mem

end Sys2Proof.Machine
end

section
/-! SUPPORT. A request at an idle line of the home. -/
namespace Sys2Proof.Machine
open Sys2Proof Sys2Proof.Safety

variable {s t : State} {r : HReq} {g e : Nat}

/-- A request at a line with no transaction is served at once, and no work is left of it. -/
theorem atHome_served (free : Tab.get none s.home.txns r.line = none) (serves : serveIdle r s = ([], t)) (queue : t.home.queue = [])
    (settled : Settled t) : atHome [.req r] s = t := by
  have arrives : arriveHome r s = ([], t) := by
    unfold arriveHome
    rw [free]
    exact serves
  have fuel : homeFuel s = (homeFuel s - 2) + 1 + 1 := by unfold homeFuel; omega
  unfold atHome
  rw [fuel, runWork_cons]
  by_cases over_ : (Tab.get none t.home.txns r.line).isNone = true
  · have work : doWork (.req r) s = ([.drain r.line], t) := by
      unfold doWork
      dsimp only
      rw [arrives]
      exact if_pos over_
    rw [work, List.nil_append, runWork_cons, drain_quiet queue, List.append_nil, runWork_nil, settleHome_settled settled]
  · have work : doWork (.req r) s = ([], t) := by
      unfold doWork
      dsimp only
      rw [arrives]
      exact if_neg over_
    rw [work, List.append_nil, runWork_nil, settleHome_settled settled]

/-- The home once a line is granted. -/
def grantedHome (r : HReq) (h : HLine) (alloc : List Nat) (o : Home) : Home :=
  { o with lines := Tab.set {} o.lines r.line h, alloc := alloc, txns := Tab.set none o.txns r.line (some { req := r, wait := .ack, granted := h.mode }) }

theorem allocSector_shape (line : Nat) (s : State) : ∃ alloc, allocSector line s = { s with home := { s.home with alloc := alloc } } := by
  unfold allocSector
  dsimp only
  split
  · exact ⟨s.home.alloc, rfl⟩
  · exact ⟨_, rfl⟩

/-- The state of a line that is granted (R476). -/
def grantedLine (excl : Bool) (e : Nat) (h : HLine) : HLine :=
  if excl then { mode := .x, pres := putBit 0 e true } else { mode := .s, pres := putBit h.pres e true }

theorem grantedLine_mode (excl : Bool) (e : Nat) (h : HLine) : (grantedLine excl e h).mode = if excl then .x else .s := by
  unfold grantedLine
  split <;> rfl

/-- The message that grants a line to a Gelja occupant with its bytes. -/
def grantData (tag ctx line : Nat) (excl : Bool) (m : Mem) : GMsg :=
  { tag := BitVec.ofNat 12 tag, ctx := BitVec.ofNat 10 ctx, state := if excl then 2 else 1, len := 1,
    status := BitVec.ofNat 8 (if m.anyBad (line * 64) 64 then 5 else 0), poison := m.anyBad (line * 64) 64, data := m.read (line * 64) 64 }

/-- A grant with data to a Gelja occupant. -/
theorem grantLine_data {tag : Nat} (site : r.site = some e) (src : r.src = .gelja e tag) (excl : Bool)
    (passes : memCheck s (r.line * 64) r.ctx = .pass g) (none : (s.grp (granGroup g)).inject = 0) :
    ∃ alloc, grantLine r excl true s = answerGelja e 0x22 (grantData tag r.ctx r.line excl s.mem) true
      { s with home := grantedHome r (grantedLine excl e (s.hline r.line)) alloc s.home } := by
  obtain ⟨alloc, made⟩ := allocSector_shape r.line s
  refine ⟨alloc, ?_⟩
  unfold grantLine
  rw [site]
  dsimp only
  simp only [if_true]
  rw [homeRead_open passes none, src]
  dsimp only
  rw [made]
  unfold grantedHome grantData
  rw [grantedLine_mode]
  rfl

/-- A grant without data to a Gelja occupant. -/
theorem grantLine_bare {tag : Nat} (site : r.site = some e) (src : r.src = .gelja e tag) (excl : Bool) :
    ∃ alloc, grantLine r excl false s =
      answerGelja e 0x23 { tag := BitVec.ofNat 12 tag, ctx := BitVec.ofNat 10 r.ctx, state := if excl then 2 else 1 } true
        { s with home := grantedHome r (grantedLine excl e (s.hline r.line)) alloc s.home } := by
  obtain ⟨alloc, made⟩ := allocSector_shape r.line s
  refine ⟨alloc, ?_⟩
  unfold grantLine
  rw [site]
  dsimp only
  simp only [Bool.false_eq_true, if_false]
  rw [src]
  dsimp only
  rw [made]
  unfold grantedHome
  rw [grantedLine_mode]
  rfl

/-- The sites other than the requester that hold a line. -/
def otherHolders (r : HReq) (s : State) : List Nat := (sitesOf (s.hline r.line).pres).filter (fun n => some n != r.site)

theorem mem_sitesOf {m : BitVec 18} {k : Nat} : k ∈ sitesOf m ↔ m.getLsbD k = true := by
  unfold sitesOf bitsOf
  rw [List.mem_filter, List.mem_range, BitVec.testBit_toNat]
  exact ⟨fun h => h.2, fun h => ⟨BitVec.lt_of_getLsbD h, h⟩⟩

/-- A bit of a field after one of its bits was written. -/
theorem getLsbD_putBit {n : Nat} (x : BitVec n) (i j : Nat) (b : Bool) :
    (putBit x i b).getLsbD j = if j = i then b && decide (i < n) else x.getLsbD j := by
  have one : (BitVec.ofNat n (2 ^ i)).getLsbD j = (decide (j < n) && decide (i = j)) := by
    rw [BitVec.getLsbD_ofNat, Nat.testBit_two_pow]
  unfold putBit
  cases b with
  | true =>
    rw [if_pos rfl, BitVec.getLsbD_or, one]
    by_cases same : j = i
    · subst same
      by_cases low : j < n
      · simp [low]
      · simp [low, BitVec.getLsbD_of_ge x j (Nat.le_of_not_lt low)]
    · simp [same, Ne.symm same]
  | false =>
    rw [if_neg (by decide), BitVec.getLsbD_and, BitVec.getLsbD_not, one]
    by_cases same : j = i
    · subst same
      by_cases low : j < n <;> simp [low]
    · by_cases low : j < n
      · simp [same, Ne.symm same, low]
      · simp [same, low, BitVec.getLsbD_of_ge x j (Nat.le_of_not_lt low)]

/-- Nobody but the requester holds the line. -/
theorem otherHolders_none (site : r.site = some e) (mine : ∀ k, (s.hline r.line).pres.getLsbD k = true → k = e) : otherHolders r s = [] := by
  unfold otherHolders
  rw [List.filter_eq_nil_iff]
  intro k listed
  rw [site, mine k (mem_sitesOf.mp listed)]
  simp

/-- A mask of sites has the bits of the sites that it was made of. -/
theorem getLsbD_putBits (l : List Nat) (m : BitVec 18) {k : Nat} (low : k < 18) :
    (l.foldl (fun (m : BitVec 18) n => putBit m n true) m).getLsbD k = (m.getLsbD k || decide (k ∈ l)) := by
  induction l generalizing m with
  | nil => simp
  | cons n l ih =>
    rw [List.foldl_cons, ih, getLsbD_putBit]
    by_cases same : k = n
    · subst same
      simp [low]
    · simp [same]

/-- The sites that are snooped are the holders but for the requester. -/
theorem snooped_mask (site : r.site = some e) :
    (otherHolders r s).foldl (fun (m : BitVec 18) n => putBit m n true) 0 = putBit (s.hline r.line).pres e false := by
  refine BitVec.eq_of_getLsbD_eq fun k low => ?_
  have zero : (0 : BitVec 18).getLsbD k = false := BitVec.getLsbD_zero
  rw [getLsbD_putBits _ _ low, getLsbD_putBit, zero, Bool.false_or]
  unfold otherHolders
  by_cases same : k = e
  · simp [same, site]
  · simp [same, site, mem_sitesOf]

/-- Which requests ask for a copy and find room in the filter, or ask for none (R481). -/
def FindsRoom (r : HReq) (s : State) : Prop := r.op.caches = true → victimOf s r.line = none

theorem serveIdle_victimless (room : FindsRoom r s) : (if r.op.caches then victimOf s r.line else none) = none := by
  split
  · next caches => exact room caches
  · rfl

/-- RD_SHARED at an idle line: granted alone where nobody holds it, shared where it is shared (R476). -/
theorem serveIdle_rdShared (op : r.op = .rdShared) (room : victimOf s r.line = none) (site : r.site = some e) :
    ((s.hline r.line).mode = .i → serveIdle r s = ([], grantLine r true true s)) ∧
    ((s.hline r.line).mode = .s → serveIdle r s = ([], grantLine r false true s)) ∧
    ((s.hline r.line).mode = .x → (s.hline r.line).pres.getLsbD e = false → serveIdle r s = ([], snoopAll r 0x19 (otherHolders r s) s)) := by
  have byMode : serveIdle r s = match (generalizing := false) (s.hline r.line).mode with
      | .i => ([], grantLine r true true s)
      | .s => ([], grantLine r false true s)
      | .x => if (s.hline r.line).pres.getLsbD e then ([], grantLine r true true s) else ([], snoopAll r 0x19 (otherHolders r s) s) := by
    unfold serveIdle otherHolders
    dsimp only
    rw [serveIdle_victimless fun _ => room]
    simp only [op, site] <;> rfl
  refine ⟨fun mode => ?_, fun mode => ?_, fun mode other => ?_⟩
  · rw [byMode, mode]
  · rw [byMode, mode]
  · rw [byMode, mode]
    exact if_neg (by simp [other])

/-- RD_OWN at an idle line: granted where no other site holds it, else the others are snooped. -/
theorem serveIdle_rdOwn (op : r.op = .rdOwn) (room : victimOf s r.line = none) :
    serveIdle r s = if (otherHolders r s).isEmpty then ([], grantLine r true true s) else ([], snoopAll r 0x18 (otherHolders r s) s) := by
  unfold serveIdle
  dsimp only
  rw [serveIdle_victimless fun _ => room]
  simp only [op]
  rfl

theorem serveIdle_rdOwnNoData (op : r.op = .rdOwnNoData) (room : victimOf s r.line = none) :
    serveIdle r s = if (otherHolders r s).isEmpty then ([], grantLine r true false s) else ([], snoopAll r 0x18 (otherHolders r s) s) := by
  unfold serveIdle
  dsimp only
  rw [serveIdle_victimless fun _ => room]
  simp only [op]
  rfl

/-- UPGRADE of the only holder is granted without data. -/
theorem serveIdle_upgrade (op : r.op = .upgrade) (room : victimOf s r.line = none) (site : r.site = some e)
    (holds : (s.hline r.line).pres.getLsbD e = true) (alone : otherHolders r s = []) : serveIdle r s = ([], grantLine r true false s) := by
  unfold serveIdle
  dsimp only
  rw [serveIdle_victimless fun _ => room]
  simp only [op]
  unfold otherHolders at alone
  rw [alone, site]
  dsimp only
  rw [holds]
  rfl

/-- EVICT_CLEAN takes the requester off the line. -/
theorem serveIdle_evictClean (op : r.op = .evictClean) (site : r.site = some e)
    (holds : (s.hline r.line).mode = .x → (s.hline r.line).pres.getLsbD e = true) (free : s.home.victims = []) :
    ∃ alloc, serveIdle r s = ([], doneAnswer r false
      { s with home := { s.home with lines := Tab.set {} s.home.lines r.line (HLine.without (s.hline r.line) e), alloc := alloc } }) := by
  obtain ⟨alloc, tidied⟩ := tidySector_quiet (s := setHLine r.line (HLine.without (s.hline r.line) e) s) free r.line
  refine ⟨alloc, ?_⟩
  unfold serveIdle
  dsimp only
  rw [serveIdle_victimless fun caches => by rw [op] at caches; cases caches]
  simp only [op, site]
  rw [if_neg (by simpa using holds)]
  unfold HLine.without at tidied ⊢
  rw [tidied]
  rfl

/-- WB_DIRTY of the holder writes the line to memory and leaves it to nobody. -/
theorem serveIdle_wbDirty (op : r.op = .wbDirty) (site : r.site = some e) (owned : (s.hline r.line).mode = .x)
    (holds : (s.hline r.line).pres.getLsbD e = true) (free : s.home.victims = []) (passes : memCheck s (r.line * 64) r.ctx = .pass g) :
    ∃ alloc mem, (memPutBe s g (r.line * 64) r.data allBe r.poison).mem = mem ∧ serveIdle r s = ([], doneAnswer r false
      { s with mem := mem, home := { s.home with lines := Tab.set {} s.home.lines r.line {}, alloc := alloc } }) := by
  obtain ⟨mem, put⟩ := memPutBe_shape s g (r.line * 64) r.data allBe r.poison
  obtain ⟨alloc, tidied⟩ := tidySector_quiet (s := setHLine r.line {} { s with mem := mem }) free r.line
  refine ⟨alloc, mem, by rw [put], ?_⟩
  unfold serveIdle
  dsimp only
  rw [serveIdle_victimless fun caches => by rw [op] at caches; cases caches]
  simp only [op, site]
  rw [if_pos (by simp [owned, holds]), homeWrite_open passes, put]
  dsimp only
  rw [tidied]
  rfl

/-- The sites that a request has to wait for are snooped, and the line's transaction waits for their answers. -/
theorem snoopAll_says (r : HReq) (op : Nat) (targets : List Nat) (s : State) :
    ∃ q, q.wait = .snoops ∧ q.snoop = targets.foldl (fun (m : BitVec 18) n => putBit m n true) 0 ∧
      Says { s with home := { s.home with txns := Tab.set none s.home.txns r.line (some q) } } (snoopAll r op targets s) :=
  ⟨{ req := r, wait := .snoops, snoop := targets.foldl (fun (m : BitVec 18) n => putBit m n true) 0 }, rfl, rfl,
    Says.foldl (fun s n => sendSnoop_says op r.line n s) targets _⟩

end Sys2Proof.Machine
end

section
/-! SUPPORT. Messages of a Gelja occupant that reach the home or end a grant. -/
namespace Sys2Proof.Machine
open Sys2Proof Sys2Proof.Safety

variable {s t : State} {n op lo hi pa : Nat} {m : GMsg} {k : CrustClass}

/-- A message that the crust lets through is handled with the address of its line. -/
theorem geljaRequest_entered (entered : Entered n op lo hi k m pa s) (caching : Bool) (only : caching = true → k = .cache)
    (go : Nat → Nat → State → State) : geljaRequest n op lo hi k caching m go s = go (evenOf s n) (pa / 64 * 64) s := by
  obtain ⟨gelja, admitted, owned, ⟨-, fields⟩, config, credit, caches, step, crust⟩ := entered
  have agent : (caching && !(s.site (evenOf s n)).caching) = false := by
    cases caching with
    | true => simp [caches (only rfl)]
    | false => rfl
  unfold geljaRequest
  dsimp only
  rw [if_neg (by simp [gelja]), if_neg (by simp [admitted]), if_neg (by simp [linkUp, admitted]), if_neg (by simp [fields, config, credit, agent]),
    if_neg (by simp [admitted, Option.isSome_iff_ne_none.mp owned]), if_neg (by simp [step]), crust]

/-- The request of the home for a caching message. -/
def cacheHReq (op : HOp) (m : GMsg) (e line : Nat) (s : State) : HReq :=
  { op := op, src := .gelja e m.tag.toNat, site := some e, line := line, ctx := m.ctx.toNat, dva := m.addr.toNat, data := m.data,
    poison := m.poison, part := ((s.site e).owner).getD 0 }

/-- A caching message at a quiet line is served there. -/
theorem geljaRequest_cache {h : HOp} (entered : Entered n op lo hi .cache m pa s) (quiet : HomeQuiet (pa / 64) s)
    (serves : serveIdle (cacheHReq h m (evenOf s n) (pa / 64) s) (openTag (evenOf s n) op m s) = ([], t)) (queue : t.home.queue = []) (settled : Settled t) :
    geljaRequest n op lo hi .cache true m (cacheReq h op m) s = t := by
  obtain ⟨home, free, -⟩ := quiet
  have line : pa / 64 * 64 / 64 = pa / 64 := Nat.mul_div_cancel _ (by omega)
  rw [geljaRequest_entered entered true fun _ => rfl]
  unfold cacheReq
  rw [if_neg (by simp [home]), line]
  exact atHome_served free serves queue settled

/-- An answer of an occupant whose link is up. -/
theorem geljaAnswer_known {known : Site → Bool} {go : Nat → State → State} (gelja : isGelja (s.site (evenOf s n)) = true)
    (up : linkUp (s.site (evenOf s n)) = true) (fields : fieldsOk op lo hi m = true) (knows : known (s.site (evenOf s n)) = true) :
    geljaAnswer n op lo hi m known go s = go (evenOf s n) s := by
  unfold geljaAnswer
  dsimp only
  rw [if_neg (by simp [gelja, up]), if_neg (by simp [fields, knows])]

/-- What a grant leaves: the line with its holders, and a transaction that waits for the occupant. -/
theorem granted_of_home {u v : State} {r : HReq} {h : HLine} {e : Nat} {alloc : List Nat} (home : u.home = grantedHome r h alloc s.home) (site : r.site = some e)
    (same : v.home = u.home) : Granted r.line e h s v := by
  unfold Granted
  rw [same, home]
  exact ⟨rfl, _, rfl, rfl, rfl, site⟩

/-- The message that grants a line with its bytes, in the fields of the request. -/
theorem grantData_fields (m : GMsg) (line : Nat) (excl : Bool) (c : Mem) : grantData m.tag.toNat m.ctx.toNat line excl c =
    { tag := m.tag, ctx := m.ctx, state := BitVec.ofNat 2 (if excl then 2 else 1), len := 1, status := (if c.anyBad (line * 64) 64 then 5 else 0),
      poison := c.anyBad (line * 64) 64, data := c.read (line * 64) 64 } := by
  unfold grantData
  rw [BitVec.ofNat_toNat, BitVec.setWidth_eq, BitVec.ofNat_toNat, BitVec.setWidth_eq]
  cases excl <;> cases c.anyBad (line * 64) 64 <;> rfl

/-- The answer of a request whose tag is open: the home and memory stay, and the occupant hears it. -/
theorem cache_answered {e code : Nat} {a : GMsg} (keep : Bool) {u : State} (sites : Tab.wf {} s.sites = true) (opened : u.sites = (openTag e op m s).sites)
    (own : a.tag = m.tag) (queue : u.home.queue = []) (settled : Settled u) :
    let v := answerGelja e code a keep u
    v.home = u.home ∧ v.mem = u.mem ∧ v.home.queue = [] ∧ Settled v ∧ Emit.gelja e code a ∈ (refresh v).out := by
  have told := answerGelja_says e code a keep u
  have isOpen : (tagOf (u.site e) a.tag.toNat).isSome = true := by
    unfold State.site
    rw [own, opened]
    exact openTag_open sites e op m
  refine ⟨told.home, told.mem, (congrArg Home.queue told.home).trans queue,
    ⟨(congrArg Home.cohPend told.home).trans settled.1, (congrArg Mem.leaving told.mem).trans settled.2⟩, refresh_sent (answerGelja_sent isOpen)⟩

section
variable {hop : HOp} {e line : Nat} (sites : Tab.wf {} s.sites = true) (quiet : HomeQuiet line s)
include sites quiet

/-- A grant with data to an occupant. -/
theorem grant_data_heard (isOpen : LineOpen line m.ctx.toNat s) (excl : Bool) :
    let u := grantLine (cacheHReq hop m e line s) excl true (openTag e op m s)
    u.home.queue = [] ∧ Settled u ∧ Granted line e (grantedLine excl e (s.hline line)) s (refresh u) ∧ (refresh u).mem = s.mem ∧
      Emit.gelja e 0x22 { tag := m.tag, ctx := m.ctx, state := BitVec.ofNat 2 (if excl then 2 else 1), len := 1,
                          status := (if s.mem.anyBad (line * 64) 64 then 5 else 0), poison := s.mem.anyBad (line * 64) 64,
                          data := s.mem.read (line * 64) 64 } ∈ (refresh u).out := by
  obtain ⟨g, passes, clean⟩ := isOpen
  obtain ⟨alloc, made⟩ := grantLine_data (s := openTag e op m s) (r := cacheHReq hop m e line s) rfl rfl excl passes clean
  obtain ⟨-, -, empty, -, calm⟩ := quiet
  intro u
  obtain ⟨home, mem, queue, settled, heard⟩ := cache_answered (op := op) (m := m) (code := 0x22) (a := grantData m.tag.toNat m.ctx.toNat line excl s.mem) true
    (u := { openTag e op m s with home := grantedHome (cacheHReq hop m e line s) (grantedLine excl e (s.hline line)) alloc s.home })
    sites rfl (by rw [grantData_fields]) empty calm
  have is : u = answerGelja e 0x22 (grantData m.tag.toNat m.ctx.toNat line excl s.mem) true
      { openTag e op m s with home := grantedHome (cacheHReq hop m e line s) (grantedLine excl e (s.hline line)) alloc s.home } := made
  rw [is]
  refine ⟨queue, settled, granted_of_home home rfl (refresh_home _), (refresh_mem _).trans mem, ?_⟩
  rw [← grantData_fields]
  exact heard

/-- A grant without data to an occupant. -/
theorem grant_bare_heard (excl : Bool) :
    let u := grantLine (cacheHReq hop m e line s) excl false (openTag e op m s)
    u.home.queue = [] ∧ Settled u ∧ Granted line e (grantedLine excl e (s.hline line)) s (refresh u) ∧ (refresh u).mem = s.mem ∧
      Emit.gelja e 0x23 { tag := m.tag, ctx := m.ctx, state := if excl then 2 else 1 } ∈ (refresh u).out := by
  obtain ⟨alloc, made⟩ := grantLine_bare (s := openTag e op m s) (r := cacheHReq hop m e line s) rfl rfl excl
  obtain ⟨-, -, empty, -, calm⟩ := quiet
  intro u
  obtain ⟨home, mem, queue, settled, heard⟩ := cache_answered (op := op) (m := m) (code := 0x23)
    (a := { tag := m.tag, ctx := m.ctx, state := if excl then 2 else 1 }) true
    (u := { openTag e op m s with home := grantedHome (cacheHReq hop m e line s) (grantedLine excl e (s.hline line)) alloc s.home })
    sites rfl rfl empty calm
  have is : u = answerGelja e 0x23 { tag := m.tag, ctx := m.ctx, state := if excl then 2 else 1 } true
      { openTag e op m s with home := grantedHome (cacheHReq hop m e line s) (grantedLine excl e (s.hline line)) alloc s.home } := by
    refine made.trans ?_
    rw [show (cacheHReq hop m e line s).ctx = m.ctx.toNat from rfl, BitVec.ofNat_toNat, BitVec.setWidth_eq, BitVec.ofNat_toNat, BitVec.setWidth_eq]
    rfl
  rw [is]
  exact ⟨queue, settled, granted_of_home home rfl (refresh_home _), (refresh_mem _).trans mem, heard⟩

omit quiet in
/-- What the home answers a request that leaves it no copy. -/
theorem done_heard {u : State} (opened : u.sites = (openTag e op m s).sites) (queue : u.home.queue = []) (settled : Settled u) :
    let v := doneAnswer (cacheHReq hop m e line s) false u
    v.home = u.home ∧ v.mem = u.mem ∧ v.home.queue = [] ∧ Settled v ∧ Emit.gelja e 4 { tag := m.tag, ctx := m.ctx } ∈ (refresh v).out := by
  have is : doneAnswer (cacheHReq hop m e line s) false u = answerGelja e 4 { tag := m.tag, ctx := m.ctx } false u := by
    unfold doneAnswer
    rw [show (cacheHReq hop m e line s).src = .gelja e m.tag.toNat from rfl, show (cacheHReq hop m e line s).ctx = m.ctx.toNat from rfl]
    dsimp only
    rw [BitVec.ofNat_toNat, BitVec.setWidth_eq, BitVec.ofNat_toNat, BitVec.setWidth_eq]
    rfl
  intro v
  rw [show v = _ from is]
  exact cache_answered false sites opened rfl queue settled

end

/-- Every byte of a line that is written under byte enables. -/
theorem lineWrite_byte (wf : s.mem.wf) {g line be : Nat} {bs : List Byte} (whole : bs.length = 64) {poison : Bool} {c : Mem}
    (put : (memPutBe s g (line * 64) bs be poison).mem = c) :
    (∀ i < 64, c.byte (line * 64 + i) = if be.testBit i then bs.getD i 0 else s.mem.byte (line * 64 + i)) ∧
      ∀ a, a / 64 ≠ line → c.byte a = s.mem.byte a := by
  have byte (x : Nat) := memPutBe_byte wf g (line * 64) bs be poison x
  rw [put, whole] at byte
  refine ⟨fun i low => ?_, fun a outside => ?_⟩
  · rw [byte, Nat.add_sub_cancel_left]
    by_cases on : be.testBit i = true
    · rw [if_pos ⟨by omega, by omega, on⟩, if_pos on]
      rfl
    · rw [if_neg fun h => on h.2.2, if_neg on]
  · rw [byte, if_neg]
    rintro ⟨low, high, -⟩
    omega

/-- Every byte of a line that is written whole. -/
theorem wholeLine_byte (wf : s.mem.wf) {g line : Nat} {bs : List Byte} (whole : bs.length = 64) {poison : Bool} {c : Mem}
    (put : (memPutBe s g (line * 64) bs allBe poison).mem = c) :
    (∀ i < 64, c.byte (line * 64 + i) = bs.getD i 0) ∧ ∀ a, a / 64 ≠ line → c.byte a = s.mem.byte a := by
  obtain ⟨inside, outside⟩ := lineWrite_byte wf whole put
  refine ⟨fun i low => (inside i low).trans (if_pos ?_), outside⟩
  unfold allBe
  rw [Nat.testBit_two_pow_sub_one]
  exact decide_eq_true low

end Sys2Proof.Machine

namespace Sys2Proof.Proofs
open Sys2Proof Sys2Proof.Machine Sys2Proof.Safety

section
variable {n : Fin 18} {m : GMsg} {s : State} {lo hi : Nat}

theorem exec_rdShared (travels : Travels 0x10 lo hi m) :
    exec (.rdShared n m false) s = .next (refresh (geljaRequest n.val 0x10 1 1 .cache true m (cacheReq .rdShared 0x10 m) s)) := by
  show Host.Outcome.next (refresh (rdShared n.val (received 0x10 m) false s)) = _
  rw [travels.1]
  unfold rdShared
  simp only [Bool.false_and, Bool.false_eq_true, if_false]

theorem exec_rdOwn (travels : Travels 0x11 lo hi m) :
    exec (.rdOwn n m) s = .next (refresh (geljaRequest n.val 0x11 1 1 .cache true m (cacheReq .rdOwn 0x11 m) s)) := by
  show Host.Outcome.next (refresh (rdOwn n.val (received 0x11 m) s)) = _
  rw [travels.1]
  rfl

theorem exec_upgrade (travels : Travels 0x12 lo hi m) :
    exec (.upgrade n m) s = .next (refresh (geljaRequest n.val 0x12 0 0 .cache true m (cacheReq .upgrade 0x12 m) s)) := by
  show Host.Outcome.next (refresh (upgrade n.val (received 0x12 m) s)) = _
  rw [travels.1]
  rfl

theorem exec_evictClean (travels : Travels 0x13 lo hi m) :
    exec (.evictClean n m) s = .next (refresh (geljaRequest n.val 0x13 0 0 .cache true m (cacheReq .evictClean 0x13 m) s)) := by
  show Host.Outcome.next (refresh (evictClean n.val (received 0x13 m) s)) = _
  rw [travels.1]
  rfl

theorem exec_wbDirty (travels : Travels 0x14 lo hi m) :
    exec (.wbDirty n m) s = .next (refresh (geljaRequest n.val 0x14 1 1 .cache true m (cacheReq .wbDirty 0x14 m) s)) := by
  show Host.Outcome.next (refresh (wbDirty n.val (received 0x14 m) s)) = _
  rw [travels.1]
  rfl

end

/-- A request of which other sites have to give up a line waits for their answers. -/
theorem snooped_waits {s u v : State} {r : HReq} {op : Nat} {targets : List Nat} (is : u = snoopAll r op targets v) (home : v.home = s.home) (mem : v.mem = s.mem)
    (empty : s.home.queue = []) (calm : Settled s) :
    u.home.queue = [] ∧ Settled u ∧ ∃ q, (refresh u).home.txns = Tab.set none s.home.txns r.line (some q) ∧ q.wait = .snoops ∧
      q.snoop = targets.foldl (fun (m : BitVec 18) n => putBit m n true) 0 ∧ (refresh u).home.lines = s.home.lines ∧ (refresh u).mem = s.mem := by
  obtain ⟨q, wait, snoop, told⟩ := snoopAll_says r op targets v
  rw [← is] at told
  have now : u.home = { s.home with txns := Tab.set none s.home.txns r.line (some q) } := told.home.trans (by rw [home])
  have kept : u.mem = s.mem := told.mem.trans mem
  refine ⟨(congrArg Home.queue now).trans empty, ⟨(congrArg Home.cohPend now).trans calm.1, (congrArg Mem.leaving kept).trans calm.2⟩, q, ?_, wait, snoop, ?_, ?_⟩
  · rw [refresh_home, now]
  · rw [refresh_home, now]
  · rw [refresh_mem, kept]

/-- Settles O41: a caching request at a quiet line is served by the state of its line, and the occupant hears the home's answer. -/
theorem cachingRequests : Obligations.CachingRequests := by
  unfold Obligations.CachingRequests
  intro n m s canon e x
  obtain ⟨wf, -, -, sites, -⟩ := canon
  refine ⟨fun pa => ?_, fun line gelja up travels names waits queue settled => ?_⟩
  · intro line h bad dat quiet
    have quiet' := quiet
    obtain ⟨-, free, empty, victims, calm⟩ := quiet'
    refine ⟨fun isOpen room => ⟨fun entered => ⟨fun mode => ?_, fun mode => ?_⟩, fun entered mine => ?_, fun entered others => ?_, fun entered mode other => ?_,
      fun entered holds mine => ?_⟩, fun entered holds => ?_, fun entered isOpen owned holds whole => ?_⟩
    · obtain ⟨queue, settled, granted, mem, heard⟩ := grant_data_heard (op := 0x10) (m := m) (hop := .rdShared) (e := e) sites quiet isOpen true
      have serves := (serveIdle_rdShared (s := openTag e 0x10 m s) (r := cacheHReq .rdShared m e line s) rfl room rfl).1 mode
      have runs := geljaRequest_cache entered quiet serves queue settled
      exact ⟨_, (exec_rdShared entered.2.2.2.1).trans (congrArg (fun u => Host.Outcome.next (refresh u)) runs), granted, mem, heard⟩
    · obtain ⟨queue, settled, granted, mem, heard⟩ := grant_data_heard (op := 0x10) (m := m) (hop := .rdShared) (e := e) sites quiet isOpen false
      have serves := (serveIdle_rdShared (s := openTag e 0x10 m s) (r := cacheHReq .rdShared m e line s) rfl room rfl).2.1 mode
      have runs := geljaRequest_cache entered quiet serves queue settled
      exact ⟨_, (exec_rdShared entered.2.2.2.1).trans (congrArg (fun u => Host.Outcome.next (refresh u)) runs), granted, mem, heard⟩
    · obtain ⟨queue, settled, granted, mem, heard⟩ := grant_data_heard (op := 0x11) (m := m) (hop := .rdOwn) (e := e) sites quiet isOpen true
      have alone := otherHolders_none (s := openTag e 0x11 m s) (r := cacheHReq .rdOwn m e line s) rfl mine
      have serves := (serveIdle_rdOwn (s := openTag e 0x11 m s) (r := cacheHReq .rdOwn m e line s) rfl room).trans (if_pos (by rw [alone]; rfl))
      have runs := geljaRequest_cache entered quiet serves queue settled
      exact ⟨_, (exec_rdOwn entered.2.2.2.1).trans (congrArg (fun u => Host.Outcome.next (refresh u)) runs), granted, mem, heard⟩
    · obtain ⟨k, -, holds, apart⟩ := others
      have listed : k ∈ otherHolders (cacheHReq .rdOwn m e line s) (openTag e 0x11 m s) :=
        List.mem_filter.mpr ⟨mem_sitesOf.mpr holds, by simpa [cacheHReq] using apart⟩
      have some_ : ¬(otherHolders (cacheHReq .rdOwn m e line s) (openTag e 0x11 m s)).isEmpty = true := by
        rw [List.isEmpty_iff]
        exact List.ne_nil_of_mem listed
      have serves := (serveIdle_rdOwn (s := openTag e 0x11 m s) (r := cacheHReq .rdOwn m e line s) rfl room).trans (if_neg some_)
      obtain ⟨queue, settled, q, txns, wait, snoop, lines, mem⟩ := snooped_waits (s := s) (v := openTag e 0x11 m s) rfl rfl rfl empty calm
      have runs := geljaRequest_cache entered quiet serves queue settled
      exact ⟨_, q, (exec_rdOwn entered.2.2.2.1).trans (congrArg (fun u => Host.Outcome.next (refresh u)) runs), txns, wait,
        snoop.trans (snooped_mask rfl), lines, mem⟩
    · have serves := (serveIdle_rdShared (s := openTag e 0x10 m s) (r := cacheHReq .rdShared m e line s) rfl room rfl).2.2 mode other
      obtain ⟨queue, settled, q, txns, wait, snoop, lines, mem⟩ := snooped_waits (s := s) (v := openTag e 0x10 m s) rfl rfl rfl empty calm
      have runs := geljaRequest_cache entered quiet serves queue settled
      have mask : putBit h.pres e false = h.pres := by
        refine BitVec.eq_of_getLsbD_eq fun k low => ?_
        rw [getLsbD_putBit]
        split
        · next same => rw [same, other, Bool.false_and]
        · rfl
      exact ⟨_, q, (exec_rdShared entered.2.2.2.1).trans (congrArg (fun u => Host.Outcome.next (refresh u)) runs), txns, wait,
        snoop.trans ((snooped_mask rfl).trans mask), lines, mem⟩
    · obtain ⟨queue, settled, granted, mem, heard⟩ := grant_bare_heard (op := 0x12) (m := m) (hop := .upgrade) (e := e) sites quiet true
      have alone := otherHolders_none (s := openTag e 0x12 m s) (r := cacheHReq .upgrade m e line s) rfl mine
      have serves := serveIdle_upgrade (s := openTag e 0x12 m s) (r := cacheHReq .upgrade m e line s) rfl room rfl holds alone
      have runs := geljaRequest_cache entered quiet serves queue settled
      exact ⟨_, (exec_upgrade entered.2.2.2.1).trans (congrArg (fun u => Host.Outcome.next (refresh u)) runs), granted, mem, heard⟩
    · obtain ⟨alloc, serves⟩ := serveIdle_evictClean (s := openTag e 0x13 m s) (r := cacheHReq .evictClean m e line s) rfl rfl holds victims
      obtain ⟨home, mem, queue, settled, heard⟩ := done_heard (op := 0x13) (m := m) (hop := .evictClean) (e := e) (line := line) (s := s) sites
        (u := { openTag e 0x13 m s with home := { s.home with lines := Tab.set {} s.home.lines line (HLine.without h e), alloc := alloc } }) rfl empty calm
      have runs := geljaRequest_cache entered quiet serves queue settled
      exact ⟨_, (exec_evictClean entered.2.2.2.1).trans (congrArg (fun u => Host.Outcome.next (refresh u)) runs),
        (congrArg Home.lines ((refresh_home _).trans home)), (refresh_mem _).trans mem, heard⟩
    · obtain ⟨g, passes, -⟩ := isOpen
      obtain ⟨alloc, c, put, serves⟩ := serveIdle_wbDirty (s := openTag e 0x14 m s) (r := cacheHReq .wbDirty m e line s) rfl rfl owned holds victims passes
      have leaving : c.leaving = s.mem.leaving := by
        rw [← put]
        exact memPutBe_leaving _ _ _ _ _ _
      obtain ⟨home, mem, queue, settled, heard⟩ := done_heard (op := 0x14) (m := m) (hop := .wbDirty) (e := e) (line := line) (s := s) sites
        (u := { openTag e 0x14 m s with mem := c, home := { s.home with lines := Tab.set {} s.home.lines line {}, alloc := alloc } }) rfl empty
        ⟨calm.1, leaving.trans calm.2⟩
      have runs := geljaRequest_cache entered quiet serves queue settled
      obtain ⟨inside, outside⟩ := wholeLine_byte (s := openTag e 0x14 m s) wf whole put
      refine ⟨_, (exec_wbDirty entered.2.2.2.1).trans (congrArg (fun u => Host.Outcome.next (refresh u)) runs),
        (congrArg Home.lines ((refresh_home _).trans home)), fun i low => ?_, fun a away => ?_, heard⟩
      · exact (congrArg (fun c : Mem => c.byte (line * 64 + i)) ((refresh_mem _).trans mem)).trans (inside i low)
      · exact (congrArg (fun c : Mem => c.byte a) ((refresh_mem _).trans mem)).trans (outside a away)
  · have runs : exec (.ack n m) s = .next (refresh (grantAcked e line (closeTag e m.tag.toNat s))) := by
      show Host.Outcome.next (refresh (ack n.val (received 0x24 m) s)) = _
      rw [travels.1]
      unfold Machine.ack
      rw [geljaAnswer_known gelja up travels.2 (by rw [show evenOf s n.val = e from rfl, names]; rfl), show evenOf s n.val = e from rfl, names]
    have tags : ((closeTag e m.tag.toNat s).site e).tags = x.tags.filter (fun u => u.1 != m.tag.toNat) := congrArg Site.tags (Tab.get_set_same sites e _)
    refine ⟨_, runs, ?_⟩
    rw [refresh_home, refresh_mem, refresh_site]
    cases found : Tab.get none s.home.txns line with
    | none =>
      have stays : grantAcked e line (closeTag e m.tag.toNat s) = closeTag e m.tag.toNat s := by
        unfold grantAcked
        rw [show Tab.get none (closeTag e m.tag.toNat s).home.txns line = none from found]
      rw [stays]
      exact ⟨fun some_ => absurd rfl some_, rfl, rfl, tags⟩
    | some q =>
      obtain ⟨wait, site⟩ := waits q found
      have closes : grantAcked e line (closeTag e m.tag.toNat s) = closeTxn line (closeTag e m.tag.toNat s) := by
        unfold grantAcked
        rw [show Tab.get none (closeTag e m.tag.toNat s).home.txns line = some q from found]
        dsimp only
        rw [if_pos (by simp [wait, site])]
        exact atHome_drain (s := closeTxn line (closeTag e m.tag.toNat s)) queue settled line
      rw [closes]
      exact ⟨fun _ => rfl, rfl, rfl, tags⟩

end Sys2Proof.Proofs
end


section
/-! SUPPORT. Answers to a snoop, at the site and at the home. -/
namespace Sys2Proof.Machine
open Sys2Proof Sys2Proof.Safety

variable {s : State} {e line tag : Nat} {q : HTxn} {st : Option Nat} {data : Option (List Byte × Bool)}

/-- A site after its answer to a snoop: the snoop is no longer open. -/
def snoopClosed (e tag : Nat) (s : State) : State := s.setSite e { s.site e with snoops := (s.site e).snoops.filter (fun k => k.1 != tag) }

/-- The data that came with an answer is written to the line. -/
def snoopData (e line : Nat) (data : Option (List Byte × Bool)) (s : State) : State :=
  data.elim s fun d => (homeWrite (snoopAddr (s.site e) line).2 line d.1 allBe d.2 s).2

/-- An answer that names an open snoop, at a site with no snoop queued. -/
theorem snoopAnswered_known (sites : Tab.wf {} s.sites = true) (names : (s.site e).snoops.find? (fun k => k.1 == tag) = some (tag, line))
    (idle : (s.site e).snpQ = []) (wbp : Bool) :
    snoopAnswered e tag st wbp data s = answerSnoop e line wbp (snoopState e line st (snoopData e line data (snoopClosed e tag s))) := by
  have quiet : (((s.modSite e (fun t => { t with snoops := t.snoops.filter (fun x => x.1 != tag) })).site e).snpQ).isEmpty = true :=
    List.isEmpty_iff.mpr ((congrArg Site.snpQ (Tab.get_set_same sites e _)).trans idle)
  unfold snoopAnswered
  rw [names]
  dsimp only
  rw [if_pos quiet]
  cases data <;> rfl

/-- The site of a snoop that it has answered. -/
theorem snoopClosed_snoops (sites : Tab.wf {} s.sites = true) (e tag : Nat) :
    ((snoopClosed e tag s).site e).snoops = (s.site e).snoops.filter (fun k => k.1 != tag) :=
  congrArg Site.snoops (Tab.get_set_same sites e _)

/-- The window of a site by which its lines are told is not changed by its answer. -/
theorem snoopAddr_closed (sites : Tab.wf {} s.sites = true) (e tag line : Nat) : snoopAddr ((snoopClosed e tag s).site e) line = snoopAddr (s.site e) line := by
  rw [show (snoopClosed e tag s).site e = _ from Tab.get_set_same sites e _]
  rfl

/-- What an answer that names a state leaves of the line's holders. -/
theorem snoopState_inv (holds : (s.hline line).pres.getLsbD e = true) (txn : Tab.get none s.home.txns line = some q)
    (gone : (q.req.op ≠ .rdShared ∧ q.req.op ≠ .rdCur) ∨ st = some 0) :
    snoopState e line st s = setHLine line (HLine.without (s.hline line) e) s := by
  unfold snoopState
  dsimp only
  rw [txn, if_neg (by simp [holds])]
  dsimp only
  refine if_pos ?_
  obtain ⟨other, current⟩ | zero := gone
  · cases op : q.req.op <;> simp_all
  · simp [zero]

theorem snoopState_shared (holds : (s.hline line).pres.getLsbD e = true) (txn : Tab.get none s.home.txns line = some q)
    (stays : q.req.op = .rdShared ∨ q.req.op = .rdCur) : snoopState e line (some 1) s = setHLine line { s.hline line with mode := .s } s := by
  unfold snoopState
  dsimp only
  rw [txn, if_neg (by simp [holds])]
  dsimp only
  obtain op | op := stays <;> simp only [op] <;> rfl

theorem snoopState_kept (txn : Tab.get none s.home.txns line = some q) (stays : q.req.op = .rdShared ∨ q.req.op = .rdCur) :
    snoopState e line (some 2) s = s := by
  unfold snoopState
  dsimp only
  rw [txn]
  dsimp only
  obtain op | op := stays <;> simp only [op] <;> exact ite_self _

/-- Whatever state an answer names, only the home's lines change. -/
theorem snoopState_shape (e line : Nat) (st : Option Nat) (s : State) : ∃ lines, snoopState e line st s = { s with home := { s.home with lines := lines } } := by
  unfold snoopState
  dsimp only
  exact Laws.ite_cases (P := fun t => ∃ lines, t = { s with home := { s.home with lines := lines } }) (fun _ => ⟨s.home.lines, rfl⟩) fun _ =>
    Laws.ite_cases (P := fun t => ∃ lines, t = { s with home := { s.home with lines := lines } }) (fun _ => ⟨_, rfl⟩) fun _ =>
    Laws.ite_cases (P := fun t => ∃ lines, t = { s with home := { s.home with lines := lines } }) (fun _ => ⟨_, rfl⟩) fun _ => ⟨s.home.lines, rfl⟩

/-- A transaction that one site fewer has to answer. -/
def oneAnswered (e : Nat) (q : HTxn) : HTxn := { q with snoop := putBit q.snoop e false, wbp := putBit q.wbp e false }

/-- The home counts off an answer while others are missing. -/
theorem answerSnoop_more (txn : Tab.get none s.home.txns line = some q) (wait : q.wait = .snoops) (asked : q.snoop.getLsbD e = true)
    (more : putBit q.snoop e false ≠ 0) : answerSnoop e line false s = openTxn line (oneAnswered e q) s := by
  unfold answerSnoop
  rw [txn]
  dsimp only
  rw [if_neg (by simp [wait, asked])]
  exact if_neg fun h => more h.1

/-- The last answer to a back-invalidation ends it. -/
theorem answerSnoop_last {why : Nat} (txn : Tab.get none s.home.txns line = some q) (wait : q.wait = .snoops) (asked : q.snoop.getLsbD e = true)
    (last : putBit q.snoop e false = 0) (written : putBit q.wbp e false = 0) (op : q.req.op = .backInval why) (names : q.req.line = line)
    (queue : s.home.queue = []) (victims : s.home.victims = []) (settled : Settled s) :
    ∃ alloc, answerSnoop e line false s =
      { s with home := { s.home with txns := Tab.set none s.home.txns line none, alloc := alloc } } := by
  obtain ⟨alloc, tidied⟩ := tidySector_quiet (s := closeTxn line s) victims line
  refine ⟨alloc, ?_⟩
  have after : afterSnoops q.req (closeTxn line s) = tidySector line (closeTxn line s) := by
    unfold afterSnoops
    dsimp only
    rw [op, names]
  unfold answerSnoop
  rw [txn]
  dsimp only
  rw [if_neg (by simp [wait, asked])]
  simp only [Bool.false_and, Bool.false_eq_true, if_false]
  rw [if_pos ⟨last, written⟩, after, tidied]
  dsimp only
  rw [List.nil_append]
  refine atHome_drain ?_ ⟨?_, ?_⟩ line
  · exact queue
  · exact settled.1
  · exact settled.2

/-- An answer with no data, while others are missing. -/
theorem snoopAnswered_bare (sites : Tab.wf {} s.sites = true) (names : (s.site e).snoops.find? (fun k => k.1 == tag) = some (tag, line))
    (idle : (s.site e).snpQ = []) (txn : Tab.get none s.home.txns line = some q) (wait : q.wait = .snoops) (asked : q.snoop.getLsbD e = true)
    (more : putBit q.snoop e false ≠ 0) :
    snoopAnswered e tag st false none s = openTxn line (oneAnswered e q) (snoopState e line st (snoopClosed e tag s)) := by
  rw [snoopAnswered_known sites names idle]
  obtain ⟨lines, is⟩ := snoopState_shape e line st (snoopClosed e tag s)
  refine answerSnoop_more ?_ wait asked more
  rw [show snoopData e line none (snoopClosed e tag s) = snoopClosed e tag s from rfl, is]
  exact txn

/-- An answer with data, while others are missing: the data is written to the line. -/
theorem snoopAnswered_data (wf : s.mem.wf) (sites : Tab.wf {} s.sites = true)
    (names : (s.site e).snoops.find? (fun k => k.1 == tag) = some (tag, line)) (idle : (s.site e).snpQ = [])
    (txn : Tab.get none s.home.txns line = some q) (wait : q.wait = .snoops) (asked : q.snoop.getLsbD e = true) (more : putBit q.snoop e false ≠ 0)
    (isOpen : LineOpen line (snoopAddr (s.site e) line).2 s) {bs : List Byte} {poison : Bool} (whole : bs.length = 64) :
    let u := snoopAnswered e tag st false (some (bs, poison)) s
    (u.site e).snoops = (s.site e).snoops.filter (fun k => k.1 != tag) ∧ (∀ i < 64, u.mem.byte (line * 64 + i) = bs.getD i 0) ∧
      ∀ a, a / 64 ≠ line → u.mem.byte a = s.mem.byte a := by
  obtain ⟨g, passes, -⟩ := isOpen
  obtain ⟨c, put⟩ := memPutBe_shape (snoopClosed e tag s) g (line * 64) bs allBe poison
  have writes : snoopData e line (some (bs, poison)) (snoopClosed e tag s) = { snoopClosed e tag s with mem := c } := by
    unfold snoopData
    dsimp only [Option.elim]
    rw [snoopAddr_closed sites, homeWrite_open (s := snoopClosed e tag s) passes, put]
  obtain ⟨lines, is⟩ := snoopState_shape e line st { snoopClosed e tag s with mem := c }
  have runs : snoopAnswered e tag st false (some (bs, poison)) s =
      openTxn line (oneAnswered e q) { snoopClosed e tag s with mem := c, home := { s.home with lines := lines } } := by
    rw [snoopAnswered_known sites names idle, writes, is]
    exact answerSnoop_more txn wait asked more
  rw [runs]
  obtain ⟨inside, outside⟩ := wholeLine_byte (s := snoopClosed e tag s) wf whole (congrArg State.mem put)
  exact ⟨snoopClosed_snoops sites e tag, inside, outside⟩

theorem snoopLate_ack {n : Nat} (txn : Tab.get none s.home.txns line = some q) (wait : q.wait = .ack) (site : q.req.site = some n)
    (up : (s.site n).state ≠ .retrain) (queue : s.home.queue = []) (victims : s.home.victims = []) (settled : Settled s) :
    ∃ alloc sites, snoopLate n line s = raise 16 3 n
      { dropHolder n line s with sites := sites, home := { s.home with lines := (dropHolder n line s).home.lines,
                                                                       txns := Tab.set none s.home.txns line none, alloc := alloc } } := by
  have drops : ∃ lines c, dropHolder n line s = { s with home := { s.home with lines := lines }, mem := c } ∧ c.leaving = s.mem.leaving := by
    unfold dropHolder
    dsimp only
    exact Laws.ite_cases (P := fun t => ∃ lines c, t = { s with home := { s.home with lines := lines }, mem := c } ∧ c.leaving = s.mem.leaving)
      (fun _ => Laws.ite_cases (P := fun t => ∃ lines c, t = { s with home := { s.home with lines := lines }, mem := c } ∧ c.leaving = s.mem.leaving)
        (fun _ => ⟨_, _, rfl, rfl⟩) fun _ => ⟨_, s.mem, rfl, rfl⟩) fun _ => ⟨s.home.lines, s.mem, rfl, rfl⟩
  obtain ⟨lines, c, dropped, leaving⟩ := drops
  have ends (sites : Tab Site) : ∃ alloc,
      atHome ((tidySector line (closeTxn line { s with home := { s.home with lines := lines }, mem := c, sites := sites })).1 ++ [.drain line])
        (tidySector line (closeTxn line { s with home := { s.home with lines := lines }, mem := c, sites := sites })).2 =
      { s with home := { s.home with lines := lines, txns := Tab.set none s.home.txns line none, alloc := alloc }, mem := c, sites := sites } := by
    obtain ⟨alloc, tidied⟩ := tidySector_quiet (s := closeTxn line { s with home := { s.home with lines := lines }, mem := c, sites := sites }) victims line
    refine ⟨alloc, ?_⟩
    rw [tidied, List.nil_append]
    refine atHome_drain ?_ ⟨?_, ?_⟩ line
    · exact queue
    · exact settled.1
    · exact leaving.trans settled.2
  unfold snoopLate
  rw [txn]
  dsimp only
  rw [wait, site, if_neg (by simp [up]), dropped]
  dsimp only
  cases src : q.req.src with
  | gelja k tg =>
    obtain ⟨alloc, done⟩ := ends _
    exact ⟨alloc, _, congrArg (raise 16 3 n) done⟩
  | cxl k tg o =>
    obtain ⟨alloc, done⟩ := ends _
    exact ⟨alloc, _, congrArg (raise 16 3 n) done⟩
  | noc k =>
    obtain ⟨alloc, done⟩ := ends _
    exact ⟨alloc, _, congrArg (raise 16 3 n) done⟩
  | self =>
    obtain ⟨alloc, done⟩ := ends _
    exact ⟨alloc, _, congrArg (raise 16 3 n) done⟩

end Sys2Proof.Machine

namespace Sys2Proof.Proofs
open Sys2Proof Sys2Proof.Machine Sys2Proof.Safety

section
variable {n : Fin 18} {m : GMsg} {s : State} {line : Nat}

/-- An answer to a snoop that names the snoop's tag. -/
theorem exec_snpRsp (gelja : isGelja (s.site (evenOf s n.val)) = true) (up : linkUp (s.site (evenOf s n.val)) = true) (travels : Travels 0x20 0 0 m)
    (names : (s.site (evenOf s n.val)).snoops.find? (fun k => k.1 == m.tag.toNat) = some (m.tag.toNat, line)) :
    exec (.snpRsp n m) s = .next (refresh (snoopAnswered (evenOf s n.val) m.tag.toNat (some m.state.toNat) m.wbp none s)) := by
  show Host.Outcome.next (refresh (snpRsp n.val (received 0x20 m) s)) = _
  rw [travels.1]
  unfold snpRsp
  rw [geljaAnswer_known gelja up travels.2 (List.any_eq_true.mpr ⟨_, List.mem_of_find?_eq_some names, by simp⟩)]

theorem exec_snpRspData (gelja : isGelja (s.site (evenOf s n.val)) = true) (up : linkUp (s.site (evenOf s n.val)) = true) (travels : Travels 0x21 1 1 m)
    (names : (s.site (evenOf s n.val)).snoops.find? (fun k => k.1 == m.tag.toNat) = some (m.tag.toNat, line)) :
    exec (.snpRspData n m) s =
      .next (refresh (snoopAnswered (evenOf s n.val) m.tag.toNat (some m.state.toNat) false (some (m.data, m.poison)) s)) := by
  show Host.Outcome.next (refresh (snpRspData n.val (received 0x21 m) s)) = _
  rw [travels.1]
  unfold snpRspData
  rw [geljaAnswer_known gelja up travels.2 (List.any_eq_true.mpr ⟨_, List.mem_of_find?_eq_some names, by simp⟩)]

end

/-- Settles O42: an answer is counted off and leaves the line as it says; an acknowledgement that is missing too long removes the site. -/
theorem snoopAnswers : Obligations.SnoopAnswers := by
  unfold Obligations.SnoopAnswers
  intro n m s line q canon settled txn e x
  have groups := groups_of_canon canon
  obtain ⟨wf, -, -, sites, -⟩ := canon
  refine ⟨fun gelja up names wait asked holds idle => ?_, fun wait site up queue victims calm => ?_⟩
  · intro inv
    refine ⟨fun more travels bare => ?_, fun more travels isOpen whole => ?_, fun last written own queue victims back travels bare => ?_⟩
    · have runs := exec_snpRsp gelja up travels names
      rw [bare, snoopAnswered_bare sites names idle txn wait asked more] at runs
      obtain ⟨lines, is⟩ := snoopState_shape e line (some m.state.toNat) (snoopClosed e m.tag.toNat s)
      refine ⟨_, runs, ?_, ?_, ?_, fun gone => ?_, fun stays shared => ?_, fun stays kept => ?_⟩
      · rw [refresh_site, is]
        exact snoopClosed_snoops sites e _
      · rw [refresh_mem, is]
        rfl
      · rw [refresh_home, is]
        rfl
      · rw [refresh_home, snoopState_inv (s := snoopClosed e m.tag.toNat s) (q := q) holds txn (gone.imp id fun zero => congrArg (fun k : BitVec 2 => some k.toNat) zero)]
        rfl
      · rw [refresh_home, shared, show ((1 : BitVec 2).toNat) = 1 from rfl, snoopState_shared (s := snoopClosed e m.tag.toNat s) (q := q) holds txn ?_]
        · rfl
        · by_contra other
          exact stays ⟨fun h => other (.inl h), fun h => other (.inr h)⟩
      · rw [refresh_home, kept, show ((2 : BitVec 2).toNat) = 2 from rfl, snoopState_kept (s := snoopClosed e m.tag.toNat s) (q := q) txn ?_]
        · rfl
        · by_contra other
          exact stays ⟨fun h => other (.inl h), fun h => other (.inr h)⟩
    · obtain ⟨snoops, inside, outside⟩ := snoopAnswered_data (st := some m.state.toNat) (poison := m.poison) wf sites names idle txn wait asked more isOpen whole
      refine ⟨_, exec_snpRspData gelja up travels names, ?_⟩
      rw [refresh_site, refresh_mem]
      exact ⟨snoops, inside, outside⟩
    · obtain ⟨why, op⟩ := back
      have gone := snoopState_inv (st := some m.state.toNat) (s := snoopClosed e m.tag.toNat s) (e := e) (line := line) holds txn
        (.inl ⟨by rw [op]; exact HOp.noConfusion, by rw [op]; exact HOp.noConfusion⟩)
      obtain ⟨alloc, ends⟩ := answerSnoop_last (s := setHLine line (HLine.without (s.hline line) e) (snoopClosed e m.tag.toNat s)) txn wait asked last written
        op own queue victims settled
      have runs := exec_snpRsp gelja up travels names
      rw [bare, snoopAnswered_known sites names idle, show snoopData e line none (snoopClosed e m.tag.toNat s) = snoopClosed e m.tag.toNat s from rfl,
        gone, show (snoopClosed e m.tag.toNat s).hline line = s.hline line from rfl, ends] at runs
      refine ⟨_, runs, ?_⟩
      rw [refresh_home, refresh_mem]
      exact ⟨rfl, rfl, rfl⟩
  · obtain ⟨alloc, moved, late⟩ := snoopLate_ack txn wait site up queue victims settled
    have kept : (dropHolder n.val line s).flt = s.flt := by
      unfold dropHolder
      dsimp only
      exact Laws.ite_cases (P := fun t : State => t.flt = s.flt) (fun _ => Laws.ite_cases (P := fun t : State => t.flt = s.flt) (fun _ => rfl) fun _ => rfl) fun _ => rfl
    generalize before : ({ dropHolder n.val line s with sites := moved, home := _ } : State) = u at late
    have flt : u.flt = s.flt := by
      rw [← before]
      exact kept
    have same : Groups u := groups_of_flt flt groups
    have still : Calm 16 u := calm_keeps flt calm
    have runs : exec (.snoopTimeout n line) s = .next (refresh (raise 16 3 n.val u)) := congrArg (fun t => Host.Outcome.next (refresh t)) late
    refine ⟨_, runs, ?_, ?_⟩
    · exact faultSet_keeps (refresh_groups _) (Laws.raise_sets same (by decide))
    · rw [refresh_home, refresh_mem, Laws.raise_calm_home same still, Laws.raise_calm_mem same still, ← before]
      exact ⟨rfl, rfl, rfl⟩

end Sys2Proof.Proofs
end


section
/-! SUPPORT. CXL.cache requests at the home. -/
namespace Sys2Proof.Machine
open Sys2Proof Sys2Proof.Safety

variable {s t : State} {n o e line pa : Nat} {m : CxlMsg} {k : CrustClass} {r : HReq} {op : HOp}

/-- A CXL message that the crust lets through is handled with the address of its line. -/
theorem cxlRequest_entered (compute : (s.site (evenOf s n)).cls = 2) (entered : CxlEntered n k m pa s) (no : Nat → State → State)
    (go : Nat → Nat → State → State) : cxlRequest n k m no go s = go (evenOf s n) (pa / 64 * 64) s := by
  obtain ⟨cxl, admitted, owned, crust⟩ := entered
  rw [if_neg (by rw [compute]; decide)] at crust
  unfold cxlRequest
  dsimp only
  rw [if_neg (by simp [cxl]), if_neg (by simp [admitted]), if_neg (by simp [admitted]), if_neg (by simp [admitted, Option.isSome_iff_ne_none.mp owned]),
    if_neg (by rw [compute]; decide), crust]

/-- The request of the home for a CXL.cache message. -/
def cxlHReq (op : HOp) (o : Nat) (m : CxlMsg) (e line : Nat) (s : State) : HReq :=
  { op := op, src := .cxl e m.tag.toNat o, site := some e, line := line, ctx := defaultCtx (s.site e), dva := m.addr.toNat,
    data := m.data, be := m.be, poison := m.poison, part := (s.site e).owner.getD 0 }

theorem cxlHome_line (op : HOp) (o : Nat) (m : CxlMsg) (e pa : Nat) (s : State) : cxlHome op o m e (pa / 64 * 64) s = cxlHReq op o m e (pa / 64) s := by
  unfold cxlHome cxlHReq
  rw [Nat.mul_div_cancel _ (by omega)]

/-- A CXL.cache message at a quiet line is served there. -/
theorem cxlCache_served (compute : (s.site (evenOf s n)).cls = 2) (entered : CxlEntered n .cache m pa s) (quiet : HomeQuiet (pa / 64) s)
    (no : Nat → State → State) (serves : serveIdle (cxlHReq op o m (evenOf s n) (pa / 64) s) s = ([], t)) (queue : t.home.queue = []) (settled : Settled t) :
    cxlRequest n .cache m no (cxlCache op o m no) s = t := by
  obtain ⟨home, free, -⟩ := quiet
  rw [cxlRequest_entered compute entered]
  unfold cxlCache
  rw [if_pos home, cxlHome_line]
  exact atHome_served free serves queue settled

/-- A grant to a CXL occupant, of which the occupant has not taken note yet. -/
def cxlGrant (r : HReq) (excl : Bool) (tag : Nat) (bs : List Byte) (bad : Bool) (alloc : List Nat) (e : Nat) (s : State) : State :=
  ({ s with sites := Tab.set {} s.sites e { s.site e with goWait := (s.site e).goWait ++ [(tag, r.line)] },
            home := grantedHome r (grantedLine excl e (s.hline r.line)) alloc s.home } : State).emit
    (.cxl e (if excl then "GO-E" else "GO-S") tag r.dva bs bad)

/-- A grant with data to a CXL occupant. -/
theorem grantLine_cxlData {tag g : Nat} (site : r.site = some e) (src : r.src = .cxl e tag o) (excl : Bool)
    (passes : memCheck s (r.line * 64) r.ctx = .pass g) (none : (s.grp (granGroup g)).inject = 0) :
    ∃ alloc, grantLine r excl true s = cxlGrant r excl tag (s.mem.read (r.line * 64) 64) (s.mem.anyBad (r.line * 64) 64) alloc e s := by
  obtain ⟨alloc, made⟩ := allocSector_shape r.line s
  refine ⟨alloc, ?_⟩
  unfold grantLine
  rw [site]
  dsimp only
  simp only [if_true]
  rw [homeRead_open passes none, src]
  dsimp only
  rw [made]
  unfold cxlGrant grantedHome
  rw [grantedLine_mode]
  rfl

/-- A grant without data to a CXL occupant. -/
theorem grantLine_cxlBare {tag : Nat} (site : r.site = some e) (src : r.src = .cxl e tag o) (excl : Bool) :
    ∃ alloc, grantLine r excl false s = cxlGrant r excl tag [] false alloc e s := by
  obtain ⟨alloc, made⟩ := allocSector_shape r.line s
  refine ⟨alloc, ?_⟩
  unfold grantLine
  rw [site]
  dsimp only
  simp only [Bool.false_eq_true, if_false]
  rw [src]
  dsimp only
  rw [made]
  unfold cxlGrant grantedHome
  rw [grantedLine_mode]
  rfl

/-- What a grant to a CXL occupant leaves. -/
theorem cxlGrant_leaves (sites : Tab.wf {} s.sites = true) (quiet : HomeQuiet line s) (excl : Bool) (bs : List Byte) (bad : Bool) (alloc : List Nat) :
    let u := cxlGrant (cxlHReq op o m e line s) excl m.tag.toNat bs bad alloc e s
    u.home.queue = [] ∧ Settled u ∧ Granted line e (grantedLine excl e (s.hline line)) s (refresh u) ∧
      Emit.cxl e (if excl then "GO-E" else "GO-S") m.tag.toNat m.addr.toNat bs bad ∈ (refresh u).out ∧
      ((refresh u).site e).goWait = (s.site e).goWait ++ [(m.tag.toNat, line)] ∧ (refresh u).mem = s.mem := by
  obtain ⟨-, -, empty, -, calm⟩ := quiet
  intro u
  have goWait : (u.site e).goWait = (s.site e).goWait ++ [(m.tag.toNat, line)] := congrArg Site.goWait (Tab.get_set_same sites e _)
  refine ⟨empty, calm, granted_of_home (r := cxlHReq op o m e line s) rfl rfl (refresh_home u), refresh_sent List.mem_cons_self, ?_, refresh_mem u⟩
  rw [refresh_site]
  exact goWait

variable (sites : Tab.wf {} s.sites = true) (quiet : HomeQuiet line s)
include sites quiet

theorem cxlGrant_data_heard (isOpen : LineOpen line (defaultCtx (s.site e)) s) :
    let u := grantLine (cxlHReq op o m e line s) true true s
    u.home.queue = [] ∧ Settled u ∧ Granted line e { mode := .x, pres := putBit 0 e true } s (refresh u) ∧
      Emit.cxl e "GO-E" m.tag.toNat m.addr.toNat (s.mem.read (line * 64) 64) (s.mem.anyBad (line * 64) 64) ∈ (refresh u).out ∧
      ((refresh u).site e).goWait = (s.site e).goWait ++ [(m.tag.toNat, line)] ∧ (refresh u).mem = s.mem := by
  obtain ⟨g, passes, clean⟩ := isOpen
  obtain ⟨alloc, made⟩ := grantLine_cxlData (s := s) (r := cxlHReq op o m e line s) rfl rfl true passes clean
  intro u
  rw [show u = _ from made]
  exact cxlGrant_leaves sites quiet true _ _ alloc

theorem cxlGrant_bare_heard :
    let u := grantLine (cxlHReq op o m e line s) true false s
    u.home.queue = [] ∧ Settled u ∧ Granted line e { mode := .x, pres := putBit 0 e true } s (refresh u) ∧
      Emit.cxl e "GO-E" m.tag.toNat m.addr.toNat [] false ∈ (refresh u).out ∧
      ((refresh u).site e).goWait = (s.site e).goWait ++ [(m.tag.toNat, line)] ∧ (refresh u).mem = s.mem := by
  obtain ⟨alloc, made⟩ := grantLine_cxlBare (s := s) (r := cxlHReq op o m e line s) rfl rfl true
  intro u
  rw [show u = _ from made]
  exact cxlGrant_leaves sites quiet true _ _ alloc

end Sys2Proof.Machine

namespace Sys2Proof.Machine
open Sys2Proof Sys2Proof.Safety

variable {s : State} {r : HReq} {e tag o g : Nat}

/-- CLFlush of a line that nobody holds. -/
theorem serveIdle_clflush (op : r.op = .clflush) (mode : (s.hline r.line).mode = .i) : serveIdle r s = ([], doneAnswer r false s) := by
  unfold serveIdle
  dsimp only
  rw [serveIdle_victimless fun caches => by rw [op] at caches; cases caches]
  simp only [op]
  exact if_pos (by simp [mode])

/-- A current read of a CXL occupant of a line that no site holds in X. -/
theorem serveIdle_cxlCurrent (op : r.op = .rdCur) (src : r.src = .cxl e tag o) (mode : (s.hline r.line).mode ≠ .x) (free : s.home.victims = [])
    (passes : memCheck s (r.line * 64) r.ctx = .pass g) (clean : (s.grp (granGroup g)).inject = 0) :
    ∃ alloc, serveIdle r s = ([], ({ s with home := { s.home with alloc := alloc } } : State).emit
      (.cxl e "Data" tag r.dva (s.mem.read (r.line * 64) 64) (s.mem.anyBad (r.line * 64) 64))) := by
  obtain ⟨alloc, tidied⟩ := tidySector_quiet free r.line
  refine ⟨alloc, ?_⟩
  unfold serveIdle
  dsimp only
  rw [serveIdle_victimless fun caches => by rw [op] at caches; cases caches]
  simp only [op]
  rw [if_neg (by simpa using mode)]
  unfold serveNc
  rw [src]
  dsimp only
  rw [if_pos (by rw [op]; rfl), homeRead_open passes clean, tidied]

/-- A non-caching write of a CXL occupant at a line that no site holds. -/
theorem serveIdle_cxlWrite (op : r.op = .ncWrite) (src : r.src = .cxl e tag o) (mode : (s.hline r.line).mode = .i) (free : s.home.victims = [])
    (passes : memCheck s (r.line * 64) r.ctx = .pass g) :
    ∃ alloc mem, (memPutBe s g (r.line * 64) r.data r.be.toNat r.poison).mem = mem ∧ serveIdle r s = ([], doneAnswer r false
      { s with mem := mem, home := { s.home with lines := Tab.set {} s.home.lines r.line {}, alloc := alloc } }) := by
  obtain ⟨mem, put⟩ := memPutBe_shape s g (r.line * 64) r.data r.be.toNat r.poison
  obtain ⟨alloc, tidied⟩ := tidySector_quiet (s := setHLine r.line {} { s with mem := mem }) free r.line
  refine ⟨alloc, mem, by rw [put], ?_⟩
  unfold serveIdle
  dsimp only
  rw [serveIdle_victimless fun caches => by rw [op] at caches; cases caches]
  simp only [op]
  rw [if_pos (by simp [mode])]
  unfold serveNc
  rw [src]
  dsimp only
  rw [if_neg (by rw [op]; decide), homeWrite_open passes, put]
  dsimp only
  rw [tidied]
  rfl

end Sys2Proof.Machine

namespace Sys2Proof.Proofs
open Sys2Proof Sys2Proof.Machine Sys2Proof.Safety

/-- Settles O43: a CXL.cache request at a quiet line is served by the state of its line, and the occupant hears the home's answer. -/
theorem cxlCacheRequests : Obligations.CxlCacheRequests := by
  unfold Obligations.CxlCacheRequests
  intro n m s pa canon e x line h bad say dat mine compute quiet isOpen
  obtain ⟨wf, -, -, sites, -⟩ := canon
  have quiet' := quiet
  obtain ⟨coh, free, empty, victims, calm⟩ := quiet'
  refine ⟨fun entered => ⟨fun room => ⟨fun mode => ?_, fun mode => ?_, fun alone => ?_, fun alone => ?_⟩, fun mode => ?_, fun holds => ?_,
    fun owned holds whole => ?_⟩, fun entered mode => ?_, fun entered mode whole => ?_⟩
  · have serves := (serveIdle_rdShared (s := s) (r := cxlHReq .rdShared 0 m e line s) rfl room rfl).1 mode
    obtain ⟨queue, settled, granted, heard, goWait, mem⟩ := cxlGrant_data_heard (op := .rdShared) (o := 0) (m := m) sites quiet isOpen
    exact ⟨_, congrArg (fun u => Host.Outcome.next (refresh u)) (cxlCache_served compute entered quiet _ serves queue settled), granted, heard, goWait, mem⟩
  · have serves := (serveIdle_rdShared (s := s) (r := cxlHReq .rdShared 1 m e line s) rfl room rfl).1 mode
    obtain ⟨queue, settled, granted, heard, goWait, mem⟩ := cxlGrant_data_heard (op := .rdShared) (o := 1) (m := m) sites quiet isOpen
    exact ⟨_, congrArg (fun u => Host.Outcome.next (refresh u)) (cxlCache_served compute entered quiet _ serves queue settled), granted, heard, goWait, mem⟩
  · have nobody := otherHolders_none (s := s) (r := cxlHReq .rdOwn 0 m e line s) rfl alone
    have serves := (serveIdle_rdOwn (s := s) (r := cxlHReq .rdOwn 0 m e line s) rfl room).trans (if_pos (by rw [nobody]; rfl))
    obtain ⟨queue, settled, granted, heard, goWait, mem⟩ := cxlGrant_data_heard (op := .rdOwn) (o := 0) (m := m) sites quiet isOpen
    exact ⟨_, congrArg (fun u => Host.Outcome.next (refresh u)) (cxlCache_served compute entered quiet _ serves queue settled), granted, heard, goWait, mem⟩
  · have nobody := otherHolders_none (s := s) (r := cxlHReq .rdOwnNoData 0 m e line s) rfl alone
    have serves := (serveIdle_rdOwnNoData (s := s) (r := cxlHReq .rdOwnNoData 0 m e line s) rfl room).trans (if_pos (by rw [nobody]; rfl))
    obtain ⟨queue, settled, granted, heard, goWait, mem⟩ := cxlGrant_bare_heard (e := e) (op := .rdOwnNoData) (o := 0) (m := m) sites quiet
    exact ⟨_, congrArg (fun u => Host.Outcome.next (refresh u)) (cxlCache_served compute entered quiet _ serves queue settled), granted, heard, goWait, mem⟩
  · have serves := serveIdle_clflush (s := s) (r := cxlHReq .clflush 0 m e line s) rfl mode
    have served := (cxlRequest_entered compute entered (fun e => cxlSay e m ["GO-I"])
      (fun e pa s => if coherent s pa then atHome [.req (cxlHome .clflush 0 m e pa s)] s else cxlSay e m ["GO-I"] s)).trans ((if_pos coh).trans
      ((congrArg (fun q : HReq => atHome [.req q] s) (cxlHome_line _ _ _ _ _ _)).trans (atHome_served free serves empty calm)))
    refine ⟨_, congrArg (fun u => Host.Outcome.next (refresh u)) served, refresh_sent List.mem_cons_self, ?_⟩
    rw [refresh_home, refresh_mem]
    exact ⟨rfl, rfl⟩
  · obtain ⟨alloc, serves⟩ := serveIdle_evictClean (s := s) (r := cxlHReq .evictClean (if m.alt then 1 else 0) m e line s) rfl rfl holds victims
    have runs := congrArg (fun u => (Host.Outcome.next (refresh u) : Host.Outcome State Fault Refusal)) (cxlCache_served (n := n.val) compute entered quiet
      (fun e => cxlSay e m [if m.alt then "GO-I" else "GO_WritePull_Drop"]) serves empty calm)
    refine ⟨_, runs, ?_, refresh_sent ?_, ?_⟩
    · rw [refresh_home]
      rfl
    · cases alt : m.alt with
      | true => exact List.mem_cons_self
      | false => exact List.mem_cons_self
    · rw [refresh_mem]
      rfl
  · obtain ⟨g, passes, -⟩ := isOpen
    obtain ⟨alloc, c, put, serves⟩ := serveIdle_wbDirty (s := s) (r := cxlHReq .wbDirty 0 m e line s) rfl rfl owned holds victims passes
    have leaving : c.leaving = s.mem.leaving := by
      rw [← put]
      exact memPutBe_leaving _ _ _ _ _ _
    have runs := congrArg (fun u => (Host.Outcome.next (refresh u) : Host.Outcome State Fault Refusal)) (cxlCache_served (n := n.val) compute entered quiet
      (fun e => cxlSay e m ["GO_WritePull", "CMP"]) serves empty ⟨calm.1, leaving.trans calm.2⟩)
    obtain ⟨inside, outside⟩ := wholeLine_byte (s := s) wf whole put
    refine ⟨_, runs, ?_, refresh_sent (List.mem_cons_of_mem _ List.mem_cons_self), refresh_sent List.mem_cons_self, ?_⟩
    · rw [refresh_home]
      rfl
    · rw [refresh_mem]
      exact ⟨inside, outside⟩
  · obtain ⟨g, passes, clean⟩ := isOpen
    obtain ⟨alloc, serves⟩ := serveIdle_cxlCurrent (s := s) (r := { cxlHReq .rdCur 0 m e line s with site := none }) rfl rfl mode victims passes clean
    have served : cxlRdcurr n.val m s = _ := (cxlRequest_entered compute entered _ _).trans ((if_pos coh).trans
      ((congrArg (fun q : HReq => atHome [.req { q with site := none }] s) (cxlHome_line _ _ _ _ _ _)).trans (atHome_served free serves empty calm)))
    refine ⟨_, congrArg (fun u => Host.Outcome.next (refresh u)) served, refresh_sent List.mem_cons_self, ?_⟩
    rw [refresh_home, refresh_mem]
    exact ⟨rfl, rfl⟩
  · obtain ⟨g, passes, -⟩ := isOpen
    obtain ⟨alloc, c, put, serves⟩ := serveIdle_cxlWrite (s := s) (r := { cxlHReq .ncWrite 0 m e line s with site := none }) rfl rfl mode victims passes
    have leaving : c.leaving = s.mem.leaving := by
      rw [← put]
      exact memPutBe_leaving _ _ _ _ _ _
    have served : cxlItomwr n.val m s = _ := (cxlRequest_entered compute entered _ _).trans ((if_pos coh).trans
      ((congrArg (fun q : HReq => atHome [.req { q with site := none }] s) (cxlHome_line _ _ _ _ _ _)).trans
        (atHome_served free serves empty ⟨calm.1, leaving.trans calm.2⟩)))
    obtain ⟨inside, outside⟩ := lineWrite_byte (s := s) wf whole put
    refine ⟨_, congrArg (fun u => Host.Outcome.next (refresh u)) served, refresh_sent List.mem_cons_self, ?_, ?_⟩
    · rw [refresh_home]
      rfl
    · rw [refresh_mem]
      refine ⟨fun i low => (inside i low).trans ?_, outside⟩
      rw [BitVec.testBit_toNat]
      rfl

end Sys2Proof.Proofs
end


section
/-! SUPPORT. Requests that enter the network and violations of the crust, where the faults they may raise act by LOG. -/
namespace Sys2Proof.Machine
open Sys2Proof Sys2Proof.Safety

variable {s t : State} {r : Req} {n e : Nat}

theorem takeTokens_shape {port part k : Nat} (took : takeTokens port part k s = some t) : ∃ ports, t = { s with noc := { s.noc with qports := ports } } := by
  unfold takeTokens at took
  dsimp only at took
  split at took
  · exact ⟨_, (Option.some.inj took).symm⟩
  · cases took

/-- A request that enters the network, or is held at its port. -/
structure Issued (r : Req) (held : Bool) (s t : State) : Prop where
  reqs : t.noc.reqs = s.noc.reqs ++ [sentReq r held s]
  mem : t.mem = s.mem
  sites : t.sites = s.sites
  home : t.home = s.home
  parts : t.parts = s.parts

/-- What a request leaves as it was: of the network, only its requests, its tags and its tokens change. -/
theorem issueReq_shape (new : r.held = false) : ∃ held ports u, (r.sched = true → held = false) ∧
    u = { s with noc := { s.noc with qports := ports, nextTag := s.noc.nextTag + 1, reqs := s.noc.reqs ++ [sentReq r held s] } } ∧
    ((issueReq r s).2 = u ∨ (issueReq r s).2 = raise 9 3 (portOf r.who) u) := by
  have free : sentReq r false s = { r with tag := s.noc.nextTag, inject := s.clk.now, step := if r.sched then (s.part r.part).step.setWidth 32 else 0 } := by
    unfold sentReq
    rw [← new]
  unfold issueReq
  dsimp only
  by_cases sched : r.sched = true
  · refine ⟨false, s.noc.qports, _, fun _ => rfl, rfl, .inl ?_⟩
    rw [if_pos sched, free]
  · rw [if_neg sched]
    cases got : (if (heldAt s (portOf r.who) r.part).isEmpty = true then takeTokens (portOf r.who) r.part (reqFlits r.write r.len) s else none) with
    | none =>
      refine ⟨true, s.noc.qports, _, fun h => absurd h sched, rfl, ?_⟩
      dsimp only
      by_cases full : (heldAt s (portOf r.who) r.part).length = 63
      · exact .inr (if_pos full)
      · exact .inl (if_neg full)
    | some t =>
      have took : takeTokens (portOf r.who) r.part (reqFlits r.write r.len) s = some t := by
        split at got
        · exact got
        · cases got
      obtain ⟨ports, is⟩ := takeTokens_shape took
      refine ⟨false, ports, _, fun _ => rfl, rfl, .inl ?_⟩
      dsimp only
      rw [is, free]

/-- A request enters the network with its tag, or is held where its port has no tokens for it; a scheduled one is never held. -/
theorem issueReq_enters (groups : Groups s) (calm : Calm 9 s) (new : r.held = false) :
    ∃ held, (r.sched = true → held = false) ∧ Issued r held s (issueReq r s).2 := by
  obtain ⟨held, ports, u, sched, is, runs⟩ := issueReq_shape (s := s) new
  have flt : u.flt = s.flt := by rw [is]
  have here : Issued r held s u := by
    rw [is]
    exact ⟨rfl, rfl, rfl, rfl, rfl⟩
  refine ⟨held, sched, ?_⟩
  obtain runs | runs := runs <;> rw [runs]
  · exact here
  · have same := groups_of_flt flt groups
    have still := calm_keeps flt calm
    exact ⟨(congrArg Noc.reqs (Laws.raise_calm_noc same still)).trans here.reqs, (Laws.raise_calm_mem same still).trans here.mem,
      (Laws.raise_calm_sites same still).trans here.sites, (Laws.raise_calm_home same still).trans here.home, (Laws.raise_calm_parts same still).trans here.parts⟩

/-- A violation of a site's crust: it is counted, and its address noted. -/
structure Violated (e dva : Nat) (s t : State) : Prop where
  count : (t.site e).crustN = satInc (s.site e).crustN
  dva : (t.site e).crustDva = BitVec.ofNat 64 dva
  tags : (t.site e).tags = (s.site e).tags
  noc : t.noc = s.noc
  mem : t.mem = s.mem

theorem crustViolation_violates (groups : Groups s) (calm : Calm 16 s) (sites : Tab.wf {} s.sites = true) (reason : Nat) (k : CrustClass) (ctx dva : Nat) :
    Violated e dva s (crustViolation e reason k ctx dva s) := by
  unfold crustViolation
  extract_lets x now win lim u v
  obtain ⟨trc, free, traced⟩ := traceAt_shape (88 + e) x.owner u
  have site : v.site e = _ := (congrArg (fun t : State => t.site e) traced).trans (Tab.get_set_same sites e _)
  have here : Violated e dva s v := by
    refine ⟨?_, ?_, ?_, ?_, ?_⟩
    · rw [site]
    · rw [site]
    · rw [site]
    · rw [show v = _ from traced]
      rfl
    · rw [show v = _ from traced]
      rfl
  refine Laws.ite_cases (P := fun t => Violated e dva s t) (fun _ => ?_) fun _ => here
  have flt : v.flt = s.flt := by
    rw [show v = _ from traced]
    rfl
  have same := groups_of_flt flt groups
  have still := calm_keeps flt calm
  have there : (raise 16 7 e v).site e = v.site e := congrArg (fun c => Tab.get ({} : Site) c e) (Laws.raise_calm_sites same still)
  exact ⟨(congrArg Site.crustN there).trans here.count, (congrArg Site.crustDva there).trans here.dva, (congrArg Site.tags there).trans here.tags,
    (Laws.raise_calm_noc same still).trans here.noc, (Laws.raise_calm_mem same still).trans here.mem⟩

/-- The unit of a site's unit is that unit, whatever else changes. -/
theorem evenOf_evenOf (double : ∀ k, (t.site k).double = (s.site k).double) (n : Nat) : evenOf t (evenOf s n) = evenOf s n := by
  unfold evenOf halves
  dsimp only
  by_cases two : (s.site (n / 2 * 2)).double = true
  · have even : n / 2 * 2 / 2 * 2 = n / 2 * 2 := by omega
    rw [if_pos two, List.headD_cons, even, double, if_pos two, List.headD_cons]
  · rw [if_neg two, List.headD_cons, double, if_neg two, List.headD_cons]

end Sys2Proof.Machine
end

section
/-! SUPPORT. Messages of a CXL occupant that ask for no line. -/
namespace Sys2Proof.Machine
open Sys2Proof Sys2Proof.Safety

variable {s : State} {n e tag : Nat}

/-- A trace point leaves the sites, memory and what was sent. -/
theorem traceAt_leaves (point : Nat) (part : Option Nat) (s : State) :
    (traceAt point part s).site e = s.site e ∧ (traceAt point part s).mem = s.mem ∧ (traceAt point part s).out = s.out := by
  obtain ⟨trc, free, traced⟩ := traceAt_shape point part s
  rw [traced]
  exact ⟨rfl, rfl, rfl⟩

/-- A site keeps its width when another of its fields changes. -/
theorem double_setSite (sites : Tab.wf {} s.sites = true) {x : Site} (double : x.double = (s.site e).double) (k : Nat) :
    ((s.setSite e x).site k).double = (s.site k).double := by
  by_cases same : k = e
  · subst same
    exact (congrArg Site.double (State.site_setSite sites k x)).trans double
  · exact congrArg Site.double (State.site_setSite_other sites same x)

/-- An ADMITTED site that has to retrain. -/
theorem retrainSite_trains (sites : Tab.wf {} s.sites = true) (even : evenOf s e = e) (admitted : (s.site e).state = .admitted) :
    ((retrainSite e s).site e).state = .retrain ∧ (retrainSite e s).mem = s.mem ∧ (retrainSite e s).out = s.out := by
  unfold retrainSite
  dsimp only
  rw [even, if_pos (by simp [admitted])]
  obtain ⟨site, mem, out⟩ := traceAt_leaves (e := e) (88 + e) (s.site e).owner
    (s.setSite e { s.site e with state := .retrain, retrains := satInc (s.site e).retrains })
  rw [site, mem, out, State.site_setSite sites]
  exact ⟨rfl, rfl, rfl⟩

/-- The first protocol error of a site in a while makes it retrain. -/
theorem protocolError_retrains (sites : Tab.wf {} s.sites = true) (even : evenOf s e = e) (admitted : (s.site e).state = .admitted)
    (first : (s.site e).errTicks = []) :
    ((protocolError e 0 {} s).site e).state = .retrain ∧ (protocolError e 0 {} s).mem = s.mem ∧ (protocolError e 0 {} s).out = s.out := by
  have untagged : tagged 0 = false := rfl
  unfold protocolError
  dsimp only
  rw [even, untagged]
  simp only [Bool.false_eq_true, if_false]
  rw [first, List.filter_nil, List.nil_append, if_neg (by simp)]
  obtain ⟨u, is⟩ : ∃ u, u = s.setSite e { s.site e with errTicks := [s.clk.now] } := ⟨_, rfl⟩
  have wf : Tab.wf {} u.sites = true := by
    rw [is]
    exact Tab.wf_set sites e _
  have double (k : Nat) : (u.site k).double = (s.site k).double := by
    rw [is]
    exact double_setSite sites (x := { s.site e with errTicks := [s.clk.now] }) rfl k
  have site : (u.site e).state = (s.site e).state := by rw [is, State.site_setSite sites]
  have kept : u.mem = s.mem ∧ u.out = s.out := by
    rw [is]
    exact ⟨rfl, rfl⟩
  rw [← is]
  have still : evenOf (writeLog 16 2 1 0 e 0 u) e = e := by
    rw [← even]
    exact evenOf_evenOf (t := writeLog 16 2 1 0 (evenOf s e) 0 u) double e
  obtain ⟨state, mem, out⟩ := retrainSite_trains (s := writeLog 16 2 1 0 e 0 u) wf still (site.trans admitted)
  exact ⟨state, mem.trans kept.1, out.trans kept.2⟩

theorem occupantAnswer_is {o : SiteOut} {r : Req} (found : outOf (s.site e) tag o.rd = some o) (req : s.reqOf o.req = some r) (bs : List Byte) (poison refused : Bool) :
    occupantAnswer e tag o.rd bs poison refused s =
      pushResp { tag := o.req, data := (bs.drop (r.addr % 64)).take r.len, poison := poison || (o.rd && refused), refused := refused }
        (s.setSite e { s.site e with outs := (s.site e).outs.erase o }) := by
  have same : (s.modSite e (fun t => { t with outs := t.outs.erase o })).reqOf o.req = s.reqOf o.req := rfl
  unfold occupantAnswer
  rw [found]
  dsimp only
  rw [same, req]
  rfl

/-- The end of one of the hub's own requests to an occupant. -/
theorem occupantAnswer_ends {o : SiteOut} {r : Req} (sites : Tab.wf {} s.sites = true) (found : outOf (s.site e) tag o.rd = some o)
    (req : s.reqOf o.req = some r) (bs : List Byte) (poison refused : Bool) :
    let u := occupantAnswer e tag o.rd bs poison refused s
    (u.site e).outs = (s.site e).outs.erase o ∧ u.mem = s.mem ∧
      u.noc.resps = s.noc.resps ++ [{ tag := o.req, data := (bs.drop (r.addr % 64)).take r.len, poison := poison || (o.rd && refused), refused := refused }] := by
  intro u
  have is : u = pushResp { tag := o.req, data := (bs.drop (r.addr % 64)).take r.len, poison := poison || (o.rd && refused), refused := refused }
      (s.setSite e { s.site e with outs := (s.site e).outs.erase o }) := occupantAnswer_is found req bs poison refused
  rw [is]
  exact ⟨congrArg Site.outs (State.site_setSite sites e _), rfl, rfl⟩

/-- The first of a site's open requests with a tag is the one of its own direction. -/
theorem outOf_first {x : Site} {o : SiteOut} (first : x.outs.find? (fun o => o.tag == tag) = some o) : outOf x tag o.rd = some o := by
  unfold outOf
  rw [List.find?_eq_some_iff_append] at first ⊢
  obtain ⟨own, before, after, split_, others⟩ := first
  exact ⟨by simpa using own, before, after, split_, fun a listed => by
    have := others a listed
    simp_all⟩

end Sys2Proof.Machine

namespace Sys2Proof.Proofs
open Sys2Proof Sys2Proof.Machine Sys2Proof.Safety

variable {n : Fin 18} {m : CxlMsg} {s : State}

/-- A snoop response of an occupant with a cache, with nothing queued at the home. -/
theorem exec_cxlSnoopResponse {line : Nat} (rsp : CxlSnpRsp) (up : cxlCacheUp (s.site (evenOf s n.val)) = true) (queue : s.home.queue = [])
    (names : (s.site (evenOf s n.val)).snoops.find? (fun k => k.1 == m.tag.toNat) = some (m.tag.toNat, line)) :
    exec (.cxlSnoopResponse n rsp m) s = .next (refresh (snoopAnswered (evenOf s n.val) m.tag.toNat (snpState rsp) false
      (if snpData rsp then some (m.data, m.poison) else none) s)) := by
  refine congrArg (fun u => Host.Outcome.next (refresh u)) ?_
  show cxlSnoopResponse n.val rsp m s = _
  unfold cxlSnoopResponse
  dsimp only
  rw [if_neg (by simp [up]), names, queue]
  simp only [List.any_nil, Bool.and_false]

/-- The request of the network for a CXL.io request. -/
def cxlReq (e pa len op : Nat) (write : Bool) (m : CxlMsg) (s : State) : Req :=
  { tag := 0, who := .site e, write := write, host := false, addr := pa, len := len, ctx := defaultCtx (s.site e), part := (s.site e).owner.getD 0,
    sched := false, data := if write then m.data else [], poison := write && m.poison, iova := m.addr.toNat,
    be := if write then some m.be.toNat else none, use := .site e m.tag.toNat op }

/-- A CXL.io request of an admitted occupant that the crust lets through. -/
theorem cxlIoRequest_enters (cxl : isCxl (s.site (evenOf s n.val)) = true)
    (admitted : (s.site (evenOf s n.val)).state = .admitted) (still : (s.site (evenOf s n.val)).flushing = false)
    (owned : (s.site (evenOf s n.val)).owner.isSome = true) {pa : Nat} :
    (crustCheck (s.site (evenOf s n.val)) .read (defaultCtx (s.site (evenOf s n.val))) m.addr.toNat = .ok pa →
      cxlIoRequest n.val .memRd m s = (issueReq (cxlReq (evenOf s n.val) pa (64 - pa % 64) 0x80 false m s) s).2) ∧
    (crustCheck (s.site (evenOf s n.val)) .write (defaultCtx (s.site (evenOf s n.val))) m.addr.toNat = .ok pa →
      cxlIoRequest n.val .memWr m s = (issueReq (cxlReq (evenOf s n.val) pa m.data.length 0x81 true m s) s).2) := by
  refine ⟨fun crust => ?_, fun crust => ?_⟩ <;> unfold cxlIoRequest <;> dsimp only <;>
    rw [if_neg (by simp [cxl]), if_neg (by simp [admitted, still]), if_neg (by simp [admitted, Option.isSome_iff_ne_none.mp owned]), crust] <;> rfl

/-- Settles O44: each of the messages does its one thing at the site, at the home or at the network. -/
theorem cxlMessages : Obligations.CxlMessages := by
  unfold Obligations.CxlMessages
  intro n m s canon settled e x say
  have groups := groups_of_canon canon
  obtain ⟨wf, -, -, sites, -⟩ := canon
  refine ⟨fun compute admitted => ?_, fun tag line q names txn wait site queue => ?_, fun tag data poison o r cxl first req => ?_,
    fun cxl admitted still owned => ?_⟩
  · have up : cxlCacheUp x = true := by simp [cxlCacheUp, compute, admitted]
    refine ⟨congrArg Host.Outcome.next (if_pos up), fun first => ?_, fun rsp line q names txn wait asked more idle holds queue bare other current => ?_,
      fun rsp line q names txn wait asked more idle queue dat isOpen whole => ?_⟩
    · have even : evenOf s e = e := evenOf_evenOf (fun _ => rfl) n.val
      obtain ⟨state, mem, out⟩ := protocolError_retrains (s := cxlSay e m [if m.data.isEmpty then "GO-Err" else "GO_ERR_WritePull"] s) (e := e) sites even admitted first
      refine ⟨_, congrArg Host.Outcome.next (if_pos up), refresh_sent ?_, ?_, ?_⟩
      · rw [out]
        exact List.mem_cons_self
      · rw [refresh_site]
        exact state
      · rw [refresh_mem]
        exact mem
    · have runs := exec_cxlSnoopResponse rsp up queue names
      rw [bare, show (if false = true then some (m.data, m.poison) else none) = none from rfl, snoopAnswered_bare sites names idle txn wait asked more,
        snoopState_inv (q := q) (s := snoopClosed e m.tag.toNat s) holds txn (.inl ⟨other, current⟩)] at runs
      refine ⟨_, runs, ?_⟩
      rw [refresh_site, refresh_home, refresh_mem]
      exact ⟨snoopClosed_snoops sites e _, rfl, rfl, rfl⟩
    · have runs := exec_cxlSnoopResponse rsp up queue names
      rw [dat, show (if true = true then some (m.data, m.poison) else none) = some (m.data, m.poison) from rfl] at runs
      obtain ⟨snoops, inside, outside⟩ := snoopAnswered_data (st := snpState rsp) (poison := m.poison) wf sites names idle txn wait asked more isOpen whole
      refine ⟨_, runs, ?_⟩
      rw [refresh_site, refresh_mem]
      exact ⟨snoops, inside, outside⟩
  · have closes : cxlGoAcked n.val tag.toNat s = closeTxn line (s.setSite e { x with goWait := x.goWait.filter (fun k => k.1 != tag.toNat) }) := by
      unfold cxlGoAcked
      dsimp only
      rw [names]
      dsimp only
      unfold grantAcked
      rw [show Tab.get none (s.modSite e (fun t => { t with goWait := t.goWait.filter (fun k => k.1 != tag.toNat) })).home.txns line = some q from txn]
      dsimp only
      rw [if_pos (by simp [wait, site, e])]
      refine atHome_drain ?_ ⟨?_, ?_⟩ line
      · exact queue
      · exact settled.1
      · exact settled.2
    refine ⟨_, congrArg (fun u => Host.Outcome.next (refresh u)) closes, ?_⟩
    rw [refresh_site, refresh_home, refresh_mem]
    exact ⟨congrArg Site.goWait (Tab.get_set_same sites e _), rfl, rfl, rfl⟩
  · have runs : exec (.cxlMemResponse n tag data poison) s = .next (occupantAnswer e tag.toNat o.rd data (o.rd && poison) false s) := by
      refine congrArg Host.Outcome.next ?_
      show cxlMemResponse n.val tag.toNat data poison s = _
      unfold cxlMemResponse
      dsimp only
      rw [show (s.site (evenOf s n.val)).outs.find? (fun o => o.tag == tag.toNat) = some o from first]
      exact if_pos cxl
    obtain ⟨outs, mem, resps⟩ := occupantAnswer_ends sites (outOf_first first) req data (o.rd && poison) false
    rw [Bool.and_false, Bool.or_false] at resps
    exact ⟨_, runs, outs, mem, resps⟩
  · refine ⟨fun pa crust calm => ?_, fun pa crust calm => ?_, fun calm => ?_⟩
    · have runs := congrArg (fun u => (Host.Outcome.next (refresh u) : Host.Outcome State Fault Refusal))
        ((cxlIoRequest_enters (m := m) cxl admitted still owned).1 crust)
      obtain ⟨held, -, issued⟩ := issueReq_enters (r := cxlReq e pa (64 - pa % 64) 0x80 false m s) groups calm rfl
      refine ⟨_, _, runs, (congrArg Noc.reqs (refresh_noc _)).trans issued.reqs, rfl, rfl, rfl, rfl, rfl, rfl, ?_⟩
      · rw [refresh_mem]
        exact issued.mem
    · have runs := congrArg (fun u => (Host.Outcome.next (refresh u) : Host.Outcome State Fault Refusal))
        ((cxlIoRequest_enters (m := m) cxl admitted still owned).2 crust)
      obtain ⟨held, -, issued⟩ := issueReq_enters (r := cxlReq e pa m.data.length 0x81 true m s) groups calm rfl
      refine ⟨_, _, runs, (congrArg Noc.reqs (refresh_noc _)).trans issued.reqs, rfl, rfl, rfl, rfl, rfl, rfl, rfl, ?_⟩
      · rw [refresh_mem]
        exact issued.mem
    · have denied : cxlIoRequest n.val .msi m s = crustViolation e 1 .msi (defaultCtx x) m.addr.toNat s := by
        unfold cxlIoRequest
        dsimp only
        rw [show s.site (evenOf s n.val) = x from rfl, if_neg (by simp [cxl]), if_neg (by simp [admitted, still]),
          if_neg (by simp [admitted, Option.isSome_iff_ne_none.mp owned])]
        rfl
      have violated := crustViolation_violates (e := e) groups calm sites 1 .msi (defaultCtx x) m.addr.toNat
      refine ⟨_, congrArg (fun u => Host.Outcome.next (refresh u)) denied, ?_⟩
      rw [refresh_site, refresh_noc, refresh_mem]
      exact ⟨violated.count, congrArg Noc.reqs violated.noc, violated.mem⟩

end Sys2Proof.Proofs
end


section
/-! SUPPORT. Requests of a Gelja occupant: at the network, at memory, and refused. -/
namespace Sys2Proof.Machine
open Sys2Proof Sys2Proof.Safety

variable {s : State} {r : Req} {n op e tag : Nat} {m : GMsg}

/-- The fields of a site whose request has opened its tag. -/
theorem openTag_site (sites : Tab.wf {} s.sites = true) (e op : Nat) (m : GMsg) :
    ((openTag e op m s).site e).tags = (s.site e).tags ++ [(m.tag.toNat, op + 256 * m.len.toNat)] ∧
      ((openTag e op m s).site e).credits =
        Tab.upd 0 (Tab.upd 0 (s.site e).credits 10 (· - (reqCost op m.len.toNat).1)) 11 (· - (reqCost op m.len.toNat).2) := by
  rw [show (openTag e op m s).site e = _ from Tab.get_set_same sites e _]
  exact ⟨rfl, rfl⟩

/-- A message that enters the network: its request, its open tag and its credits. -/
theorem issued_tagged (groups : Groups s) (calm : Calm 9 s) (sites : Tab.wf {} s.sites = true) (new : r.held = false) (e op : Nat) (m : GMsg) :
    let u := (issueReq r (openTag e op m s)).2
    ∃ held, (r.sched = true → held = false) ∧ u.noc.reqs = s.noc.reqs ++ [sentReq r held s] ∧
      (u.site e).tags = (s.site e).tags ++ [(m.tag.toNat, op + 256 * m.len.toNat)] ∧ u.mem = s.mem ∧
      (u.site e).credits = Tab.upd 0 (Tab.upd 0 (s.site e).credits 10 (· - (reqCost op m.len.toNat).1)) 11 (· - (reqCost op m.len.toNat).2) := by
  intro u
  obtain ⟨held, sched, issued⟩ := issueReq_enters (s := openTag e op m s) groups calm new
  have site : u.site e = (openTag e op m s).site e := congrArg (fun c => Tab.get ({} : Site) c e) issued.sites
  obtain ⟨tags, credits⟩ := openTag_site sites e op m
  exact ⟨held, sched, issued.reqs, (congrArg Site.tags site).trans tags, issued.mem, (congrArg Site.credits site).trans credits⟩

/-- A request whose pieces are all served is at its end. -/
theorem nocPiece_over (req : s.reqOf tag = some r) (served : r.lines = []) : nocPiece tag s = ([], finishNoc tag s) := by
  unfold nocPiece
  rw [req]
  dsimp only
  rw [served]

/-- A current read at an idle line that no site holds in X. -/
theorem doWork_current {a : Nat} (read : r.write = false) (mode : (s.hline (a / 64)).mode ≠ .x) (none : Tab.get none s.home.txns (a / 64) = none)
    {ws : List Work} {t : State} (serves : serveNc (pieceReq tag r a) s = (ws, t)) (still : Tab.get Option.none t.home.txns (a / 64) = Option.none) :
    doWork (.req (pieceReq tag r a)) s = (ws ++ [.drain (a / 64)], t) := by
  have op : (pieceReq tag r a).op = .rdCur := if_neg (by simp [read])
  have arrives : arriveHome (pieceReq tag r a) s = (ws, t) := by
    rw [← serves]
    unfold arriveHome
    rw [show (pieceReq tag r a).line = a / 64 from rfl, none]
    dsimp only
    unfold serveIdle
    simp only [op, HOp.caches, Bool.false_eq_true, if_false]
    exact if_neg (by rw [show (pieceReq tag r a).line = a / 64 from rfl]; simpa using mode)
  unfold doWork
  dsimp only
  rw [arrives]
  dsimp only
  rw [show (pieceReq tag r a).line = a / 64 from rfl, still]
  rfl

/-- The end of a current read of an occupant is an answer to it. -/
theorem finishNoc_says {t : Nat} (req : s.reqOf tag = some r) (use : r.use = .site e t 6) :
    finishNoc tag s = answerGelja e 3
      { tag := BitVec.ofNat 12 t, ctx := BitVec.ofNat 10 r.ctx, len := BitVec.ofNat 3 (r.len / 64),
        status := BitVec.ofNat 8 (if r.denied then 4 else if r.accBad then 5 else 0), poison := r.accBad || r.denied, data := r.acc } false (s.dropReq tag) := by
  unfold finishNoc
  rw [req]
  dsimp only
  rw [use]
  rfl

/-- The current read of a line that has reached memory. -/
structure CurrentAt (tag : Nat) (r : Req) (a g : Nat) (s : State) : Prop where
  req : s.reqOf tag = some r
  piece : r.lines = [(a, 64)]
  aligned : a % 64 = 0
  read : r.write = false
  passes : memCheck s a r.ctx = .pass g
  clean : (s.grp (granGroup g)).inject = 0
  fresh : r.acc = [] ∧ r.accBad = false ∧ r.denied = false
  settled : Settled s
  home : coherent s a = true → (s.hline (a / 64)).mode ≠ .x ∧ Tab.get none s.home.txns (a / 64) = none ∧ s.home.queue = [] ∧ s.home.victims = []

/-- The state in which a current read's line is read. -/
def currentRead (tag a : Nat) (alloc : List Nat) (s : State) : State :=
  pieceDone tag (s.mem.read a 64) (s.mem.anyBad a 64) false { s with home := { s.home with alloc := alloc } }

/-- The answer to a current read of a line. -/
def currentAnswer (t a : Nat) (r : Req) (s : State) : GMsg :=
  { tag := BitVec.ofNat 12 t, ctx := BitVec.ofNat 10 r.ctx, len := BitVec.ofNat 3 (r.len / 64),
    status := BitVec.ofNat 8 (if s.mem.anyBad a 64 then 5 else 0), poison := s.mem.anyBad a 64, data := s.mem.read a 64 }

/-- A current read whose line is read is answered. -/
theorem doWork_currentRead {a g t : Nat} (h : CurrentAt tag r a g s) (use : r.use = .site e t 6) (alloc : List Nat) :
    doWork (.noc tag) (currentRead tag a alloc s) =
      ([], answerGelja e 3 (currentAnswer t a r s) false ((currentRead tag a alloc s).dropReq tag)) := by
  have found : (currentRead tag a alloc s).reqOf tag = some { r with lines := r.lines.tail, acc := r.acc ++ s.mem.read a 64, accBad := r.accBad || s.mem.anyBad a 64, denied := r.denied || false } :=
    reqOf_modReq (s := { s with home := { s.home with alloc := alloc } }) h.req fun _ => rfl
  refine (nocPiece_over found (by rw [h.piece]; rfl)).trans (congrArg (Prod.mk []) ?_)
  rw [finishNoc_says (e := e) (t := t) found use]
  obtain ⟨acc, bad, denied⟩ := h.fresh
  unfold currentAnswer
  simp only [acc, bad, denied, List.nil_append, Bool.false_or, Bool.or_false, Bool.false_eq_true, if_false]

/-- A current read is answered once its line is read. -/
theorem atHome_current {a g t : Nat} (h : CurrentAt tag r a g s) (use : r.use = .site e t 6) :
    ∃ alloc, atHome [.noc tag] s = answerGelja e 3 (currentAnswer t a r s) false ((currentRead tag a alloc s).dropReq tag) := by
  have told (alloc : List Nat) := answerGelja_says e 3 (currentAnswer t a r s) false ((currentRead tag a alloc s).dropReq tag)
  have ends (alloc : List Nat) : settleHome (answerGelja e 3 (currentAnswer t a r s) false ((currentRead tag a alloc s).dropReq tag)) = _ :=
    settleHome_settled ⟨(congrArg Home.cohPend (told alloc).home).trans h.settled.1, (congrArg Mem.leaving (told alloc).mem).trans h.settled.2⟩
  have fuel : homeFuel s = (homeFuel s - 4) + 1 + 1 + 1 + 1 := by unfold homeFuel; omega
  unfold atHome
  rw [fuel]
  by_cases coh : coherent s a = true
  · obtain ⟨mode, free, empty, victims⟩ := h.home coh
    have first : doWork (.noc tag) s = ([.req (pieceReq tag r a)], s) := nocPiece_home h.req h.piece coh
    obtain ⟨alloc, served⟩ := serveNc_read h.req h.piece (by rw [h.aligned]) (by omega) h.passes h.clean h.read victims
    have second : doWork (.req (pieceReq tag r a)) s = ([.noc tag] ++ [.drain (a / 64)], currentRead tag a alloc s) := doWork_current h.read mode free served free
    have queue := (congrArg Home.queue (told alloc).home).trans empty
    refine ⟨alloc, ?_⟩
    rw [runWork_cons, first, List.nil_append, runWork_cons, second, List.nil_append, List.singleton_append, runWork_cons, doWork_currentRead h use,
      List.append_nil, runWork_cons, drain_quiet queue, List.append_nil, runWork_nil, ends]
  · have first : doWork (.noc tag) s = ([.noc tag], currentRead tag a s.home.alloc s) :=
      nocPiece_read h.req h.piece (by simpa using coh) h.passes h.clean h.read
    refine ⟨s.home.alloc, ?_⟩
    rw [runWork_cons, first, List.nil_append, runWork_cons, doWork_currentRead h use, List.append_nil, runWork_nil, ends]

/-- The newest request of the network is found by its tag. -/
theorem reqOf_new (fresh : FreshTags s) (own : r.tag = s.noc.nextTag) :
    ({ s with noc := { s.noc with nextTag := s.noc.nextTag + 1, reqs := s.noc.reqs ++ [r] } } : State).reqOf s.noc.nextTag = some r := by
  have none_ : s.noc.reqs.find? (fun q => q.tag == s.noc.nextTag) = none :=
    List.find?_eq_none.mpr fun q listed => by simpa using Nat.ne_of_lt (fresh q listed)
  unfold State.reqOf
  dsimp only
  rw [List.find?_append, none_, Option.none_or, List.find?_singleton, own]
  simp

/-- A message that the crust of its site does not let through is refused and counted. -/
theorem geljaRequest_violates {lo hi reason : Nat} {k : CrustClass} (gelja : isGelja (s.site (evenOf s n)) = true)
    (admitted : (s.site (evenOf s n)).state = .admitted) (owned : (s.site (evenOf s n)).owner.isSome = true) (fields : fieldsOk op lo hi m = true)
    (config : (s.site (evenOf s n)).configDone = true) (credit : hasCredit (s.site (evenOf s n)) op m.len.toNat = true)
    (step : stepTagOk s (s.site (evenOf s n)) m = true) (crust : crustCheck (s.site (evenOf s n)) k m.ctx.toNat m.addr.toNat = .error reason)
    (go : Nat → Nat → State → State) :
    geljaRequest n op lo hi k false m go s =
      refuseGelja (evenOf s n) op m 4 (crustViolation (evenOf s n) reason k m.ctx.toNat m.addr.toNat s) := by
  unfold geljaRequest
  dsimp only
  rw [if_neg (by simp [gelja]), if_neg (by simp [admitted]), if_neg (by simp [linkUp, admitted]), if_neg (by simp [fields, config, credit]),
    if_neg (by simp [admitted, Option.isSome_iff_ne_none.mp owned]), if_neg (by simp [step]), crust]

/-- The refusal of a read: poisoned bytes, and nothing else changes. -/
theorem refuseGelja_read (m : GMsg) (some_ : m.len ≠ 0) (e : Nat) (s : State) :
    ∃ d free, refuseGelja e 1 m 4 s = ({ s with free := free } : State).emit
      (.gelja e 3 { tag := m.tag, ctx := m.ctx, status := 4, poison := true, len := m.len, data := d }) := by
  have len : (if m.len.toNat = 0 then 1 else m.len) = m.len := if_neg fun zero => some_ (BitVec.eq_of_toNat_eq zero)
  unfold refuseGelja
  have op : answerOp 1 = 3 := rfl
  rw [op]
  dsimp only
  rw [show ((3 : Nat) == 3 || (3 : Nat) == 0x22) = true from rfl]
  simp only [if_true]
  rw [len]
  exact ⟨_, _, rfl⟩

end Sys2Proof.Machine

namespace Sys2Proof.Proofs
open Sys2Proof Sys2Proof.Machine Sys2Proof.Safety

/-- The length that a message of a read travels with is one at least. -/
theorem len_of_travels {op hi : Nat} {m : GMsg} (travels : Travels op 1 hi m) : m.len ≠ 0 := by
  have fields := travels.2
  unfold fieldsOk at fields
  simp only [Bool.and_eq_true, decide_eq_true_eq] at fields
  intro zero
  have low := fields.1.1.1.1.1.1
  rw [zero] at low
  exact absurd low (by decide)

section
variable {n : Fin 18} {m : GMsg} {s : State} {pa : Nat}

/-- A read enters the network with the physical address of its line. -/
theorem exec_rdNc (entered : Entered n.val 1 1 4 .read m pa s) : exec (.rdNc n m) s =
    .next (issueReq (siteReq (evenOf s n.val) 1 (pa / 64 * 64) false m s) (openTag (evenOf s n.val) 1 m s)).2 := by
  refine congrArg Host.Outcome.next ?_
  show rdNc n.val (received 1 m) s = _
  rw [entered.2.2.2.1.1]
  exact geljaRequest_entered entered false (fun h => absurd h (by decide)) _

theorem exec_wr (entered : Entered n.val 2 1 4 .write m pa s) : exec (.wr n m) s =
    .next (issueReq (siteReq (evenOf s n.val) 2 (pa / 64 * 64) true m s) (openTag (evenOf s n.val) 2 m s)).2 := by
  refine congrArg Host.Outcome.next ?_
  show wr n.val (received 2 m) s = _
  rw [entered.2.2.2.1.1]
  exact geljaRequest_entered entered false (fun h => absurd h (by decide)) _

theorem exec_wrPart (entered : Entered n.val 7 1 1 .write m pa s) : exec (.wrPart n m) s =
    .next (issueReq { siteReq (evenOf s n.val) 7 (pa / 64 * 64) true m s with be := some m.be.toNat } (openTag (evenOf s n.val) 7 m s)).2 := by
  refine congrArg Host.Outcome.next ?_
  show wrPart n.val (received 7 m) s = _
  rw [entered.2.2.2.1.1]
  exact geljaRequest_entered entered false (fun h => absurd h (by decide)) _

/-- The request of the network for a current read of a line. -/
def currentReq (e pa : Nat) (m : GMsg) (s : State) : Req :=
  { siteReq e 6 pa false m s with tag := s.noc.nextTag, gone := true, lines := pieces pa (64 * m.len.toNat), inject := s.clk.now }

/-- The state in which a current read has its request. -/
def withCurrent (e pa : Nat) (m : GMsg) (s : State) : State :=
  { s with noc := { s.noc with nextTag := s.noc.nextTag + 1, reqs := s.noc.reqs ++ [currentReq e pa m s] } }

/-- A current read of memory goes to the home at once. -/
theorem exec_rdCur (entered : Entered n.val 6 1 4 .current m pa s) {ctx : Nat} {g : Nat} (passes : memCheck s (pa / 64 * 64) ctx = .pass g) :
    let u := openTag (evenOf s n.val) 6 m s
    exec (.rdCur n m) s = .next (refresh (atHome [.noc u.noc.nextTag]
      (withCurrent (evenOf s n.val) (pa / 64 * 64) m u))) := by
  obtain ⟨-, -, site⟩ := spot_of_pass passes
  intro u
  refine congrArg (fun t => Host.Outcome.next (refresh t)) ?_
  show rdCur n.val (received 6 m) s = _
  rw [entered.2.2.2.1.1]
  refine (geljaRequest_entered entered false (fun h => absurd h (by decide)) _).trans ?_
  dsimp only
  split
  · next k off is => exact absurd is (site k off)
  · rfl

end

/-- A current read of a line is answered with its bytes. -/
theorem rdCur_answered {n : Fin 18} {m : GMsg} {s : State} {pa : Nat} (sites : Tab.wf {} s.sites = true) (entered : Entered n.val 6 1 4 .current m pa s)
    (one : m.len = 1) (fresh : FreshTags s) (settled : Settled s) (isOpen : LineOpen (pa / 64) m.ctx.toNat s)
    (home : coherent s (pa / 64 * 64) = true → HomeQuiet (pa / 64) s ∧ (s.hline (pa / 64)).mode ≠ .x) :
    ∃ t, exec (.rdCur n m) s = .next t ∧ t.mem = s.mem ∧ t.home.lines = s.home.lines ∧
      Emit.gelja (evenOf s n.val) 3 { tag := m.tag, ctx := m.ctx, len := 1, status := (if s.mem.anyBad (pa / 64 * 64) 64 then 5 else 0),
                                      poison := s.mem.anyBad (pa / 64 * 64) 64, data := s.mem.read (pa / 64 * 64) 64 } ∈ t.out := by
  obtain ⟨g, passes, clean⟩ := isOpen
  have runs := exec_rdCur entered passes
  obtain ⟨u, is⟩ : ∃ u, u = openTag (evenOf s n.val) 6 m s := ⟨_, rfl⟩
  rw [← is] at runs
  have len : 64 * m.len.toNat = 64 := by rw [one]; rfl
  have base : pa / 64 * 64 / 64 = pa / 64 := Nat.mul_div_cancel _ (by omega)
  have here : CurrentAt u.noc.nextTag (currentReq (evenOf s n.val) (pa / 64 * 64) m u) (pa / 64 * 64) g
      (withCurrent (evenOf s n.val) (pa / 64 * 64) m u) := by
    rw [is]
    refine ⟨reqOf_new (s := openTag (evenOf s n.val) 6 m s) fresh rfl, ?_, Nat.mul_mod_left _ _, rfl, passes, clean, ⟨rfl, rfl, rfl⟩, settled, fun coh => ?_⟩
    · show pieces (pa / 64 * 64) (64 * m.len.toNat) = _
      rw [len]
      exact pieces_within (by omega) (by rw [Nat.mul_mod_left])
    · obtain ⟨⟨-, free, queue, victims, -⟩, mode⟩ := home coh
      rw [base]
      exact ⟨mode, free, queue, victims⟩
  obtain ⟨alloc, ends⟩ := atHome_current (e := evenOf s n.val) (t := m.tag.toNat) here rfl
  have told := answerGelja_says (evenOf s n.val) 3 (currentAnswer m.tag.toNat (pa / 64 * 64) (currentReq (evenOf s n.val) (pa / 64 * 64) m u) u) false
    ((currentRead u.noc.nextTag (pa / 64 * 64) alloc (withCurrent (evenOf s n.val) (pa / 64 * 64) m u)).dropReq u.noc.nextTag)
  have answer : currentAnswer m.tag.toNat (pa / 64 * 64) (currentReq (evenOf s n.val) (pa / 64 * 64) m u) u =
      { tag := m.tag, ctx := m.ctx, len := 1, status := (if s.mem.anyBad (pa / 64 * 64) 64 then 5 else 0),
        poison := s.mem.anyBad (pa / 64 * 64) 64, data := s.mem.read (pa / 64 * 64) 64 } := by
    unfold currentAnswer
    rw [show (currentReq (evenOf s n.val) (pa / 64 * 64) m u).ctx = m.ctx.toNat from rfl,
      show (currentReq (evenOf s n.val) (pa / 64 * 64) m u).len = 64 * m.len.toNat from rfl, len, BitVec.ofNat_toNat, BitVec.setWidth_eq, BitVec.ofNat_toNat,
      BitVec.setWidth_eq, is, show (openTag (evenOf s n.val) 6 m s).mem = s.mem from rfl]
    cases s.mem.anyBad (pa / 64 * 64) 64 <;> rfl
  have mem : u.mem = s.mem := by rw [is]; rfl
  have home : u.home = s.home := by rw [is]; rfl
  have isOpen : (tagOf (u.site (evenOf s n.val)) (BitVec.ofNat 12 m.tag.toNat).toNat).isSome = true := by
    rw [is, BitVec.ofNat_toNat, BitVec.setWidth_eq]
    exact openTag_open sites _ 6 m
  refine ⟨_, runs.trans (congrArg (fun t => Host.Outcome.next (refresh t)) ends), ?_, ?_, refresh_sent ?_⟩
  · rw [refresh_mem]
    exact told.mem.trans mem
  · rw [refresh_home]
    exact (congrArg Home.lines told.home).trans (show u.home.lines = s.home.lines from congrArg Home.lines home)
  · rw [← answer]
    exact answerGelja_sent isOpen

/-- Settles O39: a request that passes the crust enters the network or is answered from memory; one that does not is refused and counted. -/
theorem geljaRequests : Obligations.GeljaRequests := by
  unfold Obligations.GeljaRequests
  intro n m s canon e x
  have groups := groups_of_canon canon
  obtain ⟨wf, -, -, sites, -⟩ := canon
  refine ⟨fun pa entered calm => ?_, fun pa entered calm => ?_, fun pa entered calm => ?_, fun pa entered one fresh settled isOpen home => ?_,
    fun reason gelja admitted owned travels config credit step crust calm => ?_⟩
  · obtain ⟨held, sched, reqs, tags, mem, credits⟩ := issued_tagged (r := siteReq e 1 (pa / 64 * 64) false m s) groups calm sites rfl e 1 m
    exact ⟨_, held, exec_rdNc entered, sched, reqs, tags, mem, credits⟩
  · obtain ⟨held, sched, reqs, tags, mem, credits⟩ := issued_tagged (r := siteReq e 2 (pa / 64 * 64) true m s) groups calm sites rfl e 2 m
    exact ⟨_, held, exec_wr entered, sched, reqs, tags, mem, credits⟩
  · obtain ⟨held, sched, reqs, tags, mem, -⟩ := issued_tagged (r := { siteReq e 7 (pa / 64 * 64) true m s with be := some m.be.toNat }) groups calm sites rfl e 7 m
    exact ⟨_, held, exec_wrPart entered, sched, reqs, tags, mem⟩
  · exact rdCur_answered sites entered one fresh settled isOpen home
  · have violated := crustViolation_violates (e := e) groups calm sites reason .read m.ctx.toNat m.addr.toNat
    obtain ⟨d, free, refused⟩ := refuseGelja_read m (len_of_travels travels) e (crustViolation e reason .read m.ctx.toNat m.addr.toNat s)
    have runs : exec (.rdNc n m) s = .next (refuseGelja e 1 m 4 (crustViolation e reason .read m.ctx.toNat m.addr.toNat s)) := by
      refine congrArg Host.Outcome.next ?_
      show rdNc n.val (received 1 m) s = _
      rw [travels.1]
      exact geljaRequest_violates gelja admitted owned travels.2 config credit step crust _
    rw [refused] at runs
    refine ⟨_, runs, violated.count, ?_, congrArg Noc.reqs violated.noc, violated.mem, d, List.mem_cons_self⟩
    refine (congrArg BitVec.toNat violated.dva).trans ?_
    rw [BitVec.toNat_ofNat]
    exact Nat.mod_eq_of_lt (by omega)

end Sys2Proof.Proofs
end


section
/-! SUPPORT. Fences of a site, and what else its unit's work leaves of its sites. -/
namespace Sys2Proof.Machine
open Sys2Proof Sys2Proof.Safety

variable {α : Type} {f : Site → α} {r s t : State} {n e k : Nat}

/-- Work of a site's unit: each site keeps what `f` reads of it, and of the rest of the state, the faults, the image, the host, the links, the fabric and the
security island stay. -/
structure SiteWork (f : Site → α) (s t : State) : Prop where
  shape : ∃ sites home mem pwr noc trc free parts mgt lcs, t = { s with sites := sites, home := home, mem := mem, pwr := pwr, noc := noc, trc := trc, free := free, parts := parts, mgt := mgt, lcs := lcs }
  wf : Tab.wf {} s.sites = true → Tab.wf {} t.sites = true
  keeps : Tab.wf {} s.sites = true → ∀ k, f (t.site k) = f (s.site k)

namespace SiteWork

theorem refl (s : State) : SiteWork f s s := ⟨⟨_, _, _, _, _, _, _, _, _, _, rfl⟩, id, fun _ _ => rfl⟩

theorem trans (h : SiteWork f r s) (k : SiteWork f s t) : SiteWork f r t := by
  obtain ⟨_, _, _, _, _, _, _, _, _, _, e⟩ := h.shape
  obtain ⟨_, _, _, _, _, _, _, _, _, _, e'⟩ := k.shape
  exact ⟨⟨_, _, _, _, _, _, _, _, _, _, by rw [e', e]⟩, k.wf ∘ h.wf, fun wf i => (k.keeps (h.wf wf) i).trans (h.keeps wf i)⟩

theorem ite {p : Prop} [Decidable p] {a b : State} (ha : SiteWork f s a) (hb : SiteWork f s b) : SiteWork f s (if p then a else b) := by
  split <;> assumption

theorem foldl {β : Type} {g : State → β → State} (step : ∀ s a, SiteWork f s (g s a)) (l : List β) (s : State) : SiteWork f s (l.foldl g s) := by
  induction l generalizing s with
  | nil => exact refl s
  | cons a l ih => exact (step s a).trans (ih _)

/-- A part of the state other than the sites changes. -/
theorem other (shape : ∃ sites home mem pwr noc trc free parts mgt lcs, t = { s with sites := sites, home := home, mem := mem, pwr := pwr, noc := noc, trc := trc, free := free, parts := parts, mgt := mgt, lcs := lcs }) (same : t.sites = s.sites) :
    SiteWork f s t :=
  ⟨shape, fun wf => same ▸ wf, fun _ k => congrArg (fun c => f (Tab.get ({} : Site) c k)) same⟩

theorem modSite (k : Nat) {g : Site → Site} (same : ∀ x, f (g x) = f x) (s : State) : SiteWork f s (s.modSite k g) := by
  refine ⟨⟨_, s.home, s.mem, s.pwr, s.noc, s.trc, s.free, s.parts, s.mgt, s.lcs, rfl⟩, fun wf => Tab.wf_set wf k _, fun wf i => ?_⟩
  by_cases here : i = k
  · rw [here]
    exact (congrArg f (State.site_setSite wf k _)).trans (same _)
  · exact congrArg f (State.site_setSite_other wf here _)

theorem flt (h : SiteWork f s t) : t.flt = s.flt := by obtain ⟨_, _, _, _, _, _, _, _, _, _, e⟩ := h.shape; rw [e]
theorem sec (h : SiteWork f s t) : t.sec = s.sec := by obtain ⟨_, _, _, _, _, _, _, _, _, _, e⟩ := h.shape; rw [e]

end SiteWork

/-- A site without what its power, rather than its occupant, decides. -/
def siteCore (x : Site) : Site := { x with offPend := false, auxOn := false, amps := 0, watts := 0, offAt := none }

theorem settleHome_work (s : State) : SiteWork f s (settleHome s) := by
  have grans (s : State) : SiteWork f s (settleGrans s) := by
    unfold settleGrans
    refine SiteWork.foldl (fun s g => ?_) _ s
    exact .ite (.refl s) (.other ⟨_, _, _, _, _, _, _, _, _, _, rfl⟩ rfl)
  have wins (s : State) : SiteWork f s (settleWins s) := by
    unfold settleWins
    refine SiteWork.foldl (fun s p => ?_) _ s
    exact .ite (.refl s) (.other ⟨_, _, _, _, _, _, _, _, _, _, rfl⟩ rfl)
  exact (wins s).trans (grans _)

theorem dropSite_work (n : Nat) (s : State) : SiteWork f s (dropSite n s) := by
  refine (SiteWork.foldl (fun s l => ?_) _ s).trans (settleHome_work _)
  unfold dropHolder
  exact .ite (.ite (.other ⟨_, _, _, _, _, _, _, _, _, _, rfl⟩ rfl) (.other ⟨_, _, _, _, _, _, _, _, _, _, rfl⟩ rfl)) (.refl s)

theorem setDomain_work (k : Nat) (on : Bool) (s : State) : SiteWork f s (setDomain k on s) := .other ⟨_, _, _, _, _, _, _, _, _, _, rfl⟩ rfl

theorem coreOff_work (k : Nat) (s : State) : SiteWork siteCore s (coreOff k s) := by
  unfold coreOff
  extract_lets was now
  have offline : SiteWork siteCore s (s.modSite k fun t => { t with auxOn := false, amps := 0, watts := 0, offAt := if was then some now else t.offAt }) :=
    .modSite k (by intro _; rfl) s
  exact offline.trans (setDomain_work _ _ _)

theorem offSite_work (n : Nat) (s : State) : SiteWork siteCore s (offSite n s) := by
  unfold offSite
  refine SiteWork.foldl (fun s k => ?_) _ s
  have waits : SiteWork siteCore s (s.modSite k fun t => { t with offPend := false }) := .modSite k (by intro _; rfl) s
  exact (waits.trans (coreOff_work k _)).trans (setDomain_work _ _ _)

theorem traceAt_work (point : Nat) (part : Option Nat) (s : State) : SiteWork f s (traceAt point part s) := by
  obtain ⟨trc, free, traced⟩ := traceAt_shape point part s
  rw [traced]
  exact .other ⟨_, _, _, _, _, _, _, _, _, _, rfl⟩ rfl

/-- What a site shows of its fence. -/
def siteShows (x : Site) : SState × SReason := (x.state, x.reason)

/-- A site of a list to each of which the same is done. -/
theorem foldl_modSite_holds {P : Site → Prop} {g : Site → Site} (done : ∀ x, P (g x)) {l : List Nat} (wf : Tab.wf {} s.sites = true) (listed : k ∈ l) :
    P ((l.foldl (fun s k => s.modSite k g) s).site k) := by
  have stays (l : List Nat) (s : State) (wf : Tab.wf {} s.sites = true) (now : P (s.site k)) : P ((l.foldl (fun s k => s.modSite k g) s).site k) := by
    induction l generalizing s with
    | nil => exact now
    | cons i l ih =>
      refine ih _ (Tab.wf_set wf i _) ?_
      by_cases here : k = i
      · subst here
        exact (congrArg P (State.site_setSite wf k _)).mpr (done _)
      · exact (congrArg P (State.site_setSite_other wf here _)).mpr now
  induction l generalizing s with
  | nil => cases listed
  | cons i l ih =>
    rcases List.mem_cons.mp listed with here | later
    · subst here
      exact stays l _ (Tab.wf_set wf k _) ((congrArg P (State.site_setSite wf k _)).mpr (done _))
    · exact ih (Tab.wf_set wf i _) later

/-- A site that is fenced. -/
def fencedSite (why : SReason) (x : Site) : Site :=
  { x with state := .fenced, reason := why, fencePend := none, readmPend := false, paused := false, startPend := false, arriveOut := false,
           configDone := false, tags := [] }

/-- The end of a fence that waits for no cache: the hub's own requests are refused, and the domains wait to be switched off. -/
theorem fenceSite_rest {β : Type} {g : Site → β} (keeps : ∀ (x : Site) o p, g { x with outs := o, offPend := p } = g x) (n : Nat) (why : SReason) (s : State) :
    SiteWork g ((halves s n).foldl (fun s k => s.modSite k (fencedSite why)) s) (fenceSite n why false s) := by
  unfold fenceSite
  extract_lets e was u v noc w
  have outs : SiteWork g u (failOuts e u) :=
    (SiteWork.modSite e (g := fun t => { t with outs := [] }) (fun x => keeps x [] x.offPend) u).trans (.other ⟨_, _, _, _, _, _, _, _, _, _, rfl⟩ rfl)
  have traced : SiteWork g u v := outs.trans (traceAt_work _ _ _)
  have dropped : SiteWork g u w := traced.trans (.other ⟨_, _, _, _, _, _, _, _, _, _, rfl⟩ rfl)
  simp only [Bool.false_and, Bool.false_eq_true, if_false]
  exact dropped.trans (SiteWork.modSite e (fun x => keeps x x.outs true) w)

/-- What a fence does not concern stays. -/
theorem fenceSite_work (fence : ∀ why x, f (fencedSite why x) = f x) (keeps : ∀ (x : Site) o p, f { x with outs := o, offPend := p } = f x) (n : Nat)
    (why : SReason) (s : State) : SiteWork f s (fenceSite n why false s) := by
  refine SiteWork.trans (SiteWork.foldl (fun s k => ?_) _ s) (fenceSite_rest keeps n why s)
  exact .modSite k (fence why) s

/-- A fence that waits for no cache: every half of the unit is FENCED with the reason. -/
theorem fenceSite_fences (wf : Tab.wf {} s.sites = true) (n : Nat) (why : SReason) :
    ∀ k ∈ halves s n, siteShows ((fenceSite n why false s).site k) = (.fenced, why) := by
  intro k listed
  have wf' : Tab.wf {} ((halves s n).foldl (fun s k => s.modSite k (fencedSite why)) s).sites = true :=
    (SiteWork.foldl (f := fun _ => ()) (g := fun s k => s.modSite k (fencedSite why)) (fun s k => .modSite k (by intro _; rfl) s) (halves s n) s).wf wf
  exact ((fenceSite_rest (g := siteShows) (fun _ _ _ => rfl) n why s).keeps wf' k).trans
    (foldl_modSite_holds (P := fun x => siteShows x = (.fenced, why)) (fun _ => rfl) wf listed)

/-- The unit of a site is one of its halves. -/
theorem evenOf_mem_halves (s : State) (n : Nat) : evenOf s n ∈ halves s n := by
  unfold evenOf halves
  dsimp only
  split
  · exact List.mem_cons_self
  · exact List.mem_cons_self

/-- A site's unit is itself where another site's unit is it. -/
theorem even_of_unit (unit : evenOf s n = e) : evenOf s e = e := by
  rw [← unit]
  exact evenOf_evenOf (fun _ => rfl) n

/-- The end of every failure: the unit's sites, as they were fenced, once its fault is raised. -/
theorem raised_fenced (groups : Groups s) (calm : Calm 16 s) {u v : State} {why : SReason} (wf : Tab.wf {} u.sites = true) (same : u.flt = s.flt)
    (here : siteShows (u.site e) = (.fenced, why)) (ends : SiteWork siteCore u v) {bit : Nat} (low : bit < 32) (unit : Nat) :
    FencedAs e why bit (raise 16 bit unit v) := by
  have flt : v.flt = s.flt := ends.flt.trans same
  have shows : siteShows (v.site e) = (.fenced, why) := (congrArg siteShows (ends.keeps wf e)).trans here
  have rises := groups_of_flt flt groups
  have still := calm_keeps flt calm
  have site : (raise 16 bit unit v).site e = v.site e := congrArg (fun c => Tab.get ({} : Site) c e) (Laws.raise_calm_sites rises still)
  refine ⟨?_, ?_, Laws.raise_sets rises low⟩
  · rw [site]
    exact congrArg Prod.fst shows
  · rw [site]
    exact congrArg Prod.snd shows

/-- A site that fails is fenced with its reason, and its fault bit is set. -/
theorem failSite_fences (groups : Groups s) (calm : Calm 16 s) (wf : Tab.wf {} s.sites = true) (unit : evenOf s n = e) (why : SReason) {bit : Nat} (low : bit < 32) :
    FencedAs e why bit (failSite n why bit s) := by
  unfold failSite
  dsimp only
  rw [unit]
  have even := even_of_unit unit
  have works : SiteWork (fun _ => ()) s (fenceSite e why false s) := fenceSite_work (fun _ _ => rfl) (fun _ _ _ => rfl) e why s
  have here := fenceSite_fences wf e why e (by simpa [even] using evenOf_mem_halves s e)
  generalize fenceSite e why false s = u at works here ⊢
  have dropped : SiteWork siteCore u (dropSite e u) := dropSite_work e u
  exact raised_fenced groups calm (works.wf wf) works.flt here (.ite dropped (dropped.trans (offSite_work e _))) low e

/-- A unit's state that is written leaves a trace, and nothing else. -/
theorem siteState_is (wf : Tab.wf {} s.sites = true) (unit : evenOf s n = e) (st : SState) :
    SiteWork (fun _ => ()) s (siteState n st s) ∧ (siteState n st s).site e = { s.site e with state := st } ∧ (siteState n st s).mem = s.mem := by
  unfold siteState
  dsimp only
  rw [unit]
  obtain ⟨site, mem, -⟩ := traceAt_leaves (e := e) (88 + e) (s.site e).owner (s.modSite e fun t => { t with state := st })
  have wrote : SiteWork (fun _ => ()) s (s.modSite e fun t => { t with state := st }) := .modSite e (by intro _; rfl) s
  exact ⟨wrote.trans (traceAt_work _ _ _), site.trans (State.site_setSite wf e _), mem⟩

end Sys2Proof.Machine
end


section
namespace Sys2Proof.Proofs
open Sys2Proof Sys2Proof.Machine Sys2Proof.Safety

variable {n : Fin 18} {m : GMsg} {s : State} {o : SiteOut} {r : Req}

/-- What the end of a hub's request to an occupant leaves, for an answer of either kind. -/
theorem outs_ended {e tag : Nat} {rd : Bool} (sites : Tab.wf {} s.sites = true) (found : outOf (s.site e) tag rd = some o) (req : s.reqOf o.req = some r)
    (bs : List Byte) (poison refused : Bool) (said : (rd && refused) = true → poison = true) :
    let u := occupantAnswer e tag rd bs poison refused s
    (u.site e).outs = (s.site e).outs.erase o ∧ u.noc.resps =
      s.noc.resps ++ [{ tag := o.req, data := (bs.drop (r.addr % 64)).take r.len, poison := poison, refused := refused }] ∧ u.mem = s.mem := by
  have kind : o.rd = rd := by
    have own := List.find?_some found
    simp only [Bool.and_eq_true, beq_iff_eq] at own
    exact own.2
  subst kind
  obtain ⟨outs, mem, resps⟩ := occupantAnswer_ends sites found req bs poison refused
  refine ⟨outs, resps.trans ?_, mem⟩
  rw [show (poison || (o.rd && refused)) = poison by
    cases h : (o.rd && refused) with
    | false => exact Bool.or_false _
    | true => rw [said h]; rfl]

/-- An answer to a read or a write of the hub ends it. -/
theorem exec_rdData (gelja : isGelja (s.site (evenOf s n.val)) = true) (up : linkUp (s.site (evenOf s n.val)) = true) (travels : Travels 3 1 4 m)
    (found : outOf (s.site (evenOf s n.val)) m.tag.toNat true = some o) :
    exec (.rdData n m) s = .next (occupantAnswer (evenOf s n.val) m.tag.toNat true m.data (m.poison || m.status != 0) (m.status == 4) s) := by
  refine congrArg Host.Outcome.next ?_
  show rdData n.val (received 3 m) s = _
  rw [travels.1]
  exact geljaAnswer_known gelja up travels.2 (by rw [found]; rfl)

theorem exec_cmp (gelja : isGelja (s.site (evenOf s n.val)) = true) (up : linkUp (s.site (evenOf s n.val)) = true) (travels : Travels 4 0 0 m)
    (found : outOf (s.site (evenOf s n.val)) m.tag.toNat false = some o) :
    exec (.cmp n m) s = .next (occupantAnswer (evenOf s n.val) m.tag.toNat false [] false (m.status == 4 || m.status == 6) s) := by
  refine congrArg Host.Outcome.next ?_
  show Machine.cmp n.val (received 4 m) s = _
  rw [travels.1]
  exact geljaAnswer_known gelja up travels.2 (by rw [found]; rfl)

/-- A hub's request that is not answered in time is refused, and its read poisoned. -/
theorem occupantLate_refused (groups : Groups s) (calm : Calm 16 s) (sites : Tab.wf {} s.sites = true) {tag : Nat}
    (first : (s.site (evenOf s n.val)).outs.find? (fun o => o.tag == tag) = some o) :
    let t := occupantRspTimeout n.val tag s
    ∃ p, FaultSet 16 3 t ∧ (t.site (evenOf s n.val)).outs = (s.site (evenOf s n.val)).outs.erase o ∧ t.noc.resps = s.noc.resps ++ [p] ∧
      p.tag = o.req ∧ p.refused = true ∧ p.poison = o.rd ∧ t.mem = s.mem := by
  have shape : ∃ d free, occupantRspTimeout n.val tag s = raise 16 3 (evenOf s n.val)
      (pushResp { tag := o.req, data := d, poison := o.rd, refused := true }
        (({ s with free := free } : State).modSite (evenOf s n.val) fun t => { t with outs := t.outs.erase o })) := by
    unfold occupantRspTimeout
    dsimp only
    rw [first]
    dsimp only
    cases o.rd with
    | true => exact ⟨_, _, rfl⟩
    | false => exact ⟨_, s.free, rfl⟩
  obtain ⟨d, free, is⟩ := shape
  intro t
  rw [show t = _ from is]
  refine ⟨_, Laws.raise_sets (by exact groups) (by decide), ?_, (congrArg Noc.resps (Laws.raise_calm_noc (by exact groups) (by exact calm))).trans rfl, rfl, rfl, rfl,
    (Laws.raise_calm_mem (by exact groups) (by exact calm)).trans rfl⟩
  exact (congrArg (fun c => (Tab.get ({} : Site) c (evenOf s n.val)).outs) (Laws.raise_calm_sites (by exact groups) (by exact calm))).trans
    (congrArg Site.outs (State.site_setSite (s := { s with free := free }) sites _ _))

/-- Whether an IDENTITY disagrees with its site. -/
def disagrees (m : GMsg) (x : Site) (e : Nat) : Bool :=
  rfld m.extra 0 24 8 != 1 || rfld m.extra 0 0 4 != x.cls || rfld m.extra 0 8 5 != e || rfld m.extra 0 4 4 != (if x.double then 8 else 4) ||
    (rbit m.extra 8 12 && x.cls == 3) || (rbit m.extra 8 13 && (rfld m.extra 0xC 0 32 == 0 || rfld m.extra 8 0 12 == 0))

theorem disagrees_iff {x : Site} {e : Nat} : disagrees m x e = true ↔
    ¬(rfld m.extra 0 24 8 = 1 ∧ rfld m.extra 0 0 4 = x.cls ∧ rfld m.extra 0 8 5 = e ∧ rfld m.extra 0 4 4 = (if x.double then 8 else 4) ∧
        (rbit m.extra 8 12 = true → x.cls ≠ 3) ∧ (rbit m.extra 8 13 = true → rfld m.extra 0xC 0 32 ≠ 0 ∧ rfld m.extra 8 0 12 ≠ 0)) := by
  unfold disagrees
  simp only [Bool.or_eq_true, Bool.and_eq_true, bne_iff_ne, beq_iff_eq, ne_eq]
  tauto

/-- A site that has read an IDENTITY's class. -/
def foundClass (m : GMsg) (e : Nat) (s : State) : State := s.modSite e fun t => { t with found := rfld m.extra 0 0 4 }

/-- What an agreeing IDENTITY tells of its occupant. -/
def noteIdentity (m : GMsg) (x : Site) : Site :=
  { x with idOk := true, caching := rbit m.extra 8 12, offersMem := rbit m.extra 8 13,
           maxTags := min 3840 (rfld m.extra 8 0 12), memSize := min 16777216 (rfld m.extra 0xC 0 32) }

/-- An IDENTITY in the right place, whose reserved fields are 0. -/
theorem exec_identity (gelja : isGelja (s.site (evenOf s n.val)) = true) (state : (s.site (evenOf s n.val)).state = .negotiate)
    (open_ : admits (s.site (evenOf s n.val)) = true) (travels : Travels 0x60 0 0 m) (param : m.param = 0) (low : rfld m.extra 0 13 3 = 0)
    (high : rfld m.extra 8 14 18 = 0) :
    exec (.identity n m) s = .next (if disagrees m (s.site (evenOf s n.val)) (evenOf s n.val)
      then failSite (evenOf s n.val) .classR 5 (foundClass m (evenOf s n.val) s)
      else siteState (evenOf s n.val) .attest ((foundClass m (evenOf s n.val) s).modSite (evenOf s n.val) (noteIdentity m))) := by
  refine congrArg Host.Outcome.next ?_
  show identity n.val (received 0x60 m) s = _
  rw [travels.1]
  unfold identity
  dsimp only
  rw [if_neg (by simp [gelja, state, open_]), if_neg (by simp [travels.2, param, low, high])]
  rfl

/-- A flag of a partition's ARRIVE that is marked where a note asks for it. -/
theorem markFlag_bit (parts : Tab.wf {} s.parts = true) (p : Nat) (ask : Bool) {bit : Nat} (low : bit < 8) :
    let t := if ask then markFlag p bit s else s
    (∀ j, (t.part p).flags.getLsbD j = (((s.part p).flags.getLsbD j) || (ask && decide (j = bit)))) ∧ Tab.wf {} t.parts = true ∧ t.mem = s.mem := by
  cases ask with
  | false => exact ⟨fun j => by simp, parts, rfl⟩
  | true =>
    refine ⟨fun j => ?_, Tab.wf_set parts p _, rfl⟩
    have flags : ((markFlag p bit s).part p).flags = putBit (s.part p).flags bit true := congrArg Part.flags (State.part_setPart parts p _)
    show ((markFlag p bit s).part p).flags.getLsbD j = _
    rw [flags, getLsbD_putBit]
    by_cases here : j = bit
    · simp [here, low]
    · simp [here]

/-- The notes of an ARRIVE_INFO of the running step. -/
theorem exec_arriveInfo {p : Nat} (gelja : isGelja (s.site (evenOf s n.val)) = true) (admitted : (s.site (evenOf s n.val)).state = .admitted)
    (owner : (s.site (evenOf s n.val)).owner = some p) (travels : Travels 0x66 0 0 m) (config : (s.site (evenOf s n.val)).configDone = true)
    (step : m.param.toNat % 2 ^ 32 = (s.part p).step.toNat % 2 ^ 32) :
    exec (.arriveInfo n m) s = .next (if m.param.getLsbD 33 then markFlag p 1 (if m.param.getLsbD 32 then markFlag p 2 s else s)
      else if m.param.getLsbD 32 then markFlag p 2 s else s) := by
  refine congrArg Host.Outcome.next ?_
  show arriveInfo n.val (received 0x66 m) s = _
  rw [travels.1]
  unfold arriveInfo
  dsimp only
  rw [if_neg (by simp [gelja, linkUp, admitted]), if_neg (by simp [travels.2, config]), admitted, owner]
  dsimp only
  rw [if_neg (by simpa using step.symm)]

/-- A voltage that an occupant asks for is limited, set or kept for its owner's stop, and answered. -/
theorem exec_voltReq (gelja : isGelja (s.site (evenOf s n.val)) = true) (admitted : (s.site (evenOf s n.val)).state = .admitted)
    (travels : Travels 0x67 0 0 m) (config : (s.site (evenOf s n.val)).configDone = true) :
    exec (.voltReq n m) s = .next (geljaTo (evenOf s n.val) 0x68 (ctlMsg (clampVolt (s.site (evenOf s n.val)) (bits m.param.toNat 0 11)))
      (setVolt (evenOf s n.val) (clampVolt (s.site (evenOf s n.val)) (bits m.param.toNat 0 11)) s)) := by
  refine congrArg Host.Outcome.next ?_
  show voltReq n.val (received 0x67 m) s = _
  rw [travels.1]
  unfold voltReq
  dsimp only
  rw [if_neg (by simp [gelja, linkUp, admitted]), if_neg (by simp [travels.2, config]), if_neg (by simp [admitted])]

theorem setVolt_site (sites : Tab.wf {} s.sites = true) (e v : Nat) : (setVolt e v s).site e =
    if voltWaits (s.site e) s then { s.site e with vpend := some v } else { s.site e with vset := v } := by
  have is : setVolt e v s = if voltWaits (s.site e) s then s.setSite e { s.site e with vpend := some v } else s.setSite e { s.site e with vset := v } := rfl
  rw [is]
  split <;> exact State.site_setSite sites e _

/-- A site that has taken the credits of a CREDIT message. -/
def creditsTaken (m : GMsg) (x : Site) : Site :=
  { x with credits :=
      Tab.upd 0 (Tab.upd 0 (Tab.upd 0 x.credits 0 (· + bits m.param.toNat 0 16)) 2 (· + bits m.param.toNat 16 16)) 1 (· + bits m.param.toNat 32 16) }

theorem drainSnoops_none {e : Nat} (idle : (s.site e).snpQ = []) : drainSnoops e s = s.modSite e fun t => { t with snpQ := [] } := by
  unfold drainSnoops
  rw [idle]
  rfl

/-- Credits that an occupant returns, with no snoop queued for want of them. -/
theorem exec_credit (sites : Tab.wf {} s.sites = true) (gelja : isGelja (s.site (evenOf s n.val)) = true) (up : linkUp (s.site (evenOf s n.val)) = true)
    (travels : Travels 0x69 0 0 m) (idle : (s.site (evenOf s n.val)).snpQ = []) :
    exec (.credit n m) s = .next ((s.setSite (evenOf s n.val) (creditsTaken m (s.site (evenOf s n.val)))).modSite (evenOf s n.val) fun t => { t with snpQ := [] }) := by
  refine congrArg Host.Outcome.next ?_
  show credit n.val (received 0x69 m) s = _
  rw [travels.1]
  unfold credit
  dsimp only
  rw [if_neg (by simp [gelja, up]), if_neg (by simp [travels.2])]
  have queue : ((s.setSite (evenOf s n.val) (creditsTaken m (s.site (evenOf s n.val)))).site (evenOf s n.val)).snpQ = [] :=
    (congrArg Site.snpQ (State.site_setSite sites _ _)).trans idle
  exact drainSnoops_none (s := s.setSite (evenOf s n.val) (creditsTaken m (s.site (evenOf s n.val)))) queue

/-- Settles O40: an answer ends the request that it names, and a control message does its one thing. -/
theorem geljaAnswers : Obligations.GeljaAnswers := by
  unfold Obligations.GeljaAnswers
  intro n m s canon e x
  have groups := groups_of_canon canon
  obtain ⟨wf, parts, -, sites, -⟩ := canon
  have even : evenOf s e = e := evenOf_evenOf (fun _ => rfl) n.val
  refine ⟨fun o r gelja up req => ⟨fun travels found => ?_, fun travels found => ?_⟩, fun tag o first calm => ?_,
    fun gelja state open_ travels param low high => ?_, fun p gelja admitted owner travels config step => ?_, fun gelja admitted travels config => ?_,
    fun gelja up travels idle => ?_⟩
  · obtain ⟨outs, resps, mem⟩ := outs_ended sites found req m.data (m.poison || m.status != 0) (m.status == 4) (fun h => by
      simp only [Bool.true_and, beq_iff_eq] at h
      rw [h]
      exact Bool.or_true _)
    exact ⟨_, exec_rdData gelja up travels found, outs, resps, mem⟩
  · obtain ⟨outs, resps, mem⟩ := outs_ended sites found req [] false (m.status == 4 || m.status == 6) (fun h => by cases h)
    refine ⟨_, exec_cmp gelja up travels found, outs, resps.trans ?_, mem⟩
    rw [List.drop_nil, List.take_nil]
  · obtain ⟨p, set, outs, resps, own, refused, poison, mem⟩ := occupantLate_refused groups calm sites first
    exact ⟨_, p, rfl, set, outs, resps, own, refused, poison, mem⟩
  · intro cls agrees
    have runs := exec_identity gelja state open_ travels param low high
    have wf' : Tab.wf {} (foundClass m e s).sites = true := Tab.wf_set sites e _
    have even' : evenOf (foundClass m e s) e = e := by
      refine (congrArg (evenOf _) even.symm).trans ((evenOf_evenOf (s := s) (fun k => ?_) e).trans even)
      exact double_setSite sites (x := { x with found := rfld m.extra 0 0 4 }) rfl k
    refine ⟨fun agree => ?_, fun not_ calm => ?_⟩
    · have good : ¬disagrees m x e = true := fun bad => disagrees_iff.mp bad agree
      rw [if_neg good] at runs
      obtain ⟨v, isv⟩ : ∃ v, v = (foundClass m e s).modSite e (noteIdentity m) := ⟨_, rfl⟩
      have wf'' : Tab.wf {} v.sites = true := by rw [isv]; exact Tab.wf_set wf' e _
      have found : (foundClass m e s).site e = { x with found := rfld m.extra 0 0 4 } := State.site_setSite sites e _
      have site : v.site e = noteIdentity m ((foundClass m e s).site e) := by
        rw [isv]
        exact State.site_setSite wf' e _
      have even'' : evenOf v e = e := by
        refine (congrArg (evenOf _) even'.symm).trans ((evenOf_evenOf (s := foundClass m e s) (fun k => ?_) e).trans even')
        rw [isv]
        exact double_setSite wf' (x := noteIdentity m ((foundClass m e s).site e)) rfl k
      have kept : v.mem = s.mem := by rw [isv]; rfl
      obtain ⟨-, leaves, mem⟩ := siteState_is wf'' even'' .attest
      rw [← isv] at runs
      refine ⟨_, runs, leaves.trans ?_, mem.trans kept⟩
      rw [site, found]
      rfl
    · rw [if_pos (disagrees_iff.mpr not_)] at runs
      exact ⟨_, runs, failSite_fences (s := foundClass m e s) groups calm wf' even' .classR (by decide)⟩
  · obtain ⟨taint, parts', mem⟩ := markFlag_bit parts p (m.param.getLsbD 32) (bit := 2) (by decide)
    obtain ⟨poison, -, mem'⟩ := markFlag_bit (s := if m.param.getLsbD 32 then markFlag p 2 s else s) parts' p (m.param.getLsbD 33) (bit := 1) (by decide)
    refine ⟨_, exec_arriveInfo gelja admitted owner travels config step, mem'.trans mem, (poison 2).trans ?_, (poison 1).trans ?_⟩
    · rw [taint 2]
      simp
    · rw [taint 1]
      simp
  · exact ⟨_, exec_voltReq gelja admitted travels config, List.mem_cons_self, setVolt_site sites e _⟩
  · refine ⟨_, exec_credit sites gelja up travels idle, rfl, ?_⟩
    have there := State.site_setSite sites e (creditsTaken m x)
    have drained := State.site_setSite (s := s.setSite e (creditsTaken m x)) (Tab.wf_set sites e _) e { (s.setSite e (creditsTaken m x)).site e with snpQ := [] }
    refine (congrArg Site.credits drained).trans ?_
    exact congrArg Site.credits there

end Sys2Proof.Proofs
end


section
/-! SUPPORT. The stages of a site's admission. -/
namespace Sys2Proof.Machine
open Sys2Proof Sys2Proof.Safety

variable {s t u : State} {n e k : Nat}

/-- The units are the same where every site keeps its width. -/
theorem unit_congr (double : ∀ k, (t.site k).double = (s.site k).double) (n : Nat) : evenOf t n = evenOf s n ∧ halves t n = halves s n := by
  have same : halves t n = halves s n := by
    unfold halves
    dsimp only
    rw [double]
  exact ⟨congrArg (fun l : List Nat => l.headD n) same, same⟩

/-- What is found at a training is noted in firmware's records. -/
theorem judgeLinks_shape (e : Nat) (ks found : List Nat) (s : State) : ∃ mgt lcs, judgeLinks e ks found s = { s with mgt := mgt, lcs := lcs } := by
  have add (l : List Nat) (s : State) : ∃ mgt lcs, l.foldl (fun s d => addFinding (BitVec.ofNat 32 d) s) s = { s with mgt := mgt, lcs := lcs } := by
    induction l generalizing s with
    | nil => exact ⟨s.mgt, s.lcs, rfl⟩
    | cons d l ih =>
      obtain ⟨mgt, lcs, is⟩ := ih (addFinding (BitVec.ofNat 32 d) s)
      exact ⟨mgt, lcs, is⟩
  have append (s : State) : ∃ mgt lcs, appendFindings s = { s with mgt := mgt, lcs := lcs } := by
    unfold appendFindings
    generalize s.mgt.findings = l
    induction l generalizing s with
    | nil => exact ⟨s.mgt, s.lcs, rfl⟩
    | cons f l ih =>
      rw [List.foldl_cons]
      by_cases few : f.2 < 3
      · rw [if_pos few]
        exact ih s
      · rw [if_neg few]
        cases appended : appendDefect f.1.toNat s with
        | none =>
          obtain ⟨mgt, lcs, is⟩ := ih (writeLog 0x40 1 4 0xFF f.1.toNat 0 s)
          exact ⟨mgt, lcs, is⟩
        | some t =>
          obtain ⟨lcs, burnt⟩ : ∃ lcs, t = { s with lcs := lcs } := by
            unfold appendDefect at appended
            dsimp only at appended
            split at appended
            · cases appended
            · exact ⟨_, (Option.some.inj appended).symm⟩
          subst burnt
          obtain ⟨mgt, lcs, is⟩ := ih (writeLog 0x40 1 4 (f.1.toNat / 0x10000000) f.1.toNat 0
            { s with lcs := lcs, mgt := { s.mgt with findings := s.mgt.findings.filter (fun g => g.1 != f.1) } })
          exact ⟨mgt, lcs, is⟩
  unfold judgeLinks
  dsimp only
  split
  · exact add _ s
  · obtain ⟨mgt, lcs, is⟩ := append { s with mgt := { s.mgt with linkTests := e :: s.mgt.linkTests, findings := _ } }
    rw [is]
    exact ⟨_, lcs, rfl⟩

/-- The modules that a training leaves at a unit (R413, R734). -/
def modulesLeft (e modules : Nat) (disabled : List Nat) (s : State) : Nat :=
  min modules (4 * (halves s e).length - ((disabled.map (moduleData e) ++ (mapUnitsOf s).filter (ofSites 5 (halves s e))).eraseDups).length)

/-- What a training leaves: the unit's modules and lanes, and firmware's notes of them. -/
theorem noteTraining_leaves (s : State) (e modules : Nat) (repaired : List (Nat × Nat)) (disabled : List Nat) :
    ∃ lanes mgt lcs, noteTraining e modules repaired disabled s =
      { s.setSite e { s.site e with modules := modulesLeft e modules disabled s, repaired := lanes } with mgt := mgt, lcs := lcs } := by
  unfold noteTraining
  extract_lets ks lanes off lanesAll offAll
  obtain ⟨mgt, lcs, is⟩ := judgeLinks_shape e ks (lanes ++ off) (s.modSite e fun t => { t with modules := min modules (4 * ks.length - offAll), repaired := lanesAll })
  exact ⟨lanesAll, mgt, lcs, is⟩

/-- The state of a unit whose training has been noted, and whose disabled modules are reported. -/
structure Trained (e n modules : Nat) (s t : State) : Prop where
  wf : Tab.wf {} t.sites = true
  groups : Groups t
  unit : evenOf t n = e
  left : (t.site e).modules = modules
  mem : t.mem = s.mem
  logs : Logs 16 s → Logs 16 t

/-- A training that is noted: the unit's modules, and the fault of disabled ones. -/
theorem trained (groups : Groups s) (wf : Tab.wf {} s.sites = true) (unit : evenOf s n = e) (modules : Nat) (repaired : List (Nat × Nat)) (disabled : List Nat)
    (calm : disabled = [] ∨ Calm 16 s) :
    let t := if disabled.isEmpty then noteTraining e modules repaired disabled s else raise 16 9 e (noteTraining e modules repaired disabled s)
    Trained e n (modulesLeft e modules disabled s) s t ∧ (disabled ≠ [] → FaultSet 16 9 t) := by
  obtain ⟨lanes, mgt, lcs, is⟩ := noteTraining_leaves s e modules repaired disabled
  rw [is]
  obtain ⟨v, isv⟩ : ∃ v, v = s.setSite e { s.site e with modules := modulesLeft e modules disabled s, repaired := lanes } := ⟨_, rfl⟩
  rw [← isv]
  have wf' : Tab.wf {} v.sites = true := by rw [isv]; exact Tab.wf_set wf e _
  have width : ∀ k, (v.site k).double = (s.site k).double := by rw [isv]; exact double_setSite wf rfl
  have unit' : evenOf v n = e := (unit_congr width n).1.trans unit
  have left : (v.site e).modules = modulesLeft e modules disabled s := by rw [isv, State.site_setSite wf]
  have mem : v.mem = s.mem := by rw [isv]; rfl
  have flt : v.flt = s.flt := by rw [isv]; rfl
  obtain ⟨u, isu⟩ : ∃ u : State, u = { v with mgt := mgt, lcs := lcs } := ⟨_, rfl⟩
  rw [← isu]
  have same : Groups u := groups_of_flt (by rw [isu]; exact flt) groups
  have grp : u.grp 16 = s.grp 16 := by
    unfold State.grp
    rw [isu, flt]
  have base : Trained e n (modulesLeft e modules disabled s) s u :=
    ⟨by rw [isu]; exact wf', same, by rw [isu]; exact unit', by rw [isu]; exact left, by rw [isu]; exact mem,
      fun logs => (congrArg FGroup.action grp).trans logs⟩
  cases disabled with
  | nil => exact ⟨base, fun some_ => absurd rfl some_⟩
  | cons d l =>
    have still : Calm 16 u := calm_keeps (by rw [isu]; exact flt) (calm.resolve_left (by simp))
    have noted := raise_notes (bit := 9) (unit := e) same still
    have sites := Laws.raise_calm_sites (bit := 9) (unit := e) same still
    have site (k : Nat) : (raise 16 9 e u).site k = u.site k := congrArg (fun c => Tab.get ({} : Site) c k) sites
    refine ⟨⟨by rw [if_neg (by simp), sites]; exact base.wf, by rw [if_neg (by simp)]; exact noted.rises, ?_, ?_, ?_, fun logs => ?_⟩, fun _ => ?_⟩
    · rw [if_neg (by simp)]
      exact (unit_congr (fun k => congrArg Site.double (site k)) n).1.trans base.unit
    · rw [if_neg (by simp), site]
      exact base.left
    · rw [if_neg (by simp)]
      exact (Laws.raise_calm_mem same still).trans base.mem
    · rw [if_neg (by simp)]
      exact noted.action.trans (base.logs logs)
    · rw [if_neg (by simp)]
      exact Laws.raise_sets same (by decide)

/-! ### Power and straps -/

/-- The straps that were read at a half. -/
def siteStraps (x : Site) : BitVec 6 × BitVec 6 × Bool := (x.strapT, x.strapC, x.strapIn)

/-- One half is switched on. -/
def halfOn (k : Nat) (s : State) : State := setDomain (40 + k) true (setDomain (22 + k) true (s.modSite k fun t => { t.fresh with auxOn := true }))

/-- The domains of a unit are switched on. -/
def railsOn (ks : List Nat) (s : State) : State := ks.foldl (fun s k => halfOn k s) s

theorem railsOn_cons (k : Nat) (ks : List Nat) (s : State) : railsOn (k :: ks) s = railsOn ks (halfOn k s) := rfl

/-- A domain that is on stays on where another is switched on. -/
theorem setDomain_stays (k : Nat) (s : State) {j : Nat} (low : j < 64) (on : s.pwr.domains.getLsbD j = true) :
    (setDomain k true s).pwr.domains.getLsbD j = true := by
  show (putBit s.pwr.domains k true).getLsbD j = true
  rw [getLsbD_putBit]
  split
  · next same => simpa [← same] using low
  · exact on

theorem setDomain_on {k : Nat} (s : State) (low : k < 64) : (setDomain k true s).pwr.domains.getLsbD k = true := by
  show (putBit s.pwr.domains k true).getLsbD k = true
  rw [getLsbD_putBit]
  simp [low]

theorem halfOn_stays (k : Nat) (s : State) {j : Nat} (low : j < 64) (on : s.pwr.domains.getLsbD j = true) : (halfOn k s).pwr.domains.getLsbD j = true :=
  setDomain_stays _ _ low (setDomain_stays _ _ low on)

theorem railsOn_stays (ks : List Nat) (s : State) {j : Nat} (low : j < 64) (on : s.pwr.domains.getLsbD j = true) : (railsOn ks s).pwr.domains.getLsbD j = true := by
  induction ks generalizing s with
  | nil => exact on
  | cons k ks ih => exact ih _ (halfOn_stays k s low on)

/-- The domains of a unit's half are on. -/
theorem railsOn_on {ks : List Nat} (s : State) (listed : k ∈ ks) (low : k < 18) :
    (railsOn ks s).pwr.domains.getLsbD (22 + k) = true ∧ (railsOn ks s).pwr.domains.getLsbD (40 + k) = true := by
  induction ks generalizing s with
  | nil => cases listed
  | cons i ks ih =>
    rcases List.mem_cons.mp listed with here | later
    · subst here
      rw [railsOn_cons]
      exact ⟨railsOn_stays ks _ (by omega) (setDomain_stays (40 + k) (setDomain (22 + k) true _) (by omega) (setDomain_on _ (by omega))),
        railsOn_stays ks _ (by omega) (setDomain_on (setDomain (22 + k) true _) (by omega))⟩
    · rw [railsOn_cons]
      exact ih _ later

/-- What is read of a site that the power of its unit does not concern. -/
theorem railsOn_work {α : Type} {f : Site → α} (fresh : ∀ x : Site, f { x.fresh with auxOn := true } = f x) (ks : List Nat) (s : State) :
    SiteWork f s (railsOn ks s) := by
  refine SiteWork.foldl (g := fun s k => halfOn k s) (fun s k => ?_) ks s
  have here : SiteWork f s (s.modSite k fun t => { t.fresh with auxOn := true }) := .modSite k (by intro x; exact fresh x) s
  exact here.trans ((setDomain_work _ _ _).trans (setDomain_work _ _ _))

theorem railsOn_mem (ks : List Nat) (s : State) : (railsOn ks s).mem = s.mem := by
  induction ks generalizing s with
  | nil => rfl
  | cons k ks ih => exact ih (halfOn k s)

/-- What a failure of a unit leaves of a site's fields that neither its fence nor its power concerns. -/
theorem failSite_site {α : Type} {f : Site → α} (groups : Groups s) (calm : Calm 16 s) (wf : Tab.wf {} s.sites = true)
    (fence : ∀ why x, f (fencedSite why x) = f x) (keeps : ∀ (x : Site) o p, f { x with outs := o, offPend := p } = f x)
    (core : ∀ x y, siteCore x = siteCore y → f x = f y) (n : Nat) (why : SReason) (bit k : Nat) : f ((failSite n why bit s).site k) = f (s.site k) := by
  unfold failSite
  dsimp only
  have works := fenceSite_work fence keeps (evenOf s n) why s
  generalize fenceSite (evenOf s n) why false s = u at works ⊢
  have dropped : SiteWork siteCore u (dropSite (evenOf s n) u) := dropSite_work _ u
  have ends : SiteWork siteCore u (if ownerActive s (s.site (evenOf s n)).owner then dropSite (evenOf s n) u else offSite (evenOf s n) (dropSite (evenOf s n) u)) :=
    .ite dropped (dropped.trans (offSite_work _ _))
  generalize (if ownerActive s (s.site (evenOf s n)).owner then dropSite (evenOf s n) u else offSite (evenOf s n) (dropSite (evenOf s n) u)) = v at ends ⊢
  have flt : v.flt = s.flt := ends.flt.trans works.flt
  have sites := Laws.raise_calm_sites (bit := bit) (unit := evenOf s n) (groups_of_flt flt groups) (calm_keeps flt calm)
  refine (congrArg (fun c => f (Tab.get ({} : Site) c k)) sites).trans ?_
  exact (core _ _ (ends.keeps (works.wf wf) k)).trans (works.keeps wf k)

theorem foldl_modSite_shape (g : Site → Site) (l : List Nat) (s : State) : ∃ sites, l.foldl (fun s k => s.modSite k g) s = { s with sites := sites } := by
  induction l generalizing s with
  | nil => exact ⟨s.sites, rfl⟩
  | cons k l ih =>
    obtain ⟨sites, is⟩ := ih (s.modSite k g)
    exact ⟨sites, is⟩

/-- The halves of a unit, from its even half. -/
theorem halves_of_even (even : evenOf s e = e) : halves s e = [e] ∨ halves s e = [e, e + 1] := by
  unfold evenOf halves at *
  dsimp only at *
  split at even
  · next two =>
    rw [if_pos two]
    rw [List.headD_cons] at even
    rw [even]
    exact .inr rfl
  · next one =>
    rw [if_neg one]
    exact .inl rfl

/-- A unit that has switched its domains on, before its straps are read. -/
def inRails (e : Nat) (s : State) : State :=
  siteState e .rails ((railsOn (halves s e) s).modSite e fun t => { t with vset := t.fld 0x0C 0 11 })

/-- A unit in RAILS: its straps as they were sampled, its domains on. -/
structure InRails (e : Nat) (s t : State) : Prop where
  wf : Tab.wf {} t.sites = true
  straps : ∀ k, siteStraps (t.site k) = siteStraps (s.site k)
  double : ∀ k, (t.site k).double = (s.site k).double
  state : (t.site e).state = .rails
  mem : t.mem = s.mem
  flt : t.flt = s.flt
  power : t.pwr.domains.getLsbD (22 + e) = true ∧ t.pwr.domains.getLsbD (40 + e) = true

theorem inRails_is (wf : Tab.wf {} s.sites = true) (even : evenOf s e = e) (low : e < 18) : InRails e s (inRails e s) := by
  have listed : e ∈ halves s e := by simpa [even] using evenOf_mem_halves s e
  have work {α : Type} {f : Site → α} (fresh : ∀ x : Site, f { x.fresh with auxOn := true } = f x) (volts : ∀ (x : Site) v, f { x with vset := v } = f x) :
      SiteWork f s ((railsOn (halves s e) s).modSite e fun t => { t with vset := t.fld 0x0C 0 11 }) := by
    refine (railsOn_work fresh (halves s e) s).trans ?_
    exact .modSite e (by intro x; exact volts x _) _
  have on := railsOn_on s listed low
  have mem := railsOn_mem (halves s e) s
  unfold inRails
  obtain ⟨u, isu⟩ : ∃ u, u = (railsOn (halves s e) s).modSite e fun t => { t with vset := t.fld 0x0C 0 11 } := ⟨_, rfl⟩
  have domains : u.pwr = (railsOn (halves s e) s).pwr := by rw [isu]; rfl
  have kept : u.mem = s.mem := by rw [isu]; exact mem
  rw [← isu] at work ⊢
  have double := (work (f := Site.double) (fun _ => rfl) fun _ _ => rfl)
  have unit : evenOf u e = e := (unit_congr (double.keeps wf) e).1.trans even
  obtain ⟨works, site, same⟩ := siteState_is (double.wf wf) unit .rails
  have traced {α : Type} {f : Site → α} (state : ∀ (x : Site) st, f { x with state := st } = f x) : SiteWork f u (siteState e .rails u) := by
    unfold siteState
    dsimp only
    have wrote : SiteWork f u (u.modSite (evenOf u e) fun t => { t with state := .rails }) := .modSite _ (by intro x; exact state x _) u
    exact wrote.trans (traceAt_work _ _ _)
  have power : (siteState e .rails u).pwr = u.pwr := by
    unfold siteState
    dsimp only
    obtain ⟨trc, free, is⟩ := traceAt_shape (88 + evenOf u e) (u.site (evenOf u e)).owner (u.modSite (evenOf u e) fun t => { t with state := .rails })
    rw [is]
    rfl
  have straps := (work (f := siteStraps) (fun _ => rfl) fun _ _ => rfl)
  refine ⟨works.wf (double.wf wf), fun k => ?_, fun k => ?_, by rw [site], same.trans kept, works.flt.trans double.flt, ?_⟩
  · exact ((traced fun _ _ => rfl).keeps (straps.wf wf) k).trans (straps.keeps wf k)
  · exact ((traced fun _ _ => rfl).keeps (double.wf wf) k).trans (double.keeps wf k)
  · rw [power, domains]
    exact on

/-- A unit that enters RAILS reads the straps of the half that was sampled. -/
theorem enterRails_reads (rested : coreRested s e = true) (even : evenOf s e = e) (rails : InRails e s (inRails e s)) (sampled : (s.site e).strapIn = true)
    (others : ∀ k ∈ halves s e, k ≠ e → ((readStraps e (inRails e s)).site k).strapIn = false) :
    enterRails e s = readStraps e (inRails e s) := by
  have same := (unit_congr rails.double e).2
  have first : ((inRails e s).site e).strapIn = true := (congrArg (fun x => x.2.2) (rails.straps e)).trans sampled
  have is : enterRails e s = (halves (inRails e s) e).foldl (fun s k => if (s.site k).strapIn then readStraps k s else s) (inRails e s) := by
    unfold enterRails
    rw [if_neg (by simp [rested])]
    rfl
  rw [is, same]
  rcases halves_of_even even with one | two
  · rw [one, List.foldl_cons, List.foldl_nil, if_pos first]
  · rw [two, List.foldl_cons, List.foldl_cons, List.foldl_nil, if_pos first]
    refine if_neg ?_
    rw [others (e + 1) (by rw [two]; simp) (by omega)]
    decide

/-- A site whose straps are sampled. -/
def sampledSite (st sc : BitVec 6) (x : Site) : Site := { x with strapT := st, strapC := sc, strapIn := true }

/-- A unit at the start of its admission: its half's straps are sampled, and those of the other are not. -/
def sampledStart (e : Nat) (st sc : BitVec 6) (s : State) : State :=
  ((halves s e).foldl (fun s k => s.modSite k fun t => { t with strapIn := false }) s).modSite e (sampledSite st sc)

theorem sampledStart_is (wf : Tab.wf {} s.sites = true) (st sc : BitVec 6) :
    let u := sampledStart e st sc s
    Tab.wf {} u.sites = true ∧ (∃ sites, u = { s with sites := sites }) ∧ (∃ x, u.site e = sampledSite st sc x ∧ x.state = (s.site e).state) ∧
      (∀ k, (u.site k).double = (s.site k).double ∧ (u.site k).offAt = (s.site k).offAt) ∧ ∀ k ∈ halves s e, k ≠ e → (u.site k).strapIn = false := by
  intro u
  have first {α : Type} {f : Site → α} (straps : ∀ (x : Site) b, f { x with strapIn := b } = f x) :
      SiteWork f s ((halves s e).foldl (fun s k => s.modSite k fun t => { t with strapIn := false }) s) := by
    refine SiteWork.foldl (fun s k => ?_) _ s
    exact .modSite k (by intro x; exact straps x false) s
  have clear (k : Nat) (listed : k ∈ halves s e) := foldl_modSite_holds (P := fun x => x.strapIn = false) (g := fun t => { t with strapIn := false })
    (fun _ => rfl) wf listed
  obtain ⟨sites, shape⟩ := foldl_modSite_shape (fun t => { t with strapIn := false }) (halves s e) s
  have is : u = ((halves s e).foldl (fun s k => s.modSite k fun t => { t with strapIn := false }) s).modSite e (sampledSite st sc) := rfl
  generalize (halves s e).foldl (fun s k => s.modSite k fun t => { t with strapIn := false }) s = v at first clear shape is
  have wf' := (first (f := fun _ => ()) fun _ _ => rfl).wf wf
  have here : u.site e = sampledSite st sc (v.site e) := by rw [is]; exact State.site_setSite wf' e _
  have there {k : Nat} (other : k ≠ e) : u.site k = v.site k := by rw [is]; exact State.site_setSite_other wf' other _
  refine ⟨by rw [is]; exact Tab.wf_set wf' e _, ⟨_, by rw [is, shape]; rfl⟩, ⟨_, here, (first (f := Site.state) fun _ _ => rfl).keeps wf e⟩, fun k => ?_,
    fun k listed other => by rw [there other]; exact clear k listed⟩
  have double := (first (f := Site.double) fun _ _ => rfl).keeps wf k
  have offAt := (first (f := Site.offAt) fun _ _ => rfl).keeps wf k
  by_cases same : k = e
  · subst same
    rw [here]
    exact ⟨double, offAt⟩
  · rw [there same]
    exact ⟨double, offAt⟩

/-- A unit that may start is OFF, and its domains have rested. -/
theorem startOk_tells (ok : startOk s e = true) : (s.site e).state = .off ∧ coreRested s e = true := by
  unfold startOk at ok
  simp only [Bool.and_eq_true, beq_iff_eq] at ok
  obtain ⟨⟨⟨⟨⟨⟨⟨state, -⟩, -⟩, -⟩, -⟩, rested⟩, -⟩, -⟩ := ok
  exact ⟨state, rested⟩

theorem coreRested_congr (clk : t.clk = s.clk) (same : ∀ k, (t.site k).double = (s.site k).double ∧ (t.site k).offAt = (s.site k).offAt) (n : Nat) :
    coreRested t n = coreRested s n := by
  unfold coreRested
  rw [(unit_congr (fun k => (same k).1) n).2, clk]
  simp only [(same _).2]

/-- What a command to start an admission does at an even half that may start. -/
theorem siteAdmissionStart_even (even : evenOf s e = e) (run : s.flt.stopped = false) (going : (s.site e).paused = false) (ok : startOk s e = true)
    (st sc : BitVec 6) : siteAdmissionStart e st sc s =
      if ownerActive s (s.site e).owner then (sampledStart e st sc s).modSite e fun t => { t with startPend := true } else enterRails e (sampledStart e st sc s) := by
  have parts : ownerActive (sampledStart e st sc s) (s.site e).owner = ownerActive s (s.site e).owner := by
    obtain ⟨sites, shape⟩ := foldl_modSite_shape (fun t => { t with strapIn := false }) (halves s e) s
    unfold sampledStart
    rw [shape]
    rfl
  unfold siteAdmissionStart
  extract_lets e' h sample u
  have same : e' = e := even
  rw [if_neg (by simp [run, h, same, going]), if_neg (by simp [same]), if_neg (by simp [same, ok])]
  show (if ownerActive u h.owner then u.modSite e' (fun t => { t with startPend := true }) else enterRails e' u) = _
  have is : u = sampledStart e st sc s := by
    show sample ((halves s e').foldl _ s) = _
    rw [same]
    rfl
  rw [is, show h = s.site e by show s.site e' = _; rw [same], parts, same]

/-- A put that is put over. -/
theorem Tab.put_put {α : Type} (k : Nat) (v w : α) : ∀ t : Tab α, Tab.put (Tab.put t k v) k w = Tab.put t k w
  | [] => by simp [Tab.put]
  | (j, x) :: t => by
    by_cases here : j = k
    · simp [Tab.put, here]
    · by_cases before : k < j
      · simp [Tab.put, here, before]
      · simp [Tab.put, here, before, Tab.put_put k v w t]

theorem setSite_setSite {x y : Site} (some_ : x ≠ {}) (some' : y ≠ {}) (n : Nat) (s : State) : (s.setSite n x).setSite n y = s.setSite n y := by
  unfold State.setSite Tab.set
  simp only [if_neg some_, if_neg some', Tab.put_put]

/-- A half whose straps pass. -/
theorem readStraps_ok (ok : strapsOk k (s.site k).strapT (s.site k).strapC = true) : readStraps k s = s.setSite k { s.site k with strapOk := true } := by
  unfold readStraps
  dsimp only
  rw [ok, if_pos rfl]

theorem readStraps_fails (bad : strapsOk k (s.site k).strapT (s.site k).strapC = false) :
    readStraps k s = failSite k .strap 2 (s.setSite k { s.site k with strapOk := false }) := by
  unfold readStraps
  dsimp only
  rw [bad, if_neg (by decide)]

end Sys2Proof.Machine

namespace Sys2Proof.Proofs
open Sys2Proof Sys2Proof.Machine Sys2Proof.Safety

section
variable {s : State} {e : Nat} (wf : Tab.wf {} s.sites = true) (even : evenOf s e = e) (low : e < 18) (run : s.flt.stopped = false)
  (going : (s.site e).paused = false) (ok : startOk s e = true) (st sc : BitVec 6)
include wf even low

/-- A unit that has switched on for an admission, before its straps are judged. -/
structure Admits (e : Nat) (st sc : BitVec 6) (s v : State) : Prop where
  wf : Tab.wf {} v.sites = true
  strapT : (v.site e).strapT = st
  strapC : (v.site e).strapC = sc
  state : (v.site e).state = .rails
  power : v.pwr.domains.getLsbD (22 + e) = true ∧ v.pwr.domains.getLsbD (40 + e) = true
  mem : v.mem = s.mem
  flt : v.flt = s.flt
  unit : evenOf v e = e

include run going ok

/-- The start of an admission switches the unit on and reads the straps of the half that was sampled. -/
theorem admission_reads (idle : ownerActive s (s.site e).owner = false) : ∃ v, Admits e st sc s v ∧
    ((∀ k, k ≠ e → ((readStraps e v).site k).strapIn = (v.site k).strapIn) → siteAdmissionStart e st sc s = readStraps e v) := by
  obtain ⟨wf', ⟨sites, shape⟩, ⟨x, here, -⟩, same, clear⟩ := sampledStart_is (e := e) wf st sc
  have even' : evenOf (sampledStart e st sc s) e = e := (unit_congr (fun k => (same k).1) e).1.trans even
  have rails := inRails_is wf' even' low
  have straps := rails.straps e
  rw [here] at straps
  refine ⟨inRails e (sampledStart e st sc s), ⟨rails.wf, congrArg Prod.fst straps, congrArg (fun p => p.2.1) straps, rails.state, rails.power, ?_, ?_,
    (unit_congr rails.double e).1.trans even'⟩, fun pure => ?_⟩
  · rw [rails.mem, shape]
  · rw [rails.flt, shape]
  · have rested : coreRested (sampledStart e st sc s) e = true := by
      rw [coreRested_congr (by rw [shape]) same]
      exact (startOk_tells ok).2
    rw [siteAdmissionStart_even even run going ok, if_neg (by simp [idle])]
    refine enterRails_reads rested even' rails (by rw [here]; rfl) fun k listed other => ?_
    rw [(unit_congr (fun k => (same k).1) e).2] at listed
    exact (pure k other).trans ((congrArg (fun p => p.2.2) (rails.straps k)).trans (clear k listed other))

/-- An admission whose straps pass stands in RAILS, with its domains on. -/
theorem admission_passes (idle : ownerActive s (s.site e).owner = false) (good : strapsOk e st sc = true) :
    let t := siteAdmissionStart e st sc s
    (t.site e).state = .rails ∧ (t.site e).strapT = st ∧ (t.site e).strapC = sc ∧ (t.site e).strapOk = true ∧
      t.pwr.domains.getLsbD (22 + e) = true ∧ t.pwr.domains.getLsbD (40 + e) = true ∧ t.mem = s.mem := by
  obtain ⟨v, admits_, reads⟩ := admission_reads wf even low run going ok st sc idle
  have passes := readStraps_ok (k := e) (s := v) (by rw [admits_.strapT, admits_.strapC]; exact good)
  have is := reads fun k other => by
    rw [passes]
    exact congrArg Site.strapIn (State.site_setSite_other admits_.wf other _)
  intro t
  rw [show t = _ from is, passes, State.site_setSite admits_.wf]
  exact ⟨admits_.state, admits_.strapT, admits_.strapC, rfl, admits_.power.1, admits_.power.2, admits_.mem⟩

/-- An admission whose straps do not pass is fenced with reason STRAP. -/
theorem admission_fails (groups : Groups s) (calm : Calm 16 s) (idle : ownerActive s (s.site e).owner = false) (bad : strapsOk e st sc = false) :
    FencedAs e .strap 2 (siteAdmissionStart e st sc s) := by
  obtain ⟨v, admits_, reads⟩ := admission_reads wf even low run going ok st sc idle
  have fails := readStraps_fails (k := e) (s := v) (by rw [admits_.strapT, admits_.strapC]; exact bad)
  obtain ⟨w, isw⟩ : ∃ w, w = v.setSite e { v.site e with strapOk := false } := ⟨_, rfl⟩
  rw [← isw] at fails
  have flt : w.flt = s.flt := by rw [isw]; exact admits_.flt
  have wf' : Tab.wf {} w.sites = true := by rw [isw]; exact Tab.wf_set admits_.wf e _
  have unit : evenOf w e = e := by
    refine (unit_congr (s := v) (fun k => ?_) e).1.trans admits_.unit
    rw [isw]
    exact double_setSite admits_.wf (x := { v.site e with strapOk := false }) rfl k
  have is := reads fun k other => by
    rw [fails]
    refine (failSite_site (f := Site.strapIn) (groups_of_flt flt groups) (calm_keeps flt calm) wf' (fun _ _ => rfl) (fun _ _ _ => rfl)
      (fun _ _ same => (congrArg Site.strapIn same : _)) e .strap 2 k).trans ?_
    rw [isw]
    exact congrArg Site.strapIn (State.site_setSite_other admits_.wf other _)
  rw [is, fails]
  exact failSite_fences (groups_of_flt flt groups) (calm_keeps flt calm) wf' unit .strap (by decide)

omit low in
/-- An admission whose owner runs waits for its proof. -/
theorem admission_waits (active : ownerActive s (s.site e).owner = true) :
    let t := siteAdmissionStart e st sc s
    (t.site e).startPend = true ∧ (t.site e).state = .off ∧ t.pwr = s.pwr ∧ t.mem = s.mem := by
  obtain ⟨wf', ⟨sites, shape⟩, ⟨x, here, state⟩, -⟩ := sampledStart_is (e := e) wf st sc
  intro t
  have is : t = (sampledStart e st sc s).modSite e fun t => { t with startPend := true } := by
    show siteAdmissionStart e st sc s = _
    rw [siteAdmissionStart_even even run going ok, if_pos active]
  have site : t.site e = { sampledSite st sc x with startPend := true } := by
    rw [is]
    exact (State.site_setSite wf' e _).trans (by rw [here])
  have kept : t.pwr = s.pwr ∧ t.mem = s.mem := by
    rw [is, shape]
    exact ⟨rfl, rfl⟩
  rw [site]
  exact ⟨rfl, state.trans (startOk_tells ok).1, kept⟩

end

end Sys2Proof.Proofs
end


section
/-! SUPPORT. The end of an admission's stages, and the bounds of them. -/
namespace Sys2Proof.Machine
open Sys2Proof Sys2Proof.Safety

variable {s t u : State} {n e k : Nat}

theorem SiteWork.out {α : Type} {f : Site → α} (h : SiteWork f s t) : t.out = s.out := by obtain ⟨_, _, _, _, _, _, _, _, _, _, e⟩ := h.shape; rw [e]

theorem SiteWork.groups {α : Type} {f : Site → α} (h : SiteWork f s t) : t.flt.groups = s.flt.groups := by rw [h.flt]

/-- A retraining that fails fences its site with reason LINK. -/
theorem failRetrain_fences (groups : Groups s) (calm : Calm 16 s) (wf : Tab.wf {} s.sites = true) (unit : evenOf s n = e) :
    FencedAs e .link 4 (failRetrain n s) := by
  unfold failRetrain
  dsimp only
  rw [unit]
  have even := even_of_unit unit
  have works : SiteWork (fun _ => ()) s (fenceSite e .link false s) := fenceSite_work (fun _ _ => rfl) (fun _ _ _ => rfl) e .link s
  have here := fenceSite_fences wf e .link e (by simpa [even] using evenOf_mem_halves s e)
  generalize fenceSite e .link false s = u at works here ⊢
  have dropped : SiteWork siteCore u (dropSite e u) := dropSite_work e u
  refine raised_fenced groups calm (works.wf wf) works.flt here (.ite ?_ (dropped.trans (offSite_work e _))) (by decide) e
  cases (s.site e).owner with
  | none => exact dropped
  | some p => exact dropped.trans (.other ⟨_, _, _, _, _, _, _, _, _, _, rfl⟩ rfl)

/-- A domain that is off stays off where others are switched off. -/
theorem setDomain_off (k : Nat) (s : State) {j : Nat} (off : s.pwr.domains.getLsbD j = false ∨ j = k) : (setDomain k false s).pwr.domains.getLsbD j = false := by
  show (putBit s.pwr.domains k false).getLsbD j = false
  rw [getLsbD_putBit]
  split
  · rfl
  · next other => exact off.resolve_right other

/-- One half is switched off. -/
def halfOff (k : Nat) (s : State) : State := setDomain (22 + k) false (coreOff k (s.modSite k fun t => { t with offPend := false }))

theorem halfOff_stays (k : Nat) (s : State) {j : Nat} (off : s.pwr.domains.getLsbD j = false) : (halfOff k s).pwr.domains.getLsbD j = false := by
  refine setDomain_off _ _ (.inl ?_)
  exact setDomain_off _ _ (.inl off)

/-- A half that is switched off. -/
theorem halfOff_off (k : Nat) (s : State) : (halfOff k s).pwr.domains.getLsbD (22 + k) = false ∧ (halfOff k s).pwr.domains.getLsbD (40 + k) = false := by
  unfold halfOff
  refine ⟨setDomain_off _ _ (.inr rfl), setDomain_off _ _ (.inl ?_)⟩
  unfold coreOff
  exact setDomain_off _ _ (.inr rfl)

/-- The domains of a unit's halves are off at once. -/
theorem offSite_off (s : State) (listed : k ∈ halves s n) : (offSite n s).pwr.domains.getLsbD (22 + k) = false ∧ (offSite n s).pwr.domains.getLsbD (40 + k) = false := by
  have stays (l : List Nat) (s : State) {j : Nat} (off : s.pwr.domains.getLsbD j = false) : (l.foldl (fun s k => halfOff k s) s).pwr.domains.getLsbD j = false := by
    induction l generalizing s with
    | nil => exact off
    | cons k l ih =>
      rw [List.foldl_cons]
      exact ih _ (halfOff_stays k s off)
  have ends (l : List Nat) (s : State) (listed : k ∈ l) : (l.foldl (fun s k => halfOff k s) s).pwr.domains.getLsbD (22 + k) = false ∧
      (l.foldl (fun s k => halfOff k s) s).pwr.domains.getLsbD (40 + k) = false := by
    induction l generalizing s with
    | nil => cases listed
    | cons i l ih =>
      rw [List.foldl_cons]
      rcases List.mem_cons.mp listed with here | later
      · subst here
        exact ⟨stays l _ (halfOff_off k s).1, stays l _ (halfOff_off k s).2⟩
      · exact ih _ later
  unfold offSite
  exact ends (halves s n) s listed

/-- A shorted rail fences its site at once, and its domains are off. -/
theorem shortSite_fences (groups : Groups s) (calm : Calm 16 s) (wf : Tab.wf {} s.sites = true) (unit : evenOf s n = e) :
    FencedAs e .rail 1 (shortSite n s) ∧ (shortSite n s).pwr.domains.getLsbD (22 + e) = false ∧ (shortSite n s).pwr.domains.getLsbD (40 + e) = false := by
  unfold shortSite
  dsimp only
  rw [unit]
  have even := even_of_unit unit
  have works : SiteWork (fun _ => ()) s (fenceSite e .rail false s) := fenceSite_work (fun _ _ => rfl) (fun _ _ _ => rfl) e .rail s
  have double : SiteWork Site.double s (fenceSite e .rail false s) := fenceSite_work (fun _ _ => rfl) (fun _ _ _ => rfl) e .rail s
  have here := fenceSite_fences wf e .rail e (by simpa [even] using evenOf_mem_halves s e)
  generalize fenceSite e .rail false s = u at works double here ⊢
  have dropped : SiteWork siteCore u (dropSite e u) := dropSite_work e u
  have width : SiteWork Site.double u (dropSite e u) := dropSite_work e u
  have unit' : halves (dropSite e u) e = halves s e :=
    (unit_congr (fun k => (width.keeps (works.wf wf) k).trans (double.keeps wf k)) e).2
  have off := offSite_off (n := e) (k := e) (dropSite e u) (by rw [unit']; simpa [even] using evenOf_mem_halves s e)
  have work := dropped.trans (offSite_work e _)
  generalize offSite e (dropSite e u) = v at off work ⊢
  have final (w : State) (ends : SiteWork siteCore u w) (same : w.pwr = v.pwr) : FencedAs e .rail 1 (raise 16 1 e w) ∧
      (raise 16 1 e w).pwr.domains.getLsbD (22 + e) = false ∧ (raise 16 1 e w).pwr.domains.getLsbD (40 + e) = false := by
    have flt : w.flt = s.flt := ends.flt.trans works.flt
    have power : (raise 16 1 e w).pwr = w.pwr := Laws.raise_calm_pwr (groups_of_flt flt groups) (calm_keeps flt calm)
    refine ⟨raised_fenced groups calm (works.wf wf) works.flt here ends (by decide) e, ?_, ?_⟩
    · rw [power, same]
      exact off.1
    · rw [power, same]
      exact off.2
  split
  · exact final _ (work.trans (.other ⟨_, _, _, _, _, _, _, _, _, _, rfl⟩ rfl)) rfl
  · exact final _ work rfl

/-- A measurement block that is not empty reads as it was set. -/
theorem setMeas_get {idx : Nat} {v : List Byte} (some_ : v ≠ []) (s : State) : Tab.get [] (setMeas idx v s).sec.meas idx = v := by
  have seals (l : List Nat) (s : State) : (l.foldl (fun s v => (s.setSeal v { s.sealOf v with changed := true }).modVi v (fun w => { w with intPend := w.intPend ||| 16#5 })) s).sec.meas =
      s.sec.meas := by
    refine foldl_keeps (fun t : State => t.sec.meas) (fun s v => ?_) l s
    rfl
  unfold setMeas
  split
  · next same => exact same
  · dsimp only
    rw [seals]
    exact Tab.get_set_of_ne some_ _ _

/-- What the hub sends in CONFIG: the windows and credits of the occupant, and its owner last. -/
theorem sendConfig_sends (wf : Tab.wf {} s.sites = true) (e : Nat) :
    Tab.get 0 ((sendConfig e s).site e).credits 10 = 256 ∧ (∀ k, ((sendConfig e s).site k).double = (s.site k).double) ∧ Tab.wf {} (sendConfig e s).sites = true ∧ (sendConfig e s).mem = s.mem ∧
      Emit.gelja e 0x63 (ctlMsg ((s.site e).owner.getD 0)) ∈ (sendConfig e s).out := by
  unfold sendConfig
  extract_lets x a b c d f
  obtain ⟨out, said⟩ := foldl_emit_shape (fun _ w => Emit.gelja e 0x62 (ctlMsg (windowParam w))) (outWins x) b
  obtain ⟨all, is⟩ : ∃ out, d = { s with out := out } := by
    show ∃ out, geljaTo e 0x69 _ c = { s with out := out }
    rw [show c = _ from said]
    exact ⟨_, rfl⟩
  have width : ({ d.site e with credits := Tab.set 0 (Tab.set 0 (d.site e).credits 10 256) 11 512 } : Site).double = (d.site e).double := rfl
  have sites : d.sites = s.sites := by rw [is]
  have wf' : Tab.wf {} d.sites = true := by rw [sites]; exact wf
  have site : f.site e = { d.site e with credits := Tab.set 0 (Tab.set 0 (d.site e).credits 10 256) 11 512 } := State.site_setSite wf' e _
  have same (k : Nat) : d.site k = s.site k := congrArg (fun c => Tab.get ({} : Site) c k) sites
  refine ⟨?_, fun k => ?_, Tab.wf_set wf' e _, ?_, List.mem_cons_self⟩
  · refine (congrArg (fun y : Site => Tab.get 0 y.credits 10) site).trans ?_
    show Tab.get 0 (Tab.set 0 (Tab.set 0 (d.site e).credits 10 256) 11 512) 10 = 256
    rw [show Tab.set 0 (Tab.set 0 (d.site e).credits 10 256) 11 512 = Tab.put (Tab.set 0 (d.site e).credits 10 256) 11 512 from if_neg (by decide),
      Tab.get_put_other 0 (by decide : 10 ≠ 11)]
    exact Tab.get_set_of_ne (by decide) _ _
  · exact (double_setSite wf' width k).trans (congrArg Site.double (same k))
  · show d.mem = s.mem
    rw [is]

end Sys2Proof.Machine
end


section
/-! SUPPORT. The commands of a site's admission. -/
namespace Sys2Proof.Proofs
open Sys2Proof Sys2Proof.Machine Sys2Proof.Safety

variable {n : Fin 18} {s : State} {e : Nat}

/-- The straps of an odd half that pass are noted there, and nothing else changes. -/
theorem admission_odd (wf : Tab.wf {} s.sites = true) (run : s.flt.stopped = false) (going : (s.site (evenOf s n.val)).paused = false)
    (odd : n.val ≠ evenOf s n.val) (rails : (s.site (evenOf s n.val)).state = .rails) (unread : (s.site n.val).strapIn = false) {st sc : BitVec 6}
    (good : strapsOk n.val st sc = true) :
    siteAdmissionStart n.val st sc s = s.setSite n.val { s.site n.val with strapT := st, strapC := sc, strapIn := true, strapOk := true } := by
  have site := State.site_setSite wf n.val (sampledSite st sc (s.site n.val))
  have passes := readStraps_ok (k := n.val) (s := s.setSite n.val (sampledSite st sc (s.site n.val))) (by rw [site]; exact good)
  unfold siteAdmissionStart
  dsimp only
  rw [if_neg (by simp [run, going]), if_pos odd, if_pos (by simp [rails, unread])]
  refine passes.trans ?_
  rw [site]
  refine setSite_setSite (fun none_ => ?_) (fun none_ => ?_) n.val s
  · cases (congrArg Site.strapIn none_ : true = false)
  · cases (congrArg Site.strapIn none_ : true = false)

section
variable (groups : Groups s) (wf : Tab.wf {} s.sites = true) (going : admits (s.site (evenOf s n.val)) = true) (link : (s.site (evenOf s n.val)).state = .link)
  (heard : (s.site (evenOf s n.val)).sideband = true) {k : Nat} {r : List (Nat × Nat)} {d : List Nat} {b : Bool} (calm : d = [] ∨ Calm 16 s)
include groups wf going link heard calm

/-- The end of a site's training, as far as the defect map and the disabled modules go. -/
theorem siteTrainingDone_trained : ∃ t, Trained (evenOf s n.val) n.val (modulesLeft (evenOf s n.val) k d s) s t ∧ (d ≠ [] → FaultSet 16 9 t) ∧
    siteTrainingDone n.val k r d b s = if (s.site (evenOf s n.val)).double && !b then failSite n.val .absent 3 t
      else if (t.site (evenOf s n.val)).modules < minModules (s.site (evenOf s n.val)) then failSite n.val .link 4 t
      else if isGelja (s.site (evenOf s n.val)) then siteState n.val .negotiate t
      else if (s.site (evenOf s n.val)).found = (s.site (evenOf s n.val)).cls then siteState n.val .attest (siteState n.val .negotiate t)
      else failSite n.val .classR 5 (siteState n.val .negotiate t) := by
  obtain ⟨done, fault⟩ := trained (n := n.val) groups wf rfl k r d calm
  refine ⟨_, done, fault, ?_⟩
  unfold siteTrainingDone
  dsimp only
  rw [if_neg (by unfold evenSite; simp [link, heard, going])]
  rfl

/-- Enough modules of an occupant of the expected class. -/
theorem siteTrainingDone_trains (enough : minModules (s.site (evenOf s n.val)) ≤ modulesLeft (evenOf s n.val) k d s)
    (both : (s.site (evenOf s n.val)).double = true → b = true)
    (fits : isGelja (s.site (evenOf s n.val)) = true ∨ (s.site (evenOf s n.val)).found = (s.site (evenOf s n.val)).cls) :
    let t := siteTrainingDone n.val k r d b s
    (t.site (evenOf s n.val)).state = (if isGelja (s.site (evenOf s n.val)) then .negotiate else .attest) ∧
      (t.site (evenOf s n.val)).modules = modulesLeft (evenOf s n.val) k d s ∧ (d ≠ [] → FaultSet 16 9 t) ∧ t.mem = s.mem := by
  obtain ⟨t, done, fault, is⟩ := siteTrainingDone_trained (r := r) (b := b) groups wf going link heard calm (k := k)
  obtain ⟨works, site, mem⟩ := siteState_is done.wf done.unit .negotiate
  rw [is, if_neg (by cases b <;> simp_all), if_neg (by rw [done.left]; omega)]
  by_cases gelja : isGelja (s.site (evenOf s n.val)) = true
  · rw [if_pos gelja, if_pos gelja]
    dsimp only
    rw [site]
    exact ⟨rfl, done.left, fun some_ => faultSet_keeps works.groups (fault some_), mem.trans done.mem⟩
  · have width : SiteWork Site.double t (siteState n.val .negotiate t) := by
      unfold siteState
      dsimp only
      have wrote : SiteWork Site.double t (t.modSite (evenOf t n.val) fun x => { x with state := .negotiate }) := .modSite _ (by intro _; rfl) t
      exact wrote.trans (traceAt_work _ _ _)
    have unit := (unit_congr (width.keeps done.wf) n.val).1.trans done.unit
    obtain ⟨works', site', mem'⟩ := siteState_is (works.wf done.wf) unit .attest
    rw [if_neg gelja, if_pos (fits.resolve_left gelja), if_neg gelja]
    dsimp only
    rw [site', site]
    exact ⟨rfl, done.left, fun some_ => faultSet_keeps (works'.groups.trans works.groups) (fault some_),
      mem'.trans (mem.trans done.mem)⟩

/-- Every training that does not suit fences its site. -/
theorem siteTrainingDone_fails (logs : Logs 16 s) :
    (minModules (s.site (evenOf s n.val)) ≤ modulesLeft (evenOf s n.val) k d s → ((s.site (evenOf s n.val)).double = true → b = true) →
      isGelja (s.site (evenOf s n.val)) = false → (s.site (evenOf s n.val)).found ≠ (s.site (evenOf s n.val)).cls →
      FencedAs (evenOf s n.val) .classR 5 (siteTrainingDone n.val k r d b s)) ∧
    (modulesLeft (evenOf s n.val) k d s < minModules (s.site (evenOf s n.val)) → ((s.site (evenOf s n.val)).double = true → b = true) →
      FencedAs (evenOf s n.val) .link 4 (siteTrainingDone n.val k r d b s)) ∧
    ((s.site (evenOf s n.val)).double = true → b = false → FencedAs (evenOf s n.val) .absent 3 (siteTrainingDone n.val k r d b s)) := by
  obtain ⟨t, done, -, is⟩ := siteTrainingDone_trained (r := r) (b := b) groups wf going link heard calm (k := k)
  have still : Calm 16 t := .inl (done.logs logs)
  obtain ⟨works, -, -⟩ := siteState_is done.wf done.unit .negotiate
  have width : SiteWork Site.double t (siteState n.val .negotiate t) := by
    unfold siteState
    dsimp only
    have wrote : SiteWork Site.double t (t.modSite (evenOf t n.val) fun x => { x with state := .negotiate }) := .modSite _ (by intro _; rfl) t
    exact wrote.trans (traceAt_work _ _ _)
  have unit := (unit_congr (width.keeps done.wf) n.val).1.trans done.unit
  rw [is]
  refine ⟨fun enough both gelja apart => ?_, fun few both => ?_, fun double one => ?_⟩
  · rw [if_neg (by cases b <;> simp_all), if_neg (by rw [done.left]; omega), if_neg (by simp [gelja]), if_neg apart]
    exact failSite_fences (groups_of_flt works.flt done.groups) (calm_keeps works.flt still) (works.wf done.wf) unit .classR (by decide)
  · rw [if_neg (by cases b <;> simp_all), if_pos (by rw [done.left]; exact few)]
    exact failSite_fences done.groups still done.wf done.unit .link (by decide)
  · rw [if_pos (by simp [double, one])]
    exact failSite_fences done.groups still done.wf done.unit .absent (by decide)

end

/-- A site whose attestation has ended, with what it found. -/
def attestedSite (a : AttestIn) (x : Site) : Site :=
  { x with attestRes := attestResult x a, chainDig := if !a.unsupported && !a.silent then a.chainDig else 0,
           measDig := if !a.unsupported && !a.silent then a.measDig else 0 }

/-- The end of an attestation: CONFIG with the digests measured, or a fence. -/
theorem attestComplete_ends (groups : Groups s) (wf : Tab.wf {} s.sites = true) (going : admits (s.site (evenOf s n.val)) = true)
    (attest : (s.site (evenOf s n.val)).state = .attest) (a : AttestIn) :
    (attestResult (s.site (evenOf s n.val)) a = .attested ∨ (attestResult (s.site (evenOf s n.val)) a = .unattested ∧ unattestedOk s = true) →
      let t := attestComplete n.val a s
      (t.site (evenOf s n.val)).state = .config ∧ (t.site (evenOf s n.val)).attestRes = attestResult (s.site (evenOf s n.val)) a ∧
        Tab.get [] t.sec.meas (96 + evenOf s n.val) = siteMeas (t.site (evenOf s n.val)) ∧ t.mem = s.mem) ∧
    (attestResult (s.site (evenOf s n.val)) a = .failed ∨ (attestResult (s.site (evenOf s n.val)) a = .unattested ∧ unattestedOk s = false) → Calm 16 s →
      FencedAs (evenOf s n.val) .attest 6 (attestComplete n.val a s)) := by
  obtain ⟨u, isu⟩ : ∃ u, u = s.setSite (evenOf s n.val) (attestedSite a (s.site (evenOf s n.val))) := ⟨_, rfl⟩
  have wf' : Tab.wf {} u.sites = true := by rw [isu]; exact Tab.wf_set wf _ _
  have site : u.site (evenOf s n.val) = attestedSite a (s.site (evenOf s n.val)) := by rw [isu]; exact State.site_setSite wf _ _
  have unit : evenOf u n.val = evenOf s n.val := by
    rw [isu]
    exact (unit_congr (double_setSite wf (x := attestedSite a (s.site (evenOf s n.val))) rfl) n.val).1
  have flt : u.flt = s.flt := by rw [isu]; rfl
  have mem : u.mem = s.mem := by rw [isu]; rfl
  have permits : unattestedOk u = unattestedOk s := by rw [isu]; rfl
  have is : attestComplete n.val a s =
      if attestResult (s.site (evenOf s n.val)) a == .attested || (attestResult (s.site (evenOf s n.val)) a == .unattested && unattestedOk u)
      then setMeas (96 + evenOf s n.val) (siteMeas (u.site (evenOf s n.val))) (siteState n.val .config u) else failSite n.val .attest 6 u := by
    unfold attestComplete
    dsimp only
    rw [if_neg (by simp [attest, going]), isu]
    rfl
  rw [is, permits]
  refine ⟨fun good => ?_, fun bad calm => ?_⟩
  · rw [if_pos (by rcases good with h | ⟨h, ok⟩ <;> simp [*])]
    obtain ⟨-, state, same⟩ := siteState_is wf' unit .config
    obtain ⟨sec, vis, measured⟩ := setMeas_shape (96 + evenOf s n.val) (siteMeas (u.site (evenOf s n.val))) (siteState n.val .config u)
    have get := setMeas_get (idx := 96 + evenOf s n.val) (v := siteMeas (u.site (evenOf s n.val))) (by simp [siteMeas]) (siteState n.val .config u)
    intro t
    have here : t.site (evenOf s n.val) = { u.site (evenOf s n.val) with state := .config } := by
      show (setMeas _ _ _).site _ = _
      rw [measured]
      exact state
    rw [here]
    refine ⟨rfl, by rw [site]; rfl, get, ?_⟩
    show (setMeas _ _ _).mem = _
    rw [measured]
    exact same.trans mem
  · rw [if_neg (by rcases bad with h | ⟨h, ok⟩ <;> simp [*])]
    exact failSite_fences (groups_of_flt flt groups) (calm_keeps flt calm) wf' unit .attest (by decide)

/-- A site whose crust is loaded is READY, and a Gelja occupant has been told its windows, its credits and its owner. -/
theorem crustLoaded_ready (wf : Tab.wf {} s.sites = true) (going : admits (s.site (evenOf s n.val)) = true)
    (config : (s.site (evenOf s n.val)).state = .config) :
    let t := crustLoaded n.val s
    (t.site (evenOf s n.val)).state = .ready ∧ (t.site (evenOf s n.val)).configDone = true ∧ t.mem = s.mem ∧
      (isGelja (s.site (evenOf s n.val)) = true → Emit.gelja (evenOf s n.val) 0x63 (ctlMsg ((s.site (evenOf s n.val)).owner.getD 0)) ∈ t.out ∧
        Tab.get 0 (t.site (evenOf s n.val)).credits 10 = 256) := by
  obtain ⟨credits, double, wf', mem, said⟩ := sendConfig_sends wf (evenOf s n.val)
  obtain ⟨u, isu⟩ : ∃ u, u = if isGelja (s.site (evenOf s n.val)) then sendConfig (evenOf s n.val) s else s := ⟨_, rfl⟩
  have uwf : Tab.wf {} u.sites = true := by rw [isu]; split <;> assumption
  have width (k : Nat) : (u.site k).double = (s.site k).double := by
    rw [isu]
    split
    · exact double k
    · rfl
  have kept : u.mem = s.mem := by
    rw [isu]
    split
    · exact mem
    · rfl
  obtain ⟨v, isv⟩ : ∃ v, v = u.modSite (evenOf s n.val) fun t => { t with configDone := true } := ⟨_, rfl⟩
  have vwf : Tab.wf {} v.sites = true := by rw [isv]; exact Tab.wf_set uwf _ _
  have site : v.site (evenOf s n.val) = { u.site (evenOf s n.val) with configDone := true } := by rw [isv]; exact State.site_setSite uwf _ _
  have unit : evenOf v n.val = evenOf s n.val := by
    refine (unit_congr (s := u) (fun k => ?_) n.val).1.trans (unit_congr width n.val).1
    rw [isv]
    exact double_setSite uwf (x := { u.site (evenOf s n.val) with configDone := true }) rfl k
  have is : crustLoaded n.val s = siteState n.val .ready v := by
    unfold crustLoaded
    dsimp only
    rw [if_neg (by simp [config, going]), isv, isu]
  obtain ⟨works, state, same⟩ := siteState_is vwf unit .ready
  intro t
  rw [show t = _ from is, state, site]
  refine ⟨rfl, rfl, same.trans ((by rw [isv]; rfl : v.mem = u.mem).trans kept), fun gelja => ⟨?_, ?_⟩⟩
  · rw [works.out, isv, isu, if_pos gelja]
    exact said
  · rw [isu, if_pos gelja]
    exact credits

/-- Settles O37: every stage of an admission leads to the next or fences its site. -/
theorem siteAdmissionAndTimeouts : Obligations.SiteAdmissionAndTimeouts := by
  unfold Obligations.SiteAdmissionAndTimeouts
  refine ⟨fun n s canon => ?_, fun n s canon calm => ?_⟩
  · intro e x
    have groups := groups_of_canon canon
    obtain ⟨-, -, -, wf, -⟩ := canon
    have even : evenOf s e = e := even_of_unit (n := n.val) rfl
    refine ⟨fun st sc run going => ⟨fun first ok idle => ⟨fun good => ?_, fun bad calm => ?_⟩, fun first ok active => ?_, fun odd rails unread good => ?_⟩,
      fun going => ⟨fun rails ok => ?_, fun c link heard => ?_, fun k r d b link heard calm => ?_, fun a attest => ?_, fun config => ?_⟩⟩
    · have low : e < 18 := first ▸ n.isLt
      refine ⟨siteAdmissionStart e st sc s, congrArg (fun k => Host.Outcome.next (siteAdmissionStart k st sc s)) first, ?_⟩
      rw [first] at good ⊢
      exact admission_passes wf even low run going ok st sc idle good
    · have low : e < 18 := first ▸ n.isLt
      refine ⟨siteAdmissionStart e st sc s, congrArg (fun k => Host.Outcome.next (siteAdmissionStart k st sc s)) first, ?_⟩
      rw [first] at bad
      exact admission_fails wf even low run going ok st sc groups calm idle bad
    · exact ⟨siteAdmissionStart e st sc s, congrArg (fun k => Host.Outcome.next (siteAdmissionStart k st sc s)) first,
        admission_waits wf even run going ok st sc active⟩
    · exact congrArg Host.Outcome.next (admission_odd wf run going odd rails unread good)
    · obtain ⟨-, state, mem⟩ := siteState_is (n := n.val) wf rfl .link
      refine ⟨_, congrArg Host.Outcome.next (if_pos ?_), by rw [state], mem⟩
      have here : evenSite s n.val = x := rfl
      rw [here]
      simp [rails, going, ok]
    · refine congrArg Host.Outcome.next ((if_neg ?_).trans ?_)
      · have here : evenSite s n.val = x := rfl
        rw [here]
        simp [link, heard, going]
      · rfl
    · intro off left
      refine ⟨fun enough both fits => ?_, fun enough both gelja apart logs => ?_, fun few both logs => ?_, fun double one logs => ?_⟩
      · exact ⟨_, rfl, siteTrainingDone_trains groups wf going link heard calm enough both fits⟩
      · exact ⟨_, rfl, (siteTrainingDone_fails groups wf going link heard calm logs).1 enough both gelja apart⟩
      · exact ⟨_, rfl, (siteTrainingDone_fails groups wf going link heard calm logs).2.1 few both⟩
      · exact ⟨_, rfl, (siteTrainingDone_fails groups wf going link heard calm logs).2.2 double one⟩
    · obtain ⟨good, bad⟩ := attestComplete_ends (n := n) groups wf going attest a
      refine ⟨fun h => ⟨_, rfl, ?_⟩, fun h calm => ⟨_, rfl, ?_⟩⟩
      · obtain ⟨state, res, meas, mem⟩ := good h
        rw [refresh_site, refresh_sec, refresh_mem]
        exact ⟨state, res, meas, mem⟩
      · obtain ⟨state, reason, fault⟩ := bad h calm
        unfold FencedAs
        rw [refresh_site]
        exact ⟨state, reason, faultSet_keeps (refresh_groups _) fault⟩
    · exact ⟨_, rfl, crustLoaded_ready wf going config⟩
  · intro e x
    have groups := groups_of_canon canon
    obtain ⟨-, -, -, wf, -⟩ := canon
    have here : evenSite s n.val = x := rfl
    refine ⟨fun going => ⟨fun rails => ?_, fun link heard => ?_, fun state => ?_, fun state => ?_, fun state => ?_⟩, fun state => ?_, fun on => ?_⟩
    · exact ⟨_, congrArg Host.Outcome.next (if_pos (by rw [here]; simp [rails, going])), failSite_fences groups calm wf rfl .rail (by decide)⟩
    · exact ⟨_, congrArg Host.Outcome.next (if_pos (by rw [here]; simp [link, heard, going])), failSite_fences groups calm wf rfl .absent (by decide)⟩
    · exact ⟨_, congrArg Host.Outcome.next (if_pos (by rw [here]; simp [state, going])), failSite_fences groups calm wf rfl .classR (by decide)⟩
    · exact ⟨_, congrArg Host.Outcome.next (if_pos (by rw [here]; simp [state, going])), failSite_fences groups calm wf rfl .attest (by decide)⟩
    · exact ⟨_, congrArg Host.Outcome.next (if_pos (by rw [here]; simp [state, going])), failSite_fences groups calm wf rfl .link (by decide)⟩
    · exact ⟨_, congrArg Host.Outcome.next (if_pos (by rw [here]; simp [state])), failRetrain_fences groups calm wf rfl⟩
    · exact ⟨_, congrArg Host.Outcome.next (if_pos (by simpa [List.any_eq_true] using on)), shortSite_fences groups calm wf rfl⟩

end Sys2Proof.Proofs
end


section
/-! SUPPORT. What snoops, credits and flushes leave of the sites. -/
namespace Sys2Proof.Machine
open Sys2Proof Sys2Proof.Safety

variable {α : Type} {f : Site → α} {r s t : State} {n e k : Nat}

/-- Each site keeps what `f` reads of it. -/
structure SitesKeep (f : Site → α) (s t : State) : Prop where
  wf : Tab.wf {} s.sites = true → Tab.wf {} t.sites = true
  keeps : Tab.wf {} s.sites = true → ∀ k, f (t.site k) = f (s.site k)

namespace SitesKeep

theorem same (h : t.sites = s.sites) : SitesKeep f s t := ⟨fun wf => h ▸ wf, fun _ k => congrArg (fun c => f (Tab.get ({} : Site) c k)) h⟩

theorem refl (s : State) : SitesKeep f s s := same rfl

theorem trans (h : SitesKeep f r s) (k : SitesKeep f s t) : SitesKeep f r t :=
  ⟨k.wf ∘ h.wf, fun wf i => (k.keeps (h.wf wf) i).trans (h.keeps wf i)⟩

theorem of (h : SiteWork f s t) : SitesKeep f s t := ⟨h.wf, h.keeps⟩

theorem setSite (k : Nat) {x : Site} (same : f x = f (s.site k)) : SitesKeep f s (s.setSite k x) := by
  refine ⟨fun wf => Tab.wf_set wf k _, fun wf i => ?_⟩
  by_cases here : i = k
  · rw [here]
    exact (congrArg f (State.site_setSite wf k _)).trans same
  · exact congrArg f (State.site_setSite_other wf here _)

theorem ite {p : Prop} [Decidable p] {a b : State} (ha : SitesKeep f s a) (hb : SitesKeep f s b) : SitesKeep f s (if p then a else b) := by
  split <;> assumption

theorem foldl {β : Type} {g : State → β → State} (step : ∀ s a, SitesKeep f s (g s a)) (l : List β) (s : State) : SitesKeep f s (l.foldl g s) := by
  induction l generalizing s with
  | nil => exact refl s
  | cons a l ih => exact (step s a).trans (ih _)

end SitesKeep

section
variable (snoop : ∀ (x : Site) q l c, f { x with snpQ := q, snoops := l, credits := c } = f x)
include snoop

/-- A snoop that is sent, or waits at its site. -/
theorem sendSnoop_keeps (op line n : Nat) (s : State) : SitesKeep f s (sendSnoop op line n s) := by
  have queued : f { s.site n with snpQ := (s.site n).snpQ ++ [(op, line)] } = f (s.site n) := snoop (s.site n) _ _ _
  have sent (k : Nat × Nat) (c : Tab Nat) : f { s.site n with snoops := (s.site n).snoops ++ [k], credits := c } = f (s.site n) := snoop (s.site n) _ _ _
  unfold sendSnoop
  dsimp only
  split
  · exact .setSite n queued
  · refine .ite (.setSite n queued) (.ite ?_ ?_)
    · exact (SitesKeep.setSite n (sent _ _)).trans (.same rfl)
    · exact (SitesKeep.setSite n (sent _ _)).trans (.same rfl)

theorem drainSnoops_keeps (n : Nat) (s : State) : SitesKeep f s (drainSnoops n s) := by
  unfold drainSnoops
  have cleared : SitesKeep f s (s.modSite n fun t => { t with snpQ := [] }) := .setSite n (snoop (s.site n) [] _ _)
  exact cleared.trans (.foldl (fun s (q : Nat × Nat) => sendSnoop_keeps snoop q.1 q.2 n s) _ _)

/-- A back-invalidation asks the holders of its line, or waits its turn. -/
theorem backInval_keeps (why line : Nat) (s : State) : SitesKeep f s (backInval why line s) := by
  unfold backInval
  dsimp only
  split
  · exact .same rfl
  · refine .ite (.refl s) ?_
    refine .trans (.same ?_) (.foldl (fun s n => sendSnoop_keeps snoop 0x18 line n s) _ _)
    rfl

/-- A site that is flushed keeps everything but what its snoops take. -/
theorem flushSite_keeps (flush : ∀ (x : Site) b, f { x with flushing := b } = f x) (n : Nat) (s : State) : SitesKeep f s (flushSite n s) := by
  unfold flushSite
  have marked : SitesKeep f s (s.modSite n fun t => { t with flushing := true }) := .setSite n (flush (s.site n) true)
  exact marked.trans (.foldl (fun s (l : Nat × HLine) => backInval_keeps snoop (n + 1) l.1 s) _ _)

end

/-- Credits that the hub owes an occupant are paid. -/
theorem payCredits_keeps (pay : ∀ (x : Site) c q d, f { x with credits := c, owedReq := q, owedDat := d } = f x) (n : Nat) (s : State) :
    SitesKeep f s (payCredits n s) := by
  unfold payCredits
  dsimp only
  refine .ite (.refl s) ?_
  exact (SitesKeep.setSite n (pay (s.site n) _ 0 0)).trans (.same rfl)

/-- A fence with a flush: the unit is FENCED with the reason. -/
theorem fenceSite_flushes (wf : Tab.wf {} s.sites = true) (unit : evenOf s n = e) (why : SReason) :
    siteShows ((fenceSite n why true s).site e) = (.fenced, why) := by
  have listed : e ∈ halves s n := unit ▸ evenOf_mem_halves s n
  have head : (halves s n).headD n = e := unit
  unfold fenceSite
  extract_lets e' was u v noc w
  have here : siteShows (u.site e) = (.fenced, why) := foldl_modSite_holds (P := fun x => siteShows x = (.fenced, why)) (fun _ => rfl) wf listed
  have first : SiteWork (fun _ => ()) s u := by
    refine SiteWork.foldl (fun s k => ?_) _ s
    apply SiteWork.modSite
    intro _
    rfl
  have outs : SiteWork siteShows u (failOuts e' u) :=
    (SiteWork.modSite e' (g := fun t => { t with outs := [] }) (fun _ => rfl) u).trans (.other ⟨_, _, _, _, _, _, _, _, _, _, rfl⟩ rfl)
  have traced : SiteWork siteShows u v := outs.trans (traceAt_work _ _ _)
  have dropped : SiteWork siteShows u w := traced.trans (.other ⟨_, _, _, _, _, _, _, _, _, _, rfl⟩ rfl)
  have off : SitesKeep siteShows w (offSite e' w) := by
    have core := offSite_work e' w
    exact ⟨core.wf, fun wf k => (congrArg siteShows (core.keeps wf k) : _)⟩
  have ends : SitesKeep siteShows w (if (true && isCaching (w.site e') && (was == .admitted || was == .retrain)) = true then flushSite e' w
      else if true = true then offSite e' w else w.modSite e' fun t => { t with offPend := true }) :=
    .ite (flushSite_keeps (fun _ _ _ _ => rfl) (fun _ _ => rfl) e' w) (.ite off (.of (.modSite e' (by intro _; rfl) w)))
  exact (((SitesKeep.of dropped).trans ends).keeps (first.wf wf) e).trans here

/-- A site that is sent to retrain. -/
theorem retrainSite_is (wf : Tab.wf {} s.sites = true) (unit : evenOf s n = e) (admitted : (s.site e).state = .admitted) :
    (retrainSite n s).site e = { s.site e with state := .retrain, retrains := satInc (s.site e).retrains } ∧ (retrainSite n s).mem = s.mem := by
  unfold retrainSite
  dsimp only
  rw [unit, if_pos (by simp [admitted])]
  obtain ⟨site, mem, -⟩ := traceAt_leaves (e := e) (88 + e) (s.site e).owner
    (s.setSite e { s.site e with state := .retrain, retrains := satInc (s.site e).retrains })
  rw [site, mem, State.site_setSite wf]
  exact ⟨rfl, rfl⟩

/-- One half of a unit whose flush has ended. -/
def flushedHalf (k : Nat) (s : State) : State :=
  if ((coreOff k s).site k).state == .off && (((coreOff k s).site k).cls != 0 || ((coreOff k s).site k).upper) then coreOff k s
  else setDomain (22 + k) false (coreOff k s)

theorem flushedHalf_work (k : Nat) (s : State) : SiteWork siteCore s (flushedHalf k s) := .ite (coreOff_work k s) ((coreOff_work k s).trans (setDomain_work _ _ _))

theorem coreOff_off (k : Nat) (s : State) {j : Nat} (off : s.pwr.domains.getLsbD j = false ∨ j = 40 + k) : (coreOff k s).pwr.domains.getLsbD j = false := by
  unfold coreOff
  exact setDomain_off _ _ off

theorem flushedHalf_stays (k : Nat) (s : State) {j : Nat} (off : s.pwr.domains.getLsbD j = false) : (flushedHalf k s).pwr.domains.getLsbD j = false := by
  unfold flushedHalf
  exact Laws.ite_cases (P := fun t : State => t.pwr.domains.getLsbD j = false) (fun _ => coreOff_off k s (.inl off))
    fun _ => setDomain_off _ _ (.inl (coreOff_off k s (.inl off)))

/-- A half that is FENCED is switched off. -/
theorem flushedHalf_off (wf : Tab.wf {} s.sites = true) (fenced : (s.site k).state = .fenced) :
    (flushedHalf k s).pwr.domains.getLsbD (22 + k) = false ∧ (flushedHalf k s).pwr.domains.getLsbD (40 + k) = false := by
  have state : ((coreOff k s).site k).state = .fenced := (congrArg Site.state ((coreOff_work k s).keeps wf k)).trans fenced
  unfold flushedHalf
  rw [if_neg (by simp [state])]
  exact ⟨setDomain_off _ _ (.inr rfl), setDomain_off _ _ (.inl (coreOff_off k s (.inr rfl)))⟩

/-- The end of a flush: the halves' sites keep their place, and the one that is FENCED is off. -/
theorem flushOff_off {ks : List Nat} (wf : Tab.wf {} s.sites = true) (listed : k ∈ ks) (fenced : (s.site k).state = .fenced) :
    siteCore ((flushOff ks s).site k) = siteCore (s.site k) ∧
      (flushOff ks s).pwr.domains.getLsbD (22 + k) = false ∧ (flushOff ks s).pwr.domains.getLsbD (40 + k) = false := by
  have is (s : State) : flushOff ks s = ks.foldl (fun s k => flushedHalf k s) s := rfl
  have stays (l : List Nat) (s : State) {j : Nat} (off : s.pwr.domains.getLsbD j = false) : (l.foldl (fun s k => flushedHalf k s) s).pwr.domains.getLsbD j = false := by
    induction l generalizing s with
    | nil => exact off
    | cons i l ih =>
      rw [List.foldl_cons]
      exact ih _ (flushedHalf_stays i s off)
  have ends (l : List Nat) (s : State) (wf : Tab.wf {} s.sites = true) (listed : k ∈ l) (fenced : (s.site k).state = .fenced) :
      (l.foldl (fun s k => flushedHalf k s) s).pwr.domains.getLsbD (22 + k) = false ∧
        (l.foldl (fun s k => flushedHalf k s) s).pwr.domains.getLsbD (40 + k) = false := by
    induction l generalizing s with
    | nil => cases listed
    | cons i l ih =>
      rw [List.foldl_cons]
      rcases List.mem_cons.mp listed with here | later
      · subst here
        obtain ⟨phy, core⟩ := flushedHalf_off wf fenced
        exact ⟨stays l _ phy, stays l _ core⟩
      · have work := flushedHalf_work i s
        exact ih _ (work.wf wf) later ((congrArg Site.state (work.keeps wf k)).trans fenced)
  rw [is]
  exact ⟨(SiteWork.foldl (f := siteCore) (g := fun s k => flushedHalf k s) (fun s k => flushedHalf_work k s) ks s).keeps wf k, ends ks s wf listed fenced⟩

/-- Every site is one of the halves of its unit. -/
theorem mem_halves (s : State) (n : Nat) : n ∈ halves s n := by
  unfold halves
  dsimp only
  split
  · rcases Nat.mod_two_eq_zero_or_one n with even | odd
    · exact List.mem_cons.mpr (.inl (by omega))
    · exact List.mem_cons.mpr (.inr (List.mem_singleton.mpr (by omega)))
  · exact List.mem_cons_self

/-- The lines that a late flush took are tidied, at a home that nothing waits for. -/
theorem tidied_lines (lines : List Nat) (victims : s.home.victims = []) (settled : Settled s) :
    ∃ alloc, lines.foldl (fun s l => atHome (tidySector l s).1 (tidySector l s).2) s = { s with home := { s.home with alloc := alloc } } := by
  induction lines generalizing s with
  | nil => exact ⟨s.home.alloc, rfl⟩
  | cons l ls ih =>
    obtain ⟨alloc, tidied⟩ := tidySector_quiet victims l
    have here : atHome (tidySector l s).1 (tidySector l s).2 = { s with home := { s.home with alloc := alloc } } := by
      rw [tidied]
      unfold atHome
      rw [runWork_nil]
      exact settleHome_settled settled
    rw [List.foldl_cons, here]
    obtain ⟨alloc', rest⟩ := ih (s := { s with home := { s.home with alloc := alloc } }) victims settled
    exact ⟨alloc', rest⟩

/-- A site that is taken off every line leaves nothing else at the home. -/
theorem dropSite_home (settled : Settled s) (k : Nat) : ∃ lines mem, dropSite k s = { s with home := { s.home with lines := lines }, mem := mem } ∧
    Settled (dropSite k s) := by
  have drops (l : List (Nat × HLine)) (s : State) (settled : Settled s) :
      ∃ lines mem, l.foldl (fun s e => dropHolder k e.1 s) s = { s with home := { s.home with lines := lines }, mem := mem } ∧ mem.leaving = [] := by
    induction l generalizing s with
    | nil => exact ⟨s.home.lines, s.mem, rfl, settled.2⟩
    | cons e l ih =>
      obtain ⟨lines, c, is, none_⟩ : ∃ lines c, dropHolder k e.1 s = { s with home := { s.home with lines := lines }, mem := c } ∧ c.leaving = [] := by
        unfold dropHolder
        dsimp only
        exact Laws.ite_cases (P := fun t => ∃ lines c, t = { s with home := { s.home with lines := lines }, mem := c } ∧ c.leaving = [])
          (fun _ => Laws.ite_cases (P := fun t => ∃ lines c, t = { s with home := { s.home with lines := lines }, mem := c } ∧ c.leaving = [])
            (fun _ => ⟨_, _, rfl, settled.2⟩) fun _ => ⟨_, s.mem, rfl, settled.2⟩) fun _ => ⟨s.home.lines, s.mem, rfl, settled.2⟩
      rw [List.foldl_cons, is]
      obtain ⟨lines', c', rest, none'⟩ := ih { s with home := { s.home with lines := lines }, mem := c } ⟨settled.1, none_⟩
      exact ⟨lines', c', rest, none'⟩
  obtain ⟨lines, c, is, none_⟩ := drops s.home.lines s settled
  have rests : dropSite k s = { s with home := { s.home with lines := lines }, mem := c } := by
    unfold dropSite
    rw [is]
    exact settleHome_settled ⟨settled.1, none_⟩
  refine ⟨lines, c, rests, ?_⟩
  rw [rests]
  exact ⟨settled.1, none_⟩

/-- A unit that is admitted again: its sites are OFF, and its PHY domains on. -/
def readmitted (ks : List Nat) (s : State) : State :=
  ks.foldl (fun s k => setDomain (22 + k) true (s.modSite k (fun t => { t with state := .off, reason := .none, flushing := false, offPend := false }))) s

theorem readmitted_off {ks : List Nat} (wf : Tab.wf {} s.sites = true) (listed : k ∈ ks) (low : k < 18) :
    ((readmitted ks s).site k).state = .off ∧ ((readmitted ks s).site k).reason = .none ∧ (readmitted ks s).pwr.domains.getLsbD (22 + k) = true := by
  have stays (l : List Nat) (s : State) (wf : Tab.wf {} s.sites = true) (off : siteShows (s.site k) = (.off, .none)) (on : s.pwr.domains.getLsbD (22 + k) = true) :
      siteShows ((readmitted l s).site k) = (.off, .none) ∧ (readmitted l s).pwr.domains.getLsbD (22 + k) = true := by
    induction l generalizing s with
    | nil => exact ⟨off, on⟩
    | cons i l ih =>
      refine ih (setDomain (22 + i) true (s.modSite i _)) (Tab.wf_set wf i _) ?_ (setDomain_stays _ (s.modSite i _) (by omega) on)
      by_cases here : k = i
      · rw [← here]
        exact congrArg siteShows (State.site_setSite wf k _)
      · exact (congrArg siteShows (State.site_setSite_other wf here _)).trans off
  have ends (l : List Nat) (s : State) (wf : Tab.wf {} s.sites = true) (listed : k ∈ l) :
      siteShows ((readmitted l s).site k) = (.off, .none) ∧ (readmitted l s).pwr.domains.getLsbD (22 + k) = true := by
    induction l generalizing s with
    | nil => cases listed
    | cons i l ih =>
      rcases List.mem_cons.mp listed with here | later
      · subst here
        exact stays l (setDomain (22 + k) true (s.modSite k _)) (Tab.wf_set wf k _) (congrArg siteShows (State.site_setSite wf k _))
          (setDomain_on (s.modSite k _) (by omega))
      · exact ih (setDomain (22 + i) true (s.modSite i _)) (Tab.wf_set wf i _) later
  obtain ⟨shows, on⟩ := ends ks s wf listed
  exact ⟨congrArg Prod.fst shows, congrArg Prod.snd shows, on⟩

theorem halves_low (n : Fin 18) (listed : k ∈ halves s n.val) : k < 18 := by
  have low := n.isLt
  unfold halves at listed
  dsimp only at listed
  split at listed
  · rcases List.mem_cons.mp listed with here | there
    · omega
    · have := List.mem_singleton.mp there
      omega
  · have := List.mem_singleton.mp listed
    omega

/-- A site whose flush has ended. -/
def flushedSite (x : Site) : Site := { x with flushing := false, flushOdd := false, snoops := [], snpQ := [] }

/-- The end of a fenced site's flush: its domains wait for its owner's proof, or are off. -/
theorem flushDone_ends (wf : Tab.wf {} s.sites = true) (lead : flushLead s n = k) (flushing : (s.site k).flushing = true)
    (gone : s.home.lines.any (fun l => l.2.pres.getLsbD k) = false) (fenced : (s.site k).state = .fenced) :
    let t := cachingSiteFlushDone n s
    (t.site k).flushing = false ∧ (t.site k).snoops = [] ∧ (if ownerActive s (s.site k).owner then (t.site k).offPend = true
      else t.pwr.domains.getLsbD (22 + k) = false ∧ t.pwr.domains.getLsbD (40 + k) = false) := by
  have is : cachingSiteFlushDone n s = if (s.site k).state == .fenced && ownerActive s (s.site k).owner
      then (s.setSite k (flushedSite (s.site k))).modSite k fun t => { t with offPend := true }
      else flushOff (if (s.site k).flushOdd then [k, k + 1] else halves s k) (s.setSite k (flushedSite (s.site k))) := by
    unfold cachingSiteFlushDone
    rw [lead]
    dsimp only
    rw [if_neg (by simp [flushing, gone])]
    rfl
  have wf' : Tab.wf {} (s.setSite k (flushedSite (s.site k))).sites = true := Tab.wf_set wf k _
  have site := State.site_setSite wf k (flushedSite (s.site k))
  intro t
  rw [show t = _ from is]
  by_cases active : ownerActive s (s.site k).owner = true
  · rw [if_pos (by simp [fenced, active]), if_pos active,
      show ((s.setSite k (flushedSite (s.site k))).modSite k fun t => { t with offPend := true }).site k = _ from State.site_setSite wf' k _, site]
    exact ⟨rfl, rfl, rfl⟩
  · rw [if_neg (by simp [active]), if_neg active]
    have listed : k ∈ (if (s.site k).flushOdd then [k, k + 1] else halves s k) := by
      split
      · exact List.mem_cons_self
      · exact mem_halves s k
    obtain ⟨core, phy, off⟩ := flushOff_off wf' listed (by rw [site]; exact fenced)
    rw [site] at core
    exact ⟨(congrArg Site.flushing core : _), (congrArg Site.snoops core : _), phy, off⟩

/-- A flush that does not end in time takes its site off every line, where no transaction waits. -/
theorem flushTimeout_ends (lead : flushLead s n = k) (flushing : (s.site k).flushing = true) (none_ : s.home.txns = []) (victims : s.home.victims = [])
    (settled : Settled s) : ∃ alloc, flushTimeout n s = { dropSite k s with home := { (dropSite k s).home with alloc := alloc } } := by
  obtain ⟨lines, c, is, settled'⟩ := dropSite_home settled k
  have waiting : (dropSite k s).home.victims = [] := by rw [is]; exact victims
  obtain ⟨alloc, tidied⟩ := tidied_lines ((s.home.lines.filter (fun l => l.2.pres.getLsbD k)).map (·.1)) waiting settled'
  have txns : (dropSite k s).home.txns = [] := by rw [is]; exact none_
  refine ⟨alloc, ?_⟩
  unfold flushTimeout
  rw [lead]
  dsimp only
  rw [if_neg (by simp [flushing]), tidied]
  dsimp only
  rw [txns]
  rfl

end Sys2Proof.Machine

namespace Sys2Proof.Proofs
open Sys2Proof Sys2Proof.Machine Sys2Proof.Safety

/-- Settles O38: a site in use retrains, is fenced, admitted again or set as its registers ask, and the end of a flush lets it go. -/
theorem siteCommands : Obligations.SiteCommands := by
  unfold Obligations.SiteCommands
  intro n s canon e x y
  have groups := groups_of_canon canon
  obtain ⟨-, -, -, wf, -⟩ := canon
  refine ⟨fun admitted => ⟨?_, fun lower => ?_⟩, fun k r retrain => ?_, fun lower used on => ?_, fun lower fenced => ?_, fun val lower up => ?_,
    fun calm upper => ⟨?_, ?_, ?_, fun val => ?_⟩, fun k lead flushing => ⟨fun gone fenced => ?_, fun none_ queue victims settled => ?_⟩⟩
  · exact ⟨_, rfl, retrainSite_is wf rfl admitted⟩
  · exact ⟨_, congrArg Host.Outcome.next (if_neg (by rw [show (s.site n.val).upper = false from lower]; decide)), retrainSite_is wf rfl admitted⟩
  · intro left
    obtain ⟨done, -⟩ := trained (n := n.val) (e := e) groups wf rfl k r [] (.inl rfl)
    have is : siteRetrainDone n.val k r s = if ((noteTraining e k r [] s).site e).modules < minModules x then failRetrain n.val (noteTraining e k r [] s)
        else drainSnoops e (payCredits e (siteState n.val .admitted (noteTraining e k r [] s))) := by
      unfold siteRetrainDone
      dsimp only
      rw [if_neg (by rw [show (s.site (evenOf s n.val)).state = .retrain from retrain]; decide)]
    obtain ⟨u, isu⟩ : ∃ u, u = noteTraining e k r [] s := ⟨_, rfl⟩
    rw [← isu] at is
    have done : Trained e n.val (modulesLeft e k [] s) s u := isu ▸ done
    refine ⟨fun enough => ?_, fun few calm => ?_⟩
    · rw [if_neg (by rw [done.left]; exact Nat.not_lt.mpr enough)] at is
      obtain ⟨works, site, mem⟩ := siteState_is done.wf done.unit .admitted
      have paid : SitesKeep (fun x => (x.state, x.modules)) (siteState n.val .admitted u) (drainSnoops e (payCredits e (siteState n.val .admitted u))) :=
        (payCredits_keeps (fun _ _ _ _ => rfl) e _).trans (drainSnoops_keeps (fun _ _ _ _ => rfl) e _)
      have shows := paid.keeps (works.wf done.wf) e
      rw [site] at shows
      refine ⟨_, congrArg Host.Outcome.next is, congrArg Prod.fst shows, (congrArg Prod.snd shows).trans done.left, ?_⟩
      have said : Says (siteState n.val .admitted u) (drainSnoops e (payCredits e (siteState n.val .admitted u))) :=
        (payCredits_says e _).trans ((Says.setSite _ e _).trans (Says.foldl (fun s (q : Nat × Nat) => sendSnoop_says q.1 q.2 e s) _ _))
      exact said.mem.trans (mem.trans done.mem)
    · rw [if_pos (by rw [done.left]; exact few)] at is
      have flt : u.flt = s.flt := by
        obtain ⟨lanes, mgt, lcs, noted⟩ := noteTraining_leaves s e k r []
        rw [isu, noted]
        rfl
      exact ⟨_, congrArg Host.Outcome.next is, failRetrain_fences done.groups (calm_keeps flt calm) done.wf done.unit⟩
  · have is : sitFence n.val s = if ownerActive s x.owner then s.setSite e { x with fencePend := some .host } else fenceSite e .host true s := by
      unfold sitFence requestSiteFence
      rw [if_neg (by rw [show (s.site n.val).upper = false from lower]; decide)]
      dsimp only
      rw [show (halves s n.val).headD n.val = e from rfl, show s.site e = x from rfl]
      rw [if_neg (by simp [used, on])]
    refine ⟨_, congrArg Host.Outcome.next is, ?_⟩
    split
    · rfl
    · have shows := fenceSite_flushes (n := e) wf (even_of_unit (n := n.val) rfl) .host
      exact ⟨congrArg Prod.fst shows, congrArg Prod.snd shows⟩
  · have is : sitReadmit n.val s = if ownerActive s y.owner then s.setSite n.val { y with readmPend := true } else readmitted (halves s n.val) s := by
      unfold sitReadmit
      dsimp only
      rw [if_neg (by rw [show (s.site n.val).upper = false from lower, show (s.site n.val).state = .fenced from fenced]; decide)]
      rfl
    refine ⟨_, congrArg Host.Outcome.next is, ?_⟩
    split
    · rfl
    · exact fun k listed => readmitted_off wf listed (halves_low n listed)
  · have is (v : Nat) : setVolt n.val v s = s.setSite n.val (if voltWaits y s then { y with vpend := some v } else { y with vset := v }) :=
      (apply_ite (s.setSite n.val) _ _ _).symm
    refine congrArg Host.Outcome.next (Eq.trans ?_ (is _))
    show sitVsetWrite n.val val s = _
    unfold sitVsetWrite
    refine if_neg ?_
    rw [show (s.site n.val).upper = false from lower, show voltOpen (s.site n.val) = true from up]
    decide
  · exact ⟨_, congrArg Host.Outcome.next (if_pos upper), Laws.raise_sets groups (by decide), Laws.raise_calm_sites groups calm⟩
  · refine ⟨_, congrArg Host.Outcome.next (if_pos ?_), Laws.raise_sets groups (by decide), Laws.raise_calm_sites groups calm⟩
    rw [show (s.site n.val).upper = true from upper]
    rfl
  · exact ⟨_, congrArg Host.Outcome.next (if_pos upper), Laws.raise_sets groups (by decide), Laws.raise_calm_sites groups calm⟩
  · refine ⟨_, congrArg Host.Outcome.next (if_pos ?_), Laws.raise_sets groups (by decide), Laws.raise_calm_sites groups calm⟩
    rw [show (s.site n.val).upper = true from upper]
    rfl
  · exact ⟨_, rfl, flushDone_ends wf lead flushing gone fenced⟩
  · obtain ⟨alloc, runs⟩ := flushTimeout_ends lead flushing none_ victims settled
    refine ⟨_, congrArg (fun t => Host.Outcome.next (refresh t)) runs, ?_⟩
    rw [refresh_home, refresh_mem]
    exact ⟨rfl, rfl⟩

end Sys2Proof.Proofs
end


section
/-! SUPPORT. Step-link ports (R491 to R505, R529): what the operations of a link may touch, a port that comes up, one that is fenced, and
the slots and control blocks that arrive. -/
namespace Sys2Proof.Machine
open Sys2Proof Sys2Proof.Safety

/-! ### What the operations of a link touch -/

theorem port_of_ports {s t : State} (same : t.ports = s.ports) (n : Nat) : t.port n = s.port n := by
  unfold State.port
  rw [same]

theorem cunit_of_cols {s t : State} (same : t.cols = s.cols) (c : Nat) : t.cunit c = s.cunit c := by
  unfold State.cunit
  rw [same]

theorem noOps_keeps {s t : State} (same : t.cols = s.cols) (idle : NoOps s) : NoOps t := fun c => by
  rw [cunit_of_cols same]
  exact idle c

/-- The operations of a link change the ports, what they send, the trace and the mirrors of the proof ports; nothing sent is unsent. -/
structure LinkWork (s t : State) : Prop where
  shape : ∃ ports trc free mir out, t = { s with ports := ports, trc := trc, free := free, prfMir := mir, out := out }
  wf : Tab.wf {} s.ports = true → Tab.wf {} t.ports = true
  sent : ∀ e ∈ s.out, e ∈ t.out

namespace LinkWork
variable {r s t : State}

theorem refl (s : State) : LinkWork s s := ⟨⟨s.ports, s.trc, s.free, s.prfMir, s.out, rfl⟩, id, fun _ => id⟩

theorem trans (h : LinkWork r s) (k : LinkWork s t) : LinkWork r t := by
  obtain ⟨_, _, _, _, _, e⟩ := h.shape
  obtain ⟨ports, trc, free, mir, out, e'⟩ := k.shape
  exact ⟨⟨ports, trc, free, mir, out, by rw [e', e]⟩, k.wf ∘ h.wf, fun x mem => k.sent x (h.sent x mem)⟩

theorem ite {p : Prop} [Decidable p] {a b : State} (ha : LinkWork s a) (hb : LinkWork s b) : LinkWork s (if p then a else b) := by
  split <;> assumption

theorem foldl {α : Type} {f : State → α → State} (step : ∀ s a, LinkWork s (f s a)) (l : List α) (s : State) : LinkWork s (l.foldl f s) := by
  induction l generalizing s with
  | nil => exact refl s
  | cons a l ih => exact (step s a).trans (ih _)

theorem emit (s : State) (e : Emit) : LinkWork s (s.emit e) :=
  ⟨⟨s.ports, s.trc, s.free, s.prfMir, e :: s.out, rfl⟩, id, fun _ mem => List.mem_cons_of_mem e mem⟩

theorem setPort (s : State) (n : Nat) (x : Port) : LinkWork s (s.setPort n x) :=
  ⟨⟨_, s.trc, s.free, s.prfMir, s.out, rfl⟩, fun wf => Tab.wf_set wf n x, fun _ => id⟩

theorem mirrors (s : State) : LinkWork s (refreshMirrors s) := ⟨⟨s.ports, s.trc, s.free, _, s.out, rfl⟩, id, fun _ => id⟩

theorem trace (point : Nat) (part : Option Nat) (s : State) : LinkWork s (traceAt point part s) := by
  obtain ⟨trc, free, e⟩ := traceAt_shape point part s
  rw [e]
  exact ⟨⟨s.ports, trc, free, s.prfMir, s.out, rfl⟩, id, fun _ => id⟩

theorem mem (h : LinkWork s t) : t.mem = s.mem := by obtain ⟨_, _, _, _, _, e⟩ := h.shape; rw [e]
theorem flt (h : LinkWork s t) : t.flt = s.flt := by obtain ⟨_, _, _, _, _, e⟩ := h.shape; rw [e]
theorem cols (h : LinkWork s t) : t.cols = s.cols := by obtain ⟨_, _, _, _, _, e⟩ := h.shape; rw [e]
theorem parts (h : LinkWork s t) : t.parts = s.parts := by obtain ⟨_, _, _, _, _, e⟩ := h.shape; rw [e]
theorem img (h : LinkWork s t) : t.img = s.img := by obtain ⟨_, _, _, _, _, e⟩ := h.shape; rw [e]
theorem pwr (h : LinkWork s t) : t.pwr = s.pwr := by obtain ⟨_, _, _, _, _, e⟩ := h.shape; rw [e]

end LinkWork

theorem setLink_work (n : Nat) (st : PortState) (s : State) : LinkWork s (setLink n st s) :=
  ((LinkWork.setPort s n _).trans (LinkWork.trace _ _ _)).trans (LinkWork.mirrors _)

/-- The trace and the mirrors leave the ports. -/
theorem traceAt_port (point : Nat) (part : Option Nat) (s : State) (n : Nat) : (traceAt point part s).port n = s.port n := by
  obtain ⟨_, _, e⟩ := traceAt_shape point part s
  rw [e]
  rfl

/-- The port after a change of its state. -/
theorem setLink_port (wf : Tab.wf {} s.ports = true) (n : Nat) (st : PortState) : (setLink n st s).port n = { s.port n with state := st } :=
  (traceAt_port _ _ _ n).trans (State.port_setPort wf n _)

theorem sendCredit_work (n part k : Nat) (s : State) : LinkWork s (sendCredit n part k s) :=
  LinkWork.ite (LinkWork.refl s) (LinkWork.ite (LinkWork.emit s _) (LinkWork.ite (LinkWork.setPort s n _) (LinkWork.refl s)))

/-- Credits sent at a port that is up leave the ports. -/
theorem sendCredit_up {n : Nat} (up : (s.port n).state = .up) (part k : Nat) : (sendCredit n part k s).ports = s.ports := by
  unfold sendCredit
  dsimp only
  rw [up]
  split <;> rfl

theorem sendCredits_up {n : Nat} (up : (s.port n).state = .up) (owed : List (Nat × Nat)) :
    (owed.foldl (fun s e => sendCredit n e.1 e.2 s) s).ports = s.ports := by
  induction owed generalizing s with
  | nil => rfl
  | cons e owed ih =>
    have same := sendCredit_up up e.1 e.2
    exact (ih (by unfold State.port at *; rw [same]; exact up)).trans same

/-- A port at which nothing waits sends nothing. -/
theorem drainTx_empty {n : Nat} (empty : PortEmpty (s.port n)) : drainTx n s = s := by
  obtain ⟨resend, txq⟩ := empty
  unfold drainTx
  rw [resend, txq]
  rfl

/-! ### A port that comes up (R492 to R496) -/

/-- A port has come up as given, and told its peer the lanes of its receiver. -/
structure LinkUp (n : Nat) (q : Port) (s t : State) : Prop where
  work : LinkWork s t
  port : t.port n = q
  lanes : Emit.control n (mkBlock [0x13#8, q.lanes.zeroExtend 8]) ∈ t.out

/-- A port at which nothing waits comes up with what it held; what it owed has been sent. -/
theorem portUp_up {n : Nat} (ports : Tab.wf {} s.ports = true) (empty : PortEmpty (s.port n)) :
    LinkUp n { s.port n with state := .up, owed := [] } s (portUp n s) := by
  unfold portUp
  extract_lets q owed a b
  have first : LinkWork s a := (LinkWork.setPort s n _).trans (setLink_work n .up _)
  have came : a.port n = { s.port n with state := .up, owed := [] } := by
    rw [setLink_port (Tab.wf_set ports n _), State.port_setPort ports]
  have paid : LinkWork a b := LinkWork.foldl (fun s e => sendCredit_work n e.1 e.2 s) owed a
  have stands : b.port n = { s.port n with state := .up, owed := [] } := by
    have same := sendCredits_up (s := a) (n := n) (by rw [came]) owed
    rw [← came]
    unfold State.port
    exact congrArg (fun x => Tab.get {} x n) same
  generalize said : Emit.control n (mkBlock [0x13#8, (b.port n).lanes.zeroExtend 8]) = e
  have idle : drainTx n (b.emit e) = b.emit e := by
    refine drainTx_empty ?_
    show PortEmpty (b.port n)
    rw [stands]
    exact empty
  rw [idle]
  refine ⟨(first.trans paid).trans (LinkWork.emit b e), stands, ?_⟩
  rw [← said, stands]
  exact List.mem_cons_self

/-- The port as a training leaves it. -/
def trainedPort (tr : Training) (q : Port) : Port :=
  { q with lanes := tr.lanes, polarity := tr.polarity, laneMap := tr.laneMap, peerId := tr.peerId, peerPort := tr.peerPort, peerOk := true,
           latency := tr.latency }

/-- What a training learnt stands at the port, and the package's identity goes to the peer. -/
theorem learn_is (n : Nat) (tr : Training) (s : State) :
    learn n tr s = (s.setPort n (trainedPort tr (s.port n))).emit (.identity n s.lcs.otp.serial n) := rfl

/-- A training with enough lanes brings the port up with full credits and nothing of an earlier link. -/
theorem trainingDone_up {n : Nat} (ports : Tab.wf {} s.ports = true) (tr : Training) (training : (s.port n).state = .training)
    (enough : minLanes s n ≤ popcount 4 (unlisted s n tr).lanes.toNat) :
    ∃ t, stlTrainingDone n tr s = t ∧ t.mem = s.mem ∧ Emit.identity n s.lcs.otp.serial n ∈ t.out ∧
      LinkUp n { trainedPort (unlisted s n tr) (s.port n) with
        state := .up, credits := fullCredits s n, replay := [], resend := [], txq := [], rx := [], owed := [] } (learn n (unlisted s n tr) s) t := by
  refine ⟨_, rfl, ?_⟩
  unfold stlTrainingDone
  dsimp only
  rw [if_neg (by rw [training]; decide), if_neg (by omega)]
  generalize unlisted s n tr = tr'
  have wf : Tab.wf {} (learn n tr' s).ports = true := Tab.wf_set ports n _
  have learnt : (learn n tr' s).port n = trainedPort tr' (s.port n) := State.port_setPort ports n _
  have credits : fullCredits (learn n tr' s) n = fullCredits s n := rfl
  rw [learnt, credits]
  generalize fresh : ({ trainedPort tr' (s.port n) with
    credits := fullCredits s n, replay := [], resend := [], txq := [], rx := [], owed := [] } : Port) = q
  have port : ((learn n tr' s).setPort n q).port n = q := State.port_setPort wf n q
  have up := portUp_up (n := n) (s := (learn n tr' s).setPort n q) (Tab.wf_set wf n q) (by rw [port, ← fresh]; exact ⟨rfl, rfl⟩)
  rw [port] at up
  have work := (LinkWork.setPort (learn n tr' s) n q).trans up.work
  refine ⟨work.mem, work.sent _ List.mem_cons_self, work, ?_, ?_⟩
  · rw [up.port, ← fresh]
  · have lanes := up.lanes
    rw [← fresh] at lanes
    rw [← fresh]
    exact lanes

/-- A fault noted on the way. -/
theorem raiseIf_work {g bit unit : Nat} (p : Prop) [Decidable p] (groups : Groups s) (calm : Calm g s) (low : bit < 32) :
    let t := if p then raise g bit unit s else s
    t.ports = s.ports ∧ t.mem = s.mem ∧ (∀ e ∈ s.out, e ∈ t.out) ∧ (p → FaultSet g bit t) := by
  dsimp only
  split
  · refine ⟨Laws.raise_calm_ports groups calm, Laws.raise_calm_mem groups calm, fun e sent => ?_, fun _ => Laws.raise_sets groups low⟩
    exact (Laws.kept_raise (Laws.Kept.refl s)).sent.subset sent
  · exact ⟨rfl, rfl, fun _ => id, fun on => absurd on (by assumption)⟩

/-- A retraining with the same peer and enough lanes brings the port up with what it held; fewer lanes than before set DEGRADED. -/
theorem retrainDone_up {n : Nat} (ports : Tab.wf {} s.ports = true) (groups : Groups s) (calm : Calm 14 s) (tr : Training)
    (retrains : (s.port n).state = .retrain) (empty : PortEmpty (s.port n)) (peer : (unlisted s n tr).peerId = (s.port n).peerId)
    (enough : minLanes s n ≤ popcount 4 (unlisted s n tr).lanes.toNat) :
    ∃ t, stlRetrainDone n tr s = t ∧ t.port n = { trainedPort (unlisted s n tr) (s.port n) with state := .up, owed := [] } ∧
      Emit.identity n s.lcs.otp.serial n ∈ t.out ∧ t.mem = s.mem ∧
      (popcount 4 (unlisted s n tr).lanes.toNat < popcount 4 (s.port n).lanes.toNat → FaultSet 14 2 t) := by
  refine ⟨_, rfl, ?_⟩
  unfold stlRetrainDone
  dsimp only
  rw [if_neg (by rw [retrains]; decide), if_neg (by rw [peer]; simp), if_neg (by omega)]
  generalize unlisted s n tr = tr'
  have learnt : (learn n tr' s).port n = trainedPort tr' (s.port n) := State.port_setPort ports n _
  have noted := raiseIf_work (s := learn n tr' s) (g := 14) (bit := 2) (unit := n)
    (decide (popcount 4 tr'.lanes.toNat < popcount 4 (s.port n).lanes.toNat) = true) groups calm (by decide)
  generalize (if decide (popcount 4 tr'.lanes.toNat < popcount 4 (s.port n).lanes.toNat) = true then raise 14 2 n (learn n tr' s)
    else learn n tr' s) = u at noted ⊢
  obtain ⟨same, mem, sent, set⟩ := noted
  have port : u.port n = trainedPort tr' (s.port n) := by
    rw [← learnt]
    exact congrArg (fun x => Tab.get {} x n) same
  have wf : Tab.wf {} u.ports = true := by
    rw [same]
    exact Tab.wf_set ports n _
  have up := portUp_up (n := n) wf (by rw [port]; exact empty)
  rw [port] at up
  refine ⟨up.port, up.work.sent _ (sent _ List.mem_cons_self), up.work.mem.trans mem, fun fewer => ?_⟩
  exact faultSet_keeps (congrArg Flt.groups up.work.flt) (set (by simpa using fewer))

/-! ### A port that is fenced (R495, R496) -/

theorem markFence_shape (ps : List Nat) (s : State) : ∃ parts, markFence ps s = { s with parts := parts } := by
  unfold markFence
  induction ps generalizing s with
  | nil => exact ⟨s.parts, rfl⟩
  | cons p ps ih =>
    rw [List.foldl_cons]
    split
    · obtain ⟨parts, e⟩ := ih (markFlag p 3 s)
      exact ⟨parts, e⟩
    · exact ih s

/-- Without an operation at hand there is nothing to lead around a port that is lost. -/
theorem reroute_idle (idle : NoOps s) (n : Nat) (lost : List Slot) (units : List Nat) :
    units.foldl (fun s c => rerouteOp c n lost s) s = s := by
  induction units with
  | nil => rfl
  | cons c units ih =>
    have none : rerouteOp c n lost s = s := by
      unfold rerouteOp
      dsimp only
      rw [idle c]
    rw [List.foldl_cons, none]
    exact ih

/-- A port has been fenced: what it shows, and what else stays. -/
structure PortFails (n : Nat) (peer : Bool) (s t : State) : Prop where
  wf : Tab.wf {} t.ports = true
  state : (t.port n).state = .fenced
  reason : (t.port n).peerBad = peer
  other : ∀ k, k ≠ n → t.port k = s.port k
  noted : Noted 14 (if peer then 4 else 1) s t
  groups : ∀ k, k ≠ 14 → t.grp k = s.grp k
  cols : t.cols = s.cols
  mem : t.mem = s.mem
  pwr : t.pwr = s.pwr

/-- The fence of a port with no operation at hand: the port is emptied, its users' next ARRIVE is marked, the fault is noted. -/
theorem failPort_fails (ports : Tab.wf {} s.ports = true) (groups : Groups s) (idle : NoOps s) (calm : Calm 14 s) (n : Nat) (peer : Bool) :
    PortFails n peer s (failPort n peer s) := by
  unfold failPort
  extract_lets q us sent lost a b d
  have emptied : LinkWork s (fencePort n peer a) := (LinkWork.setPort s n _).trans ((LinkWork.setPort a n _).trans (LinkWork.trace _ _ _))
  have wf : Tab.wf {} a.ports = true := Tab.wf_set ports n _
  have here : (fencePort n peer a).port n = { a.port n with state := .fenced, peerBad := peer, fenceWait := [] } :=
    (traceAt_port _ _ _ n).trans (State.port_setPort wf n _)
  have there : ∀ k, k ≠ n → (fencePort n peer a).port k = s.port k := fun k ne =>
    (traceAt_port _ _ _ k).trans ((State.port_setPort_other wf ne _).trans (State.port_setPort_other ports ne _))
  obtain ⟨parts, marked⟩ : ∃ parts, b = { fencePort n peer a with parts := parts } := markFence_shape us _
  have bports : b.ports = (fencePort n peer a).ports := by rw [marked]
  have bflt : b.flt = s.flt := by rw [marked]; exact emptied.flt
  have bmem : b.mem = s.mem := by rw [marked]; exact emptied.mem
  have bcols : b.cols = s.cols := by rw [marked]; exact emptied.cols
  have bpwr : b.pwr = s.pwr := by rw [marked]; exact emptied.pwr
  have bwf : Tab.wf {} b.ports = true := by rw [bports]; exact emptied.wf ports
  have bgroups : Groups b := groups_of_flt bflt groups
  have bcalm : Calm 14 b := calm_keeps bflt calm
  have dports : d.ports = (fencePort n peer a).ports := (Laws.raise_calm_ports bgroups bcalm).trans bports
  have dcols : d.cols = s.cols := (Laws.raise_calm_cols bgroups bcalm).trans bcols
  have dgrp : ∀ k, b.grp k = s.grp k := fun k => congrArg (fun f : Flt => Tab.get (FGroup.reset k) f.groups k) bflt
  have noted : Noted 14 (if peer then 4 else 1) b d := raise_notes bgroups bcalm
  have quiet : NoOps (refreshMirrors d) := noOps_keeps (s := s) dcols idle
  rw [reroute_idle quiet]
  have dport : ∀ k, (refreshMirrors d).port k = (fencePort n peer a).port k := fun k => port_of_ports (s := fencePort n peer a) (t := refreshMirrors d) dports k
  refine ⟨?_, ?_, ?_, fun k ne => (dport k).trans (there k ne), ?_, fun k ne => ?_, dcols, ?_, ?_⟩
  · show Tab.wf {} d.ports = true
    rw [dports]
    exact emptied.wf ports
  · rw [dport n, here]
  · rw [dport n, here]
  · obtain ⟨rises, status, unacked, mask, action⟩ := noted
    rw [dgrp 14] at status unacked mask action
    exact ⟨rises, status, unacked, mask, action⟩
  · exact (raise_calm_other bgroups bcalm ne).trans (dgrp k)
  · exact (Laws.raise_calm_mem bgroups bcalm).trans bmem
  · exact (Laws.raise_calm_pwr bgroups bcalm).trans bpwr

/-- The fault bit of a port that was fenced. -/
theorem PortFails.fenced {n : Nat} {peer : Bool} (h : PortFails n peer s t) : PortFenced n peer t := by
  refine ⟨h.state, h.reason, ?_⟩
  unfold FaultSet
  rw [h.noted.status, getLsbD_putBit]
  cases peer <;> simp

/-! ### Requests of the port's control register (R495, R532) -/

/-- The fence of an UP port: at once, or at the proofs of the partitions that use it. -/
theorem stlPortFence_up {n : Nat} (ports : Tab.wf {} s.ports = true) (up : (s.port n).state = .up) :
    (stlPortFence n s).mem = s.mem ∧ (stlPortFence n s).port n = if portUsers s n = [] then { s.port n with state := .fenced, peerBad := false, fenceWait := [] }
      else { s.port n with fenceWait := portUsers s n } := by
  unfold stlPortFence requestPortFence
  dsimp only
  rw [if_neg (by rw [up]; decide)]
  cases users : portUsers s n with
  | nil =>
    have work : LinkWork s (fencePort n false s) := (LinkWork.setPort s n _).trans (LinkWork.trace _ _ _)
    exact ⟨work.mem, by
      rw [if_pos rfl]
      show (fencePort n false s).port n = _
      exact (traceAt_port _ _ _ n).trans (State.port_setPort ports n _)⟩
  | cons p ps => exact ⟨rfl, by rw [if_neg (List.cons_ne_nil p ps)]; exact State.port_setPort ports n _⟩

/-- The re-admission of a fenced port: at once, or at the proofs of the partitions that use it. -/
theorem stlPortReadmit_fenced {n : Nat} (ports : Tab.wf {} s.ports = true) (fenced : (s.port n).state = .fenced) :
    (stlPortReadmit n s).mem = s.mem ∧ (stlPortReadmit n s).port n = if portUsers s n = [] then { s.port n with state := .training, peerBad := false, readmWait := [] }
      else { s.port n with readmWait := portUsers s n } := by
  unfold stlPortReadmit requestPortReadmit
  dsimp only
  rw [if_pos (by rw [fenced]; rfl)]
  cases users : portUsers s n with
  | nil =>
    have work : LinkWork s (readmitPort n s) := (LinkWork.setPort s n _).trans (LinkWork.trace _ _ _)
    exact ⟨work.mem, by
      rw [if_pos rfl]
      show (readmitPort n s).port n = _
      exact (traceAt_port _ _ _ n).trans (State.port_setPort ports n _)⟩
  | cons p ps => exact ⟨rfl, by rw [if_neg (List.cons_ne_nil p ps)]; exact State.port_setPort ports n _⟩

/-- A port that is UP retrains with what it holds. -/
theorem retrain_retrains {n : Nat} (ports : Tab.wf {} s.ports = true) (up : (s.port n).state = .up) :
    (retrain n s).port n = { s.port n with state := .retrain } ∧ (retrain n s).mem = s.mem ∧ (retrain n s).flt = s.flt := by
  unfold retrain
  rw [if_pos (by rw [up]; rfl)]
  exact ⟨setLink_port ports n _, (setLink_work n _ s).mem, (setLink_work n _ s).flt⟩

/-! ### The loss of a SerDes reference (R795, R796) -/

/-- What a lost reference does to one port of its cluster. -/
def refPort (s : State) (n : Nat) : State :=
  let st := (s.port n).state
  if st == .off || st == .fenced then s else failPort n false s

/-- The ports of a cluster, one after the other: each that was in use is fenced, and the others of the package stay. -/
theorem refPorts_fence (l : List Nat) (distinct : l.Nodup) (ports : Tab.wf {} s.ports = true) (groups : Groups s) (idle : NoOps s) (logs : Logs 14 s) :
    let t := l.foldl refPort s
    (∀ n ∈ l, (s.port n).state ≠ .off → (s.port n).state ≠ .fenced → PortFenced n false t) ∧
      (∀ n, n ∉ l → t.port n = s.port n) ∧ (∀ k, k ≠ 14 → t.grp k = s.grp k) ∧ t.pwr = s.pwr ∧
      (FaultSet 14 1 s → FaultSet 14 1 t) := by
  induction l generalizing s with
  | nil => exact ⟨fun _ mem => absurd mem (List.not_mem_nil), fun _ _ => rfl, fun _ _ => rfl, rfl, id⟩
  | cons n l ih =>
    obtain ⟨fresh, distinct⟩ := List.nodup_cons.mp distinct
    dsimp only
    rw [List.foldl_cons]
    by_cases out : ((s.port n).state == .off || (s.port n).state == .fenced) = true
    · have stays : refPort s n = s := if_pos out
      rw [stays]
      obtain ⟨fenced, other, grp, pwr, keeps⟩ := ih distinct ports groups idle logs
      refine ⟨fun k mem off fence => ?_, fun k apart => other k (fun mem => apart (List.mem_cons_of_mem _ mem)), grp, pwr, keeps⟩
      obtain rfl | mem := List.mem_cons.mp mem
      · simp [off, fence] at out
      · exact fenced k mem off fence
    · have fails : PortFails n false s (refPort s n) := by
        rw [show refPort s n = failPort n false s from if_neg out]
        exact failPort_fails ports groups idle (Or.inl logs) n false
      have quiet : NoOps (refPort s n) := noOps_keeps fails.cols idle
      obtain ⟨fenced, other, grp, pwr, keeps⟩ := ih distinct fails.wf fails.noted.rises quiet (fails.noted.action.trans logs)
      refine ⟨fun k mem off fence => ?_, fun k apart => ?_, fun k ne => (grp k ne).trans (fails.groups k ne), pwr.trans fails.pwr, fun _ => keeps fails.fenced.2.2⟩
      · obtain rfl | mem := List.mem_cons.mp mem
        · obtain ⟨state, reason, set⟩ := fails.fenced
          refine ⟨?_, ?_, keeps set⟩
          · rw [other k fresh]; exact state
          · rw [other k fresh]; exact reason
        · have ne : k ≠ n := fun e => fresh (e ▸ mem)
          exact fenced k mem (by rw [fails.other k ne]; exact off) (by rw [fails.other k ne]; exact fence)
      · rw [List.mem_cons, not_or] at apart
        exact (other k apart.2).trans (fails.other k apart.1)

/-- The ports of a SerDes cluster. -/
def clusterPorts (east : Bool) : List Nat := (List.range 4).map (fun k => if east then k + 4 else k)

theorem clusterPorts_nodup (east : Bool) : (clusterPorts east).Nodup := by cases east <;> decide

theorem mem_clusterPorts (east : Bool) (p : Fin 8) (here : p.val / 4 = (if east then 1 else 0)) : p.val ∈ clusterPorts east := by
  revert p east
  decide

/-- A lost reference notes itself, and fences the ports of its cluster that are in use. -/
theorem serdesRefclkLost_fences (east : Bool) (p : Fin 8) (ports : Tab.wf {} s.ports = true) (groups : Groups s) (idle : NoOps s)
    (logs8 : Logs 8 s) (logs14 : Logs 14 s) (here : p.val / 4 = (if east then 1 else 0)) :
    let t := serdesRefclkLost east s
    (if east then t.pwr.refE = false else t.pwr.refW = false ∧ FaultSet 8 5 t) ∧
      ((s.port p.val).state ≠ .off → (s.port p.val).state ≠ .fenced → PortFenced p.val false t) := by
  have member := mem_clusterPorts east p here
  cases east with
  | true =>
    obtain ⟨u, isu⟩ : ∃ u : State, u = { s with pwr := { s.pwr with refE := false } } := ⟨_, rfl⟩
    have same : u.ports = s.ports := by rw [isu]
    have ref : u.pwr.refE = false := by rw [isu]
    obtain ⟨fenced, -, -, pwr, -⟩ := refPorts_fence (s := u) (clusterPorts true) (clusterPorts_nodup true) (by rw [same]; exact ports)
      (by rw [isu]; exact groups) (by rw [isu]; exact idle) (by rw [isu]; exact logs14)
    have is : serdesRefclkLost true s = (clusterPorts true).foldl refPort u := by rw [isu]; rfl
    dsimp only
    rw [is, if_pos rfl]
    have port : u.port p.val = s.port p.val := by rw [isu]; rfl
    rw [port.symm]
    exact ⟨by rw [pwr]; exact ref, fenced p.val member⟩
  | false =>
    obtain ⟨v, isv⟩ : ∃ v : State, v = { s with pwr := { s.pwr with refW := false } } := ⟨_, rfl⟩
    have vgroups : Groups v := by rw [isv]; exact groups
    have vcalm : Calm 8 v := Or.inl (by rw [isv]; exact logs8)
    obtain ⟨u, isu⟩ : ∃ u : State, u = raise 8 5 0 v := ⟨_, rfl⟩
    have rises : Groups u := by rw [isu]; exact (raise_notes vgroups vcalm).rises
    have set : FaultSet 8 5 u := by rw [isu]; exact Laws.raise_sets vgroups (by decide)
    have upwr : u.pwr = v.pwr := by rw [isu]; exact Laws.raise_calm_pwr vgroups vcalm
    have uports : u.ports = s.ports := by rw [isu, Laws.raise_calm_ports vgroups vcalm, isv]
    have ucols : u.cols = s.cols := by rw [isu, Laws.raise_calm_cols vgroups vcalm, isv]
    have ugrp : u.grp 14 = s.grp 14 := by rw [isu, raise_calm_other vgroups vcalm (by decide), isv]; rfl
    obtain ⟨fenced, -, grp, pwr, -⟩ := refPorts_fence (s := u) (clusterPorts false) (clusterPorts_nodup false) (by rw [uports]; exact ports) rises
      (noOps_keeps ucols idle) (by unfold Logs; rw [ugrp]; exact logs14)
    have is : serdesRefclkLost false s = (clusterPorts false).foldl refPort u := by rw [isu, isv]; rfl
    dsimp only
    rw [is, if_neg (by decide)]
    have port : u.port p.val = s.port p.val := port_of_ports uports p.val
    rw [port.symm]
    refine ⟨⟨?_, ?_⟩, fenced p.val member⟩
    · rw [pwr, upwr, isv]
    · unfold FaultSet
      rw [grp 8 (by decide)]
      exact set

/-! ### Slots that arrive, and slots that are sent again (R497 to R503) -/

/-- A codeword lost with none before it in the last millisecond: counted, noted and NAKed. -/
theorem codewordLost_first {n : Nat} (first : (s.port n).uncWin = []) (h : BitVec 256) :
    codewordLost n h s =
      sendNak n h (raise 14 3 n (s.setPort n { s.port n with uncorr := satInc (s.port n).uncorr, uncWin := [s.clk.now] })) := by
  unfold codewordLost
  dsimp only
  rw [first]
  exact if_neg (show ¬ 16 < 1 by decide)

/-- A slot as it is sent again: a number of its partition's own, a frame of the link's clock. -/
def resent (n : Nat) (sl : Slot) (s : State) : Slot :=
  let f := s.drawFree 32
  let own := ownedSlots s (slotPart sl.hdr) n
  let no := own.getD (f.1.toNat / 65536 % max 1 own.length) (slotNo sl.hdr)
  { sl with hdr := stampHeader (BitVec.ofNat 256 (setBits 256 sl.hdr.toNat 10 5 no)) f.1.toNat sl.payload }

theorem resent_payload (n : Nat) (sl : Slot) (s : State) : (resent n sl s).payload = sl.payload := by
  unfold resent
  rfl

/-- A slot sent again leaves its port; the port keeps it for a further repetition and counts. -/
theorem transmit_again (n : Nat) (sl : Slot) (s : State) :
    let a := traceAt (72 + n) none (s.drawFree 32).2
    transmit n true sl s = (a.setPort n { a.port n with
      replay := (resent n sl s :: (a.port n).replay).take 64, replays := satInc (a.port n).replays }).emit (.slot n (resent n sl s)) := by
  unfold transmit resent
  simp only [if_true]

/-- What the port and its peer see of a slot sent again. -/
theorem transmit_again_port {n : Nat} (ports : Tab.wf {} s.ports = true) (sl : Slot) :
    Emit.slot n (resent n sl s) ∈ (transmit n true sl s).out ∧
      ∃ replay, (transmit n true sl s).port n = { s.port n with replay := replay, replays := satInc (s.port n).replays } := by
  rw [transmit_again]
  dsimp only
  obtain ⟨a, isa⟩ : ∃ a : State, a = traceAt (72 + n) none (s.drawFree 32).2 := ⟨_, rfl⟩
  have port : a.port n = s.port n := by
    rw [isa]
    exact traceAt_port _ _ _ n
  have wf : Tab.wf {} a.ports = true := by
    rw [isa]
    exact (LinkWork.trace _ _ _).wf ports
  generalize resent n sl s = again
  rw [← isa, ← port]
  exact ⟨List.mem_cons_self, _, State.port_setPort wf n _⟩

/-- The one slot that waits to be sent again leaves an UP port at which nothing else waits. -/
theorem drainTx_again {s : State} {n : Nat} (ports : Tab.wf {} s.ports = true) {q : Port} {sl : Slot} (up : q.state = .up) (resend : q.resend = [sl])
    (txq : q.txq = []) :
    drainTx n (s.setPort n q) = transmit n true sl ((s.setPort n q).setPort n { q with resend := [] }) := by
  unfold drainTx
  rw [State.port_setPort ports, resend, txq]
  show drainTxN 1 n _ = _
  unfold drainTxN
  dsimp only
  rw [State.port_setPort ports, if_neg (by rw [up]; decide)]
  simp only [resend, txq, drainTxN]

/-- A control block whose CRC holds and whose type is the one asked for is acted upon. -/
theorem onBlock_acts {n ty : Nat} {blk : BitVec 128} (up : (s.port n).state = .up) (ok : blockOk blk = true) (kind : rfld blk 0 0 8 = ty)
    (f : State → State) : onBlock n ty blk f s = f s := by
  unfold onBlock
  rw [if_neg (by rw [up]; decide), if_neg (by rw [ok]; decide), if_pos kind]

/-- A control block whose CRC is wrong sets UNCORR and has no other effect. -/
theorem onBlock_drops {n ty : Nat} {blk : BitVec 128} (up : (s.port n).state = .up) (bad : blockOk blk = false) (f : State → State) :
    onBlock n ty blk f s = raise 14 3 n s := by
  unfold onBlock
  rw [if_neg (by rw [up]; decide), if_pos (by rw [bad]; rfl)]

/-- A NAK of a slot that is still held: sent again, ahead of new data. -/
theorem nakBlock_repeats {n : Nat} {blk : BitVec 128} {sl : Slot} (ports : Tab.wf {} s.ports = true) (up : (s.port n).state = .up)
    (ok : blockOk blk = true) (kind : rfld blk 0 0 8 = 0x10) (empty : PortEmpty (s.port n))
    (held : (s.port n).replay.find? (fun sl => slotNo sl.hdr == rfld blk 1 0 5 && slotFrame sl.hdr == rfld blk 2 0 16) = some sl) :
    ∃ again, Emit.slot n again ∈ (nakBlock n blk s).out ∧ again.payload = sl.payload ∧
      ∃ replay, (nakBlock n blk s).port n = { s.port n with replay := replay, replays := satInc (s.port n).replays, resend := [] } := by
  unfold nakBlock
  rw [onBlock_acts up ok kind]
  dsimp only
  rw [held]
  dsimp only
  have sends := drainTx_again (n := n) (q := { s.port n with resend := (s.port n).resend ++ [sl] }) ports up (by rw [empty.1]; rfl) empty.2
  rw [sends]
  obtain ⟨sent, replay, port⟩ := transmit_again_port (n := n)
    (s := (s.setPort n { s.port n with resend := (s.port n).resend ++ [sl] }).setPort n
      { s.port n with resend := [] }) (Tab.wf_set (Tab.wf_set ports n _) n _) sl
  exact ⟨_, sent, resent_payload _ _ _, replay, by rw [port, State.port_setPort (Tab.wf_set ports n _)]⟩

/-- A NAK of a slot no longer held: REPLAY_LOST, and the port retrains. -/
theorem nakBlock_lost {n : Nat} {blk : BitVec 128} (ports : Tab.wf {} s.ports = true) (groups : Groups s) (calm : Calm 14 s)
    (up : (s.port n).state = .up) (ok : blockOk blk = true) (kind : rfld blk 0 0 8 = 0x10)
    (gone : (s.port n).replay.find? (fun sl => slotNo sl.hdr == rfld blk 1 0 5 && slotFrame sl.hdr == rfld blk 2 0 16) = none) :
    FaultSet 14 6 (nakBlock n blk s) ∧ ((nakBlock n blk s).port n).state = .retrain := by
  unfold nakBlock
  rw [onBlock_acts up ok kind]
  dsimp only
  rw [gone]
  dsimp only
  have same : (raise 14 6 n s).ports = s.ports := Laws.raise_calm_ports groups calm
  obtain ⟨port, -, flt⟩ := retrain_retrains (s := raise 14 6 n s) (n := n) (by rw [same]; exact ports) (by rw [port_of_ports same]; exact up)
  exact ⟨faultSet_keeps (congrArg Flt.groups flt) (Laws.raise_sets groups (by decide)), by rw [port]⟩

/-! ### The abort of an operation (R529) -/

theorem sendAborts_work (c : Nat) (o : COp) (s : State) : LinkWork s (sendAborts c o s) := by
  unfold sendAborts
  refine LinkWork.foldl (fun s n => ?_) _ s
  exact (LinkWork.setPort s n _).trans (LinkWork.ite (LinkWork.emit _ _) (LinkWork.refl _))

theorem dropOpSlots_work (c part step : Nat) (s : State) : LinkWork s (dropOpSlots c part step s) := by
  unfold dropOpSlots
  refine LinkWork.foldl (fun s n => ?_) _ s
  exact LinkWork.ite (LinkWork.refl s) ((LinkWork.setPort s n _).trans (sendCredit_work n part _ _))

/-- The abort of the operation at hand: it has no more writes to make and ends as ABORTED. -/
theorem abortOp_aborts {c : Nat} {o : COp} (cols : Tab.wf {} s.cols = true) (cur : (s.cunit c).cur = some o) (fresh : o.aborted = false) :
    OpAborted c (abortOp c s) ∧ (abortOp c s).mem = s.mem := by
  unfold abortOp
  dsimp only
  rw [cur]
  dsimp only
  rw [if_neg (by rw [fresh]; decide)]
  generalize ended : ({ s.cunit c with run := .ending, cur := some { o with aborted := true, plan := [], got := [], src := [] } } : Col) = y
  obtain ⟨u, isu⟩ : ∃ u : State, u = traceAt (64 + c) (s.cunit c).owner (s.setCunit c y) := ⟨_, rfl⟩
  rw [← isu]
  have work : LinkWork (s.setCunit c y) (dropOpSlots c o.part o.step.toNat (sendAborts c o u)) := by
    rw [isu]
    exact ((LinkWork.trace _ _ _).trans (sendAborts_work c o _)).trans (dropOpSlots_work c _ _ _)
  have shown : (dropOpSlots c o.part o.step.toNat (sendAborts c o u)).cunit c = y :=
    (cunit_of_cols work.cols c).trans (State.cunit_setCunit cols c y)
  refine ⟨⟨?_, { o with aborted := true, plan := [], got := [], src := [] }, ?_, rfl, rfl⟩, work.mem⟩
  · rw [shown, ← ended]
  · rw [shown, ← ended]

end Sys2Proof.Machine

namespace Sys2Proof.Proofs
open Sys2Proof Sys2Proof.Machine Sys2Proof.Safety

/-- Settles O45: a port that comes up shows what its training learnt; one that fails is emptied and fenced with its reason, and the
requests of its control register turn on the partitions that use it. -/
theorem linkTraining : Obligations.LinkTraining := by
  unfold Obligations.LinkTraining
  intro p s canon q
  have groups := groups_of_canon canon
  obtain ⟨-, -, -, -, ports, -⟩ := canon
  refine ⟨fun tr0 enough => ⟨fun training => ?_, fun retrains empty peer calm => ?_⟩, fun tr0 idle calm => ⟨fun training few => ?_, fun retrains other => ?_, fun retrains peer few => ?_⟩,
    fun idle calm => ⟨fun training => ?_, fun retrains => ?_⟩, fun up => ⟨?_, ?_, ?_⟩, fun down => ?_, fun fenced => ?_, fun out calm => ?_,
    fun east here idle logs8 logs14 => ?_⟩
  · obtain ⟨t, is, mem, identity, up⟩ := trainingDone_up ports tr0 training enough
    exact ⟨t, congrArg Host.Outcome.next is, up.port, up.lanes, identity, mem⟩
  · obtain ⟨t, is, port, identity, mem, fewer⟩ := retrainDone_up ports groups calm tr0 retrains empty peer enough
    exact ⟨t, congrArg Host.Outcome.next is, port, identity, mem, fewer⟩
  · refine ⟨failPort p.val false s, congrArg Host.Outcome.next ?_, (failPort_fails ports groups idle calm p.val false).fenced⟩
    unfold stlTrainingDone
    dsimp only
    rw [if_neg (by rw [show (s.port p.val).state = .training from training]; decide), if_pos few]
  · refine ⟨failPort p.val true s, congrArg Host.Outcome.next ?_, (failPort_fails ports groups idle calm p.val true).fenced⟩
    unfold stlRetrainDone
    dsimp only
    rw [if_neg (by rw [show (s.port p.val).state = .retrain from retrains]; decide), if_pos (by rw [bne_iff_ne]; exact other)]
  · refine ⟨failPort p.val false s, congrArg Host.Outcome.next ?_, (failPort_fails ports groups idle calm p.val false).fenced⟩
    unfold stlRetrainDone
    dsimp only
    rw [if_neg (by rw [show (s.port p.val).state = .retrain from retrains]; decide), if_neg (by rw [bne_iff_ne, not_not]; exact peer), if_pos few]
  · have fails := failPort_fails ports groups idle calm p.val false
    refine ⟨failPort p.val false s, congrArg Host.Outcome.next ?_, fails.fenced, fails.mem⟩
    unfold stlTrainingTimeout
    rw [if_pos (by rw [show (s.port p.val).state = .training from training]; rfl)]
  · have fails := failPort_fails ports groups idle calm p.val false
    refine ⟨failPort p.val false s, congrArg Host.Outcome.next ?_, fails.fenced, fails.mem⟩
    unfold stlRetrainTimeout
    rw [if_pos (by rw [show (s.port p.val).state = .retrain from retrains]; rfl)]
  · obtain ⟨port, mem, -⟩ := retrain_retrains ports up
    exact ⟨retrain p.val s, rfl, port, mem⟩
  · obtain ⟨port, mem, -⟩ := retrain_retrains ports up
    exact ⟨retrain p.val s, rfl, port, mem⟩
  · obtain ⟨mem, port⟩ := stlPortFence_up ports up
    refine ⟨stlPortFence p.val s, rfl, mem, ?_⟩
    split_ifs with users
    · rw [port, if_pos users]
    · rw [port, if_neg users]
  · refine ⟨refreshMirrors s, congrArg Host.Outcome.next ?_, rfl, rfl⟩
    unfold stlPortFence requestPortFence
    dsimp only
    rw [if_pos (by rw [bne_iff_ne]; exact down)]
  · obtain ⟨mem, port⟩ := stlPortReadmit_fenced ports fenced
    refine ⟨stlPortReadmit p.val s, rfl, mem, ?_⟩
    split_ifs with users
    · rw [port, if_pos users]
    · rw [port, if_neg users]
  · refine ⟨raise 14 0 p.val s, congrArg Host.Outcome.next ?_, Laws.raise_sets groups (by decide), Laws.raise_calm_ports groups calm⟩
    unfold stlPortReadmit
    rw [if_neg (by rw [beq_iff_eq]; exact out)]
    rfl
  · exact ⟨serdesRefclkLost east s, rfl, serdesRefclkLost_fences east p ports groups idle logs8 logs14 here⟩

/-- Settles O46: each slot and each control block is judged by its CRC, its type, the owner of its number and the replay buffer. -/
theorem linkTraffic : Obligations.LinkTraffic := by
  unfold Obligations.LinkTraffic
  intro p s canon up q
  have groups := groups_of_canon canon
  obtain ⟨-, -, -, -, ports, cols, -⟩ := canon
  have awake : ¬ ((s.port p.val).state != .up) = true := by rw [up]; decide
  refine ⟨fun sl clean => ⟨fun ok valid owned idle => ?_, fun ok valid foreign calm => ?_, fun bad => ?_, fun first calm => ?_⟩, fun blk ok =>
    ⟨fun sl kind empty held => ?_, fun kind calm gone => ?_, fun o kind cur fresh part step => ?_, fun kind some most empty => ?_, fun kind => ?_⟩,
    fun blk bad calm => ?_⟩
  · refine ⟨s.setPort p.val { q with rx := q.rx ++ [sl] }, congrArg Host.Outcome.next ?_, State.port_setPort ports _ _, rfl⟩
    unfold slotReceive
    rw [if_neg awake]
    simp only [checkEcc_clean clean, if_true]
    rw [if_neg (by decide), if_neg (by rw [ok]; decide), if_neg (by rw [valid]; decide), if_neg (by rw [owned]; decide), if_neg (by decide)]
    unfold pumpCol
    dsimp only
    rw [show ((s.setPort p.val { q with rx := q.rx ++ [sl] }).cunit (slotUnit sl.hdr)).cur = none from idle]
  · refine ⟨raise 14 5 p.val s, congrArg Host.Outcome.next ?_, Laws.raise_sets groups (by decide), Laws.raise_calm_ports groups calm⟩
    unfold slotReceive
    rw [if_neg awake]
    simp only [checkEcc_clean clean, if_true]
    rw [if_neg (by decide), if_neg (by rw [ok]; decide), if_neg (by rw [valid]; decide), if_pos (by rw [foreign]; rfl)]
  · refine ⟨sendNak p.val sl.hdr s, congrArg Host.Outcome.next ?_, List.mem_cons_self, rfl⟩
    unfold slotReceive
    rw [if_neg awake]
    simp only [checkEcc_clean clean, if_true]
    rw [if_neg (by decide), if_pos (by rw [bad]; rfl)]
  · generalize counted : s.setPort p.val { q with uncorr := satInc q.uncorr, uncWin := [s.clk.now] } = u
    have uflt : u.flt = s.flt := by rw [← counted]; rfl
    have ugroups : Groups u := groups_of_flt uflt groups
    have uport : u.port p.val = { q with uncorr := satInc q.uncorr, uncWin := [s.clk.now] } := by
      rw [← counted]
      exact State.port_setPort ports _ _
    refine ⟨sendNak p.val sl.hdr (raise 14 3 p.val u), congrArg Host.Outcome.next ?_, List.mem_cons_self, Laws.raise_sets ugroups (by decide),
      (port_of_ports (s := u) (Laws.raise_calm_ports ugroups (calm_keeps uflt calm)) p.val).trans uport⟩
    unfold slotReceive
    rw [if_neg awake]
    simp only [checkEcc_clean clean, Bool.false_eq_true, if_false]
    rw [if_pos (by decide), codewordLost_first first, ← counted]
  · obtain ⟨again, sent, payload, replay, port⟩ := nakBlock_repeats ports up ok kind empty held
    exact ⟨nakBlock p.val blk s, again, rfl, sent, payload, by rw [port], by rw [port], by rw [port]; exact up⟩
  · exact ⟨nakBlock p.val blk s, rfl, nakBlock_lost ports groups calm up ok kind gone⟩
  · refine ⟨abortOp (rfld blk 2 0 3) s, congrArg Host.Outcome.next ?_, abortOp_aborts cols cur fresh⟩
    unfold abortBlock
    rw [onBlock_acts up ok kind]
    dsimp only
    rw [cur]
    exact if_pos ⟨part, step⟩
  · refine congrArg Host.Outcome.next ?_
    unfold stlCredit
    rw [onBlock_acts up ok kind]
    dsimp only
    rw [if_neg (by omega)]
    exact drainTx_empty (by rw [State.port_setPort ports]; exact empty)
  · refine congrArg Host.Outcome.next ?_
    unfold linkBlock
    rw [onBlock_acts up ok kind]
  · have drops := fun ty f => onBlock_drops (n := p.val) (ty := ty) up bad f
    have set : FaultSet 14 3 (raise 14 3 p.val s) := Laws.raise_sets groups (by decide)
    have same : (raise 14 3 p.val s).ports = s.ports := Laws.raise_calm_ports groups calm
    exact ⟨⟨_, congrArg Host.Outcome.next (drops _ _), set, same⟩, ⟨_, congrArg Host.Outcome.next (drops _ _), set, Laws.raise_calm_cols groups calm⟩,
      ⟨_, congrArg Host.Outcome.next (drops _ _), set, same⟩, ⟨_, congrArg Host.Outcome.next (drops _ _), set, same⟩⟩

end Sys2Proof.Proofs
end


section
/-! SUPPORT. Entries of a sparse table as members of its list. -/
namespace Sys2Proof
open Sys2Proof

/-- A function that leaves every listed value leaves a canonical table. -/
theorem Tab.mapV_same {α : Type} [DecidableEq α] {d : α} {f : Nat → α → α} {lo : Nat} {t : Tab α} (wf : Tab.wfFrom d lo t = true)
    (same : ∀ e ∈ t, f e.1 e.2 = e.2) : Tab.mapV d f t = t := by
  induction t generalizing lo with
  | nil => rfl
  | cons e t ih =>
    obtain ⟨j, v⟩ := e
    simp only [Tab.wfFrom, Bool.and_eq_true, decide_eq_true_eq] at wf
    obtain ⟨⟨-, other⟩, rest⟩ := wf
    have stays : f j v = v := same (j, v) List.mem_cons_self
    unfold Tab.mapV
    rw [if_neg (by rw [stays]; exact other), stays, ih rest fun e mem => same e (List.mem_cons_of_mem _ mem)]

/-- What every value of a function satisfies, every listed value does after the function. -/
theorem Tab.mapV_all {α : Type} [DecidableEq α] {d : α} {f : Nat → α → α} {p : α → Bool} (holds : ∀ k x, p (f k x) = true) (t : Tab α) :
    (Tab.mapV d f t).all (fun e => p e.2) = true := by
  induction t with
  | nil => rfl
  | cons e t ih =>
    obtain ⟨j, v⟩ := e
    unfold Tab.mapV
    split
    · exact ih
    · rw [List.all_cons, holds, Bool.true_and]
      exact ih

end Sys2Proof
end

section
/-! SUPPORT. The host driver and the events of its link (R556, R573 to R577): the stop of host DMA, the reset of the host island, and
the answers of the host to the reads of transfer engines (R277, R580). -/
namespace Sys2Proof.Machine
open Sys2Proof Sys2Proof.Safety

/-! ### Engines and interfaces given up -/

/-- Work on transfer engines and on what virtual interfaces hold back changes engines, partitions' flags and interfaces alone. -/
structure EngineWork (s t : State) : Prop where
  shape : ∃ xfes parts vis, t = { s with xfes := xfes, parts := parts, vis := vis }
  wf : Tab.wf {} s.vis = true → Tab.wf {} t.vis = true

namespace EngineWork
variable {r s t : State}

theorem refl (s : State) : EngineWork s s := ⟨⟨s.xfes, s.parts, s.vis, rfl⟩, id⟩

theorem trans (h : EngineWork r s) (k : EngineWork s t) : EngineWork r t := by
  obtain ⟨_, _, _, e⟩ := h.shape
  obtain ⟨xfes, parts, vis, e'⟩ := k.shape
  exact ⟨⟨xfes, parts, vis, by rw [e', e]⟩, k.wf ∘ h.wf⟩

theorem ite {p : Prop} [Decidable p] {a b : State} (ha : EngineWork s a) (hb : EngineWork s b) : EngineWork s (if p then a else b) := by
  split <;> assumption

theorem foldl {α : Type} {f : State → α → State} (step : ∀ s a, EngineWork s (f s a)) (l : List α) (s : State) : EngineWork s (l.foldl f s) := by
  induction l generalizing s with
  | nil => exact refl s
  | cons a l ih => exact (step s a).trans (ih _)

theorem setXfe (s : State) (e : Nat) (x : Xfe) : EngineWork s (s.setXfe e x) := ⟨⟨_, s.parts, s.vis, rfl⟩, id⟩
theorem setVi (s : State) (v : Nat) (x : Vi) : EngineWork s (s.setVi v x) := ⟨⟨s.xfes, s.parts, _, rfl⟩, fun wf => Tab.wf_set wf v x⟩
theorem flag (s : State) (p bit : Nat) : EngineWork s (markFlag p bit s) := ⟨⟨s.xfes, _, s.vis, rfl⟩, id⟩

theorem flt (h : EngineWork s t) : t.flt = s.flt := by obtain ⟨_, _, _, e⟩ := h.shape; rw [e]
theorem host (h : EngineWork s t) : t.host = s.host := by obtain ⟨_, _, _, e⟩ := h.shape; rw [e]
theorem noc (h : EngineWork s t) : t.noc = s.noc := by obtain ⟨_, _, _, e⟩ := h.shape; rw [e]
theorem xlt (h : EngineWork s t) : t.xlt = s.xlt := by obtain ⟨_, _, _, e⟩ := h.shape; rw [e]

end EngineWork

theorem delivered_work (e k : Nat) (s : State) : EngineWork s (delivered e k s) := by
  unfold delivered
  dsimp only
  split
  · exact .refl s
  · exact .setXfe s e _

theorem popUnits_work (n e : Nat) (s : State) : EngineWork s (popUnits n e s) := by
  induction n generalizing s with
  | zero => exact .refl s
  | succ n ih =>
    unfold popUnits
    dsimp only
    split
    · exact .refl s
    · split
      · split
        · exact ((EngineWork.setXfe s e _).trans (.ite (.refl _) (delivered_work e _ _))).trans (ih _)
        · exact .refl s
      · exact .refl s

theorem settle_work (e : Nat) (s : State) : EngineWork s (settle e s) := by
  unfold settle
  split
  · exact popUnits_work _ e s
  · exact .refl s

theorem endAtElem_work (e k : Nat) (st : Status) (s : State) : EngineWork s (endAtElem e k st s) := by
  unfold endAtElem
  dsimp only
  split
  · exact .refl s
  · exact .ite (.setXfe s e _) (.ite (.setXfe s e _) (.refl s))

theorem endEarly_work (e : Nat) (st : Status) (s : State) : EngineWork s (endEarly e st s) := by
  unfold endEarly
  split
  · exact .refl s
  · exact endAtElem_work e _ st s

theorem holdEntry_work (v tag : Nat) (st : Status) (detail : Nat) (s : State) : EngineWork s (holdEntry v tag st detail s) := by
  unfold holdEntry
  dsimp only
  split
  · exact .refl s
  · split
    · split
      · exact .setVi s v _
      · exact .setVi s v _
    · exact .setVi s v _

theorem endSource_work (src : XSource) (st : Status) (detail : Nat) (s : State) : EngineWork s (endSource src st detail s) := by
  cases src with
  | command v tag => exact holdEntry_work v tag st detail s
  | _ => exact .refl s

theorem endHostDescs_work (v : Nat) (s : State) : EngineWork s (endHostDescs v s) := by
  unfold endHostDescs
  refine EngineWork.foldl (fun s e => ?_) _ s
  dsimp only
  have swept (x : Xfe) (gone : List XDesc) : EngineWork s (gone.foldl (fun s d => endSource d.src .aborted 0 s) (s.setXfe e x)) :=
    (EngineWork.setXfe s e x).trans (EngineWork.foldl (fun s (d : XDesc) => endSource_work d.src .aborted 0 s) gone _)
  split
  · exact .ite ((swept _ _).trans (endEarly_work _ _ _)) (swept _ _)
  · exact swept _ _

theorem quiesceVi_work (v : Nat) (s : State) : EngineWork s (quiesceVi v none s) :=
  (EngineWork.setVi s v _).trans (endHostDescs_work v _)

/-! ### The stop of host DMA (R573, R574) -/

theorem abortFetch_shape (s : State) : ∃ xlt mgt img, abortFetch s = { s with xlt := xlt, mgt := mgt, img := img } := by
  unfold abortFetch
  split
  · unfold dropWindow
    split
    · exact ⟨s.xlt, _, _, rfl⟩
    · exact ⟨_, _, _, rfl⟩
  · exact ⟨s.xlt, s.mgt, s.img, rfl⟩

/-- The host block as the stop of host DMA leaves it. -/
def stoppedHost (reason : Nat) (h : HostEp) : HostEp := { h with dmaStopped := true, stopReason := reason, attached := false }

/-- What the stop of host DMA leaves. -/
structure DmaStops (reason : Nat) (s t : State) : Prop where
  host : ∃ st line, t.host = { stoppedHost reason s.host with intStatus := st, inta := line }
  reqs : ∀ r ∈ t.noc.reqs, r.host = false
  noted : Noted 1 2 s t
  vis : Tab.wf {} s.vis = true → Tab.wf {} t.vis = true

/-- Host DMA that runs stops with its reason: the host's requests are given up, and the fault is noted. -/
theorem stopDma_stops (runs : s.host.dmaStopped = false) (groups : Groups s) (calm : Calm 1 s) (reason : Nat) : DmaStops reason s (stopDma reason s) := by
  unfold stopDma
  rw [if_neg (by rw [runs]; decide)]
  extract_lets h a tags b x n c d
  have work : EngineWork a b := by
    refine EngineWork.foldl (fun s e => ?_) _ a
    dsimp only
    refine (EngineWork.trans (s := if (s.xfe e).hostBound then _ else s) (.ite ?_ (.refl s)) (.setXfe _ e _)).trans (settle_work e _)
    refine (endEarly_work e .aborted s).trans ?_
    split
    · exact .flag _ _ _
    · exact .refl _
  obtain ⟨xlt, mgt, img, aborts⟩ := abortFetch_shape d
  have dwf : Tab.wf {} s.vis = true → Tab.wf {} d.vis = true := fun wf => Tab.wf_mapV (work.wf wf) _
  have dhost : d.host = stoppedHost reason s.host := work.host
  have dflt : d.flt = s.flt := work.flt
  have dreqs : ∀ r ∈ d.noc.reqs, r.host = false := fun r mem => by
    have keeps := (List.mem_filter.mp mem).2
    simpa using keeps
  obtain ⟨u, isu⟩ : ∃ u : State, u = abortFetch d := ⟨_, rfl⟩
  rw [← isu]
  have uflt : u.flt = s.flt := by rw [isu, aborts]; exact dflt
  have uhost : u.host = stoppedHost reason s.host := by rw [isu, aborts]; exact dhost
  have unoc : u.noc = d.noc := by rw [isu, aborts]
  have uvis : u.vis = d.vis := by rw [isu, aborts]
  have ugroups : Groups u := groups_of_flt uflt groups
  have ucalm : Calm 1 u := calm_keeps uflt calm
  have ugrp : u.grp 1 = s.grp 1 := congrArg (fun f : Flt => Tab.get (FGroup.reset 1) f.groups 1) uflt
  obtain ⟨rises, status, unacked, mask, action⟩ : Noted 1 2 u (raise 1 2 0 u) := raise_notes ugroups ucalm
  rw [ugrp] at status unacked mask action
  refine ⟨?_, ?_, ⟨rises, status, unacked, mask, action⟩, fun wf => ?_⟩
  · obtain ⟨_, _, line, st, _, e⟩ := Laws.raise_calm (bit := 2) (unit := 0) ugroups ucalm
    exact ⟨st, line, by rw [e, uhost]⟩
  · rw [Laws.raise_calm_noc ugroups ucalm, unoc]
    exact dreqs
  · rw [Laws.raise_calm_vis ugroups ucalm, uvis]
    exact dwf wf

theorem faultSet_noted {bit : Nat} (low : bit < 32) (h : Noted g bit s t) : FaultSet g bit t := by
  unfold FaultSet
  rw [h.status]
  exact Laws.putBit_same _ low

/-- Host DMA has stopped, as the registers show it. -/
theorem DmaStops.stop {reason : Nat} (h : DmaStops reason s t) : DmaStop reason t := by
  obtain ⟨st, line, host⟩ := h.host
  unfold DmaStop
  rw [host]
  refine ⟨rfl, rfl, rfl, faultSet_noted (by decide) h.noted, h.reqs⟩

/-- A stop of host DMA shows as long as the host block's fields, the network's requests and the fault groups stand. -/
theorem dmaStop_keeps {reason : Nat} (h : DmaStop reason s) (stopped : t.host.dmaStopped = s.host.dmaStopped) (why : t.host.stopReason = s.host.stopReason)
    (attached : t.host.attached = false) (groups : t.flt.groups = s.flt.groups) (noc : t.noc = s.noc) : DmaStop reason t := by
  obtain ⟨h1, h2, -, set, reqs⟩ := h
  exact ⟨stopped.trans h1, why.trans h2, attached, faultSet_keeps groups set, by rw [noc]; exact reqs⟩

theorem dmaStop_refresh {reason : Nat} (h : DmaStop reason t) : DmaStop reason (refresh t) := by
  obtain ⟨pin, st, line, out, e⟩ := refresh_shape t
  rw [e]
  exact dmaStop_keeps h rfl rfl h.2.2.1 rfl rfl

/-! ### The reset of the host island (R576) -/

/-- Interfaces quiesced one after the other: none of them stays attached, and no other becomes so. -/
theorem quiesceAll_vi (l : List Nat) (s : State) (wf : Tab.wf {} s.vis = true) :
    let t := l.foldl (fun s v => quiesceVi v none s) s
    EngineWork s t ∧ ∀ w, (t.vi w).state = .attached → (s.vi w).state = .attached ∧ w ∉ l := by
  induction l generalizing s with
  | nil => exact ⟨.refl s, fun w at_ => ⟨at_, List.not_mem_nil⟩⟩
  | cons v l ih =>
    dsimp only
    rw [List.foldl_cons]
    have first := quiesceVi_work v s
    obtain ⟨rest, vis⟩ := ih (quiesceVi v none s) (first.wf wf)
    refine ⟨first.trans rest, fun w at_ => ?_⟩
    obtain ⟨still, out⟩ := vis w at_
    have own : w ≠ v := fun same => by
      subst same
      obtain ⟨y, holds, quiet, -⟩ := quiesceVi_vi (v := w) (s := s) ⟨wf, rfl⟩ none
      have is : (quiesceVi w none s).vi w = y := holds.get
      rw [is, quiet] at still
      exact absurd still (by decide)
    have before : (s.vi w).state = .attached := by
      have kept : Tab.Holds {} (s.modVi v (fun x => { x with state := .quiesced, pend := .none, read := [], reading := none, fetchWait := false })).vis w (s.vi w) :=
        by
          unfold State.modVi State.setVi
          dsimp only
          exact Tab.Holds.other (x := s.vi w) ⟨wf, rfl⟩ (Ne.symm own) _
      obtain ⟨_, _, _, holds⟩ := (endHostDescs_holdsBack v _).vi w _ kept
      have is := holds.get
      have same : (quiesceVi v none s).vi w = _ := is
      rw [same] at still
      exact still
    exact ⟨before, fun mem => (List.mem_cons.mp mem).elim own out⟩

/-- The host block after the island's reset. -/
def islandHost (h : HostEp) : HostEp := { h with bme := false, d3hot := false, intDisable := false, attached := false, attachStat := .ok }

/-- The reset of the host island: windows and translations are void, no interface stays attached, no entry is held; faults and the
network stay. -/
theorem resetHostIsland_resets (wf : Tab.wf {} s.vis = true) :
    let t := resetHostIsland s
    IslandReset t ∧ t.host = islandHost s.host ∧ t.flt = s.flt ∧ t.noc = s.noc := by
  dsimp only
  unfold resetHostIsland
  extract_lets a x h b c
  obtain ⟨work, vis⟩ := quiesceAll_vi ((b.vis.filter (fun e => e.2.state == .attached)).map (·.1)) b wf
  have xlt : c.xlt = b.xlt := work.xlt
  have host : c.host = islandHost s.host := work.host
  have get : ∀ v, Tab.get ({} : Vi) (Tab.mapV {} (fun _ (x : Vi) => { x with held := [] }) c.vis) v = { c.vi v with held := [] } :=
    fun v => Tab.get_mapV (fun _ => rfl) v (work.wf wf)
  refine ⟨?_, host, work.flt, work.noc⟩
  unfold IslandReset
  dsimp only
  rw [xlt, host]
  refine ⟨rfl, ?_, ?_, rfl, rfl, rfl, rfl, rfl, rfl, rfl, fun v => ?_⟩
  · exact Tab.mapV_all (f := fun _ es => es.filter fun e => !e.host) (p := fun es => es.all fun e => !e.host) (fun _ es => by simp) s.xlt.bufs
  · exact Tab.mapV_all (f := fun _ es => es.filter fun e => !e.host) (p := fun es => es.all fun e => !e.host) (fun _ es => by simp) s.xlt.l2
  · show (Tab.get ({} : Vi) (Tab.mapV {} (fun _ (x : Vi) => { x with held := [] }) c.vis) v).state ≠ .attached ∧
      (Tab.get ({} : Vi) (Tab.mapV {} (fun _ (x : Vi) => { x with held := [] }) c.vis) v).held = []
    rw [get v]
    refine ⟨fun at_ => ?_, rfl⟩
    obtain ⟨was, out⟩ := vis v at_
    refine out (List.mem_map.mpr ⟨(v, b.vi v), List.mem_filter.mpr ⟨?_, by rw [was]; rfl⟩, rfl⟩)
    obtain unlisted | listed := Tab.get_eq_or_mem ({} : Vi) v b.vis
    · have is : b.vi v = {} := unlisted
      rw [is] at was
      exact absurd was (by decide)
    · exact listed

theorem islandReset_keeps (h : IslandReset s) (xlt : t.xlt = s.xlt) (vis : t.vis = s.vis) (bme : t.host.bme = s.host.bme)
    (d3hot : t.host.d3hot = s.host.d3hot) (dis : t.host.intDisable = s.host.intDisable) : IslandReset t := by
  unfold IslandReset State.vi at *
  rw [xlt, vis, bme, d3hot, dis]
  exact h

theorem islandReset_refresh (h : IslandReset t) : IslandReset (refresh t) := by
  obtain ⟨pin, st, line, out, e⟩ := refresh_shape t
  rw [e]
  exact islandReset_keeps h rfl rfl rfl rfl rfl

/-! ### The interrupt line while the link is down (R551) -/

theorem refresh_inta (down : s.host.linkUp = false) : (refresh s).host.inta = s.host.inta := by
  obtain ⟨pin, out, e⟩ := refreshPin_shape s
  unfold refresh refreshInt
  dsimp only
  rw [e]
  dsimp only
  rw [if_neg (by simp [down])]

/-- A fault that its group logs goes into the group's registers and out, and has no other effect. -/
theorem detectN_logged {g bit unit : Nat} (logs : Logs g s) (n : Nat) : (detectN (n + 1) g bit unit s).host = s.host := by
  unfold detectN
  dsimp only
  rw [if_pos]
  · rfl
  · rw [Laws.markUnit_action]
    have log : (s.grp g).action = .log := logs
    simp [log]

/-- A fault that its group logs leaves the interrupt line of a link that is down. -/
theorem raise_inta {g bit unit : Nat} (logs : Logs g s) (down : s.host.linkUp = false) :
    (raise g bit unit s).host.inta = s.host.inta := by
  have host := detectN_logged (bit := bit) (unit := unit) logs 5
  unfold raise
  rw [refresh_inta (by rw [host]; exact down), host]

/-! ### Idle engines and rings -/

/-- A fold of steps that change nothing. -/
theorem foldl_stays {α : Type} {f : State → α → State} (stays : ∀ a, f s a = s) (l : List α) : l.foldl f s = s := by
  induction l with
  | nil => rfl
  | cons a l ih => rw [List.foldl_cons, stays, ih]

/-- An engine of an idle set has no descriptor at hand. -/
theorem xfe_idle (idle : EnginesIdle s) (e : Nat) : (s.xfe e).cur = none := by
  obtain unlisted | listed := Tab.get_eq_or_mem ({} : Xfe) e s.xfes
  · have is : s.xfe e = {} := unlisted
    rw [is]
  · by_contra busy
    have mem : e ∈ Tab.keysWhere s.xfes (fun x => x.cur.isSome) :=
      List.mem_map.mpr ⟨(e, s.xfe e), List.mem_filter.mpr ⟨listed, Option.isSome_iff_ne_none.mpr busy⟩, rfl⟩
    rw [idle] at mem
    exact absurd mem List.not_mem_nil

theorem pumpAll_idle (idle : EnginesIdle s) : pumpAll s = s := by
  unfold pumpAll
  rw [idle]
  rfl

theorem ringRetryAll_idle (idle : RingsIdle s) : ringRetryAll s = s := by
  unfold ringRetryAll
  refine foldl_stays (fun p => ?_) _
  refine foldl_stays (fun v => ?_) _
  rw [if_neg (by rw [idle v]; decide)]

/-! ### Answers of the host (R277, R580) -/

/-- What a poisoned completion notes. -/
theorem poisonNoted {ok poison : Bool} (groups : Groups s) (calm : poison = false ∨ Calm 1 s) :
    let u := if ok && poison then raise 1 4 0 s else s
    u.noc = s.noc ∧ u.xfes = s.xfes ∧ u.vis = s.vis ∧ u.mem = s.mem ∧ (ok = true → poison = true → FaultSet 1 4 u) := by
  dsimp only
  by_cases on : (ok && poison) = true
  · rw [if_pos on]
    have calm : Calm 1 s := calm.resolve_left (by rw [(Bool.and_eq_true _ _ ▸ on : ok = true ∧ poison = true).2]; decide)
    exact ⟨Laws.raise_calm_noc groups calm, Laws.raise_calm_xfes groups calm, Laws.raise_calm_vis groups calm, Laws.raise_calm_mem groups calm,
      fun _ _ => Laws.raise_sets groups (by decide)⟩
  · rw [if_neg on]
    exact ⟨rfl, rfl, rfl, rfl, fun h k => absurd (by rw [h, k]; rfl) on⟩

/-- What a read's end leaves where no engine and no ring waits for anything. -/
structure ReadEnded (tag : Nat) (s t : State) : Prop where
  gone : ∀ q ∈ t.noc.reqs, q.tag ≠ tag
  mem : t.mem = s.mem
  xfes : t.xfes = s.xfes
  flt : t.flt = s.flt

/-- The end of an engine's read that no descriptor at hand waits for: the request goes, with its counters. -/
theorem hostReadEnds_idle {tag e k : Nat} {ok poison : Bool} {data : List Byte} {r : Req}
    (found : s.noc.reqs.find? (fun r => r.tag == tag && r.host && r.gone && !r.write) = some r) (alive : r.dead = false) (use_ : r.use = .xread e k)
    (free : NoTargets r s) (engines : EnginesIdle s) (rings : RingsIdle s) (groups : Groups s) (calm : poison = false ∨ Calm 1 s) :
    ReadEnded tag (if ok && poison then raise 1 4 0 s else s) (hostReadEnds tag ok poison data s) := by
  obtain ⟨noc, xfes, vis, -, -⟩ := poisonNoted (ok := ok) groups calm
  unfold hostReadEnds
  dsimp only
  rw [found]
  dsimp only
  simp only [alive, use_, Bool.false_eq_true, if_false]
  generalize (if (ok && poison) = true then raise 1 4 0 s else s) = u at noc xfes vis ⊢
  have quiet : NoTargets r (u.dropReq tag) := by
    have ports : (u.dropReq tag).noc.qports = s.noc.qports := by
      show u.noc.qports = s.noc.qports
      rw [noc]
    unfold NoTargets State.qport at free ⊢
    rw [ports]
    exact free
  obtain ⟨ports, counted⟩ := completeStats_shape quiet
  have drop : ({ u with noc := { u.noc with reqs := u.noc.reqs.filter (fun q => q.tag != tag) } } : State) = u.dropReq tag := rfl
  rw [drop, counted]
  generalize fin : ({ u.dropReq tag with noc := { (u.dropReq tag).noc with qports := ports } } : State) = w
  have wxfes : w.xfes = s.xfes := by rw [← fin]; exact xfes
  have wvis : w.vis = s.vis := by rw [← fin]; exact vis
  have idle : EnginesIdle w := by unfold EnginesIdle; rw [wxfes]; exact engines
  have resting : RingsIdle w := fun v => by unfold State.vi; rw [wvis]; exact rings v
  have unread : (if ok = true then xfeRead e tag (data.take r.len) poison w else xfeReadFailed e tag w) = w := by
    have none := xfe_idle idle e
    split
    · unfold xfeRead
      dsimp only
      rw [none]
    · unfold xfeReadFailed
      dsimp only
      rw [none]
  rw [unread, pumpAll_idle idle, ringRetryAll_idle resting, ← fin]
  refine ⟨fun q mem => ?_, rfl, rfl, rfl⟩
  have keeps := (List.mem_filter.mp mem).2
  simpa using keeps

/-- The completion of a read that was given up is discarded. -/
theorem hostReadEnds_dead {tag : Nat} {ok : Bool} {data : List Byte} {r : Req}
    (found : s.noc.reqs.find? (fun r => r.tag == tag && r.host && r.gone && !r.write) = some r) (dead : r.dead = true)
    (engines : EnginesIdle s) (rings : RingsIdle s) : hostReadEnds tag ok false data s = s.dropReq tag := by
  unfold hostReadEnds
  dsimp only
  rw [found]
  dsimp only
  simp only [dead, Bool.and_false, Bool.false_eq_true, if_false, if_true]
  have idle : EnginesIdle (s.dropReq tag) := engines
  have resting : RingsIdle (s.dropReq tag) := rings
  exact (congrArg ringRetryAll (pumpAll_idle idle)).trans (ringRetryAll_idle resting)

/-- A read's end as refreshed. -/
theorem ReadEnded.refreshed {tag : Nat} (h : ReadEnded tag s t) : (∀ q ∈ (refresh t).noc.reqs, q.tag ≠ tag) ∧ (refresh t).mem = s.mem ∧
    (refresh t).xfes = s.xfes ∧ (refresh t).flt.groups = s.flt.groups := by
  refine ⟨?_, ?_, ?_, ?_⟩
  · rw [refresh_noc]; exact h.gone
  · rw [refresh_mem]; exact h.mem
  · rw [refresh_xfes]; exact h.xfes
  · rw [refresh_groups]; exact congrArg Flt.groups h.flt

end Sys2Proof.Machine

namespace Sys2Proof.Proofs
open Sys2Proof Sys2Proof.Machine Sys2Proof.Safety

/-- Settles O50: the driver's attach turns on its conditions alone; each event of the link stops host DMA with its reason before the
island's reset, which leaves that reason; and a completion ends its request, whatever became of the descriptor. -/
theorem hostDriverAndReads : Obligations.HostDriverAndReads := by
  unfold Obligations.HostDriverAndReads
  refine ⟨fun s canon => ?_, fun tag s r canon found free => ⟨fun e k alive use_ => ⟨fun data => ?_, fun engines rings => ⟨fun cpl data poison calm => ?_, fun calm => ?_⟩⟩,
    fun dead engines rings cpl data => congrArg (fun u => Host.Outcome.next (refresh u)) (hostReadEnds_dead found dead engines rings)⟩⟩
  · have groups := groups_of_canon canon
    obtain ⟨-, -, -, -, -, -, vis, -⟩ := canon
    refine ⟨fun val major complete bme awake free => ?_, fun val refused => ?_, rfl, rfl, rfl, fun runs calm => ?_, fun stopped => ?_,
      fun rate width flit => ⟨?_, fun released => ?_⟩, fun b => ?_⟩
    · have same : Tab.mapV {} (fun _ (x : Vi) => if x.state == .attached && !x.held.isEmpty then { x with resume := true } else x) s.vis = s.vis := by
        refine Tab.mapV_same vis fun e mem => ?_
        have get : s.vi e.1 = e.2 := Tab.get_of_mem (Tab.wf_rises vis) mem
        rw [← get, free e.1]
        simp
      have accepted : hstAttach val s =
          { s with host := { s.host with attachStat := .ok, attached := true, dmaStopped := false, stopReason := 0, drvRenew := s.clk.now } } := by
        have status : (if (bits val.toNat 16 16 != 1) = true then Status.version
            else if (s.mgt.stage != .complete || !s.host.bme || s.host.d3hot) = true then .denied else .ok) = .ok := by
          rw [if_neg (by simp [major]), if_neg (by simp [complete, bme, awake])]
        unfold hstAttach
        dsimp only
        rw [status, if_neg (by decide), same]
      obtain ⟨pin, st, line, out, e⟩ := refresh_shape (hstAttach val s)
      exact ⟨refresh (hstAttach val s), rfl, by rw [e, accepted], by rw [e, accepted], by rw [e, accepted], by rw [e, accepted], by rw [e, accepted],
        by rw [e, accepted], by rw [e, accepted]⟩
    · have denied : hstAttach val s = { s with host := { s.host with attachStat := if bits val.toNat 16 16 = 1 then .denied else .version } } := by
        have status : (if (bits val.toNat 16 16 != 1) = true then Status.version
            else if (s.mgt.stage != .complete || !s.host.bme || s.host.d3hot) = true then .denied else .ok) =
            if bits val.toNat 16 16 = 1 then .denied else .version := by
          by_cases major : bits val.toNat 16 16 = 1
          · have off : (s.mgt.stage != .complete || !s.host.bme || s.host.d3hot) = true := by
              rcases refused with wrong | early | noBme | asleep
              · exact absurd major wrong
              · simp [early]
              · simp [noBme]
              · simp [asleep]
            rw [if_neg (by simp [major]), if_pos off, if_pos major]
          · rw [if_pos (by simp [major]), if_neg major]
        unfold hstAttach
        dsimp only
        rw [status, if_pos (by split <;> decide)]
      obtain ⟨pin, st, line, out, e⟩ := refresh_shape (hstAttach val s)
      exact ⟨refresh (hstAttach val s), rfl, by rw [e, denied], by rw [e, denied], by rw [e, denied], by rw [e, denied]⟩
    · have stop := fun reason => stopDma_stops runs groups calm reason
      refine ⟨fun attached renewed => ?_, ?_, ?_, ?_, ?_, ?_, fun logs => ?_⟩
      · have is : drvLeaseExpiry s = stopDma 2 s := if_pos (by simp [attached, renewed])
        exact ⟨refresh (drvLeaseExpiry s), rfl, by rw [is]; exact dmaStop_refresh (stop 2).stop⟩
      · exact ⟨refresh (stopDma 1 s), rfl, dmaStop_refresh (stop 1).stop⟩
      · obtain ⟨u, isu⟩ : ∃ u : State, u = { s with host := { s.host with bme := false } } := ⟨_, rfl⟩
        have stops := stopDma_stops (s := u) (by rw [isu]; exact runs) (by rw [isu]; exact groups) (by rw [isu]; exact calm) 3
        refine ⟨refresh (stopDma 3 u), by rw [isu]; rfl, dmaStop_refresh stops.stop, ?_⟩
        obtain ⟨st, line, host⟩ := stops.host
        obtain ⟨_, _, _, _, e⟩ := refresh_shape (stopDma 3 u)
        rw [e, host, isu]
        rfl
      · obtain ⟨island, host, flt, noc⟩ := resetHostIsland_resets ((stop 4).vis vis)
        refine ⟨refresh (resetHostIsland (stopDma 4 s)), rfl, dmaStop_refresh ?_, islandReset_refresh island⟩
        exact dmaStop_keeps (stop 4).stop (by rw [host]; rfl) (by rw [host]; rfl) (by rw [host]; rfl) (by rw [flt]) noc
      · obtain ⟨island, host, flt, noc⟩ := resetHostIsland_resets ((stop 5).vis vis)
        have stopped : DmaStop 5 (perstAssert s) := dmaStop_keeps (stop 5).stop (by show (resetHostIsland (stopDma 5 s)).host.dmaStopped = _; rw [host]; rfl)
          (by show (resetHostIsland (stopDma 5 s)).host.stopReason = _; rw [host]; rfl) (by show (resetHostIsland (stopDma 5 s)).host.attached = _; rw [host]; rfl)
          (congrArg Flt.groups flt) noc
        have reset : IslandReset (perstAssert s) := islandReset_keeps island rfl rfl rfl rfl rfl
        have inta := refresh_inta (s := perstAssert s) rfl
        obtain ⟨_, _, _, _, e⟩ := refresh_shape (perstAssert s)
        exact ⟨refresh (perstAssert s), rfl, dmaStop_refresh stopped, islandReset_refresh reset, by rw [e]; rfl, by rw [e]; rfl, inta⟩
      · obtain ⟨u, isu⟩ : ∃ u : State, u = { s with host := { s.host with d3hot := true } } := ⟨_, rfl⟩
        have stops := stopDma_stops (s := u) (by rw [isu]; exact runs) (by rw [isu]; exact groups) (by rw [isu]; exact calm) 6
        refine ⟨refresh (stopDma 6 u), by rw [isu]; rfl, dmaStop_refresh stops.stop, ?_⟩
        obtain ⟨st, line, host⟩ := stops.host
        obtain ⟨_, _, _, _, e⟩ := refresh_shape (stopDma 6 u)
        rw [e, host, isu]
        rfl
      · obtain ⟨u, isu⟩ : ∃ u : State, u = { stopDma 7 s with host := { (stopDma 7 s).host with
            linkUp := false, rate := 0, width := 0, flit := false, inta := false } } := ⟨_, rfl⟩
        have stopped : DmaStop 7 u := by
          rw [isu]
          exact dmaStop_keeps (stop 7).stop rfl rfl (stop 7).stop.2.2.1 rfl rfl
        have ugrp : u.grp 1 = (stopDma 7 s).grp 1 := by rw [isu]; rfl
        have ulogs : Logs 1 u := by
          unfold Logs
          rw [ugrp, (stop 7).noted.action]
          exact logs
        have ugroups : Groups u := by rw [isu]; exact (stop 7).noted.rises
        have down : u.host.linkUp = false ∧ u.host.inta = false := by rw [isu]; exact ⟨rfl, rfl⟩
        have is : pcieLinkDown s = raise 1 5 0 u := by rw [isu]; rfl
        obtain ⟨_, _, line, st, _, e⟩ := Laws.raise_calm (bit := 5) (unit := 0) ugroups (Or.inl ulogs)
        have set : FaultSet 1 5 (raise 1 5 0 u) := Laws.raise_sets ugroups (by decide)
        have still : FaultSet 1 2 (raise 1 5 0 u) := by
          unfold FaultSet
          rw [(raise_notes ugroups (Or.inl ulogs)).status, getLsbD_putBit, show (u.grp 1).status.getLsbD 2 = true from stopped.2.2.2.1]
          rfl
        have after : DmaStop 7 (raise 1 5 0 u) := by
          obtain ⟨h1, h2, h3, -, reqs⟩ := stopped
          refine ⟨?_, ?_, ?_, still, ?_⟩
          · rw [e]; exact h1
          · rw [e]; exact h2
          · rw [e]; exact h3
          · rw [Laws.raise_calm_noc ugroups (Or.inl ulogs)]; exact reqs
        have quiet : (raise 1 5 0 u).host.linkUp = false := by rw [e]; exact down.1
        have inta : (refresh (raise 1 5 0 u)).host.inta = false := by
          rw [refresh_inta quiet, raise_inta ulogs down.1]
          exact down.2
        obtain ⟨_, _, _, _, e'⟩ := refresh_shape (raise 1 5 0 u)
        refine ⟨refresh (raise 1 5 0 u), by rw [← is]; rfl, dmaStop_refresh after, ?_, inta, faultSet_keeps (refresh_groups _) set⟩
        rw [e']
        exact quiet
    · have resets := resetHostIsland_resets vis
      obtain ⟨island, host, -, -⟩ := resets
      have flr : stopDma 4 s = s := if_pos stopped
      have perst : stopDma 5 s = s := if_pos stopped
      refine ⟨⟨refresh (resetHostIsland (stopDma 4 s)), rfl, ?_, ?_⟩, ⟨refresh (perstAssert s), rfl, ?_, ?_, ?_⟩⟩
      · rw [flr]
        exact islandReset_refresh island
      · obtain ⟨_, _, _, _, e⟩ := refresh_shape (resetHostIsland (stopDma 4 s))
        rw [e, flr, host]
        rfl
      · refine islandReset_refresh ?_
        unfold perstAssert
        rw [perst]
        exact islandReset_keeps island rfl rfl rfl rfl rfl
      · obtain ⟨_, _, _, _, e⟩ := refresh_shape (perstAssert s)
        rw [e]
        rfl
      · obtain ⟨_, _, _, _, e⟩ := refresh_shape (perstAssert s)
        rw [e]
        rfl
    · obtain ⟨_, _, _, _, e⟩ := refresh_shape { s with host := { s.host with
        perst := false, linkUp := true, cfgReady := true, rate := rate, width := width, flit := flit } }
      refine ⟨linkCame rate width flit { s with host := { s.host with perst := false } }, rfl, ?_⟩
      unfold linkCame
      rw [e]
      exact ⟨rfl, rfl, rfl, rfl, rfl, rfl, rfl⟩
    · obtain ⟨_, _, _, _, e⟩ := refresh_shape { s with host := { s.host with
        linkUp := true, cfgReady := true, rate := rate, width := width, flit := flit } }
      refine ⟨linkCame rate width flit s, congrArg Host.Outcome.next (if_neg (by rw [released]; decide)), ?_⟩
      unfold linkCame
      rw [e]
      exact ⟨rfl, rfl, rfl, rfl, rfl⟩
    · refine ⟨refreshInt { s with host := { s.host with intDisable := b } }, rfl, ?_⟩
      unfold refreshInt
      dsimp only
      have level : intLevel { s with host := { s.host with intDisable := b } } = intLevel s := rfl
      rw [level]
      split
      · exact ⟨rfl, rfl, fun _ => rfl, rfl⟩
      · next same =>
        refine ⟨rfl, rfl, fun up => ?_, rfl⟩
        simp only [up, Bool.true_and, bne_iff_ne, not_not] at same
        exact same.symm
  · refine congrArg (fun u => (Host.Outcome.next (refresh u) : Host.Outcome State Fault Refusal)) ?_
    show hostReadEnds tag true false data s = _
    unfold hostReadEnds
    dsimp only
    rw [found]
    simp only [alive, use_, Bool.and_false, Bool.false_eq_true, if_false, if_true]
    rfl
  · have groups := groups_of_canon canon
    have noted := poisonNoted (ok := cpl == .sc) groups calm
    obtain ⟨noc, xfes, -, mem, set⟩ := noted
    have ends := hostReadEnds_idle (ok := cpl == .sc) (data := data) found alive use_ free engines rings groups calm
    obtain ⟨gone, mem', xfes', flt⟩ := ends.refreshed
    exact ⟨_, rfl, gone, mem'.trans mem, xfes'.trans xfes, fun sc bad => faultSet_keeps flt (set (by rw [sc]; rfl) bad)⟩
  · have groups := groups_of_canon canon
    have noc : (raise 1 3 0 s).noc = s.noc := Laws.raise_calm_noc groups calm
    have xfes : (raise 1 3 0 s).xfes = s.xfes := Laws.raise_calm_xfes groups calm
    have vis : (raise 1 3 0 s).vis = s.vis := Laws.raise_calm_vis groups calm
    have ends := hostReadEnds_idle (s := raise 1 3 0 s) (tag := tag) (ok := false) (poison := false) (data := []) (by rw [noc]; exact found) alive use_
      (by unfold NoTargets State.qport; rw [noc]; exact free) (by unfold EnginesIdle; rw [xfes]; exact engines)
      (fun v => by unfold State.vi; rw [vis]; exact rings v) (raise_notes groups calm).rises (Or.inl rfl)
    obtain ⟨gone, mem, xfes', flt⟩ := ends.refreshed
    refine ⟨refresh (hostCompletionTimeout tag s), rfl, ?_⟩
    have waits : hostCompletionTimeout tag s = hostReadEnds tag false false [] (raise 1 3 0 s) :=
      if_pos (List.any_eq_true.mpr ⟨r, List.mem_of_find?_eq_some found, List.find?_some found⟩)
    rw [waits]
    exact ⟨faultSet_keeps flt (Laws.raise_sets groups (by decide)), gone, mem.trans (Laws.raise_calm_mem groups calm), xfes'.trans xfes⟩

end Sys2Proof.Proofs
end


section
/-! SUPPORT. The commands of a ring (R560 to R566): the front record taken, a command ended with its entry written, and what each opcode
does. -/
namespace Sys2Proof.Machine
open Sys2Proof Sys2Proof.Safety

/-! ### An entry written to the completion ring -/

/-- A completion entry goes out where the port's tokens let it. -/
theorem hostWriteNow_goes {e q len : Nat} (some_ : (hostWriteNow e q false len s).isSome = true) :
    ∃ ports, hostWriteNow e q false len s = some { s with noc := { s.noc with qports := ports } } := by
  unfold hostWriteNow at *
  rw [if_neg (by decide)] at *
  by_cases held : (!(heldAt s e q).isEmpty) = true
  · rw [if_pos held] at some_
    exact absurd some_ (by decide)
  · rw [if_neg held] at *
    obtain ⟨t, took⟩ := Option.isSome_iff_exists.mp some_
    obtain ⟨ports, is⟩ := takeTokens_shape took
    exact ⟨ports, by rw [took, is]⟩

theorem noteHost_shape (unit ctx iova : Nat) (write : Bool) (s : State) : ∃ xlt, noteHost unit ctx iova write s = { s with xlt := xlt } := by
  unfold noteHost
  refine Laws.ite_cases (P := fun t => ∃ xlt, t = { s with xlt := xlt }) (fun _ => ⟨s.xlt, rfl⟩) fun _ => ?_
  cases l2Find s true ctx iova with
  | none => exact ⟨s.xlt, rfl⟩
  | some e =>
    obtain ⟨xlt, filled⟩ := bufFill_shape unit e { s with xlt := { s.xlt with l2Hits := satInc s.xlt.l2Hits } }
    exact ⟨xlt, filled⟩

/-- Changes of interfaces leave what opens the way of a completion entry. -/
theorem entryOpen_keeps {v p a : Nat} {y : Vi} (h : EntryOpen v p a s) (wf : Tab.wf {} s.vis = true)
    (free : cplFree y = cplFree (s.vi v)) (resume : y.resume = (s.vi v).resume) (base : y.cplBase = (s.vi v).cplBase) (tail : y.cplTail = (s.vi v).cplTail) :
    EntryOpen v p a (s.setVi v y) := by
  obtain ⟨h1, h2, e, ring, run, now, q, w, iova, find, perm, spot⟩ := h
  have is : (s.setVi v y).vi v = y := State.vi_setVi wf v y
  refine ⟨by rw [is, free]; exact h1, by rw [is, resume]; exact h2, e, ring, run, ?_, q, w, iova, by rw [is, base, tail]; exact find, perm, spot⟩
  obtain ⟨ports, goes⟩ := hostWriteNow_goes now
  unfold hostWriteNow at now ⊢
  rw [if_neg (by decide)] at now ⊢
  have held : heldAt (s.setVi v y) e (((s.setVi v y).xfe e).owner.getD 0) = heldAt s e ((s.xfe e).owner.getD 0) := rfl
  rw [held]
  split
  · next full => rw [if_pos full] at now; exact now
  · next full =>
    rw [if_neg full] at now
    unfold takeTokens at now ⊢
    dsimp only at now ⊢
    have tokens : tokensNow ((s.setVi v y).qport e (((s.setVi v y).xfe e).owner.getD 0)) (s.setVi v y).clk.now =
      tokensNow (s.qport e ((s.xfe e).owner.getD 0)) s.clk.now := rfl
    rw [tokens]
    split
    · rfl
    · next few => rw [if_neg few] at now; exact now

/-- What the delivery of a command's only held entry leaves. -/
structure EntryWritten (v a : Nat) (entry : CplEntry) (s t : State) : Prop where
  vi : ∃ tail phase pend, t.vi v = { s.vi v with held := [], cplTail := tail, cplPhase := phase, intPend := pend }
  sent : Emit.hostWrite (hostTlp s) a (entryBytes entry (s.vi v).cplPhase) false ∈ t.out

/-- A held entry of an attached interface is written where the way is open. -/
theorem deliverHeld_writes {v p a : Nat} {entry : CplEntry} (wf : Tab.wf {} s.vis = true) (part : s.partOfVi v = some p) (held : (s.vi v).held = [entry])
    (attached : (s.vi v).state = .attached) (runs : s.host.dmaStopped = false) (way : EntryOpen v p a s) :
    EntryWritten v a entry s (deliverHeld v s) := by
  obtain ⟨free, resume, e, ring, inService, now, q, w, iova, find, perm, spot⟩ := way
  obtain ⟨ports, goes⟩ := hostWriteNow_goes now
  obtain ⟨xlt, noted⟩ := noteHost_shape e v iova true { s with noc := { s.noc with qports := ports } }
  have tlp : hostTlp { s with noc := { s.noc with qports := ports } } = hostTlp s := rfl
  unfold deliverHeld
  rw [held]
  show EntryWritten v a entry s (refresh (deliverHeldN 1 v s))
  unfold deliverHeldN
  dsimp only
  simp only [held, part, Option.bind_some, ring]
  rw [if_neg (by simp [attached, runs, resume, inService, free])]
  simp only [find, perm, spot, goes, Bool.not_true, Bool.false_eq_true, if_false]
  rw [noted, tlp]
  unfold deliverHeldN
  refine ⟨⟨(s.vi v).cplTail + 1 |>.mod (s.vi v).cplSize, if ((s.vi v).cplTail + 1) % (s.vi v).cplSize = 0 then !(s.vi v).cplPhase else (s.vi v).cplPhase,
    (s.vi v).intPend ||| 1#5, ?_⟩, refresh_sent ?_⟩
  · rw [refresh_vi]
    exact State.vi_setVi wf v _
  · exact List.mem_cons_self

/-! ### A command that ends -/

/-- The end of the newest command: it leaves the open ones, and its entry is written. -/
theorem endCommand_ends {v p a tag : Nat} {old : List Cmd} {c : Cmd} (wf : Tab.wf {} s.vis = true) (part : s.partOfVi v = some p)
    (cmds : (s.vi v).cmds = old ++ [c]) (new : c.tag = tag) (older : ∀ d ∈ old, d.tag ≠ tag) (held : (s.vi v).held = []) (barrier : (s.vi v).barrier = false)
    (attached : (s.vi v).state = .attached) (runs : s.host.dmaStopped = false) (way : EntryOpen v p a s) (st : Status) (detail : Nat) :
    let t := endCommand v tag st detail s
    (t.vi v).cmds = old ∧ (t.vi v).read = (s.vi v).read ∧
      Emit.hostWrite (hostTlp s) a (entryBytes { status := st, opcode := c.opcode, cmdId := c.cmdId, step := c.step, detail := BitVec.ofNat 32 detail }
        (s.vi v).cplPhase) false ∈ t.out := by
  have found : (s.vi v).cmds.find? (fun c => c.tag == tag) = some c := by
    rw [cmds, List.find?_append, List.find?_eq_none.mpr (fun d mem => by simp [older d mem])]
    simp [new]
  have left : (s.vi v).cmds.filter (fun c => c.tag != tag) = old := by
    rw [cmds, List.filter_append, List.filter_eq_self.mpr (fun d mem => by simp [older d mem])]
    simp [new]
  generalize entry : ({ status := st, opcode := c.opcode, cmdId := c.cmdId, step := c.step, detail := BitVec.ofNat 32 detail } : CplEntry) = e
  have holds : holdEntry v tag st detail s = s.setVi v { s.vi v with cmds := old, held := [e] } := by
    unfold holdEntry
    dsimp only
    rw [found]
    simp only [barrier, left, held, List.nil_append, entry]
  dsimp only
  unfold endCommand
  rw [holds]
  have is : (s.setVi v { s.vi v with cmds := old, held := [e] }).vi v = { s.vi v with cmds := old, held := [e] } := State.vi_setVi wf v _
  obtain ⟨⟨tail, phase, pend, vi⟩, sent⟩ := deliverHeld_writes (entry := e) (s := s.setVi v { s.vi v with cmds := old, held := [e] }) (Tab.wf_set wf v _) part
    (by rw [is]) (by rw [is]; exact attached) runs (entryOpen_keeps way wf rfl rfl rfl rfl)
  rw [is] at vi sent
  refine ⟨?_, ?_, sent⟩
  · rw [vi]
  · rw [vi]

/-! ### The front record (R563 to R566) -/

/-- The command that a record opens. -/
def recordCmd (p : Nat) (r : BitVec 512) (tag : Nat) (s : State) : Cmd :=
  { opcode := cmdOpcode r, cmdId := BitVec.ofNat 32 (rfld r 4 0 32), step := (s.part p).step, tag := tag }

/-- The interface once its front record is taken. -/
def takenVi (p : Nat) (r : BitVec 512) (rest : List (BitVec 512)) (s : State) (x : Vi) : Vi :=
  let h := if x.cmdHead + 1 = x.cmdSize then 0 else x.cmdHead + 1
  { x with read := rest, cmdHead := h, cmdPhase := if h = 0 then !x.cmdPhase else x.cmdPhase,
           cmds := x.cmds ++ [recordCmd p r x.nextTag s], nextTag := x.nextTag + 1 }

/-- What holds of an interface whose front record can be delivered. -/
theorem canDeliver_iff {p v : Nat} (can : canDeliver s p v = true) :
    (s.vi v).state = .attached ∧ s.host.dmaStopped = false ∧ (s.vi v).held = [] ∧ (s.vi v).barrier = false := by
  unfold canDeliver at can
  dsimp only at can
  simp only [Bool.and_eq_true, beq_iff_eq, Bool.not_eq_true', List.isEmpty_iff] at can
  obtain ⟨⟨⟨⟨⟨⟨⟨attached, -⟩, runs⟩, held⟩, barrier⟩, -⟩, -⟩, -⟩ := can
  exact ⟨attached, runs, held, barrier⟩

/-- A fetch slot's single delivery. -/
theorem cmdDeliver_runs {op v p : Nat} {r : BitVec 512} {rest : List (BitVec 512)} (part : s.partOfVi v = some p) (read : (s.vi v).read = r :: rest)
    (code : cmdOpcode r = op) (can : canDeliver s p v = true) : cmdDeliver op v s = refresh (deliverRecord p v s) := by
  unfold cmdDeliver
  rw [part, read]
  exact if_pos ⟨code, can⟩

/-- An unsealed record of a VI without a session, with nothing reserved set, takes effect as its opcode says. -/
theorem deliverRecord_runs {op v p a : Nat} {r : BitVec 512} {rest : List (BitVec 512)} (h : Deliverable op v p a r rest s) :
    deliverRecord p v s = runCommand p v (s.vi v).nextTag r (s.setVi v (takenVi p r rest s (s.vi v))) := by
  obtain ⟨-, read, -, plain, closed, ok, -, -, -⟩ := h
  have still : (s.setVi v (takenVi p r rest s (s.vi v))).sealOpen v = false := closed
  unfold deliverRecord
  dsimp only
  rw [read]
  simp only [plain, Bool.false_eq_true, if_false]
  unfold takenVi recordCmd at still ⊢
  dsimp only at still ⊢
  rw [still, if_neg (by decide)]
  simp only [ok, if_true]

/-- A sealed record of a VI without a session ends DENIED. -/
theorem deliverRecord_denied {v p : Nat} {r : BitVec 512} {rest : List (BitVec 512)} (read : (s.vi v).read = r :: rest) (sealed_ : cmdSealed r = true)
    (closed : s.sealOpen v = false) (clean : (s.grp 4).inject = 0) :
    deliverRecord p v s = endCommand v (s.vi v).nextTag .denied 0 (s.setVi v (takenVi p r rest s (s.vi v))) := by
  have still : (s.setVi v (takenVi p r rest s (s.vi v))).sealOpen v = false := closed
  have check : slotCheck v (s.setVi v (takenVi p r rest s (s.vi v))) = (true, s.setVi v (takenVi p r rest s (s.vi v))) := by
    unfold slotCheck
    rw [checkEcc_clean (s := s.setVi v (takenVi p r rest s (s.vi v))) clean]
    rfl
  unfold deliverRecord
  dsimp only
  rw [read]
  unfold takenVi recordCmd at still check ⊢
  dsimp only at still check ⊢
  simp only [sealed_, if_true]
  rw [check]
  dsimp only
  rw [still, if_pos (by decide)]

/-- A command of the front record that ends with its delivery. -/
theorem taken_ends {v p a : Nat} {r : BitVec 512} {rest : List (BitVec 512)} (wf : Tab.wf {} s.vis = true) (part : s.partOfVi v = some p)
    (can : canDeliver s p v = true) (way : EntryOpen v p a s) (fresh : ∀ c ∈ (s.vi v).cmds, c.tag ≠ (s.vi v).nextTag) (st : Status) (detail : Nat) :
    let t := refresh (endCommand v (s.vi v).nextTag st detail (s.setVi v (takenVi p r rest s (s.vi v))))
    (t.vi v).read = rest ∧ CommandEnded v p a r st detail s t := by
  obtain ⟨attached, runs, held, barrier⟩ := canDeliver_iff can
  have is : (s.setVi v (takenVi p r rest s (s.vi v))).vi v = takenVi p r rest s (s.vi v) := State.vi_setVi wf v _
  obtain ⟨cmds, read, sent⟩ := endCommand_ends (c := recordCmd p r (s.vi v).nextTag s) (s := s.setVi v (takenVi p r rest s (s.vi v))) (Tab.wf_set wf v _) part
    (by rw [is]; rfl) rfl fresh (by rw [is]; exact held) (by rw [is]; exact barrier) (by rw [is]; exact attached) runs
    (entryOpen_keeps way wf rfl rfl rfl rfl) st detail
  rw [is] at read sent
  dsimp only
  rw [refresh_vi]
  refine ⟨read, ?_, refresh_sent sent⟩
  rw [refresh_vi]
  exact cmds

end Sys2Proof.Machine
end


section
/-! SUPPORT. Ring reads (R565 to R567): what a returned request does to the ring that waits for it, and the records that are new. -/
namespace Sys2Proof.Machine
open Sys2Proof Sys2Proof.Safety

/-! ### Requests closed with their counters -/

theorem satInc_ne_zero (x : BitVec 64) : satInc x ≠ 0 := by
  unfold satInc
  split
  · next full =>
    rw [full]
    decide
  · next below =>
    intro zero
    apply below
    apply BitVec.eq_of_toNat_eq
    have sum : (x + 1).toNat = 0 := by rw [zero]; rfl
    have one : (1 : BitVec 64).toNat = 1 := rfl
    have small := x.isLt
    rw [BitVec.toNat_add, one] at sum
    rw [BitVec.toNat_allOnes]
    omega

/-- Two tables of network ports with the same latency targets and reservation bounds. -/
def SameTargets (a b : Tab QosPort) : Prop :=
  ∀ k, (Tab.get {} a k).target = (Tab.get {} b k).target ∧ (Tab.get {} a k).rsvBound = (Tab.get {} b k).rsvBound

/-- The counters of a response that is no miss: no port's target changes. -/
theorem completeStats_counts {r : Req} (free : NoTargets r s) :
    ∃ ports, completeStats r s = { s with noc := { s.noc with qports := ports } } ∧ SameTargets ports s.noc.qports := by
  obtain ⟨target, bound⟩ := free
  unfold completeStats
  dsimp only
  rw [if_neg (by simp [bound]), if_neg (by simp [target])]
  refine ⟨_, rfl, fun k => ?_⟩
  unfold Tab.set
  rw [if_neg fun same => satInc_ne_zero _ (congrArg QosPort.reqs same)]
  by_cases here : k = portOf r.who * 64 + r.part
  · subst here
    rw [Tab.get_put_same]
    exact ⟨rfl, rfl⟩
  · rw [Tab.get_put_other ({} : QosPort) here]
    exact ⟨rfl, rfl⟩

/-- The open requests with the given tags are answered without a miss. -/
def TagsQuiet (tags : List Nat) (s : State) : Prop := ∀ r ∈ s.noc.reqs, r.tag ∈ tags → NoTargets r s

theorem noTargets_of_same {r : Req} (same : SameTargets t.noc.qports s.noc.qports) (free : NoTargets r s) : NoTargets r t := by
  obtain ⟨target, bound⟩ := free
  obtain ⟨h1, h2⟩ := same (portOf r.who * 64 + r.part)
  exact ⟨h1.trans target, h2.trans bound⟩

/-- Closing a request leaves the others as they were, and changes only the network block. -/
theorem closeReq_quiet {tags : List Nat} {k : Nat} (quiet : TagsQuiet tags s) (mem : k ∈ tags) :
    ∃ noc, closeReq k s = { s with noc := noc } ∧ TagsQuiet tags (closeReq k s) := by
  unfold closeReq
  split
  · next r found =>
    have free : NoTargets r { s with noc := { s.noc with reqs := s.noc.reqs.filter (fun q => q.tag != k) } } :=
      quiet r (List.mem_of_find?_eq_some found) (by
        have := List.find?_some found
        simp only [beq_iff_eq] at this
        rw [this]
        exact mem)
    obtain ⟨ports, is, same⟩ := completeStats_counts free
    rw [is]
    refine ⟨_, rfl, fun q inside tag => ?_⟩
    exact noTargets_of_same (s := s) same (quiet q (List.mem_of_mem_filter inside) tag)
  · exact ⟨s.noc, rfl, quiet⟩

/-! ### A ring read that returns -/

/-- The interface with a ring read of which some requests have returned, with their records, and some are out. -/
def readingVi (x : Vi) (back : List (Nat × BitVec 512)) (out : List Nat) : Vi :=
  { x with reading := some { head := x.cmdHead, reqs := back.map (fun d : Nat × BitVec 512 => (d.1, some d.2)) ++ out.map (fun k => (k, none)) } }

/-- The interface with the records of a ring read that returned. -/
def readVi (x : Vi) (words : List (BitVec 512)) : Vi :=
  { x with reading := none, read := newRecords x.cmdPhase (words.take (readCount x)) }

/-- One request of a ring read returns with its record: the read goes on waiting for the others, or its new records are held. -/
theorem ringReturned_back {v p e k : Nat} {w : BitVec 512} {x : Vi} {back : List (Nat × BitVec 512)} {out tags : List Nat}
    (quiet : TagsQuiet tags s) (mem : k ∈ tags) (distinct : (back.map Prod.fst ++ k :: out).Nodup) (is : s.vi v = readingVi x back (k :: out))
    (attached : x.state = .attached) (part : s.partOfVi v = some p) (ring : ringEngine s p = some e) (inService : (s.xfe e).run ≠ .fenced) :
    ∃ noc, ringReturned v k true false w s = { s with noc := noc }.setVi v
        (if out = [] then readVi x ((back ++ [(k, w)]).map Prod.snd) else readingVi x (back ++ [(k, w)]) out) ∧ TagsQuiet tags { s with noc := noc } := by
  obtain ⟨noc, closed, quiet'⟩ := closeReq_quiet quiet mem
  rw [closed] at quiet'
  refine ⟨noc, ?_, quiet'⟩
  have here : ({ s with noc := noc } : State).vi v = readingVi x back (k :: out) := is
  have apart : ∀ d ∈ back, d.1 ≠ k := fun d inside same => by
    rw [List.nodup_append] at distinct
    exact distinct.2.2 d.1 (List.mem_map_of_mem inside) k List.mem_cons_self same
  have others : ∀ d ∈ out, d ≠ k := fun d inside same => by
    rw [List.nodup_append] at distinct
    exact (List.nodup_cons.mp distinct.2.1).1 (same ▸ inside)
  unfold ringReturned
  dsimp only
  rw [closed, here]
  unfold readingVi
  dsimp only
  rw [if_neg (by simp), if_neg (by decide)]
  have answered : (back.map (fun d : Nat × BitVec 512 => (d.1, some d.2)) ++ (k :: out).map (fun k => (k, none))).map
      (fun q : Nat × Option (BitVec 512) => if q.1 == k then (k, some w) else q) = (back ++ [(k, w)]).map (fun d : Nat × BitVec 512 => (d.1, some d.2)) ++ out.map (fun k => (k, none)) := by
    have first : (back.map (fun d : Nat × BitVec 512 => (d.1, some d.2))).map (fun q : Nat × Option (BitVec 512) => if q.1 == k then (k, some w) else q) =
        back.map (fun d : Nat × BitVec 512 => (d.1, some d.2)) := by
      rw [List.map_map]
      exact List.map_congr_left fun d inside => by simp [apart d inside]
    have last : (out.map (fun k => (k, none))).map (fun q : Nat × Option (BitVec 512) => if q.1 == k then (k, some w) else q) =
        out.map (fun k => (k, none)) := by
      rw [List.map_map]
      exact List.map_congr_left fun d inside => by simp [others d inside]
    rw [List.map_append, first, List.map_cons, List.map_cons, last]
    simp
  rw [answered]
  cases out with
  | cons j out =>
    rw [if_pos (by simp), if_neg (by simp)]
    rfl
  | nil =>
    rw [if_neg (by simp), if_pos rfl]
    unfold ringWhole readVi
    dsimp only
    have here' : ({ s with noc := noc } : State).vi v = readingVi x back [k] := is
    have ring' : (({ s with noc := noc } : State).partOfVi v).bind (fun p => ringEngine { s with noc := noc } p) = some e := by
      show (s.partOfVi v).bind (fun p => ringEngine s p) = some e
      rw [part]
      exact ring
    have serves : ((({ s with noc := noc } : State).xfe e).run == XRun.fenced) = false := by
      rw [beq_eq_false_iff_ne]
      exact inService
    rw [here', ring']
    simp only [serves]
    unfold readingVi
    simp [attached, List.filterMap_append, List.filterMap_map, readCount, cplFree]

/-- All requests of a ring read return in ring order: the records that are new are held for the next fetch slot. -/
theorem ringReturned_all {v p e : Nat} {x : Vi} {tags : List Nat} (qs back : List (Nat × BitVec 512)) (some_ : qs ≠ []) (s : State)
    (wf : Tab.wf {} s.vis = true) (quiet : TagsQuiet tags s) (inside : ∀ q ∈ qs, q.1 ∈ tags) (distinct : (back.map Prod.fst ++ qs.map Prod.fst).Nodup)
    (is : s.vi v = readingVi x back (qs.map Prod.fst)) (attached : x.state = .attached) (part : s.partOfVi v = some p) (ring : ringEngine s p = some e)
    (inService : (s.xfe e).run ≠ .fenced) :
    ∃ noc vis, qs.foldl (fun s q => ringReturned v q.1 true false q.2 s) s = { s with noc := noc, vis := vis } ∧
      Tab.get {} vis v = readVi x ((back ++ qs).map Prod.snd) ∧ ∀ u, u ≠ v → Tab.get {} vis u = s.vi u := by
  induction qs generalizing s back with
  | nil => exact absurd rfl some_
  | cons q qs ih =>
    obtain ⟨noc, one, quiet'⟩ := ringReturned_back (w := q.2) quiet (inside q List.mem_cons_self) distinct is attached part ring inService
    rw [List.foldl_cons, one]
    cases qs with
    | nil =>
      rw [List.map_nil, if_pos rfl]
      exact ⟨noc, Tab.set {} s.vis v (readVi x ((back ++ [(q.1, q.2)]).map Prod.snd)), rfl, Tab.get_set_same wf v _, fun u ne => Tab.get_set_other wf ne _⟩
    | cons q' qs =>
      rw [if_neg (by simp)]
      have back' : (back ++ [(q.1, q.2)]).map Prod.fst ++ (q' :: qs).map Prod.fst = back.map Prod.fst ++ (q :: q' :: qs).map Prod.fst := by simp
      obtain ⟨noc', vis, rest, got, other⟩ := ih (back ++ [(q.1, q.2)]) (by simp) (({ s with noc := noc } : State).setVi v (readingVi x (back ++ [(q.1, q.2)]) ((q' :: qs).map Prod.fst)))
        (Tab.wf_set wf v _) quiet' (fun q mem => inside q (List.mem_cons_of_mem _ mem)) (by rw [back']; exact distinct)
        (State.vi_setVi (s := { s with noc := noc }) wf v _) part ring inService
      refine ⟨noc', vis, rest, ?_, fun u ne => (other u ne).trans (State.vi_setVi_other wf ne _)⟩
      rw [got]
      simp

/-- A request of a ring read that no longer waits closes, and does no more. -/
theorem ringReturned_idle {v k : Nat} {ok poison : Bool} {w : BitVec 512} (none_ : ((closeReq k s).vi v).reading = none) :
    ringReturned v k ok poison w s = closeReq k s := by
  unfold ringReturned
  dsimp only
  rw [none_]

end Sys2Proof.Machine
end


section
/-! SUPPORT. The fetch of a ring's records (R565): the requests that go to the host, one for each record, or are held at their port. -/
namespace Sys2Proof.Machine
open Sys2Proof Sys2Proof.Safety

/-! ### Requests of the host that go out or are held -/

/-- A request without the note that it has gone to the host. -/
def ungone (r : Req) : Req := { r with gone := false }

theorem heldAt_ungone (h : t.noc.reqs.map ungone = s.noc.reqs.map ungone) (port part : Nat) : (heldAt t port part).length = (heldAt s port part).length := by
  have count : ∀ l : List Req, (l.filter (fun r => r.held && r.part == part && portOf r.who == port)).length =
      ((l.map ungone).filter (fun r => r.held && r.part == part && portOf r.who == port)).length := fun l => by
    rw [List.filter_map, List.length_map]
    rfl
  unfold heldAt
  rw [count t.noc.reqs, count s.noc.reqs, h]

/-- What one request to the host leaves: its tag, its place among the open ones, and nothing else but counters and what is sent. -/
structure Asked (r : Req) (s t : State) : Prop where
  tag : t.noc.nextTag = s.noc.nextTag + 1
  reqs : ∃ held, t.noc.reqs.map ungone = s.noc.reqs.map ungone ++ [ungone (sentReq r held s)]
  vis : t.vis = s.vis
  parts : t.parts = s.parts
  mem : t.mem = s.mem
  groups : Groups t
  safe : Calm 9 t ∨ 64 ≤ (heldAt t (portOf r.who) r.part).length

/-- A request of no schedule enters, or is held; the fault of a full port is noted once. -/
theorem issueReq_asks {r : Req} (new : r.held = false) (plain : r.sched = false) (groups : Groups s)
    (safe : Calm 9 s ∨ 64 ≤ (heldAt s (portOf r.who) r.part).length) : (issueReq r s).1 = s.noc.nextTag ∧ Asked r s (issueReq r s).2 := by
  have free : sentReq r false s = { r with tag := s.noc.nextTag, inject := s.clk.now, step := if r.sched then (s.part r.part).step.setWidth 32 else 0 } := by
    unfold sentReq
    rw [← new]
  unfold issueReq
  dsimp only
  rw [if_neg (by rw [plain]; decide)]
  cases got : (if (heldAt s (portOf r.who) r.part).isEmpty = true then takeTokens (portOf r.who) r.part (reqFlits r.write r.len) s else none) with
  | some t =>
    have empty : (heldAt s (portOf r.who) r.part).isEmpty = true := by
      by_contra some_
      rw [if_neg some_] at got
      cases got
    rw [if_pos empty] at got
    obtain ⟨ports, is⟩ := takeTokens_shape got
    rw [is]
    refine ⟨rfl, rfl, ⟨false, by rw [free]; exact List.map_append⟩, rfl, rfl, rfl, groups, .inl ?_⟩
    refine safe.resolve_right fun full => ?_
    rw [List.isEmpty_iff.mp empty] at full
    exact absurd full (by decide)
  | none =>
    dsimp only
    generalize put : ({ s with noc := { s.noc with nextTag := s.noc.nextTag + 1, reqs := s.noc.reqs ++
      [{ r with tag := s.noc.nextTag, held := true, inject := s.clk.now, step := if r.sched = true then (s.part r.part).step.setWidth 32 else 0 }] } } : State) = u
    have reqs : u.noc.reqs = s.noc.reqs ++ [sentReq r true s] := by rw [← put]; rfl
    have tag : u.noc.nextTag = s.noc.nextTag + 1 := by rw [← put]
    have flt : u.flt = s.flt := by rw [← put]
    have held : (heldAt u (portOf r.who) r.part).length = (heldAt s (portOf r.who) r.part).length + 1 := by
      unfold heldAt
      rw [reqs, List.filter_append, List.length_append]
      simp [sentReq]
    have ugroups : Groups u := groups_of_flt flt groups
    refine ⟨rfl, ?_⟩
    by_cases last : (heldAt s (portOf r.who) r.part).length = 63
    · rw [if_pos last]
      have calm : Calm 9 u := calm_keeps flt (safe.resolve_right (by omega))
      have noc : (raise 9 3 (portOf r.who) u).noc = u.noc := Laws.raise_calm_noc ugroups calm
      refine ⟨by rw [noc, tag], ⟨true, by rw [noc, reqs]; exact List.map_append⟩, (Laws.raise_calm_vis ugroups calm).trans (by rw [← put]),
        (Laws.raise_calm_parts ugroups calm).trans (by rw [← put]), (Laws.raise_calm_mem ugroups calm).trans (by rw [← put]), (raise_notes ugroups calm).rises, .inr ?_⟩
      unfold heldAt at held last ⊢
      rw [noc]
      omega
    · rw [if_neg last]
      refine ⟨tag, ⟨true, by rw [reqs]; exact List.map_append⟩, by rw [← put], by rw [← put], by rw [← put], ugroups, ?_⟩
      exact safe.imp (calm_keeps flt) fun full => by omega

/-- A read of the host: entered or held, and sent to the host where it is not held. -/
theorem issueHostRead_asks {r : Req} (new : r.held = false) (plain : r.sched = false) (host : r.host = true) (read : r.write = false) (groups : Groups s)
    (safe : Calm 9 s ∨ 64 ≤ (heldAt s (portOf r.who) r.part).length) : (issueHostRead r s).1 = s.noc.nextTag ∧ Asked r s (issueHostRead r s).2 := by
  have same : ({ r with host := true, write := false } : Req) = r := by rw [← host, ← read]
  obtain ⟨tag, asked⟩ := issueReq_asks new plain groups safe
  unfold issueHostRead
  dsimp only
  rw [same]
  split
  · next q found =>
    split
    · exact ⟨tag, asked⟩
    · refine ⟨tag, asked.tag, ?_, asked.vis, asked.parts, asked.mem, asked.groups, ?_⟩
      all_goals
        have kept : (hostReadGo q (issueReq r s).2).noc.reqs.map ungone = (issueReq r s).2.noc.reqs.map ungone := by
          show ((issueReq r s).2.noc.reqs.map _).map ungone = _
          rw [List.map_map]
          refine List.map_congr_left fun x _ => ?_
          simp only [Function.comp_apply]
          split <;> rfl
      · rw [kept]
        exact asked.reqs
      · refine asked.safe.imp (fun calm => calm) fun full => ?_
        rw [heldAt_ungone kept]
        exact full
  · exact ⟨tag, asked⟩

/-! ### A ring read (R565) -/

/-- The request of one record of a ring. -/
def ringReq (e v p h iova a : Nat) : Req :=
  { tag := 0, who := .xfe e, write := false, host := true, addr := a, len := 64, ctx := v, part := p, sched := false, use := .ring v, iova := iova,
    hwt := some h }

/-- One record asked for. -/
def askRecord (e v p : Nat) (acc : List (Nat × Option (BitVec 512)) × State) (q : Nat × Nat × XSpot) : List (Nat × Option (BitVec 512)) × State :=
  match q.2.2 with
  | .host h iova a =>
    let i := issueHostRead (ringReq e v p h iova a) (noteHost e v iova false acc.2)
    (acc.1 ++ [(i.1, none)], i.2)
  | .dev _ => acc

/-- The requests of a ring read, in the order of its records. -/
structure Asks (v : Nat) (ps : List (Nat × Nat × XSpot)) (s : State) (r : List (Nat × Option (BitVec 512)) × State) : Prop where
  tags : r.1 = (List.range ps.length).map (fun i => (s.noc.nextTag + i, none))
  reqs : ∀ i h iova a b c, ps[i]? = some (b, c, .host h iova a) → ∃ q ∈ r.2.noc.reqs.map ungone, q.tag = s.noc.nextTag + i ∧ q.host = true ∧ q.write = false ∧
    q.addr = a ∧ q.len = 64 ∧ q.use = .ring v
  next : r.2.noc.nextTag = s.noc.nextTag + ps.length
  vis : r.2.vis = s.vis
  parts : r.2.parts = s.parts
  mem : r.2.mem = s.mem

/-- Every record of a ring read that goes to the host is asked for under its own tag. -/
theorem askRecords {e v p : Nat} (ps : List (Nat × Nat × XSpot)) (all : ∀ q ∈ ps, ∃ h iova a, q.2.2 = .host h iova a) (groups : Groups s) (calm : Calm 9 s) :
    let r := ps.foldl (askRecord e v p) ([], s)
    Asks v ps s r ∧ Groups r.2 ∧ (Calm 9 r.2 ∨ 64 ≤ (heldAt r.2 e p).length) := by
  induction ps using List.reverseRecOn with
  | nil =>
    exact ⟨⟨rfl, fun i h iova a b c at_ => by simp at at_, rfl, rfl, rfl, rfl⟩, groups, .inl calm⟩
  | append_singleton ps q ih =>
    obtain ⟨asks, rgroups, safe⟩ := ih fun q mem => all q (List.mem_append_left _ mem)
    obtain ⟨h, iova, a, goes⟩ := all q (List.mem_append_right _ List.mem_cons_self)
    dsimp only
    rw [List.foldl_append, List.foldl_cons, List.foldl_nil]
    generalize ps.foldl (askRecord e v p) ([], s) = r at asks rgroups safe ⊢
    obtain ⟨xlt, noted⟩ := noteHost_shape e v iova false r.2
    obtain ⟨tag, asked⟩ := issueHostRead_asks (r := ringReq e v p h iova a) (s := { r.2 with xlt := xlt }) rfl rfl rfl rfl rgroups safe
    have step : askRecord e v p r q = (r.1 ++ [((issueHostRead (ringReq e v p h iova a) { r.2 with xlt := xlt }).1, none)],
        (issueHostRead (ringReq e v p h iova a) { r.2 with xlt := xlt }).2) := by
      unfold askRecord
      rw [goes]
      dsimp only
      rw [noted]
    rw [step, tag]
    generalize (issueHostRead (ringReq e v p h iova a) { r.2 with xlt := xlt }).2 = t at asked
    obtain ⟨held, reqs⟩ := asked.reqs
    refine ⟨⟨?_, fun i h' iova' a' b c at_ => ?_, ?_, asked.vis.trans asks.vis, asked.parts.trans asks.parts, asked.mem.trans asks.mem⟩, asked.groups, asked.safe⟩
    · rw [asks.tags, List.length_append, List.length_singleton, List.range_succ, List.map_append]
      simp only [List.map_cons, List.map_nil]
      rw [asks.next]
    · show ∃ q ∈ t.noc.reqs.map ungone, _
      rw [reqs]
      by_cases earlier : i < ps.length
      · rw [List.getElem?_append_left earlier] at at_
        obtain ⟨q', mem, is⟩ := asks.reqs i h' iova' a' b c at_
        exact ⟨q', List.mem_append_left _ mem, is⟩
      · rw [List.getElem?_append_right (by omega)] at at_
        have last : i = ps.length := by
          have := (List.getElem?_eq_some_iff.mp at_).1
          simp only [List.length_singleton] at this
          omega
        subst last
        simp only [Nat.sub_self, List.getElem?_cons_zero, Option.some.injEq] at at_
        rw [at_] at goes
        simp only [XSpot.host.injEq] at goes
        obtain ⟨rfl, rfl, rfl⟩ := goes
        refine ⟨_, List.mem_append_right _ List.mem_cons_self, ?_, rfl, rfl, rfl, rfl, rfl⟩
        exact asks.next
    · show t.noc.nextTag = _
      rw [asked.tag]
      show r.2.noc.nextTag + 1 = _
      rw [asks.next, List.length_append, List.length_singleton]
      omega

/-- Where each piece of an access lies does not depend on the virtual interfaces. -/
theorem xPlan_vis (vis : Tab Vi) (e ctx : Nat) (write : Bool) (l : List (Nat × Nat)) : xPlan { s with vis := vis } e ctx write l = xPlan s e ctx write l := by
  induction l with
  | nil => rfl
  | cons q l ih =>
    have spot : ∀ a, xSpot { s with vis := vis } e ctx a write = xSpot s e ctx a write := fun _ => rfl
    unfold xPlan
    rw [spot, ih]

/-- An access that can go out lies in one place. -/
theorem xSpot_go {e ctx dva : Nat} {write : Bool} {ps : List (Nat × Nat × XSpot)} (go : xSpot s e ctx dva write = .go ps) : ∃ sp, ps = [(dva, 0, sp)] := by
  unfold xSpot at go
  split at go
  · split at go
    · cases go
    · split at go
      · cases go
      · split at go
        · cases go
          exact ⟨_, rfl⟩
        · cases go
  · split at go
    · cases go
      exact ⟨_, rfl⟩
    · cases go

theorem xPlan_length {e ctx : Nat} {write : Bool} {l : List (Nat × Nat)} {ps : List (Nat × Nat × XSpot)} (go : xPlan s e ctx write l = .go ps) :
    ps.length = l.length := by
  induction l generalizing ps with
  | nil =>
    cases go
    rfl
  | cons q l ih =>
    unfold xPlan at go
    split at go
    · split at go
      · next rest planned =>
        cases go
        simp [ih planned]
      · next other => exact absurd go (other ps)
    · next other =>
      obtain ⟨sp, is⟩ := xSpot_go go
      exact absurd (go.trans (congrArg XPlan.go is)) (other _ _ _ _)

/-- The pieces of the next records to read. -/
def recordPieces (x : Vi) : List (Nat × Nat) :=
  (List.range (readCount x)).map (fun i => ((x.cmdBase.toNat + x.cmdHead * 64) % 2 ^ 48 + i * 64, 64))

/-- The interface with a ring read out. -/
def askingVi (reqs : List (Nat × Option (BitVec 512))) (x : Vi) : Vi :=
  { x with reading := some { head := x.cmdHead, reqs := reqs }, fetchWait := false }

/-- A ring read that can go out asks for as many records as may be read. -/
theorem ringRead_asks {e v p : Nat} {ps : List (Nat × Nat × XSpot)} (ring : ringEngine s p = some e) (attached : (s.vi v).state = .attached)
    (runs : s.host.dmaStopped = false) (inService : (s.xfe e).run ≠ .fenced) (none_ : (s.vi v).reading = none) (some_ : readCount (s.vi v) ≠ 0)
    (plan : xPlan s e v false (recordPieces (s.vi v)) = .go ps) (tags : hostTagsFree s p (readCount (s.vi v)) = true)
    (few : (s.noc.reqs.filter (fun r => r.host && r.who == .xfe e)).length + readCount (s.vi v) ≤ 128) (room : holdFull s e p (readCount (s.vi v)) = false) :
    let r := ps.foldl (askRecord e v p) ([], s)
    ringRead p v none s = r.2.modVi v (askingVi r.1) := by
  unfold recordPieces at plan
  unfold ringRead
  dsimp only
  rw [ring]
  dsimp only
  rw [if_neg (by simp [attached, runs, inService, none_, some_]), plan]
  dsimp only
  rw [if_neg (by simp [tags, room]; omega)]
  rfl

/-- A fetch slot of no schedule reads the ring. -/
theorem fetchSlot_asks {e v p : Nat} {ps : List (Nat × Nat × XSpot)} (wf : Tab.wf {} s.vis = true) (groups : Groups s) (part : s.partOfVi v = some p)
    (idle : slotDue s p v = false) (ring : ringEngine s p = some e) (attached : (s.vi v).state = .attached) (runs : s.host.dmaStopped = false)
    (inService : (s.xfe e).run ≠ .fenced) (none_ : (s.vi v).reading = none) (some_ : readCount (s.vi v) ≠ 0)
    (plan : xPlan s e v false (recordPieces (s.vi v)) = .go ps) (all : ∀ q ∈ ps, ∃ h iova a, q.2.2 = .host h iova a)
    (tags : hostTagsFree s p (readCount (s.vi v)) = true) (few : (s.noc.reqs.filter (fun r => r.host && r.who == .xfe e)).length + readCount (s.vi v) ≤ 128)
    (room : holdFull s e p (readCount (s.vi v)) = false) (calm : Calm 9 s) :
    let t := fetchSlot v s
    t.vi v = askingVi ((List.range ps.length).map (fun i => (s.noc.nextTag + i, none))) { s.vi v with resume := false } ∧
      (∀ i h iova a b c, ps[i]? = some (b, c, .host h iova a) → ∃ q ∈ t.noc.reqs.map ungone, q.tag = s.noc.nextTag + i ∧ q.host = true ∧
        q.write = false ∧ q.addr = a ∧ q.len = 64 ∧ q.use = .ring v) ∧ t.parts = s.parts ∧ t.mem = s.mem := by
  obtain ⟨u, isu⟩ : ∃ u : State, u = s.setVi v { s.vi v with resume := false } := ⟨_, rfl⟩
  have uvi : u.vi v = { s.vi v with resume := false } := by rw [isu]; exact State.vi_setVi wf v _
  have uwf : Tab.wf {} u.vis = true := by rw [isu]; exact Tab.wf_set wf v _
  have slot : fetchSlot v s = ringRead p v none u := by
    unfold fetchSlot
    rw [part]
    dsimp only
    rw [idle]
    simp only [Bool.false_eq_true, if_false]
    rw [show s.modVi v (fun x => { x with resume := false }) = u from isu.symm]
    have up : ((u.vi v).state != .attached || u.host.dmaStopped) = false := by
      have host : u.host = s.host := by rw [isu]; rfl
      rw [uvi, host, runs]
      simp [attached]
    rw [up]
    rfl
  have count : readCount (u.vi v) = readCount (s.vi v) := by rw [uvi]; rfl
  have asks := ringRead_asks (s := u) (e := e) (v := v) (p := p) (ps := ps) (by rw [isu]; exact ring) (by rw [uvi]; exact attached) (by rw [isu]; exact runs)
    (by rw [isu]; exact inService) (by rw [uvi]; exact none_) (by rw [count]; exact some_)
    (by rw [uvi, isu]; exact (xPlan_vis _ e v false _).trans plan) (by rw [count, isu]; exact tags) (by rw [count, isu]; exact few) (by rw [count, isu]; exact room)
  obtain ⟨asked, -, -⟩ := askRecords (e := e) (v := v) (p := p) (s := u) ps all (by rw [isu]; exact groups) (by rw [isu]; exact calm)
  dsimp only at asks asked
  rw [slot, asks]
  generalize ps.foldl (askRecord e v p) ([], u) = r at asked ⊢
  obtain ⟨tags', reqs, -, vis, parts, mem⟩ := asked
  have noc : u.noc = s.noc := by rw [isu]; rfl
  rw [noc] at tags' reqs
  have is : r.2.vi v = { s.vi v with resume := false } := by
    rw [← uvi]
    unfold State.vi
    rw [vis]
  refine ⟨?_, reqs, parts.trans (by rw [isu]; rfl), mem.trans (by rw [isu]; rfl)⟩
  have rwf : Tab.wf {} r.2.vis = true := by rw [vis]; exact uwf
  unfold State.modVi
  rw [State.vi_setVi rwf, is, tags']

end Sys2Proof.Machine
end


section
/-! SUPPORT. Fetch slots, ring read completions and commands, as the statement on them needs them. -/
namespace Sys2Proof.Machine
open Sys2Proof Sys2Proof.Safety

/-- A scheduled fetch slot with nothing to deliver and nothing to read counts as used. -/
theorem fetchSlot_counts {v p : Nat} (wf : Tab.wf {} s.vis = true) (parts : Tab.wf {} s.parts = true) (part : s.partOfVi v = some p) (due : slotDue s p v = true)
    (attached : (s.vi v).state = .attached) (runs : s.host.dmaStopped = false) (read : (s.vi v).read = []) (held : (s.vi v).held = [])
    (full : readCount (s.vi v) = 0) :
    let t := fetchSlot v s
    Tab.get 0 (t.part p).fetches v = Tab.get 0 (s.part p).fetches v + 1 ∧ t.vi v = { s.vi v with resume := false } ∧ t.mem = s.mem := by
  obtain ⟨u, isu⟩ : ∃ u : State, u = (s.setVi v { s.vi v with resume := false }).setPart p { s.part p with
    fetches := Tab.set 0 (s.part p).fetches v (Tab.get 0 (s.part p).fetches v + 1) } := ⟨_, rfl⟩
  have uvi : u.vi v = { s.vi v with resume := false } := by rw [isu]; exact State.vi_setVi wf v _
  have uhost : u.host = s.host := by rw [isu]; rfl
  have counted : Tab.get 0 (u.part p).fetches v = Tab.get 0 (s.part p).fetches v + 1 := by
    rw [isu, State.part_setPart (s := s.setVi v _) parts]
    unfold Tab.set
    rw [if_neg (Nat.succ_ne_zero _)]
    exact Tab.get_put_same 0 v _ _
  have slot : fetchSlot v s = refresh u := by
    have delivered : deliverHeld v u = refresh u := by
      unfold deliverHeld
      rw [uvi]
      show refresh (deliverHeldN (s.vi v).held.length v u) = refresh u
      rw [held]
      rfl
    have nothing : ringRead p v none (refresh u) = refresh u := by
      unfold ringRead
      dsimp only
      rw [refresh_vi, uvi]
      cases ringEngine (refresh u) p with
      | none => rfl
      | some e => exact if_pos (by simp [show readCount { s.vi v with resume := false } = 0 from full])
    unfold fetchSlot
    rw [part]
    dsimp only
    rw [due]
    simp only [if_true]
    rw [show (s.modVi v (fun x => { x with resume := false })).modPart p (fun x => { x with fetches := Tab.set 0 x.fetches v (Tab.get 0 x.fetches v + 1) }) = u from isu.symm]
    have up : ((u.vi v).state != .attached || u.host.dmaStopped) = false := by
      rw [uvi, uhost, runs]
      simp [attached]
    have empty : (u.vi v).read.length = 0 := by
      rw [uvi]
      simp [read]
    rw [up, empty, delivered]
    exact nothing
  dsimp only
  rw [slot, refresh_vi, refresh_mem]
  refine ⟨?_, uvi, by rw [isu]; rfl⟩
  rw [refresh_part]
  exact counted

/-- The records of a completion, one for each request of the read. -/
theorem ringCompletion_fold {v : Nat} {ok : Bool} (tags : List Nat) (word : Nat → BitVec 512) (s : State) :
    ((tags.map (fun k => (k, (none : Option (BitVec 512))))).zip (List.range tags.length)).foldl (fun s q =>
      if q.1.2.isSome then s else ringReturned v q.1.1 ok false (word q.2) s) s =
    ((tags.zip (List.range tags.length)).map (fun q => (q.1, word q.2))).foldl (fun s q => ringReturned v q.1 ok false q.2 s) s := by
  rw [List.zip_map_left, List.foldl_map, List.foldl_map]
  rfl

theorem zip_words {α : Type} (tags : List Nat) (word : Nat → α) :
    ((tags.zip (List.range tags.length)).map (fun q => (q.1, word q.2))).map Prod.fst = tags ∧
      ((tags.zip (List.range tags.length)).map (fun q => (q.1, word q.2))).map Prod.snd = (List.range tags.length).map word := by
  refine ⟨?_, ?_⟩
  · rw [List.map_map]
    exact List.map_fst_zip (by simp)
  · rw [List.map_map]
    have snd := List.map_snd_zip (l₁ := tags) (l₂ := List.range tags.length) (by simp)
    calc (tags.zip (List.range tags.length)).map (Prod.snd ∘ fun q => (q.1, word q.2))
        = ((tags.zip (List.range tags.length)).map Prod.snd).map word := by rw [List.map_map]; rfl
      _ = (List.range tags.length).map word := by rw [snd]

/-- A completion answers every request of the ring read, in ring order. -/
theorem ringReadCompletion_is {v : Nat} {tags : List Nat} (cpl : CplStat) (data : List (BitVec 512))
    (reading : (s.vi v).reading = some { head := (s.vi v).cmdHead, reqs := tags.map (fun k => (k, none)) }) :
    ringReadCompletion v cpl data s = ringRetryAll (pumpAll (((tags.zip (List.range tags.length)).map
      (fun q => (q.1, data.getD q.2 (if (s.vi v).cmdPhase then 0 else 256)))).foldl (fun s q => ringReturned v q.1 (cpl == .sc) false q.2 s) s)) := by
  unfold ringReadCompletion
  dsimp only
  rw [reading]
  dsimp only
  rw [List.length_map]
  exact congrArg (fun u => ringRetryAll (pumpAll u)) (ringCompletion_fold tags (fun i => data.getD i (if (s.vi v).cmdPhase then 0 else 256)) s)

/-- An interface whose ring read is out for the given tags. -/
theorem readingVi_out {x : Vi} {tags : List Nat} (reading : x.reading = some { head := x.cmdHead, reqs := tags.map (fun k => (k, none)) }) :
    readingVi x [] tags = x := by
  unfold readingVi
  rw [List.map_nil, List.nil_append, ← reading]

/-- The state after answers of a ring read, with engines and rings idle: nothing else moves on. -/
theorem rings_rest {v : Nat} {y : Vi} (engines : EnginesIdle s) (rings : RingsIdle s) (xfes : t.xfes = s.xfes) (own : t.vi v = y) (quiet : y.fetchWait = false)
    (other : ∀ u, u ≠ v → t.vi u = s.vi u) : ringRetryAll (pumpAll t) = t := by
  have idle : EnginesIdle t := by unfold EnginesIdle; rw [xfes]; exact engines
  have resting : RingsIdle t := fun u => by
    by_cases here : u = v
    · rw [here, own, quiet]
    · rw [other u here]
      exact rings u
  rw [pumpAll_idle idle, ringRetryAll_idle resting]

/-- Answers that bring nothing close their requests one after the other. -/
theorem ringReturned_rest {v : Nat} {tags : List Nat} {ok : Bool} (qs : List (Nat × BitVec 512)) (s : State) (quiet : TagsQuiet tags s)
    (inside : ∀ q ∈ qs, q.1 ∈ tags) (none_ : (s.vi v).reading = none) :
    ∃ noc, qs.foldl (fun s q => ringReturned v q.1 ok false q.2 s) s = { s with noc := noc } := by
  induction qs generalizing s with
  | nil => exact ⟨s.noc, rfl⟩
  | cons q qs ih =>
    obtain ⟨noc, closed, quiet'⟩ := closeReq_quiet quiet (inside q List.mem_cons_self)
    rw [List.foldl_cons, ringReturned_idle (by rw [closed]; exact none_), closed]
    rw [closed] at quiet'
    obtain ⟨noc', rest⟩ := ih _ quiet' (fun q mem => inside q (List.mem_cons_of_mem _ mem)) none_
    exact ⟨noc', rest⟩

/-- A failed read quiesces the interface at its partition's next proof, and sets RING_FAULT. -/
theorem ringReturned_fails {v k : Nat} {w : BitVec 512} {x : Vi} {out tags : List Nat} (wf : Tab.wf {} s.vis = true) (groups : Groups s) (calm : Calm 2 s)
    (quiet : TagsQuiet tags s) (mem : k ∈ tags) (is : s.vi v = readingVi x [] (k :: out)) (attached : x.state = .attached) (runs : viRuns v s = true) :
    let t := ringReturned v k false false w s
    t.vi v = { x with reading := none, pend := .quiesce (some 3) } ∧ (∀ u, u ≠ v → t.vi u = s.vi u) ∧ t.xfes = s.xfes ∧ FaultSet 2 2 t ∧ TagsQuiet tags t := by
  obtain ⟨noc, closed, quiet'⟩ := closeReq_quiet quiet mem
  rw [closed] at quiet'
  have here : ({ s with noc := noc } : State).vi v = readingVi x [] (k :: out) := is
  obtain ⟨u, isu⟩ : ∃ u : State, u = ({ s with noc := noc } : State).setVi v { readingVi x [] (k :: out) with reading := none } := ⟨_, rfl⟩
  have ugroups : Groups u := by rw [isu]; exact groups
  have ucalm : Calm 2 u := by rw [isu]; exact calm
  have uvi : u.vi v = { readingVi x [] (k :: out) with reading := none } := by rw [isu]; exact State.vi_setVi (s := { s with noc := noc }) wf v _
  have vis : (raise 2 2 v u).vis = u.vis := Laws.raise_calm_vis ugroups ucalm
  have rvi : ∀ j, (raise 2 2 v u).vi j = u.vi j := fun j => by unfold State.vi; rw [vis]
  have rwf : Tab.wf {} (raise 2 2 v u).vis = true := by rw [vis, isu]; exact Tab.wf_set wf v _
  have viRuns' : viRuns v (raise 2 2 v u) = true := by
    have parts : (raise 2 2 v u).parts = s.parts := (Laws.raise_calm_parts ugroups ucalm).trans (by rw [isu]; rfl)
    unfold viRuns State.partOfVi State.part at runs ⊢
    rw [parts]
    exact runs
  have step : ringReturned v k false false w s = (raise 2 2 v u).modVi v (fun x => { x with pend := .quiesce (some 3) }) := by
    unfold ringReturned
    dsimp only
    rw [closed, here]
    unfold readingVi
    dsimp only
    rw [if_neg (by simp), if_pos (by decide)]
    rw [requestQuiesce_eq]
    have isu' := isu
    unfold readingVi at isu'
    dsimp only at isu'
    rw [← isu', if_neg (by rw [rvi, uvi]; simp [readingVi, attached]), if_pos viRuns']
  dsimp only
  rw [step]
  unfold State.modVi
  refine ⟨?_, fun j ne => ?_, ?_, ?_, fun q inside tag => ?_⟩
  · rw [State.vi_setVi rwf, rvi, uvi]
    rfl
  · rw [State.vi_setVi_other rwf ne, rvi, isu]
    exact State.vi_setVi_other (s := { s with noc := noc }) wf ne _
  · exact (Laws.raise_calm_xfes ugroups ucalm).trans (by rw [isu]; rfl)
  · exact Laws.raise_sets ugroups (by decide)
  · have same : ((raise 2 2 v u).setVi v { (raise 2 2 v u).vi v with pend := .quiesce (some 3) }).noc = noc :=
      (Laws.raise_calm_noc ugroups ucalm).trans (by rw [isu]; rfl)
    have ports : ∀ r, NoTargets r ({ s with noc := noc } : State) → NoTargets r ((raise 2 2 v u).setVi v { (raise 2 2 v u).vi v with pend := .quiesce (some 3) }) :=
      fun r free => by
        unfold NoTargets State.qport at free ⊢
        rw [same]
        exact free
    rw [same] at inside
    exact ports q (quiet' q inside tag)

/-- Bytes in little-endian order give the word again. -/
theorem word_of_bytes (n : Nat) (w : BitVec (8 * n)) : BitVec.ofNat (8 * n) (leNat (leBytes n w.toNat)) = w := by
  have small : w.toNat < 256 ^ n := by
    have bound := w.isLt
    rw [pow_mul] at bound
    exact bound
  rw [leNat_leBytes, Nat.mod_eq_of_lt small, BitVec.ofNat_toNat, BitVec.setWidth_eq]

/-- The record of one line of data. -/
theorem record_of_line (w : BitVec 512) : BitVec.ofNat 512 (leNat ((leBytes 64 w.toNat).take 64)) = w := by
  rw [List.take_of_length_le (by rw [leBytes_length])]
  exact word_of_bytes 64 w

/-! ### What the opcodes do (R561, R562) -/

/-- The newest command's wait is noted; the older ones stay as they were. -/
theorem newest_waits {old : List Cmd} {c : Cmd} (older : ∀ d ∈ old, d.tag ≠ c.tag) (n : BitVec 64) :
    (old ++ [c]).map (fun d => if d.tag == c.tag then { d with waitFor := some n } else d) = old ++ [{ c with waitFor := some n }] := by
  rw [List.map_append]
  congr 1
  · refine (List.map_congr_left fun d mem => ?_).trans (List.map_id _)
    simp [older d mem]
  · simp

/-- What a deliverable record's command finds: the interface with the record taken. -/
theorem taken_at {v : Nat} (wf : Tab.wf {} s.vis = true) (p : Nat) (r : BitVec 512) (rest : List (BitVec 512)) :
    (s.setVi v (takenVi p r rest s (s.vi v))).vi v = takenVi p r rest s (s.vi v) := State.vi_setVi wf v _

/-- A BARRIER behind open commands holds later records back. -/
theorem barrier_waits {v p a : Nat} {r : BitVec 512} {rest : List (BitVec 512)} (wf : Tab.wf {} s.vis = true) (h : Deliverable 3 v p a r rest s)
    (some_ : (s.vi v).cmds ≠ []) : cmdDeliver 3 v s = refresh ((s.setVi v (takenVi p r rest s (s.vi v))).setVi v { takenVi p r rest s (s.vi v) with barrier := true }) := by
  have runs := deliverRecord_runs h
  obtain ⟨part, read, code, -, -, -, can, -, -⟩ := h
  rw [cmdDeliver_runs part read code can, runs]
  refine congrArg refresh ?_
  unfold runCommand
  rw [code]
  simp only [taken_at wf]
  rw [if_neg]
  · unfold State.modVi
    rw [taken_at wf]
  · show ¬ ((s.vi v).cmds ++ [_]).length = 1
    rw [List.length_append]
    have := List.length_pos_iff.mpr some_
    simp
    omega

/-- A WAIT_STEP for a later step waits. -/
theorem waitStep_waits {v p a : Nat} {r : BitVec 512} {rest : List (BitVec 512)} (wf : Tab.wf {} s.vis = true) (h : Deliverable 4 v p a r rest s)
    (later : (s.part p).step < BitVec.ofNat 64 (rfld r 8 0 64)) :
    cmdDeliver 4 v s = refresh ((s.setVi v (takenVi p r rest s (s.vi v))).setVi v { takenVi p r rest s (s.vi v) with
      cmds := (s.vi v).cmds ++ [{ recordCmd p r (s.vi v).nextTag s with waitFor := some (BitVec.ofNat 64 (rfld r 8 0 64)) }] }) := by
  have runs := deliverRecord_runs h
  obtain ⟨part, read, code, -, -, -, can, -, fresh⟩ := h
  rw [cmdDeliver_runs part read code can, runs]
  refine congrArg refresh ?_
  unfold runCommand
  rw [code]
  refine Eq.trans (if_neg (BitVec.not_le.mpr later)) ?_
  unfold State.modVi
  rw [taken_at wf]
  have waits := newest_waits (c := recordCmd p r (s.vi v).nextTag s) fresh (BitVec.ofNat 64 (rfld r 8 0 64))
  exact congrArg (fun cmds => (s.setVi v (takenVi p r rest s (s.vi v))).setVi v { takenVi p r rest s (s.vi v) with cmds := cmds }) waits

end Sys2Proof.Machine
end

section
namespace Sys2Proof.Proofs
open Sys2Proof Sys2Proof.Machine Sys2Proof.Safety

/-- Settles O49: what a fetch slot asks for, what the requests that return leave of the read, and the effect of each command's record. -/
theorem ringReadsAndCommands : Obligations.RingReadsAndCommands := by
  unfold Obligations.RingReadsAndCommands
  refine ⟨fun v p s canon part => ⟨fun attached runs => ⟨fun due read held full => ?_, fun e ps idle ring inService none_ some_ plan all tags room fresh calm few => ?_⟩,
    fun tags data reading some_ distinct engines rings quiet attached => ⟨fun ring => ⟨?_, fun k w q single one found alive use_ => ?_⟩, fun runs calm => ?_⟩⟩,
    fun v p a r rest s canon => ⟨fun h => ?_, fun h => ⟨fun none_ => ?_, fun some_ => ?_⟩, fun h => ⟨fun reached => ?_, fun waits => ?_⟩,
      fun h => ⟨fun d desc ok => ?_, fun none_ => ?_⟩, fun part read code sealed_ closed can way fresh clean => ?_⟩⟩
  · obtain ⟨-, parts, -, -, -, -, vis, -⟩ := canon
    obtain ⟨count, vi, mem⟩ := fetchSlot_counts vis parts part due attached runs read held full
    refine ⟨refresh (fetchSlot v.val s), rfl, ?_, ?_, ?_⟩
    · rw [refresh_part]; exact count
    · rw [refresh_vi]; exact vi
    · rw [refresh_mem]; exact mem
  · have groups := groups_of_canon canon
    obtain ⟨-, -, -, -, -, -, vis, -⟩ := canon
    obtain ⟨vi, reqs, parts, mem⟩ := fetchSlot_asks vis groups part idle ring attached runs inService none_ some_ plan all tags few room calm
    have length : ps.length = readCount (s.vi v.val) := by
      rw [xPlan_length plan]
      simp
    rw [length] at vi
    refine ⟨refresh (fetchSlot v.val s), rfl, ?_, fun i h iova a b c at_ => ?_, ?_, ?_⟩
    · rw [refresh_vi]; exact vi
    · obtain ⟨q, mem, tag, host, write, addr, len, use_⟩ := reqs i h iova a b c at_
      obtain ⟨q', mem', is⟩ := List.mem_map.mp mem
      rw [← is] at tag host write addr len use_
      rw [refresh_noc]
      exact ⟨q', mem', tag, host, write, addr, len, use_⟩
    · rw [refresh_parts]; exact parts
    · rw [refresh_mem]; exact mem
  · obtain ⟨-, -, -, -, -, -, vis, -⟩ := canon
    obtain ⟨e, engine, inService⟩ := ring
    have words := zip_words tags (fun i => data.getD i (if (s.vi v.val).cmdPhase then 0 else 256))
    have runs := ringReadCompletion_is .sc data reading
    generalize (tags.zip (List.range tags.length)).map (fun q => (q.1, data.getD q.2 (if (s.vi v.val).cmdPhase then 0 else 256))) = qs at words runs
    obtain ⟨names, records⟩ := words
    have listed : qs ≠ [] := fun empty => some_ (by rw [← names, empty]; rfl)
    obtain ⟨noc, vis', all, got, other⟩ := ringReturned_all (v := v.val) (x := s.vi v.val) (tags := tags) qs [] listed s vis quiet
      (fun q mem => names ▸ List.mem_map_of_mem mem) (by rw [names]; exact distinct) (by rw [names, readingVi_out reading]) attached part engine inService
    rw [show (CplStat.sc == CplStat.sc) = true from rfl, all] at runs
    rw [rings_rest (t := { s with noc := noc, vis := vis' }) engines rings rfl got (rings v.val) other] at runs
    refine ⟨refresh (ringReadCompletion v.val .sc data s), rfl, ?_, ?_⟩
    · rw [refresh_vi, runs]
      refine Eq.trans got ?_
      rw [List.nil_append, records]
      rfl
    · rw [refresh_mem, runs]
  · obtain ⟨-, -, -, -, -, -, vis, -⟩ := canon
    obtain ⟨e, engine, inService⟩ := ring
    subst single one
    obtain ⟨noc, vis', all, got, other⟩ := ringReturned_all (v := v.val) (x := s.vi v.val) (tags := [k]) [(k, w)] [] (by simp) s vis quiet
      (fun q mem => by simp at mem; simp [mem]) (by simp) (readingVi_out reading).symm attached part engine inService
    have runs : hostReadEnds k true false (leBytes 64 w.toNat) s = { s with noc := noc, vis := vis' } := by
      unfold hostReadEnds
      dsimp only
      rw [found]
      simp only [alive, use_, Bool.and_false, Bool.false_eq_true, if_false]
      rw [record_of_line]
      refine Eq.trans (congrArg (fun u => ringRetryAll (pumpAll u)) all) ?_
      exact rings_rest (t := { s with noc := noc, vis := vis' }) engines rings rfl got (rings v.val) other
    refine ⟨refresh (hostReadEnds k true false (leBytes 64 w.toNat) s), rfl, ?_, ?_⟩
    · rw [refresh_vi, runs]
      exact got
    · rw [refresh_mem, runs]
  · have groups := groups_of_canon canon
    obtain ⟨-, -, -, -, -, -, vis, -⟩ := canon
    have words := zip_words tags (fun i => data.getD i (if (s.vi v.val).cmdPhase then 0 else 256))
    have answers := ringReadCompletion_is .ur data reading
    generalize (tags.zip (List.range tags.length)).map (fun q => (q.1, data.getD q.2 (if (s.vi v.val).cmdPhase then 0 else 256))) = qs at words answers
    obtain ⟨names, -⟩ := words
    cases qs with
    | nil => exact absurd names.symm some_
    | cons q qs =>
      have inside : ∀ q' ∈ q :: qs, q'.1 ∈ tags := fun q' mem => names ▸ List.mem_map_of_mem mem
      obtain ⟨own, other, xfes, set, quiet'⟩ := ringReturned_fails (v := v.val) (k := q.1) (w := q.2) (x := s.vi v.val) (out := qs.map Prod.fst) vis groups calm quiet
        (inside q List.mem_cons_self) (by
          have whole := readingVi_out reading
          rw [← names] at whole
          exact whole.symm) attached runs
      rw [List.foldl_cons, show (CplStat.ur == CplStat.sc) = false from rfl] at answers
      generalize ringReturned v.val q.1 false false q.2 s = u at own other xfes set quiet' answers
      obtain ⟨noc, rest⟩ := ringReturned_rest (v := v.val) (ok := false) qs u quiet' (fun q' mem => inside q' (List.mem_cons_of_mem _ mem)) (by rw [own])
      rw [rest, rings_rest (t := { u with noc := noc }) engines rings xfes own (rings v.val) other] at answers
      refine ⟨refresh (ringReadCompletion v.val .ur data s), rfl, ?_, ?_⟩
      · refine faultSet_keeps (refresh_groups _) ?_
        rw [answers]
        exact set
      · rw [refresh_vi, answers]
        exact own
  · obtain ⟨-, -, -, -, -, -, vis, -⟩ := canon
    have runs := deliverRecord_runs h
    obtain ⟨part, read, code, -, -, -, can, way, fresh⟩ := h
    have ended : cmdDeliver 1 v.val s = refresh (endCommand v.val (s.vi v.val).nextTag .ok 0 (s.setVi v.val (takenVi p r rest s (s.vi v.val)))) := by
      rw [cmdDeliver_runs part read code can, runs]
      unfold runCommand
      rw [code]
      rfl
    exact ⟨_, congrArg Host.Outcome.next ended, taken_ends vis part can way fresh .ok 0⟩
  · obtain ⟨-, -, -, -, -, -, vis, -⟩ := canon
    have runs := deliverRecord_runs h
    obtain ⟨part, read, code, -, -, -, can, way, fresh⟩ := h
    have ended : cmdDeliver 3 v.val s = refresh (endCommand v.val (s.vi v.val).nextTag .ok 0 (s.setVi v.val (takenVi p r rest s (s.vi v.val)))) := by
      rw [cmdDeliver_runs part read code can, runs]
      unfold runCommand
      rw [code]
      simp only [taken_at vis]
      rw [if_pos]
      show ((s.vi v.val).cmds ++ [_]).length = 1
      rw [none_]
      rfl
    exact ⟨_, congrArg Host.Outcome.next ended, taken_ends vis part can way fresh .ok 0⟩
  · obtain ⟨-, -, -, -, -, -, vis, -⟩ := canon
    refine ⟨_, congrArg Host.Outcome.next (barrier_waits vis h some_), ?_⟩
    rw [refresh_vi, refresh_mem, State.vi_setVi (Tab.wf_set vis v.val _)]
    exact ⟨rfl, rfl, by simp [takenVi], rfl⟩
  · obtain ⟨-, -, -, -, -, -, vis, -⟩ := canon
    have runs := deliverRecord_runs h
    obtain ⟨part, read, code, -, -, -, can, way, fresh⟩ := h
    have ended : cmdDeliver 4 v.val s = refresh (endCommand v.val (s.vi v.val).nextTag .ok ((s.part p).step.toNat % 2 ^ 32)
        (s.setVi v.val (takenVi p r rest s (s.vi v.val)))) := by
      rw [cmdDeliver_runs part read code can, runs]
      unfold runCommand
      rw [code]
      exact congrArg refresh (if_pos reached)
    exact ⟨_, congrArg Host.Outcome.next ended, taken_ends vis part can way fresh .ok _⟩
  · obtain ⟨-, -, -, -, -, -, vis, -⟩ := canon
    have code := h.2.2.1
    refine ⟨_, congrArg Host.Outcome.next (waitStep_waits vis h waits), ?_⟩
    rw [refresh_vi, refresh_mem, State.vi_setVi (Tab.wf_set vis v.val _)]
    refine ⟨rfl, ?_, rfl⟩
    unfold recordCmd
    rw [code]
  · obtain ⟨-, -, xfes, -, -, -, vis, -⟩ := canon
    have runs := deliverRecord_runs h
    obtain ⟨part, read, code, -, -, -, can, way, fresh⟩ := h
    have passed : cmdDeliver 2 v.val s = refresh (passDesc d (s.setVi v.val (takenVi p r rest s (s.vi v.val)))) := by
      rw [cmdDeliver_runs part read code can, runs]
      refine congrArg refresh ?_
      unfold runCommand
      rw [code]
      dsimp only
      rw [show commandDesc (s.setVi v.val (takenVi p r rest s (s.vi v.val))) p v.val (s.vi v.val).nextTag r = some d from desc]
      exact if_pos ok
    refine ⟨_, congrArg Host.Outcome.next passed, ?_⟩
    rw [refresh_vi, refresh_xfe, refresh_mem]
    have vi : (passDesc d (s.setVi v.val (takenVi p r rest s (s.vi v.val)))).vi v.val = takenVi p r rest s (s.vi v.val) := State.vi_setVi vis v.val _
    have xfe : (passDesc d (s.setVi v.val (takenVi p r rest s (s.vi v.val)))).xfe d.engine =
      { s.xfe d.engine with queue := (s.xfe d.engine).queue ++ [{ d with seq := s.xlt.order }] } := State.xfe_setXfe (s := s.setVi v.val _) xfes d.engine _
    rw [vi, xfe]
    exact ⟨rfl, by simp [takenVi], rfl, rfl⟩
  · obtain ⟨-, -, -, -, -, -, vis, -⟩ := canon
    have runs := deliverRecord_runs h
    obtain ⟨part, read, code, -, -, -, can, way, fresh⟩ := h
    have ended : cmdDeliver 2 v.val s = refresh (endCommand v.val (s.vi v.val).nextTag .aborted 0 (s.setVi v.val (takenVi p r rest s (s.vi v.val)))) := by
      rw [cmdDeliver_runs part read code can, runs]
      refine congrArg refresh ?_
      unfold runCommand
      rw [code]
      dsimp only
      rw [show commandDesc (s.setVi v.val (takenVi p r rest s (s.vi v.val))) p v.val (s.vi v.val).nextTag r = none from none_]
      rfl
    exact ⟨_, congrArg Host.Outcome.next ended, taken_ends vis part can way fresh .aborted 0⟩
  · obtain ⟨-, -, -, -, -, -, vis, -⟩ := canon
    have ended : cmdDeliver 1 v.val s = refresh (endCommand v.val (s.vi v.val).nextTag .denied 0 (s.setVi v.val (takenVi p r rest s (s.vi v.val)))) := by
      rw [cmdDeliver_runs part read code can, deliverRecord_denied read sealed_ closed clean]
    exact ⟨_, congrArg Host.Outcome.next ended, taken_ends vis part can way fresh .denied 0⟩

end Sys2Proof.Proofs
end


section
/-! SUPPORT. Translations of the host: a state whose translation buffers list one engine twice. -/
namespace Sys2Proof.Proofs
open Sys2Proof Sys2Proof.Machine Sys2Proof.Safety

/-- A translation of a device page. -/
def devicePage : XlEntry := { host := false, ctx := 0, base := 0, size := 4096, goal := 0, r := true, w := true }

/-- A translation that the host gave. -/
def hostPage : XlEntry := { devicePage with host := true }

/-- A reset hub whose translation buffers, of which `Canon` says nothing, list engine 0 twice: a host's translation first, a device's
behind it. -/
def twiceListedBuffer : State :=
  { State.reset with xlt := { State.reset.xlt with bufs := [(0, [hostPage]), (0, [devicePage])] } }

theorem twiceListedBuffer_canon : Canon twiceListedBuffer := by
  unfold Canon
  decide

/-- ATS off drops engine 0's first entry with its only translation, and the second entry, unread before, then shows. -/
theorem twiceListedBuffer_shows_device : exec (.atsEnable false) twiceListedBuffer = .next (atsEnable false twiceListedBuffer) ∧
    devicePage ∈ Tab.get [] (atsEnable false twiceListedBuffer).xlt.bufs 0 ∧ devicePage ∉ Tab.get [] twiceListedBuffer.xlt.bufs 0 :=
  ⟨rfl, by decide +kernel, by decide +kernel⟩

/-- Refutes O32: that ATS off leaves in each buffer what stood there and is not the host's fails in a state whose buffers list an engine
twice. -/
theorem not_hostTranslationAndWindows : ¬ Obligations.HostTranslationAndWindows := by
  unfold Obligations.HostTranslationAndWindows
  rintro ⟨translations, -⟩
  obtain ⟨-, -, -, -, -, enables, -⟩ := translations 0 twiceListedBuffer twiceListedBuffer_canon
  obtain ⟨t, ran, -, -, -, -, off⟩ := enables false rfl
  obtain ⟨runs, after, before⟩ := twiceListedBuffer_shows_device
  obtain rfl : atsEnable false twiceListedBuffer = t := Host.Outcome.next.inj (runs.symm.trans ran)
  exact before ((off rfl 0 devicePage).1.mp after).1

end Sys2Proof.Proofs
end


section
/-! SUPPORT. Upkeep of memory (R341 to R355): scrub, recalibration, zeroing and the repair of rows. -/
namespace Sys2Proof
open Sys2Proof

/-- The entries that a table keeps read as before, and the others as the default. -/
theorem Tab.get_keep {α : Type} [DecidableEq α] {d : α} {t : Tab α} (wf : Tab.wf d t = true) (p : Nat → Bool) (k : Nat) :
    Tab.get d (Tab.keep p t) k = if p k then Tab.get d t k else d := by
  have kept := Tab.wf_keep wf p
  obtain unlisted | listed := Tab.get_eq_or_mem d k (Tab.keep p t)
  · split
    · next keeps =>
      obtain same | there := Tab.get_eq_or_mem d k t
      · rw [unlisted, same]
      · exact Tab.get_of_mem (Tab.wf_rises kept) (List.mem_filter.mpr ⟨there, keeps⟩)
    · exact unlisted
  · obtain ⟨there, keeps⟩ := List.mem_filter.mp listed
    rw [if_pos keeps]
    exact (Tab.get_of_mem (Tab.wf_rises wf) there).symm

end Sys2Proof

namespace Sys2Proof.Machine
open Sys2Proof Sys2Proof.Safety

/-! ### Marked lines and cleared ranges -/

theorem Mem.bad_mark {m : Mem} (wf : m.wf) (l k : Nat) : (m.mark l true).bad k = (m.bad k || decide (k = l)) := by
  unfold Mem.bad Mem.mark
  by_cases here : k = l
  · subst here
    rw [Tab.get_set_same wf.2.1]
    simp
  · rw [Tab.get_set_other wf.2.1 here]
    simp [here]

theorem Mem.bad_marks {m : Mem} (wf : m.wf) (ls : List Nat) (k : Nat) :
    (ls.foldl (fun (m : Mem) l => m.mark l true) m).bad k = (m.bad k || ls.contains k) := by
  induction ls generalizing m with
  | nil => simp
  | cons l ls ih =>
    rw [List.foldl_cons, ih (Mem.wf_mark wf l true), Mem.bad_mark wf, List.contains_cons, Bool.or_assoc]
    congr 1

theorem Mem.byte_clear {m : Mem} (wf : m.wf) (lo hi a : Nat) : (m.clear lo hi).byte a = if lo ≤ a ∧ a < hi then 0#8 else m.byte a := by
  unfold Mem.byte Mem.clear
  dsimp only
  rw [Tab.get_keep wf.1]
  split_ifs with keeps inside inside
  · simp only [Bool.or_eq_true, decide_eq_true_eq] at keeps
    omega
  · rfl
  · rfl
  · simp only [Bool.or_eq_true, decide_eq_true_eq] at keeps
    omega

/-! ### Faults of a group that logs -/

theorem markUnit_inject (g u : Nat) (x : FGroup) : (markUnit g u x).inject = x.inject := by
  unfold markUnit
  repeat' split
  all_goals rfl

/-- A logged fault leaves what is armed in its group. -/
theorem raise_inject {g bit unit : Nat} (groups : Groups s) (logs : Logs g s) : ((raise g bit unit s).grp g).inject = (s.grp g).inject := by
  unfold raise
  rw [refresh_grp]
  show ((detectN 6 g bit unit s).grp g).inject = _
  unfold detectN
  dsimp only
  rw [if_pos]
  · refine (congrArg FGroup.inject (Tab.get_set_rises groups g _)).trans ?_
    rw [markUnit_inject]
  · rw [Laws.markUnit_action]
    have log : (s.grp g).action = .log := logs
    simp [log]

/-! ### Scrub (R341, R343) -/

/-- What scrub leaves: bytes, fences and what is fitted and powered; a line marked poisoned stays so. -/
structure ScrubKeeps (s t : State) : Prop where
  bytes : t.mem.bytes = s.mem.bytes
  fitted : t.mem.stackTab = s.mem.stackTab
  banks : ∀ b, (t.bank b).fenced = (s.bank b).fenced
  chans : ∀ c, (t.chan c).fenced = (s.chan c).fenced
  pwr : t.pwr = s.pwr
  wf : s.mem.wf → t.mem.wf
  bad : s.mem.wf → ∀ l, s.mem.bad l = true → t.mem.bad l = true

namespace ScrubKeeps
variable {r s t : State}

theorem refl (s : State) : ScrubKeeps s s := ⟨rfl, rfl, fun _ => rfl, fun _ => rfl, rfl, id, fun _ _ => id⟩

theorem trans (h : ScrubKeeps r s) (k : ScrubKeeps s t) : ScrubKeeps r t :=
  ⟨k.bytes.trans h.bytes, k.fitted.trans h.fitted, fun b => (k.banks b).trans (h.banks b), fun c => (k.chans c).trans (h.chans c), k.pwr.trans h.pwr,
    k.wf ∘ h.wf, fun wf l bad => k.bad (h.wf wf) l (h.bad wf l bad)⟩

theorem same (mem : t.mem = s.mem) (pwr : t.pwr = s.pwr) : ScrubKeeps s t :=
  ⟨by rw [mem], by rw [mem], fun b => by unfold State.bank; rw [mem], fun c => by unfold State.chan; rw [mem], pwr, by rw [mem]; exact id,
    fun _ l => by rw [mem]; exact id⟩

theorem setBank {s : State} (wf : s.mem.wf) (b : Nat) {x : Bank} (fenced : x.fenced = (s.bank b).fenced) : ScrubKeeps s (s.setBank b x) := by
  obtain ⟨h1, h2, h3, banks, h5, h6⟩ := wf
  refine ⟨rfl, rfl, fun k => ?_, fun _ => rfl, rfl, fun _ => ⟨h1, h2, h3, Tab.wf_set banks b x, h5, h6⟩, fun _ _ => id⟩
  by_cases here : k = b
  · subst here
    rw [State.bank_setBank banks, fenced]
  · rw [State.bank_setBank_other banks here]

theorem setChan {s : State} (wf : s.mem.wf) (c : Nat) {x : Chan} (fenced : x.fenced = (s.chan c).fenced) : ScrubKeeps s (s.setChan c x) := by
  obtain ⟨h1, h2, h3, h4, chans, h6⟩ := wf
  refine ⟨rfl, rfl, fun _ => rfl, fun k => ?_, rfl, fun _ => ⟨h1, h2, h3, h4, Tab.wf_set chans c x, h6⟩, fun _ _ => id⟩
  by_cases here : k = c
  · subst here
    rw [State.chan_setChan chans, fenced]
  · rw [State.chan_setChan_other chans here]

theorem mark (s : State) (l : Nat) : ScrubKeeps s { s with mem := s.mem.mark l true } :=
  ⟨rfl, rfl, fun _ => rfl, fun _ => rfl, rfl, fun wf => Mem.wf_mark wf l true, fun wf k bad => by
    show (s.mem.mark l true).bad k = true
    rw [Mem.bad_mark wf, bad]
    rfl⟩

theorem spot (h : ScrubKeeps s t) (pa : Nat) : paSpot t pa = paSpot s pa := by
  unfold paSpot State.stack
  rw [h.fitted]

theorem up (h : ScrubKeeps s t) (g : Nat) : granUp t g = granUp s g := by
  unfold granUp
  dsimp only
  rw [h.banks, h.chans, h.pwr]
  unfold State.stack
  rw [h.fitted]

end ScrubKeeps

theorem countCe_keeps (wf : s.mem.wf) (g : Nat) : ScrubKeeps s (countCe g s) ∧ (countCe g s).mem.poison = s.mem.poison ∧ (countCe g s).flt = s.flt := by
  unfold countCe
  split
  · exact ⟨ScrubKeeps.setBank wf _ rfl, rfl, rfl⟩
  · exact ⟨ScrubKeeps.setChan wf _ rfl, rfl, rfl⟩

/-- The line struck by an uncorrectable error, before its fault is raised. -/
def struck (g pa : Nat) (s : State) : State :=
  let s := { s with mem := s.mem.mark (pa / 64) true }
  if g < 5120 then s else let c := s.chan ((g - 5120) / 1024); s.setChan ((g - 5120) / 1024) { c with ue := satInc c.ue }

theorem struck_keeps (wf : s.mem.wf) (g pa : Nat) : ScrubKeeps s (struck g pa s) ∧ (struck g pa s).mem.bad (pa / 64) = true ∧ (struck g pa s).flt = s.flt := by
  have marked := ScrubKeeps.mark s (pa / 64)
  have bad : (s.mem.mark (pa / 64) true).bad (pa / 64) = true := by
    rw [Mem.bad_mark wf]
    simp
  unfold struck
  dsimp only
  split
  · exact ⟨marked, bad, rfl⟩
  · exact ⟨marked.trans (ScrubKeeps.setChan (s := { s with mem := s.mem.mark (pa / 64) true }) (marked.wf wf) _ rfl), bad, rfl⟩

/-- An uncorrectable error of a calm group marks its line and sets UE. -/
theorem strikeUe_marks {g : Nat} (wf : s.mem.wf) (groups : Groups s) (calm : Calm (granGroup g) s) (pa : Nat) :
    ScrubKeeps s (strikeUe g pa s) ∧ (strikeUe g pa s).mem.bad (pa / 64) = true ∧ FaultSet (granGroup g) 1 (strikeUe g pa s) := by
  obtain ⟨keeps, bad, flt⟩ := struck_keeps wf g pa
  have is : strikeUe g pa s = raise (granGroup g) 1 pa (struck g pa s) := rfl
  rw [is]
  generalize struck g pa s = u at keeps bad flt
  have ugroups : Groups u := groups_of_flt flt groups
  have ucalm := calm_keeps flt calm
  have mem : (raise (granGroup g) 1 pa u).mem = u.mem := Laws.raise_calm_mem ugroups ucalm
  exact ⟨keeps.trans (ScrubKeeps.same mem (Laws.raise_calm_pwr ugroups ucalm)), by rw [mem]; exact bad, Laws.raise_sets ugroups (by decide)⟩

/-- A group of memory in which nothing is armed, and that logs. -/
structure ScrubReady (G : Nat) (s : State) : Prop where
  wf : s.mem.wf
  groups : Groups s
  logs : Logs G s
  clean : (s.grp G).inject = 0

theorem strikeUe_ready {g : Nat} (ready : ScrubReady (granGroup g) s) (pa : Nat) : ScrubReady (granGroup g) (strikeUe g pa s) := by
  obtain ⟨wf, groups, logs, clean⟩ := ready
  obtain ⟨keeps, -, flt⟩ := struck_keeps wf g pa
  have after := (strikeUe_marks wf groups (Or.inl logs) pa).1.wf wf
  have is : strikeUe g pa s = raise (granGroup g) 1 pa (struck g pa s) := rfl
  rw [is] at after ⊢
  generalize struck g pa s = u at keeps flt after
  have ugroups : Groups u := groups_of_flt flt groups
  have grp : u.grp (granGroup g) = s.grp (granGroup g) := congrArg (fun f : Flt => Tab.get (FGroup.reset (granGroup g)) f.groups (granGroup g)) flt
  have ulogs : Logs (granGroup g) u := by
    unfold Logs
    rw [grp]
    exact logs
  have noted : Noted (granGroup g) 1 u (raise (granGroup g) 1 pa u) := raise_notes ugroups (Or.inl ulogs)
  exact ⟨after, noted.rises, noted.action.trans ulogs, by rw [raise_inject ugroups ulogs, grp]; exact clean⟩

/-- One line that scrub found, in a group that logs: marked where it cannot be corrected, and nothing else of memory changes. -/
theorem scrubLine_keeps {g : Nat} (ready : ScrubReady (granGroup g) s) (pa : Nat) (e : Ecc) :
    ScrubReady (granGroup g) (scrubLine g pa e s) ∧ ScrubKeeps s (scrubLine g pa e s) ∧ (e = .uncorrectable → (scrubLine g pa e s).mem.bad (pa / 64) = true) := by
  obtain ⟨wf, groups, logs, clean⟩ := id ready
  unfold scrubLine
  dsimp only
  rw [checkEcc_clean clean]
  cases e with
  | clean => exact ⟨ready, .refl s, fun h => absurd h (by decide)⟩
  | corrected =>
    obtain ⟨keeps, -, flt⟩ := countCe_keeps wf g
    have grp : (countCe g s).grp (granGroup g) = s.grp (granGroup g) := congrArg (fun f : Flt => Tab.get (FGroup.reset (granGroup g)) f.groups (granGroup g)) flt
    exact ⟨⟨keeps.wf wf, groups_of_flt flt groups, by unfold Logs; rw [grp]; exact logs, by rw [grp]; exact clean⟩, keeps, fun h => absurd h (by decide)⟩
  | uncorrectable =>
    obtain ⟨keeps, bad, -⟩ := strikeUe_marks wf groups (Or.inl logs) pa
    exact ⟨strikeUe_ready ready pa, keeps, fun _ => bad⟩

/-- A line that can be corrected leaves bytes and marks, whatever the group does with faults. -/
theorem scrubLine_corrects {g : Nat} (wf : s.mem.wf) (clean : (s.grp (granGroup g)).inject = 0) (pa : Nat) {e : Ecc} (fine : e ≠ .uncorrectable) :
    ScrubKeeps s (scrubLine g pa e s) ∧ (scrubLine g pa e s).mem.poison = s.mem.poison ∧ (scrubLine g pa e s).flt = s.flt := by
  unfold scrubLine
  dsimp only
  rw [checkEcc_clean clean]
  cases e with
  | clean => exact ⟨.refl s, rfl, rfl⟩
  | corrected => exact countCe_keeps wf g
  | uncorrectable => exact absurd rfl fine

theorem paSpot_hbm {pa m ch g : Nat} (spot : paSpot s pa = .hbm m ch g) : ch < 32 ∧ g < 1024 := by
  unfold paSpot at spot
  dsimp only at spot
  split_ifs at spot
  simp only [PaSpot.hbm.injEq] at spot
  omega

theorem paSpot_sram {pa b g : Nat} (spot : paSpot s pa = .sram b g) : b < 64 ∧ g < 80 := by
  unfold paSpot at spot
  dsimp only at spot
  split_ifs at spot
  simp only [PaSpot.sram.injEq] at spot
  omega

/-- The granule of a line that HBM scrub reads at a position: where the line lies there, and the granule is in service. -/
def hbmAt (m : Nat) (s : State) (pa : Nat) : Option Nat :=
  match paSpot s pa with
  | .hbm k ch g => if k = m ∧ granUp s (granOf (.hbm k ch g)) = true then some (granOf (.hbm k ch g)) else none
  | _ => none

/-- The granule of a line that SRAM scrub reads. -/
def sramAt (s : State) (pa : Nat) : Option Nat :=
  match paSpot s pa with
  | .sram b g => if (s.bank b).fenced then none else some (granOf (.sram b g))
  | _ => none

/-- What scrub does with one line that it found. -/
def scrubStep (at_ : State → Nat → Option Nat) (s : State) (f : Nat × Ecc) : State :=
  match at_ s f.1 with
  | some g => scrubLine g f.1 f.2 s
  | none => s

theorem hbmScrub_steps {m : Nat} (on : bits (s.reg (0x200004 + m * 0x10000) 0x18#32).toNat 0 8 ≠ 0) (found : List (Nat × Ecc)) :
    hbmScrub m found s = found.foldl (scrubStep (hbmAt m)) s := by
  unfold hbmScrub
  rw [if_neg on]
  congr 1
  funext s f
  unfold scrubStep hbmAt
  cases paSpot s f.1 with
  | hbm k ch g => dsimp only; split <;> rfl
  | _ => rfl

theorem sramScrub_steps (found : List (Nat × Ecc)) : sramScrub found s = found.foldl (scrubStep sramAt) s := by
  unfold sramScrub
  congr 1
  funext s f
  unfold scrubStep sramAt
  cases paSpot s f.1 with
  | sram b g => dsimp only; split <;> rfl
  | _ => rfl

/-- A place that what scrub leaves keeps, and whose granules belong to one group. -/
structure ScrubPlace (G : Nat) (at_ : State → Nat → Option Nat) : Prop where
  keeps : ∀ s t pa, ScrubKeeps s t → at_ t pa = at_ s pa
  group : ∀ s pa g, at_ s pa = some g → granGroup g = G

theorem hbmAt_place (m : Nat) : ScrubPlace (17 + m) (hbmAt m) := by
  refine ⟨fun s t pa keeps => ?_, fun s pa g at_ => ?_⟩
  · unfold hbmAt
    rw [keeps.spot]
    cases paSpot s pa with
    | hbm k ch g => dsimp only; rw [keeps.up]
    | _ => rfl
  · unfold hbmAt at at_
    split at at_
    · next k ch g' spot =>
      split at at_
      · next here =>
        obtain ⟨channel, granule⟩ := paSpot_hbm spot
        simp only [Option.some.injEq] at at_
        rw [← at_, here.1]
        unfold granGroup granOf
        dsimp only
        rw [if_neg (by omega)]
        omega
      · cases at_
    · cases at_

theorem sramAt_place : ScrubPlace 23 sramAt := by
  refine ⟨fun s t pa keeps => ?_, fun s pa g at_ => ?_⟩
  · unfold sramAt
    rw [keeps.spot]
    cases paSpot s pa with
    | sram b g => dsimp only; rw [keeps.banks]
    | _ => rfl
  · unfold sramAt at at_
    split at at_
    · next b g' spot =>
      split at at_
      · cases at_
      · obtain ⟨bank, granule⟩ := paSpot_sram spot
        simp only [Option.some.injEq] at at_
        rw [← at_]
        unfold granGroup granOf
        dsimp only
        rw [if_pos (by omega)]
    · cases at_

/-- Lines that can be corrected: scrub leaves every byte and every mark. -/
theorem scrub_corrects {G : Nat} {at_ : State → Nat → Option Nat} (place : ScrubPlace G at_) (found : List (Nat × Ecc)) (s : State) (wf : s.mem.wf)
    (clean : (s.grp G).inject = 0) (fine : ∀ f ∈ found, f.2 ≠ .uncorrectable) :
    (found.foldl (scrubStep at_) s).mem.bytes = s.mem.bytes ∧ (found.foldl (scrubStep at_) s).mem.poison = s.mem.poison := by
  induction found generalizing s with
  | nil => exact ⟨rfl, rfl⟩
  | cons f found ih =>
    have step : ScrubKeeps s (scrubStep at_ s f) ∧ (scrubStep at_ s f).mem.poison = s.mem.poison ∧ (scrubStep at_ s f).flt = s.flt := by
      unfold scrubStep
      split
      · next g here =>
        rw [← place.group s f.1 g here] at clean
        exact scrubLine_corrects wf clean f.1 (fine f List.mem_cons_self)
      · exact ⟨.refl s, rfl, rfl⟩
    obtain ⟨keeps, poison, flt⟩ := step
    have grp : (scrubStep at_ s f).grp G = s.grp G := congrArg (fun f : Flt => Tab.get (FGroup.reset G) f.groups G) flt
    obtain ⟨bytes, poison'⟩ := ih _ (keeps.wf wf) (by rw [grp]; exact clean) fun f mem => fine f (List.mem_cons_of_mem _ mem)
    exact ⟨bytes.trans keeps.bytes, poison'.trans poison⟩

/-- Scrub of a group that logs: bytes stay, and each line in service that cannot be corrected ends marked. -/
theorem scrub_marks {G : Nat} {at_ : State → Nat → Option Nat} (place : ScrubPlace G at_) (found : List (Nat × Ecc)) (s : State) (ready : ScrubReady G s) :
    (found.foldl (scrubStep at_) s).mem.bytes = s.mem.bytes ∧ (∀ l, s.mem.bad l = true → (found.foldl (scrubStep at_) s).mem.bad l = true) ∧
      ∀ pa g, (pa, Ecc.uncorrectable) ∈ found → at_ s pa = some g → (found.foldl (scrubStep at_) s).mem.bad (pa / 64) = true := by
  induction found generalizing s with
  | nil => exact ⟨rfl, fun _ => id, fun _ _ mem => absurd mem List.not_mem_nil⟩
  | cons f found ih =>
    have step : ScrubReady G (scrubStep at_ s f) ∧ ScrubKeeps s (scrubStep at_ s f) ∧
        (f.2 = .uncorrectable → at_ s f.1 ≠ none → (scrubStep at_ s f).mem.bad (f.1 / 64) = true) := by
      unfold scrubStep
      split
      · next g here =>
        have own := place.group s f.1 g here
        rw [← own] at ready ⊢
        obtain ⟨after, keeps, bad⟩ := scrubLine_keeps ready f.1 f.2
        exact ⟨after, keeps, fun ue _ => bad ue⟩
      · next out => exact ⟨ready, .refl s, fun _ some_ => absurd out some_⟩
    obtain ⟨after, keeps, struck⟩ := step
    obtain ⟨bytes, marked, rest⟩ := ih _ after
    refine ⟨bytes.trans keeps.bytes, fun l bad => marked l (keeps.bad ready.wf l bad), fun pa g mem here => ?_⟩
    obtain rfl | mem := List.mem_cons.mp mem
    · exact marked _ (struck rfl (by rw [here]; simp))
    · exact rest pa g mem ((place.keeps s _ pa keeps).trans here)

/-- One line that cannot be corrected, in a calm group. -/
theorem scrub_one {G g pa : Nat} {at_ : State → Nat → Option Nat} (place : ScrubPlace G at_) (here : at_ s pa = some g) (wf : s.mem.wf) (groups : Groups s)
    (clean : (s.grp G).inject = 0) (calm : Calm (granGroup g) s) :
    let t := [(pa, Ecc.uncorrectable)].foldl (scrubStep at_) s
    t.mem.bad (pa / 64) = true ∧ t.mem.bytes = s.mem.bytes ∧ FaultSet (granGroup g) 1 t := by
  rw [← place.group s pa g here] at clean
  have step : scrubStep at_ s (pa, Ecc.uncorrectable) = strikeUe g pa s := by
    unfold scrubStep
    rw [here]
    unfold scrubLine
    dsimp only
    rw [checkEcc_clean clean]
  dsimp only
  rw [List.foldl_cons, List.foldl_nil, step]
  obtain ⟨keeps, bad, set⟩ := strikeUe_marks wf groups calm pa
  exact ⟨bad, keeps.bytes, set⟩

end Sys2Proof.Machine
end


section
/-! SUPPORT. Zeroing and the repair of rows (R348 to R355). -/
namespace Sys2Proof.Machine
open Sys2Proof Sys2Proof.Safety

/-- A partition whose work has not ended, or that has arrived, does not go on. -/
theorem tryArrive_rests {p : Nat} (rests : NoResume p s) : tryArrive p s = s := by
  unfold tryArrive
  dsimp only
  refine if_pos ?_
  obtain open_ | arrived := rests
  · unfold arriveBlocked
    simp [open_]
  · simp [arrived]

theorem noResume_of_parts {s t : State} {p : Nat} (parts : t.parts = s.parts) (rests : NoResume p s) : NoResume p t := by
  unfold NoResume State.part at *
  rw [parts]
  exact rests

/-! ### Zeroing (R348, R349) -/

/-- What zeroing leaves of a unit's memory, besides its bytes and its granules. -/
structure Zeroes (s t : State) : Prop where
  shape : ∃ mem, t = { s with mem := mem }
  banks : t.mem.banks = s.mem.banks
  chans : t.mem.chans = s.mem.chans
  toZero : t.mem.toZero = s.mem.toZero
  wf : t.mem.wf

theorem zeroGranule_zeroes (wf : s.mem.wf) (g : Nat) : Zeroes s (zeroGranule g s) ∧ (zeroGranule g s).granule g = { s.granule g with zeroed := true } ∧
    ∀ k, k ≠ g → (zeroGranule g s).granule k = s.granule k := by
  obtain ⟨h1, h2, own, h4, h5, h6⟩ := id wf
  refine ⟨⟨⟨_, rfl⟩, rfl, rfl, rfl, ?_⟩, State.granule_setGranule own g _, fun k ne => State.granule_setGranule_other own ne _⟩
  have set : (s.setGranule g { s.granule g with zeroed := true }).mem.wf := ⟨h1, h2, Tab.wf_set own g _, h4, h5, h6⟩
  exact Mem.wf_clear set _ _

/-- Granules zeroed one after the other. -/
theorem zeroGranules_zeroes (gs : List Nat) (s : State) (wf : s.mem.wf) :
    let t := gs.foldl (fun s g => zeroGranule g s) s
    Zeroes s t ∧ ∀ k, k ∈ gs ∨ (s.granule k).zeroed = true → (t.granule k).zeroed = true := by
  induction gs generalizing s with
  | nil => exact ⟨⟨⟨s.mem, rfl⟩, rfl, rfl, rfl, wf⟩, fun k h => h.resolve_left List.not_mem_nil⟩
  | cons g gs ih =>
    obtain ⟨first, own, other⟩ := zeroGranule_zeroes wf g
    obtain ⟨rest, granules⟩ := ih (zeroGranule g s) first.wf
    dsimp only at rest granules ⊢
    rw [List.foldl_cons]
    obtain ⟨mem, is⟩ := first.shape
    obtain ⟨mem', is'⟩ := rest.shape
    refine ⟨⟨⟨mem', by rw [is', is]⟩, rest.banks.trans first.banks, rest.chans.trans first.chans, rest.toZero.trans first.toZero, rest.wf⟩, fun k h => granules k ?_⟩
    by_cases here : k = g
    · subst here
      exact .inr (by rw [own])
    · refine h.imp (fun mem => (List.mem_cons.mp mem).resolve_left here) fun z => ?_
      rw [other k here]
      exact z

/-- The partition of a granule turns on the owners of banks and channels alone. -/
theorem granPart_keeps (banks : t.mem.banks = s.mem.banks) (chans : t.mem.chans = s.mem.chans) (g : Nat) : granPart t g = granPart s g := by
  unfold granPart State.bank State.chan
  rw [banks, chans]

/-- The end of zeroing where nothing waits for it: the granules read as zeroed and are no longer to be zeroed. -/
theorem zeroed_ends {g : Nat} (gs : List Nat) (wf : s.mem.wf) (first : gs.head? = some g) (rests : ∀ p, granPart s g = some p → NoResume p s) :
    let t := gs.foldl (fun s g => zeroGranule g s) s
    zeroed gs s = { t with mem := { t.mem with toZero := s.mem.toZero.filter (fun g => !gs.contains g) } } := by
  obtain ⟨zeroes, -⟩ := zeroGranules_zeroes gs s wf
  dsimp only at zeroes ⊢
  unfold zeroed
  dsimp only
  generalize gs.foldl (fun s g => zeroGranule g s) s = t at zeroes ⊢
  rw [zeroes.toZero, first, Option.bind_some]
  generalize ended : ({ t with mem := { t.mem with toZero := s.mem.toZero.filter (fun g => !gs.contains g) } } : State) = u
  have part : granPart u g = granPart s g := granPart_keeps (by rw [← ended]; exact zeroes.banks) (by rw [← ended]; exact zeroes.chans) g
  rw [part]
  cases owner : granPart s g with
  | none => rfl
  | some p =>
    have parts : u.parts = s.parts := by
      obtain ⟨mem, is⟩ := zeroes.shape
      rw [← ended, is]
    exact tryArrive_rests (noResume_of_parts parts (rests p owner))

/-- What the end of zeroing shows. -/
theorem zeroed_shows {g : Nat} (gs : List Nat) (wf : s.mem.wf) (first : gs.head? = some g) (rests : ∀ p, granPart s g = some p → NoResume p s) :
    let t := zeroed gs s
    (∀ k ∈ gs, (t.granule k).zeroed = true ∧ t.mem.toZero.contains k = false) ∧ t.mem.banks = s.mem.banks ∧ t.mem.chans = s.mem.chans := by
  obtain ⟨zeroes, granules⟩ := zeroGranules_zeroes gs s wf
  have ends := zeroed_ends gs wf first rests
  dsimp only at zeroes granules ends ⊢
  rw [ends]
  refine ⟨fun k mem => ⟨granules k (.inl mem), ?_⟩, zeroes.banks, zeroes.chans⟩
  rw [List.contains_eq_mem, decide_eq_false_iff_not, List.mem_filter]
  exact fun still => by simp [List.contains_eq_mem, mem] at still

/-- The bytes of one zeroed granule. -/
theorem zeroed_bytes {g : Nat} (wf : s.mem.wf) (rests : ∀ p, granPart s g = some p → NoResume p s) (a : Nat) :
    (zeroed [g] s).mem.byte a = if granBase g ≤ a ∧ a < granBase g + granSize g then 0#8 else s.mem.byte a := by
  rw [zeroed_ends [g] wf rfl rests]
  exact Mem.byte_clear (m := (s.setGranule g { s.granule g with zeroed := true }).mem)
    (by obtain ⟨h1, h2, own, h4, h5, h6⟩ := wf; exact ⟨h1, h2, Tab.wf_set own g _, h4, h5, h6⟩) _ _ a

/-! ### The repair of rows (R354, R355) -/

/-- The state with a row no longer due, and its finding noted. -/
def rowNoted (pa : Nat) (s : State) : State :=
  let s := { s with mem := { s.mem with due := s.mem.due.filter (fun q => !(rowKey s q.pa == rowKey s pa)) } }
  addFinding (BitVec.ofNat 32 (rowData s pa)) s

theorem rowNoted_shape (pa : Nat) (s : State) : ∃ mgt, rowNoted pa s =
    { s with mem := { s.mem with due := s.mem.due.filter (fun q => !(rowKey s q.pa == rowKey s pa)) }, mgt := mgt } := ⟨_, rfl⟩

/-- The row replaced, its bad lines marked, or its granule fenced. -/
def rowReplaced (pa : Nat) (bad : List Nat) (part : Option Nat) (s : State) : State :=
  match replaceRow pa s with
  | some s => markLines bad (match paSpot s pa with | .hbm m _ _ => traceAt (106 + m) part s | _ => s)
  | none => fenceGranule pa s

/-- The partition of a row goes on where it waited. -/
def resumeFor (part : Option Nat) (s : State) : State :=
  match part with
  | some p => resumeArrival p s
  | none => s

theorem resumeFor_rests {part : Option Nat} (rests : ∀ p, part = some p → NoResume p s) : resumeFor part s = s := by
  cases part with
  | none => rfl
  | some p => exact tryArrive_rests (rests p rfl)

/-- A failing row that is due, whose partition does not run, is repaired. -/
theorem rowRepair_runs {pa : Nat} {bad : List Nat} {d : RowDue} (due : s.mem.due.find? (fun d => rowKey s d.pa == rowKey s pa) = some d)
    (stands : ∀ p, d.part = some p → (s.part p).active = false) :
    rowRepair pa bad s = resumeFor d.part (rowReplaced pa (bad.filter (fun l => rowKey s (l * 64) == rowKey s pa)) d.part (rowNoted pa s)) := by
  unfold rowRepair
  dsimp only
  rw [due]
  dsimp only
  rw [if_neg]
  · rfl
  · split
    · next p owner => simp [stands p owner]
    · decide

theorem rowKey_keeps (fitted : t.mem.stackTab = s.mem.stackTab) (pa : Nat) : rowKey t pa = rowKey s pa := by
  unfold rowKey paSpot State.stack
  rw [fitted]

/-- What every repair of a row leaves. -/
structure RowRepaired (pa : Nat) (s t : State) : Prop where
  due : ∀ q ∈ t.mem.due, rowKey s q.pa ≠ rowKey s pa
  bytes : t.mem.bytes = s.mem.bytes
  parts : t.parts = s.parts

/-- A replaced row: its bad lines are marked, and it is no longer due. -/
theorem markLines_repairs {pa : Nat} {bad : List Nat} {u : State} (wf : u.mem.wf) (due : u.mem.due = (rowNoted pa s).mem.due)
    (bytes : u.mem.bytes = s.mem.bytes) (parts : u.parts = s.parts) :
    RowRepaired pa s (markLines bad u) ∧ ∀ l ∈ bad, (markLines bad u).mem.bad l = true := by
  have kept : ∀ (ls : List Nat) (m : Mem), (ls.foldl (fun (m : Mem) l => m.mark l true) m).due = m.due ∧ (ls.foldl (fun (m : Mem) l => m.mark l true) m).bytes = m.bytes := by
    intro ls
    induction ls with
    | nil => exact fun m => ⟨rfl, rfl⟩
    | cons l ls ih => exact fun m => ih (m.mark l true)
  refine ⟨⟨fun q mem => ?_, ?_, parts⟩, fun l mem => ?_⟩
  · have there : q ∈ (bad.foldl (fun (m : Mem) l => m.mark l true) u.mem).due := mem
    rw [(kept bad u.mem).1, due] at there
    obtain ⟨mgt, noted⟩ := rowNoted_shape pa s
    rw [noted] at there
    have := (List.mem_filter.mp there).2
    simpa using this
  · exact (kept bad u.mem).2.trans bytes
  · show (bad.foldl (fun (m : Mem) l => m.mark l true) u.mem).bad l = true
    rw [Mem.bad_marks wf, List.contains_eq_mem, decide_eq_true mem, Bool.or_true]

theorem rowNoted_keeps (wf : s.mem.wf) (pa : Nat) : let u := rowNoted pa s
    u.mem.wf ∧ u.mem.stackTab = s.mem.stackTab ∧ u.mem.banks = s.mem.banks ∧ u.mem.chans = s.mem.chans ∧ u.mem.ppr = s.mem.ppr ∧ u.mem.own = s.mem.own ∧
      u.mem.bytes = s.mem.bytes ∧ u.parts = s.parts ∧ u.lcs = s.lcs ∧ u.flt = s.flt := by
  obtain ⟨mgt, noted⟩ := rowNoted_shape pa s
  dsimp only
  rw [noted]
  exact ⟨wf, rfl, rfl, rfl, rfl, rfl, rfl, rfl, rfl, rfl⟩

/-- A row of SRAM takes a spare row while its bank has one. -/
theorem rowReplaced_sram {pa b g : Nat} {bad : List Nat} {part : Option Nat} (wf : s.mem.wf) (spot : paSpot s pa = .sram b g) (spare : (s.bank b).spares ≠ 0)
    (life : lifeCycle s ≠ 4) :
    let t := rowReplaced pa bad part (rowNoted pa s)
    RowRepaired pa s t ∧ (∀ l ∈ bad, t.mem.bad l = true) ∧ (t.bank b).spares = (s.bank b).spares - 1 := by
  obtain ⟨uwf, fitted, banks, -, -, -, bytes, parts, lcs, -⟩ := rowNoted_keeps wf pa
  have same : paSpot (rowNoted pa s) pa = .sram b g := by
    unfold paSpot State.stack at *
    rw [fitted]
    exact spot
  have bank : (rowNoted pa s).bank b = s.bank b := by unfold State.bank; rw [banks]
  have alive : lifeCycle (rowNoted pa s) ≠ 4 := by unfold lifeCycle at *; rw [lcs]; exact life
  obtain ⟨u, isu⟩ : ∃ u : State, u = (rowNoted pa s).setBank b { s.bank b with spares := (s.bank b).spares - 1 } := ⟨_, rfl⟩
  have uspot : paSpot u pa = .sram b g := by rw [isu]; exact same
  have replaced : rowReplaced pa bad part (rowNoted pa s) = markLines bad u := by
    unfold rowReplaced replaceRow
    rw [if_neg alive, same]
    dsimp only
    rw [bank, if_neg spare]
    dsimp only
    rw [← isu, uspot]
  have wfu : u.mem.wf := by
    obtain ⟨h1, h2, h3, h4, h5, h6⟩ := uwf
    rw [isu]
    exact ⟨h1, h2, h3, Tab.wf_set h4 b _, h5, h6⟩
  obtain ⟨repaired, marked⟩ := markLines_repairs (pa := pa) (s := s) (bad := bad) wfu (by rw [isu]; rfl) (by rw [isu]; exact bytes) (by rw [isu]; exact parts)
  dsimp only
  rw [replaced]
  refine ⟨repaired, marked, ?_⟩
  have shown : (markLines bad u).bank b = u.bank b := by
    have kept : ∀ (ls : List Nat) (m : Mem), (ls.foldl (fun (m : Mem) l => m.mark l true) m).banks = m.banks := by
      intro ls
      induction ls with
      | nil => exact fun m => rfl
      | cons l ls ih => exact fun m => ih (m.mark l true)
    show Tab.get {} (bad.foldl (fun (m : Mem) l => m.mark l true) u.mem).banks b = _
    rw [kept]
    rfl
  obtain ⟨-, -, -, h4, -, -⟩ := uwf
  rw [shown, isu, State.bank_setBank h4]

/-- A row of HBM takes a soft repair while its bank has one. -/
theorem rowReplaced_hbm {pa m ch g : Nat} {bad : List Nat} {part : Option Nat} (wf : s.mem.wf) (spot : paSpot s pa = .hbm m ch g)
    (left : Tab.get 0 s.mem.ppr (pprKey m ch pa) < 1 + Config.pprExtra (pprKey m ch pa)) (life : lifeCycle s ≠ 4) :
    let t := rowReplaced pa bad part (rowNoted pa s)
    RowRepaired pa s t ∧ (∀ l ∈ bad, t.mem.bad l = true) ∧ (t.chan (m * 32 + ch)).soft = satInc (s.chan (m * 32 + ch)).soft ∧
      Tab.get 0 t.mem.ppr (pprKey m ch pa) = Tab.get 0 s.mem.ppr (pprKey m ch pa) + 1 := by
  obtain ⟨uwf, fitted, -, chans, ppr, -, bytes, parts, lcs, -⟩ := rowNoted_keeps wf pa
  have same : paSpot (rowNoted pa s) pa = .hbm m ch g := by
    unfold paSpot State.stack at *
    rw [fitted]
    exact spot
  have chan : (rowNoted pa s).chan (m * 32 + ch) = s.chan (m * 32 + ch) := by unfold State.chan; rw [chans]
  have alive : lifeCycle (rowNoted pa s) ≠ 4 := by unfold lifeCycle at *; rw [lcs]; exact life
  obtain ⟨v, isv⟩ : ∃ v : State, v = (rowNoted pa s).setChan (m * 32 + ch) { s.chan (m * 32 + ch) with soft := satInc (s.chan (m * 32 + ch)).soft } := ⟨_, rfl⟩
  obtain ⟨w, isw⟩ : ∃ w : State, w = { v with mem := { v.mem with ppr := Tab.set 0 s.mem.ppr (pprKey m ch pa) (Tab.get 0 s.mem.ppr (pprKey m ch pa) + 1) } } := ⟨_, rfl⟩
  have wspot : paSpot w pa = .hbm m ch g := by rw [isw, isv]; exact same
  obtain ⟨u, isu⟩ : ∃ u : State, u = traceAt (106 + m) part w := ⟨_, rfl⟩
  have umem : u.mem = w.mem ∧ u.parts = w.parts := by
    obtain ⟨_, _, e⟩ := traceAt_shape (106 + m) part w
    rw [isu, e]
    exact ⟨rfl, rfl⟩
  have replaced : rowReplaced pa bad part (rowNoted pa s) = markLines bad u := by
    unfold rowReplaced replaceRow
    rw [if_neg alive, same]
    dsimp only
    rw [ppr, if_pos left, chan]
    dsimp only
    rw [← isv]
    have vppr : v.mem.ppr = s.mem.ppr := by rw [isv]; exact ppr
    rw [vppr, ← isw, wspot, isu]
  have wfu : u.mem.wf := by
    obtain ⟨h1, h2, h3, h4, h5, h6⟩ := uwf
    rw [umem.1, isw, isv]
    exact ⟨h1, h2, h3, h4, Tab.wf_set h5 _ _, h6⟩
  obtain ⟨repaired, marked⟩ := markLines_repairs (pa := pa) (s := s) (bad := bad) wfu (by rw [umem.1, isw, isv]; rfl) (by rw [umem.1, isw, isv]; exact bytes)
    (by rw [umem.2, isw, isv]; exact parts)
  have kept : ∀ (ls : List Nat) (m : Mem), (ls.foldl (fun (m : Mem) l => m.mark l true) m).chans = m.chans ∧ (ls.foldl (fun (m : Mem) l => m.mark l true) m).ppr = m.ppr := by
    intro ls
    induction ls with
    | nil => exact fun m => ⟨rfl, rfl⟩
    | cons l ls ih => exact fun m => ih (m.mark l true)
  obtain ⟨-, -, -, -, h5, -⟩ := uwf
  have shownChan : (markLines bad u).chan (m * 32 + ch) = { s.chan (m * 32 + ch) with soft := satInc (s.chan (m * 32 + ch)).soft } := by
    show Tab.get {} (bad.foldl (fun (m : Mem) l => m.mark l true) u.mem).chans (m * 32 + ch) = _
    rw [(kept bad u.mem).1, umem.1, isw, isv]
    exact Tab.get_set_same h5 _ _
  have shownPpr : (markLines bad u).mem.ppr = Tab.set 0 s.mem.ppr (pprKey m ch pa) (Tab.get 0 s.mem.ppr (pprKey m ch pa) + 1) := by
    refine (kept bad u.mem).2.trans ?_
    rw [umem.1, isw]
  dsimp only
  rw [replaced]
  refine ⟨repaired, marked, by rw [shownChan], ?_⟩
  rw [shownPpr]
  unfold Tab.set
  rw [if_neg (Nat.succ_ne_zero _)]
  exact Tab.get_put_same 0 _ _ _

/-- The mark of a partition's next ARRIVE leaves its work. -/
theorem markFence_rests {ps : List Nat} {s : State} (parts : Tab.wf {} s.parts = true) (p : Nat) (rests : NoResume p s) : NoResume p (markFence ps s) := by
  unfold markFence
  induction ps generalizing s with
  | nil => exact rests
  | cons q ps ih =>
    rw [List.foldl_cons]
    by_cases runs : (s.part q).active = true
    · rw [if_pos runs]
      refine ih (Tab.wf_set parts _ _) ?_
      unfold markFlag State.modPart
      unfold NoResume at *
      by_cases here : p = q
      · subst here
        rw [State.part_setPart parts]
        exact rests
      · rw [State.part_setPart_other parts here]
        exact rests
    · rw [if_neg runs]
      exact ih parts rests

/-- A fenced granule of SRAM: its fault bit is set, and the partition that owns it is told. -/
theorem fenceGranule_fences {pa : Nat} {s : State} (wf : s.mem.wf) (parts : Tab.wf {} s.parts = true) (groups : Groups s) (low : granAt s pa < 5120)
    (calm : Calm (granGroup (granAt s pa)) s) :
    let t := fenceGranule pa s
    (t.granule (granAt s pa)).fenced = true ∧ FaultSet (granGroup (granAt s pa)) 5 t ∧ t.mem.due = s.mem.due ∧ ∀ p, NoResume p s → NoResume p t := by
  unfold fenceGranule
  dsimp only
  generalize granAt s pa = g at low calm ⊢
  rw [if_pos low]
  obtain ⟨h1, h2, own, h4, h5, h6⟩ := wf
  obtain ⟨u, isu⟩ : ∃ u : State, u = s.setGranule g { s.granule g with fenced := true } := ⟨_, rfl⟩
  have fenced : (u.granule g).fenced = true := by rw [isu, State.granule_setGranule own]
  have uparts : u.parts = s.parts := by rw [isu]; rfl
  have uflt : u.flt = s.flt := by rw [isu]; rfl
  have udue : u.mem.due = s.mem.due := by rw [isu]; rfl
  rw [← isu]
  suffices raised : ∀ v : State, v.mem = u.mem → v.flt = u.flt → (∀ p, NoResume p u → NoResume p v) →
      ((raise (granGroup g) 5 pa v).granule g).fenced = true ∧ FaultSet (granGroup g) 5 (raise (granGroup g) 5 pa v) ∧
        (raise (granGroup g) 5 pa v).mem.due = s.mem.due ∧ ∀ p, NoResume p s → NoResume p (raise (granGroup g) 5 pa v) by
    cases granPart u g with
    | none => exact raised u rfl rfl fun _ h => h
    | some q =>
      obtain ⟨_, e⟩ := markFence_shape [q] u
      exact raised (markFence [q] u) (by rw [e]) (by rw [e]) fun p h => markFence_rests (uparts ▸ parts) p h
  intro v vmem vflt rests
  have vgroups : Groups v := groups_of_flt (vflt.trans uflt) groups
  have vcalm : Calm (granGroup g) v := calm_keeps (vflt.trans uflt) calm
  have mem : (raise (granGroup g) 5 pa v).mem = u.mem := (Laws.raise_calm_mem vgroups vcalm).trans vmem
  refine ⟨?_, Laws.raise_sets vgroups (by decide), by rw [mem, udue], fun p h => ?_⟩
  · unfold State.granule
    rw [mem]
    exact fenced
  · exact noResume_of_parts (Laws.raise_calm_parts vgroups vcalm) (rests p (noResume_of_parts uparts h))

/-- A row of SRAM without a spare row, or of a SCRAPPED hub: its granule is fenced. -/
theorem rowReplaced_fences {pa b g : Nat} {bad : List Nat} {part : Option Nat} (wf : s.mem.wf) (parts : Tab.wf {} s.parts = true) (groups : Groups s)
    (spot : paSpot s pa = .sram b g) (none_ : (s.bank b).spares = 0 ∨ lifeCycle s = 4) (calm : Calm (granGroup (granOf (.sram b g))) s) :
    let t := rowReplaced pa bad part (rowNoted pa s)
    (t.granule (granOf (.sram b g))).fenced = true ∧ FaultSet (granGroup (granOf (.sram b g))) 5 t ∧ (∀ q ∈ t.mem.due, rowKey s q.pa ≠ rowKey s pa) ∧
      ∀ p, NoResume p s → NoResume p t := by
  obtain ⟨uwf, fitted, banks, -, -, own, -, uparts, lcs, flt⟩ := rowNoted_keeps wf pa
  have same : paSpot (rowNoted pa s) pa = .sram b g := by
    unfold paSpot State.stack at *
    rw [fitted]
    exact spot
  have bank : (rowNoted pa s).bank b = s.bank b := by unfold State.bank; rw [banks]
  obtain ⟨blt, glt⟩ := paSpot_sram spot
  have low : granOf (.sram b g) < 5120 := by unfold granOf; dsimp only; omega
  have notReplaced : replaceRow pa (rowNoted pa s) = none := by
    unfold replaceRow
    by_cases scrapped : lifeCycle (rowNoted pa s) = 4
    · rw [if_pos scrapped]
    · have alive : lifeCycle s ≠ 4 := fun is => scrapped (by unfold lifeCycle at *; rw [lcs]; exact is)
      rw [if_neg scrapped, same]
      dsimp only
      rw [bank, if_pos (none_.resolve_right alive)]
  have at_ : granAt (rowNoted pa s) pa = granOf (.sram b g) := congrArg granOf same
  have uparts' : Tab.wf {} (rowNoted pa s).parts = true := by rw [uparts]; exact parts
  obtain ⟨fenced, fault, due, rests⟩ :=
    fenceGranule_fences (pa := pa) uwf uparts' (groups_of_flt flt groups) (at_.symm ▸ low) (calm_keeps flt (at_.symm ▸ calm))
  dsimp only
  unfold rowReplaced
  rw [notReplaced]
  dsimp only
  rw [← at_]
  refine ⟨fenced, fault, fun q there => ?_, fun p h => rests p (noResume_of_parts uparts h)⟩
  rw [due] at there
  obtain ⟨mgt, noted⟩ := rowNoted_shape pa s
  rw [noted] at there
  simpa using (List.mem_filter.mp there).2

end Sys2Proof.Machine
end


section
/-! SUPPORT. Recalibration, the ends of zeroing, and O35 (R343 to R355). -/
namespace Sys2Proof.Machine
open Sys2Proof Sys2Proof.Safety

/-! ### Fences of a channel and of a bank at their owner's proof -/

/-- The fence of a channel in service: at its owner's next proof where the owner runs, and at once otherwise. -/
theorem requestChanFence_fences {c : Nat} {s : State} (wf : s.mem.wf) (up : (s.chan c).fenced = false) :
    (requestChanFence c s).flt = s.flt ∧ (requestChanFence c s).chan c =
      if ownerActive s (s.chan c).owner then { s.chan c with fencePend := true } else { s.chan c with fenced := true, zeroing := false, fencePend := false } := by
  obtain ⟨-, -, -, -, chans, -⟩ := wf
  unfold requestChanFence
  dsimp only
  rw [if_neg (by rw [up]; decide)]
  by_cases active : ownerActive s (s.chan c).owner = true
  · rw [if_pos active, if_pos active]
    exact ⟨rfl, State.chan_setChan chans c _⟩
  · rw [if_neg active, if_neg active]
    exact ⟨rfl, State.chan_setChan chans c _⟩

/-- The fence of a bank in service, in the same way. -/
theorem requestBankFence_fences {b : Nat} {s : State} (wf : s.mem.wf) (up : (s.bank b).fenced = false) :
    (requestBankFence b s).flt = s.flt ∧
      (requestBankFence b s).bank b = if ownerActive s (s.bank b).owner then { s.bank b with fencePend := true }
        else { s.bank b with fenced := true, zeroing := false, test := false, fencePend := false } := by
  obtain ⟨-, -, -, banks, -, -⟩ := wf
  unfold requestBankFence
  dsimp only
  rw [if_neg (by rw [up]; decide)]
  by_cases active : ownerActive s (s.bank b).owner = true
  · rw [if_pos active, if_pos active]
    exact ⟨rfl, State.bank_setBank banks b _⟩
  · rw [if_neg active, if_neg active]
    exact ⟨rfl, State.bank_setBank banks b _⟩

/-! ### Recalibration (R346, R347) -/

/-- A channel at a powered position that is trained, or is being re-admitted. -/
theorem hbmRecalibration_trains {m ch : Nat} {s : State} (wf : s.mem.wf) (powered : (s.stack m).powered = true) :
    ((s.chan (m * 32 + ch)).readmPend = true → (hbmRecalibration m ch true s).mem.bytes = s.mem.bytes ∧
      (hbmRecalibration m ch true s).chan (m * 32 + ch) =
        { s.chan (m * 32 + ch) with fenced := false, readmPend := false, trained := true, zeroing := true }) ∧
    ((s.chan (m * 32 + ch)).fenced = false → (s.chan (m * 32 + ch)).readmPend = false → (hbmRecalibration m ch true s).mem.bytes = s.mem.bytes ∧
      (hbmRecalibration m ch true s).chan (m * 32 + ch) = { s.chan (m * 32 + ch) with trained := true }) := by
  obtain ⟨-, -, -, -, chans, -⟩ := wf
  unfold hbmRecalibration
  dsimp only
  refine ⟨fun back => ?_, fun up rests => ?_⟩
  · rw [if_neg (by rw [back, powered]; simp), if_neg (by decide), if_pos back]
    exact ⟨rfl, State.chan_setChan chans _ _⟩
  · rw [if_neg (by rw [up, powered]; simp), if_neg (by decide), if_neg (by rw [rests]; decide)]
    exact ⟨rfl, State.chan_setChan chans _ _⟩

/-- A channel that fails its training, in service or being re-admitted. -/
theorem hbmRecalibration_fails {m ch : Nat} {s : State} (wf : s.mem.wf) (groups : Groups s) (powered : (s.stack m).powered = true)
    (used : (s.chan (m * 32 + ch)).fenced = false ∨ (s.chan (m * 32 + ch)).readmPend = true) (calm : Calm (17 + m) s) :
    let t := hbmRecalibration m ch false s
    FaultSet (17 + m) 4 t ∧ (t.chan (m * 32 + ch)).trained = false ∧ (t.chan (m * 32 + ch)).readmPend = false ∧
      ((s.chan (m * 32 + ch)).fenced = false →
        if ownerActive s (s.chan (m * 32 + ch)).owner then (t.chan (m * 32 + ch)).fencePend = true else (t.chan (m * 32 + ch)).fenced = true) := by
  unfold hbmRecalibration
  dsimp only
  rw [if_neg (by obtain up | back := used <;> simp [*]), if_pos (by decide)]
  generalize at_ : m * 32 + ch = c at used ⊢
  obtain ⟨u, isu⟩ : ∃ u : State, u = s.setChan c { s.chan c with readmPend := false, trained := false } := ⟨_, rfl⟩
  obtain ⟨h1, h2, h3, h4, chans, h6⟩ := wf
  have chan : u.chan c = { s.chan c with readmPend := false, trained := false } := by rw [isu, State.chan_setChan chans]
  have uwf : u.mem.wf := by rw [isu]; exact ⟨h1, h2, h3, h4, Tab.wf_set chans c _, h6⟩
  have uflt : u.flt = s.flt := by rw [isu]; rfl
  have active : ownerActive u (s.chan c).owner = ownerActive s (s.chan c).owner := by rw [isu]; rfl
  rw [← isu]
  by_cases up : (s.chan c).fenced = true
  · rw [if_pos up]
    have ugroups : Groups u := groups_of_flt uflt groups
    have shown : (raise (17 + m) 4 ch u).chan c = u.chan c := by
      unfold State.chan
      rw [Laws.raise_calm_mem ugroups (calm_keeps uflt calm)]
    rw [shown, chan]
    exact ⟨Laws.raise_sets ugroups (by decide), rfl, rfl, fun no => absurd up (by rw [no]; decide)⟩
  · rw [if_neg up]
    have up : (s.chan c).fenced = false := by simpa using up
    obtain ⟨flt, fences⟩ := requestChanFence_fences uwf (c := c) (by rw [chan]; exact up)
    generalize requestChanFence c u = v at flt fences ⊢
    rw [chan, active] at fences
    have vgroups : Groups v := groups_of_flt (flt.trans uflt) groups
    have shown : (raise (17 + m) 4 ch v).chan c = v.chan c := by
      unfold State.chan
      rw [Laws.raise_calm_mem vgroups (calm_keeps (flt.trans uflt) calm)]
    rw [shown, fences]
    refine ⟨Laws.raise_sets vgroups (by decide), ?_⟩
    by_cases runs : ownerActive s (s.chan c).owner = true
    · rw [if_pos runs, if_pos runs]
      exact ⟨rfl, rfl, fun _ => rfl⟩
    · rw [if_neg runs, if_neg runs]
      exact ⟨rfl, rfl, fun _ => rfl⟩

/-! ### The ends of zeroing (R348, R349) -/

/-- The end of a granule's zeroing. -/
theorem zeroingDone_granule {g : Nat} {s : State} (going : s.mem.toZero.contains g = true) (none_ : s.mem.due = []) (ok : Bool) :
    zeroingDone (.granule g) ok s = if ok then zeroed [g] s else raise (granGroup g) (if g < 5120 then 6 else 7) (granBase g) s := by
  unfold zeroingDone
  dsimp only
  rw [none_, going]
  rfl

/-- The end of a bank's zeroing. -/
theorem zeroingDone_bank {b : Fin 64} {s : State} (going : (s.bank b.val).zeroing = true) (up : (s.bank b.val).fenced = false) (none_ : s.mem.due = [])
    (ok : Bool) : zeroingDone (.bank b) ok s = if ok then zeroed (bankGrans b.val) (s.setBank b.val { s.bank b.val with zeroing := false, test := false })
      else raise 23 6 (granBase (b.val * 80)) (if (s.bank b.val).test then requestBankFence b.val s else s) := by
  have low : b.val * 80 < 5120 := by have := b.isLt; omega
  unfold zeroingDone granGroup
  dsimp only
  rw [none_, going, up, if_pos low, if_pos low]
  cases ok <;> rfl

/-- The end of a channel's zeroing. -/
theorem zeroingDone_chan {m : Fin 6} {ch : Fin 32} {s : State} (going : (s.chan (m.val * 32 + ch.val)).zeroing = true)
    (up : (s.chan (m.val * 32 + ch.val)).fenced = false) (none_ : s.mem.due = []) :
    zeroingDone (.chan m ch) true s =
      zeroed (chanGrans (m.val * 32 + ch.val)) (s.setChan (m.val * 32 + ch.val) { s.chan (m.val * 32 + ch.val) with zeroing := false }) := by
  unfold zeroingDone
  dsimp only
  rw [none_, going, up, if_neg (by simp), if_neg (by decide)]

/-- A bank whose zeroing failed: its fault bit, and its fence where it was being re-admitted. -/
theorem bankZeroFails {b unit : Nat} {s : State} (wf : s.mem.wf) (groups : Groups s) (up : (s.bank b).fenced = false) (calm : Calm 23 s) :
    let t := raise 23 6 unit (if (s.bank b).test then requestBankFence b s else s)
    FaultSet 23 6 t ∧ ((s.bank b).test = true → ownerActive s (s.bank b).owner = false → (t.bank b).fenced = true) := by
  dsimp only
  by_cases tested : (s.bank b).test = true
  · rw [if_pos tested]
    obtain ⟨flt, fences⟩ := requestBankFence_fences wf up
    generalize requestBankFence b s = v at flt fences ⊢
    have vgroups : Groups v := groups_of_flt flt groups
    refine ⟨Laws.raise_sets vgroups (by decide), fun _ rests => ?_⟩
    unfold State.bank at *
    rw [Laws.raise_calm_mem vgroups (calm_keeps flt calm), fences, if_neg (by rw [rests]; decide)]
  · rw [if_neg tested]
    exact ⟨Laws.raise_sets groups (by decide), fun is => absurd is tested⟩

end Sys2Proof.Machine

namespace Sys2Proof.Proofs
open Sys2Proof Sys2Proof.Machine Sys2Proof.Safety

theorem hbmScrub_upkeep (m : Fin 6) (found : List (Nat × Ecc)) (s : State) (canon : Canon s) (clean : (s.grp (17 + m.val)).inject = 0) :
    ((∀ f ∈ found, f.2 ≠ .uncorrectable) → ∃ t, exec (.hbmScrub m found) s = .next t ∧ t.mem.bytes = s.mem.bytes ∧ t.mem.poison = s.mem.poison) ∧
    (Logs (17 + m.val) s → ∃ t, exec (.hbmScrub m found) s = .next t ∧ t.mem.bytes = s.mem.bytes ∧
      (bits (s.reg (0x200004 + m.val * 0x10000) 0x18#32).toNat 0 8 ≠ 0 → ∀ pa ch g, (pa, Ecc.uncorrectable) ∈ found → paSpot s pa = .hbm m.val ch g →
        granUp s (granOf (.hbm m.val ch g)) = true → t.mem.bad (pa / 64) = true)) ∧
    (∀ pa ch g, found = [(pa, .uncorrectable)] → bits (s.reg (0x200004 + m.val * 0x10000) 0x18#32).toNat 0 8 ≠ 0 →
      paSpot s pa = .hbm m.val ch g → granUp s (granOf (.hbm m.val ch g)) = true → Calm (granGroup (granOf (.hbm m.val ch g))) s →
      ∃ t, exec (.hbmScrub m found) s = .next t ∧ t.mem.bad (pa / 64) = true ∧ t.mem.bytes = s.mem.bytes ∧
        FaultSet (granGroup (granOf (.hbm m.val ch g))) 1 t) := by
  have groups := groups_of_canon canon
  obtain ⟨wf, -⟩ := canon
  have place := hbmAt_place m.val
  have here : ∀ pa ch g, paSpot s pa = .hbm m.val ch g → granUp s (granOf (.hbm m.val ch g)) = true →
      hbmAt m.val s pa = some (granOf (.hbm m.val ch g)) := by
    intro pa ch g spot up
    unfold hbmAt
    rw [spot]
    exact if_pos ⟨rfl, up⟩
  by_cases off : bits (s.reg (0x200004 + m.val * 0x10000) 0x18#32).toNat 0 8 = 0
  · have same : hbmScrub m.val found s = s := by unfold hbmScrub; exact if_pos off
    exact ⟨fun _ => ⟨_, rfl, by rw [same], by rw [same]⟩, fun _ => ⟨_, rfl, by rw [same], fun on => absurd off on⟩, fun _ _ _ _ on => absurd off on⟩
  · have steps := hbmScrub_steps off found
    refine ⟨fun fine => ⟨_, rfl, ?_⟩, fun logs => ⟨_, rfl, ?_⟩, fun pa ch g one _ spot up calm => ⟨_, rfl, ?_⟩⟩
    · rw [steps]
      exact scrub_corrects place found s wf clean fine
    · obtain ⟨bytes, -, bad⟩ := scrub_marks place found s ⟨wf, groups, logs, clean⟩
      rw [steps]
      exact ⟨bytes, fun _ pa ch g there spot up => bad pa _ there (here pa ch g spot up)⟩
    · subst one
      rw [steps]
      exact scrub_one place (here pa ch g spot up) wf groups clean calm

theorem sramScrub_upkeep (found : List (Nat × Ecc)) (s : State) (canon : Canon s) (clean : (s.grp 23).inject = 0) :
    ((∀ f ∈ found, f.2 ≠ .uncorrectable) → ∃ t, exec (.sramScrub found) s = .next t ∧ t.mem.bytes = s.mem.bytes ∧ t.mem.poison = s.mem.poison) ∧
    (Logs 23 s → ∃ t, exec (.sramScrub found) s = .next t ∧ t.mem.bytes = s.mem.bytes ∧
      ∀ pa b g, (pa, Ecc.uncorrectable) ∈ found → paSpot s pa = .sram b g → (s.bank b).fenced = false → t.mem.bad (pa / 64) = true) ∧
    (∀ pa b g, found = [(pa, .uncorrectable)] → paSpot s pa = .sram b g → (s.bank b).fenced = false → Calm (granGroup (granOf (.sram b g))) s →
      ∃ t, exec (.sramScrub found) s = .next t ∧ t.mem.bad (pa / 64) = true ∧ t.mem.bytes = s.mem.bytes ∧
        FaultSet (granGroup (granOf (.sram b g))) 1 t) := by
  have groups := groups_of_canon canon
  obtain ⟨wf, -⟩ := canon
  have here : ∀ pa b g, paSpot s pa = .sram b g → (s.bank b).fenced = false → sramAt s pa = some (granOf (.sram b g)) := by
    intro pa b g spot up
    unfold sramAt
    rw [spot]
    exact if_neg (by rw [up]; decide)
  have steps := sramScrub_steps (s := s) found
  refine ⟨fun fine => ⟨_, rfl, ?_⟩, fun logs => ⟨_, rfl, ?_⟩, fun pa b g one spot up calm => ⟨_, rfl, ?_⟩⟩
  · rw [steps]
    exact scrub_corrects sramAt_place found s wf clean fine
  · obtain ⟨bytes, -, bad⟩ := scrub_marks sramAt_place found s ⟨wf, groups, logs, clean⟩
    rw [steps]
    exact ⟨bytes, fun pa b g there spot up => bad pa _ there (here pa b g spot up)⟩
  · subst one
    rw [steps]
    exact scrub_one sramAt_place (here pa b g spot up) wf groups clean calm

theorem rowRepair_upkeep (pa : Nat) (bad : List Nat) (s : State) (d : RowDue) (canon : Canon s)
    (due : s.mem.due.find? (fun d => rowKey s d.pa == rowKey s pa) = some d) (stands : ∀ p, d.part = some p → (s.part p).active = false ∧ NoResume p s) :
    (∀ b g, paSpot s pa = .sram b g → (s.bank b).spares ≠ 0 → lifeCycle s ≠ 4 → ∃ t, exec (.rowRepair pa bad) s = .next t ∧
      (t.bank b).spares = (s.bank b).spares - 1 ∧ (∀ q ∈ t.mem.due, rowKey s q.pa ≠ rowKey s pa) ∧ t.mem.bytes = s.mem.bytes ∧
      (∀ l ∈ bad, rowKey s (l * 64) = rowKey s pa → t.mem.bad l = true)) ∧
    (∀ m ch g, paSpot s pa = .hbm m ch g → Tab.get 0 s.mem.ppr (pprKey m ch pa) < 1 + Config.pprExtra (pprKey m ch pa) → lifeCycle s ≠ 4 →
      ∃ t, exec (.rowRepair pa bad) s = .next t ∧ (t.chan (m * 32 + ch)).soft = satInc (s.chan (m * 32 + ch)).soft ∧
        Tab.get 0 t.mem.ppr (pprKey m ch pa) = Tab.get 0 s.mem.ppr (pprKey m ch pa) + 1 ∧
        (∀ q ∈ t.mem.due, rowKey s q.pa ≠ rowKey s pa) ∧ t.mem.bytes = s.mem.bytes ∧
        (∀ l ∈ bad, rowKey s (l * 64) = rowKey s pa → t.mem.bad l = true)) ∧
    (∀ b g, paSpot s pa = .sram b g → (s.bank b).spares = 0 ∨ lifeCycle s = 4 → Calm (granGroup (granOf (.sram b g))) s →
      ∃ t, exec (.rowRepair pa bad) s = .next t ∧ (t.granule (granOf (.sram b g))).fenced = true ∧
        FaultSet (granGroup (granOf (.sram b g))) 5 t ∧ (∀ q ∈ t.mem.due, rowKey s q.pa ≠ rowKey s pa)) := by
  have groups := groups_of_canon canon
  obtain ⟨wf, parts, -⟩ := canon
  have runs := rowRepair_runs (bad := bad) due fun p owner => (stands p owner).1
  have listed : ∀ l ∈ bad, rowKey s (l * 64) = rowKey s pa → l ∈ bad.filter (fun l => rowKey s (l * 64) == rowKey s pa) :=
    fun l there row => List.mem_filter.mpr ⟨there, by simp [row]⟩
  generalize bad.filter (fun l => rowKey s (l * 64) == rowKey s pa) = lines at runs listed
  have done : ∀ t : State, t.parts = s.parts → resumeFor d.part t = t :=
    fun t same => resumeFor_rests fun p owner => noResume_of_parts same (stands p owner).2
  refine ⟨fun b g spot spare life => ⟨_, rfl, ?_⟩, fun m ch g spot left life => ⟨_, rfl, ?_⟩, fun b g spot none_ calm => ⟨_, rfl, ?_⟩⟩
  · obtain ⟨repaired, marked, spares⟩ := rowReplaced_sram (bad := lines) (part := d.part) wf spot spare life
    rw [runs, done _ repaired.parts]
    unfold State.bank at *
    rw [refresh_mem]
    exact ⟨spares, repaired.due, repaired.bytes, fun l there row => marked l (listed l there row)⟩
  · obtain ⟨repaired, marked, soft, ppr⟩ := rowReplaced_hbm (bad := lines) (part := d.part) wf spot left life
    rw [runs, done _ repaired.parts]
    unfold State.chan at *
    rw [refresh_mem]
    exact ⟨soft, ppr, repaired.due, repaired.bytes, fun l there row => marked l (listed l there row)⟩
  · obtain ⟨fenced, fault, gone, rests⟩ := rowReplaced_fences (bad := lines) (part := d.part) wf parts groups spot none_ calm
    rw [runs, resumeFor_rests fun p owner => rests p (stands p owner).2]
    refine ⟨?_, faultSet_keeps (refresh_groups _) fault, ?_⟩
    · unfold State.granule at *
      rw [refresh_mem]
      exact fenced
    · rw [refresh_mem]
      exact gone

/-- Settles O35: scrub corrects or marks each line it found, and recalibration, the ends of zeroing and the repair of rows each run the one
branch that their conditions select. -/
theorem memoryUpkeep : Obligations.MemoryUpkeep := by
  unfold Obligations.MemoryUpkeep
  refine ⟨hbmScrub_upkeep, sramScrub_upkeep, fun m ch s canon => ?_, fun g s canon going none_ => ?_, fun b s canon going up none_ rests => ?_,
    fun b s canon going up none_ calm => ?_, fun m ch s canon going up none_ rests => ?_, rowRepair_upkeep⟩
  · intro c powered
    have groups := groups_of_canon canon
    obtain ⟨wf, -⟩ := canon
    obtain ⟨back, stays⟩ := hbmRecalibration_trains (ch := ch.val) wf powered
    refine ⟨fun pend => ⟨_, rfl, ?_⟩, fun up no => ⟨_, rfl, ?_⟩, fun used calm => ⟨_, rfl, ?_⟩⟩
    · unfold State.chan at *
      rw [refresh_mem]
      exact back pend
    · unfold State.chan at *
      rw [refresh_mem]
      exact stays up no
    · obtain ⟨fault, rest⟩ := hbmRecalibration_fails (ch := ch.val) wf groups powered used calm
      refine ⟨faultSet_keeps (refresh_groups _) fault, ?_⟩
      unfold State.chan at *
      rw [refresh_mem]
      exact rest
  · have groups := groups_of_canon canon
    obtain ⟨wf, -⟩ := canon
    refine ⟨fun rests => ⟨_, rfl, ?_⟩, fun calm => ⟨_, rfl, ?_⟩⟩
    · obtain ⟨shows, -⟩ := zeroed_shows [g] wf rfl rests
      obtain ⟨zero, gone⟩ := shows g List.mem_cons_self
      rw [zeroingDone_granule going none_, if_pos rfl]
      unfold State.granule at *
      rw [refresh_mem]
      refine ⟨zero, gone, fun a low high => ?_, fun a out => ?_⟩
      · rw [zeroed_bytes wf rests, if_pos ⟨low, high⟩]
      · rw [zeroed_bytes wf rests, if_neg (by omega)]
    · rw [zeroingDone_granule going none_, if_neg Bool.false_ne_true]
      refine ⟨faultSet_keeps (refresh_groups _) (Laws.raise_sets groups (by split <;> decide)), ?_⟩
      rw [refresh_mem, Laws.raise_calm_mem groups calm]
  · obtain ⟨wf, -⟩ := canon
    obtain ⟨h1, h2, h3, banks, h5, h6⟩ := wf
    refine ⟨_, rfl, ?_⟩
    rw [zeroingDone_bank going up none_, if_pos rfl]
    obtain ⟨u, isu⟩ : ∃ u : State, u = s.setBank b.val { s.bank b.val with zeroing := false, test := false } := ⟨_, rfl⟩
    have own : u.bank b.val = { s.bank b.val with zeroing := false, test := false } := by rw [isu, State.bank_setBank banks]
    have uwf : u.mem.wf := by rw [isu]; exact ⟨h1, h2, h3, Tab.wf_set banks _ _, h5, h6⟩
    have uparts : u.parts = s.parts := by rw [isu]; rfl
    rw [← isu]
    have owner : ∀ p, granPart u (0 + b.val * 80) = some p → NoResume p u := by
      intro p is
      refine noResume_of_parts uparts (rests p ?_)
      unfold granPart at is
      rw [if_pos (by have := b.isLt; omega), show (0 + b.val * 80) / 80 = b.val by omega, own] at is
      exact is
    obtain ⟨shows, keptBanks, -⟩ := zeroed_shows (bankGrans b.val) uwf rfl owner
    unfold State.granule State.bank at *
    rw [refresh_mem]
    refine ⟨by rw [keptBanks, own], fun k low => ?_⟩
    refine shows (b.val * 80 + k) ?_
    unfold bankGrans
    exact List.mem_map.mpr ⟨k, List.mem_range.mpr low, Nat.add_comm _ _⟩
  · have groups := groups_of_canon canon
    obtain ⟨wf, -⟩ := canon
    refine ⟨_, rfl, ?_⟩
    rw [zeroingDone_bank going up none_, if_neg (by decide)]
    obtain ⟨fault, fences⟩ := bankZeroFails (unit := granBase (b.val * 80)) wf groups up calm
    refine ⟨faultSet_keeps (refresh_groups _) fault, ?_⟩
    unfold State.bank at *
    rw [refresh_mem]
    exact fences
  · obtain ⟨wf, -⟩ := canon
    obtain ⟨h1, h2, h3, h4, chans, h6⟩ := wf
    refine ⟨_, rfl, ?_⟩
    rw [zeroingDone_chan going up none_]
    generalize at_ : m.val * 32 + ch.val = c at going up rests ⊢
    obtain ⟨u, isu⟩ : ∃ u : State, u = s.setChan c { s.chan c with zeroing := false } := ⟨_, rfl⟩
    have own : u.chan c = { s.chan c with zeroing := false } := by rw [isu, State.chan_setChan chans]
    have uwf : u.mem.wf := by rw [isu]; exact ⟨h1, h2, h3, h4, Tab.wf_set chans _ _, h6⟩
    have uparts : u.parts = s.parts := by rw [isu]; rfl
    rw [← isu]
    have owner : ∀ p, granPart u (0 + (5120 + c * 1024)) = some p → NoResume p u := by
      intro p is
      refine noResume_of_parts uparts (rests p ?_)
      unfold granPart at is
      rw [if_neg (by omega), show (0 + (5120 + c * 1024) - 5120) / 1024 = c by omega, own] at is
      exact is
    obtain ⟨shows, -, keptChans⟩ := zeroed_shows (chanGrans c) uwf (by unfold chanGrans; rw [List.head?_map, List.head?_range]; rfl) owner
    unfold State.granule State.chan at *
    rw [refresh_mem]
    refine ⟨by rw [keptChans, own], fun k low => ?_⟩
    refine (shows (5120 + c * 1024 + k) ?_).1
    unfold chanGrans
    exact List.mem_map.mpr ⟨k, List.mem_range.mpr low, Nat.add_comm _ _⟩

end Sys2Proof.Proofs
end


section
/-! SUPPORT. Fences of memory units, coherent windows, and O36 (R332, R350 to R357, R715). -/
namespace Sys2Proof.Machine
open Sys2Proof Sys2Proof.Safety

/-! ### Banks -/

/-- A bank whose owner does not run is fenced at once and loses its contents. -/
theorem requestBankFence_empties {b : Nat} {s : State} (wf : s.mem.wf) (up : (s.bank b).fenced = false) :
    if ownerActive s (s.bank b).owner then requestBankFence b s = s.setBank b { s.bank b with fencePend := true }
    else ((requestBankFence b s).bank b).fenced = true ∧
      (∀ a, bankBase b ≤ a → a < bankBase b + 0x500000 → (requestBankFence b s).mem.byte a = 0#8) ∧
      (∀ a, a < bankBase b ∨ bankBase b + 0x500000 ≤ a → (requestBankFence b s).mem.byte a = s.mem.byte a) := by
  obtain ⟨-, fences⟩ := requestBankFence_fences wf up
  by_cases runs : ownerActive s (s.bank b).owner = true
  · rw [if_pos runs]
    unfold requestBankFence
    dsimp only
    rw [if_neg (by rw [up]; decide), if_pos runs]
  · rw [if_neg runs] at fences ⊢
    have cleared : ∀ a, (requestBankFence b s).mem.byte a = if bankBase b ≤ a ∧ a < bankBase b + 0x500000 then 0#8 else s.mem.byte a := by
      intro a
      unfold requestBankFence
      dsimp only
      rw [if_neg (by rw [up]; decide), if_neg runs]
      obtain ⟨h1, h2, h3, banks, h5, h6⟩ := wf
      exact Mem.byte_clear (m := (s.setBank b { s.bank b with fenced := true, zeroing := false, test := false, fencePend := false }).mem)
        ⟨h1, h2, h3, Tab.wf_set banks b _, h5, h6⟩ _ _ a
    refine ⟨by rw [fences], fun a low high => ?_, fun a out => ?_⟩
    · rw [cleared, if_pos ⟨low, high⟩]
    · rw [cleared, if_neg (by omega)]

/-! ### Channels -/

/-- A channel whose owner does not run is fenced at once and loses its contents. -/
theorem requestChanFence_empties {m ch : Nat} {s : State} (wf : s.mem.wf) (low : ch < 32) (up : (s.chan (m * 32 + ch)).fenced = false) :
    if ownerActive s (s.chan (m * 32 + ch)).owner then
      (requestChanFence (m * 32 + ch) s).chan (m * 32 + ch) = { s.chan (m * 32 + ch) with fencePend := true } ∧
        (requestChanFence (m * 32 + ch) s).mem.bytes = s.mem.bytes
    else ((requestChanFence (m * 32 + ch) s).chan (m * 32 + ch)).fenced = true ∧
      ∀ a, chanBase m ch ≤ a → a < chanBase m ch + 0x80000000 → (requestChanFence (m * 32 + ch) s).mem.byte a = 0#8 := by
  obtain ⟨-, fences⟩ := requestChanFence_fences wf up
  have position : (m * 32 + ch) / 32 = m ∧ (m * 32 + ch) % 32 = ch := by omega
  by_cases runs : ownerActive s (s.chan (m * 32 + ch)).owner = true
  · rw [if_pos runs] at fences ⊢
    refine ⟨fences, ?_⟩
    unfold requestChanFence
    dsimp only
    rw [if_neg (by rw [up]; decide), if_pos runs]
    rfl
  · rw [if_neg runs] at fences ⊢
    refine ⟨by rw [fences], fun a from_ below => ?_⟩
    unfold requestChanFence fenceChan
    dsimp only
    rw [if_neg (by rw [up]; decide), if_neg runs, position.1, position.2]
    obtain ⟨h1, h2, h3, h4, chans, h6⟩ := wf
    refine (Mem.byte_clear (m := (s.setChan (m * 32 + ch) { s.chan (m * 32 + ch) with fenced := true, zeroing := false, fencePend := false }).mem)
      ⟨h1, h2, h3, h4, Tab.wf_set chans _ _, h6⟩ _ _ a).trans ?_
    rw [if_pos ⟨from_, below⟩]

/-- A channel that comes back at a position that the hub may power: the position is switched on. -/
theorem readmitChan_powers {m ch : Nat} {s : State} (wf : s.mem.wf) (low : ch < 32) (small : m < 6) (may : stackAllowed s m = true) :
    let t := readmitChan (m * 32 + ch) s
    t.chan (m * 32 + ch) = { s.chan (m * 32 + ch) with readmPend := true } ∧ (t.stack m).fenced = false ∧ (t.stack m).powered = true ∧
      t.pwr.domains.getLsbD (16 + m) = true ∧ t.pwr.domains.getLsbD (58 + m) = true := by
  have position : (m * 32 + ch) / 32 = m := by omega
  obtain ⟨-, -, -, -, chans, fitted⟩ := wf
  unfold readmitChan
  dsimp only
  rw [position, if_neg (by rw [may]; decide)]
  have shown : ((s.setStack m { s.stack m with fenced := false, powered := true, onWait := [] }).setChan (m * 32 + ch)
      { s.chan (m * 32 + ch) with readmPend := true }).stack m = { s.stack m with fenced := false, powered := true, onWait := [] } :=
    Tab.get_set_same fitted m _
  refine ⟨State.chan_setChan (s := s.setStack m _) chans _ _, (congrArg Stack.fenced shown).trans rfl, (congrArg Stack.powered shown).trans rfl, ?_, ?_⟩
  · show (putBit (putBit s.pwr.domains (16 + m) true) (58 + m) true).getLsbD (16 + m) = true
    rw [getLsbD_putBit, if_neg (by omega), getLsbD_putBit, if_pos rfl]
    simp only [Bool.true_and, decide_eq_true_eq]
    omega
  · show (putBit (putBit s.pwr.domains (16 + m) true) (58 + m) true).getLsbD (58 + m) = true
    rw [getLsbD_putBit, if_pos rfl]
    simp only [Bool.true_and, decide_eq_true_eq]
    omega

/-- A re-admission comes at once where the owner does not run and nobody else has to give the rail its leave. -/
theorem requestChanReadmit_free {m ch : Nat} {s : State} (low : ch < 32) (rests : ownerActive s (s.chan (m * 32 + ch)).owner = false)
    (free : s.pwr.domains.getLsbD (16 + m) = true ∨ stackUsers s m = []) : requestChanReadmit (m * 32 + ch) s = readmitChan (m * 32 + ch) s := by
  have position : (m * 32 + ch) / 32 = m := by omega
  unfold requestChanReadmit
  dsimp only
  rw [position, rests]
  by_cases on : s.pwr.domains.getLsbD (16 + m) = true
  · rw [if_pos on]
    rfl
  · rw [if_neg on, free.resolve_left on]
    rfl

/-- In each case the channel notes that it waits to come back. -/
theorem requestChanReadmit_waits {m ch : Nat} {s : State} (wf : s.mem.wf) (low : ch < 32) (small : m < 6) (may : stackAllowed s m = true) :
    (requestChanReadmit (m * 32 + ch) s).chan (m * 32 + ch) = { s.chan (m * 32 + ch) with readmPend := true } := by
  obtain ⟨powered, -⟩ := readmitChan_powers wf low small may
  obtain ⟨-, -, -, -, chans, -⟩ := wf
  unfold requestChanReadmit
  dsimp only
  by_cases on : s.pwr.domains.getLsbD ((m * 32 + ch) / 32 + 16) = true
  · rw [if_pos (by rw [Nat.add_comm]; exact on)]
    by_cases runs : ownerActive s (s.chan (m * 32 + ch)).owner = true
    · rw [if_pos runs]
      exact State.chan_setChan chans _ _
    · rw [if_neg runs]
      exact powered
  · rw [if_neg (by rw [Nat.add_comm]; exact on)]
    refine Laws.ite_cases (P := fun t : State => t.chan (m * 32 + ch) = { s.chan (m * 32 + ch) with readmPend := true }) (fun _ => powered)
      (fun _ => State.chan_setChan chans _ _)

/-! ### A shorted stack rail -/

/-- Channels fenced one after the other. -/
theorem fenceChans_fences (m : Nat) (chs : List Nat) (s : State) (wf : s.mem.wf) :
    let t := chs.foldl (fun s ch => fenceChan (m * 32 + ch) s) s
    (∃ mem, t = { s with mem := mem }) ∧ t.mem.stackTab = s.mem.stackTab ∧
      ∀ c, (∃ ch ∈ chs, c = m * 32 + ch) ∨ (s.chan c).fenced = true → (t.chan c).fenced = true := by
  induction chs generalizing s with
  | nil => exact ⟨⟨s.mem, rfl⟩, rfl, fun c h => h.resolve_left fun ⟨_, mem, _⟩ => absurd mem List.not_mem_nil⟩
  | cons ch chs ih =>
    rw [List.foldl_cons]
    have wf' : (fenceChan (m * 32 + ch) s).mem.wf := by
      obtain ⟨h1, h2, h3, h4, chans, h6⟩ := wf
      exact Mem.wf_clear (m := (s.setChan (m * 32 + ch) _).mem) ⟨h1, h2, h3, h4, Tab.wf_set chans _ _, h6⟩ _ _
    obtain ⟨⟨mem, is⟩, fitted, fences⟩ := ih (fenceChan (m * 32 + ch) s) wf'
    refine ⟨⟨mem, is.trans rfl⟩, fitted.trans rfl, fun c h => fences c ?_⟩
    obtain ⟨-, -, -, -, chans, -⟩ := wf
    by_cases here : c = m * 32 + ch
    · subst here
      exact .inr (congrArg Chan.fenced (State.chan_setChan chans _ _))
    · refine h.imp (fun ⟨k, mem, is⟩ => ⟨k, (List.mem_cons.mp mem).resolve_left (fun same => here (same ▸ is)), is⟩) fun up => ?_
      have other : (fenceChan (m * 32 + ch) s).chan c = s.chan c := State.chan_setChan_other chans here _
      rw [other]
      exact up

/-- A fenced position: its rail and its controller are off, and each of its channels is fenced. -/
theorem fenceStack_fences {m : Nat} {s : State} (wf : s.mem.wf) :
    let t := fenceStack m s
    t.parts = s.parts ∧ t.flt = s.flt ∧ (t.stack m).fenced = true ∧ (t.stack m).powered = false ∧ t.pwr.domains.getLsbD (16 + m) = false ∧
      t.pwr.domains.getLsbD (58 + m) = false ∧ ∀ ch < 32, (t.chan (m * 32 + ch)).fenced = true := by
  unfold fenceStack
  dsimp only
  obtain ⟨h1, h2, h3, h4, h5, fitted⟩ := wf
  obtain ⟨u, isu⟩ : ∃ u : State, u = (setDomain (16 + m) false (setDomain (58 + m) false s)).setStack m
    { (setDomain (16 + m) false (setDomain (58 + m) false s)).stack m with fenced := true, powered := false, onWait := [] } := ⟨_, rfl⟩
  have stack : u.stack m = { s.stack m with fenced := true, powered := false, onWait := [] } := by
    rw [isu]
    exact Tab.get_set_same fitted m _
  have domains : u.pwr.domains = putBit (putBit s.pwr.domains (58 + m) false) (16 + m) false := by rw [isu]; rfl
  have parts : u.parts = s.parts := by rw [isu]; rfl
  have flt : u.flt = s.flt := by rw [isu]; rfl
  have uwf : u.mem.wf := by rw [isu]; exact ⟨h1, h2, h3, h4, h5, Tab.wf_set fitted _ _⟩
  rw [← isu]
  obtain ⟨⟨mem, is⟩, same, fences⟩ := fenceChans_fences m (List.range 32) u uwf
  generalize (List.range 32).foldl (fun s ch => fenceChan (m * 32 + ch) s) u = t at is same fences ⊢
  have shown : t.stack m = u.stack m := by unfold State.stack; rw [same]
  have keeps : t.parts = u.parts ∧ t.flt = u.flt ∧ t.pwr = u.pwr := by rw [is]; exact ⟨rfl, rfl, rfl⟩
  rw [shown, stack, keeps.1, keeps.2.1, keeps.2.2, domains]
  refine ⟨parts, flt, rfl, rfl, ?_, ?_, fun ch low => fences _ (.inl ⟨ch, List.mem_range.mpr low, rfl⟩)⟩
  · rw [getLsbD_putBit, if_pos rfl]
    rfl
  · rw [getLsbD_putBit, if_neg (by omega), getLsbD_putBit, if_pos rfl]
    rfl

/-- A running partition of the list is marked, and a mark stays. -/
theorem markFence_marks {ps : List Nat} {s : State} (parts : Tab.wf {} s.parts = true) (p : Nat)
    (marked : (p ∈ ps ∧ (s.part p).active = true) ∨ (s.part p).flags.getLsbD 3 = true) : ((markFence ps s).part p).flags.getLsbD 3 = true := by
  unfold markFence
  induction ps generalizing s with
  | nil => exact marked.resolve_left fun ⟨mem, _⟩ => absurd mem List.not_mem_nil
  | cons q ps ih =>
    rw [List.foldl_cons]
    by_cases here : p = q
    · subst here
      by_cases runs : (s.part p).active = true
      · rw [if_pos runs]
        refine ih (Tab.wf_set parts _ _) (.inr ?_)
        unfold markFlag State.modPart
        rw [State.part_setPart parts]
        show (putBit (s.part p).flags 3 true).getLsbD 3 = true
        rw [getLsbD_putBit, if_pos rfl]
        rfl
      · rw [if_neg runs]
        exact ih parts (.inr (marked.resolve_left fun ⟨_, is⟩ => runs is))
    · have rest : (p ∈ ps ∧ (s.part p).active = true) ∨ (s.part p).flags.getLsbD 3 = true :=
        marked.imp_left fun ⟨mem, is⟩ => ⟨(List.mem_cons.mp mem).resolve_left here, is⟩
      by_cases runs : (s.part q).active = true
      · rw [if_pos runs]
        refine ih (Tab.wf_set parts _ _) ?_
        unfold markFlag State.modPart
        rw [State.part_setPart_other parts here]
        exact rest
      · rw [if_neg runs]
        exact ih parts rest

/-- A shorted rail of a fitted stack (R715). -/
theorem stackRailShort_fences {m : Nat} {s : State} (wf : s.mem.wf) (parts : Tab.wf {} s.parts = true) (groups : Groups s)
    (fitted : (s.stack m).fitted = true) (calm : Calm (17 + m) s) :
    let t := stackRailShort m s
    FaultSet (17 + m) 4 t ∧ (t.stack m).fenced = true ∧ (t.stack m).powered = false ∧ t.pwr.domains.getLsbD (16 + m) = false ∧
      t.pwr.domains.getLsbD (58 + m) = false ∧ ∀ ch < 32, (t.chan (m * 32 + ch)).fenced = true ∧
        ∀ p, (s.chan (m * 32 + ch)).owner = some p → (s.part p).active = true → (t.part p).flags.getLsbD 3 = true := by
  unfold stackRailShort
  dsimp only
  rw [if_neg (by rw [fitted]; decide)]
  generalize owners : ((List.range 32).filterMap (fun ch => (s.chan (m * 32 + ch)).owner)).eraseDups = ps
  obtain ⟨uparts, uflt, fenced, off, rail, control, chans⟩ := fenceStack_fences wf
  generalize fenceStack m s = u at uparts uflt fenced off rail control chans ⊢
  have marks : ∀ p, p ∈ ps → (s.part p).active = true → ((markFence ps u).part p).flags.getLsbD 3 = true := by
    intro p mem runs
    refine markFence_marks (uparts ▸ parts) p (.inl ⟨mem, ?_⟩)
    unfold State.part at *
    rw [uparts]
    exact runs
  obtain ⟨_, e⟩ := markFence_shape ps u
  have vflt : (markFence ps u).flt = u.flt := by rw [e]
  have vmem : (markFence ps u).mem = u.mem := by rw [e]
  have vpwr : (markFence ps u).pwr = u.pwr := by rw [e]
  generalize markFence ps u = v at marks vflt vmem vpwr ⊢
  have vgroups : Groups v := groups_of_flt (vflt.trans uflt) groups
  have vcalm : Calm (17 + m) v := calm_keeps (vflt.trans uflt) calm
  have mem : (raise (17 + m) 4 0 v).mem = u.mem := (Laws.raise_calm_mem vgroups vcalm).trans vmem
  have pwr : (raise (17 + m) 4 0 v).pwr = u.pwr := (Laws.raise_calm_pwr vgroups vcalm).trans vpwr
  have same : (raise (17 + m) 4 0 v).parts = v.parts := Laws.raise_calm_parts vgroups vcalm
  unfold State.stack State.chan State.part at *
  rw [mem, pwr, same]
  refine ⟨Laws.raise_sets vgroups (by decide), fenced, off, rail, control, fun ch low => ⟨chans ch low, fun p owner runs => marks p ?_ runs⟩⟩
  rw [← owners, List.mem_eraseDups, List.mem_filterMap]
  exact ⟨ch, List.mem_range.mpr low, owner⟩

/-! ### Coherent windows (R332) -/

/-- The four grounds on which a window's setting is refused. -/
theorem anyOf_iff (overrun : Prop) [Decidable overrun] (clash new old : Bool) :
    (decide overrun || clash || !new || !old) = true ↔ overrun ∨ clash = true ∨ new = false ∨ old = false := by
  simp only [Bool.or_eq_true, decide_eq_true_eq, Bool.not_eq_true']
  rw [or_assoc, or_assoc]

/-- A window's setting takes effect at once while no line is cached. -/
theorem settleHome_window {w : Nat} {v : Word} {s : State} (lines : s.home.lines = []) (txns : s.home.txns = []) (settled : Settled s) :
    settleHome (backInvalRange (winRange (Tab.get 0 s.home.cohWins w)).1 (winRange (Tab.get 0 s.home.cohWins w)).2
      { s with home := { s.home with cohPend := s.home.cohPend.filter (fun e => e.1 != w) ++ [(w, v)] } }) =
    { s with home := { s.home with cohWins := Tab.set 0 s.home.cohWins w v } } := by
  obtain ⟨pend, leaving⟩ := settled
  have nothing : backInvalRange (winRange (Tab.get 0 s.home.cohWins w)).1 (winRange (Tab.get 0 s.home.cohWins w)).2
      { s with home := { s.home with cohPend := s.home.cohPend.filter (fun e => e.1 != w) ++ [(w, v)] } } =
      { s with home := { s.home with cohPend := [(w, v)] } } := by
    unfold backInvalRange
    dsimp only
    rw [lines, pend]
    rfl
  rw [nothing]
  unfold settleHome settleWins
  dsimp only [List.foldl_cons, List.foldl_nil]
  rw [lines, txns, if_neg (by simp)]
  have emptied : [(w, v)].filter (fun q => q.1 != w) = [] := by simp
  unfold settleGrans
  dsimp only
  rw [leaving, emptied, ← pend]
  rfl

end Sys2Proof.Machine

namespace Sys2Proof.Proofs
open Sys2Proof Sys2Proof.Machine Sys2Proof.Safety

/-- Settles O36: each request takes the one branch that the unit's state and its owner's state select. -/
theorem memoryFencesAndWindows : Obligations.MemoryFencesAndWindows := by
  unfold Obligations.MemoryFencesAndWindows
  refine ⟨⟨fun b s canon => ?_, fun m ch s canon => ?_, fun m s canon fitted calm => ?_, fun row pa s canon => ?_⟩, fun w val s groups => ?_⟩
  · have groups := groups_of_canon canon
    obtain ⟨wf, -⟩ := canon
    refine ⟨fun up => ⟨_, rfl, requestBankFence_empties wf up⟩, fun fenced => congrArg Host.Outcome.next ?_, fun up calm => ⟨_, rfl, ?_⟩⟩
    · unfold srmBankReadmit requestBankReadmit readmitBank
      dsimp only
      rw [if_pos fenced]
      split <;> rfl
    · unfold srmBankReadmit
      rw [if_neg (by rw [up]; decide)]
      exact ⟨Laws.raise_sets groups (by decide), Laws.raise_calm_mem groups calm⟩
  · intro c
    have groups := groups_of_canon canon
    obtain ⟨wf, -⟩ := canon
    refine ⟨fun up => ⟨_, rfl, requestChanFence_empties wf ch.isLt up⟩, fun fenced may => ⟨_, rfl, ?_⟩,
      fun fenced not_ rests free => congrArg Host.Outcome.next ?_, fun up calm => ⟨_, rfl, ?_⟩⟩
    · unfold memChReadmit
      rw [if_pos fenced]
      refine ⟨requestChanReadmit_waits wf ch.isLt m.isLt may, fun rests free => ?_⟩
      rw [requestChanReadmit_free ch.isLt rests free]
      exact (readmitChan_powers wf ch.isLt m.isLt may).2
    · have position : (m.val * 32 + ch.val) / 32 = m.val := by have := ch.isLt; omega
      unfold memChReadmit
      rw [if_pos fenced, requestChanReadmit_free ch.isLt rests free]
      unfold readmitChan
      dsimp only
      rw [position, if_pos (by rw [not_]; decide)]
    · unfold memChReadmit
      rw [if_neg (by rw [up]; decide)]
      exact ⟨Laws.raise_sets groups (by have := m.isLt; decide), Laws.raise_calm_mem groups calm⟩
  · have groups := groups_of_canon canon
    obtain ⟨wf, parts, -⟩ := canon
    obtain ⟨fault, fenced, off, rail, control, chans⟩ := stackRailShort_fences wf parts groups fitted calm
    refine ⟨_, rfl, faultSet_keeps (refresh_groups _) fault, ?_⟩
    obtain ⟨_, _, _, _, e⟩ := refresh_shape (stackRailShort m.val s)
    have mem : (refresh (stackRailShort m.val s)).mem = (stackRailShort m.val s).mem := by rw [e]
    have pwr : (refresh (stackRailShort m.val s)).pwr = (stackRailShort m.val s).pwr := by rw [e]
    have same : (refresh (stackRailShort m.val s)).parts = (stackRailShort m.val s).parts := by rw [e]
    unfold State.stack State.chan State.part at *
    rw [mem, pwr, same]
    exact ⟨fenced, off, rail, control, fun ch => chans ch.val ch.isLt⟩
  · intro m ch right life kind fitted row_
    refine ⟨_, rfl, ?_⟩
    obtain ⟨-, -, -, -, chans, -⟩ := canon.1
    have runs : hbmHardRepair row.toNat s = (hardRepair m ch pa s).getD s := by
      unfold hbmHardRepair
      dsimp only
      rw [if_neg (by simp [right, life, kind, show (s.stack (bits row.toNat 25 3)).fitted = true from fitted]), row_]
    rw [runs]
    unfold hardRepair
    dsimp only
    split
    · rfl
    · exact ⟨congrArg Chan.hard (State.chan_setChan chans _ _), rfl⟩
  · intro first v old clash bad
    refine ⟨fun fine lines txns settled => congrArg Host.Outcome.next ?_, fun refused calm => ⟨_, rfl, ?_⟩⟩
    · unfold cohWinWrite
      exact (if_neg fun is => fine ((anyOf_iff _ _ _ _).mp is)).trans (settleHome_window lines txns settled)
    · have is : cohWinWrite w.val val s = refuseWrite 23 s := by
        unfold cohWinWrite
        exact if_pos ((anyOf_iff _ _ _ _).mpr refused)
      rw [is]
      exact ⟨Laws.raise_sets groups (by decide), Laws.raise_calm_home groups calm⟩

end Sys2Proof.Proofs
end


section
/-! SUPPORT. The start of a step: a released partition one of whose slot SRAMs reports an injected error. -/
namespace Sys2Proof.Proofs
open Sys2Proof Sys2Proof.Machine Sys2Proof.Safety

/-- A STOPPED partition with a column of the fabric, released for tick 90, which has come. The quadrant's group stops the package at a
fault, with no grace, and an uncorrectable slot error is injected (R111, R702, R711). -/
def releasedWithSlotError : State :=
  { State.reset with
    clk := { State.reset.clk with now := 90 }
    parts := [(0, { cfg := { enable := true, domainSize := 1 }, armed := some { tick := 90, distributed := true } })]
    fab := { State.reset.fab with cols := [(0, { owner := some 0 })] }
    flt := { State.reset.flt with groups := [(24, { inject := 0x80000004, grace := 0, action := .stopPackage })] } }

theorem releasedWithSlotError_canon : Canon releasedWithSlotError := by
  unfold Canon
  decide

/-- The step's start reads the slots of the partition's cells, the injected error stops the package, and the partition ends BROKEN. -/
theorem releasedWithSlotError_breaks : exec (.stepRelease 0) releasedWithSlotError = .next (refresh (releaseNow 0 releasedWithSlotError)) ∧
    ((refresh (releaseNow 0 releasedWithSlotError)).part 0).state ≠ .running :=
  ⟨rfl, by decide +kernel⟩

/-- Refutes O23: a release whose tick has come does not leave the partition RUNNING where the start's own reading of a slot reports an error
in a group that stops the package. -/
theorem not_stepsStartAndEnd : ¬ Obligations.StepsStartAndEnd := by
  unfold Obligations.StepsStartAndEnd
  intro steps
  obtain ⟨-, starts, -⟩ := steps 0 releasedWithSlotError releasedWithSlotError_canon
  obtain ⟨t, ran, running, -⟩ := starts { tick := 90, distributed := true } (by decide +kernel) (by decide +kernel) (.inr (by decide +kernel))
    (by decide +kernel) (by decide +kernel) (fun v mem => absurd mem (by
      have none_ : releasedWithSlotError.visOf (0 : Fin 64).val = [] := by decide +kernel
      rw [none_]
      exact List.not_mem_nil))
  obtain ⟨runs, stops⟩ := releasedWithSlotError_breaks
  obtain rfl : refresh (releaseNow 0 releasedWithSlotError) = t := Host.Outcome.next.inj (runs.symm.trans ran)
  exact stops running

end Sys2Proof.Proofs
end


section
/-! SUPPORT. What is applied at a proof leaves of the partitions, and what a partition's state change does (R106 to R112, R132). -/
namespace Sys2Proof.Machine
open Sys2Proof Sys2Proof.Safety

/-- Work that leaves the fault groups, the time base and firmware's own state, and of each partition what `f` reads. -/
structure PartWork {α : Type} (f : Part → α) (s t : State) : Prop where
  flt : t.flt = s.flt
  clk : t.clk = s.clk
  mgt : t.mgt = s.mgt
  wf : Tab.wf {} s.parts = true → Tab.wf {} t.parts = true
  keeps : Tab.wf {} s.parts = true → ∀ p, f (t.part p) = f (s.part p)

namespace PartWork
variable {α : Type} {f : Part → α} {r s t : State}

theorem refl (s : State) : PartWork f s s := ⟨rfl, rfl, rfl, id, fun _ _ => rfl⟩

theorem trans (h : PartWork f r s) (k : PartWork f s t) : PartWork f r t :=
  ⟨k.flt.trans h.flt, k.clk.trans h.clk, k.mgt.trans h.mgt, k.wf ∘ h.wf, fun wf p => (k.keeps (h.wf wf) p).trans (h.keeps wf p)⟩

/-- The last piece of work first. -/
theorem after (k : PartWork f s t) (h : PartWork f r s) : PartWork f r t := h.trans k

theorem ite {p : Prop} [Decidable p] {a b : State} (ha : PartWork f s a) (hb : PartWork f s b) : PartWork f s (if p then a else b) := by
  split <;> assumption

theorem foldl {β : Type} {g : State → β → State} (step : ∀ s a, PartWork f s (g s a)) (l : List β) (s : State) : PartWork f s (l.foldl g s) := by
  induction l generalizing s with
  | nil => exact refl s
  | cons a l ih => exact (step s a).trans (ih _)

/-- Work in other parts of the state. -/
theorem other (flt : t.flt = s.flt) (clk : t.clk = s.clk) (mgt : t.mgt = s.mgt) (parts : t.parts = s.parts) : PartWork f s t :=
  ⟨flt, clk, mgt, fun wf => parts ▸ wf, fun _ p => congrArg (fun ps => f (Tab.get {} ps p)) parts⟩

/-- The same, said at once. -/
theorem rest (same : (t.flt, t.clk, t.mgt, t.parts) = (s.flt, s.clk, s.mgt, s.parts)) : PartWork f s t := by
  simp only [Prod.mk.injEq] at same
  obtain ⟨flt, clk, mgt, parts⟩ := same
  exact other flt clk mgt parts

/-- A change of one partition in what `f` does not read. -/
theorem mod (p : Nat) {g : Part → Part} (same : ∀ x, f (g x) = f x) (s : State) : PartWork f s (s.modPart p g) := by
  refine ⟨rfl, rfl, rfl, fun wf => Tab.wf_set wf _ _, fun wf q => ?_⟩
  unfold State.modPart
  by_cases here : q = p
  · subst here
    rw [State.part_setPart wf]
    exact same _
  · rw [State.part_setPart_other wf here]

theorem trace (point : Nat) (part : Option Nat) (s : State) : PartWork f s (traceAt point part s) := by
  obtain ⟨_, _, e⟩ := traceAt_shape point part s
  rw [e]
  exact other rfl rfl rfl rfl

theorem emit (e : Emit) (s : State) : PartWork f s (s.emit e) := rest (by rfl)

theorem token (port : Nat) (k : Token) (s : State) : PartWork f s (sendToken port k s) := by
  unfold sendToken
  exact (trace _ _ s).trans ((ite (emit _ _) (refl _)).trans (foldl (fun s n => emit _ s) _ _))

end PartWork

/-! ### Sites -/

section
variable {α : Type} {f : Part → α}

theorem sendSnoop_part (op line n : Nat) (s : State) : PartWork f s (sendSnoop op line n s) := by
  unfold sendSnoop
  dsimp only
  split
  · exact .rest (by rfl)
  · exact .ite (.rest (by rfl)) (.ite (.rest (by rfl)) (.rest (by rfl)))

theorem backInval_part (why line : Nat) (s : State) : PartWork f s (backInval why line s) := by
  unfold backInval
  dsimp only
  split
  · exact .rest (by rfl)
  · exact .ite (.refl s) (PartWork.after (.foldl (fun s n => sendSnoop_part _ _ _ s) _ _) (.rest (by rfl)))

theorem setDomain_part (n : Nat) (on : Bool) (s : State) : PartWork f s (setDomain n on s) := .rest (by rfl)

theorem coreOff_part (k : Nat) (s : State) : PartWork f s (coreOff k s) := by
  unfold coreOff
  exact PartWork.after (setDomain_part _ _ _) (.rest (by rfl))

theorem offSite_part (n : Nat) (s : State) : PartWork f s (offSite n s) := by
  unfold offSite
  exact .foldl (fun s k => PartWork.after (setDomain_part _ _ _) (PartWork.after (coreOff_part k _) (.rest (by rfl)))) _ s

theorem flushSite_part (n : Nat) (s : State) : PartWork f s (flushSite n s) := by
  unfold flushSite
  exact PartWork.after (.foldl (fun s e => backInval_part _ _ s) _ _) (.rest (by rfl))

theorem failOuts_part (n : Nat) (s : State) : PartWork f s (failOuts n s) := .rest (by rfl)

theorem fenceSite_part (n : Nat) (why : SReason) (flush : Bool) (s : State) : PartWork f s (fenceSite n why flush s) := by
  unfold fenceSite
  dsimp only
  generalize fenced : (halves s n).foldl _ s = u
  have first : PartWork f s u := by
    rw [← fenced]
    exact .foldl (fun s k => .rest (by rfl)) _ s
  generalize traced : traceAt _ _ (failOuts _ u) = v
  have second : PartWork f u v := by
    rw [← traced]
    exact PartWork.after (.trace _ _ _) (failOuts_part _ u)
  refine first.trans (second.trans ?_)
  refine PartWork.trans (s := { v with noc := { v.noc with reqs := v.noc.reqs.filter (fun r => !(r.held && r.who == .site ((halves s n).headD n))) } })
    (.rest (by rfl)) (.ite (flushSite_part _ _) (.ite (offSite_part _ _) (.rest (by rfl))))

theorem readmitChan_part (c : Nat) (s : State) : PartWork f s (readmitChan c s) := by
  unfold readmitChan
  exact .ite (.rest (by rfl)) (.rest (by rfl))

theorem fencePort_part (n : Nat) (peer : Bool) (s : State) : PartWork f s (fencePort n peer s) := PartWork.after (.trace _ _ _) (.rest (by rfl))

theorem readmitPort_part (n : Nat) (s : State) : PartWork f s (readmitPort n s) := PartWork.after (.trace _ _ _) (.rest (by rfl))

/-! ### What is armed for a proof (R112) -/

variable (flags : ∀ (x : Part) b, f { x with flags := b } = f x)
include flags

theorem markFlag_part (p bit : Nat) (s : State) : PartWork f s (markFlag p bit s) := .mod p (fun x => flags x _) s

theorem markFence_part (ps : List Nat) (s : State) : PartWork f s (markFence ps s) :=
  .foldl (fun s p => .ite (markFlag_part flags p 3 s) (.refl s)) ps s

theorem proofCols_part (p : Nat) (s : State) : PartWork f s (proofCols p s) := by
  unfold proofCols
  refine .foldl (fun s k => PartWork.trans ?_ (markFlag_part flags p 3 _)) _ s
  have fence : PartWork f s (fenceCol k s) := PartWork.after (.trace _ _ _) (.rest (by rfl))
  split
  · unfold remapCol
    exact .ite fence (PartWork.after (.trace _ _ _) (PartWork.after (.foldl (fun s i => .rest (by rfl)) _ _) (.rest (by rfl))))
  · exact fence

theorem proofUnits_part (p : Nat) (s : State) : PartWork f s (proofUnits p s) := by
  have mark : ∀ (u t : State), PartWork f u t → PartWork f u (markFlag p 3 t) := fun u t work => work.trans (markFlag_part flags p 3 t)
  unfold proofUnits
  dsimp only
  refine PartWork.after (.foldl (fun s m => .ite (.rest (by rfl)) (.refl s)) _ _) ?_
  refine PartWork.after (.foldl (fun s c => readmitChan_part c s) _ _) ?_
  refine PartWork.after (.foldl (fun s c => .ite (mark s _ (.rest (by rfl))) (.rest (by rfl))) _ _) ?_
  refine PartWork.after (.foldl (fun s b => .rest (by rfl)) _ _) ?_
  refine PartWork.after (.foldl (fun s b => .ite (mark s _ (.rest (by rfl))) (.rest (by rfl))) _ _) ?_
  refine PartWork.after (.foldl (fun s c => .rest (by rfl)) _ _) ?_
  refine PartWork.after (.foldl (fun s c => mark s _ (.rest (by rfl))) _ _) ?_
  refine PartWork.after (.foldl (fun s e => .rest (by rfl)) _ _) ?_
  exact .foldl (fun s e => mark s _ (.rest (by rfl))) _ s

theorem proofPorts_part (p : Nat) (s : State) : PartWork f s (proofPorts p s) := by
  unfold proofPorts
  refine .foldl (fun s n => ?_) _ s
  refine .ite (.refl s) ?_
  generalize noted : s.setPort n _ = u
  have first : PartWork f s u := by rw [← noted]; exact .rest (by rfl)
  refine first.trans ?_
  have fenced : ∀ b : Bool, PartWork f u (if b then markFence (portUsers u n) (fencePort n false u) else u) :=
    fun b => .ite (PartWork.after (markFence_part flags _ _) (fencePort_part _ _ u)) (.refl u)
  exact .ite (PartWork.after (readmitPort_part _ _) (fenced _)) (fenced _)

theorem proofSitesApply_part (p : Nat) (s : State) : PartWork f s (proofSitesApply p s) := by
  unfold proofSitesApply
  dsimp only
  refine PartWork.after (.foldl (fun s n => .foldl (fun s k => .rest (by rfl)) _ s) _ _) ?_
  refine PartWork.after (.foldl (fun s n => (fenceSite_part n _ true s).trans (markFlag_part flags p 3 _)) _ _) ?_
  exact .foldl (fun s n => offSite_part n s) _ s

theorem applyProof_part (p : Nat) (s : State) : PartWork f s (applyProof p s) := by
  unfold applyProof
  exact (proofCols_part flags p s).trans ((proofUnits_part flags p _).trans ((proofPorts_part flags p _).trans (proofSitesApply_part flags p _)))

theorem settleArmed_part (p : Nat) (s : State) : PartWork f s (settleArmed p s) := by
  unfold settleArmed
  exact PartWork.after (.mod p (fun x => flags x _) _) (applyProof_part flags p s)

end

/-! ### The states of a partition -/

/-- What the tokens of a change of state, and the benchmark, leave of a partition. -/
theorem setPState_shows {α : Type} {f : Part → α} (bench : ∀ (x : Part) b, f { x with benchFrom := b } = f x) (p : Nat) (st : PState) (h : Hold)
    (s : State) : PartWork f (s.modPart p (fun x => { x with state := st, hold := h })) (setPState p st h s) := by
  have told : ∀ (floor reason : Nat) (s : State), PartWork f s (sendHold p floor reason s) :=
    fun floor reason s => .foldl (fun s n => .emit _ s) _ s
  unfold setPState
  dsimp only
  generalize s.modPart p (fun x => { x with state := st, hold := h }) = u
  have ints : PartWork f u (stateInts p u) := .foldl (fun s v => .ite (.rest (by rfl)) (.refl s)) _ _
  have bench : ∀ v : State, PartWork f v (v.modPart p (fun x => { x with benchFrom := x.benchFrom.map (fun _ => v.clk.now) })) :=
    fun v => .mod p (fun x => bench x _) v
  refine .ite (.refl u) (ints.trans ?_)
  split
  · exact PartWork.after (told _ _ _) (bench _)
  · exact PartWork.after (told _ _ _) (bench _)
  · exact .refl _

/-- The rest of the state, whatever state the partition enters. -/
theorem setPState_other (p : Nat) (st : PState) (h : Hold) (s : State) : PartWork (fun _ => ()) s (setPState p st h s) :=
  (PartWork.mod p (g := fun x => { x with state := st, hold := h }) (fun _ => rfl) s).trans (setPState_shows (fun _ _ => rfl) p st h s)

/-- What a reader of a partition sees of its state, its holds and its tokens. -/
structure Shown where
  state : PState
  hold : Hold
  holds : BitVec 7
  heldDone : Bool
  lateSent : Bool
  ready : Option Tick
  lastStatus : Status
  silent : BitVec 8
  deriving DecidableEq

def shown (x : Part) : Shown :=
  { state := x.state, hold := x.hold, holds := x.holds, heldDone := x.heldDone, lateSent := x.lateSent, ready := x.ready, lastStatus := x.lastStatus,
    silent := x.silent }

/-- A partition whose holds take further reasons while its proof is not complete. -/
def heldFor (m : BitVec 7) (x : Part) : Part :=
  { x with holds := x.holds ||| m, armed := none, hostHold := x.hostHold && !m.getLsbD 4, fault := x.fault && !m.getLsbD 3, heldDone := false }

/-- A partition held without its proof: the holds take the reasons, and the first of them shows. -/
theorem enterHeld_shows {p : Nat} {m : BitVec 7} {s : State} (parts : Tab.wf {} s.parts = true) :
    let x := s.part p
    let t := enterHeld p m false s
    t.flt = s.flt ∧ Tab.wf {} t.parts = true ∧
      shown (t.part p) = { shown x with state := .held, hold := firstHold (x.holds ||| m), holds := x.holds ||| m, heldDone := false } := by
  have is : PartIs p (heldFor m (s.part p)) (s.modPart p (heldFor m)) := (PartIs.mk parts rfl).mod (heldFor m)
  have runs : enterHeld p m false s = settleArmed p (setPState p .held (firstHold ((s.modPart p (heldFor m)).part p).holds) (s.modPart p (heldFor m))) := rfl
  have flt : (s.modPart p (heldFor m)).flt = s.flt := rfl
  dsimp only
  rw [runs]
  generalize s.modPart p (heldFor m) = u at is flt ⊢
  have held := is.mod (fun x => { x with state := .held, hold := firstHold (u.part p).holds })
  have work := (setPState_shows (f := shown) (fun _ _ => rfl) p .held (firstHold (u.part p).holds) u).trans (settleArmed_part (fun _ _ => rfl) p _)
  refine ⟨work.flt.trans flt, work.wf held.parts, (work.keeps held.parts p).trans ?_⟩
  rw [held.is, is.is]
  rfl

/-- A partition whose last step is ABORTED, with the ports on which nothing was heard. -/
def abortedWith (quiet : BitVec 8) (x : Part) : Part :=
  { x with silent := quiet, lastStatus := .aborted, armed := none, breakDue := false, regroup := false }

/-- The ports of the tree on which a partition has heard nothing. -/
def silentPorts (x : Part) : BitVec 8 :=
  (treePorts x).foldl (fun (m : BitVec 8) n => if x.heard.getLsbD n then m else putBit m n true) 0

/-- The BREAK that a broken partition sends along its tree where it tells it. -/
def tellBroken (p : Nat) (x : Part) (tell : Bool) (s : State) : State :=
  if tell then (treePorts x).foldl (fun s n => sendToken n (mkToken .brk p 0 x.step32 (s.clk.now.toNat % 2 ^ 48)) s) s else s

theorem tellBroken_part {α : Type} {f : Part → α} (p : Nat) (x : Part) (tell : Bool) (s : State) : PartWork f s (tellBroken p x tell s) :=
  .ite (.foldl (fun s _ => .token _ _ s) _ s) (.refl s)

/-- A partition breaks. -/
theorem enterBroken_shows {p : Nat} {tell : Bool} {s : State} (parts : Tab.wf {} s.parts = true) (groups : Groups s) (calm : Calm 8 s) :
    FaultSet 8 1 (enterBroken p tell s) ∧ shown ((enterBroken p tell s).part p) =
      { shown (s.part p) with state := .broken, hold := .none, lastStatus := .aborted, silent := silentPorts (s.part p) } := by
  have is : PartIs p (abortedWith (silentPorts (s.part p)) (s.part p)) (s.modPart p (abortedWith (silentPorts (s.part p)))) :=
    (PartIs.mk parts rfl).mod _
  have flt : (s.modPart p (abortedWith (silentPorts (s.part p)))).flt = s.flt := rfl
  have runs : enterBroken p tell s =
    raise 8 1 p (tellBroken p (s.part p) tell (settleArmed p (setPState p .broken .none (s.modPart p (abortedWith (silentPorts (s.part p))))))) := rfl
  rw [runs]
  generalize s.modPart p (abortedWith (silentPorts (s.part p))) = u at is flt ⊢
  have broken := is.mod (fun x => { x with state := .broken, hold := .none })
  have work := ((setPState_shows (f := shown) (fun _ _ => rfl) p .broken .none u).trans (settleArmed_part (fun _ _ => rfl) p _)).trans
    (tellBroken_part p (s.part p) tell _)
  generalize tellBroken p (s.part p) tell _ = v at work ⊢
  have vflt : v.flt = s.flt := work.flt.trans flt
  have vgroups := groups_of_flt vflt groups
  refine ⟨Laws.raise_sets vgroups (by decide), ?_⟩
  have same : (raise 8 1 p v).part p = v.part p := by
    unfold State.part
    rw [Laws.raise_calm_parts vgroups (calm_keeps vflt calm)]
  rw [same, work.keeps broken.parts p, broken.is]
  rfl

end Sys2Proof.Machine
end


section
/-! SUPPORT. Proof tokens and the expiries of a proof, and O24 (R115, R122 to R132, R142). -/
namespace Sys2Proof.Machine
open Sys2Proof Sys2Proof.Safety

/-! ### Tokens that go out -/

/-- What a sent token changes, and that it leaves on a port that is up. -/
theorem sendToken_sends (n : Nat) (k : Token) (s : State) :
    (∃ trc free out, sendToken n k s = { s with trc := trc, free := free, out := out }) ∧
      (s.prfUp.getLsbD n = true → Emit.token (.port (Fin.ofNat 8 n)) k ∈ (sendToken n k s).out) := by
  constructor
  · unfold sendToken
    generalize (if (k.type == .timeReq || k.type == .timeResp) = true then none else some k.domain.val : Option Nat) = part
    obtain ⟨trc, free, e⟩ := traceAt_shape (80 + n) part s
    generalize traceAt (80 + n) part s = u at e ⊢
    dsimp only
    have mirrors : ∀ v : State, ∃ out, (mirrorsOf v n).foldl (fun s l => s.emit (.token (.mirror (Fin.ofNat 8 l)) k)) v = { v with out := out } :=
      fun v => foldl_emit_shape (fun (_ : State) (l : Nat) => Emit.token (.mirror (Fin.ofNat 8 l)) k) (mirrorsOf v n) v
    split
    · obtain ⟨out, e'⟩ := mirrors (u.emit (.token (.port (Fin.ofNat 8 n)) k))
      exact ⟨trc, free, out, e'.trans (by rw [e]; rfl)⟩
    · obtain ⟨out, e'⟩ := mirrors u
      exact ⟨trc, free, out, e'.trans (by rw [e])⟩
  · intro up
    simp only [sendToken, traceAt_prfUp, up, if_true]
    exact mem_out_foldl_emit _ _ List.mem_cons_self

/-- A token to the children of a partition. -/
theorem toChildren_sends (p : Nat) (k : Token) (s : State) :
    (∃ trc free out, toChildren p k s = { s with trc := trc, free := free, out := out }) ∧
      ∀ n ∈ childPorts (s.part p), s.prfUp.getLsbD n = true → Emit.token (.port (Fin.ofNat 8 n)) k ∈ (toChildren p k s).out := by
  unfold toChildren
  generalize childPorts (s.part p) = ns
  induction ns generalizing s with
  | nil => exact ⟨⟨_, _, _, rfl⟩, fun _ mem => absurd mem List.not_mem_nil⟩
  | cons n ns ih =>
    rw [List.foldl_cons]
    obtain ⟨⟨_, _, _, e⟩, first⟩ := sendToken_sends n k s
    obtain ⟨⟨_, _, _, e'⟩, rest⟩ := ih (sendToken n k s)
    refine ⟨⟨_, _, _, by rw [e', e]⟩, fun m mem up => ?_⟩
    obtain rfl | later := List.mem_cons.mp mem
    · exact (Laws.Kept.foldl (f := fun s n => sendToken n k s) (fun _ _ => Laws.kept_sendToken) (Laws.Kept.refl _)).sent.mem (first up)
    · exact rest m later (by rw [e]; exact up)

/-! ### Tokens that come in -/

/-- A partition that has taken a token on a port. -/
def heardOn (port : Nat) (k : Token) (x : Part) : Part := { x with seen := x.seen ++ [(port, k)], heard := putBit x.heard port true }

/-- The state in which a good token of a proof has been taken. -/
def tokenTaken (port : Nat) (k : Token) (s : State) : State :=
  (traceAt (80 + port) (some k.domain.val) s).setPart k.domain.val (heardOn port k (s.part k.domain.val))

/-- What taking a token leaves. -/
theorem tokenTaken_keeps (port : Nat) (k : Token) (s : State) :
    let t := tokenTaken port k s
    t.flt = s.flt ∧ t.clk = s.clk ∧ t.mem = s.mem ∧ t.prfUp = s.prfUp := by
  obtain ⟨_, _, e⟩ := traceAt_shape (80 + port) (some k.domain.val) s
  dsimp only
  unfold tokenTaken
  rw [e]
  exact ⟨rfl, rfl, rfl, rfl⟩

theorem tokenTaken_is {port : Nat} {k : Token} {s : State} (parts : Tab.wf {} s.parts = true) :
    PartIs k.domain.val (heardOn port k (s.part k.domain.val)) (tokenTaken port k s) :=
  ((PartIs.mk parts rfl).keeps (traceAt_parts (80 + port) (some k.domain.val) s)).set _

/-- A good token of a proof is taken. -/
theorem takeToken_good {ty : TokenType} {via : TokenVia} {k : Token} {port : Nat} {s : State} (proof : (ty == .timeReq || ty == .timeResp) = false)
    (good : GoodToken ty via k port s) : takeToken ty via k s = (some port, tokenTaken port k s) := by
  obtain ⟨type, ok, unarmed, there, new⟩ := good
  unfold takeToken
  dsimp only
  rw [if_neg (by simp [type]), fireInject_of_unarmed unarmed, if_neg (by simp [ok])]
  dsimp only
  rw [there]
  dsimp only
  rw [proof, if_neg Bool.false_ne_true, if_neg (by rw [new]; decide)]
  rfl

/-- An injected error that is taken leaves its group's action and timer. -/
theorem fireInject_keeps {g bit : Nat} {corrects : Bool} {s : State} (groups : Groups s) (calm : Calm g s) :
    let t := (fireInject g bit corrects s).2
    Groups t ∧ Calm g t ∧ t.parts = s.parts := by
  unfold fireInject
  dsimp only
  split
  · have own := State.grp_setGrp groups g { s.grp g with inject := putBit (s.grp g).inject bit false }
    have other : ∀ k, k ≠ g → (s.setGrp g { s.grp g with inject := putBit (s.grp g).inject bit false }).grp k = s.grp k :=
      fun k ne => Tab.get_set_rises_other groups ne _
    have graces : graceGroups (s.setGrp g { s.grp g with inject := putBit (s.grp g).inject bit false }) = graceGroups s := by
      unfold graceGroups
      refine List.filter_congr fun k _ => ?_
      by_cases here : k = g
      · subst here
        rw [own]
      · rw [other k here]
    refine ⟨Tab.rises_set groups _ _, ?_, rfl⟩
    unfold Calm
    rw [graces, own]
    exact calm
  · exact ⟨groups, calm, rfl⟩

/-- A token with a wrong CRC sets the fault bit and is dropped. -/
theorem takeToken_bad {ty : TokenType} {via : TokenVia} {k : Token} {s : State} (groups : Groups s) (calm : Calm 8 s) (type : k.type = ty)
    (bad : tokenOk k = false) : ∃ t, takeToken ty via k s = (none, t) ∧ FaultSet 8 4 t ∧ t.parts = s.parts := by
  obtain ⟨groups', calm', parts⟩ := fireInject_keeps (bit := 4) (corrects := false) groups calm
  refine ⟨raise 8 4 k.domain.val (fireInject 8 4 false s).2, ?_, Laws.raise_sets groups' (by decide), (Laws.raise_calm_parts groups' calm').trans parts⟩
  unfold takeToken
  dsimp only
  rw [if_neg (by simp [type]), if_pos (by simp [bad])]

/-! ### What a token does to its partition -/

theorem tryReady_idle {p : Nat} {s : State} (idle : (s.part p).ready = none) : tryReady p s = s := by
  unfold tryReady
  dsimp only
  rw [if_pos (by simp [idle])]

theorem tryForward_waits {p : Nat} {s : State} (waits : (s.part p).arrival = none) : tryForward p s = s := by
  unfold tryForward
  dsimp only
  rw [if_pos (by simp [waits])]

/-- An ARRIVE of a child. -/
def childArrived (port : Nat) (k : Token) (x : Part) : Part :=
  { x with children := x.children.filter (fun d => !(d.port == port && d.ready == k.flags.getLsbD 5)) ++
      [{ port := port, ready := k.flags.getLsbD 5, step := k.step, tick := k.tick, flags := k.flags }] }

theorem arriveToken_runs {via : TokenVia} {k : Token} {port : Nat} {s : State} (parts : Tab.wf {} s.parts = true) (good : GoodToken .arrive via k port s)
    (on : (s.part k.domain.val).cfg.enable = true) (child : port ∈ childPorts (s.part k.domain.val)) :
    let p := k.domain.val
    let u := (tokenTaken port k s).setPart p (childArrived port k (heardOn port k (s.part p)))
    arriveToken via k s = if k.flags.getLsbD 5 then tryReady p u else tryForward p u := by
  unfold arriveToken
  dsimp only
  rw [takeToken_good rfl good]
  dsimp only
  rw [(tokenTaken_is parts).is, if_neg]
  · rfl
  · have there : childPorts (heardOn port k (s.part k.domain.val)) = childPorts (s.part k.domain.val) := rfl
    have enabled : (heardOn port k (s.part k.domain.val)).cfg.enable = true := on
    rw [there, enabled, List.contains_eq_mem, decide_eq_true child]
    decide

/-- An ARRIVE of a child before the partition's own arrival is noted. -/
theorem arriveToken_notes {via : TokenVia} {k : Token} {port : Nat} {s : State} (parts : Tab.wf {} s.parts = true) (good : GoodToken .arrive via k port s)
    (on : (s.part k.domain.val).cfg.enable = true) (child : port ∈ childPorts (s.part k.domain.val)) (waits : (s.part k.domain.val).arrival = none)
    (idle : (s.part k.domain.val).ready = none) :
    let t := arriveToken via k s
    t.mem = s.mem ∧ t.part k.domain.val = childArrived port k (heardOn port k (s.part k.domain.val)) := by
  have runs := arriveToken_runs parts good on child
  have is := (tokenTaken_is (port := port) (k := k) parts).set (childArrived port k (heardOn port k (s.part k.domain.val)))
  have mem : ((tokenTaken port k s).setPart k.domain.val (childArrived port k (heardOn port k (s.part k.domain.val)))).mem = s.mem :=
    (tokenTaken_keeps port k s).2.2.1
  dsimp only at runs ⊢
  rw [runs]
  generalize (tokenTaken port k s).setPart _ _ = u at is mem ⊢
  rw [tryReady_idle (by rw [is.is]; exact idle), tryForward_waits (by rw [is.is]; exact waits), ite_self]
  exact ⟨mem, is.is⟩

/-- The last ARRIVE of the children makes a member send its own to its parent. -/
theorem arriveToken_forwards {via : TokenVia} {k : Token} {port : Nat} {own : Tick} {s : State} (parts : Tab.wf {} s.parts = true)
    (good : GoodToken .arrive via k port s) (on : (s.part k.domain.val).cfg.enable = true) (child : port ∈ childPorts (s.part k.domain.val))
    (arrived : (s.part k.domain.val).arrival = some own) (unsent : (s.part k.domain.val).arriveSent = false)
    (waiting : (s.part k.domain.val).state = .waiting) (member : (s.part k.domain.val).cfg.parentValid = true) (plain : k.flags.getLsbD 5 = false)
    (up : s.prfUp.getLsbD (s.part k.domain.val).cfg.proofParent.val = true) (all : allArrived (childArrived port k (s.part k.domain.val)) = true) :
    let y := childArrived port k (s.part k.domain.val)
    let t := arriveToken via k s
    (t.part k.domain.val).arriveSent = true ∧ Emit.token (.port y.cfg.proofParent) (mkToken .arrive k.domain.val (arriveFlags y) y.step32
      (latest s.clk.now.toNat own.toNat (y.children.filter (fun c => !c.ready)))) ∈ t.out := by
  have runs := arriveToken_runs parts good on child
  have is := (tokenTaken_is (port := port) (k := k) parts).set (childArrived port k (heardOn port k (s.part k.domain.val)))
  obtain ⟨-, clk, -, prfUp⟩ := tokenTaken_keeps port k s
  have clk : ((tokenTaken port k s).setPart k.domain.val (childArrived port k (heardOn port k (s.part k.domain.val)))).clk = s.clk := clk
  have prfUp : ((tokenTaken port k s).setPart k.domain.val (childArrived port k (heardOn port k (s.part k.domain.val)))).prfUp = s.prfUp := prfUp
  dsimp only at runs ⊢
  rw [runs, plain, if_neg Bool.false_ne_true]
  generalize (tokenTaken port k s).setPart _ _ = u at is clk prfUp ⊢
  generalize s.part k.domain.val = x at *
  obtain ⟨z, isz⟩ : ∃ z : Part, z = childArrived port k (heardOn port k x) := ⟨_, rfl⟩
  rw [← isz] at is
  have sends : tryForward k.domain.val u = sendToken z.cfg.proofParent.val
      (mkToken .arrive k.domain.val (arriveFlags z) z.step32 (subtreeArrival u k.domain.val)) (u.modPart k.domain.val (fun x => { x with arriveSent := true })) := by
    unfold tryForward
    dsimp only
    rw [is.is, isz, if_neg, if_neg, if_pos]
    · exact member
    · have every : allArrived (childArrived port k (heardOn port k x)) = true := all
      have stands : (childArrived port k (heardOn port k x)).state = .waiting := waiting
      have not_ : (childArrived port k (heardOn port k x)).arriveSent = false := unsent
      rw [every, stands, not_]
      decide
    · have there : (childArrived port k (heardOn port k x)).arrival = some own := arrived
      simp [there]
  have tick : subtreeArrival u k.domain.val = latest s.clk.now.toNat own.toNat ((childArrived port k x).children.filter (fun c => !c.ready)) := by
    unfold subtreeArrival
    dsimp only
    rw [is.is, clk, isz]
    have there : (childArrived port k (heardOn port k x)).arrival = some own := arrived
    rw [there]
    rfl
  rw [sends, tick]
  obtain ⟨⟨_, _, _, e⟩, sent⟩ := sendToken_sends z.cfg.proofParent.val
    (mkToken .arrive k.domain.val (arriveFlags z) z.step32 (latest s.clk.now.toNat own.toNat ((childArrived port k x).children.filter (fun c => !c.ready))))
    (u.modPart k.domain.val (fun x => { x with arriveSent := true }))
  constructor
  · have marked := (is.mod (fun x => { x with arriveSent := true })).keeps (t := sendToken z.cfg.proofParent.val _ _) (by rw [e])
    rw [marked.is]
  · have port_ : Fin.ofNat 8 x.cfg.proofParent.val = x.cfg.proofParent := Fin.ext (Nat.mod_eq_of_lt x.cfg.proofParent.isLt)
    rw [isz] at sent ⊢
    have out := sent (by show u.prfUp.getLsbD _ = true; rw [prfUp]; exact up)
    have parent : (childArrived port k (heardOn port k x)).cfg.proofParent = x.cfg.proofParent := rfl
    rw [parent, port_] at out
    exact out

end Sys2Proof.Machine
end


section
/-! SUPPORT. RELEASE, HOLD and BREAK at their receiver, the expiries of a proof, and O24 (R127 to R132, R142). -/
namespace Sys2Proof.Machine
open Sys2Proof Sys2Proof.Safety

/-! ### RELEASE (R127) -/

/-- The stretch of a step is noted in the partition alone. -/
theorem recordStretch_part {p A : Nat} {x : Part} {s : State} (is : PartIs p x s) :
    (∃ parts, recordStretch p A s = { s with parts := parts }) ∧
      ∃ st n m, PartIs p { x with stretch := st, stretchN := n, stretchMax := m } (recordStretch p A s) := by
  unfold recordStretch
  dsimp only
  split
  · exact ⟨⟨s.parts, rfl⟩, x.stretch, x.stretchN, x.stretchMax, is⟩
  · rw [is.is]
    exact ⟨⟨_, rfl⟩, _, _, _, is.set _⟩

theorem toChildren_keeps (p : Nat) (k : Token) (s : State) : (toChildren p k s).parts = s.parts ∧ (toChildren p k s).mem = s.mem := by
  obtain ⟨⟨_, _, _, e⟩, -⟩ := toChildren_sends p k s
  rw [e]
  exact ⟨rfl, rfl⟩

/-- A RELEASE goes to the children, and the release is armed. -/
theorem armRelease_toChildren {p : Nat} {T : Tick} {k : Token} {x : Part} {s : State} (is : PartIs p x s) :
    let t := armRelease p T false (toChildren p k s)
    t.part p = { x with armed := some { tick := T, distributed := false } } ∧ t.mem = s.mem ∧
      ∀ n ∈ childPorts x, s.prfUp.getLsbD n = true → Emit.token (.port (Fin.ofNat 8 n)) k ∈ t.out := by
  have sent := (toChildren_sends p k s).2
  obtain ⟨parts, mem⟩ := toChildren_keeps p k s
  have told := is.keeps parts
  rw [is.is] at sent
  dsimp only
  generalize toChildren p k s = u at told mem sent ⊢
  refine ⟨(armRelease_part T false told).is, ?_, fun n child up => (Laws.kept_armRelease (Laws.Kept.refl u)).sent.mem (sent n child up)⟩
  obtain ⟨_, e⟩ := sendStepInfo_shape p T (u.modPart p (fun x => { x with armed := some { tick := T, distributed := false } }))
  unfold armRelease
  rw [e]
  exact mem

/-- A RELEASE of the parent for the running step arms the release of a WAITING partition, and goes to the children. -/
theorem releaseToken_arms {via : TokenVia} {k : Token} {port : Nat} {s : State} (parts : Tab.wf {} s.parts = true) (good : GoodToken .release via k port s)
    (parent : fromParent (s.part k.domain.val) port = true) (waiting : (s.part k.domain.val).state = .waiting)
    (unarmed : (s.part k.domain.val).armed = none) (unsent : (s.part k.domain.val).readySent = false)
    (step : k.step.toNat = (s.part k.domain.val).step32) :
    let t := releaseToken via k s
    (t.part k.domain.val).domFlags = k.flags &&& 15#8 ∧ t.mem = s.mem ∧
      (t.part k.domain.val).armed = some { tick := BitVec.ofNat 64 (expand48 s.clk.now.toNat k.tick.toNat), distributed := false } ∧
      ∀ n ∈ childPorts (s.part k.domain.val), s.prfUp.getLsbD n = true → Emit.token (.port (Fin.ofNat 8 n)) k ∈ t.out := by
  have taken := tokenTaken_is (port := port) (k := k) parts
  obtain ⟨-, clk, mem, prfUp⟩ := tokenTaken_keeps port k s
  unfold releaseToken
  dsimp only
  rw [takeToken_good rfl good]
  dsimp only
  generalize tokenTaken port k s = u at taken clk mem prfUp ⊢
  generalize s.part k.domain.val = x at *
  rw [taken.is, clk]
  generalize BitVec.ofNat 64 (expand48 s.clk.now.toNat k.tick.toNat) = T
  have from_ : fromParent (heardOn port k x) port = true := parent
  have unsent : (heardOn port k x).readySent = false := unsent
  have unarmed : (heardOn port k x).armed = none := unarmed
  have waiting : (heardOn port k x).state = .waiting := waiting
  have step : k.step.toNat = (heardOn port k x).step32 := step
  rw [if_neg (by simp [from_]), if_neg (by simp [unsent]), if_neg (by simp [step, unarmed, waiting]), if_pos (by simp [waiting])]
  have flagged := taken.mod (fun x => { x with domFlags := k.flags &&& 15#8 })
  obtain ⟨v, isv⟩ : ∃ v : State, v = u.modPart k.domain.val (fun x => { x with domFlags := k.flags &&& 15#8 }) := ⟨_, rfl⟩
  have vkeeps : v.mem = u.mem ∧ v.prfUp = u.prfUp := by rw [isv]; exact ⟨rfl, rfl⟩
  rw [← isv] at flagged ⊢
  generalize (max _ _ : Nat) = A
  obtain ⟨⟨_, e⟩, st, n, m, stretched⟩ := recordStretch_part (A := A) flagged
  have wkeeps : (recordStretch k.domain.val A v).mem = v.mem ∧ (recordStretch k.domain.val A v).prfUp = v.prfUp := by rw [e]; exact ⟨rfl, rfl⟩
  generalize recordStretch k.domain.val A v = w at stretched wkeeps ⊢
  obtain ⟨armed, tmem, sent⟩ := armRelease_toChildren (T := T) (k := k) stretched
  rw [armed]
  refine ⟨rfl, tmem.trans (wkeeps.1.trans (vkeeps.1.trans mem)), rfl, fun c child up => sent c child ?_⟩
  rw [wkeeps.2, vkeeps.2, prfUp]
  exact up

/-! ### HOLD (R128, R130) -/

/-- What a token to the children leaves of the partitions. -/
theorem toChildren_part {α : Type} {f : Part → α} (p : Nat) (k : Token) (s : State) : PartWork f s (toChildren p k s) :=
  .foldl (fun s _ => .token _ _ s) _ s

/-- LATE is set, and the partition notes that it is. -/
theorem lateRaised_shows {p : Nat} {s : State} (parts : Tab.wf {} s.parts = true) (groups : Groups s) (calm : Calm 8 s) :
    let t := raise 8 2 p (s.modPart p (fun x => { x with lateSent := true }))
    FaultSet 8 2 t ∧ shown (t.part p) = { shown (s.part p) with lateSent := true } := by
  have is := (PartIs.mk parts rfl).mod (p := p) (fun x => { x with lateSent := true })
  have flt : (s.modPart p (fun x => { x with lateSent := true })).flt = s.flt := rfl
  dsimp only
  generalize s.modPart p (fun x => { x with lateSent := true }) = u at is flt ⊢
  have ugroups : Groups u := groups_of_flt flt groups
  refine ⟨Laws.raise_sets ugroups (by decide), ?_⟩
  rw [(is.keeps (Laws.raise_calm_parts ugroups (calm_keeps flt calm))).is]
  rfl

/-- A HOLD for LATE holds a RUNNING partition. -/
theorem holdToken_holds {via : TokenVia} {k : Token} {port : Nat} {s : State} (parts : Tab.wf {} s.parts = true) (groups : Groups s)
    (good : GoodToken .hold via k port s) (parent : fromParent (s.part k.domain.val) port = true) (step : k.step.toNat = (s.part k.domain.val).step32)
    (late : k.flags.toNat / 32 = 0) (open_ : k.flags.getLsbD 4 = false) (running : (s.part k.domain.val).state = .running)
    (unsent : (s.part k.domain.val).lateSent = false) (calm : Calm 8 s) :
    let t := holdToken via k s
    FaultSet 8 2 t ∧ shown (t.part k.domain.val) = { shown (s.part k.domain.val) with
      state := .held, hold := firstHold ((s.part k.domain.val).holds ||| 1#7), holds := (s.part k.domain.val).holds ||| 1#7, heldDone := false,
      lateSent := true } := by
  have taken := tokenTaken_is (port := port) (k := k) parts
  obtain ⟨flt, -, -, -⟩ := tokenTaken_keeps port k s
  unfold holdToken
  dsimp only
  rw [takeToken_good rfl good]
  dsimp only
  generalize tokenTaken port k s = u at taken flt ⊢
  have told : PartWork shown u (toChildren k.domain.val k u) := toChildren_part _ _ _
  generalize toChildren k.domain.val k u = v at told ⊢
  generalize s.part k.domain.val = x at *
  rw [taken.is]
  have from_ : fromParent (heardOn port k x) port = true := parent
  have step : k.step.toNat = (heardOn port k x).step32 := step
  have unsent : (heardOn port k x).lateSent = false := unsent
  have running : (heardOn port k x).state = .running := running
  have code : Hold.ofCode (k.flags.toNat / 32 + 1) = .late := by rw [late]; rfl
  rw [if_neg (by simp [from_, step]), if_pos (by simp [running, code]), if_pos (by simp [unsent, code]), if_neg (by rw [open_]; simp)]
  have vparts := told.wf taken.parts
  obtain ⟨hflt, hparts, held⟩ := enterHeld_shows (p := k.domain.val) (m := 1#7) vparts
  have vx := told.keeps taken.parts k.domain.val
  rw [taken.is] at vx
  have holds : (v.part k.domain.val).holds = x.holds := congrArg Shown.holds vx
  generalize enterHeld k.domain.val 1#7 false v = w at hflt hparts held ⊢
  have wflt : w.flt = s.flt := hflt.trans (told.flt.trans flt)
  obtain ⟨fault, shows⟩ := lateRaised_shows (p := k.domain.val) hparts (groups_of_flt wflt groups) (calm_keeps wflt calm)
  refine ⟨fault, shows.trans ?_⟩
  rw [held, vx, holds]
  rfl

/-! ### BREAK (R131) -/

/-- A BREAK on a port of the tree takes a WAITING partition out, and waits for the end of the work of a RUNNING one. -/
theorem breakToken_breaks {via : TokenVia} {k : Token} {port : Nat} {s : State} (parts : Tab.wf {} s.parts = true) (groups : Groups s)
    (good : GoodToken .brk via k port s) (on : (s.part k.domain.val).cfg.enable = true) (tree : port ∈ treePorts (s.part k.domain.val)) :
    let t := breakToken via k s
    ((s.part k.domain.val).state = .running → (t.part k.domain.val).breakDue = true ∧ (t.part k.domain.val).state = .running) ∧
    ((s.part k.domain.val).state = .waiting → (s.part k.domain.val).armed = none → Calm 8 s →
      (t.part k.domain.val).state = .broken ∧ (t.part k.domain.val).lastStatus = .aborted ∧ FaultSet 8 1 t) := by
  have taken := tokenTaken_is (port := port) (k := k) parts
  obtain ⟨flt, -, -, -⟩ := tokenTaken_keeps port k s
  unfold breakToken
  dsimp only
  rw [takeToken_good rfl good]
  dsimp only
  generalize tokenTaken port k s = u at taken flt ⊢
  generalize s.part k.domain.val = x at *
  rw [taken.is, if_neg (by
    have on : (heardOn port k x).cfg.enable = true := on
    have tree : port ∈ treePorts (heardOn port k x) := tree
    simp [on, tree])]
  refine ⟨fun running => ?_, fun waiting unarmed calm => ?_⟩
  · have runs : (heardOn port k x).state = .running := running
    rw [runs]
    dsimp only
    rw [(taken.mod (fun x => { x with breakDue := true })).is]
    exact ⟨rfl, runs⟩
  · have waits : (heardOn port k x).state = .waiting := waiting
    have unarmed : (heardOn port k x).armed = none := unarmed
    rw [waits]
    dsimp only
    rw [if_neg (by simp [unarmed])]
    obtain ⟨fault, shows⟩ := enterBroken_shows (p := k.domain.val) (tell := false) taken.parts (groups_of_flt flt groups) (calm_keeps flt calm)
    exact ⟨congrArg Shown.state shows, congrArg Shown.lastStatus shows, fault⟩

/-! ### Expiries (R129, R132, R142) -/

/-- The root holds its domain for LATE. -/
theorem lateLimitExpiry_holds {p : Nat} {s : State} (parts : Tab.wf {} s.parts = true) (groups : Groups s) (calm : Calm 8 s)
    (root : (s.part p).cfg.parentValid = false) (active : (s.part p).active = true) (proof : recProof (s.part p).rec_ = true)
    (spent : (s.part p).budgetOver = true) (unsent : (s.part p).lateSent = false) (silent : (s.part p).arriveSent = false) :
    let t := lateLimitExpiry p s
    FaultSet 8 2 t ∧ shown (t.part p) = { shown (s.part p) with
      state := .held, hold := firstHold ((s.part p).holds ||| 1#7), holds := (s.part p).holds ||| 1#7, heldDone := false, lateSent := true } := by
  unfold lateLimitExpiry
  dsimp only
  rw [if_neg (by simp [root, active, proof, spent, unsent, silent])]
  have told := toChildren_part (f := shown) p (mkToken .hold p 0 (s.part p).step32 (s.clk.now.toNat % 2 ^ 48)) s
  have vx := told.keeps parts p
  have vparts := told.wf parts
  have vflt := told.flt
  generalize toChildren p _ s = v at vx vparts vflt ⊢
  have noted := (PartIs.mk vparts rfl).mod (p := p) (fun x => { x with lateSent := true, holds := x.holds ||| 1#7, heldDone := false })
  have wflt : (v.modPart p (fun x => { x with lateSent := true, holds := x.holds ||| 1#7, heldDone := false })).flt = s.flt := vflt
  generalize v.modPart p (fun x => { x with lateSent := true, holds := x.holds ||| 1#7, heldDone := false }) = w at noted wflt ⊢
  obtain ⟨hflt, hparts, held⟩ := enterHeld_shows (p := p) (m := 0#7) noted.parts
  rw [noted.is] at held
  generalize enterHeld p 0#7 false w = z at hflt hparts held ⊢
  have zgroups := groups_of_flt (hflt.trans wflt) groups
  refine ⟨Laws.raise_sets zgroups (by decide), ?_⟩
  have same : (raise 8 2 p z).part p = z.part p := by
    unfold State.part
    rw [Laws.raise_calm_parts zgroups (calm_keeps (hflt.trans wflt) calm)]
  have holds : (v.part p).holds = (s.part p).holds := congrArg Shown.holds vx
  have more : ((v.part p).holds ||| 1#7) ||| 0#7 = (s.part p).holds ||| 1#7 := by rw [holds, BitVec.or_zero]
  rw [same, held]
  show Shown.mk _ (firstHold (((v.part p).holds ||| 1#7) ||| 0#7)) (((v.part p).holds ||| 1#7) ||| 0#7) _ _ _ _ _ = _
  rw [more]
  have ready : (v.part p).ready = (s.part p).ready := congrArg Shown.ready vx
  have status : (v.part p).lastStatus = (s.part p).lastStatus := congrArg Shown.lastStatus vx
  have quiet : (v.part p).silent = (s.part p).silent := congrArg Shown.silent vx
  simp only [shown, ready, status, quiet]

/-- A proof that neither a RELEASE nor a complete HOLD ends breaks its partition. -/
theorem proofTimeoutExpiry_breaks {p : Nat} {s : State} (arrived : (s.part p).arrival.isSome = true) (proof : recProof (s.part p).rec_ = true)
    (waiting : (s.part p).state = .waiting) (unarmed : (s.part p).armed = none) : proofTimeoutExpiry p s = enterBroken p true s := by
  unfold proofTimeoutExpiry
  dsimp only
  rw [if_pos (by simp [arrived, proof, waiting, unarmed])]

/-- A distributed release that does not complete. -/
theorem readyTimeout_ends {p : Nat} {s : State} (parts : Tab.wf {} s.parts = true) (groups : Groups s) (calm : Calm 8 s)
    (ready : (s.part p).ready.isSome = true) (unarmed : (s.part p).armed = none) :
    let t := readyTimeout p s
    FaultSet 8 1 t ∧ (t.part p).ready = none ∧ (t.part p).state = (if (s.part p).state = .held then .broken else (s.part p).state) := by
  unfold readyTimeout
  dsimp only
  rw [if_neg (by simp [Option.isSome_iff_ne_none.mp ready, unarmed])]
  have is := (PartIs.mk parts rfl).mod (p := p) (fun x => { x with ready := none, readySent := false })
  have flt : (s.modPart p (fun x => { x with ready := none, readySent := false })).flt = s.flt := rfl
  generalize s.modPart p (fun x => { x with ready := none, readySent := false }) = u at is flt ⊢
  have ugroups := groups_of_flt flt groups
  have ucalm := calm_keeps flt calm
  by_cases held : (s.part p).state = .held
  · rw [if_pos (by simp [held]), if_pos held]
    obtain ⟨fault, shows⟩ := enterBroken_shows (p := p) (tell := false) is.parts ugroups ucalm
    rw [is.is] at shows
    exact ⟨fault, congrArg Shown.ready shows, congrArg Shown.state shows⟩
  · rw [if_neg (by simp [held]), if_neg held]
    rw [(is.keeps (Laws.raise_calm_parts ugroups ucalm)).is]
    exact ⟨Laws.raise_sets ugroups (by decide), rfl, rfl⟩

end Sys2Proof.Machine

namespace Sys2Proof.Proofs
open Sys2Proof Sys2Proof.Machine Sys2Proof.Safety

/-- Settles O24: a token is taken once, and then does to its partition the one thing that its type and the partition's state select; the
expiries hold or break by the same two changes of state. -/
theorem proofTokensAndExpiries : Obligations.ProofTokensAndExpiries := by
  unfold Obligations.ProofTokensAndExpiries
  refine ⟨fun via k s canon => ?_, fun p s canon calm => ?_⟩
  · intro p x
    have groups := groups_of_canon canon
    obtain ⟨-, parts, -⟩ := canon
    refine ⟨fun bad calm => ⟨fun type => ⟨_, rfl, ?_⟩, fun type => ⟨_, rfl, ?_⟩, fun type => ⟨_, rfl, ?_⟩, fun type => ⟨_, rfl, ?_⟩⟩, fun port good on child => ⟨fun waits idle => ⟨_, rfl, ?_⟩,
        fun own arrived unsent waiting member plain up all => ⟨_, rfl, ?_⟩⟩,
      fun port good parent waiting unarmed unsent step => ⟨_, rfl, ?_⟩,
      fun port good parent step late open_ running unsent calm => ⟨_, rfl, ?_⟩, fun port good on tree => ?_⟩
    · obtain ⟨t, took, fault, same⟩ := takeToken_bad (via := via) groups calm type bad
      have runs : arriveToken via k s = t := by unfold arriveToken; rw [took]
      rw [runs]
      exact ⟨faultSet_keeps (refresh_groups _) fault, (refresh_parts t).trans same⟩
    · obtain ⟨t, took, fault, same⟩ := takeToken_bad (via := via) groups calm type bad
      have runs : releaseToken via k s = t := by unfold releaseToken; rw [took]
      rw [runs]
      exact ⟨faultSet_keeps (refresh_groups _) fault, (refresh_parts t).trans same⟩
    · obtain ⟨t, took, fault, same⟩ := takeToken_bad (via := via) groups calm type bad
      have runs : holdToken via k s = t := by unfold holdToken; rw [took]
      rw [runs]
      exact ⟨faultSet_keeps (refresh_groups _) fault, (refresh_parts t).trans same⟩
    · obtain ⟨t, took, fault, same⟩ := takeToken_bad (via := via) groups calm type bad
      have runs : breakToken via k s = t := by unfold breakToken; rw [took]
      rw [runs]
      exact ⟨faultSet_keeps (refresh_groups _) fault, (refresh_parts t).trans same⟩
    · obtain ⟨mem, is⟩ := arriveToken_notes parts good on child waits idle
      rw [refresh_mem, refresh_part, is]
      refine ⟨mem, List.mem_append_right _ (List.mem_singleton.mpr rfl), fun low => ?_⟩
      show (putBit (s.part k.domain.val).heard port true).getLsbD port = true
      rw [getLsbD_putBit, if_pos rfl]
      simp [low]
    · have same : { x with children := x.children.filter (fun d => !(d.port == port && d.ready == false)) ++
          [{ port := port, ready := false, step := k.step, tick := k.tick, flags := k.flags }] } = childArrived port k x := by
        unfold childArrived
        rw [plain]
      rw [same] at all ⊢
      obtain ⟨sent, out⟩ := arriveToken_forwards parts good on child arrived unsent waiting member plain up all
      rw [refresh_part]
      exact ⟨sent, refresh_sent out⟩
    · obtain ⟨flags, mem, armed, sent⟩ := releaseToken_arms parts good parent waiting unarmed unsent step
      rw [refresh_part, refresh_mem]
      exact ⟨flags, mem, armed, fun n child up => refresh_sent (sent n child up)⟩
    · obtain ⟨fault, shows⟩ := holdToken_holds parts groups good parent step late open_ running unsent calm
      rw [refresh_part]
      exact ⟨congrArg Shown.state shows, congrArg Shown.holds shows, congrArg Shown.hold shows, congrArg Shown.heldDone shows,
        faultSet_keeps (refresh_groups _) fault⟩
    · obtain ⟨runs, stands⟩ := breakToken_breaks parts groups good on tree
      refine ⟨fun running => ⟨_, rfl, ?_⟩, fun waiting unarmed calm => ⟨_, rfl, ?_⟩⟩
      · rw [refresh_part]
        exact runs running
      · obtain ⟨state, status, fault⟩ := stands waiting unarmed calm
        rw [refresh_part]
        exact ⟨state, status, faultSet_keeps (refresh_groups _) fault⟩
  · intro x
    have groups := groups_of_canon canon
    obtain ⟨-, parts, -⟩ := canon
    refine ⟨fun root active proof spent unsent silent => ⟨_, rfl, ?_⟩, fun arrived proof waiting unarmed => ⟨_, rfl, ?_⟩,
      fun ready unarmed => ⟨_, rfl, readyTimeout_ends parts groups calm ready unarmed⟩⟩
    · obtain ⟨fault, shows⟩ := lateLimitExpiry_holds parts groups calm root active proof spent unsent silent
      exact ⟨congrArg Shown.state shows, congrArg Shown.holds shows, congrArg Shown.hold shows, congrArg Shown.lateSent shows,
        congrArg Shown.heldDone shows, fault⟩
    · obtain ⟨fault, shows⟩ := enterBroken_shows (p := p.val) (tell := true) parts groups calm
      rw [proofTimeoutExpiry_breaks arrived proof waiting unarmed, refresh_part]
      exact ⟨congrArg Shown.state shows, congrArg Shown.lastStatus shows, congrArg Shown.silent shows, faultSet_keeps (refresh_groups _) fault⟩

end Sys2Proof.Proofs
end


section
/-! SUPPORT. The control micro-operations (R169, R174, R193). -/
namespace Sys2Proof.Machine
open Sys2Proof Sys2Proof.Safety

/-- A cell that goes where its micro-operation sends it. -/
def Cell.stepped (sl : BitVec 16384) (o : UOut) (c : Cell) : Cell :=
  { c with pc := o.jump.getD (c.pc + 1), done := o.fin || (o.jump.isNone && decide (opCount sl ≤ c.pc + 1)) }

section
variable {n op : Nat} {ready : UCtx → State → Bool} {body : UCtx → List Nat → Bool → State → UOut} {x : UCtx} {s : State}

/-- A micro-operation without operands and results issues where its body may run. -/
theorem control_issues (clean : CleanCell n s) (next : nextUop s n = some x) (code : x.u.op = op) (go : ready x s = true) {o : UOut}
    (ran : body x [] false s = o) (none_ : o.outs = []) :
    issue n op noSrc false false false ready body s = refresh (touchColumn x.k (advance x o (forwardVecs n x.route o.st))) := by
  have free : ¬ (x.u.op != op || !srcsReady s n (noSrc x.u) ||
      !(!(false && x.u.dst == 0x28) || hasRoom s (routeTargets s n x.route 5)) || !ready x s) = true := by
    have none_ : srcsReady s n (noSrc x.u) = true := rfl
    simp [code, none_, go]
  unfold issue
  rw [next]
  dsimp only
  rw [if_neg free, slotRead_clean clean]
  have plain : body x ([].map (fun v : Vec => v.bits.toNat)) (false || false) s = o := ran
  dsimp only [noSrc, readSrcs, List.any_nil]
  simp only [Bool.or_false, Bool.false_eq_true, if_false] at plain ⊢
  rw [plain, none_]
  rfl

/-- What such an issue does to its cell. -/
theorem control_becomes (clean : CleanCell n s) (next : nextUop s n = some x) (code : x.u.op = op) (go : ready x s = true) {o : UOut}
    (ran : body x [] false s = o) (none_ : o.outs = []) {c : Cell} (h : CellBecomes n c s o.st) :
    CellBecomes n (c.stepped x.sl o) s (issue n op noSrc false false false ready body s) := by
  rw [control_issues clean next code go ran none_]
  have own := nextUop_cell next
  subst own
  have forwarded := h.forwardVecs x.route
  have stepped : (((forwardVecs x.n x.route o.st).cell x.n).stepped x.sl o).core = (c.stepped x.sl o).core :=
    congrArg (Cell.stepped x.sl o) forwarded.own
  exact ((forwarded.setOwn stepped).touchColumn x.k).refresh

/-- A micro-operation that may not run yet leaves the state. -/
theorem control_waits (next : nextUop s n = some x) (waits : ready x s = false) : issue n op noSrc false false false ready body s = s := by
  unfold issue
  rw [next]
  dsimp only
  rw [if_pos (by simp [waits])]

end

/-- A cell that went on to the next micro-operation, and whose registers are as before elsewhere. -/
theorem CellBecomes.straight {n : Nat} {c : Cell} {x : UCtx} {o : UOut} {s t : State} (pc : c.pc = (s.cell n).pc) (straight : o.jump = none)
    (unended : o.fin = false) (h : CellBecomes n (c.stepped x.sl o) s t) : Advanced n x s t := by
  have issued : c.stepped x.sl o = c.issued x.sl false := by
    unfold Cell.stepped Cell.issued
    rw [straight, unended]
    rfl
  exact (issued ▸ h).advanced pc

/-! ### SYNC (R193) -/

/-- The cells of a column. -/
def columnCells (k : Nat) : List Nat := (List.range 16).map (fun r => cellBase k + r)

theorem mem_columnCells (n : Nat) : n ∈ columnCells (colOf n) := by
  unfold columnCells cellBase colOf
  exact List.mem_map.mpr ⟨n % 16, List.mem_range.mpr (Nat.mod_lt _ (by decide)), by omega⟩

/-- The living cells of a column. -/
def livingCells (k : Nat) (s : State) : List Nat := (columnCells k).filter (fun m => !(s.cell m).killed)

/-- Cells all of which wait with one number. -/
def AllWait (live : List Nat) (s : State) : Prop := ∃ t, live ≠ [] ∧ ∀ m ∈ live, (s.cell m).sync = some t

/-- The cells of a list, none of which waits any more. -/
def freeCells (live : List Nat) (s : State) : State := live.foldl (fun s m => s.setCell m { s.cell m with sync := none }) s

/-- The waits of a column's living cells end together. -/
theorem syncColumn_frees (k : Nat) (s : State) :
    (AllWait (livingCells k s) s → syncColumn k s = freeCells (livingCells k s) s) ∧ (¬ AllWait (livingCells k s) s → syncColumn k s = s) := by
  have runs : syncColumn k s = (match (livingCells k s).map (fun n => (s.cell n).sync) with
    | some t :: rest => if rest.all (· == some t) then freeCells (livingCells k s) s else s
    | _ => s) := rfl
  rw [runs]
  generalize livingCells k s = live
  cases live with
  | nil => exact ⟨fun ⟨_, ne, _⟩ => absurd rfl ne, fun _ => rfl⟩
  | cons m ms =>
    rw [List.map_cons]
    cases first : (s.cell m).sync with
    | none => exact ⟨fun ⟨t, _, all⟩ => by simp [first] at all, fun _ => rfl⟩
    | some t =>
      have every : AllWait (m :: ms) s ↔ (ms.map (fun j => (s.cell j).sync)).all (· == some t) = true := by
        rw [List.all_eq_true]
        constructor
        · rintro ⟨u, -, all⟩ y mem
          obtain ⟨j, there, rfl⟩ := List.mem_map.mp mem
          have same : some t = some u := first.symm.trans (all m List.mem_cons_self)
          rw [all j (List.mem_cons_of_mem m there), ← same]
          exact beq_self_eq_true _
        · intro all
          refine ⟨t, by simp, fun j mem => ?_⟩
          obtain rfl | there := List.mem_cons.mp mem
          · exact first
          · exact eq_of_beq (all _ (List.mem_map.mpr ⟨j, there, rfl⟩))
      exact ⟨fun go => if_pos (every.mp go), fun not_ => if_neg (fun is => not_ (every.mpr is))⟩

/-- What freeing cells leaves: each named cell no longer waits, and nothing else of any cell changes. -/
theorem freeCells_frees (live : List Nat) (s : State) (cells : Tab.wf {} s.fab.cells = true) :
    (freeCells live s).mem = s.mem ∧ ∀ m, (freeCells live s).cell m = { s.cell m with sync := if m ∈ live then none else (s.cell m).sync } := by
  unfold freeCells
  induction live generalizing s with
  | nil => exact ⟨rfl, fun m => by rw [if_neg List.not_mem_nil]; rfl⟩
  | cons k live ih =>
    rw [List.foldl_cons]
    obtain ⟨mem, frees⟩ := ih (s.setCell k { s.cell k with sync := none }) (Tab.wf_set cells k _)
    refine ⟨mem, fun m => ?_⟩
    rw [frees m]
    by_cases here : m = k
    · subst here
      rw [State.cell_setCell cells, if_pos List.mem_cons_self]
      simp
    · rw [State.cell_setCell_other cells here]
      simp [here]

/-- SYNC waits, unless every other living cell of the column already waits with the same number, which frees them all. -/
theorem uSync_waits {n : Nat} {x : UCtx} {s : State} (canon : Canon s) (clean : CleanCell n s) (next : nextUop s n = some x) (code : x.u.op = 0x04)
    (alive : (s.cell n).killed = false) :
    let others := (columnCells (colOf n)).filter (fun m => m != n && !(s.cell m).killed)
    Advanced n x s (uSync n s) ∧ ((uSync n s).cell n).sync =
      (if others.all (fun m => (s.cell m).sync == some (bits x.u.imm 0 8)) then none else some (bits x.u.imm 0 8)) := by
  have own := nextUop_cell next
  subst own
  have becomes_ : CellBecomes x.n { s.cell x.n with sync := some (bits x.u.imm 0 8) } s
      (s.setCell x.n { s.cell x.n with sync := some (bits x.u.imm 0 8) }) := (CellBecomes.start canon clean).setOwn rfl
  have becomes := control_becomes (ready := always) (o := { st := s.setCell x.n { s.cell x.n with sync := some (bits x.u.imm 0 8) } })
    (body := fun x _ _ s => { st := s.setCell x.n { s.cell x.n with sync := some (bits x.u.imm 0 8) } }) clean next code rfl rfl rfl becomes_
  dsimp only
  unfold uSync
  generalize bits x.u.imm 0 8 = tag at becomes ⊢
  generalize issue x.n 0x04 noSrc false false false always _ s = u at becomes ⊢
  have advanced : Advanced x.n x s u := CellBecomes.straight (c := { s.cell x.n with sync := some tag }) rfl rfl rfl becomes
  have ownSync : (u.cell x.n).sync = some tag := congrArg Cell.sync becomes.own
  have ownAlive : (u.cell x.n).killed = false := (congrArg Cell.killed becomes.own).trans alive
  have other : ∀ m, m ≠ x.n → (u.cell m).sync = (s.cell m).sync ∧ (u.cell m).killed = (s.cell m).killed := fun m ne =>
    ⟨(congrArg Cell.sync (becomes.other m ne) :), (congrArg Cell.killed (becomes.other m ne) :)⟩
  have inColumn : x.n ∈ livingCells (colOf x.n) u :=
    List.mem_filter.mpr ⟨mem_columnCells x.n, by rw [ownAlive]; rfl⟩
  have all_iff : AllWait (livingCells (colOf x.n) u) u ↔
      ((columnCells (colOf x.n)).filter (fun m => m != x.n && !(s.cell m).killed)).all (fun m => (s.cell m).sync == some tag) = true := by
    rw [List.all_eq_true]
    constructor
    · rintro ⟨t, -, all⟩ m mem
      obtain ⟨column, stands⟩ := List.mem_filter.mp mem
      have apart : m ≠ x.n ∧ (s.cell m).killed = false := by simpa using stands
      have same : some t = some tag := (all x.n inColumn).symm.trans ownSync
      have waits := all m (List.mem_filter.mpr ⟨column, by rw [(other m apart.1).2, apart.2]; rfl⟩)
      rw [← (other m apart.1).1, waits, same]
      exact beq_self_eq_true _
    · intro all
      refine ⟨tag, List.ne_nil_of_mem inColumn, fun m mem => ?_⟩
      by_cases here : m = x.n
      · rw [here]
        exact ownSync
      · obtain ⟨column, living⟩ := List.mem_filter.mp mem
        rw [(other m here).1]
        refine eq_of_beq (all m (List.mem_filter.mpr ⟨column, ?_⟩))
        rw [← (other m here).2]
        simpa [here] using living
  obtain ⟨frees, stays⟩ := syncColumn_frees (colOf x.n) u
  by_cases go : ((columnCells (colOf x.n)).filter (fun m => m != x.n && !(s.cell m).killed)).all (fun m => (s.cell m).sync == some tag) = true
  · rw [frees (all_iff.mpr go), if_pos go]
    obtain ⟨mem, frees⟩ := freeCells_frees (livingCells (colOf x.n) u) u becomes.cells
    obtain ⟨pc, done, kept, rest⟩ := advanced
    refine ⟨⟨?_, ?_, mem.trans kept, fun m ne => ?_⟩, ?_⟩
    · rw [frees]
      exact pc
    · rw [frees]
      exact done
    · rw [frees]
      exact rest m ne
    · rw [frees, if_pos inColumn]
  · rw [stays (fun is => go (all_iff.mp is)), if_neg go]
    exact ⟨advanced, ownSync⟩

/-! ### LOOP -/

/-- A cell whose loop counter has been set. -/
def Cell.counted (k : Nat) (v : Option Nat) (c : Cell) : Cell := { c with loops := Tab.set none c.loops k v }

/-- LOOP counts down and jumps, or falls through with its counter idle. -/
theorem uLoop_counts {n : Nat} {x : UCtx} {s : State} (canon : Canon s) (clean : CleanCell n s) (next : nextUop s n = some x) (code : x.u.op = 0x02) :
    let k := bits x.u.imm 22 1
    let v := (Tab.get none (s.cell n).loops k).getD (bits x.u.imm 6 16)
    (uLoop n s).mem = s.mem ∧ ((uLoop n s).cell n).loops = Tab.set none (s.cell n).loops k (if v = 0 then none else some (v - 1)) ∧
      ((uLoop n s).cell n).pc = (if v = 0 then (s.cell n).pc + 1 else bits x.u.imm 0 6) := by
  have own := nextUop_cell next
  subst own
  dsimp only
  have body : loopBody x s = if (Tab.get none (s.cell x.n).loops (bits x.u.imm 22 1)).getD (bits x.u.imm 6 16) = 0 then
      { st := s.setCell x.n ((s.cell x.n).counted (bits x.u.imm 22 1) none) }
    else { st := s.setCell x.n ((s.cell x.n).counted (bits x.u.imm 22 1)
        (some ((Tab.get none (s.cell x.n).loops (bits x.u.imm 22 1)).getD (bits x.u.imm 6 16) - 1))), jump := some (bits x.u.imm 0 6) } := rfl
  unfold uLoop
  generalize (Tab.get none (s.cell x.n).loops (bits x.u.imm 22 1)).getD (bits x.u.imm 6 16) = v at body ⊢
  have counted : ∀ w, CellBecomes x.n ((s.cell x.n).counted (bits x.u.imm 22 1) w) s (s.setCell x.n ((s.cell x.n).counted (bits x.u.imm 22 1) w)) :=
    fun w => (CellBecomes.start canon clean).setOwn rfl
  by_cases zero : v = 0
  · rw [if_pos zero] at body
    have becomes := control_becomes (ready := always) (body := fun x _ _ s => loopBody x s) clean next code rfl body rfl (counted _)
    rw [if_pos zero, if_pos zero]
    exact ⟨becomes.mem, congrArg Cell.loops becomes.own, congrArg Cell.pc becomes.own⟩
  · rw [if_neg zero] at body
    have becomes := control_becomes (ready := always) (body := fun x _ _ s => loopBody x s) clean next code rfl body rfl (counted _)
    rw [if_neg zero, if_neg zero]
    exact ⟨becomes.mem, congrArg Cell.loops becomes.own, congrArg Cell.pc becomes.own⟩

end Sys2Proof.Machine
end


section
/-! SUPPORT. The commands of the fabric's columns and cells, and O27 (R190 to R199, R202). -/
namespace Sys2Proof.Machine
open Sys2Proof Sys2Proof.Safety

/-! ### Errors of a cell (R195, R196) -/

/-- The quadrant and the column of a cell's physical position. -/
theorem cellSpot_physCell (s : State) (n : Nat) : (cellSpot (n / 512) (physCell s n)).1 = colOf n := by
  have row : physRow (s.col (colOf n)) (n % 16) < 17 := by
    unfold physRow
    split <;> omega
  unfold cellSpot physCell colOf at *
  dsimp only
  by_cases last : physRow (s.col (n / 512 * 32 + n % 512 / 16)) (n % 16) = 16
  · rw [if_pos last, if_neg (by omega)]
    omega
  · rw [if_neg last, if_pos (by omega)]
    omega

/-- What the strike itself leaves, and where its poison stands. -/
theorem strikeCell_poisons {n : Nat} {w : CellPart} {s : State} (cells : Tab.wf {} s.fab.cells = true) :
    (∃ x, strikeCell n w s = s.setCell n x) ∧
      (∀ r : Fin 32, w = .vreg r ∨ w = .residue r → (Tab.get {} ((strikeCell n w s).cell n).v r.val).poison = true) ∧
      (∀ l, w = .ls l → (Tab.get {} ((strikeCell n w s).cell n).ls l.val).poison = true) ∧
      (∀ k, w = .slot k → ((strikeCell n w s).cell n).slotBad.getLsbD k.val = true) ∧
      (∀ a, w = .accParity a → (Tab.get {} ((strikeCell n w s).cell n).acc a.val).poison = true) := by
  have struck : ∀ (t : Tab Vec) (i : Nat), (Tab.get {} (Tab.upd {} t i (fun v => { v with poison := true })) i).poison = true := by
    intro t i
    unfold Tab.upd Tab.set
    rw [if_neg (fun is => absurd (congrArg Vec.poison is) (by simp)), Tab.get_put_same]
  unfold strikeCell
  dsimp only
  cases w with
  | ls l =>
    refine ⟨⟨_, rfl⟩, fun r is => (by simp at is), fun k is => ?_, fun k is => (by cases is), fun a is => (by cases is)⟩
    obtain rfl : l = k := by injection is
    rw [State.cell_setCell cells]
    exact struck _ _
  | slot k =>
    refine ⟨⟨_, rfl⟩, fun r is => (by simp at is), fun l is => (by cases is), fun j is => ?_, fun a is => (by cases is)⟩
    obtain rfl : k = j := by injection is
    rw [State.cell_setCell cells]
    exact Laws.putBit_same _ k.isLt
  | vreg r =>
    refine ⟨⟨_, rfl⟩, fun j is => ?_, fun l is => (by cases is), fun k is => (by cases is), fun a is => (by cases is)⟩
    obtain rfl : r = j := by simpa using is
    rw [State.cell_setCell cells]
    exact struck _ _
  | accParity a =>
    refine ⟨⟨_, rfl⟩, fun r is => (by simp at is), fun l is => (by cases is), fun k is => (by cases is), fun j is => ?_⟩
    obtain rfl : a = j := by injection is
    rw [State.cell_setCell cells]
    exact struck _ _
  | residue r =>
    refine ⟨⟨_, rfl⟩, fun j is => ?_, fun l is => (by cases is), fun k is => (by cases is), fun a is => (by cases is)⟩
    obtain rfl : r = j := by simpa using is
    rw [State.cell_setCell cells]
    exact struck _ _

/-- The failure of a cell: the quadrant's record, its fault bit, and the loss of a column that has no spare. -/
theorem cellFails_records {q bit phys : Nat} {s : State} (quads : Tab.wf {} s.fab.quads = true) (groups : Groups s) (calm : Calm (24 + q) s)
    (low : bit < 32) :
    let t := cellFails q bit phys s
    FaultSet (24 + q) bit t ∧ t.mem = s.mem ∧ t.fab.cells = s.fab.cells ∧ t.parts = s.parts ∧ (t.quad q).fCell = phys ∧
      (bit ≤ 4 → (s.col (cellSpot q phys).1).spare = true → FaultSet (24 + q) 8 t) := by
  have noted : ∃ x : Quadrant, recordCell q phys s = s.setQuad q x ∧ x.fCell = phys := ⟨_, rfl, rfl⟩
  obtain ⟨x, is, record⟩ := noted
  unfold cellFails
  dsimp only
  rw [is]
  have quad : (s.setQuad q x).quad q = x := State.quad_setQuad quads q x
  have groups' : Groups (s.setQuad q x) := groups
  have calm' : Calm (24 + q) (s.setQuad q x) := calm
  have fault := Laws.raise_sets (g := 24 + q) (bit := bit) (unit := phys) groups' low
  have rises : Groups (raise (24 + q) bit phys (s.setQuad q x)) := (raise_notes groups' calm').rises
  have mem := Laws.raise_calm_mem (bit := bit) (unit := phys) groups' calm'
  have fab := Laws.raise_calm_fab (bit := bit) (unit := phys) groups' calm'
  have parts := Laws.raise_calm_parts (bit := bit) (unit := phys) groups' calm'
  generalize raise (24 + q) bit phys (s.setQuad q x) = u at fault rises mem fab parts ⊢
  have ucell : (u.quad q).fCell = phys := by
    unfold State.quad at *
    rw [fab, quad]
    exact record
  by_cases lost : (decide (bit ≤ 4) && ((s.col (cellSpot q phys).1).spare || (s.col (cellSpot q phys).1).spareBad)) = true
  · rw [if_pos lost]
    have own := State.grp_setGrp rises (24 + q) { u.grp (24 + q) with status := putBit (u.grp (24 + q)).status 8 true }
    refine ⟨faultSet_keeps (refresh_groups _) ?_, ?_, ?_, ?_, ?_, fun _ _ => faultSet_keeps (refresh_groups _) ?_⟩
    · unfold FaultSet
      rw [own]
      show (putBit (u.grp (24 + q)).status 8 true).getLsbD bit = true
      rw [getLsbD_putBit]
      split
      · rfl
      · exact fault
    · rw [refresh_mem]
      exact mem
    · rw [refresh_fab]
      exact (congrArg Fabric.cells fab).trans rfl
    · rw [refresh_parts]
      exact parts
    · unfold State.quad at *
      rw [refresh_fab]
      exact ucell
    · unfold FaultSet
      rw [own]
      exact Laws.putBit_same _ (by decide)
  · rw [if_neg lost]
    exact ⟨fault, mem, (congrArg Fabric.cells fab).trans rfl, parts, ucell, fun small spare => absurd (by simp [small, spare]) lost⟩

/-! ### Fences and remaps of a column (R197 to R199) -/

theorem fenceCol_fences {k : Nat} {s : State} (cols : Tab.wf {} s.fab.cols = true) :
    (fenceCol k s).col k = { s.col k with fenced := true, arm := .none } := by
  unfold fenceCol
  obtain ⟨_, _, e⟩ := traceAt_shape (176 + k / 32) (s.col k).owner (s.setCol k { s.col k with fenced := true, arm := .none })
  rw [e]
  exact State.col_setCol cols k _

theorem requestColFence_eq {k : Nat} {s : State} (up : (s.col k).fenced = false) :
    requestColFence k s = if ownerActive s (s.col k).owner then s.setCol k { s.col k with arm := .fence } else fenceCol k s := by
  unfold requestColFence
  exact if_neg (by rw [up]; decide)

/-- What a column has armed once a row is to be replaced: that row's remap, or a fence where another row was armed before. -/
theorem armed_remap (arm : ColArm) (row : Nat) :
    (match arm with
      | .none => .remap row
      | .remap r => if r = row then .remap row else .fence
      | .fence => .fence : ColArm) = if arm == .none || arm == .remap row then .remap row else .fence := by
  cases arm with
  | none => rfl
  | fence => rfl
  | remap r =>
    dsimp only
    by_cases same : r = row
    · rw [if_pos same, if_pos (by simp [same])]
    · rw [if_neg same, if_neg (by simp [same])]

theorem fabColRemap_eq {k row : Nat} {s : State} (unused : (s.col k).spare = false) (up : (s.col k).fenced = false) :
    fabColRemap k row s = if ownerActive s (s.col k).owner then
      s.setCol k { s.col k with arm := if (s.col k).arm == .none || (s.col k).arm == .remap row then .remap row else .fence }
    else remapCol k row s := by
  unfold fabColRemap requestColRemap
  rw [if_neg (by rw [unused]; decide)]
  refine (if_neg (by rw [up]; decide)).trans ?_
  rw [← armed_remap] <;> rfl

/-- A moved cell: its contents are zeroed and its slots are the resident image's. -/
def Cell.moved (slots : Tab (BitVec 16384)) (c : Cell) : Cell := { c with v := [], acc := [], ls := [], slots := slots, slotBad := 0 }

/-- Cells moved one after the other. -/
theorem moveCells_moves (base : Nat) (is : List Nat) (s : State) (cells : Tab.wf {} s.fab.cells = true) :
    let t := is.foldl (fun s i => moveCell (base + i) s) s
    t.img = s.img ∧ t.fab.cols = s.fab.cols ∧ ∀ i ∈ is, ∃ c : Cell, t.cell (base + i) = c.moved (residentSlots s (base + i)) := by
  have one : ∀ n (s : State), moveCell n s = s.setCell n ((s.cell n).moved (residentSlots s n)) := fun _ _ => rfl
  induction is using List.reverseRecOn with
  | nil => exact ⟨rfl, rfl, fun i mem => absurd mem List.not_mem_nil⟩
  | append_singleton is i ih =>
    obtain ⟨img, cols, moved⟩ := ih
    have wf : Tab.wf {} (is.foldl (fun s i => moveCell (base + i) s) s).fab.cells = true := by
      clear img cols moved
      induction is generalizing s with
      | nil => exact cells
      | cons j is ih => exact ih (moveCell (base + j) s) (Tab.wf_set cells _ _)
    rw [List.foldl_append, List.foldl_cons, List.foldl_nil, one]
    generalize is.foldl (fun s i => moveCell (base + i) s) s = u at img cols moved wf ⊢
    have resident : ∀ n, residentSlots u n = residentSlots s n := fun n => by unfold residentSlots; rw [img]
    refine ⟨img, cols, fun j mem => ?_⟩
    by_cases here : j = i
    · subst here
      exact ⟨_, by rw [State.cell_setCell wf, resident]⟩
    · obtain before | last := List.mem_append.mp mem
      · rw [State.cell_setCell_other wf (by omega)]
        exact moved j before
      · exact absurd (List.mem_singleton.mp last) here

theorem remapCol_moves {k row : Nat} {s : State} (cols : Tab.wf {} s.fab.cols = true) (cells : Tab.wf {} s.fab.cells = true)
    (unused : (s.col k).spare = false) (good : (s.col k).spareBad = false) :
    (remapCol k row s).col k = { s.col k with spare := true, bypass := row, arm := .none } ∧
      ∀ r < 16, row ≤ r → ∃ c : Cell, (remapCol k row s).cell (cellBase k + r) = c.moved (residentSlots s (cellBase k + r)) := by
  unfold remapCol
  dsimp only
  rw [if_neg (by simp [unused, good])]
  have own : (s.setCol k { s.col k with spare := true, bypass := row, arm := .none }).col k = { s.col k with spare := true, bypass := row, arm := .none } :=
    State.col_setCol cols k _
  obtain ⟨-, same, moved⟩ := moveCells_moves (cellBase k + row) (List.range (16 - row))
    (s.setCol k { s.col k with spare := true, bypass := row, arm := .none }) cells
  generalize (List.range (16 - row)).foldl _ _ = t at same moved ⊢
  obtain ⟨_, _, e⟩ := traceAt_shape (176 + k / 32) (s.col k).owner t
  rw [e]
  refine ⟨?_, fun r low above => ?_⟩
  · show Tab.get {} t.fab.cols k = _
    rw [same]
    exact own
  · obtain ⟨c, is⟩ := moved (r - row) (List.mem_range.mpr (by omega))
    rw [show cellBase k + row + (r - row) = cellBase k + r by omega] at is
    exact ⟨c, is⟩

/-! ### Configuration writes (R202) -/

/-- The slots of a cell whose slot is written. -/
theorem writeSlot_slots {n slot : Nat} {img : BitVec 16384} {s : State} (cells : Tab.wf {} s.fab.cells = true) (m : Nat) :
    ((writeSlot n slot img s).cell m).slots = if m = n then Tab.set 0 (s.cell m).slots slot img else (s.cell m).slots := by
  unfold writeSlot
  dsimp only
  by_cases here : m = n
  · subst here
    rw [if_pos rfl, State.cell_setCell cells]
  · rw [if_neg here, State.cell_setCell_other cells here]

/-- One image written to distinct cells. -/
theorem writeSlots_slots {slot : Nat} {img : BitVec 16384} (ns : List Nat) (apart : ns.Nodup) (s : State) (cells : Tab.wf {} s.fab.cells = true) :
    let t := ns.foldl (fun s n => writeSlot n slot img s) s
    t.mem = s.mem ∧ ∀ m, (t.cell m).slots = if m ∈ ns then Tab.set 0 (s.cell m).slots slot img else (s.cell m).slots := by
  induction ns generalizing s with
  | nil => exact ⟨rfl, fun m => by rw [if_neg List.not_mem_nil]; rfl⟩
  | cons n ns ih =>
    obtain ⟨new, rest⟩ := List.nodup_cons.mp apart
    obtain ⟨mem, slots⟩ := ih rest (writeSlot n slot img s) (Tab.wf_set cells _ _)
    rw [List.foldl_cons]
    refine ⟨mem, fun m => ?_⟩
    rw [slots m, writeSlot_slots cells]
    by_cases here : m = n
    · subst here
      simp [new]
    · simp [here]

/-- The cells that a configuration write addresses. -/
def addressed (q : Nat) (cols : BitVec 32) (rows : BitVec 16) (s : State) : List Nat :=
  (((bitsOf 32 cols.toNat).map (· + q * 32)).filter (cfgOpen s)).flatMap (fun k => (bitsOf 16 rows.toNat).map (cellBase k + ·))

theorem mem_bitsOf {w : Nat} (x : BitVec w) (i : Nat) : i ∈ bitsOf w x.toNat ↔ i < w ∧ x.getLsbD i = true := by
  unfold bitsOf
  rw [List.mem_filter, List.mem_range]
  rfl

theorem bitsOf_nodup (w x : Nat) : (bitsOf w x).Nodup := List.nodup_range.filter _

theorem cellBase_inj {k l r q : Nat} (r16 : r < 16) (q16 : q < 16) (same : cellBase k + r = cellBase l + q) : k = l ∧ r = q := by
  unfold cellBase at same
  omega

theorem addressed_nodup (q : Nat) (cols : BitVec 32) (rows : BitVec 16) (s : State) : (addressed q cols rows s).Nodup := by
  unfold addressed
  rw [List.nodup_flatMap]
  refine ⟨fun k _ => (bitsOf_nodup 16 rows.toNat).map fun a b same => by simpa using same, ?_⟩
  have columns : (((bitsOf 32 cols.toNat).map (· + q * 32)).filter (cfgOpen s)).Nodup :=
    ((bitsOf_nodup 32 cols.toNat).map fun a b same => by simpa using same).filter _
  refine columns.imp fun {k l} ne => ?_
  intro m there here
  obtain ⟨r, rmem, rfl⟩ := List.mem_map.mp there
  obtain ⟨p, pmem, same⟩ := List.mem_map.mp here
  exact ne (cellBase_inj ((mem_bitsOf rows r).mp rmem).1 ((mem_bitsOf rows p).mp pmem).1 same.symm).1

theorem mem_addressed {q k r : Nat} {cols : BitVec 32} {rows : BitVec 16} {s : State} (k32 : k < 32) (r16 : r < 16) :
    cellBase (q * 32 + k) + r ∈ addressed q cols rows s ↔ (cols.getLsbD k && rows.getLsbD r && cfgOpen s (q * 32 + k)) = true := by
  unfold addressed
  rw [List.mem_flatMap, Bool.and_eq_true, Bool.and_eq_true]
  constructor
  · rintro ⟨l, column, mem⟩
    obtain ⟨p, pmem, same⟩ := List.mem_map.mp mem
    obtain ⟨rfl, rfl⟩ := cellBase_inj ((mem_bitsOf rows p).mp pmem).1 r16 same
    obtain ⟨there, opened⟩ := List.mem_filter.mp column
    obtain ⟨j, jmem, is⟩ := List.mem_map.mp there
    obtain rfl : j = k := by omega
    exact ⟨⟨((mem_bitsOf cols j).mp jmem).2, ((mem_bitsOf rows p).mp pmem).2⟩, opened⟩
  · rintro ⟨⟨col, row⟩, opened⟩
    refine ⟨q * 32 + k, List.mem_filter.mpr ⟨List.mem_map.mpr ⟨k, (mem_bitsOf cols k).mpr ⟨k32, col⟩, Nat.add_comm _ _⟩, opened⟩, ?_⟩
    exact List.mem_map.mpr ⟨r, (mem_bitsOf rows r).mpr ⟨r16, row⟩, rfl⟩

theorem cfgBcast_writes {q slot : Nat} {cols : BitVec 32} {rows : BitVec 16} {img : BitVec 16384} {s : State} (known : slotOfImage s img = true) :
    cfgBcast q cols rows slot img s = (addressed q cols rows s).foldl (fun s n => writeSlot n slot img s) s := by
  unfold cfgBcast addressed
  dsimp only
  rw [if_neg (by rw [known]; decide), List.foldl_flatMap]
  congr 1
  funext s k
  rw [List.foldl_map]

end Sys2Proof.Machine

namespace Sys2Proof.Proofs
open Sys2Proof Sys2Proof.Machine Sys2Proof.Safety

/-- Settles O27: a control micro-operation is an issue whose body writes the cell's own control state; the commands of the columns follow
from what one fence, one remap and one written slot do. -/
theorem cellControlAndColumns : Obligations.CellControlAndColumns := by
  unfold Obligations.CellControlAndColumns
  refine ⟨fun n x s canon clean next => ?_, fun n w s canon calm => ?_, fun k s canon up => ⟨_, rfl, ?_⟩, fun k row s canon => ?_,
    fun q cols rows slot img s canon => ?_⟩
  · refine ⟨fun code => ⟨_, rfl, ?_⟩, fun code => ⟨_, rfl, ?_⟩, fun code => ?_, fun code reached => ⟨_, rfl, ?_⟩, fun code waits => ?_, fun code alive => ?_⟩
    · exact (control_becomes (ready := always) (o := { st := s }) (body := fun _ _ _ s => { st := s }) clean next code rfl rfl rfl
        (CellBecomes.start canon clean)).straight rfl rfl rfl
    · have becomes := control_becomes (ready := always) (o := { st := s, fin := true }) (body := fun _ _ _ s => { st := s, fin := true })
        clean next code rfl rfl rfl (CellBecomes.start canon clean)
      exact ⟨(congrArg Cell.done becomes.own :), becomes.mem⟩
    · exact ⟨_, rfl, uLoop_counts canon clean next code⟩
    · have own := nextUop_cell next
      have go : decide ((s.cell x.n).waitThr.toNat ≤ (s.xfe (bits x.u.imm 0 6)).progress.toNat) = true := by rw [own]; exact decide_eq_true reached
      have raised : CellBecomes n.val { s.cell n.val with waitThr := (s.cell n.val).waitThr + BitVec.ofNat 32 (sfld x.sl 0x3C 0 32) } s
          (s.setCell x.n { s.cell x.n with waitThr := (s.cell x.n).waitThr + BitVec.ofNat 32 (sfld x.sl 0x3C 0 32) }) := by
        rw [own]
        exact (CellBecomes.start canon clean).setOwn rfl
      have becomes := control_becomes (ready := fun x s => decide ((s.cell x.n).waitThr.toNat ≤ (s.xfe (bits x.u.imm 0 6)).progress.toNat))
        (o := { st := s.setCell x.n { s.cell x.n with waitThr := (s.cell x.n).waitThr + BitVec.ofNat 32 (sfld x.sl 0x3C 0 32) } })
        (body := fun x _ _ s => { st := s.setCell x.n { s.cell x.n with waitThr := (s.cell x.n).waitThr + BitVec.ofNat 32 (sfld x.sl 0x3C 0 32) } })
        clean next code go rfl rfl raised
      exact ⟨CellBecomes.straight (c := { s.cell n.val with waitThr := (s.cell n.val).waitThr + BitVec.ofNat 32 (sfld x.sl 0x3C 0 32) }) rfl rfl rfl becomes,
        (congrArg Cell.waitThr becomes.own :)⟩
    · have own := nextUop_cell next
      exact congrArg Host.Outcome.next (control_waits next (by rw [own]; exact decide_eq_false (by omega)))
    · exact ⟨_, rfl, uSync_waits canon clean next code alive⟩
  · have groups := groups_of_canon canon
    obtain ⟨-, -, -, -, -, -, -, cells, -, quads, -⟩ := canon
    obtain ⟨⟨y, struck⟩, vreg, ls, slot, acc⟩ := strikeCell_poisons (n := n.val) (w := w) cells
    have fine : strikeBit w ≤ 4 := by unfold strikeBit; split <;> omega
    have ugroups : Groups (strikeCell n.val w s) := by rw [struck]; exact groups
    have ucalm : Calm (24 + n.val / 512) (strikeCell n.val w s) := by rw [struck]; exact calm
    have uquads : Tab.wf {} (strikeCell n.val w s).fab.quads = true := by rw [struck]; exact quads
    have column : ((strikeCell n.val w s).col (cellSpot (n.val / 512) (physCell s n.val)).1) = s.col (colOf n.val) := by
      rw [struck, cellSpot_physCell]
      rfl
    have umem : (strikeCell n.val w s).mem = s.mem := by rw [struck]; rfl
    refine ⟨_, rfl, ?_⟩
    show FaultSet _ _ (cellFails (n.val / 512) (strikeBit w) (physCell s n.val) (strikeCell n.val w s)) ∧ _
    obtain ⟨fault, mem, same, -, record, lost⟩ := cellFails_records (phys := physCell s n.val) uquads ugroups ucalm (show strikeBit w < 32 by omega)
    rw [column] at lost
    have cell : (cellFails (n.val / 512) (strikeBit w) (physCell s n.val) (strikeCell n.val w s)).cell n.val = (strikeCell n.val w s).cell n.val := by
      unfold State.cell
      rw [same]
    unfold cellFault
    rw [cell]
    exact ⟨fault, mem.trans umem, record, lost fine, vreg, ls, slot, acc⟩
  · obtain ⟨-, -, -, -, -, -, -, -, cols, -⟩ := canon
    rw [requestColFence_eq up]
    by_cases runs : ownerActive s (s.col k.val).owner = true
    · rw [if_pos runs, if_pos runs]
    · rw [if_neg runs, if_neg runs]
      exact fenceCol_fences cols
  · have groups := groups_of_canon canon
    obtain ⟨-, -, -, -, -, -, -, cells, cols, -⟩ := canon
    refine ⟨fun up unused good => ⟨_, rfl, ?_⟩, fun used calm => ⟨_, rfl, ?_⟩⟩
    · rw [fabColRemap_eq unused up]
      by_cases runs : ownerActive s (s.col k.val).owner = true
      · rw [if_pos runs, if_pos runs]
      · rw [if_neg runs, if_neg runs]
        obtain ⟨own, moved⟩ := remapCol_moves (row := row.val) cols cells unused good
        refine ⟨own, fun r above => ?_⟩
        obtain ⟨c, is⟩ := moved r.val r.isLt above
        rw [is]
        exact ⟨rfl, rfl, rfl⟩
    · unfold fabColRemap
      rw [if_pos used]
      exact ⟨Laws.raise_sets groups (by decide), Laws.raise_calm_fab groups calm⟩
  · obtain ⟨-, -, -, -, -, -, -, cells, -⟩ := canon
    refine ⟨fun known => ⟨_, rfl, ?_⟩, fun unknown => congrArg Host.Outcome.next (if_pos (by rw [unknown]; rfl))⟩
    rw [cfgBcast_writes known]
    obtain ⟨mem, slots⟩ := writeSlots_slots (slot := slot.val) (img := img) (addressed q.val cols rows s) (addressed_nodup _ _ _ _) s cells
    refine ⟨mem, fun k r => (slots _).trans ?_⟩
    by_cases there : (cols.getLsbD k.val && rows.getLsbD r.val && cfgOpen s (q.val * 32 + k.val)) = true
    · rw [if_pos ((mem_addressed k.isLt r.isLt).mpr there), if_pos there]
    · rw [if_neg (fun is => there ((mem_addressed k.isLt r.isLt).mp is)), if_neg there]

end Sys2Proof.Proofs
end


section
/-! SUPPORT. What an issue does beside its cell's registers: its reads, its requests and its end (R157 to R168, R174). -/
namespace Sys2Proof.Machine
open Sys2Proof Sys2Proof.Safety

/-! ### The end of an issue -/

/-- Work on cells and columns that leaves every cell's returns. -/
structure IssueTail (s t : State) : Prop where
  shape : ∃ cells cols free, t = { s with fab := { s.fab with cells := cells, cols := cols }, free := free }
  wf : Tab.wf {} s.fab.cells = true → Tab.wf {} t.fab.cells = true
  rets : Tab.wf {} s.fab.cells = true → ∀ m, (t.cell m).rets = (s.cell m).rets

namespace IssueTail
variable {r s t : State}

theorem refl (s : State) : IssueTail s s := ⟨⟨_, _, _, rfl⟩, id, fun _ _ => rfl⟩

theorem trans (h : IssueTail r s) (k : IssueTail s t) : IssueTail r t := by
  obtain ⟨_, _, _, e⟩ := h.shape
  obtain ⟨_, _, _, e'⟩ := k.shape
  exact ⟨⟨_, _, _, by rw [e', e]⟩, k.wf ∘ h.wf, fun wf m => (k.rets (h.wf wf) m).trans (h.rets wf m)⟩

theorem ite {p : Prop} [Decidable p] {a b : State} (ha : IssueTail s a) (hb : IssueTail s b) : IssueTail s (if p then a else b) := by
  split <;> assumption

theorem foldl {β : Type} {g : State → β → State} (step : ∀ s a, IssueTail s (g s a)) (l : List β) (s : State) : IssueTail s (l.foldl g s) := by
  induction l generalizing s with
  | nil => exact refl s
  | cons a l ih => exact (step s a).trans (ih _)

theorem setCell {n : Nat} {c : Cell} (same : c.rets = (s.cell n).rets) : IssueTail s (s.setCell n c) := by
  refine ⟨⟨_, _, _, rfl⟩, fun wf => Tab.wf_set wf _ _, fun wf m => ?_⟩
  by_cases here : m = n
  · subst here
    rw [State.cell_setCell wf]
    exact same
  · rw [State.cell_setCell_other wf here]

theorem groups (h : IssueTail s t) : t.flt = s.flt := by
  obtain ⟨_, _, _, e⟩ := h.shape
  rw [e]

theorem noc (h : IssueTail s t) : t.noc = s.noc := by
  obtain ⟨_, _, _, e⟩ := h.shape
  rw [e]

end IssueTail

theorem Cell.setFifo_rets (c : Cell) (d : Nat) (l : List Vec) : (c.setFifo d l).rets = c.rets := by
  unfold Cell.setFifo
  split <;> rfl

theorem pushVec_tail (v : Vec) (ts : List (Nat × Nat)) (s : State) : IssueTail s (pushVec v ts s) :=
  .foldl (fun _ _ => .setCell (Cell.setFifo_rets _ _ _)) ts s

theorem writeDst_tail (n route d : Nat) (v : Vec) (s : State) : IssueTail s (writeDst n route d v s) := by
  unfold writeDst
  exact .ite (.setCell rfl) (.ite (.setCell rfl) (.ite (pushVec_tail _ _ s) (.refl s)))

theorem forwardVecs_tail {n : Nat} (route : Nat) (s : State) (quiet : (s.grp (24 + n / 512)).inject = 0) : IssueTail s (forwardVecs n route s) := by
  unfold forwardVecs
  generalize List.range 4 = ds
  induction ds generalizing s with
  | nil => exact .refl s
  | cons d ds ih =>
    rw [List.foldl_cons]
    have step : IssueTail s (match (s.cell n).fifo d with
        | v :: rest => if (routeTargets s n route (d + 1)).isEmpty || !hasRoom s (routeTargets s n route (d + 1)) then s
          else
            let r := cellCheck n 5 false .clean (s.setCell n ((s.cell n).setFifo d rest))
            pushVec { v with poison := v.poison || r.1 } (routeTargets s n route (d + 1)) r.2
        | [] => s) := by
      split
      · next v rest _ =>
        refine .ite (.refl s) ?_
        rw [cellCheck_clean (s := s.setCell n ((s.cell n).setFifo d rest)) quiet]
        exact (IssueTail.setCell (Cell.setFifo_rets _ _ _)).trans (pushVec_tail _ _ _)
      · exact .refl s
    refine step.trans (ih _ ?_)
    unfold State.grp
    rw [step.groups]
    exact quiet

/-- All that follows an issue's body leaves the network, the fault groups and every cell's returns. -/
theorem retire_tail {n : Nat} {x : UCtx} {arith draws poison : Bool} {o : UOut} (own : x.n = n) (quiet : (o.st.grp (24 + n / 512)).inject = 0) :
    ∃ u, retire n x arith draws poison o = refresh u ∧ IssueTail o.st u := by
  have checked : (if arith then cellCheck n 4 false .clean o.st else (false, o.st)) = (false, o.st) := by
    cases arith
    · rfl
    · exact cellCheck_clean quiet 4 false
  subst own
  unfold retire
  dsimp only
  rw [checked]
  refine ⟨_, rfl, ?_⟩
  generalize written : o.outs.foldl _ o.st = u
  have first : IssueTail o.st u := by
    rw [← written]
    exact .foldl (fun s _ => writeDst_tail _ _ _ _ s) _ _
  have still : (u.grp (24 + x.n / 512)).inject = 0 := by
    unfold State.grp
    rw [first.groups]
    exact quiet
  have forwarded := forwardVecs_tail (n := x.n) x.route u still
  generalize forwardVecs x.n x.route u = v at forwarded ⊢
  have drawn : IssueTail v (if (draws && x.rnd == .stoch) = true then bumpDraws x.n v else v) := .ite (.setCell rfl) (.refl v)
  generalize (if (draws && x.rnd == .stoch) = true then bumpDraws x.n v else v) = w at drawn ⊢
  have advanced : IssueTail w (advance x o w) := .setCell rfl
  refine first.trans (forwarded.trans (drawn.trans (advanced.trans ?_)))
  exact ⟨⟨_, _, _, rfl⟩, id, fun _ _ => rfl⟩

/-- An issue whose body may poison its result. -/
theorem issue_becomes_bad {n op : Nat} {srcs : Uop → List Nat} {dests arith draws : Bool} {ready : UCtx → State → Bool}
    {body : UCtx → List Nat → Bool → State → UOut} {x : UCtx} {s : State} (clean : CleanCell n s) (issues : Issues n op srcs x s)
    (go : ready x s = true) {o : UOut} (ran : body x (srcVals n srcs x s) (srcBad n srcs x s) (operandsRead n srcs x s) = o)
    (straight : o.jump = none) (unended : o.fin = false) {c : Cell} (h : CellBecomes n c s o.st) :
    CellBecomes n ((c.results (srcBad n srcs x s || o.bad) o.outs).issued x.sl (draws && x.rnd == .stoch)) s
      (issue n op srcs dests arith draws ready body s) ∧
    ∃ u, issue n op srcs dests arith draws ready body s = refresh u ∧ IssueTail o.st u := by
  have own := cell_of_issues issues
  rw [issue_eq_retire clean issues go, ran]
  refine ⟨?_, retire_tail own h.quiet⟩
  have merged : retire n x arith draws (srcBad n srcs x s) o = retire n x arith draws (srcBad n srcs x s || o.bad) { o with bad := false } := by
    unfold retire
    simp only [Bool.or_false]
    rfl
  rw [merged]
  exact retire_becomes (o := { o with bad := false }) own straight unended rfl h

/-! ### The operands -/

/-- Reading operands where no injected error waits touches cells alone. -/
theorem readSrcs_shape {n : Nat} (vs : List Nat) (s : State) (quiet : (s.grp (24 + n / 512)).inject = 0) :
    ∃ cells, (readSrcs n vs s).2 = { s with fab := { s.fab with cells := cells } } := by
  have one : ∀ (v : Nat) (s : State), (s.grp (24 + n / 512)).inject = 0 → ∃ cells, (readSrc n v s).2 = { s with fab := { s.fab with cells := cells } } := by
    intro v s quiet
    unfold readSrc
    dsimp only
    rw [cellCheck_clean quiet, cellCheck_clean quiet]
    split
    · exact ⟨_, rfl⟩
    · split
      · exact ⟨_, rfl⟩
      · split
        · split
          · next x rest _ =>
            rw [cellCheck_clean (s := s.setCell n ((s.cell n).setFifo (v - 0x24) rest)) quiet]
            exact ⟨_, rfl⟩
          · exact ⟨_, rfl⟩
        · split
          · split
            · exact ⟨_, rfl⟩
            · exact ⟨_, rfl⟩
          · exact ⟨_, rfl⟩
  induction vs generalizing s with
  | nil => exact ⟨_, rfl⟩
  | cons v vs ih =>
    obtain ⟨_, e⟩ := one v s quiet
    obtain ⟨cells, e'⟩ := ih (readSrc n v s).2 (by rw [e]; exact quiet)
    exact ⟨cells, e'.trans (by rw [e])⟩

/-- Once its operands are read an issue has touched cells and the flags of its partition. -/
theorem operandsRead_shape {n : Nat} {srcs : Uop → List Nat} {x : UCtx} {s : State} (clean : CleanCell n s) :
    ∃ cells parts, operandsRead n srcs x s = { s with fab := { s.fab with cells := cells }, parts := parts } := by
  obtain ⟨cells, e⟩ := readSrcs_shape (srcs x.u) s clean.1
  unfold operandsRead
  split
  · exact ⟨cells, _, by rw [e]; rfl⟩
  · exact ⟨cells, s.parts, e⟩

/-! ### The address pointers -/

/-- A cell whose line pointer has moved on. -/
def Cell.lpBumped (x : UCtx) (c : Cell) : Cell :=
  { c with lp := Tab.upd 0#9 c.lp (bits x.u.imm 10 1) (fun v =>
      v + BitVec.ofInt 9 (toSigned 10 (sfld x.sl 0x34 (16 * bits x.u.imm 10 1) 10))) }

/-- A cell whose address pointer has moved on. -/
def Cell.bBumped (x : UCtx) (c : Cell) : Cell :=
  { c with b := Tab.upd 0#48 c.b (bits x.u.imm 23 2) (fun v =>
      BitVec.ofInt 48 ((v.toNat : Int) + toSigned 16 (sfld x.sl (0x28 + 2 * bits x.u.imm 23 2) 0 16) * 64)) }

theorem bumpLp_becomes {n : Nat} {c : Cell} {x : UCtx} {s t : State} (own : x.n = n) (h : CellBecomes n c s t) :
    (∃ lp, CellBecomes n { c with lp := lp } s (bumpLp x t)) ∧ (bumpLp x t).flt = t.flt := by
  subst own
  have runs : bumpLp x t = if x.u.imm.testBit 9 then t.setCell x.n ((t.cell x.n).lpBumped x) else t := rfl
  rw [runs]
  split
  · have bumped : ((t.cell x.n).lpBumped x).core = (c.lpBumped x).core := congrArg (Cell.lpBumped x) h.own
    exact ⟨⟨_, h.setOwn bumped⟩, rfl⟩
  · exact ⟨⟨c.lp, h⟩, rfl⟩

theorem bumpB_becomes {n : Nat} {c : Cell} {x : UCtx} {s t : State} (own : x.n = n) (h : CellBecomes n c s t) :
    (∃ b, CellBecomes n { c with b := b } s (bumpB x t)) ∧ IssueTail t (bumpB x t) := by
  subst own
  have runs : bumpB x t = if x.u.imm.testBit 21 then t.setCell x.n ((t.cell x.n).bBumped x) else t := rfl
  rw [runs]
  split
  · have bumped : ((t.cell x.n).bBumped x).core = (c.bBumped x).core := congrArg (Cell.bBumped x) h.own
    exact ⟨⟨_, h.setOwn bumped⟩, .setCell rfl⟩
  · exact ⟨⟨c.b, h⟩, .refl t⟩

/-! ### Translations -/

/-- What a translation reads is the same in both states. -/
structure SameXlat (s t : State) : Prop where
  xlt : t.xlt = s.xlt
  mem : t.mem = s.mem
  pwr : t.pwr = s.pwr

namespace SameXlat
variable {s t : State}

theorem pteAt (same : SameXlat s t) (a : Nat) : pteAt t a = pteAt s a := by
  have free : ∀ (s : State) (e : Granule) (p : Option Nat), ctxPass s e p 0 = (0 == e.owner) := fun s e p => by simp [ctxPass]
  unfold Machine.pteAt memCheck
  simp only [free]
  unfold paSpot granUp State.granule State.bank State.chan State.stack
  rw [same.mem, same.pwr]

theorem walk (same : SameXlat s t) (ctx dva l base : Nat) : walk t ctx dva l base = walk s ctx dva l base := by
  induction l generalizing base with
  | zero =>
    unfold Machine.walk
    rw [same.pteAt]
  | succ l ih =>
    unfold Machine.walk
    rw [same.pteAt]
    simp only [ih]

theorem tableWalk (same : SameXlat s t) (ctx dva : Nat) : tableWalk t ctx dva = tableWalk s ctx dva := by
  unfold Machine.tableWalk
  rw [same.xlt]
  simp only [same.walk]

theorem translate (same : SameXlat s t) (unit ctx dva : Nat) (write : Bool) : translate t unit ctx dva write = translate s unit ctx dva write := by
  unfold Machine.translate bufFind l2Find
  rw [same.xlt, same.tableWalk]

theorem noteXlat (same : SameXlat s t) (unit ctx dva : Nat) : SameXlat (noteXlat unit ctx dva s) (noteXlat unit ctx dva t) := by
  obtain ⟨_, e⟩ := noteXlat_shape unit ctx dva s
  obtain ⟨_, e'⟩ := noteXlat_shape unit ctx dva t
  refine ⟨?_, by rw [e, e']; exact same.mem, by rw [e, e']; exact same.pwr⟩
  clear e e'
  have walks : ∀ xlt : Xlt, Machine.tableWalk { t with xlt := xlt } ctx dva = Machine.tableWalk { s with xlt := xlt } ctx dva :=
    fun xlt => SameXlat.tableWalk (s := { s with xlt := xlt }) (t := { t with xlt := xlt }) ⟨rfl, same.mem, same.pwr⟩ ctx dva
  unfold Machine.noteXlat bufFind l2Find
  rw [same.xlt]
  split
  · exact same.xlt
  · split
    · unfold bufFill
      split <;> rfl
    · dsimp only
      rw [walks]
      split
      · unfold xlFill bufFill
        dsimp only
        split <;> rfl
      · rfl

end SameXlat

end Sys2Proof.Machine
end


section
/-! SUPPORT. The micro-operations that reach memory, and O30 (R161 to R168). -/
namespace Sys2Proof.Machine
open Sys2Proof Sys2Proof.Safety

section
variable {n : Nat} {x : UCtx} {s : State}

/-! ### Checks of a cell's own memories -/

/-- A check that finds nothing that it cannot correct. -/
theorem cellCheck_corrects {c : Cell} {t : State} {e : Ecc} (h : CellBecomes n c s t) (fine : e ≠ .uncorrectable) (bit : Nat) (corrects : Bool) :
    ∃ u, cellCheck n bit corrects e t = (false, u) ∧ CellBecomes n c s u := by
  unfold cellCheck
  dsimp only
  rw [checkEcc_clean h.quiet]
  cases e with
  | clean => exact ⟨t, rfl, h⟩
  | corrected => exact ⟨_, rfl, h.rest rfl rfl rfl rfl⟩
  | uncorrectable => exact absurd rfl fine

/-- A detected fault of a calm group leaves what is armed in its group. -/
theorem detectN_calm_inject {g bit unit : Nat} {y : FGroup} (h : GroupIs g y s) (calm : Calm g s) (k : Nat) :
    ((detectN (k + 1) g bit unit s).grp g).inject = y.inject := by
  unfold detectN
  dsimp only
  rw [h.is]
  generalize em : markUnit g unit _ = z
  have inject : z.inject = y.inject := em ▸ markUnit_inject g unit _
  have action := em ▸ Laws.markUnit_action g unit _
  have timer := em ▸ Laws.markUnit_timer g unit _
  have grace := em ▸ Laws.markUnit_grace g unit _
  have recorded : GroupIs g z ((s.setGrp g z).emit (.faultSignal g bit)) := (h.set z).keeps rfl
  have others : (graceGroups (((s.setGrp g z).emit (.faultSignal g bit)).setGrp g
      { z with timer := true, started := ((s.setGrp g z).emit (.faultSignal g bit)).clk.now })).length ≤ (graceGroups s).length + 1 := by
    refine Laws.graceGroups_step (g := g) fun k other => ?_
    rw [State.grp_setGrp_other recorded.rises other]
    exact State.grp_setGrp_other h.rises other z
  have stopped : ((s.setGrp g z).emit (.faultSignal g bit)).flt.stopped = s.flt.stopped := rfl
  have thresh : ((s.setGrp g z).emit (.faultSignal g bit)).flt.thresh = s.flt.thresh := rfl
  generalize (s.setGrp g z).emit (.faultSignal g bit) = u at recorded others stopped thresh ⊢
  unfold Calm at calm
  rw [h.is] at calm
  refine Laws.ite_cases (P := fun t => (t.grp g).inject = y.inject) (fun _ => by rw [recorded.is]; exact inject) fun counts => ?_
  rcases calm with log | halt | ⟨graced, idle, few⟩
  · exact absurd (by simp [action, log]) counts
  · exact absurd (by simp [stopped, halt]) counts
  · rw [if_neg (by simp [timer, idle]), if_neg (by rw [grace]; exact graced), recorded.is, if_neg]
    · rw [(recorded.set _).is]
      exact inject
    · show ¬(u.flt.thresh ≠ 0 ∧ u.flt.thresh ≤ _)
      rw [thresh]
      omega

theorem raise_calm_inject {g bit unit : Nat} (groups : Groups s) (calm : Calm g s) : ((raise g bit unit s).grp g).inject = (s.grp g).inject := by
  unfold raise
  rw [refresh_grp]
  exact detectN_calm_inject ⟨groups, rfl⟩ calm 5

/-- An uncorrectable error of the cell's own memory, in a calm quadrant: its fault bit, and nothing of the cell. -/
theorem cellCheck_fails {c : Cell} {t : State} (h : CellBecomes n c s t) (quads : Tab.wf {} t.fab.quads = true) (groups : Groups t)
    (calm : Calm (24 + n / 512) t) {bit : Nat} (low : bit < 32) (corrects : Bool) :
    ∃ u, cellCheck n bit corrects .uncorrectable t = (true, u) ∧ CellBecomes n c s u ∧ FaultSet (24 + n / 512) bit u := by
  obtain ⟨fault, mem, cells, parts, -⟩ := cellFails_records (q := n / 512) (phys := physCell t n) quads groups calm low
  have quiet : ((cellFails (n / 512) bit (physCell t n) t).grp (24 + n / 512)).inject = 0 := by
    unfold cellFails
    dsimp only
    have noted : Groups (recordCell (n / 512) (physCell t n) t) ∧ Calm (24 + n / 512) (recordCell (n / 512) (physCell t n) t) := ⟨groups, calm⟩
    have armed := (raise_calm_inject (bit := bit) (unit := physCell t n) noted.1 noted.2).trans h.quiet
    have rises := (raise_notes (bit := bit) (unit := physCell t n) noted.1 noted.2).rises
    refine Laws.ite_cases (P := fun u : State => (u.grp (24 + n / 512)).inject = 0) (fun _ => ?_) (fun _ => armed)
    rw [refresh_grp, State.grp_setGrp rises]
    exact armed
  refine ⟨cellFails (n / 512) bit (physCell t n) t, ?_, ?_, fault⟩
  · unfold cellCheck
    dsimp only
    rw [checkEcc_clean h.quiet]
  · refine ⟨mem.trans h.mem, cells ▸ h.cells, parts ▸ h.parts, quiet, ?_, fun m ne => ?_, fun p => ?_⟩
    · unfold State.cell
      rw [cells]
      exact h.own
    · have := h.other m ne
      unfold State.cell at *
      rw [cells]
      exact this
    · have := h.seeds p
      unfold State.part at *
      rw [parts]
      exact this

/-! ### The requests of a cell (R163, R368) -/

/-- A cell's request in the network, with the translation that it used noted. -/
def cellSent (x : UCtx) (write : Bool) (dva pa len : Nat) (data : List Byte) (poison : Bool) (s : State) : State :=
  { noteXlat (portOf (.cell x.n)) x.ctx dva s with
    noc := { s.noc with nextTag := s.noc.nextTag + 1, reqs := s.noc.reqs ++ [cellReq x write pa len data poison s] } }

theorem cellSent_becomes {c : Cell} {t : State} (h : CellBecomes n c s t) (write : Bool) (dva pa len : Nat) (data : List Byte) (poison : Bool) :
    CellBecomes n c s (cellSent x write dva pa len data poison t) ∧
      ∀ m, (cellSent x write dva pa len data poison t).cell m = t.cell m := by
  unfold cellSent
  obtain ⟨_, e⟩ := noteXlat_shape (portOf (.cell x.n)) x.ctx dva t
  rw [e]
  exact ⟨h.rest rfl rfl rfl rfl, fun _ => rfl⟩

theorem cellSent_same {u t : State} (same : SameXlat u t) (write : Bool) (dva pa len : Nat) (data : List Byte) (poison : Bool) :
    SameXlat (noteXlat (portOf (.cell x.n)) x.ctx dva u) (cellSent x write dva pa len data poison t) := by
  obtain ⟨xlt, mem, pwr⟩ := same.noteXlat (portOf (.cell x.n)) x.ctx dva
  exact ⟨xlt, mem, pwr⟩

/-- One read of a cell. -/
def readStep (x : UCtx) (size : Nat) (acc : List (Nat × Option Vec) × State) (dva : Nat) : List (Nat × Option Vec) × State :=
  let s := acc.2
  let bad := fun (s : State) => (acc.1 ++ [(s.noc.nextTag, some ({ poison := true } : Vec))],
    { s with noc := { s.noc with nextTag := s.noc.nextTag + 1 } })
  if 2 ^ 47 ≤ dva then bad (raise 11 4 0 (raise (24 + x.q) 6 (physCell s x.n) s))
  else
    let y := translate s (portOf (.cell x.n)) x.ctx dva false
    let s := noteXlat (portOf (.cell x.n)) x.ctx dva s
    match y with
    | .ok pa =>
      let r : Req := { tag := 0, who := .cell x.n, write := false, host := false, addr := pa, len := size, ctx := x.ctx,
                       part := x.p, sched := true, use := .get x.n }
      let i := issueReq r s
      (acc.1 ++ [(i.1, none)], i.2)
    | e => bad (match e.bit with | some b => raise 11 b 0 s | none => s)

theorem cellRead_steps (x : UCtx) (dvas : List Nat) (size : Nat) (s : State) : cellRead x dvas size s = dvas.foldl (readStep x size) ([], s) := rfl

theorem readStep_sends {dva size pa : Nat} {acc : List (Nat × Option Vec)} {t : State} (low : dva < 2 ^ 47)
    (page : translate t (portOf (.cell x.n)) x.ctx dva false = .ok pa) :
    readStep x size (acc, t) dva = (acc ++ [(t.noc.nextTag, none)], cellSent x false dva pa size [] false t) := by
  unfold readStep
  dsimp only
  rw [if_neg (by omega), page]
  unfold cellSent
  obtain ⟨_, e⟩ := noteXlat_shape (portOf (.cell x.n)) x.ctx dva t
  rw [e]
  rfl

theorem cellWrite_sends {dva size pa data : Nat} {poison : Bool} {t : State} (low : dva < 2 ^ 47)
    (page : translate t (portOf (.cell x.n)) x.ctx dva true = .ok pa) :
    cellWrite x dva size data poison t =
      (cellSent x true dva pa size (leBytes size data) poison t).setCell x.n { t.cell x.n with writes := (t.cell x.n).writes + 1 } := by
  unfold cellWrite
  rw [if_neg (by omega), page]
  unfold cellSent
  obtain ⟨_, e⟩ := noteXlat_shape (portOf (.cell x.n)) x.ctx dva t
  rw [e]
  rfl

/-- Reads that go out one after the other. -/
theorem readSteps_send {c : Cell} (size : Nat) (ds : List Nat) (acc : List (Nat × Option Vec)) (u t : State) (same : SameXlat u t)
    (pages : TranslateAll (portOf (.cell x.n)) x.ctx false ds u) (h : CellBecomes n c s t) :
    let r := ds.foldl (readStep x size) (acc, t)
    r.1 = acc ++ (List.range ds.length).map (fun i => (t.noc.nextTag + i, none)) ∧ r.2.noc.nextTag = t.noc.nextTag + ds.length ∧ CellBecomes n c s r.2 := by
  induction ds generalizing acc u t with
  | nil => exact ⟨by simp, rfl, h⟩
  | cons d ds ih =>
    obtain ⟨low, ⟨pa, page⟩, rest⟩ := pages
    rw [← same.translate] at page
    dsimp only at ih ⊢
    rw [List.foldl_cons, readStep_sends low page]
    obtain ⟨tags, next, becomes⟩ := ih (acc ++ [(t.noc.nextTag, none)]) _ (cellSent x false d pa size [] false t) (cellSent_same same _ _ _ _ _ _) rest
      (cellSent_becomes h _ _ _ _ _ _).1
    have one : (cellSent x false d pa size [] false t).noc.nextTag = t.noc.nextTag + 1 := rfl
    rw [one] at tags next
    refine ⟨?_, by rw [next, List.length_cons]; omega, becomes⟩
    rw [tags, List.length_cons, List.range_succ_eq_map, List.map_cons, List.map_map, List.append_assoc]
    refine congrArg (acc ++ ·) (congrArg₂ List.cons rfl (List.map_congr_left fun i _ => ?_))
    show (t.noc.nextTag + 1 + i, none) = (t.noc.nextTag + (i + 1), none)
    rw [Nat.add_assoc, Nat.add_comm 1 i]

/-- Writes that go out one after the other. -/
theorem writeSteps_send {c : Cell} (own : x.n = n) (size : Nat) (poison : Bool) (data : Nat → Nat) (ps : List (Nat × Nat)) (u t : State)
    (same : SameXlat u t) (pages : TranslateAll (portOf (.cell x.n)) x.ctx true (ps.map Prod.fst) u) (h : CellBecomes n c s t) :
    let r := ps.foldl (fun s p => cellWrite x p.1 size (data p.2) poison s) t
    r.noc.nextTag = t.noc.nextTag + ps.length ∧ CellBecomes n { c with writes := c.writes + ps.length } s r := by
  subst own
  induction ps generalizing c u t with
  | nil => exact ⟨rfl, h⟩
  | cons p ps ih =>
    obtain ⟨low, ⟨pa, page⟩, rest⟩ := pages
    rw [← same.translate] at page
    dsimp only at ih ⊢
    rw [List.foldl_cons, cellWrite_sends low page]
    obtain ⟨sent, cells⟩ := cellSent_becomes (x := x) h true p.1 pa size (leBytes size (data p.2)) poison
    have counted : ({ t.cell x.n with writes := (t.cell x.n).writes + 1 } : Cell).core = ({ c with writes := c.writes + 1 } : Cell).core :=
      congrArg (fun k : Cell => { k with writes := k.writes + 1 }) h.own
    obtain ⟨next, becomes⟩ := ih (c := { c with writes := c.writes + 1 }) _
      ((cellSent x true p.1 pa size (leBytes size (data p.2)) poison t).setCell x.n { t.cell x.n with writes := (t.cell x.n).writes + 1 })
      (by obtain ⟨xlt, mem, pwr⟩ := cellSent_same (x := x) same true p.1 pa size (leBytes size (data p.2)) poison; exact ⟨xlt, mem, pwr⟩) rest
      (sent.setOwn counted)
    refine ⟨next.trans ?_, ?_⟩
    · show t.noc.nextTag + 1 + ps.length = _
      rw [List.length_cons]
      omega
    · have total : c.writes + 1 + ps.length = c.writes + (p :: ps).length := by rw [List.length_cons]; omega
      rw [← total]
      exact becomes

/-! ### The issues -/

/-- An issue without a result, whose body leaves the state `v`. -/
theorem memoryOp_ends {op : Nat} {srcs : Uop → List Nat} {ready : UCtx → State → Bool} {body : UCtx → List Nat → Bool → State → UOut} {v : State}
    {c : Cell} (clean : CleanCell n s) (issues : Issues n op srcs x s) (go : ready x s = true)
    (ran : body x (srcVals n srcs x s) (srcBad n srcs x s) (operandsRead n srcs x s) = { st := v }) (becomes : CellBecomes n c s v)
    (pc : c.pc = (s.cell n).pc) :
    let t := issue n op srcs false false false ready body s
    Advanced n x s t ∧ t.noc = v.noc ∧ (t.cell n).rets = (v.cell n).rets ∧ (t.cell n).writes = c.writes ∧ (t.cell n).ls = c.ls := by
  obtain ⟨ends, u, is, tail⟩ := issue_becomes_bad (dests := false) (arith := false) (draws := false) clean issues go ran rfl rfl becomes
  refine ⟨ends.advanced pc, ?_, ?_, (congrArg Cell.writes ends.own :), (congrArg Cell.ls ends.own :)⟩
  · rw [is, refresh_noc]
    exact tail.noc
  · rw [is, refresh_cell]
    exact tail.rets becomes.cells n

/-- The operands read leave the translations, memory, the network and the address pointers. -/
theorem operandsRead_keeps {srcs : Uop → List Nat} (canon : Canon s) (clean : CleanCell n s) (own : x.n = n) :
    SameXlat s (operandsRead n srcs x s) ∧ (operandsRead n srcs x s).noc = s.noc ∧ (operandsRead n srcs x s).clk = s.clk ∧
      bPtr (operandsRead n srcs x s) x = bPtr s x ∧ lpLine (operandsRead n srcs x s) x = lpLine s x := by
  have becomes := operandsRead_becomes (srcs := srcs) (x := x) canon clean
  obtain ⟨_, _, e⟩ := operandsRead_shape (srcs := srcs) (x := x) clean
  subst own
  have b : ((operandsRead x.n srcs x s).cell x.n).b = (s.cell x.n).b := (congrArg Cell.b becomes.own :)
  have lp : ((operandsRead x.n srcs x s).cell x.n).lp = (s.cell x.n).lp := (congrArg Cell.lp becomes.own :)
  refine ⟨?_, ?_, ?_, by unfold bPtr; rw [b], by unfold lpLine; rw [lp]⟩
  · rw [e]
    exact ⟨rfl, rfl, rfl⟩
  · rw [e]
  · rw [e]

end

end Sys2Proof.Machine
end


section
/-! SUPPORT. O30: each micro-operation that reaches memory (R161 to R168). -/
namespace Sys2Proof.Machine
open Sys2Proof Sys2Proof.Safety

section
variable {n : Nat} {x : UCtx} {s : State}

/-- A load of a line of the local store. -/
theorem uLd_loads {e : Ecc} (canon : Canon s) (clean : CleanCell n s) (issues : Issues n 0x08 noSrc x s) :
    let v : Vec := Tab.get {} (s.cell n).ls (lpLine s x)
    (e ≠ .uncorrectable → Written n x v.bits.toNat v.poison s (uLd n e s)) ∧
    (e = .uncorrectable → Calm (24 + n / 512) s → Written n x v.bits.toNat true s (uLd n e s) ∧ FaultSet (24 + n / 512) 1 (uLd n e s)) := by
  have own := cell_of_issues issues
  have start := CellBecomes.start canon clean
  dsimp only
  generalize line : (Tab.get {} (s.cell n).ls (lpLine s x) : Vec) = v
  have loads : ∀ (r : Bool) (u : State), cellCheck n 1 true e s = (r, u) → CellBecomes n (s.cell n) s u →
      Written n x v.bits.toNat (v.poison || r) s (uLd n e s) ∧ (FaultSet (24 + n / 512) 1 u → FaultSet (24 + n / 512) 1 (uLd n e s)) := by
    intro r u checked becomes
    have flagged : CellBecomes n (s.cell n) s (if v.poison then markFlag x.p 2 u else u) := by
      split
      · exact becomes.markFlag _ _
      · exact becomes
    have flt : (if v.poison then markFlag x.p 2 u else u).flt = u.flt := by split <;> rfl
    obtain ⟨⟨lp, bumped⟩, bumpFlt⟩ := bumpLp_becomes own flagged
    obtain ⟨ends, w, is, tail⟩ := issue_becomes_bad (dests := true) (arith := false) (draws := false) (ready := always)
      (o := { outs := [(x.u.dst, v.bits.toNat)], bad := v.poison || r, st := bumpLp x (if v.poison then markFlag x.p 2 u else u) })
      (body := fun x _ _ s =>
        let v : Vec := Tab.get {} (s.cell x.n).ls (lpLine s x)
        let r := cellCheck x.n 1 true e s
        let t := if v.poison then markFlag x.p 2 r.2 else r.2
        { outs := [(x.u.dst, v.bits.toNat)], bad := v.poison || r.1, st := bumpLp x t })
      clean issues rfl (by
        have read : operandsRead n noSrc x s = s := rfl
        rw [read, own]
        dsimp only
        rw [line, checked]) rfl rfl bumped
    refine ⟨CellBecomes.written (c := { s.cell n with lp := lp }) rfl rfl rfl ends, fun fault => ?_⟩
    have same : (uLd n e s).flt.groups = u.flt.groups := by
      unfold uLd
      rw [is, refresh_groups, tail.groups, bumpFlt, flt]
    exact faultSet_keeps same fault
  refine ⟨fun fine => ?_, fun bad calm => ?_⟩
  · obtain ⟨u, checked, becomes⟩ := cellCheck_corrects start fine 1 true
    have written := (loads false u checked becomes).1
    rw [Bool.or_false] at written
    exact written
  · have groups := groups_of_canon canon
    obtain ⟨-, -, -, -, -, -, -, -, -, quads, -⟩ := canon
    obtain ⟨u, checked, becomes, fault⟩ := cellCheck_fails start quads groups calm (bit := 1) (by decide) true
    obtain ⟨written, sets⟩ := loads true u (bad ▸ checked) becomes
    rw [Bool.or_true] at written
    exact ⟨written, sets fault⟩

/-- A load of a constant of the slot. -/
theorem uLdc_loads {e : Ecc} (canon : Canon s) (clean : CleanCell n s) (fine : e ≠ .uncorrectable) (issues : Issues n 0x0C noSrc x s) :
    Written n x (sfld x.sl (0x280 + 64 * bits x.u.imm 0 5) 0 512) false s (uLdc n e s) := by
  have own := cell_of_issues issues
  obtain ⟨u, checked, becomes⟩ := cellCheck_corrects (CellBecomes.start canon clean) fine 2 true
  have ends := (issue_becomes_bad (dests := true) (arith := false) (draws := false) (ready := always)
    (o := { outs := [(x.u.dst, sfld x.sl (0x280 + 64 * bits x.u.imm 0 5) 0 512)], bad := false, st := u })
    (body := fun x _ _ s =>
      let r := cellCheck x.n 2 true e s
      { outs := [(x.u.dst, sfld x.sl (0x280 + 64 * bits x.u.imm 0 5) 0 512)], bad := r.1, st := r.2 })
    clean issues rfl (by
      have read : operandsRead n noSrc x s = s := rfl
      rw [read, own]
      dsimp only
      rw [checked]) rfl rfl becomes).1
  exact ends.written rfl rfl rfl

/-- A store of a line of the local store. -/
theorem uSt_stores {e : Ecc} (canon : Canon s) (clean : CleanCell n s) (fine : e ≠ .uncorrectable) (issues : Issues n 0x09 srcA x s) :
    Advanced n x s (uSt n e s) ∧ ((uSt n e s).cell n).ls = Tab.set {} (s.cell n).ls (lpLine s x)
      { bits := BitVec.ofNat 512 (nth (srcVals n srcA x s) 0), poison := srcBad n srcA x s } := by
  have own := cell_of_issues issues
  obtain ⟨u, checked, becomes⟩ := cellCheck_corrects (operandsRead_becomes (srcs := srcA) (x := x) canon clean) fine 3 true
  have lps : (u.cell n).lp = (s.cell n).lp := (congrArg Cell.lp becomes.own :)
  have lp : lpLine u x = lpLine s x := by
    unfold lpLine
    rw [own, lps]
  have ls : (u.cell n).ls = (s.cell n).ls := (congrArg Cell.ls becomes.own :)
  generalize word : nth (srcVals n srcA x s) 0 = a
  generalize poisoned : srcBad n srcA x s = bad
  have stored : ({ u.cell n with ls := Tab.set {} (u.cell n).ls (lpLine u x) { bits := BitVec.ofNat 512 a, poison := bad || false } } : Cell).core =
      ({ s.cell n with ls := Tab.set {} (s.cell n).ls (lpLine s x) { bits := BitVec.ofNat 512 a, poison := bad } } : Cell).core := by
    rw [lp, Bool.or_false]
    exact congrArg (fun k : Cell => { k with ls := Tab.set {} k.ls (lpLine s x) { bits := BitVec.ofNat 512 a, poison := bad } }) becomes.own
  obtain ⟨⟨_, bumped⟩, -⟩ := bumpLp_becomes own (becomes.setOwn stored)
  obtain ⟨advanced, -, -, -, written⟩ := memoryOp_ends (op := 0x09) (srcs := srcA) (ready := always)
    (body := fun x vs poison s =>
      let r := cellCheck x.n 3 true e s
      let c := r.2.cell x.n
      let l := lpLine r.2 x
      { st := bumpLp x (r.2.setCell x.n { c with ls := Tab.set {} c.ls l { bits := BitVec.ofNat 512 (nth vs 0), poison := poison || r.1 } }) })
    clean issues rfl (by
      dsimp only
      rw [own, checked, word, poisoned]) bumped rfl
  exact ⟨advanced, written⟩

/-- A GET sends one read and waits for it. -/
theorem uGet_sends {pa : Nat} (canon : Canon s) (clean : CleanCell n s) (issues : Issues n 0x0A noSrc x s) (may : mayRead s n = true)
    (low : (bPtr s x + bits x.u.imm 0 21 * 64) % 2 ^ 48 < 2 ^ 47)
    (page : translate s (portOf (.cell n)) x.ctx ((bPtr s x + bits x.u.imm 0 21 * 64) % 2 ^ 48) false = .ok pa) :
    Advanced n x s (uGet n s) ∧ ((uGet n s).cell n).rets = (s.cell n).rets ++ [{ tags := [(s.noc.nextTag, none)], size := 64 }] ∧
      (uGet n s).noc.reqs = s.noc.reqs ++ [cellReq x false pa 64 [] false s] := by
  have own := cell_of_issues issues
  subst own
  obtain ⟨sent, cells⟩ := cellSent_becomes (x := x) (CellBecomes.start canon clean) false ((bPtr s x + bits x.u.imm 0 21 * 64) % 2 ^ 48) pa 64 [] false
  have reads := readStep_sends (x := x) (size := 64) (acc := []) low page
  generalize dva_ : (bPtr s x + bits x.u.imm 0 21 * 64) % 2 ^ 48 = dva at sent cells reads
  have reqs : (cellSent x false dva pa 64 [] false s).noc.reqs = s.noc.reqs ++ [cellReq x false pa 64 [] false s] := rfl
  generalize cellSent x false dva pa 64 [] false s = u at sent cells reads reqs
  have waits : ({ u.cell x.n with rets := (u.cell x.n).rets ++ [{ tags := [(s.noc.nextTag, none)], size := 64 }] } : Cell).core = (s.cell x.n).core :=
    sent.own
  have noted := sent.setOwn waits
  obtain ⟨⟨b, bumped⟩, tail⟩ := bumpB_becomes rfl noted
  obtain ⟨advanced, noc, rets, -⟩ := memoryOp_ends (op := 0x0A) (srcs := noSrc) (ready := fun x s => mayRead s x.n)
    (body := fun x _ _ s =>
      let r := cellRead x [(bPtr s x + bits x.u.imm 0 21 * 64) % 2 ^ 48] 64 s
      let c := r.2.cell x.n
      { st := bumpB x (r.2.setCell x.n { c with rets := c.rets ++ [{ tags := r.1, size := 64 }] }) })
    clean issues may (by
      have read : operandsRead x.n noSrc x s = s := rfl
      rw [read]
      dsimp only
      rw [dva_, cellRead_steps, List.foldl_cons, List.foldl_nil, reads]
      rfl) bumped rfl
  refine ⟨advanced, rets.trans ?_, (congrArg Noc.reqs noc).trans ?_⟩
  · rw [tail.rets noted.cells, State.cell_setCell sent.cells, cells]
  · rw [tail.noc]
    exact reqs

/-- A PUT sends one write and counts its acknowledgement. -/
theorem uPut_sends {pa : Nat} (canon : Canon s) (clean : CleanCell n s) (issues : Issues n 0x0B srcA x s)
    (low : (bPtr s x + bits x.u.imm 0 21 * 64) % 2 ^ 48 < 2 ^ 47)
    (page : translate s (portOf (.cell n)) x.ctx ((bPtr s x + bits x.u.imm 0 21 * 64) % 2 ^ 48) true = .ok pa) :
    Advanced n x s (uPut n s) ∧ ((uPut n s).cell n).writes = (s.cell n).writes + 1 ∧
      (uPut n s).noc.reqs = s.noc.reqs ++ [cellReq x true pa 64 (leBytes 64 (nth (srcVals n srcA x s) 0)) (srcBad n srcA x s) s] := by
  have own := cell_of_issues issues
  subst own
  have read := operandsRead_becomes (srcs := srcA) (x := x) canon clean
  obtain ⟨same, noc, clk, ptr, -⟩ := operandsRead_keeps (srcs := srcA) (x := x) canon clean rfl
  have step := (read.seeds x.p).2
  rw [← same.translate] at page
  obtain ⟨r, isr⟩ : ∃ r : State, r = operandsRead x.n srcA x s := ⟨_, rfl⟩
  rw [← isr] at read same noc clk ptr step page
  generalize word : leBytes 64 (nth (srcVals x.n srcA x s) 0) = data
  generalize poisoned : srcBad x.n srcA x s = bad
  have req : ∀ d : List Byte, cellReq x true pa 64 d bad r = cellReq x true pa 64 d bad s := fun d => by unfold cellReq; rw [noc, clk, step]
  have writes := cellWrite_sends (x := x) (size := 64) (data := nth (srcVals x.n srcA x s) 0) (poison := bad) low page
  rw [word] at writes
  generalize dva_ : (bPtr s x + bits x.u.imm 0 21 * 64) % 2 ^ 48 = dva at writes
  obtain ⟨sent, -⟩ := cellSent_becomes (x := x) read true dva pa 64 data bad
  have reqs : (cellSent x true dva pa 64 data bad r).noc.reqs = s.noc.reqs ++ [cellReq x true pa 64 data bad s] := by
    rw [← req, ← noc]
    rfl
  generalize cellSent x true dva pa 64 data bad r = u at sent reqs writes
  have counted : ({ r.cell x.n with writes := (r.cell x.n).writes + 1 } : Cell).core = ({ s.cell x.n with writes := (s.cell x.n).writes + 1 } : Cell).core :=
    congrArg (fun k : Cell => { k with writes := k.writes + 1 }) read.own
  obtain ⟨⟨b, bumped⟩, tail⟩ := bumpB_becomes rfl (sent.setOwn counted)
  obtain ⟨advanced, noc', -, acks, -⟩ := memoryOp_ends (op := 0x0B) (srcs := srcA) (ready := always)
    (body := fun x vs poison s => { st := bumpB x (cellWrite x ((bPtr s x + bits x.u.imm 0 21 * 64) % 2 ^ 48) 64 (nth vs 0) poison s) })
    clean issues rfl (by
      rw [← isr]
      dsimp only
      rw [ptr, dva_, poisoned, writes]) bumped rfl
  refine ⟨advanced, acks, (congrArg Noc.reqs noc').trans ?_⟩
  rw [tail.noc]
  exact reqs

/-- A GATHER sends one read for each of its addresses and waits for them together. -/
theorem uGather_sends (canon : Canon s) (clean : CleanCell n s) (issues : Issues n 0x38 srcA x s) (may : mayRead s n = true)
    (pages : TranslateAll (portOf (.cell n)) x.ctx false (gatherAddrs x (bPtr s x) (nth (srcVals n srcA x s) 0)).1 s) :
    let g := gatherAddrs x (bPtr s x) (nth (srcVals n srcA x s) 0)
    Advanced n x s (uGather n s) ∧ (uGather n s).noc.nextTag = s.noc.nextTag + g.1.length ∧
      ∃ rs, ((uGather n s).cell n).rets = rs ++ [({ tags := (List.range g.1.length).map (fun i => (s.noc.nextTag + i, none)), size := g.2, poison := srcBad n srcA x s } : Ret)] := by
  have own := cell_of_issues issues
  subst own
  have read := operandsRead_becomes (srcs := srcA) (x := x) canon clean
  obtain ⟨same, noc, -, ptr, -⟩ := operandsRead_keeps (srcs := srcA) (x := x) canon clean rfl
  obtain ⟨r, isr⟩ : ∃ r : State, r = operandsRead x.n srcA x s := ⟨_, rfl⟩
  rw [← isr] at read same noc ptr
  dsimp only
  generalize addrs : gatherAddrs x (bPtr s x) (nth (srcVals x.n srcA x s) 0) = g at pages ⊢
  obtain ⟨tags, next, sent⟩ := readSteps_send (x := x) g.2 g.1 [] s r same pages read
  rw [← cellRead_steps, List.nil_append, noc] at tags
  rw [← cellRead_steps, noc] at next
  rw [← cellRead_steps] at sent
  obtain ⟨u, isu⟩ : ∃ u : State, u = (cellRead x g.1 g.2 r).2 := ⟨_, rfl⟩
  rw [← isu] at next sent
  generalize poisoned : srcBad x.n srcA x s = bad
  have waits : ({ u.cell x.n with rets := (u.cell x.n).rets ++ [{ tags := (cellRead x g.1 g.2 r).1, size := g.2, poison := bad }] } : Cell).core =
      (s.cell x.n).core := sent.own
  have noted := sent.setOwn waits
  obtain ⟨advanced, noc', rets, -⟩ := memoryOp_ends (op := 0x38) (srcs := srcA) (ready := fun x s => mayRead s x.n)
    (body := fun x vs poison s =>
      let g := gatherAddrs x (bPtr s x) (nth vs 0)
      let r := cellRead x g.1 g.2 s
      let c := r.2.cell x.n
      { st := r.2.setCell x.n { c with rets := c.rets ++ [{ tags := r.1, size := g.2, poison := poison }] } })
    clean issues may (by
      rw [← isr]
      dsimp only
      rw [ptr, addrs, poisoned, ← isu]) noted rfl
  refine ⟨advanced, (congrArg Noc.nextTag noc').trans next, (u.cell x.n).rets, rets.trans ?_⟩
  rw [State.cell_setCell sent.cells, tags]

/-- A SCATTER sends one write for each of its addresses and counts their acknowledgements. -/
theorem uScatter_sends (canon : Canon s) (clean : CleanCell n s) (issues : Issues n 0x39 srcAB x s)
    (pages : TranslateAll (portOf (.cell n)) x.ctx true (gatherAddrs x (bPtr s x) (nth (srcVals n srcAB x s) 0)).1 s) :
    let g := gatherAddrs x (bPtr s x) (nth (srcVals n srcAB x s) 0)
    Advanced n x s (uScatter n s) ∧ (uScatter n s).noc.nextTag = s.noc.nextTag + g.1.length ∧
      ((uScatter n s).cell n).writes = (s.cell n).writes + g.1.length := by
  have own := cell_of_issues issues
  subst own
  have read := operandsRead_becomes (srcs := srcAB) (x := x) canon clean
  obtain ⟨same, noc, -, ptr, -⟩ := operandsRead_keeps (srcs := srcAB) (x := x) canon clean rfl
  obtain ⟨r, isr⟩ : ∃ r : State, r = operandsRead x.n srcAB x s := ⟨_, rfl⟩
  rw [← isr] at read same noc ptr
  dsimp only
  generalize addrs : gatherAddrs x (bPtr s x) (nth (srcVals x.n srcAB x s) 0) = g at pages ⊢
  have firsts : (g.1.zip (List.range g.1.length)).map Prod.fst = g.1 := List.map_fst_zip (by simp)
  have count : (g.1.zip (List.range g.1.length)).length = g.1.length := by simp
  obtain ⟨next, sent⟩ := writeSteps_send (x := x) rfl g.2 (srcBad x.n srcAB x s)
    (fun i => bits (nth (srcVals x.n srcAB x s) 1) (8 * g.2 * i) (8 * g.2)) (g.1.zip (List.range g.1.length)) s r same (firsts.symm ▸ pages) read
  rw [count, noc] at next
  rw [count] at sent
  obtain ⟨advanced, noc', -, acks, -⟩ := memoryOp_ends (op := 0x39) (srcs := srcAB) (ready := always)
    (body := fun x vs poison s =>
      let g := gatherAddrs x (bPtr s x) (nth vs 0)
      { st := (g.1.zip (List.range g.1.length)).foldl (fun s p =>
          cellWrite x p.1 g.2 (bits (nth vs 1) (8 * g.2 * p.2) (8 * g.2)) poison s) s })
    clean issues rfl (by
      rw [← isr]
      dsimp only
      rw [ptr, addrs]) sent rfl
  exact ⟨advanced, (congrArg Noc.nextTag noc').trans next, acks⟩

end

end Sys2Proof.Machine

namespace Sys2Proof.Proofs
open Sys2Proof Sys2Proof.Machine Sys2Proof.Safety

/-- Settles O30: loads and stores are issues whose check finds nothing, or poisons the result; the others send one request for each
address, none of which disturbs the translation of the next. -/
theorem memoryMicroOps : Obligations.MemoryMicroOps := by
  unfold Obligations.MemoryMicroOps
  intro n x s canon clean
  refine ⟨fun e issues => ?_, fun e fine issues => ⟨_, rfl, uLdc_loads canon clean fine issues⟩,
    fun e fine issues => ⟨_, rfl, uSt_stores canon clean fine issues⟩,
    fun pa issues may => fun low page => ⟨_, rfl, uGet_sends canon clean issues may low page⟩,
    fun pa issues => fun low page => ⟨_, rfl, uPut_sends canon clean issues low page⟩,
    fun issues may => fun pages => ⟨_, rfl, uGather_sends canon clean issues may pages⟩,
    fun issues => fun pages => ⟨_, rfl, uScatter_sends canon clean issues pages⟩⟩
  obtain ⟨fine, bad⟩ := uLd_loads (e := e) canon clean issues
  exact ⟨fun is => ⟨_, rfl, fine is⟩, fun is calm => ⟨_, rfl, bad is calm⟩⟩

end Sys2Proof.Proofs
end


section
/-! SUPPORT. A fault changes no group's ACTION and leaves the start of the hub where it stands, whatever the group's action does
(R696 to R706: ACTION is written by software alone). -/
namespace Sys2Proof.Machine
open Sys2Proof Sys2Proof.Safety

/-- How far the start of the hub has come: its stage, whether it was stopped, its record in the flash that is fitted, and the firmware
that runs. -/
structure Progress where
  stage : Stage
  stopped : Bool
  present : Bool
  record : StartRec
  running : FwSlot
  fw : FwImage

def Mgt.progress (m : Mgt) : Progress :=
  { stage := m.stage, stopped := m.stopStart, present := m.flash.present, record := m.flash.start, running := m.running, fw := m.fw }

/-- The fault groups keep their actions, and the start of the hub stands where it stood. -/
structure Steady (s t : State) : Prop where
  groups : Groups s → Groups t
  action : Groups s → ∀ g, (t.grp g).action = (s.grp g).action
  progress : t.mgt.progress = s.mgt.progress

namespace Steady
variable {r s t : State}

theorem refl (s : State) : Steady s s := ⟨id, fun _ _ => rfl, rfl⟩

theorem trans (h : Steady r s) (k : Steady s t) : Steady r t :=
  ⟨k.groups ∘ h.groups, fun rises g => (k.action (h.groups rises) g).trans (h.action rises g), k.progress.trans h.progress⟩

/-- The last piece of work first. -/
theorem after (k : Steady s t) (h : Steady r s) : Steady r t := h.trans k

theorem ite {p : Prop} [Decidable p] {a b : State} (ha : Steady s a) (hb : Steady s b) : Steady s (if p then a else b) := by
  split <;> assumption

theorem foldl {β : Type} {f : State → β → State} (step : ∀ s a, Steady s (f s a)) (l : List β) (s : State) : Steady s (l.foldl f s) := by
  induction l generalizing s with
  | nil => exact refl s
  | cons a l ih => exact (step s a).trans (ih _)

/-- Work in other parts of the state. -/
theorem other (groups : t.flt.groups = s.flt.groups) (progress : t.mgt.progress = s.mgt.progress) : Steady s t :=
  ⟨fun rises => by unfold Groups; rw [groups]; exact rises, fun _ g => by unfold State.grp; rw [groups], progress⟩

/-- The same, said at once. -/
theorem rest (same : (t.flt.groups, t.mgt.progress) = (s.flt.groups, s.mgt.progress)) : Steady s t := by
  rw [Prod.mk.injEq] at same
  obtain ⟨groups, progress⟩ := same
  exact other groups progress

/-- Work on the partitions and the units. -/
theorem work (h : PartWork (fun _ => ()) s t) : Steady s t :=
  .other (congrArg Flt.groups h.flt) (congrArg Mgt.progress h.mgt)

/-- A group changes in registers other than ACTION. -/
theorem setGrp {g : Nat} {x : FGroup} (same : x.action = (s.grp g).action) : Steady s (s.setGrp g x) := by
  refine ⟨fun rises => Tab.rises_set rises _ _, fun rises k => ?_, rfl⟩
  by_cases own : k = g
  · rw [own, State.grp_setGrp rises]
    exact same
  · rw [State.grp_setGrp_other rises own]

theorem emit (e : Emit) (s : State) : Steady s (s.emit e) := rest (by rfl)

theorem trace (point : Nat) (part : Option Nat) (s : State) : Steady s (traceAt point part s) := work (.trace point part s)

end Steady

/-! ### The pins, the units of a partition -/

theorem refresh_steady (s : State) : Steady s (refresh s) := by
  unfold refresh
  refine Steady.trans (s := refreshPin s) ?_ ?_
  · unfold refreshPin
    exact .ite (.refl s) (.rest (by rfl))
  · unfold refreshInt
    exact .ite (.rest (by rfl)) (.rest (by rfl))

theorem endSource_steady (src : XSource) (st : Status) (detail : Nat) (s : State) : Steady s (endSource src st detail s) := by
  unfold endSource
  split
  · unfold holdEntry
    dsimp only
    split
    · exact .refl s
    · split
      · exact .ite (.rest (by rfl)) (.rest (by rfl))
      · exact .rest (by rfl)
  · exact .refl s

theorem stopXfe_steady (e : Nat) (s : State) : Steady s (stopXfe e s) := by
  unfold stopXfe
  dsimp only
  have ended : ∀ u : State, Steady u ((s.xfe e).queue.foldl (fun s d => endSource d.src .aborted 0 s) u) :=
    fun u => .foldl (fun s (d : XDesc) => endSource_steady d.src .aborted 0 s) _ u
  split
  · exact ((endSource_steady _ _ _ s).trans (ended _)).trans (.rest (by rfl))
  · exact (ended s).trans (.rest (by rfl))

theorem sendAborts_steady (c : Nat) (o : COp) (s : State) : Steady s (sendAborts c o s) :=
  .foldl (fun s n => .ite (.rest (by rfl)) (.rest (by rfl))) _ s

theorem stopCunit_steady (c : Nat) (s : State) : Steady s (stopCunit c s) := by
  unfold stopCunit
  dsimp only
  split
  · exact .rest (by rfl)
  · exact .ite (.rest (by rfl)) (Steady.after (sendAborts_steady _ _ _) (.rest (by rfl)))

theorem sendCredit_steady (port p n : Nat) (s : State) : Steady s (sendCredit port p n s) := by
  unfold sendCredit
  exact .ite (.refl s) (.ite (.rest (by rfl)) (.ite (.rest (by rfl)) (.refl s)))

theorem dropSlots_steady (p : Nat) (s : State) : Steady s (dropSlots p s) :=
  .foldl (fun s n => .ite (.refl s) (Steady.after (sendCredit_steady _ _ _ _) (.rest (by rfl)))) _ s

theorem zeroCols_steady (p : Nat) (s : State) : Steady s (zeroCols p s) :=
  .foldl (fun s k => .foldl (fun s r => .rest (by rfl)) _ s) _ s

theorem endSession_steady (v reason : Nat) (s : State) : Steady s (endSession v reason s) := by
  unfold endSession
  dsimp only
  refine .ite (.refl s) ?_
  generalize ended : State.modVi (s.setSeal v _) v _ = u
  have first : Steady s u := by rw [← ended]; exact .rest (by rfl)
  have second : Steady u (if reason = 1 ∨ reason = 7 then u else askZero (ctxGrans u v) u) := .ite (.refl u) (.rest (by rfl))
  refine first.trans ?_
  generalize (if reason = 1 ∨ reason = 7 then u else _) = w at second ⊢
  refine second.trans (.ite ?_ (.refl w))
  split
  · exact zeroCols_steady _ w
  · exact .refl w

theorem dropHeld_steady (p : Nat) (s : State) : Steady s (dropHeld p s) := by
  unfold dropHeld
  dsimp only
  refine Steady.after (.foldl (fun s r => ?_) _ _) (.rest (by rfl))
  split
  · exact .emit _ s
  · exact .refl s

theorem stopPartition_steady (p : Nat) (s : State) : Steady s (stopPartition p s) := by
  unfold stopPartition
  refine .ite (.refl s) ?_
  have engines : ∀ es : List Nat, Steady s (es.foldl (fun s e => stopXfe e s) s) := fun es => .foldl (fun s e => stopXfe_steady e s) es s
  dsimp only
  specialize engines (Tab.keysWhere s.xfes (fun e => e.owner == some p))
  generalize List.foldl (fun s e => stopXfe e s) s _ = a at engines ⊢
  have units : Steady a ((Tab.keysWhere a.cols (fun c => c.owner == some p)).foldl (fun s c => stopCunit c s) a) :=
    .foldl (fun s c => stopCunit_steady c s) _ a
  generalize List.foldl (fun s c => stopCunit c s) a _ = b at units ⊢
  have dropped : Steady b (dropHeld p (dropSlots p b)) := (dropSlots_steady p b).trans (dropHeld_steady p _)
  generalize dropHeld p (dropSlots p b) = c at dropped ⊢
  have sessions : Steady c ((c.visOf p).foldl (fun s v => endSession v 5 s) c) := .foldl (fun s v => endSession_steady v 5 s) _ c
  generalize List.foldl (fun s v => endSession v 5 s) c _ = d at sessions ⊢
  refine engines.trans (units.trans (dropped.trans (sessions.trans ?_)))
  generalize ended : State.modPart d p _ = u
  have state : PartWork (fun _ => ()) d u := by
    rw [← ended]
    refine PartWork.mod p ?_ d
    exact fun _ => rfl
  have stopped := Steady.work (state.trans ((setPState_other p .stopped .none u).trans (settleArmed_part (fun _ _ => rfl) p _)))
  generalize settleArmed p (setPState p .stopped .none u) = v at stopped ⊢
  refine stopped.trans (Steady.foldl ?_ _ v)
  exact fun s n => .ite (.rest (by rfl)) (.refl s)

/-! ### The package -/

theorem breakAll_steady (s : State) : Steady s (breakAll s) :=
  .foldl (fun s _ => .foldl (fun s _ => .work (.token _ _ s)) _ s) _ s

theorem dropPeel_steady (s : State) : Steady s (dropPeel s) := by
  unfold dropPeel
  split
  · exact .refl s
  · exact .refl s
  · exact .rest (by rfl)
  · exact .rest (by rfl)
  · exact .rest (by rfl)

theorem stopPackage_steady (cause group bit : Nat) (s : State) : Steady s (stopPackage cause group bit s) := by
  unfold stopPackage
  refine .ite (.refl s) ?_
  dsimp only
  have parts : Steady s ((List.range 64).foldl (fun s p => stopPartition p s) s) := .foldl (fun s p => stopPartition_steady p s) _ s
  generalize List.foldl (fun s p => stopPartition p s) s _ = a at parts ⊢
  have off : Steady (breakAll a) (domainsOff (breakAll a)) := .rest (by rfl)
  have down := (breakAll_steady a).trans (off.trans (dropPeel_steady _))
  generalize dropPeel (domainsOff (breakAll a)) = b at down ⊢
  have named : ∀ gs : List Nat, Steady b (gs.foldl (fun s g => s.setGrp g { s.grp g with answer := (s.grp g).status }) b) := by
    refine fun gs => Steady.foldl ?_ gs b
    exact fun s g => .setGrp rfl
  specialize named (group :: graceGroups s)
  generalize List.foldl _ b _ = c at named ⊢
  exact parts.trans (down.trans (named.trans (.rest (by rfl))))

/-! ### The units of a group that acts by FENCE_UNIT, and the partitions of one that holds them -/

theorem holdForFault_steady (p : Nat) (s : State) : Steady s (holdForFault p s) := by
  unfold holdForFault
  dsimp only
  split
  · exact .rest (by rfl)
  · refine .ite (.rest (by rfl)) (Steady.after (.work (settleArmed_part (fun _ _ => rfl) p _)) ?_)
    exact Steady.after (.work (setPState_other p _ _ _)) (.rest (by rfl))
  · exact .rest (by rfl)
  · exact .refl s

theorem syncColumn_steady (k : Nat) (s : State) : Steady s (syncColumn k s) := by
  unfold syncColumn
  dsimp only
  split
  · exact .ite (.foldl (fun s n => .rest (by rfl)) _ s) (.refl s)
  · exact .refl s

theorem killCell_steady (n : Nat) (s : State) : Steady s (killCell n s) := by
  unfold killCell
  exact Steady.after (syncColumn_steady _ _) (.rest (by rfl))

theorem requestRepair_steady (pa : Nat) (s : State) : Steady s (requestRepair pa s) := by
  unfold requestRepair
  exact .ite (.refl s) (.rest (by rfl))

theorem addFinding_steady (d : BitVec 32) (s : State) : Steady s (addFinding d s) := .rest (by rfl)

theorem fenceCol_steady (k : Nat) (s : State) : Steady s (fenceCol k s) := Steady.after (.trace _ _ _) (.rest (by rfl))

theorem requestColFence_steady (k : Nat) (s : State) : Steady s (requestColFence k s) := by
  unfold requestColFence
  exact .ite (.refl s) (.ite (.rest (by rfl)) (fenceCol_steady k s))

theorem requestColRemap_steady (k row : Nat) (s : State) : Steady s (requestColRemap k row s) := by
  unfold requestColRemap remapCol
  refine .ite (.refl s) (.ite (.rest (by rfl)) (.ite (fenceCol_steady k s) ?_))
  exact Steady.after (.trace _ _ _) (Steady.after (.foldl (fun s i => .rest (by rfl)) _ _) (.rest (by rfl)))

theorem requestUnit_steady (g bit unit : Nat) (s : State) :
    Steady s (requestXfeFence unit s) ∧ Steady s (requestCunitFence unit s) ∧ Steady s (requestPortFence unit s) ∧
      Steady s (requestSiteFence unit (if bit = 7 then .crust else .fault) s) ∧ Steady s (requestChanFence ((g - 17) * 32 + unit) s) := by
  refine ⟨.ite (.refl s) (.ite (.rest (by rfl)) (.rest (by rfl))), .ite (.refl s) (.ite (.rest (by rfl)) (.rest (by rfl))), ?_, ?_, .ite (.refl s) (.ite (.rest (by rfl)) (.rest (by rfl)))⟩
  · unfold requestPortFence
    exact .ite (.refl s) (.ite (.work (fencePort_part _ _ s)) (.rest (by rfl)))
  · unfold requestSiteFence
    exact .ite (.refl s) (.ite (.rest (by rfl)) (.work (fenceSite_part _ _ _ s)))

/-- A fence of a cell's column, or the remap of its row. -/
theorem fenceCell_steady (g bit unit : Nat) (s : State) (cell : 24 ≤ g ∧ g ≤ 27) : Steady s (fenceUnit g bit unit s) := by
  unfold fenceUnit
  rw [if_neg (by omega : ¬g = 12), if_neg (by omega : ¬g = 13), if_neg (by omega : ¬g = 14), if_neg (by omega : ¬g = 16), if_neg (by omega : ¬g = 23),
    if_neg (by omega : ¬(17 ≤ g ∧ g ≤ 22)), if_pos cell]
  refine .ite (.refl s) ?_
  dsimp only
  have found := addFinding_steady (BitVec.ofNat 32 (0x10000000 + (g - 24) * 1024 + unit)) s
  generalize addFinding _ s = u at found ⊢
  have left : ∀ v : State, Steady v (if ((cellSpot (g - 24) unit).2 = 16 && !(s.col (cellSpot (g - 24) unit).1).spare && bit ≠ 9) = true then
        v.setCol (cellSpot (g - 24) unit).1 { v.col (cellSpot (g - 24) unit).1 with spareBad := true }
      else if (bit = 9 || (s.col (cellSpot (g - 24) unit).1).spare || (s.col (cellSpot (g - 24) unit).1).spareBad) = true then
        requestColFence (cellSpot (g - 24) unit).1 v
      else requestColRemap (cellSpot (g - 24) unit).1 (cellSpot (g - 24) unit).2 v) :=
    fun v => .ite (.rest (by rfl)) (.ite (requestColFence_steady _ v) (requestColRemap_steady _ _ v))
  refine found.trans ?_
  generalize logicalRow (s.col (cellSpot (g - 24) unit).1) (cellSpot (g - 24) unit).2 = row
  cases row with
  | none => exact left u
  | some r => exact Steady.trans (.ite (.refl u) (killCell_steady _ u)) (left _)

theorem fenceUnit_steady (g bit unit : Nat) (s : State) : Steady s (fenceUnit g bit unit s) := by
  by_cases cell : 24 ≤ g ∧ g ≤ 27
  · exact fenceCell_steady g bit unit s cell
  · obtain ⟨xfe, cunit, port, site, chan⟩ := requestUnit_steady g bit unit s
    have repair := requestRepair_steady unit s
    unfold fenceUnit
    rw [if_neg cell]
    exact .ite (.refl s) (.ite xfe (.ite cunit (.ite port (.ite site (.ite (.ite repair (.refl s)) (.ite (.ite repair (.ite chan (.refl s))) (.refl s)))))))

/-! ### Detection -/

theorem performAction_steady (g : Nat) (units : List (Nat × Nat)) (s : State) : Steady s (performAction g units s) := by
  unfold performAction
  refine .ite (.refl s) ?_
  split
  · exact .refl s
  · exact .foldl (fun s u => fenceUnit_steady _ _ _ s) _ s
  · exact .foldl (fun s p => holdForFault_steady p s) _ s
  · exact .refl s

/-- The registers of a group once its action is done. -/
def escalated (x : FGroup) : FGroup :=
  { x with unacked := x.unacked &&& x.mask, timer := false, units := x.units.filter (fun u => x.mask.getLsbD u.1) }

theorem escalateOnce_steady (g : Nat) (s : State) : Steady s (escalateOnce g s).2 := by
  unfold escalateOnce
  dsimp only
  have acted := performAction_steady g ((s.grp g).units.filter (fun u => (s.grp g).live.getLsbD u.1)) s
  generalize performAction g _ s = u at acted ⊢
  refine acted.trans ?_
  have done : Steady u (u.setGrp g (escalated (u.grp g))) := .setGrp rfl
  exact done.trans (.ite (.refl _) (.rest (by rfl)))

/-- The registers of a group in which a bit of a unit is detected. -/
def detected (bit unit : Nat) (x : FGroup) : FGroup :=
  { x with status := putBit x.status bit true, unacked := putBit x.unacked bit true,
           units := if x.units.contains (bit, unit) then x.units else x.units ++ [(bit, unit)] }

theorem detectN_steady (k g bit unit : Nat) (s : State) : Steady s (detectN k g bit unit s) := by
  induction k generalizing g bit unit s with
  | zero => exact .setGrp rfl
  | succ k again =>
    have stopFor : ∀ (cause : Nat) (s : State), Steady s (if s.flt.stopped then s else
        detectN k 7 1 0 (if cause = 2 then detectN k 7 2 0 (stopPackage cause g bit s) else stopPackage cause g bit s)) := fun cause s =>
      .ite (.refl s) (Steady.after (again _ _ _ _) ((stopPackage_steady _ _ _ s).trans (.ite (again _ _ _ _) (.refl _))))
    unfold detectN
    dsimp only
    have marked := Laws.markUnit_action g unit (detected bit unit (s.grp g))
    unfold detected at marked
    generalize markUnit g unit _ = y at marked ⊢
    have noted : Steady s ((s.setGrp g y).emit (.faultSignal g bit)) := (Steady.setGrp marked).trans (.emit _ _)
    generalize State.emit (State.setGrp s g y) _ = u at noted ⊢
    refine noted.trans (.ite (.refl u) (.ite ?_ (.ite ?_ ?_)))
    · exact Steady.after (again _ _ _ _) ((escalateOnce_steady g u).trans (.ite (stopFor 1 _) (.refl _)))
    · exact (escalateOnce_steady g u).trans (.ite (stopFor 1 _) (.refl _))
    · have armed : Steady u (u.setGrp g { u.grp g with timer := true, started := u.clk.now }) := .setGrp rfl
      exact armed.trans (.ite (stopFor 2 _) (.refl _))

/-- A fault that is raised leaves every group's action. -/
theorem raise_steady (g bit unit : Nat) (s : State) : Steady s (raise g bit unit s) := (detectN_steady _ _ _ _ s).trans (refresh_steady _)

/-! ### Writes of the hub's own units -/

theorem noteXlat_steady (unit ctx dva : Nat) (s : State) : Steady s (noteXlat unit ctx dva s) := by
  obtain ⟨xlt, noted⟩ := noteXlat_shape unit ctx dva s
  rw [noted]
  exact .rest (by rfl)

theorem writePiece_steady (unit ctx dva : Nat) (bs : List Byte) (poison : Bool) (s : State) : Steady s (writePiece unit ctx dva bs poison s).2 := by
  have noted := noteXlat_steady unit ctx dva s
  unfold writePiece
  dsimp only
  generalize noteXlat unit ctx dva s = u at noted ⊢
  refine noted.trans ?_
  split
  next pa _ =>
    by_cases home : coherent u pa = true
    · rw [if_pos home]
      exact .rest (by rfl)
    · rw [if_neg home]
      obtain ⟨ports, counted⟩ := countAccess_shape unit bs.length true u
      rw [counted]
      refine Steady.trans (s := { u with noc := { u.noc with qports := ports } }) (.rest (by rfl)) ?_
      split
      · exact .rest (by rfl)
      · split
        · exact .emit _ _
        · exact raise_steady _ _ _ _
      · exact raise_steady _ _ _ _
  next =>
    dsimp only
    split
    · exact raise_steady _ _ _ _
    · exact .refl u

theorem dvaWrite_steady (unit ctx dva : Nat) (bs : List Byte) (poison : Bool) (s : State) : Steady s (dvaWrite unit ctx dva bs poison s).2 := by
  unfold dvaWrite
  generalize pieces dva bs.length = ps
  suffices all : ∀ acc : List Nat × State, Steady acc.2 (ps.foldl (fun acc p =>
      let r := writePiece unit ctx p.1 ((bs.drop (p.1 - dva)).take p.2) poison acc.2
      (if r.1 then acc.1 ++ [p.1] else acc.1, r.2)) acc).2 from all ([], s)
  induction ps with
  | nil => exact fun acc => .refl acc.2
  | cons p ps ih =>
    intro acc
    rw [List.foldl_cons]
    exact Steady.trans (writePiece_steady _ _ _ _ _ acc.2) (ih (_, (writePiece _ _ _ _ _ acc.2).2))

end Sys2Proof.Machine
end


section
/-! SUPPORT. The end of an operation of a collective unit: what the unit shows, its faults, the taint of the partition, and the unit's
next operation (R532 to R540). -/
namespace Sys2Proof.Machine
open Sys2Proof Sys2Proof.Safety

variable {c : Nat} {o : COp} {st : Status} {s : State}

/-- What a collective unit shows of an operation that ended. -/
def shownOp (o : COp) (st : Status) (u : Col) : Col :=
  { u with lastStat := st, lastFlags := BitVec.ofNat 8 o.flags, lastDesc := BitVec.ofNat 16 o.index, failedN := BitVec.ofNat 32 o.failed.length }

/-- The fault of an ABORTED operation. -/
def abortFault (c : Nat) (st : Status) (s : State) : State := if st == .aborted then raise 13 2 c s else s

/-- The fault of failed writes, which taint the partition's next ARRIVE. -/
def writeFault (c : Nat) (o : COp) (s : State) : State := if o.failed.isEmpty then s else markFlag o.part 1 (raise 13 3 c s)

/-- The flag that a status leaves for the partition's next ARRIVE. -/
def taintStatus (p : Nat) (st : Status) (s : State) : State :=
  match st with
  | .aborted => markFlag p 1 s
  | .denied => markFlag p 1 s
  | .partialDone => markFlag p 1 s
  | .poisoned => markFlag p 2 s
  | _ => s

theorem taintStatus_shape (p : Nat) (st : Status) (s : State) : ∃ parts, taintStatus p st s = { s with parts := parts } := by
  unfold taintStatus
  split
  · exact ⟨_, rfl⟩
  · exact ⟨_, rfl⟩
  · exact ⟨_, rfl⟩
  · exact ⟨_, rfl⟩
  · exact ⟨s.parts, rfl⟩

theorem finishOp_eq (c : Nat) (o : COp) (st : Status) (s : State) : finishOp c o st s =
    nextOp c (taintStatus o.part st (writeFault c o (abortFault c st (s.setCunit c (shownOp o st (s.cunit c)))))) := by
  unfold finishOp
  cases st <;> rfl

/-- Work that leaves memory and the collective units, and clears no status bit of a group. -/
structure CollQuiet (s t : State) : Prop where
  mem : t.mem = s.mem
  cols : t.cols = s.cols
  steady : Steady s t
  rising : ∀ g bit, FaultSet g bit s → FaultSet g bit t

namespace CollQuiet
variable {r t : State}

theorem refl (s : State) : CollQuiet s s := ⟨rfl, rfl, .refl s, fun _ _ h => h⟩

theorem trans (h : CollQuiet r s) (k : CollQuiet s t) : CollQuiet r t :=
  ⟨k.mem.trans h.mem, k.cols.trans h.cols, h.steady.trans k.steady, fun g bit set => k.rising g bit (h.rising g bit set)⟩

theorem parts (ps : Tab Part) (s : State) : CollQuiet s { s with parts := ps } := ⟨rfl, rfl, (.rest (by rfl)), fun _ _ h => h⟩

/-- A fault of a group that acts by LOG. -/
theorem raise (groups : Groups s) (logs : Logs 13 s) (bit unit : Nat) : CollQuiet s (raise 13 bit unit s) :=
  ⟨Laws.raise_calm_mem groups (.inl logs), Laws.raise_calm_cols groups (.inl logs), raise_steady _ _ _ s,
    fun g b set => (Laws.raise_le.out groups).2 g b set⟩

end CollQuiet

theorem abortFault_quiet (groups : Groups s) (logs : Logs 13 s) (c : Nat) (st : Status) :
    CollQuiet s (abortFault c st s) ∧ (st = .aborted → FaultSet 13 2 (abortFault c st s)) := by
  unfold abortFault
  by_cases aborted : st = .aborted
  · rw [if_pos (by rw [aborted]; decide)]
    exact ⟨.raise groups logs 2 c, fun _ => Laws.raise_sets groups (by decide)⟩
  · rw [if_neg (by simpa using aborted)]
    exact ⟨.refl s, fun is => absurd is aborted⟩

theorem writeFault_quiet (groups : Groups s) (logs : Logs 13 s) (c : Nat) (o : COp) :
    CollQuiet s (writeFault c o s) ∧ (o.failed ≠ [] → FaultSet 13 3 (writeFault c o s)) := by
  unfold writeFault
  by_cases whole : o.failed = []
  · rw [if_pos (by rw [whole]; rfl)]
    exact ⟨.refl s, fun failed => absurd whole failed⟩
  · rw [if_neg (by simpa using whole)]
    have set : FaultSet 13 3 (raise 13 3 c s) := Laws.raise_sets groups (by decide)
    exact ⟨(CollQuiet.raise groups logs 3 c).trans (.parts _ _), fun _ => set⟩

/-- What the end of an operation leaves before the unit's next one. -/
theorem collEnd_quiet (groups : Groups s) (logs : Logs 13 s) (c : Nat) (o : COp) (st : Status) :
    let t := taintStatus o.part st (writeFault c o (abortFault c st s))
    CollQuiet s t ∧ (st = .aborted → FaultSet 13 2 t) ∧ (o.failed ≠ [] → FaultSet 13 3 t) := by
  obtain ⟨first, aborted⟩ := abortFault_quiet groups logs c st
  generalize abortFault c st s = u at first aborted ⊢
  obtain ⟨second, failed⟩ := writeFault_quiet (first.steady.groups groups) ((first.steady.action groups 13).trans logs) c o
  dsimp only
  generalize writeFault c o u = v at second failed ⊢
  obtain ⟨ps, tainted⟩ := taintStatus_shape o.part st v
  rw [tainted]
  exact ⟨first.trans (second.trans (.parts ps v)), fun is => second.rising 13 2 (aborted is), failed⟩

theorem setRun_shape (c : Nat) (r : CRun) (s : State) :
    ∃ trc free, setRun c r s = { (s.setCunit c { s.cunit c with run := r }) with trc := trc, free := free } ∨ (setRun c r s = s ∧ (s.cunit c).run = r) := by
  unfold setRun
  dsimp only
  by_cases same : (s.cunit c).run = r
  · rw [if_pos (by simpa using same)]
    exact ⟨s.trc, s.free, .inr ⟨rfl, same⟩⟩
  · rw [if_neg (by simpa using same)]
    obtain ⟨trc, free, traced⟩ := traceAt_shape (64 + c) (s.cunit c).owner (s.setCunit c { s.cunit c with run := r })
    exact ⟨trc, free, .inl traced⟩

/-- A unit that changes its state keeps all else. -/
theorem setRun_keeps {y : Col} (h : Tab.Holds {} s.cols c y) (r : CRun) : Tab.Holds {} (setRun c r s).cols c { y with run := r } ∧
    (setRun c r s).mem = s.mem ∧ (setRun c r s).flt = s.flt := by
  have is : s.cunit c = y := h.get
  obtain ⟨trc, free, set | ⟨same, run⟩⟩ := setRun_shape c r s
  · rw [set, is]
    exact ⟨h.set _, rfl, rfl⟩
  · rw [same]
    refine ⟨?_, rfl, rfl⟩
    rw [← run, is]
    exact h

/-- The next operation of a unit leaves what the unit shows of the last; with none waiting the unit is idle. -/
theorem nextOp_keeps {y : Col} (h : Tab.Holds {} s.cols c y) : let t := nextOp c s
    t.mem = s.mem ∧ t.flt = s.flt ∧ (t.cunit c).lastStat = y.lastStat ∧
      (y.queue = [] → y.fencePend = false → (t.cunit c).run = .idle ∧ (t.cunit c).cur = none) := by
  have is : s.cunit c = y := h.get
  unfold nextOp
  dsimp only
  rw [is]
  cases waiting : y.queue with
  | cons next rest =>
    obtain ⟨kept, mem, flt⟩ := setRun_keeps (s := s.setCunit c { y with cur := some next, queue := rest, lines := 0 }) (h.set _) .wait
    have shown : Tab.get {} (setRun c .wait _).cols c = _ := kept.get
    exact ⟨mem, flt, (congrArg Col.lastStat shown).trans rfl, fun none => by cases none⟩
  | nil =>
    obtain ⟨kept, mem, flt⟩ := setRun_keeps (s := s.setCunit c { y with cur := none, queue := [] }) (h.set _) .idle
    dsimp only
    generalize setRun c .idle _ = u at kept mem flt ⊢
    have shown : u.cunit c = _ := kept.get
    have last : (u.cunit c).lastStat = y.lastStat := by rw [shown]
    by_cases drained : (y.fencePend && !ownerActive u y.owner) = true
    · rw [if_pos drained]
      have fenced := (kept.set { u.cunit c with run := .fenced, fencePend := false }).get
      refine ⟨mem, flt, (congrArg Col.lastStat fenced).trans last, fun _ calm => ?_⟩
      rw [calm] at drained
      cases drained
    · rw [if_neg drained]
      exact ⟨mem, flt, last, fun _ _ => by rw [shown]; exact ⟨rfl, rfl⟩⟩

/-- The end of an operation, in a group that acts by LOG. -/
theorem finishOp_ends (cols : Tab.wf {} s.cols = true) (groups : Groups s) (logs : Logs 13 s) : let t := finishOp c o st s
    (t.cunit c).lastStat = st ∧ t.mem = s.mem ∧ (st = .aborted → FaultSet 13 2 t) ∧ (o.failed ≠ [] → FaultSet 13 3 t) ∧
      ((s.cunit c).queue = [] → (s.cunit c).fencePend = false → (t.cunit c).run = .idle ∧ (t.cunit c).cur = none) := by
  have shown : Tab.Holds {} s.cols c (s.cunit c) := ⟨cols, rfl⟩
  have noted := shown.set (shownOp o st (s.cunit c))
  have quiet := collEnd_quiet (s := s.setCunit c (shownOp o st (s.cunit c))) groups logs c o st
  dsimp only at quiet ⊢
  rw [finishOp_eq]
  generalize taintStatus o.part st _ = u at quiet ⊢
  obtain ⟨quiet, aborted, failed⟩ := quiet
  obtain ⟨mem, flt, last, idle⟩ := nextOp_keeps (noted.keeps quiet.cols)
  have faults : ∀ bit, FaultSet 13 bit u → FaultSet 13 bit (nextOp c u) := fun bit set => by
    unfold FaultSet State.grp at set ⊢
    rw [flt]
    exact set
  exact ⟨last, mem.trans quiet.mem, fun is => faults 2 (aborted is), fun is => faults 3 (failed is), idle⟩

/-- An operation of no element, whatever its group's action, raises nothing. -/
theorem finishOp_empty (cols : Tab.wf {} s.cols = true) (whole : o.failed = []) : let t := finishOp c o .empty s
    (t.cunit c).lastStat = .empty ∧ t.mem = s.mem ∧
      ((s.cunit c).queue = [] → (s.cunit c).fencePend = false → (t.cunit c).run = .idle ∧ (t.cunit c).cur = none) := by
  have shown : Tab.Holds {} s.cols c (s.cunit c) := ⟨cols, rfl⟩
  have is : finishOp c o .empty s = nextOp c (s.setCunit c (shownOp o .empty (s.cunit c))) := by
    rw [finishOp_eq]
    unfold writeFault
    rw [whole]
    rfl
  obtain ⟨mem, -, last, idle⟩ := nextOp_keeps (s := s.setCunit c (shownOp o .empty (s.cunit c))) (shown.set _)
  dsimp only
  rw [is]
  exact ⟨last, mem, idle⟩

end Sys2Proof.Machine

namespace Sys2Proof.Proofs
open Sys2Proof Sys2Proof.Machine Sys2Proof.Safety

/-- Settles O47: a unit's events by the end of its operation; the record that an ended operation writes leaves the group of the units
acting by LOG, so that what follows it leaves memory. -/
theorem collectiveUnits : Obligations.CollectiveUnits := by
  unfold Obligations.CollectiveUnits
  intro c s canon u
  have groups := groups_of_canon canon
  have canon' := canon
  obtain ⟨-, -, -, -, -, cols, -⟩ := canon
  refine ⟨fun o cur waits met => ⟨fun some_ => ?_, fun zero whole last calm => ?_⟩, fun o cur ending written logs => ?_, fun o cur fresh => ?_,
    fun up => ?_, fun fenced => ?_, fun up calm => ?_⟩
  · refine congrArg (fun t => Host.Outcome.next (refresh t)) ?_
    unfold colWaitSatisfied
    dsimp only
    rw [cur]
    dsimp only
    rw [if_neg (by simp [u] at waits; simp [waits, met]), if_neg some_]
  · have runs : colWaitSatisfied c.val s = finishOp c.val o .empty s := by
      unfold colWaitSatisfied
      dsimp only
      rw [cur]
      dsimp only
      rw [if_neg (by simp [u] at waits; simp [waits, met]), if_pos zero]
    obtain ⟨shown, mem, idle⟩ := finishOp_empty (c := c.val) cols whole
    obtain ⟨run, none⟩ := idle last calm
    refine ⟨_, congrArg (fun t => Host.Outcome.next (refresh t)) runs, ?_⟩
    rw [refresh_cunit, refresh_mem]
    exact ⟨shown, run, none, mem⟩
  · intro st
    have runs : colOpComplete c.val s = finishOp c.val o st
        (if cCompValid o.desc then (dvaWrite (64 + c.val) (cCtx o.desc) (cComp o.desc) (collRecord c.val o st) false s).2 else s) := by
      unfold colOpComplete
      dsimp only
      rw [cur]
      dsimp only
      rw [if_neg (by simp [u] at ending; simp [ending, written])]
    refine ⟨fun unasked last calm => ?_, fun asked => ?_⟩
    · rw [unasked] at runs
      obtain ⟨shown, mem, aborted, failed, idle⟩ := finishOp_ends (c := c.val) (o := o) (st := st) cols groups logs
      obtain ⟨run, none⟩ := idle last calm
      refine ⟨_, congrArg (fun t => Host.Outcome.next (refresh t)) runs, ?_⟩
      have set : ∀ bit, FaultSet 13 bit (finishOp c.val o st s) → FaultSet 13 bit (refresh (finishOp c.val o st s)) := fun bit h => by
        unfold FaultSet State.grp at h ⊢
        rw [refresh_groups]
        exact h
      rw [refresh_cunit, refresh_mem]
      exact ⟨shown, run, none, mem, fun is => set 2 (aborted is), fun is => set 3 (failed is)⟩
    · rw [asked, if_pos rfl] at runs
      have steady := dvaWrite_steady (64 + c.val) (cCtx o.desc) (cComp o.desc) (collRecord c.val o st) false s
      have kept := Laws.kept_dvaWrite (unit := 64 + c.val) (ctx := cCtx o.desc) (dva := cComp o.desc) (bs := collRecord c.val o st) (poison := false)
        (Laws.Kept.refl s)
      generalize (dvaWrite (64 + c.val) (cCtx o.desc) (cComp o.desc) (collRecord c.val o st) false s).2 = v at runs steady kept ⊢
      obtain ⟨⟨-, -, -, -, -, cols, -⟩, -⟩ := kept.canon canon'
      obtain ⟨shown, mem, -⟩ := finishOp_ends (c := c.val) (o := o) (st := st) cols (steady.groups groups) ((steady.action groups 13).trans logs)
      refine ⟨_, congrArg (fun t => Host.Outcome.next (refresh t)) runs, ?_⟩
      rw [refresh_cunit, refresh_mem]
      exact ⟨shown, mem⟩
  · obtain ⟨aborts, mem⟩ := abortOp_aborts cols cur fresh
    exact ⟨_, rfl, aborts, mem⟩
  · refine congrArg Host.Outcome.next ?_
    show requestCunitFence c.val s = _
    unfold requestCunitFence
    dsimp only
    rw [if_neg (by simpa using up)]
    exact (apply_ite (s.setCunit c.val) _ _ _).symm
  · refine congrArg Host.Outcome.next ?_
    show colReadmit c.val s = _
    unfold colReadmit requestCunitReadmit
    rw [if_pos (by rw [show (s.cunit c.val).run = .fenced from fenced]; decide)]
    exact (apply_ite (s.setCunit c.val) _ _ _).symm
  · have runs : colReadmit c.val s = raise 13 0 c.val s := if_neg (by simpa using up)
    exact ⟨_, congrArg Host.Outcome.next runs, Laws.raise_sets groups (by decide), Laws.raise_calm_cols groups calm⟩

end Sys2Proof.Proofs
end


section
/-! SUPPORT. The load, the validation and the activation of an image leave the start of the hub where it stands (R85 to R96). -/
namespace Sys2Proof.Machine
open Sys2Proof Sys2Proof.Safety

/-! ### Memory and translations of an image -/

theorem freeGranule_steady (g : Nat) (s : State) : Steady s (freeGranule g s) := .rest (by rfl)

theorem settleHome_steady (s : State) : Steady s (settleHome s) := by
  have wins : Steady s (settleWins s) := .foldl (fun s p => .ite (.refl s) (.rest (by rfl))) _ s
  unfold settleHome settleGrans
  exact wins.trans (.foldl (fun s g => .ite (.refl s) (.rest (by rfl))) _ _)

theorem releaseGran_steady (g : Nat) (s : State) : Steady s (releaseGran g s) := by
  unfold releaseGran
  refine .ite ?_ (freeGranule_steady g s)
  dsimp only
  generalize marked : ({ s with mem := { s.mem with leaving := s.mem.leaving.filter (· != g) ++ [g] } } : State) = u
  have first : Steady s u := by rw [← marked]; exact .rest (by rfl)
  have told : Steady u (backInvalRange (granRange g).1 (granRange g).2 u) := .foldl (fun s e => .work (backInval_part _ _ s)) _ u
  exact first.trans (told.trans (settleHome_steady _))

theorem writePte_steady (a v : Nat) (s : State) : Steady s (writePte a v s) := by
  unfold writePte
  split
  · exact .rest (by rfl)
  · exact .refl s

theorem newTable_steady {p : Nat} {hbm : Bool} {s t : State} {a : Nat} (made : newTable p hbm s = some (a, t)) : Steady s t := by
  unfold newTable at made
  dsimp only at made
  split at made
  · cases made
    exact .rest (by rfl)
  · cases chosen : chooseRun p hbm 1 s with
    | none =>
      rw [chosen] at made
      cases made
    | some x =>
      obtain ⟨g, u⟩ := x
      rw [chosen] at made
      cases made
      unfold chooseRun at chosen
      dsimp only at chosen
      split at chosen
      · cases chosen
      · obtain ⟨k, -, same⟩ := Option.map_eq_some_iff.mp chosen
        cases same
        exact .rest (by rfl)

theorem enterPage_steady (p : Nat) (m : DevMap) (hbm : Bool) :
    ∀ (lv table : Nat) (s t : State), enterPage p m hbm lv table s = some t → Steady s t
  | 0, table, s, t, entered => by
    cases entered
    exact .foldl (fun s e => writePte_steady _ _ s) _ s
  | lv + 1, table, s, t, entered => by
    by_cases leaf : lv + 1 = (if m.page ≤ 1 then 0 else m.page - 1)
    · rw [enterPage, if_pos leaf] at entered
      cases entered
      exact .foldl (fun s e => writePte_steady _ _ s) _ s
    · rw [enterPage, if_neg leaf] at entered
      dsimp only at entered
      by_cases here : (leNat (s.mem.read (table + bits m.dva (12 + 9 * (lv + 1)) 9 * 8) 8)).testBit 0 = true
      · rw [if_pos here] at entered
        exact enterPage_steady p m hbm lv _ s t entered
      · rw [if_neg here] at entered
        cases made : newTable p hbm s with
        | none =>
          rw [made] at entered
          cases entered
        | some x =>
          obtain ⟨a, u⟩ := x
          rw [made] at entered
          exact (newTable_steady made).trans ((writePte_steady _ _ u).trans (enterPage_steady p m hbm lv a _ t entered))

theorem mapPage_steady {p : Nat} {m : DevMap} {s t : State} (mapped : mapPage p m s = some t) : Steady s t := by
  unfold mapPage at mapped
  dsimp only at mapped
  split at mapped
  · cases mapped
  · next r u rooted =>
    have first : Steady s u := by
      split at rooted
      · cases rooted
        exact .refl s
      · obtain ⟨⟨a, v⟩, made, same⟩ := Option.map_eq_some_iff.mp rooted
        cases same
        exact (newTable_steady made).trans (.rest (by rfl))
    obtain ⟨v, entered, same⟩ := Option.map_eq_some_iff.mp mapped
    have last : Steady v t := by
      rw [← same]
      exact .rest (by rfl)
    exact first.trans ((enterPage_steady _ _ _ _ _ _ _ entered).trans last)

theorem rebuildTables_steady (p : Nat) (s : State) : Steady s (rebuildTables p s) := by
  unfold rebuildTables
  extract_lets old cfg mine ms cleared inOld tables kept
  have first : Steady s cleared := by
    have freed : Steady s (old.foldl (fun s x => releaseGran x.2 s) s) := .foldl (fun s x => releaseGran_steady x.2 s) old s
    exact freed.trans (.rest (by rfl))
  have second : Steady cleared kept := .rest (by rfl)
  refine first.trans (second.trans (Steady.foldl ?_ ms kept))
  intro u m
  cases mapped : mapPage p m u with
  | none => exact .refl u
  | some v => exact mapPage_steady mapped

theorem resetGranules_steady (s : State) : Steady s (resetGranules s) := by
  unfold resetGranules
  extract_lets keeps gone pt tables dropped freed
  have first : Steady s dropped := .rest (by rfl)
  have second : Steady dropped freed := by
    have all : Steady dropped ((gone ++ pt).foldl (fun s g => releaseGran g s) dropped) := .foldl (fun s g => releaseGran_steady g s) _ dropped
    exact all.trans (.rest (by rfl))
  exact first.trans (second.trans (.foldl (fun s p => rebuildTables_steady p s) _ freed))

/-! ### Sites, domains, owners, slots, shares of the network -/

theorem leaveSite_steady (n : Nat) (s : State) : Steady s (leaveSite n s) := by
  unfold leaveSite
  extract_lets t u
  have first : Steady s u := .ite (.refl s) (.rest (by rfl))
  refine first.trans (.ite (.refl u) (.ite (.work (flushSite_part n u)) ?_))
  exact .foldl (fun s k => .work (coreOff_part k s)) _ u

theorem putRecord_steady (n : Nat) (u : Site) (st : SState) (held : Bool) (s : State) : Steady s (putRecord n u st held s) := by
  unfold putRecord
  extract_lets v
  have first : Steady s v := .rest (by rfl)
  exact first.trans (.ite (.refl v) (.rest (by rfl)))

theorem setSitePair_steady (rs : List Rec) (e : Nat) (s : State) : Steady s (setSitePair rs e s) := by
  unfold setSitePair
  extract_lets a b u v inUse same keep after left held noted st why left2 one
  have single : ∀ n t w s, Steady s (one n t w s) := fun n t w s => .ite (.rest (by rfl)) ((leaveSite_steady n s).trans (putRecord_steady _ _ _ _ _))
  refine .ite (.ite (.rest (by rfl)) ?_) (.ite ?_ ((single _ _ _ s).trans (single _ _ _ _)))
  · have marked : Steady s noted := (leaveSite_steady e s).trans (.rest (by rfl))
    exact marked.trans ((putRecord_steady _ _ _ _ _).trans (putRecord_steady _ _ _ _ _))
  · exact ((leaveSite_steady e s).trans (leaveSite_steady (e + 1) _)).trans ((putRecord_steady _ _ _ _ _).trans (putRecord_steady _ _ _ _ _))

theorem setDomains_steady (s : State) : Steady s (setDomains s) := by
  unfold setDomains
  extract_lets banks quads
  have first : Steady s banks := by
    refine Steady.foldl ?_ _ s
    intro u g
    exact .ite (.rest (by rfl)) (.rest (by rfl))
  have second : Steady banks quads := .foldl (fun s q => .rest (by rfl)) _ banks
  exact first.trans (second.trans (.foldl (fun s m => .rest (by rfl)) _ quads))

theorem setOwners_steady (s : State) : Steady s (setOwners s) := by
  unfold setOwners
  extract_lets cols banks chans engines
  have first : Steady s cols := by
    refine Steady.foldl ?_ _ s
    intro u k
    extract_lets o c v
    have zeroed : Steady u v := .ite (.foldl (fun s r => .rest (by rfl)) _ u) (.refl u)
    exact zeroed.trans (.rest (by rfl))
  have second : Steady cols banks := .foldl (fun s b => .rest (by rfl)) _ cols
  have third : Steady banks chans := .foldl (fun s k => .rest (by rfl)) _ banks
  have fourth : Steady chans engines := .foldl (fun s e => .rest (by rfl)) _ chans
  exact first.trans (second.trans (third.trans (fourth.trans (.foldl (fun s u => .rest (by rfl)) _ engines))))

theorem writeSlots_steady (rs : List Rec) (s : State) : Steady s (writeSlots rs s) := .foldl (fun s r => .foldl (fun s i => .rest (by rfl)) _ s) _ s

theorem setQos_steady (p enabled : Nat) (rs : List Rec) (s : State) : Steady s (setQos p enabled rs s) := by
  unfold setQos
  extract_lets q tags fresh noc u v
  have first : Steady s u := .rest (by rfl)
  have second : Steady u v := .rest (by rfl)
  exact first.trans (second.trans (.foldl (fun s r => .ite (.rest (by rfl)) (.rest (by rfl))) _ v))

theorem holdFclk_steady (s : State) : Steady s (holdFclk s) := by
  unfold holdFclk
  exact .ite (.rest (by rfl)) (.refl s)

theorem setPolicy_steady (rs : List Rec) (s : State) : Steady s (setPolicy rs s) := by
  unfold setPolicy
  refine Steady.after (holdFclk_steady _) ?_
  split
  · exact .rest (by rfl)
  · exact .rest (by rfl)

theorem setLink_steady (n : Nat) (st : PortState) (s : State) : Steady s (setLink n st s) := by
  unfold setLink
  generalize entered : s.setPort n _ = u
  have first : Steady s u := by rw [← entered]; exact .rest (by rfl)
  exact first.trans ((Steady.trace _ _ u).trans (.rest (by rfl)))

theorem settlePorts_steady (full : Bool) (s : State) : Steady s (settlePorts full s) := by
  unfold settlePorts
  extract_lets used u v
  have first : Steady s v := .rest (by rfl)
  refine first.trans (Steady.foldl ?_ _ v)
  intro w n
  exact .ite (.ite (setLink_steady _ _ w) (.refl w)) (.ite (setLink_steady _ _ w) (.refl w))

theorem detachVi_steady (v : Nat) (s : State) : Steady s (detachVi v s) := by
  unfold detachVi
  extract_lets u
  have first : Steady s u := .rest (by rfl)
  exact first.trans (endSession_steady v 3 u)

theorem setMeas_steady (idx : Nat) (v : List Byte) (s : State) : Steady s (setMeas idx v s) := by
  unfold setMeas
  refine .ite (.refl s) ?_
  extract_lets sessions sec u
  have first : Steady s u := .rest (by rfl)
  exact first.trans (.foldl (fun s v => .rest (by rfl)) _ u)

/-- The image that replaces the running one. -/
theorem installFull_steady (img : Image) (s : State) : Steady s (installFull img s) := by
  unfold installFull
  extract_lets old s1 s2 img3 flt3 s3 s4 s5 s6 s7 routes noc8 s8 n s9 s10 code fab11 pwr11 s11 s12 s13 s14
  have h1 : Steady s s1 := .foldl (fun s p => .foldl (fun s v => endSession_steady v 4 s) _ s) _ s
  have h2 : Steady s1 s2 := .foldl (fun s p => stopPartition_steady p s) _ s1
  clear_value s2
  have h3 : Steady s2 s3 := .rest (by rfl)
  have h4 : Steady s3 s4 := .foldl (fun s p => .rest (by rfl)) _ s3
  have h5 : Steady s4 s5 := .foldl (fun s k => setSitePair_steady _ _ s) _ s4
  have h6 : Steady s5 s6 := (setOwners_steady s5).trans ((setDomains_steady _).trans (resetGranules_steady _))
  have h7 : Steady s6 s7 := .foldl (fun s p => writeSlots_steady _ s) _ s6
  have h8 : Steady s7 s8 := .rest (by rfl)
  have h9 : Steady s8 s9 := .foldl (fun s p => .ite (setQos_steady _ _ _ s) (.refl s)) _ s8
  have h10 : Steady s9 s10 := setPolicy_steady _ s9
  have h11 : Steady s10 s11 := Steady.after (holdFclk_steady _) (.rest (by rfl))
  have h12 : Steady s11 s12 := settlePorts_steady true s11
  have h13 : Steady s12 s13 := .foldl (fun s v => (detachVi_steady v s).trans (.rest (by rfl))) _ s12
  have h14 : Steady s13 s14 := setMeas_steady _ _ s13
  have stopped := (h1.trans (h2.trans (h3.trans (h4.trans (h5.trans (h6.trans h7))))))
  have shared := h8.trans (h9.trans (h10.trans (h11.trans (h12.trans (h13.trans h14)))))
  exact stopped.trans (shared.trans (.foldl (fun s p => setMeas_steady _ _ s) _ s14))

/-! ### The end of a load, and readiness -/

theorem endLoad_steady (st : Status) (es : List ReportEntry) (s : State) : Steady s (endLoad st es s) := by
  unfold endLoad
  extract_lets l u img v
  have reported : ∀ (addr len : Nat) (r : Report) (s : State), Steady s (putReport addr len r s) := by
    intro addr len r s
    unfold putReport
    extract_lets toHost r' img w bs
    have first : Steady s w := .rest (by rfl)
    exact first.trans (.ite (.foldl (fun s p => .emit _ s) _ w) (.refl w))
  have dropped : Steady s (dropWindow l.hwtIx s) := by
    unfold dropWindow
    split
    · exact .refl s
    · exact .rest (by rfl)
  have first : Steady s u := dropped.trans (reported _ _ _ _)
  have second : Steady u v := .rest (by rfl)
  exact first.trans (second.trans (.ite (.refl v) (.rest (by rfl))))

theorem fileReady_steady (f : List Byte) (req : Option Nat) (s : State) : Steady s (fileReady f req s) := by
  unfold fileReady
  extract_lets c l l' img u part
  have first : Steady s u := .rest (by rfl)
  refine first.trans ?_
  split
  · exact endLoad_steady _ _ u
  · exact .ite (endLoad_steady _ _ u) (.ite (endLoad_steady _ _ u) (.ite (endLoad_steady _ _ u) (.rest (by rfl))))

theorem bootLoad_steady (s : State) : Steady s (bootLoad s) := by
  unfold bootLoad
  extract_lets b img u n
  have first : Steady s u := .rest (by rfl)
  exact first.trans (.ite (endLoad_steady _ _ u) (fileReady_steady _ _ u))

theorem imageValidationDone_steady (s : State) : Steady s (imageValidationDone s) := by
  unfold imageValidationDone
  extract_lets l c es
  refine .ite (.refl s) (.ite (.ite (endLoad_steady _ _ s) (.rest (by rfl))) (.ite ?_ (.ite (endLoad_steady _ _ s) (.rest (by rfl)))))
  split
  · exact endLoad_steady _ _ s
  · exact .ite (endLoad_steady _ _ s) (.ite (endLoad_steady _ _ s) (.rest (by rfl)))

theorem tryReady_steady (p : Nat) (s : State) : Steady s (tryReady p s) := by
  unfold tryReady
  extract_lets x sent measured y base T noted told
  have readied : ∀ s : State, Steady s (s.modPart p (fun x => { x with readySent := true })) := fun s => .rest (by rfl)
  refine .ite (.refl s) (.ite ((readied s).trans (.work (.token _ _ _))) (.ite ((readied s).trans (raise_steady _ _ _ _)) ?_))
  have first : Steady s measured := by
    show Steady s (measureD p s)
    unfold measureD
    refine .ite ?_ (.refl s)
    extract_lets r
    have drawn : Steady s r.2 := by
      show Steady s (if _ then (0#16, s) else s.drawFree 16).2
      split
      · exact .refl s
      · exact .rest (by rfl)
    exact drawn.trans (.rest (by rfl))
  have second : Steady measured told := (readied measured).trans (.foldl (fun s n => .work (.token _ _ s)) _ _)
  refine first.trans (second.trans ?_)
  unfold armRelease sendStepInfo
  extract_lets step
  have armed : Steady told (told.modPart p (fun x => { x with armed := some { tick := BitVec.ofNat 64 T, distributed := true } })) := .rest (by rfl)
  exact armed.trans (.foldl (fun s k => .emit _ s) _ _)

theorem becomeReady_steady (p : Nat) (s : State) : Steady s (becomeReady p s) := by
  unfold becomeReady
  extract_lets x
  refine .ite (.refl s) ?_
  generalize readied : s.modPart p _ = u
  have first : Steady s u := by rw [← readied]; exact .rest (by rfl)
  exact first.trans (tryReady_steady p u)

theorem fullImageActivate_steady (s : State) : Steady s (fullImageActivate s) := by
  unfold fullImageActivate
  extract_lets l bad es u go st v
  have first : Steady s u := installFull_steady _ s
  have second : Steady u v := .foldl (fun s p => becomeReady_steady p s) _ u
  exact .ite (.refl s) (.ite (endLoad_steady _ _ s) (first.trans (second.trans ((endLoad_steady _ _ v).trans (refresh_steady _)))))

/-- The boot image is loaded, validated and activated. -/
theorem startBoot_steady (s : State) : Steady s (startBoot s) :=
  (bootLoad_steady s).trans ((imageValidationDone_steady _).trans (fullImageActivate_steady _))

end Sys2Proof.Machine
end


section
/-! SUPPORT. The stages of a start: what the tests of memory leave of a good bank, and how far each stage brings the start
(R719 to R736). -/
namespace Sys2Proof.Machine
open Sys2Proof Sys2Proof.Safety

/-! ### Stage 3 -/

/-- The groups of memory act by LOG. -/
def MemLogs (s : State) : Prop := Groups s ∧ ∀ g, 17 ≤ g → g ≤ 23 → Logs g s

/-- Work that leaves the start where it stands, and bank `b` in or out of service, while the groups of memory act by LOG. -/
structure BankWork (b : Nat) (s t : State) : Prop where
  steady : Steady s t
  bank : MemLogs s → Tab.wf {} s.mem.banks = true → Tab.wf {} t.mem.banks = true ∧ (t.bank b).fenced = (s.bank b).fenced

namespace BankWork
variable {b : Nat} {r s t : State}

theorem refl (s : State) : BankWork b s s := ⟨.refl s, fun _ wf => ⟨wf, rfl⟩⟩

theorem trans (h : BankWork b r s) (k : BankWork b s t) : BankWork b r t := by
  refine ⟨h.steady.trans k.steady, fun logs wf => ?_⟩
  obtain ⟨groups, log⟩ := logs
  obtain ⟨wf', up⟩ := h.bank ⟨groups, log⟩ wf
  obtain ⟨wf'', up'⟩ := k.bank ⟨h.steady.groups groups, fun g low high => (h.steady.action groups g).trans (log g low high)⟩ wf'
  exact ⟨wf'', up'.trans up⟩

/-- The last piece of work first. -/
theorem after (k : BankWork b s t) (h : BankWork b r s) : BankWork b r t := h.trans k

theorem ite {p : Prop} [Decidable p] {u v : State} (hu : BankWork b s u) (hv : BankWork b s v) : BankWork b s (if p then u else v) := by
  split <;> assumption

theorem foldl {β : Type} {f : State → β → State} (l : List β) (step : ∀ s, ∀ a ∈ l, BankWork b s (f s a)) (s : State) : BankWork b s (l.foldl f s) := by
  induction l generalizing s with
  | nil => exact refl s
  | cons a l ih => exact (step s a List.mem_cons_self).trans (ih (fun s x mem => step s x (List.mem_cons_of_mem a mem)) _)

/-- Work that leaves the banks. -/
theorem other (steady : Steady s t) (banks : t.mem.banks = s.mem.banks) : BankWork b s t :=
  ⟨steady, fun _ wf => by unfold State.bank; rw [banks]; exact ⟨wf, rfl⟩⟩

theorem rest (same : (t.flt.groups, t.mgt.progress, t.mem.banks) = (s.flt.groups, s.mgt.progress, s.mem.banks)) : BankWork b s t := by
  simp only [Prod.mk.injEq] at same
  obtain ⟨groups, progress, banks⟩ := same
  exact other (.other groups progress) banks

/-- Another bank changes, or this one in other registers. -/
theorem setBank {k : Nat} {x : Bank} (same : b = k → x.fenced = (s.bank k).fenced) : BankWork b s (s.setBank k x) := by
  refine ⟨(.rest (by rfl)), fun _ wf => ⟨Tab.wf_set wf _ _, ?_⟩⟩
  by_cases here : b = k
  · rw [here, State.bank_setBank wf]
    exact same here
  · rw [State.bank_setBank_other wf here]

/-- A fault of a group of memory. -/
theorem raise {g : Nat} (low : 17 ≤ g) (high : g ≤ 23) (bit unit : Nat) : BankWork b s (raise g bit unit s) := by
  refine ⟨raise_steady g bit unit s, fun ⟨groups, log⟩ wf => ?_⟩
  have mem := Laws.raise_calm_mem (bit := bit) (unit := unit) groups (.inl (log g low high))
  unfold State.bank
  rw [mem]
  exact ⟨wf, rfl⟩

end BankWork

/-- Every granule belongs to a group of memory. -/
theorem granGroup_memory (s : State) (pa : Nat) : 17 ≤ granGroup (granAt s pa) ∧ granGroup (granAt s pa) ≤ 23 := by
  have hbm : ∀ m ch g, paSpot s pa = .hbm m ch g → m < 6 := fun m ch g spot => by
    unfold paSpot at spot
    dsimp only at spot
    repeat' split at spot
    all_goals cases spot
    omega
  unfold granGroup granAt
  cases spot : paSpot s pa with
  | hbm m ch g =>
    have low := hbm m ch g spot
    obtain ⟨ch32, g1024⟩ := paSpot_hbm spot
    unfold granOf
    dsimp only
    split <;> omega
  | sram k g =>
    obtain ⟨k64, g80⟩ := paSpot_sram spot
    unfold granOf
    dsimp only
    split <;> omega
  | srmHole => exact ⟨by decide, by decide⟩
  | memHole m => exact ⟨(by decide : 17 ≤ 23), (by decide : 23 ≤ 23)⟩
  | site n o => exact ⟨(by decide : 17 ≤ 23), (by decide : 23 ≤ 23)⟩

section
variable {b : Nat}

theorem fenceGranule_bank (pa : Nat) (s : State) : BankWork b s (fenceGranule pa s) := by
  obtain ⟨low, high⟩ := granGroup_memory s pa
  unfold fenceGranule
  extract_lets g granule u v
  have first : BankWork b s u := .rest (by rfl)
  have second : BankWork b u v := by
    show BankWork b u (match granPart u g with | some p => markFence [p] u | none => u)
    split
    · exact .ite (.rest (by rfl)) (.refl u)
    · exact .refl u
  exact first.trans (second.trans (.raise low high _ _))

theorem replaceRow_bank {pa : Nat} {s t : State} (replaced : replaceRow pa s = some t) : BankWork b s t := by
  unfold replaceRow at replaced
  dsimp only at replaced
  split at replaced
  · cases replaced
  · split at replaced
    · split at replaced
      · cases replaced
      · cases replaced
        exact .setBank fun _ => rfl
    · split at replaced
      · cases replaced
        exact .rest (by rfl)
      · split at replaced
        · unfold hardRepair at replaced
          dsimp only at replaced
          split at replaced
          · cases replaced
          · cases replaced
            exact .rest (by rfl)
        · cases replaced
    · cases replaced
      exact .refl s

/-- A row of the map or of a finding. -/
theorem startRow_bank (d : Nat) (s : State) : BankWork b s (startRow d s) := by
  have repaired : ∀ pa, BankWork b s (match replaceRow pa s with | some s => s | none => fenceGranule pa s) := fun pa => by
    cases replaced : replaceRow pa s with
    | none => exact fenceGranule_bank pa s
    | some t => exact replaceRow_bank replaced
  unfold startRow
  extract_lets ty absent k
  have logged : BankWork b s absent := .rest (by rfl)
  refine .ite (.ite logged ?_) (.ite (.ite logged (.ite (.refl s) ?_)) (.refl s))
  · split
    · exact repaired _
    · exact .setBank fun _ => rfl
  · split
    · exact repaired _
    · exact .refl s

theorem fenceChan_bank (c : Nat) (s : State) : BankWork b s (fenceChan c s) := .rest (by rfl)

theorem fenceStack_bank (m : Nat) (s : State) : BankWork b s (fenceStack m s) := by
  unfold fenceStack
  extract_lets u stack v
  have first : BankWork b s v := .rest (by rfl)
  exact first.trans (.foldl _ (fun s ch _ => fenceChan_bank _ s) v)

theorem startStacks_bank (bad : List Nat) (s : State) : BankWork b s (startStacks bad s) := by
  unfold startStacks
  extract_lets mm u
  have first : BankWork b s u := .ite (.raise (by decide) (by decide) _ _) (.refl s)
  refine first.trans (BankWork.foldl _ ?_ u)
  intro v m low
  rw [List.mem_range] at low
  extract_lets v1 stack v2 v3
  have powered : BankWork b v v2 := .rest (by rfl)
  have trained : BankWork b v2 v3 := .foldl _ (fun w ch _ => .ite ((fenceChan_bank _ w).trans (.raise (by omega) (by omega) _ _)) (.rest (by rfl))) v2
  exact .ite (.refl v) (powered.trans (trained.trans (.ite (fenceStack_bank m v3) (.refl v3))))

/-- The tests of memory leave a bank in service that they did not find bad. -/
theorem startMemory_bank {x : StartIn} (good : x.banksBad.contains b = false) (units : List Nat) (s : State) : BankWork b s (startMemory x units s) := by
  unfold startMemory
  extract_lets u v
  have first : BankWork b s u := startStacks_bank _ s
  have second : BankWork b u v := by
    refine BankWork.foldl _ (fun w k bad => ?_) u
    have other : b ≠ k := by
      rintro rfl
      have listed := (List.mem_filter.mp bad).1
      rw [← List.contains_iff_mem] at listed
      rw [listed] at good
      cases good
    unfold fenceBank
    extract_lets bank y
    have fenced : BankWork b w y := .setBank fun here => absurd here other
    exact fenced.trans (.rest (by rfl))
  exact first.trans (second.trans (.foldl _ (fun w d _ => startRow_bank d w) v))

end

/-! ### Stages 4 and 5 -/

theorem startLink_bank {b : Nat} (d : Nat) (s : State) : BankWork b s (startLink d s) := by
  unfold startLink
  exact .ite (.rest (by rfl)) (.refl s)

theorem startCellBad_steady (d : Nat) (s : State) : Steady s (startCellBad d s) := by
  unfold startCellBad
  exact .ite (.refl s) (.ite (.rest (by rfl)) (.ite (.refl s) (.ite (fenceCol_steady _ s) (.ite (.rest (by rfl)) (.rest (by rfl))))))

theorem startCells_steady (x : StartIn) (units : List Nat) (s : State) : Steady s (startCells x units s) := by
  unfold startCells
  extract_lets u
  have first : Steady s u := .foldl (fun s d => startCellBad_steady d s) _ s
  exact first.trans (.foldl (fun s k => .ite (.refl s) (fenceCol_steady k s)) _ u)

theorem appendFindings_steady (s : State) : Steady s (appendFindings s) := by
  unfold appendFindings
  refine Steady.foldl (fun u f => .ite (.refl u) ?_) _ s
  cases appended : appendDefect f.1.toNat u with
  | none => exact .rest (by rfl)
  | some v =>
    have first : Steady u v := by
      unfold appendDefect at appended
      dsimp only at appended
      split at appended
      · cases appended
      · cases appended
        exact .rest (by rfl)
    exact first.trans (.rest (by rfl))

end Sys2Proof.Machine
end


section
/-! SUPPORT. A start of the hub: what ROM finds, and how far the start comes (R719 to R742). -/
namespace Sys2Proof.Machine
open Sys2Proof Sys2Proof.Safety

/-! ### The firmware part -/

/-- The start once it has entered a stage. -/
def Progress.enter (n : Nat) (st : Stage) (p : Progress) : Progress := { p with stage := st, record := { p.record with last := n } }

theorem enterStage_progress {n : Nat} {st : Stage} {s : State} (present : s.mgt.flash.present = true) :
    (enterStage n st s).mgt.progress = s.mgt.progress.enter n st := by
  unfold enterStage setStart
  rw [if_pos present]
  rfl

theorem enterStage_shape (n : Nat) (st : Stage) (s : State) : ∃ mgt, enterStage n st s = { s with mgt := mgt } := by
  unfold enterStage
  obtain ⟨flash, started, -⟩ := setStart_shape (fun r => { r with last := n }) { s with mgt := { s.mgt with stage := st } }
  rw [started]
  exact ⟨_, rfl⟩

/-- A start that has come as far as `p`, with bank `b` in service and the groups of memory acting by LOG. -/
structure Reached (b : Nat) (p : Progress) (s : State) : Prop where
  logs : MemLogs s
  banks : Tab.wf {} s.mem.banks = true
  up : (s.bank b).fenced = false
  progress : s.mgt.progress = p

namespace Reached
variable {b : Nat} {p : Progress} {s t : State}

theorem work (h : Reached b p s) (k : BankWork b s t) : Reached b p t := by
  obtain ⟨logs, banks, up, progress⟩ := h
  obtain ⟨banks', up'⟩ := k.bank logs banks
  obtain ⟨groups, log⟩ := logs
  exact ⟨⟨k.steady.groups groups, fun g low high => (k.steady.action groups g).trans (log g low high)⟩, banks', up'.trans up,
    k.steady.progress.trans progress⟩

theorem enter (h : Reached b p s) (present : p.present = true) (n : Nat) (st : Stage) : Reached b (p.enter n st) (enterStage n st s) := by
  obtain ⟨logs, banks, up, progress⟩ := h
  have fitted : s.mgt.flash.present = true := (congrArg Progress.present progress).trans present
  have entered := enterStage_progress (n := n) (st := st) fitted
  obtain ⟨mgt, shape⟩ := enterStage_shape n st s
  rw [progress] at entered
  rw [shape] at entered ⊢
  exact ⟨logs, banks, up, entered⟩

end Reached

theorem setMeas_bank {b : Nat} (idx : Nat) (v : List Byte) (s : State) : BankWork b s (setMeas idx v s) := by
  obtain ⟨sec, vis, set⟩ := setMeas_shape idx v s
  rw [set]
  exact .rest (by rfl)

/-- A start whose clock and crossings come up, with a bank in service, runs to the activation of the boot image. -/
theorem firmwareStart_completes {x : StartIn} {prevDone : Bool} {s : State} {b : Nat} {p : Progress} (reached : Reached b p s)
    (present : p.present = true) (listed : b < 64) (good : x.banksBad.contains b = false) (lock : x.synthLock = true) (crossed : x.crossings = 7#3) :
    (firmwareStart x prevDone s).mgt.progress = { p with stage := .s5, record := { p.record with last := 5 } } := by
  unfold firmwareStart
  extract_lets s1 s2 s3 s4 s5 s6 warm f units mgt s7 noc s8 s9 s10 s11 s12 s13
  have h1 : Reached b (p.enter 1 .s1) s1 := reached.enter present 1 .s1
  have h2 : BankWork b s1 s2 := setMeas_bank _ _ _
  have h3 : BankWork b s2 s3 := ((setMeas_bank _ _ s2).trans (setMeas_bank _ _ _)).trans (setMeas_bank _ _ _)
  clear_value s3
  have h4 : BankWork b s3 s4 := .ite (.rest (by rfl)) (.refl s3)
  clear_value s4
  have h5 : BankWork b s4 s5 := .foldl _ (fun s n _ => .rest (by rfl)) s4
  clear_value s5
  have h6 : BankWork b s5 s6 := .foldl _ (fun s n _ => .rest (by rfl)) s5
  clear_value s6
  have h7 : BankWork b s6 s7 := .rest (by rfl)
  have crossing : BankWork b s7 { s7 with noc := { noc with segsUp := x.crossings } } := .rest (by rfl)
  have h8 : Reached b _ s8 := (h1.work (h2.trans (h3.trans (h4.trans (h5.trans (h6.trans (h7.trans crossing))))))).enter present 2 .s2
  have h9 : Reached b _ s9 := (h8.enter present 3 .s3).work (startMemory_bank good units _)
  have serves : ¬(List.range 64).all (fun b => (s9.bank b).fenced) = true := by
    intro all
    rw [List.all_eq_true] at all
    have fenced := all b (List.mem_range.mpr listed)
    rw [h9.up] at fenced
    cases fenced
  rw [if_neg (by simp [lock, crossed]), if_neg serves]
  clear_value s9
  have linked : BankWork b s10 s11 := .foldl _ (fun s d _ => startLink_bank d s) s10
  have ported : BankWork b s11 s12 := .rest (by rfl)
  have h12 := (((h9.enter present 4 .s4).work (linked.trans ported)).enter present 5 .s5).progress
  have last := (startCells_steady x units (enterStage 5 .s5 s12)).trans ((appendFindings_steady _).trans (startBoot_steady _))
  exact last.progress.trans h12

end Sys2Proof.Machine
end


section
/-! SUPPORT. What ROM leaves for a start, and where it sends it (R639 to R660, R719 to R752). -/
namespace Sys2Proof.Machine
open Sys2Proof Sys2Proof.Safety

variable {x : StartIn} {s t u : State}

/-- Every group but those of the sites and the fabric's quadrants acts by LOG. -/
def HubLogs (s : State) : Prop := Groups s ∧ ∀ g, g ≠ 16 → ¬(24 ≤ g ∧ g ≤ 27) → Logs g s

/-- Work that leaves memory, firmware's own state and the life cycle, while the groups of the hub act by LOG. -/
structure RomWork (s t : State) : Prop where
  logs : HubLogs s → HubLogs t
  mem : HubLogs s → t.mem = s.mem
  mgt : HubLogs s → t.mgt = s.mgt
  lcs : HubLogs s → t.lcs = s.lcs

namespace RomWork

theorem refl (s : State) : RomWork s s := ⟨id, fun _ => rfl, fun _ => rfl, fun _ => rfl⟩

theorem trans (h : RomWork s t) (k : RomWork t u) : RomWork s u :=
  ⟨k.logs ∘ h.logs, fun logs => (k.mem (h.logs logs)).trans (h.mem logs), fun logs => (k.mgt (h.logs logs)).trans (h.mgt logs),
    fun logs => (k.lcs (h.logs logs)).trans (h.lcs logs)⟩

theorem ite {p : Prop} [Decidable p] {a b : State} (ha : RomWork s a) (hb : RomWork s b) : RomWork s (if p then a else b) := by
  split <;> assumption

theorem steady (h : Steady s t) (mem : HubLogs s → t.mem = s.mem) (mgt : HubLogs s → t.mgt = s.mgt) (lcs : HubLogs s → t.lcs = s.lcs) : RomWork s t :=
  ⟨fun ⟨groups, log⟩ => ⟨h.groups groups, fun g site quad => (h.action groups g).trans (log g site quad)⟩, mem, mgt, lcs⟩

theorem raise {g : Nat} (site : g ≠ 16) (quad : ¬(24 ≤ g ∧ g ≤ 27)) (bit unit : Nat) : RomWork s (raise g bit unit s) :=
  steady (raise_steady g bit unit s) (fun ⟨groups, log⟩ => Laws.raise_calm_mem groups (.inl (log g site quad)))
    (fun ⟨groups, log⟩ => Laws.raise_calm_mgt groups (.inl (log g site quad)))
    (fun ⟨groups, log⟩ => Laws.raise_calm_lcs groups (.inl (log g site quad)))

theorem refresh (s : State) : RomWork s (refresh s) :=
  steady (refresh_steady s) (fun _ => refresh_mem s) (fun _ => refresh_mgt s) (fun _ => refresh_lcs s)

end RomWork

/-! ### ROM -/

/-- What ROM has set before it looks for faults. -/
def romSet (x : StartIn) (s : State) : State :=
  let s := romBurn x s
  let s := { s with lcs := { s.lcs with pcw := s.lcs.otp.pcw } }
  { s with flt := { s.flt with modeRead := true, heartbeat := errHeartbeat s } }

theorem romFirst_work (x : StartIn) (s : State) : RomWork (romSet x s) (romFirst x s) := by
  have part : ∀ u : State, RomWork u (if (partFields s.lcs.otp).isEmpty then u else raise 3 1 0 u) :=
    fun u => .ite (.refl u) (.raise (by decide) (by decide) _ _)
  have secret : ∀ u : State, RomWork u (if secretState u.lcs.otp = 3 then raise 3 3 0 u else u) :=
    fun u => .ite (.raise (by decide) (by decide) _ _) (.refl u)
  have throt : ∀ u : State, RomWork u (if x.throtLow then raise 6 7 0 u else u) := fun u => .ite (.raise (by decide) (by decide) _ _) (.refl u)
  exact (part (romSet x s)).trans ((secret _).trans ((throt _).trans (.refresh _)))

/-- The flash as ROM finds it: the device, and the slots but for a repeated wipe. -/
def romFlash (x : StartIn) (rep : Bool) (f : Flash) : Flash :=
  { f with present := x.flashOk, slotA := if rep then none else f.slotA, slotB := if rep then none else f.slotB,
           recov := if rep then none else f.recov }

/-- What ROM leaves of a hub that was reset: empty memory with no bank fenced, OTP finished, and no start stopped. -/
structure RomFound (x : StartIn) (s t : State) : Prop where
  logs : HubLogs t
  bytes : t.mem.bytes = []
  banks : t.mem.banks = []
  otp : t.lcs.otp = romOtp s.lcs.otp
  pcw : t.lcs.pcw = (romOtp s.lcs.otp).pcw
  flash : t.mgt.flash = romFlash x (wipeDue (finishFields s.lcs.otp)) s.mgt.flash
  going : t.mgt.stopStart = false

theorem RomFound.work (h : RomFound x s t) (k : RomWork t u) : RomFound x s u := by
  obtain ⟨logs, bytes, banks, otp, pcw, flash, going⟩ := h
  exact ⟨k.logs logs, by rw [k.mem logs]; exact bytes, by rw [k.mem logs]; exact banks, by rw [k.lcs logs]; exact otp, by rw [k.lcs logs]; exact pcw,
    by rw [k.mgt logs]; exact flash, by rw [k.mgt logs]; exact going⟩

theorem romSet_found (x : StartIn) (s : State) : RomFound x s (romSet x (enterReset s)) := by
  obtain ⟨out, reset⟩ := enterReset_shape s
  rw [reset]
  refine ⟨⟨rfl, fun g site quad => ?_⟩, rfl, rfl, rfl, rfl, rfl, rfl⟩
  show (FGroup.reset g).action = .log
  unfold FGroup.reset
  rw [if_neg (by omega)]

theorem romFirst_found (x : StartIn) (s : State) : RomFound x s (romFirst x (enterReset s)) := (romSet_found x s).work (romFirst_work x _)

/-! ### Where ROM sends a start -/

/-- A reset once ROM has looked for faults: flatbread mode, the stop of the start, or the selection of a slot. -/
def afterRom (x : StartIn) (lost : Bool) (s : State) : State :=
  if lifeCycle s = 4 then refresh (flatbread 0x20 s)
  else if !s.mgt.flash.present then refresh (flatbread 1 s)
  else
    let r := s.mgt.flash.start
    let failed := if r.pending && !lost then r.failed + 1 else r.failed
    let s := setStart (fun r => { r with failed := failed, pending := true }) s
    if 3 ≤ failed then refresh (flatbread (0x10 + min 5 (max 1 r.last)) s)
    else
      let s := { s with sec := { s.sec with entropyOk := x.entropyOk } }
      let s := if x.entropyOk then s else raise 4 1 0 s
      if !x.sramTest || !x.secTest || !x.otpOk || (pcwOn s && !pcwCrcOk s.lcs.pcw) then
        refresh (fatalStart 1 { s with mgt := { s.mgt with stage := .s1 } })
      else refresh (romSelect x (!r.pending) s)

theorem hubReset_runs (powered : s.pwr.powered = true) (fresh : s.mgt.rcvRun = false) (untripped : s.pwr.tripRec = false) :
    ∃ t, hubReset x s = afterRom x s.pwr.inputLost t ∧ RomFound x s t := by
  have found := romFirst_found x s
  generalize first : romFirst x (enterReset s) = u at found
  refine ⟨{ u with pwr := { u.pwr with inputLost := false } }, ?_, ?_⟩
  · unfold hubReset
    rw [if_neg (by rw [powered]; decide), if_neg (by rw [fresh]; decide), first, untripped]
    rfl
  · obtain ⟨logs, bytes, banks, otp, pcw, flash, going⟩ := found
    exact ⟨logs, bytes, banks, otp, pcw, flash, going⟩

theorem lifeCycle_scrapped (field : burnt s.lcs.otp 3 = true) : lifeCycle s = 4 := by
  unfold lifeCycle
  dsimp only
  rw [if_pos field]

theorem lifeCycle_unscrapped (field : burnt s.lcs.otp 3 = false) : lifeCycle s ≠ 4 := by
  unfold lifeCycle
  dsimp only
  rw [if_neg (by rw [field]; decide)]
  repeat' split
  all_goals decide

/-- The start record of a start that counts. -/
def countedFlash (failed : Nat) (f : Flash) : Flash := { f with start := { f.start with failed := failed, pending := true } }

theorem setStart_counts (present : t.mgt.flash.present = true) (failed : Nat) :
    setStart (fun r => { r with failed := failed, pending := true }) t = { t with mgt := { t.mgt with flash := countedFlash failed t.mgt.flash } } := by
  unfold setStart
  exact if_pos present

/-- The failures in a row that a start counts: one more where the start before did not complete and the supply held. -/
def failures (lost : Bool) (r : StartRec) : Nat := if r.pending && !lost then r.failed + 1 else r.failed

/-- The state whose flash counts a start. -/
def counting (lost : Bool) (s : State) : State :=
  { s with mgt := { s.mgt with flash := countedFlash (failures lost s.mgt.flash.start) s.mgt.flash } }

/-- A start whose flash is fitted and whose failures are fewer than three: the fatal stop of its first stage, or the selection of a slot. -/
theorem afterRom_starts {lost : Bool} (found : RomFound x s t) (field : burnt (romOtp s.lcs.otp) 3 = false) (fitted : x.flashOk = true)
    (few : failures lost s.mgt.flash.start < 3) : ∃ u, RomFound x (counting lost s) u ∧
      afterRom x lost t = if !x.sramTest || !x.secTest || !x.otpOk || (pcwOn u && !pcwCrcOk u.lcs.pcw) then
        refresh (fatalStart 1 { u with mgt := { u.mgt with stage := .s1 } })
      else refresh (romSelect x (!s.mgt.flash.start.pending) u) := by
  obtain ⟨logs, bytes, banks, otp, pcw, flash, going⟩ := found
  have record : t.mgt.flash.start = s.mgt.flash.start := by rw [flash]; rfl
  have present : t.mgt.flash.present = true := by rw [flash]; exact fitted
  obtain ⟨v, isv⟩ : ∃ v : State, v = { counting lost t with sec := { t.sec with entropyOk := x.entropyOk } } := ⟨_, rfl⟩
  have counted : RomFound x (counting lost s) v := by
    rw [isv]
    refine ⟨logs, bytes, banks, otp, pcw, ?_, going⟩
    show countedFlash (failures lost t.mgt.flash.start) t.mgt.flash = _
    rw [flash]
    rfl
  refine ⟨if x.entropyOk then v else raise 4 1 0 v, counted.work (.ite (.refl v) (.raise (by decide) (by decide) _ _)), ?_⟩
  have sets : setStart (fun r => { r with failed := failures lost t.mgt.flash.start, pending := true }) t = counting lost t := setStart_counts present _
  unfold afterRom
  rw [if_neg (lifeCycle_unscrapped (by rw [otp]; exact field)), if_neg (by rw [present]; decide)]
  dsimp only
  have count : (if (t.mgt.flash.start.pending && !lost) = true then t.mgt.flash.start.failed + 1 else t.mgt.flash.start.failed) =
      failures lost t.mgt.flash.start := rfl
  rw [count, if_neg (by rw [record]; omega), sets, record, isv]
  rfl

end Sys2Proof.Machine
end


section
/-! SUPPORT. The slot that ROM selects, and the end of a start (R742, R752, R755). -/
namespace Sys2Proof.Machine
open Sys2Proof Sys2Proof.Safety

variable {x : StartIn} {s t u : State}

/-! ### OTP after ROM's burns -/

theorem finishFields_rollback (o : Otp) : (finishFields o).rollback = o.rollback := by
  have all : ∀ (fs : List Nat) (o : Otp), (fs.foldl (fun o f => finishField f o) o).rollback = o.rollback := by
    intro fs
    induction fs with
    | nil => exact fun _ => rfl
    | cons f fs ih => exact fun o => (ih (finishField f o)).trans rfl
  exact all _ o

theorem wipeOtp_wf {o : Otp} (wf : Tab.wf 0 o.fields = true) : Tab.wf 0 (wipeOtp o).fields = true := by
  simp only [wipeOtp]
  exact wf

/-- Where SCRAP does not read as burnt after ROM's burns, no wipe was due. -/
theorem wipeDue_of_unscrapped {o : Otp} (wf : Tab.wf 0 o.fields = true) (field : burnt (romOtp o) 3 = false) : wipeDue (finishFields o) = false := by
  by_contra due
  rw [Bool.not_eq_false] at due
  have scrapped : burnt (finishFields o) 3 = true := by
    unfold wipeDue at due
    rw [Bool.and_eq_true] at due
    exact due.1
  obtain ⟨wf', -⟩ := Laws.otp_finishFields wf
  have wiped : burnt (wipeOtp (finishFields o)) 3 = true := burnt_mono (Laws.otp_wipe _) scrapped
  have same : burnt (romOtp o) 3 = burnt (wipeOtp (finishFields o)) 3 := by
    unfold romOtp
    rw [if_pos due]
    exact burnt_finishField_other (wipeOtp_wf wf') (by decide)
  rw [same, wiped] at field
  cases field

/-! ### Flatbread mode, and the stop of a start -/

theorem flatbread_stands (reason : Nat) (s : State) : let t := refresh (flatbread reason s)
    t.mgt.stage = .flatbread ∧ t.mgt.flatReason = reason ∧ t.mem = s.mem ∧ t.mgt.flash = s.mgt.flash := by
  dsimp only
  rw [refresh_mgt, refresh_mem]
  exact ⟨rfl, rfl, rfl, rfl⟩

theorem afterRom_scrapped {lost : Bool} (found : RomFound x s t) (field : burnt (romOtp s.lcs.otp) 3 = true) :
    afterRom x lost t = refresh (flatbread 0x20 t) := by
  unfold afterRom
  exact if_pos (lifeCycle_scrapped (by rw [found.otp]; exact field))

theorem afterRom_absent {lost : Bool} (found : RomFound x s t) (field : burnt (romOtp s.lcs.otp) 3 = false) (absent : x.flashOk = false) :
    afterRom x lost t = refresh (flatbread 1 t) := by
  have none_ : t.mgt.flash.present = false := by rw [found.flash]; exact absent
  unfold afterRom
  rw [if_neg (lifeCycle_unscrapped (by rw [found.otp]; exact field)), if_pos (by rw [none_]; decide)]

theorem afterRom_fails {lost : Bool} (found : RomFound x s t) (field : burnt (romOtp s.lcs.otp) 3 = false) (fitted : x.flashOk = true)
    (many : 3 ≤ failures lost s.mgt.flash.start) :
    afterRom x lost t = refresh (flatbread (0x10 + min 5 (max 1 s.mgt.flash.start.last)) (counting lost t)) := by
  have record : t.mgt.flash.start = s.mgt.flash.start := by rw [found.flash]; rfl
  have present : t.mgt.flash.present = true := by rw [found.flash]; exact fitted
  have sets : setStart (fun r => { r with failed := failures lost t.mgt.flash.start, pending := true }) t = counting lost t := setStart_counts present _
  have count : (if (t.mgt.flash.start.pending && !lost) = true then t.mgt.flash.start.failed + 1 else t.mgt.flash.start.failed) =
      failures lost t.mgt.flash.start := rfl
  unfold afterRom
  rw [if_neg (lifeCycle_unscrapped (by rw [found.otp]; exact field)), if_neg (by rw [present]; decide)]
  dsimp only
  rw [count, if_pos (by rw [record]; exact many), sets, record]

/-! ### The slot -/

theorem romSelect_none {prevDone : Bool} (a : x.verifyA = false) (b : x.verifyB = false) (r : x.verifyR = false) :
    romSelect x prevDone s = flatbread 2 s := by
  have bad : ∀ t, slotVerifies x s.mgt.flash t = false := fun t => by
    unfold slotVerifies
    rw [a, b, r]
    simp
  have empty : (slotOrder s.mgt.flash).filter (slotVerifies x s.mgt.flash) = [] := List.filter_eq_nil_iff.mpr fun t _ => by rw [bad t]; decide
  unfold romSelect
  dsimp only
  rw [empty]
  rfl

/-- The state in which slot A's image begins to run. -/
def runSlotA (i : FwImage) (s : State) : State :=
  { s with mgt := { s.mgt with running := .a, onTrial := s.mgt.flash.trial == some 0, fw := i, flash := { s.mgt.flash with trial := none } } }

theorem romSelect_active {prevDone : Bool} {i : FwImage} (trial : s.mgt.flash.trial = none) (active : s.mgt.flash.active = 0)
    (slot : s.mgt.flash.slotA = some i) (verifies : x.verifyA = true) (passes : s.lcs.otp.rollback ≤ i.svn) :
    romSelect x prevDone s = firmwareStart x prevDone (runSlotA i s) := by
  have good : slotVerifies x s.mgt.flash 0 = true := by
    unfold slotVerifies slotImage
    rw [if_pos rfl, if_pos rfl, slot, verifies]
    rfl
  have fresh : slotPasses s 0 = true := by
    unfold slotPasses slotImage
    rw [if_pos rfl, slot]
    exact decide_eq_true passes
  have order : slotOrder s.mgt.flash = [0, 1, 2] := by
    unfold slotOrder
    rw [trial, active]
    rfl
  have first : ((slotOrder s.mgt.flash).filter (slotVerifies x s.mgt.flash)).find? (slotPasses s) = some 0 := by
    rw [order, List.filter_cons_of_pos good, List.find?_cons_of_pos fresh]
  have image : (slotImage s.mgt.flash 0).getD {} = i := by
    unfold slotImage
    rw [if_pos rfl, slot]
    rfl
  unfold romSelect runSlotA
  dsimp only
  rw [first]
  dsimp only
  rw [image]
  rfl

end Sys2Proof.Machine

namespace Sys2Proof.Proofs
open Sys2Proof Sys2Proof.Machine Sys2Proof.Safety

/-- The progress of a start from slot A that has activated its boot image. -/
def atBoot (i : FwImage) (record : StartRec) : Progress :=
  { stage := .s5, stopped := false, present := true, record := record, running := .a, fw := i }

/-- The full start of the active slot's image (R719 to R722). -/
theorem afterRom_completes {x : StartIn} {s t : State} {lost : Bool} {i : FwImage} (fields : Tab.wf 0 s.lcs.otp.fields = true) (found : RomFound x s t)
    (field : burnt (romOtp s.lcs.otp) 3 = false) (fitted : x.flashOk = true) (few : failures lost s.mgt.flash.start < 3)
    (sram : x.sramTest = true) (sec : x.secTest = true) (otpOk : x.otpOk = true) (blank : rbit (romOtp s.lcs.otp).pcw 0x40 0 = false)
    (trial : s.mgt.flash.trial = none) (active : s.mgt.flash.active = 0) (slot : s.mgt.flash.slotA = some i) (verifies : x.verifyA = true)
    (passes : s.lcs.otp.rollback ≤ i.svn) (lock : x.synthLock = true) (crossed : x.crossings = 7#3) (banks : ∃ b < 64, x.banksBad.contains b = false) :
    (afterRom x lost t).mgt.progress = atBoot i { failed := failures lost s.mgt.flash.start, pending := true, last := 5 } := by
  obtain ⟨b, listed, good⟩ := banks
  obtain ⟨u, ready, runs⟩ := afterRom_starts found field fitted few
  have kept := wipeDue_of_unscrapped fields field
  have otp : u.lcs.otp = finishFields s.lcs.otp := by
    rw [ready.otp]
    show romOtp s.lcs.otp = _
    unfold romOtp
    exact if_neg (by rw [kept]; decide)
  have off : pcwOn u = false := by
    unfold pcwOn
    rw [ready.pcw]
    exact blank
  have flash : u.mgt.flash = romFlash x false (counting lost s).mgt.flash := ready.flash.trans (congrArg (romFlash x · _) kept)
  rw [runs, if_neg (by simp [sram, sec, otpOk, off]), refresh_mgt,
    romSelect_active (by rw [flash]; exact trial) (by rw [flash]; exact active) (by rw [flash]; exact slot) verifies
      (by rw [otp, finishFields_rollback]; exact passes)]
  have reached : Reached b (runSlotA i u).mgt.progress (runSlotA i u) := by
    obtain ⟨⟨groups, log⟩, -, empty, -⟩ := ready
    refine ⟨⟨groups, fun g low high => log g (by omega) (by omega)⟩, ?_, ?_, rfl⟩
    · show Tab.wf {} u.mem.banks = true
      rw [empty]
      rfl
    · show (Tab.get {} u.mem.banks b).fenced = false
      rw [empty]
      rfl
  have present : (runSlotA i u).mgt.progress.present = true := by
    show u.mgt.flash.present = true
    rw [flash]
    exact fitted
  have progress : (runSlotA i u).mgt.progress =
      { atBoot i (countedFlash (failures lost s.mgt.flash.start) s.mgt.flash).start with stage := u.mgt.stage } := by
    unfold Mgt.progress runSlotA
    dsimp only
    rw [ready.going, flash]
    simp only [romFlash, fitted]
    rfl
  rw [firmwareStart_completes reached present listed good lock crossed, progress]
  rfl

/-- Settles O58: ROM's finding decides between flatbread mode and a start, and a start whose tests pass runs its stages, each of which
leaves its progress to the next. -/
theorem startStages : Obligations.StartStages := by
  unfold Obligations.StartStages
  refine ⟨fun x s canon powered fresh untripped => ?_, fun x s off => congrArg Host.Outcome.next ?_, fun x s going => congrArg Host.Outcome.next (if_pos going),
    fun x s idle => congrArg Host.Outcome.next (if_neg (by rw [idle]; decide)), fun s stage going launched_ => ?_⟩
  · intro r failed
    obtain ⟨t, runs, found⟩ := hubReset_runs (x := x) powered fresh untripped
    have queue : (hubReset x s).pending = s.pending := (Laws.kept_hubReset (Laws.Kept.refl s)).queue
    obtain ⟨-, -, -, -, -, -, -, -, -, -, -, fields, -⟩ := canon
    refine ⟨fun field => ?_, fun field absent => ?_, fun field fitted many => ?_, fun field fitted few => ⟨fun bad => ?_, ?_, ?_⟩⟩
    · have stands := flatbread_stands 0x20 t
      rw [← afterRom_scrapped (lost := s.pwr.inputLost) found field, ← runs] at stands
      obtain ⟨stage, reason, mem, -⟩ := stands
      exact ⟨_, rfl, stage, reason, by rw [mem, found.bytes], queue⟩
    · have stands := flatbread_stands 1 t
      rw [← afterRom_absent (lost := s.pwr.inputLost) found field absent, ← runs] at stands
      obtain ⟨stage, reason, mem, -⟩ := stands
      exact ⟨_, rfl, stage, reason, by rw [mem, found.bytes]⟩
    · have stands := flatbread_stands (0x10 + min 5 (max 1 s.mgt.flash.start.last)) (counting s.pwr.inputLost t)
      rw [← afterRom_fails found field fitted many, ← runs] at stands
      obtain ⟨stage, reason, -, flash⟩ := stands
      refine ⟨_, rfl, stage, reason, ?_⟩
      rw [flash]
      show failures s.pwr.inputLost t.mgt.flash.start = failed
      rw [found.flash]
      rfl
    · obtain ⟨u, ready, starts⟩ := afterRom_starts found field fitted few
      rw [if_pos (by rcases bad with bad | bad | bad <;> simp [bad])] at starts
      refine ⟨_, rfl, ?_⟩
      rw [runs, starts, refresh_mgt]
      refine ⟨rfl, rfl, ?_⟩
      show u.mgt.flash.start.pending = true
      rw [ready.flash]
      rfl
    · intro sram sec otpOk blank a b c
      obtain ⟨u, ready, starts⟩ := afterRom_starts found field fitted few
      have off : pcwOn u = false := by
        unfold pcwOn
        rw [ready.pcw]
        exact blank
      rw [if_neg (by simp [sram, sec, otpOk, off]), romSelect_none a b c] at starts
      obtain ⟨stage, reason, -⟩ := flatbread_stands 2 u
      refine ⟨_, rfl, ?_⟩
      rw [runs, starts]
      exact ⟨stage, reason⟩
    · intro i sram sec otpOk blank trial active slot verifies passes lock crossed banks
      have progress := afterRom_completes fields found field fitted few sram sec otpOk blank trial active slot verifies passes lock crossed banks
      rw [← runs] at progress
      have record : (hubReset x s).mgt.flash.start = _ := congrArg Progress.record progress
      refine ⟨_, rfl, congrArg Progress.stage progress, congrArg Progress.stopped progress, congrArg Progress.fw progress,
        congrArg Progress.running progress, ?_, ?_, queue⟩
      · rw [record]; rfl
      · rw [record]; rfl
  · show hubReset x s = s
    unfold hubReset
    exact if_pos (by rw [off]; decide)
  · refine ⟨startComplete s, rfl, ?_⟩
    unfold startComplete
    rw [if_neg (by simp [stage, going]; exact launched_)]
    refine ⟨rfl, rfl, fun present => ?_⟩
    dsimp only
    rw [if_pos present]
    refine ⟨rfl, ⟨_, rfl, rfl, rfl⟩, fun trial slot => ?_, fun plain => ?_⟩
    · show (if s.mgt.onTrial = true then _ else _) = 1
      rw [if_pos trial, slot]
    · show (if s.mgt.onTrial = true then _ else _) = _
      rw [if_neg (by rw [plain]; decide)]

end Sys2Proof.Proofs
end
